-- ==== Sys2Proof/Word.lean ====
section
/-! DEFINITION. The plainest words of the block: bytes on its buses and 32-bit register words. Register fields and
measured quantities are natural numbers, bounded by the width of the field that holds them. -/

namespace Sys2Proof

/-- One byte of a message, a record or a page (R402, R272, R291). -/
abbrev Byte := BitVec 8

/-- One word of the register map (R428). -/
abbrev Word := BitVec 32

end Sys2Proof
end

