-- ==== Sys2Proof/Syntax.lean ====
section
/-! DEFINITION. The commands of the block: one constructor of `Instr` per row of spec/opcode_table.json, with the
operands that the row's event carries. A measured quantity, a pad level or a partner's message that an event brings is
an operand of the command (DESIGN CHOICE, notes/assumptions/1.md). -/

namespace Sys2Proof

/-- The two sides of the barrier. -/
inductive Side where
  | host | field
deriving DecidableEq, Repr

/-- The twelve engines, in the order of R18. -/
inductive Engine where
  | h0 | h1 | h2 | f0 | f1 | f2 | f3 | f4 | f5 | f6 | f7 | f8
deriving DecidableEq, Repr

/-- The ten power domains, in the order of R21. -/
inductive Domain where
  | hAon | hCore | hPwr | fBkp | fAon | fCore | fAdc | fPwr | fMem | fLink
deriving DecidableEq, Repr

/-- The set-point latches, in the order of R28. -/
inductive LatchId where
  | intakeLim | xferCtl | vsysSet | vsysMin | phTrim (n : Fin 4) | chgV | chgI | chgEn | revSet | polSet (n : Fin 3)
  | qrSet (n : Fin 2) | kaSet | frzPol
deriving DecidableEq, Repr

/-- The privileged actions of R19. -/
inductive GuardAction where
  | serviceWatchdog | switchDomain (d : Domain) (on : Bool) | subSwitch (rail : Fin 5) (on : Bool) | fenceUnit (unit : Nat)
deriving DecidableEq, Repr

/-- The four sidebands, in the order of the SIDEBAND_FAULT detail (R333). -/
inductive SidebandId where
  | line | quiet | halert | falert
deriving DecidableEq, Repr

/-- The sources that can lock the tick (R45). -/
inductive SyncSrc where
  | line | ext | cable | twin
deriving DecidableEq, Repr

/-- A pulse seen on a sideband: its line, and its width in ns (R17). -/
structure SidePulse where
  line : SidebandId
  width : Nat
deriving DecidableEq, Repr

/-- The voltages of a refresh of the monitors, mV (R86). -/
structure IntakeVolts where
  vbus : Nat
  dcin : Nat
  vcbuf : Nat
deriving DecidableEq, Repr

/-- Which test of a soft start is made, at the floor during the ramp or 1 ms after its end, and the output in mV (R124). -/
structure RampTest where
  floor : Bool
  vout : Nat
deriving DecidableEq, Repr

/-- The test of the soft start of a POL rail (R176). -/
structure RailTest extends RampTest where
  rail : Fin 3
deriving DecidableEq, Repr

/-- A stage at its floor after soft start: the current of the fault word's detail, and the output in mV (R134, R204). -/
structure Overload where
  current : Nat
  vout : Nat
deriving DecidableEq, Repr

/-- The indicators that have shown present for 500 ms without a break (bit 0 PACK_DET_N, bit 1 PACK_ID, bits 2 to 5 TS1 to
TS4), and V_BAT averaged over 10 ms, mV (R141). -/
structure Settled where
  shown : Fin 64
  vbat : Nat
deriving DecidableEq, Repr

/-- The detectors that trip, as bits of the BAT_REMOVED detail, and V_BAT in mV (R163). -/
structure Tripped where
  vbat : Nat
  detectors : Fin 64
deriving DecidableEq, Repr

/-- RAIL of a READ, and the newest system-scan value of that rail in mV (R188, R249). -/
structure RailReading where
  rail : Fin 8
  mv : Nat
deriving DecidableEq, Repr

/-- A point of a POL rail's soft start: the measured output in mV, and the time of switching since the rail's last one, in µs
(R176). -/
structure RampStep where
  vout : Nat
  us : Nat
deriving DecidableEq, Repr

/-- A codeword of a committed page, which its PSN names (R292). -/
structure CodewordAt where
  psn : Nat
  word : Fin 16
deriving DecidableEq, Repr

/-- What a run of an ADC slice or a sync source has counted: its conversions or events, and those in error (R530). -/
structure RunCount where
  sent : Nat
  errors : Nat
deriving DecidableEq, Repr

/-- What the sequencer sees as it decides admission (R68): V_BAT and the load of the source role, in mV and mW, and what
is not quiet in time where freeze then comes without a pre-freeze. -/
structure Admit where
  vbat : Nat
  psrc : Nat
  late : Nat                   -- phases that still carry current 4.000 µs after a request (R118)
  lateRails : Nat              -- POL rails that do (R175)
  ns : Nat                     -- how late, ns
deriving DecidableEq, Repr

/-- The two energy inputs of the intake (R76). -/
inductive PowerSrc where
  | vbus | dcin
deriving DecidableEq, Repr

/-- A Tabien message as it arrives (R402): LEN is the payload's length. -/
structure MsgIn where
  type : Nat
  stream : Nat
  seq : Nat
  flags : Nat
  payload : List Byte
deriving DecidableEq, Repr

/-- How F-AON power was lost (R458). -/
inductive LossLetter where
  | ship | battery | vbkp
deriving DecidableEq, Repr

/-- What a start finds: results of its self-tests and reads (R448, R449, R487, R451, R502). -/
structure StartInfo where
  ms : Nat                     -- duration
  slotBad : Nat                -- bit n: neither slot of engine n (R18 order) is loadable (R502)
  slotFell : Nat               -- bit n: the selected slot of engine n failed and the other loads
  repairParity : Option Nat    -- a macro whose soft repair shows a parity error (R489)
  pack : Bool                  -- a pack is present
  off : Nat                    -- how long F-AON was off, 1/32768 s (R303)
deriving DecidableEq, Repr

/-- A defect of a memory bit: stuck, failing to rise or to fall, or disturbed: it takes the value `v` as another bit rises or
falls. -/
inductive DefectKind where
  | stuck (v : Bool)
  | noRise
  | noFall
  | coupled (row col : Nat) (rise v : Bool)
deriving DecidableEq, Repr

/-- A defective bit of a memory under test (R483), by its row and column. -/
structure BitDefect where
  row : Nat
  col : Nat
  kind : DefectKind
deriving DecidableEq, Repr

/-- A complete smart-pack read sequence (R144): temperature in 0.1 K, mV, mA, and the cell count and chemistry that
F1 CHARGE takes from DesignVoltage and DeviceChemistry. -/
structure SbsRead where
  temp : Nat
  volt : Nat
  current : Int
  ichg : Nat
  vchg : Nat
  status : Nat
  cells : Nat
  chem : Nat
deriving DecidableEq, Repr

/-- Accessories and cables by their terminations (R212). -/
inductive Accessory where
  | audio | debug | poweredCable
deriving DecidableEq, Repr

/-- The kinds of power data object that the port considers (R214). -/
inductive PdoKind where
  | fixed | pps | eprFixed | avs | other
deriving DecidableEq, Repr

/-- A power data object: voltage range in mV, current in mA, PDP in W for AVS, position. -/
structure Pdo where
  kind : PdoKind
  vmin : Nat
  vmax : Nat
  imax : Nat
  pdp : Nat
  pos : Fin 16
deriving DecidableEq, Repr

/-- What the partner states of itself, as `CBL_PARTNER` holds it. -/
structure Partner where
  rev : Fin 4
  drp : Bool
  epr : Bool
  frs : Fin 4
deriving DecidableEq, Repr

/-- A Request as the module receives it: its object position, and whether the partner speaks PD 3.x (R207). -/
structure SinkAsk where
  pos : Fin 16
  pd3 : Bool
deriving DecidableEq, Repr

/-- What the port sees as the source switch may close (R221, R226): VBUS below vSafe0V for 10 ms, and Ra on the other CC
pad. -/
structure VbusSeen where
  safe0v : Bool
  ra : Bool
deriving DecidableEq, Repr

/-- Why the source role ends (R224). -/
inductive RoleEnd where
  | permission | revBatFloor | vbusWindow
deriving DecidableEq, Repr

/-- Which PD answer has not come (R231). -/
inductive PdWait where
  | goodCrc | senderResponse | acceptSoftReset | acceptRequest | psTransition | sourceCaps
deriving DecidableEq, Repr

/-- The conversions of one result (R247, R250, R262): the slice of the first one, its sampling instant in FCLK cycles
after the tick, the sum of the in-range codes as converted, how many conversions lay above
and below the range, and how many conversions came after the newest of those. -/
structure Samples where
  slice : Fin 5
  t : Nat
  sum : Int
  above : Nat
  below : Nat
  after : Nat
deriving DecidableEq, Repr

/-- What a spare calibration found (R255): the capacitors' weights, offset in 1/256 LSB, gain deviation in 0.01 ppm, verification error in
1/256 LSB. -/
structure CalRun where
  offset : Int
  gain : Int
  verify : Int
  weights : List Int         -- of the six most significant capacitors
deriving DecidableEq, Repr

/-- The measured quantities of a closing second (R275). -/
structure SecondMeans where
  vbat : Nat
  ibat : Int
  vkaMin : Nat
  ika : Nat
  vqr1 : Nat
  vqr2 : Nat
  tctl : Int
  vsys : Nat
  vchold : Nat
deriving DecidableEq, Repr

/-- The head of a twin message that its CRC has passed (R349). -/
structure TwmHead where
  lseq : Nat
  epoch : Nat
deriving DecidableEq, Repr

/-- Why a module resigns (R356). -/
inductive ResignCause where
  | reset | ship | holdup | removal | keepalive | request
deriving DecidableEq, Repr

/-- Where a START or STOP fell inside a byte (R385): the bytes of the transfer before it, the bit position, and whether
it was a STOP. -/
inductive HpCut where
  | head (bit : Fin 16) (stop : Bool)
  | write (addr : Fin 128) (bytes : List Byte) (bit : Fin 16) (stop : Bool)
  | read (addr : Fin 128) (sent : Nat) (bit : Fin 16) (stop : Bool)
deriving DecidableEq, Repr

/-- The newest conversion of a channel in the frame, where the system scan made it (R249, R270): its tag, its slice and the corrected 18-bit code. -/
structure ScanCode where
  tag : Fin 48
  slice : Fin 5
  code : Fin 262144
  clip : Option Bool         -- beyond full scale: above or below (R262)
deriving DecidableEq, Repr

/-- What the closing frame measured: the tick's operand (R44, R66, R72). -/
structure Frame where
  busy : List Nat            -- FCLK cycles each of F0 to F8 was busy (R72)
  vbat : Nat                 -- mV
  inet : Int                 -- mA, net pack current, mean of the frame
  vsys : Nat                 -- mV
  vtb : Nat                  -- mV
  iphase : List Nat          -- mean thaw current of P1 to P4, 50 mA units (R121)
  pfreeze : Nat              -- P_f, mW (R66)
  pthaw : Nat                -- P_t, mW
  esys : Nat                 -- energy the phases delivered to VSYS, µJ
  ecbuf : Nat                -- energy that entered CBUF less the rise in its stored energy, µJ
  tthaw : Nat                -- thaw time of the frame, µs
  ts : List Int              -- TS1 to TS4, °C
  means : List Nat           -- frame means of the system-scan channels (R249), by tag
  scan : List ScanCode       -- newest system-scan conversions (R249, R270)
  pdFreeze : Nat             -- pack discharge current in freeze, mA
  ires : Nat                 -- KA load current plus each QR rail enabled in KEEPALIVE, µA (R220)
  vka : Nat                  -- lowest KA load-node voltage of the frame, mV
  rails : List Nat           -- POL1, POL2, POL3, QR1, QR2, KA, mV
  shipN : Bool               -- level of F86 (R443)
  cvGov : Bool               -- loop 2 governed more than half of the thaw cycles counted (R149)
  psrc : Nat                 -- load of the source role, mW (R64)
  vtb0 : Nat                 -- VTB 20 µs after the newest thaw entry, mV; 0: none in the frame (R114)
  cycles : Nat               -- switching cycles in thaw (R121)
  limited : Nat              -- phases whose current limit ends their on-times at the tick (R116)
deriving DecidableEq, Repr

/-- The commands of the block. -/
inductive Instr where
  /-- R44 -/
  | frameTick (f : Frame)
  /-- R17 -/
  | tsbHalertStateLevel (high : Bool)
  | tsbFalertStateLevel (high : Bool)
  /-- R237 -/
  | qreqRequest (t : Nat) (a : Admit)
  | qreqRelease (t : Nat)
  /-- R229 -/
  | fastRoleSwapCode (t : Nat) (vcbufLow : Nat)
  /-- R82 -/
  | sourceLossCode
  /-- R238 -/
  | sourceAttachWakeCode
  /-- R233 -/
  | cableDetachCode
  /-- R442 -/
  | mailboxWakeCode
  /-- R40 -/
  | hostAlertCode
  /-- R421 -/
  | fieldAlertCode
  /-- R440 -/
  | fieldSleepCode
  /-- R17 -/
  | sidebandFault (pulse : SidePulse)
  /-- R95 -/
  | tsbQuietChange (high : Bool)
  /-- R96 -/
  | tsbQuietChannelFault
  /-- R19 -/
  | guardPrivilegedWrite (writer : Engine) (addr : Nat) (a : GuardAction)
  /-- R20 -/
  | engineRestart (e : Engine)
  /-- R22 -/
  | domainPgFall (d : Domain)
  | domainPgReturn (d : Domain)
  /-- R23 -/
  | domainSwitchOff (d : Domain)
  | domainOffTicketTimeout (d : Domain)
  /-- R26 -/
  | fifoParity (fifo : Fin 15) (tkt : Option (Fin 512))
  /-- R32 -/
  | latchWrite (writer : Engine) (l : LatchId) (value : Nat) (writerInReset : Bool)
  /-- R31 -/
  | latchParity (l : LatchId) (live : Nat)
  /-- R45; `t` counts FCLK cycles from the present tick -/
  | sourceEvent (src : SyncSrc) (t : Nat)
  /-- R49 -/
  | syncSourceLost
  | holdoverExpiry
  /-- R50 -/
  | sourcePriorityChange
  /-- R53 -/
  | planPadChange (pads : Fin 4)
  /-- R55 -/
  | preFreeze (slot : Fin 256) (a : Admit)
  /-- R558 -/
  | preFreezeSlot0Decision (a : Admit)
  /-- R58; `late` and `lateRails`: phases and POL rails that still carry current, with the time late -/
  | freezeSlotBoundary (slot : Fin 256) (late : Fin 16) (lateRails : Fin 8) (ns : Nat)
  /-- R56 -/
  | freezeRunEnd (slot : Fin 256)
  /-- R61 -/
  | apertureRise (t : Nat) (a : Admit)
  /-- R62 -/
  | apertureFall (t : Nat)
  | apertureLimitExpiry (t : Nat)
  | apertureRearm
  /-- R63 -/
  | scheduledApertureStart (t : Nat) (a : Admit)
  /-- R65 -/
  | driverHoldCut (t : Nat)
  | driverHoldBreakEnd (t : Nat) (a : Admit)
  /-- R69 -/
  | freezeEndVbatLow (t : Nat)
  /-- R70 -/
  | sourceLoadFreezeEnd (t : Nat)
  /-- R71 -/
  | refusalRunEnd
  /-- R76 -/
  | sourceQualify (src : PowerSrc) (mv : Nat)
  /-- R82 -/
  | intakeSourceLoss (src : PowerSrc) (mv mvOther : Nat)
  /-- R79 -/
  | prioritySourceTakeover (mv : Nat)
  /-- R81 -/
  | reverseBlock
  | reverseReconduct
  /-- R83 -/
  | intakeLimitUpdate
  | intakeStartupLimitExpiry
  /-- R85 -/
  | intakePdiss (watts : Nat)
  /-- R86; the voltages, mA, mW and °C, the stage power in 10 mW units, and whether H_AUX is present -/
  | vSourceRefresh (v : IntakeVolts) (iin pdiss : Nat) (temp xpow : Int) (aux : Bool)
  | cbufFloorReached
  /-- R88 -/
  | cbufMeasure (us ma dmv : Nat) (steady : Bool)
  /-- R89 -/
  | cbufRampStart (mv : Nat)
  | cbufRampEnd (mv : Nat)
  /-- R91; the inputs present -/
  | haonPowerUp (inputs : Fin 8)
  | hostConfigTimeout
  /-- R92; the Type-C advertised current in mA -/
  | deadBatteryStart (advert : Nat)
  /-- R98 -/
  | xferQuietLate (ns : Nat)
  /-- R99; the step reached before pre-freeze, 6 when the sequence completes -/
  | xferDirectionChange (dir : Fin 3) (reached : Fin 7)
  | xferDirTimeout
  /-- R100 -/
  | intakeThermal (temp : Int)
  | cbufOv (mv : Nat)
  | xferOcp
  | xferRetry
  | xferVtbOv (mv : Nat)
  | xferThermal (temp : Int)
  | xferStartFail (mv : Nat)
  /-- R101 -/
  | xferClrLatch
  /-- R115 -/
  | phaseShedChange (itot : Nat)
  /-- R122 -/
  | phaseImbalance (n : Fin 4)
  /-- R123; the measured output in mV, and the thaw time since the last event, µs -/
  | phaseSoftStart (vout us : Nat)
  /-- R124 -/
  | phaseSsShort (test : RampTest)
  | phaseSsRetry
  /-- R134 -/
  | phaseOcp (phases : Fin 16) (load : Overload)
  | phaseOv (mv : Nat)
  | phaseThermal (n : Fin 4) (temp : Int)
  | phaseGateUv (n : Fin 4) (supply : Nat)
  | phaseVtbCollapse (mv : Nat)
  /-- R124 -/
  | phClrLatch
  /-- R126 -/
  | batfetPdiss (mw : Nat)
  /-- R127 -/
  | batfetOcp (t : Nat) (ma : Nat)
  | batfetReclose
  | batfetRetryCountClear
  /-- R128 -/
  | batfetThermal (temp : Int)
  | vsysUv (mv : Nat)
  /-- R130 -/
  | revBatFloor (mv : Nat)
  /-- R141 -/
  | packIndicatorSettled (seen : Settled)
  /-- R142 -/
  | probeVoltageReached
  | sinkTestEnd (mv : Nat)
  | probeShort (mv : Nat)
  /-- R144; the complete sequence, or the sensor bus error code -/
  | smartpackReadSequence (r : Option SbsRead) (err : Nat)
  /-- R145 -/
  | smartpackRetry (r : Option SbsRead) (err : Nat)
  /-- R147; the PACK_ID reading in Ω and V_BAT in mV -/
  | packNegotiate (ohm vbat : Nat)
  /-- R149; the indicators that have changed to present and stayed so for 500 ms, numbered as in R141 above -/
  | absentRedetect (changed : Fin 64)
  | chargeSustainedExpiry
  /-- R153 -/
  | chargeTermination
  /-- R157 -/
  | safetyTimerExpiry
  /-- R158 -/
  | sourceAbsenceTimer
  /-- R161; the TS input, 0 for TS1 -/
  | tempHwStop (i : Fin 4)
  | tempHwStopRelease (i : Fin 4)
  /-- R162 -/
  | tsOpen (i : Fin 4)
  | tsShort (i : Fin 4)
  /-- R163; the time in the frame -/
  | batRemoval (t : Nat) (seen : Tripped)
  | batRemoved
  /-- R164 -/
  | batShort (mv : Nat)
  /-- R166 -/
  | statLatchRead
  /-- R167; milliseconds into the pattern of 2.000 s -/
  | lampEdge (ms : Nat)
  /-- R149 -/
  | chgSuspend (suspend : Bool)
  /-- R152 -/
  | chgIHost (limit : Fin 512)
  /-- R147 -/
  | chgClrFault
  /-- R168 -/
  | chgEnableRestore
  /-- R184; POL rail, and index 2·B + A after the filter -/
  | vselChange (rail : Fin 3) (index : Fin 4)
  /-- R190 -/
  | rlNop (tag : Fin 16)
  /-- R191 -/
  | rlHello (tag : Fin 16) (speed : Fin 4) (keep : Bool) (version : Fin 16)
  /-- R192; RAIL code, SLEW code, CODE, and the reference at the end of the transaction in mV -/
  | rlSetV (tag : Fin 16) (rail : Fin 8) (slew : Fin 4) (code : Fin 2048) (mv : Nat)
  /-- R185 -/
  | rlRelease (tag : Fin 16) (rail : Fin 8) (mv : Nat)
  | rlEnable (tag : Fin 16) (rail : Fin 8) (on : Bool) (mv : Nat)
  /-- R192 -/
  | rlTableWrite (tag : Fin 16) (rail : Fin 4) (index : Fin 4) (code : Fin 2048) (mv : Nat)
  /-- R53 -/
  | rlPlan (tag : Fin 16) (set : Bool) (plan : Fin 4)
  /-- R188 -/
  | rlAptA (tag : Fin 16) (frn7 : Fin 128) (len : Fin 512)
  | rlAptB (tag : Fin 16) (slot : Fin 256) (cycle : Fin 256)
  | rlRead (tag : Fin 16) (read : RailReading)
  /-- R187 -/
  | rlResend (tag : Fin 16)
  /-- R194; whether a field was out of range rather than the opcode undefined -/
  | rlBadOpcode (tag : Fin 16) (range : Bool)
  | rlCrcError (tag : Fin 16)
  /-- R186; the clock at which the transaction stopped -/
  | rlFrameAbandon (clock : Nat)
  /-- R189 -/
  | railArrived (rail : Fin 5) (mv : Nat)
  /-- R176 -/
  | polSoftStart (n : Fin 3) (at_ : RampStep)
  /-- R176 -/
  | polSsShort (test : RailTest)
  | polRetry (n : Fin 3) (vout : Nat)
  /-- R204 -/
  | polOcp (n : Fin 3) (load : Overload)
  | polOv (n : Fin 3) (mv : Nat)
  /-- R178; VSYS in mV -/
  | polUvlo (vsys : Nat)
  | polUvloRestart
  /-- R179 -/
  | polFrzFloor (n : Fin 3)
  /-- R180 -/
  | polHoldLimit (n : Fin 3) (fold : Bool) (mv : Nat)
  /-- R176 -/
  | railClrLatch
  /-- R196 -/
  | qrLimit (n : Fin 2) (dropout : Bool)
  | qrThermal (n : Fin 2) (temp : Int)
  /-- R199 -/
  | kaEnable
  /-- R201; FCLK cycle after the present tick at which the node fell, duration so far in ms, lowest voltage in mV -/
  | kaGap (t ms mv : Nat)
  /-- R201; the cycle of the rise, the length in µs, the lowest voltage -/
  | kaNodeRecover (t us mv : Nat)
  /-- R204 -/
  | kaLimit (current : Nat)
  /-- R203 -/
  | kaStandbyHandover
  /-- R357 -/
  | kaOffsetRemoval
  /-- R211; orientation CC2, and the Rp seen: 0 none, 1 Default, 2 1.5 A, 3 3.0 A -/
  | ccAttachSnk (cc2 : Bool) (rp : Fin 4)
  /-- R211; Ra on the other pad -/
  | ccAttachSrc (cc2 : Bool) (ra : Bool)
  | ccDetach
  /-- R212 -/
  | accessoryAttach (kind : Accessory)
  /-- R209 -/
  | drpToggle
  /-- R214 -/
  | sourceCapabilities (pdos : List Pdo) (partner : Partner)
  /-- R216 -/
  | pdAccept
  | pdPsRdy
  /-- R217 -/
  | ppsRequestRepeat
  | eprKeepalive (acked : Bool)
  /-- R221 -/
  | sourceBringup
  /-- R221; V_CBUF in mV, and VBUS below vSafe0V for 10 ms -/
  | sourceSwitchClose (vcbuf : Nat) (seen : VbusSeen)
  | sourceBringupTimeout (vbus : Nat)
  /-- R222; object position, voltage in mV, current in 10 mA units -/
  | sinkRequest (ask : SinkAsk) (mv curr : Nat)
  | sourceTransitionStart
  | sourcePsRdy (vbus : Nat)
  /-- R223 -/
  | srcOcp (ma : Nat)
  | ppsSourceTimeout
  /-- R224; whether the discharge took longer than tSafe0V -/
  | sourceRoleEnd (cause : RoleEnd) (vbus : Nat) (slow : Bool)
  | cblExitSrc
  /-- R225 -/
  | dcinEndsSource
  /-- R226 -/
  | vconnOcp (ma : Nat)
  | vconnSwap (received : Bool)
  /-- R227; the e-marker's current, voltage and USB 2.0 marks -/
  | cableDiscoverIdentity (answer : Option (Fin 4 × Fin 4 × Bool))
  /-- R228 -/
  | prSwapReceived
  | cblPrSwap
  | drSwap
  /-- R229 -/
  | frsSignalDetect
  /-- R230 -/
  | frSwapReceived
  | frsTimeout
  /-- R231 -/
  | softReset (received : Bool)
  | pdResponseTimeout (wait : PdWait)
  | pdNoResponse
  /-- R232 -/
  | hardReset (received : Bool)
  /-- R233 -/
  | cablePulledInTransition
  /-- R235; DIR of Enter Mode received as UFP, the partner's TICK bits, and whether the mode is ACKed -/
  | frameShareEnter (dir : Bool) (partnerTx partnerRx ack : Bool)
  | cblFsEnter
  /-- R236 -/
  | cblFsExit
  /-- R238 -/
  | hRstNSourceTimeout (vbus : Nat)
  /-- R239; CC1, CC2, SBU1, SBU2 -/
  | ccOvp (pads : Fin 16)
  /-- R250; the entry of the active plan's sequence -/
  | sequenceEntryDue (e : Fin 16) (x : Samples)
  /-- R252; the ticket of the conversion -/
  | injectedConversionDone (tkt : Fin 512) (x : Samples)
  /-- R256 -/
  | sliceRotation
  /-- R255 -/
  | spareCalibrationDone (c : CalRun)
  /-- R257; the injected conversion in flight on the slice, if any -/
  | adcSliceFault (slice : Fin 5) (timeout : Bool) (tkt : Option (Fin 512))
  /-- R258; TCTL in 1/512 °C -/
  | foregroundCalStart (tctl : Int)
  /-- R258; TCTL, the REFMON code, and the constants of S0 to S4, then of AIN1 to AIN4 in each range, as offset in
  1/256 LSB and gain in 0.01 ppm -/
  | foregroundCalDone (tctl : Int) (refmon : Nat) (consts : List (Int × Int))
  /-- R260 -/
  | refSettled
  /-- R261; departure in ppm -/
  | refMon (ppm : Int)
  /-- R259; current in 10 µA units -/
  | refoutLimit (current : Nat)
  /-- R262; a conversion of the system scan -/
  | adcOvr (slice : Fin 5) (tag : Fin 48) (high : Bool) (t : Nat)
  /-- R265 -/
  | calDue
  /-- R257 -/
  | adcClrFence
  /-- R281 -/
  | journalAppend
  /-- R281; V_CHOLD in mV -/
  | holdupAllowanceUpdate (vchold : Nat)
  /-- R284; the time from 6.0 V to 10.0 V in µs and the charger current in 10 µA units -/
  | choldMeasure (us current : Nat)
  /-- R285 -/
  | holdupEvent (t : Nat)
  /-- R447 -/
  | resumeStart (x : StartInfo)
  /-- R286 -/
  | pageClose
  /-- R288 -/
  | pageCommit
  /-- R293 -/
  | nandProgFail
  /-- R293 -/
  | nandEraseDone (block : Fin 4096) (ok : Bool)
  /-- R292; a codeword, and the corrections that it needed -/
  | nandEccRead (code : CodewordAt) (corrections : Nat)
  /-- R279; the signer's status, 0 where it has signed -/
  | sealBuild (status : Nat)
  /-- R289 -/
  | keepaliveFlush
  /-- R297; pages without a valid marker -/
  | nandScan (torn : Nat)
  /-- R300 -/
  | journalFull
  | journalFullExit
  /-- R275 -/
  | jrSummary (x : SecondMeans)
  /-- R304 -/
  | rtcOscFail
  | rtcBkpLow (mv : Nat)
  /-- R305; the error in 0.01 ppm -/
  | rtcRateCorrection (err : Int)
  /-- R314 -/
  | ticketIssue (owner : Engine) (stream : Fin 64) (chan unit : Fin 256) (dur idem crit : Bool)
  | tableFull
  /-- R316; work of no other command ends with its retirement -/
  | ticketRetire (num : Fin 512)
  /-- R318 -/
  | ticketDeadline (num : Fin 512)
  /-- R321 -/
  | durableCommit (strm : Fin 8)
  /-- R324 -/
  | ticketFailure (num : Fin 512)
  /-- R325 -/
  | heldRetry (num : Fin 512) (ok : Bool)
  /-- R334 -/
  | faultWordCollect
  /-- R336 -/
  | escTrackerExpiry
  /-- R339 -/
  | faultReaction
  | degradeClose
  /-- R342; the unit or engine ID -/
  | fenceLift (id : Fin 64)
  | recoveryWindowClear (id : Fin 64)
  | fltClrPerm
  /-- R343 -/
  | fltHistClr
  /-- R353; the level of TW_DET_N after its sampling -/
  | twinClaim (low : Bool)
  | twinClaimWaitExpiry (low : Bool)
  | twinTrainTimeout
  /-- R355; the partner's state, and whether its journal is of the same sequence -/
  | twinLinkTrained (pState : Fin 8) (sameSequence : Bool)
  /-- R346 -/
  | twmCfgDigest (h : TwmHead) (digest : List Byte) (position : Fin 2) (pairId : Nat)
  /-- R350 -/
  | twinHeartbeatSend (t ika : Nat)
  | twmHeartbeat (h : TwmHead) (frn sc : Nat) (state mode : Fin 8) (mirrorWm commitWm allow ika : Nat)
  | twinHbLost
  /-- R363; the FCLK cycle after the present tick at which the line had been high for 100 µs -/
  | twinFailover (t : Nat)
  /-- R356 -/
  | twinResign (cause : ResignCause)
  | twnCtlResign
  /-- R365 -/
  | twnCtlEnrol
  | twnCtlFork
  /-- R360; the bytes of the record -/
  | twmMirror (h : TwmHead) (bytes : List Byte)
  | twmMirrorAck (h : TwmHead) (jsn : Nat)
  /-- R362 -/
  | twmAppend (h : TwmHead) (fwd : Nat) (bytes : List Byte)
  /-- R364 -/
  | twmResyncReq (h : TwmHead) (fromJsn : Nat)
  | twmResyncData (h : TwmHead) (bytes : List Byte)
  /-- R372 -/
  | twmTime (h : TwmHead) (mode : Nat) (utc : Int) (tai sub : Nat)
  | twinTimeSend
  /-- R367 -/
  | twmEpochStale (h : TwmHead) (epoch : Nat) (leadPos : Fin 2)
  /-- R349; the LSEQ that the partner has acknowledged -/
  | twinMessageRepeat (acked : Nat)
  /-- R351 -/
  | twinFenceRetrain (ok : Bool)
  /-- R373 -/
  | twinResyncFail
  /-- R381; the address byte's address and the bytes after it: pointer, data and, where enabled, the PEC -/
  | hpWriteTransfer (addr : Fin 128) (bytes : List Byte)
  /-- R382 -/
  | hpReadTransfer (addr : Fin 128) (count : Nat)
  /-- R385 -/
  | hpTransferAbort (cut : HpCut)
  | hpTimeout (completed : Nat)
  /-- R384; the direction bit, read -/
  | hpDozeWake (addr : Fin 128) (read : Bool)
  /-- R386 -/
  | hpAlertResponse (lost : Bool)
  /-- R391; the ticket, the error code of R398 that the run ends with, and the data read -/
  | sbTransaction (tkt : Fin 512) (err : Fin 12) (data : List Byte)
  /-- R389 -/
  | sbArbLost (tkt : Fin 512)
  /-- R390 -/
  | sbArbFrame (tkt : Fin 512) (restart : Bool)
  /-- R392; whether a part of it runs into freeze -/
  | sbDeferredStart (tkt : Fin 512) (overrun : Bool)
  /-- R394; none: a bus clear or idle -/
  | sbStretchTmo (tkt : Fin 512)
  | sbBusStuck (scl sda : Bool)
  /-- R395 -/
  | sbBusClear (ok : Bool) (clocks : Fin 10)
  /-- R404: a message arrives at one side, with the verdict of its CRC -/
  | tabienMessageReceive (rx : Side) (msg : MsgIn) (crcOk : Bool)
  /-- R404; the message acted on is the oldest of its type that the filter has delivered -/
  | tmAck (rx : Side)
  | tabienResendTimer (sender : Side)
  /-- R407; whether the lanes have trained -/
  | tabienLinkTraining (good : Bool)
  | tmLinkUp (rx : Side)
  /-- R322 -/
  | tmCmd
  /-- R416 -/
  | tmResult
  /-- R418 -/
  | tmSnap
  /-- R421 -/
  | tmEvent
  /-- R254 -/
  | tmAdc
  /-- R426 -/
  | tmDrainData
  /-- R91 -/
  | tmCfg
  /-- R219 -/
  | tmBudget
  /-- R99 -/
  | tmXfer
  /-- R40 -/
  | tmHfault
  /-- R221 -/
  | tmCable
  /-- R66 -/
  | tmHstatus
  /-- R419 -/
  | tmRdclr
  /-- R510 -/
  | tmJrec
  /-- R91 -/
  | tmCfgReq
  /-- R424 -/
  | tmDrainReq
  /-- R508 -/
  | tmUpdData
  /-- R418 -/
  | snapStale
  /-- R411 -/
  | mbxSubmit
  /-- R416 -/
  | mbxPop
  /-- R412; `s` is the host stream whose taken command runs -/
  | ping (strm : Fin 8)
  | regRead (strm : Fin 8)
  | regWrite (strm : Fin 8)
  /-- R251 -/
  | adcInject (strm : Fin 8)
  /-- R266; MEAN in 0.01 µV and the control temperature in 1/512 °C -/
  | refchkRun (strm : Fin 8) (mean tctl : Int)
  /-- R412 -/
  | calStage (strm : Fin 8)
  /-- R264 -/
  | calCommit (strm : Fin 8) (readsBack : Bool)
  /-- R302 -/
  | kaStatement (strm : Fin 8)
  /-- R306 -/
  | timeSet (strm : Fin 8)
  /-- R299 -/
  | release (strm : Fin 8)
  /-- R391 -/
  | sbXfer (strm : Fin 8)
  /-- R412 -/
  | streamReset (strm : Fin 8)
  /-- R9: a host write of one register word -/
  | registerWrite (addr : Fin 65536) (value : Word)
  /-- R423; bytes clocked, and whether DRN_CS_N rose inside a byte -/
  | drnStatus (bytes : Nat)
  | drnIdent (bytes : Nat)
  /-- R426 -/
  | drnRead (bytes : Nat)
  | drnReadQ (bytes : Nat)
  /-- R424 -/
  | drnRequest (block : List Byte)
  | drnGo
  /-- R298 -/
  | readJsn
  /-- R424 -/
  | readCert
  | drainAbort
  /-- R507 -/
  | drnWrite (ofs : Nat) (data : List Byte)
  | drnWriteQ (ofs : Nat) (data : List Byte)
  /-- R439: a filtered change of F87 -/
  | pwrReqChange (high : Bool)
  /-- R466 -/
  | hostPwr (strm : Fin 8)
  /-- R440 -/
  | hcoreDoze
  /-- R440; a host macro whose soft repair shows a parity error (R489) -/
  | hcoreWake (repairParity : Option Nat)
  /-- R441 -/
  | keepaliveEntry
  | keepaliveDomainSwitch
  | keepaliveTicketTimeout
  /-- R442; the duration of the start, and a macro whose soft repair shows a parity error (R489) -/
  | keepaliveWake (ms : Nat) (repairParity : Option Nat)
  /-- R437, R268; the summary channels of the second -/
  | keepaliveSecondWake (vbat : Nat) (ibat : Int) (vka ika vqr1 vqr2 : Nat) (tctl tpack : Int) (vchold : Nat)
  /-- R444 -/
  | shipNHold
  | shipEnter (strm : Fin 8)
  /-- R445; `qualifiedBefore`: a source qualifies before step 4 -/
  | shipEntry (qualifiedBefore : Bool)
  /-- R446; whether VBKP held F-BKP -/
  | shipWake (bySource vbkpHeld : Bool)
  /-- R448; what the start finds -/
  | coldStart (x : StartInfo)
  /-- R449 -/
  | warmStart (x : StartInfo)
  /-- R458 -/
  | fieldWReset (cause : Nat)
  | hostWReset (cause : Nat)
  /-- R60: F85 falls and is held, or has been high for 100 µs -/
  | fieldPinReset (low : Bool)
  | hostPinReset (low : Bool)
  /-- R458; the letter and the TAI second and FRN that the backup latch keeps -/
  | faonPowerLoss (letter : LossLetter)
  /-- R462 -/
  | svcChallenge (strm : Fin 8)
  | svcEnter (strm : Fin 8)
  /-- R465 -/
  | svcExit (strm : Fin 8)
  /-- R463 -/
  | keyEnrol (strm : Fin 8)
  /-- R457 -/
  | cfgStage (strm : Fin 8)
  | cfgCommit (strm : Fin 8) (readsBack : Bool)
  /-- R466 -/
  | fieldReset (strm : Fin 8)
  /-- R465 -/
  | serviceTimeout
  /-- R463 -/
  | serviceLockoutEnd
  /-- R475 -/
  | wdgServiceWrite (side : Side) (key : Fin 65536)
  /-- R476 -/
  | wdgForeignWrite (writer : Engine)
  /-- R481 -/
  | wdgWindowOpen (side : Side)
  /-- R475 -/
  | wdgWindowClose (side : Side)
  /-- R477 -/
  | wdgStartTimeout (side : Side)
  /-- R479 -/
  | checkinWrite (e : Engine)
  /-- R483, R487; the defective bits of the macro with its fuse repairs applied, and whether a spare row or column fails -/
  | memorySelftestMacro (side : Side) (id : Fin 32) (defects : List BitDefect) (spareBad : Bool)
  /-- R493; how many records fail their read-back -/
  | bistBurn (side : Side) (bad : List Word)
  /-- R494 -/
  | bistEngTest
  /-- R509 -/
  | updBegin (strm : Fin 8)
  /-- R508 -/
  | updChunk (strm : Fin 8)
  /-- R505; whether the block reads back -/
  | updBlockWrite (readsBack : Bool)
  /-- R506 -/
  | updFinish (strm : Fin 8)
  /-- R512 -/
  | updActivate (strm : Fin 8)
  /-- R509 -/
  | updAbort (strm : Fin 8)
  | updQuery (strm : Fin 8)
  /-- R519 -/
  | updRevert (strm : Fin 8)
  /-- R514 -/
  | handoverStart
  /-- R514; the duration in µs and the length of the state record -/
  | handoverReady (us len : Nat)
  /-- R516; whether the image reported SETTINGS_UNREADABLE -/
  | handoverFallback (unreadable : Bool) (us len : Nat)
  /-- R519 -/
  | probationPass
  /-- R518; the cause of R523 -/
  | probationFail (cause : Nat)
  /-- R528 -/
  | lbStart (side : Side)
  /-- R529, R530; what each pattern of a link or a port came back as, if it did; the conversions or events of an ADC or sync
  run, those in error, and their mean -/
  | lbRunEnd (side : Side) (back : List (Option Word)) (run : RunCount) (value : Int)
  | lbTimeout (side : Side)
  /-- R533 -/
  | fiArm
  /-- R534 -/
  | fiInject
  /-- R557 -/
  | fvioLow
  | hvioLow
  /-- R540; bit 0 HTEST, bit 1 FTEST -/
  | testPadHigh (pads : Fin 4)
  /-- R433; the side that lost lock -/
  | lossOfLock (rx : Side)
  /-- R557 -/
  | fVioReturn
  | hVioReturn
  /-- R349 -/
  | twinLinkCrc
  /-- R224 -/
  | errorRecoveryExit
  /-- R200; die temperature -/
  | kaThermalFold (temp : Int)
deriving DecidableEq, Repr

end Sys2Proof
end

