-- ==== Sys2Proof/Decode.lean ====
section
/-! DEFINITION. The command that a word of spec/opcode_table.json spells. The table gives no row any bits: the block has
no encoding of its commands, and no word spells one. -/

namespace Sys2Proof

/-- The command that a word spells: none, since the table gives no bits. -/
def decodeTableWord (_nbits _w : Nat) : Option Instr := none

end Sys2Proof
end

