-- ==== Sys2Proof/Config.lean ====
section
/-! DEFINITION. What an implementation fixes and the spec does not compute: cryptographic functions, the contents of
factory stores, and the free values. No function here has a body, so no proof can rest on a value of it
(DESIGN CHOICE, notes/assumptions/4.md, notes/assumptions/5.md). -/

namespace Sys2Proof.Config

/-- A free value: the n-th value that the spec leaves open (DESIGN CHOICE, notes/assumptions/4.md). -/
opaque freeValue : Nat → Nat

/-- SHA-256 of a byte string, as a number of 256 bits (R278, R452). -/
opaque sha256 : List Byte → Nat

/-- Whether an Ed25519 signature over a message verifies with a public key (R462, R454, R506). -/
opaque ed25519Verify : (key : List Byte) → (msg : List Byte) → (sig : List Byte) → Bool

/-- The 64-byte signature that the hardware signer makes with the device key over a message (R279, R302). -/
opaque deviceSign : (msg : List Byte) → List Byte

/-- The Sperewick factory key held in ROM (R462). -/
opaque factoryKey : List Byte

/-- The public half of the device key (R279, R280). -/
opaque devicePublicKey : List Byte

/-- The device certificate, in DER (R280). -/
opaque deviceCert : List Byte

/-- The n-th 32-byte random nonce (R462). -/
opaque nonce : Nat → List Byte

/-- The value that a configuration copy gives the configured field with this key: R452 states the section a setting
lies in, and not its place within the section. -/
opaque cfgField : (image : List (Nat × Byte)) → (key : Nat) → Nat

/-- The value that a configuration copy gives the k-th setting that no register shows: `CHG_LIM`, PROFILE0 to
PROFILE7, escalation overrides and reactions (R452). -/
opaque cfgSetting : (image : List (Nat × Byte)) → (k : Nat) → Nat

/-- The Sperewick firmware key held in the ROM of each side (R500). -/
opaque firmwareKey : List Byte

/-- The bytes of the image that the factory has put into an engine's slot, by the engine's place in the order of R18
(R499). -/
opaque factoryImage : (engine : Nat) → List Byte

/-- Code and severity of the fault kind NOR_FAIL, which R505 names and no table lists. -/
opaque norFailKind : Nat
opaque norFailSev : Nat

/-- η_x min of the transfer stage at an intake power in 10 mW units, in parts per 10⁴: R94 states it at four powers and
not between them. -/
opaque etaXMin : (power : Nat) → Nat

/-- EVENT of JR_CABLE_EVENT: R240 lists the events, in this order, and gives no codes: attach, detach, accessory, swap,
Soft_Reset, Hard Reset, ErrorRecovery, mode entry, mode exit. -/
opaque cableEvent : (index : Nat) → Nat

/-- BITS of JR_CABLE_EVENT with the transition bit set or not (R233): the place of the bit is not given. -/
opaque cableBits : (transition : Bool) → Nat

/-- The soft-start rate of the codes of `SS_RATE` that R123 does not list, mV/ms. -/
opaque ssRate : (code : Nat) → Nat

/-- The discharge limit of a pack of a chemistry and a cell count, in mA: R68 tests it, and no rule gives its value. -/
opaque packDischarge : (chem cells : Nat) → Nat

/-- Whether a failed program with this page sequence number is that of the critical ring's copy and not of the general page
(R290, R293). -/
opaque ringProgFails : (psn : Nat) → Bool

/-- The conversions of an averaging code above 4, to which R250 gives no count. -/
opaque avgCount : (code : Nat) → Nat

/-- The sum of `n` raw codes after a slice's or a path's background constants (R247): offset in 1/256 LSB, gain in 0.01 ppm,
the weights of the six most significant capacitors. R247 has the controller apply them, and no rule gives the formula. -/
opaque background : (offset gain : Int) → (weights : List Int) → (n sum : Int) → Int

/-- The intake drop at a source current in mA, in mV (R35). -/
opaque sourceDrop : (current : Nat) → Nat

end Sys2Proof.Config
end

