-- ==== Sys2Proof/Machine/Bits.lean ====
section
/-! DEFINITION. Bit fields, signed readings, limits, byte order and the check codes of the spec. -/

namespace Sys2Proof.Machine

/-- Bits [lsb+width−1 : lsb] of a number. -/
def bitsOf (v lsb width : Nat) : Nat := v / 2 ^ lsb % 2 ^ width

/-- Bit `i` of a number. -/
def bitAt (v i : Nat) : Bool := v / 2 ^ i % 2 == 1

/-- The number with bit `i` set or cleared. -/
def putBit (v i : Nat) (b : Bool) : Nat :=
  if bitAt v i then (if b then v else v - 2 ^ i) else (if b then v + 2 ^ i else v)

/-- The number with bits [lsb+width−1 : lsb] replaced. -/
def putBits (v lsb width x : Nat) : Nat :=
  v - bitsOf v lsb width * 2 ^ lsb + x % 2 ^ width * 2 ^ lsb

/-- A field of `w` bits read as two's complement. -/
def signedOf (w v : Nat) : Int :=
  if v % 2 ^ w < 2 ^ (w - 1) then ((v % 2 ^ w : Nat) : Int) else ((v % 2 ^ w : Nat) : Int) - (2 ^ w : Nat)

/-- A signed value as a field of `w` bits in two's complement. -/
def unsignedOf (w : Nat) (v : Int) : Nat := (v % ((2 ^ w : Nat) : Int)).toNat

/-- A value held to the nearer limit of a range (R30). -/
def clampN (lo hi v : Nat) : Nat := if v < lo then lo else if hi < v then hi else v

/-- As `clampN`, for signed values. -/
def clampI (lo hi v : Int) : Int := if v < lo then lo else if hi < v then hi else v

/-- A saturating value of `w` bits. -/
def satN (w v : Nat) : Nat := if 2 ^ w ≤ v then 2 ^ w - 1 else v

/-- A Bool as a field of one bit. -/
def b2n (b : Bool) : Nat := if b then 1 else 0

/-- The low `n` bytes of a number, least significant first (R272, R402). -/
def le : Nat → Nat → List Byte
  | 0, _ => []
  | n + 1, v => BitVec.ofNat 8 v :: le n (v / 256)

/-- The number that bytes spell, least significant first. -/
def ofLe : List Byte → Nat
  | [] => 0
  | b :: bs => b.toNat + 256 * ofLe bs

/-- `n` bytes from offset `o` of a byte string. -/
def slice (bs : List Byte) (o n : Nat) : List Byte := (bs.drop o).take n

/-- The little-endian number in `n` bytes from offset `o`. -/
def numAt (bs : List Byte) (o n : Nat) : Nat := ofLe (slice bs o n)

/-- A byte string cut or filled with zeros to `n` bytes. -/
def padTo (n : Nat) (bs : List Byte) : List Byte := (bs ++ List.replicate (n - bs.length) 0).take n

/-- How many of the first `w` bits of a number are 1. -/
def popCount : Nat → Nat → Nat
  | 0, _ => 0
  | w + 1, v => v % 2 + popCount w (v / 2)

/-- One bit of the reflected CRC-32C (R403). -/
def crc32cBit (c : Nat) : Nat := if c % 2 = 1 then (c / 2) ^^^ 0x82F63B78 else c / 2

/-- One byte of the reflected CRC-32C. -/
def crc32cByte (c : Nat) (b : Byte) : Nat :=
  crc32cBit (crc32cBit (crc32cBit (crc32cBit (crc32cBit (crc32cBit (crc32cBit (crc32cBit (c ^^^ b.toNat))))))))

/-- CRC-32C: polynomial 0x1EDC6F41, reflected, initial value and final XOR 0xFFFFFFFF (R403). -/
def crc32c (bs : List Byte) : Nat := (bs.foldl crc32cByte 0xFFFFFFFF) ^^^ 0xFFFFFFFF

/-- One bit of the CRC-8 of polynomial 0x07. -/
def crc8Bit (c : Nat) : Nat := if 128 ≤ c then ((2 * c) % 256) ^^^ 0x07 else 2 * c

/-- CRC-8 of polynomial 0x07 and initial value 0, the SMBus PEC (R383). -/
def crc8 (bs : List Byte) : Nat :=
  bs.foldl (fun c b =>
    crc8Bit (crc8Bit (crc8Bit (crc8Bit (crc8Bit (crc8Bit (crc8Bit (crc8Bit (c ^^^ b.toNat))))))))) 0

/-- The mean of a list, rounded down; 0 for none. -/
def meanN (l : List Nat) : Nat := if l.length = 0 then 0 else l.sum / l.length

/-- The last `n` entries of a list. -/
def lastN {α : Type} (n : Nat) (l : List α) : List α := l.drop (l.length - n)

/-- A number put into a rising list, once. -/
def putNat (w : Nat) : List Nat → List Nat
  | [] => [w]
  | x :: xs => if w < x then w :: x :: xs else if w = x then x :: xs else x :: putNat w xs

end Sys2Proof.Machine
end

