-- ==== Sys2Proof/Machine/Kinds.lean ====
section
/-! DEFINITION. The fault kinds and the journal record kinds of the spec, one definition per kind, written from the
fault tables (R100, R134, R169, R204, R239, R269, R309, R333, R373, R397, R433, R470, R495, R523) and from R274,
R358, R467 and R522. -/

namespace Sys2Proof.Machine

/-- A fault kind: its code, its source where the table fixes one (0 where the row names a unit per event), and its
severity, 0 NOTE, 1 MINOR, 2 MAJOR, 3 SEVERE. -/
structure FaultKind where
  code : Nat
  src : Nat
  sev : Nat
deriving DecidableEq, Repr

/-- A journal record kind: its code, its size in bytes and whether it is critical (R274). -/
structure RecKind where
  code : Nat
  size : Nat
  crit : Bool
deriving DecidableEq, Repr

namespace Kind

def INTAKE_UV : FaultKind := ⟨0x01, 0x31, 0⟩
def INTAKE_OV : FaultKind := ⟨0x02, 0x31, 2⟩
def INTAKE_REVERSE : FaultKind := ⟨0x03, 0x31, 1⟩
def INTAKE_PDISS : FaultKind := ⟨0x04, 0x31, 1⟩
def INTAKE_THERMAL : FaultKind := ⟨0x05, 0x31, 2⟩
def CBUF_OV : FaultKind := ⟨0x06, 0x31, 2⟩
def CBUF_LOW : FaultKind := ⟨0x07, 0x31, 0⟩
def XFER_OCP : FaultKind := ⟨0x10, 0x30, 2⟩
def XFER_VTB_OV : FaultKind := ⟨0x11, 0x30, 2⟩
def XFER_THERMAL : FaultKind := ⟨0x12, 0x30, 2⟩
def XFER_DIR_TIMEOUT : FaultKind := ⟨0x13, 0x30, 1⟩
def XFER_QUIET_LATE : FaultKind := ⟨0x14, 0x30, 2⟩
def XFER_START_FAIL : FaultKind := ⟨0x15, 0x30, 2⟩
def PHASE_OCP : FaultKind := ⟨0x20, 0, 2⟩
def PHASE_SS_SHORT : FaultKind := ⟨0x21, 0x20, 2⟩
def PHASE_OV : FaultKind := ⟨0x22, 0x20, 2⟩
def PHASE_THERMAL : FaultKind := ⟨0x23, 0, 2⟩
def PHASE_IMBALANCE : FaultKind := ⟨0x24, 0, 1⟩
def PHASE_QUIET_LATE : FaultKind := ⟨0x25, 0, 2⟩
def PHASE_GATE_UV : FaultKind := ⟨0x26, 0, 2⟩
def PHASE_VTB_COLLAPSE : FaultKind := ⟨0x27, 0x20, 0⟩
def BATFET_OCP : FaultKind := ⟨0x30, 0x27, 2⟩
def BATFET_PDISS : FaultKind := ⟨0x31, 0x27, 1⟩
def BATFET_THERMAL : FaultKind := ⟨0x32, 0x27, 2⟩
def VSYS_UV : FaultKind := ⟨0x33, 0x27, 2⟩
def REV_BAT_FLOOR : FaultKind := ⟨0x34, 0x27, 0⟩
def BAT_MISSING : FaultKind := ⟨0x40, 0x11, 0⟩
def BAT_SHORT : FaultKind := ⟨0x41, 0x11, 2⟩
def BAT_REMOVED : FaultKind := ⟨0x42, 0x27, 1⟩
def CHG_TIMER_PRE : FaultKind := ⟨0x43, 0x11, 2⟩
def CHG_TIMER_FAST : FaultKind := ⟨0x44, 0x11, 2⟩
def TS_OPEN : FaultKind := ⟨0x45, 0x11, 1⟩
def TS_SHORT : FaultKind := ⟨0x46, 0x11, 1⟩
def TEMP_STOP : FaultKind := ⟨0x47, 0x11, 0⟩
def TEMP_HW_STOP : FaultKind := ⟨0x48, 0x27, 2⟩
def PACK_UNKNOWN : FaultKind := ⟨0x49, 0x11, 1⟩
def PACK_MISMATCH : FaultKind := ⟨0x4A, 0x11, 2⟩
def PACK_ID_FAULT : FaultKind := ⟨0x4B, 0x11, 1⟩
def SMARTPACK_LOST : FaultKind := ⟨0x4C, 0x11, 1⟩
def SMARTPACK_ALARM : FaultKind := ⟨0x4D, 0x11, 0⟩
def POL_OCP : FaultKind := ⟨0x50, 0, 2⟩
def POL_SS_SHORT : FaultKind := ⟨0x51, 0, 2⟩
def POL_OV : FaultKind := ⟨0x52, 0, 2⟩
def POL_UVLO : FaultKind := ⟨0x53, 0, 0⟩
def POL_HOLD_LIMIT : FaultKind := ⟨0x54, 0, 1⟩
def POL_FRZ_FLOOR : FaultKind := ⟨0x55, 0, 0⟩
def POL_QUIET_LATE : FaultKind := ⟨0x56, 0, 2⟩
def QR_LIMIT : FaultKind := ⟨0x58, 0x3F, 1⟩
def QR_THERMAL : FaultKind := ⟨0x59, 0x3F, 2⟩
def KA_LIMIT : FaultKind := ⟨0x5A, 0x3F, 2⟩
def KA_GAP : FaultKind := ⟨0x5B, 0x3F, 2⟩
def KA_CFG_INVALID : FaultKind := ⟨0x5C, 0x3F, 3⟩
def RL_CRC : FaultKind := ⟨0x60, 0x34, 0⟩
def RL_FRAME : FaultKind := ⟨0x61, 0x34, 0⟩
def PD_SOFT_RESET : FaultKind := ⟨0x70, 0x00, 0⟩
def PD_HARD_RESET : FaultKind := ⟨0x71, 0x00, 1⟩
def PD_NO_RESPONSE : FaultKind := ⟨0x72, 0x00, 1⟩
def PD_CAP_MISMATCH : FaultKind := ⟨0x73, 0x00, 0⟩
def SRC_OCP : FaultKind := ⟨0x74, 0x3A, 2⟩
def SRC_VBUS_FAULT : FaultKind := ⟨0x75, 0x3A, 2⟩
def SRC_RESERVE : FaultKind := ⟨0x76, 0x00, 0⟩
def VCONN_OCP : FaultKind := ⟨0x77, 0x3A, 1⟩
def CC_OVP : FaultKind := ⟨0x78, 0x3A, 2⟩
def DEBUG_DENIED : FaultKind := ⟨0x79, 0x00, 0⟩
def FRS_FAIL : FaultKind := ⟨0x7A, 0x00, 2⟩
def ERROR_RECOVERY : FaultKind := ⟨0x7B, 0x00, 1⟩
def ADC_CAL_FAIL : FaultKind := ⟨0x80, 0, 2⟩
def ADC_SLICE_FAULT : FaultKind := ⟨0x81, 0, 2⟩
def ADC_OVR : FaultKind := ⟨0x82, 0x15, 0⟩
def ADC_QUEUE_FULL : FaultKind := ⟨0x83, 0x15, 0⟩
def ADC_SEQ_LATE : FaultKind := ⟨0x84, 0x15, 0⟩
def REF_MON : FaultKind := ⟨0x85, 0x2D, 3⟩
def REFOUT_LIMIT : FaultKind := ⟨0x86, 0x2D, 1⟩
def CAL_RECORD_INVALID : FaultKind := ⟨0x87, 0x15, 2⟩
def CAL_DUE : FaultKind := ⟨0x88, 0x15, 0⟩
def ADC_DEGRADED : FaultKind := ⟨0x89, 0x15, 3⟩
def JRN_PROG_FAIL : FaultKind := ⟨0x90, 0x35, 1⟩
def JRN_ERASE_FAIL : FaultKind := ⟨0x91, 0x35, 1⟩
def JRN_ECC_SCRUB : FaultKind := ⟨0x92, 0x35, 0⟩
def JRN_ECC_FAIL : FaultKind := ⟨0x93, 0x35, 2⟩
def JRN_FULL : FaultKind := ⟨0x94, 0x16, 2⟩
def JRN_CRIT_FULL : FaultKind := ⟨0x95, 0x16, 3⟩
def HOLDUP_SHORT : FaultKind := ⟨0x96, 0x16, 2⟩
def CHOLD_LOW : FaultKind := ⟨0x97, 0x16, 1⟩
def JRN_SCAN_TORN : FaultKind := ⟨0x98, 0x16, 0⟩
def JRN_SEAL_FAIL : FaultKind := ⟨0x99, 0x16, 3⟩
def RTC_OSC_FAIL : FaultKind := ⟨0x9A, 0x3B, 2⟩
def RTC_BKP_LOW : FaultKind := ⟨0x9B, 0x3B, 1⟩
def PRIVILEGE : FaultKind := ⟨0xA0, 0, 1⟩
def LATCH_OWNER : FaultKind := ⟨0xA1, 0, 1⟩
def LATCH_CLAMP : FaultKind := ⟨0xA2, 0, 0⟩
def LATCH_PARITY : FaultKind := ⟨0xA3, 0, 2⟩
def DOMAIN_PG : FaultKind := ⟨0xA4, 0, 2⟩
def FIFO_PARITY : FaultKind := ⟨0xA5, 0, 2⟩
def FAULT_LOST : FaultKind := ⟨0xA6, 0x3E, 1⟩
def FRAME_OVERRUN : FaultKind := ⟨0xA7, 0, 1⟩
def SYNC_LOST : FaultKind := ⟨0xA8, 0x3C, 0⟩
def APERTURE_EXPIRED : FaultKind := ⟨0xA9, 0x3C, 0⟩
def FREEZE_REFUSED : FaultKind := ⟨0xAA, 0x3C, 0⟩
def SIDEBAND_FAULT : FaultKind := ⟨0xAB, 0x32, 2⟩
def ENGINE_TRAP : FaultKind := ⟨0xAC, 0, 2⟩
def TICKET_FAILED : FaultKind := ⟨0xAD, 0, 1⟩
def TICKET_TIMEOUT : FaultKind := ⟨0xAE, 0, 1⟩
def TICKET_VOIDED : FaultKind := ⟨0xAF, 0x10, 0⟩
def TABLE_FULL : FaultKind := ⟨0xB0, 0, 0⟩
def STREAM_HELD : FaultKind := ⟨0xB1, 0, 3⟩
def DOUBLE_FAULT : FaultKind := ⟨0xB2, 0x10, 3⟩
def FENCE_PERMANENT : FaultKind := ⟨0xB3, 0, 2⟩
def RETENTION_PARITY : FaultKind := ⟨0xB4, 0x10, 3⟩
def TWIN_HB_LOST : FaultKind := ⟨0xC0, 0x33, 2⟩
def TWIN_FAILOVER : FaultKind := ⟨0xC1, 0x17, 0⟩
def EPOCH_STALE : FaultKind := ⟨0xC2, 0x17, 0⟩
def TWIN_LINK_CRC : FaultKind := ⟨0xC3, 0x33, 0⟩
def TWIN_DUAL_LEAD : FaultKind := ⟨0xC4, 0x17, 2⟩
def TWIN_CFG_MISMATCH : FaultKind := ⟨0xC5, 0x17, 2⟩
def TWIN_PENDING_LOST : FaultKind := ⟨0xC6, 0x17, 1⟩
def TWIN_RESYNC_FAIL : FaultKind := ⟨0xC7, 0x17, 2⟩
def TWIN_PAIR_MISMATCH : FaultKind := ⟨0xC8, 0x17, 2⟩
def HP_TIMEOUT : FaultKind := ⟨0xD0, 0x38, 0⟩
def HP_BUS_ERROR : FaultKind := ⟨0xD1, 0x38, 0⟩
def HP_PEC_ERR : FaultKind := ⟨0xD2, 0x38, 1⟩
def SB_NACK : FaultKind := ⟨0xD8, 0x37, 0⟩
def SB_ARB_FRAME : FaultKind := ⟨0xD9, 0x37, 1⟩
def SB_STRETCH_TMO : FaultKind := ⟨0xDA, 0x37, 1⟩
def SB_BUS_STUCK : FaultKind := ⟨0xDB, 0x37, 2⟩
def SB_BIT_ERR : FaultKind := ⟨0xDC, 0x37, 1⟩
def SB_PEC_ERR : FaultKind := ⟨0xDD, 0x37, 1⟩
def SB_BUS_CLEAR : FaultKind := ⟨0xDE, 0x37, 0⟩
def TL_CRC : FaultKind := ⟨0xE0, 0x32, 0⟩
def TL_RETRAIN : FaultKind := ⟨0xE1, 0x32, 1⟩
def BARRIER_DROP : FaultKind := ⟨0xE2, 0x32, 1⟩
def MBX_LOCAL_REJ : FaultKind := ⟨0xE3, 0x02, 0⟩
def SNAP_STALE : FaultKind := ⟨0xE4, 0x02, 1⟩
def DRN_FORMAT : FaultKind := ⟨0xE5, 0x39, 0⟩
def DRN_UNDERRUN : FaultKind := ⟨0xE6, 0x39, 0⟩
def CFG_COPY_BAD : FaultKind := ⟨0xF8, 0x36, 2⟩
def CFG_INVALID : FaultKind := ⟨0xF9, 0x36, 3⟩
def MODE_REFUSED : FaultKind := ⟨0xFA, 0x10, 0⟩
def SVC_AUTH_FAIL : FaultKind := ⟨0xFB, 0x10, 1⟩
def WDT_EXPIRED : FaultKind := ⟨0xF0, 0x3D, 3⟩
def WDT_START_TMO : FaultKind := ⟨0xF1, 0x3D, 3⟩
def CHECKIN_DOUBLE : FaultKind := ⟨0xF2, 0, 1⟩
def CHECKIN_MISSING : FaultKind := ⟨0xF3, 0, 2⟩
def BIST_REPAIRED : FaultKind := ⟨0xF4, 0x10, 0⟩
def BIST_FAIL : FaultKind := ⟨0xF5, 0x10, 3⟩
def FUSE_FAIL : FaultKind := ⟨0xF6, 0x10, 2⟩
def REPAIR_PARITY : FaultKind := ⟨0xF7, 0x10, 2⟩
def UPD_REJECTED : FaultKind := ⟨0xFC, 0, 1⟩
def HANDOVER_FALLBACK : FaultKind := ⟨0xFD, 0, 1⟩
def UPD_ROLLBACK : FaultKind := ⟨0xFE, 0, 2⟩

end Kind

namespace JR

def SUMMARY : RecKind := ⟨0x01, 64, false⟩
def KA_GAP : RecKind := ⟨0x02, 56, true⟩
def SEAL : RecKind := ⟨0x03, 144, true⟩
def POWER_UP : RecKind := ⟨0x04, 56, true⟩
def POWER_DOWN : RecKind := ⟨0x05, 48, true⟩
def TIME_SET : RecKind := ⟨0x06, 56, true⟩
def FAULT : RecKind := ⟨0x07, 40, true⟩
def RESET : RecKind := ⟨0x08, 40, true⟩
def MODE : RecKind := ⟨0x09, 32, false⟩
def HOST_CMD : RecKind := ⟨0x0A, 0, false⟩
def DRAIN_RELEASE : RecKind := ⟨0x0B, 40, true⟩
def SYNC_CHANGE : RecKind := ⟨0x10, 32, false⟩
def FREEZE_REFUSAL : RecKind := ⟨0x11, 40, false⟩
def SOURCE_CHANGE : RecKind := ⟨0x12, 40, false⟩
def XFER_DIR : RecKind := ⟨0x13, 32, false⟩
def POWER_LATCH : RecKind := ⟨0x14, 32, true⟩
def PACK_PROFILE : RecKind := ⟨0x15, 56, false⟩
def CHARGE_STATE : RecKind := ⟨0x16, 40, false⟩
def CABLE_CONTRACT : RecKind := ⟨0x17, 40, false⟩
def CABLE_EVENT : RecKind := ⟨0x18, 32, false⟩
def ADC_SELFCAL : RecKind := ⟨0x19, 112, false⟩
def CAL_USE : RecKind := ⟨0x1A, 112, false⟩
def CAL_DUE : RecKind := ⟨0x1B, 40, false⟩
def REFCHK : RecKind := ⟨0x1C, 48, false⟩
def ROLE_CHANGE : RecKind := ⟨0x20, 40, true⟩
def FAILOVER : RecKind := ⟨0x21, 56, true⟩
def HANDOVER : RecKind := ⟨0x22, 48, false⟩
def UPDATE : RecKind := ⟨0x23, 72, true⟩
def SERVICE : RecKind := ⟨0x24, 40, true⟩

/-- The record kinds that are critical (R274). -/
def critical : List RecKind :=
  [KA_GAP, SEAL, POWER_UP, POWER_DOWN, TIME_SET, FAULT, RESET, DRAIN_RELEASE, POWER_LATCH, ROLE_CHANGE, FAILOVER, UPDATE, SERVICE]

end JR

end Sys2Proof.Machine
end

