-- ==== Sys2Proof/Machine/State.lean ====
section
/-! DEFINITION. What the block holds: registers, queues, buffers, counters, modes and pins, as plain data, and the
queue of waiting commands. Every register of the map is an entry of `regs` under its field (Machine/RegMap.lean); what
a rule keeps beside the registers stands in one structure per unit. -/

namespace Sys2Proof.Machine

/-- Why a command stops. No meaning of this model answers with a fault: the spec gives every command an effect. -/
inductive Fault where
  /-- Raised by nothing; kept so that the type is inhabited. Safe. -/
  | none
deriving DecidableEq, Repr

/-- Why a command has no meaning. -/
inductive Refusal where
  /-- Raised by an arm of `exec` whose command has no meaning yet. Safe: the machine stops. -/
  | notModelled (mnemonic : String)
deriving DecidableEq, Repr

/-- Access codes of register fields (R9). -/
inductive Access where
  | ro | rw | wo | w1c | rc | rws
deriving DecidableEq, Repr

/-- The kinds of reset (R10). -/
inductive Letter where
  | e | w | p | t | k | s | b | v
deriving DecidableEq, Repr

/-- The Survives columns that the register tables use (R11, R461). -/
inductive Surv where
  | live | all | faon | bkp | ewpt | etk | hcore | et
deriving DecidableEq, Repr

/-- One field of the register map: word address, least bit, width, access code, reset value, Survives column. -/
structure Field where
  addr : Nat
  lsb : Nat
  width : Nat
  acc : Access
  reset : Nat
  surv : Surv
deriving DecidableEq, Repr

/-- The register store: (key, value) pairs, keys strictly rising; an unlisted field holds its reset value. -/
abbrev Regs := List (Nat × Nat)

/-- A 32-bit fault word (R331): source, kind, severity and detail. -/
structure FaultWord where
  src : Nat
  kind : Nat
  sev : Nat
  detail : Nat
deriving DecidableEq, Repr

/-- A journal record (R272). Its JSN, and its CRC, are fixed at acceptance. -/
structure JRec where
  kind : Nat
  size : Nat
  flags : Nat
  src : Nat
  jsn : Nat
  frn : Nat
  tai : Nat
  sub : Nat
  payload : List Byte
deriving DecidableEq, Repr

/-- A Tabien message (R402): LEN is the payload's length and the CRC is computed when it is sent. -/
structure Msg where
  type : Nat
  stream : Nat
  seq : Nat
  flags : Nat
  payload : List Byte
deriving DecidableEq, Repr

/-- One engine (R18, R20, R514): whether its cores run, and whether it is under restart or handover. -/
structure EngineSt where
  running : Bool
  restarting : Bool
  handover : Bool
  fenced : Bool
deriving DecidableEq, Repr

/-- One power domain (R21 to R23): its switch, its power-good, and the FRN of a waiting switch-off request. -/
structure DomainSt where
  on : Bool
  pg : Bool
  offReq : Option Nat
deriving DecidableEq, Repr

/-- The event codes of TSB_HALERT (R17). -/
inductive HCode where
  | qreqRequest | qreqRelease | fastRoleSwap | sourceLoss | attachWake | cableDetach | mailboxWake | hostAlert
deriving DecidableEq, Repr

/-- The event codes of TSB_FALERT (R17). -/
inductive FCode where
  | fieldAlert | sleep
deriving DecidableEq, Repr

/-- The sidebands (R16, R17): the levels as driven, the state levels as the other side has received them, and the codes
that wait to go out, in the order in which they go. -/
structure Sidebands where
  line : Bool                -- TSB_LINE
  quiet : Bool               -- TSB_QUIET
  quietFault : Bool
  hostReset : Bool           -- state level of TSB_HALERT
  fieldReset : Bool          -- state level of TSB_FALERT
  halertSeen : Bool          -- TSB_HALERT as the field side has received it
  falertSeen : Bool          -- TSB_FALERT as the host side has received it
  hCodes : List HCode
  fCodes : List FCode
deriving DecidableEq, Repr

/-- One latch beside its register: the shadow copy and whether its parity check has failed (R31). -/
structure Shadow where
  latch : LatchId
  value : Nat
  bad : Bool
deriving DecidableEq, Repr

/-- The architecture of chapter 01: engines, domains, sidebands, latch shadows. `xferCtl` and `frzPol` are the
two latches that no register shows (R28). -/
structure Arch where
  engines : List EngineSt
  domains : List DomainSt
  sb : Sidebands
  shadows : List Shadow
  xferCtl : Nat
  frzPol : Nat
  hostFieldReset : Bool      -- the host side has noted a field reset (R17)
  hostResetAs : Nat × Nat × Nat   -- letter, source and cause of the newest host reset, for its JR_RESET
  subs : Nat                 -- sub-switches of F-PWR that F0 SUPERVISOR holds closed: POL1 to POL3, QR1, QR2 (R21)
deriving DecidableEq, Repr

/-! Chapter 02: the frame sequencer. Times are in FCLK cycles of 5 ns. -/

/-- What the sequencer keeps of one sync source (R47 to R50). -/
structure SyncTrack where
  lastAt : Option Nat          -- time of the newest event
  run : Nat                    -- consecutive events within ±2 %
  qualified : Bool
  qualFrames : Nat             -- frames it has stayed qualified
  group : Nat                  -- LINE: events since the tick-bearing one
  intervals : List Nat         -- last tick-bearing intervals, newest last, at most 4
  bearingAt : Option Nat       -- time of the newest tick-bearing event
  window : List Bool           -- last 8 events: inside the window?
deriving DecidableEq, Repr

/-- A scheduled aperture (R63, R188). -/
structure SchedApt where
  frn : Nat
  slot : Nat
  cycle : Nat
  len : Nat                    -- 0.1 ms units
  armedAt : Nat
  raised : Bool                -- its pre-freeze has been raised (R63)
deriving DecidableEq, Repr

/-- What forces freeze beside the plan: F62 APERTURE, a QREQ request, a scheduled aperture (R61, R63, R237). -/
inductive AptBy where
  | pad | qreq | sched
deriving DecidableEq, Repr

/-- One aperture in force: who asks for it, since when, and where a scheduled one ends. -/
structure Apt where
  by_ : AptBy
  at_ : Nat
  until_ : Option Nat
deriving DecidableEq, Repr

/-- The frame sequencer (R42 to R75). Freeze in force, the plan, the aperture and the run of refusals have their homes
in `FRM_STATUS`. -/
structure Seq where
  tickAt : Nat                 -- time of the present frame's tick
  t : Nat                      -- FCLK cycles since that tick, at the newest timed event
  len : Nat                    -- L, length of the present frame (R43)
  line : SyncTrack
  ext : SyncTrack
  cable : SyncTrack
  twin : SyncTrack
  lens : List Nat              -- last 8 frame lengths
  holdover : Nat               -- frames of HOLDOVER
  lockRun : Nat                -- frames of small phase error
  planPads : Nat               -- filtered F71, F72
  planOvr : Nat                -- plan of the override, while OVR is set
  preFreeze : Option Nat       -- slot that pre-freeze was raised for
  frzStart : Nat               -- start of the continuous freeze in force
  frzFrom : Nat                -- first slot of the frame whose start in freeze is not counted yet (R275)
  slotZero : Option (Nat × Nat)   -- the frame and plan whose slot 0 has been refused 4 µs before its tick (R558)
  aptPad : Bool                -- F62 after its filter
  aptIgnored : Bool            -- R62: until the pad has been low for 10 µs
  apts : List Apt              -- apertures in force, oldest first; `FRM_STATUS.APT` shows that there is one
  sched : Option SchedApt
  holdBreak : Bool             -- the 40 µs break of R65
  quietFrames : Nat            -- frames without refusal (R71)
  refusedNow : Bool            -- a refusal or cut in the present frame
  runCounted : Bool            -- the present planned run is counted already
  runRefused : Bool            -- the rest of the present run is refused (R65, R69)
  runSlot : Nat                -- slot that these two were set at; 256: slot 0 of the next frame
  thaw : Nat                   -- FCLK cycles of thaw counted, for the deadlines marked thaw (R315)
  lossDue : Bool               -- the active source is lost, and HOLDOVER follows at the next tick (R75)
  runCount : Nat               -- refused or cut runs within the run of refusals
  lastSlot : Nat
  lastReason : Nat
  lastFrn : Nat
  removedHold : Bool           -- R69: until the pack is negotiated again
  pdFreeze : Nat               -- pack current of the previous freeze run, mA
  refuseSource : Bool          -- R222: freeze refused until PS_RDY
  cfgApplied : Bool            -- R450
  pinHeld : Bool               -- F_RST_N held low (R60)
  outputsLow : Bool            -- FRAME_OUT and FREEZE_OUT held low (R60)
  framePulses : Nat            -- FRAME_OUT pulses made (R59)
  freezeOut : Bool             -- F61 (R58)
  wakeDue : Bool               -- R56: wake pulses precede the next edge
  heldSync : List JRec         -- JR_SYNC_CHANGE held while F6 restarts (R51)
deriving DecidableEq, Repr

/-! Chapter 03: intake and transfer stage. -/

/-- What the intake keeps beside its registers (R76 to R92). The closed switch is `INTAKE_STATUS.ACTIVE`. -/
structure Intake where
  blocked : Bool               -- the closed switch blocks reverse current (R81)
  revFrame : Nat               -- openings in the present frame (R100)
  startCap : Bool              -- 500 mA for the first 10 ms (R83)
  advert : Nat                 -- contract or Type-C advertised current, 10 mA units, from H0 CABLE
  loaded : Bool                -- configured host fields loaded (R91)
  cfgAsked : Bool              -- TM_CFG_REQ sent and not answered
  deadStart : Bool             -- in a dead-battery start (R92)
  thermalOpen : Bool           -- die above 135 °C (R100)
  ovOpen : Bool                -- CBUF above 63 V (R100)
  vsource : Nat                -- V_source, mV (R86)
  floorBefore : Nat            -- V_lo of the window before a ramp, mV (R89)
  rampUj : Nat                 -- energy that the present ramp has dissipated, µJ (R85)
  deadAdvert : Nat             -- Type-C advertised current of a dead-battery start, 10 mA units (R91, R92)
  samples : List Nat           -- CBUF runs, 10 µF units, at most 64 (R88)
  pin : Nat                    -- intake power into CBUF, 10 mW units, as last reported (R66)
  prioHold : Bool              -- the higher-priority source has 100 ms still to stay qualified (R79)
  present : Nat                -- inputs present: bit 0 VBUS, 1 DCIN, 2 H_AUX (R90)
deriving DecidableEq, Repr

/-- What the transfer stage keeps beside its registers (R93 to R101). -/
structure Xfer where
  target : Nat                 -- direction under way (R99)
  before : Nat                 -- direction that the change leaves
  step : Nat                   -- step reached
  frames : Nat                 -- frames the sequence has taken
  failures : Nat               -- failures of R100 in a row
  retryAt : Option Nat         -- FRN of the next retry
  retryDir : Nat
  latchCode : Nat              -- the fault that has latched the stage OFF (R101, R239)
  mirror : Bool                -- latch mirrored in H-AON (R101)
  stopped : Bool               -- primary bridge stopped for freeze (R95)
  ordered : Option Nat         -- direction that waits for thaw (R99)
  drainTo : Option Nat         -- mV that the bridge still delivers CBUF down to after a loss (R107)
  bleed : Bool                 -- the internal 10 mA bleed discharges CBUF (R107)
  peaks : List Bool            -- the samples of the last 100 ms, newest last: above the continuous power? (R93)
  chanFault : Bool             -- TSB_QUIET read as high by fault (R96)
  ovStop : Bool                -- VTB above 48 V
  thermal : Bool               -- power limit at 0 (R100)
  fenced : Bool                -- fenced by F0 SUPERVISOR (R98, R340)
deriving DecidableEq, Repr

/-! Chapter 04: field phases and BATFET. -/

/-- What the phases keep beside `PH_STATUS` (R108 to R132). Bit n of a set is phase n + 1. -/
structure Phases where
  thermal : Nat                -- thermally limited phases
  stopped : Nat                -- stopped by PHASE_OCP until F0 clears them
  attempts : Nat               -- soft-start attempts that failed
  retryAt : Option Nat
  ssTarget : Nat               -- mV
  ssRef : Nat                  -- ramp reference, µV
  ssEnd : Option Nat           -- end of the newest ramp, until its output has been tested 1 ms later (R124)
  lastPhase : Nat              -- phase that the dispatcher has issued to last (R113)
  ovDiode : Bool               -- all phases in diode emulation (R134)
  latchCode : Nat              -- the fault that has latched the phases off (R124, R239)
  ssDiode : Bool               -- QB and QC in diode emulation while the ramp reference lies below the output (R123)
  limitFrames : List Nat       -- frames each trim has stayed at its limit (R122)
  gateWait : Nat               -- phases that wait for further wake pulses
  entryFull : Bool             -- hardware uses ENTRY = 128 (R120)
  entryEnd : Option Nat        -- end of the thaw entry under way (R119)
  want : Nat                   -- number of phases that the total current asks for (R115)
  allFour : Bool               -- all four have been active since the tick (R121)
  vtb0 : Nat                   -- VTB_0 of R114, mV
  gateTries : List Nat         -- further wake pulses of each phase (R134)
  opened : Nat                 -- phases whose four switches are open after R118
  ton : List Nat               -- on-times that the controllers form at the present rails, ns (R111)
  regulating : Bool            -- an output is being regulated (R123)
  revFloor : Bool              -- stopped by REV_BAT_FLOOR (R130)
  windDown : Bool              -- wound down by pre-freeze (R117)
deriving DecidableEq, Repr

/-- What the BATFET keeps beside `BATFET_STATUS` (R125 to R128). -/
structure Batfet where
  ocpOpen : Bool               -- open after BATFET_OCP
  latched : Bool
  retries : Nat
  retryAt : Option Nat
  closedFrames : Nat           -- frames closed since a reclosure
  thermal : Bool
  entryOn : Bool               -- FULL_ON from pre-freeze to the end of thaw entry (R125)
  pdissCap : Option Nat        -- the current that 2.0 W of LINEAR_VMIN allow, mA (R126)
deriving DecidableEq, Repr

/-! Chapter 05: charging. -/

/-- A charge profile (R143, R146): voltages in 10 mV units per cell, currents in 25 mA units, temperatures in °C, the
termination and recharge codes of R153 and R154, and the timers in 15 min units and in hours. -/
structure Profile where
  chem : Nat
  cells : Nat
  vcell : Nat
  ichg : Nat
  ipeak : Nat
  ipre : Nat
  preTh : Nat
  term : Nat
  rech : Nat
  t1 : Int
  t2 : Int
  t3 : Int
  t4 : Int
  preTimer : Nat
  fastTimer : Nat
deriving DecidableEq, Repr

/-- What F1 CHARGE and the charge hardware keep beside their registers. -/
structure Charger where
  source : Bool                -- an active source, as the field side knows it (R82, TM_HSTATUS)
  pin : Nat                    -- intake power that TM_HSTATUS last reported, 10 mW units
  frame : Option Frame         -- what the last closed frame measured (R66)
  fresh : Bool                 -- the source has become active since the frame that closed last began (R66)
  cbufNom : Nat                -- nominal CBUF capacitance, 10 µF units (configured)
  limits : Option Profile      -- CHG_LIM; none: charging off (R456)
  profiles : List (Option Profile)   -- PROFILE0 to PROFILE7
  neg : Option Profile         -- the profile in force (R146)
  base : Option Profile        -- that profile before the caps of the smart pack (R144)
  found : Bool                 -- a pack has been declared present (R141, R142)
  removed : Bool               -- the pack at the pads has been declared removed (R125, R163)
  probe : Bool                 -- a probe runs (R141)
  sinkTest : Bool              -- the 10 mA sink is on (R142)
  missingSaid : Bool           -- BAT_MISSING recorded in the present run of ABSENT
  absentAt : Nat               -- FRN of the entry to ABSENT
  pauseFrom : Nat              -- state that TEMP_PAUSE was entered from
  hold : Nat                   -- PACK_HOLD: 0 refused, 1 deferred, 2 smart pack lost
  resume : Option Nat          -- state before a reset (R168)
  fromAbsent : Bool            -- the next negotiation resets the timers (R158)
  sbs : Option SbsRead         -- newest complete smart-pack sequence
  sbsFails : Nat               -- failed sequences in a row
  sbsRetryAt : Nat
  sbsReads : List Nat          -- command codes of the present sequence that are not issued yet (R144, R393)
  sbsAskAt : Nat               -- time from which F1 CHARGE asks for the next read sequence (R144)
  alarmSaid : Bool             -- SMARTPACK_ALARM recorded for the present decline
  lowZone : Nat                -- 0 cold stop, 1 cool, 2 above T2 (R160)
  highZone : Nat               -- 2 at or below T3, 3 warm, 4 hot stop
  runUp : Nat                  -- consecutive ticks: V_cell at PRE_TH + 100 mV or more
  runDown : Nat                -- V_cell below PRE_TH − 100 mV
  runCv : Nat                  -- the charge-voltage loop governed
  runWin : Nat                 -- temperature inside the windows
  runRech : Nat                -- V_cell below the recharge level
  runTerm : Nat                -- frames at or under the termination current (R153)
  cvTime : Nat                 -- time in FAST_CV, µs
  preTime : Nat                -- precharge timer, µs
  fastTime : Nat               -- fast timer, µs at its own rate (R156)
  fastReal : Nat               -- real time of the fast timer, µs
  tsOpen : Nat                 -- bit n: TS(n+1) read open since the tick (R162)
  tsShort : Nat                -- bit n: TS(n+1) read shorted since the tick
  blankTo : Nat                -- time to which the loss-of-current detector is blanked in thaw (R163)
  hwStop : Nat                 -- bit n: the hot comparator of TS(n+1) acts (R161)
  removal : Option Nat         -- detector bitmap, from a declaration until its word (R163)
  lampLevel : Bool             -- level of the lamp pattern
  lampWait : Option Bool       -- an edge that waits for the end of freeze (R167)
deriving DecidableEq, Repr

/-! Chapter 06: rails and the rail link. -/

/-- A set-point command of the rail link, as F4 RAIL takes it (R188, R192). Rails 0 to 2 are POL1 to POL3, 3 and 4 QR1
and QR2. -/
inductive RlCmd where
  | setV (rail code slew tag : Nat)
  | release (rail : Nat) (tag : Option Nat)
  | enable (rail : Nat) (on : Bool) (tag : Nat)
  | table (rail : Nat)
deriving DecidableEq, Repr

/-- One rail beside its registers (R172 to R185, R196). -/
structure Rail where
  disabled : Bool              -- switched off by ENABLE (R185)
  ss : Bool                    -- in soft start
  stopped : Bool               -- stopped, waiting for a retry
  uvlo : Bool
  attempts : Nat
  retryAt : Option Nat
  ref : Nat                    -- reference at `refAt`, µV; in a soft start, the ramp's (R176, R193)
  refAt : Nat                  -- time from which it moves on to its target
  resume : Option Nat          -- end of the soft resume under way (R181)
  ssEnd : Option Nat           -- end of the newest soft start, until its output has been tested (R124, R176)
  exempt : Nat                 -- switching cycles per slot in freeze, policy EXEMPT (R54)
  disch : Bool                 -- the output discharges through 200 Ω (R177)
  floorHeld : Bool             -- a FREEZE rail's hold path has engaged in this freeze (R179)
  ov : Bool                    -- low side on after POL_OV (R204)
  slew : Nat                   -- slew code in use
  tag : Option Nat             -- tag of the command that awaits ARRIVED
  arrived : Bool
  runOpen : Bool               -- run of POL_FRZ_FLOOR or QR_LIMIT (R179, R196)
  runQuiet : Nat               -- frames since its newest event
  holdSaid : Bool              -- POL_HOLD_LIMIT recorded in the present freeze run
  fold : Bool                  -- hold path folded, or QR rail stopped by temperature
deriving DecidableEq, Repr

/-- A rail-link response before its CRC (R189). -/
structure RlResp where
  code : Nat
  tag : Nat
  detail : Nat
deriving DecidableEq, Repr

/-- The rail link beside its registers (R186 to R195). -/
structure RailLink where
  lost : Bool                  -- the previous session ended by reset
  grant : Nat                  -- speed that holds from the next transaction
  immediate : Option RlResp    -- response that the newest command needs
  events : List RlResp         -- queued events, oldest first, at most 16
  sent : RlResp                -- response of the newest transaction
  evt : Bool                   -- EVT of that response
  waiting : List RlCmd         -- accepted while F4 RAIL is away
  planTags : List Nat          -- PLAN commands that await their tick
  aptA : Option (Nat × Nat)    -- FRN low 7 bits and LENGTH of APT_A
  aptTag : Option Nat          -- tag of the armed aperture
  crcFrame : Nat               -- CRC errors in the present frame
deriving DecidableEq, Repr

/-- A keep-alive gap (R201, R276): when the node fell and rose, and its lowest voltage. -/
structure KaGap where
  frn : Nat
  sc : Nat
  endFrn : Nat
  endSc : Nat
  lowest : Nat                 -- mV
  us : Nat                     -- length
deriving DecidableEq, Repr

/-- The rails. -/
structure Rails where
  rail : List Rail             -- POL1 to POL3, QR1, QR2
  vsel : List Nat              -- index 2·B + A of each POL rail, filtered
  kaArmed : Bool
  kaGap : Option KaGap         -- gap in progress
  kaStored : List KaGap        -- gaps that wait for F6 JOURNAL
  kaFold : Bool                -- limit folded to 100 mA
  kaCarries : Bool             -- the standby's diode conducts (R203)
  kaInvalid : Bool             -- R198
  gaps : Nat                   -- KA gaps since F-AON power-up (R302)
  dips : Nat                   -- dips under 1 ms since the since-point
  lowest : Nat                 -- KA_MIN since the since-point, mV
deriving DecidableEq, Repr

/-! Chapter 07: the cable port. -/

/-- A voltage and a current that a contract would have: mV, 10 mA units, the type code and the object position of
`CBL_CONTRACT`. -/
structure Terms where
  mv : Nat
  curr : Nat
  type : Nat
  pos : Nat
deriving DecidableEq, Repr

/-- What the port keeps beside its registers (R207 to R238), and what F0 SUPERVISOR keeps of the source role. -/
structure Cable where
  window : Bool                -- H0 CABLE has set the VBUS windows (R215)
  riseLo : Nat                 -- mV
  riseHi : Nat
  fallLo : Nat
  fallHi : Nat
  winDue : Option (Nat × Nat × Bool)   -- when the windows of a new contract replace the widened ones, its mV, PPS or AVS (R215)
  capsDue : Bool               -- new Source_Capabilities are to be sent (R219, R221)
  srcSwitch : Bool             -- source switch closed (R221)
  discharge : Bool             -- the 100 mA discharge of VBUS is on
  rp : Bool                    -- Rp presented; else Rd (R209)
  ra : Bool                    -- Ra on the other CC pad
  attachRole : Nat             -- 1 sink, 2 source at the last attach (R234)
  pdSeen : Bool                -- the partner was PD-connected (R231)
  req : Option Terms           -- a request made or accepted, until its PS_RDY
  transit : Bool               -- Accept to PS_RDY
  swap : Nat                   -- step of a PR_Swap: 0 none, 1 sent, 2 accepted as old sink, 4 old source off, 5 bring-up
  hardResets : Nat             -- Hard Resets without an answer
  ocps : List Nat              -- times of the last SRC_OCP events (R223)
  sinkOnly : Bool              -- until the cause has cleared (R224)
  sinkOnlyDetach : Bool        -- until detach (R223)
  eprMiss : Nat                -- EPR_KeepAlive without an answer
  discTries : Nat              -- Discover Identity without an answer (R227)
  fsTries : Nat                -- Enter Mode without ACK (R235)
  tickPulses : Nat             -- TICK pulses put out (R237)
  fsDrive : Bool               -- the module drives TICK
  frsSent : Bool               -- R230, until FR_Swap
  frsRx : Bool                 -- R229, until PS_RDY
  asked : Bool                 -- SOURCE requested of F0 SUPERVISOR
  ended : Bool                 -- field side: the role has ended, SOURCE is left at the next tick
  granted : Bool               -- TM_XFER has granted SOURCE
  target : Nat                 -- field side: VBUS target, mV (R70)
  qbat : Nat                   -- field side, retention RAM: Q_bat, nC (R220)
  qvalid : Bool
  resState : Nat               -- 0 NORMAL, 1 APPROACH, 2 REACHED, 3 INVALID
  ires : List Nat              -- reserve loads of the last 64 frames, µA
  swapReset : Bool             -- a Hard Reset has fallen in a PR_Swap, until the next attachment (R234)
  sentI5 : Nat × Nat           -- field side: the two 5 V currents of the budget last sent (R218, R229)
  rawI5 : Nat                  -- 5 V offer before its floor, 10 mA units (R218)
  freeI5 : Nat                 -- 5 V offer without P_quiet (R229)
deriving DecidableEq, Repr

/-! Chapter 14: modes, start-up, configuration, SERVICE. -/

/-- A configuration copy in NOR (R451, R452): its programmed bytes, unlisted bytes reading 0xFF. -/
abbrev NorImage := List (Nat × Byte)

/-- The open challenge of R462. -/
structure Challenge where
  index : Nat                  -- which random nonce
  level : Nat
  expires : Nat                -- FRN
deriving DecidableEq, Repr

/-- What the mode functions keep beside their registers. -/
structure Modes where
  pwrFilt : Bool               -- filtered F87 (R439)
  hostPwr : Nat                -- last HOST_PWR value
  shipNReady : Bool            -- F86 has read high since the newest wake from SHIP (R472)
  shipByPad : Bool             -- the SHIP request accepted is the pad's (R467)
  kaStep : Nat                 -- KEEPALIVE entry: 0 none, 1 entry at a tick, 2 staged
  kaFrames : Nat               -- frames that durable tickets have had to retire (R441)
  wakeHold : Nat               -- frames that a falling request is ignored (R442)
  shipAsk : Bool               -- a SHIP request has been accepted (R444)
  shipCell : Bool              -- the ship cell is latched (R445)
  faonOn : Bool                -- F-AON has power
  haonOn : Bool                -- H-AON has power
  challenge : Option Challenge
  nonces : Nat                 -- nonces drawn
  failFrns : List Nat          -- FRNs of the counted SERVICE failures (R463)
  lockUntil : Nat              -- FRN at which the lockout ends
  lockTai : Option Nat         -- TAI second at which it ends, where the RTC is valid
  svcNext : Nat                -- level that SERVICE is entered with at the next tick, 0 none
  svcCause : Nat               -- 0 signed, 1 slot empty
  svcKey : List Byte           -- KEY_ID of the session
  svcEnd : Option Nat          -- R467 cause with which SERVICE ends at the next tick
  svcIdle : Nat                -- frames without a mailbox command
  keySlot : Option (List Byte) -- maker key (R454)
  copyA : NorImage
  copyB : NorImage
  staged : NorImage
  otherDigest : Nat            -- digest of the copy not selected, at the cold start (R455)
  cfgImage : Option NorImage   -- image in use; none: the ROM defaults (R456)
  starting : Bool              -- between power-up and the end of START
  startKind : Nat              -- `START_INFO.KIND` that the start under way ends with
  kaRead : Bool                -- the KA word has been read since F-AON power-up (R198)
  halted : Bool                -- R491
  downKnown : Bool             -- backup latch: the loss time is known
  downTai : Nat
  downSub : Nat
  lastFrn : Nat                -- backup latch: last FRN before a loss
  downShip : Bool              -- the loss was SHIP (R302, R446)
  wakeReq : Bool               -- a wake event of R442 waits for the mode controller
  dirAsked : Nat               -- the direction that F0 SUPERVISOR ordered last (R99)
  dirOff : Bool                -- OFF is wanted, and ordered a frame later (R107)
  swapDue : Bool               -- the swap code has arrived while F0 SUPERVISOR is away (R133, R229)
  revHeld : Bool               -- F0 has stopped moving REV_SET (R233)
  resetEngTest : Bool          -- BIST_CTL.ENG_TEST waits (R494)
deriving DecidableEq, Repr
/-! Chapter 08: measurement. -/

/-- One converter slice (R243, R255 to R257). Whether it is active, spare or fenced stands in `ADC_STATUS`. -/
structure Slice where
  offset : Int                 -- background offset, 1/256 LSB
  gain : Int                   -- background gain, 0.01 ppm
  weights : List Int           -- weights of the six most significant capacitors (R255)
  calAt : Option Nat           -- time of the newest passed calibration, FCLK cycles
  fails : Nat                  -- failed calibrations in a row
  recover : Nat                -- results that still carry RECOVERY (R262)
  ovrBank : Nat                -- bank of the newest out-of-range sample
  ovrEnd : Option Nat          -- end of that sample, FCLK cycles
deriving DecidableEq, Repr

/-- An entry of the result queue (R253), with the full FRN of its sampling instant and who takes it. -/
structure QEntry where
  value : Nat
  tag : Nat
  slice : Nat
  flags : Nat                  -- bits [31:27]: OVR, RECOVERY, REF_UNSETTLED, INJECTED, CAL_STALE
  cyc4 : Nat
  slot : Nat
  frn : Nat
  host : Bool                  -- an entry that travels in TM_ADC
  sent : Bool                  -- in a TM_ADC or a result that is not yet acknowledged
  tkt : Nat                    -- ticket of an injected conversion
deriving DecidableEq, Repr

/-- An injected conversion (R251, R252): its ticket, and its result while earlier ones of its tag have not retired. -/
structure Conv where
  tkt : Nat
  tag : Nat
  avg : Nat
  result : Option QEntry
deriving DecidableEq, Repr

/-- The measurement subsystem beside its registers. -/
structure Adc where
  slices : List Slice
  spareReady : Bool            -- the spare has passed its calibration and idles
  rotAt : Nat                  -- time of the newest rotation (R256)
  due : List (Nat × Option Nat)   -- regular entries due, by index, with their slot in this frame; none: of an earlier one
  queue : List QEntry          -- at most 1024
  inj : List Conv              -- issued injected conversions, oldest first
  refAt : Option Nat           -- time at which the buffers were enabled
  seqRun : Bool                -- regular sequences run (R260)
  fgDone : Bool                -- the start-up or wake calibration has completed (R258)
  fgApply : Option (List (Int × Int))   -- constants that apply from the next tick
  fgConst : List (Int × Int)   -- constants of S0 to S4, then of AIN1 to AIN4 in each range
  fgTemp : Int                 -- TCTL at the last foreground calibration, 1/512 °C
  refmonRef : Nat              -- REFMON code at the last foreground calibration
  rng : Nat                    -- ranges of AIN1 to AIN4 in effect (R246)
  rngStale : Nat               -- channels whose range has changed since the last foreground calibration
  refMon : Bool                -- R261
  refQuiet : Nat
  ovrRuns : List (Nat × Nat)   -- tag, frames since its newest out-of-range result (R262)
  lateRun : Option Nat         -- frames since the newest late entry (R250)
  skipRun : Option Nat         -- frames since the newest skipped entry (R254)
  copyA : NorImage             -- calibration record copies (R263)
  copyB : NorImage
  staged : NorImage
  means : List Nat             -- frame means of the system-scan channels, by tag (R249)
  inUse : NorImage             -- the record applied; empty: nominal constants
  applyCopy : Option Nat       -- a copy to be applied from the next tick
  lastCert : List Byte         -- CERT_ID and SEQ last journalled
  lastSeq : Nat
  degradedBist : Bool          -- R490: macros 0x15, 0x16
deriving DecidableEq, Repr

/-! Chapter 09: the journal and the RTC. -/

/-- A record that has been submitted and not accepted, with its JRN_APPEND ticket once that is issued (R314, R315). -/
structure Append where
  r : JRec
  tkt : Option Nat
deriving DecidableEq, Repr

/-- An accepted record that is not yet committed (R286). `chain` is the chain value after it, once it is hashed. -/
structure Staged where
  r : JRec
  durable : Bool               -- record of a durable host command
  chain : Option Nat
  tkt : Option Nat
deriving DecidableEq, Repr

/-- A committed page of the NAND (R290, R291). -/
structure NandPage where
  psn : Nat
  first : Nat
  ring : Bool
  reloc : Bool
  erases : Nat
  recs : List JRec
  bad : List Nat               -- codewords beyond correction, 1 KiB each (R292)
deriving DecidableEq, Repr

/-- A block of the NAND that is not erased, or has been erased before, or is retired. An unlisted block is good, erased
and never worn. -/
structure NandBlock where
  num : Nat
  erases : Nat
  bad : Bool
  dirty : Bool                 -- holds superseded pages only, and waits for its erase
  pages : List NandPage
deriving DecidableEq, Repr

/-- The values of a closed second that JR_SUMMARY carries and that a restart keeps (R275). -/
structure Second where
  tai : Nat
  frn : Nat
  payload : List Byte
deriving DecidableEq, Repr

/-- The journal and the RTC beside their registers. -/
structure Jrn where
  staged : List Staged         -- JSN order
  closed : List Nat            -- records in each closed page, oldest first; the rest of `staged` is the open page
  openFrames : Nat             -- frames since the first record of the open page
  chain : Nat                  -- C of the highest hashed JSN
  headChain : Nat              -- C of the watermark (R302)
  hashNext : Nat               -- JSN that is hashed next
  sealTries : Nat              -- signer failures in a row
  psn : Nat                    -- next page sequence number
  block : Option Nat           -- general block under programming
  ringBlock : Option Nat       -- critical-ring block under programming
  blocks : List NandBlock      -- rising
  waiting : Bool               -- the record at the front has been counted as waiting (R281)
  critSaid : Bool              -- JRN_CRIT_FULL recorded for the record that waits
  shortSaid : Bool             -- HOLDUP_SHORT recorded for the present shortfall
  onlyCrit : List Nat          -- epochs not sealed that hold records programmed only in the critical ring (R279)
  unreadable : List Nat        -- epochs not sealed that hold an UNREADABLE range (R279)
  kaSecs : Nat                 -- seconds of KEEPALIVE since the region was last committed (R289)
  badBlocks : List Nat         -- the directory's bad-block table (R290, R293)
  dirBlock : Nat               -- block 0 or 1, whose directory is the newest
  unreadSince : Bool           -- JRN_CRIT_FULL or UNREADABLE since the since-point (R302)
  powerUp : Option (List Byte) -- JR_POWER_UP that waits for the scan: its payload before HEAD_JSN
  seconds : List Second        -- summaries of the last 8 seconds not yet submitted (R275)
  kaBelow : Bool               -- SFLAGS of the present second
  refused : Bool
  source : Bool
  full : Bool
  faults : Nat                 -- fault words of the present second
  frzSlots : Nat
  refSlots : Nat
  tpack : Option Int           -- highest pack temperature of R159, °C
  rtcRem : Nat                 -- part of a subsecond unit that the tick left over
  slew : Int                   -- slew still to work off (R306), in the units of `rtcRem`
  sinceKind : Nat              -- R302
  sinceFrn : Nat
  sinceTai : Nat
  sinceSub : Nat
  sinceJsn : Nat
  rateAt : Nat                 -- FRN of the last rate correction (R305)
  bkpSaid : Bool               -- RTC_BKP_LOW recorded
  scrubs : List Nat            -- blocks whose valid pages are to be relocated outside freeze (R54, R292)
  scanned : Bool               -- the scan of this power-up has run
deriving DecidableEq, Repr

/-! Chapter 10: tickets, faults, recovery. -/

/-- Ticket states (R313); a FREE entry is not in the table. -/
inductive TktState where
  | issued | running | done | failed | replay | void | held
deriving DecidableEq, Repr

/-- A ticket entry (R312), with its number. -/
structure Ticket where
  num : Nat
  stream : Nat
  owner : Nat
  chan : Nat
  unit : Nat
  state : TktState
  acc : Bool
  dur : Bool
  idem : Bool
  replay : Nat
  epoch : Nat
  order : Nat
  at_ : Nat                    -- time of issue (R318)
  thaw0 : Nat                  -- thaw cycles counted at issue (R315)
deriving DecidableEq, Repr

/-- An issue that waits for an entry or for its stream (R314). -/
structure IssueWait where
  stream : Nat
  owner : Nat
  chan : Nat
  unit : Nat
  dur : Bool
  idem : Bool
  crit : Bool
  frn : Nat
  code : Nat := 0              -- a smart-pack read: its command code (R144); a conversion: its AVG code (R251)
deriving DecidableEq, Repr

/-- The ticket table beside its registers. -/
structure Tickets where
  table : List Ticket          -- in order of issue, at most 512
  orders : List Nat            -- issue counter of each stream
  waits : List IssueWait       -- oldest first
  fullRun : Option Nat         -- frames since the newest whole-frame wait (R314)
  stopped : Bool               -- no new tickets (R441)
deriving DecidableEq, Repr

/-- An entry of the fault history (R337). -/
structure HistEntry where
  word : FaultWord
  frn : Nat
  sc : Nat
  merges : Nat
  react : Nat                  -- 0 RECORD, 1 DEGRADE, 2 FENCE, 3 RESTART, 4 RESET
  esc : Bool
  isOpen : Bool
  jrn : Bool
  base : Nat
  due : Bool                   -- its reaction has not been applied yet
  quiet : Nat                  -- ticks since a word of its source (R339)
deriving DecidableEq, Repr

/-- An escalation tracker (R336). -/
structure Tracker where
  src : Nat
  kind : Nat
  count : Nat
  started : Nat                -- FRN of its first event
deriving DecidableEq, Repr

/-- An override of the configuration block (R336): N, W and the reactions for MAJOR and SEVERE. -/
structure EscOverride where
  kind : Nat
  n : Nat
  w : Nat
  major : Nat
  severe : Nat
deriving DecidableEq, Repr

/-- A fence with automatic exit (R342), by unit or engine ID. -/
structure FenceSt where
  id : Nat
  quiet : Nat                  -- ticks since a word of severity MINOR or higher
  auto : Bool
deriving DecidableEq, Repr

/-- A recovery counter (R342). -/
structure Recovery where
  id : Nat
  count : Nat
  since : Nat                  -- FRN of its first count
deriving DecidableEq, Repr

/-- When a fault word reached the collector (R40, R334): FRN, slot and cycle, and whether it came from the host side. -/
structure Stamp where
  frn : Nat
  sc : Nat
  host : Bool
deriving DecidableEq, Repr

/-- The fault collector and the reactions, beside their registers. -/
structure Faults where
  input : List FaultWord       -- the 32-entry input stage (R334)
  inputAt : List Stamp         -- when its words arrived
  hostAt : List Stamp          -- when the TM_HFAULT messages not yet taken in arrived (R40)
  hostBuf : List FaultWord     -- the 16-entry host fault buffer (R40)
  hist : List HistEntry        -- oldest first, at most 64; shown at 0x1A00 (R337)
  trackers : List Tracker      -- at most 64
  overrides : List EscOverride -- at most 32
  fences : List FenceSt
  recoveries : List Recovery
  parts : List Nat             -- sources of the open part faults (R329)
  histRead : Bool              -- the history has been read since DOUBLE was set (R330)
  latchFn : Bool               -- a power latch whose word was at or above FN_SEV (R166)
deriving DecidableEq, Repr

/-! Chapter 11: the twin. -/

/-- A twin message that has not been acknowledged (R349). -/
structure TwinMsg where
  type : Nat
  lseq : Nat
  epoch : Nat
  payload : List Byte
deriving DecidableEq, Repr

/-- The twin function beside its registers. -/
structure Twin where
  low : Bool                   -- this module drives TW_DET_N low: the role bit LEAD (R352)
  standby : Bool               -- the role bit STANDBY
  mark : Bool                  -- level of the lanes in freeze (R57)
  resigned : Bool              -- CLAIMING after a resignation other than by a reset (R356)
  claimAt : Option Nat         -- a claim that waits for the link, in ms (R353)
  waitDet : Bool               -- position 1 waits 100 ms (R353)
  txSeq : Nat                  -- next LSEQ
  rxSeq : Option Nat           -- lowest LSEQ not taken yet; none until the first message after a training
  rxAhead : List Nat           -- LSEQs taken above it
  out : List TwinMsg           -- unacknowledged, at most 64
  hbLost : Bool
  pState : Nat                 -- partner's state, mode, mirror watermark and allowance, from its last heartbeat
  pMode : Nat
  pAllow : Nat
  pMirror : Nat
  reserved : List Append         -- open reservations, at most 64 (R360)
  fwdNext : Nat
  forwarded : List (Nat × Append)   -- sent as TWM_APPEND and not yet mirrored (R362)
  ring : List JRec             -- pending ring (R362)
  ringRun : Bool               -- a run of drops is recorded
  resyncAt : Option Nat        -- FRN at which the resync started
  resyncNext : Option Nat      -- as LEAD: the JSN that the partner is sent next (R364)
  resyncSent : Nat             -- bytes of resync data in the present frame
  barred : Bool                -- ISOLATED until TWN_CTL.ENROL (R354, R364)
  takeover : Option Nat        -- TAKEOVER_JSN of the claim or promotion
  claimJsn : Nat               -- first JSN assigned after the present claim (R354)
  leadPos : Nat                -- position of the module in LEAD (R367)
  resignWait : Bool            -- a resignation that waits for a seal (R375)
  crcFrame : Nat               -- CRC errors in the present frame
  timeAt : Nat                 -- FRN of the last TWM_TIME
deriving DecidableEq, Repr

/-! Chapter 12: the two-wire ports. -/

/-- A read transfer's RC fields and its bytes (R382, R383). -/
structure HostPort where
  pointer : Nat                -- 16 bits (R380)
  readBytes : List Byte        -- bytes that the last read transfer returned
  wakeWait : Bool              -- NACKs until the wake from doze ends (R384)
deriving DecidableEq, Repr

/-- A sensor-bus transaction (R391): its ticket and who asked for it. -/
structure BusOp where
  tkt : Nat
  addr : Nat
  isRead : Bool
  wlen : Nat
  rlen : Nat
  pec : Bool
  code : Nat                   -- command code of a smart-pack read (R144)
  host : Option (Nat × Nat)    -- host stream and number; none for F1 CHARGE
  nacked : Bool                -- its SB_NACK is recorded
  deferred : Bool              -- it has waited for thaw, and is counted for it (R392)
  since : Nat                  -- start of its present run, or the end of its last one (R391)
  overran : Bool               -- its present run is counted for its part in freeze (R392)
deriving DecidableEq, Repr

/-- The sensor bus. -/
structure SensorBus where
  ops : List BusOp
  clearDue : Bool              -- a bus clear runs before the next transaction (R395)
  clearTries : Nat
  stuckBits : Nat              -- [0] SCL low, [1] SDA low
  vioLow : Bool                -- F_VIO below 1.50 V (R557)
  hvioLow : Bool
deriving DecidableEq, Repr


/-! Chapter 13: the Tabien link, the mailbox, the snapshot and the drain port. -/

/-- One end of the Tabien link (R404, R405, R407). Its training state and low epoch bits are in `TL_x_STATUS`. -/
structure LinkEnd where
  txNext : Nat
  rxNext : Nat
  waiting : List Msg           -- not yet admitted to the send queue
  queue : List Msg             -- sent, unacknowledged; at most 64
  resends : Nat                -- resends of the oldest message
  unacked : Nat                -- messages taken since the last TM_ACK was sent
  epoch : Nat                  -- LINK_EPOCH
  crcFrame : Nat               -- CRC failures in the present frame
  inbox : List Msg             -- delivered by the barrier filter, not yet acted on
  rxLost : Bool                -- receive state lost (R407)
  ackSent : Nat                -- RX_NEXT of the newest TM_ACK sent
  upSent : List Byte           -- payload of the newest TM_LINK_UP sent
deriving DecidableEq, Repr

/-- A place on a host stream (R416, R417). -/
structure Place where
  stream : Nat
  seq : Nat
  cmd : Nat
  answered : Bool
  tseq : Option Nat            -- Tabien SEQ of its TM_CMD, once it is in the send queue (R37)
deriving DecidableEq, Repr

/-- A result that waits in the result queue (R415, R416). -/
structure ResultEntry where
  stream : Nat
  bytes : List Byte
deriving DecidableEq, Repr

/-- The mailbox beside its registers. -/
structure Mailbox where
  places : List Place
  results : List ResultEntry
deriving DecidableEq, Repr

/-- The field snapshot on the host side (R418). -/
structure Snapshot where
  image : List Byte            -- readable copy of 0x1000 to 0x1FFF
  frn : Nat                    -- FRN of the image that arrives
  chunks : List (Nat × List Byte)
  us : Nat                     -- µs since the newest complete image, or since the host side started
  stale : Bool                 -- SNAP_STALE recorded since then
deriving DecidableEq, Repr

/-- A drain request (R424). -/
structure DrainReq where
  op : Nat
  tag : Nat
  first : Nat
  count : Nat
deriving DecidableEq, Repr

/-- The drain port: host buffer and requests at both ends (R424 to R427). -/
structure Drain where
  buffer : List Byte           -- XF_DRN_TX and the 128 KiB buffer
  tail : List Byte             -- bytes of an item that has not entered the buffer whole
  openReq : Option DrainReq    -- as H2 HOSTPORT holds it
  fieldReq : Option DrainReq   -- as F6 JOURNAL serves it
  out : List Byte              -- bytes that the newest transaction's read has driven
  fenced : Bool
deriving DecidableEq, Repr

/-- A host command that the field side has taken and not yet answered (R322, R410). -/
structure HostCmd where
  stream : Nat
  seq : Nat
  cmd : Nat
  flags : Nat
  epoch : Nat
  args : List Byte
  tkt : Nat                    -- its ticket
  stage : Nat                  -- 0 taken, 1 validated and waiting for the commit, 2 running in another stream, 3 answered,
                               -- 4 its result acknowledged, 5 waiting for the space of its record (R320)
  status : Nat                 -- result, once answered
  rflags : Nat
  data : List Byte
  sent : Bool                  -- its result message has been queued
  jsn : Option Nat             -- JSN of a durable command's record
  inner : Option Nat           -- ticket of the work that it has started in another stream (R315)
  hostSide : Bool              -- host-local, run by H2 HOSTPORT (R510)
deriving DecidableEq, Repr

/-- A cached result of a command that changed state (R322). -/
structure Cached where
  stream : Nat
  seq : Nat
  bytes : List Byte
deriving DecidableEq, Repr

/-- Host interface state of both sides. -/
structure HostIf where
  h : LinkEnd
  f : LinkEnd
  mbx : Mailbox
  snap : Snapshot
  drain : Drain
  work : List HostCmd          -- field side: taken and not retired
  cache : List Cached          -- last 16 of each stream, oldest first
  n7 : Nat                     -- host-local stream 7: its last number (R510)
  alert : Bool                 -- H29 H_ALERT_N asserted
  hReady : Bool                -- H37 H_READY
  pinLow : Bool                -- H36 H_RST_N held low
  busy : Bool                  -- H2 HOSTPORT under restart or handover (R411)
  eventFn : Bool               -- F76 level that the last TM_EVENT brought
  fieldAsleep : Bool           -- the host side knows the field side in KEEPALIVE or SHIP (R440)
deriving DecidableEq, Repr
/-! Chapter 15: watchdogs and self-test. -/

/-- One side's watchdog beside its registers (R474 to R482). -/
structure Wdg where
  armedFrn : Nat               -- frame count at arming
  live : Nat                   -- live check-in bits
  refused : Bool               -- service is refused in this window (R481)
  tried : Bool                 -- a write was refused under R481
  suspended : Bool             -- expiry suspended for this period (R482)
  missed : List Nat            -- intervals missed in a row, by engine
  period : Nat                 -- P and S in force for the period under way
  openSlot : Nat
  excuse : Nat                 -- engines restarting, or not yet started
  starting : Bool              -- the start timer runs (R477)
  frames : Nat                 -- frames counted since arming
  paused : Bool                -- H-CORE dozes (R478)
  window : Bool                -- the service window is open (R474)
  served : Bool                -- valid service in it
  late : Bool                  -- its closing tick has passed without one
deriving DecidableEq, Repr

/-- A soft repair or fuse record (R488, R492). -/
structure Repair where
  macro_ : Nat
  col : Bool
  addr : Nat
  spare : Nat
  fused : Bool
deriving DecidableEq, Repr

/-- The memory self-test of both sides beside its registers. -/
structure Bist where
  soft : List Repair           -- field side
  hsoft : List Repair          -- host side
  burn : Bool                  -- field side: burning has been asked for, and waits for thaw
  hburn : Bool                 -- host side
  passed : Nat                 -- field macros that have passed since F-AON power-up (R485)
  due : List Nat               -- field macros that wait for their self-test (R485, R489, R494)
  hdue : List Nat              -- host macros that wait for it (R486, R489)
  fuses : List Nat             -- fuse records of the field side, as they read (R492)
  hfuses : List Nat            -- of the host side
deriving DecidableEq, Repr

/-! Chapter 16: images and handover. -/

/-- What the model keeps of an image: its header fields (R500) and its digest. -/
structure ImageInfo where
  version : Nat
  bundle : Nat
  length : Nat
  msgVer : Nat
  msgMin : Nat
  msgMax : Nat
  stateVer : Nat
  stateMin : Nat
  stateMax : Nat
  keyId : List Byte
  digest : List Byte           -- SHA-256, 32 bytes
deriving DecidableEq, Repr

/-- A slot: its governing record (R501) and its image. -/
structure Slot where
  gen : Nat
  state : Nat                  -- 0 EMPTY, 1 WRITING, 2 VERIFIED, 3 PROBATION, 4 ACTIVE, 5 REJECTED
  info : ImageInfo
  bytes : List Byte            -- bytes written by an update session; a factory image is not listed
deriving DecidableEq, Repr

/-- An update session (R503 to R509). -/
structure Session where
  id : Nat
  engine : Nat                 -- index of the engine, R18 order
  slot : Nat
  len : Nat                    -- PATCH_LEN
  next : Nat                   -- next expected patch position
  patch : List Byte            -- bytes taken
  blocks : Nat                 -- blocks written
  target : List Byte           -- output produced
  ended : Bool                 -- END reached
  rewrite : Bool               -- a read-back mismatch has been rewritten once
deriving DecidableEq, Repr

/-- A handover or probation (R514, R518). -/
structure Handover where
  engine : Nat
  oldSlot : Nat
  newSlot : Nat
  at_ : Nat                    -- FRN at or after which it begins
  begun : Bool
  revert : Bool
  cmd : Option (Nat × Nat)     -- host stream and number of the command that waits
  startAt : Nat                -- FCLK time of its tick
  stateLen : Nat
deriving DecidableEq, Repr

/-- The update function of both sides beside its registers. -/
structure Update where
  slots : List Slot            -- index 2·engine + slot
  chunk : List (Nat × Byte)    -- the chunk buffer: bytes received by TM_UPD_DATA, by position
  chunkSession : Nat
  session : Option Session
  sessions : Nat               -- sessions opened, for the next SESSION number
  hand : Option Handover
  prob : Option Handover
  probDue : Option Nat         -- why the probation has failed: the cause of R523
  note : Option (Nat × Nat)    -- permafrost load noted in retention RAM: engine and slot (R520)
  hostFrost : Bool
deriving DecidableEq, Repr

/-! Chapters 17 and 18: loop-backs, injection, pads. -/

/-- Loop-backs and fault injection beside their registers. -/
structure LoopBack where
  due : Bool                   -- a field run waits for its tick
  hostRun : Bool
  frames : Nat                 -- frames the field run has taken
  hostFrames : Nat             -- frames the host run has taken
  armed : Bool                 -- FI_CTL.ARM (R533)
  testHigh : Nat               -- bit 0 HTEST, bit 1 FTEST open or high (R540)
deriving DecidableEq, Repr


/-! The whole block. -/

/-- The hardware: everything but the queue of commands. -/
structure Hw where
  regs : Regs
  arch : Arch
  seq : Seq
  intake : Intake
  xfer : Xfer
  ph : Phases
  bat : Batfet
  chg : Charger
  rails : Rails
  rl : RailLink
  cable : Cable
  flt : Faults
  host : HostIf
  modes : Modes
  adc : Adc
  jrn : Jrn
  tkt : Tickets
  twin : Twin
  hp : HostPort
  bus : SensorBus
  wdg : Wdg
  hwdg : Wdg
  bist : Bist
  upd : Update
  lb : LoopBack
  sub : List Append            -- records submitted and not yet accepted (R281)
  freeCtr : Nat                -- the model's own: which free value comes next
deriving DecidableEq, Repr

/-- The state of the block: its hardware, and the commands that wait, first in, first out. -/
structure State where
  hw : Hw
  pending : List Instr
deriving DecidableEq, Repr

/-! Reset. `Hw.reset` is the block at F-AON power-good and H-CORE power-good of its first power-up: registers at their
reset values, every engine still to be started, memories with nothing listed. What the spec states no reset value for is
zero, empty or false (DESIGN CHOICE, notes/assumptions/2.md). -/

/-- A sync source that has given no event. -/
def SyncTrack.reset : SyncTrack :=
  { lastAt := none, run := 0, qualified := false, qualFrames := 0, group := 0, intervals := [], bearingAt := none
    window := [] }

/-- One engine that is still to be started (R448). -/
def EngineSt.reset : EngineSt := { running := false, restarting := true, handover := false, fenced := false }

/-- A domain that is on, or off. -/
def DomainSt.at (b : Bool) : DomainSt := { on := b, pg := b, offReq := none }

/-- Domains at F-AON power-good, in the order of R21: F-CORE and F-MEM follow within 0.5 ms (R448), H-PWR with CBUF. F-PWR
is switched by hardware, with VSYS. -/
def domainsAtReset : List DomainSt := [true, true, false, true, true, false, false, true, false, false].map DomainSt.at

/-- The architecture at reset. -/
def Arch.reset : Arch :=
  { engines := List.replicate 12 EngineSt.reset, domains := domainsAtReset
    sb := { line := false, quiet := false, quietFault := false, hostReset := false, fieldReset := false, halertSeen := false
            falertSeen := false, hCodes := [], fCodes := [] }
    shadows := [], xferCtl := 0, frzPol := 0, hostFieldReset := false, hostResetAs := (0, 0, 0), subs := 31 }

/-- The frame sequencer at reset: FREE_RUN at 20.000 ms, FRN 0 (R448). -/
def Seq.reset : Seq :=
  { tickAt := 0, t := 0, len := 4000000, line := SyncTrack.reset, ext := SyncTrack.reset, cable := SyncTrack.reset
    twin := SyncTrack.reset, lens := [], holdover := 0, lockRun := 0, planPads := 0, planOvr := 0, preFreeze := none
    frzStart := 0, frzFrom := 0, slotZero := none, aptPad := false, aptIgnored := false, apts := [], sched := none
    holdBreak := false, quietFrames := 0, refusedNow := false, runCounted := false, runRefused := false, runSlot := 0, thaw := 0, lossDue := false, runCount := 0
    lastSlot := 0, lastReason := 0, lastFrn := 0, removedHold := false, pdFreeze := 0, refuseSource := false
    cfgApplied := false, pinHeld := false, outputsLow := false, framePulses := 0, freezeOut := false, wakeDue := false
    heldSync := [] }

/-- The intake at reset. -/
def Intake.reset : Intake :=
  { blocked := false, revFrame := 0, startCap := false, advert := 50, loaded := false, cfgAsked := false
    deadStart := false, thermalOpen := false, ovOpen := false, vsource := 0, floorBefore := 0, rampUj := 0, deadAdvert := 0, samples := [], pin := 0
    prioHold := false, present := 0 }

/-- The transfer stage at reset. -/
def Xfer.reset : Xfer :=
  { target := 0, before := 0, step := 0, frames := 0, failures := 0, retryAt := none, retryDir := 0, latchCode := 0, mirror := false
    stopped := false, ordered := none, drainTo := none, bleed := false, peaks := [], chanFault := false, ovStop := false, thermal := false, fenced := false }

/-- The field phases at reset. -/
def Phases.reset : Phases :=
  { thermal := 0, stopped := 0, attempts := 0, retryAt := none, ssTarget := 0, ssRef := 0, latchCode := 0, ovDiode := false, ssDiode := false
    limitFrames := [0, 0, 0, 0], gateWait := 0, entryFull := false, entryEnd := none, want := 1, allFour := false, vtb0 := 0
    gateTries := [0, 0, 0, 0], opened := 0, ton := [0, 0, 0, 0], ssEnd := none, lastPhase := 3, regulating := false
    revFloor := false
    windDown := false }

/-- The BATFET at reset. -/
def Batfet.reset : Batfet :=
  { ocpOpen := false, latched := false, retries := 0, retryAt := none, closedFrames := 0, thermal := false, entryOn := false
    pdissCap := none }

/-- The charger at reset: ROM default configuration, charging off (R456). -/
def Charger.reset : Charger :=
  { source := false, pin := 0, frame := none, fresh := false, cbufNom := 0, limits := none, profiles := List.replicate 8 none, neg := none, base := none
    found := false, removed := false, probe := false, sinkTest := false, missingSaid := false, absentAt := 0, pauseFrom := 0, hold := 0
    resume := none, fromAbsent := false, sbs := none, sbsFails := 0, sbsRetryAt := 0, sbsReads := [], sbsAskAt := 0, alarmSaid := false, lowZone := 2
    highZone := 2, runUp := 0, runDown := 0, runCv := 0, runWin := 0, runRech := 0, runTerm := 0, cvTime := 0
    preTime := 0, fastTime := 0, fastReal := 0, tsOpen := 0, tsShort := 0, blankTo := 0, hwStop := 0, removal := none, lampLevel := false, lampWait := none }

/-- One rail at reset. -/
def Rail.reset : Rail :=
  { disabled := false, ss := false, stopped := false, uvlo := false, attempts := 0, retryAt := none, ssEnd := none
    exempt := 0, disch := false, floorHeld := false, ov := false, ref := 0, refAt := 0, resume := none, slew := 0, tag := none, arrived := false, runOpen := false, runQuiet := 0, holdSaid := false, fold := false }

/-- The rails at reset. -/
def Rails.reset : Rails :=
  { rail := List.replicate 5 Rail.reset, vsel := [0, 0, 0], kaArmed := false, kaGap := none, kaStored := []
    kaFold := false, kaCarries := false, kaInvalid := false, gaps := 0, dips := 0, lowest := 65535 }

/-- The rail link at reset. -/
def RailLink.reset : RailLink :=
  { lost := false, grant := 0, immediate := none, events := [], sent := { code := 0, tag := 0, detail := 0 }, evt := false
    waiting := [], planTags := [], aptA := none, aptTag := none, crcFrame := 0 }

/-- The cable port at reset: sink terminations by hardware (R210). -/
def Cable.reset : Cable :=
  { window := false, riseLo := 0, riseHi := 0, fallLo := 0, fallHi := 0, winDue := none, capsDue := false
    srcSwitch := false, discharge := false, rp := false, ra := false, attachRole := 0, pdSeen := false, req := none, transit := false, swap := 0, hardResets := 0
    ocps := [], sinkOnly := false, sinkOnlyDetach := false, eprMiss := 0, discTries := 0, fsTries := 0, fsDrive := false
    frsSent := false, frsRx := false, asked := false, ended := false, granted := false, target := 0, qbat := 0
    qvalid := false, resState := 3, ires := [], tickPulses := 0, swapReset := false, sentI5 := (0, 0), rawI5 := 0, freeI5 := 0 }

/-- The mode functions at reset: START, with nothing stored in NOR (R456). -/
def Modes.reset : Modes :=
  { pwrFilt := false, hostPwr := 0, shipNReady := true, shipByPad := false, kaStep := 0, kaFrames := 0, wakeHold := 0
    shipAsk := false, shipCell := false, faonOn := true, haonOn := true
    challenge := none, nonces := 0, failFrns := [], lockUntil := 0, lockTai := none, svcNext := 0, svcCause := 0, svcKey := []
    svcEnd := none, svcIdle := 0, keySlot := none, copyA := [], copyB := [], staged := [], otherDigest := 0
    cfgImage := none, starting := true, startKind := 0, kaRead := false, halted := false, downKnown := false
    downTai := 0, downSub := 0, lastFrn := 0, downShip := false, wakeReq := false, dirAsked := 0, dirOff := false, revHeld := false, swapDue := false
    resetEngTest := false }

/-- A slice with nominal background calibration. -/
def Slice.reset : Slice :=
  { offset := 0, gain := 0, weights := [], calAt := none, fails := 0, recover := 0, ovrBank := 0, ovrEnd := none }

/-- The measurement subsystem at reset: nominal constants (R263). -/
def Adc.reset : Adc :=
  { slices := List.replicate 5 Slice.reset, spareReady := false, rotAt := 0, due := [], queue := [], inj := [], refAt := none, seqRun := false
    fgDone := false, fgApply := none, fgConst := List.replicate 13 (0, 0), fgTemp := 0, refmonRef := 0, rng := 0
    rngStale := 0, refMon := false, refQuiet := 0, ovrRuns := [], lateRun := none, skipRun := none, copyA := []
    copyB := [], staged := [], means := [], inUse := [], applyCopy := none, lastCert := [], lastSeq := 0, degradedBist := false }

/-- The journal at reset: nothing accepted yet (R277), every block erased. -/
def Jrn.reset : Jrn :=
  { staged := [], closed := [], openFrames := 0, chain := 0, headChain := 0, hashNext := 0, sealTries := 0, psn := 0
    block := none, ringBlock := none, blocks := [], waiting := false, critSaid := false, shortSaid := false
    onlyCrit := [], unreadable := [], kaSecs := 0, badBlocks := [], dirBlock := 0, unreadSince := false, powerUp := none, seconds := [], kaBelow := false
    refused := false, source := false, full := false, faults := 0, frzSlots := 0, refSlots := 0, tpack := none
    rtcRem := 0, slew := 0, sinceKind := 0, sinceFrn := 0, sinceTai := 0, sinceSub := 0, sinceJsn := 0, rateAt := 0
    bkpSaid := false, scrubs := [], scanned := false }

/-- The ticket table at reset. -/
def Tickets.reset : Tickets :=
  { table := [], orders := List.replicate 22 0, waits := [], fullRun := none, stopped := false }

/-- The fault collector at reset. -/
def Faults.reset : Faults :=
  { input := [], inputAt := [], hostAt := [], hostBuf := [], hist := [], trackers := [], overrides := [], fences := [], recoveries := [], parts := []
    histRead := false, latchFn := false }

/-- The twin function at reset. -/
def Twin.reset : Twin :=
  { low := false, standby := false, mark := false, resigned := false, claimAt := none, waitDet := false, txSeq := 0, rxSeq := none
    rxAhead := [], out := [], hbLost := false, pState := 0, pMode := 0, pAllow := 0, pMirror := 0, reserved := []
    fwdNext := 0, forwarded := [], ring := [], ringRun := false, resyncAt := none, resyncNext := none, resyncSent := 0
    barred := false, takeover := none, claimJsn := 0, leadPos := 0, resignWait := false, crcFrame := 0, timeAt := 0 }

/-- One end of the Tabien link at reset. -/
def LinkEnd.reset : LinkEnd :=
  { txNext := 0, rxNext := 0, waiting := [], queue := [], resends := 0, unacked := 0, epoch := 0, crcFrame := 0
    inbox := [], rxLost := true, ackSent := 0, upSent := [] }

/-- The host interface at reset. -/
def HostIf.reset : HostIf :=
  { h := LinkEnd.reset, f := LinkEnd.reset, mbx := { places := [], results := [] }
    snap := { image := [], frn := 0, chunks := [], us := 0, stale := false }
    drain := { buffer := [], tail := [], openReq := none, fieldReq := none, out := [], fenced := false }
    work := [], cache := [], n7 := 0, alert := false, hReady := false, pinLow := false, busy := false, eventFn := false
    fieldAsleep := false }

/-- A watchdog whose start timer runs (R477). -/
def Wdg.reset : Wdg :=
  { armedFrn := 0, live := 0, refused := false, tried := false, suspended := false, missed := List.replicate 9 0
    period := 0, openSlot := 0, excuse := 0, starting := true, frames := 0, paused := false
    window := false, served := false, late := false }

/-- An image of which nothing is kept. -/
def ImageInfo.reset : ImageInfo :=
  { version := 0, bundle := 0, length := 0, msgVer := 0, msgMin := 0, msgMax := 0, stateVer := 0, stateMin := 0
    stateMax := 0, keyId := [], digest := [] }

/-- The slots as they leave the factory: slot A of each engine ACTIVE, slot B EMPTY (R499). -/
def slotsAtReset : List Slot :=
  (List.range 24).map fun i =>
    { gen := if i % 2 = 0 then 1 else 0, state := if i % 2 = 0 then 4 else 0, info := ImageInfo.reset, bytes := [] }

/-- The update function at reset. -/
def Update.reset : Update :=
  { slots := slotsAtReset, chunk := [], chunkSession := 0, session := none, sessions := 0, hand := none, prob := none, probDue := none
    note := none, hostFrost := false }

/-- The self-test as the memories are powered up (R485, R486): every macro waits for it. No record has been burned. -/
def Bist.reset : Bist :=
  { soft := [], hsoft := [], burn := false, hburn := false, passed := 0, due := List.range 26, hdue := List.range 7
    fuses := [], hfuses := [] }

/-- The hardware right after its first power-up. -/
def Hw.reset : Hw :=
  { regs := [], arch := Arch.reset, seq := Seq.reset, intake := Intake.reset, xfer := Xfer.reset, ph := Phases.reset
    bat := Batfet.reset, chg := Charger.reset, rails := Rails.reset, rl := RailLink.reset, cable := Cable.reset
    flt := Faults.reset, host := HostIf.reset, modes := Modes.reset, adc := Adc.reset, jrn := Jrn.reset
    tkt := Tickets.reset, twin := Twin.reset, hp := { pointer := 0, readBytes := [], wakeWait := false }
    bus := { ops := [], clearDue := true, clearTries := 0, stuckBits := 0, vioLow := false, hvioLow := false }
    wdg := Wdg.reset, hwdg := Wdg.reset, bist := Bist.reset
    upd := Update.reset, lb := { due := false, hostRun := false, frames := 0, hostFrames := 0, armed := false, testHigh := 0 }, sub := []
    freeCtr := 0 }

/-- The machine right after reset: no command waits. -/
def State.reset : State := { hw := Hw.reset, pending := [] }

end Sys2Proof.Machine
end

