-- ==== Sys2Proof/Machine/RegMap.lean ====
section
/-! DEFINITION. The register fields of the 64 KiB pointer space, one definition per field, written from the
register tables of spec/ (R74, R106, R135, R170, R205, R241, R270, R310, R343, R374, R399, R400, R429 to R432, R471,
R496, R497, R523, R536, R537): address, least bit, width, access code (R9), reset value, and the Survives column (R11).
An array of registers is a function of its index. "cfg" fields carry the value of the ROM default configuration
(R456); what R456 does not state is a DESIGN CHOICE of notes/assumptions/3.md. -/

namespace Sys2Proof.Machine.Reg

/-! Chapter 02. -/
def FRM_STATUS_SRC : Field := ⟨0x1100, 0, 3, .ro, 0, .faon⟩
def FRM_STATUS_STATE : Field := ⟨0x1100, 4, 2, .ro, 3, .faon⟩
def FRM_STATUS_PLAN : Field := ⟨0x1100, 8, 2, .ro, 0, .faon⟩
def FRM_STATUS_OVR : Field := ⟨0x1100, 10, 1, .ro, 0, .etk⟩
def FRM_STATUS_FRZ : Field := ⟨0x1100, 11, 1, .ro, 0, .live⟩
def FRM_STATUS_APT : Field := ⟨0x1100, 12, 1, .ro, 0, .live⟩
def FRM_STATUS_REFUSING : Field := ⟨0x1100, 13, 1, .ro, 0, .faon⟩
def FRM_STATUS_LOSS : Field := ⟨0x1100, 16, 1, .w1c, 0, .faon⟩
def FRM_FRN_FRN : Field := ⟨0x1104, 0, 32, .ro, 0, .faon⟩
def FRM_WRAP_WRAP : Field := ⟨0x1108, 0, 16, .ro, 0, .faon⟩
def FRM_PERIOD_PERIOD : Field := ⟨0x110C, 0, 24, .rws, 2000000, .faon⟩
def FRM_LEN_LAST : Field := ⟨0x1110, 0, 24, .ro, 0, .live⟩
def FRM_SRC_CFG_PRI : Field := ⟨0x1114, 0, 15, .rws, 32767, .faon⟩
def FRM_SRC_CFG_LINE_MULT : Field := ⟨0x1114, 16, 3, .rws, 1, .faon⟩
def FRM_SRC_CFG_EXT_POL : Field := ⟨0x1114, 20, 1, .rws, 0, .faon⟩
def FRM_PHASE_OFFSET : Field := ⟨0x1118, 0, 24, .rws, 0, .faon⟩
def FRM_APT_CFG_LIMIT : Field := ⟨0x111C, 0, 9, .rws, 500, .faon⟩
def FRM_APT_CFG_EN : Field := ⟨0x111C, 12, 1, .rws, 0, .faon⟩
def FRM_APT_EFF_EFF : Field := ⟨0x1120, 0, 13, .ro, 0, .live⟩
def FRM_REFUSE_COUNT : Field := ⟨0x1124, 0, 16, .rc, 0, .faon⟩
def FRM_REFUSE_LAST_REASON : Field := ⟨0x1124, 16, 4, .ro, 0, .faon⟩
def FRM_MAP_MAP (i : Nat) : Field := ⟨(0x1130 + 4 * i), 0, 32, .rws, 0, .faon⟩
def FRM_PLANPOL_POL (i : Nat) : Field := ⟨(0x11B0 + 4 * i), 0, 6, .rws, 0, .faon⟩
def FRM_PLANPOL_SBQ (i : Nat) : Field := ⟨(0x11B0 + 4 * i), 8, 1, .rws, 0, .faon⟩
def FRM_PLANPOL_SEQ (i : Nat) : Field := ⟨(0x11B0 + 4 * i), 12, 2, .rws, 0, .faon⟩
def FRM_BUD_BUDGET (i : Nat) : Field := ⟨(0x11C0 + 4 * i), 0, 8, .rws, (match i with | 0 => 128 | 4 => 96 | 5 => 160 | 6 => 160 | 7 => 96 | _ => 64), .faon⟩
def FRM_BUD_USED_LAST (i : Nat) : Field := ⟨(0x11C0 + 4 * i), 8, 8, .ro, 0, .live⟩
def FRM_BUD_OVERRUNS (i : Nat) : Field := ⟨(0x11C0 + 4 * i), 24, 8, .rc, 0, .faon⟩
def FRM_FRZ_MAX_MAX : Field := ⟨0x11E4, 0, 13, .rc, 0, .faon⟩
/-! Chapter 03. -/
def INTAKE_STATUS_ACTIVE : Field := ⟨0x0200, 0, 2, .ro, 0, .live⟩
def INTAKE_STATUS_VBUS_QUAL : Field := ⟨0x0200, 2, 1, .ro, 0, .live⟩
def INTAKE_STATUS_DCIN_QUAL : Field := ⟨0x0200, 3, 1, .ro, 0, .live⟩
def INTAKE_STATUS_LIMITING : Field := ⟨0x0200, 4, 1, .ro, 0, .live⟩
def INTAKE_STATUS_PDISS_LIMIT : Field := ⟨0x0200, 5, 1, .ro, 0, .live⟩
def INTAKE_STATUS_RAMP : Field := ⟨0x0200, 6, 1, .ro, 0, .live⟩
def INTAKE_STATUS_HAUX : Field := ⟨0x0200, 8, 1, .ro, 0, .live⟩
def INTAKE_STATUS_SRC_CHANGE : Field := ⟨0x0200, 16, 1, .w1c, 0, .all⟩
def INTAKE_CFG_PRI : Field := ⟨0x0204, 0, 1, .rws, 0, .all⟩
def INTAKE_CFG_WIN : Field := ⟨0x0204, 4, 4, .rws, 5, .all⟩
def INTAKE_CFG_HEADROOM : Field := ⟨0x0204, 8, 8, .rws, 10, .all⟩
def INTAKE_LIM_CFG_LIM : Field := ⟨0x0208, 0, 10, .rws, 50, .all⟩
def INTAKE_LIM_HOST_LIM : Field := ⟨0x020C, 0, 10, .rw, 600, .all⟩
def INTAKE_LIM_EFF_LIM : Field := ⟨0x0210, 0, 10, .ro, 50, .live⟩
def INTAKE_LIM_EFF_CAUSE : Field := ⟨0x0210, 12, 3, .ro, 4, .live⟩
def INTAKE_MON_V_VBUS : Field := ⟨0x0214, 0, 16, .ro, 0, .live⟩
def INTAKE_MON_V_DCIN : Field := ⟨0x0214, 16, 16, .ro, 0, .live⟩
def INTAKE_MON_CBUF_VCBUF : Field := ⟨0x0218, 0, 16, .ro, 0, .live⟩
def INTAKE_MON_CBUF_IIN : Field := ⟨0x0218, 16, 16, .ro, 0, .live⟩
def INTAKE_MON_PD_PDISS : Field := ⟨0x021C, 0, 16, .ro, 0, .live⟩
def INTAKE_MON_PD_TEMP : Field := ⟨0x021C, 16, 8, .ro, 0, .live⟩
def INTAKE_CBUF_C_CEFF : Field := ⟨0x0220, 0, 16, .ro, 0, .all⟩
def INTAKE_CBUF_C_VALID : Field := ⟨0x0220, 16, 1, .ro, 0, .all⟩
def INTAKE_EVENTS_SWITCHOVERS : Field := ⟨0x0224, 0, 8, .rc, 0, .all⟩
def INTAKE_EVENTS_REV_BLOCKS : Field := ⟨0x0224, 8, 8, .rc, 0, .all⟩
def INTAKE_EVENTS_PDISS_EVENTS : Field := ⟨0x0224, 16, 8, .rc, 0, .all⟩
def XFER_STATUS_DIR : Field := ⟨0x0280, 0, 2, .ro, 0, .live⟩
def XFER_STATUS_QUIET : Field := ⟨0x0280, 2, 1, .ro, 0, .live⟩
def XFER_STATUS_FLOOR : Field := ⟨0x0280, 3, 1, .ro, 0, .live⟩
def XFER_STATUS_PLIM : Field := ⟨0x0280, 4, 1, .ro, 0, .live⟩
def XFER_STATUS_DBS : Field := ⟨0x0280, 5, 1, .ro, 0, .live⟩
def XFER_STATUS_LATCHED : Field := ⟨0x0280, 6, 1, .ro, 0, .all⟩
def XFER_STATUS_TEMP : Field := ⟨0x0280, 8, 8, .ro, 0, .live⟩
def XFER_POWER_P : Field := ⟨0x0284, 0, 16, .ro, 0, .live⟩
def XFER_LIMIT_FWD_LIM : Field := ⟨0x0288, 0, 8, .rws, 180, .all⟩
def XFER_LIMIT_REV_LIM : Field := ⟨0x0288, 8, 8, .rws, 100, .all⟩
def XFER_STATS_DIR_CHANGES : Field := ⟨0x028C, 0, 16, .rc, 0, .all⟩
def XFER_CMD_CLR_LATCH : Field := ⟨0x0290, 0, 1, .rws, 0, .live⟩
/-! Chapter 04. -/
def PH_STATUS_CMODE : Field := ⟨0x1200, 0, 2, .ro, 0, .live⟩
def PH_STATUS_BAND : Field := ⟨0x1200, 2, 1, .ro, 0, .live⟩
def PH_STATUS_REV : Field := ⟨0x1200, 3, 1, .ro, 0, .live⟩
def PH_STATUS_FROZEN : Field := ⟨0x1200, 4, 1, .ro, 0, .live⟩
def PH_STATUS_ENTRY : Field := ⟨0x1200, 5, 1, .ro, 0, .live⟩
def PH_STATUS_SS : Field := ⟨0x1200, 6, 1, .ro, 0, .live⟩
def PH_STATUS_GOV : Field := ⟨0x1200, 8, 3, .ro, 0, .live⟩
def PH_STATUS_ACTIVE : Field := ⟨0x1200, 12, 4, .ro, 0, .live⟩
def PH_STATUS_FOLDBACK : Field := ⟨0x1200, 16, 4, .ro, 0, .live⟩
def PH_STATUS_FENCED : Field := ⟨0x1200, 20, 4, .ro, 0, .faon⟩
def PH_STATUS_LATCHED : Field := ⟨0x1200, 24, 4, .ro, 0, .faon⟩
def PH_CFG_FSW : Field := ⟨0x1204, 0, 11, .rws, 600, .faon⟩
def PH_CFG_SS_RATE : Field := ⟨0x1204, 12, 3, .rws, 2, .faon⟩
def PH_CFG_ILIM : Field := ⟨0x1204, 16, 6, .rws, 32, .faon⟩
def PH_CFG_SHED_EN : Field := ⟨0x1204, 24, 1, .rws, 0, .faon⟩
def PH_CFG_BAL_EN : Field := ⟨0x1204, 25, 1, .rws, 0, .faon⟩
def PH_TRIM_TRIM (i : Nat) : Field := ⟨(0x1210 + 4 * i), 0, 6, .ro, 0, .faon⟩
def PH_TRIM_ENTRY (i : Nat) : Field := ⟨(0x1210 + 4 * i), 8, 8, .ro, 32, .faon⟩
def PH_TRIM_AT_LIMIT (i : Nat) : Field := ⟨(0x1210 + 4 * i), 16, 1, .ro, 0, .faon⟩
def PH_CURR_I : Field := ⟨0x1220, 0, 32, .ro, 0, .live⟩
def PH_VOLT_VTB : Field := ⟨0x1224, 0, 16, .ro, 0, .live⟩
def PH_VOLT_VSYS : Field := ⟨0x1224, 16, 16, .ro, 0, .live⟩
def VSYS_SET_SET : Field := ⟨0x1230, 0, 12, .ro, 500, .faon⟩
def VSYS_MIN_MIN : Field := ⟨0x1234, 0, 12, .ro, 500, .faon⟩
def REV_SET_SET : Field := ⟨0x1238, 0, 12, .ro, 370, .faon⟩
def BATFET_STATUS_STATE : Field := ⟨0x1240, 0, 3, .ro, 0, .live⟩
def BATFET_STATUS_TEMP : Field := ⟨0x1240, 8, 8, .ro, 0, .live⟩
def BATFET_STATUS_IBAT : Field := ⟨0x1240, 16, 16, .ro, 0, .live⟩
def PH_EVENTS_SS_RETRIES : Field := ⟨0x1244, 0, 8, .rc, 0, .faon⟩
def PH_EVENTS_FOLDBACK : Field := ⟨0x1244, 8, 8, .rc, 0, .faon⟩
def PH_EVENTS_QUIET_LATE : Field := ⟨0x1244, 16, 8, .rc, 0, .faon⟩
def PH_EVENTS_BATFET_OPENS : Field := ⟨0x1244, 24, 8, .rc, 0, .faon⟩
def PH_CTL_CLR_LATCH : Field := ⟨0x1248, 0, 1, .rws, 0, .live⟩
/-! Chapter 05. -/
def CHG_STATUS_STATE : Field := ⟨0x1300, 0, 4, .ro, 0, .live⟩
def CHG_STATUS_WINDOW : Field := ⟨0x1300, 4, 3, .ro, 7, .live⟩
def CHG_STATUS_LIMITED : Field := ⟨0x1300, 7, 1, .ro, 0, .live⟩
def CHG_STATUS_REF_ZERO : Field := ⟨0x1300, 8, 1, .ro, 0, .live⟩
def CHG_STATUS_EN : Field := ⟨0x1300, 9, 1, .ro, 0, .live⟩
def CHG_STATUS_PRESENT : Field := ⟨0x1300, 10, 1, .ro, 0, .live⟩
def CHG_STATUS_FAULT_LATCH : Field := ⟨0x1300, 11, 1, .ro, 0, .faon⟩
def CHG_STATUS_REMOVAL : Field := ⟨0x1300, 16, 1, .w1c, 0, .faon⟩
def CHG_MON_VBAT : Field := ⟨0x1304, 0, 16, .ro, 0, .live⟩
def CHG_MON_INET : Field := ⟨0x1304, 16, 16, .ro, 0, .live⟩
def CHG_V_SET : Field := ⟨0x1308, 0, 12, .ro, 0, .faon⟩
def CHG_I_SET : Field := ⟨0x130C, 0, 9, .ro, 0, .faon⟩
def CHG_PROF_A_CHEM : Field := ⟨0x1310, 0, 1, .ro, 0, .faon⟩
def CHG_PROF_A_CELLS : Field := ⟨0x1310, 1, 4, .ro, 0, .faon⟩
def CHG_PROF_A_SRC : Field := ⟨0x1310, 5, 3, .ro, 0, .faon⟩
def CHG_PROF_A_BAND : Field := ⟨0x1310, 8, 3, .ro, 0, .faon⟩
def CHG_PROF_A_VCELL : Field := ⟨0x1310, 16, 9, .ro, 0, .faon⟩
def CHG_PROF_I_ICHG : Field := ⟨0x1314, 0, 9, .ro, 0, .faon⟩
def CHG_PROF_I_IPEAK : Field := ⟨0x1314, 16, 9, .ro, 0, .faon⟩
def CHG_PROF_P_IPRE : Field := ⟨0x1318, 0, 6, .ro, 0, .faon⟩
def CHG_PROF_P_PRE_TH : Field := ⟨0x1318, 8, 9, .ro, 0, .faon⟩
def CHG_PROF_P_TERM : Field := ⟨0x1318, 20, 3, .ro, 1, .faon⟩
def CHG_PROF_P_RECH : Field := ⟨0x1318, 24, 2, .ro, 1, .faon⟩
def CHG_TIMER_PRE : Field := ⟨0x131C, 0, 16, .ro, 0, .faon⟩
def CHG_TIMER_FAST : Field := ⟨0x131C, 16, 16, .ro, 0, .faon⟩
def CHG_TEMP_TS : Field := ⟨0x1320, 0, 32, .ro, 0, .live⟩
def CHG_CFG_RSNS : Field := ⟨0x1324, 0, 1, .rws, 0, .faon⟩
def CHG_CFG_DET_EN : Field := ⟨0x1324, 1, 1, .rws, 0, .faon⟩
def CHG_CFG_ID_REQ : Field := ⟨0x1324, 2, 1, .rws, 0, .faon⟩
def CHG_CFG_SBS_EN : Field := ⟨0x1324, 3, 1, .rws, 0, .faon⟩
def CHG_CFG_SBS_PEAK : Field := ⟨0x1324, 4, 1, .rws, 0, .faon⟩
def CHG_CFG_SBS_TEMP : Field := ⟨0x1324, 5, 1, .rws, 0, .faon⟩
def CHG_CFG_PEC : Field := ⟨0x1324, 6, 1, .rws, 0, .faon⟩
def CHG_CFG_TS : Field := ⟨0x1324, 8, 8, .rws, 0, .faon⟩
def CHG_CFG_PRE_TIMER : Field := ⟨0x1324, 16, 5, .rws, 4, .faon⟩
def CHG_CFG_FAST_TIMER : Field := ⟨0x1324, 24, 5, .rws, 10, .faon⟩
def CHG_WIN_T : Field := ⟨0x1328, 0, 32, .rws, 1009584640, .faon⟩
def CHG_ADJ_COOL_FRAC : Field := ⟨0x132C, 0, 2, .rws, 1, .faon⟩
def CHG_ADJ_WARM_DROP : Field := ⟨0x132C, 4, 3, .rws, 2, .faon⟩
def CHG_ADJ_TCV_MIN : Field := ⟨0x132C, 8, 6, .rws, 10, .faon⟩
def CHG_CTL_SUSPEND : Field := ⟨0x1330, 0, 1, .rw, 0, .faon⟩
def CHG_CTL_I_HOST : Field := ⟨0x1330, 16, 9, .rw, 320, .faon⟩
def CHG_CTL_CLR_FAULT : Field := ⟨0x1330, 31, 1, .rws, 0, .live⟩
def PACK_SBS_ICHG_REQ : Field := ⟨0x1334, 0, 16, .ro, 0, .live⟩
def PACK_SBS_STATUS : Field := ⟨0x1334, 16, 16, .ro, 0, .live⟩
def PACK_SBS_V_VCHG_REQ : Field := ⟨0x1338, 0, 16, .ro, 0, .live⟩
def PACK_SBS_V_VOLT : Field := ⟨0x1338, 16, 16, .ro, 0, .live⟩
def STAT_CFG_MODE : Field := ⟨0x1340, 0, 3, .rws, 0, .faon⟩
def STAT_CFG_FN_SEV : Field := ⟨0x1340, 4, 2, .rws, 2, .faon⟩
def STAT_MASK_MASK : Field := ⟨0x1344, 0, 24, .rws, 0, .faon⟩
def STAT_LATCH_EVENTS : Field := ⟨0x1348, 0, 8, .rc, 0, .faon⟩
def STAT_LATCH_FN : Field := ⟨0x1348, 8, 1, .rc, 0, .faon⟩
def STAT_LATCH_PADS : Field := ⟨0x1348, 12, 3, .ro, 0, .live⟩
/-! Chapter 06. -/
def RAIL_STATUS_POL_ON : Field := ⟨0x1400, 0, 3, .ro, 0, .live⟩
def RAIL_STATUS_POL_REG : Field := ⟨0x1400, 4, 3, .ro, 0, .live⟩
def RAIL_STATUS_POL_SLEW : Field := ⟨0x1400, 8, 3, .ro, 0, .live⟩
def RAIL_STATUS_POL_OVR : Field := ⟨0x1400, 12, 3, .ro, 0, .ewpt⟩
def RAIL_STATUS_POL_LATCHED : Field := ⟨0x1400, 16, 3, .ro, 0, .faon⟩
def RAIL_STATUS_HOLD_ACT : Field := ⟨0x1400, 20, 3, .ro, 0, .live⟩
def RAIL_STATUS_QR_ON : Field := ⟨0x1400, 24, 2, .ro, 0, .live⟩
def RAIL_STATUS_QR_OVR : Field := ⟨0x1400, 26, 2, .ro, 0, .ewpt⟩
def RAIL_STATUS_KA_ON : Field := ⟨0x1400, 28, 1, .ro, 0, .faon⟩
def RAIL_STATUS_KA_LOW : Field := ⟨0x1400, 29, 1, .ro, 0, .live⟩
def RAIL_STATUS_KA_STBY : Field := ⟨0x1400, 30, 1, .ro, 0, .live⟩
def POL_SET_SET (i : Nat) : Field := ⟨(0x1404 + 4 * i), 0, 11, .ro, 0, .faon⟩
def QR_SET_SET (i : Nat) : Field := ⟨(0x1410 + 4 * i), 0, 11, .ro, 0, .faon⟩
def KA_SET_CODE : Field := ⟨0x1418, 0, 2, .ro, 0, .faon⟩
def KA_SET_EN : Field := ⟨0x1418, 4, 1, .ro, 0, .faon⟩
def KA_SET_TWIN : Field := ⟨0x1418, 5, 1, .ro, 0, .faon⟩
def POL_CFG_FSW (i : Nat) : Field := ⟨(0x1420 + 4 * i), 0, 11, .rws, 1000, .faon⟩
def POL_CFG_ILIM (i : Nat) : Field := ⟨(0x1420 + 4 * i), 12, 5, .rws, 18, .faon⟩
def POL_CFG_SLEW (i : Nat) : Field := ⟨(0x1420 + 4 * i), 18, 2, .rws, 0, .faon⟩
def POL_CFG_DISCH (i : Nat) : Field := ⟨(0x1420 + 4 * i), 20, 1, .rws, 0, .faon⟩
def POL_CFG_FLOOR (i : Nat) : Field := ⟨(0x1420 + 4 * i), 22, 2, .rws, 1, .faon⟩
def POL_VTAB_ENTRY_LO (i : Nat) : Field := ⟨(0x1430 + 4 * i), 0, 11, .rws, 0, .faon⟩
def POL_VTAB_ENTRY_HI (i : Nat) : Field := ⟨(0x1430 + 4 * i), 16, 11, .rws, 0, .faon⟩
def QR_CFG_EN : Field := ⟨0x1450, 0, 2, .rws, 0, .faon⟩
def QR_CFG_KA_QR : Field := ⟨0x1450, 2, 2, .rws, 0, .faon⟩
def RL_STATUS_SPEED : Field := ⟨0x1454, 0, 2, .ro, 0, .live⟩
def RL_STATUS_SESSION : Field := ⟨0x1454, 2, 1, .ro, 0, .live⟩
def RL_STATUS_EVQ : Field := ⟨0x1454, 3, 5, .ro, 0, .live⟩
def RL_STATUS_CRC_ERRS : Field := ⟨0x1454, 8, 8, .rc, 0, .faon⟩
def RL_STATUS_FRAME_ERRS : Field := ⟨0x1454, 16, 8, .rc, 0, .faon⟩
def RL_STATUS_REJECTS : Field := ⟨0x1454, 24, 8, .rc, 0, .faon⟩
def RL_CFG_RL_MAX : Field := ⟨0x1458, 0, 2, .rws, 0, .faon⟩
def RL_CFG_RL_EN : Field := ⟨0x1458, 4, 1, .rws, 0, .faon⟩
def RL_CFG_TABLE_WR : Field := ⟨0x1458, 5, 1, .rws, 0, .faon⟩
def KA_GAP_COUNT : Field := ⟨0x145C, 0, 8, .rc, 0, .faon⟩
def KA_GAP_SHORT : Field := ⟨0x145C, 8, 8, .rc, 0, .faon⟩
def KA_GAP_LAST_MS : Field := ⟨0x145C, 16, 16, .ro, 0, .faon⟩
def KA_MIN_MIN : Field := ⟨0x1460, 0, 16, .rc, 65535, .faon⟩
def RAIL_MON_A_PAIR : Field := ⟨0x1464, 0, 32, .ro, 0, .live⟩
def RAIL_MON_B_PAIR : Field := ⟨0x1468, 0, 32, .ro, 0, .live⟩
def RAIL_MON_C_PAIR : Field := ⟨0x146C, 0, 32, .ro, 0, .live⟩
def RAIL_CTL_CLR_LATCH : Field := ⟨0x1470, 0, 1, .rws, 0, .live⟩
/-! Chapter 07. -/
def CBL_STATUS_STATE : Field := ⟨0x0400, 0, 3, .ro, 0, .live⟩
def CBL_STATUS_ORIENT : Field := ⟨0x0400, 3, 1, .ro, 0, .live⟩
def CBL_STATUS_EXPLICIT : Field := ⟨0x0400, 4, 1, .ro, 0, .live⟩
def CBL_STATUS_EPR : Field := ⟨0x0400, 5, 1, .ro, 0, .live⟩
def CBL_STATUS_VCONN : Field := ⟨0x0400, 6, 1, .ro, 0, .live⟩
def CBL_STATUS_DFP : Field := ⟨0x0400, 7, 1, .ro, 0, .live⟩
def CBL_STATUS_FS_MODE : Field := ⟨0x0400, 8, 1, .ro, 0, .live⟩
def CBL_STATUS_FRS_ARMED : Field := ⟨0x0400, 9, 1, .ro, 0, .live⟩
def CBL_STATUS_SRC_PERMIT : Field := ⟨0x0400, 10, 1, .ro, 0, .live⟩
def CBL_STATUS_MISMATCH : Field := ⟨0x0400, 11, 1, .ro, 0, .live⟩
def CBL_STATUS_RP : Field := ⟨0x0400, 12, 2, .ro, 0, .live⟩
def CBL_STATUS_ATTACH_CHG : Field := ⟨0x0400, 16, 1, .w1c, 0, .all⟩
def CBL_STATUS_CONTRACT_CHG : Field := ⟨0x0400, 17, 1, .w1c, 0, .all⟩
def CBL_STATUS_HARD_RESET : Field := ⟨0x0400, 18, 1, .w1c, 0, .all⟩
def CBL_STATUS_DEBUG_DENIED : Field := ⟨0x0400, 19, 1, .w1c, 0, .all⟩
def CBL_CONTRACT_VOLT : Field := ⟨0x0404, 0, 13, .ro, 0, .all⟩
def CBL_CONTRACT_CURR : Field := ⟨0x0404, 13, 10, .ro, 0, .all⟩
def CBL_CONTRACT_TYPE : Field := ⟨0x0404, 23, 3, .ro, 0, .all⟩
def CBL_CONTRACT_ROLE : Field := ⟨0x0404, 26, 2, .ro, 0, .all⟩
def CBL_CONTRACT_POS : Field := ⟨0x0404, 28, 4, .ro, 0, .all⟩
def CBL_PARTNER_REV : Field := ⟨0x0408, 0, 2, .ro, 0, .live⟩
def CBL_PARTNER_DRP : Field := ⟨0x0408, 2, 1, .ro, 0, .live⟩
def CBL_PARTNER_EPR_CAP : Field := ⟨0x0408, 3, 1, .ro, 0, .live⟩
def CBL_PARTNER_FRS_REQ : Field := ⟨0x0408, 4, 2, .ro, 0, .live⟩
def CBL_CABLE_EMARKED : Field := ⟨0x040C, 0, 1, .ro, 0, .live⟩
def CBL_CABLE_ICAP : Field := ⟨0x040C, 1, 2, .ro, 0, .live⟩
def CBL_CABLE_VMAX : Field := ⟨0x040C, 3, 2, .ro, 0, .live⟩
def CBL_CABLE_NO_SBU : Field := ⟨0x040C, 5, 1, .ro, 0, .live⟩
def CBL_CFG_ROLE : Field := ⟨0x0410, 0, 2, .rws, 0, .all⟩
def CBL_CFG_REV_EN : Field := ⟨0x0410, 2, 1, .rws, 0, .all⟩
def CBL_CFG_FRS_RX_EN : Field := ⟨0x0410, 3, 1, .rws, 0, .all⟩
def CBL_CFG_FRS_TX_EN : Field := ⟨0x0410, 4, 1, .rws, 0, .all⟩
def CBL_CFG_VCONN_SWAP : Field := ⟨0x0410, 5, 1, .rws, 0, .all⟩
def CBL_CFG_DR_SWAP_ACC : Field := ⟨0x0410, 6, 1, .rws, 0, .all⟩
def CBL_CFG_FS_EN : Field := ⟨0x0410, 7, 1, .rws, 0, .all⟩
def CBL_CFG_DCIN_ENDS_SRC : Field := ⟨0x0410, 8, 1, .rws, 0, .all⟩
def CBL_SNK_CFG_VMAX : Field := ⟨0x0414, 0, 10, .rws, 50, .all⟩
def CBL_SNK_CFG_PPS_EN : Field := ⟨0x0414, 10, 1, .rws, 0, .all⟩
def CBL_SNK_CFG_EPR_EN : Field := ⟨0x0414, 11, 1, .rws, 0, .all⟩
def CBL_SNK_CFG_AVS_EN : Field := ⟨0x0414, 12, 1, .rws, 0, .all⟩
def CBL_SNK_CFG_PMIN : Field := ⟨0x0414, 16, 8, .rws, 0, .all⟩
def CBL_SRC_CFG_QUIET_FIRST : Field := ⟨0x0418, 0, 1, .rws, 0, .all⟩
def CBL_SRC_CFG_PPS_SRC_EN : Field := ⟨0x0418, 1, 1, .rws, 0, .all⟩
def CBL_SRC_CFG_IBAT_MAX : Field := ⟨0x0418, 2, 4, .rws, 4, .all⟩
def CBL_SRC_CFG_FRS_REQ : Field := ⟨0x0418, 6, 2, .rws, 0, .all⟩
def CBL_RES_CFG_CAP : Field := ⟨0x041C, 0, 16, .rws, 0, .all⟩
def CBL_RES_CFG_HOURS : Field := ⟨0x041C, 16, 11, .rws, 1, .all⟩
def CBL_OFFER_A_I5 : Field := ⟨0x0420, 0, 9, .ro, 0, .live⟩
def CBL_OFFER_A_I9 : Field := ⟨0x0420, 16, 9, .ro, 0, .live⟩
def CBL_OFFER_B_I15 : Field := ⟨0x0424, 0, 9, .ro, 0, .live⟩
def CBL_OFFER_B_I20 : Field := ⟨0x0424, 16, 9, .ro, 0, .live⟩
def CBL_OFFER_C_IPPS : Field := ⟨0x0428, 0, 9, .ro, 0, .live⟩
def CBL_OFFER_C_CAUSE : Field := ⟨0x0428, 16, 2, .ro, 0, .live⟩
def CBL_OFFER_C_RES_STATE : Field := ⟨0x0428, 20, 2, .ro, 3, .live⟩
def CBL_OFFER_C_AGE : Field := ⟨0x0428, 24, 8, .ro, 255, .live⟩
def CBL_RESERVE_QBAT : Field := ⟨0x042C, 0, 16, .ro, 0, .live⟩
def CBL_RESERVE_QRES : Field := ⟨0x042C, 16, 16, .ro, 0, .live⟩
def CBL_FS_CFG_TICK : Field := ⟨0x0430, 0, 2, .rws, 0, .all⟩
def CBL_FS_CFG_QREQ_APT : Field := ⟨0x0430, 2, 1, .rws, 0, .all⟩
def CBL_FS_CFG_QREQ_DRIVE : Field := ⟨0x0430, 3, 1, .rws, 0, .all⟩
def CBL_EVENTS_SOFT_RESETS : Field := ⟨0x0434, 0, 8, .rc, 0, .all⟩
def CBL_EVENTS_HARD_RESETS : Field := ⟨0x0434, 8, 8, .rc, 0, .all⟩
def CBL_EVENTS_ERR_RECOV : Field := ⟨0x0434, 16, 8, .rc, 0, .all⟩
def CBL_EVENTS_SRC_OCP : Field := ⟨0x0434, 24, 8, .rc, 0, .all⟩
def CBL_CTL_PR_SWAP : Field := ⟨0x0438, 0, 1, .rw, 0, .live⟩
def CBL_CTL_EXIT_SRC : Field := ⟨0x0438, 1, 1, .rw, 0, .live⟩
def CBL_CTL_FS_ENTER : Field := ⟨0x0438, 2, 1, .rw, 0, .live⟩
def CBL_CTL_FS_EXIT : Field := ⟨0x0438, 3, 1, .rw, 0, .live⟩
/-! Chapter 08. -/
def ADC_STATUS_ACTIVE : Field := ⟨0x1500, 0, 5, .ro, 0, .live⟩
def ADC_STATUS_SPARE : Field := ⟨0x1500, 5, 3, .ro, 7, .live⟩
def ADC_STATUS_FENCED : Field := ⟨0x1500, 8, 5, .ro, 0, .faon⟩
def ADC_STATUS_REF_ON : Field := ⟨0x1500, 13, 1, .ro, 0, .live⟩
def ADC_STATUS_REF_SETTLED : Field := ⟨0x1500, 14, 1, .ro, 0, .live⟩
def ADC_STATUS_FGCAL : Field := ⟨0x1500, 15, 1, .ro, 0, .live⟩
def ADC_STATUS_STALE : Field := ⟨0x1500, 16, 1, .ro, 0, .live⟩
def ADC_STATUS_DUE_PASSED : Field := ⟨0x1500, 17, 1, .ro, 0, .faon⟩
def ADC_STATUS_ROT_STOP : Field := ⟨0x1500, 18, 1, .ro, 0, .faon⟩
def ADC_CFG_AIN_RNG : Field := ⟨0x1504, 0, 4, .rws, 0, .faon⟩
def ADC_CFG_DUE_FLAG : Field := ⟨0x1504, 4, 1, .rws, 0, .faon⟩
def ADC_CFG_REFOUT_EN : Field := ⟨0x1504, 5, 1, .rws, 0, .faon⟩
def ADC_CFG_AUTO_FG : Field := ⟨0x1504, 6, 1, .rws, 0, .faon⟩
def ADC_CFG_CAL_SIGN_REQ : Field := ⟨0x1504, 7, 1, .rws, 0, .faon⟩
def ADC_CFG_FG_DT : Field := ⟨0x1504, 8, 4, .rws, 5, .faon⟩
def ADC_CTL_FGCAL : Field := ⟨0x1508, 0, 1, .rw, 0, .live⟩
def ADC_CTL_CLR_FENCE : Field := ⟨0x1508, 1, 1, .rws, 0, .live⟩
def ADC_Q_LEVEL : Field := ⟨0x150C, 0, 11, .ro, 0, .live⟩
def ADC_Q_HWM : Field := ⟨0x150C, 16, 11, .rc, 0, .faon⟩
def ADC_Q_FRN_FRN : Field := ⟨0x1510, 0, 32, .ro, 0, .live⟩
def ADC_EVENTS_OVR : Field := ⟨0x1514, 0, 8, .rc, 0, .faon⟩
def ADC_EVENTS_SKIPPED : Field := ⟨0x1514, 8, 8, .rc, 0, .faon⟩
def ADC_EVENTS_LATE : Field := ⟨0x1514, 16, 8, .rc, 0, .faon⟩
def ADC_EVENTS_DISCARDED : Field := ⟨0x1514, 24, 8, .rc, 0, .faon⟩
def ADC_CAL_AGE_AGE : Field := ⟨0x1518, 0, 30, .ro, 0x3FFFFFFF, .live⟩
def REFCHK_LAST_MEAN : Field := ⟨0x151C, 0, 32, .ro, 0, .faon⟩
def CAL_CERT_ID_ID (i : Nat) : Field := ⟨(0x1520 + 4 * i), 0, 32, .ro, 0, .all⟩
def CAL_DATE_DATE : Field := ⟨0x1540, 0, 48, .ro, 0, .all⟩
def CAL_DUE_DUE : Field := ⟨0x1548, 0, 48, .ro, 0, .all⟩
def CAL_REF_REF_TRUE : Field := ⟨0x1550, 0, 32, .ro, 0, .all⟩
def CAL_SEQ_SEQ : Field := ⟨0x1554, 0, 16, .ro, 0, .all⟩
def CAL_SEQ_SIGNED : Field := ⟨0x1554, 16, 1, .ro, 0, .all⟩
def CAL_SEQ_COPY : Field := ⟨0x1554, 17, 1, .ro, 0, .all⟩
def CAL_SEQ_NOMINAL : Field := ⟨0x1554, 18, 1, .ro, 0, .live⟩
def ADC_LAST_VALUE (i : Nat) : Field := ⟨(0x1600 + 4 * i), 0, 18, .ro, 0, .live⟩
def ADC_LAST_FLAGS (i : Nat) : Field := ⟨(0x1600 + 4 * i), 23, 5, .ro, 0, .live⟩
def ADC_SEQ_TAG (i : Nat) : Field := ⟨(0x1700 + 4 * i), 0, 6, .rws, 0, .faon⟩
def ADC_SEQ_SLOT (i : Nat) : Field := ⟨(0x1700 + 4 * i), 8, 8, .rws, 0, .faon⟩
def ADC_SEQ_AVG (i : Nat) : Field := ⟨(0x1700 + 4 * i), 16, 3, .rws, 0, .faon⟩
def ADC_SEQ_DIV (i : Nat) : Field := ⟨(0x1700 + 4 * i), 20, 3, .rws, 0, .faon⟩
def ADC_SEQ_HOST (i : Nat) : Field := ⟨(0x1700 + 4 * i), 24, 1, .rws, 0, .faon⟩
def ADC_SEQ_EN (i : Nat) : Field := ⟨(0x1700 + 4 * i), 31, 1, .rws, 0, .faon⟩
/-! Chapter 09. -/
def JRN_STATUS_READY : Field := ⟨0x1800, 0, 1, .ro, 0, .faon⟩
def JRN_STATUS_FULL : Field := ⟨0x1800, 1, 1, .ro, 0, .faon⟩
def JRN_STATUS_HOLDUP : Field := ⟨0x1800, 2, 1, .ro, 0, .live⟩
def JRN_STATUS_SEALING : Field := ⟨0x1800, 3, 1, .ro, 0, .live⟩
def JRN_STATUS_CHOLD_OK : Field := ⟨0x1800, 4, 1, .ro, 0, .live⟩
def JRN_STATUS_HOLD_BAT : Field := ⟨0x1800, 5, 1, .ro, 0, .live⟩
def JRN_STATUS_FULL_EVT : Field := ⟨0x1800, 16, 1, .w1c, 0, .faon⟩
def JRN_STATUS_MEDIA_EVT : Field := ⟨0x1800, 17, 1, .w1c, 0, .faon⟩
def JRN_NEXT_JSN : Field := ⟨0x1804, 0, 64, .ro, 0, .all⟩
def JRN_COMMIT_JSN : Field := ⟨0x180C, 0, 64, .ro, 0, .all⟩
def JRN_OLDEST_JSN : Field := ⟨0x1814, 0, 64, .ro, 0, .all⟩
def JRN_SEALED_EPOCH : Field := ⟨0x181C, 0, 32, .ro, 4294967295, .all⟩
def JRN_RELEASED_EPOCH : Field := ⟨0x1820, 0, 32, .ro, 4294967295, .all⟩
def JRN_STAGE_STAGED : Field := ⟨0x1824, 0, 22, .ro, 0, .ewpt⟩
def JRN_ALLOW_ALLOW : Field := ⟨0x1828, 0, 22, .ro, 0, .live⟩
def JRN_CHOLD_VCHOLD : Field := ⟨0x182C, 0, 16, .ro, 0, .live⟩
def JRN_CHOLD_CEFF : Field := ⟨0x182C, 16, 16, .ro, 0, .faon⟩
def JRN_BLOCKS_FREE : Field := ⟨0x1830, 0, 12, .ro, 4030, .live⟩
def JRN_BLOCKS_BAD : Field := ⟨0x1830, 12, 12, .ro, 0, .all⟩
def JRN_BLOCKS_RING : Field := ⟨0x1830, 24, 8, .ro, 0, .live⟩
def JRN_WEAR_MAX_PE : Field := ⟨0x1834, 0, 16, .ro, 0, .all⟩
def JRN_WEAR_MEAN_PE : Field := ⟨0x1834, 16, 16, .ro, 0, .all⟩
def JRN_EVENTS_PROG_FAIL : Field := ⟨0x1838, 0, 8, .rc, 0, .faon⟩
def JRN_EVENTS_ERASE_FAIL : Field := ⟨0x1838, 8, 8, .rc, 0, .faon⟩
def JRN_EVENTS_SCRUB : Field := ⟨0x1838, 16, 8, .rc, 0, .faon⟩
def JRN_EVENTS_UNCORR : Field := ⟨0x1838, 24, 8, .rc, 0, .faon⟩
def JRN_REFUSED_NONCRIT : Field := ⟨0x183C, 0, 16, .rc, 0, .faon⟩
def JRN_REFUSED_WAITS : Field := ⟨0x183C, 16, 16, .rc, 0, .faon⟩
def JRN_CFG_HOLD_SRC : Field := ⟨0x1840, 0, 1, .rws, 0, .faon⟩
def JRN_CFG_FAULT_SEV : Field := ⟨0x1840, 4, 2, .rws, 1, .faon⟩
def JRN_CFG_CHOLD_NOM : Field := ⟨0x1840, 16, 16, .rws, 470, .faon⟩
def RTC_SEC_TAI : Field := ⟨0x1880, 0, 48, .ro, 0, .bkp⟩
def RTC_SUB_SUB : Field := ⟨0x1888, 0, 15, .ro, 0, .bkp⟩
def RTC_UTC_OFFSET : Field := ⟨0x188C, 0, 16, .ro, 0, .bkp⟩
def RTC_STATUS_VALID : Field := ⟨0x1890, 0, 1, .ro, 0, .bkp⟩
def RTC_STATUS_DISCIPLINED : Field := ⟨0x1890, 1, 1, .ro, 0, .live⟩
def RTC_STATUS_BKP_LOW : Field := ⟨0x1890, 2, 1, .ro, 0, .live⟩
def RTC_STATUS_OSC_FAIL : Field := ⟨0x1890, 3, 1, .ro, 0, .bkp⟩
def RTC_STATUS_SET_EVT : Field := ⟨0x1890, 16, 1, .w1c, 0, .bkp⟩
def RTC_TRIM_TRIM : Field := ⟨0x1894, 0, 16, .rws, 0, .all⟩
def RTC_ERR_RATE : Field := ⟨0x1898, 0, 16, .ro, 0, .bkp⟩
/-! Chapter 10. -/
def TKT_STATUS_INFLIGHT : Field := ⟨0x1900, 0, 10, .ro, 0, .live⟩
def TKT_STATUS_HWM : Field := ⟨0x1900, 10, 10, .rc, 0, .etk⟩
def TKT_STATUS_FULL : Field := ⟨0x1900, 20, 1, .ro, 0, .live⟩
def TKT_STATUS_HELD : Field := ⟨0x1900, 21, 1, .ro, 0, .live⟩
def TKT_STATUS_HELD_STREAM : Field := ⟨0x1900, 24, 6, .ro, 0, .live⟩
def TKT_EPOCH_EPOCH : Field := ⟨0x1904, 0, 32, .ro, 0, .faon⟩
def TKT_EVENTS_REPLAYS : Field := ⟨0x1908, 0, 8, .rc, 0, .faon⟩
def TKT_EVENTS_FAILED : Field := ⟨0x1908, 8, 8, .rc, 0, .faon⟩
def TKT_EVENTS_VOIDED : Field := ⟨0x1908, 16, 8, .rc, 0, .faon⟩
def TKT_EVENTS_TIMEOUTS : Field := ⟨0x1908, 24, 8, .rc, 0, .faon⟩
def HOST_SEQ_N (i : Nat) : Field := ⟨(0x1910 + 4 * i), 0, 32, .ro, 0, .faon⟩
def HOST_RESEND_ABSORBED : Field := ⟨0x1930, 0, 16, .rc, 0, .faon⟩
def HOST_RESEND_STALE : Field := ⟨0x1930, 16, 8, .rc, 0, .faon⟩
def HOST_RESEND_GAPS : Field := ⟨0x1930, 24, 8, .rc, 0, .faon⟩
def FLT_STATUS_LEVEL : Field := ⟨0x1940, 0, 7, .ro, 0, .faon⟩
def FLT_STATUS_MAXSEV : Field := ⟨0x1940, 8, 2, .rc, 0, .faon⟩
def FLT_STATUS_DEGRADED : Field := ⟨0x1940, 10, 1, .ro, 0, .live⟩
def FLT_STATUS_DOUBLE : Field := ⟨0x1940, 11, 1, .ro, 0, .faon⟩
def FLT_STATUS_OPEN : Field := ⟨0x1940, 12, 4, .ro, 0, .faon⟩
def FLT_STATUS_LOST : Field := ⟨0x1940, 16, 16, .rc, 0, .faon⟩
def FLT_LAST_WORD : Field := ⟨0x1944, 0, 32, .ro, 0, .faon⟩
def FLT_FENCE_U_UNITS : Field := ⟨0x1948, 0, 32, .ro, 0, .faon⟩
def FLT_FENCE_E_HOST : Field := ⟨0x194C, 0, 3, .ro, 0, .faon⟩
def FLT_FENCE_E_FIELD : Field := ⟨0x194C, 16, 9, .ro, 0, .faon⟩
def FLT_PERM_U_UNITS : Field := ⟨0x1950, 0, 32, .ro, 0, .bkp⟩
def FLT_PERM_E_ENGINES : Field := ⟨0x1954, 0, 25, .ro, 0, .bkp⟩
def FLT_CFG_Q : Field := ⟨0x1958, 0, 8, .rws, 64, .faon⟩
def FLT_CFG_K : Field := ⟨0x1958, 8, 4, .rws, 3, .faon⟩
def FLT_CFG_RWIN : Field := ⟨0x1958, 16, 12, .rws, 4095, .faon⟩
def FLT_ESC_N : Field := ⟨0x195C, 0, 4, .rws, 4, .faon⟩
def FLT_ESC_W : Field := ⟨0x195C, 4, 12, .rws, 256, .faon⟩
def FLT_CTL_CLR_PERM : Field := ⟨0x1960, 0, 1, .rws, 0, .live⟩
def FLT_CTL_HIST_CLR : Field := ⟨0x1960, 8, 1, .rw, 0, .live⟩
def FLT_HIST_WORD (i : Nat) : Field := ⟨(0x1A00 + 16 * i), 0, 32, .ro, 0, .faon⟩
def FLT_HIST_FRN (i : Nat) : Field := ⟨(0x1A04 + 16 * i), 0, 32, .ro, 0, .faon⟩
def FLT_HIST_SC (i : Nat) : Field := ⟨(0x1A08 + 16 * i), 0, 32, .ro, 0, .faon⟩
def FLT_HIST_MERGES (i : Nat) : Field := ⟨(0x1A0C + 16 * i), 0, 16, .ro, 0, .faon⟩
def FLT_HIST_REACT (i : Nat) : Field := ⟨(0x1A0C + 16 * i), 16, 3, .ro, 0, .faon⟩
def FLT_HIST_ESC (i : Nat) : Field := ⟨(0x1A0C + 16 * i), 19, 1, .ro, 0, .faon⟩
def FLT_HIST_OPEN (i : Nat) : Field := ⟨(0x1A0C + 16 * i), 20, 1, .ro, 0, .faon⟩
def FLT_HIST_JRN (i : Nat) : Field := ⟨(0x1A0C + 16 * i), 21, 1, .ro, 0, .faon⟩
def FLT_HIST_BASE (i : Nat) : Field := ⟨(0x1A0C + 16 * i), 22, 2, .ro, 0, .faon⟩
/-! Chapter 11. -/
def TWN_STATUS_STATE : Field := ⟨0x1E00, 0, 3, .ro, 0, .etk⟩
def TWN_STATUS_LINK : Field := ⟨0x1E00, 3, 2, .ro, 0, .live⟩
def TWN_STATUS_DET : Field := ⟨0x1E00, 5, 1, .ro, 0, .live⟩
def TWN_STATUS_CFG_MATCH : Field := ⟨0x1E00, 6, 1, .ro, 0, .live⟩
def TWN_STATUS_RESYNC : Field := ⟨0x1E00, 7, 1, .ro, 0, .live⟩
def TWN_STATUS_SEQ_ID : Field := ⟨0x1E00, 8, 8, .ro, 0, .all⟩
def TWN_STATUS_ROLE_CHG : Field := ⟨0x1E00, 16, 1, .w1c, 0, .faon⟩
def TWN_EPOCH_EPOCH : Field := ⟨0x1E04, 0, 32, .ro, 0, .faon⟩
def TWN_WMARK_JSN : Field := ⟨0x1E08, 0, 64, .ro, 0, .ewpt⟩
def TWN_PWMARK_JSN : Field := ⟨0x1E10, 0, 64, .ro, 0, .live⟩
def TWN_HB_LOST : Field := ⟨0x1E18, 0, 8, .rc, 0, .faon⟩
def TWN_HB_STALE : Field := ⟨0x1E18, 8, 8, .rc, 0, .faon⟩
def TWN_HB_CRC_ERRS : Field := ⟨0x1E18, 16, 8, .rc, 0, .faon⟩
def TWN_HB_FAILOVERS : Field := ⟨0x1E18, 24, 8, .rc, 0, .faon⟩
def TWN_PEND_BYTES : Field := ⟨0x1E1C, 0, 16, .ro, 0, .faon⟩
def TWN_PEND_LOST : Field := ⟨0x1E1C, 16, 16, .rc, 0, .faon⟩
def TWN_CFG_EN : Field := ⟨0x1E20, 0, 1, .rws, 0, .faon⟩
def TWN_CFG_POSITION : Field := ⟨0x1E20, 1, 1, .rws, 0, .faon⟩
def TWN_CFG_PAIR_ID : Field := ⟨0x1E20, 16, 16, .rws, 0, .faon⟩
def TWN_CTL_RESIGN : Field := ⟨0x1E24, 0, 1, .rw, 0, .live⟩
def TWN_CTL_ENROL : Field := ⟨0x1E24, 1, 1, .rws, 0, .live⟩
def TWN_CTL_FORK : Field := ⟨0x1E24, 2, 1, .rws, 0, .live⟩
def TWN_LAST_FRN : Field := ⟨0x1E28, 0, 32, .ro, 0, .faon⟩
/-! Chapter 12. -/
def HP_STATUS_DOZE : Field := ⟨0x0300, 0, 1, .ro, 0, .live⟩
def HP_STATUS_BUSY : Field := ⟨0x0300, 1, 1, .ro, 0, .live⟩
def HP_STATUS_FENCED : Field := ⟨0x0300, 2, 1, .ro, 0, .live⟩
def HP_STATUS_TMO_EVT : Field := ⟨0x0300, 16, 1, .w1c, 0, .all⟩
def HP_STATUS_ERR_EVT : Field := ⟨0x0300, 17, 1, .w1c, 0, .all⟩
def HP_ADDR_PRIMARY : Field := ⟨0x0304, 0, 7, .rws, 44, .all⟩
def HP_ADDR_SECONDARY : Field := ⟨0x0304, 8, 7, .rws, 0, .all⟩
def HP_ADDR_MASK : Field := ⟨0x0304, 16, 7, .rws, 0, .all⟩
def HP_ADDR_SEC_EN : Field := ⟨0x0304, 24, 1, .rws, 0, .all⟩
def HP_ADDR_ARA_EN : Field := ⟨0x0304, 25, 1, .rws, 0, .all⟩
def HP_ADDR_PEC : Field := ⟨0x0304, 26, 1, .rws, 0, .all⟩
def HP_EVENTS_TIMEOUTS : Field := ⟨0x0308, 0, 8, .rc, 0, .all⟩
def HP_EVENTS_WAKE_NACKS : Field := ⟨0x0308, 8, 8, .rc, 0, .all⟩
def HP_EVENTS_PAGE_NACKS : Field := ⟨0x0308, 16, 8, .rc, 0, .all⟩
def HP_EVENTS_BUS_ERRS : Field := ⟨0x0308, 24, 8, .rc, 0, .all⟩
def HP_EVENTS2_PEC_ERRS : Field := ⟨0x030C, 0, 8, .rc, 0, .all⟩
def HP_EVENTS2_ARA_LOST : Field := ⟨0x030C, 8, 8, .rc, 0, .all⟩
def HP_RDCRC_CRC : Field := ⟨0x0310, 0, 8, .ro, 0, .live⟩
def SB_STATUS_BUSY : Field := ⟨0x1F00, 0, 1, .ro, 0, .live⟩
def SB_STATUS_MULTI : Field := ⟨0x1F00, 1, 1, .ro, 0, .live⟩
def SB_STATUS_FENCED : Field := ⟨0x1F00, 2, 1, .ro, 0, .faon⟩
def SB_STATUS_CLEARING : Field := ⟨0x1F00, 3, 1, .ro, 0, .live⟩
def SB_STATUS_WAIT_THAW : Field := ⟨0x1F00, 4, 1, .ro, 0, .live⟩
def SB_CFG_SPEED : Field := ⟨0x1F04, 0, 2, .rws, 0, .faon⟩
def SB_CFG_HOST_EN : Field := ⟨0x1F04, 4, 1, .rws, 0, .faon⟩
def SB_EVENTS_ARB_LOST : Field := ⟨0x1F08, 0, 8, .rc, 0, .faon⟩
def SB_EVENTS_ARB_FRAME : Field := ⟨0x1F08, 8, 8, .rc, 0, .faon⟩
def SB_EVENTS_NACKS : Field := ⟨0x1F08, 16, 8, .rc, 0, .faon⟩
def SB_EVENTS_STRETCH_TMO : Field := ⟨0x1F08, 24, 8, .rc, 0, .faon⟩
def SB_EVENTS2_CLEARS : Field := ⟨0x1F0C, 0, 8, .rc, 0, .faon⟩
def SB_EVENTS2_FRZ_OVERRUN : Field := ⟨0x1F0C, 8, 8, .rc, 0, .faon⟩
def SB_EVENTS2_DEFERRED : Field := ⟨0x1F0C, 16, 8, .rc, 0, .faon⟩
def SB_EVENTS2_BIT_ERRS : Field := ⟨0x1F0C, 24, 8, .rc, 0, .faon⟩
def SB_LAST_ADDR : Field := ⟨0x1F10, 0, 7, .ro, 0, .faon⟩
def SB_LAST_ERR : Field := ⟨0x1F10, 8, 4, .ro, 0, .faon⟩
def SB_LAST_FRN : Field := ⟨0x1F10, 16, 16, .ro, 0, .faon⟩
/-! Chapter 13. -/
def ID_VENDOR_VENDOR : Field := ⟨0x0000, 0, 16, .ro, 21335, .all⟩
def ID_VENDOR_PRODUCT : Field := ⟨0x0000, 16, 16, .ro, 25728, .all⟩
def ID_HWREV_STEP : Field := ⟨0x0004, 0, 8, .ro, 0, .all⟩
def ID_HWREV_BOARD : Field := ⟨0x0004, 8, 8, .ro, 0, .all⟩
def ID_SERIAL_SERIAL : Field := ⟨0x0008, 0, 64, .ro, 0, .all⟩
def ID_BUNDLE_VERSION : Field := ⟨0x0010, 0, 32, .ro, 0, .hcore⟩
def ID_STATUS_HOST_READY : Field := ⟨0x0020, 0, 1, .ro, 0, .live⟩
def ID_STATUS_LINK : Field := ⟨0x0020, 1, 1, .ro, 0, .live⟩
def ID_STATUS_FIELD_READY : Field := ⟨0x0020, 2, 1, .ro, 0, .live⟩
def ID_STATUS_SNAP_VALID : Field := ⟨0x0020, 3, 1, .ro, 0, .live⟩
def ID_STATUS_MODE : Field := ⟨0x0020, 4, 4, .ro, 0, .live⟩
def ID_SNAP_FRN : Field := ⟨0x0024, 0, 32, .ro, 0, .hcore⟩
def ID_SNAP_AGE_AGE : Field := ⟨0x0028, 0, 8, .ro, 255, .live⟩
def ALERT_SRC_SRC : Field := ⟨0x0030, 0, 8, .w1c, 0, .hcore⟩
def ALERT_EN_EN : Field := ⟨0x0034, 0, 8, .rw, 1, .hcore⟩
def ALERT_EN_FAULT_SEV : Field := ⟨0x0034, 12, 2, .rw, 2, .hcore⟩
def TL_H_STATUS_STATE : Field := ⟨0x0040, 0, 2, .ro, 0, .live⟩
def TL_H_STATUS_EPOCH : Field := ⟨0x0040, 16, 16, .ro, 0, .all⟩
def TL_H_EVENTS_CRC_ERRS : Field := ⟨0x0044, 0, 8, .rc, 0, .all⟩
def TL_H_EVENTS_RESENDS : Field := ⟨0x0044, 8, 8, .rc, 0, .all⟩
def TL_H_EVENTS_RETRAINS : Field := ⟨0x0044, 16, 8, .rc, 0, .all⟩
def TL_H_EVENTS_DROPS : Field := ⟨0x0044, 24, 8, .rc, 0, .all⟩
def TBF_H_LAST_HEADER : Field := ⟨0x0048, 0, 64, .ro, 0, .all⟩
def TBF_H_REASON_REASON : Field := ⟨0x0050, 0, 4, .ro, 0, .all⟩
def MBX_STATUS_RESULTS : Field := ⟨0x0100, 0, 8, .ro, 0, .hcore⟩
def MBX_STATUS_PLACES : Field := ⟨0x0100, 8, 8, .ro, 0, .hcore⟩
def MBX_STATUS_LREJ : Field := ⟨0x0100, 16, 4, .ro, 0, .hcore⟩
def MBX_STATUS_FULL : Field := ⟨0x0100, 24, 8, .ro, 0, .hcore⟩
def MBX_CTL_SUBMIT : Field := ⟨0x0104, 0, 1, .wo, 0, .live⟩
def MBX_CTL_POP : Field := ⟨0x0104, 1, 1, .wo, 0, .live⟩
def MBX_CTL_RES_PAGE : Field := ⟨0x0104, 4, 2, .rw, 0, .hcore⟩
def MBX_RES_INFO_STREAM : Field := ⟨0x0108, 0, 3, .ro, 0, .hcore⟩
def MBX_RES_INFO_LEN : Field := ⟨0x0108, 8, 9, .ro, 0, .hcore⟩
def MBX_LAST_SEQ_SEQ : Field := ⟨0x010C, 0, 32, .ro, 0, .hcore⟩
def MBX_EVENTS_LREJS : Field := ⟨0x0110, 0, 8, .rc, 0, .hcore⟩
def MBX_EVENTS_RESENDS : Field := ⟨0x0110, 8, 8, .rc, 0, .hcore⟩
def MBX_EVENTS_VOIDS : Field := ⟨0x0110, 16, 8, .rc, 0, .hcore⟩
def MBX_CMD_COMMAND (i : Nat) : Field := ⟨(0x0140 + 1 * i), 0, 8, .rw, 0, .hcore⟩
def MBX_RES_RESULT (i : Nat) : Field := ⟨(0x01C0 + 1 * i), 0, 8, .ro, 0, .hcore⟩
def DRN_STATUS_AVAIL : Field := ⟨0x2000, 0, 17, .ro, 0, .live⟩
def DRN_STATUS_REQ_OPEN : Field := ⟨0x2000, 24, 1, .ro, 0, .live⟩
def DRN_STATUS_END : Field := ⟨0x2000, 25, 1, .ro, 0, .live⟩
def DRN_STATUS_UNDERRUN : Field := ⟨0x2000, 26, 1, .w1c, 0, .hcore⟩
def DRN_STATUS_FENCED : Field := ⟨0x2000, 27, 1, .ro, 0, .live⟩
def DRN_CFG_EN : Field := ⟨0x2004, 0, 1, .rw, 0, .hcore⟩
def DRN_CFG_QUAD : Field := ⟨0x2004, 1, 1, .rw, 0, .hcore⟩
def DRN_CTL_GO : Field := ⟨0x2008, 0, 1, .wo, 0, .live⟩
def DRN_REQ_BLOCK (i : Nat) : Field := ⟨(0x2010 + 1 * i), 0, 8, .rw, 0, .hcore⟩
def DRN_EVENTS_FORMAT_ERRS : Field := ⟨0x2020, 0, 8, .rc, 0, .hcore⟩
def DRN_EVENTS_UNDERRUNS : Field := ⟨0x2020, 8, 8, .rc, 0, .hcore⟩
def DRN_EVENTS_ABORTS : Field := ⟨0x2020, 16, 8, .rc, 0, .hcore⟩
def DRN_TAG_TAG : Field := ⟨0x2024, 0, 16, .ro, 0, .live⟩
def DRN_NEXT_JSN : Field := ⟨0x2028, 0, 64, .ro, 0, .live⟩
def TL_F_STATUS_STATE : Field := ⟨0x1000, 0, 2, .ro, 0, .live⟩
def TL_F_STATUS_EPOCH : Field := ⟨0x1000, 16, 16, .ro, 0, .faon⟩
def TL_F_EVENTS_CRC_ERRS : Field := ⟨0x1004, 0, 8, .rc, 0, .faon⟩
def TL_F_EVENTS_RESENDS : Field := ⟨0x1004, 8, 8, .rc, 0, .faon⟩
def TL_F_EVENTS_RETRAINS : Field := ⟨0x1004, 16, 8, .rc, 0, .faon⟩
def TL_F_EVENTS_DROPS : Field := ⟨0x1004, 24, 8, .rc, 0, .faon⟩
def TBF_F_LAST_HEADER : Field := ⟨0x1008, 0, 64, .ro, 0, .faon⟩
def TBF_F_REASON_REASON : Field := ⟨0x1010, 0, 4, .ro, 0, .faon⟩
/-! Chapter 14. -/
def MODE_STATUS_MODE : Field := ⟨0x1040, 0, 4, .ro, 0, .live⟩
def MODE_STATUS_BASE : Field := ⟨0x1040, 4, 2, .ro, 0, .live⟩
def MODE_STATUS_SVC_LEVEL : Field := ⟨0x1040, 6, 2, .ro, 0, .et⟩
def MODE_STATUS_RAILS_HELD : Field := ⟨0x1040, 8, 1, .ro, 0, .live⟩
def MODE_STATUS_PWR_REQ : Field := ⟨0x1040, 9, 1, .ro, 0, .live⟩
def MODE_STATUS_SHIP_N : Field := ⟨0x1040, 10, 1, .ro, 1, .live⟩
def MODE_STATUS_MODE_CHG : Field := ⟨0x1040, 16, 1, .w1c, 0, .faon⟩
def START_INFO_LAST_MS : Field := ⟨0x1044, 0, 16, .ro, 0, .live⟩
def START_INFO_KIND : Field := ⟨0x1044, 16, 2, .ro, 0, .live⟩
def CFG_STATUS_COPY : Field := ⟨0x1048, 0, 1, .ro, 0, .faon⟩
def CFG_STATUS_SIGNED : Field := ⟨0x1048, 1, 1, .ro, 0, .faon⟩
def CFG_STATUS_A_OK : Field := ⟨0x1048, 2, 1, .ro, 0, .faon⟩
def CFG_STATUS_B_OK : Field := ⟨0x1048, 3, 1, .ro, 0, .faon⟩
def CFG_STATUS_DEFAULT : Field := ⟨0x1048, 4, 1, .ro, 0, .faon⟩
def CFG_STATUS_REREAD_FAIL : Field := ⟨0x1048, 5, 1, .ro, 0, .faon⟩
def CFG_STATUS_SEQ : Field := ⟨0x1048, 16, 16, .ro, 0, .faon⟩
def CFG_DIGEST_DIGEST (i : Nat) : Field := ⟨(0x104C + 4 * i), 0, 32, .ro, 0, .faon⟩
def MODE_CFG_SHIP : Field := ⟨0x106C, 0, 2, .rws, 0, .faon⟩
def MODE_CFG_PWR_REQ_EN : Field := ⟨0x106C, 2, 1, .rws, 0, .faon⟩
def MODE_CFG_SHIP_N_EN : Field := ⟨0x106C, 3, 1, .rws, 0, .faon⟩
def MODE_CFG_SVC_TMO : Field := ⟨0x106C, 8, 8, .rws, 10, .faon⟩
def SVC_STATUS_KEY_ENROLLED : Field := ⟨0x1070, 0, 1, .ro, 0, .all⟩
def SVC_STATUS_REQ_SIGNED : Field := ⟨0x1070, 1, 1, .ro, 0, .all⟩
def SVC_STATUS_LOCKED_OUT : Field := ⟨0x1070, 2, 1, .ro, 0, .bkp⟩
def SVC_STATUS_FAILS : Field := ⟨0x1070, 4, 4, .ro, 0, .bkp⟩
def MODE_EVENTS_SHIP_REFUSED : Field := ⟨0x1074, 0, 8, .rc, 0, .faon⟩
def MODE_EVENTS_K_REFUSED : Field := ⟨0x1074, 8, 8, .rc, 0, .faon⟩
def MODE_EVENTS_SVC_FAILS : Field := ⟨0x1074, 16, 8, .rc, 0, .faon⟩
def MODE_EVENTS_STARTS : Field := ⟨0x1074, 24, 8, .rc, 0, .faon⟩
/-! Chapter 15. -/
def WDG_CFG_PERIOD : Field := ⟨0x1080, 0, 4, .rws, 0, .faon⟩
def WDG_CFG_OPEN_SLOT : Field := ⟨0x1080, 8, 8, .rws, 0, .faon⟩
def WDG_STATUS_ARMED : Field := ⟨0x1084, 0, 1, .ro, 0, .live⟩
def WDG_STATUS_WINDOW : Field := ⟨0x1084, 1, 1, .ro, 0, .live⟩
def WDG_STATUS_SERVED : Field := ⟨0x1084, 2, 1, .ro, 0, .live⟩
def WDG_STATUS_FRAME : Field := ⟨0x1084, 3, 4, .ro, 0, .live⟩
def WDG_STATUS_LAST_SLOT : Field := ⟨0x1084, 8, 8, .ro, 0, .faon⟩
def WDG_STATUS_EXPIRED_EVT : Field := ⟨0x1084, 16, 1, .w1c, 0, .faon⟩
def WDG_STATUS_LAST_CAUSE : Field := ⟨0x1084, 17, 2, .ro, 0, .faon⟩
def WDG_CHECKIN_SEEN : Field := ⟨0x1088, 0, 9, .ro, 0, .live⟩
def WDG_CHECKIN_EXCUSED : Field := ⟨0x1088, 16, 9, .ro, 0, .live⟩
def WDG_EVENTS_FOREIGN : Field := ⟨0x108C, 0, 8, .rc, 0, .faon⟩
def WDG_EVENTS_BAD_KEY : Field := ⟨0x108C, 8, 8, .rc, 0, .faon⟩
def WDG_EVENTS_DOUBLES : Field := ⟨0x108C, 16, 8, .rc, 0, .faon⟩
def WDG_EVENTS_MISSING : Field := ⟨0x108C, 24, 8, .rc, 0, .faon⟩
def BIST_STATUS_GROUPS : Field := ⟨0x1090, 0, 4, .ro, 0, .faon⟩
def BIST_STATUS_HALTED : Field := ⟨0x1090, 4, 1, .ro, 0, .faon⟩
def BIST_STATUS_REPAIRED : Field := ⟨0x1090, 8, 8, .ro, 0, .faon⟩
def BIST_STATUS_FAILED : Field := ⟨0x1090, 16, 8, .ro, 0, .faon⟩
def BIST_STATUS_FUSES_USED : Field := ⟨0x1090, 24, 7, .ro, 0, .all⟩
def BIST_FAILMAP_MAP : Field := ⟨0x1094, 0, 26, .ro, 0, .faon⟩
def BIST_REPMAP_MAP : Field := ⟨0x1098, 0, 26, .ro, 0, .faon⟩
def BIST_CTL_ENG_TEST : Field := ⟨0x109C, 0, 1, .rws, 0, .live⟩
def BIST_CTL_BURN : Field := ⟨0x109C, 1, 1, .rws, 0, .live⟩
def HWDG_CFG_PERIOD : Field := ⟨0x0060, 0, 4, .rws, 0, .all⟩
def HWDG_CFG_OPEN_SLOT : Field := ⟨0x0060, 8, 8, .rws, 0, .all⟩
def HWDG_STATUS_ARMED : Field := ⟨0x0064, 0, 1, .ro, 0, .live⟩
def HWDG_STATUS_SEEN : Field := ⟨0x0064, 1, 3, .ro, 0, .live⟩
def HWDG_STATUS_EXPIRED_EVT : Field := ⟨0x0064, 16, 1, .w1c, 0, .all⟩
def HWDG_STATUS_LAST_CAUSE : Field := ⟨0x0064, 17, 2, .ro, 0, .all⟩
def HWDG_EVENTS_FOREIGN : Field := ⟨0x0068, 0, 8, .rc, 0, .all⟩
def HWDG_EVENTS_BAD_KEY : Field := ⟨0x0068, 8, 8, .rc, 0, .all⟩
def HWDG_EVENTS_DOUBLES : Field := ⟨0x0068, 16, 8, .rc, 0, .all⟩
def HWDG_EVENTS_MISSING : Field := ⟨0x0068, 24, 8, .rc, 0, .all⟩
def HBIST_STATUS_REPMAP : Field := ⟨0x006C, 0, 7, .ro, 0, .all⟩
def HBIST_STATUS_FAILMAP : Field := ⟨0x006C, 8, 7, .ro, 0, .all⟩
def HBIST_STATUS_FUSES_USED : Field := ⟨0x006C, 16, 7, .ro, 0, .all⟩
def HBIST_CTL_BURN : Field := ⟨0x0070, 1, 1, .rws, 0, .live⟩
/-! Chapter 16. -/
def UPD_STATUS_STATE : Field := ⟨0x10A0, 0, 3, .ro, 0, .live⟩
def UPD_STATUS_ENGINE : Field := ⟨0x10A0, 8, 8, .ro, 0, .live⟩
def UPD_STATUS_BLOCKS : Field := ⟨0x10A0, 16, 8, .ro, 0, .live⟩
def UPD_STATUS_LAST_REASON : Field := ⟨0x10A0, 24, 8, .ro, 0, .faon⟩
def UPD_NEXT_POS : Field := ⟨0x10A4, 0, 32, .ro, 0, .live⟩
def UPD_PROB_FRAMES : Field := ⟨0x10A8, 0, 9, .ro, 0, .live⟩
def UPD_SEL_SLOT : Field := ⟨0x10AC, 0, 9, .ro, 0, .all⟩
def UPD_SEL_PROB : Field := ⟨0x10AC, 16, 9, .ro, 0, .etk⟩
def UPD_EVENTS_HANDOVERS : Field := ⟨0x10B0, 0, 8, .rc, 0, .faon⟩
def UPD_EVENTS_FALLBACKS : Field := ⟨0x10B0, 8, 8, .rc, 0, .faon⟩
def UPD_EVENTS_ROLLBACKS : Field := ⟨0x10B0, 16, 8, .rc, 0, .faon⟩
def UPD_EVENTS_REJECTS : Field := ⟨0x10B0, 24, 8, .rc, 0, .faon⟩
def UPD_VER_F_VERSION (i : Nat) : Field := ⟨(0x10C0 + 4 * i), 0, 32, .ro, 0, .all⟩
def HUPD_STATUS_STATE : Field := ⟨0x0080, 0, 3, .ro, 0, .live⟩
def HUPD_STATUS_PERMAFROST : Field := ⟨0x0080, 3, 1, .ro, 0, .live⟩
def HUPD_STATUS_LAST_REASON : Field := ⟨0x0080, 24, 8, .ro, 0, .all⟩
def HUPD_SEL_SLOT : Field := ⟨0x0084, 0, 3, .ro, 0, .all⟩
def HUPD_SEL_PROB : Field := ⟨0x0084, 8, 3, .ro, 0, .hcore⟩
def HUPD_VER_H_VERSION (i : Nat) : Field := ⟨(0x0088 + 4 * i), 0, 32, .ro, 0, .all⟩
def UPD_WIN_DATA (i : Nat) : Field := ⟨(0x8000 + 1 * i), 0, 8, .rws, 0, .hcore⟩
/-! Chapter 17. -/
def LB_CTL_IF : Field := ⟨0x10E4, 0, 3, .rws, 0, .live⟩
def LB_CTL_DEPTH : Field := ⟨0x10E4, 4, 2, .rws, 0, .live⟩
def LB_CTL_ROLE : Field := ⟨0x10E4, 6, 1, .rws, 0, .live⟩
def LB_CTL_START : Field := ⟨0x10E4, 7, 1, .rws, 0, .live⟩
def LB_CTL_SEL : Field := ⟨0x10E4, 8, 7, .rws, 0, .live⟩
def LB_CTL_COUNT : Field := ⟨0x10E4, 16, 16, .rws, 0, .live⟩
def LB_STATUS_STATE : Field := ⟨0x10E8, 0, 3, .ro, 0, .et⟩
def LB_STATUS_REASON : Field := ⟨0x10E8, 4, 4, .ro, 0, .et⟩
def LB_STATUS_SENT : Field := ⟨0x10E8, 16, 16, .ro, 0, .et⟩
def LB_ERRS_ERRORS : Field := ⟨0x10EC, 0, 16, .ro, 0, .et⟩
def LB_VALUE_VALUE : Field := ⟨0x10F0, 0, 32, .ro, 0, .et⟩
def FI_CTL_TARGET : Field := ⟨0x10F4, 0, 8, .rws, 0, .live⟩
def FI_CTL_MODE : Field := ⟨0x10F4, 8, 3, .rws, 0, .live⟩
def FI_CTL_SEV : Field := ⟨0x10F4, 12, 2, .rws, 0, .live⟩
def FI_CTL_KIND : Field := ⟨0x10F4, 16, 8, .rws, 0, .live⟩
def FI_CTL_ARM : Field := ⟨0x10F4, 31, 1, .rws, 0, .live⟩
def FI_STATUS_INJECTED : Field := ⟨0x10F8, 0, 16, .ro, 0, .faon⟩
def FI_STATUS_LAST_TARGET : Field := ⟨0x10F8, 16, 8, .ro, 0, .faon⟩
def HLB_CTL_IF : Field := ⟨0x00A0, 0, 2, .rws, 0, .live⟩
def HLB_CTL_DEPTH : Field := ⟨0x00A0, 4, 2, .rws, 0, .live⟩
def HLB_CTL_START : Field := ⟨0x00A0, 7, 1, .rws, 0, .live⟩
def HLB_CTL_COUNT : Field := ⟨0x00A0, 16, 16, .rws, 0, .live⟩
def HLB_STATUS_STATE : Field := ⟨0x00A4, 0, 3, .ro, 0, .all⟩
def HLB_STATUS_REASON : Field := ⟨0x00A4, 4, 4, .ro, 0, .all⟩
def HLB_STATUS_ERRORS : Field := ⟨0x00A4, 16, 16, .ro, 0, .all⟩

/-! The fields a word address shows, chapter by chapter (R428). -/
def fieldsAt02 (a : Nat) : List Field :=
  if a = 0x1100 then [ FRM_STATUS_SRC, FRM_STATUS_STATE, FRM_STATUS_PLAN, FRM_STATUS_OVR, FRM_STATUS_FRZ, FRM_STATUS_APT, FRM_STATUS_REFUSING, FRM_STATUS_LOSS ]
  else  if a = 0x1104 then [ FRM_FRN_FRN ]
  else  if a = 0x1108 then [ FRM_WRAP_WRAP ]
  else  if a = 0x110C then [ FRM_PERIOD_PERIOD ]
  else  if a = 0x1110 then [ FRM_LEN_LAST ]
  else  if a = 0x1114 then [ FRM_SRC_CFG_PRI, FRM_SRC_CFG_LINE_MULT, FRM_SRC_CFG_EXT_POL ]
  else  if a = 0x1118 then [ FRM_PHASE_OFFSET ]
  else  if a = 0x111C then [ FRM_APT_CFG_LIMIT, FRM_APT_CFG_EN ]
  else  if a = 0x1120 then [ FRM_APT_EFF_EFF ]
  else  if a = 0x1124 then [ FRM_REFUSE_COUNT, FRM_REFUSE_LAST_REASON ]
  else  if 0x1130 ≤ a ∧ a < 0x11B0 ∧ (a - 0x1130) % 4 = 0 then [ FRM_MAP_MAP ((a - 0x1130) / 4) ]
  else  if 0x11B0 ≤ a ∧ a < 0x11C0 ∧ (a - 0x11B0) % 4 = 0 then [ FRM_PLANPOL_POL ((a - 0x11B0) / 4), FRM_PLANPOL_SBQ ((a - 0x11B0) / 4), FRM_PLANPOL_SEQ ((a - 0x11B0) / 4) ]
  else  if 0x11C0 ≤ a ∧ a < 0x11E4 ∧ (a - 0x11C0) % 4 = 0 then [ FRM_BUD_BUDGET ((a - 0x11C0) / 4), FRM_BUD_USED_LAST ((a - 0x11C0) / 4), FRM_BUD_OVERRUNS ((a - 0x11C0) / 4) ]
  else  if a = 0x11E4 then [ FRM_FRZ_MAX_MAX ]
  else []

def fieldsAt03 (a : Nat) : List Field :=
  if a = 0x0200 then [ INTAKE_STATUS_ACTIVE, INTAKE_STATUS_VBUS_QUAL, INTAKE_STATUS_DCIN_QUAL, INTAKE_STATUS_LIMITING, INTAKE_STATUS_PDISS_LIMIT, INTAKE_STATUS_RAMP, INTAKE_STATUS_HAUX, INTAKE_STATUS_SRC_CHANGE ]
  else  if a = 0x0204 then [ INTAKE_CFG_PRI, INTAKE_CFG_WIN, INTAKE_CFG_HEADROOM ]
  else  if a = 0x0208 then [ INTAKE_LIM_CFG_LIM ]
  else  if a = 0x020C then [ INTAKE_LIM_HOST_LIM ]
  else  if a = 0x0210 then [ INTAKE_LIM_EFF_LIM, INTAKE_LIM_EFF_CAUSE ]
  else  if a = 0x0214 then [ INTAKE_MON_V_VBUS, INTAKE_MON_V_DCIN ]
  else  if a = 0x0218 then [ INTAKE_MON_CBUF_VCBUF, INTAKE_MON_CBUF_IIN ]
  else  if a = 0x021C then [ INTAKE_MON_PD_PDISS, INTAKE_MON_PD_TEMP ]
  else  if a = 0x0220 then [ INTAKE_CBUF_C_CEFF, INTAKE_CBUF_C_VALID ]
  else  if a = 0x0224 then [ INTAKE_EVENTS_SWITCHOVERS, INTAKE_EVENTS_REV_BLOCKS, INTAKE_EVENTS_PDISS_EVENTS ]
  else  if a = 0x0280 then [ XFER_STATUS_DIR, XFER_STATUS_QUIET, XFER_STATUS_FLOOR, XFER_STATUS_PLIM, XFER_STATUS_DBS, XFER_STATUS_LATCHED, XFER_STATUS_TEMP ]
  else  if a = 0x0284 then [ XFER_POWER_P ]
  else  if a = 0x0288 then [ XFER_LIMIT_FWD_LIM, XFER_LIMIT_REV_LIM ]
  else  if a = 0x028C then [ XFER_STATS_DIR_CHANGES ]
  else  if a = 0x0290 then [ XFER_CMD_CLR_LATCH ]
  else []

def fieldsAt04 (a : Nat) : List Field :=
  if a = 0x1200 then [ PH_STATUS_CMODE, PH_STATUS_BAND, PH_STATUS_REV, PH_STATUS_FROZEN, PH_STATUS_ENTRY, PH_STATUS_SS, PH_STATUS_GOV, PH_STATUS_ACTIVE, PH_STATUS_FOLDBACK, PH_STATUS_FENCED, PH_STATUS_LATCHED ]
  else  if a = 0x1204 then [ PH_CFG_FSW, PH_CFG_SS_RATE, PH_CFG_ILIM, PH_CFG_SHED_EN, PH_CFG_BAL_EN ]
  else  if 0x1210 ≤ a ∧ a < 0x1220 ∧ (a - 0x1210) % 4 = 0 then [ PH_TRIM_TRIM ((a - 0x1210) / 4), PH_TRIM_ENTRY ((a - 0x1210) / 4), PH_TRIM_AT_LIMIT ((a - 0x1210) / 4) ]
  else  if a = 0x1220 then [ PH_CURR_I ]
  else  if a = 0x1224 then [ PH_VOLT_VTB, PH_VOLT_VSYS ]
  else  if a = 0x1230 then [ VSYS_SET_SET ]
  else  if a = 0x1234 then [ VSYS_MIN_MIN ]
  else  if a = 0x1238 then [ REV_SET_SET ]
  else  if a = 0x1240 then [ BATFET_STATUS_STATE, BATFET_STATUS_TEMP, BATFET_STATUS_IBAT ]
  else  if a = 0x1244 then [ PH_EVENTS_SS_RETRIES, PH_EVENTS_FOLDBACK, PH_EVENTS_QUIET_LATE, PH_EVENTS_BATFET_OPENS ]
  else  if a = 0x1248 then [ PH_CTL_CLR_LATCH ]
  else []

def fieldsAt05 (a : Nat) : List Field :=
  if a = 0x1300 then [ CHG_STATUS_STATE, CHG_STATUS_WINDOW, CHG_STATUS_LIMITED, CHG_STATUS_REF_ZERO, CHG_STATUS_EN, CHG_STATUS_PRESENT, CHG_STATUS_FAULT_LATCH, CHG_STATUS_REMOVAL ]
  else  if a = 0x1304 then [ CHG_MON_VBAT, CHG_MON_INET ]
  else  if a = 0x1308 then [ CHG_V_SET ]
  else  if a = 0x130C then [ CHG_I_SET ]
  else  if a = 0x1310 then [ CHG_PROF_A_CHEM, CHG_PROF_A_CELLS, CHG_PROF_A_SRC, CHG_PROF_A_BAND, CHG_PROF_A_VCELL ]
  else  if a = 0x1314 then [ CHG_PROF_I_ICHG, CHG_PROF_I_IPEAK ]
  else  if a = 0x1318 then [ CHG_PROF_P_IPRE, CHG_PROF_P_PRE_TH, CHG_PROF_P_TERM, CHG_PROF_P_RECH ]
  else  if a = 0x131C then [ CHG_TIMER_PRE, CHG_TIMER_FAST ]
  else  if a = 0x1320 then [ CHG_TEMP_TS ]
  else  if a = 0x1324 then [ CHG_CFG_RSNS, CHG_CFG_DET_EN, CHG_CFG_ID_REQ, CHG_CFG_SBS_EN, CHG_CFG_SBS_PEAK, CHG_CFG_SBS_TEMP, CHG_CFG_PEC, CHG_CFG_TS, CHG_CFG_PRE_TIMER, CHG_CFG_FAST_TIMER ]
  else  if a = 0x1328 then [ CHG_WIN_T ]
  else  if a = 0x132C then [ CHG_ADJ_COOL_FRAC, CHG_ADJ_WARM_DROP, CHG_ADJ_TCV_MIN ]
  else  if a = 0x1330 then [ CHG_CTL_SUSPEND, CHG_CTL_I_HOST, CHG_CTL_CLR_FAULT ]
  else  if a = 0x1334 then [ PACK_SBS_ICHG_REQ, PACK_SBS_STATUS ]
  else  if a = 0x1338 then [ PACK_SBS_V_VCHG_REQ, PACK_SBS_V_VOLT ]
  else  if a = 0x1340 then [ STAT_CFG_MODE, STAT_CFG_FN_SEV ]
  else  if a = 0x1344 then [ STAT_MASK_MASK ]
  else  if a = 0x1348 then [ STAT_LATCH_EVENTS, STAT_LATCH_FN, STAT_LATCH_PADS ]
  else []

def fieldsAt06 (a : Nat) : List Field :=
  if a = 0x1400 then [ RAIL_STATUS_POL_ON, RAIL_STATUS_POL_REG, RAIL_STATUS_POL_SLEW, RAIL_STATUS_POL_OVR, RAIL_STATUS_POL_LATCHED, RAIL_STATUS_HOLD_ACT, RAIL_STATUS_QR_ON, RAIL_STATUS_QR_OVR, RAIL_STATUS_KA_ON, RAIL_STATUS_KA_LOW, RAIL_STATUS_KA_STBY ]
  else  if 0x1404 ≤ a ∧ a < 0x1410 ∧ (a - 0x1404) % 4 = 0 then [ POL_SET_SET ((a - 0x1404) / 4) ]
  else  if 0x1410 ≤ a ∧ a < 0x1418 ∧ (a - 0x1410) % 4 = 0 then [ QR_SET_SET ((a - 0x1410) / 4) ]
  else  if a = 0x1418 then [ KA_SET_CODE, KA_SET_EN, KA_SET_TWIN ]
  else  if 0x1420 ≤ a ∧ a < 0x142C ∧ (a - 0x1420) % 4 = 0 then [ POL_CFG_FSW ((a - 0x1420) / 4), POL_CFG_ILIM ((a - 0x1420) / 4), POL_CFG_SLEW ((a - 0x1420) / 4), POL_CFG_DISCH ((a - 0x1420) / 4), POL_CFG_FLOOR ((a - 0x1420) / 4) ]
  else  if 0x1430 ≤ a ∧ a < 0x1448 ∧ (a - 0x1430) % 4 = 0 then [ POL_VTAB_ENTRY_LO ((a - 0x1430) / 4), POL_VTAB_ENTRY_HI ((a - 0x1430) / 4) ]
  else  if a = 0x1450 then [ QR_CFG_EN, QR_CFG_KA_QR ]
  else  if a = 0x1454 then [ RL_STATUS_SPEED, RL_STATUS_SESSION, RL_STATUS_EVQ, RL_STATUS_CRC_ERRS, RL_STATUS_FRAME_ERRS, RL_STATUS_REJECTS ]
  else  if a = 0x1458 then [ RL_CFG_RL_MAX, RL_CFG_RL_EN, RL_CFG_TABLE_WR ]
  else  if a = 0x145C then [ KA_GAP_COUNT, KA_GAP_SHORT, KA_GAP_LAST_MS ]
  else  if a = 0x1460 then [ KA_MIN_MIN ]
  else  if a = 0x1464 then [ RAIL_MON_A_PAIR ]
  else  if a = 0x1468 then [ RAIL_MON_B_PAIR ]
  else  if a = 0x146C then [ RAIL_MON_C_PAIR ]
  else  if a = 0x1470 then [ RAIL_CTL_CLR_LATCH ]
  else []

def fieldsAt07 (a : Nat) : List Field :=
  if a = 0x0400 then [ CBL_STATUS_STATE, CBL_STATUS_ORIENT, CBL_STATUS_EXPLICIT, CBL_STATUS_EPR, CBL_STATUS_VCONN, CBL_STATUS_DFP, CBL_STATUS_FS_MODE, CBL_STATUS_FRS_ARMED, CBL_STATUS_SRC_PERMIT, CBL_STATUS_MISMATCH, CBL_STATUS_RP, CBL_STATUS_ATTACH_CHG, CBL_STATUS_CONTRACT_CHG, CBL_STATUS_HARD_RESET, CBL_STATUS_DEBUG_DENIED ]
  else  if a = 0x0404 then [ CBL_CONTRACT_VOLT, CBL_CONTRACT_CURR, CBL_CONTRACT_TYPE, CBL_CONTRACT_ROLE, CBL_CONTRACT_POS ]
  else  if a = 0x0408 then [ CBL_PARTNER_REV, CBL_PARTNER_DRP, CBL_PARTNER_EPR_CAP, CBL_PARTNER_FRS_REQ ]
  else  if a = 0x040C then [ CBL_CABLE_EMARKED, CBL_CABLE_ICAP, CBL_CABLE_VMAX, CBL_CABLE_NO_SBU ]
  else  if a = 0x0410 then [ CBL_CFG_ROLE, CBL_CFG_REV_EN, CBL_CFG_FRS_RX_EN, CBL_CFG_FRS_TX_EN, CBL_CFG_VCONN_SWAP, CBL_CFG_DR_SWAP_ACC, CBL_CFG_FS_EN, CBL_CFG_DCIN_ENDS_SRC ]
  else  if a = 0x0414 then [ CBL_SNK_CFG_VMAX, CBL_SNK_CFG_PPS_EN, CBL_SNK_CFG_EPR_EN, CBL_SNK_CFG_AVS_EN, CBL_SNK_CFG_PMIN ]
  else  if a = 0x0418 then [ CBL_SRC_CFG_QUIET_FIRST, CBL_SRC_CFG_PPS_SRC_EN, CBL_SRC_CFG_IBAT_MAX, CBL_SRC_CFG_FRS_REQ ]
  else  if a = 0x041C then [ CBL_RES_CFG_CAP, CBL_RES_CFG_HOURS ]
  else  if a = 0x0420 then [ CBL_OFFER_A_I5, CBL_OFFER_A_I9 ]
  else  if a = 0x0424 then [ CBL_OFFER_B_I15, CBL_OFFER_B_I20 ]
  else  if a = 0x0428 then [ CBL_OFFER_C_IPPS, CBL_OFFER_C_CAUSE, CBL_OFFER_C_RES_STATE, CBL_OFFER_C_AGE ]
  else  if a = 0x042C then [ CBL_RESERVE_QBAT, CBL_RESERVE_QRES ]
  else  if a = 0x0430 then [ CBL_FS_CFG_TICK, CBL_FS_CFG_QREQ_APT, CBL_FS_CFG_QREQ_DRIVE ]
  else  if a = 0x0434 then [ CBL_EVENTS_SOFT_RESETS, CBL_EVENTS_HARD_RESETS, CBL_EVENTS_ERR_RECOV, CBL_EVENTS_SRC_OCP ]
  else  if a = 0x0438 then [ CBL_CTL_PR_SWAP, CBL_CTL_EXIT_SRC, CBL_CTL_FS_ENTER, CBL_CTL_FS_EXIT ]
  else []

def fieldsAt08 (a : Nat) : List Field :=
  if a = 0x1500 then [ ADC_STATUS_ACTIVE, ADC_STATUS_SPARE, ADC_STATUS_FENCED, ADC_STATUS_REF_ON, ADC_STATUS_REF_SETTLED, ADC_STATUS_FGCAL, ADC_STATUS_STALE, ADC_STATUS_DUE_PASSED, ADC_STATUS_ROT_STOP ]
  else  if a = 0x1504 then [ ADC_CFG_AIN_RNG, ADC_CFG_DUE_FLAG, ADC_CFG_REFOUT_EN, ADC_CFG_AUTO_FG, ADC_CFG_CAL_SIGN_REQ, ADC_CFG_FG_DT ]
  else  if a = 0x1508 then [ ADC_CTL_FGCAL, ADC_CTL_CLR_FENCE ]
  else  if a = 0x150C then [ ADC_Q_LEVEL, ADC_Q_HWM ]
  else  if a = 0x1510 then [ ADC_Q_FRN_FRN ]
  else  if a = 0x1514 then [ ADC_EVENTS_OVR, ADC_EVENTS_SKIPPED, ADC_EVENTS_LATE, ADC_EVENTS_DISCARDED ]
  else  if a = 0x1518 then [ ADC_CAL_AGE_AGE ]
  else  if a = 0x151C then [ REFCHK_LAST_MEAN ]
  else  if 0x1520 ≤ a ∧ a < 0x1540 ∧ (a - 0x1520) % 4 = 0 then [ CAL_CERT_ID_ID ((a - 0x1520) / 4) ]
  else  if a = 0x1540 ∨ a = 0x1544 then [ CAL_DATE_DATE ]
  else  if a = 0x1548 ∨ a = 0x154C then [ CAL_DUE_DUE ]
  else  if a = 0x1550 then [ CAL_REF_REF_TRUE ]
  else  if a = 0x1554 then [ CAL_SEQ_SEQ, CAL_SEQ_SIGNED, CAL_SEQ_COPY, CAL_SEQ_NOMINAL ]
  else  if 0x1600 ≤ a ∧ a < 0x16C0 ∧ (a - 0x1600) % 4 = 0 then [ ADC_LAST_VALUE ((a - 0x1600) / 4), ADC_LAST_FLAGS ((a - 0x1600) / 4) ]
  else  if 0x1700 ≤ a ∧ a < 0x1800 ∧ (a - 0x1700) % 4 = 0 then [ ADC_SEQ_TAG ((a - 0x1700) / 4), ADC_SEQ_SLOT ((a - 0x1700) / 4), ADC_SEQ_AVG ((a - 0x1700) / 4), ADC_SEQ_DIV ((a - 0x1700) / 4), ADC_SEQ_HOST ((a - 0x1700) / 4), ADC_SEQ_EN ((a - 0x1700) / 4) ]
  else []

def fieldsAt09 (a : Nat) : List Field :=
  if a = 0x1800 then [ JRN_STATUS_READY, JRN_STATUS_FULL, JRN_STATUS_HOLDUP, JRN_STATUS_SEALING, JRN_STATUS_CHOLD_OK, JRN_STATUS_HOLD_BAT, JRN_STATUS_FULL_EVT, JRN_STATUS_MEDIA_EVT ]
  else  if a = 0x1804 ∨ a = 0x1808 then [ JRN_NEXT_JSN ]
  else  if a = 0x180C ∨ a = 0x1810 then [ JRN_COMMIT_JSN ]
  else  if a = 0x1814 ∨ a = 0x1818 then [ JRN_OLDEST_JSN ]
  else  if a = 0x181C then [ JRN_SEALED_EPOCH ]
  else  if a = 0x1820 then [ JRN_RELEASED_EPOCH ]
  else  if a = 0x1824 then [ JRN_STAGE_STAGED ]
  else  if a = 0x1828 then [ JRN_ALLOW_ALLOW ]
  else  if a = 0x182C then [ JRN_CHOLD_VCHOLD, JRN_CHOLD_CEFF ]
  else  if a = 0x1830 then [ JRN_BLOCKS_FREE, JRN_BLOCKS_BAD, JRN_BLOCKS_RING ]
  else  if a = 0x1834 then [ JRN_WEAR_MAX_PE, JRN_WEAR_MEAN_PE ]
  else  if a = 0x1838 then [ JRN_EVENTS_PROG_FAIL, JRN_EVENTS_ERASE_FAIL, JRN_EVENTS_SCRUB, JRN_EVENTS_UNCORR ]
  else  if a = 0x183C then [ JRN_REFUSED_NONCRIT, JRN_REFUSED_WAITS ]
  else  if a = 0x1840 then [ JRN_CFG_HOLD_SRC, JRN_CFG_FAULT_SEV, JRN_CFG_CHOLD_NOM ]
  else  if a = 0x1880 ∨ a = 0x1884 then [ RTC_SEC_TAI ]
  else  if a = 0x1888 then [ RTC_SUB_SUB ]
  else  if a = 0x188C then [ RTC_UTC_OFFSET ]
  else  if a = 0x1890 then [ RTC_STATUS_VALID, RTC_STATUS_DISCIPLINED, RTC_STATUS_BKP_LOW, RTC_STATUS_OSC_FAIL, RTC_STATUS_SET_EVT ]
  else  if a = 0x1894 then [ RTC_TRIM_TRIM ]
  else  if a = 0x1898 then [ RTC_ERR_RATE ]
  else []

def fieldsAt10 (a : Nat) : List Field :=
  if a = 0x1900 then [ TKT_STATUS_INFLIGHT, TKT_STATUS_HWM, TKT_STATUS_FULL, TKT_STATUS_HELD, TKT_STATUS_HELD_STREAM ]
  else  if a = 0x1904 then [ TKT_EPOCH_EPOCH ]
  else  if a = 0x1908 then [ TKT_EVENTS_REPLAYS, TKT_EVENTS_FAILED, TKT_EVENTS_VOIDED, TKT_EVENTS_TIMEOUTS ]
  else  if 0x1910 ≤ a ∧ a < 0x1930 ∧ (a - 0x1910) % 4 = 0 then [ HOST_SEQ_N ((a - 0x1910) / 4) ]
  else  if a = 0x1930 then [ HOST_RESEND_ABSORBED, HOST_RESEND_STALE, HOST_RESEND_GAPS ]
  else  if a = 0x1940 then [ FLT_STATUS_LEVEL, FLT_STATUS_MAXSEV, FLT_STATUS_DEGRADED, FLT_STATUS_DOUBLE, FLT_STATUS_OPEN, FLT_STATUS_LOST ]
  else  if a = 0x1944 then [ FLT_LAST_WORD ]
  else  if a = 0x1948 then [ FLT_FENCE_U_UNITS ]
  else  if a = 0x194C then [ FLT_FENCE_E_HOST, FLT_FENCE_E_FIELD ]
  else  if a = 0x1950 then [ FLT_PERM_U_UNITS ]
  else  if a = 0x1954 then [ FLT_PERM_E_ENGINES ]
  else  if a = 0x1958 then [ FLT_CFG_Q, FLT_CFG_K, FLT_CFG_RWIN ]
  else  if a = 0x195C then [ FLT_ESC_N, FLT_ESC_W ]
  else  if a = 0x1960 then [ FLT_CTL_CLR_PERM, FLT_CTL_HIST_CLR ]
  else  if 0x1A00 ≤ a ∧ a < 0x1E00 ∧ (a - 0x1A00) % 16 = 0 then [ FLT_HIST_WORD ((a - 0x1A00) / 16) ]
  else  if 0x1A04 ≤ a ∧ a < 0x1E04 ∧ (a - 0x1A04) % 16 = 0 then [ FLT_HIST_FRN ((a - 0x1A04) / 16) ]
  else  if 0x1A08 ≤ a ∧ a < 0x1E08 ∧ (a - 0x1A08) % 16 = 0 then [ FLT_HIST_SC ((a - 0x1A08) / 16) ]
  else  if 0x1A0C ≤ a ∧ a < 0x1E0C ∧ (a - 0x1A0C) % 16 = 0 then [ FLT_HIST_MERGES ((a - 0x1A0C) / 16), FLT_HIST_REACT ((a - 0x1A0C) / 16), FLT_HIST_ESC ((a - 0x1A0C) / 16), FLT_HIST_OPEN ((a - 0x1A0C) / 16), FLT_HIST_JRN ((a - 0x1A0C) / 16), FLT_HIST_BASE ((a - 0x1A0C) / 16) ]
  else []

def fieldsAt11 (a : Nat) : List Field :=
  if a = 0x1E00 then [ TWN_STATUS_STATE, TWN_STATUS_LINK, TWN_STATUS_DET, TWN_STATUS_CFG_MATCH, TWN_STATUS_RESYNC, TWN_STATUS_SEQ_ID, TWN_STATUS_ROLE_CHG ]
  else  if a = 0x1E04 then [ TWN_EPOCH_EPOCH ]
  else  if a = 0x1E08 ∨ a = 0x1E0C then [ TWN_WMARK_JSN ]
  else  if a = 0x1E10 ∨ a = 0x1E14 then [ TWN_PWMARK_JSN ]
  else  if a = 0x1E18 then [ TWN_HB_LOST, TWN_HB_STALE, TWN_HB_CRC_ERRS, TWN_HB_FAILOVERS ]
  else  if a = 0x1E1C then [ TWN_PEND_BYTES, TWN_PEND_LOST ]
  else  if a = 0x1E20 then [ TWN_CFG_EN, TWN_CFG_POSITION, TWN_CFG_PAIR_ID ]
  else  if a = 0x1E24 then [ TWN_CTL_RESIGN, TWN_CTL_ENROL, TWN_CTL_FORK ]
  else  if a = 0x1E28 then [ TWN_LAST_FRN ]
  else []

def fieldsAt12 (a : Nat) : List Field :=
  if a = 0x0300 then [ HP_STATUS_DOZE, HP_STATUS_BUSY, HP_STATUS_FENCED, HP_STATUS_TMO_EVT, HP_STATUS_ERR_EVT ]
  else  if a = 0x0304 then [ HP_ADDR_PRIMARY, HP_ADDR_SECONDARY, HP_ADDR_MASK, HP_ADDR_SEC_EN, HP_ADDR_ARA_EN, HP_ADDR_PEC ]
  else  if a = 0x0308 then [ HP_EVENTS_TIMEOUTS, HP_EVENTS_WAKE_NACKS, HP_EVENTS_PAGE_NACKS, HP_EVENTS_BUS_ERRS ]
  else  if a = 0x030C then [ HP_EVENTS2_PEC_ERRS, HP_EVENTS2_ARA_LOST ]
  else  if a = 0x0310 then [ HP_RDCRC_CRC ]
  else  if a = 0x1F00 then [ SB_STATUS_BUSY, SB_STATUS_MULTI, SB_STATUS_FENCED, SB_STATUS_CLEARING, SB_STATUS_WAIT_THAW ]
  else  if a = 0x1F04 then [ SB_CFG_SPEED, SB_CFG_HOST_EN ]
  else  if a = 0x1F08 then [ SB_EVENTS_ARB_LOST, SB_EVENTS_ARB_FRAME, SB_EVENTS_NACKS, SB_EVENTS_STRETCH_TMO ]
  else  if a = 0x1F0C then [ SB_EVENTS2_CLEARS, SB_EVENTS2_FRZ_OVERRUN, SB_EVENTS2_DEFERRED, SB_EVENTS2_BIT_ERRS ]
  else  if a = 0x1F10 then [ SB_LAST_ADDR, SB_LAST_ERR, SB_LAST_FRN ]
  else []

def fieldsAt13 (a : Nat) : List Field :=
  if a = 0x0000 then [ ID_VENDOR_VENDOR, ID_VENDOR_PRODUCT ]
  else  if a = 0x0004 then [ ID_HWREV_STEP, ID_HWREV_BOARD ]
  else  if a = 0x0008 ∨ a = 0x000C then [ ID_SERIAL_SERIAL ]
  else  if a = 0x0010 then [ ID_BUNDLE_VERSION ]
  else  if a = 0x0020 then [ ID_STATUS_HOST_READY, ID_STATUS_LINK, ID_STATUS_FIELD_READY, ID_STATUS_SNAP_VALID, ID_STATUS_MODE ]
  else  if a = 0x0024 then [ ID_SNAP_FRN ]
  else  if a = 0x0028 then [ ID_SNAP_AGE_AGE ]
  else  if a = 0x0030 then [ ALERT_SRC_SRC ]
  else  if a = 0x0034 then [ ALERT_EN_EN, ALERT_EN_FAULT_SEV ]
  else  if a = 0x0040 then [ TL_H_STATUS_STATE, TL_H_STATUS_EPOCH ]
  else  if a = 0x0044 then [ TL_H_EVENTS_CRC_ERRS, TL_H_EVENTS_RESENDS, TL_H_EVENTS_RETRAINS, TL_H_EVENTS_DROPS ]
  else  if a = 0x0048 ∨ a = 0x004C then [ TBF_H_LAST_HEADER ]
  else  if a = 0x0050 then [ TBF_H_REASON_REASON ]
  else  if a = 0x0100 then [ MBX_STATUS_RESULTS, MBX_STATUS_PLACES, MBX_STATUS_LREJ, MBX_STATUS_FULL ]
  else  if a = 0x0104 then [ MBX_CTL_SUBMIT, MBX_CTL_POP, MBX_CTL_RES_PAGE ]
  else  if a = 0x0108 then [ MBX_RES_INFO_STREAM, MBX_RES_INFO_LEN ]
  else  if a = 0x010C then [ MBX_LAST_SEQ_SEQ ]
  else  if a = 0x0110 then [ MBX_EVENTS_LREJS, MBX_EVENTS_RESENDS, MBX_EVENTS_VOIDS ]
  else  if 0x0140 ≤ a ∧ a < 0x01C0 then [ MBX_CMD_COMMAND (a - 0x0140), MBX_CMD_COMMAND (a - 0x0140 + 1), MBX_CMD_COMMAND (a - 0x0140 + 2), MBX_CMD_COMMAND (a - 0x0140 + 3) ]
  else  if 0x01C0 ≤ a ∧ a < 0x0200 then [ MBX_RES_RESULT (a - 0x01C0), MBX_RES_RESULT (a - 0x01C0 + 1), MBX_RES_RESULT (a - 0x01C0 + 2), MBX_RES_RESULT (a - 0x01C0 + 3) ]
  else  if a = 0x2000 then [ DRN_STATUS_AVAIL, DRN_STATUS_REQ_OPEN, DRN_STATUS_END, DRN_STATUS_UNDERRUN, DRN_STATUS_FENCED ]
  else  if a = 0x2004 then [ DRN_CFG_EN, DRN_CFG_QUAD ]
  else  if a = 0x2008 then [ DRN_CTL_GO ]
  else  if 0x2010 ≤ a ∧ a < 0x2020 then [ DRN_REQ_BLOCK (a - 0x2010), DRN_REQ_BLOCK (a - 0x2010 + 1), DRN_REQ_BLOCK (a - 0x2010 + 2), DRN_REQ_BLOCK (a - 0x2010 + 3) ]
  else  if a = 0x2020 then [ DRN_EVENTS_FORMAT_ERRS, DRN_EVENTS_UNDERRUNS, DRN_EVENTS_ABORTS ]
  else  if a = 0x2024 then [ DRN_TAG_TAG ]
  else  if a = 0x2028 ∨ a = 0x202C then [ DRN_NEXT_JSN ]
  else  if a = 0x1000 then [ TL_F_STATUS_STATE, TL_F_STATUS_EPOCH ]
  else  if a = 0x1004 then [ TL_F_EVENTS_CRC_ERRS, TL_F_EVENTS_RESENDS, TL_F_EVENTS_RETRAINS, TL_F_EVENTS_DROPS ]
  else  if a = 0x1008 ∨ a = 0x100C then [ TBF_F_LAST_HEADER ]
  else  if a = 0x1010 then [ TBF_F_REASON_REASON ]
  else []

def fieldsAt14 (a : Nat) : List Field :=
  if a = 0x1040 then [ MODE_STATUS_MODE, MODE_STATUS_BASE, MODE_STATUS_SVC_LEVEL, MODE_STATUS_RAILS_HELD, MODE_STATUS_PWR_REQ, MODE_STATUS_SHIP_N, MODE_STATUS_MODE_CHG ]
  else  if a = 0x1044 then [ START_INFO_LAST_MS, START_INFO_KIND ]
  else  if a = 0x1048 then [ CFG_STATUS_COPY, CFG_STATUS_SIGNED, CFG_STATUS_A_OK, CFG_STATUS_B_OK, CFG_STATUS_DEFAULT, CFG_STATUS_REREAD_FAIL, CFG_STATUS_SEQ ]
  else  if 0x104C ≤ a ∧ a < 0x106C ∧ (a - 0x104C) % 4 = 0 then [ CFG_DIGEST_DIGEST ((a - 0x104C) / 4) ]
  else  if a = 0x106C then [ MODE_CFG_SHIP, MODE_CFG_PWR_REQ_EN, MODE_CFG_SHIP_N_EN, MODE_CFG_SVC_TMO ]
  else  if a = 0x1070 then [ SVC_STATUS_KEY_ENROLLED, SVC_STATUS_REQ_SIGNED, SVC_STATUS_LOCKED_OUT, SVC_STATUS_FAILS ]
  else  if a = 0x1074 then [ MODE_EVENTS_SHIP_REFUSED, MODE_EVENTS_K_REFUSED, MODE_EVENTS_SVC_FAILS, MODE_EVENTS_STARTS ]
  else []

def fieldsAt15 (a : Nat) : List Field :=
  if a = 0x1080 then [ WDG_CFG_PERIOD, WDG_CFG_OPEN_SLOT ]
  else  if a = 0x1084 then [ WDG_STATUS_ARMED, WDG_STATUS_WINDOW, WDG_STATUS_SERVED, WDG_STATUS_FRAME, WDG_STATUS_LAST_SLOT, WDG_STATUS_EXPIRED_EVT, WDG_STATUS_LAST_CAUSE ]
  else  if a = 0x1088 then [ WDG_CHECKIN_SEEN, WDG_CHECKIN_EXCUSED ]
  else  if a = 0x108C then [ WDG_EVENTS_FOREIGN, WDG_EVENTS_BAD_KEY, WDG_EVENTS_DOUBLES, WDG_EVENTS_MISSING ]
  else  if a = 0x1090 then [ BIST_STATUS_GROUPS, BIST_STATUS_HALTED, BIST_STATUS_REPAIRED, BIST_STATUS_FAILED, BIST_STATUS_FUSES_USED ]
  else  if a = 0x1094 then [ BIST_FAILMAP_MAP ]
  else  if a = 0x1098 then [ BIST_REPMAP_MAP ]
  else  if a = 0x109C then [ BIST_CTL_ENG_TEST, BIST_CTL_BURN ]
  else  if a = 0x0060 then [ HWDG_CFG_PERIOD, HWDG_CFG_OPEN_SLOT ]
  else  if a = 0x0064 then [ HWDG_STATUS_ARMED, HWDG_STATUS_SEEN, HWDG_STATUS_EXPIRED_EVT, HWDG_STATUS_LAST_CAUSE ]
  else  if a = 0x0068 then [ HWDG_EVENTS_FOREIGN, HWDG_EVENTS_BAD_KEY, HWDG_EVENTS_DOUBLES, HWDG_EVENTS_MISSING ]
  else  if a = 0x006C then [ HBIST_STATUS_REPMAP, HBIST_STATUS_FAILMAP, HBIST_STATUS_FUSES_USED ]
  else  if a = 0x0070 then [ HBIST_CTL_BURN ]
  else []

def fieldsAt16 (a : Nat) : List Field :=
  if a = 0x10A0 then [ UPD_STATUS_STATE, UPD_STATUS_ENGINE, UPD_STATUS_BLOCKS, UPD_STATUS_LAST_REASON ]
  else  if a = 0x10A4 then [ UPD_NEXT_POS ]
  else  if a = 0x10A8 then [ UPD_PROB_FRAMES ]
  else  if a = 0x10AC then [ UPD_SEL_SLOT, UPD_SEL_PROB ]
  else  if a = 0x10B0 then [ UPD_EVENTS_HANDOVERS, UPD_EVENTS_FALLBACKS, UPD_EVENTS_ROLLBACKS, UPD_EVENTS_REJECTS ]
  else  if 0x10C0 ≤ a ∧ a < 0x10E4 ∧ (a - 0x10C0) % 4 = 0 then [ UPD_VER_F_VERSION ((a - 0x10C0) / 4) ]
  else  if a = 0x0080 then [ HUPD_STATUS_STATE, HUPD_STATUS_PERMAFROST, HUPD_STATUS_LAST_REASON ]
  else  if a = 0x0084 then [ HUPD_SEL_SLOT, HUPD_SEL_PROB ]
  else  if 0x0088 ≤ a ∧ a < 0x0094 ∧ (a - 0x0088) % 4 = 0 then [ HUPD_VER_H_VERSION ((a - 0x0088) / 4) ]
  else  if 0x8000 ≤ a ∧ a < 0x10000 then [ UPD_WIN_DATA (a - 0x8000), UPD_WIN_DATA (a - 0x8000 + 1), UPD_WIN_DATA (a - 0x8000 + 2), UPD_WIN_DATA (a - 0x8000 + 3) ]
  else []

def fieldsAt17 (a : Nat) : List Field :=
  if a = 0x10E4 then [ LB_CTL_IF, LB_CTL_DEPTH, LB_CTL_ROLE, LB_CTL_START, LB_CTL_SEL, LB_CTL_COUNT ]
  else  if a = 0x10E8 then [ LB_STATUS_STATE, LB_STATUS_REASON, LB_STATUS_SENT ]
  else  if a = 0x10EC then [ LB_ERRS_ERRORS ]
  else  if a = 0x10F0 then [ LB_VALUE_VALUE ]
  else  if a = 0x10F4 then [ FI_CTL_TARGET, FI_CTL_MODE, FI_CTL_SEV, FI_CTL_KIND, FI_CTL_ARM ]
  else  if a = 0x10F8 then [ FI_STATUS_INJECTED, FI_STATUS_LAST_TARGET ]
  else  if a = 0x00A0 then [ HLB_CTL_IF, HLB_CTL_DEPTH, HLB_CTL_START, HLB_CTL_COUNT ]
  else  if a = 0x00A4 then [ HLB_STATUS_STATE, HLB_STATUS_REASON, HLB_STATUS_ERRORS ]
  else []

/-- The fields in the word at the 4-byte aligned address `a`; an unlisted address has none (R428). -/
def fieldsAt (a : Nat) : List Field :=
  fieldsAt02 a ++ fieldsAt03 a ++ fieldsAt04 a ++ fieldsAt05 a ++ fieldsAt06 a ++ fieldsAt07 a ++ fieldsAt08 a ++ fieldsAt09 a ++ fieldsAt10 a ++ fieldsAt11 a ++ fieldsAt12 a ++ fieldsAt13 a ++ fieldsAt14 a ++ fieldsAt15 a ++ fieldsAt16 a ++ fieldsAt17 a

end Sys2Proof.Machine.Reg
end

