-- ==== Sys2Proof/Machine/Ops.lean ====
section
/-! DEFINITION. The operations that every meaning shares: reading and writing a register field, recording a fault word,
submitting a journal record, sending a Tabien message, drawing a free value. -/

namespace Sys2Proof.Machine

/-! Register fields. -/

/-- The key of a field in the store: 32 bits to a byte address, so that keys never meet. -/
def Field.key (f : Field) : Nat := f.addr * 32 + f.lsb

/-- The stored value at a key, or the default of an unlisted one. -/
def getKey (k d : Nat) : Regs → Nat
  | [] => d
  | (j, v) :: rs => if j = k then v else getKey k d rs

/-- The store with a key listed at a value, keys rising. -/
def putKey (k v : Nat) : Regs → Regs
  | [] => [(k, v)]
  | (j, u) :: rs => if k < j then (k, v) :: (j, u) :: rs else if k = j then (k, v) :: rs else (j, u) :: putKey k v rs

/-- The store without a key. -/
def dropKey (k : Nat) (rs : Regs) : Regs := rs.filter fun e => e.1 != k

/-- A field's present value. -/
def Hw.rd (m : Hw) (f : Field) : Nat := getKey f.key f.reset m.regs

/-- A field written: the value is held to the field's width, and the reset value is not listed. -/
def Hw.wr (m : Hw) (f : Field) (v : Nat) : Hw :=
  { m with regs := if v % 2 ^ f.width = f.reset then dropKey f.key m.regs else putKey f.key (v % 2 ^ f.width) m.regs }

/-- A field read as a flag. -/
def Hw.on (m : Hw) (f : Field) : Bool := m.rd f != 0

/-- A field read as two's complement. -/
def Hw.rdI (m : Hw) (f : Field) : Int := signedOf f.width (m.rd f)

/-- A signed value written to a field. -/
def Hw.wrI (m : Hw) (f : Field) (v : Int) : Hw := m.wr f (unsignedOf f.width v)

/-- A value written to a field and held at the field's highest value. -/
def Hw.wrSat (m : Hw) (f : Field) (v : Nat) : Hw := m.wr f (satN f.width v)

/-- A flag written to a field. -/
def Hw.wrB (m : Hw) (f : Field) (b : Bool) : Hw := m.wr f (b2n b)

/-- A saturating counter advanced by `n`. -/
def Hw.add (m : Hw) (f : Field) (n : Nat) : Hw := m.wrSat f (m.rd f + n)

/-- A saturating counter advanced by one. -/
def Hw.bump (m : Hw) (f : Field) : Hw := m.add f 1

/-- One bit of a field that holds a set. -/
def Hw.bit (m : Hw) (f : Field) (i : Nat) : Bool := bitAt (m.rd f) i

/-- One bit of a field that holds a set, written. -/
def Hw.wrBit (m : Hw) (f : Field) (i : Nat) (b : Bool) : Hw := m.wr f (putBit (m.rd f) i b)

/-- Does a field with this Survives column keep its value through a reset with this letter (R11)? A live field does:
what clears it is said where its source is reset. -/
def Surv.keeps : Surv → Letter → Bool
  | .live, _ => true
  | .all, _ => true
  | .faon, l => l == .e || l == .w || l == .p || l == .t || l == .k
  | .bkp, l => l != .v
  | .ewpt, l => l == .e || l == .w || l == .p || l == .t
  | .etk, l => l == .e || l == .t || l == .k
  | .hcore, l => l != .w && l != .p
  | .et, l => l == .e || l == .t

/-- Is a byte address on the field side (R428)? -/
def isFieldAddr (a : Nat) : Bool := 0x1000 ≤ a && a < 0x2000

/-- The field that a key of the store belongs to. -/
def fieldOfKey (k : Nat) : Option Field :=
  (Reg.fieldsAt (k / 32 / 4 * 4)).find? fun f => f.key == k

/-- The fields of one side after a reset with this letter (R11, R460): an entry stays when its field survives. -/
def Hw.resetRegs (m : Hw) (side : Side) (l : Letter) : Hw :=
  { m with regs := m.regs.filter fun e =>
      match fieldOfKey e.1 with
      | none => true
      | some f => if isFieldAddr f.addr == (side == .field) then f.surv.keeps l else true }

/-- Fields set back to their reset values: what a live field shows while its source is in reset (R11). -/
def Hw.clear (m : Hw) (fs : List Field) : Hw := fs.foldl (fun m f => m.wr f f.reset) m

/-- A fault word as its 32 bits (R331). -/
def FaultWord.bits (w : FaultWord) : Nat := w.src % 256 * 2 ^ 24 + w.kind % 256 * 2 ^ 16 + w.sev % 4 * 2 ^ 14 + w.detail % 2 ^ 14

/-- The fault word that 32 bits spell (R331). -/
def FaultWord.ofBits (v : Nat) : FaultWord :=
  { src := bitsOf v 24 8, kind := bitsOf v 16 8, sev := bitsOf v 14 2, detail := bitsOf v 0 14 }

/-- Word `k` of a history entry (R343). -/
def HistEntry.wordAt (e : HistEntry) (k : Nat) : Nat :=
  match k with
  | 0 => e.word.bits
  | 1 => e.frn
  | 2 => e.sc
  | _ => e.merges % 2 ^ 16 + e.react % 8 * 2 ^ 16 + b2n e.esc * 2 ^ 19 + b2n e.isOpen * 2 ^ 20 + b2n e.jrn * 2 ^ 21 +
      e.base % 4 * 2 ^ 22

/-- The 32-bit word at an aligned address, as the read path shows it: WO fields read 0 (R9), bits of no field 0 (R8);
the history is shown from its queue (R343). -/
def Hw.readWord (m : Hw) (a : Nat) : Nat :=
  if 0x1A00 ≤ a ∧ a < 0x1E00 then
    match m.flt.hist[(a - 0x1A00) / 16]? with
    | some e => e.wordAt (a % 16 / 4)
    | none => 0
  else (Reg.fieldsAt a).foldl (fun v f =>
    if f.acc = .wo then v
    else if f.width > 32 then v + (m.rd f % 2 ^ f.width / (if a = f.addr then 1 else 2 ^ 32)) % 2 ^ 32
    else v + m.rd f % 2 ^ f.width * 2 ^ (f.lsb + 8 * (f.addr - a))) 0

/-! Engines, domains, modes. -/

end Sys2Proof.Machine

namespace Sys2Proof

/-- The place of an engine in the order of R18. -/
def Engine.index : Engine → Nat
  | .h0 => 0 | .h1 => 1 | .h2 => 2 | .f0 => 3 | .f1 => 4 | .f2 => 5 | .f3 => 6 | .f4 => 7 | .f5 => 8 | .f6 => 9
  | .f7 => 10 | .f8 => 11

/-- Engine identifiers (R18). -/
def Engine.id : Engine → Nat
  | .h0 => 0x00 | .h1 => 0x01 | .h2 => 0x02 | .f0 => 0x10 | .f1 => 0x11 | .f2 => 0x12 | .f3 => 0x13 | .f4 => 0x14
  | .f5 => 0x15 | .f6 => 0x16 | .f7 => 0x17 | .f8 => 0x18

/-- The engine with an identifier. -/
def Engine.ofId (n : Nat) : Option Engine :=
  [Engine.h0, .h1, .h2, .f0, .f1, .f2, .f3, .f4, .f5, .f6, .f7, .f8].find? fun e => e.id == n

/-- The side an engine runs on (R18). -/
def Engine.side (e : Engine) : Side := if e.id < 0x10 then .host else .field

/-- The guard engine of a side (R19). -/
def guardOf : Side → Engine
  | .field => .f0
  | .host => .h2

/-- The place of a domain in the order of R21. -/
def Domain.index : Domain → Nat
  | .hAon => 0 | .hCore => 1 | .hPwr => 2 | .fBkp => 3 | .fAon => 4 | .fCore => 5 | .fAdc => 6 | .fPwr => 7 | .fMem => 8
  | .fLink => 9

end Sys2Proof

namespace Sys2Proof.Machine

/-- An engine's state. -/
def Hw.engine (m : Hw) (e : Engine) : EngineSt :=
  m.arch.engines.getD e.index { running := false, restarting := false, handover := false, fenced := false }

/-- An engine is away: restarting, under handover or stopped. -/
def Hw.away (m : Hw) (e : Engine) : Bool :=
  !(m.engine e).running || (m.engine e).restarting || (m.engine e).handover || (m.engine e).fenced

/-- An engine's state replaced. -/
def Hw.setEngine (m : Hw) (e : Engine) (x : EngineSt) : Hw :=
  { m with arch := { m.arch with engines := m.arch.engines.set e.index x } }

/-- A domain's state. -/
def Hw.domain (m : Hw) (d : Domain) : DomainSt :=
  m.arch.domains.getD d.index { on := false, pg := false, offReq := none }

/-- A domain's state replaced. -/
def Hw.setDomain (m : Hw) (d : Domain) (x : DomainSt) : Hw :=
  { m with arch := { m.arch with domains := m.arch.domains.set d.index x } }

/-- The live fields that a domain's units drive: they read their reset values while the domain has no power (R11, R22). -/
def darkFields : Domain → List Field
  | .hPwr =>
    [Reg.XFER_STATUS_DIR, Reg.XFER_STATUS_FLOOR, Reg.XFER_STATUS_PLIM, Reg.XFER_STATUS_DBS, Reg.XFER_STATUS_TEMP,
     Reg.XFER_POWER_P]
  | .hCore =>
    [Reg.ID_STATUS_HOST_READY, Reg.ID_STATUS_LINK, Reg.ID_STATUS_FIELD_READY, Reg.TL_H_STATUS_STATE, Reg.HP_STATUS_BUSY,
     Reg.DRN_STATUS_AVAIL, Reg.DRN_STATUS_REQ_OPEN, Reg.DRN_STATUS_END]
  | .fBkp => [Reg.RTC_STATUS_DISCIPLINED, Reg.RTC_STATUS_BKP_LOW]
  | .fCore =>
    [Reg.TL_F_STATUS_STATE, Reg.SB_STATUS_BUSY, Reg.SB_STATUS_MULTI, Reg.SB_STATUS_CLEARING, Reg.SB_STATUS_WAIT_THAW,
     Reg.CHG_STATUS_LIMITED, Reg.CHG_STATUS_WINDOW, Reg.PACK_SBS_ICHG_REQ, Reg.PACK_SBS_STATUS, Reg.PACK_SBS_V_VCHG_REQ,
     Reg.PACK_SBS_V_VOLT, Reg.UPD_STATUS_STATE, Reg.UPD_STATUS_ENGINE, Reg.UPD_STATUS_BLOCKS, Reg.UPD_NEXT_POS,
     Reg.UPD_PROB_FRAMES]
  | .fAdc =>
    [Reg.ADC_STATUS_ACTIVE, Reg.ADC_STATUS_SPARE, Reg.ADC_STATUS_REF_ON, Reg.ADC_STATUS_REF_SETTLED, Reg.ADC_STATUS_STALE,
     Reg.ADC_STATUS_FGCAL, Reg.CHG_MON_VBAT, Reg.CHG_MON_INET, Reg.CHG_TEMP_TS, Reg.RAIL_MON_A_PAIR, Reg.RAIL_MON_B_PAIR,
     Reg.RAIL_MON_C_PAIR] ++
      (List.range 48).flatMap fun i => [Reg.ADC_LAST_VALUE i, Reg.ADC_LAST_FLAGS i]
  | .fPwr =>
    [Reg.PH_STATUS_CMODE, Reg.PH_STATUS_BAND, Reg.PH_STATUS_REV, Reg.PH_STATUS_FROZEN, Reg.PH_STATUS_ENTRY, Reg.PH_STATUS_SS,
     Reg.PH_STATUS_GOV, Reg.PH_STATUS_ACTIVE, Reg.PH_STATUS_FOLDBACK, Reg.PH_VOLT_VTB, Reg.PH_VOLT_VSYS,
     Reg.BATFET_STATUS_IBAT, Reg.BATFET_STATUS_TEMP, Reg.RAIL_STATUS_POL_ON, Reg.RAIL_STATUS_POL_REG,
     Reg.RAIL_STATUS_POL_SLEW, Reg.RAIL_STATUS_HOLD_ACT, Reg.RAIL_STATUS_QR_ON] ++ [Reg.PH_CURR_I]
  | .fMem => [Reg.JRN_STATUS_READY, Reg.JRN_STATUS_SEALING]
  | .fLink => [Reg.TWN_STATUS_LINK, Reg.TWN_STATUS_CFG_MATCH, Reg.RL_STATUS_SPEED, Reg.RL_STATUS_EVQ]
  | _ => []

/-- The signals that leave a domain are at their inactive levels (R22). -/
def Hw.darken (m : Hw) (d : Domain) : Hw := m.clear (darkFields d)

/-- A domain switched on or off, with its power-good following. -/
def Hw.powerDomain (m : Hw) (d : Domain) (b : Bool) : Hw :=
  let m := m.setDomain d { on := b, pg := b, offReq := none }
  if b then m else m.darken d

/-- The mode (R436). -/
def Hw.mode (m : Hw) : Nat := m.rd Reg.MODE_STATUS_MODE

/-- Mode codes (R436). -/
def modeSTART : Nat := 0
def modeFLOAT : Nat := 1
def modeCHARGE : Nat := 2
def modeSOURCE : Nat := 3
def modeKEEPALIVE : Nat := 4
def modeSHIP : Nat := 5
def modeSERVICE : Nat := 6
def modePERMAFROST : Nat := 7

/-- Is the field side in SERVICE, permafrost included (R9, R436)? -/
def Hw.inService (m : Hw) : Bool := m.mode == modeSERVICE || m.mode == modePERMAFROST

/-- Freeze in force (R58). -/
def Hw.frozen (m : Hw) : Bool := m.on Reg.FRM_STATUS_FRZ

/-- The present frame number (R44). -/
def Hw.frn (m : Hw) : Nat := m.rd Reg.FRM_FRN_FRN

/-- `n` frames after the present one, in the 32-bit frame count (R44). -/
def Hw.frnAfter (m : Hw) (n : Nat) : Nat := (m.frn + n) % 2 ^ 32

/-- Has the frame count reached `at`? Taken in the half of the count that follows it. -/
def Hw.frnReached (m : Hw) (target : Nat) : Bool := (m.frn + 2 ^ 32 - target) % 2 ^ 32 < 2 ^ 31

/-- Time in FCLK cycles since F-AON power-up. -/
def Hw.now (m : Hw) : Nat := m.seq.tickAt + m.seq.t

/-- The slot that holds a time `t` after the tick, in a frame of `len` FCLK cycles: slot s begins at
floor(s·L/256) (R43). -/
def slotOf (len t : Nat) : Nat := if len = 0 then 0 else min 255 ((256 * t + 255) / len)

/-- The first FCLK cycle of a slot (R43). -/
def slotStart (len s : Nat) : Nat := s * len / 256

/-- The present slot and cycle as an SC field (R272). -/
def Hw.sc (m : Hw) : Nat :=
  let s := slotOf m.seq.len m.seq.t
  s * 2 ^ 24 + (m.seq.t - slotStart m.seq.len s) % 2 ^ 24

/-! Fault words. -/

/-- A bounded word buffer that counts what it loses in its last entry: room for `cap - 1` words, then one FAULT_LOST
entry of severity MINOR (R40, R334). -/
def pushWord (cap src : Nat) (w : FaultWord) (l : List FaultWord) : List FaultWord :=
  if l.length < cap - 1 then l ++ [w]
  else if l.length < cap then l ++ [{ src := src, kind := Kind.FAULT_LOST.code, sev := 1, detail := 1 }]
  else l.dropLast ++ [{ src := src, kind := Kind.FAULT_LOST.code, sev := 1,
                        detail := satN 14 ((l.getLastD { src := src, kind := 0, sev := 1, detail := 0 }).detail + 1) }]

/-- A word enters the collector's input stage with its time (R334). Words that are only counted have none of their own. -/
def Hw.stampW (m : Hw) (x : Stamp) (w : FaultWord) : Hw :=
  let m' := { m with flt := { m.flt with
      input := pushWord 32 0x10 w m.flt.input
      inputAt := if m.flt.input.length < 32 then m.flt.inputAt ++ [x] else m.flt.inputAt } }
  if 32 ≤ m.flt.input.length + 1 then m'.bump Reg.FLT_STATUS_LOST else m'

/-- A word recorded on the field side. -/
def Hw.faultW (m : Hw) (w : FaultWord) : Hw := m.stampW { frn := m.frn, sc := m.sc, host := false } w

/-- A fault recorded on the field side by the source its table names. -/
def Hw.fault (m : Hw) (k : FaultKind) (detail : Nat) : Hw :=
  m.faultW { src := k.src, kind := k.code, sev := k.sev, detail := satN 14 detail }

/-- A fault recorded on the field side by a named source. -/
def Hw.faultAt (m : Hw) (k : FaultKind) (src detail : Nat) : Hw :=
  m.faultW { src := src, kind := k.code, sev := k.sev, detail := satN 14 detail }

/-- A code waits on TSB_HALERT: QREQ codes and the swap code go ahead of every other waiting code (R17). -/
def Hw.haltCode (m : Hw) (c : HCode) : Hw :=
  { m with arch := { m.arch with sb := { m.arch.sb with
      hCodes := if c = .qreqRequest ∨ c = .qreqRelease ∨ c = .fastRoleSwap
        then m.arch.sb.hCodes.filter (fun d => d = .qreqRequest ∨ d = .qreqRelease ∨ d = .fastRoleSwap) ++ [c] ++
             m.arch.sb.hCodes.filter (fun d => ¬ (d = .qreqRequest ∨ d = .qreqRelease ∨ d = .fastRoleSwap))
        else m.arch.sb.hCodes ++ [c] } } }

/-- A code raised on TSB_HALERT, unless it waits there already (R17). -/
def Hw.haltOnce (m : Hw) (c : HCode) : Hw := if m.arch.sb.hCodes.contains c then m else m.haltCode c

/-- A code waits on TSB_FALERT (R17). -/
def Hw.faltCode (m : Hw) (c : FCode) : Hw :=
  { m with arch := { m.arch with sb := { m.arch.sb with fCodes := m.arch.sb.fCodes ++ [c] } } }

/-- A code of TSB_HALERT is the next to go out (R17). -/
def Hw.hCodeNext (m : Hw) (c : HCode) : Bool := m.arch.sb.hCodes.head? == some c

/-- A code of TSB_FALERT is the next to go out (R17). -/
def Hw.fCodeNext (m : Hw) (c : FCode) : Bool := m.arch.sb.fCodes.head? == some c

/-- A code of TSB_HALERT has been received: it waits no more. -/
def Hw.takeHCode (m : Hw) (c : HCode) : Hw :=
  { m with arch := { m.arch with sb := { m.arch.sb with hCodes := m.arch.sb.hCodes.erase c } } }

/-- A code of TSB_FALERT has been received. -/
def Hw.takeFCode (m : Hw) (c : FCode) : Hw :=
  { m with arch := { m.arch with sb := { m.arch.sb with fCodes := m.arch.sb.fCodes.erase c } } }

/-- What a code of TSB_HALERT does as it arrives: codes arrive in the order in which they go out (R17). -/
def Hw.onHCode (m : Hw) (c : HCode) (f : Hw → Hw) : Hw := if m.hCodeNext c then f (m.takeHCode c) else m

/-- What a code of TSB_FALERT does as it arrives (R17). -/
def Hw.onFCode (m : Hw) (c : FCode) (f : Hw → Hw) : Hw := if m.fCodeNext c then f (m.takeFCode c) else m

/-- Bits that newly become set in ALERT_SRC assert H29 H_ALERT_N where ALERT_EN enables them (R421); in host permafrost
RESULT needs no enable (R521). -/
def Hw.alertSet (m : Hw) (b : Nat) : Hw :=
  let fresh := !m.bit Reg.ALERT_SRC_SRC b &&
    ((m.bit Reg.ALERT_EN_EN b && m.host.hReady) || (m.upd.hostFrost && b == 0))
  let m := m.wrBit Reg.ALERT_SRC_SRC b true
  if fresh then { m with host := { m.host with alert := true } } else m

/-- H29 H_ALERT_N is released when no enabled bit remains set (R421). -/
def Hw.alertSettle (m : Hw) : Hw :=
  if m.rd Reg.ALERT_SRC_SRC &&& (m.rd Reg.ALERT_EN_EN ||| b2n m.upd.hostFrost) = 0 then { m with host := { m.host with alert := false } } else m

/-- A fault word of the engine in probation (R518): a trap, a missed check-in, or a word of severity MAJOR or higher fails
the probation. -/
def Hw.probHeard (m : Hw) (w : FaultWord) : Hw :=
  let cause : Option Nat :=
    if w.kind = Kind.ENGINE_TRAP.code then some 0 else if w.kind = Kind.CHECKIN_MISSING.code then some 1
    else if 2 ≤ w.sev then some 2 else none
  match m.upd.prob, Engine.ofId w.src with
  | some h, some e =>
    if h.engine = e.index ∧ m.upd.probDue = none then { m with upd := { m.upd with probDue := cause } } else m
  | _, _ => m

/-- A word recorded on the host side: it waits in the host fault buffer, the host alert code is raised, and an alert
follows where its severity reaches ALERT_EN.FAULT_SEV (R40, R421). -/
def Hw.hfaultW (m : Hw) (w : FaultWord) : Hw :=
  let m := ({ m with flt := { m.flt with hostBuf := pushWord 16 0x3E w m.flt.hostBuf } } : Hw).probHeard w
  let m := m.haltCode .hostAlert
  if m.rd Reg.ALERT_EN_FAULT_SEV ≤ w.sev then m.alertSet 1 else m

/-- A fault recorded on the host side by the source its table names. -/
def Hw.hfault (m : Hw) (k : FaultKind) (detail : Nat) : Hw :=
  m.hfaultW { src := k.src, kind := k.code, sev := k.sev, detail := satN 14 detail }

/-- A fault recorded on the host side by a named source. -/
def Hw.hfaultAt (m : Hw) (k : FaultKind) (src detail : Nat) : Hw :=
  m.hfaultW { src := src, kind := k.code, sev := k.sev, detail := satN 14 detail }

/-! Tickets. -/

/-- The limit of a stream (R315); reserved streams take none. -/
def streamLimit (s : Nat) : Nat :=
  if s = 0 then 128 else if s = 1 then 16 else if s = 2 then 32 else if s = 3 then 4 else if s = 4 then 1
  else if s = 5 then 2 else if 8 ≤ s ∧ s ≤ 15 then 16 else if s = 16 ∨ s = 17 then 64 else if s = 18 ∨ s = 19 then 16
  else if s = 20 ∨ s = 21 then 64 else 0

/-- A stream whose tickets wait only for those of their own channel (R315, R316). -/
def perChannel (s : Nat) : Bool := 16 ≤ s && s ≤ 19

/-- A stream whose tickets retire as they leave RUNNING. -/
def freeStream (s : Nat) : Bool := s = 2 || s = 3

/-- The ticket with a number. -/
def Hw.ticket (m : Hw) (n : Nat) : Option Ticket := m.tkt.table.find? (·.num == n)

/-- How many tickets a stream holds. -/
def Hw.streamCount (m : Hw) (s : Nat) : Nat := (m.tkt.table.filter (·.stream == s)).length

/-- The least free ticket number, by at most `fuel` steps from `n`. -/
def freeNum (table : List Ticket) : Nat → Nat → Nat
  | 0, n => n
  | fuel + 1, n => if table.any (·.num == n) then freeNum table fuel (n + 1) else n

/-- `TKT_STATUS` follows the table (R343). -/
def Hw.showTickets (m : Hw) : Hw :=
  let n := m.tkt.table.length
  let held := m.tkt.table.find? (·.state == .held)
  let m := (m.wr Reg.TKT_STATUS_INFLIGHT n).wr Reg.TKT_STATUS_HWM (max n (m.rd Reg.TKT_STATUS_HWM))
  ((m.wrB Reg.TKT_STATUS_FULL (m.tkt.waits != [] || m.sub.any (·.tkt.isNone))).wrB Reg.TKT_STATUS_HELD held.isSome).wr Reg.TKT_STATUS_HELD_STREAM
    (match held with | some t => t.stream | none => 0)

/-- The unit that a field loop-back takes out of service (R527, R528). -/
def lbUnit (iface : Nat) : Nat :=
  if iface = 1 then 0x32 else if iface = 2 then 0x33 else if iface = 3 then 0x34 else if iface = 4 then 0x37
  else if iface = 5 then 0x28 else 0x3C

/-- A ticket would issue to the unit of a loop-back that runs (R528). The run of the sensor bus at L4 is a transaction of the
host's own (R527). -/
def Hw.lbHolds (m : Hw) (stream unit : Nat) : Bool :=
  let i := m.rd Reg.LB_CTL_IF
  m.rd Reg.LB_STATUS_STATE == 2 &&
    (if i = 5 then stream == 16 || stream == 17 else if i = 3 then stream == 19
     else if i = 4 then stream == 18 && m.rd Reg.LB_CTL_DEPTH != 3 else lbUnit i == unit)

/-- May a ticket issue (R314, R315)? At most 32 injected conversions are pending, and the queue has a place for each (R251, R253). Only durable tickets and appends of critical records use the last 64 entries. -/
def Hw.mayIssue (m : Hw) (stream : Nat) (priv : Bool) : Bool :=
  !m.tkt.stopped && decide (m.tkt.table.length < (if priv then 512 else 448)) &&
    decide (m.streamCount stream < streamLimit stream) &&
    (stream != 16 || decide ((m.adc.inj.filter fun (c : Conv) => c.result.isNone).length < 32 ∧
      m.adc.queue.length + m.adc.inj.length < 1024))

/-- Room for one more durable copy in retention RAM (R36, R41). -/
def Hw.copyRoom (m : Hw) : Bool := decide ((m.tkt.table.filter (·.dur)).length < 128)

/-- A ticket can issue to a unit: there is an entry, for a durable one also room for its copy, and no loop-back holds the unit
(R314, R315, R532). -/
def Hw.canIssue (m : Hw) (stream unit : Nat) (dur crit : Bool) : Bool :=
  m.mayIssue stream (dur || crit) && (!dur || m.copyRoom) && !m.lbHolds stream unit

/-- A ticket issues, with its number; none where no entry is usable (R312, R314). -/
def Hw.issue (m : Hw) (stream owner chan unit : Nat) (dur idem crit : Bool) : Option (Hw × Nat) :=
  if m.canIssue stream unit dur crit then
    let n := freeNum m.tkt.table 512 0
    let o := m.tkt.orders.getD stream 0
    let t : Ticket := { num := n, stream := stream, owner := owner, chan := chan, unit := unit, state := .issued
                        acc := false, dur := dur, idem := idem, replay := 0, epoch := m.rd Reg.TKT_EPOCH_EPOCH
                        order := o, at_ := m.now, thaw0 := m.seq.thaw }
    some (({ m with tkt := { m.tkt with table := m.tkt.table ++ [t]
                                        orders := m.tkt.orders.set stream ((o + 1) % 65536) } }).showTickets, n)
  else none

/-- A ticket changed in its place. -/
def Hw.setTicket (m : Hw) (n : Nat) (f : Ticket → Ticket) : Hw :=
  ({ m with tkt := { m.tkt with table := m.tkt.table.map fun (t : Ticket) => if t.num = n then f t else t } }).showTickets

/-! Journal records. -/

/-- The TAI time and subsecond at the present cycle: the count at the tick and the time since it (R303). -/
def Hw.timeNow (m : Hw) : Nat × Nat :=
  let u := m.rd Reg.RTC_SUB_SUB + (m.seq.t * 32768 + m.jrn.rtcRem) / 200000000
  (m.rd Reg.RTC_SEC_TAI + u / 32768, u % 32768)

/-- A record of a kind with this payload, at the present time (R272, R273): reserved payload bytes are 0. -/
def Hw.mkRec (m : Hw) (k : RecKind) (src : Nat) (payload : List Byte) : JRec :=
  { kind := k.code
    size := if k.size = 0 then min 256 ((28 + payload.length + 7) / 8 * 8) else k.size
    flags := b2n k.crit + 2 * m.rd Reg.RTC_STATUS_VALID
    src := src, jsn := 0, frn := m.frn
    tai := m.timeNow.1, sub := m.timeNow.2
    payload := padTo ((if k.size = 0 then min 256 ((28 + payload.length + 7) / 8 * 8) else k.size) - 28) payload }

/-- CRITICAL of a record (R272). -/
def JRec.crit (r : JRec) : Bool := r.flags % 2 = 1

/-- A record with the CRITICAL of its kind, whatever its submitter states (R273). -/
def JRec.kinded (r : JRec) : JRec :=
  { r with flags := r.flags / 2 * 2 + b2n (JR.critical.any fun k => k.code == r.kind) }

/-- The submitter of a record, without the position bit of R359. -/
def srcEngine (src : Nat) : Nat := if 0x80 ≤ src then src - 0x80 else src

/-- JRN_APPEND tickets issue for the submitted records, in their order, while they can (R314). -/
def Hw.issueAppends (m : Hw) : Nat → Hw
  | 0 => m.showTickets
  | fuel + 1 =>
    match m.sub.find? (·.tkt.isNone) with
    | none => m.showTickets
    | some x =>
      match m.issue 0 0x16 0 0x35 false true x.r.crit with
      | none => m.showTickets
      | some (m', n) =>
        let k := (m.sub.takeWhile (·.tkt.isSome)).length
        ({ m' with sub := m.sub.set k { x with tkt := some n } } : Hw).issueAppends fuel

/-- A record handed to the staging controller, which accepts it when it fits (R281). -/
def Hw.submitRec (m : Hw) (r : JRec) : Hw := ({ m with sub := m.sub ++ [Append.mk r none] }).issueAppends 1

/-- A record submitted by an engine or unit. -/
def Hw.record (m : Hw) (k : RecKind) (src : Nat) (payload : List Byte) : Hw := m.submitRec (m.mkRec k src payload)

/-- IDEM at issue, from the stream and the operation (R315). -/
def idemOf (stream : Nat) (op : Bool) : Bool :=
  if (8 ≤ stream ∧ stream ≤ 15) ∨ stream = 18 then op else stream != 19

/-- The engine with an ID is under handover: the issue of new tickets to it waits (R514). -/
def Hw.handingOver (m : Hw) (id : Nat) : Bool := (Engine.ofId id).any fun e => (m.engine e).handover

/-- An engine's ticket issues, with the work that it stands for: an injected conversion or a bus transaction
(R251, R314, R391). A smart-pack read is a Read Word, or a Block Read for DeviceChemistry (R393), which is given the room of
the longest block, 32 bytes and their count (DESIGN CHOICE, notes/assumptions/123.md). -/
def Hw.issueWork (m : Hw) (w : IssueWait) : Option Hw :=
  if m.handingOver w.owner then none else
  match m.issue w.stream w.owner w.chan w.unit w.dur (idemOf w.stream w.idem) w.crit with
  | none => none
  | some (m', n) =>
    some (if w.stream = 16 then { m' with adc := { m'.adc with inj := m'.adc.inj ++ [Conv.mk n w.chan w.code none] } }
      else if w.stream = 18 then { m' with bus := { m'.bus with
          ops := m'.bus.ops ++ [BusOp.mk n (w.chan % 128) w.idem 1 (if !w.idem then 0 else if w.code = 0x22 then 33 else 2)
            (m'.on Reg.CHG_CFG_PEC) w.code none false false m'.now false] } }
      else m')

/-- An engine issues a ticket (R314): an issue that finds no usable entry waits, and later issues wait behind it. A
reserved stream issues none (R315), and a conversion of a reserved tag is refused (R245). -/
def Hw.issueFor (m : Hw) (w : IssueWait) : Hw :=
  if streamLimit w.stream = 0 ∨ (w.stream = 16 ∧ 47 < w.chan) then m
  else if m.tkt.waits.any (fun (x : IssueWait) => x.owner == w.owner) then
    ({ m with tkt := { m.tkt with waits := m.tkt.waits ++ [w] } }).showTickets
  else
    match m.issueWork w with
    | some m' => m'
    | none => ({ m with tkt := { m.tkt with waits := m.tkt.waits ++ [w] } }).showTickets

/-- Issues that have waited are made, oldest first, while they can be (R314). -/
def Hw.serveWaits (m : Hw) : Nat → Hw
  | 0 => m.showTickets
  | fuel + 1 =>
    match m.tkt.waits with
    | [] => m.showTickets
    | w :: ws =>
      match m.issueWork w with
      | none => m.showTickets
      | some m' => ({ m' with tkt := { m'.tkt with waits := ws } } : Hw).serveWaits fuel

/-- A ticket leaves the table (R316); issues and appends that have waited for an entry are made. -/
def Hw.dropTicket (m : Hw) (n : Nat) : Hw :=
  (({ m with tkt := { m.tkt with table := m.tkt.table.filter fun t => t.num != n } }).serveWaits 1).issueAppends 1

/-- The bytes of a record (R272). -/
def JRec.body (r : JRec) : List Byte :=
  le 1 r.kind ++ le 1 (r.size / 8) ++ le 1 r.flags ++ le 1 r.src ++ le 8 r.jsn ++ le 4 r.frn ++ le 6 r.tai ++ le 2 r.sub ++
    r.payload

/-- The bytes of a record with its CRC-32C (R272). -/
def JRec.bytes (r : JRec) : List Byte := r.body ++ le 4 (crc32c r.body)

/-- The record that bytes spell, its length in 8-byte units at offset 1 (R272). -/
def JRec.ofBytes (bs : List Byte) : JRec :=
  { kind := numAt bs 0 1, size := 8 * numAt bs 1 1, flags := numAt bs 2 1, src := numAt bs 3 1, jsn := numAt bs 4 8
    frn := numAt bs 12 4, tai := numAt bs 16 6, sub := numAt bs 22 2
    payload := slice bs 24 (8 * numAt bs 1 1 - 28) }

/-! Tabien messages. -/

/-- Priority of a type in its direction's admission order (R405); smaller goes first. -/
def msgRank (type : Nat) : Nat :=
  match type with
  | 0x13 => 2 | 0x18 => 3 | 0x17 => 4 | 0x11 => 5 | 0x16 => 6 | 0x12 => 7 | 0x14 => 8 | 0x15 => 9
  | 0x20 => 2 | 0x21 => 3 | 0x22 => 4 | 0x10 => 5 | 0x23 => 6 | 0x24 => 7 | 0x25 => 8 | 0x26 => 9 | _ => 10

/-- A message put in the waiting list behind those of its own or a higher priority (R405). -/
def insertMsg (x : Msg) : List Msg → List Msg
  | [] => [x]
  | y :: ys => if msgRank x.type < msgRank y.type then x :: y :: ys else y :: insertMsg x ys

/-- The oldest waiting message enters the send queue with the next SEQ (R402, R405). -/
def LinkEnd.push (e : LinkEnd) : LinkEnd :=
  match e.waiting with
  | [] => e
  | x :: ws => { e with queue := e.queue ++ [{ x with seq := e.txNext }], waiting := ws, txNext := (e.txNext + 1) % 65536 }

/-- Is there a waiting message, and room in the send queue (R405)? -/
def LinkEnd.canPush (e : LinkEnd) : Bool := e.waiting != [] && decide (e.queue.length < 64)

/-- The host side's waiting messages enter its send queue; they hold no ticket (R405). -/
def LinkEnd.takeIn (e : LinkEnd) : Nat → LinkEnd
  | 0 => e
  | fuel + 1 => if e.canPush then e.push.takeIn fuel else e

/-- The field side's waiting messages enter its send queue, each with a ticket of TM_F2H (R405, R315). -/
def Hw.admitF (m : Hw) : Nat → Hw
  | 0 => m
  | fuel + 1 =>
    if m.host.f.canPush then
      match m.issue 20 0x10 0 0x32 false true false with
      | none => m
      | some (m', n) =>
        let m' := m'.setTicket n fun t => { t with state := .running }
        ({ m' with host := { m'.host with f := m'.host.f.push } } : Hw).admitF fuel
    else m

/-- The stream a message type carries (R402, R408). -/
def streamOfType (type : Nat) : Nat := if 0x11 ≤ type ∧ type ≤ 0x18 then 20 else 0

/-- A message sent by the field side. -/
def Hw.sendF (m : Hw) (type : Nat) (payload : List Byte) : Hw :=
  ({ m with host := { m.host with f := { m.host.f with
      waiting := insertMsg (Msg.mk type (streamOfType type) 0 0 payload) m.host.f.waiting } } }).admitF 1

/-- H2 HOSTPORT holds each unanswered command by its host sequence number and by the Tabien SEQ of its TM_CMD, once that
has entered the send queue (R37). -/
def Hw.noteSeqs (m : Hw) : Hw :=
  let seqOf := fun (p : Place) => (m.host.h.queue.find? fun (x : Msg) =>
    x.type == 0x10 && x.stream == 8 + p.stream && numAt x.payload 0 4 == p.seq).map Msg.seq
  { m with host := { m.host with mbx := { m.host.mbx with places := m.host.mbx.places.map fun (p : Place) =>
      if p.answered then p else { p with tseq := (seqOf p).or p.tseq } } } }

/-- A message sent by the host side; a TM_CMD travels on its own stream. -/
def Hw.sendH (m : Hw) (type stream : Nat) (payload : List Byte) : Hw :=
  let m := { m with host := { m.host with h := ({ m.host.h with
      waiting := insertMsg (Msg.mk type stream 0 0 payload) m.host.h.waiting } : LinkEnd).takeIn 1 } }
  if type = 0x10 then m.noteSeqs else m

/-- A journal record that a host engine submits: it crosses as TM_JREC with JSN 0 (R406, R510). -/
def Hw.recordH (m : Hw) (k : RecKind) (src : Nat) (payload : List Byte) : Hw := m.sendH 0x24 0 (m.mkRec k src payload).bytes

/-- The oldest delivered message of a type, and the inbox without it. -/
def takeMsg (type : Nat) : List Msg → Option (Msg × List Msg)
  | [] => none
  | x :: xs =>
    if x.type = type then some (x, xs)
    else match takeMsg type xs with
      | none => none
      | some (y, ys) => some (y, x :: ys)

/-! Free values. -/

/-- The next free value, below a bound (DESIGN CHOICE, notes/assumptions/4.md). -/
def Hw.freeBelow (m : Hw) (bound : Nat) : Nat := if bound = 0 then 0 else Config.freeValue m.freeCtr % bound

/-- The free-value counter advanced. -/
def Hw.drew (m : Hw) : Hw := { m with freeCtr := m.freeCtr + 1 }

/-! A command's effect on everything but the queue. -/

/-- The state with its hardware changed and its queue kept. -/
def State.on (s : State) (f : Hw → Hw) : State := { s with hw := f s.hw }

/-- A meaning that has this effect. -/
def effect (s : State) (f : Hw → Hw) : Host.Outcome State Fault Refusal := .next (s.on f)

end Sys2Proof.Machine
end

