-- ==== Sys2Proof/Machine/Latches.lean ====
section
/-! DEFINITION. Set-point latches (R28 to R33): live value, shadow, range, owner, and the writes of hardware and of the
engine that owns a latch. -/

namespace Sys2Proof

/-- The index of a latch, in the order of R28 (DEDUCED, notes/assumptions/12.md). -/
def LatchId.index : LatchId → Nat
  | .intakeLim => 0 | .xferCtl => 1 | .vsysSet => 2 | .vsysMin => 3 | .phTrim n => 4 + n | .chgV => 8 | .chgI => 9
  | .chgEn => 10 | .revSet => 11 | .polSet n => 12 + n | .qrSet n => 15 + n | .kaSet => 17 | .frzPol => 18

/-- The engine that owns a latch (R28); none for the latch no engine can write, F0 SUPERVISOR and the frame sequencer
standing in hardware for `FRZ_POL`. -/
def LatchId.owner : LatchId → Option Engine
  | .intakeLim | .xferCtl => some .h1
  | .vsysSet | .vsysMin | .revSet => some .f0
  | .phTrim n => if n.val < 2 then some .f2 else some .f3
  | .chgV | .chgI | .chgEn => some .f1
  | .polSet _ | .qrSet _ => some .f4
  | .kaSet | .frzPol => none

/-- The unit of the loop that a latch drives (R31). -/
def LatchId.unit : LatchId → Nat
  | .intakeLim => 0x31 | .xferCtl => 0x30 | .vsysSet | .vsysMin | .revSet => 0x20 | .phTrim n => 0x20 + n
  | .chgV | .chgI | .chgEn => 0x27 | .polSet n => 0x24 + n | .qrSet _ | .kaSet => 0x3F | .frzPol => 0x3C

end Sys2Proof

namespace Sys2Proof.Machine

/-- A latch's live value. `PH_TRIMn` holds TRIM in [5:0] and ENTRY in [15:8]. -/
def Hw.latch (m : Hw) : LatchId → Nat
  | .intakeLim => m.rd Reg.INTAKE_LIM_EFF_LIM
  | .xferCtl => m.arch.xferCtl
  | .vsysSet => m.rd Reg.VSYS_SET_SET
  | .vsysMin => m.rd Reg.VSYS_MIN_MIN
  | .phTrim n => m.rd (Reg.PH_TRIM_TRIM n) + 256 * m.rd (Reg.PH_TRIM_ENTRY n)
  | .chgV => m.rd Reg.CHG_V_SET
  | .chgI => m.rd Reg.CHG_I_SET
  | .chgEn => m.rd Reg.CHG_STATUS_EN
  | .revSet => m.rd Reg.REV_SET_SET
  | .polSet n => m.rd (Reg.POL_SET_SET n)
  | .qrSet n => m.rd (Reg.QR_SET_SET n)
  | .kaSet => m.rd Reg.KA_SET_CODE + 16 * m.rd Reg.KA_SET_EN + 32 * m.rd Reg.KA_SET_TWIN
  | .frzPol => m.arch.frzPol

/-- A latch's live value replaced. -/
def Hw.setLatchLive (m : Hw) (l : LatchId) (v : Nat) : Hw :=
  match l with
  | .intakeLim => m.wr Reg.INTAKE_LIM_EFF_LIM v
  | .xferCtl => { m with arch := { m.arch with xferCtl := v } }
  | .vsysSet => m.wr Reg.VSYS_SET_SET v
  | .vsysMin => m.wr Reg.VSYS_MIN_MIN v
  | .phTrim n => (m.wr (Reg.PH_TRIM_TRIM n) (bitsOf v 0 6)).wr (Reg.PH_TRIM_ENTRY n) (bitsOf v 8 8)
  | .chgV => m.wr Reg.CHG_V_SET v
  | .chgI => m.wr Reg.CHG_I_SET v
  | .chgEn => m.wr Reg.CHG_STATUS_EN v
  | .revSet => m.wr Reg.REV_SET_SET v
  | .polSet n => m.wr (Reg.POL_SET_SET n) v
  | .qrSet n => m.wr (Reg.QR_SET_SET n) v
  | .kaSet => ((m.wr Reg.KA_SET_CODE (bitsOf v 0 2)).wr Reg.KA_SET_EN (bitsOf v 4 1)).wr Reg.KA_SET_TWIN (bitsOf v 5 1)
  | .frzPol => { m with arch := { m.arch with frzPol := v } }

/-- A latch written with its shadow (R31). A write of `CHG_I` or `CHG_EN` blanks the loss-of-current detector for 1 ms
(R163). -/
def Hw.setLatch (m : Hw) (l : LatchId) (v : Nat) : Hw :=
  let m := m.setLatchLive l v
  let m := if l = .chgI ∨ l = .chgEn then { m with chg := { m.chg with blankTo := max m.chg.blankTo (m.now + 200000) } } else m
  { m with arch := { m.arch with shadows := m.arch.shadows.filter (fun x => x.latch ≠ l) } }

/-- A latch whose parity check has failed (R31). -/
def Hw.latchBad (m : Hw) (l : LatchId) : Bool := m.arch.shadows.any fun x => x.latch = l && x.bad

/-- A written value held to the range of the loop (R30), with whether it was out of range. -/
def clampLatch (l : LatchId) (v : Nat) : Nat × Bool :=
  let c := match l with
    | .intakeLim => clampN 5 600 v
    | .xferCtl => clampN 0 2 v
    | .vsysSet => clampN 500 3000 v
    | .vsysMin => clampN 500 2400 v
    | .phTrim _ =>
      unsignedOf 6 (clampI (-16) 16 (signedOf 6 v)) + 256 * clampN 32 128 (bitsOf v 8 8)
    | .chgV => clampN 0 2990 v
    | .chgI => clampN 0 320 v
    | .chgEn => clampN 0 1 v
    | .revSet => clampN 370 1610 v
    | .polSet _ => if v = 0 then 0 else clampN 120 1100 v
    | .qrSet _ => if v = 0 then 0 else clampN 120 1200 v
    | .kaSet => v
    | .frzPol => clampN 0 63 v
  (c, c != v)

/-- A fault recorded on the side that the source belongs to. -/
def Hw.sideFault (m : Hw) (side : Side) (k : FaultKind) (src detail : Nat) : Hw :=
  match side with
  | .host => m.hfaultAt k src detail
  | .field => m.faultAt k src detail

/-- The value a loop regulates to: the shadow where the parity check has failed (R31). -/
def Hw.loopValue (m : Hw) (l : LatchId) : Nat :=
  match m.arch.shadows.find? (fun x => x.latch = l) with
  | some x => x.value
  | none => m.latch l

/-- `CHG_EN` as the charge loop follows it (R31). -/
def Hw.chgEn (m : Hw) : Bool := m.loopValue .chgEn != 0

/-- A write stored in a latch (R30): held to the range of the loop, with LATCH_CLAMP in the owner's name where it was
outside. -/
def Hw.storeLatch (m : Hw) (l : LatchId) (v : Nat) : Hw :=
  let c := clampLatch l v
  let m := m.setLatch l c.1
  match l.owner with
  | some o => if c.2 then m.sideFault o.side Kind.LATCH_CLAMP o.id l.index else m
  | none => m

/-- A write that a latch takes while its parity check has not failed (R30, R31): of the configuration at a start, or of
hardware. -/
def Hw.putLatch (m : Hw) (l : LatchId) (v : Nat) : Hw := if m.latchBad l then m else m.storeLatch l v

/-- The owner of a latch is under handover, in reset or fenced (R32, R33, R340). -/
def Hw.ownerAway (m : Hw) (l : LatchId) : Bool := match l.owner with | some o => m.away o | none => false

/-- A write by the engine that owns a latch (R30 to R33, R340): none while that engine is away. -/
def Hw.ownLatch (m : Hw) (l : LatchId) (v : Nat) : Hw := if m.ownerAway l then m else m.putLatch l v

end Sys2Proof.Machine
end

