-- ==== Sys2Proof/Machine/Edge.lean ====
section
/-! DEFINITION. What several units do together at an edge of freeze, of the mode or of a source: the BATFET's state,
freeze and thaw, refusal, the mode and the charge enable. -/

namespace Sys2Proof.Machine

/-- The length of the last closed frame, µs (R74). -/
def Hw.lastUs (m : Hw) : Nat := m.rd Reg.FRM_LEN_LAST / 100

/-- A pack is present: the cell-presence comparator (R139), or a probe that found one (R142). One that has been declared
removed is not, until it is detected again or the comparator has released (R125, R163). -/
def Hw.packIn (m : Hw) : Bool := m.chg.found || (m.on Reg.CHG_STATUS_PRESENT && !m.chg.removed)

/-- The power state of the mode: in SERVICE, the state beneath it (R436). -/
def Hw.powerMode (m : Hw) : Nat :=
  if m.mode = modeSERVICE then (if m.rd Reg.MODE_STATUS_BASE = 1 then modeCHARGE else modeFLOAT) else m.mode

/-- The BATFET state that R125 gives: 0 OPEN, 1 IDEAL_DIODE, 2 FULL_ON, 3 LINEAR_VMIN, 4 LATCHED_OFF. It is OPEN in the
dead-battery start mode (R132), and FULL_ON from pre-freeze to the end of thaw entry. -/
def Hw.batfetState (m : Hw) : Nat :=
  if m.bat.latched then 4
  else if m.modes.shipCell || !(m.domain .fPwr).pg || !(m.packIn || m.chg.probe) || m.bat.ocpOpen ||
    m.on Reg.XFER_STATUS_DBS then 0
  else if m.mode = modeKEEPALIVE then 1
  else if m.frozen || m.bat.entryOn || m.mode = modeSOURCE then 2
  else if m.powerMode = modeCHARGE ∧ m.chgEn then
    (if m.loopValue .vsysMin * 10 ≤ m.rd Reg.CHG_MON_VBAT then 2 else 3)
  else 1

/-- The BATFET follows its conditions (R125). -/
def Hw.batfet (m : Hw) : Hw := m.wr Reg.BATFET_STATUS_STATE m.batfetState

/-- A thaw entry whose 8 cycles have run is over (R119), and with it the BATFET's FULL_ON (R125). -/
def Hw.entryDone (m : Hw) : Hw :=
  match m.ph.entryEnd with
  | some e =>
    if e ≤ m.now then
      ({ m.wr Reg.PH_STATUS_ENTRY 0 with
        ph := { m.ph with entryEnd := none, entryFull := false }, bat := { m.bat with entryOn := false } } : Hw).batfet
    else m
  | none => m

/-- The hardware `t` FCLK cycles after the present tick; the cycles of thaw are counted (R315). -/
def Hw.atT (m : Hw) (t : Nat) : Hw :=
  ({ m with seq := { m.seq with t := t, thaw := if m.frozen then m.seq.thaw else m.seq.thaw + (t - m.seq.t) } } : Hw).entryDone

/-- The capacitance of CBUF that the sums use, 10 µF units: the lower of the measured value, once one is published, and
the nominal value (R88). No message carries the measured value and its VALID bit to the field side, whose sums read them as
they stand on the host side (DEDUCED, notes/assumptions/106.md). -/
def Hw.cbufC (m : Hw) : Nat :=
  if m.on Reg.INTAKE_CBUF_C_VALID then min (m.rd Reg.INTAKE_CBUF_C_CEFF) m.chg.cbufNom else m.chg.cbufNom

/-- `CHG_EN` cleared by hardware (R28): the charge reference falls, and the BATFET follows (R133). The clear reaches the
shadow of a latch whose parity has failed too, so that the loop stops (DESIGN CHOICE, notes/assumptions/117.md). -/
def Hw.clearChgEn (m : Hw) : Hw :=
  ({ m.wr Reg.CHG_STATUS_EN 0 with arch := { m.arch with shadows := m.arch.shadows.map fun (x : Shadow) =>
      if x.latch = .chgEn then { x with value := 0 } else x } } : Hw).batfet

/-- The freeze policy of POL rail `n` in `FRZ_POL`: 0 FREEZE, 1 HOLD, 2 EXEMPT (R52). -/
def Hw.polPolicy (m : Hw) (n : Nat) : Nat := bitsOf (m.loopValue .frzPol) (2 * n) 2

/-! The references of the rails (R30, R192, R193). -/

/-- What the model keeps of a rail. -/
def Hw.rail (m : Hw) (n : Nat) : Rail :=
  m.rails.rail.getD n Rail.reset

/-- What the model keeps of a rail, replaced. -/
def Hw.setRail (m : Hw) (n : Nat) (r : Rail) : Hw := { m with rails := { m.rails with rail := m.rails.rail.set n r } }

/-- A code of a rail in mV: 5 mV units for POL, 10 mV units for QR (R188). -/
def railMv (n code : Nat) : Nat := if n < 3 then 5 * code else 10 * code

/-- The latch of a rail. -/
def railLatch (n : Nat) : LatchId :=
  match n with
  | 0 => .polSet 0 | 1 => .polSet 1 | 2 => .polSet 2 | 3 => .qrSet 0 | _ => .qrSet 1

/-- The slew rates of R188 in mV/ms. -/
def slewRate (code : Nat) : Nat := if code = 0 then 250 else if code = 1 then 1000 else if code = 2 then 5000 else 20000

/-- The reference that a rail's latch asks for, µV. -/
def Hw.refGoal (m : Hw) (n : Nat) : Nat := 1000 * railMv n (m.loopValue (railLatch n))

/-- The edge sources begin nothing: freeze is in force, pre-freeze is raised, or the break of R65 runs (R55, R65). -/
def Hw.quietDue (m : Hw) : Bool := m.frozen || m.seq.preFreeze.isSome || m.seq.holdBreak

/-- A rail holds its reference: a POL rail of policy FREEZE or HOLD from pre-freeze to the end of freeze (R193). -/
def Hw.refHeld (m : Hw) (n : Nat) : Bool := decide (n < 3) && m.quietDue && m.polPolicy n != 2

/-- A value moved towards another by at most a step. -/
def moveTo (v goal step : Nat) : Nat := if v ≤ goal then min goal (v + step) else max goal (v - step)

/-- The present reference of a rail, µV (R30, R192, R193): it moves to the latched target at its slew; a soft start moves it with
the switching that it reports (R176). -/
def Hw.refNow (m : Hw) (n : Nat) : Nat :=
  let r := m.rail n
  if r.ss || m.refHeld n then r.ref else moveTo r.ref (m.refGoal n) (slewRate r.slew * (m.now - r.refAt) / 200)

/-- The references as they stand now: from here they are held, or go on under another policy. -/
def Hw.settleRefs (m : Hw) : Hw :=
  { m with rails := { m.rails with rail := m.rails.rail.mapIdx fun (n : Nat) (r : Rail) =>
      { r with ref := m.refNow n, refAt := m.now } } }

/-- The policies of the rails change (R52, R193): each reference stands where it is, and goes on as the new policy lets it. -/
def Hw.newPolicy (m : Hw) (f : Hw → Hw) : Hw := f m.settleRefs

/-- The FCLK cycles from the end of freeze to the end of a rail's soft resume (R56, R181): 500 ns, the wake pulse of 2.0 µs where
one is due, and 4 switching cycles. -/
def Hw.resumeTime (m : Hw) (n : Fin 3) : Nat :=
  100 + (if m.seq.wakeDue then 400 else 0) + 800000 / max 1 (m.rd (Reg.POL_CFG_FSW n))

/-- The FREEZE and HOLD rails that are on begin their soft resume, and slew on from its end (R181, R193). -/
def Hw.resumeRails (m : Hw) : Hw :=
  (List.finRange 3).foldl (fun (m : Hw) (n : Fin 3) =>
    if m.polPolicy n = 2 ∨ ¬ m.bit Reg.RAIL_STATUS_POL_ON n then m
    else m.setRail n { m.rail n with resume := some (m.now + m.resumeTime n), refAt := m.now + m.resumeTime n }) m

/-- The POL rails that a hold path carries in freeze: those that are on with policy HOLD, and those with policy FREEZE
whose output has reached its floor (R179). -/
def Hw.holdRails (m : Hw) : Nat :=
  (List.range 3).foldl (fun v n =>
    let low := match m.rails.rail[n]? with | some r => r.floorHeld | none => false
    if m.bit Reg.RAIL_STATUS_POL_ON n && (m.polPolicy n == 1 || (m.polPolicy n == 0 && low)) then v + 2 ^ n else v) 0

/-- The module leads: no twin, or a LEAD state (R352, R355). -/
def Hw.twinLead (m : Hw) : Bool :=
  !m.on Reg.TWN_CFG_EN || m.rd Reg.TWN_STATUS_STATE = 2 || m.rd Reg.TWN_STATUS_STATE = 3

/-! Status pads. -/

/-- The levels of STAT1 to STAT3, bit 0 for STAT1 and 1 for asserted: a latched pad shows its masked events, a lamp pad
the lamp code (R165). In KEEPALIVE lamp pads are off, and in SHIP every pad is
released (R167). -/
def Hw.padLevels (m : Hw) : Nat :=
  (List.range 3).foldl (fun v n =>
    let on := if m.bit Reg.STAT_CFG_MODE n then m.chg.lampLevel && m.mode != modeKEEPALIVE && m.mode != modeSHIP
      else m.mode != modeSHIP && m.rd Reg.STAT_LATCH_EVENTS &&& bitsOf (m.rd Reg.STAT_MASK_MASK) (8 * n) 8 != 0
    if on then v + 2 ^ n else v) 0

/-- The status pads follow their sources (R165). -/
def Hw.statPads (m : Hw) : Hw := m.wr Reg.STAT_LATCH_PADS m.padLevels

/-- An event of `STAT_LATCH` (R166). -/
def Hw.statEvent (m : Hw) (i : Nat) : Hw := (m.wrBit Reg.STAT_LATCH_EVENTS i true).statPads

/-- The lamp takes a level, or waits for the end of freeze where freeze is in force or pre-freeze is raised (R167). -/
def Hw.lamp (m : Hw) (b : Bool) : Hw :=
  if m.frozen || m.seq.preFreeze.isSome || m.seq.holdBreak then { m with chg := { m.chg with lampWait := some b } }
  else ({ m with chg := { m.chg with lampLevel := b, lampWait := none } }).statPads

/-- A lamp edge that has waited is made (R167). -/
def Hw.lampSettle (m : Hw) : Hw :=
  match m.chg.lampWait with
  | some b => m.lamp b
  | none => m

/-! The rail link's event queue. -/

/-- An event queued for the instrument (R190): 16 deep; a command that could raise one is refused before that. -/
def Hw.rlEvent (m : Hw) (code tag detail : Nat) : Hw :=
  let m := { m with rl := { m.rl with events := m.rl.events ++ [RlResp.mk code (tag % 16) (satN 15 detail)] } }
  m.wr Reg.RL_STATUS_EVQ m.rl.events.length

/-- The armed aperture has started or been refused (R188, R189). It has no measured voltage, and DETAIL of its ARRIVED is 0
(DESIGN CHOICE, notes/assumptions/94.md). -/
def Hw.aptEvent (m : Hw) (code detail : Nat) : Hw :=
  match m.rl.aptTag with
  | some g => ({ m with rl := { m.rl with aptTag := none } }).rlEvent code g detail
  | none => m

/-- TSB_QUIET driven (R16). -/
def Hw.driveQuiet (m : Hw) (b : Bool) : Hw := { m with arch := { m.arch with sb := { m.arch.sb with quiet := b } } }

/-- The phases wind down for a stop (R117). -/
def Hw.windDown (m : Hw) : Hw :=
  { (m.wr Reg.PH_STATUS_ENTRY 0) with ph := { m.ph with windDown := true, entryEnd := none, entryFull := false } }

/-- The length of a thaw entry in FCLK cycles: 8 cycles of FSW, after 500 ns, and after the wake pulse of 2.0 µs where one
is due (R56, R119). -/
def Hw.entryTime (m : Hw) : Nat :=
  100 + (if m.seq.wakeDue then 400 else 0) + 1600000 / max 1 (m.rd Reg.PH_CFG_FSW)

/-- Thaw entry begins for the active phases, with ENTRY = 128 in place of the latch where the freeze was cut by a
removal or a BATFET opening (R119, R120). Phases that stand open in a direction change stay open until its step 5 (R131). -/
def Hw.thawEntry (m : Hw) (full : Bool) : Hw :=
  let turning := m.rd Reg.XFER_STATUS_DIR == 3
  let go := m.rd Reg.PH_STATUS_ACTIVE != 0 && !turning
  { ((m.wr Reg.PH_STATUS_FROZEN 0).wrB Reg.PH_STATUS_ENTRY go) with
    ph := { m.ph with
      windDown := turning, entryFull := full && go, opened := 0, gateWait := 0, gateTries := [0, 0, 0, 0]
      entryEnd := if go then some (m.now + m.entryTime) else none }
    chg := { m.chg with blankTo := max m.chg.blankTo (if go then m.now + m.entryTime + 10000 else 0) }
    bat := { m.bat with entryOn := m.bat.entryOn && go } }

/-- The first slot of a frame that starts at or after a time (R43). -/
def firstSlot (len t : Nat) : Nat := if len = 0 then 0 else min 256 ((256 * t + len - 1) / len)

/-- The slots that have begun in freeze up to the present time, counted for the summary (R275). -/
def Hw.countFrozen (m : Hw) : Hw :=
  let n := firstSlot m.seq.len m.seq.t
  { m with jrn := { m.jrn with frzSlots := m.jrn.frzSlots + (n - m.seq.frzFrom) }, seq := { m.seq with frzFrom := max n m.seq.frzFrom } }

/-- What pre-freeze or a freeze request does (R55, R61, R117, R125, R180): TSB_QUIET rises, the phases wind down, the hold
paths of the HOLD rails are enabled and the BATFET is driven FULL_ON. -/
def Hw.prepare (m : Hw) : Hw :=
  let m := (m.windDown).wr Reg.RAIL_STATUS_HOLD_ACT m.holdRails
  (({ m with bat := { m.bat with entryOn := true } } : Hw).driveQuiet true).batfet

/-- Pre-freeze is raised for a slot; 256 stands for an armed aperture (R55, R63). -/
def Hw.raise (m : Hw) (sl : Nat) : Hw :=
  let m := if m.quietDue then m else m.settleRefs
  ({ m with seq := { m.seq with preFreeze := some sl } } : Hw).prepare

/-- Freeze comes into force at the present time (R58): FREEZE_OUT rises, TSB_QUIET is high, every edge source is quiet,
the HOLD paths carry their rails and the BATFET is FULL_ON. -/
def Hw.freezeIn (m : Hw) : Hw :=
  let m := if m.quietDue then m else m.settleRefs
  let m := if m.frozen then m else { m with seq := { m.seq with
    frzStart := m.now, frzFrom := firstSlot m.seq.len m.seq.t } }
  let m := ((m.prepare).wr Reg.FRM_STATUS_FRZ 1).wr Reg.PH_STATUS_FROZEN 1
  ({ m with seq := { m.seq with preFreeze := none, freezeOut := !m.seq.outputsLow } } : Hw).batfet

/-- The continuous freeze in force, in FCLK cycles; 0 in thaw. -/
def Hw.frzTime (m : Hw) : Nat := if m.frozen then m.now - m.seq.frzStart else 0

/-- Freeze in force stops (R58): FREEZE_OUT falls, wake pulses are due after more than 1.0 ms (R56), and the longest
freeze is noted. What the edge sources do then is `thaw`, but for the break of R65. -/
def Hw.freezeStop (m : Hw) : Hw :=
  let d := m.frzTime
  let m := m.countFrozen
  let m := if m.rd Reg.FRM_FRZ_MAX_MAX < d / 20000 then m.wrSat Reg.FRM_FRZ_MAX_MAX (d / 20000) else m
  { m.wr Reg.FRM_STATUS_FRZ 0 with
    seq := { m.seq with freezeOut := false, wakeDue := decide (200000 < d) }
    rails := { m.rails with rail := m.rails.rail.map fun (r : Rail) => { r with holdSaid := false, floorHeld := false } } }

/-- The edge sources resume (R56, R119): TSB_QUIET falls, the phases make their thaw entry, the hold paths release, the rails
make their soft resume (R181) and a waiting lamp edge is made. -/
def Hw.thaw (m : Hw) (full : Bool) : Hw :=
  (((((m.wr Reg.RAIL_STATUS_HOLD_ACT 0).driveQuiet false).thawEntry full).resumeRails).batfet).lampSettle

/-- No aperture is in force any more. -/
def Hw.noApts (m : Hw) : Hw := { m.wr Reg.FRM_STATUS_APT 0 with seq := { m.seq with apts := [] } }

/-- Freeze ends at the present time (R56, R58). -/
def Hw.freezeEnd (m : Hw) (full : Bool) : Hw := if m.frozen then ((m.freezeStop).noApts).thaw full else m

/-- Pre-freeze is withdrawn, or freeze in force ends: the edge sources resume and no witness is left (R60, R558). -/
def Hw.liftQuiet (m : Hw) : Hw :=
  let raised := m.seq.preFreeze.isSome || m.seq.holdBreak
  let m := { m with seq := { m.seq with preFreeze := none, holdBreak := false } }
  if m.frozen then m.freezeEnd false else if raised then (m.noApts).thaw false else m

/-- The freeze map of plan `p` at slot `s` (R52). -/
def Hw.mapBit (m : Hw) (p s : Nat) : Bool := m.bit (Reg.FRM_MAP_MAP (8 * p + s / 32)) (s % 32)

/-- Slot `s` is a planned freeze slot of the plan that governs the frame. -/
def Hw.planned (m : Hw) (s : Nat) : Bool := m.mapBit (m.rd Reg.FRM_STATUS_PLAN) s

/-- FCLK cycles to the next boundary at which freeze is planned, in this frame or the next (R43, R52); the
rest of a refused run is thaw (R392). -/
def Hw.toFreeze (m : Hw) : Option Nat :=
  let cur := slotOf m.seq.len m.seq.t
  let from_ := if m.seq.runRefused then ((List.range 513).find? fun s => cur ≤ s && !m.planned (s % 256)).getD 513 else cur
  match (List.range 513).find? fun s => from_ ≤ s && m.planned (s % 256) && decide (m.seq.t ≤ slotStart m.seq.len s) with
  | some s => some (slotStart m.seq.len s - m.seq.t)
  | none => none

/-- FCLK cycles to the next freeze boundary as the NAND controller takes it (R287): the start of the next planned freeze slot,
whether or not it will be admitted, or of an armed aperture; none while every slot is thaw (R60, R450). -/
def Hw.toBoundary (m : Hw) : Option Nat :=
  if !m.seq.cfgApplied || m.seq.pinHeld || m.seq.outputsLow then none
  else
    let slots := (List.range 513).filter fun s => m.planned (s % 256) && decide (m.seq.t < slotStart m.seq.len s)
    let plan := slots.head?.map fun s => slotStart m.seq.len s - m.seq.t
    match m.seq.sched with
    | some a =>
      let at_ := (a.frn + 2 ^ 32 - m.frn) % 2 ^ 32 * m.seq.len + slotStart m.seq.len a.slot + a.cycle - m.seq.t
      some (min at_ (plan.getD at_))
    | none => plan

/-- The plan that the selection names: the override, or the pads (R53). -/
def Hw.selPlan (m : Hw) : Nat := if m.on Reg.FRM_STATUS_OVR then m.seq.planOvr else m.seq.planPads

/-- The number of consecutive planned freeze slots from slot `s` in plan `p`, counted across the tick. -/
def Hw.runSlots (m : Hw) (p s : Nat) : Nat :=
  ((List.range 256).takeWhile fun i => m.mapBit p ((s + i) % 256)).length

/-- Freeze refusal reasons (R71). -/
def rsnNoBattery : Nat := 1
def rsnBatLow : Nat := 2
def rsnBatRemoved : Nat := 3
def rsnBatCurrent : Nat := 4
def rsnDriverHold : Nat := 5
def rsnSourceLoad : Nat := 6
def rsnBatfetOff : Nat := 7

/-- The charge state codes that other units test (R148). -/
def chgPRECHARGE : Nat := 3

/-- The energy that CBUF gives between V_hi and 95 % of it, against a load of `psrc` mW for `us` µs (R70); `c` in
10 µF units, `vhi` in mV. -/
def cbufCarries (c vhi psrc us : Nat) : Bool := psrc * us * 200 ≤ c * (vhi ^ 2 - (vhi * 95 / 100) ^ 2)

/-- The VBUS target in SOURCE, mV, from the contract (R70). -/
def Hw.vbusTarget (m : Hw) : Nat := m.cable.target

/-- The pack current in freeze lies over the limit: 12 A of the BATFET, or the pack's discharge limit, whose value no rule
gives (R68, the ceilings beside R66; notes/assumptions/100.md). -/
def Hw.packOver (m : Hw) : Bool :=
  let pd := m.seq.pdFreeze
  decide (12000 < pd) || (pd != 0 && match m.chg.neg with
    | some p => decide (Config.packDischarge p.chem p.cells < pd)
    | none => false)

/-- The admission decision of R68 at its instant, for a freeze of `us` µs: none where freeze is admitted, else the
reason of refusal. Where several conditions fail at once, the reason that stands first here is recorded (DESIGN CHOICE,
notes/assumptions/84.md). -/
def Hw.admission (m : Hw) (a : Admit) (us : Nat) : Option Nat :=
  if m.seq.removedHold then some rsnBatRemoved
  else if !m.packIn then some rsnNoBattery
  else if m.bat.ocpOpen || m.bat.latched then some rsnBatfetOff
  else if a.vbat < m.loopValue .vsysMin * 10 + 200 ∨ m.rd Reg.CHG_STATUS_STATE = chgPRECHARGE then some rsnBatLow
  else if m.packOver then some rsnBatCurrent
  else if 120000000 < m.frzTime + m.seq.len / 256 then some rsnDriverHold
  else if m.mode = modeSOURCE ∧
      (m.seq.refuseSource ∨ ¬ cbufCarries m.cbufC m.vbusTarget a.psrc us) then some rsnSourceLoad
  else none

/-- The payload of JR_FREEZE_REFUSAL (R274). -/
def refusalPayload (slot reason atEnd count frn : Nat) : List Byte :=
  le 1 slot ++ le 1 reason ++ le 1 atEnd ++ le 1 0 ++ le 4 count ++ le 4 frn

/-- A refused slot of a frame, or a cut-short freeze (R71): the run is counted once, the fault word and the record mark
the start of a run of refusals, and the newest refusal is kept for its end. A refusal in a run that has been counted shows
its reason too (DESIGN CHOICE, notes/assumptions/83.md). -/
def Hw.refuse (m : Hw) (slot reason frn : Nat) (cut counted : Bool) : Hw :=
  let m := (if counted then m else m.bump Reg.FRM_REFUSE_COUNT).wr Reg.FRM_REFUSE_LAST_REASON reason
  let m := m.statEvent 6
  let opens := !m.on Reg.FRM_STATUS_REFUSING
  let m := { m with seq := { m.seq with
      runCount := (if opens then 0 else m.seq.runCount) + (if counted then 0 else 1)
      refusedNow := true, quietFrames := 0
      lastSlot := slot, lastReason := reason, lastFrn := frn } }
  if opens then
    ((m.wr Reg.FRM_STATUS_REFUSING 1).fault Kind.FREEZE_REFUSED (reason + 16 * b2n cut)).record JR.FREEZE_REFUSAL 0x3C
      (refusalPayload slot reason 0 0 frn)
  else m

/-- The slots up to `at_` belong to the planned run that `runCounted` and `runRefused` speak of; slot 256 is slot 0 of the
next frame (R71). -/
def Hw.sameRun (m : Hw) (at_ : Nat) : Bool :=
  decide (m.seq.runSlot ≤ at_) &&
    ((List.range (min at_ 256)).all fun s => decide (s < m.seq.runSlot) || m.planned s)

/-- The present planned run is counted, and perhaps its rest is refused (R65, R69, R71). -/
def Hw.markRun (m : Hw) (at_ : Nat) (rest : Bool) : Hw :=
  { m with seq := { m.seq with runCounted := true, runRefused := rest, runSlot := at_ } }

/-- Freeze in force cut short: it ends, the rest of the run is refused, and the cut leaves its witness (R69, R71). -/
def Hw.cutFreeze (m : Hw) (reason : Nat) (full : Bool) : Hw :=
  if m.frozen then
    let slot := slotOf m.seq.len m.seq.t
    let counted := m.seq.runCounted && m.sameRun slot && m.planned slot
    ((m.freezeEnd full).refuse slot reason m.frn true counted).markRun slot true
  else m

/-- What still carries current opens its switches and is recorded (R118, R175). -/
def Hw.quietLate (m : Hw) (late lateRails ns : Nat) : Hw :=
  let m := (List.range 4).foldl (fun m n =>
    if bitAt late n then (m.faultAt Kind.PHASE_QUIET_LATE (0x20 + n) ns).bump Reg.PH_EVENTS_QUIET_LATE else m)
    ({ m with ph := { m.ph with opened := late % 16 } } : Hw)
  (List.range 3).foldl (fun m n =>
    if bitAt lateRails n then m.faultAt Kind.POL_QUIET_LATE (0x24 + n) ns else m) m

/-- A condition of R69 that has failed between the decision and freeze: its reason. -/
def Hw.brokenFreeze (m : Hw) : Option Nat :=
  if m.seq.removedHold then some rsnBatRemoved
  else if m.bat.ocpOpen || m.bat.latched then some rsnBatfetOff else none

/-- Admitted freeze begins, and ends at once where a condition of R69 has failed since the decision (R68). -/
def Hw.enterFreeze (m : Hw) (late lateRails ns : Nat) : Hw :=
  let m := (m.freezeIn).quietLate late lateRails ns
  match m.brokenFreeze with
  | some r => m.cutFreeze r true
  | none => m

/-- The mode changes, with its record (R438): OLD, NEW and CAUSE of R467. -/
def Hw.setMode (m : Hw) (new cause : Nat) : Hw :=
  if m.mode = new then m
  else
    let old := m.mode
    (((m.wr Reg.MODE_STATUS_MODE new).wr Reg.MODE_STATUS_MODE_CHG 1).record JR.MODE 0x10
      (le 1 old ++ le 1 new ++ le 1 cause ++ le 1 0)).batfet

/-- F0 SUPERVISOR instructs the transfer stage with TM_XFER: DIR, and GRANT with bit 0 SOURCE granted, bit 1 SOURCE
ended (R99, R406). While F0 is away no direction change starts: the direction is ordered at the first tick at which it is back
(R133). -/
def Hw.orderXfer (m : Hw) (dir grant : Nat) : Hw :=
  if (m.engine .f0).restarting then { m with modes := { m.modes with dirAsked := 3 } }
  else ({ m with modes := { m.modes with dirAsked := dir } } : Hw).sendF 0x18 (le 1 dir ++ le 1 grant ++ le 2 0)

/-- JR_POWER_LATCH for a source and a kind (R101, R124). -/
def Hw.powerLatch (m : Hw) (src : Nat) (k : FaultKind) : Hw :=
  m.record JR.POWER_LATCH src (le 1 src ++ le 1 k.code ++ le 2 0)

/-! The host side as its engines start (R420, R478). -/

/-- One watchdog armed: its first period and its first check-in interval begin (R474, R479). -/
def Wdg.arm (x : Wdg) (frn period openSlot : Nat) : Wdg :=
  { x with
    armedFrn := frn, live := 0, refused := false, tried := false, suspended := false
    missed := List.replicate 9 0, period := period, openSlot := openSlot, excuse := 0, starting := false, frames := 0
    paused := false, window := false, served := false, late := false }

/-- A watchdog disarmed; `start`: its start timer runs (R477). -/
def Wdg.disarm (x : Wdg) (start : Bool) : Wdg := { x.arm 0 0 0 with starting := start }

/-- H-AON wakes H-CORE (R440): the doze ends, and the host watchdog is armed again (R478). -/
def Hw.hcoreWake (m : Hw) : Hw :=
  if m.on Reg.HP_STATUS_DOZE then
    { (m.wr Reg.HP_STATUS_DOZE 0) with
      hwdg := m.hwdg.arm 0 (m.rd Reg.HWDG_CFG_PERIOD) (m.rd Reg.HWDG_CFG_OPEN_SLOT) }
  else m

/-- A host engine runs, unless it is fenced. -/
def Hw.runEngine (m : Hw) (e : Engine) : Hw :=
  if (m.engine e).fenced then m
  else m.setEngine e { running := true, restarting := false, handover := false, fenced := false }

/-- H2 HOSTPORT first runs (R91, R420, R478): H_READY rises, the host watchdog is armed, and the configured fields are
asked for where they have not been loaded. -/
def Hw.h2Up (m : Hw) : Hw :=
  let m := m.runEngine .h2
  let ask := !m.intake.loaded && !m.intake.cfgAsked
  let m := { m with
    host := { m.host with hReady := true, busy := false }
    hwdg := m.hwdg.arm 0 (m.rd Reg.HWDG_CFG_PERIOD) (m.rd Reg.HWDG_CFG_OPEN_SLOT)
    intake := { m.intake with cfgAsked := m.intake.cfgAsked || ask } }
  let m := (m.wr Reg.ID_STATUS_HOST_READY 1).wr Reg.HWDG_STATUS_ARMED 1
  let m := if m.rd Reg.TL_H_STATUS_STATE = 0 then m.wr Reg.TL_H_STATUS_STATE 1 else m
  if ask then m.sendH 0x25 0 (le 4 0) else m

end Sys2Proof.Machine
end

