-- ==== Sys2Proof/Machine/Architecture.lean ====
section
/-! DEFINITION. Sidebands, privilege and set-point latches (chapter 01). -/

namespace Sys2Proof.Machine

/-- LATCH_PARITY (R31): the loop follows the shadow, which holds the value last written; the live value is wrong until
F0 SUPERVISOR rewrites the latch. -/
def execLatchParity (l : LatchId) (live : Nat) (s : State) : Host.Outcome State Fault Refusal :=
  effect s fun m =>
    if m.latchBad l ∨ live = m.latch l then m
    else
      let shadow := m.latch l
      let m := m.setLatchLive l live
      let m := { m with arch := { m.arch with shadows := m.arch.shadows ++ [Shadow.mk l shadow true] } }
      m.sideFault (if l.index < 2 then .host else .field) Kind.LATCH_PARITY l.unit l.index

/-- TSB_FALERT_STATE_LEVEL (R17, R421): the host side receives the level that the field side drives; at its rise it
notes the field reset and raises its alert. Any edge wakes H-CORE (R440). -/
def execTsbFalertStateLevel (high : Bool) (s : State) : Host.Outcome State Fault Refusal :=
  effect s fun m =>
    if high ≠ m.arch.sb.fieldReset ∨ high = m.arch.sb.falertSeen then m
    else
      let m := ({ m with arch := { m.arch with sb := { m.arch.sb with falertSeen := high } } } : Hw).hcoreWake
      if high then ({ m with arch := { m.arch with hostFieldReset := true } } : Hw).alertSet 2 else m

/-- SOURCE_LOSS_CODE (R82): the field side takes the active source as gone and moves to FLOAT at the next tick. -/
def execSourceLossCode (s : State) : Host.Outcome State Fault Refusal :=
  effect s fun m => m.onHCode .sourceLoss fun m => { m with chg := { m.chg with source := false } }

/-- A wake event of R442 while the field side is in KEEPALIVE. -/
def Hw.askWake (m : Hw) : Hw :=
  if m.mode = modeKEEPALIVE then { m with modes := { m.modes with wakeReq := true } } else m

/-- SOURCE_ATTACH_WAKE_CODE (R238, R442). -/
def execSourceAttachWakeCode (s : State) : Host.Outcome State Fault Refusal :=
  effect s fun m => m.onHCode .attachWake Hw.askWake

/-- CABLE_DETACH_CODE (R233): F0 SUPERVISOR stops moving `REV_SET`. -/
def execCableDetachCode (s : State) : Host.Outcome State Fault Refusal :=
  effect s fun m => m.onHCode .cableDetach fun m => { m with modes := { m.modes with revHeld := true } }

/-- MAILBOX_WAKE_CODE (R442). -/
def execMailboxWakeCode (s : State) : Host.Outcome State Fault Refusal :=
  effect s fun m => m.onHCode .mailboxWake Hw.askWake

/-- A TM_HFAULT is on its way: it waits, or it has not been acknowledged. -/
def Hw.hfaultSent (m : Hw) : Bool :=
  (m.host.h.waiting ++ m.host.h.queue).any fun (x : Msg) => x.type == 0x20

/-- The host fault buffer goes out as TM_HFAULT where the link is trained, and keeps its words until the message is
acknowledged (R40, R406). -/
def Hw.flushHostFaults (m : Hw) : Hw :=
  if m.rd Reg.TL_H_STATUS_STATE = 2 ∧ m.flt.hostBuf ≠ [] ∧ m.hfaultSent = false then
    m.sendH 0x20 0 (m.flt.hostBuf.flatMap fun w => le 4 w.bits)
  else m

/-- The words of a delivered TM_HFAULT leave the buffer: an entry of FAULT_LOST that has counted on keeps what it has
counted since (R40). -/
def dropSent : List FaultWord → List FaultWord → List FaultWord
  | [], ws => ws
  | _ :: _, [] => []
  | x :: xs, w :: ws => if w.bits = x.bits then dropSent xs ws else { w with detail := w.detail - x.detail } :: dropSent xs ws

/-- TM_HFAULT has been acknowledged: the field side has its words, and what has come since goes out (R40). -/
def Hw.hfaultAcked (m : Hw) (p : List Byte) : Hw :=
  let sent := (List.range (p.length / 4)).map fun i => FaultWord.ofBits (numAt p (4 * i) 4)
  ({ m with flt := { m.flt with hostBuf := dropSent sent m.flt.hostBuf } } : Hw).flushHostFaults

/-- HOST_ALERT_CODE (R40): a host fault word waits, and the link delivers the buffer. -/
def execHostAlertCode (s : State) : Host.Outcome State Fault Refusal :=
  effect s fun m => m.onHCode .hostAlert Hw.flushHostFaults

/-- FIELD_ALERT_CODE (R421): a TM_EVENT waits for the lane; the edge wakes H-CORE (R440). -/
def execFieldAlertCode (s : State) : Host.Outcome State Fault Refusal :=
  effect s fun m => m.onFCode .fieldAlert Hw.hcoreWake

/-- The detail code of a sideband (R333). -/
def sidebandCode : SidebandId → Nat
  | .line => 0 | .quiet => 1 | .halert => 2 | .falert => 3

/-- The code that a pulse of TSB_HALERT gives by its width in ns, where it lies in a band (R17). -/
def hCodeOf (w : Nat) : Option HCode :=
  if 70 ≤ w ∧ w ≤ 130 then some .qreqRequest else if 131 ≤ w ∧ w ≤ 190 then some .qreqRelease
  else if 191 ≤ w ∧ w ≤ 250 then some .fastRoleSwap else if 251 ≤ w ∧ w ≤ 310 then some .sourceLoss
  else if 311 ≤ w ∧ w ≤ 370 then some .attachWake else if 371 ≤ w ∧ w ≤ 430 then some .cableDetach
  else if 431 ≤ w ∧ w ≤ 490 then some .mailboxWake else if 491 ≤ w ∧ w ≤ 550 then some .hostAlert else none

/-- The code that a pulse of TSB_FALERT gives by its width in ns (R17). -/
def fCodeOf (w : Nat) : Option FCode :=
  if 70 ≤ w ∧ w ≤ 130 then some .fieldAlert else if 131 ≤ w ∧ w ≤ 190 then some .sleep else none

/-- A pulse that its receiver ignores and records (R17): 60 ns at the least, not held for more than 1.0 µs, and outside
every band of its sideband. -/
def strayPulse (sb : SidebandId) (w : Nat) : Bool :=
  decide (60 ≤ w) && decide (w ≤ 1000) && (match sb with
    | .halert => (hCodeOf w).isNone
    | .falert => (fCodeOf w).isNone
    | _ => true)

/-- SIDEBAND_FAULT (R17): a pulse of this width is ignored, and the receiving side records the fault where it lies outside
every band. -/
def execSidebandFault (pulse : SidePulse) (s : State) : Host.Outcome State Fault Refusal :=
  effect s fun m =>
    if strayPulse pulse.line pulse.width then
      m.sideFault (if pulse.line = .quiet ∨ pulse.line = .falert then .host else .field) Kind.SIDEBAND_FAULT 0x32
        (sidebandCode pulse.line)
    else m

/-- TSB_QUIET_CHANNEL_FAULT (R96): read as high; the bridge stays stopped. -/
def execTsbQuietChannelFault (s : State) : Host.Outcome State Fault Refusal :=
  effect s fun m =>
    let m := m.wr Reg.XFER_STATUS_QUIET 1
    let m := { m with xfer := { m.xfer with stopped := true, chanFault := true } }
    m.hfault Kind.SIDEBAND_FAULT 1

/-- A fence set on a unit from 0x20 to 0x3F (R340). -/
def Hw.fenceBit (m : Hw) (unit : Nat) : Hw :=
  if 0x20 ≤ unit ∧ unit < 0x40 then m.wrBit Reg.FLT_FENCE_U_UNITS (unit - 0x20) true else m

/-- The side of a power domain (R21). -/
def domainSide (d : Domain) : Side := if d.index < 3 then .host else .field

end Sys2Proof.Machine
end

