-- ==== Sys2Proof/Machine/Phases.lean ====
section
/-! DEFINITION. Field phases and the BATFET (chapter 04). -/

namespace Sys2Proof.Machine

/-! What the phases regulate to (R114, R129, R132). -/

/-- The VSYS target of R114, mV: `VSYS_SET` with no pack, and as a ceiling with `CHG_EN` = 1; with a pack and
`CHG_EN` = 0 the higher of `VSYS_MIN` and V_BAT + 0.10 V, capped at `VSYS_SET`; `VSYS_MIN` in LINEAR_VMIN (R125). -/
def Hw.vsysTarget (m : Hw) : Nat :=
  let set := m.loopValue .vsysSet * 10
  let low := m.loopValue .vsysMin * 10
  if !m.packIn then set
  else if m.rd Reg.BATFET_STATUS_STATE = 3 then min set low
  else if m.chgEn then set
  else min set (max low (m.rd Reg.CHG_MON_VBAT + 100))

/-- The target of the output that is being regulated, mV: VTB in reverse operation, VSYS otherwise. -/
def Hw.outTarget (m : Hw) : Nat :=
  if m.on Reg.PH_STATUS_REV then m.loopValue .revSet * 10
  else if m.on Reg.XFER_STATUS_DBS then 5000
  else m.vsysTarget

/-- The present regulation reference, mV: the ramp's during a soft start (R116). -/
def Hw.vset (m : Hw) : Nat := if m.on Reg.PH_STATUS_SS then m.ph.ssRef / 1000 else m.outTarget

/-- I_lim0, mA (R116, R132): `ILIM`, at most 5.00 A in reverse operation, and 1.5 A in the dead-battery start mode. -/
def Hw.iLim0 (m : Hw) : Nat :=
  if m.on Reg.XFER_STATUS_DBS then 1500
  else if m.on Reg.PH_STATUS_REV then min 5000 (m.rd Reg.PH_CFG_ILIM * 250)
  else m.rd Reg.PH_CFG_ILIM * 250

/-- The peak current limit of a phase at an output of `vout` mV, mA (R116): folded back with the output, to a quarter at
the most; below a reference of 1.0 V the ratio is 1. -/
def Hw.iLim (m : Hw) (vout : Nat) : Nat :=
  if m.vset < 1000 then m.iLim0
  else if 4 * vout ≤ m.vset then m.iLim0 / 4 else m.iLim0 * vout / m.vset

/-- The limit folds back at an output (R116). -/
def Hw.foldsBack (m : Hw) (vout : Nat) : Bool := decide (1000 ≤ m.vset) && decide (vout < m.vset)

/-- The phases whose limit ends their on-times sit at the floor at an output (R116). -/
def Hw.atFloor (m : Hw) (vout : Nat) : Bool := decide (1000 ≤ m.vset) && decide (4 * vout ≤ m.vset)

/-! Conversion modes and on-times (R110, R111). `vin` and `vout` are VTB and VSYS, exchanged in reverse operation. -/

/-- The conversion mode that follows mode `cm`: 1 buck, 2 boost. A mode is entered from the other one where r is 0.3 %
beyond 1.000 (DEDUCED, notes/assumptions/97.md). -/
def nextCmode (cm vin vout : Nat) : Nat :=
  if cm = 1 then (if 1003 * vin < 1000 * vout then 2 else 1)
  else if cm = 2 then (if 1000 * vout ≤ 997 * vin then 1 else 2)
  else if vout ≤ vin then 1 else 2

/-- The transition band 0.985 < r < 1.040, entered where r is 0.3 % inside it (DEDUCED, notes/assumptions/97.md). -/
def nextBand (band : Bool) (vin vout : Nat) : Bool :=
  if band then decide (985 * vin < 1000 * vout) && decide (1000 * vout < 1040 * vin)
  else decide (985 * 1003 * vin < 1000000 * vout) && decide (1000000 * vout < 1040 * 997 * vin)

/-- The on-time of a phase in ns (R110, R111): from the two rail voltages, `FSW` in kHz and the trim, at least 60 ns and
leaving an off-time of 25 ns; in the band QC is on for 60 ns. -/
def onTime (band : Bool) (vin vout fsw : Nat) (trim : Int) : Nat :=
  let k : Nat := (256 + trim).toNat
  let t := if vout ≤ vin then 1000000 * vout * k / (256 * max 1 (vin * fsw))
    else 1000000 * (vout - vin) * k / (256 * max 1 (vout * fsw))
  if band then 60 else max 60 (min t (1000000 / max 1 fsw - 25))

/-- The on-time of phase `n` in entry cycle `k` of a thaw entry, ns (R119, R120): none while its gate supply is too low (R134). -/
def Hw.entryOnTime (m : Hw) (n : Fin 4) (k : Nat) : Nat :=
  if bitAt m.ph.gateWait n then 0 else m.ph.ton.getD n 0 * max (if m.ph.entryFull then 128 else m.rd (Reg.PH_TRIM_ENTRY n)) (32 * k) / 256

/-- The controllers follow the two rails (R110, R111, R132): mode, band and on-times. -/
def Hw.convert (m : Hw) (vtb vsys : Nat) : Hw :=
  if m.rd Reg.PH_STATUS_ACTIVE = 0 then (m.wr Reg.PH_STATUS_CMODE 0).wr Reg.PH_STATUS_BAND 0
  else
    let vin := if m.on Reg.PH_STATUS_REV then vsys else vtb
    let vout := if m.on Reg.PH_STATUS_REV then vtb else vsys
    let band := nextBand (m.on Reg.PH_STATUS_BAND) vin vout
    let cm := if m.on Reg.XFER_STATUS_DBS then 3 else nextCmode (m.rd Reg.PH_STATUS_CMODE) vin vout
    let m := (m.wr Reg.PH_STATUS_CMODE cm).wrB Reg.PH_STATUS_BAND (band && cm != 3)
    let ton := (List.finRange 4).map fun n => onTime band vin vout (m.rd Reg.PH_CFG_FSW) (m.rdI (Reg.PH_TRIM_TRIM n))
    { m with ph := { m.ph with ton := ton } }

/-- The controllers follow the rails as they were last measured. -/
def Hw.convertNow (m : Hw) : Hw := m.convert (m.rd Reg.PH_VOLT_VTB * 10) (m.rd Reg.PH_VOLT_VSYS * 10)

/-! The set of active phases (R113, R115). -/

/-- Phases that may not be active: fenced, thermally limited, stopped or latched (R113, R115). -/
def Hw.phasesOut (m : Hw) : Nat :=
  m.rd Reg.PH_STATUS_FENCED ||| m.ph.thermal ||| m.ph.stopped ||| m.rd Reg.PH_STATUS_LATCHED

/-- The first `n` phases, in order, that may be active (R115). -/
def Hw.pickPhases (m : Hw) (n : Nat) : Nat :=
  (((List.range 4).filter fun i => !bitAt m.phasesOut i).take n).foldl (fun v i => v + 2 ^ i) 0

/-- The phases that may be active as the total current asks for (R115): four without shedding, and P1 alone in the
dead-battery start mode (R132). -/
def Hw.wantedPhases (m : Hw) : Nat :=
  if m.on Reg.XFER_STATUS_DBS then (if bitAt m.phasesOut 0 then 0 else 1)
  else m.pickPhases (if m.on Reg.PH_CFG_SHED_EN then max 1 m.ph.want else 4)

/-- How many phases the table of R115 gives for a total current in mA. -/
def shedCount (itot : Nat) : Nat := if itot < 1500 then 1 else if itot < 3500 then 2 else if itot < 5500 then 3 else 4

/-- The number of active phases for a total current, a phase being shed 0.5 A below its threshold (R115). -/
def shedNext (active itot : Nat) : Nat :=
  if active < shedCount itot then shedCount itot
  else if shedCount (itot + 500) < active then shedCount (itot + 500) else active

/-- The set of active phases replaced; an added phase makes its thaw entry (R115, R119). -/
def Hw.setActive (m : Hw) (a : Nat) : Hw :=
  let added := a &&& (m.rd Reg.PH_STATUS_ACTIVE ^^^ 15)
  let m : Hw := { m.wr Reg.PH_STATUS_ACTIVE a with ph := { m.ph with allFour := m.ph.allFour && a == 15 } }
  if added ≠ 0 ∧ ¬ m.quietDue then
    { m.wr Reg.PH_STATUS_ENTRY 1 with
      ph := { m.ph with entryEnd := some (m.now + m.entryTime) }
      chg := { m.chg with blankTo := max m.chg.blankTo (m.now + m.entryTime + 10000) } }
  else m

/-- The active phases follow the set of those that may run, where an output is being regulated (R115). -/
def Hw.rePick (m : Hw) : Hw := if m.ph.regulating then (m.setActive m.wantedPhases).convertNow else m

/-- PHASE_SHED_CHANGE (R115): the total current crosses a threshold. -/
def execPhaseShedChange (itot : Nat) (s : State) : Host.Outcome State Fault Refusal :=
  effect s fun m => ({ m with ph := { m.ph with want := shedNext m.ph.want itot } } : Hw).rePick

/-- The dispatcher issues `k` on-times, each to the next active phase in the order P1 to P4 (R113): the last phase it has
issued to. A phase whose gate supply is too low does not switch (R134). -/
def Hw.dispatch (m : Hw) (k : Nat) : Hw :=
  let act := (List.range 4).filter fun i => m.bit Reg.PH_STATUS_ACTIVE i && !bitAt m.ph.gateWait i
  let from_ := (act.filter fun i => decide (i ≤ m.ph.lastPhase)).length
  match act[(from_ + k - 1) % max 1 act.length]? with
  | some i => if k = 0 then m else { m with ph := { m.ph with lastPhase := i } }
  | none => m

/-- PHASE_IMBALANCE (R122): a trim at ±16 for 256 frames. The detail holds the field of `PH_TRIMn` as it stands, 6 bits of
two's complement with no extension of the sign (DESIGN CHOICE, notes/assumptions/90.md). -/
def execPhaseImbalance (n : Fin 4) (s : State) : Host.Outcome State Fault Refusal :=
  effect s fun m =>
    if 256 ≤ m.ph.limitFrames.getD n 0 ∧ ¬ m.on (Reg.PH_TRIM_AT_LIMIT n) then
      (m.wr (Reg.PH_TRIM_AT_LIMIT n) 1).faultAt Kind.PHASE_IMBALANCE (0x20 + n) (m.rd (Reg.PH_TRIM_TRIM n))
    else m

/-! Soft start (R123, R124). -/

/-- The phases wound down and stopped (R133). -/
def Hw.stopPhases (m : Hw) : Hw :=
  let m := m.windDown
  let m := m.clear [Reg.PH_STATUS_ACTIVE, Reg.PH_STATUS_SS, Reg.PH_STATUS_ENTRY, Reg.PH_STATUS_FROZEN, Reg.PH_STATUS_CMODE,
    Reg.PH_STATUS_BAND, Reg.PH_STATUS_REV, Reg.PH_STATUS_FOLDBACK, Reg.PH_STATUS_GOV]
  ({ m with ph := { m.ph with regulating := false, windDown := false, revFloor := false, allFour := false, ssEnd := none
                              retryAt := none, ssDiode := false }
            bat := { m.bat with entryOn := m.frozen } } : Hw).batfet

/-- A soft start begins: the reference ramps from the measured output to the target in diode emulation (R123); none while
the phases are latched off (R124). -/
def Hw.softStart (m : Hw) (vout : Nat) : Hw :=
  if m.rd Reg.PH_STATUS_LATCHED ≠ 0 then m
  else
    let m := { m with ph := { m.ph with regulating := true, revFloor := false, windDown := false, ssEnd := none } }
    let m := (m.setActive m.wantedPhases).wr Reg.PH_STATUS_SS 1
    ({ m with ph := { m.ph with ssRef := vout * 1000, ssTarget := m.outTarget, ssDiode := false } } : Hw).convertNow

/-- The rate of a soft start in mV/ms (R123): 1 V/ms in the dead-battery start mode (R132), and else what `SS_RATE` codes.
Codes above 4 have no rate (DESIGN CHOICE, notes/assumptions/98.md). -/
def Hw.ssRate (m : Hw) : Nat :=
  if m.on Reg.XFER_STATUS_DBS then 1000
  else match m.rd Reg.PH_CFG_SS_RATE with
    | 0 => 250 | 1 => 500 | 2 => 1000 | 3 => 2000 | 4 => 5000
    | c => Config.ssRate c

/-- The phases may begin to regulate: nothing has stopped them, and the mode lets them run (R123, R124, R130, R133). -/
def Hw.mayStart (m : Hw) : Bool :=
  !m.ph.regulating && !m.ph.revFloor && m.ph.retryAt.isNone && m.rd Reg.PH_STATUS_LATCHED == 0 &&
    m.mode != modeKEEPALIVE && m.mode != modeSHIP

/-- PHASE_SOFT_START (R123): it starts where the phases do not regulate yet; `us` µs of thaw later the reference has moved
up to its target, and the ramp ends there. While it lies below the output, `vout` mV, QB and QC stay in diode emulation. It pauses
in freeze (R120). -/
def execPhaseSoftStart (vout us : Nat) (s : State) : Host.Outcome State Fault Refusal :=
  effect s fun m =>
    if m.quietDue then m
    else if m.on Reg.PH_STATUS_SS then
      let goal := m.outTarget * 1000
      let ref := m.ph.ssRef + m.ssRate * us
      if goal ≤ ref then
        { (m.wr Reg.PH_STATUS_SS 0) with ph := { m.ph with
            ssRef := goal, ssTarget := m.outTarget, ssEnd := some m.now, ssDiode := false } }
      else { m with ph := { m.ph with ssRef := ref, ssTarget := m.outTarget, ssDiode := decide (ref < vout * 1000) } }
    else if m.mayStart then m.softStart vout
    else m

/-- A soft start whose output has held for 1 ms after its ramp is complete (R124). The count of failed attempts then
returns to zero (DESIGN CHOICE, notes/assumptions/91.md). -/
def Hw.ssSettle (m : Hw) : Hw :=
  match m.ph.ssEnd with
  | some e => if e + 200000 ≤ m.now then { m with ph := { m.ph with ssEnd := none, attempts := 0 } } else m
  | none => m

/-- An attempt has failed (R124): the phases wind down and stop, to retry from the 16th tick on, or latch off after the
fourth. -/
def Hw.ssFail (m : Hw) (k : FaultKind) : Hw :=
  let latch := decide (3 ≤ m.ph.attempts)
  let m := ((m.windDown.wr Reg.PH_STATUS_SS 0).wr Reg.PH_STATUS_ACTIVE 0).convertNow
  let m := { m with ph := { m.ph with regulating := false, ssEnd := none, allFour := false, ssDiode := false } }
  if latch then
    ({ m.wr Reg.PH_STATUS_LATCHED 15 with ph := { m.ph with attempts := 0, retryAt := none, latchCode := k.code } } : Hw).powerLatch 0x20 k
  else { m with ph := { m.ph with attempts := m.ph.attempts + 1, retryAt := some (m.frnAfter 16) } }

/-- PHASE_SS_SHORT (R124): at the floor of R116 during the ramp, or below 50 % of the reference 1 ms after its end. -/
def execPhaseSsShort (test : RampTest) (s : State) : Host.Outcome State Fault Refusal :=
  effect s fun m =>
    let short := if test.floor then m.on Reg.PH_STATUS_SS && m.atFloor test.vout
      else m.ph.ssEnd.isSome && decide (2000 * test.vout < m.ph.ssRef)
    if short then
      let latch := decide (3 ≤ m.ph.attempts)
      let m := m.faultW { src := 0x20, kind := Kind.PHASE_SS_SHORT.code, sev := if latch then 3 else Kind.PHASE_SS_SHORT.sev
                          detail := satN 14 (m.ph.attempts + 4 * b2n latch + 8 * b2n test.floor) }
      m.ssFail Kind.PHASE_SS_SHORT
    else m

/-- The output as PH_VOLT last showed it, mV: VTB in REVERSE, and VSYS otherwise (DESIGN CHOICE, notes/assumptions/115.md). -/
def Hw.outputSeen (m : Hw) : Nat :=
  m.rd (if m.on Reg.PH_STATUS_REV then Reg.PH_VOLT_VTB else Reg.PH_VOLT_VSYS) * 10

/-- PHASE_SS_RETRY (R124): at the first thaw slot at or after the 16th tick, from the measured output. -/
def execPhaseSsRetry (s : State) : Host.Outcome State Fault Refusal :=
  effect s fun m =>
    match m.ph.retryAt with
    | none => m
    | some a =>
      if m.frnReached a ∧ ¬ m.quietDue then
        ((({ m with ph := { m.ph with retryAt := none } } : Hw).bump Reg.PH_EVENTS_SS_RETRIES)).softStart m.outputSeen
      else m

/-- The phases in foldback (R116): each that comes to it is counted (DESIGN CHOICE, notes/assumptions/99.md). -/
def Hw.foldback (m : Hw) (set : Nat) : Hw :=
  let new := set &&& (m.rd Reg.PH_STATUS_FOLDBACK ^^^ 15)
  (m.add Reg.PH_EVENTS_FOLDBACK (popCount 4 new)).wr Reg.PH_STATUS_FOLDBACK (set % 16)

/-- PHASE_OCP (R134): at the floor for 64 cycles after soft start. One phase alone stops until F0 SUPERVISOR clears it;
every active phase starts the retry sequence and counts as an attempt (R124), with PHASE_OCP as its only word, at the latch
too (DESIGN CHOICE, notes/assumptions/91.md). -/
def execPhaseOcp (phases : Fin 16) (load : Overload) (s : State) : Host.Outcome State Fault Refusal :=
  effect s fun m =>
    let hit := phases.val &&& m.rd Reg.PH_STATUS_ACTIVE
    if hit = 0 ∨ m.on Reg.PH_STATUS_SS ∨ ¬ m.atFloor load.vout then m
    else
      let m := m.foldback (m.rd Reg.PH_STATUS_FOLDBACK ||| hit)
      let m := (List.range 4).foldl (fun m n => if bitAt hit n then m.faultAt Kind.PHASE_OCP (0x20 + n) load.current else m) m
      if hit = m.rd Reg.PH_STATUS_ACTIVE then m.ssFail Kind.PHASE_OCP
      else ({ m with ph := { m.ph with stopped := m.ph.stopped ||| hit } } : Hw).rePick

/-- PHASE_OV (R134): all phases in diode emulation until the output is below 102 % of target. -/
def execPhaseOv (mv : Nat) (s : State) : Host.Outcome State Fault Refusal :=
  effect s fun m =>
    if m.outTarget * 105 < mv * 100 ∨ (31500 < mv ∧ ¬ m.on Reg.PH_STATUS_REV) then
      ({ m with ph := { m.ph with ovDiode := true } } : Hw).fault Kind.PHASE_OV (mv / 100)
    else if mv * 100 < m.outTarget * 102 then { m with ph := { m.ph with ovDiode := false } }
    else m

/-- PHASE_THERMAL (R134): shed above 140 °C until below 120 °C. -/
def execPhaseThermal (n : Fin 4) (temp : Int) (s : State) : Host.Outcome State Fault Refusal :=
  effect s fun m =>
    if 140 < temp ∧ ¬ bitAt m.ph.thermal n then
      (({ m with ph := { m.ph with thermal := putBit m.ph.thermal n true } } : Hw).faultAt Kind.PHASE_THERMAL (0x20 + n)
        temp.toNat).rePick
    else if temp < 120 ∧ bitAt m.ph.thermal n then
      ({ m with ph := { m.ph with thermal := putBit m.ph.thermal n false } } : Hw).rePick
    else m

/-- PHASE_GATE_UV (R134): the phase does not switch; a further wake pulse follows each time, up to 10. -/
def execPhaseGateUv (n : Fin 4) (supply : Nat) (s : State) : Host.Outcome State Fault Refusal :=
  effect s fun m =>
    let k := m.ph.gateTries.getD n 0
    ({ m with
      ph := { m.ph with gateWait := putBit m.ph.gateWait n true, gateTries := m.ph.gateTries.set n (min 10 (k + 1)) }
      seq := { m.seq with wakeDue := m.seq.wakeDue || decide (k < 10) } } : Hw).faultAt Kind.PHASE_GATE_UV (0x20 + n) supply

/-- The floor of the input collapse loop, mV: 82 % of VTB_0 (R114). -/
def Hw.vtbFloor (m : Hw) : Nat := m.ph.vtb0 * 82 / 100

/-- PHASE_VTB_COLLAPSE (R114, R134): loop 5 governs for more than 1 ms. -/
def execPhaseVtbCollapse (mv : Nat) (s : State) : Host.Outcome State Fault Refusal :=
  effect s fun m =>
    if m.on Reg.PH_STATUS_REV then m else (m.wr Reg.PH_STATUS_GOV 4).fault Kind.PHASE_VTB_COLLAPSE (mv / 100)

/-- The direction of the stage has changed (R131): in REVERSE a pre-biased soft start of VTB; in FORWARD a thaw entry and
VSYS from where it stands, or a soft start where VSYS was not being regulated (R123); the phases stop with the stage. -/
def Hw.phasesFollow (m : Hw) (old dir : Nat) : Hw :=
  if dir = 2 then
    let m := ((m.wr Reg.PH_STATUS_REV 1).wr Reg.PH_STATUS_GOV 5).wr Reg.PH_STATUS_SS 0
    ({ m with ph := { m.ph with revFloor := false } } : Hw).softStart (m.rd Reg.PH_VOLT_VTB * 10)
  else if dir = 1 then
    let was := m.ph.regulating || old == 2
    let m := ((m.wr Reg.PH_STATUS_REV 0).wr Reg.PH_STATUS_GOV 0).wr Reg.PH_STATUS_SS 0
    if m.rd Reg.PH_STATUS_LATCHED ≠ 0 then m
    else if was then
      let m := { m with ph := { m.ph with regulating := true, revFloor := false, ssEnd := none } }
      ((m.setActive m.wantedPhases).thawEntry false).convertNow
    else m.softStart (m.rd Reg.PH_VOLT_VSYS * 10)
  else m.stopPhases

/-- The first write of `VSYS_SET` by F0 SUPERVISOR takes P1 out of the dead-battery start mode (R132): the reference ramps
from 5.00 V to the target of R114, and the other phases join. -/
def Hw.leaveDbs (m : Hw) : Hw :=
  if m.on Reg.XFER_STATUS_DBS then
    let m := ((m.wr Reg.XFER_STATUS_DBS 0).wr Reg.PH_STATUS_SS 1).batfet
    ({ m with ph := { m.ph with ssRef := 5000000, ssTarget := m.vsysTarget, ssEnd := none } } : Hw).rePick
  else m

/-- The output current limit, mA (R132): 1.0 A in the dead-battery start mode, and none otherwise but those of the phases. -/
def Hw.outLimit (m : Hw) : Option Nat := if m.on Reg.XFER_STATUS_DBS then some 1000 else none

/-- The output current of a frame, mA, lies at the limit of R132. -/
def Hw.outLimited (m : Hw) (f : Frame) : Bool :=
  match m.outLimit with
  | some a => decide (a ≤ 50 * (f.iphase.take 4).sum)
  | none => false

/-- What the phases show at a tick (R110, R114, R116, R135): mean currents, rail voltages, the current into the pack, the
conversion mode, the phases in foldback and the loop that governs: a current limit of a phase or of R132, the output of REVERSE,
the input collapse loop, or, with `CHG_EN` = 1, VSYS at its target, `VSYS_MIN` in LINEAR_VMIN (R125; DEDUCED,
notes/assumptions/119.md), else the charge loop. -/
def Hw.phaseTick (m : Hw) (f : Frame) : Hw :=
  let m := (m.wrSat Reg.PH_VOLT_VTB (f.vtb / 10)).wrSat Reg.PH_VOLT_VSYS (f.vsys / 10)
  let m := m.wr Reg.PH_CURR_I ((List.range 4).foldl (fun v i => v + satN 8 (f.iphase.getD i 0) * 2 ^ (8 * i)) 0)
  let m := m.wrI Reg.BATFET_STATUS_IBAT (f.inet / 10)
  let m := { m with ph := { m.ph with
      vtb0 := if f.vtb0 = 0 then m.ph.vtb0 else f.vtb0, allFour := m.rd Reg.PH_STATUS_ACTIVE == 15 } }
  let m := (m.convert f.vtb f.vsys).dispatch f.cycles
  let lim := f.limited &&& m.rd Reg.PH_STATUS_ACTIVE
  let out := if m.on Reg.PH_STATUS_REV then f.vtb else f.vsys
  let m := (m.foldback (if m.foldsBack out then lim else 0)).ssSettle
  m.wr Reg.PH_STATUS_GOV
    (if lim ≠ 0 ∨ m.outLimited f then 3
     else if m.on Reg.PH_STATUS_REV then 5
     else if f.vtb ≤ m.vtbFloor ∧ m.rd Reg.PH_STATUS_ACTIVE ≠ 0 then 4
     else if m.chgEn then
       (if m.vsysTarget ≤ f.vsys then 0 else if f.cvGov then 2 else 1)
     else 0)

/-- The dissipation of LINEAR_VMIN at each tick (R126): where (`VSYS_MIN` − V_BAT) × I_chg would pass 2.0 W, the current
that 2.0 W allow governs. -/
def Hw.pdissTick (m : Hw) : Hw :=
  let dv := m.loopValue .vsysMin * 10 - m.rd Reg.CHG_MON_VBAT
  let cap := 2000000 / max 1 dv
  let held := if m.rd Reg.BATFET_STATUS_STATE = 3 ∧ 0 < dv ∧ cap < m.loopValue .chgI * 25 then some cap else none
  { m with bat := { m.bat with pdissCap := held } }

/-! Latches cleared and the BATFET (R124 to R130). -/

/-- What a write of `PH_CTL.CLR_LATCH` does (R124, R127): the latches clear, and with them a retry that is pending and the counts
of attempts (DESIGN CHOICE, notes/assumptions/91.md). -/
def Hw.phClrLatch (m : Hw) : Hw :=
  if m.inService then
    let m := m.wr Reg.PH_STATUS_LATCHED 0
    ({ m with ph := { m.ph with attempts := 0, retryAt := none }
              bat := { m.bat with latched := false, ocpOpen := false, retries := 0, retryAt := none } }).batfet
  else m

/-- PH_CLR_LATCH (R124, R127): in SERVICE the phase and BATFET latches clear. -/
def execPhClrLatch (s : State) : Host.Outcome State Fault Refusal := effect s Hw.phClrLatch

/-- BATFET_PDISS (R126): the dissipation limit of LINEAR_VMIN has governed for more than 2 s. -/
def execBatfetPdiss (mw : Nat) (s : State) : Host.Outcome State Fault Refusal :=
  effect s fun m =>
    if m.rd Reg.BATFET_STATUS_STATE = 3 ∧ m.bat.pdissCap ≠ none then m.fault Kind.BATFET_PDISS (mw / 10) else m

/-- BATFET_OCP (R69, R127): the BATFET opens, freeze in force ends, and after three retries it latches off. -/
def execBatfetOcp (t ma : Nat) (s : State) : Host.Outcome State Fault Refusal :=
  effect s fun m =>
    let st := m.rd Reg.BATFET_STATUS_STATE
    if st = 0 ∨ st = 4 then m
    else
      let m := (m.bump Reg.PH_EVENTS_BATFET_OPENS).fault Kind.BATFET_OCP (ma / 100)
      let latch := decide (3 ≤ m.bat.retries)
      let m := { m with bat := { m.bat with
          ocpOpen := true, latched := latch, closedFrames := 0
          retryAt := if latch then none else some (m.frnAfter 16) } }
      let m := if latch then m.powerLatch 0x27 Kind.BATFET_OCP else m
      ((m.atT t).cutFreeze rsnBatfetOff true).batfet

/-- BATFET_RECLOSE (R127): at the first thaw slot after 16 ticks. -/
def execBatfetReclose (s : State) : Host.Outcome State Fault Refusal :=
  effect s fun m =>
    match m.bat.retryAt with
    | none => m
    | some a =>
      if m.frnReached a ∧ ¬ m.quietDue ∧ ¬ m.bat.latched then
        ({ m with bat := { m.bat with ocpOpen := false, retryAt := none, retries := m.bat.retries + 1, closedFrames := 0 } }).batfet
      else m

/-- BATFET_RETRY_COUNT_CLEAR (R127): 256 frames closed after a reclosure. -/
def execBatfetRetryCountClear (s : State) : Host.Outcome State Fault Refusal :=
  effect s fun m =>
    if 256 ≤ m.bat.closedFrames ∧ ¬ m.bat.ocpOpen then { m with bat := { m.bat with retries := 0, closedFrames := 0 } } else m

/-- BATFET_THERMAL (R128): above 135 °C the charge reference goes to zero until below 115 °C. -/
def execBatfetThermal (temp : Int) (s : State) : Host.Outcome State Fault Refusal :=
  effect s fun m =>
    let m := m.wrI Reg.BATFET_STATUS_TEMP temp
    if 135 < temp ∧ ¬ m.bat.thermal then
      ({ m.wr Reg.CHG_STATUS_REF_ZERO 1 with bat := { m.bat with thermal := true } }).fault Kind.BATFET_THERMAL temp.toNat
    else if temp < 115 ∧ m.bat.thermal then
      let m := { m with bat := { m.bat with thermal := false } }
      m.wrB Reg.CHG_STATUS_REF_ZERO (m.chg.hwStop != 0)
    else m

/-- VSYS_UV (R128). -/
def execVsysUv (mv : Nat) (s : State) : Host.Outcome State Fault Refusal :=
  effect s fun m => if mv < 4600 then m.fault Kind.VSYS_UV (mv / 100) else m

/-- REV_BAT_FLOOR (R130): in reverse operation the phases stop and wind down. -/
def execRevBatFloor (mv : Nat) (s : State) : Host.Outcome State Fault Refusal :=
  effect s fun m =>
    if m.on Reg.PH_STATUS_REV ∧ mv < m.loopValue .vsysMin * 10 + 100 then
      let m := ((m.windDown.wr Reg.PH_STATUS_ACTIVE 0).wr Reg.PH_STATUS_SS 0).fault Kind.REV_BAT_FLOOR (mv / 100)
      ({ m with ph := { m.ph with revFloor := true, regulating := false, allFour := false, ssEnd := none } } : Hw).convertNow
    else m

end Sys2Proof.Machine
end

