-- ==== Sys2Proof/Machine/IntakeXfer.lean ====
section
/-! DEFINITION. Intake and isolated transfer (chapter 03). -/

namespace Sys2Proof

/-- The code of a source in `INTAKE_STATUS.ACTIVE` (R82). -/
def PowerSrc.code : PowerSrc → Nat
  | .vbus => 1 | .dcin => 2

end Sys2Proof

namespace Sys2Proof.Machine

/-- The transfer stage runs, or is changing to run, in reverse (R79). -/
def Hw.reverse (m : Hw) : Bool := m.rd Reg.XFER_STATUS_DIR = 2 || (m.rd Reg.XFER_STATUS_DIR = 3 && m.xfer.target = 2)

/-- A source is qualified (R76). -/
def Hw.qualified (m : Hw) : PowerSrc → Bool
  | .vbus => m.on Reg.INTAKE_STATUS_VBUS_QUAL
  | .dcin => m.on Reg.INTAKE_STATUS_DCIN_QUAL

/-- A source's qualification written. -/
def Hw.setQualified (m : Hw) (x : PowerSrc) (b : Bool) : Hw :=
  match x with
  | .vbus => m.wrB Reg.INTAKE_STATUS_VBUS_QUAL b
  | .dcin => m.wrB Reg.INTAKE_STATUS_DCIN_QUAL b

/-- The source of higher priority (R79). -/
def Hw.firstSource (m : Hw) : PowerSrc := if m.rd Reg.INTAKE_CFG_PRI = 0 then .dcin else .vbus

/-- The other source. -/
def otherSource : PowerSrc → PowerSrc
  | .vbus => .dcin | .dcin => .vbus

/-- The voltage of a source as the host monitor last read it, mV. -/
def Hw.sourceMv (m : Hw) : PowerSrc → Nat
  | .vbus => m.rd Reg.INTAKE_MON_V_VBUS * 10
  | .dcin => m.rd Reg.INTAKE_MON_V_DCIN * 10

/-- JR_SOURCE_CHANGE (R82): OLD, NEW, V in 10 mV units, LIM in 10 mA units. -/
def Hw.sourceRecord (m : Hw) (old new mv lim : Nat) : Hw :=
  m.recordH JR.SOURCE_CHANGE 0x01 (le 1 old ++ le 1 new ++ le 2 (mv / 10) ++ le 2 lim ++ le 2 0)

/-- The intake switch of a source may close (R78, R79, R100): not in reverse, not beside the source switch on VBUS, and not
while the die or CBUF holds both open. -/
def Hw.mayClose (m : Hw) (x : PowerSrc) : Bool :=
  !m.reverse && !(x == .vbus && m.cable.srcSwitch) && !m.intake.thermalOpen && !m.intake.ovOpen

/-- The active source has changed (R82, R83): its flag, its count, and 500 mA in the latch. -/
def Hw.switched (m : Hw) (new : Nat) : Hw :=
  let m := ((m.wr Reg.INTAKE_STATUS_ACTIVE new).wr Reg.INTAKE_STATUS_SRC_CHANGE 1).bump Reg.INTAKE_EVENTS_SWITCHOVERS
  (((m.putLatch .intakeLim 50).wr Reg.INTAKE_LIM_EFF_CAUSE 4).wr Reg.INTAKE_STATUS_RAMP 0).alertSet 6

/-- A source becomes the active one: break before make, the current held at 500 mA for 10 ms (R80, R83). -/
def Hw.activate (m : Hw) (x : PowerSrc) (mv : Nat) : Hw :=
  let m := m.switched x.code
  { m with
    intake := { m.intake with blocked := false, startCap := true, vsource := mv, prioHold := false }
    xfer := { m.xfer with drainTo := none, bleed := false } }

/-- A source becomes the active one for another reason than a loss (R82): the record names its voltage. -/
def Hw.take (m : Hw) (x : PowerSrc) (mv : Nat) : Hw :=
  let old := m.rd Reg.INTAKE_STATUS_ACTIVE
  let m := m.activate x mv
  m.sourceRecord old x.code mv (m.rd Reg.INTAKE_LIM_EFF_LIM)

/-- The closed switch opens, and no source is active (R79, R100). -/
def Hw.openActive (m : Hw) : Hw :=
  let old := m.rd Reg.INTAKE_STATUS_ACTIVE
  if old = 0 then m
  else
    let lim := m.rd Reg.INTAKE_LIM_EFF_LIM
    (m.switched 0).sourceRecord old 0 0 lim

/-- A qualified source whose switch may now close becomes the active one where there is none (R79): the first of the
priority, or the only one. -/
def Hw.settleSource (m : Hw) : Hw :=
  if m.rd Reg.INTAKE_STATUS_ACTIVE ≠ 0 then m
  else
    match [m.firstSource, otherSource m.firstSource].find? fun x => m.qualified x && m.mayClose x with
    | some x => m.take x (m.sourceMv x)
    | none => m

/-- The window in which a source qualifies, in mV (R76): VBUS has the contract's window while H0 CABLE has set one. -/
def Hw.risingWindow (m : Hw) : PowerSrc → Nat × Nat
  | .dcin => (8800, 61000)
  | .vbus => if m.cable.window then (m.cable.riseLo, m.cable.riseHi) else (4400, 5500)

/-- The thresholds at which a qualified source is lost, in mV (R76). -/
def Hw.fallingWindow (m : Hw) : PowerSrc → Nat × Nat
  | .dcin => (8400, 61500)
  | .vbus => if m.cable.window then (m.cable.fallLo, m.cable.fallHi) else (4000, 5800)

/-- A voltage lies beyond a source's falling thresholds (R76). -/
def Hw.outside (m : Hw) (x : PowerSrc) (mv : Nat) : Bool :=
  decide (mv < (m.fallingWindow x).1) || decide ((m.fallingWindow x).2 < mv)

/-- SOURCE_QUALIFY (R76, R79): inside its window for its time. The only qualified source becomes active where its switch
may close; a source wakes a dozing H-CORE, and a field side in KEEPALIVE by its code (R238, R440). -/
def execSourceQualify (src : PowerSrc) (mv : Nat) (s : State) : Host.Outcome State Fault Refusal :=
  effect s fun m =>
    let w := m.risingWindow src
    if mv < w.1 ∨ w.2 < mv then m
    else
      let m := (m.setQualified src true).hcoreWake
      let m := if m.host.fieldAsleep then m.haltCode .attachWake else m
      if m.rd Reg.INTAKE_STATUS_ACTIVE = 0 then (if m.mayClose src then m.take src mv else m)
      else if m.rd Reg.INTAKE_STATUS_ACTIVE ≠ src.code ∧ m.firstSource = src then
        { m with intake := { m.intake with prioHold := true } }
      else m

/-- The lower CBUF limit of the droop window, mV (R86). -/
def Hw.vLo (m : Hw) : Nat := m.intake.vsource * (100 - m.rd Reg.INTAKE_CFG_WIN) / 100

/-- The upper CBUF limit, mV (R86). -/
def Hw.vHi (m : Hw) : Nat := m.intake.vsource - m.rd Reg.INTAKE_CFG_HEADROOM * 10

/-- The active source is lost at a voltage (R79, R80, R82, R107): the switch opens, the loss code goes out, the fault and the
record follow, and the other qualified source takes over at once. Without one the bridge still delivers CBUF down to the
old V_lo. -/
def Hw.loseActive (m : Hw) (x : PowerSrc) (mv mvOther : Nat) : Hw :=
  let lim := m.rd Reg.INTAKE_LIM_EFF_LIM
  let old := m.vLo
  let m := ((m.wr Reg.INTAKE_STATUS_ACTIVE 0).haltCode .sourceLoss).hfault
    (if (m.fallingWindow x).2 < mv then Kind.INTAKE_OV else Kind.INTAKE_UV) x.code
  let y := otherSource x
  let takes := m.qualified y && m.mayClose y
  let m := if takes then m.activate y mvOther
    else { m.switched 0 with xfer := { (m.switched 0).xfer with drainTo := some old } }
  m.sourceRecord x.code (if takes then y.code else 0) mv lim

/-- INTAKE_SOURCE_LOSS (R76, R79, R82, R107): a qualified source outside its falling thresholds is lost, and with it the
other one where that has left its own within the same 10 µs; the recorded source is the active one. -/
def execIntakeSourceLoss (src : PowerSrc) (mv mvOther : Nat) (s : State) : Host.Outcome State Fault Refusal :=
  effect s fun m =>
    if !m.qualified src || !m.outside src mv then m
    else
      let y := otherSource src
      let both := m.qualified y && m.outside y mvOther
      let m := m.setQualified src false
      let m := if both then m.setQualified y false else m
      let m := { m with intake := { m.intake with prioHold := m.intake.prioHold && m.qualified m.firstSource } }
      if m.rd Reg.INTAKE_STATUS_ACTIVE = src.code then m.loseActive src mv mvOther
      else if both && m.rd Reg.INTAKE_STATUS_ACTIVE == y.code then m.loseActive y mvOther mv
      else m

/-- PRIORITY_SOURCE_TAKEOVER (R79): a further 100 ms of qualification. -/
def execPrioritySourceTakeover (mv : Nat) (s : State) : Host.Outcome State Fault Refusal :=
  effect s fun m =>
    let x := m.firstSource
    let old := m.rd Reg.INTAKE_STATUS_ACTIVE
    if m.intake.prioHold ∧ m.qualified x ∧ old ≠ 0 ∧ old ≠ x.code ∧ m.mayClose x then m.take x mv else m

/-- The source switch of an armed swap (R229): it closes below 4.70 V, with the intake switch open by reverse blocking. -/
def Hw.frsClose (m : Hw) (vbus : Nat) : Hw :=
  if m.cable.frsRx = true ∧ m.cable.srcSwitch = false ∧ vbus < 4700 ∧ (m.rd Reg.INTAKE_STATUS_ACTIVE ≠ 1 ∨ m.intake.blocked = true) then
    let m := if m.rd Reg.INTAKE_STATUS_ACTIVE = 1 then m.openActive else m
    { m with cable := { m.cable with srcSwitch := true, discharge := false } }
  else m

/-- REVERSE_BLOCK (R81, R100). -/
def execReverseBlock (s : State) : Host.Outcome State Fault Refusal :=
  effect s fun m =>
    if m.rd Reg.INTAKE_STATUS_ACTIVE ≠ 0 ∧ ¬ m.intake.blocked then
      let m := m.bump Reg.INTAKE_EVENTS_REV_BLOCKS
      let m := { m with intake := { m.intake with blocked := true, revFrame := m.intake.revFrame + 1 } }
      let m := if m.intake.revFrame = 17 then m.hfault Kind.INTAKE_REVERSE m.intake.revFrame else m
      m.frsClose (m.rd Reg.INTAKE_MON_V_VBUS * 10)
    else m

/-- REVERSE_RECONDUCT (R81). -/
def execReverseReconduct (s : State) : Host.Outcome State Fault Refusal :=
  effect s fun m => { m with intake := { m.intake with blocked := false } }

/-! The current limit (R83, R91). -/

/-- The values that the limit may not pass, in 10 mA units, with their causes (R83). Until the configured fields are loaded
500 mA stand in their place, or the advertised current of a dead-battery start (R91). -/
def Hw.limits (m : Hw) : List (Nat × Nat) :=
  [if m.intake.loaded then (m.rd Reg.INTAKE_LIM_CFG_LIM, 0)
   else if m.intake.deadStart then (m.intake.deadAdvert, 1) else (50, 4)] ++
  (if m.rd Reg.INTAKE_STATUS_ACTIVE = 1 then [(m.intake.advert, 1)] else []) ++
  [(m.rd Reg.INTAKE_LIM_HOST_LIM, 2)] ++
  (if m.intake.startCap then [(50, 4)] else [])

/-- The least of some limits; the first of equal ones. -/
def leastLimit : List (Nat × Nat) → Nat × Nat
  | [] => (600, 0)
  | x :: xs => let y := leastLimit xs
    if x.1 ≤ y.1 then x else y

/-- The value that `INTAKE_LIM` is to take, and what governs it (R83): the dissipation limit while it acts (R85). -/
def Hw.limitOf (m : Hw) : Nat × Nat :=
  let x := leastLimit m.limits
  (x.1, if m.on Reg.INTAKE_STATUS_PDISS_LIMIT then 3 else x.2)

/-- H1 INTAKE writes `INTAKE_LIM` (R33, R83). -/
def Hw.limitWrite (m : Hw) : Hw :=
  if m.latchBad .intakeLim || m.ownerAway .intakeLim then m
  else (m.ownLatch .intakeLim m.limitOf.1).wr Reg.INTAKE_LIM_EFF_CAUSE m.limitOf.2

/-- INTAKE_LIMIT_UPDATE (R83). -/
def execIntakeLimitUpdate (s : State) : Host.Outcome State Fault Refusal := effect s Hw.limitWrite

/-- INTAKE_STARTUP_LIMIT_EXPIRY (R83): the 500 mA of the first 10 ms no longer applies. -/
def execIntakeStartupLimitExpiry (s : State) : Host.Outcome State Fault Refusal :=
  effect s fun m => ({ m with intake := { m.intake with startCap := false } }).limitWrite

/-- INTAKE_PDISS (R85): the dissipation limit has acted for more than 2 s outside a ramp. -/
def execIntakePdiss (watts : Nat) (s : State) : Host.Outcome State Fault Refusal :=
  effect s fun m =>
    if m.on Reg.INTAKE_STATUS_RAMP ∨ ¬ m.on Reg.INTAKE_STATUS_PDISS_LIMIT then m else m.hfault Kind.INTAKE_PDISS watts

/-! The host monitor (R85 to R90, R93, R94). -/

/-- INTAKE_STATUS [15:0] as TM_HSTATUS carries it (R406). -/
def Hw.intakeStatus16 (m : Hw) : Nat := m.readWord 0x0200 % 65536

/-- The temperature derating of the transfer stage, in percent: 100 % at 125 °C falling linearly to 30 % at 138 °C, and 0 while
XFER_THERMAL acts (R94, R100). -/
def Hw.derating (m : Hw) (temp : Int) : Nat :=
  if m.xfer.thermal then 0
  else if temp ≤ 125 then 100 else 100 - 70 * (min 13 (temp - 125)).toNat / 13

/-- The power that the stage may carry at a CBUF voltage, in 10 mW units, but for the floor of R86 (R93, R94): nothing outside
the operating range of CBUF; 180 W and 9.0 A forward, 100 W and 6.67 A in reverse; 220 W or 120 W for 10 ms in any 100 ms; the
configured limit; the derating. -/
def Hw.xferCap (m : Hw) (vcbuf : Nat) (temp : Int) : Nat :=
  let rev := m.reverse
  let cont := if rev then min 10000 (667 * vcbuf / 1000) else min 18000 (9 * vcbuf / 10)
  let peak := (m.xfer.peaks.filter id).length < 10
  let power := if peak then max cont (if rev then 12000 else 22000) else cont
  let conf := (if rev then m.rd Reg.XFER_LIMIT_REV_LIM else m.rd Reg.XFER_LIMIT_FWD_LIM) * 100
  let range := if rev then decide (3500 ≤ vcbuf) && decide (vcbuf ≤ 21500) else decide (4500 ≤ vcbuf) && decide (vcbuf ≤ 62000)
  if range then min power conf * m.derating temp / 100 else 0

/-- The stage's power over the last millisecond (R93, R94): it is shown, a sample above the continuous power spends the peak
allowance, and `PLIM` shows that a limit other than the floor acts. -/
def Hw.powerSample (m : Hw) (vcbuf : Nat) (temp p : Int) : Hw :=
  let cont := if m.reverse then min 10000 (667 * vcbuf / 1000) else min 18000 (9 * vcbuf / 10)
  let run := m.rd Reg.XFER_STATUS_DIR = 1 ∨ m.rd Reg.XFER_STATUS_DIR = 2
  let m := (m.wrI Reg.XFER_POWER_P p).wrB Reg.XFER_STATUS_PLIM (m.xfer.thermal ||
    (decide run && decide (m.xferCap vcbuf temp ≤ p.natAbs)))
  { m with xfer := { m.xfer with peaks := lastN 100 (m.xfer.peaks ++ [decide (cont < p.natAbs)]) } }

/-- The inputs present (R90), of which `was` were: VBUS and DCIN while they alone would hold the OR above the power-good
level, which rises at 2.60 V and falls below 2.50 V, and H_AUX. -/
def inputsPresent (was vbus dcin : Nat) (aux : Bool) : Nat :=
  let at_ := fun (i v : Nat) => decide ((if bitAt was i then 2500 else 2600) ≤ v)
  b2n (at_ 0 vbus) + 2 * b2n (at_ 1 dcin) + 4 * b2n aux

/-- The floor of the bridge, mV: V_lo, and during a ramp that of the window before it (R86, R89). -/
def Hw.floorMv (m : Hw) : Nat := if m.on Reg.INTAKE_STATUS_RAMP then m.intake.floorBefore else m.vLo

/-- The dissipation limit after a sample of the intake's dissipation in mW (R85): 30 W in a ramp until it has dissipated 10 J,
8.0 W otherwise. -/
def Hw.pdissSample (m : Hw) (pdiss : Nat) : Hw :=
  let ramp := m.on Reg.INTAKE_STATUS_RAMP
  let m := { m with intake := { m.intake with rampUj := if ramp then m.intake.rampUj + pdiss else m.intake.rampUj } }
  let top := if ramp && decide (m.intake.rampUj < 10000000) then 30000 else 8000
  let lim := decide (top ≤ pdiss)
  if lim = m.on Reg.INTAKE_STATUS_PDISS_LIMIT then m
  else
    let m := if lim then m.bump Reg.INTAKE_EVENTS_PDISS_EVENTS else m
    let m := m.wrB Reg.INTAKE_STATUS_PDISS_LIMIT lim
    m.wr Reg.INTAKE_LIM_EFF_CAUSE m.limitOf.2

/-- CBUF after the loss of the last source (R107): at the old V_lo the bridge has stopped, and the bleed discharges it. -/
def Hw.drainCbuf (m : Hw) (vcbuf : Nat) : Hw :=
  match m.xfer.drainTo with
  | some v => if vcbuf ≤ v then { m with xfer := { m.xfer with drainTo := none, bleed := true } } else m
  | none => m

/-- What the hardware start of R92 does to the stage and to P1 (R132): the stage runs forward and P1 raises VSYS to 5.0 V; a
stage that is latched off does not start (R101). -/
def Hw.startStage (m : Hw) : Hw :=
  if m.on Reg.XFER_STATUS_LATCHED then m
  else
    let m := { m with xfer := { m.xfer with target := 1, before := 1, step := 0, frames := 0 } }
    let m := m.putLatch .xferCtl 1
    let m := (m.wr Reg.XFER_STATUS_DIR 1).wr Reg.XFER_STATUS_DBS 1
    let m := ((m.wr Reg.PH_STATUS_CMODE 3).wr Reg.PH_STATUS_ACTIVE 1).wr Reg.PH_STATUS_SS 1
    ({ m with ph := { m.ph with regulating := true, ssRef := 0, ssTarget := 5000, ssDiode := false } } : Hw).batfet

/-- The two latches that H-PWR holds are lost with its power (R22, R28). -/
def Hw.stageLatchesLost (m : Hw) : Hw :=
  { m with arch := { m.arch with xferCtl := 0, shadows := m.arch.shadows.filter fun (x : Shadow) => 2 ≤ x.latch.index } }

/-- H-PWR starts from its reset state (R22): `INTAKE_LIM` at 500 mA, the stage off. -/
def Hw.stageLatchesUp (m : Hw) : Hw := (m.putLatch .intakeLim 50).wr Reg.INTAKE_LIM_EFF_CAUSE 4

/-- H-PWR is on while CBUF exceeds 4.5 V (R21, R90), and starts from its reset state each time (R22); a dead-battery start
that it had ended goes on (R92). Its switching records no DOMAIN_PG, and what `INTAKE_STATUS` shows stays (DEDUCED,
notes/assumptions/103.md). -/
def Hw.hPwrFollow (m : Hw) (vcbuf : Nat) : Hw :=
  let b := decide (4500 < vcbuf)
  if (m.domain .hPwr).pg = b then m
  else if b then
    let m := (m.powerDomain .hPwr true).stageLatchesUp
    if m.intake.deadStart && !m.intake.loaded && m.rd Reg.INTAKE_STATUS_ACTIVE != 0 then m.startStage else m
  else (m.powerDomain .hPwr false).stageLatchesLost

/-- V_SOURCE_REFRESH (R85, R86, R89, R90, R93, R94): each 1 ms the monitor ADC refreshes V_source and the monitors, the
present inputs and H-PWR follow, and TM_HSTATUS reports them (R406). -/
def execVSourceRefresh (v : IntakeVolts) (iin pdiss : Nat) (temp xpow : Int) (aux : Bool) (s : State) :
    Host.Outcome State Fault Refusal :=
  effect s fun m =>
    let m := (((m.wrSat Reg.INTAKE_MON_V_VBUS (v.vbus / 10)).wrSat Reg.INTAKE_MON_V_DCIN (v.dcin / 10)).wrSat
      Reg.INTAKE_MON_CBUF_VCBUF (v.vcbuf / 10)).wrSat Reg.INTAKE_MON_CBUF_IIN iin
    let m := ((m.wrSat Reg.INTAKE_MON_PD_PDISS pdiss).wrI Reg.INTAKE_MON_PD_TEMP temp).wrB Reg.INTAKE_STATUS_HAUX aux
    let act := m.rd Reg.INTAKE_STATUS_ACTIVE
    let m := { m with intake := { m.intake with
        vsource := if act = 1 then v.vbus else if act = 2 then v.dcin else m.intake.vsource
        ovOpen := m.intake.ovOpen && decide (63000 < v.vcbuf), present := inputsPresent m.intake.present v.vbus v.dcin aux
        pin := v.vcbuf * iin / 10000 } }
    let m := m.wrB Reg.INTAKE_STATUS_LIMITING (m.rd Reg.INTAKE_LIM_EFF_LIM * 10 ≤ iin)
    let m := if m.floorMv < v.vcbuf then m.wr Reg.XFER_STATUS_FLOOR 0 else m
    let m := (((m.pdissSample pdiss).hPwrFollow v.vcbuf).powerSample v.vcbuf (m.rdI Reg.XFER_STATUS_TEMP) xpow)
    let m := ((m.frsClose v.vbus).drainCbuf v.vcbuf).settleSource
    if m.rd Reg.TL_H_STATUS_STATE = 2 then
      m.sendH 0x22 0 (le 2 (v.vcbuf / 10) ++ le 2 (m.intake.vsource / 10) ++ le 2 iin ++ le 2 m.intake.pin ++
        le 2 m.intakeStatus16)
    else m

/-- CBUF_FLOOR_REACHED (R86): in thaw, the draw falls to the intake delivery. -/
def execCbufFloorReached (s : State) : Host.Outcome State Fault Refusal :=
  effect s fun m => if m.on Reg.XFER_STATUS_QUIET then m else m.wr Reg.XFER_STATUS_FLOOR 1

/-- CBUF_MEASURE (R88): C = I·t/ΔV over a freeze run of at least 2 ms at a steady limit; the mean of 64 runs is published, and
CBUF_LOW recorded where it comes below 80 % of nominal. -/
def execCbufMeasure (us ma dmv : Nat) (steady : Bool) (s : State) : Host.Outcome State Fault Refusal :=
  effect s fun m =>
    if 2000 ≤ us ∧ steady ∧ 0 < dmv ∧ m.on Reg.XFER_STATUS_QUIET then
      let low := fun (m : Hw) => m.on Reg.INTAKE_CBUF_C_VALID && decide (m.rd Reg.INTAKE_CBUF_C_CEFF * 100 < m.chg.cbufNom * 80)
      let was := low m
      let samples := lastN 64 (m.intake.samples ++ [ma * us / dmv / 10])
      let m := { m with intake := { m.intake with samples := samples } }
      let m := if samples.length = 64 then
        (m.wrSat Reg.INTAKE_CBUF_C_CEFF (meanN samples)).wr Reg.INTAKE_CBUF_C_VALID 1 else m
      if low m && !was then m.hfault Kind.CBUF_LOW (m.rd Reg.INTAKE_CBUF_C_CEFF) else m
    else m

/-- CBUF_RAMP_START (R89): the active source lies more than 0.5 V above CBUF. The floor stays at the window before the ramp,
4.5 V after an attach. -/
def execCbufRampStart (mv : Nat) (s : State) : Host.Outcome State Fault Refusal :=
  effect s fun m =>
    if m.rd Reg.INTAKE_STATUS_ACTIVE = 0 ∨ mv ≤ m.rd Reg.INTAKE_MON_CBUF_VCBUF * 10 + 500 then m
    else
      let floor := if m.intake.startCap then 4500 else m.vLo
      { (m.wr Reg.INTAKE_STATUS_RAMP 1) with
        intake := { m.intake with floorBefore := floor, vsource := mv, rampUj := 0 } }

/-- CBUF_RAMP_END (R89): V_CBUF reaches V_hi of the new window. -/
def execCbufRampEnd (mv : Nat) (s : State) : Host.Outcome State Fault Refusal :=
  effect s fun m => if m.vHi ≤ mv then m.wr Reg.INTAKE_STATUS_RAMP 0 else m

/-- What the cable port keeps as H-AON loses power (R76, R210): what the field side holds. Its switches open, and the
terminations are those of a dead battery. -/
def Cable.hostLost (c : Cable) : Cable :=
  { Cable.reset with
    ended := c.ended, target := c.target, qbat := c.qbat, qvalid := c.qvalid, resState := c.resState, ires := c.ires
    sentI5 := c.sentI5 }

/-- The host registers at their reset values, and what the host side held in H-AON and H-CORE gone (R90, R91, R106). -/
def Hw.hostBlank (m : Hw) : Hw :=
  { m with
    regs := m.regs.filter (fun e => isFieldAddr (e.1 / 32))
    flt := { m.flt with hostBuf := [] }
    cable := m.cable.hostLost
    intake := { m.intake with
      blocked := false, revFrame := 0, startCap := false, advert := 50, loaded := false
      cfgAsked := false, deadStart := false, thermalOpen := false, ovOpen := false, vsource := 0, floorBefore := 0, rampUj := 0, deadAdvert := 0
      samples := [], pin := 0, prioHold := false }
    xfer := { m.xfer with
      target := 0, before := 0, step := 0, frames := 0, failures := 0, retryAt := none, retryDir := 0
      mirror := false, stopped := m.arch.sb.quiet, ordered := none, drainTo := none, bleed := false, peaks := []
      chanFault := false, ovStop := false, thermal := false }
    arch := { m.arch with
      xferCtl := 0, shadows := m.arch.shadows.filter (fun x => 2 ≤ x.latch.index)
      sb := { m.arch.sb with hCodes := [], hostReset := false }
      hostFieldReset := false }
    host := { m.host with
      h := { m.host.h with
        txNext := 0, rxNext := 0, waiting := [], queue := [], resends := 0, unacked := 0, epoch := 0
        crcFrame := 0, inbox := [], rxLost := true }
      mbx := { places := [], results := [] }
      snap := { image := [], frn := 0, chunks := [], us := 0, stale := false }
      drain := { m.host.drain with buffer := [], tail := [], openReq := none }
      alert := false, busy := false } }

/-- HAON_POWER_UP (R90, R91, R210, R407): the registers of H-AON hold their reset values, H-CORE starts, and H2
HOSTPORT asks for the configured fields. -/
def execHaonPowerUp (inputs : Fin 8) (s : State) : Host.Outcome State Fault Refusal :=
  effect s fun m =>
    if inputs.val = 0 then m
    else
      let m := m.hostBlank
      let m := { m with intake := { m.intake with present := inputs }
                        modes := { m.modes with haonOn := true }
                        bist := { m.bist with hdue := List.range 7 } }
      let m := ((m.powerDomain .hAon true).powerDomain .hCore true).powerDomain .hPwr false
      let m := m.wrB Reg.INTAKE_STATUS_HAUX (bitAt inputs 2)
      if m.host.pinLow || bitAt m.lb.testHigh 0 || (m.engine .h2).fenced then m
      else (((m.runEngine .h0).runEngine .h1).h2Up)

/-- HOST_CONFIG_TIMEOUT (R91): no answer within 500 ms; the limit stays at 500 mA, or at the advertised current in a
dead-battery start. -/
def execHostConfigTimeout (s : State) : Host.Outcome State Fault Refusal :=
  effect s fun m =>
    if m.intake.loaded then m else ({ m with intake := { m.intake with cfgAsked := false } }).limitWrite

/-- The stage starts forward by hardware as CBUF passes 4.5 V, and with it F-AON powers (R92, R132); a stage that is latched off
does not start (R101). The ship cell clears at F-AON power-good. -/
def Hw.dbsStart (m : Hw) : Hw :=
  if m.on Reg.XFER_STATUS_LATCHED then m
  else
    let m := { m with modes := { m.modes with
      faonOn := true, shipNReady := m.modes.shipNReady && !m.modes.shipCell, shipCell := false } }
    (((m.powerDomain .hPwr true).powerDomain .fAon true).powerDomain .fPwr true).startStage

/-- The hardware start of R92 from one input, with F-AON unpowered (R210, R446): the intake closes at 500 mA for the first
10 ms, then at the advertised current in 10 mA units. The command is the start as a whole, from the closing of the switch to
F-AON power-good. A switch that the interlocks of R78 and R100 hold open starts nothing; a source that is the active one
already stays so, without a record (R82). -/
def Hw.hardStart (m : Hw) (x : PowerSrc) (advert : Nat) : Hw :=
  let m := m.setQualified x true
  if m.rd Reg.INTAKE_STATUS_ACTIVE ≠ x.code ∧ ¬ m.mayClose x then m
  else
  let m := if m.rd Reg.INTAKE_STATUS_ACTIVE = x.code then m else m.take x (m.sourceMv x)
  ({ m with intake := { m.intake with deadStart := true, advert := advert, deadAdvert := advert } } : Hw).dbsStart

/-- DEAD_BATTERY_START (R92): from VBUS, at the Type-C advertised current. -/
def execDeadBatteryStart (advert : Nat) (s : State) : Host.Outcome State Fault Refusal :=
  effect s fun m =>
    if m.modes.faonOn then m else m.hardStart .vbus (clampN 5 600 (advert / 10))

/-- XFER_QUIET_LATE (R98): the field switches open, the fault is recorded, and F0 SUPERVISOR fences the stage by
ordering OFF. -/
def execXferQuietLate (ns : Nat) (s : State) : Host.Outcome State Fault Refusal :=
  effect s fun m =>
    let m := (m.fault Kind.XFER_QUIET_LATE ns).fenceBit 0x30
    ({ m with xfer := { m.xfer with fenced := true } }).orderXfer 0 0

/-! Direction changes (R99, R131). -/

/-- Step 4 of R99 confirms the interlock: intake switches open for REVERSE, the source switch open for FORWARD. -/
def Hw.interlockOpen (m : Hw) (dir : Nat) : Bool :=
  if dir = 2 then m.rd Reg.INTAKE_STATUS_ACTIVE = 0 else if dir = 1 then !m.cable.srcSwitch else true

/-- A direction change is complete (R99): the stage runs in its direction, the phases follow, the change is counted and
recorded, and a qualified source is taken where the stage no longer runs in reverse. -/
def Hw.dirDone (m : Hw) (old dir : Nat) : Hw :=
  let m := { m with xfer := { m.xfer with
      target := dir, before := dir, step := 0, frames := 0, failures := 0, retryAt := none, ovStop := false } }
  let m := (m.wr Reg.XFER_STATUS_DIR dir).phasesFollow old dir
  let m := if old = dir then m
    else (m.bump Reg.XFER_STATS_DIR_CHANGES).recordH JR.XFER_DIR 0x01 (le 1 old ++ le 1 dir ++ le 2 0)
  m.settleSource

/-- A direction change as far as a step (R99): completed at step 6 where its interlock holds, suspended otherwise; one that
goes on keeps the step it has reached. The latch takes the write as R31 and R33 let it. -/
def Hw.changeDir (m : Hw) (dir reached : Nat) : Hw :=
  if m.latchBad .xferCtl || m.ownerAway .xferCtl then m
  else
    let same := m.rd Reg.XFER_STATUS_DIR = 3 ∧ m.xfer.target = dir
    let old := if m.rd Reg.XFER_STATUS_DIR = 3 then m.xfer.before else m.rd Reg.XFER_STATUS_DIR
    let step := if same then max reached m.xfer.step else reached
    let m := (m.ownLatch .xferCtl dir).windDown
    let m := if dir = 2 then m.openActive else m
    let step := if !m.interlockOpen dir && decide (3 < step) then 3 else step
    if step = 6 ∨ dir = 0 then m.dirDone old dir
    else
      { (m.wr Reg.XFER_STATUS_DIR 3) with xfer := { m.xfer with
          target := dir, before := old, step := step, frames := if same then m.xfer.frames else 0 } }

/-- XFER_DIRECTION_CHANGE (R93, R99, R101, R131): a write of XFER_CTL by H1 INTAKE, in thaw; a latched stage refuses
every direction but OFF. -/
def execXferDirectionChange (dir : Fin 3) (reached : Fin 7) (s : State) : Host.Outcome State Fault Refusal :=
  effect s fun m =>
    if m.on Reg.XFER_STATUS_QUIET ∨ (m.on Reg.XFER_STATUS_LATCHED ∧ dir.val ≠ 0) then m
    else if m.rd Reg.XFER_STATUS_DIR = dir.val then m
    else m.changeDir dir reached

/-- H1 INTAKE acts on the direction that F0 SUPERVISOR instructs (R99, R101): in thaw the sequence begins, in freeze it waits;
a latched stage refuses every direction but OFF, and a retry of another direction than the one instructed is given up. -/
def Hw.instructDir (m : Hw) (dir : Nat) : Hw :=
  if m.on Reg.XFER_STATUS_LATCHED ∧ dir ≠ 0 then m
  else if m.on Reg.XFER_STATUS_QUIET then { m with xfer := { m.xfer with ordered := some dir } }
  else
    let m := { m with xfer := { m.xfer with
      ordered := none, retryAt := if dir = m.xfer.retryDir then m.xfer.retryAt else none } }
    if m.rd Reg.XFER_STATUS_DIR = dir then m.ownLatch .xferCtl dir else m.changeDir dir 0

/-- TSB_QUIET_CHANGE (R16, R95): the level that the sequencer drives reaches the primary bridge, which stops or makes a
soft resume (R97); a direction that has waited for thaw is begun (R99). -/
def execTsbQuietChange (high : Bool) (s : State) : Host.Outcome State Fault Refusal :=
  effect s fun m =>
    if high = m.arch.sb.quiet then
      let m := m.wrB Reg.XFER_STATUS_QUIET high
      let m := { m with xfer := { m.xfer with stopped := high, chanFault := false } }
      match m.xfer.ordered with
      | some d => if high then m else m.instructDir d
      | none => m
    else m

/-- XFER_DIR_TIMEOUT (R99): not complete in 4 frames; the stage returns to OFF. -/
def execXferDirTimeout (s : State) : Host.Outcome State Fault Refusal :=
  effect s fun m =>
    if m.rd Reg.XFER_STATUS_DIR = 3 ∧ 4 ≤ m.xfer.frames then
      let step := m.xfer.step
      let m := ((m.putLatch .xferCtl 0).wr Reg.XFER_STATUS_DIR 0).stopPhases
      (({ m with xfer := { m.xfer with target := 0, before := 0, step := 0, frames := 0 } } : Hw).hfault
        Kind.XFER_DIR_TIMEOUT step).settleSource
    else m

/-- What the transfer stage and the intake count per frame (R99, R100). -/
def Hw.stageTick (m : Hw) : Hw :=
  { m with
    xfer := { m.xfer with frames := if m.rd Reg.XFER_STATUS_DIR = 3 then m.xfer.frames + 1 else m.xfer.frames }
    intake := { m.intake with revFrame := 0 } }

/-- INTAKE_THERMAL (R100): open above 135 °C until below 115 °C. -/
def execIntakeThermal (temp : Int) (s : State) : Host.Outcome State Fault Refusal :=
  effect s fun m =>
    if 135 < temp ∧ ¬ m.intake.thermalOpen then
      (({ m with intake := { m.intake with thermalOpen := true } }).openActive).hfault Kind.INTAKE_THERMAL temp.toNat
    else if temp < 115 then ({ m with intake := { m.intake with thermalOpen := false } } : Hw).settleSource
    else m

/-- CBUF_OV (R100): above 63.0 V both intake switches open; the bridge stays on. -/
def execCbufOv (mv : Nat) (s : State) : Host.Outcome State Fault Refusal :=
  effect s fun m =>
    if 63000 < mv then (({ m with intake := { m.intake with ovOpen := true } }).openActive).hfault Kind.CBUF_OV (mv / 100)
    else m

/-- The stage stops on a failure and retries after 16 frames; the failure of the third retry latches it OFF (R100,
R101). When the count of failures returns to zero the spec does not say: a completed direction change and CLR_LATCH clear
it, a retry that succeeds does not (DESIGN CHOICE, notes/assumptions/89.md). -/
def Hw.xferFail (m : Hw) (k : FaultKind) (detail : Nat) : Hw :=
  let dir := if m.rd Reg.XFER_STATUS_DIR = 3 then m.xfer.target else m.rd Reg.XFER_STATUS_DIR
  let m := (m.hfault k detail).wr Reg.XFER_STATUS_DIR 0
  if 3 ≤ m.xfer.failures then
    let m := (m.putLatch .xferCtl 0).wr Reg.XFER_STATUS_LATCHED 1
    let m := { m with xfer := { m.xfer with mirror := true, retryAt := none, failures := 0, target := 0, step := 0, latchCode := k.code } }
    (m.recordH JR.POWER_LATCH 0x30 (le 1 0x30 ++ le 1 k.code ++ le 2 0)).settleSource
  else
    { m with xfer := { m.xfer with
        failures := m.xfer.failures + 1, retryAt := some (m.frnAfter 16), retryDir := dir, step := 0 } }

/-- XFER_OCP (R100, R101). -/
def execXferOcp (s : State) : Host.Outcome State Fault Refusal :=
  effect s fun m =>
    if m.rd Reg.XFER_STATUS_DIR = 0 then m else m.xferFail Kind.XFER_OCP (m.rd Reg.XFER_STATUS_DIR)

/-- XFER_RETRY (R100): 16 frames after the stop, in thaw, while `XFER_CTL` still orders that direction (R93) and the stage is
not fenced. The interlocks of R79 and R99 are taken again. -/
def execXferRetry (s : State) : Host.Outcome State Fault Refusal :=
  effect s fun m =>
    match m.xfer.retryAt with
    | none => m
    | some a =>
      let dir := m.xfer.retryDir
      if m.frnReached a ∧ ¬ m.on Reg.XFER_STATUS_QUIET ∧ ¬ m.on Reg.XFER_STATUS_LATCHED ∧ m.rd Reg.XFER_STATUS_DIR = 0 ∧
          m.loopValue .xferCtl = dir ∧ ¬ m.xfer.fenced then
        let m := if dir = 2 then m.openActive else m
        if m.interlockOpen dir then { (m.wr Reg.XFER_STATUS_DIR dir) with xfer := { m.xfer with retryAt := none } } else m
      else m

/-- XFER_VTB_OV (R100): above 48.0 V the driving bridge stops. -/
def execXferVtbOv (mv : Nat) (s : State) : Host.Outcome State Fault Refusal :=
  effect s fun m =>
    if 48000 < mv then
      ({ m.wr Reg.XFER_STATUS_DIR 0 with xfer := { m.xfer with ovStop := true } } : Hw).hfault Kind.XFER_VTB_OV (mv / 100)
    else m

/-- XFER_THERMAL (R100): above 140 °C the power limit goes to 0 until below 120 °C. -/
def execXferThermal (temp : Int) (s : State) : Host.Outcome State Fault Refusal :=
  effect s fun m =>
    let m := m.wrI Reg.XFER_STATUS_TEMP temp
    if 140 < temp ∧ ¬ m.xfer.thermal then
      ({ m.wr Reg.XFER_STATUS_PLIM 1 with xfer := { m.xfer with thermal := true } }).hfault Kind.XFER_THERMAL temp.toNat
    else if temp < 120 ∧ m.xfer.thermal then
      { m.wr Reg.XFER_STATUS_PLIM 0 with xfer := { m.xfer with thermal := false } }
    else m

/-- XFER_START_FAIL (R100, R101). -/
def execXferStartFail (mv : Nat) (s : State) : Host.Outcome State Fault Refusal :=
  effect s fun m =>
    if m.rd Reg.XFER_STATUS_DIR = 0 then m else m.xferFail Kind.XFER_START_FAIL (mv / 100)

/-- The direction that the mode requires (R101): REVERSE in SOURCE, FORWARD with a source active, else OFF. -/
def Hw.dirOfMode (m : Hw) : Nat := if m.mode = modeSOURCE then 2 else if m.chg.source then 1 else 0

/-- What a write of `XFER_CMD.CLR_LATCH` does (R101): in SERVICE, as the host side knows it, the latch clears, and the
direction stays OFF until F0 SUPERVISOR orders what the mode requires. -/
def Hw.xferClrLatch (m : Hw) : Hw :=
  if (m.rd Reg.ID_STATUS_MODE = modeSERVICE ∨ m.rd Reg.ID_STATUS_MODE = modePERMAFROST) ∧ m.on Reg.XFER_STATUS_LATCHED then
    let m := m.wr Reg.XFER_STATUS_LATCHED 0
    { m with xfer := { m.xfer with mirror := false, failures := 0 }, modes := { m.modes with dirAsked := 0 } }
  else m

/-- XFER_CLR_LATCH (R101). -/
def execXferClrLatch (s : State) : Host.Outcome State Fault Refusal := effect s Hw.xferClrLatch

end Sys2Proof.Machine
end

