-- ==== Sys2Proof/Machine/Charge.lean ====
section
/-! DEFINITION. Charging (chapter 05). The part that F1 CHARGE and the hardware take in a frame tick is
`Hw.chargeTick`. -/

namespace Sys2Proof.Machine

/-- Charge state codes (R148). -/
def chgOFF : Nat := 0
def chgDETECT : Nat := 1
def chgNEGOTIATE : Nat := 2
def chgFASTCC : Nat := 4
def chgFASTCV : Nat := 5
def chgDONE : Nat := 6
def chgPAUSE : Nat := 7
def chgHOLD : Nat := 8
def chgABSENT : Nat := 9
def chgFAULT : Nat := 10

/-- The charge state (R148). -/
def Hw.chgState (m : Hw) : Nat := m.rd Reg.CHG_STATUS_STATE

/-- One of PRECHARGE, FAST_CC, FAST_CV. -/
def Hw.charging (m : Hw) : Bool := m.chgState = 3 || m.chgState = 4 || m.chgState = 5

/-- Cells of the profile in force. -/
def Hw.cells (m : Hw) : Nat := m.rd Reg.CHG_PROF_A_CELLS

/-- The termination fraction's divisor (R153). -/
def termDiv (code : Nat) : Nat := 2 ^ (min code 4 + 2)

/-- The recharge drop in 10 mV units (R154). -/
def rechDrop (code : Nat) : Nat := 5 * (min code 3 + 1)

/-- The cool factor in quarters (R160). -/
def Hw.coolQuarters (m : Hw) : Nat := if m.chg.lowZone = 1 then m.rd Reg.CHG_ADJ_COOL_FRAC + 1 else 4

/-- The charge voltage of a cell with the warm drop, 10 mV units (R152, R160). -/
def Hw.cellTarget (m : Hw) : Nat :=
  m.rd Reg.CHG_PROF_A_VCELL - (if m.chg.highZone = 3 then 5 * m.rd Reg.CHG_ADJ_WARM_DROP else 0)

/-- I_CHG with the cool factor, held to the host's cap, 25 mA units (R152). -/
def Hw.averageTarget (m : Hw) : Nat :=
  min (m.rd Reg.CHG_PROF_I_ICHG * m.coolQuarters / 4) (m.rd Reg.CHG_CTL_I_HOST)

/-- I_PEAK with the cool factor, held to 8.00 A, 25 mA units (R152). -/
def Hw.peakTarget (m : Hw) : Nat := min (m.rd Reg.CHG_PROF_I_IPEAK * m.coolQuarters / 4) 320

/-- η_x min at a power in 10 mW units (R94): the table's four powers, and a free value between them. -/
def etaX (p : Nat) : Nat :=
  if p = 2000 then 9100 else if p = 6000 then 9450 else if p = 13100 then 9500 else if p = 18000 then 9550
  else Config.etaXMin p

/-- The closing frame gives no efficiency (R66): a source has just become active, or the phases took less than 1 ms of
thaw energy at the present power. -/
def Hw.unmeasured (m : Hw) (f : Frame) : Bool := m.chg.fresh || decide (f.ecbuf < 10 * max 1 m.chg.pin)

/-- The efficiency product in parts per 10⁴: measured over the frame, or η_x min at the present power times 95.5 % (R66). -/
def Hw.efficiency (m : Hw) (f : Frame) : Nat :=
  if m.unmeasured f then etaX m.chg.pin * 955 / 1000 else f.esys * 10000 / f.ecbuf

/-- The thaw current that the sums of R66 allow, mA: e_in of the frame within 180 W of thaw power, the phase output
within 24.0 A, and the thaw loads taken off. -/
def Hw.thawCurrent (m : Hw) (f : Frame) : Nat :=
  let us := m.lastUs
  let tf := us - f.tthaw
  let pin := m.chg.pin * 10
  let ebuf := m.cbufC * (m.vHi ^ 2 - m.vLo ^ 2) / 200
  let ein := min (pin * f.tthaw + min (pin * tf) ebuf) (180000 * f.tthaw)
  let esys := min (ein * m.efficiency f / 10000) (24 * f.vsys * f.tthaw)
  if f.vbat = 0 ∨ f.tthaw = 0 then 0 else (esys - f.pthaw * f.tthaw) * 1000 / (f.vbat * f.tthaw)

/-- The thaw current that yields the average target, mA: the freeze discharge is made good in thaw (R66, R155). -/
def Hw.neededCurrent (m : Hw) (f : Frame) : Nat :=
  let us := m.lastUs
  if f.tthaw = 0 then 0
  else (m.averageTarget * 25 * us + (if f.vbat = 0 then 0 else f.pfreeze * 1000 / f.vbat) * (us - f.tthaw)) / f.tthaw

/-- `CHG_I` of a charging state, 25 mA units (R66, R152): I_PRE in PRECHARGE; in FAST_CC the thaw current that yields the
average target, within what the sums allow; in FAST_CV the peak. Before any frame has closed the targets stand alone. -/
def Hw.chgCurrent (m : Hw) (st : Nat) : Nat :=
  if st = 3 then m.rd Reg.CHG_PROF_P_IPRE
  else if st = 5 then m.peakTarget
  else match m.chg.frame with
    | none => min m.averageTarget m.peakTarget
    | some f => min m.peakTarget (min (m.thawCurrent f) (m.neededCurrent f) / 25)

/-- `CHG_V` and `CHG_I` of a charging state (R152). -/
def Hw.chgLatchesNow (m : Hw) (st : Nat) : Hw :=
  let v := if st = 3 then m.rd Reg.CHG_PROF_A_VCELL else m.cellTarget
  (m.ownLatch .chgV (m.cells * v)).ownLatch .chgI (m.chgCurrent st)

/-- F1 CHARGE sets `CHG_EN` (R150): not while TSB_HALERT is high at the field side, after a reset of the host side (R168). -/
def Hw.setChgEn (m : Hw) : Hw := if m.arch.sb.halertSeen then m else m.ownLatch .chgEn 1

/-- The latches at the entry of a charging state (R150, R152). -/
def Hw.chgLatches (m : Hw) (st : Nat) : Hw := (m.chgLatchesNow st).setChgEn

/-- The lamp at `ms` of its 2.000 s pattern (R167). -/
def lampAt (st ms : Nat) : Bool :=
  let p := ms % 2000
  if st = 0 then false
  else if st = 1 ∨ st = 2 then p % 500 < 250
  else if st = 3 then p < 1000
  else if st = 4 ∨ st = 5 then true
  else if st = 6 then p < 100
  else if st = 7 then p < 100 || (300 ≤ p && p < 400)
  else if st = 8 ∨ st = 9 then p < 900 && p % 300 < 100
  else p % 250 < 125

/-- `FAULT_N` asserted (R166). -/
def Hw.faultN (m : Hw) : Hw := m.wr Reg.STAT_LATCH_FN 1

/-- The status events of a state, at its entry and at each tick while it lasts (R166). -/
def Hw.statOfState (m : Hw) (st : Nat) : Hw :=
  if st = chgDONE then m.statEvent 0
  else if st = chgFAULT then (m.statEvent 1).faultN
  else if st = chgPAUSE then m.statEvent 2
  else if st = chgABSENT then m.statEvent 3
  else if st = chgHOLD then m.statEvent 5
  else m

/-- The counters of R149 and R153 at the entry of a state. -/
def Charger.restart (c : Charger) : Charger :=
  { c with runUp := 0, runDown := 0, runCv := 0, runWin := 0, runRech := 0, runTerm := 0, cvTime := 0, probe := false
           sinkTest := false }

/-! Smart-pack reads (R144). -/

/-- The transactions of F1 CHARGE on the sensor bus. -/
def Hw.packReads (m : Hw) : List BusOp := m.bus.ops.filter fun (x : BusOp) => x.addr == 0x0B && x.host.isNone

/-- The next read of a sequence is issued, under a ticket of its own. -/
def Hw.nextRead (m : Hw) : Hw :=
  match m.chg.sbsReads with
  | [] => m
  | c :: cs =>
    ({ m with chg := { m.chg with sbsReads := cs } } : Hw).issueFor
      { stream := 18, owner := 0x11, chan := 0x0B, unit := 0x37, dur := false, idem := true, crit := false, frn := m.frn, code := c }

/-- A read has retired (R393): the next one is issued, or the sequence has failed with it. -/
def Hw.packReadDone (m : Hw) (lost : Bool) : Hw :=
  if lost then { m with chg := { m.chg with sbsReads := [] } } else m.nextRead

/-- The reads of a sequence, by command code, in their order (R144): Temperature, Voltage, Current, ChargingCurrent,
ChargingVoltage, BatteryStatus; at NEGOTIATE DesignVoltage and DeviceChemistry too. -/
def Hw.sbsCodes (m : Hw) : List Nat :=
  [0x08, 0x09, 0x0A, 0x14, 0x15, 0x16] ++ (if m.chgState = chgNEGOTIATE then [0x19, 0x22] else [])

/-- F1 CHARGE asks F8 BUS for a read sequence (R144): six words, and two more at NEGOTIATE, one ticket at a time (R393). The
next is due after 1.000 s. -/
def Hw.askPack (m : Hw) : Hw :=
  if m.on Reg.CHG_CFG_SBS_EN ∧ m.packReads = [] then
    ({ m with chg := { m.chg with
        sbsAskAt := m.now + 200000000, sbsReads := m.sbsCodes } } : Hw).nextRead
  else m

/-- Reads fall due at a tick: every 1.000 s while a pack is in use, and every 16 frames after a loss (R144, R145). -/
def Hw.askTick (m : Hw) : Hw :=
  let st := m.chgState
  let due := if st = chgHOLD ∧ m.chg.hold = 2 then m.frnReached m.chg.sbsRetryAt else decide (m.chg.sbsAskAt ≤ m.now)
  if 2 ≤ st ∧ st ≤ 8 ∧ due then m.askPack else m

/-- A read sequence has ended, with the tickets of its transactions (R316). -/
def Hw.packReadsEnd (m : Hw) : Hw :=
  let m := { m with chg := { m.chg with sbsReads := [] } }
  m.packReads.foldl (fun m (x : BusOp) =>
    ({ m with bus := { m.bus with ops := m.bus.ops.filter fun (y : BusOp) => y.tkt != x.tkt } } : Hw).dropTicket x.tkt) m

/-- A change of the charge state (R149, R150): the latches in the same interrupt, and JR_CHARGE_STATE. Entry to DONE sets
Q_bat to its capacity (R220); OFF drops a state that was to resume (R168); NEGOTIATE asks for the smart pack's data
(R144). -/
def Hw.chgTo (m : Hw) (st cause : Nat) : Hw :=
  let old := m.chgState
  let m := { m.wr Reg.CHG_STATUS_STATE st with chg := { m.chg.restart with
      absentAt := if st = chgABSENT then m.frn else m.chg.absentAt
      fromAbsent := m.chg.fromAbsent || st = chgABSENT
      resume := if st = chgOFF then none else m.chg.resume } }
  let m := if st = 3 ∨ st = 4 ∨ st = 5 then (m.chgLatches st).batfet else m.clearChgEn
  let m := if st = chgFAULT then m.wr Reg.CHG_STATUS_FAULT_LATCH 1 else m
  let m := if st = chgDONE then
      { m with cable := { m.cable with qbat := m.rd Reg.CBL_RES_CFG_CAP * 10000 * 3600000, qvalid := true } } else m
  let m := (m.statOfState st).statPads
  let m := if st = chgNEGOTIATE then m.askPack else m
  m.record JR.CHARGE_STATE 0x11
    (le 1 old ++ le 1 st ++ le 1 cause ++ le 1 0 ++ le 2 (m.rd Reg.CHG_MON_VBAT) ++ le 2 (m.rd Reg.CHG_MON_INET))

/-- Both safety timers at zero (R158). -/
def Hw.resetTimers (m : Hw) : Hw :=
  { (m.wr Reg.CHG_TIMER_PRE 0).wr Reg.CHG_TIMER_FAST 0 with
    chg := { m.chg with preTime := 0, fastTime := 0, fastReal := 0 } }

/-- The cell-presence comparator follows the BAT pads, or VSYS while the BATFET joins the two (R139): it asserts above
5.00 V and releases below 4.80 V. -/
def Hw.presence (m : Hw) (vbat vsys : Nat) : Hw :=
  let mv := if m.rd Reg.BATFET_STATUS_STATE = 2 then vsys else vbat
  let on := if m.on Reg.CHG_STATUS_PRESENT then decide (4800 ≤ mv) else decide (5000 < mv)
  let m := if on && !m.on Reg.CHG_STATUS_PRESENT && m.on Reg.KA_SET_EN && !m.rails.kaInvalid then m.wr Reg.RAIL_STATUS_KA_ON 1
    else m
  { m.wrB Reg.CHG_STATUS_PRESENT on with chg := { m.chg with removed := m.chg.removed && on } }

/-! Detection. -/

/-- The pack indicators that the configuration enables (R140): bit 0 PACK_DET_N, bit 1 PACK_ID, bits 2 to 5 TS1 to TS4. -/
def Hw.indicators (m : Hw) : Nat :=
  m.rd Reg.CHG_CFG_DET_EN + 2 * m.rd Reg.CHG_CFG_ID_REQ +
    (List.range 4).foldl (fun v i => if bitsOf (m.rd Reg.CHG_CFG_TS) (2 * i) 2 = 1 then v + 4 * 2 ^ i else v) 0

/-- A pack is declared present (R141, R142): NEGOTIATE. It ends the run of ABSENT that BAT_MISSING counts, and nothing else
does (DESIGN CHOICE, notes/assumptions/92.md). -/
def Hw.packFound (m : Hw) : Hw :=
  ({ m with chg := { m.chg with found := true, removed := false, missingSaid := false } }).chgTo chgNEGOTIATE 5

/-- PACK_INDICATOR_SETTLED (R141): every enabled indicator has shown present for 500 ms. DETECT averages V_BAT over 10 ms; at
or above the cell-presence level the pack is present, and otherwise a probe starts. -/
def execPackIndicatorSettled (seen : Settled) (s : State) : Host.Outcome State Fault Refusal :=
  effect s fun m =>
    if m.chgState ≠ chgDETECT ∨ m.chg.probe ∨ seen.shown.val &&& m.indicators ≠ m.indicators then m
    else
      let m := (m.wrSat Reg.CHG_MON_VBAT seen.vbat).presence seen.vbat seen.vbat
      if 5000 ≤ seen.vbat then m.packFound
      else
        match m.chg.limits with
        | none => m
        | some l =>
          let m := ((m.ownLatch .chgV (l.cells * l.preTh)).ownLatch .chgI (min l.ipre 4)).setChgEn
          ({ m with chg := { m.chg with probe := true, sinkTest := false } }).batfet

/-- PROBE_VOLTAGE_REACHED (R142). -/
def execProbeVoltageReached (s : State) : Host.Outcome State Fault Refusal :=
  effect s fun m =>
    if m.chgState = chgDETECT ∧ m.chg.probe ∧ ¬ m.chg.sinkTest then
      ({ m with chg := { m.chg with sinkTest := true } }).clearChgEn
    else m

/-- SINK_TEST_END (R142): missing below 50 % of the probe `CHG_V`, and present otherwise. -/
def execSinkTestEnd (mv : Nat) (s : State) : Host.Outcome State Fault Refusal :=
  effect s fun m =>
    if m.chgState = chgDETECT ∧ m.chg.sinkTest then
      let m := m.presence mv mv
      if 2 * mv < m.rd Reg.CHG_V_SET * 10 then
        let m := if m.chg.missingSaid then m else m.fault Kind.BAT_MISSING (mv / 100)
        ({ m with chg := { m.chg with missingSaid := true, found := false } }).chgTo chgABSENT 6
      else m.packFound
    else m

/-- PROBE_SHORT (R142): below 0.50 V per cell after 2.0 s of probe current. -/
def execProbeShort (mv : Nat) (s : State) : Host.Outcome State Fault Refusal :=
  effect s fun m =>
    match m.chg.limits with
    | some l =>
      if m.chgState = chgDETECT ∧ m.chg.probe ∧ mv < 500 * l.cells then
        (m.fault Kind.BAT_SHORT (mv / 100)).chgTo chgFAULT 7
      else m
    | none => m

/-- ABSENT_REDETECT (R149): an enabled indicator has changed to present for 500 ms, or 512 frames have elapsed. -/
def execAbsentRedetect (changed : Nat) (s : State) : Host.Outcome State Fault Refusal :=
  effect s fun m =>
    if m.chgState = chgABSENT ∧ (changed &&& m.indicators ≠ 0 ∨ m.frnReached (m.chg.absentAt + 512)) then m.chgTo chgDETECT 8 else m

/-! Negotiation. -/

/-- The band of a PACK_ID reading in Ω (R143): 0 a fault range, 8 open. -/
def idBand (ohm : Nat) : Nat :=
  if ohm < 680 then 0 else if ohm < 1470 then 1 else if ohm < 3240 then 2 else if ohm < 6810 then 3
  else if ohm < 14700 then 4 else if ohm < 32400 then 5 else if ohm < 68100 then 6 else if ohm < 147000 then 7
  else if ohm ≤ 200000 then 0 else 8

/-- The highest values of the module for a chemistry and cell count (R136, R137): VCELL capped so that the pack stays at
or below 29.90 V. -/
def moduleVcell (chem cells : Nat) : Nat :=
  min (if chem = 0 then 435 else 365) (if cells = 0 then 0 else 2990 / cells)

/-- The module's cell-count range (R136). -/
def moduleCells (chem cells : Nat) : Bool := 2 ≤ cells && cells ≤ (if chem = 0 then 7 else 8)

/-- The configuration's own profile: `CHG_LIM` with the thresholds of `CHG_WIN` and the timers of `CHG_CFG` as they
stand (R146). -/
def Hw.cfgLimits (m : Hw) (l : Profile) : Profile :=
  let w := m.rd Reg.CHG_WIN_T
  { l with
    t1 := signedOf 8 (bitsOf w 0 8), t2 := signedOf 8 (bitsOf w 8 8)
    t3 := signedOf 8 (bitsOf w 16 8), t4 := signedOf 8 (bitsOf w 24 8)
    preTimer := m.rd Reg.CHG_CFG_PRE_TIMER, fastTimer := m.rd Reg.CHG_CFG_FAST_TIMER }

/-- The best common profile of a pack profile and the configuration's limits, within the module's (R146). -/
def commonProfile (p l : Profile) : Profile :=
  { chem := l.chem, cells := l.cells
    vcell := min (min p.vcell l.vcell) (moduleVcell l.chem l.cells)
    ichg := min (min p.ichg l.ichg) 320, ipeak := min (min p.ipeak l.ipeak) 320, ipre := min (min p.ipre l.ipre) 32
    preTh := max p.preTh l.preTh
    term := min p.term l.term, rech := min p.rech l.rech
    t1 := max p.t1 l.t1, t2 := max p.t2 l.t2, t3 := min p.t3 l.t3, t4 := min p.t4 l.t4
    preTimer := min p.preTimer l.preTimer, fastTimer := min p.fastTimer l.fastTimer }

/-- The caps of a smart pack's data on a profile (R144); 0xFFFF means no request. -/
def Hw.sbsCap (m : Hw) (p : Profile) (r : SbsRead) : Profile :=
  let p := if r.vchg = 0xFFFF ∨ p.cells = 0 then p else { p with vcell := min p.vcell (r.vchg / p.cells / 10) }
  if r.ichg = 0xFFFF then p
  else { p with ichg := min p.ichg (r.ichg / 25)
                ipeak := if m.on Reg.CHG_CFG_SBS_PEAK then min p.ipeak (r.ichg / 25) else p.ipeak }

/-- A smart pack declines (R144). -/
def sbsDeclines (r : SbsRead) : Bool := r.ichg = 0 || bitAt r.status 15 || bitAt r.status 14 || bitAt r.status 12

/-- The newest smart-pack data, where smart packs are enabled. -/
def Hw.sbsData (m : Hw) : Option SbsRead := if m.on Reg.CHG_CFG_SBS_EN then m.chg.sbs else none

/-- What a resulting profile has outside the module's limits (R136, R147), as bits of PACK_MISMATCH: 4 for VCELL or PRE_TH, 8
for I_CHG, I_PEAK or I_PRE (DEDUCED: R136 charges no pack outside them, and R147 names the bits; notes/assumptions/105.md). -/
def profileBad (p : Profile) : Nat :=
  let v := if p.chem = 0 then decide (400 ≤ p.vcell) && decide (280 ≤ p.preTh) && decide (p.preTh ≤ 320)
    else decide (340 ≤ p.vcell) && decide (230 ≤ p.preTh) && decide (p.preTh ≤ 280)
  (if v then 0 else 4) + (if 4 ≤ p.ichg ∧ 4 ≤ p.ipeak ∧ 2 ≤ p.ipre then 0 else 8)

/-- The negotiated profile becomes the one in force, with JR_PACK_PROFILE (R146). -/
def Hw.takeProfile (m : Hw) (p : Profile) (src band : Nat) : Hw :=
  let m := (((((m.wr Reg.CHG_PROF_A_CHEM p.chem).wr Reg.CHG_PROF_A_CELLS p.cells).wr Reg.CHG_PROF_A_SRC src).wr
    Reg.CHG_PROF_A_BAND band).wr Reg.CHG_PROF_A_VCELL p.vcell).wr Reg.CHG_PROF_I_ICHG p.ichg
  let m := ((((m.wr Reg.CHG_PROF_I_IPEAK p.ipeak).wr Reg.CHG_PROF_P_IPRE p.ipre).wr Reg.CHG_PROF_P_PRE_TH p.preTh).wr
    Reg.CHG_PROF_P_TERM p.term).wr Reg.CHG_PROF_P_RECH p.rech
  ({ m with chg := { m.chg with neg := some p } }).record JR.PACK_PROFILE 0x11
    (le 1 src ++ le 1 p.chem ++ le 1 p.cells ++ le 1 band ++ le 2 (10 * p.vcell) ++ le 2 (25 * p.ichg) ++
      le 2 (25 * p.ipeak) ++ le 2 (25 * p.ipre) ++ le 2 (10 * p.preTh) ++ le 1 (unsignedOf 8 p.t1) ++
      le 1 (unsignedOf 8 p.t2) ++ le 1 (unsignedOf 8 p.t3) ++ le 1 (unsignedOf 8 p.t4) ++ le 1 p.term ++ le 1 p.rech ++
      le 1 (15 * p.preTimer) ++ le 1 p.fastTimer)

/-- What the profile in force has outside the module's limits (R136). -/
def Hw.negBad (m : Hw) : Nat := match m.chg.neg with | some p => profileBad p | none => 0

/-- PACK_HOLD for a reason (R147): 0 refused, 1 deferred, 2 smart pack lost. -/
def Hw.holdPack (m : Hw) (why : Nat) : Hw := ({ m with chg := { m.chg with hold := why } }).chgTo chgHOLD 9

/-- A decline of the smart pack: SMARTPACK_ALARM at the first (R147). -/
def Hw.declined (m : Hw) (r : SbsRead) : Hw :=
  let m := if m.chg.alarmSaid then m else m.fault Kind.SMARTPACK_ALARM (r.status / 256)
  ({ m with chg := { m.chg with alarmSaid := true } }).holdPack 1

/-- The detail of PACK_MISMATCH (R169): chemistry, cells, voltage, current. -/
def mismatchBits (chem cells volt curr : Bool) : Nat := b2n chem + 2 * b2n cells + 4 * b2n volt + 8 * b2n curr

/-- The state that a negotiated pack enters (R149): the state before a reset resumes (R168). -/
def Hw.enterCharge (m : Hw) (vbat : Nat) : Hw :=
  match m.chg.resume with
  | some st => ({ m with chg := { m.chg with resume := none } }).chgTo st 20
  | none =>
    let cell := vbat / (max 1 m.cells)
    if cell < 10 * m.rd Reg.CHG_PROF_P_PRE_TH then m.chgTo 3 10
    else if 10 * (m.rd Reg.CHG_PROF_A_VCELL - rechDrop (m.rd Reg.CHG_PROF_P_RECH)) ≤ cell then m.chgTo chgDONE 10
    else m.chgTo chgFASTCC 10

/-- The checks of R147 on a pack profile, then the outcome. Where several hold at once the first stands: a mismatch of chemistry,
cells or voltage, then a decline, then the resulting limits; a fault of PACK_ID and an unknown band come before them all (DESIGN
CHOICE, notes/assumptions/121.md). -/
def Hw.tryProfile (m : Hw) (p l : Profile) (src band vbat : Nat) (r : Option SbsRead) : Hw :=
  let badChem := p.chem ≠ l.chem || (match r with | some x => x.chem ≠ l.chem | none => false)
  let badCells := p.cells ≠ l.cells || !moduleCells l.chem l.cells || (match r with | some x => x.cells ≠ l.cells | none => false)
  let badVolt := decide (l.cells * (if l.chem = 0 then 4450 else 3750) < vbat)
  let base := commonProfile p (m.cfgLimits l)
  let q := match r with | some x => m.sbsCap base x | none => base
  if badChem || badCells || badVolt then
    (m.fault Kind.PACK_MISMATCH (mismatchBits badChem badCells badVolt false)).holdPack 0
  else if (match r with | some x => sbsDeclines x | none => false) then
    match r with | some x => m.declined x | none => m
  else if profileBad q ≠ 0 then (m.fault Kind.PACK_MISMATCH (profileBad q)).holdPack 0
  else
    let m := { m with chg := { m.chg with base := some base } }
    let m := m.takeProfile q src band
    let m := { m with seq := { m.seq with removedHold := false } }
    let m := if m.chg.fromAbsent then (m.resetTimers).wr Reg.CHG_STATUS_FAULT_LATCH 0 else m
    let m := { m with chg := { m.chg with fromAbsent := false, alarmSaid := false, found := true } }
    m.enterCharge vbat

/-- PACK_NEGOTIATE (R143, R146, R147): the profile that the PACK_ID reading and the smart pack give. A smart pack alone
is held to the configuration limits, capped by its own requests. -/
def execPackNegotiate (ohm vbat : Nat) (s : State) : Host.Outcome State Fault Refusal :=
  effect s fun m =>
    if m.chgState ≠ chgNEGOTIATE then m
    else
      match m.chg.limits with
      | none => m
      | some l =>
        let m := m.wrSat Reg.CHG_MON_VBAT vbat
        let m := if m.chg.fromAbsent then { m with cable := { m.cable with qvalid := false } } else m
        let r := m.sbsData
        let b := idBand ohm
        if b = 0 then (m.fault Kind.PACK_ID_FAULT (ohm / 100)).holdPack 0
        else if b = 8 then
          match r with
          | some _ => m.tryProfile (m.cfgLimits l) l 3 0 vbat r
          | none =>
            if m.on Reg.CHG_CFG_ID_REQ then (m.fault Kind.PACK_UNKNOWN 0).holdPack 0
            else match m.chg.profiles.getD 0 none with
              | some p => m.tryProfile p l 1 0 vbat none
              | none => (m.fault Kind.PACK_UNKNOWN 0).holdPack 0
        else match m.chg.profiles.getD b none with
          | some p => m.tryProfile p l (if r.isSome then 4 else 2) b vbat r
          | none => (m.fault Kind.PACK_UNKNOWN b).holdPack 0

/-- The values of a complete sequence in their registers (R144). -/
def Hw.showSbs (m : Hw) (r : SbsRead) : Hw :=
  let m := ((m.wrSat Reg.PACK_SBS_ICHG_REQ r.ichg).wrSat Reg.PACK_SBS_STATUS r.status).wrSat Reg.PACK_SBS_V_VCHG_REQ r.vchg
  { m.wrSat Reg.PACK_SBS_V_VOLT r.volt with chg := { m.chg with sbs := some r, sbsFails := 0 } }

/-- A complete sequence applied: a deferred pack that accepts again is negotiated, a decline defers it, and while the
pack charges, pauses or is full its requests cap the negotiated values (R144, R149, R171). A pack that they take outside
the limits is refused (R136, R147). The table of R149 has no row for a decline outside NEGOTIATE: while the pack charges or pauses
it moves to PACK_HOLD with cause 9, and in DONE it changes nothing (DESIGN CHOICE, notes/assumptions/122.md). -/
def Hw.applySbs (m : Hw) (r : SbsRead) : Hw :=
  if m.chgState = chgHOLD ∧ m.chg.hold ≠ 0 then
    if sbsDeclines r then
      (if m.chg.alarmSaid then m else ({ m with chg := { m.chg with alarmSaid := true } }).fault Kind.SMARTPACK_ALARM (r.status / 256))
    else m.chgTo chgNEGOTIATE 11
  else if m.charging ∨ m.chgState = chgPAUSE ∨ m.chgState = chgDONE then
    if sbsDeclines r then (if m.chgState = chgDONE then m else m.declined r)
    else match m.chg.base with
      | none => m
      | some b =>
        let q := m.sbsCap b r
        if m.chg.neg = some q then m
        else
          let m' := m.takeProfile q (m.rd Reg.CHG_PROF_A_SRC) (m.rd Reg.CHG_PROF_A_BAND)
          if m.chgState = chgDONE then m'
          else if 10 * q.vcell * q.cells ≤ m.rd Reg.CHG_MON_VBAT then m'.chgTo chgDONE 10
          else if profileBad q ≠ 0 then (m.fault Kind.PACK_MISMATCH (profileBad q)).holdPack 0
          else if m.charging then m'.chgLatches m'.chgState
          else m'
  else m

/-- A failed sequence: the third in a row records SMARTPACK_LOST and holds the pack (R145). A read that fails because
the pack has been removed leaves the state at ABSENT (R171), and a pack that has been refused stays refused (R147). -/
def Hw.sbsFailed (m : Hw) (err : Nat) : Hw :=
  if 2 ≤ m.chgState ∧ m.chgState ≤ 8 ∧ ¬ (m.chgState = chgHOLD ∧ m.chg.hold = 0) then
    let n := m.chg.sbsFails + 1
    if n < 3 then { m with chg := { m.chg with sbsFails := n } }
    else
      let m := m.fault Kind.SMARTPACK_LOST err
      ({ m with chg := { m.chg with sbs := none, sbsFails := 0, sbsRetryAt := m.frnAfter 16 } }).holdPack 2
  else m

/-- SMARTPACK_READ_SEQUENCE (R144, R145). -/
def execSmartpackReadSequence (r : Option SbsRead) (err : Nat) (s : State) : Host.Outcome State Fault Refusal :=
  effect s fun m =>
    if m.on Reg.CHG_CFG_SBS_EN ∧ ¬ (m.chgState = chgHOLD ∧ m.chg.hold = 2) then
      let m := m.packReadsEnd
      match r with
      | some x => (m.showSbs x).applySbs x
      | none => m.sbsFailed err
    else m

/-- SMARTPACK_RETRY (R145): every 16 frames in PACK_HOLD after a loss; the first complete sequence returns to
NEGOTIATE. -/
def execSmartpackRetry (r : Option SbsRead) (_err : Nat) (s : State) : Host.Outcome State Fault Refusal :=
  effect s fun m =>
    if m.chgState = chgHOLD ∧ m.chg.hold = 2 ∧ m.frnReached m.chg.sbsRetryAt then
      let m := m.packReadsEnd
      match r with
      | some x => (m.showSbs x).chgTo chgNEGOTIATE 11
      | none => { m with chg := { m.chg with sbsRetryAt := m.frnAfter 16 } }
    else m

/-! Transitions. -/

/-- The precharge timer runs (R156). -/
def Hw.preRuns (m : Hw) : Bool := m.chg.probe || m.chgState = 3 || (m.chgState = chgPAUSE && m.chg.pauseFrom = 3)

/-- The fast timer runs (R156). -/
def Hw.fastRuns (m : Hw) : Bool :=
  m.chgState = 4 || m.chgState = 5 || (m.chgState = chgPAUSE && (m.chg.pauseFrom = 4 || m.chg.pauseFrom = 5))

/-- The timers' lengths: those negotiated, and for a probe those configured (R146, R156). -/
def Hw.preLength (m : Hw) : Nat :=
  900000000 * (match m.chg.neg with
    | some p => if m.chg.probe then m.rd Reg.CHG_CFG_PRE_TIMER else p.preTimer
    | none => m.rd Reg.CHG_CFG_PRE_TIMER)
def Hw.fastLength (m : Hw) : Nat :=
  3600000000 * (match m.chg.neg with | some p => p.fastTimer | none => m.rd Reg.CHG_CFG_FAST_TIMER)

/-- A safety timer that has reached its length moves to FAULT (R157). -/
def Hw.timerFault (m : Hw) : Option Hw :=
  if m.preRuns ∧ m.preLength ≤ m.chg.preTime then
    some ((m.fault Kind.CHG_TIMER_PRE (m.chg.preTime / 60000000)).chgTo chgFAULT 14)
  else if m.fastRuns ∧ m.fastLength ≤ m.chg.fastTime then
    some ((m.fault Kind.CHG_TIMER_FAST (m.chg.fastReal / 360000000)).chgTo chgFAULT 14)
  else none

/-- CHARGE_SUSTAINED_EXPIRY (R149): a condition that has held at 32 consecutive ticks takes its transition, in table
order. An expired safety timer comes before them all (R157). A pack whose profile has come to lie outside the limits is not
charged again (R136). -/
def execChargeSustainedExpiry (s : State) : Host.Outcome State Fault Refusal :=
  effect s fun m =>
    let st := m.chgState
    match m.timerFault with
    | some m' => m'
    | none =>
      if st = 3 ∧ 32 ≤ m.chg.runUp then m.chgTo chgFASTCC 15
      else if st = chgFASTCC ∧ 32 ≤ m.chg.runDown then m.chgTo 3 15
      else if st = chgFASTCC ∧ 32 ≤ m.chg.runCv then m.chgTo chgFASTCV 16
      else if st = chgPAUSE ∧ 32 ≤ m.chg.runWin then m.chgTo m.chg.pauseFrom 13
      else if st = chgDONE ∧ 32 ≤ m.chg.runRech then
        (if m.negBad = 0 then m.resetTimers.chgTo chgFASTCC 18 else (m.fault Kind.PACK_MISMATCH m.negBad).holdPack 0)
      else m

/-- CHARGE_TERMINATION (R153): an expired safety timer comes before it (R149). -/
def execChargeTermination (s : State) : Host.Outcome State Fault Refusal :=
  effect s fun m =>
    match m.timerFault with
    | some m' => m'
    | none =>
      if m.chgState = chgFASTCV ∧ 32 ≤ m.chg.runTerm ∧ m.rd Reg.CHG_ADJ_TCV_MIN * 60000000 ≤ m.chg.cvTime then
        m.chgTo chgDONE 17
      else m

/-- SAFETY_TIMER_EXPIRY (R157). -/
def execSafetyTimerExpiry (s : State) : Host.Outcome State Fault Refusal := effect s fun m => m.timerFault.getD m

/-- SOURCE_ABSENCE_TIMER (R158): the source has been absent for 60 s. -/
def execSourceAbsenceTimer (s : State) : Host.Outcome State Fault Refusal :=
  effect s fun m => if m.chg.source then m else m.resetTimers

/-! Temperature. -/

/-- The use of a TS input: 0 unused, 1 PACK, 2 pack windows only, 3 monitor (R140, R159). -/
def Hw.tsUse (m : Hw) (i : Nat) : Nat := bitsOf (m.rd Reg.CHG_CFG_TS) (2 * i) 2

/-- A TS reading in `CHG_TEMP` (R170). -/
def Hw.setTs (m : Hw) (i v : Nat) : Hw := m.wr Reg.CHG_TEMP_TS (putBits (m.rd Reg.CHG_TEMP_TS) (8 * i) 8 v)

/-- TEMP_HW_STOP (R161): above T4 + 5 °C for 1 ms. -/
def execTempHwStop (i : Fin 4) (s : State) : Host.Outcome State Fault Refusal :=
  effect s fun m =>
    if m.tsUse i = 1 ∧ ¬ bitAt m.chg.hwStop i then
      ({ m.wr Reg.CHG_STATUS_REF_ZERO 1 with chg := { m.chg with hwStop := putBit m.chg.hwStop i true } }).fault
        Kind.TEMP_HW_STOP i
    else m

/-- TEMP_HW_STOP_RELEASE (R161): below T4 + 3 °C. -/
def execTempHwStopRelease (i : Fin 4) (s : State) : Host.Outcome State Fault Refusal :=
  effect s fun m =>
    let m := { m with chg := { m.chg with hwStop := putBit m.chg.hwStop i false } }
    m.wrB Reg.CHG_STATUS_REF_ZERO (m.chg.hwStop != 0 || m.bat.thermal)

/-- TS_OPEN (R162): taken as cold stop at the next tick; a PACK input that opens outside a removal is recorded. -/
def execTsOpen (i : Fin 4) (s : State) : Host.Outcome State Fault Refusal :=
  effect s fun m =>
    let m := m.setTs i 0x80
    let m := { m with chg := { m.chg with tsOpen := putBit m.chg.tsOpen i true } }
    if m.tsUse i ≠ 1 ∨ m.chg.removal.isSome ∨ m.seq.removedHold then m else m.fault Kind.TS_OPEN i

/-- TS_SHORT (R162): taken as hot stop at the next tick. -/
def execTsShort (i : Fin 4) (s : State) : Host.Outcome State Fault Refusal :=
  effect s fun m =>
    let m := m.setTs i 0x7F
    let m := { m with chg := { m.chg with tsShort := putBit m.chg.tsShort i true } }
    if m.tsUse i = 0 then m else m.fault Kind.TS_SHORT i

/-! Removal and shorts. -/

/-- A removal is declared, or a detector trips within 50 µs of one (R163): the loops drop out, the BATFET opens, freeze
in force ends, later slots are refused, and F1 CHARGE moves to ABSENT. -/
def Hw.removal (m : Hw) (detectors : Nat) : Hw :=
  match m.chg.removal with
  | some b => { m with chg := { m.chg with removal := some (b ||| detectors) } }
  | none =>
    if detectors = 0 ∨ ¬ (m.packIn = true ∨ m.chg.probe = true) then m
    else
      let m := { m.wr Reg.CHG_STATUS_REMOVAL 1 with
        chg := { m.chg with
          removal := some detectors, found := false, removed := true, sbs := none, sbsFails := 0, alarmSaid := false, resume := none }
        seq := { m.seq with removedHold := true }
        cable := { m.cable with qvalid := false } }
      let m := ((m.clearChgEn).statEvent 4).cutFreeze rsnBatRemoved true
      let m := if m.chgState = chgOFF ∨ m.chgState = chgABSENT then m else m.chgTo chgABSENT 3
      m.batfet

/-- The detectors of R163 that may trip in the present state, of those that report a trip: voltage rise with `CHG_EN` = 1;
loss of current with `CHG_I` at 400 mA or more, in thaw, past its blanking, and with neither the voltage loop nor a
temperature stop governing; voltage fall in freeze; PACK_ID, TS and PACK_DET_N where they are indicators; and the
cell-presence comparator once it has released. -/
def Hw.detectorsHeard (m : Hw) (vbat detectors : Nat) : Nat :=
  let en := m.chgEn
  let ind := m.indicators
  let heard := [en && decide (m.loopValue .chgV * 103 < vbat * 10),
    en && decide (16 ≤ m.loopValue .chgI) && !m.frozen && decide (m.chg.blankTo ≤ m.now) &&
      decide (m.rd Reg.PH_STATUS_GOV ≠ 2) && !m.on Reg.CHG_STATUS_REF_ZERO,
    m.frozen, bitAt ind 1, ind / 4 != 0,
    bitAt ind 0 || (decide (vbat < 4800) && decide (m.rd Reg.BATFET_STATUS_STATE ≠ 2))]
  heard.zipIdx.foldl (fun v x => if x.1 && bitAt detectors x.2 then v + 2 ^ x.2 else v) 0

/-- Detectors that report a trip at a time `t` of the frame (R163): of those that may trip the first declares the
removal. -/
def Hw.detect (m : Hw) (t vbat detectors : Nat) : Hw :=
  let m := m.atT t
  let d := m.detectorsHeard vbat detectors
  if d = 0 then m
  else
    (m.removal d).presence vbat vbat

/-- BAT_REMOVED (R163): 50 µs after the declaration, with the bitmap of the detectors that have tripped. -/
def execBatRemoved (s : State) : Host.Outcome State Fault Refusal :=
  effect s fun m =>
    match m.chg.removal with
    | some b => ({ m with chg := { m.chg with removal := none } }).fault Kind.BAT_REMOVED b
    | none => m

/-- BAT_SHORT (R164): below 0.50 V per cell for 10 ms while charging. -/
def execBatShort (mv : Nat) (s : State) : Host.Outcome State Fault Refusal :=
  effect s fun m =>
    if m.charging ∧ m.on Reg.CHG_STATUS_EN ∧ mv < 500 * m.cells then
      (m.fault Kind.BAT_SHORT (mv / 100)).chgTo chgFAULT 21
    else m

/-! Pads and controls. -/

/-- STAT_LATCH_READ (R166). -/
def execStatLatchRead (s : State) : Host.Outcome State Fault Refusal :=
  effect s fun m => ((m.wr Reg.STAT_LATCH_EVENTS 0).wr Reg.STAT_LATCH_FN 0).statPads

/-- STAT1 of a halted start (R491): flashes of 100 ms on and 200 ms off, one more than the lowest failing macro ID, then
1.0 s off. -/
def haltedLamp (failmap ms : Nat) : Bool :=
  let n := ((List.range 26).find? (bitAt failmap ·)).getD 0 + 1
  let p := ms % (300 * n + 1000)
  p < 300 * n && p % 300 < 100

/-- LAMP_EDGE (R167): the level of the pattern at its time, made at once or after freeze. In a halted start STAT1 shows
the failing macro, whatever its mode (R491). -/
def execLampEdge (ms : Nat) (s : State) : Host.Outcome State Fault Refusal :=
  effect s fun m =>
    if m.modes.halted then
      m.wr Reg.STAT_LATCH_PADS (putBit (m.rd Reg.STAT_LATCH_PADS) 0 (haltedLamp (m.rd Reg.BIST_FAILMAP_MAP) ms))
    else m.lamp (lampAt m.chgState ms)

/-- CHG_SUSPEND (R149): the field that the next tick evaluates. -/
def execChgSuspend (suspend : Bool) (s : State) : Host.Outcome State Fault Refusal :=
  effect s fun m => m.wrB Reg.CHG_CTL_SUSPEND suspend

/-- CHG_I_HOST (R152): the cap on the average charge current. -/
def execChgIHost (limit : Fin 512) (s : State) : Host.Outcome State Fault Refusal :=
  effect s fun m => m.wr Reg.CHG_CTL_I_HOST limit

/-- `CHG_CTL.CLR_FAULT` written in SERVICE (R147, R149). -/
def Hw.clrChgFault (m : Hw) : Hw :=
  if m.inService then
    let m := m.wr Reg.CHG_STATUS_FAULT_LATCH 0
    if m.chgState = chgFAULT ∨ m.chgState = chgHOLD then m.chgTo chgDETECT 19 else m
  else m

/-- CHG_CLR_FAULT (R147). -/
def execChgClrFault (s : State) : Host.Outcome State Fault Refusal := effect s Hw.clrChgFault

/-- CHG_ENABLE_RESTORE (R168): the state is kept through a host reset, and `CHG_EN` is set again once TSB_HALERT has
released at the field side. -/
def execChgEnableRestore (s : State) : Host.Outcome State Fault Refusal :=
  effect s fun m =>
    if m.charging ∧ m.chg.source ∧ m.mode = modeCHARGE ∧ ¬ m.arch.sb.halertSeen ∧ ¬ m.away .f1 then m.setChgEn.batfet else m

/-! The frame tick. -/

/-- The pack temperatures that the windows use: TS inputs set to PACK or to pack windows only, and the smart pack's
where it is admitted (R144, R159). -/
def Hw.packTemps (m : Hw) (ts : List Int) : List Int :=
  ((ts.zipIdx.filter fun x => m.tsUse x.2 = 1 || m.tsUse x.2 = 2).map (·.1)) ++
    (if m.on Reg.CHG_CFG_SBS_TEMP then
       match m.sbsData with
       | some r => [((r.temp : Int) - 2731) / 10]
       | none => []
     else [])

/-- The lower zone of a temperature with 2 °C of hysteresis (R159, R160). -/
def lowZoneOf (was : Nat) (t t1 t2 : Int) : Nat :=
  if t < t1 + (if was = 0 then 2 else 0) then 0 else if t < t2 + (if was ≤ 1 then 2 else 0) then 1 else 2

/-- The upper zone of a temperature with 2 °C of hysteresis (R159, R160). -/
def highZoneOf (was : Nat) (t t3 t4 : Int) : Nat :=
  if t4 - (if was = 4 then 2 else 0) < t then 4 else if t3 - (if 3 ≤ was then 2 else 0) < t then 3 else 2

/-- The windows evaluated (R159, R160). WINDOW reads 7 also before any profile has been negotiated, when there are no
thresholds in force (DESIGN CHOICE, notes/assumptions/93.md). -/
def Hw.windowTick (m : Hw) (ts : List Int) : Hw :=
  match m.packTemps ts, m.chg.neg with
  | t :: rest, some p =>
    let lo := lowZoneOf m.chg.lowZone (rest.foldl min t) p.t1 p.t2
    let hi := highZoneOf m.chg.highZone (rest.foldl max t) p.t3 p.t4
    { m.wr Reg.CHG_STATUS_WINDOW (if lo = 0 then 0 else if hi = 4 then 4 else if lo = 1 then 1 else if hi = 3 then 3 else 2)
      with chg := { m.chg with lowZone := lo, highZone := hi } }
  | _, _ => { m.wr Reg.CHG_STATUS_WINDOW 7 with chg := { m.chg with lowZone := 2, highZone := 2 } }

/-- A stop window governs (R160). -/
def Hw.inStop (m : Hw) : Bool := m.chg.lowZone = 0 || m.chg.highZone = 4

/-- The sustained conditions counted over one more tick (R149, R153). -/
def Hw.countConditions (m : Hw) (f : Frame) : Hw :=
  let cell := f.vbat / (max 1 m.cells)
  let pre := 10 * m.rd Reg.CHG_PROF_P_PRE_TH
  let st := m.chgState
  let count := fun (b : Bool) (n : Nat) => if b then n + 1 else 0
  let us := m.lastUs
  { m with chg := { m.chg with
      runUp := count (st = 3 && pre + 100 ≤ cell) m.chg.runUp
      runDown := count (st = chgFASTCC && cell + 100 < pre) m.chg.runDown
      runCv := count (st = chgFASTCC && f.cvGov) m.chg.runCv
      runWin := count (st = chgPAUSE && !m.inStop) m.chg.runWin
      runRech := count (st = chgDONE &&
        cell < 10 * (m.rd Reg.CHG_PROF_A_VCELL - rechDrop (m.rd Reg.CHG_PROF_P_RECH))) m.chg.runRech
      runTerm := count (st = chgFASTCV && m.chg.highZone != 3 &&
        f.inet * (termDiv (m.rd Reg.CHG_PROF_P_TERM) : Int) ≤ ((m.rd Reg.CHG_PROF_I_ICHG * 25 : Nat) : Int)) m.chg.runTerm
      cvTime := if st = chgFASTCV then m.chg.cvTime + us else 0 } }

/-- The safety timers advanced by one frame (R156). -/
def Hw.timerTick (m : Hw) (f : Frame) : Hw :=
  let us := m.lastUs
  let ichg := m.rd Reg.CHG_PROF_I_ICHG * 25
  let m := if m.preRuns then { m with chg := { m.chg with preTime := m.chg.preTime + us } } else m
  let m := if m.fastRuns then
      { m with chg := { m.chg with
          fastTime := m.chg.fastTime + max (us / 2) (if ichg = 0 then 0 else us * f.inet.toNat / ichg)
          fastReal := m.chg.fastReal + us } }
    else m
  (m.wrSat Reg.CHG_TIMER_PRE (m.chg.preTime / 1000000)).wrSat Reg.CHG_TIMER_FAST (m.chg.fastTime / 10000000)

/-- The transitions of R149 that need no run of ticks: to OFF, from OFF, and to TEMP_PAUSE. -/
def Hw.chargeEval (m : Hw) (temps : List Int) : Hw :=
  let st := m.chgState
  let stop := m.mode ≠ modeCHARGE ∨ m.on Reg.CHG_CTL_SUSPEND = true ∨ m.chg.source = false ∨ m.chg.limits = none
  if stop then
    if st = chgOFF then m
    else m.chgTo chgOFF (if m.mode ≠ modeCHARGE then 0 else if m.on Reg.CHG_CTL_SUSPEND then 1 else 2)
  else if st = chgOFF then (if m.on Reg.CHG_STATUS_FAULT_LATCH then m.chgTo chgFAULT 22 else m.chgTo chgDETECT 4)
  else if m.charging ∧ m.inStop then
    let hot := m.chg.lowZone ≠ 0
    let ts := m.packTemps temps
    let t := match ts with
      | [] => 0
      | t :: rest => if hot then rest.foldl max t else rest.foldl min t
    let m := { m with chg := { m.chg with pauseFrom := st } }
    (m.fault Kind.TEMP_STOP (b2n hot + 16 * unsignedOf 8 t)).chgTo chgPAUSE 12
  else m

/-- `CHG_I` from the closing frame (R66, R152, R155): LIMITED where the sums keep FAST_CC below the target average. -/
def Hw.currentUpdate (m : Hw) (f : Frame) : Hw :=
  let st := m.chgState
  if m.charging then
    let m := m.chgLatchesNow st
    m.wrB Reg.CHG_STATUS_LIMITED (st = chgFASTCC && min (m.thawCurrent f) (m.peakTarget * 25) < m.neededCurrent f)
  else m.wr Reg.CHG_STATUS_LIMITED 0

/-- The comparator at a tick: its release is a removal (R139, R163). -/
def Hw.presenceTick (m : Hw) (f : Frame) : Hw :=
  let m' := m.presence f.vbat f.vsys
  if m.on Reg.CHG_STATUS_PRESENT ∧ ¬ m'.on Reg.CHG_STATUS_PRESENT then (m.removal 0x20).presence f.vbat f.vbat
  else m'

/-- The TS readings of a frame: open reads −128 and shorted 127 (R162, R170). -/
def Hw.tsRead (m : Hw) (ts : List Int) : List Int :=
  (ts.take 4).zipIdx.map fun x => if bitAt m.chg.tsOpen x.2 then -128 else if bitAt m.chg.tsShort x.2 then 127 else x.1

/-- What charging does at a tick (R66, R149, R156, R159, R166). An F1 CHARGE that is away evaluates nothing. -/
def Hw.chargeTick (m : Hw) (f : Frame) : Hw :=
  let m : Hw := (m.wrSat Reg.CHG_MON_VBAT f.vbat).wrI Reg.CHG_MON_INET f.inet
  let ts := m.tsRead f.ts
  let m : Hw := { m with chg := { m.chg with frame := some f, tsOpen := 0, tsShort := 0 } }
  let m := m.presenceTick f
  let m := ts.zipIdx.foldl (fun m x => m.setTs x.2 (unsignedOf 8 x.1)) m
  let tpack := match m.packTemps ts with | [] => none | t :: rest => some (rest.foldl max t)
  let m := if m.away .f1 then m else { m with jrn := { m.jrn with tpack := tpack } }
  let m := if m.away .f1 then m
    else ((((m.windowTick ts).countConditions f).timerTick f).chargeEval ts).askTick
  let m := if m.away .f1 then m else m.currentUpdate f
  let m := m.statOfState m.chgState
  let m := if m.rd Reg.PH_STATUS_LATCHED ≠ 0 ∨ m.bat.latched then
      (if m.flt.latchFn then (m.statEvent 7).faultN else m) else m
  ({ m with chg := { m.chg with fresh := false } } : Hw).statPads.batfet

end Sys2Proof.Machine
end

