-- ==== Sys2Proof/Machine/Rails.lean ====
section
/-! DEFINITION. Instrument rails, the rail link and the keep-alive rail (chapter 06). Rails are numbered 0 to 2 for POL1
to POL3 and 3, 4 for QR1, QR2. -/

namespace Sys2Proof.Machine

/-- A rail's set point in its own units (R172). -/
def Hw.railCode (m : Hw) (n : Nat) : Nat := if n < 3 then m.rd (Reg.POL_SET_SET n) else m.rd (Reg.QR_SET_SET (n - 3))

/-- A rail is on. -/
def Hw.railOn (m : Hw) (n : Nat) : Bool :=
  if n < 3 then m.bit Reg.RAIL_STATUS_POL_ON n else m.bit Reg.RAIL_STATUS_QR_ON (n - 3)

/-- A rail's on bit. -/
def Hw.setRailOn (m : Hw) (n : Nat) (b : Bool) : Hw :=
  if n < 3 then m.wrBit Reg.RAIL_STATUS_POL_ON n b else m.wrBit Reg.RAIL_STATUS_QR_ON (n - 3) b

/-- A rail's override bit. -/
def Hw.override (m : Hw) (n : Nat) : Bool :=
  if n < 3 then m.bit Reg.RAIL_STATUS_POL_OVR n else m.bit Reg.RAIL_STATUS_QR_OVR (n - 3)

def Hw.setOverride (m : Hw) (n : Nat) (b : Bool) : Hw :=
  if n < 3 then m.wrBit Reg.RAIL_STATUS_POL_OVR n b else m.wrBit Reg.RAIL_STATUS_QR_OVR (n - 3) b

/-- A rail is slewing; QR rails show no bit of their own. -/
def Hw.setSlewing (m : Hw) (n : Nat) (b : Bool) : Hw :=
  let m := m.setRail n { m.rail n with arrived := !b }
  if n < 3 then m.wrBit Reg.RAIL_STATUS_POL_SLEW n b else m

/-- The main rails may run: FLOAT, CHARGE, SOURCE, SERVICE, and START once the configuration is applied (R172, R197). -/
def Hw.railsMode (m : Hw) : Bool :=
  m.mode = modeFLOAT || m.mode = modeCHARGE || m.mode = modeSOURCE || m.mode = modeSERVICE ||
    (m.mode = modeSTART && m.seq.cfgApplied)

/-- A POL rail is asked to run: set point, enable, sub-switch, no latch, no stop, rails not withheld, no KEEPALIVE entry
staged (R21, R172, R176 to R178, R440, R441). A fence leaves the rail at its latched set point (R340). -/
def Hw.polWanted (m : Hw) (n : Nat) : Bool :=
  m.railsMode && m.modes.kaStep != 2 && !m.on Reg.MODE_STATUS_RAILS_HELD && bitAt m.arch.subs n && (m.domain .fPwr).pg &&
    m.loopValue (railLatch n) != 0 && !(m.rail n).disabled && !m.bit Reg.RAIL_STATUS_POL_LATCHED n && !(m.rail n).stopped &&
    !(m.rail n).uvlo

/-- A QR rail is asked to run: the override's enable, or that of `QR_CFG` for the mode (R185, R197). -/
def Hw.qrWanted (m : Hw) (i : Nat) : Bool :=
  let r := m.rail (3 + i)
  !r.fold && m.loopValue (railLatch (3 + i)) != 0 && bitAt m.arch.subs (3 + i) && (m.domain .fPwr).pg &&
    (if m.mode = modeKEEPALIVE || m.modes.kaStep = 2 || m.on Reg.MODE_STATUS_RAILS_HELD then m.bit Reg.QR_CFG_KA_QR i
     else m.railsMode && (if m.override (3 + i) then !r.disabled else m.bit Reg.QR_CFG_EN i))

/-- A POL rail may begin an on-time: in thaw, or at any time with policy EXEMPT (R54, R65). -/
def Hw.polMaySwitch (m : Hw) (n : Nat) : Bool := !m.quietDue || m.polPolicy n == 2

/-- The present reference of a POL rail, mV (R116, R174). -/
def Hw.polVset (m : Hw) (n : Nat) : Nat := m.refNow n / 1000

/-- The on-time of a POL rail in ns (R172, R181), from its output and VSYS, in mV, and `FSW` in kHz: in cycle `k` of a soft resume,
a quarter of it for each cycle so far. -/
def Hw.polOnTime (m : Hw) (n : Fin 3) (vout vsys k : Nat) : Nat :=
  let t := 1000000 * vout / max 1 (vsys * m.rd (Reg.POL_CFG_FSW n))
  if (m.rail n).resume.isSome then t * min 4 k / 4 else t

/-- The peak current limit of a POL rail at an output of `vout` mV, mA (R174). -/
def Hw.polLimit (m : Hw) (n vout : Nat) : Nat :=
  let i := m.rd (Reg.POL_CFG_ILIM n) * 250
  if 4 * vout ≤ m.polVset n then i / 4 else i * vout / max 1 (m.polVset n)

/-- A POL rail whose limit ends its on-times is at the floor (R116, R174). -/
def Hw.polAtFloor (m : Hw) (n vout : Nat) : Bool := m.polVset n != 0 && decide (4 * vout ≤ m.polVset n)

/-- The newest monitored voltage of a rail, mV (R188, R205). -/
def Hw.railMon (m : Hw) (n : Nat) : Nat :=
  match n with
  | 0 => bitsOf (m.rd Reg.RAIL_MON_A_PAIR) 0 16 | 1 => bitsOf (m.rd Reg.RAIL_MON_A_PAIR) 16 16
  | 2 => bitsOf (m.rd Reg.RAIL_MON_B_PAIR) 0 16 | 3 => bitsOf (m.rd Reg.RAIL_MON_B_PAIR) 16 16
  | _ => bitsOf (m.rd Reg.RAIL_MON_C_PAIR) 0 16

/-- A POL rail begins a soft start from its measured output (R176). -/
def Hw.polStart (m : Hw) (n vout : Nat) : Hw :=
  let m := m.setRail n { m.rail n with
    ss := true, ref := vout * 1000, refAt := m.now, resume := none, slew := m.rd (Reg.POL_CFG_SLEW n), ssEnd := none, disch := false }
  ((m.setRailOn n true).setSlewing n true).wrBit Reg.RAIL_STATUS_POL_REG n false

/-- A POL rail stops switching (R177). -/
def Hw.polStop (m : Hw) (n : Nat) : Hw :=
  let m := m.setRail n { m.rail n with ss := false, ssEnd := none, resume := none }
  ((m.setRailOn n false).setSlewing n false).wrBit Reg.RAIL_STATUS_POL_REG n false

/-- A fenced POL rail keeps its output (R340). -/
def Hw.railFenced (m : Hw) (n : Nat) : Bool := decide (n < 3) && m.bit Reg.FLT_FENCE_U_UNITS (4 + n)

/-- A POL rail follows what is asked of it (R172, R176, R177): one that is asked to run starts from its measured output, where
freeze lets it; one that is not stops, and one whose set point is 0 or that is disabled discharges where `DISCH` says so. -/
def Hw.polFollow (m : Hw) (n : Nat) : Hw :=
  let m := if m.polWanted n then (if m.railOn n || !m.polMaySwitch n then m else m.polStart n (m.railMon n))
    else if m.railOn n then m.polStop n else m
  m.setRail n { m.rail n with disch := m.on (Reg.POL_CFG_DISCH n) && !m.railOn n &&
    (m.loopValue (railLatch n) == 0 || (m.rail n).disabled) }

/-- The rails follow what is asked of them. -/
def Hw.railsFollow (m : Hw) : Hw :=
  let m := (List.range 3).foldl (fun m n => m.polFollow n) m
  (List.range 2).foldl (fun m i => m.setRailOn (3 + i) (m.qrWanted i)) m

/-- The oldest ticket of a rail on stream 19, keyed by the rail code (R188, R315). -/
def Hw.railTicket (m : Hw) (n : Nat) : Option Ticket :=
  m.tkt.table.find? fun (t : Ticket) => t.stream == 19 && t.chan == n + 1

/-- The oldest ticket of a rail retires (R316). -/
def Hw.railRetire (m : Hw) (n : Nat) : Hw :=
  match m.railTicket n with
  | some t => m.dropTicket t.num
  | none => m

/-- An accepted command of a rail ends, with its ticket: ARRIVED (2), SUPERSEDED (3) or FAILED (6). -/
def Hw.endTag (m : Hw) (n code detail : Nat) : Hw :=
  match (m.rail n).tag with
  | some g => ((m.setRail n { m.rail n with tag := none }).railRetire n).rlEvent code g detail
  | none => m


/-- A voltage in mV lies within 1 % of a rail's target (R189, R205). -/
def Hw.within1 (m : Hw) (n mv : Nat) : Bool :=
  let target := railMv n (m.railCode n)
  decide (target * 99 ≤ mv * 100) && decide (mv * 100 ≤ target * 101)

/-- `POL_REG` of a rail that has a new target (R205): its output, `mv` mV, may lie within 1 % of that already. -/
def Hw.regOf (m : Hw) (n mv : Nat) : Hw :=
  if n < 3 then m.wrBit Reg.RAIL_STATUS_POL_REG n (m.railOn n && m.within1 n mv) else m

/-- A rail slews from its reference, at `mv` mV where it does not hold it, to the latched target (R192, R193); a command still on
its way is superseded. -/
def Hw.slewTo (m : Hw) (n mv slew : Nat) (tag : Option Nat) : Hw :=
  let m := m.endTag n 0x3 mv
  let ref := if m.refHeld n then (m.rail n).ref else mv * 1000
  let m := m.setRail n { m.rail n with ref := ref, refAt := m.now, slew := slew, tag := tag }
  (((m.setSlewing n true).regOf n mv).railsFollow)

/-- The target of a rail is written by its owner (R30): the rail slews to it from its reference, at the slew of the pads. -/
def Hw.retarget (m : Hw) (n : Nat) (f : Hw → Hw) : Hw :=
  let ref := m.refNow n
  let slew := if n < 3 then m.rd (Reg.POL_CFG_SLEW n) else 1
  let m := f m
  let m := m.setRail n { m.rail n with ref := ref, refAt := m.now, slew := if (m.rail n).ss then (m.rail n).slew else slew }
  (((m.setSlewing n true).regOf n (ref / 1000)).railsFollow)

/-! Soft start and protections of the POL rails. -/

/-- POL_SOFT_START (R176): a rail that is asked to run starts from its measured output; with each stretch of switching its
reference moves on at its slew, and the soft start ends at the set point. -/
def execPolSoftStart (n : Fin 3) (at_ : RampStep) (s : State) : Host.Outcome State Fault Refusal :=
  effect s fun m =>
    let r := m.rail n
    if !m.polMaySwitch n then m
    else if m.polWanted n && !m.railOn n then m.polStart n at_.vout
    else if r.ss then
      let goal := railMv n (m.loopValue (railLatch n)) * 1000
      let ref := r.ref + slewRate r.slew * at_.us
      if goal ≤ ref then
        ((m.setRail n { r with ss := false, ref := goal, refAt := m.now, ssEnd := some m.now }).setSlewing n false).wrBit
          Reg.RAIL_STATUS_POL_REG n (m.within1 n at_.vout)
      else m.setRail n { r with ref := ref }
    else m

/-- A POL rail stops on a short or an overload: retried after 16 ticks, at most 3 times, then latched off (R176). -/
def Hw.polFail (m : Hw) (n : Nat) (k : FaultKind) (detail : Bool → Nat) (short : Bool) : Hw :=
  let r := m.rail n
  let latch := decide (3 ≤ r.attempts)
  let m := m.faultW { src := 0x24 + n, kind := k.code, sev := if latch && short then 3 else k.sev, detail := satN 14 (detail latch) }
  let m := (m.setRail n { r with stopped := true, ssEnd := none, attempts := if latch then 0 else r.attempts + 1
                                 retryAt := if latch then none else some (m.frnAfter 16) }).polStop n
  if latch then
    ((m.wrBit Reg.RAIL_STATUS_POL_LATCHED n true).endTag n 0x6 0x02).powerLatch (0x24 + n) k
  else m

/-- POL_SS_SHORT (R176): by the tests of R124, at the floor during the ramp, or below 50 % of the reference 1 ms after it. -/
def execPolSsShort (test : RailTest) (s : State) : Host.Outcome State Fault Refusal :=
  effect s fun m =>
    let n := test.rail
    let short := if test.floor then (m.rail n).ss && m.polAtFloor n test.vout
      else (m.rail n).ssEnd.isSome && decide (2000 * test.vout < (m.rail n).ref)
    if short then m.polFail n Kind.POL_SS_SHORT (fun l => (m.rail n).attempts + 4 * b2n l) true else m

/-- POL_RETRY (R176): at the first thaw slot at or after the 16th tick. -/
def execPolRetry (n : Fin 3) (vout : Nat) (s : State) : Host.Outcome State Fault Refusal :=
  effect s fun m =>
    match (m.rail n).retryAt with
    | none => m
    | some a =>
      if m.frnReached a ∧ ¬ m.quietDue then
        let m := m.setRail n { m.rail n with stopped := false, retryAt := none }
        if m.polWanted n then m.polStart n vout else m
      else m

/-- POL_OCP (R204): at the floor for 64 cycles after soft start. -/
def execPolOcp (n : Fin 3) (load : Overload) (s : State) : Host.Outcome State Fault Refusal :=
  effect s fun m =>
    if m.railOn n && !(m.rail n).ss && m.polAtFloor n load.vout then m.polFail n Kind.POL_OCP (fun _ => load.current) false else m

/-- POL_OV (R204): above 110 % of the set point the low side is on until the output is below 103 %. -/
def execPolOv (n : Fin 3) (mv : Nat) (s : State) : Host.Outcome State Fault Refusal :=
  effect s fun m =>
    let set := railMv n (m.loopValue (railLatch n))
    if set * 110 < mv * 100 then (m.setRail n { m.rail n with ov := true }).faultAt Kind.POL_OV (0x24 + n) (mv / 10)
    else if mv * 100 < set * 103 then m.setRail n { m.rail n with ov := false }
    else m

/-- POL_UVLO (R178): VSYS below 4.20 V stops every POL rail. -/
def execPolUvlo (vsys : Nat) (s : State) : Host.Outcome State Fault Refusal :=
  effect s fun m =>
    if vsys < 4200 then
      (List.range 3).foldl (fun m n =>
        ((m.setRail n { m.rail n with uvlo := true }).polStop n).faultAt Kind.POL_UVLO (0x24 + n) (vsys / 100)) m
    else m

/-- POL_UVLO_RESTART (R178): each rail restarts by soft start. -/
def execPolUvloRestart (s : State) : Host.Outcome State Fault Refusal :=
  effect s fun m =>
    ((List.range 3).foldl (fun m n => m.setRail n { m.rail n with uvlo := false }) m).railsFollow

/-- A rail's event of a run of frames: recorded once until 8 frames pass without one (R179, R196). -/
def Hw.onceInRun (m : Hw) (n : Nat) (f : Hw → Hw) : Hw :=
  let said := (m.rail n).runOpen
  let m := m.setRail n { m.rail n with runOpen := true, runQuiet := 0 }
  if said then m else f m

/-- POL_FRZ_FLOOR (R179): a FREEZE rail's hold path engages at its floor. -/
def execPolFrzFloor (n : Fin 3) (s : State) : Host.Outcome State Fault Refusal :=
  effect s fun m =>
    if m.frozen && m.railOn n && m.polPolicy n == 0 then
      ((m.setRail n { m.rail n with floorHeld := true }).wrBit Reg.RAIL_STATUS_HOLD_ACT n true).onceInRun n fun m =>
        m.faultAt Kind.POL_FRZ_FLOOR (0x24 + n) (m.rd (Reg.POL_CFG_FLOOR n))
    else m

/-- POL_HOLD_LIMIT (R180): once per freeze run; the hold path stays on. -/
def execPolHoldLimit (n : Fin 3) (fold : Bool) (mv : Nat) (s : State) : Host.Outcome State Fault Refusal :=
  effect s fun m =>
    let r := m.rail n
    if m.bit Reg.RAIL_STATUS_HOLD_ACT n then
      let m := m.setRail n { r with fold := fold, holdSaid := true }
      if r.holdSaid then m else m.faultAt Kind.POL_HOLD_LIMIT (0x24 + n) (b2n fold + 16 * (mv / 10))
    else m

/-- `RAIL_CTL.CLR_LATCH` written in SERVICE (R176): the rails that are latched off may start again. -/
def Hw.clrRailLatch (m : Hw) : Hw :=
  if m.inService then
    let was := m.rd Reg.RAIL_STATUS_POL_LATCHED
    let m := m.wr Reg.RAIL_STATUS_POL_LATCHED 0
    ((List.range 3).foldl (fun m n =>
      if bitAt was n then m.setRail n { m.rail n with stopped := false, attempts := 0, retryAt := none } else m) m).railsFollow
  else m

/-- RAIL_CLR_LATCH (R176). -/
def execRailClrLatch (s : State) : Host.Outcome State Fault Refusal := effect s Hw.clrRailLatch

/-- QR_LIMIT (R196): dropout or current limit. -/
def execQrLimit (n : Fin 2) (dropout : Bool) (s : State) : Host.Outcome State Fault Refusal :=
  effect s fun m =>
    if m.railOn (3 + n) then m.onceInRun (3 + n) fun m => m.fault Kind.QR_LIMIT (n + 2 * b2n dropout) else m

/-- QR_THERMAL (R196): stops at 150 °C, restarts below 130 °C. -/
def execQrThermal (n : Fin 2) (temp : Int) (s : State) : Host.Outcome State Fault Refusal :=
  effect s fun m =>
    let r := m.rail (3 + n)
    if 150 ≤ temp ∧ ¬ r.fold then ((m.setRail (3 + n) { r with fold := true }).fault Kind.QR_THERMAL n).railsFollow
    else if temp < 130 ∧ r.fold then (m.setRail (3 + n) { r with fold := false }).railsFollow
    else m

/-! Set points. -/

/-- The pad-selected code of a POL rail: index 2·B + A of `POL_VTABn_h` (R183). -/
def Hw.padCode (m : Hw) (n : Nat) : Nat :=
  let i := m.rails.vsel.getD n 0
  if i % 2 = 0 then m.rd (Reg.POL_VTAB_ENTRY_LO (2 * n + i / 2)) else m.rd (Reg.POL_VTAB_ENTRY_HI (2 * n + i / 2))

/-- F4 RAIL can act: not restarting and not under handover (R184, R195). -/
def Hw.f4Acts (m : Hw) : Bool := (m.engine .f4).running && !(m.engine .f4).restarting && !(m.engine .f4).handover

/-- A rail takes the pad-selected value (R184); a fenced one gets no new target (R340). -/
def Hw.padSelect (m : Hw) (n mv : Nat) : Hw :=
  if m.override n || m.railFenced n || !m.f4Acts then m
  else ((m.ownLatch (railLatch n) (m.padCode n)).slewTo n mv (m.rd (Reg.POL_CFG_SLEW n)) none)

/-- VSEL_CHANGE (R183, R184): a set override keeps the change from having an effect (R185). -/
def execVselChange (rail : Fin 3) (index : Fin 4) (s : State) : Host.Outcome State Fault Refusal :=
  effect s fun m =>
    let m := { m with rails := { m.rails with vsel := m.rails.vsel.set rail index } }
    m.padSelect rail (railMv rail (m.railCode rail))

/-! The rail link. -/

/-- A response frame (R187, R189). -/
def RlResp.frame (r : RlResp) (evt : Bool) : Nat :=
  let v := r.code % 16 * 2 ^ 20 + r.tag % 16 * 2 ^ 16 + b2n evt * 2 ^ 15 + r.detail % 2 ^ 15
  v * 256 + crc8 [BitVec.ofNat 8 (v / 65536), BitVec.ofNat 8 (v / 256), BitVec.ofNat 8 v]

/-- The response of a transaction goes out: the newest command's, else the oldest event, else IDLE (R190). -/
def Hw.respond (m : Hw) : Hw :=
  match m.rl.immediate, m.rl.events with
  | some r, ev => { m with rl := { m.rl with sent := r, evt := ev != [], immediate := none } }
  | none, r :: ev =>
    ({ m with rl := { m.rl with sent := r, evt := ev != [], events := ev } }).wr Reg.RL_STATUS_EVQ ev.length
  | none, [] => { m with rl := { m.rl with sent := ⟨0, 0, 0⟩, evt := false } }

/-- The immediate response that a command needs. -/
def Hw.answerRl (m : Hw) (code tag detail : Nat) : Hw :=
  { m with rl := { m.rl with immediate := some ⟨code, tag, detail⟩ } }

/-- REJECT with a reason, counted (R189, R194). -/
def Hw.rejectRl (m : Hw) (tag reason : Nat) : Hw := (m.bump Reg.RL_STATUS_REJECTS).answerRl 0x4 tag reason

/-- The rail link hears a transaction (R186, R195): not while it is fenced (R340) or under loop-back (R528). -/
def Hw.rlHeard (m : Hw) : Bool :=
  !m.bit Reg.FLT_FENCE_U_UNITS 0x14 && !(m.rd Reg.LB_STATUS_STATE == 2 && m.rd Reg.LB_CTL_IF == 3) &&
    m.on Reg.RL_CFG_RL_EN && !m.seq.pinHeld && m.mode != modeKEEPALIVE && m.mode != modeSHIP

/-- The rail link echoes (R527): its loop-back at L4 runs. -/
def Hw.rlEchoes (m : Hw) : Bool := m.rd Reg.LB_STATUS_STATE == 2 && m.rd Reg.LB_CTL_IF == 3 && m.rd Reg.LB_CTL_DEPTH == 3

/-- A transaction: the response of R190 goes out, the granted speed applies, then the command acts. Under the loop-back at L4
the command is answered with DATA, DETAIL its bits [22:8], those of `arg` (R188, R527). -/
def Hw.transact (m : Hw) (tag arg : Nat) (f : Hw → Hw) : Hw :=
  if m.rlHeard then f (m.respond.wr Reg.RL_STATUS_SPEED m.rl.grant)
  else if m.rlEchoes then m.respond.answerRl 0x5 tag (arg % 2 ^ 15)
  else m

/-- The tag of a rail-link command that awaits its end, if it carries one. -/
def RlCmd.tag? : RlCmd → Option Nat
  | .setV _ _ _ tag => some tag
  | .release _ tag => tag
  | .enable _ _ tag => some tag
  | .table _ => none

/-- The events that are queued, and those that accepted commands are still to raise (R190). -/
def Hw.eventsDue (m : Hw) : Nat :=
  m.rl.events.length + m.rl.planTags.length + (if m.rl.aptTag.isSome then 1 else 0) +
    (m.rails.rail.filter fun (r : Rail) => r.tag.isSome).length + (m.rl.waiting.filterMap RlCmd.tag?).length

/-- A command that needs a session (R191), and room for the events that it could raise beside those that earlier commands are
still to raise: so none is dropped, and no more than 16 are queued (R190; DEDUCED, notes/assumptions/120.md). -/
def Hw.inSession (m : Hw) (tag raises : Nat) (f : Hw → Hw) : Hw :=
  if !m.on Reg.RL_STATUS_SESSION then m.rejectRl tag 0x04
  else if raises != 0 && decide (16 < m.eventsDue + raises) then m.rejectRl tag 0x05
  else f m

/-- The configured set point of a QR rail (R185). -/
def Hw.qrConfigured (m : Hw) (i : Nat) : Nat :=
  match m.modes.cfgImage with
  | some img => Config.cfgField img (Reg.QR_SET_SET i).key
  | none => 0

/-- The overrides of the QR rails end (R185): the configured set points govern again. -/
def Hw.endQrOverrides (m : Hw) : Hw :=
  (List.range 2).foldl (fun m i =>
    if m.override (3 + i) then ((m.setOverride (3 + i) false).putLatch (railLatch (3 + i)) (m.qrConfigured i)) else m) m

/-- F4 RAIL carries out an accepted command (R192). -/
def Hw.runRl (m : Hw) (c : RlCmd) (mv : Nat) : Hw :=
  match c with
  | .setV n code slew tag =>
    let m := (m.setOverride n true).ownLatch (railLatch n) code
    m.slewTo n mv (if 3 ≤ n then min slew 1 else slew) (some tag)
  | .enable n on tag =>
    let m := (m.setOverride n true).setRail n { m.rail n with disabled := !on }
    m.slewTo n mv (if n < 3 then m.rd (Reg.POL_CFG_SLEW n) else 1) (some tag)
  | .release n tag =>
    let m := (m.setOverride n false).setRail n { m.rail n with disabled := false }
    let m := if n < 3 then m.ownLatch (railLatch n) (m.padCode n)
      else m.ownLatch (railLatch n) (m.qrConfigured (n - 3))
    m.slewTo n mv (if n < 3 then m.rd (Reg.POL_CFG_SLEW n) else 1) tag
  | .table n => m.padSelect n mv

/-- The rail that a command acts on. -/
def rlRail : RlCmd → Nat
  | .setV n _ _ _ => n
  | .release n _ => n
  | .enable n _ _ => n
  | .table n => n

/-- The ticket of the oldest command of a rail that waits is RUNNING as F4 RAIL carries the command out. -/
def Hw.startRl (m : Hw) (c : RlCmd) : Hw :=
  match m.tkt.table.find? fun (t : Ticket) => t.stream == 19 && t.chan == rlRail c + 1 && t.state == .issued with
  | some t => m.setTicket t.num fun t => { t with state := .running }
  | none => m

/-- F4 RAIL returns (R184, R195): the commands accepted while it was away are carried out in their order, and the pads
are read again. Their RAIL tickets have stayed (DEDUCED, notes/assumptions/110.md). -/
def Hw.f4Back (m : Hw) : Hw :=
  let w := m.rl.waiting
  let m := { m with rl := { m.rl with waiting := [] } }
  let m := w.foldl (fun m c => (m.startRl c).runRl c (railMv (rlRail c) (m.railCode (rlRail c)))) m
  (List.range 3).foldl (fun m n =>
    if m.padCode n = m.railCode n then m else m.padSelect n (railMv n (m.railCode n))) m

/-- An accepted command is carried out, or waits while F4 RAIL is away (R184, R206). -/
def Hw.takeRl (m : Hw) (c : RlCmd) (tag mv : Nat) : Hw :=
  let m := m.answerRl 0x1 tag 0
  if m.f4Acts then (m.startRl c).runRl c mv else { m with rl := { m.rl with waiting := m.rl.waiting ++ [c] } }

/-- The ticket of a command that will tell of its end (R314, R315); none where the RAIL stream has no place. -/
def Hw.issueRl (m : Hw) (c : RlCmd) : Option Hw :=
  match c.tag? with
  | none => some m
  | some _ => (m.issue 19 0x14 (rlRail c + 1) (if rlRail c < 3 then 0x24 + rlRail c else 0) false false false).map (·.1)

/-- A command is accepted with its ticket, or refused BUSY where the RAIL stream is at its limit (R314). -/
def Hw.acceptRl (m : Hw) (c : RlCmd) (tag mv : Nat) : Hw :=
  match m.issueRl c with
  | none => m.rejectRl tag 0x05
  | some m' => m'.takeRl c tag mv

/-- A rail that refuses rail-link commands: fenced or latched (R192). -/
def Hw.railRefuses (m : Hw) (n : Nat) : Bool :=
  m.railFenced n || (decide (n < 3) && m.bit Reg.RAIL_STATUS_POL_LATCHED n)

/-- A code that a rail can take (R188). -/
def codeOk (n code : Nat) : Bool := 120 ≤ code && code ≤ (if n < 3 then 1100 else 1200)

/-- RL_NOP (R190). -/
def execRlNop (tag : Fin 16) (s : State) : Host.Outcome State Fault Refusal := effect s fun m => m.transact tag 0 id

/-- RL_HELLO (R191): refused while F4 RAIL is still to check in at a start (R448); the lesser speed is granted, the session opens, and with KEEP = 0 every override is released. -/
def execRlHello (tag : Fin 16) (speed : Fin 4) (keep : Bool) (version : Fin 16) (s : State) :
    Host.Outcome State Fault Refusal :=
  effect s fun m => m.transact tag (speed * 2 ^ 14 + b2n keep * 2 ^ 13 + version * 2 ^ 8) fun m =>
    if m.mode = modeSTART ∧ ¬ (m.engine .f4).running then m.rejectRl tag 0x05 else
    let g := min speed.val (m.rd Reg.RL_CFG_RL_MAX)
    let lost := m.rl.lost
    let m := if keep then m
      else
        let m := (List.range 5).foldl (fun m n =>
          if m.override n then
            if m.f4Acts then m.runRl (.release n none) (railMv n (m.railCode n))
            else { m with rl := { m.rl with waiting := m.rl.waiting ++ [.release n none] } }
          else m) m
        m.wr Reg.FRM_STATUS_OVR 0
    let m := (m.wr Reg.RL_STATUS_SESSION 1)
    ({ m with rl := { m.rl with grant := g, lost := false } }).answerRl 0x7 tag (g * 2 ^ 13 + b2n lost * 2 ^ 12 + 1 * 2 ^ 8)

/-- RL_SET_V (R188, R192). -/
def execRlSetV (tag : Fin 16) (rail : Fin 8) (slew : Fin 4) (code : Fin 2048) (mv : Nat) (s : State) :
    Host.Outcome State Fault Refusal :=
  effect s fun m => m.transact tag (rail * 2 ^ 13 + slew * 2 ^ 11 + code) fun m => m.inSession tag 1 fun m =>
    let n := rail.val - 1
    if rail.val = 0 ∨ 5 < rail.val ∨ ¬ codeOk n code then m.rejectRl tag 0x03
    else if m.railRefuses n then m.rejectRl tag 0x08
    else if !m.railOn n then m.rejectRl tag 0x06
    else m.acceptRl (.setV n code slew tag) tag mv

/-- RL_RELEASE (R185): RAIL 0 releases every rail. Each rail then answers for itself with an ARRIVED of the command's tag,
and a rail that refuses makes the whole command FENCED (DESIGN CHOICE, notes/assumptions/95.md). -/
def execRlRelease (tag : Fin 16) (rail : Fin 8) (mv : Nat) (s : State) : Host.Outcome State Fault Refusal :=
  effect s fun m => m.transact tag (rail * 2 ^ 13) fun m => m.inSession tag (if rail.val = 0 then 5 else 1) fun m =>
    if 5 < rail.val then m.rejectRl tag 0x03
    else if rail.val = 0 then
      if (List.range 5).any m.railRefuses then m.rejectRl tag 0x08
      else if 16 < m.streamCount 19 + 5 then m.rejectRl tag 0x05
      else ((List.range 5).foldl (fun m n => m.acceptRl (.release n (some tag.val)) tag (railMv n (m.railCode n))) m)
    else if m.railRefuses (rail.val - 1) then m.rejectRl tag 0x08
    else m.acceptRl (.release (rail.val - 1) (some tag.val)) tag mv

/-- RL_ENABLE (R185). -/
def execRlEnable (tag : Fin 16) (rail : Fin 8) (on : Bool) (mv : Nat) (s : State) : Host.Outcome State Fault Refusal :=
  effect s fun m => m.transact tag (rail * 2 ^ 13 + b2n on) fun m => m.inSession tag 1 fun m =>
    if rail.val = 0 ∨ 5 < rail.val then m.rejectRl tag 0x03
    else if m.railRefuses (rail.val - 1) then m.rejectRl tag 0x08
    else m.acceptRl (.enable (rail.val - 1) on tag) tag mv

/-- RL_TABLE_WRITE (R192): ACCEPT only; the entry that the pads select takes effect at once. -/
def execRlTableWrite (tag : Fin 16) (rail : Fin 4) (index : Fin 4) (code : Fin 2048) (mv : Nat) (s : State) :
    Host.Outcome State Fault Refusal :=
  effect s fun m => m.transact tag (rail * 2 ^ 14 + index * 2 ^ 12 + code) fun m => m.inSession tag 0 fun m =>
    let n := rail.val - 1
    if rail.val = 0 ∨ ¬ (code.val = 0 ∨ codeOk n code = true) then m.rejectRl tag 0x03
    else if m.railRefuses n then m.rejectRl tag 0x08
    else if !m.on Reg.RL_CFG_TABLE_WR then m.rejectRl tag 0x09
    else
      let f := if index.val % 2 = 0 then Reg.POL_VTAB_ENTRY_LO (2 * n + index / 2) else Reg.POL_VTAB_ENTRY_HI (2 * n + index / 2)
      let m := m.wr f code
      if m.rails.vsel.getD n 0 = index.val then m.acceptRl (.table n) tag mv else m.answerRl 0x1 tag 0

/-- RL_PLAN (R53): the plan override, from the next tick's sample. -/
def execRlPlan (tag : Fin 16) (set : Bool) (plan : Fin 4) (s : State) : Host.Outcome State Fault Refusal :=
  effect s fun m => m.transact tag (b2n set * 4 + plan) fun m => m.inSession tag 1 fun m =>
    let m := m.wrB Reg.FRM_STATUS_OVR set
    ({ m with seq := { m.seq with planOvr := if set then plan else m.seq.planOvr }
              rl := { m.rl with planTags := m.rl.planTags ++ [tag.val] } }).answerRl 0x1 tag 0

/-- RL_APT_A (R188). -/
def execRlAptA (tag : Fin 16) (frn7 : Fin 128) (len : Fin 512) (s : State) : Host.Outcome State Fault Refusal :=
  effect s fun m => m.transact tag (frn7 * 2 ^ 9 + len) fun m => m.inSession tag 0 fun m =>
    if len.val = 0 ∨ 500 < len.val then m.rejectRl tag 0x03
    else ({ m with rl := { m.rl with aptA := some (frn7, len) } }).answerRl 0x1 tag 0

/-- RL_APT_B (R188): the aperture is armed for the first frame, this one included, whose FRN matches. One that is armed
already is replaced, and its tag receives no event (DESIGN CHOICE, notes/assumptions/96.md). -/
def execRlAptB (tag : Fin 16) (slot : Fin 256) (cycle : Fin 256) (s : State) : Host.Outcome State Fault Refusal :=
  effect s fun m => m.transact tag (slot * 2 ^ 8 + cycle) fun m => m.inSession tag 1 fun m =>
    match m.rl.aptA with
    | none => m.rejectRl tag 0x07
    | some (f7, len) =>
      let frn := m.frnAfter ((f7 + 128 - m.frn % 128) % 128)
      ({ m with rl := { m.rl with aptA := none, aptTag := some tag.val }
                seq := { m.seq with sched := some { frn := frn, slot := slot, cycle := cycle * 512, len := len * 10
                                                    armedAt := m.now, raised := false } } }).answerRl 0x1 tag 0

/-- The newest system-scan value of a rail, kept (R249). -/
def Hw.setRailMon (m : Hw) (n mv : Nat) : Hw :=
  let pair := fun (f : Field) (hi : Bool) =>
    m.wr f (if hi then m.rd f % 65536 + 65536 * satN 16 mv else m.rd f / 65536 * 65536 + satN 16 mv)
  match n with
  | 0 => pair Reg.RAIL_MON_A_PAIR false | 1 => pair Reg.RAIL_MON_A_PAIR true
  | 2 => pair Reg.RAIL_MON_B_PAIR false | 3 => pair Reg.RAIL_MON_B_PAIR true
  | _ => pair Reg.RAIL_MON_C_PAIR false

/-- RL_READ (R188, R249): the newest system-scan value of the rail answers, and is kept. -/
def execRlRead (tag : Fin 16) (read : RailReading) (s : State) : Host.Outcome State Fault Refusal :=
  effect s fun m => m.transact tag (read.rail * 2 ^ 13) fun m => m.inSession tag 0 fun m =>
    if read.rail.val = 0 ∨ 5 < read.rail.val then m.rejectRl tag 0x03
    else if m.railRefuses (read.rail.val - 1) then m.rejectRl tag 0x08
    else (m.setRailMon (read.rail.val - 1) read.mv).answerRl 0x5 tag (satN 15 read.mv)

/-- RL_RESEND (R187, R190): the last response that the instrument had received is repeated in the next transaction. -/
def execRlResend (tag : Fin 16) (s : State) : Host.Outcome State Fault Refusal :=
  effect s fun m =>
    let last := m.rl.sent
    m.transact tag 0 fun m => m.inSession tag 0 fun m => { m with rl := { m.rl with immediate := some last } }

/-- RL_BAD_OPCODE (R194). The argument of such a command, which an echo returns (R527), is a free value. -/
def execRlBadOpcode (tag : Fin 16) (range : Bool) (s : State) : Host.Outcome State Fault Refusal :=
  effect s fun m =>
    let arg := m.freeBelow (2 ^ 15)
    (if m.rlEchoes then m.drew else m).transact tag arg fun m => m.inSession tag 0 fun m =>
      m.rejectRl tag (if range then 0x03 else 0x02)

/-- RL_CRC_ERROR (R194): recorded once per frame, at the frame's end, with its count. -/
def execRlCrcError (tag : Fin 16) (s : State) : Host.Outcome State Fault Refusal :=
  effect s fun m => if !m.rlHeard && !m.rlEchoes then m else
    let m := m.respond.wr Reg.RL_STATUS_SPEED m.rl.grant
    ({ m.bump Reg.RL_STATUS_CRC_ERRS with rl := { m.rl with crcFrame := m.rl.crcFrame + 1 } }).answerRl 0x4 tag 0x01

/-- RL_FRAME_ABANDON (R186). -/
def execRlFrameAbandon (clock : Nat) (s : State) : Host.Outcome State Fault Refusal :=
  effect s fun m =>
    if m.rlHeard then (m.bump Reg.RL_STATUS_FRAME_ERRS).fault Kind.RL_FRAME clock else m

/-- The target of a rail is off, and the rail has stopped (R189): its set point is 0, or it is disabled; a QR rail also where
`QR_CFG` gives it no enable. -/
def Hw.offTarget (m : Hw) (n : Nat) : Bool :=
  !m.railOn n && (m.loopValue (railLatch n) == 0 || (m.rail n).disabled || (decide (3 ≤ n) && !m.qrWanted (n - 3)))

/-- A rail may come within 1 % of its target: not while it holds a reference that lies farther off (R193). -/
def Hw.mayArrive (m : Hw) (n : Nat) : Bool := !m.refHeld n || m.within1 n ((m.rail n).ref / 1000)

/-- RAIL_ARRIVED (R189): within 1 % of the target, or stopped for an off target. -/
def execRailArrived (rail : Fin 5) (mv : Nat) (s : State) : Host.Outcome State Fault Refusal :=
  effect s fun m =>
    let n := rail.val
    let off := m.offTarget n
    if off || (m.railOn n && m.within1 n mv && m.mayArrive n) then
      let m := if n < 3 then m.wrBit Reg.RAIL_STATUS_POL_REG n (!off) else m
      let r := m.rail n
      let m := m.setRail n { r with
        ss := false, arrived := true, ref := if m.refHeld n then r.ref else mv * 1000, refAt := m.now, ssEnd := if r.ss then some m.now else r.ssEnd }
      m.endTag n 0x2 mv
    else m

/-! The keep-alive rail. -/

/-- The keep-alive set point, mV (R198). -/
def Hw.kaMv (m : Hw) : Nat :=
  match bitsOf (m.loopValue .kaSet) 0 2 with
  | 0 => 3300 | 1 => 5000 | 2 => 9000 | _ => 12000

/-- KA_ENABLE (R199): the cell-presence comparator asserts; the latch follows `KA_SET.EN`. -/
def execKaEnable (s : State) : Host.Outcome State Fault Refusal :=
  effect s fun m =>
    let m := m.wr Reg.CHG_STATUS_PRESENT 1
    let m := if m.on Reg.KA_SET_EN ∧ ¬ m.rails.kaInvalid then m.wr Reg.RAIL_STATUS_KA_ON 1 else m
    m.batfet

/-- The time `t` after the present tick as an SC field (R6, R43). -/
def Hw.scAt (m : Hw) (t : Nat) : Nat :=
  let s := slotOf m.seq.len t
  s * 2 ^ 24 + (t - slotStart m.seq.len s) % 2 ^ 24

/-- The frame and the SC field of an instant `d` FCLK cycles before the time `t` of the present frame: it may lie in the frame
before (R201, R276). -/
def Hw.before (m : Hw) (t d : Nat) : Nat × Nat :=
  if d ≤ t then (m.frn, m.scAt (t - d))
  else
    let len := m.seq.lens.getLastD m.seq.len
    let at_ := len - (d - t)
    ((m.frn + 2 ^ 32 - 1) % 2 ^ 32, slotOf len at_ * 2 ^ 24 + (at_ - slotStart len (slotOf len at_)) % 2 ^ 24)

/-- KA_GAP (R201): at the time `t` the armed detector has seen the node below 97 % for 1 ms, and stores when it fell. -/
def execKaGap (t ms mv : Nat) (s : State) : Host.Outcome State Fault Refusal :=
  effect s fun m =>
    if m.rails.kaArmed ∧ m.rails.kaGap = none then
      let g : KaGap := { frn := (m.before t 200000).1, sc := (m.before t 200000).2, endFrn := 0, endSc := 0, lowest := mv, us := 0 }
      let m := { m with rails := { m.rails with kaGap := some g } }
      let m := { m with rails := { m.rails with gaps := m.rails.gaps + 1 }, jrn := { m.jrn with kaBelow := true } }
      let m := ((m.bump Reg.KA_GAP_COUNT).wr Reg.RAIL_STATUS_KA_LOW 1).fault Kind.KA_GAP ms
      if mv < m.rd Reg.KA_MIN_MIN then m.wrSat Reg.KA_MIN_MIN mv else m
    else m

/-- JR_KA_GAP (R276). -/
def Hw.gapRecord (m : Hw) (g : KaGap) : Hw :=
  let role := if m.on Reg.KA_SET_TWIN then (if m.on Reg.RAIL_STATUS_KA_STBY then 2 else 1) else 0
  m.record JR.KA_GAP 0x3F
    (le 4 g.frn ++ le 4 g.sc ++ le 4 g.endFrn ++ le 4 g.endSc ++ le 2 g.lowest ++ le 1 (m.rd Reg.KA_SET_TWIN) ++ le 1 role ++
      le 4 (satN 32 g.us) ++ le 4 0)

/-- The gaps stored while F6 JOURNAL was away are submitted (R201). -/
def Hw.submitGaps (m : Hw) : Hw :=
  if (m.engine .f6).restarting then m
  else { m.rails.kaStored.foldl Hw.gapRecord m with rails := { m.rails with kaStored := [] } }

/-- The gap detector arms: a since-point of the statement (R201, R302). -/
def Hw.armGap (m : Hw) (mv : Nat) : Hw :=
  { m with rails := { m.rails with kaArmed := true, dips := 0, lowest := mv }
           jrn := { m.jrn with
             sinceKind := if m.modes.downShip then 2 else 0, sinceFrn := m.frn, sinceTai := m.timeNow.1
             sinceSub := m.timeNow.2, unreadSince := false } }

/-- KA_NODE_RECOVER (R201): the node rises above 97 %. The first rise arms the detector; a dip under 1 ms is counted, and
a gap is closed with JR_KA_GAP. -/
def execKaNodeRecover (t us mv : Nat) (s : State) : Host.Outcome State Fault Refusal :=
  effect s fun m =>
    if !m.on Reg.RAIL_STATUS_KA_ON then m
    else if !m.rails.kaArmed then m.armGap mv
    else
      let m := { m.wr Reg.RAIL_STATUS_KA_LOW 0 with jrn := { m.jrn with kaBelow := true } }
      let m := if mv < m.rd Reg.KA_MIN_MIN then m.wrSat Reg.KA_MIN_MIN mv else m
      match m.rails.kaGap with
      | none => { m.bump Reg.KA_GAP_SHORT with rails := { m.rails with dips := m.rails.dips + 1, lowest := min mv m.rails.lowest } }
      | some g =>
        let g := { g with endFrn := m.frn, endSc := m.scAt t, lowest := min g.lowest mv, us := us }
        let m := m.wrSat Reg.KA_GAP_LAST_MS (us / 1000)
        ({ m with rails := { m.rails with kaGap := none, kaStored := m.rails.kaStored ++ [g] } }).submitGaps

/-- KA_LIMIT (R204): in current limit for 1 ms. -/
def execKaLimit (current : Nat) (s : State) : Host.Outcome State Fault Refusal :=
  effect s fun m => if m.on Reg.RAIL_STATUS_KA_ON then m.fault Kind.KA_LIMIT (current / 10) else m

/-- KA_THERMAL_FOLD (R200): the limit folds to 100 mA at 150 °C, and is restored below 130 °C. KA stays on. -/
def execKaThermalFold (temp : Int) (s : State) : Host.Outcome State Fault Refusal :=
  effect s fun m =>
    if 150 ≤ temp then { m with rails := { m.rails with kaFold := true } }
    else if temp < 130 then { m with rails := { m.rails with kaFold := false } }
    else m

/-- KA_STANDBY_HANDOVER (R203): the LEAD's KA stops, and the standby's diode carries the shared node. -/
def execKaStandbyHandover (s : State) : Host.Outcome State Fault Refusal :=
  effect s fun m =>
    if m.on Reg.KA_SET_TWIN ∧ m.on Reg.RAIL_STATUS_KA_ON ∧ m.on Reg.RAIL_STATUS_KA_STBY then
      { m with rails := { m.rails with kaCarries := true } }
    else m

/-- KA_OFFSET_REMOVAL (R203, R357): the offset follows the role bit; a LEAD has none. -/
def execKaOffsetRemoval (s : State) : Host.Outcome State Fault Refusal :=
  effect s fun m =>
    if m.twin.standby then m else { m.wr Reg.RAIL_STATUS_KA_STBY 0 with rails := { m.rails with kaCarries := false } }

/-! The frame tick. -/

/-- The lowest voltage of the KA node, as the register and the statement keep it (R201, R302). -/
def Hw.lowKa (m : Hw) (mv : Nat) : Hw :=
  let m := if mv < m.rd Reg.KA_MIN_MIN then m.wrSat Reg.KA_MIN_MIN mv else m
  { m with rails := { m.rails with lowest := min m.rails.lowest mv } }

/-- The gap detector at a tick: it arms at 97 % of the set point, and the lowest voltage is kept (R201). -/
def Hw.watchKa (m : Hw) (mv : Nat) : Hw :=
  if m.on Reg.RAIL_STATUS_KA_ON then
    let low := m.rails.kaArmed && decide (mv * 100 < m.kaMv * 97)
    let m := if low then { m with jrn := { m.jrn with kaBelow := true } } else m
    (if !m.rails.kaArmed && decide (m.kaMv * 97 ≤ mv * 100) then m.armGap mv else m).lowKa mv
  else m

/-- What the rails do at a tick: runs close after 8 quiet frames, arrived rails have ended their slew, a soft start whose output
has held for 1 ms is complete, with its count of failed attempts at zero (R176 does not say when; DESIGN CHOICE,
notes/assumptions/91.md), and RL_CRC is recorded for the frame (R179, R194, R196). -/
def Hw.railsTick (m : Hw) (f : Frame) : Hw :=
  let m := (List.range 5).foldl (fun m n =>
    let r := m.rail n
    let q := r.runQuiet + 1
    let held := match r.ssEnd with | some e => decide (e + 200000 ≤ m.now) | none => false
    let m := m.setRail n { r with
      runOpen := r.runOpen && decide (q < 9), runQuiet := q
      ssEnd := if held then none else r.ssEnd, resume := r.resume.filter fun e => decide (m.now < e), attempts := if held then 0 else r.attempts }
    if r.arrived && decide (n < 3) then m.wrBit Reg.RAIL_STATUS_POL_SLEW n false else m) m
  let m := if m.rl.crcFrame = 0 then m
    else ({ m with rl := { m.rl with crcFrame := 0 } }).fault Kind.RL_CRC m.rl.crcFrame
  let v := fun i => satN 16 (f.rails.getD i 0)
  let m := ((m.wr Reg.RAIL_MON_A_PAIR (v 0 + 65536 * v 1)).wr Reg.RAIL_MON_B_PAIR (v 2 + 65536 * v 3)).wr
    Reg.RAIL_MON_C_PAIR (v 4 + 65536 * v 5)
  (m.wrB Reg.RAIL_STATUS_KA_LOW (m.on Reg.RAIL_STATUS_KA_ON && m.rails.kaArmed && decide (v 5 * 100 < m.kaMv * 97))).watchKa f.vka

end Sys2Proof.Machine
end

