-- ==== Sys2Proof/Machine/Cable.lean ====
section
/-! DEFINITION. The cable port (chapter 07). -/

namespace Sys2Proof.Machine

/-- `CBL_STATUS.STATE` (R241). -/
def cblSINK : Nat := 1
def cblSOURCE : Nat := 2
def cblRECOVERY : Nat := 5

/-- The PD PHY answers: it is not fenced (R340), and the host side is not held in reset (R238, R242). -/
def Hw.pdServes (m : Hw) : Bool :=
  !m.bit Reg.FLT_FENCE_U_UNITS 0x1A && !m.host.pinLow && !bitAt m.lb.testHigh 0 && !m.arch.sb.hostReset

/-- What needs PD: nothing while the PD PHY does not answer. -/
def Hw.pdIn (m : Hw) (f : Hw → Hw) : Hw := if m.pdServes then f m else m

/-- The port's state. -/
def Hw.port (m : Hw) : Nat := m.rd Reg.CBL_STATUS_STATE

/-- A bit of `CBL_STATUS` [19:16] is set; gaining one raises the CABLE alert (R421). -/
def Hw.cblFlag (m : Hw) (f : Field) : Hw := if m.on f then m else (m.wr f 1).alertSet 5

/-- JR_CABLE_EVENT (R240): `i` is the event's place in the list of R240. -/
def Hw.cableEvent (m : Hw) (i before : Nat) (transition : Bool) : Hw :=
  m.recordH JR.CABLE_EVENT 0x00
    (le 1 (Config.cableEvent i) ++ le 1 before ++ le 2 (Config.cableBits transition))

/-- TM_CABLE (R406): REQ 0 none, 1 SOURCE, 2 withdraw SOURCE, 3 new target. -/
def Hw.tellField (m : Hw) (req mv : Nat) : Hw :=
  m.sendH 0x21 0 (le 1 req ++ le 1 0 ++ le 2 (mv / 10) ++ le 4 (m.readWord 0x0404))

/-- The current that a Type-C Rp advertises, 10 mA units (R207). -/
def rpCurrent (rp : Nat) : Nat := if rp = 3 then 300 else if rp = 2 then 150 else 50

/-- H0 CABLE passes a contract current, in 10 mA units, to H1 INTAKE (R83, R215). -/
def Hw.passCurrent (m : Hw) (curr : Nat) : Hw := ({ m with intake := { m.intake with advert := curr } }).limitWrite

/-- The VBUS windows of a contract at `mv` (R215), `pps` for PPS and AVS; the lower threshold is then 3.00 V or more. -/
def Hw.contractWindow (m : Hw) (mv : Nat) (pps : Bool) : Hw :=
  { m with cable := { m.cable with
      window := true, winDue := none, riseLo := mv * 90 / 100, riseHi := mv * 108 / 100 + 500
      fallLo := if pps then max (mv * 85 / 100) 3000 else mv * 85 / 100
      fallHi := mv * 110 / 100 + 500 } }

/-- The windows from Accept until PS_RDY of a change of voltage (R215). -/
def Hw.transitWindow (m : Hw) (old new : Nat) : Hw :=
  { m with cable := { m.cable with
      window := true, winDue := none, riseLo := new * 90 / 100, riseHi := new * 108 / 100 + 500
      fallLo := if old = 5000 ∨ new = 5000 then 4000 else min old new * 85 / 100
      fallHi := max old new * 110 / 100 + 500 } }

/-- The windows without a contract (R76). -/
def Hw.plainWindow (m : Hw) : Hw :=
  { m with cable := { m.cable with window := false, winDue := none, riseLo := 4400, riseHi := 5500, fallLo := 4000, fallHi := 5800 } }

/-- An explicit contract (R240); frame-share may be tried anew under it (R235). -/
def Hw.setContract (m : Hw) (x : Terms) (role : Nat) : Hw :=
  let m := { m with cable := { m.cable with fsTries := 0 } }
  let m := ((((m.wr Reg.CBL_CONTRACT_VOLT (x.mv / 10)).wrSat Reg.CBL_CONTRACT_CURR x.curr).wr Reg.CBL_CONTRACT_TYPE x.type).wr
    Reg.CBL_CONTRACT_ROLE role).wr Reg.CBL_CONTRACT_POS x.pos
  let m := (m.wr Reg.CBL_STATUS_EXPLICIT 1).cblFlag Reg.CBL_STATUS_CONTRACT_CHG
  (m.recordH JR.CABLE_CONTRACT 0x00
    (le 1 role ++ le 1 x.type ++ le 1 x.pos ++ le 1 (m.readWord 0x0408 % 64) ++ le 2 (x.mv / 10) ++ le 2 x.curr)).tellField 0 x.mv

/-- The contract is cleared. -/
def Hw.clearContract (m : Hw) : Hw :=
  let m := m.clear [Reg.CBL_CONTRACT_VOLT, Reg.CBL_CONTRACT_CURR, Reg.CBL_CONTRACT_TYPE, Reg.CBL_CONTRACT_ROLE,
    Reg.CBL_CONTRACT_POS, Reg.CBL_STATUS_EXPLICIT, Reg.CBL_STATUS_EPR, Reg.CBL_STATUS_MISMATCH, Reg.CBL_STATUS_FRS_ARMED]
  { m with cable := { m.cable with req := none, transit := false } }

/-- The frame-share mode is left and the SBU multiplexer opens (R236). -/
def Hw.leaveShare (m : Hw) : Hw :=
  if m.on Reg.CBL_STATUS_FS_MODE then
    ({ m.wr Reg.CBL_STATUS_FS_MODE 0 with cable := { m.cable with fsDrive := false } }).cableEvent 8 m.port false
  else m

/-- The source switch opens; VBUS is discharged (R224). -/
def Hw.openSource (m : Hw) : Hw :=
  ({ m with cable := { m.cable with srcSwitch := false, discharge := true } } : Hw).settleSource

/-- H0 CABLE withdraws its SOURCE request, or reports the end of the role. -/
def Hw.withdraw (m : Hw) : Hw :=
  if m.cable.asked || m.cable.granted then ({ m with cable := { m.cable with asked := false, granted := false } }).tellField 2 0 else m

/-- What leaving an attachment clears. -/
def Hw.blankPort (m : Hw) : Hw :=
  let m := (m.clearContract.leaveShare).plainWindow
  let m := m.clear [Reg.CBL_STATUS_VCONN, Reg.CBL_STATUS_DFP, Reg.CBL_STATUS_RP, Reg.CBL_PARTNER_REV, Reg.CBL_PARTNER_DRP,
    Reg.CBL_PARTNER_EPR_CAP, Reg.CBL_PARTNER_FRS_REQ, Reg.CBL_CABLE_EMARKED, Reg.CBL_CABLE_ICAP, Reg.CBL_CABLE_VMAX,
    Reg.CBL_CABLE_NO_SBU]
  { m with cable := { m.cable with
      ra := false, pdSeen := false, swap := 0, hardResets := 0, eprMiss := 0, discTries := 0, fsTries := 0, frsSent := false
      frsRx := false, swapReset := false } }

/-- ErrorRecovery for a cause, named by its fault code, 0 for none (R224). -/
def Hw.errorRecovery (m : Hw) (cause : Nat) : Hw :=
  let before := m.port
  let m := (m.openSource.blankPort).wr Reg.CBL_STATUS_STATE cblRECOVERY
  let m := { m with cable := { m.cable with sinkOnly := true, rp := false } }
  let m := (((m.bump Reg.CBL_EVENTS_ERR_RECOV).hfault Kind.ERROR_RECOVERY cause).cableEvent 6 before false).withdraw
  { m with seq := { m.seq with refuseSource := false } }

/-- The conditions of R218. A port that already is the source stays so in APPROACH (R219, R220). H0 CABLE judges the mode and the
latches of the field side as they stand (by which message it has them is not stated, notes/assumptions/106.md). -/
def Hw.mayPermit (m : Hw) : Bool :=
  m.rd Reg.CBL_CFG_ROLE != 0 && m.on Reg.CBL_CFG_REV_EN && m.on Reg.ID_STATUS_FIELD_READY &&
    (m.mode = modeFLOAT || m.mode = modeCHARGE || m.mode = modeSOURCE) && m.rd Reg.CBL_OFFER_C_AGE ≤ 64 &&
    (m.rd Reg.CBL_OFFER_C_RES_STATE = 0 || (m.port = cblSOURCE && m.rd Reg.CBL_OFFER_C_RES_STATE = 1)) &&
    50 ≤ m.cable.rawI5 && !m.on Reg.XFER_STATUS_LATCHED && m.rd Reg.PH_STATUS_LATCHED = 0 && !m.bat.latched &&
    !(m.on Reg.INTAKE_STATUS_DCIN_QUAL && m.on Reg.CBL_CFG_DCIN_ENDS_SRC)

/-- The source role is permitted (R218), and the port is not held sink-only (R223, R224). -/
def Hw.permitted (m : Hw) : Bool := m.mayPermit && !m.cable.sinkOnly && !m.cable.sinkOnlyDetach

/-- The fast role swap may be armed (R229): the 5 V offer without P_quiet meets the partner's current. -/
def Hw.frsReady (m : Hw) : Bool :=
  let need := m.rd Reg.CBL_PARTNER_FRS_REQ
  m.on Reg.CBL_CFG_FRS_RX_EN && m.port = cblSINK && m.on Reg.CBL_STATUS_EXPLICIT &&
    ((m.rd Reg.CBL_CONTRACT_TYPE = 1 && m.rd Reg.CBL_CONTRACT_VOLT = 500) ||
      (m.rd Reg.CBL_CONTRACT_TYPE = 2 && m.rd Reg.CBL_CONTRACT_VOLT ≤ 550)) &&
    m.rd Reg.CBL_PARTNER_REV = 2 && need != 0 && rpCurrent need ≤ m.cable.freeI5 && m.permitted

/-- A port that brings up or holds VBUS as source: attached as source, at the bring-up of a swap (R221), or a debug accessory
that presented Rd as the port presented Rp (R212). -/
def Hw.sourcing (m : Hw) : Bool := m.port = cblSOURCE || m.cable.swap = 5 || (m.port = 4 && m.cable.rp)

/-- The fault that has ended the permission, by its code: the reserve, a latched stage or latched phases; 0 where no fault has
(R239). -/
def Hw.lossCause (m : Hw) : Nat :=
  if m.rd Reg.CBL_OFFER_C_RES_STATE = 2 then Kind.SRC_RESERVE.code
  else if m.on Reg.XFER_STATUS_LATCHED then m.xfer.latchCode
  else if m.rd Reg.PH_STATUS_LATCHED ≠ 0 then m.ph.latchCode
  else 0

/-- `SRC_PERMIT` and `FRS_ARMED` follow their conditions (R218, R229); an unattached port presents Rp only while the source
role is permitted (R209). -/
def Hw.portFlags (m : Hw) : Hw :=
  let m := if m.port = 0 then { m with cable := { m.cable with rp := m.cable.rp && m.permitted } } else m
  (m.wrB Reg.CBL_STATUS_SRC_PERMIT m.permitted).wrB Reg.CBL_STATUS_FRS_ARMED m.frsReady

/-- The source role ends (R224): by the fast role swap signal where R230 allows it, else by ErrorRecovery. -/
def Hw.endRole (m : Hw) (cause : Nat) : Hw :=
  if m.sourcing = false then m
  else if m.port = cblSOURCE ∧ m.on Reg.CBL_CFG_FRS_TX_EN ∧ m.rd Reg.CBL_SRC_CFG_FRS_REQ ≠ 0 ∧ m.on Reg.CBL_PARTNER_DRP then
    { m with cable := { m.cable with srcSwitch := false, discharge := false, frsSent := true } }
  else m.errorRecovery cause

/-- The port loses its partner (R211, R233). -/
def Hw.detach (m : Hw) (transition : Bool) : Hw :=
  let before := m.port
  if before = 0 then m
  else
    let m := if before = cblSOURCE then (m.openSource).haltCode .cableDetach
      else if m.sourcing then m.openSource else m
    let m := (m.blankPort).wr Reg.CBL_STATUS_STATE 0
    let m := { m with cable := { m.cable with rp := false, sinkOnlyDetach := false }, seq := { m.seq with refuseSource := false } }
    let m := if before = cblSINK then m.passCurrent 50 else m.withdraw
    ((m.cblFlag Reg.CBL_STATUS_ATTACH_CHG).cableEvent 1 before transition).portFlags

/-- A cable that attaches ends a run of the PD PHY at L2 or L3 with FAIL (R538). -/
def Hw.pdRunEnds (m : Hw) : Hw :=
  if m.rd Reg.HLB_STATUS_STATE = 2 ∧ m.rd Reg.HLB_CTL_IF = 3 ∧ m.rd Reg.HLB_CTL_DEPTH ≠ 0 then
    { (m.wr Reg.HLB_STATUS_STATE 4).wr Reg.HLB_STATUS_REASON 0 with lb := { m.lb with hostRun := false } }
  else m

/-- An attach wakes a dozing H-CORE, and a field side asleep by its code (R238, R440). -/
def Hw.attachWake (m : Hw) : Hw :=
  let m := (m.hcoreWake).pdRunEnds
  if m.host.fieldAsleep then m.haltCode .attachWake else m

/-- CC_ATTACH_SNK (R211): Rp for tCCDebounce with VBUS qualified; the Type-C current applies. -/
def execCcAttachSnk (cc2 : Bool) (rp : Fin 4) (s : State) : Host.Outcome State Fault Refusal :=
  effect s fun m =>
    if m.port ≠ 0 ∨ rp.val = 0 ∨ ¬ m.on Reg.INTAKE_STATUS_VBUS_QUAL then m
    else
      let m := ((m.wr Reg.CBL_STATUS_STATE cblSINK).wrB Reg.CBL_STATUS_ORIENT cc2).wr Reg.CBL_STATUS_RP rp
      let m := ((m.wr Reg.CBL_CONTRACT_VOLT 500).wr Reg.CBL_CONTRACT_CURR (rpCurrent rp)).wr Reg.CBL_CONTRACT_TYPE 5
      let m := (m.wr Reg.CBL_CONTRACT_ROLE 1).wr Reg.CBL_CONTRACT_POS 0
      let m := { m with cable := { m.cable with attachRole := 1, rp := false } }
      ((m.passCurrent (rpCurrent rp)).cblFlag Reg.CBL_STATUS_ATTACH_CHG).attachWake.cableEvent 0 0 false

/-- CC_ATTACH_SRC (R211): Rd for tCCDebounce while the port may be source. -/
def execCcAttachSrc (cc2 : Bool) (ra : Bool) (s : State) : Host.Outcome State Fault Refusal :=
  effect s fun m =>
    if m.port ≠ 0 ∨ ¬ m.permitted then m
    else
      let m := ((m.wr Reg.CBL_STATUS_STATE cblSOURCE).wrB Reg.CBL_STATUS_ORIENT cc2).wr Reg.CBL_STATUS_DFP 1
      let m := { m with cable := { m.cable with attachRole := 2, rp := true, ra := ra } }
      (m.cblFlag Reg.CBL_STATUS_ATTACH_CHG).attachWake.cableEvent 0 0 false

/-- CC_DETACH (R211). -/
def execCcDetach (s : State) : Host.Outcome State Fault Refusal := effect s fun m => m.detach false

/-- A debug accessory in SERVICE (R212): vSafe5V at 0.50 A, as source where the port presented Rp. Outside SERVICE it counts as
unattached. -/
def Hw.debugAttach (m : Hw) : Hw :=
  if m.inService then
    let m := if m.cable.rp then m else m.passCurrent 50
    ((m.wr Reg.CBL_STATUS_STATE 4).cblFlag Reg.CBL_STATUS_ATTACH_CHG).cableEvent 2 0 false
  else (m.cblFlag Reg.CBL_STATUS_DEBUG_DENIED).hfault Kind.DEBUG_DENIED 0

/-- ACCESSORY_ATTACH (R212). Like terminations at both ends after a Hard Reset in a PR_Swap lead to ErrorRecovery (R234). -/
def execAccessoryAttach (kind : Accessory) (s : State) : Host.Outcome State Fault Refusal :=
  effect s fun m =>
    if m.port ≠ 0 then
      if kind = .debug ∧ m.cable.swapReset = true ∧ (m.port = cblSINK ∨ m.port = cblSOURCE) then m.errorRecovery 0x71 else m
    else
      match kind with
      | .poweredCable => m
      | .audio => if m.cable.rp = false then m else ((m.wr Reg.CBL_STATUS_STATE 3).cblFlag Reg.CBL_STATUS_ATTACH_CHG).cableEvent 2 0 false
      | .debug => m.debugAttach

/-- DRP_TOGGLE (R209): Rp only while the source role is permitted. -/
def execDrpToggle (s : State) : Host.Outcome State Fault Refusal :=
  effect s fun m =>
    if m.port = 0 then { m with cable := { m.cable with rp := !m.cable.rp && m.permitted } } else m

/-! Sink contracts. -/

/-- The voltage that a request of an object would have, mV (R214). -/
def pdoVolt (p : Pdo) (vmax : Nat) : Nat :=
  match p.kind with
  | .pps => min p.vmax vmax / 20 * 20
  | .avs => min p.vmax vmax / 100 * 100
  | _ => p.vmax

/-- The current that an object offers, mA (R214). -/
def pdoCurr (p : Pdo) (vmax : Nat) : Nat :=
  match p.kind with
  | .avs => if pdoVolt p vmax = 0 then 0 else p.pdp * 1000000 / pdoVolt p vmax
  | _ => p.imax

/-- The value of an object in µW (R214). -/
def pdoValue (p : Pdo) (vmax : Nat) : Nat :=
  match p.kind with
  | .avs => min (min (p.pdp * 1000000) (pdoVolt p vmax * 6000)) 180000000
  | _ => min (pdoVolt p vmax * min (pdoCurr p vmax) 6000) 180000000

/-- An object that the port considers (R214, R217); a PD 2.0 partner disables PPS and EPR (R207). -/
def Hw.pdoAllowed (m : Hw) (vmax : Nat) (p : Pdo) : Bool :=
  decide (p.vmax ≤ vmax) &&
    match p.kind with
    | .fixed => true
    | .pps => m.on Reg.CBL_SNK_CFG_PPS_EN && m.rd Reg.CBL_PARTNER_REV = 2
    | .eprFixed => m.on Reg.CBL_STATUS_EPR
    | .avs => m.on Reg.CBL_STATUS_EPR && m.on Reg.CBL_SNK_CFG_AVS_EN
    | .other => false

/-- A Fixed object, EPR fixed included. -/
def pdoFixed (p : Pdo) : Bool := match p.kind with | .fixed | .eprFixed => true | _ => false

/-- `a` is requested before `b` (R214): higher value, then Fixed, then the lower voltage. -/
def pdoBefore (vmax : Nat) (a b : Pdo) : Bool :=
  let x := pdoValue a vmax
  let y := pdoValue b vmax
  if x ≠ y then decide (y < x)
  else if pdoFixed a ≠ pdoFixed b then pdoFixed a
  else decide (pdoVolt a vmax < pdoVolt b vmax)

/-- The best object of a list (R214). -/
def bestPdo (vmax : Nat) : List Pdo → Option Pdo
  | [] => none
  | p :: ps =>
    match bestPdo vmax ps with
    | none => some p
    | some q => if pdoBefore vmax q p then some q else some p

/-- The type code of an object's contract (R241). -/
def pdoType (p : Pdo) : Nat := match p.kind with | .fixed => 1 | .pps => 2 | .avs => 3 | .eprFixed => 4 | .other => 0

/-- SOURCE_CAPABILITIES (R210, R214, R217): EPR where it is enabled, then the request of the best-valued object. As source, the
port takes from them what the partner is (R207, R230). A PR_Swap that the partner has not accepted is given up (R228). -/
def execSourceCapabilities (pdos : List Pdo) (partner : Partner) (s : State) : Host.Outcome State Fault Refusal :=
  effect s fun m => m.pdIn fun m =>
    if m.port ≠ cblSINK ∧ m.port ≠ cblSOURCE then m
    else
      let m := (((m.wr Reg.CBL_PARTNER_REV partner.rev).wrB Reg.CBL_PARTNER_DRP partner.drp).wrB
        Reg.CBL_PARTNER_EPR_CAP partner.epr).wr Reg.CBL_PARTNER_FRS_REQ partner.frs
      let m := { m with cable := { m.cable with
        pdSeen := true, hardResets := 0, swap := if m.cable.swap = 1 then 0 else m.cable.swap } }
      if m.port = cblSOURCE then m else
      let cfg := m.rd Reg.CBL_SNK_CFG_VMAX * 100
      let m := if m.on Reg.CBL_SNK_CFG_EPR_EN ∧ 28000 ≤ cfg ∧ partner.epr ∧ partner.rev.val = 2 then m.wr Reg.CBL_STATUS_EPR 1 else m
      let vmax := if m.on Reg.ID_STATUS_FIELD_READY then cfg else 5000
      match bestPdo vmax (pdos.filter (m.pdoAllowed vmax)) with
      | none => m
      | some p =>
        let low := decide (pdoValue p vmax < m.rd Reg.CBL_SNK_CFG_PMIN * 1000000)
        let m := m.wrB Reg.CBL_STATUS_MISMATCH low
        let m := if low then m.hfault Kind.PD_CAP_MISMATCH (pdoValue p vmax / 1000000) else m
        { m with cable := { m.cable with
            req := some { mv := pdoVolt p vmax, curr := min (pdoCurr p vmax) 6000 / 10, type := pdoType p, pos := p.pos } } }

/-- The contract current that a PPS or AVS contract leaves the intake: 100 mA less (R215). -/
def passOf (x : Terms) : Nat := if x.type = 2 ∨ x.type = 3 then x.curr - 10 else x.curr

/-- The voltage in force before a change, mV: that of the contract, vSafe5V without one (R215, R216). -/
def Hw.oldVolt (m : Hw) : Nat := if m.rd Reg.CBL_CONTRACT_VOLT = 0 then 5000 else m.rd Reg.CBL_CONTRACT_VOLT * 10

/-- PD_ACCEPT (R215, R216, R228): as sink, a change of voltage sets the standby current and widens the windows; the
Accept of the port's own PR_Swap begins the swap. -/
def execPdAccept (s : State) : Host.Outcome State Fault Refusal :=
  effect s fun m => m.pdIn fun m =>
    if m.cable.swap = 1 then
      if m.port = cblSINK then ({ m with cable := { m.cable with swap := 2 } }).passCurrent 0
      else ({ m with cable := { m.cable with swap := 4, rp := false } }).openSource.withdraw
    else
      match m.cable.req with
      | none => m
      | some x =>
        if m.port ≠ cblSINK then m
        else
          let old := m.oldVolt
          let m := { m with cable := { m.cable with transit := true } }
          if old = x.mv then m
          else (m.transitWindow old x.mv).passCurrent (2500000 / old / 10)

/-- PD_PS_RDY (R215, R216, R228, R229): the new contract applies, and its windows 50 ms later; a PR_Swap or a fast role swap goes on. -/
def execPdPsRdy (s : State) : Host.Outcome State Fault Refusal :=
  effect s fun m => m.pdIn fun m =>
    if m.cable.frsRx then
      let m := (m.clearContract).wr Reg.CBL_STATUS_STATE cblSOURCE
      ({ m with cable := { m.cable with frsRx := false, rp := true, asked := true, attachRole := 2 } }).plainWindow.cableEvent 3 cblSINK false
    else if m.cable.swap = 2 then
      if m.permitted then { m with cable := { m.cable with swap := 5, rp := true } } else m.errorRecovery m.lossCause
    else if m.cable.swap = 4 then
      let m := (m.clearContract).wr Reg.CBL_STATUS_STATE cblSINK
      ({ m with cable := { m.cable with swap := 0, rp := false, discharge := false, attachRole := 1 } }).plainWindow.cableEvent 3 cblSOURCE false
    else
      match m.cable.req with
      | none => m
      | some x =>
        if m.port = cblSINK ∧ m.cable.transit then
          let same := m.oldVolt = x.mv
          let m : Hw := { m with cable := { m.cable with
            req := none, transit := false, winDue := some (m.now + 10000000, x.mv, x.type = 2 || x.type = 3) } }
          let m := if same then m.contractWindow x.mv (x.type = 2 || x.type = 3) else m
          ((m.setContract x 1).passCurrent (passOf x)).portFlags
        else m

/-- PPS_REQUEST_REPEAT (R217): the Request of the contract in force is repeated. -/
def execPpsRequestRepeat (s : State) : Host.Outcome State Fault Refusal :=
  effect s fun m => m.pdIn fun m =>
    if m.port = cblSINK ∧ m.rd Reg.CBL_CONTRACT_TYPE = 2 ∧ ¬ m.cable.transit then
      let x : Terms := { mv := m.rd Reg.CBL_CONTRACT_VOLT * 10, curr := m.rd Reg.CBL_CONTRACT_CURR, type := 2
                         pos := m.rd Reg.CBL_CONTRACT_POS }
      { m with cable := { m.cable with req := some x } }
    else m

/-- A Soft_Reset sent or received (R231). -/
def Hw.softReset (m : Hw) (received : Bool) : Hw :=
  let m := (m.bump Reg.CBL_EVENTS_SOFT_RESETS).hfault Kind.PD_SOFT_RESET (b2n received)
  ({ m with cable := { m.cable with
    eprMiss := 0, req := none, transit := false, swap := if m.cable.swap = 1 then 0 else m.cable.swap } }).cableEvent 4 m.port false

/-- The contract of `CBL_CONTRACT` is requested again after the Soft_Reset of a restart (R238). -/
def Hw.askAgain (m : Hw) : Hw :=
  if m.port = cblSINK ∧ m.on Reg.CBL_STATUS_EXPLICIT then
    let x : Terms := { mv := m.rd Reg.CBL_CONTRACT_VOLT * 10, curr := m.rd Reg.CBL_CONTRACT_CURR
                       type := m.rd Reg.CBL_CONTRACT_TYPE, pos := m.rd Reg.CBL_CONTRACT_POS }
    { m with cable := { m.cable with req := some x } }
  else m

/-- EPR_KEEPALIVE (R217): three in a row without an answer start a Soft_Reset. -/
def execEprKeepalive (acked : Bool) (s : State) : Host.Outcome State Fault Refusal :=
  effect s fun m => m.pdIn fun m =>
    if ¬ m.on Reg.CBL_STATUS_EPR then m
    else if acked then { m with cable := { m.cable with eprMiss := 0 } }
    else if m.cable.eprMiss = 2 then m.softReset false
    else { m with cable := { m.cable with eprMiss := m.cable.eprMiss + 1 } }

/-! The source role. -/

/-- SOURCE_BRINGUP (R221): H0 CABLE asks F0 SUPERVISOR for SOURCE. -/
def execSourceBringup (s : State) : Host.Outcome State Fault Refusal :=
  effect s fun m =>
    if m.sourcing = true ∧ ¬ m.cable.asked ∧ m.permitted then
      ({ m with cable := { m.cable with asked := true } }).tellField 1 5100
    else m

/-- SOURCE_SWITCH_CLOSE (R78, R221, R226): SOURCE granted, V_CBUF at 5.00 V, VBUS at vSafe0V for 10 ms, the intake switch open;
Source_Capabilities follow, but for a debug accessory (R212). -/
def execSourceSwitchClose (vcbuf : Nat) (seen : VbusSeen) (s : State) : Host.Outcome State Fault Refusal :=
  effect s fun m =>
    if m.sourcing = true ∧ m.cable.asked = true ∧ m.cable.granted = true ∧ 5000 ≤ vcbuf ∧ seen.safe0v = true ∧ m.rd Reg.INTAKE_STATUS_ACTIVE ≠ 1 then
      let swap := decide (m.cable.swap = 5)
      let m := { m with cable := { m.cable with srcSwitch := true, discharge := false, swap := 0, capsDue := m.port != 4, discTries := 0
                                                ra := m.cable.ra || seen.ra, attachRole := if swap then 2 else m.cable.attachRole } }
      let m := if m.cable.ra ∧ m.port ≠ 4 then m.wr Reg.CBL_STATUS_VCONN 1 else m
      if swap then ((m.clearContract).wr Reg.CBL_STATUS_STATE cblSOURCE).cableEvent 3 cblSINK false else m
    else m

/-- SOURCE_BRINGUP_TIMEOUT (R221). -/
def execSourceBringupTimeout (vbus : Nat) (s : State) : Host.Outcome State Fault Refusal :=
  effect s fun m =>
    if m.sourcing = true ∧ vbus < 4750 then (m.hfault Kind.SRC_VBUS_FAULT (vbus / 100)).errorRecovery 0x75 else m

/-- A Request fits the budget that is held (R219, R222). -/
def Hw.fitsBudget (m : Hw) (mv curr : Nat) : Bool :=
  let approach := m.rd Reg.CBL_OFFER_C_RES_STATE = 1
  if mv = 5000 then curr ≤ m.rd Reg.CBL_OFFER_A_I5
  else if approach then false
  else if mv = 9000 then curr ≤ m.rd Reg.CBL_OFFER_A_I9
  else if mv = 15000 then curr ≤ m.rd Reg.CBL_OFFER_B_I15
  else if mv = 20000 then curr ≤ m.rd Reg.CBL_OFFER_B_I20
  else false

/-- SINK_REQUEST (R222): Accept where the budget covers it, else Reject. Position 5 and above is the PPS object, which a PD 2.0
partner does not have (R207). -/
def execSinkRequest (ask : SinkAsk) (mv curr : Nat) (s : State) : Host.Outcome State Fault Refusal :=
  effect s fun m => m.pdIn fun m =>
    let pps := m.on Reg.CBL_SRC_CFG_PPS_SRC_EN && decide (m.rd Reg.CBL_OFFER_C_IPPS ≠ 0) && decide (5 ≤ ask.pos.val) && ask.pd3
    let ok := if pps then decide (5000 ≤ mv ∧ mv ≤ 21000 ∧ curr ≤ m.rd Reg.CBL_OFFER_C_IPPS ∧ m.rd Reg.CBL_OFFER_C_RES_STATE ≠ 1)
      else m.fitsBudget mv curr
    if m.port = cblSOURCE ∧ m.cable.srcSwitch ∧ ok then
      let m := m.wr Reg.CBL_PARTNER_REV (if ask.pd3 then 2 else 1)
      let x : Terms := { mv := mv, curr := curr, type := if pps then 2 else 1, pos := ask.pos }
      { m with
        cable := { m.cable with
          req := some x, transit := true, pdSeen := true, capsDue := false, swap := if m.cable.swap = 1 then 0 else m.cable.swap }
        seq := { m.seq with refuseSource := true } }
    else m

/-- The VBUS target of a source contract, mV: 1.02 V fixed, the requested voltage under PPS (R219, R223). -/
def sourceTarget (x : Terms) : Nat := if x.type = 2 then x.mv else x.mv * 102 / 100

/-- SOURCE_TRANSITION_START (R222): tSrcTransition after Accept, the new target is asked for. -/
def execSourceTransitionStart (s : State) : Host.Outcome State Fault Refusal :=
  effect s fun m =>
    match m.cable.req with
    | some x => if m.port = cblSOURCE ∧ m.cable.transit then m.tellField 3 (sourceTarget x) else m
    | none => m

/-- SOURCE_PS_RDY (R222): VBUS within ±3 % of its target for 2 ms. -/
def execSourcePsRdy (vbus : Nat) (s : State) : Host.Outcome State Fault Refusal :=
  effect s fun m =>
    match m.cable.req with
    | some x =>
      if m.port = cblSOURCE ∧ m.cable.transit ∧ sourceTarget x * 97 ≤ vbus * 100 ∧ vbus * 100 ≤ sourceTarget x * 103 then
        let m := { m with cable := { m.cable with req := none, transit := false }, seq := { m.seq with refuseSource := false } }
        m.setContract x 2
      else m
    | none => m

/-- A Hard Reset sent or received (R231, R232, R234). A sink is left with its Type-C current, no contract being in force. -/
def Hw.hardReset (m : Hw) (received : Bool) : Hw :=
  let before := m.port
  let swap := m.cable.swap
  let m := ((m.bump Reg.CBL_EVENTS_HARD_RESETS).cblFlag Reg.CBL_STATUS_HARD_RESET).hfault Kind.PD_HARD_RESET
    (b2n received + 2 * b2n (swap != 0) + 4 * min swap 15)
  let m := ((m.cableEvent 5 before false).leaveShare).clearContract
  let m := { m with cable := { m.cable with swap := 0, frsSent := false, frsRx := false, hardResets := m.cable.hardResets + 1
                                            eprMiss := 0, swapReset := swap != 0 }
                    seq := { m.seq with refuseSource := false } }
  if swap ≠ 0 ∧ m.cable.attachRole = 1 then
    (((({ m with cable := { m.cable with rp := false } }).openSource).withdraw.wr Reg.CBL_STATUS_STATE cblSINK).plainWindow).passCurrent
      (rpCurrent (m.rd Reg.CBL_STATUS_RP))
  else if before = cblSOURCE ∨ (swap ≠ 0 ∧ m.cable.attachRole = 2) then
    let m := ((m.openSource).wr Reg.CBL_STATUS_VCONN 0).wr Reg.CBL_STATUS_STATE cblSOURCE
    let m := { m with cable := { m.cable with rp := true, asked := false } }
    if m.permitted then m else m.errorRecovery 0x71
  else (m.plainWindow).passCurrent (rpCurrent (m.rd Reg.CBL_STATUS_RP))

/-- The limit of the source switch under a contract, mA (R223). -/
def Hw.srcLimit (m : Hw) : Nat := m.rd Reg.CBL_CONTRACT_CURR * 10 * 5 / 4 + 100

/-- SRC_OCP (R223): the switch has been in its limit; the third within 60 s leads to ErrorRecovery, and the port stays
sink-only until detach. Under PPS the switch regulates, and its dissipation trips. -/
def execSrcOcp (ma : Nat) (s : State) : Host.Outcome State Fault Refusal :=
  effect s fun m =>
    if m.port ≠ cblSOURCE ∨ (m.on Reg.CBL_STATUS_EXPLICIT ∧ m.rd Reg.CBL_CONTRACT_TYPE ≠ 2 ∧ ma < m.srcLimit) then m
    else
      let m := (m.bump Reg.CBL_EVENTS_SRC_OCP).hfault Kind.SRC_OCP (ma / 10)
      let recent := (m.cable.ocps ++ [m.now]).filter fun x => m.now - x ≤ 12000000000
      let m := { m with cable := { m.cable with ocps := lastN 3 recent, srcSwitch := false } }
      if 3 ≤ recent.length then
        let m := m.errorRecovery 0x74
        { m with cable := { m.cable with sinkOnlyDetach := true, ocps := [] } }
      else m.hardReset false

/-- PPS_SOURCE_TIMEOUT (R223). -/
def execPpsSourceTimeout (s : State) : Host.Outcome State Fault Refusal :=
  effect s fun m =>
    if m.port = cblSOURCE ∧ m.rd Reg.CBL_CONTRACT_TYPE = 2 then m.hardReset false else m

/-- SOURCE_ROLE_END (R224): the role ends, or the discharge of an ended one has taken longer than tSafe0V. -/
def execSourceRoleEnd (cause : RoleEnd) (vbus : Nat) (slow : Bool) (s : State) : Host.Outcome State Fault Refusal :=
  effect s fun m =>
    if m.port = cblRECOVERY ∧ m.cable.discharge = true ∧ slow = true then m.hfault Kind.SRC_VBUS_FAULT (vbus / 100)
    else if m.sourcing = false ∨ (cause = .permission ∧ m.permitted) then m
    else
      let m := if cause = .vbusWindow ∨ slow = true then m.hfault Kind.SRC_VBUS_FAULT (vbus / 100) else m
      m.endRole (match cause with | .permission => m.lossCause | .revBatFloor => Kind.REV_BAT_FLOOR.code | .vbusWindow => 0x75)

/-- CBL_EXIT_SRC (R224). -/
def execCblExitSrc (s : State) : Host.Outcome State Fault Refusal := effect s fun m => m.endRole 0

/-- DCIN_ENDS_SOURCE (R225). -/
def execDcinEndsSource (s : State) : Host.Outcome State Fault Refusal :=
  effect s fun m =>
    if m.port = cblSOURCE ∧ m.on Reg.INTAKE_STATUS_DCIN_QUAL ∧ m.on Reg.CBL_CFG_DCIN_ENDS_SRC then (m.endRole 0).portFlags
    else m

/-- A cable that is not e-marked (R226, R227): 3 A, 20 V, its SBU wires unknown. -/
def Hw.unmarked (m : Hw) : Hw :=
  (((m.wr Reg.CBL_CABLE_EMARKED 0).wr Reg.CBL_CABLE_ICAP 1).wr Reg.CBL_CABLE_VMAX 0).wr Reg.CBL_CABLE_NO_SBU 0

/-- VCONN_OCP (R226): VCONN off, and the cable is treated as not e-marked. -/
def execVconnOcp (ma : Nat) (s : State) : Host.Outcome State Fault Refusal :=
  effect s fun m =>
    if m.on Reg.CBL_STATUS_VCONN then
      (m.wr Reg.CBL_STATUS_VCONN 0).unmarked.hfault Kind.VCONN_OCP ma
    else m

/-- VCONN_SWAP (R226): always accepted; requested as sink only where configured. VCONN changes its source. -/
def execVconnSwap (received : Bool) (s : State) : Host.Outcome State Fault Refusal :=
  effect s fun m => m.pdIn fun m =>
    if (m.port = cblSINK ∨ m.port = cblSOURCE) ∧
        (received = true ∨ (m.port = cblSINK ∧ m.on Reg.CBL_CFG_VCONN_SWAP ∧ ¬ m.on Reg.CBL_STATUS_VCONN)) then
      ({ m.wrB Reg.CBL_STATUS_VCONN (!m.on Reg.CBL_STATUS_VCONN) with
        cable := { m.cable with discTries := 0 } } : Hw).cableEvent 3 m.port false
    else m

/-- CABLE_DISCOVER_IDENTITY (R227). -/
def execCableDiscoverIdentity (answer : Option (Fin 4 × Fin 4 × Bool)) (s : State) : Host.Outcome State Fault Refusal :=
  effect s fun m => m.pdIn fun m =>
    if ¬ m.on Reg.CBL_STATUS_VCONN ∨ 20 ≤ m.cable.discTries then m
    else
      match answer with
      | some (icap, vmax, usb2) =>
        let m := ((m.wr Reg.CBL_CABLE_EMARKED 1).wr Reg.CBL_CABLE_ICAP icap).wr Reg.CBL_CABLE_VMAX vmax
        { m.wrB Reg.CBL_CABLE_NO_SBU usb2 with cable := { m.cable with discTries := 20 } }
      | none =>
        let m := { m with cable := { m.cable with discTries := m.cable.discTries + 1 } }
        if m.cable.discTries = 20 then m.unmarked else m

/-! Swaps. -/

/-- PR_SWAP_RECEIVED (R228): to source only while R218 holds. -/
def execPrSwapReceived (s : State) : Host.Outcome State Fault Refusal :=
  effect s fun m => m.pdIn fun m =>
    if m.port = cblSINK ∧ m.permitted then ({ m with cable := { m.cable with swap := 2 } }).passCurrent 0
    else if m.port = cblSOURCE then
      ({ m with cable := { m.cable with swap := 4, rp := false } }).openSource.withdraw
    else m

/-- What a write of `CBL_CTL.PR_SWAP` does (R228). -/
def Hw.cblPrSwap (m : Hw) : Hw :=
  if (m.port = cblSINK ∨ m.port = cblSOURCE) ∧ m.cable.swap ≤ 1 then { m with cable := { m.cable with swap := 1 } } else m

/-- CBL_PR_SWAP (R228): the port sends PR_Swap. -/
def execCblPrSwap (s : State) : Host.Outcome State Fault Refusal := effect s fun m => m.pdIn Hw.cblPrSwap

/-- DR_SWAP (R228). -/
def execDrSwap (s : State) : Host.Outcome State Fault Refusal :=
  effect s fun m => m.pdIn fun m =>
    if (m.port = cblSINK ∨ m.port = cblSOURCE) ∧ m.on Reg.CBL_CFG_DR_SWAP_ACC ∧ ¬ m.on Reg.CBL_STATUS_FS_MODE then
      (m.wrB Reg.CBL_STATUS_DFP (!m.on Reg.CBL_STATUS_DFP)).cableEvent 3 m.port false
    else m

/-- FRS_SIGNAL_DETECT (R229): while armed, the swap code goes out, and the source switch closes once VBUS is below 4.70 V with
the intake blocked. -/
def execFrsSignalDetect (s : State) : Host.Outcome State Fault Refusal :=
  effect s fun m =>
    if m.on Reg.CBL_STATUS_FRS_ARMED then
      let m := (m.haltCode .fastRoleSwap).wr Reg.CBL_STATUS_FRS_ARMED 0
      ({ m with cable := { m.cable with frsRx := true } } : Hw).frsClose (m.rd Reg.INTAKE_MON_V_VBUS * 10)
    else m

/-- FR_SWAP_RECEIVED (R230): as the old source, Accept and PS_RDY; the port presents Rd. -/
def execFrSwapReceived (s : State) : Host.Outcome State Fault Refusal :=
  effect s fun m => m.pdIn fun m =>
    if m.cable.frsSent then
      let m := (m.clearContract).wr Reg.CBL_STATUS_STATE cblSINK
      let m := { m with cable := { m.cable with frsSent := false, rp := false, attachRole := 1 } }
      (m.withdraw.plainWindow).cableEvent 3 cblSOURCE false
    else m

/-- FRS_TIMEOUT (R229, R230): no FR_Swap within 15 ms as old source; VBUS lost before the phases regulate as new. -/
def execFrsTimeout (s : State) : Host.Outcome State Fault Refusal :=
  effect s fun m =>
    if m.cable.frsSent then (m.hfault Kind.FRS_FAIL 1).errorRecovery 0x7A
    else if m.cable.frsRx then
      let m := { m with cable := { m.cable with asked := true } }
      (m.hfault Kind.FRS_FAIL 0).errorRecovery 0x7A
    else m

/-! Resets of the protocol. -/

/-- SOFT_RESET (R231). -/
def execSoftReset (received : Bool) (s : State) : Host.Outcome State Fault Refusal := effect s fun m => m.pdIn fun m => m.softReset received

/-- PD_RESPONSE_TIMEOUT (R231): Soft_Reset for a missing GoodCRC or answer, Hard Reset for the others. -/
def execPdResponseTimeout (wait : PdWait) (s : State) : Host.Outcome State Fault Refusal :=
  effect s fun m => m.pdIn fun m =>
    if m.port ≠ cblSINK ∧ m.port ≠ cblSOURCE then m
    else match wait with
      | .goodCrc | .senderResponse => m.softReset false
      | .acceptSoftReset | .acceptRequest | .psTransition | .sourceCaps => m.hardReset false

/-- The port of a sink that has no PD goes on its Type-C current (R231). -/
def Hw.typeCOnly (m : Hw) : Hw :=
  let curr := rpCurrent (m.rd Reg.CBL_STATUS_RP)
  let m := (((m.wr Reg.CBL_CONTRACT_VOLT 500).wr Reg.CBL_CONTRACT_CURR curr).wr Reg.CBL_CONTRACT_TYPE 5).wr Reg.CBL_CONTRACT_ROLE 1
  ({ m with cable := { m.cable with hardResets := 0 } }).passCurrent curr

/-- PD_NO_RESPONSE (R231): after nHardResetCount Hard Resets. -/
def execPdNoResponse (s : State) : Host.Outcome State Fault Refusal :=
  effect s fun m => m.pdIn fun m =>
    if m.cable.hardResets < 2 then m
    else if m.port = cblSINK then
      (m.hfault Kind.PD_NO_RESPONSE 0).typeCOnly
    else if m.port = cblSOURCE then
      let m := m.hfault Kind.PD_NO_RESPONSE 1
      if m.cable.pdSeen then m.errorRecovery 0x72 else { m with cable := { m.cable with hardResets := 0 } }
    else m

/-- HARD_RESET (R232, R234). -/
def execHardReset (received : Bool) (s : State) : Host.Outcome State Fault Refusal :=
  effect s fun m => m.pdIn fun m => if m.port = cblSINK ∨ m.port = cblSOURCE then m.hardReset received else m

/-- CABLE_PULLED_IN_TRANSITION (R233). -/
def execCablePulledInTransition (s : State) : Host.Outcome State Fault Refusal := effect s fun m => m.detach true

/-! Frame-share. -/

/-- FRAME_SHARE_ENTER (R235): as DFP the DIR that both TICK settings allow, as UFP the DIR received; without ACK one
retry, then none until the next contract. -/
def execFrameShareEnter (dir : Bool) (partnerTx partnerRx ack : Bool) (s : State) : Host.Outcome State Fault Refusal :=
  effect s fun m => m.pdIn fun m =>
    let tick := m.rd Reg.CBL_FS_CFG_TICK
    let dfp := m.on Reg.CBL_STATUS_DFP
    let drives := if dfp then (tick = 0 || tick = 2) && partnerRx else dir && (tick = 0 || tick = 2)
    let hears := if dfp then !drives && (tick = 1 || tick = 2) && partnerTx else !dir && (tick = 1 || tick = 2)
    if ¬ (m.on Reg.CBL_CFG_FS_EN ∧ m.on Reg.CBL_STATUS_EXPLICIT ∧ ¬ m.on Reg.CBL_CABLE_NO_SBU ∧ ¬ m.on Reg.CBL_STATUS_FS_MODE) then m
    else if 2 ≤ m.cable.fsTries ∨ ¬ (drives || hears) then m
    else if ack then
      ({ m.wr Reg.CBL_STATUS_FS_MODE 1 with cable := { m.cable with fsDrive := drives, fsTries := 0 } }).cableEvent 7 m.port false
    else { m with cable := { m.cable with fsTries := m.cable.fsTries + 1 } }

/-- What a write of `CBL_CTL.FS_ENTER` does (R235). -/
def Hw.cblFsEnter (m : Hw) : Hw :=
  { m with cable := { m.cable with fsTries := 0 } }

/-- CBL_FS_ENTER (R235): a write that attempts the entry afresh. -/
def execCblFsEnter (s : State) : Host.Outcome State Fault Refusal := effect s Hw.cblFsEnter

/-- CBL_FS_EXIT (R236). -/
def execCblFsExit (s : State) : Host.Outcome State Fault Refusal := effect s Hw.leaveShare

/-- H_RST_N_SOURCE_TIMEOUT (R238). -/
def execHRstNSourceTimeout (vbus : Nat) (s : State) : Host.Outcome State Fault Refusal :=
  effect s fun m =>
    if m.port = cblSOURCE ∧ m.host.pinLow then (m.openSource).hfault Kind.SRC_VBUS_FAULT (vbus / 100) else m

/-- CC_OVP (R236, R239, R242). -/
def execCcOvp (pads : Fin 16) (s : State) : Host.Outcome State Fault Refusal :=
  effect s fun m =>
    let m := ((m.hfault Kind.CC_OVP pads).wr Reg.CBL_STATUS_VCONN 0).leaveShare
    let m := { m with cable := { m.cable with rp := false } }
    if m.port = cblSOURCE then m.errorRecovery 0x78 else m

/-- ERROR_RECOVERY_EXIT (R224): tErrorRecovery has passed; the port is unattached. -/
def execErrorRecoveryExit (s : State) : Host.Outcome State Fault Refusal :=
  effect s fun m =>
    if m.port = cblRECOVERY then
      { m.wr Reg.CBL_STATUS_STATE 0 with cable := { m.cable with discharge := false, rp := false } }
    else m

/-! The budget and the reserve, at a frame tick. -/

/-- The longest planned freeze run of a plan, in slots, counted across the tick. -/
def Hw.longestRun (m : Hw) (p : Nat) : Nat :=
  min 256 ((List.range 512).foldl (fun (x : Nat × Nat) s =>
    if m.mapBit p (s % 256) then (max x.1 (x.2 + 1), x.2 + 1) else (x.1, 0)) (0, 0)).1

/-- The longest planned freeze run of any plan, µs (R219). -/
def Hw.tfMax (m : Hw) : Nat :=
  ((List.range 4).foldl (fun b p => max b (m.longestRun p)) 0) * (2 * m.rd Reg.FRM_PERIOD_PERIOD) / 256 / 200

/-- P_bat, P_quiet and the offered current of R219 at `mv`, with `k` the term 0.1014 or 0.0975 in parts per 10⁴ and `v102`
the regulated voltage in mV: current in 10 mA units, and the cause that limits it. `none` for P_quiet sets no limit. -/
def offerAt (pbat : Nat) (pquiet : Option Nat) (rev v102 : Nat) : Nat × Nat :=
  let p := min rev pbat
  let q := match pquiet with | some x => min p x | none => p
  let cause := if q < p then 2 else if pbat < rev then 1 else 0
  (min 300 (if v102 = 0 then 0 else q * 100 / v102), cause)

/-- The capacitance that the budget uses, 10 µF units (R219). -/
def Hw.budgetC (m : Hw) : Nat :=
  if m.on Reg.INTAKE_CBUF_C_VALID then m.rd Reg.INTAKE_CBUF_C_CEFF else m.chg.cbufNom * 80 / 100

/-- P_quiet at `mv` in mW with the term `k` in parts per 10⁴ (R219): none where no plan freezes. -/
def Hw.pQuiet (m : Hw) (mv k : Nat) : Option Nat :=
  if m.tfMax = 0 then none else some (m.budgetC * mv ^ 2 * k / (2000000 * m.tfMax))

/-- Q_bat in µAh (R220). -/
def Hw.qBat (m : Hw) : Nat := m.cable.qbat / 3600000

/-- Q_res in µAh, rounded up to 10 mAh (R220). -/
def Hw.qRes (m : Hw) : Nat := (m.cable.ires.foldl max 0 * m.rd Reg.CBL_RES_CFG_HOURS + 9999) / 10000 * 10000

/-- The source budget of R219 in TM_BUDGET, and the two currents that R218 and R229 use. -/
def Hw.budgetTick (m : Hw) (f : Frame) : Hw :=
  let us := m.lastUs
  let pfield := if us = 0 then 0 else (f.pfreeze * (us - f.tthaw) + f.pthaw * f.tthaw) / us
  let pbat := (f.vbat * m.rd Reg.CBL_SRC_CFG_IBAT_MAX - pfield) * 90 / 100
  let rev := m.rd Reg.XFER_LIMIT_REV_LIM * 1000
  let quiet := m.on Reg.CBL_SRC_CFG_QUIET_FIRST
  let pq := fun mv => if quiet then m.pQuiet mv 1014 else none
  let o5 := offerAt pbat (pq 5000) rev 5100
  let o9 := offerAt pbat (pq 9000) rev 9180
  let o15 := offerAt pbat (pq 15000) rev 15300
  let o20 := offerAt pbat (pq 20000) rev 20400
  let approach := m.cable.resState = 1
  let cut := fun (i : Nat) => if approach ∨ i < 10 then 0 else i
  let i5 := if quiet then max o5.1 50 else if o5.1 < 10 then 0 else o5.1
  let pps := min (min 300 (min pbat rev * 100 / 21000))
    (match m.pQuiet 5000 975 with | some x => x * 100 / 5000 | none => 300)
  let ipps := if approach ∨ pps < 100 ∨ ¬ m.on Reg.CBL_SRC_CFG_PPS_SRC_EN then 0 else pps
  let cause := if approach then 3 else o5.2
  let qres := m.qRes
  let m := { m with cable := { m.cable with sentI5 := (o5.1, (offerAt pbat none rev 5100).1) } }
  m.sendF 0x17 (le 2 i5 ++ le 2 (cut o9.1) ++ le 2 (cut o15.1) ++ le 2 (cut o20.1) ++ le 2 ipps ++ le 1 cause ++
    le 1 m.cable.resState ++ le 2 (m.qBat / 10000) ++ le 2 (qres / 10000))
/-- The reserve state for a charge in µAh (R220). -/
def reserveState (was q qres cap : Nat) (valid : Bool) : Nat :=
  if !valid then 3
  else if q ≤ qres + cap * 2 / 100 then 2
  else if was = 2 ∧ q < qres + cap * 15 / 100 then 2
  else if q < qres + cap * 10 / 100 then 1
  else if qres + cap * 12 / 100 ≤ q then 0
  else if was = 1 ∨ was = 2 then 1 else 0

/-- The reserve counter and its state (R220): the measured pack current is integrated, and entry to REACHED records
SRC_RESERVE. -/
def Hw.reserveTick (m : Hw) (f : Frame) : Hw :=
  let cap := m.rd Reg.CBL_RES_CFG_CAP * 10000
  let unit := 3600000
  let us := m.lastUs
  let q := clampI 0 ((cap * unit : Nat) : Int) ((m.cable.qbat : Int) + f.inet * (us : Int))
  let m := { m with cable := { m.cable with qbat := q.toNat, ires := lastN 64 (m.cable.ires ++ [f.ires + 50]) } }
  let st := reserveState m.cable.resState m.qBat m.qRes cap m.cable.qvalid
  let was := m.cable.resState
  let m := { m with cable := { m.cable with resState := st } }
  if st = 2 ∧ was ≠ 2 then m.fault Kind.SRC_RESERVE (m.qBat / 10000) else m

/-- The windows of a new contract, once 50 ms have passed since PS_RDY (R215). -/
def Hw.windowTick2 (m : Hw) : Hw :=
  match m.cable.winDue with
  | some (t, mv, pps) => if t ≤ m.now then m.contractWindow mv pps else m
  | none => m

/-- A debug accessory counts as unattached from the end of SERVICE (R242). -/
def Hw.debugTick (m : Hw) : Hw :=
  if m.port = 4 ∧ m.inService = false then
    ((m.detach false).cblFlag Reg.CBL_STATUS_DEBUG_DENIED).hfault Kind.DEBUG_DENIED 0
  else m

/-- What the port keeps at a tick: the age of the budget, and what follows from it (R218); a port that a role's end has left
sink-only is so until the cause has cleared (R224). -/
def Hw.cableTick (m : Hw) : Hw :=
  let m := (m.bump Reg.CBL_OFFER_C_AGE).windowTick2.debugTick
  ({ m with cable := { m.cable with sinkOnly := m.cable.sinkOnly && !(m.port != cblRECOVERY && m.mayPermit) } } : Hw).portFlags

/-! The frame-share lines (R236, R237). -/

/-- The SBU pad that carries TICK, 0 for H22 SBU1 and 1 for H23 SBU2, while the multiplexer is closed (R236). -/
def Hw.tickPad (m : Hw) : Option Nat :=
  if m.on Reg.CBL_STATUS_FS_MODE then some (b2n (m.on Reg.CBL_STATUS_ORIENT)) else none

/-- The other SBU pad carries QREQ (R236). -/
def Hw.qreqPad (m : Hw) : Option Nat := m.tickPad.map (1 - ·)

/-- The module pulls QREQ low (R237): for its own F62 APERTURE and its own scheduled aperture, never for freeze that QREQ has
caused. -/
def Hw.qreqLow (m : Hw) : Bool :=
  m.on Reg.CBL_STATUS_FS_MODE && m.on Reg.CBL_FS_CFG_QREQ_DRIVE && (m.seq.aptPad || m.seq.apts.any fun x => x.by_ == .sched)

/-! The field side asleep (R238, R440). -/

/-- The host side learns that the field side enters KEEPALIVE or SHIP, and the link is down (R440, R468): the port is sink-only
and out of the frame-share mode (R238). -/
def Hw.fieldSleeps (m : Hw) : Hw :=
  let m := m.hcoreWake
  let m := if m.rd Reg.TL_H_STATUS_STATE = 2 then m.alertSet 3 else m
  let m := ((m.wr Reg.TL_H_STATUS_STATE 0).wr Reg.ID_STATUS_LINK 0).wr Reg.ID_STATUS_FIELD_READY 0
  let m := { m with host := { m.host with fieldAsleep := true }, cable := { m.cable with rp := false } }
  (m.leaveShare).portFlags

/-- FIELD_SLEEP_CODE (R440, R468). -/
def execFieldSleepCode (s : State) : Host.Outcome State Fault Refusal :=
  effect s fun m => m.onFCode .sleep Hw.fieldSleeps

end Sys2Proof.Machine
end

