-- ==== Sys2Proof/Machine/Journal.lean ====
section
/-! DEFINITION. The Moraine journal: acceptance, chain, staging, NAND (chapter 09), with the paths of a twin module's
records (R359 to R362). -/

namespace Sys2Proof.Machine

/-! The twin's part of the record path. -/

/-- Twin states (R352). -/
def twnSINGLE : Nat := 0
def twnCLAIMING : Nat := 1
def twnLEAD : Nat := 2
def twnSOLO : Nat := 3
def twnSTANDBY : Nat := 4
def twnISOLATED : Nat := 5
def twnPENDING : Nat := 6

/-- The state of the twin function; SINGLE whenever `TWN_CFG.EN` is 0 (R374). -/
def Hw.twn (m : Hw) : Nat := if m.on Reg.TWN_CFG_EN then m.rd Reg.TWN_STATUS_STATE else twnSINGLE

/-- The module numbers the journal: single, LEAD or SOLO (R41, R352). -/
def Hw.numbers (m : Hw) : Bool := m.twn = twnSINGLE || m.twn = twnLEAD || m.twn = twnSOLO

/-- Twin messages that hold a ticket of stream 21 (R369). -/
def twinHolds (type : Nat) : Bool := type = 2 || type = 4 || type = 5 || type = 6

/-- A twin message queued for the partner (R348, R349); none where the queue of 64 or the ticket table has no place. -/
def Hw.sendTwin (m : Hw) (type : Nat) (payload : List Byte) : Option Hw :=
  if 64 ≤ m.twin.out.length then none
  else
    let put := fun (m : Hw) =>
      { m with twin := { m.twin with
          out := m.twin.out ++ [TwinMsg.mk type m.twin.txSeq (m.rd Reg.TWN_EPOCH_EPOCH) payload]
          txSeq := (m.twin.txSeq + 1) % 2 ^ 32 } }
    if twinHolds type then
      match m.issue 21 0x17 0 0x33 false true false with
      | some (m', n) => some (put (m'.setTicket n fun t => { t with state := .running }))
      | none => none
    else some (put m)

/-- A twin message sent where it finds a place. -/
def Hw.trySendTwin (m : Hw) (type : Nat) (payload : List Byte) : Hw := (m.sendTwin type payload).getD m

/-! Hold-up energy. -/

/-- What a record counts against the allowance: a critical record twice (R281). -/
def JRec.cost (r : JRec) : Nat := if r.crit then 2 * r.size else r.size

/-- The allowance from CHOLD (R281): µF and mV give the energy in pJ. -/
def cholAllow (ceff vchold : Nat) : Nat :=
  let e := if vchold < 6000 then 0 else ceff * (vchold ^ 2 - 6000 ^ 2) / 2
  min 0x200000 ((e - 6000000000) * 2 ^ 20 / 12000000000)

/-- C_eff as the meter takes it (R281). -/
def Hw.ceff (m : Hw) : Nat :=
  if m.on Reg.JRN_CHOLD_CEFF then m.rd Reg.JRN_CHOLD_CEFF else m.rd Reg.JRN_CFG_CHOLD_NOM * 80 / 100

/-- The pack backs the allowance (R282). -/
def Hw.holdBat (m : Hw) : Bool :=
  m.on Reg.JRN_CFG_HOLD_SRC && m.on Reg.CHG_STATUS_PRESENT && m.chg.removal.isNone && !m.seq.removedHold

/-- The meter's allowance (R281, R282), with CHOLD_OK and HOLDUP_SHORT once for a shortfall. -/
def Hw.meter (m : Hw) : Hw :=
  let allow := if m.holdBat then 0x200000 else cholAllow m.ceff (m.rd Reg.JRN_CHOLD_VCHOLD)
  let staged := m.rd Reg.JRN_STAGE_STAGED
  let m := ((m.wrSat Reg.JRN_ALLOW_ALLOW allow).wrB Reg.JRN_STATUS_HOLD_BAT m.holdBat).wrB Reg.JRN_STATUS_CHOLD_OK
    (decide (staged ≤ allow))
  if staged ≤ allow then { m with jrn := { m.jrn with shortSaid := false } }
  else if m.jrn.shortSaid then m
  else ({ m with jrn := { m.jrn with shortSaid := true } }).fault Kind.HOLDUP_SHORT ((staged - allow + 1023) / 1024)

/-- The allowance that acceptance is held to: in LEAD the lesser of the two modules' (R360). -/
def Hw.allow (m : Hw) : Nat :=
  if m.twn = twnLEAD then min (m.rd Reg.JRN_ALLOW_ALLOW) m.twin.pAllow else m.rd Reg.JRN_ALLOW_ALLOW

/-- What the record of a durable command counts against the allowance: JR_DRAIN_RELEASE and JR_TIME_SET are critical,
JR_HOST_CMD is not (R274, R321). -/
def recordCost (cmd args : Nat) : Nat :=
  if cmd = 0x32 then 80 else if cmd = 0x31 then 112 else (40 + min args 216 + 7) / 8 * 8

/-- The space that validated durable commands have reserved (R320). -/
def Hw.reservedSpace (m : Hw) : Nat :=
  ((m.host.work.filter fun (c : HostCmd) => c.stage == 1 && c.jsn.isNone).map fun c => recordCost c.cmd c.args.length).sum

/-- A record fits beside what is staged and reserved (R281, R320), and in KEEPALIVE in the record region of retention RAM
(R289). -/
def Hw.fits (m : Hw) (r : JRec) : Bool :=
  let held := (m.jrn.staged.map fun (x : Staged) => x.r.size).sum
  decide (m.rd Reg.JRN_STAGE_STAGED + m.reservedSpace + r.cost ≤ m.allow) &&
    (m.mode != modeKEEPALIVE || decide (held + r.size ≤ 0x8000))

/-! The chain. -/

/-- The bytes of a chain value or digest: 32, least significant first. -/
def digestBytes (d : Nat) : List Byte := le 32 d

/-- C(n) from C(n−1) and record n (R278). -/
def chainNext (c : Nat) (r : JRec) : Nat := Config.sha256 (digestBytes c ++ r.bytes)

/-- The last JSN of an epoch is the seal's (R279). -/
def isSealJsn (n : Nat) : Bool := n % 65536 = 65535

/-- Accepted records hashed in JSN order, none past a JSN that is not there yet nor past a seal (R278, R279): the list with its
chain values, the newest value and the JSN hashed next. -/
def hashList : Nat → Nat → List Staged → List Staged × Nat × Nat
  | c, n, [] => ([], c, n)
  | c, n, x :: xs =>
    if x.chain.isSome then
      let r := hashList c n xs
      (x :: r.1, r.2)
    else if x.r.jsn = n then
      let c' := chainNext c x.r
      let r := if isSealJsn n then (xs, c', n + 1) else hashList c' (n + 1) xs
      ({ x with chain := some c' } :: r.1, r.2)
    else (x :: xs, c, n)

/-- Accepted records are hashed (R278); those behind a seal wait until it is committed (R279). -/
def Hw.hash (m : Hw) : Hw :=
  if m.jrn.staged.any fun x => x.chain.isSome && isSealJsn x.r.jsn then m else
  let r := hashList m.jrn.chain m.jrn.hashNext m.jrn.staged
  { m with jrn := { m.jrn with staged := r.1, chain := r.2.1, hashNext := r.2.2 } }

/-! Acceptance. -/

/-- A record entered in the list in JSN order. -/
def insertStaged (x : Staged) : List Staged → List Staged
  | [] => [x]
  | y :: ys => if x.r.jsn < y.r.jsn then x :: y :: ys else y :: insertStaged x ys

/-- A record staged under its JSN, counted, hashed, its ticket accepted (R277, R278, R281, R286, R319). -/
def Hw.stage (m : Hw) (r : JRec) (tkt : Option Nat) (durable : Bool) : Hw :=
  let m := m.wrSat Reg.JRN_STAGE_STAGED (m.rd Reg.JRN_STAGE_STAGED + r.cost)
  let fresh := m.jrn.staged.length = m.jrn.closed.sum
  let m := { m with jrn := { m.jrn with
      staged := insertStaged (Staged.mk r durable none tkt) m.jrn.staged
      openFrames := if fresh then 0 else m.jrn.openFrames } }
  let m := match tkt with
    | some n => m.setTicket n fun t => { t with state := .running, acc := true }
    | none => m
  m.hash

/-- What the module notes of a record as it is accepted: JRN of the history entry (R337), the since-point (R302), the
records of an interrupted keep-alive. -/
def Hw.noteAccepted (m : Hw) (r : JRec) : Hw :=
  if r.kind = JR.FAULT.code then
    let w := FaultWord.ofBits (numAt r.payload 0 4)
    match m.flt.hist.findIdx? (fun (e : HistEntry) => !e.jrn && e.sc == numAt r.payload 4 4 && e.word.src == w.src &&
        e.word.kind == w.kind && e.word.detail == w.detail) with
    | some i =>
      let e := m.flt.hist.getD i
        { word := ⟨0, 0, 0, 0⟩, frn := 0, sc := 0, merges := 0, react := 0, esc := false, isOpen := false, jrn := false
          base := 0, due := false, quiet := 0 }
      { m with flt := { m.flt with hist := m.flt.hist.set i { e with jrn := true } } }
    | none => m
  else if r.kind = JR.KA_GAP.code then
    { m with jrn := { m.jrn with
        sinceKind := 1, sinceJsn := r.jsn, sinceFrn := numAt r.payload 8 4, sinceTai := r.tai, sinceSub := r.sub
        unreadSince := false }
             rails := { m.rails with dips := 0, lowest := m.kaMv } }
  else if r.kind = JR.MODE.code ∧ numAt r.payload 1 1 = modeSHIP then { m with jrn := { m.jrn with sinceJsn := r.jsn } }
  else if r.kind = JR.POWER_UP.code then { m with jrn := { m.jrn with sinceJsn := r.jsn } }
  else m

/-- The mark in FLAGS of a submitted record that the partner has stamped (R362); acceptance takes it off. -/
def partnerMark : Nat := 16

/-- FLAGS and SRC as the controller writes them: MIRRORED in LEAD, KEEPALIVE for retention staging, the position of the
submitter in a twin (R272, R289, R359). -/
def Hw.stamp (m : Hw) (r : JRec) : JRec :=
  { r with
    flags := r.kinded.flags % 4 + 4 * b2n (m.twn = twnLEAD) + 8 * b2n (m.mode = modeKEEPALIVE)
    src := if r.flags / partnerMark % 2 = 1 then r.src
      else srcEngine r.src + (if m.on Reg.TWN_CFG_EN then 128 * m.rd Reg.TWN_CFG_POSITION else 0) }

/-- The next JSN taken: the seal's own number is passed over and its building begins (R277, R279). -/
def Hw.takeJsn (m : Hw) : Hw :=
  let n := m.rd Reg.JRN_NEXT_JSN
  let m := m.wr Reg.JRN_NEXT_JSN (n + 1)
  if isSealJsn (n + 1) then (m.wr Reg.JRN_NEXT_JSN (n + 2)).wr Reg.JRN_STATUS_SEALING 1 else m

/-- A record accepted under the next JSN (R277). -/
def Hw.accept (m : Hw) (r : JRec) (tkt : Option Nat) (durable : Bool) : Hw :=
  let r := { m.stamp r with jsn := m.rd Reg.JRN_NEXT_JSN }
  ((m.takeJsn).stage r tkt durable).noteAccepted r

/-! NAND. -/

/-- The blocks of the general region and of the critical ring (R290). -/
def isGeneral (b : Nat) : Bool := 66 ≤ b && b < 4096
def isRing (b : Nat) : Bool := 2 ≤ b && b < 66

/-- The epoch of a JSN (R277). -/
def epochOf (n : Nat) : Nat := n / 65536

/-- An epoch is released (R299). -/
def Hw.released (m : Hw) (e : Nat) : Bool :=
  m.rd Reg.JRN_RELEASED_EPOCH != 0xFFFFFFFF && decide (e ≤ m.rd Reg.JRN_RELEASED_EPOCH)

/-- A block is erasable: every record in it lies in a released epoch, or it holds superseded pages only (R299). -/
def Hw.erasable (m : Hw) (b : NandBlock) : Bool :=
  !b.bad && (b.dirty || b.pages != []) &&
    b.pages.all fun (p : NandPage) => p.recs.all fun (r : JRec) => m.released (epochOf r.jsn)

/-- The block with a number; an unlisted one is good and erased. -/
def Hw.nandBlock (m : Hw) (n : Nat) : NandBlock :=
  (m.jrn.blocks.find? (·.num == n)).getD { num := n, erases := 0, bad := false, dirty := false, pages := [] }

/-- A block put in the list, numbers rising. -/
def insertBlock (x : NandBlock) : List NandBlock → List NandBlock
  | [] => [x]
  | y :: ys => if x.num < y.num then x :: y :: ys else if x.num = y.num then x :: ys else y :: insertBlock x ys

/-- `JRN_BLOCKS`, `JRN_WEAR` and `JRN_OLDEST` follow the NAND (R295, R300, R310). -/
def Hw.showNand (m : Hw) : Hw :=
  let gen := m.jrn.blocks.filter fun b => isGeneral b.num
  let held := gen.filter fun b => b.bad || ((b.dirty || b.pages != []) && !m.erasable b)
  let ring := m.jrn.blocks.filter fun b => isRing b.num && b.pages != []
  let jsns := m.jrn.blocks.flatMap fun b => b.pages.map fun (p : NandPage) => p.first
  let oldest := match jsns ++ (m.jrn.staged.map fun (x : Staged) => x.r.jsn) with
    | [] => m.rd Reg.JRN_OLDEST_JSN
    | j :: js => js.foldl min j
  ((((((m.wr Reg.JRN_BLOCKS_FREE (4030 - held.length)).wr Reg.JRN_BLOCKS_BAD (m.jrn.blocks.filter (·.bad)).length).wr
    Reg.JRN_BLOCKS_RING (ring.length * 100 / 64)).wr Reg.JRN_WEAR_MAX_PE
      (m.jrn.blocks.foldl (fun v b => max v b.erases) 0)).wr Reg.JRN_WEAR_MEAN_PE
      ((gen.map (·.erases)).sum / 4030)).wr Reg.JRN_OLDEST_JSN oldest)

/-- A block replaced, and what the registers show of it. -/
def Hw.setBlock (m : Hw) (b : NandBlock) : Hw :=
  ({ m with jrn := { m.jrn with blocks := insertBlock b m.jrn.blocks } }).showNand

/-- The records of a page from an offset on that no codeword beyond correction touches (R291, R292). -/
def goodFrom (bad : List Nat) : Nat → List JRec → List JRec
  | _, [] => []
  | o, r :: rs =>
    let hit := bad.any fun c => decide (o < 1024 * (c + 1)) && decide (1024 * c < o + r.size)
    if hit then goodFrom bad (o + r.size) rs else r :: goodFrom bad (o + r.size) rs

/-- The records that a page gives back: they follow its 64-byte header (R291, R292). -/
def NandPage.good (p : NandPage) : List JRec := goodFrom p.bad 64 p.recs

/-- The header of a page (R291). -/
def NandPage.header (p : NandPage) : List Byte :=
  let h := le 4 0x314E524D ++ le 4 p.psn ++ le 8 p.first ++ le 2 p.recs.length ++ le 1 (b2n p.ring) ++ le 1 (b2n p.reloc) ++
    le 4 p.erases ++ List.replicate 36 0
  h ++ le 4 (crc32c h)

/-- The commit marker of a page, in its spare area (R288, R291): one whose check fails makes no valid page. -/
def NandPage.marker (p : NandPage) : List Byte :=
  let h := le 4 p.psn ++ le 8 (match p.recs.getLast? with | some r => r.jsn | none => p.first)
  h ++ le 4 (crc32c h)

/-- The 16 KiB of a page's data (R290, R291): header, records, and 0xFF after them. -/
def NandPage.bytes (p : NandPage) : List Byte :=
  let b := p.header ++ p.recs.flatMap JRec.bytes
  b ++ List.replicate (16384 - b.length) 0xFF

/-- The first general block that no list entry names. -/
def freshBlock (bs : List NandBlock) : Nat → Nat → Nat
  | 0, n => n
  | fuel + 1, n => if bs.any (·.num == n) then freshBlock bs fuel (n + 1) else n

/-- The erased general block with the lowest erase count, one whose count exceeds the mean by 2,000 held back (R295). -/
def Hw.allocate (m : Hw) : Option Nat :=
  let n := freshBlock m.jrn.blocks (m.jrn.blocks.length + 1) 66
  let fresh := if n < 4096 then [NandBlock.mk n 0 false false []] else []
  let old := m.jrn.blocks.filter fun b => isGeneral b.num && !b.bad && !b.dirty && b.pages == []
  let can := (old ++ fresh).filter fun b => decide (b.erases ≤ m.rd Reg.JRN_WEAR_MEAN_PE + 2000)
  match can with
  | [] => none
  | b :: bs => some (bs.foldl (fun x y => if y.erases < x.erases then y else x) b).num

/-- The good ring block that follows block `n` in turn (R295). -/
def Hw.nextRing (m : Hw) (n : Nat) : Option Nat :=
  ((List.range 64).map fun k => 2 + (n + k - 1) % 64).find? fun b => !(m.nandBlock b).bad

/-- The block that takes the next page of a region: the one under programming while it has room, else the next one
(R290, R295). -/
def Hw.blockFor (m : Hw) (ring : Bool) : Option Nat :=
  let room := fun (n : Nat) => !(m.nandBlock n).bad && !(m.nandBlock n).dirty && decide ((m.nandBlock n).pages.length < 64)
  if ring then
    match m.jrn.ringBlock with
    | some n => if room n then some n else m.nextRing n
    | none => m.nextRing 65
  else
    match m.jrn.block with
    | some n => if room n then some n else m.allocate
    | none => m.allocate

/-- Every record of a ring block may be overwritten: it has a general copy or lies in a released epoch (R296). -/
def Hw.ringFree (m : Hw) (n : Nat) : Bool :=
  let has := fun (j : Nat) => m.jrn.blocks.any fun b => isGeneral b.num &&
    b.pages.any fun (p : NandPage) => p.good.any fun (r : JRec) => r.jsn == j
  (m.nandBlock n).pages.all fun p => p.recs.all fun r => m.released (epochOf r.jsn) || has r.jsn

/-- The critical ring has no place for a further critical record (R296). -/
def Hw.ringBlocked (m : Hw) : Bool :=
  match m.blockFor true with
  | none => true
  | some n =>
    if m.jrn.ringBlock = some n then false
    else (m.nandBlock n).pages != [] && !m.ringFree n

/-- One page with its marker programmed in a region, under the next PSN (R288, R291); a block of the ring is overwritten only
where R296 lets it. -/
def Hw.program (m : Hw) (ring reloc : Bool) (recs : List JRec) : Hw :=
  if ring && m.ringBlocked then m else
  match recs, m.blockFor ring with
  | r :: _, some n =>
    let cur := if ring then m.jrn.ringBlock else m.jrn.block
    let b := m.nandBlock n
    let b := if ring && cur != some n then { b with pages := [], dirty := false, erases := if b.pages = [] ∧ ¬ b.dirty then b.erases else b.erases + 1 } else b
    let p : NandPage :=
      { psn := m.jrn.psn, first := r.jsn, ring := ring, reloc := reloc, erases := b.erases, recs := recs
        bad := [] }
    let m := m.setBlock { b with pages := b.pages ++ [p] }
    { m with jrn := { m.jrn with
        psn := m.jrn.psn + 1
        block := if ring then m.jrn.block else some n
        ringBlock := if ring then some n else m.jrn.ringBlock } }
  | _, _ => m

/-- A NAND program may start (R54, R55, R75, R287): outside freeze and pre-freeze, and not within 600 µs of the next freeze
boundary. -/
def Hw.mayProgram (m : Hw) : Bool :=
  !m.quietDue && (match m.toBoundary with | some c => decide (120000 ≤ c) | none => true)

/-- An erase may start (R287): where 3.5 ms of thaw remain before the next freeze boundary. -/
def Hw.mayErase (m : Hw) : Bool :=
  !m.quietDue && (match m.toBoundary with | some c => decide (700000 ≤ c) | none => true)

/-- A failed block enters the directory, whose two blocks are written alternately (R290, R293). -/
def Hw.enterDirectory (m : Hw) (n : Nat) : Hw :=
  { m with jrn := { m.jrn with badBlocks := putNat n m.jrn.badBlocks, dirBlock := 1 - m.jrn.dirBlock } }

/-- One page of block `n` programmed elsewhere as a relocated copy (R293, R294); where no block can take it, it stays. -/
def Hw.relocatePage (n : Nat) (m : Hw) (p : NandPage) : Hw :=
  if (m.blockFor p.ring).isNone || (p.ring && m.ringBlocked) then m
  else
    let m := m.program p.ring true p.good
    let b := m.nandBlock n
    m.setBlock { b with pages := b.pages.filter fun (q : NandPage) => q.psn != p.psn }

/-- A block's valid pages programmed elsewhere as relocated copies (R292, R293, R294). -/
def Hw.relocate (m : Hw) (n : Nat) (bad : Bool) : Hw :=
  let b := m.nandBlock n
  let m := m.setBlock { b with bad := b.bad || bad, dirty := !(b.bad || bad) }
  let m := { m with jrn := { m.jrn with block := if m.jrn.block = some n then none else m.jrn.block } }
  b.pages.foldl (Hw.relocatePage n) m

/-- Relocations that have waited for thaw (R54). -/
def Hw.scrubTick (m : Hw) : Hw :=
  if m.mayProgram then
    m.jrn.scrubs.foldl (fun m n => m.relocate n false) { m with jrn := { m.jrn with scrubs := [] } }
  else m

/-! Pages. -/

/-- Bytes of records that a page takes (R290, R291), and the most records that fit in them: a record has 32 bytes or more
(R272). -/
def pageBytes : Nat := 16320
def pageRecords : Nat := 510

/-- How many of the first records fit one page. -/
def pageFit : Nat → Nat → List Staged → Nat
  | _, _, [] => 0
  | bytes, n, x :: xs => if x.r.size ≤ bytes ∧ 0 < n then 1 + pageFit (bytes - x.r.size) (n - 1) xs else 0

/-- The records of the open page: those hashed, so that none is entered before them any more (R279, R286). -/
def Hw.openPage (m : Hw) : List Staged := (m.jrn.staged.drop m.jrn.closed.sum).takeWhile fun x => x.chain.isSome

/-- The open page is full, or holds a critical record or one of a durable host command, or is 8 frames old (R286). -/
def Hw.pageDue (m : Hw) : Bool :=
  let o := m.openPage
  let k := pageFit pageBytes pageRecords o
  o != [] && (decide (k < o.length) || decide (k = pageRecords) || (o.take k).any (fun x => x.r.crit || x.durable) ||
    decide (8 ≤ m.jrn.openFrames))

/-- The open page closed for programming (R286). -/
def Hw.closePage (m : Hw) : Hw :=
  let k := pageFit pageBytes pageRecords m.openPage
  if k = 0 then m else { m with jrn := { m.jrn with closed := m.jrn.closed ++ [k], openFrames := 0 } }

/-- Durable commands whose record is committed and whose result the host side holds retire, in the order of their stream (R316, R321). -/
def Hw.settleWork (m : Hw) : Hw :=
  let front := match m.jrn.staged with
    | x :: _ => x.r.jsn
    | [] => m.rd Reg.JRN_NEXT_JSN
  let ended := fun (c : HostCmd) => c.stage == 4 && (match c.jsn with | some j => decide (j < front) | none => true)
  let done := (List.range 8).flatMap fun n =>
    (m.host.work.filter fun (c : HostCmd) => c.stream == n).takeWhile fun c => ended c
  let m := { m with host := { m.host with work := m.host.work.filter fun (c : HostCmd) => !done.contains c } }
  done.foldl (fun m c => if c.hostSide then m else m.dropTicket c.tkt) m

/-- The oldest closed page committed (R288): its records leave the staging, the watermark advances, their tickets
retire. While the journal is full its critical records go to the ring alone (R300). -/
def Hw.commitPage (m : Hw) : Hw :=
  match m.jrn.closed with
  | [] => m
  | k :: ks =>
    let page := m.jrn.staged.take k
    let recs := page.map fun (x : Staged) => x.r
    let crits := recs.filter fun r => r.crit
    let full := m.on Reg.JRN_STATUS_FULL
    let m := m.program false false (if full then recs.filter fun r => !r.crit else recs)
    let m := m.program true false crits
    let m := { m with jrn := { m.jrn with staged := m.jrn.staged.drop k, closed := ks }
                      flt := { m.flt with parts := m.flt.parts.filter fun p => p != 0x35 } }
    let m := m.wr Reg.JRN_STAGE_STAGED (m.rd Reg.JRN_STAGE_STAGED - (recs.map JRec.cost).sum)
    let m := match page.getLast? with
      | none => m
      | some x =>
        let m := m.wr Reg.JRN_COMMIT_JSN x.r.jsn
        { m with jrn := { m.jrn with headChain := x.chain.getD m.jrn.headChain } }
    let m := recs.foldl (fun m r =>
      if r.kind = JR.SEAL.code then
        m.wr Reg.JRN_SEALED_EPOCH (epochOf r.jsn)
      else m) m
    let m := if full then { m with jrn := { m.jrn with
      onlyCrit := (crits.map fun r => epochOf r.jsn).foldl (fun l e => putNat e l) m.jrn.onlyCrit } } else m
    let m := page.foldl (fun m x => match x.tkt with | some n => m.dropTicket n | none => m) m
    ((m.settleWork).showNand).hash

/-- The oldest closed page has critical records, and the ring has no place for them (R296). -/
def Hw.ringWaits (m : Hw) : Bool :=
  match m.jrn.closed with
  | [] => false
  | k :: _ => ((m.jrn.staged.take k).any fun x => x.r.crit) && m.ringBlocked

/-- A critical record waits for the ring: JRN_CRIT_FULL, once (R296). -/
def Hw.critFull (m : Hw) : Hw :=
  if m.jrn.critSaid then m
  else ({ m with jrn := { m.jrn with critSaid := true, unreadSince := true } }).fault Kind.JRN_CRIT_FULL ((m.blockFor true).getD 0)

/-- The oldest closed page may be committed: hashed throughout, mirrored in LEAD, and a block for it in each region that it
needs (R279, R288, R296, R361). -/
def Hw.canCommit (m : Hw) : Bool :=
  match m.jrn.closed with
  | [] => false
  | k :: _ =>
    let page := m.jrn.staged.take k
    page.all (fun x => x.chain.isSome) &&
      (m.twn != twnLEAD || page.all fun x => decide (x.r.jsn ≤ m.rd Reg.TWN_WMARK_JSN)) &&
      ((m.blockFor false).isSome || (m.on Reg.JRN_STATUS_FULL && page.all fun x => x.r.crit)) && !m.ringWaits

/-- Everything staged is closed and committed in JSN order (R285, R289). -/
def Hw.commitAll (m : Hw) : Nat → Hw
  | 0 => m
  | fuel + 1 =>
    let m := if m.jrn.closed = [] then m.closePage else m
    if m.canCommit then m.commitPage.commitAll fuel else m

/-! Appends. -/

/-- The bytes of a record region that the pending ring may use (R362, R514). -/
def Hw.ringRoom (m : Hw) : Nat :=
  match m.upd.hand with
  | some h => if h.begun then 0x4000 else 0x8000
  | none => 0x8000

/-- A record put in the pending ring, or dropped and counted where it would overflow it (R362). -/
def Hw.pend (m : Hw) (r : JRec) : Hw :=
  let used := (m.twin.ring.map fun (x : JRec) => x.size).sum
  if used + r.size ≤ m.ringRoom then
    ({ m with twin := { m.twin with ring := m.twin.ring ++ [r], ringRun := false } }).wr Reg.TWN_PEND_BYTES (used + r.size)
  else
    let said := m.twin.ringRun
    let m := ({ m with twin := { m.twin with ringRun := true } }).bump Reg.TWN_PEND_LOST
    if said then m else m.fault Kind.TWIN_PENDING_LOST 1

/-- The front record leaves the submitted list. -/
def Hw.popSub (m : Hw) : Hw := { m with sub := m.sub.drop 1 }

/-- The ticket of a record that will not be accepted here ends. -/
def Hw.endAppend (m : Hw) (x : Append) : Hw := match x.tkt with | some n => m.dropTicket n | none => m

/-- The record waits, and a wait is counted once (R281). -/
def Hw.holdAppend (m : Hw) : Hw :=
  if m.jrn.waiting then m else ({ m with jrn := { m.jrn with waiting := true } }).bump Reg.JRN_REFUSED_WAITS

/-- The front record as its state decides (R281, R296, R300, R352, R360, R362). -/
def Hw.append (m : Hw) : Hw :=
  match m.sub with
  | [] => m
  | x :: _ =>
    if x.tkt.isNone || m.on Reg.JRN_STATUS_HOLDUP then m
    else if m.host.work.any (fun (c : HostCmd) => c.stage == 5) then m.holdAppend
    else
      let st := m.twn
      if st = twnCLAIMING && !m.twin.resigned then m.holdAppend
      else if st = twnCLAIMING || st = twnISOLATED || st = twnPENDING then ((m.pend x.r).popSub).endAppend x
      else if st = twnSTANDBY then
        match m.sendTwin 4 (le 4 m.twin.fwdNext ++ (m.stamp x.r).bytes) with
        | none => m
        | some m' =>
          ({ m' with twin := { m'.twin with
              forwarded := m'.twin.forwarded ++ [(m'.twin.fwdNext, x)], fwdNext := m'.twin.fwdNext + 1 } }).popSub
      else if m.on Reg.JRN_STATUS_FULL && !x.r.crit then ((m.bump Reg.JRN_REFUSED_NONCRIT).popSub).endAppend x
      else if x.r.crit && m.ringBlocked then
        m.holdAppend.critFull
      else if !m.fits x.r then m.holdAppend
      else
        let m := { m with jrn := { m.jrn with waiting := false, critSaid := false } }
        if st = twnLEAD then
          if 64 ≤ m.twin.reserved.length then m
          else
            let r := { m.stamp x.r with jsn := m.rd Reg.JRN_NEXT_JSN }
            match m.sendTwin 2 r.bytes with
            | none => m
            | some m' =>
              let m' := (m'.takeJsn).wrSat Reg.JRN_STAGE_STAGED (m'.rd Reg.JRN_STAGE_STAGED + r.cost)
              ({ m' with twin := { m'.twin with reserved := m'.twin.reserved ++ [{ x with r := r }] } }).popSub
        else (m.popSub).accept x.r x.tkt false

/-- CHOLD_MEASURE (R284): C_eff = I·t / 4.0 V in µF, the current in 10 µA units and the time in µs. -/
def execCholdMeasure (us current : Nat) (s : State) : Host.Outcome State Fault Refusal :=
  effect s fun m =>
    let c := current * us / 400000
    let nom := m.rd Reg.JRN_CFG_CHOLD_NOM
    let m := m.wrSat Reg.JRN_CHOLD_CEFF c
    if c * 100 < nom * 80 ∨ c < 376 then m.fault Kind.CHOLD_LOW (c / 10) else m

/-- PAGE_CLOSE (R286). -/
def execPageClose (s : State) : Host.Outcome State Fault Refusal :=
  effect s fun m => if m.pageDue && m.mode != modeKEEPALIVE then m.closePage else m

/-- PAGE_COMMIT (R287, R288, R296): in thaw; the program with its marker starts and completes as one step. -/
def execPageCommit (s : State) : Host.Outcome State Fault Refusal :=
  effect s fun m =>
    if m.canCommit && m.on Reg.JRN_STATUS_READY && m.mayProgram && m.mode != modeKEEPALIVE then m.commitPage
    else if m.ringWaits then m.critFull else m

/-- A page or marker program fails (R293): the block is retired, its committed pages are relocated, and the records go
to the next good block with a new PSN. -/
def Hw.progFail (m : Hw) : Hw :=
  match m.jrn.closed, m.blockFor false with
  | _ :: _, some n =>
    let m := ((m.bump Reg.JRN_EVENTS_PROG_FAIL).wr Reg.JRN_STATUS_MEDIA_EVT 1).fault Kind.JRN_PROG_FAIL n
    let m := { m with jrn := { m.jrn with psn := m.jrn.psn + 1 } }
    let b := m.nandBlock n
    let m := (m.setBlock { b with bad := true }).enterDirectory n
    let m := { m with jrn := { m.jrn with block := none } }
    let m := if m.canCommit then m.commitPage else m
    m.relocate n true
  | _, _ => m

/-- A general block takes the place of a failed ring block, which is retired under that block's number (R290; DEDUCED,
notes/assumptions/111.md). -/
def Hw.replaceRing (m : Hw) (n g : Nat) : Hw :=
  let old := m.nandBlock n
  let spare := m.nandBlock g
  ((m.setBlock { old with num := g, bad := true, dirty := false, pages := [] }).setBlock
    { old with erases := spare.erases, bad := false, dirty := false, pages := [] }).enterDirectory g

/-- A program of a ring copy fails (R290, R293): a general block takes the place of the ring's, which is retired under that
block's number (DEDUCED, notes/assumptions/111.md); the records go to it first, and the committed copies of the retired
block are relocated. -/
def Hw.ringFail (m : Hw) : Hw :=
  match m.jrn.closed, m.blockFor true, m.allocate with
  | _ :: _, some n, some g =>
    let m := ((m.bump Reg.JRN_EVENTS_PROG_FAIL).wr Reg.JRN_STATUS_MEDIA_EVT 1).fault Kind.JRN_PROG_FAIL n
    let old := m.nandBlock n
    let m := { m with jrn := { m.jrn with psn := m.jrn.psn + 1, ringBlock := some n } }
    let m := m.replaceRing n g
    let m := if m.canCommit then m.commitPage else m
    old.pages.foldl (fun m p => m.program true true p.good) m
  | _, _, _ => m

/-- NAND_PROG_FAIL (R293): of a page of the general region, or of its copy in the critical ring; which of the two the medium
fails at is free (DESIGN CHOICE, notes/assumptions/116.md). -/
def execNandProgFail (s : State) : Host.Outcome State Fault Refusal :=
  effect s fun m => if !m.mayProgram then m else if Config.ringProgFails m.jrn.psn then m.ringFail else m.progFail

/-- NAND_ERASE_DONE (R287, R293, R299). -/
def execNandEraseDone (block : Fin 4096) (ok : Bool) (s : State) : Host.Outcome State Fault Refusal :=
  effect s fun m =>
    let b := m.nandBlock block
    if !m.erasable b || !m.mayErase then m
    else if ok then m.setBlock { b with pages := [], dirty := false, erases := b.erases + 1 }
    else
      let m := match isRing block.val, m.allocate with
        | true, some g => m.replaceRing block g
        | _, _ => (m.setBlock { b with bad := true, pages := [], dirty := false }).enterDirectory block
      ((m.bump Reg.JRN_EVENTS_ERASE_FAIL).wr Reg.JRN_STATUS_MEDIA_EVT 1).fault Kind.JRN_ERASE_FAIL block

/-- NAND_ECC_READ (R292): of one codeword of a committed page. -/
def execNandEccRead (code : CodewordAt) (corrections : Nat) (s : State) : Host.Outcome State Fault Refusal :=
  effect s fun m =>
    match m.jrn.blocks.find? (fun b => b.pages.any fun (p : NandPage) => p.psn == code.psn) with
    | none => m
    | some b =>
      if 24 < corrections then
        let ps := b.pages.map fun (p : NandPage) => if p.psn = code.psn then { p with bad := putNat code.word.val p.bad } else p
        let m := m.setBlock { b with pages := ps }
        let open_ := fun (l : List Nat) (r : JRec) => if epochOf m.jrn.hashNext ≤ epochOf r.jsn then putNat (epochOf r.jsn) l else l
        let lost := (b.pages.filter fun (p : NandPage) => p.psn == code.psn).flatMap fun p => p.recs
        let m := { m with jrn := { m.jrn with unreadable := lost.foldl open_ m.jrn.unreadable, unreadSince := true } }
        ((m.bump Reg.JRN_EVENTS_UNCORR).wr Reg.JRN_STATUS_MEDIA_EVT 1).fault Kind.JRN_ECC_FAIL b.num
      else if 12 ≤ corrections then
        let m := (m.bump Reg.JRN_EVENTS_SCRUB).fault Kind.JRN_ECC_SCRUB b.num
        if m.mayProgram then m.relocate b.num false
        else { m with jrn := { m.jrn with scrubs := m.jrn.scrubs ++ [b.num] } }
      else m

/-- KEY_ID of the device key (R279). -/
def deviceKeyId : List Byte := slice (digestBytes (Config.sha256 Config.devicePublicKey)) 0 8

/-- The seal of epoch `e` (R279). -/
def Hw.sealRec (m : Hw) (e : Nat) : JRec :=
  let r := m.mkRec JR.SEAL 0x16 (le 4 e ++ le 4 (b2n (m.jrn.onlyCrit.contains e || m.on Reg.JRN_STATUS_FULL) + 2 * b2n (m.jrn.unreadable.contains e)) ++
    digestBytes m.jrn.chain ++ deviceKeyId)
  let r := { m.stamp r with jsn := 65536 * e + 65535 }
  { r with payload := padTo 116 (slice r.payload 0 48 ++ Config.deviceSign (r.body.take 72)) }

/-- The signer's attempt at the seal that is due (R279, R309), on a module that numbers the journal (R366). -/
def Hw.buildSeal (m : Hw) (status : Nat) : Hw :=
  if m.numbers && m.on Reg.JRN_STATUS_SEALING && isSealJsn m.jrn.hashNext then
    if status = 0 then
      let e := epochOf m.jrn.hashNext
      let r := m.sealRec e
      let m := { m.wr Reg.JRN_STATUS_SEALING 0 with jrn := { m.jrn with
        sealTries := 0, onlyCrit := m.jrn.onlyCrit.filter (· != e), unreadable := m.jrn.unreadable.filter (· != e) } }
      (if m.twn = twnLEAD then m.trySendTwin 2 r.bytes else m).stage r none false
    else
      let n := m.jrn.sealTries + 1
      let m := { m with jrn := { m.jrn with sealTries := n } }
      if n = 2 then m.fault Kind.JRN_SEAL_FAIL status else m
  else m

/-- The retention staging is due for its commit (R289): 64 seconds after the last one, or three quarters of its 32 KiB in use. -/
def Hw.flushDue (m : Hw) : Bool :=
  m.mode = modeKEEPALIVE && m.numbers &&
    (decide (64 ≤ m.jrn.kaSecs) || decide (0x6000 ≤ (m.jrn.staged.map fun (x : Staged) => x.r.size).sum))

/-- KEEPALIVE_FLUSH (R289): the retention staging is committed; F-MEM has power for that alone. -/
def execKeepaliveFlush (s : State) : Host.Outcome State Fault Refusal :=
  effect s fun m =>
    if m.flushDue then { m.commitAll m.jrn.staged.length with jrn := { (m.commitAll m.jrn.staged.length).jrn with kaSecs := 0 } } else m

/-- NAND_SCAN (R297): READY, JRN_SCAN_TORN, and the JR_POWER_UP that waited for the watermark (R274). -/
def execNandScan (torn : Nat) (s : State) : Host.Outcome State Fault Refusal :=
  effect s fun m =>
    if m.jrn.scanned then m
    else
      let m := { (m.wr Reg.JRN_STATUS_READY 1).showNand with jrn := { ((m.wr Reg.JRN_STATUS_READY 1).showNand).jrn with scanned := true } }
      let m := if 0 < torn then m.fault Kind.JRN_SCAN_TORN torn else m
      match m.jrn.powerUp with
      | some p =>
        ({ m with jrn := { m.jrn with powerUp := none } }).record JR.POWER_UP 0x16
          (p ++ le 8 (m.rd Reg.JRN_COMMIT_JSN) ++ le 2 (satN 16 torn) ++ le 2 0)
      | none => m

/-- JOURNAL_FULL (R300). -/
def execJournalFull (s : State) : Host.Outcome State Fault Refusal :=
  effect s fun m =>
    if m.rd Reg.JRN_BLOCKS_FREE < 16 ∧ ¬ m.on Reg.JRN_STATUS_FULL then
      let m := (m.wr Reg.JRN_STATUS_FULL 1).wr Reg.JRN_STATUS_FULL_EVT 1
      ({ m with jrn := { m.jrn with full := true } }).fault Kind.JRN_FULL (m.rd Reg.JRN_BLOCKS_FREE)
    else m

/-- JOURNAL_FULL_EXIT (R300). -/
def execJournalFullExit (s : State) : Host.Outcome State Fault Refusal :=
  effect s fun m => if 32 ≤ m.rd Reg.JRN_BLOCKS_FREE then m.wr Reg.JRN_STATUS_FULL 0 else m

/-! Summaries and the RTC. -/

/-- The payload of JR_SUMMARY (R275) for the second that closes. -/
def Hw.summary (m : Hw) (x : SecondMeans) : List Byte :=
  let q := if m.cable.qvalid then satN 16 (m.qBat / 10000) else 0xFFFF
  le 1 m.mode ++ le 1 (m.rd Reg.CHG_STATUS_STATE) ++
    le 1 (m.rd Reg.FRM_STATUS_SRC + 16 * m.rd Reg.FRM_STATUS_STATE) ++
    le 1 (b2n m.jrn.kaBelow + 2 * b2n m.jrn.refused + 4 * b2n m.jrn.source + 8 * b2n m.jrn.full) ++
    le 2 x.vbat ++ le 2 (unsignedOf 16 x.ibat) ++ le 2 x.vkaMin ++ le 2 x.ika ++ le 2 x.vqr1 ++ le 2 x.vqr2 ++
    le 2 (unsignedOf 16 x.tctl) ++
    le 1 (match m.jrn.tpack with | some t => unsignedOf 8 t | none => 0x80) ++
    le 1 (satN 8 m.jrn.faults) ++ le 2 m.jrn.frzSlots ++ le 2 m.jrn.refSlots ++ le 2 x.vsys ++ le 2 x.vchold ++
    le 2 q ++ le 2 (satN 16 m.chg.pin) ++ le 4 0

/-- A summary goes to the journal, or waits in F-AON, 8 seconds deep, while F6 JOURNAL is away (R275). -/
def Hw.putSummary (m : Hw) (payload : List Byte) : Hw :=
  let m' := { m with jrn := { m.jrn with
      kaBelow := m.rails.kaGap.isSome, refused := false, source := m.chg.source, full := m.on Reg.JRN_STATUS_FULL, faults := 0
      frzSlots := 0, refSlots := 0 } }
  if (m.engine .f6).running && !(m.engine .f6).restarting then m'.record JR.SUMMARY 0x16 payload
  else { m' with jrn := { m'.jrn with
      seconds := lastN 8 (m'.jrn.seconds ++ [Second.mk (m.rd Reg.RTC_SEC_TAI) m.frn payload]) } }

/-- JR_SUMMARY (R275). -/
def execJrSummary (x : SecondMeans) (s : State) : Host.Outcome State Fault Refusal :=
  effect s fun m =>
    let m := if m.frozen then m.countFrozen else m
    m.putSummary (m.summary x)

/-- The summaries that waited are submitted in order of time (R275, R328). -/
def Hw.submitSeconds (m : Hw) : Hw :=
  m.jrn.seconds.foldl (fun m x =>
    m.submitRec { m.mkRec JR.SUMMARY 0x16 x.payload with frn := x.frn, tai := x.tai, sub := 0 })
    { m with jrn := { m.jrn with seconds := [] } }

/-- The RTC has lost its crystal (R304): VALID clears. -/
def Hw.oscFail (m : Hw) : Hw :=
  (((m.wr Reg.RTC_STATUS_OSC_FAIL 1).wr Reg.RTC_STATUS_VALID 0).wr Reg.RTC_STATUS_DISCIPLINED 0).fault Kind.RTC_OSC_FAIL 0

/-- RTC_OSC_FAIL (R304): once, until F-BKP has lost the flag. -/
def execRtcOscFail (s : State) : Host.Outcome State Fault Refusal :=
  effect s fun m => if m.on Reg.RTC_STATUS_OSC_FAIL then m else m.oscFail

/-- RTC_BKP_LOW (R304): the flag follows VBKP, and the fault is recorded once. -/
def execRtcBkpLow (mv : Nat) (s : State) : Host.Outcome State Fault Refusal :=
  effect s fun m =>
    if mv < 2000 then
      let m := m.wr Reg.RTC_STATUS_BKP_LOW 1
      if m.jrn.bkpSaid then m
      else ({ m with jrn := { m.jrn with bkpSaid := true } }).fault Kind.RTC_BKP_LOW (mv / 10)
    else m.wr Reg.RTC_STATUS_BKP_LOW 0

/-- RTC_RATE_CORRECTION (R305): while F-CORE is on and the crystal runs. -/
def execRtcRateCorrection (err : Int) (s : State) : Host.Outcome State Fault Refusal :=
  effect s fun m =>
    if (m.domain .fCore).on && !m.on Reg.RTC_STATUS_OSC_FAIL && m.mode != modeKEEPALIVE then
      let m := (m.wrI Reg.RTC_ERR_RATE (clampI (-32768) 32767 err)).wr Reg.RTC_STATUS_DISCIPLINED 1
      { m with jrn := { m.jrn with rateAt := m.frn } }
    else m

end Sys2Proof.Machine
end

