-- ==== Sys2Proof/Machine/HostWork.lean ====
section
/-! DEFINITION. Host commands on the field side: what a taken command is, when it runs, how it is answered, and how a
message is taken from the host (R321, R322, R368, R410 to R417). -/

namespace Sys2Proof.Machine

/-! The command set (R412, R466, R509). -/

/-- Names of the command codes. -/
def cmdPING : Nat := 0x01
def cmdREG_READ : Nat := 0x10
def cmdREG_WRITE : Nat := 0x11
def cmdADC_INJECT : Nat := 0x20
def cmdREFCHK_RUN : Nat := 0x21
def cmdCAL_STAGE : Nat := 0x22
def cmdCAL_COMMIT : Nat := 0x23
def cmdKA_STATEMENT : Nat := 0x30
def cmdTIME_SET : Nat := 0x31
def cmdRELEASE : Nat := 0x32
def cmdSB_XFER : Nat := 0x40
def cmdSTREAM_RESET : Nat := 0x50
def cmdSVC_CHALLENGE : Nat := 0x100
def cmdSVC_ENTER : Nat := 0x101
def cmdSVC_EXIT : Nat := 0x102
def cmdKEY_ENROL : Nat := 0x103
def cmdSHIP_ENTER : Nat := 0x110
def cmdHOST_PWR : Nat := 0x111
def cmdCFG_STAGE : Nat := 0x120
def cmdCFG_COMMIT : Nat := 0x121
def cmdFIELD_RESET : Nat := 0x130
def cmdUPD_BEGIN : Nat := 0x200
def cmdUPD_CHUNK : Nat := 0x201
def cmdUPD_FINISH : Nat := 0x202
def cmdUPD_ACTIVATE : Nat := 0x203
def cmdUPD_ABORT : Nat := 0x204
def cmdUPD_QUERY : Nat := 0x205
def cmdUPD_REVERT : Nat := 0x206

/-- Queries but for SB_XFER (R412, R466, R509). -/
def queryCodes : List Nat :=
  [cmdPING, cmdREG_READ, cmdADC_INJECT, cmdREFCHK_RUN, cmdKA_STATEMENT, cmdSVC_CHALLENGE, cmdUPD_QUERY]

/-- Commands marked Always in the column Durable. -/
def alwaysCodes : List Nat :=
  [cmdCAL_COMMIT, cmdTIME_SET, cmdRELEASE, cmdSTREAM_RESET, cmdSVC_ENTER, cmdSVC_EXIT, cmdKEY_ENROL, cmdSHIP_ENTER,
   cmdCFG_COMMIT, cmdFIELD_RESET]

/-- Commands marked By flag. -/
def flagCodes : List Nat := [cmdREG_WRITE, cmdCAL_STAGE, cmdSB_XFER, cmdHOST_PWR, cmdCFG_STAGE]

/-- Commands marked Never (R509). -/
def neverCodes : List Nat :=
  [cmdUPD_BEGIN, cmdUPD_CHUNK, cmdUPD_FINISH, cmdUPD_ACTIVATE, cmdUPD_ABORT, cmdUPD_REVERT]

/-- Every named command. -/
def namedCodes : List Nat := queryCodes ++ alwaysCodes ++ flagCodes ++ neverCodes

/-- A command code of R412, the ranges of the other chapters included (R408, R411). -/
def knownCode (c : Nat) : Bool := namedCodes.contains c || (0x100 ≤ c && c < 0x300)

/-- Commands that need SERVICE (R412, R466, R509). -/
def serviceCodes : List Nat :=
  [cmdCAL_STAGE, cmdCAL_COMMIT, cmdSVC_EXIT, cmdKEY_ENROL, cmdCFG_STAGE, cmdCFG_COMMIT, cmdFIELD_RESET] ++ neverCodes

/-- What the field ROM answers in permafrost (R520). -/
def frostCodes : List Nat := [cmdPING, cmdUPD_QUERY, cmdUPD_BEGIN, cmdUPD_CHUNK, cmdUPD_FINISH, cmdUPD_ACTIVATE]

/-- The argument bytes that a command has at least. -/
def argBytes (code : Nat) : Nat :=
  if code = cmdREG_READ then 4 else if code = cmdREG_WRITE then 12 else if code = cmdADC_INJECT then 4
  else if code = cmdREFCHK_RUN then 4 else if code = cmdCAL_STAGE ∨ code = cmdCFG_STAGE then 4
  else if code = cmdKA_STATEMENT then 16 else if code = cmdTIME_SET then 12 else if code = cmdRELEASE then 4
  else if code = cmdSB_XFER then 4 else if code = cmdSTREAM_RESET then 4 else if code = cmdSVC_CHALLENGE then 4
  else if code = cmdSVC_ENTER then 68 else if code = cmdKEY_ENROL then 36 else if code = cmdSHIP_ENTER then 4
  else if code = cmdHOST_PWR then 4 else if code = cmdUPD_BEGIN then 8 else if code = cmdUPD_CHUNK then 16
  else if code = cmdUPD_FINISH ∨ code = cmdUPD_ABORT ∨ code = cmdUPD_QUERY ∨ code = cmdUPD_REVERT then 4
  else if code = cmdUPD_ACTIVATE then 8 else 0

/-- The engine that runs a command (R315, R321). -/
def cmdEngine (code : Nat) : Engine :=
  if code = cmdADC_INJECT ∨ code = cmdREFCHK_RUN ∨ code = cmdCAL_STAGE ∨ code = cmdCAL_COMMIT then .f5
  else if code = cmdKA_STATEMENT ∨ code = cmdTIME_SET ∨ code = cmdRELEASE then .f6
  else if code = cmdSB_XFER then .f8 else .f0

/-- An argument field of a command. -/
def HostCmd.arg (c : HostCmd) (o n : Nat) : Nat := numAt c.args o n

/-- A command that changes state (R412): SB_XFER does when it only writes. -/
def HostCmd.acts (c : HostCmd) : Bool :=
  if c.cmd = cmdSB_XFER then c.arg 1 1 != 0 && c.arg 2 1 == 0
  else alwaysCodes.contains c.cmd || flagCodes.contains c.cmd || neverCodes.contains c.cmd

/-- A durable command (R413): for a query the DURABLE bit is ignored. -/
def HostCmd.durable (c : HostCmd) : Bool :=
  c.acts && (alwaysCodes.contains c.cmd || (flagCodes.contains c.cmd && c.flags % 2 == 1))

/-- Status codes of a result (R415). -/
def stOK : Nat := 0x00
def stRANGE : Nat := 0x01
def stUNKNOWN : Nat := 0x02
def stACCESS : Nat := 0x03
def stSTATE : Nat := 0x04
def stFAILED : Nat := 0x05
def stVOID : Nat := 0x06
def stSEQ_STALE : Nat := 0x07
def stSEQ_GAP : Nat := 0x08
def stJOURNAL_FULL : Nat := 0x09
def stEPOCH_STALE : Nat := 0x0A
def stENGINE_FENCED : Nat := 0x0B
def stFILTERED : Nat := 0x0C

/-- What a command is answered with: STATUS, data, and RFLAGS beside those of its taking. -/
structure Answer where
  status : Nat
  data : List Byte
  rflags : Nat
deriving DecidableEq, Repr

/-- An answer without further flags. -/
def answer (status : Nat) (data : List Byte) : Answer := { status := status, data := data, rflags := 0 }

/-- OK with data. -/
def okWith (data : List Byte) : Answer := answer stOK data

/-- RANGE: the index of the first bad argument byte. -/
def badArg (i : Nat) : Answer := answer stRANGE (le 1 i)

/-- STATE, with the fault word of the obstacle, or 0. -/
def badState (w : Nat) : Answer := answer stSTATE (le 4 w)

/-- The 32 bits of a fault word of a kind. -/
def wordOf (k : FaultKind) (src detail : Nat) : Nat :=
  FaultWord.bits { src := src, kind := k.code, sev := k.sev, detail := satN 14 detail }

/-! Answers. -/

/-- A result as it travels (R415). -/
def resultBytes (seq cmd status rflags : Nat) (data : List Byte) : List Byte :=
  le 4 seq ++ le 2 cmd ++ le 1 status ++ le 1 rflags ++ data

/-- The bytes of a command's result. -/
def HostCmd.result (c : HostCmd) : List Byte := resultBytes c.seq c.cmd c.status c.rflags c.data

/-- A command replaced in its place. -/
def Hw.setWork (m : Hw) (c : HostCmd) : Hw :=
  { m with host := { m.host with
      work := m.host.work.map fun (d : HostCmd) =>
        if d.stream = c.stream ∧ d.seq = c.seq then c else d } }

/-- N_s advances to an answered number (R322); N_7 of host-local commands stands on the host side (R510). -/
def Hw.advanceN (m : Hw) (c : HostCmd) : Hw :=
  if c.hostSide then { m with host := { m.host with n7 := max m.host.n7 c.seq } }
  else m.wr (Reg.HOST_SEQ_N c.stream) (max (m.rd (Reg.HOST_SEQ_N c.stream)) c.seq)

/-- Answers of a stream that may go out: those before its first unanswered command (R316). -/
def answersDue (n : Nat) (w : List HostCmd) : List HostCmd :=
  ((w.filter fun c => c.stream == n).takeWhile fun c => c.stage == 3 || c.stage == 4).filter fun c => !c.sent

/-- Results and places as the mailbox shows them (R416, R430). -/
def Hw.showMailbox (m : Hw) : Hw :=
  let ps := m.host.mbx.places
  let full := (List.range 8).foldl (fun v n =>
    if (ps.filter fun (p : Place) => p.stream == n).length < 16 then v else v + 2 ^ n) 0
  let m := ((m.wr Reg.MBX_STATUS_RESULTS m.host.mbx.results.length).wr Reg.MBX_STATUS_PLACES ps.length).wr
    Reg.MBX_STATUS_FULL full
  match m.host.mbx.results with
  | [] => (m.wr Reg.MBX_RES_INFO_STREAM 0).wr Reg.MBX_RES_INFO_LEN 0
  | r :: _ => (m.wr Reg.MBX_RES_INFO_STREAM r.stream).wr Reg.MBX_RES_INFO_LEN r.bytes.length

/-- The head result shown in the window, 64 bytes from the page (R416). -/
def Hw.showResult (m : Hw) : Hw :=
  let bs := match m.host.mbx.results with
    | [] => []
    | r :: _ => slice r.bytes (64 * m.rd Reg.MBX_CTL_RES_PAGE) 64
  (List.range 64).foldl (fun m i => m.wr (Reg.MBX_RES_RESULT i) (bs.getD i 0).toNat) m

/-- A result put in the result queue of a place, in arrival order (R416, R417): the place is filled once. -/
def Hw.postResult (m : Hw) (stream seq : Nat) (bytes : List Byte) : Hw :=
  let fills := fun (p : Place) => p.stream == stream && p.seq == seq && !p.answered
  if m.host.mbx.places.any fills then
    let k := (m.host.mbx.places.takeWhile fun p => !fills p).length
    let ps := m.host.mbx.places.mapIdx fun i p => if i = k then { p with answered := true } else p
    let m := { m with host := { m.host with mbx := { m.host.mbx with
        places := ps, results := m.host.mbx.results ++ [ResultEntry.mk stream bytes] } } }
    let m := if numAt bytes 6 1 = stVOID then m.bump Reg.MBX_EVENTS_VOIDS else m
    ((m.showMailbox).showResult).alertSet 0
  else m

/-- A command's answer goes out: as TM_RESULT, or into the result queue where H2 HOSTPORT ran it. -/
def Hw.sendAnswer (m : Hw) (c : HostCmd) : Hw :=
  let m := if c.jsn.isSome || (c.cmd == cmdSTREAM_RESET && c.status == stOK) then m else m.advanceN c
  if c.hostSide then m.postResult c.stream c.seq c.result else m.sendF 0x11 c.result

/-- The answers of a stream that are due go out in number order (R316, R317). -/
def Hw.flushAnswers (m : Hw) (n : Nat) : Hw :=
  let go := answersDue n m.host.work
  let m := { m with host := { m.host with
      work := m.host.work.map fun (c : HostCmd) =>
        if go.contains c then { c with sent := true, stage := if c.hostSide then 4 else c.stage } else c } }
  (go.foldl Hw.sendAnswer m).settleWork

/-- The results of the last 16 commands of a stream that changed state (R322). -/
def putCache (x : Cached) (l : List Cached) : List Cached :=
  let mine := l.filter fun c => c.stream == x.stream && c.seq != x.seq
  (l.filter fun c => c.stream != x.stream) ++ lastN 15 mine ++ [x]

/-- A command has its answer: its ticket is DONE, the result of an action is cached, and what is due goes out. -/
def Hw.answerCmd (m : Hw) (c : HostCmd) (a : Answer) : Hw :=
  let c := { c with
    stage := 3, status := a.status, data := a.data
    rflags := c.rflags ||| a.rflags ||| (if c.durable then 2 else 0) }
  let m := m.setWork c
  let m := if c.acts && a.status != stVOID then
      { m with host := { m.host with cache := putCache (Cached.mk c.stream c.seq c.result) m.host.cache } }
    else m
  let st := if a.status = stVOID then TktState.void else if a.status = stFAILED then TktState.failed else TktState.done
  let m := if c.hostSide then m else m.setTicket c.tkt fun t => { t with state := st }
  m.flushAnswers c.stream

/-! Running. -/

/-- The oldest command with a code on a stream that has been taken and not run. -/
def Hw.nextCmd (m : Hw) (s code : Nat) : Option HostCmd :=
  m.host.work.find? fun (c : HostCmd) => c.stream == s && c.cmd == code && (c.stage == 0 || c.stage == 5)

/-- Commands of the stream taken before a command. -/
def Hw.earlier (m : Hw) (c : HostCmd) : List HostCmd :=
  (m.host.work.filter fun (d : HostCmd) => d.stream == c.stream).takeWhile fun d => d.seq != c.seq

/-- An engine is fenced permanently (R341, R342). -/
def Hw.permFenced (m : Hw) (e : Engine) : Bool := m.bit Reg.FLT_PERM_E_ENGINES e.id

/-- A command may not run yet: an earlier action of its stream has not been applied (R322), or its engine is away; the
ROM needs no engine in permafrost (R520). A stream reset waits for every earlier command. -/
def Hw.mustWait (m : Hw) (c : HostCmd) : Bool :=
  (c.acts && (m.earlier c).any fun d => d.acts && (d.stage == 0 || d.stage == 1 || d.stage == 2 || d.stage == 5)) ||
    (c.cmd == cmdSTREAM_RESET && (m.earlier c).any fun d => !d.sent) ||
    (m.mode != modePERMAFROST && !c.hostSide && m.away (cmdEngine c.cmd) && !m.permFenced (cmdEngine c.cmd))

/-- What refuses a command whatever its arguments say: permafrost, SERVICE, a permanent fence, missing arguments, a full
journal (R415, R520, R341, R323). -/
def Hw.gate (m : Hw) (c : HostCmd) : Option Answer :=
  if m.mode = modePERMAFROST ∧ ¬ frostCodes.contains c.cmd ∧ ¬ c.hostSide then some (answer stACCESS [])
  else if serviceCodes.contains c.cmd ∧ ¬ m.inService ∧ ¬ c.hostSide then some (answer stACCESS [])
  else if m.permFenced (cmdEngine c.cmd) ∧ ¬ c.hostSide then some (answer stENGINE_FENCED (le 1 (cmdEngine c.cmd).id))
  else if c.args.length < argBytes c.cmd then some (badArg c.args.length)
  else if c.durable ∧ m.on Reg.JRN_STATUS_FULL ∧ c.cmd ≠ cmdRELEASE then some (answer stJOURNAL_FULL [])
  else none

/-- JR_HOST_CMD (R274). -/
def Hw.cmdRec (m : Hw) (c : HostCmd) (status : Nat) : JRec :=
  m.mkRec JR.HOST_CMD 0x10 (le 1 c.stream ++ le 1 0 ++ le 2 c.cmd ++ le 4 c.seq ++ le 2 status ++
    le 2 (min c.args.length 216) ++ c.args.take 216)

/-- A refused command is answered with its refusal and counts as applied (R321); a durable one leaves its record, but
for JOURNAL_FULL. -/
def Hw.refuseCmd (m : Hw) (c : HostCmd) (a : Answer) : Hw :=
  let m := if c.durable && a.status != stJOURNAL_FULL then m.submitRec (m.cmdRec c a.status) else m
  m.answerCmd c a

/-- A durable command is validated: it reserves the space of its record and waits for the commit, or waits in ISSUED
where that does not fit (R320, R321). -/
def Hw.validated (m : Hw) (c : HostCmd) : Hw :=
  if m.rd Reg.JRN_STAGE_STAGED + m.reservedSpace + recordCost c.cmd c.args.length ≤ m.allow then
    (m.setWork { c with stage := 1 }).setTicket c.tkt fun t => { t with state := .running }
  else m.setWork { c with stage := 5 }

/-- The oldest command of a code on a stream: refused by the gate or by its own check, validated where it is durable,
else run. -/
def Hw.runCmd (m : Hw) (s code : Nat) (check : Hw → HostCmd → Option Answer) (act : Hw → HostCmd → Hw × Answer) : Hw :=
  match m.nextCmd s code with
  | none => m
  | some c =>
    if m.mustWait c then m
    else
      match (m.gate c).or (check m c) with
      | some a => m.refuseCmd c a
      | none =>
        if c.durable then m.validated c
        else
          let r := act m c
          r.1.answerCmd c r.2

/-- A check that refuses nothing. -/
def noCheck (_ : Hw) (_ : HostCmd) : Option Answer := none

/-- The command that waits for a ticket in another stream. -/
def Hw.cmdOfInner (m : Hw) (n : Nat) : Option HostCmd :=
  m.host.work.find? fun (c : HostCmd) => c.stage == 2 && c.inner == some n

/-- The command whose work was a ticket gets its answer when that ticket retires (R315). -/
def Hw.innerDone (m : Hw) (n : Nat) (a : Answer) : Hw :=
  match m.cmdOfInner n with
  | some c => m.answerCmd c a
  | none => m

/-- A VOID answer carries the reset epoch (R327). -/
def Hw.voidAnswer (m : Hw) : Answer := answer stVOID (le 4 (m.rd Reg.TKT_EPOCH_EPOCH))

/-! Taking a command (R322, R368, R414). -/

/-- The highest number taken on a stream after its newest stream reset. -/
def takenMax (n : Nat) (w : List HostCmd) : Nat :=
  (w.filter fun (c : HostCmd) => c.stream == n).foldl (fun v c =>
    if c.cmd = cmdSTREAM_RESET ∧ 3 ≤ c.stage ∧ c.stage ≤ 4 ∧ c.status = stOK then c.arg 0 4 else max v c.seq) 0

/-- The number that a stream expects next. -/
def Hw.nextSeq (m : Hw) (n : Nat) (hostSide : Bool) : Nat :=
  max (if hostSide then m.host.n7 else m.rd (Reg.HOST_SEQ_N n)) (takenMax n m.host.work) + 1

/-- A command that is role-bound: TIME_SET, RELEASE, and a write of `TWN_CTL` that selects RESIGN (R412, R414). -/
def roleBound (cmd : Nat) (args : List Byte) : Bool :=
  cmd == cmdTIME_SET || cmd == cmdRELEASE || (cmd == cmdREG_WRITE && numAt args 0 2 == 0x1E24 && numAt args 4 4 % 2 == 1)

/-- The module's own role epoch: 0 in SINGLE (R414). -/
def Hw.roleEpoch (m : Hw) : Nat := if m.twn = twnSINGLE then 0 else m.rd Reg.TWN_EPOCH_EPOCH

/-- The position of the module in LEAD: this one's while it numbers the journal (R367). -/
def Hw.leadPosition (m : Hw) : Nat := if m.numbers then m.rd Reg.TWN_CFG_POSITION else m.twin.leadPos

/-- A role-bound command is refused (R368). -/
def Hw.staleRole (m : Hw) (epoch : Nat) : Bool := epoch != m.roleEpoch || !m.numbers

/-- An answer that answers no command of the sequence: no ticket, and N_s stays (R322). -/
def Hw.sideAnswer (m : Hw) (seq cmd status : Nat) (data : List Byte) : Hw :=
  m.sendF 0x11 (resultBytes seq cmd status 0 data)

/-- A command is entered on its stream; a code without a name is answered UNKNOWN (R415). -/
def Hw.enterCmd (m : Hw) (c : HostCmd) : Hw :=
  let m := { m with host := { m.host with work := m.host.work ++ [c] } }
  if namedCodes.contains c.cmd then m else m.answerCmd c (answer stUNKNOWN [])

/-- What the sequence of a stream says of a number (R322): the command is entered where `take` gives it an entry. -/
def Hw.bySequence (m : Hw) (c : HostCmd) (take : Hw → HostCmd → Hw) (out : Hw → Nat → List Byte → Hw) : Hw :=
  let n := if c.hostSide then m.host.n7 else m.rd (Reg.HOST_SEQ_N c.stream)
  let next := m.nextSeq c.stream c.hostSide
  if m.host.work.any fun (d : HostCmd) => d.stream == c.stream && d.seq == c.seq then m.bump Reg.HOST_RESEND_ABSORBED
  else if c.seq = next then take m c
  else if next < c.seq then out (m.bump Reg.HOST_RESEND_GAPS) stSEQ_GAP (le 4 n)
  else if c.seq + 15 < n then out (m.bump Reg.HOST_RESEND_STALE) stSEQ_STALE (le 4 n)
  else
    match m.host.cache.find? fun (x : Cached) => x.stream == c.stream && x.seq == c.seq with
    | some x =>
      let bs := x.bytes.take 7 ++ le 1 (numAt x.bytes 7 1 ||| 1) ++ x.bytes.drop 8
      if c.hostSide then m.postResult c.stream c.seq bs else m.sendF 0x11 bs
    | none =>
      if c.acts then out (m.bump Reg.HOST_RESEND_STALE) stSEQ_STALE (le 4 n) else take m { c with rflags := 1 }

/-- A ticket issues for the command and it is entered; it stays with the host side's message where none can issue. -/
def Hw.ticketCmd (m : Hw) (c : HostCmd) : Option Hw :=
  match m.issue (8 + c.stream) 0x10 0 0 c.durable (!c.acts) false with
  | some (m', n) => some (m'.enterCmd { c with tkt := n })
  | none => none

/-- The command that a TM_CMD payload spells (R410). -/
def cmdOfPayload (p : List Byte) (stream : Nat) (hostSide : Bool) : HostCmd :=
  { stream := stream, seq := numAt p 0 4, cmd := numAt p 4 2, flags := numAt p 6 1, epoch := numAt p 8 4
    args := slice p 12 (numAt p 7 1), tkt := 0, stage := 0, status := 0, rflags := 0, data := [], sent := false
    jsn := none, inner := none, hostSide := hostSide }

/-- A delivered TM_CMD is acted on (R322, R368). -/
def Hw.takeCmd (m : Hw) (x : Msg) (rest : List Msg) : Hw :=
  let c := cmdOfPayload x.payload (x.stream - 8) false
  let m' := { m with host := { m.host with f := { m.host.f with inbox := rest } }
                     modes := { m.modes with svcIdle := 0 } }
  if roleBound c.cmd c.args && m.staleRole c.epoch then
    (m'.fault Kind.EPOCH_STALE 1).sideAnswer c.seq c.cmd stEPOCH_STALE (le 4 m.roleEpoch ++ le 1 m.leadPosition)
  else
    m'.bySequence c (fun h d => (h.ticketCmd d).getD m) fun h st data => h.sideAnswer c.seq c.cmd st data

end Sys2Proof.Machine
end

