-- ==== Sys2Proof/Machine/Tickets.lean ====
section
/-! DEFINITION. What becomes of a ticket that fails or is voided, and what becomes of open history entries (R316, R324
to R327, R339). -/

namespace Sys2Proof.Machine

/-- A ticket fails (R324, R325): an idempotent one goes to REPLAY up to three times; accepted work, and what serves it in
NAND_PROG and SEAL, is then HELD and any other FAILED. -/
def Hw.failTicket (m : Hw) (n : Nat) : Hw :=
  match m.ticket n with
  | none => m
  | some t =>
    let kept := t.acc || t.stream = 1 || t.stream = 4
    if (t.idem || kept) && decide (t.replay < 3) then
      (m.setTicket n fun t => { t with state := .replay, replay := t.replay + 1 }).bump Reg.TKT_EVENTS_REPLAYS
    else if kept then
      if t.state = .held then m
      else (m.setTicket n fun t => { t with state := .held }).faultAt Kind.STREAM_HELD t.owner t.stream
    else
      ((m.setTicket n fun t => { t with state := .failed }).bump Reg.TKT_EVENTS_FAILED).faultAt Kind.TICKET_FAILED t.owner n

/-- A ticket has failed for good or is VOID: it retires in its place. -/
def TktState.lost : TktState → Bool
  | .failed => true
  | .void => true
  | _ => false

/-- The state of a ticket; a free number reads VOID. -/
def Hw.tktState (m : Hw) (n : Nat) : TktState := match m.ticket n with | some t => t.state | none => .void

/-- Tickets that a test selects become VOID; how many did (R327). -/
def Hw.voidTickets (m : Hw) (p : Ticket → Bool) : Hw × Nat :=
  let hit := fun (t : Ticket) => p t && t.state != .void
  let k := (m.tkt.table.filter hit).length
  let m := { m with tkt := { m.tkt with
      table := m.tkt.table.map fun (t : Ticket) => if hit t then { t with state := .void } else t } }
  ((m.add Reg.TKT_EVENTS_VOIDED k).showTickets, k)

/-- The result that a lost ticket gives the command that waited for it (R315, R327). -/
def Hw.lostAnswer (m : Hw) (n : Nat) : Answer :=
  match m.ticket n with
  | some t => if t.state = .void then m.voidAnswer else answer stFAILED (le 4 (wordOf Kind.TICKET_FAILED t.owner n))
  | none => m.voidAnswer

/-- A transaction of the sensor bus ends with its ticket (R316, R391): the host command that waited for it is
answered, and the next read of a smart-pack sequence is issued (R393). -/
def Hw.endBus (m : Hw) (x : BusOp) (a : Answer) : Hw :=
  let lost := (m.tktState x.tkt).lost
  let m := (({ m with bus := { m.bus with ops := m.bus.ops.filter fun (y : BusOp) => y.tkt != x.tkt } }).dropTicket
    x.tkt).innerDone x.tkt a
  if x.addr == 0x0B && x.host.isNone then m.packReadDone lost else m

/-- Transactions whose tickets are VOID end (R327, R396). -/
def Hw.settleBus (m : Hw) : Hw :=
  (m.bus.ops.filter fun (x : BusOp) => m.tktState x.tkt == .void).foldl (fun m x => m.endBus x m.voidAnswer) m

/-- The lowest severity that DEGRADED and the open count are shown from: `FLT_STATUS` follows the history (R337, R338,
R343). -/
def Hw.showHist (m : Hw) : Hw :=
  let isOpen := m.flt.hist.filter (·.isOpen)
  ((m.wr Reg.FLT_STATUS_LEVEL m.flt.hist.length).wr Reg.FLT_STATUS_OPEN (min 15 isOpen.length)).wrB Reg.FLT_STATUS_DEGRADED
    (isOpen.any fun (e : HistEntry) => e.react == 1)

/-- Open entries that a test selects close (R335, R339). -/
def Hw.closeEntries (m : Hw) (p : HistEntry → Bool) : Hw :=
  ({ m with flt := { m.flt with
      hist := m.flt.hist.map fun (e : HistEntry) => if e.isOpen && p e then { e with isOpen := false } else e } }).showHist

/-- A part fault closes (R329); `DOUBLE` clears when the history has been read and none is open. -/
def Hw.closePart (m : Hw) (src : Nat) : Hw :=
  { m with flt := { m.flt with parts := m.flt.parts.filter fun p => p != src } }

end Sys2Proof.Machine
end

