-- ==== Sys2Proof/Machine/Measure.lean ====
section
/-! DEFINITION. The measurement subsystem: slices, results and their queue, calibration, the reference (chapter 08). -/

namespace Sys2Proof.Machine

/-! Channels (R245, R246). -/

/-- B channels are coded in two's complement; AIN1 to AIN4 in their ±10 V range. -/
def Hw.bipolar (m : Hw) (tag : Nat) : Bool :=
  tag = 1 || (4 ≤ tag && tag ≤ 8) || (13 ≤ tag && tag ≤ 15) || tag = 36 || tag = 38 || (40 ≤ tag && tag ≤ 43) ||
    (32 ≤ tag && tag ≤ 35 && bitAt m.adc.rng (tag - 32))

/-- The multiplexer bank of a tag (R262). -/
def bankOf (tag : Nat) : Nat := if tag < 24 then 0 else if tag < 37 then 1 else 2

/-- Conversions of an averaging code (R250): codes 5 to 7 have no stated count, and theirs is a free value
(notes/assumptions/124.md). -/
def avgCount (code : Nat) : Nat := if code ≤ 4 then 4 ^ code else max 1 (Config.avgCount code)

/-- The clamp codes above and below a channel's range (R262). -/
def Hw.clampCode (m : Hw) (tag : Nat) (high : Bool) : Int :=
  if m.bipolar tag then (if high then 0x1FFFF else -0x20000) else (if high then 0x3FFFF else 0)

/-! The calibration record (R263). -/

/-- A byte of a NOR image; an unlisted one is erased. -/
def imgByte (img : NorImage) (a : Nat) : Byte :=
  match img.find? (fun e => e.1 == a) with
  | some e => e.2
  | none => 0xFF

/-- Bytes of a NOR image. -/
def imgBytes (img : NorImage) (o n : Nat) : List Byte := (List.range n).map fun i => imgByte img (o + i)

/-- A little-endian number in a NOR image. -/
def imgNum (img : NorImage) (o n : Nat) : Nat := ofLe (imgBytes img o n)

/-- A byte programmed in an image, offsets rising; an erased byte is not listed. -/
def putImg (a : Nat) (b : Byte) : NorImage → NorImage
  | [] => if b = 0xFF then [] else [(a, b)]
  | (c, d) :: xs =>
    if a < c then (if b = 0xFF then (c, d) :: xs else (a, b) :: (c, d) :: xs)
    else if a = c then (if b = 0xFF then xs else (a, b) :: xs)
    else (c, d) :: putImg a b xs

/-- Bytes programmed from an offset. -/
def putImgBytes (img : NorImage) (o : Nat) : List Byte → NorImage
  | [] => img
  | b :: bs => putImgBytes (putImg o b img) (o + 1) bs

/-- GAIN and OFFSET of a tag, in the ±10 V range for an AIN that is set to it. -/
def Hw.traceable (m : Hw) (tag : Nat) : Int × Int :=
  if m.adc.inUse = [] then (0, 0)
  else
    let o := if 32 ≤ tag ∧ tag ≤ 35 ∧ bitAt m.adc.rng (tag - 32) then 0x1D0 + 8 * (tag - 32) else 0x50 + 8 * tag
    (signedOf 32 (imgNum m.adc.inUse o 4), signedOf 32 (imgNum m.adc.inUse (o + 4) 4))

/-- A record's CRC passes (R263). -/
def calCrcOk (img : NorImage) : Bool := crc32c (imgBytes img 0 0x230) == imgNum img 0x230 4

/-- A record's signature is the instrument maker's (R263). -/
def Hw.calSigOk (m : Hw) (img : NorImage) : Bool :=
  match m.modes.keySlot with
  | some k => Config.ed25519Verify k (imgBytes img 0 0x1F0) (imgBytes img 0x1F0 64)
  | none => false

/-- A record qualifies (R264). -/
def Hw.calOk (m : Hw) (img : NorImage) : Bool :=
  calCrcOk img && (!m.on Reg.ADC_CFG_CAL_SIGN_REQ || m.calSigOk img)

/-! Results. -/

/-- The nearest whole number to a quotient, halves upward. -/
def roundDiv (a : Int) (b : Int) : Int := (2 * a + b) / (2 * b)

/-- A slice. -/
def Hw.slice (m : Hw) (i : Nat) : Slice :=
  m.adc.slices.getD i { offset := 0, gain := 0, weights := [], calAt := none, fails := 0, recover := 0, ovrBank := 0, ovrEnd := none }

/-- A slice replaced. -/
def Hw.setSlice (m : Hw) (i : Nat) (x : Slice) : Hw := { m with adc := { m.adc with slices := m.adc.slices.set i x } }

/-- The background constants of R247 applied to the sum of `n` codes; constants of zero leave it (notes/assumptions/124.md). -/
def applyBackground (offset gain : Int) (weights : List Int) (n sum : Int) : Int :=
  if offset = 0 ∧ gain = 0 ∧ weights = [] then sum else Config.background offset gain weights n sum

/-- The offset and gain of the path of AIN1 to AIN4 in its present range (R258): five slices stand before the paths. -/
def Hw.pathConst (m : Hw) (tag : Nat) : Int × Int :=
  if 32 ≤ tag ∧ tag ≤ 35 then m.adc.fgConst.getD (5 + 2 * (tag - 32) + b2n (bitAt m.adc.rng (tag - 32))) (0, 0) else (0, 0)

/-- The corrected mean of a run (R247, R250, R263): in-range codes take the slice's and the path's background constants, then
the channel's traceable ones; clamp codes take none. -/
def Hw.corrected (m : Hw) (tag n : Nat) (x : Samples) : Int :=
  let c := m.traceable tag
  let sl := m.slice x.slice
  let k : Int := (n : Int) - x.above - x.below
  let p := m.pathConst tag
  let sum := applyBackground p.1 p.2 [] k (applyBackground sl.offset sl.gain sl.weights k x.sum)
  let inside := (256 * sum - k * c.2) * (100000000 + c.1)
  let outside := ((x.above : Int) * m.clampCode tag true + (x.below : Int) * m.clampCode tag false) * 25600000000
  roundDiv (inside + outside) (25600000000 * (n : Int))

/-- A value lies in a channel's number format. -/
def Hw.inFormat (m : Hw) (tag : Nat) (v : Int) : Bool :=
  decide (m.clampCode tag false ≤ v) && decide (v ≤ m.clampCode tag true)

/-- The code that a corrected value is stored as; a value that no code states is a free value. -/
def Hw.codeOf (m : Hw) (tag : Nat) (v : Int) : Nat × Hw :=
  if m.inFormat tag v then (unsignedOf 18 v, m) else (m.freeBelow (2 ^ 18), m.drew)

/-- A slice whose last passed calibration is older than 2.5 s (R256). -/
def Hw.sliceStale (m : Hw) (i : Nat) : Bool :=
  match (m.slice i).calAt with
  | some t => decide (500000000 < m.now - t)
  | none => true

/-- CAL_STALE of a result of a tag on a slice (R246, R256, R258, R261, R264, R265, R490). -/
def Hw.calStale (m : Hw) (i tag : Nat) : Bool :=
  m.sliceStale i || !m.adc.fgDone || m.adc.refMon || m.on Reg.CAL_SEQ_NOMINAL || m.adc.degradedBist ||
    (m.on Reg.ADC_CFG_DUE_FLAG && m.on Reg.ADC_STATUS_DUE_PASSED) ||
    (32 ≤ tag && tag ≤ 35 && bitAt m.adc.rngStale (tag - 32))

/-- Another slice's out-of-range sample of the same bank ended at most 2.0 µs before a conversion of the run (R262). -/
def Hw.bankRecovers (m : Hw) (i tag t n : Nat) : Bool :=
  (List.range 5).any fun j =>
    j != i && (m.slice j).ovrBank == bankOf tag &&
      (match (m.slice j).ovrEnd with
       | some e => decide (m.seq.tickAt + t ≤ e + 400) && decide (e ≤ m.seq.tickAt + t + (n - 1) * 200)
       | none => false)

/-- The flags of a result, from OVR in bit 0 to CAL_STALE in bit 4 (R253). -/
def Hw.resultFlags (m : Hw) (tag n : Nat) (x : Samples) (injected : Bool) : Nat :=
  let out := x.above + x.below
  let recovers := (m.slice x.slice).recover != 0 || decide (1 < out) || (out == 1 && x.after != 0) ||
    m.bankRecovers x.slice tag x.t n
  let unsettled := match m.adc.refAt with | some a => decide (m.seq.tickAt + x.t < a + 400000) | none => true
  b2n (out != 0) + 2 * b2n recovers + 4 * b2n unsettled + 8 * b2n injected + 16 * b2n (m.calStale x.slice tag)

/-- An out-of-range result is counted, and recorded once per run of frames in which its tag overranges (R262). -/
def Hw.overranged (m : Hw) (tag : Nat) : Hw :=
  let m := m.bump Reg.ADC_EVENTS_OVR
  let said := m.adc.ovrRuns.any fun r => r.1 == tag
  let m := { m with adc := { m.adc with ovrRuns := (m.adc.ovrRuns.filter fun r => r.1 != tag) ++ [(tag, 0)] } }
  if said then m else m.fault Kind.ADC_OVR tag

/-- The slice after a run: RECOVERY of its next results, and the end of its newest out-of-range sample (R262). -/
def Hw.afterRun (m : Hw) (tag n : Nat) (x : Samples) : Hw :=
  let sl := m.slice x.slice
  if x.above + x.below = 0 then m.setSlice x.slice { sl with recover := sl.recover - n }
  else
    (m.setSlice x.slice { sl with
      recover := 2 - x.after, ovrBank := bankOf tag
      ovrEnd := some (m.seq.tickAt + x.t + (n - 1 - x.after) * 200) }).overranged tag

/-- The newest result of a tag, as the register shows it (R270). -/
def Hw.showLast (m : Hw) (e : QEntry) : Hw :=
  (m.wr (Reg.ADC_LAST_VALUE e.tag) e.value).wr (Reg.ADC_LAST_FLAGS e.tag) e.flags

/-- The queue's level, high-water mark and head (R253, R270). -/
def Hw.showQueue (m : Hw) : Hw :=
  let n := m.adc.queue.length
  ((m.wr Reg.ADC_Q_LEVEL n).wr Reg.ADC_Q_HWM (max n (m.rd Reg.ADC_Q_HWM))).wr Reg.ADC_Q_FRN_FRN
    (match m.adc.queue with | e :: _ => e.frn | [] => 0)

/-- The 64 bits of a queue entry (R253). -/
def QEntry.bits (e : QEntry) : Nat :=
  e.value % 2 ^ 18 + e.tag % 64 * 2 ^ 18 + e.slice % 8 * 2 ^ 24 + e.flags % 32 * 2 ^ 27 + e.cyc4 % 2 ^ 15 * 2 ^ 32 +
    e.slot % 256 * 2 ^ 47 + e.frn % 512 * 2 ^ 55

/-- The entry that a run of conversions gives, the slice after it (R247, R253, R262). -/
def Hw.entryOf (m : Hw) (tag n : Nat) (x : Samples) (injected host : Bool) (tkt : Nat) : QEntry × Hw :=
  let flags := m.resultFlags tag n x injected
  let v := m.codeOf tag (m.corrected tag n x)
  let sl := slotOf m.seq.len x.t
  let e : QEntry :=
    { value := v.1, tag := tag, slice := x.slice, flags := flags, cyc4 := (x.t - slotStart m.seq.len sl) / 4, slot := sl
      frn := m.frn, host := host, sent := false, tkt := tkt }
  (e, (v.2.afterRun tag n x).showLast e)

/-- Entries for the host go out in TM_ADC, at most 30 to a message (R254, R406). -/
def Hw.sendAdc (m : Hw) : Nat → Hw
  | 0 => m
  | fuel + 1 =>
    let due := (m.adc.queue.filter fun (e : QEntry) => e.host && !e.sent).take 30
    match due with
    | [] => m
    | e :: _ =>
      let m := m.sendF 0x14 (le 4 e.frn ++ le 1 due.length ++ le 3 0 ++ due.flatMap fun x => le 8 x.bits)
      ({ m with adc := { m.adc with
          queue := m.adc.queue.map fun (x : QEntry) => if due.contains x then { x with sent := true } else x } }).sendAdc fuel

/-- Entries of regular sequences whose TM_ADC has been dropped wait again (R254, R268): an entry leaves the queue when the host
side has acknowledged it. -/
def Hw.resendAdc (m : Hw) : Hw :=
  let again := fun (e : QEntry) => if e.host && !bitAt e.flags 3 then { e with sent := false } else e
  { m with adc := { m.adc with queue := m.adc.queue.map again } }

/-- Undelivered results of injected tickets made VOID are discarded (R268). -/
def Hw.dropInjected (m : Hw) : Hw :=
  ({ m with adc := { m.adc with queue := m.adc.queue.filter fun (e : QEntry) => !(e.host && bitAt e.flags 3) } }).showQueue

/-- Thaw: what waits for the host is sent (R254). -/
def Hw.sendAdcThaw (m : Hw) : Hw := if m.frozen then m else m.sendAdc 40

/-- Injected conversions for which no result is in yet, at most as many as slices are active: each boundary takes the oldest one
pending (R248, R251). -/
def Hw.injPending (m : Hw) : List Nat :=
  (m.adc.inj.filter fun (c : Conv) => c.result.isNone && !(m.tktState c.tkt).lost && !(m.tktState c.tkt == .held)).map (·.tkt)

/-- The active slices. -/
def Hw.activeCount (m : Hw) : Nat := ((List.range 5).filter fun i => m.bit Reg.ADC_STATUS_ACTIVE i).length

/-- A result enters the queue as it retires (R252); an engine takes its own at delivery, while F5 MEASURE runs (R254,
R268). -/
def Hw.enqueue (m : Hw) (e : QEntry) : Hw :=
  let m := ({ m with adc := { m.adc with queue := m.adc.queue ++ [e] } }).showQueue
  if e.host || m.away .f5 then m
  else ({ m with adc := { m.adc with queue := m.adc.queue.dropLast } }).showQueue

/-- Entries that engines have waited for are delivered when F5 MEASURE is back (R268). -/
def Hw.deliver (m : Hw) : Hw :=
  if m.away .f5 then m
  else ({ m with adc := { m.adc with queue := m.adc.queue.filter fun (e : QEntry) => e.host } }).showQueue

/-- The results that may retire, and what stays: a tag waits for its earliest result, and a lost ticket has none
(R252, R316). -/
def splitConvs (lost : Nat → Bool) : List Nat → List Conv → List Conv × List Conv
  | _, [] => ([], [])
  | held, c :: cs =>
    if held.contains c.tag || (c.result.isNone && !lost c.tkt) then
      let r := splitConvs lost (c.tag :: held) cs
      (c :: r.1, r.2)
    else
      let r := splitConvs lost held cs
      (r.1, c :: r.2)

/-- One result retires: its entry is queued, its ticket leaves the table, and a host command that waited for it is
answered (R315, R317). -/
def Hw.retireConv (m : Hw) (c : Conv) : Hw :=
  let st := m.tktState c.tkt
  if st.lost then
    let m := m.dropTicket c.tkt
    m.innerDone c.tkt (if st = .void then m.voidAnswer
      else answer stFAILED (le 4 (wordOf Kind.TICKET_FAILED 0x15 c.tkt)))
  else
    match c.result with
    | none => m
    | some e =>
      let hosted := (m.cmdOfInner c.tkt).isSome
      let e := { e with host := e.host || hosted, sent := hosted }
      ((m.enqueue e).dropTicket c.tkt).innerDone c.tkt (okWith (le 8 e.bits))

/-- What may retire does. -/
def Hw.retireConvs (m : Hw) : Hw :=
  let r := splitConvs (fun n => (m.tktState n).lost) [] m.adc.inj
  r.2.foldl Hw.retireConv { m with adc := { m.adc with inj := r.1 } }

/-- The index of an entry of the active plan's sequence (R52, R250). -/
def Hw.seqIndex (m : Hw) (e : Nat) : Nat := 16 * m.rd (Reg.FRM_PLANPOL_SEQ (m.rd Reg.FRM_STATUS_PLAN)) + e

/-- A regular entry that finds no place beyond the reserve is skipped (R254). -/
def Hw.skipEntry (m : Hw) : Hw :=
  let said := m.adc.skipRun.isSome
  let m := ({ m with adc := { m.adc with skipRun := some 0 } }).bump Reg.ADC_EVENTS_SKIPPED
  if said then m else m.fault Kind.ADC_QUEUE_FULL 1

/-- An entry that starts after the end of its slot is late (R250). -/
def Hw.lateEntry (m : Hw) (tag : Nat) : Hw :=
  let said := m.adc.lateRun.isSome
  let m := ({ m with adc := { m.adc with lateRun := some 0 } }).bump Reg.ADC_EVENTS_LATE
  if said then m else m.fault Kind.ADC_SEQ_LATE tag

/-- An entry of a regular sequence is enabled, and its tag is no reserved one (R245, R250). -/
def Hw.seqOn (m : Hw) (i : Nat) : Bool := m.on (Reg.ADC_SEQ_EN i) && decide (m.rd (Reg.ADC_SEQ_TAG i) < 48)

/-- An entry put among those of its frame: slots rising, entries of one slot in their order (R250). -/
def putDue (i sl : Nat) : List (Nat × Option Nat) → List (Nat × Option Nat)
  | [] => [(i, some sl)]
  | d :: ds => if sl < d.2.getD 0 then (i, some sl) :: d :: ds else d :: putDue i sl ds

/-- The entries of the active plan's sequence that fall due in the frame that begins (R250). -/
def Hw.dueNow (m : Hw) : List (Nat × Option Nat) :=
  (List.range 16).foldl (fun l e =>
    let i := m.seqIndex e
    if m.seqOn i && decide (m.frn % 2 ^ m.rd (Reg.ADC_SEQ_DIV i) = 0) then putDue i (m.rd (Reg.ADC_SEQ_SLOT i)) l else l) []

/-- The sequence starts at a tick (R250, R260); what the frame before has left over still runs, in its order (R271). -/
def Hw.seqTick (m : Hw) : Hw :=
  let left := m.adc.due.map fun (d : Nat × Option Nat) => (d.1, (none : Option Nat))
  { m with adc := { m.adc with due := if m.adc.seqRun then left ++ m.dueNow else [] } }

/-- SEQUENCE_ENTRY_DUE (R248, R250, R252, R254): the averaged conversion of the oldest due entry, from the start of its slot on, at a
boundary that no injected conversion takes; its acquisition began 300 ns before its sampling instant. An entry for which no
ticket issues stays due. -/
def execSequenceEntryDue (e : Fin 16) (x : Samples) (s : State) : Host.Outcome State Fault Refusal :=
  effect s fun m =>
    match m.adc.due.dropWhile fun (d : Nat × Option Nat) => !m.seqOn d.1 with
    | [] => m
    | d :: ds =>
    let i := d.1
    let tag := m.rd (Reg.ADC_SEQ_TAG i)
    let early := match d.2 with | some sl => decide (x.t < slotStart m.seq.len sl + 60) | none => false
    let late := match d.2 with | some sl => decide (slotStart m.seq.len (sl + 1) + 60 ≤ x.t) | none => true
    if i % 16 ≠ e.val ∨ early = true ∨ ¬ m.bit Reg.ADC_STATUS_ACTIVE x.slice ∨ m.activeCount ≤ m.injPending.length then m
    else
      let m0 := m
      let m : Hw := { m.atT x.t with adc := { (m.atT x.t).adc with due := ds } }
      if 992 ≤ m.adc.queue.length then m.skipEntry
      else
        match m.issue 17 0x15 tag (0x28 + x.slice) false true false with
        | none => m0
        | some (m, n) =>
          let host := m.on (Reg.ADC_SEQ_HOST i)
          let m := if late then m.lateEntry tag else m
          let r := m.entryOf tag (avgCount (m.rd (Reg.ADC_SEQ_AVG i))) x false host n
          let m := r.2.setTicket n fun t => { t with state := .done }
          let m := ({ m with adc := { m.adc with inj := m.adc.inj ++ [Conv.mk n tag 0 (some r.1)] } }).retireConvs
          if 30 ≤ (m.adc.queue.filter fun (q : QEntry) => q.host && !q.sent).length then m.sendAdcThaw else m

/-- INJECTED_CONVERSION_DONE (R248, R251, R252): of the pending conversions the oldest are under way, one on each active slice. -/
def execInjectedConversionDone (tkt : Fin 512) (x : Samples) (s : State) : Host.Outcome State Fault Refusal :=
  effect s fun m =>
    match m.adc.inj.find? fun (c : Conv) => c.tkt == tkt && c.result.isNone with
    | none => m
    | some c =>
      let st := m.tktState tkt
      if st.lost ∨ st = .held ∨ ¬ m.bit Reg.ADC_STATUS_ACTIVE x.slice ∨ ¬ (m.injPending.take m.activeCount).contains tkt.val then m
      else
        let m := m.atT x.t
        let r := m.entryOf c.tag (avgCount c.avg) x true false tkt
        let m := r.2.setTicket tkt fun t => { t with state := .done }
        ({ m with adc := { m.adc with
            inj := m.adc.inj.map fun (d : Conv) => if d.tkt = c.tkt then { d with result := some r.1 } else d } }).retireConvs

/-! Slices in and out of rotation. -/

/-- Usable slices: those not fenced. -/
def Hw.usable (m : Hw) : List Nat := (List.range 5).filter fun i => !m.bit Reg.ADC_STATUS_FENCED i

/-- The subsystem is degraded: fewer than two usable slices (R257). -/
def Hw.adcDegraded (m : Hw) : Bool := decide (m.usable.length < 2) || m.adc.degradedBist

/-- The first of a list of slices that follows slice `i` in the order of R256. -/
def nextSlice (i : Nat) (l : List Nat) : Option Nat :=
  (([1, 2, 3, 4, 5].map fun k => (i + k) % 5).filter fun j => l.contains j).head?

/-- The usable slices arranged as R257 gives, the spare kept where it can be. Which slice is the first spare the spec does not say:
the one that follows slice `gone` (DESIGN CHOICE, notes/assumptions/125.md). -/
def Hw.arrange (m : Hw) (gone : Nat) : Hw :=
  let u := m.usable
  let old := m.rd Reg.ADC_STATUS_SPARE
  let spare := if u.length < 4 then 7 else if u.contains old then old else (nextSlice gone u).getD 7
  let active := if u.length < 2 then [] else u.filter fun i => i != spare
  let m := { m with adc := { m.adc with spareReady := m.adc.spareReady && spare == old && spare != 7 } }
  ((m.wr Reg.ADC_STATUS_ACTIVE ((active.map fun i => 2 ^ i).sum)).wr Reg.ADC_STATUS_SPARE spare).wrB
    Reg.ADC_STATUS_ROT_STOP (decide (u.length < 4))

/-- A slice is fenced (R257, R340); ADC_DEGRADED is recorded as the second-last usable slice goes. -/
def Hw.fenceSlice (m : Hw) (i : Nat) : Hw :=
  if m.bit Reg.ADC_STATUS_FENCED i then m
  else
    let before := m.adcDegraded
    let m := (m.wrBit Reg.ADC_STATUS_FENCED i true).fenceBit (0x28 + i)
    let m := m.arrange i
    if m.adcDegraded && !before then m.fault Kind.ADC_DEGRADED m.usable.length else m

/-- SLICE_ROTATION (R256, R271): 250 ms after the one before, in the frame in which they run out, the spare takes the phase of the
next active slice, which becomes the spare; pending injected conversions that take every slice go first. -/
def execSliceRotation (s : State) : Host.Outcome State Fault Refusal :=
  effect s fun m =>
    let sp := m.rd Reg.ADC_STATUS_SPARE
    if sp = 7 ∨ ¬ m.adc.spareReady ∨ m.on Reg.ADC_STATUS_ROT_STOP ∨ m.seq.tickAt + m.seq.len < m.adc.rotAt + 50000000 ∨
        m.activeCount ≤ m.injPending.length then m
    else
      match nextSlice sp ((List.range 5).filter fun i => m.bit Reg.ADC_STATUS_ACTIVE i) with
      | none => m
      | some out =>
        let m := ((m.wrBit Reg.ADC_STATUS_ACTIVE sp true).wrBit Reg.ADC_STATUS_ACTIVE out false).wr Reg.ADC_STATUS_SPARE out
        let m := m.setSlice out { m.slice out with recover := 0 }
        { m with adc := { m.adc with spareReady := false, rotAt := max m.now (m.adc.rotAt + 50000000) } }

/-- The step at which a spare calibration fails, 0 where it passes (R255): offset, gain, verification. -/
def calStep (sl : Slice) (c : CalRun) : Nat :=
  let far := fun (a b lim : Int) => decide (lim < a - b) || decide (lim < b - a)
  if far c.offset 0 16384 || (sl.calAt.isSome && far c.offset sl.offset 2048) then 1
  else if far c.gain 0 500000 || (sl.calAt.isSome && far c.gain sl.gain 5000) then 3
  else if far c.verify 0 512 then 4
  else 0

/-- SPARE_CALIBRATION_DONE (R255, R257): a failed calibration is repeated once, then the slice is fenced. -/
def execSpareCalibrationDone (c : CalRun) (s : State) : Host.Outcome State Fault Refusal :=
  effect s fun m =>
    let i := m.rd Reg.ADC_STATUS_SPARE
    if i = 7 then m
    else
      let sl := m.slice i
      let step := calStep sl c
      if step = 0 then
        let m := m.setSlice i { sl with offset := c.offset, gain := c.gain, weights := c.weights, calAt := some m.now, fails := 0 }
        { m with adc := { m.adc with spareReady := true } }
      else if sl.fails = 0 then m.setSlice i { sl with fails := 1 }
      else
        let m := m.setSlice i { sl with fails := 0 }
        (m.faultAt Kind.ADC_CAL_FAIL (0x28 + i) (step + 16 * b2n (step = 4))).fenceSlice i

/-- ADC_SLICE_FAULT (R257): the slice is fenced and its injected conversion is repeated on another. -/
def execAdcSliceFault (slice : Fin 5) (timeout : Bool) (tkt : Option (Fin 512)) (s : State) :
    Host.Outcome State Fault Refusal :=
  effect s fun m =>
    let m := (m.faultAt Kind.ADC_SLICE_FAULT (0x28 + slice) (if timeout then 2 else 1)).fenceSlice slice
    match tkt with
    | some n =>
      if m.adc.inj.any fun (c : Conv) => c.tkt == n.val && c.result.isNone then (m.failTicket n).retireConvs else m
    | none => m

/-- The slice fences end (R257): at a write of `ADC_CTL.CLR_FENCE`, which closes the entry of ADC_DEGRADED (R339). -/
def Hw.clrSliceFence (m : Hw) : Hw :=
  let m := (m.wr Reg.ADC_STATUS_FENCED 0).arrange 4
  let m := (List.range 5).foldl (fun m i => m.wrBit Reg.FLT_FENCE_U_UNITS (8 + i) false) m
  let m := { m with flt := { m.flt with fences := m.flt.fences.filter fun (f : FenceSt) => f.id < 0x28 || 0x2C < f.id } }
  m.closeEntries fun e => e.word.kind == Kind.ADC_DEGRADED.code

/-- ADC_CLR_FENCE (R257): in SERVICE. -/
def execAdcClrFence (s : State) : Host.Outcome State Fault Refusal :=
  effect s fun m => if m.inService then m.clrSliceFence else m

/-! Foreground calibration and the reference. -/

/-- A foreground calibration starts (R258). -/
def Hw.startFg (m : Hw) : Hw := m.wr Reg.ADC_STATUS_FGCAL 1

/-- FOREGROUND_CAL_START (R258): at start-up and wake, by `FGCAL`, and by temperature where AUTO_FG is 1. -/
def execForegroundCalStart (tctl : Int) (s : State) : Host.Outcome State Fault Refusal :=
  effect s fun m =>
    let lim : Int := 512 * m.rd Reg.ADC_CFG_FG_DT
    let moved := decide (lim < tctl - m.adc.fgTemp) || decide (lim < m.adc.fgTemp - tctl)
    if !m.adc.fgDone || (m.on Reg.ADC_CFG_AUTO_FG && moved) then m.startFg else m

/-- The payload of JR_ADC_SELFCAL: TCTL in 1/128 °C and the change of each constant (R274). -/
def selfCalPayload (tctl : Int) (old new : List (Int × Int)) : List Byte :=
  le 2 (unsignedOf 16 (tctl / 4)) ++ (List.range 13).flatMap fun i =>
    let a := old.getD i (0, 0)
    let b := new.getD i (0, 0)
    le 2 (unsignedOf 16 (clampI (-32768) 32767 (b.1 - a.1))) ++ le 4 (unsignedOf 32 (b.2 - a.2))

/-- FOREGROUND_CAL_DONE (R258): the constants apply from the next tick. -/
def execForegroundCalDone (tctl : Int) (refmon : Nat) (consts : List (Int × Int)) (s : State) :
    Host.Outcome State Fault Refusal :=
  effect s fun m =>
    if m.on Reg.ADC_STATUS_FGCAL then
      let old := m.adc.fgConst
      let m := m.wr Reg.ADC_STATUS_FGCAL 0
      ({ m with adc := { m.adc with
          fgApply := some consts, fgDone := true, fgTemp := tctl, refmonRef := refmon, rngStale := 0 } }).record
        JR.ADC_SELFCAL 0x15 (selfCalPayload tctl old consts)
    else m

/-- The reference buffers are enabled (R260). -/
def Hw.refOn (m : Hw) : Hw :=
  { (m.wr Reg.ADC_STATUS_REF_ON 1).wr Reg.ADC_STATUS_REF_SETTLED 0 with
    adc := { m.adc with refAt := some m.now, seqRun := false, fgDone := false } }

/-- REF_SETTLED (R260): 2.0 ms after enable. -/
def execRefSettled (s : State) : Host.Outcome State Fault Refusal :=
  effect s fun m => if m.on Reg.ADC_STATUS_REF_ON then m.wr Reg.ADC_STATUS_REF_SETTLED 1 else m

/-- REF_MON (R261): a departure of more than ±0.5 %, recorded as it begins. -/
def execRefMon (ppm : Int) (s : State) : Host.Outcome State Fault Refusal :=
  effect s fun m =>
    if 5000 < ppm.natAbs then
      let said := m.adc.refMon
      let m := { m with adc := { m.adc with refMon := true, refQuiet := 0 } }
      if said then m else m.fault Kind.REF_MON ppm.natAbs
    else m

/-- The reference core is on: while F-ADC is on or a QR rail is enabled (R259). -/
def Hw.refCoreOn (m : Hw) : Bool := (m.domain .fAdc).on || m.on Reg.RAIL_STATUS_QR_ON

/-- REFOUT_LIMIT (R259): above 1.2 mA for 1 ms, while REFOUT is driven. -/
def execRefoutLimit (current : Nat) (s : State) : Host.Outcome State Fault Refusal :=
  effect s fun m =>
    if m.on Reg.ADC_CFG_REFOUT_EN ∧ m.refCoreOn ∧ 120 < current then m.fault Kind.REFOUT_LIMIT current else m

/-- ADC_OVR (R262): a conversion of the system scan beyond full scale. -/
def execAdcOvr (slice : Fin 5) (tag : Fin 48) (high : Bool) (t : Nat) (s : State) : Host.Outcome State Fault Refusal :=
  effect s fun m =>
    let x : Samples := { slice := slice, t := t, sum := 0, above := b2n high, below := b2n (!high), after := 0 }
    ((m.atT t).entryOf tag 1 x false false 0).2

/-! The traceable record. -/

/-- CAL_DUE (R265): once per due date, while the RTC holds a valid time. -/
def execCalDue (s : State) : Host.Outcome State Fault Refusal :=
  effect s fun m =>
    let due := m.rd Reg.CAL_DUE_DUE
    let tai := m.timeNow.1
    if m.on Reg.RTC_STATUS_VALID ∧ m.adc.inUse ≠ [] ∧ due ≤ tai ∧ ¬ m.on Reg.ADC_STATUS_DUE_PASSED then
      ((m.wr Reg.ADC_STATUS_DUE_PASSED 1).fault Kind.CAL_DUE ((tai - due) / 86400)).record JR.CAL_DUE 0x15
        (le 4 (imgNum m.adc.inUse 4 4) ++ le 6 due)
    else m

/-- The payload of JR_CAL_USE (R274). -/
def calUsePayload (img : NorImage) : List Byte :=
  imgBytes img 8 32 ++ imgBytes img 4 4 ++ imgBytes img 0x38 6 ++ imgBytes img 0x40 6 ++ imgBytes img 0x48 4 ++
    digestBytes (Config.sha256 (imgBytes img 0 0x234))

/-- A copy's record is applied (R264): its constants, what the registers show of it, and JR_CAL_USE where it differs
from the one last journalled. -/
def Hw.applyCal (m : Hw) (copy : Nat) : Hw :=
  let img := if copy = 0 then m.adc.copyA else m.adc.copyB
  let cert := imgBytes img 8 32
  let seq := imgNum img 4 4
  let new := cert != m.adc.lastCert || seq != m.adc.lastSeq
  let m := { m with adc := { m.adc with inUse := img, applyCopy := none, lastCert := cert, lastSeq := seq } }
  let m := (List.range 8).foldl (fun m i => m.wr (Reg.CAL_CERT_ID_ID i) (imgNum img (8 + 4 * i) 4)) m
  let due := imgNum img 0x40 6
  let m := (((m.wr Reg.CAL_DATE_DATE (imgNum img 0x38 6)).wr Reg.CAL_DUE_DUE due).wr Reg.CAL_REF_REF_TRUE
    (imgNum img 0x48 4)).wr Reg.CAL_SEQ_SEQ (seq % 65536)
  let m := ((m.wrB Reg.CAL_SEQ_SIGNED (m.calSigOk img)).wr Reg.CAL_SEQ_COPY copy).wr Reg.CAL_SEQ_NOMINAL 0
  let m := if m.timeNow.1 < due then m.wr Reg.ADC_STATUS_DUE_PASSED 0 else m
  if new then m.record JR.CAL_USE 0x15 (calUsePayload img) else m

/-- CAL_RECORD_SELECT (R264), within a cold start: the qualifying copy with the higher SEQ, or nominal constants. Of two with one
SEQ copy A is taken: the spec gives none (DESIGN CHOICE, notes/assumptions/125.md). -/
def Hw.selectCal (m : Hw) : Hw :=
  let a := m.calOk m.adc.copyA
  let b := m.calOk m.adc.copyB
  if a && (!b || decide (imgNum m.adc.copyB 4 4 ≤ imgNum m.adc.copyA 4 4)) then m.applyCal 0
  else if b then m.applyCal 1
  else
    let sig := m.on Reg.ADC_CFG_CAL_SIGN_REQ && (calCrcOk m.adc.copyA || calCrcOk m.adc.copyB)
    ({ m with adc := { m.adc with inUse := [] } }.wr Reg.CAL_SEQ_NOMINAL 1).fault Kind.CAL_RECORD_INVALID
      (3 + 4 * b2n sig)

/-! Commands of the host. -/

/-- ADC_INJECT (R251, R412): the conversion's ticket issues, and the command waits for its retirement. -/
def execAdcInject (s : Fin 8) (st : State) : Host.Outcome State Fault Refusal :=
  effect st fun m =>
    match m.nextCmd s cmdADC_INJECT with
    | none => m
    | some c =>
      if m.mustWait c then m
      else
        match m.gate c with
        | some a => m.refuseCmd c a
        | none =>
          if 47 < c.arg 0 1 then m.refuseCmd c (badArg 0)
          else if 4 < c.arg 1 1 then m.refuseCmd c (badArg 1)
          else
            match m.issue 16 0x15 (c.arg 0 1) 0 false true false with
            | none => m
            | some (m, n) =>
              let m := { m with adc := { m.adc with inj := m.adc.inj ++ [Conv.mk n (c.arg 0 1) (c.arg 1 1) none] } }
              (m.setWork { c with stage := 2, inner := some n }).setTicket c.tkt fun t => { t with state := .running }

/-- What refuses a REFCHK run (R266, R271). -/
def refchkCheck (mean : Int) (m : Hw) (_ : HostCmd) : Option Answer :=
  if m.adc.refMon then some (badState (wordOf Kind.REF_MON 0x2D 0))
  else if !m.on Reg.ADC_STATUS_REF_SETTLED || decide (6553600 < mean) || decide (mean < -6553600) then some (badState 0)
  else none

/-- The REFCHK run (R266): the reference as the standard shows it, and its deviation from REF_TRUE. -/
def refchkRun (mean tctl : Int) (m : Hw) (c : HostCmd) : Hw × Answer :=
  let v := signedOf 32 (c.arg 0 4)
  let ref := v - mean
  let true_ := m.rdI Reg.CAL_REF_REF_TRUE
  let dev := ref - 250000000 - true_
  let four := fun (x : Int) => le 4 (unsignedOf 32 x)
  ((m.wrI Reg.REFCHK_LAST_MEAN mean).record JR.REFCHK 0x15
    (four v ++ four mean ++ four ref ++ four true_ ++ le 2 (unsignedOf 16 (tctl / 4))),
   okWith (four mean ++ four ref ++ four dev))

/-- REFCHK_RUN (R266). -/
def execRefchkRun (s : Fin 8) (mean tctl : Int) (st : State) : Host.Outcome State Fault Refusal :=
  effect st fun m => m.runCmd s cmdREFCHK_RUN (refchkCheck mean) (refchkRun mean tctl)

/-- The arguments of CAL_STAGE: OFS up to 0x233 and LEN from 1 to 96, with its data (R412). -/
def stageCheck (last : Nat) (_ : Hw) (c : HostCmd) : Option Answer :=
  if last < c.arg 0 2 then some (badArg 0)
  else if c.arg 2 1 = 0 ∨ 96 < c.arg 2 1 ∨ last + 1 < c.arg 0 2 + c.arg 2 1 then some (badArg 2)
  else if c.args.length < 4 + c.arg 2 1 then some (badArg c.args.length)
  else none

/-- CAL_STAGE: the staging copy takes the data (R412). -/
def calStage (m : Hw) (c : HostCmd) : Hw × Answer :=
  ({ m with adc := { m.adc with staged := putImgBytes m.adc.staged (c.arg 0 2) (slice c.args 4 (c.arg 2 1)) } }, okWith [])

/-- CAL_STAGE (R412). -/
def execCalStage (s : Fin 8) (st : State) : Host.Outcome State Fault Refusal :=
  effect st fun m => m.runCmd s cmdCAL_STAGE (stageCheck 0x233) calStage

/-- The copy that a new record is written to: the one not in use (R264). -/
def Hw.calTarget (m : Hw) : Nat := if m.adc.inUse != [] && m.rd Reg.CAL_SEQ_COPY = 0 then 1 else 0

/-- CAL_COMMIT refuses a staged record whose CRC or required signature fails, or that does not read back (R264,
R412). -/
def calCommitCheck (readsBack : Bool) (m : Hw) (_ : HostCmd) : Option Answer :=
  if calCrcOk m.adc.staged && m.calOk m.adc.staged && readsBack then none
  else some (badState (wordOf Kind.CAL_RECORD_INVALID 0x15
    ((if m.calTarget = 0 then 1 else 2) + 4 * b2n (calCrcOk m.adc.staged && !m.calOk m.adc.staged))))

/-- CAL_COMMIT: the staged record selects the copy not in use, and applies from the next tick (R264). -/
def calCommit (m : Hw) (_ : HostCmd) : Hw × Answer :=
  let copy := m.calTarget
  let img := m.adc.staged
  ({ m with adc := { m.adc with
      copyA := if copy = 0 then img else m.adc.copyA
      copyB := if copy = 0 then m.adc.copyB else img
      applyCopy := some copy } },
   okWith (le 4 (imgNum img 4 4) ++ le 1 copy ++ le 3 0))

/-- CAL_COMMIT (R264, R321): the write to the copy not in use is validated by its read-back; the commit selects it. -/
def execCalCommit (s : Fin 8) (readsBack : Bool) (st : State) : Host.Outcome State Fault Refusal :=
  effect st fun m => m.runCmd s cmdCAL_COMMIT (calCommitCheck readsBack) calCommit

end Sys2Proof.Machine
end

