-- ==== Sys2Proof/Machine/Faults.lean ====
section
/-! DEFINITION. The fault collector, engine restarts and the settling of tickets (R20, R326 to R328, R331 to R342). -/

namespace Sys2Proof.Machine

/-! Resets of an engine. -/

/-- The payload of JR_RESET (R274): letter, side, source, reset epoch and the fault word that caused it. -/
def resetPayload (letter : Nat) (side : Side) (source epoch cause : Nat) : List Byte :=
  le 1 letter ++ le 1 (if side = .host then 1 else 0) ++ le 1 source ++ le 1 0 ++ le 4 epoch ++ le 4 cause

/-- JR_RESET is submitted with the present reset epoch (R274). -/
def Hw.resetRecord (m : Hw) (letter : Nat) (side : Side) (source cause : Nat) : Hw :=
  m.record JR.RESET 0x10 (resetPayload letter side source (m.rd Reg.TKT_EPOCH_EPOCH) cause)

/-- The reset epoch advances (R326). -/
def Hw.nextEpoch (m : Hw) : Hw := m.wr Reg.TKT_EPOCH_EPOCH (m.rd Reg.TKT_EPOCH_EPOCH + 1)

/-- Accepted rail-link commands whose latch write has not been accepted end in FAILED, VOID, with their tickets (R195). -/
def Hw.voidRail (m : Hw) : Hw :=
  let gone := m.rl.waiting.filterMap RlCmd.tag?
  let m := { m with rl := { m.rl with waiting := m.rl.waiting.filter fun (c : RlCmd) => c.tag?.isNone } }
  let m := gone.foldl (fun m g => m.rlEvent 0x6 g 1) m
  (m.tkt.table.filter fun (t : Ticket) => t.stream == 19 && t.state == .void).foldl (fun m t => m.dropTicket t.num) m

/-- What stops with F1 CHARGE (R28, R168): `CHG_EN`, a probe, and the state, which resumes after negotiation. The change to
DETECT has its JR_CHARGE_STATE (R149). -/
def Hw.chargeReset (m : Hw) : Hw :=
  let st := m.chgState
  let keep := if st = chgDETECT ∨ st = chgNEGOTIATE then m.chg.resume
    else if m.charging ∨ st = chgDONE ∨ st = chgPAUSE then some st else none
  let m := { m.clearChgEn with chg := { m.chg with probe := false, sinkTest := false, sbsReads := [] } }
  if st = chgOFF ∨ st = chgFAULT then m
  else
    let m := if st = chgDETECT then m else m.chgTo chgDETECT 20
    { m with chg := { m.chg with resume := keep } }

/-- Records whose values retention RAM keeps, and which are submitted again after an E, W or P (R328): summaries, KA
gaps and sync changes. JR_FAULT is submitted again from the history. -/
def keptRecord (r : JRec) : Bool :=
  r.kind == JR.SUMMARY.code || r.kind == JR.KA_GAP.code || r.kind == JR.SYNC_CHANGE.code

/-- A submitted record whose append has become VOID. -/
def Hw.lostAppend (m : Hw) (x : Append) : Bool :=
  match x.tkt with
  | some n => m.tktState n == .void
  | none => false

/-- The live check-in bit of an engine cleared (R482). -/
def Hw.dropCheckin (m : Hw) (e : Engine) : Hw :=
  match e.side with
  | .field => { m with wdg := { m.wdg with live := putBit m.wdg.live (e.id - 0x10) false } }
  | .host => { m with hwdg := { m.hwdg with live := putBit m.hwdg.live e.id false } }

/-- Host commands whose tickets have become VOID are answered VOID with the epoch (R327): not those whose answer has gone
out, or is the kept result of an action (R322). -/
def Hw.voidWork (m : Hw) : Hw :=
  (m.host.work.filter fun (c : HostCmd) =>
      !c.hostSide && !c.durable && !(c.stage == 4 || (c.stage == 3 && (c.sent || c.acts))) &&
        (m.ticket c.tkt).any (fun t => t.state == .void)).foldl (fun m c => m.answerCmd c m.voidAnswer) m

/-- Tickets that are not durable and belong to an engine become VOID, with one TICKET_VOIDED for those that there are
(R327); a rail-link command whose latch write has been accepted goes on (R195). An injected conversion or a rail command
that is lost is told to its consumer. -/
def Hw.voidOwned (m : Hw) (e : Engine) : Hw :=
  let r := m.voidTickets fun t => t.owner == e.id && !t.dur && !t.acc && !(t.stream == 19 && t.state == .running)
  let m := if e = .f5 then r.1.retireConvs else if e = .f8 then r.1.settleBus else r.1
  let keep := m.sub.filter fun (x : Append) => !m.lostAppend x || keptRecord x.r
  let m := { m with sub := keep.map fun (x : Append) => { x with tkt := if m.lostAppend x then none else x.tkt } }
  let m := if e = .f6 then (m.tkt.table.filter fun (t : Ticket) => t.stream == 0 && t.state == .void).foldl
      (fun m t => m.dropTicket t.num) m else m
  let m := m.voidWork
  if r.2 = 0 then m else m.faultAt Kind.TICKET_VOIDED e.id r.2

/-- An engine restart (R20, R326, R327): its record, its tickets, and what ends with it. -/
def Hw.restartEngine (m : Hw) (e : Engine) (cause : Nat) : Hw :=
  let m := (m.setEngine e { running := true, restarting := true, handover := false, fenced := false }).dropCheckin e
  match e.side with
  | .host =>
    let m := if e = .h2 then { m with host := { m.host with busy := true } } else m
    m.recordH JR.RESET 0x02 (resetPayload 0x45 .host e.id 0 cause)
  | .field =>
    let m := (m.nextEpoch).voidOwned e
    let m := match e with
      | .f1 => m.chargeReset
      | .f4 => m.voidRail
      | _ => m
    m.resetRecord 0x45 .field e.id cause

/-! The history. -/

/-- A JR_FAULT is submitted, its header at the FRN of the event (R273). -/
def Hw.faultRecord (m : Hw) (bits frn sc merges : Nat) : Hw :=
  m.submitRec { m.mkRec JR.FAULT 0x10 (le 4 bits ++ le 4 sc ++ le 2 merges ++ le 2 0) with frn := frn }

/-- A JR_FAULT of an entry waits: it is submitted, forwarded or reserved, or stands in the pending ring. -/
def Hw.faultWaits (m : Hw) (e : HistEntry) : Bool :=
  let is := fun (r : JRec) => r.kind == JR.FAULT.code && r.frn == e.frn && numAt r.payload 4 4 == e.sc &&
    numAt r.payload 0 4 % 2 ^ 28 == e.word.bits % 2 ^ 28
  m.sub.any (fun x => is x.r) || m.twin.ring.any is || m.twin.reserved.any (fun x => is x.r) ||
    m.twin.forwarded.any fun x => is x.2.r

/-- F0 SUPERVISOR submits a JR_FAULT for each entry whose JRN bit is 0 and whose severity calls for one, one for each (R274,
R328). -/
def Hw.resubmitFaults (m : Hw) : Hw :=
  (m.flt.hist.filter fun (e : HistEntry) =>
      !e.jrn && decide (m.rd Reg.JRN_CFG_FAULT_SEV ≤ e.word.sev) && !m.faultWaits e).foldl
    (fun m e => m.faultRecord e.word.bits e.frn e.sc e.merges) m

/-- The kinds that do not escalate by default (R336). -/
def steadyKinds : List Nat :=
  [Kind.LATCH_CLAMP.code, Kind.SYNC_LOST.code, Kind.APERTURE_EXPIRED.code, Kind.FREEZE_REFUSED.code,
   Kind.TICKET_VOIDED.code, Kind.TABLE_FULL.code]

/-- N and W of a kind (R336): an override, else none for the steady kinds, else the default. -/
def Hw.escRule (m : Hw) (kind : Nat) : Nat × Nat :=
  match m.flt.overrides.find? (·.kind == kind) with
  | some o => (o.n, o.w)
  | none => (if steadyKinds.contains kind then 0 else m.rd Reg.FLT_ESC_N, m.rd Reg.FLT_ESC_W)

/-- The tracker with the lowest count, the oldest among equals. -/
def leastTracker : List Tracker → Option Tracker
  | [] => none
  | t :: ts =>
    match leastTracker ts with
    | none => some t
    | some u => if u.count < t.count then some u else some t

/-- Trackers whose window has run out are gone (R336). -/
def Hw.expireTrackers (m : Hw) : Hw :=
  let live := fun (t : Tracker) => decide ((m.frn + 2 ^ 32 - t.started) % 2 ^ 32 < (m.escRule t.kind).2)
  { m with flt := { m.flt with trackers := m.flt.trackers.filter live } }

/-- A word counted in its tracker: how many events the window holds with it (R336). -/
def Hw.track1 (m : Hw) (w : FaultWord) : Hw × Nat :=
  let m := m.expireTrackers
  let mine := fun (t : Tracker) => t.src == w.src && t.kind == w.kind
  match m.flt.trackers.find? mine with
  | some t =>
    ({ m with flt := { m.flt with
        trackers := m.flt.trackers.map fun (u : Tracker) => if mine u then { u with count := u.count + 1 } else u } },
     t.count + 1)
  | none =>
    let old := if m.flt.trackers.length < 64 then m.flt.trackers
      else match leastTracker m.flt.trackers with
        | some t => m.flt.trackers.erase t
        | none => m.flt.trackers
    ({ m with flt := { m.flt with trackers := old ++ [Tracker.mk w.src w.kind 1 m.frn] } }, 1)

/-- The recorded severity of a word (R336). -/
def Hw.escalate (m : Hw) (w : FaultWord) : Hw × FaultWord :=
  let n := (m.escRule w.kind).1
  if n = 0 then (m, w)
  else
    let r := m.track1 w
    (r.1, { w with sev := min 3 (w.sev + r.2 / n) })

/-! Reactions (R338). -/

/-- The engines that may be restarted (R18). -/
def restartable (e : Engine) : Bool := e != .f0 && e != .h2

/-- Units that may be fenced, engines apart (R340). -/
def fenceable (src : Nat) : Bool :=
  (0x20 ≤ src && src ≤ 0x26) || (0x28 ≤ src && src ≤ 0x2C) || src = 0x30 || src = 0x32 || src = 0x33 || src = 0x34 ||
    (0x37 ≤ src && src ≤ 0x3A)

/-- Words that carry the ID of an engine that witnessed the event (R338). FENCE_PERMANENT tells of a fence that is
made (DEDUCED, notes/assumptions/34.md). -/
def witness (w : FaultWord) : Bool :=
  (w.src == 0x10 && [Kind.FAULT_LOST.code, Kind.TICKET_VOIDED.code, Kind.DOUBLE_FAULT.code,
      Kind.RETENTION_PARITY.code].contains w.kind) ||
    [Kind.MODE_REFUSED.code, Kind.SVC_AUTH_FAIL.code, Kind.FENCE_PERMANENT.code].contains w.kind ||
    ((w.src == 0x10 || w.src == 0x02) && [Kind.BIST_REPAIRED.code, Kind.BIST_FAIL.code, Kind.FUSE_FAIL.code,
      Kind.REPAIR_PARITY.code].contains w.kind) ||
    (w.src == 0x02 && [Kind.BARRIER_DROP.code, Kind.MBX_LOCAL_REJ.code, Kind.SNAP_STALE.code].contains w.kind)

/-- Kinds whose owning chapter states what follows, a retry, a state or a reset of its own (DEDUCED, notes/assumptions/34.md):
they are recorded, and nothing more is done here. -/
def ownedKinds : List Nat :=
  [Kind.PHASE_OCP.code, Kind.PHASE_SS_SHORT.code, Kind.XFER_OCP.code, Kind.XFER_START_FAIL.code, Kind.JRN_FULL.code,
   Kind.JRN_CRIT_FULL.code, Kind.JRN_SEAL_FAIL.code, Kind.CAL_RECORD_INVALID.code, Kind.TWIN_HB_LOST.code,
   Kind.TWIN_DUAL_LEAD.code, Kind.TWIN_CFG_MISMATCH.code, Kind.TWIN_RESYNC_FAIL.code, Kind.TWIN_PAIR_MISMATCH.code,
   Kind.UPD_ROLLBACK.code]

/-- Reactions. -/
def reRECORD : Nat := 0
def reDEGRADE : Nat := 1
def reFENCE : Nat := 2
def reRESTART : Nat := 3
def reRESET : Nat := 4

/-- The default reaction of R338. -/
def defaultReaction (src sev : Nat) : Nat :=
  if sev ≤ 1 then reRECORD
  else match Engine.ofId src with
    | some e =>
      if restartable e then (if sev = 2 then reRESTART else reFENCE) else (if sev = 2 then reDEGRADE else reRESET)
    | none => if fenceable src then reFENCE else reDEGRADE

/-- The reaction of a word (R338): witnesses record; an override of the configuration block, the action that an owning
chapter names, else the default. -/
def Hw.reactionOf (m : Hw) (w : FaultWord) : Nat :=
  if witness w then reRECORD
  else
    match m.flt.overrides.find? (·.kind == w.kind) with
    | some o => if w.sev = 2 then o.major else if w.sev = 3 then o.severe else reRECORD
    | none =>
      if w.kind = Kind.ADC_DEGRADED.code then reDEGRADE
      else if w.kind = Kind.XFER_QUIET_LATE.code ∨ w.kind = Kind.ADC_CAL_FAIL.code ∨ w.kind = Kind.ADC_SLICE_FAULT.code ∨
          w.kind = Kind.SB_BUS_STUCK.code then reFENCE
      else if w.kind = Kind.WDT_EXPIRED.code ∨ w.kind = Kind.WDT_START_TMO.code then reRESET
      else if w.kind = Kind.PHASE_OCP.code ∧ m.ph.retryAt = none ∧ m.rd Reg.PH_STATUS_LATCHED = 0 then reFENCE
      else if ownedKinds.contains w.kind then reRECORD
      else defaultReaction w.src w.sev

/-! Part faults (R329, R330). -/

/-- Sources of part faults (R329). -/
def partSource (src : Nat) : Bool :=
  (Engine.ofId src).isSome || (0x20 ≤ src && src ≤ 0x23) || (0x28 ≤ src && src ≤ 0x2C) || (0x32 ≤ src && src ≤ 0x35) ||
    (0x37 ≤ src && src ≤ 0x3A)

/-- A part fault is still open: its reaction is due, its engine restarts, or a ticket waits for its replay. -/
def Hw.partOpen (m : Hw) (src : Nat) : Bool :=
  (m.flt.hist.any fun (e : HistEntry) => e.isOpen && e.due && e.word.src == src) ||
    (match Engine.ofId src with | some e => (m.engine e).restarting | none => false) ||
    (m.tkt.table.any fun (t : Ticket) => (t.unit == src || t.owner == src) && t.state == .replay) ||
    (src == 0x35 && m.jrn.closed != [])

/-- Accepted work is in flight (R319). -/
def Hw.acceptedWork (m : Hw) : Bool := m.jrn.staged != [] || m.tkt.table.any (·.acc)

/-- A part fault begins; DOUBLE_FAULT where another is open and accepted work is in flight (R330). -/
def Hw.partFault (m : Hw) (w : FaultWord) : Hw :=
  let parts := m.flt.parts.filter m.partOpen
  if w.sev = 0 ∨ ¬ partSource w.src ∨ witness w then { m with flt := { m.flt with parts := parts } }
  else if parts.contains w.src then { m with flt := { m.flt with parts := parts } }
  else
    let m' := { m with flt := { m.flt with parts := parts ++ [w.src] } }
    if parts ≠ [] ∧ m.acceptedWork then
      ({ (m'.wr Reg.FLT_STATUS_DOUBLE 1) with flt := { m'.flt with histRead := false } }).fault Kind.DOUBLE_FAULT w.src
    else m'

/-- `DOUBLE` clears when the history has been read and the part faults have closed (R330). -/
def Hw.settleDouble (m : Hw) : Hw :=
  if m.flt.histRead && !m.flt.parts.any m.partOpen then m.wr Reg.FLT_STATUS_DOUBLE 0 else m

/-! Collection. -/

/-- Sources that H2 HOSTPORT reacts for (R339). -/
def hostSource (src : Nat) : Bool :=
  src ≤ 2 || src = 0x31 || (0x38 ≤ src && src ≤ 0x3A) || src = 0x3E

/-- The engine that applies a word's reaction (R339). H2 HOSTPORT applies those of host sources to the entries of the history, so
once their words have crossed (DEDUCED, notes/assumptions/129.md). -/
def reactor (src : Nat) : Engine := if hostSource src then .h2 else .f0

/-- A word reaches F76 FAULT_N and the host (R166, R406, R421). -/
def Hw.announce (m : Hw) (w : FaultWord) : Hw :=
  let m := if m.rd Reg.STAT_CFG_FN_SEV ≤ w.sev then (m.wr Reg.STAT_LATCH_FN 1).statEvent 7 else m
  let latches := w.kind = Kind.PHASE_OCP.code ∨ w.kind = Kind.PHASE_SS_SHORT.code ∨ w.kind = Kind.BATFET_OCP.code
  let m := if latches then { m with flt := { m.flt with latchFn := decide (m.rd Reg.STAT_CFG_FN_SEV ≤ w.sev) } } else m
  if hostSource w.src then m
  else (m.sendF 0x13 (le 1 (m.rd Reg.STAT_LATCH_FN) ++ le 1 0 ++ le 2 1 ++ le 4 w.bits)).faltCode .fieldAlert

/-- F0 SUPERVISOR submits the JR_FAULT of a word, or leaves it to its return (R328, R337). -/
def Hw.submitFault (m : Hw) (w : FaultWord) (frn sc merges : Nat) : Hw :=
  if m.rd Reg.JRN_CFG_FAULT_SEV ≤ w.sev ∧ (m.engine .f0).running ∧ ¬ (m.engine .f0).restarting then
    m.faultRecord w.bits frn sc merges
  else m

/-- The oldest entry of the lowest severity that a history holds. -/
def lowestEntry : List HistEntry → Option HistEntry
  | [] => none
  | e :: es =>
    match lowestEntry es with
    | none => some e
    | some f => if f.word.sev < e.word.sev then some f else some e

/-- A new entry (R335, R337), with the time at which its word reached the collector (R40, R334): it takes the place of the oldest of the lowest severity where the queue is full, or the
word is counted and not kept. -/
def Hw.enterWord (m : Hw) (w : FaultWord) (base frn sc : Nat) : Hw :=
  let re := m.reactionOf w
  let done := re = reRECORD ∨ w.kind = Kind.WDT_EXPIRED.code ∨ w.kind = Kind.WDT_START_TMO.code
  let e : HistEntry :=
    { word := w, frn := frn, sc := sc, merges := 0, react := re, esc := decide (base < w.sev)
      isOpen := decide (¬ done), jrn := false, base := base, due := decide (¬ done), quiet := 0 }
  let put := fun (m : Hw) (h : List HistEntry) =>
    (({ m with flt := { m.flt with hist := h ++ [e] } }).showHist).submitFault w frn sc 0
  if m.flt.hist.length < 64 then put m m.flt.hist
  else
    match lowestEntry m.flt.hist with
    | some x => if w.sev < x.word.sev then (m.bump Reg.FLT_STATUS_LOST).submitFault w frn sc 0 else put m (m.flt.hist.erase x)
    | none => m

/-- A word merged into the open entry of its source and kind (R335): a rise of severity brings the reaction of the new
severity. -/
def Hw.mergeWord (m : Hw) (i : Nat) (e : HistEntry) (w : FaultWord) : Hw :=
  let up := decide (e.word.sev < w.sev)
  let w' := { e.word with sev := max e.word.sev w.sev }
  let e' := { e with
    word := w', merges := satN 16 (e.merges + 1), esc := e.esc || (up && decide (e.base < w.sev))
    due := e.due || up, react := if up then m.reactionOf w' else e.react, quiet := 0 }
  let m' := ({ m with flt := { m.flt with hist := m.flt.hist.set i e' } }).showHist
  if up && !e.jrn && decide (e.word.sev < m.rd Reg.JRN_CFG_FAULT_SEV) then m'.submitFault w' e.frn e.sc e'.merges else m'

/-- A word of a unit starts its count of quiet frames again (R339, R342). -/
def Hw.unquiet (m : Hw) (w : FaultWord) : Hw :=
  if w.sev = 0 then m
  else { m with flt := { m.flt with
    fences := m.flt.fences.map fun (f : FenceSt) => if f.id = w.src then { f with quiet := 0 } else f
    hist := m.flt.hist.map fun (e : HistEntry) => if e.word.src = w.src then { e with quiet := 0 } else e } }

/-- Which of two words of one cycle enters the input stage first (R40, R334): a field word before a host word, then the higher
severity after escalation, then the lower source. -/
def Hw.entersFirst (m : Hw) (a b : Stamp × FaultWord) : Bool :=
  let x := (m.escalate a.2).2.sev
  let y := (m.escalate b.2).2.sev
  (!a.1.host && b.1.host) ||
    (a.1.host == b.1.host && !a.1.host && (decide (y < x) || (x == y && decide (a.2.src < b.2.src))))

/-- The place of the word that leaves the input stage next: of the words that reached it in the cycle of the first one, the
one that entered first (R334). -/
def Hw.nextWord (m : Hw) : Nat :=
  let l := m.flt.inputAt.zip m.flt.input
  match l with
  | [] => 0
  | x :: _ =>
    let same := fun (y : Stamp × FaultWord) => y.1.frn == x.1.frn && y.1.sc == x.1.sc
    let best := (l.filter same).foldl (fun b y => if m.entersFirst y b then y else b) x
    (l.findIdx? fun y => y == best).getD 0

/-- One word leaves the input stage (R334). -/
def Hw.collect (m : Hw) : Hw :=
  let i := m.nextWord
  match m.flt.input[i]? with
  | none => m
  | some w =>
    let at_ := m.flt.inputAt.getD i { frn := m.frn, sc := m.sc, host := false }
    let m := { m with flt := { m.flt with input := m.flt.input.eraseIdx i, inputAt := m.flt.inputAt.eraseIdx i } }
    let r := m.escalate w
    let m := (r.1.unquiet r.2).probHeard r.2
    let m := (m.partFault r.2).wr Reg.FLT_LAST_WORD r.2.bits
    let m := m.wr Reg.FLT_STATUS_MAXSEV (max (m.rd Reg.FLT_STATUS_MAXSEV) r.2.sev)
    let m := { m with jrn := { m.jrn with faults := m.jrn.faults + 1 } }
    let m := match m.flt.hist.findIdx? fun (e : HistEntry) =>
        e.isOpen && e.word.src == w.src && e.word.kind == w.kind with
      | some i => m.mergeWord i (m.flt.hist.getD i ⟨w, 0, 0, 0, 0, false, false, false, 0, false, 0⟩) r.2
      | none => m.enterWord r.2 w.sev at_.frn at_.sc
    m.announce r.2

/-- FAULT_WORD_COLLECT (R334, R335, R336). -/
def execFaultWordCollect (s : State) : Host.Outcome State Fault Refusal := effect s Hw.collect

/-- ESC_TRACKER_EXPIRY (R336). -/
def execEscTrackerExpiry (s : State) : Host.Outcome State Fault Refusal := effect s Hw.expireTrackers

/-! Recovery counters and settling. -/

/-- Recovery counters whose window has run out are gone (R342). -/
def Hw.expireRecoveries (m : Hw) : Hw :=
  let live := fun (r : Recovery) => decide ((m.frn + 2 ^ 32 - r.since) % 2 ^ 32 < m.rd Reg.FLT_CFG_RWIN)
  { m with flt := { m.flt with recoveries := m.flt.recoveries.filter live } }

/-- The recovery counter of a unit or engine. -/
def Hw.recoveryOf (m : Hw) (id : Nat) : Nat :=
  match (m.expireRecoveries).flt.recoveries.find? (·.id == id) with
  | some r => r.count
  | none => 0

/-- A lift or a restart advances the recovery counter (R342). -/
def Hw.recover (m : Hw) (id : Nat) : Hw :=
  let m := m.expireRecoveries
  if m.flt.recoveries.any (·.id == id) then
    { m with flt := { m.flt with recoveries := m.flt.recoveries.map fun (r : Recovery) =>
        if r.id = id then { r with count := r.count + 1 } else r } }
  else { m with flt := { m.flt with recoveries := m.flt.recoveries ++ [Recovery.mk id 1 m.frn] } }

/-- RECOVERY_WINDOW_CLEAR (R342). -/
def execRecoveryWindowClear (id : Fin 64) (s : State) : Host.Outcome State Fault Refusal :=
  effect s fun m =>
    match m.flt.recoveries.find? (·.id == id.val) with
    | some r =>
      if m.rd Reg.FLT_CFG_RWIN ≤ (m.frn + 2 ^ 32 - r.since) % 2 ^ 32 then
        { m with flt := { m.flt with recoveries := m.flt.recoveries.filter (·.id != id.val) } }
      else m
    | none => m

/-- The fence bit of a unit or an engine, set or cleared (R343). -/
def Hw.fenceFlag (m : Hw) (id : Nat) (b : Bool) : Hw :=
  if 0x20 ≤ id then m.wrBit Reg.FLT_FENCE_U_UNITS (id - 0x20) b
  else if id < 3 then m.wrBit Reg.FLT_FENCE_E_HOST id b
  else m.wrBit Reg.FLT_FENCE_E_FIELD (id - 0x10) b

/-- The permanent-fence bit of a unit or an engine (R343). -/
def Hw.permFlag (m : Hw) (id : Nat) (b : Bool) : Hw :=
  if 0x20 ≤ id then m.wrBit Reg.FLT_PERM_U_UNITS (id - 0x20) b else m.wrBit Reg.FLT_PERM_E_ENGINES id b

/-- A rail-link command whose ticket has failed ends in FAILED, FAULT (R189): the one under way, or one that waits. -/
def Hw.railLost (m : Hw) (t : Ticket) : Hw :=
  if (m.rail (t.chan - 1)).tag.isSome then m.endTag (t.chan - 1) 0x6 0x02
  else
    let mine := fun (c : RlCmd) => rlRail c + 1 == t.chan && c.tag?.isSome
    match (m.rl.waiting.find? mine).bind RlCmd.tag? with
    | some g => (({ m with rl := { m.rl with waiting := m.rl.waiting.eraseP mine } }).dropTicket t.num).rlEvent 0x6 g 2
    | none => m.dropTicket t.num

/-- The tickets of a fenced unit or engine are settled in their places (R341): a durable one of an engine waits in ISSUED
for its return, and every other one fails. -/
def Hw.settleTickets (m : Hw) (id : Nat) : Hw :=
  let mine := m.tkt.table.filter fun (t : Ticket) =>
    (t.unit == id && t.state == .running) || (t.owner == id && (t.state == .running || t.state == .issued))
  mine.foldl (fun m t =>
    if t.dur then m.setTicket t.num fun t => { t with state := .issued }
    else if t.stream = 19 then (m.failTicket t.num).railLost t
    else m.failTicket t.num) m

/-- A history entry closes as its reaction is complete (R339). -/
def Hw.closeEntry (m : Hw) (src kind : Nat) : Hw :=
  m.closeEntries fun e => e.word.src == src && e.word.kind == kind

/-- FLT_HIST_CLR (R343): the closed entries leave the queue. -/
def Hw.histClr (m : Hw) : Hw :=
  ({ m with flt := { m.flt with hist := m.flt.hist.filter (·.isOpen) } }).showHist

/-- FLT_HIST_CLR (R343). -/
def execFltHistClr (s : State) : Host.Outcome State Fault Refusal := effect s Hw.histClr

end Sys2Proof.Machine
end

