-- ==== Sys2Proof/Machine/TwinOps.lean ====
section
/-! DEFINITION. Changes of the twin role that other units bring about: resignation, enrolment, fork (R352 to R358,
R365). -/

namespace Sys2Proof.Machine

/-- Which states hold the LEAD role bit and drive TW_DET_N low (R352). -/
def roleLow (st : Nat) : Bool := st = 2 || st = 3 || st = 6

/-- Which states hold the STANDBY role bit (R352). -/
def roleStandby (st : Nat) : Bool := st = 4 || st = 5

/-- A change of role: the role bits and the line follow the state, and the journal receives JR_ROLE_CHANGE (R352, R355,
R358). A standby's KA offset follows the role bit (R203). -/
def Hw.toRole (m : Hw) (st cause : Nat) : Hw :=
  let old := m.rd Reg.TWN_STATUS_STATE
  if old = st then m
  else
    let m := { m with twin := { m.twin with low := roleLow st, standby := roleStandby st, resigned := false } }
    let m := (m.wr Reg.TWN_STATUS_STATE st).wr Reg.TWN_STATUS_ROLE_CHG 1
    let m := if roleLow st then m.wr Reg.TWN_STATUS_DET 1
      else if roleLow old then m.wr Reg.TWN_STATUS_DET 0 else m
    let m := if st = twnLEAD ∨ st = twnSOLO then m else m.wr Reg.JRN_STATUS_SEALING 0
    let m := if roleStandby st && m.on Reg.KA_SET_TWIN then
      { m.wr Reg.RAIL_STATUS_KA_STBY 1 with rails := { m.rails with kaCarries := false } } else m
    m.record JR.ROLE_CHANGE 0x17 (le 1 old ++ le 1 st ++ le 1 cause ++ le 1 (m.rd Reg.TWN_CFG_POSITION) ++
      le 4 (m.rd Reg.TWN_EPOCH_EPOCH) ++ le 4 (m.rd Reg.TWN_CFG_PAIR_ID))

/-- The new LEAD's own next JSN passes over a seal that it must now build (R277, R366). -/
def Hw.takeSealing (m : Hw) : Hw :=
  let m := if isSealJsn (m.rd Reg.JRN_NEXT_JSN) then m.wr Reg.JRN_NEXT_JSN (m.rd Reg.JRN_NEXT_JSN + 1) else m
  if isSealJsn m.jrn.hashNext ∧ m.jrn.hashNext < m.rd Reg.JRN_NEXT_JSN then m.wr Reg.JRN_STATUS_SEALING 1 else m

/-- Each message of `out` that holds a ticket, with that ticket's number: both stand in order of issue (R369). -/
def Hw.twinPairs (m : Hw) : List (TwinMsg × Nat) :=
  (m.twin.out.filter fun (x : TwinMsg) => twinHolds x.type).zip
    ((m.tkt.table.filter fun (t : Ticket) => t.stream == 21).map fun t => t.num)

/-- Messages that a test selects leave the queue, each with its ticket (R316, R369). -/
def Hw.endTwin (m : Hw) (p : TwinMsg → Bool) : Hw :=
  let gone := (m.twinPairs.filter fun x => p x.1).map fun x => x.2
  let m := { m with twin := { m.twin with out := m.twin.out.filter fun (x : TwinMsg) => !p x } }
  gone.foldl Hw.dropTicket m

/-- The message that a ticket of stream 21 stands for. -/
def Hw.twinMsgOf (m : Hw) (n : Nat) : Option TwinMsg :=
  match m.twinPairs.find? fun x => x.2 == n with
  | some x => some x.1
  | none => none

/-- A write of `TWN_CFG.EN` is followed: SINGLE while it is 0, CLAIMING from its setting (R353, R374). `SB_STATUS.MULTI`
shows a shared bus (R389). A module that has become SINGLE builds the seal that is due (R366). -/
def Hw.followTwin (m : Hw) : Hw :=
  let en := m.on Reg.TWN_CFG_EN
  let m := m.wrB Reg.SB_STATUS_MULTI en
  if en && m.rd Reg.TWN_STATUS_STATE = 0 then m.wr Reg.TWN_STATUS_STATE twnCLAIMING
  else if !en && m.rd Reg.TWN_STATUS_STATE ≠ 0 then
    ({ (m.wr Reg.TWN_STATUS_STATE 0).wr Reg.TWN_STATUS_DET 0 with twin := { m.twin with low := false, standby := false } }).takeSealing
  else m

/-- JR_FAILOVER (R358). -/
def Hw.failoverRec (m : Hw) (cause flags oldEpoch detFrn detSc takeover : Nat) : Hw :=
  m.record JR.FAILOVER 0x17 (le 1 cause ++ le 1 flags ++ le 2 0 ++ le 4 oldEpoch ++ le 4 (m.rd Reg.TWN_EPOCH_EPOCH) ++
    le 4 detFrn ++ le 4 detSc ++ le 8 takeover)

/-- The line is released (R356). After a resignation other than by a reset, the module's records go to its pending
ring. -/
def Hw.releaseLine (m : Hw) (byReset : Bool) : Hw :=
  let m := m.toRole twnCLAIMING 4
  { m with twin := { m.twin with resigned := !byReset, resignWait := false, claimAt := none, waitDet := false } }

/-- A module in LEAD or SOLO resigns (R356); where a seal is being built for a resignation by request, the line is
released after it (R375). -/
def Hw.resign (m : Hw) (byReset request : Bool) : Hw :=
  if m.twn = twnLEAD ∨ m.twn = twnSOLO then
    if request && m.on Reg.JRN_STATUS_SEALING then { m with twin := { m.twin with resignWait := true } }
    else m.releaseLine byReset
  else m

/-- A resignation that has waited for a seal is carried out (R375). -/
def Hw.settleResign (m : Hw) : Hw :=
  if m.twin.resignWait && !m.on Reg.JRN_STATUS_SEALING then m.resign false false else m

/-- SEAL_BUILD (R279). -/
def execSealBuild (status : Nat) (s : State) : Host.Outcome State Fault Refusal :=
  effect s fun m => (m.buildSeal status).settleResign

/-- TWIN_RESIGN (R356): by its cause; at KEEPALIVE only where the partner's heartbeat has not reported KEEPALIVE, and at
a removal only without a source. -/
def Hw.resignFor (m : Hw) (cause : ResignCause) : Hw :=
  match cause with
  | .reset => m.resign true false
  | .ship => m.resign false false
  | .holdup => m.resign false false
  | .removal => if m.chg.source then m else m.resign false false
  | .keepalive => if m.twin.pMode = modeKEEPALIVE then m else m.resign false false
  | .request => m.resign false true

/-- TWIN_RESIGN (R356). -/
def execTwinResign (cause : ResignCause) (s : State) : Host.Outcome State Fault Refusal :=
  effect s fun m => m.resignFor cause

/-- TWN_CTL_RESIGN (R356): a write of `TWN_CTL.RESIGN`. -/
def execTwnCtlResign (s : State) : Host.Outcome State Fault Refusal := effect s fun m => m.resign false true

/-- BAT_REMOVAL (R163): the removal, the hold-up meter (R282) and a twin LEAD's resignation (R356). -/
def execBatRemoval (t : Nat) (seen : Tripped) (s : State) : Host.Outcome State Fault Refusal :=
  effect s fun m =>
    let m' := m.detect t seen.vbat seen.detectors
    if m'.chg.removal.isSome && m.chg.removal.isNone then (m'.meter).resignFor .removal else m'

/-- All the module's epochs are released (R299, R365). -/
def Hw.allReleased (m : Hw) : Bool :=
  let n := m.rd Reg.JRN_NEXT_JSN
  n = 0 || m.released (epochOf (n - 1))

/-- May `TWN_CTL.ENROL` act (R365)? -/
def Hw.mayEnrol (m : Hw) : Bool := m.inService && (m.twn = twnISOLATED || m.twn = twnPENDING) && m.allReleased

/-- May `TWN_CTL.FORK` act (R365)? -/
def Hw.mayFork (m : Hw) : Bool := m.inService && m.twn = twnPENDING

/-- ENROL (R365): the journal is erased, and the module becomes STANDBY and resyncs. -/
def Hw.enrol (m : Hw) : Hw :=
  if m.mayEnrol then
    let bs := m.jrn.blocks.map fun (b : NandBlock) =>
      { b with pages := [], dirty := false, erases := if b.pages = [] then b.erases else b.erases + 1 }
    let m := { m with jrn := { m.jrn with
        blocks := bs, staged := [], closed := [], chain := 0, headChain := 0, hashNext := 0, block := none
        ringBlock := none } }
    let m := ((m.clear [Reg.JRN_NEXT_JSN, Reg.JRN_COMMIT_JSN, Reg.JRN_OLDEST_JSN, Reg.JRN_SEALED_EPOCH,
      Reg.JRN_RELEASED_EPOCH, Reg.JRN_STAGE_STAGED]).showNand)
    let m := (m.toRole twnSTANDBY 6).wr Reg.TWN_STATUS_RESYNC 1
    ({ m with twin := { m.twin with resyncAt := some m.frn, reserved := [], barred := false } }).trySendTwin 5 (le 8 0)
  else m

/-- FORK (R365): a PENDING module becomes SOLO under a new sequence. -/
def Hw.fork (m : Hw) : Hw :=
  if m.mayFork then
    let old := m.rd Reg.TWN_EPOCH_EPOCH
    let take := m.rd Reg.JRN_NEXT_JSN
    let m := (m.wr Reg.TWN_EPOCH_EPOCH (old + 1)).wr Reg.TWN_STATUS_SEQ_ID (m.rd Reg.TWN_STATUS_SEQ_ID + 1)
    let ring := m.twin.ring
    let m := (m.toRole twnSOLO 7).wr Reg.TWN_LAST_FRN m.frn
    let m := (m.wr Reg.TWN_PEND_BYTES 0).failoverRec 1 2 old m.frn m.sc take
    let m := { m with twin := { m.twin with ring := [], takeover := some take, claimJsn := take } }
    ring.foldl Hw.submitRec m.takeSealing
  else m

/-- TWN_CTL_ENROL (R365). -/
def execTwnCtlEnrol (s : State) : Host.Outcome State Fault Refusal := effect s Hw.enrol

/-- TWN_CTL_FORK (R365). -/
def execTwnCtlFork (s : State) : Host.Outcome State Fault Refusal := effect s Hw.fork

end Sys2Proof.Machine
end

