-- ==== Sys2Proof/Machine/Links.lean ====
section
/-! DEFINITION. The links as a fence, a loop-back or a reset leaves them (R195, R340, R407, R532). -/

namespace Sys2Proof.Machine

/-- The rail-link session ends as for a field W reset (R195): the event queue is emptied, no event of its commands is sent any
more, and the next HELLO tells of it. -/
def Hw.endSession (m : Hw) : Hw :=
  let was := m.on Reg.RL_STATUS_SESSION
  ({ (((m.wr Reg.RL_STATUS_SESSION 0).wr Reg.RL_STATUS_EVQ 0).wr Reg.RL_STATUS_SPEED 0) with
      rl := { m.rl with grant := 0, events := [], immediate := none, aptA := none, aptTag := none, planTags := []
                        lost := m.rl.lost || was }
      rails := { m.rails with rail := m.rails.rail.map fun (r : Rail) => { r with tag := none } }
      tkt := { m.tkt with table := m.tkt.table.filter fun (t : Ticket) => t.stream != 19 } } : Hw).showTickets

/-- The Tabien link leaves trained (R404, R407): the host side shows it, with the LINK alert (R421). -/
def Hw.linkOut (m : Hw) (st : Nat) : Hw :=
  let was := m.rd Reg.TL_H_STATUS_STATE = 2
  let m := (((m.wr Reg.TL_H_STATUS_STATE st).wr Reg.TL_F_STATUS_STATE st).wr Reg.ID_STATUS_LINK 0).wr
    Reg.ID_STATUS_FIELD_READY 0
  if was then m.alertSet 3 else m

/-- The drain buffer and its transmit FIFO are emptied (R424, R532). -/
def Hw.emptyDrain (m : Hw) : Hw :=
  { ((m.wr Reg.DRN_STATUS_AVAIL 0).wr Reg.DRN_STATUS_END 0) with
    host := { m.host with drain := { m.host.drain with buffer := [], tail := [] } } }

end Sys2Proof.Machine
end

