-- ==== Sys2Proof/Machine/LoopBack.lean ====
section
/-! DEFINITION. Loop-backs and fault injection (R527 to R538). -/

namespace Sys2Proof.Machine

/-- The unit holds a ticket in flight (R528). -/
def Hw.unitBusy (m : Hw) (unit : Nat) : Bool :=
  m.tkt.table.any fun (t : Ticket) =>
    (if unit = 0x28 then 0x28 ≤ t.unit && t.unit ≤ 0x2C else t.unit == unit) && t.state == .running

/-- A cell that R527 marks as not provided. -/
def lbMissing (side : Side) (iface depth : Nat) : Bool :=
  match side with
  | .field => iface = 0 || iface = 7 || (iface = 6 && depth = 0)
  | .host => iface = 0 || depth = 3

/-- Why a run is refused (R531); 0 where it is not. -/
def Hw.lbReason (m : Hw) (side : Side) (iface depth : Nat) : Nat :=
  let st := match side with | .field => m.rd Reg.LB_STATUS_STATE | .host => m.rd Reg.HLB_STATUS_STATE
  if !m.inService then 1
  else if st = 1 ∨ st = 2 ∨ (side = .field ∧ m.unitBusy (lbUnit iface) = true) then 2
  else if side = .field ∧ iface = 2 ∧ m.rd Reg.TWN_STATUS_LINK = 2 then 3
  else if side = .host ∧ iface = 3 ∧ depth = 2 ∧ m.on Reg.CBL_STATUS_STATE then 4
  else if side = .field ∧ iface = 3 ∧ depth = 2 ∧ m.on Reg.RL_STATUS_SESSION then 5
  else if lbMissing side iface depth then 6
  else 0

/-- State and reason of a side's run. -/
def Hw.lbShow (m : Hw) (side : Side) (st reason : Nat) : Hw :=
  match side with
  | .field => (m.wr Reg.LB_STATUS_STATE st).wr Reg.LB_STATUS_REASON reason
  | .host => (m.wr Reg.HLB_STATUS_STATE st).wr Reg.HLB_STATUS_REASON reason

/-- A write of START (R528, R531): a field run waits for the tick after the result, a host run begins at the STOP. -/
def Hw.lbStart (m : Hw) (side : Side) : Hw :=
  let iface := match side with | .field => m.rd Reg.LB_CTL_IF | .host => m.rd Reg.HLB_CTL_IF
  let depth := match side with | .field => m.rd Reg.LB_CTL_DEPTH | .host => m.rd Reg.HLB_CTL_DEPTH
  let why := m.lbReason side iface depth
  if why = 2 then m.lbShow side (match side with
      | .field => if m.rd Reg.LB_STATUS_STATE = 1 ∨ m.rd Reg.LB_STATUS_STATE = 2 then m.rd Reg.LB_STATUS_STATE else 5
      | .host => m.rd Reg.HLB_STATUS_STATE) 2
  else if why ≠ 0 then m.lbShow side 5 why
  else
    match side with
    | .field =>
      let m := ((m.lbShow .field 1 0).wr Reg.LB_STATUS_SENT 0).wr Reg.LB_ERRS_ERRORS 0
      { m with lb := { m.lb with due := true, frames := 0 } }
    | .host =>
      let m := (m.lbShow .host 2 0).wr Reg.HLB_STATUS_ERRORS 0
      { m with lb := { m.lb with hostRun := true, hostFrames := 0 } }

/-- The field run that waits begins at a tick (R528); a Tabien run beyond L1 takes the link down (R532). -/
def Hw.lbTick (m : Hw) : Hw :=
  let m : Hw := { m with lb := { m.lb with hostFrames := if m.lb.hostRun then m.lb.hostFrames + 1 else 0 } }
  if m.rd Reg.LB_STATUS_STATE = 2 then { m with lb := { m.lb with frames := m.lb.frames + 1 } }
  else if m.lb.due && decide (m.rd Reg.LB_STATUS_STATE = 1) then
    let m : Hw := { m.lbShow .field 2 0 with lb := { m.lb with due := false, frames := 0 } }
    if m.rd Reg.LB_CTL_IF = 1 ∧ m.rd Reg.LB_CTL_DEPTH ≠ 0 then m.linkOut 0 else m
  else m

/-- The unit returns to service at the end of a run (R532). -/
def Hw.lbReturn (m : Hw) (side : Side) : Hw :=
  match side with
  | .field =>
    let i := m.rd Reg.LB_CTL_IF
    if i = 1 then (m.linkOut 1).admitF 64
    else if i = 2 then m.wr Reg.TWN_STATUS_LINK 1
    else if i = 3 then m.endSession
    else if i = 4 then { m with bus := { m.bus with clearDue := true } }
    else m
  | .host =>
    let m := { m with lb := { m.lb with hostRun := false } }
    let i := m.rd Reg.HLB_CTL_IF
    if i = 1 then m.emptyDrain
    else if i = 2 then { m with hp := { m.hp with pointer := 0 } }
    else m

/-- The value of an ADC or sync run lies within its limits (R530). -/
def lbWithin (iface depth : Nat) (v : Int) : Bool :=
  let near := fun (c d : Int) => decide (c - d ≤ v) && decide (v ≤ c + d)
  if iface = 5 then (if depth = 2 then near 1250000 100 else if depth = 3 then near 2500000 250 else true)
  else if iface = 6 then (if depth = 1 then near 0 10 else near 0 60)
  else true

/-- One step of PRBS-15: the register's next value, and the bit that it puts out. Its polynomial, x^15 + x^14 + 1, is that of the
sequence of this name (PRESUMED, notes/assumptions/114.md). -/
def prbsStep (x : Nat) : Nat × Bool := (x * 2 % 2 ^ 15 + b2n (bitAt x 14 != bitAt x 13), bitAt x 14)

/-- `n` bits of the sequence, the first one highest, and the register after them. -/
def prbsBits : Nat → Nat → Nat → Nat × Nat
  | 0, x, w => (x, w)
  | n + 1, x, w => prbsBits n (prbsStep x).1 (2 * w + b2n (prbsStep x).2)

/-- The patterns that have come back altered, or not at all, among those returned (R529). -/
def prbsErrors : Nat → List (Option Word) → Nat
  | _, [] => 0
  | x, w :: ws =>
    let p := prbsBits 32 x 0
    (if w.map BitVec.toNat = some p.2 then 0 else 1) + prbsErrors p.1 ws

/-- A run ends with a verdict (R529, R530, R532). The patterns of a link or a port are the words of PRBS-15 from the seed
0x0001. -/
def Hw.lbEnd (m : Hw) (side : Side) (back : List (Option Word)) (sent errors : Nat) (value : Int) : Hw :=
  match side with
  | .field =>
    if m.rd Reg.LB_STATUS_STATE = 2 then
      let i := m.rd Reg.LB_CTL_IF
      let words := i ≠ 5 ∧ i ≠ 6
      let sent := if words then back.length else sent
      let errors := if words then prbsErrors 1 back else errors
      let pass := decide (sent = m.rd Reg.LB_CTL_COUNT) && decide (errors = 0) && lbWithin i (m.rd Reg.LB_CTL_DEPTH) value
      let m := ((m.lbShow .field (if pass then 3 else 4) 0).wrSat Reg.LB_STATUS_SENT sent).wrSat Reg.LB_ERRS_ERRORS errors
      (if i = 5 ∨ i = 6 then m.wrI Reg.LB_VALUE_VALUE value else m).lbReturn .field
    else m
  | .host =>
    if m.rd Reg.HLB_STATUS_STATE = 2 then
      let errors := prbsErrors 1 back
      let pass := decide (back.length = m.rd Reg.HLB_CTL_COUNT) && decide (errors = 0)
      ((m.lbShow .host (if pass then 3 else 4) 0).wrSat Reg.HLB_STATUS_ERRORS errors).lbReturn .host
    else m

/-- A run that is open ends with FAIL and a reason (R529, R538). -/
def Hw.lbFail (m : Hw) (side : Side) (reason : Nat) : Hw :=
  let st := match side with | .field => m.rd Reg.LB_STATUS_STATE | .host => m.rd Reg.HLB_STATUS_STATE
  if st = 2 then (m.lbShow side 4 reason).lbReturn side
  else if st = 1 then { m.lbShow side 4 reason with lb := { m.lb with due := false } }
  else m

/-- LB_START (R528). -/
def execLbStart (side : Side) (s : State) : Host.Outcome State Fault Refusal := effect s fun m => m.lbStart side

/-- LB_RUN_END (R529). -/
def execLbRunEnd (side : Side) (back : List (Option Word)) (run : RunCount) (value : Int) (s : State) :
    Host.Outcome State Fault Refusal :=
  effect s fun m => m.lbEnd side back run.sent run.errors value

/-- LB_TIMEOUT (R529): a run that has not ended within 64 frames. -/
def execLbTimeout (side : Side) (s : State) : Host.Outcome State Fault Refusal :=
  effect s fun m =>
    let n := match side with | .field => m.lb.frames | .host => m.lb.hostFrames
    if n < 64 then m else m.lbFail side 7

/-! Fault injection. -/

/-- The pairs of mode and target that R534 gives. -/
def fiPair (mode target : Nat) : Bool :=
  let engine := decide (0x10 ≤ target) && decide (target ≤ 0x18)
  let slice := decide (0x28 ≤ target) && decide (target ≤ 0x2C)
  match mode with
  | 0 => decide (target ≤ 2) || engine || (decide (0x20 ≤ target) && decide (target ≤ 0x3E))
  | 1 => engine || slice || (decide (0x32 ≤ target) && decide (target ≤ 0x35)) || target == 0x37
  | 2 => target == 0x32 || target == 0x33 || target == 0x34
  | 3 => target == 0x35
  | 4 => slice
  | 5 => engine && target != 0x10
  | _ => false

/-- May an injection be armed (R533, R534)? -/
def Hw.fiAllowed (m : Hw) : Bool :=
  m.inService && decide (m.rd Reg.MODE_STATUS_SVC_LEVEL = 2) && fiPair (m.rd Reg.FI_CTL_MODE) (m.rd Reg.FI_CTL_TARGET)

/-- A write of ARM (R533). -/
def Hw.fiArm (m : Hw) : Hw :=
  if m.fiAllowed then { (m.wr Reg.FI_CTL_ARM 1) with lb := { m.lb with armed := true } } else m

/-- FI_ARM (R533). -/
def execFiArm (s : State) : Host.Outcome State Fault Refusal := effect s Hw.fiArm

/-- The armed injection is lost (R533). -/
def Hw.fiDisarm (m : Hw) : Hw := { (m.wr Reg.FI_CTL_ARM 0) with lb := { m.lb with armed := false } }

/-- SERVICE ends: runs of loop-backs end with FAIL, reason MODE, and the armed injection is lost (R533, R538). -/
def Hw.serviceOver (m : Hw) : Hw := ((m.lbFail .field 1).lbFail .host 1).fiDisarm

/-- The occasion of an injection: what is done, or none where the occasion has not come (R534). -/
def Hw.fiMake (m : Hw) (mode target : Nat) : Option Hw :=
  match mode with
  | 0 => some (m.faultW { src := target, kind := m.rd Reg.FI_CTL_KIND, sev := m.rd Reg.FI_CTL_SEV, detail := 0 })
  | 1 =>
    match m.tkt.table.find? fun (t : Ticket) => (t.unit == target || t.owner == target) && t.state == .running with
    | some t => some (m.failTicket t.num)
    | none => none
  | 2 =>
    if target = 0x32 then
      some { m.bump Reg.TL_F_EVENTS_CRC_ERRS with
        host := { m.host with f := { m.host.f with crcFrame := m.host.f.crcFrame + 1 } } }
    else if target = 0x33 then
      some { m.bump Reg.TWN_HB_CRC_ERRS with twin := { m.twin with crcFrame := m.twin.crcFrame + 1 } }
    else some { m.bump Reg.RL_STATUS_CRC_ERRS with rl := { m.rl with crcFrame := m.rl.crcFrame + 1 } }
  | 3 => if m.on Reg.JRN_STATUS_HOLDUP ∨ m.jrn.closed = [] then none else some m.progFail
  | 4 =>
    if m.rd Reg.ADC_STATUS_SPARE = target - 0x28 then
      some ((m.faultAt Kind.ADC_CAL_FAIL target 4).fenceSlice (target - 0x28))
    else none
  | _ => some (m.faultAt Kind.ENGINE_TRAP target 0)

/-- FI_INJECT (R534, R535): once for each arm. -/
def execFiInject (s : State) : Host.Outcome State Fault Refusal :=
  effect s fun m =>
    if m.lb.armed then
      match m.fiMake (m.rd Reg.FI_CTL_MODE) (m.rd Reg.FI_CTL_TARGET) with
      | some m' => ((m'.bump Reg.FI_STATUS_INJECTED).wr Reg.FI_STATUS_LAST_TARGET (m.rd Reg.FI_CTL_TARGET)).fiDisarm
      | none => m
    else m

end Sys2Proof.Machine
end

