-- ==== Sys2Proof/Machine/Control.lean ====
section
/-! DEFINITION. Register writes and reads that clear: the access codes of R9, what a self-clearing control bit does, and
the read-clear rules of R419. -/

namespace Sys2Proof.Machine

/-! Fences lifted. -/

/-- A unit or engine leaves its fence (R340, R342): what the fence held stopped starts again. -/
def Hw.unfence (m : Hw) (id : Nat) : Hw :=
  let m := (m.fenceFlag id false).permFlag id false
  let m := { m with flt := { m.flt with fences := m.flt.fences.filter (·.id != id) } }
  let m := ({ m with tkt := { m.tkt with table := m.tkt.table.map fun (t : Ticket) =>
    if t.unit == id && t.state == TktState.replay then { t with state := .running } else t } }).showTickets
  match Engine.ofId id with
  | some e => m.restartEngine e 0
  | none =>
    if 0x20 ≤ id ∧ id ≤ 0x23 then 
      ({ m.wr Reg.PH_STATUS_FENCED (putBit (m.rd Reg.PH_STATUS_FENCED) (id - 0x20) false) with
        ph := { m.ph with stopped := putBit m.ph.stopped (id - 0x20) false } } : Hw).rePick
    else if id = 0x30 then ({ m with xfer := { m.xfer with fenced := false } }).orderXfer m.dirOfMode 0
    else if id = 0x37 then { (m.wr Reg.SB_STATUS_FENCED 0) with bus := { m.bus with clearDue := true, clearTries := 0 } }
    else if id = 0x38 then m.wr Reg.HP_STATUS_FENCED 0
    else if id = 0x39 then { (m.wr Reg.DRN_STATUS_FENCED 0) with host := { m.host with drain := { m.host.drain with fenced := false } } }
    else if 0x28 ≤ id ∧ id ≤ 0x2C then ((m.wrBit Reg.ADC_STATUS_FENCED (id - 0x28) false).arrange (id - 0x28))
    else m

/-- FENCE_LIFT (R342): after Q quiet frames, for a fence with automatic exit; the links lift at a good retrain, and a
permanent fence stays. Each lift advances the recovery counter. -/
def execFenceLift (id : Fin 64) (s : State) : Host.Outcome State Fault Refusal :=
  effect s fun m =>
    match m.flt.fences.find? (·.id == id.val) with
    | some f =>
      if f.auto && decide (m.rd Reg.FLT_CFG_Q < f.quiet) && id.val != 0x32 && id.val != 0x33 then
        (m.unfence id).recover id
      else m
    | none => m

/-- The fences that stand until `CLR_PERM`: those without an automatic exit, but for a slice (R338, R257). -/
def Hw.standingFences (m : Hw) : List Nat :=
  (m.flt.fences.filter fun (f : FenceSt) => !f.auto && !(0x28 ≤ f.id && f.id ≤ 0x2C)).map fun f => f.id

/-- A write of `FLT_CTL.CLR_PERM` in SERVICE (R342): the permanent fences lift, and every other one without an automatic
exit. A link's lifts at its next good retrain. -/
def Hw.clrPerm (m : Hw) : Hw :=
  if m.inService then
    let perm := ((List.range 32).filter fun i => m.bit Reg.FLT_PERM_U_UNITS i).map (· + 0x20) ++
      (List.range 25).filter fun i => m.bit Reg.FLT_PERM_E_ENGINES i
    let ids := perm ++ m.standingFences.filter fun i => !perm.contains i
    ids.foldl (fun m id =>
      if id = 0x32 ∨ id = 0x33 then
        { (m.permFlag id false) with flt := { m.flt with
            fences := m.flt.fences.map fun (f : FenceSt) => if f.id = id then { f with auto := true } else f } }
      else m.unfence id) m
  else m

/-- FLT_CLR_PERM (R342). -/
def execFltClrPerm (s : State) : Host.Outcome State Fault Refusal := effect s Hw.clrPerm

/-! Fuse burning and the engine test are asked for (R493, R494). -/

/-- A write of BURN on one side (R493). -/
def Hw.askBurn (m : Hw) (side : Side) : Hw :=
  if !m.inService then m
  else match side with
    | .field => { m with bist := { m.bist with burn := true } }
    | .host => { m with bist := { m.bist with hburn := true } }

/-- A write of `BIST_CTL.ENG_TEST` (R494). -/
def Hw.askEngTest (m : Hw) : Hw :=
  if m.inService then { m with modes := { m.modes with resetEngTest := true } } else m

/-! Writes. -/

/-- Control bits that read 0 and act once when written 1. -/
def selfClearing : List Field :=
  [Reg.XFER_CMD_CLR_LATCH, Reg.PH_CTL_CLR_LATCH, Reg.CHG_CTL_CLR_FAULT, Reg.RAIL_CTL_CLR_LATCH, Reg.CBL_CTL_PR_SWAP,
   Reg.CBL_CTL_EXIT_SRC, Reg.CBL_CTL_FS_ENTER, Reg.CBL_CTL_FS_EXIT, Reg.ADC_CTL_FGCAL, Reg.ADC_CTL_CLR_FENCE,
   Reg.FLT_CTL_CLR_PERM, Reg.FLT_CTL_HIST_CLR, Reg.TWN_CTL_RESIGN, Reg.TWN_CTL_ENROL, Reg.TWN_CTL_FORK,
   Reg.MBX_CTL_SUBMIT, Reg.MBX_CTL_POP, Reg.DRN_CTL_GO, Reg.BIST_CTL_ENG_TEST, Reg.BIST_CTL_BURN, Reg.HBIST_CTL_BURN,
   Reg.LB_CTL_START, Reg.HLB_CTL_START, Reg.FI_CTL_ARM]

/-- Where a field's bits lie in the aligned word at `a`. -/
def Field.lsbIn (f : Field) (a : Nat) : Nat := f.lsb + 8 * (f.addr - a)

/-- Is a field writable now (R9)? -/
def Hw.writable (m : Hw) (f : Field) : Bool :=
  match f.acc with
  | .rw => true
  | .wo => true
  | .w1c => true
  | .rws => m.inService
  | .ro => false
  | .rc => false

/-- The bits of the word at `a` that may be written now. -/
def Hw.writableMask (m : Hw) (a : Nat) : Nat :=
  ((Reg.fieldsAt a).filter m.writable).foldl (fun v f => v ||| ((2 ^ f.width - 1) * 2 ^ (f.lsbIn a))) 0

/-- A written value held to the range that its register description gives, for the switching frequencies and current limits
of the converters (R135, R209; that a value outside is held to it is a DESIGN CHOICE, notes/assumptions/107.md). Any other
field takes a value outside its stated range as it is written (DESIGN CHOICE, notes/assumptions/107.md). -/
def inRange (f : Field) (v : Nat) : Nat :=
  if f = Reg.PH_CFG_FSW then clampN 300 1200 v
  else if f = Reg.PH_CFG_ILIM then clampN 8 32 v
  else if f = Reg.POL_CFG_FSW 0 ∨ f = Reg.POL_CFG_FSW 1 ∨ f = Reg.POL_CFG_FSW 2 then clampN 400 2000 v
  else if f = Reg.POL_CFG_ILIM 0 ∨ f = Reg.POL_CFG_ILIM 1 ∨ f = Reg.POL_CFG_ILIM 2 then clampN 4 18 v
  else v

/-- One field under a masked write of its word (R9). -/
def Hw.writeField (m : Hw) (a mask value : Nat) (f : Field) : Hw :=
  let fm := bitsOf mask (f.lsbIn a) f.width
  let fv := bitsOf value (f.lsbIn a) f.width &&& fm
  if fm = 0 ∨ ¬ m.writable f ∨ selfClearing.contains f then m
  else if f.acc = .w1c then m.wr f (m.rd f - (m.rd f &&& fv))
  else m.wr f (inRange f (m.rd f - (m.rd f &&& fm) + fv))

/-- The bits of a written word that are 1 and may be written: what a control word acts on. -/
def Hw.acting (m : Hw) (a mask value : Nat) : Nat := value &&& mask &&& m.writableMask a

/-- What a field-side control word does beyond its stored bits. -/
def Hw.fieldControl (m : Hw) (a v : Nat) : Hw :=
  let on := fun (i : Nat) => bitAt v i
  if a = 0x1204 then m.rePick
  else if a = 0x1420 ∨ a = 0x1424 ∨ a = 0x1428 ∨ a = 0x1450 then m.railsFollow
  else if a = 0x1248 then (if on 0 then m.phClrLatch else m)
  else if a = 0x1330 then (if on 31 then m.clrChgFault else m)
  else if a = 0x1340 ∨ a = 0x1344 then m.statPads
  else if a = 0x1470 then (if on 0 then m.clrRailLatch else m)
  else if a = 0x1508 then
    let m := if on 0 then m.startFg else m
    if on 1 then m.clrSliceFence else m
  else if a = 0x1960 then
    let m := if on 0 then m.clrPerm else m
    if on 8 then m.histClr else m
  else if a = 0x1E20 then m.followTwin
  else if a = 0x1E24 then
    let m := if on 0 then m.resign false true else m
    let m := if on 1 then m.enrol else m
    if on 2 then m.fork else m
  else if a = 0x109C then
    let m := if on 0 then m.askEngTest else m
    if on 1 then m.askBurn .field else m
  else if a = 0x10E4 then (if on 7 then m.lbStart .field else m)
  else if a = 0x10F4 then (if on 31 then m.fiArm else m)
  else m

/-- A masked write of a field-side word: its fields, then what its control bits do. -/
def Hw.writeFieldWord (m : Hw) (a mask value : Nat) : Hw :=
  let act := m.acting a mask value
  ((Reg.fieldsAt a).foldl (fun m f => m.writeField a mask value f) m).fieldControl a act

/-! Reads that clear (R382, R419). -/

/-- The instant of a clear for a field that holds a lowest or highest value (R419). -/
def Hw.extremum (m : Hw) (f : Field) : Option Nat :=
  if f = Reg.KA_MIN_MIN then some (m.rd Reg.RAIL_MON_C_PAIR / 65536)
  else if f = Reg.FRM_FRZ_MAX_MAX then some (m.frzTime / 20000)
  else if f = Reg.ADC_Q_HWM then some m.adc.queue.length
  else if f = Reg.TKT_STATUS_HWM then some m.tkt.table.length
  else if f = Reg.FLT_STATUS_MAXSEV then some 0
  else none

/-- Fields of R9's class RC that hold a set of bits; the others count. -/
def rcBits (f : Field) : Bool :=
  f.width = 1 || [Reg.STAT_LATCH_EVENTS, Reg.STAT_LATCH_FN].contains f

/-- The read of an RC field is applied with the value that was read (R419). -/
def Hw.clearRead (m : Hw) (f : Field) (seen : Nat) : Hw :=
  if f.acc ≠ .rc then m
  else
    let m := match m.extremum f with
      | some v => m.wrSat f v
      | none => if rcBits f then m.wr f (m.rd f - (m.rd f &&& seen)) else m.wr f (m.rd f - seen)
    if f = Reg.STAT_LATCH_EVENTS ∨ f = Reg.STAT_LATCH_FN then m.statPads else m

/-- A live read of a field-side word: its value, and its RC fields cleared by the same rules (R419). A read of the
history lets `FLT_STATUS.DOUBLE` end (R330). -/
def Hw.liveRead (m : Hw) (a : Nat) : Nat × Hw :=
  let v := m.readWord a
  let m := (Reg.fieldsAt a).foldl (fun m f => m.clearRead f (bitsOf v (f.lsbIn a) f.width)) m
  let m := if 0x1A00 ≤ a ∧ a < 0x1E00 then { m with flt := { m.flt with histRead := true } } else m
  (v, m.settleDouble)

end Sys2Proof.Machine
end

