-- ==== Sys2Proof/Machine/Sequencer.lean ====
section
/-! DEFINITION. The frame sequencer's events (chapter 02): sync sources, plans, freeze, aperture, refusal. The frame
tick itself stands in Machine/Tick.lean. -/

/-- The code of a sync source (R45). -/
def Sys2Proof.SyncSrc.code : Sys2Proof.SyncSrc → Nat
  | .line => 1 | .ext => 2 | .cable => 3 | .twin => 4

namespace Sys2Proof.Machine

/-- What the sequencer keeps of a source. -/
def Hw.track (m : Hw) : SyncSrc → SyncTrack
  | .line => m.seq.line | .ext => m.seq.ext | .cable => m.seq.cable | .twin => m.seq.twin

/-- What the sequencer keeps of a source, replaced. -/
def Hw.setTrack (m : Hw) (src : SyncSrc) (x : SyncTrack) : Hw :=
  match src with
  | .line => { m with seq := { m.seq with line := x } }
  | .ext => { m with seq := { m.seq with ext := x } }
  | .cable => { m with seq := { m.seq with cable := x } }
  | .twin => { m with seq := { m.seq with twin := x } }

/-- The source with a code. -/
def syncOfCode : Nat → Option SyncSrc
  | 1 => some .line | 2 => some .ext | 3 => some .cable | 4 => some .twin | _ => none

/-- The nominal frame period in FCLK cycles (R42). -/
def Hw.period (m : Hw) : Nat := 2 * m.rd Reg.FRM_PERIOD_PERIOD

/-- The priority list of `FRM_SRC_CFG`, to its end code 7 (R49). -/
def Hw.priorities (m : Hw) : List Nat :=
  ((List.range 5).map fun i => bitsOf (m.rd Reg.FRM_SRC_CFG_PRI) (3 * i) 3).takeWhile (· != 7)

/-- The source with a code is qualified (R47). -/
def Hw.qualifiedCode (m : Hw) (c : Nat) : Bool :=
  match syncOfCode c with
  | some s => (m.track s).qualified
  | none => false

/-- JR_SYNC_CHANGE, held while F6 JOURNAL restarts (R51). -/
def Hw.syncRecord (m : Hw) (old new state : Nat) : Hw :=
  let r := m.mkRec JR.SYNC_CHANGE 0x3C (le 1 old ++ le 1 new ++ le 1 state ++ le 1 0)
  if (m.engine .f6).restarting then { m with seq := { m.seq with heldSync := m.seq.heldSync ++ [r] } } else m.submitRec r

/-- The sequencer takes a source and a state, with the record of a change (R51). -/
def Hw.setSync (m : Hw) (src state : Nat) : Hw :=
  if m.rd Reg.FRM_STATUS_SRC = src ∧ m.rd Reg.FRM_STATUS_STATE = state then m
  else
    let old := m.rd Reg.FRM_STATUS_SRC
    let m := (m.wr Reg.FRM_STATUS_SRC src).wr Reg.FRM_STATUS_STATE state
    { m.syncRecord old src state with seq := { (m.syncRecord old src state).seq with lockRun := 0, holdover := 0, lossDue := false } }

/-- One event of a source (R45 to R47): spacing, qualification, tick-bearing interval. -/
def SyncTrack.event (x : SyncTrack) (now nominal mult : Nat) : SyncTrack :=
  let spacing := match x.lastAt with | none => 0 | some l => now - l
  let good := x.lastAt.isSome && 98 * nominal ≤ 100 * spacing && 100 * spacing ≤ 102 * nominal
  let run := if good then x.run + 1 else 0
  let window := lastN 8 (x.window ++ [good || x.lastAt.isNone])
  let lostWindow := 4 ≤ (window.filter (!·)).length
  let qualified := (x.qualified && !lostWindow) || 8 ≤ run
  { lastAt := some now
    run := run
    qualified := qualified
    qualFrames := if qualified then x.qualFrames else 0
    group := if x.group + 1 < mult then x.group + 1 else 0
    intervals := match x.bearingAt with
      | some b => if x.group = 0 then lastN 4 (x.intervals ++ [now - b]) else x.intervals
      | none => x.intervals
    bearingAt := if x.group = 0 then some now else x.bearingAt
    window := window }

/-- The twin states in which source TWIN can qualify: not in LEAD or SOLO (R371). -/
def twinFollows (st : Nat) : Bool := st != 2 && st != 3

/-- The edge selector of TSB_LINE takes the frame-share tick (R45): the alternate mode is entered, the module receives
the tick, and LINE is not the active source (DEDUCED, notes/assumptions/85.md). The selector stands on the host side and
takes the active source as the field side has it (DEDUCED, notes/assumptions/106.md). -/
def Hw.fsSelected (m : Hw) : Bool :=
  m.on Reg.CBL_STATUS_FS_MODE && !m.cable.fsDrive && m.rd Reg.FRM_STATUS_SRC != 1

/-- An edge of a source reaches the sequencer: TSB_LINE carries the LSENSE comparator or the frame-share tick, never both
(R45). -/
def Hw.lineCarries (m : Hw) : SyncSrc → Bool
  | .line => !m.fsSelected
  | .cable => m.fsSelected
  | _ => true

/-- The sequencer takes a source as the active one only where the mode lets it: in KEEPALIVE and SHIP it runs on FREE
(R60). -/
def Hw.mayFollow (m : Hw) : Bool := m.mode != modeKEEPALIVE && m.mode != modeSHIP

/-- SOURCE_EVENT (R45, R46, R47): the source's period and qualification. TSB_LINE changes level on the edge that it carries
(R16). A source that qualifies ends a holdover on itself (R49), and becomes active at once where the sequencer runs on none:
how FREE_RUN is left no rule says (DESIGN CHOICE, notes/assumptions/118.md). -/
def execSourceEvent (src : SyncSrc) (t : Nat) (s : State) : Host.Outcome State Fault Refusal :=
  effect s fun m =>
    let m := m.atT t
    if !m.lineCarries src then m
    else
      let m := if src = .line ∨ src = .cable then
        { m with arch := { m.arch with sb := { m.arch.sb with line := !m.arch.sb.line } } } else m
      let mult := if src = .line then max 1 (m.rd Reg.FRM_SRC_CFG_LINE_MULT) else 1
      let x := (m.track src).event m.now (m.period / mult) mult
      let x := if src = .twin && !twinFollows (m.rd Reg.TWN_STATUS_STATE) then { x with run := 0, qualified := false } else x
      let m := m.setTrack src x
      let st := m.rd Reg.FRM_STATUS_STATE
      if !m.mayFollow then m
      else if x.qualified && st = 3 && m.priorities.contains src.code then m.setSync src.code 0
      else if x.qualified && 8 ≤ x.run && st = 2 && m.rd Reg.FRM_STATUS_SRC = src.code then m.setSync src.code 0
      else m

/-- A source that has given no event for its time is not qualified any more (R49). -/
def SyncTrack.forget (x : SyncTrack) : SyncTrack := { x with run := 0, qualified := false, qualFrames := 0, window := [] }

/-- The active source is lost (R49, R51): SYNC_LOST. The frame completes at its length, and HOLDOVER follows at the next
tick (R75). -/
def Hw.syncLost (m : Hw) : Hw :=
  let c := m.rd Reg.FRM_STATUS_SRC
  match syncOfCode c with
  | none => m
  | some src =>
    if (m.rd Reg.FRM_STATUS_STATE = 0 ∨ m.rd Reg.FRM_STATUS_STATE = 1) ∧ ¬ m.seq.lossDue then
      let m := m.setTrack src (m.track src).forget
      ({ m.wr Reg.FRM_STATUS_LOSS 1 with seq := { m.seq with lossDue := true } } : Hw).fault Kind.SYNC_LOST c
    else m

/-- SYNC_SOURCE_LOST (R49, R51). -/
def execSyncSourceLost (s : State) : Host.Outcome State Fault Refusal := effect s Hw.syncLost

/-- Records of a change that waited for F6 JOURNAL go to it (R51). -/
def Hw.submitSync (m : Hw) : Hw :=
  m.seq.heldSync.foldl (fun m r => m.submitRec r) { m with seq := { m.seq with heldSync := [] } }

/-- HOLDOVER_EXPIRY (R49): after 64 frames of holdover, the first qualified source of the list, or FREE_RUN. -/
def execHoldoverExpiry (s : State) : Host.Outcome State Fault Refusal :=
  effect s fun m =>
    if m.rd Reg.FRM_STATUS_STATE = 2 ∧ 64 ≤ m.seq.holdover then
      match m.priorities.find? m.qualifiedCode with
      | some c => m.setSync c 0
      | none => m.setSync 0 3
    else m

/-- SOURCE_PRIORITY_CHANGE (R50): a source of higher priority that has stayed qualified for 64 frames becomes active. -/
def execSourcePriorityChange (s : State) : Host.Outcome State Fault Refusal :=
  effect s fun m =>
    let higher := m.priorities.takeWhile (· != m.rd Reg.FRM_STATUS_SRC)
    match higher.find? (fun c => match syncOfCode c with
        | some x => (m.track x).qualified && decide (64 ≤ (m.track x).qualFrames)
        | none => false) with
    | some c => if m.mayFollow then m.setSync c 0 else m
    | none => m

/-- PLAN_PAD_CHANGE (R53): the filtered pads become the pending selection. -/
def execPlanPadChange (pads : Fin 4) (s : State) : Host.Outcome State Fault Refusal :=
  effect s fun m => { m with seq := { m.seq with planPads := pads } }

/-- Freeze may be admitted at all: outputs driven, no pin reset, configuration applied (R60, R450). -/
def Hw.freezeAllowed (m : Hw) : Bool := m.seq.cfgApplied && !m.seq.pinHeld && !m.seq.outputsLow

/-- The length of the freeze run from slot `sl` of plan `p`, in µs (R70). -/
def Hw.runTime (m : Hw) (p sl : Nat) : Nat := m.runSlots p sl * m.seq.len / 256 / 200

/-- The decision for slot `sl` of a frame under plan `p` (R55, R68, R71): pre-freeze for an admitted slot, a witness for a
refused one. The rest of a refused run stays refused (R65, R69). `at_` is the slot in the present frame, 256 for slot 0
before its tick, whose witness carries the FRN of its frame (DESIGN CHOICE, notes/assumptions/83.md). -/
def Hw.decideSlot (m : Hw) (p sl at_ frn : Nat) (a : Admit) : Hw :=
  let same := m.sameRun at_
  let no := fun (m : Hw) => { m with
    seq := { m.seq with slotZero := if at_ = 256 then some (frn, p) else m.seq.slotZero }
    jrn := { m.jrn with refSlots := m.jrn.refSlots + 1, refused := true } }
  if same && m.seq.runRefused then
    no { m with seq := { m.seq with refusedNow := true, quietFrames := 0, lastSlot := sl, lastFrn := frn } }
  else match m.admission a (m.runTime p sl) with
    | none => m.raise sl
    | some r => no ((m.refuse sl r frn false (same && m.seq.runCounted)).markRun at_ false)

/-- PRE_FREEZE (R55, R68, R117): 4.000 µs before a planned slot at whose start freeze is not in force. For slot 0 the
plan is the selection as it stands, and the slot belongs to the next frame (R558). -/
def execPreFreeze (slot : Fin 256) (a : Admit) (s : State) : Host.Outcome State Fault Refusal :=
  effect s fun m =>
    let zero := decide (slot.val = 0)
    let p := if zero then m.selPlan else m.rd Reg.FRM_STATUS_PLAN
    if m.freezeAllowed && m.mapBit p slot && !m.frozen && !m.seq.holdBreak then
      (m.atT ((if zero then m.seq.len else slotStart m.seq.len slot) - 800)).decideSlot p slot
        (if zero then 256 else slot) (if zero then m.frnAfter 1 else m.frn) a
    else m

/-- PRE_FREEZE_SLOT0_DECISION (R558): at the tick, pre-freeze is withdrawn where the governing plan's slot 0 is thaw,
and freeze is entered as for an aperture where it is freeze, no pre-freeze was raised, and this slot of this plan has not
been refused before the tick. -/
def execPreFreezeSlot0Decision (a : Admit) (s : State) : Host.Outcome State Fault Refusal :=
  effect s fun m =>
    if m.seq.preFreeze = some 0 ∧ ¬ m.planned 0 then m.liftQuiet
    else if m.seq.preFreeze ≠ some 0 ∧ m.planned 0 ∧ ¬ m.frozen ∧ m.freezeAllowed ∧ ¬ m.seq.holdBreak ∧
        m.seq.slotZero ≠ some (m.frn, m.rd Reg.FRM_STATUS_PLAN) then
      let m := m.decideSlot (m.rd Reg.FRM_STATUS_PLAN) 0 0 m.frn a
      if m.seq.preFreeze = some 0 then m.enterFreeze a.late a.lateRails a.ns else m
    else m

/-- FREEZE_SLOT_BOUNDARY (R58, R118, R175): the admitted freeze begins; what still carries current opens and is
recorded. -/
def execFreezeSlotBoundary (slot : Fin 256) (late : Fin 16) (lateRails : Fin 8) (ns : Nat) (s : State) :
    Host.Outcome State Fault Refusal :=
  effect s fun m =>
    if m.seq.preFreeze = some slot.val then
      (m.atT (slotStart m.seq.len slot)).enterFreeze late lateRails ns
    else m

/-- FREEZE_RUN_END (R56): at a thaw slot of the plan, freeze ends where no aperture holds it. -/
def execFreezeRunEnd (slot : Fin 256) (s : State) : Host.Outcome State Fault Refusal :=
  effect s fun m =>
    if m.frozen && !m.planned slot && !m.on Reg.FRM_STATUS_APT then
      (m.atT (slotStart m.seq.len slot)).freezeEnd false
    else m

/-! Apertures (R61 to R65, R237). -/

/-- The effective aperture limit in 0.1 ms units for a request made at the time `at_` (R64), with a source load of `psrc`
mW. -/
def Hw.aptLimit (m : Hw) (psrc at_ : Nat) : Nat :=
  let was := if m.frozen then at_ - m.seq.frzStart else 0
  let a := min (m.rd Reg.FRM_APT_CFG_LIMIT * 10) (6000 - was / 20000)
  if m.mode = modeSOURCE ∧ 0 < psrc then
    min a (m.cbufC * (m.vbusTarget ^ 2 - (m.vbusTarget * 95 / 100) ^ 2) / (20000 * psrc))
  else a

/-- The effective limit as the tick recomputes it: for the newest aperture in force, or for a request now (R64). -/
def Hw.limitTick (m : Hw) (psrc : Nat) : Hw :=
  m.wrSat Reg.FRM_APT_EFF_EFF (m.aptLimit psrc (match m.seq.apts.getLast? with | some x => x.at_ | none => m.now))

/-- An aperture comes into force at the present time, with its end where its length is given (R61, R63). -/
def Hw.holdApt (m : Hw) (b : AptBy) (len : Option Nat) : Hw :=
  { m.wr Reg.FRM_STATUS_APT 1 with
    seq := { m.seq with apts := m.seq.apts ++ [{ by_ := b, at_ := m.now, until_ := len.map (m.now + ·) }] } }

/-- The present slot is planned and the rest of its run is refused (R65, R69, R75). -/
def Hw.restRefused (m : Hw) : Bool :=
  let slot := slotOf m.seq.len m.seq.t
  m.seq.runRefused && m.planned slot && m.sameRun slot

/-- The decision for an aperture of a length in FCLK cycles: the reason of refusal, or none (R68, R75). -/
def Hw.refuseApt (m : Hw) (a : Admit) (len : Nat) : Option Nat :=
  if m.restRefused then some m.seq.lastReason else m.admission a (len / 200)

/-- An aperture request (R61, R64, R68, R75): in freeze it extends the freeze; in thaw it is admitted or refused, and a
refused request starts no aperture timer. In the break of R65 it waits for the break's end. -/
def Hw.requestAperture (m : Hw) (a : Admit) (b : AptBy) (len : Option Nat) : Hw :=
  let m := m.wrSat Reg.FRM_APT_EFF_EFF (m.aptLimit a.psrc m.now)
  if m.frozen || m.seq.holdBreak then m.holdApt b len
  else match m.refuseApt a (len.getD (m.rd Reg.FRM_APT_EFF_EFF * 20000)) with
    | none => (m.holdApt b len).enterFreeze a.late a.lateRails a.ns
    | some r => m.refuse (slotOf m.seq.len m.seq.t) r m.frn false false

/-- F62 APERTURE or QREQ may force freeze (R61, R237, R450). -/
def Hw.apertureHeard (m : Hw) : Bool := m.on Reg.FRM_APT_CFG_EN && m.freezeAllowed

/-- APERTURE_RISE (R61): F62 APERTURE rises. -/
def execApertureRise (t : Nat) (a : Admit) (s : State) : Host.Outcome State Fault Refusal :=
  effect s fun m =>
    let m := { m.atT t with seq := { (m.atT t).seq with aptPad := true } }
    if m.apertureHeard && !m.seq.aptIgnored && !m.seq.apts.any (·.by_ == .pad) then m.requestAperture a .pad none else m

/-- Some apertures end (R62): where none is left, freeze ends unless the plan holds it. -/
def Hw.releaseApts (m : Hw) (p : Apt → Bool) : Hw :=
  if m.seq.apts.any p then
    let left := m.seq.apts.filter fun x => !p x
    let m := { m.wrB Reg.FRM_STATUS_APT (left != []) with seq := { m.seq with apts := left } }
    if m.frozen && left == [] && !m.planned (slotOf m.seq.len m.seq.t) then m.freezeEnd false else m
  else m

/-- A scheduled aperture whose length has run (R63). -/
def Apt.over (now : Nat) (x : Apt) : Bool := match x.until_ with | some e => decide (e ≤ now) | none => false

/-- APERTURE_FALL (R62): the length of a scheduled aperture has run, or F62 APERTURE falls. -/
def execApertureFall (t : Nat) (s : State) : Host.Outcome State Fault Refusal :=
  effect s fun m =>
    let m := m.atT t
    if m.seq.apts.any (Apt.over m.now) then m.releaseApts (Apt.over m.now)
    else ({ m with seq := { m.seq with aptPad := false } } : Hw).releaseApts (·.by_ == .pad)

/-- APERTURE_LIMIT_EXPIRY (R62, R64): the apertures whose limit has run end, and an F62 that forced one is ignored until
it is armed again. -/
def execApertureLimitExpiry (t : Nat) (s : State) : Host.Outcome State Fault Refusal :=
  effect s fun m =>
    let m := m.atT t
    let out := fun (x : Apt) => decide (x.at_ + m.rd Reg.FRM_APT_EFF_EFF * 20000 ≤ m.now)
    if m.seq.apts.any out then
      let pad := m.seq.apts.any fun x => out x && x.by_ == .pad
      let m := (m.releaseApts out).fault Kind.APERTURE_EXPIRED 0
      { m with seq := { m.seq with aptIgnored := m.seq.aptIgnored || pad } }
    else m

/-- APERTURE_REARM (R62): the pad has been low for 10 µs. -/
def execApertureRearm (s : State) : Host.Outcome State Fault Refusal :=
  effect s fun m => if m.seq.aptPad then m else { m with seq := { m.seq with aptIgnored := false } }

/-- SCHEDULED_APERTURE_START (R63): an aperture armed at least 50 µs ahead raises pre-freeze 4.000 µs before its start and
freezes at it; any other acts as for the pad, at its start or at its receipt. -/
def execScheduledApertureStart (t : Nat) (a : Admit) (s : State) : Host.Outcome State Fault Refusal :=
  effect s fun m =>
    let m := m.atT t
    match m.seq.sched with
    | none => m
    | some x =>
      let start := slotStart m.seq.len x.slot + x.cycle
      let here := decide (x.frn = m.frn)
      let due := m.frnReached x.frn && (!here || decide (start ≤ t))
      let from_ := if here then start else m.seq.len + start
      let ahead := (here || decide (x.frn = m.frnAfter 1)) && decide (x.armedAt + 10000 ≤ m.seq.tickAt + from_) &&
        decide (from_ ≤ t + 800)
      let gone := fun (m : Hw) => { m with seq := { m.seq with sched := none } }
      let refused := fun (m : Hw) (r : Nat) =>
        (gone (m.refuse (slotOf m.seq.len m.seq.t) r m.frn false false)).aptEvent 0x6 0x03
      if due then
        let m := gone m
        if x.raised then
          (({ m with seq := { m.seq with preFreeze := none } } : Hw).holdApt .sched (some (x.len * 20000))).enterFreeze
            a.late a.lateRails a.ns |>.aptEvent 0x2 0
        else if m.freezeAllowed then
          let m := m.requestAperture a .sched (some (x.len * 20000))
          if m.seq.apts.any (·.by_ == .sched) then m.aptEvent 0x2 0 else m.aptEvent 0x6 0x03
        else m.aptEvent 0x6 0x03
      else if ahead && !x.raised then
        if !m.freezeAllowed then (gone m).aptEvent 0x6 0x03
        else
          let m := m.wrSat Reg.FRM_APT_EFF_EFF (m.aptLimit a.psrc m.now)
          if m.frozen || m.seq.holdBreak then m
          else match m.refuseApt a (x.len * 20000) with
            | none =>
              let m := if m.seq.preFreeze.isSome then m else m.raise 256
              { m with seq := { m.seq with sched := some { x with raised := true } } }
            | some r => refused m r
      else m

/-- The host side hears the QREQ line of the frame-share mode (R236, R237), and raises its code. -/
def Hw.qreqHeard (m : Hw) : Bool := m.on Reg.CBL_STATUS_FS_MODE && m.on Reg.CBL_FS_CFG_QREQ_APT

/-- QREQ_REQUEST (R17, R237): the line has fallen, and the code acts as an aperture request once it is its turn. -/
def execQreqRequest (t : Nat) (a : Admit) (s : State) : Host.Outcome State Fault Refusal :=
  effect s fun m =>
    let m := if m.qreqHeard then (m.atT t).haltOnce .qreqRequest else m.atT t
    m.onHCode .qreqRequest fun m =>
      if m.apertureHeard && !m.seq.apts.any (·.by_ == .qreq) then m.requestAperture a .qreq none else m

/-- QREQ_RELEASE (R17, R237): the line has risen, or has been left with its mode, and the code acts as the release of the
aperture once it is its turn. -/
def execQreqRelease (t : Nat) (s : State) : Host.Outcome State Fault Refusal :=
  effect s fun m => ((m.atT t).haltOnce .qreqRelease).onHCode .qreqRelease fun m => m.releaseApts (·.by_ == .qreq)

/-- DRIVER_HOLD_CUT (R65): 600 ms of continuous freeze ends freeze for 40 µs. No stage begins anything, so TSB_QUIET and
the hold paths stay as they are (DEDUCED, notes/assumptions/86.md). -/
def execDriverHoldCut (t : Nat) (s : State) : Host.Outcome State Fault Refusal :=
  effect s fun m =>
    let m := m.atT t
    if m.frozen ∧ 120000000 ≤ m.frzTime then
      let slot := slotOf m.seq.len t
      let m := (((m.freezeStop).refuse slot rsnDriverHold m.frn true false)).markRun slot false
      { m with seq := { m.seq with holdBreak := true } }
    else m

/-- DRIVER_HOLD_BREAK_END (R65): freeze still due is admitted afresh, or the rest of the run is refused. -/
def execDriverHoldBreakEnd (t : Nat) (a : Admit) (s : State) : Host.Outcome State Fault Refusal :=
  effect s fun m =>
    if m.seq.holdBreak then
      let m := m.atT t
      let m := { m with seq := { m.seq with
        holdBreak := false, apts := m.seq.apts.map fun (x : Apt) => { x with at_ := m.now } } }
      let slot := slotOf m.seq.len t
      let plan := m.planned slot
      if plan || m.on Reg.FRM_STATUS_APT then
        let m := m.wrSat Reg.FRM_APT_EFF_EFF (m.aptLimit a.psrc m.now)
        let us := if plan then m.runTime (m.rd Reg.FRM_STATUS_PLAN) slot else m.rd Reg.FRM_APT_EFF_EFF * 100
        match m.admission a us with
        | none => m.enterFreeze a.late a.lateRails a.ns
        | some r => ((((m.noApts).thaw false).refuse slot r m.frn false true)).markRun slot true
      else m.thaw false
    else m

/-- FREEZE_END_VBAT_LOW (R69): the V_BAT comparator ends freeze. -/
def execFreezeEndVbatLow (t : Nat) (s : State) : Host.Outcome State Fault Refusal :=
  effect s fun m => (m.atT t).cutFreeze rsnBatLow false

/-- SOURCE_LOAD_FREEZE_END (R70): in SOURCE, CBUF has reached V_lo. -/
def execSourceLoadFreezeEnd (t : Nat) (s : State) : Host.Outcome State Fault Refusal :=
  effect s fun m => if m.mode = modeSOURCE then (m.atT t).cutFreeze rsnSourceLoad false else m

/-- REFUSAL_RUN_END (R71): 8 frames without refusal close the run of refusals. -/
def execRefusalRunEnd (s : State) : Host.Outcome State Fault Refusal :=
  effect s fun m =>
    if m.on Reg.FRM_STATUS_REFUSING ∧ 8 ≤ m.seq.quietFrames then
      (m.wr Reg.FRM_STATUS_REFUSING 0).record JR.FREEZE_REFUSAL 0x3C
        (refusalPayload m.seq.lastSlot m.seq.lastReason 1 m.seq.runCount m.seq.lastFrn)
    else m

end Sys2Proof.Machine
end

