-- ==== Sys2Proof/Machine/HostActs.lean ====
section
/-! DEFINITION. What each host command checks and does (R412, R466), but for the measurement commands
(Machine/Measure.lean) and the update commands (Machine/Update.lean). -/

namespace Sys2Proof.Machine

/-- As `Hw.runCmd`, for a check that leaves a trace of its own: a fault word, a count. -/
def Hw.runChecked (m : Hw) (s code : Nat) (check : Hw → HostCmd → Hw × Option Answer)
    (act : Hw → HostCmd → Hw × Answer) : Hw :=
  match m.nextCmd s code with
  | none => m
  | some c =>
    if m.mustWait c then m
    else
      match m.gate c with
      | some a => m.refuseCmd c a
      | none =>
        let r := check m c
        match r.2 with
        | some a => r.1.refuseCmd c a
        | none =>
          if c.durable then r.1.validated c
          else
            let x := act r.1 c
            x.1.answerCmd c x.2

/-! PING, REG_READ, REG_WRITE. -/

/-- PING (R412). -/
def pingAct (m : Hw) (_ : HostCmd) : Hw × Answer := (m, okWith (le 4 m.frn ++ le 1 m.mode ++ le 3 0))

/-- An address of the field registers, aligned to 4 (R412). -/
def fieldAddr (a : Nat) : Bool := 0x1000 ≤ a && a < 0x2000 && a % 4 = 0

/-- The arguments of REG_READ. -/
def regReadCheck (_ : Hw) (c : HostCmd) : Option Answer :=
  if !fieldAddr (c.arg 0 2) then some (badArg 0)
  else if c.arg 2 2 = 0 ∨ 62 < c.arg 2 2 ∨ 0x2000 < c.arg 0 2 + 4 * c.arg 2 2 then some (badArg 2)
  else none

/-- Live words read one after another. -/
def Hw.readWords (m : Hw) (a : Nat) : Nat → Hw × List Byte
  | 0 => (m, [])
  | n + 1 =>
    let r := m.liveRead a
    let x := r.2.readWords (a + 4) n
    (x.1, le 4 r.1 ++ x.2)

/-- REG_READ (R412, R419). -/
def regReadAct (m : Hw) (c : HostCmd) : Hw × Answer :=
  let r := m.readWords (c.arg 0 2) (c.arg 2 2)
  (r.1, okWith r.2)

/-- The refusals of REG_WRITE: its address, `TWN_CTL` (R414, R365) and `FI_CTL` (R533, R534). -/
def regWriteCheck (m : Hw) (c : HostCmd) : Option Answer :=
  let a := c.arg 0 2
  let mask := c.arg 4 4
  let value := c.arg 8 4
  let act := m.acting a mask value
  if !fieldAddr a then some (badArg 0)
  else if a = 0x1E24 then
    if mask % 2 = 1 ∧ mask / 2 % 4 ≠ 0 then some (badArg 4)
    else if (bitAt act 1 ∧ ¬ m.mayEnrol) ∨ (bitAt act 2 ∧ ¬ m.mayFork) then some (badState 0)
    else none
  else if a = 0x10F4 then
    let fld := fun (f : Field) =>
      let k := bitsOf mask f.lsb f.width
      (m.rd f - (m.rd f &&& k)) + (bitsOf value f.lsb f.width &&& k)
    if !c.durable then some (badState 0)
    else if bitAt act 31 ∧ ¬ fiPair (fld Reg.FI_CTL_MODE) (fld Reg.FI_CTL_TARGET) then some (badArg 8)
    else none
  else none

/-- REG_WRITE (R412, R415): the value after the write, and IGNORED where masked bits were not writable. -/
def regWriteAct (m : Hw) (c : HostCmd) : Hw × Answer :=
  let a := c.arg 0 2
  let mask := c.arg 4 4
  let lost := mask - (mask &&& m.writableMask a)
  let m := m.writeFieldWord a mask (c.arg 8 4)
  (m, { status := stOK, data := le 4 (m.readWord a), rflags := if lost = 0 then 0 else 4 })

/-! The statement, the time, a release, a stream reset. -/

/-- The KA unbroken-since statement with its signature (R302). -/
def Hw.statement (m : Hw) (nonce : List Byte) : List Byte :=
  let body := le 4 1 ++
    le 4 (m.rd Reg.RTC_STATUS_VALID + 2 * m.rd Reg.KA_SET_TWIN + 4 * b2n m.rails.kaArmed + 8 * b2n (!m.jrn.unreadSince)) ++
    padTo 16 nonce ++ le 8 (m.rd Reg.ID_SERIAL_SERIAL) ++ le 4 m.frn ++ le 6 m.timeNow.1 ++ le 2 m.timeNow.2 ++
    le 1 m.jrn.sinceKind ++ le 3 0 ++ le 4 m.jrn.sinceFrn ++ le 6 m.jrn.sinceTai ++ le 2 m.jrn.sinceSub ++
    le 8 m.jrn.sinceJsn ++ le 8 (m.rd Reg.JRN_COMMIT_JSN) ++ digestBytes m.jrn.headChain ++ le 4 m.rails.gaps ++
    le 4 m.rails.dips ++ le 2 (satN 16 m.rails.lowest) ++ le 1 (m.rd Reg.KA_SET_CODE) ++ le 1 0
  body ++ Config.deviceSign body

/-- KA_STATEMENT (R302). -/
def kaStatementAct (m : Hw) (c : HostCmd) : Hw × Answer := (m, okWith (m.statement (slice c.args 0 16)))

/-- A time as a count of 1/32768 s. -/
def unitsOf (tai sub : Nat) : Nat := tai * 32768 + sub

/-- A time setting (R306): 0 STEP, 1 SLEW, 2 UTC. The record's header time is NEW for a STEP, and the count at
application for the others. What is left of a slew under way is dropped at a STEP, and a second SLEW replaces it (DESIGN CHOICE,
log entry 126). -/
def Hw.setTime (m : Hw) (mode : Nat) (utc : Int) (tai sub origin seq : Nat) : Hw × JRec :=
  let old := m.timeNow
  let oldU := unitsOf old.1 old.2
  let newU := if mode = 2 then oldU else unitsOf tai sub
  let oldUtc := m.rdI Reg.RTC_UTC_OFFSET
  let newUtc := if mode = 2 then utc else oldUtc
  let flags := m.rd Reg.RTC_STATUS_VALID + 2 * b2n (decide (mode = 0 ∧ newU < oldU))
  let since := oldU - unitsOf (m.rd Reg.RTC_SEC_TAI) (m.rd Reg.RTC_SUB_SUB)
  let m := match mode with
    | 0 =>
      let base := newU - since
      { ((m.wr Reg.RTC_SEC_TAI (base / 32768)).wr Reg.RTC_SUB_SUB (base % 32768)) with jrn := { m.jrn with slew := 0 } }
    | 1 => { m with jrn := { m.jrn with slew := ((newU : Int) - (oldU : Int)) * 200000000 } }
    | _ => m.wrI Reg.RTC_UTC_OFFSET utc
  let m := (m.wr Reg.RTC_STATUS_VALID 1).wr Reg.RTC_STATUS_SET_EVT 1
  let r := m.mkRec JR.TIME_SET 0x16 (le 1 mode ++ le 1 origin ++ le 1 flags ++ le 1 0 ++ le 6 old.1 ++ le 2 old.2 ++
    le 6 (newU / 32768) ++ le 2 (newU % 32768) ++ le 2 (unsignedOf 16 oldUtc) ++ le 2 (unsignedOf 16 newUtc) ++ le 4 seq)
  let hdr := if mode = 0 then newU else oldU
  (m, { r with tai := hdr / 32768, sub := hdr % 32768 })

/-- The arguments of TIME_SET, and the reach of a SLEW (R306). -/
def timeSetCheck (m : Hw) (c : HostCmd) : Option Answer :=
  let newU := unitsOf (c.arg 4 6) (c.arg 10 2)
  let oldU := unitsOf m.timeNow.1 m.timeNow.2
  if 2 < c.arg 0 1 then some (badArg 0)
  else if 32768 ≤ c.arg 10 2 then some (badArg 10)
  else if c.arg 0 1 = 1 ∧ (oldU + 65536 < newU ∨ newU + 65536 < oldU) then some (badState 0)
  else none

/-- TWM_TIME (R372). -/
def Hw.sendTime (m : Hw) (mode : Nat) : Hw :=
  { (m.trySendTwin 7 (le 1 mode ++ le 1 0 ++ le 2 (m.rd Reg.RTC_UTC_OFFSET) ++ le 6 m.timeNow.1 ++ le 2 m.timeNow.2)) with
    twin := { (m.trySendTwin 7 (le 1 mode ++ le 1 0 ++ le 2 (m.rd Reg.RTC_UTC_OFFSET) ++ le 6 m.timeNow.1 ++
      le 2 m.timeNow.2)).twin with timeAt := m.frn } }

/-- TIME_SET (R306): the setting, its record and its answer. A LEAD tells its partner (R372). -/
def timeSetAct (m : Hw) (c : HostCmd) : Hw × Answer × JRec :=
  let old := m.timeNow
  let r := m.setTime (c.arg 0 1) (signedOf 16 (c.arg 2 2)) (c.arg 4 6) (c.arg 10 2) (b2n m.inService) c.seq
  let m := if m.twn = twnLEAD then r.1.sendTime (c.arg 0 1) else r.1
  (m, okWith (le 6 old.1 ++ le 2 old.2), r.2)

/-- RELEASE is refused unless the epoch's seal is committed (R299). -/
def releaseCheck (m : Hw) (c : HostCmd) : Option Answer :=
  let s := m.rd Reg.JRN_SEALED_EPOCH
  if s = 0xFFFFFFFF ∨ s < c.arg 0 4 then some (badState 0) else none

/-- An epoch is released: `JRN_RELEASED` never falls (R299). -/
def Hw.release (m : Hw) (e : Nat) : Hw := if m.released e then m else (m.wr Reg.JRN_RELEASED_EPOCH e).showNand

/-- STREAM_RESET (R412): N_s becomes NEW_N. -/
def streamResetAct (m : Hw) (c : HostCmd) : Hw × Answer := (m.wr (Reg.HOST_SEQ_N c.stream) (c.arg 0 4), okWith [])

/-! SERVICE. -/

/-- KEY_ID: the first 8 bytes of the SHA-256 digest of a key (R454). -/
def keyId (key : List Byte) : List Byte := (digestBytes (Config.sha256 key)).take 8

/-- The frames of 60 s at the present period (R462). -/
def Hw.frames60 (m : Hw) : Nat := if m.period = 0 then 3000 else 12000000000 / m.period

/-- The level of a challenge (R462). -/
def challengeCheck (_ : Hw) (c : HostCmd) : Option Answer :=
  if c.arg 0 1 = 1 ∨ c.arg 0 1 = 2 then none else some (badArg 0)

/-- SVC_CHALLENGE (R462): a new challenge replaces the open one. -/
def challengeAct (m : Hw) (c : HostCmd) : Hw × Answer :=
  let ends := m.frnAfter m.frames60
  let n := m.modes.nonces
  ({ m with modes := { m.modes with
      challenge := some { index := n, level := c.arg 0 1, expires := ends }, nonces := n + 1 } },
   okWith (padTo 32 (Config.nonce n) ++ le 8 (m.rd Reg.ID_SERIAL_SERIAL) ++ le 4 ends))

/-- The message that SVC_ENTER's signature covers (R462). -/
def Hw.serviceMsg (m : Hw) (x : Challenge) (level : Nat) : List Byte :=
  padTo 32 (Config.nonce x.index) ++ le 8 (m.rd Reg.ID_SERIAL_SERIAL) ++ le 1 level ++ le 7 0

/-- Does the signature of an SVC_ENTER verify (R462, R463)? While the slot is empty, LEVEL 1 needs none. -/
def Hw.serviceOk (m : Hw) (x : Challenge) (c : HostCmd) : Bool :=
  let level := c.arg 0 1
  let msg := m.serviceMsg x level
  level == x.level &&
    (if level = 2 then Config.ed25519Verify Config.factoryKey msg ((c.args.drop 4).take 64)
     else match m.modes.keySlot with
       | some k => Config.ed25519Verify k msg ((c.args.drop 4).take 64)
       | none => true)

/-- JR_SERVICE (R467). -/
def Hw.serviceRec (m : Hw) (event level cause : Nat) (key : List Byte) : Hw :=
  m.record JR.SERVICE 0x10 (le 1 event ++ le 1 level ++ le 1 cause ++ le 1 0 ++ padTo 8 key)

/-- The key that a level verifies against. -/
def Hw.levelKey (m : Hw) (level : Nat) : List Byte :=
  if level = 2 then keyId Config.factoryKey
  else match m.modes.keySlot with | some k => keyId k | none => []

/-- A failed verification (R462, R463): counted within 60 min; the fifth begins the lockout. -/
def Hw.serviceFailed (m : Hw) (level : Nat) : Hw × Nat :=
  let recent := m.modes.failFrns.filter fun f => decide ((m.frn + 2 ^ 32 - f) % 2 ^ 32 < 60 * m.frames60)
  let fails := recent ++ [m.frn]
  let lock := decide (5 ≤ fails.length)
  let detail := min 15 fails.length + 16 * b2n lock
  let m := { m with modes := { m.modes with
      failFrns := fails, lockUntil := if lock then m.frnAfter 180000 else m.modes.lockUntil
      lockTai := if lock then (if m.on Reg.RTC_STATUS_VALID then some (m.timeNow.1 + 3600) else none) else m.modes.lockTai } }
  let m := ((m.wr Reg.SVC_STATUS_FAILS (min 15 fails.length)).bump Reg.MODE_EVENTS_SVC_FAILS).fault Kind.SVC_AUTH_FAIL detail
  let m := if lock then m.wr Reg.SVC_STATUS_LOCKED_OUT 1 else m
  (m.serviceRec (if lock then 3 else 2) level 0 (m.levelKey level), wordOf Kind.SVC_AUTH_FAIL 0x10 detail)

/-- What SVC_ENTER verifies (R462, R463): each verification consumes the challenge. -/
def enterCheck (m : Hw) (c : HostCmd) : Hw × Option Answer :=
  let level := c.arg 0 1
  if level = 0 ∨ 2 < level then (m, some (badArg 0))
  else if m.on Reg.SVC_STATUS_LOCKED_OUT then
    (m, some (badState (wordOf Kind.SVC_AUTH_FAIL 0x10 (m.rd Reg.SVC_STATUS_FAILS + 16))))
  else if m.mode ≠ modeFLOAT ∧ m.mode ≠ modeCHARGE then (m, some (badState 0))
  else
    match m.modes.challenge with
    | none => (m, some (badState 0))
    | some x =>
      let m' := { m with modes := { m.modes with challenge := none } }
      if m.frnReached x.expires then (m', some (badState 0))
      else if m.serviceOk x c then (m', none)
      else
        let r := m'.serviceFailed level
        (r.1, some (badState r.2))

/-- SVC_ENTER (R462): SERVICE is entered at the next tick, and the failure count clears. -/
def enterAct (m : Hw) (c : HostCmd) : Hw × Answer :=
  let level := c.arg 0 1
  let m := m.wr Reg.SVC_STATUS_FAILS 0
  ({ m with modes := { m.modes with
      failFrns := [], svcNext := level, svcKey := m.levelKey level
      svcCause := if level = 1 ∧ m.modes.keySlot = none then 1 else 0 } }, okWith [])

/-- SVC_EXIT (R465): SERVICE ends at the next tick. -/
def exitAct (m : Hw) (_ : HostCmd) : Hw × Answer := ({ m with modes := { m.modes with svcEnd := some 8 } }, okWith [])

/-- KEY_ENROL is refused where the filled slot's key did not open the session (R463). -/
def enrolCheck (m : Hw) (c : HostCmd) : Option Answer :=
  if 1 < c.arg 32 1 then some (badArg 32)
  else match m.modes.keySlot with
    | none => none
    | some k =>
      if m.rd Reg.MODE_STATUS_SVC_LEVEL = 2 ∨ (m.modes.svcCause = 0 ∧ m.modes.svcKey = keyId k) then none
      else some (badState 0)

/-- KEY_ENROL (R454, R463). -/
def enrolAct (m : Hw) (c : HostCmd) : Hw × Answer :=
  let k := slice c.args 0 32
  let m := (m.wr Reg.SVC_STATUS_KEY_ENROLLED 1).wr Reg.SVC_STATUS_REQ_SIGNED (c.arg 32 1)
  ({ m with modes := { m.modes with keySlot := some k } }, okWith (keyId k))

/-! SHIP and the power request. -/

/-- MODE_REFUSED (R470): the target mode and the reason. -/
def Hw.modeRefused (m : Hw) (target why : Nat) : Hw := m.fault Kind.MODE_REFUSED (target + 16 * why)

/-- Why a SHIP request is refused (R444): 1 LOCK, 2 SOURCE, 4 CONFIRM; 0 where it is accepted. -/
def Hw.shipReason (m : Hw) (byPad confirmed : Bool) : Nat :=
  let lock := m.rd Reg.MODE_CFG_SHIP
  let allowed := if byPad then lock = 1 || lock = 2 else lock = 2 || (lock = 3 && m.inService)
  let st := m.mode
  if !allowed || !(st = modeFLOAT || st = modeKEEPALIVE || st = modeSERVICE) then 1
  else if m.chg.source then 2
  else if !confirmed then 4
  else 0

/-- SHIP_ENTER's request (R444). -/
def shipCheck (m : Hw) (c : HostCmd) : Hw × Option Answer :=
  let why := m.shipReason false (c.arg 0 4 = 0x50494853)
  if why = 0 then (m, none)
  else (((m.bump Reg.MODE_EVENTS_SHIP_REFUSED).modeRefused modeSHIP why),
    some (badState (wordOf Kind.MODE_REFUSED 0x10 (modeSHIP + 16 * why))))

/-- SHIP_ENTER (R445): the entry follows its result. -/
def shipAct (m : Hw) (_ : HostCmd) : Hw × Answer := ({ m with modes := { m.modes with shipAsk := true } }, okWith [])

/-- The effective power request (R439). -/
def Hw.effectiveReq (m : Hw) : Bool :=
  if m.modes.hostPwr = 1 then false
  else if m.modes.hostPwr = 2 then true
  else !m.on Reg.MODE_CFG_PWR_REQ_EN || m.modes.pwrFilt

/-- The effective request is shown, and a rise wakes the module from KEEPALIVE (R439, R442). -/
def Hw.showReq (m : Hw) : Hw :=
  let r := m.effectiveReq
  let rose := r && !m.on Reg.MODE_STATUS_PWR_REQ
  let m := m.wrB Reg.MODE_STATUS_PWR_REQ r
  if rose then
    (if m.mode = modeKEEPALIVE ∨ m.modes.kaStep = 2 then { m with modes := { m.modes with wakeReq := true } }
     else if m.modes.kaStep = 1 then { m with modes := { m.modes with kaStep := 0, kaFrames := 0 }
                                              tkt := { m.tkt with stopped := false } }
     else m)
  else m

/-- HOST_PWR's argument (R466). -/
def hostPwrCheck (_ : Hw) (c : HostCmd) : Option Answer := if 2 < c.arg 0 1 then some (badArg 0) else none

/-- HOST_PWR (R439). -/
def hostPwrAct (m : Hw) (c : HostCmd) : Hw × Answer :=
  (({ m with modes := { m.modes with hostPwr := c.arg 0 1 } }).showReq, okWith [])

/-! The configuration copies. -/

/-- CFG_STAGE (R457): the staged copy takes the data. -/
def cfgStageAct (m : Hw) (c : HostCmd) : Hw × Answer :=
  ({ m with modes := { m.modes with
      staged := putImgBytes m.modes.staged (c.arg 0 2) (slice c.args 4 (c.arg 2 1)) } }, okWith [])

/-- A copy carries a valid signature by the maker key (R454). -/
def Hw.cfgSigned (m : Hw) (img : NorImage) : Bool :=
  match m.modes.keySlot with
  | some k => imgBytes img 0x1C 8 == keyId k && Config.ed25519Verify k (imgBytes img 0 0xFF80) (imgBytes img 0xFF80 64)
  | none => false

/-- The detail of CFG_COPY_BAD for a copy: 0 where it passes, 1 CRC, 2 signature, 3 format, 4 magic (R451, R454,
R470). -/
def Hw.cfgReason (m : Hw) (img : NorImage) : Nat :=
  if imgNum img 0 4 ≠ 0x4643565A then 4
  else if crc32c (imgBytes img 0 0x3C) ≠ imgNum img 0x3C 4 then 1
  else if imgNum img 4 4 ≠ 1 then 3
  else if crc32c (imgBytes img 0 0xFFFC) ≠ imgNum img 0xFFFC 4 then 1
  else if m.on Reg.SVC_STATUS_REQ_SIGNED && !m.cfgSigned img then 2
  else 0

/-- The copy in use, and the one that CFG_COMMIT writes (R457). -/
def Hw.cfgCopy (m : Hw) : Nat := m.rd Reg.CFG_STATUS_COPY

/-- SEQ of the selected copy. -/
def Hw.cfgSeq (m : Hw) : Nat :=
  if m.on Reg.CFG_STATUS_DEFAULT then 0 else imgNum (if m.cfgCopy = 0 then m.modes.copyA else m.modes.copyB) 8 4

/-- The staged copy as it is written: SEQ one above the selected copy's, and the CRCs over it (R457). -/
def Hw.cfgWritten (m : Hw) : NorImage :=
  let img := putImgBytes m.modes.staged 8 (le 4 (m.cfgSeq + 1))
  let img := putImgBytes img 0x3C (le 4 (crc32c (imgBytes img 0 0x3C)))
  putImgBytes img 0xFFFC (le 4 (crc32c (imgBytes img 0 0xFFFC)))

/-- CFG_COMMIT's check of the copy that it has written (R457). -/
def cfgCommitCheck (readsBack : Bool) (m : Hw) (_ : HostCmd) : Option Answer :=
  let why := if readsBack then m.cfgReason m.cfgWritten else 1
  if why = 0 then none
  else some (badState (wordOf Kind.CFG_COPY_BAD 0x36 ((1 - m.cfgCopy) + 2 * why)))

/-- CFG_COMMIT (R457): the copy not selected is written; a cold start selects it. -/
def cfgCommitAct (m : Hw) (_ : HostCmd) : Hw × Answer :=
  let img := m.cfgWritten
  let copy := 1 - m.cfgCopy
  ({ m with modes := { m.modes with
      copyA := if copy = 0 then img else m.modes.copyA, copyB := if copy = 0 then m.modes.copyB else img } },
   okWith (le 4 (m.cfgSeq + 1) ++ le 1 copy ++ le 3 0))

/-- FIELD_RESET (R466): the W of the field side follows the result. -/
def fieldResetAct (m : Hw) (_ : HostCmd) : Hw × Answer := (m, okWith [])

end Sys2Proof.Machine
end

