-- ==== Sys2Proof/Machine/Commit.lean ====
section
/-! DEFINITION. The commit of a durable host command and of a mirrored record: effect, number, result and record
together (R320, R321, R360, R362). -/

namespace Sys2Proof.Machine

/-! The host's sensor-bus transfers (R391, R412). -/

/-- A transaction of the sensor bus asked for: its ticket issues on stream 18, keyed by its address (R315, R391). -/
def Hw.askBus (m : Hw) (addr : Nat) (isRead : Bool) (wlen rlen : Nat) (pec : Bool) (host : Option (Nat × Nat)) :
    Option (Hw × Nat) :=
  match m.issue 18 0x18 addr 0x37 false isRead false with
  | some (m', n) =>
    some ({ m' with bus := { m'.bus with ops := m'.bus.ops ++ [BusOp.mk n addr isRead wlen rlen pec 0 host false false m'.now false] } }, n)
  | none => none

/-- SB_XFER starts its transaction and waits for its ticket (R315). -/
def Hw.startXfer (m : Hw) (c : HostCmd) : Option (Hw × HostCmd) :=
  match m.askBus (c.arg 0 1) (c.arg 2 1 != 0) (c.arg 1 1) (c.arg 2 1) (c.arg 3 1 % 2 == 1) (some (c.stream, c.seq)) with
  | some (m', n) => some (m', { c with stage := 2, inner := some n })
  | none => none

/-- The data of an SB_XFER result: the error code of R398 and what was read. -/
def xferData (err : Nat) (data : List Byte) : List Byte := le 1 err ++ le 1 data.length ++ le 2 0 ++ data

/-- What refuses an SB_XFER: `HOST_EN`, its arguments, and a write to the smart pack's address (R391, R412). -/
def sbXferCheck (m : Hw) (c : HostCmd) : Option Answer :=
  let w := c.arg 1 1
  let r := c.arg 2 1
  if !m.on Reg.SB_CFG_HOST_EN then some (badState 0)
  else if 127 < c.arg 0 1 then some (badArg 0)
  else if 33 < w ∨ (w = 0 ∧ r = 0) ∨ (0 < r ∧ 2 < w) then some (badArg 1)
  else if 32 < r then some (badArg 2)
  else if c.args.length < 4 + w then some (badArg c.args.length)
  else if m.on Reg.CHG_CFG_SBS_EN ∧ c.arg 0 1 = 0x0B ∧ r = 0 then some (okWith (xferData 0x0B []))
  else none

/-! The effect of a durable command. -/

/-- What a durable command does at its commit, with its result; a bus transfer has its result later. -/
def Hw.durableEffect (m : Hw) (c : HostCmd) : Hw × Option Answer :=
  let now := fun (r : Hw × Answer) => ((r.1, some r.2) : Hw × Option Answer)
  if c.cmd = cmdREG_WRITE then now (regWriteAct m c)
  else if c.cmd = cmdCAL_STAGE then now (calStage m c)
  else if c.cmd = cmdCAL_COMMIT then now (calCommit m c)
  else if c.cmd = cmdTIME_SET then ((timeSetAct m c).1, some (timeSetAct m c).2.1)
  else if c.cmd = cmdRELEASE then (m.release (c.arg 0 4), some (okWith []))
  else if c.cmd = cmdSTREAM_RESET then now (streamResetAct m c)
  else if c.cmd = cmdSVC_ENTER then now (enterAct m c)
  else if c.cmd = cmdSVC_EXIT then now (exitAct m c)
  else if c.cmd = cmdKEY_ENROL then now (enrolAct m c)
  else if c.cmd = cmdSHIP_ENTER then now (shipAct m c)
  else if c.cmd = cmdHOST_PWR then now (hostPwrAct m c)
  else if c.cmd = cmdCFG_STAGE then now (cfgStageAct m c)
  else if c.cmd = cmdCFG_COMMIT then now (cfgCommitAct m c)
  else if c.cmd = cmdFIELD_RESET then now (fieldResetAct m c)
  else (m, none)

/-- The record of a durable command (R321). -/
def Hw.durableRec (m : Hw) (c : HostCmd) : JRec :=
  if c.cmd = cmdRELEASE then m.mkRec JR.DRAIN_RELEASE 0x16 (le 4 (c.arg 0 4) ++ le 4 c.seq)
  else if c.cmd = cmdTIME_SET then (timeSetAct m c).2.2
  else m.cmdRec c stOK

/-- The effect of a command is applied, its number is the stream's last and its result is formed (R321). -/
def Hw.applyDurable (m : Hw) (c : HostCmd) (jsn : Option Nat) : Hw :=
  let c := { c with jsn := jsn }
  let m := if c.cmd = cmdSTREAM_RESET then m else m.advanceN c
  if c.cmd = cmdSB_XFER then
    match m.startXfer c with
    | some (m', d) => m'.setWork d
    | none => m.setWork c
  else
    let r := m.durableEffect c
    match r.2 with
    | some a => (r.1.setWork c).answerCmd c a
    | none => r.1.setWork c

/-- The commit of a command whose record has its JSN: effect, number, result and record together (R321). -/
def Hw.commitCmd (m : Hw) (c : HostCmd) (r : JRec) : Hw :=
  let m := (m.stage r none true).setTicket c.tkt fun t => { t with acc := true }
  (m.applyDurable c (some r.jsn)).noteAccepted r

/-- The validated command whose ticket this is, while its record is on its way. -/
def Hw.cmdOfTicket (m : Hw) (n : Nat) : Option HostCmd :=
  m.host.work.find? fun (c : HostCmd) => c.stage == 1 && c.tkt == n && !c.hostSide

/-- A record accepted under its JSN: an append, or the record of a durable command, whose commit this is (R319). -/
def Hw.acceptAt (m : Hw) (r : JRec) (tkt : Option Nat) : Hw :=
  match tkt.bind m.cmdOfTicket with
  | some c => m.commitCmd c r
  | none => (m.stage r tkt false).noteAccepted r

/-- The oldest reservation becomes an acceptance (R360): its space is counted already. -/
def Hw.acceptFront (m : Hw) : Hw :=
  match m.twin.reserved with
  | [] => m
  | x :: xs =>
    let m := { m with twin := { m.twin with reserved := xs } }
    (m.wr Reg.JRN_STAGE_STAGED (m.rd Reg.JRN_STAGE_STAGED - x.r.cost)).acceptAt x.r x.tkt

/-- Every open reservation becomes an acceptance, in JSN order (R360). -/
def Hw.acceptReserved (m : Hw) : Nat → Hw
  | 0 => m
  | fuel + 1 => if m.twin.reserved = [] then m else m.acceptFront.acceptReserved fuel

/-- The command's record goes on its way to a partner: the command waits for its acceptance. -/
def Hw.recordSent (m : Hw) (c : HostCmd) : Hw := m.setWork { c with jsn := some 0 }

/-- The oldest command of a stream that is validated and not committed. -/
def Hw.toCommit (m : Hw) (n : Nat) : Option HostCmd :=
  m.host.work.find? fun (c : HostCmd) => c.stream == n && c.stage == 1 && c.jsn.isNone

/-- DURABLE_COMMIT (R321). Where the module numbers alone, the record is accepted at once; in LEAD it is reserved and
mirrored, in STANDBY it is forwarded, and the commit comes with its acceptance; a module that keeps its own records
puts it in the pending ring. -/
def Hw.commitDurable (m : Hw) (n : Nat) : Hw :=
  match m.toCommit n with
  | none => m
  | some c =>
    if m.permFenced (cmdEngine c.cmd) then m.refuseCmd c (answer stENGINE_FENCED (le 1 (cmdEngine c.cmd).id))
    else if m.away (cmdEngine c.cmd) || m.on Reg.JRN_STATUS_HOLDUP then m
    else
      let r := (m.durableRec c).kinded
      let st := m.twn
      if st = twnCLAIMING && !m.twin.resigned then m
      else if st = twnCLAIMING || st = twnISOLATED || st = twnPENDING then (m.pend r).applyDurable c none
      else if st = twnSTANDBY then
        match m.sendTwin 4 (le 4 m.twin.fwdNext ++ (m.stamp r).bytes) with
        | none => m
        | some m' =>
          ({ m' with twin := { m'.twin with
              forwarded := m'.twin.forwarded ++ [(m'.twin.fwdNext, Append.mk r (some c.tkt))]
              fwdNext := m'.twin.fwdNext + 1 } }).recordSent c
      else if r.crit && m.ringBlocked then m.critFull
      else
        let r := { m.stamp r with jsn := m.rd Reg.JRN_NEXT_JSN }
        if st = twnLEAD then
          if 64 ≤ m.twin.reserved.length then m
          else
            match m.sendTwin 2 r.bytes with
            | none => m
            | some m' =>
              let m' := ((m'.recordSent c).takeJsn).wrSat Reg.JRN_STAGE_STAGED (m'.rd Reg.JRN_STAGE_STAGED + r.cost)
              { m' with twin := { m'.twin with reserved := m'.twin.reserved ++ [Append.mk r (some c.tkt)] } }
        else (m.takeJsn).commitCmd c r

/-- DURABLE_COMMIT (R321). -/
def execDurableCommit (strm : Fin 8) (s : State) : Host.Outcome State Fault Refusal :=
  effect s fun m => m.commitDurable strm

/-! Appends. A record of a durable command that a failover has put back into the stream is committed with its
command. -/

/-- The front record of the submitted list accepted, where it is the record of a durable command; else the append of
R281. -/
def Hw.appendOne (m : Hw) : Hw :=
  match m.sub with
  | x :: _ =>
    match x.tkt.bind m.cmdOfTicket with
    | some c =>
      if m.twn = twnSINGLE ∨ m.twn = twnSOLO then
        let r := { m.stamp x.r with jsn := m.rd Reg.JRN_NEXT_JSN }
        ((m.popSub).takeJsn).commitCmd c r
      else m.append
    | none => m.append
  | [] => m

/-- Submitted records taken while they can be (R281). -/
def Hw.appendMany (m : Hw) : Nat → Hw
  | 0 => m
  | fuel + 1 =>
    let m' := m.appendOne
    if m'.sub.length < m.sub.length then m'.appendMany fuel else m'

/-- JOURNAL_APPEND (R281). -/
def execJournalAppend (s : State) : Host.Outcome State Fault Refusal := effect s Hw.appendOne

/-- HOLDUP_ALLOWANCE_UPDATE (R281, R282): the meter, and the records that now fit. -/
def execHoldupAllowanceUpdate (vchold : Nat) (s : State) : Host.Outcome State Fault Refusal :=
  effect s fun m =>
    let m := (m.wrSat Reg.JRN_CHOLD_VCHOLD vchold).meter
    m.appendMany m.sub.length

end Sys2Proof.Machine
end

