-- ==== Sys2Proof/Machine/Recovery.lean ====
section
/-! DEFINITION. Tickets as rows: issue, retirement, deadline, failure, retry (R313 to R325). -/

namespace Sys2Proof.Machine

/-- TICKET_ISSUE (R314): host engines hold no tickets (R37). -/
def execTicketIssue (owner : Engine) (stream : Fin 64) (chan unit : Fin 256) (dur idem crit : Bool) (s : State) :
    Host.Outcome State Fault Refusal :=
  effect s fun m => if owner.side = .host then m else m.issueFor
    { stream := stream, owner := owner.id, chan := chan, unit := unit, dur := dur, idem := idem, crit := crit, frn := m.frn }

/-- The stream, the owner and the frame of the oldest issue that waits: an engine's, or a journal append's. -/
def Hw.oldestWait (m : Hw) : Option (Nat × Nat × Nat) :=
  match m.tkt.waits with
  | w :: _ => some (w.stream, w.owner, w.frn)
  | [] =>
    match m.sub.find? (·.tkt.isNone) with
    | some x => some (0, srcEngine x.r.src, x.r.frn)
    | none => none

/-- TABLE_FULL (R314): a wait has lasted one whole frame; recorded once in a run of such frames. -/
def execTableFull (s : State) : Host.Outcome State Fault Refusal :=
  effect s fun m =>
    match m.oldestWait with
    | none => m
    | some (stream, owner, frn) =>
      if (m.frn + 2 ^ 32 - frn) % 2 ^ 32 = 0 then m
      else
        let said := m.tkt.fullRun.isSome
        let m := { m with tkt := { m.tkt with fullRun := some 0 } }
        if said then m else m.faultAt Kind.TABLE_FULL owner stream

/-- A ticket waits for an earlier one of its stream, or of its channel (R316). -/
def Hw.behind (m : Hw) (t : Ticket) : Bool :=
  !freeStream t.stream &&
    (m.tkt.table.takeWhile fun (u : Ticket) => u.num != t.num).any fun (u : Ticket) =>
      u.stream == t.stream && (!perChannel t.stream || u.chan == t.chan)

/-- A ticket state from which a ticket retires (R316). -/
def TktState.retirable : TktState → Bool
  | .done => true
  | .failed => true
  | .void => true
  | _ => false

/-- Streams whose work no other command of the table ends: NAND, seal and NOR work (R315). -/
def plainStream (s : Nat) : Bool := 1 ≤ s && s ≤ 5

/-- TICKET_RETIRE (R316): the work of a plain stream is complete and its ticket retires in its order; the retirement of
every other one goes with what it stands for. -/
def Hw.retire (m : Hw) (n : Nat) : Hw :=
  let plain : Bool := match m.ticket n with
    | some t => plainStream t.stream && (t.state == .issued || t.state == .running || t.state == .replay)
    | none => false
  let m := if plain then m.setTicket n fun t => { t with state := .done } else m
  match m.ticket n with
  | none => m
  | some t =>
    if !t.state.retirable || m.behind t then m
    else if 8 ≤ t.stream ∧ t.stream ≤ 15 then m.settleWork
    else if t.stream = 16 ∨ t.stream = 17 then m.retireConvs
    else if t.stream = 18 then m.settleBus
    else if t.stream = 20 ∨ t.stream = 21 then m
    else m.dropTicket n

/-- TICKET_RETIRE (R316). -/
def execTicketRetire (num : Fin 512) (s : State) : Host.Outcome State Fault Refusal := effect s fun m => m.retire num

/-- What follows a ticket that is FAILED for good (R324): its consumer has the result; a forwarded append goes to the
pending ring (R369). -/
def Hw.afterFailure (m : Hw) (n err : Nat) : Hw :=
  match m.ticket n with
  | none => m
  | some t =>
    if t.state ≠ .failed then m
    else if 8 ≤ t.stream ∧ t.stream ≤ 15 then
      match m.host.work.find? fun (c : HostCmd) => c.tkt == n && !c.hostSide && c.stage != 3 && c.stage != 4 with
      | some c => m.answerCmd c (answer stFAILED (le 4 (wordOf Kind.TICKET_FAILED t.owner n)))
      | none => m
    else if t.stream = 16 then m.retireConvs
    else if t.stream = 18 then
      match m.bus.ops.find? fun (x : BusOp) => x.tkt == n with
      | some x =>
        let m := ((m.wr Reg.SB_LAST_ADDR x.addr).wr Reg.SB_LAST_ERR err).wr Reg.SB_LAST_FRN m.frn
        m.endBus x (if x.host.isSome then okWith (xferData err []) else m.lostAnswer n)
      | none => m
    else m

/-- May a ticket fail? A command whose record is on its way to its acceptance waits for it. -/
def Hw.mayFail (m : Hw) (n : Nat) : Bool := !(match m.cmdOfTicket n with | some c => c.jsn.isSome | none => false)

/-- A failure of a ticket (R324) with the error code that a bus transaction reports. -/
def Hw.failWork (m : Hw) (n err : Nat) : Hw := if m.mayFail n then (m.failTicket n).afterFailure n err else m

/-- The forwarded append of a ticket of stream 21 that would fail goes to the pending ring instead (R369); none where the
ticket stands for another message. -/
def Hw.pendForwarded (m : Hw) (n : Nat) : Option Hw :=
  match m.twinMsgOf n with
  | none => none
  | some y =>
    let fwd := numAt y.payload 0 4
    match m.twin.forwarded.find? fun (e : Nat × Append) => y.type == 4 && e.1 == fwd with
    | none => none
    | some e =>
      let m := m.endTwin fun (z : TwinMsg) => z.type == 4 && numAt z.payload 0 4 == fwd
      let m := ({ m with twin := { m.twin with
          forwarded := m.twin.forwarded.filter fun (d : Nat × Append) => d.1 != fwd } }).pend e.2.r
      match e.2.tkt with
      | none => some m
      | some k =>
        match m.cmdOfTicket k with
        | some c => some (m.applyDurable c none)
        | none => some (m.dropTicket k)

/-- The deadline of a ticket has passed since its issue (R315, R318); on the sensor bus, since the start of its run, or in
REPLAY behind a fence since the end of its last run (R391). The deadline of each host command is not stated, and its row
acts at any time (notes/assumptions/109.md); that of the sensor bus counts from `BusOp.since` (notes/assumptions/112.md). -/
def Hw.pastDeadline (m : Hw) (t : Ticket) : Bool :=
  let thaw := m.seq.thaw - t.thaw0
  let age := m.now - t.at_
  if m.lbHolds t.stream t.unit then false else
  match t.stream with
  | 1 => decide (1000000 ≤ thaw)
  | 2 => decide (1000000 ≤ age)
  | 3 => decide (4000000 ≤ thaw)
  | 4 => decide (2000000 ≤ age)
  | 5 => decide (100000000 ≤ thaw)
  | 16 =>
    let n := match m.adc.inj.find? fun (c : Conv) => c.tkt == t.num with | some c => avgCount c.avg | none => 1
    decide (200000 + 400 * n ≤ age)
  | 17 => decide (t.at_ < m.seq.tickAt)
  | 18 =>
    match m.bus.ops.find? fun (x : BusOp) => x.tkt == t.num with
    | some x => t.state != .issued && decide (8000000 ≤ m.now - x.since)
    | none => decide (8000000 ≤ age)
  | 20 => decide (8 * m.period ≤ age)
  | 21 => decide (8 * m.period ≤ thaw)
  | _ => true

/-- TICKET_DEADLINE (R318). A stream without a deadline has none that passes (R315). -/
def Hw.deadline (m : Hw) (n : Nat) : Hw :=
  match m.ticket n with
  | none => m
  | some t =>
    if t.stream = 0 ∨ t.stream = 19 ∨ m.pastDeadline t = false then m
    else if t.state = .issued ∨ t.state = .running then
      let m := (m.bump Reg.TKT_EVENTS_TIMEOUTS).faultAt Kind.TICKET_TIMEOUT t.owner n
      (m.pendForwarded n).getD (m.failWork n 0x0A)
    else if t.state = .replay then
      if t.acc || t.stream = 1 || t.stream = 4 then
        (m.setTicket n fun t => { t with state := .held }).faultAt Kind.STREAM_HELD t.owner t.stream
      else
        let m := ((m.setTicket n fun t => { t with state := .failed }).bump Reg.TKT_EVENTS_FAILED).faultAt
          Kind.TICKET_FAILED t.owner n
        m.afterFailure n (if m.on Reg.SB_STATUS_FENCED then 0x08 else 0x0A)
    else m

/-- TICKET_DEADLINE (R318). -/
def execTicketDeadline (num : Fin 512) (s : State) : Host.Outcome State Fault Refusal := effect s fun m => m.deadline num

/-- TICKET_FAILURE (R324): a unit error, a fence or a parity error fails the ticket. -/
def execTicketFailure (num : Fin 512) (s : State) : Host.Outcome State Fault Refusal :=
  effect s fun m =>
    if m.tktState num = .issued ∨ m.tktState num = .running ∨ m.tktState num = .replay then
      (m.pendForwarded num).getD (m.failWork num 0x0A) else m

/-- HELD_RETRY (R325): in thaw; a retry that succeeds returns the ticket to RUNNING, with no further fault. -/
def execHeldRetry (num : Fin 512) (ok : Bool) (s : State) : Host.Outcome State Fault Refusal :=
  effect s fun m =>
    if m.tktState num = .held ∧ ¬ m.frozen ∧ ok then
      m.setTicket num fun t => { t with state := .running }
    else m

end Sys2Proof.Machine
end

