-- ==== Sys2Proof/Machine/Bus.lean ====
section
/-! DEFINITION. The sensor bus: transactions, arbitration, stretching, bus clear (R389 to R398). -/

namespace Sys2Proof.Machine

/-- The transaction that a ticket stands for, where it may be on the bus: the oldest of its address, with F8 BUS there
and the bus neither fenced nor under a clear (R315, R391, R395, R396). -/
def Hw.busOp (m : Hw) (n : Nat) : Option BusOp :=
  if m.away .f8 || m.on Reg.SB_STATUS_FENCED || m.on Reg.SB_STATUS_CLEARING || m.bus.clearDue ||
      !(m.domain .fCore).on || m.bus.vioLow then none
  else
    match m.bus.ops.find? fun (x : BusOp) => x.tkt == n with
    | none => none
    | some x =>
      let first := (m.bus.ops.find? fun (y : BusOp) => y.addr == x.addr) == some x
      let st := m.tktState n
      if first && (st == .issued || st == .running || st == .replay) then some x else none

/-- The bus as a transaction leaves it: its wait for thaw is over (R392). -/
def Hw.busIdle (m : Hw) : Hw := (m.wr Reg.SB_STATUS_WAIT_THAW 0).wr Reg.SB_STATUS_BUSY 0

/-- A transaction changed in its place. -/
def Hw.setOp (m : Hw) (n : Nat) (f : BusOp → BusOp) : Hw :=
  { m with bus := { m.bus with ops := m.bus.ops.map fun (y : BusOp) => if y.tkt = n then f y else y } }

/-- A transaction fails with an error code of R398 (R324, R391): one that ended by a removal is not replayed (R393). -/
def Hw.busFail (m : Hw) (x : BusOp) (err : Nat) : Hw :=
  let m := m.setOp x.tkt fun y => { y with since := m.now }
  let m := (((m.busIdle).wr Reg.SB_LAST_ADDR x.addr).wr Reg.SB_LAST_ERR err).wr Reg.SB_LAST_FRN m.frn
  if err = 0x09 then
    (((m.setTicket x.tkt fun t => { t with state := .failed }).bump Reg.TKT_EVENTS_FAILED).faultAt Kind.TICKET_FAILED 0x18
      x.tkt).afterFailure x.tkt err
  else m.failWork x.tkt err

/-- A NACK fails the transaction; that of its address byte is recorded, once for it (R391). -/
def Hw.busNack (m : Hw) (x : BusOp) (err : Nat) : Hw :=
  let m := m.bump Reg.SB_EVENTS_NACKS
  let m := if x.nacked || err != 1 then m
    else ({ m with bus := { m.bus with
        ops := m.bus.ops.map fun (y : BusOp) => if y.tkt = x.tkt then { y with nacked := true } else y } }).fault Kind.SB_NACK
      x.addr
  m.busFail x err

/-- SDA found low on a released bit with MULTI = 0 (R389, R390). -/
def Hw.busBitErr (m : Hw) (x : BusOp) : Hw :=
  ((m.bump Reg.SB_EVENTS2_BIT_ERRS).fault Kind.SB_BIT_ERR x.addr).busFail x 0x06

/-- The run of a transaction begins, where it is not under way (R391). -/
def Hw.busRun (m : Hw) (n : Nat) : Hw :=
  if m.tktState n = .running then m
  else (((m.setTicket n fun t => { t with state := .running }).setOp n fun y => { y with since := m.now, overran := false }).wr
    Reg.SB_STATUS_BUSY 1).wr Reg.SB_STATUS_WAIT_THAW 0

/-- A transaction does not fit and waits for thaw, and is counted for it once (R392). -/
def Hw.busDefer (m : Hw) (x : BusOp) : Hw :=
  let m' := (m.wr Reg.SB_STATUS_WAIT_THAW 1).setOp x.tkt fun y => { y with deferred := true }
  if x.deferred then m' else m'.bump Reg.SB_EVENTS2_DEFERRED

/-- The active plan keeps transactions out of freeze (R392). -/
def Hw.sbq (m : Hw) : Bool := m.on (Reg.FRM_PLANPOL_SBQ (m.rd Reg.FRM_STATUS_PLAN))

/-- The nominal length of a transaction in FCLK cycles (R387, R392, R393): every byte on the bus counts, address bytes and PEC
included, and smart-pack reads run at 100 kHz. -/
def Hw.busLength (m : Hw) (x : BusOp) : Nat :=
  let bytes := (if x.wlen = 0 ∧ x.rlen ≠ 0 then 0 else 1 + x.wlen) + (if x.rlen = 0 then 0 else 1 + x.rlen) + b2n x.pec
  let clock := if x.host.isNone then 2000
    else match m.rd Reg.SB_CFG_SPEED with | 0 => 2000 | 1 => 500 | _ => 200
  (9 * bytes + 3) * clock

/-- The slots of the run of thaw slots that begins at slot `s` of the active plan, counted across the tick (R392). -/
def Hw.thawRun (m : Hw) (s : Nat) : Nat := ((List.range 256).takeWhile fun i => !m.planned ((s + i) % 256)).length

/-- The longest run of thaw slots of the active plan. -/
def Hw.longestThaw (m : Hw) : Nat := ((List.range 256).map m.thawRun).foldl max 0

/-- No thaw run of the active plan can hold a length (R392). -/
def Hw.noRunHolds (m : Hw) (len : Nat) : Bool := decide (m.longestThaw * m.seq.len / 256 < len + 20800)

/-- The present slot begins the longest thaw run of the active plan (R392). -/
def Hw.longestBegins (m : Hw) : Bool :=
  let s := slotOf m.seq.len m.seq.t
  m.planned ((s + 255) % 256) && m.thawRun s == m.longestThaw

/-- Under SBQ what has a nominal length may start: in thaw, where it ends 100 µs before the next pre-freeze; where no thaw run
of the plan can hold it, at the beginning of the longest one (R392). -/
def Hw.fitsThaw (m : Hw) (len : Nat) : Bool :=
  !m.quietDue && (match m.toFreeze with
    | some c => decide (len + 20800 ≤ c) || (m.noRunHolds len && m.longestBegins)
    | none => true)

/-- Under SBQ a transaction may start (R392). -/
def Hw.busFits (m : Hw) (x : BusOp) : Bool := m.fitsThaw (m.busLength x)

/-- The nominal length of a bus clear: its 9 clocks as those of one byte, at 100 kHz (R392, R395; DEDUCED,
notes/assumptions/112.md). -/
def clearLength : Nat := (9 * 1 + 3) * 2000

/-- A run that is under way in freeze is counted, once (R392). -/
def Hw.busOverrun (m : Hw) (x : BusOp) : Hw :=
  if m.sbq && m.frozen && !x.overran && m.tktState x.tkt == .running then
    (m.setOp x.tkt fun y => { y with overran := true }).bump Reg.SB_EVENTS2_FRZ_OVERRUN
  else m

/-- A run ends with an error code of R398. A code that no run of a transaction ends with changes nothing. -/
def Hw.busEnds (m : Hw) (x : BusOp) (err : Nat) (data : List Byte) : Hw :=
  match err with
  | 0 => (m.busIdle).endBus x (okWith (xferData 0 (data.take x.rlen)))
  | 1 => m.busNack x 1
  | 2 => if 0 < x.wlen then m.busNack x 2 else m
  | 6 => if m.on Reg.SB_STATUS_MULTI then m else m.busBitErr x
  | 7 => if x.isRead ∧ x.pec then (m.fault Kind.SB_PEC_ERR x.addr).busFail x 7 else m
  | 9 => if x.host.isNone ∧ (m.chg.removal.isSome ∨ ¬ m.packIn) then m.busFail x 9 else m
  | _ => m

/-- SB_TRANSACTION (R391): the run ends; one that may not start yet under SBQ waits for thaw (R54, R392). -/
def execSbTransaction (tkt : Fin 512) (err : Fin 12) (data : List Byte) (s : State) : Host.Outcome State Fault Refusal :=
  effect s fun m =>
    match m.busOp tkt with
    | none => m
    | some x =>
      if m.sbq && m.tktState tkt != .running && !m.busFits x then m.busDefer x
      else (m.busOverrun x).busEnds x err data

/-- SB_ARB_LOST (R389): with MULTI = 1 the transaction starts again after the bus is free; with MULTI = 0 the same
observation is a bit error. -/
def execSbArbLost (tkt : Fin 512) (s : State) : Host.Outcome State Fault Refusal :=
  effect s fun m =>
    match m.busOp tkt with
    | none => m
    | some x => if m.on Reg.SB_STATUS_MULTI then (m.busRun tkt).bump Reg.SB_EVENTS_ARB_LOST else m.busBitErr x

/-- SB_ARB_FRAME (R390). -/
def execSbArbFrame (tkt : Fin 512) (restart : Bool) (s : State) : Host.Outcome State Fault Refusal :=
  effect s fun m =>
    match m.busOp tkt with
    | none => m
    | some x =>
      if m.on Reg.SB_STATUS_MULTI then
        ((m.bump Reg.SB_EVENTS_ARB_FRAME).fault Kind.SB_ARB_FRAME (x.addr + 128 * b2n restart)).busFail x 3
      else m.busBitErr x

/-- SB_DEFERRED_START (R392): while the active plan sets SBQ, a transaction that has waited for thaw starts; what runs
into freeze completes and is counted. -/
def execSbDeferredStart (tkt : Fin 512) (overrun : Bool) (s : State) : Host.Outcome State Fault Refusal :=
  effect s fun m =>
    match m.busOp tkt with
    | none => m
    | some x =>
      if m.sbq && m.busFits x then
        let m := (m.busDefer x).busRun tkt
        if overrun then
          (m.setOp tkt fun y => { y with overran := true }).bump Reg.SB_EVENTS2_FRZ_OVERRUN
        else m
      else m

/-- SB_STRETCH_TMO (R394): both lines are released; in freeze under SBQ this is counted, once for the run (R392). -/
def execSbStretchTmo (tkt : Fin 512) (s : State) : Host.Outcome State Fault Refusal :=
  effect s fun m =>
    match m.busOp tkt with
    | none => m
    | some x =>
      let m := (m.bump Reg.SB_EVENTS_STRETCH_TMO).fault Kind.SB_STRETCH_TMO x.addr
      (m.busOverrun x).busFail x 4

/-- SB_BUS_STUCK (R394): a bus clear starts. -/
def execSbBusStuck (scl sda : Bool) (s : State) : Host.Outcome State Fault Refusal :=
  effect s fun m =>
    if m.on Reg.SB_STATUS_FENCED || !(m.domain .fCore).on || !(scl || sda) then m
    else
      { (m.wr Reg.SB_STATUS_CLEARING 1) with bus := { m.bus with stuckBits := b2n scl + 2 * b2n sda, clearTries := 0 } }

/-- SB_BUS_CLEAR (R395): an attempt succeeds within 9 clocks, or fails; the third failure is SB_BUS_STUCK. -/
def execSbBusClear (ok : Bool) (clocks : Fin 10) (s : State) : Host.Outcome State Fault Refusal :=
  effect s fun m =>
    if m.on Reg.SB_STATUS_FENCED || !(m.domain .fCore).on || m.bus.vioLow || (m.sbq && !m.fitsThaw clearLength) ||
        !(m.on Reg.SB_STATUS_CLEARING || m.bus.clearDue) then m
    else if ok then
      let m := (m.bump Reg.SB_EVENTS2_CLEARS).fault Kind.SB_BUS_CLEAR clocks
      { (m.wr Reg.SB_STATUS_CLEARING 0) with bus := { m.bus with clearDue := false, clearTries := 0, stuckBits := 0 } }
    else
      let n := m.bus.clearTries + 1
      if n < 3 then { (m.wr Reg.SB_STATUS_CLEARING 1) with bus := { m.bus with clearTries := n } }
      else
        let m := m.fault Kind.SB_BUS_STUCK m.bus.stuckBits
        { (m.wr Reg.SB_STATUS_CLEARING 0) with bus := { m.bus with clearTries := 0 } }

end Sys2Proof.Machine
end

