-- ==== Sys2Proof/Machine/Commands.lean ====
section
/-! DEFINITION. The host commands as rows: each acts on the oldest command of its code that has been taken on a stream
(R412, R466). -/

namespace Sys2Proof.Machine

/-- PING (R412). -/
def execPing (strm : Fin 8) (s : State) : Host.Outcome State Fault Refusal :=
  effect s fun m => m.runCmd strm cmdPING noCheck pingAct

/-- REG_READ (R412, R419). -/
def execRegRead (strm : Fin 8) (s : State) : Host.Outcome State Fault Refusal :=
  effect s fun m => m.runCmd strm cmdREG_READ regReadCheck regReadAct

/-- REG_WRITE (R412, R414). -/
def execRegWrite (strm : Fin 8) (s : State) : Host.Outcome State Fault Refusal :=
  effect s fun m => m.runCmd strm cmdREG_WRITE regWriteCheck regWriteAct

/-- KA_STATEMENT (R302). -/
def execKaStatement (strm : Fin 8) (s : State) : Host.Outcome State Fault Refusal :=
  effect s fun m => m.runCmd strm cmdKA_STATEMENT noCheck kaStatementAct

/-- TIME_SET (R306): always durable. -/
def execTimeSet (strm : Fin 8) (s : State) : Host.Outcome State Fault Refusal :=
  effect s fun m => m.runCmd strm cmdTIME_SET timeSetCheck fun m c => ((timeSetAct m c).1, (timeSetAct m c).2.1)

/-- RELEASE (R299): always durable. -/
def execRelease (strm : Fin 8) (s : State) : Host.Outcome State Fault Refusal :=
  effect s fun m => m.runCmd strm cmdRELEASE releaseCheck fun m c => (m.release (c.arg 0 4), okWith [])

/-- SB_XFER (R391, R412): refused, validated where it is durable, or started on its own ticket. -/
def execSbXfer (strm : Fin 8) (s : State) : Host.Outcome State Fault Refusal :=
  effect s fun m =>
    match m.nextCmd strm cmdSB_XFER with
    | none => m
    | some c =>
      if m.mustWait c then m
      else
        match (m.gate c).or (sbXferCheck m c) with
        | some a => m.refuseCmd c a
        | none =>
          if c.durable then m.validated c
          else
            match m.startXfer c with
            | none => m
            | some (m', d) => (m'.setWork d).setTicket d.tkt fun t => { t with state := .running }

/-- STREAM_RESET (R412): always durable. -/
def execStreamReset (strm : Fin 8) (s : State) : Host.Outcome State Fault Refusal :=
  effect s fun m => m.runCmd strm cmdSTREAM_RESET noCheck streamResetAct

/-- HOST_PWR (R466). -/
def execHostPwr (strm : Fin 8) (s : State) : Host.Outcome State Fault Refusal :=
  effect s fun m => m.runCmd strm cmdHOST_PWR hostPwrCheck hostPwrAct

/-- SHIP_ENTER (R444, R466). -/
def execShipEnter (strm : Fin 8) (s : State) : Host.Outcome State Fault Refusal :=
  effect s fun m => m.runChecked strm cmdSHIP_ENTER shipCheck shipAct

/-- SVC_CHALLENGE (R462). -/
def execSvcChallenge (strm : Fin 8) (s : State) : Host.Outcome State Fault Refusal :=
  effect s fun m => m.runCmd strm cmdSVC_CHALLENGE challengeCheck challengeAct

/-- SVC_ENTER (R462, R463). -/
def execSvcEnter (strm : Fin 8) (s : State) : Host.Outcome State Fault Refusal :=
  effect s fun m => m.runChecked strm cmdSVC_ENTER enterCheck enterAct

/-- SVC_EXIT (R465). -/
def execSvcExit (strm : Fin 8) (s : State) : Host.Outcome State Fault Refusal :=
  effect s fun m => m.runCmd strm cmdSVC_EXIT noCheck exitAct

/-- KEY_ENROL (R463). -/
def execKeyEnrol (strm : Fin 8) (s : State) : Host.Outcome State Fault Refusal :=
  effect s fun m => m.runCmd strm cmdKEY_ENROL enrolCheck enrolAct

/-- CFG_STAGE (R457). -/
def execCfgStage (strm : Fin 8) (s : State) : Host.Outcome State Fault Refusal :=
  effect s fun m => m.runCmd strm cmdCFG_STAGE (stageCheck 0xFFFF) cfgStageAct

/-- CFG_COMMIT (R457, R321). -/
def execCfgCommit (strm : Fin 8) (readsBack : Bool) (s : State) : Host.Outcome State Fault Refusal :=
  effect s fun m => m.runCmd strm cmdCFG_COMMIT (cfgCommitCheck readsBack) cfgCommitAct

/-- FIELD_RESET (R466). -/
def execFieldReset (strm : Fin 8) (s : State) : Host.Outcome State Fault Refusal :=
  effect s fun m => m.runCmd strm cmdFIELD_RESET noCheck fieldResetAct

end Sys2Proof.Machine
end

