-- ==== Sys2Proof/Machine/Tabien.lean ====
section
/-! DEFINITION. The Tabien link (R402 to R409) and what each message does where it arrives (R406, R418, R419, R421). -/

namespace Sys2Proof.Machine

/-! The barrier filter (R408). -/

/-- A type that the host side may receive (R406). -/
def toHostType (t : Nat) : Bool := t = 1 || t = 2 || (0x11 ≤ t && t ≤ 0x18)

/-- A type that the field side may receive (R406). -/
def toFieldType (t : Nat) : Bool := t = 1 || t = 2 || t = 0x10 || (0x20 ≤ t && t ≤ 0x27)

/-- The LEN range of a type (R406). -/
def lenRange (t : Nat) : Nat × Nat :=
  match t with
  | 0x01 => (4, 4) | 0x02 => (16, 16) | 0x10 => (12, 128) | 0x11 => (8, 256) | 0x12 => (8, 256) | 0x13 => (4, 252)
  | 0x14 => (16, 248) | 0x15 => (4, 256) | 0x16 => (44, 44) | 0x17 => (16, 16) | 0x18 => (4, 4) | 0x20 => (4, 64)
  | 0x21 => (8, 8) | 0x22 => (10, 10) | 0x23 => (8, 256) | 0x24 => (32, 256) | 0x25 => (4, 4) | 0x26 => (16, 16)
  | _ => (9, 256)

/-- Is the STREAM that of the type (R402, R408)? -/
def streamFits (t s : Nat) : Bool :=
  if t = 0x10 then 8 ≤ s && s ≤ 15 else if 0x11 ≤ t ∧ t ≤ 0x18 then s = 20 else s = 0

/-- Are the defined fields of a payload in their ranges (R406, R408)? -/
def fieldsFit (t : Nat) (p : List Byte) : Bool :=
  match t with
  | 0x10 => knownCode (numAt p 4 2) && numAt p 7 1 + 12 == p.length
  | 0x12 => numAt p 6 1 ≤ 16
  | 0x13 => numAt p 2 2 ≤ 62 && 4 + 4 * numAt p 2 2 == p.length
  | 0x14 => 1 ≤ numAt p 4 1 && numAt p 4 1 ≤ 30 && 8 + 8 * numAt p 4 1 == p.length
  | 0x17 => numAt p 10 1 ≤ 3 && numAt p 11 1 ≤ 3
  | 0x18 => numAt p 0 1 ≤ 2 && numAt p 1 1 ≤ 3
  | 0x20 => p.length % 4 == 0
  | 0x21 => numAt p 0 1 ≤ 3
  | 0x24 => 8 * numAt p 1 1 == p.length
  | 0x26 => 1 ≤ numAt p 0 1 && numAt p 0 1 ≤ 3
  | _ => true

/-- The reason for which the filter drops a message, 0 where it passes (R408). -/
def Hw.filterReason (m : Hw) (rx : Side) (x : MsgIn) : Nat :=
  let known := match rx with | .host => toHostType x.type | .field => toFieldType x.type
  let r := lenRange x.type
  if !known then 1
  else if x.payload.length < r.1 ∨ r.2 < x.payload.length then 2
  else if !streamFits x.type x.stream then 3
  else if !fieldsFit x.type x.payload then 4
  else if x.type = 0x27 ∧ ¬ m.inService then 5
  else 0

/-- A message's header as a number (R402). -/
def msgHeader (x : MsgIn) : Nat :=
  x.type % 256 + x.stream % 256 * 2 ^ 8 + x.seq % 65536 * 2 ^ 16 + x.payload.length % 65536 * 2 ^ 32 +
    x.flags % 65536 * 2 ^ 48

/-- A drop and its witness (R409); a TM_CMD whose head is readable is answered FILTERED. -/
def Hw.dropMsg (m : Hw) (rx : Side) (x : MsgIn) (why : Nat) : Hw :=
  let detail := x.type % 256 + 256 * why
  match rx with
  | .host =>
    (((m.bump Reg.TL_H_EVENTS_DROPS).wr Reg.TBF_H_LAST_HEADER (msgHeader x)).wr Reg.TBF_H_REASON_REASON why).hfaultAt
      Kind.BARRIER_DROP 0x02 detail
  | .field =>
    let m := (((m.bump Reg.TL_F_EVENTS_DROPS).wr Reg.TBF_F_LAST_HEADER (msgHeader x)).wr Reg.TBF_F_REASON_REASON
      why).faultAt Kind.BARRIER_DROP 0x32 detail
    if x.type = 0x10 ∧ 8 ≤ x.payload.length then
      m.sideAnswer (numAt x.payload 0 4) (numAt x.payload 4 2) stFILTERED (le 1 why)
    else m

/-! Receipt (R404). -/

/-- One end of the link. -/
def Hw.linkEnd (m : Hw) : Side → LinkEnd
  | .host => m.host.h
  | .field => m.host.f

/-- One end of the link replaced. -/
def Hw.setLinkEnd (m : Hw) (sd : Side) (e : LinkEnd) : Hw :=
  match sd with
  | .host => { m with host := { m.host with h := e } }
  | .field => { m with host := { m.host with f := e } }

/-- One end of the link changed. -/
def Hw.linkDo (m : Hw) (sd : Side) (g : LinkEnd → LinkEnd) : Hw := m.setLinkEnd sd (g (m.linkEnd sd))

/-- The training state as one side shows it (R429, R432). -/
def Hw.linkState (m : Hw) : Side → Nat
  | .host => m.rd Reg.TL_H_STATUS_STATE
  | .field => m.rd Reg.TL_F_STATUS_STATE

/-- The Tabien link is fenced (R340). -/
def Hw.linkFenced (m : Hw) : Bool := m.bit Reg.FLT_FENCE_U_UNITS 0x12

/-- A message taken on its CRC and SEQ is filtered, and delivered where it passes (R408). -/
def Hw.filterMsg (m : Hw) (rx : Side) (x : MsgIn) : Hw :=
  let why := m.filterReason rx x
  if why = 0 then
    let m := if rx = .field ∧ x.type = 0x20 then
        { m with flt := { m.flt with hostAt := m.flt.hostAt ++ [{ frn := m.frn, sc := m.sc, host := true }] } }
      else m
    m.linkDo rx fun e => { e with inbox := e.inbox ++ [Msg.mk x.type x.stream x.seq x.flags x.payload] }
  else m.dropMsg rx x why

/-- TABIEN_MESSAGE_RECEIVE (R404, R408): a CRC failure is counted, a duplicate or out-of-sequence message is discarded
silently; TM_ACK and TM_LINK_UP stand outside the numbering. No lane carries a symbol in freeze (R15, R38). -/
def Hw.receiveMsg (m : Hw) (rx : Side) (x : MsgIn) (crcOk : Bool) : Hw :=
  let free := x.type = 1 || x.type = 2
  if m.frozen || m.linkFenced || m.linkState rx != 2 then m
  else if !crcOk then
    let m := match rx with
      | .host => m.bump Reg.TL_H_EVENTS_CRC_ERRS
      | .field => m.bump Reg.TL_F_EVENTS_CRC_ERRS
    m.linkDo rx fun e => { e with crcFrame := e.crcFrame + 1 }
  else if free then m.filterMsg rx x
  else if x.seq ≠ (m.linkEnd rx).rxNext then m
  else
    let m := m.linkDo rx fun e => { e with rxNext := (e.rxNext + 1) % 65536, unacked := e.unacked + 1 }
    let m := m.filterMsg rx x
    m.linkDo rx fun e => { e with ackSent := e.rxNext, unacked := 0 }

/-- TABIEN_MESSAGE_RECEIVE (R404). -/
def execTabienMessageReceive (rx : Side) (msg : MsgIn) (crcOk : Bool) (s : State) : Host.Outcome State Fault Refusal :=
  effect s fun m => m.receiveMsg rx msg crcOk

/-- In thaw the acknowledgements that wait go out (R404). -/
def Hw.flushAcks (m : Hw) : Hw :=
  if m.frozen then m
  else
    let go := fun (e : LinkEnd) => if e.unacked = 0 then e else { e with ackSent := e.rxNext, unacked := 0 }
    (m.linkDo .host go).linkDo .field go

/-! Acknowledgement (R317, R404). -/

/-- How many messages at the head of a send queue an RX_NEXT covers. -/
def coveredBy (rxNext : Nat) (q : List Msg) : Nat :=
  match q with
  | [] => 0
  | x :: _ => min q.length ((rxNext + 65536 - x.seq) % 65536 % 32768)

/-- A result has been acknowledged (R317): its command's ticket may retire. -/
def Hw.resultAcked (m : Hw) (p : List Byte) : Hw :=
  match m.host.work.find? fun (c : HostCmd) =>
      c.sent && c.stage == 3 && !c.hostSide && c.seq == numAt p 0 4 && c.cmd == numAt p 4 2 with
  | none => m
  | some c =>
    let m := if c.cmd = cmdADC_INJECT ∧ c.status = stOK then
        ({ m with adc := { m.adc with queue := m.adc.queue.filter fun (e : QEntry) =>
            !(e.sent && e.host && e.bits == numAt p 8 8) } }).showQueue
      else m
    (m.setWork { c with stage := 4 }).settleWork

/-- The entries of a TM_ADC have been acknowledged, and leave the result queue (R254). -/
def Hw.adcAcked (m : Hw) (p : List Byte) : Hw :=
  let got := (List.range (numAt p 4 1)).map fun i => numAt p (8 + 8 * i) 8
  ({ m with adc := { m.adc with queue := m.adc.queue.filter fun (e : QEntry) =>
      !(e.sent && e.host && got.contains e.bits) } }).showQueue

/-- The oldest ticket of TM_F2H retires with its message (R317). -/
def Hw.dropF2h (m : Hw) : Hw :=
  match m.tkt.table.find? fun (t : Ticket) => t.stream == 20 with
  | some t => m.dropTicket t.num
  | none => m

/-- A field message has been acknowledged. -/
def Hw.ackedF (m : Hw) (x : Msg) : Hw :=
  let m := m.dropF2h
  if x.type = 0x11 then m.resultAcked x.payload else if x.type = 0x14 then m.adcAcked x.payload else m

/-- The head of a send queue is covered by an acknowledgement, and what waits is admitted (R404, R405). -/
def Hw.covered (m : Hw) (sd : Side) (n : Nat) : Hw :=
  let gone := (m.linkEnd sd).queue.take n
  let m := m.linkDo sd fun e =>
    { e with queue := e.queue.drop n, resends := if n = 0 then e.resends else 0 }
  match sd with
  | .host =>
    let m := (m.linkDo .host fun e => e.takeIn 64).noteSeqs
    (gone.filter fun (x : Msg) => x.type == 0x20).foldl (fun m x => m.hfaultAcked x.payload) m
  | .field => (gone.foldl Hw.ackedF m).admitF 64

/-- The oldest delivered message of a type, taken from the inbox of a side and acted on. -/
def Hw.takeFrom (m : Hw) (rx : Side) (type : Nat) (g : Hw → Msg → Hw) : Hw :=
  match takeMsg type (m.linkEnd rx).inbox with
  | none => m
  | some (x, rest) => g (m.linkDo rx fun e => { e with inbox := rest }) x

/-- TM_ACK (R404, R317): the messages that RX_NEXT covers leave the sender's queue. -/
def execTmAck (rx : Side) (s : State) : Host.Outcome State Fault Refusal :=
  effect s fun m => m.takeFrom rx 1 fun m x => m.covered rx (coveredBy (numAt x.payload 0 2) (m.linkEnd rx).queue)

/-! Resending and training (R404, R407). -/

/-- TL_RETRAIN (R404, R433): recorded by the side that finds it; the lanes train again. -/
def Hw.retrain (m : Hw) (sd : Side) (why : Nat) : Hw :=
  let m := (m.bump Reg.TL_H_EVENTS_RETRAINS).bump Reg.TL_F_EVENTS_RETRAINS
  (m.sideFault sd Kind.TL_RETRAIN 0x32 why).linkOut 1

/-- TABIEN_RESEND_TIMER (R404): 50 µs of thaw without an acknowledgement; after 8 resends the link retrains. -/
def execTabienResendTimer (sender : Side) (s : State) : Host.Outcome State Fault Refusal :=
  effect s fun m =>
    let e := m.linkEnd sender
    if m.frozen || m.linkState sender != 2 || m.linkFenced || e.queue == [] then m
    else if 8 ≤ e.resends then m.retrain sender 0
    else
      let n := e.queue.length
      let m := match sender with
        | .host => m.add Reg.TL_H_EVENTS_RESENDS n
        | .field => m.add Reg.TL_F_EVENTS_RESENDS n
      m.linkDo sender fun e => { e with
        resends := e.resends + 1
        queue := e.queue.map fun (x : Msg) => { x with flags := x.flags ||| 1 } }

/-- LOSS_OF_LOCK (R433, R14): the lanes have lost lock, and train again. -/
def execLossOfLock (rx : Side) (s : State) : Host.Outcome State Fault Refusal :=
  effect s fun m => if m.linkState rx = 2 then m.retrain rx 1 else m

/-- A side is ready: the field side once START has ended (R407, R447), the host side once it takes submissions. -/
def Hw.fieldReady (m : Hw) : Bool := !m.modes.starting && m.modes.faonOn && !m.modes.halted

/-- The TM_LINK_UP of one side (R406). -/
def Hw.linkUp (m : Hw) (sd : Side) : List Byte :=
  let e := m.linkEnd sd
  let ready := match sd with
    | .host => b2n m.host.hReady + 2 * b2n m.intake.loaded
    | .field => b2n m.fieldReady + 2 * b2n m.seq.cfgApplied
  le 4 e.epoch ++ le 2 e.txNext ++ le 2 (if e.rxLost then 0xFFFF else e.rxNext) ++ le 2 ready ++ le 2 0 ++
    le 4 (match sd with | .host => 0 | .field => m.frn)

/-- The fence of the link lifts at a good training (R340, R342), and is told as TL_RETRAIN. -/
def Hw.liftLink (m : Hw) : Hw :=
  if m.linkFenced then
    ((m.unfence 0x32).recover 0x32).fault Kind.TL_RETRAIN 2
  else m

/-- A training may start: both ends have power, and a permanent fence holds the link (R342). -/
def Hw.mayTrain (m : Hw) : Bool :=
  (m.domain .fCore).pg && (m.domain .hCore).pg && !m.bit Reg.FLT_PERM_U_UNITS 0x12

/-- TABIEN_LINK_TRAINING (R407): the link is trained, and each side sends TM_LINK_UP with its LINK_EPOCH, which a W or P of
the side has stepped; a training that is not good goes on. -/
def execTabienLinkTraining (good : Bool) (s : State) : Host.Outcome State Fault Refusal :=
  effect s fun m =>
    if good && m.mayTrain && !m.frozen && m.rd Reg.TL_H_STATUS_STATE != 2 then
      let m := m.liftLink
      let m := ((m.wr Reg.TL_H_STATUS_STATE 2).wr Reg.TL_F_STATUS_STATE 2).wr Reg.ID_STATUS_LINK 1
      let m := (m.wr Reg.TL_H_STATUS_EPOCH m.host.h.epoch).wr Reg.TL_F_STATUS_EPOCH m.host.f.epoch
      let m := { m with host := { m.host with fieldAsleep := false } }
      let up := m.linkUp .host
      let uf := m.linkUp .field
      (m.linkDo .host fun e => { e with upSent := up, resends := 0 }).linkDo .field fun e =>
        { e with upSent := uf, resends := 0 }
    else m

/-- A send queue numbered again from the receiver's RX_NEXT, with what it covers gone (R407). -/
def renumber (rxNext : Nat) (q : List Msg) : List Msg := q.mapIdx fun i x => { x with seq := (rxNext + i) % 65536 }

/-- The send queue of a side continues at the other side's RX_NEXT (R407). -/
def Hw.resume (m : Hw) (sd : Side) (rxNext : Nat) : Hw :=
  let m := m.covered sd (coveredBy rxNext (m.linkEnd sd).queue)
  m.linkDo sd fun e =>
    { e with queue := renumber rxNext e.queue, txNext := (rxNext + e.queue.length) % 65536 }

/-- The receiver that lost its state takes the sender's TX_NEXT (R407). -/
def LinkEnd.learn (e : LinkEnd) (txNext : Nat) : LinkEnd :=
  if e.rxLost then { e with rxNext := txNext, rxLost := false } else e

/-- The host lost its receive state (R407): the field drops every unacknowledged message, and the tickets that carry
results are VOID. -/
def Hw.dropSent (m : Hw) : Hw :=
  let q := m.host.f.queue
  let results := (q.filter fun (x : Msg) => x.type == 0x11).length
  let m := m.linkDo .field fun e => { e with queue := [], resends := 0 }
  let m := q.foldl (fun m _ => m.dropF2h) m
  let m := { m with host := { m.host with work := m.host.work.map fun (c : HostCmd) =>
      if c.stage = 3 ∧ c.sent then { c with stage := 4 } else c } }
  let m := if results = 0 then m else (m.add Reg.TKT_EVENTS_VOIDED results).faultAt Kind.TICKET_VOIDED 0x10 results
  (m.resendAdc.settleWork).admitF 64

/-- The field lost F-AON power (R407): the host drops every unacknowledged message and posts a VOID result for each place
whose command was sent and not answered. -/
def Hw.fieldPowerLost (m : Hw) : Hw :=
  let unsent := fun (p : Place) => m.host.h.waiting.any fun (x : Msg) =>
    x.type == 0x10 && x.stream == 8 + p.stream && numAt x.payload 0 4 == p.seq
  let lost := m.host.mbx.places.filter fun (p : Place) => !p.answered && !unsent p && p.stream != 7
  let m := m.linkDo .host fun e => { e with queue := [], resends := 0 }
  let m := lost.foldl (fun m p =>
    m.postResult p.stream p.seq (resultBytes p.seq p.cmd stVOID 0 (le 4 0xFFFFFFFF))) m
  m.linkDo .host fun e => e.takeIn 64

/-- TM_LINK_UP (R407, R429). -/
def execTmLinkUp (rx : Side) (s : State) : Host.Outcome State Fault Refusal :=
  effect s fun m => m.takeFrom rx 2 fun m x =>
    let tx := numAt x.payload 4 2
    let rn := numAt x.payload 6 2
    let m := m.linkDo rx fun e => e.learn tx
    match rx with
    | .field => if rn = 0xFFFF then m.dropSent else m.resume .field rn
    | .host =>
      let m := if rn = 0xFFFF then m.fieldPowerLost else m.resume .host rn
      (m.wrB Reg.ID_STATUS_FIELD_READY (numAt x.payload 8 2 % 2 == 1)).flushHostFaults

/-! Field messages on the host side. -/

/-- A message that a host engine takes: it waits while the engine is away. -/
def Hw.hostTakes (m : Hw) (e : Engine) (type : Nat) (g : Hw → Msg → Hw) : Hw :=
  if m.away e then m else m.takeFrom .host type g

/-- TM_RESULT (R416, R417): it fills the place of its number; results queue while H2 HOSTPORT is under restart. -/
def execTmResult (s : State) : Host.Outcome State Fault Refusal :=
  effect s fun m =>
    if m.host.busy then m
    else m.hostTakes .h2 0x11 fun m x =>
      let seq := numAt x.payload 0 4
      match m.host.mbx.places.find? fun (p : Place) =>
          !p.answered && p.seq == seq && p.cmd == numAt x.payload 4 2 && p.stream != 7 with
      | some p => m.postResult p.stream seq x.payload
      | none => m

/-- The snapshot's chunks in order. -/
def snapImage (chunks : List (Nat × List Byte)) : List Byte :=
  (List.range 17).flatMap fun i => match chunks.find? fun c => c.1 == i with | some c => c.2 | none => []

/-- A field's value in an image of 0x1000 to 0x1FFF. -/
def imageField (img : List Byte) (f : Field) : Nat :=
  bitsOf (numAt img (f.addr - 0x1000) ((f.lsb + f.width + 7) / 8)) f.lsb f.width

/-- TM_SNAP (R418): the readable copy switches when all 17 chunks of one FRN have arrived. -/
def execTmSnap (s : State) : Host.Outcome State Fault Refusal :=
  effect s fun m => m.hostTakes .h2 0x12 fun m x =>
    let frn := numAt x.payload 0 4
    let chunk := numAt x.payload 6 1
    let old := if m.host.snap.frn = frn then m.host.snap.chunks else []
    let cs := (old.filter fun c => c.1 != chunk) ++ [(chunk, x.payload.drop 8)]
    if cs.length < 17 then { m with host := { m.host with snap := { m.host.snap with frn := frn, chunks := cs } } }
    else
      let img := snapImage cs
      let m := { m with host := { m.host with snap := { image := img, frn := frn, chunks := [], us := 0, stale := false } } }
      (((m.wr Reg.ID_SNAP_FRN frn).wr Reg.ID_STATUS_SNAP_VALID 1).wr Reg.ID_SNAP_AGE_AGE 0).wr Reg.ID_STATUS_MODE
        (imageField img Reg.MODE_STATUS_MODE)

/-- TM_EVENT (R406, R421): the FAULT_N level, a field reset, and the fault words. -/
def execTmEvent (s : State) : Host.Outcome State Fault Refusal :=
  effect s fun m => m.hostTakes .h2 0x13 fun m x =>
    let p := x.payload
    let fn := numAt p 0 1 != 0
    let m' := if fn && !m.host.eventFn then m.alertSet 7 else m
    let m' := { m' with host := { m'.host with eventFn := fn } }
    let m' := if numAt p 1 1 = 0 then m' else m'.alertSet 2
    let hit := (List.range (numAt p 2 2)).any fun i =>
      m.rd Reg.ALERT_EN_FAULT_SEV ≤ (FaultWord.ofBits (numAt p (4 + 4 * i) 4)).sev
    if hit then m'.alertSet 1 else m'

/-- TM_ADC (R254): H2 HOSTPORT takes the entries; the register map gives the host no register of them. -/
def execTmAdc (s : State) : Host.Outcome State Fault Refusal := effect s fun m => m.hostTakes .h2 0x14 fun m _ => m

/-- The whole items at the head of the drain stream are seen as they enter the buffer (R425): NEXT, and the END item. -/
def Hw.seeItems (m : Hw) : Nat → Hw
  | 0 => m
  | fuel + 1 =>
    let t := m.host.drain.tail
    let len := numAt t 2 2
    if t.length < 8 + len then m
    else
      let body := (t.drop 8).take len
      let m := { m with host := { m.host with drain := { m.host.drain with tail := t.drop (8 + len) } } }
      let m := match numAt t 0 1 with
        | 1 => m.wr Reg.DRN_NEXT_JSN (numAt body 4 8 + 1)
        | 2 => m.wr Reg.DRN_NEXT_JSN (numAt body 8 8 + 1)
        | 4 =>
          let m := ((m.wr Reg.DRN_NEXT_JSN (numAt body 0 8)).wr Reg.DRN_STATUS_END 1).wr Reg.DRN_STATUS_REQ_OPEN 0
          ({ m with host := { m.host with drain := { m.host.drain with openReq := none } } }).alertSet 4
        | _ => m
      m.seeItems fuel

/-- Stream bytes enter the drain buffer (R426). -/
def Hw.drainBytes (m : Hw) (bs : List Byte) : Hw :=
  let d := m.host.drain
  let m := { m with host := { m.host with drain := { d with buffer := d.buffer ++ bs, tail := d.tail ++ bs } } }
  (m.wrSat Reg.DRN_STATUS_AVAIL m.host.drain.buffer.length).seeItems (m.host.drain.tail.length / 8 + 1)

/-- Bytes that the drain buffer holds at most (R426); a host handover area takes its top 16 KiB (R514). -/
def Hw.drainRoom (m : Hw) : Nat :=
  match m.upd.hand with
  | some x => if x.engine < 3 then 114688 else 131072
  | none => 131072

/-- TM_DRAIN_DATA (R426): data of the open request enters the drain buffer while that has space; other tags are of a
request that has ended. -/
def execTmDrainData (s : State) : Host.Outcome State Fault Refusal :=
  effect s fun m => if m.drainRoom < m.host.drain.buffer.length + 252 then m else m.hostTakes .h2 0x15 fun m x =>
    match m.host.drain.openReq with
    | some r => if r.tag = numAt x.payload 0 2 then m.drainBytes (x.payload.drop 4) else m
    | none => m

/-! The configured host-side fields (R91). -/

/-- The words whose configured fields TM_CFG carries, in register order (R91). -/
def hostCfgWords : List Nat := [0x0060, 0x0204, 0x0208, 0x0288, 0x0304, 0x0410, 0x0414, 0x0418, 0x041C, 0x0430]

/-- The value that the configuration in use gives a configured field (R456): the ROM default where there is none
(DESIGN CHOICE, notes/assumptions/3.md). -/
def Hw.cfgValue (m : Hw) (f : Field) : Nat :=
  match m.modes.cfgImage with
  | none => f.reset
  | some img => Config.cfgField img f.key % 2 ^ f.width

/-- The configured fields of a word: those written in SERVICE only. -/
def cfgFields (a : Nat) : List Field := (Reg.fieldsAt a).filter fun f => f.acc == .rws && !selfClearing.contains f

/-- A word of configured fields as the configuration gives it. -/
def Hw.cfgWord (m : Hw) (a : Nat) : Nat :=
  (cfgFields a).foldl (fun v f => v + m.cfgValue f * 2 ^ (f.lsbIn a)) 0

/-- The slot that an engine runs: bit n of `UPD_SEL` or `HUPD_SEL` (R524, R525). -/
def Hw.runSlot (m : Hw) (e : Engine) : Nat :=
  if e.id < 0x10 then b2n (m.bit Reg.HUPD_SEL_SLOT e.id) else b2n (m.bit Reg.UPD_SEL_SLOT (e.id - 0x10))

/-- An engine's slot. -/
def Hw.slot (m : Hw) (e : Engine) (x : Nat) : Option Slot := m.upd.slots[2 * e.index + x]?

/-- The bundle that the running images carry, 0 where they differ (R519). -/
def Hw.bundle (m : Hw) : Nat :=
  let vs := [Engine.h0, .h1, .h2, .f0, .f1, .f2, .f3, .f4, .f5, .f6, .f7, .f8].map fun e =>
    match m.slot e (m.runSlot e) with
    | some x => x.info.bundle
    | none => 0
  match vs with
  | [] => 0
  | v :: rest => if rest.all (· == v) then v else 0

/-- The payload of TM_CFG (R91). -/
def Hw.cfgPayload (m : Hw) : List Byte := le 4 m.bundle ++ hostCfgWords.flatMap fun a => le 4 (m.cfgWord a)

/-- A word of configured fields taken by the host side. -/
def Hw.takeCfgWord (m : Hw) (a v : Nat) : Hw :=
  (cfgFields a).foldl (fun m f => m.wr f (bitsOf v (f.lsbIn a) f.width)) m

/-- TM_CFG (R91): the configured host-side fields are loaded. -/
def execTmCfg (s : State) : Host.Outcome State Fault Refusal :=
  effect s fun m => m.hostTakes .h1 0x16 fun m x =>
    let m := m.wr Reg.ID_BUNDLE_VERSION (numAt x.payload 0 4)
    let m := hostCfgWords.zipIdx.foldl (fun m w => m.takeCfgWord w.1 (numAt x.payload (4 + 4 * w.2) 4)) m
    ({ m with intake := { m.intake with loaded := true, cfgAsked := false } }).limitWrite

/-- TM_BUDGET (R208, R219): H0 CABLE holds the budget, and with it the two 5 V currents of R218 and R229, of which the message
has no field (notes/assumptions/106.md). -/
def execTmBudget (s : State) : Host.Outcome State Fault Refusal :=
  effect s fun m => m.hostTakes .h0 0x17 fun m x =>
    let n := fun (o k : Nat) => numAt x.payload o k
    let m := (((m.wrSat Reg.CBL_OFFER_A_I5 (n 0 2)).wrSat Reg.CBL_OFFER_A_I9 (n 2 2)).wrSat Reg.CBL_OFFER_B_I15
      (n 4 2)).wrSat Reg.CBL_OFFER_B_I20 (n 6 2)
    let m := ((m.wrSat Reg.CBL_OFFER_C_IPPS (n 8 2)).wr Reg.CBL_OFFER_C_CAUSE (n 10 1)).wr Reg.CBL_OFFER_C_RES_STATE (n 11 1)
    let m := { m with cable := { m.cable with rawI5 := m.cable.sentI5.1, freeI5 := m.cable.sentI5.2 } }
    let m := ((m.wr Reg.CBL_OFFER_C_AGE 0).wr Reg.CBL_RESERVE_QBAT (n 12 2)).wr Reg.CBL_RESERVE_QRES (n 14 2)
    let fits := if m.rd Reg.CBL_CONTRACT_TYPE = 2 then decide (m.rd Reg.CBL_CONTRACT_CURR ≤ m.rd Reg.CBL_OFFER_C_IPPS)
      else m.fitsBudget (m.rd Reg.CBL_CONTRACT_VOLT * 10) (m.rd Reg.CBL_CONTRACT_CURR)
    let m := if m.port = cblSOURCE ∧ m.on Reg.CBL_STATUS_EXPLICIT ∧ ¬ fits then
        { m with cable := { m.cable with capsDue := true } } else m
    m.portFlags

/-- TM_XFER (R99, R406): the grant or the end of SOURCE, and the direction that H1 INTAKE writes; a latched stage refuses
every direction but OFF (R101). -/
def execTmXfer (s : State) : Host.Outcome State Fault Refusal :=
  effect s fun m => m.hostTakes .h1 0x18 fun m x =>
    let dir := numAt x.payload 0 1
    let grant := numAt x.payload 1 1
    let m := { m with cable := { m.cable with granted := bitAt grant 0 && !bitAt grant 1 } }
    m.instructDir dir

/-! Host messages on the field side. -/

/-- A message that a field engine takes: it waits while the engine is away. -/
def Hw.fieldTakes (m : Hw) (e : Engine) (type : Nat) (g : Hw → Msg → Hw) : Hw :=
  if m.away e then m else m.takeFrom .field type g

/-- TM_CMD (R322, R368): the command is entered on its stream with its ticket; the ROM takes it in permafrost (R520). -/
def execTmCmd (s : State) : Host.Outcome State Fault Refusal :=
  effect s fun m =>
    if m.away .f0 && m.mode != modePERMAFROST then m
    else
      match takeMsg 0x10 m.host.f.inbox with
      | some (x, rest) => m.takeCmd x rest
      | none => m

/-- TM_HFAULT (R40): the words of the host fault buffer enter the collector, with the time at which they arrived. -/
def execTmHfault (s : State) : Host.Outcome State Fault Refusal :=
  effect s fun m => m.takeFrom .field 0x20 fun m x =>
    let stamp := m.flt.hostAt.headD { frn := m.frn, sc := m.sc, host := true }
    let m := { m with flt := { m.flt with hostAt := m.flt.hostAt.tail } }
    (List.range (x.payload.length / 4)).foldl (fun m i => m.stampW stamp (FaultWord.ofBits (numAt x.payload (4 * i) 4))) m

/-- The present source current for a VBUS target, mA: the load of the source role in the frame that closed last. -/
def Hw.sourceMa (m : Hw) (mv : Nat) : Nat :=
  match m.chg.frame with
  | some f => if mv = 0 then 0 else f.psrc * 1000 / mv
  | none => 0

/-- `REV_SET` in 10 mV units for a VBUS target in mV (R35): 0.75 of the target and the intake drop at the present source
current. -/
def Hw.revFor (m : Hw) (mv : Nat) : Nat := (mv + Config.sourceDrop (m.sourceMa mv)) * 3 / 40

/-- F0 SUPERVISOR writes `REV_SET` for a target, within the range of its loop (R30, R35). -/
def Hw.writeRev (m : Hw) (mv : Nat) : Hw :=
  let m := { m with cable := { m.cable with target := mv } }
  m.ownLatch .revSet (m.revFor mv)

/-- F0 SUPERVISOR moves `REV_SET` with the source current, once a frame (R35), unless it has stopped moving it (R233). Under a
PPS contract V_CBUF stays 0.30 V above a VBUS that the partner has pulled down (R223; by which message the field side learns
VBUS is not stated, notes/assumptions/106.md). -/
def Hw.revTick (m : Hw) : Hw :=
  if m.mode = modeSOURCE ∧ m.cable.target ≠ 0 ∧ ¬ m.modes.revHeld then
    if m.rd Reg.CBL_CONTRACT_TYPE = 2 ∧ m.rd Reg.CBL_CONTRACT_ROLE = 2 ∧ m.rd Reg.INTAKE_MON_V_VBUS * 10 + 300 < m.cable.target then
      m.ownLatch .revSet ((m.rd Reg.INTAKE_MON_V_VBUS * 10 + 300) * 3 / 40)
    else m.writeRev m.cable.target
  else m

/-- F0 SUPERVISOR enters SOURCE (R221, R229): `REV_SET` for 5.10 V and the direction instruction. -/
def Hw.enterSource (m : Hw) : Hw :=
  let m := { m with modes := { m.modes with revHeld := false }, cable := { m.cable with ended := false } }
  ((m.setMode modeSOURCE 6).writeRev 5100).orderXfer 2 1

/-- May SOURCE be granted (R218, R438)? -/
def Hw.grants (m : Hw) : Bool := (m.mode = modeFLOAT || m.mode = modeCHARGE) && m.permitted

/-- TM_CABLE (R221, R222, R224): a request for SOURCE, its withdrawal, a new target, or the contract alone. -/
def execTmCable (s : State) : Host.Outcome State Fault Refusal :=
  effect s fun m => m.fieldTakes .f0 0x21 fun m x =>
    let mv := numAt x.payload 2 2 * 10
    match numAt x.payload 0 1 with
    | 1 =>
      if m.grants then m.enterSource
      else if m.mode = modeSOURCE ∧ m.permitted = true then
        ({ m with modes := { m.modes with revHeld := false }, cable := { m.cable with ended := false } } : Hw).writeRev 5100
      else m
    | 2 => { m with cable := { m.cable with ended := m.mode = modeSOURCE } }
    | 3 => if m.mode = modeSOURCE ∧ ¬ m.modes.revHeld then m.writeRev mv else m
    | _ => if m.mode = modeSOURCE then { m with cable := { m.cable with target := mv } } else m

/-- F0 SUPERVISOR acts on the swap code: SOURCE is entered at once (R229). -/
def Hw.swapSource (m : Hw) : Hw := if m.mode = modeFLOAT ∨ m.mode = modeCHARGE then m.enterSource else m

/-- FAST_ROLE_SWAP_CODE (R229, R17): F0 SUPERVISOR enters SOURCE at once, and the sequencer applies R70, so that freeze
ends where CBUF has reached 95 % of 5.10 V. While F0 is away its part waits for its return (R133). -/
def execFastRoleSwapCode (t : Nat) (vcbufLow : Nat) (s : State) : Host.Outcome State Fault Refusal :=
  effect s fun m => m.onHCode .fastRoleSwap fun m =>
    if m.mode = modeFLOAT ∨ m.mode = modeCHARGE then
      let m := if (m.engine .f0).restarting then { m with modes := { m.modes with swapDue := true } } else m.swapSource
      if m.frozen ∧ vcbufLow ≤ 4845 then (m.atT t).cutFreeze rsnSourceLoad false else m
    else m

/-- TM_HSTATUS (R66, R82): the active source, the intake power, and the charge current that follows. -/
def execTmHstatus (s : State) : Host.Outcome State Fault Refusal :=
  effect s fun m => m.takeFrom .field 0x22 fun m x =>
    let st := numAt x.payload 8 2
    let active := st % 4
    let m := { m with chg := { m.chg with
                        source := active != 0, fresh := m.chg.fresh || (active != 0 && !m.chg.source)
                        pin := if bitAt st 6 then 0 else numAt x.payload 6 2 }
                      jrn := { m.jrn with source := m.jrn.source || active != 0 } }
    match m.chg.frame with
    | some f => if (m.engine .f1).restarting then m else m.currentUpdate f
    | none => m

/-- The RC fields that `n` bytes from address `o` hold whole. -/
def clearedFields (o n : Nat) : List Field :=
  let words := (List.range ((o % 4 + n + 3) / 4)).map fun i => o / 4 * 4 + 4 * i
  (words.flatMap Reg.fieldsAt).filter fun f =>
    f.acc == .rc && 8 * o ≤ 8 * f.addr + f.lsb && 8 * f.addr + f.lsb + f.width ≤ 8 * (o + n)

/-- One entry of TM_RDCLR applied (R419). -/
def Hw.applyClear (m : Hw) (o : Nat) (vals : List Byte) : Hw :=
  (clearedFields o vals.length).foldl (fun m f =>
    m.clearRead f (bitsOf (ofLe vals) (8 * f.addr + f.lsb - 8 * o) f.width)) m

/-- The entries of TM_RDCLR applied in order. -/
def Hw.applyClears (m : Hw) : Nat → List Byte → Hw
  | 0, _ => m
  | fuel + 1, p =>
    if p.length < 4 then m
    else
      let n := numAt p 2 1
      (m.applyClear (numAt p 0 2) ((p.drop 3).take n)).applyClears fuel (p.drop (3 + n))

/-- TM_RDCLR (R419): the clears of a snapshot read, applied at receipt. -/
def execTmRdclr (s : State) : Host.Outcome State Fault Refusal :=
  effect s fun m => m.takeFrom .field 0x23 fun m x => m.applyClears x.payload.length (x.payload.drop 4)

/-- A record of a host engine is submitted (R510); the restart that a JR_RESET tells of steps the reset epoch, which the
record carries (R326). -/
def Hw.takeHostRec (m : Hw) (r : JRec) : Hw :=
  if r.kind = JR.RESET.code then
    let m := m.nextEpoch
    m.submitRec { r with payload := r.payload.take 4 ++ le 4 (m.rd Reg.TKT_EPOCH_EPOCH) ++ r.payload.drop 8 }
  else m.submitRec r

/-- TM_JREC (R406, R510): the record of a host engine is submitted. -/
def execTmJrec (s : State) : Host.Outcome State Fault Refusal :=
  effect s fun m => m.takeFrom .field 0x24 fun m x => m.takeHostRec (JRec.ofBytes x.payload).kinded

/-- TM_CFG_REQ (R91): answered with the configured host-side fields once the configuration is applied. -/
def execTmCfgReq (s : State) : Host.Outcome State Fault Refusal :=
  effect s fun m =>
    if m.seq.cfgApplied then m.fieldTakes .f0 0x25 fun m _ => m.sendF 0x16 m.cfgPayload else m

/-- An item of the drain stream (R425). -/
def drainItem (type status tag : Nat) (body : List Byte) : List Byte :=
  le 1 type ++ le 1 status ++ le 2 body.length ++ le 2 tag ++ le 2 0 ++ body

/-- The END item: the first JSN not sent, the watermark and the status (R425). -/
def Hw.endItem (m : Hw) (status tag next : Nat) : List Byte :=
  drainItem 4 status tag (le 8 next ++ le 8 (m.rd Reg.JRN_COMMIT_JSN))

/-- Stream bytes go out in TM_DRAIN_DATA, 252 to a message (R406). -/
def Hw.sendDrain (m : Hw) (tag : Nat) : Nat → List Byte → Hw
  | 0, _ => m
  | fuel + 1, bs =>
    if bs = [] then m
    else (m.sendF 0x15 (le 2 tag ++ le 2 0 ++ bs.take 252)).sendDrain tag fuel (bs.drop 252)

/-- The modes in which drain data is answered (R427). -/
def Hw.drains (m : Hw) : Bool := m.mode = modeFLOAT || m.mode = modeCHARGE || m.mode = modeSOURCE || m.mode = modeSERVICE

/-- The request block of R424. -/
def reqOf (p : List Byte) : DrainReq := { op := numAt p 0 1, tag := numAt p 2 2, first := numAt p 4 8, count := numAt p 12 4 }

/-- TM_DRAIN_REQ (R424, R427): F6 JOURNAL takes the request in place of an open one, or ends it at once. -/
def execTmDrainReq (s : State) : Host.Outcome State Fault Refusal :=
  effect s fun m => m.fieldTakes .f6 0x26 fun m x =>
    let r := reqOf x.payload
    let r := match m.host.drain.fieldReq with
      | some old => if r.op = 3 then { r with first := old.first } else r
      | none => r
    if m.drains then { m with host := { m.host with drain := { m.host.drain with fieldReq := some r } } }
    else m.sendDrain r.tag 1 (m.endItem 3 r.tag r.first)

/-- Bytes put into the chunk buffer at their positions. -/
def putChunk (at_ : Nat) (bs : List Byte) (c : List (Nat × Byte)) : List (Nat × Byte) :=
  (c.filter fun e => e.1 < at_ || at_ + bs.length ≤ e.1) ++ bs.zipIdx.map fun x => (at_ + x.2, x.1)

/-- TM_UPD_DATA (R508): update data enters the chunk buffer at its position; another session's data starts it anew. -/
def execTmUpdData (s : State) : Host.Outcome State Fault Refusal :=
  effect s fun m => m.takeFrom .field 0x27 fun m x =>
    let ses := numAt x.payload 0 2
    let old := if m.upd.chunkSession = ses then m.upd.chunk else []
    { m with upd := { m.upd with chunkSession := ses, chunk := putChunk (numAt x.payload 4 4) (x.payload.drop 8) old } }

/-- No image has completed for 1.5 s (R418): by the frames that have passed, or with the field side unpowered, where none
passes. -/
def Hw.snapOld (m : Hw) : Bool := decide (1500000 ≤ m.host.snap.us) || !m.modes.faonOn

/-- SNAP_STALE (R418): recorded once, by H2 HOSTPORT, until an image completes again. -/
def execSnapStale (s : State) : Host.Outcome State Fault Refusal :=
  effect s fun m =>
    if m.away .h2 || m.host.snap.stale || !m.snapOld then m
    else
      let m := { m with host := { m.host with snap := { m.host.snap with stale := true } } }
      ((m.wr Reg.ID_STATUS_SNAP_VALID 0).hfault Kind.SNAP_STALE (max 150 (m.host.snap.us / 10000))).alertSet 3

end Sys2Proof.Machine
end

