-- ==== Sys2Proof/Machine/Mailbox.lean ====
section
/-! DEFINITION. The mailbox: submission and removal of results (R410, R411, R416, R417, R508, R510). -/

namespace Sys2Proof.Machine

/-- The window `MBX_CMD` (R410). -/
def Hw.cmdWindow (m : Hw) : List Byte := (List.range 128).map fun i => BitVec.ofNat 8 (m.rd (Reg.MBX_CMD_COMMAND i))

/-- `n` bytes of the update window from an offset (R507). -/
def Hw.windowBytes (m : Hw) (o n : Nat) : List Byte :=
  (List.range n).map fun i => if o + i < 0x8000 then BitVec.ofNat 8 (m.rd (Reg.UPD_WIN_DATA (o + i))) else 0

/-- The places that a stream holds. -/
def Hw.placesOf (m : Hw) (n : Nat) : List Place := m.host.mbx.places.filter fun p => p.stream == n

/-- H2 HOSTPORT still holds this number unanswered (R417). -/
def Hw.placeOpen (m : Hw) (stream seq : Nat) : Bool :=
  m.host.mbx.places.any fun p => p.stream == stream && p.seq == seq && !p.answered

/-- Why the window is refused locally (R411): 0 where it passes. -/
def Hw.localRefusal (m : Hw) (w : List Byte) : Nat :=
  let s := numAt w 6 1 / 16 % 8
  if 116 < numAt w 7 1 then 1
  else if !knownCode (numAt w 4 2) then 2
  else if 16 ≤ (m.placesOf s).length ∧ ¬ m.placeOpen s (numAt w 0 4) then 3
  else if m.host.busy || m.away .h2 || (s != 7 && decide (64 ≤ m.host.h.queue.length + m.host.h.waiting.length)) then 4
  else 0

/-- The bytes of a chunk go ahead of its command, 248 to a message (R508). -/
def Hw.sendChunk (m : Hw) (session pos : Nat) : Nat → List Byte → Hw
  | 0, _ => m
  | fuel + 1, bs =>
    if bs = [] then m
    else (m.sendH 0x27 0 (le 2 session ++ le 2 0 ++ le 4 pos ++ bs.take 248)).sendChunk session (pos + 248) fuel
      (bs.drop 248)

/-- A command goes to the field side as TM_CMD on its stream (R410, R508). -/
def Hw.sendCmd (m : Hw) (s : Nat) (p : List Byte) : Hw :=
  let m := if numAt p 4 2 = cmdUPD_CHUNK then
      m.sendChunk (numAt p 12 2) (numAt p 16 4) 140 (m.windowBytes (numAt p 14 2) (min 32768 (numAt p 20 2)))
    else m
  let m := m.sendH 0x10 (8 + s) p
  if m.host.fieldAsleep then m.haltCode .mailboxWake else m

/-- A host-local command is entered on stream 7 by H2 HOSTPORT itself (R510): a code other than of the update commands
is answered UNKNOWN there. -/
def Hw.takeLocal (m : Hw) (p : List Byte) : Hw :=
  let c := cmdOfPayload p 7 true
  m.bySequence c
    (fun h d => if 0x200 ≤ d.cmd then h.enterCmd d
      else (({ h with host := { h.host with work := h.host.work ++ [d] } } : Hw).answerCmd d (answer stUNKNOWN [])))
    fun h st data => h.postResult 7 c.seq (resultBytes c.seq c.cmd st 0 data)

/-- MBX_SUBMIT (R411, R417, R442): a local refusal sends nothing; a command that passes takes a place, or shares the one
that holds its number, and goes out. -/
def Hw.submit (m : Hw) : Hw :=
  let w := m.cmdWindow
  let s := numAt w 6 1 / 16 % 8
  let seq := numAt w 0 4
  let why := m.localRefusal w
  if !m.host.hReady && !m.upd.hostFrost then m
  else if why ≠ 0 then
    ((m.wr Reg.MBX_STATUS_LREJ why).bump Reg.MBX_EVENTS_LREJS).hfault Kind.MBX_LOCAL_REJ why
  else
    let p := w.take (12 + numAt w 7 1)
    let m := (m.wr Reg.MBX_STATUS_LREJ 0).wr Reg.MBX_LAST_SEQ_SEQ seq
    let m := if m.placeOpen s seq then m.bump Reg.MBX_EVENTS_RESENDS
      else { m with host := { m.host with mbx := { m.host.mbx with
        places := m.host.mbx.places ++ [Place.mk s seq (numAt w 4 2) false none] } } }
    let m := m.showMailbox
    if s = 7 then m.takeLocal p else m.sendCmd s p

/-- MBX_SUBMIT (R411). -/
def execMbxSubmit (s : State) : Host.Outcome State Fault Refusal := effect s Hw.submit

/-- The list without its first entry that a test selects. -/
def dropFirst {α : Type} (p : α → Bool) : List α → List α
  | [] => []
  | x :: xs => if p x then xs else x :: dropFirst p xs

/-- MBX_POP (R416): the head result is removed with its place, and RES_PAGE becomes 0. -/
def Hw.popResult (m : Hw) : Hw :=
  match m.host.mbx.results with
  | [] => m
  | r :: rs =>
    let ps := dropFirst (fun (p : Place) => p.stream == r.stream && p.seq == numAt r.bytes 0 4 && p.answered)
      m.host.mbx.places
    let m := { m with host := { m.host with mbx := { places := ps, results := rs } } }
    ((m.wr Reg.MBX_CTL_RES_PAGE 0).showMailbox).showResult

/-- MBX_POP (R416). -/
def execMbxPop (s : State) : Host.Outcome State Fault Refusal := effect s Hw.popResult

end Sys2Proof.Machine
end

