-- ==== Sys2Proof/Machine/Drain.lean ====
section
/-! DEFINITION. The drain port (R422 to R427, R507). -/

namespace Sys2Proof.Machine

/-- The port drives and listens (R422). -/
def Hw.portOpen (m : Hw) : Bool := m.on Reg.DRN_CFG_EN && m.host.hReady && !m.host.drain.fenced && !m.bus.hvioLow

/-- DRN_FORMAT (R423, R424): the transaction is ignored. -/
def Hw.drnFormat (m : Hw) (detail : Nat) : Hw := (m.bump Reg.DRN_EVENTS_FORMAT_ERRS).hfault Kind.DRN_FORMAT detail

/-- What a transaction drives. -/
def Hw.drnOut (m : Hw) (bs : List Byte) : Hw := { m with host := { m.host with drain := { m.host.drain with out := bs } } }

/-- DRN_STATUS (R423): the status, repeating. -/
def execDrnStatus (bytes : Nat) (s : State) : Host.Outcome State Fault Refusal :=
  effect s fun m =>
    if m.portOpen then
      let w := le 4 (m.readWord 0x2000)
      m.drnOut ((List.range bytes).map fun i => w.getD (i % 4) 0)
    else m

/-- DRN_IDENT (R423): vendor and serial number. -/
def execDrnIdent (bytes : Nat) (s : State) : Host.Outcome State Fault Refusal :=
  effect s fun m =>
    if m.portOpen then m.drnOut ((le 4 (m.readWord 0x0000) ++ le 8 (m.rd Reg.ID_SERIAL_SERIAL)).take bytes) else m

/-- `bytes` whole bytes clocked out of the drain stream (R426): beyond AVAIL they read 0xFF and consume nothing. -/
def Hw.drnRead (m : Hw) (bytes : Nat) : Hw :=
  let d := m.host.drain
  let k := min bytes d.buffer.length
  let m := m.drnOut (d.buffer.take k ++ List.replicate (bytes - k) 0xFF)
  let m := { m with host := { m.host with drain := { m.host.drain with buffer := d.buffer.drop k } } }
  let m := m.wrSat Reg.DRN_STATUS_AVAIL m.host.drain.buffer.length
  let m := if m.host.drain.buffer = [] then m.wr Reg.DRN_STATUS_END 0 else m
  if k < bytes then
    ((m.wr Reg.DRN_STATUS_UNDERRUN 1).bump Reg.DRN_EVENTS_UNDERRUNS).hfault Kind.DRN_UNDERRUN (bytes - k)
  else m

/-- DRN_READ (R426). -/
def execDrnRead (bytes : Nat) (s : State) : Host.Outcome State Fault Refusal :=
  effect s fun m => if m.portOpen then m.drnRead bytes else m

/-- DRN_READ_Q (R423): refused while `DRN_CFG.QUAD` is 0. -/
def execDrnReadQ (bytes : Nat) (s : State) : Host.Outcome State Fault Refusal :=
  effect s fun m =>
    if !m.portOpen then m else if m.on Reg.DRN_CFG_QUAD then m.drnRead bytes else m.drnFormat 0x6B

/-! Requests. -/

/-- A request block taken by H2 HOSTPORT (R424): it replaces an open request, with no END item, and goes to the field
side; where that is asleep it ends at once (R427). -/
def Hw.drnAsk (m : Hw) (block : List Byte) : Hw :=
  let r := reqOf block
  if r.op = 0 ∨ 3 < r.op then m.drnFormat r.op
  else
    let m := if m.host.drain.openReq.isSome then m.bump Reg.DRN_EVENTS_ABORTS else m
    let m := m.emptyDrain
    let m := { m with host := { m.host with drain := { m.host.drain with openReq := some r } } }
    let m := ((m.wr Reg.DRN_STATUS_REQ_OPEN 1).wr Reg.DRN_TAG_TAG r.tag).wr Reg.DRN_NEXT_JSN r.first
    if m.host.fieldAsleep then m.drainBytes (m.endItem 3 r.tag r.first) else m.sendH 0x26 0 (padTo 16 block)

/-- DRN_REQUEST (R424): a block that ends before its 16th byte is ignored, with its witness. -/
def execDrnRequest (block : List Byte) (s : State) : Host.Outcome State Fault Refusal :=
  effect s fun m =>
    if !m.portOpen then m else if block.length < 16 then m.drnFormat 0x20 else m.drnAsk (block.take 16)

/-- A write of `DRN_CTL.GO` (R424). -/
def Hw.drnGo (m : Hw) : Hw :=
  m.drnAsk ((List.range 16).map fun i => BitVec.ofNat 8 (m.rd (Reg.DRN_REQ_BLOCK i)))

/-- DRN_GO (R424). -/
def execDrnGo (s : State) : Host.Outcome State Fault Refusal := effect s Hw.drnGo

/-- An open request ends on the host side (R427, R434): what has arrived of an unfinished item leaves the buffer, and the
END item follows. -/
def Hw.endDrainHost (m : Hw) (status : Nat) : Hw :=
  match m.host.drain.openReq with
  | none => m
  | some r =>
    let d := m.host.drain
    let m := { m with host := { m.host with drain := { d with
        buffer := d.buffer.take (d.buffer.length - d.tail.length), tail := [] } } }
    m.drainBytes (m.endItem status r.tag (m.rd Reg.DRN_NEXT_JSN))

/-! F6 JOURNAL serves the request. -/

/-- The first JSN that is not committed. -/
def Hw.firstOpen (m : Hw) : Nat :=
  match m.jrn.staged with
  | x :: _ => x.r.jsn
  | [] => match m.twin.reserved with | x :: _ => x.r.jsn | [] => m.rd Reg.JRN_NEXT_JSN

/-- A page put among those of higher PSN first. -/
def insertPage (x : NandPage) : List NandPage → List NandPage
  | [] => [x]
  | y :: ys => if y.psn ≤ x.psn then x :: y :: ys else y :: insertPage x ys

/-- The records that the NAND gives back, those of the page with the higher PSN first (R294). -/
def Hw.readable (m : Hw) : List JRec :=
  ((m.jrn.blocks.flatMap fun b => b.pages).foldr insertPage []).flatMap fun p => p.good

/-- The request moved on, or ended. -/
def Hw.setReq (m : Hw) (r : Option DrainReq) : Hw :=
  { m with host := { m.host with drain := { m.host.drain with fieldReq := r } } }

/-- One item of a READ_JSN request (R298, R425). -/
def Hw.readItem (m : Hw) (r : DrainReq) : Hw :=
  let close := fun (status : Nat) => (m.sendDrain r.tag 2 (m.endItem status r.tag r.first)).setReq none
  let range := fun (status last : Nat) =>
    (m.sendDrain r.tag 2 (drainItem 2 status r.tag (le 8 r.first ++ le 8 last))).setReq (some { r with first := last + 1 })
  if !m.drains then close 3
  else if r.count = 0 then close 0
  else if m.firstOpen ≤ r.first then close 1
  else if r.first < m.rd Reg.JRN_OLDEST_JSN then range 1 (min (m.rd Reg.JRN_OLDEST_JSN) m.firstOpen - 1)
  else
    match m.readable.find? fun x => x.jsn == r.first with
    | some x =>
      (m.sendDrain r.tag 2 (drainItem 1 0 r.tag x.bytes)).setReq
        (some { r with first := r.first + 1, count := r.count - 1 })
    | none =>
      let next := (m.readable.filter fun x => r.first < x.jsn).foldl (fun v x => min v x.jsn) m.firstOpen
      range 2 (next - 1)

/-- Items go out while the lane takes them (R426). -/
def Hw.serveRead (m : Hw) : Nat → Hw
  | 0 => m
  | fuel + 1 =>
    match m.host.drain.fieldReq with
    | some r => if r.op = 1 ∧ m.host.f.waiting = [] then (m.readItem r).serveRead fuel else m
    | none => m

/-- READ_JSN (R298): records in JSN order up to the watermark; a later command goes on where the lane was full. -/
def execReadJsn (s : State) : Host.Outcome State Fault Refusal :=
  effect s fun m => if m.away .f6 then m else m.serveRead 256

/-- READ_CERT (R424): the device certificate and the END item. -/
def execReadCert (s : State) : Host.Outcome State Fault Refusal :=
  effect s fun m =>
    match m.host.drain.fieldReq with
    | some r =>
      if r.op ≠ 2 ∨ m.away .f6 then m
      else if !m.drains then (m.sendDrain r.tag 2 (m.endItem 3 r.tag r.first)).setReq none
      else
        let item := drainItem 3 0 r.tag Config.deviceCert
        (m.sendDrain r.tag (item.length / 252 + 2) (item ++ m.endItem 0 r.tag r.first)).setReq none
    | none => m

/-- DRAIN_ABORT (R424, R425): the request ends with END, ABORTED. -/
def execDrainAbort (s : State) : Host.Outcome State Fault Refusal :=
  effect s fun m =>
    match m.host.drain.fieldReq with
    | some r =>
      if r.op ≠ 3 ∨ m.away .f6 then m else (m.sendDrain r.tag 2 (m.endItem 2 r.tag r.first)).setReq none
    | none => m

/-! Writes to the update window (R507). -/

/-- The update window may be written (R507): in SERVICE and in permafrost. -/
def Hw.windowOpen (m : Hw) : Bool := m.inService || m.upd.hostFrost

/-- Bytes put into the update window from an offset. -/
def Hw.fillWindow (m : Hw) (o : Nat) (bs : List Byte) : Hw :=
  if m.windowOpen then
    bs.zipIdx.foldl (fun m x => if o + x.2 < 0x8000 then m.wr (Reg.UPD_WIN_DATA (o + x.2)) x.1.toNat else m) m
  else m

/-- A WRITE of the drain port: bytes beyond 0xFFFF are discarded, with their witness. -/
def Hw.drnWrite (m : Hw) (opcode ofs : Nat) (data : List Byte) : Hw :=
  let m := m.fillWindow ofs data
  if 0x8000 < ofs + data.length then m.drnFormat opcode else m

/-- DRN_WRITE (R507). -/
def execDrnWrite (ofs : Nat) (data : List Byte) (s : State) : Host.Outcome State Fault Refusal :=
  effect s fun m => if m.portOpen then m.drnWrite 0x02 ofs data else m

/-- DRN_WRITE_Q (R507): refused while `DRN_CFG.QUAD` is 0. -/
def execDrnWriteQ (ofs : Nat) (data : List Byte) (s : State) : Host.Outcome State Fault Refusal :=
  effect s fun m =>
    if !m.portOpen then m else if m.on Reg.DRN_CFG_QUAD then m.drnWrite 0x32 ofs data else m.drnFormat 0x32

end Sys2Proof.Machine
end

