-- ==== Sys2Proof/Machine/March.lean ====
section
/-! DEFINITION. The march test of the memory self-test: its elements, backgrounds and words (R483), the geometry of the
memories (R484), and the bits that it finds. A memory under test is given by its defective bits; a word without a defect
and without a bit that disturbs another reads as it was written, so only the words that a defect names are run. -/

namespace Sys2Proof.Machine

/-! Geometry (R484). -/

/-- Spare rows and columns of a macro (R484). -/
def sparesOf (sd : Side) (id : Nat) : Nat × Nat :=
  match sd with
  | .field => if 0x04 ≤ id ∧ id ≤ 0x14 then (16, 4) else (4, 1)
  | .host => if id ≤ 2 then (16, 4) else if id = 3 then (8, 2) else (4, 1)

/-- Macros that exist (R484). -/
def macroExists (sd : Side) (id : Nat) : Bool :=
  match sd with
  | .field => id ≤ 0x19
  | .host => id ≤ 6

/-- Rows and columns of a macro (R484). -/
def macroSize (sd : Side) (id : Nat) : Nat × Nat :=
  match sd with
  | .field =>
    if id = 0x00 then (256, 2112) else if id = 0x01 then (24, 2112) else if id = 0x02 then (136, 2112)
    else if id = 0x03 then (64, 1056) else if id ≤ 0x14 then (1024, 2112) else if id = 0x15 then (32, 2112)
    else if id ≤ 0x18 then (16, 1056) else (4, 1056)
  | .host =>
    if id ≤ 2 then (1024, 2112) else if id = 3 then (512, 2112) else if id = 4 then (128, 2112)
    else if id = 5 then (16, 1056) else (40, 1056)

/-- Words in a row: 33 bits each, data and parity (R483). How a row's columns are shared among its words is not stated: a
word takes 33 neighbouring columns, bit 0 first (DESIGN CHOICE, notes/assumptions/108.md). -/
def wordsPerRow (sd : Side) (id : Nat) : Nat := (macroSize sd id).2 / 33

/-- The number of the word that a bit at a row and column belongs to. -/
def wordAt (wpr row col : Nat) : Nat := row * wpr + col / 33

/-- The row and column of bit `b` of word `w`. -/
def cellOf (wpr : Nat) (x : Nat × Nat) : Nat × Nat := (x.1 / wpr, x.1 % wpr * 33 + x.2)

/-! The test (R483). -/

/-- One operation of an element: a write or a read of the background, or of its complement. -/
inductive MarchOp where
  | w (comp : Bool)
  | r (comp : Bool)
deriving DecidableEq, Repr

/-- The elements of March C−, with the direction: `true` for descending addresses. Where either direction may be taken
addresses rise. -/
def marchElements : List (Bool × List MarchOp) :=
  [(false, [.w false]), (false, [.r false, .w true]), (false, [.r true, .w false]), (true, [.r false, .w true]),
   (true, [.r true, .w false]), (false, [.r false])]

/-- The six backgrounds. -/
def backgrounds : List Nat := [0x00000000, 0x55555555, 0x33333333, 0x0F0F0F0F, 0x00FF00FF, 0x0000FFFF]

/-- A word of a background or of its complement: bit 32 equals bit 0. -/
def marchWord (b : Nat) (comp : Bool) : Nat :=
  let v := b + 2 ^ 32 * (b % 2)
  if comp then 2 ^ 33 - 1 - v else v

/-- What a word holds, of the words that are run. -/
def wordIn (mem : List (Nat × Nat)) (w : Nat) : Nat :=
  match mem.find? (·.1 == w) with
  | some x => x.2
  | none => 0

/-- A word replaced. -/
def setWord (mem : List (Nat × Nat)) (w v : Nat) : List (Nat × Nat) := (w, v) :: mem.filter (·.1 != w)

/-- A written bit as a defect of its own lets it stand. -/
def settleBit (old : Nat) (v : Nat) (d : BitDefect) : Nat :=
  let b := d.col % 33
  match d.kind with
  | .stuck x => putBit v b x
  | .noRise => if !bitAt old b && bitAt v b then putBit v b false else v
  | .noFall => if bitAt old b && !bitAt v b then putBit v b true else v
  | .coupled _ _ _ _ => v

/-- Does a write of word `w` disturb the bit of a defect? -/
def disturbs (wpr w old new : Nat) (d : BitDefect) : Bool :=
  match d.kind with
  | .coupled row col rise _ =>
    wordAt wpr row col == w && bitAt old (col % 33) != bitAt new (col % 33) && bitAt new (col % 33) == rise
  | _ => false

/-- The value that a disturbed bit takes. -/
def disturbedTo (d : BitDefect) : Bool := match d.kind with | .coupled _ _ _ v => v | _ => false

/-- A word written. -/
def marchWrite (wpr : Nat) (ds : List BitDefect) (mem : List (Nat × Nat)) (w v : Nat) : List (Nat × Nat) :=
  let old := wordIn mem w
  let new := (ds.filter fun d => wordAt wpr d.row d.col == w).foldl (settleBit old) v
  (ds.filter (disturbs wpr w old new)).foldl (fun mem d =>
      let k := wordAt wpr d.row d.col
      setWord mem k (putBit (wordIn mem k) (d.col % 33) (disturbedTo d))) (setWord mem w new)

/-- The bits of a word that read otherwise than expected are logged, each once. -/
def marchRead (mem : List (Nat × Nat)) (log : List (Nat × Nat)) (w v : Nat) : List (Nat × Nat) :=
  let got := wordIn mem w
  log ++ ((List.range 33).map fun b => (w, b)).filter fun x => bitAt got x.2 != bitAt v x.2 && !log.contains x

/-- The memory of the words that are run, and the failing bits logged. -/
structure March where
  mem : List (Nat × Nat)
  log : List (Nat × Nat)
deriving DecidableEq, Repr

/-- One operation on a word under a background. -/
def marchStep (wpr : Nat) (ds : List BitDefect) (b w : Nat) (m : March) : MarchOp → March
  | .w c => { m with mem := marchWrite wpr ds m.mem w (marchWord b c) }
  | .r c => { m with log := marchRead m.mem m.log w (marchWord b c) }

/-- One element over the words, lowest first or highest first. -/
def marchElement (wpr : Nat) (ds : List BitDefect) (b : Nat) (words : List Nat) (m : March) (e : Bool × List MarchOp) : March :=
  (if e.1 then words.reverse else words).foldl (fun m w => e.2.foldl (marchStep wpr ds b w) m) m

/-- The words that the defects name. -/
def marchWords (wpr : Nat) (ds : List BitDefect) : List Nat :=
  ds.foldl (fun l d =>
    let l := putNat (wordAt wpr d.row d.col) l
    match d.kind with
    | .coupled row col _ _ => putNat (wordAt wpr row col) l
    | _ => l) []

/-- One pass (R483, R487): the bits that fail, as rows and columns. -/
def marchPass (wpr : Nat) (ds : List BitDefect) : List (Nat × Nat) :=
  let words := marchWords wpr ds
  let m := backgrounds.foldl (fun m b => marchElements.foldl (marchElement wpr ds b words) m) ({ mem := [], log := [] } : March)
  m.log.map (cellOf wpr)

end Sys2Proof.Machine
end

