-- ==== Sys2Proof/Machine/Update.lean ====
section
/-! DEFINITION. Firmware update (chapter 16): sessions, Accretion patches, handover, probation. -/

namespace Sys2Proof.Machine

/-- Reason codes (R511). -/
def rsnBASE : Nat := 0x01
def rsnHEADER : Nat := 0x02
def rsnOP : Nat := 0x03
def rsnBLOCK : Nat := 0x04
def rsnNOR : Nat := 0x05
def rsnDIGEST : Nat := 0x06
def rsnSIGNATURE : Nat := 0x07
def rsnIMAGE : Nat := 0x08
def rsnMSG : Nat := 0x09
def rsnSTATE : Nat := 0x0A
def rsnBUSY : Nat := 0x0B
def rsnSLOT : Nat := 0x0C
def rsnSESSION : Nat := 0x0D
def rsnCHUNK : Nat := 0x0E

/-- Slot states (R501). -/
def slEMPTY : Nat := 0
def slWRITING : Nat := 1
def slVERIFIED : Nat := 2
def slPROBATION : Nat := 3
def slACTIVE : Nat := 4
def slREJECTED : Nat := 5

/-- The engine at a place in the order of R18. -/
def engineAt (i : Nat) : Engine :=
  [Engine.h0, .h1, .h2, .f0, .f1, .f2, .f3, .f4, .f5, .f6, .f7, .f8].getD i .f0

/-! Slots. -/

/-- A slot's record written: GEN advances with each write (R501). -/
def Hw.putSlot (m : Hw) (e : Engine) (x : Nat) (g : Slot → Slot) : Hw :=
  { m with upd := { m.upd with slots := m.upd.slots.mapIdx fun i s =>
      if i = 2 * e.index + x then { g s with gen := s.gen + 1 } else s } }

/-- A slot's state written. -/
def Hw.slotState (m : Hw) (e : Engine) (x st : Nat) : Hw := m.putSlot e x fun s => { s with state := st }

/-- An image's header fields and digest (R500). -/
def infoOf (img : List Byte) : ImageInfo :=
  { version := numAt img 0x08 4, bundle := numAt img 0x0C 4, length := numAt img 0x10 4
    msgVer := numAt img 0x14 2, msgMin := numAt img 0x16 2, msgMax := numAt img 0x18 2
    stateVer := numAt img 0x1A 2, stateMin := numAt img 0x1C 2, stateMax := numAt img 0x1E 2
    keyId := slice img 0x28 8, digest := digestBytes (Config.sha256 img) }

/-- A slot record with its CRC (R501, R509). -/
def Slot.record (s : Slot) : List Byte :=
  let body := le 4 s.gen ++ le 1 s.state ++ le 3 0 ++ le 4 s.info.length ++ le 4 s.info.version ++ padTo 32 s.info.digest
  body ++ le 4 (crc32c body)

/-- The image of the slot that an engine runs: the base of a patch (R504). -/
def Hw.baseImage (m : Hw) (e : Engine) : List Byte :=
  match m.slot e (m.runSlot e) with
  | some s => if s.bytes = [] then padTo s.info.length (Config.factoryImage e.index) else s.bytes
  | none => []

/-- The image information of a slot. -/
def Hw.slotInfo (m : Hw) (e : Engine) (x : Nat) : ImageInfo :=
  match m.slot e x with
  | some s => s.info
  | none => infoOf []

/-- The slot that an engine runs follows the selector, with its version (R524, R525). -/
def Hw.selectSlot (m : Hw) (e : Engine) (x : Nat) : Hw :=
  let v := (m.slotInfo e x).version
  if e.id < 0x10 then (m.wrBit Reg.HUPD_SEL_SLOT e.id (x == 1)).wr (Reg.HUPD_VER_H_VERSION e.id) v
  else (m.wrBit Reg.UPD_SEL_SLOT (e.id - 0x10) (x == 1)).wr (Reg.UPD_VER_F_VERSION (e.id - 0x10)) v

/-- The probation bit of an engine (R524, R525). -/
def Hw.probBit (m : Hw) (e : Engine) (b : Bool) : Hw :=
  if e.id < 0x10 then m.wrBit Reg.HUPD_SEL_PROB e.id b else m.wrBit Reg.UPD_SEL_PROB (e.id - 0x10) b

/-! Status, faults and records. -/

/-- A record of the applier of an engine's side: F0 SUPERVISOR, or H2 HOSTPORT through TM_JREC (R510). -/
def Hw.updRecord (m : Hw) (e : Engine) (k : RecKind) (p : List Byte) : Hw :=
  if e.id < 0x10 then m.recordH k 0x02 p else m.record k 0x10 p

/-- JR_UPDATE (R522). -/
def Hw.updateRec (m : Hw) (event : Nat) (e : Engine) (x reason : Nat) : Hw :=
  let i := m.slotInfo e x
  m.updRecord e JR.UPDATE (le 1 event ++ le 1 e.id ++ le 1 x ++ le 1 reason ++ le 4 i.version ++ le 4 i.bundle ++ le 4 0 ++
    padTo 16 i.digest ++ padTo 8 i.keyId ++ le 4 0)

/-- JR_HANDOVER (R522). -/
def Hw.handoverRec (m : Hw) (e : Engine) (outcome old new len us : Nat) : Hw :=
  m.updRecord e JR.HANDOVER (le 1 e.id ++ le 1 outcome ++ le 1 old ++ le 1 new ++ le 4 (m.slotInfo e old).version ++
    le 4 (m.slotInfo e new).version ++ le 2 len ++ le 2 0 ++ le 4 us)

/-- LAST_REASON of an engine's side (R524, R525). -/
def Hw.lastReason (m : Hw) (e : Engine) (why : Nat) : Hw :=
  if e.id < 0x10 then m.wr Reg.HUPD_STATUS_LAST_REASON why else m.wr Reg.UPD_STATUS_LAST_REASON why

/-- The fault word of a refusal or of the end of a session (R511, R523). -/
def updWord (e : Engine) (x why : Nat) : Nat := wordOf Kind.UPD_REJECTED e.id (why + 256 * x)

/-- UPD_REJECTED is recorded (R523). -/
def Hw.rejected (m : Hw) (e : Engine) (x why : Nat) : Hw :=
  let m := if e.id < 0x10 then m else m.bump Reg.UPD_EVENTS_REJECTS
  (m.lastReason e why).sideFault e.side Kind.UPD_REJECTED e.id (why + 256 * x)

/-- Blocks of the target that are complete and not written (R505). -/
def Session.pendingBlocks (s : Session) : Nat :=
  (if s.ended then (s.target.length + 4095) / 4096 else s.target.length / 4096) - s.blocks

/-- `UPD_STATUS` and its companions follow the session, the handover and the probation (R524, R525). -/
def Hw.showUpd (m : Hw) : Hw :=
  let at_ : Nat × Nat := match m.upd.session with
    | some s => (if s.pendingBlocks = 0 then 1 else 2, (engineAt s.engine).id)
    | none => match m.upd.hand with
      | some h => (4, (engineAt h.engine).id)
      | none => match m.upd.prob with
        | some h => (5, (engineAt h.engine).id)
        | none => (if m.rd Reg.UPD_STATUS_STATE = 3 then 3 else 0, m.rd Reg.UPD_STATUS_ENGINE)
  let host := decide (at_.2 < 0x10)
  let m := (m.wr Reg.UPD_STATUS_STATE (if host then 0 else at_.1)).wr Reg.HUPD_STATUS_STATE (if host then at_.1 else 0)
  let m := m.wr Reg.UPD_STATUS_ENGINE at_.2
  match m.upd.session with
  | some s => if host then m else (m.wr Reg.UPD_STATUS_BLOCKS s.blocks).wr Reg.UPD_NEXT_POS s.next
  | none => m

/-! Accretion patches (R503, R504). -/

/-- The bytes of the patch header and its table. -/
def patchHead (p : List Byte) : Nat := 0x58 + 4 * numAt p 0x50 2

/-- Is the header of a patch good for an engine (R503)? -/
def headerGood (p : List Byte) (e : Engine) (fullOnly : Bool) : Bool :=
  numAt p 0 4 == 0x31544350 && numAt p 4 2 == 1 && numAt p 6 1 == e.id && numAt p 0x54 4 == crc32c (p.take 0x54) &&
    decide (numAt p 0x28 4 ≤ 229376) && numAt p 0x50 2 == (numAt p 0x28 4 + 4095) / 4096 &&
    (!fullOnly || numAt p 7 1 % 2 == 1)

/-- What the operations have made: output, END reached, and whether an operation was not valid. -/
structure Made where
  out : List Byte
  ended : Bool
  bad : Bool
deriving DecidableEq, Repr

/-- The operations run over what has arrived; one that has not arrived whole waits (R504). -/
def runOps (base : List Byte) (full : Bool) (len : Nat) : Nat → List Byte → List Byte → Made
  | 0, out, _ => { out := out, ended := false, bad := false }
  | fuel + 1, out, ops =>
    let wait : Made := { out := out, ended := false, bad := false }
    let stop : Made := { out := out, ended := false, bad := true }
    let go := fun (bytes : List Byte) (used : Nat) =>
      if len < out.length + bytes.length then stop else runOps base full len fuel (out ++ bytes) (ops.drop used)
    match ops with
    | [] => wait
    | b :: _ =>
      match b.toNat with
      | 0x00 => if out.length = len then { out := out, ended := true, bad := false } else stop
      | 0x01 =>
        if full then stop
        else if ops.length < 9 then wait
        else if base.length < numAt ops 1 4 + numAt ops 5 4 then stop
        else go (slice base (numAt ops 1 4) (numAt ops 5 4)) 9
      | 0x02 =>
        if ops.length < 3 then wait
        else if numAt ops 1 2 = 0 ∨ 4096 < numAt ops 1 2 then stop
        else if ops.length < 3 + numAt ops 1 2 then wait
        else go (slice ops 3 (numAt ops 1 2)) (3 + numAt ops 1 2)
      | 0x03 =>
        if ops.length < 6 then wait
        else if len < out.length + numAt ops 1 4 then stop
        else go (List.replicate (numAt ops 1 4) (BitVec.ofNat 8 (numAt ops 5 1))) 6
      | _ => stop

/-- What the patch as far as it has arrived makes of the base image. -/
def made (base p : List Byte) : Made :=
  runOps base (numAt p 7 1 % 2 == 1) (numAt p 0x28 4) (p.length + 1) [] (p.drop (patchHead p))

/-! Refusals. -/

/-- STATE with a reason (R511). -/
def updState (e : Engine) (x why : Nat) : Answer := badState (updWord e x why)

/-- A host-local command runs only with the link up and a snapshot of SERVICE or permafrost, or in host permafrost
(R510). -/
def Hw.hostGate (m : Hw) (c : HostCmd) : Option Answer :=
  if !c.hostSide || m.upd.hostFrost then none
  else if m.on Reg.ID_STATUS_LINK && (m.rd Reg.ID_STATUS_MODE = 6 || m.rd Reg.ID_STATUS_MODE = 7) then none
  else some (answer stACCESS [])

/-- The engine that a command names: of its own side, and H2 alone in host permafrost (R510, R521). -/
def Hw.namedEngine (m : Hw) (c : HostCmd) : Option Engine :=
  match Engine.ofId (c.arg 0 1) with
  | none => none
  | some e =>
    if (c.hostSide && e.side != .host) || (!c.hostSide && e.side != .field) || (m.upd.hostFrost && c.hostSide && e != .h2)
    then none else some e

/-- The open session that a command names. -/
def Hw.namedSession (m : Hw) (c : HostCmd) : Option Session :=
  match m.upd.session with
  | some s => if s.id = c.arg 0 2 ∧ c.hostSide = ((engineAt s.engine).side == .host) then some s else none
  | none => none

/-- The session's engine and slot, for a refusal that names none. -/
def Hw.anySession (m : Hw) (c : HostCmd) : Engine × Nat :=
  match m.upd.session with
  | some s => (engineAt s.engine, s.slot)
  | none => (if c.hostSide then .h2 else .f0, 0)

/-- A command of the update set runs; a host-local one waits for H2 HOSTPORT, but for host permafrost. -/
def Hw.runUpd (m : Hw) (s code : Nat) (check : Hw → HostCmd → Option Answer) (act : Hw → HostCmd → Hw × Answer) : Hw :=
  if s = 7 ∧ m.away .h2 ∧ ¬ m.upd.hostFrost then m
  else m.runCmd s code (fun m c => (m.hostGate c).or (check m c)) act

/-! Sessions (R509). -/

/-- UPD_BEGIN's refusals: one session is open at a time. -/
def updBeginCheck (m : Hw) (c : HostCmd) : Option Answer :=
  match m.namedEngine c with
  | none => some (badArg 0)
  | some e =>
    if c.arg 4 4 = 0 ∨ 524288 < c.arg 4 4 then some (badArg 4)
    else if m.upd.session.isSome then some (updState e (1 - m.runSlot e) rsnBUSY)
    else none

/-- UPD_BEGIN (R509, R505): the slot that is not ACTIVE is set to WRITING. -/
def updBeginAct (m : Hw) (c : HostCmd) : Hw × Answer :=
  match m.namedEngine c with
  | none => (m, badArg 0)
  | some e =>
    let x := 1 - m.runSlot e
    let id := m.upd.sessions % 65536
    let digest := (m.slotInfo e (m.runSlot e)).digest
    let m := m.putSlot e x fun s => { s with state := slWRITING, bytes := [] }
    let m := { m with upd := { m.upd with
        sessions := m.upd.sessions + 1, chunk := []
        session := some (Session.mk id e.index x (c.arg 4 4) 0 [] 0 [] false false) } }
    (m.showUpd, okWith (le 2 id ++ le 1 x ++ le 1 0 ++ padTo 32 digest))

/-- UPD_BEGIN (R509). -/
def execUpdBegin (strm : Fin 8) (s : State) : Host.Outcome State Fault Refusal :=
  effect s fun m => m.runUpd strm cmdUPD_BEGIN updBeginCheck updBeginAct

/-- The session closes; its slot keeps its state. -/
def Hw.closeSession (m : Hw) : Hw := ({ m with upd := { m.upd with session := none } }).showUpd

/-- The bytes that a chunk hands over: from the chunk buffer of the field side, or from the window (R508). -/
def Hw.chunkBytes (m : Hw) (c : HostCmd) : List Byte :=
  if c.hostSide then m.windowBytes (c.arg 2 2) (c.arg 8 2)
  else (List.range (c.arg 8 2)).filterMap fun i => (m.upd.chunk.find? fun e => e.1 == c.arg 4 4 + i).map (·.2)

/-- UPD_CHUNK's refusals before its position is looked at (R508). -/
def updChunkCheck (m : Hw) (c : HostCmd) : Hw × Option Answer :=
  match m.namedSession c with
  | none => (m, some (updState (m.anySession c).1 (m.anySession c).2 rsnSESSION))
  | some s =>
    if 0x8000 < c.arg 2 2 + c.arg 8 2 then (m, some (badArg 2))
    else if c.arg 8 2 = 0 ∨ 32768 < c.arg 8 2 ∨ s.len < c.arg 4 4 + c.arg 8 2 then (m, some (badArg 8))
    else
      let bs := m.chunkBytes c
      if bs.length ≠ c.arg 8 2 ∨ crc32c bs ≠ c.arg 12 4 then
        (m.rejected (engineAt s.engine) s.slot rsnCHUNK, some (updState (engineAt s.engine) s.slot rsnCHUNK))
      else (m, none)

/-- The data of UPD_CHUNK: NEXT and BLOCKS_DONE (R509). -/
def chunkData (s : Session) : List Byte := le 4 s.next ++ le 2 s.blocks ++ le 2 0

/-- The applier takes the bytes at the next position (R504, R508, R509): a bad header and a base that does not match
answer STATE and are not taken, an operation that is not valid ends the session. -/
def Hw.takeChunk (m : Hw) (s : Session) (bs : List Byte) : Hw × Answer :=
  let e := engineAt s.engine
  let p := s.patch ++ bs
  let fullOnly := m.mode = modePERMAFROST || m.upd.hostFrost
  let head := 0x58 ≤ p.length && decide (s.patch.length < 0x58)
  let refuse := fun (why : Nat) => ((m.lastReason e why).showUpd, updState e s.slot why)
  if head && !headerGood p e fullOnly then refuse rsnHEADER
  else if head && numAt p 7 1 % 2 == 0 && (p.drop 8).take 32 != padTo 32 (m.slotInfo e (m.runSlot e)).digest then refuse rsnBASE
  else
    let x := if p.length < 0x58 then Made.mk [] false false else made (m.baseImage e) p
    if x.bad then
      ((m.rejected e s.slot rsnOP).closeSession, updState e s.slot rsnOP)
    else
      let s := { s with patch := p, next := s.next + bs.length, target := x.out, ended := x.ended }
      (({ m with upd := { m.upd with session := some s } }).showUpd, okWith (chunkData s))

/-- UPD_CHUNK (R508): by its position. -/
def updChunkAct (m : Hw) (c : HostCmd) : Hw × Answer :=
  match m.namedSession c with
  | none => (m, updState (m.anySession c).1 (m.anySession c).2 rsnSESSION)
  | some s =>
    let pos := c.arg 4 4
    if pos = s.next then m.takeChunk s (m.chunkBytes c)
    else if pos + c.arg 8 2 ≤ s.next then (m, okWith (chunkData s))
    else (m, badArg 4)

/-- UPD_CHUNK (R508). -/
def execUpdChunk (strm : Fin 8) (s : State) : Host.Outcome State Fault Refusal :=
  effect s fun m =>
    if strm.val = 7 ∧ m.away .h2 ∧ ¬ m.upd.hostFrost then m
    else m.runChecked strm cmdUPD_CHUNK
      (fun m c => match m.hostGate c with | some a => (m, some a) | none => updChunkCheck m c) updChunkAct

/-- The block of a store that a session's block `k` lies in (R499). -/
def storeBlock (s : Session) (k : Nat) : Nat :=
  (if s.engine < 3 then 0x80000 * s.engine else 0x100000 + 0x80000 * (s.engine - 3)) / 4096 + 64 * s.slot + k

/-- The pulses of a block's write may run (R505): in thaw, and not within 250 µs of a pre-freeze, which is 4 µs before its
boundary. -/
def Hw.mayPulse (m : Hw) : Bool :=
  !m.quietDue && (match m.toBoundary with | some c => decide (50800 ≤ c) | none => true)

/-- UPD_BLOCK_WRITE (R505): in thaw, the next complete block is checked, programmed and read back. -/
def Hw.blockWrite (m : Hw) (readsBack : Bool) : Hw :=
  match m.upd.session with
  | none => m
  | some s =>
    let e := engineAt s.engine
    if s.pendingBlocks = 0 || !m.mayPulse then m
    else
      let block := (s.target.drop (4096 * s.blocks)).take 4096
      if crc32c block ≠ numAt s.patch (0x58 + 4 * s.blocks) 4 then (m.rejected e s.slot rsnBLOCK).closeSession
      else if readsBack then
        let next : Session := { s with blocks := s.blocks + 1, rewrite := false }
        let m := { m with upd := { m.upd with session := some next } }
        let m : Hw := { m with upd := { m.upd with slots := m.upd.slots.mapIdx fun (i : Nat) (x : Slot) =>
            if i = 2 * s.engine + s.slot then { x with bytes := s.target.take (4096 * (s.blocks + 1)) } else x } }
        m.showUpd
      else if !s.rewrite then { m with upd := { m.upd with session := some { s with rewrite := true } } }
      else
        let w : FaultWord := { src := 0x36, kind := Config.norFailKind % 256, sev := Config.norFailSev % 4
                               detail := satN 14 (storeBlock s s.blocks) }
        let m := match e.side with | .host => m.hfaultW w | .field => m.faultW w
        (m.rejected e s.slot rsnNOR).closeSession

/-- UPD_BLOCK_WRITE (R505). -/
def execUpdBlockWrite (readsBack : Bool) (s : State) : Host.Outcome State Fault Refusal :=
  effect s fun m => m.blockWrite readsBack

/-- The first check of UPD_FINISH that fails, 0 where all pass (R506). -/
def finishReason (s : Session) : Nat :=
  let img := s.target
  let e := engineAt s.engine
  if !s.ended || digestBytes (Config.sha256 img) != slice s.patch 0x30 32 then rsnDIGEST
  else if numAt img 6 1 ≠ e.id ∨ numAt img 0x10 4 ≠ img.length then rsnIMAGE
  else if slice img 0x28 8 ≠ keyId Config.firmwareKey then rsnSIGNATURE
  else if Config.ed25519Verify Config.firmwareKey (img.take (img.length - 64)) (img.drop (img.length - 64)) then 0
  else rsnSIGNATURE

/-- UPD_FINISH waits for no block: it answers BUSY while blocks are written (R506). -/
def updFinishCheck (m : Hw) (c : HostCmd) : Option Answer :=
  match m.namedSession c with
  | none => some (updState (m.anySession c).1 (m.anySession c).2 rsnSESSION)
  | some s => if s.pendingBlocks = 0 then none else some (updState (engineAt s.engine) s.slot rsnBUSY)

/-- UPD_FINISH (R506): VERIFIED, or REJECTED with its reason; the session closes. -/
def updFinishAct (m : Hw) (c : HostCmd) : Hw × Answer :=
  match m.namedSession c with
  | none => (m, updState (m.anySession c).1 (m.anySession c).2 rsnSESSION)
  | some s =>
    let e := engineAt s.engine
    let why := finishReason s
    let i := infoOf s.target
    let m := m.putSlot e s.slot fun x =>
      { x with state := if why = 0 then slVERIFIED else slREJECTED, info := i, bytes := s.target }
    if why = 0 then
      let m := (m.closeSession).updateRec 0 e s.slot 0
      let m := if e.side = .host then (m.wr Reg.HUPD_STATUS_STATE 3).wr Reg.UPD_STATUS_STATE 0 else m.wr Reg.UPD_STATUS_STATE 3
      (m, okWith (le 4 i.version ++ le 4 i.bundle ++ le 2 i.msgVer ++ le 2 i.stateVer))
    else
      (((m.rejected e s.slot why).closeSession).updateRec 5 e s.slot why, updState e s.slot why)

/-- UPD_FINISH (R506). -/
def execUpdFinish (strm : Fin 8) (s : State) : Host.Outcome State Fault Refusal :=
  effect s fun m => m.runUpd strm cmdUPD_FINISH updFinishCheck updFinishAct

/-- UPD_ABORT and UPD_FINISH name the open session (R509). -/
def sessionCheck (m : Hw) (c : HostCmd) : Option Answer :=
  if (m.namedSession c).isSome then none else some (updState (m.anySession c).1 (m.anySession c).2 rsnSESSION)

/-- UPD_ABORT (R509): the session closes and its slot is EMPTY. -/
def updAbortAct (m : Hw) (c : HostCmd) : Hw × Answer :=
  match m.namedSession c with
  | none => (m, okWith [])
  | some s => (((m.putSlot (engineAt s.engine) s.slot fun x => { x with state := slEMPTY, bytes := [] }).closeSession),
      okWith [])

/-- UPD_ABORT (R509). -/
def execUpdAbort (strm : Fin 8) (s : State) : Host.Outcome State Fault Refusal :=
  effect s fun m => m.runUpd strm cmdUPD_ABORT sessionCheck updAbortAct

/-- UPD_QUERY's engine. -/
def engineCheck (m : Hw) (c : HostCmd) : Option Answer := if (m.namedEngine c).isSome then none else some (badArg 0)

/-- UPD_QUERY (R509): both slot records. -/
def updQueryAct (m : Hw) (c : HostCmd) : Hw × Answer :=
  match m.namedEngine c with
  | none => (m, badArg 0)
  | some e =>
    let rec52 := fun (x : Nat) => match m.slot e x with | some s => s.record | none => List.replicate 52 0
    (m, okWith (rec52 0 ++ rec52 1))

/-- UPD_QUERY (R509). -/
def execUpdQuery (strm : Fin 8) (s : State) : Host.Outcome State Fault Refusal :=
  effect s fun m => m.runUpd strm cmdUPD_QUERY engineCheck updQueryAct

/-! Activation (R512, R513). -/

/-- Do two images accept each other's messages (R512)? -/
def msgFits (a b : ImageInfo) : Bool :=
  a.msgMin ≤ b.msgVer && b.msgVer ≤ a.msgMax && b.msgMin ≤ a.msgVer && a.msgVer ≤ b.msgMax

/-- The reason that R512 gives against an image, 0 where there is none. -/
def Hw.compatReason (m : Hw) (e : Engine) (x : Nat) : Nat :=
  let i := m.slotInfo e x
  let others := [Engine.h0, .h1, .h2, .f0, .f1, .f2, .f3, .f4, .f5, .f6, .f7, .f8].filter fun y =>
    y.side == e.side && y != e && (m.engine y).running
  if !(others.all fun y => msgFits i (m.slotInfo y (m.runSlot y))) then rsnMSG
  else if i.stateMin ≤ (m.slotInfo e (m.runSlot e)).stateVer ∧ (m.slotInfo e (m.runSlot e)).stateVer ≤ i.stateMax then 0
  else rsnSTATE

/-- A handover is refused while one runs, in probation, with a session open or records in the pending ring (R513). -/
def Hw.updBusy (m : Hw) : Bool :=
  m.upd.hand.isSome || m.upd.prob.isSome || m.upd.session.isSome || m.twin.ring != []

/-- Is this update run by a ROM in permafrost (R520, R521)? -/
def Hw.frostLoad (m : Hw) (c : HostCmd) : Bool := if c.hostSide then m.upd.hostFrost else m.mode = modePERMAFROST

/-- The refusals of UPD_ACTIVATE and UPD_REVERT: a VERIFIED slot, R513 and R512. -/
def activateCheck (revert : Bool) (m : Hw) (c : HostCmd) : Hw × Option Answer :=
  match m.hostGate c with
  | some a => (m, some a)
  | none =>
    match m.namedEngine c with
    | none => (m, some (badArg 0))
    | some e =>
      let x := 1 - m.runSlot e
      if m.frostLoad c then
        (m, if (m.slot e x).any fun s => s.state == slVERIFIED then none else some (badState 0))
      else if m.updBusy then (m.lastReason e rsnBUSY, some (updState e x rsnBUSY))
      else if !((m.slot e x).any fun s => s.state == slVERIFIED) then (m, some (badState 0))
      else
        let why := if revert then 0 else m.compatReason e x
        if why = 0 then (m, none) else (m.rejected e x why, some (updState e x why))

/-- The later of AT_FRN and the second tick after receipt (R514). -/
def Hw.handAt (m : Hw) (atFrn : Nat) : Nat :=
  let two := m.frnAfter 2
  if (atFrn + 2 ^ 32 - two) % 2 ^ 32 < 2 ^ 31 then atFrn else two

/-- An accepted activation waits for its tick (R514); in permafrost the slot becomes ACTIVE at once, and the W follows
(R520). -/
def Hw.activateImage (m : Hw) (c : HostCmd) (revert : Bool) : Hw :=
  match m.namedEngine c with
  | none => m
  | some e =>
    let old := m.runSlot e
    let x := 1 - old
    if m.frostLoad c then
      let m := (m.slotState e x slACTIVE).slotState e old slVERIFIED
      let m := if c.hostSide then m.selectSlot e x else { m with upd := { m.upd with note := some (e.index, x) } }
      m.answerCmd c (okWith (le 1 0 ++ le 3 0 ++ le 4 0))
    else
      let start := m.handAt (if revert then 0 else c.arg 4 4)
      let start := if revert then m.frnAfter 2 else start
      let h : Handover :=
        { engine := e.index, oldSlot := old, newSlot := x, at_ := start, begun := false, revert := revert
          cmd := some (c.stream, c.seq), startAt := 0, stateLen := 0 }
      (({ m with upd := { m.upd with hand := some h } }).setWork { c with stage := 2 }).showUpd

/-- UPD_ACTIVATE or UPD_REVERT taken on a stream. -/
def Hw.runActivate (m : Hw) (s code : Nat) (revert : Bool) : Hw :=
  match m.nextCmd s code with
  | none => m
  | some c =>
    if m.mustWait c || (s = 7 && m.away .h2 && !m.upd.hostFrost) then m
    else
      match m.gate c with
      | some a => m.refuseCmd c a
      | none =>
        let r := activateCheck revert m c
        match r.2 with
        | some a => r.1.refuseCmd c a
        | none => r.1.activateImage c revert

/-- UPD_ACTIVATE (R512). -/
def execUpdActivate (strm : Fin 8) (s : State) : Host.Outcome State Fault Refusal :=
  effect s fun m => m.runActivate strm cmdUPD_ACTIVATE false

/-- UPD_REVERT (R519). -/
def execUpdRevert (strm : Fin 8) (s : State) : Host.Outcome State Fault Refusal :=
  effect s fun m => m.runActivate strm cmdUPD_REVERT true

/-! Handover (R514 to R516). -/

/-- The engine is excused for the check-in interval under way, and the expiry of a guard engine's watchdog is suspended
for the period under way (R482). -/
def Hw.excuseHandover (m : Hw) (e : Engine) : Hw :=
  match e.side with
  | .field => { m with wdg := { m.wdg with
      excuse := putBit m.wdg.excuse (e.id - 0x10) true, suspended := m.wdg.suspended || e == .f0 } }
  | .host => { m with hwdg := { m.hwdg with
      excuse := putBit m.hwdg.excuse e.id true, suspended := m.hwdg.suspended || e == .h2 } }

/-- HANDOVER_START (R514): at its tick the engine's latches refuse writes, and the old image stops. -/
def execHandoverStart (s : State) : Host.Outcome State Fault Refusal :=
  effect s fun m =>
    match m.upd.hand with
    | none => m
    | some h =>
      let e := engineAt h.engine
      if h.begun || !m.frnReached h.at_ || !(m.engine e).running then m
      else
        let m := (m.setEngine e { m.engine e with handover := true }).excuseHandover e
        let m := if e = .h2 then { m with host := { m.host with busy := true } } else m
        ({ m with upd := { m.upd with hand := some { h with begun := true, startAt := m.now } } }).showUpd

/-- The command that waits for a handover is answered. -/
def Hw.answerHand (m : Hw) (h : Handover) (a : Answer) : Hw :=
  match h.cmd with
  | none => m
  | some (st, seq) =>
    match m.host.work.find? fun (c : HostCmd) => c.stream == st && c.seq == seq && c.stage == 2 with
    | some c => m.answerCmd c a
    | none => m

/-- The engine runs again after its handover, and the issues that have waited for it are made (R514). -/
def Hw.endHand (m : Hw) (e : Engine) : Hw :=
  let m := m.setEngine e { m.engine e with handover := false }
  let m := if e = .h2 then { m with host := { m.host with busy := false } } else m
  let m := m.serveWaits m.tkt.waits.length
  if e = .f5 then m.deliver else if e = .f4 then m.f4Back else m

/-- The slot record PROBATION, written in thaw (R518). -/
def Hw.markProbation (m : Hw) : Hw :=
  match m.upd.prob with
  | some h =>
    if h.begun || m.frozen then m
    else
      let m := m.slotState (engineAt h.engine) h.newSlot slPROBATION
      { m with upd := { m.upd with prob := some { h with begun := true } } }
  | none => m

/-- HANDOVER_READY (R514, R518): the latches accept writes, the new image runs and probation begins. -/
def execHandoverReady (us len : Nat) (s : State) : Host.Outcome State Fault Refusal :=
  effect s fun m =>
    match m.upd.hand with
    | none => m
    | some h =>
      let e := engineAt h.engine
      if !h.begun then m
      else
        let m := m.handoverRec e 0 h.oldSlot h.newSlot len us
        let next : Handover := { h with begun := false, cmd := none, stateLen := len, at_ := m.frnAfter 256 }
        let m := { m with upd := { m.upd with hand := none, prob := some next, probDue := none } }
        let m := ((m.endHand e).selectSlot e h.newSlot).probBit e true
        let m := if e.side = .field then (m.bump Reg.UPD_EVENTS_HANDOVERS).wr Reg.UPD_PROB_FRAMES 256 else m
        ((m.showUpd).markProbation).answerHand h (okWith (le 1 0 ++ le 3 0 ++ le 4 us))

/-- HANDOVER_FALLBACK (R516): the old image reads its own record and runs on; the slot records do not change. -/
def execHandoverFallback (unreadable : Bool) (us len : Nat) (s : State) : Host.Outcome State Fault Refusal :=
  effect s fun m =>
    match m.upd.hand with
    | none => m
    | some h =>
      let e := engineAt h.engine
      let why := if unreadable then 1 else 2
      if !h.begun then m
      else
        let m := m.handoverRec e why h.oldSlot h.newSlot len us
        let m := ({ m with upd := { m.upd with hand := none } }).endHand e
        let m := if e.side = .field then m.bump Reg.UPD_EVENTS_FALLBACKS else m
        let m := m.sideFault e.side Kind.HANDOVER_FALLBACK e.id why
        (m.showUpd).answerHand h (badState (wordOf Kind.HANDOVER_FALLBACK e.id why))

/-! Probation (R518, R519). -/

/-- `ID_BUNDLE` follows the images that run (R519). -/
def Hw.showBundle (m : Hw) : Hw := m.wr Reg.ID_BUNDLE_VERSION m.bundle

/-- `UPD_PROB.FRAMES` at a tick: the frames of a field engine's probation that remain (R524). -/
def Hw.showProb (m : Hw) : Hw :=
  match m.upd.prob with
  | some h => if 3 ≤ h.engine then m.wr Reg.UPD_PROB_FRAMES (if m.frnReached h.at_ then 0 else (h.at_ + 2 ^ 32 - m.frn) % 2 ^ 32)
      else m
  | none => m

/-- PROBATION_PASS (R519): after 256 frames without a failure the new slot is ACTIVE, with GEN one above the old slot's, and the old one
VERIFIED. -/
def execProbationPass (s : State) : Host.Outcome State Fault Refusal :=
  effect s fun m =>
    match m.upd.prob with
    | none => m
    | some h =>
      let e := engineAt h.engine
      if !m.frnReached h.at_ || m.upd.probDue.isSome then m
      else
        let gen := match m.slot e h.oldSlot with | some x => x.gen + 1 | none => 1
        let m : Hw := { m with upd := { m.upd with prob := none, slots := m.upd.slots.mapIdx fun (i : Nat) (x : Slot) =>
            if i = 2 * h.engine + h.newSlot then { x with state := slACTIVE, gen := gen + 1 }
            else if i = 2 * h.engine + h.oldSlot then { x with state := slVERIFIED, gen := gen } else x } }
        ((((m.probBit e false).wr Reg.UPD_PROB_FRAMES 0).showBundle).showUpd).updateRec (if h.revert then 3 else 1) e h.newSlot 0

/-- A probation has failed (R518): the new slot is REJECTED and the old one selected. -/
def Hw.rollback (m : Hw) (h : Handover) (cause : Nat) : Hw :=
  let e := engineAt h.engine
  let m := ({ m with upd := { m.upd with prob := none, probDue := none } }).slotState e h.newSlot slREJECTED
  let m := ((m.probBit e false).selectSlot e h.oldSlot).wr Reg.UPD_PROB_FRAMES 0
  let m := if e.side = .field then m.bump Reg.UPD_EVENTS_ROLLBACKS else m
  let m := m.sideFault e.side Kind.UPD_ROLLBACK e.id cause
  ((m.handoverRec e 3 h.oldSlot h.newSlot h.stateLen 0).updateRec 2 e h.newSlot 0).showUpd

/-- The probation of an engine ends as the engine is restarted or fenced, or as its side is reset (R518). -/
def Hw.probEnds (m : Hw) (e : Engine) (cause : Nat) : Hw :=
  match m.upd.prob with
  | some h => if h.engine = e.index then m.rollback h cause else m
  | none => m

/-- PROBATION_FAIL (R518): a trap, a missed check-in or a fault of the engine has failed its probation; the core stops,
and the old image starts as after an E. A restart, a fence, a reset and a loss of power roll back themselves. -/
def execProbationFail (cause : Nat) (s : State) : Host.Outcome State Fault Refusal :=
  effect s fun m =>
    match m.upd.prob, m.upd.probDue with
    | some h, some due =>
      if due ≠ cause then m
      else (m.rollback h cause).restartEngine (engineAt h.engine) (wordOf Kind.UPD_ROLLBACK (engineAt h.engine).id cause)
    | _, _ => m

end Sys2Proof.Machine
end

