-- ==== Sys2Proof/Machine/TwoWire.lean ====
section
/-! DEFINITION. The host two-wire port and what a host write of a register does (R9, R376 to R386). -/

namespace Sys2Proof.Machine

/-! A host write of one register word. -/

/-- Bits of `ALERT_SRC` that stand when `ALERT_EN` newly enables them assert the pad; it is released where none is left
(R421). -/
def Hw.alertEnabled (m : Hw) (before : Nat) : Hw :=
  let fresh := (List.range 8).any fun i =>
    m.bit Reg.ALERT_SRC_SRC i && m.bit Reg.ALERT_EN_EN i && !bitAt before i
  let m := if fresh && m.host.hReady then { m with host := { m.host with alert := true } } else m
  m.alertSettle

/-- What a host-side control word does beyond its stored bits: `act` holds the bits written 1 that may be written,
`en` the former `ALERT_EN`. -/
def Hw.hostControl (m : Hw) (a act en : Nat) : Hw :=
  let on := fun (i : Nat) => bitAt act i
  if a = 0x0030 then m.alertSettle
  else if a = 0x0034 then m.alertEnabled en
  else if a = 0x0070 then (if on 1 then m.askBurn .host else m)
  else if a = 0x00A0 then (if on 7 then m.lbStart .host else m)
  else if a = 0x0104 then
    let m := m.showResult
    let m := if on 1 then m.popResult else m
    if on 0 then m.submit else m
  else if a = 0x0208 ∨ a = 0x020C then m.limitWrite
  else if a = 0x0290 then (if on 0 then m.xferClrLatch else m)
  else if a = 0x0410 ∨ a = 0x0418 then m.portFlags
  else if a = 0x0438 then
    let m := if on 0 then m.cblPrSwap else m
    let m := if on 1 then m.endRole 0 else m
    let m := if on 2 then m.cblFsEnter else m
    if on 3 then m.leaveShare else m
  else if a = 0x2008 then (if on 0 then m.drnGo else m)
  else m

/-- A masked host write of the word at an aligned address (R9, R381): the field snapshot takes none, and the update
window is written under R507. -/
def Hw.writeHostWord (m : Hw) (a mask value : Nat) : Hw :=
  if isFieldAddr a then m
  else if 0x8000 ≤ a then
    (List.range 4).foldl (fun m i =>
      if bitsOf mask (8 * i) 8 = 0 then m else m.fillWindow (a - 0x8000 + i) [BitVec.ofNat 8 (bitsOf value (8 * i) 8)]) m
  else
    let act := m.acting a mask value
    let en := m.rd Reg.ALERT_EN_EN
    ((Reg.fieldsAt a).foldl (fun m f => m.writeField a mask value f) m).hostControl a act en

/-- REGISTER_WRITE (R9). -/
def execRegisterWrite (addr : Fin 65536) (value : Word) (s : State) : Host.Outcome State Fault Refusal :=
  effect s fun m => m.writeHostWord (addr / 4 * 4) 0xFFFFFFFF value.toNat

/-! The port. -/

/-- The port answers at all: H-CORE runs or its ROM serves, the pads have their supply, and the port is not fenced
(R340, R376, R396, R521). -/
def Hw.hpUp (m : Hw) : Bool := (m.host.hReady || m.upd.hostFrost) && !m.on Reg.HP_STATUS_FENCED && !m.bus.hvioLow

/-- An address byte that the port acknowledges, but for the alert response (R378). -/
def Hw.hpMatch (m : Hw) (addr : Nat) (read : Bool) : Bool :=
  addr == m.rd Reg.HP_ADDR_PRIMARY ||
    (m.on Reg.HP_ADDR_SEC_EN && !read && ((addr ^^^ m.rd Reg.HP_ADDR_SECONDARY) &&& m.rd Reg.HP_ADDR_MASK) == 0) ||
    (m.upd.hostFrost && addr == 0x2C)

/-- The address byte of an alert response while the port holds an alert (R378, R386). -/
def Hw.araMatch (m : Hw) (addr : Nat) (read : Bool) : Bool :=
  addr == 0x0C && read && m.on Reg.HP_ADDR_ARA_EN && m.host.alert

/-- An address byte that R378 would accept meets a dozing or waking H-CORE (R384): it is NACKed, and wakes it. -/
def Hw.dozeNack (m : Hw) : Hw :=
  let m := m.bump Reg.HP_EVENTS_WAKE_NACKS
  if m.on Reg.HP_STATUS_DOZE then { m.hcoreWake with hp := { m.hp with wakeWait := true } } else m

/-- H-CORE dozes, or has not woken yet. -/
def Hw.hpAsleep (m : Hw) : Bool := m.on Reg.HP_STATUS_DOZE || m.hp.wakeWait

/-- A loop-back of the port at L2 or L3 runs (R532): every address byte is NACKed, and counted. -/
def Hw.hpLooped (m : Hw) : Bool :=
  m.rd Reg.HLB_STATUS_STATE == 2 && m.rd Reg.HLB_CTL_IF == 2 && m.rd Reg.HLB_CTL_DEPTH != 0

/-- The pointer moved. -/
def Hw.setPointer (m : Hw) (p : Nat) : Hw := { m with hp := { m.hp with pointer := p % 65536 } }

/-- The data bytes of a write transfer applied together, word by word (R381). -/
def Hw.applyBytes (m : Hw) (ptr : Nat) (data : List Byte) : Hw :=
  let words := (List.range ((ptr % 4 + data.length + 3) / 4)).map fun i => ptr / 4 * 4 + 4 * i
  words.foldl (fun m a =>
    let mine := data.zipIdx.filter fun x => decide (a ≤ ptr + x.2 ∧ ptr + x.2 < a + 4)
    let mask := mine.foldl (fun v x => v + 0xFF * 2 ^ (8 * (ptr + x.2 - a))) 0
    let value := mine.foldl (fun v x => v + x.1.toNat * 2 ^ (8 * (ptr + x.2 - a))) 0
    m.writeHostWord a mask value) m

/-- The data of a write transfer from a pointer (R381): bytes past the page end are discarded, the first of them with
its NACK, and the pointer then holds the next page. -/
def Hw.writeData (m : Hw) (ptr : Nat) (data : List Byte) (past : Bool) : Hw :=
  let room := 64 - ptr % 64
  let m := m.applyBytes ptr (data.take room)
  if past || room < data.length then (m.bump Reg.HP_EVENTS_PAGE_NACKS).setPointer (ptr / 64 * 64 + 64)
  else m.setPointer (ptr + data.length)

/-- A write transfer as far as its completed bytes (R380, R381, R383). -/
def Hw.writeTransfer (m : Hw) (addr : Nat) (bytes : List Byte) : Hw :=
  let ptr := numAt bytes 1 1 + 256 * numAt bytes 0 1
  if m.on Reg.HP_ADDR_PEC then
    let room := 64 - ptr % 64
    let kept := bytes.take (2 + room + 1)
    let body := kept.dropLast
    if kept = [] then m
    else if crc8 (BitVec.ofNat 8 (2 * addr) :: body) ≠ (kept.getLastD 0).toNat then
      let m := if kept.length < bytes.length then m.bump Reg.HP_EVENTS_PAGE_NACKS else m
      ((m.bump Reg.HP_EVENTS2_PEC_ERRS).wr Reg.HP_STATUS_ERR_EVT 1).hfault Kind.HP_PEC_ERR (body.length - 2)
    else if body.length < 2 then m
    else m.writeData ptr (body.drop 2) (kept.length < bytes.length)
  else if bytes.length < 2 then m
  else m.writeData ptr (bytes.drop 2) false

/-- HP_WRITE_TRANSFER (R381). -/
def execHpWriteTransfer (addr : Fin 128) (bytes : List Byte) (s : State) : Host.Outcome State Fault Refusal :=
  effect s fun m =>
    if !m.hpUp then m
    else if m.hpLooped then m.bump Reg.HP_EVENTS_WAKE_NACKS
    else if !m.hpMatch addr false then m
    else if m.hpAsleep then m.dozeNack
    else m.writeTransfer addr bytes

/-- A word as a read transfer sees it (R382, R428, R507): the snapshot's image, the update window while it is open, or
the register. -/
def Hw.hostWord (m : Hw) (a : Nat) : Nat :=
  if isFieldAddr a then numAt m.host.snap.image (a - 0x1000) 4
  else if 0x8000 ≤ a then (if m.windowOpen then m.readWord a else 0)
  else m.readWord a

/-- The RC fields of a word whose highest bit lies in bytes [lo, hi) of it. -/
def rcIn (a lo hi : Nat) : List Field :=
  (Reg.fieldsAt a).filter fun f =>
    f.acc == .rc && decide (lo ≤ (f.lsbIn a + f.width - 1) / 8 ∧ (f.lsbIn a + f.width - 1) / 8 < hi)

/-- A read as it goes on: the bytes sent, and the clears that the snapshot passes to the field side. -/
structure ReadRun where
  bytes : List Byte
  clears : List (List Byte)
deriving DecidableEq, Repr

/-- An entry of TM_RDCLR for a field and its word (R406, R419). -/
def rdclrEntry (a v : Nat) (f : Field) : List Byte :=
  let lo := f.lsbIn a / 8
  let hi := (f.lsbIn a + f.width + 7) / 8
  le 2 (a + lo) ++ le 1 (hi - lo) ++ le (hi - lo) (v / 2 ^ (8 * lo))

/-- `count` bytes read from a pointer, a word at a time (R382). -/
def Hw.readRun (m : Hw) : Nat → Nat → Nat → Hw × ReadRun
  | 0, _, _ => (m, { bytes := [], clears := [] })
  | fuel + 1, ptr, count =>
    if count = 0 then (m, { bytes := [], clears := [] })
    else
      let a := ptr / 4 * 4
      let lo := ptr % 4
      let n := min (4 - lo) count
      let v := m.hostWord a
      let fs := rcIn a lo (lo + n)
      let m' := if isFieldAddr a then m else fs.foldl (fun m f => m.clearRead f (bitsOf v (f.lsbIn a) f.width)) m
      let r := m'.readRun fuel ((ptr + n) % 65536) (count - n)
      (r.1, { bytes := (le 4 v).drop lo |>.take n |> (· ++ r.2.bytes)
              clears := (if isFieldAddr a then fs.map (rdclrEntry a v) else []) ++ r.2.clears })

/-- The clears of a read go to the field side, 36 to a message (R419). -/
def Hw.sendClears (m : Hw) (frn : Nat) : Nat → List (List Byte) → Hw
  | 0, _ => m
  | fuel + 1, es =>
    if es = [] then m else (m.sendH 0x23 0 (le 4 frn ++ (es.take 36).flatten)).sendClears frn fuel (es.drop 36)

/-- A read transfer of `count` whole bytes from the pointer (R380, R382, R383). -/
def Hw.readTransfer (m : Hw) (addr count : Nat) : Hw :=
  let ptr := m.hp.pointer
  let frn := m.rd Reg.ID_SNAP_FRN
  let r := m.readRun (count + 1) ptr count
  let m := ({ r.1 with hp := { r.1.hp with readBytes := r.2.bytes } }).setPointer (ptr + count)
  let m := if 0x0310 ≤ ptr ∧ ptr < 0x0314 then m
    else m.wr Reg.HP_RDCRC_CRC (crc8 (BitVec.ofNat 8 (2 * addr + 1) :: r.2.bytes))
  m.sendClears frn r.2.clears.length r.2.clears

/-- HP_READ_TRANSFER (R382). -/
def execHpReadTransfer (addr : Fin 128) (count : Nat) (s : State) : Host.Outcome State Fault Refusal :=
  effect s fun m =>
    if !m.hpUp then m
    else if m.hpLooped then m.bump Reg.HP_EVENTS_WAKE_NACKS
    else if !m.hpMatch addr true then m
    else if m.hpAsleep then m.dozeNack
    else m.readTransfer addr count

/-- HP_BUS_ERROR (R385, R397). -/
def Hw.busError (m : Hw) (bit : Nat) (read stop : Bool) : Hw :=
  ((m.bump Reg.HP_EVENTS_BUS_ERRS).wr Reg.HP_STATUS_ERR_EVT 1).hfault Kind.HP_BUS_ERROR (bit + 16 * b2n read + 32 * b2n stop)

/-- HP_TRANSFER_ABORT (R385): a START or STOP inside a byte. -/
def execHpTransferAbort (cut : HpCut) (s : State) : Host.Outcome State Fault Refusal :=
  effect s fun m =>
    if !m.hpUp || m.hpAsleep || m.hpLooped then m
    else
      match cut with
      | .head bit stop => m.busError bit false stop
      | .write addr bytes bit stop =>
        if m.hpMatch addr false then (m.writeTransfer addr bytes).busError bit false stop else m
      | .read addr sent bit stop =>
        if m.hpMatch addr true then (m.readTransfer addr sent).busError bit true stop else m

/-- HP_TIMEOUT (R385): the open write is discarded whole, and the pointer stays as at the START. -/
def execHpTimeout (completed : Nat) (s : State) : Host.Outcome State Fault Refusal :=
  effect s fun m =>
    if m.hpUp then
      ((m.bump Reg.HP_EVENTS_TIMEOUTS).wr Reg.HP_STATUS_TMO_EVT 1).hfault Kind.HP_TIMEOUT completed
    else m

/-- HP_DOZE_WAKE (R384). -/
def execHpDozeWake (addr : Fin 128) (read : Bool) (s : State) : Host.Outcome State Fault Refusal :=
  effect s fun m => if m.hpUp && m.hpAsleep && (m.hpMatch addr read || m.araMatch addr read) then m.dozeNack else m

/-- HP_ALERT_RESPONSE (R386): one byte with PRIMARY; where arbitration is lost the pad stays asserted. -/
def execHpAlertResponse (lost : Bool) (s : State) : Host.Outcome State Fault Refusal :=
  effect s fun m =>
    if m.hpUp && m.hpLooped then m.bump Reg.HP_EVENTS_WAKE_NACKS
    else if !m.hpUp || !m.araMatch 0x0C true then m
    else if m.hpAsleep then m.dozeNack
    else if lost then m.bump Reg.HP_EVENTS2_ARA_LOST
    else { m with host := { m.host with alert := false }
                  hp := { m.hp with readBytes := le 1 (2 * m.rd Reg.HP_ADDR_PRIMARY) } }

end Sys2Proof.Machine
end

