-- ==== Sys2Proof/Machine/Twin.lean ====
section
/-! DEFINITION. The twin link and the roles of the pair (chapter 11). -/

namespace Sys2Proof.Machine

/-! Taking a message (R349, R367). -/

/-- The place of an LSEQ after another, modulo 2^32. -/
def lseqAfter (a b : Nat) : Nat := (a + 2 ^ 32 - b % 2 ^ 32) % 2 ^ 32

/-- The lowest LSEQ not taken yet, and the taken ones above it, by at most `fuel` steps. -/
def closeGap : Nat → Nat → List Nat → Nat × List Nat
  | 0, n, l => (n, l)
  | fuel + 1, n, l => if l.contains n then closeGap fuel ((n + 1) % 2 ^ 32) (l.filter (· != n)) else (n, l)

/-- Has the LSEQ been taken already? -/
def Hw.lseqTaken (m : Hw) (n : Nat) : Bool :=
  match m.twin.rxSeq with
  | none => false
  | some x => decide (2 ^ 31 ≤ lseqAfter n x) || m.twin.rxAhead.contains n

/-- The LSEQ is noted as taken. -/
def Hw.noteLseq (m : Hw) (n : Nat) : Hw :=
  let base := m.twin.rxSeq.getD n
  let r := closeGap (m.twin.rxAhead.length + 1) base (m.twin.rxAhead ++ [n])
  { m with twin := { m.twin with rxSeq := some r.1, rxAhead := r.2 } }

/-- F7 TWIN takes messages: the twin is configured, its link is trained and not fenced, and the engine is here. -/
def Hw.twinHears (m : Hw) : Bool :=
  m.on Reg.TWN_CFG_EN && m.rd Reg.TWN_STATUS_LINK == 2 && !m.bit Reg.FLT_FENCE_U_UNITS 0x13 && !m.away .f7

/-- The link carries data: F7 TWIN takes messages, in thaw (R38, R348). -/
def Hw.twinData (m : Hw) : Bool := m.twinHears && !m.frozen

/-- A twin message taken in: once for each LSEQ, refused with TWM_EPOCH_STALE where its role epoch is lower, and with a
higher epoch adopted (R349, R367). -/
def Hw.takeTwm (m : Hw) (h : TwmHead) (act : Hw → Hw) : Hw :=
  if !m.twinData || m.lseqTaken h.lseq then m
  else
    let m := m.noteLseq h.lseq
    let own := m.rd Reg.TWN_EPOCH_EPOCH
    if h.epoch < own then
      ((m.trySendTwin 9 (le 4 own ++ le 1 m.leadPosition)).bump Reg.TWN_HB_STALE).fault Kind.EPOCH_STALE 0
    else act (m.wr Reg.TWN_EPOCH_EPOCH h.epoch)

/-- The module leads the pair, in LEAD or SOLO. -/
def Hw.leads (m : Hw) : Bool := m.twn = twnLEAD || m.twn = twnSOLO

/-- The module is one that rejoins: STANDBY, ISOLATED or PENDING. -/
def Hw.joins (m : Hw) : Bool := m.twn = twnSTANDBY || m.twn = twnISOLATED || m.twn = twnPENDING

/-! The pending ring and the resync (R362, R364). -/

/-- The records of the pending ring are submitted, in their order. -/
def Hw.submitRing (m : Hw) : Hw :=
  let ring := m.twin.ring
  ring.foldl Hw.submitRec ((({ m with twin := { m.twin with ring := [], ringRun := false } }).wr Reg.TWN_PEND_BYTES 0))

/-- A resync starts: TWM_RESYNC_REQ from the module's own watermark + 1 (R364). -/
def Hw.startResync (m : Hw) : Hw :=
  let m := m.endTwin fun (x : TwinMsg) => x.type == 5
  ({ (m.wr Reg.TWN_STATUS_RESYNC 1) with twin := { m.twin with resyncAt := some m.frn } }).trySendTwin 5 (le 8 m.firstOpen)

/-- The partner's heartbeat has told of records above this module's watermark (R355). -/
def Hw.partnerAhead (m : Hw) : Bool := decide (m.firstOpen ≤ max m.twin.pMirror (m.rd Reg.TWN_PWMARK_JSN))

/-- A module whose link has trained with an agreeing partner resyncs, unless a fork or another sequence bars it; a PENDING one
where the partner holds records above its watermark (R355). -/
def Hw.mayResync (m : Hw) : Bool :=
  m.joins && m.on Reg.TWN_STATUS_CFG_MATCH && m.rd Reg.TWN_STATUS_LINK == 2 && !m.twin.barred &&
    !m.on Reg.TWN_STATUS_RESYNC && (m.twn != twnPENDING || m.partnerAhead)

/-- The rejoining module has staged up to the mirror point: it is STANDBY, and forwards its pending ring (R355, R364). -/
def Hw.endResync (m : Hw) : Hw :=
  if m.joins && m.on Reg.TWN_STATUS_RESYNC && decide (m.rd Reg.TWN_PWMARK_JSN < m.jrn.hashNext) &&
      (m.twn = twnPENDING || m.twin.pState == twnLEAD || m.twin.pState == twnSOLO) then
    let m := { (m.wr Reg.TWN_STATUS_RESYNC 0) with twin := { m.twin with resyncAt := none } }
    ((m.endTwin fun (x : TwinMsg) => x.type == 5).toRole twnSTANDBY 3).submitRing
  else m

/-- The module stays ISOLATED until it is enrolled. -/
def Hw.bar (m : Hw) (cause : Nat) : Hw :=
  let m := { (m.wr Reg.TWN_STATUS_RESYNC 0) with twin := { m.twin with barred := true, resyncAt := none } }
  m.toRole twnISOLATED cause

/-- A journal of another sequence, or one that the LEAD no longer holds (R364). -/
def Hw.pairMismatch (m : Hw) : Hw := (m.bar 3).fault Kind.TWIN_PAIR_MISMATCH 0

/-- Committed records from a JSN on, in JSN order, as many as fit `room` bytes. -/
def packRecs : Nat → Nat → Nat → List JRec → List JRec
  | 0, _, _, _ => []
  | fuel + 1, n, room, rs =>
    match (rs.filter fun r => n ≤ r.jsn).foldl (fun (best : Option JRec) r =>
        match best with
        | none => some r
        | some b => if r.jsn < b.jsn then some r else some b) none with
    | none => []
    | some r => if r.size ≤ room then r :: packRecs fuel (r.jsn + 1) (room - r.size) rs else []

/-- A module that serves its partner's resync: in LEAD or SOLO, or as the STANDBY of a PENDING partner (R355, R364; DEDUCED,
notes/assumptions/46.md). -/
def Hw.serves (m : Hw) : Bool := m.leads || (m.twn = twnSTANDBY && m.twin.pState == twnPENDING)

/-- The partner's resync is served (R364): committed records, up to 256 bytes to a message and 32 KiB to a frame. -/
def Hw.serveResync (m : Hw) : Nat → Hw
  | 0 => m
  | fuel + 1 =>
    match m.twin.resyncNext with
    | none => m
    | some n =>
      let rs := packRecs 8 n 256 m.readable
      let bytes := rs.flatMap JRec.bytes
      if !m.serves || m.frozen || 32768 < m.twin.resyncSent + bytes.length then m
      else
        match rs.getLast? with
        | none => m
        | some r =>
          match m.sendTwin 6 bytes with
          | none => m
          | some m' =>
            ({ m' with twin := { m'.twin with
                resyncNext := some (r.jsn + 1), resyncSent := m'.twin.resyncSent + bytes.length } } : Hw).serveResync fuel

/-! Claims (R353). -/

/-- The highest role epoch in the committed JR_ROLE_CHANGE and JR_FAILOVER records (R353). -/
def Hw.maxEpoch (m : Hw) : Nat :=
  m.readable.foldl (fun v r =>
    if r.kind = JR.ROLE_CHANGE.code then max v (numAt r.payload 4 4)
    else if r.kind = JR.FAILOVER.code then max v (numAt r.payload 8 4) else v) 0

/-- The module drives TW_DET_N and becomes LEAD (R353). -/
def Hw.claim (m : Hw) : Hw :=
  let m := m.wr Reg.TWN_EPOCH_EPOCH (m.maxEpoch + 1)
  let m := { (m.wr Reg.TWN_STATUS_LINK 1) with twin := { m.twin with
      waitDet := false, claimAt := some m.frn, claimJsn := m.rd Reg.JRN_NEXT_JSN, leadPos := m.rd Reg.TWN_CFG_POSITION } }
  (m.toRole twnLEAD 0).takeSealing.submitRing

/-- The module defers to the partner that holds the line low, and trains the link (R353). -/
def Hw.defer (m : Hw) : Hw :=
  let m := { ((m.wr Reg.TWN_STATUS_DET 1).wr Reg.TWN_STATUS_LINK 1) with twin := { m.twin with
      waitDet := false, leadPos := 1 - m.rd Reg.TWN_CFG_POSITION } }
  m.toRole twnSTANDBY 1

/-- TWIN_CLAIM (R353): TW_DET_N as the module finds it in CLAIMING. -/
def execTwinClaim (low : Bool) (s : State) : Host.Outcome State Fault Refusal :=
  effect s fun m =>
    if m.twn ≠ twnCLAIMING then m
    else if low then m.defer
    else if m.rd Reg.TWN_CFG_POSITION = 0 then (m.wr Reg.TWN_STATUS_DET 0).claim
    else { (m.wr Reg.TWN_STATUS_DET 0) with twin := { m.twin with waitDet := true } }

/-- TWIN_CLAIM_WAIT_EXPIRY (R353): position 1 has waited 100 ms. -/
def execTwinClaimWaitExpiry (low : Bool) (s : State) : Host.Outcome State Fault Refusal :=
  effect s fun m =>
    if m.twn = twnCLAIMING ∧ m.twin.waitDet then (if low then m.defer else m.claim) else m

/-- TWIN_TRAIN_TIMEOUT (R353, R360): 200 ms after the claim without a trained link. -/
def execTwinTrainTimeout (s : State) : Host.Outcome State Fault Refusal :=
  effect s fun m =>
    if m.twn = twnLEAD ∧ m.twin.claimAt.isSome ∧ m.rd Reg.TWN_STATUS_LINK ≠ 2 then
      let m := ({ m with twin := { m.twin with claimAt := none } }).toRole twnSOLO 0
      m.acceptReserved m.twin.reserved.length
    else m

/-! Training (R346, R354). -/

/-- The bytes that the configuration digest covers, in the order of R346 (DEDUCED, notes/assumptions/70.md). -/
def Hw.digestItems (m : Hw) : List Byte :=
  le 4 (m.rd Reg.TWN_CFG_PAIR_ID) ++ le 4 (m.rd Reg.FRM_PERIOD_PERIOD) ++ le 4 (m.rd Reg.FRM_SRC_CFG_LINE_MULT) ++
    le 4 (m.readWord 0x111C) ++ ((List.range 32).flatMap fun i => le 4 (m.rd (Reg.FRM_MAP_MAP i))) ++
    ((List.range 4).flatMap fun p => le 4 (m.readWord (0x11B0 + 4 * p))) ++ le 1 (m.rd Reg.KA_SET_CODE)

/-- The digest of R346. -/
def Hw.cfgDigest (m : Hw) : List Byte := digestBytes (Config.sha256 m.digestItems)

/-- A reservation is withdrawn (R354, R364): it has assigned no JSN, and its ticket is VOID. -/
def Hw.withdrawOne (m : Hw) (x : Append) : Hw :=
  let m := m.wr Reg.JRN_STAGE_STAGED (m.rd Reg.JRN_STAGE_STAGED - x.r.cost)
  let m := m.endTwin fun (y : TwinMsg) => y.type == 2 && numAt y.payload 4 8 == x.r.jsn
  match x.tkt with
  | none => m
  | some n =>
    match m.cmdOfTicket n with
    | some c => m.answerCmd { c with jsn := none } m.voidAnswer
    | none => ((m.voidTickets fun (t : Ticket) => t.num == n).1).dropTicket n

/-- Every open reservation is withdrawn, and the next JSN is the first of them again. -/
def Hw.withdrawAll (m : Hw) : Hw :=
  match m.twin.reserved with
  | [] => m
  | x :: xs =>
    let m := m.wr Reg.JRN_NEXT_JSN x.r.jsn
    (x :: xs).foldl Hw.withdrawOne { m with twin := { m.twin with reserved := [] } }

/-- Training has found both modules leading, and this one is at position 1 (R354). -/
def Hw.dualLead (m : Hw) : Hw :=
  let m := m.fault Kind.TWIN_DUAL_LEAD (m.rd Reg.TWN_CFG_POSITION)
  let m := { m with twin := { m.twin with leadPos := 1 - m.rd Reg.TWN_CFG_POSITION } }
  let assigned := decide (m.twin.claimJsn < m.jrn.hashNext) || m.jrn.staged.any fun x => decide (m.twin.claimJsn ≤ x.r.jsn)
  if !assigned then (((m.withdrawAll).wr Reg.JRN_NEXT_JSN m.twin.claimJsn).toRole twnSTANDBY 5).startResync
  else
    let m := m.acceptReserved m.twin.reserved.length
    let e := m.rd Reg.TWN_EPOCH_EPOCH
    let m := (m.wr Reg.TWN_STATUS_SEQ_ID (m.rd Reg.TWN_STATUS_SEQ_ID + 1)).failoverRec 1 0 e m.frn m.sc m.twin.claimJsn
    (m.appendMany m.sub.length).bar 5

/-- TWIN_LINK_TRAINED (R346, R348, R354, R355): in thaw the link trains, the digests cross, two leading modules are resolved, and a journal of another
sequence is turned away. -/
def execTwinLinkTrained (pState : Fin 8) (sameSequence : Bool) (s : State) : Host.Outcome State Fault Refusal :=
  effect s fun m =>
    if !m.on Reg.TWN_CFG_EN || m.rd Reg.TWN_STATUS_LINK == 2 || m.bit Reg.FLT_FENCE_U_UNITS 0x13 || m.away .f7 || m.frozen then m
    else
      let m := { ((m.wr Reg.TWN_STATUS_LINK 2).wr Reg.TWN_STATUS_CFG_MATCH 0) with twin := { m.twin with
          hbLost := false, rxSeq := none, rxAhead := [], claimAt := none, pState := pState } }
      let m := m.trySendTwin 8 (m.cfgDigest ++ le 1 (m.rd Reg.TWN_CFG_POSITION) ++ le 4 (m.rd Reg.TWN_CFG_PAIR_ID))
      if m.leads && (pState.val == twnLEAD || pState.val == twnSOLO) && m.rd Reg.TWN_CFG_POSITION == 1 then m.dualLead
      else if m.joins && !sameSequence then m.pairMismatch
      else m

/-- TWM_CFG_DIGEST (R346). -/
def execTwmCfgDigest (h : TwmHead) (digest : List Byte) (position : Fin 2) (pairId : Nat) (s : State) :
    Host.Outcome State Fault Refusal :=
  effect s fun m => m.takeTwm h fun m =>
    let agree := digest == m.cfgDigest && pairId == m.rd Reg.TWN_CFG_PAIR_ID && position.val != m.rd Reg.TWN_CFG_POSITION
    let m := m.wrB Reg.TWN_STATUS_CFG_MATCH agree
    if agree then (if m.mayResync then m.startResync else m)
    else if m.twn = twnSTANDBY ∨ m.twn = twnISOLATED then
      ((m.wr Reg.TWN_STATUS_RESYNC 0).fault Kind.TWIN_CFG_MISMATCH 0).toRole twnISOLATED 3
    else m

/-! Heartbeats (R350). -/

/-- TWIN_HEARTBEAT_SEND (R350, R349): within 100 µs of a tick it is dropped, and in freeze it is a level mark of the
lanes (R57). `ika` is the KA current in 10 µA units. -/
def execTwinHeartbeatSend (t ika : Nat) (s : State) : Host.Outcome State Fault Refusal :=
  effect s fun m =>
    if !m.twinHears || t < 20000 || m.seq.len < t + 20000 then m
    else if m.frozen then { m with twin := { m.twin with mark := !m.twin.mark } }
    else (m.atT t).trySendTwin 1
      (le 4 m.frn ++ le 4 (m.atT t).sc ++ le 1 m.twn ++ le 1 m.mode ++ le 2 0 ++ le 8 (m.rd Reg.TWN_WMARK_JSN) ++
        le 8 (m.rd Reg.JRN_COMMIT_JSN) ++ le 4 (m.rd Reg.JRN_ALLOW_ALLOW) ++ le 2 (satN 16 ika) ++ le 2 0)

/-- The SOLO module becomes LEAD again: its partner is STANDBY with equal configuration, and holds all that it has
accepted (R355, R363, R364). -/
def Hw.leadAgain (m : Hw) (mirrorWm : Nat) : Hw :=
  if m.twn = twnSOLO ∧ m.twin.pState = twnSTANDBY ∧ m.on Reg.TWN_STATUS_CFG_MATCH ∧
      m.rd Reg.JRN_NEXT_JSN ≤ mirrorWm + 1 then
    let m := (m.wr Reg.TWN_WMARK_JSN mirrorWm).toRole twnLEAD 3
    { m with twin := { m.twin with resyncNext := none } }
  else m

/-- TWM_HEARTBEAT (R350, R355, R361, R364). -/
def execTwmHeartbeat (h : TwmHead) (_frn _sc : Nat) (state mode : Fin 8) (mirrorWm commitWm allow _ika : Nat) (s : State) :
    Host.Outcome State Fault Refusal :=
  effect s fun m => m.takeTwm h fun m =>
    let m := { (m.wr Reg.TWN_PWMARK_JSN commitWm) with twin := { m.twin with
        hbLost := false, pState := state, pMode := mode, pMirror := mirrorWm, pAllow := allow } }
    let m := m.leadAgain mirrorWm
    let m := m.endResync
    if m.twn ≠ twnSTANDBY ∧ m.mayResync then m.startResync else m

/-- TWIN_HB_LOST (R350, R355, R360): for 2.5 ms neither a heartbeat nor a tick; the link trains again. -/
def Hw.heartbeatLost (m : Hw) : Hw :=
  if !m.on Reg.TWN_CFG_EN || m.twin.hbLost then m
  else
    let st := m.twn
    let m : Hw := { (m.bump Reg.TWN_HB_LOST).fault Kind.TWIN_HB_LOST st with twin := { m.twin with hbLost := true } }
    let m := if m.rd Reg.TWN_STATUS_LINK = 2 then m.wr Reg.TWN_STATUS_LINK 1 else m
    if st = twnLEAD then
      let m := m.toRole twnSOLO 2
      m.acceptReserved m.twin.reserved.length
    else if st = twnSTANDBY ∧ m.on Reg.TWN_STATUS_DET then
      ((m.wr Reg.TWN_STATUS_RESYNC 0).toRole twnISOLATED 2)
    else m

/-- TWIN_HB_LOST (R350, R355). -/
def execTwinHbLost (s : State) : Host.Outcome State Fault Refusal := effect s Hw.heartbeatLost

/-! Failover (R355, R363, R369, R371). -/

/-- Forwarded appends that have not come back re-enter their stream, ahead of every newer record (R363). -/
def Hw.reenter (m : Hw) : Hw :=
  let back := m.twin.forwarded.map fun (e : Nat × Append) => e.2
  { m with sub := back ++ m.sub, twin := { m.twin with forwarded := [] } }

/-- A STANDBY is promoted to SOLO (R355, R363). -/
def Hw.promote (m : Hw) : Hw :=
  let present := !m.twin.hbLost
  let old := m.rd Reg.TWN_EPOCH_EPOCH
  let m := (m.endTwin fun _ => true).reenter
  let take := m.rd Reg.JRN_NEXT_JSN
  let m := ((m.takeSealing.wr Reg.TWN_EPOCH_EPOCH (old + 1)).wr Reg.TWN_STATUS_RESYNC 0).toRole twnSOLO (if present then 4 else 2)
  let m := m.failoverRec 0 (b2n present) old m.frn m.sc take
  let m := ((m.bump Reg.TWN_HB_FAILOVERS).wr Reg.TWN_LAST_FRN m.frn).fault Kind.TWIN_FAILOVER (b2n present)
  let m := { m with twin := { m.twin with
      takeover := some take, claimJsn := take, leadPos := m.rd Reg.TWN_CFG_POSITION, resyncAt := none } }
  let m := m.setTrack .twin { m.track .twin with run := 0, qualified := false, qualFrames := 0, window := [] }
  let m := if m.rd Reg.FRM_STATUS_SRC = SyncSrc.twin.code then m.syncLost else m
  m.submitRing

/-- TWIN_FAILOVER (R355, R375): TW_DET_N has been high for 100 µs. -/
def execTwinFailover (t : Nat) (s : State) : Host.Outcome State Fault Refusal :=
  effect s fun m =>
    if m.twn = twnSTANDBY then (m.atT t).promote
    else if m.twn = twnISOLATED then
      (((m.atT t).toRole twnPENDING 2).wr Reg.FLT_STATUS_DOUBLE 1).fault Kind.DOUBLE_FAULT 0x33
    else m

/-! Mirrors (R360, R361, R362, R366). -/

/-- The mirror watermark is the highest JSN staged without a gap below it. -/
def Hw.markMirror (m : Hw) : Hw := if m.jrn.hashNext = 0 then m else m.wr Reg.TWN_WMARK_JSN (m.jrn.hashNext - 1)

/-- A record that this module submitted, by the position that its SRC names (R359). -/
def Hw.isOwn (m : Hw) (r : JRec) : Bool := r.src / 128 == m.rd Reg.TWN_CFG_POSITION

/-- The forwarded append that a mirrored record is. -/
def Hw.forwardOf (m : Hw) (r : JRec) : Option (Nat × Append) :=
  if m.isOwn r then
    m.twin.forwarded.find? fun (e : Nat × Append) =>
      e.2.r.kind == r.kind && e.2.r.frn == r.frn && e.2.r.tai == r.tai && e.2.r.sub == r.sub && e.2.r.payload == r.payload
  else none

/-- A record of the sequence is staged on a module that does not number it (R360, R362, R366): its own comes back
accepted, and a release takes effect. -/
def Hw.stageMirrored (m : Hw) (r : JRec) : Hw :=
  let m := m.wr Reg.JRN_NEXT_JSN (max (m.rd Reg.JRN_NEXT_JSN) (r.jsn + 1))
  let m := match m.forwardOf r with
    | some e =>
      let m := { m with twin := { m.twin with
          forwarded := m.twin.forwarded.filter fun (d : Nat × Append) => d.1 != e.1 } }
      (m.endTwin fun (y : TwinMsg) => y.type == 4 && numAt y.payload 0 4 == e.1).acceptAt r e.2.tkt
    | none => m.stage r none false
  let m := if r.kind = JR.DRAIN_RELEASE.code then m.release (numAt r.payload 0 4) else m
  let m := if r.kind = JR.SEAL.code then m.wr Reg.JRN_STATUS_SEALING 0 else m
  m.markMirror

/-- The module holds the record with a JSN, staged or committed. -/
def Hw.holds (m : Hw) (j : Nat) : Bool :=
  decide (j < m.jrn.hashNext) || m.jrn.staged.any fun (x : Staged) => x.r.jsn == j

/-- TWM_MIRROR (R360, R369): the STANDBY stages the record and answers with its JSN; one that it holds is only
answered. -/
def execTwmMirror (h : TwmHead) (bytes : List Byte) (s : State) : Host.Outcome State Fault Refusal :=
  effect s fun m => m.takeTwm h fun m =>
    let r := JRec.ofBytes bytes
    if m.twn ≠ twnSTANDBY then m
    else (if m.holds r.jsn then m else m.stageMirrored r).trySendTwin 3 (le 8 r.jsn)

/-- Reservations up to a JSN become acceptances, in JSN order (R360). -/
def Hw.acceptTo (m : Hw) (jsn : Nat) : Nat → Hw
  | 0 => m
  | fuel + 1 =>
    match m.twin.reserved with
    | [] => m
    | x :: _ => if x.r.jsn ≤ jsn then m.acceptFront.acceptTo jsn fuel else m

/-- TWM_MIRROR_ACK (R360, R361). -/
def execTwmMirrorAck (h : TwmHead) (jsn : Nat) (s : State) : Host.Outcome State Fault Refusal :=
  effect s fun m => m.takeTwm h fun m =>
    if m.twn ≠ twnLEAD then m
    else
      let m := m.endTwin fun (x : TwinMsg) => x.type == 2 && numAt x.payload 4 8 ≤ jsn
      let m := m.acceptTo jsn m.twin.reserved.length
      let m := if m.jrn.hashNext = 0 then m
        else m.wr Reg.TWN_WMARK_JSN (max (m.rd Reg.TWN_WMARK_JSN) (min jsn (m.jrn.hashNext - 1)))
      m.appendMany m.sub.length

/-- TWM_APPEND (R362): the LEAD numbers the partner's record, which keeps its SRC. -/
def execTwmAppend (h : TwmHead) (_fwd : Nat) (bytes : List Byte) (s : State) : Host.Outcome State Fault Refusal :=
  effect s fun m => m.takeTwm h fun m =>
    if m.leads then
      let r := JRec.ofBytes bytes
      m.submitRec { r with flags := r.flags % partnerMark + partnerMark }
    else m

/-! Resync (R364). -/

/-- TWM_RESYNC_REQ (R364). -/
def execTwmResyncReq (h : TwmHead) (fromJsn : Nat) (s : State) : Host.Outcome State Fault Refusal :=
  effect s fun m => m.takeTwm h fun m =>
    if m.serves then ({ m with twin := { m.twin with resyncNext := some fromJsn } }).serveResync 64 else m

/-- The records that a run of bytes spells, by at most `fuel` of them. -/
def recsOf : Nat → List Byte → List JRec
  | 0, _ => []
  | fuel + 1, bs =>
    let n := 8 * numAt bs 1 1
    if n = 0 ∨ bs.length < n then [] else JRec.ofBytes (bs.take n) :: recsOf fuel (bs.drop n)

/-- Reservations are settled at the TAKEOVER_JSN of the LEAD's JR_FAILOVER (R364): below it complete, at or above it
withdrawn. -/
def Hw.settleTakeover (m : Hw) (take : Nat) : Hw :=
  (if 0 < take then m.acceptTo (take - 1) m.twin.reserved.length else m).withdrawAll

/-- One record of the resync (R364): one that this module reserved is complete, and one that it does not hold is staged.
An empty journal starts at the first record that it is sent (R365). -/
def Hw.resyncRec (m : Hw) (r : JRec) : Hw :=
  let m := if r.kind = JR.FAILOVER.code then m.settleTakeover (numAt r.payload 20 8) else m
  let m := match m.twin.reserved with
    | x :: _ =>
      if x.r.jsn = r.jsn then (if x.r.payload = r.payload ∧ x.r.kind = r.kind then m.acceptFront else m.withdrawAll) else m
    | [] => m
  if m.holds r.jsn then m
  else if m.rd Reg.JRN_NEXT_JSN = 0 ∧ 0 < r.jsn then
    ({ m with jrn := { m.jrn with hashNext := r.jsn, chain := m.freeBelow (2 ^ 256) } }.drew).stageMirrored r
  else m.stageMirrored r

/-- TWM_RESYNC_DATA (R364): a gap above what the module holds means that the LEAD no longer holds its sequence. -/
def execTwmResyncData (h : TwmHead) (bytes : List Byte) (s : State) : Host.Outcome State Fault Refusal :=
  effect s fun m => m.takeTwm h fun m =>
    if !m.joins || !m.on Reg.TWN_STATUS_RESYNC then m
    else
      let m := m.endTwin fun (x : TwinMsg) => x.type == 5
      match recsOf 8 bytes with
      | [] => m
      | r :: rs =>
        if m.jrn.hashNext < r.jsn ∧ 0 < m.rd Reg.JRN_NEXT_JSN then m.pairMismatch
        else ((r :: rs).foldl Hw.resyncRec m).endResync

/-- TWIN_RESYNC_FAIL (R373): 256 frames without completion; the resync restarts. -/
def execTwinResyncFail (s : State) : Host.Outcome State Fault Refusal :=
  effect s fun m =>
    match m.twin.resyncAt with
    | some f =>
      let n := (m.frn + 2 ^ 32 - f) % 2 ^ 32
      if m.on Reg.TWN_STATUS_RESYNC ∧ 256 ≤ n then (m.fault Kind.TWIN_RESYNC_FAIL n).startResync else m
    | none => m

/-! Time (R372). -/

/-- TWM_TIME (R372): the STANDBY acts on the difference that it finds; each setting leaves its record, ORIGIN 2. -/
def execTwmTime (h : TwmHead) (_mode : Nat) (utc : Int) (tai sub : Nat) (s : State) : Host.Outcome State Fault Refusal :=
  effect s fun m => m.takeTwm h fun m =>
    if m.twn ≠ twnSTANDBY then m
    else
      let a := unitsOf m.timeNow.1 m.timeNow.2
      let b := unitsOf tai (sub % 32768)
      let d := if a ≤ b then b - a else a - b
      let set := fun (m : Hw) (mode : Nat) =>
        let r := m.setTime mode utc tai (sub % 32768) 2 0
        r.1.submitRec r.2
      let m := if d ≤ 3 then m else set m (if d ≤ 65536 then 1 else 0)
      if m.rdI Reg.RTC_UTC_OFFSET = utc then m else set m 2

/-- TWIN_TIME_SEND (R372): every 64 s. -/
def execTwinTimeSend (s : State) : Host.Outcome State Fault Refusal :=
  effect s fun m => if m.twn = twnLEAD ∧ m.twinHears then m.sendTime 0 else m

/-! Role epochs (R367). -/

/-- What is still due is sent anew with new LSEQs and the present epoch. -/
def Hw.renumber (m : Hw) : Hw :=
  let e := m.rd Reg.TWN_EPOCH_EPOCH
  let n := m.twin.txSeq
  { m with twin := { m.twin with
      out := m.twin.out.zipIdx.map fun x => { x.1 with lseq := (n + x.2) % 2 ^ 32, epoch := e }
      txSeq := (n + m.twin.out.length) % 2 ^ 32 } }

/-- TWM_EPOCH_STALE (R367): the sender takes the new epoch and recognises its role; a former LEAD's MIRRORs are not
resent. -/
def execTwmEpochStale (h : TwmHead) (epoch : Nat) (leadPos : Fin 2) (s : State) : Host.Outcome State Fault Refusal :=
  effect s fun m => m.takeTwm h fun m =>
    let m := { (m.wr Reg.TWN_EPOCH_EPOCH (max (m.rd Reg.TWN_EPOCH_EPOCH) epoch)) with twin := { m.twin with leadPos := leadPos } }
    let former := m.leads && leadPos.val != m.rd Reg.TWN_CFG_POSITION
    let m := if former then m.toRole twnSTANDBY 1 else m
    let m := if m.twn = twnLEAD then m else m.endTwin fun (x : TwinMsg) => x.type == 2
    let m := if former && m.mayResync then m.startResync else m
    m.renumber

/-! The link (R349, R351). -/

/-- TWIN_MESSAGE_REPEAT (R348, R349): in thaw, what the partner has acknowledged leaves the queue with its ticket; the rest is
repeated. -/
def execTwinMessageRepeat (acked : Nat) (s : State) : Host.Outcome State Fault Refusal :=
  effect s fun m =>
    if m.frozen then m else
    let m := m.endTwin fun (x : TwinMsg) => decide (lseqAfter acked x.lseq < 2 ^ 31)
    (m.appendMany m.sub.length).serveResync 64

/-- TWIN_LINK_CRC (R349, R373): the message is dropped and counted; the fault word follows with the frame's count. -/
def execTwinLinkCrc (s : State) : Host.Outcome State Fault Refusal :=
  effect s fun m => { m.bump Reg.TWN_HB_CRC_ERRS with twin := { m.twin with crcFrame := m.twin.crcFrame + 1 } }

/-- TWIN_FENCE_RETRAIN (R351, R342): at every 16th tick; the fence lifts at a training that completes, whose role effects
are TWIN_LINK_TRAINED's. -/
def execTwinFenceRetrain (ok : Bool) (s : State) : Host.Outcome State Fault Refusal :=
  effect s fun m =>
    match m.flt.fences.find? fun (f : FenceSt) => f.id == 0x33 with
    | some f => if ok && f.auto && m.frn % 16 == 0 then ((m.unfence 0x33).recover 0x33).wr Reg.TWN_STATUS_LINK 1 else m
    | none => m

end Sys2Proof.Machine
end

