-- ==== Sys2Proof/Machine/Reactions.lean ====
section
/-! DEFINITION. The reactions of F0 SUPERVISOR and H2 HOSTPORT to collected fault words (R19, R338 to R342). -/

namespace Sys2Proof.Machine

/-! Fences (R340, R341, R342). -/

/-- The tickets of a fenced unit or engine are settled, and what waits for a failed one has its result (R341). -/
def Hw.settleUnit (m : Hw) (id : Nat) : Hw :=
  let m := m.settleTickets id
  (m.tkt.table.filter fun (t : Ticket) => (t.unit == id || t.owner == id) && t.state == .failed).foldl
    (fun m t => m.afterFailure t.num 0x08) m

/-- Durable commands of an engine whose fence has become permanent end in ENGINE_FENCED (R341). -/
def Hw.refuseFenced (m : Hw) (e : Engine) : Hw :=
  (m.host.work.filter fun (c : HostCmd) =>
      c.durable && !c.hostSide && cmdEngine c.cmd == e && c.jsn.isNone && (c.stage ≤ 1 || c.stage == 5)).foldl
    (fun m c => m.refuseCmd c (answer stENGINE_FENCED (le 1 e.id))) m

/-- A run of a loop-back whose unit is fenced fails (R538). -/
def Hw.lbFenced (m : Hw) (id : Nat) : Hw :=
  let m := if lbUnit (m.rd Reg.LB_CTL_IF) = id ∨ (m.rd Reg.LB_CTL_IF = 5 ∧ 0x28 ≤ id ∧ id ≤ 0x2C) then m.lbFail .field 0 else m
  if (m.rd Reg.HLB_CTL_IF = 1 ∧ id = 0x39) ∨ (m.rd Reg.HLB_CTL_IF = 2 ∧ id = 0x38) ∨ (m.rd Reg.HLB_CTL_IF = 3 ∧ id = 0x3A) then
    m.lbFail .host 0
  else m

/-- What a fence does to its unit or engine (R340). -/
def Hw.fenceEffect (m : Hw) (id : Nat) : Hw :=
  match Engine.ofId id with
  | some e => (m.probEnds e 3).setEngine e { running := false, restarting := false, handover := false, fenced := true }
  | none =>
    if id ≤ 0x23 then (m.wrBit Reg.PH_STATUS_FENCED (id - 0x20) true).rePick
    else if 0x28 ≤ id ∧ id ≤ 0x2C then m.fenceSlice (id - 0x28)
    else if id = 0x30 then ({ m with xfer := { m.xfer with fenced := true } }).orderXfer 0 0
    else if id = 0x32 then m.linkOut 1
    else if id = 0x33 then m.heartbeatLost.wr Reg.TWN_STATUS_LINK 1
    else if id = 0x34 then m.endSession
    else if id = 0x37 then m.wr Reg.SB_STATUS_FENCED 1
    else if id = 0x38 then m.wr Reg.HP_STATUS_FENCED 1
    else if id = 0x39 then
      { m.wr Reg.DRN_STATUS_FENCED 1 with host := { m.host with drain := { m.host.drain with fenced := true } } }
    else if id = 0x3A then (if m.port = cblSINK then m.typeCOnly else m)
    else m

/-- A unit or a restartable engine is fenced (R340 to R342): permanently where its recovery counter has reached K. -/
def Hw.applyFence (m : Hw) (id : Nat) (exit : Bool) : Hw :=
  let n := m.recoveryOf id
  let perm := decide (m.rd Reg.FLT_CFG_K ≤ n)
  let auto := exit && !perm && !(0x28 ≤ id && id ≤ 0x2C)
  let old := m.flt.fences.find? fun (f : FenceSt) => f.id == id
  let auto := auto && (match old with | some f => f.auto | none => true)
  let m := m.fenceFlag id true
  let m := { m with flt := { m.flt with
      fences := (m.flt.fences.filter fun (f : FenceSt) => f.id != id) ++ [FenceSt.mk id 0 auto] } }
  let m := if perm then (m.permFlag id true).faultAt Kind.FENCE_PERMANENT id n else m
  let m := if old.isSome then m else m.fenceEffect id
  let m := (m.settleUnit id).lbFenced id
  match Engine.ofId id with
  | some e => if perm then m.refuseFenced e else m
  | none => m

/-- May this ID be fenced (R340)? -/
def fenceTarget (id : Nat) : Bool :=
  fenceable id || (match Engine.ofId id with | some e => restartable e | none => false)

/-! Reactions (R338, R339). -/

/-- The engine that reacts to a source is here. -/
def Hw.reacts (m : Hw) (src : Nat) : Bool :=
  let e := m.engine (reactor src)
  e.running && !e.restarting && !e.handover

/-- An entry whose reaction can be applied now: one that fences or restarts an engine waits for the engine's present
restart or handover (R344). -/
def Hw.applicable (m : Hw) (x : HistEntry) : Bool :=
  x.isOpen && x.due && m.reacts x.word.src &&
    (match Engine.ofId x.word.src with
     | some e => !(decide (2 ≤ x.react) && decide (x.react ≤ 3) && ((m.engine e).restarting || (m.engine e).handover))
     | none => true)

/-- Entries of a source and a kind are no longer due. -/
def Hw.reacted (m : Hw) (x : HistEntry) : Hw :=
  { m with flt := { m.flt with hist := m.flt.hist.map fun (y : HistEntry) =>
      if y.isOpen ∧ y.word.src = x.word.src ∧ y.word.kind = x.word.kind then { y with due := false } else y } }

/-- The reaction of an entry (R338). -/
def Hw.react (m : Hw) (x : HistEntry) : Hw :=
  let src := x.word.src
  let m := m.reacted x
  if x.react = reFENCE then
    let m := if fenceTarget src then m.applyFence src (decide (x.word.sev < 3)) else m
    ((m.closeEntry src x.word.kind).closePart src).settleDouble
  else if x.react = reRESTART then
    match Engine.ofId src with
    | some e => if restartable e then ((m.probEnds e 3).recover src).restartEngine e x.word.bits else m.closeEntry src x.word.kind
    | none => m.closeEntry src x.word.kind
  else if x.react = reRECORD then m.closeEntry src x.word.kind
  else m

/-- FAULT_REACTION (R338, R339): the oldest entry whose reaction can be applied. -/
def execFaultReaction (s : State) : Host.Outcome State Fault Refusal :=
  effect s fun m =>
    match m.flt.hist.find? m.applicable with
    | some x => m.react x
    | none => m

/-- An entry of DEGRADE closes: after Q quiet frames, or, where its degradation is tied to a condition, as that clears
(R257, R261, R339). -/
def Hw.degradeOver (m : Hw) (x : HistEntry) : Bool :=
  x.isOpen && x.react == reDEGRADE && !x.due &&
    (if x.word.kind = Kind.ADC_DEGRADED.code then !m.adcDegraded
     else if x.word.kind = Kind.REF_MON.code then !m.adc.refMon
     else decide (m.rd Reg.FLT_CFG_Q < x.quiet))

/-- DEGRADE_CLOSE (R339). -/
def execDegradeClose (s : State) : Host.Outcome State Fault Refusal :=
  effect s fun m =>
    let ended := m.flt.hist.filter m.degradeOver
    let m := m.closeEntries fun x => ended.contains x
    (ended.foldl (fun m x => m.closePart x.word.src) m).settleDouble

/-- Is a RESET of a side called for (R338, R339)? Its watchdog is then served no more. -/
def Hw.resetDue (m : Hw) (sd : Side) : Bool :=
  m.flt.hist.any fun (x : HistEntry) => x.isOpen && x.react == reRESET && (reactor x.word.src).side == sd

/-! Domains as an engine switches them (R19, R21, R23). -/

/-- The domains that the guard engine of a side switches (R21). -/
def switchable : Domain → Bool
  | .hCore => true
  | .fCore => true
  | .fAdc => true
  | .fMem => true
  | .fLink => true
  | _ => false

/-- Does a unit lie in a domain (R21)? -/
def inDomain (d : Domain) (t : Ticket) : Bool :=
  match d with
  | .fCore => t.unit == 0x37 || t.unit == 0x32 || (0x10 ≤ t.owner && t.owner ≤ 0x18 && t.unit == 0)
  | .fAdc => 0x28 ≤ t.unit && t.unit ≤ 0x2D
  | .fMem => t.unit == 0x35 || t.unit == 0x36
  | .fLink => t.unit == 0x33 || t.unit == 0x34
  | .fPwr => (0x20 ≤ t.unit && t.unit ≤ 0x27) || t.unit == 0x3F
  | _ => false

/-- The cores of a side stop, with no image to go back to (R21). -/
def Hw.coresOff (m : Hw) (sd : Side) : Hw :=
  { m with arch := { m.arch with engines := m.arch.engines.mapIdx fun (i : Nat) (x : EngineSt) =>
      if (i < 3) = (sd = .host) then { running := false, restarting := false, handover := false, fenced := x.fenced } else x } }

/-- What the backup domain loses with its power (R21, R461): the RTC and the backup latch. -/
def Hw.backupDark (m : Hw) : Hw :=
  { m with
    regs := m.regs.filter fun e => match fieldOfKey e.1 with | some f => f.surv != .bkp | none => true
    modes := { m.modes with downKnown := false, downTai := 0, downSub := 0, lastFrn := 0, failFrns := [], lockUntil := 0, lockTai := none } }

/-- The rails of F-PWR without their drivers: no rail is on, and a soft start or a retry under way is gone. -/
def Hw.railsDark (m : Hw) : Hw :=
  { m with rails := { m.rails with rail := m.rails.rail.map fun (r : Rail) =>
      { r with ss := false, stopped := false, uvlo := false, attempts := 0, retryAt := none, ssEnd := none, ref := 0, resume := none } } }

/-- What runs in a domain stops with its power (R21, R22). -/
def Hw.unitsDark (m : Hw) (d : Domain) : Hw :=
  match d with
  | .hAon => { (m.coresOff .host) with modes := { m.modes with haonOn := false }, cable := m.cable.hostLost }
  | .hCore => { (((m.coresOff .host).linkOut 0).alertSettle) with host := { m.host with hReady := false, alert := false } }
  | .hPwr => m.stageLatchesLost
  | .fBkp => m.backupDark
  | .fAon => m
  | .fCore => (((m.chargeReset).clear [Reg.CHG_STATUS_STATE]).coresOff .field).linkOut 0
  | .fAdc => { m with adc := { m.adc with refAt := none, seqRun := false, fgDone := false, fgApply := none, spareReady := false, due := [] } }
  | .fPwr => ((m.stopPhases).railsDark).batfet
  | .fMem => { m with jrn := { m.jrn with scanned := false } }
  | .fLink => m.endSession

/-- A domain's switch opens: its outputs are inactive, and what runs in it stops, with no fault word of its own. -/
def Hw.openDomain (m : Hw) (d : Domain) : Hw := (m.powerDomain d false).unitsDark d

/-- Waiting switch-off requests whose domains hold no ticket any more: the switches open (R23). -/
def Hw.domainsSettle (m : Hw) : Hw :=
  [Domain.fCore, .fAdc, .fMem, .fLink].foldl (fun m d =>
    if (m.domain d).offReq.isSome && !m.tkt.table.any (inDomain d) then m.openDomain d else m) m

/-- A domain's switch is to open: it stays on while the domain holds a ticket in flight (R23). -/
def Hw.switchOff (m : Hw) (d : Domain) : Hw :=
  if !switchable d || !(m.domain d).on then m
  else if m.tkt.table.any (inDomain d) then
    (if (m.domain d).offReq.isSome then m else m.setDomain d { m.domain d with offReq := some m.frn })
  else m.openDomain d

/-- DOMAIN_SWITCH_OFF (R23). -/
def execDomainSwitchOff (d : Domain) (s : State) : Host.Outcome State Fault Refusal := effect s fun m => m.switchOff d

/-- DOMAIN_OFF_TICKET_TIMEOUT (R23): after 4 frames the domain's tickets are settled as for a fenced unit, and the switch
opens. -/
def execDomainOffTicketTimeout (d : Domain) (s : State) : Host.Outcome State Fault Refusal :=
  effect s fun m =>
    match (m.domain d).offReq with
    | none => m
    | some f =>
      if (m.frn + 2 ^ 32 - f) % 2 ^ 32 < 4 then m
      else
        let mine := m.tkt.table.filter fun (t : Ticket) => inDomain d t && (t.state == .running || t.state == .issued)
        (mine.foldl (fun m t =>
          if t.dur then m.setTicket t.num fun t => { t with state := .issued } else m.failWork t.num 0x08) m).openDomain d

/-! Latch writes (R28 to R33). -/

/-- What follows a write of a latch at once: a new `VSYS_SET` ends the dead-battery start mode (R132), the hold paths follow
`FRZ_POL` (R179), and the BATFET follows its conditions (R125). -/
def Hw.latchEffect (m : Hw) (l : LatchId) : Hw :=
  let m := match l with
    | .vsysSet => m.leaveDbs
    | .frzPol => if m.quietDue then m.wr Reg.RAIL_STATUS_HOLD_ACT m.holdRails else m
    | _ => m
  m.batfet

/-- A write of a latch with what follows it: a rail slews to its set point from its reference (R30, R177). -/
def Hw.writeLatch (m : Hw) (l : LatchId) (f : Hw → Hw) : Hw :=
  match l with
  | .polSet n => (m.retarget n f).batfet
  | .qrSet n => (m.retarget (3 + n) f).batfet
  | .frzPol => (m.newPolicy f).latchEffect l
  | _ => (f m).latchEffect l

/-- LATCH_WRITE (R28 to R33): a write by the owner is clamped, with LATCH_CLAMP, and takes effect with its shadow; any other
engine's is ignored and recorded; a write whose engine is in reset is discarded; a latch under handover, of a fenced engine
(R340), or with a parity error refuses, but for the rewrite of F0 SUPERVISOR. A write of `XFER_CTL` runs the sequence of
R99. -/
def execLatchWrite (writer : Engine) (l : LatchId) (value : Nat) (writerInReset : Bool) (s : State) :
    Host.Outcome State Fault Refusal :=
  effect s fun m =>
    let rewrite := m.latchBad l && writer == .f0
    if writerInReset ∨ ¬ (m.engine writer).running ∨ (m.engine writer).restarting then m
    else if l.owner ≠ some writer ∧ ¬ rewrite then m.sideFault writer.side Kind.LATCH_OWNER writer.id l.index
    else if m.latchBad l ∧ ¬ rewrite then m
    else if rewrite then m.writeLatch l fun m => m.storeLatch l value
    else if m.ownerAway l then m
    else if l = .xferCtl then
      (if value ≤ 2 then m else m.sideFault .host Kind.LATCH_CLAMP Engine.h1.id l.index).instructDir (clampLatch l value).1
    else m.writeLatch l fun m => m.ownLatch l value

end Sys2Proof.Machine
end

