-- ==== Sys2Proof/Machine/Resets.lean ====
section
/-! DEFINITION. W and P resets of either side, engine restarts, domains whose power-good returns, FIFO parity (R20, R22,
R26, R60, R195, R268, R327, R396, R407, R434, R458, R459). -/

namespace Sys2Proof.Machine

/-! The field side. -/

/-- A side is held in reset by its pad or its test pad (R458, R540). -/
def Hw.held (m : Hw) : Side → Bool
  | .field => m.seq.pinHeld || bitAt m.lb.testHigh 1
  | .host => m.host.pinLow || bitAt m.lb.testHigh 0

/-- The engines of a side in reset: their fences stay (R461). -/
def Hw.stopEngines (m : Hw) (sd : Side) : Hw :=
  { m with arch := { m.arch with engines := m.arch.engines.mapIdx fun (i : Nat) (x : EngineSt) =>
      if (i < 3) = (sd = .host) then
        { running := false, restarting := !x.fenced, handover := false, fenced := x.fenced } else x } }

/-- The field end of the Tabien link (R407): LINK_EPOCH steps, unacknowledged messages go with their tickets, RX_NEXT is kept, and a command
for which no ticket has issued stays as if it had not been taken. -/
def Hw.dropFieldLink (m : Hw) : Hw :=
  { m.wr Reg.TL_F_STATUS_EPOCH (m.host.f.epoch + 1) with
    flt := { m.flt with hostAt := [] }
    host := { m.host with f := { m.host.f with
      waiting := [], queue := [], resends := 0, unacked := 0, epoch := m.host.f.epoch + 1
      inbox := m.host.f.inbox.filter fun (x : Msg) => x.type == 0x10 } } }

/-- A host command after a W or P of the field side (R327): a durable one that has not committed runs again, a result of
an action is kept, and every other one is VOID. -/
def Hw.afterReset (m : Hw) (c : HostCmd) : HostCmd :=
  if c.hostSide || c.stage == 4 then c
  else if c.durable then
    if c.stage = 3 then { c with sent := false }
    else if c.jsn.isSome && m.twin.reserved.any fun (x : Append) => x.tkt == some c.tkt then c
    else { c with stage := 0, jsn := none, inner := none }
  else if c.stage = 3 ∧ c.acts then { c with sent := false }
  else { c with stage := 3, status := stVOID, data := (m.voidAnswer).data, sent := false }

/-- The tickets of the field side (R327, R328): accepted appends go on in hardware, what is not durable is VOID, durable
tickets that have not committed wait in ISSUED. -/
def Hw.resetTickets (m : Hw) : Hw :=
  let r := m.voidTickets fun t => !t.dur && !t.acc
  let m := (r.1.retireConvs).settleBus
  let m := { m with
    sub := (m.sub.filter fun (x : Append) => keptRecord x.r).map fun (x : Append) => { x with tkt := none }
    jrn := { m.jrn with staged := m.jrn.staged.map fun (x : Staged) => if x.durable then x else { x with tkt := none } }
    host := { m.host with work := m.host.work.map m.afterReset }
    tkt := { m.tkt with
      waits := [], fullRun := none, stopped := false
      table := (m.tkt.table.filter fun (t : Ticket) => t.dur || (8 ≤ t.stream && t.stream ≤ 15)).map fun (t : Ticket) =>
        if t.dur ∧ ¬ t.acc ∧ t.state ≠ .done then { t with state := .issued } else t } }
  let m := (List.range 8).foldl Hw.flushAnswers m
  let m := ((m.resendAdc.dropInjected).settleWork).showTickets
  if r.2 = 0 then m else m.faultAt Kind.TICKET_VOIDED 0x10 r.2

/-- What the twin function loses (R351, R353, R356): LEAD has resigned, the link is down, and CLAIMING begins where the
pair is configured. -/
def Hw.resetTwin (m : Hw) : Hw :=
  let dur := fun (n : Nat) => match m.ticket n with | some t => t.dur | none => false
  { (m.clear [Reg.TWN_STATUS_LINK, Reg.TWN_STATUS_CFG_MATCH, Reg.TWN_STATUS_RESYNC]) with twin := { m.twin with
      low := false, standby := false, resigned := false, claimAt := none, waitDet := false, out := [], hbLost := false
      rxSeq := none, rxAhead := [], forwarded := [], resyncAt := none, resyncNext := none, resignWait := false
      reserved := m.twin.reserved.map fun (x : Append) =>
        { x with tkt := match x.tkt with | some n => if dur n then some n else none | none => none } } }

/-- The rail link and its commands (R195): a scheduled aperture that has not started is cancelled with the session (R188). -/
def Hw.resetRailLink (m : Hw) : Hw :=
  let m := m.endSession
  let m := { m with seq := { m.seq with sched := none } }
  let m := if m.seq.preFreeze = some 256 ∧ ¬ m.frozen then m.liftQuiet else m
  { m with rl := { m.rl with waiting := [], planTags := [], aptA := none, aptTag := none } }

/-- An update of an engine of one side ends (R518, R526): a session closes, a handover leaves its new slot VERIFIED, a
probation fails with a cause. -/
def Hw.resetUpdate (m : Hw) (sd : Side) (cause : Nat) : Hw :=
  let mine := fun (i : Nat) => (engineAt i).side == sd
  let m := match m.upd.prob with
    | some h => if mine h.engine then m.rollback h cause else m
    | none => m
  let hand := match m.upd.hand with | some h => if mine h.engine then none else some h | none => none
  let session := match m.upd.session with | some x => if mine x.engine then none else some x | none => none
  ({ m with upd := { m.upd with hand := hand, session := session } }).showUpd

/-- The watchdog of a side disarmed (R477, R478); `start`: its start timer runs. -/
def Hw.disarm (m : Hw) (sd : Side) (start : Bool) : Hw :=
  match sd with
  | .field =>
    { (m.clear [Reg.WDG_STATUS_ARMED, Reg.WDG_STATUS_WINDOW, Reg.WDG_STATUS_SERVED, Reg.WDG_STATUS_FRAME,
        Reg.WDG_CHECKIN_SEEN, Reg.WDG_CHECKIN_EXCUSED]) with wdg := m.wdg.disarm start }
  | .host => { (m.clear [Reg.HWDG_STATUS_ARMED, Reg.HWDG_STATUS_SEEN]) with hwdg := m.hwdg.disarm start }

/-- Entries of RESET of a side close at its restart (R338, R339). -/
def Hw.closeResets (m : Hw) (sd : Side) : Hw :=
  m.closeEntries fun e => e.react == reRESET && (reactor e.word.src).side == sd

/-- SERVICE ends with a W or P of the field side (R465): the record is written now, the mode follows at the next
evaluation, and an open challenge is lost (R472). -/
def Hw.resetService (m : Hw) (level : Nat) : Hw :=
  let open_ := m.mode = modeSERVICE
  let m' := { m with modes := { m.modes with
      challenge := none, svcNext := 0, svcEnd := if open_ then some 10 else none, svcIdle := 0, kaStep := 0, kaFrames := 0
      shipAsk := false, wakeReq := false } }
  if open_ then m'.serviceRec 1 level 10 m.modes.svcKey else m'

/-- The letter of a reset as START_INFO.KIND and as JR_RESET carry it (R274, R471). -/
def letterKind : Letter → Nat × Nat
  | .w => (1, 0x57)
  | .p => (2, 0x50)
  | _ => (0, 0x45)

/-- ENG_TEST makes this reset test the SRAM of F1 to F8 before those engines are loaded (R494). -/
def Hw.engTestDue (m : Hw) : Hw :=
  if m.modes.resetEngTest then
    { m with bist := { m.bist with due := (List.range 8).foldl (fun l i => putNat (5 + i) l) m.bist.due } }
  else m

/-- A W or P reset of the field side (R458, R459): engines, link PHYs and the sensor bus are in reset; latches and what
retention RAM and F-AON hold continue. -/
def Hw.fieldReset (m : Hw) (l : Letter) (source cause : Nat) : Hw :=
  let level := m.rd Reg.MODE_STATUS_SVC_LEVEL
  let run := m.rd Reg.LB_STATUS_STATE
  let m := (m.nextEpoch).dropFieldLink
  let m := ({ m with sub := m.sub.filter fun (x : Append) => keptRecord x.r } : Hw)
  let m := (m.resetTickets).resign true false
  let m := if run = 1 ∨ run = 2 then ({ m with lb := { m.lb with due := false } }).lbReturn .field else m
  let m := ((m.linkOut 0).resetTwin).resetRailLink
  let m := (m.endDrainHost 4).setReq none
  let m := ((m.fiDisarm).engTestDue).chargeReset
  let m := (((m.stopEngines .field).resetRegs .field l).followTwin).disarm .field true
  let m := { m with
    bus := { m.bus with clearDue := true, clearTries := 0 }
    arch := { m.arch with sb := { m.arch.sb with fieldReset := true, falertSeen := false } }
    modes := { m.modes with startKind := (letterKind l).1 } }
  let m := (m.clear [Reg.START_INFO_LAST_MS, Reg.START_INFO_KIND, Reg.SB_STATUS_BUSY, Reg.SB_STATUS_WAIT_THAW,
    Reg.SB_STATUS_CLEARING, Reg.PACK_SBS_ICHG_REQ, Reg.PACK_SBS_STATUS, Reg.PACK_SBS_V_VCHG_REQ, Reg.PACK_SBS_V_VOLT]).closeResets .field
  ((m.resetService level).resetUpdate .field 4).resetRecord (letterKind l).2 .field source cause

/-- The source that JR_RESET names for a W: the unit of the fault word, or F0 SUPERVISOR for a reset on command. -/
def resetSource (sd : Side) (cause : Nat) : Nat :=
  if cause = 0 then (match sd with | .field => 0x10 | .host => 0x02) else bitsOf cause 24 8

/-- FIELD_W_RESET (R458): `cause` is the fault word of the cause, 0 for a reset on command. -/
def execFieldWReset (cause : Nat) (s : State) : Host.Outcome State Fault Refusal :=
  effect s fun m => if m.modes.faonOn then m.fieldReset .w (resetSource .field cause) cause else m

/-- The field side begins to be held (R60, R458): freeze ends, both frame pads are low, every slot is thaw, and the
watchdog is disarmed with no window judged (R498). A pad that is high then stays ignored after the release until it has
been low for 10 µs (R60 does not say; DESIGN CHOICE, notes/assumptions/88.md). -/
def Hw.holdField (m : Hw) : Hw :=
  let m := (m.fieldReset .p 0x3C 0).disarm .field false
  ({ m with seq := { m.seq with outputsLow := true, aptIgnored := m.seq.aptPad, sched := none } } : Hw).liftQuiet

/-- FIELD_PIN_RESET (R60, R458): F85 falls and is held, or has been high for 100 µs; the start timer then runs again
(R477). After a halted start it repeats the cold start (R491). -/
def Hw.fieldPin (m : Hw) (low : Bool) : Hw :=
  if !m.modes.faonOn then { m with seq := { m.seq with pinHeld := low } }
  else if low then
    if m.held .field then { m with seq := { m.seq with pinHeld := true } }
    else
      let m := ({ m with seq := { m.seq with pinHeld := true } } : Hw).holdField
      if m.modes.halted then
        { (m.wr Reg.BIST_STATUS_HALTED 0) with
          modes := { m.modes with halted := false, starting := true }, bist := { m.bist with due := List.range 26 } }
      else m
  else
    let m := { m with seq := { m.seq with pinHeld := false } }
    if m.held .field then m else m.disarm .field true

/-- FIELD_PIN_RESET (R60). -/
def execFieldPinReset (low : Bool) (s : State) : Host.Outcome State Fault Refusal := effect s fun m => m.fieldPin low

/-! The host side. -/

/-- What the drain port loses with the host side or with H_VIO (R434, R557). -/
def Hw.drainLost (m : Hw) : Hw :=
  let m := m.setReq none
  let m := m.emptyDrain
  { m with host := { m.host with drain := { m.host.drain with openReq := none, out := [] } } }

/-- A W or P reset of the host side (R396, R434, R458, R459): mailbox, results, snapshot and drain request are lost,
H_READY is low, and the host's LINK_EPOCH steps (R407); the intake and the transfer stage continue. TSB_HALERT rises, and the field side acts on its level (R17);
codes that wait go on, from H-AON. -/
def Hw.hostReset (m : Hw) (l : Letter) (source cause : Nat) : Hw :=
  let m := ((m.linkOut 0).drainLost).wr Reg.TL_H_STATUS_EPOCH (m.host.h.epoch + 1)
  let m := m.lbFail .host 0
  let m := (((m.stopEngines .host).resetRegs .host l).clear [Reg.HP_STATUS_DOZE, Reg.ID_STATUS_HOST_READY]).disarm .host true
  let m := { m with
    host := { m.host with
      h := { m.host.h with
        waiting := [], queue := [], inbox := [], resends := 0, unacked := 0, rxLost := true, epoch := m.host.h.epoch + 1 }
      mbx := { places := [], results := [] }
      snap := { image := [], frn := 0, chunks := [], us := 0, stale := false }
      work := m.host.work.filter fun (c : HostCmd) => !c.hostSide
      alert := false, hReady := false, busy := false, fieldAsleep := false }
    hp := { pointer := 0, readBytes := [], wakeWait := false }
    upd := { m.upd with chunk := [] }
    arch := { m.arch with
      sb := { m.arch.sb with hostReset := true, halertSeen := false }
      hostResetAs := ((letterKind l).2, source, cause) } }
  (m.showMailbox).resetUpdate .host 4

/-- TSB_HALERT_STATE_LEVEL (R17, R28, R326): the field side receives the level that the host side drives; at its rise
`CHG_EN` is cleared, the reset epoch steps, the entries of RESET of the host side close (R339) and F0 SUPERVISOR submits the
JR_RESET. -/
def execTsbHalertStateLevel (high : Bool) (s : State) : Host.Outcome State Fault Refusal :=
  effect s fun m =>
    if high ≠ m.arch.sb.hostReset ∨ high = m.arch.sb.halertSeen ∨ ¬ m.modes.faonOn then m
    else
      let m := { m with arch := { m.arch with sb := { m.arch.sb with halertSeen := high } } }
      if high then
        let r := m.arch.hostResetAs
        (((m.clearChgEn).nextEpoch).closeResets .host).resetRecord r.1 .host r.2.1 r.2.2
      else m

/-- HOST_W_RESET (R458). -/
def execHostWReset (cause : Nat) (s : State) : Host.Outcome State Fault Refusal :=
  effect s fun m => if m.modes.haonOn then m.hostReset .w (resetSource .host cause) cause else m

/-- HOST_PIN_RESET (R458): H36 falls and is held, or has been high for 100 µs. -/
def Hw.hostPin (m : Hw) (low : Bool) : Hw :=
  if !m.modes.haonOn then { m with host := { m.host with pinLow := low } }
  else if low then
    let m' := { m with host := { m.host with pinLow := true } }
    if m.held .host then m' else (m'.hostReset .p 0x31 0).disarm .host false
  else
    let m := { m with host := { m.host with pinLow := false } }
    if m.held .host then m else m.disarm .host true

/-- HOST_PIN_RESET (R458). -/
def execHostPinReset (low : Bool) (s : State) : Host.Outcome State Fault Refusal := effect s fun m => m.hostPin low

/-- TEST_PAD_HIGH (R540): a test pad that is open or high holds its side in reset, until it is returned low. -/
def execTestPadHigh (pads : Fin 4) (s : State) : Host.Outcome State Fault Refusal :=
  effect s fun m =>
    let wasF := m.held .field
    let wasH := m.held .host
    let m := { m with lb := { m.lb with testHigh := pads } }
    let m := if m.held .field && !wasF && m.modes.faonOn then m.holdField
      else if wasF && !m.held .field then m.disarm .field true else m
    if m.held .host && !wasH && m.modes.haonOn then (m.hostReset .p 0x31 0).disarm .host false
    else if wasH && !m.held .host then m.disarm .host true else m

/-! Engines (R20). -/

/-- ENGINE_RESTART (R20, R327): one engine alone; a fenced or stopped engine has none. -/
def execEngineRestart (e : Engine) (s : State) : Host.Outcome State Fault Refusal :=
  effect s fun m =>
    if !(m.engine e).running || (m.engine e).fenced then m
    else
      (m.probEnds e 3).restartEngine e 0

/-- What an engine does as its restart ends (R195, R201, R238, R275, R328, R396, R434). -/
def Hw.engineBack (m : Hw) (e : Engine) : Hw :=
  match e with
  | .h0 => if m.port = cblSINK ∨ m.port = cblSOURCE then (m.softReset false).askAgain else m
  | .h1 => m.limitWrite
  | .h2 => ({ m with host := { m.host with busy := false } }).flushHostFaults
  | .f0 =>
    let m := if m.modes.swapDue then ({ m with modes := { m.modes with swapDue := false } } : Hw).swapSource else m
    m.resubmitFaults
  | .f4 => m.f4Back
  | .f5 => m.deliver
  | .f6 =>
    let m := (((m.resubmitFaults).submitSeconds).submitGaps).submitSync
    m.appendMany m.sub.length
  | _ => m

/-- A restart ends with the engine's first check-in (R482): entries of the restart close (R339). -/
def Hw.restartDone (m : Hw) (e : Engine) : Hw :=
  let m := m.setEngine e { m.engine e with restarting := false }
  let m := (m.closeEntries fun x => x.word.src == e.id && x.react == reRESTART && !x.due).closePart e.id
  (m.engineBack e).settleDouble

/-! FIFOs and the retention RAM (R25, R26, R41). -/

/-- A synchronising FIFO (R25): its depth in entries and their width in bits, the side of the domain that reads it, and the
unit that owns the crossing (R26, R333). -/
structure Fifo where
  depth : Nat
  width : Nat
  reader : Side
  owner : Nat
deriving DecidableEq, Repr

/-- The FIFOs in the order of R25: XF_TL_HTX, HRX, FTX, FRX, XF_ADC_CMD, RES, XF_NAND_W, R, XF_RAIL_IN, OUT, XF_TWIN_TX, RX,
XF_DRN_TX, RX and XF_RTC. What a FIFO holds crosses within one command (DEDUCED, notes/assumptions/36.md), so none stands
full between commands and no writer waits; the entries that State holds are those of the queues and buffers behind them. -/
def fifoTable : List Fifo :=
  [{ depth := 128, width := 32, reader := .host, owner := 0x32 }, { depth := 128, width := 32, reader := .host, owner := 0x32 },
   { depth := 128, width := 32, reader := .field, owner := 0x32 }, { depth := 128, width := 32, reader := .field, owner := 0x32 },
   { depth := 16, width := 32, reader := .field, owner := 0x15 }, { depth := 64, width := 64, reader := .field, owner := 0x15 },
   { depth := 512, width := 64, reader := .field, owner := 0x35 }, { depth := 512, width := 64, reader := .field, owner := 0x35 },
   { depth := 8, width := 32, reader := .field, owner := 0x34 }, { depth := 8, width := 32, reader := .field, owner := 0x34 },
   { depth := 128, width := 32, reader := .field, owner := 0x33 }, { depth := 128, width := 32, reader := .field, owner := 0x33 },
   { depth := 1024, width := 32, reader := .host, owner := 0x39 }, { depth := 256, width := 32, reader := .host, owner := 0x39 },
   { depth := 4, width := 64, reader := .field, owner := 0x3B }]

/-- The FIFO of an index. -/
def fifo (i : Fin 15) : Fifo := fifoTable.getD i { depth := 0, width := 0, reader := .field, owner := 0 }

/-- A region of the retention RAM (R41): offset and size in bytes, and how many entries of how many bytes it is bounded to. -/
structure Region where
  offset : Nat
  size : Nat
  entries : Nat
  each : Nat
deriving DecidableEq, Repr

/-- The retention RAM (R41): the record region, the durable ticket copies, the result caches, the fault history, the summary
accumulators, held items, numbers and counters, the engine state blocks, and what is reserved. -/
def retentionMap : List Region :=
  [{ offset := 0x0000, size := 0x8000, entries := 1, each := 0x8000 }, { offset := 0x8000, size := 0x800, entries := 128, each := 16 },
   { offset := 0x8800, size := 0x1800, entries := 128, each := 48 }, { offset := 0xA000, size := 0x400, entries := 64, each := 16 },
   { offset := 0xA400, size := 0x200, entries := 8, each := 64 }, { offset := 0xA600, size := 0x200, entries := 1, each := 0x200 },
   { offset := 0xA800, size := 0x400, entries := 1, each := 0x400 }, { offset := 0xAC00, size := 0x2400, entries := 9, each := 1024 },
   { offset := 0xD000, size := 0x3000, entries := 1, each := 0x3000 }]

/-- An entry that the reader discards (R26): 4 bytes of a drain response that are on their way in XF_DRN_TX. -/
def Hw.dropEntry (m : Hw) (i : Fin 15) : Hw :=
  if i.val = 12 then
    { m with host := { m.host with drain := { m.host.drain with buffer := m.host.drain.buffer.drop ((fifo i).width / 8) } } }
  else m

/-- FIFO_PARITY (R26): the reader discards the entry, the owner of the crossing records the fault, and the entry's ticket
fails. -/
def execFifoParity (fifo_ : Fin 15) (tkt : Option (Fin 512)) (s : State) : Host.Outcome State Fault Refusal :=
  effect s fun m =>
    let x := fifo fifo_
    let m := (m.dropEntry fifo_).sideFault x.reader Kind.FIFO_PARITY x.owner fifo_
    match tkt with
    | some n => m.failWork n 0x0A
    | none => m

end Sys2Proof.Machine
end

