-- ==== Sys2Proof/Machine/Watchdog.lean ====
section
/-! DEFINITION. Watchdogs, check-ins, the memory self-test and fuse repair (R473 to R498). -/

namespace Sys2Proof.Machine

/-- The watchdog of a side. -/
def Hw.wd (m : Hw) : Side → Wdg
  | .field => m.wdg
  | .host => m.hwdg

/-- The watchdog of a side replaced. -/
def Hw.setWd (m : Hw) (sd : Side) (x : Wdg) : Hw :=
  match sd with
  | .field => { m with wdg := x }
  | .host => { m with hwdg := x }

/-- A watchdog is armed (R477, R478), and the host's is not paused by a doze. -/
def Hw.wdArmed (m : Hw) : Side → Bool
  | .field => m.on Reg.WDG_STATUS_ARMED
  | .host => m.on Reg.HWDG_STATUS_ARMED && !m.hwdg.paused

/-- P, the frames of the period under way (R474). -/
def Hw.wdP (m : Hw) (sd : Side) : Nat := (m.wd sd).period + 1

/-- The frame of the field watchdog's period (R474). -/
def Hw.wdFrame (m : Hw) : Nat := (m.frn + 2 ^ 32 - m.wdg.armedFrn) % 2 ^ 32 % m.wdP .field

/-- The frame in the period of a write. Host frames bear no relation to ticks (R478): outside the window the host's is a
free value of the period. -/
def Hw.frameAt (m : Hw) (sd : Side) : Nat :=
  match sd with
  | .field => m.wdFrame
  | .host => if m.hwdg.window then m.wdP .host - 1 else m.freeBelow (m.wdP .host)

/-- The free value of an early host write has been drawn. -/
def Hw.drewFrame (m : Hw) (sd : Side) : Hw :=
  match sd with
  | .field => m
  | .host => if m.hwdg.window then m else m.drew

/-- The registers of the field watchdog follow it (R496). -/
def Hw.showWdg (m : Hw) : Hw :=
  ((m.wrB Reg.WDG_STATUS_WINDOW m.wdg.window).wrB Reg.WDG_STATUS_SERVED m.wdg.served).wr Reg.WDG_STATUS_FRAME
    (if m.on Reg.WDG_STATUS_ARMED then m.wdFrame else 0)

/-- An expiry or an out-of-window write (R475): WDT_EXPIRED, EXPIRED_EVT, LAST_CAUSE, and the W reset of that side. -/
def Hw.expire (m : Hw) (sd : Side) (cause : Nat) : Hw :=
  let detail := cause + 16 * m.frameAt sd
  let m := m.drewFrame sd
  match sd with
  | .field =>
    let m := (m.wr Reg.WDG_STATUS_EXPIRED_EVT 1).wr Reg.WDG_STATUS_LAST_CAUSE cause
    (m.faultAt Kind.WDT_EXPIRED 0x3D detail).fieldReset .w 0x3D (wordOf Kind.WDT_EXPIRED 0x3D detail)
  | .host =>
    let m := (m.wr Reg.HWDG_STATUS_EXPIRED_EVT 1).wr Reg.HWDG_STATUS_LAST_CAUSE cause
    (m.hfaultAt Kind.WDT_EXPIRED 0x3E detail).hostReset .w 0x3E (wordOf Kind.WDT_EXPIRED 0x3E detail)

/-- The guard engine of a side can write: it runs, or the ROM serves in its place (R477). -/
def Hw.guardRuns (m : Hw) (sd : Side) : Bool :=
  let e := m.engine (guardOf sd)
  (e.running && !e.restarting && !e.handover) || (sd == .field && m.mode == modePERMAFROST)

/-- A service write of the guard engine (R475, R481). After the closing tick of a window without valid service the write
is discarded; a service that the reaction RESET withholds is refused (R338). -/
def Hw.serviceWrite (m : Hw) (sd : Side) (key : Nat) : Hw :=
  let x := m.wd sd
  if !m.wdArmed sd || !m.guardRuns sd then m
  else if key ≠ 0xC7A3 then
    match sd with
    | .field => m.bump Reg.WDG_EVENTS_BAD_KEY
    | .host => m.bump Reg.HWDG_EVENTS_BAD_KEY
  else if !x.window then m.expire sd 1
  else if x.late then m
  else if x.refused || m.resetDue sd then m.setWd sd { x with tried := true }
  else if x.served then m.expire sd 2
  else
    let m := m.setWd sd { x with served := true }
    match sd with
    | .field => (m.wr Reg.WDG_STATUS_LAST_SLOT (slotOf m.seq.len m.seq.t)).showWdg
    | .host => m

/-- WDG_SERVICE_WRITE (R475). -/
def execWdgServiceWrite (side : Side) (key : Fin 65536) (s : State) : Host.Outcome State Fault Refusal :=
  effect s fun m => m.serviceWrite side key

/-- WDG_FOREIGN_WRITE (R476): ignored, with PRIVILEGE. The service port does not lie in the pointer space, so the
address that the word's detail carries is a free value. -/
def execWdgForeignWrite (writer : Engine) (s : State) : Host.Outcome State Fault Refusal :=
  effect s fun m =>
    if writer = guardOf writer.side then m
    else
      let a := m.freeBelow (2 ^ 14)
      let m := (m.drew).sideFault writer.side Kind.PRIVILEGE writer.id a
      match writer.side with
      | .field => m.bump Reg.WDG_EVENTS_FOREIGN
      | .host => m.bump Reg.HWDG_EVENTS_FOREIGN

/-! Windows and check-ins (R479 to R482). -/

/-- The engines of a side in the order of their check-in bits. -/
def enginesOf : Side → List Engine
  | .host => [.h0, .h1, .h2]
  | .field => [.f0, .f1, .f2, .f3, .f4, .f5, .f6, .f7, .f8]

/-- The check-in bit of an engine (R479). -/
def checkBit (e : Engine) : Nat := e.id % 16

/-- An engine is excused for the interval that closes (R482). -/
def Hw.excused (m : Hw) (e : Engine) : Bool :=
  let x := m.engine e
  x.fenced || x.restarting || x.handover || !x.running || bitAt (m.wd e.side).excuse (checkBit e)

/-- One engine is judged at a window opening (R481): its run of missed intervals, CHECKIN_MISSING, and the refusal of
service where it is the guard engine. -/
def Hw.judge (m : Hw) (seen : Nat) (e : Engine) : Hw :=
  let sd := e.side
  let x := m.wd sd
  if m.excused e || bitAt seen (checkBit e) then m.setWd sd { x with missed := x.missed.set (checkBit e) 0 }
  else
    let n := x.missed.getD (checkBit e) 0 + 1
    let critical := e == guardOf sd
    let m := m.setWd sd { x with missed := x.missed.set (checkBit e) n, refused := x.refused || critical }
    let w : FaultWord :=
      { src := e.id, kind := Kind.CHECKIN_MISSING.code, sev := if critical then 3 else 2, detail := satN 14 n }
    match sd with
    | .field => (m.faultW w).bump Reg.WDG_EVENTS_MISSING
    | .host => (m.hfaultW w).bump Reg.HWDG_EVENTS_MISSING

/-- The cycle at which a slot begins (R43, R474), where it has not passed. -/
def Hw.toSlot (m : Hw) (n : Nat) : Hw := m.atT (max m.seq.t (n * m.seq.len / 256))

/-- A window opens (R474, R479, R481): at the first cycle of its slot; the live bits are latched and cleared, and every engine of the side is judged. -/
def Hw.openWindow (m : Hw) (sd : Side) : Hw :=
  let x := m.wd sd
  if !m.wdArmed sd || x.window || (sd == .field && m.wdFrame + 1 != m.wdP .field) then m
  else
    let m := match sd with | .field => m.toSlot m.wdg.openSlot | .host => m
    let seen := x.live
    let mask := (enginesOf sd).foldl (fun v e => if m.excused e then v + 2 ^ checkBit e else v) 0
    let m := m.setWd sd { x with live := 0, window := true, served := false, refused := false, tried := false, late := false }
    let m := match sd with
      | .field => (m.wr Reg.WDG_CHECKIN_SEEN seen).wr Reg.WDG_CHECKIN_EXCUSED mask
      | .host => m.wr Reg.HWDG_STATUS_SEEN seen
    let m := (enginesOf sd).foldl (fun m e => m.judge seen e) m
    let x := m.wd sd
    let m := m.setWd sd { x with excuse := 0 }
    match sd with
    | .field => m.showWdg
    | .host => m

/-- WDG_WINDOW_OPEN (R481). -/
def execWdgWindowOpen (side : Side) (s : State) : Host.Outcome State Fault Refusal := effect s fun m => m.openWindow side

/-- The next period begins (R474): a write of the watchdog's configuration takes effect. -/
def Hw.nextPeriod (m : Hw) (sd : Side) : Hw :=
  let x := m.wd sd
  let m := match sd with
    | .field => m.setWd sd { x with period := m.rd Reg.WDG_CFG_PERIOD, openSlot := m.rd Reg.WDG_CFG_OPEN_SLOT, armedFrn := m.frn }
    | .host => m.setWd sd { x with period := m.rd Reg.HWDG_CFG_PERIOD, openSlot := m.rd Reg.HWDG_CFG_OPEN_SLOT }
  let x := m.wd sd
  let x := if sd = .field ∧ m.mode = modePERMAFROST then { x with period := 15, openSlot := 0 } else x
  let m := m.setWd sd { x with
    window := false, served := false, refused := false, tried := false, suspended := false, late := false, frames := 0 }
  match sd with
  | .field => m.showWdg
  | .host => m

/-- A window has its service, or its expiry is suspended for the period (R475, R482); in permafrost the ROM serves it
(R477). -/
def Hw.wdKept (m : Hw) (sd : Side) : Bool :=
  (m.wd sd).served || (m.wd sd).suspended || (sd == .field && m.mode == modePERMAFROST)

/-- WDG_WINDOW_CLOSE (R475): without valid service the watchdog expires, with cause 3 where a write was refused. -/
def Hw.closeWindow (m : Hw) (sd : Side) : Hw :=
  if !m.wdArmed sd || !(m.wd sd).window then m
  else if m.wdKept sd then m.nextPeriod sd
  else m.expire sd (if (m.wd sd).tried then 3 else 0)

/-- WDG_WINDOW_CLOSE (R475). -/
def execWdgWindowClose (side : Side) (s : State) : Host.Outcome State Fault Refusal := effect s fun m => m.closeWindow side

/-- WDG_START_TIMEOUT (R477): not armed when the start timer ends. -/
def execWdgStartTimeout (side : Side) (s : State) : Host.Outcome State Fault Refusal :=
  effect s fun m =>
    if !(m.wd side).starting || m.wdArmed side || m.held side then m
    else match side with
      | .field =>
        if m.modes.halted || !m.modes.faonOn then m
        else (m.faultAt Kind.WDT_START_TMO 0x3D 0).fieldReset .w 0x3D (wordOf Kind.WDT_START_TMO 0x3D 0)
      | .host =>
        if m.upd.hostFrost || !m.modes.haonOn then m
        else (m.hfaultAt Kind.WDT_START_TMO 0x3E 0).hostReset .w 0x3E (wordOf Kind.WDT_START_TMO 0x3E 0)

/-- The field watchdog armed at a tick (R477): its first period begins. -/
def Hw.armField (m : Hw) : Hw :=
  let frost := m.mode = modePERMAFROST
  let p := if frost then 15 else m.rd Reg.WDG_CFG_PERIOD
  let o := if frost then 0 else m.rd Reg.WDG_CFG_OPEN_SLOT
  let m := { m with wdg := m.wdg.arm m.frn p o }
  (m.wr Reg.WDG_STATUS_ARMED 1).showWdg

/-- WDG_ARM at a tick, and the period's course (R474, R475, R477): a window without valid service waits for its
judgement. -/
def Hw.wdgTick (m : Hw) : Hw :=
  if m.held .field || m.modes.halted || m.mode = modeKEEPALIVE || m.mode = modeSHIP then m
  else if !m.on Reg.WDG_STATUS_ARMED then
    (if (m.seq.cfgApplied || m.mode == modePERMAFROST) && m.guardRuns .field then m.armField else m)
  else if m.wdg.window then
    (if m.wdKept .field then m.nextPeriod .field else { m with wdg := { m.wdg with late := true } })
  else if m.wdFrame = 0 then m.nextPeriod .field
  else m.showWdg

/-- A check-in of an engine that runs (R479, R480). -/
def Hw.checkin (m : Hw) (e : Engine) : Hw :=
  let x := m.wd e.side
  if bitAt x.live (checkBit e) then
    let frame := m.frameAt e.side
    let m := (m.drewFrame e.side).sideFault e.side Kind.CHECKIN_DOUBLE e.id frame
    match e.side with
    | .field => m.bump Reg.WDG_EVENTS_DOUBLES
    | .host => m.bump Reg.HWDG_EVENTS_DOUBLES
  else m.setWd e.side { x with live := putBit x.live (checkBit e) true }

/-- A host engine that is still to be started first runs (R420, R478): its check-in tells of it. -/
def Hw.hostFirst (m : Hw) (e : Engine) : Hw :=
  let m := match e with
    | .h2 => (({ m.wr Reg.HUPD_STATUS_PERMAFROST 0 with
        upd := { m.upd with hostFrost := false }, bist := { m.bist with hdue := [] } } : Hw).h2Up).flushHostFaults
    | .h0 => (m.runEngine e).engineBack e
    | _ => m.runEngine e
  { m with arch := { m.arch with sb := { m.arch.sb with hostReset := if e = .h2 then false else m.arch.sb.hostReset } } }

/-- CHECKIN_WRITE (R479, R482): the hardware takes the ID of the engine that writes; the first check-in after a restart
ends it. -/
def execCheckinWrite (e : Engine) (s : State) : Host.Outcome State Fault Refusal :=
  effect s fun m =>
    let x := m.engine e
    if e.side = .host ∧ m.on Reg.HP_STATUS_DOZE then m
    else if x.running then
      (if x.handover then m else if x.restarting then (m.restartDone e).checkin e else m.checkin e)
    else if e.side = .host ∧ x.restarting ∧ ¬ x.fenced ∧ ¬ m.held .host ∧ (m.domain .hCore).pg ∧ m.modes.haonOn then
      (m.hostFirst e).checkin e
    else m

/-! Memory self-test (R483 to R491). -/

/-- Numbers without repeats, in order of first appearance. -/
def nub : List Nat → List Nat → List Nat
  | [], acc => acc
  | x :: xs, acc => if acc.contains x then nub xs acc else nub xs (acc ++ [x])

/-- What the allocation of spares gives: rows and columns replaced, and whether every failing bit is covered. -/
structure Allot where
  rows : List Nat
  cols : List Nat
  covered : Bool
deriving DecidableEq, Repr

/-- The failing bits left one by one (R488): each takes a spare row while one remains, and a spare column after that. -/
def allotBits (nr nc : Nat) : List (Nat × Nat) → Allot → Allot
  | [], a => a
  | (r, c) :: rest, a =>
    if a.rows.contains r || a.cols.contains c then allotBits nr nc rest a
    else if a.rows.length < nr then allotBits nr nc rest { a with rows := a.rows ++ [r] }
    else if a.cols.length < nc then allotBits nr nc rest { a with cols := a.cols ++ [c] }
    else allotBits nr nc rest { a with covered := false }

/-- Spares allotted to failing bits, given as row and column (R488). -/
def allot (nr nc : Nat) (bits : List (Nat × Nat)) : Allot :=
  let rows := (nub (bits.map fun b => b.1) []).filter fun r => decide (nc < (nub ((bits.filter fun b => b.1 == r).map fun b => b.2) []).length)
  let left := bits.filter fun b => !rows.contains b.1
  let cols := (nub (left.map fun b => b.2) []).filter fun c => decide (nr < (nub ((left.filter fun b => b.2 == c).map fun b => b.1) []).length)
  let a := allotBits nr nc (left.filter fun b => !cols.contains b.2) { rows := rows, cols := cols, covered := true }
  { a with covered := a.covered && decide (a.rows.length ≤ nr) && decide (a.cols.length ≤ nc) }

/-- The soft repairs that an allotment makes (R489): spares are used in order, behind those that a fuse record holds. -/
def repairsOf (id : Nat) (a : Allot) (r0 c0 : Nat) : List Repair :=
  (a.rows.mapIdx fun i r => Repair.mk id false r (r0 + i) false) ++ a.cols.mapIdx fun i c => Repair.mk id true c (c0 + i) false

/-- A fence that no quiet lifts (R490): permanent, without a word of its own. -/
def Hw.fencePerm (m : Hw) (id : Nat) : Hw :=
  let m := ((m.fenceFlag id true).permFlag id true)
  let m := { m with flt := { m.flt with
      fences := (m.flt.fences.filter fun (f : FenceSt) => f.id != id) ++ [FenceSt.mk id 0 false] } }
  (m.fenceEffect id).settleUnit id

/-- H-CORE held in reset (R490): no host engine starts until H-CORE is powered again. -/
def Hw.holdHCore (m : Hw) : Hw :=
  let stop := fun (m : Hw) (e : Engine) =>
    m.setEngine e { running := false, restarting := false, handover := false, fenced := (m.engine e).fenced }
  let m := ((stop (stop (stop m .h0) .h1) .h2).wr Reg.ID_STATUS_HOST_READY 0).disarm .host false
  { m with host := { m.host with hReady := false, alert := false } }

/-- What follows from an unrepairable macro (R490). -/
def Hw.macroLost (m : Hw) (sd : Side) (id : Nat) : Hw :=
  match sd with
  | .field =>
    if id ≤ 0x04 ∨ (0x0D ≤ id ∧ id ≤ 0x14) then
      let m := (m.wr Reg.BIST_STATUS_HALTED 1).faultN.disarm .field false
      { m with modes := { m.modes with halted := true } }
    else if id ≤ 0x0C then m.fencePerm (0x10 + (id - 0x04))
    else if id ≤ 0x16 then
      let was := m.adcDegraded
      let m := { m with adc := { m.adc with degradedBist := true } }
      if was then m else m.fault Kind.ADC_DEGRADED m.usable.length
    else if id = 0x17 then m.fencePerm 0x32
    else if id = 0x18 then m.fencePerm 0x33
    else (m.fencePerm 0x34).oscFail
  | .host =>
    if id = 2 ∨ id = 4 ∨ id = 5 then m.holdHCore
    else if id ≤ 1 then
      let m := m.fencePerm id
      if id = 0 then m.typeCOnly else m.putLatch .intakeLim (min 50 (m.latch .intakeLim))
    else m.fencePerm 0x39

/-- The macros of a field group (R485), group 1 first. -/
def groupMacros : Nat → List Nat
  | 0 => [0x00, 0x01, 0x02, 0x03, 0x04, 0x0D, 0x0E, 0x0F, 0x10, 0x11, 0x12, 0x13, 0x14]
  | 1 => [0x05, 0x06, 0x07, 0x08, 0x16]
  | 2 => [0x09, 0x0A, 0x0B, 0x0C]
  | _ => [0x15, 0x17, 0x18, 0x19]

/-- Groups whose macros have all passed (R485, R496). -/
def groupsPassed (passed : Nat) : Nat :=
  (List.range 4).foldl (fun v g => if (groupMacros g).all (fun i => bitAt passed i) then v + 2 ^ g else v) 0

/-- The registers of the self-test follow a macro's end (R496, R497). -/
def Hw.showBist (m : Hw) (sd : Side) (id : Nat) (repaired failed : Bool) : Hw :=
  match sd with
  | .field =>
    let m := if failed then m else
      { m with bist := { m.bist with passed := m.bist.passed ||| 2 ^ id } }
    let m := m.wr Reg.BIST_STATUS_GROUPS (groupsPassed m.bist.passed)
    let m := if repaired then (m.wrBit Reg.BIST_REPMAP_MAP id true) else m
    let m := if failed then (m.wrBit Reg.BIST_FAILMAP_MAP id true) else m
    let count := fun (v : Nat) => ((List.range 26).filter fun i => bitAt v i).length
    (m.wr Reg.BIST_STATUS_REPAIRED (count (m.rd Reg.BIST_REPMAP_MAP))).wr Reg.BIST_STATUS_FAILED
      (count (m.rd Reg.BIST_FAILMAP_MAP))
  | .host =>
    let m := if repaired then m.wrBit Reg.HBIST_STATUS_REPMAP id true else m
    if failed then m.wrBit Reg.HBIST_STATUS_FAILMAP id true else m

/-- The macros of the field side that have not been found bad pass (R487): their self-test found no failing bit. -/
def Hw.restPass (m : Hw) : Hw :=
  let m := m.bist.due.foldl (fun m id => m.showBist .field id false false) m
  { m with bist := { m.bist with due := [] } }

/-- The macros of a side that wait for their self-test (R485, R486, R489, R494). -/
def Hw.testsDue (m : Hw) : Side → List Nat
  | .field => m.bist.due
  | .host => m.bist.hdue

/-- A macro waits for its self-test. -/
def Hw.testDue (m : Hw) (sd : Side) (id : Nat) : Hw :=
  match sd with
  | .field => { m with bist := { m.bist with due := putNat id m.bist.due } }
  | .host => { m with bist := { m.bist with hdue := putNat id m.bist.hdue } }

/-- A macro has had its self-test. -/
def Hw.testDone (m : Hw) (sd : Side) (id : Nat) : Hw :=
  match sd with
  | .field => { m with bist := { m.bist with due := m.bist.due.filter (· != id) } }
  | .host => { m with bist := { m.bist with hdue := m.bist.hdue.filter (· != id) } }

/-! Fuse records (R492). -/

/-- A fuse record: [5:0] MACRO, [6] KIND, [18:7] ADDR, [23:19] SPARE, [31:24] CHECK, the CRC-8 over [23:0] from its highest byte
(the order of the bytes is a DESIGN CHOICE, notes/assumptions/113.md). -/
def fuseRecord (r : Repair) : Nat :=
  let v := r.macro_ % 64 + b2n r.col * 64 + r.addr % 4096 * 128 + r.spare % 32 * 2 ^ 19
  v + crc8 [BitVec.ofNat 8 (v / 65536), BitVec.ofNat 8 (v / 256), BitVec.ofNat 8 v] * 2 ^ 24

/-- The repair that a fuse record holds: none where its CHECK fails or all its bits read 1. -/
def fuseRepair (w : Nat) : Option Repair :=
  let r : Repair := { macro_ := bitsOf w 0 6, col := bitAt w 6, addr := bitsOf w 7 12, spare := bitsOf w 19 5, fused := true }
  if w = 2 ^ 32 - 1 ∨ fuseRecord r ≠ w then none else some r

/-- The fuse records of a side. -/
def Hw.fuses (m : Hw) : Side → List Nat
  | .field => m.bist.fuses
  | .host => m.bist.hfuses

/-- The soft repairs of a side. -/
def Hw.repairs (m : Hw) : Side → List Repair
  | .field => m.bist.soft
  | .host => m.bist.hsoft

/-- The soft repairs of a side replaced. -/
def Hw.setRepairs (m : Hw) (sd : Side) (l : List Repair) : Hw :=
  match sd with
  | .field => { m with bist := { m.bist with soft := l } }
  | .host => { m with bist := { m.bist with hsoft := l } }

/-- A defect that the repairs leave in use: its bit lies in no replaced row or column, nor does the bit that disturbs it. -/
def inUse (a : Allot) (d : BitDefect) : Bool :=
  let out := fun (r c : Nat) => a.rows.contains r || a.cols.contains c
  !out d.row d.col && (match d.kind with | .coupled r c _ _ => !out r c | _ => true)

/-- MEMORY_SELFTEST_MACRO (R483, R487, R488, R490): the fuse repairs are applied, and pass 1 logs the failing bits; the macro passes at once, is repaired where
pass 2 then finds nothing, or is unrepairable. -/
def Hw.selftest (m : Hw) (sd : Side) (id : Nat) (defects : List BitDefect) (spareBad : Bool) : Hw :=
  let src := match sd with | .field => 0x10 | .host => 0x02
  let fuses := ((m.fuses sd).filterMap fuseRepair).filter fun (r : Repair) => r.macro_ == id
  let others := ((m.repairs sd).filter fun (r : Repair) => r.macro_ != id) ++ fuses
  let m := (m.testDone sd id).setRepairs sd others
  let wpr := wordsPerRow sd id
  let held : Allot :=
    { rows := (fuses.filter fun (r : Repair) => !r.col).map fun (r : Repair) => r.addr
      cols := (fuses.filter fun (r : Repair) => r.col).map fun (r : Repair) => r.addr, covered := true }
  let defects := defects.filter (inUse held)
  let bits := marchPass wpr defects
  if bits = [] then m.showBist sd id false false
  else
    let sp := sparesOf sd id
    let usedR := (fuses.filter fun (r : Repair) => !r.col).length
    let usedC := (fuses.filter fun (r : Repair) => r.col).length
    let a := allot (sp.1 - usedR) (sp.2 - usedC) bits
    let pass2 := spareBad || marchPass wpr (defects.filter (inUse a)) != []
    if a.covered && !pass2 then
      let m := m.setRepairs sd (others ++ repairsOf id a usedR usedC)
      (m.showBist sd id true false).sideFault sd Kind.BIST_REPAIRED src (id + 64 * min 31 (a.rows.length + a.cols.length))
    else
      ((m.showBist sd id false true).sideFault sd Kind.BIST_FAIL src (id + 64 * b2n (a.covered && pass2))).macroLost sd id

/-- MEMORY_SELFTEST_MACRO (R485 to R487): of a macro whose self-test is due. -/
def execMemorySelftestMacro (side : Side) (id : Fin 32) (defects : List BitDefect) (spareBad : Bool) (s : State) :
    Host.Outcome State Fault Refusal :=
  effect s fun m => if (m.testsDue side).contains id.val then m.selftest side id defects spareBad else m

/-! Fuses (R492, R493, R494). -/

/-- The first `n` soft repairs that no fuse record holds become fused. -/
def fuseFirst : Nat → List Repair → List Repair
  | _, [] => []
  | n, r :: rest =>
    if r.fused then r :: fuseFirst n rest
    else if n = 0 then r :: fuseFirst 0 rest
    else { r with fused := true } :: fuseFirst (n - 1) rest

/-- Fuse records used on a side. -/
def Hw.fusesUsed (m : Hw) : Side → Nat
  | .field => m.rd Reg.BIST_STATUS_FUSES_USED
  | .host => m.rd Reg.HBIST_STATUS_FUSES_USED

/-- Fuse records added to those of a side, and their count shown. -/
def Hw.addFuses (m : Hw) (sd : Side) (l : List Nat) : Hw :=
  match sd with
  | .field => { m.wr Reg.BIST_STATUS_FUSES_USED (m.fusesUsed sd + l.length) with bist := { m.bist with fuses := m.bist.fuses ++ l } }
  | .host => { m.wr Reg.HBIST_STATUS_FUSES_USED (m.fusesUsed sd + l.length) with bist := { m.bist with hfuses := m.bist.hfuses ++ l } }

/-- BURN (R492, R493): every soft repair of a side that no record yet holds is fused. `bad` gives what the records that
fail their read-back read as; each takes the next free one in its place. -/
def Hw.burn (m : Hw) (sd : Side) (bad : List Nat) : Hw :=
  let src := match sd with | .field => 0x10 | .host => 0x02
  let used := m.fusesUsed sd
  let free := 64 - used
  let soft := (m.repairs sd).filter fun (r : Repair) => !r.fused
  let need := soft.length
  if free < need then m.sideFault sd Kind.FUSE_FAIL src (need - free)
  else
    let bad := if need = 0 then [] else bad.take free
    let good := min need (free - bad.length)
    let m := m.setRepairs sd (fuseFirst good (m.repairs sd))
    let m := m.addFuses sd (bad ++ (soft.take good).map fuseRecord)
    if good < need then m.sideFault sd Kind.FUSE_FAIL src (need - good) else m

/-- A BURN has been asked for on a side. -/
def Hw.burnAsked (m : Hw) : Side → Bool
  | .field => m.bist.burn
  | .host => m.bist.hburn

/-- BIST_BURN (R493, R498): in SERVICE; while freeze is in force it waits for thaw. -/
def execBistBurn (side : Side) (bad : List Word) (s : State) : Host.Outcome State Fault Refusal :=
  effect s fun m =>
    let m := m.askBurn side
    if !m.burnAsked side || m.frozen then m
    else
      let m := m.burn side (bad.map BitVec.toNat)
      match side with
      | .field => { m with bist := { m.bist with burn := false } }
      | .host => { m with bist := { m.bist with hburn := false } }

/-- BIST_ENG_TEST (R494). -/
def execBistEngTest (s : State) : Host.Outcome State Fault Refusal := effect s Hw.askEngTest

end Sys2Proof.Machine
end

