-- ==== Sys2Proof/Machine/Modes.lean ====
section
/-! DEFINITION. Modes: the power request, doze, KEEPALIVE, SHIP, the ends of SERVICE, hold-up, and the supplies of the pads
(R285, R437 to R446, R463 to R465, R557). -/

namespace Sys2Proof.Machine

/-- Domains switched together. -/
def Hw.powerDomains (m : Hw) (ds : List Domain) (b : Bool) : Hw := ds.foldl (fun m d => m.powerDomain d b) m

/-! The power request and the pads' supplies. -/

/-- PWR_REQ_CHANGE (R439): a pad whose F_VIO is absent reads low. -/
def execPwrReqChange (high : Bool) (s : State) : Host.Outcome State Fault Refusal :=
  effect s fun m => ({ m with modes := { m.modes with pwrFilt := high && !m.bus.vioLow } }).showReq

/-- F_VIO absent fails the transactions of the sensor bus: the clock line stays low (R394, R557). -/
def Hw.busLost (m : Hw) : Hw :=
  m.bus.ops.foldl (fun m x =>
    if m.tktState x.tkt = .running ∨ m.tktState x.tkt = .issued then
      ((m.bump Reg.SB_EVENTS_STRETCH_TMO).fault Kind.SB_STRETCH_TMO x.addr).busFail x 4
    else m) m

/-- FVIO_LOW (R557): the power request reads low, the aperture is taken as released, plan and set-point selections keep
their last values, and the sensor bus fails its transactions. -/
def execFvioLow (s : State) : Host.Outcome State Fault Refusal :=
  effect s fun m =>
    let m := { m with bus := { m.bus with vioLow := true }, modes := { m.modes with pwrFilt := false } }
    let m := m.showReq
    let m := ({ m with seq := { m.seq with aptPad := false } } : Hw).releaseApts fun x => x.by_ == .pad
    m.busLost

/-- F_VIO_RETURN (R557): the sensor bus is cleared before its next transaction. -/
def execFVioReturn (s : State) : Host.Outcome State Fault Refusal :=
  effect s fun m =>
    if m.bus.vioLow then { m with bus := { m.bus with vioLow := false, clearDue := true, clearTries := 0 } } else m

/-- HVIO_LOW (R557): the drain request ends as for a host W reset; the mailbox state is kept. -/
def execHvioLow (s : State) : Host.Outcome State Fault Refusal :=
  effect s fun m => ({ m with bus := { m.bus with hvioLow := true } }).drainLost

/-- H_VIO_RETURN (R557): the host pads are driven again. -/
def execHVioReturn (s : State) : Host.Outcome State Fault Refusal :=
  effect s fun m => { m with bus := { m.bus with hvioLow := false } }

/-! Doze (R440). -/

/-- The conditions of doze: no cable attached, no place held, no drain request open, no secondary address, and the field
side in KEEPALIVE or SHIP or not powered. -/
def Hw.mayDoze (m : Hw) : Bool :=
  m.host.hReady && m.port == 0 && m.host.mbx.places == [] && m.host.drain.openReq.isNone && !m.on Reg.HP_ADDR_SEC_EN &&
    (m.host.fieldAsleep || !m.modes.faonOn)

/-- HCORE_DOZE (R440, R478): the host watchdog pauses. -/
def execHcoreDoze (s : State) : Host.Outcome State Fault Refusal :=
  effect s fun m =>
    if m.mayDoze then { (m.wr Reg.HP_STATUS_DOZE 1) with hwdg := { m.hwdg with paused := true } } else m

/-- A macro is an engine's SRAM (R484). -/
def engineSram (sd : Side) (id : Nat) : Bool :=
  match sd with
  | .field => 0x04 ≤ id && id ≤ 0x0C
  | .host => id ≤ 0x02

/-- Soft repairs reapplied (R489): a parity error is recorded; an engine's SRAM waits for its self-test again, and any
other macro keeps the repairs that fuses hold. -/
def Hw.reapply (m : Hw) (sd : Side) (bad : Option Nat) : Hw :=
  match bad with
  | none => m
  | some id =>
    if !macroExists sd id then m
    else
      let m := m.sideFault sd Kind.REPAIR_PARITY (match sd with | .field => 0x10 | .host => 0x02) id
      if engineSram sd id then m.testDue sd id
      else m.setRepairs sd ((m.repairs sd).filter fun (r : Repair) => r.macro_ != id || r.fused)

/-- HCORE_WAKE (R440, R489): H-CORE runs again, and the port acknowledges addresses (R384). -/
def execHcoreWake (repairParity : Option Nat) (s : State) : Host.Outcome State Fault Refusal :=
  effect s fun m =>
    let m := if m.on Reg.HP_STATUS_DOZE || m.hp.wakeWait then m.reapply .host repairParity else m
    { m.hcoreWake with hp := { m.hcoreWake.hp with wakeWait := false } }

/-! The journal at the end of a mode. -/

/-- A record accepted at once, whether or not new tickets issue otherwise (R441, R445). -/
def Hw.recordNow (m : Hw) (k : RecKind) (src : Nat) (payload : List Byte) : Hw :=
  let was := m.tkt.stopped
  let m := { m with tkt := { m.tkt with stopped := false } }
  let m := (m.record k src payload).issueAppends (m.sub.length + 1)
  let m := m.appendMany m.sub.length
  { m with tkt := { m.tkt with stopped := was } }

/-- The staging committed in full (R285, R289, R445). -/
def Hw.commitNow (m : Hw) : Hw := m.commitAll (m.jrn.staged.length + 1)

/-- Bytes of records that the staging holds. -/
def Hw.stagedBytes (m : Hw) : Nat := (m.jrn.staged.map fun (x : Staged) => x.r.size).sum

/-- The payload of JR_POWER_DOWN (R274, R285): CAUSE 0 supply loss, 1 SHIP. -/
def Hw.powerDown (m : Hw) (cause staged : Nat) : List Byte :=
  let g := match m.rails.kaGap with | some g => (1, g.frn, g.sc) | none => (0, 0, 0)
  le 1 cause ++ le 1 g.1 ++ le 2 0 ++ le 4 staged ++ le 4 g.2.1 ++ le 4 g.2.2 ++ le 2 (m.rd Reg.KA_MIN_MIN) ++ le 2 0

/-- JR_POWER_DOWN accepted and committed; a twin module that does not number the journal puts it in its pending ring
(R285, R308, R356). -/
def Hw.writePowerDown (m : Hw) (cause staged : Nat) : Hw :=
  let r := m.mkRec JR.POWER_DOWN 0x16 (m.powerDown cause staged)
  if m.numbers then (m.accept r none false).commitNow else m.pend r

/-- HOLDUP_EVENT (R285): the staged pages and JR_POWER_DOWN are committed, a twin LEAD resigns (R356), and F-CORE,
F-MEM, F-ADC and F-LINK go off; F-AON continues on CHOLD. -/
def execHoldupEvent (t : Nat) (s : State) : Host.Outcome State Fault Refusal :=
  effect s fun m =>
    if m.on Reg.JRN_STATUS_HOLDUP || !m.modes.faonOn then m
    else
      let m := ((m.atT t).cutFreeze rsnBatLow false).wr Reg.JRN_STATUS_HOLDUP 1
      let m := (m.buildSeal 0).resignFor .holdup
      let staged := m.stagedBytes
      let m := (m.commitNow).writePowerDown 0 staged
      (m.stopEngines .field).powerDomains [.fCore, .fMem, .fAdc, .fLink] false

/-! KEEPALIVE. -/

/-- KEEPALIVE may be entered (R438, R439, R441, R442, R513): in FLOAT, or at the end of START, with the effective request
low, no source active, the 64 frames after a wake over, no SHIP under way and no handover or probation. -/
def Hw.mayKeepalive (m : Hw) : Bool :=
  (m.mode == modeFLOAT || (m.mode == modeSTART && m.modes.faonOn && !m.modes.starting)) && !m.effectiveReq &&
    !m.chg.source && m.modes.wakeHold == 0 && m.modes.kaStep != 2 && !m.modes.shipAsk && m.upd.hand.isNone &&
    m.upd.prob.isNone && m.modes.svcNext == 0

/-- Durable tickets are in flight (R327). -/
def Hw.durableLeft (m : Hw) : Bool := m.tkt.table.any fun (t : Ticket) => t.dur

/-- The tick of a KEEPALIVE entry (R441, steps 2 to 4): the session ends, the POL rails stop, JR_MODE is accepted, a twin
LEAD resigns, and the staging is committed. -/
def Hw.stageKeepalive (m : Hw) : Hw :=
  let old := m.mode
  let m := { m with modes := { m.modes with kaStep := 2, kaFrames := 0 } }
  let m := (m.resetRailLink).railsFollow
  let m := m.recordNow JR.MODE 0x10 (le 1 old ++ le 1 modeKEEPALIVE ++ le 1 (if old = modeSTART then 0 else 3) ++ le 1 0)
  (m.commitNow).resignFor .keepalive

/-- KEEPALIVE_ENTRY (R441): new tickets stop, and the entry waits for durable tickets. -/
def execKeepaliveEntry (s : State) : Host.Outcome State Fault Refusal :=
  effect s fun m =>
    if !m.mayKeepalive then m
    else
      let m := { m with tkt := { m.tkt with stopped := true } }
      if m.durableLeft then
        (if m.modes.kaStep = 1 then m else { m with modes := { m.modes with kaStep := 1, kaFrames := 0 } })
      else m.stageKeepalive

/-- KEEPALIVE_TICKET_TIMEOUT (R441): durable tickets have not retired within 64 frames; entry to KEEPALIVE, or to SHIP
(R445), is refused and the module stays in its mode. -/
def execKeepaliveTicketTimeout (s : State) : Host.Outcome State Fault Refusal :=
  effect s fun m =>
    if m.modes.kaFrames < 64 ∨ ¬ m.tkt.stopped then m
    else
      let resumed : Hw := { m with tkt := { m.tkt with stopped := false }
                                   modes := { m.modes with kaStep := 0, kaFrames := 0 } }
      if m.modes.shipAsk then
        ({ (resumed.modeRefused modeSHIP 3).bump Reg.MODE_EVENTS_SHIP_REFUSED with
            modes := { resumed.modes with shipAsk := false } } : Hw).serveWaits 8
      else if m.modes.kaStep = 1 then ((resumed.bump Reg.MODE_EVENTS_K_REFUSED).modeRefused modeKEEPALIVE 3).serveWaits 8
      else m

/-- Commands that lose their tickets at a KEEPALIVE entry answer VOID (R327); a result that is on its way is kept. -/
def Hw.voidCommands (m : Hw) : Hw :=
  let m := { m with host := { m.host with work := m.host.work.map fun (c : HostCmd) =>
      if c.hostSide || c.durable || 3 ≤ c.stage then c
      else { c with stage := 3, status := stVOID, data := (m.voidAnswer).data, sent := false } } }
  (List.range 8).foldl Hw.flushAnswers m

/-- Tickets left at a KEEPALIVE entry become VOID, but for those of TM_F2H and of results (R327). -/
def Hw.voidLeft (m : Hw) : Hw :=
  let kept := fun (n : Nat) => m.host.work.any fun (c : HostCmd) => c.tkt == n && 3 ≤ c.stage
  let r := m.voidTickets fun t => !t.dur && !t.acc && t.stream != 20 && !kept t.num
  let m := ((r.1.retireConvs).settleBus).voidCommands
  let m := { m with tkt := { m.tkt with table := m.tkt.table.filter fun (t : Ticket) => t.state != TktState.void } }
  let m := m.showTickets
  if r.2 = 0 then m else m.faultAt Kind.TICKET_VOIDED 0x10 r.2

/-- The twin function as the link goes off (R289, R356, R375): a module in LEAD goes on as SOLO, and a STANDBY keeps its
records. -/
def Hw.twinAsleep (m : Hw) : Hw :=
  let st := m.twn
  let m := { (m.clear [Reg.TWN_STATUS_LINK, Reg.TWN_STATUS_CFG_MATCH, Reg.TWN_STATUS_RESYNC]) with
    twin := { m.twin with hbLost := true, rxSeq := none, rxAhead := [] } }
  if st = twnLEAD then
    let m := m.toRole twnSOLO 2
    m.acceptReserved m.twin.reserved.length
  else if st = twnSTANDBY then m.toRole twnISOLATED 2
  else m

/-- The measurement subsystem as its slices go off (R268): undelivered entries are discarded and counted. -/
def Hw.adcOff (m : Hw) : Hw :=
  let m := m.add Reg.ADC_EVENTS_DISCARDED m.adc.queue.length
  let m := { m with adc := { m.adc with queue := [], due := [], refAt := none, seqRun := false, fgDone := false, fgApply := none } }
  (m.clear [Reg.ADC_STATUS_REF_ON, Reg.ADC_STATUS_REF_SETTLED, Reg.ADC_STATUS_ACTIVE, Reg.ADC_STATUS_FGCAL]).showQueue

/-- Freeze, plan requests and pads of the sequencer off: FRAME_OUT and FREEZE_OUT are held low (R60). -/
def Hw.sequencerQuiet (m : Hw) : Hw :=
  let m := m.liftQuiet
  { m with seq := { m.seq with outputsLow := true, freezeOut := false, sched := none } }

/-- The domains switch for KEEPALIVE (R133, R437, R441, R459). -/
def Hw.enterKeepalive (m : Hw) : Hw :=
  let m := ((m.sequencerQuiet).voidLeft).stopPhases
  let m := (if m.chgState = chgOFF then m else m.chgTo chgOFF 0).endQrOverrides
  let m := (m.twinAsleep).adcOff
  let m := (m.setReq none).endDrainHost 3
  let m := { m with jrn := { m.jrn with kaSecs := 0 } }
  let m := ((m.wr Reg.MODE_STATUS_MODE modeKEEPALIVE).wr Reg.MODE_STATUS_MODE_CHG 1).setSync 0 3
  let m := (((m.stopEngines .field).resetRegs .field .k).nextEpoch).powerDomains [.fCore, .fAdc, .fMem, .fLink] false
  let m := (m.wrSat Reg.JRN_STAGE_STAGED ((m.jrn.staged.map fun (x : Staged) => x.r.cost).sum)).disarm .field false
  let m := { m with
    rails := { m.rails with rail := m.rails.rail.map fun (r : Rail) => { r with disabled := false } }
    rl := { m.rl with grant := 0 }
    modes := { m.modes with kaStep := 0, kaFrames := 0 }
    tkt := { m.tkt with stopped := false }
    bus := { m.bus with clearDue := true, clearTries := 0 } }
  let m := m.clear [Reg.TL_F_STATUS_STATE, Reg.JRN_STATUS_READY, Reg.SB_STATUS_BUSY, Reg.SB_STATUS_WAIT_THAW,
    Reg.SB_STATUS_CLEARING]
  (((m.railsFollow).batfet).statPads).faltCode .sleep

/-- KEEPALIVE_DOMAIN_SWITCH (R441): at the tick after the entry; tickets that are left have 4 frames (R327). -/
def execKeepaliveDomainSwitch (s : State) : Host.Outcome State Fault Refusal :=
  effect s fun m =>
    let left := m.tkt.table.any fun (t : Ticket) => !t.dur && !t.acc && t.stream != 20
    if m.modes.kaStep ≠ 2 ∨ (left = true ∧ m.modes.kaFrames < 4) then m else m.enterKeepalive

/-- The engines of the field side run from retention (R437): fenced ones stay stopped. -/
def Hw.resumeEngines (m : Hw) : Hw :=
  (enginesOf .field).foldl (fun m e => m.runEngine e) m

/-- The links of the field side train again at a wake (R407, R437). -/
def Hw.linksTrain (m : Hw) : Hw :=
  let m := m.wr Reg.TL_F_STATUS_STATE 1
  let m := if m.rd Reg.TL_H_STATUS_STATE = 0 ∧ (m.engine .h2).running then m.wr Reg.TL_H_STATUS_STATE 1 else m
  m.wr Reg.TWN_STATUS_LINK (b2n (m.on Reg.TWN_CFG_EN))

/-- The mode that a wake enters, and what `START_INFO` shows of it (R438, R442, R471). -/
def Hw.wakeMode (m : Hw) (ms : Nat) : Hw :=
  let m := { m with modes := { m.modes with wakeReq := false, wakeHold := 64 } }
  let m := m.setMode (if m.chg.source && !m.adcDegraded then modeCHARGE else modeFLOAT) 12
  ((m.bump Reg.MODE_EVENTS_STARTS).wr Reg.START_INFO_KIND 3).wrSat Reg.START_INFO_LAST_MS ms

/-- The engines submit what they hold, and the rails follow the mode. -/
def Hw.wakeWork (m : Hw) : Hw :=
  let m := (((m.f4Back).railsFollow).submitSeconds).submitGaps
  ((m.serveWaits 512).issueAppends m.sub.length).statPads

/-- The module wakes from KEEPALIVE (R442): domains on, engines from retention, reference enabled, links training; the
mode is CHARGE or FLOAT. The phases make a soft start from VSYS, 20 mV below V_BAT in IDEAL_DIODE (R125, R133). -/
def Hw.wake (m : Hw) (ms : Nat) (repairParity : Option Nat) : Hw :=
  let m := (m.powerDomains [.fCore, .fAdc, .fMem, .fLink] true).reapply .field repairParity
  let m := ((m.resumeEngines).nextEpoch).wrB Reg.JRN_STATUS_READY m.jrn.scanned
  let m := if m.rd Reg.XFER_STATUS_DIR = 1 then m.softStart (m.rd Reg.CHG_MON_VBAT - 20) else m
  ((((m.wakeMode ms).refOn).arrange 0).linksTrain).wakeWork

/-- KEEPALIVE_WAKE (R442). -/
def execKeepaliveWake (ms : Nat) (repairParity : Option Nat) (s : State) : Host.Outcome State Fault Refusal :=
  effect s fun m =>
    if m.mode = modeKEEPALIVE ∧ (m.modes.wakeReq = true ∨ m.effectiveReq = true ∨ m.chg.source = true) then
      m.wake ms repairParity
    else m

/-- KEEPALIVE_SECOND_WAKE (R268, R275, R437): F0, F5 and F6 run for the summary of the second, which the retention staging
takes. The wake converts no VSYS, which is a free value. -/
def execKeepaliveSecondWake (vbat : Nat) (ibat : Int) (vka ika vqr1 vqr2 : Nat) (tctl tpack : Int) (vchold : Nat)
    (s : State) : Host.Outcome State Fault Refusal :=
  effect s fun m =>
    if m.mode ≠ modeKEEPALIVE then m
    else
      let x : SecondMeans :=
        { vbat := vbat, ibat := ibat, vkaMin := vka, ika := ika, vqr1 := vqr1, vqr2 := vqr2, tctl := tctl
          vsys := m.freeBelow 65536, vchold := vchold }
      let m := ({ (m.drew).wrSat Reg.CHG_MON_VBAT vbat with jrn := { m.jrn with tpack := some tpack } } : Hw)
      let m := (((m.runEngine .f0).runEngine .f5).runEngine .f6)
      let m := (((m.putSummary (m.summary x)).submitSeconds).submitGaps).resubmitFaults
      let m := { m with jrn := { m.jrn with kaSecs := m.jrn.kaSecs + 1 } }
      let m := m.appendMany m.sub.length
      m.stopEngines .field

/-! SHIP. -/

/-- SHIP_N_HOLD (R443, R444): F86 has been held low for 5.0 s; after a wake from SHIP it must have read high first
(R472). -/
def execShipNHold (s : State) : Host.Outcome State Fault Refusal :=
  effect s fun m =>
    let m := m.wr Reg.MODE_STATUS_SHIP_N 0
    if !m.on Reg.MODE_CFG_SHIP_N_EN || !m.modes.shipNReady || m.modes.shipAsk then m
    else
      let why := m.shipReason true true
      if why = 0 then { m with modes := { m.modes with shipAsk := true, shipByPad := true } }
      else (m.bump Reg.MODE_EVENTS_SHIP_REFUSED).modeRefused modeSHIP why

/-- A SHIP entry ends where a source qualifies before step 4 (R445). -/
def Hw.shipStopped (m : Hw) : Hw :=
  let m := { m with tkt := { m.tkt with stopped := false }
                    modes := { m.modes with shipAsk := false, kaFrames := 0 } }
  ((m.bump Reg.MODE_EVENTS_SHIP_REFUSED).modeRefused modeSHIP 2).serveWaits 8

/-- Steps 2 to 4 of R445: JR_MODE, the gap detector and the twin; staging and JR_POWER_DOWN committed; KA off, the ship
cell latched, the BATFET OPEN. -/
def Hw.enterShip (m : Hw) : Hw :=
  let cause := if m.modes.shipByPad then 5 else 4
  let m := if m.mode = modeSERVICE then (m.serviceRec 1 (m.rd Reg.MODE_STATUS_SVC_LEVEL) cause m.modes.svcKey).serviceOver else m
  let m := m.recordNow JR.MODE 0x10 (le 1 m.mode ++ le 1 modeSHIP ++ le 1 cause ++ le 1 0)
  let m := ({ m with rails := { m.rails with kaArmed := false } }).resignFor .ship
  let staged := m.stagedBytes
  let m := (m.commitNow).writePowerDown 1 staged
  let m := ((m.sequencerQuiet).stopPhases).wr Reg.RAIL_STATUS_KA_ON 0
  let m := { m with modes := { m.modes with shipCell := true, shipAsk := false, kaFrames := 0, downShip := true } }
  let m := (m.wr Reg.MODE_STATUS_MODE modeSHIP).wr Reg.MODE_STATUS_SVC_LEVEL 0
  let m := ((m.stopEngines .field).powerDomains [.fCore, .fAdc, .fPwr, .fMem, .fLink] false).disarm .field false
  let m := (m.clear [Reg.TL_F_STATUS_STATE]).endSession
  ((((m.railsFollow).clearChgEn).batfet).statPads).faltCode .sleep

/-- SHIP_ENTRY (R444, R445, R513): durable tickets first, as at a KEEPALIVE entry. -/
def execShipEntry (qualifiedBefore : Bool) (s : State) : Host.Outcome State Fault Refusal :=
  effect s fun m =>
    if !m.modes.shipAsk || m.upd.hand.isSome || m.upd.prob.isSome then m
    else if qualifiedBefore || m.chg.source then m.shipStopped
    else if m.durableLeft then
      (if m.tkt.stopped then m
       else { m with tkt := { m.tkt with stopped := true }, modes := { m.modes with kaFrames := 0 } })
    else ({ m with tkt := { m.tkt with stopped := true } } : Hw).enterShip

/-! SERVICE. -/

/-- SERVICE_TIMEOUT (R465): `SVC_TMO` minutes without a mailbox command; SERVICE ends at the next tick. -/
def execServiceTimeout (s : State) : Host.Outcome State Fault Refusal :=
  effect s fun m =>
    if m.mode = modeSERVICE ∧ m.rd Reg.MODE_CFG_SVC_TMO * m.frames60 ≤ m.modes.svcIdle ∧ m.modes.svcEnd = none then
      { m with modes := { m.modes with svcEnd := some 9 } }
    else m

/-- The 60 min of a lockout are over (R463): by the RTC, or by 180,000 frames. -/
def Hw.lockOver (m : Hw) : Bool :=
  match m.modes.lockTai with
  | some t => decide (t ≤ m.timeNow.1)
  | none => m.frnReached m.modes.lockUntil

/-- SERVICE_LOCKOUT_END (R463): after 60 min the failures count afresh. -/
def execServiceLockoutEnd (s : State) : Host.Outcome State Fault Refusal :=
  effect s fun m =>
    if m.on Reg.SVC_STATUS_LOCKED_OUT ∧ m.lockOver then
      { (m.wr Reg.SVC_STATUS_LOCKED_OUT 0).wr Reg.SVC_STATUS_FAILS 0 with modes := { m.modes with failFrns := [] } }
    else m

end Sys2Proof.Machine
end

