-- ==== Sys2Proof/Machine/Start.lean ====
section
/-! DEFINITION. Loss of F-AON power, and the starts: cold, warm, after SHIP and after a supply that came back in time
(R297, R302, R303, R326, R328, R446 to R458, R489, R491, R502, R520). -/

namespace Sys2Proof.Machine

/-! F-AON loses power (R458, R459, R461). -/

/-- The architecture without F-AON: field engines, the field domains, the sidebands and the field latches' shadows. -/
def Arch.lost (a : Arch) (bkp : Bool) : Arch :=
  { engines := a.engines.mapIdx fun (i : Nat) (x : EngineSt) =>
      if i < 3 then { x with restarting := x.restarting || x.fenced, fenced := false } else EngineSt.reset
    domains := a.domains.mapIdx fun (i : Nat) (x : DomainSt) =>
      if i < 3 then x else DomainSt.at (i == 3 && bkp)
    sb := { a.sb with quiet := false, fieldReset := false, halertSeen := false, hCodes := [], fCodes := [] }
    shadows := a.shadows.filter fun (x : Shadow) => x.latch.index < 2
    xferCtl := a.xferCtl, frzPol := 0, hostFieldReset := a.hostFieldReset, hostResetAs := a.hostResetAs, subs := 31 }

/-- What the cable port keeps on the host side; the field side's part is lost. -/
def Cable.lost (c : Cable) : Cable :=
  { c with ended := false, target := 0, qbat := 0, qvalid := false, resState := 3, ires := [] }

/-- What the host interface keeps on the host side. -/
def HostIf.lost (h : HostIf) : HostIf :=
  { h with
    f := LinkEnd.reset
    drain := { h.drain with fieldReq := none }
    work := h.work.filter fun (c : HostCmd) => c.hostSide
    cache := h.cache.filter fun (c : Cached) => c.stream == 7 }

/-- A frame count kept over a loss of power, as it stands against an FRN that starts again at 0. -/
def shiftFrn (frn f : Nat) : Nat := (f + 2 ^ 32 - frn % 2 ^ 32) % 2 ^ 32

/-- The mode functions at the loss: NOR stores, the pads, H-AON and the backup latch stay (R461). -/
def Hw.modesLost (m : Hw) (l : Letter) : Modes :=
  let kept := Modes.reset
  { kept with
    pwrFilt := m.modes.pwrFilt, shipNReady := m.modes.shipNReady, shipCell := m.modes.shipCell, faonOn := false
    haonOn := m.modes.haonOn, nonces := m.modes.nonces, keySlot := m.modes.keySlot, copyA := m.modes.copyA
    copyB := m.modes.copyB
    failFrns := if l = .v then [] else m.modes.failFrns.map (shiftFrn m.frn)
    lockUntil := if l = .v then 0 else shiftFrn m.frn m.modes.lockUntil
    lockTai := if l = .v then none else m.modes.lockTai
    downKnown := l != .v, downTai := m.timeNow.1, downSub := m.timeNow.2, lastFrn := m.frn
    downShip := m.modes.shipCell || l == .s }

/-- The journal at the loss: the NAND and what is read back from it stay (R286, R297, R461). -/
def Hw.jrnLost (m : Hw) : Jrn :=
  let kept := Jrn.reset
  { kept with
    chain := m.jrn.headChain, headChain := m.jrn.headChain, psn := m.jrn.psn, block := m.jrn.block
    ringBlock := m.jrn.ringBlock, blocks := m.jrn.blocks, onlyCrit := m.jrn.onlyCrit, unreadable := m.jrn.unreadable
    badBlocks := m.jrn.badBlocks, dirBlock := m.jrn.dirBlock }

/-- JRN_NEXT after the loss: the JSN after the watermark; a seal that is due is built first (R279, R461). -/
def Hw.nextAfterLoss (m : Hw) : Hw :=
  let any := (m.readable != []) || m.on Reg.JRN_COMMIT_JSN
  let n := if any then m.rd Reg.JRN_COMMIT_JSN + 1 else 0
  let m := (m.wr Reg.JRN_NEXT_JSN n).wr Reg.JRN_STAGE_STAGED 0
  let m := { m with jrn := { m.jrn with hashNext := n } }
  if m.numbers then m.takeSealing else m

/-- The update function at the loss: slots and the host side's part stay. -/
def Update.lost (u : Update) : Update :=
  let mine := fun (e : Nat) => decide (e < 3)
  { slots := u.slots, chunk := [], chunkSession := 0
    session := match u.session with | some x => if mine x.engine then some x else none | none => none
    sessions := u.sessions
    hand := match u.hand with | some x => if mine x.engine then some x else none | none => none
    prob := match u.prob with | some x => if mine x.engine then some x else none | none => none
    probDue := match u.prob with | some x => if mine x.engine then u.probDue else none | none => none
    note := none, hostFrost := u.hostFrost }

/-- The measurement function at the loss: NOR and the journal's marks stay. -/
def Adc.lost (a : Adc) : Adc :=
  let kept := Adc.reset
  { kept with copyA := a.copyA, copyB := a.copyB, lastCert := a.lastCert, lastSeq := a.lastSeq }

/-- The registers of the field side at the loss: what survives it (R11), live fields at their reset values. -/
def Hw.regsLost (m : Hw) (l : Letter) : Hw :=
  let m := m.resetRegs .field l
  { m with regs := m.regs.filter fun e => match fieldOfKey e.1 with
      | none => true
      | some f => !(isFieldAddr f.addr && f.surv == .live) }

/-- The units of the field side at the loss. -/
def Hw.unitsLost (m : Hw) (l : Letter) : Hw :=
  { m with
    arch := m.arch.lost (l != .v)
    seq := { Seq.reset with tickAt := m.now, pinHeld := m.seq.pinHeld, planPads := m.seq.planPads }
    ph := Phases.reset, bat := Batfet.reset, chg := Charger.reset
    rails := { Rails.reset with vsel := m.rails.vsel }
    rl := RailLink.reset, cable := m.cable.lost
    xfer := { m.xfer with fenced := false, retryAt := m.xfer.retryAt.map (shiftFrn m.frn) }
    flt := { Faults.reset with hostBuf := m.flt.hostBuf }
    tkt := Tickets.reset, twin := Twin.reset, sub := [], wdg := Wdg.reset }

/-- The stores and interfaces at the loss. -/
def Hw.storesLost (m : Hw) (l : Letter) : Hw :=
  { m with
    host := m.host.lost, modes := m.modesLost l, adc := m.adc.lost, jrn := m.jrnLost, upd := m.upd.lost
    bus := { m.bus with ops := [], clearDue := true, clearTries := 0, stuckBits := 0 }
    bist := { m.bist with soft := m.bist.soft.filter fun (r : Repair) => r.fused, burn := false, passed := 0, due := List.range 26 }
    lb := { m.lb with due := false, armed := false, frames := 0 } }

/-- The backup latch and the RTC are lost with F-BKP (R303, R458). -/
def Hw.loseBackup (m : Hw) : Hw :=
  let m := (m.resetRegs .field .v).setDomain .fBkp (DomainSt.at false)
  { m with modes := { m.modes with downKnown := false, downTai := 0, downSub := 0, lastFrn := 0, failFrns := [], lockUntil := 0, lockTai := none } }

/-- F-AON loses power (R458): the host side finds the link gone, and the field side keeps its non-volatile stores and,
but for V, the backup latch. -/
def Hw.fieldLost (m : Hw) (l : Letter) : Hw :=
  let m := (m.linkOut 0).endDrainHost 3
  let m := if m.host.drain.fenced then
      { (m.wr Reg.DRN_STATUS_FENCED 0) with host := { m.host with drain := { m.host.drain with fenced := false } } }
    else m
  let m := m.wr Reg.HP_STATUS_FENCED 0
  let units := (m.storesLost l).unitsLost l
  let m := (({ units with seq := { units.seq with tickAt := m.now } }).regsLost l).nextAfterLoss
  let m := if l = .v then m.loseBackup else m
  (m.showNand).batfet

/-- FAON_POWER_LOSS (R458). -/
def execFaonPowerLoss (letter : LossLetter) (s : State) : Host.Outcome State Fault Refusal :=
  effect s fun m =>
    if !m.modes.faonOn then m
    else m.fieldLost (match letter with | .ship => .s | .battery => .b | .vbkp => .v)

/-- The two latches that H-PWR holds, at a power-up of F-AON (R28): like every other one they hold their reset values
until their owner writes them. -/
def Hw.latchesUp (m : Hw) : Hw :=
  ({ m with arch := { m.arch with xferCtl := 0, shadows := m.arch.shadows.filter fun (x : Shadow) => 2 ≤ x.latch.index } } : Hw).wr
    Reg.INTAKE_LIM_EFF_LIM 50

/-- F-AON has power again: a cold start follows (R447). -/
def Hw.faonUp (m : Hw) : Hw :=
  let m := { m with modes := { m.modes with
    faonOn := true, starting := true, shipNReady := m.modes.shipNReady && !m.modes.shipCell, shipCell := false } }
  (((m.powerDomain .fBkp true).powerDomain .fAon true).powerDomain .fPwr true).latchesUp.batfet

/-- SHIP_WAKE (R446): the ship cell clears; from a source with F-AON unpowered the hardware start of R92 runs, for DCIN
at 500 mA. -/
def execShipWake (bySource vbkpHeld : Bool) (s : State) : Host.Outcome State Fault Refusal :=
  effect s fun m =>
    if !m.modes.shipCell then m
    else
      let m := if m.modes.faonOn then m.fieldLost .s else m
      let m := if vbkpHeld then m else m.loseBackup
      if bySource then (if m.intake.present % 4 = 0 then m else (m.hardStart (if bitAt m.intake.present 0 then .vbus else .dcin) 50).powerDomain .fBkp true)
      else m.faonUp

/-! The cold start (R448). -/

/-- The KA word of a copy, where its check passes (R453): byte 0. -/
def kaWord (img : NorImage) : Option Nat :=
  if imgNum img 0x40 1 + imgNum img 0x41 1 = 255 ∧ imgNum img 0x42 2 = 0xA55A then some (imgNum img 0x40 1) else none

/-- KA_CONFIG_READ (R198, R199): hardware latches the KA word of copy A, or of copy B. -/
def Hw.kaRead (m : Hw) (pack : Bool) : Hw :=
  let word := match kaWord m.modes.copyA with | some w => some w | none => kaWord m.modes.copyB
  match word with
  | some w =>
    let m := m.setLatch .kaSet w
    if m.on Reg.KA_SET_EN && pack then m.wr Reg.RAIL_STATUS_KA_ON 1 else m
  | none => ({ m with rails := { m.rails with kaInvalid := true } }).fault Kind.KA_CFG_INVALID 3

/-- The RTC ran on while F-AON was off (R303): not after an oscillator failure (R304). -/
def Hw.rtcAdvance (m : Hw) (off : Nat) : Hw :=
  if m.on Reg.RTC_STATUS_OSC_FAIL then m
  else
    let u := m.rd Reg.RTC_SUB_SUB + off
    (m.wr Reg.RTC_SEC_TAI (m.rd Reg.RTC_SEC_TAI + u / 32768)).wr Reg.RTC_SUB_SUB (u % 32768)

/-- F-AON power-good (R198, R303, R448): the check word of the backup latch, cell presence, the KA word, and the
JR_POWER_UP that waits for the scan (R274, R297). -/
def Hw.faonGood (m : Hw) (x : StartInfo) : Hw :=
  let known := m.modes.downKnown
  let valid := m.on Reg.RTC_STATUS_VALID
  let m := if known then m.rtcAdvance x.off else m
  let gone := if known && valid && m.period != 0 then x.off * 200000000 / 32768 / m.period else 0
  let m := { m with
    modes := { m.modes with
      kaRead := true, failFrns := m.modes.failFrns.map (shiftFrn gone), lockUntil := shiftFrn gone m.modes.lockUntil }
    jrn := { m.jrn with powerUp := some (le 1 (if known then 0x42 else 0x56) ++ le 1 (b2n known + 2 * b2n valid) ++
      le 2 0 ++ le 6 m.modes.downTai ++ le 2 m.modes.downSub ++ le 4 m.modes.lastFrn) } }
  ((m.wrB Reg.CHG_STATUS_PRESENT x.pack).kaRead x.pack).batfet

/-! The configuration (R451 to R456). -/

/-- A configured setting that no register shows. -/
def settingOf (img : NorImage) (k bits : Nat) : Nat := Config.cfgSetting img k % 2 ^ bits

/-- The profile whose settings begin at `k` (R143, R146). -/
def profileOf (img : NorImage) (k : Nat) : Profile :=
  let n := fun (i bits : Nat) => settingOf img (k + i) bits
  { chem := n 0 3, cells := n 1 4, vcell := n 2 16, ichg := n 3 16, ipeak := n 4 16, ipre := n 5 16, preTh := n 6 16
    term := n 7 3, rech := n 8 2, t1 := signedOf 8 (n 9 8), t2 := signedOf 8 (n 10 8), t3 := signedOf 8 (n 11 8)
    t4 := signedOf 8 (n 12 8), preTimer := n 13 8, fastTimer := n 14 8 }

/-- The escalation overrides of a configuration: up to 32 (R336). -/
def overridesOf (img : NorImage) : List EscOverride :=
  (List.range (min 32 (settingOf img 150 6))).map fun i =>
    { kind := settingOf img (160 + 5 * i) 8, n := settingOf img (161 + 5 * i) 4
      w := clampN 16 4095 (settingOf img (162 + 5 * i) 12), major := settingOf img (163 + 5 * i) 3 % 5
      severe := settingOf img (164 + 5 * i) 3 % 5 }

/-- The settings of a configuration that no register shows (R452): `CHG_LIM`, PROFILE0 to PROFILE7, the escalation
overrides and the nominal CBUF capacitance. Setting 16 of each profile says whether it is defined. -/
def Hw.applySettings (m : Hw) (img : NorImage) : Hw :=
  { m with
    chg := { m.chg with
      limits := some (profileOf img 0), cbufNom := settingOf img 151 16
      profiles := (List.range 8).map fun i =>
        if settingOf img (16 * (i + 1) + 15) 1 = 1 then some (profileOf img (16 * (i + 1))) else none }
    flt := { m.flt with overrides := overridesOf img } }

/-- The words of configured fields on the field side. -/
def fieldCfgWords : List Nat :=
  [0x106C, 0x1080, 0x110C, 0x1114, 0x1118, 0x111C] ++ (List.range 32).map (fun i => 0x1130 + 4 * i) ++
  (List.range 4).map (fun i => 0x11B0 + 4 * i) ++ (List.range 9).map (fun i => 0x11C0 + 4 * i) ++
  [0x1204, 0x1324, 0x1328, 0x132C, 0x1340, 0x1344, 0x1420, 0x1424, 0x1428] ++
  (List.range 6).map (fun i => 0x1430 + 4 * i) ++ [0x1450, 0x1458, 0x1504] ++
  (List.range 64).map (fun i => 0x1700 + 4 * i) ++ [0x1840, 0x1958, 0x195C, 0x1E20, 0x1F04]

/-- Latches that F0 SUPERVISOR and F4 RAIL write from the configuration, held to their ranges (R28, R30, R177). -/
def Hw.applyLatches (m : Hw) : Hw :=
  let set := fun (m : Hw) (l : LatchId) (f : Field) => m.putLatch l (m.cfgValue f)
  let m := set (set m .vsysSet Reg.VSYS_SET_SET) .vsysMin Reg.VSYS_MIN_MIN
  (set (set m (.qrSet 0) (Reg.QR_SET_SET 0)) (.qrSet 1) (Reg.QR_SET_SET 1)).leaveDbs

/-- CONFIG_APPLY (R448, R450): the fields and latches are written; freeze and aperture are admitted from the next tick. -/
def Hw.applyConfig (m : Hw) : Hw :=
  let m := fieldCfgWords.foldl (fun m a => m.takeCfgWord a (m.cfgWord a)) m
  let m := match m.modes.cfgImage with | some img => m.applySettings img | none => m
  let m := (m.applyLatches).followTwin
  ({ m with seq := { m.seq with cfgApplied := true } } : Hw).showReq

/-- A copy of the configuration. -/
def Hw.cfgImg (m : Hw) (copy : Nat) : NorImage := if copy = 0 then m.modes.copyA else m.modes.copyB

/-- A header's own check (R451, R452). -/
def headerOk (img : NorImage) : Bool := imgNum img 0 4 == 0x4643565A && crc32c (imgBytes img 0 0x3C) == imgNum img 0x3C 4

/-- CFG_DIGEST takes the 32 bytes of a digest (R451). -/
def Hw.showDigest (m : Hw) (d : Nat) : Hw :=
  (List.range 8).foldl (fun m i => m.wr (Reg.CFG_DIGEST_DIGEST i) (bitsOf d (32 * i) 32)) m

/-- The digest of a copy (R451). -/
def copyDigest (img : NorImage) : Nat := Config.sha256 (imgBytes img 0 0x10000)

/-- A copy selected (R451, R471). -/
def Hw.takeCopy (m : Hw) (copy : Nat) : Hw :=
  let img := m.cfgImg copy
  let m := ((m.wr Reg.CFG_STATUS_COPY copy).wrB Reg.CFG_STATUS_SIGNED (m.cfgSigned img)).wr Reg.CFG_STATUS_SEQ (imgNum img 8 4)
  let m := (m.wr (if copy = 0 then Reg.CFG_STATUS_A_OK else Reg.CFG_STATUS_B_OK) 1).showDigest (copyDigest img)
  { m with modes := { m.modes with cfgImage := some img, otherDigest := copyDigest (m.cfgImg (1 - copy)) } }

/-- The copy that a cold start reads first: the higher SEQ among the headers that pass (R451); copy A otherwise. -/
def Hw.firstCopy (m : Hw) : Nat :=
  let a := m.modes.copyA
  let b := m.modes.copyB
  if headerOk b && (!headerOk a || decide (imgNum a 8 4 < imgNum b 8 4)) then 1 else 0

/-- CFG_COPY_BAD (R470): the copy and the reason. -/
def Hw.copyBad (m : Hw) (copy why : Nat) : Hw := m.fault Kind.CFG_COPY_BAD (copy + 2 * why)

/-- CONFIG_DEFAULT (R456): no copy passes, and the ROM default configuration runs. -/
def Hw.defaultConfig (m : Hw) : Hw :=
  let m := (m.wr Reg.CFG_STATUS_DEFAULT 1).fault Kind.CFG_INVALID 0
  { m with modes := { m.modes with cfgImage := none } }

/-- CONFIG_SELECT (R451): the copy first read, else the other one. -/
def Hw.selectConfig (m : Hw) : Hw :=
  let c := m.firstCopy
  let r1 := m.cfgReason (m.cfgImg c)
  if r1 = 0 then
    let other := 1 - c
    (if headerOk (m.cfgImg other) then m.wr (if other = 0 then Reg.CFG_STATUS_A_OK else Reg.CFG_STATUS_B_OK) 1 else m).takeCopy c
  else
    let m := m.copyBad c r1
    let r2 := m.cfgReason (m.cfgImg (1 - c))
    if r2 = 0 then m.takeCopy (1 - c) else (m.copyBad (1 - c) r2).defaultConfig

/-! Slots (R502). -/

/-- The slot that an engine's records name: the ACTIVE one, the later record of two (R501, R502). -/
def Hw.activeSlot (m : Hw) (e : Engine) : Nat :=
  match m.slot e 0, m.slot e 1 with
  | some a, some b =>
    if b.state = slACTIVE ∧ (a.state ≠ slACTIVE ∨ a.gen < b.gen) then 1 else 0
  | _, _ => 0

/-- A slot found in PROBATION has failed it (R502, R518): after a loss of power. -/
def Hw.failedSlot (m : Hw) (e : Engine) (x : Nat) : Hw :=
  match m.slot e x with
  | some s =>
    if s.state = slPROBATION then
      let prob := m.upd.prob
      let due := m.upd.probDue
      let m := m.rollback { engine := e.index, oldSlot := 1 - x, newSlot := x, at_ := 0, begun := true, revert := false
                            cmd := none, startAt := 0, stateLen := 0 } 5
      { m with upd := { m.upd with prob := prob, probDue := due } }
    else m
  | none => m

/-- An engine with no loadable slot (R502, R520, R521). -/
def Hw.noSlot (m : Hw) (e : Engine) : Hw :=
  match e with
  | .f0 => m.wr Reg.MODE_STATUS_MODE modePERMAFROST
  | .h2 => { m.wr Reg.HUPD_STATUS_PERMAFROST 1 with upd := { m.upd with hostFrost := true } }
  | _ => m.fencePerm e.id

/-- SLOT_SELECT of one engine (R502): the ACTIVE slot, or the other one where its digest disagrees. -/
def Hw.loadSlot (m : Hw) (e : Engine) (x : StartInfo) : Hw :=
  let m := if e.side = .field then (m.failedSlot e 0).failedSlot e 1 else m
  let run := if e.side = .field then m.activeSlot e else m.runSlot e
  let m := if e.side = .field then m.selectSlot e run else m
  let other := 1 - run
  let good : Bool := match m.slot e other with | some s => s.state == slVERIFIED | none => false
  if bitAt x.slotBad e.index then m.noSlot e
  else if bitAt x.slotFell e.index then
    (if good then ((m.slotState e other slACTIVE).selectSlot e other).rejected e run rsnSLOT else m.noSlot e)
  else m

/-- SLOT_SELECT of every engine that is to be started (R502): a host engine that runs keeps its image. -/
def Hw.loadSlots (m : Hw) (x : StartInfo) : Hw :=
  ([Engine.h0, .h1, .h2, .f0, .f1, .f2, .f3, .f4, .f5, .f6, .f7, .f8].filter fun (e : Engine) =>
    !(e.side == .host && (m.engine e).running)).foldl (fun m e => m.loadSlot e x) m

/-! Numbers rebuilt from the NAND (R322, R326, R353). -/

/-- The highest value that a field of the committed records of a kind gives. -/
def Hw.highest (m : Hw) (k : RecKind) (p : JRec → Bool) (g : JRec → Nat) : Nat :=
  m.readable.foldl (fun v r => if r.kind = k.code && p r then max v (g r) else v) 0

/-- F6 JOURNAL rebuilds the numbers that F-AON has lost. -/
def Hw.rebuildNumbers (m : Hw) : Hw :=
  let m := m.wr Reg.TKT_EPOCH_EPOCH (m.highest JR.RESET (fun _ => true) (fun r => numAt r.payload 4 4) + 1)
  let m := m.wr Reg.TWN_EPOCH_EPOCH m.maxEpoch
  (List.range 8).foldl (fun m s => m.wr (Reg.HOST_SEQ_N s)
    (m.highest JR.HOST_CMD (fun r => numAt r.payload 0 1 == s) (fun r => numAt r.payload 4 4))) m

/-! The end of a start. -/

/-- START_INFO at the end of a start (R471). -/
def Hw.startInfo (m : Hw) (kind ms : Nat) : Hw := (m.wr Reg.START_INFO_KIND kind).wrSat Reg.START_INFO_LAST_MS ms

/-- The engines of the field side are loaded and started, and the Tabien link trains; without F0 SUPERVISOR no engine
is (R502, R520). -/
def Hw.startEngines (m : Hw) : Hw :=
  if m.mode = modePERMAFROST then m.linksTrain else (m.resumeEngines).linksTrain

/-- Permafrost: the sequencer runs FREE with every slot thaw (R520). -/
def Hw.frost (m : Hw) : Hw :=
  let m := m.setSync 0 3
  (({ m with seq := { m.seq with cfgApplied := false } } : Hw).liftQuiet).batfet

/-- The engines' first work of a cold start: calibration record, reference, rails, TM_CFG (R91, R260, R264, R448). -/
def Hw.coldWork (m : Hw) : Hw :=
  let m := (((m.selectCal).refOn).arrange 0).rebuildNumbers
  (((m.f4Back).railsFollow).sendF 0x16 m.cfgPayload).appendMany m.sub.length

/-- COLD_START (R448, R491): F-AON power-good, the macros whose self-test found nothing, configuration, images and check-ins. START ends with the mode
evaluation of a later tick. -/
def Hw.coldStart (m : Hw) (x : StartInfo) : Hw :=
  let m := if m.modes.kaRead then m else m.faonGood x
  if m.held .field || m.modes.halted then m
  else
    let m := ((m.powerDomains [.fCore, .fMem] true).restPass).selectConfig
    let m := m.loadSlots x
    let m := if m.mode = modePERMAFROST then m.frost else m.applyConfig
    let m := (m.powerDomains [.fAdc, .fLink, .fPwr] true).startEngines
    let m := if m.mode = modePERMAFROST then m.rebuildNumbers else m.coldWork
    let m := { m with modes := { m.modes with starting := false, startKind := 0 } }
    m.startInfo 0 x.ms

/-- COLD_START (R448). -/
def execColdStart (x : StartInfo) (s : State) : Host.Outcome State Fault Refusal :=
  effect s fun m => if m.modes.faonOn && m.modes.starting && !m.modes.shipCell then m.coldStart x else m

/-! The warm start (R449). -/

/-- CONFIG_REREAD (R455): a copy whose digest has changed is left for the other one, where that has the digest recorded
at the cold start; otherwise each engine that lacks its section is fenced. -/
def Hw.rereadConfig (m : Hw) : Hw :=
  match m.modes.cfgImage with
  | none => m
  | some _ =>
    let copy := m.rd Reg.CFG_STATUS_COPY
    let kept := (List.range 8).foldl (fun v i => v + m.rd (Reg.CFG_DIGEST_DIGEST i) * 2 ^ (32 * i)) 0
    if copyDigest (m.cfgImg copy) = kept then m
    else if copyDigest (m.cfgImg (1 - copy)) = m.modes.otherDigest ∧ m.cfgReason (m.cfgImg (1 - copy)) = 0 then
      let img := m.cfgImg (1 - copy)
      let m := ((m.wr Reg.CFG_STATUS_COPY (1 - copy)).wr Reg.CFG_STATUS_SEQ (imgNum img 8 4)).showDigest (copyDigest img)
      let m := m.wrB Reg.CFG_STATUS_SIGNED (m.cfgSigned img)
      { m with modes := { m.modes with cfgImage := some img, otherDigest := kept } }
    else
      let m := (m.wr Reg.CFG_STATUS_REREAD_FAIL 1).fault Kind.CFG_INVALID 1
      [0x11, 0x12, 0x13, 0x14, 0x15, 0x16, 0x17].foldl (fun m id => m.applyFence id false) m

/-- The note of a load in permafrost becomes JR_UPDATE with EVENT 4 (R520, R522). -/
def Hw.takeNote (m : Hw) : Hw :=
  match m.upd.note with
  | some n => ({ m with upd := { m.upd with note := none } }).updateRec 4 (engineAt n.1) n.2 0
  | none => m

/-- STATE_RESUBMIT (R328): history entries, summaries, keep-alive gaps and sync changes whose appends became VOID. -/
def Hw.resubmit (m : Hw) : Hw :=
  let m := ((m.resubmitFaults).submitSeconds).submitGaps
  let m := m.submitSync
  m.appendMany m.sub.length

/-- The engines' first work of a warm start. -/
def Hw.warmWork (m : Hw) : Hw :=
  let m := (((m.resubmit).takeNote).f4Back).railsFollow
  ((m.serveWaits 512).issueAppends m.sub.length).deliver

/-- The host side is told of the reset that a start ends: TM_EVENT with its letter (R406, R421). -/
def Hw.tellReset (m : Hw) : Hw :=
  if m.modes.startKind = 0 then m
  else m.sendF 0x13 (le 1 (m.rd Reg.STAT_LATCH_FN) ++ le 1 (if m.modes.startKind = 1 then 0x57 else 0x50) ++ le 2 0)

/-- WARM_START (R449, R455, R489, R502): soft repairs, the selected copy, the images, the check-ins. A module that left
permafrost applies its configuration now; one that was in KEEPALIVE is in FLOAT. -/
def Hw.warmStart (m : Hw) (x : StartInfo) : Hw :=
  let m := ((({ m with bist := { m.bist with due := [] } } : Hw).reapply .field x.repairParity).rereadConfig).wr Reg.BIST_STATUS_HALTED 0
  let was := m.mode
  let m := if was = modePERMAFROST then m.wr Reg.MODE_STATUS_MODE modeSTART else m
  let m := m.loadSlots x
  let frost := m.mode = modePERMAFROST
  let m := if frost then m.frost else if m.seq.cfgApplied then m else m.applyConfig
  let m := (m.startEngines).bump Reg.MODE_EVENTS_STARTS
  let m := if frost then m else m.warmWork
  let m := if frost ∨ m.mode ≠ modeKEEPALIVE then m else
    ((m.powerDomains [.fCore, .fAdc, .fMem, .fLink] true).refOn.arrange 0).setMode modeFLOAT 10
  let m := { m with
    arch := { m.arch with sb := { m.arch.sb with fieldReset := false } }
    modes := { m.modes with resetEngTest := false } }
  (m.tellReset).startInfo m.modes.startKind x.ms

/-- A warm start may run: F-AON has power, no pad holds the side, no cold start is due, and F0 SUPERVISOR is still to be
started. -/
def Hw.mayWarm (m : Hw) : Bool :=
  m.modes.faonOn && !m.held .field && !m.modes.starting && !m.modes.halted && !(m.engine .f0).running &&
    m.arch.sb.fieldReset

/-- WARM_START (R449). -/
def execWarmStart (x : StartInfo) (s : State) : Host.Outcome State Fault Refusal :=
  effect s fun m => if m.mayWarm then m.warmStart x else m

/-- RESUME_START (R285, R447): the supply returns before F-AON is lost, and the module restarts as a warm start, without
a memory self-test. -/
def execResumeStart (x : StartInfo) (s : State) : Host.Outcome State Fault Refusal :=
  effect s fun m =>
    if m.on Reg.JRN_STATUS_HOLDUP && m.modes.faonOn then
      let m := (m.wr Reg.JRN_STATUS_HOLDUP 0).powerDomains [.fCore, .fMem, .fAdc, .fLink] true
      let m := (((m.fieldReset .w 0x3C 0).refOn).arrange 0)
      if m.mayWarm then m.warmStart x else m
    else m

/-! Domains (R19, R22). -/

/-- The principal unit of a domain (R22, R333). -/
def principal : Domain → Nat
  | .hAon => 0x31 | .hCore => 0x02 | .hPwr => 0x31 | .fBkp => 0x3B | .fAon => 0x3C | .fCore => 0x10 | .fAdc => 0x2D
  | .fPwr => 0x20 | .fMem => 0x35 | .fLink => 0x33

/-- DOMAIN_PG_FALL (R22): the signals that leave the domain are inactive, what runs in it stops, and the fall is recorded.
Without F-AON the collector that would record it is gone too, as at FAON_POWER_LOSS. -/
def Hw.pgFall (m : Hw) (d : Domain) : Hw :=
  if !(m.domain d).pg then m
  else if d = .fAon then m.fieldLost .b
  else
    let m := ((m.setDomain d { m.domain d with pg := false }).darken d).unitsDark d
    m.sideFault (domainSide d) Kind.DOMAIN_PG (principal d) d.index

/-- DOMAIN_PG_FALL (R22). -/
def execDomainPgFall (d : Domain) (s : State) : Host.Outcome State Fault Refusal := effect s fun m => m.pgFall d

/-- The staging SRAM starts empty (R22, R286): its records and their tickets are gone, the open page with them, and the scan
goes on from the watermark. -/
def Hw.stagingLost (m : Hw) : Hw :=
  let gone := m.jrn.staged.filterMap Staged.tkt
  let m := { m with jrn := { m.jrn with
      staged := [], closed := [], openFrames := 0, sealTries := 0, scanned := false, chain := m.jrn.headChain } }
  gone.foldl (fun m n => m.dropTicket n) m.nextAfterLoss

/-- A domain starts again from its reset state (R22): F-CORE and H-CORE as after a W of their side
(DEDUCED, notes/assumptions/35.md), H-AON and F-AON as at their power-up, F-MEM has lost what was staged and scans the NAND again, F-LINK trains again,
F-ADC enables its reference, and in F-PWR the BATFET and the rails follow the latches that F-AON holds. A source of H-PWR
qualifies again. -/
def Hw.domainBack (m : Hw) (d : Domain) : Hw :=
  let m := m.setDomain d { on := true, pg := true, offReq := none }
  match d with
  | .hAon => { m.hostBlank with modes := { m.modes with haonOn := true } }
  | .hCore => { m.hostReset .w 0x02 0 with bist := { m.bist with hdue := List.range 7 } }
  | .hPwr => m.stageLatchesUp
  | .fBkp => m
  | .fAon => m.faonUp
  | .fCore => m.fieldReset .w 0x10 0
  | .fAdc => (m.refOn).arrange 0
  | .fPwr => (m.batfet).railsFollow
  | .fMem => m.stagingLost
  | .fLink => (m.wr Reg.TWN_STATUS_LINK (b2n (m.on Reg.TWN_CFG_EN))).endSession

/-- DOMAIN_PG_RETURN (R22). -/
def execDomainPgReturn (d : Domain) (s : State) : Host.Outcome State Fault Refusal :=
  effect s fun m => if (m.domain d).on ∧ ¬ (m.domain d).pg then m.domainBack d else m

/-- A domain's switch closes: the domain starts from its reset state; a waiting request to open it is withdrawn. -/
def Hw.switchOn (m : Hw) (d : Domain) : Hw :=
  if (m.domain d).on then m.setDomain d { m.domain d with offReq := none } else m.domainBack d

/-- GUARD_PRIVILEGED_WRITE (R19, R21): it acts when it comes from the guard engine of its side; otherwise it is ignored and
PRIVILEGE is recorded. The service write itself is WDG_SERVICE_WRITE's. -/
def execGuardPrivilegedWrite (writer : Engine) (addr : Nat) (a : GuardAction) (s : State) :
    Host.Outcome State Fault Refusal :=
  effect s fun m =>
    if writer = guardOf writer.side then
      match a with
      | .serviceWatchdog => m
      | .switchDomain d on =>
        if domainSide d ≠ writer.side ∨ ¬ switchable d then m
        else if on then m.switchOn d
        else m.switchOff d
      | .subSwitch n on =>
        if writer = .f0 then ({ m with arch := { m.arch with subs := putBit m.arch.subs n on } } : Hw).railsFollow else m
      | .fenceUnit u => if fenceTarget u then m.applyFence u true else m
    else m.sideFault writer.side Kind.PRIVILEGE writer.id (addr % 2 ^ 14)

end Sys2Proof.Machine
end

