-- ==== Sys2Proof/Machine/Tick.lean ====
section
/-! DEFINITION. The frame tick (R39, R42 to R53, R59, R72, R73, R121, R218 to R220, R249, R258, R306, R314, R330, R339,
R342, R404, R418, R438, R440, R443, R465, R477) and what F0 SUPERVISOR, F1 CHARGE, F2 PHASE_A, F3 PHASE_B and F5 MEASURE do
at it. -/

namespace Sys2Proof.Machine

/-! The clock. -/

/-- The RTC over a frame of `len` FCLK cycles, with the slew of R306, at most 500 ppm; after an oscillator failure it
counts from FCLK, while F-CORE is on (R304). -/
def Hw.rtcTick (m : Hw) (len : Nat) : Hw :=
  if m.on Reg.RTC_STATUS_OSC_FAIL && !(m.domain .fCore).on then m
  else
    let d : Int := (len * 32768 : Nat)
    let adj := clampI (-(d / 2000)) (d / 2000) m.jrn.slew
    let num := ((m.jrn.rtcRem : Int) + d + adj).toNat
    let u := m.rd Reg.RTC_SUB_SUB + num / 200000000
    let m := (m.wr Reg.RTC_SEC_TAI (m.rd Reg.RTC_SEC_TAI + u / 32768)).wr Reg.RTC_SUB_SUB (u % 32768)
    { m with jrn := { m.jrn with rtcRem := num % 200000000, slew := m.jrn.slew - adj } }

/-- FRN and `FRM_WRAP` (R44). What `FRM_WRAP` does past 65535 no rule says: it stays there (DESIGN CHOICE,
notes/assumptions/87.md). -/
def Hw.advanceFrn (m : Hw) : Hw :=
  if m.frn = 2 ^ 32 - 1 then (m.wr Reg.FRM_FRN_FRN 0).bump Reg.FRM_WRAP_WRAP else m.wr Reg.FRM_FRN_FRN (m.frn + 1)

/-- A planned run that goes on into the next frame keeps its counts (R71). -/
def Hw.carryRun (m : Hw) : Hw :=
  let go := m.sameRun 256
  { m with seq := { m.seq with
      runCounted := m.seq.runCounted && go, runRefused := m.seq.runRefused && go, runSlot := 0 } }

/-- A frame closes (R43, R44, R74, R275): its length is shown, slots that began in freeze are counted, and the next frame
begins. -/
def Hw.closeFrame (m : Hw) : Hw :=
  let m := (m.atT m.seq.len).carryRun
  let len := m.seq.len
  let left := if m.frozen then 256 - m.seq.frzFrom else 0
  let m := { m with jrn := { m.jrn with frzSlots := m.jrn.frzSlots + left } }
  let m := (m.rtcTick len).wr Reg.FRM_LEN_LAST (len / 2)
  let m := { m with seq := { m.seq with
    tickAt := m.seq.tickAt + len, t := 0, frzFrom := 0, lens := lastN 8 (m.seq.lens ++ [len]) } }
  m.advanceFrn

/-- The mean of the tick-bearing intervals of a source, or the nominal period before there is one (R48). -/
def Hw.meanPeriod (m : Hw) (src : SyncSrc) : Nat :=
  if (m.track src).intervals = [] then m.period else meanN (m.track src).intervals

/-- The phase error of the tick against its source, in FCLK cycles within half the source's period (R46): `FRM_PHASE` is
added, and 120 ns are taken off for LINE and CABLE. -/
def Hw.phaseError (m : Hw) (src : SyncSrc) : Int :=
  match (m.track src).bearingAt with
  | none => 0
  | some b =>
    let p : Int := max 1 (m.meanPeriod src)
    let delay : Int := if src = .line ∨ src = .cable then 24 else 0
    let e := (b : Int) + 2 * m.rdI Reg.FRM_PHASE_OFFSET - delay - (m.seq.tickAt : Int)
    (e + p / 2) % p - p / 2

/-- The length of the next frame on a tracked source: the mean of its tick-bearing intervals and a quarter of the phase
error, within 98 % to 102 % of the period (R48). -/
def Hw.trackedLen (m : Hw) (src : SyncSrc) : Nat :=
  (clampI ((m.period * 98 / 100 : Nat) : Int) ((m.period * 102 / 100 : Nat) : Int)
    ((m.meanPeriod src : Int) + m.phaseError src / 4)).toNat

/-- SYNC_LOCKED (R48): LOCKED after 8 frames within ±1.0 µs, ACQUIRE again beyond ±5.0 µs. -/
def Hw.lockTick (m : Hw) (src : SyncSrc) : Hw :=
  let e := (m.phaseError src).natAbs
  let run := if e ≤ 200 ∧ (m.track src).bearingAt ≠ none then m.seq.lockRun + 1 else 0
  let m := { m with seq := { m.seq with lockRun := run } }
  if m.rd Reg.FRM_STATUS_STATE = 0 ∧ 8 ≤ run then m.setSync src.code 1
  else if m.rd Reg.FRM_STATUS_STATE = 1 ∧ 1000 < e then m.setSync src.code 0
  else m

/-- The length of a FREE_RUN frame: back to the period by at most 2 % of it (R49). -/
def freeLen (period len : Nat) : Nat :=
  let step := period * 2 / 100
  if len < period then min period (len + step) else max period (len - step)

/-- A source that is not the active one at a tick (R49, R50): two expected events have not come, and it is lost; or it has
stayed qualified for a further frame. -/
def SyncTrack.stay (x : SyncTrack) (now spacing : Nat) : SyncTrack :=
  match x.lastAt with
  | some l => if 204 * spacing < 100 * (now - l) then x.forget else if x.qualified then { x with qualFrames := x.qualFrames + 1 } else x
  | none => x

/-- The four sources at a tick, the active one being lost by its own event (R49). -/
def Hw.tracksTick (m : Hw) : Hw :=
  let p := m.period
  let s := p / max 1 (m.rd Reg.FRM_SRC_CFG_LINE_MULT)
  let one := fun (m : Hw) (src : SyncSrc) (sp : Nat) =>
    let x := m.track src
    if m.rd Reg.FRM_STATUS_SRC = src.code then
      m.setTrack src (if x.qualified then { x with qualFrames := x.qualFrames + 1 } else x)
    else m.setTrack src (x.stay m.now sp)
  one (one (one (one m .line s) .ext p) .cable p) .twin p

/-- The next frame's length and the sequencer's state (R47 to R49): HOLDOVER begins at the tick after a loss (R75). -/
def Hw.syncTick (m : Hw) : Hw :=
  let m := m.tracksTick
  let m := if m.seq.lossDue then
    ({ m with seq := { m.seq with lossDue := false } } : Hw).setSync (m.rd Reg.FRM_STATUS_SRC) 2 else m
  let setLen := fun (m : Hw) (n : Nat) => { m with seq := { m.seq with len := max 1 n } }
  match m.rd Reg.FRM_STATUS_STATE, syncOfCode (m.rd Reg.FRM_STATUS_SRC) with
  | 2, _ => setLen { m with seq := { m.seq with holdover := m.seq.holdover + 1 } } (meanN m.seq.lens)
  | 3, _ => setLen m (freeLen m.period m.seq.len)
  | _, some src => (setLen m (m.trackedLen src)).lockTick src
  | _, none => setLen m (freeLen m.period m.seq.len)

/-! The plan, the pads and the counts that the hardware closes. -/

/-- The switching cycles per slot of an EXEMPT rail (R54): the integer nearest to its frequency, in kHz, times the slot length
of a frame of `len` FCLK cycles. -/
def exemptCycles (fsw len : Nat) : Nat := (10 * fsw * len + 256000000) / 512000000

/-- PLAN_SELECT_SAMPLE (R53): the selection governs the frame, with the policy of each POL rail, in freeze too; a PLAN
command has arrived, and DETAIL of its ARRIVED is the plan (DESIGN CHOICE, notes/assumptions/94.md). -/
def Hw.planTick (m : Hw) : Hw :=
  let p := m.selPlan
  let m := m.newPolicy fun m => (m.wr Reg.FRM_STATUS_PLAN p).putLatch .frzPol (m.rd (Reg.FRM_PLANPOL_POL p))
  let m := if m.quietDue then m.wr Reg.RAIL_STATUS_HOLD_ACT m.holdRails else m
  let m := { m with rails := { m.rails with rail := m.rails.rail.mapIdx fun (n : Nat) (r : Rail) =>
      { r with exempt := if n < 3 ∧ m.polPolicy n = 2 then exemptCycles (m.rd (Reg.POL_CFG_FSW n)) m.seq.len else 0 } } }
  let tags := m.rl.planTags
  tags.foldl (fun m g => m.rlEvent 0x2 g p) { m with rl := { m.rl with planTags := [] } }

/-- The frame pads, the wake pulses, the TICK pulse of a module that drives it (R237) and the run of refusals (R56, R59, R60, R71). A refusal of slot 0, 4 µs before its tick,
is one of the frame that begins. -/
def Hw.padTick (m : Hw) : Hw :=
  let low := m.seq.outputsLow && (m.held .field || m.mode == modeKEEPALIVE || m.mode == modeSHIP)
  { m with
    cable := { m.cable with tickPulses := m.cable.tickPulses + b2n (m.cable.fsDrive && m.on Reg.CBL_STATUS_FS_MODE) }
    seq := { m.seq with
      outputsLow := low, wakeDue := false, framePulses := if low then m.seq.framePulses else m.seq.framePulses + 1
      quietFrames := if m.seq.refusedNow then 0 else m.seq.quietFrames + 1
      refusedNow := match m.seq.slotZero with | some z => decide (z.1 = m.frn) | none => false } }

/-- FRAME_OVERRUN (R72, R73): the busy count of one engine against its budget. -/
def Hw.budgetOf (m : Hw) (n busy len : Nat) : Hw :=
  let used := min 255 ((256 * busy + len - 1) / len)
  let m := m.wr (Reg.FRM_BUD_USED_LAST n) used
  if m.rd (Reg.FRM_BUD_BUDGET n) * len < 256 * busy then
    (m.bump (Reg.FRM_BUD_OVERRUNS n)).faultAt Kind.FRAME_OVERRUN (0x10 + n) used
  else m

/-- The busy counts of F0 to F8 (R72). -/
def Hw.busyTick (m : Hw) (f : Frame) : Hw :=
  let len := max 1 (m.seq.lens.getLast?.getD 0)
  (List.range 9).foldl (fun m n => m.budgetOf n (f.busy.getD n 0) len) m

/-- The level of F86 SHIP_N (R443, R472). -/
def Hw.shipTick (m : Hw) (f : Frame) : Hw :=
  { m.wrB Reg.MODE_STATUS_SHIP_N f.shipN with modes := { m.modes with shipNReady := m.modes.shipNReady || f.shipN } }

/-- Frame counts of the mode functions (R441, R442, R465). -/
def Hw.modeCounts (m : Hw) : Hw :=
  { m with modes := { m.modes with
      kaFrames := if m.tkt.stopped then m.modes.kaFrames + 1 else m.modes.kaFrames
      wakeHold := m.modes.wakeHold - 1
      svcIdle := if m.mode = modeSERVICE then m.modes.svcIdle + 1 else 0 } }

/-! The snapshot and the links. -/

/-- The words of the image: in permafrost only `MODE_STATUS` and `UPD_STATUS` are filled (R418, R520). -/
def Hw.imageWord (m : Hw) (a : Nat) : Nat :=
  if m.mode = modePERMAFROST ∧ a ≠ 0x1040 ∧ a ≠ 0x10A0 then 0 else m.readWord a

/-- The bytes of one of the 17 chunks of the image: 62 words, and 32 in the last (R418). -/
def Hw.chunk (m : Hw) (k : Nat) : List Byte :=
  (List.range (if k = 16 then 32 else 62)).flatMap fun i => le 4 (m.imageWord (0x1000 + 248 * k + 4 * i))

/-- SNAPSHOT_CAPTURE (R418): one image, queued as 17 TM_SNAP messages where the link is trained. -/
def Hw.snapshot (m : Hw) : Hw :=
  if m.rd Reg.TL_F_STATUS_STATE ≠ 2 then m
  else
    let chunks := (List.range 17).map fun k => le 4 m.frn ++ le 2 (248 * k) ++ le 1 k ++ le 1 0 ++ m.chunk k
    chunks.foldl (fun m p => m.sendF 0x12 p) m

/-- The age of the readable image (R418, R429). -/
def Hw.ageTick (m : Hw) : Hw :=
  let us := m.host.snap.us + m.lastUs
  let m := { m with host := { m.host with snap := { m.host.snap with us := us } } }
  if m.on Reg.ID_STATUS_SNAP_VALID then m.wrSat Reg.ID_SNAP_AGE_AGE (us / 1000) else m.add Reg.ID_SNAP_AGE_AGE (m.lastUs / 1000)

/-- CRC failures of the closing frame (R349, R404), and what goes out in thaw. -/
def Hw.linkTick (m : Hw) : Hw :=
  let nf := m.host.f.crcFrame
  let nh := m.host.h.crcFrame
  let nt := m.twin.crcFrame
  let m := { m with
    host := { m.host with f := { m.host.f with crcFrame := 0 }, h := { m.host.h with crcFrame := 0 } }
    twin := { m.twin with crcFrame := 0, resyncSent := 0 } }
  let m := if nf = 0 then m else m.faultAt Kind.TL_CRC 0x32 (satN 13 nf)
  let m := if nh = 0 then m else m.hfaultAt Kind.TL_CRC 0x32 (satN 13 nh + 8192)
  let m := if nt = 0 then m else m.fault Kind.TWIN_LINK_CRC nt
  ((m.flushAcks).serveResync 128).ageTick

/-! F5 MEASURE. -/

/-- The age of a slice's calibration in 50 ms units, 6 bits (R256). -/
def Hw.calAge (m : Hw) (i : Nat) : Nat :=
  match (m.slice i).calAt with
  | some t => min 63 ((m.now - t) / 10000000)
  | none => 63

/-- A change of range takes effect (R246). -/
def Hw.rangeTick (m : Hw) : Hw :=
  let new := m.rd Reg.ADC_CFG_AIN_RNG
  { m with adc := { m.adc with rng := new, rngStale := m.adc.rngStale ||| (m.adc.rng ^^^ new) } }

/-- Runs of frames end after 8 frames without their event (R250, R254, R262). -/
def agedRun (r : Option Nat) : Option Nat :=
  match r with
  | some n => if 8 ≤ n then none else some (n + 1)
  | none => none

/-- The constants of a foreground calibration apply, for the five slices and the paths (R258). -/
def Hw.fgTick (m : Hw) : Hw :=
  match m.adc.fgApply with
  | none => m
  | some c => { m with adc := { m.adc with
      fgApply := none, fgConst := c
      slices := m.adc.slices.mapIdx fun (i : Nat) (sl : Slice) =>
        let x := c.getD i (sl.offset, sl.gain)
        { sl with offset := x.1, gain := x.2, calAt := some m.now } } }

/-- The converter's part of a tick: constants and records that apply now, the runs of R250, R254 and R262, and the
departure of REFMON (R258, R260, R261, R264). -/
def Hw.adcRuns (m : Hw) : Hw :=
  let gone := m.adc.refMon && decide (64 ≤ m.adc.refQuiet)
  { m with adc := { m.adc with
      seqRun := m.on Reg.ADC_STATUS_REF_SETTLED
      lateRun := agedRun m.adc.lateRun, skipRun := agedRun m.adc.skipRun
      ovrRuns := (m.adc.ovrRuns.filter fun (r : Nat × Nat) => r.2 < 8).map fun (r : Nat × Nat) => (r.1, r.2 + 1)
      refMon := m.adc.refMon && !gone, refQuiet := if gone then 0 else m.adc.refQuiet + 1 } }

/-- The newest system-scan conversions show in `ADC_LAST_t`, with the flags of the present (R249, R270). The scan has taken many
results of each active slice in the frame: none still recovers (R262). -/
def Hw.scanTick (m : Hw) (l : List ScanCode) : Hw :=
  let clean := fun (i : Nat) (sl : Slice) => if m.bit Reg.ADC_STATUS_ACTIVE i then { sl with recover := 0 } else sl
  let m := { m with adc := { m.adc with slices := m.adc.slices.mapIdx clean } }
  l.foldl (fun m x =>
    let flags := m.resultFlags x.tag 1
      { slice := x.slice, t := 0, sum := 0, above := b2n (x.clip == some true), below := b2n (x.clip == some false), after := 0 } false
    (m.wr (Reg.ADC_LAST_VALUE x.tag) x.code).wr (Reg.ADC_LAST_FLAGS x.tag) flags) m

/-- ACCUMULATOR_CLOSE (R249) and what else F5 MEASURE does at a tick. -/
def Hw.measureTick (m : Hw) (f : Frame) : Hw :=
  let m := ((m.rangeTick).fgTick.adcRuns).seqTick
  let m := m.scanTick f.scan
  let ages := (List.range 5).foldl (fun v i => v + m.calAge i * 2 ^ (6 * i)) 0
  let m := (m.wr Reg.ADC_CAL_AGE_AGE ages).wrB Reg.ADC_STATUS_STALE ((List.range 5).any fun i => m.sliceStale i)
  if m.away .f5 then m
  else
    let m := { m with adc := { m.adc with means := f.means } }
    let m := match m.adc.applyCopy with | some c => m.applyCal c | none => m
    m.sendAdcThaw

/-! The phases. -/

/-- The step of a trim for one phase current against the sum of four (R121). -/
def trimStep (sum i : Nat) : Int :=
  let d : Int := (sum : Int) - 4 * (i : Int)
  if d.natAbs * 50 ≤ sum then 0
  else
    let r : Int := ((128 * d.natAbs + sum) / (2 * sum) : Nat)
    clampI (-2) 2 (if d < 0 then -r else r)

/-- What F2 PHASE_A and F3 PHASE_B write to `ENTRY` by the mode (R120): 64 in SOURCE and 32 in FLOAT, CHARGE and SERVICE. -/
def Hw.entryOfMode (m : Hw) : Option Nat :=
  if m.mode = modeSOURCE then some 64
  else if m.mode = modeFLOAT ∨ m.mode = modeCHARGE ∨ m.mode = modeSERVICE then some 32
  else none

/-- The new trim and `ENTRY` of one phase, which its engine writes, and the frames that the trim has stayed at its limit
(R120 to R122). -/
def Hw.trimPhase (m : Hw) (sum i : Nat) (n : Fin 4) (move : Bool) : Hw :=
  let old := m.rdI (Reg.PH_TRIM_TRIM n)
  let new := if move then clampI (-16) 16 (old + trimStep sum i) else old
  let entry := m.entryOfMode.getD (m.rd (Reg.PH_TRIM_ENTRY n))
  let v := unsignedOf 6 new + 256 * entry
  let m := if v = m.latch (.phTrim n) then m else m.ownLatch (.phTrim n) v
  let at16 := (m.rdI (Reg.PH_TRIM_TRIM n)).natAbs = 16
  let k := if at16 then m.ph.limitFrames.getD n 0 + 1 else 0
  { m with ph := { m.ph with limitFrames := m.ph.limitFrames.set n k } }

/-- PHASE_BALANCE (R121): F2 PHASE_A trims phases 1 and 2, F3 PHASE_B phases 3 and 4. -/
def Hw.balanceTick (m : Hw) (f : Frame) : Hw :=
  let sum := (f.iphase.take 4).sum
  let go := m.on Reg.PH_CFG_BAL_EN && m.ph.allFour && decide (80 ≤ sum) && decide (256 ≤ f.cycles)
  let a := go && !m.away .f2
  let b := go && !m.away .f3
  let i := fun (k : Nat) => f.iphase.getD k 0
  (((m.trimPhase sum (i 0) 0 a).trimPhase sum (i 1) 1 a).trimPhase sum (i 2) 2 b).trimPhase sum (i 3) 3 b

/-- Frames in a row that the BATFET has stayed closed after a reclosure (R127). -/
def Hw.batfetTick (m : Hw) : Hw :=
  let open_ := m.rd Reg.BATFET_STATUS_STATE = 0 ∨ m.rd Reg.BATFET_STATUS_STATE = 4
  { m with bat := { m.bat with closedFrames := if m.bat.retries = 0 ∨ open_ then 0 else m.bat.closedFrames + 1 } }

/-! Faults, tickets, the journal. -/

/-- Frames counted by the fault functions, the ticket table and the open page (R286, R314, R339, R342). -/
def Hw.quietTick (m : Hw) : Hw :=
  { m with
    flt := { m.flt with
      fences := m.flt.fences.map fun (f : FenceSt) => { f with quiet := f.quiet + 1 }
      hist := m.flt.hist.map fun (e : HistEntry) => if e.isOpen then { e with quiet := e.quiet + 1 } else e }
    tkt := { m.tkt with fullRun := agedRun m.tkt.fullRun }
    jrn := { m.jrn with openFrames := if m.openPage = [] then 0 else m.jrn.openFrames + 1 } }

/-! F0 SUPERVISOR. -/

/-- SERVICE is entered at a tick (R462): the state beneath it, the level, JR_MODE and JR_SERVICE. -/
def Hw.enterService (m : Hw) : Hw :=
  let level := m.modes.svcNext
  let m := (m.wrB Reg.MODE_STATUS_BASE (m.mode == modeCHARGE)).wr Reg.MODE_STATUS_SVC_LEVEL level
  let m := (m.setMode modeSERVICE 7).serviceRec 0 level m.modes.svcCause m.modes.svcKey
  { m with modes := { m.modes with svcNext := 0, svcIdle := 0 } }

/-- The mode that SERVICE, SOURCE and START leave to: CHARGE where a source is active and ADC_DEGRADED is not in force,
else FLOAT (R438). -/
def Hw.restMode (m : Hw) : Nat := if m.chg.source && !m.adcDegraded then modeCHARGE else modeFLOAT

/-- SERVICE ends at a tick (R465): a reset has left its JR_SERVICE at the reset. -/
def Hw.leaveService (m : Hw) (cause : Nat) : Hw :=
  let level := m.rd Reg.MODE_STATUS_SVC_LEVEL
  let m := if cause = 10 then m else m.serviceRec 1 level cause m.modes.svcKey
  let degraded := m.chg.source && m.adcDegraded
  let m := (m.setMode m.restMode (if degraded then 11 else cause)).wr Reg.MODE_STATUS_SVC_LEVEL 0
  let m := (m.clear [Reg.MODE_STATUS_BASE]).serviceOver
  { m with modes := { m.modes with svcEnd := none, svcKey := [] } }

/-- The source role has ended (R224, R438). -/
def Hw.leaveSource (m : Hw) : Hw :=
  let m := m.setMode m.restMode 6
  ({ m with cable := { m.cable with ended := false, target := 0 } } : Hw).orderXfer m.dirOfMode 2

/-- MODE_EVALUATE (R438), in table order. A START that KEEPALIVE follows waits for its entry. -/
def Hw.evaluate (m : Hw) : Hw :=
  let md := m.mode
  if m.modes.kaStep ≠ 0 ∨ m.modes.starting = true then m
  else if md = modeSTART then (if m.mayKeepalive then m else m.setMode m.restMode 0)
  else if md = modeSOURCE then (if m.cable.ended then m.leaveSource else m)
  else if md = modeSERVICE then
    match m.modes.svcEnd with
    | some c => m.leaveService c
    | none => m.wrB Reg.MODE_STATUS_BASE (m.restMode == modeCHARGE)
  else if (md = modeFLOAT ∨ md = modeCHARGE) ∧ m.modes.svcNext ≠ 0 then m.enterService
  else if md = modeFLOAT ∧ m.restMode = modeCHARGE then m.setMode modeCHARGE 1
  else if md = modeCHARGE ∧ m.restMode = modeFLOAT then m.setMode modeFLOAT (if m.chg.source then 11 else 2)
  else m

/-- The rails are withheld, or not (R440). -/
def Hw.holdRailsTick (m : Hw) : Hw :=
  let run := m.mode = modeFLOAT ∨ m.mode = modeCHARGE ∨ m.mode = modeSOURCE ∨ m.mode = modeSERVICE
  let hold := decide run && !m.effectiveReq && (m.chg.source || m.mode == modeSOURCE)
  if hold = m.on Reg.MODE_STATUS_RAILS_HELD then m else (m.wrB Reg.MODE_STATUS_RAILS_HELD hold).railsFollow

/-- The direction that the mode requires is ordered, and H1 INTAKE begins it in thaw (R97, R99): after a latch has been cleared too (R101; by which
route the field side learns of the latch is not stated, notes/assumptions/106.md). As the source is lost the bridge delivers
CBUF for one frame, and OFF is ordered at the next tick (R107). -/
def Hw.directTick (m : Hw) : Hw :=
  let off := fun (b : Bool) => ({ m with modes := { m.modes with dirOff := b } } : Hw)
  if m.on Reg.XFER_STATUS_LATCHED then { m with modes := { m.modes with dirAsked := 0, dirOff := false } }
  else if m.xfer.fenced || m.modes.dirAsked = m.dirOfMode then off false
  else if m.dirOfMode = 0 ∧ m.modes.dirAsked = 1 ∧ ¬ m.modes.dirOff then off true
  else (off false).orderXfer m.dirOfMode 0

/-- What F0 SUPERVISOR does at a tick: the budget, the reserve, the mode (R219, R220, R438). -/
def Hw.superviseTick (m : Hw) (f : Frame) : Hw :=
  if m.away .f0 || m.held .field then m
  else
    let m := m.reserveTick f
    let m := if m.rd Reg.TL_F_STATUS_STATE = 2 then m.budgetTick f else m
    let before := m.mode
    let m := (((m.evaluate).holdRailsTick).directTick).revTick
    if m.mode = before then m else ((m.railsFollow).batfet).statPads

/-! The tick. -/

/-- The tick in KEEPALIVE and SHIP: FRN, the RTC and the frame counts; the gap detector and the cell-presence comparator go on
(R44, R60, R139, R201, R437). -/
def Hw.asleepTick (m : Hw) (f : Frame) : Hw :=
  let m := (((m.shipTick f).modeCounts).watchKa f.vka).ageTick
  ((m.presenceTick f).batfetTick).stageTick

/-- The LEAD's mark on the twin lanes at a tick in freeze (R57). -/
def Hw.markTick (m : Hw) : Hw :=
  if m.frozen && m.on Reg.TWN_CFG_EN && m.twinLead then { m with twin := { m.twin with mark := !m.twin.mark } } else m

/-- The pack current that the newest freeze run has measured (R66, R68): a frame without freeze leaves it as it was. -/
def Hw.freezePack (m : Hw) (f : Frame) : Hw :=
  if f.pdFreeze = 0 then m else { m with seq := { m.seq with pdFreeze := f.pdFreeze } }

/-- The hardware's part of a tick in the other modes. -/
def Hw.hardTick (m : Hw) (f : Frame) : Hw :=
  let m := m.freezePack f
  let m := (((((m.planTick).padTick).limitTick f.psrc).busyTick f).shipTick f).modeCounts
  let m := (m.stageTick).markTick
  (m.snapshot).linkTick


/-- The units' and engines' part of a tick. -/
def Hw.workTick (m : Hw) (f : Frame) : Hw :=
  let m := ((m.measureTick f).railsTick f).chargeTick f
  let m := (((((m.balanceTick f).phaseTick f).pdissTick).batfetTick).domainsSettle).quietTick
  let m := ((m.superviseTick f).cableTick).scrubTick
  let m := (((m.lbTick).showProb).markProbation).settleDouble
  (m.wdgTick).serveWaits 8

/-- FRAME_TICK (R44): the frame closes, the next one begins under its plan, and the tick's work is done. -/
def execFrameTick (f : Frame) (s : State) : Host.Outcome State Fault Refusal :=
  effect s fun m =>
    if !m.modes.faonOn then m
    else
      let m := (m.closeFrame).syncTick
      if m.mode = modeKEEPALIVE ∨ m.mode = modeSHIP then m.asleepTick f
      else (m.hardTick f).workTick f

end Sys2Proof.Machine
end

