-- ==== Sys2Proof/Machine/Dispatch.lean ====
section
/-! DEFINITION. One arm per command: a direct call of its meaning. -/

namespace Sys2Proof.Machine

def exec (i : Instr) (s : State) : Host.Outcome State Fault Refusal :=
  match i with
  | .frameTick f => Sys2Proof.Machine.execFrameTick f s
  | .tsbHalertStateLevel high => Sys2Proof.Machine.execTsbHalertStateLevel high s
  | .tsbFalertStateLevel high => Sys2Proof.Machine.execTsbFalertStateLevel high s
  | .qreqRequest t a => Sys2Proof.Machine.execQreqRequest t a s
  | .qreqRelease t => Sys2Proof.Machine.execQreqRelease t s
  | .fastRoleSwapCode t vcbufLow => Sys2Proof.Machine.execFastRoleSwapCode t vcbufLow s
  | .sourceLossCode => Sys2Proof.Machine.execSourceLossCode s
  | .sourceAttachWakeCode => Sys2Proof.Machine.execSourceAttachWakeCode s
  | .cableDetachCode => Sys2Proof.Machine.execCableDetachCode s
  | .mailboxWakeCode => Sys2Proof.Machine.execMailboxWakeCode s
  | .hostAlertCode => Sys2Proof.Machine.execHostAlertCode s
  | .fieldAlertCode => Sys2Proof.Machine.execFieldAlertCode s
  | .fieldSleepCode => Sys2Proof.Machine.execFieldSleepCode s
  | .sidebandFault pulse => Sys2Proof.Machine.execSidebandFault pulse s
  | .tsbQuietChange high => Sys2Proof.Machine.execTsbQuietChange high s
  | .tsbQuietChannelFault => Sys2Proof.Machine.execTsbQuietChannelFault s
  | .guardPrivilegedWrite writer addr a => Sys2Proof.Machine.execGuardPrivilegedWrite writer addr a s
  | .engineRestart e => Sys2Proof.Machine.execEngineRestart e s
  | .domainPgFall d => Sys2Proof.Machine.execDomainPgFall d s
  | .domainPgReturn d => Sys2Proof.Machine.execDomainPgReturn d s
  | .domainSwitchOff d => Sys2Proof.Machine.execDomainSwitchOff d s
  | .domainOffTicketTimeout d => Sys2Proof.Machine.execDomainOffTicketTimeout d s
  | .fifoParity fifo tkt => Sys2Proof.Machine.execFifoParity fifo tkt s
  | .latchWrite writer l value writerInReset => Sys2Proof.Machine.execLatchWrite writer l value writerInReset s
  | .latchParity l live => Sys2Proof.Machine.execLatchParity l live s
  | .sourceEvent src t => Sys2Proof.Machine.execSourceEvent src t s
  | .syncSourceLost => Sys2Proof.Machine.execSyncSourceLost s
  | .holdoverExpiry => Sys2Proof.Machine.execHoldoverExpiry s
  | .sourcePriorityChange => Sys2Proof.Machine.execSourcePriorityChange s
  | .planPadChange pads => Sys2Proof.Machine.execPlanPadChange pads s
  | .preFreeze slot a => Sys2Proof.Machine.execPreFreeze slot a s
  | .preFreezeSlot0Decision a => Sys2Proof.Machine.execPreFreezeSlot0Decision a s
  | .freezeSlotBoundary slot late lateRails ns => Sys2Proof.Machine.execFreezeSlotBoundary slot late lateRails ns s
  | .freezeRunEnd slot => Sys2Proof.Machine.execFreezeRunEnd slot s
  | .apertureRise t a => Sys2Proof.Machine.execApertureRise t a s
  | .apertureFall t => Sys2Proof.Machine.execApertureFall t s
  | .apertureLimitExpiry t => Sys2Proof.Machine.execApertureLimitExpiry t s
  | .apertureRearm => Sys2Proof.Machine.execApertureRearm s
  | .scheduledApertureStart t a => Sys2Proof.Machine.execScheduledApertureStart t a s
  | .driverHoldCut t => Sys2Proof.Machine.execDriverHoldCut t s
  | .driverHoldBreakEnd t a => Sys2Proof.Machine.execDriverHoldBreakEnd t a s
  | .freezeEndVbatLow t => Sys2Proof.Machine.execFreezeEndVbatLow t s
  | .sourceLoadFreezeEnd t => Sys2Proof.Machine.execSourceLoadFreezeEnd t s
  | .refusalRunEnd => Sys2Proof.Machine.execRefusalRunEnd s
  | .sourceQualify src mv => Sys2Proof.Machine.execSourceQualify src mv s
  | .intakeSourceLoss src mv mvOther => Sys2Proof.Machine.execIntakeSourceLoss src mv mvOther s
  | .prioritySourceTakeover mv => Sys2Proof.Machine.execPrioritySourceTakeover mv s
  | .reverseBlock => Sys2Proof.Machine.execReverseBlock s
  | .reverseReconduct => Sys2Proof.Machine.execReverseReconduct s
  | .intakeLimitUpdate => Sys2Proof.Machine.execIntakeLimitUpdate s
  | .intakeStartupLimitExpiry => Sys2Proof.Machine.execIntakeStartupLimitExpiry s
  | .intakePdiss watts => Sys2Proof.Machine.execIntakePdiss watts s
  | .vSourceRefresh v iin pdiss temp xpow aux => Sys2Proof.Machine.execVSourceRefresh v iin pdiss temp xpow aux s
  | .cbufFloorReached => Sys2Proof.Machine.execCbufFloorReached s
  | .cbufMeasure us ma dmv steady => Sys2Proof.Machine.execCbufMeasure us ma dmv steady s
  | .cbufRampStart mv => Sys2Proof.Machine.execCbufRampStart mv s
  | .cbufRampEnd mv => Sys2Proof.Machine.execCbufRampEnd mv s
  | .haonPowerUp inputs => Sys2Proof.Machine.execHaonPowerUp inputs s
  | .hostConfigTimeout => Sys2Proof.Machine.execHostConfigTimeout s
  | .deadBatteryStart advert => Sys2Proof.Machine.execDeadBatteryStart advert s
  | .xferQuietLate ns => Sys2Proof.Machine.execXferQuietLate ns s
  | .xferDirectionChange dir reached => Sys2Proof.Machine.execXferDirectionChange dir reached s
  | .xferDirTimeout => Sys2Proof.Machine.execXferDirTimeout s
  | .intakeThermal temp => Sys2Proof.Machine.execIntakeThermal temp s
  | .cbufOv mv => Sys2Proof.Machine.execCbufOv mv s
  | .xferOcp => Sys2Proof.Machine.execXferOcp s
  | .xferRetry => Sys2Proof.Machine.execXferRetry s
  | .xferVtbOv mv => Sys2Proof.Machine.execXferVtbOv mv s
  | .xferThermal temp => Sys2Proof.Machine.execXferThermal temp s
  | .xferStartFail mv => Sys2Proof.Machine.execXferStartFail mv s
  | .xferClrLatch => Sys2Proof.Machine.execXferClrLatch s
  | .phaseShedChange itot => Sys2Proof.Machine.execPhaseShedChange itot s
  | .phaseImbalance n => Sys2Proof.Machine.execPhaseImbalance n s
  | .phaseSoftStart vout us => Sys2Proof.Machine.execPhaseSoftStart vout us s
  | .phaseSsShort test => Sys2Proof.Machine.execPhaseSsShort test s
  | .phaseSsRetry => Sys2Proof.Machine.execPhaseSsRetry s
  | .phaseOcp phases load => Sys2Proof.Machine.execPhaseOcp phases load s
  | .phaseOv mv => Sys2Proof.Machine.execPhaseOv mv s
  | .phaseThermal n temp => Sys2Proof.Machine.execPhaseThermal n temp s
  | .phaseGateUv n supply => Sys2Proof.Machine.execPhaseGateUv n supply s
  | .phaseVtbCollapse mv => Sys2Proof.Machine.execPhaseVtbCollapse mv s
  | .phClrLatch => Sys2Proof.Machine.execPhClrLatch s
  | .batfetPdiss mw => Sys2Proof.Machine.execBatfetPdiss mw s
  | .batfetOcp t ma => Sys2Proof.Machine.execBatfetOcp t ma s
  | .batfetReclose => Sys2Proof.Machine.execBatfetReclose s
  | .batfetRetryCountClear => Sys2Proof.Machine.execBatfetRetryCountClear s
  | .batfetThermal temp => Sys2Proof.Machine.execBatfetThermal temp s
  | .vsysUv mv => Sys2Proof.Machine.execVsysUv mv s
  | .revBatFloor mv => Sys2Proof.Machine.execRevBatFloor mv s
  | .packIndicatorSettled seen => Sys2Proof.Machine.execPackIndicatorSettled seen s
  | .probeVoltageReached => Sys2Proof.Machine.execProbeVoltageReached s
  | .sinkTestEnd mv => Sys2Proof.Machine.execSinkTestEnd mv s
  | .probeShort mv => Sys2Proof.Machine.execProbeShort mv s
  | .smartpackReadSequence r err => Sys2Proof.Machine.execSmartpackReadSequence r err s
  | .smartpackRetry r err => Sys2Proof.Machine.execSmartpackRetry r err s
  | .packNegotiate ohm vbat => Sys2Proof.Machine.execPackNegotiate ohm vbat s
  | .absentRedetect changed => Sys2Proof.Machine.execAbsentRedetect changed s
  | .chargeSustainedExpiry => Sys2Proof.Machine.execChargeSustainedExpiry s
  | .chargeTermination => Sys2Proof.Machine.execChargeTermination s
  | .safetyTimerExpiry => Sys2Proof.Machine.execSafetyTimerExpiry s
  | .sourceAbsenceTimer => Sys2Proof.Machine.execSourceAbsenceTimer s
  | .tempHwStop n => Sys2Proof.Machine.execTempHwStop n s
  | .tempHwStopRelease n => Sys2Proof.Machine.execTempHwStopRelease n s
  | .tsOpen n => Sys2Proof.Machine.execTsOpen n s
  | .tsShort n => Sys2Proof.Machine.execTsShort n s
  | .batRemoval t seen => Sys2Proof.Machine.execBatRemoval t seen s
  | .batRemoved => Sys2Proof.Machine.execBatRemoved s
  | .batShort mv => Sys2Proof.Machine.execBatShort mv s
  | .statLatchRead => Sys2Proof.Machine.execStatLatchRead s
  | .lampEdge ms => Sys2Proof.Machine.execLampEdge ms s
  | .chgSuspend suspend => Sys2Proof.Machine.execChgSuspend suspend s
  | .chgIHost limit => Sys2Proof.Machine.execChgIHost limit s
  | .chgClrFault => Sys2Proof.Machine.execChgClrFault s
  | .chgEnableRestore => Sys2Proof.Machine.execChgEnableRestore s
  | .vselChange rail index => Sys2Proof.Machine.execVselChange rail index s
  | .rlNop tag => Sys2Proof.Machine.execRlNop tag s
  | .rlHello tag speed keep version => Sys2Proof.Machine.execRlHello tag speed keep version s
  | .rlSetV tag rail slew code mv => Sys2Proof.Machine.execRlSetV tag rail slew code mv s
  | .rlRelease tag rail mv => Sys2Proof.Machine.execRlRelease tag rail mv s
  | .rlEnable tag rail on mv => Sys2Proof.Machine.execRlEnable tag rail on mv s
  | .rlTableWrite tag rail index code mv => Sys2Proof.Machine.execRlTableWrite tag rail index code mv s
  | .rlPlan tag set plan => Sys2Proof.Machine.execRlPlan tag set plan s
  | .rlAptA tag frn7 len => Sys2Proof.Machine.execRlAptA tag frn7 len s
  | .rlAptB tag slot cycle => Sys2Proof.Machine.execRlAptB tag slot cycle s
  | .rlRead tag read => Sys2Proof.Machine.execRlRead tag read s
  | .rlResend tag => Sys2Proof.Machine.execRlResend tag s
  | .rlBadOpcode tag range => Sys2Proof.Machine.execRlBadOpcode tag range s
  | .rlCrcError tag => Sys2Proof.Machine.execRlCrcError tag s
  | .rlFrameAbandon clock => Sys2Proof.Machine.execRlFrameAbandon clock s
  | .railArrived rail mv => Sys2Proof.Machine.execRailArrived rail mv s
  | .polSoftStart n at_ => Sys2Proof.Machine.execPolSoftStart n at_ s
  | .polSsShort test => Sys2Proof.Machine.execPolSsShort test s
  | .polRetry n vout => Sys2Proof.Machine.execPolRetry n vout s
  | .polOcp n load => Sys2Proof.Machine.execPolOcp n load s
  | .polOv n mv => Sys2Proof.Machine.execPolOv n mv s
  | .polUvlo vsys => Sys2Proof.Machine.execPolUvlo vsys s
  | .polUvloRestart => Sys2Proof.Machine.execPolUvloRestart s
  | .polFrzFloor n => Sys2Proof.Machine.execPolFrzFloor n s
  | .polHoldLimit n fold mv => Sys2Proof.Machine.execPolHoldLimit n fold mv s
  | .railClrLatch => Sys2Proof.Machine.execRailClrLatch s
  | .qrLimit n dropout => Sys2Proof.Machine.execQrLimit n dropout s
  | .qrThermal n temp => Sys2Proof.Machine.execQrThermal n temp s
  | .kaEnable => Sys2Proof.Machine.execKaEnable s
  | .kaGap t ms mv => Sys2Proof.Machine.execKaGap t ms mv s
  | .kaNodeRecover t us mv => Sys2Proof.Machine.execKaNodeRecover t us mv s
  | .kaLimit current => Sys2Proof.Machine.execKaLimit current s
  | .kaStandbyHandover => Sys2Proof.Machine.execKaStandbyHandover s
  | .kaOffsetRemoval => Sys2Proof.Machine.execKaOffsetRemoval s
  | .ccAttachSnk cc2 rp => Sys2Proof.Machine.execCcAttachSnk cc2 rp s
  | .ccAttachSrc cc2 ra => Sys2Proof.Machine.execCcAttachSrc cc2 ra s
  | .ccDetach => Sys2Proof.Machine.execCcDetach s
  | .accessoryAttach kind => Sys2Proof.Machine.execAccessoryAttach kind s
  | .drpToggle => Sys2Proof.Machine.execDrpToggle s
  | .sourceCapabilities pdos partner => Sys2Proof.Machine.execSourceCapabilities pdos partner s
  | .pdAccept => Sys2Proof.Machine.execPdAccept s
  | .pdPsRdy => Sys2Proof.Machine.execPdPsRdy s
  | .ppsRequestRepeat => Sys2Proof.Machine.execPpsRequestRepeat s
  | .eprKeepalive acked => Sys2Proof.Machine.execEprKeepalive acked s
  | .sourceBringup => Sys2Proof.Machine.execSourceBringup s
  | .sourceSwitchClose vcbuf seen => Sys2Proof.Machine.execSourceSwitchClose vcbuf seen s
  | .sourceBringupTimeout vbus => Sys2Proof.Machine.execSourceBringupTimeout vbus s
  | .sinkRequest ask mv curr => Sys2Proof.Machine.execSinkRequest ask mv curr s
  | .sourceTransitionStart => Sys2Proof.Machine.execSourceTransitionStart s
  | .sourcePsRdy vbus => Sys2Proof.Machine.execSourcePsRdy vbus s
  | .srcOcp ma => Sys2Proof.Machine.execSrcOcp ma s
  | .ppsSourceTimeout => Sys2Proof.Machine.execPpsSourceTimeout s
  | .sourceRoleEnd cause vbus slow => Sys2Proof.Machine.execSourceRoleEnd cause vbus slow s
  | .cblExitSrc => Sys2Proof.Machine.execCblExitSrc s
  | .dcinEndsSource => Sys2Proof.Machine.execDcinEndsSource s
  | .vconnOcp ma => Sys2Proof.Machine.execVconnOcp ma s
  | .vconnSwap received => Sys2Proof.Machine.execVconnSwap received s
  | .cableDiscoverIdentity answer => Sys2Proof.Machine.execCableDiscoverIdentity answer s
  | .prSwapReceived => Sys2Proof.Machine.execPrSwapReceived s
  | .cblPrSwap => Sys2Proof.Machine.execCblPrSwap s
  | .drSwap => Sys2Proof.Machine.execDrSwap s
  | .frsSignalDetect => Sys2Proof.Machine.execFrsSignalDetect s
  | .frSwapReceived => Sys2Proof.Machine.execFrSwapReceived s
  | .frsTimeout => Sys2Proof.Machine.execFrsTimeout s
  | .softReset received => Sys2Proof.Machine.execSoftReset received s
  | .pdResponseTimeout wait => Sys2Proof.Machine.execPdResponseTimeout wait s
  | .pdNoResponse => Sys2Proof.Machine.execPdNoResponse s
  | .hardReset received => Sys2Proof.Machine.execHardReset received s
  | .cablePulledInTransition => Sys2Proof.Machine.execCablePulledInTransition s
  | .frameShareEnter dir partnerTx partnerRx ack => Sys2Proof.Machine.execFrameShareEnter dir partnerTx partnerRx ack s
  | .cblFsEnter => Sys2Proof.Machine.execCblFsEnter s
  | .cblFsExit => Sys2Proof.Machine.execCblFsExit s
  | .hRstNSourceTimeout vbus => Sys2Proof.Machine.execHRstNSourceTimeout vbus s
  | .ccOvp pads => Sys2Proof.Machine.execCcOvp pads s
  | .sequenceEntryDue e x => Sys2Proof.Machine.execSequenceEntryDue e x s
  | .injectedConversionDone tkt x => Sys2Proof.Machine.execInjectedConversionDone tkt x s
  | .sliceRotation => Sys2Proof.Machine.execSliceRotation s
  | .spareCalibrationDone c => Sys2Proof.Machine.execSpareCalibrationDone c s
  | .adcSliceFault slice timeout tkt => Sys2Proof.Machine.execAdcSliceFault slice timeout tkt s
  | .foregroundCalStart tctl => Sys2Proof.Machine.execForegroundCalStart tctl s
  | .foregroundCalDone tctl refmon consts => Sys2Proof.Machine.execForegroundCalDone tctl refmon consts s
  | .refSettled => Sys2Proof.Machine.execRefSettled s
  | .refMon ppm => Sys2Proof.Machine.execRefMon ppm s
  | .refoutLimit current => Sys2Proof.Machine.execRefoutLimit current s
  | .adcOvr slice tag high t => Sys2Proof.Machine.execAdcOvr slice tag high t s
  | .calDue => Sys2Proof.Machine.execCalDue s
  | .adcClrFence => Sys2Proof.Machine.execAdcClrFence s
  | .journalAppend => Sys2Proof.Machine.execJournalAppend s
  | .holdupAllowanceUpdate vchold => Sys2Proof.Machine.execHoldupAllowanceUpdate vchold s
  | .choldMeasure us current => Sys2Proof.Machine.execCholdMeasure us current s
  | .holdupEvent t => Sys2Proof.Machine.execHoldupEvent t s
  | .resumeStart x => Sys2Proof.Machine.execResumeStart x s
  | .pageClose => Sys2Proof.Machine.execPageClose s
  | .pageCommit => Sys2Proof.Machine.execPageCommit s
  | .nandProgFail => Sys2Proof.Machine.execNandProgFail s
  | .nandEraseDone block ok => Sys2Proof.Machine.execNandEraseDone block ok s
  | .nandEccRead code corrections => Sys2Proof.Machine.execNandEccRead code corrections s
  | .sealBuild status => Sys2Proof.Machine.execSealBuild status s
  | .keepaliveFlush => Sys2Proof.Machine.execKeepaliveFlush s
  | .nandScan torn => Sys2Proof.Machine.execNandScan torn s
  | .journalFull => Sys2Proof.Machine.execJournalFull s
  | .journalFullExit => Sys2Proof.Machine.execJournalFullExit s
  | .jrSummary x => Sys2Proof.Machine.execJrSummary x s
  | .rtcOscFail => Sys2Proof.Machine.execRtcOscFail s
  | .rtcBkpLow mv => Sys2Proof.Machine.execRtcBkpLow mv s
  | .rtcRateCorrection err => Sys2Proof.Machine.execRtcRateCorrection err s
  | .ticketIssue owner stream chan unit dur idem crit => Sys2Proof.Machine.execTicketIssue owner stream chan unit dur idem crit s
  | .tableFull => Sys2Proof.Machine.execTableFull s
  | .ticketRetire num => Sys2Proof.Machine.execTicketRetire num s
  | .ticketDeadline num => Sys2Proof.Machine.execTicketDeadline num s
  | .durableCommit strm => Sys2Proof.Machine.execDurableCommit strm s
  | .ticketFailure num => Sys2Proof.Machine.execTicketFailure num s
  | .heldRetry num ok => Sys2Proof.Machine.execHeldRetry num ok s
  | .faultWordCollect => Sys2Proof.Machine.execFaultWordCollect s
  | .escTrackerExpiry => Sys2Proof.Machine.execEscTrackerExpiry s
  | .faultReaction => Sys2Proof.Machine.execFaultReaction s
  | .degradeClose => Sys2Proof.Machine.execDegradeClose s
  | .fenceLift id => Sys2Proof.Machine.execFenceLift id s
  | .recoveryWindowClear id => Sys2Proof.Machine.execRecoveryWindowClear id s
  | .fltClrPerm => Sys2Proof.Machine.execFltClrPerm s
  | .fltHistClr => Sys2Proof.Machine.execFltHistClr s
  | .twinClaim low => Sys2Proof.Machine.execTwinClaim low s
  | .twinClaimWaitExpiry low => Sys2Proof.Machine.execTwinClaimWaitExpiry low s
  | .twinTrainTimeout => Sys2Proof.Machine.execTwinTrainTimeout s
  | .twinLinkTrained pState sameSequence => Sys2Proof.Machine.execTwinLinkTrained pState sameSequence s
  | .twmCfgDigest h digest position pairId => Sys2Proof.Machine.execTwmCfgDigest h digest position pairId s
  | .twinHeartbeatSend t ika => Sys2Proof.Machine.execTwinHeartbeatSend t ika s
  | .twmHeartbeat h frn sc state mode mirrorWm commitWm allow ika => Sys2Proof.Machine.execTwmHeartbeat h frn sc state mode mirrorWm commitWm allow ika s
  | .twinHbLost => Sys2Proof.Machine.execTwinHbLost s
  | .twinFailover t => Sys2Proof.Machine.execTwinFailover t s
  | .twinResign cause => Sys2Proof.Machine.execTwinResign cause s
  | .twnCtlResign => Sys2Proof.Machine.execTwnCtlResign s
  | .twnCtlEnrol => Sys2Proof.Machine.execTwnCtlEnrol s
  | .twnCtlFork => Sys2Proof.Machine.execTwnCtlFork s
  | .twmMirror h bytes => Sys2Proof.Machine.execTwmMirror h bytes s
  | .twmMirrorAck h jsn => Sys2Proof.Machine.execTwmMirrorAck h jsn s
  | .twmAppend h fwd bytes => Sys2Proof.Machine.execTwmAppend h fwd bytes s
  | .twmResyncReq h fromJsn => Sys2Proof.Machine.execTwmResyncReq h fromJsn s
  | .twmResyncData h bytes => Sys2Proof.Machine.execTwmResyncData h bytes s
  | .twmTime h mode utc tai sub => Sys2Proof.Machine.execTwmTime h mode utc tai sub s
  | .twinTimeSend => Sys2Proof.Machine.execTwinTimeSend s
  | .twmEpochStale h epoch leadPos => Sys2Proof.Machine.execTwmEpochStale h epoch leadPos s
  | .twinMessageRepeat acked => Sys2Proof.Machine.execTwinMessageRepeat acked s
  | .twinFenceRetrain ok => Sys2Proof.Machine.execTwinFenceRetrain ok s
  | .twinResyncFail => Sys2Proof.Machine.execTwinResyncFail s
  | .hpWriteTransfer addr bytes => Sys2Proof.Machine.execHpWriteTransfer addr bytes s
  | .hpReadTransfer addr count => Sys2Proof.Machine.execHpReadTransfer addr count s
  | .hpTransferAbort cut => Sys2Proof.Machine.execHpTransferAbort cut s
  | .hpTimeout completed => Sys2Proof.Machine.execHpTimeout completed s
  | .hpDozeWake addr read => Sys2Proof.Machine.execHpDozeWake addr read s
  | .hpAlertResponse lost => Sys2Proof.Machine.execHpAlertResponse lost s
  | .sbTransaction tkt err data => Sys2Proof.Machine.execSbTransaction tkt err data s
  | .sbArbLost tkt => Sys2Proof.Machine.execSbArbLost tkt s
  | .sbArbFrame tkt restart => Sys2Proof.Machine.execSbArbFrame tkt restart s
  | .sbDeferredStart tkt overrun => Sys2Proof.Machine.execSbDeferredStart tkt overrun s
  | .sbStretchTmo tkt => Sys2Proof.Machine.execSbStretchTmo tkt s
  | .sbBusStuck scl sda => Sys2Proof.Machine.execSbBusStuck scl sda s
  | .sbBusClear ok clocks => Sys2Proof.Machine.execSbBusClear ok clocks s
  | .tabienMessageReceive rx msg crcOk => Sys2Proof.Machine.execTabienMessageReceive rx msg crcOk s
  | .tmAck rx => Sys2Proof.Machine.execTmAck rx s
  | .tabienResendTimer sender => Sys2Proof.Machine.execTabienResendTimer sender s
  | .tabienLinkTraining good => Sys2Proof.Machine.execTabienLinkTraining good s
  | .tmLinkUp rx => Sys2Proof.Machine.execTmLinkUp rx s
  | .tmCmd => Sys2Proof.Machine.execTmCmd s
  | .tmResult => Sys2Proof.Machine.execTmResult s
  | .tmSnap => Sys2Proof.Machine.execTmSnap s
  | .tmEvent => Sys2Proof.Machine.execTmEvent s
  | .tmAdc => Sys2Proof.Machine.execTmAdc s
  | .tmDrainData => Sys2Proof.Machine.execTmDrainData s
  | .tmCfg => Sys2Proof.Machine.execTmCfg s
  | .tmBudget => Sys2Proof.Machine.execTmBudget s
  | .tmXfer => Sys2Proof.Machine.execTmXfer s
  | .tmHfault => Sys2Proof.Machine.execTmHfault s
  | .tmCable => Sys2Proof.Machine.execTmCable s
  | .tmHstatus => Sys2Proof.Machine.execTmHstatus s
  | .tmRdclr => Sys2Proof.Machine.execTmRdclr s
  | .tmJrec => Sys2Proof.Machine.execTmJrec s
  | .tmCfgReq => Sys2Proof.Machine.execTmCfgReq s
  | .tmDrainReq => Sys2Proof.Machine.execTmDrainReq s
  | .tmUpdData => Sys2Proof.Machine.execTmUpdData s
  | .snapStale => Sys2Proof.Machine.execSnapStale s
  | .mbxSubmit => Sys2Proof.Machine.execMbxSubmit s
  | .mbxPop => Sys2Proof.Machine.execMbxPop s
  | .ping strm => Sys2Proof.Machine.execPing strm s
  | .regRead strm => Sys2Proof.Machine.execRegRead strm s
  | .regWrite strm => Sys2Proof.Machine.execRegWrite strm s
  | .adcInject strm => Sys2Proof.Machine.execAdcInject strm s
  | .refchkRun strm mean tctl => Sys2Proof.Machine.execRefchkRun strm mean tctl s
  | .calStage strm => Sys2Proof.Machine.execCalStage strm s
  | .calCommit strm readsBack => Sys2Proof.Machine.execCalCommit strm readsBack s
  | .kaStatement strm => Sys2Proof.Machine.execKaStatement strm s
  | .timeSet strm => Sys2Proof.Machine.execTimeSet strm s
  | .release strm => Sys2Proof.Machine.execRelease strm s
  | .sbXfer strm => Sys2Proof.Machine.execSbXfer strm s
  | .streamReset strm => Sys2Proof.Machine.execStreamReset strm s
  | .registerWrite addr value => Sys2Proof.Machine.execRegisterWrite addr value s
  | .drnStatus bytes => Sys2Proof.Machine.execDrnStatus bytes s
  | .drnIdent bytes => Sys2Proof.Machine.execDrnIdent bytes s
  | .drnRead bytes => Sys2Proof.Machine.execDrnRead bytes s
  | .drnReadQ bytes => Sys2Proof.Machine.execDrnReadQ bytes s
  | .drnRequest block => Sys2Proof.Machine.execDrnRequest block s
  | .drnGo => Sys2Proof.Machine.execDrnGo s
  | .readJsn => Sys2Proof.Machine.execReadJsn s
  | .readCert => Sys2Proof.Machine.execReadCert s
  | .drainAbort => Sys2Proof.Machine.execDrainAbort s
  | .drnWrite ofs data => Sys2Proof.Machine.execDrnWrite ofs data s
  | .drnWriteQ ofs data => Sys2Proof.Machine.execDrnWriteQ ofs data s
  | .pwrReqChange high => Sys2Proof.Machine.execPwrReqChange high s
  | .hostPwr strm => Sys2Proof.Machine.execHostPwr strm s
  | .hcoreDoze => Sys2Proof.Machine.execHcoreDoze s
  | .hcoreWake repairParity => Sys2Proof.Machine.execHcoreWake repairParity s
  | .keepaliveEntry => Sys2Proof.Machine.execKeepaliveEntry s
  | .keepaliveDomainSwitch => Sys2Proof.Machine.execKeepaliveDomainSwitch s
  | .keepaliveTicketTimeout => Sys2Proof.Machine.execKeepaliveTicketTimeout s
  | .keepaliveWake ms repairParity => Sys2Proof.Machine.execKeepaliveWake ms repairParity s
  | .keepaliveSecondWake vbat ibat vka ika vqr1 vqr2 tctl tpack vchold => Sys2Proof.Machine.execKeepaliveSecondWake vbat ibat vka ika vqr1 vqr2 tctl tpack vchold s
  | .shipNHold => Sys2Proof.Machine.execShipNHold s
  | .shipEnter strm => Sys2Proof.Machine.execShipEnter strm s
  | .shipEntry qualifiedBefore => Sys2Proof.Machine.execShipEntry qualifiedBefore s
  | .shipWake bySource vbkpHeld => Sys2Proof.Machine.execShipWake bySource vbkpHeld s
  | .coldStart x => Sys2Proof.Machine.execColdStart x s
  | .warmStart x => Sys2Proof.Machine.execWarmStart x s
  | .fieldWReset cause => Sys2Proof.Machine.execFieldWReset cause s
  | .hostWReset cause => Sys2Proof.Machine.execHostWReset cause s
  | .fieldPinReset low => Sys2Proof.Machine.execFieldPinReset low s
  | .hostPinReset low => Sys2Proof.Machine.execHostPinReset low s
  | .faonPowerLoss letter => Sys2Proof.Machine.execFaonPowerLoss letter s
  | .svcChallenge strm => Sys2Proof.Machine.execSvcChallenge strm s
  | .svcEnter strm => Sys2Proof.Machine.execSvcEnter strm s
  | .svcExit strm => Sys2Proof.Machine.execSvcExit strm s
  | .keyEnrol strm => Sys2Proof.Machine.execKeyEnrol strm s
  | .cfgStage strm => Sys2Proof.Machine.execCfgStage strm s
  | .cfgCommit strm readsBack => Sys2Proof.Machine.execCfgCommit strm readsBack s
  | .fieldReset strm => Sys2Proof.Machine.execFieldReset strm s
  | .serviceTimeout => Sys2Proof.Machine.execServiceTimeout s
  | .serviceLockoutEnd => Sys2Proof.Machine.execServiceLockoutEnd s
  | .wdgServiceWrite side key => Sys2Proof.Machine.execWdgServiceWrite side key s
  | .wdgForeignWrite writer => Sys2Proof.Machine.execWdgForeignWrite writer s
  | .wdgWindowOpen side => Sys2Proof.Machine.execWdgWindowOpen side s
  | .wdgWindowClose side => Sys2Proof.Machine.execWdgWindowClose side s
  | .wdgStartTimeout side => Sys2Proof.Machine.execWdgStartTimeout side s
  | .checkinWrite e => Sys2Proof.Machine.execCheckinWrite e s
  | .memorySelftestMacro side id defects spareBad => Sys2Proof.Machine.execMemorySelftestMacro side id defects spareBad s
  | .bistBurn side bad => Sys2Proof.Machine.execBistBurn side bad s
  | .bistEngTest => Sys2Proof.Machine.execBistEngTest s
  | .updBegin strm => Sys2Proof.Machine.execUpdBegin strm s
  | .updChunk strm => Sys2Proof.Machine.execUpdChunk strm s
  | .updBlockWrite readsBack => Sys2Proof.Machine.execUpdBlockWrite readsBack s
  | .updFinish strm => Sys2Proof.Machine.execUpdFinish strm s
  | .updActivate strm => Sys2Proof.Machine.execUpdActivate strm s
  | .updAbort strm => Sys2Proof.Machine.execUpdAbort strm s
  | .updQuery strm => Sys2Proof.Machine.execUpdQuery strm s
  | .updRevert strm => Sys2Proof.Machine.execUpdRevert strm s
  | .handoverStart => Sys2Proof.Machine.execHandoverStart s
  | .handoverReady us len => Sys2Proof.Machine.execHandoverReady us len s
  | .handoverFallback unreadable us len => Sys2Proof.Machine.execHandoverFallback unreadable us len s
  | .probationPass => Sys2Proof.Machine.execProbationPass s
  | .probationFail cause => Sys2Proof.Machine.execProbationFail cause s
  | .lbStart side => Sys2Proof.Machine.execLbStart side s
  | .lbRunEnd side back run value => Sys2Proof.Machine.execLbRunEnd side back run value s
  | .lbTimeout side => Sys2Proof.Machine.execLbTimeout side s
  | .fiArm => Sys2Proof.Machine.execFiArm s
  | .fiInject => Sys2Proof.Machine.execFiInject s
  | .fvioLow => Sys2Proof.Machine.execFvioLow s
  | .hvioLow => Sys2Proof.Machine.execHvioLow s
  | .testPadHigh pads => Sys2Proof.Machine.execTestPadHigh pads s
  | .errorRecoveryExit => Sys2Proof.Machine.execErrorRecoveryExit s
  | .lossOfLock rx => Sys2Proof.Machine.execLossOfLock rx s
  | .fVioReturn => Sys2Proof.Machine.execFVioReturn s
  | .hVioReturn => Sys2Proof.Machine.execHVioReturn s
  | .twinLinkCrc => Sys2Proof.Machine.execTwinLinkCrc s
  | .kaThermalFold temp => Sys2Proof.Machine.execKaThermalFold temp s

end Sys2Proof.Machine
end

