-- ==== Sys2Proof/Safety.lean ====
section
/-! DEFINITION. The terms that the statements use: the canonical form of the field store, what is recorded where, and the
conditions under which the spec lets freeze be entered, and the frame of a command: what it leaves as it was. -/

namespace Sys2Proof.Machine

/-- The register store is in its canonical form: keys strictly rising, so that equal stores are equal data. -/
def Regs.wf (rs : Regs) : Prop := (rs.map Prod.fst).Pairwise (· < ·)

/-- The first power-up leaves the store in its canonical form: nothing is listed. -/
theorem reset_regs_wf : Regs.wf State.reset.hw.regs := List.Pairwise.nil

/-- One fault word of a kind, a source and a detail has been recorded on the field side: it stands last in the collector's
32-entry input stage, or is counted as lost there (R334). -/
abbrev Hw.said (m m' : Hw) (k : FaultKind) (src d : Nat) : Prop :=
  m'.flt.input = pushWord 32 0x10 ⟨src, k.code, k.sev, satN 14 d⟩ m.flt.input

/-- The same on the host side, in the 16-entry host fault buffer (R40). -/
abbrev Hw.hsaid (m m' : Hw) (k : FaultKind) (src d : Nat) : Prop :=
  m'.flt.hostBuf = pushWord 16 0x3E ⟨src, k.code, k.sev, satN 14 d⟩ m.flt.hostBuf

/-- One record of a kind and a source has been submitted, behind those that were (R272, R281). -/
def Hw.filed (m m' : Hw) (k : RecKind) (src : Nat) : Prop :=
  ∃ r : JRec, m'.sub.map Append.r = m.sub.map Append.r ++ [r] ∧ r.kind = k.code ∧ r.src = src

/-- Everything that R68 asks for freeze to be admitted in thaw, outside SOURCE: configuration applied, a pack, a BATFET
that conducts, V_BAT 200 mV above VSYS_MIN, no PRECHARGE, the pack current of the last freeze within its limits. -/
abbrev Hw.mayFreeze (m : Hw) (a : Admit) : Prop :=
  m.freezeAllowed = true ∧ m.frozen = false ∧ m.seq.removedHold = false ∧ m.packIn = true ∧ m.bat.ocpOpen = false ∧
    m.bat.latched = false ∧ m.rd Reg.VSYS_MIN_MIN * 10 + 200 ≤ a.vbat ∧ m.rd Reg.CHG_STATUS_STATE ≠ chgPRECHARGE ∧
    m.packOver = false ∧ m.seq.len ≤ 30720000000 ∧ m.mode ≠ modeSOURCE

/-- No safety timer that runs has reached its length (R149, R157). -/
abbrev Hw.timersRun (m : Hw) : Prop :=
  (m.preRuns = true → m.chg.preTime < m.preLength) ∧ (m.fastRuns = true → m.chg.fastTime < m.fastLength)

/-- The RAIL stream has a place for the ticket of a command on rail `n` (R314, R528). -/
abbrev Hw.railRoom (m : Hw) (n : Nat) : Prop :=
  m.mayIssue 19 false = true ∧ m.lbHolds 19 (if n < 3 then 0x24 + n else 0) = false

/-- A host command of a code on a stream is next and nothing holds it back or refuses it outright: no earlier action of its
stream is open, its engine is there, and permafrost, SERVICE, a permanent fence, its length and a full journal allow it
(R321, R322, R341, R415). -/
abbrev Hw.turn (m : Hw) (n code : Nat) (c : HostCmd) : Prop :=
  m.nextCmd n code = some c ∧ c.hostSide = false ∧ m.mustWait c = false ∧ m.gate c = none

/-- A taken command has its answer (R415). -/
abbrev Hw.answered (m : Hw) (c : HostCmd) (status : Nat) : Prop :=
  ∃ d ∈ m.host.work, d.stream = c.stream ∧ d.seq = c.seq ∧ d.stage = 3 ∧ d.status = status

/-- A taken command is answered OK with these data (R415). -/
abbrev Hw.answeredWith (m : Hw) (c : HostCmd) (data : List Byte) : Prop :=
  ∃ d ∈ m.host.work, d.stream = c.stream ∧ d.seq = c.seq ∧ d.stage = 3 ∧ d.status = stOK ∧ d.data = data

/-- A durable command is validated, and its record's space is reserved (R320, R321). -/
abbrev Hw.reserves (m : Hw) (c : HostCmd) : Prop :=
  ∃ d ∈ m.host.work, d.stream = c.stream ∧ d.seq = c.seq ∧ d.stage = 1

/-- The record of a durable command fits beside what is staged and reserved (R320). -/
abbrev Hw.roomFor (m : Hw) (c : HostCmd) : Prop :=
  m.rd Reg.JRN_STAGE_STAGED + m.reservedSpace + recordCost c.cmd c.args.length ≤ m.allow

/-- A validated command may be committed at once: the module numbers its journal alone, the command's engine is there,
and no hold-up is in force (R321). -/
abbrev Hw.mayCommit (m : Hw) (n : Nat) (c : HostCmd) : Prop :=
  m.toCommit n = some c ∧ c.hostSide = false ∧ m.on Reg.TWN_CFG_EN = false ∧ m.permFenced (cmdEngine c.cmd) = false ∧
    m.away (cmdEngine c.cmd) = false ∧ m.on Reg.JRN_STATUS_HOLDUP = false

/-- F7 TWIN takes a message of the partner: the link is trained and not fenced, the engine is there, the message's LSEQ
has not been taken, and its role epoch is not behind (R349, R367). -/
abbrev Hw.takesTwm (m : Hw) (h : TwmHead) : Prop :=
  m.twinData = true ∧ m.lseqTaken h.lseq = false ∧ m.rd Reg.TWN_EPOCH_EPOCH ≤ h.epoch

/-- The bits of the word at `a` that a field takes (the register tables of spec/): a field of more than 32 bits goes on in
the word behind its own. -/
def Field.covers (f : Field) (a i : Nat) : Prop :=
  if 32 < f.width then (if a = f.addr then i < 32 else i + 32 < f.width) else f.lsbIn a ≤ i ∧ i < f.lsbIn a + f.width

/-- A bit of the word at `a` that no field takes: a reserved bit (R8). -/
def reservedBit (a i : Nat) : Prop := ∀ f ∈ Reg.fieldsAt a, ¬f.covers a i

/-- The fields of a word under a masked write, before its control bits act. -/
def Hw.stored (m : Hw) (a mask value : Nat) : Hw :=
  (Reg.fieldsAt a).foldl (fun m f => m.writeField a mask value f) m

/-- The bounds of the block's stores: 512 tickets of different numbers (R312), 32 words in the collector's input stage
(R334) and 16 in the host fault buffer (R40), 64 history entries (R337), 64 trackers (R336). -/
def Hw.bounded (m : Hw) : Prop :=
  m.tkt.table.length ≤ 512 ∧ (m.tkt.table.map Ticket.num).Nodup ∧ m.flt.input.length ≤ 32 ∧
    m.flt.hostBuf.length ≤ 16 ∧ m.flt.hist.length ≤ 64 ∧ m.flt.trackers.length ≤ 64

/-- The parts of the block beside its registers, as a frame names them: the fields of `Hw`, the shared units by their own
fields, and the stores that outlive a loss of power apart from the rest of their unit. -/
inductive Part where
  | engines | domains | sidebands | latches | resetNote | seq | intake | xfer | ph | bat | chg | rails | rl | cable |
  faultInput | hostFaults | history | trackers | overrides | fences | recoveries | partFaults | histRead | latchFn |
  linkHost | linkField | mailbox | snapshot | drain | work | results | stream7 | alertPad | hostReady | pinLow |
  hostBusy | eventLevel | fieldAsleep | cfgCopies | modes | calCopies | adc | nand | journal | tickets | orders |
  waits | fullRun | stopped | twin | hp | bus | wdg | hwdg | bist | slots | update | lb | sub | freeCtr
deriving DecidableEq, Repr

/-- A part stands in `m'` as it did in `m`. -/
def Hw.same (m m' : Hw) : Part → Prop
  | .engines => m'.arch.engines = m.arch.engines
  | .domains => m'.arch.domains = m.arch.domains ∧ m'.arch.subs = m.arch.subs
  | .sidebands => m'.arch.sb = m.arch.sb
  | .latches => m'.arch.shadows = m.arch.shadows ∧ m'.arch.xferCtl = m.arch.xferCtl ∧ m'.arch.frzPol = m.arch.frzPol
  | .resetNote => m'.arch.hostFieldReset = m.arch.hostFieldReset ∧ m'.arch.hostResetAs = m.arch.hostResetAs
  | .seq => m'.seq = m.seq
  | .intake => m'.intake = m.intake
  | .xfer => m'.xfer = m.xfer
  | .ph => m'.ph = m.ph
  | .bat => m'.bat = m.bat
  | .chg => m'.chg = m.chg
  | .rails => m'.rails = m.rails
  | .rl => m'.rl = m.rl
  | .cable => m'.cable = m.cable
  | .faultInput => m'.flt.input = m.flt.input ∧ m'.flt.inputAt = m.flt.inputAt ∧ m'.flt.hostAt = m.flt.hostAt
  | .hostFaults => m'.flt.hostBuf = m.flt.hostBuf
  | .history => m'.flt.hist = m.flt.hist
  | .trackers => m'.flt.trackers = m.flt.trackers
  | .overrides => m'.flt.overrides = m.flt.overrides
  | .fences => m'.flt.fences = m.flt.fences
  | .recoveries => m'.flt.recoveries = m.flt.recoveries
  | .partFaults => m'.flt.parts = m.flt.parts
  | .histRead => m'.flt.histRead = m.flt.histRead
  | .latchFn => m'.flt.latchFn = m.flt.latchFn
  | .linkHost => m'.host.h = m.host.h
  | .linkField => m'.host.f = m.host.f
  | .mailbox => m'.host.mbx = m.host.mbx
  | .snapshot => m'.host.snap = m.host.snap
  | .drain => m'.host.drain = m.host.drain
  | .work => m'.host.work = m.host.work
  | .results => m'.host.cache = m.host.cache
  | .stream7 => m'.host.n7 = m.host.n7
  | .alertPad => m'.host.alert = m.host.alert
  | .hostReady => m'.host.hReady = m.host.hReady
  | .pinLow => m'.host.pinLow = m.host.pinLow
  | .hostBusy => m'.host.busy = m.host.busy
  | .eventLevel => m'.host.eventFn = m.host.eventFn
  | .fieldAsleep => m'.host.fieldAsleep = m.host.fieldAsleep
  | .cfgCopies => m'.modes.copyA = m.modes.copyA ∧ m'.modes.copyB = m.modes.copyB ∧ m'.modes.keySlot = m.modes.keySlot
  | .modes => m'.modes = { m.modes with copyA := m'.modes.copyA, copyB := m'.modes.copyB, keySlot := m'.modes.keySlot }
  | .calCopies => m'.adc.copyA = m.adc.copyA ∧ m'.adc.copyB = m.adc.copyB
  | .adc => m'.adc = { m.adc with copyA := m'.adc.copyA, copyB := m'.adc.copyB }
  | .nand => m'.jrn.blocks = m.jrn.blocks
  | .journal => m'.jrn = { m.jrn with blocks := m'.jrn.blocks }
  | .tickets => m'.tkt.table = m.tkt.table
  | .orders => m'.tkt.orders = m.tkt.orders
  | .waits => m'.tkt.waits = m.tkt.waits
  | .fullRun => m'.tkt.fullRun = m.tkt.fullRun
  | .stopped => m'.tkt.stopped = m.tkt.stopped
  | .twin => m'.twin = m.twin
  | .hp => m'.hp = m.hp
  | .bus => m'.bus = m.bus
  | .wdg => m'.wdg = m.wdg
  | .hwdg => m'.hwdg = m.hwdg
  | .bist => m'.bist = m.bist
  | .slots => m'.upd.slots = m.upd.slots
  | .update => m'.upd = { m.upd with slots := m'.upd.slots }
  | .lb => m'.lb = m.lb
  | .sub => m'.sub = m.sub
  | .freeCtr => m'.freeCtr = m.freeCtr

/-- What a command may change: a part, one register field, one field of an array of registers, or every register of a
side. -/
inductive Touch where
  | part (p : Part)
  | reg (f : Field)
  | array (g : Nat → Field)
  | fieldSide
  | hostSide

/-- A touch names a register field: a field has its place at the key of its register and least bit. -/
def Touch.names : Touch → Field → Prop
  | .part _, _ => False
  | .reg g, f => f.key = g.key
  | .array g, f => ∃ n, f.key = (g n).key
  | .fieldSide, f => isFieldAddr (f.key / 32) = true
  | .hostSide, f => isFieldAddr (f.key / 32) = false

/-- Parts that may change. -/
def parts (l : List Part) : List Touch := l.map .part

/-- Register fields that may change. -/
def regs (l : List Field) : List Touch := l.map .reg

/-- Fields of arrays of registers that may change. -/
def arrays (l : List (Nat → Field)) : List Touch := l.map .array

/-- The frame of a command: every part and every register field that no touch names is as it was. -/
def Hw.leaves (m m' : Hw) (l : List Touch) : Prop :=
  (∀ p, Touch.part p ∉ l → m.same m' p) ∧ ∀ f, (∀ x ∈ l, ¬x.names f) → m'.rd f = m.rd f

/-- What changes with a host command, or a bus transaction, that ends with a result (R323, R415). -/
def Touch.answering : List Touch :=
  parts [.linkField, .mailbox, .work, .results, .stream7, .alertPad, .adc, .tickets, .orders, .waits, .bus, .sub] ++
  regs [Reg.ALERT_SRC_SRC, Reg.MBX_EVENTS_VOIDS, Reg.MBX_RES_INFO_LEN, Reg.MBX_RES_INFO_STREAM, Reg.MBX_STATUS_FULL,
  Reg.MBX_STATUS_PLACES, Reg.MBX_STATUS_RESULTS, Reg.TKT_STATUS_FULL, Reg.TKT_STATUS_HELD, Reg.TKT_STATUS_HELD_STREAM,
  Reg.TKT_STATUS_HWM, Reg.TKT_STATUS_INFLIGHT] ++ arrays [Reg.HOST_SEQ_N, Reg.MBX_RES_RESULT]

/-- What changes with a record submitted to the journal (R281). -/
def Touch.appending : List Touch :=
  parts [.rails, .faultInput, .history, .adc, .journal, .tickets, .orders, .waits, .twin, .bus, .sub] ++ regs
  [Reg.FLT_STATUS_LOST, Reg.JRN_NEXT_JSN, Reg.JRN_REFUSED_NONCRIT, Reg.JRN_REFUSED_WAITS, Reg.JRN_STAGE_STAGED,
  Reg.JRN_STATUS_SEALING, Reg.TKT_STATUS_FULL, Reg.TKT_STATUS_HELD, Reg.TKT_STATUS_HELD_STREAM, Reg.TKT_STATUS_HWM,
  Reg.TKT_STATUS_INFLIGHT, Reg.TWN_PEND_BYTES, Reg.TWN_PEND_LOST]

/-- What changes with the sensor bus as it runs. -/
def Touch.busRun : List Touch :=
  parts [.tickets, .bus] ++ regs [Reg.SB_STATUS_BUSY, Reg.SB_STATUS_WAIT_THAW, Reg.TKT_STATUS_FULL,
  Reg.TKT_STATUS_HELD, Reg.TKT_STATUS_HELD_STREAM, Reg.TKT_STATUS_HWM, Reg.TKT_STATUS_INFLIGHT]

/-- What changes with a transaction of the sensor bus. -/
def Touch.busTransaction : List Touch :=
  parts [.rl] ++ regs [Reg.RL_STATUS_EVQ, Reg.RL_STATUS_SPEED]

/-- What changes with a change of the charging state (R150). -/
def Touch.charging : List Touch :=
  parts [.sidebands, .latches, .chg, .cable, .faultInput, .hostFaults, .alertPad, .adc, .tickets, .orders, .waits,
  .bus, .update, .sub] ++ regs [Reg.ALERT_SRC_SRC, Reg.BATFET_STATUS_STATE, Reg.CHG_I_SET, Reg.CHG_STATUS_EN,
  Reg.CHG_STATUS_FAULT_LATCH, Reg.CHG_STATUS_STATE, Reg.CHG_V_SET, Reg.FLT_STATUS_LOST, Reg.STAT_LATCH_EVENTS,
  Reg.STAT_LATCH_FN, Reg.STAT_LATCH_PADS, Reg.TKT_STATUS_FULL, Reg.TKT_STATUS_HELD, Reg.TKT_STATUS_HELD_STREAM,
  Reg.TKT_STATUS_HWM, Reg.TKT_STATUS_INFLIGHT]

/-- What changes with the commit of pages (R288). -/
def Touch.committing : List Touch :=
  parts [.partFaults, .work, .adc, .nand, .journal, .tickets, .orders, .waits, .bus, .sub] ++ regs
  [Reg.JRN_BLOCKS_BAD, Reg.JRN_BLOCKS_FREE, Reg.JRN_BLOCKS_RING, Reg.JRN_COMMIT_JSN, Reg.JRN_OLDEST_JSN,
  Reg.JRN_SEALED_EPOCH, Reg.JRN_STAGE_STAGED, Reg.JRN_WEAR_MAX_PE, Reg.JRN_WEAR_MEAN_PE, Reg.TKT_STATUS_FULL,
  Reg.TKT_STATUS_HELD, Reg.TKT_STATUS_HELD_STREAM, Reg.TKT_STATUS_HWM, Reg.TKT_STATUS_INFLIGHT]

/-- What changes with the fields of a contract that has ended (R216). -/
def Touch.contractGone : List Touch :=
  parts [.cable] ++ regs [Reg.CBL_CONTRACT_CURR, Reg.CBL_CONTRACT_POS, Reg.CBL_CONTRACT_ROLE, Reg.CBL_CONTRACT_TYPE,
  Reg.CBL_CONTRACT_VOLT, Reg.CBL_STATUS_EPR, Reg.CBL_STATUS_EXPLICIT, Reg.CBL_STATUS_FRS_ARMED,
  Reg.CBL_STATUS_MISMATCH]

/-- What changes with a critical ring with no free block (R296). -/
def Touch.critFull : List Touch :=
  parts [.faultInput, .journal] ++ regs [Reg.FLT_STATUS_LOST]

/-- What changes with a message taken from the link (R405). -/
def Touch.delivering : List Touch :=
  parts [.adc] ++ regs [Reg.ADC_Q_FRN_FRN, Reg.ADC_Q_HWM, Reg.ADC_Q_LEVEL]

/-- What changes with a fast role swap that is no longer armed (R229). -/
def Touch.disarming : List Touch :=
  parts [.wdg, .hwdg] ++ regs [Reg.HWDG_STATUS_ARMED, Reg.HWDG_STATUS_SEEN, Reg.WDG_CHECKIN_EXCUSED,
  Reg.WDG_CHECKIN_SEEN, Reg.WDG_STATUS_ARMED, Reg.WDG_STATUS_FRAME, Reg.WDG_STATUS_SERVED, Reg.WDG_STATUS_WINDOW]

/-- What changes with the drain buffer (R422). -/
def Touch.draining : List Touch :=
  parts [.sidebands, .hostFaults, .linkHost, .mailbox, .drain, .alertPad, .update] ++ regs [Reg.ALERT_SRC_SRC,
  Reg.DRN_EVENTS_ABORTS, Reg.DRN_EVENTS_FORMAT_ERRS, Reg.DRN_NEXT_JSN, Reg.DRN_STATUS_AVAIL, Reg.DRN_STATUS_END,
  Reg.DRN_STATUS_REQ_OPEN, Reg.DRN_TAG_TAG]

/-- What changes with a durable command or a mirrored record whose record has been accepted (R320, R362). -/
def Touch.durable : List Touch :=
  parts [.engines, .sidebands, .latches, .xfer, .ph, .bat, .chg, .rails, .rl, .cable, .faultInput, .hostFaults,
  .history, .fences, .linkHost, .linkField, .mailbox, .drain, .work, .results, .stream7, .alertPad, .hostBusy,
  .cfgCopies, .modes, .calCopies, .adc, .nand, .journal, .tickets, .orders, .waits, .stopped, .twin, .bus, .wdg,
  .hwdg, .bist, .update, .lb, .sub] ++ regs [Reg.ADC_Q_FRN_FRN, Reg.ADC_Q_HWM, Reg.ADC_Q_LEVEL, Reg.ADC_STATUS_ACTIVE,
  Reg.ADC_STATUS_FENCED, Reg.ADC_STATUS_FGCAL, Reg.ADC_STATUS_ROT_STOP, Reg.ADC_STATUS_SPARE, Reg.ALERT_SRC_SRC,
  Reg.BATFET_STATUS_STATE, Reg.CHG_I_SET, Reg.CHG_STATUS_EN, Reg.CHG_STATUS_FAULT_LATCH, Reg.CHG_STATUS_STATE,
  Reg.CHG_V_SET, Reg.DRN_STATUS_FENCED, Reg.FI_CTL_ARM, Reg.FLT_FENCE_E_FIELD, Reg.FLT_FENCE_E_HOST,
  Reg.FLT_FENCE_U_UNITS, Reg.FLT_PERM_E_ENGINES, Reg.FLT_PERM_U_UNITS, Reg.FLT_STATUS_DEGRADED, Reg.FLT_STATUS_LEVEL,
  Reg.FLT_STATUS_LOST, Reg.FLT_STATUS_OPEN, Reg.HLB_STATUS_ERRORS, Reg.HLB_STATUS_REASON, Reg.HLB_STATUS_STATE,
  Reg.HP_STATUS_FENCED, Reg.JRN_BLOCKS_BAD, Reg.JRN_BLOCKS_FREE, Reg.JRN_BLOCKS_RING, Reg.JRN_COMMIT_JSN,
  Reg.JRN_NEXT_JSN, Reg.JRN_OLDEST_JSN, Reg.JRN_RELEASED_EPOCH, Reg.JRN_SEALED_EPOCH, Reg.JRN_STAGE_STAGED,
  Reg.JRN_STATUS_SEALING, Reg.JRN_WEAR_MAX_PE, Reg.JRN_WEAR_MEAN_PE, Reg.LB_ERRS_ERRORS, Reg.LB_STATUS_REASON,
  Reg.LB_STATUS_SENT, Reg.LB_STATUS_STATE, Reg.MBX_EVENTS_VOIDS, Reg.MBX_RES_INFO_LEN, Reg.MBX_RES_INFO_STREAM,
  Reg.MBX_STATUS_FULL, Reg.MBX_STATUS_PLACES, Reg.MBX_STATUS_RESULTS, Reg.MODE_STATUS_PWR_REQ, Reg.PH_STATUS_ACTIVE,
  Reg.PH_STATUS_BAND, Reg.PH_STATUS_CMODE, Reg.PH_STATUS_ENTRY, Reg.PH_STATUS_FENCED, Reg.PH_STATUS_LATCHED,
  Reg.RAIL_STATUS_KA_STBY, Reg.RAIL_STATUS_POL_LATCHED, Reg.RAIL_STATUS_POL_ON, Reg.RAIL_STATUS_POL_REG,
  Reg.RAIL_STATUS_POL_SLEW, Reg.RAIL_STATUS_QR_ON, Reg.RL_STATUS_EVQ, Reg.RTC_SEC_TAI, Reg.RTC_STATUS_SET_EVT,
  Reg.RTC_STATUS_VALID, Reg.RTC_SUB_SUB, Reg.RTC_UTC_OFFSET, Reg.SB_STATUS_FENCED, Reg.SB_STATUS_MULTI,
  Reg.STAT_LATCH_EVENTS, Reg.STAT_LATCH_FN, Reg.STAT_LATCH_PADS, Reg.SVC_STATUS_FAILS, Reg.SVC_STATUS_KEY_ENROLLED,
  Reg.SVC_STATUS_REQ_SIGNED, Reg.TKT_EPOCH_EPOCH, Reg.TKT_EVENTS_VOIDED, Reg.TKT_STATUS_FULL, Reg.TKT_STATUS_HELD,
  Reg.TKT_STATUS_HELD_STREAM, Reg.TKT_STATUS_HWM, Reg.TKT_STATUS_INFLIGHT, Reg.TWN_EPOCH_EPOCH, Reg.TWN_LAST_FRN,
  Reg.TWN_PEND_BYTES, Reg.TWN_STATUS_DET, Reg.TWN_STATUS_RESYNC, Reg.TWN_STATUS_ROLE_CHG, Reg.TWN_STATUS_SEQ_ID,
  Reg.TWN_STATUS_STATE] ++ arrays [Reg.HOST_SEQ_N, Reg.MBX_RES_RESULT]

/-- What changes with history entries that close (R339). -/
def Touch.entriesClosed : List Touch :=
  parts [.history] ++ regs [Reg.FLT_STATUS_DEGRADED, Reg.FLT_STATUS_LEVEL, Reg.FLT_STATUS_OPEN]

/-- What changes with a history entry that opens (R337). -/
def Touch.entryOpens : List Touch :=
  parts [.faultInput, .adc, .freeCtr] ++ regs [Reg.ADC_EVENTS_OVR, Reg.FLT_STATUS_LOST] ++ arrays [Reg.ADC_LAST_FLAGS,
  Reg.ADC_LAST_VALUE]

/-- What changes with a loss of F-AON power (R458). -/
def Touch.fieldLost : List Touch :=
  parts [.engines, .domains, .sidebands, .latches, .seq, .xfer, .ph, .bat, .chg, .rails, .rl, .cable, .faultInput,
  .history, .trackers, .overrides, .fences, .recoveries, .partFaults, .histRead, .latchFn, .linkField, .drain, .work,
  .results, .alertPad, .modes, .adc, .journal, .tickets, .orders, .waits, .fullRun, .stopped, .twin, .bus, .wdg,
  .bist, .update, .lb, .sub] ++ regs [Reg.ALERT_SRC_SRC, Reg.BATFET_STATUS_STATE, Reg.DRN_NEXT_JSN,
  Reg.DRN_STATUS_AVAIL, Reg.DRN_STATUS_END, Reg.DRN_STATUS_FENCED, Reg.DRN_STATUS_REQ_OPEN, Reg.HP_STATUS_FENCED,
  Reg.ID_STATUS_FIELD_READY, Reg.ID_STATUS_LINK, Reg.JRN_BLOCKS_BAD, Reg.JRN_BLOCKS_FREE, Reg.JRN_BLOCKS_RING,
  Reg.JRN_NEXT_JSN, Reg.JRN_OLDEST_JSN, Reg.JRN_STAGE_STAGED, Reg.JRN_STATUS_SEALING, Reg.JRN_WEAR_MAX_PE,
  Reg.JRN_WEAR_MEAN_PE, Reg.TL_F_STATUS_STATE, Reg.TL_H_STATUS_STATE]

/-- What changes with a reset of the field side (R449). -/
def Touch.fieldReset : List Touch :=
  parts [.engines, .sidebands, .latches, .seq, .ph, .bat, .chg, .rails, .rl, .cable, .faultInput, .hostFaults,
  .history, .linkHost, .linkField, .mailbox, .drain, .work, .results, .stream7, .alertPad, .modes, .adc, .journal,
  .tickets, .orders, .waits, .fullRun, .stopped, .twin, .hp, .bus, .wdg, .hwdg, .bist, .slots, .update, .lb, .sub] ++
  regs [Reg.ADC_Q_FRN_FRN, Reg.ADC_Q_HWM, Reg.ADC_Q_LEVEL, Reg.ALERT_SRC_SRC, Reg.BATFET_STATUS_STATE, Reg.CHG_I_SET,
  Reg.CHG_STATUS_EN, Reg.CHG_STATUS_FAULT_LATCH, Reg.CHG_STATUS_STATE, Reg.CHG_V_SET, Reg.DRN_NEXT_JSN,
  Reg.DRN_STATUS_AVAIL, Reg.DRN_STATUS_END, Reg.DRN_STATUS_REQ_OPEN, Reg.FI_CTL_ARM, Reg.FLT_STATUS_DEGRADED,
  Reg.FLT_STATUS_LEVEL, Reg.FLT_STATUS_LOST, Reg.FLT_STATUS_OPEN, Reg.FRM_FRZ_MAX_MAX, Reg.FRM_STATUS_APT,
  Reg.FRM_STATUS_FRZ, Reg.HUPD_SEL_PROB, Reg.HUPD_SEL_SLOT, Reg.HUPD_STATUS_STATE, Reg.HWDG_STATUS_ARMED,
  Reg.HWDG_STATUS_SEEN, Reg.ID_STATUS_FIELD_READY, Reg.ID_STATUS_LINK, Reg.JRN_NEXT_JSN, Reg.JRN_STATUS_SEALING,
  Reg.MBX_EVENTS_VOIDS, Reg.MBX_RES_INFO_LEN, Reg.MBX_RES_INFO_STREAM, Reg.MBX_STATUS_FULL, Reg.MBX_STATUS_PLACES,
  Reg.MBX_STATUS_RESULTS, Reg.PACK_SBS_ICHG_REQ, Reg.PACK_SBS_STATUS, Reg.PACK_SBS_V_VCHG_REQ, Reg.PACK_SBS_V_VOLT,
  Reg.PH_STATUS_ENTRY, Reg.PH_STATUS_FROZEN, Reg.RAIL_STATUS_HOLD_ACT, Reg.RAIL_STATUS_KA_STBY, Reg.RL_STATUS_EVQ,
  Reg.RL_STATUS_SESSION, Reg.RL_STATUS_SPEED, Reg.SB_STATUS_BUSY, Reg.SB_STATUS_CLEARING, Reg.SB_STATUS_MULTI,
  Reg.SB_STATUS_WAIT_THAW, Reg.START_INFO_KIND, Reg.START_INFO_LAST_MS, Reg.STAT_LATCH_EVENTS, Reg.STAT_LATCH_FN,
  Reg.STAT_LATCH_PADS, Reg.TKT_EPOCH_EPOCH, Reg.TKT_EVENTS_VOIDED, Reg.TKT_STATUS_FULL, Reg.TKT_STATUS_HELD,
  Reg.TKT_STATUS_HELD_STREAM, Reg.TKT_STATUS_HWM, Reg.TKT_STATUS_INFLIGHT, Reg.TL_F_STATUS_EPOCH,
  Reg.TL_F_STATUS_STATE, Reg.TL_H_STATUS_STATE, Reg.TWN_STATUS_CFG_MATCH, Reg.TWN_STATUS_DET, Reg.TWN_STATUS_LINK,
  Reg.TWN_STATUS_RESYNC, Reg.TWN_STATUS_ROLE_CHG, Reg.TWN_STATUS_STATE, Reg.UPD_EVENTS_ROLLBACKS, Reg.UPD_NEXT_POS,
  Reg.UPD_PROB_FRAMES, Reg.UPD_SEL_PROB, Reg.UPD_SEL_SLOT, Reg.UPD_STATUS_BLOCKS, Reg.UPD_STATUS_ENGINE,
  Reg.UPD_STATUS_STATE, Reg.WDG_CHECKIN_EXCUSED, Reg.WDG_CHECKIN_SEEN, Reg.WDG_STATUS_ARMED, Reg.WDG_STATUS_FRAME,
  Reg.WDG_STATUS_SERVED, Reg.WDG_STATUS_WINDOW] ++ arrays [Reg.HOST_SEQ_N, Reg.HUPD_VER_H_VERSION, Reg.MBX_RES_RESULT,
  Reg.UPD_VER_F_VERSION]

/-- What changes with the end of freeze and of the aperture (R49, R52). -/
def Touch.freezeEnd : List Touch :=
  parts [.sidebands, .seq, .ph, .bat, .chg, .rails, .journal] ++ regs [Reg.BATFET_STATUS_STATE, Reg.FRM_FRZ_MAX_MAX,
  Reg.FRM_STATUS_APT, Reg.FRM_STATUS_FRZ, Reg.PH_STATUS_ENTRY, Reg.PH_STATUS_FROZEN, Reg.RAIL_STATUS_HOLD_ACT,
  Reg.STAT_LATCH_PADS]

/-- What changes with a host fault word, which asserts the alert (R40, R420). -/
def Touch.hostFault : List Touch :=
  parts [.sidebands, .hostFaults, .alertPad, .update] ++ regs [Reg.ALERT_SRC_SRC]

/-- What changes with a reset of the host side (R449). -/
def Touch.hostReset : List Touch :=
  parts [.engines, .sidebands, .resetNote, .rails, .rl, .faultInput, .hostFaults, .linkHost, .linkField, .mailbox,
  .snapshot, .drain, .work, .alertPad, .hostReady, .hostBusy, .fieldAsleep, .tickets, .orders, .hp, .bus, .wdg, .hwdg,
  .slots, .update, .lb, .sub] ++ regs [Reg.ALERT_SRC_SRC, Reg.DRN_STATUS_AVAIL, Reg.DRN_STATUS_END,
  Reg.FLT_STATUS_LOST, Reg.HLB_STATUS_REASON, Reg.HLB_STATUS_STATE, Reg.HP_STATUS_DOZE, Reg.HUPD_SEL_PROB,
  Reg.HUPD_SEL_SLOT, Reg.HUPD_STATUS_STATE, Reg.HWDG_STATUS_ARMED, Reg.HWDG_STATUS_SEEN, Reg.ID_STATUS_FIELD_READY,
  Reg.ID_STATUS_HOST_READY, Reg.ID_STATUS_LINK, Reg.LB_STATUS_REASON, Reg.LB_STATUS_STATE, Reg.MBX_RES_INFO_LEN,
  Reg.MBX_RES_INFO_STREAM, Reg.MBX_STATUS_FULL, Reg.MBX_STATUS_PLACES, Reg.MBX_STATUS_RESULTS, Reg.RL_STATUS_EVQ,
  Reg.RL_STATUS_SESSION, Reg.RL_STATUS_SPEED, Reg.TKT_STATUS_FULL, Reg.TKT_STATUS_HELD, Reg.TKT_STATUS_HELD_STREAM,
  Reg.TKT_STATUS_HWM, Reg.TKT_STATUS_INFLIGHT, Reg.TL_F_STATUS_STATE, Reg.TL_H_STATUS_EPOCH, Reg.TL_H_STATUS_STATE,
  Reg.TWN_STATUS_LINK, Reg.UPD_EVENTS_ROLLBACKS, Reg.UPD_NEXT_POS, Reg.UPD_PROB_FRAMES, Reg.UPD_SEL_PROB,
  Reg.UPD_SEL_SLOT, Reg.UPD_STATUS_BLOCKS, Reg.UPD_STATUS_ENGINE, Reg.UPD_STATUS_STATE, Reg.WDG_CHECKIN_EXCUSED,
  Reg.WDG_CHECKIN_SEEN, Reg.WDG_STATUS_ARMED, Reg.WDG_STATUS_FRAME, Reg.WDG_STATUS_SERVED, Reg.WDG_STATUS_WINDOW] ++
  arrays [Reg.HUPD_VER_H_VERSION, Reg.UPD_VER_F_VERSION]

/-- What changes with the intake switch of the active source as it opens (R78, R82). -/
def Touch.inputSwitch : List Touch :=
  parts [.sidebands, .latches, .faultInput, .hostFaults, .linkHost, .mailbox, .alertPad, .update] ++ regs
  [Reg.ALERT_SRC_SRC, Reg.FLT_STATUS_LOST, Reg.INTAKE_EVENTS_SWITCHOVERS, Reg.INTAKE_LIM_EFF_CAUSE,
  Reg.INTAKE_LIM_EFF_LIM, Reg.INTAKE_STATUS_ACTIVE, Reg.INTAKE_STATUS_RAMP, Reg.INTAKE_STATUS_SRC_CHANGE]

/-- What changes with the issue of a ticket (R313, R314). -/
def Touch.issuing : List Touch :=
  parts [.tickets, .orders] ++ regs [Reg.TKT_STATUS_FULL, Reg.TKT_STATUS_HELD, Reg.TKT_STATUS_HELD_STREAM,
  Reg.TKT_STATUS_HWM, Reg.TKT_STATUS_INFLIGHT]

/-- What changes with the set-point latches as fields of registers (R28). -/
def Touch.latchSet : List Touch :=
  parts [.latches] ++ regs [Reg.CHG_I_SET, Reg.CHG_STATUS_EN, Reg.CHG_V_SET, Reg.INTAKE_LIM_EFF_LIM, Reg.KA_SET_CODE,
  Reg.KA_SET_EN, Reg.KA_SET_TWIN, Reg.REV_SET_SET, Reg.VSYS_MIN_MIN, Reg.VSYS_SET_SET] ++ arrays [Reg.PH_TRIM_ENTRY,
  Reg.PH_TRIM_TRIM, Reg.POL_SET_SET, Reg.QR_SET_SET]

/-- What changes with the host end of the link after the field side has lost power (R409). -/
def Touch.linkPeerLost : List Touch :=
  parts [.linkHost, .linkField, .mailbox, .alertPad] ++ regs [Reg.ALERT_SRC_SRC, Reg.MBX_EVENTS_VOIDS,
  Reg.MBX_RES_INFO_LEN, Reg.MBX_RES_INFO_STREAM, Reg.MBX_STATUS_FULL, Reg.MBX_STATUS_PLACES, Reg.MBX_STATUS_RESULTS]
  ++ arrays [Reg.MBX_RES_RESULT]

/-- What changes with the end of a loop-back (R531, R532). -/
def Touch.loopBackEnd : List Touch :=
  parts [.rails, .rl, .linkField, .drain, .alertPad, .tickets, .orders, .hp, .bus, .lb] ++ regs [Reg.ALERT_SRC_SRC,
  Reg.DRN_STATUS_AVAIL, Reg.DRN_STATUS_END, Reg.HLB_STATUS_REASON, Reg.HLB_STATUS_STATE, Reg.ID_STATUS_FIELD_READY,
  Reg.ID_STATUS_LINK, Reg.LB_STATUS_REASON, Reg.LB_STATUS_STATE, Reg.RL_STATUS_EVQ, Reg.RL_STATUS_SESSION,
  Reg.RL_STATUS_SPEED, Reg.TKT_STATUS_FULL, Reg.TKT_STATUS_HELD, Reg.TKT_STATUS_HELD_STREAM, Reg.TKT_STATUS_HWM,
  Reg.TKT_STATUS_INFLIGHT, Reg.TL_F_STATUS_STATE, Reg.TL_H_STATUS_STATE, Reg.TWN_STATUS_LINK]

/-- What changes with the start of a loop-back (R527). -/
def Touch.loopBackStart : List Touch :=
  parts [.lb] ++ regs [Reg.HLB_STATUS_ERRORS, Reg.HLB_STATUS_REASON, Reg.HLB_STATUS_STATE, Reg.LB_ERRS_ERRORS,
  Reg.LB_STATUS_REASON, Reg.LB_STATUS_SENT, Reg.LB_STATUS_STATE]

/-- What changes with the fields that show the NAND (R284). -/
def Touch.nandShown : List Touch :=
  regs [Reg.JRN_BLOCKS_BAD, Reg.JRN_BLOCKS_FREE, Reg.JRN_BLOCKS_RING, Reg.JRN_OLDEST_JSN, Reg.JRN_WEAR_MAX_PE,
  Reg.JRN_WEAR_MEAN_PE]

/-- What changes with a permission for the source role that is withdrawn (R218). -/
def Touch.permissionGone : List Touch :=
  parts [.cable, .linkHost, .mailbox]

/-- What changes with the phases in use (R115). -/
def Touch.phasesPick : List Touch :=
  parts [.ph, .chg] ++ regs [Reg.PH_STATUS_ACTIVE, Reg.PH_STATUS_BAND, Reg.PH_STATUS_CMODE, Reg.PH_STATUS_ENTRY]

/-- What changes with the phases as they stop (R131). -/
def Touch.phasesStop : List Touch :=
  parts [.ph, .bat] ++ regs [Reg.BATFET_STATUS_STATE, Reg.PH_STATUS_ACTIVE, Reg.PH_STATUS_BAND, Reg.PH_STATUS_CMODE,
  Reg.PH_STATUS_ENTRY, Reg.PH_STATUS_FOLDBACK, Reg.PH_STATUS_FROZEN, Reg.PH_STATUS_GOV, Reg.PH_STATUS_REV,
  Reg.PH_STATUS_SS]

/-- What changes with an address byte of the host port that is not acknowledged (R384). -/
def Touch.portNack : List Touch :=
  parts [.hp, .hwdg] ++ regs [Reg.HP_EVENTS_WAKE_NACKS, Reg.HP_STATUS_DOZE]

/-- What changes with a power domain as it is switched or darkened (R11, R21). -/
def Touch.powering : List Touch :=
  parts [.domains] ++ regs [Reg.ADC_STATUS_ACTIVE, Reg.ADC_STATUS_FGCAL, Reg.ADC_STATUS_REF_ON,
  Reg.ADC_STATUS_REF_SETTLED, Reg.ADC_STATUS_SPARE, Reg.ADC_STATUS_STALE, Reg.BATFET_STATUS_IBAT,
  Reg.BATFET_STATUS_TEMP, Reg.CHG_MON_INET, Reg.CHG_MON_VBAT, Reg.CHG_STATUS_LIMITED, Reg.CHG_STATUS_WINDOW,
  Reg.CHG_TEMP_TS, Reg.DRN_STATUS_AVAIL, Reg.DRN_STATUS_END, Reg.DRN_STATUS_REQ_OPEN, Reg.HP_STATUS_BUSY,
  Reg.ID_STATUS_FIELD_READY, Reg.ID_STATUS_HOST_READY, Reg.ID_STATUS_LINK, Reg.JRN_STATUS_READY,
  Reg.JRN_STATUS_SEALING, Reg.PACK_SBS_ICHG_REQ, Reg.PACK_SBS_STATUS, Reg.PACK_SBS_V_VCHG_REQ, Reg.PACK_SBS_V_VOLT,
  Reg.PH_CURR_I, Reg.PH_STATUS_ACTIVE, Reg.PH_STATUS_BAND, Reg.PH_STATUS_CMODE, Reg.PH_STATUS_ENTRY,
  Reg.PH_STATUS_FOLDBACK, Reg.PH_STATUS_FROZEN, Reg.PH_STATUS_GOV, Reg.PH_STATUS_REV, Reg.PH_STATUS_SS,
  Reg.PH_VOLT_VSYS, Reg.PH_VOLT_VTB, Reg.RAIL_MON_A_PAIR, Reg.RAIL_MON_B_PAIR, Reg.RAIL_MON_C_PAIR,
  Reg.RAIL_STATUS_HOLD_ACT, Reg.RAIL_STATUS_POL_ON, Reg.RAIL_STATUS_POL_REG, Reg.RAIL_STATUS_POL_SLEW,
  Reg.RAIL_STATUS_QR_ON, Reg.RL_STATUS_EVQ, Reg.RL_STATUS_SPEED, Reg.RTC_STATUS_BKP_LOW, Reg.RTC_STATUS_DISCIPLINED,
  Reg.SB_STATUS_BUSY, Reg.SB_STATUS_CLEARING, Reg.SB_STATUS_MULTI, Reg.SB_STATUS_WAIT_THAW, Reg.TL_F_STATUS_STATE,
  Reg.TL_H_STATUS_STATE, Reg.TWN_STATUS_CFG_MATCH, Reg.TWN_STATUS_LINK, Reg.UPD_NEXT_POS, Reg.UPD_PROB_FRAMES,
  Reg.UPD_STATUS_BLOCKS, Reg.UPD_STATUS_ENGINE, Reg.UPD_STATUS_STATE, Reg.XFER_POWER_P, Reg.XFER_STATUS_DBS,
  Reg.XFER_STATUS_DIR, Reg.XFER_STATUS_FLOOR, Reg.XFER_STATUS_PLIM, Reg.XFER_STATUS_TEMP] ++ arrays
  [Reg.ADC_LAST_FLAGS, Reg.ADC_LAST_VALUE]

/-- What changes with a command of the rail link that runs (R188). -/
def Touch.railCommand : List Touch :=
  parts [.sidebands, .latches, .chg, .rails, .rl, .faultInput, .hostFaults, .alertPad, .adc, .tickets, .orders,
  .waits, .bus, .update, .sub] ++ regs [Reg.ALERT_SRC_SRC, Reg.FLT_STATUS_LOST, Reg.RAIL_STATUS_POL_ON,
  Reg.RAIL_STATUS_POL_OVR, Reg.RAIL_STATUS_POL_REG, Reg.RAIL_STATUS_POL_SLEW, Reg.RAIL_STATUS_QR_ON,
  Reg.RAIL_STATUS_QR_OVR, Reg.RL_STATUS_EVQ, Reg.TKT_STATUS_FULL, Reg.TKT_STATUS_HELD, Reg.TKT_STATUS_HELD_STREAM,
  Reg.TKT_STATUS_HWM, Reg.TKT_STATUS_INFLIGHT] ++ arrays [Reg.POL_SET_SET, Reg.QR_SET_SET]

/-- What changes with the rails that follow freeze and the shed order (R177). -/
def Touch.railsFollow : List Touch :=
  parts [.rails] ++ regs [Reg.RAIL_STATUS_POL_ON, Reg.RAIL_STATUS_POL_REG, Reg.RAIL_STATUS_POL_SLEW,
  Reg.RAIL_STATUS_QR_ON]

/-- What changes with a refusal of freeze (R53). -/
def Touch.refusing : List Touch :=
  parts [.seq, .faultInput, .tickets, .orders, .sub] ++ regs [Reg.FLT_STATUS_LOST, Reg.FRM_REFUSE_COUNT,
  Reg.FRM_REFUSE_LAST_REASON, Reg.FRM_STATUS_REFUSING, Reg.STAT_LATCH_EVENTS, Reg.STAT_LATCH_PADS,
  Reg.TKT_STATUS_FULL, Reg.TKT_STATUS_HELD, Reg.TKT_STATUS_HELD_STREAM, Reg.TKT_STATUS_HWM, Reg.TKT_STATUS_INFLIGHT]

/-- What changes with a resignation of the role LEAD (R356). -/
def Touch.resigning : List Touch :=
  parts [.rails, .tickets, .orders, .twin, .sub] ++ regs [Reg.JRN_STATUS_SEALING, Reg.RAIL_STATUS_KA_STBY,
  Reg.TKT_STATUS_FULL, Reg.TKT_STATUS_HELD, Reg.TKT_STATUS_HELD_STREAM, Reg.TKT_STATUS_HWM, Reg.TKT_STATUS_INFLIGHT,
  Reg.TWN_STATUS_DET, Reg.TWN_STATUS_ROLE_CHG, Reg.TWN_STATUS_STATE]

/-- What changes with the end of the source role (R223). -/
def Touch.roleEnd : List Touch :=
  parts [.sidebands, .latches, .seq, .intake, .xfer, .cable, .faultInput, .hostFaults, .linkHost, .mailbox, .alertPad,
  .update] ++ regs [Reg.ALERT_SRC_SRC, Reg.CBL_CABLE_EMARKED, Reg.CBL_CABLE_ICAP, Reg.CBL_CABLE_NO_SBU,
  Reg.CBL_CABLE_VMAX, Reg.CBL_CONTRACT_CURR, Reg.CBL_CONTRACT_POS, Reg.CBL_CONTRACT_ROLE, Reg.CBL_CONTRACT_TYPE,
  Reg.CBL_CONTRACT_VOLT, Reg.CBL_EVENTS_ERR_RECOV, Reg.CBL_PARTNER_DRP, Reg.CBL_PARTNER_EPR_CAP,
  Reg.CBL_PARTNER_FRS_REQ, Reg.CBL_PARTNER_REV, Reg.CBL_STATUS_DFP, Reg.CBL_STATUS_EPR, Reg.CBL_STATUS_EXPLICIT,
  Reg.CBL_STATUS_FRS_ARMED, Reg.CBL_STATUS_FS_MODE, Reg.CBL_STATUS_MISMATCH, Reg.CBL_STATUS_RP, Reg.CBL_STATUS_STATE,
  Reg.CBL_STATUS_VCONN, Reg.FLT_STATUS_LOST, Reg.INTAKE_EVENTS_SWITCHOVERS, Reg.INTAKE_LIM_EFF_CAUSE,
  Reg.INTAKE_LIM_EFF_LIM, Reg.INTAKE_STATUS_ACTIVE, Reg.INTAKE_STATUS_RAMP, Reg.INTAKE_STATUS_SRC_CHANGE]

/-- What changes with the end of an update session (R504). -/
def Touch.sessionEnd : List Touch :=
  parts [.update] ++ regs [Reg.HUPD_STATUS_STATE, Reg.UPD_NEXT_POS, Reg.UPD_STATUS_BLOCKS, Reg.UPD_STATUS_ENGINE,
  Reg.UPD_STATUS_STATE]

/-- What changes with the failure of tickets and of the work behind them (R316, R324). -/
def Touch.settling : List Touch :=
  parts [.chg, .faultInput, .linkField, .mailbox, .work, .results, .stream7, .alertPad, .adc, .tickets, .orders,
  .waits, .bus, .sub] ++ regs [Reg.ADC_Q_FRN_FRN, Reg.ADC_Q_HWM, Reg.ADC_Q_LEVEL, Reg.ALERT_SRC_SRC,
  Reg.FLT_STATUS_LOST, Reg.MBX_EVENTS_VOIDS, Reg.MBX_RES_INFO_LEN, Reg.MBX_RES_INFO_STREAM, Reg.MBX_STATUS_FULL,
  Reg.MBX_STATUS_PLACES, Reg.MBX_STATUS_RESULTS, Reg.SB_LAST_ADDR, Reg.SB_LAST_ERR, Reg.SB_LAST_FRN,
  Reg.TKT_EVENTS_FAILED, Reg.TKT_EVENTS_REPLAYS, Reg.TKT_STATUS_FULL, Reg.TKT_STATUS_HELD, Reg.TKT_STATUS_HELD_STREAM,
  Reg.TKT_STATUS_HWM, Reg.TKT_STATUS_INFLIGHT] ++ arrays [Reg.HOST_SEQ_N, Reg.MBX_RES_RESULT]

/-- What changes with a fault word on one of the two sides (R22). -/
def Touch.sideFault : List Touch :=
  parts [.sidebands, .faultInput, .hostFaults, .alertPad, .update] ++ regs [Reg.ALERT_SRC_SRC, Reg.FLT_STATUS_LOST]

/-- What changes with a fence of a slice (R257). -/
def Touch.sliceFence : List Touch :=
  parts [.faultInput, .adc] ++ regs [Reg.ADC_STATUS_ACTIVE, Reg.ADC_STATUS_FENCED, Reg.ADC_STATUS_ROT_STOP,
  Reg.ADC_STATUS_SPARE, Reg.FLT_FENCE_U_UNITS, Reg.FLT_STATUS_LOST]

/-- What changes with a firmware slot as it is selected (R502). -/
def Touch.slotSelect : List Touch :=
  regs [Reg.HUPD_SEL_SLOT, Reg.UPD_SEL_SLOT] ++ arrays [Reg.HUPD_VER_H_VERSION, Reg.UPD_VER_F_VERSION]

/-- What changes with time as it advances. -/
def Touch.time : List Touch :=
  parts [.seq, .ph, .bat] ++ regs [Reg.BATFET_STATUS_STATE, Reg.PH_STATUS_ENTRY]

/-- What changes with a message taken from the partner (R349). -/
def Touch.twinTaking : List Touch :=
  parts [.faultInput, .tickets, .orders, .twin] ++ regs [Reg.FLT_STATUS_LOST, Reg.TKT_STATUS_FULL,
  Reg.TKT_STATUS_HELD, Reg.TKT_STATUS_HELD_STREAM, Reg.TKT_STATUS_HWM, Reg.TKT_STATUS_INFLIGHT, Reg.TWN_EPOCH_EPOCH,
  Reg.TWN_HB_STALE]

/-- What changes with the cable port without a contract (R214). -/
def Touch.typeCOnly : List Touch :=
  parts [.sidebands, .latches, .intake, .cable, .faultInput, .hostFaults, .alertPad, .update] ++ regs
  [Reg.ALERT_SRC_SRC, Reg.CBL_CONTRACT_CURR, Reg.CBL_CONTRACT_ROLE, Reg.CBL_CONTRACT_TYPE, Reg.CBL_CONTRACT_VOLT,
  Reg.FLT_STATUS_LOST, Reg.INTAKE_LIM_EFF_CAUSE, Reg.INTAKE_LIM_EFF_LIM]

/-- What changes with the end of a fence (R340, R341). -/
def Touch.unfencing : List Touch :=
  parts [.engines, .sidebands, .latches, .xfer, .ph, .chg, .rl, .cable, .faultInput, .hostFaults, .fences, .linkHost,
  .linkField, .mailbox, .drain, .work, .results, .stream7, .alertPad, .hostBusy, .modes, .adc, .tickets, .orders,
  .waits, .bus, .wdg, .hwdg, .update, .sub] ++ regs [Reg.ADC_Q_FRN_FRN, Reg.ADC_Q_HWM, Reg.ADC_Q_LEVEL,
  Reg.ADC_STATUS_ACTIVE, Reg.ADC_STATUS_FENCED, Reg.ADC_STATUS_ROT_STOP, Reg.ADC_STATUS_SPARE, Reg.ALERT_SRC_SRC,
  Reg.BATFET_STATUS_STATE, Reg.CHG_I_SET, Reg.CHG_STATUS_EN, Reg.CHG_STATUS_FAULT_LATCH, Reg.CHG_STATUS_STATE,
  Reg.CHG_V_SET, Reg.DRN_STATUS_FENCED, Reg.FLT_FENCE_E_FIELD, Reg.FLT_FENCE_E_HOST, Reg.FLT_FENCE_U_UNITS,
  Reg.FLT_PERM_E_ENGINES, Reg.FLT_PERM_U_UNITS, Reg.FLT_STATUS_LOST, Reg.HP_STATUS_FENCED, Reg.MBX_EVENTS_VOIDS,
  Reg.MBX_RES_INFO_LEN, Reg.MBX_RES_INFO_STREAM, Reg.MBX_STATUS_FULL, Reg.MBX_STATUS_PLACES, Reg.MBX_STATUS_RESULTS,
  Reg.PH_STATUS_ACTIVE, Reg.PH_STATUS_BAND, Reg.PH_STATUS_CMODE, Reg.PH_STATUS_ENTRY, Reg.PH_STATUS_FENCED,
  Reg.RL_STATUS_EVQ, Reg.SB_STATUS_FENCED, Reg.STAT_LATCH_EVENTS, Reg.STAT_LATCH_FN, Reg.STAT_LATCH_PADS,
  Reg.TKT_EPOCH_EPOCH, Reg.TKT_EVENTS_VOIDED, Reg.TKT_STATUS_FULL, Reg.TKT_STATUS_HELD, Reg.TKT_STATUS_HELD_STREAM,
  Reg.TKT_STATUS_HWM, Reg.TKT_STATUS_INFLIGHT] ++ arrays [Reg.HOST_SEQ_N, Reg.MBX_RES_RESULT]

/-- What changes with a cable whose marker is lost (R226). -/
def Touch.unmarked : List Touch :=
  regs [Reg.CBL_CABLE_EMARKED, Reg.CBL_CABLE_ICAP, Reg.CBL_CABLE_NO_SBU, Reg.CBL_CABLE_VMAX]

/-- What changes with the state and the last reason of an update (R504). -/
def Touch.updateState : List Touch :=
  parts [.sidebands, .faultInput, .hostFaults, .alertPad, .update] ++ regs [Reg.ALERT_SRC_SRC, Reg.FLT_STATUS_LOST,
  Reg.HUPD_STATUS_LAST_REASON, Reg.UPD_EVENTS_REJECTS, Reg.UPD_STATUS_LAST_REASON]

end Sys2Proof.Machine
end

