-- ==== Sys2Proof/Certificates/Slice0/Obligations.lean ====
section
/-! DEFINITION. The statements for the provers: what a step and a run do, invariants, registers, then for every
      family of
commands where each command completes and what it does, and the frames of all commands. -/

open Sys2Proof Sys2Proof.Machine

/-- A step carries out the command at the front of the queue on the rest; on an empty queue the block idles (log entry 6). -/
def Obligations.StepRunsFrontCommand : Prop :=
  (∀ (c : Instr) (s : State), s.pending.head? = some c → step s = exec c { s with pending := s.pending.tail }) ∧
  (∀ s : State, s.pending = [] → step s = .next s)

/-- The queue is first in, first out, and no command stops the block or touches the queue: after k steps the first k
commands have been taken. Readings of the model's own: log entries 6, 7. -/
def Obligations.RunTakesCommandsInOrder : Prop :=
  ∀ (k : Nat) (s : State), ∃ t, core.run k s = .next t ∧ t.pending = s.pending.drop k

/-- Every step keeps the canonical form of the register store. Readings of the model's own: log entry 8. -/
def Obligations.RegisterStoreStaysCanonical : Prop :=
  ∀ s t : State, Regs.wf s.hw.regs → step s = .next t → Regs.wf t.hw.regs

/-- R40, R312, R334, R336, R337: every step keeps the bounds of the ticket table, the collector's input stage, the host
fault buffer, the history and the trackers, and the numbers of open tickets stay different. Readings of the model's
own: log entry 55. -/
def Obligations.StoresStayBounded : Prop :=
  ∀ s t : State, s.hw.bounded → step s = .next t → t.hw.bounded

/-- The invariants hold after reset. Readings of the model's own: log entries 2, 8. -/
def Obligations.InvariantsHoldAtReset : Prop :=
  Regs.wf State.reset.hw.regs ∧ State.reset.hw.bounded ∧ State.reset.pending = []

/-- R44: the frame number at a tick, at a loss of F-AON power, and at every other command. The fall of F-AON's power good
is such a loss. -/
def Obligations.FrameNumberCountsTicks : Prop :=
  (∀ (f : Frame) (s : State), s.hw.modes.faonOn = true → s.hw.rd Reg.FRM_FRN_FRN < 2 ^ 32 - 1 → ∃ t,
      exec (.frameTick f) s = .next t ∧ t.hw.rd Reg.FRM_FRN_FRN = s.hw.rd Reg.FRM_FRN_FRN + 1 ∧
      t.hw.rd Reg.FRM_WRAP_WRAP = s.hw.rd Reg.FRM_WRAP_WRAP) ∧
  (∀ (f : Frame) (s : State), s.hw.modes.faonOn = true → s.hw.rd Reg.FRM_FRN_FRN = 2 ^ 32 - 1 → ∃ t,
      exec (.frameTick f) s = .next t ∧ t.hw.rd Reg.FRM_FRN_FRN = 0 ∧
      (s.hw.rd Reg.FRM_WRAP_WRAP < 65535 → t.hw.rd Reg.FRM_WRAP_WRAP = s.hw.rd Reg.FRM_WRAP_WRAP + 1)) ∧
  (∀ (l : LossLetter) (s : State), s.hw.modes.faonOn = true → ∃ t, exec (.faonPowerLoss l) s = .next t ∧
      t.hw.rd Reg.FRM_FRN_FRN = 0 ∧ t.hw.rd Reg.FRM_WRAP_WRAP = 0) ∧
  (∀ s : State, (s.hw.domain .fAon).pg = true → ∃ t, exec (.domainPgFall .fAon) s = .next t ∧
      t.hw.rd Reg.FRM_FRN_FRN = 0 ∧ t.hw.rd Reg.FRM_WRAP_WRAP = 0) ∧
  (∀ (c : Instr) (s t : State), exec c s = .next t → (∀ f, c ≠ .frameTick f) → (∀ l, c ≠ .faonPowerLoss l) →
      c ≠ .domainPgFall .fAon → (∀ b v, c ≠ .shipWake b v) → t.hw.rd Reg.FRM_FRN_FRN = s.hw.rd Reg.FRM_FRN_FRN ∧
      t.hw.rd Reg.FRM_WRAP_WRAP = s.hw.rd Reg.FRM_WRAP_WRAP) ∧
  (∀ (b v : Bool) (s t : State), exec (.shipWake b v) s = .next t → s.hw.modes.faonOn = true →
      s.hw.modes.shipCell = false → t.hw.rd Reg.FRM_FRN_FRN = s.hw.rd Reg.FRM_FRN_FRN ∧
      t.hw.rd Reg.FRM_WRAP_WRAP = s.hw.rd Reg.FRM_WRAP_WRAP) ∧
  2 ^ 32 * 20 / (1000 * 60 * 60 * 24) = 994

/-- R9: the access codes. A masked write of a word leaves what is read only (and, outside SERVICE, what is writable only
there) as it was, takes exactly the selected bits of a writable field that holds any value, and clears the bits of a
W1C field that are written 1; a WO field reads 0; a read of an RC field clears it, to 0 or as R419 has it for a lowest
or highest value. -/
def Obligations.AccessCodesGovernRegisters : Prop :=
  (∀ (m : Hw) (a mask value : Nat) (f : Field), f ∈ Reg.fieldsAt a → m.writable f = false →
      (m.stored a mask value).rd f = m.rd f) ∧
  (∀ (m : Hw) (a : Nat) (f : Field), f ∈ Reg.fieldsAt a → f.acc = .ro ∨ f.acc = .rc ∨
      (f.acc = .rws ∧ m.inService = false) → m.writable f = false) ∧
  (∀ (m : Hw) (a mask value i : Nat) (f : Field), f ∈ Reg.fieldsAt a → f.acc = .rw ∨ f.acc = .wo ∨
      (f.acc = .rws ∧ m.inService = true) → selfClearing.contains f = false → (∀ v, inRange f v = v) → i < f.width →
      bitAt ((m.stored a mask value).rd f) i =
        if bitAt mask (f.lsbIn a + i) then bitAt value (f.lsbIn a + i) else bitAt (m.rd f) i) ∧
  (∀ (m : Hw) (a mask value i : Nat) (f : Field), f ∈ Reg.fieldsAt a → f.acc = .w1c → selfClearing.contains f = false →
      i < f.width → bitAt ((m.stored a mask value).rd f) i =
        (bitAt (m.rd f) i && !(bitAt mask (f.lsbIn a + i) && bitAt value (f.lsbIn a + i)))) ∧
  (∀ (m : Hw) (a i : Nat) (f : Field), f ∈ Reg.fieldsAt a → f.width ≤ 32 → i < f.width → a < 0x1A00 ∨ 0x1E00 ≤ a →
      bitAt (m.readWord a) (f.lsbIn a + i) = if f.acc = .wo then false else bitAt (m.rd f) i) ∧
  (∀ (m : Hw) (a : Nat) (f : Field), f ∈ Reg.fieldsAt a → f.acc = .rc → m.extremum f = none →
      (m.liveRead a).1 = m.readWord a ∧ (m.liveRead a).2.rd f = 0) ∧
  (∀ (m : Hw) (a v : Nat) (f : Field), f ∈ Reg.fieldsAt a → f.acc = .rc → m.extremum f = some v →
      (m.liveRead a).1 = m.readWord a ∧ (m.liveRead a).2.rd f = satN f.width v)

/-- R8: a reserved bit reads 0, and a value written to it has no effect. -/
def Obligations.ReservedBitsReadZero : Prop :=
  (∀ (m : Hw) (a i : Nat), i < 32 → a < 0x1A00 ∨ 0x1E00 ≤ a → reservedBit a i → bitAt (m.readWord a) i = false) ∧
  (∀ (m : Hw) (a i : Nat), 24 ≤ i → 0x1A00 ≤ a → a < 0x1E00 → a % 16 = 12 → bitAt (m.readWord a) i = false) ∧
  (∀ (m : Hw) (a mask v w : Nat), (∀ i, ¬reservedBit a i → bitAt v i = bitAt w i) →
      m.writeFieldWord a mask v = m.writeFieldWord a mask w ∧ m.writeHostWord a mask v = m.writeHostWord a mask w)

/-- What the spec gives at the first power-up (R44, R376, R418, R448), and what the model's log gives: every register
reads its reset value (log entry 2), and no command waits (log entry 6). -/
def Obligations.ResetLeaves : Prop :=
  (∀ f : Field, State.reset.hw.rd f = f.reset) ∧ State.reset.hw.mode = modeSTART ∧
  State.reset.hw.rd Reg.FRM_FRN_FRN = 0 ∧ State.reset.hw.rd Reg.FRM_WRAP_WRAP = 0 ∧
  State.reset.hw.rd Reg.HP_ADDR_PRIMARY = 0x2C ∧ State.reset.hw.rd Reg.CBL_OFFER_C_AGE = 255 ∧
  State.reset.hw.rd Reg.TKT_STATUS_INFLIGHT = 0 ∧ State.reset.hw.jrn.staged = [] ∧ State.reset.hw.flt.hist = [] ∧
  (∀ e : Engine, (State.reset.hw.engine e).running = false) ∧ State.reset.pending = []

/-- R17, R28, R82, R233, R238, R421, R440, R442: what each code and level of the sidebands does where it arrives: a level
that the sender drives and the receiver has not seen, a code that is the next to go out, a pulse outside every band.
Each clause about a command says when it completes, and the effects that it names. Readings of the model's own: log
entries 1, 7, 77. -/
def Obligations.SidebandCodesTakeEffect : Prop :=
  (∀ (s : State) (high : Bool), s.hw.arch.sb.hostReset = high → s.hw.arch.sb.halertSeen ≠ high →
      s.hw.modes.faonOn = true → ∃ t, exec (.tsbHalertStateLevel high) s = .next t ∧
      t.hw.arch.sb.halertSeen = high ∧ (high = true → t.hw.rd Reg.CHG_STATUS_EN = 0)) ∧
  (∀ (s : State) (high : Bool), s.hw.arch.sb.fieldReset = high → s.hw.arch.sb.falertSeen ≠ high →
      ∃ t, exec (.tsbFalertStateLevel high) s = .next t ∧ t.hw.arch.sb.falertSeen = high ∧
      t.hw.rd Reg.HP_STATUS_DOZE = 0 ∧ (high = true → t.hw.arch.hostFieldReset = true ∧
      t.hw.bit Reg.ALERT_SRC_SRC 2 = true)) ∧
  (∀ s : State, s.hw.hCodeNext .sourceLoss = true →
      ∃ t, exec .sourceLossCode s = .next t ∧ t.hw.chg.source = false ∧ t.hw.regs = s.hw.regs ∧
      t.hw.arch.sb.hCodes = s.hw.arch.sb.hCodes.tail) ∧
  (∀ s : State, s.hw.hCodeNext .attachWake = true → s.hw.mode = modeKEEPALIVE →
      ∃ t, exec .sourceAttachWakeCode s = .next t ∧ t.hw.modes.wakeReq = true ∧
      t.hw.arch.sb.hCodes = s.hw.arch.sb.hCodes.tail) ∧
  (∀ s : State, s.hw.hCodeNext .cableDetach = true → ∃ t, exec .cableDetachCode s = .next t ∧
      t.hw.modes.revHeld = true ∧
      t.hw.arch.sb.hCodes = s.hw.arch.sb.hCodes.tail) ∧
  (∀ s : State, s.hw.hCodeNext .mailboxWake = true → s.hw.mode = modeKEEPALIVE →
      ∃ t, exec .mailboxWakeCode s = .next t ∧ t.hw.modes.wakeReq = true ∧
      t.hw.arch.sb.hCodes = s.hw.arch.sb.hCodes.tail) ∧
  (∀ s : State, s.hw.hCodeNext .hostAlert = true → s.hw.rd Reg.TL_H_STATUS_STATE = 2 → s.hw.flt.hostBuf ≠ [] →
      ∃ t, exec .hostAlertCode s = .next t ∧ t.hw.hfaultSent = true ∧ t.hw.flt.hostBuf = s.hw.flt.hostBuf ∧
      t.hw.arch.sb.hCodes = s.hw.arch.sb.hCodes.tail) ∧
  (∀ s : State, s.hw.fCodeNext .fieldAlert = true → ∃ t, exec .fieldAlertCode s = .next t ∧
      t.hw.rd Reg.HP_STATUS_DOZE = 0 ∧
      t.hw.arch.sb.fCodes = s.hw.arch.sb.fCodes.tail) ∧
  (∀ s : State, s.hw.fCodeNext .sleep = true → ∃ t, exec .fieldSleepCode s = .next t ∧ t.hw.host.fieldAsleep = true ∧
      t.hw.rd Reg.TL_H_STATUS_STATE = 0 ∧ t.hw.rd Reg.ID_STATUS_LINK = 0) ∧
  (∀ (s : State) (b : SidebandId) (w : Nat), strayPulse b w = true → ∃ t, exec (.sidebandFault ⟨b, w⟩) s = .next t ∧
      (b = SidebandId.line ∨ b = SidebandId.halert →
      s.hw.said t.hw Kind.SIDEBAND_FAULT 0x32 (if b = SidebandId.line then 0 else 2)) ∧
      (b = SidebandId.quiet ∨ b = SidebandId.falert →
      s.hw.hsaid t.hw Kind.SIDEBAND_FAULT 0x32 (if b = SidebandId.quiet then 1 else 3))) ∧
  (∀ (s : State) (high : Bool), high = s.hw.arch.sb.quiet → ∃ t, exec (.tsbQuietChange high) s = .next t ∧
      t.hw.xfer.stopped = high ∧ t.hw.rd Reg.XFER_STATUS_QUIET = b2n high) ∧
  (∀ s : State, ∃ t, exec .tsbQuietChannelFault s = .next t ∧ t.hw.xfer.stopped = true ∧
      t.hw.rd Reg.XFER_STATUS_QUIET = 1 ∧ s.hw.hsaid t.hw Kind.SIDEBAND_FAULT 0x32 1)

/-- R28 to R33: the owner's write of a latch is held to the loop's range and takes effect, and a value outside it is
recorded; a write by any other engine changes no latch and is recorded; a write whose engine is in reset is discarded;
a parity error is recorded, and the loop goes on at the value last written, until F0 SUPERVISOR rewrites the latch.
Each clause about a command says when it completes, and the effects that it names. Readings of the model's own: log
entries 12, 89, 117. -/
def Obligations.LatchesObeyTheirOwners : Prop :=
  (∀ (s : State) (w : Engine) (l : LatchId) (v : Nat), l.owner = some w → l ≠ .xferCtl → s.hw.latchBad l = false →
      s.hw.away w = false →
      ∃ t, exec (.latchWrite w l v false) s = .next t ∧ t.hw.latch l = (clampLatch l v).1 ∧
        ((clampLatch l v).2 = true → w.side = .field → s.hw.said t.hw Kind.LATCH_CLAMP w.id l.index) ∧
        ((clampLatch l v).2 = true → w.side = .host → s.hw.hsaid t.hw Kind.LATCH_CLAMP w.id l.index)) ∧
  (∀ (s : State) (v : Nat), s.hw.latchBad .xferCtl = false → s.hw.away .h1 = false →
      s.hw.on Reg.XFER_STATUS_LATCHED = false → s.hw.on Reg.XFER_STATUS_QUIET = false →
      ∃ t, exec (.latchWrite .h1 .xferCtl v false) s = .next t ∧ t.hw.latch .xferCtl = min v 2 ∧
      t.hw.xfer.ordered = none ∧
        (2 < v → s.hw.hsaid t.hw Kind.LATCH_CLAMP Engine.h1.id LatchId.xferCtl.index)) ∧
  (∀ (s : State) (v : Nat), s.hw.latchBad .chgV = false → s.hw.away .f1 = false →
      ∃ t, exec (.latchWrite .f1 .chgV v false) s = .next t ∧ t.hw.latch .chgV = min v 2990 ∧
        (2990 < v → s.hw.said t.hw Kind.LATCH_CLAMP Engine.f1.id LatchId.chgV.index)) ∧
  (∀ (s : State) (w : Engine) (l : LatchId) (v : Nat), (s.hw.engine w).running = true →
      (s.hw.engine w).restarting = false →
      l.owner ≠ some w → s.hw.latchBad l = false →
      ∃ t, exec (.latchWrite w l v false) s = .next t ∧ (∀ k, t.hw.latch k = s.hw.latch k) ∧
        (w.side = .field → s.hw.said t.hw Kind.LATCH_OWNER w.id l.index) ∧
        (w.side = .host → s.hw.hsaid t.hw Kind.LATCH_OWNER w.id l.index)) ∧
  (∀ (s : State) (w : Engine) (l : LatchId) (v : Nat) (r : Bool),
      r = true ∨ (s.hw.engine w).running = false ∨ (s.hw.engine w).restarting = true →
      exec (.latchWrite w l v r) s = .next s) ∧
  (∀ (s : State) (l : LatchId) (live : Nat), s.hw.arch.shadows.find? (fun x => x.latch = l) = none →
      live ≠ s.hw.latch l → ∃ t, exec (.latchParity l live) s = .next t ∧ t.hw.latchBad l = true ∧
        t.hw.loopValue l = s.hw.latch l ∧
        (2 ≤ l.index → s.hw.said t.hw Kind.LATCH_PARITY l.unit l.index) ∧
        (l.index < 2 → s.hw.hsaid t.hw Kind.LATCH_PARITY l.unit l.index)) ∧
  (∀ (s : State) (l : LatchId), exec (.latchParity l (s.hw.latch l)) s = .next s) ∧
  (∀ (s : State) (l : LatchId) (v : Nat), s.hw.latchBad l = true → (s.hw.engine .f0).running = true →
      (s.hw.engine .f0).restarting = false → (l = .kaSet → v < 64 ∧ bitsOf v 2 2 = 0) →
      ∃ t, exec (.latchWrite .f0 l v false) s = .next t ∧
        t.hw.latchBad l = false ∧ t.hw.loopValue l = (clampLatch l v).1)

/-- R45 to R51, R53: a source that is lost is recorded and HOLDOVER is due at the next tick, one that has stayed qualified
and ranks higher takes over, and a holdover of 64 frames ends on the first qualified source of the list or in
FREE_RUN; the filtered plan pads become the pending selection, and nothing else changes. Each clause about a command
says when it completes, and the effects that it names. Readings of the model's own: log entries 1, 9, 85, 118. -/
def Obligations.SyncSourcesFollowTheirList : Prop :=
  (∀ (s : State) (src : SyncSrc) (t : Nat), s.hw.lineCarries src = true →
      ∃ u, exec (.sourceEvent src t) s = .next u ∧ u.hw.seq.t = t ∧
      (u.hw.track src).lastAt = some (s.hw.seq.tickAt + t) ∧
      (src = .line ∨ src = .cable → u.hw.arch.sb.line = !s.hw.arch.sb.line) ∧
      (s.hw.mayFollow = true → (u.hw.track src).qualified = true → s.hw.rd Reg.FRM_STATUS_STATE = 3 →
        src.code ∈ s.hw.priorities → u.hw.rd Reg.FRM_STATUS_SRC = src.code ∧ u.hw.rd Reg.FRM_STATUS_STATE = 0) ∧
      (s.hw.mayFollow = true → (u.hw.track src).qualified = true → 8 ≤ (u.hw.track src).run →
        s.hw.rd Reg.FRM_STATUS_STATE = 2 → s.hw.rd Reg.FRM_STATUS_SRC = src.code →
        u.hw.rd Reg.FRM_STATUS_SRC = src.code ∧ u.hw.rd Reg.FRM_STATUS_STATE = 0)) ∧
  (∀ (s : State) (src : SyncSrc) (t : Nat), s.hw.lineCarries src = false →
      exec (.sourceEvent src t) s = .next { s with hw := s.hw.atT t }) ∧
  (∀ (s : State) (src : SyncSrc), s.hw.rd Reg.FRM_STATUS_SRC = src.code →
      s.hw.rd Reg.FRM_STATUS_STATE = 0 ∨ s.hw.rd Reg.FRM_STATUS_STATE = 1 → s.hw.seq.lossDue = false →
      ∃ t, exec .syncSourceLost s = .next t ∧ t.hw.rd Reg.FRM_STATUS_STATE = s.hw.rd Reg.FRM_STATUS_STATE ∧
        t.hw.rd Reg.FRM_STATUS_SRC = src.code ∧ t.hw.rd Reg.FRM_STATUS_LOSS = 1 ∧
        t.hw.seq.lossDue = true ∧ (t.hw.track src).qualified = false ∧ s.hw.said t.hw Kind.SYNC_LOST 0x3C src.code) ∧
  (∀ s : State, s.hw.rd Reg.FRM_STATUS_STATE = 2 ∨ s.hw.rd Reg.FRM_STATUS_STATE = 3 →
      exec .syncSourceLost s = .next s) ∧
  (∀ s : State, s.hw.rd Reg.FRM_STATUS_STATE = 2 → 64 ≤ s.hw.seq.holdover →
      ∃ t, exec .holdoverExpiry s = .next t ∧
        (s.hw.priorities.find? s.hw.qualifiedCode = none →
          t.hw.rd Reg.FRM_STATUS_STATE = 3 ∧ t.hw.rd Reg.FRM_STATUS_SRC = 0) ∧
        (∀ c, s.hw.priorities.find? s.hw.qualifiedCode = some c →
          t.hw.rd Reg.FRM_STATUS_STATE = 0 ∧ t.hw.rd Reg.FRM_STATUS_SRC = c)) ∧
  (∀ s : State, s.hw.rd Reg.FRM_STATUS_STATE ≠ 2 ∨ s.hw.seq.holdover < 64 → exec .holdoverExpiry s = .next s) ∧
  (∀ (s : State) (pre l : List Nat) (src : SyncSrc), s.hw.priorities = pre ++ src.code :: l →
      (∀ c ∈ pre, c ≠ s.hw.rd Reg.FRM_STATUS_SRC ∧ s.hw.qualifiedCode c = false) →
      src.code ≠ s.hw.rd Reg.FRM_STATUS_SRC → s.hw.mayFollow = true → (s.hw.track src).qualified = true →
      64 ≤ (s.hw.track src).qualFrames → ∃ t, exec .sourcePriorityChange s = .next t ∧
        t.hw.rd Reg.FRM_STATUS_SRC = src.code ∧ t.hw.rd Reg.FRM_STATUS_STATE = 0) ∧
  (∀ s : State, (∀ c ∈ s.hw.priorities, s.hw.qualifiedCode c = false) → exec .sourcePriorityChange s = .next s) ∧
  (∀ (s : State) (pads : Fin 4), exec (.planPadChange pads) s =
    .next { s with hw := { s.hw with seq := { s.hw.seq with planPads := pads.val } } })

/-- R55, R56, R58, R61, R62, R68, R237, R558: an admitted planned slot raises pre-freeze, and its boundary brings freeze;
an aperture, from the pad or the QREQ line, brings freeze in thaw; and freeze ends where neither plan nor aperture
holds it. Each clause about a command says when it completes, and the effects that it names. Readings of the model's
own: log entries 1, 9, 10, 83, 84, 100. -/
def Obligations.FreezeComesAndEnds : Prop :=
  (∀ (s : State) (slot : Fin 256) (a : Admit), slot.val ≠ 0 → s.hw.mayFreeze a → s.hw.seq.holdBreak = false →
      s.hw.planned slot = true → s.hw.planned ((slot + 255) % 256) = false →
      ∃ t, exec (.preFreeze slot a) s = .next t ∧ t.hw.seq.preFreeze = some slot.val ∧ t.hw.arch.sb.quiet = true ∧
        t.hw.frozen = false) ∧
  (∀ (s : State) (a : Admit), s.hw.seq.preFreeze = some 0 → s.hw.planned 0 = false →
      ∃ t, exec (.preFreezeSlot0Decision a) s = .next t ∧ t.hw.seq.preFreeze = none ∧ t.hw.arch.sb.quiet = false) ∧
  (∀ (s : State) (a : Admit), s.hw.seq.preFreeze = none → s.hw.planned 0 = true → s.hw.mayFreeze a →
      s.hw.seq.holdBreak = false → s.hw.seq.slotZero = none → s.hw.seq.runRefused = false →
      ∃ t, exec (.preFreezeSlot0Decision a) s = .next t ∧ t.hw.frozen = true ∧ t.hw.arch.sb.quiet = true) ∧
  (∀ (s : State) (slot : Fin 256), s.hw.seq.preFreeze = some slot.val → s.hw.brokenFreeze = none →
      ∃ t, exec (.freezeSlotBoundary slot 0 0 0) s = .next t ∧ t.hw.frozen = true ∧ t.hw.seq.preFreeze = none ∧
        t.hw.seq.freezeOut = !s.hw.seq.outputsLow ∧ t.hw.arch.sb.quiet = true) ∧
  (∀ (s : State) (slot : Fin 256), s.hw.frozen = true → s.hw.planned slot = false → s.hw.on Reg.FRM_STATUS_APT = false →
      ∃ t, exec (.freezeRunEnd slot) s = .next t ∧ t.hw.frozen = false ∧ t.hw.seq.freezeOut = false ∧
        t.hw.arch.sb.quiet = false) ∧
  (∀ (s : State) (t : Nat) (a : Admit), s.hw.mayFreeze a → s.hw.on Reg.FRM_APT_CFG_EN = true →
      s.hw.seq.aptIgnored = false → s.hw.seq.apts = [] → s.hw.seq.runRefused = false → s.hw.seq.holdBreak = false →
      ∃ u, exec (.apertureRise t a) s = .next u ∧ u.hw.frozen = true ∧ u.hw.on Reg.FRM_STATUS_APT = true ∧
        u.hw.seq.aptPad = true ∧ u.hw.seq.apts = [⟨.pad, s.hw.seq.tickAt + t, none⟩]) ∧
  (∀ (s : State) (t : Nat) (a : Admit), s.hw.mayFreeze a → s.hw.on Reg.FRM_APT_CFG_EN = true →
      s.hw.qreqHeard = true → s.hw.seq.apts = [] → s.hw.seq.runRefused = false → s.hw.seq.holdBreak = false →
      ∃ u, exec (.qreqRequest t a) s = .next u ∧ u.hw.frozen = true ∧ u.hw.on Reg.FRM_STATUS_APT = true ∧
        u.hw.seq.apts = [⟨.qreq, s.hw.seq.tickAt + t, none⟩]) ∧
  (∀ (s : State) (t : Nat), (∀ x ∈ s.hw.seq.apts, x.by_ = .pad ∧ x.until_ = none) →
      s.hw.seq.apts ≠ [] → ∃ u, exec (.apertureFall t) s = .next u ∧ u.hw.on Reg.FRM_STATUS_APT = false ∧
      u.hw.seq.aptPad = false) ∧
  (∀ (s : State) (t : Nat), (∀ x ∈ s.hw.seq.apts, x.by_ = .qreq) → s.hw.seq.apts ≠ [] →
      ∃ u, exec (.qreqRelease t) s = .next u ∧ u.hw.on Reg.FRM_STATUS_APT = false ∧ u.hw.seq.apts = [])

/-- R62 to R65, R69, R70: 600 ms of continuous freeze, a low V_BAT and a CBUF at its lower limit cut freeze; the cut
leaves its witness, and after the 40 µs of R65 freeze that is not due any more ends; an aperture ends at its effective
limit and is recorded, and the pad is ignored until it has been low; an aperture armed 50 µs ahead raises pre-freeze 4
µs before its start, and is gone at its start. Each clause about a command says when it completes, and the effects
that it names. Readings of the model's own: log entries 1, 9, 86, 88. -/
def Obligations.FreezeIsCutAtItsLimits : Prop :=
  (∀ (s : State) (t : Nat), s.hw.frozen = true → s.hw.seq.frzStart + 120000000 ≤ s.hw.seq.tickAt + t →
      ∃ u, exec (.driverHoldCut t) s = .next u ∧ u.hw.frozen = false ∧ u.hw.seq.holdBreak = true ∧
        u.hw.seq.lastReason = 5 ∧ u.hw.arch.sb.quiet = s.hw.arch.sb.quiet) ∧
  (∀ (s : State) (t : Nat) (a : Admit), s.hw.seq.holdBreak = true → s.hw.frozen = false →
      s.hw.planned (slotOf s.hw.seq.len t) = false → s.hw.on Reg.FRM_STATUS_APT = false →
      ∃ u, exec (.driverHoldBreakEnd t a) s = .next u ∧ u.hw.seq.holdBreak = false ∧ u.hw.arch.sb.quiet = false) ∧
  (∀ (s : State) (t : Nat), s.hw.frozen = true →
      ∃ u, exec (.freezeEndVbatLow t) s = .next u ∧ u.hw.frozen = false ∧ u.hw.seq.runRefused = true ∧
        u.hw.seq.lastReason = 2) ∧
  (∀ (s : State) (t : Nat), s.hw.frozen = true → s.hw.mode = modeSOURCE →
      ∃ u, exec (.sourceLoadFreezeEnd t) s = .next u ∧ u.hw.frozen = false ∧ u.hw.seq.runRefused = true ∧
        u.hw.seq.lastReason = 6) ∧
  (∀ s : State, s.hw.on Reg.FRM_STATUS_REFUSING = true → 8 ≤ s.hw.seq.quietFrames →
      ∃ t, exec .refusalRunEnd s = .next t ∧ t.hw.on Reg.FRM_STATUS_REFUSING = false ∧
        s.hw.filed t.hw JR.FREEZE_REFUSAL 0x3C) ∧
  (∀ (s : State) (t : Nat), s.hw.seq.apts ≠ [] → (∀ x ∈ s.hw.seq.apts, x.by_ = .pad ∧
      x.at_ + s.hw.rd Reg.FRM_APT_EFF_EFF * 20000 ≤ s.hw.seq.tickAt + t) →
      ∃ u, exec (.apertureLimitExpiry t) s = .next u ∧ u.hw.on Reg.FRM_STATUS_APT = false ∧
        u.hw.seq.aptIgnored = true ∧ s.hw.said u.hw Kind.APERTURE_EXPIRED 0x3C 0) ∧
  (∀ s : State, s.hw.seq.aptPad = false →
      exec .apertureRearm s = .next { s with hw := { s.hw with seq := { s.hw.seq with aptIgnored := false } } }) ∧
  (∀ (s : State) (t : Nat) (a : Admit) (x : SchedApt), s.hw.seq.sched = some x → s.hw.rd Reg.FRM_FRN_FRN = x.frn →
      slotStart s.hw.seq.len x.slot + x.cycle ≤ t →
      ∃ u, exec (.scheduledApertureStart t a) s = .next u ∧ u.hw.seq.sched = none) ∧
  (∀ (s : State) (t : Nat) (a : Admit) (x : SchedApt), s.hw.seq.sched = some x → s.hw.rd Reg.FRM_FRN_FRN = x.frn →
      x.raised = false → s.hw.mayFreeze a → s.hw.seq.holdBreak = false → s.hw.seq.runRefused = false →
      s.hw.seq.preFreeze = none → t < slotStart s.hw.seq.len x.slot + x.cycle →
      slotStart s.hw.seq.len x.slot + x.cycle ≤ t + 800 →
      x.armedAt + 10000 ≤ s.hw.seq.tickAt + slotStart s.hw.seq.len x.slot + x.cycle →
      ∃ u, exec (.scheduledApertureStart t a) s = .next u ∧ u.hw.seq.sched = some { x with raised := true } ∧
        u.hw.frozen = false ∧ u.hw.arch.sb.quiet = true)

/-- R76, R79, R82: a source inside its window qualifies, and becomes active where none is; a lost source opens its switch,
sends the loss code and is recorded; the source of higher priority takes over from the other. Each clause about a
command says when it completes, and the effects that it names. Readings of the model's own: log entry 1. -/
def Obligations.SourcesQualifyAndChange : Prop :=
  (∀ (s : State) (x : PowerSrc) (mv : Nat),
      x = .dcin ∧ 8800 ≤ mv ∧ mv ≤ 61000 ∨ x = .vbus ∧ s.hw.cable.window = false ∧ 4400 ≤ mv ∧ mv ≤ 5500 ∨
        x = .vbus ∧ s.hw.cable.window = true ∧ s.hw.cable.riseLo ≤ mv ∧ mv ≤ s.hw.cable.riseHi →
      ∃ t, exec (.sourceQualify x mv) s = .next t ∧ t.hw.qualified x = true ∧
        (s.hw.rd Reg.INTAKE_STATUS_ACTIVE = 0 → s.hw.mayClose x = true →
          t.hw.rd Reg.INTAKE_STATUS_ACTIVE = x.code ∧ t.hw.intake.startCap = true ∧ t.hw.intake.vsource = mv) ∧
        (s.hw.rd Reg.INTAKE_STATUS_ACTIVE ≠ 0 ∨ s.hw.mayClose x = false →
          t.hw.rd Reg.INTAKE_STATUS_ACTIVE = s.hw.rd Reg.INTAKE_STATUS_ACTIVE)) ∧
  (∀ (s : State) (mv : Nat), mv < 8800 ∨ 61000 < mv → exec (.sourceQualify .dcin mv) s = .next s) ∧
  (∀ (s : State) (x : PowerSrc) (mv mv2 : Nat), s.hw.qualified x = true →
      mv < (s.hw.fallingWindow x).1 ∨ (s.hw.fallingWindow x).2 < mv →
      ∃ t, exec (.intakeSourceLoss x mv mv2) s = .next t ∧ t.hw.qualified x = false ∧
        (s.hw.rd Reg.INTAKE_STATUS_ACTIVE = x.code → s.hw.hsaid t.hw
          (if (s.hw.fallingWindow x).2 < mv then Kind.INTAKE_OV else Kind.INTAKE_UV) 0x31 x.code) ∧
        (s.hw.rd Reg.INTAKE_STATUS_ACTIVE = x.code →
          s.hw.qualified (otherSource x) = false ∨ s.hw.outside (otherSource x) mv2 = true →
          t.hw.rd Reg.INTAKE_STATUS_ACTIVE = 0 ∧ t.hw.xfer.drainTo = some s.hw.vLo) ∧
        (s.hw.rd Reg.INTAKE_STATUS_ACTIVE = x.code → s.hw.qualified (otherSource x) = true →
          s.hw.outside (otherSource x) mv2 = false → s.hw.mayClose (otherSource x) = true →
          t.hw.rd Reg.INTAKE_STATUS_ACTIVE = (otherSource x).code ∧ t.hw.intake.startCap = true) ∧
        (s.hw.rd Reg.INTAKE_STATUS_ACTIVE ≠ x.code → s.hw.outside (otherSource x) mv2 = false →
          t.hw.rd Reg.INTAKE_STATUS_ACTIVE = s.hw.rd Reg.INTAKE_STATUS_ACTIVE)) ∧
  (∀ (s : State) (x : PowerSrc) (mv mv2 : Nat), s.hw.qualified x = false ∨
      (s.hw.fallingWindow x).1 ≤ mv ∧ mv ≤ (s.hw.fallingWindow x).2 → exec (.intakeSourceLoss x mv mv2) s = .next s) ∧
  (∀ (s : State) (mv : Nat), s.hw.rd Reg.INTAKE_CFG_PRI = 0 → s.hw.on Reg.INTAKE_STATUS_DCIN_QUAL = true →
      s.hw.rd Reg.INTAKE_STATUS_ACTIVE = 1 → s.hw.reverse = false →
      s.hw.intake.prioHold = true → s.hw.intake.thermalOpen = false → s.hw.intake.ovOpen = false →
      ∃ t, exec (.prioritySourceTakeover mv) s = .next t ∧ t.hw.rd Reg.INTAKE_STATUS_ACTIVE = 2 ∧
        t.hw.intake.startCap = true) ∧
  (∀ (s : State) (mv : Nat), s.hw.rd Reg.INTAKE_CFG_PRI = 1 → s.hw.on Reg.INTAKE_STATUS_VBUS_QUAL = true →
      s.hw.rd Reg.INTAKE_STATUS_ACTIVE = 2 → s.hw.reverse = false → s.hw.cable.srcSwitch = false →
      s.hw.intake.prioHold = true → s.hw.intake.thermalOpen = false → s.hw.intake.ovOpen = false →
      ∃ t, exec (.prioritySourceTakeover mv) s = .next t ∧ t.hw.rd Reg.INTAKE_STATUS_ACTIVE = 1 ∧
        t.hw.intake.startCap = true) ∧
  (∀ (s : State) (mv : Nat), s.hw.intake.prioHold = false ∨ s.hw.rd Reg.INTAKE_STATUS_ACTIVE = 0 →
      exec (.prioritySourceTakeover mv) s = .next s) ∧
  (∀ s : State, s.hw.rd Reg.INTAKE_STATUS_ACTIVE ≠ 0 → s.hw.intake.blocked = false →
      ∃ t, exec .reverseBlock s = .next t ∧ t.hw.intake.blocked = true ∧
        t.hw.rd Reg.INTAKE_EVENTS_REV_BLOCKS = satN 8 (s.hw.rd Reg.INTAKE_EVENTS_REV_BLOCKS + 1) ∧
        t.hw.intake.revFrame = s.hw.intake.revFrame + 1 ∧
        (s.hw.intake.revFrame = 16 → s.hw.hsaid t.hw Kind.INTAKE_REVERSE 0x31 17)) ∧
  (∀ s : State, s.hw.rd Reg.INTAKE_STATUS_ACTIVE = 0 ∨ s.hw.intake.blocked = true → exec .reverseBlock s = .next s) ∧
  (∀ s : State, exec .reverseReconduct s =
      .next { s with hw := { s.hw with intake := { s.hw.intake with blocked := false } } })

/-- R83, R85, R90 to R92, R132: the effective limit is the least of the limits that apply; the 500 mA of the first 10 ms
ends; without configured fields it stays at 500 mA; the dissipation limit is recorded; power on the host inputs blanks
the host registers and starts H-CORE; with F-AON unpowered a VBUS source starts the module with its phase 1 alone.
Each clause about a command says when it completes, and the effects that it names. Readings of the model's own: log
entries 1, 2. -/
def Obligations.IntakeLimitIsTheLeast : Prop :=
  (∀ s : State, s.hw.latchBad .intakeLim = false → s.hw.away .h1 = false → s.hw.intake.startCap = false →
      s.hw.intake.loaded = true → ∃ t, exec .intakeLimitUpdate s = .next t ∧
        t.hw.rd Reg.INTAKE_LIM_EFF_LIM = clampN 5 600
          (min (if s.hw.rd Reg.INTAKE_STATUS_ACTIVE = 1 then min (s.hw.rd Reg.INTAKE_LIM_CFG_LIM) s.hw.intake.advert
            else s.hw.rd Reg.INTAKE_LIM_CFG_LIM) (s.hw.rd Reg.INTAKE_LIM_HOST_LIM)) ∧
        (s.hw.on Reg.INTAKE_STATUS_PDISS_LIMIT = true → t.hw.rd Reg.INTAKE_LIM_EFF_CAUSE = 3)) ∧
  (∀ s : State, ∃ t, exec .intakeStartupLimitExpiry s = .next t ∧ t.hw.intake.startCap = false) ∧
  (∀ s : State, s.hw.intake.loaded = false → s.hw.intake.startCap = false → s.hw.intake.deadStart = false →
      s.hw.latchBad .intakeLim = false → s.hw.away .h1 = false → 50 ≤ s.hw.rd Reg.INTAKE_LIM_HOST_LIM →
      (s.hw.rd Reg.INTAKE_STATUS_ACTIVE = 1 → 50 ≤ s.hw.intake.advert) →
      ∃ t, exec .hostConfigTimeout s = .next t ∧ t.hw.rd Reg.INTAKE_LIM_EFF_LIM = 50 ∧ t.hw.intake.cfgAsked = false) ∧
  (∀ (s : State) (w : Nat), s.hw.on Reg.INTAKE_STATUS_RAMP = false →
      s.hw.rd Reg.INTAKE_STATUS_PDISS_LIMIT = 1 → ∃ t, exec (.intakePdiss w) s = .next t ∧
      t.hw.rd Reg.INTAKE_STATUS_PDISS_LIMIT = 1 ∧ s.hw.hsaid t.hw Kind.INTAKE_PDISS 0x31 w) ∧
  (∀ (s : State) (inputs : Fin 8), inputs.val ≠ 0 → s.hw.host.pinLow = false → bitAt s.hw.lb.testHigh 0 = false →
      (s.hw.engine .h2).fenced = false → s.hw.arch.engines.length = 12 →
      ∃ t, exec (.haonPowerUp inputs) s = .next t ∧ t.hw.host.hReady = true ∧ t.hw.rd Reg.ID_STATUS_HOST_READY = 1 ∧
        t.hw.rd Reg.ALERT_SRC_SRC = 0 ∧ t.hw.intake.present = inputs.val ∧ (t.hw.engine .h2).running = true) ∧
  (∀ (s : State) (advert : Nat), s.hw.modes.faonOn = false → 50 ≤ advert → advert ≤ 6000 →
      s.hw.on Reg.XFER_STATUS_LATCHED = false → s.hw.rd Reg.INTAKE_STATUS_ACTIVE = 1 ∨ s.hw.mayClose .vbus = true →
      ∃ t, exec (.deadBatteryStart advert) s = .next t ∧ t.hw.modes.faonOn = true ∧
        t.hw.rd Reg.INTAKE_STATUS_ACTIVE = 1 ∧ t.hw.rd Reg.XFER_STATUS_DBS = 1 ∧ t.hw.rd Reg.PH_STATUS_ACTIVE = 1 ∧
        t.hw.intake.advert = advert / 10)

/-- R86, R88, R89: the monitor refresh, the CBUF floor in thaw, the capacitance that a freeze run measures, and the ramp
between two droop windows. Each clause about a command says when it completes, and the effects that it names. Readings
of the model's own: log entries 1, 103. -/
def Obligations.CbufFollowsItsWindow : Prop :=
  (∀ (s : State) (vbus dcin vcbuf iin pdiss : Nat) (temp xpow : Int) (aux : Bool), vbus < 655360 → vcbuf < 655360 →
      s.hw.rd Reg.INTAKE_STATUS_ACTIVE ≠ 0 → s.hw.arch.domains.length = 10 →
      ∃ t, exec (.vSourceRefresh ⟨vbus, dcin, vcbuf⟩ iin pdiss temp xpow aux) s = .next t ∧
        t.hw.rd Reg.INTAKE_MON_V_VBUS = vbus / 10 ∧ t.hw.rd Reg.INTAKE_MON_CBUF_VCBUF = vcbuf / 10 ∧
        t.hw.intake.vsource = (if s.hw.rd Reg.INTAKE_STATUS_ACTIVE = 1 then vbus
          else if s.hw.rd Reg.INTAKE_STATUS_ACTIVE = 2 then dcin else s.hw.intake.vsource) ∧
        t.hw.intake.present = inputsPresent s.hw.intake.present vbus dcin aux ∧
        (t.hw.domain .hPwr).pg = decide (4500 < vcbuf)) ∧
  (∀ s : State, s.hw.on Reg.XFER_STATUS_QUIET = false → ∃ t, exec .cbufFloorReached s = .next t ∧
      t.hw.rd Reg.XFER_STATUS_FLOOR = 1) ∧
  (∀ (s : State) (us ma dmv : Nat), 2000 ≤ us → 0 < dmv → s.hw.on Reg.XFER_STATUS_QUIET = true →
      s.hw.intake.samples.length < 63 →
      ∃ t, exec (.cbufMeasure us ma dmv true) s = .next t ∧
      t.hw.rd Reg.INTAKE_CBUF_C_CEFF = s.hw.rd Reg.INTAKE_CBUF_C_CEFF ∧
        t.hw.intake.samples = s.hw.intake.samples ++ [ma * us / dmv / 10]) ∧
  (∀ (s : State) (us ma dmv : Nat), 2000 ≤ us → 0 < dmv → s.hw.on Reg.XFER_STATUS_QUIET = true →
      s.hw.intake.samples.length = 63 →
      ∃ t, exec (.cbufMeasure us ma dmv true) s = .next t ∧ t.hw.rd Reg.INTAKE_CBUF_C_VALID = 1 ∧
        t.hw.rd Reg.INTAKE_CBUF_C_CEFF = satN 16 (meanN (s.hw.intake.samples ++ [ma * us / dmv / 10]))) ∧
  (∀ (s : State) (mv : Nat), s.hw.rd Reg.INTAKE_STATUS_ACTIVE ≠ 0 → s.hw.rd Reg.INTAKE_MON_CBUF_VCBUF * 10 + 500 < mv →
      ∃ t, exec (.cbufRampStart mv) s = .next t ∧
      t.hw.rd Reg.INTAKE_STATUS_RAMP = 1 ∧ t.hw.intake.vsource = mv ∧
      t.hw.intake.floorBefore = if s.hw.intake.startCap then 4500 else s.hw.vLo) ∧
  (∀ (s : State) (mv : Nat), s.hw.vHi ≤ mv → ∃ t, exec (.cbufRampEnd mv) s = .next t ∧
      t.hw.rd Reg.INTAKE_STATUS_RAMP = 0)

/-- R93, R99, R101, R131: a direction change that reaches its last step with its interlock takes effect; one that takes
four frames is given up; the latch clears in SERVICE and leaves the stage OFF until it is ordered again. Each clause
about a command says when it completes, and the effects that it names. Readings of the model's own: log entries 1, 10,
72, 89, 106. -/
def Obligations.TransferDirectionChanges : Prop :=
  (∀ s : State, s.hw.on Reg.XFER_STATUS_QUIET = false → s.hw.on Reg.XFER_STATUS_LATCHED = false →
      s.hw.rd Reg.XFER_STATUS_DIR = 0 → s.hw.cable.srcSwitch = false →
      s.hw.latchBad .xferCtl = false → s.hw.away .h1 = false →
      ∃ t, exec (.xferDirectionChange 1 6) s = .next t ∧ t.hw.rd Reg.XFER_STATUS_DIR = 1 ∧ t.hw.latch .xferCtl = 1 ∧
        t.hw.rd Reg.PH_STATUS_REV = 0) ∧
  (∀ s : State, s.hw.rd Reg.XFER_STATUS_DIR = 3 → 4 ≤ s.hw.xfer.frames →
      ∃ t, exec .xferDirTimeout s = .next t ∧ t.hw.rd Reg.XFER_STATUS_DIR = 0 ∧
        s.hw.hsaid t.hw Kind.XFER_DIR_TIMEOUT 0x30 s.hw.xfer.step) ∧
  (∀ s : State, s.hw.rd Reg.ID_STATUS_MODE = modeSERVICE → s.hw.on Reg.XFER_STATUS_LATCHED = true →
      ∃ t, exec .xferClrLatch s = .next t ∧ t.hw.rd Reg.XFER_STATUS_LATCHED = 0 ∧ t.hw.xfer.mirror = false ∧
        t.hw.rd Reg.XFER_STATUS_DIR = s.hw.rd Reg.XFER_STATUS_DIR)

/-- R98, R100, R101: the protections of intake and transfer stage, each with its fault word. Each clause about a command
says when it completes, and the effects that it names. Readings of the model's own: log entries 1, 72, 89. -/
def Obligations.IntakeAndTransferProtect : Prop :=
  (∀ (s : State) (ns : Nat), ∃ t, exec (.xferQuietLate ns) s = .next t ∧ t.hw.xfer.fenced = true ∧
      s.hw.said t.hw Kind.XFER_QUIET_LATE 0x30 ns) ∧
  (∀ (s : State) (temp : Int), 135 < temp → s.hw.intake.thermalOpen = false →
      ∃ t, exec (.intakeThermal temp) s = .next t ∧ t.hw.intake.thermalOpen = true ∧
        s.hw.hsaid t.hw Kind.INTAKE_THERMAL 0x31 temp.toNat) ∧
  (∀ (s : State) (mv : Nat), 63000 < mv → ∃ t, exec (.cbufOv mv) s = .next t ∧ t.hw.intake.ovOpen = true ∧
      s.hw.hsaid t.hw Kind.CBUF_OV 0x31 (mv / 100)) ∧
  (∀ s : State, s.hw.rd Reg.XFER_STATUS_DIR ≠ 0 → s.hw.xfer.failures < 3 →
      ∃ t, exec .xferOcp s = .next t ∧ t.hw.rd Reg.XFER_STATUS_DIR = 0 ∧ t.hw.xfer.failures = s.hw.xfer.failures + 1 ∧
        t.hw.xfer.retryAt = some (s.hw.frnAfter 16) ∧
        s.hw.hsaid t.hw Kind.XFER_OCP 0x30 (s.hw.rd Reg.XFER_STATUS_DIR)) ∧
  (∀ (s : State) (a : Nat), s.hw.xfer.retryAt = some a → s.hw.frnReached a = true →
      s.hw.on Reg.XFER_STATUS_QUIET = false →
      s.hw.on Reg.XFER_STATUS_LATCHED = false → s.hw.rd Reg.XFER_STATUS_DIR = 0 → s.hw.xfer.fenced = false →
      s.hw.loopValue .xferCtl = s.hw.xfer.retryDir → (s.hw.xfer.retryDir = 1 → s.hw.cable.srcSwitch = false) →
      s.hw.xfer.retryDir < 4 → ∃ t, exec .xferRetry s = .next t ∧
        t.hw.rd Reg.XFER_STATUS_DIR = s.hw.xfer.retryDir ∧ t.hw.xfer.retryAt = none) ∧
  (∀ (s : State) (mv : Nat), 48000 < mv → ∃ t, exec (.xferVtbOv mv) s = .next t ∧ t.hw.xfer.ovStop = true ∧
      s.hw.hsaid t.hw Kind.XFER_VTB_OV 0x30 (mv / 100)) ∧
  (∀ (s : State) (temp : Int), 140 < temp → s.hw.xfer.thermal = false →
      ∃ t, exec (.xferThermal temp) s = .next t ∧ t.hw.xfer.thermal = true ∧ t.hw.rd Reg.XFER_STATUS_PLIM = 1 ∧
        s.hw.hsaid t.hw Kind.XFER_THERMAL 0x30 temp.toNat) ∧
  (∀ (s : State) (mv : Nat), s.hw.rd Reg.XFER_STATUS_DIR ≠ 0 → 3 ≤ s.hw.xfer.failures →
      ∃ t, exec (.xferStartFail mv) s = .next t ∧ t.hw.rd Reg.XFER_STATUS_DIR = 0 ∧
      t.hw.rd Reg.XFER_STATUS_LATCHED = 1 ∧
        t.hw.xfer.mirror = true ∧ s.hw.hsaid t.hw Kind.XFER_START_FAIL 0x30 (mv / 100))

/-- R110, R111, R115, R122 to R124: the conversion mode and band follow the two rails and on-times keep their bounds; the
phases that may run follow the load one by one; a soft start ramps from the measured output, stops on a short and is
tried again after 16 frames. Each clause about a command says when it completes, and the effects that it names.
Readings of the model's own: log entries 1, 90, 91, 97, 115, 119. -/
def Obligations.PhasesFollowTheLoad : Prop :=
  (∀ (m : Hw) (vtb vsys : Nat), m.rd Reg.PH_STATUS_ACTIVE ≠ 0 → m.rd Reg.XFER_STATUS_DBS = 0 →
      m.rd Reg.PH_STATUS_REV = 0 →
      (m.rd Reg.PH_STATUS_CMODE = 1 → (m.convert vtb vsys).rd Reg.PH_STATUS_CMODE =
        if 1003 * vtb < 1000 * vsys then 2 else 1) ∧
      (m.rd Reg.PH_STATUS_CMODE = 2 → (m.convert vtb vsys).rd Reg.PH_STATUS_CMODE =
        if 1000 * vsys ≤ 997 * vtb then 1 else 2) ∧
      (1000 * vsys ≤ 985 * vtb ∨ 1040 * vtb ≤ 1000 * vsys → (m.convert vtb vsys).rd Reg.PH_STATUS_BAND = 0)) ∧
  (∀ (m : Hw) (vtb vsys : Nat), m.rd Reg.PH_STATUS_ACTIVE = 0 → (m.convert vtb vsys).rd Reg.PH_STATUS_CMODE = 0 ∧
      (m.convert vtb vsys).rd Reg.PH_STATUS_BAND = 0) ∧
  (∀ (vin vout fsw : Nat) (trim : Int), 60 ≤ onTime false vin vout fsw trim ∧ onTime true vin vout fsw trim = 60 ∧
      (85 ≤ 1000000 / max 1 fsw → onTime false vin vout fsw trim + 25 ≤ 1000000 / max 1 fsw)) ∧
  (∀ (s : State) (itot : Nat), s.hw.on Reg.XFER_STATUS_DBS = false → s.hw.ph.regulating = true →
      s.hw.on Reg.PH_CFG_SHED_EN = true → s.hw.phasesOut = 0 → ∃ t, exec (.phaseShedChange itot) s = .next t ∧
        t.hw.ph.want = shedNext s.hw.ph.want itot ∧
        t.hw.rd Reg.PH_STATUS_ACTIVE = 2 ^ shedNext s.hw.ph.want itot - 1) ∧
  (∀ (s : State) (n : Fin 4), 256 ≤ s.hw.ph.limitFrames.getD n.val 0 → s.hw.on (Reg.PH_TRIM_AT_LIMIT n) = false →
      ∃ t, exec (.phaseImbalance n) s = .next t ∧ t.hw.rd (Reg.PH_TRIM_AT_LIMIT n) = 1 ∧
        s.hw.said t.hw Kind.PHASE_IMBALANCE (0x20 + n.val) (s.hw.rd (Reg.PH_TRIM_TRIM n))) ∧
  (∀ (s : State) (vout us : Nat), s.hw.quietDue = false → s.hw.mayStart = true →
      s.hw.on Reg.PH_STATUS_SS = false → ∃ t, exec (.phaseSoftStart vout us) s = .next t ∧
        t.hw.rd Reg.PH_STATUS_SS = 1 ∧ t.hw.ph.ssRef = vout * 1000 ∧ t.hw.ph.ssTarget = s.hw.outTarget ∧
        t.hw.ph.regulating = true) ∧
  (∀ (s : State) (vout us : Nat), s.hw.quietDue = false → s.hw.on Reg.PH_STATUS_SS = true →
      s.hw.outTarget * 1000 ≤ s.hw.ph.ssRef + s.hw.ssRate * us → ∃ t, exec (.phaseSoftStart vout us) s = .next t ∧
        t.hw.rd Reg.PH_STATUS_SS = 0 ∧ t.hw.ph.ssRef = s.hw.outTarget * 1000 ∧ t.hw.ph.ssEnd = some s.hw.now) ∧
  (∀ (s : State) (vout us : Nat), s.hw.quietDue = false → s.hw.on Reg.PH_STATUS_SS = true →
      s.hw.ph.ssRef + s.hw.ssRate * us < s.hw.outTarget * 1000 → ∃ t, exec (.phaseSoftStart vout us) s = .next t ∧
        t.hw.rd Reg.PH_STATUS_SS = 1 ∧ t.hw.ph.ssRef = s.hw.ph.ssRef + s.hw.ssRate * us) ∧
  (∀ (s : State) (floor : Bool) (vout : Nat), s.hw.ph.attempts < 3 →
      (floor = true → s.hw.on Reg.PH_STATUS_SS = true ∧ s.hw.atFloor vout = true) →
      (floor = false → s.hw.ph.ssEnd.isSome = true ∧ 2000 * vout < s.hw.ph.ssRef) →
      ∃ t, exec (.phaseSsShort ⟨floor, vout⟩) s = .next t ∧ t.hw.rd Reg.PH_STATUS_SS = 0 ∧
      t.hw.rd Reg.PH_STATUS_ACTIVE = 0 ∧
        t.hw.ph.attempts = s.hw.ph.attempts + 1 ∧ t.hw.ph.retryAt = some (s.hw.frnAfter 16) ∧
        s.hw.said t.hw Kind.PHASE_SS_SHORT 0x20 (s.hw.ph.attempts + 8 * b2n floor)) ∧
  (∀ (s : State) (floor : Bool) (vout : Nat), 3 ≤ s.hw.ph.attempts →
      (floor = true → s.hw.on Reg.PH_STATUS_SS = true ∧ s.hw.atFloor vout = true) →
      (floor = false → s.hw.ph.ssEnd.isSome = true ∧ 2000 * vout < s.hw.ph.ssRef) →
      ∃ t, exec (.phaseSsShort ⟨floor, vout⟩) s = .next t ∧ t.hw.rd Reg.PH_STATUS_ACTIVE = 0 ∧
        t.hw.rd Reg.PH_STATUS_LATCHED = 15 ∧ t.hw.ph.retryAt = none ∧ s.hw.filed t.hw JR.POWER_LATCH 0x20) ∧
  (∀ (s : State) (a : Nat), s.hw.ph.retryAt = some a → s.hw.frnReached a = true → s.hw.quietDue = false →
      s.hw.rd Reg.PH_STATUS_LATCHED = 0 →
      ∃ t, exec .phaseSsRetry s = .next t ∧ t.hw.ph.retryAt = none ∧ t.hw.rd Reg.PH_STATUS_SS = 1 ∧
        t.hw.ph.ssRef = s.hw.outputSeen * 1000 ∧
        t.hw.rd Reg.PH_EVENTS_SS_RETRIES = satN Reg.PH_EVENTS_SS_RETRIES.width (s.hw.rd Reg.PH_EVENTS_SS_RETRIES + 1))

/-- R114, R124, R127, R134: the protections of the phases, and the clearing of their latch in SERVICE. Each clause about a
command says when it completes, and the effects that it names. Readings of the model's own: log entries 1, 91, 99. -/
def Obligations.PhasesProtectThemselves : Prop :=
  (∀ (s : State) (phases : Fin 16) (current vout : Nat), s.hw.on Reg.PH_STATUS_SS = false →
      s.hw.atFloor vout = true → s.hw.rd Reg.PH_STATUS_ACTIVE ≠ 0 →
      phases.val &&& s.hw.rd Reg.PH_STATUS_ACTIVE = s.hw.rd Reg.PH_STATUS_ACTIVE → s.hw.ph.attempts < 3 →
      ∃ t, exec (.phaseOcp phases ⟨current, vout⟩) s = .next t ∧ t.hw.rd Reg.PH_STATUS_ACTIVE = 0 ∧
        t.hw.ph.attempts = s.hw.ph.attempts + 1 ∧ t.hw.ph.retryAt = some (s.hw.frnAfter 16)) ∧
  (∀ (s : State) (phases : Fin 16) (n : Fin 4) (current vout : Nat), phases.val = 2 ^ n.val →
      s.hw.on Reg.PH_STATUS_SS = false →
      s.hw.atFloor vout = true →
      s.hw.bit Reg.PH_STATUS_ACTIVE n.val = true → s.hw.rd Reg.PH_STATUS_ACTIVE ≠ 2 ^ n.val →
      ∃ t, exec (.phaseOcp phases ⟨current, vout⟩) s = .next t ∧
        bitAt t.hw.ph.stopped n.val = true ∧ s.hw.said t.hw Kind.PHASE_OCP (0x20 + n.val) current) ∧
  (∀ (s : State) (mv : Nat), 31500 < mv → s.hw.on Reg.PH_STATUS_REV = false → ∃ t, exec (.phaseOv mv) s = .next t ∧
      t.hw.ph.ovDiode = true ∧
      s.hw.said t.hw Kind.PHASE_OV 0x20 (mv / 100)) ∧
  (∀ (s : State) (n : Fin 4) (temp : Int), 140 < temp → bitAt s.hw.ph.thermal n.val = false →
      ∃ t, exec (.phaseThermal n temp) s = .next t ∧ bitAt t.hw.ph.thermal n.val = true ∧
        s.hw.said t.hw Kind.PHASE_THERMAL (0x20 + n.val) temp.toNat) ∧
  (∀ (s : State) (n : Fin 4) (temp : Int), temp < 120 → bitAt s.hw.ph.thermal n.val = true →
      ∃ t, exec (.phaseThermal n temp) s = .next t ∧ bitAt t.hw.ph.thermal n.val = false ∧
        t.hw.flt.input = s.hw.flt.input) ∧
  (∀ (s : State) (n : Fin 4) (supply : Nat), s.hw.ph.gateTries.getD n.val 0 < 10 →
      ∃ t, exec (.phaseGateUv n supply) s = .next t ∧
      bitAt t.hw.ph.gateWait n.val = true ∧ t.hw.seq.wakeDue = true ∧
      s.hw.said t.hw Kind.PHASE_GATE_UV (0x20 + n.val) supply) ∧
  (∀ (s : State) (mv : Nat), s.hw.on Reg.PH_STATUS_REV = false → ∃ t, exec (.phaseVtbCollapse mv) s = .next t ∧
      t.hw.rd Reg.PH_STATUS_GOV = 4 ∧
      s.hw.said t.hw Kind.PHASE_VTB_COLLAPSE 0x20 (mv / 100)) ∧
  (∀ s : State, s.hw.inService = true → ∃ t, exec .phClrLatch s = .next t ∧ t.hw.rd Reg.PH_STATUS_LATCHED = 0 ∧
      t.hw.ph.attempts = 0 ∧ t.hw.ph.retryAt = none ∧ t.hw.bat.latched = false ∧ t.hw.bat.ocpOpen = false) ∧
  (∀ s : State, s.hw.inService = false → exec .phClrLatch s = .next s)

/-- R69, R126 to R128, R130: the BATFET opens on its overcurrent and ends freeze, closes again after 16 frames, and
latches off after three retries; its temperature and the two system-voltage limits. Each clause about a command says
when it completes, and the effects that it names. Readings of the model's own: log entry 1. -/
def Obligations.BatfetProtectsThePack : Prop :=
  (∀ (s : State) (mw : Nat), s.hw.rd Reg.BATFET_STATUS_STATE = 3 → s.hw.bat.pdissCap ≠ none →
      ∃ t, exec (.batfetPdiss mw) s = .next t ∧
      s.hw.said t.hw Kind.BATFET_PDISS 0x27 (mw / 10) ∧ t.hw.rd Reg.BATFET_STATUS_STATE = 3) ∧
  (∀ (s : State) (t ma : Nat), s.hw.rd Reg.BATFET_STATUS_STATE ≠ 0 → s.hw.rd Reg.BATFET_STATUS_STATE ≠ 4 →
      s.hw.bat.retries < 3 → ∃ u, exec (.batfetOcp t ma) s = .next u ∧ u.hw.bat.ocpOpen = true ∧ u.hw.frozen = false ∧
        u.hw.bat.retryAt = some (s.hw.frnAfter 16) ∧ u.hw.rd Reg.BATFET_STATUS_STATE = 0) ∧
  (∀ (s : State) (t ma : Nat), s.hw.rd Reg.BATFET_STATUS_STATE ≠ 0 → s.hw.rd Reg.BATFET_STATUS_STATE ≠ 4 →
      3 ≤ s.hw.bat.retries → s.hw.frozen = false → ∃ u, exec (.batfetOcp t ma) s = .next u ∧
        u.hw.bat.latched = true ∧ u.hw.bat.retryAt = none ∧ u.hw.rd Reg.BATFET_STATUS_STATE = 4 ∧
        s.hw.said u.hw Kind.BATFET_OCP 0x27 (ma / 100) ∧ s.hw.filed u.hw JR.POWER_LATCH 0x27) ∧
  (∀ (s : State) (a : Nat), s.hw.bat.retryAt = some a → s.hw.frnReached a = true → s.hw.quietDue = false →
      s.hw.bat.latched = false → ∃ t, exec .batfetReclose s = .next t ∧ t.hw.bat.ocpOpen = false ∧
        t.hw.bat.retryAt = none ∧ t.hw.bat.retries = s.hw.bat.retries + 1) ∧
  (∀ s : State, 256 ≤ s.hw.bat.closedFrames → s.hw.bat.ocpOpen = false → ∃ t, exec .batfetRetryCountClear s = .next t ∧
      t.hw.bat.retries = 0 ∧ t.hw.regs = s.hw.regs) ∧
  (∀ (s : State) (temp : Int), 135 < temp → s.hw.bat.thermal = false → ∃ t, exec (.batfetThermal temp) s = .next t ∧
      t.hw.bat.thermal = true ∧ t.hw.rd Reg.CHG_STATUS_REF_ZERO = 1 ∧
      s.hw.said t.hw Kind.BATFET_THERMAL 0x27 temp.toNat) ∧
  (∀ (s : State) (mv : Nat), mv < 4600 → ∃ t, exec (.vsysUv mv) s = .next t ∧
      s.hw.said t.hw Kind.VSYS_UV 0x27 (mv / 100)) ∧
  (∀ (s : State) (mv : Nat), s.hw.on Reg.PH_STATUS_REV = true → mv < s.hw.loopValue .vsysMin * 10 + 100 →
      ∃ t, exec (.revBatFloor mv) s = .next t ∧ t.hw.rd Reg.PH_STATUS_ACTIVE = 0 ∧ t.hw.ph.revFloor = true ∧
        s.hw.said t.hw Kind.REV_BAT_FLOOR 0x27 (mv / 100))

/-- R141 to R147, R149: DETECT finds a pack by its voltage or its probe, and NEGOTIATE takes the best common profile or
holds the pack. Each clause about a command says when it completes, and the effects that it names. Readings of the
model's own: log entries 1, 5, 75, 92, 105, 121. -/
def Obligations.PacksAreFoundAndNegotiated : Prop :=
  (∀ (s : State) (shown : Fin 64) (vbat : Nat), s.hw.rd Reg.CHG_STATUS_STATE = 1 → s.hw.chg.probe = false →
      5000 ≤ vbat →
      shown.val &&& s.hw.indicators = s.hw.indicators → ∃ t, exec (.packIndicatorSettled ⟨shown, vbat⟩) s = .next t ∧
      t.hw.chg.found = true ∧ t.hw.rd Reg.CHG_STATUS_STATE = 2 ∧
        s.hw.filed t.hw JR.CHARGE_STATE 0x11) ∧
  (∀ (s : State) (shown : Fin 64) (vbat : Nat) (l : Profile), s.hw.rd Reg.CHG_STATUS_STATE = 1 →
      s.hw.chg.probe = false → vbat < 5000 →
      shown.val &&& s.hw.indicators = s.hw.indicators → s.hw.chg.limits = some l → s.hw.away .f1 = false →
      s.hw.latchBad .chgEn = false → s.hw.arch.sb.halertSeen = false →
      ∃ t, exec (.packIndicatorSettled ⟨shown, vbat⟩) s = .next t ∧ t.hw.chg.probe = true ∧
        t.hw.rd Reg.CHG_STATUS_EN = 1) ∧
  (∀ s : State, s.hw.rd Reg.CHG_STATUS_STATE = 1 → s.hw.chg.probe = true →
      s.hw.chg.sinkTest = false → ∃ t, exec .probeVoltageReached s = .next t ∧
      t.hw.chg.sinkTest = true ∧ t.hw.rd Reg.CHG_STATUS_EN = 0) ∧
  (∀ (s : State) (mv : Nat), s.hw.rd Reg.CHG_STATUS_STATE = 1 → s.hw.chg.sinkTest = true →
      ∃ t, exec (.sinkTestEnd mv) s = .next t ∧ t.hw.rd Reg.CHG_STATUS_STATE =
        (if 2 * mv < s.hw.rd Reg.CHG_V_SET * 10 then 9 else 2) ∧
        t.hw.chg.found = (if 2 * mv < s.hw.rd Reg.CHG_V_SET * 10 then false else true)) ∧
  (∀ (s : State) (mv : Nat) (l : Profile), s.hw.chg.limits = some l → s.hw.rd Reg.CHG_STATUS_STATE = 1 →
      s.hw.chg.probe = true → mv < 500 * l.cells → ∃ t, exec (.probeShort mv) s = .next t ∧
        t.hw.rd Reg.CHG_STATUS_STATE = 10 ∧ t.hw.rd Reg.CHG_STATUS_FAULT_LATCH = 1 ∧
        s.hw.said t.hw Kind.BAT_SHORT 0x11 (mv / 100)) ∧
  (∀ (s : State) (ohm vbat : Nat) (l p : Profile), s.hw.rd Reg.CHG_STATUS_STATE = 2 → s.hw.chg.limits = some l →
      680 ≤ ohm → ohm < 147000 → s.hw.chg.profiles.getD (idBand ohm) none = some p →
      s.hw.on Reg.CHG_CFG_SBS_EN = false →
      p.chem = l.chem → p.cells = l.cells → moduleCells l.chem l.cells = true →
      vbat ≤ l.cells * (if l.chem = 0 then 4450 else 3750) → profileBad (commonProfile p (s.hw.cfgLimits l)) = 0 →
      s.hw.chg.resume = none →
      ∃ t, exec (.packNegotiate ohm vbat) s = .next t ∧ t.hw.chg.neg = some (commonProfile p (s.hw.cfgLimits l)) ∧
        t.hw.rd Reg.CHG_PROF_A_SRC = 2 ∧ (t.hw.rd Reg.CHG_STATUS_STATE = 3 ∨ t.hw.rd Reg.CHG_STATUS_STATE = 4 ∨
          t.hw.rd Reg.CHG_STATUS_STATE = 6)) ∧
  (∀ (s : State) (ohm vbat : Nat) (l : Profile), s.hw.rd Reg.CHG_STATUS_STATE = 2 → s.hw.chg.limits = some l →
      ohm < 680 →
      ∃ t, exec (.packNegotiate ohm vbat) s = .next t ∧ t.hw.rd Reg.CHG_STATUS_STATE = 8 ∧
        s.hw.said t.hw Kind.PACK_ID_FAULT 0x11 (ohm / 100)) ∧
  (∀ (s : State) (r : SbsRead) (err : Nat), s.hw.on Reg.CHG_CFG_SBS_EN = true → s.hw.rd Reg.CHG_STATUS_STATE = 2 →
      r.ichg < 65536 → ∃ t, exec (.smartpackReadSequence (some r) err) s = .next t ∧ t.hw.chg.sbs = some r ∧
        t.hw.rd Reg.PACK_SBS_ICHG_REQ = r.ichg) ∧
  (∀ (s : State) (r : SbsRead) (err : Nat), s.hw.rd Reg.CHG_STATUS_STATE = 8 → s.hw.chg.hold = 2 →
      s.hw.frnReached s.hw.chg.sbsRetryAt = true → ∃ t, exec (.smartpackRetry (some r) err) s = .next t ∧
        t.hw.rd Reg.CHG_STATUS_STATE = 2 ∧ t.hw.chg.sbs = some r ∧ s.hw.filed t.hw JR.CHARGE_STATE 0x11) ∧
  (∀ (s : State) (changed : Fin 64), s.hw.rd Reg.CHG_STATUS_STATE = 9 →
      (changed.val &&& s.hw.indicators ≠ 0 ∨ s.hw.frnReached (s.hw.chg.absentAt + 512) = true) →
      ∃ t, exec (.absentRedetect changed) s = .next t ∧ t.hw.rd Reg.CHG_STATUS_STATE = 1 ∧
        s.hw.filed t.hw JR.CHARGE_STATE 0x11)

/-- R149, R153, R156 to R158, R164, R168: what ends or changes a charge, each with its state, its fault word and its
record. Each clause about a command says when it completes, and the effects that it names. Readings of the model's
own: log entries 1, 75, 102, 122. -/
def Obligations.ChargeEndsAndChanges : Prop :=
  (∀ s : State, s.hw.timersRun → s.hw.rd Reg.CHG_STATUS_STATE = 3 → 32 ≤ s.hw.chg.runUp →
      ∃ t, exec .chargeSustainedExpiry s = .next t ∧
      t.hw.rd Reg.CHG_STATUS_STATE = 4 ∧ t.hw.chg.runUp = 0 ∧ s.hw.filed t.hw JR.CHARGE_STATE 0x11) ∧
  (∀ s : State, s.hw.timersRun → s.hw.rd Reg.CHG_STATUS_STATE = 6 → 32 ≤ s.hw.chg.runRech →
      ∃ t, exec .chargeSustainedExpiry s = .next t ∧
      t.hw.rd Reg.CHG_STATUS_STATE = 4 ∧ t.hw.rd Reg.CHG_TIMER_FAST = 0) ∧
  (∀ s : State, s.hw.timersRun → s.hw.rd Reg.CHG_STATUS_STATE = 5 → 32 ≤ s.hw.chg.runTerm →
      s.hw.rd Reg.CHG_ADJ_TCV_MIN * 60000000 ≤ s.hw.chg.cvTime → ∃ t, exec .chargeTermination s = .next t ∧
        t.hw.rd Reg.CHG_STATUS_STATE = 6 ∧ t.hw.rd Reg.CHG_STATUS_EN = 0 ∧ s.hw.filed t.hw JR.CHARGE_STATE 0x11) ∧
  (∀ s : State, s.hw.preRuns = true → s.hw.preLength ≤ s.hw.chg.preTime → ∃ t, exec .safetyTimerExpiry s = .next t ∧
      t.hw.rd Reg.CHG_STATUS_STATE = 10 ∧ t.hw.rd Reg.CHG_STATUS_FAULT_LATCH = 1 ∧
      s.hw.said t.hw Kind.CHG_TIMER_PRE 0x11 (s.hw.chg.preTime / 60000000)) ∧
  (∀ s : State, s.hw.preRuns = false → s.hw.fastRuns = true → s.hw.fastLength ≤ s.hw.chg.fastTime →
      ∃ t, exec .safetyTimerExpiry s = .next t ∧ t.hw.rd Reg.CHG_STATUS_STATE = 10 ∧
        s.hw.said t.hw Kind.CHG_TIMER_FAST 0x11 (s.hw.chg.fastReal / 360000000)) ∧
  (∀ s : State, s.hw.chg.source = false → ∃ t, exec .sourceAbsenceTimer s = .next t ∧ t.hw.chg.preTime = 0 ∧
      t.hw.chg.fastTime = 0 ∧ t.hw.rd Reg.CHG_TIMER_PRE = 0 ∧ t.hw.rd Reg.CHG_TIMER_FAST = 0) ∧
  (∀ (s : State) (mv : Nat), s.hw.charging = true → s.hw.on Reg.CHG_STATUS_EN = true → mv < 500 * s.hw.cells →
      ∃ t, exec (.batShort mv) s = .next t ∧ t.hw.rd Reg.CHG_STATUS_STATE = 10 ∧ t.hw.rd Reg.CHG_STATUS_EN = 0 ∧
        s.hw.said t.hw Kind.BAT_SHORT 0x11 (mv / 100)) ∧
  (∀ s : State, s.hw.inService = true → s.hw.rd Reg.CHG_STATUS_STATE = 10 → ∃ t, exec .chgClrFault s = .next t ∧
      t.hw.rd Reg.CHG_STATUS_STATE = 1 ∧ t.hw.rd Reg.CHG_STATUS_FAULT_LATCH = 0 ∧
      s.hw.filed t.hw JR.CHARGE_STATE 0x11) ∧
  (∀ s : State, s.hw.inService = false → exec .chgClrFault s = .next s) ∧
  (∀ s : State, s.hw.charging = true → s.hw.chg.source = true → s.hw.rd Reg.MODE_STATUS_MODE = 2 →
      s.hw.arch.sb.halertSeen = false → s.hw.latchBad .chgEn = false → s.hw.away .f1 = false →
      ∃ t, exec .chgEnableRestore s = .next t ∧ t.hw.rd Reg.CHG_STATUS_EN = 1)

/-- R152, R161 to R163, R166, R167: hot stops and temperature inputs, the removal of the pack, the status pads, and the
host's two charge controls. Each clause about a command says when it completes, and the effects that it names.
Readings of the model's own: log entries 1, 75. -/
def Obligations.PackSensorsAndControlsAct : Prop :=
  (∀ (s : State) (i : Fin 4), s.hw.tsUse i.val = 1 → bitAt s.hw.chg.hwStop i.val = false →
      ∃ t, exec (.tempHwStop i) s = .next t ∧ t.hw.rd Reg.CHG_STATUS_REF_ZERO = 1 ∧ bitAt t.hw.chg.hwStop i.val = true ∧
        s.hw.said t.hw Kind.TEMP_HW_STOP 0x27 i.val) ∧
  (∀ (s : State) (i : Fin 4), ∃ t, exec (.tempHwStopRelease i) s = .next t ∧ bitAt t.hw.chg.hwStop i.val = false) ∧
  (∀ (s : State) (i : Fin 4), s.hw.tsUse i.val = 1 → s.hw.chg.removal = none → s.hw.seq.removedHold = false →
      ∃ t, exec (.tsOpen i) s = .next t ∧ bitsOf (t.hw.rd Reg.CHG_TEMP_TS) (8 * i.val) 8 = 0x80 ∧
      bitAt t.hw.chg.tsOpen i.val = true ∧
        s.hw.said t.hw Kind.TS_OPEN 0x11 i.val) ∧
  (∀ (s : State) (i : Fin 4), s.hw.tsUse i.val ≠ 0 → ∃ t, exec (.tsShort i) s = .next t ∧
      bitsOf (t.hw.rd Reg.CHG_TEMP_TS) (8 * i.val) 8 = 0x7F ∧ bitAt t.hw.chg.tsShort i.val = true ∧
       s.hw.said t.hw Kind.TS_SHORT 0x11 i.val) ∧
  (∀ (s : State) (t vbat : Nat) (detectors : Fin 64), (s.hw.atT t).detectorsHeard vbat detectors.val ≠ 0 →
      s.hw.packIn = true →
      s.hw.chg.removal = none → ∃ u, exec (.batRemoval t ⟨vbat, detectors⟩) s = .next u ∧
        u.hw.chg.removal = some ((s.hw.atT t).detectorsHeard vbat detectors.val) ∧ u.hw.packIn = false ∧
        u.hw.rd Reg.CHG_STATUS_EN = 0 ∧ u.hw.frozen = false ∧ u.hw.seq.removedHold = true) ∧
  (∀ (s : State) (b : Nat), s.hw.chg.removal = some b → ∃ t, exec .batRemoved s = .next t ∧ t.hw.chg.removal = none ∧
      s.hw.said t.hw Kind.BAT_REMOVED 0x27 b) ∧
  (∀ s : State, ∃ t, exec .statLatchRead s = .next t ∧ t.hw.rd Reg.STAT_LATCH_EVENTS = 0 ∧
      t.hw.rd Reg.STAT_LATCH_FN = 0) ∧
  (∀ (s : State) (ms : Nat), s.hw.modes.halted = false → s.hw.quietDue = false →
      ∃ t, exec (.lampEdge ms) s = .next t ∧ t.hw.chg.lampLevel = lampAt (s.hw.rd Reg.CHG_STATUS_STATE) ms ∧
        t.hw.chg.lampWait = none) ∧
  (∀ (s : State) (suspend : Bool), ∃ t, exec (.chgSuspend suspend) s = .next t ∧
      t.hw.rd Reg.CHG_CTL_SUSPEND = b2n suspend) ∧
  (∀ (s : State) (limit : Fin 512), ∃ t, exec (.chgIHost limit) s = .next t ∧ t.hw.rd Reg.CHG_CTL_I_HOST = limit.val)

/-- R176 to R180, R196, R204: the instrument rails start, stop, are tried again and latch off, each with its fault word.
Each clause about a command says when it completes, and the effects that it names. Readings of the model's own: log
entries 1, 104. -/
def Obligations.RailsStartStopAndRetry : Prop :=
  (∀ (s : State) (n : Fin 3) (vout us : Nat), s.hw.rails.rail.length = 5 → s.hw.polMaySwitch n.val = true →
      s.hw.polWanted n.val = true → s.hw.railOn n.val = false → ∃ t, exec (.polSoftStart n ⟨vout, us⟩) s = .next t ∧
        t.hw.railOn n.val = true ∧ (t.hw.rail n.val).ss = true ∧ (t.hw.rail n.val).ref = vout * 1000) ∧
  (∀ (s : State) (n : Fin 3) (vout us : Nat), s.hw.rails.rail.length = 5 → s.hw.polMaySwitch n.val = true →
      s.hw.railOn n.val = true → (s.hw.rail n.val).ss = true →
      railMv n.val (s.hw.loopValue (railLatch n.val)) * 1000 ≤ (s.hw.rail n.val).ref + slewRate (s.hw.rail
      n.val).slew * us →
      ∃ t, exec (.polSoftStart n ⟨vout, us⟩) s = .next t ∧ (t.hw.rail n.val).ss = false ∧
        (t.hw.rail n.val).ref = railMv n.val (s.hw.loopValue (railLatch n.val)) * 1000 ∧
        (t.hw.rail n.val).ssEnd = some s.hw.now) ∧
  (∀ (s : State) (n : Fin 3) (floor : Bool) (vout : Nat), s.hw.rails.rail.length = 5 → (s.hw.rail n.val).attempts < 3 →
      (floor = true → (s.hw.rail n.val).ss = true ∧ s.hw.polAtFloor n.val vout = true) →
      (floor = false → (s.hw.rail n.val).ssEnd.isSome = true ∧ 2000 * vout < (s.hw.rail n.val).ref) →
      ∃ t, exec (.polSsShort ⟨⟨floor, vout⟩, n⟩) s = .next t ∧ t.hw.railOn n.val = false ∧
      (t.hw.rail n.val).stopped = true ∧
        (t.hw.rail n.val).retryAt = some (s.hw.frnAfter 16) ∧
        s.hw.said t.hw Kind.POL_SS_SHORT (0x24 + n.val) (s.hw.rail n.val).attempts) ∧
  (∀ (s : State) (n : Fin 3) (floor : Bool) (vout : Nat), s.hw.rails.rail.length = 5 → 3 ≤ (s.hw.rail n.val).attempts →
      (floor = true → (s.hw.rail n.val).ss = true ∧ s.hw.polAtFloor n.val vout = true) →
      (floor = false → (s.hw.rail n.val).ssEnd.isSome = true ∧ 2000 * vout < (s.hw.rail n.val).ref) →
      ∃ t, exec (.polSsShort ⟨⟨floor, vout⟩, n⟩) s = .next t ∧ t.hw.railOn n.val = false ∧
      t.hw.bit Reg.RAIL_STATUS_POL_LATCHED n.val = true ∧
        s.hw.filed t.hw JR.POWER_LATCH (0x24 + n.val)) ∧
  (∀ (s : State) (n : Fin 3) (vout a : Nat), s.hw.rails.rail.length = 5 → (s.hw.rail n.val).retryAt = some a →
      s.hw.frnReached a = true → s.hw.quietDue = false → ∃ t, exec (.polRetry n vout) s = .next t ∧
        (t.hw.rail n.val).stopped = false ∧ (t.hw.rail n.val).retryAt = none) ∧
  (∀ (s : State) (n : Fin 3) (current vout : Nat), s.hw.rails.rail.length = 5 → s.hw.railOn n.val = true →
      (s.hw.rail n.val).ss = false → s.hw.polAtFloor n.val vout = true → (s.hw.rail n.val).attempts < 3 →
      ∃ t, exec (.polOcp n ⟨current, vout⟩) s = .next t ∧
        t.hw.railOn n.val = false ∧ (t.hw.rail n.val).retryAt = some (s.hw.frnAfter 16) ∧
        s.hw.said t.hw Kind.POL_OCP (0x24 + n.val) current) ∧
  (∀ (s : State) (n : Fin 3) (mv : Nat), railMv n.val (s.hw.loopValue (railLatch n.val)) * 110 < mv * 100 →
      ∃ t, exec (.polOv n mv) s = .next t ∧ s.hw.said t.hw Kind.POL_OV (0x24 + n.val) (mv / 10)) ∧
  (∀ (s : State) (vsys : Nat), vsys < 4200 → s.hw.rails.rail.length = 5 → ∃ t, exec (.polUvlo vsys) s = .next t ∧
      t.hw.rd Reg.RAIL_STATUS_POL_ON = 0 ∧ ∀ n : Fin 3, (t.hw.rail n.val).uvlo = true) ∧
  (∀ s : State, s.hw.rails.rail.length = 5 → ∃ t, exec .polUvloRestart s = .next t ∧
      ∀ n : Fin 3, (t.hw.rail n.val).uvlo = false) ∧
  (∀ (s : State) (n : Fin 3), s.hw.frozen = true → s.hw.railOn n.val = true → s.hw.polPolicy n.val = 0 →
      (s.hw.rail n.val).runOpen = false → ∃ t, exec (.polFrzFloor n) s = .next t ∧
        t.hw.bit Reg.RAIL_STATUS_HOLD_ACT n.val = true ∧
        s.hw.said t.hw Kind.POL_FRZ_FLOOR (0x24 + n.val) (s.hw.rd (Reg.POL_CFG_FLOOR n))) ∧
  (∀ (s : State) (n : Fin 3) (fold : Bool) (mv : Nat), s.hw.bit Reg.RAIL_STATUS_HOLD_ACT n.val = true →
      (s.hw.rail n.val).holdSaid = false → ∃ t, exec (.polHoldLimit n fold mv) s = .next t ∧
        s.hw.said t.hw Kind.POL_HOLD_LIMIT (0x24 + n.val) (b2n fold + 16 * (mv / 10))) ∧
  (∀ s : State, s.hw.inService = true → ∃ t, exec .railClrLatch s = .next t ∧ t.hw.rd Reg.RAIL_STATUS_POL_LATCHED = 0) ∧
  (∀ (s : State) (n : Fin 2) (dropout : Bool), s.hw.railOn (3 + n.val) = true →
      (s.hw.rail (3 + n.val)).runOpen = false →
      ∃ t, exec (.qrLimit n dropout) s = .next t ∧ s.hw.said t.hw Kind.QR_LIMIT 0x3F (n.val + 2 * b2n dropout)) ∧
  (∀ (s : State) (n : Fin 2) (temp : Int), 150 ≤ temp → s.hw.rails.rail.length = 5 →
      (s.hw.rail (3 + n.val)).fold = false → ∃ t, exec (.qrThermal n temp) s = .next t ∧
        t.hw.railOn (3 + n.val) = false ∧ s.hw.said t.hw Kind.QR_THERMAL 0x3F n.val)

/-- R53, R183 to R195: a rail-link command that the link hears, in a session where it needs one, leaves its immediate
response and its effect; a pad selection without an override sets the rail. Each clause about a command says when it
completes, and the effects that it names. Readings of the model's own: log entries 1, 76, 79, 94, 95, 96. -/
def Obligations.RailLinkCommandsAct : Prop :=
  (∀ (s : State) (rail : Fin 3) (index : Fin 4), s.hw.override rail.val = false → s.hw.away .f4 = false →
      s.hw.railFenced rail.val = false → s.hw.latchBad (railLatch rail.val) = false →
      ∃ t, exec (.vselChange rail index) s = .next t ∧
        t.hw.rails.vsel = s.hw.rails.vsel.set rail.val index.val ∧
        t.hw.railCode rail.val = (clampLatch (railLatch rail.val) (t.hw.padCode rail.val)).1) ∧
  (∀ (s : State) (tag : Fin 16) (r : RlResp), s.hw.rlHeard = true → s.hw.rl.immediate = some r →
      ∃ t, exec (.rlNop tag) s = .next t ∧ t.hw.rl.sent = r ∧ t.hw.rl.immediate = none) ∧
  (∀ (s : State) (tag : Fin 16) (speed : Fin 4) (keep : Bool) (v : Fin 16), s.hw.rlHeard = true →
      (s.hw.mode = modeSTART → (s.hw.engine .f4).running = true) →
      ∃ t, exec (.rlHello tag speed keep v) s = .next t ∧ t.hw.rd Reg.RL_STATUS_SESSION = 1 ∧
        t.hw.rl.grant = min speed.val (s.hw.rd Reg.RL_CFG_RL_MAX) ∧ t.hw.rl.immediate = some ⟨0x7, tag.val,
          min speed.val (s.hw.rd Reg.RL_CFG_RL_MAX) * 8192 + b2n s.hw.rl.lost * 4096 + 256⟩ ∧
        (keep = false → t.hw.rd Reg.FRM_STATUS_OVR = 0)) ∧
  (∀ (s : State) (tag : Fin 16) (rail : Fin 8) (slew : Fin 4) (code : Fin 2048) (mv : Nat), s.hw.rlHeard = true →
      s.hw.on Reg.RL_STATUS_SESSION = true → s.hw.rl.events.length < 16 → 1 ≤ rail.val → rail.val ≤ 5 →
      codeOk (rail.val - 1) code.val = true → s.hw.railRefuses (rail.val - 1) = false →
      s.hw.railOn (rail.val - 1) = true →
      s.hw.away .f4 = false → s.hw.railRoom (rail.val - 1) → s.hw.latchBad (railLatch (rail.val - 1)) = false →
      ∃ t, exec (.rlSetV tag rail slew code mv) s = .next t ∧ t.hw.rl.immediate = some ⟨0x1, tag.val, 0⟩ ∧
        t.hw.override (rail.val - 1) = true ∧ t.hw.railCode (rail.val - 1) = code.val) ∧
  (∀ (s : State) (tag : Fin 16) (rail : Fin 8) (mv : Nat), s.hw.rlHeard = true → s.hw.on Reg.RL_STATUS_SESSION = true →
      s.hw.rl.events.length < 16 → 1 ≤ rail.val → rail.val ≤ 5 → s.hw.railRefuses (rail.val - 1) = false →
      s.hw.f4Acts = true → s.hw.railRoom (rail.val - 1) → ∃ t, exec (.rlRelease tag rail mv) s = .next t ∧
        t.hw.rl.immediate = some ⟨0x1, tag.val, 0⟩ ∧ t.hw.override (rail.val - 1) = false) ∧
  (∀ (s : State) (tag : Fin 16) (rail : Fin 8) (on : Bool) (mv : Nat), s.hw.rlHeard = true →
      s.hw.on Reg.RL_STATUS_SESSION = true → s.hw.rl.events.length < 16 → 1 ≤ rail.val → rail.val ≤ 5 →
      s.hw.railRefuses (rail.val - 1) = false → s.hw.f4Acts = true → s.hw.railRoom (rail.val - 1) →
      s.hw.rails.rail.length = 5 →
      ∃ t, exec (.rlEnable tag rail on mv) s = .next t ∧ t.hw.rl.immediate = some ⟨0x1, tag.val, 0⟩ ∧
        t.hw.override (rail.val - 1) = true ∧ (t.hw.rail (rail.val - 1)).disabled = !on) ∧
  (∀ (s : State) (tag : Fin 16) (rail index : Fin 4) (code : Fin 2048) (mv : Nat), s.hw.rlHeard = true →
      s.hw.on Reg.RL_STATUS_SESSION = true → rail.val ≠ 0 → (code.val = 0 ∨ codeOk (rail.val - 1) code.val = true) →
      s.hw.railRefuses (rail.val - 1) = false →
      s.hw.on Reg.RL_CFG_TABLE_WR = true → ∃ t, exec (.rlTableWrite tag rail index code mv) s = .next t ∧
        t.hw.rl.immediate = some ⟨0x1, tag.val, 0⟩ ∧
        t.hw.rd (if index.val % 2 = 0 then Reg.POL_VTAB_ENTRY_LO (2 * (rail.val - 1) + index.val / 2)
          else Reg.POL_VTAB_ENTRY_HI (2 * (rail.val - 1) + index.val / 2)) = code.val) ∧
  (∀ (s : State) (tag : Fin 16) (set : Bool) (plan : Fin 4), s.hw.rlHeard = true →
      s.hw.on Reg.RL_STATUS_SESSION = true →
      s.hw.rl.events.length < 16 → ∃ t, exec (.rlPlan tag set plan) s = .next t ∧ t.hw.rd Reg.FRM_STATUS_OVR = b2n set ∧
        (set = true → t.hw.seq.planOvr = plan.val) ∧ t.hw.rl.immediate = some ⟨0x1, tag.val, 0⟩) ∧
  (∀ (s : State) (tag : Fin 16) (frn7 : Fin 128) (len : Fin 512), s.hw.rlHeard = true →
      s.hw.on Reg.RL_STATUS_SESSION = true → 1 ≤ len.val → len.val ≤ 500 →
      ∃ t, exec (.rlAptA tag frn7 len) s = .next t ∧
        t.hw.rl.aptA = some (frn7.val, len.val) ∧ t.hw.rl.immediate = some ⟨0x1, tag.val, 0⟩) ∧
  (∀ (s : State) (tag : Fin 16) (slot cycle : Fin 256) (f7 len : Nat), s.hw.rlHeard = true →
      s.hw.on Reg.RL_STATUS_SESSION = true → s.hw.rl.events.length < 16 → s.hw.rl.aptA = some (f7, len) →
      ∃ t, exec (.rlAptB tag slot cycle) s = .next t ∧ t.hw.rl.aptA = none ∧ t.hw.rl.aptTag = some tag.val ∧
        t.hw.seq.sched = some { frn := s.hw.frnAfter ((f7 + 128 - s.hw.frn % 128) % 128), slot := slot.val,
                                cycle := cycle.val * 512, len := len * 10, armedAt := s.hw.now, raised := false }) ∧
  (∀ (s : State) (tag : Fin 16) (rail : Fin 8) (mv : Nat), s.hw.rlHeard = true → s.hw.on Reg.RL_STATUS_SESSION = true →
      1 ≤ rail.val → rail.val ≤ 5 → s.hw.railRefuses (rail.val - 1) = false →
      ∃ t, exec (.rlRead tag ⟨rail, mv⟩) s = .next t ∧
        t.hw.rl.immediate = some ⟨0x5, tag.val, satN 15 mv⟩ ∧ t.hw.railMon (rail.val - 1) = satN 16 mv) ∧
  (∀ (s : State) (tag : Fin 16) (rail : Fin 8) (mv : Nat), s.hw.rlHeard = true → s.hw.on Reg.RL_STATUS_SESSION = true →
      1 ≤ rail.val → rail.val ≤ 5 → s.hw.railRefuses (rail.val - 1) = true →
      ∃ t, exec (.rlRead tag ⟨rail, mv⟩) s = .next t ∧
        t.hw.rl.immediate = some ⟨0x4, tag.val, 0x08⟩ ∧ t.hw.railMon (rail.val - 1) = s.hw.railMon (rail.val - 1)) ∧
  (∀ (s : State) (tag : Fin 16), s.hw.rlHeard = true → s.hw.on Reg.RL_STATUS_SESSION = true →
      ∃ t, exec (.rlResend tag) s = .next t ∧ t.hw.rl.immediate = some s.hw.rl.sent) ∧
  (∀ (s : State) (tag : Fin 16) (range : Bool), s.hw.rlHeard = true → s.hw.on Reg.RL_STATUS_SESSION = true →
      ∃ t, exec (.rlBadOpcode tag range) s = .next t ∧
        t.hw.rl.immediate = some ⟨0x4, tag.val, if range then 0x03 else 0x02⟩) ∧
  (∀ (s : State) (tag : Fin 16), s.hw.rlHeard = true → ∃ t, exec (.rlCrcError tag) s = .next t ∧
      t.hw.rl.immediate = some ⟨0x4, tag.val, 0x01⟩ ∧ t.hw.rl.crcFrame = s.hw.rl.crcFrame + 1) ∧
  (∀ (s : State) (clock : Nat), s.hw.rlHeard = true → ∃ t, exec (.rlFrameAbandon clock) s = .next t ∧
      s.hw.said t.hw Kind.RL_FRAME 0x34 clock) ∧
  (∀ (s : State) (rail : Fin 5) (mv : Nat), s.hw.rails.rail.length = 5 → s.hw.railOn rail.val = true →
      s.hw.refHeld rail.val = false → railMv rail.val (s.hw.railCode rail.val) * 99 ≤ mv * 100 →
      mv * 100 ≤ railMv rail.val (s.hw.railCode rail.val) * 101 →
      ∃ t, exec (.railArrived rail mv) s = .next t ∧ (t.hw.rail rail.val).tag = none ∧
        (t.hw.rail rail.val).arrived = true ∧ (t.hw.rail rail.val).ref = mv * 1000) ∧
  (∀ (s : State) (rail : Fin 5) (mv : Nat), s.hw.rails.rail.length = 5 → s.hw.offTarget rail.val = true →
      ∃ t, exec (.railArrived rail mv) s = .next t ∧ (t.hw.rail rail.val).tag = none ∧
      (t.hw.rail rail.val).arrived = true) ∧
  (∀ (s : State) (rail : Fin 5) (mv : Nat), s.hw.railOn rail.val = true → s.hw.refHeld rail.val = true →
      s.hw.within1 rail.val ((s.hw.rail rail.val).ref / 1000) = false → exec (.railArrived rail mv) s = .next s)

/-- R199 to R204: the keep-alive rail starts with the cells, its gaps are measured and filed, and its limit, its fold and
its standby role. Each clause about a command says when it completes, and the effects that it names. Readings of the
model's own: log entries 1, 79. -/
def Obligations.KeepAliveRailIsWatched : Prop :=
  (∀ s : State, s.hw.on Reg.KA_SET_EN = true → s.hw.rails.kaInvalid = false → ∃ t, exec .kaEnable s = .next t ∧
      t.hw.rd Reg.RAIL_STATUS_KA_ON = 1 ∧ t.hw.rd Reg.CHG_STATUS_PRESENT = 1) ∧
  (∀ (s : State) (t ms mv : Nat), s.hw.rails.kaArmed = true → s.hw.rails.kaGap = none → 200000 ≤ t →
      ∃ u, exec (.kaGap t ms mv) s = .next u ∧ u.hw.rd Reg.RAIL_STATUS_KA_LOW = 1 ∧ s.hw.said u.hw Kind.KA_GAP 0x3F ms ∧
        u.hw.rails.kaGap =
          some { frn := s.hw.frn, sc := s.hw.scAt (t - 200000), endFrn := 0, endSc := 0, lowest := mv, us := 0 }) ∧
  (∀ (s : State) (t ms mv : Nat), s.hw.rails.kaArmed = true → s.hw.rails.kaGap = none → t < 200000 →
      ∃ u, exec (.kaGap t ms mv) s = .next u ∧ u.hw.rd Reg.RAIL_STATUS_KA_LOW = 1 ∧ s.hw.said u.hw Kind.KA_GAP 0x3F ms ∧
        u.hw.rails.kaGap.map (fun g => g.frn) = some ((s.hw.frn + 2 ^ 32 - 1) % 2 ^ 32)) ∧
  (∀ (s : State) (t us mv : Nat) (g : KaGap), s.hw.on Reg.RAIL_STATUS_KA_ON = true → s.hw.rails.kaArmed = true →
      s.hw.rails.kaGap = some g → (s.hw.engine .f6).restarting = false → s.hw.rails.kaStored = [] →
      ∃ u, exec (.kaNodeRecover t us mv) s = .next u ∧ u.hw.rails.kaGap = none ∧ u.hw.rd Reg.RAIL_STATUS_KA_LOW = 0 ∧
        s.hw.filed u.hw JR.KA_GAP 0x3F) ∧
  (∀ (s : State) (t us mv : Nat), s.hw.on Reg.RAIL_STATUS_KA_ON = true → s.hw.rails.kaArmed = true →
      s.hw.rails.kaGap = none → ∃ u, exec (.kaNodeRecover t us mv) s = .next u ∧
        u.hw.rails.dips = s.hw.rails.dips + 1 ∧ u.hw.sub = s.hw.sub) ∧
  (∀ (s : State) (current : Nat), s.hw.on Reg.RAIL_STATUS_KA_ON = true → ∃ t, exec (.kaLimit current) s = .next t ∧
      s.hw.said t.hw Kind.KA_LIMIT 0x3F (current / 10)) ∧
  (∀ (s : State) (temp : Int), 150 ≤ temp → ∃ t, exec (.kaThermalFold temp) s = .next t ∧ t.hw.rails.kaFold = true ∧
      t.hw.regs = s.hw.regs) ∧
  (∀ (s : State) (temp : Int), temp < 130 → ∃ t, exec (.kaThermalFold temp) s = .next t ∧ t.hw.rails.kaFold = false ∧
      t.hw.regs = s.hw.regs) ∧
  (∀ s : State, s.hw.on Reg.KA_SET_TWIN = true → s.hw.on Reg.RAIL_STATUS_KA_ON = true →
      s.hw.on Reg.RAIL_STATUS_KA_STBY = true → ∃ t, exec .kaStandbyHandover s = .next t ∧ t.hw.rails.kaCarries = true) ∧
  (∀ s : State, s.hw.twin.standby = false → ∃ t, exec .kaOffsetRemoval s = .next t ∧
      t.hw.rd Reg.RAIL_STATUS_KA_STBY = 0)

/-- R207, R209, R211, R212, R224, R227: attach, detach, accessories, the toggle, VCONN and the cable's identity. Each
clause about a command says when it completes, and the effects that it names. Readings of the model's own: log entries
1, 4. -/
def Obligations.CablePortAttaches : Prop :=
  (∀ (s : State) (cc2 : Bool) (rp : Fin 4), s.hw.port = 0 → rp.val ≠ 0 → s.hw.on Reg.INTAKE_STATUS_VBUS_QUAL = true →
      ∃ t, exec (.ccAttachSnk cc2 rp) s = .next t ∧ t.hw.port = 1 ∧ t.hw.rd Reg.CBL_STATUS_ORIENT = b2n cc2 ∧
        t.hw.rd Reg.CBL_STATUS_RP = rp.val ∧ t.hw.rd Reg.CBL_CONTRACT_VOLT = 500 ∧
        t.hw.rd Reg.CBL_CONTRACT_CURR = rpCurrent rp.val) ∧
  (∀ (s : State) (cc2 ra : Bool), s.hw.port = 0 → s.hw.permitted = true → ∃ t, exec (.ccAttachSrc cc2 ra) s = .next t ∧
      t.hw.port = 2 ∧ t.hw.rd Reg.CBL_STATUS_DFP = 1 ∧ t.hw.cable.rp = true ∧ t.hw.cable.ra = ra) ∧
  (∀ s : State, s.hw.port ≠ 0 → ∃ t, exec .ccDetach s = .next t ∧ t.hw.port = 0 ∧ t.hw.rd Reg.CBL_STATUS_EXPLICIT = 0 ∧
      t.hw.rd Reg.CBL_STATUS_FS_MODE = 0 ∧ t.hw.cable.rp = false) ∧
  (∀ s : State, s.hw.port = 0 → exec .ccDetach s = .next s) ∧
  (∀ s : State, s.hw.port ≠ 0 → ∃ t, exec .cablePulledInTransition s = .next t ∧ t.hw.port = 0 ∧
      t.hw.rd Reg.CBL_STATUS_EXPLICIT = 0) ∧
  (∀ s : State, s.hw.port = 0 → s.hw.cable.rp = true → ∃ t, exec (.accessoryAttach .audio) s = .next t ∧ t.hw.port = 3 ∧
      t.hw.rd Reg.CBL_STATUS_ATTACH_CHG = (if s.hw.on Reg.CBL_STATUS_ATTACH_CHG then s.hw.rd
      Reg.CBL_STATUS_ATTACH_CHG else 1)) ∧
  (∀ s : State, s.hw.port = 0 → s.hw.inService = false → ∃ t, exec (.accessoryAttach .debug) s = .next t ∧
      t.hw.port = 0 ∧ s.hw.hsaid t.hw Kind.DEBUG_DENIED 0x00 0) ∧
  (∀ s : State, s.hw.port = 0 → ∃ t, exec .drpToggle s = .next t ∧ t.hw.regs = s.hw.regs ∧
      t.hw.cable.rp = (!s.hw.cable.rp && s.hw.permitted)) ∧
  (∀ (s : State) (ma : Nat), s.hw.on Reg.CBL_STATUS_VCONN = true → ∃ t, exec (.vconnOcp ma) s = .next t ∧
      t.hw.rd Reg.CBL_STATUS_VCONN = 0 ∧ t.hw.rd Reg.CBL_CABLE_EMARKED = 0 ∧ s.hw.hsaid t.hw Kind.VCONN_OCP 0x3A ma) ∧
  (∀ (s : State) (icap vmax : Fin 4) (usb2 : Bool), s.hw.pdServes = true →
      s.hw.on Reg.CBL_STATUS_VCONN = true → s.hw.cable.discTries < 20 →
      ∃ t, exec (.cableDiscoverIdentity (some (icap, vmax, usb2))) s = .next t ∧ t.hw.rd Reg.CBL_CABLE_EMARKED = 1 ∧
        t.hw.rd Reg.CBL_CABLE_ICAP = icap.val ∧ t.hw.rd Reg.CBL_CABLE_VMAX = vmax.val ∧
        t.hw.rd Reg.CBL_CABLE_NO_SBU = b2n usb2) ∧
  (∀ (s : State) (pads : Fin 16), s.hw.port ≠ 2 → ∃ t, exec (.ccOvp pads) s = .next t ∧
      t.hw.rd Reg.CBL_STATUS_VCONN = 0 ∧ t.hw.rd Reg.CBL_STATUS_FS_MODE = 0 ∧ t.hw.cable.rp = false ∧
      s.hw.hsaid t.hw Kind.CC_OVP 0x3A pads.val) ∧
  (∀ s : State, s.hw.port = 5 → ∃ t, exec .errorRecoveryExit s = .next t ∧ t.hw.port = 0 ∧ t.hw.cable.discharge = false)

/-- R214 to R217, R226, R228, R231: the sink requests, contracts and repeats; swaps, Soft_Reset and Hard Reset. Each
clause about a command says when it completes, and the effects that it names. Readings of the model's own: log entries
1, 4. -/
def Obligations.SinkContractsAndSwaps : Prop :=
  (∀ (s : State) (p : Pdo) (partner : Partner), s.hw.pdServes = true → s.hw.port = 1 →
      p.kind = .fixed → p.vmax = 5000 → 50 ≤ s.hw.rd Reg.CBL_SNK_CFG_VMAX →
      ∃ t, exec (.sourceCapabilities [p] partner) s = .next t ∧ t.hw.cable.pdSeen = true ∧
        t.hw.cable.req = some { mv := 5000, curr := min p.imax 6000 / 10, type := 1, pos := p.pos }) ∧
  (∀ (s : State) (x : Terms), s.hw.pdServes = true → s.hw.port = 1 → s.hw.cable.swap ≠ 1 →
      s.hw.cable.req = some x → ∃ t, exec .pdAccept s = .next t ∧ t.hw.cable.transit = true ∧ t.hw.cable.req = some x) ∧
  (∀ (s : State) (x : Terms), s.hw.pdServes = true → s.hw.port = 1 → s.hw.cable.frsRx = false →
      s.hw.cable.swap = 0 → s.hw.cable.transit = true → s.hw.cable.req = some x →
      x.mv / 10 < 2 ^ Reg.CBL_CONTRACT_VOLT.width → ∃ t, exec .pdPsRdy s = .next t ∧ t.hw.cable.req = none ∧
        t.hw.rd Reg.CBL_STATUS_EXPLICIT = 1 ∧ t.hw.rd Reg.CBL_CONTRACT_ROLE = 1 ∧
        t.hw.rd Reg.CBL_CONTRACT_VOLT = x.mv / 10 ∧
        (s.hw.rd Reg.CBL_CONTRACT_VOLT * 10 = x.mv → t.hw.cable.window = true) ∧
        (s.hw.rd Reg.CBL_CONTRACT_VOLT * 10 ≠ x.mv →
          t.hw.cable.winDue = some (s.hw.now + 10000000, x.mv, x.type = 2 || x.type = 3))) ∧
  (∀ s : State, s.hw.pdServes = true → s.hw.port = 1 → s.hw.rd Reg.CBL_CONTRACT_TYPE = 2 →
      s.hw.cable.transit = false → ∃ t, exec .ppsRequestRepeat s = .next t ∧ t.hw.regs = s.hw.regs ∧
        t.hw.cable.req = some { mv := s.hw.rd Reg.CBL_CONTRACT_VOLT * 10, curr := s.hw.rd Reg.CBL_CONTRACT_CURR, type
        := 2,
                                pos := s.hw.rd Reg.CBL_CONTRACT_POS }) ∧
  (∀ s : State, s.hw.pdServes = true → s.hw.on Reg.CBL_STATUS_EPR = true → s.hw.cable.eprMiss = 2 →
      ∃ t, exec (.eprKeepalive false) s = .next t ∧ t.hw.cable.eprMiss = 0 ∧
      s.hw.hsaid t.hw Kind.PD_SOFT_RESET 0x00 0) ∧
  (∀ s : State, s.hw.pdServes = true → (s.hw.port = 1 ∨ s.hw.port = 2) →
      ∃ t, exec (.vconnSwap true) s = .next t ∧ t.hw.rd Reg.CBL_STATUS_VCONN = b2n (!s.hw.on Reg.CBL_STATUS_VCONN)) ∧
  (∀ s : State, s.hw.pdServes = true → s.hw.port = 1 → s.hw.permitted = true →
      ∃ t, exec .prSwapReceived s = .next t ∧ t.hw.cable.swap = 2) ∧
  (∀ s : State, s.hw.pdServes = true → s.hw.port = 2 →
      ∃ t, exec .prSwapReceived s = .next t ∧ t.hw.cable.swap = 4 ∧ t.hw.cable.srcSwitch = false ∧
      t.hw.cable.rp = false) ∧
  (∀ s : State, s.hw.pdServes = true → (s.hw.port = 1 ∨ s.hw.port = 2) → s.hw.cable.swap = 0 →
      ∃ t, exec .cblPrSwap s = .next t ∧ t.hw.cable.swap = 1 ∧ t.hw.regs = s.hw.regs) ∧
  (∀ s : State, s.hw.pdServes = true → (s.hw.port = 1 ∨ s.hw.port = 2) →
      s.hw.on Reg.CBL_CFG_DR_SWAP_ACC = true → s.hw.on Reg.CBL_STATUS_FS_MODE = false → ∃ t, exec .drSwap s = .next t ∧
        t.hw.rd Reg.CBL_STATUS_DFP = b2n (!s.hw.on Reg.CBL_STATUS_DFP)) ∧
  (∀ (s : State) (received : Bool), s.hw.pdServes = true →
      ∃ t, exec (.softReset received) s = .next t ∧ t.hw.cable.req = none ∧ t.hw.cable.transit = false ∧
        s.hw.hsaid t.hw Kind.PD_SOFT_RESET 0x00 (b2n received)) ∧
  (∀ s : State, s.hw.pdServes = true → s.hw.port = 1 →
      ∃ t, exec (.pdResponseTimeout .senderResponse) s = .next t ∧ t.hw.cable.req = none ∧
        s.hw.hsaid t.hw Kind.PD_SOFT_RESET 0x00 0) ∧
  (∀ s : State, s.hw.pdServes = true → s.hw.port = 1 → 2 ≤ s.hw.cable.hardResets →
      ∃ t, exec .pdNoResponse s = .next t ∧ t.hw.cable.hardResets = 0 ∧
        t.hw.rd Reg.CBL_CONTRACT_CURR = rpCurrent (s.hw.rd Reg.CBL_STATUS_RP) ∧
        s.hw.hsaid t.hw Kind.PD_NO_RESPONSE 0x00 0) ∧
  (∀ (s : State) (received : Bool), s.hw.pdServes = true → s.hw.port = 1 → s.hw.cable.swap = 0 →
      ∃ t, exec (.hardReset received) s = .next t ∧ t.hw.rd Reg.CBL_STATUS_EXPLICIT = 0 ∧ t.hw.port = 1 ∧
        t.hw.cable.hardResets = s.hw.cable.hardResets + 1 ∧ s.hw.hsaid t.hw Kind.PD_HARD_RESET 0x00 (b2n received))

/-- R218 to R225, R229 to R231, R234 to R238: the source role starts, contracts and ends; the fast role swap; the
frame-share mode. Each clause about a command says when it completes, and the effects that it names. Readings of the
model's own: log entries 1, 69, 74, 106. -/
def Obligations.SourceRoleAndFrameShare : Prop :=
  (∀ s : State, s.hw.port = 2 → s.hw.cable.asked = false → s.hw.permitted = true →
      ∃ t, exec .sourceBringup s = .next t ∧
      t.hw.cable.asked = true ∧ t.hw.regs = s.hw.regs) ∧
  (∀ (s : State) (vcbuf : Nat) (ra : Bool), s.hw.port = 2 → 5000 ≤ vcbuf → s.hw.rd Reg.INTAKE_STATUS_ACTIVE ≠ 1 →
      s.hw.cable.asked = true → s.hw.cable.granted = true →
      ∃ t, exec (.sourceSwitchClose vcbuf ⟨true, ra⟩) s = .next t ∧ t.hw.cable.srcSwitch = true ∧
        t.hw.cable.discharge = false ∧ t.hw.cable.swap = 0 ∧ (ra = true → t.hw.rd Reg.CBL_STATUS_VCONN = 1)) ∧
  (∀ (s : State) (vbus : Nat), s.hw.port = 2 → vbus < 4750 → ∃ t, exec (.sourceBringupTimeout vbus) s = .next t ∧
      t.hw.port = 5 ∧ t.hw.cable.srcSwitch = false ∧ t.hw.cable.sinkOnly = true) ∧
  (∀ (s : State) (pos : Fin 16) (pd3 : Bool) (curr : Nat), s.hw.pdServes = true → s.hw.port = 2 →
      s.hw.cable.srcSwitch = true → pos.val < 5 → curr ≤ s.hw.rd Reg.CBL_OFFER_A_I5 →
      ∃ t, exec (.sinkRequest ⟨pos, pd3⟩ 5000 curr) s = .next t ∧ t.hw.cable.transit = true ∧
        t.hw.cable.req = some { mv := 5000, curr := curr, type := 1, pos := pos.val } ∧
        t.hw.rd Reg.CBL_PARTNER_REV = (if pd3 then 2 else 1)) ∧
  (∀ (s : State) (pos : Fin 16) (pd3 : Bool) (mv curr : Nat), pd3 = false ∨ pos.val < 5 → mv = 12000 →
      exec (.sinkRequest ⟨pos, pd3⟩ mv curr) s = .next s) ∧
  (∀ (s : State) (x : Terms), s.hw.cable.req = some x → s.hw.port = 2 → s.hw.cable.transit = true →
      ∃ t, exec .sourceTransitionStart s = .next t ∧ t.hw.regs = s.hw.regs ∧ t.hw.cable = s.hw.cable ∧
        t.hw.host.h.waiting.length + t.hw.host.h.queue.length = s.hw.host.h.waiting.length + s.hw.host.h.queue.length
        + 1) ∧
  (∀ (s : State) (vbus : Nat) (x : Terms), s.hw.cable.req = some x → s.hw.port = 2 → s.hw.cable.transit = true →
      sourceTarget x * 97 ≤ vbus * 100 → vbus * 100 ≤ sourceTarget x * 103 → ∃ t, exec (.sourcePsRdy vbus) s = .next t ∧
        t.hw.rd Reg.CBL_STATUS_EXPLICIT = 1 ∧ t.hw.rd Reg.CBL_CONTRACT_ROLE = 2 ∧ t.hw.cable.req = none ∧
        t.hw.seq.refuseSource = false) ∧
  (∀ (s : State) (ma : Nat), s.hw.port = 2 → s.hw.cable.ocps = [] →
      s.hw.rd Reg.CBL_STATUS_EXPLICIT = 0 ∨ s.hw.srcLimit ≤ ma → ∃ t, exec (.srcOcp ma) s = .next t ∧
      t.hw.cable.srcSwitch = false ∧ t.hw.rd Reg.CBL_STATUS_EXPLICIT = 0 ∧ t.hw.cable.ocps = [s.hw.now]) ∧
  (∀ s : State, s.hw.port = 2 → s.hw.rd Reg.CBL_CONTRACT_TYPE = 2 → ∃ t, exec .ppsSourceTimeout s = .next t ∧
      t.hw.cable.srcSwitch = false ∧ t.hw.rd Reg.CBL_CONTRACT_TYPE = 0) ∧
  (∀ (s : State) (vbus : Nat) (slow : Bool), s.hw.port = 2 → s.hw.on Reg.CBL_CFG_FRS_TX_EN = false →
      ∃ t, exec (.sourceRoleEnd .revBatFloor vbus slow) s = .next t ∧ t.hw.port = 5 ∧ t.hw.cable.srcSwitch = false) ∧
  (∀ s : State, s.hw.port = 2 → s.hw.on Reg.CBL_CFG_FRS_TX_EN = false → ∃ t, exec .cblExitSrc s = .next t ∧
      t.hw.port = 5 ∧ t.hw.cable.srcSwitch = false) ∧
  (∀ s : State, s.hw.port = 2 → s.hw.on Reg.INTAKE_STATUS_DCIN_QUAL = true → s.hw.on Reg.CBL_CFG_DCIN_ENDS_SRC = true →
      s.hw.on Reg.CBL_CFG_FRS_TX_EN = false → ∃ t, exec .dcinEndsSource s = .next t ∧ t.hw.port = 5) ∧
  (∀ s : State, s.hw.on Reg.CBL_STATUS_FRS_ARMED = true → ∃ t, exec .frsSignalDetect s = .next t ∧
      t.hw.cable.frsRx = true ∧ t.hw.rd Reg.CBL_STATUS_FRS_ARMED = 0 ∧
      (s.hw.rd Reg.INTAKE_MON_V_VBUS < 470 → s.hw.rd Reg.INTAKE_STATUS_ACTIVE ≠ 1 ∨ s.hw.intake.blocked = true →
        t.hw.cable.srcSwitch = true) ∧
      (470 ≤ s.hw.rd Reg.INTAKE_MON_V_VBUS ∨ s.hw.rd Reg.INTAKE_STATUS_ACTIVE = 1 ∧ s.hw.intake.blocked = false →
        t.hw.cable.srcSwitch = s.hw.cable.srcSwitch)) ∧
  (∀ s : State, s.hw.pdServes = true → s.hw.cable.frsSent = true → ∃ t, exec .frSwapReceived s = .next t ∧
      t.hw.port = 1 ∧
      t.hw.cable.frsSent = false ∧ t.hw.cable.rp = false) ∧
  (∀ s : State, s.hw.cable.frsSent = true → ∃ t, exec .frsTimeout s = .next t ∧ t.hw.port = 5 ∧
      t.hw.cable.frsSent = false) ∧
  (∀ s : State, s.hw.pdServes = true → s.hw.on Reg.CBL_CFG_FS_EN = true →
      s.hw.on Reg.CBL_STATUS_EXPLICIT = true → s.hw.on Reg.CBL_CABLE_NO_SBU = false →
      s.hw.on Reg.CBL_STATUS_FS_MODE = false →
      s.hw.cable.fsTries < 2 → s.hw.on Reg.CBL_STATUS_DFP = true → s.hw.rd Reg.CBL_FS_CFG_TICK = 2 →
      ∃ t, exec (.frameShareEnter false true true true) s = .next t ∧ t.hw.rd Reg.CBL_STATUS_FS_MODE = 1 ∧
        t.hw.cable.fsDrive = true) ∧
  (∀ s : State, ∃ t, exec .cblFsEnter s = .next t ∧ t.hw.cable.fsTries = 0 ∧ t.hw.regs = s.hw.regs) ∧
  (∀ s : State, ∃ t, exec .cblFsExit s = .next t ∧ t.hw.rd Reg.CBL_STATUS_FS_MODE = 0 ∧ t.hw.port = s.hw.port) ∧
  (∀ (s : State) (vbus : Nat), s.hw.port = 2 → s.hw.host.pinLow = true →
      ∃ t, exec (.hRstNSourceTimeout vbus) s = .next t ∧
      t.hw.cable.srcSwitch = false ∧ s.hw.hsaid t.hw Kind.SRC_VBUS_FAULT 0x3A (vbus / 100))

/-- R250 to R262, R265: regular and injected conversions, the rotation and calibration of slices, the reference. Each
clause about a command says when it completes, and the effects that it names. Readings of the model's own: log entries
1, 4, 58, 65, 66, 124, 125. -/
def Obligations.MeasurementRuns : Prop :=
  (∀ (s : State) (e : Fin 16) (x : Samples) (i : Nat) (sl : Option Nat) (ds : List (Nat × Option Nat)),
      s.hw.adc.due = (i, sl) :: ds → i % 16 = e.val → s.hw.seqOn i = true →
      (∀ k ∈ sl, slotStart s.hw.seq.len k ≤ x.t) → s.hw.bit Reg.ADC_STATUS_ACTIVE x.slice.val = true →
      s.hw.adc.queue.length < 992 → s.hw.adc.inj = [] → s.hw.canIssue 17 (0x28 + x.slice.val) false false = true →
      s.hw.host.work = [] →
      ∃ t, exec (.sequenceEntryDue e x) s = .next t ∧ t.hw.adc.inj = [] ∧ t.hw.seq.t = x.t ∧ t.hw.adc.due = ds ∧
        t.hw.adc.queue.length = s.hw.adc.queue.length + 1) ∧
  (∀ (s : State) (tkt : Fin 512) (x : Samples) (c : Conv), s.hw.adc.inj = [c] → c.tkt = tkt.val → c.result = none →
      s.hw.tktState tkt.val = .running → s.hw.bit Reg.ADC_STATUS_ACTIVE x.slice.val = true → s.hw.host.work = [] →
      ∃ t, exec (.injectedConversionDone tkt x) s = .next t ∧ t.hw.seq.t = x.t) ∧
  (∀ (s : State) (out : Nat), s.hw.rd Reg.ADC_STATUS_SPARE ≠ 7 → s.hw.adc.spareReady = true →
      s.hw.on Reg.ADC_STATUS_ROT_STOP = false → s.hw.adc.rotAt + 50000000 ≤ s.hw.seq.tickAt + s.hw.seq.len →
      s.hw.injPending.length < s.hw.activeCount → nextSlice (s.hw.rd Reg.ADC_STATUS_SPARE)
        ((List.range 5).filter fun i => s.hw.bit Reg.ADC_STATUS_ACTIVE i) = some out →
      ∃ t, exec .sliceRotation s = .next t ∧ t.hw.rd Reg.ADC_STATUS_SPARE = out ∧ t.hw.adc.spareReady = false ∧
        t.hw.bit Reg.ADC_STATUS_ACTIVE out = false ∧ t.hw.adc.rotAt = max s.hw.now (s.hw.adc.rotAt + 50000000)) ∧
  (∀ (s : State) (c : CalRun), s.hw.rd Reg.ADC_STATUS_SPARE < 5 → s.hw.adc.slices.length = 5 →
      calStep (s.hw.slice (s.hw.rd Reg.ADC_STATUS_SPARE)) c = 0 → ∃ t, exec (.spareCalibrationDone c) s = .next t ∧
        t.hw.adc.spareReady = true ∧ (t.hw.slice (s.hw.rd Reg.ADC_STATUS_SPARE)).calAt = some s.hw.now ∧
        (t.hw.slice (s.hw.rd Reg.ADC_STATUS_SPARE)).offset = c.offset) ∧
  (∀ (s : State) (slice : Fin 5) (timeout : Bool), s.hw.bit Reg.ADC_STATUS_FENCED slice.val = false →
      ∃ t, exec (.adcSliceFault slice timeout none) s = .next t ∧ t.hw.bit Reg.ADC_STATUS_FENCED slice.val = true) ∧
  (∀ (s : State) (tctl : Int), s.hw.adc.fgDone = false → ∃ t, exec (.foregroundCalStart tctl) s = .next t ∧
      t.hw.rd Reg.ADC_STATUS_FGCAL = 1) ∧
  (∀ (s : State) (tctl : Int) (refmon : Nat) (consts : List (Int × Int)), s.hw.on Reg.ADC_STATUS_FGCAL = true →
      ∃ t, exec (.foregroundCalDone tctl refmon consts) s = .next t ∧ t.hw.rd Reg.ADC_STATUS_FGCAL = 0 ∧
        t.hw.adc.fgDone = true ∧ t.hw.adc.fgApply = some consts ∧ s.hw.filed t.hw JR.ADC_SELFCAL 0x15) ∧
  (∀ s : State, s.hw.on Reg.ADC_STATUS_REF_ON = true → ∃ t, exec .refSettled s = .next t ∧
      t.hw.rd Reg.ADC_STATUS_REF_SETTLED = 1) ∧
  (∀ (s : State) (ppm : Int), 5000 < ppm.natAbs → s.hw.adc.refMon = false → ∃ t, exec (.refMon ppm) s = .next t ∧
      t.hw.adc.refMon = true ∧ s.hw.said t.hw Kind.REF_MON 0x2D ppm.natAbs) ∧
  (∀ (s : State) (current : Nat), s.hw.on Reg.ADC_CFG_REFOUT_EN = true → s.hw.refCoreOn = true → 120 < current →
      ∃ t, exec (.refoutLimit current) s = .next t ∧ s.hw.said t.hw Kind.REFOUT_LIMIT 0x2D current) ∧
  (∀ (s : State) (slice : Fin 5) (tag : Fin 48) (high : Bool) (t : Nat), s.hw.adc.ovrRuns = [] →
      ∃ u, exec (.adcOvr slice tag high t) s = .next u ∧ s.hw.said u.hw Kind.ADC_OVR 0x15 tag.val ∧
        u.hw.adc.ovrRuns = [(tag.val, 0)]) ∧
  (∀ s : State, s.hw.on Reg.RTC_STATUS_VALID = true → s.hw.adc.inUse ≠ [] → s.hw.rd Reg.CAL_DUE_DUE ≤ s.hw.timeNow.1 →
      s.hw.on Reg.ADC_STATUS_DUE_PASSED = false → ∃ t, exec .calDue s = .next t ∧
      t.hw.rd Reg.ADC_STATUS_DUE_PASSED = 1 ∧
        s.hw.said t.hw Kind.CAL_DUE 0x15 ((s.hw.timeNow.1 - s.hw.rd Reg.CAL_DUE_DUE) / 86400) ∧
        s.hw.filed t.hw JR.CAL_DUE 0x15) ∧
  (∀ s : State, s.hw.inService = true → ∃ t, exec .adcClrFence s = .next t ∧ t.hw.rd Reg.ADC_STATUS_FENCED = 0)

/-- R277, R278, R281, R284 to R289, R292, R293, R297, R299, R300: records are accepted, closed into pages and committed in
their order; what the media do. Each clause about a command says when it completes, and the effects that it names.
Readings of the model's own: log entries 1, 5, 54, 68, 111, 116. -/
def Obligations.JournalTakesAndCommits : Prop :=
  (∀ (s : State) (x : Append) (xs : List Append) (n : Nat), s.hw.sub = x :: xs → x.tkt = some n →
      s.hw.cmdOfTicket n = none → s.hw.on Reg.TWN_CFG_EN = false → s.hw.on Reg.JRN_STATUS_HOLDUP = false →
      s.hw.host.work = [] → s.hw.on Reg.JRN_STATUS_FULL = false → x.r.crit = false → s.hw.fits x.r = true →
      ∃ t, exec .journalAppend s = .next t ∧ t.hw.sub = xs ∧ t.hw.jrn.staged.length = s.hw.jrn.staged.length + 1 ∧
        (isSealJsn (s.hw.rd Reg.JRN_NEXT_JSN + 1) = false →
          t.hw.rd Reg.JRN_NEXT_JSN = (s.hw.rd Reg.JRN_NEXT_JSN + 1) % 2 ^ 64)) ∧
  (∀ (s : State) (vchold : Nat), s.hw.sub = [] → ∃ t, exec (.holdupAllowanceUpdate vchold) s = .next t ∧
      t.hw.rd Reg.JRN_CHOLD_VCHOLD = satN 16 vchold ∧ t.hw.rd Reg.JRN_STATUS_HOLD_BAT = b2n s.hw.holdBat ∧
      t.hw.rd Reg.JRN_ALLOW_ALLOW = (if s.hw.holdBat then 0x200000 else cholAllow s.hw.ceff (satN 16 vchold))) ∧
  (∀ (s : State) (us current : Nat), ∃ t, exec (.choldMeasure us current) s = .next t ∧
      t.hw.rd Reg.JRN_CHOLD_CEFF = satN Reg.JRN_CHOLD_CEFF.width (current * us / 400000) ∧
      (current * us / 400000 < 376 → s.hw.said t.hw Kind.CHOLD_LOW 0x16 (current * us / 400000 / 10))) ∧
  (∀ s : State, s.hw.pageDue = true → s.hw.mode ≠ modeKEEPALIVE → pageFit pageBytes pageRecords s.hw.openPage ≠ 0 →
      ∃ t, exec .pageClose s = .next t ∧
        t.hw.jrn.closed = s.hw.jrn.closed ++ [pageFit pageBytes pageRecords s.hw.openPage]) ∧
  (∀ (s : State) (k : Nat) (ks : List Nat), s.hw.jrn.closed = k :: ks → s.hw.canCommit = true →
      s.hw.on Reg.JRN_STATUS_READY = true → s.hw.mayProgram = true → s.hw.mode ≠ modeKEEPALIVE →
      ∃ t, exec .pageCommit s = .next t ∧ t.hw.jrn.closed = ks ∧ t.hw.jrn.staged = s.hw.jrn.staged.drop k) ∧
  (∀ (s : State) (k n : Nat) (ks : List Nat), s.hw.mayProgram = true → s.hw.jrn.closed = k :: ks →
      s.hw.blockFor (Config.ringProgFails s.hw.jrn.psn) = some n →
      (Config.ringProgFails s.hw.jrn.psn = true → s.hw.allocate ≠ none) →
      ∃ t, exec .nandProgFail s = .next t ∧ t.hw.rd Reg.JRN_STATUS_MEDIA_EVT = 1 ∧
        s.hw.said t.hw Kind.JRN_PROG_FAIL 0x35 n) ∧
  (∀ (s : State) (block : Fin 4096), s.hw.erasable (s.hw.nandBlock block.val) = true → s.hw.mayErase = true →
      ∃ t, exec (.nandEraseDone block true) s = .next t ∧ (t.hw.nandBlock block.val).pages = [] ∧
        (t.hw.nandBlock block.val).erases = (s.hw.nandBlock block.val).erases + 1) ∧
  (∀ (s : State) (psn : Nat) (codeword : Fin 16) (corrections : Nat) (b : NandBlock), 24 < corrections →
      (s.hw.jrn.blocks.find? fun b => b.pages.any fun (p : NandPage) => p.psn == psn) = some b →
      ∃ t, exec (.nandEccRead ⟨psn, codeword⟩ corrections) s = .next t ∧ t.hw.jrn.unreadSince = true ∧
        t.hw.rd Reg.JRN_STATUS_MEDIA_EVT = 1 ∧ s.hw.said t.hw Kind.JRN_ECC_FAIL 0x35 b.num) ∧
  (∀ s : State, s.hw.on Reg.TWN_CFG_EN = false → s.hw.on Reg.JRN_STATUS_SEALING = true →
      isSealJsn s.hw.jrn.hashNext = true → ∃ t, exec (.sealBuild 0) s = .next t ∧ t.hw.rd Reg.JRN_STATUS_SEALING = 0 ∧
        t.hw.jrn.staged.length = s.hw.jrn.staged.length + 1 ∧ t.hw.jrn.sealTries = 0) ∧
  (∀ (s : State) (k : Nat), s.hw.mode = modeKEEPALIVE → s.hw.numbers = true → 64 ≤ s.hw.jrn.kaSecs →
      s.hw.jrn.closed = [k] →
      s.hw.jrn.staged.length = k → 0 < k → s.hw.canCommit = true → ∃ t, exec .keepaliveFlush s = .next t ∧
        t.hw.jrn.staged = [] ∧ t.hw.jrn.closed = [] ∧ t.hw.jrn.kaSecs = 0) ∧
  (∀ s : State, s.hw.jrn.scanned = false → ∃ t, exec (.nandScan 0) s = .next t ∧ t.hw.rd Reg.JRN_STATUS_READY = 1 ∧
      t.hw.jrn.scanned = true ∧ t.hw.jrn.powerUp = none) ∧
  (∀ s : State, s.hw.rd Reg.JRN_BLOCKS_FREE < 16 → s.hw.on Reg.JRN_STATUS_FULL = false →
      ∃ t, exec .journalFull s = .next t ∧
      t.hw.rd Reg.JRN_STATUS_FULL = 1 ∧ s.hw.said t.hw Kind.JRN_FULL 0x16 (s.hw.rd Reg.JRN_BLOCKS_FREE)) ∧
  (∀ s : State, 32 ≤ s.hw.rd Reg.JRN_BLOCKS_FREE → ∃ t, exec .journalFullExit s = .next t ∧
      t.hw.rd Reg.JRN_STATUS_FULL = 0)

/-- R275, R285, R304, R305, R306, R328, R447: summaries, the RTC, the loss of the hold-up supply and the start that
resumes after it. Each clause about a command says when it completes, and the effects that it names. Readings of the
model's own: log entries 1, 41, 78. -/
def Obligations.SummariesTimeAndHoldup : Prop :=
  (∀ (s : State) (x : SecondMeans), (s.hw.engine .f6).running = true → (s.hw.engine .f6).restarting = false →
      ∃ t, exec (.jrSummary x) s = .next t ∧ t.hw.jrn.frzSlots = 0 ∧ t.hw.jrn.refSlots = 0 ∧
        s.hw.filed t.hw JR.SUMMARY 0x16) ∧
  (∀ (s : State) (x : SecondMeans), (s.hw.engine .f6).restarting = true → ∃ t, exec (.jrSummary x) s = .next t ∧
      t.hw.sub = s.hw.sub ∧ t.hw.jrn.seconds.length = min 8 (s.hw.jrn.seconds.length + 1)) ∧
  (∀ s : State, s.hw.on Reg.RTC_STATUS_OSC_FAIL = false → ∃ t, exec .rtcOscFail s = .next t ∧
      t.hw.rd Reg.RTC_STATUS_OSC_FAIL = 1 ∧ t.hw.rd Reg.RTC_STATUS_VALID = 0 ∧
      s.hw.said t.hw Kind.RTC_OSC_FAIL 0x3B 0) ∧
  (∀ (s : State) (mv : Nat), mv < 2000 → s.hw.jrn.bkpSaid = false → ∃ t, exec (.rtcBkpLow mv) s = .next t ∧
      t.hw.rd Reg.RTC_STATUS_BKP_LOW = 1 ∧ s.hw.said t.hw Kind.RTC_BKP_LOW 0x3B (mv / 10)) ∧
  (∀ (s : State) (err : Int), (s.hw.domain .fCore).on = true → s.hw.on Reg.RTC_STATUS_OSC_FAIL = false →
      s.hw.mode ≠ modeKEEPALIVE → -32768 ≤ err → err ≤ 32767 → ∃ t, exec (.rtcRateCorrection err) s = .next t ∧
        t.hw.rdI Reg.RTC_ERR_RATE = err ∧ t.hw.rd Reg.RTC_STATUS_DISCIPLINED = 1 ∧ t.hw.jrn.rateAt = s.hw.frn) ∧
  (∀ (s : State) (t : Nat), s.hw.on Reg.JRN_STATUS_HOLDUP = false → s.hw.modes.faonOn = true →
      ∃ u, exec (.holdupEvent t) s = .next u ∧ u.hw.rd Reg.JRN_STATUS_HOLDUP = 1 ∧ u.hw.frozen = false) ∧
  (∀ (s : State) (x : StartInfo), s.hw.on Reg.JRN_STATUS_HOLDUP = true → s.hw.modes.faonOn = true →
      ∃ t, exec (.resumeStart x) s = .next t ∧ t.hw.rd Reg.JRN_STATUS_HOLDUP = 0)

/-- R19 to R23, R26, R43, R44, R229, R327: the tick; privilege; engines that restart; domains that fall, return and are
switched off; a FIFO's parity; the fast role swap code. Each clause about a command says when it completes, and the
effects that it names. Readings of the model's own: log entries 1, 35, 36, 49, 73. -/
def Obligations.EnginesAndDomainsFollow : Prop :=
  (∀ (s : State) (f : Frame), s.hw.modes.faonOn = true → ∃ t, exec (.frameTick f) s = .next t ∧
      t.hw.rd Reg.FRM_FRN_FRN = (s.hw.rd Reg.FRM_FRN_FRN + 1) % 2 ^ 32) ∧
  (∀ (s : State) (f : Frame), s.hw.modes.faonOn = false → exec (.frameTick f) s = .next s) ∧
  (∀ (s : State) (w : Engine) (addr : Nat) (a : GuardAction), w ≠ guardOf w.side →
      ∃ t, exec (.guardPrivilegedWrite w addr a) s = .next t ∧ t.hw.regs.length ≤ s.hw.regs.length + 1 ∧
        (w.side = .field → s.hw.said t.hw Kind.PRIVILEGE w.id (addr % 2 ^ 14)) ∧
        (w.side = .host → s.hw.hsaid t.hw Kind.PRIVILEGE w.id (addr % 2 ^ 14))) ∧
  (∀ (s : State) (addr : Nat) (d : Domain), domainSide d = .field → switchable d = true →
      s.hw.arch.domains.length = 10 →
      ∃ t, exec (.guardPrivilegedWrite .f0 addr (.switchDomain d true)) s = .next t ∧ (t.hw.domain d).on = true ∧
        (t.hw.domain d).offReq = none ∧ ((s.hw.domain d).on = false → (t.hw.domain d).pg = true)) ∧
  (∀ (s : State) (e : Engine), s.hw.arch.engines.length = 12 → (s.hw.engine e).running = true →
      (s.hw.engine e).fenced = false → s.hw.upd.prob = none → ∃ t, exec (.engineRestart e) s = .next t ∧
        (t.hw.engine e).restarting = true ∧
        t.hw.rd Reg.TKT_EPOCH_EPOCH = (if e.side = .field then (s.hw.rd Reg.TKT_EPOCH_EPOCH + 1) % 2 ^ 32
          else s.hw.rd Reg.TKT_EPOCH_EPOCH)) ∧
  (∀ (s : State) (d : Domain), (s.hw.domain d).pg = true → domainSide d = .field → d ≠ .fAon →
      s.hw.arch.domains.length = 10 →
      ∃ t, exec (.domainPgFall d) s = .next t ∧ (t.hw.domain d).pg = false ∧
        s.hw.said t.hw Kind.DOMAIN_PG (principal d) d.index) ∧
  (∀ s : State, (s.hw.domain .fAon).pg = true → ∃ t, exec (.domainPgFall .fAon) s = .next t ∧
      t.hw.modes.faonOn = false ∧
      t.hw.tkt.table = [] ∧ t.hw.jrn.staged = []) ∧
  (∀ s : State, (s.hw.domain .fMem).on = true → (s.hw.domain .fMem).pg = false → s.hw.arch.domains.length = 10 →
      ∃ t, exec (.domainPgReturn .fMem) s = .next t ∧ (t.hw.domain .fMem).pg = true ∧ t.hw.jrn.staged = [] ∧
        t.hw.jrn.scanned = false) ∧
  (∀ (s : State) (d : Domain), switchable d = true → (s.hw.domain d).on = true →
      s.hw.tkt.table.any (inDomain d) = false →
      s.hw.arch.domains.length = 10 → ∃ t, exec (.domainSwitchOff d) s = .next t ∧ (t.hw.domain d).on = false ∧
        (t.hw.domain d).pg = false ∧ ∀ f ∈ darkFields d, t.hw.rd f = f.reset) ∧
  (∀ (s : State) (d : Domain) (f : Nat), (s.hw.domain d).offReq = some f → 4 ≤ (s.hw.frn + 2 ^ 32 - f) % 2 ^ 32 →
      s.hw.tkt.table = [] → ∃ t, exec (.domainOffTicketTimeout d) s = .next t ∧ (t.hw.domain d).on = false ∧
        (t.hw.domain d).offReq = none) ∧
  (∀ (s : State) (i : Fin 15), (fifo i).reader = .field → ∃ t, exec (.fifoParity i none) s = .next t ∧
      s.hw.said t.hw Kind.FIFO_PARITY (fifo i).owner i.val) ∧
  (∀ (s : State) (t vcbufLow : Nat), s.hw.mode = modeFLOAT → s.hw.hCodeNext .fastRoleSwap = true →
      (s.hw.engine .f0).restarting = false → ∃ u, exec (.fastRoleSwapCode t vcbufLow) s = .next u ∧
      u.hw.mode = modeSOURCE)

/-- R313 to R318, R320, R321, R324, R325: tickets issue or wait, time out, fail, are tried again and retire; a durable
command takes effect with its record. Each clause about a command says when it completes, and the effects that it
names. Readings of the model's own: log entries 54, 55, 109. -/
def Obligations.TicketsIssueAndSettle : Prop :=
  (∀ (s : State) (e : Engine) (stream : Fin 64) (chan unit : Fin 256) (dur idem crit : Bool), e.side = .field →
      streamLimit stream.val ≠ 0 →
      (s.hw.tkt.waits.any fun x => x.owner == e.id) = false → (stream.val = 16 → chan.val ≤ 47) →
      s.hw.canIssue stream.val unit.val dur crit = true → s.hw.handingOver e.id = false →
      ∃ t, exec (.ticketIssue e stream chan unit dur idem crit) s = .next t ∧ t.hw.tkt.table.dropLast = s.hw.tkt.table ∧
        (t.hw.tkt.table.getLast?.map fun x => (x.stream, x.owner, x.chan, x.unit)) =
          some (stream.val, e.id, chan.val, unit.val)) ∧
  (∀ (s : State) (e : Engine) (stream : Fin 64) (chan unit : Fin 256) (dur idem crit : Bool), e.side = .field →
      streamLimit stream.val ≠ 0 →
      (stream.val = 16 → chan.val ≤ 47) →
      s.hw.canIssue stream.val unit.val dur crit = false ∨ s.hw.handingOver e.id = true →
      ∃ t, exec (.ticketIssue e stream chan unit dur idem crit) s = .next t ∧ t.hw.tkt.table = s.hw.tkt.table ∧
        t.hw.tkt.waits.length = s.hw.tkt.waits.length + 1) ∧
  (∀ (s : State) (e : Engine) (stream : Fin 64) (chan unit : Fin 256) (dur idem crit : Bool), e.side = .host →
      ∃ t, exec (.ticketIssue e stream chan unit dur idem crit) s = .next t ∧ t.hw.tkt = s.hw.tkt ∧
      t.hw.regs = s.hw.regs) ∧
  (∀ (s : State) (w : IssueWait) (ws : List IssueWait), s.hw.tkt.waits = w :: ws →
      (s.hw.frn + 2 ^ 32 - w.frn) % 2 ^ 32 ≠ 0 → s.hw.tkt.fullRun = none → ∃ t, exec .tableFull s = .next t ∧
        t.hw.tkt.fullRun = some 0 ∧ s.hw.said t.hw Kind.TABLE_FULL w.owner w.stream) ∧
  (∀ (s : State) (num : Fin 512) (x : Ticket), s.hw.ticket num.val = some x → plainStream x.stream = true →
      x.state = .running → s.hw.behind x = false → s.hw.tkt.waits = [] → s.hw.sub = [] →
      ∃ t, exec (.ticketRetire num) s = .next t ∧ t.hw.ticket num.val = none) ∧
  (∀ (s : State) (num : Fin 512) (x : Ticket), s.hw.ticket num.val = some x → plainStream x.stream = true →
      x.state = .running → x.idem = true → x.replay < 3 → s.hw.twinMsgOf num.val = none → s.hw.mayFail num.val = true →
      s.hw.pastDeadline x = true →
      ∃ t, exec (.ticketDeadline num) s = .next t ∧ t.hw.tktState num.val = .replay ∧
        s.hw.said t.hw Kind.TICKET_TIMEOUT x.owner num.val) ∧
  (∀ (s : State) (strm : Fin 8) (c : HostCmd), s.hw.mayCommit strm.val c → c.cmd = cmdCFG_STAGE →
      ∃ t, exec (.durableCommit strm) s = .next t ∧ t.hw.answered c stOK ∧
        t.hw.modes.staged = putImgBytes s.hw.modes.staged (c.arg 0 2) (slice c.args 4 (c.arg 2 1)) ∧
        t.hw.jrn.staged.length = s.hw.jrn.staged.length + 1) ∧
  (∀ (s : State) (strm : Fin 8) (c : HostCmd), s.hw.mayCommit strm.val c → c.cmd = cmdSVC_EXIT →
      ∃ t, exec (.durableCommit strm) s = .next t ∧ t.hw.answered c stOK ∧ t.hw.modes.svcEnd = some 8 ∧
        t.hw.rd (Reg.HOST_SEQ_N c.stream) = max (s.hw.rd (Reg.HOST_SEQ_N c.stream)) c.seq % 2 ^ 32) ∧
  (∀ (s : State) (num : Fin 512) (x : Ticket), s.hw.ticket num.val = some x → x.stream = 2 → x.acc = false →
      x.state = .running → x.idem = false → s.hw.twinMsgOf num.val = none → s.hw.mayFail num.val = true →
      ∃ t, exec (.ticketFailure num) s = .next t ∧ t.hw.tktState num.val = .failed ∧
        s.hw.said t.hw Kind.TICKET_FAILED x.owner num.val) ∧
  (∀ (s : State) (num : Fin 512), s.hw.tktState num.val = .held → s.hw.frozen = false →
      ∃ t, exec (.heldRetry num true) s = .next t ∧ t.hw.tktState num.val = .running ∧ t.hw.flt = s.hw.flt)

/-- R334 to R344: words are collected, escalate, and bring their reactions; fences lift; the history is cleared. Each
clause about a command says when it completes, and the effects that it names. Readings of the model's own: log entries
34, 48, 60. -/
def Obligations.FaultsBringReactions : Prop :=
  (∀ (s : State) (w : FaultWord), s.hw.flt.input[s.hw.nextWord]? = some w →
      ∃ t, exec .faultWordCollect s = .next t ∧ t.hw.rd Reg.FLT_LAST_WORD = (s.hw.escalate w).2.bits ∧
        t.hw.jrn.faults = s.hw.jrn.faults + 1) ∧
  (∀ s : State, ∃ t, exec .escTrackerExpiry s = .next t ∧ t.hw.regs = s.hw.regs ∧ (∀ x ∈ t.hw.flt.trackers,
      x ∈ s.hw.flt.trackers ∧ (s.hw.frn + 2 ^ 32 - x.started) % 2 ^ 32 < (s.hw.escRule x.kind).2)) ∧
  (∀ (s : State) (x : HistEntry) (e : Engine), s.hw.arch.engines.length = 12 →
      s.hw.flt.hist.find? s.hw.applicable = some x →
      x.react = reRESTART → Engine.ofId x.word.src = some e → restartable e = true →
      ∃ t, exec .faultReaction s = .next t ∧ (t.hw.engine e).restarting = true) ∧
  (∀ (s : State) (x : HistEntry), s.hw.flt.hist = [x] → s.hw.degradeOver x = true →
      ∃ t, exec .degradeClose s = .next t ∧
      t.hw.flt.hist = [{ x with isOpen := false }] ∧ t.hw.rd Reg.FLT_STATUS_OPEN = 0) ∧
  (∀ (s : State) (f : FenceSt), s.hw.flt.fences.find? (·.id == 0x37) = some f → f.auto = true →
      s.hw.rd Reg.FLT_CFG_Q < f.quiet → ∃ t, exec (.fenceLift 0x37) s = .next t ∧ t.hw.rd Reg.SB_STATUS_FENCED = 0 ∧
        t.hw.bit Reg.FLT_FENCE_U_UNITS 0x17 = false ∧ t.hw.bus.clearDue = true ∧
        t.hw.flt.fences = s.hw.flt.fences.filter (·.id != 0x37)) ∧
  (∀ (s : State) (id : Fin 64) (r : Recovery), s.hw.flt.recoveries.find? (·.id == id.val) = some r →
      s.hw.rd Reg.FLT_CFG_RWIN ≤ (s.hw.frn + 2 ^ 32 - r.since) % 2 ^ 32 →
      ∃ t, exec (.recoveryWindowClear id) s = .next t ∧
        t.hw.regs = s.hw.regs ∧ t.hw.flt.recoveries.find? (·.id == id.val) = none) ∧
  (∀ s : State, s.hw.inService = true → s.hw.rd Reg.FLT_PERM_U_UNITS = 2 ^ 0x18 → s.hw.rd Reg.FLT_PERM_E_ENGINES = 0 →
      s.hw.standingFences = [] → ∃ t, exec .fltClrPerm s = .next t ∧ t.hw.rd Reg.FLT_PERM_U_UNITS = 0 ∧
        t.hw.rd Reg.HP_STATUS_FENCED = 0) ∧
  (∀ s : State, s.hw.inService = false → exec .fltClrPerm s = .next s) ∧
  (∀ s : State, ∃ t, exec .fltHistClr s = .next t ∧ t.hw.flt.hist = s.hw.flt.hist.filter (·.isOpen) ∧
      t.hw.rd Reg.FLT_STATUS_OPEN = min 15 t.hw.flt.hist.length)

/-- R352 to R358, R365: claims, promotion, resignation, enrolment and fork follow TW_DET_N, the timers and the two control
bits, and leave their role, epoch and line. Each clause about a command says when it completes, and the effects that
it names. Readings of the model's own: log entries 1, 46, 57, 64. -/
def Obligations.TwinRolesFollowTheLine : Prop :=
  (∀ s : State, s.hw.twn = twnCLAIMING → ∃ t, exec (.twinClaim true) s = .next t ∧ t.hw.twn = twnSTANDBY ∧
      t.hw.rd Reg.TWN_STATUS_LINK = 1 ∧ t.hw.rd Reg.TWN_STATUS_DET = 1) ∧
  (∀ s : State, s.hw.twn = twnCLAIMING → s.hw.rd Reg.TWN_CFG_POSITION = 0 → ∃ t, exec (.twinClaim false) s = .next t ∧
      t.hw.twn = twnLEAD ∧ t.hw.twin.low = true ∧ t.hw.rd Reg.TWN_EPOCH_EPOCH = (s.hw.maxEpoch + 1) % 2 ^ 32) ∧
  (∀ s : State, s.hw.twn = twnCLAIMING → s.hw.rd Reg.TWN_CFG_POSITION = 1 → ∃ t, exec (.twinClaim false) s = .next t ∧
      t.hw.twn = twnCLAIMING ∧ t.hw.twin.waitDet = true ∧ t.hw.sub = s.hw.sub) ∧
  (∀ s : State, s.hw.twn = twnCLAIMING → s.hw.twin.waitDet = true → ∃ t, exec (.twinClaimWaitExpiry false) s = .next t ∧
      t.hw.twn = twnLEAD ∧ t.hw.twin.waitDet = false) ∧
  (∀ s : State, s.hw.twn = twnLEAD → s.hw.twin.claimAt.isSome = true → s.hw.rd Reg.TWN_STATUS_LINK ≠ 2 →
      ∃ t, exec .twinTrainTimeout s = .next t ∧ t.hw.twn = twnSOLO ∧ t.hw.twin.reserved = []) ∧
  (∀ (s : State) (u : Nat), s.hw.twn = twnSTANDBY → ∃ t, exec (.twinFailover u) s = .next t ∧ t.hw.twn = twnSOLO ∧
      t.hw.rd Reg.TWN_EPOCH_EPOCH = (s.hw.rd Reg.TWN_EPOCH_EPOCH + 1) % 2 ^ 32 ∧ t.hw.twin.low = true) ∧
  (∀ (s : State) (u : Nat), s.hw.twn = twnISOLATED → ∃ t, exec (.twinFailover u) s = .next t ∧ t.hw.twn = twnPENDING ∧
      t.hw.rd Reg.FLT_STATUS_DOUBLE = 1 ∧ s.hw.said t.hw Kind.DOUBLE_FAULT 0x10 0x33) ∧
  (∀ (s : State) (c : ResignCause), s.hw.twn = twnLEAD ∨ s.hw.twn = twnSOLO → c = .reset ∨ c = .ship ∨ c = .holdup →
      ∃ t, exec (.twinResign c) s = .next t ∧ t.hw.twn = twnCLAIMING ∧ t.hw.rd Reg.TWN_STATUS_DET = 0 ∧
        t.hw.twin.resigned = decide (c ≠ .reset)) ∧
  (∀ s : State, s.hw.twn = twnLEAD ∨ s.hw.twn = twnSOLO → s.hw.rd Reg.JRN_STATUS_SEALING = 0 →
      ∃ t, exec .twnCtlResign s = .next t ∧ t.hw.twn = twnCLAIMING ∧ t.hw.rd Reg.TWN_STATUS_DET = 0 ∧
      t.hw.twin.resigned = true) ∧
  (∀ s : State, s.hw.mayEnrol = true → ∃ t, exec .twnCtlEnrol s = .next t ∧ t.hw.twn = twnSTANDBY ∧
      t.hw.rd Reg.TWN_STATUS_RESYNC = 1 ∧ t.hw.readable = [] ∧ t.hw.twin.barred = false) ∧
  (∀ s : State, s.hw.mayFork = true → ∃ t, exec .twnCtlFork s = .next t ∧ t.hw.twn = twnSOLO ∧
      t.hw.rd Reg.TWN_STATUS_SEQ_ID = (s.hw.rd Reg.TWN_STATUS_SEQ_ID + 1) % 2 ^ 8 ∧ t.hw.twin.ring = []) ∧
  (∀ s : State, s.hw.twn = twnLEAD → s.hw.twin.hbLost = false → ∃ t, exec .twinHbLost s = .next t ∧ t.hw.twn = twnSOLO ∧
      s.hw.said t.hw Kind.TWIN_HB_LOST 0x33 2) ∧
  (∀ s : State, s.hw.twn = twnSTANDBY → s.hw.twin.hbLost = false → s.hw.rd Reg.TWN_STATUS_DET = 1 →
      ∃ t, exec .twinHbLost s = .next t ∧ t.hw.twn = twnISOLATED ∧ s.hw.said t.hw Kind.TWIN_HB_LOST 0x33 4)

/-- R346, R349, R350, R351, R367, R372: training, digests, heartbeats, role epochs, repeats, fences, time. Each clause
about a command says when it completes, and the effects that it names. Readings of the model's own: log entries 45,
46, 48. -/
def Obligations.TwinLinkCarriesMessages : Prop :=
  (∀ (s : State) (p : Fin 8) (same : Bool), s.hw.rd Reg.TWN_CFG_EN = 1 → s.hw.rd Reg.TWN_STATUS_LINK ≠ 2 →
      s.hw.bit Reg.FLT_FENCE_U_UNITS 0x13 = false → s.hw.away .f7 = false → s.hw.frozen = false →
      ∃ t, exec (.twinLinkTrained p same) s = .next t ∧
        t.hw.rd Reg.TWN_STATUS_LINK = 2 ∧ t.hw.twin.hbLost = false ∧ t.hw.twin.pState = p.val) ∧
  (∀ (s : State) (h : TwmHead) (digest : List Byte) (p : Fin 2) (id : Nat), s.hw.takesTwm h → s.hw.twn = twnSTANDBY →
      digest ≠ s.hw.cfgDigest ∨ id ≠ s.hw.rd Reg.TWN_CFG_PAIR_ID ∨ p.val = s.hw.rd Reg.TWN_CFG_POSITION →
      ∃ t, exec (.twmCfgDigest h digest p id) s = .next t ∧ t.hw.rd Reg.TWN_STATUS_CFG_MATCH = 0 ∧
        t.hw.twn = twnISOLATED ∧ s.hw.said t.hw Kind.TWIN_CFG_MISMATCH 0x17 0) ∧
  (∀ (s : State) (t0 ika : Nat), s.hw.twinHears = true → s.hw.frozen = false → 20000 ≤ t0 → t0 + 20000 ≤ s.hw.seq.len →
      s.hw.twin.out.length < 64 → ∃ t, exec (.twinHeartbeatSend t0 ika) s = .next t ∧
        (t.hw.twin.out.map fun x => (x.type, x.lseq)) =
          (s.hw.twin.out.map fun x => (x.type, x.lseq)) ++ [(1, s.hw.twin.txSeq)]) ∧
  (∀ (s : State) (h : TwmHead) (f sc mw cw al ika : Nat) (st md : Fin 8), s.hw.takesTwm h → s.hw.twn = twnLEAD →
      ∃ t, exec (.twmHeartbeat h f sc st md mw cw al ika) s = .next t ∧ t.hw.rd Reg.TWN_PWMARK_JSN = cw % 2 ^ 64 ∧
        t.hw.twin.pState = st.val ∧ t.hw.twin.pMirror = mw ∧ t.hw.twin.hbLost = false) ∧
  (∀ (s : State) (h : TwmHead) (f sc mw cw al ika : Nat) (st md : Fin 8), s.hw.twinData = true →
      s.hw.lseqTaken h.lseq = false → h.epoch < s.hw.rd Reg.TWN_EPOCH_EPOCH → s.hw.twin.out.length < 64 →
      ∃ t, exec (.twmHeartbeat h f sc st md mw cw al ika) s = .next t ∧ t.hw.twin.pState = s.hw.twin.pState ∧
        (t.hw.twin.out.map fun x => x.type) = (s.hw.twin.out.map fun x => x.type) ++ [9] ∧
        s.hw.said t.hw Kind.EPOCH_STALE 0x17 0) ∧
  (∀ (s : State) (h : TwmHead) (e : Nat) (p : Fin 2), s.hw.takesTwm h → s.hw.twn = twnSOLO → h.epoch < 2 ^ 32 →
      p.val ≠ s.hw.rd Reg.TWN_CFG_POSITION → ∃ t, exec (.twmEpochStale h e p) s = .next t ∧ t.hw.twn = twnSTANDBY ∧
        t.hw.rd Reg.TWN_EPOCH_EPOCH = max h.epoch e % 2 ^ 32) ∧
  (∀ (s : State) (n : Nat), s.hw.frozen = false → s.hw.sub = [] → s.hw.twin.resyncNext = none →
      ∃ t, exec (.twinMessageRepeat n) s = .next t ∧
      t.hw.twin.out = s.hw.twin.out.filter fun x => decide (2 ^ 31 ≤ lseqAfter n x.lseq)) ∧
  (∀ (s : State) (f : FenceSt), s.hw.flt.fences.find? (fun x => x.id == 0x33) = some f → f.auto = true →
      s.hw.frn % 16 = 0 → ∃ t, exec (.twinFenceRetrain true) s = .next t ∧ t.hw.rd Reg.TWN_STATUS_LINK = 1 ∧
        t.hw.bit Reg.FLT_FENCE_U_UNITS 0x13 = false) ∧
  (∀ (s : State) (h : TwmHead) (md tai sub : Nat) (utc : Int), s.hw.takesTwm h → s.hw.twn = twnSTANDBY →
      65536 < unitsOf tai (sub % 32768) - unitsOf s.hw.timeNow.1 s.hw.timeNow.2 → s.hw.rdI Reg.RTC_UTC_OFFSET = utc →
      ∃ t, exec (.twmTime h md utc tai sub) s = .next t ∧ t.hw.rd Reg.RTC_STATUS_VALID = 1 ∧
        t.hw.rd Reg.RTC_STATUS_SET_EVT = 1) ∧
  (∀ s : State, s.hw.twn = twnLEAD → s.hw.twinHears = true → s.hw.twin.out.length < 64 →
      ∃ t, exec .twinTimeSend s = .next t ∧ t.hw.twin.timeAt = s.hw.frn ∧
        (t.hw.twin.out.map fun x => x.type) = (s.hw.twin.out.map fun x => x.type) ++ [7]) ∧
  (∀ s : State, ∃ t, exec .twinLinkCrc s = .next t ∧ t.hw.twin.crcFrame = s.hw.twin.crcFrame + 1 ∧
      t.hw.twin.out = s.hw.twin.out ∧ t.hw.sub = s.hw.sub)

/-- R360 to R366: mirrors are staged and acknowledged, reservations become acceptances, a STANDBY's appends are numbered,
and a resync is asked for, served and taken in. Each clause about a command says when it completes, and the effects
that it names. Readings of the model's own: log entries 45, 46, 47. -/
def Obligations.TwinJournalIsMirrored : Prop :=
  (∀ (s : State) (h : TwmHead) (bs : List Byte), s.hw.takesTwm h → s.hw.twn = twnSTANDBY →
      s.hw.holds (JRec.ofBytes bs).jsn = true → s.hw.twin.out.length < 64 → ∃ t, exec (.twmMirror h bs) s = .next t ∧
        (t.hw.twin.out.map fun x => (x.type, x.payload)) =
          (s.hw.twin.out.map fun x => (x.type, x.payload)) ++ [(3, le 8 (JRec.ofBytes bs).jsn)] ∧
        t.hw.jrn = s.hw.jrn) ∧
  (∀ (s : State) (h : TwmHead) (bs : List Byte), s.hw.takesTwm h → s.hw.twn = twnSTANDBY →
      s.hw.holds (JRec.ofBytes bs).jsn = false → s.hw.forwardOf (JRec.ofBytes bs) = none →
      s.hw.rd Reg.JRN_NEXT_JSN ≤ (JRec.ofBytes bs).jsn → (JRec.ofBytes bs).jsn < 2 ^ 63 →
      ∃ t, exec (.twmMirror h bs) s = .next t ∧ t.hw.rd Reg.JRN_NEXT_JSN = (JRec.ofBytes bs).jsn + 1) ∧
  (∀ (s : State) (h : TwmHead) (j : Nat), s.hw.takesTwm h → s.hw.twn = twnLEAD →
      (∀ x ∈ s.hw.twin.reserved, x.r.jsn ≤ j) →
      s.hw.sub = [] → ∃ t, exec (.twmMirrorAck h j) s = .next t ∧ t.hw.twin.reserved = []) ∧
  (∀ (s : State) (h : TwmHead) (n : Nat) (bs : List Byte), s.hw.takesTwm h → s.hw.twn = twnLEAD ∨ s.hw.twn = twnSOLO →
      ∃ t, exec (.twmAppend h n bs) s = .next t ∧ (t.hw.sub.map fun x => (x.r.src, x.r.payload)) =
        (s.hw.sub.map fun x => (x.r.src, x.r.payload)) ++ [((JRec.ofBytes bs).src, (JRec.ofBytes bs).payload)]) ∧
  (∀ (s : State) (h : TwmHead) (n : Nat), s.hw.takesTwm h → s.hw.twn = twnSOLO →
      ∃ t, exec (.twmResyncReq h n) s = .next t ∧ t.hw.twin.resyncNext.isSome = true ∧
        (32768 ≤ s.hw.twin.resyncSent → t.hw.twin.resyncNext = some n)) ∧
  (∀ (s : State) (h : TwmHead) (bs : List Byte) (r : JRec) (rs : List JRec), s.hw.takesTwm h → s.hw.twn = twnISOLATED →
      s.hw.rd Reg.TWN_STATUS_RESYNC = 1 → recsOf 8 bs = r :: rs → s.hw.jrn.hashNext < r.jsn →
      0 < s.hw.rd Reg.JRN_NEXT_JSN → ∃ t, exec (.twmResyncData h bs) s = .next t ∧ t.hw.twin.barred = true ∧
        t.hw.rd Reg.TWN_STATUS_RESYNC = 0 ∧ s.hw.said t.hw Kind.TWIN_PAIR_MISMATCH 0x17 0) ∧
  (∀ (s : State) (h : TwmHead) (bs : List Byte) (r : JRec), s.hw.takesTwm h → s.hw.joins = true →
      s.hw.rd Reg.TWN_STATUS_RESYNC = 1 → recsOf 8 bs = [r] → r.kind ≠ JR.FAILOVER.code → s.hw.twin.reserved = [] →
      s.hw.forwardOf r = none → r.jsn = s.hw.jrn.hashNext → s.hw.holds r.jsn = false →
      s.hw.rd Reg.JRN_NEXT_JSN = r.jsn →
      r.jsn < 2 ^ 63 → ∃ t, exec (.twmResyncData h bs) s = .next t ∧ t.hw.rd Reg.JRN_NEXT_JSN = r.jsn + 1) ∧
  (∀ (s : State) (f : Nat), s.hw.twin.resyncAt = some f → s.hw.rd Reg.TWN_STATUS_RESYNC = 1 →
      256 ≤ (s.hw.frn + 2 ^ 32 - f) % 2 ^ 32 → ∃ t, exec .twinResyncFail s = .next t ∧
        t.hw.rd Reg.TWN_STATUS_RESYNC = 1 ∧ t.hw.twin.resyncAt = some s.hw.frn ∧
        s.hw.said t.hw Kind.TWIN_RESYNC_FAIL 0x17 ((s.hw.frn + 2 ^ 32 - f) % 2 ^ 32))

/-- R376 to R386: the host two-wire port: pointer and data writes, reads, doze, aborts, timeouts, alert response. Each
clause about a command says when it completes, and the effects that it names. Readings of the model's own: log entry
15. -/
def Obligations.HostPortAnswers : Prop :=
  (∀ (s : State) (addr : Fin 128) (hi lo : Byte), s.hw.hpUp = true → s.hw.hpMatch addr.val false = true →
      s.hw.hpAsleep = false → s.hw.hpLooped = false → s.hw.rd Reg.HP_ADDR_PEC = 0 →
      ∃ t, exec (.hpWriteTransfer addr [hi, lo]) s = .next t ∧
        t.hw.hp.pointer = 256 * hi.toNat + lo.toNat ∧ t.hw.regs = s.hw.regs) ∧
  (∀ (s : State) (addr : Fin 128) (v : Byte), s.hw.hpUp = true → s.hw.hpMatch addr.val false = true →
      s.hw.hpAsleep = false → s.hw.hpLooped = false → s.hw.rd Reg.HP_ADDR_PEC = 0 →
      ∃ t, exec (.hpWriteTransfer addr [0x00, 0x34, v]) s = .next t ∧ t.hw.hp.pointer = 0x35 ∧
        t.hw.rd Reg.ALERT_EN_EN = v.toNat) ∧
  (∀ (s : State) (addr : Fin 128) (hi lo a b : Byte), s.hw.hpUp = true → s.hw.hpMatch addr.val false = true →
      s.hw.hpAsleep = false → s.hw.hpLooped = false → s.hw.rd Reg.HP_ADDR_PEC = 0 → lo.toNat % 64 = 63 →
      ∃ t, exec (.hpWriteTransfer addr [hi, lo, a, b]) s = .next t ∧
        t.hw.hp.pointer = (256 * hi.toNat + lo.toNat + 1) % 2 ^ 16 ∧
        t.hw.rd Reg.HP_EVENTS_PAGE_NACKS = min 255 (s.hw.rd Reg.HP_EVENTS_PAGE_NACKS + 1)) ∧
  (∀ (s : State) (addr : Fin 128) (bs : List Byte), s.hw.hpUp = true → s.hw.hpMatch addr.val false = true →
      s.hw.hpAsleep = true → ∃ t, exec (.hpWriteTransfer addr bs) s = .next t ∧ t.hw.hp.pointer = s.hw.hp.pointer ∧
        t.hw.rd Reg.HP_EVENTS_WAKE_NACKS = min 255 (s.hw.rd Reg.HP_EVENTS_WAKE_NACKS + 1) ∧ t.hw.hpAsleep = true) ∧
  (∀ (s : State) (addr : Fin 128) (bs : List Byte), s.hw.hpUp = true → s.hw.hpLooped = true →
      ∃ t, exec (.hpWriteTransfer addr bs) s = .next t ∧ t.hw.hp = s.hw.hp ∧
        t.hw.rd Reg.HP_EVENTS_WAKE_NACKS = min 255 (s.hw.rd Reg.HP_EVENTS_WAKE_NACKS + 1)) ∧
  (∀ (s : State) (addr : Fin 128), s.hw.hpUp = true → s.hw.hpMatch addr.val true = true → s.hw.hpAsleep = false →
      s.hw.hpLooped = false → s.hw.hp.pointer % 4 = 0 → s.hw.hp.pointer < 0x1000 →
      ∃ t, exec (.hpReadTransfer addr 4) s = .next t ∧
        t.hw.hp.readBytes = le 4 (s.hw.readWord s.hw.hp.pointer) ∧ t.hw.hp.pointer = s.hw.hp.pointer + 4) ∧
  (∀ (s : State) (bit : Fin 16) (stop : Bool), s.hw.hpUp = true → s.hw.hpAsleep = false → s.hw.hpLooped = false →
      ∃ t, exec (.hpTransferAbort (.head bit stop)) s = .next t ∧ t.hw.rd Reg.HP_STATUS_ERR_EVT = 1 ∧
        t.hw.hp = s.hw.hp ∧ s.hw.hsaid t.hw Kind.HP_BUS_ERROR 0x38 (bit.val + 32 * b2n stop)) ∧
  (∀ (s : State) (n : Nat), s.hw.hpUp = true → ∃ t, exec (.hpTimeout n) s = .next t ∧
      t.hw.rd Reg.HP_STATUS_TMO_EVT = 1 ∧ t.hw.hp = s.hw.hp ∧ s.hw.hsaid t.hw Kind.HP_TIMEOUT 0x38 n) ∧
  (∀ (s : State) (addr : Fin 128) (rd : Bool), s.hw.hpUp = true → s.hw.hpMatch addr.val rd = true →
      s.hw.rd Reg.HP_STATUS_DOZE = 1 → ∃ t, exec (.hpDozeWake addr rd) s = .next t ∧ t.hw.rd Reg.HP_STATUS_DOZE = 0 ∧
        t.hw.hp.wakeWait = true) ∧
  (∀ s : State, s.hw.hpUp = true → s.hw.hpAsleep = false → s.hw.hpLooped = false → s.hw.rd Reg.HP_ADDR_ARA_EN = 1 →
      s.hw.host.alert = true →
      ∃ t, exec (.hpAlertResponse false) s = .next t ∧ t.hw.host.alert = false ∧ t.hw.regs = s.hw.regs ∧
        t.hw.hp.readBytes = le 1 (2 * s.hw.rd Reg.HP_ADDR_PRIMARY)) ∧
  (∀ s : State, s.hw.hpUp = true → s.hw.hpAsleep = false → s.hw.hpLooped = false → s.hw.rd Reg.HP_ADDR_ARA_EN = 1 →
      s.hw.host.alert = true →
      ∃ t, exec (.hpAlertResponse true) s = .next t ∧ t.hw.host.alert = true ∧
        t.hw.rd Reg.HP_EVENTS2_ARA_LOST = min 255 (s.hw.rd Reg.HP_EVENTS2_ARA_LOST + 1))

/-- R389 to R396: sensor-bus transactions end with their result or error, lose arbitration, wait for thaw, time out on a
stretched clock; a stuck bus is cleared in up to three attempts. Each clause about a command says when it completes,
and the effects that it names. Readings of the model's own: log entries 1, 56, 112. -/
def Obligations.SensorBusTransactionsEnd : Prop :=
  (∀ (s : State) (n : Fin 512) (x : BusOp) (d : List Byte), s.hw.busOp n.val = some x →
      s.hw.sbq = false ∨ s.hw.tktState n.val = .running ∨ s.hw.busFits x = true → ∃ t,
      exec (.sbTransaction n 0 d) s = .next t ∧ t.hw.rd Reg.SB_STATUS_BUSY = 0 ∧ t.hw.flt.input = s.hw.flt.input ∧
        (s.hw.bus.ops.filter fun y => y.tkt != x.tkt) <+: t.hw.bus.ops) ∧
  (∀ (s : State) (n : Fin 512) (x : BusOp) (d : List Byte), s.hw.busOp n.val = some x → s.hw.sbq = true →
      s.hw.tktState n.val ≠ .running → s.hw.busFits x = false → ∃ t, exec (.sbTransaction n 0 d) s = .next t ∧
        t.hw.rd Reg.SB_STATUS_WAIT_THAW = 1 ∧ t.hw.flt = s.hw.flt ∧ t.hw.tkt = s.hw.tkt) ∧
  (∀ (s : State) (n : Fin 512) (x : BusOp) (k : Ticket), s.hw.busOp n.val = some x → s.hw.ticket x.tkt = some k →
      s.hw.sbq = false ∨ s.hw.tktState n.val = .running ∨ s.hw.busFits x = true →
      k.idem = true → k.replay < 3 → x.nacked = false → ∃ t, exec (.sbTransaction n 1 []) s = .next t ∧
        s.hw.said t.hw Kind.SB_NACK 0x37 x.addr ∧ t.hw.rd Reg.SB_LAST_ERR = 1 ∧
        t.hw.rd Reg.SB_LAST_ADDR = x.addr % 128 ∧
        t.hw.tktState x.tkt = .replay) ∧
  (∀ (s : State) (n : Fin 512) (x : BusOp), s.hw.busOp n.val = some x → s.hw.rd Reg.SB_STATUS_MULTI = 1 →
      ∃ t, exec (.sbArbLost n) s = .next t ∧ t.hw.bus = s.hw.bus ∧ t.hw.tkt = s.hw.tkt ∧
        t.hw.rd Reg.SB_EVENTS_ARB_LOST = min 255 (s.hw.rd Reg.SB_EVENTS_ARB_LOST + 1)) ∧
  (∀ (s : State) (n : Fin 512) (x : BusOp) (k : Ticket), s.hw.busOp n.val = some x → s.hw.rd Reg.SB_STATUS_MULTI = 0 →
      s.hw.ticket x.tkt = some k → k.idem = true → k.replay < 3 → ∃ t, exec (.sbArbLost n) s = .next t ∧
        s.hw.said t.hw Kind.SB_BIT_ERR 0x37 x.addr ∧ t.hw.rd Reg.SB_LAST_ERR = 6) ∧
  (∀ (s : State) (n : Fin 512) (restart : Bool) (x : BusOp) (k : Ticket), s.hw.busOp n.val = some x →
      s.hw.rd Reg.SB_STATUS_MULTI = 1 → s.hw.ticket x.tkt = some k → k.idem = true → k.replay < 3 →
      ∃ t, exec (.sbArbFrame n restart) s = .next t ∧ t.hw.rd Reg.SB_LAST_ERR = 3 ∧
        s.hw.said t.hw Kind.SB_ARB_FRAME 0x37 (x.addr + 128 * b2n restart)) ∧
  (∀ (s : State) (n : Fin 512) (x : BusOp), s.hw.busOp n.val = some x → s.hw.sbq = true → s.hw.busFits x = true →
      x.deferred = false → s.hw.tktState x.tkt = .issued → s.hw.tktState n.val = .issued →
      ∃ t, exec (.sbDeferredStart n false) s = .next t ∧ t.hw.rd Reg.SB_STATUS_WAIT_THAW = 0 ∧
        t.hw.rd Reg.SB_STATUS_BUSY = 1 ∧ t.hw.tktState n.val = .running ∧ t.hw.flt = s.hw.flt ∧
        t.hw.rd Reg.SB_EVENTS2_DEFERRED = min 255 (s.hw.rd Reg.SB_EVENTS2_DEFERRED + 1)) ∧
  (∀ (s : State) (n : Fin 512) (x : BusOp) (k : Ticket), s.hw.busOp n.val = some x → s.hw.ticket x.tkt = some k →
      k.idem = true → k.replay < 3 → ∃ t, exec (.sbStretchTmo n) s = .next t ∧ t.hw.rd Reg.SB_LAST_ERR = 4 ∧
        s.hw.said t.hw Kind.SB_STRETCH_TMO 0x37 x.addr ∧ t.hw.rd Reg.SB_STATUS_WAIT_THAW = 0) ∧
  (∀ (s : State) (scl sda : Bool), s.hw.rd Reg.SB_STATUS_FENCED = 0 → (s.hw.domain .fCore).on = true →
      scl = true ∨ sda = true → ∃ t, exec (.sbBusStuck scl sda) s = .next t ∧ t.hw.rd Reg.SB_STATUS_CLEARING = 1 ∧
        t.hw.bus.clearTries = 0 ∧ t.hw.bus.stuckBits = b2n scl + 2 * b2n sda) ∧
  (∀ (s : State) (n : Fin 10), s.hw.rd Reg.SB_STATUS_FENCED = 0 → (s.hw.domain .fCore).on = true →
      s.hw.bus.vioLow = false →
      s.hw.sbq = false ∨ s.hw.fitsThaw clearLength = true → s.hw.rd Reg.SB_STATUS_CLEARING = 1 →
      ∃ t, exec (.sbBusClear true n) s = .next t ∧ t.hw.rd Reg.SB_STATUS_CLEARING = 0 ∧
        t.hw.bus.clearDue = false ∧ s.hw.said t.hw Kind.SB_BUS_CLEAR 0x37 n.val) ∧
  (∀ (s : State) (n : Fin 10), s.hw.rd Reg.SB_STATUS_FENCED = 0 → (s.hw.domain .fCore).on = true →
      s.hw.bus.vioLow = false →
      s.hw.sbq = false ∨ s.hw.fitsThaw clearLength = true → s.hw.rd Reg.SB_STATUS_CLEARING = 1 →
      s.hw.bus.clearTries = 2 → ∃ t, exec (.sbBusClear false n) s = .next t ∧
        t.hw.rd Reg.SB_STATUS_CLEARING = 0 ∧ s.hw.said t.hw Kind.SB_BUS_STUCK 0x37 s.hw.bus.stuckBits)

/-- R404, R407, R408, R409, R433: messages are taken in sequence and filtered, acknowledged, resent; the link trains. Each
clause about a command says when it completes, and the effects that it names. Readings of the model's own: log entries
13, 18. -/
def Obligations.LinkReceivesAndResends : Prop :=
  (∀ (s : State) (rx : Side) (x : MsgIn), s.hw.linkFenced = false → s.hw.frozen = false → s.hw.linkState rx = 2 →
      x.type ≠ 1 → x.type ≠ 2 →
      x.seq = (s.hw.linkEnd rx).rxNext → s.hw.filterReason rx x = 0 →
      ∃ t, exec (.tabienMessageReceive rx x true) s = .next t ∧
        (t.hw.linkEnd rx).inbox = (s.hw.linkEnd rx).inbox ++ [⟨x.type, x.stream, x.seq, x.flags, x.payload⟩] ∧
        (t.hw.linkEnd rx).rxNext = ((s.hw.linkEnd rx).rxNext + 1) % 65536 ∧ t.hw.flt = s.hw.flt) ∧
  (∀ (s : State) (rx : Side) (x : MsgIn), x.type ≠ 1 → x.type ≠ 2 → x.seq ≠ (s.hw.linkEnd rx).rxNext →
      exec (.tabienMessageReceive rx x true) s = .next s) ∧
  (∀ (s : State) (rx : Side) (x : MsgIn), s.hw.linkFenced = false → s.hw.frozen = false → s.hw.linkState rx = 2 →
      ∃ t, exec (.tabienMessageReceive rx x false) s = .next t ∧ (t.hw.linkEnd rx).inbox = (s.hw.linkEnd rx).inbox ∧
        (t.hw.linkEnd rx).crcFrame = (s.hw.linkEnd rx).crcFrame + 1) ∧
  (∀ (s : State) (x : MsgIn), s.hw.linkFenced = false → s.hw.frozen = false → s.hw.rd Reg.TL_H_STATUS_STATE = 2 →
      x.type ≠ 1 → x.type ≠ 2 →
      x.seq = s.hw.host.h.rxNext → s.hw.filterReason .host x ≠ 0 →
      ∃ t, exec (.tabienMessageReceive .host x true) s = .next t ∧ t.hw.host.h.inbox = s.hw.host.h.inbox ∧
        t.hw.rd Reg.TBF_H_REASON_REASON = s.hw.filterReason .host x ∧
        s.hw.hsaid t.hw Kind.BARRIER_DROP 0x02 (x.type % 256 + 256 * s.hw.filterReason .host x)) ∧
  (∀ (s : State) (x : Msg) (rest : List Msg), takeMsg 1 s.hw.host.h.inbox = some (x, rest) → s.hw.host.h.waiting = [] →
      ∃ t, exec (.tmAck .host) s = .next t ∧ t.hw.host.h.inbox = rest ∧
        t.hw.host.h.queue = s.hw.host.h.queue.drop (coveredBy (numAt x.payload 0 2) s.hw.host.h.queue)) ∧
  (∀ (s : State) (sd : Side), s.hw.frozen = false → s.hw.linkState sd = 2 → s.hw.linkFenced = false →
      (s.hw.linkEnd sd).queue ≠ [] → (s.hw.linkEnd sd).resends < 8 → ∃ t, exec (.tabienResendTimer sd) s = .next t ∧
        (t.hw.linkEnd sd).resends = (s.hw.linkEnd sd).resends + 1 ∧
        (t.hw.linkEnd sd).queue.map Msg.payload = (s.hw.linkEnd sd).queue.map Msg.payload) ∧
  (∀ (s : State), s.hw.frozen = false → s.hw.rd Reg.TL_F_STATUS_STATE = 2 → s.hw.linkFenced = false →
      s.hw.host.f.queue ≠ [] → 8 ≤ s.hw.host.f.resends → ∃ t, exec (.tabienResendTimer .field) s = .next t ∧
        t.hw.rd Reg.TL_F_STATUS_STATE = 1 ∧ t.hw.rd Reg.TL_H_STATUS_STATE = 1 ∧ s.hw.said t.hw Kind.TL_RETRAIN 0x32 0) ∧
  (∀ s : State, s.hw.rd Reg.TL_H_STATUS_STATE = 2 → ∃ t, exec (.lossOfLock .host) s = .next t ∧
      t.hw.rd Reg.TL_H_STATUS_STATE = 1 ∧ t.hw.rd Reg.ID_STATUS_FIELD_READY = 0 ∧
      s.hw.hsaid t.hw Kind.TL_RETRAIN 0x32 1) ∧
  (∀ s : State, s.hw.mayTrain = true → s.hw.frozen = false → s.hw.rd Reg.TL_H_STATUS_STATE ≠ 2 →
      s.hw.linkFenced = false → ∃ t, exec (.tabienLinkTraining true) s = .next t ∧ t.hw.rd Reg.TL_H_STATUS_STATE = 2 ∧
        t.hw.rd Reg.TL_F_STATUS_STATE = 2 ∧ t.hw.rd Reg.ID_STATUS_LINK = 1 ∧ t.hw.host.f.epoch = s.hw.host.f.epoch ∧
        t.hw.rd Reg.TL_F_STATUS_EPOCH = s.hw.host.f.epoch % 2 ^ 16) ∧
  (∀ (s : State) (x : Msg) (rest : List Msg), takeMsg 2 s.hw.host.h.inbox = some (x, rest) →
      numAt x.payload 6 2 ≠ 0xFFFF → s.hw.flt.hostBuf = [] → ∃ t, exec (.tmLinkUp .host) s = .next t ∧
        t.hw.host.h.inbox = rest ∧ t.hw.rd Reg.ID_STATUS_FIELD_READY = numAt x.payload 8 2 % 2) ∧
  (∀ (s : State) (x : Msg) (rest : List Msg), s.hw.away .f0 = false → takeMsg 0x10 s.hw.host.f.inbox = some (x, rest) →
      x.stream = 9 → numAt x.payload 4 2 = cmdPING → s.hw.nextSeq 1 false = numAt x.payload 0 4 →
      (s.hw.host.work.any fun d => d.stream == 1 && d.seq == numAt x.payload 0 4) = false →
      s.hw.canIssue 9 0 false false = true → ∃ t, exec .tmCmd s = .next t ∧ t.hw.host.f.inbox = rest ∧
        t.hw.tkt.table.length = s.hw.tkt.table.length + 1 ∧
        (t.hw.host.work.map fun d => (d.stream, d.seq, d.cmd)) =
          (s.hw.host.work.map fun d => (d.stream, d.seq, d.cmd)) ++ [(1, numAt x.payload 0 4, cmdPING)])

/-- R91, R99, R219, R254, R406, R416 to R418, R421, R426: what each field message does on the host side. Each clause about
a command says when it completes, and the effects that it names. Readings of the model's own: log entries 13, 14, 16,
106. -/
def Obligations.HostTakesFieldMessages : Prop :=
  (∀ (s : State) (x : Msg) (rest : List Msg) (p : Place), s.hw.host.busy = false → s.hw.away .h2 = false →
      takeMsg 0x11 s.hw.host.h.inbox = some (x, rest) → s.hw.host.mbx.places = [p] → p.answered = false →
      p.seq = numAt x.payload 0 4 → p.cmd = numAt x.payload 4 2 → p.stream ≠ 7 → ∃ t, exec .tmResult s = .next t ∧
        t.hw.host.mbx.results = s.hw.host.mbx.results ++ [⟨p.stream, x.payload⟩] ∧
        t.hw.host.mbx.places = [{ p with answered := true }] ∧ t.hw.bit Reg.ALERT_SRC_SRC 0 = true) ∧
  (∀ (s : State) (x : Msg) (rest : List Msg), s.hw.away .h2 = false → takeMsg 0x12 s.hw.host.h.inbox = some (x, rest) →
      s.hw.host.snap.frn ≠ numAt x.payload 0 4 → ∃ t, exec .tmSnap s = .next t ∧
        t.hw.host.snap.image = s.hw.host.snap.image ∧ t.hw.host.snap.frn = numAt x.payload 0 4 ∧
        t.hw.host.snap.chunks = [(numAt x.payload 6 1, x.payload.drop 8)] ∧ t.hw.regs = s.hw.regs) ∧
  (∀ (s : State) (x : Msg) (rest : List Msg), s.hw.away .h2 = false → takeMsg 0x12 s.hw.host.h.inbox = some (x, rest) →
      s.hw.host.snap.frn = numAt x.payload 0 4 → s.hw.host.snap.chunks.length = 16 →
      (s.hw.host.snap.chunks.any fun c => c.1 == numAt x.payload 6 1) = false → ∃ t, exec .tmSnap s = .next t ∧
        t.hw.host.snap.chunks = [] ∧ t.hw.rd Reg.ID_SNAP_FRN = numAt x.payload 0 4 ∧ t.hw.rd Reg.ID_SNAP_AGE_AGE = 0 ∧
        t.hw.rd Reg.ID_STATUS_SNAP_VALID = 1) ∧
  (∀ (s : State) (x : Msg) (rest : List Msg), s.hw.away .h2 = false → takeMsg 0x13 s.hw.host.h.inbox = some (x, rest) →
      numAt x.payload 1 1 ≠ 0 → ∃ t, exec .tmEvent s = .next t ∧ t.hw.host.eventFn = decide (numAt x.payload 0 1 ≠ 0) ∧
        t.hw.bit Reg.ALERT_SRC_SRC 2 = true) ∧
  (∀ (s : State) (x : Msg) (rest : List Msg), s.hw.away .h2 = false → takeMsg 0x14 s.hw.host.h.inbox = some (x, rest) →
      ∃ t, exec .tmAdc s = .next t ∧ t.hw.host.h.inbox = rest ∧ t.hw.regs = s.hw.regs ∧ t.hw.adc = s.hw.adc) ∧
  (∀ (s : State) (x : Msg) (rest : List Msg) (r : DrainReq), s.hw.host.drain.buffer.length + 252 ≤ s.hw.drainRoom →
      s.hw.away .h2 = false → takeMsg 0x15 s.hw.host.h.inbox = some (x, rest) → s.hw.host.drain.openReq = some r →
      r.tag = numAt x.payload 0 2 → ∃ t, exec .tmDrainData s = .next t ∧
        t.hw.host.drain.buffer = s.hw.host.drain.buffer ++ x.payload.drop 4) ∧
  (∀ (s : State) (x : Msg) (rest : List Msg), s.hw.away .h1 = false → takeMsg 0x16 s.hw.host.h.inbox = some (x, rest) →
      ∃ t, exec .tmCfg s = .next t ∧ t.hw.intake.loaded = true ∧ t.hw.intake.cfgAsked = false ∧
        t.hw.rd Reg.ID_BUNDLE_VERSION = numAt x.payload 0 4) ∧
  (∀ (s : State) (x : Msg) (rest : List Msg), s.hw.away .h0 = false → takeMsg 0x17 s.hw.host.h.inbox = some (x, rest) →
      ∃ t, exec .tmBudget s = .next t ∧ t.hw.rd Reg.CBL_OFFER_A_I5 = min 511 (numAt x.payload 0 2) ∧
        t.hw.rd Reg.CBL_OFFER_C_RES_STATE = numAt x.payload 11 1 % 4 ∧ t.hw.rd Reg.CBL_OFFER_C_AGE = 0 ∧
        t.hw.rd Reg.CBL_RESERVE_QRES = numAt x.payload 14 2) ∧
  (∀ (s : State) (x : Msg) (rest : List Msg), s.hw.away .h1 = false → takeMsg 0x18 s.hw.host.h.inbox = some (x, rest) →
      s.hw.rd Reg.XFER_STATUS_LATCHED = 0 → s.hw.rd Reg.XFER_STATUS_QUIET = 0 → s.hw.latchBad .xferCtl = false →
      numAt x.payload 0 1 = 1 ∨ numAt x.payload 0 1 = 2 → s.hw.rd Reg.XFER_STATUS_DIR ≠ numAt x.payload 0 1 →
      ∃ t, exec .tmXfer s = .next t ∧ t.hw.host.h.inbox = rest ∧ t.hw.latch .xferCtl = numAt x.payload 0 1 ∧
        t.hw.rd Reg.XFER_STATUS_DIR = 3 ∧ t.hw.xfer.target = numAt x.payload 0 1 ∧ t.hw.xfer.ordered = none ∧
        t.hw.cable.granted = (bitAt (numAt x.payload 1 1) 0 && !bitAt (numAt x.payload 1 1) 1)) ∧
  (∀ (s : State) (x : Msg) (rest : List Msg), s.hw.away .h1 = false → takeMsg 0x18 s.hw.host.h.inbox = some (x, rest) →
      s.hw.rd Reg.XFER_STATUS_QUIET = 0 → s.hw.latchBad .xferCtl = false → numAt x.payload 0 1 = 0 →
      ∃ t, exec .tmXfer s = .next t ∧ t.hw.host.h.inbox = rest ∧ t.hw.latch .xferCtl = 0 ∧
        t.hw.rd Reg.XFER_STATUS_DIR = 0 ∧ t.hw.xfer.ordered = none) ∧
  (∀ (s : State) (x : Msg) (rest : List Msg), s.hw.away .h1 = false → takeMsg 0x18 s.hw.host.h.inbox = some (x, rest) →
      s.hw.rd Reg.XFER_STATUS_LATCHED = 0 → s.hw.rd Reg.XFER_STATUS_QUIET = 1 →
      ∃ t, exec .tmXfer s = .next t ∧ t.hw.host.h.inbox = rest ∧ t.hw.xfer.ordered = some (numAt x.payload 0 1) ∧
        t.hw.regs = s.hw.regs) ∧
  (∀ (s : State) (x : Msg) (rest : List Msg), s.hw.away .h1 = false → takeMsg 0x18 s.hw.host.h.inbox = some (x, rest) →
      s.hw.rd Reg.XFER_STATUS_LATCHED = 1 → numAt x.payload 0 1 ≠ 0 → ∃ t, exec .tmXfer s = .next t ∧
        t.hw.cable.granted = (bitAt (numAt x.payload 1 1) 0 && !bitAt (numAt x.payload 1 1) 1) ∧
        t.hw.regs = s.hw.regs) ∧
  (∀ s : State, s.hw.away .h2 = false → s.hw.snapOld = true → s.hw.host.snap.stale = false →
      ∃ t, exec .snapStale s = .next t ∧ t.hw.rd Reg.ID_STATUS_SNAP_VALID = 0 ∧
      t.hw.bit Reg.ALERT_SRC_SRC 3 = true ∧ s.hw.hsaid t.hw Kind.SNAP_STALE 0x02 (max 150 (s.hw.host.snap.us / 10000)))

/-- R40, R66, R82, R91, R221, R222, R406, R419, R424, R427, R508: what each host message does on the field side. Each
clause about a command says when it completes, and the effects that it names. Readings of the model's own: log entries
13, 15, 19, 21. -/
def Obligations.FieldTakesHostMessages : Prop :=
  (∀ (s : State) (x : Msg) (rest : List Msg), takeMsg 0x20 s.hw.host.f.inbox = some (x, rest) → x.payload.length = 4 →
      ∃ t, exec .tmHfault s = .next t ∧ t.hw.host.f.inbox = rest ∧
        t.hw.flt.input = pushWord 32 0x10 (FaultWord.ofBits (numAt x.payload 0 4)) s.hw.flt.input) ∧
  (∀ (s : State) (x : Msg) (rest : List Msg), s.hw.away .f0 = false → takeMsg 0x21 s.hw.host.f.inbox = some (x, rest) →
      numAt x.payload 0 1 = 1 → s.hw.grants = true → ∃ t, exec .tmCable s = .next t ∧ t.hw.mode = modeSOURCE ∧
        t.hw.cable.target = 5100) ∧
  (∀ (s : State) (x : Msg) (rest : List Msg), s.hw.away .f0 = false → takeMsg 0x21 s.hw.host.f.inbox = some (x, rest) →
      numAt x.payload 0 1 = 2 → ∃ t, exec .tmCable s = .next t ∧ t.hw.regs = s.hw.regs ∧
        t.hw.cable.ended = decide (s.hw.mode = modeSOURCE)) ∧
  (∀ (s : State) (x : Msg) (rest : List Msg), takeMsg 0x22 s.hw.host.f.inbox = some (x, rest) → s.hw.chg.frame = none →
      ∃ t, exec .tmHstatus s = .next t ∧ t.hw.chg.source = decide (numAt x.payload 8 2 % 4 ≠ 0) ∧
        t.hw.chg.pin = numAt x.payload 6 2) ∧
  (∀ (s : State) (f : Nat) (v : Byte) (rest : List Msg), takeMsg 0x23 s.hw.host.f.inbox =
      some (⟨0x23, 0, 0, 0, le 4 f ++ [0x08, 0x1F, 1, v]⟩, rest) → v.toNat = s.hw.rd Reg.SB_EVENTS_ARB_LOST →
      ∃ t, exec .tmRdclr s = .next t ∧ t.hw.host.f.inbox = rest ∧ t.hw.rd Reg.SB_EVENTS_ARB_LOST = 0) ∧
  (∀ (s : State) (x : Msg) (rest : List Msg), takeMsg 0x24 s.hw.host.f.inbox = some (x, rest) →
      ∃ t, exec .tmJrec s = .next t ∧ t.hw.host.f.inbox = rest ∧
        t.hw.sub.map Append.r = s.hw.sub.map Append.r ++ [JRec.ofBytes x.payload]) ∧
  (∀ (s : State) (x : Msg) (rest : List Msg), s.hw.seq.cfgApplied = true → s.hw.away .f0 = false →
      takeMsg 0x25 s.hw.host.f.inbox = some (x, rest) → ∃ t, exec .tmCfgReq s = .next t ∧ t.hw.host.f.inbox = rest ∧
        ((t.hw.host.f.queue ++ t.hw.host.f.waiting).any fun y => y.type == 0x16) = true) ∧
  (∀ (s : State) (x : Msg) (rest : List Msg), s.hw.away .f6 = false → takeMsg 0x26 s.hw.host.f.inbox = some (x, rest) →
      s.hw.drains = true → numAt x.payload 0 1 ≠ 3 → ∃ t, exec .tmDrainReq s = .next t ∧
        t.hw.host.drain.fieldReq = some (reqOf x.payload) ∧ t.hw.regs = s.hw.regs) ∧
  (∀ (s : State) (x : Msg) (rest : List Msg), takeMsg 0x27 s.hw.host.f.inbox = some (x, rest) →
      s.hw.upd.chunkSession ≠ numAt x.payload 0 2 → numAt x.payload 4 4 = 0 → x.payload.length = 9 →
      ∃ t, exec .tmUpdData s = .next t ∧ t.hw.upd.chunkSession = numAt x.payload 0 2 ∧
        t.hw.upd.chunk = [(0, x.payload.getD 8 0)])

/-- R251, R266, R302, R391, R410 to R412, R416, R439, R457, R462: the mailbox, and the commands that are answered at once.
Each clause about a command says when it completes, and the effects that it names. Readings of the model's own: log
entries 53, 62, 107. -/
def Obligations.CommandsAreAnswered : Prop :=
  (∀ s : State, s.hw.host.hReady = true → s.hw.localRefusal s.hw.cmdWindow ≠ 0 → ∃ t, exec .mbxSubmit s = .next t ∧
      t.hw.rd Reg.MBX_STATUS_LREJ = s.hw.localRefusal s.hw.cmdWindow ∧ t.hw.host.mbx = s.hw.host.mbx ∧
      s.hw.hsaid t.hw Kind.MBX_LOCAL_REJ 0x02 (s.hw.localRefusal s.hw.cmdWindow)) ∧
  (∀ s : State, s.hw.host.hReady = true → s.hw.localRefusal s.hw.cmdWindow = 0 → s.hw.host.mbx.places = [] →
      numAt s.hw.cmdWindow 6 1 / 16 % 8 = 2 → ∃ t, exec .mbxSubmit s = .next t ∧
        t.hw.rd Reg.MBX_STATUS_LREJ = 0 ∧ t.hw.rd Reg.MBX_LAST_SEQ_SEQ = numAt s.hw.cmdWindow 0 4 ∧
        (t.hw.host.mbx.places.map fun p => (p.stream, p.seq, p.cmd, p.answered)) =
          [(2, numAt s.hw.cmdWindow 0 4, numAt s.hw.cmdWindow 4 2, false)]) ∧
  (∀ (s : State) (r : ResultEntry) (rs : List ResultEntry), s.hw.host.mbx.results = r :: rs →
      ∃ t, exec .mbxPop s = .next t ∧ t.hw.host.mbx.results = rs ∧ t.hw.rd Reg.MBX_CTL_RES_PAGE = 0) ∧
  (∀ (s : State) (n : Fin 8) (c : HostCmd), s.hw.turn n.val cmdPING c → ∃ t, exec (.ping n) s = .next t ∧
      t.hw.answeredWith c (le 4 s.hw.frn ++ le 1 s.hw.mode ++ le 3 0)) ∧
  (∀ (s : State) (n : Fin 8) (c : HostCmd), s.hw.turn n.val cmdREG_READ c → fieldAddr (c.arg 0 2) = true →
      c.arg 2 2 = 1 → ∃ t, exec (.regRead n) s = .next t ∧ t.hw.answeredWith c (le 4 (s.hw.readWord (c.arg 0 2)))) ∧
  (∀ (s : State) (n : Fin 8) (c : HostCmd), s.hw.turn n.val cmdREG_WRITE c → regWriteCheck s.hw c = none →
      c.durable = false → ∃ t, exec (.regWrite n) s = .next t ∧
        t.hw.answeredWith c (le 4 ((s.hw.writeFieldWord (c.arg 0 2) (c.arg 4 4) (c.arg 8 4)).readWord (c.arg 0 2)))) ∧
  (∀ (m : Hw) (mask v : Nat) (f : Field), f ∈ Reg.fieldsAt f.addr → f.width ≤ 32 → f.acc = .rw ∨ (f.acc = .rws ∧
      m.inService = true) →
      selfClearing.contains f = false → bitsOf mask f.lsb f.width = 2 ^ f.width - 1 →
      (m.stored f.addr mask v).rd f = inRange f (bitsOf v f.lsb f.width)) ∧
  (∀ (s : State) (n : Fin 8) (c : HostCmd), s.hw.turn n.val cmdADC_INJECT c → c.arg 0 1 ≤ 47 → c.arg 1 1 ≤ 4 →
      s.hw.canIssue 16 0 false false = true → ∃ t, exec (.adcInject n) s = .next t ∧
        (t.hw.adc.inj.map fun x => (x.tag, x.result)) =
          (s.hw.adc.inj.map fun x => (x.tag, x.result)) ++ [(c.arg 0 1, none)] ∧
        (∃ d ∈ t.hw.host.work, d.stream = c.stream ∧ d.seq = c.seq ∧ d.stage = 2)) ∧
  (∀ (s : State) (n : Fin 8) (c : HostCmd) (mean tctl : Int), s.hw.turn n.val cmdREFCHK_RUN c →
      refchkCheck mean s.hw c = none → ∃ t, exec (.refchkRun n mean tctl) s = .next t ∧ t.hw.answered c stOK ∧
        s.hw.filed t.hw JR.REFCHK 0x15) ∧
  (∀ (s : State) (n : Fin 8) (c : HostCmd), s.hw.turn n.val cmdCAL_STAGE c → stageCheck 0x233 s.hw c = none →
      c.durable = false → ∃ t, exec (.calStage n) s = .next t ∧ t.hw.answered c stOK ∧
        t.hw.adc.staged = putImgBytes s.hw.adc.staged (c.arg 0 2) (slice c.args 4 (c.arg 2 1))) ∧
  (∀ (s : State) (n : Fin 8) (c : HostCmd), s.hw.turn n.val cmdKA_STATEMENT c → ∃ t, exec (.kaStatement n) s = .next t ∧
      t.hw.answeredWith c (s.hw.statement (slice c.args 0 16))) ∧
  (∀ (s : State) (n : Fin 8) (c : HostCmd), s.hw.turn n.val cmdSB_XFER c → sbXferCheck s.hw c = none →
      c.durable = false → s.hw.canIssue 18 0x37 false false = true → ∃ t, exec (.sbXfer n) s = .next t ∧
        (t.hw.bus.ops.map fun x => (x.addr, x.host)) =
          (s.hw.bus.ops.map fun x => (x.addr, x.host)) ++ [(c.arg 0 1, some (c.stream, c.seq))]) ∧
  (∀ (s : State) (n : Fin 8) (c : HostCmd), s.hw.turn n.val cmdHOST_PWR c → c.arg 0 1 ≤ 2 → c.durable = false →
      ∃ t, exec (.hostPwr n) s = .next t ∧ t.hw.answered c stOK ∧ t.hw.modes.hostPwr = c.arg 0 1) ∧
  (∀ (s : State) (n : Fin 8) (c : HostCmd), s.hw.turn n.val cmdSVC_CHALLENGE c → c.arg 0 1 = 1 ∨ c.arg 0 1 = 2 →
      ∃ t, exec (.svcChallenge n) s = .next t ∧ t.hw.answered c stOK ∧ t.hw.modes.nonces = s.hw.modes.nonces + 1 ∧
        (t.hw.modes.challenge.map fun x => (x.index, x.level)) = some (s.hw.modes.nonces, c.arg 0 1)) ∧
  (∀ (s : State) (n : Fin 8) (c : HostCmd), s.hw.turn n.val cmdCFG_STAGE c → stageCheck 0xFFFF s.hw c = none →
      c.durable = false → ∃ t, exec (.cfgStage n) s = .next t ∧ t.hw.answered c stOK ∧
        t.hw.modes.staged = putImgBytes s.hw.modes.staged (c.arg 0 2) (slice c.args 4 (c.arg 2 1)))

/-- R264, R299, R306, R320, R321, R444, R457, R462 to R466: a durable command that nothing refuses is validated, and the
space of its record is reserved. Each clause about a command says when it completes, and the effects that it names.
Readings of the model's own: log entries 53, 54, 61, 62, 63. -/
def Obligations.DurableCommandsReserve : Prop :=
  (∀ (s : State) (n : Fin 8) (c : HostCmd) (rb : Bool), s.hw.turn n.val cmdCAL_COMMIT c →
      calCommitCheck rb s.hw c = none →
      s.hw.roomFor c → ∃ t, exec (.calCommit n rb) s = .next t ∧ t.hw.reserves c ∧ t.hw.adc = s.hw.adc) ∧
  (∀ (s : State) (n : Fin 8) (c : HostCmd), s.hw.turn n.val cmdTIME_SET c → timeSetCheck s.hw c = none →
      s.hw.roomFor c →
      ∃ t, exec (.timeSet n) s = .next t ∧ t.hw.reserves c ∧ t.hw.rd Reg.RTC_SEC_TAI = s.hw.rd Reg.RTC_SEC_TAI) ∧
  (∀ (s : State) (n : Fin 8) (c : HostCmd), s.hw.turn n.val cmdRELEASE c → releaseCheck s.hw c = none → s.hw.roomFor c →
      ∃ t, exec (.release n) s = .next t ∧ t.hw.reserves c ∧
        t.hw.rd Reg.JRN_RELEASED_EPOCH = s.hw.rd Reg.JRN_RELEASED_EPOCH) ∧
  (∀ (s : State) (n : Fin 8) (c : HostCmd), s.hw.turn n.val cmdSTREAM_RESET c → s.hw.roomFor c →
      ∃ t, exec (.streamReset n) s = .next t ∧ t.hw.reserves c ∧
        t.hw.rd (Reg.HOST_SEQ_N c.stream) = s.hw.rd (Reg.HOST_SEQ_N c.stream)) ∧
  (∀ (s : State) (n : Fin 8) (c : HostCmd), s.hw.turn n.val cmdSHIP_ENTER c →
      s.hw.shipReason false (decide (c.arg 0 4 = 0x50494853)) = 0 → s.hw.roomFor c →
      ∃ t, exec (.shipEnter n) s = .next t ∧ t.hw.reserves c ∧ t.hw.modes = s.hw.modes) ∧
  (∀ (s : State) (n : Fin 8) (c : HostCmd) (x : Challenge), s.hw.turn n.val cmdSVC_ENTER c → c.arg 0 1 = 1 →
      x.level = 1 →
      s.hw.mode = modeFLOAT → s.hw.rd Reg.SVC_STATUS_LOCKED_OUT = 0 → s.hw.modes.challenge = some x →
      s.hw.frnReached x.expires = false → s.hw.modes.keySlot = none → s.hw.roomFor c →
      ∃ t, exec (.svcEnter n) s = .next t ∧ t.hw.reserves c ∧ t.hw.modes.challenge = none) ∧
  (∀ (s : State) (n : Fin 8) (c : HostCmd), s.hw.turn n.val cmdSVC_EXIT c → s.hw.roomFor c →
      ∃ t, exec (.svcExit n) s = .next t ∧ t.hw.reserves c ∧ t.hw.modes = s.hw.modes) ∧
  (∀ (s : State) (n : Fin 8) (c : HostCmd), s.hw.turn n.val cmdKEY_ENROL c → c.arg 32 1 ≤ 1 →
      s.hw.modes.keySlot = none →
      s.hw.roomFor c → ∃ t, exec (.keyEnrol n) s = .next t ∧ t.hw.reserves c ∧ t.hw.modes = s.hw.modes) ∧
  (∀ (s : State) (n : Fin 8) (c : HostCmd) (rb : Bool), s.hw.turn n.val cmdCFG_COMMIT c →
      cfgCommitCheck rb s.hw c = none →
      s.hw.roomFor c → ∃ t, exec (.cfgCommit n rb) s = .next t ∧ t.hw.reserves c ∧ t.hw.modes = s.hw.modes) ∧
  (∀ (s : State) (n : Fin 8) (c : HostCmd), s.hw.turn n.val cmdFIELD_RESET c → s.hw.roomFor c →
      ∃ t, exec (.fieldReset n) s = .next t ∧ t.hw.reserves c ∧ t.hw.modes = s.hw.modes)

/-- R264, R299, R306, R412, R439, R444, R457, R462, R463, R466: what each durable command does at its commit, where its
record is accepted. Each clause about a command says when it completes, and the effects that it names. Readings of the
model's own: log entries 54, 61, 62, 63, 126. -/
def Obligations.DurableCommitsTakeEffect : Prop :=
  (∀ (s : State) (n : Fin 8) (c : HostCmd), s.hw.mayCommit n.val c → c.cmd = cmdTIME_SET → ∃ t,
      exec (.durableCommit n) s = .next t ∧ t.hw.answered c stOK ∧ t.hw.rd Reg.RTC_STATUS_VALID = 1 ∧
        t.hw.rd Reg.RTC_STATUS_SET_EVT = 1) ∧
  (∀ (s : State) (n : Fin 8) (c : HostCmd), s.hw.mayCommit n.val c → c.cmd = cmdRELEASE →
      s.hw.released (c.arg 0 4) = false →
      ∃ t, exec (.durableCommit n) s = .next t ∧ t.hw.answered c stOK ∧ t.hw.rd Reg.JRN_RELEASED_EPOCH = c.arg 0 4) ∧
  (∀ (s : State) (n : Fin 8) (c : HostCmd), s.hw.mayCommit n.val c → c.cmd = cmdSTREAM_RESET →
      ∃ t, exec (.durableCommit n) s = .next t ∧ t.hw.answered c stOK ∧ t.hw.rd (Reg.HOST_SEQ_N c.stream) = c.arg 0 4) ∧
  (∀ (s : State) (n : Fin 8) (c : HostCmd), s.hw.mayCommit n.val c → c.cmd = cmdSVC_ENTER →
      ∃ t, exec (.durableCommit n) s = .next t ∧ t.hw.answered c stOK ∧ t.hw.modes.svcNext = c.arg 0 1 ∧
        t.hw.rd Reg.SVC_STATUS_FAILS = 0 ∧ t.hw.modes.failFrns = []) ∧
  (∀ (s : State) (n : Fin 8) (c : HostCmd), s.hw.mayCommit n.val c → c.cmd = cmdKEY_ENROL →
      ∃ t, exec (.durableCommit n) s = .next t ∧ t.hw.answered c stOK ∧ t.hw.modes.keySlot = some (slice c.args 0 32) ∧
        t.hw.rd Reg.SVC_STATUS_KEY_ENROLLED = 1 ∧ t.hw.rd Reg.SVC_STATUS_REQ_SIGNED = c.arg 32 1 % 2) ∧
  (∀ (s : State) (n : Fin 8) (c : HostCmd), s.hw.mayCommit n.val c → c.cmd = cmdSHIP_ENTER →
      ∃ t, exec (.durableCommit n) s = .next t ∧ t.hw.answered c stOK ∧ t.hw.modes.shipAsk = true) ∧
  (∀ (s : State) (n : Fin 8) (c : HostCmd), s.hw.mayCommit n.val c → c.cmd = cmdHOST_PWR →
      ∃ t, exec (.durableCommit n) s = .next t ∧ t.hw.answered c stOK ∧ t.hw.modes.hostPwr = c.arg 0 1) ∧
  (∀ (s : State) (n : Fin 8) (c : HostCmd), s.hw.mayCommit n.val c → c.cmd = cmdCAL_COMMIT →
      ∃ t, exec (.durableCommit n) s = .next t ∧ t.hw.answered c stOK ∧ t.hw.adc.applyCopy = some s.hw.calTarget ∧
        (if s.hw.calTarget = 0 then t.hw.adc.copyA else t.hw.adc.copyB) = s.hw.adc.staged) ∧
  (∀ (s : State) (n : Fin 8) (c : HostCmd), s.hw.mayCommit n.val c → c.cmd = cmdCFG_COMMIT → s.hw.cfgCopy ≤ 1 →
      ∃ t, exec (.durableCommit n) s = .next t ∧ t.hw.answered c stOK ∧
        (if s.hw.cfgCopy = 0 then t.hw.modes.copyA else t.hw.modes.copyB) =
          (if s.hw.cfgCopy = 0 then s.hw.modes.copyA else s.hw.modes.copyB) ∧
        (if s.hw.cfgCopy = 0 then t.hw.modes.copyB else t.hw.modes.copyA) = s.hw.cfgWritten)

/-- R9, R298, R422 to R426, R507: a host write of a register, and the transactions of the drain port. Each clause about a
command says when it completes, and the effects that it names. Readings of the model's own: log entries 19, 20, 21,
22. -/
def Obligations.DrainPortAnswers : Prop :=
  (∀ (s : State) (addr : Fin 65536) (v : Word), addr.val / 4 * 4 = 0x34 →
      ∃ t, exec (.registerWrite addr v) s = .next t ∧
      t.hw.rd Reg.ALERT_EN_EN = v.toNat % 256 ∧ t.hw.rd Reg.HP_ADDR_PRIMARY = s.hw.rd Reg.HP_ADDR_PRIMARY) ∧
  (∀ (s : State) (addr : Fin 65536) (v : Word), 0x1000 ≤ addr.val → addr.val < 0x2000 →
      exec (.registerWrite addr v) s = .next s) ∧
  (∀ (s : State) (n : Nat), s.hw.portOpen = true → ∃ t, exec (.drnStatus n) s = .next t ∧ t.hw.regs = s.hw.regs ∧
      t.hw.host.drain.out = (List.range n).map fun i => (le 4 (s.hw.readWord 0x2000)).getD (i % 4) 0) ∧
  (∀ (s : State) (n : Nat), s.hw.portOpen = true → ∃ t, exec (.drnIdent n) s = .next t ∧ t.hw.regs = s.hw.regs ∧
      t.hw.host.drain.out = (le 4 (s.hw.readWord 0) ++ le 8 (s.hw.rd Reg.ID_SERIAL_SERIAL)).take n) ∧
  (∀ (s : State) (n : Nat), s.hw.portOpen = true → n ≤ s.hw.host.drain.buffer.length →
      ∃ t, exec (.drnRead n) s = .next t ∧
      t.hw.host.drain.out = s.hw.host.drain.buffer.take n ∧ t.hw.host.drain.buffer = s.hw.host.drain.buffer.drop n ∧
      t.hw.flt = s.hw.flt) ∧
  (∀ (s : State) (n : Nat), s.hw.portOpen = true → s.hw.host.drain.buffer.length < n →
      ∃ t, exec (.drnRead n) s = .next t ∧ t.hw.rd Reg.DRN_STATUS_UNDERRUN = 1 ∧
        t.hw.host.drain.out = s.hw.host.drain.buffer ++ List.replicate (n - s.hw.host.drain.buffer.length) 0xFF ∧
        s.hw.hsaid t.hw Kind.DRN_UNDERRUN 0x39 (n - s.hw.host.drain.buffer.length)) ∧
  (∀ (s : State) (n : Nat), s.hw.portOpen = true → s.hw.rd Reg.DRN_CFG_QUAD = 1 → n ≤ s.hw.host.drain.buffer.length →
      ∃ t, exec (.drnReadQ n) s = .next t ∧ t.hw.host.drain.out = s.hw.host.drain.buffer.take n ∧
        t.hw.host.drain.buffer = s.hw.host.drain.buffer.drop n) ∧
  (∀ (s : State) (n : Nat), s.hw.portOpen = true → s.hw.rd Reg.DRN_CFG_QUAD = 0 → ∃ t, exec (.drnReadQ n) s = .next t ∧
      t.hw.host.drain = s.hw.host.drain ∧ s.hw.hsaid t.hw Kind.DRN_FORMAT 0x39 0x6B) ∧
  (∀ (s : State) (b : List Byte), s.hw.portOpen = true → b.length = 16 → 1 ≤ numAt b 0 1 → numAt b 0 1 ≤ 3 →
      s.hw.host.fieldAsleep = false → ∃ t, exec (.drnRequest b) s = .next t ∧ t.hw.host.drain.openReq = some (reqOf b) ∧
        t.hw.rd Reg.DRN_STATUS_REQ_OPEN = 1 ∧ t.hw.rd Reg.DRN_TAG_TAG = numAt b 2 2 ∧ t.hw.host.drain.buffer = []) ∧
  (∀ (s : State) (b : List Byte), s.hw.portOpen = true → b.length < 16 → ∃ t, exec (.drnRequest b) s = .next t ∧
      t.hw.host.drain = s.hw.host.drain ∧ s.hw.hsaid t.hw Kind.DRN_FORMAT 0x39 0x20) ∧
  (∀ s : State, s.hw.rd (Reg.DRN_REQ_BLOCK 0) = 1 → s.hw.host.fieldAsleep = false → ∃ t, exec .drnGo s = .next t ∧
      t.hw.rd Reg.DRN_STATUS_REQ_OPEN = 1 ∧ t.hw.host.drain.buffer = [] ∧
      (t.hw.host.drain.openReq.map fun r => r.op) = some 1) ∧
  (∀ (s : State) (r : DrainReq), s.hw.away .f6 = false → s.hw.host.drain.fieldReq = some r → r.op = 1 → r.count = 0 →
      s.hw.host.f.waiting = [] → ∃ t, exec .readJsn s = .next t ∧ t.hw.host.drain.fieldReq = none) ∧
  (∀ (s : State) (r : DrainReq), s.hw.away .f6 = false → s.hw.host.drain.fieldReq = some r → r.op = 2 →
      ∃ t, exec .readCert s = .next t ∧ t.hw.host.drain.fieldReq = none) ∧
  (∀ (s : State) (r : DrainReq), s.hw.away .f6 = false → s.hw.host.drain.fieldReq = some r → r.op = 3 →
      ∃ t, exec .drainAbort s = .next t ∧ t.hw.host.drain.fieldReq = none) ∧
  (∀ (s : State) (o : Nat) (b : Byte), s.hw.portOpen = true → s.hw.windowOpen = true → o < 0x8000 →
      ∃ t, exec (.drnWrite o [b]) s = .next t ∧ t.hw.rd (Reg.UPD_WIN_DATA o) = b.toNat ∧ t.hw.flt = s.hw.flt) ∧
  (∀ (s : State) (o : Nat) (b : Byte), s.hw.portOpen = true → s.hw.rd Reg.DRN_CFG_QUAD = 1 → s.hw.windowOpen = true →
      o < 0x8000 → ∃ t, exec (.drnWriteQ o [b]) s = .next t ∧ t.hw.rd (Reg.UPD_WIN_DATA o) = b.toNat ∧
      t.hw.flt = s.hw.flt)

/-- R385, R394, R439 to R446, R557: the power request and the pads' supplies, doze, KEEPALIVE and SHIP. Each clause about
a command says when it completes, and the effects that it names. Readings of the model's own: log entries 1, 42, 43,
44. -/
def Obligations.ModesFollowTheirEvents : Prop :=
  (∀ (s : State) (high : Bool), s.hw.modes.hostPwr = 0 → s.hw.rd Reg.MODE_CFG_PWR_REQ_EN = 1 →
      ∃ t, exec (.pwrReqChange high) s = .next t ∧ t.hw.modes.pwrFilt = (high && !s.hw.bus.vioLow) ∧
        t.hw.rd Reg.MODE_STATUS_PWR_REQ = b2n (high && !s.hw.bus.vioLow)) ∧
  (∀ s : State, s.hw.mayDoze = true → ∃ t, exec .hcoreDoze s = .next t ∧ t.hw.rd Reg.HP_STATUS_DOZE = 1 ∧
      t.hw.hwdg.paused = true ∧ t.hw.host = s.hw.host) ∧
  (∀ s : State, s.hw.rd Reg.HP_STATUS_DOZE = 1 → ∃ t, exec (.hcoreWake none) s = .next t ∧
      t.hw.rd Reg.HP_STATUS_DOZE = 0 ∧ t.hw.hp.wakeWait = false ∧ t.hw.host = s.hw.host) ∧
  (∀ s : State, s.hw.mayKeepalive = true → s.hw.durableLeft = false → ∃ t, exec .keepaliveEntry s = .next t ∧
      t.hw.modes.kaStep = 2 ∧ t.hw.mode = s.hw.mode ∧ t.hw.tkt.stopped = true) ∧
  (∀ s : State, s.hw.mayKeepalive = true → s.hw.durableLeft = true → s.hw.modes.kaStep = 0 →
      ∃ t, exec .keepaliveEntry s = .next t ∧ t.hw.modes.kaStep = 1 ∧ t.hw.modes.kaFrames = 0 ∧
      t.hw.tkt.stopped = true ∧
        t.hw.regs = s.hw.regs) ∧
  (∀ s : State, 64 ≤ s.hw.modes.kaFrames → s.hw.tkt.stopped = true → s.hw.modes.shipAsk = false →
      s.hw.modes.kaStep = 1 →
      s.hw.tkt.waits = [] → ∃ t, exec .keepaliveTicketTimeout s = .next t ∧ t.hw.modes.kaStep = 0 ∧
        t.hw.tkt.stopped = false ∧ t.hw.mode = s.hw.mode ∧ s.hw.said t.hw Kind.MODE_REFUSED 0x10 (4 + 16 * 3)) ∧
  (∀ s : State, s.hw.modes.kaStep = 2 → s.hw.tkt.table = [] → s.hw.arch.domains.length = 10 →
      ∃ t, exec .keepaliveDomainSwitch s = .next t ∧ t.hw.mode = modeKEEPALIVE ∧ (t.hw.domain .fCore).on = false ∧
        t.hw.modes.kaStep = 0 ∧ t.hw.rd Reg.TKT_EPOCH_EPOCH = (s.hw.rd Reg.TKT_EPOCH_EPOCH + 1) % 2 ^ 32) ∧
  (∀ (s : State) (ms : Nat), s.hw.mode = modeKEEPALIVE → s.hw.modes.wakeReq = true → s.hw.chg.source = false →
      ∃ t, exec (.keepaliveWake ms none) s = .next t ∧ t.hw.mode = modeFLOAT ∧ t.hw.modes.wakeReq = false ∧
        t.hw.modes.wakeHold = 64 ∧ t.hw.rd Reg.START_INFO_KIND = 3) ∧
  (∀ (s : State) (vb vka ika v1 v2 ch : Nat) (ib tc tp : Int), s.hw.mode = modeKEEPALIVE →
      s.hw.arch.engines.length = 12 →
      ∃ t, exec (.keepaliveSecondWake vb ib vka ika v1 v2 tc tp ch) s = .next t ∧ t.hw.mode = modeKEEPALIVE ∧
        t.hw.jrn.tpack = some tp ∧ (t.hw.engine .f6).running = false) ∧
  (∀ s : State, s.hw.rd Reg.MODE_CFG_SHIP_N_EN = 1 → s.hw.modes.shipNReady = true → s.hw.modes.shipAsk = false →
      s.hw.shipReason true true = 0 → ∃ t, exec .shipNHold s = .next t ∧ t.hw.modes.shipAsk = true ∧
        t.hw.modes.shipByPad = true ∧ t.hw.rd Reg.MODE_STATUS_SHIP_N = 0) ∧
  (∀ s : State, s.hw.modes.shipAsk = true → s.hw.upd.hand = none → s.hw.upd.prob = none → s.hw.chg.source = false →
      s.hw.durableLeft = false → s.hw.arch.domains.length = 10 → ∃ t, exec (.shipEntry false) s = .next t ∧
        t.hw.mode = modeSHIP ∧ t.hw.modes.shipCell = true ∧ t.hw.rd Reg.RAIL_STATUS_KA_ON = 0 ∧
        (t.hw.domain .fCore).on = false) ∧
  (∀ s : State, s.hw.modes.shipAsk = true → s.hw.upd.hand = none → s.hw.upd.prob = none → s.hw.tkt.waits = [] →
      ∃ t, exec (.shipEntry true) s = .next t ∧ t.hw.mode = s.hw.mode ∧ t.hw.modes.shipAsk = false ∧
        s.hw.said t.hw Kind.MODE_REFUSED 0x10 (5 + 16 * 2)) ∧
  (∀ s : State, s.hw.modes.shipCell = true → s.hw.modes.faonOn = false → ∃ t, exec (.shipWake false true) s = .next t ∧
      t.hw.modes.shipCell = false ∧ t.hw.modes.faonOn = true ∧ t.hw.modes.starting = true ∧
      t.hw.modes.shipNReady = false) ∧
  (∀ s : State, s.hw.bus.ops = [] → ∃ t, exec .fvioLow s = .next t ∧ t.hw.bus.vioLow = true ∧
      t.hw.modes.pwrFilt = false ∧ t.hw.seq.aptPad = false) ∧
  (∀ s : State, s.hw.bus.vioLow = true → ∃ t, exec .fVioReturn s = .next t ∧ t.hw.bus.vioLow = false ∧
      t.hw.bus.clearDue = true ∧ t.hw.regs = s.hw.regs) ∧
  (∀ s : State, ∃ t, exec .hvioLow s = .next t ∧ t.hw.bus.hvioLow = true ∧ t.hw.host.drain.openReq = none ∧
      t.hw.host.drain.buffer = [] ∧ t.hw.host.mbx = s.hw.host.mbx) ∧
  (∀ s : State, ∃ t, exec .hVioReturn s = .next t ∧ t.hw.bus.hvioLow = false ∧ t.hw.regs = s.hw.regs ∧
      t.hw.host = s.hw.host)

/-- R60, R303, R327, R434, R447 to R449, R456, R458 to R465, R471, R491, R540: resets, loss of power, starts, and the ends
of SERVICE. Each clause about a command says when it completes, and the effects that it names. Readings of the model's
own: log entries 11, 23, 24, 27, 29, 31, 32, 33, 35, 37. -/
def Obligations.ResetsAndStartsTakePlace : Prop :=
  (∀ (s : State) (c : Nat), s.hw.modes.faonOn = true → ∃ t, exec (.fieldWReset c) s = .next t ∧
      t.hw.arch.sb.fieldReset = true ∧ t.hw.rd Reg.TL_F_STATUS_STATE = 0 ∧ t.hw.modes.challenge = none ∧
      t.hw.rd Reg.TKT_EPOCH_EPOCH = (s.hw.rd Reg.TKT_EPOCH_EPOCH + 1) % 2 ^ 32) ∧
  (∀ (s : State) (c : Nat), s.hw.modes.faonOn = true → s.hw.arch.engines.length = 12 → s.hw.upd.prob = none →
      ∃ t, exec (.fieldWReset c) s = .next t ∧ (t.hw.engine .f0).running = false ∧ (t.hw.engine .f8).running = false ∧
        (t.hw.engine .h2).running = (s.hw.engine .h2).running) ∧
  (∀ (s : State) (c : Nat), s.hw.modes.haonOn = true → ∃ t, exec (.hostWReset c) s = .next t ∧
      t.hw.host.hReady = false ∧
      t.hw.host.mbx.places = [] ∧ t.hw.host.mbx.results = [] ∧ t.hw.rd Reg.ID_STATUS_HOST_READY = 0 ∧
      t.hw.hp.pointer = 0) ∧
  (∀ s : State, s.hw.modes.faonOn = true → s.hw.held .field = false → ∃ t, exec (.fieldPinReset true) s = .next t ∧
      t.hw.seq.pinHeld = true ∧ t.hw.seq.outputsLow = true ∧ t.hw.frozen = false ∧ t.hw.rd Reg.WDG_STATUS_ARMED = 0) ∧
  (∀ s : State, s.hw.modes.faonOn = true → ∃ t, exec (.fieldPinReset false) s = .next t ∧ t.hw.seq.pinHeld = false ∧
      t.hw.sub = s.hw.sub) ∧
  (∀ s : State, s.hw.modes.haonOn = true → s.hw.held .host = false → ∃ t, exec (.hostPinReset true) s = .next t ∧
      t.hw.host.pinLow = true ∧ t.hw.host.hReady = false ∧ t.hw.host.mbx.places = []) ∧
  (∀ (s : State) (p : Fin 4), ∃ t, exec (.testPadHigh p) s = .next t ∧ t.hw.lb.testHigh = p.val ∧
      t.hw.held .field = (s.hw.seq.pinHeld || bitAt p.val 1)) ∧
  (∀ (s : State) (l : LossLetter), s.hw.modes.faonOn = true → ∃ t, exec (.faonPowerLoss l) s = .next t ∧
      t.hw.modes.faonOn = false ∧ t.hw.sub = [] ∧ t.hw.tkt.table = [] ∧ t.hw.rd Reg.JRN_STAGE_STAGED = 0 ∧
      t.hw.jrn.blocks = s.hw.jrn.blocks) ∧
  (∀ (s : State) (x : StartInfo), s.hw.modes.faonOn = true → s.hw.modes.starting = true → s.hw.modes.shipCell = false →
      s.hw.held .field = false → s.hw.modes.halted = false → s.hw.modes.kaRead = true →
      x.slotBad = 0 → x.slotFell = 0 → ∃ t, exec (.coldStart x) s = .next t ∧ t.hw.modes.starting = false ∧
        t.hw.rd Reg.START_INFO_KIND = 0 ∧ t.hw.rd Reg.START_INFO_LAST_MS = min 65535 x.ms) ∧
  (∀ (s : State) (x : StartInfo), s.hw.modes.faonOn = true → s.hw.modes.starting = true → s.hw.modes.shipCell = false →
      s.hw.held .field = false → s.hw.modes.halted = true → s.hw.modes.kaRead = true →
      exec (.coldStart x) s = .next s) ∧
  (∀ (s : State) (x : StartInfo), s.hw.mayWarm = true → ∃ t, exec (.warmStart x) s = .next t ∧
      t.hw.arch.sb.fieldReset = false ∧ t.hw.rd Reg.START_INFO_KIND = s.hw.modes.startKind % 4 ∧
      t.hw.rd Reg.START_INFO_LAST_MS = min 65535 x.ms) ∧
  (∀ s : State, s.hw.mode = modeSERVICE → s.hw.modes.svcEnd = none →
      s.hw.rd Reg.MODE_CFG_SVC_TMO * s.hw.frames60 ≤ s.hw.modes.svcIdle → ∃ t, exec .serviceTimeout s = .next t ∧
        t.hw.modes.svcEnd = some 9 ∧ t.hw.regs = s.hw.regs) ∧
  (∀ s : State, s.hw.rd Reg.SVC_STATUS_LOCKED_OUT = 1 → s.hw.lockOver = true →
      ∃ t, exec .serviceLockoutEnd s = .next t ∧ t.hw.rd Reg.SVC_STATUS_LOCKED_OUT = 0 ∧
        t.hw.rd Reg.SVC_STATUS_FAILS = 0 ∧ t.hw.modes.failFrns = [])

/-- R474 to R482: service inside and outside the window, foreign writes, windows, check-ins, the start timer. Each clause
about a command says when it completes, and the effects that it names. Readings of the model's own: log entries 25,
26, 28, 59, 80. -/
def Obligations.WatchdogsJudgeTheirWindows : Prop :=
  (∀ s : State, s.hw.wdArmed .field = true → s.hw.guardRuns .field = true → s.hw.wdg.window = true →
      s.hw.wdg.late = false →
      s.hw.wdg.refused = false → s.hw.resetDue .field = false → s.hw.wdg.served = false →
      ∃ t, exec (.wdgServiceWrite .field 0xC7A3) s = .next t ∧ t.hw.wdg.served = true ∧
        t.hw.rd Reg.WDG_STATUS_SERVED = 1 ∧ t.hw.flt = s.hw.flt) ∧
  (∀ s : State, s.hw.wdArmed .field = true → s.hw.guardRuns .field = true → s.hw.wdg.window = false →
      ∃ t, exec (.wdgServiceWrite .field 0xC7A3) s = .next t ∧ t.hw.rd Reg.WDG_STATUS_EXPIRED_EVT = 1 ∧
        t.hw.rd Reg.WDG_STATUS_LAST_CAUSE = 1 ∧ t.hw.rd Reg.WDG_STATUS_ARMED = 0 ∧ t.hw.arch.sb.fieldReset = true) ∧
  (∀ (s : State) (k : Fin 65536), s.hw.wdArmed .host = true → s.hw.guardRuns .host = true → k ≠ 0xC7A3 →
      ∃ t, exec (.wdgServiceWrite .host k) s = .next t ∧ t.hw.hwdg = s.hw.hwdg ∧
        t.hw.rd Reg.HWDG_EVENTS_BAD_KEY = min 255 (s.hw.rd Reg.HWDG_EVENTS_BAD_KEY + 1)) ∧
  (∀ (s : State) (e : Engine), e ≠ guardOf e.side → ∃ t, exec (.wdgForeignWrite e) s = .next t ∧ t.hw.wdg = s.hw.wdg ∧
      t.hw.hwdg = s.hw.hwdg ∧ t.hw.freeCtr = s.hw.freeCtr + 1 ∧
      (e.side = .field → t.hw.rd Reg.WDG_EVENTS_FOREIGN = min 255 (s.hw.rd Reg.WDG_EVENTS_FOREIGN + 1))) ∧
  (∀ s : State, s.hw.wdArmed .field = true → s.hw.wdg.window = false → s.hw.wdFrame + 1 = s.hw.wdP .field →
      ∃ t, exec (.wdgWindowOpen .field) s = .next t ∧ t.hw.wdg.window = true ∧ t.hw.wdg.live = 0 ∧
        t.hw.rd Reg.WDG_CHECKIN_SEEN = s.hw.wdg.live % 2 ^ 9 ∧ t.hw.rd Reg.WDG_STATUS_WINDOW = 1) ∧
  (∀ s : State, s.hw.wdArmed .field = true → s.hw.wdg.window = true → s.hw.wdg.served = true →
      s.hw.mode ≠ modePERMAFROST → ∃ t, exec (.wdgWindowClose .field) s = .next t ∧ t.hw.wdg.window = false ∧
        t.hw.wdg.served = false ∧ t.hw.wdg.period = s.hw.rd Reg.WDG_CFG_PERIOD ∧ t.hw.flt = s.hw.flt) ∧
  (∀ s : State, s.hw.wdArmed .field = true → s.hw.wdg.window = true → s.hw.wdKept .field = false →
      ∃ t, exec (.wdgWindowClose .field) s = .next t ∧ t.hw.rd Reg.WDG_STATUS_EXPIRED_EVT = 1 ∧
        t.hw.rd Reg.WDG_STATUS_LAST_CAUSE = (if s.hw.wdg.tried then 3 else 0) ∧ t.hw.arch.sb.fieldReset = true) ∧
  (∀ s : State, s.hw.hwdg.starting = true → s.hw.wdArmed .host = false → s.hw.held .host = false →
      s.hw.upd.hostFrost = false →
      s.hw.modes.haonOn = true → ∃ t, exec (.wdgStartTimeout .host) s = .next t ∧ t.hw.host.hReady = false ∧
        t.hw.arch.sb.hostReset = true ∧ t.hw.hwdg.starting = true) ∧
  (∀ (s : State) (e : Engine), (s.hw.engine e).running = true → (s.hw.engine e).restarting = false →
      (s.hw.engine e).handover = false → e.side = .field → bitAt s.hw.wdg.live (checkBit e) = false →
      ∃ t, exec (.checkinWrite e) s = .next t ∧ t.hw.regs = s.hw.regs ∧ t.hw.flt = s.hw.flt ∧
        t.hw.wdg = { s.hw.wdg with live := putBit s.hw.wdg.live (checkBit e) true }) ∧
  (∀ (s : State) (e : Engine), (s.hw.engine e).running = true → (s.hw.engine e).restarting = false →
      (s.hw.engine e).handover = false → e.side = .field → bitAt s.hw.wdg.live (checkBit e) = true →
      ∃ t, exec (.checkinWrite e) s = .next t ∧ t.hw.wdg = s.hw.wdg ∧
        s.hw.said t.hw Kind.CHECKIN_DOUBLE e.id s.hw.wdFrame)

/-- R483, R484, R487 to R495, R528 to R535: March C− finds every stuck bit and every bit that cannot change; the memory
self-test, fuse repair, loop-backs and fault injection. Each clause about a command says when it completes, and the
effects that it names. Readings of the model's own: log entries 30, 49, 108, 113, 114. -/
def Obligations.SelfTestsAndInjectionsRun : Prop :=
  (∀ (sd : Side) (id r c : Nat) (v : Bool), macroExists sd id = true → c < (macroSize sd id).2 →
      marchPass (wordsPerRow sd id) [⟨r, c, .stuck v⟩] = [(r, c)] ∧
      marchPass (wordsPerRow sd id) [⟨r, c, .noRise⟩] = [(r, c)] ∧
      marchPass (wordsPerRow sd id) [⟨r, c, .noFall⟩] = [(r, c)]) ∧
  (∀ (s : State) (id : Fin 32), s.hw.bist.due.contains id.val = true → s.hw.bist.fuses = [] →
      ∃ t, exec (.memorySelftestMacro .field id [] false) s = .next t ∧
      bitAt t.hw.bist.passed id.val = true ∧ t.hw.flt = s.hw.flt ∧ t.hw.modes = s.hw.modes ∧
        t.hw.bist.due.contains id.val = false) ∧
  (∀ (s : State) (r c : Nat) (v : Bool), c < (macroSize .field 5).2 → s.hw.bist.due.contains 5 = true →
      s.hw.bist.soft = [] → s.hw.bist.fuses = [] →
      ∃ t, exec (.memorySelftestMacro .field 5 [⟨r, c, .stuck v⟩] false) s = .next t ∧
      t.hw.bit Reg.BIST_REPMAP_MAP 5 = true ∧ t.hw.bist.soft = [⟨5, false, r, 0, false⟩] ∧
      s.hw.said t.hw Kind.BIST_REPAIRED 0x10 (5 + 64)) ∧
  (∀ (s : State) (r c : Nat) (v : Bool), c < (macroSize .field 0).2 → s.hw.bist.due.contains 0 = true →
      s.hw.bist.soft = [] → s.hw.bist.fuses = [] →
      ∃ t, exec (.memorySelftestMacro .field 0 [⟨r, c, .stuck v⟩] true) s = .next t ∧
      t.hw.modes.halted = true ∧ t.hw.rd Reg.BIST_STATUS_HALTED = 1 ∧ s.hw.said t.hw Kind.BIST_FAIL 0x10 64) ∧
  (∀ (s : State) (r : Repair), s.hw.inService = true → s.hw.frozen = false → s.hw.bist.soft = [r] → r.fused = false →
      s.hw.rd Reg.BIST_STATUS_FUSES_USED < 64 → ∃ t, exec (.bistBurn .field []) s = .next t ∧
        t.hw.bist.soft = [{ r with fused := true }] ∧ t.hw.bist.burn = false ∧ t.hw.flt = s.hw.flt ∧
        t.hw.rd Reg.BIST_STATUS_FUSES_USED = s.hw.rd Reg.BIST_STATUS_FUSES_USED + 1) ∧
  (∀ (s : State) (r : Repair), s.hw.inService = true → s.hw.frozen = false → s.hw.bist.soft = [r] → r.fused = false →
      s.hw.rd Reg.BIST_STATUS_FUSES_USED = 64 → ∃ t, exec (.bistBurn .field []) s = .next t ∧ t.hw.bist.soft = [r] ∧
        s.hw.said t.hw Kind.FUSE_FAIL 0x10 1) ∧
  (∀ s : State, s.hw.inService = true → ∃ t, exec .bistEngTest s = .next t ∧ t.hw.modes.resetEngTest = true ∧
      t.hw.regs = s.hw.regs) ∧
  (∀ s : State, s.hw.lbReason .field (s.hw.rd Reg.LB_CTL_IF) (s.hw.rd Reg.LB_CTL_DEPTH) = 0 →
      ∃ t, exec (.lbStart .field) s = .next t ∧ t.hw.rd Reg.LB_STATUS_STATE = 1 ∧ t.hw.lb.due = true ∧
        t.hw.rd Reg.LB_STATUS_SENT = 0 ∧ t.hw.rd Reg.LB_ERRS_ERRORS = 0) ∧
  (∀ s : State, s.hw.inService = false → ∃ t, exec (.lbStart .field) s = .next t ∧ t.hw.rd Reg.LB_STATUS_STATE = 5 ∧
      t.hw.rd Reg.LB_STATUS_REASON = 1 ∧ t.hw.lb = s.hw.lb) ∧
  (∀ (s : State) (b : List (Option Word)) (n e : Nat) (v : Int), s.hw.rd Reg.HLB_STATUS_STATE = 2 →
      ∃ t, exec (.lbRunEnd .host b ⟨n, e⟩ v) s = .next t ∧
      t.hw.rd Reg.HLB_STATUS_STATE = (if b.length = s.hw.rd Reg.HLB_CTL_COUNT ∧ prbsErrors 1 b = 0 then 3 else 4) ∧
      t.hw.lb.hostRun = false ∧ t.hw.rd Reg.HLB_STATUS_REASON = 0) ∧
  (∀ s : State, s.hw.rd Reg.LB_STATUS_STATE = 2 → 64 ≤ s.hw.lb.frames → ∃ t, exec (.lbTimeout .field) s = .next t ∧
      t.hw.rd Reg.LB_STATUS_STATE = 4 ∧ t.hw.rd Reg.LB_STATUS_REASON = 7) ∧
  (∀ s : State, s.hw.fiAllowed = true → ∃ t, exec .fiArm s = .next t ∧ t.hw.lb.armed = true ∧
      t.hw.rd Reg.FI_CTL_ARM = 1 ∧ t.hw.flt = s.hw.flt) ∧
  (∀ s : State, s.hw.fiAllowed = false → exec .fiArm s = .next s) ∧
  (∀ s : State, s.hw.lb.armed = true → s.hw.rd Reg.FI_CTL_MODE = 0 → ∃ t, exec .fiInject s = .next t ∧
      t.hw.lb.armed = false ∧ t.hw.rd Reg.FI_STATUS_LAST_TARGET = s.hw.rd Reg.FI_CTL_TARGET % 2 ^ 8 ∧
      t.hw.flt.input = pushWord 32 0x10
        ⟨s.hw.rd Reg.FI_CTL_TARGET, s.hw.rd Reg.FI_CTL_KIND, s.hw.rd Reg.FI_CTL_SEV, 0⟩ s.hw.flt.input)

/-- R501, R505, R506, R508, R509, R512, R514, R519: the update commands of the field side, in SERVICE. Each clause about a
command says when it completes, and the effects that it names. Readings of the model's own: log entries 50, 51, 52. -/
def Obligations.UpdateCommandsAct : Prop :=
  (∀ (s : State) (n : Fin 8) (c : HostCmd) (e : Engine), n ≠ 7 → s.hw.turn n.val cmdUPD_BEGIN c →
      s.hw.namedEngine c = some e →
      e.side = .field → 1 ≤ c.arg 4 4 → c.arg 4 4 ≤ 524288 → s.hw.upd.session = none →
      ∃ t, exec (.updBegin n) s = .next t ∧ t.hw.answered c stOK ∧ t.hw.upd.sessions = s.hw.upd.sessions + 1 ∧
        t.hw.upd.session = some (Session.mk (s.hw.upd.sessions % 65536) e.index (1 - s.hw.runSlot e) (c.arg 4 4) 0 []
        0 []
          false false)) ∧
  (∀ (s : State) (c : HostCmd) (e : Engine), s.hw.nextCmd 7 cmdUPD_BEGIN = some c → s.hw.mustWait c = false →
      s.hw.gate c = none → s.hw.hostGate c = none → s.hw.away .h2 = false → s.hw.namedEngine c = some e →
      1 ≤ c.arg 4 4 → c.arg 4 4 ≤ 524288 → s.hw.upd.session = none → ∃ t, exec (.updBegin 7) s = .next t ∧
        t.hw.upd.sessions = s.hw.upd.sessions + 1 ∧ (t.hw.upd.session.map fun x => (x.engine, x.slot)) =
          some (e.index, 1 - s.hw.runSlot e)) ∧
  (∀ (s : State) (n : Fin 8) (c : HostCmd) (x : Session), n ≠ 7 → s.hw.turn n.val cmdUPD_CHUNK c →
      s.hw.namedSession c = some x →
      updChunkCheck s.hw c = (s.hw, none) → c.arg 4 4 + c.arg 8 2 ≤ x.next → c.arg 4 4 ≠ x.next →
      ∃ t, exec (.updChunk n) s = .next t ∧ t.hw.answeredWith c (chunkData x) ∧
        t.hw.upd.session = s.hw.upd.session) ∧
  (∀ (s : State) (n : Fin 8) (c : HostCmd) (x : Session), n ≠ 7 → s.hw.turn n.val cmdUPD_CHUNK c →
      s.hw.namedSession c = some x →
      updChunkCheck s.hw c = (s.hw, none) → c.arg 4 4 = x.next → x.patch.length + c.arg 8 2 < 0x58 →
      ∃ t, exec (.updChunk n) s = .next t ∧ t.hw.answered c stOK ∧
        (t.hw.upd.session.map fun y => (y.id, y.patch, y.next)) =
          some (x.id, x.patch ++ s.hw.chunkBytes c, x.next + (s.hw.chunkBytes c).length)) ∧
  (∀ (s : State) (x : Session), s.hw.upd.session = some x → x.pendingBlocks ≠ 0 → s.hw.mayPulse = true →
      crc32c ((x.target.drop (4096 * x.blocks)).take 4096) = numAt x.patch (0x58 + 4 * x.blocks) 4 →
      ∃ t, exec (.updBlockWrite true) s = .next t ∧
      t.hw.upd.session = some { x with blocks := x.blocks + 1, rewrite := false } ∧
        t.hw.flt = s.hw.flt) ∧
  (∀ (s : State) (x : Session), s.hw.upd.session = some x → x.pendingBlocks ≠ 0 → s.hw.mayPulse = true →
      crc32c ((x.target.drop (4096 * x.blocks)).take 4096) ≠ numAt x.patch (0x58 + 4 * x.blocks) 4 →
      (engineAt x.engine).side = .field → ∃ t, exec (.updBlockWrite true) s = .next t ∧ t.hw.upd.session = none ∧
        s.hw.said t.hw Kind.UPD_REJECTED (engineAt x.engine).id (4 + 256 * x.slot)) ∧
  (∀ (s : State) (n : Fin 8) (c : HostCmd) (x : Session), n ≠ 7 → s.hw.turn n.val cmdUPD_FINISH c →
      s.hw.namedSession c = some x →
      x.pendingBlocks = 0 → x.ended = false → (engineAt x.engine).side = .field →
      ∃ t, exec (.updFinish n) s = .next t ∧ t.hw.answered c stSTATE ∧ t.hw.upd.session = none ∧
        t.hw.rd Reg.UPD_STATUS_LAST_REASON = 6) ∧
  (∀ (s : State) (n : Fin 8) (c : HostCmd) (x : Session), n ≠ 7 → s.hw.turn n.val cmdUPD_FINISH c →
      s.hw.namedSession c = some x → x.pendingBlocks = 0 → s.hw.upd.slots.length = 24 → x.engine < 12 → x.slot < 2 →
      ∃ t, exec (.updFinish n) s = .next t ∧ t.hw.answered c (if finishReason x = 0 then stOK else stSTATE) ∧
        t.hw.upd.session = none ∧ ((t.hw.slot (engineAt x.engine) x.slot).map fun y => y.state) =
          some (if finishReason x = 0 then slVERIFIED else slREJECTED)) ∧
  (∀ (s : State) (n : Fin 8) (c : HostCmd) (x : Session), n ≠ 7 → s.hw.turn n.val cmdUPD_ABORT c →
      s.hw.namedSession c = some x →
      s.hw.upd.slots.length = 24 → x.engine < 12 → x.slot < 2 → ∃ t, exec (.updAbort n) s = .next t ∧
        t.hw.answered c stOK ∧ t.hw.upd.session = none ∧
        ((t.hw.slot (engineAt x.engine) x.slot).map fun y => y.state) = some slEMPTY) ∧
  (∀ (s : State) (n : Fin 8) (c : HostCmd) (e : Engine), n ≠ 7 → s.hw.turn n.val cmdUPD_QUERY c →
      s.hw.namedEngine c = some e →
      ∃ t, exec (.updQuery n) s = .next t ∧ t.hw.answered c stOK ∧ t.hw.upd = s.hw.upd) ∧
  (∀ (s : State) (n : Fin 8) (c : HostCmd) (e : Engine), n ≠ 7 → s.hw.turn n.val cmdUPD_ACTIVATE c →
      s.hw.namedEngine c = some e →
      (activateCheck false s.hw c).2.isNone = true → s.hw.mode ≠ modePERMAFROST →
      ∃ t, exec (.updActivate n) s = .next t ∧
        t.hw.upd.hand = some (Handover.mk e.index (s.hw.runSlot e) (1 - s.hw.runSlot e) (s.hw.handAt (c.arg 4 4))
        false false
          (some (c.stream, c.seq)) 0 0)) ∧
  (∀ (s : State) (n : Fin 8) (c : HostCmd) (e : Engine), n ≠ 7 → s.hw.turn n.val cmdUPD_REVERT c →
      s.hw.namedEngine c = some e →
      (activateCheck true s.hw c).2.isNone = true → s.hw.mode ≠ modePERMAFROST →
      ∃ t, exec (.updRevert n) s = .next t ∧
        t.hw.upd.hand = some (Handover.mk e.index (s.hw.runSlot e) (1 - s.hw.runSlot e) (s.hw.frnAfter 2) false true
          (some (c.stream, c.seq)) 0 0))

/-- R514, R516, R518, R519, R522: a handover begins, ends, or falls back; a probation passes or fails. Each clause about a
command says when it completes, and the effects that it names. Readings of the model's own: log entries 17, 50. -/
def Obligations.HandoversAndProbationsEnd : Prop :=
  (∀ (s : State) (h : Handover), s.hw.upd.hand = some h → h.begun = false → s.hw.frnReached h.at_ = true →
      h.engine < 12 → s.hw.arch.engines.length = 12 → (s.hw.engine (engineAt h.engine)).running = true →
      ∃ t, exec .handoverStart s = .next t ∧ (t.hw.engine (engineAt h.engine)).handover = true ∧
        t.hw.upd.hand = some { h with begun := true, startAt := s.hw.now }) ∧
  (∀ (s : State) (h : Handover) (us len : Nat), s.hw.upd.hand = some h → h.begun = true → h.engine < 12 →
      s.hw.arch.engines.length = 12 → s.hw.frozen = true → (engineAt h.engine).side = .field →
      ∃ t, exec (.handoverReady us len) s = .next t ∧ t.hw.upd.hand = none ∧
        (t.hw.upd.prob.map fun p => (p.engine, p.newSlot, p.at_)) = some (h.engine, h.newSlot, s.hw.frnAfter 256) ∧
        t.hw.runSlot (engineAt h.engine) = (if h.newSlot = 1 then 1 else 0) ∧ t.hw.rd Reg.UPD_PROB_FRAMES = 256) ∧
  (∀ (s : State) (h : Handover) (u : Bool) (us len : Nat), s.hw.upd.hand = some h → h.begun = true →
      (engineAt h.engine).side = .field → ∃ t, exec (.handoverFallback u us len) s = .next t ∧ t.hw.upd.hand = none ∧
        s.hw.said t.hw Kind.HANDOVER_FALLBACK (engineAt h.engine).id (if u then 1 else 2) ∧
        (t.hw.upd.slots.map fun y => y.state) = s.hw.upd.slots.map fun y => y.state) ∧
  (∀ (s : State) (h : Handover), s.hw.upd.prob = some h → s.hw.frnReached h.at_ = true → s.hw.upd.probDue = none →
      h.engine < 12 → h.newSlot = 1 →
      h.oldSlot = 0 → s.hw.upd.slots.length = 24 → ∃ t, exec .probationPass s = .next t ∧ t.hw.upd.prob = none ∧
        ((t.hw.slot (engineAt h.engine) 1).map fun y => y.state) = some slACTIVE ∧
        ((t.hw.slot (engineAt h.engine) 0).map fun y => y.state) = some slVERIFIED ∧ t.hw.rd Reg.UPD_PROB_FRAMES = 0) ∧
  (∀ (s : State) (h : Handover) (k : Nat), s.hw.upd.prob = some h → s.hw.upd.probDue = some k → h.engine < 12 →
      h.newSlot = 1 → h.oldSlot = 0 →
      s.hw.upd.slots.length = 24 → ∃ t, exec (.probationFail k) s = .next t ∧ t.hw.upd.prob = none ∧
        ((t.hw.slot (engineAt h.engine) 1).map fun y => y.state) = some slREJECTED ∧
        t.hw.runSlot (engineAt h.engine) = 0)

/-- The frames of the commands of the architecture, the frame sequencer, the intake and the transfer stage: each
completes, and leaves what it is not said to change as it was. -/
def Obligations.ArchitectureToTransferFrames : Prop :=
  ∀ (c : Instr) (s : State), ∃ t, exec c s = .next t ∧ match c with
  | .frameTick .. =>
      s.hw.leaves t.hw (Touch.powering ++ Touch.charging ++ Touch.inputSwitch ++ Touch.freezeEnd ++ Touch.nandShown ++
      Touch.refusing ++ Touch.typeCOnly ++ Touch.loopBackEnd ++ Touch.contractGone ++ Touch.unmarked ++ parts
      [.engines, .xfer, .history, .fences, .snapshot, .hostReady, .modes, .nand, .fullRun, .twin, .wdg, .hwdg, .slots]
      ++ regs [Reg.ADC_CAL_AGE_AGE, Reg.ADC_STATUS_DUE_PASSED, Reg.CAL_DATE_DATE, Reg.CAL_DUE_DUE,
      Reg.CAL_REF_REF_TRUE, Reg.CAL_SEQ_COPY, Reg.CAL_SEQ_NOMINAL, Reg.CAL_SEQ_SEQ, Reg.CAL_SEQ_SIGNED,
      Reg.CBL_OFFER_C_AGE, Reg.CBL_PARTNER_DRP, Reg.CBL_PARTNER_EPR_CAP, Reg.CBL_PARTNER_FRS_REQ, Reg.CBL_PARTNER_REV,
      Reg.CBL_STATUS_ATTACH_CHG, Reg.CBL_STATUS_DEBUG_DENIED, Reg.CBL_STATUS_DFP, Reg.CBL_STATUS_FS_MODE,
      Reg.CBL_STATUS_RP, Reg.CBL_STATUS_SRC_PERMIT, Reg.CBL_STATUS_STATE, Reg.CBL_STATUS_VCONN,
      Reg.CHG_STATUS_PRESENT, Reg.CHG_STATUS_REMOVAL, Reg.CHG_TIMER_FAST, Reg.CHG_TIMER_PRE, Reg.FI_CTL_ARM,
      Reg.FLT_STATUS_DOUBLE, Reg.FRM_APT_EFF_EFF, Reg.FRM_FRN_FRN, Reg.FRM_LEN_LAST, Reg.FRM_STATUS_PLAN,
      Reg.FRM_STATUS_SRC, Reg.FRM_STATUS_STATE, Reg.FRM_WRAP_WRAP, Reg.ID_SNAP_AGE_AGE, Reg.KA_MIN_MIN,
      Reg.MODE_STATUS_BASE, Reg.MODE_STATUS_MODE, Reg.MODE_STATUS_MODE_CHG, Reg.MODE_STATUS_RAILS_HELD,
      Reg.MODE_STATUS_SHIP_N, Reg.MODE_STATUS_SVC_LEVEL, Reg.PH_EVENTS_FOLDBACK, Reg.RAIL_STATUS_KA_LOW,
      Reg.RAIL_STATUS_KA_ON, Reg.REV_SET_SET, Reg.RTC_SEC_TAI, Reg.RTC_SUB_SUB, Reg.WDG_STATUS_ARMED,
      Reg.WDG_STATUS_FRAME, Reg.WDG_STATUS_SERVED, Reg.WDG_STATUS_WINDOW] ++ arrays [Reg.CAL_CERT_ID_ID,
      Reg.FRM_BUD_OVERRUNS, Reg.FRM_BUD_USED_LAST, Reg.PH_TRIM_ENTRY, Reg.PH_TRIM_TRIM])
  | .tsbHalertStateLevel .. =>
      s.hw.leaves t.hw (Touch.issuing ++ Touch.entriesClosed ++ parts [.sidebands, .latches, .sub] ++ regs
      [Reg.BATFET_STATUS_STATE, Reg.CHG_STATUS_EN, Reg.TKT_EPOCH_EPOCH])
  | .tsbFalertStateLevel .. =>
      s.hw.leaves t.hw (parts [.sidebands, .resetNote, .alertPad, .hwdg] ++ regs [Reg.ALERT_SRC_SRC,
      Reg.HP_STATUS_DOZE])
  | .qreqRequest .. | .apertureRise .. | .driverHoldBreakEnd .. =>
      s.hw.leaves t.hw (Touch.freezeEnd ++ Touch.refusing ++ regs [Reg.FRM_APT_EFF_EFF, Reg.PH_EVENTS_QUIET_LATE])
  | .qreqRelease .. | .freezeRunEnd .. | .apertureFall .. =>
      s.hw.leaves t.hw (Touch.freezeEnd)
  | .fastRoleSwapCode .. =>
      s.hw.leaves t.hw (Touch.freezeEnd ++ Touch.sideFault ++ Touch.refusing ++ parts [.latches, .cable, .linkField,
      .modes] ++ regs [Reg.MODE_STATUS_MODE, Reg.MODE_STATUS_MODE_CHG, Reg.REV_SET_SET])
  | .sourceLossCode .. =>
      s.hw.leaves t.hw (parts [.sidebands, .chg])
  | .sourceAttachWakeCode .. | .cableDetachCode .. | .mailboxWakeCode .. =>
      s.hw.leaves t.hw (parts [.sidebands, .modes])
  | .hostAlertCode .. =>
      s.hw.leaves t.hw (parts [.sidebands, .linkHost, .mailbox])
  | .fieldAlertCode .. =>
      s.hw.leaves t.hw (parts [.sidebands, .hwdg] ++ regs [Reg.HP_STATUS_DOZE])
  | .fieldSleepCode .. =>
      s.hw.leaves t.hw (Touch.permissionGone ++ parts [.sidebands, .alertPad, .fieldAsleep, .hwdg] ++ regs
      [Reg.ALERT_SRC_SRC, Reg.CBL_STATUS_FRS_ARMED, Reg.CBL_STATUS_FS_MODE, Reg.CBL_STATUS_SRC_PERMIT,
      Reg.HP_STATUS_DOZE, Reg.ID_STATUS_FIELD_READY, Reg.ID_STATUS_LINK, Reg.TL_H_STATUS_STATE])
  | .sidebandFault .. =>
      s.hw.leaves t.hw (Touch.sideFault)
  | .tsbQuietChange .. =>
      s.hw.leaves t.hw (Touch.inputSwitch ++ Touch.phasesStop ++ parts [.intake, .xfer, .chg] ++ regs
      [Reg.XFER_STATS_DIR_CHANGES, Reg.XFER_STATUS_DIR, Reg.XFER_STATUS_QUIET])
  | .tsbQuietChannelFault .. =>
      s.hw.leaves t.hw (Touch.hostFault ++ parts [.xfer] ++ regs [Reg.XFER_STATUS_QUIET])
  | .guardPrivilegedWrite .. =>
      s.hw.leaves t.hw (Touch.durable ++ Touch.powering ++ Touch.fieldReset ++ Touch.hostReset ++ Touch.settling ++
      Touch.typeCOnly ++ parts [.recoveries] ++ regs [Reg.TWN_HB_LOST] ++ [.fieldSide] ++ [.hostSide])
  | .engineRestart .. =>
      s.hw.leaves t.hw (Touch.answering ++ Touch.charging ++ Touch.sessionEnd ++ Touch.slotSelect ++ Touch.delivering
      ++ parts [.engines, .rl, .linkHost, .hostBusy, .wdg, .hwdg, .slots] ++ regs [Reg.HUPD_SEL_PROB,
      Reg.RL_STATUS_EVQ, Reg.TKT_EPOCH_EPOCH, Reg.TKT_EVENTS_VOIDED, Reg.UPD_EVENTS_ROLLBACKS, Reg.UPD_PROB_FRAMES,
      Reg.UPD_SEL_PROB])
  | .domainPgFall .. =>
      s.hw.leaves t.hw (Touch.powering ++ Touch.charging ++ Touch.fieldLost ++ parts [.hostReady] ++ regs
      [Reg.RL_STATUS_SESSION] ++ [.fieldSide])
  | .domainPgReturn .. =>
      s.hw.leaves t.hw (Touch.powering ++ Touch.fieldReset ++ Touch.hostReset ++ parts [.intake, .xfer] ++ regs
      [Reg.ADC_STATUS_ROT_STOP, Reg.INTAKE_LIM_EFF_CAUSE, Reg.INTAKE_LIM_EFF_LIM, Reg.JRN_STAGE_STAGED] ++
      [.fieldSide] ++ [.hostSide])
  | .domainSwitchOff .. =>
      s.hw.leaves t.hw (Touch.powering ++ Touch.charging ++ Touch.phasesStop ++ parts [.engines, .rails, .rl,
      .hostReady, .modes, .journal] ++ regs [Reg.RL_STATUS_SESSION])
  | .domainOffTicketTimeout .. =>
      s.hw.leaves t.hw (Touch.powering ++ Touch.charging ++ Touch.settling ++ Touch.phasesStop ++ parts [.engines,
      .rails, .rl, .hostReady, .modes, .journal] ++ regs [Reg.RL_STATUS_SESSION])
  | .fifoParity .. =>
      s.hw.leaves t.hw (Touch.sideFault ++ Touch.settling ++ parts [.drain])
  | .latchWrite .. =>
      s.hw.leaves t.hw (Touch.inputSwitch ++ Touch.phasesStop ++ Touch.railsFollow ++ Touch.latchSet ++ parts
      [.intake, .xfer, .chg] ++ regs [Reg.RAIL_STATUS_HOLD_ACT, Reg.XFER_STATS_DIR_CHANGES, Reg.XFER_STATUS_DBS,
      Reg.XFER_STATUS_DIR])
  | .latchParity .. =>
      s.hw.leaves t.hw (Touch.sideFault ++ Touch.latchSet)
  | .sourceEvent .. =>
      s.hw.leaves t.hw (Touch.issuing ++ Touch.time ++ parts [.sidebands, .sub] ++ regs [Reg.FRM_STATUS_SRC,
      Reg.FRM_STATUS_STATE])
  | .syncSourceLost .. =>
      s.hw.leaves t.hw (parts [.seq, .faultInput] ++ regs [Reg.FLT_STATUS_LOST, Reg.FRM_STATUS_LOSS])
  | .holdoverExpiry .. | .sourcePriorityChange .. =>
      s.hw.leaves t.hw (Touch.issuing ++ parts [.seq, .sub] ++ regs [Reg.FRM_STATUS_SRC, Reg.FRM_STATUS_STATE])
  | .planPadChange .. | .apertureRearm .. =>
      s.hw.leaves t.hw (parts [.seq])
  | .preFreeze .. =>
      s.hw.leaves t.hw (Touch.refusing ++ Touch.time ++ parts [.sidebands, .rails, .journal] ++ regs
      [Reg.RAIL_STATUS_HOLD_ACT])
  | .preFreezeSlot0Decision .. | .freezeSlotBoundary .. =>
      s.hw.leaves t.hw (Touch.freezeEnd ++ Touch.refusing ++ regs [Reg.PH_EVENTS_QUIET_LATE])
  | .apertureLimitExpiry .. =>
      s.hw.leaves t.hw (Touch.freezeEnd ++ Touch.critFull)
  | .scheduledApertureStart .. =>
      s.hw.leaves t.hw (Touch.freezeEnd ++ Touch.refusing ++ parts [.rl] ++ regs [Reg.FRM_APT_EFF_EFF,
      Reg.PH_EVENTS_QUIET_LATE, Reg.RL_STATUS_EVQ])
  | .driverHoldCut .. =>
      s.hw.leaves t.hw (Touch.refusing ++ Touch.time ++ parts [.rails, .journal] ++ regs [Reg.FRM_FRZ_MAX_MAX,
      Reg.FRM_STATUS_FRZ])
  | .freezeEndVbatLow .. | .sourceLoadFreezeEnd .. =>
      s.hw.leaves t.hw (Touch.freezeEnd ++ Touch.refusing)
  | .refusalRunEnd .. =>
      s.hw.leaves t.hw (Touch.issuing ++ parts [.sub] ++ regs [Reg.FRM_STATUS_REFUSING])
  | .sourceQualify .. =>
      s.hw.leaves t.hw (Touch.inputSwitch ++ parts [.intake, .xfer, .hwdg] ++ regs [Reg.HP_STATUS_DOZE,
      Reg.INTAKE_STATUS_DCIN_QUAL, Reg.INTAKE_STATUS_VBUS_QUAL])
  | .intakeSourceLoss .. =>
      s.hw.leaves t.hw (Touch.inputSwitch ++ parts [.intake, .xfer] ++ regs [Reg.INTAKE_STATUS_DCIN_QUAL,
      Reg.INTAKE_STATUS_VBUS_QUAL])
  | .prioritySourceTakeover .. | .intakeThermal .. =>
      s.hw.leaves t.hw (Touch.inputSwitch ++ parts [.intake, .xfer])
  | .reverseBlock .. =>
      s.hw.leaves t.hw (Touch.inputSwitch ++ parts [.intake, .cable] ++ regs [Reg.INTAKE_EVENTS_REV_BLOCKS])
  | .reverseReconduct .. =>
      s.hw.leaves t.hw (parts [.intake])
  | .intakeLimitUpdate .. =>
      s.hw.leaves t.hw (Touch.sideFault ++ parts [.latches] ++ regs [Reg.INTAKE_LIM_EFF_CAUSE,
      Reg.INTAKE_LIM_EFF_LIM])
  | .intakeStartupLimitExpiry .. | .hostConfigTimeout .. =>
      s.hw.leaves t.hw (Touch.sideFault ++ parts [.latches, .intake] ++ regs [Reg.INTAKE_LIM_EFF_CAUSE,
      Reg.INTAKE_LIM_EFF_LIM])
  | .intakePdiss .. =>
      s.hw.leaves t.hw (Touch.hostFault)
  | .vSourceRefresh .. =>
      s.hw.leaves t.hw (Touch.powering ++ Touch.inputSwitch ++ parts [.intake, .xfer, .ph, .cable] ++ regs
      [Reg.BATFET_STATUS_STATE, Reg.INTAKE_EVENTS_PDISS_EVENTS, Reg.INTAKE_MON_CBUF_IIN, Reg.INTAKE_MON_CBUF_VCBUF,
      Reg.INTAKE_MON_PD_PDISS, Reg.INTAKE_MON_PD_TEMP, Reg.INTAKE_MON_V_DCIN, Reg.INTAKE_MON_V_VBUS,
      Reg.INTAKE_STATUS_HAUX, Reg.INTAKE_STATUS_LIMITING, Reg.INTAKE_STATUS_PDISS_LIMIT])
  | .cbufFloorReached .. =>
      s.hw.leaves t.hw (regs [Reg.XFER_STATUS_FLOOR])
  | .cbufMeasure .. =>
      s.hw.leaves t.hw (Touch.hostFault ++ parts [.intake] ++ regs [Reg.INTAKE_CBUF_C_CEFF, Reg.INTAKE_CBUF_C_VALID])
  | .cbufRampStart .. =>
      s.hw.leaves t.hw (parts [.intake] ++ regs [Reg.INTAKE_STATUS_RAMP])
  | .cbufRampEnd .. =>
      s.hw.leaves t.hw (regs [Reg.INTAKE_STATUS_RAMP])
  | .haonPowerUp .. =>
      s.hw.leaves t.hw (Touch.powering ++ Touch.permissionGone ++ parts [.engines, .sidebands, .latches, .resetNote,
      .intake, .xfer, .hostFaults, .snapshot, .drain, .alertPad, .hostReady, .hostBusy, .modes, .hwdg, .bist] ++ regs
      [Reg.HWDG_STATUS_ARMED, Reg.INTAKE_STATUS_HAUX] ++ [.hostSide])
  | .deadBatteryStart .. =>
      s.hw.leaves t.hw (Touch.powering ++ Touch.inputSwitch ++ parts [.intake, .xfer, .ph, .modes] ++ regs
      [Reg.BATFET_STATUS_STATE, Reg.INTAKE_STATUS_DCIN_QUAL, Reg.INTAKE_STATUS_VBUS_QUAL])
  | .xferQuietLate .. =>
      s.hw.leaves t.hw (Touch.issuing ++ parts [.xfer, .faultInput, .linkField, .modes] ++ regs
      [Reg.FLT_FENCE_U_UNITS, Reg.FLT_STATUS_LOST])
  | .xferDirectionChange .. =>
      s.hw.leaves t.hw (Touch.inputSwitch ++ Touch.phasesStop ++ parts [.intake, .xfer, .chg] ++ regs
      [Reg.XFER_STATS_DIR_CHANGES, Reg.XFER_STATUS_DIR])
  | .xferDirTimeout .. =>
      s.hw.leaves t.hw (Touch.inputSwitch ++ Touch.phasesStop ++ parts [.intake, .xfer] ++ regs [Reg.XFER_STATUS_DIR])
  | .cbufOv .. =>
      s.hw.leaves t.hw (Touch.inputSwitch ++ parts [.intake])
  | .xferOcp .. | .xferStartFail .. =>
      s.hw.leaves t.hw (Touch.inputSwitch ++ parts [.intake, .xfer] ++ regs [Reg.XFER_STATUS_DIR,
      Reg.XFER_STATUS_LATCHED])
  | .xferRetry .. =>
      s.hw.leaves t.hw (Touch.inputSwitch ++ parts [.xfer] ++ regs [Reg.XFER_STATUS_DIR])
  | .xferVtbOv .. =>
      s.hw.leaves t.hw (Touch.hostFault ++ parts [.xfer] ++ regs [Reg.XFER_STATUS_DIR])
  | .xferThermal .. =>
      s.hw.leaves t.hw (Touch.hostFault ++ parts [.xfer] ++ regs [Reg.XFER_STATUS_PLIM, Reg.XFER_STATUS_TEMP])
  | .xferClrLatch .. =>
      s.hw.leaves t.hw (parts [.xfer, .modes] ++ regs [Reg.XFER_STATUS_LATCHED])
  | _ => True

/-- The frames of the commands of the phases, the BATFET, charging and the rails: each completes, and leaves what it is
not said to change as it was. -/
def Obligations.PhasesToRailsFrames : Prop :=
  ∀ (c : Instr) (s : State), ∃ t, exec c s = .next t ∧ match c with
  | .phaseShedChange .. =>
      s.hw.leaves t.hw (Touch.phasesPick)
  | .phaseImbalance .. =>
      s.hw.leaves t.hw (parts [.faultInput] ++ regs [Reg.FLT_STATUS_LOST] ++ arrays [Reg.PH_TRIM_AT_LIMIT])
  | .phaseSoftStart .. =>
      s.hw.leaves t.hw (Touch.phasesPick ++ regs [Reg.PH_STATUS_SS])
  | .phaseSsShort .. =>
      s.hw.leaves t.hw (Touch.issuing ++ parts [.ph, .faultInput, .sub] ++ regs [Reg.FLT_STATUS_LOST,
      Reg.PH_STATUS_ACTIVE, Reg.PH_STATUS_BAND, Reg.PH_STATUS_CMODE, Reg.PH_STATUS_ENTRY, Reg.PH_STATUS_LATCHED,
      Reg.PH_STATUS_SS])
  | .phaseSsRetry .. =>
      s.hw.leaves t.hw (Touch.phasesPick ++ regs [Reg.PH_EVENTS_SS_RETRIES, Reg.PH_STATUS_SS])
  | .phaseOcp .. =>
      s.hw.leaves t.hw (Touch.issuing ++ Touch.phasesPick ++ parts [.faultInput, .sub] ++ regs [Reg.FLT_STATUS_LOST,
      Reg.PH_EVENTS_FOLDBACK, Reg.PH_STATUS_FOLDBACK, Reg.PH_STATUS_LATCHED, Reg.PH_STATUS_SS])
  | .phaseOv .. =>
      s.hw.leaves t.hw (parts [.ph, .faultInput] ++ regs [Reg.FLT_STATUS_LOST])
  | .phaseThermal .. =>
      s.hw.leaves t.hw (Touch.phasesPick ++ parts [.faultInput] ++ regs [Reg.FLT_STATUS_LOST])
  | .phaseGateUv .. =>
      s.hw.leaves t.hw (parts [.seq, .ph, .faultInput] ++ regs [Reg.FLT_STATUS_LOST])
  | .phaseVtbCollapse .. =>
      s.hw.leaves t.hw (parts [.faultInput] ++ regs [Reg.FLT_STATUS_LOST, Reg.PH_STATUS_GOV])
  | .phClrLatch .. =>
      s.hw.leaves t.hw (parts [.ph, .bat] ++ regs [Reg.BATFET_STATUS_STATE, Reg.PH_STATUS_LATCHED])
  | .batfetPdiss .. | .vsysUv .. | .kaLimit .. =>
      s.hw.leaves t.hw (parts [.faultInput] ++ regs [Reg.FLT_STATUS_LOST])
  | .batfetOcp .. =>
      s.hw.leaves t.hw (Touch.freezeEnd ++ Touch.refusing ++ regs [Reg.PH_EVENTS_BATFET_OPENS])
  | .batfetReclose .. =>
      s.hw.leaves t.hw (parts [.bat] ++ regs [Reg.BATFET_STATUS_STATE])
  | .batfetRetryCountClear .. =>
      s.hw.leaves t.hw (parts [.bat])
  | .batfetThermal .. =>
      s.hw.leaves t.hw (parts [.bat, .faultInput] ++ regs [Reg.BATFET_STATUS_TEMP, Reg.CHG_STATUS_REF_ZERO,
      Reg.FLT_STATUS_LOST])
  | .revBatFloor .. =>
      s.hw.leaves t.hw (parts [.ph, .faultInput] ++ regs [Reg.FLT_STATUS_LOST, Reg.PH_STATUS_ACTIVE,
      Reg.PH_STATUS_BAND, Reg.PH_STATUS_CMODE, Reg.PH_STATUS_ENTRY, Reg.PH_STATUS_SS])
  | .packIndicatorSettled .. =>
      s.hw.leaves t.hw (Touch.charging ++ regs [Reg.CHG_MON_VBAT, Reg.CHG_STATUS_PRESENT, Reg.RAIL_STATUS_KA_ON])
  | .probeVoltageReached .. =>
      s.hw.leaves t.hw (parts [.latches, .chg] ++ regs [Reg.BATFET_STATUS_STATE, Reg.CHG_STATUS_EN])
  | .sinkTestEnd .. =>
      s.hw.leaves t.hw (Touch.charging ++ regs [Reg.CHG_STATUS_PRESENT, Reg.RAIL_STATUS_KA_ON])
  | .probeShort .. | .absentRedetect .. | .chargeTermination .. | .safetyTimerExpiry .. | .batShort ..
  | .chgClrFault .. =>
      s.hw.leaves t.hw (Touch.charging)
  | .smartpackReadSequence .. =>
      s.hw.leaves t.hw (Touch.charging ++ regs [Reg.CHG_PROF_A_BAND, Reg.CHG_PROF_A_CELLS, Reg.CHG_PROF_A_CHEM,
      Reg.CHG_PROF_A_SRC, Reg.CHG_PROF_A_VCELL, Reg.CHG_PROF_I_ICHG, Reg.CHG_PROF_I_IPEAK, Reg.CHG_PROF_P_IPRE,
      Reg.CHG_PROF_P_PRE_TH, Reg.CHG_PROF_P_RECH, Reg.CHG_PROF_P_TERM, Reg.PACK_SBS_ICHG_REQ, Reg.PACK_SBS_STATUS,
      Reg.PACK_SBS_V_VCHG_REQ, Reg.PACK_SBS_V_VOLT])
  | .smartpackRetry .. =>
      s.hw.leaves t.hw (Touch.charging ++ regs [Reg.PACK_SBS_ICHG_REQ, Reg.PACK_SBS_STATUS, Reg.PACK_SBS_V_VCHG_REQ,
      Reg.PACK_SBS_V_VOLT])
  | .packNegotiate .. =>
      s.hw.leaves t.hw (Touch.charging ++ parts [.seq] ++ regs [Reg.CHG_MON_VBAT, Reg.CHG_PROF_A_BAND,
      Reg.CHG_PROF_A_CELLS, Reg.CHG_PROF_A_CHEM, Reg.CHG_PROF_A_SRC, Reg.CHG_PROF_A_VCELL, Reg.CHG_PROF_I_ICHG,
      Reg.CHG_PROF_I_IPEAK, Reg.CHG_PROF_P_IPRE, Reg.CHG_PROF_P_PRE_TH, Reg.CHG_PROF_P_RECH, Reg.CHG_PROF_P_TERM,
      Reg.CHG_TIMER_FAST, Reg.CHG_TIMER_PRE])
  | .chargeSustainedExpiry .. =>
      s.hw.leaves t.hw (Touch.charging ++ regs [Reg.CHG_TIMER_FAST, Reg.CHG_TIMER_PRE])
  | .sourceAbsenceTimer .. =>
      s.hw.leaves t.hw (parts [.chg] ++ regs [Reg.CHG_TIMER_FAST, Reg.CHG_TIMER_PRE])
  | .tempHwStop .. =>
      s.hw.leaves t.hw (parts [.chg, .faultInput] ++ regs [Reg.CHG_STATUS_REF_ZERO, Reg.FLT_STATUS_LOST])
  | .tempHwStopRelease .. =>
      s.hw.leaves t.hw (parts [.chg] ++ regs [Reg.CHG_STATUS_REF_ZERO])
  | .tsOpen .. | .tsShort .. =>
      s.hw.leaves t.hw (parts [.chg, .faultInput] ++ regs [Reg.CHG_TEMP_TS, Reg.FLT_STATUS_LOST])
  | .batRemoval .. =>
      s.hw.leaves t.hw (Touch.charging ++ Touch.freezeEnd ++ Touch.resigning ++ Touch.refusing ++ regs
      [Reg.CHG_STATUS_PRESENT, Reg.CHG_STATUS_REMOVAL, Reg.JRN_ALLOW_ALLOW, Reg.JRN_STATUS_CHOLD_OK,
      Reg.JRN_STATUS_HOLD_BAT, Reg.RAIL_STATUS_KA_ON])
  | .batRemoved .. =>
      s.hw.leaves t.hw (parts [.chg, .faultInput] ++ regs [Reg.FLT_STATUS_LOST])
  | .statLatchRead .. =>
      s.hw.leaves t.hw (regs [Reg.STAT_LATCH_EVENTS, Reg.STAT_LATCH_FN, Reg.STAT_LATCH_PADS])
  | .lampEdge .. =>
      s.hw.leaves t.hw (parts [.chg] ++ regs [Reg.STAT_LATCH_PADS])
  | .chgSuspend .. =>
      s.hw.leaves t.hw (regs [Reg.CHG_CTL_SUSPEND])
  | .chgIHost .. =>
      s.hw.leaves t.hw (regs [Reg.CHG_CTL_I_HOST])
  | .chgEnableRestore .. =>
      s.hw.leaves t.hw (Touch.sideFault ++ parts [.latches, .chg] ++ regs [Reg.BATFET_STATUS_STATE,
      Reg.CHG_STATUS_EN])
  | .vselChange .. =>
      s.hw.leaves t.hw (Touch.issuing ++ Touch.sideFault ++ Touch.railsFollow ++ parts [.latches, .chg, .rl, .adc,
      .waits, .bus, .sub] ++ regs [Reg.RL_STATUS_EVQ] ++ arrays [Reg.POL_SET_SET, Reg.QR_SET_SET])
  | .rlNop .. =>
      s.hw.leaves t.hw (Touch.busTransaction)
  | .rlHello .. =>
      s.hw.leaves t.hw (Touch.railCommand ++ Touch.busTransaction ++ regs [Reg.FRM_STATUS_OVR, Reg.RL_STATUS_REJECTS,
      Reg.RL_STATUS_SESSION])
  | .rlSetV .. | .rlRelease .. | .rlEnable .. =>
      s.hw.leaves t.hw (Touch.railCommand ++ Touch.busTransaction ++ regs [Reg.RL_STATUS_REJECTS])
  | .rlTableWrite .. =>
      s.hw.leaves t.hw (Touch.railCommand ++ Touch.busTransaction ++ regs [Reg.RL_STATUS_REJECTS] ++ arrays
      [Reg.POL_VTAB_ENTRY_HI, Reg.POL_VTAB_ENTRY_LO])
  | .rlPlan .. =>
      s.hw.leaves t.hw (Touch.busTransaction ++ parts [.seq] ++ regs [Reg.FRM_STATUS_OVR, Reg.RL_STATUS_REJECTS])
  | .rlAptA .. | .rlResend .. =>
      s.hw.leaves t.hw (Touch.busTransaction ++ regs [Reg.RL_STATUS_REJECTS])
  | .rlAptB .. =>
      s.hw.leaves t.hw (Touch.busTransaction ++ parts [.seq] ++ regs [Reg.RL_STATUS_REJECTS])
  | .rlRead .. =>
      s.hw.leaves t.hw (Touch.busTransaction ++ regs [Reg.RAIL_MON_A_PAIR, Reg.RAIL_MON_B_PAIR, Reg.RAIL_MON_C_PAIR,
      Reg.RL_STATUS_REJECTS])
  | .rlBadOpcode .. =>
      s.hw.leaves t.hw (Touch.busTransaction ++ parts [.freeCtr] ++ regs [Reg.RL_STATUS_REJECTS])
  | .rlCrcError .. =>
      s.hw.leaves t.hw (Touch.busTransaction ++ regs [Reg.RL_STATUS_CRC_ERRS])
  | .rlFrameAbandon .. =>
      s.hw.leaves t.hw (parts [.faultInput] ++ regs [Reg.FLT_STATUS_LOST, Reg.RL_STATUS_FRAME_ERRS])
  | .railArrived .. =>
      s.hw.leaves t.hw (Touch.issuing ++ parts [.rails, .rl, .adc, .waits, .bus, .sub] ++ regs
      [Reg.RAIL_STATUS_POL_REG, Reg.RL_STATUS_EVQ])
  | .polSoftStart .. | .polRetry .. | .polUvloRestart .. =>
      s.hw.leaves t.hw (Touch.railsFollow)
  | .polSsShort .. | .polOcp .. =>
      s.hw.leaves t.hw (Touch.issuing ++ Touch.railsFollow ++ parts [.rl, .faultInput, .adc, .waits, .bus, .sub] ++
      regs [Reg.FLT_STATUS_LOST, Reg.RAIL_STATUS_POL_LATCHED, Reg.RL_STATUS_EVQ])
  | .polOv .. | .polHoldLimit .. | .qrLimit .. =>
      s.hw.leaves t.hw (parts [.rails, .faultInput] ++ regs [Reg.FLT_STATUS_LOST])
  | .polUvlo .. | .qrThermal .. =>
      s.hw.leaves t.hw (Touch.railsFollow ++ parts [.faultInput] ++ regs [Reg.FLT_STATUS_LOST])
  | .polFrzFloor .. =>
      s.hw.leaves t.hw (parts [.rails, .faultInput] ++ regs [Reg.FLT_STATUS_LOST, Reg.RAIL_STATUS_HOLD_ACT])
  | .railClrLatch .. =>
      s.hw.leaves t.hw (Touch.railsFollow ++ regs [Reg.RAIL_STATUS_POL_LATCHED])
  | .kaEnable .. =>
      s.hw.leaves t.hw (regs [Reg.BATFET_STATUS_STATE, Reg.CHG_STATUS_PRESENT, Reg.RAIL_STATUS_KA_ON])
  | .kaGap .. =>
      s.hw.leaves t.hw (Touch.critFull ++ parts [.rails] ++ regs [Reg.KA_GAP_COUNT, Reg.KA_MIN_MIN,
      Reg.RAIL_STATUS_KA_LOW])
  | .kaNodeRecover .. =>
      s.hw.leaves t.hw (Touch.issuing ++ parts [.rails, .journal, .sub] ++ regs [Reg.KA_GAP_LAST_MS, Reg.KA_GAP_SHORT,
      Reg.KA_MIN_MIN, Reg.RAIL_STATUS_KA_LOW])
  | .kaStandbyHandover .. =>
      s.hw.leaves t.hw (parts [.rails])
  | .kaOffsetRemoval .. =>
      s.hw.leaves t.hw (parts [.rails] ++ regs [Reg.RAIL_STATUS_KA_STBY])
  | _ => True

/-- The frames of the commands of the cable port, measurement and the journal: each completes, and leaves what it is not
said to change as it was. -/
def Obligations.CableToJournalFrames : Prop :=
  ∀ (c : Instr) (s : State), ∃ t, exec c s = .next t ∧ match c with
  | .ccAttachSnk .. =>
      s.hw.leaves t.hw (Touch.typeCOnly ++ Touch.permissionGone ++ parts [.hwdg, .lb] ++ regs [Reg.CBL_CONTRACT_POS,
      Reg.CBL_STATUS_ATTACH_CHG, Reg.CBL_STATUS_ORIENT, Reg.CBL_STATUS_RP, Reg.CBL_STATUS_STATE,
      Reg.HLB_STATUS_REASON, Reg.HLB_STATUS_STATE, Reg.HP_STATUS_DOZE])
  | .ccAttachSrc .. =>
      s.hw.leaves t.hw (Touch.permissionGone ++ parts [.sidebands, .alertPad, .hwdg, .lb] ++ regs [Reg.ALERT_SRC_SRC,
      Reg.CBL_STATUS_ATTACH_CHG, Reg.CBL_STATUS_DFP, Reg.CBL_STATUS_ORIENT, Reg.CBL_STATUS_STATE,
      Reg.HLB_STATUS_REASON, Reg.HLB_STATUS_STATE, Reg.HP_STATUS_DOZE])
  | .ccDetach .. | .cablePulledInTransition .. =>
      s.hw.leaves t.hw (Touch.inputSwitch ++ Touch.typeCOnly ++ Touch.contractGone ++ Touch.unmarked ++ parts [.seq,
      .xfer] ++ regs [Reg.CBL_PARTNER_DRP, Reg.CBL_PARTNER_EPR_CAP, Reg.CBL_PARTNER_FRS_REQ, Reg.CBL_PARTNER_REV,
      Reg.CBL_STATUS_ATTACH_CHG, Reg.CBL_STATUS_DFP, Reg.CBL_STATUS_FS_MODE, Reg.CBL_STATUS_RP,
      Reg.CBL_STATUS_SRC_PERMIT, Reg.CBL_STATUS_STATE, Reg.CBL_STATUS_VCONN])
  | .accessoryAttach .. =>
      s.hw.leaves t.hw (Touch.roleEnd ++ regs [Reg.CBL_STATUS_ATTACH_CHG, Reg.CBL_STATUS_DEBUG_DENIED])
  | .drpToggle .. | .ppsRequestRepeat .. | .cblPrSwap .. | .cblFsEnter .. =>
      s.hw.leaves t.hw (parts [.cable])
  | .sourceCapabilities .. =>
      s.hw.leaves t.hw (Touch.hostFault ++ parts [.cable] ++ regs [Reg.CBL_PARTNER_DRP, Reg.CBL_PARTNER_EPR_CAP,
      Reg.CBL_PARTNER_FRS_REQ, Reg.CBL_PARTNER_REV, Reg.CBL_STATUS_EPR, Reg.CBL_STATUS_MISMATCH])
  | .pdAccept .. | .prSwapReceived .. | .hRstNSourceTimeout .. =>
      s.hw.leaves t.hw (Touch.inputSwitch ++ parts [.intake, .xfer, .cable])
  | .pdPsRdy .. =>
      s.hw.leaves t.hw (Touch.roleEnd ++ regs [Reg.CBL_STATUS_CONTRACT_CHG, Reg.CBL_STATUS_SRC_PERMIT])
  | .eprKeepalive .. | .softReset .. =>
      s.hw.leaves t.hw (Touch.hostFault ++ Touch.permissionGone ++ regs [Reg.CBL_EVENTS_SOFT_RESETS])
  | .sourceBringup .. =>
      s.hw.leaves t.hw (Touch.permissionGone)
  | .sourceSwitchClose .. =>
      s.hw.leaves t.hw (Touch.contractGone ++ Touch.permissionGone ++ regs [Reg.CBL_STATUS_STATE,
      Reg.CBL_STATUS_VCONN])
  | .sourceBringupTimeout .. | .sourceRoleEnd .. | .cblExitSrc .. | .frsTimeout .. | .pdNoResponse ..
  | .ccOvp .. =>
      s.hw.leaves t.hw (Touch.roleEnd)
  | .sinkRequest .. =>
      s.hw.leaves t.hw (parts [.seq, .cable] ++ regs [Reg.CBL_PARTNER_REV])
  | .sourceTransitionStart .. =>
      s.hw.leaves t.hw (parts [.linkHost, .mailbox])
  | .sourcePsRdy .. =>
      s.hw.leaves t.hw (Touch.permissionGone ++ parts [.seq, .alertPad] ++ regs [Reg.ALERT_SRC_SRC,
      Reg.CBL_CONTRACT_CURR, Reg.CBL_CONTRACT_POS, Reg.CBL_CONTRACT_ROLE, Reg.CBL_CONTRACT_TYPE,
      Reg.CBL_CONTRACT_VOLT, Reg.CBL_STATUS_CONTRACT_CHG, Reg.CBL_STATUS_EXPLICIT])
  | .srcOcp .. =>
      s.hw.leaves t.hw (Touch.roleEnd ++ regs [Reg.CBL_EVENTS_HARD_RESETS, Reg.CBL_EVENTS_SRC_OCP,
      Reg.CBL_STATUS_HARD_RESET])
  | .ppsSourceTimeout .. | .hardReset .. =>
      s.hw.leaves t.hw (Touch.roleEnd ++ regs [Reg.CBL_EVENTS_HARD_RESETS, Reg.CBL_STATUS_HARD_RESET])
  | .dcinEndsSource .. =>
      s.hw.leaves t.hw (Touch.roleEnd ++ regs [Reg.CBL_STATUS_SRC_PERMIT])
  | .vconnOcp .. =>
      s.hw.leaves t.hw (Touch.hostFault ++ Touch.unmarked ++ regs [Reg.CBL_STATUS_VCONN])
  | .vconnSwap .. =>
      s.hw.leaves t.hw (Touch.permissionGone ++ regs [Reg.CBL_STATUS_VCONN])
  | .cableDiscoverIdentity .. =>
      s.hw.leaves t.hw (Touch.unmarked ++ parts [.cable])
  | .drSwap .. =>
      s.hw.leaves t.hw (parts [.linkHost, .mailbox] ++ regs [Reg.CBL_STATUS_DFP])
  | .frsSignalDetect .. =>
      s.hw.leaves t.hw (Touch.inputSwitch ++ parts [.cable] ++ regs [Reg.CBL_STATUS_FRS_ARMED])
  | .frSwapReceived .. =>
      s.hw.leaves t.hw (Touch.contractGone ++ Touch.permissionGone ++ regs [Reg.CBL_STATUS_STATE])
  | .pdResponseTimeout .. =>
      s.hw.leaves t.hw (Touch.roleEnd ++ regs [Reg.CBL_EVENTS_HARD_RESETS, Reg.CBL_EVENTS_SOFT_RESETS,
      Reg.CBL_STATUS_HARD_RESET])
  | .frameShareEnter .. | .cblFsExit .. =>
      s.hw.leaves t.hw (Touch.permissionGone ++ regs [Reg.CBL_STATUS_FS_MODE])
  | .sequenceEntryDue .. =>
      s.hw.leaves t.hw (Touch.answering ++ Touch.time ++ Touch.delivering ++ Touch.entryOpens ++ regs
      [Reg.ADC_EVENTS_LATE, Reg.ADC_EVENTS_SKIPPED])
  | .injectedConversionDone .. =>
      s.hw.leaves t.hw (Touch.answering ++ Touch.time ++ Touch.delivering ++ Touch.entryOpens)
  | .sliceRotation .. =>
      s.hw.leaves t.hw (parts [.adc] ++ regs [Reg.ADC_STATUS_ACTIVE, Reg.ADC_STATUS_SPARE])
  | .spareCalibrationDone .. =>
      s.hw.leaves t.hw (Touch.sliceFence)
  | .adcSliceFault .. =>
      s.hw.leaves t.hw (Touch.answering ++ Touch.delivering ++ Touch.sliceFence ++ regs [Reg.TKT_EVENTS_FAILED,
      Reg.TKT_EVENTS_REPLAYS])
  | .foregroundCalStart .. =>
      s.hw.leaves t.hw (regs [Reg.ADC_STATUS_FGCAL])
  | .foregroundCalDone .. =>
      s.hw.leaves t.hw (Touch.issuing ++ parts [.adc, .sub] ++ regs [Reg.ADC_STATUS_FGCAL])
  | .refSettled .. =>
      s.hw.leaves t.hw (regs [Reg.ADC_STATUS_REF_SETTLED])
  | .refMon .. =>
      s.hw.leaves t.hw (parts [.faultInput, .adc] ++ regs [Reg.FLT_STATUS_LOST])
  | .refoutLimit .. =>
      s.hw.leaves t.hw (parts [.faultInput] ++ regs [Reg.FLT_STATUS_LOST])
  | .adcOvr .. =>
      s.hw.leaves t.hw (Touch.time ++ Touch.entryOpens)
  | .calDue .. =>
      s.hw.leaves t.hw (Touch.issuing ++ parts [.faultInput, .sub] ++ regs [Reg.ADC_STATUS_DUE_PASSED,
      Reg.FLT_STATUS_LOST])
  | .adcClrFence .. =>
      s.hw.leaves t.hw (Touch.entriesClosed ++ parts [.fences, .adc] ++ regs [Reg.ADC_STATUS_ACTIVE,
      Reg.ADC_STATUS_FENCED, Reg.ADC_STATUS_ROT_STOP, Reg.ADC_STATUS_SPARE, Reg.FLT_FENCE_U_UNITS])
  | .journalAppend .. =>
      s.hw.leaves t.hw (Touch.durable ++ Touch.appending ++ [.fieldSide])
  | .holdupAllowanceUpdate .. =>
      s.hw.leaves t.hw (Touch.durable ++ Touch.appending ++ regs [Reg.JRN_ALLOW_ALLOW, Reg.JRN_CHOLD_VCHOLD,
      Reg.JRN_STATUS_CHOLD_OK, Reg.JRN_STATUS_HOLD_BAT] ++ [.fieldSide])
  | .choldMeasure .. =>
      s.hw.leaves t.hw (parts [.faultInput] ++ regs [Reg.FLT_STATUS_LOST, Reg.JRN_CHOLD_CEFF])
  | .holdupEvent .. =>
      s.hw.leaves t.hw (Touch.powering ++ Touch.freezeEnd ++ Touch.resigning ++ Touch.refusing ++ Touch.committing ++
      parts [.engines, .history] ++ regs [Reg.JRN_NEXT_JSN, Reg.JRN_STATUS_HOLDUP, Reg.TWN_PEND_BYTES,
      Reg.TWN_PEND_LOST])
  | .resumeStart .. =>
      s.hw.leaves t.hw (Touch.durable ++ Touch.powering ++ Touch.fieldReset ++ Touch.settling ++ Touch.railCommand ++
      Touch.typeCOnly ++ Touch.updateState ++ Touch.appending ++ parts [.overrides, .recoveries] ++ regs
      [Reg.BIST_STATUS_HALTED, Reg.CFG_STATUS_COPY, Reg.CFG_STATUS_REREAD_FAIL, Reg.CFG_STATUS_SEQ,
      Reg.CFG_STATUS_SIGNED, Reg.FRM_STATUS_SRC, Reg.FRM_STATUS_STATE, Reg.HUPD_STATUS_PERMAFROST,
      Reg.JRN_STATUS_HOLDUP, Reg.MODE_EVENTS_STARTS, Reg.MODE_STATUS_MODE, Reg.MODE_STATUS_MODE_CHG, Reg.TWN_HB_LOST,
      Reg.VSYS_MIN_MIN, Reg.VSYS_SET_SET] ++ arrays [Reg.CFG_DIGEST_DIGEST] ++ [.fieldSide])
  | .pageClose .. =>
      s.hw.leaves t.hw (parts [.journal])
  | .pageCommit .. =>
      s.hw.leaves t.hw (Touch.critFull ++ Touch.committing)
  | .nandProgFail .. =>
      s.hw.leaves t.hw (Touch.critFull ++ Touch.committing ++ regs [Reg.JRN_EVENTS_PROG_FAIL,
      Reg.JRN_STATUS_MEDIA_EVT])
  | .nandEraseDone .. =>
      s.hw.leaves t.hw (Touch.nandShown ++ Touch.critFull ++ parts [.nand] ++ regs [Reg.JRN_EVENTS_ERASE_FAIL,
      Reg.JRN_STATUS_MEDIA_EVT])
  | .nandEccRead .. =>
      s.hw.leaves t.hw (Touch.nandShown ++ Touch.critFull ++ parts [.nand] ++ regs [Reg.JRN_EVENTS_SCRUB,
      Reg.JRN_EVENTS_UNCORR, Reg.JRN_STATUS_MEDIA_EVT])
  | .sealBuild .. =>
      s.hw.leaves t.hw (Touch.resigning ++ Touch.critFull ++ regs [Reg.JRN_STAGE_STAGED])
  | .keepaliveFlush .. =>
      s.hw.leaves t.hw (Touch.committing)
  | .nandScan .. =>
      s.hw.leaves t.hw (Touch.issuing ++ Touch.nandShown ++ Touch.critFull ++ parts [.sub] ++ regs
      [Reg.JRN_STATUS_READY])
  | .journalFull .. =>
      s.hw.leaves t.hw (Touch.critFull ++ regs [Reg.JRN_STATUS_FULL, Reg.JRN_STATUS_FULL_EVT])
  | .journalFullExit .. =>
      s.hw.leaves t.hw (regs [Reg.JRN_STATUS_FULL])
  | .jrSummary .. =>
      s.hw.leaves t.hw (Touch.issuing ++ parts [.seq, .journal, .sub])
  | .rtcOscFail .. =>
      s.hw.leaves t.hw (parts [.faultInput] ++ regs [Reg.FLT_STATUS_LOST, Reg.RTC_STATUS_DISCIPLINED,
      Reg.RTC_STATUS_OSC_FAIL, Reg.RTC_STATUS_VALID])
  | .rtcBkpLow .. =>
      s.hw.leaves t.hw (Touch.critFull ++ regs [Reg.RTC_STATUS_BKP_LOW])
  | .rtcRateCorrection .. =>
      s.hw.leaves t.hw (parts [.journal] ++ regs [Reg.RTC_ERR_RATE, Reg.RTC_STATUS_DISCIPLINED])
  | _ => True

/-- The frames of the commands of tickets, faults, the twin link, the two-wire port and the messages of the link: each
completes, and leaves what it is not said to change as it was. -/
def Obligations.TicketsToMessagesFrames : Prop :=
  ∀ (c : Instr) (s : State), ∃ t, exec c s = .next t ∧ match c with
  | .ticketIssue .. =>
      s.hw.leaves t.hw (Touch.issuing ++ parts [.adc, .waits, .bus])
  | .tableFull .. =>
      s.hw.leaves t.hw (parts [.faultInput, .fullRun] ++ regs [Reg.FLT_STATUS_LOST])
  | .ticketRetire .. =>
      s.hw.leaves t.hw (Touch.answering ++ Touch.delivering ++ parts [.chg])
  | .ticketDeadline .. =>
      s.hw.leaves t.hw (Touch.durable ++ Touch.settling ++ regs [Reg.TKT_EVENTS_TIMEOUTS, Reg.TWN_PEND_LOST] ++
      [.fieldSide])
  | .durableCommit .. =>
      s.hw.leaves t.hw (Touch.durable ++ regs [Reg.TWN_PEND_LOST] ++ [.fieldSide])
  | .ticketFailure .. =>
      s.hw.leaves t.hw (Touch.durable ++ Touch.settling ++ regs [Reg.TWN_PEND_LOST] ++ [.fieldSide])
  | .heldRetry .. =>
      s.hw.leaves t.hw (parts [.tickets] ++ regs [Reg.TKT_STATUS_FULL, Reg.TKT_STATUS_HELD,
      Reg.TKT_STATUS_HELD_STREAM, Reg.TKT_STATUS_HWM, Reg.TKT_STATUS_INFLIGHT])
  | .faultWordCollect .. =>
      s.hw.leaves t.hw (Touch.issuing ++ Touch.critFull ++ Touch.entriesClosed ++ parts [.sidebands, .trackers,
      .fences, .partFaults, .histRead, .latchFn, .linkField, .update, .sub] ++ regs [Reg.FLT_LAST_WORD,
      Reg.FLT_STATUS_DOUBLE, Reg.FLT_STATUS_MAXSEV, Reg.STAT_LATCH_EVENTS, Reg.STAT_LATCH_FN, Reg.STAT_LATCH_PADS])
  | .escTrackerExpiry .. =>
      s.hw.leaves t.hw (parts [.trackers])
  | .faultReaction .. =>
      s.hw.leaves t.hw (Touch.durable ++ Touch.settling ++ Touch.sessionEnd ++ Touch.typeCOnly ++ Touch.loopBackEnd ++
      Touch.slotSelect ++ parts [.recoveries, .partFaults, .slots] ++ regs [Reg.FLT_STATUS_DOUBLE, Reg.HUPD_SEL_PROB,
      Reg.TWN_HB_LOST, Reg.UPD_EVENTS_ROLLBACKS, Reg.UPD_PROB_FRAMES, Reg.UPD_SEL_PROB] ++ [.fieldSide])
  | .degradeClose .. =>
      s.hw.leaves t.hw (Touch.entriesClosed ++ parts [.partFaults] ++ regs [Reg.FLT_STATUS_DOUBLE])
  | .fenceLift .. =>
      s.hw.leaves t.hw (Touch.unfencing ++ parts [.recoveries])
  | .recoveryWindowClear .. =>
      s.hw.leaves t.hw (parts [.recoveries])
  | .fltClrPerm .. =>
      s.hw.leaves t.hw (Touch.unfencing)
  | .fltHistClr .. =>
      s.hw.leaves t.hw (Touch.entriesClosed)
  | .twinClaim .. | .twinClaimWaitExpiry .. =>
      s.hw.leaves t.hw (Touch.resigning ++ regs [Reg.JRN_NEXT_JSN, Reg.TWN_EPOCH_EPOCH, Reg.TWN_PEND_BYTES,
      Reg.TWN_STATUS_LINK])
  | .twinTrainTimeout .. =>
      s.hw.leaves t.hw (Touch.durable ++ [.fieldSide])
  | .twinLinkTrained .. =>
      s.hw.leaves t.hw (Touch.durable ++ Touch.appending ++ regs [Reg.TWN_STATUS_CFG_MATCH, Reg.TWN_STATUS_LINK] ++
      [.fieldSide])
  | .twmCfgDigest .. =>
      s.hw.leaves t.hw (Touch.resigning ++ Touch.twinTaking ++ parts [.adc, .waits, .bus] ++ regs
      [Reg.TWN_STATUS_CFG_MATCH, Reg.TWN_STATUS_RESYNC])
  | .twinHeartbeatSend .. =>
      s.hw.leaves t.hw (Touch.issuing ++ Touch.time ++ parts [.twin])
  | .twmHeartbeat .. =>
      s.hw.leaves t.hw (Touch.resigning ++ Touch.twinTaking ++ parts [.adc, .waits, .bus] ++ regs [Reg.TWN_PEND_BYTES,
      Reg.TWN_PWMARK_JSN, Reg.TWN_STATUS_RESYNC, Reg.TWN_WMARK_JSN])
  | .twinHbLost .. =>
      s.hw.leaves t.hw (Touch.durable ++ regs [Reg.TWN_HB_LOST, Reg.TWN_STATUS_LINK] ++ [.fieldSide])
  | .twinFailover .. =>
      s.hw.leaves t.hw (Touch.resigning ++ Touch.time ++ parts [.faultInput, .adc, .waits, .bus] ++ regs
      [Reg.FLT_STATUS_DOUBLE, Reg.FLT_STATUS_LOST, Reg.FRM_STATUS_LOSS, Reg.JRN_NEXT_JSN, Reg.TWN_EPOCH_EPOCH,
      Reg.TWN_HB_FAILOVERS, Reg.TWN_LAST_FRN, Reg.TWN_PEND_BYTES, Reg.TWN_STATUS_RESYNC])
  | .twinResign .. | .twnCtlResign .. =>
      s.hw.leaves t.hw (Touch.resigning)
  | .twnCtlEnrol .. =>
      s.hw.leaves t.hw (Touch.nandShown ++ Touch.resigning ++ parts [.nand, .journal] ++ regs [Reg.JRN_COMMIT_JSN,
      Reg.JRN_NEXT_JSN, Reg.JRN_RELEASED_EPOCH, Reg.JRN_SEALED_EPOCH, Reg.JRN_STAGE_STAGED, Reg.TWN_STATUS_RESYNC])
  | .twnCtlFork .. =>
      s.hw.leaves t.hw (Touch.resigning ++ regs [Reg.JRN_NEXT_JSN, Reg.TWN_EPOCH_EPOCH, Reg.TWN_LAST_FRN,
      Reg.TWN_PEND_BYTES, Reg.TWN_STATUS_SEQ_ID])
  | .twmMirror .. =>
      s.hw.leaves t.hw (Touch.durable ++ Touch.twinTaking ++ regs [Reg.TWN_WMARK_JSN] ++ [.fieldSide])
  | .twmMirrorAck .. =>
      s.hw.leaves t.hw (Touch.durable ++ Touch.appending ++ Touch.twinTaking ++ regs [Reg.TWN_WMARK_JSN] ++
      [.fieldSide])
  | .twmAppend .. =>
      s.hw.leaves t.hw (Touch.twinTaking ++ parts [.sub])
  | .twmResyncReq .. =>
      s.hw.leaves t.hw (Touch.twinTaking)
  | .twmResyncData .. =>
      s.hw.leaves t.hw (Touch.durable ++ Touch.twinTaking ++ parts [.freeCtr] ++ regs [Reg.TWN_WMARK_JSN] ++
      [.fieldSide])
  | .twmTime .. =>
      s.hw.leaves t.hw (Touch.critFull ++ Touch.twinTaking ++ parts [.sub] ++ regs [Reg.RTC_SEC_TAI,
      Reg.RTC_STATUS_SET_EVT, Reg.RTC_STATUS_VALID, Reg.RTC_SUB_SUB, Reg.RTC_UTC_OFFSET])
  | .twinTimeSend .. =>
      s.hw.leaves t.hw (Touch.issuing ++ parts [.twin])
  | .twmEpochStale .. =>
      s.hw.leaves t.hw (Touch.resigning ++ Touch.twinTaking ++ parts [.adc, .waits, .bus] ++ regs
      [Reg.TWN_STATUS_RESYNC])
  | .twinMessageRepeat .. =>
      s.hw.leaves t.hw (Touch.durable ++ Touch.appending ++ [.fieldSide])
  | .twinFenceRetrain .. =>
      s.hw.leaves t.hw (Touch.unfencing ++ parts [.recoveries] ++ regs [Reg.TWN_STATUS_LINK])
  | .twinResyncFail .. =>
      s.hw.leaves t.hw (Touch.issuing ++ parts [.faultInput, .adc, .waits, .twin, .bus, .sub] ++ regs
      [Reg.FLT_STATUS_LOST, Reg.TWN_STATUS_RESYNC])
  | .hpWriteTransfer .. =>
      s.hw.leaves t.hw (Touch.answering ++ Touch.roleEnd ++ Touch.loopBackStart ++ Touch.draining ++ Touch.portNack ++
      parts [.modes, .bist] ++ regs [Reg.CBL_STATUS_SRC_PERMIT, Reg.HOST_RESEND_ABSORBED, Reg.HOST_RESEND_GAPS,
      Reg.HOST_RESEND_STALE, Reg.HP_EVENTS2_PEC_ERRS, Reg.HP_EVENTS_PAGE_NACKS, Reg.HP_STATUS_ERR_EVT,
      Reg.MBX_CTL_RES_PAGE, Reg.MBX_EVENTS_LREJS, Reg.MBX_EVENTS_RESENDS, Reg.MBX_LAST_SEQ_SEQ, Reg.MBX_STATUS_LREJ,
      Reg.XFER_STATUS_LATCHED] ++ arrays [Reg.UPD_WIN_DATA] ++ [.hostSide])
  | .hpReadTransfer .. =>
      s.hw.leaves t.hw (Touch.portNack ++ parts [.linkHost, .mailbox] ++ regs [Reg.HP_RDCRC_CRC, Reg.STAT_LATCH_PADS]
      ++ [.hostSide])
  | .hpTransferAbort .. =>
      s.hw.leaves t.hw (Touch.answering ++ Touch.roleEnd ++ Touch.loopBackStart ++ Touch.draining ++ parts [.modes,
      .hp, .bist] ++ regs [Reg.CBL_STATUS_SRC_PERMIT, Reg.HOST_RESEND_ABSORBED, Reg.HOST_RESEND_GAPS,
      Reg.HOST_RESEND_STALE, Reg.HP_EVENTS2_PEC_ERRS, Reg.HP_EVENTS_BUS_ERRS, Reg.HP_EVENTS_PAGE_NACKS,
      Reg.HP_RDCRC_CRC, Reg.HP_STATUS_ERR_EVT, Reg.MBX_CTL_RES_PAGE, Reg.MBX_EVENTS_LREJS, Reg.MBX_EVENTS_RESENDS,
      Reg.MBX_LAST_SEQ_SEQ, Reg.MBX_STATUS_LREJ, Reg.STAT_LATCH_PADS, Reg.XFER_STATUS_LATCHED] ++ arrays
      [Reg.UPD_WIN_DATA] ++ [.hostSide])
  | .hpTimeout .. =>
      s.hw.leaves t.hw (Touch.hostFault ++ regs [Reg.HP_EVENTS_TIMEOUTS, Reg.HP_STATUS_TMO_EVT])
  | .hpDozeWake .. =>
      s.hw.leaves t.hw (Touch.portNack)
  | .hpAlertResponse .. =>
      s.hw.leaves t.hw (Touch.portNack ++ parts [.alertPad] ++ regs [Reg.HP_EVENTS2_ARA_LOST])
  | .sbTransaction .. =>
      s.hw.leaves t.hw (Touch.settling ++ Touch.busRun ++ regs [Reg.SB_EVENTS2_BIT_ERRS, Reg.SB_EVENTS2_DEFERRED,
      Reg.SB_EVENTS2_FRZ_OVERRUN, Reg.SB_EVENTS_NACKS])
  | .sbArbLost .. =>
      s.hw.leaves t.hw (Touch.settling ++ Touch.busRun ++ regs [Reg.SB_EVENTS2_BIT_ERRS, Reg.SB_EVENTS_ARB_LOST])
  | .sbArbFrame .. =>
      s.hw.leaves t.hw (Touch.settling ++ Touch.busRun ++ regs [Reg.SB_EVENTS2_BIT_ERRS, Reg.SB_EVENTS_ARB_FRAME])
  | .sbDeferredStart .. =>
      s.hw.leaves t.hw (Touch.busRun ++ regs [Reg.SB_EVENTS2_DEFERRED, Reg.SB_EVENTS2_FRZ_OVERRUN])
  | .sbStretchTmo .. =>
      s.hw.leaves t.hw (Touch.settling ++ Touch.busRun ++ regs [Reg.SB_EVENTS2_FRZ_OVERRUN,
      Reg.SB_EVENTS_STRETCH_TMO])
  | .sbBusStuck .. =>
      s.hw.leaves t.hw (parts [.bus] ++ regs [Reg.SB_STATUS_CLEARING])
  | .sbBusClear .. =>
      s.hw.leaves t.hw (parts [.faultInput, .bus] ++ regs [Reg.FLT_STATUS_LOST, Reg.SB_EVENTS2_CLEARS,
      Reg.SB_STATUS_CLEARING])
  | .tabienMessageReceive .. =>
      s.hw.leaves t.hw (Touch.issuing ++ Touch.sideFault ++ parts [.linkHost, .linkField] ++ regs
      [Reg.TBF_F_LAST_HEADER, Reg.TBF_F_REASON_REASON, Reg.TBF_H_LAST_HEADER, Reg.TBF_H_REASON_REASON,
      Reg.TL_F_EVENTS_CRC_ERRS, Reg.TL_F_EVENTS_DROPS, Reg.TL_H_EVENTS_CRC_ERRS, Reg.TL_H_EVENTS_DROPS])
  | .tmAck .. =>
      s.hw.leaves t.hw (Touch.issuing ++ Touch.delivering ++ parts [.hostFaults, .linkHost, .linkField, .mailbox,
      .work, .waits, .bus, .sub])
  | .tabienResendTimer .. =>
      s.hw.leaves t.hw (Touch.sideFault ++ parts [.linkHost, .linkField] ++ regs [Reg.ID_STATUS_FIELD_READY,
      Reg.ID_STATUS_LINK, Reg.TL_F_EVENTS_RESENDS, Reg.TL_F_EVENTS_RETRAINS, Reg.TL_F_STATUS_STATE,
      Reg.TL_H_EVENTS_RESENDS, Reg.TL_H_EVENTS_RETRAINS, Reg.TL_H_STATUS_STATE])
  | .tabienLinkTraining .. =>
      s.hw.leaves t.hw (Touch.unfencing ++ parts [.recoveries, .fieldAsleep] ++ regs [Reg.ID_STATUS_LINK,
      Reg.TL_F_STATUS_EPOCH, Reg.TL_F_STATUS_STATE, Reg.TL_H_STATUS_EPOCH, Reg.TL_H_STATUS_STATE])
  | .tmLinkUp .. =>
      s.hw.leaves t.hw (Touch.issuing ++ Touch.delivering ++ Touch.linkPeerLost ++ parts [.faultInput, .hostFaults,
      .work, .waits, .bus, .sub] ++ regs [Reg.FLT_STATUS_LOST, Reg.ID_STATUS_FIELD_READY, Reg.TKT_EVENTS_VOIDED])
  | .tmCmd .. =>
      s.hw.leaves t.hw (Touch.answering ++ parts [.faultInput, .modes] ++ regs [Reg.FLT_STATUS_LOST,
      Reg.HOST_RESEND_ABSORBED, Reg.HOST_RESEND_GAPS, Reg.HOST_RESEND_STALE])
  | .tmResult .. =>
      s.hw.leaves t.hw (Touch.linkPeerLost)
  | .tmSnap .. =>
      s.hw.leaves t.hw (parts [.linkHost, .linkField, .snapshot] ++ regs [Reg.ID_SNAP_AGE_AGE, Reg.ID_SNAP_FRN,
      Reg.ID_STATUS_MODE, Reg.ID_STATUS_SNAP_VALID])
  | .tmEvent .. =>
      s.hw.leaves t.hw (parts [.linkHost, .linkField, .alertPad, .eventLevel] ++ regs [Reg.ALERT_SRC_SRC])
  | .tmAdc .. =>
      s.hw.leaves t.hw (parts [.linkHost, .linkField])
  | .tmDrainData .. =>
      s.hw.leaves t.hw (parts [.linkHost, .linkField, .drain, .alertPad] ++ regs [Reg.ALERT_SRC_SRC, Reg.DRN_NEXT_JSN,
      Reg.DRN_STATUS_AVAIL, Reg.DRN_STATUS_END, Reg.DRN_STATUS_REQ_OPEN])
  | .tmCfg .. =>
      s.hw.leaves t.hw (Touch.sideFault ++ parts [.latches, .intake, .linkHost, .linkField] ++ regs
      [Reg.ID_BUNDLE_VERSION, Reg.INTAKE_LIM_EFF_CAUSE, Reg.INTAKE_LIM_EFF_LIM] ++ [.hostSide])
  | .tmBudget .. =>
      s.hw.leaves t.hw (parts [.cable, .linkHost, .linkField] ++ regs [Reg.CBL_OFFER_A_I5, Reg.CBL_OFFER_A_I9,
      Reg.CBL_OFFER_B_I15, Reg.CBL_OFFER_B_I20, Reg.CBL_OFFER_C_AGE, Reg.CBL_OFFER_C_CAUSE, Reg.CBL_OFFER_C_IPPS,
      Reg.CBL_OFFER_C_RES_STATE, Reg.CBL_RESERVE_QBAT, Reg.CBL_RESERVE_QRES, Reg.CBL_STATUS_FRS_ARMED,
      Reg.CBL_STATUS_SRC_PERMIT])
  | .tmXfer .. =>
      s.hw.leaves t.hw (Touch.inputSwitch ++ Touch.phasesStop ++ parts [.intake, .xfer, .chg, .cable, .linkField] ++
      regs [Reg.XFER_STATS_DIR_CHANGES, Reg.XFER_STATUS_DIR])
  | .tmHfault .. =>
      s.hw.leaves t.hw (parts [.faultInput, .linkHost, .linkField] ++ regs [Reg.FLT_STATUS_LOST])
  | .tmCable .. =>
      s.hw.leaves t.hw (Touch.issuing ++ Touch.sideFault ++ parts [.latches, .cable, .linkHost, .linkField, .modes,
      .sub] ++ regs [Reg.BATFET_STATUS_STATE, Reg.MODE_STATUS_MODE, Reg.MODE_STATUS_MODE_CHG, Reg.REV_SET_SET])
  | .tmHstatus .. =>
      s.hw.leaves t.hw (Touch.sideFault ++ parts [.latches, .chg, .linkHost, .linkField, .journal] ++ regs
      [Reg.CHG_I_SET, Reg.CHG_STATUS_LIMITED, Reg.CHG_V_SET])
  | .tmRdclr .. =>
      s.hw.leaves t.hw (parts [.linkHost, .linkField] ++ regs [Reg.STAT_LATCH_PADS] ++ [.fieldSide] ++ [.hostSide])
  | .tmJrec .. =>
      s.hw.leaves t.hw (Touch.issuing ++ parts [.linkHost, .linkField, .sub] ++ regs [Reg.TKT_EPOCH_EPOCH])
  | .tmCfgReq .. =>
      s.hw.leaves t.hw (Touch.issuing ++ parts [.linkHost, .linkField])
  | .tmDrainReq .. =>
      s.hw.leaves t.hw (Touch.issuing ++ parts [.linkHost, .linkField, .drain])
  | .tmUpdData .. =>
      s.hw.leaves t.hw (parts [.linkHost, .linkField, .update])
  | .snapStale .. =>
      s.hw.leaves t.hw (Touch.hostFault ++ parts [.snapshot] ++ regs [Reg.ID_STATUS_SNAP_VALID])
  | .mbxSubmit .. =>
      s.hw.leaves t.hw (Touch.answering ++ Touch.hostFault ++ parts [.linkHost] ++ regs [Reg.HOST_RESEND_ABSORBED,
      Reg.HOST_RESEND_GAPS, Reg.HOST_RESEND_STALE, Reg.MBX_EVENTS_LREJS, Reg.MBX_EVENTS_RESENDS, Reg.MBX_LAST_SEQ_SEQ,
      Reg.MBX_STATUS_LREJ])
  | .mbxPop .. =>
      s.hw.leaves t.hw (parts [.mailbox] ++ regs [Reg.MBX_CTL_RES_PAGE, Reg.MBX_RES_INFO_LEN, Reg.MBX_RES_INFO_STREAM,
      Reg.MBX_STATUS_FULL, Reg.MBX_STATUS_PLACES, Reg.MBX_STATUS_RESULTS] ++ arrays [Reg.MBX_RES_RESULT])
  | _ => True

/-- The frames of the commands of the mailbox, host commands, the drain port, modes, resets, watchdogs, self-tests, update
and loop-backs: each completes, and leaves what it is not said to change as it was. -/
def Obligations.CommandsToUpdateFrames : Prop :=
  ∀ (c : Instr) (s : State), ∃ t, exec c s = .next t ∧ match c with
  | .ping .. | .adcInject .. | .calStage .. | .kaStatement .. | .sbXfer .. | .streamReset .. | .fieldReset ..
  | .updQuery .. =>
      s.hw.leaves t.hw (Touch.answering)
  | .regRead .. =>
      s.hw.leaves t.hw (Touch.answering ++ parts [.histRead] ++ regs [Reg.FLT_STATUS_DOUBLE, Reg.STAT_LATCH_PADS] ++
      [.fieldSide])
  | .regWrite .. =>
      s.hw.leaves t.hw (Touch.nandShown ++ Touch.unfencing ++ Touch.resigning ++ Touch.loopBackStart ++
      Touch.railsFollow ++ Touch.entriesClosed ++ parts [.bat, .nand, .journal, .bist] ++ regs [Reg.ADC_STATUS_FGCAL,
      Reg.FI_CTL_ARM, Reg.JRN_COMMIT_JSN, Reg.JRN_NEXT_JSN, Reg.JRN_RELEASED_EPOCH, Reg.JRN_SEALED_EPOCH,
      Reg.JRN_STAGE_STAGED, Reg.PH_STATUS_LATCHED, Reg.RAIL_STATUS_POL_LATCHED, Reg.SB_STATUS_MULTI,
      Reg.TWN_EPOCH_EPOCH, Reg.TWN_LAST_FRN, Reg.TWN_PEND_BYTES, Reg.TWN_STATUS_RESYNC, Reg.TWN_STATUS_SEQ_ID] ++
      [.fieldSide])
  | .refchkRun .. =>
      s.hw.leaves t.hw (Touch.answering ++ regs [Reg.REFCHK_LAST_MEAN])
  | .calCommit .. =>
      s.hw.leaves t.hw (Touch.answering ++ parts [.calCopies])
  | .timeSet .. =>
      s.hw.leaves t.hw (Touch.answering ++ parts [.journal, .twin] ++ regs [Reg.RTC_SEC_TAI, Reg.RTC_STATUS_SET_EVT,
      Reg.RTC_STATUS_VALID, Reg.RTC_SUB_SUB, Reg.RTC_UTC_OFFSET])
  | .release .. =>
      s.hw.leaves t.hw (Touch.answering ++ Touch.nandShown ++ regs [Reg.JRN_RELEASED_EPOCH])
  | .registerWrite .. =>
      s.hw.leaves t.hw (Touch.answering ++ Touch.roleEnd ++ Touch.loopBackStart ++ Touch.draining ++ parts [.modes,
      .bist] ++ regs [Reg.CBL_STATUS_SRC_PERMIT, Reg.HOST_RESEND_ABSORBED, Reg.HOST_RESEND_GAPS,
      Reg.HOST_RESEND_STALE, Reg.MBX_CTL_RES_PAGE, Reg.MBX_EVENTS_LREJS, Reg.MBX_EVENTS_RESENDS, Reg.MBX_LAST_SEQ_SEQ,
      Reg.MBX_STATUS_LREJ, Reg.XFER_STATUS_LATCHED] ++ arrays [Reg.UPD_WIN_DATA] ++ [.hostSide])
  | .drnStatus .. | .drnIdent .. =>
      s.hw.leaves t.hw (parts [.drain])
  | .drnRead .. =>
      s.hw.leaves t.hw (Touch.hostFault ++ parts [.drain] ++ regs [Reg.DRN_EVENTS_UNDERRUNS, Reg.DRN_STATUS_AVAIL,
      Reg.DRN_STATUS_END, Reg.DRN_STATUS_UNDERRUN])
  | .drnReadQ .. =>
      s.hw.leaves t.hw (Touch.hostFault ++ parts [.drain] ++ regs [Reg.DRN_EVENTS_FORMAT_ERRS,
      Reg.DRN_EVENTS_UNDERRUNS, Reg.DRN_STATUS_AVAIL, Reg.DRN_STATUS_END, Reg.DRN_STATUS_UNDERRUN])
  | .drnRequest .. | .drnGo .. =>
      s.hw.leaves t.hw (Touch.draining)
  | .readJsn .. | .readCert .. | .drainAbort .. =>
      s.hw.leaves t.hw (Touch.issuing ++ parts [.linkField, .drain])
  | .drnWrite .. | .drnWriteQ .. =>
      s.hw.leaves t.hw (Touch.hostFault ++ regs [Reg.DRN_EVENTS_FORMAT_ERRS] ++ arrays [Reg.UPD_WIN_DATA])
  | .pwrReqChange .. =>
      s.hw.leaves t.hw (parts [.modes, .stopped] ++ regs [Reg.MODE_STATUS_PWR_REQ])
  | .hostPwr .. =>
      s.hw.leaves t.hw (Touch.answering ++ parts [.modes, .stopped] ++ regs [Reg.MODE_STATUS_PWR_REQ])
  | .hcoreDoze .. =>
      s.hw.leaves t.hw (parts [.hwdg] ++ regs [Reg.HP_STATUS_DOZE])
  | .hcoreWake .. =>
      s.hw.leaves t.hw (Touch.sideFault ++ parts [.hp, .hwdg, .bist] ++ regs [Reg.HP_STATUS_DOZE])
  | .keepaliveEntry .. =>
      s.hw.leaves t.hw (Touch.durable ++ Touch.freezeEnd ++ Touch.busTransaction ++ Touch.appending ++ parts
      [.partFaults] ++ regs [Reg.RL_STATUS_SESSION] ++ [.fieldSide])
  | .keepaliveDomainSwitch .. =>
      s.hw.leaves t.hw (Touch.durable ++ Touch.powering ++ Touch.freezeEnd ++ Touch.railCommand ++ Touch.latchSet ++
      Touch.disarming ++ regs [Reg.ADC_EVENTS_DISCARDED, Reg.DRN_NEXT_JSN, Reg.FRM_STATUS_SRC, Reg.FRM_STATUS_STATE,
      Reg.MODE_STATUS_MODE, Reg.MODE_STATUS_MODE_CHG] ++ [.fieldSide])
  | .keepaliveTicketTimeout .. =>
      s.hw.leaves t.hw (Touch.issuing ++ parts [.faultInput, .modes, .adc, .waits, .stopped, .bus] ++ regs
      [Reg.FLT_STATUS_LOST, Reg.MODE_EVENTS_K_REFUSED, Reg.MODE_EVENTS_SHIP_REFUSED])
  | .keepaliveWake .. =>
      s.hw.leaves t.hw (Touch.powering ++ Touch.railCommand ++ parts [.engines, .ph, .modes, .journal, .bist] ++ regs
      [Reg.ADC_STATUS_ROT_STOP, Reg.BATFET_STATUS_STATE, Reg.MODE_EVENTS_STARTS, Reg.MODE_STATUS_MODE,
      Reg.MODE_STATUS_MODE_CHG, Reg.START_INFO_KIND, Reg.START_INFO_LAST_MS, Reg.STAT_LATCH_PADS,
      Reg.TKT_EPOCH_EPOCH])
  | .keepaliveSecondWake .. =>
      s.hw.leaves t.hw (Touch.durable ++ Touch.appending ++ parts [.freeCtr] ++ regs [Reg.CHG_MON_VBAT] ++
      [.fieldSide])
  | .shipNHold .. =>
      s.hw.leaves t.hw (parts [.faultInput, .modes] ++ regs [Reg.FLT_STATUS_LOST, Reg.MODE_EVENTS_SHIP_REFUSED,
      Reg.MODE_STATUS_SHIP_N])
  | .shipEnter .. =>
      s.hw.leaves t.hw (Touch.answering ++ parts [.faultInput, .modes] ++ regs [Reg.FLT_STATUS_LOST,
      Reg.MODE_EVENTS_SHIP_REFUSED])
  | .shipEntry .. =>
      s.hw.leaves t.hw (Touch.durable ++ Touch.powering ++ Touch.freezeEnd ++ Touch.loopBackEnd ++ Touch.disarming ++
      Touch.appending ++ parts [.partFaults] ++ regs [Reg.MODE_EVENTS_SHIP_REFUSED, Reg.MODE_STATUS_MODE,
      Reg.MODE_STATUS_SVC_LEVEL, Reg.RAIL_STATUS_KA_ON] ++ [.fieldSide])
  | .shipWake .. =>
      s.hw.leaves t.hw (Touch.powering ++ Touch.inputSwitch ++ Touch.fieldLost ++ parts [.intake] ++ regs
      [Reg.INTAKE_STATUS_DCIN_QUAL, Reg.INTAKE_STATUS_VBUS_QUAL] ++ [.fieldSide])
  | .coldStart .. =>
      s.hw.leaves t.hw (Touch.durable ++ Touch.powering ++ Touch.freezeEnd ++ Touch.settling ++ Touch.railCommand ++
      Touch.sessionEnd ++ Touch.typeCOnly ++ Touch.slotSelect ++ Touch.updateState ++ Touch.appending ++ parts
      [.overrides, .slots] ++ regs [Reg.ADC_STATUS_DUE_PASSED, Reg.BIST_FAILMAP_MAP, Reg.BIST_REPMAP_MAP,
      Reg.BIST_STATUS_FAILED, Reg.BIST_STATUS_GROUPS, Reg.BIST_STATUS_REPAIRED, Reg.CAL_DATE_DATE, Reg.CAL_DUE_DUE,
      Reg.CAL_REF_REF_TRUE, Reg.CAL_SEQ_COPY, Reg.CAL_SEQ_NOMINAL, Reg.CAL_SEQ_SEQ, Reg.CAL_SEQ_SIGNED,
      Reg.CFG_STATUS_A_OK, Reg.CFG_STATUS_B_OK, Reg.CFG_STATUS_COPY, Reg.CFG_STATUS_DEFAULT, Reg.CFG_STATUS_SEQ,
      Reg.CFG_STATUS_SIGNED, Reg.CHG_STATUS_PRESENT, Reg.FRM_STATUS_SRC, Reg.FRM_STATUS_STATE,
      Reg.HBIST_STATUS_FAILMAP, Reg.HBIST_STATUS_REPMAP, Reg.HUPD_SEL_PROB, Reg.HUPD_STATUS_PERMAFROST,
      Reg.KA_SET_CODE, Reg.KA_SET_EN, Reg.KA_SET_TWIN, Reg.MODE_STATUS_MODE, Reg.RAIL_STATUS_KA_ON,
      Reg.RL_STATUS_SESSION, Reg.START_INFO_KIND, Reg.START_INFO_LAST_MS, Reg.TWN_HB_LOST, Reg.UPD_EVENTS_ROLLBACKS,
      Reg.UPD_SEL_PROB, Reg.VSYS_MIN_MIN, Reg.VSYS_SET_SET] ++ arrays [Reg.CAL_CERT_ID_ID, Reg.CFG_DIGEST_DIGEST] ++
      [.fieldSide])
  | .warmStart .. =>
      s.hw.leaves t.hw (Touch.durable ++ Touch.powering ++ Touch.freezeEnd ++ Touch.settling ++ Touch.railCommand ++
      Touch.sessionEnd ++ Touch.typeCOnly ++ Touch.loopBackEnd ++ Touch.slotSelect ++ Touch.updateState ++
      Touch.appending ++ parts [.overrides, .recoveries, .slots] ++ regs [Reg.BIST_STATUS_HALTED, Reg.CFG_STATUS_COPY,
      Reg.CFG_STATUS_REREAD_FAIL, Reg.CFG_STATUS_SEQ, Reg.CFG_STATUS_SIGNED, Reg.FRM_STATUS_SRC, Reg.FRM_STATUS_STATE,
      Reg.HUPD_SEL_PROB, Reg.HUPD_STATUS_PERMAFROST, Reg.MODE_EVENTS_STARTS, Reg.MODE_STATUS_MODE,
      Reg.MODE_STATUS_MODE_CHG, Reg.START_INFO_KIND, Reg.START_INFO_LAST_MS, Reg.TWN_HB_LOST,
      Reg.UPD_EVENTS_ROLLBACKS, Reg.UPD_SEL_PROB, Reg.VSYS_MIN_MIN, Reg.VSYS_SET_SET] ++ arrays
      [Reg.CFG_DIGEST_DIGEST] ++ [.fieldSide])
  | .fieldWReset .. =>
      s.hw.leaves t.hw (Touch.fieldReset ++ [.fieldSide])
  | .hostWReset .. =>
      s.hw.leaves t.hw (Touch.hostReset ++ [.hostSide])
  | .fieldPinReset .. =>
      s.hw.leaves t.hw (Touch.fieldReset ++ regs [Reg.BIST_STATUS_HALTED] ++ [.fieldSide])
  | .hostPinReset .. =>
      s.hw.leaves t.hw (Touch.hostReset ++ parts [.pinLow] ++ [.hostSide])
  | .faonPowerLoss .. =>
      s.hw.leaves t.hw (Touch.fieldLost ++ [.fieldSide])
  | .svcChallenge .. | .svcExit .. | .cfgStage .. =>
      s.hw.leaves t.hw (Touch.answering ++ parts [.modes])
  | .svcEnter .. =>
      s.hw.leaves t.hw (Touch.answering ++ parts [.faultInput, .modes] ++ regs [Reg.FLT_STATUS_LOST,
      Reg.MODE_EVENTS_SVC_FAILS, Reg.SVC_STATUS_FAILS, Reg.SVC_STATUS_LOCKED_OUT])
  | .keyEnrol .. =>
      s.hw.leaves t.hw (Touch.answering ++ parts [.cfgCopies] ++ regs [Reg.SVC_STATUS_KEY_ENROLLED,
      Reg.SVC_STATUS_REQ_SIGNED])
  | .cfgCommit .. =>
      s.hw.leaves t.hw (Touch.answering ++ parts [.cfgCopies])
  | .serviceTimeout .. | .bistEngTest .. =>
      s.hw.leaves t.hw (parts [.modes])
  | .serviceLockoutEnd .. =>
      s.hw.leaves t.hw (parts [.modes] ++ regs [Reg.SVC_STATUS_FAILS, Reg.SVC_STATUS_LOCKED_OUT])
  | .wdgServiceWrite .. =>
      s.hw.leaves t.hw (Touch.fieldReset ++ Touch.hostReset ++ parts [.freeCtr] ++ regs [Reg.HWDG_EVENTS_BAD_KEY,
      Reg.HWDG_STATUS_EXPIRED_EVT, Reg.HWDG_STATUS_LAST_CAUSE, Reg.WDG_EVENTS_BAD_KEY, Reg.WDG_STATUS_EXPIRED_EVT,
      Reg.WDG_STATUS_LAST_CAUSE, Reg.WDG_STATUS_LAST_SLOT] ++ [.fieldSide] ++ [.hostSide])
  | .wdgForeignWrite .. =>
      s.hw.leaves t.hw (Touch.sideFault ++ parts [.freeCtr] ++ regs [Reg.HWDG_EVENTS_FOREIGN, Reg.WDG_EVENTS_FOREIGN])
  | .wdgWindowOpen .. =>
      s.hw.leaves t.hw (Touch.sideFault ++ Touch.time ++ parts [.wdg, .hwdg] ++ regs [Reg.HWDG_EVENTS_MISSING,
      Reg.HWDG_STATUS_SEEN, Reg.WDG_CHECKIN_EXCUSED, Reg.WDG_CHECKIN_SEEN, Reg.WDG_EVENTS_MISSING,
      Reg.WDG_STATUS_FRAME, Reg.WDG_STATUS_SERVED, Reg.WDG_STATUS_WINDOW])
  | .wdgWindowClose .. =>
      s.hw.leaves t.hw (Touch.fieldReset ++ Touch.hostReset ++ parts [.freeCtr] ++ regs [Reg.HWDG_STATUS_EXPIRED_EVT,
      Reg.HWDG_STATUS_LAST_CAUSE, Reg.WDG_STATUS_EXPIRED_EVT, Reg.WDG_STATUS_LAST_CAUSE] ++ [.fieldSide] ++
      [.hostSide])
  | .wdgStartTimeout .. | .testPadHigh .. =>
      s.hw.leaves t.hw (Touch.fieldReset ++ Touch.hostReset ++ [.fieldSide] ++ [.hostSide])
  | .checkinWrite .. =>
      s.hw.leaves t.hw (Touch.durable ++ Touch.railCommand ++ Touch.appending ++ parts [.seq, .intake, .partFaults,
      .hostReady, .freeCtr] ++ regs [Reg.CBL_EVENTS_SOFT_RESETS, Reg.FLT_STATUS_DOUBLE, Reg.HUPD_STATUS_PERMAFROST,
      Reg.HWDG_EVENTS_DOUBLES, Reg.HWDG_STATUS_ARMED, Reg.ID_STATUS_HOST_READY, Reg.INTAKE_LIM_EFF_CAUSE,
      Reg.INTAKE_LIM_EFF_LIM, Reg.MODE_STATUS_MODE, Reg.MODE_STATUS_MODE_CHG, Reg.REV_SET_SET, Reg.TL_H_STATUS_STATE,
      Reg.WDG_EVENTS_DOUBLES] ++ [.fieldSide])
  | .memorySelftestMacro .. =>
      s.hw.leaves t.hw (Touch.durable ++ Touch.settling ++ Touch.sessionEnd ++ Touch.typeCOnly ++ Touch.slotSelect ++
      Touch.busTransaction ++ Touch.disarming ++ parts [.hostReady, .slots] ++ regs [Reg.BIST_FAILMAP_MAP,
      Reg.BIST_REPMAP_MAP, Reg.BIST_STATUS_FAILED, Reg.BIST_STATUS_GROUPS, Reg.BIST_STATUS_HALTED,
      Reg.BIST_STATUS_REPAIRED, Reg.HBIST_STATUS_FAILMAP, Reg.HBIST_STATUS_REPMAP, Reg.HUPD_SEL_PROB,
      Reg.ID_STATUS_FIELD_READY, Reg.ID_STATUS_HOST_READY, Reg.ID_STATUS_LINK, Reg.RL_STATUS_SESSION,
      Reg.RTC_STATUS_DISCIPLINED, Reg.RTC_STATUS_OSC_FAIL, Reg.TL_F_STATUS_STATE, Reg.TL_H_STATUS_STATE,
      Reg.TWN_HB_LOST, Reg.TWN_STATUS_LINK, Reg.UPD_EVENTS_ROLLBACKS, Reg.UPD_PROB_FRAMES, Reg.UPD_SEL_PROB] ++
      [.fieldSide])
  | .bistBurn .. =>
      s.hw.leaves t.hw (Touch.sideFault ++ parts [.bist] ++ regs [Reg.BIST_STATUS_FUSES_USED,
      Reg.HBIST_STATUS_FUSES_USED])
  | .updBegin .. | .updAbort .. =>
      s.hw.leaves t.hw (Touch.answering ++ Touch.sessionEnd ++ parts [.slots])
  | .updChunk .. =>
      s.hw.leaves t.hw (Touch.answering ++ Touch.sessionEnd ++ Touch.updateState)
  | .updBlockWrite .. =>
      s.hw.leaves t.hw (Touch.sessionEnd ++ Touch.updateState ++ parts [.slots])
  | .updFinish .. =>
      s.hw.leaves t.hw (Touch.answering ++ Touch.sessionEnd ++ Touch.updateState ++ parts [.linkHost, .slots])
  | .updActivate .. | .updRevert .. =>
      s.hw.leaves t.hw (Touch.answering ++ Touch.sessionEnd ++ Touch.slotSelect ++ Touch.updateState ++ parts
      [.slots])
  | .handoverStart .. =>
      s.hw.leaves t.hw (Touch.sessionEnd ++ parts [.engines, .hostBusy, .wdg, .hwdg])
  | .handoverReady .. =>
      s.hw.leaves t.hw (Touch.answering ++ Touch.railCommand ++ Touch.sessionEnd ++ Touch.slotSelect ++
      Touch.delivering ++ parts [.engines, .linkHost, .hostBusy, .slots] ++ regs [Reg.HUPD_SEL_PROB,
      Reg.UPD_EVENTS_HANDOVERS, Reg.UPD_PROB_FRAMES, Reg.UPD_SEL_PROB])
  | .handoverFallback .. =>
      s.hw.leaves t.hw (Touch.answering ++ Touch.railCommand ++ Touch.sessionEnd ++ Touch.delivering ++ parts
      [.engines, .linkHost, .hostBusy] ++ regs [Reg.UPD_EVENTS_FALLBACKS])
  | .probationPass .. =>
      s.hw.leaves t.hw (Touch.issuing ++ Touch.sessionEnd ++ parts [.linkHost, .mailbox, .slots, .sub] ++ regs
      [Reg.HUPD_SEL_PROB, Reg.ID_BUNDLE_VERSION, Reg.UPD_PROB_FRAMES, Reg.UPD_SEL_PROB])
  | .probationFail .. =>
      s.hw.leaves t.hw (Touch.answering ++ Touch.charging ++ Touch.sessionEnd ++ Touch.slotSelect ++ Touch.delivering
      ++ parts [.engines, .rl, .linkHost, .hostBusy, .wdg, .hwdg, .slots] ++ regs [Reg.HUPD_SEL_PROB,
      Reg.RL_STATUS_EVQ, Reg.TKT_EPOCH_EPOCH, Reg.TKT_EVENTS_VOIDED, Reg.UPD_EVENTS_ROLLBACKS, Reg.UPD_PROB_FRAMES,
      Reg.UPD_SEL_PROB])
  | .lbStart .. =>
      s.hw.leaves t.hw (Touch.loopBackStart)
  | .lbRunEnd .. =>
      s.hw.leaves t.hw (Touch.loopBackStart ++ Touch.loopBackEnd ++ regs [Reg.LB_VALUE_VALUE])
  | .lbTimeout .. =>
      s.hw.leaves t.hw (Touch.loopBackEnd)
  | .fiArm .. =>
      s.hw.leaves t.hw (parts [.lb] ++ regs [Reg.FI_CTL_ARM])
  | .fiInject .. =>
      s.hw.leaves t.hw (Touch.sliceFence ++ Touch.committing ++ parts [.rl, .linkField, .twin, .lb] ++ regs
      [Reg.FI_CTL_ARM, Reg.FI_STATUS_INJECTED, Reg.FI_STATUS_LAST_TARGET, Reg.JRN_EVENTS_PROG_FAIL,
      Reg.JRN_STATUS_MEDIA_EVT, Reg.RL_STATUS_CRC_ERRS, Reg.TKT_EVENTS_FAILED, Reg.TKT_EVENTS_REPLAYS,
      Reg.TL_F_EVENTS_CRC_ERRS, Reg.TWN_HB_CRC_ERRS])
  | .fvioLow .. =>
      s.hw.leaves t.hw (Touch.freezeEnd ++ Touch.settling ++ Touch.busRun ++ parts [.modes, .stopped] ++ regs
      [Reg.MODE_STATUS_PWR_REQ, Reg.SB_EVENTS_STRETCH_TMO])
  | .hvioLow .. =>
      s.hw.leaves t.hw (parts [.drain, .bus] ++ regs [Reg.DRN_STATUS_AVAIL, Reg.DRN_STATUS_END])
  | .errorRecoveryExit .. =>
      s.hw.leaves t.hw (parts [.cable] ++ regs [Reg.CBL_STATUS_STATE])
  | .lossOfLock .. =>
      s.hw.leaves t.hw (Touch.sideFault ++ regs [Reg.ID_STATUS_FIELD_READY, Reg.ID_STATUS_LINK,
      Reg.TL_F_EVENTS_RETRAINS, Reg.TL_F_STATUS_STATE, Reg.TL_H_EVENTS_RETRAINS, Reg.TL_H_STATUS_STATE])
  | .fVioReturn .. | .hVioReturn .. =>
      s.hw.leaves t.hw (parts [.bus])
  | .twinLinkCrc .. =>
      s.hw.leaves t.hw (parts [.twin] ++ regs [Reg.TWN_HB_CRC_ERRS])
  | .kaThermalFold .. =>
      s.hw.leaves t.hw (parts [.rails])
  | _ => True
end

