-- ==== Sys2Proof/Laws/Images.lean ====
section
/-! SUPPORT. NOR images: reading what has been programmed, and the configuration copy that CFG_COMMIT writes. -/

namespace Sys2Proof.Machine

/-- An image's offsets rise. -/
def NorImage.wf (img : NorImage) : Prop := (img.map Prod.fst).Pairwise (· < ·)

theorem NorImage.wf_nil : NorImage.wf [] := List.Pairwise.nil

theorem NorImage.wf_cons {c : Nat} {d : Byte} {xs : NorImage} :
    NorImage.wf ((c, d) :: xs) ↔ (∀ e ∈ xs, c < e.1) ∧ NorImage.wf xs := by
  simp only [NorImage.wf, List.map_cons, List.pairwise_cons, List.mem_map]
  exact and_congr_left fun _ => ⟨fun h e he => h _ ⟨e, he, rfl⟩, fun h _ ⟨e, he, h'⟩ => h' ▸ h e he⟩

theorem imgByte_nil (x : Nat) : imgByte [] x = 0xFF := rfl

theorem imgByte_cons (c : Nat) (d : Byte) (xs : NorImage) (x : Nat) :
    imgByte ((c, d) :: xs) x = if c = x then d else imgByte xs x := by
  by_cases h : c = x <;> simp [imgByte, h]

theorem imgByte_absent {xs : NorImage} {x : Nat} (h : ∀ e ∈ xs, x < e.1) : imgByte xs x = 0xFF := by
  induction xs with
  | nil => rfl
  | cons e xs ih =>
    obtain ⟨c, d⟩ := e
    have hc : x < c := h (c, d) (by simp)
    rw [imgByte_cons, if_neg (by omega), ih fun e he => h e (by simp [he])]

theorem mem_putImg {a : Nat} {b : Byte} {xs : NorImage} {e : Nat × Byte} (h : e ∈ putImg a b xs) : e.1 = a ∨ e ∈ xs := by
  induction xs with
  | nil =>
    simp only [putImg] at h
    split at h
    · simp at h
    · simp at h; simp [h]
  | cons y xs ih =>
    obtain ⟨c, d⟩ := y
    simp only [putImg] at h
    split at h
    · split at h
      · exact .inr h
      · rcases List.mem_cons.1 h with h | h
        · simp [h]
        · exact .inr h
    · split at h
      · split at h
        · exact .inr (by simp [h])
        · rcases List.mem_cons.1 h with h | h
          · simp [h]
          · exact .inr (by simp [h])
      · rcases List.mem_cons.1 h with h | h
        · exact .inr (by simp [h])
        · rcases ih h with h | h
          · exact .inl h
          · exact .inr (by simp [h])

theorem NorImage.wf_putImg {a : Nat} {b : Byte} {xs : NorImage} (h : NorImage.wf xs) : NorImage.wf (putImg a b xs) := by
  induction xs with
  | nil =>
    simp only [putImg]
    split
    · exact h
    · exact NorImage.wf_cons.2 ⟨by simp, h⟩
  | cons y xs ih =>
    obtain ⟨c, d⟩ := y
    obtain ⟨h1, h2⟩ := NorImage.wf_cons.1 h
    simp only [putImg]
    split
    · rename_i hac
      split
      · exact h
      · refine NorImage.wf_cons.2 ⟨fun e he => ?_, h⟩
        rcases List.mem_cons.1 he with he | he
        · simp [he, hac]
        · exact Nat.lt_trans hac (h1 e he)
    · split
      · rename_i hac
        split
        · exact h2
        · exact NorImage.wf_cons.2 ⟨hac ▸ h1, h2⟩
      · refine NorImage.wf_cons.2 ⟨fun e he => ?_, ih h2⟩
        rcases mem_putImg he with he | he
        · omega
        · exact h1 e he

theorem imgByte_putImg {a : Nat} {b : Byte} {xs : NorImage} (h : NorImage.wf xs) (x : Nat) :
    imgByte (putImg a b xs) x = if x = a then b else imgByte xs x := by
  induction xs with
  | nil =>
    simp only [putImg]
    split
    · rename_i hb
      simp [imgByte_nil, hb]
    · rw [imgByte_cons]
      simp [eq_comm]
  | cons y xs ih =>
    obtain ⟨c, d⟩ := y
    obtain ⟨h1, h2⟩ := NorImage.wf_cons.1 h
    simp only [putImg]
    split
    · rename_i hac
      split
      · rename_i hb
        split
        · rename_i hx
          rw [imgByte_cons, if_neg (by omega), imgByte_absent fun e he => by have := h1 e he; omega, hb]
        · rfl
      · rw [imgByte_cons]
        simp [eq_comm]
    · split
      · rename_i hac
        subst hac
        split
        · rename_i hb
          split
          · rename_i hx
            rw [hx, imgByte_absent h1, hb]
          · rename_i hx
            rw [imgByte_cons, if_neg (Ne.symm hx)]
        · by_cases hx : x = a
          · simp [imgByte_cons, hx]
          · simp [imgByte_cons, hx, Ne.symm hx]
      · rename_i hac hne
        rw [imgByte_cons, ih h2, imgByte_cons]
        by_cases hc : c = x
        · simp [hc, show x ≠ a by omega]
        · simp [hc]

theorem NorImage.wf_putImgBytes {bs : List Byte} {o : Nat} {xs : NorImage} (h : NorImage.wf xs) :
    NorImage.wf (putImgBytes xs o bs) := by
  induction bs generalizing o xs with
  | nil => exact h
  | cons b bs ih => exact ih (NorImage.wf_putImg h)

/-- A byte beside what is programmed reads as before. -/
theorem imgByte_putImgBytes_out {bs : List Byte} {o x : Nat} {xs : NorImage} (h : NorImage.wf xs)
    (hx : x < o ∨ o + bs.length ≤ x) : imgByte (putImgBytes xs o bs) x = imgByte xs x := by
  induction bs generalizing o xs with
  | nil => rfl
  | cons b bs ih =>
    simp only [List.length_cons] at hx
    rw [putImgBytes, ih (NorImage.wf_putImg h) (by omega), imgByte_putImg h, if_neg (by omega)]

theorem imgByte_putImgBytes_in {bs : List Byte} {o i : Nat} {xs : NorImage} (h : NorImage.wf xs) (hi : i < bs.length) :
    imgByte (putImgBytes xs o bs) (o + i) = bs[i] := by
  induction bs generalizing o xs i with
  | nil => simp at hi
  | cons b bs ih =>
    rw [putImgBytes]
    cases i with
    | zero =>
      rw [imgByte_putImgBytes_out (NorImage.wf_putImg h) (by omega), imgByte_putImg h]
      simp
    | succ i =>
      have := ih (o := o + 1) (i := i) (NorImage.wf_putImg (a := o) (b := b) h) (by simpa using hi)
      rw [show o + (i + 1) = o + 1 + i by omega, this]
      simp

/-- Bytes beside what is programmed read as before. -/
theorem imgBytes_putImgBytes_out {bs : List Byte} {o p n : Nat} {xs : NorImage} (h : NorImage.wf xs)
    (hx : p + n ≤ o ∨ o + bs.length ≤ p) : imgBytes (putImgBytes xs o bs) p n = imgBytes xs p n := by
  refine List.map_congr_left fun i hi => imgByte_putImgBytes_out h ?_
  have := List.mem_range.1 hi
  omega

theorem imgBytes_putImgBytes_in {bs : List Byte} {o : Nat} {xs : NorImage} (h : NorImage.wf xs) :
    imgBytes (putImgBytes xs o bs) o bs.length = bs := by
  refine List.ext_getElem (by simp [imgBytes]) fun i hi _ => ?_
  have hi : i < bs.length := by simpa [imgBytes] using hi
  simp [imgBytes, imgByte_putImgBytes_in h hi]

theorem length_le (n v : Nat) : (le n v).length = n := by
  induction n generalizing v with
  | zero => rfl
  | succ n ih => simp [le, ih]

theorem ofLe_le (n v : Nat) : ofLe (le n v) = v % 256 ^ n := by
  induction n generalizing v with
  | zero => simp [le, ofLe, Nat.mod_one]
  | succ n ih =>
    rw [le, ofLe, ih, BitVec.toNat_ofNat, show 256 ^ (n + 1) = 2 ^ 8 * 256 ^ n by rw [pow_succ]; omega, Nat.mod_mul]
    rfl

theorem imgNum_putImgBytes_out {bs : List Byte} {o p n : Nat} {xs : NorImage} (h : NorImage.wf xs)
    (hx : p + n ≤ o ∨ o + bs.length ≤ p) : imgNum (putImgBytes xs o bs) p n = imgNum xs p n := by
  rw [imgNum, imgBytes_putImgBytes_out h hx, imgNum]

theorem imgNum_putImgBytes_in {o n v : Nat} {xs : NorImage} (h : NorImage.wf xs) :
    imgNum (putImgBytes xs o (le n v)) o n = v % 256 ^ n := by
  have := imgBytes_putImgBytes_in (bs := le n v) (o := o) h
  rw [length_le] at this
  rw [imgNum, this, ofLe_le]

theorem crc32cBit_lt {c : Nat} (h : c < 2 ^ 32) : crc32cBit c < 2 ^ 32 := by
  unfold crc32cBit
  split
  · exact Nat.xor_lt_two_pow (by omega) (by decide)
  · omega

theorem crc32cByte_lt {c : Nat} (b : Byte) (h : c < 2 ^ 32) : crc32cByte c b < 2 ^ 32 := by
  have hb : c ^^^ b.toNat < 2 ^ 32 := Nat.xor_lt_two_pow h (Nat.lt_trans b.isLt (by decide))
  exact crc32cBit_lt (crc32cBit_lt (crc32cBit_lt (crc32cBit_lt (crc32cBit_lt (crc32cBit_lt (crc32cBit_lt
    (crc32cBit_lt hb)))))))

theorem crc32c_lt (bs : List Byte) : crc32c bs < 2 ^ 32 := by
  have : ∀ (bs : List Byte) (c : Nat), c < 2 ^ 32 → bs.foldl crc32cByte c < 2 ^ 32 := by
    intro bs
    induction bs with
    | nil => exact fun _ h => h
    | cons b bs ih => exact fun c h => ih _ (crc32cByte_lt b h)
  exact Nat.xor_lt_two_pow (this bs _ (by decide)) (by decide)

/-- A staged configuration with its magic and its format passes the check of CFG_COMMIT, which writes its number and its
CRCs itself (R451, R457). -/
theorem Hw.cfgReason_written {m : Hw} (h : NorImage.wf m.modes.staged) (h0 : imgNum m.modes.staged 0 4 = 0x4643565A)
    (h4 : imgNum m.modes.staged 4 4 = 1) (hs : m.on Reg.SVC_STATUS_REQ_SIGNED = false) :
    m.cfgReason m.cfgWritten = 0 := by
  let a := putImgBytes m.modes.staged 8 (le 4 (m.cfgSeq + 1))
  let b := putImgBytes a 0x3C (le 4 (crc32c (imgBytes a 0 0x3C)))
  have ha : NorImage.wf a := NorImage.wf_putImgBytes h
  have hb : NorImage.wf b := NorImage.wf_putImgBytes ha
  have e : m.cfgWritten = putImgBytes b 0xFFFC (le 4 (crc32c (imgBytes b 0 0xFFFC))) := rfl
  have k (p n : Nat) (hp : p + n ≤ 8) : imgNum m.cfgWritten p n = imgNum m.modes.staged p n := by
    rw [e, imgNum_putImgBytes_out hb (by omega), imgNum_putImgBytes_out ha (by omega), imgNum_putImgBytes_out h (by omega)]
  have c1 : crc32c (imgBytes m.cfgWritten 0 0x3C) = imgNum m.cfgWritten 0x3C 4 := by
    rw [e, imgBytes_putImgBytes_out hb (by omega), imgNum_putImgBytes_out hb (by omega), imgNum_putImgBytes_in ha,
      imgBytes_putImgBytes_out ha (by omega)]
    exact (Nat.mod_eq_of_lt (crc32c_lt _)).symm
  have c2 : crc32c (imgBytes m.cfgWritten 0 0xFFFC) = imgNum m.cfgWritten 0xFFFC 4 := by
    rw [e, imgBytes_putImgBytes_out hb (by omega), imgNum_putImgBytes_in hb]
    exact (Nat.mod_eq_of_lt (crc32c_lt _)).symm
  unfold Hw.cfgReason
  rw [k 0 4 (by omega), h0, if_neg (by simp), if_neg (by simpa using c1), k 4 4 (by omega), h4, if_neg (by simp),
    if_neg (by simpa using c2), hs]
  rfl

/-- A calibration record with its CRC behind it passes the CRC check (R263). -/
theorem calCrcOk_written {xs : NorImage} (h : NorImage.wf xs) :
    calCrcOk (putImgBytes xs 0x230 (le 4 (crc32c (imgBytes xs 0 0x230)))) = true := by
  rw [calCrcOk, imgBytes_putImgBytes_out h (by omega), imgNum_putImgBytes_in h, beq_iff_eq]
  exact (Nat.mod_eq_of_lt (crc32c_lt _)).symm

/-- CAL_COMMIT refuses nothing whose CRC passes, where no signature is asked for (R264). -/
theorem calCommitCheck_ok {m : Hw} {c : HostCmd} (h : calCrcOk m.adc.staged = true)
    (hs : m.on Reg.ADC_CFG_CAL_SIGN_REQ = false) : calCommitCheck true m c = none := by
  simp [calCommitCheck, Hw.calOk, h, hs]

/-- CFG_COMMIT refuses nothing that passes its check (R457). -/
theorem cfgCommitCheck_ok {m : Hw} {c : HostCmd} (h : NorImage.wf m.modes.staged)
    (h0 : imgNum m.modes.staged 0 4 = 0x4643565A) (h4 : imgNum m.modes.staged 4 4 = 1)
    (hs : m.on Reg.SVC_STATUS_REQ_SIGNED = false) : cfgCommitCheck true m c = none := by
  simp [cfgCommitCheck, Hw.cfgReason_written h h0 h4 hs]

end Sys2Proof.Machine
end

