-- ==== Sys2Proof/Laws/State.lean ====
section
/-! SUPPORT. What an update of one part of the state leaves of the others: true by definition, and tagged for simp, so
that no proof unfolds a record update. -/

namespace Sys2Proof.Machine

@[simp] theorem State.on_hw (s : State) (f : Hw → Hw) : (s.on f).hw = f s.hw := rfl
@[simp] theorem State.on_pending (s : State) (f : Hw → Hw) : (s.on f).pending = s.pending := rfl
@[simp] theorem effect_eq (s : State) (f : Hw → Hw) : effect s f = .next (s.on f) := rfl

@[simp] theorem Hw.wr_arch (m : Hw) (f : Field) (v : Nat) : (m.wr f v).arch = m.arch := rfl
@[simp] theorem Hw.wr_seq (m : Hw) (f : Field) (v : Nat) : (m.wr f v).seq = m.seq := rfl
@[simp] theorem Hw.wr_intake (m : Hw) (f : Field) (v : Nat) : (m.wr f v).intake = m.intake := rfl
@[simp] theorem Hw.wr_xfer (m : Hw) (f : Field) (v : Nat) : (m.wr f v).xfer = m.xfer := rfl
@[simp] theorem Hw.wr_ph (m : Hw) (f : Field) (v : Nat) : (m.wr f v).ph = m.ph := rfl
@[simp] theorem Hw.wr_bat (m : Hw) (f : Field) (v : Nat) : (m.wr f v).bat = m.bat := rfl
@[simp] theorem Hw.wr_chg (m : Hw) (f : Field) (v : Nat) : (m.wr f v).chg = m.chg := rfl
@[simp] theorem Hw.wr_rails (m : Hw) (f : Field) (v : Nat) : (m.wr f v).rails = m.rails := rfl
@[simp] theorem Hw.wr_rl (m : Hw) (f : Field) (v : Nat) : (m.wr f v).rl = m.rl := rfl
@[simp] theorem Hw.wr_cable (m : Hw) (f : Field) (v : Nat) : (m.wr f v).cable = m.cable := rfl
@[simp] theorem Hw.wr_flt (m : Hw) (f : Field) (v : Nat) : (m.wr f v).flt = m.flt := rfl
@[simp] theorem Hw.wr_host (m : Hw) (f : Field) (v : Nat) : (m.wr f v).host = m.host := rfl
@[simp] theorem Hw.wr_modes (m : Hw) (f : Field) (v : Nat) : (m.wr f v).modes = m.modes := rfl
@[simp] theorem Hw.wr_adc (m : Hw) (f : Field) (v : Nat) : (m.wr f v).adc = m.adc := rfl
@[simp] theorem Hw.wr_jrn (m : Hw) (f : Field) (v : Nat) : (m.wr f v).jrn = m.jrn := rfl
@[simp] theorem Hw.wr_tkt (m : Hw) (f : Field) (v : Nat) : (m.wr f v).tkt = m.tkt := rfl
@[simp] theorem Hw.wr_twin (m : Hw) (f : Field) (v : Nat) : (m.wr f v).twin = m.twin := rfl
@[simp] theorem Hw.wr_hp (m : Hw) (f : Field) (v : Nat) : (m.wr f v).hp = m.hp := rfl
@[simp] theorem Hw.wr_bus (m : Hw) (f : Field) (v : Nat) : (m.wr f v).bus = m.bus := rfl
@[simp] theorem Hw.wr_wdg (m : Hw) (f : Field) (v : Nat) : (m.wr f v).wdg = m.wdg := rfl
@[simp] theorem Hw.wr_hwdg (m : Hw) (f : Field) (v : Nat) : (m.wr f v).hwdg = m.hwdg := rfl
@[simp] theorem Hw.wr_bist (m : Hw) (f : Field) (v : Nat) : (m.wr f v).bist = m.bist := rfl
@[simp] theorem Hw.wr_upd (m : Hw) (f : Field) (v : Nat) : (m.wr f v).upd = m.upd := rfl
@[simp] theorem Hw.wr_lb (m : Hw) (f : Field) (v : Nat) : (m.wr f v).lb = m.lb := rfl
@[simp] theorem Hw.wr_sub (m : Hw) (f : Field) (v : Nat) : (m.wr f v).sub = m.sub := rfl
@[simp] theorem Hw.wr_freeCtr (m : Hw) (f : Field) (v : Nat) : (m.wr f v).freeCtr = m.freeCtr := rfl

theorem Hw.wrB_eq (m : Hw) (f : Field) (b : Bool) : m.wrB f b = m.wr f (b2n b) := rfl
@[simp] theorem Hw.wrB_arch (m : Hw) (f : Field) (b : Bool) : (m.wrB f b).arch = m.arch := rfl
@[simp] theorem Hw.wrB_seq (m : Hw) (f : Field) (b : Bool) : (m.wrB f b).seq = m.seq := rfl
@[simp] theorem Hw.wrB_intake (m : Hw) (f : Field) (b : Bool) : (m.wrB f b).intake = m.intake := rfl
@[simp] theorem Hw.wrB_xfer (m : Hw) (f : Field) (b : Bool) : (m.wrB f b).xfer = m.xfer := rfl
@[simp] theorem Hw.wrB_ph (m : Hw) (f : Field) (b : Bool) : (m.wrB f b).ph = m.ph := rfl
@[simp] theorem Hw.wrB_bat (m : Hw) (f : Field) (b : Bool) : (m.wrB f b).bat = m.bat := rfl
@[simp] theorem Hw.wrB_chg (m : Hw) (f : Field) (b : Bool) : (m.wrB f b).chg = m.chg := rfl
@[simp] theorem Hw.wrB_rails (m : Hw) (f : Field) (b : Bool) : (m.wrB f b).rails = m.rails := rfl
@[simp] theorem Hw.wrB_rl (m : Hw) (f : Field) (b : Bool) : (m.wrB f b).rl = m.rl := rfl
@[simp] theorem Hw.wrB_cable (m : Hw) (f : Field) (b : Bool) : (m.wrB f b).cable = m.cable := rfl
@[simp] theorem Hw.wrB_flt (m : Hw) (f : Field) (b : Bool) : (m.wrB f b).flt = m.flt := rfl
@[simp] theorem Hw.wrB_host (m : Hw) (f : Field) (b : Bool) : (m.wrB f b).host = m.host := rfl
@[simp] theorem Hw.wrB_modes (m : Hw) (f : Field) (b : Bool) : (m.wrB f b).modes = m.modes := rfl
@[simp] theorem Hw.wrB_adc (m : Hw) (f : Field) (b : Bool) : (m.wrB f b).adc = m.adc := rfl
@[simp] theorem Hw.wrB_jrn (m : Hw) (f : Field) (b : Bool) : (m.wrB f b).jrn = m.jrn := rfl
@[simp] theorem Hw.wrB_tkt (m : Hw) (f : Field) (b : Bool) : (m.wrB f b).tkt = m.tkt := rfl
@[simp] theorem Hw.wrB_twin (m : Hw) (f : Field) (b : Bool) : (m.wrB f b).twin = m.twin := rfl
@[simp] theorem Hw.wrB_hp (m : Hw) (f : Field) (b : Bool) : (m.wrB f b).hp = m.hp := rfl
@[simp] theorem Hw.wrB_bus (m : Hw) (f : Field) (b : Bool) : (m.wrB f b).bus = m.bus := rfl
@[simp] theorem Hw.wrB_wdg (m : Hw) (f : Field) (b : Bool) : (m.wrB f b).wdg = m.wdg := rfl
@[simp] theorem Hw.wrB_hwdg (m : Hw) (f : Field) (b : Bool) : (m.wrB f b).hwdg = m.hwdg := rfl
@[simp] theorem Hw.wrB_bist (m : Hw) (f : Field) (b : Bool) : (m.wrB f b).bist = m.bist := rfl
@[simp] theorem Hw.wrB_upd (m : Hw) (f : Field) (b : Bool) : (m.wrB f b).upd = m.upd := rfl
@[simp] theorem Hw.wrB_lb (m : Hw) (f : Field) (b : Bool) : (m.wrB f b).lb = m.lb := rfl
@[simp] theorem Hw.wrB_sub (m : Hw) (f : Field) (b : Bool) : (m.wrB f b).sub = m.sub := rfl
@[simp] theorem Hw.wrB_freeCtr (m : Hw) (f : Field) (b : Bool) : (m.wrB f b).freeCtr = m.freeCtr := rfl

theorem Hw.wrI_eq (m : Hw) (f : Field) (v : Int) : m.wrI f v = m.wr f (unsignedOf f.width v) := rfl
@[simp] theorem Hw.wrI_arch (m : Hw) (f : Field) (v : Int) : (m.wrI f v).arch = m.arch := rfl
@[simp] theorem Hw.wrI_seq (m : Hw) (f : Field) (v : Int) : (m.wrI f v).seq = m.seq := rfl
@[simp] theorem Hw.wrI_intake (m : Hw) (f : Field) (v : Int) : (m.wrI f v).intake = m.intake := rfl
@[simp] theorem Hw.wrI_xfer (m : Hw) (f : Field) (v : Int) : (m.wrI f v).xfer = m.xfer := rfl
@[simp] theorem Hw.wrI_ph (m : Hw) (f : Field) (v : Int) : (m.wrI f v).ph = m.ph := rfl
@[simp] theorem Hw.wrI_bat (m : Hw) (f : Field) (v : Int) : (m.wrI f v).bat = m.bat := rfl
@[simp] theorem Hw.wrI_chg (m : Hw) (f : Field) (v : Int) : (m.wrI f v).chg = m.chg := rfl
@[simp] theorem Hw.wrI_rails (m : Hw) (f : Field) (v : Int) : (m.wrI f v).rails = m.rails := rfl
@[simp] theorem Hw.wrI_rl (m : Hw) (f : Field) (v : Int) : (m.wrI f v).rl = m.rl := rfl
@[simp] theorem Hw.wrI_cable (m : Hw) (f : Field) (v : Int) : (m.wrI f v).cable = m.cable := rfl
@[simp] theorem Hw.wrI_flt (m : Hw) (f : Field) (v : Int) : (m.wrI f v).flt = m.flt := rfl
@[simp] theorem Hw.wrI_host (m : Hw) (f : Field) (v : Int) : (m.wrI f v).host = m.host := rfl
@[simp] theorem Hw.wrI_modes (m : Hw) (f : Field) (v : Int) : (m.wrI f v).modes = m.modes := rfl
@[simp] theorem Hw.wrI_adc (m : Hw) (f : Field) (v : Int) : (m.wrI f v).adc = m.adc := rfl
@[simp] theorem Hw.wrI_jrn (m : Hw) (f : Field) (v : Int) : (m.wrI f v).jrn = m.jrn := rfl
@[simp] theorem Hw.wrI_tkt (m : Hw) (f : Field) (v : Int) : (m.wrI f v).tkt = m.tkt := rfl
@[simp] theorem Hw.wrI_twin (m : Hw) (f : Field) (v : Int) : (m.wrI f v).twin = m.twin := rfl
@[simp] theorem Hw.wrI_hp (m : Hw) (f : Field) (v : Int) : (m.wrI f v).hp = m.hp := rfl
@[simp] theorem Hw.wrI_bus (m : Hw) (f : Field) (v : Int) : (m.wrI f v).bus = m.bus := rfl
@[simp] theorem Hw.wrI_wdg (m : Hw) (f : Field) (v : Int) : (m.wrI f v).wdg = m.wdg := rfl
@[simp] theorem Hw.wrI_hwdg (m : Hw) (f : Field) (v : Int) : (m.wrI f v).hwdg = m.hwdg := rfl
@[simp] theorem Hw.wrI_bist (m : Hw) (f : Field) (v : Int) : (m.wrI f v).bist = m.bist := rfl
@[simp] theorem Hw.wrI_upd (m : Hw) (f : Field) (v : Int) : (m.wrI f v).upd = m.upd := rfl
@[simp] theorem Hw.wrI_lb (m : Hw) (f : Field) (v : Int) : (m.wrI f v).lb = m.lb := rfl
@[simp] theorem Hw.wrI_sub (m : Hw) (f : Field) (v : Int) : (m.wrI f v).sub = m.sub := rfl
@[simp] theorem Hw.wrI_freeCtr (m : Hw) (f : Field) (v : Int) : (m.wrI f v).freeCtr = m.freeCtr := rfl

theorem Hw.wrSat_eq (m : Hw) (f : Field) (v : Nat) : m.wrSat f v = m.wr f (satN f.width v) := rfl
@[simp] theorem Hw.wrSat_arch (m : Hw) (f : Field) (v : Nat) : (m.wrSat f v).arch = m.arch := rfl
@[simp] theorem Hw.wrSat_seq (m : Hw) (f : Field) (v : Nat) : (m.wrSat f v).seq = m.seq := rfl
@[simp] theorem Hw.wrSat_intake (m : Hw) (f : Field) (v : Nat) : (m.wrSat f v).intake = m.intake := rfl
@[simp] theorem Hw.wrSat_xfer (m : Hw) (f : Field) (v : Nat) : (m.wrSat f v).xfer = m.xfer := rfl
@[simp] theorem Hw.wrSat_ph (m : Hw) (f : Field) (v : Nat) : (m.wrSat f v).ph = m.ph := rfl
@[simp] theorem Hw.wrSat_bat (m : Hw) (f : Field) (v : Nat) : (m.wrSat f v).bat = m.bat := rfl
@[simp] theorem Hw.wrSat_chg (m : Hw) (f : Field) (v : Nat) : (m.wrSat f v).chg = m.chg := rfl
@[simp] theorem Hw.wrSat_rails (m : Hw) (f : Field) (v : Nat) : (m.wrSat f v).rails = m.rails := rfl
@[simp] theorem Hw.wrSat_rl (m : Hw) (f : Field) (v : Nat) : (m.wrSat f v).rl = m.rl := rfl
@[simp] theorem Hw.wrSat_cable (m : Hw) (f : Field) (v : Nat) : (m.wrSat f v).cable = m.cable := rfl
@[simp] theorem Hw.wrSat_flt (m : Hw) (f : Field) (v : Nat) : (m.wrSat f v).flt = m.flt := rfl
@[simp] theorem Hw.wrSat_host (m : Hw) (f : Field) (v : Nat) : (m.wrSat f v).host = m.host := rfl
@[simp] theorem Hw.wrSat_modes (m : Hw) (f : Field) (v : Nat) : (m.wrSat f v).modes = m.modes := rfl
@[simp] theorem Hw.wrSat_adc (m : Hw) (f : Field) (v : Nat) : (m.wrSat f v).adc = m.adc := rfl
@[simp] theorem Hw.wrSat_jrn (m : Hw) (f : Field) (v : Nat) : (m.wrSat f v).jrn = m.jrn := rfl
@[simp] theorem Hw.wrSat_tkt (m : Hw) (f : Field) (v : Nat) : (m.wrSat f v).tkt = m.tkt := rfl
@[simp] theorem Hw.wrSat_twin (m : Hw) (f : Field) (v : Nat) : (m.wrSat f v).twin = m.twin := rfl
@[simp] theorem Hw.wrSat_hp (m : Hw) (f : Field) (v : Nat) : (m.wrSat f v).hp = m.hp := rfl
@[simp] theorem Hw.wrSat_bus (m : Hw) (f : Field) (v : Nat) : (m.wrSat f v).bus = m.bus := rfl
@[simp] theorem Hw.wrSat_wdg (m : Hw) (f : Field) (v : Nat) : (m.wrSat f v).wdg = m.wdg := rfl
@[simp] theorem Hw.wrSat_hwdg (m : Hw) (f : Field) (v : Nat) : (m.wrSat f v).hwdg = m.hwdg := rfl
@[simp] theorem Hw.wrSat_bist (m : Hw) (f : Field) (v : Nat) : (m.wrSat f v).bist = m.bist := rfl
@[simp] theorem Hw.wrSat_upd (m : Hw) (f : Field) (v : Nat) : (m.wrSat f v).upd = m.upd := rfl
@[simp] theorem Hw.wrSat_lb (m : Hw) (f : Field) (v : Nat) : (m.wrSat f v).lb = m.lb := rfl
@[simp] theorem Hw.wrSat_sub (m : Hw) (f : Field) (v : Nat) : (m.wrSat f v).sub = m.sub := rfl
@[simp] theorem Hw.wrSat_freeCtr (m : Hw) (f : Field) (v : Nat) : (m.wrSat f v).freeCtr = m.freeCtr := rfl

theorem Hw.add_eq (m : Hw) (f : Field) (n : Nat) : m.add f n = m.wr f (satN f.width (m.rd f + n)) := rfl
@[simp] theorem Hw.add_arch (m : Hw) (f : Field) (n : Nat) : (m.add f n).arch = m.arch := rfl
@[simp] theorem Hw.add_seq (m : Hw) (f : Field) (n : Nat) : (m.add f n).seq = m.seq := rfl
@[simp] theorem Hw.add_intake (m : Hw) (f : Field) (n : Nat) : (m.add f n).intake = m.intake := rfl
@[simp] theorem Hw.add_xfer (m : Hw) (f : Field) (n : Nat) : (m.add f n).xfer = m.xfer := rfl
@[simp] theorem Hw.add_ph (m : Hw) (f : Field) (n : Nat) : (m.add f n).ph = m.ph := rfl
@[simp] theorem Hw.add_bat (m : Hw) (f : Field) (n : Nat) : (m.add f n).bat = m.bat := rfl
@[simp] theorem Hw.add_chg (m : Hw) (f : Field) (n : Nat) : (m.add f n).chg = m.chg := rfl
@[simp] theorem Hw.add_rails (m : Hw) (f : Field) (n : Nat) : (m.add f n).rails = m.rails := rfl
@[simp] theorem Hw.add_rl (m : Hw) (f : Field) (n : Nat) : (m.add f n).rl = m.rl := rfl
@[simp] theorem Hw.add_cable (m : Hw) (f : Field) (n : Nat) : (m.add f n).cable = m.cable := rfl
@[simp] theorem Hw.add_flt (m : Hw) (f : Field) (n : Nat) : (m.add f n).flt = m.flt := rfl
@[simp] theorem Hw.add_host (m : Hw) (f : Field) (n : Nat) : (m.add f n).host = m.host := rfl
@[simp] theorem Hw.add_modes (m : Hw) (f : Field) (n : Nat) : (m.add f n).modes = m.modes := rfl
@[simp] theorem Hw.add_adc (m : Hw) (f : Field) (n : Nat) : (m.add f n).adc = m.adc := rfl
@[simp] theorem Hw.add_jrn (m : Hw) (f : Field) (n : Nat) : (m.add f n).jrn = m.jrn := rfl
@[simp] theorem Hw.add_tkt (m : Hw) (f : Field) (n : Nat) : (m.add f n).tkt = m.tkt := rfl
@[simp] theorem Hw.add_twin (m : Hw) (f : Field) (n : Nat) : (m.add f n).twin = m.twin := rfl
@[simp] theorem Hw.add_hp (m : Hw) (f : Field) (n : Nat) : (m.add f n).hp = m.hp := rfl
@[simp] theorem Hw.add_bus (m : Hw) (f : Field) (n : Nat) : (m.add f n).bus = m.bus := rfl
@[simp] theorem Hw.add_wdg (m : Hw) (f : Field) (n : Nat) : (m.add f n).wdg = m.wdg := rfl
@[simp] theorem Hw.add_hwdg (m : Hw) (f : Field) (n : Nat) : (m.add f n).hwdg = m.hwdg := rfl
@[simp] theorem Hw.add_bist (m : Hw) (f : Field) (n : Nat) : (m.add f n).bist = m.bist := rfl
@[simp] theorem Hw.add_upd (m : Hw) (f : Field) (n : Nat) : (m.add f n).upd = m.upd := rfl
@[simp] theorem Hw.add_lb (m : Hw) (f : Field) (n : Nat) : (m.add f n).lb = m.lb := rfl
@[simp] theorem Hw.add_sub (m : Hw) (f : Field) (n : Nat) : (m.add f n).sub = m.sub := rfl
@[simp] theorem Hw.add_freeCtr (m : Hw) (f : Field) (n : Nat) : (m.add f n).freeCtr = m.freeCtr := rfl

theorem Hw.wrBit_eq (m : Hw) (f : Field) (i : Nat) (b : Bool) : m.wrBit f i b = m.wr f (putBit (m.rd f) i b) := rfl
@[simp] theorem Hw.wrBit_arch (m : Hw) (f : Field) (i : Nat) (b : Bool) : (m.wrBit f i b).arch = m.arch := rfl
@[simp] theorem Hw.wrBit_seq (m : Hw) (f : Field) (i : Nat) (b : Bool) : (m.wrBit f i b).seq = m.seq := rfl
@[simp] theorem Hw.wrBit_intake (m : Hw) (f : Field) (i : Nat) (b : Bool) : (m.wrBit f i b).intake = m.intake := rfl
@[simp] theorem Hw.wrBit_xfer (m : Hw) (f : Field) (i : Nat) (b : Bool) : (m.wrBit f i b).xfer = m.xfer := rfl
@[simp] theorem Hw.wrBit_ph (m : Hw) (f : Field) (i : Nat) (b : Bool) : (m.wrBit f i b).ph = m.ph := rfl
@[simp] theorem Hw.wrBit_bat (m : Hw) (f : Field) (i : Nat) (b : Bool) : (m.wrBit f i b).bat = m.bat := rfl
@[simp] theorem Hw.wrBit_chg (m : Hw) (f : Field) (i : Nat) (b : Bool) : (m.wrBit f i b).chg = m.chg := rfl
@[simp] theorem Hw.wrBit_rails (m : Hw) (f : Field) (i : Nat) (b : Bool) : (m.wrBit f i b).rails = m.rails := rfl
@[simp] theorem Hw.wrBit_rl (m : Hw) (f : Field) (i : Nat) (b : Bool) : (m.wrBit f i b).rl = m.rl := rfl
@[simp] theorem Hw.wrBit_cable (m : Hw) (f : Field) (i : Nat) (b : Bool) : (m.wrBit f i b).cable = m.cable := rfl
@[simp] theorem Hw.wrBit_flt (m : Hw) (f : Field) (i : Nat) (b : Bool) : (m.wrBit f i b).flt = m.flt := rfl
@[simp] theorem Hw.wrBit_host (m : Hw) (f : Field) (i : Nat) (b : Bool) : (m.wrBit f i b).host = m.host := rfl
@[simp] theorem Hw.wrBit_modes (m : Hw) (f : Field) (i : Nat) (b : Bool) : (m.wrBit f i b).modes = m.modes := rfl
@[simp] theorem Hw.wrBit_adc (m : Hw) (f : Field) (i : Nat) (b : Bool) : (m.wrBit f i b).adc = m.adc := rfl
@[simp] theorem Hw.wrBit_jrn (m : Hw) (f : Field) (i : Nat) (b : Bool) : (m.wrBit f i b).jrn = m.jrn := rfl
@[simp] theorem Hw.wrBit_tkt (m : Hw) (f : Field) (i : Nat) (b : Bool) : (m.wrBit f i b).tkt = m.tkt := rfl
@[simp] theorem Hw.wrBit_twin (m : Hw) (f : Field) (i : Nat) (b : Bool) : (m.wrBit f i b).twin = m.twin := rfl
@[simp] theorem Hw.wrBit_hp (m : Hw) (f : Field) (i : Nat) (b : Bool) : (m.wrBit f i b).hp = m.hp := rfl
@[simp] theorem Hw.wrBit_bus (m : Hw) (f : Field) (i : Nat) (b : Bool) : (m.wrBit f i b).bus = m.bus := rfl
@[simp] theorem Hw.wrBit_wdg (m : Hw) (f : Field) (i : Nat) (b : Bool) : (m.wrBit f i b).wdg = m.wdg := rfl
@[simp] theorem Hw.wrBit_hwdg (m : Hw) (f : Field) (i : Nat) (b : Bool) : (m.wrBit f i b).hwdg = m.hwdg := rfl
@[simp] theorem Hw.wrBit_bist (m : Hw) (f : Field) (i : Nat) (b : Bool) : (m.wrBit f i b).bist = m.bist := rfl
@[simp] theorem Hw.wrBit_upd (m : Hw) (f : Field) (i : Nat) (b : Bool) : (m.wrBit f i b).upd = m.upd := rfl
@[simp] theorem Hw.wrBit_lb (m : Hw) (f : Field) (i : Nat) (b : Bool) : (m.wrBit f i b).lb = m.lb := rfl
@[simp] theorem Hw.wrBit_sub (m : Hw) (f : Field) (i : Nat) (b : Bool) : (m.wrBit f i b).sub = m.sub := rfl
@[simp] theorem Hw.wrBit_freeCtr (m : Hw) (f : Field) (i : Nat) (b : Bool) : (m.wrBit f i b).freeCtr = m.freeCtr := rfl

@[simp] theorem Hw.bump_arch (m : Hw) (f : Field) : (m.bump f).arch = m.arch := rfl
@[simp] theorem Hw.bump_seq (m : Hw) (f : Field) : (m.bump f).seq = m.seq := rfl
@[simp] theorem Hw.bump_intake (m : Hw) (f : Field) : (m.bump f).intake = m.intake := rfl
@[simp] theorem Hw.bump_xfer (m : Hw) (f : Field) : (m.bump f).xfer = m.xfer := rfl
@[simp] theorem Hw.bump_ph (m : Hw) (f : Field) : (m.bump f).ph = m.ph := rfl
@[simp] theorem Hw.bump_bat (m : Hw) (f : Field) : (m.bump f).bat = m.bat := rfl
@[simp] theorem Hw.bump_chg (m : Hw) (f : Field) : (m.bump f).chg = m.chg := rfl
@[simp] theorem Hw.bump_rails (m : Hw) (f : Field) : (m.bump f).rails = m.rails := rfl
@[simp] theorem Hw.bump_rl (m : Hw) (f : Field) : (m.bump f).rl = m.rl := rfl
@[simp] theorem Hw.bump_cable (m : Hw) (f : Field) : (m.bump f).cable = m.cable := rfl
@[simp] theorem Hw.bump_flt (m : Hw) (f : Field) : (m.bump f).flt = m.flt := rfl
@[simp] theorem Hw.bump_host (m : Hw) (f : Field) : (m.bump f).host = m.host := rfl
@[simp] theorem Hw.bump_modes (m : Hw) (f : Field) : (m.bump f).modes = m.modes := rfl
@[simp] theorem Hw.bump_adc (m : Hw) (f : Field) : (m.bump f).adc = m.adc := rfl
@[simp] theorem Hw.bump_jrn (m : Hw) (f : Field) : (m.bump f).jrn = m.jrn := rfl
@[simp] theorem Hw.bump_tkt (m : Hw) (f : Field) : (m.bump f).tkt = m.tkt := rfl
@[simp] theorem Hw.bump_twin (m : Hw) (f : Field) : (m.bump f).twin = m.twin := rfl
@[simp] theorem Hw.bump_hp (m : Hw) (f : Field) : (m.bump f).hp = m.hp := rfl
@[simp] theorem Hw.bump_bus (m : Hw) (f : Field) : (m.bump f).bus = m.bus := rfl
@[simp] theorem Hw.bump_wdg (m : Hw) (f : Field) : (m.bump f).wdg = m.wdg := rfl
@[simp] theorem Hw.bump_hwdg (m : Hw) (f : Field) : (m.bump f).hwdg = m.hwdg := rfl
@[simp] theorem Hw.bump_bist (m : Hw) (f : Field) : (m.bump f).bist = m.bist := rfl
@[simp] theorem Hw.bump_upd (m : Hw) (f : Field) : (m.bump f).upd = m.upd := rfl
@[simp] theorem Hw.bump_lb (m : Hw) (f : Field) : (m.bump f).lb = m.lb := rfl
@[simp] theorem Hw.bump_sub (m : Hw) (f : Field) : (m.bump f).sub = m.sub := rfl
@[simp] theorem Hw.bump_freeCtr (m : Hw) (f : Field) : (m.bump f).freeCtr = m.freeCtr := rfl

@[simp] theorem Hw.setEngine_regs (m : Hw) (e : Engine) (x : EngineSt) : (m.setEngine e x).regs = m.regs := rfl
@[simp] theorem Hw.setEngine_seq (m : Hw) (e : Engine) (x : EngineSt) : (m.setEngine e x).seq = m.seq := rfl
@[simp] theorem Hw.setEngine_intake (m : Hw) (e : Engine) (x : EngineSt) : (m.setEngine e x).intake = m.intake := rfl
@[simp] theorem Hw.setEngine_xfer (m : Hw) (e : Engine) (x : EngineSt) : (m.setEngine e x).xfer = m.xfer := rfl
@[simp] theorem Hw.setEngine_ph (m : Hw) (e : Engine) (x : EngineSt) : (m.setEngine e x).ph = m.ph := rfl
@[simp] theorem Hw.setEngine_bat (m : Hw) (e : Engine) (x : EngineSt) : (m.setEngine e x).bat = m.bat := rfl
@[simp] theorem Hw.setEngine_chg (m : Hw) (e : Engine) (x : EngineSt) : (m.setEngine e x).chg = m.chg := rfl
@[simp] theorem Hw.setEngine_rails (m : Hw) (e : Engine) (x : EngineSt) : (m.setEngine e x).rails = m.rails := rfl
@[simp] theorem Hw.setEngine_rl (m : Hw) (e : Engine) (x : EngineSt) : (m.setEngine e x).rl = m.rl := rfl
@[simp] theorem Hw.setEngine_cable (m : Hw) (e : Engine) (x : EngineSt) : (m.setEngine e x).cable = m.cable := rfl
@[simp] theorem Hw.setEngine_flt (m : Hw) (e : Engine) (x : EngineSt) : (m.setEngine e x).flt = m.flt := rfl
@[simp] theorem Hw.setEngine_host (m : Hw) (e : Engine) (x : EngineSt) : (m.setEngine e x).host = m.host := rfl
@[simp] theorem Hw.setEngine_modes (m : Hw) (e : Engine) (x : EngineSt) : (m.setEngine e x).modes = m.modes := rfl
@[simp] theorem Hw.setEngine_adc (m : Hw) (e : Engine) (x : EngineSt) : (m.setEngine e x).adc = m.adc := rfl
@[simp] theorem Hw.setEngine_jrn (m : Hw) (e : Engine) (x : EngineSt) : (m.setEngine e x).jrn = m.jrn := rfl
@[simp] theorem Hw.setEngine_tkt (m : Hw) (e : Engine) (x : EngineSt) : (m.setEngine e x).tkt = m.tkt := rfl
@[simp] theorem Hw.setEngine_twin (m : Hw) (e : Engine) (x : EngineSt) : (m.setEngine e x).twin = m.twin := rfl
@[simp] theorem Hw.setEngine_hp (m : Hw) (e : Engine) (x : EngineSt) : (m.setEngine e x).hp = m.hp := rfl
@[simp] theorem Hw.setEngine_bus (m : Hw) (e : Engine) (x : EngineSt) : (m.setEngine e x).bus = m.bus := rfl
@[simp] theorem Hw.setEngine_wdg (m : Hw) (e : Engine) (x : EngineSt) : (m.setEngine e x).wdg = m.wdg := rfl
@[simp] theorem Hw.setEngine_hwdg (m : Hw) (e : Engine) (x : EngineSt) : (m.setEngine e x).hwdg = m.hwdg := rfl
@[simp] theorem Hw.setEngine_bist (m : Hw) (e : Engine) (x : EngineSt) : (m.setEngine e x).bist = m.bist := rfl
@[simp] theorem Hw.setEngine_upd (m : Hw) (e : Engine) (x : EngineSt) : (m.setEngine e x).upd = m.upd := rfl
@[simp] theorem Hw.setEngine_lb (m : Hw) (e : Engine) (x : EngineSt) : (m.setEngine e x).lb = m.lb := rfl
@[simp] theorem Hw.setEngine_sub (m : Hw) (e : Engine) (x : EngineSt) : (m.setEngine e x).sub = m.sub := rfl
@[simp] theorem Hw.setEngine_freeCtr (m : Hw) (e : Engine) (x : EngineSt) : (m.setEngine e x).freeCtr = m.freeCtr := rfl

@[simp] theorem Hw.setDomain_regs (m : Hw) (d : Domain) (x : DomainSt) : (m.setDomain d x).regs = m.regs := rfl
@[simp] theorem Hw.setDomain_seq (m : Hw) (d : Domain) (x : DomainSt) : (m.setDomain d x).seq = m.seq := rfl
@[simp] theorem Hw.setDomain_intake (m : Hw) (d : Domain) (x : DomainSt) : (m.setDomain d x).intake = m.intake := rfl
@[simp] theorem Hw.setDomain_xfer (m : Hw) (d : Domain) (x : DomainSt) : (m.setDomain d x).xfer = m.xfer := rfl
@[simp] theorem Hw.setDomain_ph (m : Hw) (d : Domain) (x : DomainSt) : (m.setDomain d x).ph = m.ph := rfl
@[simp] theorem Hw.setDomain_bat (m : Hw) (d : Domain) (x : DomainSt) : (m.setDomain d x).bat = m.bat := rfl
@[simp] theorem Hw.setDomain_chg (m : Hw) (d : Domain) (x : DomainSt) : (m.setDomain d x).chg = m.chg := rfl
@[simp] theorem Hw.setDomain_rails (m : Hw) (d : Domain) (x : DomainSt) : (m.setDomain d x).rails = m.rails := rfl
@[simp] theorem Hw.setDomain_rl (m : Hw) (d : Domain) (x : DomainSt) : (m.setDomain d x).rl = m.rl := rfl
@[simp] theorem Hw.setDomain_cable (m : Hw) (d : Domain) (x : DomainSt) : (m.setDomain d x).cable = m.cable := rfl
@[simp] theorem Hw.setDomain_flt (m : Hw) (d : Domain) (x : DomainSt) : (m.setDomain d x).flt = m.flt := rfl
@[simp] theorem Hw.setDomain_host (m : Hw) (d : Domain) (x : DomainSt) : (m.setDomain d x).host = m.host := rfl
@[simp] theorem Hw.setDomain_modes (m : Hw) (d : Domain) (x : DomainSt) : (m.setDomain d x).modes = m.modes := rfl
@[simp] theorem Hw.setDomain_adc (m : Hw) (d : Domain) (x : DomainSt) : (m.setDomain d x).adc = m.adc := rfl
@[simp] theorem Hw.setDomain_jrn (m : Hw) (d : Domain) (x : DomainSt) : (m.setDomain d x).jrn = m.jrn := rfl
@[simp] theorem Hw.setDomain_tkt (m : Hw) (d : Domain) (x : DomainSt) : (m.setDomain d x).tkt = m.tkt := rfl
@[simp] theorem Hw.setDomain_twin (m : Hw) (d : Domain) (x : DomainSt) : (m.setDomain d x).twin = m.twin := rfl
@[simp] theorem Hw.setDomain_hp (m : Hw) (d : Domain) (x : DomainSt) : (m.setDomain d x).hp = m.hp := rfl
@[simp] theorem Hw.setDomain_bus (m : Hw) (d : Domain) (x : DomainSt) : (m.setDomain d x).bus = m.bus := rfl
@[simp] theorem Hw.setDomain_wdg (m : Hw) (d : Domain) (x : DomainSt) : (m.setDomain d x).wdg = m.wdg := rfl
@[simp] theorem Hw.setDomain_hwdg (m : Hw) (d : Domain) (x : DomainSt) : (m.setDomain d x).hwdg = m.hwdg := rfl
@[simp] theorem Hw.setDomain_bist (m : Hw) (d : Domain) (x : DomainSt) : (m.setDomain d x).bist = m.bist := rfl
@[simp] theorem Hw.setDomain_upd (m : Hw) (d : Domain) (x : DomainSt) : (m.setDomain d x).upd = m.upd := rfl
@[simp] theorem Hw.setDomain_lb (m : Hw) (d : Domain) (x : DomainSt) : (m.setDomain d x).lb = m.lb := rfl
@[simp] theorem Hw.setDomain_sub (m : Hw) (d : Domain) (x : DomainSt) : (m.setDomain d x).sub = m.sub := rfl
@[simp] theorem Hw.setDomain_freeCtr (m : Hw) (d : Domain) (x : DomainSt) : (m.setDomain d x).freeCtr = m.freeCtr := rfl

@[simp] theorem Hw.haltCode_regs (m : Hw) (c : HCode) : (m.haltCode c).regs = m.regs := rfl
@[simp] theorem Hw.haltCode_seq (m : Hw) (c : HCode) : (m.haltCode c).seq = m.seq := rfl
@[simp] theorem Hw.haltCode_intake (m : Hw) (c : HCode) : (m.haltCode c).intake = m.intake := rfl
@[simp] theorem Hw.haltCode_xfer (m : Hw) (c : HCode) : (m.haltCode c).xfer = m.xfer := rfl
@[simp] theorem Hw.haltCode_ph (m : Hw) (c : HCode) : (m.haltCode c).ph = m.ph := rfl
@[simp] theorem Hw.haltCode_bat (m : Hw) (c : HCode) : (m.haltCode c).bat = m.bat := rfl
@[simp] theorem Hw.haltCode_chg (m : Hw) (c : HCode) : (m.haltCode c).chg = m.chg := rfl
@[simp] theorem Hw.haltCode_rails (m : Hw) (c : HCode) : (m.haltCode c).rails = m.rails := rfl
@[simp] theorem Hw.haltCode_rl (m : Hw) (c : HCode) : (m.haltCode c).rl = m.rl := rfl
@[simp] theorem Hw.haltCode_cable (m : Hw) (c : HCode) : (m.haltCode c).cable = m.cable := rfl
@[simp] theorem Hw.haltCode_flt (m : Hw) (c : HCode) : (m.haltCode c).flt = m.flt := rfl
@[simp] theorem Hw.haltCode_host (m : Hw) (c : HCode) : (m.haltCode c).host = m.host := rfl
@[simp] theorem Hw.haltCode_modes (m : Hw) (c : HCode) : (m.haltCode c).modes = m.modes := rfl
@[simp] theorem Hw.haltCode_adc (m : Hw) (c : HCode) : (m.haltCode c).adc = m.adc := rfl
@[simp] theorem Hw.haltCode_jrn (m : Hw) (c : HCode) : (m.haltCode c).jrn = m.jrn := rfl
@[simp] theorem Hw.haltCode_tkt (m : Hw) (c : HCode) : (m.haltCode c).tkt = m.tkt := rfl
@[simp] theorem Hw.haltCode_twin (m : Hw) (c : HCode) : (m.haltCode c).twin = m.twin := rfl
@[simp] theorem Hw.haltCode_hp (m : Hw) (c : HCode) : (m.haltCode c).hp = m.hp := rfl
@[simp] theorem Hw.haltCode_bus (m : Hw) (c : HCode) : (m.haltCode c).bus = m.bus := rfl
@[simp] theorem Hw.haltCode_wdg (m : Hw) (c : HCode) : (m.haltCode c).wdg = m.wdg := rfl
@[simp] theorem Hw.haltCode_hwdg (m : Hw) (c : HCode) : (m.haltCode c).hwdg = m.hwdg := rfl
@[simp] theorem Hw.haltCode_bist (m : Hw) (c : HCode) : (m.haltCode c).bist = m.bist := rfl
@[simp] theorem Hw.haltCode_upd (m : Hw) (c : HCode) : (m.haltCode c).upd = m.upd := rfl
@[simp] theorem Hw.haltCode_lb (m : Hw) (c : HCode) : (m.haltCode c).lb = m.lb := rfl
@[simp] theorem Hw.haltCode_sub (m : Hw) (c : HCode) : (m.haltCode c).sub = m.sub := rfl
@[simp] theorem Hw.haltCode_freeCtr (m : Hw) (c : HCode) : (m.haltCode c).freeCtr = m.freeCtr := rfl

@[simp] theorem Hw.faltCode_regs (m : Hw) (c : FCode) : (m.faltCode c).regs = m.regs := rfl
@[simp] theorem Hw.faltCode_seq (m : Hw) (c : FCode) : (m.faltCode c).seq = m.seq := rfl
@[simp] theorem Hw.faltCode_intake (m : Hw) (c : FCode) : (m.faltCode c).intake = m.intake := rfl
@[simp] theorem Hw.faltCode_xfer (m : Hw) (c : FCode) : (m.faltCode c).xfer = m.xfer := rfl
@[simp] theorem Hw.faltCode_ph (m : Hw) (c : FCode) : (m.faltCode c).ph = m.ph := rfl
@[simp] theorem Hw.faltCode_bat (m : Hw) (c : FCode) : (m.faltCode c).bat = m.bat := rfl
@[simp] theorem Hw.faltCode_chg (m : Hw) (c : FCode) : (m.faltCode c).chg = m.chg := rfl
@[simp] theorem Hw.faltCode_rails (m : Hw) (c : FCode) : (m.faltCode c).rails = m.rails := rfl
@[simp] theorem Hw.faltCode_rl (m : Hw) (c : FCode) : (m.faltCode c).rl = m.rl := rfl
@[simp] theorem Hw.faltCode_cable (m : Hw) (c : FCode) : (m.faltCode c).cable = m.cable := rfl
@[simp] theorem Hw.faltCode_flt (m : Hw) (c : FCode) : (m.faltCode c).flt = m.flt := rfl
@[simp] theorem Hw.faltCode_host (m : Hw) (c : FCode) : (m.faltCode c).host = m.host := rfl
@[simp] theorem Hw.faltCode_modes (m : Hw) (c : FCode) : (m.faltCode c).modes = m.modes := rfl
@[simp] theorem Hw.faltCode_adc (m : Hw) (c : FCode) : (m.faltCode c).adc = m.adc := rfl
@[simp] theorem Hw.faltCode_jrn (m : Hw) (c : FCode) : (m.faltCode c).jrn = m.jrn := rfl
@[simp] theorem Hw.faltCode_tkt (m : Hw) (c : FCode) : (m.faltCode c).tkt = m.tkt := rfl
@[simp] theorem Hw.faltCode_twin (m : Hw) (c : FCode) : (m.faltCode c).twin = m.twin := rfl
@[simp] theorem Hw.faltCode_hp (m : Hw) (c : FCode) : (m.faltCode c).hp = m.hp := rfl
@[simp] theorem Hw.faltCode_bus (m : Hw) (c : FCode) : (m.faltCode c).bus = m.bus := rfl
@[simp] theorem Hw.faltCode_wdg (m : Hw) (c : FCode) : (m.faltCode c).wdg = m.wdg := rfl
@[simp] theorem Hw.faltCode_hwdg (m : Hw) (c : FCode) : (m.faltCode c).hwdg = m.hwdg := rfl
@[simp] theorem Hw.faltCode_bist (m : Hw) (c : FCode) : (m.faltCode c).bist = m.bist := rfl
@[simp] theorem Hw.faltCode_upd (m : Hw) (c : FCode) : (m.faltCode c).upd = m.upd := rfl
@[simp] theorem Hw.faltCode_lb (m : Hw) (c : FCode) : (m.faltCode c).lb = m.lb := rfl
@[simp] theorem Hw.faltCode_sub (m : Hw) (c : FCode) : (m.faltCode c).sub = m.sub := rfl
@[simp] theorem Hw.faltCode_freeCtr (m : Hw) (c : FCode) : (m.faltCode c).freeCtr = m.freeCtr := rfl

@[simp] theorem Hw.takeHCode_regs (m : Hw) (c : HCode) : (m.takeHCode c).regs = m.regs := rfl
@[simp] theorem Hw.takeHCode_seq (m : Hw) (c : HCode) : (m.takeHCode c).seq = m.seq := rfl
@[simp] theorem Hw.takeHCode_intake (m : Hw) (c : HCode) : (m.takeHCode c).intake = m.intake := rfl
@[simp] theorem Hw.takeHCode_xfer (m : Hw) (c : HCode) : (m.takeHCode c).xfer = m.xfer := rfl
@[simp] theorem Hw.takeHCode_ph (m : Hw) (c : HCode) : (m.takeHCode c).ph = m.ph := rfl
@[simp] theorem Hw.takeHCode_bat (m : Hw) (c : HCode) : (m.takeHCode c).bat = m.bat := rfl
@[simp] theorem Hw.takeHCode_chg (m : Hw) (c : HCode) : (m.takeHCode c).chg = m.chg := rfl
@[simp] theorem Hw.takeHCode_rails (m : Hw) (c : HCode) : (m.takeHCode c).rails = m.rails := rfl
@[simp] theorem Hw.takeHCode_rl (m : Hw) (c : HCode) : (m.takeHCode c).rl = m.rl := rfl
@[simp] theorem Hw.takeHCode_cable (m : Hw) (c : HCode) : (m.takeHCode c).cable = m.cable := rfl
@[simp] theorem Hw.takeHCode_flt (m : Hw) (c : HCode) : (m.takeHCode c).flt = m.flt := rfl
@[simp] theorem Hw.takeHCode_host (m : Hw) (c : HCode) : (m.takeHCode c).host = m.host := rfl
@[simp] theorem Hw.takeHCode_modes (m : Hw) (c : HCode) : (m.takeHCode c).modes = m.modes := rfl
@[simp] theorem Hw.takeHCode_adc (m : Hw) (c : HCode) : (m.takeHCode c).adc = m.adc := rfl
@[simp] theorem Hw.takeHCode_jrn (m : Hw) (c : HCode) : (m.takeHCode c).jrn = m.jrn := rfl
@[simp] theorem Hw.takeHCode_tkt (m : Hw) (c : HCode) : (m.takeHCode c).tkt = m.tkt := rfl
@[simp] theorem Hw.takeHCode_twin (m : Hw) (c : HCode) : (m.takeHCode c).twin = m.twin := rfl
@[simp] theorem Hw.takeHCode_hp (m : Hw) (c : HCode) : (m.takeHCode c).hp = m.hp := rfl
@[simp] theorem Hw.takeHCode_bus (m : Hw) (c : HCode) : (m.takeHCode c).bus = m.bus := rfl
@[simp] theorem Hw.takeHCode_wdg (m : Hw) (c : HCode) : (m.takeHCode c).wdg = m.wdg := rfl
@[simp] theorem Hw.takeHCode_hwdg (m : Hw) (c : HCode) : (m.takeHCode c).hwdg = m.hwdg := rfl
@[simp] theorem Hw.takeHCode_bist (m : Hw) (c : HCode) : (m.takeHCode c).bist = m.bist := rfl
@[simp] theorem Hw.takeHCode_upd (m : Hw) (c : HCode) : (m.takeHCode c).upd = m.upd := rfl
@[simp] theorem Hw.takeHCode_lb (m : Hw) (c : HCode) : (m.takeHCode c).lb = m.lb := rfl
@[simp] theorem Hw.takeHCode_sub (m : Hw) (c : HCode) : (m.takeHCode c).sub = m.sub := rfl
@[simp] theorem Hw.takeHCode_freeCtr (m : Hw) (c : HCode) : (m.takeHCode c).freeCtr = m.freeCtr := rfl

@[simp] theorem Hw.takeFCode_regs (m : Hw) (c : FCode) : (m.takeFCode c).regs = m.regs := rfl
@[simp] theorem Hw.takeFCode_seq (m : Hw) (c : FCode) : (m.takeFCode c).seq = m.seq := rfl
@[simp] theorem Hw.takeFCode_intake (m : Hw) (c : FCode) : (m.takeFCode c).intake = m.intake := rfl
@[simp] theorem Hw.takeFCode_xfer (m : Hw) (c : FCode) : (m.takeFCode c).xfer = m.xfer := rfl
@[simp] theorem Hw.takeFCode_ph (m : Hw) (c : FCode) : (m.takeFCode c).ph = m.ph := rfl
@[simp] theorem Hw.takeFCode_bat (m : Hw) (c : FCode) : (m.takeFCode c).bat = m.bat := rfl
@[simp] theorem Hw.takeFCode_chg (m : Hw) (c : FCode) : (m.takeFCode c).chg = m.chg := rfl
@[simp] theorem Hw.takeFCode_rails (m : Hw) (c : FCode) : (m.takeFCode c).rails = m.rails := rfl
@[simp] theorem Hw.takeFCode_rl (m : Hw) (c : FCode) : (m.takeFCode c).rl = m.rl := rfl
@[simp] theorem Hw.takeFCode_cable (m : Hw) (c : FCode) : (m.takeFCode c).cable = m.cable := rfl
@[simp] theorem Hw.takeFCode_flt (m : Hw) (c : FCode) : (m.takeFCode c).flt = m.flt := rfl
@[simp] theorem Hw.takeFCode_host (m : Hw) (c : FCode) : (m.takeFCode c).host = m.host := rfl
@[simp] theorem Hw.takeFCode_modes (m : Hw) (c : FCode) : (m.takeFCode c).modes = m.modes := rfl
@[simp] theorem Hw.takeFCode_adc (m : Hw) (c : FCode) : (m.takeFCode c).adc = m.adc := rfl
@[simp] theorem Hw.takeFCode_jrn (m : Hw) (c : FCode) : (m.takeFCode c).jrn = m.jrn := rfl
@[simp] theorem Hw.takeFCode_tkt (m : Hw) (c : FCode) : (m.takeFCode c).tkt = m.tkt := rfl
@[simp] theorem Hw.takeFCode_twin (m : Hw) (c : FCode) : (m.takeFCode c).twin = m.twin := rfl
@[simp] theorem Hw.takeFCode_hp (m : Hw) (c : FCode) : (m.takeFCode c).hp = m.hp := rfl
@[simp] theorem Hw.takeFCode_bus (m : Hw) (c : FCode) : (m.takeFCode c).bus = m.bus := rfl
@[simp] theorem Hw.takeFCode_wdg (m : Hw) (c : FCode) : (m.takeFCode c).wdg = m.wdg := rfl
@[simp] theorem Hw.takeFCode_hwdg (m : Hw) (c : FCode) : (m.takeFCode c).hwdg = m.hwdg := rfl
@[simp] theorem Hw.takeFCode_bist (m : Hw) (c : FCode) : (m.takeFCode c).bist = m.bist := rfl
@[simp] theorem Hw.takeFCode_upd (m : Hw) (c : FCode) : (m.takeFCode c).upd = m.upd := rfl
@[simp] theorem Hw.takeFCode_lb (m : Hw) (c : FCode) : (m.takeFCode c).lb = m.lb := rfl
@[simp] theorem Hw.takeFCode_sub (m : Hw) (c : FCode) : (m.takeFCode c).sub = m.sub := rfl
@[simp] theorem Hw.takeFCode_freeCtr (m : Hw) (c : FCode) : (m.takeFCode c).freeCtr = m.freeCtr := rfl

@[simp] theorem Hw.driveQuiet_regs (m : Hw) (b : Bool) : (m.driveQuiet b).regs = m.regs := rfl
@[simp] theorem Hw.driveQuiet_seq (m : Hw) (b : Bool) : (m.driveQuiet b).seq = m.seq := rfl
@[simp] theorem Hw.driveQuiet_intake (m : Hw) (b : Bool) : (m.driveQuiet b).intake = m.intake := rfl
@[simp] theorem Hw.driveQuiet_xfer (m : Hw) (b : Bool) : (m.driveQuiet b).xfer = m.xfer := rfl
@[simp] theorem Hw.driveQuiet_ph (m : Hw) (b : Bool) : (m.driveQuiet b).ph = m.ph := rfl
@[simp] theorem Hw.driveQuiet_bat (m : Hw) (b : Bool) : (m.driveQuiet b).bat = m.bat := rfl
@[simp] theorem Hw.driveQuiet_chg (m : Hw) (b : Bool) : (m.driveQuiet b).chg = m.chg := rfl
@[simp] theorem Hw.driveQuiet_rails (m : Hw) (b : Bool) : (m.driveQuiet b).rails = m.rails := rfl
@[simp] theorem Hw.driveQuiet_rl (m : Hw) (b : Bool) : (m.driveQuiet b).rl = m.rl := rfl
@[simp] theorem Hw.driveQuiet_cable (m : Hw) (b : Bool) : (m.driveQuiet b).cable = m.cable := rfl
@[simp] theorem Hw.driveQuiet_flt (m : Hw) (b : Bool) : (m.driveQuiet b).flt = m.flt := rfl
@[simp] theorem Hw.driveQuiet_host (m : Hw) (b : Bool) : (m.driveQuiet b).host = m.host := rfl
@[simp] theorem Hw.driveQuiet_modes (m : Hw) (b : Bool) : (m.driveQuiet b).modes = m.modes := rfl
@[simp] theorem Hw.driveQuiet_adc (m : Hw) (b : Bool) : (m.driveQuiet b).adc = m.adc := rfl
@[simp] theorem Hw.driveQuiet_jrn (m : Hw) (b : Bool) : (m.driveQuiet b).jrn = m.jrn := rfl
@[simp] theorem Hw.driveQuiet_tkt (m : Hw) (b : Bool) : (m.driveQuiet b).tkt = m.tkt := rfl
@[simp] theorem Hw.driveQuiet_twin (m : Hw) (b : Bool) : (m.driveQuiet b).twin = m.twin := rfl
@[simp] theorem Hw.driveQuiet_hp (m : Hw) (b : Bool) : (m.driveQuiet b).hp = m.hp := rfl
@[simp] theorem Hw.driveQuiet_bus (m : Hw) (b : Bool) : (m.driveQuiet b).bus = m.bus := rfl
@[simp] theorem Hw.driveQuiet_wdg (m : Hw) (b : Bool) : (m.driveQuiet b).wdg = m.wdg := rfl
@[simp] theorem Hw.driveQuiet_hwdg (m : Hw) (b : Bool) : (m.driveQuiet b).hwdg = m.hwdg := rfl
@[simp] theorem Hw.driveQuiet_bist (m : Hw) (b : Bool) : (m.driveQuiet b).bist = m.bist := rfl
@[simp] theorem Hw.driveQuiet_upd (m : Hw) (b : Bool) : (m.driveQuiet b).upd = m.upd := rfl
@[simp] theorem Hw.driveQuiet_lb (m : Hw) (b : Bool) : (m.driveQuiet b).lb = m.lb := rfl
@[simp] theorem Hw.driveQuiet_sub (m : Hw) (b : Bool) : (m.driveQuiet b).sub = m.sub := rfl
@[simp] theorem Hw.driveQuiet_freeCtr (m : Hw) (b : Bool) : (m.driveQuiet b).freeCtr = m.freeCtr := rfl

@[simp] theorem Hw.drew_regs (m : Hw) : (m.drew ).regs = m.regs := rfl
@[simp] theorem Hw.drew_arch (m : Hw) : (m.drew ).arch = m.arch := rfl
@[simp] theorem Hw.drew_seq (m : Hw) : (m.drew ).seq = m.seq := rfl
@[simp] theorem Hw.drew_intake (m : Hw) : (m.drew ).intake = m.intake := rfl
@[simp] theorem Hw.drew_xfer (m : Hw) : (m.drew ).xfer = m.xfer := rfl
@[simp] theorem Hw.drew_ph (m : Hw) : (m.drew ).ph = m.ph := rfl
@[simp] theorem Hw.drew_bat (m : Hw) : (m.drew ).bat = m.bat := rfl
@[simp] theorem Hw.drew_chg (m : Hw) : (m.drew ).chg = m.chg := rfl
@[simp] theorem Hw.drew_rails (m : Hw) : (m.drew ).rails = m.rails := rfl
@[simp] theorem Hw.drew_rl (m : Hw) : (m.drew ).rl = m.rl := rfl
@[simp] theorem Hw.drew_cable (m : Hw) : (m.drew ).cable = m.cable := rfl
@[simp] theorem Hw.drew_flt (m : Hw) : (m.drew ).flt = m.flt := rfl
@[simp] theorem Hw.drew_host (m : Hw) : (m.drew ).host = m.host := rfl
@[simp] theorem Hw.drew_modes (m : Hw) : (m.drew ).modes = m.modes := rfl
@[simp] theorem Hw.drew_adc (m : Hw) : (m.drew ).adc = m.adc := rfl
@[simp] theorem Hw.drew_jrn (m : Hw) : (m.drew ).jrn = m.jrn := rfl
@[simp] theorem Hw.drew_tkt (m : Hw) : (m.drew ).tkt = m.tkt := rfl
@[simp] theorem Hw.drew_twin (m : Hw) : (m.drew ).twin = m.twin := rfl
@[simp] theorem Hw.drew_hp (m : Hw) : (m.drew ).hp = m.hp := rfl
@[simp] theorem Hw.drew_bus (m : Hw) : (m.drew ).bus = m.bus := rfl
@[simp] theorem Hw.drew_wdg (m : Hw) : (m.drew ).wdg = m.wdg := rfl
@[simp] theorem Hw.drew_hwdg (m : Hw) : (m.drew ).hwdg = m.hwdg := rfl
@[simp] theorem Hw.drew_bist (m : Hw) : (m.drew ).bist = m.bist := rfl
@[simp] theorem Hw.drew_upd (m : Hw) : (m.drew ).upd = m.upd := rfl
@[simp] theorem Hw.drew_lb (m : Hw) : (m.drew ).lb = m.lb := rfl
@[simp] theorem Hw.drew_sub (m : Hw) : (m.drew ).sub = m.sub := rfl

end Sys2Proof.Machine
end

