-- ==== Sys2Proof/Laws/Ops.lean ====
section
/-! SUPPORT. What the shared operations do: reading after writing a field, the canonical form of the field store, what a
fault word and a submitted record leave. -/

namespace Sys2Proof.Machine

/-! The field store. -/

@[simp] theorem getKey_putKey_same (k d v : Nat) (rs : Regs) : getKey k d (putKey k v rs) = v := by
  induction rs with
  | nil => simp [putKey, getKey]
  | cons e rs ih =>
    obtain ⟨j, u⟩ := e
    unfold putKey
    split
    · simp [getKey]
    · split
      · simp [getKey]
      · have : j ≠ k := by omega
        simp [getKey, this, ih]

theorem getKey_putKey_ne {k j : Nat} (h : j ≠ k) (d v : Nat) (rs : Regs) : getKey j d (putKey k v rs) = getKey j d rs := by
  induction rs with
  | nil => simp [putKey, getKey, h.symm]
  | cons e rs ih =>
    obtain ⟨i, u⟩ := e
    unfold putKey
    split
    · simp [getKey, h.symm]
    · split
      · next h2 => subst h2; simp [getKey, h.symm]
      · simp only [getKey]; split <;> simp [ih]

@[simp] theorem getKey_dropKey_same (k d : Nat) (rs : Regs) : getKey k d (dropKey k rs) = d := by
  induction rs with
  | nil => rfl
  | cons e rs ih =>
    obtain ⟨j, u⟩ := e
    simp only [dropKey, List.filter_cons] at ih ⊢
    by_cases hj : j = k
    · subst hj; simpa using ih
    · simp [hj, getKey, ih]

theorem getKey_dropKey_ne {k j : Nat} (h : j ≠ k) (d : Nat) (rs : Regs) : getKey j d (dropKey k rs) = getKey j d rs := by
  induction rs with
  | nil => rfl
  | cons e rs ih =>
    obtain ⟨i, u⟩ := e
    simp only [dropKey, List.filter_cons] at ih ⊢
    by_cases hi : i = k
    · subst hi; simpa [getKey, h.symm] using ih
    · simp [hi, getKey, ih]

/-- A field that has been written reads the value, held to its width. -/
@[simp] theorem Hw.rd_wr_same (m : Hw) (f : Field) (v : Nat) : (m.wr f v).rd f = v % 2 ^ f.width := by
  unfold Hw.wr Hw.rd
  split
  · next h => simp [h]
  · simp

/-- A field of another key keeps its value. -/
theorem Hw.rd_wr_ne {m : Hw} {f g : Field} (h : g.key ≠ f.key) (v : Nat) : (m.wr f v).rd g = m.rd g := by
  unfold Hw.wr Hw.rd
  split
  · exact getKey_dropKey_ne h ..
  · exact getKey_putKey_ne h ..

/-! The canonical form of the store. -/

theorem mem_putKey {e : Nat × Nat} {k v : Nat} {rs : Regs} (h : e ∈ putKey k v rs) : e.1 = k ∨ e ∈ rs := by
  induction rs with
  | nil => simp only [putKey, List.mem_singleton] at h; simp [h]
  | cons x rs ih =>
    obtain ⟨j, u⟩ := x
    unfold putKey at h
    split at h
    · rcases List.mem_cons.mp h with h | h
      · simp [h]
      · exact .inr h
    · split at h
      · rcases List.mem_cons.mp h with h | h
        · simp [h]
        · exact .inr (List.mem_cons_of_mem _ h)
      · rcases List.mem_cons.mp h with h | h
        · exact .inr (by simp [h])
        · rcases ih h with h | h
          · exact .inl h
          · exact .inr (List.mem_cons_of_mem _ h)

theorem Regs.wf_cons {j u : Nat} {rs : Regs} : Regs.wf ((j, u) :: rs) ↔ (∀ e ∈ rs, j < e.1) ∧ Regs.wf rs := by
  simp [Regs.wf]

theorem Regs.wf_putKey {k v : Nat} {rs : Regs} (h : Regs.wf rs) : Regs.wf (putKey k v rs) := by
  induction rs with
  | nil => simp [putKey, Regs.wf]
  | cons x rs ih =>
    obtain ⟨j, u⟩ := x
    obtain ⟨h1, h2⟩ := Regs.wf_cons.mp h
    unfold putKey
    split
    · next hk =>
      refine Regs.wf_cons.mpr ⟨fun e he => ?_, h⟩
      rcases List.mem_cons.mp he with he | he
      · simp [he, hk]
      · exact Nat.lt_trans hk (h1 e he)
    · split
      · next hk => subst hk; exact Regs.wf_cons.mpr ⟨h1, h2⟩
      · refine Regs.wf_cons.mpr ⟨fun e he => ?_, ih h2⟩
        rcases mem_putKey he with he | he
        · omega
        · exact h1 e he

theorem Regs.wf_filter {rs : Regs} (p : Nat × Nat → Bool) (h : Regs.wf rs) : Regs.wf (rs.filter p) := by
  induction rs with
  | nil => exact h
  | cons x rs ih =>
    obtain ⟨j, u⟩ := x
    obtain ⟨h1, h2⟩ := Regs.wf_cons.mp h
    simp only [List.filter_cons]
    split
    · exact Regs.wf_cons.mpr ⟨fun e he => h1 e (List.mem_filter.mp he).1, ih h2⟩
    · exact ih h2

/-- A written field leaves the store in its canonical form. -/
theorem Hw.wf_wr {m : Hw} (f : Field) (v : Nat) (h : Regs.wf m.regs) : Regs.wf (m.wr f v).regs := by
  unfold Hw.wr
  simp only
  split
  · exact Regs.wf_filter _ h
  · exact Regs.wf_putKey h

/-- A reset of one side leaves the store in its canonical form. -/
theorem Hw.wf_resetRegs {m : Hw} (sd : Side) (l : Letter) (h : Regs.wf m.regs) : Regs.wf (m.resetRegs sd l).regs :=
  Regs.wf_filter _ h

/-! Fields cleared, and a domain switched. -/

/-- Fields that take their reset values change the register fields alone. -/
theorem Hw.clear_only (m : Hw) (fs : List Field) : m.clear fs = { m with regs := (m.clear fs).regs } := by
  induction fs generalizing m with
  | nil => rfl
  | cons f fs ih => exact ih (m.wr f f.reset)

/-- A field that is not among those cleared keeps its value. -/
theorem Hw.rd_clear_ne {fs : List Field} {g : Field} (h : ∀ f ∈ fs, g.key ≠ f.key) (m : Hw) :
    (m.clear fs).rd g = m.rd g := by
  induction fs generalizing m with
  | nil => rfl
  | cons f fs ih =>
    exact (ih (fun x hx => h x (List.mem_cons_of_mem _ hx)) (m.wr f f.reset)).trans (Hw.rd_wr_ne (h f List.mem_cons_self) _)

/-- A switched domain: its switch and its power-good; register fields change where it is switched off, and then only those
its units drive. -/
theorem Hw.powerDomain_only (m : Hw) (d : Domain) (b : Bool) :
    m.powerDomain d b = { m.setDomain d { on := b, pg := b, offReq := none } with regs := (m.powerDomain d b).regs } := by
  unfold Hw.powerDomain
  cases b
  · exact Hw.clear_only ..
  · rfl

@[simp] theorem Hw.powerDomain_on_regs (m : Hw) (d : Domain) : (m.powerDomain d true).regs = m.regs := rfl

theorem Hw.powerDomain_rd {g : Field} {d : Domain} (h : ∀ f ∈ darkFields d, g.key ≠ f.key) (m : Hw) (b : Bool) :
    (m.powerDomain d b).rd g = m.rd g := by
  unfold Hw.powerDomain
  cases b
  · exact Hw.rd_clear_ne h _
  · rfl

@[simp] theorem Hw.powerDomain_seq (m : Hw) (d : Domain) (b : Bool) : (m.powerDomain d b).seq = m.seq := by
  rw [Hw.powerDomain_only]; rfl
@[simp] theorem Hw.powerDomain_intake (m : Hw) (d : Domain) (b : Bool) : (m.powerDomain d b).intake = m.intake := by
  rw [Hw.powerDomain_only]; rfl
@[simp] theorem Hw.powerDomain_xfer (m : Hw) (d : Domain) (b : Bool) : (m.powerDomain d b).xfer = m.xfer := by
  rw [Hw.powerDomain_only]; rfl
@[simp] theorem Hw.powerDomain_ph (m : Hw) (d : Domain) (b : Bool) : (m.powerDomain d b).ph = m.ph := by
  rw [Hw.powerDomain_only]; rfl
@[simp] theorem Hw.powerDomain_bat (m : Hw) (d : Domain) (b : Bool) : (m.powerDomain d b).bat = m.bat := by
  rw [Hw.powerDomain_only]; rfl
@[simp] theorem Hw.powerDomain_chg (m : Hw) (d : Domain) (b : Bool) : (m.powerDomain d b).chg = m.chg := by
  rw [Hw.powerDomain_only]; rfl
@[simp] theorem Hw.powerDomain_rails (m : Hw) (d : Domain) (b : Bool) : (m.powerDomain d b).rails = m.rails := by
  rw [Hw.powerDomain_only]; rfl
@[simp] theorem Hw.powerDomain_rl (m : Hw) (d : Domain) (b : Bool) : (m.powerDomain d b).rl = m.rl := by
  rw [Hw.powerDomain_only]; rfl
@[simp] theorem Hw.powerDomain_cable (m : Hw) (d : Domain) (b : Bool) : (m.powerDomain d b).cable = m.cable := by
  rw [Hw.powerDomain_only]; rfl
@[simp] theorem Hw.powerDomain_flt (m : Hw) (d : Domain) (b : Bool) : (m.powerDomain d b).flt = m.flt := by
  rw [Hw.powerDomain_only]; rfl
@[simp] theorem Hw.powerDomain_host (m : Hw) (d : Domain) (b : Bool) : (m.powerDomain d b).host = m.host := by
  rw [Hw.powerDomain_only]; rfl
@[simp] theorem Hw.powerDomain_modes (m : Hw) (d : Domain) (b : Bool) : (m.powerDomain d b).modes = m.modes := by
  rw [Hw.powerDomain_only]; rfl
@[simp] theorem Hw.powerDomain_adc (m : Hw) (d : Domain) (b : Bool) : (m.powerDomain d b).adc = m.adc := by
  rw [Hw.powerDomain_only]; rfl
@[simp] theorem Hw.powerDomain_jrn (m : Hw) (d : Domain) (b : Bool) : (m.powerDomain d b).jrn = m.jrn := by
  rw [Hw.powerDomain_only]; rfl
@[simp] theorem Hw.powerDomain_tkt (m : Hw) (d : Domain) (b : Bool) : (m.powerDomain d b).tkt = m.tkt := by
  rw [Hw.powerDomain_only]; rfl
@[simp] theorem Hw.powerDomain_twin (m : Hw) (d : Domain) (b : Bool) : (m.powerDomain d b).twin = m.twin := by
  rw [Hw.powerDomain_only]; rfl
@[simp] theorem Hw.powerDomain_hp (m : Hw) (d : Domain) (b : Bool) : (m.powerDomain d b).hp = m.hp := by
  rw [Hw.powerDomain_only]; rfl
@[simp] theorem Hw.powerDomain_bus (m : Hw) (d : Domain) (b : Bool) : (m.powerDomain d b).bus = m.bus := by
  rw [Hw.powerDomain_only]; rfl
@[simp] theorem Hw.powerDomain_wdg (m : Hw) (d : Domain) (b : Bool) : (m.powerDomain d b).wdg = m.wdg := by
  rw [Hw.powerDomain_only]; rfl
@[simp] theorem Hw.powerDomain_hwdg (m : Hw) (d : Domain) (b : Bool) : (m.powerDomain d b).hwdg = m.hwdg := by
  rw [Hw.powerDomain_only]; rfl
@[simp] theorem Hw.powerDomain_bist (m : Hw) (d : Domain) (b : Bool) : (m.powerDomain d b).bist = m.bist := by
  rw [Hw.powerDomain_only]; rfl
@[simp] theorem Hw.powerDomain_upd (m : Hw) (d : Domain) (b : Bool) : (m.powerDomain d b).upd = m.upd := by
  rw [Hw.powerDomain_only]; rfl
@[simp] theorem Hw.powerDomain_lb (m : Hw) (d : Domain) (b : Bool) : (m.powerDomain d b).lb = m.lb := by
  rw [Hw.powerDomain_only]; rfl
@[simp] theorem Hw.powerDomain_sub (m : Hw) (d : Domain) (b : Bool) : (m.powerDomain d b).sub = m.sub := by
  rw [Hw.powerDomain_only]; rfl
@[simp] theorem Hw.powerDomain_freeCtr (m : Hw) (d : Domain) (b : Bool) : (m.powerDomain d b).freeCtr = m.freeCtr := by
  rw [Hw.powerDomain_only]; rfl

/-! Time. -/

/-- A thaw entry that is over changes the entry bit and the state of the BATFET, and the entry's own marks. -/
theorem Hw.entryDone_only (m : Hw) : m.entryDone =
    { m with regs := m.entryDone.regs, ph := m.entryDone.ph, bat := m.entryDone.bat } := by
  unfold Hw.entryDone
  split
  · split <;> rfl
  · rfl

/-- A time within the frame: the sequencer's clock, and a thaw entry that ends by then. -/
theorem Hw.atT_only (m : Hw) (t : Nat) : m.atT t =
    { m with regs := (m.atT t).regs, seq := { m.seq with t := t, thaw := if m.frozen then m.seq.thaw else m.seq.thaw + (t - m.seq.t) },
             ph := (m.atT t).ph, bat := (m.atT t).bat } := Hw.entryDone_only _

/-- With no thaw entry under way only the clock moves. -/
theorem Hw.atT_of_none {m : Hw} (h : m.ph.entryEnd = none) (t : Nat) : m.atT t =
    { m with seq := { m.seq with t := t, thaw := if m.frozen then m.seq.thaw else m.seq.thaw + (t - m.seq.t) } } := by
  unfold Hw.atT Hw.entryDone
  simp only [h]

@[simp] theorem Hw.atT_seq (m : Hw) (t : Nat) :
    (m.atT t).seq = { m.seq with t := t, thaw := if m.frozen then m.seq.thaw else m.seq.thaw + (t - m.seq.t) } := by
  rw [Hw.atT_only]

theorem Hw.entryDone_rd {g : Field} (h1 : g.key ≠ Reg.PH_STATUS_ENTRY.key) (h2 : g.key ≠ Reg.BATFET_STATUS_STATE.key)
    (m : Hw) : m.entryDone.rd g = m.rd g := by
  unfold Hw.entryDone Hw.batfet
  split
  · split
    · refine (Hw.rd_wr_ne h2 _).trans ?_
      exact Hw.rd_wr_ne (m := m) h1 0
    · rfl
  · rfl

theorem Hw.atT_rd {g : Field} (h1 : g.key ≠ Reg.PH_STATUS_ENTRY.key) (h2 : g.key ≠ Reg.BATFET_STATUS_STATE.key) (m : Hw)
    (t : Nat) : (m.atT t).rd g = m.rd g := Hw.entryDone_rd h1 h2 _

@[simp] theorem Hw.atT_arch (m : Hw) (t : Nat) : (m.atT t).arch = m.arch := by rw [Hw.atT_only]
@[simp] theorem Hw.atT_intake (m : Hw) (t : Nat) : (m.atT t).intake = m.intake := by rw [Hw.atT_only]
@[simp] theorem Hw.atT_xfer (m : Hw) (t : Nat) : (m.atT t).xfer = m.xfer := by rw [Hw.atT_only]
@[simp] theorem Hw.atT_chg (m : Hw) (t : Nat) : (m.atT t).chg = m.chg := by rw [Hw.atT_only]
@[simp] theorem Hw.atT_rails (m : Hw) (t : Nat) : (m.atT t).rails = m.rails := by rw [Hw.atT_only]
@[simp] theorem Hw.atT_rl (m : Hw) (t : Nat) : (m.atT t).rl = m.rl := by rw [Hw.atT_only]
@[simp] theorem Hw.atT_cable (m : Hw) (t : Nat) : (m.atT t).cable = m.cable := by rw [Hw.atT_only]
@[simp] theorem Hw.atT_flt (m : Hw) (t : Nat) : (m.atT t).flt = m.flt := by rw [Hw.atT_only]
@[simp] theorem Hw.atT_host (m : Hw) (t : Nat) : (m.atT t).host = m.host := by rw [Hw.atT_only]
@[simp] theorem Hw.atT_modes (m : Hw) (t : Nat) : (m.atT t).modes = m.modes := by rw [Hw.atT_only]
@[simp] theorem Hw.atT_adc (m : Hw) (t : Nat) : (m.atT t).adc = m.adc := by rw [Hw.atT_only]
@[simp] theorem Hw.atT_jrn (m : Hw) (t : Nat) : (m.atT t).jrn = m.jrn := by rw [Hw.atT_only]
@[simp] theorem Hw.atT_tkt (m : Hw) (t : Nat) : (m.atT t).tkt = m.tkt := by rw [Hw.atT_only]
@[simp] theorem Hw.atT_twin (m : Hw) (t : Nat) : (m.atT t).twin = m.twin := by rw [Hw.atT_only]
@[simp] theorem Hw.atT_hp (m : Hw) (t : Nat) : (m.atT t).hp = m.hp := by rw [Hw.atT_only]
@[simp] theorem Hw.atT_bus (m : Hw) (t : Nat) : (m.atT t).bus = m.bus := by rw [Hw.atT_only]
@[simp] theorem Hw.atT_wdg (m : Hw) (t : Nat) : (m.atT t).wdg = m.wdg := by rw [Hw.atT_only]
@[simp] theorem Hw.atT_hwdg (m : Hw) (t : Nat) : (m.atT t).hwdg = m.hwdg := by rw [Hw.atT_only]
@[simp] theorem Hw.atT_bist (m : Hw) (t : Nat) : (m.atT t).bist = m.bist := by rw [Hw.atT_only]
@[simp] theorem Hw.atT_upd (m : Hw) (t : Nat) : (m.atT t).upd = m.upd := by rw [Hw.atT_only]
@[simp] theorem Hw.atT_lb (m : Hw) (t : Nat) : (m.atT t).lb = m.lb := by rw [Hw.atT_only]
@[simp] theorem Hw.atT_sub (m : Hw) (t : Nat) : (m.atT t).sub = m.sub := by rw [Hw.atT_only]
@[simp] theorem Hw.atT_freeCtr (m : Hw) (t : Nat) : (m.atT t).freeCtr = m.freeCtr := by rw [Hw.atT_only]

/-! Fault words. -/

/-- A word on the field side enters the collector's input stage, and changes nothing else beside the count of lost words. -/
theorem Hw.faultW_input (m : Hw) (w : FaultWord) : (m.faultW w).flt.input = pushWord 32 0x10 w m.flt.input := by
  unfold Hw.faultW Hw.stampW
  simp only
  split <;> rfl

@[simp] theorem Hw.fault_input (m : Hw) (k : FaultKind) (d : Nat) :
    (m.fault k d).flt.input = pushWord 32 0x10 ⟨k.src, k.code, k.sev, satN 14 d⟩ m.flt.input := Hw.faultW_input ..

@[simp] theorem Hw.faultAt_input (m : Hw) (k : FaultKind) (src d : Nat) :
    (m.faultAt k src d).flt.input = pushWord 32 0x10 ⟨src, k.code, k.sev, satN 14 d⟩ m.flt.input := Hw.faultW_input ..

theorem Hw.faultW_rd {m : Hw} {w : FaultWord} {f : Field} (h : f.key ≠ Reg.FLT_STATUS_LOST.key) :
    (m.faultW w).rd f = m.rd f := by
  unfold Hw.faultW Hw.stampW
  simp only
  split
  · unfold Hw.bump Hw.add Hw.wrSat
    rw [Hw.rd_wr_ne h]
    rfl
  · rfl

/-! Tickets and records. -/

/-- `TKT_STATUS` shows the table: nothing but its fields changes. -/
theorem Hw.showTickets_only (m : Hw) : ∃ r, m.showTickets = { m with regs := r } ∧
    ∀ k d, k / 32 ≠ Reg.TKT_STATUS_INFLIGHT.addr → getKey k d r = getKey k d m.regs := by
  refine ⟨m.showTickets.regs, rfl, fun k d h => ?_⟩
  have key : ∀ f : Field, f.addr = Reg.TKT_STATUS_INFLIGHT.addr → f.lsb < 32 → k ≠ f.key := by
    intro f h1 h2 e
    apply h
    rw [e, Field.key, ← h1]
    omega
  have step : ∀ (f : Field) (v : Nat) (n : Hw), f.addr = Reg.TKT_STATUS_INFLIGHT.addr → f.lsb < 32 →
      getKey k d (n.wr f v).regs = getKey k d n.regs := by
    intro f v n h1 h2
    unfold Hw.wr
    simp only
    split
    · exact getKey_dropKey_ne (key f h1 h2) ..
    · exact getKey_putKey_ne (key f h1 h2) ..
  unfold Hw.showTickets
  simp only [Hw.wrB]
  rw [step Reg.TKT_STATUS_HELD_STREAM _ _ rfl (by decide), step Reg.TKT_STATUS_HELD _ _ rfl (by decide),
    step Reg.TKT_STATUS_FULL _ _ rfl (by decide), step Reg.TKT_STATUS_HWM _ _ rfl (by decide),
    step Reg.TKT_STATUS_INFLIGHT _ _ rfl (by decide)]

/-- A ticket that issues: the table, the issue counters and `TKT_STATUS` change, and nothing else. -/
theorem Hw.issue_only {m m' : Hw} {n stream owner chan unit : Nat} {dur idem crit : Bool}
    (h : m.issue stream owner chan unit dur idem crit = some (m', n)) : ∃ r t, m' = { m with regs := r, tkt := t } ∧
    ∀ k d, k / 32 ≠ Reg.TKT_STATUS_INFLIGHT.addr → getKey k d r = getKey k d m.regs := by
  unfold Hw.issue at h
  split at h
  · simp only [Option.some.injEq, Prod.mk.injEq] at h
    obtain ⟨h, -⟩ := h
    subst h
    obtain ⟨r, e, hr⟩ := Hw.showTickets_only _
    exact ⟨r, _, e, hr⟩
  · cases h

/-- Append tickets that issue: the records that wait stay the same, in their order. -/
theorem Hw.issueAppends_only (fuel : Nat) (m : Hw) : ∃ r t s, m.issueAppends fuel = { m with regs := r, tkt := t, sub := s } ∧
    (∀ k d, k / 32 ≠ Reg.TKT_STATUS_INFLIGHT.addr → getKey k d r = getKey k d m.regs) ∧
    s.map Append.r = m.sub.map Append.r := by
  induction fuel generalizing m with
  | zero =>
    obtain ⟨r, e, hr⟩ := Hw.showTickets_only m
    exact ⟨r, _, _, by simpa [Hw.issueAppends] using e, hr, rfl⟩
  | succ fuel ih =>
    have stop : ∃ r t s, m.showTickets = { m with regs := r, tkt := t, sub := s } ∧
        (∀ k d, k / 32 ≠ Reg.TKT_STATUS_INFLIGHT.addr → getKey k d r = getKey k d m.regs) ∧
        s.map Append.r = m.sub.map Append.r := by
      obtain ⟨r, e, hr⟩ := Hw.showTickets_only m
      exact ⟨r, _, _, e, hr, rfl⟩
    unfold Hw.issueAppends
    split
    · exact stop
    · next x hx =>
      split
      · exact stop
      · next m' n hi =>
        obtain ⟨r, t, e, hr⟩ := Hw.issue_only hi
        obtain ⟨r2, t2, s2, e2, hr2, hs2⟩ := ih ({ m' with
          sub := m.sub.set (m.sub.takeWhile (·.tkt.isSome)).length { x with tkt := some n } } : Hw)
        refine ⟨r2, t2, s2, ?_, ?_, ?_⟩
        · rw [e2, e]
        · intro k d h
          rw [hr2 k d h, e]
          exact hr k d h
        · rw [hs2]
          have hget : ∀ (l : List Append), l.find? (·.tkt.isNone) = some x →
              (l.set (l.takeWhile (·.tkt.isSome)).length { x with tkt := some n }).map Append.r = l.map Append.r := by
            intro l
            induction l with
            | nil => simp
            | cons y ys ihl =>
              intro hf
              by_cases hy : y.tkt.isSome
              · have : y.tkt.isNone = false := by simpa using hy
                simp only [List.find?_cons, this] at hf
                simp [hy, ihl hf]
              · have : y.tkt.isNone = true := by simpa using hy
                simp only [List.find?_cons, this, Option.some.injEq] at hf
                subst hf
                simp [hy]
          exact hget m.sub hx

/-- A submitted record stands behind those that were submitted before it. -/
theorem Hw.submitRec_only (m : Hw) (x : JRec) : ∃ r t s, m.submitRec x = { m with regs := r, tkt := t, sub := s } ∧
    (∀ k d, k / 32 ≠ Reg.TKT_STATUS_INFLIGHT.addr → getKey k d r = getKey k d m.regs) ∧
    s.map Append.r = m.sub.map Append.r ++ [x] := by
  obtain ⟨r, t, s, e, hr, hs⟩ := Hw.issueAppends_only 1 ({ m with sub := m.sub ++ [Append.mk x none] } : Hw)
  exact ⟨r, t, s, e, hr, by simpa using hs⟩

/-- What a record leaves: the record behind those submitted before it. -/
theorem Hw.record_filed (m : Hw) (k : RecKind) (src : Nat) (p : List Byte) : m.filed (m.record k src p) k src := by
  obtain ⟨r, t, s, e, -, hs⟩ := Hw.submitRec_only m (m.mkRec k src p)
  exact ⟨m.mkRec k src p, by unfold Hw.record; rw [e]; exact hs, rfl, rfl⟩

theorem Hw.record_getKey (m : Hw) (c : RecKind) (src : Nat) (p : List Byte) {k d : Nat}
    (h : k / 32 ≠ Reg.TKT_STATUS_INFLIGHT.addr) : getKey k d (m.record c src p).regs = getKey k d m.regs := by
  obtain ⟨r, t, s, e, hr, -⟩ := Hw.submitRec_only m (m.mkRec c src p)
  unfold Hw.record
  rw [e]
  exact hr k d h

/-- A field outside `TKT_STATUS` keeps its value when a record is submitted. -/
theorem Hw.record_rd {m : Hw} {c : RecKind} {src : Nat} {p : List Byte} {f : Field}
    (h : f.key / 32 ≠ Reg.TKT_STATUS_INFLIGHT.addr) : (m.record c src p).rd f = m.rd f := Hw.record_getKey m c src p h


@[simp] theorem Hw.record_arch (m : Hw) (k : RecKind) (src : Nat) (p : List Byte) :
    (m.record k src p).arch = m.arch := by
  obtain ⟨r, t, s, e, -⟩ := Hw.submitRec_only m (m.mkRec k src p)
  unfold Hw.record
  rw [e]

@[simp] theorem Hw.record_seq (m : Hw) (k : RecKind) (src : Nat) (p : List Byte) :
    (m.record k src p).seq = m.seq := by
  obtain ⟨r, t, s, e, -⟩ := Hw.submitRec_only m (m.mkRec k src p)
  unfold Hw.record
  rw [e]

@[simp] theorem Hw.record_intake (m : Hw) (k : RecKind) (src : Nat) (p : List Byte) :
    (m.record k src p).intake = m.intake := by
  obtain ⟨r, t, s, e, -⟩ := Hw.submitRec_only m (m.mkRec k src p)
  unfold Hw.record
  rw [e]

@[simp] theorem Hw.record_xfer (m : Hw) (k : RecKind) (src : Nat) (p : List Byte) :
    (m.record k src p).xfer = m.xfer := by
  obtain ⟨r, t, s, e, -⟩ := Hw.submitRec_only m (m.mkRec k src p)
  unfold Hw.record
  rw [e]

@[simp] theorem Hw.record_ph (m : Hw) (k : RecKind) (src : Nat) (p : List Byte) :
    (m.record k src p).ph = m.ph := by
  obtain ⟨r, t, s, e, -⟩ := Hw.submitRec_only m (m.mkRec k src p)
  unfold Hw.record
  rw [e]

@[simp] theorem Hw.record_bat (m : Hw) (k : RecKind) (src : Nat) (p : List Byte) :
    (m.record k src p).bat = m.bat := by
  obtain ⟨r, t, s, e, -⟩ := Hw.submitRec_only m (m.mkRec k src p)
  unfold Hw.record
  rw [e]

@[simp] theorem Hw.record_chg (m : Hw) (k : RecKind) (src : Nat) (p : List Byte) :
    (m.record k src p).chg = m.chg := by
  obtain ⟨r, t, s, e, -⟩ := Hw.submitRec_only m (m.mkRec k src p)
  unfold Hw.record
  rw [e]

@[simp] theorem Hw.record_rails (m : Hw) (k : RecKind) (src : Nat) (p : List Byte) :
    (m.record k src p).rails = m.rails := by
  obtain ⟨r, t, s, e, -⟩ := Hw.submitRec_only m (m.mkRec k src p)
  unfold Hw.record
  rw [e]

@[simp] theorem Hw.record_rl (m : Hw) (k : RecKind) (src : Nat) (p : List Byte) :
    (m.record k src p).rl = m.rl := by
  obtain ⟨r, t, s, e, -⟩ := Hw.submitRec_only m (m.mkRec k src p)
  unfold Hw.record
  rw [e]

@[simp] theorem Hw.record_cable (m : Hw) (k : RecKind) (src : Nat) (p : List Byte) :
    (m.record k src p).cable = m.cable := by
  obtain ⟨r, t, s, e, -⟩ := Hw.submitRec_only m (m.mkRec k src p)
  unfold Hw.record
  rw [e]

@[simp] theorem Hw.record_flt (m : Hw) (k : RecKind) (src : Nat) (p : List Byte) :
    (m.record k src p).flt = m.flt := by
  obtain ⟨r, t, s, e, -⟩ := Hw.submitRec_only m (m.mkRec k src p)
  unfold Hw.record
  rw [e]

@[simp] theorem Hw.record_host (m : Hw) (k : RecKind) (src : Nat) (p : List Byte) :
    (m.record k src p).host = m.host := by
  obtain ⟨r, t, s, e, -⟩ := Hw.submitRec_only m (m.mkRec k src p)
  unfold Hw.record
  rw [e]

@[simp] theorem Hw.record_modes (m : Hw) (k : RecKind) (src : Nat) (p : List Byte) :
    (m.record k src p).modes = m.modes := by
  obtain ⟨r, t, s, e, -⟩ := Hw.submitRec_only m (m.mkRec k src p)
  unfold Hw.record
  rw [e]

@[simp] theorem Hw.record_adc (m : Hw) (k : RecKind) (src : Nat) (p : List Byte) :
    (m.record k src p).adc = m.adc := by
  obtain ⟨r, t, s, e, -⟩ := Hw.submitRec_only m (m.mkRec k src p)
  unfold Hw.record
  rw [e]

@[simp] theorem Hw.record_jrn (m : Hw) (k : RecKind) (src : Nat) (p : List Byte) :
    (m.record k src p).jrn = m.jrn := by
  obtain ⟨r, t, s, e, -⟩ := Hw.submitRec_only m (m.mkRec k src p)
  unfold Hw.record
  rw [e]

@[simp] theorem Hw.record_twin (m : Hw) (k : RecKind) (src : Nat) (p : List Byte) :
    (m.record k src p).twin = m.twin := by
  obtain ⟨r, t, s, e, -⟩ := Hw.submitRec_only m (m.mkRec k src p)
  unfold Hw.record
  rw [e]

@[simp] theorem Hw.record_hp (m : Hw) (k : RecKind) (src : Nat) (p : List Byte) :
    (m.record k src p).hp = m.hp := by
  obtain ⟨r, t, s, e, -⟩ := Hw.submitRec_only m (m.mkRec k src p)
  unfold Hw.record
  rw [e]

@[simp] theorem Hw.record_bus (m : Hw) (k : RecKind) (src : Nat) (p : List Byte) :
    (m.record k src p).bus = m.bus := by
  obtain ⟨r, t, s, e, -⟩ := Hw.submitRec_only m (m.mkRec k src p)
  unfold Hw.record
  rw [e]

@[simp] theorem Hw.record_wdg (m : Hw) (k : RecKind) (src : Nat) (p : List Byte) :
    (m.record k src p).wdg = m.wdg := by
  obtain ⟨r, t, s, e, -⟩ := Hw.submitRec_only m (m.mkRec k src p)
  unfold Hw.record
  rw [e]

@[simp] theorem Hw.record_hwdg (m : Hw) (k : RecKind) (src : Nat) (p : List Byte) :
    (m.record k src p).hwdg = m.hwdg := by
  obtain ⟨r, t, s, e, -⟩ := Hw.submitRec_only m (m.mkRec k src p)
  unfold Hw.record
  rw [e]

@[simp] theorem Hw.record_bist (m : Hw) (k : RecKind) (src : Nat) (p : List Byte) :
    (m.record k src p).bist = m.bist := by
  obtain ⟨r, t, s, e, -⟩ := Hw.submitRec_only m (m.mkRec k src p)
  unfold Hw.record
  rw [e]

@[simp] theorem Hw.record_upd (m : Hw) (k : RecKind) (src : Nat) (p : List Byte) :
    (m.record k src p).upd = m.upd := by
  obtain ⟨r, t, s, e, -⟩ := Hw.submitRec_only m (m.mkRec k src p)
  unfold Hw.record
  rw [e]

@[simp] theorem Hw.record_lb (m : Hw) (k : RecKind) (src : Nat) (p : List Byte) :
    (m.record k src p).lb = m.lb := by
  obtain ⟨r, t, s, e, -⟩ := Hw.submitRec_only m (m.mkRec k src p)
  unfold Hw.record
  rw [e]

@[simp] theorem Hw.record_freeCtr (m : Hw) (k : RecKind) (src : Nat) (p : List Byte) :
    (m.record k src p).freeCtr = m.freeCtr := by
  obtain ⟨r, t, s, e, -⟩ := Hw.submitRec_only m (m.mkRec k src p)
  unfold Hw.record
  rw [e]

/-! What the recording operations leave alone: every part of the hardware but those that their definitions name. -/

@[simp] theorem Hw.faultW_arch (m : Hw) (w : FaultWord) : (m.faultW w).arch = m.arch := by
 unfold Hw.faultW Hw.stampW; simp only; split <;> rfl
@[simp] theorem Hw.faultW_seq (m : Hw) (w : FaultWord) : (m.faultW w).seq = m.seq := by
 unfold Hw.faultW Hw.stampW; simp only; split <;> rfl
@[simp] theorem Hw.faultW_intake (m : Hw) (w : FaultWord) : (m.faultW w).intake = m.intake := by
 unfold Hw.faultW Hw.stampW; simp only; split <;> rfl
@[simp] theorem Hw.faultW_xfer (m : Hw) (w : FaultWord) : (m.faultW w).xfer = m.xfer := by
 unfold Hw.faultW Hw.stampW; simp only; split <;> rfl
@[simp] theorem Hw.faultW_ph (m : Hw) (w : FaultWord) : (m.faultW w).ph = m.ph := by
 unfold Hw.faultW Hw.stampW; simp only; split <;> rfl
@[simp] theorem Hw.faultW_bat (m : Hw) (w : FaultWord) : (m.faultW w).bat = m.bat := by
 unfold Hw.faultW Hw.stampW; simp only; split <;> rfl
@[simp] theorem Hw.faultW_chg (m : Hw) (w : FaultWord) : (m.faultW w).chg = m.chg := by
 unfold Hw.faultW Hw.stampW; simp only; split <;> rfl
@[simp] theorem Hw.faultW_rails (m : Hw) (w : FaultWord) : (m.faultW w).rails = m.rails := by
 unfold Hw.faultW Hw.stampW; simp only; split <;> rfl
@[simp] theorem Hw.faultW_rl (m : Hw) (w : FaultWord) : (m.faultW w).rl = m.rl := by
 unfold Hw.faultW Hw.stampW; simp only; split <;> rfl
@[simp] theorem Hw.faultW_cable (m : Hw) (w : FaultWord) : (m.faultW w).cable = m.cable := by
 unfold Hw.faultW Hw.stampW; simp only; split <;> rfl
@[simp] theorem Hw.faultW_host (m : Hw) (w : FaultWord) : (m.faultW w).host = m.host := by
 unfold Hw.faultW Hw.stampW; simp only; split <;> rfl
@[simp] theorem Hw.faultW_modes (m : Hw) (w : FaultWord) : (m.faultW w).modes = m.modes := by
 unfold Hw.faultW Hw.stampW; simp only; split <;> rfl
@[simp] theorem Hw.faultW_adc (m : Hw) (w : FaultWord) : (m.faultW w).adc = m.adc := by
 unfold Hw.faultW Hw.stampW; simp only; split <;> rfl
@[simp] theorem Hw.faultW_jrn (m : Hw) (w : FaultWord) : (m.faultW w).jrn = m.jrn := by
 unfold Hw.faultW Hw.stampW; simp only; split <;> rfl
@[simp] theorem Hw.faultW_tkt (m : Hw) (w : FaultWord) : (m.faultW w).tkt = m.tkt := by
 unfold Hw.faultW Hw.stampW; simp only; split <;> rfl
@[simp] theorem Hw.faultW_twin (m : Hw) (w : FaultWord) : (m.faultW w).twin = m.twin := by
 unfold Hw.faultW Hw.stampW; simp only; split <;> rfl
@[simp] theorem Hw.faultW_hp (m : Hw) (w : FaultWord) : (m.faultW w).hp = m.hp := by
 unfold Hw.faultW Hw.stampW; simp only; split <;> rfl
@[simp] theorem Hw.faultW_bus (m : Hw) (w : FaultWord) : (m.faultW w).bus = m.bus := by
 unfold Hw.faultW Hw.stampW; simp only; split <;> rfl
@[simp] theorem Hw.faultW_wdg (m : Hw) (w : FaultWord) : (m.faultW w).wdg = m.wdg := by
 unfold Hw.faultW Hw.stampW; simp only; split <;> rfl
@[simp] theorem Hw.faultW_hwdg (m : Hw) (w : FaultWord) : (m.faultW w).hwdg = m.hwdg := by
 unfold Hw.faultW Hw.stampW; simp only; split <;> rfl
@[simp] theorem Hw.faultW_bist (m : Hw) (w : FaultWord) : (m.faultW w).bist = m.bist := by
 unfold Hw.faultW Hw.stampW; simp only; split <;> rfl
@[simp] theorem Hw.faultW_upd (m : Hw) (w : FaultWord) : (m.faultW w).upd = m.upd := by
 unfold Hw.faultW Hw.stampW; simp only; split <;> rfl
@[simp] theorem Hw.faultW_lb (m : Hw) (w : FaultWord) : (m.faultW w).lb = m.lb := by
 unfold Hw.faultW Hw.stampW; simp only; split <;> rfl
@[simp] theorem Hw.faultW_sub (m : Hw) (w : FaultWord) : (m.faultW w).sub = m.sub := by
 unfold Hw.faultW Hw.stampW; simp only; split <;> rfl
@[simp] theorem Hw.faultW_freeCtr (m : Hw) (w : FaultWord) : (m.faultW w).freeCtr = m.freeCtr := by
 unfold Hw.faultW Hw.stampW; simp only; split <;> rfl

@[simp] theorem Hw.fault_arch (m : Hw) (k : FaultKind) (d : Nat) : (m.fault k d).arch = m.arch := Hw.faultW_arch ..
@[simp] theorem Hw.fault_seq (m : Hw) (k : FaultKind) (d : Nat) : (m.fault k d).seq = m.seq := Hw.faultW_seq ..
@[simp] theorem Hw.fault_intake (m : Hw) (k : FaultKind) (d : Nat) : (m.fault k d).intake = m.intake := Hw.faultW_intake ..
@[simp] theorem Hw.fault_xfer (m : Hw) (k : FaultKind) (d : Nat) : (m.fault k d).xfer = m.xfer := Hw.faultW_xfer ..
@[simp] theorem Hw.fault_ph (m : Hw) (k : FaultKind) (d : Nat) : (m.fault k d).ph = m.ph := Hw.faultW_ph ..
@[simp] theorem Hw.fault_bat (m : Hw) (k : FaultKind) (d : Nat) : (m.fault k d).bat = m.bat := Hw.faultW_bat ..
@[simp] theorem Hw.fault_chg (m : Hw) (k : FaultKind) (d : Nat) : (m.fault k d).chg = m.chg := Hw.faultW_chg ..
@[simp] theorem Hw.fault_rails (m : Hw) (k : FaultKind) (d : Nat) : (m.fault k d).rails = m.rails := Hw.faultW_rails ..
@[simp] theorem Hw.fault_rl (m : Hw) (k : FaultKind) (d : Nat) : (m.fault k d).rl = m.rl := Hw.faultW_rl ..
@[simp] theorem Hw.fault_cable (m : Hw) (k : FaultKind) (d : Nat) : (m.fault k d).cable = m.cable := Hw.faultW_cable ..
@[simp] theorem Hw.fault_host (m : Hw) (k : FaultKind) (d : Nat) : (m.fault k d).host = m.host := Hw.faultW_host ..
@[simp] theorem Hw.fault_modes (m : Hw) (k : FaultKind) (d : Nat) : (m.fault k d).modes = m.modes := Hw.faultW_modes ..
@[simp] theorem Hw.fault_adc (m : Hw) (k : FaultKind) (d : Nat) : (m.fault k d).adc = m.adc := Hw.faultW_adc ..
@[simp] theorem Hw.fault_jrn (m : Hw) (k : FaultKind) (d : Nat) : (m.fault k d).jrn = m.jrn := Hw.faultW_jrn ..
@[simp] theorem Hw.fault_tkt (m : Hw) (k : FaultKind) (d : Nat) : (m.fault k d).tkt = m.tkt := Hw.faultW_tkt ..
@[simp] theorem Hw.fault_twin (m : Hw) (k : FaultKind) (d : Nat) : (m.fault k d).twin = m.twin := Hw.faultW_twin ..
@[simp] theorem Hw.fault_hp (m : Hw) (k : FaultKind) (d : Nat) : (m.fault k d).hp = m.hp := Hw.faultW_hp ..
@[simp] theorem Hw.fault_bus (m : Hw) (k : FaultKind) (d : Nat) : (m.fault k d).bus = m.bus := Hw.faultW_bus ..
@[simp] theorem Hw.fault_wdg (m : Hw) (k : FaultKind) (d : Nat) : (m.fault k d).wdg = m.wdg := Hw.faultW_wdg ..
@[simp] theorem Hw.fault_hwdg (m : Hw) (k : FaultKind) (d : Nat) : (m.fault k d).hwdg = m.hwdg := Hw.faultW_hwdg ..
@[simp] theorem Hw.fault_bist (m : Hw) (k : FaultKind) (d : Nat) : (m.fault k d).bist = m.bist := Hw.faultW_bist ..
@[simp] theorem Hw.fault_upd (m : Hw) (k : FaultKind) (d : Nat) : (m.fault k d).upd = m.upd := Hw.faultW_upd ..
@[simp] theorem Hw.fault_lb (m : Hw) (k : FaultKind) (d : Nat) : (m.fault k d).lb = m.lb := Hw.faultW_lb ..
@[simp] theorem Hw.fault_sub (m : Hw) (k : FaultKind) (d : Nat) : (m.fault k d).sub = m.sub := Hw.faultW_sub ..
@[simp] theorem Hw.fault_freeCtr (m : Hw) (k : FaultKind) (d : Nat) : (m.fault k d).freeCtr = m.freeCtr := Hw.faultW_freeCtr ..

@[simp] theorem Hw.faultAt_arch (m : Hw) (k : FaultKind) (src d : Nat) : (m.faultAt k src d).arch = m.arch := Hw.faultW_arch ..
@[simp] theorem Hw.faultAt_seq (m : Hw) (k : FaultKind) (src d : Nat) : (m.faultAt k src d).seq = m.seq := Hw.faultW_seq ..
@[simp] theorem Hw.faultAt_intake (m : Hw) (k : FaultKind) (src d : Nat) : (m.faultAt k src d).intake = m.intake := Hw.faultW_intake ..
@[simp] theorem Hw.faultAt_xfer (m : Hw) (k : FaultKind) (src d : Nat) : (m.faultAt k src d).xfer = m.xfer := Hw.faultW_xfer ..
@[simp] theorem Hw.faultAt_ph (m : Hw) (k : FaultKind) (src d : Nat) : (m.faultAt k src d).ph = m.ph := Hw.faultW_ph ..
@[simp] theorem Hw.faultAt_bat (m : Hw) (k : FaultKind) (src d : Nat) : (m.faultAt k src d).bat = m.bat := Hw.faultW_bat ..
@[simp] theorem Hw.faultAt_chg (m : Hw) (k : FaultKind) (src d : Nat) : (m.faultAt k src d).chg = m.chg := Hw.faultW_chg ..
@[simp] theorem Hw.faultAt_rails (m : Hw) (k : FaultKind) (src d : Nat) : (m.faultAt k src d).rails = m.rails := Hw.faultW_rails ..
@[simp] theorem Hw.faultAt_rl (m : Hw) (k : FaultKind) (src d : Nat) : (m.faultAt k src d).rl = m.rl := Hw.faultW_rl ..
@[simp] theorem Hw.faultAt_cable (m : Hw) (k : FaultKind) (src d : Nat) : (m.faultAt k src d).cable = m.cable := Hw.faultW_cable ..
@[simp] theorem Hw.faultAt_host (m : Hw) (k : FaultKind) (src d : Nat) : (m.faultAt k src d).host = m.host := Hw.faultW_host ..
@[simp] theorem Hw.faultAt_modes (m : Hw) (k : FaultKind) (src d : Nat) : (m.faultAt k src d).modes = m.modes := Hw.faultW_modes ..
@[simp] theorem Hw.faultAt_adc (m : Hw) (k : FaultKind) (src d : Nat) : (m.faultAt k src d).adc = m.adc := Hw.faultW_adc ..
@[simp] theorem Hw.faultAt_jrn (m : Hw) (k : FaultKind) (src d : Nat) : (m.faultAt k src d).jrn = m.jrn := Hw.faultW_jrn ..
@[simp] theorem Hw.faultAt_tkt (m : Hw) (k : FaultKind) (src d : Nat) : (m.faultAt k src d).tkt = m.tkt := Hw.faultW_tkt ..
@[simp] theorem Hw.faultAt_twin (m : Hw) (k : FaultKind) (src d : Nat) : (m.faultAt k src d).twin = m.twin := Hw.faultW_twin ..
@[simp] theorem Hw.faultAt_hp (m : Hw) (k : FaultKind) (src d : Nat) : (m.faultAt k src d).hp = m.hp := Hw.faultW_hp ..
@[simp] theorem Hw.faultAt_bus (m : Hw) (k : FaultKind) (src d : Nat) : (m.faultAt k src d).bus = m.bus := Hw.faultW_bus ..
@[simp] theorem Hw.faultAt_wdg (m : Hw) (k : FaultKind) (src d : Nat) : (m.faultAt k src d).wdg = m.wdg := Hw.faultW_wdg ..
@[simp] theorem Hw.faultAt_hwdg (m : Hw) (k : FaultKind) (src d : Nat) : (m.faultAt k src d).hwdg = m.hwdg := Hw.faultW_hwdg ..
@[simp] theorem Hw.faultAt_bist (m : Hw) (k : FaultKind) (src d : Nat) : (m.faultAt k src d).bist = m.bist := Hw.faultW_bist ..
@[simp] theorem Hw.faultAt_upd (m : Hw) (k : FaultKind) (src d : Nat) : (m.faultAt k src d).upd = m.upd := Hw.faultW_upd ..
@[simp] theorem Hw.faultAt_lb (m : Hw) (k : FaultKind) (src d : Nat) : (m.faultAt k src d).lb = m.lb := Hw.faultW_lb ..
@[simp] theorem Hw.faultAt_sub (m : Hw) (k : FaultKind) (src d : Nat) : (m.faultAt k src d).sub = m.sub := Hw.faultW_sub ..
@[simp] theorem Hw.faultAt_freeCtr (m : Hw) (k : FaultKind) (src d : Nat) : (m.faultAt k src d).freeCtr = m.freeCtr := Hw.faultW_freeCtr ..

@[simp] theorem Hw.alertSet_arch (m : Hw) (b : Nat) : (m.alertSet b).arch = m.arch := by
 unfold Hw.alertSet; simp only; split <;> rfl
@[simp] theorem Hw.alertSet_seq (m : Hw) (b : Nat) : (m.alertSet b).seq = m.seq := by
 unfold Hw.alertSet; simp only; split <;> rfl
@[simp] theorem Hw.alertSet_intake (m : Hw) (b : Nat) : (m.alertSet b).intake = m.intake := by
 unfold Hw.alertSet; simp only; split <;> rfl
@[simp] theorem Hw.alertSet_xfer (m : Hw) (b : Nat) : (m.alertSet b).xfer = m.xfer := by
 unfold Hw.alertSet; simp only; split <;> rfl
@[simp] theorem Hw.alertSet_ph (m : Hw) (b : Nat) : (m.alertSet b).ph = m.ph := by
 unfold Hw.alertSet; simp only; split <;> rfl
@[simp] theorem Hw.alertSet_bat (m : Hw) (b : Nat) : (m.alertSet b).bat = m.bat := by
 unfold Hw.alertSet; simp only; split <;> rfl
@[simp] theorem Hw.alertSet_chg (m : Hw) (b : Nat) : (m.alertSet b).chg = m.chg := by
 unfold Hw.alertSet; simp only; split <;> rfl
@[simp] theorem Hw.alertSet_rails (m : Hw) (b : Nat) : (m.alertSet b).rails = m.rails := by
 unfold Hw.alertSet; simp only; split <;> rfl
@[simp] theorem Hw.alertSet_rl (m : Hw) (b : Nat) : (m.alertSet b).rl = m.rl := by
 unfold Hw.alertSet; simp only; split <;> rfl
@[simp] theorem Hw.alertSet_cable (m : Hw) (b : Nat) : (m.alertSet b).cable = m.cable := by
 unfold Hw.alertSet; simp only; split <;> rfl
@[simp] theorem Hw.alertSet_flt (m : Hw) (b : Nat) : (m.alertSet b).flt = m.flt := by
 unfold Hw.alertSet; simp only; split <;> rfl
@[simp] theorem Hw.alertSet_modes (m : Hw) (b : Nat) : (m.alertSet b).modes = m.modes := by
 unfold Hw.alertSet; simp only; split <;> rfl
@[simp] theorem Hw.alertSet_adc (m : Hw) (b : Nat) : (m.alertSet b).adc = m.adc := by
 unfold Hw.alertSet; simp only; split <;> rfl
@[simp] theorem Hw.alertSet_jrn (m : Hw) (b : Nat) : (m.alertSet b).jrn = m.jrn := by
 unfold Hw.alertSet; simp only; split <;> rfl
@[simp] theorem Hw.alertSet_tkt (m : Hw) (b : Nat) : (m.alertSet b).tkt = m.tkt := by
 unfold Hw.alertSet; simp only; split <;> rfl
@[simp] theorem Hw.alertSet_twin (m : Hw) (b : Nat) : (m.alertSet b).twin = m.twin := by
 unfold Hw.alertSet; simp only; split <;> rfl
@[simp] theorem Hw.alertSet_hp (m : Hw) (b : Nat) : (m.alertSet b).hp = m.hp := by
 unfold Hw.alertSet; simp only; split <;> rfl
@[simp] theorem Hw.alertSet_bus (m : Hw) (b : Nat) : (m.alertSet b).bus = m.bus := by
 unfold Hw.alertSet; simp only; split <;> rfl
@[simp] theorem Hw.alertSet_wdg (m : Hw) (b : Nat) : (m.alertSet b).wdg = m.wdg := by
 unfold Hw.alertSet; simp only; split <;> rfl
@[simp] theorem Hw.alertSet_hwdg (m : Hw) (b : Nat) : (m.alertSet b).hwdg = m.hwdg := by
 unfold Hw.alertSet; simp only; split <;> rfl
@[simp] theorem Hw.alertSet_bist (m : Hw) (b : Nat) : (m.alertSet b).bist = m.bist := by
 unfold Hw.alertSet; simp only; split <;> rfl
@[simp] theorem Hw.alertSet_upd (m : Hw) (b : Nat) : (m.alertSet b).upd = m.upd := by
 unfold Hw.alertSet; simp only; split <;> rfl
@[simp] theorem Hw.alertSet_lb (m : Hw) (b : Nat) : (m.alertSet b).lb = m.lb := by
 unfold Hw.alertSet; simp only; split <;> rfl
@[simp] theorem Hw.alertSet_sub (m : Hw) (b : Nat) : (m.alertSet b).sub = m.sub := by
 unfold Hw.alertSet; simp only; split <;> rfl
@[simp] theorem Hw.alertSet_freeCtr (m : Hw) (b : Nat) : (m.alertSet b).freeCtr = m.freeCtr := by
 unfold Hw.alertSet; simp only; split <;> rfl

/-- A word that tells of a new host image's trap, its missing check-in or a MAJOR fault changes the record of the update
alone. -/
theorem Hw.probHeard_only (m : Hw) (w : FaultWord) : m.probHeard w = { m with upd := (m.probHeard w).upd } := by
  unfold Hw.probHeard
  simp only
  split
  · split <;> rfl
  · rfl

/-- Where no host image is on probation the word changes nothing. -/
theorem Hw.probHeard_of_none {m : Hw} (h : m.upd.prob = none) (w : FaultWord) : m.probHeard w = m := by
  unfold Hw.probHeard
  simp only [h]

@[simp] theorem Hw.probHeard_regs (m : Hw) (w : FaultWord) : (m.probHeard w).regs = m.regs := by
  rw [Hw.probHeard_only]
@[simp] theorem Hw.probHeard_arch (m : Hw) (w : FaultWord) : (m.probHeard w).arch = m.arch := by
  rw [Hw.probHeard_only]
@[simp] theorem Hw.probHeard_seq (m : Hw) (w : FaultWord) : (m.probHeard w).seq = m.seq := by
  rw [Hw.probHeard_only]
@[simp] theorem Hw.probHeard_intake (m : Hw) (w : FaultWord) : (m.probHeard w).intake = m.intake := by
  rw [Hw.probHeard_only]
@[simp] theorem Hw.probHeard_xfer (m : Hw) (w : FaultWord) : (m.probHeard w).xfer = m.xfer := by
  rw [Hw.probHeard_only]
@[simp] theorem Hw.probHeard_ph (m : Hw) (w : FaultWord) : (m.probHeard w).ph = m.ph := by
  rw [Hw.probHeard_only]
@[simp] theorem Hw.probHeard_bat (m : Hw) (w : FaultWord) : (m.probHeard w).bat = m.bat := by
  rw [Hw.probHeard_only]
@[simp] theorem Hw.probHeard_chg (m : Hw) (w : FaultWord) : (m.probHeard w).chg = m.chg := by
  rw [Hw.probHeard_only]
@[simp] theorem Hw.probHeard_rails (m : Hw) (w : FaultWord) : (m.probHeard w).rails = m.rails := by
  rw [Hw.probHeard_only]
@[simp] theorem Hw.probHeard_rl (m : Hw) (w : FaultWord) : (m.probHeard w).rl = m.rl := by
  rw [Hw.probHeard_only]
@[simp] theorem Hw.probHeard_cable (m : Hw) (w : FaultWord) : (m.probHeard w).cable = m.cable := by
  rw [Hw.probHeard_only]
@[simp] theorem Hw.probHeard_flt (m : Hw) (w : FaultWord) : (m.probHeard w).flt = m.flt := by
  rw [Hw.probHeard_only]
@[simp] theorem Hw.probHeard_host (m : Hw) (w : FaultWord) : (m.probHeard w).host = m.host := by
  rw [Hw.probHeard_only]
@[simp] theorem Hw.probHeard_modes (m : Hw) (w : FaultWord) : (m.probHeard w).modes = m.modes := by
  rw [Hw.probHeard_only]
@[simp] theorem Hw.probHeard_adc (m : Hw) (w : FaultWord) : (m.probHeard w).adc = m.adc := by
  rw [Hw.probHeard_only]
@[simp] theorem Hw.probHeard_jrn (m : Hw) (w : FaultWord) : (m.probHeard w).jrn = m.jrn := by
  rw [Hw.probHeard_only]
@[simp] theorem Hw.probHeard_tkt (m : Hw) (w : FaultWord) : (m.probHeard w).tkt = m.tkt := by
  rw [Hw.probHeard_only]
@[simp] theorem Hw.probHeard_twin (m : Hw) (w : FaultWord) : (m.probHeard w).twin = m.twin := by
  rw [Hw.probHeard_only]
@[simp] theorem Hw.probHeard_hp (m : Hw) (w : FaultWord) : (m.probHeard w).hp = m.hp := by
  rw [Hw.probHeard_only]
@[simp] theorem Hw.probHeard_bus (m : Hw) (w : FaultWord) : (m.probHeard w).bus = m.bus := by
  rw [Hw.probHeard_only]
@[simp] theorem Hw.probHeard_wdg (m : Hw) (w : FaultWord) : (m.probHeard w).wdg = m.wdg := by
  rw [Hw.probHeard_only]
@[simp] theorem Hw.probHeard_hwdg (m : Hw) (w : FaultWord) : (m.probHeard w).hwdg = m.hwdg := by
  rw [Hw.probHeard_only]
@[simp] theorem Hw.probHeard_bist (m : Hw) (w : FaultWord) : (m.probHeard w).bist = m.bist := by
  rw [Hw.probHeard_only]
@[simp] theorem Hw.probHeard_lb (m : Hw) (w : FaultWord) : (m.probHeard w).lb = m.lb := by
  rw [Hw.probHeard_only]
@[simp] theorem Hw.probHeard_sub (m : Hw) (w : FaultWord) : (m.probHeard w).sub = m.sub := by
  rw [Hw.probHeard_only]
@[simp] theorem Hw.probHeard_freeCtr (m : Hw) (w : FaultWord) : (m.probHeard w).freeCtr = m.freeCtr := by
  rw [Hw.probHeard_only]
@[simp] theorem Hw.probHeard_prob (m : Hw) (w : FaultWord) : (m.probHeard w).upd.prob = m.upd.prob := by
  unfold Hw.probHeard
  simp only
  split
  · split <;> simp_all
  · rfl

@[simp] theorem Hw.hfaultW_seq (m : Hw) (w : FaultWord) : (m.hfaultW w).seq = m.seq := by
 unfold Hw.hfaultW; simp only; split <;> simp
@[simp] theorem Hw.hfaultW_intake (m : Hw) (w : FaultWord) : (m.hfaultW w).intake = m.intake := by
 unfold Hw.hfaultW; simp only; split <;> simp
@[simp] theorem Hw.hfaultW_xfer (m : Hw) (w : FaultWord) : (m.hfaultW w).xfer = m.xfer := by
 unfold Hw.hfaultW; simp only; split <;> simp
@[simp] theorem Hw.hfaultW_ph (m : Hw) (w : FaultWord) : (m.hfaultW w).ph = m.ph := by
 unfold Hw.hfaultW; simp only; split <;> simp
@[simp] theorem Hw.hfaultW_bat (m : Hw) (w : FaultWord) : (m.hfaultW w).bat = m.bat := by
 unfold Hw.hfaultW; simp only; split <;> simp
@[simp] theorem Hw.hfaultW_chg (m : Hw) (w : FaultWord) : (m.hfaultW w).chg = m.chg := by
 unfold Hw.hfaultW; simp only; split <;> simp
@[simp] theorem Hw.hfaultW_rails (m : Hw) (w : FaultWord) : (m.hfaultW w).rails = m.rails := by
 unfold Hw.hfaultW; simp only; split <;> simp
@[simp] theorem Hw.hfaultW_rl (m : Hw) (w : FaultWord) : (m.hfaultW w).rl = m.rl := by
 unfold Hw.hfaultW; simp only; split <;> simp
@[simp] theorem Hw.hfaultW_cable (m : Hw) (w : FaultWord) : (m.hfaultW w).cable = m.cable := by
 unfold Hw.hfaultW; simp only; split <;> simp
@[simp] theorem Hw.hfaultW_modes (m : Hw) (w : FaultWord) : (m.hfaultW w).modes = m.modes := by
 unfold Hw.hfaultW; simp only; split <;> simp
@[simp] theorem Hw.hfaultW_adc (m : Hw) (w : FaultWord) : (m.hfaultW w).adc = m.adc := by
 unfold Hw.hfaultW; simp only; split <;> simp
@[simp] theorem Hw.hfaultW_jrn (m : Hw) (w : FaultWord) : (m.hfaultW w).jrn = m.jrn := by
 unfold Hw.hfaultW; simp only; split <;> simp
@[simp] theorem Hw.hfaultW_tkt (m : Hw) (w : FaultWord) : (m.hfaultW w).tkt = m.tkt := by
 unfold Hw.hfaultW; simp only; split <;> simp
@[simp] theorem Hw.hfaultW_twin (m : Hw) (w : FaultWord) : (m.hfaultW w).twin = m.twin := by
 unfold Hw.hfaultW; simp only; split <;> simp
@[simp] theorem Hw.hfaultW_hp (m : Hw) (w : FaultWord) : (m.hfaultW w).hp = m.hp := by
 unfold Hw.hfaultW; simp only; split <;> simp
@[simp] theorem Hw.hfaultW_bus (m : Hw) (w : FaultWord) : (m.hfaultW w).bus = m.bus := by
 unfold Hw.hfaultW; simp only; split <;> simp
@[simp] theorem Hw.hfaultW_wdg (m : Hw) (w : FaultWord) : (m.hfaultW w).wdg = m.wdg := by
 unfold Hw.hfaultW; simp only; split <;> simp
@[simp] theorem Hw.hfaultW_hwdg (m : Hw) (w : FaultWord) : (m.hfaultW w).hwdg = m.hwdg := by
 unfold Hw.hfaultW; simp only; split <;> simp
@[simp] theorem Hw.hfaultW_bist (m : Hw) (w : FaultWord) : (m.hfaultW w).bist = m.bist := by
 unfold Hw.hfaultW; simp only; split <;> simp
/-- The record of the update after a host-side word: only what the word tells of a new host image. -/
@[simp] theorem Hw.hfaultW_upd (m : Hw) (w : FaultWord) : (m.hfaultW w).upd = (m.probHeard w).upd := by
  unfold Hw.hfaultW
  simp only
  split <;> simp [Hw.probHeard] <;> grind
@[simp] theorem Hw.hfaultW_lb (m : Hw) (w : FaultWord) : (m.hfaultW w).lb = m.lb := by
 unfold Hw.hfaultW; simp only; split <;> simp
@[simp] theorem Hw.hfaultW_sub (m : Hw) (w : FaultWord) : (m.hfaultW w).sub = m.sub := by
 unfold Hw.hfaultW; simp only; split <;> simp
@[simp] theorem Hw.hfaultW_freeCtr (m : Hw) (w : FaultWord) : (m.hfaultW w).freeCtr = m.freeCtr := by
 unfold Hw.hfaultW; simp only; split <;> simp

@[simp] theorem Hw.hfault_seq (m : Hw) (k : FaultKind) (d : Nat) : (m.hfault k d).seq = m.seq := Hw.hfaultW_seq ..
@[simp] theorem Hw.hfault_intake (m : Hw) (k : FaultKind) (d : Nat) : (m.hfault k d).intake = m.intake := Hw.hfaultW_intake ..
@[simp] theorem Hw.hfault_xfer (m : Hw) (k : FaultKind) (d : Nat) : (m.hfault k d).xfer = m.xfer := Hw.hfaultW_xfer ..
@[simp] theorem Hw.hfault_ph (m : Hw) (k : FaultKind) (d : Nat) : (m.hfault k d).ph = m.ph := Hw.hfaultW_ph ..
@[simp] theorem Hw.hfault_bat (m : Hw) (k : FaultKind) (d : Nat) : (m.hfault k d).bat = m.bat := Hw.hfaultW_bat ..
@[simp] theorem Hw.hfault_chg (m : Hw) (k : FaultKind) (d : Nat) : (m.hfault k d).chg = m.chg := Hw.hfaultW_chg ..
@[simp] theorem Hw.hfault_rails (m : Hw) (k : FaultKind) (d : Nat) : (m.hfault k d).rails = m.rails := Hw.hfaultW_rails ..
@[simp] theorem Hw.hfault_rl (m : Hw) (k : FaultKind) (d : Nat) : (m.hfault k d).rl = m.rl := Hw.hfaultW_rl ..
@[simp] theorem Hw.hfault_cable (m : Hw) (k : FaultKind) (d : Nat) : (m.hfault k d).cable = m.cable := Hw.hfaultW_cable ..
@[simp] theorem Hw.hfault_modes (m : Hw) (k : FaultKind) (d : Nat) : (m.hfault k d).modes = m.modes := Hw.hfaultW_modes ..
@[simp] theorem Hw.hfault_adc (m : Hw) (k : FaultKind) (d : Nat) : (m.hfault k d).adc = m.adc := Hw.hfaultW_adc ..
@[simp] theorem Hw.hfault_jrn (m : Hw) (k : FaultKind) (d : Nat) : (m.hfault k d).jrn = m.jrn := Hw.hfaultW_jrn ..
@[simp] theorem Hw.hfault_tkt (m : Hw) (k : FaultKind) (d : Nat) : (m.hfault k d).tkt = m.tkt := Hw.hfaultW_tkt ..
@[simp] theorem Hw.hfault_twin (m : Hw) (k : FaultKind) (d : Nat) : (m.hfault k d).twin = m.twin := Hw.hfaultW_twin ..
@[simp] theorem Hw.hfault_hp (m : Hw) (k : FaultKind) (d : Nat) : (m.hfault k d).hp = m.hp := Hw.hfaultW_hp ..
@[simp] theorem Hw.hfault_bus (m : Hw) (k : FaultKind) (d : Nat) : (m.hfault k d).bus = m.bus := Hw.hfaultW_bus ..
@[simp] theorem Hw.hfault_wdg (m : Hw) (k : FaultKind) (d : Nat) : (m.hfault k d).wdg = m.wdg := Hw.hfaultW_wdg ..
@[simp] theorem Hw.hfault_hwdg (m : Hw) (k : FaultKind) (d : Nat) : (m.hfault k d).hwdg = m.hwdg := Hw.hfaultW_hwdg ..
@[simp] theorem Hw.hfault_bist (m : Hw) (k : FaultKind) (d : Nat) : (m.hfault k d).bist = m.bist := Hw.hfaultW_bist ..
@[simp] theorem Hw.hfault_upd (m : Hw) (k : FaultKind) (d : Nat) :
    (m.hfault k d).upd = (m.probHeard ⟨k.src, k.code, k.sev, satN 14 d⟩).upd := Hw.hfaultW_upd ..
@[simp] theorem Hw.hfault_lb (m : Hw) (k : FaultKind) (d : Nat) : (m.hfault k d).lb = m.lb := Hw.hfaultW_lb ..
@[simp] theorem Hw.hfault_sub (m : Hw) (k : FaultKind) (d : Nat) : (m.hfault k d).sub = m.sub := Hw.hfaultW_sub ..
@[simp] theorem Hw.hfault_freeCtr (m : Hw) (k : FaultKind) (d : Nat) : (m.hfault k d).freeCtr = m.freeCtr := Hw.hfaultW_freeCtr ..

@[simp] theorem Hw.hfaultAt_seq (m : Hw) (k : FaultKind) (src d : Nat) : (m.hfaultAt k src d).seq = m.seq := Hw.hfaultW_seq ..
@[simp] theorem Hw.hfaultAt_intake (m : Hw) (k : FaultKind) (src d : Nat) : (m.hfaultAt k src d).intake = m.intake := Hw.hfaultW_intake ..
@[simp] theorem Hw.hfaultAt_xfer (m : Hw) (k : FaultKind) (src d : Nat) : (m.hfaultAt k src d).xfer = m.xfer := Hw.hfaultW_xfer ..
@[simp] theorem Hw.hfaultAt_ph (m : Hw) (k : FaultKind) (src d : Nat) : (m.hfaultAt k src d).ph = m.ph := Hw.hfaultW_ph ..
@[simp] theorem Hw.hfaultAt_bat (m : Hw) (k : FaultKind) (src d : Nat) : (m.hfaultAt k src d).bat = m.bat := Hw.hfaultW_bat ..
@[simp] theorem Hw.hfaultAt_chg (m : Hw) (k : FaultKind) (src d : Nat) : (m.hfaultAt k src d).chg = m.chg := Hw.hfaultW_chg ..
@[simp] theorem Hw.hfaultAt_rails (m : Hw) (k : FaultKind) (src d : Nat) : (m.hfaultAt k src d).rails = m.rails := Hw.hfaultW_rails ..
@[simp] theorem Hw.hfaultAt_rl (m : Hw) (k : FaultKind) (src d : Nat) : (m.hfaultAt k src d).rl = m.rl := Hw.hfaultW_rl ..
@[simp] theorem Hw.hfaultAt_cable (m : Hw) (k : FaultKind) (src d : Nat) : (m.hfaultAt k src d).cable = m.cable := Hw.hfaultW_cable ..
@[simp] theorem Hw.hfaultAt_modes (m : Hw) (k : FaultKind) (src d : Nat) : (m.hfaultAt k src d).modes = m.modes := Hw.hfaultW_modes ..
@[simp] theorem Hw.hfaultAt_adc (m : Hw) (k : FaultKind) (src d : Nat) : (m.hfaultAt k src d).adc = m.adc := Hw.hfaultW_adc ..
@[simp] theorem Hw.hfaultAt_jrn (m : Hw) (k : FaultKind) (src d : Nat) : (m.hfaultAt k src d).jrn = m.jrn := Hw.hfaultW_jrn ..
@[simp] theorem Hw.hfaultAt_tkt (m : Hw) (k : FaultKind) (src d : Nat) : (m.hfaultAt k src d).tkt = m.tkt := Hw.hfaultW_tkt ..
@[simp] theorem Hw.hfaultAt_twin (m : Hw) (k : FaultKind) (src d : Nat) : (m.hfaultAt k src d).twin = m.twin := Hw.hfaultW_twin ..
@[simp] theorem Hw.hfaultAt_hp (m : Hw) (k : FaultKind) (src d : Nat) : (m.hfaultAt k src d).hp = m.hp := Hw.hfaultW_hp ..
@[simp] theorem Hw.hfaultAt_bus (m : Hw) (k : FaultKind) (src d : Nat) : (m.hfaultAt k src d).bus = m.bus := Hw.hfaultW_bus ..
@[simp] theorem Hw.hfaultAt_wdg (m : Hw) (k : FaultKind) (src d : Nat) : (m.hfaultAt k src d).wdg = m.wdg := Hw.hfaultW_wdg ..
@[simp] theorem Hw.hfaultAt_hwdg (m : Hw) (k : FaultKind) (src d : Nat) : (m.hfaultAt k src d).hwdg = m.hwdg := Hw.hfaultW_hwdg ..
@[simp] theorem Hw.hfaultAt_bist (m : Hw) (k : FaultKind) (src d : Nat) : (m.hfaultAt k src d).bist = m.bist := Hw.hfaultW_bist ..
@[simp] theorem Hw.hfaultAt_upd (m : Hw) (k : FaultKind) (src d : Nat) :
    (m.hfaultAt k src d).upd = (m.probHeard ⟨src, k.code, k.sev, satN 14 d⟩).upd := Hw.hfaultW_upd ..
@[simp] theorem Hw.hfaultAt_lb (m : Hw) (k : FaultKind) (src d : Nat) : (m.hfaultAt k src d).lb = m.lb := Hw.hfaultW_lb ..
@[simp] theorem Hw.hfaultAt_sub (m : Hw) (k : FaultKind) (src d : Nat) : (m.hfaultAt k src d).sub = m.sub := Hw.hfaultW_sub ..
@[simp] theorem Hw.hfaultAt_freeCtr (m : Hw) (k : FaultKind) (src d : Nat) : (m.hfaultAt k src d).freeCtr = m.freeCtr := Hw.hfaultW_freeCtr ..

/-- A message that the host side sends changes its link end and its mailbox's note of sequences alone. -/
theorem Hw.sendH_only (m : Hw) (type stream : Nat) (p : List Byte) :
    m.sendH type stream p = { m with host := (m.sendH type stream p).host } := by
  unfold Hw.sendH
  simp only
  split <;> rfl

@[simp] theorem Hw.sendH_arch (m : Hw) (type stream : Nat) (p : List Byte) : (m.sendH type stream p).arch = m.arch := by
  rw [Hw.sendH_only]
@[simp] theorem Hw.sendH_seq (m : Hw) (type stream : Nat) (p : List Byte) : (m.sendH type stream p).seq = m.seq := by
  rw [Hw.sendH_only]
@[simp] theorem Hw.sendH_intake (m : Hw) (type stream : Nat) (p : List Byte) : (m.sendH type stream p).intake = m.intake := by
  rw [Hw.sendH_only]
@[simp] theorem Hw.sendH_xfer (m : Hw) (type stream : Nat) (p : List Byte) : (m.sendH type stream p).xfer = m.xfer := by
  rw [Hw.sendH_only]
@[simp] theorem Hw.sendH_ph (m : Hw) (type stream : Nat) (p : List Byte) : (m.sendH type stream p).ph = m.ph := by
  rw [Hw.sendH_only]
@[simp] theorem Hw.sendH_bat (m : Hw) (type stream : Nat) (p : List Byte) : (m.sendH type stream p).bat = m.bat := by
  rw [Hw.sendH_only]
@[simp] theorem Hw.sendH_chg (m : Hw) (type stream : Nat) (p : List Byte) : (m.sendH type stream p).chg = m.chg := by
  rw [Hw.sendH_only]
@[simp] theorem Hw.sendH_rails (m : Hw) (type stream : Nat) (p : List Byte) : (m.sendH type stream p).rails = m.rails := by
  rw [Hw.sendH_only]
@[simp] theorem Hw.sendH_rl (m : Hw) (type stream : Nat) (p : List Byte) : (m.sendH type stream p).rl = m.rl := by
  rw [Hw.sendH_only]
@[simp] theorem Hw.sendH_cable (m : Hw) (type stream : Nat) (p : List Byte) : (m.sendH type stream p).cable = m.cable := by
  rw [Hw.sendH_only]
@[simp] theorem Hw.sendH_flt (m : Hw) (type stream : Nat) (p : List Byte) : (m.sendH type stream p).flt = m.flt := by
  rw [Hw.sendH_only]
@[simp] theorem Hw.sendH_modes (m : Hw) (type stream : Nat) (p : List Byte) : (m.sendH type stream p).modes = m.modes := by
  rw [Hw.sendH_only]
@[simp] theorem Hw.sendH_adc (m : Hw) (type stream : Nat) (p : List Byte) : (m.sendH type stream p).adc = m.adc := by
  rw [Hw.sendH_only]
@[simp] theorem Hw.sendH_jrn (m : Hw) (type stream : Nat) (p : List Byte) : (m.sendH type stream p).jrn = m.jrn := by
  rw [Hw.sendH_only]
@[simp] theorem Hw.sendH_tkt (m : Hw) (type stream : Nat) (p : List Byte) : (m.sendH type stream p).tkt = m.tkt := by
  rw [Hw.sendH_only]
@[simp] theorem Hw.sendH_twin (m : Hw) (type stream : Nat) (p : List Byte) : (m.sendH type stream p).twin = m.twin := by
  rw [Hw.sendH_only]
@[simp] theorem Hw.sendH_hp (m : Hw) (type stream : Nat) (p : List Byte) : (m.sendH type stream p).hp = m.hp := by
  rw [Hw.sendH_only]
@[simp] theorem Hw.sendH_bus (m : Hw) (type stream : Nat) (p : List Byte) : (m.sendH type stream p).bus = m.bus := by
  rw [Hw.sendH_only]
@[simp] theorem Hw.sendH_wdg (m : Hw) (type stream : Nat) (p : List Byte) : (m.sendH type stream p).wdg = m.wdg := by
  rw [Hw.sendH_only]
@[simp] theorem Hw.sendH_hwdg (m : Hw) (type stream : Nat) (p : List Byte) : (m.sendH type stream p).hwdg = m.hwdg := by
  rw [Hw.sendH_only]
@[simp] theorem Hw.sendH_bist (m : Hw) (type stream : Nat) (p : List Byte) : (m.sendH type stream p).bist = m.bist := by
  rw [Hw.sendH_only]
@[simp] theorem Hw.sendH_upd (m : Hw) (type stream : Nat) (p : List Byte) : (m.sendH type stream p).upd = m.upd := by
  rw [Hw.sendH_only]
@[simp] theorem Hw.sendH_lb (m : Hw) (type stream : Nat) (p : List Byte) : (m.sendH type stream p).lb = m.lb := by
  rw [Hw.sendH_only]
@[simp] theorem Hw.sendH_sub (m : Hw) (type stream : Nat) (p : List Byte) : (m.sendH type stream p).sub = m.sub := by
  rw [Hw.sendH_only]
@[simp] theorem Hw.sendH_freeCtr (m : Hw) (type stream : Nat) (p : List Byte) : (m.sendH type stream p).freeCtr = m.freeCtr := by
  rw [Hw.sendH_only]

@[simp] theorem Hw.recordH_arch (m : Hw) (k : RecKind) (src : Nat) (p : List Byte) : (m.recordH k src p).arch = m.arch := Hw.sendH_arch ..
@[simp] theorem Hw.recordH_seq (m : Hw) (k : RecKind) (src : Nat) (p : List Byte) : (m.recordH k src p).seq = m.seq := Hw.sendH_seq ..
@[simp] theorem Hw.recordH_intake (m : Hw) (k : RecKind) (src : Nat) (p : List Byte) : (m.recordH k src p).intake = m.intake := Hw.sendH_intake ..
@[simp] theorem Hw.recordH_xfer (m : Hw) (k : RecKind) (src : Nat) (p : List Byte) : (m.recordH k src p).xfer = m.xfer := Hw.sendH_xfer ..
@[simp] theorem Hw.recordH_ph (m : Hw) (k : RecKind) (src : Nat) (p : List Byte) : (m.recordH k src p).ph = m.ph := Hw.sendH_ph ..
@[simp] theorem Hw.recordH_bat (m : Hw) (k : RecKind) (src : Nat) (p : List Byte) : (m.recordH k src p).bat = m.bat := Hw.sendH_bat ..
@[simp] theorem Hw.recordH_chg (m : Hw) (k : RecKind) (src : Nat) (p : List Byte) : (m.recordH k src p).chg = m.chg := Hw.sendH_chg ..
@[simp] theorem Hw.recordH_rails (m : Hw) (k : RecKind) (src : Nat) (p : List Byte) : (m.recordH k src p).rails = m.rails := Hw.sendH_rails ..
@[simp] theorem Hw.recordH_rl (m : Hw) (k : RecKind) (src : Nat) (p : List Byte) : (m.recordH k src p).rl = m.rl := Hw.sendH_rl ..
@[simp] theorem Hw.recordH_cable (m : Hw) (k : RecKind) (src : Nat) (p : List Byte) : (m.recordH k src p).cable = m.cable := Hw.sendH_cable ..
@[simp] theorem Hw.recordH_flt (m : Hw) (k : RecKind) (src : Nat) (p : List Byte) : (m.recordH k src p).flt = m.flt := Hw.sendH_flt ..
@[simp] theorem Hw.recordH_modes (m : Hw) (k : RecKind) (src : Nat) (p : List Byte) : (m.recordH k src p).modes = m.modes := Hw.sendH_modes ..
@[simp] theorem Hw.recordH_adc (m : Hw) (k : RecKind) (src : Nat) (p : List Byte) : (m.recordH k src p).adc = m.adc := Hw.sendH_adc ..
@[simp] theorem Hw.recordH_jrn (m : Hw) (k : RecKind) (src : Nat) (p : List Byte) : (m.recordH k src p).jrn = m.jrn := Hw.sendH_jrn ..
@[simp] theorem Hw.recordH_tkt (m : Hw) (k : RecKind) (src : Nat) (p : List Byte) : (m.recordH k src p).tkt = m.tkt := Hw.sendH_tkt ..
@[simp] theorem Hw.recordH_twin (m : Hw) (k : RecKind) (src : Nat) (p : List Byte) : (m.recordH k src p).twin = m.twin := Hw.sendH_twin ..
@[simp] theorem Hw.recordH_hp (m : Hw) (k : RecKind) (src : Nat) (p : List Byte) : (m.recordH k src p).hp = m.hp := Hw.sendH_hp ..
@[simp] theorem Hw.recordH_bus (m : Hw) (k : RecKind) (src : Nat) (p : List Byte) : (m.recordH k src p).bus = m.bus := Hw.sendH_bus ..
@[simp] theorem Hw.recordH_wdg (m : Hw) (k : RecKind) (src : Nat) (p : List Byte) : (m.recordH k src p).wdg = m.wdg := Hw.sendH_wdg ..
@[simp] theorem Hw.recordH_hwdg (m : Hw) (k : RecKind) (src : Nat) (p : List Byte) : (m.recordH k src p).hwdg = m.hwdg := Hw.sendH_hwdg ..
@[simp] theorem Hw.recordH_bist (m : Hw) (k : RecKind) (src : Nat) (p : List Byte) : (m.recordH k src p).bist = m.bist := Hw.sendH_bist ..
@[simp] theorem Hw.recordH_upd (m : Hw) (k : RecKind) (src : Nat) (p : List Byte) : (m.recordH k src p).upd = m.upd := Hw.sendH_upd ..
@[simp] theorem Hw.recordH_lb (m : Hw) (k : RecKind) (src : Nat) (p : List Byte) : (m.recordH k src p).lb = m.lb := Hw.sendH_lb ..
@[simp] theorem Hw.recordH_sub (m : Hw) (k : RecKind) (src : Nat) (p : List Byte) : (m.recordH k src p).sub = m.sub := Hw.sendH_sub ..
@[simp] theorem Hw.recordH_freeCtr (m : Hw) (k : RecKind) (src : Nat) (p : List Byte) : (m.recordH k src p).freeCtr = m.freeCtr := Hw.sendH_freeCtr ..

@[simp] theorem Hw.batfet_arch (m : Hw) : (m.batfet ).arch = m.arch := rfl
@[simp] theorem Hw.batfet_seq (m : Hw) : (m.batfet ).seq = m.seq := rfl
@[simp] theorem Hw.batfet_intake (m : Hw) : (m.batfet ).intake = m.intake := rfl
@[simp] theorem Hw.batfet_xfer (m : Hw) : (m.batfet ).xfer = m.xfer := rfl
@[simp] theorem Hw.batfet_ph (m : Hw) : (m.batfet ).ph = m.ph := rfl
@[simp] theorem Hw.batfet_bat (m : Hw) : (m.batfet ).bat = m.bat := rfl
@[simp] theorem Hw.batfet_chg (m : Hw) : (m.batfet ).chg = m.chg := rfl
@[simp] theorem Hw.batfet_rails (m : Hw) : (m.batfet ).rails = m.rails := rfl
@[simp] theorem Hw.batfet_rl (m : Hw) : (m.batfet ).rl = m.rl := rfl
@[simp] theorem Hw.batfet_cable (m : Hw) : (m.batfet ).cable = m.cable := rfl
@[simp] theorem Hw.batfet_flt (m : Hw) : (m.batfet ).flt = m.flt := rfl
@[simp] theorem Hw.batfet_host (m : Hw) : (m.batfet ).host = m.host := rfl
@[simp] theorem Hw.batfet_modes (m : Hw) : (m.batfet ).modes = m.modes := rfl
@[simp] theorem Hw.batfet_adc (m : Hw) : (m.batfet ).adc = m.adc := rfl
@[simp] theorem Hw.batfet_jrn (m : Hw) : (m.batfet ).jrn = m.jrn := rfl
@[simp] theorem Hw.batfet_tkt (m : Hw) : (m.batfet ).tkt = m.tkt := rfl
@[simp] theorem Hw.batfet_twin (m : Hw) : (m.batfet ).twin = m.twin := rfl
@[simp] theorem Hw.batfet_hp (m : Hw) : (m.batfet ).hp = m.hp := rfl
@[simp] theorem Hw.batfet_bus (m : Hw) : (m.batfet ).bus = m.bus := rfl
@[simp] theorem Hw.batfet_wdg (m : Hw) : (m.batfet ).wdg = m.wdg := rfl
@[simp] theorem Hw.batfet_hwdg (m : Hw) : (m.batfet ).hwdg = m.hwdg := rfl
@[simp] theorem Hw.batfet_bist (m : Hw) : (m.batfet ).bist = m.bist := rfl
@[simp] theorem Hw.batfet_upd (m : Hw) : (m.batfet ).upd = m.upd := rfl
@[simp] theorem Hw.batfet_lb (m : Hw) : (m.batfet ).lb = m.lb := rfl
@[simp] theorem Hw.batfet_sub (m : Hw) : (m.batfet ).sub = m.sub := rfl
@[simp] theorem Hw.batfet_freeCtr (m : Hw) : (m.batfet ).freeCtr = m.freeCtr := rfl

@[simp] theorem Hw.clearChgEn_arch (m : Hw) : (m.clearChgEn ).arch = { m.arch with
    shadows := m.arch.shadows.map fun (x : Shadow) => if x.latch = .chgEn then { x with value := 0 } else x } := rfl
@[simp] theorem Hw.clearChgEn_seq (m : Hw) : (m.clearChgEn ).seq = m.seq := rfl
@[simp] theorem Hw.clearChgEn_intake (m : Hw) : (m.clearChgEn ).intake = m.intake := rfl
@[simp] theorem Hw.clearChgEn_xfer (m : Hw) : (m.clearChgEn ).xfer = m.xfer := rfl
@[simp] theorem Hw.clearChgEn_ph (m : Hw) : (m.clearChgEn ).ph = m.ph := rfl
@[simp] theorem Hw.clearChgEn_bat (m : Hw) : (m.clearChgEn ).bat = m.bat := rfl
@[simp] theorem Hw.clearChgEn_chg (m : Hw) : (m.clearChgEn ).chg = m.chg := rfl
@[simp] theorem Hw.clearChgEn_rails (m : Hw) : (m.clearChgEn ).rails = m.rails := rfl
@[simp] theorem Hw.clearChgEn_rl (m : Hw) : (m.clearChgEn ).rl = m.rl := rfl
@[simp] theorem Hw.clearChgEn_cable (m : Hw) : (m.clearChgEn ).cable = m.cable := rfl
@[simp] theorem Hw.clearChgEn_flt (m : Hw) : (m.clearChgEn ).flt = m.flt := rfl
@[simp] theorem Hw.clearChgEn_host (m : Hw) : (m.clearChgEn ).host = m.host := rfl
@[simp] theorem Hw.clearChgEn_modes (m : Hw) : (m.clearChgEn ).modes = m.modes := rfl
@[simp] theorem Hw.clearChgEn_adc (m : Hw) : (m.clearChgEn ).adc = m.adc := rfl
@[simp] theorem Hw.clearChgEn_jrn (m : Hw) : (m.clearChgEn ).jrn = m.jrn := rfl
@[simp] theorem Hw.clearChgEn_tkt (m : Hw) : (m.clearChgEn ).tkt = m.tkt := rfl
@[simp] theorem Hw.clearChgEn_twin (m : Hw) : (m.clearChgEn ).twin = m.twin := rfl
@[simp] theorem Hw.clearChgEn_hp (m : Hw) : (m.clearChgEn ).hp = m.hp := rfl
@[simp] theorem Hw.clearChgEn_bus (m : Hw) : (m.clearChgEn ).bus = m.bus := rfl
@[simp] theorem Hw.clearChgEn_wdg (m : Hw) : (m.clearChgEn ).wdg = m.wdg := rfl
@[simp] theorem Hw.clearChgEn_hwdg (m : Hw) : (m.clearChgEn ).hwdg = m.hwdg := rfl
@[simp] theorem Hw.clearChgEn_bist (m : Hw) : (m.clearChgEn ).bist = m.bist := rfl
@[simp] theorem Hw.clearChgEn_upd (m : Hw) : (m.clearChgEn ).upd = m.upd := rfl
@[simp] theorem Hw.clearChgEn_lb (m : Hw) : (m.clearChgEn ).lb = m.lb := rfl
@[simp] theorem Hw.clearChgEn_sub (m : Hw) : (m.clearChgEn ).sub = m.sub := rfl
@[simp] theorem Hw.clearChgEn_freeCtr (m : Hw) : (m.clearChgEn ).freeCtr = m.freeCtr := rfl

@[simp] theorem Hw.statPads_arch (m : Hw) : (m.statPads ).arch = m.arch := rfl
@[simp] theorem Hw.statPads_seq (m : Hw) : (m.statPads ).seq = m.seq := rfl
@[simp] theorem Hw.statPads_intake (m : Hw) : (m.statPads ).intake = m.intake := rfl
@[simp] theorem Hw.statPads_xfer (m : Hw) : (m.statPads ).xfer = m.xfer := rfl
@[simp] theorem Hw.statPads_ph (m : Hw) : (m.statPads ).ph = m.ph := rfl
@[simp] theorem Hw.statPads_bat (m : Hw) : (m.statPads ).bat = m.bat := rfl
@[simp] theorem Hw.statPads_chg (m : Hw) : (m.statPads ).chg = m.chg := rfl
@[simp] theorem Hw.statPads_rails (m : Hw) : (m.statPads ).rails = m.rails := rfl
@[simp] theorem Hw.statPads_rl (m : Hw) : (m.statPads ).rl = m.rl := rfl
@[simp] theorem Hw.statPads_cable (m : Hw) : (m.statPads ).cable = m.cable := rfl
@[simp] theorem Hw.statPads_flt (m : Hw) : (m.statPads ).flt = m.flt := rfl
@[simp] theorem Hw.statPads_host (m : Hw) : (m.statPads ).host = m.host := rfl
@[simp] theorem Hw.statPads_modes (m : Hw) : (m.statPads ).modes = m.modes := rfl
@[simp] theorem Hw.statPads_adc (m : Hw) : (m.statPads ).adc = m.adc := rfl
@[simp] theorem Hw.statPads_jrn (m : Hw) : (m.statPads ).jrn = m.jrn := rfl
@[simp] theorem Hw.statPads_tkt (m : Hw) : (m.statPads ).tkt = m.tkt := rfl
@[simp] theorem Hw.statPads_twin (m : Hw) : (m.statPads ).twin = m.twin := rfl
@[simp] theorem Hw.statPads_hp (m : Hw) : (m.statPads ).hp = m.hp := rfl
@[simp] theorem Hw.statPads_bus (m : Hw) : (m.statPads ).bus = m.bus := rfl
@[simp] theorem Hw.statPads_wdg (m : Hw) : (m.statPads ).wdg = m.wdg := rfl
@[simp] theorem Hw.statPads_hwdg (m : Hw) : (m.statPads ).hwdg = m.hwdg := rfl
@[simp] theorem Hw.statPads_bist (m : Hw) : (m.statPads ).bist = m.bist := rfl
@[simp] theorem Hw.statPads_upd (m : Hw) : (m.statPads ).upd = m.upd := rfl
@[simp] theorem Hw.statPads_lb (m : Hw) : (m.statPads ).lb = m.lb := rfl
@[simp] theorem Hw.statPads_sub (m : Hw) : (m.statPads ).sub = m.sub := rfl
@[simp] theorem Hw.statPads_freeCtr (m : Hw) : (m.statPads ).freeCtr = m.freeCtr := rfl

@[simp] theorem Hw.statEvent_arch (m : Hw) (i : Nat) : (m.statEvent i).arch = m.arch := rfl
@[simp] theorem Hw.statEvent_seq (m : Hw) (i : Nat) : (m.statEvent i).seq = m.seq := rfl
@[simp] theorem Hw.statEvent_intake (m : Hw) (i : Nat) : (m.statEvent i).intake = m.intake := rfl
@[simp] theorem Hw.statEvent_xfer (m : Hw) (i : Nat) : (m.statEvent i).xfer = m.xfer := rfl
@[simp] theorem Hw.statEvent_ph (m : Hw) (i : Nat) : (m.statEvent i).ph = m.ph := rfl
@[simp] theorem Hw.statEvent_bat (m : Hw) (i : Nat) : (m.statEvent i).bat = m.bat := rfl
@[simp] theorem Hw.statEvent_chg (m : Hw) (i : Nat) : (m.statEvent i).chg = m.chg := rfl
@[simp] theorem Hw.statEvent_rails (m : Hw) (i : Nat) : (m.statEvent i).rails = m.rails := rfl
@[simp] theorem Hw.statEvent_rl (m : Hw) (i : Nat) : (m.statEvent i).rl = m.rl := rfl
@[simp] theorem Hw.statEvent_cable (m : Hw) (i : Nat) : (m.statEvent i).cable = m.cable := rfl
@[simp] theorem Hw.statEvent_flt (m : Hw) (i : Nat) : (m.statEvent i).flt = m.flt := rfl
@[simp] theorem Hw.statEvent_host (m : Hw) (i : Nat) : (m.statEvent i).host = m.host := rfl
@[simp] theorem Hw.statEvent_modes (m : Hw) (i : Nat) : (m.statEvent i).modes = m.modes := rfl
@[simp] theorem Hw.statEvent_adc (m : Hw) (i : Nat) : (m.statEvent i).adc = m.adc := rfl
@[simp] theorem Hw.statEvent_jrn (m : Hw) (i : Nat) : (m.statEvent i).jrn = m.jrn := rfl
@[simp] theorem Hw.statEvent_tkt (m : Hw) (i : Nat) : (m.statEvent i).tkt = m.tkt := rfl
@[simp] theorem Hw.statEvent_twin (m : Hw) (i : Nat) : (m.statEvent i).twin = m.twin := rfl
@[simp] theorem Hw.statEvent_hp (m : Hw) (i : Nat) : (m.statEvent i).hp = m.hp := rfl
@[simp] theorem Hw.statEvent_bus (m : Hw) (i : Nat) : (m.statEvent i).bus = m.bus := rfl
@[simp] theorem Hw.statEvent_wdg (m : Hw) (i : Nat) : (m.statEvent i).wdg = m.wdg := rfl
@[simp] theorem Hw.statEvent_hwdg (m : Hw) (i : Nat) : (m.statEvent i).hwdg = m.hwdg := rfl
@[simp] theorem Hw.statEvent_bist (m : Hw) (i : Nat) : (m.statEvent i).bist = m.bist := rfl
@[simp] theorem Hw.statEvent_upd (m : Hw) (i : Nat) : (m.statEvent i).upd = m.upd := rfl
@[simp] theorem Hw.statEvent_lb (m : Hw) (i : Nat) : (m.statEvent i).lb = m.lb := rfl
@[simp] theorem Hw.statEvent_sub (m : Hw) (i : Nat) : (m.statEvent i).sub = m.sub := rfl
@[simp] theorem Hw.statEvent_freeCtr (m : Hw) (i : Nat) : (m.statEvent i).freeCtr = m.freeCtr := rfl

@[simp] theorem Hw.windDown_arch (m : Hw) : (m.windDown ).arch = m.arch := rfl
@[simp] theorem Hw.windDown_seq (m : Hw) : (m.windDown ).seq = m.seq := rfl
@[simp] theorem Hw.windDown_intake (m : Hw) : (m.windDown ).intake = m.intake := rfl
@[simp] theorem Hw.windDown_xfer (m : Hw) : (m.windDown ).xfer = m.xfer := rfl
@[simp] theorem Hw.windDown_bat (m : Hw) : (m.windDown ).bat = m.bat := rfl
@[simp] theorem Hw.windDown_chg (m : Hw) : (m.windDown ).chg = m.chg := rfl
@[simp] theorem Hw.windDown_rails (m : Hw) : (m.windDown ).rails = m.rails := rfl
@[simp] theorem Hw.windDown_rl (m : Hw) : (m.windDown ).rl = m.rl := rfl
@[simp] theorem Hw.windDown_cable (m : Hw) : (m.windDown ).cable = m.cable := rfl
@[simp] theorem Hw.windDown_flt (m : Hw) : (m.windDown ).flt = m.flt := rfl
@[simp] theorem Hw.windDown_host (m : Hw) : (m.windDown ).host = m.host := rfl
@[simp] theorem Hw.windDown_modes (m : Hw) : (m.windDown ).modes = m.modes := rfl
@[simp] theorem Hw.windDown_adc (m : Hw) : (m.windDown ).adc = m.adc := rfl
@[simp] theorem Hw.windDown_jrn (m : Hw) : (m.windDown ).jrn = m.jrn := rfl
@[simp] theorem Hw.windDown_tkt (m : Hw) : (m.windDown ).tkt = m.tkt := rfl
@[simp] theorem Hw.windDown_twin (m : Hw) : (m.windDown ).twin = m.twin := rfl
@[simp] theorem Hw.windDown_hp (m : Hw) : (m.windDown ).hp = m.hp := rfl
@[simp] theorem Hw.windDown_bus (m : Hw) : (m.windDown ).bus = m.bus := rfl
@[simp] theorem Hw.windDown_wdg (m : Hw) : (m.windDown ).wdg = m.wdg := rfl
@[simp] theorem Hw.windDown_hwdg (m : Hw) : (m.windDown ).hwdg = m.hwdg := rfl
@[simp] theorem Hw.windDown_bist (m : Hw) : (m.windDown ).bist = m.bist := rfl
@[simp] theorem Hw.windDown_upd (m : Hw) : (m.windDown ).upd = m.upd := rfl
@[simp] theorem Hw.windDown_lb (m : Hw) : (m.windDown ).lb = m.lb := rfl
@[simp] theorem Hw.windDown_sub (m : Hw) : (m.windDown ).sub = m.sub := rfl
@[simp] theorem Hw.windDown_freeCtr (m : Hw) : (m.windDown ).freeCtr = m.freeCtr := rfl

@[simp] theorem Hw.thawEntry_arch (m : Hw) (b : Bool) : (m.thawEntry b).arch = m.arch := rfl
@[simp] theorem Hw.thawEntry_seq (m : Hw) (b : Bool) : (m.thawEntry b).seq = m.seq := rfl
@[simp] theorem Hw.thawEntry_intake (m : Hw) (b : Bool) : (m.thawEntry b).intake = m.intake := rfl
@[simp] theorem Hw.thawEntry_xfer (m : Hw) (b : Bool) : (m.thawEntry b).xfer = m.xfer := rfl
@[simp] theorem Hw.thawEntry_rails (m : Hw) (b : Bool) : (m.thawEntry b).rails = m.rails := rfl
@[simp] theorem Hw.thawEntry_rl (m : Hw) (b : Bool) : (m.thawEntry b).rl = m.rl := rfl
@[simp] theorem Hw.thawEntry_cable (m : Hw) (b : Bool) : (m.thawEntry b).cable = m.cable := rfl
@[simp] theorem Hw.thawEntry_flt (m : Hw) (b : Bool) : (m.thawEntry b).flt = m.flt := rfl
@[simp] theorem Hw.thawEntry_host (m : Hw) (b : Bool) : (m.thawEntry b).host = m.host := rfl
@[simp] theorem Hw.thawEntry_modes (m : Hw) (b : Bool) : (m.thawEntry b).modes = m.modes := rfl
@[simp] theorem Hw.thawEntry_adc (m : Hw) (b : Bool) : (m.thawEntry b).adc = m.adc := rfl
@[simp] theorem Hw.thawEntry_jrn (m : Hw) (b : Bool) : (m.thawEntry b).jrn = m.jrn := rfl
@[simp] theorem Hw.thawEntry_tkt (m : Hw) (b : Bool) : (m.thawEntry b).tkt = m.tkt := rfl
@[simp] theorem Hw.thawEntry_twin (m : Hw) (b : Bool) : (m.thawEntry b).twin = m.twin := rfl
@[simp] theorem Hw.thawEntry_hp (m : Hw) (b : Bool) : (m.thawEntry b).hp = m.hp := rfl
@[simp] theorem Hw.thawEntry_bus (m : Hw) (b : Bool) : (m.thawEntry b).bus = m.bus := rfl
@[simp] theorem Hw.thawEntry_wdg (m : Hw) (b : Bool) : (m.thawEntry b).wdg = m.wdg := rfl
@[simp] theorem Hw.thawEntry_hwdg (m : Hw) (b : Bool) : (m.thawEntry b).hwdg = m.hwdg := rfl
@[simp] theorem Hw.thawEntry_bist (m : Hw) (b : Bool) : (m.thawEntry b).bist = m.bist := rfl
@[simp] theorem Hw.thawEntry_upd (m : Hw) (b : Bool) : (m.thawEntry b).upd = m.upd := rfl
@[simp] theorem Hw.thawEntry_lb (m : Hw) (b : Bool) : (m.thawEntry b).lb = m.lb := rfl
@[simp] theorem Hw.thawEntry_sub (m : Hw) (b : Bool) : (m.thawEntry b).sub = m.sub := rfl
@[simp] theorem Hw.thawEntry_freeCtr (m : Hw) (b : Bool) : (m.thawEntry b).freeCtr = m.freeCtr := rfl

theorem Hw.hfaultW_hostBuf (m : Hw) (w : FaultWord) : (m.hfaultW w).flt.hostBuf = pushWord 16 0x3E w m.flt.hostBuf := by
  unfold Hw.hfaultW; simp only; split <;> simp [Hw.haltCode]

@[simp] theorem Hw.hfault_hostBuf (m : Hw) (k : FaultKind) (d : Nat) :
    (m.hfault k d).flt.hostBuf = pushWord 16 0x3E ⟨k.src, k.code, k.sev, satN 14 d⟩ m.flt.hostBuf := Hw.hfaultW_hostBuf ..

@[simp] theorem Hw.hfaultAt_hostBuf (m : Hw) (k : FaultKind) (src d : Nat) :
    (m.hfaultAt k src d).flt.hostBuf = pushWord 16 0x3E ⟨src, k.code, k.sev, satN 14 d⟩ m.flt.hostBuf := Hw.hfaultW_hostBuf ..

theorem Hw.hfaultW_input (m : Hw) (w : FaultWord) : (m.hfaultW w).flt.input = m.flt.input := by
  unfold Hw.hfaultW; simp only; split <;> simp [Hw.haltCode]

/-- An alert changes `ALERT_SRC` alone among the register fields. -/
theorem Hw.alertSet_rd {m : Hw} {b : Nat} {f : Field} (h : f.key ≠ Reg.ALERT_SRC_SRC.key) : (m.alertSet b).rd f = m.rd f := by
  unfold Hw.alertSet; simp only
  split
  · exact Hw.rd_wr_ne h _
  · exact Hw.rd_wr_ne h _

theorem Hw.hfaultW_rd {m : Hw} {w : FaultWord} {f : Field} (h : f.key ≠ Reg.ALERT_SRC_SRC.key) : (m.hfaultW w).rd f = m.rd f := by
  unfold Hw.hfaultW; simp only
  split
  · rw [Hw.alertSet_rd h]; simp [Hw.rd]
  · simp [Hw.rd]

/-- The regions of the retention RAM stand apart, in their order, within 64 KiB, and what bounds the use of each fits it
(R41). -/
theorem retentionMap_apart : (retentionMap.Pairwise fun a b => a.offset + a.size ≤ b.offset) ∧
    ∀ r ∈ retentionMap, r.entries * r.each ≤ r.size ∧ r.offset + r.size ≤ 0x10000 := by decide

end Sys2Proof.Machine
end

