-- ==== Sys2Proof/WellFormed.lean ====
section
/-! DEFINITION. The commands whose operands the spec's formats allow. The types of `Syntax` hold most bounds; these
checks hold the rest: byte counts, widths of message fields, the number of measured quantities. `exec` runs every
command, well-formed or not. -/

namespace Sys2Proof

/-- What closes a frame: busy times of F0 to F8 (R72), P1 to P4 (R121), TS1 to TS4, six rails (R275), at most 48 tags
(R245). -/
def Frame.wf (f : Frame) : Bool :=
  f.busy.length == 9 && f.iphase.length == 4 && f.ts.length == 4 && f.rails.length == 6 && decide (f.means.length ≤ 48)

/-- A Tabien message within its header's widths and 256 bytes of payload (R402). -/
def MsgIn.wf (m : MsgIn) : Bool :=
  decide (m.type < 256) && decide (m.stream < 256) && decide (m.seq < 2 ^ 16) && decide (m.flags < 2 ^ 16) &&
    decide (m.payload.length ≤ 256)

/-- A twin message's header within its widths (R349). -/
def TwmHead.wf (h : TwmHead) : Bool := decide (h.lseq < 2 ^ 32) && decide (h.epoch < 2 ^ 32)

/-- The operands of a command are ones that the formats allow. -/
def Instr.wf : Instr → Bool
  | .frameTick f => f.wf
  | .tabienMessageReceive _ m _ => m.wf
  | .twmCfgDigest h d _ p => h.wf && d.length == 32 && decide (p < 2 ^ 32)
  | .twmHeartbeat h _ _ _ _ _ _ _ _ => h.wf
  | .twmMirror h b => h.wf && decide (b.length ≤ 256)
  | .twmMirrorAck h j => h.wf && decide (j < 2 ^ 64)
  | .twmAppend h f b => h.wf && decide (f < 2 ^ 32) && decide (b.length ≤ 256)
  | .twmResyncReq h j => h.wf && decide (j < 2 ^ 64)
  | .twmResyncData h b => h.wf && decide (b.length ≤ 256)
  | .twmTime h _ _ _ _ => h.wf
  | .twmEpochStale h e _ => h.wf && decide (e < 2 ^ 32)
  | .foregroundCalDone _ _ c => c.length == 13
  | .sbTransaction _ _ d => decide (d.length ≤ 32)
  | .guardPrivilegedWrite _ a _ => decide (a < 2 ^ 16)
  | .drnRequest b => b.length == 16
  | .drnWrite o _ => decide (o < 2 ^ 16)
  | .drnWriteQ o _ => decide (o < 2 ^ 16)
  | .memorySelftestMacro _ _ defects _ => defects.all fun (d : BitDefect) => decide (d.row < 1024 ∧ d.col < 2112)
  | _ => true

end Sys2Proof
end

