-- ==== Sys2Proof/Tests/Slice0.lean ====
section
/-! SUPPORT. Tests: the checks of WellFormed refuse what they are for, states that meet the hypotheses of every clause of
every statement, and single steps against the rules. -/

namespace Sys2Proof.Tests

open Sys2Proof Sys2Proof.Machine

set_option Elab.async false

/-! Small states. -/

/-- A state with some registers set and a unit put up by a function. -/
def stx (l : List (Sys2Proof.Machine.Field × Nat)) (f : Hw → Hw) : State := { hw := f (l.foldl (fun m e => m.wr e.1 e.2) Hw.reset), pending := [] }

/-- A state with some registers set. -/
def stw (l : List (Sys2Proof.Machine.Field × Nat)) : State := stx l id

/-- All engines running. -/
def up1 (m : Hw) : Hw := { m with arch := { m.arch with engines := List.replicate 12 { running := true, restarting := false, handover := false, fenced := false } } }

/-- Measurements at an admission. -/
def adm : Admit := { vbat := 15200, psrc := 0, late := 0, lateRails := 0, ns := 0 }

/-- A state that admits freeze, with a pack. -/
def fz (m : Hw) : Hw := { m.wr Reg.CHG_STATUS_PRESENT 1 with seq := { m.seq with cfgApplied := true, pinHeld := false, outputsLow := false, removedHold := false, pdFreeze := 0 } }

/-- A profile. -/
def prof : Profile := { chem := 0, cells := 4, vcell := 420, ichg := 80, ipeak := 120, ipre := 8, preTh := 300, term := 1, rech := 1, t1 := 0, t2 := 10, t3 := 40, t4 := 50, preTimer := 2, fastTimer := 8 }

/-- What a smart pack answers. -/
def sbsr : SbsRead := { vchg := 16800, ichg := 2000, status := 0, volt := 15000, temp := 2981, current := 0, chem := 0, cells := 4 }

/-- All rails changed. -/
def rail3 (f : Rail → Rail) (m : Hw) : Hw := { m with rails := { m.rails with rail := m.rails.rail.map f } }

/-- A rail link that is up. -/
def rlUp (f : RailLink → RailLink) (m : Hw) : Hw := { (m.wr Reg.RL_CFG_RL_EN 1).wr Reg.MODE_STATUS_MODE 1 with rl := f m.rl, seq := { m.seq with pinHeld := false } }

/-- A port that may be source. -/
def perm (m : Hw) : Hw := { (((((m.wr Reg.CBL_CFG_ROLE 1).wr Reg.CBL_CFG_REV_EN 1).wr Reg.ID_STATUS_FIELD_READY 1).wr Reg.MODE_STATUS_MODE 1).wr Reg.CBL_OFFER_C_RES_STATE 0).wr Reg.CBL_OFFER_C_AGE 0 with cable := { m.cable with rawI5 := 300, sinkOnly := false, sinkOnlyDetach := false } }

/-- Terms of a contract. -/
def trm : Terms := { mv := 9000, curr := 200, type := 1, pos := 2 }

/-- Sums of a conversion. -/
def smp : Samples := { slice := 0, t := 100, sum := 5, above := 0, below := 0, after := 0 }

/-- A running ticket. -/
def tck (n st : Nat) : Ticket := { num := n, stream := st, owner := 0x15, chan := 0, unit := 0, state := .running, acc := false, dur := false, idem := true, replay := 0, epoch := 0, order := 0, at_ := 0, thaw0 := 0 }

/-- A record. -/
def jr1 : JRec := { kind := 0x10, size := 40, flags := 0, src := 0x10, jsn := 0, frn := 0, tai := 0, sub := 0, payload := [] }

/-- Measurements of a second. -/
def sm : SecondMeans := { vbat := 0, ibat := 0, vkaMin := 0, ika := 0, vqr1 := 0, vqr2 := 0, tctl := 0, vsys := 0, vchold := 0 }

/-- What a start finds. -/
def sti : StartInfo := { ms := 5, slotBad := 0, slotFell := 0, repairParity := none, pack := true, off := 0 }

/-- A host command of a code, with arguments and a stage. -/
def hc (code : Nat) (args : List Byte) (stage : Nat) : HostCmd := { stream := 3, seq := 1, cmd := code, flags := 0, epoch := 0, args := args, tkt := 0, stage := stage, status := 0, rflags := 0, data := [], sent := false, jsn := none, inner := none, hostSide := false }

/-- A wait for a ticket. -/
def wt : IssueWait := { stream := 1, owner := 0x16, chan := 0, unit := 0, dur := false, idem := true, crit := false, frn := 0 }

/-- A history entry. -/
def he : HistEntry := { word := ⟨0x15,0x83,2,0⟩, frn := 0, sc := 0, merges := 0, react := 0, esc := false, isOpen := true, jrn := false, base := 0, due := true, quiet := 0 }

/-- What closes a frame. -/
def frm : Frame := { busy := [], vbat := 15000, inet := 0, vsys := 12000, vtb := 0, iphase := [], pfreeze := 0, pthaw := 0, esys := 0, ecbuf := 0, tthaw := 20000, ts := [], means := [], scan := [], pdFreeze := 0, ires := 0, vka := 5000, rails := [], shipN := true, cvGov := false, psrc := 0, vtb0 := 0, cycles := 600, limited := 0 }

/-- A twin role. -/
def twr (st : Nat) (m : Hw) : Hw := up1 ((m.wr Reg.TWN_CFG_EN 1).wr Reg.TWN_STATUS_STATE st)

/-- A twin role with the link trained. -/
def twl (st : Nat) (m : Hw) : Hw := (twr st m).wr Reg.TWN_STATUS_LINK 2

/-- A header of a twin message. -/
def twh : TwmHead := { lseq := 5, epoch := 3 }

/-- A twin message. -/
def twm (type l : Nat) : TwinMsg := { type := type, lseq := l, epoch := 0, payload := [] }

/-- A record of 40 bytes with a JSN. -/
def rec0 (j : Nat) : JRec := { kind := 0x10, size := 40, flags := 0, src := 0x10, jsn := j, frn := 0, tai := 0, sub := 0, payload := List.replicate 12 0 }

/-- A host port that is up. -/
def hpx (m : Hw) : Hw := up1 { m with host := { m.host with hReady := true } }

/-- A transaction on the sensor bus. -/
def sbx (f : BusOp → BusOp) (m : Hw) : Hw := up1 { m with bus := { m.bus with clearDue := false, ops := [f ⟨5, 0x0B, true, 1, 2, false, 0x08, none, false, false, 0, false⟩] }, tkt := { m.tkt with table := [{ tck 5 18 with chan := 0x0B }] }, arch := { m.arch with domains := List.replicate 10 { on := true, pg := true, offReq := none } } }

/-- That transaction. -/
def sbo : BusOp := ⟨5, 0x0B, true, 1, 2, false, 0x08, none, false, false, 0, false⟩

/-- A message. -/
def ms (type : Nat) (p : List Byte) : Msg := { type := type, stream := 20, seq := 0, flags := 0, payload := p }

/-- Messages in the host inbox. -/
def inH (l : List Msg) (m : Hw) : Hw := up1 { m with host := { m.host with h := { m.host.h with inbox := l } } }

/-- Messages in the field inbox. -/
def inF (l : List Msg) (m : Hw) : Hw := up1 { m with host := { m.host with f := { m.host.f with inbox := l } } }

/-- A trained Tabien link. -/
def tlu (m : Hw) : Hw := (m.wr Reg.TL_H_STATUS_STATE 2).wr Reg.TL_F_STATUS_STATE 2

/-- A received message. -/
def mi : MsgIn := { type := 0x18, stream := 20, seq := 0, flags := 0, payload := [1,0,0,0] }

/-- Taken commands. -/
def wk (l : List HostCmd) (m : Hw) : Hw := up1 { m with host := { m.host with work := l, hReady := true } }

/-- A wide allowance. -/
def roomy (m : Hw) : Hw := m.wr Reg.JRN_ALLOW_ALLOW 100000

/-- Taken commands, with room for records. -/
def wk2 (l : List HostCmd) (m : Hw) : Hw := roomy (wk l m)

/-- A calibration record of erased bytes with its CRC. -/
def calImg : NorImage := putImgBytes [] 0x230 (le 4 (crc32c (imgBytes [] 0 0x230)))

/-- A staged configuration with its magic and its format. -/
def cfgImg0 : NorImage := putImgBytes (putImgBytes [] 0 (le 4 0x4643565A)) 4 (le 4 1)

/-- An open drain port. -/
def drn (f : Drain → Drain) (m : Hw) : Hw := up1 { m.wr Reg.DRN_CFG_EN 1 with host := { m.host with hReady := true, drain := f m.host.drain } }

/-- A drain request on the field side. -/
def freq (r : DrainReq) (m : Hw) : Hw := up1 { m.wr Reg.MODE_STATUS_MODE 1 with host := { m.host with drain := { m.host.drain with fieldReq := some r } } }

/-- The mode function changed, with all engines running. -/
def kam (f : Modes → Modes) (m : Hw) : Hw := up1 { m with modes := f m.modes }

/-- F-AON and H-AON powered. -/
def fon (m : Modes) : Modes := { m with faonOn := true, haonOn := true }

/-- An armed watchdog. -/
def wdw (f : Wdg → Wdg) (m : Hw) : Hw := up1 { (m.wr Reg.WDG_STATUS_ARMED 1) with wdg := f m.wdg, modes := fon m.modes }

/-- All slots in a state. -/
def slots24 (st : Nat) : List Slot := List.replicate 24 { gen := 3, state := st, info := infoOf [], bytes := [] }

/-- An update session. -/
def ses0 : Session := Session.mk 7 5 1 1000 0 [] 0 [] false false

/-- The update function changed, in SERVICE. -/
def updm (f : Update → Update) (m : Hw) : Hw := { m.wr Reg.MODE_STATUS_MODE 6 with upd := f m.upd }

/-- A handover. -/
def hnd (b : Bool) : Handover := { engine := 5, oldSlot := 0, newSlot := 1, at_ := 0, begun := b, revert := false, cmd := none, startAt := 0, stateLen := 0 }

/-- A helper. -/
def hcd (c : HCode) (m : Hw) : Hw := { m with arch := { m.arch with sb := { m.arch.sb with hCodes := [c] } } }

/-- A helper. -/
def fcd (c : FCode) (m : Hw) : Hw := { m with arch := { m.arch with sb := { m.arch.sb with fCodes := [c] } } }

/-- A helper. -/
def sbl (f : Sidebands → Sidebands) (m : Hw) : Hw := { m with arch := { m.arch with sb := f m.arch.sb }, modes := fon m.modes }

/-- A helper. -/
def pwrUp (m : Hw) : Hw := up1 { m with arch := { m.arch with subs := 31, domains := List.replicate 10 { on := true, pg := true, offReq := none } } }

/-- A state with a staged calibration record. -/
def stCal (i : NorImage) : State :=
  stx [(Reg.MODE_STATUS_MODE, 6)] (fun m => wk2 [hc 0x23 [] 0] { m with adc := { m.adc with staged := i } })

theorem stCal_staged (i : NorImage) : (stCal i).hw.adc.staged = i := rfl

/-- A closed page of one record that is due for its program. -/
def stProg : State :=
  stx [] (fun m => { m with jrn := { m.jrn with staged := [⟨jr1, true, some 1, none⟩], closed := [1] } })

theorem stProg_block (ring : Bool) : stProg.hw.blockFor ring = some (if ring then 2 else 66) := by
  cases ring <;> decide +kernel

/-- A state with a staged configuration. -/
def stCfg : State :=
  stx [(Reg.MODE_STATUS_MODE, 6)] (fun m => wk2 [hc 0x121 [] 0] { m with modes := { m.modes with staged := cfgImg0 } })

/-! Ill-formed terms are refused. -/

/-- A frame with every list of its length. -/
def okFrame : Frame :=
  { frm with busy := List.replicate 9 0, iphase := List.replicate 4 0, ts := List.replicate 4 0, rails := List.replicate 6 0 }

theorem test_wf_frame : Instr.wf (.frameTick okFrame) = true := by decide +kernel

theorem test_wf_frame_busy : Instr.wf (.frameTick { okFrame with busy := [] }) = false := by decide +kernel

theorem test_wf_frame_iphase : Instr.wf (.frameTick { okFrame with iphase := [] }) = false := by decide +kernel

theorem test_wf_frame_ts : Instr.wf (.frameTick { okFrame with ts := [] }) = false := by decide +kernel

theorem test_wf_frame_rails : Instr.wf (.frameTick { okFrame with rails := [] }) = false := by decide +kernel

theorem test_wf_frame_means : Instr.wf (.frameTick { okFrame with means := List.replicate 49 0 }) = false := by decide +kernel

theorem test_wf_message : Instr.wf (.tabienMessageReceive .field mi true) = true := by decide +kernel

theorem test_wf_message_type : Instr.wf (.tabienMessageReceive .field { mi with type := 256 } true) = false := by decide +kernel

theorem test_wf_message_stream : Instr.wf (.tabienMessageReceive .field { mi with stream := 256 } true) = false := by decide +kernel

theorem test_wf_message_seq : Instr.wf (.tabienMessageReceive .field { mi with seq := 65536 } true) = false := by decide +kernel

theorem test_wf_message_flags : Instr.wf (.tabienMessageReceive .field { mi with flags := 65536 } true) = false := by decide +kernel

theorem test_wf_message_payload : Instr.wf (.tabienMessageReceive .field { mi with payload := List.replicate 257 0 } true) = false := by decide +kernel

theorem test_wf_twin_lseq : Instr.wf (.twmHeartbeat { twh with lseq := 2 ^ 32 } 0 0 0 0 0 0 0 0) = false := by decide +kernel

theorem test_wf_twin_epoch : Instr.wf (.twmTime { twh with epoch := 2 ^ 32 } 0 0 0 0) = false := by decide +kernel

theorem test_wf_twin_digest : Instr.wf (.twmCfgDigest twh [] 0 0) = false := by decide +kernel

theorem test_wf_twin_pair : Instr.wf (.twmCfgDigest twh (List.replicate 32 0) 0 (2 ^ 32)) = false := by decide +kernel

theorem test_wf_twin_mirror : Instr.wf (.twmMirror twh (List.replicate 257 0)) = false := by decide +kernel

theorem test_wf_twin_ack : Instr.wf (.twmMirrorAck twh (2 ^ 64)) = false := by decide +kernel

theorem test_wf_twin_forward : Instr.wf (.twmAppend twh (2 ^ 32) []) = false := by decide +kernel

theorem test_wf_twin_append : Instr.wf (.twmAppend twh 0 (List.replicate 257 0)) = false := by decide +kernel

theorem test_wf_twin_from : Instr.wf (.twmResyncReq twh (2 ^ 64)) = false := by decide +kernel

theorem test_wf_twin_data : Instr.wf (.twmResyncData twh (List.replicate 257 0)) = false := by decide +kernel

theorem test_wf_twin_stale : Instr.wf (.twmEpochStale twh (2 ^ 32) 0) = false := by decide +kernel

theorem test_wf_constants : Instr.wf (.foregroundCalDone 0 0 []) = false := by decide +kernel

theorem test_wf_bus_data : Instr.wf (.sbTransaction 0 0 (List.replicate 33 0)) = false := by decide +kernel

theorem test_wf_guard_address : Instr.wf (.guardPrivilegedWrite .f0 65536 .serviceWatchdog) = false := by decide +kernel

theorem test_wf_drain_request : Instr.wf (.drnRequest []) = false := by decide +kernel

theorem test_wf_drain_offset : Instr.wf (.drnWrite 65536 []) = false := by decide +kernel

theorem test_wf_drain_offset_q : Instr.wf (.drnWriteQ 65536 []) = false := by decide +kernel

theorem test_wf_failing_bit : Instr.wf (.memorySelftestMacro .field 0 [⟨65536, 0, .noRise⟩] true) = false := by decide +kernel

/-! States that meet the hypotheses, clause by clause. -/

theorem witness_sideband_codes_take_effect :
    (∃ (s : State) (high : Bool), s.hw.arch.sb.hostReset = high ∧ s.hw.arch.sb.halertSeen ≠ high ∧
    s.hw.modes.faonOn = true) ∧
    (∃ (s : State) (high : Bool), s.hw.arch.sb.fieldReset = high ∧ s.hw.arch.sb.falertSeen ≠ high) ∧
    (∃ (s : State), s.hw.hCodeNext .sourceLoss = true) ∧
    (∃ (s : State), s.hw.hCodeNext .attachWake = true ∧ s.hw.mode = modeKEEPALIVE) ∧
    (∃ (s : State), s.hw.hCodeNext .cableDetach = true) ∧
    (∃ (s : State), s.hw.hCodeNext .mailboxWake = true ∧ s.hw.mode = modeKEEPALIVE) ∧
    (∃ (s : State), s.hw.hCodeNext .hostAlert = true ∧ s.hw.rd Reg.TL_H_STATUS_STATE = 2 ∧ s.hw.flt.hostBuf ≠
    []) ∧
    (∃ (s : State), s.hw.fCodeNext .fieldAlert = true) ∧
    (∃ (s : State), s.hw.fCodeNext .sleep = true) ∧
    (∃ (b : SidebandId) (w : Nat), strayPulse b w = true) ∧
    (∃ (s : State) (high : Bool), high = s.hw.arch.sb.quiet) :=
  ⟨⟨stx [] (sbl fun b => { b with hostReset := true }), true, by decide +kernel⟩,
    ⟨stx [] (sbl fun b => { b with fieldReset := true }), true, by decide +kernel⟩,
    ⟨stx [] (hcd .sourceLoss), by decide +kernel⟩,
    ⟨stx [(Reg.MODE_STATUS_MODE,4)] (hcd .attachWake), by decide +kernel⟩,
    ⟨stx [] (hcd .cableDetach), by decide +kernel⟩,
    ⟨stx [(Reg.MODE_STATUS_MODE,4)] (hcd .mailboxWake), by decide +kernel⟩,
    ⟨stx [(Reg.TL_H_STATUS_STATE,2)] (fun m => hcd .hostAlert { m with flt := { m.flt with hostBuf := [⟨1,2,3,4⟩] } }), by decide +kernel⟩,
    ⟨stx [(Reg.HP_STATUS_DOZE,1)] (fcd .fieldAlert), by decide +kernel⟩,
    ⟨stx [(Reg.TL_H_STATUS_STATE,2)] (fcd .sleep), by decide +kernel⟩,
    ⟨SidebandId.falert, 300, by decide +kernel⟩,
    ⟨stw [], false, by decide +kernel⟩⟩

theorem witness_latches_obey_their_owners :
    (∃ (s : State) (w : Engine) (l : LatchId), l.owner = some w ∧ l ≠ .xferCtl ∧ s.hw.latchBad l = false ∧
    s.hw.away w = false) ∧
    (∃ (s : State), s.hw.latchBad .xferCtl = false ∧ s.hw.away .h1 = false ∧ s.hw.on Reg.XFER_STATUS_LATCHED =
    false ∧ s.hw.on Reg.XFER_STATUS_QUIET = false) ∧
    (∃ (s : State), s.hw.latchBad .chgV = false ∧ s.hw.away .f1 = false) ∧
    (∃ (s : State) (w : Engine) (l : LatchId), (s.hw.engine w).running = true ∧ (s.hw.engine w).restarting =
    false ∧ l.owner ≠ some w ∧ s.hw.latchBad l = false) ∧
    (∃ (s : State) (w : Engine) (r : Bool), (r = true ∨ (s.hw.engine w).running = false ∨ (s.hw.engine
    w).restarting = true)) ∧
    (∃ (s : State) (l : LatchId) (live : Nat), s.hw.arch.shadows.find? (fun x => x.latch = l) = none ∧ live ≠
    s.hw.latch l) ∧
    (∃ (s : State) (l : LatchId) (v : Nat), s.hw.latchBad l = true ∧ (s.hw.engine .f0).running = true ∧
    (s.hw.engine .f0).restarting = false ∧ ((l = .kaSet → v < 64 ∧ bitsOf v 2 2 = 0))) :=
  ⟨⟨stx [] up1, Engine.f1, LatchId.chgV, by decide +kernel⟩,
    ⟨stx [] up1, by decide +kernel⟩,
    ⟨stx [] up1, by decide +kernel⟩,
    ⟨stx [] up1, Engine.h0, LatchId.chgV, by decide +kernel⟩,
    ⟨stw [], Engine.h0, false, by decide +kernel⟩,
    ⟨stw [], LatchId.chgV, 4000, by decide +kernel⟩,
    ⟨stx [] (fun m => up1 { m with arch := { m.arch with shadows := [⟨.chgV, 1680, true⟩] } }), LatchId.chgV, 1600, by decide +kernel⟩⟩

theorem witness_sync_sources_follow_their_list :
    (∃ (s : State) (src : SyncSrc), s.hw.lineCarries src = true) ∧
    (∃ (s : State) (src : SyncSrc), s.hw.lineCarries src = false) ∧
    (∃ (s : State) (src : SyncSrc), s.hw.rd Reg.FRM_STATUS_SRC = src.code ∧ (s.hw.rd Reg.FRM_STATUS_STATE = 0 ∨
    s.hw.rd Reg.FRM_STATUS_STATE = 1) ∧ s.hw.seq.lossDue = false) ∧
    (∃ (s : State), (s.hw.rd Reg.FRM_STATUS_STATE = 2 ∨ s.hw.rd Reg.FRM_STATUS_STATE = 3)) ∧
    (∃ (s : State), s.hw.rd Reg.FRM_STATUS_STATE = 2 ∧ 64 ≤ s.hw.seq.holdover) ∧
    (∃ (s : State), (s.hw.rd Reg.FRM_STATUS_STATE ≠ 2 ∨ s.hw.seq.holdover < 64)) ∧
    (∃ (s : State) (pre : List Nat) (l : List Nat) (src : SyncSrc), s.hw.priorities = pre ++ src.code :: l ∧ ((∀
    c ∈ pre, c ≠ s.hw.rd Reg.FRM_STATUS_SRC ∧ s.hw.qualifiedCode c = false)) ∧ src.code ≠ s.hw.rd
    Reg.FRM_STATUS_SRC ∧ s.hw.mayFollow = true ∧ (s.hw.track src).qualified = true ∧ 64 ≤ (s.hw.track
    src).qualFrames) ∧
    (∃ (s : State), ((∀ c ∈ s.hw.priorities, s.hw.qualifiedCode c = false))) :=
  ⟨⟨stx [(Reg.FRM_STATUS_STATE,3),(Reg.FRM_SRC_CFG_PRI,4095-511+2+8)] (fun m => { m with seq := { m.seq with ext := { m.seq.ext with qualified := true } } }), SyncSrc.ext, by decide +kernel⟩,
    ⟨stw [], SyncSrc.cable, by decide +kernel⟩,
    ⟨stx [(Reg.FRM_STATUS_SRC,4),(Reg.FRM_STATUS_STATE,0)] id, SyncSrc.twin, by decide +kernel⟩,
    ⟨stw [(Reg.FRM_STATUS_SRC,1),(Reg.FRM_STATUS_STATE,2)], by decide +kernel⟩,
    ⟨stx [(Reg.FRM_STATUS_SRC,1),(Reg.FRM_STATUS_STATE,2),(Reg.FRM_SRC_CFG_PRI,7)] (fun m => { m with seq := { m.seq with holdover := 64 } }), by decide +kernel⟩,
    ⟨stw [(Reg.FRM_STATUS_SRC,1),(Reg.FRM_STATUS_STATE,2)], by decide +kernel⟩,
    ⟨stx [(Reg.FRM_STATUS_SRC,1),(Reg.FRM_STATUS_STATE,1),(Reg.FRM_SRC_CFG_PRI,458)] (fun m => { m with seq := { m.seq with ext := { m.seq.ext with qualified := true, qualFrames := 64 } } }), [], [1], SyncSrc.ext, by decide +kernel⟩,
    ⟨stw [], by decide +kernel⟩⟩

theorem witness_freeze_comes_and_ends :
    (∃ (s : State) (slot : Fin 256) (a : Admit), slot.val ≠ 0 ∧ s.hw.mayFreeze a ∧ s.hw.seq.holdBreak = false ∧
    s.hw.planned slot = true ∧ s.hw.planned ((slot + 255) % 256) = false) ∧
    (∃ (s : State), s.hw.seq.preFreeze = some 0 ∧ s.hw.planned 0 = false) ∧
    (∃ (s : State) (a : Admit), s.hw.seq.preFreeze = none ∧ s.hw.planned 0 = true ∧ s.hw.mayFreeze a ∧
    s.hw.seq.holdBreak = false ∧ s.hw.seq.slotZero = none ∧ s.hw.seq.runRefused = false) ∧
    (∃ (s : State) (slot : Fin 256), s.hw.seq.preFreeze = some slot.val ∧ s.hw.brokenFreeze = none) ∧
    (∃ (s : State) (slot : Fin 256), s.hw.frozen = true ∧ s.hw.planned slot = false ∧ s.hw.on Reg.FRM_STATUS_APT
    = false) ∧
    (∃ (s : State) (a : Admit), s.hw.mayFreeze a ∧ s.hw.on Reg.FRM_APT_CFG_EN = true ∧ s.hw.seq.aptIgnored =
    false ∧ s.hw.seq.apts = [] ∧ s.hw.seq.runRefused = false ∧ s.hw.seq.holdBreak = false) ∧
    (∃ (s : State) (a : Admit), s.hw.mayFreeze a ∧ s.hw.on Reg.FRM_APT_CFG_EN = true ∧ s.hw.qreqHeard = true ∧
    s.hw.seq.apts = [] ∧ s.hw.seq.runRefused = false ∧ s.hw.seq.holdBreak = false) ∧
    (∃ (s : State), ((∀ x ∈ s.hw.seq.apts, x.by_ = .pad ∧ x.until_ = none)) ∧ s.hw.seq.apts ≠ []) ∧
    (∃ (s : State), ((∀ x ∈ s.hw.seq.apts, x.by_ = .qreq)) ∧ s.hw.seq.apts ≠ []) :=
  ⟨⟨stx [(Reg.FRM_MAP_MAP 0, 2)] fz, 1, adm, by decide +kernel⟩,
    ⟨stx [] (fun m => { m with seq := { m.seq with preFreeze := some 0 } }), by decide +kernel⟩,
    ⟨stx [(Reg.FRM_MAP_MAP 0, 1)] fz, adm, by decide +kernel⟩,
    ⟨stx [] (fun m => { m with seq := { m.seq with removedHold := false, preFreeze := some 255 } }), 255, by decide +kernel⟩,
    ⟨stw [(Reg.FRM_STATUS_FRZ,1)], 9, by decide +kernel⟩,
    ⟨stx [(Reg.FRM_APT_CFG_EN,1)] fz, adm, by decide +kernel⟩,
    ⟨stx [(Reg.FRM_APT_CFG_EN,1),(Reg.CBL_STATUS_FS_MODE,1),(Reg.CBL_FS_CFG_QREQ_APT,1)] fz, adm, by decide +kernel⟩,
    ⟨stx [(Reg.FRM_STATUS_APT,1)] (fun m => { m with seq := { m.seq with aptPad := true, apts := [⟨.pad, 0, none⟩] } }), by decide +kernel⟩,
    ⟨stx [(Reg.FRM_STATUS_APT,1)] (fun m => { m with seq := { m.seq with apts := [⟨.qreq, 0, none⟩] } }), by decide +kernel⟩⟩

theorem witness_freeze_is_cut_at_its_limits :
    (∃ (s : State) (t : Nat), s.hw.frozen = true ∧ s.hw.seq.frzStart + 120000000 ≤ s.hw.seq.tickAt + t) ∧
    (∃ (s : State) (t : Nat), s.hw.seq.holdBreak = true ∧ s.hw.frozen = false ∧ s.hw.planned (slotOf
    s.hw.seq.len t) = false ∧ s.hw.on Reg.FRM_STATUS_APT = false) ∧
    (∃ (s : State), s.hw.frozen = true) ∧
    (∃ (s : State), s.hw.frozen = true ∧ s.hw.mode = modeSOURCE) ∧
    (∃ (s : State), s.hw.on Reg.FRM_STATUS_REFUSING = true ∧ 8 ≤ s.hw.seq.quietFrames) ∧
    (∃ (s : State) (t : Nat), s.hw.seq.apts ≠ [] ∧ ((∀ x ∈ s.hw.seq.apts, x.by_ = .pad ∧ x.at_ + s.hw.rd
    Reg.FRM_APT_EFF_EFF * 20000 ≤ s.hw.seq.tickAt + t))) ∧
    (∃ (s : State), s.hw.seq.aptPad = false) ∧
    (∃ (s : State) (t : Nat) (x : SchedApt), s.hw.seq.sched = some x ∧ s.hw.rd Reg.FRM_FRN_FRN = x.frn ∧
    slotStart s.hw.seq.len x.slot + x.cycle ≤ t) ∧
    (∃ (s : State) (t : Nat) (a : Admit) (x : SchedApt), s.hw.seq.sched = some x ∧ s.hw.rd Reg.FRM_FRN_FRN =
    x.frn ∧ x.raised = false ∧ s.hw.mayFreeze a ∧ s.hw.seq.holdBreak = false ∧ s.hw.seq.runRefused = false ∧
    s.hw.seq.preFreeze = none ∧ t < slotStart s.hw.seq.len x.slot + x.cycle ∧ slotStart s.hw.seq.len x.slot +
    x.cycle ≤ t + 800 ∧ x.armedAt + 10000 ≤ s.hw.seq.tickAt + slotStart s.hw.seq.len x.slot + x.cycle) :=
  ⟨⟨stw [(Reg.FRM_STATUS_FRZ,1)], 120000000, by decide +kernel⟩,
    ⟨stx [] (fun m => { m with seq := { m.seq with holdBreak := true } }), 6, by decide +kernel⟩,
    ⟨stw [(Reg.FRM_STATUS_FRZ,1)], by decide +kernel⟩,
    ⟨stw [(Reg.FRM_STATUS_FRZ,1),(Reg.MODE_STATUS_MODE,3)], by decide +kernel⟩,
    ⟨stx [(Reg.FRM_STATUS_REFUSING,1)] (fun m => { m with seq := { m.seq with quietFrames := 8 } }), by decide +kernel⟩,
    ⟨stx [(Reg.FRM_STATUS_APT,1),(Reg.FRM_APT_EFF_EFF,10)] (fun m => { m with seq := { m.seq with apts := [⟨.pad, 0, none⟩] } }), 200000, by decide +kernel⟩,
    ⟨stw [], by decide +kernel⟩,
    ⟨stx [] (fun m => { m with seq := { m.seq with sched := some { frn := 0, slot := 0, cycle := 0, len := 1, armedAt := 0, raised := false } } }), 1, { frn := 0, slot := 0, cycle := 0, len := 1, armedAt := 0, raised := false }, by decide +kernel⟩,
    ⟨stx [] (fun m => fz { m with seq := { m.seq with sched := some { frn := 0, slot := 128, cycle := 0, len := 1, armedAt := 0, raised := false } } }), 1999300, adm, { frn := 0, slot := 128, cycle := 0, len := 1, armedAt := 0, raised := false }, by decide +kernel⟩⟩

theorem witness_sources_qualify_and_change :
    (∃ (s : State) (x : PowerSrc) (mv : Nat), (x = .dcin ∧ 8800 ≤ mv ∧ mv ≤ 61000 ∨ x = .vbus ∧
    s.hw.cable.window = false ∧ 4400 ≤ mv ∧ mv ≤ 5500 ∨ x = .vbus ∧ s.hw.cable.window = true ∧ s.hw.cable.riseLo
    ≤ mv ∧ mv ≤ s.hw.cable.riseHi)) ∧
    (∃ (mv : Nat), (mv < 8800 ∨ 61000 < mv)) ∧
    (∃ (s : State) (x : PowerSrc) (mv : Nat), s.hw.qualified x = true ∧ (mv < (s.hw.fallingWindow x).1 ∨
    (s.hw.fallingWindow x).2 < mv)) ∧
    (∃ (s : State) (x : PowerSrc) (mv : Nat), (s.hw.qualified x = false ∨ (s.hw.fallingWindow x).1 ≤ mv ∧ mv ≤
    (s.hw.fallingWindow x).2)) ∧
    (∃ (s : State), s.hw.rd Reg.INTAKE_CFG_PRI = 0 ∧ s.hw.on Reg.INTAKE_STATUS_DCIN_QUAL = true ∧ s.hw.rd
    Reg.INTAKE_STATUS_ACTIVE = 1 ∧ s.hw.reverse = false ∧ s.hw.intake.prioHold = true ∧ s.hw.intake.thermalOpen
    = false ∧ s.hw.intake.ovOpen = false) ∧
    (∃ (s : State), s.hw.rd Reg.INTAKE_CFG_PRI = 1 ∧ s.hw.on Reg.INTAKE_STATUS_VBUS_QUAL = true ∧ s.hw.rd
    Reg.INTAKE_STATUS_ACTIVE = 2 ∧ s.hw.reverse = false ∧ s.hw.cable.srcSwitch = false ∧ s.hw.intake.prioHold =
    true ∧ s.hw.intake.thermalOpen = false ∧ s.hw.intake.ovOpen = false) ∧
    (∃ (s : State), (s.hw.intake.prioHold = false ∨ s.hw.rd Reg.INTAKE_STATUS_ACTIVE = 0)) ∧
    (∃ (s : State), s.hw.rd Reg.INTAKE_STATUS_ACTIVE ≠ 0 ∧ s.hw.intake.blocked = false) ∧
    (∃ (s : State), (s.hw.rd Reg.INTAKE_STATUS_ACTIVE = 0 ∨ s.hw.intake.blocked = true)) :=
  ⟨⟨stx [] id, PowerSrc.dcin, 8800, by decide +kernel⟩,
    ⟨8799, by decide +kernel⟩,
    ⟨stx [(Reg.INTAKE_STATUS_ACTIVE,2),(Reg.INTAKE_STATUS_DCIN_QUAL,1)] id, PowerSrc.dcin, 8399, by decide +kernel⟩,
    ⟨stx [(Reg.INTAKE_STATUS_DCIN_QUAL,1)] id, PowerSrc.dcin, 8400, by decide +kernel⟩,
    ⟨stx [(Reg.INTAKE_STATUS_ACTIVE,1),(Reg.INTAKE_STATUS_DCIN_QUAL,1)] (fun m => { m with intake := { m.intake with prioHold := true } }), by decide +kernel⟩,
    ⟨stx [(Reg.INTAKE_CFG_PRI,1),(Reg.INTAKE_STATUS_ACTIVE,2),(Reg.INTAKE_STATUS_VBUS_QUAL,1)] (fun m => { m with intake := { m.intake with prioHold := true } }), by decide +kernel⟩,
    ⟨stw [], by decide +kernel⟩,
    ⟨stw [(Reg.INTAKE_STATUS_ACTIVE,1)], by decide +kernel⟩,
    ⟨stw [], by decide +kernel⟩⟩

theorem witness_intake_limit_is_the_least :
    (∃ (s : State), s.hw.latchBad .intakeLim = false ∧ s.hw.away .h1 = false ∧ s.hw.intake.startCap = false ∧
    s.hw.intake.loaded = true) ∧
    (∃ (s : State), s.hw.intake.loaded = false ∧ s.hw.intake.startCap = false ∧ s.hw.intake.deadStart = false ∧
    s.hw.latchBad .intakeLim = false ∧ s.hw.away .h1 = false ∧ 50 ≤ s.hw.rd Reg.INTAKE_LIM_HOST_LIM ∧ ((s.hw.rd
    Reg.INTAKE_STATUS_ACTIVE = 1 → 50 ≤ s.hw.intake.advert))) ∧
    (∃ (s : State), s.hw.on Reg.INTAKE_STATUS_RAMP = false ∧ s.hw.rd Reg.INTAKE_STATUS_PDISS_LIMIT = 1) ∧
    (∃ (s : State) (inputs : Fin 8), inputs.val ≠ 0 ∧ s.hw.host.pinLow = false ∧ bitAt s.hw.lb.testHigh 0 =
    false ∧ (s.hw.engine .h2).fenced = false ∧ s.hw.arch.engines.length = 12) ∧
    (∃ (s : State) (advert : Nat), s.hw.modes.faonOn = false ∧ 50 ≤ advert ∧ advert ≤ 6000 ∧ s.hw.on
    Reg.XFER_STATUS_LATCHED = false ∧ (s.hw.rd Reg.INTAKE_STATUS_ACTIVE = 1 ∨ s.hw.mayClose .vbus = true)) :=
  ⟨⟨stx [(Reg.INTAKE_STATUS_ACTIVE,1)] (fun m => { up1 m with intake := { m.intake with loaded := true } }), by decide +kernel⟩,
    ⟨stx [] up1, by decide +kernel⟩,
    ⟨stw [(Reg.INTAKE_STATUS_PDISS_LIMIT,1)], by decide +kernel⟩,
    ⟨stx [] up1, 7, by decide +kernel⟩,
    ⟨stx [] (fun m => { m with modes := { m.modes with faonOn := false } }), 6000, by decide +kernel⟩⟩

theorem witness_cbuf_follows_its_window :
    (∃ (s : State) (vbus : Nat) (vcbuf : Nat), vbus < 655360 ∧ vcbuf < 655360 ∧ s.hw.rd Reg.INTAKE_STATUS_ACTIVE
    ≠ 0 ∧ s.hw.arch.domains.length = 10) ∧
    (∃ (s : State), s.hw.on Reg.XFER_STATUS_QUIET = false) ∧
    (∃ (s : State) (us : Nat) (dmv : Nat), 2000 ≤ us ∧ 0 < dmv ∧ s.hw.on Reg.XFER_STATUS_QUIET = true ∧
    s.hw.intake.samples.length < 63) ∧
    (∃ (s : State) (us : Nat) (dmv : Nat), 2000 ≤ us ∧ 0 < dmv ∧ s.hw.on Reg.XFER_STATUS_QUIET = true ∧
    s.hw.intake.samples.length = 63) ∧
    (∃ (s : State) (mv : Nat), s.hw.rd Reg.INTAKE_STATUS_ACTIVE ≠ 0 ∧ s.hw.rd Reg.INTAKE_MON_CBUF_VCBUF * 10 +
    500 < mv) ∧
    (∃ (s : State) (mv : Nat), s.hw.vHi ≤ mv) :=
  ⟨⟨stw [(Reg.INTAKE_STATUS_ACTIVE,1)], 20000, 13000, by decide +kernel⟩,
    ⟨stw [], by decide +kernel⟩,
    ⟨stw [(Reg.XFER_STATUS_QUIET,1)], 2000, 700, by decide +kernel⟩,
    ⟨stx [(Reg.XFER_STATUS_QUIET,1)] (fun m => { m with intake := { m.intake with samples := List.replicate 63 280 } }), 2000, 700, by decide +kernel⟩,
    ⟨stw [(Reg.INTAKE_STATUS_ACTIVE,1)], 20000, by decide +kernel⟩,
    ⟨stw [], 900000, by decide +kernel⟩⟩

theorem witness_transfer_direction_changes :
    (∃ (s : State), s.hw.on Reg.XFER_STATUS_QUIET = false ∧ s.hw.on Reg.XFER_STATUS_LATCHED = false ∧ s.hw.rd
    Reg.XFER_STATUS_DIR = 0 ∧ s.hw.cable.srcSwitch = false ∧ s.hw.latchBad .xferCtl = false ∧ s.hw.away .h1 =
    false) ∧
    (∃ (s : State), s.hw.rd Reg.XFER_STATUS_DIR = 3 ∧ 4 ≤ s.hw.xfer.frames) ∧
    (∃ (s : State), s.hw.rd Reg.ID_STATUS_MODE = modeSERVICE ∧ s.hw.on Reg.XFER_STATUS_LATCHED = true) :=
  ⟨⟨stx [] up1, by decide +kernel⟩,
    ⟨stx [(Reg.XFER_STATUS_DIR,3)] (fun m => { m with xfer := { m.xfer with frames := 4 } }), by decide +kernel⟩,
    ⟨stw [(Reg.ID_STATUS_MODE,6),(Reg.XFER_STATUS_LATCHED,1)], by decide +kernel⟩⟩

theorem witness_intake_and_transfer_protect :
    (∃ (s : State) (temp : Int), 135 < temp ∧ s.hw.intake.thermalOpen = false) ∧
    (∃ (mv : Nat), 63000 < mv) ∧
    (∃ (s : State), s.hw.rd Reg.XFER_STATUS_DIR ≠ 0 ∧ s.hw.xfer.failures < 3) ∧
    (∃ (s : State) (a : Nat), s.hw.xfer.retryAt = some a ∧ s.hw.frnReached a = true ∧ s.hw.on
    Reg.XFER_STATUS_QUIET = false ∧ s.hw.on Reg.XFER_STATUS_LATCHED = false ∧ s.hw.rd Reg.XFER_STATUS_DIR = 0 ∧
    s.hw.xfer.fenced = false ∧ s.hw.loopValue .xferCtl = s.hw.xfer.retryDir ∧ ((s.hw.xfer.retryDir = 1 →
    s.hw.cable.srcSwitch = false)) ∧ s.hw.xfer.retryDir < 4) ∧
    (∃ (mv : Nat), 48000 < mv) ∧
    (∃ (s : State) (temp : Int), 140 < temp ∧ s.hw.xfer.thermal = false) ∧
    (∃ (s : State), s.hw.rd Reg.XFER_STATUS_DIR ≠ 0 ∧ 3 ≤ s.hw.xfer.failures) :=
  ⟨⟨stw [], 136, by decide +kernel⟩,
    ⟨63001, by decide +kernel⟩,
    ⟨stw [(Reg.XFER_STATUS_DIR,1)], by decide +kernel⟩,
    ⟨stx [] (fun m => { m.setLatch .xferCtl 1 with xfer := { m.xfer with retryAt := some 0, retryDir := 1 } }), 0, by decide +kernel⟩,
    ⟨48001, by decide +kernel⟩,
    ⟨stw [], 141, by decide +kernel⟩,
    ⟨stx [(Reg.XFER_STATUS_DIR,2)] (fun m => { m with xfer := { m.xfer with failures := 3 } }), by decide +kernel⟩⟩

theorem witness_phases_follow_the_load :
    (∃ (m : Hw), m.rd Reg.PH_STATUS_ACTIVE ≠ 0 ∧ m.rd Reg.XFER_STATUS_DBS = 0 ∧ m.rd Reg.PH_STATUS_REV = 0) ∧
    (∃ (m : Hw), m.rd Reg.PH_STATUS_ACTIVE = 0) ∧
    (∃ (s : State), s.hw.on Reg.XFER_STATUS_DBS = false ∧ s.hw.ph.regulating = true ∧ s.hw.on Reg.PH_CFG_SHED_EN
    = true ∧ s.hw.phasesOut = 0) ∧
    (∃ (s : State) (n : Fin 4), 256 ≤ s.hw.ph.limitFrames.getD n.val 0 ∧ s.hw.on (Reg.PH_TRIM_AT_LIMIT n) =
    false) ∧
    (∃ (s : State), s.hw.quietDue = false ∧ s.hw.mayStart = true ∧ s.hw.on Reg.PH_STATUS_SS = false) ∧
    (∃ (s : State) (us : Nat), s.hw.quietDue = false ∧ s.hw.on Reg.PH_STATUS_SS = true ∧ s.hw.outTarget * 1000 ≤
    s.hw.ph.ssRef + s.hw.ssRate * us) ∧
    (∃ (s : State) (us : Nat), s.hw.quietDue = false ∧ s.hw.on Reg.PH_STATUS_SS = true ∧ s.hw.ph.ssRef +
    s.hw.ssRate * us < s.hw.outTarget * 1000) ∧
    (∃ (s : State) (floor : Bool) (vout : Nat), s.hw.ph.attempts < 3 ∧ ((floor = true → s.hw.on Reg.PH_STATUS_SS
    = true ∧ s.hw.atFloor vout = true)) ∧ ((floor = false → s.hw.ph.ssEnd.isSome = true ∧ 2000 * vout <
    s.hw.ph.ssRef))) ∧
    (∃ (s : State) (floor : Bool) (vout : Nat), 3 ≤ s.hw.ph.attempts ∧ ((floor = true → s.hw.on Reg.PH_STATUS_SS
    = true ∧ s.hw.atFloor vout = true)) ∧ ((floor = false → s.hw.ph.ssEnd.isSome = true ∧ 2000 * vout <
    s.hw.ph.ssRef))) ∧
    (∃ (s : State) (a : Nat), s.hw.ph.retryAt = some a ∧ s.hw.frnReached a = true ∧ s.hw.quietDue = false ∧
    s.hw.rd Reg.PH_STATUS_LATCHED = 0) :=
  ⟨⟨(stw [(Reg.PH_STATUS_ACTIVE, 1)]).hw, by decide +kernel⟩,
    ⟨(stw []).hw, by decide +kernel⟩,
    ⟨stx [(Reg.PH_CFG_SHED_EN,1),(Reg.PH_STATUS_ACTIVE,1)] (fun m => { m with ph := { m.ph with regulating := true, want := 1 } }), by decide +kernel⟩,
    ⟨stx [] (fun m => { m with ph := { m.ph with limitFrames := [0,0,0,256] } }), 3, by decide +kernel⟩,
    ⟨stw [(Reg.MODE_STATUS_MODE,1)], by decide +kernel⟩,
    ⟨stw [(Reg.PH_STATUS_SS,1),(Reg.PH_CFG_SS_RATE,2)], 40000, by decide +kernel⟩,
    ⟨stw [(Reg.PH_STATUS_SS,1),(Reg.VSYS_SET_SET,1200)], 1000, by decide +kernel⟩,
    ⟨stx [(Reg.PH_STATUS_SS,1)] (fun m => { m with ph := { m.ph with ssRef := 4000000 } }), true, 1000, by decide +kernel⟩,
    ⟨stx [] (fun m => { m with ph := { m.ph with attempts := 3, ssEnd := some 0, ssRef := 4000000 } }), false, 1000, by decide +kernel⟩,
    ⟨stx [] (fun m => { m with ph := { m.ph with retryAt := some 0 } }), 0, by decide +kernel⟩⟩

theorem witness_phases_protect_themselves :
    (∃ (s : State) (phases : Fin 16) (vout : Nat), s.hw.on Reg.PH_STATUS_SS = false ∧ s.hw.atFloor vout = true ∧
    s.hw.rd Reg.PH_STATUS_ACTIVE ≠ 0 ∧ phases.val &&& s.hw.rd Reg.PH_STATUS_ACTIVE = s.hw.rd
    Reg.PH_STATUS_ACTIVE ∧ s.hw.ph.attempts < 3) ∧
    (∃ (s : State) (phases : Fin 16) (n : Fin 4) (vout : Nat), phases.val = 2 ^ n.val ∧ s.hw.on Reg.PH_STATUS_SS
    = false ∧ s.hw.atFloor vout = true ∧ s.hw.bit Reg.PH_STATUS_ACTIVE n.val = true ∧ s.hw.rd
    Reg.PH_STATUS_ACTIVE ≠ 2 ^ n.val) ∧
    (∃ (s : State) (mv : Nat), 31500 < mv ∧ s.hw.on Reg.PH_STATUS_REV = false) ∧
    (∃ (s : State) (n : Fin 4) (temp : Int), 140 < temp ∧ bitAt s.hw.ph.thermal n.val = false) ∧
    (∃ (s : State) (n : Fin 4) (temp : Int), temp < 120 ∧ bitAt s.hw.ph.thermal n.val = true) ∧
    (∃ (s : State) (n : Fin 4), s.hw.ph.gateTries.getD n.val 0 < 10) ∧
    (∃ (s : State), s.hw.on Reg.PH_STATUS_REV = false) ∧
    (∃ (s : State), s.hw.inService = true) ∧
    (∃ (s : State), s.hw.inService = false) :=
  ⟨⟨stw [(Reg.PH_STATUS_ACTIVE,15),(Reg.VSYS_SET_SET,1200)], 15, 3000, by decide +kernel⟩,
    ⟨stw [(Reg.PH_STATUS_ACTIVE,15),(Reg.VSYS_SET_SET,1200)], 4, 2, 3000, by decide +kernel⟩,
    ⟨stw [], 31501, by decide +kernel⟩,
    ⟨stw [], 3, 141, by decide +kernel⟩,
    ⟨stx [] (fun m => { m with ph := { m.ph with thermal := 15 } }), 3, 119, by decide +kernel⟩,
    ⟨stw [], 3, by decide +kernel⟩,
    ⟨stw [], by decide +kernel⟩,
    ⟨stw [(Reg.MODE_STATUS_MODE,6),(Reg.PH_STATUS_LATCHED,15)], by decide +kernel⟩,
    ⟨stw [], by decide +kernel⟩⟩

theorem witness_batfet_protects_the_pack :
    (∃ (s : State), s.hw.rd Reg.BATFET_STATUS_STATE = 3 ∧ s.hw.bat.pdissCap ≠ none) ∧
    (∃ (s : State), s.hw.rd Reg.BATFET_STATUS_STATE ≠ 0 ∧ s.hw.rd Reg.BATFET_STATUS_STATE ≠ 4 ∧ s.hw.bat.retries
    < 3) ∧
    (∃ (s : State), s.hw.rd Reg.BATFET_STATUS_STATE ≠ 0 ∧ s.hw.rd Reg.BATFET_STATUS_STATE ≠ 4 ∧ 3 ≤
    s.hw.bat.retries ∧ s.hw.frozen = false) ∧
    (∃ (s : State) (a : Nat), s.hw.bat.retryAt = some a ∧ s.hw.frnReached a = true ∧ s.hw.quietDue = false ∧
    s.hw.bat.latched = false) ∧
    (∃ (s : State), 256 ≤ s.hw.bat.closedFrames ∧ s.hw.bat.ocpOpen = false) ∧
    (∃ (s : State) (temp : Int), 135 < temp ∧ s.hw.bat.thermal = false) ∧
    (∃ (mv : Nat), mv < 4600) ∧
    (∃ (s : State) (mv : Nat), s.hw.on Reg.PH_STATUS_REV = true ∧ mv < s.hw.loopValue .vsysMin * 10 + 100) :=
  ⟨⟨stx [(Reg.BATFET_STATUS_STATE,3)] (fun m => { m with bat := { m.bat with pdissCap := some 900 } }), by decide +kernel⟩,
    ⟨stw [(Reg.BATFET_STATUS_STATE,2),(Reg.FRM_STATUS_FRZ,1)], by decide +kernel⟩,
    ⟨stx [(Reg.BATFET_STATUS_STATE,2)] (fun m => { m with bat := { m.bat with retries := 3 } }), by decide +kernel⟩,
    ⟨stx [] (fun m => { m with bat := { m.bat with retryAt := some 0 } }), 0, by decide +kernel⟩,
    ⟨stx [] (fun m => { m with bat := { m.bat with closedFrames := 256 } }), by decide +kernel⟩,
    ⟨stw [], 136, by decide +kernel⟩,
    ⟨4599, by decide +kernel⟩,
    ⟨stw [(Reg.PH_STATUS_REV,1),(Reg.PH_STATUS_ACTIVE,1)], 5099, by decide +kernel⟩⟩

theorem witness_packs_are_found_and_negotiated :
    (∃ (s : State) (shown : Fin 64) (vbat : Nat), s.hw.rd Reg.CHG_STATUS_STATE = 1 ∧ s.hw.chg.probe = false ∧
    5000 ≤ vbat ∧ shown.val &&& s.hw.indicators = s.hw.indicators) ∧
    (∃ (s : State) (shown : Fin 64) (vbat : Nat) (l : Profile), s.hw.rd Reg.CHG_STATUS_STATE = 1 ∧
    s.hw.chg.probe = false ∧ vbat < 5000 ∧ shown.val &&& s.hw.indicators = s.hw.indicators ∧ s.hw.chg.limits =
    some l ∧ s.hw.away .f1 = false ∧ s.hw.latchBad .chgEn = false ∧ s.hw.arch.sb.halertSeen = false) ∧
    (∃ (s : State), s.hw.rd Reg.CHG_STATUS_STATE = 1 ∧ s.hw.chg.probe = true ∧ s.hw.chg.sinkTest = false) ∧
    (∃ (s : State), s.hw.rd Reg.CHG_STATUS_STATE = 1 ∧ s.hw.chg.sinkTest = true) ∧
    (∃ (s : State) (mv : Nat) (l : Profile), s.hw.chg.limits = some l ∧ s.hw.rd Reg.CHG_STATUS_STATE = 1 ∧
    s.hw.chg.probe = true ∧ mv < 500 * l.cells) ∧
    (∃ (s : State) (ohm : Nat) (vbat : Nat) (l : Profile) (p : Profile), s.hw.rd Reg.CHG_STATUS_STATE = 2 ∧
    s.hw.chg.limits = some l ∧ 680 ≤ ohm ∧ ohm < 147000 ∧ s.hw.chg.profiles.getD (idBand ohm) none = some p ∧
    s.hw.on Reg.CHG_CFG_SBS_EN = false ∧ p.chem = l.chem ∧ p.cells = l.cells ∧ moduleCells l.chem l.cells = true
    ∧ vbat ≤ l.cells * (if l.chem = 0 then 4450 else 3750) ∧ profileBad (commonProfile p (s.hw.cfgLimits l)) = 0
    ∧ s.hw.chg.resume = none) ∧
    (∃ (s : State) (ohm : Nat) (l : Profile), s.hw.rd Reg.CHG_STATUS_STATE = 2 ∧ s.hw.chg.limits = some l ∧ ohm
    < 680) ∧
    (∃ (s : State) (r : SbsRead), s.hw.on Reg.CHG_CFG_SBS_EN = true ∧ s.hw.rd Reg.CHG_STATUS_STATE = 2 ∧ r.ichg
    < 65536) ∧
    (∃ (s : State), s.hw.rd Reg.CHG_STATUS_STATE = 8 ∧ s.hw.chg.hold = 2 ∧ s.hw.frnReached s.hw.chg.sbsRetryAt =
    true) ∧
    (∃ (s : State) (changed : Fin 64), s.hw.rd Reg.CHG_STATUS_STATE = 9 ∧ ((changed.val &&& s.hw.indicators ≠ 0
    ∨ s.hw.frnReached (s.hw.chg.absentAt + 512) = true))) :=
  ⟨⟨stw [(Reg.CHG_STATUS_STATE,1),(Reg.CHG_CFG_DET_EN,1)], 1, 5000, by decide +kernel⟩,
    ⟨stx [(Reg.CHG_STATUS_STATE,1)] (fun m => { up1 m with chg := { m.chg with limits := some prof } }), 0, 4999, prof, by decide +kernel⟩,
    ⟨stx [(Reg.CHG_STATUS_STATE,1)] (fun m => { m with chg := { m.chg with probe := true } }), by decide +kernel⟩,
    ⟨stx [(Reg.CHG_STATUS_STATE,1)] (fun m => { m with chg := { m.chg with sinkTest := true } }), by decide +kernel⟩,
    ⟨stx [(Reg.CHG_STATUS_STATE,1)] (fun m => { m with chg := { m.chg with probe := true, limits := some prof } }), 1999, prof, by decide +kernel⟩,
    ⟨stx [(Reg.CHG_STATUS_STATE,2)] (fun m => { m with chg := { m.chg with limits := some prof, profiles := List.replicate 8 (some prof) } }), 680, 15000, prof, prof, by decide +kernel⟩,
    ⟨stx [(Reg.CHG_STATUS_STATE,2)] (fun m => { m with chg := { m.chg with limits := some prof } }), 679, prof, by decide +kernel⟩,
    ⟨stw [(Reg.CHG_STATUS_STATE,2),(Reg.CHG_CFG_SBS_EN,1)], sbsr, by decide +kernel⟩,
    ⟨stx [(Reg.CHG_STATUS_STATE,8)] (fun m => { m with chg := { m.chg with hold := 2 } }), by decide +kernel⟩,
    ⟨stw [(Reg.CHG_STATUS_STATE,9),(Reg.CHG_CFG_DET_EN,1)], 1, by decide +kernel⟩⟩

theorem witness_charge_ends_and_changes :
    (∃ (s : State), s.hw.timersRun ∧ s.hw.rd Reg.CHG_STATUS_STATE = 3 ∧ 32 ≤ s.hw.chg.runUp) ∧
    (∃ (s : State), s.hw.timersRun ∧ s.hw.rd Reg.CHG_STATUS_STATE = 6 ∧ 32 ≤ s.hw.chg.runRech) ∧
    (∃ (s : State), s.hw.timersRun ∧ s.hw.rd Reg.CHG_STATUS_STATE = 5 ∧ 32 ≤ s.hw.chg.runTerm ∧ s.hw.rd
    Reg.CHG_ADJ_TCV_MIN * 60000000 ≤ s.hw.chg.cvTime) ∧
    (∃ (s : State), s.hw.preRuns = true ∧ s.hw.preLength ≤ s.hw.chg.preTime) ∧
    (∃ (s : State), s.hw.preRuns = false ∧ s.hw.fastRuns = true ∧ s.hw.fastLength ≤ s.hw.chg.fastTime) ∧
    (∃ (s : State), s.hw.chg.source = false) ∧
    (∃ (s : State) (mv : Nat), s.hw.charging = true ∧ s.hw.on Reg.CHG_STATUS_EN = true ∧ mv < 500 * s.hw.cells) ∧
    (∃ (s : State), s.hw.inService = true ∧ s.hw.rd Reg.CHG_STATUS_STATE = 10) ∧
    (∃ (s : State), s.hw.inService = false) ∧
    (∃ (s : State), s.hw.charging = true ∧ s.hw.chg.source = true ∧ s.hw.rd Reg.MODE_STATUS_MODE = 2 ∧
    s.hw.arch.sb.halertSeen = false ∧ s.hw.latchBad .chgEn = false ∧ s.hw.away .f1 = false) :=
  ⟨⟨stx [(Reg.CHG_STATUS_STATE,3)] (fun m => { m with chg := { m.chg with runUp := 32 } }), by decide +kernel⟩,
    ⟨stx [(Reg.CHG_STATUS_STATE,6)] (fun m => { m with chg := { m.chg with runRech := 32 } }), by decide +kernel⟩,
    ⟨stx [(Reg.CHG_STATUS_STATE,5),(Reg.CHG_ADJ_TCV_MIN,2)] (fun m => { m with chg := { m.chg with runTerm := 32, cvTime := 120000000 } }), by decide +kernel⟩,
    ⟨stx [(Reg.CHG_STATUS_STATE,3)] (fun m => { m with chg := { m.chg with preTime := 900000000 * 255 } }), by decide +kernel⟩,
    ⟨stx [(Reg.CHG_STATUS_STATE,4)] (fun m => { m with chg := { m.chg with fastTime := 3600000000 * 255 } }), by decide +kernel⟩,
    ⟨stx [] (fun m => { m with chg := { m.chg with source := false } }), by decide +kernel⟩,
    ⟨stw [(Reg.CHG_STATUS_STATE,4),(Reg.CHG_STATUS_EN,1),(Reg.CHG_PROF_A_CELLS,4)], 1999, by decide +kernel⟩,
    ⟨stw [(Reg.CHG_STATUS_STATE,10),(Reg.MODE_STATUS_MODE,6)], by decide +kernel⟩,
    ⟨stw [], by decide +kernel⟩,
    ⟨stx [(Reg.CHG_STATUS_STATE,4),(Reg.MODE_STATUS_MODE,2)] (fun m => { up1 m with chg := { m.chg with source := true } }), by decide +kernel⟩⟩

theorem witness_pack_sensors_and_controls_act :
    (∃ (s : State) (i : Fin 4), s.hw.tsUse i.val = 1 ∧ bitAt s.hw.chg.hwStop i.val = false) ∧
    (∃ (s : State) (i : Fin 4), s.hw.tsUse i.val = 1 ∧ s.hw.chg.removal = none ∧ s.hw.seq.removedHold = false) ∧
    (∃ (s : State) (i : Fin 4), s.hw.tsUse i.val ≠ 0) ∧
    (∃ (s : State) (t : Nat) (vbat : Nat) (detectors : Fin 64), (s.hw.atT t).detectorsHeard vbat detectors.val ≠
    0 ∧ s.hw.packIn = true ∧ s.hw.chg.removal = none) ∧
    (∃ (s : State) (b : Nat), s.hw.chg.removal = some b) ∧
    (∃ (s : State), s.hw.modes.halted = false ∧ s.hw.quietDue = false) :=
  ⟨⟨stw [(Reg.CHG_CFG_TS,0x55)], 3, by decide +kernel⟩,
    ⟨stx [(Reg.CHG_CFG_TS,0x55),(Reg.CHG_TEMP_TS,0x12345678)] (fun m => { m with seq := { m.seq with removedHold := false } }), 3, by decide +kernel⟩,
    ⟨stw [(Reg.CHG_CFG_TS,0x55),(Reg.CHG_TEMP_TS,0x12345678)], 2, by decide +kernel⟩,
    ⟨stw [(Reg.CHG_STATUS_PRESENT,1),(Reg.FRM_STATUS_FRZ,1)], 3, 15000, 5, by decide +kernel⟩,
    ⟨stx [] (fun m => { m with chg := { m.chg with removal := some 7 } }), 7, by decide +kernel⟩,
    ⟨stw [], by decide +kernel⟩⟩

theorem witness_rails_start_stop_and_retry :
    (∃ (s : State) (n : Fin 3), s.hw.rails.rail.length = 5 ∧ s.hw.polMaySwitch n.val = true ∧ s.hw.polWanted
    n.val = true ∧ s.hw.railOn n.val = false) ∧
    (∃ (s : State) (n : Fin 3) (us : Nat), s.hw.rails.rail.length = 5 ∧ s.hw.polMaySwitch n.val = true ∧
    s.hw.railOn n.val = true ∧ (s.hw.rail n.val).ss = true ∧ railMv n.val (s.hw.loopValue (railLatch n.val)) *
    1000 ≤ (s.hw.rail n.val).ref + slewRate (s.hw.rail n.val).slew * us) ∧
    (∃ (s : State) (n : Fin 3) (floor : Bool) (vout : Nat), s.hw.rails.rail.length = 5 ∧ (s.hw.rail
    n.val).attempts < 3 ∧ ((floor = true → (s.hw.rail n.val).ss = true ∧ s.hw.polAtFloor n.val vout = true)) ∧
    ((floor = false → (s.hw.rail n.val).ssEnd.isSome = true ∧ 2000 * vout < (s.hw.rail n.val).ref))) ∧
    (∃ (s : State) (n : Fin 3) (floor : Bool) (vout : Nat), s.hw.rails.rail.length = 5 ∧ 3 ≤ (s.hw.rail
    n.val).attempts ∧ ((floor = true → (s.hw.rail n.val).ss = true ∧ s.hw.polAtFloor n.val vout = true)) ∧
    ((floor = false → (s.hw.rail n.val).ssEnd.isSome = true ∧ 2000 * vout < (s.hw.rail n.val).ref))) ∧
    (∃ (s : State) (n : Fin 3) (a : Nat), s.hw.rails.rail.length = 5 ∧ (s.hw.rail n.val).retryAt = some a ∧
    s.hw.frnReached a = true ∧ s.hw.quietDue = false) ∧
    (∃ (s : State) (n : Fin 3) (vout : Nat), s.hw.rails.rail.length = 5 ∧ s.hw.railOn n.val = true ∧ (s.hw.rail
    n.val).ss = false ∧ s.hw.polAtFloor n.val vout = true ∧ (s.hw.rail n.val).attempts < 3) ∧
    (∃ (s : State) (n : Fin 3) (mv : Nat), railMv n.val (s.hw.loopValue (railLatch n.val)) * 110 < mv * 100) ∧
    (∃ (s : State) (vsys : Nat), vsys < 4200 ∧ s.hw.rails.rail.length = 5) ∧
    (∃ (s : State), s.hw.rails.rail.length = 5) ∧
    (∃ (s : State) (n : Fin 3), s.hw.frozen = true ∧ s.hw.railOn n.val = true ∧ s.hw.polPolicy n.val = 0 ∧
    (s.hw.rail n.val).runOpen = false) ∧
    (∃ (s : State) (n : Fin 3), s.hw.bit Reg.RAIL_STATUS_HOLD_ACT n.val = true ∧ (s.hw.rail n.val).holdSaid =
    false) ∧
    (∃ (s : State), s.hw.inService = true) ∧
    (∃ (s : State) (n : Fin 2), s.hw.railOn (3 + n.val) = true ∧ (s.hw.rail (3 + n.val)).runOpen = false) ∧
    (∃ (s : State) (n : Fin 2) (temp : Int), 150 ≤ temp ∧ s.hw.rails.rail.length = 5 ∧ (s.hw.rail (3 +
    n.val)).fold = false) :=
  ⟨⟨stx [(Reg.MODE_STATUS_MODE,1),(Reg.POL_SET_SET 2,200)] pwrUp, 2, by decide +kernel⟩,
    ⟨stx [(Reg.RAIL_STATUS_POL_ON,7),(Reg.POL_SET_SET 2,200)] (rail3 fun r => { r with ss := true, ref := 990000, slew := 0 }), 2, 40, by decide +kernel⟩,
    ⟨stx [(Reg.RAIL_STATUS_POL_ON,7)] (rail3 fun r => { r with ss := true, ref := 1000000 }), 2, true, 250, by decide +kernel⟩,
    ⟨stx [(Reg.RAIL_STATUS_POL_ON,7)] (rail3 fun r => { r with ssEnd := some 0, ref := 1000000, attempts := 3 }), 2, false, 499, by decide +kernel⟩,
    ⟨stx [] (rail3 fun r => { r with retryAt := some 0, stopped := true }), 1, 0, by decide +kernel⟩,
    ⟨stx [(Reg.RAIL_STATUS_POL_ON,7),(Reg.POL_SET_SET 0,200)] (rail3 fun r => { r with ref := 1000000 }), 0, 200, by decide +kernel⟩,
    ⟨stx [(Reg.POL_SET_SET 0,200)] id, 0, 1101, by decide +kernel⟩,
    ⟨stx [(Reg.RAIL_STATUS_POL_ON,7)] id, 4199, by decide +kernel⟩,
    ⟨stx [] (rail3 fun r => { r with uvlo := true }), by decide +kernel⟩,
    ⟨stx [(Reg.RAIL_STATUS_POL_ON,7),(Reg.FRM_STATUS_FRZ,1)] (fun m => { m with arch := { m.arch with frzPol := 0 } }), 2, by decide +kernel⟩,
    ⟨stx [(Reg.RAIL_STATUS_HOLD_ACT,7)] id, 2, by decide +kernel⟩,
    ⟨stx [(Reg.MODE_STATUS_MODE,6)] id, by decide +kernel⟩,
    ⟨stx [(Reg.RAIL_STATUS_QR_ON,3)] id, 1, by decide +kernel⟩,
    ⟨stx [(Reg.RAIL_STATUS_QR_ON,3)] id, 1, 150, by decide +kernel⟩⟩

theorem witness_rail_link_commands_act :
    (∃ (s : State) (rail : Fin 3), s.hw.override rail.val = false ∧ s.hw.away .f4 = false ∧ s.hw.railFenced
    rail.val = false ∧ s.hw.latchBad (railLatch rail.val) = false) ∧
    (∃ (s : State) (r : RlResp), s.hw.rlHeard = true ∧ s.hw.rl.immediate = some r) ∧
    (∃ (s : State), s.hw.rlHeard = true ∧ ((s.hw.mode = modeSTART → (s.hw.engine .f4).running = true))) ∧
    (∃ (s : State) (rail : Fin 8) (code : Fin 2048), s.hw.rlHeard = true ∧ s.hw.on Reg.RL_STATUS_SESSION = true
    ∧ s.hw.rl.events.length < 16 ∧ 1 ≤ rail.val ∧ rail.val ≤ 5 ∧ codeOk (rail.val - 1) code.val = true ∧
    s.hw.railRefuses (rail.val - 1) = false ∧ s.hw.railOn (rail.val - 1) = true ∧ s.hw.away .f4 = false ∧
    s.hw.railRoom (rail.val - 1) ∧ s.hw.latchBad (railLatch (rail.val - 1)) = false) ∧
    (∃ (s : State) (rail : Fin 8), s.hw.rlHeard = true ∧ s.hw.on Reg.RL_STATUS_SESSION = true ∧
    s.hw.rl.events.length < 16 ∧ 1 ≤ rail.val ∧ rail.val ≤ 5 ∧ s.hw.railRefuses (rail.val - 1) = false ∧
    s.hw.f4Acts = true ∧ s.hw.railRoom (rail.val - 1)) ∧
    (∃ (s : State) (rail : Fin 8), s.hw.rlHeard = true ∧ s.hw.on Reg.RL_STATUS_SESSION = true ∧
    s.hw.rl.events.length < 16 ∧ 1 ≤ rail.val ∧ rail.val ≤ 5 ∧ s.hw.railRefuses (rail.val - 1) = false ∧
    s.hw.f4Acts = true ∧ s.hw.railRoom (rail.val - 1) ∧ s.hw.rails.rail.length = 5) ∧
    (∃ (s : State) (rail : Fin 4) (code : Fin 2048), s.hw.rlHeard = true ∧ s.hw.on Reg.RL_STATUS_SESSION = true
    ∧ rail.val ≠ 0 ∧ ((code.val = 0 ∨ codeOk (rail.val - 1) code.val = true)) ∧ s.hw.railRefuses (rail.val - 1)
    = false ∧ s.hw.on Reg.RL_CFG_TABLE_WR = true) ∧
    (∃ (s : State), s.hw.rlHeard = true ∧ s.hw.on Reg.RL_STATUS_SESSION = true ∧ s.hw.rl.events.length < 16) ∧
    (∃ (s : State) (len : Fin 512), s.hw.rlHeard = true ∧ s.hw.on Reg.RL_STATUS_SESSION = true ∧ 1 ≤ len.val ∧
    len.val ≤ 500) ∧
    (∃ (s : State) (f7 : Nat) (len : Nat), s.hw.rlHeard = true ∧ s.hw.on Reg.RL_STATUS_SESSION = true ∧
    s.hw.rl.events.length < 16 ∧ s.hw.rl.aptA = some (f7, len)) ∧
    (∃ (s : State) (rail : Fin 8), s.hw.rlHeard = true ∧ s.hw.on Reg.RL_STATUS_SESSION = true ∧ 1 ≤ rail.val ∧
    rail.val ≤ 5 ∧ s.hw.railRefuses (rail.val - 1) = false) ∧
    (∃ (s : State) (rail : Fin 8), s.hw.rlHeard = true ∧ s.hw.on Reg.RL_STATUS_SESSION = true ∧ 1 ≤ rail.val ∧
    rail.val ≤ 5 ∧ s.hw.railRefuses (rail.val - 1) = true) ∧
    (∃ (s : State), s.hw.rlHeard = true ∧ s.hw.on Reg.RL_STATUS_SESSION = true) ∧
    (∃ (s : State), s.hw.rlHeard = true ∧ s.hw.on Reg.RL_STATUS_SESSION = true) ∧
    (∃ (s : State), s.hw.rlHeard = true) ∧
    (∃ (s : State), s.hw.rlHeard = true) ∧
    (∃ (s : State) (rail : Fin 5) (mv : Nat), s.hw.rails.rail.length = 5 ∧ s.hw.railOn rail.val = true ∧
    s.hw.refHeld rail.val = false ∧ railMv rail.val (s.hw.railCode rail.val) * 99 ≤ mv * 100 ∧ mv * 100 ≤ railMv
    rail.val (s.hw.railCode rail.val) * 101) ∧
    (∃ (s : State) (rail : Fin 5), s.hw.rails.rail.length = 5 ∧ s.hw.offTarget rail.val = true) ∧
    (∃ (s : State) (rail : Fin 5), s.hw.railOn rail.val = true ∧ s.hw.refHeld rail.val = true ∧ s.hw.within1
    rail.val ((s.hw.rail rail.val).ref / 1000) = false) :=
  ⟨⟨stx [(Reg.POL_VTAB_ENTRY_HI 5,300)] up1, 2, by decide +kernel⟩,
    ⟨stx [] (rlUp fun x => { x with immediate := some ⟨1,2,3⟩ }), ⟨1,2,3⟩, by decide +kernel⟩,
    ⟨stx [(Reg.RAIL_STATUS_POL_OVR,5),(Reg.FRM_STATUS_OVR,1)] (rlUp id), by decide +kernel⟩,
    ⟨stx [(Reg.RL_STATUS_SESSION,1),(Reg.RAIL_STATUS_POL_ON,7)] (fun m => up1 (rlUp id m)), 3, 1100, by decide +kernel⟩,
    ⟨stx [(Reg.RL_STATUS_SESSION,1),(Reg.RAIL_STATUS_QR_OVR,3)] (fun m => up1 (rlUp id m)), 5, by decide +kernel⟩,
    ⟨stx [(Reg.RL_STATUS_SESSION,1)] (fun m => up1 (rlUp id m)), 5, by decide +kernel⟩,
    ⟨stx [(Reg.RL_STATUS_SESSION,1),(Reg.RL_CFG_TABLE_WR,1)] (fun m => up1 (rlUp id m)), 3, 1100, by decide +kernel⟩,
    ⟨stx [(Reg.RL_STATUS_SESSION,1)] (rlUp id), by decide +kernel⟩,
    ⟨stx [(Reg.RL_STATUS_SESSION,1)] (rlUp id), 500, by decide +kernel⟩,
    ⟨stx [(Reg.RL_STATUS_SESSION,1)] (rlUp fun x => { x with aptA := some (3,500) }), 3, 500, by decide +kernel⟩,
    ⟨stx [(Reg.RL_STATUS_SESSION,1)] (rlUp id), 5, by decide +kernel⟩,
    ⟨stx [(Reg.RL_STATUS_SESSION,1),(Reg.RAIL_STATUS_POL_LATCHED,1)] (rlUp id), 1, by decide +kernel⟩,
    ⟨stx [(Reg.RL_STATUS_SESSION,1)] (rlUp id), by decide +kernel⟩,
    ⟨stx [(Reg.RL_STATUS_SESSION,1)] (rlUp id), by decide +kernel⟩,
    ⟨stx [] (rlUp id), by decide +kernel⟩,
    ⟨stx [] (rlUp id), by decide +kernel⟩,
    ⟨stx [(Reg.POL_SET_SET 2,200),(Reg.RAIL_STATUS_POL_ON,7)] (rail3 fun r => { r with tag := some 3 }), 2, 990, by decide +kernel⟩,
    ⟨stx [] (rail3 fun r => { r with tag := some 3 }), 1, by decide +kernel⟩,
    ⟨stx [(Reg.POL_SET_SET 2,200),(Reg.RAIL_STATUS_POL_ON,7),(Reg.FRM_STATUS_FRZ,1)] id, 2, by decide +kernel⟩⟩

theorem witness_keep_alive_rail_is_watched :
    (∃ (s : State), s.hw.on Reg.KA_SET_EN = true ∧ s.hw.rails.kaInvalid = false) ∧
    (∃ (s : State) (t : Nat), s.hw.rails.kaArmed = true ∧ s.hw.rails.kaGap = none ∧ 200000 ≤ t) ∧
    (∃ (s : State) (t : Nat), s.hw.rails.kaArmed = true ∧ s.hw.rails.kaGap = none ∧ t < 200000) ∧
    (∃ (s : State) (g : KaGap), s.hw.on Reg.RAIL_STATUS_KA_ON = true ∧ s.hw.rails.kaArmed = true ∧
    s.hw.rails.kaGap = some g ∧ (s.hw.engine .f6).restarting = false ∧ s.hw.rails.kaStored = []) ∧
    (∃ (s : State), s.hw.on Reg.RAIL_STATUS_KA_ON = true ∧ s.hw.rails.kaArmed = true ∧ s.hw.rails.kaGap = none) ∧
    (∃ (s : State), s.hw.on Reg.RAIL_STATUS_KA_ON = true) ∧
    (∃ (temp : Int), 150 ≤ temp) ∧
    (∃ (temp : Int), temp < 130) ∧
    (∃ (s : State), s.hw.on Reg.KA_SET_TWIN = true ∧ s.hw.on Reg.RAIL_STATUS_KA_ON = true ∧ s.hw.on
    Reg.RAIL_STATUS_KA_STBY = true) ∧
    (∃ (s : State), s.hw.twin.standby = false) :=
  ⟨⟨stw [(Reg.KA_SET_EN,1)], by decide +kernel⟩,
    ⟨stx [] (fun m => { m with rails := { m.rails with kaArmed := true } }), 200004, by decide +kernel⟩,
    ⟨stx [] (fun m => { m with rails := { m.rails with kaArmed := true } }), 4, by decide +kernel⟩,
    ⟨stx [(Reg.RAIL_STATUS_KA_ON,1)] (fun m => up1 { m with rails := { m.rails with kaArmed := true, kaGap := some ⟨1,2,0,0,9,0⟩ } }), ⟨1,2,0,0,9,0⟩, by decide +kernel⟩,
    ⟨stx [(Reg.RAIL_STATUS_KA_ON,1)] (fun m => { m with rails := { m.rails with kaArmed := true } }), by decide +kernel⟩,
    ⟨stw [(Reg.RAIL_STATUS_KA_ON,1)], by decide +kernel⟩,
    ⟨150, by decide +kernel⟩,
    ⟨129, by decide +kernel⟩,
    ⟨stw [(Reg.KA_SET_TWIN,1),(Reg.RAIL_STATUS_KA_ON,1),(Reg.RAIL_STATUS_KA_STBY,1)], by decide +kernel⟩,
    ⟨stw [(Reg.RAIL_STATUS_KA_STBY,1)], by decide +kernel⟩⟩

theorem witness_cable_port_attaches :
    (∃ (s : State) (rp : Fin 4), s.hw.port = 0 ∧ rp.val ≠ 0 ∧ s.hw.on Reg.INTAKE_STATUS_VBUS_QUAL = true) ∧
    (∃ (s : State), s.hw.port = 0 ∧ s.hw.permitted = true) ∧
    (∃ (s : State), s.hw.port ≠ 0) ∧
    (∃ (s : State), s.hw.port = 0) ∧
    (∃ (s : State), s.hw.port ≠ 0) ∧
    (∃ (s : State), s.hw.port = 0 ∧ s.hw.cable.rp = true) ∧
    (∃ (s : State), s.hw.port = 0 ∧ s.hw.inService = false) ∧
    (∃ (s : State), s.hw.port = 0) ∧
    (∃ (s : State), s.hw.on Reg.CBL_STATUS_VCONN = true) ∧
    (∃ (s : State), s.hw.pdServes = true ∧ s.hw.on Reg.CBL_STATUS_VCONN = true ∧ s.hw.cable.discTries < 20) ∧
    (∃ (s : State), s.hw.port ≠ 2) ∧
    (∃ (s : State), s.hw.port = 5) :=
  ⟨⟨stw [(Reg.INTAKE_STATUS_VBUS_QUAL,1)], 3, by decide +kernel⟩,
    ⟨stx [] perm, by decide +kernel⟩,
    ⟨stw [(Reg.CBL_STATUS_STATE,2),(Reg.CBL_STATUS_FS_MODE,1)], by decide +kernel⟩,
    ⟨stw [], by decide +kernel⟩,
    ⟨stw [(Reg.CBL_STATUS_STATE,1)], by decide +kernel⟩,
    ⟨stx [] (fun m => { m with cable := { m.cable with rp := true } }), by decide +kernel⟩,
    ⟨stw [], by decide +kernel⟩,
    ⟨stx [] perm, by decide +kernel⟩,
    ⟨stw [(Reg.CBL_STATUS_VCONN,1)], by decide +kernel⟩,
    ⟨stw [(Reg.CBL_STATUS_VCONN,1)], by decide +kernel⟩,
    ⟨stw [(Reg.CBL_STATUS_VCONN,1)], by decide +kernel⟩,
    ⟨stw [(Reg.CBL_STATUS_STATE,5)], by decide +kernel⟩⟩

theorem witness_sink_contracts_and_swaps :
    (∃ (s : State) (p : Pdo), s.hw.pdServes = true ∧ s.hw.port = 1 ∧ p.kind = .fixed ∧ p.vmax = 5000 ∧ 50 ≤
    s.hw.rd Reg.CBL_SNK_CFG_VMAX) ∧
    (∃ (s : State) (x : Terms), s.hw.pdServes = true ∧ s.hw.port = 1 ∧ s.hw.cable.swap ≠ 1 ∧ s.hw.cable.req =
    some x) ∧
    (∃ (s : State) (x : Terms), s.hw.pdServes = true ∧ s.hw.port = 1 ∧ s.hw.cable.frsRx = false ∧
    s.hw.cable.swap = 0 ∧ s.hw.cable.transit = true ∧ s.hw.cable.req = some x ∧ x.mv / 10 < 2 ^
    Reg.CBL_CONTRACT_VOLT.width) ∧
    (∃ (s : State), s.hw.pdServes = true ∧ s.hw.port = 1 ∧ s.hw.rd Reg.CBL_CONTRACT_TYPE = 2 ∧
    s.hw.cable.transit = false) ∧
    (∃ (s : State), s.hw.pdServes = true ∧ s.hw.on Reg.CBL_STATUS_EPR = true ∧ s.hw.cable.eprMiss = 2) ∧
    (∃ (s : State), s.hw.pdServes = true ∧ ((s.hw.port = 1 ∨ s.hw.port = 2))) ∧
    (∃ (s : State), s.hw.pdServes = true ∧ s.hw.port = 1 ∧ s.hw.permitted = true) ∧
    (∃ (s : State), s.hw.pdServes = true ∧ s.hw.port = 2) ∧
    (∃ (s : State), s.hw.pdServes = true ∧ ((s.hw.port = 1 ∨ s.hw.port = 2)) ∧ s.hw.cable.swap = 0) ∧
    (∃ (s : State), s.hw.pdServes = true ∧ ((s.hw.port = 1 ∨ s.hw.port = 2)) ∧ s.hw.on Reg.CBL_CFG_DR_SWAP_ACC =
    true ∧ s.hw.on Reg.CBL_STATUS_FS_MODE = false) ∧
    (∃ (s : State), s.hw.pdServes = true) ∧
    (∃ (s : State), s.hw.pdServes = true ∧ s.hw.port = 1) ∧
    (∃ (s : State), s.hw.pdServes = true ∧ s.hw.port = 1 ∧ 2 ≤ s.hw.cable.hardResets) ∧
    (∃ (s : State), s.hw.pdServes = true ∧ s.hw.port = 1 ∧ s.hw.cable.swap = 0) :=
  ⟨⟨stw [(Reg.CBL_STATUS_STATE,1),(Reg.CBL_SNK_CFG_VMAX,50)], { kind := PdoKind.fixed, vmin := 5000, vmax := 5000, imax := 3000, pos := 1, pdp := 0 }, by decide +kernel⟩,
    ⟨stx [(Reg.CBL_STATUS_STATE,1)] (fun m => { m with cable := { m.cable with req := some trm } }), trm, by decide +kernel⟩,
    ⟨stx [(Reg.CBL_STATUS_STATE,1)] (fun m => { m with cable := { m.cable with req := some trm, transit := true } }), trm, by decide +kernel⟩,
    ⟨stw [(Reg.CBL_STATUS_STATE,1),(Reg.CBL_CONTRACT_TYPE,2)], by decide +kernel⟩,
    ⟨stx [(Reg.CBL_STATUS_EPR,1)] (fun m => { m with cable := { m.cable with eprMiss := 2 } }), by decide +kernel⟩,
    ⟨stw [(Reg.CBL_STATUS_STATE,2)], by decide +kernel⟩,
    ⟨stx [(Reg.CBL_STATUS_STATE,1)] perm, by decide +kernel⟩,
    ⟨stw [(Reg.CBL_STATUS_STATE,2)], by decide +kernel⟩,
    ⟨stw [(Reg.CBL_STATUS_STATE,2)], by decide +kernel⟩,
    ⟨stw [(Reg.CBL_STATUS_STATE,2),(Reg.CBL_CFG_DR_SWAP_ACC,1)], by decide +kernel⟩,
    ⟨stw [], by decide +kernel⟩,
    ⟨stw [(Reg.CBL_STATUS_STATE,1)], by decide +kernel⟩,
    ⟨stx [(Reg.CBL_STATUS_STATE,1),(Reg.CBL_STATUS_RP,2)] (fun m => { m with cable := { m.cable with hardResets := 2 } }), by decide +kernel⟩,
    ⟨stw [(Reg.CBL_STATUS_STATE,1)], by decide +kernel⟩⟩

theorem witness_source_role_and_frame_share :
    (∃ (s : State), s.hw.port = 2 ∧ s.hw.cable.asked = false ∧ s.hw.permitted = true) ∧
    (∃ (s : State) (vcbuf : Nat), s.hw.port = 2 ∧ 5000 ≤ vcbuf ∧ s.hw.rd Reg.INTAKE_STATUS_ACTIVE ≠ 1 ∧
    s.hw.cable.asked = true ∧ s.hw.cable.granted = true) ∧
    (∃ (s : State) (vbus : Nat), s.hw.port = 2 ∧ vbus < 4750) ∧
    (∃ (s : State) (pos : Fin 16) (curr : Nat), s.hw.pdServes = true ∧ s.hw.port = 2 ∧ s.hw.cable.srcSwitch =
    true ∧ pos.val < 5 ∧ curr ≤ s.hw.rd Reg.CBL_OFFER_A_I5) ∧
    (∃ (pos : Fin 16) (pd3 : Bool) (mv : Nat), (pd3 = false ∨ pos.val < 5) ∧ mv = 12000) ∧
    (∃ (s : State) (x : Terms), s.hw.cable.req = some x ∧ s.hw.port = 2 ∧ s.hw.cable.transit = true) ∧
    (∃ (s : State) (vbus : Nat) (x : Terms), s.hw.cable.req = some x ∧ s.hw.port = 2 ∧ s.hw.cable.transit = true
    ∧ sourceTarget x * 97 ≤ vbus * 100 ∧ vbus * 100 ≤ sourceTarget x * 103) ∧
    (∃ (s : State) (ma : Nat), s.hw.port = 2 ∧ s.hw.cable.ocps = [] ∧ (s.hw.rd Reg.CBL_STATUS_EXPLICIT = 0 ∨
    s.hw.srcLimit ≤ ma)) ∧
    (∃ (s : State), s.hw.port = 2 ∧ s.hw.rd Reg.CBL_CONTRACT_TYPE = 2) ∧
    (∃ (s : State), s.hw.port = 2 ∧ s.hw.on Reg.CBL_CFG_FRS_TX_EN = false) ∧
    (∃ (s : State), s.hw.port = 2 ∧ s.hw.on Reg.CBL_CFG_FRS_TX_EN = false) ∧
    (∃ (s : State), s.hw.port = 2 ∧ s.hw.on Reg.INTAKE_STATUS_DCIN_QUAL = true ∧ s.hw.on
    Reg.CBL_CFG_DCIN_ENDS_SRC = true ∧ s.hw.on Reg.CBL_CFG_FRS_TX_EN = false) ∧
    (∃ (s : State), s.hw.on Reg.CBL_STATUS_FRS_ARMED = true) ∧
    (∃ (s : State), s.hw.pdServes = true ∧ s.hw.cable.frsSent = true) ∧
    (∃ (s : State), s.hw.cable.frsSent = true) ∧
    (∃ (s : State), s.hw.pdServes = true ∧ s.hw.on Reg.CBL_CFG_FS_EN = true ∧ s.hw.on Reg.CBL_STATUS_EXPLICIT =
    true ∧ s.hw.on Reg.CBL_CABLE_NO_SBU = false ∧ s.hw.on Reg.CBL_STATUS_FS_MODE = false ∧ s.hw.cable.fsTries <
    2 ∧ s.hw.on Reg.CBL_STATUS_DFP = true ∧ s.hw.rd Reg.CBL_FS_CFG_TICK = 2) ∧
    (∃ (s : State), s.hw.port = 2 ∧ s.hw.host.pinLow = true) :=
  ⟨⟨stx [(Reg.CBL_STATUS_STATE,2)] perm, by decide +kernel⟩,
    ⟨stx [(Reg.CBL_STATUS_STATE,2)] (fun m => { m with cable := { m.cable with asked := true, granted := true } }), 5000, by decide +kernel⟩,
    ⟨stw [(Reg.CBL_STATUS_STATE,2)], 4749, by decide +kernel⟩,
    ⟨stx [(Reg.CBL_STATUS_STATE,2),(Reg.CBL_OFFER_A_I5,300)] (fun m => { m with cable := { m.cable with srcSwitch := true } }), 4, 300, by decide +kernel⟩,
    ⟨4, false, 12000, by decide +kernel⟩,
    ⟨stx [(Reg.CBL_STATUS_STATE,2)] (fun m => { m with cable := { m.cable with req := some trm, transit := true } }), trm, by decide +kernel⟩,
    ⟨stx [(Reg.CBL_STATUS_STATE,2)] (fun m => { m with cable := { m.cable with req := some trm, transit := true } }), 8905, trm, by decide +kernel⟩,
    ⟨stw [(Reg.CBL_STATUS_STATE,2)], 3300, by decide +kernel⟩,
    ⟨stw [(Reg.CBL_STATUS_STATE,2),(Reg.CBL_CONTRACT_TYPE,2)], by decide +kernel⟩,
    ⟨stw [(Reg.CBL_STATUS_STATE,2)], by decide +kernel⟩,
    ⟨stw [(Reg.CBL_STATUS_STATE,2)], by decide +kernel⟩,
    ⟨stw [(Reg.CBL_STATUS_STATE,2),(Reg.INTAKE_STATUS_DCIN_QUAL,1),(Reg.CBL_CFG_DCIN_ENDS_SRC,1)], by decide +kernel⟩,
    ⟨stw [(Reg.CBL_STATUS_FRS_ARMED,1)], by decide +kernel⟩,
    ⟨stx [] (fun m => { m with cable := { m.cable with frsSent := true } }), by decide +kernel⟩,
    ⟨stx [] (fun m => { m with cable := { m.cable with frsSent := true } }), by decide +kernel⟩,
    ⟨stw [(Reg.CBL_CFG_FS_EN,1),(Reg.CBL_STATUS_EXPLICIT,1),(Reg.CBL_STATUS_DFP,1),(Reg.CBL_FS_CFG_TICK,2)], by decide +kernel⟩,
    ⟨stx [(Reg.CBL_STATUS_STATE,2)] (fun m => { m with host := { m.host with pinLow := true } }), by decide +kernel⟩⟩

theorem witness_measurement_runs :
    (∃ (s : State) (e : Fin 16) (x : Samples) (i : Nat) (sl : Option Nat) (ds : List (Nat × Option Nat)),
    s.hw.adc.due = (i, sl) :: ds ∧ i % 16 = e.val ∧ s.hw.seqOn i = true ∧ ((∀ k ∈ sl, slotStart s.hw.seq.len k ≤
    x.t)) ∧ s.hw.bit Reg.ADC_STATUS_ACTIVE x.slice.val = true ∧ s.hw.adc.queue.length < 992 ∧ s.hw.adc.inj = []
    ∧ s.hw.canIssue 17 (0x28 + x.slice.val) false false = true ∧ s.hw.host.work = []) ∧
    (∃ (s : State) (tkt : Fin 512) (x : Samples) (c : Conv), s.hw.adc.inj = [c] ∧ c.tkt = tkt.val ∧ c.result =
    none ∧ s.hw.tktState tkt.val = .running ∧ s.hw.bit Reg.ADC_STATUS_ACTIVE x.slice.val = true ∧ s.hw.host.work
    = []) ∧
    (∃ (s : State) (out : Nat), s.hw.rd Reg.ADC_STATUS_SPARE ≠ 7 ∧ s.hw.adc.spareReady = true ∧ s.hw.on
    Reg.ADC_STATUS_ROT_STOP = false ∧ s.hw.adc.rotAt + 50000000 ≤ s.hw.seq.tickAt + s.hw.seq.len ∧
    s.hw.injPending.length < s.hw.activeCount ∧ nextSlice (s.hw.rd Reg.ADC_STATUS_SPARE) ((List.range 5).filter
    fun i => s.hw.bit Reg.ADC_STATUS_ACTIVE i) = some out) ∧
    (∃ (s : State) (c : CalRun), s.hw.rd Reg.ADC_STATUS_SPARE < 5 ∧ s.hw.adc.slices.length = 5 ∧ calStep
    (s.hw.slice (s.hw.rd Reg.ADC_STATUS_SPARE)) c = 0) ∧
    (∃ (s : State) (slice : Fin 5), s.hw.bit Reg.ADC_STATUS_FENCED slice.val = false) ∧
    (∃ (s : State), s.hw.adc.fgDone = false) ∧
    (∃ (s : State), s.hw.on Reg.ADC_STATUS_FGCAL = true) ∧
    (∃ (s : State), s.hw.on Reg.ADC_STATUS_REF_ON = true) ∧
    (∃ (s : State) (ppm : Int), 5000 < ppm.natAbs ∧ s.hw.adc.refMon = false) ∧
    (∃ (s : State) (current : Nat), s.hw.on Reg.ADC_CFG_REFOUT_EN = true ∧ s.hw.refCoreOn = true ∧ 120 <
    current) ∧
    (∃ (s : State), s.hw.adc.ovrRuns = []) ∧
    (∃ (s : State), s.hw.on Reg.RTC_STATUS_VALID = true ∧ s.hw.adc.inUse ≠ [] ∧ s.hw.rd Reg.CAL_DUE_DUE ≤
    s.hw.timeNow.1 ∧ s.hw.on Reg.ADC_STATUS_DUE_PASSED = false) ∧
    (∃ (s : State), s.hw.inService = true) :=
  ⟨⟨stx [(Reg.ADC_SEQ_EN 3,1),(Reg.ADC_SEQ_TAG 3,32),(Reg.ADC_SEQ_HOST 3,1),(Reg.ADC_STATUS_ACTIVE,15)] (fun m => { m with adc := { m.adc with due := [(3, none)] } }), 3, smp, 3, none, [], by decide +kernel⟩,
    ⟨stx [(Reg.ADC_STATUS_ACTIVE,15)] (fun m => { m with adc := { m.adc with inj := [⟨5,9,1,none⟩] }, tkt := { m.tkt with table := [tck 5 16] } }), 5, smp, ⟨5,9,1,none⟩, by decide +kernel⟩,
    ⟨stx [(Reg.ADC_STATUS_ACTIVE,15),(Reg.ADC_STATUS_SPARE,4)] (fun m => { m with adc := { m.adc with spareReady := true }, seq := { m.seq with tickAt := 50000000 } }), 0, by decide +kernel⟩,
    ⟨stw [(Reg.ADC_STATUS_SPARE,4)], { offset := 3, gain := 4, weights := [], verify := 5 }, by decide +kernel⟩,
    ⟨stw [], 4, by decide +kernel⟩,
    ⟨stx [] (fun m => { m with adc := { m.adc with fgDone := false } }), by decide +kernel⟩,
    ⟨stw [(Reg.ADC_STATUS_FGCAL,1)], by decide +kernel⟩,
    ⟨stw [(Reg.ADC_STATUS_REF_ON,1)], by decide +kernel⟩,
    ⟨stx [] (fun m => { m with adc := { m.adc with refMon := false } }), -5001, by decide +kernel⟩,
    ⟨stw [(Reg.ADC_CFG_REFOUT_EN,1),(Reg.RAIL_STATUS_QR_ON,1)], 121, by decide +kernel⟩,
    ⟨stw [], by decide +kernel⟩,
    ⟨stx [(Reg.RTC_STATUS_VALID,1)] (fun m => { m with adc := { m.adc with inUse := [(0,1)] } }), by decide +kernel⟩,
    ⟨stw [(Reg.MODE_STATUS_MODE,6),(Reg.ADC_STATUS_FENCED,3)], by decide +kernel⟩⟩

theorem witness_journal_takes_and_commits :
    (∃ (s : State) (x : Append) (xs : List Append) (n : Nat), s.hw.sub = x :: xs ∧ x.tkt = some n ∧
    s.hw.cmdOfTicket n = none ∧ s.hw.on Reg.TWN_CFG_EN = false ∧ s.hw.on Reg.JRN_STATUS_HOLDUP = false ∧
    s.hw.host.work = [] ∧ s.hw.on Reg.JRN_STATUS_FULL = false ∧ x.r.crit = false ∧ s.hw.fits x.r = true) ∧
    (∃ (s : State), s.hw.sub = []) ∧
    (∃ (s : State), s.hw.pageDue = true ∧ s.hw.mode ≠ modeKEEPALIVE ∧ pageFit pageBytes pageRecords
    s.hw.openPage ≠ 0) ∧
    (∃ (s : State) (k : Nat) (ks : List Nat), s.hw.jrn.closed = k :: ks ∧ s.hw.canCommit = true ∧ s.hw.on
    Reg.JRN_STATUS_READY = true ∧ s.hw.mayProgram = true ∧ s.hw.mode ≠ modeKEEPALIVE) ∧
    (∃ (s : State) (k : Nat) (n : Nat) (ks : List Nat), s.hw.mayProgram = true ∧ s.hw.jrn.closed = k :: ks ∧
    s.hw.blockFor (Config.ringProgFails s.hw.jrn.psn) = some n ∧ ((Config.ringProgFails s.hw.jrn.psn = true →
    s.hw.allocate ≠ none))) ∧
    (∃ (s : State) (block : Fin 4096), s.hw.erasable (s.hw.nandBlock block.val) = true ∧ s.hw.mayErase = true) ∧
    (∃ (s : State) (psn : Nat) (corrections : Nat) (b : NandBlock), 24 < corrections ∧ (s.hw.jrn.blocks.find?
    fun b => b.pages.any fun (p : NandPage) => p.psn == psn) = some b) ∧
    (∃ (s : State), s.hw.on Reg.TWN_CFG_EN = false ∧ s.hw.on Reg.JRN_STATUS_SEALING = true ∧ isSealJsn
    s.hw.jrn.hashNext = true) ∧
    (∃ (s : State) (k : Nat), s.hw.mode = modeKEEPALIVE ∧ s.hw.numbers = true ∧ 64 ≤ s.hw.jrn.kaSecs ∧
    s.hw.jrn.closed = [k] ∧ s.hw.jrn.staged.length = k ∧ 0 < k ∧ s.hw.canCommit = true) ∧
    (∃ (s : State), s.hw.jrn.scanned = false) ∧
    (∃ (s : State), s.hw.rd Reg.JRN_BLOCKS_FREE < 16 ∧ s.hw.on Reg.JRN_STATUS_FULL = false) ∧
    (∃ (s : State), 32 ≤ s.hw.rd Reg.JRN_BLOCKS_FREE) :=
  ⟨⟨stx [(Reg.JRN_ALLOW_ALLOW,4000)] (fun m => { m with sub := [⟨jr1, some 0⟩] }), ⟨jr1, some 0⟩, [], 0, by decide +kernel⟩,
    ⟨stw [(Reg.JRN_CHOLD_CEFF,4000)], by decide +kernel⟩,
    ⟨stx [] (fun m => { m with jrn := { m.jrn with staged := [⟨jr1, true, some 1, none⟩] } }), by decide +kernel⟩,
    ⟨stx [(Reg.JRN_STATUS_READY,1)] (fun m => { m with jrn := { m.jrn with staged := [⟨jr1, true, some 1, none⟩], closed := [1] } }), 1, [], by decide +kernel⟩,
    ⟨stProg, 1, _, [], by decide +kernel, rfl, stProg_block _, fun _ => by decide +kernel⟩,
    ⟨stx [] (fun m => { m with jrn := { m.jrn with blocks := [⟨70, 3, false, true, []⟩] } }), 70, by decide +kernel⟩,
    ⟨stx [] (fun m => { m with jrn := { m.jrn with blocks := [⟨70, 3, false, true, [⟨9,1,false,false,3,[],[]⟩]⟩] } }), 9, 25, ⟨70, 3, false, true, [⟨9,1,false,false,3,[],[]⟩]⟩, by decide +kernel⟩,
    ⟨stx [(Reg.JRN_STATUS_SEALING,1)] (fun m => { m with jrn := { m.jrn with hashNext := 65535 } }), by decide +kernel⟩,
    ⟨stx [(Reg.MODE_STATUS_MODE,4)] (fun m => { m with jrn := { m.jrn with kaSecs := 64, staged := [⟨jr1, true, some 1, none⟩], closed := [1] } }), 1, by decide +kernel⟩,
    ⟨stx [] (fun m => { m with jrn := { m.jrn with scanned := false, powerUp := some [1] } }), by decide +kernel⟩,
    ⟨stw [(Reg.JRN_BLOCKS_FREE,15)], by decide +kernel⟩,
    ⟨stw [(Reg.JRN_BLOCKS_FREE,32),(Reg.JRN_STATUS_FULL,1)], by decide +kernel⟩⟩

theorem witness_summaries_time_and_holdup :
    (∃ (s : State), (s.hw.engine .f6).running = true ∧ (s.hw.engine .f6).restarting = false) ∧
    (∃ (s : State), (s.hw.engine .f6).restarting = true) ∧
    (∃ (s : State), s.hw.on Reg.RTC_STATUS_OSC_FAIL = false) ∧
    (∃ (s : State) (mv : Nat), mv < 2000 ∧ s.hw.jrn.bkpSaid = false) ∧
    (∃ (s : State) (err : Int), (s.hw.domain .fCore).on = true ∧ s.hw.on Reg.RTC_STATUS_OSC_FAIL = false ∧
    s.hw.mode ≠ modeKEEPALIVE ∧ -32768 ≤ err ∧ err ≤ 32767) ∧
    (∃ (s : State), s.hw.on Reg.JRN_STATUS_HOLDUP = false ∧ s.hw.modes.faonOn = true) ∧
    (∃ (s : State), s.hw.on Reg.JRN_STATUS_HOLDUP = true ∧ s.hw.modes.faonOn = true) :=
  ⟨⟨stx [(Reg.FRM_STATUS_FRZ,1)] up1, by decide +kernel⟩,
    ⟨stx [] (fun m => { m with arch := { m.arch with engines := List.replicate 12 { running := true, restarting := true, handover := false, fenced := false } } }), by decide +kernel⟩,
    ⟨stw [], by decide +kernel⟩,
    ⟨stw [], 1999, by decide +kernel⟩,
    ⟨stx [] (fun m => m.powerDomain .fCore true), -32768, by decide +kernel⟩,
    ⟨stx [(Reg.FRM_STATUS_FRZ,1)] (fun m => { m with modes := { m.modes with faonOn := true } }), by decide +kernel⟩,
    ⟨stx [(Reg.JRN_STATUS_HOLDUP,1)] (fun m => { m with modes := { m.modes with faonOn := true } }), by decide +kernel⟩⟩

theorem witness_engines_and_domains_follow :
    (∃ (s : State), s.hw.modes.faonOn = true) ∧
    (∃ (s : State), s.hw.modes.faonOn = false) ∧
    (∃ (w : Engine), w ≠ guardOf w.side) ∧
    (∃ (s : State) (d : Domain), domainSide d = .field ∧ switchable d = true ∧ s.hw.arch.domains.length = 10) ∧
    (∃ (s : State) (e : Engine), s.hw.arch.engines.length = 12 ∧ (s.hw.engine e).running = true ∧ (s.hw.engine
    e).fenced = false ∧ s.hw.upd.prob = none) ∧
    (∃ (s : State) (d : Domain), (s.hw.domain d).pg = true ∧ domainSide d = .field ∧ d ≠ .fAon ∧
    s.hw.arch.domains.length = 10) ∧
    (∃ (s : State), (s.hw.domain .fAon).pg = true) ∧
    (∃ (s : State), (s.hw.domain .fMem).on = true ∧ (s.hw.domain .fMem).pg = false ∧ s.hw.arch.domains.length =
    10) ∧
    (∃ (s : State) (d : Domain), switchable d = true ∧ (s.hw.domain d).on = true ∧ s.hw.tkt.table.any (inDomain
    d) = false ∧ s.hw.arch.domains.length = 10) ∧
    (∃ (s : State) (d : Domain) (f : Nat), (s.hw.domain d).offReq = some f ∧ 4 ≤ (s.hw.frn + 2 ^ 32 - f) % 2 ^
    32 ∧ s.hw.tkt.table = []) ∧
    (∃ (i : Fin 15), (fifo i).reader = .field) ∧
    (∃ (s : State), s.hw.mode = modeFLOAT ∧ s.hw.hCodeNext .fastRoleSwap = true ∧ (s.hw.engine .f0).restarting =
    false) :=
  ⟨⟨stx [(Reg.FRM_FRN_FRN,0xFFFFFFFF),(Reg.MODE_STATUS_MODE,1)] (fun m => { m with modes := { m.modes with faonOn := true } }), by decide +kernel⟩,
    ⟨stx [] (fun m => { m with modes := { m.modes with faonOn := false } }), by decide +kernel⟩,
    ⟨Engine.f3, by decide +kernel⟩,
    ⟨stw [], Domain.fAdc, by decide +kernel⟩,
    ⟨stx [] up1, Engine.f4, by decide +kernel⟩,
    ⟨stx [] (fun m => m.powerDomain .fAdc true), Domain.fAdc, by decide +kernel⟩,
    ⟨stx [] (fun m => (m.powerDomain .fAon true).wr Reg.TKT_EPOCH_EPOCH 3), by decide +kernel⟩,
    ⟨stx [] (fun m => m.setDomain .fMem { on := true, pg := false, offReq := none }), by decide +kernel⟩,
    ⟨stx [] (fun m => m.powerDomain .fAdc true), Domain.fAdc, by decide +kernel⟩,
    ⟨stx [(Reg.FRM_FRN_FRN,4)] (fun m => m.setDomain .fAdc { on := true, pg := true, offReq := some 0 }), Domain.fAdc, 0, by decide +kernel⟩,
    ⟨14, by decide +kernel⟩,
    ⟨stx [(Reg.MODE_STATUS_MODE,1)] (fun m => up1 (hcd .fastRoleSwap m)), by decide +kernel⟩⟩

theorem witness_tickets_issue_and_settle :
    (∃ (s : State) (e : Engine) (stream : Fin 64) (chan : Fin 256) (unit : Fin 256) (dur : Bool) (crit : Bool),
    e.side = .field ∧ streamLimit stream.val ≠ 0 ∧ (s.hw.tkt.waits.any fun x => x.owner == e.id) = false ∧
    ((stream.val = 16 → chan.val ≤ 47)) ∧ s.hw.canIssue stream.val unit.val dur crit = true ∧ s.hw.handingOver
    e.id = false) ∧
    (∃ (s : State) (e : Engine) (stream : Fin 64) (chan : Fin 256) (unit : Fin 256) (dur : Bool) (crit : Bool),
    e.side = .field ∧ streamLimit stream.val ≠ 0 ∧ ((stream.val = 16 → chan.val ≤ 47)) ∧ (s.hw.canIssue
    stream.val unit.val dur crit = false ∨ s.hw.handingOver e.id = true)) ∧
    (∃ (e : Engine), e.side = .host) ∧
    (∃ (s : State) (w : IssueWait) (ws : List IssueWait), s.hw.tkt.waits = w :: ws ∧ (s.hw.frn + 2 ^ 32 - w.frn)
    % 2 ^ 32 ≠ 0 ∧ s.hw.tkt.fullRun = none) ∧
    (∃ (s : State) (num : Fin 512) (x : Ticket), s.hw.ticket num.val = some x ∧ plainStream x.stream = true ∧
    x.state = .running ∧ s.hw.behind x = false ∧ s.hw.tkt.waits = [] ∧ s.hw.sub = []) ∧
    (∃ (s : State) (num : Fin 512) (x : Ticket), s.hw.ticket num.val = some x ∧ plainStream x.stream = true ∧
    x.state = .running ∧ x.idem = true ∧ x.replay < 3 ∧ s.hw.twinMsgOf num.val = none ∧ s.hw.mayFail num.val =
    true ∧ s.hw.pastDeadline x = true) ∧
    (∃ (s : State) (strm : Fin 8) (c : HostCmd), s.hw.mayCommit strm.val c ∧ c.cmd = cmdCFG_STAGE) ∧
    (∃ (s : State) (strm : Fin 8) (c : HostCmd), s.hw.mayCommit strm.val c ∧ c.cmd = cmdSVC_EXIT) ∧
    (∃ (s : State) (num : Fin 512) (x : Ticket), s.hw.ticket num.val = some x ∧ x.stream = 2 ∧ x.acc = false ∧
    x.state = .running ∧ x.idem = false ∧ s.hw.twinMsgOf num.val = none ∧ s.hw.mayFail num.val = true) ∧
    (∃ (s : State) (num : Fin 512), s.hw.tktState num.val = .held ∧ s.hw.frozen = false) :=
  ⟨⟨stw [], Engine.f7, 21, 4, 0x33, false, false, by decide +kernel⟩,
    ⟨stx [] (fun m => { m with tkt := { m.tkt with stopped := true } }), Engine.f7, 21, 4, 0x33, false, false, by decide +kernel⟩,
    ⟨Engine.h1, by decide +kernel⟩,
    ⟨stx [(Reg.FRM_FRN_FRN,1)] (fun m => { m with tkt := { m.tkt with waits := [wt] } }), wt, [], by decide +kernel⟩,
    ⟨stx [] (fun m => { m with tkt := { m.tkt with table := [tck 5 2] } }), 5, tck 5 2, by decide +kernel⟩,
    ⟨stx [] (fun m => { m with seq := { m.seq with t := 1000000 }, tkt := { m.tkt with table := [tck 5 2] } }), 5, tck 5 2, by decide +kernel⟩,
    ⟨stx [] (fun m => up1 { m with host := { m.host with work := [hc 0x120 [7,0,2,0,1,2] 1] } }), 3, hc 0x120 [7,0,2,0,1,2] 1, by decide +kernel⟩,
    ⟨stx [] (fun m => up1 { m with host := { m.host with work := [hc 0x102 [] 1] } }), 3, hc 0x102 [] 1, by decide +kernel⟩,
    ⟨stx [] (fun m => { m with tkt := { m.tkt with table := [{ tck 5 2 with idem := false }] } }), 5, { tck 5 2 with idem := false }, by decide +kernel⟩,
    ⟨stx [] (fun m => { m with tkt := { m.tkt with table := [{ tck 5 2 with state := .held }] } }), 5, by decide +kernel⟩⟩

theorem witness_faults_bring_reactions :
    (∃ (s : State) (w : FaultWord), s.hw.flt.input[s.hw.nextWord]? = some w) ∧
    (∃ (s : State) (x : HistEntry) (e : Engine), s.hw.arch.engines.length = 12 ∧ s.hw.flt.hist.find?
    s.hw.applicable = some x ∧ x.react = reRESTART ∧ Engine.ofId x.word.src = some e ∧ restartable e = true) ∧
    (∃ (s : State) (x : HistEntry), s.hw.flt.hist = [x] ∧ s.hw.degradeOver x = true) ∧
    (∃ (s : State) (f : FenceSt), s.hw.flt.fences.find? (·.id == 0x37) = some f ∧ f.auto = true ∧ s.hw.rd
    Reg.FLT_CFG_Q < f.quiet) ∧
    (∃ (s : State) (id : Fin 64) (r : Recovery), s.hw.flt.recoveries.find? (·.id == id.val) = some r ∧ s.hw.rd
    Reg.FLT_CFG_RWIN ≤ (s.hw.frn + 2 ^ 32 - r.since) % 2 ^ 32) ∧
    (∃ (s : State), s.hw.inService = true ∧ s.hw.rd Reg.FLT_PERM_U_UNITS = 2 ^ 0x18 ∧ s.hw.rd
    Reg.FLT_PERM_E_ENGINES = 0 ∧ s.hw.standingFences = []) ∧
    (∃ (s : State), s.hw.inService = false) :=
  ⟨⟨stx [] (fun m => { m with flt := { m.flt with input := [⟨0x24,0x50,2,7⟩] } }), ⟨0x24,0x50,2,7⟩, by decide +kernel⟩,
    ⟨stx [] (fun m => up1 { m with flt := { m.flt with hist := [{ he with react := 3 }] } }), { he with react := 3 }, Engine.f5, by decide +kernel⟩,
    ⟨stx [(Reg.FLT_CFG_Q,4)] (fun m => { m with flt := { m.flt with hist := [{ he with react := 1, due := false, quiet := 5 }] } }), { he with react := 1, due := false, quiet := 5 }, by decide +kernel⟩,
    ⟨stx [(Reg.FLT_CFG_Q,4),(Reg.FLT_FENCE_U_UNITS,0x800000)] (fun m => { m with flt := { m.flt with fences := [⟨0x37,5,true⟩] } }), ⟨0x37,5,true⟩, by decide +kernel⟩,
    ⟨stx [(Reg.FRM_FRN_FRN,0xFFFFFF)] (fun m => { m with flt := { m.flt with recoveries := [⟨0x37,1,0⟩] } }), 0x37, ⟨0x37,1,0⟩, by decide +kernel⟩,
    ⟨stw [(Reg.MODE_STATUS_MODE,6),(Reg.FLT_PERM_U_UNITS,0x1000000),(Reg.HP_STATUS_FENCED,1)], by decide +kernel⟩,
    ⟨stw [], by decide +kernel⟩⟩

theorem witness_twin_roles_follow_the_line :
    (∃ (s : State), s.hw.twn = twnCLAIMING) ∧
    (∃ (s : State), s.hw.twn = twnCLAIMING ∧ s.hw.rd Reg.TWN_CFG_POSITION = 0) ∧
    (∃ (s : State), s.hw.twn = twnCLAIMING ∧ s.hw.rd Reg.TWN_CFG_POSITION = 1) ∧
    (∃ (s : State), s.hw.twn = twnCLAIMING ∧ s.hw.twin.waitDet = true) ∧
    (∃ (s : State), s.hw.twn = twnLEAD ∧ s.hw.twin.claimAt.isSome = true ∧ s.hw.rd Reg.TWN_STATUS_LINK ≠ 2) ∧
    (∃ (s : State), s.hw.twn = twnSTANDBY) ∧
    (∃ (s : State), s.hw.twn = twnISOLATED) ∧
    (∃ (s : State) (c : ResignCause), (s.hw.twn = twnLEAD ∨ s.hw.twn = twnSOLO) ∧ (c = .reset ∨ c = .ship ∨ c =
    .holdup)) ∧
    (∃ (s : State), (s.hw.twn = twnLEAD ∨ s.hw.twn = twnSOLO) ∧ s.hw.rd Reg.JRN_STATUS_SEALING = 0) ∧
    (∃ (s : State), s.hw.mayEnrol = true) ∧
    (∃ (s : State), s.hw.mayFork = true) ∧
    (∃ (s : State), s.hw.twn = twnLEAD ∧ s.hw.twin.hbLost = false) ∧
    (∃ (s : State), s.hw.twn = twnSTANDBY ∧ s.hw.twin.hbLost = false ∧ s.hw.rd Reg.TWN_STATUS_DET = 1) :=
  ⟨⟨stx [] (twr 1), by decide +kernel⟩,
    ⟨stx [] (twr 1), by decide +kernel⟩,
    ⟨stx [(Reg.TWN_CFG_POSITION,1)] (twr 1), by decide +kernel⟩,
    ⟨stx [(Reg.TWN_CFG_POSITION,1)] (fun m => twr 1 { m with twin := { m.twin with waitDet := true } }), by decide +kernel⟩,
    ⟨stx [] (fun m => twr 2 { m with twin := { m.twin with claimAt := some 0 } }), by decide +kernel⟩,
    ⟨stx [] (twr 4), by decide +kernel⟩,
    ⟨stx [] (twr 5), by decide +kernel⟩,
    ⟨stx [] (twr 3), ResignCause.reset, by decide +kernel⟩,
    ⟨stx [] (twr 2), by decide +kernel⟩,
    ⟨stx [(Reg.MODE_STATUS_MODE,6)] (twr 5), by decide +kernel⟩,
    ⟨stx [(Reg.MODE_STATUS_MODE,6)] (twr 6), by decide +kernel⟩,
    ⟨stx [] (twr 2), by decide +kernel⟩,
    ⟨stx [(Reg.TWN_STATUS_DET,1)] (twr 4), by decide +kernel⟩⟩

theorem witness_twin_link_carries_messages :
    (∃ (s : State), s.hw.rd Reg.TWN_CFG_EN = 1 ∧ s.hw.rd Reg.TWN_STATUS_LINK ≠ 2 ∧ s.hw.bit
    Reg.FLT_FENCE_U_UNITS 0x13 = false ∧ s.hw.away .f7 = false ∧ s.hw.frozen = false) ∧
    (∃ (s : State) (h : TwmHead) (digest : List Byte) (p : Fin 2) (id : Nat), s.hw.takesTwm h ∧ s.hw.twn =
    twnSTANDBY ∧ (digest ≠ s.hw.cfgDigest ∨ id ≠ s.hw.rd Reg.TWN_CFG_PAIR_ID ∨ p.val = s.hw.rd
    Reg.TWN_CFG_POSITION)) ∧
    (∃ (s : State) (t0 : Nat), s.hw.twinHears = true ∧ s.hw.frozen = false ∧ 20000 ≤ t0 ∧ t0 + 20000 ≤
    s.hw.seq.len ∧ s.hw.twin.out.length < 64) ∧
    (∃ (s : State) (h : TwmHead), s.hw.takesTwm h ∧ s.hw.twn = twnLEAD) ∧
    (∃ (s : State) (h : TwmHead), s.hw.twinData = true ∧ s.hw.lseqTaken h.lseq = false ∧ h.epoch < s.hw.rd
    Reg.TWN_EPOCH_EPOCH ∧ s.hw.twin.out.length < 64) ∧
    (∃ (s : State) (h : TwmHead) (p : Fin 2), s.hw.takesTwm h ∧ s.hw.twn = twnSOLO ∧ h.epoch < 2 ^ 32 ∧ p.val ≠
    s.hw.rd Reg.TWN_CFG_POSITION) ∧
    (∃ (s : State), s.hw.frozen = false ∧ s.hw.sub = [] ∧ s.hw.twin.resyncNext = none) ∧
    (∃ (s : State) (f : FenceSt), s.hw.flt.fences.find? (fun x => x.id == 0x33) = some f ∧ f.auto = true ∧
    s.hw.frn % 16 = 0) ∧
    (∃ (s : State) (h : TwmHead) (tai : Nat) (sub : Nat) (utc : Int), s.hw.takesTwm h ∧ s.hw.twn = twnSTANDBY ∧
    65536 < unitsOf tai (sub % 32768) - unitsOf s.hw.timeNow.1 s.hw.timeNow.2 ∧ s.hw.rdI Reg.RTC_UTC_OFFSET =
    utc) ∧
    (∃ (s : State), s.hw.twn = twnLEAD ∧ s.hw.twinHears = true ∧ s.hw.twin.out.length < 64) :=
  ⟨⟨stx [] (twr 2), by decide +kernel⟩,
    ⟨stx [] (twl 4), twh, [], 1, 0, by decide +kernel⟩,
    ⟨stx [] (fun m => twl 2 { m with seq := { m.seq with len := 200000 } }), 30000, by decide +kernel⟩,
    ⟨stx [] (twl 2), twh, by decide +kernel⟩,
    ⟨stx [(Reg.TWN_EPOCH_EPOCH,9)] (twl 2), twh, by decide +kernel⟩,
    ⟨stx [] (twl 3), twh, 1, by decide +kernel⟩,
    ⟨stx [] (fun m => twl 2 { m with twin := { m.twin with out := [twm 1 4, twm 1 5, twm 1 6] } }), by decide +kernel⟩,
    ⟨stx [(Reg.FLT_FENCE_U_UNITS,0x80000)] (fun m => twr 2 { m with flt := { m.flt with fences := [⟨0x33,5,true⟩] } }), ⟨0x33,5,true⟩, by decide +kernel⟩,
    ⟨stx [] (twl 4), twh, 100, 5, 0, by decide +kernel⟩,
    ⟨stx [] (twl 2), by decide +kernel⟩⟩

theorem witness_twin_journal_is_mirrored :
    (∃ (s : State) (h : TwmHead) (bs : List Byte), s.hw.takesTwm h ∧ s.hw.twn = twnSTANDBY ∧ s.hw.holds
    (JRec.ofBytes bs).jsn = true ∧ s.hw.twin.out.length < 64) ∧
    (∃ (s : State) (h : TwmHead) (bs : List Byte), s.hw.takesTwm h ∧ s.hw.twn = twnSTANDBY ∧ s.hw.holds
    (JRec.ofBytes bs).jsn = false ∧ s.hw.forwardOf (JRec.ofBytes bs) = none ∧ s.hw.rd Reg.JRN_NEXT_JSN ≤
    (JRec.ofBytes bs).jsn ∧ (JRec.ofBytes bs).jsn < 2 ^ 63) ∧
    (∃ (s : State) (h : TwmHead) (j : Nat), s.hw.takesTwm h ∧ s.hw.twn = twnLEAD ∧ ((∀ x ∈ s.hw.twin.reserved,
    x.r.jsn ≤ j)) ∧ s.hw.sub = []) ∧
    (∃ (s : State) (h : TwmHead), s.hw.takesTwm h ∧ (s.hw.twn = twnLEAD ∨ s.hw.twn = twnSOLO)) ∧
    (∃ (s : State) (h : TwmHead), s.hw.takesTwm h ∧ s.hw.twn = twnSOLO) ∧
    (∃ (s : State) (h : TwmHead) (bs : List Byte) (r : JRec) (rs : List JRec), s.hw.takesTwm h ∧ s.hw.twn =
    twnISOLATED ∧ s.hw.rd Reg.TWN_STATUS_RESYNC = 1 ∧ recsOf 8 bs = r :: rs ∧ s.hw.jrn.hashNext < r.jsn ∧ 0 <
    s.hw.rd Reg.JRN_NEXT_JSN) ∧
    (∃ (s : State) (h : TwmHead) (bs : List Byte) (r : JRec), s.hw.takesTwm h ∧ s.hw.joins = true ∧ s.hw.rd
    Reg.TWN_STATUS_RESYNC = 1 ∧ recsOf 8 bs = [r] ∧ r.kind ≠ JR.FAILOVER.code ∧ s.hw.twin.reserved = [] ∧
    s.hw.forwardOf r = none ∧ r.jsn = s.hw.jrn.hashNext ∧ s.hw.holds r.jsn = false ∧ s.hw.rd Reg.JRN_NEXT_JSN =
    r.jsn ∧ r.jsn < 2 ^ 63) ∧
    (∃ (s : State) (f : Nat), s.hw.twin.resyncAt = some f ∧ s.hw.rd Reg.TWN_STATUS_RESYNC = 1 ∧ 256 ≤ (s.hw.frn
    + 2 ^ 32 - f) % 2 ^ 32) :=
  ⟨⟨stx [] (fun m => twl 4 { m with jrn := { m.jrn with hashNext := 9 } }), twh, (rec0 4).bytes, by decide +kernel⟩,
    ⟨stx [] (twl 4), twh, (rec0 4).bytes, by decide +kernel⟩,
    ⟨stx [] (fun m => twl 2 { m with twin := { m.twin with reserved := [⟨rec0 3, none⟩, ⟨rec0 4, none⟩] } }), twh, 4, by decide +kernel⟩,
    ⟨stx [] (twl 3), twh, by decide +kernel⟩,
    ⟨stx [] (twl 3), twh, by decide +kernel⟩,
    ⟨stx [(Reg.TWN_STATUS_RESYNC,1),(Reg.JRN_NEXT_JSN,2)] (twl 5), twh, (rec0 4).bytes, rec0 4, [], by decide +kernel⟩,
    ⟨stx [(Reg.TWN_STATUS_RESYNC,1),(Reg.JRN_NEXT_JSN,4),(Reg.TWN_PWMARK_JSN,9)] (fun m => twl 5 { m with jrn := { m.jrn with hashNext := 4 } }), twh, (rec0 4).bytes, rec0 4, by decide +kernel⟩,
    ⟨stx [(Reg.TWN_STATUS_RESYNC,1),(Reg.FRM_FRN_FRN,300)] (fun m => twl 5 { m with twin := { m.twin with resyncAt := some 0 } }), 0, by decide +kernel⟩⟩

theorem witness_host_port_answers :
    (∃ (s : State) (addr : Fin 128), s.hw.hpUp = true ∧ s.hw.hpMatch addr.val false = true ∧ s.hw.hpAsleep =
    false ∧ s.hw.hpLooped = false ∧ s.hw.rd Reg.HP_ADDR_PEC = 0) ∧
    (∃ (s : State) (addr : Fin 128), s.hw.hpUp = true ∧ s.hw.hpMatch addr.val false = true ∧ s.hw.hpAsleep =
    false ∧ s.hw.hpLooped = false ∧ s.hw.rd Reg.HP_ADDR_PEC = 0) ∧
    (∃ (s : State) (addr : Fin 128) (lo : Byte), s.hw.hpUp = true ∧ s.hw.hpMatch addr.val false = true ∧
    s.hw.hpAsleep = false ∧ s.hw.hpLooped = false ∧ s.hw.rd Reg.HP_ADDR_PEC = 0 ∧ lo.toNat % 64 = 63) ∧
    (∃ (s : State) (addr : Fin 128), s.hw.hpUp = true ∧ s.hw.hpMatch addr.val false = true ∧ s.hw.hpAsleep =
    true) ∧
    (∃ (s : State), s.hw.hpUp = true ∧ s.hw.hpLooped = true) ∧
    (∃ (s : State) (addr : Fin 128), s.hw.hpUp = true ∧ s.hw.hpMatch addr.val true = true ∧ s.hw.hpAsleep =
    false ∧ s.hw.hpLooped = false ∧ s.hw.hp.pointer % 4 = 0 ∧ s.hw.hp.pointer < 0x1000) ∧
    (∃ (s : State), s.hw.hpUp = true ∧ s.hw.hpAsleep = false ∧ s.hw.hpLooped = false) ∧
    (∃ (s : State), s.hw.hpUp = true) ∧
    (∃ (s : State) (addr : Fin 128) (rd : Bool), s.hw.hpUp = true ∧ s.hw.hpMatch addr.val rd = true ∧ s.hw.rd
    Reg.HP_STATUS_DOZE = 1) ∧
    (∃ (s : State), s.hw.hpUp = true ∧ s.hw.hpAsleep = false ∧ s.hw.hpLooped = false ∧ s.hw.rd
    Reg.HP_ADDR_ARA_EN = 1 ∧ s.hw.host.alert = true) ∧
    (∃ (s : State), s.hw.hpUp = true ∧ s.hw.hpAsleep = false ∧ s.hw.hpLooped = false ∧ s.hw.rd
    Reg.HP_ADDR_ARA_EN = 1 ∧ s.hw.host.alert = true) :=
  ⟨⟨stx [] hpx, 0x2C, by decide +kernel⟩,
    ⟨stx [] hpx, 0x2C, by decide +kernel⟩,
    ⟨stx [] hpx, 0x2C, 0x7F, by decide +kernel⟩,
    ⟨stx [(Reg.HP_STATUS_DOZE,1)] hpx, 0x2C, by decide +kernel⟩,
    ⟨stx [(Reg.HLB_STATUS_STATE,2),(Reg.HLB_CTL_IF,2),(Reg.HLB_CTL_DEPTH,2)] hpx, by decide +kernel⟩,
    ⟨stx [] (fun m => hpx { m with hp := { m.hp with pointer := 0x304 } }), 0x2C, by decide +kernel⟩,
    ⟨stx [] hpx, by decide +kernel⟩,
    ⟨stx [] hpx, by decide +kernel⟩,
    ⟨stx [(Reg.HP_STATUS_DOZE,1)] hpx, 0x2C, true, by decide +kernel⟩,
    ⟨stx [(Reg.HP_ADDR_ARA_EN,1)] (fun m => hpx { m with host := { m.host with alert := true } }), by decide +kernel⟩,
    ⟨stx [(Reg.HP_ADDR_ARA_EN,1)] (fun m => hpx { m with host := { m.host with alert := true } }), by decide +kernel⟩⟩

theorem witness_sensor_bus_transactions_end :
    (∃ (s : State) (n : Fin 512) (x : BusOp), s.hw.busOp n.val = some x ∧ (s.hw.sbq = false ∨ s.hw.tktState
    n.val = .running ∨ s.hw.busFits x = true)) ∧
    (∃ (s : State) (n : Fin 512) (x : BusOp), s.hw.busOp n.val = some x ∧ s.hw.sbq = true ∧ s.hw.tktState n.val
    ≠ .running ∧ s.hw.busFits x = false) ∧
    (∃ (s : State) (n : Fin 512) (x : BusOp) (k : Ticket), s.hw.busOp n.val = some x ∧ s.hw.ticket x.tkt = some
    k ∧ (s.hw.sbq = false ∨ s.hw.tktState n.val = .running ∨ s.hw.busFits x = true) ∧ k.idem = true ∧ k.replay <
    3 ∧ x.nacked = false) ∧
    (∃ (s : State) (n : Fin 512) (x : BusOp), s.hw.busOp n.val = some x ∧ s.hw.rd Reg.SB_STATUS_MULTI = 1) ∧
    (∃ (s : State) (n : Fin 512) (x : BusOp) (k : Ticket), s.hw.busOp n.val = some x ∧ s.hw.rd
    Reg.SB_STATUS_MULTI = 0 ∧ s.hw.ticket x.tkt = some k ∧ k.idem = true ∧ k.replay < 3) ∧
    (∃ (s : State) (n : Fin 512) (x : BusOp) (k : Ticket), s.hw.busOp n.val = some x ∧ s.hw.rd
    Reg.SB_STATUS_MULTI = 1 ∧ s.hw.ticket x.tkt = some k ∧ k.idem = true ∧ k.replay < 3) ∧
    (∃ (s : State) (n : Fin 512) (x : BusOp), s.hw.busOp n.val = some x ∧ s.hw.sbq = true ∧ s.hw.busFits x =
    true ∧ x.deferred = false ∧ s.hw.tktState x.tkt = .issued ∧ s.hw.tktState n.val = .issued) ∧
    (∃ (s : State) (n : Fin 512) (x : BusOp) (k : Ticket), s.hw.busOp n.val = some x ∧ s.hw.ticket x.tkt = some
    k ∧ k.idem = true ∧ k.replay < 3) ∧
    (∃ (s : State) (scl : Bool) (sda : Bool), s.hw.rd Reg.SB_STATUS_FENCED = 0 ∧ (s.hw.domain .fCore).on = true
    ∧ (scl = true ∨ sda = true)) ∧
    (∃ (s : State), s.hw.rd Reg.SB_STATUS_FENCED = 0 ∧ (s.hw.domain .fCore).on = true ∧ s.hw.bus.vioLow = false
    ∧ (s.hw.sbq = false ∨ s.hw.fitsThaw clearLength = true) ∧ s.hw.rd Reg.SB_STATUS_CLEARING = 1) ∧
    (∃ (s : State), s.hw.rd Reg.SB_STATUS_FENCED = 0 ∧ (s.hw.domain .fCore).on = true ∧ s.hw.bus.vioLow = false
    ∧ (s.hw.sbq = false ∨ s.hw.fitsThaw clearLength = true) ∧ s.hw.rd Reg.SB_STATUS_CLEARING = 1 ∧
    s.hw.bus.clearTries = 2) :=
  ⟨⟨stx [(Reg.SB_STATUS_BUSY,1)] (sbx id), 5, sbo, by decide +kernel⟩,
    ⟨stx [(Reg.FRM_PLANPOL_SBQ 0,1),(Reg.FRM_STATUS_FRZ,1)] (fun m => sbx id { m with tkt := m.tkt } |> fun m => m.setTicket 5 fun t => { t with state := .issued }), 5, sbo, by decide +kernel⟩,
    ⟨stx [] (sbx id), 5, sbo, { tck 5 18 with chan := 0x0B }, by decide +kernel⟩,
    ⟨stx [(Reg.SB_STATUS_MULTI,1)] (sbx id), 5, sbo, by decide +kernel⟩,
    ⟨stx [] (sbx id), 5, sbo, { tck 5 18 with chan := 0x0B }, by decide +kernel⟩,
    ⟨stx [(Reg.SB_STATUS_MULTI,1)] (sbx id), 5, sbo, { tck 5 18 with chan := 0x0B }, by decide +kernel⟩,
    ⟨stx [(Reg.FRM_PLANPOL_SBQ 0,1)] (fun m => (sbx id m).setTicket 5 fun t => { t with state := .issued }), 5, sbo, by decide +kernel⟩,
    ⟨stx [(Reg.SB_STATUS_WAIT_THAW,1)] (sbx id), 5, sbo, { tck 5 18 with chan := 0x0B }, by decide +kernel⟩,
    ⟨stx [] (sbx id), false, true, by decide +kernel⟩,
    ⟨stx [(Reg.SB_STATUS_CLEARING,1)] (sbx id), by decide +kernel⟩,
    ⟨stx [(Reg.SB_STATUS_CLEARING,1)] (fun m => sbx id { m with bus := { m.bus with clearTries := 2 } }), by decide +kernel⟩⟩

theorem witness_link_receives_and_resends :
    (∃ (s : State) (rx : Side) (x : MsgIn), s.hw.linkFenced = false ∧ s.hw.frozen = false ∧ s.hw.linkState rx =
    2 ∧ x.type ≠ 1 ∧ x.type ≠ 2 ∧ x.seq = (s.hw.linkEnd rx).rxNext ∧ s.hw.filterReason rx x = 0) ∧
    (∃ (s : State) (rx : Side) (x : MsgIn), x.type ≠ 1 ∧ x.type ≠ 2 ∧ x.seq ≠ (s.hw.linkEnd rx).rxNext) ∧
    (∃ (s : State) (rx : Side), s.hw.linkFenced = false ∧ s.hw.frozen = false ∧ s.hw.linkState rx = 2) ∧
    (∃ (s : State) (x : MsgIn), s.hw.linkFenced = false ∧ s.hw.frozen = false ∧ s.hw.rd Reg.TL_H_STATUS_STATE =
    2 ∧ x.type ≠ 1 ∧ x.type ≠ 2 ∧ x.seq = s.hw.host.h.rxNext ∧ s.hw.filterReason .host x ≠ 0) ∧
    (∃ (s : State) (x : Msg) (rest : List Msg), takeMsg 1 s.hw.host.h.inbox = some (x, rest) ∧
    s.hw.host.h.waiting = []) ∧
    (∃ (s : State) (sd : Side), s.hw.frozen = false ∧ s.hw.linkState sd = 2 ∧ s.hw.linkFenced = false ∧
    (s.hw.linkEnd sd).queue ≠ [] ∧ (s.hw.linkEnd sd).resends < 8) ∧
    (∃ (s : State), s.hw.frozen = false ∧ s.hw.rd Reg.TL_F_STATUS_STATE = 2 ∧ s.hw.linkFenced = false ∧
    s.hw.host.f.queue ≠ [] ∧ 8 ≤ s.hw.host.f.resends) ∧
    (∃ (s : State), s.hw.rd Reg.TL_H_STATUS_STATE = 2) ∧
    (∃ (s : State), s.hw.mayTrain = true ∧ s.hw.frozen = false ∧ s.hw.rd Reg.TL_H_STATUS_STATE ≠ 2 ∧
    s.hw.linkFenced = false) ∧
    (∃ (s : State) (x : Msg) (rest : List Msg), takeMsg 2 s.hw.host.h.inbox = some (x, rest) ∧ numAt x.payload 6
    2 ≠ 0xFFFF ∧ s.hw.flt.hostBuf = []) ∧
    (∃ (s : State) (x : Msg) (rest : List Msg), s.hw.away .f0 = false ∧ takeMsg 0x10 s.hw.host.f.inbox = some
    (x, rest) ∧ x.stream = 9 ∧ numAt x.payload 4 2 = cmdPING ∧ s.hw.nextSeq 1 false = numAt x.payload 0 4 ∧
    (s.hw.host.work.any fun d => d.stream == 1 && d.seq == numAt x.payload 0 4) = false ∧ s.hw.canIssue 9 0
    false false = true) :=
  ⟨⟨stx [] (fun m => tlu (up1 m)), Side.host, mi, by decide +kernel⟩,
    ⟨stx [] tlu, Side.host, { mi with seq := 4 }, by decide +kernel⟩,
    ⟨stx [] tlu, Side.field, by decide +kernel⟩,
    ⟨stx [] tlu, { mi with type := 0x10 }, by decide +kernel⟩,
    ⟨stx [] (fun m => inH [ms 1 [1,0]] { m with host := { m.host with h := { m.host.h with queue := [ms 0x10 [], { ms 0x20 [] with seq := 1 }] } } }), ms 1 [1,0], [], by decide +kernel⟩,
    ⟨stx [] (fun m => tlu { m with host := { m.host with h := { m.host.h with queue := [ms 0x10 []] } } }), Side.host, by decide +kernel⟩,
    ⟨stx [] (fun m => tlu { m with host := { m.host with f := { m.host.f with queue := [ms 0x10 []], resends := 8 } } }), by decide +kernel⟩,
    ⟨stx [] tlu, by decide +kernel⟩,
    ⟨stx [] (fun m => { m with arch := { m.arch with domains := List.replicate 10 { on := true, pg := true, offReq := none } } }), by decide +kernel⟩,
    ⟨stx [] (inH [ms 2 [1,0,0,0,0,0,0,0,1,0,0,0]]), ms 2 [1,0,0,0,0,0,0,0,1,0,0,0], [], by decide +kernel⟩,
    ⟨stx [] (inF [{ ms 0x10 [1,0,0,0,1,0,0,0,0,0,0,0] with stream := 9 }]), { ms 0x10 [1,0,0,0,1,0,0,0,0,0,0,0] with stream := 9 }, [], by decide +kernel⟩⟩

theorem witness_host_takes_field_messages :
    (∃ (s : State) (x : Msg) (rest : List Msg) (p : Place), s.hw.host.busy = false ∧ s.hw.away .h2 = false ∧
    takeMsg 0x11 s.hw.host.h.inbox = some (x, rest) ∧ s.hw.host.mbx.places = [p] ∧ p.answered = false ∧ p.seq =
    numAt x.payload 0 4 ∧ p.cmd = numAt x.payload 4 2 ∧ p.stream ≠ 7) ∧
    (∃ (s : State) (x : Msg) (rest : List Msg), s.hw.away .h2 = false ∧ takeMsg 0x12 s.hw.host.h.inbox = some
    (x, rest) ∧ s.hw.host.snap.frn ≠ numAt x.payload 0 4) ∧
    (∃ (s : State) (x : Msg) (rest : List Msg), s.hw.away .h2 = false ∧ takeMsg 0x12 s.hw.host.h.inbox = some
    (x, rest) ∧ s.hw.host.snap.frn = numAt x.payload 0 4 ∧ s.hw.host.snap.chunks.length = 16 ∧
    (s.hw.host.snap.chunks.any fun c => c.1 == numAt x.payload 6 1) = false) ∧
    (∃ (s : State) (x : Msg) (rest : List Msg), s.hw.away .h2 = false ∧ takeMsg 0x13 s.hw.host.h.inbox = some
    (x, rest) ∧ numAt x.payload 1 1 ≠ 0) ∧
    (∃ (s : State) (x : Msg) (rest : List Msg), s.hw.away .h2 = false ∧ takeMsg 0x14 s.hw.host.h.inbox = some
    (x, rest)) ∧
    (∃ (s : State) (x : Msg) (rest : List Msg) (r : DrainReq), s.hw.host.drain.buffer.length + 252 ≤
    s.hw.drainRoom ∧ s.hw.away .h2 = false ∧ takeMsg 0x15 s.hw.host.h.inbox = some (x, rest) ∧
    s.hw.host.drain.openReq = some r ∧ r.tag = numAt x.payload 0 2) ∧
    (∃ (s : State) (x : Msg) (rest : List Msg), s.hw.away .h1 = false ∧ takeMsg 0x16 s.hw.host.h.inbox = some
    (x, rest)) ∧
    (∃ (s : State) (x : Msg) (rest : List Msg), s.hw.away .h0 = false ∧ takeMsg 0x17 s.hw.host.h.inbox = some
    (x, rest)) ∧
    (∃ (s : State) (x : Msg) (rest : List Msg), s.hw.away .h1 = false ∧ takeMsg 0x18 s.hw.host.h.inbox = some
    (x, rest) ∧ s.hw.rd Reg.XFER_STATUS_LATCHED = 0 ∧ s.hw.rd Reg.XFER_STATUS_QUIET = 0 ∧ s.hw.latchBad .xferCtl
    = false ∧ (numAt x.payload 0 1 = 1 ∨ numAt x.payload 0 1 = 2) ∧ s.hw.rd Reg.XFER_STATUS_DIR ≠ numAt
    x.payload 0 1) ∧
    (∃ (s : State) (x : Msg) (rest : List Msg), s.hw.away .h1 = false ∧ takeMsg 0x18 s.hw.host.h.inbox = some
    (x, rest) ∧ s.hw.rd Reg.XFER_STATUS_QUIET = 0 ∧ s.hw.latchBad .xferCtl = false ∧ numAt x.payload 0 1 = 0) ∧
    (∃ (s : State) (x : Msg) (rest : List Msg), s.hw.away .h1 = false ∧ takeMsg 0x18 s.hw.host.h.inbox = some
    (x, rest) ∧ s.hw.rd Reg.XFER_STATUS_LATCHED = 0 ∧ s.hw.rd Reg.XFER_STATUS_QUIET = 1) ∧
    (∃ (s : State) (x : Msg) (rest : List Msg), s.hw.away .h1 = false ∧ takeMsg 0x18 s.hw.host.h.inbox = some
    (x, rest) ∧ s.hw.rd Reg.XFER_STATUS_LATCHED = 1 ∧ numAt x.payload 0 1 ≠ 0) ∧
    (∃ (s : State), s.hw.away .h2 = false ∧ s.hw.snapOld = true ∧ s.hw.host.snap.stale = false) :=
  ⟨⟨stx [] (fun m => inH [ms 0x11 [1,0,0,0,1,0,0,0]] { m with host := { m.host with mbx := { m.host.mbx with places := [⟨1,1,1,false,none⟩] } } }), ms 0x11 [1,0,0,0,1,0,0,0], [], ⟨1,1,1,false,none⟩, by decide +kernel⟩,
    ⟨stx [] (inH [ms 0x12 [1,0,0,0,0,0,3,0,9]]), ms 0x12 [1,0,0,0,0,0,3,0,9], [], by decide +kernel⟩,
    ⟨stx [] (fun m => inH [ms 0x12 [1,0,0,0,0,0,16,0,9]] { m with host := { m.host with snap := { m.host.snap with frn := 1, chunks := (List.range 16).map fun i => (i, []) } } }), ms 0x12 [1,0,0,0,0,0,16,0,9], [], by decide +kernel⟩,
    ⟨stx [] (inH [ms 0x13 [1,1,0,0]]), ms 0x13 [1,1,0,0], [], by decide +kernel⟩,
    ⟨stx [] (inH [ms 0x14 [1,1,0,0]]), ms 0x14 [1,1,0,0], [], by decide +kernel⟩,
    ⟨stx [] (fun m => inH [ms 0x15 [1,0,0,0,4,0,16,0,1,0,0,0,9,0,0,0,0,0,0,0,8,0,0,0,0,0,0,0]] { m with host := { m.host with drain := { m.host.drain with openReq := some ⟨1,1,0,0⟩ } } }), ms 0x15 [1,0,0,0,4,0,16,0,1,0,0,0,9,0,0,0,0,0,0,0,8,0,0,0,0,0,0,0], [], ⟨1,1,0,0⟩, by decide +kernel⟩,
    ⟨stx [] (inH [ms 0x16 (List.replicate 44 7)]), ms 0x16 (List.replicate 44 7), [], by decide +kernel⟩,
    ⟨stx [] (inH [ms 0x17 [44,1,0,0,0,0,0,0,0,0,1,2,3,4,5,6]]), ms 0x17 [44,1,0,0,0,0,0,0,0,0,1,2,3,4,5,6], [], by decide +kernel⟩,
    ⟨stx [(Reg.XFER_STATUS_DIR,1)] (inH [ms 0x18 [2,1,0,0]]), ms 0x18 [2,1,0,0], [], by decide +kernel⟩,
    ⟨stx [(Reg.XFER_STATUS_DIR,1)] (inH [ms 0x18 [0,0,0,0]]), ms 0x18 [0,0,0,0], [], by decide +kernel⟩,
    ⟨stx [(Reg.XFER_STATUS_QUIET,1)] (inH [ms 0x18 [1,1,0,0]]), ms 0x18 [1,1,0,0], [], by decide +kernel⟩,
    ⟨stx [(Reg.XFER_STATUS_LATCHED,1)] (inH [ms 0x18 [1,1,0,0]]), ms 0x18 [1,1,0,0], [], by decide +kernel⟩,
    ⟨stx [(Reg.ID_STATUS_SNAP_VALID,1)] (fun m => { up1 m with host := { m.host with snap := { m.host.snap with us := 1500000, stale := false } } }), by decide +kernel⟩⟩

theorem witness_field_takes_host_messages :
    (∃ (s : State) (x : Msg) (rest : List Msg), takeMsg 0x20 s.hw.host.f.inbox = some (x, rest) ∧
    x.payload.length = 4) ∧
    (∃ (s : State) (x : Msg) (rest : List Msg), s.hw.away .f0 = false ∧ takeMsg 0x21 s.hw.host.f.inbox = some
    (x, rest) ∧ numAt x.payload 0 1 = 1 ∧ s.hw.grants = true) ∧
    (∃ (s : State) (x : Msg) (rest : List Msg), s.hw.away .f0 = false ∧ takeMsg 0x21 s.hw.host.f.inbox = some
    (x, rest) ∧ numAt x.payload 0 1 = 2) ∧
    (∃ (s : State) (x : Msg) (rest : List Msg), takeMsg 0x22 s.hw.host.f.inbox = some (x, rest) ∧ s.hw.chg.frame
    = none) ∧
    (∃ (s : State) (f : Nat) (v : Byte) (rest : List Msg), takeMsg 0x23 s.hw.host.f.inbox = some (⟨0x23, 0, 0,
    0, le 4 f ++ [0x08, 0x1F, 1, v]⟩, rest) ∧ v.toNat = s.hw.rd Reg.SB_EVENTS_ARB_LOST) ∧
    (∃ (s : State) (x : Msg) (rest : List Msg), takeMsg 0x24 s.hw.host.f.inbox = some (x, rest)) ∧
    (∃ (s : State) (x : Msg) (rest : List Msg), s.hw.seq.cfgApplied = true ∧ s.hw.away .f0 = false ∧ takeMsg
    0x25 s.hw.host.f.inbox = some (x, rest)) ∧
    (∃ (s : State) (x : Msg) (rest : List Msg), s.hw.away .f6 = false ∧ takeMsg 0x26 s.hw.host.f.inbox = some
    (x, rest) ∧ s.hw.drains = true ∧ numAt x.payload 0 1 ≠ 3) ∧
    (∃ (s : State) (x : Msg) (rest : List Msg), takeMsg 0x27 s.hw.host.f.inbox = some (x, rest) ∧
    s.hw.upd.chunkSession ≠ numAt x.payload 0 2 ∧ numAt x.payload 4 4 = 0 ∧ x.payload.length = 9) :=
  ⟨⟨stx [] (inF [ms 0x20 [1,0,0xE4,2]]), ms 0x20 [1,0,0xE4,2], [], by decide +kernel⟩,
    ⟨stx [(Reg.MODE_STATUS_MODE,1)] (fun m => inF [ms 0x21 [1,0,0,0]] (perm m)), ms 0x21 [1,0,0,0], [], by decide +kernel⟩,
    ⟨stx [(Reg.MODE_STATUS_MODE,3)] (inF [ms 0x21 [2,0,0,0]]), ms 0x21 [2,0,0,0], [], by decide +kernel⟩,
    ⟨stx [] (inF [ms 0x22 [0,0,0,0,0,0,5,0,1,0]]), ms 0x22 [0,0,0,0,0,0,5,0,1,0], [], by decide +kernel⟩,
    ⟨stx [(Reg.SB_EVENTS_ARB_LOST,5)] (inF [⟨0x23, 0, 0, 0, le 4 1 ++ [0x08, 0x1F, 1, 5]⟩]), 1, 5, [], by decide +kernel⟩,
    ⟨stx [] (inF [ms 0x24 (rec0 0).bytes]), ms 0x24 (rec0 0).bytes, [], by decide +kernel⟩,
    ⟨stx [] (fun m => inF [ms 0x25 [0,0,0,0]] { m with seq := { m.seq with cfgApplied := true } }), ms 0x25 [0,0,0,0], [], by decide +kernel⟩,
    ⟨stx [(Reg.MODE_STATUS_MODE,1)] (inF [ms 0x26 [1,0,7,0,5,0,0,0,0,0,0,0,1,0,0,0]]), ms 0x26 [1,0,7,0,5,0,0,0,0,0,0,0,1,0,0,0], [], by decide +kernel⟩,
    ⟨stx [] (inF [ms 0x27 [9,0,0,0,0,0,0,0,0xAA]]), ms 0x27 [9,0,0,0,0,0,0,0,0xAA], [], by decide +kernel⟩⟩

theorem witness_commands_are_answered :
    (∃ (s : State), s.hw.host.hReady = true ∧ s.hw.localRefusal s.hw.cmdWindow ≠ 0) ∧
    (∃ (s : State), s.hw.host.hReady = true ∧ s.hw.localRefusal s.hw.cmdWindow = 0 ∧ s.hw.host.mbx.places = [] ∧
    numAt s.hw.cmdWindow 6 1 / 16 % 8 = 2) ∧
    (∃ (s : State) (r : ResultEntry) (rs : List ResultEntry), s.hw.host.mbx.results = r :: rs) ∧
    (∃ (s : State) (n : Fin 8) (c : HostCmd), s.hw.turn n.val cmdPING c) ∧
    (∃ (s : State) (n : Fin 8) (c : HostCmd), s.hw.turn n.val cmdREG_READ c ∧ fieldAddr (c.arg 0 2) = true ∧
    c.arg 2 2 = 1) ∧
    (∃ (s : State) (n : Fin 8) (c : HostCmd), s.hw.turn n.val cmdREG_WRITE c ∧ regWriteCheck s.hw c = none ∧
    c.durable = false) ∧
    (∃ (m : Hw) (mask : Nat) (f : Field), f ∈ Reg.fieldsAt f.addr ∧ f.width ≤ 32 ∧ (f.acc = .rw ∨ (f.acc = .rws
    ∧ m.inService = true)) ∧ selfClearing.contains f = false ∧ bitsOf mask f.lsb f.width = 2 ^ f.width - 1) ∧
    (∃ (s : State) (n : Fin 8) (c : HostCmd), s.hw.turn n.val cmdADC_INJECT c ∧ c.arg 0 1 ≤ 47 ∧ c.arg 1 1 ≤ 4 ∧
    s.hw.canIssue 16 0 false false = true) ∧
    (∃ (s : State) (n : Fin 8) (c : HostCmd) (mean : Int), s.hw.turn n.val cmdREFCHK_RUN c ∧ refchkCheck mean
    s.hw c = none) ∧
    (∃ (s : State) (n : Fin 8) (c : HostCmd), s.hw.turn n.val cmdCAL_STAGE c ∧ stageCheck 0x233 s.hw c = none ∧
    c.durable = false) ∧
    (∃ (s : State) (n : Fin 8) (c : HostCmd), s.hw.turn n.val cmdKA_STATEMENT c) ∧
    (∃ (s : State) (n : Fin 8) (c : HostCmd), s.hw.turn n.val cmdSB_XFER c ∧ sbXferCheck s.hw c = none ∧
    c.durable = false ∧ s.hw.canIssue 18 0x37 false false = true) ∧
    (∃ (s : State) (n : Fin 8) (c : HostCmd), s.hw.turn n.val cmdHOST_PWR c ∧ c.arg 0 1 ≤ 2 ∧ c.durable = false) ∧
    (∃ (s : State) (n : Fin 8) (c : HostCmd), s.hw.turn n.val cmdSVC_CHALLENGE c ∧ (c.arg 0 1 = 1 ∨ c.arg 0 1 =
    2)) ∧
    (∃ (s : State) (n : Fin 8) (c : HostCmd), s.hw.turn n.val cmdCFG_STAGE c ∧ stageCheck 0xFFFF s.hw c = none ∧
    c.durable = false) :=
  ⟨⟨stx [(Reg.MBX_CMD_COMMAND 4, 0xEE)] (wk []), by decide +kernel⟩,
    ⟨stx [(Reg.MBX_CMD_COMMAND 0, 1),(Reg.MBX_CMD_COMMAND 4, 1),(Reg.MBX_CMD_COMMAND 6, 0x20)] (wk []), by decide +kernel⟩,
    ⟨stx [(Reg.MBX_CTL_RES_PAGE,2)] (fun m => { m with host := { m.host with mbx := { m.host.mbx with results := [⟨1,[1,2]⟩,⟨2,[3]⟩] } } }), ⟨1,[1,2]⟩, [⟨2,[3]⟩], by decide +kernel⟩,
    ⟨stx [] (wk [hc 1 [] 0]), 3, hc 1 [] 0, by decide +kernel⟩,
    ⟨stx [] (wk [hc 0x10 [0,0x11,1,0] 0]), 3, hc 0x10 [0,0x11,1,0] 0, by decide +kernel⟩,
    ⟨stx [] (wk [hc 0x11 [0x18,0x11,0,0,0xFF,0,0,0,5,0,0,0] 0]), 3, hc 0x11 [0x18,0x11,0,0,0xFF,0,0,0,5,0,0,0] 0, by decide +kernel⟩,
    ⟨(stw [(Reg.MODE_STATUS_MODE, 6)]).hw, 0x7FF, Reg.PH_CFG_FSW, by decide +kernel⟩,
    ⟨stx [] (wk [hc 0x20 [5,1,0,0] 0]), 3, hc 0x20 [5,1,0,0] 0, by decide +kernel⟩,
    ⟨stx [(Reg.ADC_STATUS_REF_SETTLED,1)] (wk [hc 0x21 [0,0,0,0] 0]), 3, hc 0x21 [0,0,0,0] 0, 100, by decide +kernel⟩,
    ⟨stx [(Reg.MODE_STATUS_MODE,6)] (wk [hc 0x22 [7,0,2,0,1,2] 0]), 3, hc 0x22 [7,0,2,0,1,2] 0, by decide +kernel⟩,
    ⟨stx [] (wk [hc 0x30 (List.replicate 16 1) 0]), 3, hc 0x30 (List.replicate 16 1) 0, by decide +kernel⟩,
    ⟨stx [(Reg.SB_CFG_HOST_EN,1)] (wk [hc 0x40 [0x20,1,2,0,5] 0]), 3, hc 0x40 [0x20,1,2,0,5] 0, by decide +kernel⟩,
    ⟨stx [(Reg.MODE_STATUS_MODE,1)] (wk [hc 0x111 [2,0,0,0] 0]), 3, hc 0x111 [2,0,0,0] 0, by decide +kernel⟩,
    ⟨stx [(Reg.MODE_STATUS_MODE,1)] (wk [hc 0x100 [2,0,0,0] 0]), 3, hc 0x100 [2,0,0,0] 0, by decide +kernel⟩,
    ⟨stx [(Reg.MODE_STATUS_MODE,6)] (wk [hc 0x120 [7,0,2,0,1,2] 0]), 3, hc 0x120 [7,0,2,0,1,2] 0, by decide +kernel⟩⟩

theorem witness_durable_commands_reserve :
    (∃ (s : State) (n : Fin 8) (c : HostCmd) (rb : Bool), s.hw.turn n.val cmdCAL_COMMIT c ∧ calCommitCheck rb
    s.hw c = none ∧ s.hw.roomFor c) ∧
    (∃ (s : State) (n : Fin 8) (c : HostCmd), s.hw.turn n.val cmdTIME_SET c ∧ timeSetCheck s.hw c = none ∧
    s.hw.roomFor c) ∧
    (∃ (s : State) (n : Fin 8) (c : HostCmd), s.hw.turn n.val cmdRELEASE c ∧ releaseCheck s.hw c = none ∧
    s.hw.roomFor c) ∧
    (∃ (s : State) (n : Fin 8) (c : HostCmd), s.hw.turn n.val cmdSTREAM_RESET c ∧ s.hw.roomFor c) ∧
    (∃ (s : State) (n : Fin 8) (c : HostCmd), s.hw.turn n.val cmdSHIP_ENTER c ∧ s.hw.shipReason false (decide
    (c.arg 0 4 = 0x50494853)) = 0 ∧ s.hw.roomFor c) ∧
    (∃ (s : State) (n : Fin 8) (c : HostCmd) (x : Challenge), s.hw.turn n.val cmdSVC_ENTER c ∧ c.arg 0 1 = 1 ∧
    x.level = 1 ∧ s.hw.mode = modeFLOAT ∧ s.hw.rd Reg.SVC_STATUS_LOCKED_OUT = 0 ∧ s.hw.modes.challenge = some x
    ∧ s.hw.frnReached x.expires = false ∧ s.hw.modes.keySlot = none ∧ s.hw.roomFor c) ∧
    (∃ (s : State) (n : Fin 8) (c : HostCmd), s.hw.turn n.val cmdSVC_EXIT c ∧ s.hw.roomFor c) ∧
    (∃ (s : State) (n : Fin 8) (c : HostCmd), s.hw.turn n.val cmdKEY_ENROL c ∧ c.arg 32 1 ≤ 1 ∧
    s.hw.modes.keySlot = none ∧ s.hw.roomFor c) ∧
    (∃ (s : State) (n : Fin 8) (c : HostCmd) (rb : Bool), s.hw.turn n.val cmdCFG_COMMIT c ∧ cfgCommitCheck rb
    s.hw c = none ∧ s.hw.roomFor c) ∧
    (∃ (s : State) (n : Fin 8) (c : HostCmd), s.hw.turn n.val cmdFIELD_RESET c ∧ s.hw.roomFor c) :=
  ⟨⟨stCal calImg, 3, hc 0x23 [] 0, true, by decide +kernel,
    calCommitCheck_ok ((congrArg calCrcOk (stCal_staged calImg)).trans (calCrcOk_written NorImage.wf_nil))
      (by decide +kernel), by decide +kernel⟩,
    ⟨stx [(Reg.MODE_STATUS_MODE,1)] (wk2 [hc 0x31 [0,0,0,0,9,0,0,0,0,0,0,0] 0]), 3, hc 0x31 [0,0,0,0,9,0,0,0,0,0,0,0] 0, by decide +kernel⟩,
    ⟨stx [(Reg.MODE_STATUS_MODE,1),(Reg.JRN_SEALED_EPOCH,5)] (wk2 [hc 0x32 [5,0,0,0] 0]), 3, hc 0x32 [5,0,0,0] 0, by decide +kernel⟩,
    ⟨stx [(Reg.MODE_STATUS_MODE,1)] (wk2 [hc 0x50 [5,0,0,0] 0]), 3, hc 0x50 [5,0,0,0] 0, by decide +kernel⟩,
    ⟨stx [(Reg.MODE_STATUS_MODE,1),(Reg.MODE_CFG_SHIP,2)] (wk2 [hc 0x110 [0x53,0x48,0x49,0x50] 0]), 3, hc 0x110 [0x53,0x48,0x49,0x50] 0, by decide +kernel⟩,
    ⟨stx [(Reg.MODE_STATUS_MODE,1)] (fun m => wk2 [hc 0x101 (1 :: List.replicate 67 0) 0] { m with modes := { m.modes with challenge := some ⟨0,1,100⟩ } }), 3, hc 0x101 (1 :: List.replicate 67 0) 0, ⟨0,1,100⟩, by decide +kernel⟩,
    ⟨stx [(Reg.MODE_STATUS_MODE,6)] (wk2 [hc 0x102 [] 0]), 3, hc 0x102 [] 0, by decide +kernel⟩,
    ⟨stx [(Reg.MODE_STATUS_MODE,6)] (wk2 [hc 0x103 (List.replicate 36 0) 0]), 3, hc 0x103 (List.replicate 36 0) 0, by decide +kernel⟩,
    ⟨stCfg, 3, hc 0x121 [] 0, true, by decide +kernel,
    cfgCommitCheck_ok (NorImage.wf_putImgBytes (NorImage.wf_putImgBytes NorImage.wf_nil)) (by decide +kernel)
      (by decide +kernel) (by decide +kernel), by decide +kernel⟩,
    ⟨stx [(Reg.MODE_STATUS_MODE,6)] (wk2 [hc 0x130 [] 0]), 3, hc 0x130 [] 0, by decide +kernel⟩⟩

theorem witness_durable_commits_take_effect :
    (∃ (s : State) (n : Fin 8) (c : HostCmd), s.hw.mayCommit n.val c ∧ c.cmd = cmdTIME_SET) ∧
    (∃ (s : State) (n : Fin 8) (c : HostCmd), s.hw.mayCommit n.val c ∧ c.cmd = cmdRELEASE ∧ s.hw.released (c.arg
    0 4) = false) ∧
    (∃ (s : State) (n : Fin 8) (c : HostCmd), s.hw.mayCommit n.val c ∧ c.cmd = cmdSTREAM_RESET) ∧
    (∃ (s : State) (n : Fin 8) (c : HostCmd), s.hw.mayCommit n.val c ∧ c.cmd = cmdSVC_ENTER) ∧
    (∃ (s : State) (n : Fin 8) (c : HostCmd), s.hw.mayCommit n.val c ∧ c.cmd = cmdKEY_ENROL) ∧
    (∃ (s : State) (n : Fin 8) (c : HostCmd), s.hw.mayCommit n.val c ∧ c.cmd = cmdSHIP_ENTER) ∧
    (∃ (s : State) (n : Fin 8) (c : HostCmd), s.hw.mayCommit n.val c ∧ c.cmd = cmdHOST_PWR) ∧
    (∃ (s : State) (n : Fin 8) (c : HostCmd), s.hw.mayCommit n.val c ∧ c.cmd = cmdCAL_COMMIT) ∧
    (∃ (s : State) (n : Fin 8) (c : HostCmd), s.hw.mayCommit n.val c ∧ c.cmd = cmdCFG_COMMIT ∧ s.hw.cfgCopy ≤ 1) :=
  ⟨⟨stx [] (wk2 [hc 0x31 [0,0,0,0,9,0,0,0,0,0,0,0] 1]), 3, hc 0x31 [0,0,0,0,9,0,0,0,0,0,0,0] 1, by decide +kernel⟩,
    ⟨stx [(Reg.JRN_SEALED_EPOCH,5)] (wk2 [hc 0x32 [5,0,0,0] 1]), 3, hc 0x32 [5,0,0,0] 1, by decide +kernel⟩,
    ⟨stx [] (wk2 [hc 0x50 [7,0,0,0] 1]), 3, hc 0x50 [7,0,0,0] 1, by decide +kernel⟩,
    ⟨stx [(Reg.SVC_STATUS_FAILS,3)] (wk2 [hc 0x101 (1 :: List.replicate 67 0) 1]), 3, hc 0x101 (1 :: List.replicate 67 0) 1, by decide +kernel⟩,
    ⟨stx [] (wk2 [hc 0x103 (List.replicate 36 1) 1]), 3, hc 0x103 (List.replicate 36 1) 1, by decide +kernel⟩,
    ⟨stx [] (wk2 [hc 0x110 [0x53,0x48,0x49,0x50] 1]), 3, hc 0x110 [0x53,0x48,0x49,0x50] 1, by decide +kernel⟩,
    ⟨stx [] (wk2 [{ hc 0x111 [1,0,0,0] 1 with flags := 1 }]), 3, { hc 0x111 [1,0,0,0] 1 with flags := 1 }, by decide +kernel⟩,
    ⟨stx [] (wk2 [hc 0x23 [] 1]), 3, hc 0x23 [] 1, by decide +kernel⟩,
    ⟨stx [] (wk2 [hc 0x121 [] 1]), 3, hc 0x121 [] 1, by decide +kernel⟩⟩

theorem witness_drain_port_answers :
    (∃ (addr : Fin 65536), addr.val / 4 * 4 = 0x34) ∧
    (∃ (addr : Fin 65536), 0x1000 ≤ addr.val ∧ addr.val < 0x2000) ∧
    (∃ (s : State), s.hw.portOpen = true) ∧
    (∃ (s : State), s.hw.portOpen = true) ∧
    (∃ (s : State) (n : Nat), s.hw.portOpen = true ∧ n ≤ s.hw.host.drain.buffer.length) ∧
    (∃ (s : State) (n : Nat), s.hw.portOpen = true ∧ s.hw.host.drain.buffer.length < n) ∧
    (∃ (s : State) (n : Nat), s.hw.portOpen = true ∧ s.hw.rd Reg.DRN_CFG_QUAD = 1 ∧ n ≤
    s.hw.host.drain.buffer.length) ∧
    (∃ (s : State), s.hw.portOpen = true ∧ s.hw.rd Reg.DRN_CFG_QUAD = 0) ∧
    (∃ (s : State) (b : List Byte), s.hw.portOpen = true ∧ b.length = 16 ∧ 1 ≤ numAt b 0 1 ∧ numAt b 0 1 ≤ 3 ∧
    s.hw.host.fieldAsleep = false) ∧
    (∃ (s : State) (b : List Byte), s.hw.portOpen = true ∧ b.length < 16) ∧
    (∃ (s : State), s.hw.rd (Reg.DRN_REQ_BLOCK 0) = 1 ∧ s.hw.host.fieldAsleep = false) ∧
    (∃ (s : State) (r : DrainReq), s.hw.away .f6 = false ∧ s.hw.host.drain.fieldReq = some r ∧ r.op = 1 ∧
    r.count = 0 ∧ s.hw.host.f.waiting = []) ∧
    (∃ (s : State) (r : DrainReq), s.hw.away .f6 = false ∧ s.hw.host.drain.fieldReq = some r ∧ r.op = 2) ∧
    (∃ (s : State) (r : DrainReq), s.hw.away .f6 = false ∧ s.hw.host.drain.fieldReq = some r ∧ r.op = 3) ∧
    (∃ (s : State) (o : Nat), s.hw.portOpen = true ∧ s.hw.windowOpen = true ∧ o < 0x8000) ∧
    (∃ (s : State) (o : Nat), s.hw.portOpen = true ∧ s.hw.rd Reg.DRN_CFG_QUAD = 1 ∧ s.hw.windowOpen = true ∧ o <
    0x8000) :=
  ⟨⟨0x35, by decide +kernel⟩,
    ⟨0x1FFF, by decide +kernel⟩,
    ⟨stx [] (drn id), by decide +kernel⟩,
    ⟨stx [] (drn id), by decide +kernel⟩,
    ⟨stx [] (drn fun d => { d with buffer := [1,2,3] }), 2, by decide +kernel⟩,
    ⟨stx [] (drn fun d => { d with buffer := [1,2,3] }), 5, by decide +kernel⟩,
    ⟨stx [(Reg.DRN_CFG_QUAD,1)] (drn fun d => { d with buffer := [1,2,3] }), 2, by decide +kernel⟩,
    ⟨stx [(Reg.DRN_CFG_QUAD,0)] (drn fun d => { d with buffer := [1,2,3] }), by decide +kernel⟩,
    ⟨stx [] (drn fun d => { d with buffer := [1,2,3] }), [1,0,7,0,5,0,0,0,0,0,0,0,9,0,0,0], by decide +kernel⟩,
    ⟨stx [] (drn id), [1,0,7,0], by decide +kernel⟩,
    ⟨stw [(Reg.DRN_REQ_BLOCK 0, 1),(Reg.DRN_REQ_BLOCK 2, 9)], by decide +kernel⟩,
    ⟨stx [] (freq ⟨1,7,5,0⟩), ⟨1,7,5,0⟩, by decide +kernel⟩,
    ⟨stx [] (freq ⟨2,7,5,0⟩), ⟨2,7,5,0⟩, by decide +kernel⟩,
    ⟨stx [] (freq ⟨3,7,5,0⟩), ⟨3,7,5,0⟩, by decide +kernel⟩,
    ⟨stx [] (fun m => drn id { m with upd := { m.upd with hostFrost := true } }), 0x7FFF, by decide +kernel⟩,
    ⟨stx [(Reg.DRN_CFG_QUAD,1)] (fun m => drn id { m with upd := { m.upd with hostFrost := true } }), 0, by decide +kernel⟩⟩

theorem witness_modes_follow_their_events :
    (∃ (s : State), s.hw.modes.hostPwr = 0 ∧ s.hw.rd Reg.MODE_CFG_PWR_REQ_EN = 1) ∧
    (∃ (s : State), s.hw.mayDoze = true) ∧
    (∃ (s : State), s.hw.rd Reg.HP_STATUS_DOZE = 1) ∧
    (∃ (s : State), s.hw.mayKeepalive = true ∧ s.hw.durableLeft = false) ∧
    (∃ (s : State), s.hw.mayKeepalive = true ∧ s.hw.durableLeft = true ∧ s.hw.modes.kaStep = 0) ∧
    (∃ (s : State), 64 ≤ s.hw.modes.kaFrames ∧ s.hw.tkt.stopped = true ∧ s.hw.modes.shipAsk = false ∧
    s.hw.modes.kaStep = 1 ∧ s.hw.tkt.waits = []) ∧
    (∃ (s : State), s.hw.modes.kaStep = 2 ∧ s.hw.tkt.table = [] ∧ s.hw.arch.domains.length = 10) ∧
    (∃ (s : State), s.hw.mode = modeKEEPALIVE ∧ s.hw.modes.wakeReq = true ∧ s.hw.chg.source = false) ∧
    (∃ (s : State), s.hw.mode = modeKEEPALIVE ∧ s.hw.arch.engines.length = 12) ∧
    (∃ (s : State), s.hw.rd Reg.MODE_CFG_SHIP_N_EN = 1 ∧ s.hw.modes.shipNReady = true ∧ s.hw.modes.shipAsk =
    false ∧ s.hw.shipReason true true = 0) ∧
    (∃ (s : State), s.hw.modes.shipAsk = true ∧ s.hw.upd.hand = none ∧ s.hw.upd.prob = none ∧ s.hw.chg.source =
    false ∧ s.hw.durableLeft = false ∧ s.hw.arch.domains.length = 10) ∧
    (∃ (s : State), s.hw.modes.shipAsk = true ∧ s.hw.upd.hand = none ∧ s.hw.upd.prob = none ∧ s.hw.tkt.waits =
    []) ∧
    (∃ (s : State), s.hw.modes.shipCell = true ∧ s.hw.modes.faonOn = false) ∧
    (∃ (s : State), s.hw.bus.ops = []) ∧
    (∃ (s : State), s.hw.bus.vioLow = true) :=
  ⟨⟨stw [(Reg.MODE_CFG_PWR_REQ_EN,1)], by decide +kernel⟩,
    ⟨stx [] (fun m => { m with host := { m.host with hReady := true, fieldAsleep := true } }), by decide +kernel⟩,
    ⟨stw [(Reg.HP_STATUS_DOZE,1)], by decide +kernel⟩,
    ⟨stx [(Reg.MODE_STATUS_MODE,1),(Reg.MODE_CFG_PWR_REQ_EN,1)] (kam fon), by decide +kernel⟩,
    ⟨stx [(Reg.MODE_STATUS_MODE,1),(Reg.MODE_CFG_PWR_REQ_EN,1)] (fun m => kam fon { m with tkt := { m.tkt with table := [{ tck 5 11 with dur := true }] } }), by decide +kernel⟩,
    ⟨stx [(Reg.MODE_STATUS_MODE,1)] (fun m => kam (fun d => { fon d with kaStep := 1, kaFrames := 64 }) { m with tkt := { m.tkt with stopped := true } }), by decide +kernel⟩,
    ⟨stx [(Reg.MODE_STATUS_MODE,1)] (kam fun d => { fon d with kaStep := 2 }), by decide +kernel⟩,
    ⟨stx [(Reg.MODE_STATUS_MODE,4)] (kam fun d => { fon d with wakeReq := true }), by decide +kernel⟩,
    ⟨stx [(Reg.MODE_STATUS_MODE,4)] (kam fon), by decide +kernel⟩,
    ⟨stx [(Reg.MODE_STATUS_MODE,1),(Reg.MODE_CFG_SHIP,1),(Reg.MODE_CFG_SHIP_N_EN,1)] (kam fun d => { fon d with shipNReady := true }), by decide +kernel⟩,
    ⟨stx [(Reg.MODE_STATUS_MODE,1)] (kam fun d => { fon d with shipAsk := true }), by decide +kernel⟩,
    ⟨stx [(Reg.MODE_STATUS_MODE,1)] (kam fun d => { fon d with shipAsk := true }), by decide +kernel⟩,
    ⟨stx [] (kam fun d => { d with faonOn := false, shipCell := true, shipNReady := true }), by decide +kernel⟩,
    ⟨stx [] (fun m => { m with seq := { m.seq with aptPad := true } }), by decide +kernel⟩,
    ⟨stx [] (fun m => { m with bus := { m.bus with vioLow := true } }), by decide +kernel⟩⟩

theorem witness_resets_and_starts_take_place :
    (∃ (s : State), s.hw.modes.faonOn = true) ∧
    (∃ (s : State), s.hw.modes.faonOn = true ∧ s.hw.arch.engines.length = 12 ∧ s.hw.upd.prob = none) ∧
    (∃ (s : State), s.hw.modes.haonOn = true) ∧
    (∃ (s : State), s.hw.modes.faonOn = true ∧ s.hw.held .field = false) ∧
    (∃ (s : State), s.hw.modes.faonOn = true) ∧
    (∃ (s : State), s.hw.modes.haonOn = true ∧ s.hw.held .host = false) ∧
    (∃ (s : State), s.hw.modes.faonOn = true) ∧
    (∃ (s : State) (x : StartInfo), s.hw.modes.faonOn = true ∧ s.hw.modes.starting = true ∧ s.hw.modes.shipCell
    = false ∧ s.hw.held .field = false ∧ s.hw.modes.halted = false ∧ s.hw.modes.kaRead = true ∧ x.slotBad = 0 ∧
    x.slotFell = 0) ∧
    (∃ (s : State), s.hw.modes.faonOn = true ∧ s.hw.modes.starting = true ∧ s.hw.modes.shipCell = false ∧
    s.hw.held .field = false ∧ s.hw.modes.halted = true ∧ s.hw.modes.kaRead = true) ∧
    (∃ (s : State), s.hw.mayWarm = true) ∧
    (∃ (s : State), s.hw.mode = modeSERVICE ∧ s.hw.modes.svcEnd = none ∧ s.hw.rd Reg.MODE_CFG_SVC_TMO *
    s.hw.frames60 ≤ s.hw.modes.svcIdle) ∧
    (∃ (s : State), s.hw.rd Reg.SVC_STATUS_LOCKED_OUT = 1 ∧ s.hw.lockOver = true) :=
  ⟨⟨stx [] (kam fon), by decide +kernel⟩,
    ⟨stx [] (kam fon), by decide +kernel⟩,
    ⟨stx [] (kam fon), by decide +kernel⟩,
    ⟨stx [(Reg.WDG_STATUS_ARMED,1)] (fun m => kam fon { m with seq := { m.seq with pinHeld := false } }), by decide +kernel⟩,
    ⟨stx [] (fun m => kam fon { m with seq := { m.seq with pinHeld := true } }), by decide +kernel⟩,
    ⟨stx [] (fun m => kam fon { m with host := { m.host with pinLow := false } }), by decide +kernel⟩,
    ⟨stx [] (kam fon), by decide +kernel⟩,
    ⟨stx [] (fun m => kam (fun d => { fon d with starting := true, kaRead := true }) { m with seq := { m.seq with pinHeld := false } }), sti, by decide +kernel⟩,
    ⟨stx [] (fun m => kam (fun d => { fon d with starting := true, kaRead := true, halted := true }) { m with seq := { m.seq with pinHeld := false } }), by decide +kernel⟩,
    ⟨stx [] (fun m => { kam (fun d => { fon d with starting := false, startKind := 1 }) m with arch := { m.arch with sb := { m.arch.sb with fieldReset := true } }, seq := { m.seq with pinHeld := false } }), by decide +kernel⟩,
    ⟨stx [(Reg.MODE_STATUS_MODE,6),(Reg.MODE_CFG_SVC_TMO,1)] (kam fun d => { d with svcIdle := 100000000 }), by decide +kernel⟩,
    ⟨stx [(Reg.SVC_STATUS_LOCKED_OUT,1),(Reg.SVC_STATUS_FAILS,5)] (kam fun d => { d with lockUntil := 0 }), by decide +kernel⟩⟩

theorem witness_watchdogs_judge_their_windows :
    (∃ (s : State), s.hw.wdArmed .field = true ∧ s.hw.guardRuns .field = true ∧ s.hw.wdg.window = true ∧
    s.hw.wdg.late = false ∧ s.hw.wdg.refused = false ∧ s.hw.resetDue .field = false ∧ s.hw.wdg.served = false) ∧
    (∃ (s : State), s.hw.wdArmed .field = true ∧ s.hw.guardRuns .field = true ∧ s.hw.wdg.window = false) ∧
    (∃ (s : State) (k : Fin 65536), s.hw.wdArmed .host = true ∧ s.hw.guardRuns .host = true ∧ k ≠ 0xC7A3) ∧
    (∃ (e : Engine), e ≠ guardOf e.side) ∧
    (∃ (s : State), s.hw.wdArmed .field = true ∧ s.hw.wdg.window = false ∧ s.hw.wdFrame + 1 = s.hw.wdP .field) ∧
    (∃ (s : State), s.hw.wdArmed .field = true ∧ s.hw.wdg.window = true ∧ s.hw.wdg.served = true ∧ s.hw.mode ≠
    modePERMAFROST) ∧
    (∃ (s : State), s.hw.wdArmed .field = true ∧ s.hw.wdg.window = true ∧ s.hw.wdKept .field = false) ∧
    (∃ (s : State), s.hw.hwdg.starting = true ∧ s.hw.wdArmed .host = false ∧ s.hw.held .host = false ∧
    s.hw.upd.hostFrost = false ∧ s.hw.modes.haonOn = true) ∧
    (∃ (s : State) (e : Engine), (s.hw.engine e).running = true ∧ (s.hw.engine e).restarting = false ∧
    (s.hw.engine e).handover = false ∧ e.side = .field ∧ bitAt s.hw.wdg.live (checkBit e) = false) ∧
    (∃ (s : State) (e : Engine), (s.hw.engine e).running = true ∧ (s.hw.engine e).restarting = false ∧
    (s.hw.engine e).handover = false ∧ e.side = .field ∧ bitAt s.hw.wdg.live (checkBit e) = true) :=
  ⟨⟨stx [] (wdw fun d => { d with window := true }), by decide +kernel⟩,
    ⟨stx [] (wdw id), by decide +kernel⟩,
    ⟨stx [(Reg.HWDG_STATUS_ARMED,1)] up1, 0x1234, by decide +kernel⟩,
    ⟨Engine.f3, by decide +kernel⟩,
    ⟨stx [(Reg.FRM_FRN_FRN,3)] (wdw fun d => { d with period := 3, armedFrn := 0, live := 0x1FF }), by decide +kernel⟩,
    ⟨stx [(Reg.WDG_CFG_PERIOD,7)] (wdw fun d => { d with window := true, served := true }), by decide +kernel⟩,
    ⟨stx [] (wdw fun d => { d with window := true }), by decide +kernel⟩,
    ⟨stx [] (fun m => { m with hwdg := { m.hwdg with starting := true }, modes := fon m.modes, host := { m.host with pinLow := false, hReady := true } }), by decide +kernel⟩,
    ⟨stx [] (wdw id), Engine.f4, by decide +kernel⟩,
    ⟨stx [] (wdw fun d => { d with live := 0x1FF }), Engine.f4, by decide +kernel⟩⟩

theorem witness_self_tests_and_injections_run :
    (∃ (sd : Side) (id : Nat) (c : Nat), macroExists sd id = true ∧ c < (macroSize sd id).2) ∧
    (∃ (s : State) (id : Fin 32), s.hw.bist.due.contains id.val = true ∧ s.hw.bist.fuses = []) ∧
    (∃ (s : State) (c : Nat), c < (macroSize .field 5).2 ∧ s.hw.bist.due.contains 5 = true ∧ s.hw.bist.soft = []
    ∧ s.hw.bist.fuses = []) ∧
    (∃ (s : State) (c : Nat), c < (macroSize .field 0).2 ∧ s.hw.bist.due.contains 0 = true ∧ s.hw.bist.soft = []
    ∧ s.hw.bist.fuses = []) ∧
    (∃ (s : State) (r : Repair), s.hw.inService = true ∧ s.hw.frozen = false ∧ s.hw.bist.soft = [r] ∧ r.fused =
    false ∧ s.hw.rd Reg.BIST_STATUS_FUSES_USED < 64) ∧
    (∃ (s : State) (r : Repair), s.hw.inService = true ∧ s.hw.frozen = false ∧ s.hw.bist.soft = [r] ∧ r.fused =
    false ∧ s.hw.rd Reg.BIST_STATUS_FUSES_USED = 64) ∧
    (∃ (s : State), s.hw.inService = true) ∧
    (∃ (s : State), s.hw.lbReason .field (s.hw.rd Reg.LB_CTL_IF) (s.hw.rd Reg.LB_CTL_DEPTH) = 0) ∧
    (∃ (s : State), s.hw.inService = false) ∧
    (∃ (s : State), s.hw.rd Reg.HLB_STATUS_STATE = 2) ∧
    (∃ (s : State), s.hw.rd Reg.LB_STATUS_STATE = 2 ∧ 64 ≤ s.hw.lb.frames) ∧
    (∃ (s : State), s.hw.fiAllowed = true) ∧
    (∃ (s : State), s.hw.fiAllowed = false) ∧
    (∃ (s : State), s.hw.lb.armed = true ∧ s.hw.rd Reg.FI_CTL_MODE = 0) :=
  ⟨⟨.field, 5, 2111, by decide +kernel⟩,
    ⟨stx [] (fun m => { m with bist := { m.bist with due := [7], fuses := [] } }), 7, by decide +kernel⟩,
    ⟨stx [] (fun m => { m with bist := { m.bist with due := [5], fuses := [], soft := [] } }), 3, by decide +kernel⟩,
    ⟨stx [] (fun m => { m with bist := { m.bist with due := [0], fuses := [], soft := [] } }), 3, by decide +kernel⟩,
    ⟨stx [(Reg.MODE_STATUS_MODE,6),(Reg.BIST_STATUS_FUSES_USED,63)] (fun m => { m with bist := { m.bist with soft := [⟨5,false,3,0,false⟩] } }), ⟨5,false,3,0,false⟩, by decide +kernel⟩,
    ⟨stx [(Reg.MODE_STATUS_MODE,6),(Reg.BIST_STATUS_FUSES_USED,64)] (fun m => { m with bist := { m.bist with soft := [⟨5,false,3,0,false⟩] } }), ⟨5,false,3,0,false⟩, by decide +kernel⟩,
    ⟨stw [(Reg.MODE_STATUS_MODE,6)], by decide +kernel⟩,
    ⟨stw [(Reg.MODE_STATUS_MODE,6),(Reg.LB_CTL_IF,4)], by decide +kernel⟩,
    ⟨stw [(Reg.MODE_STATUS_MODE,1),(Reg.LB_CTL_IF,4)], by decide +kernel⟩,
    ⟨stw [(Reg.HLB_STATUS_STATE,2)], by decide +kernel⟩,
    ⟨stx [(Reg.LB_STATUS_STATE,2),(Reg.LB_CTL_IF,4)] (fun m => { m with lb := { m.lb with frames := 64 } }), by decide +kernel⟩,
    ⟨stw [(Reg.MODE_STATUS_MODE,6),(Reg.MODE_STATUS_SVC_LEVEL,2),(Reg.FI_CTL_TARGET,0x33)], by decide +kernel⟩,
    ⟨stw [], by decide +kernel⟩,
    ⟨stx [(Reg.FI_CTL_TARGET,0x33),(Reg.FI_CTL_KIND,0xC0),(Reg.FI_CTL_SEV,2)] (fun m => { m with lb := { m.lb with armed := true } }), by decide +kernel⟩⟩

theorem witness_update_commands_act :
    (∃ (s : State) (n : Fin 8) (c : HostCmd) (e : Engine), n ≠ 7 ∧ s.hw.turn n.val cmdUPD_BEGIN c ∧
    s.hw.namedEngine c = some e ∧ e.side = .field ∧ 1 ≤ c.arg 4 4 ∧ c.arg 4 4 ≤ 524288 ∧ s.hw.upd.session =
    none) ∧
    (∃ (s : State) (c : HostCmd) (e : Engine), s.hw.nextCmd 7 cmdUPD_BEGIN = some c ∧ s.hw.mustWait c = false ∧
    s.hw.gate c = none ∧ s.hw.hostGate c = none ∧ s.hw.away .h2 = false ∧ s.hw.namedEngine c = some e ∧ 1 ≤
    c.arg 4 4 ∧ c.arg 4 4 ≤ 524288 ∧ s.hw.upd.session = none) ∧
    (∃ (s : State) (n : Fin 8) (c : HostCmd) (x : Session), n ≠ 7 ∧ s.hw.turn n.val cmdUPD_CHUNK c ∧
    s.hw.namedSession c = some x ∧ updChunkCheck s.hw c = (s.hw, none) ∧ c.arg 4 4 + c.arg 8 2 ≤ x.next ∧ c.arg
    4 4 ≠ x.next) ∧
    (∃ (s : State) (n : Fin 8) (c : HostCmd) (x : Session), n ≠ 7 ∧ s.hw.turn n.val cmdUPD_CHUNK c ∧
    s.hw.namedSession c = some x ∧ updChunkCheck s.hw c = (s.hw, none) ∧ c.arg 4 4 = x.next ∧ x.patch.length +
    c.arg 8 2 < 0x58) ∧
    (∃ (s : State) (x : Session), s.hw.upd.session = some x ∧ x.pendingBlocks ≠ 0 ∧ s.hw.mayPulse = true ∧
    crc32c ((x.target.drop (4096 * x.blocks)).take 4096) = numAt x.patch (0x58 + 4 * x.blocks) 4) ∧
    (∃ (s : State) (x : Session), s.hw.upd.session = some x ∧ x.pendingBlocks ≠ 0 ∧ s.hw.mayPulse = true ∧
    crc32c ((x.target.drop (4096 * x.blocks)).take 4096) ≠ numAt x.patch (0x58 + 4 * x.blocks) 4 ∧ (engineAt
    x.engine).side = .field) ∧
    (∃ (s : State) (n : Fin 8) (c : HostCmd) (x : Session), n ≠ 7 ∧ s.hw.turn n.val cmdUPD_FINISH c ∧
    s.hw.namedSession c = some x ∧ x.pendingBlocks = 0 ∧ x.ended = false ∧ (engineAt x.engine).side = .field) ∧
    (∃ (s : State) (n : Fin 8) (c : HostCmd) (x : Session), n ≠ 7 ∧ s.hw.turn n.val cmdUPD_FINISH c ∧
    s.hw.namedSession c = some x ∧ x.pendingBlocks = 0 ∧ s.hw.upd.slots.length = 24 ∧ x.engine < 12 ∧ x.slot <
    2) ∧
    (∃ (s : State) (n : Fin 8) (c : HostCmd) (x : Session), n ≠ 7 ∧ s.hw.turn n.val cmdUPD_ABORT c ∧
    s.hw.namedSession c = some x ∧ s.hw.upd.slots.length = 24 ∧ x.engine < 12 ∧ x.slot < 2) ∧
    (∃ (s : State) (n : Fin 8) (c : HostCmd) (e : Engine), n ≠ 7 ∧ s.hw.turn n.val cmdUPD_QUERY c ∧
    s.hw.namedEngine c = some e) ∧
    (∃ (s : State) (n : Fin 8) (c : HostCmd) (e : Engine), n ≠ 7 ∧ s.hw.turn n.val cmdUPD_ACTIVATE c ∧
    s.hw.namedEngine c = some e ∧ (activateCheck false s.hw c).2.isNone = true ∧ s.hw.mode ≠ modePERMAFROST) ∧
    (∃ (s : State) (n : Fin 8) (c : HostCmd) (e : Engine), n ≠ 7 ∧ s.hw.turn n.val cmdUPD_REVERT c ∧
    s.hw.namedEngine c = some e ∧ (activateCheck true s.hw c).2.isNone = true ∧ s.hw.mode ≠ modePERMAFROST) :=
  ⟨⟨stx [] (fun m => updm id (wk [hc 0x200 [0x12,0,0,0,0,4,0,0] 0] m)), 3, hc 0x200 [0x12,0,0,0,0,4,0,0] 0, Engine.f2, by decide +kernel⟩,
    ⟨stx [(Reg.ID_STATUS_LINK,1),(Reg.ID_STATUS_MODE,6)] (fun m => updm id (wk [{ hc 0x200 [1,0,0,0,0,4,0,0] 0 with stream := 7, hostSide := true }] m)), { hc 0x200 [1,0,0,0,0,4,0,0] 0 with stream := 7, hostSide := true }, Engine.h1, by decide +kernel⟩,
    ⟨stx [] (fun m => updm (fun u => { u with session := some { ses0 with next := 2 }, chunkSession := 7, chunk := [(0,0xAA),(1,0xBB)] }) (wk [hc 0x201 ([7,0,0,0,0,0,0,0,2,0,0,0] ++ le 4 (crc32c [0xAA,0xBB])) 0] m)), 3, hc 0x201 ([7,0,0,0,0,0,0,0,2,0,0,0] ++ le 4 (crc32c [0xAA,0xBB])) 0, { ses0 with next := 2 }, by decide +kernel⟩,
    ⟨stx [] (fun m => updm (fun u => { u with session := some ses0, chunkSession := 7, chunk := [(0,0xAA),(1,0xBB)] }) (wk [hc 0x201 ([7,0,0,0,0,0,0,0,2,0,0,0] ++ le 4 (crc32c [0xAA,0xBB])) 0] m)), 3, hc 0x201 ([7,0,0,0,0,0,0,0,2,0,0,0] ++ le 4 (crc32c [0xAA,0xBB])) 0, ses0, by decide +kernel⟩,
    ⟨stx [] (updm fun u => { u with slots := slots24 1, session := some { ses0 with target := [1,2,3], ended := true, patch := List.replicate 0x58 0 ++ le 4 (crc32c [1,2,3]) } }), { ses0 with target := [1,2,3], ended := true, patch := List.replicate 0x58 0 ++ le 4 (crc32c [1,2,3]) }, by decide +kernel⟩,
    ⟨stx [] (updm fun u => { u with session := some { ses0 with target := [1,2,3], ended := true } }), { ses0 with target := [1,2,3], ended := true }, by decide +kernel⟩,
    ⟨stx [] (fun m => updm (fun u => { u with slots := slots24 1, session := some ses0 }) (wk [hc 0x202 [7,0,0,0] 0] m)), 3, hc 0x202 [7,0,0,0] 0, ses0, by decide +kernel⟩,
    ⟨stx [] (fun m => updm (fun u => { u with slots := slots24 1, session := some ses0 }) (wk [hc 0x202 [7,0,0,0] 0] m)), 3, hc 0x202 [7,0,0,0] 0, ses0, by decide +kernel⟩,
    ⟨stx [] (fun m => updm (fun u => { u with slots := slots24 1, session := some ses0 }) (wk [hc 0x204 [7,0,0,0] 0] m)), 3, hc 0x204 [7,0,0,0] 0, ses0, by decide +kernel⟩,
    ⟨stx [] (fun m => updm (fun u => { u with slots := slots24 1 }) (wk [hc 0x205 [0x12,0,0,0] 0] m)), 3, hc 0x205 [0x12,0,0,0] 0, Engine.f2, by decide +kernel⟩,
    ⟨stx [] (fun m => updm (fun u => { u with slots := slots24 2 }) (wk [hc 0x203 [0x12,0,0,0,9,0,0,0] 0] m)), 3, hc 0x203 [0x12,0,0,0,9,0,0,0] 0, Engine.f2, by decide +kernel⟩,
    ⟨stx [] (fun m => updm (fun u => { u with slots := slots24 2 }) (wk [hc 0x206 [0x12,0,0,0] 0] m)), 3, hc 0x206 [0x12,0,0,0] 0, Engine.f2, by decide +kernel⟩⟩

theorem witness_handovers_and_probations_end :
    (∃ (s : State) (h : Handover), s.hw.upd.hand = some h ∧ h.begun = false ∧ s.hw.frnReached h.at_ = true ∧
    h.engine < 12 ∧ s.hw.arch.engines.length = 12 ∧ (s.hw.engine (engineAt h.engine)).running = true) ∧
    (∃ (s : State) (h : Handover), s.hw.upd.hand = some h ∧ h.begun = true ∧ h.engine < 12 ∧
    s.hw.arch.engines.length = 12 ∧ s.hw.frozen = true ∧ (engineAt h.engine).side = .field) ∧
    (∃ (s : State) (h : Handover), s.hw.upd.hand = some h ∧ h.begun = true ∧ (engineAt h.engine).side = .field) ∧
    (∃ (s : State) (h : Handover), s.hw.upd.prob = some h ∧ s.hw.frnReached h.at_ = true ∧ s.hw.upd.probDue =
    none ∧ h.engine < 12 ∧ h.newSlot = 1 ∧ h.oldSlot = 0 ∧ s.hw.upd.slots.length = 24) ∧
    (∃ (s : State) (h : Handover) (k : Nat), s.hw.upd.prob = some h ∧ s.hw.upd.probDue = some k ∧ h.engine < 12
    ∧ h.newSlot = 1 ∧ h.oldSlot = 0 ∧ s.hw.upd.slots.length = 24) :=
  ⟨⟨stx [] (fun m => up1 (updm (fun u => { u with hand := some (hnd false) }) m)), hnd false, by decide +kernel⟩,
    ⟨stx [(Reg.FRM_STATUS_FRZ,1)] (fun m => up1 (updm (fun u => { u with hand := some (hnd true), slots := slots24 2 }) m)), hnd true, by decide +kernel⟩,
    ⟨stx [] (fun m => up1 (updm (fun u => { u with hand := some (hnd true), slots := slots24 2 }) m)), hnd true, by decide +kernel⟩,
    ⟨stx [] (fun m => up1 (updm (fun u => { u with prob := some (hnd true), slots := slots24 3 }) m)), hnd true, by decide +kernel⟩,
    ⟨stx [] (fun m => up1 (updm (fun u => { u with prob := some (hnd true), probDue := some 5, slots := slots24 3 }) m)), hnd true, 5, by decide +kernel⟩⟩

theorem witness_step_runs_front_command :
    (∃ (c : Instr) (s : State), s.pending.head? = some c) ∧ ∃ s : State, s.pending = [] :=
  ⟨⟨.cableDetachCode, { State.reset with pending := [.cableDetachCode] }, rfl⟩, State.reset, rfl⟩

theorem witness_register_store_stays_canonical : ∃ s t : State, Regs.wf s.hw.regs ∧ step s = .next t :=
  ⟨{ State.reset with pending := [.cableDetachCode] }, _, List.Pairwise.nil, rfl⟩

theorem witness_stores_stay_bounded : ∃ s t : State, s.hw.bounded ∧ step s = .next t :=
  ⟨{ State.reset with pending := [.cableDetachCode] }, _, by unfold Hw.bounded; decide +kernel, rfl⟩

theorem witness_frame_number_counts_ticks :
    (∃ s : State, s.hw.modes.faonOn = true ∧ s.hw.rd Reg.FRM_FRN_FRN < 2 ^ 32 - 1) ∧
    (∃ s : State, s.hw.modes.faonOn = true ∧ s.hw.rd Reg.FRM_FRN_FRN = 2 ^ 32 - 1 ∧ s.hw.rd Reg.FRM_WRAP_WRAP < 65535) ∧
    (∃ s : State, (s.hw.domain .fAon).pg = true) ∧
    (∃ (c : Instr) (s t : State), exec c s = .next t ∧ (∀ f, c ≠ .frameTick f) ∧ (∀ l, c ≠ .faonPowerLoss l) ∧
      c ≠ .domainPgFall .fAon ∧ ∀ b v, c ≠ .shipWake b v) ∧
    (∃ (b v : Bool) (s t : State), exec (.shipWake b v) s = .next t ∧ s.hw.modes.faonOn = true ∧
      s.hw.modes.shipCell = false) :=
  ⟨⟨stx [(Reg.FRM_FRN_FRN, 2 ^ 32 - 2)] (kam fon), by decide +kernel⟩,
    ⟨stx [(Reg.FRM_FRN_FRN, 2 ^ 32 - 1), (Reg.FRM_WRAP_WRAP, 65534)] (kam fon), by decide +kernel⟩,
    ⟨stx [] (fun m => m.powerDomain .fAon true), by decide +kernel⟩,
    ⟨.cableDetachCode, stw [], _, rfl, by simp, by simp, by simp, by simp⟩,
    ⟨true, true, stx [] (kam fon), _, rfl, by decide +kernel⟩⟩

theorem witness_access_codes_govern_registers :
    (∃ (m : Hw) (a : Nat) (f : Field), f ∈ Reg.fieldsAt a ∧ m.writable f = false ∧ f.acc = .ro) ∧
    (∃ (m : Hw) (a : Nat) (f : Field), f ∈ Reg.fieldsAt a ∧ f.acc = .rws ∧ m.inService = false) ∧
    (∃ (m : Hw) (a i : Nat) (f : Field), f ∈ Reg.fieldsAt a ∧ f.acc = .rws ∧ m.inService = true ∧
      selfClearing.contains f = false ∧ (∀ v, inRange f v = v) ∧ i < f.width) ∧
    (∃ (a i : Nat) (f : Field), f ∈ Reg.fieldsAt a ∧ f.acc = .w1c ∧ selfClearing.contains f = false ∧ i < f.width) ∧
    (∃ (a i : Nat) (f : Field), f ∈ Reg.fieldsAt a ∧ f.width ≤ 32 ∧ i < f.width ∧ (a < 0x1A00 ∨ 0x1E00 ≤ a)) ∧
    (∃ (m : Hw) (a : Nat) (f : Field), f ∈ Reg.fieldsAt a ∧ f.acc = .rc ∧ m.extremum f = none) ∧
    (∃ (m : Hw) (a v : Nat) (f : Field), f ∈ Reg.fieldsAt a ∧ f.acc = .rc ∧ m.extremum f = some v) :=
  ⟨⟨Hw.reset, 0x1104, Reg.FRM_FRN_FRN, by decide +kernel⟩, ⟨Hw.reset, 0x1840, Reg.JRN_CFG_CHOLD_NOM, by decide +kernel⟩,
    ⟨(stw [(Reg.MODE_STATUS_MODE, 6)]).hw, 0x1840, 15, Reg.JRN_CFG_CHOLD_NOM, by decide +kernel, by decide +kernel,
      by decide +kernel, by decide +kernel, fun _ => by simp [inRange, Reg.JRN_CFG_CHOLD_NOM, Reg.PH_CFG_FSW,
        Reg.PH_CFG_ILIM, Reg.POL_CFG_FSW, Reg.POL_CFG_ILIM], by decide +kernel⟩,
    ⟨0x1800, 0, Reg.JRN_STATUS_MEDIA_EVT, by decide +kernel⟩, ⟨0x1104, 31, Reg.FRM_FRN_FRN, by decide +kernel⟩,
    ⟨Hw.reset, 0x1838, Reg.JRN_EVENTS_UNCORR, by decide +kernel⟩,
    ⟨Hw.reset, 0x1900, 0, Reg.TKT_STATUS_HWM, by decide +kernel⟩⟩

theorem witness_reserved_bits_read_zero :
    (∃ a i : Nat, i < 32 ∧ a < 0x1A00 ∧ reservedBit a i) ∧
    (∃ v w : Nat, v ≠ w ∧ ∀ i, ¬reservedBit 0x0FF0 i → bitAt v i = bitAt w i) :=
  ⟨⟨0x1108, 31, by decide, by decide, by unfold reservedBit Field.covers; decide +kernel⟩,
    0, 1, by decide, fun i h => absurd (by unfold reservedBit; simp [show Reg.fieldsAt 0x0FF0 = [] by decide +kernel]) h⟩

theorem witness_frames :
    (∃ s t : State, exec .cableDetachCode s = .next t) ∧ (∃ s t : State, exec (.chgSuspend true) s = .next t) ∧
    (∃ s t : State, exec .rtcOscFail s = .next t) ∧ (∃ s t : State, exec .tableFull s = .next t) ∧
    ∃ s t : State, exec .fvioLow s = .next t :=
  ⟨⟨stw [], _, rfl⟩, ⟨stw [], _, rfl⟩, ⟨stw [], _, rfl⟩, ⟨stw [], _, rfl⟩, stw [], _, rfl⟩

/-! Single steps and check values. -/

/-- The usual check value of CRC-32C: the nine ASCII digits (R403 gives its polynomial and its conditions). -/
theorem test_crc32c : crc32c [0x31, 0x32, 0x33, 0x34, 0x35, 0x36, 0x37, 0x38, 0x39] = 0xE3069283 := by decide +kernel

/-- The usual check value of the SMBus PEC (R383). -/
theorem test_crc8 : crc8 [0x31, 0x32, 0x33, 0x34, 0x35, 0x36, 0x37, 0x38, 0x39] = 0xF4 := by decide +kernel

/-- March C− finds a bit that follows another one (R483): the coupling shows under a background that tells the two apart. -/
theorem test_march_coupling : marchPass 64 [⟨3, 70, .coupled 3 71 true true⟩] = [(3, 70)] := by decide +kernel

/-- A direction message for REVERSE in thaw starts the change (R99). -/
theorem test_tm_xfer_reverse : (match exec .tmXfer (stx [(Reg.XFER_STATUS_DIR, 1)] (inH [ms 0x18 [2, 1, 0, 0]])) with
    | .next t => (t.hw.rd Reg.XFER_STATUS_DIR, t.hw.xfer.target, t.hw.cable.granted)
    | _ => (0, 0, false)) = (3, 2, true) := by decide +kernel

/-- A step takes the command in front, and only that one. -/
theorem test_step_takes_front : (match step { stx [] (hcd .cableDetach) with pending := [.cableDetachCode, .sourceLossCode] } with
    | .next t => t.pending == [.sourceLossCode] && t.hw.modes.revHeld
    | _ => false) = true := by decide +kernel

/-- An empty queue idles. -/
theorem test_step_idles : (match step State.reset with
    | .next t => decide (t = State.reset)
    | _ => false) = true := by decide +kernel

/-- A loss of F-AON power returns FRN to 0 (R44). -/
theorem test_power_loss_clears_frn : (match exec (.faonPowerLoss .battery) (stx [(Reg.FRM_FRN_FRN, 7)] (kam fon)) with
    | .next t => t.hw.rd Reg.FRM_FRN_FRN
    | _ => 1) = 0 := by decide +kernel

/-- A NACK of an address is recorded with error 1 (R396). -/
theorem test_bus_nack : (match exec (.sbTransaction 5 1 []) (stx [] (sbx id)) with
    | .next t => t.hw.rd Reg.SB_LAST_ERR
    | _ => 0) = 1 := by decide +kernel

/-- A masked write outside SERVICE leaves an RWS field (R9). -/
theorem test_rws_outside_service :
    ((stw []).hw.writeFieldWord 0x1840 0xFFFF0000 0x03E80000).rd Reg.JRN_CFG_CHOLD_NOM =
      (stw []).hw.rd Reg.JRN_CFG_CHOLD_NOM := by decide +kernel

/-- The same write in SERVICE takes the selected bits (R9): 1000 µF. -/
theorem test_rws_in_service :
    ((stw [(Reg.MODE_STATUS_MODE, 6)]).hw.writeFieldWord 0x1840 0xFFFF0000 0x03E80000).rd Reg.JRN_CFG_CHOLD_NOM = 1000 := by
  decide +kernel

/-- The table gives no bits, so no word spells a command. -/
theorem test_no_word_decodes : decodeTableWord 16 0 = none := rfl

end Sys2Proof.Tests
end

section
/-! PROOFS. The layout of the register words, their masked writes and their reads; statements O7 and O8. -/

namespace Sys2Proof.Machine

/-! ### Bits -/

theorem bitAt_eq_testBit (v i : Nat) : bitAt v i = v.testBit i := by
  rw [Nat.testBit_eq_decide_div_mod_eq, bitAt, beq_eq_decide]

theorem testBit_bitsOf (v lsb width i : Nat) :
    (bitsOf v lsb width).testBit i = (decide (i < width) && v.testBit (lsb + i)) := by
  rw [bitsOf, Nat.testBit_mod_two_pow, Nat.testBit_div_two_pow, Nat.add_comm]

theorem bitsOf_eq_zero_iff {v lsb width : Nat} : bitsOf v lsb width = 0 ↔ ∀ i < width, v.testBit (lsb + i) = false := by
  constructor
  · intro h i hi
    simpa [h, hi] using testBit_bitsOf v lsb width i
  · intro h
    refine Nat.eq_of_testBit_eq fun i => ?_
    rw [testBit_bitsOf, Nat.zero_testBit]
    by_cases hi : i < width <;> simp [hi, h]

/-- Numbers without a common bit are added without a carry. -/
theorem add_eq_or_of_and_eq_zero {x y : Nat} (h : x &&& y = 0) : x + y = x ||| y := by
  have hlt : x + y < 2 ^ (x + y) := Nat.lt_two_pow_self
  have hx : x % 2 ^ (x + y) = x := Nat.mod_eq_of_lt (by omega)
  have hy : y % 2 ^ (x + y) = y := Nat.mod_eq_of_lt (by omega)
  have hand : BitVec.ofNat (x + y) x &&& BitVec.ofNat (x + y) y = 0#(x + y) :=
    BitVec.eq_of_toNat_eq (by simp [hx, hy, h])
  have hadd := BitVec.toNat_add_of_and_eq_zero hand
  rw [BitVec.add_eq_or_of_and_eq_zero _ _ hand] at hadd
  simpa [hx, hy] using hadd.symm

/-- Taking the selected bits away from a number clears them. -/
theorem testBit_sub_and (x y i : Nat) : (x - (x &&& y)).testBit i = (x.testBit i && !y.testBit i) := by
  have hbit : ∀ j, (x ^^^ (x &&& y)).testBit j = (x.testBit j && !y.testBit j) := fun j => by
    simp only [Nat.testBit_xor, Nat.testBit_and]; cases x.testBit j <;> cases y.testBit j <;> rfl
  have hand : (x &&& y) &&& (x ^^^ (x &&& y)) = 0 := Nat.eq_of_testBit_eq fun j => by
    rw [Nat.testBit_and, hbit, Nat.testBit_and, Nat.zero_testBit]
    cases x.testBit j <;> cases y.testBit j <;> rfl
  have hsum : (x &&& y) + (x ^^^ (x &&& y)) = x := by
    rw [add_eq_or_of_and_eq_zero hand]
    refine Nat.eq_of_testBit_eq fun j => ?_
    rw [Nat.testBit_or, hbit, Nat.testBit_and]
    cases x.testBit j <;> cases y.testBit j <;> rfl
  rw [show x - (x &&& y) = x ^^^ (x &&& y) by omega, hbit]

/-- A masked write takes the selected bits of the new value and keeps the others. -/
theorem testBit_masked (x mask v i : Nat) :
    (x - (x &&& mask) + (v &&& mask)).testBit i = if mask.testBit i then v.testBit i else x.testBit i := by
  have hand : (x - (x &&& mask)) &&& (v &&& mask) = 0 := Nat.eq_of_testBit_eq fun j => by
    rw [Nat.testBit_and, testBit_sub_and, Nat.testBit_and, Nat.zero_testBit]
    cases mask.testBit j <;> simp
  rw [add_eq_or_of_and_eq_zero hand, Nat.testBit_or, testBit_sub_and, Nat.testBit_and]
  cases mask.testBit i <;> simp

/-! ### How the register words are laid out (R8, R428) -/

/-- A field of at most 32 bits stands whole in the word at `a`. -/
abbrev Field.within (f : Field) (a : Nat) : Prop :=
  f.lsb < 32 ∧ 0 < f.width ∧ a ≤ f.addr ∧ f.lsbIn a + f.width ≤ 32

/-- A read-only field of more than 32 bits takes the word at `a` as its lower or its upper half. -/
abbrev Field.spans (f : Field) (a : Nat) : Prop :=
  f.lsb = 0 ∧ 32 < f.width ∧ f.acc = .ro ∧ (a = f.addr ∨ a = f.addr + 4)

/-- The fields of the word at `a` rise without overlap; a field of more than 32 bits stands alone, and the history
(R343) is read only. -/
abbrev LaidOut (a : Nat) (l : List Field) : Prop :=
  (∀ f ∈ l, f.within a ∨ (f.spans a ∧ l = [f])) ∧ l.Pairwise (fun f g => f.lsbIn a + f.width ≤ g.lsbIn a) ∧
    (0x1A00 ≤ a → a < 0x1E00 → ∀ f ∈ l, f.acc = .ro)

/-- The address map (R428): the end of each stretch of addresses, with the chapter that lists its registers. -/
def chapterEnds : List (Nat × Nat) :=
  [(0x60, 13), (0x80, 15), (0xA0, 16), (0x100, 17), (0x200, 13), (0x300, 3), (0x400, 12), (0x1000, 7), (0x1040, 13),
    (0x1080, 14), (0x10A0, 15), (0x10E4, 16), (0x1100, 17), (0x1200, 2), (0x1300, 4), (0x1400, 5), (0x1500, 6),
    (0x1800, 8), (0x1900, 9), (0x1E00, 10), (0x1F00, 11), (0x2000, 12), (0x8000, 13), (0x10000, 16)]

/-- The chapter that lists the registers at `a`. -/
def chapterOf (a : Nat) : Option Nat := (chapterEnds.find? fun e => decide (a < e.1)).map Prod.snd

theorem chapterOf_eq_of_between {lo hi a : Nat} (hends : ∀ e ∈ chapterEnds, e.1 ≤ lo ∨ hi ≤ e.1) (hlo : lo ≤ a)
    (hhi : a < hi) : chapterOf a = chapterOf lo := by
  unfold chapterOf
  congr 1
  refine List.find?_congr fun e he => decide_eq_decide.2 ?_
  have := hends e he
  omega

/-- A word of the chapter `c`: laid out, and without fields at the addresses of other chapters. -/
def InChapter (c a : Nat) (l : List Field) : Prop := l ≠ [] → chapterOf a = some c ∧ LaidOut a l

namespace InChapter
variable {c a lo hi j k : Nat} {p : Prop} [Decidable p] {l l' : List Field}

theorem nil : InChapter c a [] := fun h => absurd rfl h

theorem ite (h : p → chapterOf a = some c ∧ LaidOut a l) (h' : InChapter c a l') :
    InChapter c a (if p then l else l') := by
  split
  · next hp => exact fun _ => h hp
  · exact h'

theorem word (h : chapterOf k = some c ∧ LaidOut k l) (h' : InChapter c a l') :
    InChapter c a (if a = k then l else l') :=
  ite (fun hk => hk ▸ h) h'

theorem twoWords (h : ∀ b ∈ [j, k], chapterOf b = some c ∧ LaidOut b l) (h' : InChapter c a l') :
    InChapter c a (if a = j ∨ a = k then l else l') :=
  ite (fun ha => h a (by simpa using ha)) h'

/-- A stretch of addresses within one chapter. -/
theorem array (lo hi : Nat) (hc : chapterOf lo = some c ∧ ∀ e ∈ chapterEnds, e.1 ≤ lo ∨ hi ≤ e.1)
    (hp : p → lo ≤ a ∧ a < hi) (h : p → LaidOut a l) (h' : InChapter c a l') :
    InChapter c a (if p then l else l') :=
  ite (fun ha => ⟨(chapterOf_eq_of_between hc.2 (hp ha).1 (hp ha).2).trans hc.1, h ha⟩) h'

end InChapter

namespace Reg

theorem inChapter02 (a : Nat) : InChapter 2 a (fieldsAt02 a) := by
  unfold fieldsAt02
  iterate 10 refine .word (by decide) ?_
  iterate 3 refine .array 0x1130 0x11E4 (by decide) (by omega) (fun h => by
    simp [LaidOut, Field.within, Field.lsbIn, FRM_MAP_MAP, FRM_PLANPOL_POL, FRM_PLANPOL_SBQ, FRM_PLANPOL_SEQ,
      FRM_BUD_BUDGET, FRM_BUD_USED_LAST, FRM_BUD_OVERRUNS]; omega) ?_
  refine .word (by decide) ?_
  exact .nil

theorem inChapter03 (a : Nat) : InChapter 3 a (fieldsAt03 a) := by
  unfold fieldsAt03
  iterate 15 refine .word (by decide) ?_
  exact .nil

theorem inChapter04 (a : Nat) : InChapter 4 a (fieldsAt04 a) := by
  unfold fieldsAt04
  iterate 2 refine .word (by decide) ?_
  refine .array 0x1210 0x1220 (by decide) (by omega) (fun h => by
    simp [LaidOut, Field.within, Field.lsbIn, PH_TRIM_TRIM, PH_TRIM_ENTRY, PH_TRIM_AT_LIMIT]; omega) ?_
  iterate 8 refine .word (by decide) ?_
  exact .nil

theorem inChapter05 (a : Nat) : InChapter 5 a (fieldsAt05 a) := by
  unfold fieldsAt05
  iterate 18 refine .word (by decide) ?_
  exact .nil

theorem inChapter06 (a : Nat) : InChapter 6 a (fieldsAt06 a) := by
  unfold fieldsAt06
  refine .word (by decide) ?_
  iterate 2 refine .array 0x1404 0x1418 (by decide) (by omega) (fun h => by
    simp [LaidOut, Field.within, Field.lsbIn, POL_SET_SET, QR_SET_SET]; omega) ?_
  refine .word (by decide) ?_
  iterate 2 refine .array 0x1420 0x1448 (by decide) (by omega) (fun h => by
    simp [LaidOut, Field.within, Field.lsbIn, POL_CFG_FSW, POL_CFG_ILIM, POL_CFG_SLEW, POL_CFG_DISCH,
      POL_CFG_FLOOR, POL_VTAB_ENTRY_LO, POL_VTAB_ENTRY_HI]; omega) ?_
  iterate 9 refine .word (by decide) ?_
  exact .nil

theorem inChapter07 (a : Nat) : InChapter 7 a (fieldsAt07 a) := by
  unfold fieldsAt07
  iterate 15 refine .word (by decide) ?_
  exact .nil

theorem inChapter08 (a : Nat) : InChapter 8 a (fieldsAt08 a) := by
  unfold fieldsAt08
  iterate 8 refine .word (by decide) ?_
  refine .array 0x1520 0x1540 (by decide) (by omega) (fun h => by
    simp [LaidOut, Field.within, Field.lsbIn, CAL_CERT_ID_ID]; omega) ?_
  iterate 2 refine .twoWords (by decide) ?_
  iterate 2 refine .word (by decide) ?_
  iterate 2 refine .array 0x1600 0x1800 (by decide) (by omega) (fun h => by
    simp [LaidOut, Field.within, Field.lsbIn, ADC_LAST_VALUE, ADC_LAST_FLAGS, ADC_SEQ_TAG, ADC_SEQ_SLOT,
      ADC_SEQ_AVG, ADC_SEQ_DIV, ADC_SEQ_HOST, ADC_SEQ_EN]; omega) ?_
  exact .nil

theorem inChapter09 (a : Nat) : InChapter 9 a (fieldsAt09 a) := by
  unfold fieldsAt09
  refine .word (by decide) ?_
  iterate 3 refine .twoWords (by decide) ?_
  iterate 10 refine .word (by decide) ?_
  refine .twoWords (by decide) ?_
  iterate 5 refine .word (by decide) ?_
  exact .nil

theorem inChapter10 (a : Nat) : InChapter 10 a (fieldsAt10 a) := by
  unfold fieldsAt10
  iterate 3 refine .word (by decide) ?_
  refine .array 0x1910 0x1930 (by decide) (by omega) (fun h => by
    simp [LaidOut, Field.within, Field.lsbIn, HOST_SEQ_N]; omega) ?_
  iterate 10 refine .word (by decide) ?_
  iterate 4 refine .array 0x1A00 0x1E00 (by decide) (by omega) (fun h => by
    simp [LaidOut, Field.within, Field.lsbIn, FLT_HIST_WORD, FLT_HIST_FRN, FLT_HIST_SC, FLT_HIST_MERGES,
      FLT_HIST_REACT, FLT_HIST_ESC, FLT_HIST_OPEN, FLT_HIST_JRN, FLT_HIST_BASE]; omega) ?_
  exact .nil

theorem inChapter11 (a : Nat) : InChapter 11 a (fieldsAt11 a) := by
  unfold fieldsAt11
  iterate 2 refine .word (by decide) ?_
  iterate 2 refine .twoWords (by decide) ?_
  iterate 5 refine .word (by decide) ?_
  exact .nil

theorem inChapter12 (a : Nat) : InChapter 12 a (fieldsAt12 a) := by
  unfold fieldsAt12
  iterate 10 refine .word (by decide) ?_
  exact .nil

theorem inChapter13 (a : Nat) : InChapter 13 a (fieldsAt13 a) := by
  unfold fieldsAt13
  iterate 2 refine .word (by decide) ?_
  refine .twoWords (by decide) ?_
  iterate 8 refine .word (by decide) ?_
  refine .twoWords (by decide) ?_
  iterate 6 refine .word (by decide) ?_
  iterate 2 refine .array 0x0140 0x0200 (by decide) (by omega) (fun h => by
    simp [LaidOut, Field.within, Field.lsbIn, MBX_CMD_COMMAND, MBX_RES_RESULT]; omega) ?_
  iterate 3 refine .word (by decide) ?_
  refine .array 0x2010 0x2020 (by decide) (by omega) (fun h => by
    simp [LaidOut, Field.within, Field.lsbIn, DRN_REQ_BLOCK]; omega) ?_
  iterate 2 refine .word (by decide) ?_
  refine .twoWords (by decide) ?_
  iterate 2 refine .word (by decide) ?_
  refine .twoWords (by decide) ?_
  refine .word (by decide) ?_
  exact .nil

theorem inChapter14 (a : Nat) : InChapter 14 a (fieldsAt14 a) := by
  unfold fieldsAt14
  iterate 3 refine .word (by decide) ?_
  refine .array 0x104C 0x106C (by decide) (by omega) (fun h => by
    simp [LaidOut, Field.within, Field.lsbIn, CFG_DIGEST_DIGEST]; omega) ?_
  iterate 3 refine .word (by decide) ?_
  exact .nil

theorem inChapter15 (a : Nat) : InChapter 15 a (fieldsAt15 a) := by
  unfold fieldsAt15
  iterate 13 refine .word (by decide) ?_
  exact .nil

theorem inChapter16 (a : Nat) : InChapter 16 a (fieldsAt16 a) := by
  unfold fieldsAt16
  iterate 5 refine .word (by decide) ?_
  refine .array 0x10C0 0x10E4 (by decide) (by omega) (fun h => by
    simp [LaidOut, Field.within, Field.lsbIn, UPD_VER_F_VERSION]; omega) ?_
  iterate 2 refine .word (by decide) ?_
  refine .array 0x0088 0x0094 (by decide) (by omega) (fun h => by
    simp [LaidOut, Field.within, Field.lsbIn, HUPD_VER_H_VERSION]; omega) ?_
  refine .array 0x8000 0x10000 (by decide) (by omega) (fun h => by
    simp [LaidOut, Field.within, Field.lsbIn, UPD_WIN_DATA]; omega) ?_
  exact .nil

theorem inChapter17 (a : Nat) : InChapter 17 a (fieldsAt17 a) := by
  unfold fieldsAt17
  iterate 8 refine .word (by decide) ?_
  exact .nil


/-- The fields of the chapters up to `n`: laid out, and none at the addresses of later chapters. -/
def UpToChapter (n a : Nat) (l : List Field) : Prop := l ≠ [] → (∃ c ≤ n, chapterOf a = some c) ∧ LaidOut a l

theorem UpToChapter.append {n a : Nat} {l l' : List Field} (h : UpToChapter n a l) (h' : InChapter (n + 1) a l') :
    UpToChapter (n + 1) a (l ++ l') := by
  intro hne
  by_cases hl : l = []
  · subst hl
    obtain ⟨hc, hlaid⟩ := h' hne
    exact ⟨⟨n + 1, Nat.le_refl _, hc⟩, hlaid⟩
  · obtain ⟨⟨c, hcn, hc⟩, hlaid⟩ := h hl
    have hl' : l' = [] := by
      by_contra hne'
      have := Option.some.inj (hc.symm.trans (h' hne').1)
      omega
    rw [hl', List.append_nil]
    exact ⟨⟨c, by omega, hc⟩, hlaid⟩

/-- Every word of the register map is laid out. -/
theorem fieldsAt_laidOut (a : Nat) : LaidOut a (fieldsAt a) := by
  have h02 : UpToChapter 2 a (fieldsAt02 a) := fun hne => ⟨⟨2, by omega, (inChapter02 a hne).1⟩, (inChapter02 a hne).2⟩
  have h : UpToChapter 17 a (fieldsAt a) :=
    h02.append (inChapter03 a) |>.append (inChapter04 a) |>.append (inChapter05 a) |>.append (inChapter06 a)
      |>.append (inChapter07 a) |>.append (inChapter08 a) |>.append (inChapter09 a) |>.append (inChapter10 a)
      |>.append (inChapter11 a) |>.append (inChapter12 a) |>.append (inChapter13 a) |>.append (inChapter14 a)
      |>.append (inChapter15 a) |>.append (inChapter16 a) |>.append (inChapter17 a)
  by_cases hne : fieldsAt a = []
  · simp [hne, LaidOut]
  · exact (h hne).2

variable {a i : Nat} {f g : Field}

/-- A word shows one field of more than 32 bits, or fields that it holds whole. -/
theorem fieldsAt_cases (a : Nat) :
    (∃ f, fieldsAt a = [f] ∧ f.spans a) ∨ ∀ f ∈ fieldsAt a, f.within a := by
  obtain ⟨hplace, -, -⟩ := fieldsAt_laidOut a
  by_cases h : ∃ f ∈ fieldsAt a, f.spans a ∧ fieldsAt a = [f]
  · obtain ⟨f, -, hspans, hl⟩ := h
    exact .inl ⟨f, hl, hspans⟩
  · exact .inr fun f hf => (hplace f hf).resolve_right fun hs => h ⟨f, hf, hs⟩

theorem within_of_acc_ne_ro (hf : f ∈ fieldsAt a) (hacc : f.acc ≠ .ro) : f.within a :=
  ((fieldsAt_laidOut a).1 f hf).resolve_right fun ⟨⟨_, _, hro, _⟩, _⟩ => hacc hro

/-- A field of at most 32 bits has only fields that the word holds whole beside it. -/
theorem within_of_width_le (hf : f ∈ fieldsAt a) (hw : f.width ≤ 32) : ∀ g ∈ fieldsAt a, g.within a := by
  obtain ⟨g, hl, -, hwide, -⟩ | h := fieldsAt_cases a
  · rw [hl, List.mem_singleton] at hf
    subst hf
    omega
  · exact h

theorem fieldsAt_disjoint (hf : f ∈ fieldsAt a) (hg : g ∈ fieldsAt a) (hne : f ≠ g) :
    f.lsbIn a + f.width ≤ g.lsbIn a ∨ g.lsbIn a + g.width ≤ f.lsbIn a := by
  obtain ⟨-, hrise, -⟩ := fieldsAt_laidOut a
  have : Std.Symm fun f g : Field => f.lsbIn a + f.width ≤ g.lsbIn a ∨ g.lsbIn a + g.width ≤ f.lsbIn a :=
    ⟨fun _ _ => Or.symm⟩
  have hpair : (fieldsAt a).Pairwise fun f g => f.lsbIn a + f.width ≤ g.lsbIn a ∨ g.lsbIn a + g.width ≤ f.lsbIn a :=
    hrise.imp Or.inl
  exact hpair.forall hf hg hne

/-- A field's key gives its address and its least bit, and it shows in words near its address only. -/
theorem fieldsAt_place (hf : f ∈ fieldsAt a) : f.lsb < 32 ∧ 0 < f.width ∧ a ≤ f.addr + 4 ∧ f.addr < a + 4 := by
  obtain ⟨hlsb, hwidth, haddr, hend⟩ | ⟨⟨hlsb, hwidth, -, haddr⟩, -⟩ := (fieldsAt_laidOut a).1 f hf
  · rw [Field.lsbIn] at hend
    omega
  · omega

theorem key_ne_of_ne (hf : f ∈ fieldsAt a) (hg : g ∈ fieldsAt a) (hne : f ≠ g) : f.key ≠ g.key := by
  intro hkey
  obtain ⟨hf1, hf2, -⟩ := fieldsAt_place hf
  obtain ⟨hg1, hg2, -⟩ := fieldsAt_place hg
  have hdis := fieldsAt_disjoint hf hg hne
  simp only [Field.key] at hkey
  simp only [Field.lsbIn] at hdis
  have haddr : f.addr = g.addr := by omega
  rw [haddr] at hdis
  omega

theorem fieldsAt_nodup (a : Nat) : (fieldsAt a).Nodup := by
  obtain ⟨-, hrise, -⟩ := fieldsAt_laidOut a
  refine hrise.imp_of_mem fun hf _ hle hfg => ?_
  obtain ⟨-, hwidth, -⟩ := fieldsAt_place hf
  subst hfg
  omega

/-- The read-only fields that writing or clearing a word consults or moves: the mode (R9), what the extremes of R419
are taken from, the status pads (R165) and `DOUBLE` (R330). -/
def consulted : List Field :=
  [FRM_STATUS_FRZ, RAIL_MON_C_PAIR, STAT_LATCH_PADS, FLT_STATUS_DOUBLE, MODE_STATUS_MODE]

theorem consulted_ro : ∀ r ∈ consulted, r.lsb < 32 ∧ 4 ≤ r.addr ∧
    ∀ d < 8, ∀ f ∈ fieldsAt (r.addr - 3 + d), f.key = r.key → f.acc = .ro := by
  decide +kernel

/-- No field that can be written or cleared shares the key of a consulted one. -/
theorem consulted_key_ne {r : Field} (hr : r ∈ consulted) (hf : f ∈ fieldsAt a) (hacc : f.acc ≠ .ro) :
    r.key ≠ f.key := by
  intro hkey
  obtain ⟨hlsb, hlow, hro⟩ := consulted_ro r hr
  obtain ⟨hlsb', -, hfar, hnear⟩ := fieldsAt_place hf
  have haddr : r.addr = f.addr := by simp only [Field.key] at hkey; omega
  have ha : r.addr - 3 + (a - (r.addr - 3)) = a := by omega
  exact hacc (hro (a - (r.addr - 3)) (by omega) f (ha.symm ▸ hf) hkey.symm)

end Reg

/-! ### Folds over a word's fields -/

/-- A fold over a word treats `f` once: what the other steps keep until then (`I`) is what its step starts from, and
what its step reaches (`Q`) is kept by the others. -/
theorem foldl_once {l : List Field} {f : Field} (hl : l.Nodup) (hf : f ∈ l) {op : Hw → Field → Hw} {I Q : Hw → Prop}
    (hpre : ∀ g ∈ l, g ≠ f → ∀ m, I m → I (op m g)) (hat : ∀ m, I m → Q (op m f))
    (hpost : ∀ g ∈ l, g ≠ f → ∀ m, Q m → Q (op m g)) (m : Hw) (hm : I m) : Q (l.foldl op m) := by
  induction l generalizing m with
  | nil => cases hf
  | cons g gs ih =>
    obtain ⟨hg, hgs⟩ := List.nodup_cons.1 hl
    rw [List.foldl_cons]
    by_cases hgf : g = f
    · subst hgf
      refine List.foldlRecOn gs op (hat m hm) fun m hm x hx => ?_
      exact hpost x (List.mem_cons_of_mem _ hx) (fun h => hg (h ▸ hx)) m hm
    · exact ih hgs ((List.mem_cons.1 hf).resolve_left (Ne.symm hgf))
        (fun x hx => hpre x (List.mem_cons_of_mem _ hx)) (fun x hx => hpost x (List.mem_cons_of_mem _ hx))
        (op m g) (hpre g List.mem_cons_self hgf m hm)

/-- `m'` is `m` but for register fields, and reads the fields `fs` as `m` does. -/
def Hw.Agrees (m m' : Hw) (fs : List Field) : Prop := m' = { m with regs := m'.regs } ∧ ∀ f ∈ fs, m'.rd f = m.rd f

theorem Hw.Agrees.refl (m : Hw) (fs : List Field) : m.Agrees m fs := ⟨rfl, fun _ _ => rfl⟩

theorem Hw.Agrees.wr {m m' : Hw} {fs : List Field} {g : Field} (h : m.Agrees m' fs) (hkey : ∀ f ∈ fs, f.key ≠ g.key)
    (v : Nat) : m.Agrees (m'.wr g v) fs := by
  obtain ⟨honly, hrd⟩ := h
  refine ⟨?_, fun f hf => (Hw.rd_wr_ne (hkey f hf) v).trans (hrd f hf)⟩
  rw [honly]
  rfl

/-! ### Masked writes (R9) -/

section
variable {a mask value i : Nat} {f g : Field} {m m' : Hw}

theorem writable_of_inService_eq (h : m'.inService = m.inService) (f : Field) : m'.writable f = m.writable f := by
  simp only [Hw.writable, h]

theorem Hw.Agrees.inService_eq {fs : List Field} (h : m.Agrees m' (Reg.MODE_STATUS_MODE :: fs)) :
    m'.inService = m.inService := by
  simp only [Hw.inService, Hw.mode, h.2 _ List.mem_cons_self]

theorem acc_ne_ro_of_writable (h : m.writable f = true) : f.acc ≠ .ro := by
  intro hacc
  simp [Hw.writable, hacc] at h

/-- What a masked write puts into a field that takes it (R9). -/
def Hw.taken (m : Hw) (a mask value : Nat) (f : Field) : Nat :=
  let fm := bitsOf mask (f.lsbIn a) f.width
  let fv := bitsOf value (f.lsbIn a) f.width &&& fm
  if f.acc = .w1c then m.rd f - (m.rd f &&& fv) else inRange f (m.rd f - (m.rd f &&& fm) + fv)

theorem writeField_eq (m : Hw) (a mask value : Nat) (f : Field) :
    m.writeField a mask value f =
      if bitsOf mask (f.lsbIn a) f.width = 0 ∨ ¬m.writable f ∨ selfClearing.contains f then m
      else m.wr f (m.taken a mask value f) := by
  simp only [Hw.writeField, Hw.taken]
  split
  · rfl
  · split <;> rfl

theorem writeField_of_not_writable (h : m.writable f = false) : m.writeField a mask value f = m := by
  rw [writeField_eq, if_pos (.inr (.inl (by simp [h])))]

theorem writeField_of_taken (hmask : bitsOf mask (f.lsbIn a) f.width ≠ 0) (hw : m.writable f = true)
    (hself : selfClearing.contains f = false) : m.writeField a mask value f = m.wr f (m.taken a mask value f) := by
  rw [writeField_eq, if_neg]
  rintro (h | h | h)
  · exact hmask h
  · exact h hw
  · exact Bool.false_ne_true (hself ▸ h)

theorem writeField_rd_ne (h : g.key ≠ f.key) : (m.writeField a mask value f).rd g = m.rd g := by
  rw [writeField_eq]
  split
  · rfl
  · exact Hw.rd_wr_ne h _

/-- What a masked write makes of a field follows from the field and from SERVICE. -/
theorem writeField_rd_congr (hrd : m'.rd f = m.rd f) (hservice : m'.inService = m.inService) :
    (m'.writeField a mask value f).rd f = (m.writeField a mask value f).rd f := by
  have htaken : m'.taken a mask value f = m.taken a mask value f := by simp only [Hw.taken, hrd]
  rw [writeField_eq, writeField_eq, writable_of_inService_eq hservice, htaken]
  split
  · exact hrd
  · rw [Hw.rd_wr_same, Hw.rd_wr_same]

theorem Hw.Agrees.writeField {fs : List Field} (h : m.Agrees m' fs)
    (hkey : m'.writable g = true → ∀ f ∈ fs, f.key ≠ g.key) : m.Agrees (m'.writeField a mask value g) fs := by
  cases hw : m'.writable g
  · rwa [writeField_of_not_writable hw]
  · rw [writeField_eq]
    split
    · exact h
    · exact h.wr (hkey hw) _

/-- In a masked write of a word each field is written as if alone. -/
theorem stored_rd (m : Hw) (mask value : Nat) (hf : f ∈ Reg.fieldsAt a) :
    (m.stored a mask value).rd f = (m.writeField a mask value f).rd f := by
  refine foldl_once (I := fun m' => m.Agrees m' [Reg.MODE_STATUS_MODE, f])
    (Q := fun m' => m'.rd f = (m.writeField a mask value f).rd f) (Reg.fieldsAt_nodup a) hf ?_ ?_ ?_ m (.refl _ _)
  · intro g hg hgf m' hm'
    refine hm'.writeField fun hw x hx => ?_
    obtain rfl | rfl : x = Reg.MODE_STATUS_MODE ∨ x = f := by simpa using hx
    · exact Reg.consulted_key_ne (by decide) hg (acc_ne_ro_of_writable hw)
    · exact Reg.key_ne_of_ne hf hg (Ne.symm hgf)
  · intro m' hm'
    exact writeField_rd_congr (hm'.2 f (by simp)) hm'.inService_eq
  · intro g hg hgf m' hm'
    exact (writeField_rd_ne (Reg.key_ne_of_ne hf hg (Ne.symm hgf))).trans hm'

/-- A writable field that holds any value takes the selected bits. -/
theorem testBit_writeField (hw : m.writable f = true) (hacc : f.acc ≠ .w1c) (hself : selfClearing.contains f = false)
    (hrange : ∀ v, inRange f v = v) (hi : i < f.width) :
    ((m.writeField a mask value f).rd f).testBit i =
      if mask.testBit (f.lsbIn a + i) then value.testBit (f.lsbIn a + i) else (m.rd f).testBit i := by
  by_cases hmask : bitsOf mask (f.lsbIn a) f.width = 0
  · rw [writeField_eq]
    simp [hmask, bitsOf_eq_zero_iff.1 hmask i hi]
  · rw [writeField_of_taken hmask hw hself, Hw.rd_wr_same, Nat.testBit_mod_two_pow, Hw.taken, if_neg hacc, hrange,
      testBit_masked]
    simp [testBit_bitsOf, hi]

/-- A W1C field loses the bits that are written 1. -/
theorem testBit_writeField_w1c (hacc : f.acc = .w1c) (hself : selfClearing.contains f = false) (hi : i < f.width) :
    ((m.writeField a mask value f).rd f).testBit i =
      ((m.rd f).testBit i && !(mask.testBit (f.lsbIn a + i) && value.testBit (f.lsbIn a + i))) := by
  have hw : m.writable f = true := by simp [Hw.writable, hacc]
  by_cases hmask : bitsOf mask (f.lsbIn a) f.width = 0
  · rw [writeField_eq]
    simp [hmask, bitsOf_eq_zero_iff.1 hmask i hi]
  · rw [writeField_of_taken hmask hw hself, Hw.rd_wr_same, Nat.testBit_mod_two_pow, Hw.taken, if_pos hacc,
      testBit_sub_and]
    simp [testBit_bitsOf, hi, Bool.and_comm]

end

/-! ### Reads of a word (R8, R9) -/

section
variable {a i k v : Nat} {f g : Field} {l : List Field}

/-- A field joined to what a read of its word shows so far. -/
def Hw.showField (m : Hw) (a v : Nat) (f : Field) : Nat :=
  if f.acc = .wo then v
  else if f.width > 32 then v + (m.rd f % 2 ^ f.width / (if a = f.addr then 1 else 2 ^ 32)) % 2 ^ 32
  else v + m.rd f % 2 ^ f.width * 2 ^ (f.lsb + 8 * (f.addr - a))

theorem readWord_eq_foldl (m : Hw) (ha : a < 0x1A00 ∨ 0x1E00 ≤ a) :
    m.readWord a = (Reg.fieldsAt a).foldl (m.showField a) 0 := by
  rw [Hw.readWord, if_neg (by omega)]
  rfl

/-- A read of the word at `a` shows 1 at bit `i`, out of the field `f`. -/
def Field.showsAt (f : Field) (m : Hw) (a i : Nat) : Prop :=
  f.acc ≠ .wo ∧ f.lsbIn a ≤ i ∧ i < f.lsbIn a + f.width ∧ (m.rd f).testBit (i - f.lsbIn a) = true

theorem showField_of_within (m : Hw) (v : Nat) (hf : f.within a) :
    m.showField a v f = if f.acc = .wo then v else 2 ^ f.lsbIn a * (m.rd f % 2 ^ f.width) + v := by
  obtain ⟨-, -, -, hend⟩ := hf
  rw [Hw.showField, if_neg (show ¬f.width > 32 by omega), ← Field.lsbIn, Nat.mul_comm, Nat.add_comm v]

/-- A field above what the word shows so far. -/
theorem showField_lt (m : Hw) (hf : f.within a) (hv : v < 2 ^ f.lsbIn a) :
    m.showField a v f < 2 ^ (f.lsbIn a + f.width) := by
  have hlow : 2 ^ f.lsbIn a ≤ 2 ^ (f.lsbIn a + f.width) := Nat.pow_le_pow_right (by omega) (by omega)
  rw [showField_of_within m v hf]
  split
  · omega
  · have hx : m.rd f % 2 ^ f.width + 1 ≤ 2 ^ f.width := Nat.mod_lt _ (Nat.two_pow_pos _)
    calc 2 ^ f.lsbIn a * (m.rd f % 2 ^ f.width) + v
      _ < 2 ^ f.lsbIn a * (m.rd f % 2 ^ f.width + 1) := by rw [Nat.mul_succ]; omega
      _ ≤ 2 ^ f.lsbIn a * 2 ^ f.width := Nat.mul_le_mul_left _ hx
      _ = 2 ^ (f.lsbIn a + f.width) := (Nat.pow_add ..).symm

theorem testBit_showField (m : Hw) (hf : f.within a) (hv : v < 2 ^ f.lsbIn a) (i : Nat) :
    (m.showField a v f).testBit i = true ↔ v.testBit i = true ∨ f.showsAt m a i := by
  have hhigh : f.lsbIn a ≤ i → v.testBit i = false := fun hi =>
    Nat.testBit_lt_two_pow (Nat.lt_of_lt_of_le hv (Nat.pow_le_pow_right (by omega) hi))
  rw [showField_of_within m v hf, Field.showsAt]
  by_cases hwo : f.acc = .wo
  · simp [hwo]
  · rw [if_neg hwo, Nat.testBit_two_pow_mul_add _ hv]
    split
    · next hi => simp [show ¬f.lsbIn a ≤ i by omega]
    · next hi =>
      rw [Nat.testBit_mod_two_pow, hhigh (by omega)]
      simp [hwo, show f.lsbIn a ≤ i by omega, show i - f.lsbIn a < f.width ↔ i < f.lsbIn a + f.width by omega]

/-- Rising fields join without a carry: each bit comes from one of them. -/
theorem testBit_foldl_showField (m : Hw) (hplace : ∀ f ∈ l, f.within a)
    (hrise : l.Pairwise fun f g => f.lsbIn a + f.width ≤ g.lsbIn a) (hv : v < 2 ^ k) (hk : ∀ f ∈ l, k ≤ f.lsbIn a) :
    (l.foldl (m.showField a) v).testBit i = true ↔ v.testBit i = true ∨ ∃ f ∈ l, f.showsAt m a i := by
  induction l generalizing v k with
  | nil => simp
  | cons f fs ih =>
    obtain ⟨hfs, hrise⟩ := List.pairwise_cons.1 hrise
    obtain ⟨hf, hplace⟩ := List.forall_mem_cons.1 hplace
    have hvf : v < 2 ^ f.lsbIn a :=
      Nat.lt_of_lt_of_le hv (Nat.pow_le_pow_right (by omega) (hk f List.mem_cons_self))
    rw [List.foldl_cons, ih hplace hrise (showField_lt m hf hvf) hfs, testBit_showField m hf hvf, or_assoc]
    simp only [List.mem_cons, exists_eq_or_imp]

/-- A word of fields that it holds whole shows each of its bits out of one of them. -/
theorem testBit_readWord (m : Hw) (ha : a < 0x1A00 ∨ 0x1E00 ≤ a) (hplace : ∀ f ∈ Reg.fieldsAt a, f.within a) :
    (m.readWord a).testBit i = true ↔ ∃ f ∈ Reg.fieldsAt a, f.showsAt m a i := by
  obtain ⟨-, hrise, -⟩ := Reg.fieldsAt_laidOut a
  rw [readWord_eq_foldl m ha, testBit_foldl_showField (k := 0) m hplace hrise (by simp) (by simp)]
  simp

/-- A word shows its fields where they lie, and a WO field as 0. -/
theorem testBit_readWord_of_mem (m : Hw) (hf : f ∈ Reg.fieldsAt a) (hw : f.width ≤ 32) (hi : i < f.width)
    (ha : a < 0x1A00 ∨ 0x1E00 ≤ a) :
    (m.readWord a).testBit (f.lsbIn a + i) = if f.acc = .wo then false else (m.rd f).testBit i := by
  rw [Bool.eq_iff_iff, testBit_readWord m ha (Reg.within_of_width_le hf hw)]
  constructor
  · rintro ⟨g, hg, hwo, hlow, hhigh, hbit⟩
    have hgf : f = g := by
      by_contra hne
      have := Reg.fieldsAt_disjoint hf hg hne
      omega
    subst hgf
    simpa [hwo] using hbit
  · intro h
    obtain ⟨hwo, hbit⟩ : f.acc ≠ .wo ∧ (m.rd f).testBit i = true := by simpa using h
    exact ⟨f, hf, hwo, by omega, by omega, by simpa using hbit⟩

theorem bitsOf_readWord (m : Hw) (hf : f ∈ Reg.fieldsAt a) (hw : f.width ≤ 32) (hwo : f.acc ≠ .wo)
    (ha : a < 0x1A00 ∨ 0x1E00 ≤ a) : bitsOf (m.readWord a) (f.lsbIn a) f.width = m.rd f % 2 ^ f.width := by
  refine Nat.eq_of_testBit_eq fun i => ?_
  rw [testBit_bitsOf, Nat.testBit_mod_two_pow]
  by_cases hi : i < f.width
  · rw [testBit_readWord_of_mem m hf hw hi ha, if_neg hwo]
  · simp [hi]

end

/-! ### Reads that clear (R9, R419) -/

section
variable {a seen : Nat} {f g : Field} {m m' : Hw}

/-- What the read of an RC field leaves in it, where `seen` was read (R419). -/
def Hw.leftByRead (m : Hw) (f : Field) (seen : Nat) : Nat :=
  match m.extremum f with
  | some v => satN f.width v
  | none => if rcBits f then m.rd f - (m.rd f &&& seen) else m.rd f - seen

theorem clearRead_of_acc_ne_rc (hacc : f.acc ≠ .rc) : m.clearRead f seen = m := by
  rw [Hw.clearRead, if_pos hacc]

/-- The read of an RC field writes the field, and the status pads follow where it is one of the latch (R165). -/
theorem clearRead_of_rc (hacc : f.acc = .rc) :
    m.clearRead f seen = if f = Reg.STAT_LATCH_EVENTS ∨ f = Reg.STAT_LATCH_FN
      then (m.wr f (m.leftByRead f seen)).statPads else m.wr f (m.leftByRead f seen) := by
  rw [Hw.clearRead, if_neg (not_not.2 hacc), Hw.leftByRead]
  cases m.extremum f with
  | some v => rfl
  | none => cases rcBits f <;> rfl

theorem statPads_rd_ne (h : f.key ≠ Reg.STAT_LATCH_PADS.key) : m.statPads.rd f = m.rd f := Hw.rd_wr_ne h _

theorem settleDouble_rd_ne (h : f.key ≠ Reg.FLT_STATUS_DOUBLE.key) : m.settleDouble.rd f = m.rd f := by
  unfold Hw.settleDouble
  split
  · exact Hw.rd_wr_ne h _
  · rfl

theorem clearRead_rd_ne (h : g.key ≠ f.key) (hpads : g.key ≠ Reg.STAT_LATCH_PADS.key) :
    (m.clearRead f seen).rd g = m.rd g := by
  by_cases hacc : f.acc = .rc
  · rw [clearRead_of_rc hacc]
    split
    · rw [statPads_rd_ne hpads, Hw.rd_wr_ne h]
    · rw [Hw.rd_wr_ne h]
  · rw [clearRead_of_acc_ne_rc hacc]

theorem clearRead_rd_same (hf : f ∈ Reg.fieldsAt a) (hacc : f.acc = .rc) :
    (m.clearRead f seen).rd f = m.leftByRead f seen % 2 ^ f.width := by
  have hpads : f.key ≠ Reg.STAT_LATCH_PADS.key := (Reg.consulted_key_ne (by decide) hf (by simp [hacc])).symm
  rw [clearRead_of_rc hacc]
  split
  · rw [statPads_rd_ne hpads, Hw.rd_wr_same]
  · rw [Hw.rd_wr_same]

theorem Hw.Agrees.clearRead {fs : List Field} (h : m.Agrees m' fs)
    (hkey : g.acc = .rc → ∀ f ∈ fs, f.key ≠ g.key) (hpads : ∀ f ∈ fs, f.key ≠ Reg.STAT_LATCH_PADS.key) :
    m.Agrees (m'.clearRead g seen) fs := by
  by_cases hacc : g.acc = .rc
  · rw [clearRead_of_rc hacc]
    split
    · exact (h.wr (hkey hacc) _).wr hpads _
    · exact h.wr (hkey hacc) _
  · rwa [clearRead_of_acc_ne_rc hacc]

/-- The extremes of R419 are taken from two register fields, and from stores beside the registers. -/
theorem Hw.Agrees.extremum_eq {fs : List Field}
    (h : m.Agrees m' (Reg.RAIL_MON_C_PAIR :: Reg.FRM_STATUS_FRZ :: fs)) (f : Field) : m'.extremum f = m.extremum f := by
  obtain ⟨honly, hrd⟩ := h
  have hmon : m'.rd Reg.RAIL_MON_C_PAIR = m.rd Reg.RAIL_MON_C_PAIR := hrd _ (by simp)
  have hfrz : m'.rd Reg.FRM_STATUS_FRZ = m.rd Reg.FRM_STATUS_FRZ := hrd _ (by simp)
  have hfrzTime : m'.frzTime = m.frzTime := by
    unfold Hw.frzTime Hw.frozen Hw.on Hw.now
    rw [hfrz, honly]
  have hadc : m'.adc = m.adc := by rw [honly]
  have htkt : m'.tkt = m.tkt := by rw [honly]
  simp only [Hw.extremum, hmon, hfrzTime, hadc, htkt]

/-- After its fields are cleared, a live read moves `DOUBLE` alone (R330). -/
theorem liveRead_snd_rd (m : Hw) (a : Nat) (h : f.key ≠ Reg.FLT_STATUS_DOUBLE.key) :
    (m.liveRead a).2.rd f = ((Reg.fieldsAt a).foldl
      (fun m' g => m'.clearRead g (bitsOf (m.readWord a) (g.lsbIn a) g.width)) m).rd f := by
  rw [Hw.liveRead, settleDouble_rd_ne h]
  generalize (Reg.fieldsAt a).foldl _ m = cleared
  split <;> rfl

/-- In a live read of a word each RC field is cleared as if alone. -/
theorem liveRead_rd (m : Hw) (hf : f ∈ Reg.fieldsAt a) (hacc : f.acc = .rc) :
    (m.liveRead a).2.rd f =
      m.leftByRead f (bitsOf (m.readWord a) (f.lsbIn a) f.width) % 2 ^ f.width := by
  have hne : ∀ r ∈ Reg.consulted, f.key ≠ r.key := fun r hr =>
    (Reg.consulted_key_ne hr hf (by simp [hacc])).symm
  have hpads : f.key ≠ Reg.STAT_LATCH_PADS.key := hne _ (by decide)
  rw [liveRead_snd_rd m a (hne _ (by decide))]
  refine foldl_once (I := fun m' => m.Agrees m' [Reg.RAIL_MON_C_PAIR, Reg.FRM_STATUS_FRZ, f])
    (Q := fun m' => m'.rd f = m.leftByRead f (bitsOf (m.readWord a) (f.lsbIn a) f.width) % 2 ^ f.width)
    (Reg.fieldsAt_nodup a) hf ?_ ?_ ?_ m (.refl _ _)
  · intro g hg hgf m' hm'
    refine hm'.clearRead (fun hrc => ?_) ?_
    · have hro : g.acc ≠ .ro := by simp [hrc]
      simpa using ⟨Reg.consulted_key_ne (r := Reg.RAIL_MON_C_PAIR) (by decide) hg hro,
        Reg.consulted_key_ne (r := Reg.FRM_STATUS_FRZ) (by decide) hg hro, Reg.key_ne_of_ne hf hg (Ne.symm hgf)⟩
    · simpa using ⟨by decide, by decide, hpads⟩
  · intro m' hm'
    have hrd : m'.rd f = m.rd f := hm'.2 f (by simp)
    rw [clearRead_rd_same hf hacc, Hw.leftByRead, Hw.leftByRead, hm'.extremum_eq, hrd]
  · intro g hg hgf m' hm'
    exact (clearRead_rd_ne (Reg.key_ne_of_ne hf hg (Ne.symm hgf)) hpads).trans hm'

/-- RC fields stand outside the history, so a read shows what they hold. -/
theorem bitsOf_readWord_of_rc (m : Hw) (hf : f ∈ Reg.fieldsAt a) (hacc : f.acc = .rc) :
    bitsOf (m.readWord a) (f.lsbIn a) f.width = m.rd f % 2 ^ f.width := by
  obtain ⟨-, -, -, hend⟩ := Reg.within_of_acc_ne_ro hf (by simp [hacc])
  obtain ⟨-, -, hhist⟩ := Reg.fieldsAt_laidOut a
  refine bitsOf_readWord m hf (by omega) (by simp [hacc]) ?_
  by_contra ha
  have hro : f.acc = .ro := hhist (by omega) (by omega) f hf
  simp [hacc] at hro

theorem leftByRead_of_extremum_none (hext : m.extremum f = none) :
    m.leftByRead f (m.rd f % 2 ^ f.width) % 2 ^ f.width = 0 := by
  rw [Hw.leftByRead, hext]
  dsimp only
  split
  · refine Nat.eq_of_testBit_eq fun i => ?_
    rw [Nat.testBit_mod_two_pow, testBit_sub_and, Nat.testBit_mod_two_pow, Nat.zero_testBit]
    cases decide (i < f.width) <;> simp
  · exact Nat.sub_mod_eq_zero_of_mod_eq (Nat.mod_mod _ _).symm

theorem leftByRead_of_extremum_some {v : Nat} (hext : m.extremum f = some v) :
    m.leftByRead f seen % 2 ^ f.width = satN f.width v := by
  have hpos : 0 < 2 ^ f.width := Nat.two_pow_pos _
  rw [Hw.leftByRead, hext]
  refine Nat.mod_eq_of_lt ?_
  dsimp only
  unfold satN
  split <;> omega

end

/-! ### The access codes -/

theorem writable_eq_false_of_acc {m : Hw} {f : Field}
    (h : f.acc = .ro ∨ f.acc = .rc ∨ (f.acc = .rws ∧ m.inService = false)) : m.writable f = false := by
  obtain h | h | ⟨h, hs⟩ := h
  · simp [Hw.writable, h]
  · simp [Hw.writable, h]
  · simp [Hw.writable, h, hs]

theorem writable_of_acc {m : Hw} {f : Field}
    (h : f.acc = .rw ∨ f.acc = .wo ∨ (f.acc = .rws ∧ m.inService = true)) :
    m.writable f = true ∧ f.acc ≠ .w1c := by
  obtain h | h | ⟨h, hs⟩ := h
  · simp [Hw.writable, h]
  · simp [Hw.writable, h]
  · simp [Hw.writable, h, hs]

/-- Settles O7: each field of a word is written and cleared as if alone, and a word shows each field at its place. -/
theorem accessCodesGovernRegisters : Obligations.AccessCodesGovernRegisters := by
  simp only [Obligations.AccessCodesGovernRegisters, bitAt_eq_testBit]
  refine ⟨?_, ?_, ?_, ?_, ?_, ?_, ?_⟩
  · intro m a mask value f hf hw
    rw [stored_rd m mask value hf, writeField_of_not_writable hw]
  · intro m a f _ hacc
    exact writable_eq_false_of_acc hacc
  · intro m a mask value i f hf hacc hself hrange hi
    obtain ⟨hw, hw1c⟩ := writable_of_acc hacc
    rw [stored_rd m mask value hf, testBit_writeField hw hw1c hself hrange hi]
  · intro m a mask value i f hf hacc hself hi
    rw [stored_rd m mask value hf, testBit_writeField_w1c hacc hself hi]
  · intro m a i f hf hw hi ha
    exact testBit_readWord_of_mem m hf hw hi ha
  · intro m a f hf hacc hext
    exact ⟨rfl, by rw [liveRead_rd m hf hacc, bitsOf_readWord_of_rc m hf hacc, leftByRead_of_extremum_none hext]⟩
  · intro m a v f hf hacc hext
    exact ⟨rfl, by rw [liveRead_rd m hf hacc, leftByRead_of_extremum_some hext]⟩

/-! ### Reserved bits (R8) -/

section
variable {a mask v w i : Nat} {f : Field} {m : Hw}

theorem covers_of_showsAt (hf : f.within a) (h : f.showsAt m a i) : f.covers a i := by
  obtain ⟨-, -, -, hend⟩ := hf
  obtain ⟨-, hlow, hhigh, -⟩ := h
  rw [Field.covers, if_neg (by omega)]
  exact ⟨hlow, hhigh⟩

theorem testBit_showField_of_spans (m : Hw) (hf : f.spans a) (hi : i < 32) (h : ¬f.covers a i) :
    (m.showField a 0 f).testBit i = false := by
  obtain ⟨-, hwide, hro, haddr⟩ := hf
  rw [Field.covers, if_pos hwide] at h
  have ha : a ≠ f.addr := fun ha => h (by simp [ha, hi])
  rw [if_neg ha] at h
  rw [Hw.showField, if_neg (by simp [hro]), if_pos hwide, if_neg ha, Nat.zero_add, Nat.testBit_mod_two_pow,
    Nat.testBit_div_two_pow, Nat.testBit_mod_two_pow]
  simp [h]

theorem testBit_readWord_of_reserved (m : Hw) (hi : i < 32) (ha : a < 0x1A00 ∨ 0x1E00 ≤ a) (hres : reservedBit a i) :
    (m.readWord a).testBit i = false := by
  obtain ⟨f, hl, hspans⟩ | hplace := Reg.fieldsAt_cases a
  · rw [readWord_eq_foldl m ha, hl]
    exact testBit_showField_of_spans m hspans hi (hres f (by simp [hl]))
  · rw [← Bool.not_eq_true, testBit_readWord m ha hplace]
    rintro ⟨f, hf, hshows⟩
    exact hres f hf (covers_of_showsAt (hplace f hf) hshows)

theorem wordAt_three_lt (e : HistEntry) : e.wordAt 3 < 2 ^ 24 := by
  have hb2n : ∀ b, b2n b ≤ 1 := by decide
  have hesc := hb2n e.esc
  have hopen := hb2n e.isOpen
  have hjrn := hb2n e.jrn
  simp only [HistEntry.wordAt]
  omega

/-- The last word of a history entry has 24 bits (R343). -/
theorem testBit_readWord_history (m : Hw) (hi : 24 ≤ i) (hlo : 0x1A00 ≤ a) (hhi : a < 0x1E00) (hlast : a % 16 = 12) :
    (m.readWord a).testBit i = false := by
  rw [Hw.readWord, if_pos ⟨hlo, hhi⟩, hlast]
  cases m.flt.hist[(a - 0x1A00) / 16]? with
  | none => exact Nat.zero_testBit i
  | some e => exact Nat.testBit_lt_two_pow (Nat.lt_of_lt_of_le (wordAt_three_lt e) (Nat.pow_le_pow_right (by omega) hi))

/-- Two values agree on the bits of the word at `a` that are not reserved. -/
def AgreeAt (a v w : Nat) : Prop := ∀ i, ¬reservedBit a i → bitAt v i = bitAt w i

theorem AgreeAt.testBit_eq (h : AgreeAt a v w) (hf : f ∈ Reg.fieldsAt a) (hw : f.within a) (hlow : f.lsbIn a ≤ i)
    (hhigh : i < f.lsbIn a + f.width) : v.testBit i = w.testBit i := by
  obtain ⟨-, -, -, hend⟩ := hw
  rw [← bitAt_eq_testBit, ← bitAt_eq_testBit]
  refine h i fun hres => hres f hf ?_
  rw [Field.covers, if_neg (by omega)]
  exact ⟨hlow, hhigh⟩

theorem AgreeAt.bitsOf_eq (h : AgreeAt a v w) (hf : f ∈ Reg.fieldsAt a) (hw : f.within a) :
    bitsOf v (f.lsbIn a) f.width = bitsOf w (f.lsbIn a) f.width := by
  refine Nat.eq_of_testBit_eq fun i => ?_
  rw [testBit_bitsOf, testBit_bitsOf]
  by_cases hi : i < f.width
  · rw [h.testBit_eq hf hw (by omega) (by omega)]
  · simp [hi]

theorem AgreeAt.writeField_eq (h : AgreeAt a v w) (hf : f ∈ Reg.fieldsAt a) (m : Hw) :
    m.writeField a mask v f = m.writeField a mask w f := by
  cases hwr : m.writable f
  · rw [writeField_of_not_writable hwr, writeField_of_not_writable hwr]
  · have hw : f.within a := Reg.within_of_acc_ne_ro hf (acc_ne_ro_of_writable hwr)
    rw [Hw.writeField, Hw.writeField, h.bitsOf_eq hf hw]

theorem AgreeAt.stored_eq (h : AgreeAt a v w) (m : Hw) (mask : Nat) : m.stored a mask v = m.stored a mask w :=
  List.foldl_ext _ _ _ fun m _ hf => h.writeField_eq hf m

theorem testBit_foldl_or {l : List Field}
    (h : (l.foldl (fun v f => v ||| ((2 ^ f.width - 1) * 2 ^ f.lsbIn a)) v).testBit i) :
    v.testBit i ∨ ∃ f ∈ l, f.lsbIn a ≤ i ∧ i < f.lsbIn a + f.width := by
  induction l generalizing v with
  | nil => exact .inl h
  | cons f fs ih =>
    obtain h | ⟨g, hg, hin⟩ := ih h
    · rw [Nat.testBit_or, Nat.testBit_mul_two_pow, Nat.testBit_two_pow_sub_one, Bool.or_eq_true, Bool.and_eq_true,
        decide_eq_true_iff, decide_eq_true_iff] at h
      exact h.imp_right fun ⟨hlow, hhigh⟩ => ⟨f, List.mem_cons_self, hlow, by omega⟩
    · exact .inr ⟨g, List.mem_cons_of_mem _ hg, hin⟩

/-- A bit that may be written lies in a writable field. -/
theorem exists_of_testBit_writableMask (h : (m.writableMask a).testBit i) :
    ∃ f ∈ Reg.fieldsAt a, m.writable f = true ∧ f.lsbIn a ≤ i ∧ i < f.lsbIn a + f.width := by
  obtain h | ⟨f, hf, hin⟩ := testBit_foldl_or h
  · simp at h
  · obtain ⟨hf, hw⟩ := List.mem_filter.1 hf
    exact ⟨f, hf, hw, hin⟩

theorem AgreeAt.acting_eq (h : AgreeAt a v w) (m : Hw) (mask : Nat) : m.acting a mask v = m.acting a mask w := by
  refine Nat.eq_of_testBit_eq fun i => ?_
  simp only [Hw.acting, Nat.testBit_and]
  by_cases hi : (m.writableMask a).testBit i
  · obtain ⟨f, hf, hwr, hlow, hhigh⟩ := exists_of_testBit_writableMask hi
    rw [h.testBit_eq hf (Reg.within_of_acc_ne_ro hf (acc_ne_ro_of_writable hwr)) hlow hhigh]
  · simp [hi]

theorem AgreeAt.writeFieldWord_eq (h : AgreeAt a v w) (m : Hw) (mask : Nat) :
    m.writeFieldWord a mask v = m.writeFieldWord a mask w := by
  simp only [Hw.writeFieldWord, h.acting_eq]
  exact congrArg (fun m' => Hw.fieldControl m' a (m.acting a mask w)) (h.stored_eq m mask)

/-- The update window shows one of its bytes in each byte of its words (R507). -/
theorem updWin_mem_fieldsAt (hlo : 0x8000 ≤ a) (hhi : a < 0x10000) (hi : i < 4) :
    Reg.UPD_WIN_DATA (a - 0x8000 + i) ∈ Reg.fieldsAt a := by
  have h16 : Reg.UPD_WIN_DATA (a - 0x8000 + i) ∈ Reg.fieldsAt16 a := by
    unfold Reg.fieldsAt16
    iterate 9 rw [if_neg (by omega)]
    rw [if_pos ⟨hlo, hhi⟩]
    obtain rfl | rfl | rfl | rfl : i = 0 ∨ i = 1 ∨ i = 2 ∨ i = 3 := by omega
    all_goals simp
  simp [Reg.fieldsAt, h16]

theorem AgreeAt.windowByte_eq (h : AgreeAt a v w) (hlo : 0x8000 ≤ a) (hhi : a < 0x10000) (hi : i < 4) :
    bitsOf v (8 * i) 8 = bitsOf w (8 * i) 8 := by
  have hf := updWin_mem_fieldsAt hlo hhi hi
  have hlsb : (Reg.UPD_WIN_DATA (a - 0x8000 + i)).lsbIn a = 8 * i := by
    simp only [Field.lsbIn, Reg.UPD_WIN_DATA]
    omega
  have hbits := h.bitsOf_eq hf (Reg.within_of_acc_ne_ro hf (by simp [Reg.UPD_WIN_DATA]))
  rwa [hlsb] at hbits

theorem fillWindow_beyond (m : Hw) (bs : List Byte) {o : Nat} (ho : 0x8000 ≤ o) : m.fillWindow o bs = m := by
  unfold Hw.fillWindow
  split
  · refine List.foldlRecOn (motive := (· = m)) _ _ rfl fun m' hm' x _ => ?_
    rw [if_neg (by omega), hm']
  · rfl

theorem AgreeAt.writeHostWord_eq (h : AgreeAt a v w) (m : Hw) (mask : Nat) :
    m.writeHostWord a mask v = m.writeHostWord a mask w := by
  unfold Hw.writeHostWord
  split
  · rfl
  split
  · next hlo =>
    refine List.foldl_ext _ _ _ fun m i hi => ?_
    by_cases hhi : a < 0x10000
    · rw [h.windowByte_eq hlo hhi (List.mem_range.1 hi)]
    · rw [fillWindow_beyond m _ (by omega), fillWindow_beyond m _ (by omega)]
  · simp only [h.acting_eq]
    exact congrArg (fun m' => Hw.hostControl m' a (m.acting a mask w) (m.rd Reg.ALERT_EN_EN)) (h.stored_eq m mask)

end

/-- Settles O8: a bit that no field covers reads 0, and neither the fields nor the control bits of a word take it. -/
theorem reservedBitsReadZero : Obligations.ReservedBitsReadZero := by
  refine ⟨?_, ?_, ?_⟩
  · intro m a i hi ha hres
    rw [bitAt_eq_testBit, testBit_readWord_of_reserved m hi ha hres]
  · intro m a i hi hlo hhi hlast
    rw [bitAt_eq_testBit, testBit_readWord_history m hi hlo hhi hlast]
  · intro m a mask v w h
    have hagree : AgreeAt a v w := h
    exact ⟨hagree.writeFieldWord_eq m mask, hagree.writeHostWord_eq m mask⟩

end Sys2Proof.Machine
end

section
/-! PROOFS. The frame count through every operation of the model, and statement O6. -/

namespace Sys2Proof.Machine

/-! ### The frame count (R44) -/

/-- FRN and `FRM_WRAP`, the frame count of R44. -/
def Hw.frameCount (m : Hw) : Nat × Nat := (m.rd Reg.FRM_FRN_FRN, m.rd Reg.FRM_WRAP_WRAP)

/-- The frame count that a store of fields holds. -/
def Regs.frameCount (rs : Regs) : Nat × Nat :=
  (getKey Reg.FRM_FRN_FRN.key Reg.FRM_FRN_FRN.reset rs, getKey Reg.FRM_WRAP_WRAP.key Reg.FRM_WRAP_WRAP.reset rs)

/-- Whether a field is part of the frame count. -/
def Field.counts (f : Field) : Bool := f.key == Reg.FRM_FRN_FRN.key || f.key == Reg.FRM_WRAP_WRAP.key

@[simp] theorem Regs.frameCount_regs (m : Hw) : Regs.frameCount m.regs = m.frameCount := (rfl)

/-- A new state takes its frame count from its registers, whatever its other parts are. -/
@[simp] theorem Hw.frameCount_mk (regs arch seq intake xfer ph bat chg rails rl cable flt host modes adc jrn tkt twin hp
    bus wdg hwdg bist upd lb sub freeCtr) :
    (Hw.mk regs arch seq intake xfer ph bat chg rails rl cable flt host modes adc jrn tkt twin hp bus wdg hwdg bist upd
      lb sub freeCtr).frameCount = Regs.frameCount regs := (rfl)

@[simp] theorem Hw.frameCount_ite (c : Prop) [Decidable c] (a b : Hw) :
    (if c then a else b).frameCount = if c then a.frameCount else b.frameCount := apply_ite ..

theorem Hw.ite_frameCount {c : Prop} [Decidable c] {a b : Hw} {n : Nat × Nat} (ha : a.frameCount = n)
    (hb : b.frameCount = n) : (if c then a else b).frameCount = n := by
  split
  · exact ha
  · exact hb

theorem Hw.option_getD_frameCount {o : Option Hw} {d m : Hw} (h : ∀ m', o = some m' → m'.frameCount = m.frameCount)
    (hd : d.frameCount = m.frameCount) : (o.getD d).frameCount = m.frameCount := by
  cases o with
  | none => exact hd
  | some m' => exact h m' rfl

theorem Hw.foldl_mem_frameCount {α : Type _} {g : Hw → α → Hw} {l : List α}
    (h : ∀ x ∈ l, ∀ m, (g m x).frameCount = m.frameCount) (m : Hw) : (l.foldl g m).frameCount = m.frameCount := by
  induction l generalizing m with
  | nil => rfl
  | cons x l ih => rw [List.foldl_cons, ih fun y hy => h y (List.mem_cons_of_mem _ hy), h x List.mem_cons_self]

@[simp] theorem Hw.foldl_frameCount {α : Type _} {g : Hw → α → Hw} (h : ∀ m x, (g m x).frameCount = m.frameCount)
    (l : List α) (m : Hw) : (l.foldl g m).frameCount = m.frameCount :=
  Hw.foldl_mem_frameCount (fun x _ m => h m x) m

/-! ### Writes to other fields -/

section
variable {f : Field} (h : f.counts = false) (m : Hw)
include h

@[simp] theorem Hw.wr_frameCount (v : Nat) : (m.wr f v).frameCount = m.frameCount := by
  simp only [Field.counts, Bool.or_eq_false_iff, beq_eq_false_iff_ne] at h
  simp only [Hw.frameCount, Hw.rd_wr_ne (Ne.symm h.1), Hw.rd_wr_ne (Ne.symm h.2)]

@[simp] theorem Hw.wrI_frameCount (v : Int) : (m.wrI f v).frameCount = m.frameCount := Hw.wr_frameCount h ..

@[simp] theorem Hw.wrSat_frameCount (v : Nat) : (m.wrSat f v).frameCount = m.frameCount := Hw.wr_frameCount h ..

@[simp] theorem Hw.wrB_frameCount (v : Bool) : (m.wrB f v).frameCount = m.frameCount := Hw.wr_frameCount h ..

@[simp] theorem Hw.add_frameCount (v : Nat) : (m.add f v).frameCount = m.frameCount := Hw.wr_frameCount h ..

@[simp] theorem Hw.bump_frameCount : (m.bump f).frameCount = m.frameCount := Hw.wr_frameCount h ..

@[simp] theorem Hw.wrBit_frameCount (i : Nat) (b : Bool) : (m.wrBit f i b).frameCount = m.frameCount :=
  Hw.wr_frameCount h ..

end

@[simp] theorem Hw.clear_frameCount {fs : List Field} (h : ∀ f ∈ fs, f.counts = false) (m : Hw) :
    (m.clear fs).frameCount = m.frameCount :=
  Hw.foldl_mem_frameCount (fun _ hf m => Hw.wr_frameCount (h _ hf) m _) m

@[simp] theorem Hw.darken_frameCount (m : Hw) (d : Domain) : (m.darken d).frameCount = m.frameCount :=
  Hw.clear_frameCount (by cases d <;> decide) m

/-- The frame count is read only, so no field that may be written is part of it. -/
theorem Reg.counts_of_acc_ne_ro {f : Field} {a : Nat} (hf : f ∈ Reg.fieldsAt a) (hacc : f.acc ≠ .ro) :
    f.counts = false := by
  obtain ⟨hlsb, -, hfar, hnear⟩ := Reg.fieldsAt_place hf
  have hro : ∀ d < 16, ∀ g ∈ Reg.fieldsAt (0x1100 + d), g.counts = true → g.acc = .ro := by decide +kernel
  refine Bool.eq_false_iff.2 fun hc => hacc ?_
  have haddr : f.addr = 0x1104 ∨ f.addr = 0x1108 := by
    simp only [Field.counts, Field.key, Reg.FRM_FRN_FRN, Reg.FRM_WRAP_WRAP, Bool.or_eq_true, beq_iff_eq] at hc
    omega
  have ha : 0x1100 + (a - 0x1100) = a := by omega
  exact hro (a - 0x1100) (by omega) f (ha.symm ▸ hf) hc

theorem Field.counts_of_addr_gt {f : Field} (h : 0x1108 < f.addr) : f.counts = false := by
  simp only [Field.counts, Field.key, Reg.FRM_FRN_FRN, Reg.FRM_WRAP_WRAP, Bool.or_eq_false_iff, beq_eq_false_iff_ne]
  omega

theorem Field.counts_of_addr_lt {f : Field} (h : f.addr < 0x1104) (hlsb : f.lsb < 32) : f.counts = false := by
  simp only [Field.counts, Field.key, Reg.FRM_FRN_FRN, Reg.FRM_WRAP_WRAP, Bool.or_eq_false_iff, beq_eq_false_iff_ne]
  omega

/-! ### Array fields, all at other addresses -/

@[simp] theorem Reg.FRM_BUD_USED_LAST_counts (i : Nat) : (Reg.FRM_BUD_USED_LAST i).counts = false :=
  Field.counts_of_addr_gt (by simp only [Reg.FRM_BUD_USED_LAST]; omega)

@[simp] theorem Reg.FRM_BUD_OVERRUNS_counts (i : Nat) : (Reg.FRM_BUD_OVERRUNS i).counts = false :=
  Field.counts_of_addr_gt (by simp only [Reg.FRM_BUD_OVERRUNS]; omega)

@[simp] theorem Reg.PH_TRIM_TRIM_counts (i : Nat) : (Reg.PH_TRIM_TRIM i).counts = false :=
  Field.counts_of_addr_gt (by simp only [Reg.PH_TRIM_TRIM]; omega)

@[simp] theorem Reg.PH_TRIM_ENTRY_counts (i : Nat) : (Reg.PH_TRIM_ENTRY i).counts = false :=
  Field.counts_of_addr_gt (by simp only [Reg.PH_TRIM_ENTRY]; omega)

@[simp] theorem Reg.PH_TRIM_AT_LIMIT_counts (i : Nat) : (Reg.PH_TRIM_AT_LIMIT i).counts = false :=
  Field.counts_of_addr_gt (by simp only [Reg.PH_TRIM_AT_LIMIT]; omega)

@[simp] theorem Reg.POL_SET_SET_counts (i : Nat) : (Reg.POL_SET_SET i).counts = false :=
  Field.counts_of_addr_gt (by simp only [Reg.POL_SET_SET]; omega)

@[simp] theorem Reg.QR_SET_SET_counts (i : Nat) : (Reg.QR_SET_SET i).counts = false :=
  Field.counts_of_addr_gt (by simp only [Reg.QR_SET_SET]; omega)

@[simp] theorem Reg.POL_VTAB_ENTRY_LO_counts (i : Nat) : (Reg.POL_VTAB_ENTRY_LO i).counts = false :=
  Field.counts_of_addr_gt (by simp only [Reg.POL_VTAB_ENTRY_LO]; omega)

@[simp] theorem Reg.POL_VTAB_ENTRY_HI_counts (i : Nat) : (Reg.POL_VTAB_ENTRY_HI i).counts = false :=
  Field.counts_of_addr_gt (by simp only [Reg.POL_VTAB_ENTRY_HI]; omega)

@[simp] theorem Reg.CAL_CERT_ID_ID_counts (i : Nat) : (Reg.CAL_CERT_ID_ID i).counts = false :=
  Field.counts_of_addr_gt (by simp only [Reg.CAL_CERT_ID_ID]; omega)

@[simp] theorem Reg.ADC_LAST_VALUE_counts (i : Nat) : (Reg.ADC_LAST_VALUE i).counts = false :=
  Field.counts_of_addr_gt (by simp only [Reg.ADC_LAST_VALUE]; omega)

@[simp] theorem Reg.ADC_LAST_FLAGS_counts (i : Nat) : (Reg.ADC_LAST_FLAGS i).counts = false :=
  Field.counts_of_addr_gt (by simp only [Reg.ADC_LAST_FLAGS]; omega)

@[simp] theorem Reg.HOST_SEQ_N_counts (i : Nat) : (Reg.HOST_SEQ_N i).counts = false :=
  Field.counts_of_addr_gt (by simp only [Reg.HOST_SEQ_N]; omega)

@[simp] theorem Reg.UPD_WIN_DATA_counts (i : Nat) : (Reg.UPD_WIN_DATA i).counts = false :=
  Field.counts_of_addr_gt (by simp only [Reg.UPD_WIN_DATA]; omega)

/-! ### Losses of registers -/

section
variable {k d : Nat} {p : Nat × Nat → Bool}

theorem getKey_filter (h : ∀ v, p (k, v) = true) (rs : Regs) : getKey k d (rs.filter p) = getKey k d rs := by
  induction rs with
  | nil => rfl
  | cons e rs ih =>
    obtain ⟨j, u⟩ := e
    by_cases hj : j = k
    · subst hj
      simp [h u, getKey]
    · by_cases hp : p (j, u) <;> simp [hp, getKey, hj, ih]

theorem getKey_filter_none (h : ∀ v, p (k, v) = false) (rs : Regs) : getKey k d (rs.filter p) = d := by
  induction rs with
  | nil => rfl
  | cons e rs ih =>
    obtain ⟨j, u⟩ := e
    by_cases hj : j = k
    · subst hj
      simp [h u, ih]
    · by_cases hp : p (j, u) <;> simp [hp, getKey, hj, ih]

end

theorem fieldOfKey_frn : fieldOfKey Reg.FRM_FRN_FRN.key = some Reg.FRM_FRN_FRN := by decide

theorem fieldOfKey_wrap : fieldOfKey Reg.FRM_WRAP_WRAP.key = some Reg.FRM_WRAP_WRAP := by decide

section
variable {p : Nat × Nat → Bool} (rs : Regs)

theorem Regs.filter_frameCount (hfrn : ∀ v, p (Reg.FRM_FRN_FRN.key, v) = true)
    (hwrap : ∀ v, p (Reg.FRM_WRAP_WRAP.key, v) = true) : Regs.frameCount (rs.filter p) = Regs.frameCount rs := by
  simp only [Regs.frameCount, getKey_filter hfrn, getKey_filter hwrap]

theorem Regs.filter_frameCount_lost (hfrn : ∀ v, p (Reg.FRM_FRN_FRN.key, v) = false)
    (hwrap : ∀ v, p (Reg.FRM_WRAP_WRAP.key, v) = false) : Regs.frameCount (rs.filter p) = (0, 0) := by
  simp only [Regs.frameCount, getKey_filter_none hfrn, getKey_filter_none hwrap]
  rfl

end

/-! ### What every operation keeps

One lemma per operation of the model, in the model's order: it writes fields outside the frame count, or hands the state
to operations of which this is known. An operation that takes a continuation keeps the frame count when the continuation
does; one that may answer `none` keeps it in the state that it answers. Of the operations, only `advanceFrn` counts, and
only `fieldReset`, `fieldLost` and `loseBackup` can drop FRN with the registers that a letter does not spare (R11). -/

/-! ### Operations: the shared operations -/

@[simp] theorem Hw.resetRegs_frameCount {sd : Side} {l : Letter} (h : sd = .host ∨ Surv.faon.keeps l = true) (m : Hw) :
    (m.resetRegs sd l).frameCount = m.frameCount := by
  refine Regs.filter_frameCount m.regs (fun v => ?_) (fun v => ?_)
  · simp only [fieldOfKey_frn]
    obtain rfl | hl := h
    · rfl
    · cases sd <;> simp [Reg.FRM_FRN_FRN, hl]
  · simp only [fieldOfKey_wrap]
    obtain rfl | hl := h
    · rfl
    · cases sd <;> simp [Reg.FRM_WRAP_WRAP, hl]

@[simp] theorem Hw.setEngine_frameCount (m : Hw) (e : Engine) (x : EngineSt) :
    (m.setEngine e x).frameCount = m.frameCount := by
  simp [Hw.setEngine]

@[simp] theorem Hw.setDomain_frameCount (m : Hw) (d : Domain) (x : DomainSt) :
    (m.setDomain d x).frameCount = m.frameCount := by
  simp [Hw.setDomain]

@[simp] theorem Hw.powerDomain_frameCount (m : Hw) (d : Domain) (b : Bool) :
    (m.powerDomain d b).frameCount = m.frameCount := by
  simp [Hw.powerDomain]

@[simp] theorem Hw.stampW_frameCount (m : Hw) (x : Stamp) (w : FaultWord) :
    (m.stampW x w).frameCount = m.frameCount := by
  simp +decide [Hw.stampW]

@[simp] theorem Hw.faultW_frameCount (m : Hw) (w : FaultWord) : (m.faultW w).frameCount = m.frameCount := by
  simp [Hw.faultW]

@[simp] theorem Hw.fault_frameCount (m : Hw) (k : FaultKind) (detail : Nat) :
    (m.fault k detail).frameCount = m.frameCount := by
  simp [Hw.fault]

@[simp] theorem Hw.faultAt_frameCount (m : Hw) (k : FaultKind) (src detail : Nat) :
    (m.faultAt k src detail).frameCount = m.frameCount := by
  simp [Hw.faultAt]

@[simp] theorem Hw.haltCode_frameCount (m : Hw) (c : HCode) : (m.haltCode c).frameCount = m.frameCount := by
  simp [Hw.haltCode]

@[simp] theorem Hw.haltOnce_frameCount (m : Hw) (c : HCode) : (m.haltOnce c).frameCount = m.frameCount := by
  simp [Hw.haltOnce]

@[simp] theorem Hw.faltCode_frameCount (m : Hw) (c : FCode) : (m.faltCode c).frameCount = m.frameCount := by
  simp [Hw.faltCode]

@[simp] theorem Hw.takeHCode_frameCount (m : Hw) (c : HCode) : (m.takeHCode c).frameCount = m.frameCount := by
  simp [Hw.takeHCode]

@[simp] theorem Hw.takeFCode_frameCount (m : Hw) (c : FCode) : (m.takeFCode c).frameCount = m.frameCount := by
  simp [Hw.takeFCode]

@[simp] theorem Hw.onHCode_frameCount (m : Hw) (c : HCode) (f : Hw → Hw) (hf : ∀ m, (f m).frameCount = m.frameCount) :
    (m.onHCode c f).frameCount = m.frameCount := by
  unfold Hw.onHCode
  split <;> simp [hf]

@[simp] theorem Hw.onFCode_frameCount (m : Hw) (c : FCode) (f : Hw → Hw) (hf : ∀ m, (f m).frameCount = m.frameCount) :
    (m.onFCode c f).frameCount = m.frameCount := by
  unfold Hw.onFCode
  split <;> simp [hf]

@[simp] theorem Hw.alertSet_frameCount (m : Hw) (b : Nat) : (m.alertSet b).frameCount = m.frameCount := by
  simp +decide [Hw.alertSet]

@[simp] theorem Hw.alertSettle_frameCount (m : Hw) : m.alertSettle.frameCount = m.frameCount := by simp [Hw.alertSettle]

@[simp] theorem Hw.probHeard_frameCount (m : Hw) (w : FaultWord) : (m.probHeard w).frameCount = m.frameCount := by
  unfold Hw.probHeard
  extract_lets cause
  split
  · exact Hw.ite_frameCount rfl rfl
  · rfl

@[simp] theorem Hw.hfaultW_frameCount (m : Hw) (w : FaultWord) : (m.hfaultW w).frameCount = m.frameCount := by
  simp [Hw.hfaultW]

@[simp] theorem Hw.hfault_frameCount (m : Hw) (k : FaultKind) (detail : Nat) :
    (m.hfault k detail).frameCount = m.frameCount := by
  simp [Hw.hfault]

@[simp] theorem Hw.hfaultAt_frameCount (m : Hw) (k : FaultKind) (src detail : Nat) :
    (m.hfaultAt k src detail).frameCount = m.frameCount := by
  simp [Hw.hfaultAt]

@[simp] theorem Hw.showTickets_frameCount (m : Hw) : m.showTickets.frameCount = m.frameCount := by
  simp +decide [Hw.showTickets]

theorem Hw.issue_frameCount {m : Hw} {stream owner chan unit : Nat} {dur idem crit : Bool} {r : Hw × Nat}
    (h : m.issue stream owner chan unit dur idem crit = some r) : r.1.frameCount = m.frameCount := by
  unfold Hw.issue at h
  split at h
  · obtain rfl := Option.some.inj h
    simp
  · cases h

@[simp] theorem Hw.setTicket_frameCount (m : Hw) (n : Nat) (f : Ticket → Ticket) :
    (m.setTicket n f).frameCount = m.frameCount := by
  simp [Hw.setTicket]

@[simp] theorem Hw.issueAppends_frameCount (m : Hw) (fuel : Nat) : (m.issueAppends fuel).frameCount = m.frameCount := by
  induction fuel generalizing m with
  | zero => exact m.showTickets_frameCount
  | succ fuel ih =>
    unfold Hw.issueAppends
    split
    · simp
    · split
      · simp
      · next h => exact (ih _).trans (Hw.issue_frameCount h :)

@[simp] theorem Hw.submitRec_frameCount (m : Hw) (r : JRec) : (m.submitRec r).frameCount = m.frameCount := by
  simp [Hw.submitRec]

@[simp] theorem Hw.record_frameCount (m : Hw) (k : RecKind) (src : Nat) (payload : List Byte) :
    (m.record k src payload).frameCount = m.frameCount := by
  simp [Hw.record]

theorem Hw.issueWork_frameCount {m m' : Hw} {w : IssueWait} (h : m.issueWork w = some m') :
    m'.frameCount = m.frameCount := by
  unfold Hw.issueWork at h
  split at h
  · cases h
  · split at h
    · cases h
    · next hi =>
      obtain rfl := Option.some.inj h
      have hm := Hw.issue_frameCount hi
      simpa using hm

@[simp] theorem Hw.issueFor_frameCount (m : Hw) (w : IssueWait) : (m.issueFor w).frameCount = m.frameCount := by
  unfold Hw.issueFor
  split
  · rfl
  · split
    · simp
    · split
      · next h => exact Hw.issueWork_frameCount h
      · simp

@[simp] theorem Hw.serveWaits_frameCount (m : Hw) (fuel : Nat) : (m.serveWaits fuel).frameCount = m.frameCount := by
  induction fuel generalizing m with
  | zero => exact m.showTickets_frameCount
  | succ fuel ih =>
    unfold Hw.serveWaits
    split
    · simp
    · split
      · simp
      · next h => exact (ih _).trans (Hw.issueWork_frameCount h :)

@[simp] theorem Hw.dropTicket_frameCount (m : Hw) (n : Nat) : (m.dropTicket n).frameCount = m.frameCount := by
  simp [Hw.dropTicket]

@[simp] theorem Hw.admitF_frameCount (m : Hw) (fuel : Nat) : (m.admitF fuel).frameCount = m.frameCount := by
  induction fuel generalizing m with
  | zero => rfl
  | succ fuel ih =>
    unfold Hw.admitF
    split
    · split
      · rfl
      · next h => exact (ih _).trans ((Hw.setTicket_frameCount ..).trans (Hw.issue_frameCount h :))
    · rfl

@[simp] theorem Hw.sendF_frameCount (m : Hw) (type : Nat) (payload : List Byte) :
    (m.sendF type payload).frameCount = m.frameCount := by
  simp [Hw.sendF]

@[simp] theorem Hw.noteSeqs_frameCount (m : Hw) : m.noteSeqs.frameCount = m.frameCount := by simp [Hw.noteSeqs]

@[simp] theorem Hw.sendH_frameCount (m : Hw) (type stream : Nat) (payload : List Byte) :
    (m.sendH type stream payload).frameCount = m.frameCount := by
  simp [Hw.sendH]

@[simp] theorem Hw.recordH_frameCount (m : Hw) (k : RecKind) (src : Nat) (payload : List Byte) :
    (m.recordH k src payload).frameCount = m.frameCount := by
  simp [Hw.recordH]

@[simp] theorem Hw.drew_frameCount (m : Hw) : m.drew.frameCount = m.frameCount := by simp [Hw.drew]

/-! ### Operations: set-point latches -/

@[simp] theorem Hw.setLatchLive_frameCount (m : Hw) (l : LatchId) (v : Nat) :
    (m.setLatchLive l v).frameCount = m.frameCount := by
  unfold Hw.setLatchLive
  split <;> simp +decide

@[simp] theorem Hw.setLatch_frameCount (m : Hw) (l : LatchId) (v : Nat) :
    (m.setLatch l v).frameCount = m.frameCount := by
  simp [Hw.setLatch]

@[simp] theorem Hw.sideFault_frameCount (m : Hw) (side : Side) (k : FaultKind) (src detail : Nat) :
    (m.sideFault side k src detail).frameCount = m.frameCount := by
  unfold Hw.sideFault
  split <;> simp

@[simp] theorem Hw.storeLatch_frameCount (m : Hw) (l : LatchId) (v : Nat) :
    (m.storeLatch l v).frameCount = m.frameCount := by
  unfold Hw.storeLatch
  split <;> simp

@[simp] theorem Hw.putLatch_frameCount (m : Hw) (l : LatchId) (v : Nat) :
    (m.putLatch l v).frameCount = m.frameCount := by
  simp [Hw.putLatch]

@[simp] theorem Hw.ownLatch_frameCount (m : Hw) (l : LatchId) (v : Nat) :
    (m.ownLatch l v).frameCount = m.frameCount := by
  simp [Hw.ownLatch]

/-! ### Operations: edges of freeze, of the mode and of a source -/

@[simp] theorem Hw.batfet_frameCount (m : Hw) : m.batfet.frameCount = m.frameCount := by simp +decide [Hw.batfet]

@[simp] theorem Hw.entryDone_frameCount (m : Hw) : m.entryDone.frameCount = m.frameCount := by
  unfold Hw.entryDone
  split <;> simp +decide

@[simp] theorem Hw.atT_frameCount (m : Hw) (t : Nat) : (m.atT t).frameCount = m.frameCount := by simp [Hw.atT]

@[simp] theorem Hw.clearChgEn_frameCount (m : Hw) : m.clearChgEn.frameCount = m.frameCount := by
  simp +decide [Hw.clearChgEn]

@[simp] theorem Hw.setRail_frameCount (m : Hw) (n : Nat) (r : Rail) : (m.setRail n r).frameCount = m.frameCount := by
  simp [Hw.setRail]

@[simp] theorem Hw.settleRefs_frameCount (m : Hw) : m.settleRefs.frameCount = m.frameCount := by simp [Hw.settleRefs]

@[simp] theorem Hw.newPolicy_frameCount (m : Hw) (f : Hw → Hw) (hf : ∀ m, (f m).frameCount = m.frameCount) :
    (m.newPolicy f).frameCount = m.frameCount := by
  simp [Hw.newPolicy, hf]

@[simp] theorem Hw.resumeRails_frameCount (m : Hw) : m.resumeRails.frameCount = m.frameCount := by simp [Hw.resumeRails]

@[simp] theorem Hw.statPads_frameCount (m : Hw) : m.statPads.frameCount = m.frameCount := by simp +decide [Hw.statPads]

@[simp] theorem Hw.statEvent_frameCount (m : Hw) (i : Nat) : (m.statEvent i).frameCount = m.frameCount := by
  simp +decide [Hw.statEvent]

@[simp] theorem Hw.lamp_frameCount (m : Hw) (b : Bool) : (m.lamp b).frameCount = m.frameCount := by simp [Hw.lamp]

@[simp] theorem Hw.lampSettle_frameCount (m : Hw) : m.lampSettle.frameCount = m.frameCount := by
  unfold Hw.lampSettle
  split <;> simp

@[simp] theorem Hw.rlEvent_frameCount (m : Hw) (code tag detail : Nat) :
    (m.rlEvent code tag detail).frameCount = m.frameCount := by
  simp +decide [Hw.rlEvent]

@[simp] theorem Hw.aptEvent_frameCount (m : Hw) (code detail : Nat) :
    (m.aptEvent code detail).frameCount = m.frameCount := by
  unfold Hw.aptEvent
  split <;> simp

@[simp] theorem Hw.driveQuiet_frameCount (m : Hw) (b : Bool) : (m.driveQuiet b).frameCount = m.frameCount := by
  simp [Hw.driveQuiet]

@[simp] theorem Hw.windDown_frameCount (m : Hw) : m.windDown.frameCount = m.frameCount := by simp +decide [Hw.windDown]

@[simp] theorem Hw.thawEntry_frameCount (m : Hw) (full : Bool) : (m.thawEntry full).frameCount = m.frameCount := by
  simp +decide [Hw.thawEntry]

@[simp] theorem Hw.countFrozen_frameCount (m : Hw) : m.countFrozen.frameCount = m.frameCount := by simp [Hw.countFrozen]

@[simp] theorem Hw.prepare_frameCount (m : Hw) : m.prepare.frameCount = m.frameCount := by simp +decide [Hw.prepare]

@[simp] theorem Hw.raise_frameCount (m : Hw) (sl : Nat) : (m.raise sl).frameCount = m.frameCount := by simp [Hw.raise]

@[simp] theorem Hw.freezeIn_frameCount (m : Hw) : m.freezeIn.frameCount = m.frameCount := by simp +decide [Hw.freezeIn]

@[simp] theorem Hw.freezeStop_frameCount (m : Hw) : m.freezeStop.frameCount = m.frameCount := by
  simp +decide [Hw.freezeStop]

@[simp] theorem Hw.thaw_frameCount (m : Hw) (full : Bool) : (m.thaw full).frameCount = m.frameCount := by
  simp +decide [Hw.thaw]

@[simp] theorem Hw.noApts_frameCount (m : Hw) : m.noApts.frameCount = m.frameCount := by simp +decide [Hw.noApts]

@[simp] theorem Hw.freezeEnd_frameCount (m : Hw) (full : Bool) : (m.freezeEnd full).frameCount = m.frameCount := by
  simp [Hw.freezeEnd]

@[simp] theorem Hw.liftQuiet_frameCount (m : Hw) : m.liftQuiet.frameCount = m.frameCount := by simp [Hw.liftQuiet]

@[simp] theorem Hw.refuse_frameCount (m : Hw) (slot reason frn : Nat) (cut counted : Bool) :
    (m.refuse slot reason frn cut counted).frameCount = m.frameCount := by
  simp +decide [Hw.refuse]

@[simp] theorem Hw.markRun_frameCount (m : Hw) (at_ : Nat) (rest : Bool) :
    (m.markRun at_ rest).frameCount = m.frameCount := by
  simp [Hw.markRun]

@[simp] theorem Hw.cutFreeze_frameCount (m : Hw) (reason : Nat) (full : Bool) :
    (m.cutFreeze reason full).frameCount = m.frameCount := by
  simp [Hw.cutFreeze]

@[simp] theorem Hw.quietLate_frameCount (m : Hw) (late lateRails ns : Nat) :
    (m.quietLate late lateRails ns).frameCount = m.frameCount := by
  simp +decide [Hw.quietLate]

@[simp] theorem Hw.enterFreeze_frameCount (m : Hw) (late lateRails ns : Nat) :
    (m.enterFreeze late lateRails ns).frameCount = m.frameCount := by
  unfold Hw.enterFreeze
  extract_lets m1
  split <;> simp [m1]

@[simp] theorem Hw.setMode_frameCount (m : Hw) (new cause : Nat) : (m.setMode new cause).frameCount = m.frameCount := by
  simp +decide [Hw.setMode]

@[simp] theorem Hw.orderXfer_frameCount (m : Hw) (dir grant : Nat) :
    (m.orderXfer dir grant).frameCount = m.frameCount := by
  simp [Hw.orderXfer]

@[simp] theorem Hw.powerLatch_frameCount (m : Hw) (src : Nat) (k : FaultKind) :
    (m.powerLatch src k).frameCount = m.frameCount := by
  simp [Hw.powerLatch]

@[simp] theorem Hw.hcoreWake_frameCount (m : Hw) : m.hcoreWake.frameCount = m.frameCount := by
  simp +decide [Hw.hcoreWake]

@[simp] theorem Hw.runEngine_frameCount (m : Hw) (e : Engine) : (m.runEngine e).frameCount = m.frameCount := by
  simp [Hw.runEngine]

@[simp] theorem Hw.h2Up_frameCount (m : Hw) : m.h2Up.frameCount = m.frameCount := by simp +decide [Hw.h2Up]

/-! ### Operations: sidebands, privilege and latches -/

@[simp] theorem Hw.askWake_frameCount (m : Hw) : m.askWake.frameCount = m.frameCount := by simp [Hw.askWake]

@[simp] theorem Hw.flushHostFaults_frameCount (m : Hw) : m.flushHostFaults.frameCount = m.frameCount := by
  simp [Hw.flushHostFaults]

@[simp] theorem Hw.hfaultAcked_frameCount (m : Hw) (p : List Byte) : (m.hfaultAcked p).frameCount = m.frameCount := by
  simp [Hw.hfaultAcked]

@[simp] theorem Hw.fenceBit_frameCount (m : Hw) (unit : Nat) : (m.fenceBit unit).frameCount = m.frameCount := by
  simp +decide [Hw.fenceBit]

/-! ### Operations: field phases and the BATFET -/

@[simp] theorem Hw.convert_frameCount (m : Hw) (vtb vsys : Nat) : (m.convert vtb vsys).frameCount = m.frameCount := by
  simp +decide [Hw.convert]

@[simp] theorem Hw.convertNow_frameCount (m : Hw) : m.convertNow.frameCount = m.frameCount := by simp [Hw.convertNow]

@[simp] theorem Hw.setActive_frameCount (m : Hw) (a : Nat) : (m.setActive a).frameCount = m.frameCount := by
  simp +decide [Hw.setActive]

@[simp] theorem Hw.rePick_frameCount (m : Hw) : m.rePick.frameCount = m.frameCount := by simp [Hw.rePick]

@[simp] theorem Hw.dispatch_frameCount (m : Hw) (k : Nat) : (m.dispatch k).frameCount = m.frameCount := by
  unfold Hw.dispatch
  extract_lets act from_
  split
  · exact Hw.ite_frameCount rfl rfl
  · rfl

@[simp] theorem Hw.stopPhases_frameCount (m : Hw) : m.stopPhases.frameCount = m.frameCount := by
  simp +decide [Hw.stopPhases]

@[simp] theorem Hw.softStart_frameCount (m : Hw) (vout : Nat) : (m.softStart vout).frameCount = m.frameCount := by
  simp +decide [Hw.softStart]

@[simp] theorem Hw.ssSettle_frameCount (m : Hw) : m.ssSettle.frameCount = m.frameCount := by
  unfold Hw.ssSettle
  split <;> simp

@[simp] theorem Hw.ssFail_frameCount (m : Hw) (k : FaultKind) : (m.ssFail k).frameCount = m.frameCount := by
  simp +decide [Hw.ssFail]

@[simp] theorem Hw.foldback_frameCount (m : Hw) (set : Nat) : (m.foldback set).frameCount = m.frameCount := by
  simp +decide [Hw.foldback]

@[simp] theorem Hw.phasesFollow_frameCount (m : Hw) (old dir : Nat) :
    (m.phasesFollow old dir).frameCount = m.frameCount := by
  simp +decide [Hw.phasesFollow]

@[simp] theorem Hw.leaveDbs_frameCount (m : Hw) : m.leaveDbs.frameCount = m.frameCount := by simp +decide [Hw.leaveDbs]

@[simp] theorem Hw.phaseTick_frameCount (m : Hw) (f : Frame) : (m.phaseTick f).frameCount = m.frameCount := by
  unfold Hw.phaseTick
  extract_lets m1 m2 m3 _ m4 m5 lim out m6
  have h1 : m1.frameCount = m.frameCount := by simp +decide [m1]
  have h2 : m2.frameCount = m.frameCount := by simp +decide [m2, h1]
  have h3 : m3.frameCount = m.frameCount := by simp +decide [m3, h2]
  have h4 : m4.frameCount = m.frameCount := by simp [m4, h3]
  have h5 : m5.frameCount = m.frameCount := by simp [m5, h4]
  have h6 : m6.frameCount = m.frameCount := by simp [m6, h5]
  clear_value m6
  simp +decide [h6]

@[simp] theorem Hw.pdissTick_frameCount (m : Hw) : m.pdissTick.frameCount = m.frameCount := by simp [Hw.pdissTick]

@[simp] theorem Hw.phClrLatch_frameCount (m : Hw) : m.phClrLatch.frameCount = m.frameCount := by
  simp +decide [Hw.phClrLatch]

/-! ### Operations: intake and isolated transfer -/

@[simp] theorem Hw.setQualified_frameCount (m : Hw) (x : PowerSrc) (b : Bool) :
    (m.setQualified x b).frameCount = m.frameCount := by
  unfold Hw.setQualified
  split <;> simp +decide

@[simp] theorem Hw.sourceRecord_frameCount (m : Hw) (old new mv lim : Nat) :
    (m.sourceRecord old new mv lim).frameCount = m.frameCount := by
  simp [Hw.sourceRecord]

@[simp] theorem Hw.switched_frameCount (m : Hw) (new : Nat) : (m.switched new).frameCount = m.frameCount := by
  simp +decide [Hw.switched]

@[simp] theorem Hw.activate_frameCount (m : Hw) (x : PowerSrc) (mv : Nat) :
    (m.activate x mv).frameCount = m.frameCount := by
  simp [Hw.activate]

@[simp] theorem Hw.take_frameCount (m : Hw) (x : PowerSrc) (mv : Nat) : (m.take x mv).frameCount = m.frameCount := by
  simp [Hw.take]

@[simp] theorem Hw.openActive_frameCount (m : Hw) : m.openActive.frameCount = m.frameCount := by simp [Hw.openActive]

@[simp] theorem Hw.settleSource_frameCount (m : Hw) : m.settleSource.frameCount = m.frameCount := by
  unfold Hw.settleSource
  split
  · rfl
  · split <;> simp

@[simp] theorem Hw.loseActive_frameCount (m : Hw) (x : PowerSrc) (mv mvOther : Nat) :
    (m.loseActive x mv mvOther).frameCount = m.frameCount := by
  simp +decide [Hw.loseActive]

@[simp] theorem Hw.frsClose_frameCount (m : Hw) (vbus : Nat) : (m.frsClose vbus).frameCount = m.frameCount := by
  simp [Hw.frsClose]

@[simp] theorem Hw.limitWrite_frameCount (m : Hw) : m.limitWrite.frameCount = m.frameCount := by
  simp +decide [Hw.limitWrite]

@[simp] theorem Hw.powerSample_frameCount (m : Hw) (vcbuf : Nat) (temp p : Int) :
    (m.powerSample vcbuf temp p).frameCount = m.frameCount := by
  simp +decide [Hw.powerSample]

@[simp] theorem Hw.pdissSample_frameCount (m : Hw) (pdiss : Nat) : (m.pdissSample pdiss).frameCount = m.frameCount := by
  simp +decide [Hw.pdissSample]

@[simp] theorem Hw.drainCbuf_frameCount (m : Hw) (vcbuf : Nat) : (m.drainCbuf vcbuf).frameCount = m.frameCount := by
  unfold Hw.drainCbuf
  split <;> simp

@[simp] theorem Hw.startStage_frameCount (m : Hw) : m.startStage.frameCount = m.frameCount := by
  simp +decide [Hw.startStage]

@[simp] theorem Hw.stageLatchesLost_frameCount (m : Hw) : m.stageLatchesLost.frameCount = m.frameCount := by
  simp [Hw.stageLatchesLost]

@[simp] theorem Hw.stageLatchesUp_frameCount (m : Hw) : m.stageLatchesUp.frameCount = m.frameCount := by
  simp +decide [Hw.stageLatchesUp]

@[simp] theorem Hw.hPwrFollow_frameCount (m : Hw) (vcbuf : Nat) : (m.hPwrFollow vcbuf).frameCount = m.frameCount := by
  simp [Hw.hPwrFollow]

@[simp] theorem Hw.hostBlank_frameCount (m : Hw) : m.hostBlank.frameCount = m.frameCount :=
  Regs.filter_frameCount m.regs (fun _ => by simp [isFieldAddr, Reg.FRM_FRN_FRN, Field.key])
    (fun _ => by simp [isFieldAddr, Reg.FRM_WRAP_WRAP, Field.key])

@[simp] theorem Hw.dbsStart_frameCount (m : Hw) : m.dbsStart.frameCount = m.frameCount := by simp [Hw.dbsStart]

@[simp] theorem Hw.hardStart_frameCount (m : Hw) (x : PowerSrc) (advert : Nat) :
    (m.hardStart x advert).frameCount = m.frameCount := by
  simp [Hw.hardStart]

@[simp] theorem Hw.dirDone_frameCount (m : Hw) (old dir : Nat) : (m.dirDone old dir).frameCount = m.frameCount := by
  simp +decide [Hw.dirDone]

@[simp] theorem Hw.changeDir_frameCount (m : Hw) (dir reached : Nat) :
    (m.changeDir dir reached).frameCount = m.frameCount := by
  simp +decide [Hw.changeDir]

@[simp] theorem Hw.instructDir_frameCount (m : Hw) (dir : Nat) : (m.instructDir dir).frameCount = m.frameCount := by
  simp +decide [Hw.instructDir]

@[simp] theorem Hw.stageTick_frameCount (m : Hw) : m.stageTick.frameCount = m.frameCount := by simp [Hw.stageTick]

@[simp] theorem Hw.xferFail_frameCount (m : Hw) (k : FaultKind) (detail : Nat) :
    (m.xferFail k detail).frameCount = m.frameCount := by
  simp +decide [Hw.xferFail]

@[simp] theorem Hw.xferClrLatch_frameCount (m : Hw) : m.xferClrLatch.frameCount = m.frameCount := by
  simp +decide [Hw.xferClrLatch]

/-! ### Operations: charging -/

@[simp] theorem Hw.chgLatchesNow_frameCount (m : Hw) (st : Nat) : (m.chgLatchesNow st).frameCount = m.frameCount := by
  simp [Hw.chgLatchesNow]

@[simp] theorem Hw.setChgEn_frameCount (m : Hw) : m.setChgEn.frameCount = m.frameCount := by simp [Hw.setChgEn]

@[simp] theorem Hw.chgLatches_frameCount (m : Hw) (st : Nat) : (m.chgLatches st).frameCount = m.frameCount := by
  simp [Hw.chgLatches]

@[simp] theorem Hw.faultN_frameCount (m : Hw) : m.faultN.frameCount = m.frameCount := by simp +decide [Hw.faultN]

@[simp] theorem Hw.statOfState_frameCount (m : Hw) (st : Nat) : (m.statOfState st).frameCount = m.frameCount := by
  simp [Hw.statOfState]

@[simp] theorem Hw.nextRead_frameCount (m : Hw) : m.nextRead.frameCount = m.frameCount := by
  unfold Hw.nextRead
  split <;> simp

@[simp] theorem Hw.packReadDone_frameCount (m : Hw) (lost : Bool) :
    (m.packReadDone lost).frameCount = m.frameCount := by
  simp [Hw.packReadDone]

@[simp] theorem Hw.askPack_frameCount (m : Hw) : m.askPack.frameCount = m.frameCount := by simp [Hw.askPack]

@[simp] theorem Hw.askTick_frameCount (m : Hw) : m.askTick.frameCount = m.frameCount := by simp [Hw.askTick]

@[simp] theorem Hw.packReadsEnd_frameCount (m : Hw) : m.packReadsEnd.frameCount = m.frameCount := by
  simp [Hw.packReadsEnd]

@[simp] theorem Hw.chgTo_frameCount (m : Hw) (st cause : Nat) : (m.chgTo st cause).frameCount = m.frameCount := by
  simp +decide [Hw.chgTo]

@[simp] theorem Hw.resetTimers_frameCount (m : Hw) : m.resetTimers.frameCount = m.frameCount := by
  simp +decide [Hw.resetTimers]

@[simp] theorem Hw.presence_frameCount (m : Hw) (vbat vsys : Nat) :
    (m.presence vbat vsys).frameCount = m.frameCount := by
  simp +decide [Hw.presence]

@[simp] theorem Hw.packFound_frameCount (m : Hw) : m.packFound.frameCount = m.frameCount := by simp [Hw.packFound]

@[simp] theorem Hw.takeProfile_frameCount (m : Hw) (p : Profile) (src band : Nat) :
    (m.takeProfile p src band).frameCount = m.frameCount := by
  simp +decide [Hw.takeProfile]

@[simp] theorem Hw.holdPack_frameCount (m : Hw) (why : Nat) : (m.holdPack why).frameCount = m.frameCount := by
  simp [Hw.holdPack]

@[simp] theorem Hw.declined_frameCount (m : Hw) (r : SbsRead) : (m.declined r).frameCount = m.frameCount := by
  simp [Hw.declined]

@[simp] theorem Hw.enterCharge_frameCount (m : Hw) (vbat : Nat) : (m.enterCharge vbat).frameCount = m.frameCount := by
  unfold Hw.enterCharge
  split <;> simp

@[simp] theorem Hw.tryProfile_frameCount (m : Hw) (p l : Profile) (src band vbat : Nat) (r : Option SbsRead) :
    (m.tryProfile p l src band vbat r).frameCount = m.frameCount := by
  unfold Hw.tryProfile
  split <;> simp +decide

@[simp] theorem Hw.showSbs_frameCount (m : Hw) (r : SbsRead) : (m.showSbs r).frameCount = m.frameCount := by
  simp +decide [Hw.showSbs]

@[simp] theorem Hw.applySbs_frameCount (m : Hw) (r : SbsRead) : (m.applySbs r).frameCount = m.frameCount := by
  refine Hw.ite_frameCount (Hw.ite_frameCount (by simp) (by simp)) (Hw.ite_frameCount ?_ rfl)
  refine Hw.ite_frameCount (by simp) ?_
  split
  · rfl
  · refine Hw.ite_frameCount rfl ?_
    extract_lets m'
    have h' : m'.frameCount = m.frameCount := by simp [m']
    refine Hw.ite_frameCount h' (Hw.ite_frameCount (by simp [h']) ?_)
    exact Hw.ite_frameCount (by simp) (Hw.ite_frameCount (by simp [h']) h')

@[simp] theorem Hw.sbsFailed_frameCount (m : Hw) (err : Nat) : (m.sbsFailed err).frameCount = m.frameCount := by
  simp [Hw.sbsFailed]

theorem Hw.timerFault_frameCount {m m' : Hw} (h : m.timerFault = some m') : m'.frameCount = m.frameCount := by
  unfold Hw.timerFault at h
  split at h
  · obtain rfl := Option.some.inj h
    simp
  · split at h
    · obtain rfl := Option.some.inj h
      simp
    · cases h

@[simp] theorem Hw.setTs_frameCount (m : Hw) (i v : Nat) : (m.setTs i v).frameCount = m.frameCount := by
  simp +decide [Hw.setTs]

@[simp] theorem Hw.removal_frameCount (m : Hw) (detectors : Nat) : (m.removal detectors).frameCount = m.frameCount := by
  unfold Hw.removal
  split
  · rfl
  · refine Hw.ite_frameCount rfl ?_
    extract_lets w _ _ _ m1 m2 m3
    have h1 : m1.frameCount = m.frameCount := by simp +decide [m1, w]
    simp +decide [m3, m2, h1]

@[simp] theorem Hw.detect_frameCount (m : Hw) (t vbat detectors : Nat) :
    (m.detect t vbat detectors).frameCount = m.frameCount := by
  simp [Hw.detect]

@[simp] theorem Hw.clrChgFault_frameCount (m : Hw) : m.clrChgFault.frameCount = m.frameCount := by
  simp +decide [Hw.clrChgFault]

@[simp] theorem Hw.windowTick_frameCount (m : Hw) (ts : List Int) : (m.windowTick ts).frameCount = m.frameCount := by
  unfold Hw.windowTick
  split <;> simp +decide

@[simp] theorem Hw.countConditions_frameCount (m : Hw) (f : Frame) :
    (m.countConditions f).frameCount = m.frameCount := by
  simp [Hw.countConditions]

@[simp] theorem Hw.timerTick_frameCount (m : Hw) (f : Frame) : (m.timerTick f).frameCount = m.frameCount := by
  simp +decide [Hw.timerTick]

@[simp] theorem Hw.chargeEval_frameCount (m : Hw) (temps : List Int) :
    (m.chargeEval temps).frameCount = m.frameCount := by
  simp [Hw.chargeEval]

@[simp] theorem Hw.currentUpdate_frameCount (m : Hw) (f : Frame) : (m.currentUpdate f).frameCount = m.frameCount := by
  simp +decide [Hw.currentUpdate]

@[simp] theorem Hw.presenceTick_frameCount (m : Hw) (f : Frame) : (m.presenceTick f).frameCount = m.frameCount := by
  simp [Hw.presenceTick]

@[simp] theorem Hw.chargeTick_frameCount (m : Hw) (f : Frame) : (m.chargeTick f).frameCount = m.frameCount := by
  unfold Hw.chargeTick
  extract_lets m1 ts c m2 m3 m4 tpack j m5 m6 m7 m8 m9
  have h1 : m1.frameCount = m.frameCount := by simp +decide [m1]
  have h2 : m2.frameCount = m.frameCount := by simp [m2, h1]
  have h3 : m3.frameCount = m.frameCount := by simp [m3, h2]
  have h4 : m4.frameCount = m.frameCount := by simp [m4, h3]
  have h5 : m5.frameCount = m.frameCount := by simp [m5, h4]
  have h6 : m6.frameCount = m.frameCount := by simp [m6, h5]
  have h7 : m7.frameCount = m.frameCount := by simp [m7, h6]
  have h8 : m8.frameCount = m.frameCount := by simp [m8, h7]
  have h9 : m9.frameCount = m.frameCount := by simp [m9, h8]
  clear_value m9
  simp [h9]

/-! ### Operations: instrument rails, rail link and keep-alive rail -/

@[simp] theorem Hw.setRailOn_frameCount (m : Hw) (n : Nat) (b : Bool) :
    (m.setRailOn n b).frameCount = m.frameCount := by
  simp +decide [Hw.setRailOn]

@[simp] theorem Hw.setOverride_frameCount (m : Hw) (n : Nat) (b : Bool) :
    (m.setOverride n b).frameCount = m.frameCount := by
  simp +decide [Hw.setOverride]

@[simp] theorem Hw.setSlewing_frameCount (m : Hw) (n : Nat) (b : Bool) :
    (m.setSlewing n b).frameCount = m.frameCount := by
  simp +decide [Hw.setSlewing]

@[simp] theorem Hw.polStart_frameCount (m : Hw) (n vout : Nat) : (m.polStart n vout).frameCount = m.frameCount := by
  simp +decide [Hw.polStart]

@[simp] theorem Hw.polStop_frameCount (m : Hw) (n : Nat) : (m.polStop n).frameCount = m.frameCount := by
  simp +decide [Hw.polStop]

@[simp] theorem Hw.polFollow_frameCount (m : Hw) (n : Nat) : (m.polFollow n).frameCount = m.frameCount := by
  simp [Hw.polFollow]

@[simp] theorem Hw.railsFollow_frameCount (m : Hw) : m.railsFollow.frameCount = m.frameCount := by simp [Hw.railsFollow]

@[simp] theorem Hw.railRetire_frameCount (m : Hw) (n : Nat) : (m.railRetire n).frameCount = m.frameCount := by
  unfold Hw.railRetire
  split <;> simp

@[simp] theorem Hw.endTag_frameCount (m : Hw) (n code detail : Nat) :
    (m.endTag n code detail).frameCount = m.frameCount := by
  unfold Hw.endTag
  split <;> simp

@[simp] theorem Hw.regOf_frameCount (m : Hw) (n mv : Nat) : (m.regOf n mv).frameCount = m.frameCount := by
  simp +decide [Hw.regOf]

@[simp] theorem Hw.slewTo_frameCount (m : Hw) (n mv slew : Nat) (tag : Option Nat) :
    (m.slewTo n mv slew tag).frameCount = m.frameCount := by
  simp [Hw.slewTo]

@[simp] theorem Hw.retarget_frameCount (m : Hw) (n : Nat) (f : Hw → Hw) (hf : ∀ m, (f m).frameCount = m.frameCount) :
    (m.retarget n f).frameCount = m.frameCount := by
  unfold Hw.retarget
  split <;> simp [hf]

@[simp] theorem Hw.polFail_frameCount (m : Hw) (n : Nat) (k : FaultKind) (detail : Bool → Nat) (short : Bool) :
    (m.polFail n k detail short).frameCount = m.frameCount := by
  simp +decide [Hw.polFail]

@[simp] theorem Hw.onceInRun_frameCount (m : Hw) (n : Nat) (f : Hw → Hw) (hf : ∀ m, (f m).frameCount = m.frameCount) :
    (m.onceInRun n f).frameCount = m.frameCount := by
  simp [Hw.onceInRun, hf]

@[simp] theorem Hw.clrRailLatch_frameCount (m : Hw) : m.clrRailLatch.frameCount = m.frameCount := by
  simp +decide [Hw.clrRailLatch]

@[simp] theorem Hw.padSelect_frameCount (m : Hw) (n mv : Nat) : (m.padSelect n mv).frameCount = m.frameCount := by
  simp [Hw.padSelect]

@[simp] theorem Hw.respond_frameCount (m : Hw) : m.respond.frameCount = m.frameCount := by
  unfold Hw.respond
  split <;> simp +decide

@[simp] theorem Hw.answerRl_frameCount (m : Hw) (code tag detail : Nat) :
    (m.answerRl code tag detail).frameCount = m.frameCount := by
  simp [Hw.answerRl]

@[simp] theorem Hw.rejectRl_frameCount (m : Hw) (tag reason : Nat) :
    (m.rejectRl tag reason).frameCount = m.frameCount := by
  simp +decide [Hw.rejectRl]

@[simp] theorem Hw.transact_frameCount (m : Hw) (tag arg : Nat) (f : Hw → Hw)
    (hf : ∀ m, (f m).frameCount = m.frameCount) : (m.transact tag arg f).frameCount = m.frameCount := by
  unfold Hw.transact
  split <;> simp +decide [hf]

@[simp] theorem Hw.inSession_frameCount (m : Hw) (tag raises : Nat) (f : Hw → Hw)
    (hf : ∀ m, (f m).frameCount = m.frameCount) : (m.inSession tag raises f).frameCount = m.frameCount := by
  unfold Hw.inSession
  split <;> simp [hf]

@[simp] theorem Hw.endQrOverrides_frameCount (m : Hw) : m.endQrOverrides.frameCount = m.frameCount := by
  simp [Hw.endQrOverrides]

@[simp] theorem Hw.runRl_frameCount (m : Hw) (c : RlCmd) (mv : Nat) : (m.runRl c mv).frameCount = m.frameCount := by
  unfold Hw.runRl
  split <;> simp

@[simp] theorem Hw.startRl_frameCount (m : Hw) (c : RlCmd) : (m.startRl c).frameCount = m.frameCount := by
  unfold Hw.startRl
  split <;> simp

@[simp] theorem Hw.f4Back_frameCount (m : Hw) : m.f4Back.frameCount = m.frameCount := by simp [Hw.f4Back]

@[simp] theorem Hw.takeRl_frameCount (m : Hw) (c : RlCmd) (tag mv : Nat) :
    (m.takeRl c tag mv).frameCount = m.frameCount := by
  simp [Hw.takeRl]

theorem Hw.issueRl_frameCount {m m' : Hw} {c : RlCmd} (h : m.issueRl c = some m') : m'.frameCount = m.frameCount := by
  unfold Hw.issueRl at h
  split at h
  · obtain rfl := Option.some.inj h
    rfl
  · obtain ⟨r, hr, rfl⟩ := Option.map_eq_some_iff.1 h
    exact Hw.issue_frameCount hr

@[simp] theorem Hw.acceptRl_frameCount (m : Hw) (c : RlCmd) (tag mv : Nat) :
    (m.acceptRl c tag mv).frameCount = m.frameCount := by
  unfold Hw.acceptRl
  split
  · simp
  · next h => simp [Hw.issueRl_frameCount h]

@[simp] theorem Hw.setRailMon_frameCount (m : Hw) (n mv : Nat) : (m.setRailMon n mv).frameCount = m.frameCount := by
  unfold Hw.setRailMon
  split <;> simp +decide

@[simp] theorem Hw.gapRecord_frameCount (m : Hw) (g : KaGap) : (m.gapRecord g).frameCount = m.frameCount := by
  simp [Hw.gapRecord]

@[simp] theorem Hw.submitGaps_frameCount (m : Hw) : m.submitGaps.frameCount = m.frameCount := by simp [Hw.submitGaps]

@[simp] theorem Hw.armGap_frameCount (m : Hw) (mv : Nat) : (m.armGap mv).frameCount = m.frameCount := by
  simp [Hw.armGap]

@[simp] theorem Hw.lowKa_frameCount (m : Hw) (mv : Nat) : (m.lowKa mv).frameCount = m.frameCount := by
  simp +decide [Hw.lowKa]

@[simp] theorem Hw.watchKa_frameCount (m : Hw) (mv : Nat) : (m.watchKa mv).frameCount = m.frameCount := by
  simp [Hw.watchKa]

@[simp] theorem Hw.railsTick_frameCount (m : Hw) (f : Frame) : (m.railsTick f).frameCount = m.frameCount := by
  simp +decide [Hw.railsTick]

/-! ### Operations: the cable port -/

@[simp] theorem Hw.pdIn_frameCount (m : Hw) (f : Hw → Hw) (hf : ∀ m, (f m).frameCount = m.frameCount) :
    (m.pdIn f).frameCount = m.frameCount := by
  unfold Hw.pdIn
  split <;> simp [hf]

@[simp] theorem Hw.cblFlag_frameCount {f : Field} (h : f.counts = false) (m : Hw) :
    (m.cblFlag f).frameCount = m.frameCount := by
  simp [Hw.cblFlag, h]

@[simp] theorem Hw.cableEvent_frameCount (m : Hw) (i before : Nat) (transition : Bool) :
    (m.cableEvent i before transition).frameCount = m.frameCount := by
  simp [Hw.cableEvent]

@[simp] theorem Hw.tellField_frameCount (m : Hw) (req mv : Nat) : (m.tellField req mv).frameCount = m.frameCount := by
  simp [Hw.tellField]

@[simp] theorem Hw.passCurrent_frameCount (m : Hw) (curr : Nat) : (m.passCurrent curr).frameCount = m.frameCount := by
  simp [Hw.passCurrent]

@[simp] theorem Hw.contractWindow_frameCount (m : Hw) (mv : Nat) (pps : Bool) :
    (m.contractWindow mv pps).frameCount = m.frameCount := by
  simp [Hw.contractWindow]

@[simp] theorem Hw.transitWindow_frameCount (m : Hw) (old new : Nat) :
    (m.transitWindow old new).frameCount = m.frameCount := by
  simp [Hw.transitWindow]

@[simp] theorem Hw.plainWindow_frameCount (m : Hw) : m.plainWindow.frameCount = m.frameCount := by simp [Hw.plainWindow]

@[simp] theorem Hw.setContract_frameCount (m : Hw) (x : Terms) (role : Nat) :
    (m.setContract x role).frameCount = m.frameCount := by
  simp +decide [Hw.setContract]

@[simp] theorem Hw.clearContract_frameCount (m : Hw) : m.clearContract.frameCount = m.frameCount := by
  simp +decide [Hw.clearContract]

@[simp] theorem Hw.leaveShare_frameCount (m : Hw) : m.leaveShare.frameCount = m.frameCount := by
  simp +decide [Hw.leaveShare]

@[simp] theorem Hw.openSource_frameCount (m : Hw) : m.openSource.frameCount = m.frameCount := by simp [Hw.openSource]

@[simp] theorem Hw.withdraw_frameCount (m : Hw) : m.withdraw.frameCount = m.frameCount := by simp [Hw.withdraw]

@[simp] theorem Hw.blankPort_frameCount (m : Hw) : m.blankPort.frameCount = m.frameCount := by
  simp +decide [Hw.blankPort]

@[simp] theorem Hw.errorRecovery_frameCount (m : Hw) (cause : Nat) :
    (m.errorRecovery cause).frameCount = m.frameCount := by
  simp +decide [Hw.errorRecovery]

@[simp] theorem Hw.portFlags_frameCount (m : Hw) : m.portFlags.frameCount = m.frameCount := by
  simp +decide [Hw.portFlags]

@[simp] theorem Hw.endRole_frameCount (m : Hw) (cause : Nat) : (m.endRole cause).frameCount = m.frameCount := by
  simp [Hw.endRole]

@[simp] theorem Hw.detach_frameCount (m : Hw) (transition : Bool) :
    (m.detach transition).frameCount = m.frameCount := by
  simp +decide [Hw.detach]

@[simp] theorem Hw.pdRunEnds_frameCount (m : Hw) : m.pdRunEnds.frameCount = m.frameCount := by
  simp +decide [Hw.pdRunEnds]

@[simp] theorem Hw.attachWake_frameCount (m : Hw) : m.attachWake.frameCount = m.frameCount := by simp [Hw.attachWake]

@[simp] theorem Hw.debugAttach_frameCount (m : Hw) : m.debugAttach.frameCount = m.frameCount := by
  simp +decide [Hw.debugAttach]

@[simp] theorem Hw.softReset_frameCount (m : Hw) (received : Bool) :
    (m.softReset received).frameCount = m.frameCount := by
  simp +decide [Hw.softReset]

@[simp] theorem Hw.askAgain_frameCount (m : Hw) : m.askAgain.frameCount = m.frameCount := by simp [Hw.askAgain]

@[simp] theorem Hw.hardReset_frameCount (m : Hw) (received : Bool) :
    (m.hardReset received).frameCount = m.frameCount := by
  unfold Hw.hardReset
  extract_lets before swap m1 m2 _ _ m3 _ m4 _ m5
  have h3 : m3.frameCount = m.frameCount := by simp +decide [m3, m2, m1]
  have h4 : m4.frameCount = m.frameCount := by simp +decide [m4, h3]
  have h5 : m5.frameCount = m.frameCount := by simp [m5, h4]
  exact Hw.ite_frameCount (by simp +decide [h3])
    (Hw.ite_frameCount (Hw.ite_frameCount h5 (by simp [h5])) (by simp [h3]))

@[simp] theorem Hw.unmarked_frameCount (m : Hw) : m.unmarked.frameCount = m.frameCount := by simp +decide [Hw.unmarked]

@[simp] theorem Hw.cblPrSwap_frameCount (m : Hw) : m.cblPrSwap.frameCount = m.frameCount := by simp [Hw.cblPrSwap]

@[simp] theorem Hw.typeCOnly_frameCount (m : Hw) : m.typeCOnly.frameCount = m.frameCount := by
  simp +decide [Hw.typeCOnly]

@[simp] theorem Hw.cblFsEnter_frameCount (m : Hw) : m.cblFsEnter.frameCount = m.frameCount := by simp [Hw.cblFsEnter]

@[simp] theorem Hw.budgetTick_frameCount (m : Hw) (f : Frame) : (m.budgetTick f).frameCount = m.frameCount := by
  simp [Hw.budgetTick]

@[simp] theorem Hw.reserveTick_frameCount (m : Hw) (f : Frame) : (m.reserveTick f).frameCount = m.frameCount := by
  simp [Hw.reserveTick]

@[simp] theorem Hw.windowTick2_frameCount (m : Hw) : m.windowTick2.frameCount = m.frameCount := by
  unfold Hw.windowTick2
  split <;> simp

@[simp] theorem Hw.debugTick_frameCount (m : Hw) : m.debugTick.frameCount = m.frameCount := by
  simp +decide [Hw.debugTick]

@[simp] theorem Hw.cableTick_frameCount (m : Hw) : m.cableTick.frameCount = m.frameCount := by
  simp +decide [Hw.cableTick]

@[simp] theorem Hw.fieldSleeps_frameCount (m : Hw) : m.fieldSleeps.frameCount = m.frameCount := by
  simp +decide [Hw.fieldSleeps]

/-! ### Operations: the journal -/

theorem Hw.sendTwin_frameCount {m m' : Hw} {type : Nat} {payload : List Byte} (h : m.sendTwin type payload = some m') :
    m'.frameCount = m.frameCount := by
  simp only [Hw.sendTwin] at h
  split at h
  · cases h
  · split at h
    · split at h
      · next hi =>
        obtain rfl := Option.some.inj h
        exact (Hw.setTicket_frameCount ..).trans (Hw.issue_frameCount hi :)
      · cases h
    · obtain rfl := Option.some.inj h
      rfl

@[simp] theorem Hw.trySendTwin_frameCount (m : Hw) (type : Nat) (payload : List Byte) :
    (m.trySendTwin type payload).frameCount = m.frameCount :=
  Hw.option_getD_frameCount (fun _ h => Hw.sendTwin_frameCount h) rfl

@[simp] theorem Hw.meter_frameCount (m : Hw) : m.meter.frameCount = m.frameCount := by
  unfold Hw.meter
  extract_lets allow staged m1
  have h1 : m1.frameCount = m.frameCount := by simp +decide [m1]
  clear_value m1
  simp [h1]

@[simp] theorem Hw.hash_frameCount (m : Hw) : m.hash.frameCount = m.frameCount := by simp [Hw.hash]

@[simp] theorem Hw.stage_frameCount (m : Hw) (r : JRec) (tkt : Option Nat) (durable : Bool) :
    (m.stage r tkt durable).frameCount = m.frameCount := by
  unfold Hw.stage
  split <;> simp +decide

@[simp] theorem Hw.noteAccepted_frameCount (m : Hw) (r : JRec) : (m.noteAccepted r).frameCount = m.frameCount := by
  refine Hw.ite_frameCount ?_ (Hw.ite_frameCount rfl (Hw.ite_frameCount rfl (Hw.ite_frameCount rfl rfl)))
  extract_lets w
  split <;> rfl

@[simp] theorem Hw.takeJsn_frameCount (m : Hw) : m.takeJsn.frameCount = m.frameCount := by simp +decide [Hw.takeJsn]

@[simp] theorem Hw.accept_frameCount (m : Hw) (r : JRec) (tkt : Option Nat) (durable : Bool) :
    (m.accept r tkt durable).frameCount = m.frameCount := by
  simp [Hw.accept]

@[simp] theorem Hw.showNand_frameCount (m : Hw) : m.showNand.frameCount = m.frameCount := by simp +decide [Hw.showNand]

@[simp] theorem Hw.setBlock_frameCount (m : Hw) (b : NandBlock) : (m.setBlock b).frameCount = m.frameCount := by
  simp [Hw.setBlock]

@[simp] theorem Hw.program_frameCount (m : Hw) (ring reloc : Bool) (recs : List JRec) :
    (m.program ring reloc recs).frameCount = m.frameCount := by
  unfold Hw.program
  split
  · rfl
  · split <;> simp

@[simp] theorem Hw.enterDirectory_frameCount (m : Hw) (n : Nat) : (m.enterDirectory n).frameCount = m.frameCount := by
  simp [Hw.enterDirectory]

@[simp] theorem Hw.relocatePage_frameCount (n : Nat) (m : Hw) (p : NandPage) :
    (Hw.relocatePage n m p).frameCount = m.frameCount := by
  simp [Hw.relocatePage]

@[simp] theorem Hw.relocate_frameCount (m : Hw) (n : Nat) (bad : Bool) :
    (m.relocate n bad).frameCount = m.frameCount := by
  simp [Hw.relocate]

@[simp] theorem Hw.scrubTick_frameCount (m : Hw) : m.scrubTick.frameCount = m.frameCount := by simp [Hw.scrubTick]

@[simp] theorem Hw.closePage_frameCount (m : Hw) : m.closePage.frameCount = m.frameCount := by simp [Hw.closePage]

@[simp] theorem Hw.settleWork_frameCount (m : Hw) : m.settleWork.frameCount = m.frameCount := by simp [Hw.settleWork]

@[simp] theorem Hw.commitPage_frameCount (m : Hw) : m.commitPage.frameCount = m.frameCount := by
  unfold Hw.commitPage
  split
  · rfl
  · extract_lets page recs crits full m1 m2 _ _ m3 m4 m5 m6 _ m7 m8
    have h1 : m1.frameCount = m.frameCount := by simp [m1]
    have h2 : m2.frameCount = m.frameCount := by simp [m2, h1]
    have h3 : m3.frameCount = m.frameCount := by simp [m3, h2]
    have h4 : m4.frameCount = m.frameCount := by simp +decide [m4, h3]
    have h5 : m5.frameCount = m.frameCount := by
      simp only [m5]
      split <;> simp +decide [h4]
    have h6 : m6.frameCount = m.frameCount := by simp +decide [m6, h5]
    have h7 : m7.frameCount = m.frameCount := by simp [m7, h6]
    have h8 : m8.frameCount = m.frameCount := by
      refine (Hw.foldl_frameCount (fun m x => ?_) _ _).trans h7
      split <;> simp
    clear_value m8
    simp [h8]

@[simp] theorem Hw.critFull_frameCount (m : Hw) : m.critFull.frameCount = m.frameCount := by simp [Hw.critFull]

@[simp] theorem Hw.commitAll_frameCount (m : Hw) (fuel : Nat) : (m.commitAll fuel).frameCount = m.frameCount := by
  induction fuel generalizing m with
  | zero => rfl
  | succ fuel ih => simp [Hw.commitAll, ih]

@[simp] theorem Hw.pend_frameCount (m : Hw) (r : JRec) : (m.pend r).frameCount = m.frameCount := by
  simp +decide [Hw.pend]

@[simp] theorem Hw.popSub_frameCount (m : Hw) : m.popSub.frameCount = m.frameCount := by simp [Hw.popSub]

@[simp] theorem Hw.endAppend_frameCount (m : Hw) (x : Append) : (m.endAppend x).frameCount = m.frameCount := by
  unfold Hw.endAppend
  split <;> simp

@[simp] theorem Hw.holdAppend_frameCount (m : Hw) : m.holdAppend.frameCount = m.frameCount := by
  simp +decide [Hw.holdAppend]

@[simp] theorem Hw.append_frameCount (m : Hw) : m.append.frameCount = m.frameCount := by
  unfold Hw.append
  split
  · rfl
  · next x xs hsub =>
    iterate 2 refine Hw.ite_frameCount (by simp) ?_
    extract_lets st _ m1 _ r
    iterate 2 refine Hw.ite_frameCount (by simp) ?_
    refine Hw.ite_frameCount ?_ ?_
    · split
      · rfl
      · next h => simpa using Hw.sendTwin_frameCount h
    · iterate 3 refine Hw.ite_frameCount (by simp +decide) ?_
      have h1 : m1.frameCount = m.frameCount := by simp [m1]
      refine Hw.ite_frameCount (Hw.ite_frameCount h1 ?_) (by simp [h1])
      split
      · exact h1
      · next h => simpa +decide [h1] using Hw.sendTwin_frameCount h

@[simp] theorem Hw.progFail_frameCount (m : Hw) : m.progFail.frameCount = m.frameCount := by
  unfold Hw.progFail
  split <;> simp +decide

@[simp] theorem Hw.replaceRing_frameCount (m : Hw) (n g : Nat) : (m.replaceRing n g).frameCount = m.frameCount := by
  simp [Hw.replaceRing]

@[simp] theorem Hw.ringFail_frameCount (m : Hw) : m.ringFail.frameCount = m.frameCount := by
  unfold Hw.ringFail
  split <;> simp +decide

@[simp] theorem Hw.buildSeal_frameCount (m : Hw) (status : Nat) : (m.buildSeal status).frameCount = m.frameCount := by
  refine Hw.ite_frameCount (Hw.ite_frameCount ?_ (Hw.ite_frameCount (by simp) rfl)) rfl
  extract_lets e r w _ m1
  have h1 : m1.frameCount = m.frameCount := by simp +decide [m1, w]
  simp [h1]

@[simp] theorem Hw.putSummary_frameCount (m : Hw) (payload : List Byte) :
    (m.putSummary payload).frameCount = m.frameCount := by
  simp [Hw.putSummary]

@[simp] theorem Hw.submitSeconds_frameCount (m : Hw) : m.submitSeconds.frameCount = m.frameCount := by
  simp [Hw.submitSeconds]

@[simp] theorem Hw.oscFail_frameCount (m : Hw) : m.oscFail.frameCount = m.frameCount := by simp +decide [Hw.oscFail]

/-! ### Operations: host commands on the field side -/

@[simp] theorem Hw.setWork_frameCount (m : Hw) (c : HostCmd) : (m.setWork c).frameCount = m.frameCount := by
  simp [Hw.setWork]

@[simp] theorem Hw.advanceN_frameCount (m : Hw) (c : HostCmd) : (m.advanceN c).frameCount = m.frameCount := by
  simp [Hw.advanceN]

@[simp] theorem Hw.showMailbox_frameCount (m : Hw) : m.showMailbox.frameCount = m.frameCount := by
  unfold Hw.showMailbox
  extract_lets ps full m1
  have h1 : m1.frameCount = m.frameCount := by simp +decide [m1]
  split <;> simp +decide [h1]

@[simp] theorem Hw.showResult_frameCount (m : Hw) : m.showResult.frameCount = m.frameCount := by
  refine Hw.foldl_mem_frameCount (fun i hi m => Hw.wr_frameCount (Field.counts_of_addr_lt ?_ ?_) m _) m
  · have hi := List.mem_range.1 hi
    simp only [Reg.MBX_RES_RESULT]
    omega
  · simp [Reg.MBX_RES_RESULT]

@[simp] theorem Hw.postResult_frameCount (m : Hw) (stream seq : Nat) (bytes : List Byte) :
    (m.postResult stream seq bytes).frameCount = m.frameCount := by
  simp +decide [Hw.postResult]

@[simp] theorem Hw.sendAnswer_frameCount (m : Hw) (c : HostCmd) : (m.sendAnswer c).frameCount = m.frameCount := by
  simp [Hw.sendAnswer]

@[simp] theorem Hw.flushAnswers_frameCount (m : Hw) (n : Nat) : (m.flushAnswers n).frameCount = m.frameCount := by
  simp [Hw.flushAnswers]

@[simp] theorem Hw.answerCmd_frameCount (m : Hw) (c : HostCmd) (a : Answer) :
    (m.answerCmd c a).frameCount = m.frameCount := by
  simp [Hw.answerCmd]

@[simp] theorem Hw.refuseCmd_frameCount (m : Hw) (c : HostCmd) (a : Answer) :
    (m.refuseCmd c a).frameCount = m.frameCount := by
  simp [Hw.refuseCmd]

@[simp] theorem Hw.validated_frameCount (m : Hw) (c : HostCmd) : (m.validated c).frameCount = m.frameCount := by
  simp [Hw.validated]

@[simp] theorem Hw.runCmd_frameCount (m : Hw) (s code : Nat) (check : Hw → HostCmd → Option Answer)
    {act : Hw → HostCmd → Hw × Answer} (hact : ∀ m c, (act m c).1.frameCount = m.frameCount) :
    (m.runCmd s code check act).frameCount = m.frameCount := by
  unfold Hw.runCmd
  split
  · rfl
  · split
    · rfl
    · split <;> simp [hact]

@[simp] theorem Hw.innerDone_frameCount (m : Hw) (n : Nat) (a : Answer) :
    (m.innerDone n a).frameCount = m.frameCount := by
  unfold Hw.innerDone
  split <;> simp

@[simp] theorem Hw.sideAnswer_frameCount (m : Hw) (seq cmd status : Nat) (data : List Byte) :
    (m.sideAnswer seq cmd status data).frameCount = m.frameCount := by
  simp [Hw.sideAnswer]

@[simp] theorem Hw.enterCmd_frameCount (m : Hw) (c : HostCmd) : (m.enterCmd c).frameCount = m.frameCount := by
  simp [Hw.enterCmd]

@[simp] theorem Hw.bySequence_frameCount {m : Hw} {c : HostCmd} {take : Hw → HostCmd → Hw}
    {out : Hw → Nat → List Byte → Hw} (htake : ∀ c, (take m c).frameCount = m.frameCount)
    (hout : ∀ m st bs, (out m st bs).frameCount = m.frameCount) :
    (m.bySequence c take out).frameCount = m.frameCount := by
  unfold Hw.bySequence
  extract_lets n next
  iterate 4 refine Hw.ite_frameCount (by simp +decide [htake, hout]) ?_
  split
  · simp
  · simp +decide [htake, hout]

theorem Hw.ticketCmd_frameCount {m m' : Hw} {c : HostCmd} (h : m.ticketCmd c = some m') :
    m'.frameCount = m.frameCount := by
  unfold Hw.ticketCmd at h
  split at h
  · next hi =>
    obtain rfl := Option.some.inj h
    have hm := Hw.issue_frameCount hi
    simpa using hm
  · cases h

@[simp] theorem Hw.takeCmd_frameCount (m : Hw) (x : Msg) (rest : List Msg) :
    (m.takeCmd x rest).frameCount = m.frameCount := by
  unfold Hw.takeCmd
  extract_lets c _ _ _ m1
  have h1 : m1.frameCount = m.frameCount := rfl
  refine Hw.ite_frameCount (by simp [h1]) ((Hw.bySequence_frameCount (fun d => ?_) (by simp)).trans h1)
  exact Hw.option_getD_frameCount (fun _ h => Hw.ticketCmd_frameCount h) h1.symm

/-! ### Operations: tickets that fail or are voided -/

@[simp] theorem Hw.failTicket_frameCount (m : Hw) (n : Nat) : (m.failTicket n).frameCount = m.frameCount := by
  unfold Hw.failTicket
  split <;> simp +decide

@[simp] theorem Hw.voidTickets_frameCount (m : Hw) (p : Ticket → Bool) :
    (m.voidTickets p).1.frameCount = m.frameCount := by
  simp +decide [Hw.voidTickets]

@[simp] theorem Hw.endBus_frameCount (m : Hw) (x : BusOp) (a : Answer) : (m.endBus x a).frameCount = m.frameCount := by
  simp [Hw.endBus]

@[simp] theorem Hw.settleBus_frameCount (m : Hw) : m.settleBus.frameCount = m.frameCount := by simp [Hw.settleBus]

@[simp] theorem Hw.showHist_frameCount (m : Hw) : m.showHist.frameCount = m.frameCount := by simp +decide [Hw.showHist]

@[simp] theorem Hw.closeEntries_frameCount (m : Hw) (p : HistEntry → Bool) :
    (m.closeEntries p).frameCount = m.frameCount := by
  simp [Hw.closeEntries]

@[simp] theorem Hw.closePart_frameCount (m : Hw) (src : Nat) : (m.closePart src).frameCount = m.frameCount := by
  simp [Hw.closePart]

/-! ### Operations: measurement -/

@[simp] theorem Hw.setSlice_frameCount (m : Hw) (i : Nat) (x : Slice) : (m.setSlice i x).frameCount = m.frameCount := by
  simp [Hw.setSlice]

@[simp] theorem Hw.codeOf_frameCount (m : Hw) (tag : Nat) (v : Int) : (m.codeOf tag v).2.frameCount = m.frameCount := by
  unfold Hw.codeOf
  split <;> simp

@[simp] theorem Hw.overranged_frameCount (m : Hw) (tag : Nat) : (m.overranged tag).frameCount = m.frameCount := by
  unfold Hw.overranged
  refine Hw.ite_frameCount (by simp +decide) ?_
  simp +decide

@[simp] theorem Hw.afterRun_frameCount (m : Hw) (tag n : Nat) (x : Samples) :
    (m.afterRun tag n x).frameCount = m.frameCount := by
  simp [Hw.afterRun]

@[simp] theorem Hw.showLast_frameCount (m : Hw) (e : QEntry) : (m.showLast e).frameCount = m.frameCount := by
  simp [Hw.showLast]

@[simp] theorem Hw.showQueue_frameCount (m : Hw) : m.showQueue.frameCount = m.frameCount := by
  simp +decide [Hw.showQueue]

@[simp] theorem Hw.entryOf_frameCount (m : Hw) (tag n : Nat) (x : Samples) (injected host : Bool) (tkt : Nat) :
    (m.entryOf tag n x injected host tkt).2.frameCount = m.frameCount := by
  simp [Hw.entryOf]

@[simp] theorem Hw.sendAdc_frameCount (m : Hw) (fuel : Nat) : (m.sendAdc fuel).frameCount = m.frameCount := by
  induction fuel generalizing m with
  | zero => rfl
  | succ fuel ih =>
    simp only [Hw.sendAdc]
    split
    · rfl
    · simp [ih]

@[simp] theorem Hw.resendAdc_frameCount (m : Hw) : m.resendAdc.frameCount = m.frameCount := by simp [Hw.resendAdc]

@[simp] theorem Hw.dropInjected_frameCount (m : Hw) : m.dropInjected.frameCount = m.frameCount := by
  simp [Hw.dropInjected]

@[simp] theorem Hw.sendAdcThaw_frameCount (m : Hw) : m.sendAdcThaw.frameCount = m.frameCount := by simp [Hw.sendAdcThaw]

@[simp] theorem Hw.enqueue_frameCount (m : Hw) (e : QEntry) : (m.enqueue e).frameCount = m.frameCount := by
  simp [Hw.enqueue]

@[simp] theorem Hw.deliver_frameCount (m : Hw) : m.deliver.frameCount = m.frameCount := by simp [Hw.deliver]

@[simp] theorem Hw.retireConv_frameCount (m : Hw) (c : Conv) : (m.retireConv c).frameCount = m.frameCount := by
  unfold Hw.retireConv
  split <;> simp

@[simp] theorem Hw.retireConvs_frameCount (m : Hw) : m.retireConvs.frameCount = m.frameCount := by simp [Hw.retireConvs]

@[simp] theorem Hw.skipEntry_frameCount (m : Hw) : m.skipEntry.frameCount = m.frameCount := by
  simp +decide [Hw.skipEntry]

@[simp] theorem Hw.lateEntry_frameCount (m : Hw) (tag : Nat) : (m.lateEntry tag).frameCount = m.frameCount := by
  simp +decide [Hw.lateEntry]

@[simp] theorem Hw.seqTick_frameCount (m : Hw) : m.seqTick.frameCount = m.frameCount := by simp [Hw.seqTick]

@[simp] theorem Hw.arrange_frameCount (m : Hw) (gone : Nat) : (m.arrange gone).frameCount = m.frameCount := by
  simp +decide [Hw.arrange]

@[simp] theorem Hw.fenceSlice_frameCount (m : Hw) (i : Nat) : (m.fenceSlice i).frameCount = m.frameCount := by
  simp +decide [Hw.fenceSlice]

@[simp] theorem Hw.clrSliceFence_frameCount (m : Hw) : m.clrSliceFence.frameCount = m.frameCount := by
  simp +decide [Hw.clrSliceFence]

@[simp] theorem Hw.startFg_frameCount (m : Hw) : m.startFg.frameCount = m.frameCount := by simp +decide [Hw.startFg]

@[simp] theorem Hw.refOn_frameCount (m : Hw) : m.refOn.frameCount = m.frameCount := by simp +decide [Hw.refOn]

@[simp] theorem Hw.applyCal_frameCount (m : Hw) (copy : Nat) : (m.applyCal copy).frameCount = m.frameCount := by
  simp +decide [Hw.applyCal]

@[simp] theorem Hw.selectCal_frameCount (m : Hw) : m.selectCal.frameCount = m.frameCount := by
  simp +decide [Hw.selectCal]

@[simp] theorem refchkRun_frameCount (mean tctl : Int) (m : Hw) (c : HostCmd) :
    (refchkRun mean tctl m c).1.frameCount = m.frameCount := by
  simp +decide [refchkRun]

@[simp] theorem calStage_frameCount (m : Hw) (c : HostCmd) : (calStage m c).1.frameCount = m.frameCount := by
  simp [calStage]

@[simp] theorem calCommit_frameCount (m : Hw) (x1 : HostCmd) : (calCommit m x1).1.frameCount = m.frameCount := by
  simp [calCommit]

/-! ### Operations: the fault collector -/

@[simp] theorem Hw.resetRecord_frameCount (m : Hw) (letter : Nat) (side : Side) (source cause : Nat) :
    (m.resetRecord letter side source cause).frameCount = m.frameCount := by
  simp [Hw.resetRecord]

@[simp] theorem Hw.nextEpoch_frameCount (m : Hw) : m.nextEpoch.frameCount = m.frameCount := by
  simp +decide [Hw.nextEpoch]

@[simp] theorem Hw.voidRail_frameCount (m : Hw) : m.voidRail.frameCount = m.frameCount := by simp [Hw.voidRail]

@[simp] theorem Hw.chargeReset_frameCount (m : Hw) : m.chargeReset.frameCount = m.frameCount := by simp [Hw.chargeReset]

@[simp] theorem Hw.dropCheckin_frameCount (m : Hw) (e : Engine) : (m.dropCheckin e).frameCount = m.frameCount := by
  unfold Hw.dropCheckin
  split <;> simp

@[simp] theorem Hw.voidWork_frameCount (m : Hw) : m.voidWork.frameCount = m.frameCount := by simp [Hw.voidWork]

@[simp] theorem Hw.voidOwned_frameCount (m : Hw) (e : Engine) : (m.voidOwned e).frameCount = m.frameCount := by
  simp [Hw.voidOwned]

@[simp] theorem Hw.restartEngine_frameCount (m : Hw) (e : Engine) (cause : Nat) :
    (m.restartEngine e cause).frameCount = m.frameCount := by
  unfold Hw.restartEngine
  split
  · simp
  · split <;> simp

@[simp] theorem Hw.faultRecord_frameCount (m : Hw) (bits frn sc merges : Nat) :
    (m.faultRecord bits frn sc merges).frameCount = m.frameCount := by
  simp [Hw.faultRecord]

@[simp] theorem Hw.resubmitFaults_frameCount (m : Hw) : m.resubmitFaults.frameCount = m.frameCount := by
  simp [Hw.resubmitFaults]

@[simp] theorem Hw.expireTrackers_frameCount (m : Hw) : m.expireTrackers.frameCount = m.frameCount := by
  simp [Hw.expireTrackers]

@[simp] theorem Hw.track1_frameCount (m : Hw) (w : FaultWord) : (m.track1 w).1.frameCount = m.frameCount := by
  simp only [Hw.track1]
  split <;> simp

@[simp] theorem Hw.escalate_frameCount (m : Hw) (w : FaultWord) : (m.escalate w).1.frameCount = m.frameCount := by
  simp [Hw.escalate, apply_ite Prod.fst]

@[simp] theorem Hw.partFault_frameCount (m : Hw) (w : FaultWord) : (m.partFault w).frameCount = m.frameCount := by
  simp +decide [Hw.partFault]

@[simp] theorem Hw.settleDouble_frameCount (m : Hw) : m.settleDouble.frameCount = m.frameCount := by
  simp +decide [Hw.settleDouble]

@[simp] theorem Hw.announce_frameCount (m : Hw) (w : FaultWord) : (m.announce w).frameCount = m.frameCount := by
  simp +decide [Hw.announce]

@[simp] theorem Hw.submitFault_frameCount (m : Hw) (w : FaultWord) (frn sc merges : Nat) :
    (m.submitFault w frn sc merges).frameCount = m.frameCount := by
  simp [Hw.submitFault]

@[simp] theorem Hw.enterWord_frameCount (m : Hw) (w : FaultWord) (base frn sc : Nat) :
    (m.enterWord w base frn sc).frameCount = m.frameCount := by
  unfold Hw.enterWord
  refine Hw.ite_frameCount (by simp +decide) ?_
  split <;> simp +decide

@[simp] theorem Hw.mergeWord_frameCount (m : Hw) (i : Nat) (e : HistEntry) (w : FaultWord) :
    (m.mergeWord i e w).frameCount = m.frameCount := by
  simp [Hw.mergeWord]

@[simp] theorem Hw.unquiet_frameCount (m : Hw) (w : FaultWord) : (m.unquiet w).frameCount = m.frameCount := by
  simp [Hw.unquiet]

@[simp] theorem Hw.collect_frameCount (m : Hw) : m.collect.frameCount = m.frameCount := by
  unfold Hw.collect
  extract_lets i at_ _ m1
  split
  · rfl
  · next w hw =>
    extract_lets r m2 m3 m4 _ m5 m6
    have h1 : m1.frameCount = m.frameCount := by simp [m1]
    have h2 : m2.frameCount = m.frameCount := by simp [m2, r, h1]
    have h3 : m3.frameCount = m.frameCount := by simp +decide [m3, h2]
    have h4 : m4.frameCount = m.frameCount := by simp +decide [m4, h3]
    have h5 : m5.frameCount = m.frameCount := by simp [m5, h4]
    have h6 : m6.frameCount = m.frameCount := by
      simp only [m6]
      split <;> simp [h5]
    clear_value m6
    simp [h6]

@[simp] theorem Hw.expireRecoveries_frameCount (m : Hw) : m.expireRecoveries.frameCount = m.frameCount := by
  simp [Hw.expireRecoveries]

@[simp] theorem Hw.recover_frameCount (m : Hw) (id : Nat) : (m.recover id).frameCount = m.frameCount := by
  simp [Hw.recover]

@[simp] theorem Hw.fenceFlag_frameCount (m : Hw) (id : Nat) (b : Bool) :
    (m.fenceFlag id b).frameCount = m.frameCount := by
  simp +decide [Hw.fenceFlag]

@[simp] theorem Hw.permFlag_frameCount (m : Hw) (id : Nat) (b : Bool) :
    (m.permFlag id b).frameCount = m.frameCount := by
  simp +decide [Hw.permFlag]

@[simp] theorem Hw.railLost_frameCount (m : Hw) (t : Ticket) : (m.railLost t).frameCount = m.frameCount := by
  refine Hw.ite_frameCount (by simp) ?_
  simp only
  split <;> simp

@[simp] theorem Hw.settleTickets_frameCount (m : Hw) (id : Nat) : (m.settleTickets id).frameCount = m.frameCount := by
  simp [Hw.settleTickets]

@[simp] theorem Hw.closeEntry_frameCount (m : Hw) (src kind : Nat) :
    (m.closeEntry src kind).frameCount = m.frameCount := by
  simp [Hw.closeEntry]

@[simp] theorem Hw.histClr_frameCount (m : Hw) : m.histClr.frameCount = m.frameCount := by simp [Hw.histClr]

/-! ### Operations: changes of the twin role -/

@[simp] theorem Hw.toRole_frameCount (m : Hw) (st cause : Nat) : (m.toRole st cause).frameCount = m.frameCount := by
  simp +decide [Hw.toRole]

@[simp] theorem Hw.takeSealing_frameCount (m : Hw) : m.takeSealing.frameCount = m.frameCount := by
  simp +decide [Hw.takeSealing]

@[simp] theorem Hw.endTwin_frameCount (m : Hw) (p : TwinMsg → Bool) : (m.endTwin p).frameCount = m.frameCount := by
  simp [Hw.endTwin]

@[simp] theorem Hw.followTwin_frameCount (m : Hw) : m.followTwin.frameCount = m.frameCount := by
  simp +decide [Hw.followTwin]

@[simp] theorem Hw.failoverRec_frameCount (m : Hw) (cause flags oldEpoch detFrn detSc takeover : Nat) :
    (m.failoverRec cause flags oldEpoch detFrn detSc takeover).frameCount = m.frameCount := by
  simp [Hw.failoverRec]

@[simp] theorem Hw.releaseLine_frameCount (m : Hw) (byReset : Bool) :
    (m.releaseLine byReset).frameCount = m.frameCount := by
  simp [Hw.releaseLine]

@[simp] theorem Hw.resign_frameCount (m : Hw) (byReset request : Bool) :
    (m.resign byReset request).frameCount = m.frameCount := by
  simp [Hw.resign]

@[simp] theorem Hw.settleResign_frameCount (m : Hw) : m.settleResign.frameCount = m.frameCount := by
  simp [Hw.settleResign]

@[simp] theorem Hw.resignFor_frameCount (m : Hw) (cause : ResignCause) :
    (m.resignFor cause).frameCount = m.frameCount := by
  unfold Hw.resignFor
  split <;> simp

@[simp] theorem Hw.enrol_frameCount (m : Hw) : m.enrol.frameCount = m.frameCount := by simp +decide [Hw.enrol]

@[simp] theorem Hw.fork_frameCount (m : Hw) : m.fork.frameCount = m.frameCount := by simp +decide [Hw.fork]

/-! ### Operations: the links -/

@[simp] theorem Hw.endSession_frameCount (m : Hw) : m.endSession.frameCount = m.frameCount := by
  simp +decide [Hw.endSession]

@[simp] theorem Hw.linkOut_frameCount (m : Hw) (st : Nat) : (m.linkOut st).frameCount = m.frameCount := by
  simp +decide [Hw.linkOut]

@[simp] theorem Hw.emptyDrain_frameCount (m : Hw) : m.emptyDrain.frameCount = m.frameCount := by
  simp +decide [Hw.emptyDrain]

/-! ### Operations: loop-backs and fault injection -/

@[simp] theorem Hw.lbShow_frameCount (m : Hw) (side : Side) (st reason : Nat) :
    (m.lbShow side st reason).frameCount = m.frameCount := by
  unfold Hw.lbShow
  split <;> simp +decide

@[simp] theorem Hw.lbStart_frameCount (m : Hw) (side : Side) : (m.lbStart side).frameCount = m.frameCount := by
  unfold Hw.lbStart
  split <;> simp +decide

@[simp] theorem Hw.lbTick_frameCount (m : Hw) : m.lbTick.frameCount = m.frameCount := by simp [Hw.lbTick]

@[simp] theorem Hw.lbReturn_frameCount (m : Hw) (side : Side) : (m.lbReturn side).frameCount = m.frameCount := by
  unfold Hw.lbReturn
  split <;> simp +decide

@[simp] theorem Hw.lbEnd_frameCount (m : Hw) (side : Side) (back : List (Option Word)) (sent errors : Nat)
    (value : Int) : (m.lbEnd side back sent errors value).frameCount = m.frameCount := by
  unfold Hw.lbEnd
  split <;> simp +decide

@[simp] theorem Hw.lbFail_frameCount (m : Hw) (side : Side) (reason : Nat) :
    (m.lbFail side reason).frameCount = m.frameCount := by
  simp [Hw.lbFail]

@[simp] theorem Hw.fiArm_frameCount (m : Hw) : m.fiArm.frameCount = m.frameCount := by simp +decide [Hw.fiArm]

@[simp] theorem Hw.fiDisarm_frameCount (m : Hw) : m.fiDisarm.frameCount = m.frameCount := by simp +decide [Hw.fiDisarm]

@[simp] theorem Hw.serviceOver_frameCount (m : Hw) : m.serviceOver.frameCount = m.frameCount := by simp [Hw.serviceOver]

theorem Hw.fiMake_frameCount {m m' : Hw} {mode target : Nat} (h : m.fiMake mode target = some m') :
    m'.frameCount = m.frameCount := by
  have hsome : ∀ {x : Hw}, x.frameCount = m.frameCount → some x = some m' → m'.frameCount = m.frameCount :=
    fun hx hm => Option.some.inj hm ▸ hx
  unfold Hw.fiMake at h
  split at h
  · exact hsome (by simp) h
  · split at h
    · exact hsome (by simp) h
    · cases h
  · split at h
    · exact hsome (by simp +decide) h
    · split at h
      · exact hsome (by simp +decide) h
      · exact hsome (by simp +decide) h
  · split at h
    · cases h
    · exact hsome (by simp) h
  · split at h
    · exact hsome (by simp) h
    · cases h
  · exact hsome (by simp) h

/-! ### Operations: register writes and reads that clear -/

@[simp] theorem Hw.unfence_frameCount (m : Hw) (id : Nat) : (m.unfence id).frameCount = m.frameCount := by
  unfold Hw.unfence
  split <;> simp +decide

@[simp] theorem Hw.clrPerm_frameCount (m : Hw) : m.clrPerm.frameCount = m.frameCount := by simp [Hw.clrPerm]

@[simp] theorem Hw.askBurn_frameCount (m : Hw) (side : Side) : (m.askBurn side).frameCount = m.frameCount := by
  unfold Hw.askBurn
  split
  · rfl
  · split <;> simp

@[simp] theorem Hw.askEngTest_frameCount (m : Hw) : m.askEngTest.frameCount = m.frameCount := by simp [Hw.askEngTest]

theorem Hw.writeField_frameCount {f : Field} {a : Nat} (hf : f ∈ Reg.fieldsAt a) (m : Hw) (mask value : Nat) :
    (m.writeField a mask value f).frameCount = m.frameCount := by
  cases hw : m.writable f
  · rw [writeField_of_not_writable hw]
  · have hc : f.counts = false := Reg.counts_of_acc_ne_ro hf (acc_ne_ro_of_writable hw)
    simp [Hw.writeField, hc]

@[simp] theorem Hw.foldl_writeField_frameCount (m : Hw) (a mask value : Nat) :
    ((Reg.fieldsAt a).foldl (fun m f => m.writeField a mask value f) m).frameCount = m.frameCount :=
  Hw.foldl_mem_frameCount (fun _ hf m => Hw.writeField_frameCount hf m mask value) m

@[simp] theorem Hw.fieldControl_frameCount (m : Hw) (a v : Nat) : (m.fieldControl a v).frameCount = m.frameCount := by
  simp [Hw.fieldControl]

@[simp] theorem Hw.writeFieldWord_frameCount (m : Hw) (a mask value : Nat) :
    (m.writeFieldWord a mask value).frameCount = m.frameCount := by simp [Hw.writeFieldWord]

theorem Hw.clearRead_frameCount {f : Field} {a : Nat} (hf : f ∈ Reg.fieldsAt a) (m : Hw) (seen : Nat) :
    (m.clearRead f seen).frameCount = m.frameCount := by
  unfold Hw.clearRead
  split
  · rfl
  · next hacc =>
    have hc : f.counts = false := Reg.counts_of_acc_ne_ro hf (by simp_all)
    extract_lets m1
    have h1 : m1.frameCount = m.frameCount := by
      simp only [m1]
      split <;> simp [hc]
    exact Hw.ite_frameCount (by simp [h1]) h1

@[simp] theorem Hw.liveRead_frameCount (m : Hw) (a : Nat) : (m.liveRead a).2.frameCount = m.frameCount := by
  simp [Hw.liveRead, Hw.foldl_mem_frameCount fun _ hf m => Hw.clearRead_frameCount hf m _]

/-! ### Operations: the frame sequencer -/

@[simp] theorem Hw.setTrack_frameCount (m : Hw) (src : SyncSrc) (x : SyncTrack) :
    (m.setTrack src x).frameCount = m.frameCount := by
  unfold Hw.setTrack
  split <;> simp

@[simp] theorem Hw.syncRecord_frameCount (m : Hw) (old new state : Nat) :
    (m.syncRecord old new state).frameCount = m.frameCount := by
  simp [Hw.syncRecord]

@[simp] theorem Hw.setSync_frameCount (m : Hw) (src state : Nat) : (m.setSync src state).frameCount = m.frameCount := by
  simp +decide [Hw.setSync]

@[simp] theorem Hw.syncLost_frameCount (m : Hw) : m.syncLost.frameCount = m.frameCount := by
  unfold Hw.syncLost
  extract_lets c
  split
  · rfl
  · exact Hw.ite_frameCount (by simp +decide) rfl

@[simp] theorem Hw.submitSync_frameCount (m : Hw) : m.submitSync.frameCount = m.frameCount := by simp [Hw.submitSync]

@[simp] theorem Hw.decideSlot_frameCount (m : Hw) (p sl at_ frn : Nat) (a : Admit) :
    (m.decideSlot p sl at_ frn a).frameCount = m.frameCount := by
  unfold Hw.decideSlot
  refine Hw.ite_frameCount (by simp) ?_
  split <;> simp

@[simp] theorem Hw.limitTick_frameCount (m : Hw) (psrc : Nat) : (m.limitTick psrc).frameCount = m.frameCount := by
  simp +decide [Hw.limitTick]

@[simp] theorem Hw.holdApt_frameCount (m : Hw) (b : AptBy) (len : Option Nat) :
    (m.holdApt b len).frameCount = m.frameCount := by
  simp +decide [Hw.holdApt]

@[simp] theorem Hw.requestAperture_frameCount (m : Hw) (a : Admit) (b : AptBy) (len : Option Nat) :
    (m.requestAperture a b len).frameCount = m.frameCount := by
  unfold Hw.requestAperture
  refine Hw.ite_frameCount (by simp +decide) ?_
  split <;> simp +decide

@[simp] theorem Hw.releaseApts_frameCount (m : Hw) (p : Apt → Bool) : (m.releaseApts p).frameCount = m.frameCount := by
  simp +decide [Hw.releaseApts]

/-! ### Operations: what each host command checks and does -/

@[simp] theorem Hw.runChecked_frameCount (m : Hw) (s code : Nat) (check : Hw → HostCmd → Hw × Option Answer)
    (act : Hw → HostCmd → Hw × Answer) (hcheck : ∀ m c, (check m c).1.frameCount = m.frameCount)
    (hact : ∀ m c, (act m c).1.frameCount = m.frameCount) :
    (m.runChecked s code check act).frameCount = m.frameCount := by
  unfold Hw.runChecked
  split
  · rfl
  · refine Hw.ite_frameCount rfl ?_
    split
    · simp
    · extract_lets r
      have hr : r.1.frameCount = m.frameCount := hcheck ..
      split
      · simp [hr]
      · exact Hw.ite_frameCount (by simp [hr]) ((Hw.answerCmd_frameCount ..).trans ((hact ..).trans hr))

@[simp] theorem pingAct_frameCount (m : Hw) (x1 : HostCmd) : (pingAct m x1).1.frameCount = m.frameCount := by
  simp [pingAct]

@[simp] theorem Hw.readWords_frameCount (m : Hw) (a n : Nat) : (m.readWords a n).1.frameCount = m.frameCount := by
  induction n generalizing m a with
  | zero => rfl
  | succ n ih => simp [Hw.readWords, ih]

@[simp] theorem regReadAct_frameCount (m : Hw) (c : HostCmd) : (regReadAct m c).1.frameCount = m.frameCount := by
  simp [regReadAct]

@[simp] theorem regWriteAct_frameCount (m : Hw) (c : HostCmd) : (regWriteAct m c).1.frameCount = m.frameCount := by
  simp [regWriteAct]

@[simp] theorem kaStatementAct_frameCount (m : Hw) (c : HostCmd) :
    (kaStatementAct m c).1.frameCount = m.frameCount := by
  simp [kaStatementAct]

@[simp] theorem Hw.setTime_frameCount (m : Hw) (mode : Nat) (utc : Int) (tai sub origin seq : Nat) :
    (m.setTime mode utc tai sub origin seq).1.frameCount = m.frameCount := by
  unfold Hw.setTime
  extract_lets old oldU newU oldUtc newUtc flags since base w _ m1 m2 r hdr
  have hw : w.frameCount = m.frameCount := by simp +decide [w]
  have h1 : m1.frameCount = m.frameCount := by
    simp only [m1]
    split
    · exact hw
    · rfl
    · simp +decide
  clear_value m1
  simp +decide [m2, h1]

@[simp] theorem Hw.sendTime_frameCount (m : Hw) (mode : Nat) : (m.sendTime mode).frameCount = m.frameCount := by
  simp [Hw.sendTime]

@[simp] theorem timeSetAct_frameCount (m : Hw) (c : HostCmd) : (timeSetAct m c).1.frameCount = m.frameCount := by
  simp [timeSetAct]

@[simp] theorem Hw.release_frameCount (m : Hw) (e : Nat) : (m.release e).frameCount = m.frameCount := by
  simp +decide [Hw.release]

@[simp] theorem streamResetAct_frameCount (m : Hw) (c : HostCmd) :
    (streamResetAct m c).1.frameCount = m.frameCount := by
  simp [streamResetAct]

@[simp] theorem challengeAct_frameCount (m : Hw) (c : HostCmd) : (challengeAct m c).1.frameCount = m.frameCount := by
  simp [challengeAct]

@[simp] theorem Hw.serviceRec_frameCount (m : Hw) (event level cause : Nat) (key : List Byte) :
    (m.serviceRec event level cause key).frameCount = m.frameCount := by
  simp [Hw.serviceRec]

@[simp] theorem Hw.serviceFailed_frameCount (m : Hw) (level : Nat) :
    (m.serviceFailed level).1.frameCount = m.frameCount := by
  simp +decide [Hw.serviceFailed]

@[simp] theorem enterCheck_frameCount (m : Hw) (c : HostCmd) : (enterCheck m c).1.frameCount = m.frameCount := by
  simp only [enterCheck, apply_ite Prod.fst]
  iterate 3 refine Hw.ite_frameCount rfl ?_
  split
  · rfl
  · simp [apply_ite Prod.fst]

@[simp] theorem enterAct_frameCount (m : Hw) (c : HostCmd) : (enterAct m c).1.frameCount = m.frameCount := by
  simp +decide [enterAct]

@[simp] theorem exitAct_frameCount (m : Hw) (x1 : HostCmd) : (exitAct m x1).1.frameCount = m.frameCount := by
  simp [exitAct]

@[simp] theorem enrolAct_frameCount (m : Hw) (c : HostCmd) : (enrolAct m c).1.frameCount = m.frameCount := by
  simp +decide [enrolAct]

@[simp] theorem Hw.modeRefused_frameCount (m : Hw) (target why : Nat) :
    (m.modeRefused target why).frameCount = m.frameCount := by
  simp [Hw.modeRefused]

@[simp] theorem shipCheck_frameCount (m : Hw) (c : HostCmd) : (shipCheck m c).1.frameCount = m.frameCount := by
  simp +decide [shipCheck, apply_ite Prod.fst]

@[simp] theorem shipAct_frameCount (m : Hw) (x1 : HostCmd) : (shipAct m x1).1.frameCount = m.frameCount := by
  simp [shipAct]

@[simp] theorem Hw.showReq_frameCount (m : Hw) : m.showReq.frameCount = m.frameCount := by
  unfold Hw.showReq
  extract_lets r rose m1
  have h1 : m1.frameCount = m.frameCount := by simp +decide [m1]
  exact Hw.ite_frameCount (Hw.ite_frameCount h1 (Hw.ite_frameCount h1 h1)) h1

@[simp] theorem hostPwrAct_frameCount (m : Hw) (c : HostCmd) : (hostPwrAct m c).1.frameCount = m.frameCount := by
  simp [hostPwrAct]

@[simp] theorem cfgStageAct_frameCount (m : Hw) (c : HostCmd) : (cfgStageAct m c).1.frameCount = m.frameCount := by
  simp [cfgStageAct]

@[simp] theorem cfgCommitAct_frameCount (m : Hw) (x1 : HostCmd) : (cfgCommitAct m x1).1.frameCount = m.frameCount := by
  simp [cfgCommitAct]

@[simp] theorem fieldResetAct_frameCount (m : Hw) (x1 : HostCmd) :
    (fieldResetAct m x1).1.frameCount = m.frameCount := by
  simp [fieldResetAct]

/-! ### Operations: commits -/

theorem Hw.askBus_frameCount {m : Hw} {addr wlen rlen : Nat} {isRead pec : Bool} {host : Option (Nat × Nat)}
    {r : Hw × Nat} (h : m.askBus addr isRead wlen rlen pec host = some r) : r.1.frameCount = m.frameCount := by
  unfold Hw.askBus at h
  split at h
  · next hi =>
    obtain rfl := Option.some.inj h
    have hm := Hw.issue_frameCount hi
    simpa using hm
  · cases h

theorem Hw.startXfer_frameCount {m : Hw} {c : HostCmd} {r : Hw × HostCmd} (h : m.startXfer c = some r) :
    r.1.frameCount = m.frameCount := by
  unfold Hw.startXfer at h
  split at h
  · next ha =>
    obtain rfl := Option.some.inj h
    exact Hw.askBus_frameCount ha
  · cases h

@[simp] theorem Hw.durableEffect_frameCount (m : Hw) (c : HostCmd) :
    (m.durableEffect c).1.frameCount = m.frameCount := by
  unfold Hw.durableEffect
  simp only [apply_ite Prod.fst]
  simp

@[simp] theorem Hw.applyDurable_frameCount (m : Hw) (c : HostCmd) (jsn : Option Nat) :
    (m.applyDurable c jsn).frameCount = m.frameCount := by
  simp only [Hw.applyDurable]
  split
  · split
    · next h => simp [Hw.startXfer_frameCount h]
    · simp
  · split <;> simp

@[simp] theorem Hw.commitCmd_frameCount (m : Hw) (c : HostCmd) (r : JRec) :
    (m.commitCmd c r).frameCount = m.frameCount := by
  simp [Hw.commitCmd]

@[simp] theorem Hw.acceptAt_frameCount (m : Hw) (r : JRec) (tkt : Option Nat) :
    (m.acceptAt r tkt).frameCount = m.frameCount := by
  unfold Hw.acceptAt
  split <;> simp

@[simp] theorem Hw.acceptFront_frameCount (m : Hw) : m.acceptFront.frameCount = m.frameCount := by
  unfold Hw.acceptFront
  split <;> simp +decide

@[simp] theorem Hw.acceptReserved_frameCount (m : Hw) (fuel : Nat) :
    (m.acceptReserved fuel).frameCount = m.frameCount := by
  induction fuel generalizing m with
  | zero => rfl
  | succ fuel ih => simp [Hw.acceptReserved, ih]

@[simp] theorem Hw.recordSent_frameCount (m : Hw) (c : HostCmd) : (m.recordSent c).frameCount = m.frameCount := by
  simp [Hw.recordSent]

@[simp] theorem Hw.commitDurable_frameCount (m : Hw) (n : Nat) : (m.commitDurable n).frameCount = m.frameCount := by
  unfold Hw.commitDurable
  split
  · rfl
  · iterate 2 refine Hw.ite_frameCount (by simp) ?_
    extract_lets r st _ r'
    iterate 2 refine Hw.ite_frameCount (by simp) ?_
    refine Hw.ite_frameCount ?_ (Hw.ite_frameCount (by simp) (Hw.ite_frameCount (Hw.ite_frameCount rfl ?_) (by simp)))
    · split
      · rfl
      · next h => simpa using Hw.sendTwin_frameCount h
    · split
      · rfl
      · next h => simpa +decide using Hw.sendTwin_frameCount h

@[simp] theorem Hw.appendOne_frameCount (m : Hw) : m.appendOne.frameCount = m.frameCount := by
  unfold Hw.appendOne
  split
  · split <;> simp
  · simp

@[simp] theorem Hw.appendMany_frameCount (m : Hw) (fuel : Nat) : (m.appendMany fuel).frameCount = m.frameCount := by
  induction fuel generalizing m with
  | zero => rfl
  | succ fuel ih => simp [Hw.appendMany, ih]

/-! ### Operations: tickets -/

@[simp] theorem Hw.retire_frameCount (m : Hw) (n : Nat) : (m.retire n).frameCount = m.frameCount := by
  unfold Hw.retire
  extract_lets plain m1
  have h1 : m1.frameCount = m.frameCount := by simp [m1]
  clear_value m1
  split
  · exact h1
  · iterate 5 refine Hw.ite_frameCount (by simp [h1]) ?_
    simp [h1]

@[simp] theorem Hw.afterFailure_frameCount (m : Hw) (n err : Nat) :
    (m.afterFailure n err).frameCount = m.frameCount := by
  unfold Hw.afterFailure
  split
  · rfl
  · refine Hw.ite_frameCount rfl (Hw.ite_frameCount ?_ (Hw.ite_frameCount (by simp) (Hw.ite_frameCount ?_ rfl)))
    · split <;> simp
    · split <;> simp +decide

@[simp] theorem Hw.failWork_frameCount (m : Hw) (n err : Nat) : (m.failWork n err).frameCount = m.frameCount := by
  simp [Hw.failWork]

theorem Hw.pendForwarded_frameCount {m m' : Hw} {n : Nat} (h : m.pendForwarded n = some m') :
    m'.frameCount = m.frameCount := by
  simp only [Hw.pendForwarded] at h
  split at h
  · cases h
  · split at h
    · cases h
    · split at h
      · obtain rfl := Option.some.inj h
        simp
      · split at h
        · obtain rfl := Option.some.inj h
          simp
        · obtain rfl := Option.some.inj h
          simp

@[simp] theorem Hw.deadline_frameCount (m : Hw) (n : Nat) : (m.deadline n).frameCount = m.frameCount := by
  have hgiven : ∀ m : Hw, ((m.pendForwarded n).getD (m.failWork n 0x0A)).frameCount = m.frameCount := fun m =>
    Hw.option_getD_frameCount (fun _ h => Hw.pendForwarded_frameCount h) (Hw.failWork_frameCount ..)
  unfold Hw.deadline
  split <;> simp +decide [hgiven]

/-! ### Operations: the sensor bus -/

@[simp] theorem Hw.busIdle_frameCount (m : Hw) : m.busIdle.frameCount = m.frameCount := by simp +decide [Hw.busIdle]

@[simp] theorem Hw.setOp_frameCount (m : Hw) (n : Nat) (f : BusOp → BusOp) :
    (m.setOp n f).frameCount = m.frameCount := by
  simp [Hw.setOp]

@[simp] theorem Hw.busFail_frameCount (m : Hw) (x : BusOp) (err : Nat) :
    (m.busFail x err).frameCount = m.frameCount := by
  simp +decide [Hw.busFail]

@[simp] theorem Hw.busNack_frameCount (m : Hw) (x : BusOp) (err : Nat) :
    (m.busNack x err).frameCount = m.frameCount := by
  simp +decide [Hw.busNack]

@[simp] theorem Hw.busBitErr_frameCount (m : Hw) (x : BusOp) : (m.busBitErr x).frameCount = m.frameCount := by
  simp +decide [Hw.busBitErr]

@[simp] theorem Hw.busRun_frameCount (m : Hw) (n : Nat) : (m.busRun n).frameCount = m.frameCount := by
  simp +decide [Hw.busRun]

@[simp] theorem Hw.busDefer_frameCount (m : Hw) (x : BusOp) : (m.busDefer x).frameCount = m.frameCount := by
  simp +decide [Hw.busDefer]

@[simp] theorem Hw.busOverrun_frameCount (m : Hw) (x : BusOp) : (m.busOverrun x).frameCount = m.frameCount := by
  simp +decide [Hw.busOverrun]

@[simp] theorem Hw.busEnds_frameCount (m : Hw) (x : BusOp) (err : Nat) (data : List Byte) :
    (m.busEnds x err data).frameCount = m.frameCount := by
  unfold Hw.busEnds
  split <;> simp

/-! ### Operations: the Tabien link -/

@[simp] theorem Hw.dropMsg_frameCount (m : Hw) (rx : Side) (x : MsgIn) (why : Nat) :
    (m.dropMsg rx x why).frameCount = m.frameCount := by
  unfold Hw.dropMsg
  split <;> simp +decide

@[simp] theorem Hw.setLinkEnd_frameCount (m : Hw) (sd : Side) (e : LinkEnd) :
    (m.setLinkEnd sd e).frameCount = m.frameCount := by
  unfold Hw.setLinkEnd
  split <;> simp

@[simp] theorem Hw.linkDo_frameCount (m : Hw) (sd : Side) (g : LinkEnd → LinkEnd) :
    (m.linkDo sd g).frameCount = m.frameCount := by
  simp [Hw.linkDo]

@[simp] theorem Hw.filterMsg_frameCount (m : Hw) (rx : Side) (x : MsgIn) :
    (m.filterMsg rx x).frameCount = m.frameCount := by
  simp [Hw.filterMsg]

@[simp] theorem Hw.receiveMsg_frameCount (m : Hw) (rx : Side) (x : MsgIn) (crcOk : Bool) :
    (m.receiveMsg rx x crcOk).frameCount = m.frameCount := by
  unfold Hw.receiveMsg
  refine Hw.ite_frameCount (by simp +decide) ?_
  split
  · split <;> simp +decide
  · simp +decide

@[simp] theorem Hw.flushAcks_frameCount (m : Hw) : m.flushAcks.frameCount = m.frameCount := by simp [Hw.flushAcks]

@[simp] theorem Hw.resultAcked_frameCount (m : Hw) (p : List Byte) : (m.resultAcked p).frameCount = m.frameCount := by
  unfold Hw.resultAcked
  split <;> simp

@[simp] theorem Hw.adcAcked_frameCount (m : Hw) (p : List Byte) : (m.adcAcked p).frameCount = m.frameCount := by
  simp [Hw.adcAcked]

@[simp] theorem Hw.dropF2h_frameCount (m : Hw) : m.dropF2h.frameCount = m.frameCount := by
  unfold Hw.dropF2h
  split <;> simp

@[simp] theorem Hw.ackedF_frameCount (m : Hw) (x : Msg) : (m.ackedF x).frameCount = m.frameCount := by simp [Hw.ackedF]

@[simp] theorem Hw.covered_frameCount (m : Hw) (sd : Side) (n : Nat) : (m.covered sd n).frameCount = m.frameCount := by
  unfold Hw.covered
  cases sd <;> simp

@[simp] theorem Hw.takeFrom_frameCount (m : Hw) (rx : Side) (type : Nat) (g : Hw → Msg → Hw)
    (hg : ∀ m a, (g m a).frameCount = m.frameCount) : (m.takeFrom rx type g).frameCount = m.frameCount := by
  unfold Hw.takeFrom
  split <;> simp [hg]

@[simp] theorem Hw.retrain_frameCount (m : Hw) (sd : Side) (why : Nat) :
    (m.retrain sd why).frameCount = m.frameCount := by
  simp +decide [Hw.retrain]

@[simp] theorem Hw.liftLink_frameCount (m : Hw) : m.liftLink.frameCount = m.frameCount := by simp [Hw.liftLink]

@[simp] theorem Hw.resume_frameCount (m : Hw) (sd : Side) (rxNext : Nat) :
    (m.resume sd rxNext).frameCount = m.frameCount := by
  simp [Hw.resume]

@[simp] theorem Hw.dropSent_frameCount (m : Hw) : m.dropSent.frameCount = m.frameCount := by simp +decide [Hw.dropSent]

@[simp] theorem Hw.fieldPowerLost_frameCount (m : Hw) : m.fieldPowerLost.frameCount = m.frameCount := by
  simp [Hw.fieldPowerLost]

@[simp] theorem Hw.hostTakes_frameCount (m : Hw) (e : Engine) (type : Nat) (g : Hw → Msg → Hw)
    (hg : ∀ m a, (g m a).frameCount = m.frameCount) : (m.hostTakes e type g).frameCount = m.frameCount := by
  unfold Hw.hostTakes
  split <;> simp [hg]

@[simp] theorem Hw.seeItems_frameCount (m : Hw) (fuel : Nat) : (m.seeItems fuel).frameCount = m.frameCount := by
  induction fuel generalizing m with
  | zero => rfl
  | succ fuel ih =>
    simp only [Hw.seeItems, Hw.frameCount_ite, ih]
    split
    · rfl
    · split <;> simp +decide

@[simp] theorem Hw.drainBytes_frameCount (m : Hw) (bs : List Byte) : (m.drainBytes bs).frameCount = m.frameCount := by
  simp +decide [Hw.drainBytes]

@[simp] theorem Hw.takeCfgWord_frameCount (m : Hw) (a v : Nat) : (m.takeCfgWord a v).frameCount = m.frameCount := by
  refine Hw.foldl_mem_frameCount (fun f hf m => Hw.wr_frameCount ?_ m _) m
  obtain ⟨hmem, hacc⟩ := List.mem_filter.1 hf
  exact Reg.counts_of_acc_ne_ro hmem (by simp_all)

@[simp] theorem Hw.fieldTakes_frameCount (m : Hw) (e : Engine) (type : Nat) (g : Hw → Msg → Hw)
    (hg : ∀ m a, (g m a).frameCount = m.frameCount) : (m.fieldTakes e type g).frameCount = m.frameCount := by
  unfold Hw.fieldTakes
  split <;> simp [hg]

@[simp] theorem Hw.writeRev_frameCount (m : Hw) (mv : Nat) : (m.writeRev mv).frameCount = m.frameCount := by
  simp [Hw.writeRev]

@[simp] theorem Hw.revTick_frameCount (m : Hw) : m.revTick.frameCount = m.frameCount := by simp [Hw.revTick]

@[simp] theorem Hw.enterSource_frameCount (m : Hw) : m.enterSource.frameCount = m.frameCount := by simp [Hw.enterSource]

@[simp] theorem Hw.swapSource_frameCount (m : Hw) : m.swapSource.frameCount = m.frameCount := by simp [Hw.swapSource]

@[simp] theorem Hw.applyClear_frameCount (m : Hw) (o : Nat) (vals : List Byte) :
    (m.applyClear o vals).frameCount = m.frameCount := by
  refine Hw.foldl_mem_frameCount (fun f hf m => ?_) m
  obtain ⟨hf, -⟩ := List.mem_filter.1 hf
  obtain ⟨a, -, hf⟩ := List.mem_flatMap.1 hf
  exact Hw.clearRead_frameCount hf m _

@[simp] theorem Hw.applyClears_frameCount (m : Hw) (fuel : Nat) (p : List Byte) :
    (m.applyClears fuel p).frameCount = m.frameCount := by
  induction fuel generalizing m p with
  | zero => rfl
  | succ fuel ih => simp [Hw.applyClears, ih]

@[simp] theorem Hw.takeHostRec_frameCount (m : Hw) (r : JRec) : (m.takeHostRec r).frameCount = m.frameCount := by
  simp [Hw.takeHostRec]

@[simp] theorem Hw.sendDrain_frameCount (m : Hw) (tag fuel : Nat) (bs : List Byte) :
    (m.sendDrain tag fuel bs).frameCount = m.frameCount := by
  induction fuel generalizing m bs with
  | zero => rfl
  | succ fuel ih => simp [Hw.sendDrain, ih]

/-! ### Operations: the mailbox -/

@[simp] theorem Hw.sendChunk_frameCount (m : Hw) (session pos fuel : Nat) (bs : List Byte) :
    (m.sendChunk session pos fuel bs).frameCount = m.frameCount := by
  induction fuel generalizing m pos bs with
  | zero => rfl
  | succ fuel ih => simp [Hw.sendChunk, ih]

@[simp] theorem Hw.sendCmd_frameCount (m : Hw) (s : Nat) (p : List Byte) :
    (m.sendCmd s p).frameCount = m.frameCount := by
  simp [Hw.sendCmd]

@[simp] theorem Hw.takeLocal_frameCount (m : Hw) (p : List Byte) : (m.takeLocal p).frameCount = m.frameCount := by
  simp [Hw.takeLocal]

@[simp] theorem Hw.submit_frameCount (m : Hw) : m.submit.frameCount = m.frameCount := by simp +decide [Hw.submit]

@[simp] theorem Hw.popResult_frameCount (m : Hw) : m.popResult.frameCount = m.frameCount := by
  unfold Hw.popResult
  split <;> simp +decide

/-! ### Operations: the drain port -/

@[simp] theorem Hw.drnFormat_frameCount (m : Hw) (detail : Nat) : (m.drnFormat detail).frameCount = m.frameCount := by
  simp +decide [Hw.drnFormat]

@[simp] theorem Hw.drnOut_frameCount (m : Hw) (bs : List Byte) : (m.drnOut bs).frameCount = m.frameCount := by
  simp [Hw.drnOut]

@[simp] theorem Hw.drnRead_frameCount (m : Hw) (bytes : Nat) : (m.drnRead bytes).frameCount = m.frameCount := by
  simp +decide [Hw.drnRead]

@[simp] theorem Hw.drnAsk_frameCount (m : Hw) (block : List Byte) : (m.drnAsk block).frameCount = m.frameCount := by
  unfold Hw.drnAsk
  iterate 2 refine Hw.ite_frameCount (by simp +decide) ?_
  simp +decide

@[simp] theorem Hw.drnGo_frameCount (m : Hw) : m.drnGo.frameCount = m.frameCount := by simp [Hw.drnGo]

@[simp] theorem Hw.endDrainHost_frameCount (m : Hw) (status : Nat) :
    (m.endDrainHost status).frameCount = m.frameCount := by
  unfold Hw.endDrainHost
  split <;> simp

@[simp] theorem Hw.setReq_frameCount (m : Hw) (r : Option DrainReq) : (m.setReq r).frameCount = m.frameCount := by
  simp [Hw.setReq]

@[simp] theorem Hw.readItem_frameCount (m : Hw) (r : DrainReq) : (m.readItem r).frameCount = m.frameCount := by
  unfold Hw.readItem
  iterate 4 refine Hw.ite_frameCount (by simp) ?_
  split <;> simp

@[simp] theorem Hw.serveRead_frameCount (m : Hw) (fuel : Nat) : (m.serveRead fuel).frameCount = m.frameCount := by
  induction fuel generalizing m with
  | zero => rfl
  | succ fuel ih =>
    unfold Hw.serveRead
    split <;> simp [ih]

@[simp] theorem Hw.fillWindow_frameCount (m : Hw) (o : Nat) (bs : List Byte) :
    (m.fillWindow o bs).frameCount = m.frameCount := by
  simp [Hw.fillWindow]

@[simp] theorem Hw.drnWrite_frameCount (m : Hw) (opcode ofs : Nat) (data : List Byte) :
    (m.drnWrite opcode ofs data).frameCount = m.frameCount := by
  simp [Hw.drnWrite]

/-! ### Operations: firmware update -/

@[simp] theorem Hw.putSlot_frameCount (m : Hw) (e : Engine) (x : Nat) (g : Slot → Slot) :
    (m.putSlot e x g).frameCount = m.frameCount := by
  simp [Hw.putSlot]

@[simp] theorem Hw.slotState_frameCount (m : Hw) (e : Engine) (x st : Nat) :
    (m.slotState e x st).frameCount = m.frameCount := by
  simp [Hw.slotState]

@[simp] theorem Hw.selectSlot_frameCount (m : Hw) (e : Engine) (x : Nat) :
    (m.selectSlot e x).frameCount = m.frameCount := by
  unfold Hw.selectSlot
  cases e <;> simp +decide

@[simp] theorem Hw.probBit_frameCount (m : Hw) (e : Engine) (b : Bool) : (m.probBit e b).frameCount = m.frameCount := by
  simp +decide [Hw.probBit]

@[simp] theorem Hw.updRecord_frameCount (m : Hw) (e : Engine) (k : RecKind) (p : List Byte) :
    (m.updRecord e k p).frameCount = m.frameCount := by
  simp [Hw.updRecord]

@[simp] theorem Hw.updateRec_frameCount (m : Hw) (event : Nat) (e : Engine) (x reason : Nat) :
    (m.updateRec event e x reason).frameCount = m.frameCount := by
  simp [Hw.updateRec]

@[simp] theorem Hw.handoverRec_frameCount (m : Hw) (e : Engine) (outcome old new len us : Nat) :
    (m.handoverRec e outcome old new len us).frameCount = m.frameCount := by
  simp [Hw.handoverRec]

@[simp] theorem Hw.lastReason_frameCount (m : Hw) (e : Engine) (why : Nat) :
    (m.lastReason e why).frameCount = m.frameCount := by
  simp +decide [Hw.lastReason]

@[simp] theorem Hw.rejected_frameCount (m : Hw) (e : Engine) (x why : Nat) :
    (m.rejected e x why).frameCount = m.frameCount := by
  simp +decide [Hw.rejected]

@[simp] theorem Hw.showUpd_frameCount (m : Hw) : m.showUpd.frameCount = m.frameCount := by
  unfold Hw.showUpd
  extract_lets at_ host m1 m2
  have h2 : m2.frameCount = m.frameCount := by simp +decide [m2, m1]
  clear_value m2
  split
  · simp +decide [h2]
  · exact h2

@[simp] theorem Hw.runUpd_frameCount (m : Hw) (s code : Nat) (check : Hw → HostCmd → Option Answer)
    (act : Hw → HostCmd → Hw × Answer) (hact : ∀ m a, (act m a).1.frameCount = m.frameCount) :
    (m.runUpd s code check act).frameCount = m.frameCount := by
  unfold Hw.runUpd
  split <;> simp [hact]

@[simp] theorem updBeginAct_frameCount (m : Hw) (c : HostCmd) : (updBeginAct m c).1.frameCount = m.frameCount := by
  unfold updBeginAct
  split <;> simp

@[simp] theorem Hw.closeSession_frameCount (m : Hw) : m.closeSession.frameCount = m.frameCount := by
  simp [Hw.closeSession]

@[simp] theorem updChunkCheck_frameCount (m : Hw) (c : HostCmd) : (updChunkCheck m c).1.frameCount = m.frameCount := by
  unfold updChunkCheck
  split
  · rfl
  · simp [apply_ite Prod.fst]

@[simp] theorem Hw.takeChunk_frameCount (m : Hw) (s : Session) (bs : List Byte) :
    (m.takeChunk s bs).1.frameCount = m.frameCount := by
  simp [Hw.takeChunk, apply_ite Prod.fst]

@[simp] theorem updChunkAct_frameCount (m : Hw) (c : HostCmd) : (updChunkAct m c).1.frameCount = m.frameCount := by
  unfold updChunkAct
  split
  · rfl
  · simp [apply_ite Prod.fst]

@[simp] theorem Hw.blockWrite_frameCount (m : Hw) (readsBack : Bool) :
    (m.blockWrite readsBack).frameCount = m.frameCount := by
  unfold Hw.blockWrite
  split
  · rfl
  · next s _ =>
    extract_lets e block next _ m1 _ m2 w m3
    have h3 : m3.frameCount = m.frameCount := by
      simp only [m3]
      split <;> simp
    have h2 : m2.frameCount = m.frameCount := rfl
    refine Hw.ite_frameCount rfl (Hw.ite_frameCount (by simp) (Hw.ite_frameCount (by simp [h2]) ?_))
    exact Hw.ite_frameCount rfl (by simp [h3])

@[simp] theorem updFinishAct_frameCount (m : Hw) (c : HostCmd) : (updFinishAct m c).1.frameCount = m.frameCount := by
  unfold updFinishAct
  split
  · rfl
  · simp +decide [apply_ite Prod.fst]

@[simp] theorem updAbortAct_frameCount (m : Hw) (c : HostCmd) : (updAbortAct m c).1.frameCount = m.frameCount := by
  unfold updAbortAct
  split <;> simp

@[simp] theorem updQueryAct_frameCount (m : Hw) (c : HostCmd) : (updQueryAct m c).1.frameCount = m.frameCount := by
  unfold updQueryAct
  split <;> simp

@[simp] theorem activateCheck_frameCount (revert : Bool) (m : Hw) (c : HostCmd) :
    (activateCheck revert m c).1.frameCount = m.frameCount := by
  unfold activateCheck
  split
  · rfl
  · split
    · rfl
    · simp [apply_ite Prod.fst]

@[simp] theorem Hw.activateImage_frameCount (m : Hw) (c : HostCmd) (revert : Bool) :
    (m.activateImage c revert).frameCount = m.frameCount := by
  unfold Hw.activateImage
  split <;> simp

@[simp] theorem Hw.runActivate_frameCount (m : Hw) (s code : Nat) (revert : Bool) :
    (m.runActivate s code revert).frameCount = m.frameCount := by
  unfold Hw.runActivate
  split
  · rfl
  · refine Hw.ite_frameCount rfl ?_
    split
    · simp
    · extract_lets r
      split <;> simp [r]

@[simp] theorem Hw.excuseHandover_frameCount (m : Hw) (e : Engine) :
    (m.excuseHandover e).frameCount = m.frameCount := by
  unfold Hw.excuseHandover
  split <;> simp

@[simp] theorem Hw.answerHand_frameCount (m : Hw) (h : Handover) (a : Answer) :
    (m.answerHand h a).frameCount = m.frameCount := by
  unfold Hw.answerHand
  split
  · rfl
  · split <;> simp

@[simp] theorem Hw.endHand_frameCount (m : Hw) (e : Engine) : (m.endHand e).frameCount = m.frameCount := by
  simp [Hw.endHand]

@[simp] theorem Hw.markProbation_frameCount (m : Hw) : m.markProbation.frameCount = m.frameCount := by
  unfold Hw.markProbation
  split <;> simp

@[simp] theorem Hw.showBundle_frameCount (m : Hw) : m.showBundle.frameCount = m.frameCount := by
  simp +decide [Hw.showBundle]

@[simp] theorem Hw.showProb_frameCount (m : Hw) : m.showProb.frameCount = m.frameCount := by
  unfold Hw.showProb
  split <;> simp +decide

@[simp] theorem Hw.rollback_frameCount (m : Hw) (h : Handover) (cause : Nat) :
    (m.rollback h cause).frameCount = m.frameCount := by
  simp +decide [Hw.rollback]

@[simp] theorem Hw.probEnds_frameCount (m : Hw) (e : Engine) (cause : Nat) :
    (m.probEnds e cause).frameCount = m.frameCount := by
  unfold Hw.probEnds
  split <;> simp

/-! ### Operations: the two-wire port -/

@[simp] theorem Hw.alertEnabled_frameCount (m : Hw) (before : Nat) :
    (m.alertEnabled before).frameCount = m.frameCount := by
  simp [Hw.alertEnabled]

@[simp] theorem Hw.hostControl_frameCount (m : Hw) (a act en : Nat) :
    (m.hostControl a act en).frameCount = m.frameCount := by
  simp [Hw.hostControl]

@[simp] theorem Hw.writeHostWord_frameCount (m : Hw) (a mask value : Nat) :
    (m.writeHostWord a mask value).frameCount = m.frameCount := by simp [Hw.writeHostWord]

@[simp] theorem Hw.dozeNack_frameCount (m : Hw) : m.dozeNack.frameCount = m.frameCount := by simp +decide [Hw.dozeNack]

@[simp] theorem Hw.setPointer_frameCount (m : Hw) (p : Nat) : (m.setPointer p).frameCount = m.frameCount := by
  simp [Hw.setPointer]

@[simp] theorem Hw.applyBytes_frameCount (m : Hw) (ptr : Nat) (data : List Byte) :
    (m.applyBytes ptr data).frameCount = m.frameCount := by
  simp [Hw.applyBytes]

@[simp] theorem Hw.writeData_frameCount (m : Hw) (ptr : Nat) (data : List Byte) (past : Bool) :
    (m.writeData ptr data past).frameCount = m.frameCount := by
  simp +decide [Hw.writeData]

@[simp] theorem Hw.writeTransfer_frameCount (m : Hw) (addr : Nat) (bytes : List Byte) :
    (m.writeTransfer addr bytes).frameCount = m.frameCount := by
  simp +decide [Hw.writeTransfer]

@[simp] theorem Hw.readRun_frameCount (m : Hw) (fuel ptr count : Nat) :
    (m.readRun fuel ptr count).1.frameCount = m.frameCount := by
  induction fuel generalizing m ptr count with
  | zero => rfl
  | succ fuel ih =>
    simp only [Hw.readRun]
    split
    · rfl
    · simp only [ih]
      split
      · rfl
      · exact Hw.foldl_mem_frameCount (fun f hf m => Hw.clearRead_frameCount (List.mem_filter.1 hf).1 m _) m

@[simp] theorem Hw.sendClears_frameCount (m : Hw) (frn fuel : Nat) (es : List (List Byte)) :
    (m.sendClears frn fuel es).frameCount = m.frameCount := by
  induction fuel generalizing m es with
  | zero => rfl
  | succ fuel ih => simp [Hw.sendClears, ih]

@[simp] theorem Hw.readTransfer_frameCount (m : Hw) (addr count : Nat) :
    (m.readTransfer addr count).frameCount = m.frameCount := by
  simp +decide [Hw.readTransfer]

@[simp] theorem Hw.busError_frameCount (m : Hw) (bit : Nat) (read stop : Bool) :
    (m.busError bit read stop).frameCount = m.frameCount := by
  simp +decide [Hw.busError]

/-! ### Operations: the twin link -/

@[simp] theorem Hw.noteLseq_frameCount (m : Hw) (n : Nat) : (m.noteLseq n).frameCount = m.frameCount := by
  simp [Hw.noteLseq]

@[simp] theorem Hw.takeTwm_frameCount (m : Hw) (h : TwmHead) (act : Hw → Hw)
    (hact : ∀ m, (act m).frameCount = m.frameCount) : (m.takeTwm h act).frameCount = m.frameCount :=
  Hw.ite_frameCount rfl (Hw.ite_frameCount (by simp +decide) (by simp +decide [hact]))

@[simp] theorem Hw.submitRing_frameCount (m : Hw) : m.submitRing.frameCount = m.frameCount := by
  simp +decide [Hw.submitRing]

@[simp] theorem Hw.startResync_frameCount (m : Hw) : m.startResync.frameCount = m.frameCount := by
  simp +decide [Hw.startResync]

@[simp] theorem Hw.endResync_frameCount (m : Hw) : m.endResync.frameCount = m.frameCount := by
  simp +decide [Hw.endResync]

@[simp] theorem Hw.bar_frameCount (m : Hw) (cause : Nat) : (m.bar cause).frameCount = m.frameCount := by
  simp +decide [Hw.bar]

@[simp] theorem Hw.pairMismatch_frameCount (m : Hw) : m.pairMismatch.frameCount = m.frameCount := by
  simp [Hw.pairMismatch]

@[simp] theorem Hw.serveResync_frameCount (m : Hw) (fuel : Nat) : (m.serveResync fuel).frameCount = m.frameCount := by
  induction fuel generalizing m with
  | zero => rfl
  | succ fuel ih =>
    simp only [Hw.serveResync]
    split
    · rfl
    · split
      · rfl
      · split
        · rfl
        · split
          · rfl
          · next h => exact (ih _).trans (Hw.sendTwin_frameCount h :)

@[simp] theorem Hw.claim_frameCount (m : Hw) : m.claim.frameCount = m.frameCount := by simp +decide [Hw.claim]

@[simp] theorem Hw.defer_frameCount (m : Hw) : m.defer.frameCount = m.frameCount := by simp +decide [Hw.defer]

@[simp] theorem Hw.withdrawOne_frameCount (m : Hw) (x : Append) : (m.withdrawOne x).frameCount = m.frameCount := by
  unfold Hw.withdrawOne
  extract_lets m1 m2
  have h2 : m2.frameCount = m.frameCount := by simp +decide [m2, m1]
  clear_value m2
  split
  · exact h2
  · split <;> simp [h2]

@[simp] theorem Hw.withdrawAll_frameCount (m : Hw) : m.withdrawAll.frameCount = m.frameCount := by
  unfold Hw.withdrawAll
  split <;> simp +decide

@[simp] theorem Hw.dualLead_frameCount (m : Hw) : m.dualLead.frameCount = m.frameCount := by simp +decide [Hw.dualLead]

@[simp] theorem Hw.leadAgain_frameCount (m : Hw) (mirrorWm : Nat) :
    (m.leadAgain mirrorWm).frameCount = m.frameCount := by
  simp +decide [Hw.leadAgain]

@[simp] theorem Hw.heartbeatLost_frameCount (m : Hw) : m.heartbeatLost.frameCount = m.frameCount := by
  simp +decide [Hw.heartbeatLost]

@[simp] theorem Hw.reenter_frameCount (m : Hw) : m.reenter.frameCount = m.frameCount := by simp [Hw.reenter]

@[simp] theorem Hw.promote_frameCount (m : Hw) : m.promote.frameCount = m.frameCount := by simp +decide [Hw.promote]

@[simp] theorem Hw.markMirror_frameCount (m : Hw) : m.markMirror.frameCount = m.frameCount := by
  simp +decide [Hw.markMirror]

@[simp] theorem Hw.stageMirrored_frameCount (m : Hw) (r : JRec) : (m.stageMirrored r).frameCount = m.frameCount := by
  unfold Hw.stageMirrored
  extract_lets m1 _ m2 m3 m4
  have h1 : m1.frameCount = m.frameCount := by simp +decide [m1]
  have h2 : m2.frameCount = m.frameCount := by
    simp only [m2]
    split <;> simp [h1]
  clear_value m2
  simp +decide [m4, m3, h2]

@[simp] theorem Hw.acceptTo_frameCount (m : Hw) (jsn fuel : Nat) : (m.acceptTo jsn fuel).frameCount = m.frameCount := by
  induction fuel generalizing m with
  | zero => rfl
  | succ fuel ih =>
    unfold Hw.acceptTo
    split <;> simp [ih]

@[simp] theorem Hw.settleTakeover_frameCount (m : Hw) (take : Nat) :
    (m.settleTakeover take).frameCount = m.frameCount := by
  simp [Hw.settleTakeover]

@[simp] theorem Hw.resyncRec_frameCount (m : Hw) (r : JRec) : (m.resyncRec r).frameCount = m.frameCount := by
  unfold Hw.resyncRec
  extract_lets m1 m2
  have h1 : m1.frameCount = m.frameCount := by simp [m1]
  have h2 : m2.frameCount = m.frameCount := by
    simp only [m2]
    split <;> simp [h1]
  clear_value m2
  simp [h2]

@[simp] theorem Hw.renumber_frameCount (m : Hw) : m.renumber.frameCount = m.frameCount := by simp [Hw.renumber]

/-! ### Operations: reactions to fault words -/

@[simp] theorem Hw.settleUnit_frameCount (m : Hw) (id : Nat) : (m.settleUnit id).frameCount = m.frameCount := by
  simp [Hw.settleUnit]

@[simp] theorem Hw.refuseFenced_frameCount (m : Hw) (e : Engine) : (m.refuseFenced e).frameCount = m.frameCount := by
  simp [Hw.refuseFenced]

@[simp] theorem Hw.lbFenced_frameCount (m : Hw) (id : Nat) : (m.lbFenced id).frameCount = m.frameCount := by
  simp [Hw.lbFenced]

@[simp] theorem Hw.fenceEffect_frameCount (m : Hw) (id : Nat) : (m.fenceEffect id).frameCount = m.frameCount := by
  unfold Hw.fenceEffect
  split <;> simp +decide

@[simp] theorem Hw.applyFence_frameCount (m : Hw) (id : Nat) (exit : Bool) :
    (m.applyFence id exit).frameCount = m.frameCount := by
  unfold Hw.applyFence
  split <;> simp

@[simp] theorem Hw.reacted_frameCount (m : Hw) (x : HistEntry) : (m.reacted x).frameCount = m.frameCount := by
  simp [Hw.reacted]

@[simp] theorem Hw.react_frameCount (m : Hw) (x : HistEntry) : (m.react x).frameCount = m.frameCount := by
  unfold Hw.react
  refine Hw.ite_frameCount (by simp) ?_
  split
  · split <;> simp
  · simp

@[simp] theorem Hw.coresOff_frameCount (m : Hw) (sd : Side) : (m.coresOff sd).frameCount = m.frameCount := by
  simp [Hw.coresOff]

@[simp] theorem Hw.backupDark_frameCount (m : Hw) : m.backupDark.frameCount = m.frameCount :=
  Regs.filter_frameCount m.regs (fun _ => by simp only [fieldOfKey_frn]; rfl)
    (fun _ => by simp only [fieldOfKey_wrap]; rfl)

@[simp] theorem Hw.railsDark_frameCount (m : Hw) : m.railsDark.frameCount = m.frameCount := by simp [Hw.railsDark]

@[simp] theorem Hw.unitsDark_frameCount (m : Hw) (d : Domain) : (m.unitsDark d).frameCount = m.frameCount := by
  unfold Hw.unitsDark
  split <;> simp +decide

@[simp] theorem Hw.openDomain_frameCount (m : Hw) (d : Domain) : (m.openDomain d).frameCount = m.frameCount := by
  simp [Hw.openDomain]

@[simp] theorem Hw.domainsSettle_frameCount (m : Hw) : m.domainsSettle.frameCount = m.frameCount := by
  simp [Hw.domainsSettle]

@[simp] theorem Hw.switchOff_frameCount (m : Hw) (d : Domain) : (m.switchOff d).frameCount = m.frameCount := by
  simp [Hw.switchOff]

@[simp] theorem Hw.latchEffect_frameCount (m : Hw) (l : LatchId) : (m.latchEffect l).frameCount = m.frameCount := by
  unfold Hw.latchEffect
  split <;> simp +decide

@[simp] theorem Hw.writeLatch_frameCount (m : Hw) (l : LatchId) (f : Hw → Hw)
    (hf : ∀ m, (f m).frameCount = m.frameCount) : (m.writeLatch l f).frameCount = m.frameCount := by
  unfold Hw.writeLatch
  split <;> simp [hf]

/-! ### Operations: resets -/

@[simp] theorem Hw.stopEngines_frameCount (m : Hw) (sd : Side) : (m.stopEngines sd).frameCount = m.frameCount := by
  simp [Hw.stopEngines]

@[simp] theorem Hw.dropFieldLink_frameCount (m : Hw) : m.dropFieldLink.frameCount = m.frameCount := by
  simp +decide [Hw.dropFieldLink]

@[simp] theorem Hw.resetTickets_frameCount (m : Hw) : m.resetTickets.frameCount = m.frameCount := by
  simp [Hw.resetTickets]

@[simp] theorem Hw.resetTwin_frameCount (m : Hw) : m.resetTwin.frameCount = m.frameCount := by
  simp +decide [Hw.resetTwin]

@[simp] theorem Hw.resetRailLink_frameCount (m : Hw) : m.resetRailLink.frameCount = m.frameCount := by
  simp [Hw.resetRailLink]

@[simp] theorem Hw.resetUpdate_frameCount (m : Hw) (sd : Side) (cause : Nat) :
    (m.resetUpdate sd cause).frameCount = m.frameCount := by
  unfold Hw.resetUpdate
  split <;> simp

@[simp] theorem Hw.disarm_frameCount (m : Hw) (sd : Side) (start : Bool) :
    (m.disarm sd start).frameCount = m.frameCount := by
  unfold Hw.disarm
  split <;> simp +decide

@[simp] theorem Hw.closeResets_frameCount (m : Hw) (sd : Side) : (m.closeResets sd).frameCount = m.frameCount := by
  simp [Hw.closeResets]

@[simp] theorem Hw.resetService_frameCount (m : Hw) (level : Nat) :
    (m.resetService level).frameCount = m.frameCount := by
  simp [Hw.resetService]

@[simp] theorem Hw.engTestDue_frameCount (m : Hw) : m.engTestDue.frameCount = m.frameCount := by simp [Hw.engTestDue]

@[simp] theorem Hw.fieldReset_frameCount (m : Hw) (l : Letter) (source cause : Nat) (hl : Surv.faon.keeps l = true) :
    (m.fieldReset l source cause).frameCount = m.frameCount := by
  simp +decide [Hw.fieldReset, hl]

@[simp] theorem Hw.holdField_frameCount (m : Hw) : m.holdField.frameCount = m.frameCount := by
  simp +decide [Hw.holdField]

@[simp] theorem Hw.fieldPin_frameCount (m : Hw) (low : Bool) : (m.fieldPin low).frameCount = m.frameCount := by
  simp +decide [Hw.fieldPin]

@[simp] theorem Hw.drainLost_frameCount (m : Hw) : m.drainLost.frameCount = m.frameCount := by simp [Hw.drainLost]

@[simp] theorem Hw.hostReset_frameCount (m : Hw) (l : Letter) (source cause : Nat) :
    (m.hostReset l source cause).frameCount = m.frameCount := by
  simp +decide [Hw.hostReset]

@[simp] theorem Hw.hostPin_frameCount (m : Hw) (low : Bool) : (m.hostPin low).frameCount = m.frameCount := by
  simp [Hw.hostPin]

@[simp] theorem Hw.engineBack_frameCount (m : Hw) (e : Engine) : (m.engineBack e).frameCount = m.frameCount := by
  unfold Hw.engineBack
  split <;> simp

@[simp] theorem Hw.restartDone_frameCount (m : Hw) (e : Engine) : (m.restartDone e).frameCount = m.frameCount := by
  simp [Hw.restartDone]

@[simp] theorem Hw.dropEntry_frameCount (m : Hw) (i : Fin 15) : (m.dropEntry i).frameCount = m.frameCount := by
  simp [Hw.dropEntry]

/-! ### Operations: watchdogs, check-ins and self-test -/

@[simp] theorem Hw.setWd_frameCount (m : Hw) (sd : Side) (x : Wdg) : (m.setWd sd x).frameCount = m.frameCount := by
  unfold Hw.setWd
  split <;> simp

@[simp] theorem Hw.drewFrame_frameCount (m : Hw) (sd : Side) : (m.drewFrame sd).frameCount = m.frameCount := by
  unfold Hw.drewFrame
  split <;> simp

@[simp] theorem Hw.showWdg_frameCount (m : Hw) : m.showWdg.frameCount = m.frameCount := by simp +decide [Hw.showWdg]

@[simp] theorem Hw.expire_frameCount (m : Hw) (sd : Side) (cause : Nat) :
    (m.expire sd cause).frameCount = m.frameCount := by
  unfold Hw.expire
  split <;> simp +decide

@[simp] theorem Hw.serviceWrite_frameCount (m : Hw) (sd : Side) (key : Nat) :
    (m.serviceWrite sd key).frameCount = m.frameCount := by
  unfold Hw.serviceWrite
  cases sd <;> simp +decide

@[simp] theorem Hw.judge_frameCount (m : Hw) (seen : Nat) (e : Engine) :
    (m.judge seen e).frameCount = m.frameCount := by
  unfold Hw.judge
  refine Hw.ite_frameCount (by simp +decide) ?_
  split <;> simp +decide

@[simp] theorem Hw.toSlot_frameCount (m : Hw) (n : Nat) : (m.toSlot n).frameCount = m.frameCount := by simp [Hw.toSlot]

@[simp] theorem Hw.openWindow_frameCount (m : Hw) (sd : Side) : (m.openWindow sd).frameCount = m.frameCount := by
  unfold Hw.openWindow
  split <;> simp +decide

@[simp] theorem Hw.nextPeriod_frameCount (m : Hw) (sd : Side) : (m.nextPeriod sd).frameCount = m.frameCount := by
  unfold Hw.nextPeriod
  split <;> simp

@[simp] theorem Hw.closeWindow_frameCount (m : Hw) (sd : Side) : (m.closeWindow sd).frameCount = m.frameCount := by
  simp [Hw.closeWindow]

@[simp] theorem Hw.armField_frameCount (m : Hw) : m.armField.frameCount = m.frameCount := by simp +decide [Hw.armField]

@[simp] theorem Hw.wdgTick_frameCount (m : Hw) : m.wdgTick.frameCount = m.frameCount := by simp [Hw.wdgTick]

@[simp] theorem Hw.checkin_frameCount (m : Hw) (e : Engine) : (m.checkin e).frameCount = m.frameCount := by
  unfold Hw.checkin
  split <;> simp +decide

@[simp] theorem Hw.hostFirst_frameCount (m : Hw) (e : Engine) : (m.hostFirst e).frameCount = m.frameCount := by
  unfold Hw.hostFirst
  split <;> simp +decide

@[simp] theorem Hw.fencePerm_frameCount (m : Hw) (id : Nat) : (m.fencePerm id).frameCount = m.frameCount := by
  simp [Hw.fencePerm]

@[simp] theorem Hw.holdHCore_frameCount (m : Hw) : m.holdHCore.frameCount = m.frameCount := by
  simp +decide [Hw.holdHCore]

@[simp] theorem Hw.macroLost_frameCount (m : Hw) (sd : Side) (id : Nat) :
    (m.macroLost sd id).frameCount = m.frameCount := by
  unfold Hw.macroLost
  split <;> simp +decide

@[simp] theorem Hw.showBist_frameCount (m : Hw) (sd : Side) (id : Nat) (repaired failed : Bool) :
    (m.showBist sd id repaired failed).frameCount = m.frameCount := by
  unfold Hw.showBist
  split <;> simp +decide

@[simp] theorem Hw.restPass_frameCount (m : Hw) : m.restPass.frameCount = m.frameCount := by simp [Hw.restPass]

@[simp] theorem Hw.testDue_frameCount (m : Hw) (sd : Side) (id : Nat) :
    (m.testDue sd id).frameCount = m.frameCount := by
  unfold Hw.testDue
  split <;> simp

@[simp] theorem Hw.testDone_frameCount (m : Hw) (sd : Side) (id : Nat) :
    (m.testDone sd id).frameCount = m.frameCount := by
  unfold Hw.testDone
  split <;> simp

@[simp] theorem Hw.setRepairs_frameCount (m : Hw) (sd : Side) (l : List Repair) :
    (m.setRepairs sd l).frameCount = m.frameCount := by
  unfold Hw.setRepairs
  split <;> simp

@[simp] theorem Hw.selftest_frameCount (m : Hw) (sd : Side) (id : Nat) (defects : List BitDefect) (spareBad : Bool) :
    (m.selftest sd id defects spareBad).frameCount = m.frameCount := by
  simp [Hw.selftest]

@[simp] theorem Hw.addFuses_frameCount (m : Hw) (sd : Side) (l : List Nat) :
    (m.addFuses sd l).frameCount = m.frameCount := by
  unfold Hw.addFuses
  split <;> simp +decide

@[simp] theorem Hw.burn_frameCount (m : Hw) (sd : Side) (bad : List Nat) :
    (m.burn sd bad).frameCount = m.frameCount := by
  simp [Hw.burn]

/-! ### Operations: modes -/

@[simp] theorem Hw.powerDomains_frameCount (m : Hw) (ds : List Domain) (b : Bool) :
    (m.powerDomains ds b).frameCount = m.frameCount := by
  simp [Hw.powerDomains]

@[simp] theorem Hw.busLost_frameCount (m : Hw) : m.busLost.frameCount = m.frameCount := by simp +decide [Hw.busLost]

@[simp] theorem Hw.reapply_frameCount (m : Hw) (sd : Side) (bad : Option Nat) :
    (m.reapply sd bad).frameCount = m.frameCount := by
  unfold Hw.reapply
  split <;> simp

@[simp] theorem Hw.recordNow_frameCount (m : Hw) (k : RecKind) (src : Nat) (payload : List Byte) :
    (m.recordNow k src payload).frameCount = m.frameCount := by
  simp [Hw.recordNow]

@[simp] theorem Hw.commitNow_frameCount (m : Hw) : m.commitNow.frameCount = m.frameCount := by simp [Hw.commitNow]

@[simp] theorem Hw.writePowerDown_frameCount (m : Hw) (cause staged : Nat) :
    (m.writePowerDown cause staged).frameCount = m.frameCount := by
  simp [Hw.writePowerDown]

@[simp] theorem Hw.stageKeepalive_frameCount (m : Hw) : m.stageKeepalive.frameCount = m.frameCount := by
  simp [Hw.stageKeepalive]

@[simp] theorem Hw.voidCommands_frameCount (m : Hw) : m.voidCommands.frameCount = m.frameCount := by
  simp [Hw.voidCommands]

@[simp] theorem Hw.voidLeft_frameCount (m : Hw) : m.voidLeft.frameCount = m.frameCount := by simp [Hw.voidLeft]

@[simp] theorem Hw.twinAsleep_frameCount (m : Hw) : m.twinAsleep.frameCount = m.frameCount := by
  simp +decide [Hw.twinAsleep]

@[simp] theorem Hw.adcOff_frameCount (m : Hw) : m.adcOff.frameCount = m.frameCount := by simp +decide [Hw.adcOff]

@[simp] theorem Hw.sequencerQuiet_frameCount (m : Hw) : m.sequencerQuiet.frameCount = m.frameCount := by
  simp [Hw.sequencerQuiet]

@[simp] theorem Hw.enterKeepalive_frameCount (m : Hw) : m.enterKeepalive.frameCount = m.frameCount := by
  simp +decide [Hw.enterKeepalive]

@[simp] theorem Hw.resumeEngines_frameCount (m : Hw) : m.resumeEngines.frameCount = m.frameCount := by
  simp [Hw.resumeEngines]

@[simp] theorem Hw.linksTrain_frameCount (m : Hw) : m.linksTrain.frameCount = m.frameCount := by
  simp +decide [Hw.linksTrain]

@[simp] theorem Hw.wakeMode_frameCount (m : Hw) (ms : Nat) : (m.wakeMode ms).frameCount = m.frameCount := by
  simp +decide [Hw.wakeMode]

@[simp] theorem Hw.wakeWork_frameCount (m : Hw) : m.wakeWork.frameCount = m.frameCount := by simp [Hw.wakeWork]

@[simp] theorem Hw.wake_frameCount (m : Hw) (ms : Nat) (repairParity : Option Nat) :
    (m.wake ms repairParity).frameCount = m.frameCount := by
  simp +decide [Hw.wake]

@[simp] theorem Hw.shipStopped_frameCount (m : Hw) : m.shipStopped.frameCount = m.frameCount := by
  simp +decide [Hw.shipStopped]

@[simp] theorem Hw.enterShip_frameCount (m : Hw) : m.enterShip.frameCount = m.frameCount := by
  simp +decide [Hw.enterShip]

/-! ### Operations: losses and starts -/

@[simp] theorem Hw.nextAfterLoss_frameCount (m : Hw) : m.nextAfterLoss.frameCount = m.frameCount := by
  simp +decide [Hw.nextAfterLoss]

@[simp] theorem Hw.latchesUp_frameCount (m : Hw) : m.latchesUp.frameCount = m.frameCount := by
  simp +decide [Hw.latchesUp]

@[simp] theorem Hw.faonUp_frameCount (m : Hw) : m.faonUp.frameCount = m.frameCount := by simp [Hw.faonUp]

@[simp] theorem Hw.kaRead_frameCount (m : Hw) (pack : Bool) : (m.kaRead pack).frameCount = m.frameCount := by
  unfold Hw.kaRead
  extract_lets word
  clear_value word
  cases word <;> simp +decide

@[simp] theorem Hw.rtcAdvance_frameCount (m : Hw) (off : Nat) : (m.rtcAdvance off).frameCount = m.frameCount := by
  simp +decide [Hw.rtcAdvance]

@[simp] theorem Hw.faonGood_frameCount (m : Hw) (x : StartInfo) : (m.faonGood x).frameCount = m.frameCount := by
  simp +decide [Hw.faonGood]

@[simp] theorem Hw.applySettings_frameCount (m : Hw) (img : NorImage) :
    (m.applySettings img).frameCount = m.frameCount := by
  simp [Hw.applySettings]

@[simp] theorem Hw.applyLatches_frameCount (m : Hw) : m.applyLatches.frameCount = m.frameCount := by
  simp [Hw.applyLatches]

@[simp] theorem Hw.applyConfig_frameCount (m : Hw) : m.applyConfig.frameCount = m.frameCount := by
  unfold Hw.applyConfig
  extract_lets m1 m2 m3
  have h2 : m2.frameCount = m.frameCount := by
    simp only [m2, m1]
    split <;> simp
  simp [m3, h2]

@[simp] theorem Hw.showDigest_frameCount (m : Hw) (d : Nat) : (m.showDigest d).frameCount = m.frameCount := by
  refine Hw.foldl_mem_frameCount (fun i hi m => Hw.wr_frameCount (Field.counts_of_addr_lt ?_ ?_) m _) m
  · have hi := List.mem_range.1 hi
    simp only [Reg.CFG_DIGEST_DIGEST]
    omega
  · simp [Reg.CFG_DIGEST_DIGEST]

@[simp] theorem Hw.takeCopy_frameCount (m : Hw) (copy : Nat) : (m.takeCopy copy).frameCount = m.frameCount := by
  unfold Hw.takeCopy
  split <;> simp +decide

@[simp] theorem Hw.copyBad_frameCount (m : Hw) (copy why : Nat) : (m.copyBad copy why).frameCount = m.frameCount := by
  simp [Hw.copyBad]

@[simp] theorem Hw.defaultConfig_frameCount (m : Hw) : m.defaultConfig.frameCount = m.frameCount := by
  simp +decide [Hw.defaultConfig]

@[simp] theorem Hw.selectConfig_frameCount (m : Hw) : m.selectConfig.frameCount = m.frameCount := by
  unfold Hw.selectConfig
  extract_lets c r1 other m1 r2
  refine Hw.ite_frameCount ((Hw.takeCopy_frameCount ..).trans (Hw.ite_frameCount ?_ rfl)) (by simp [m1])
  exact Hw.wr_frameCount (by split <;> decide) m 1

@[simp] theorem Hw.failedSlot_frameCount (m : Hw) (e : Engine) (x : Nat) :
    (m.failedSlot e x).frameCount = m.frameCount := by
  unfold Hw.failedSlot
  split <;> simp

@[simp] theorem Hw.noSlot_frameCount (m : Hw) (e : Engine) : (m.noSlot e).frameCount = m.frameCount := by
  unfold Hw.noSlot
  split <;> simp +decide

@[simp] theorem Hw.loadSlot_frameCount (m : Hw) (e : Engine) (x : StartInfo) :
    (m.loadSlot e x).frameCount = m.frameCount := by
  simp [Hw.loadSlot]

@[simp] theorem Hw.loadSlots_frameCount (m : Hw) (x : StartInfo) : (m.loadSlots x).frameCount = m.frameCount := by
  simp [Hw.loadSlots]

@[simp] theorem Hw.rebuildNumbers_frameCount (m : Hw) : m.rebuildNumbers.frameCount = m.frameCount := by
  simp +decide [Hw.rebuildNumbers]

@[simp] theorem Hw.startInfo_frameCount (m : Hw) (kind ms : Nat) : (m.startInfo kind ms).frameCount = m.frameCount := by
  simp +decide [Hw.startInfo]

@[simp] theorem Hw.startEngines_frameCount (m : Hw) : m.startEngines.frameCount = m.frameCount := by
  simp [Hw.startEngines]

@[simp] theorem Hw.frost_frameCount (m : Hw) : m.frost.frameCount = m.frameCount := by simp [Hw.frost]

@[simp] theorem Hw.coldWork_frameCount (m : Hw) : m.coldWork.frameCount = m.frameCount := by simp [Hw.coldWork]

@[simp] theorem Hw.coldStart_frameCount (m : Hw) (x : StartInfo) : (m.coldStart x).frameCount = m.frameCount := by
  simp [Hw.coldStart]

@[simp] theorem Hw.rereadConfig_frameCount (m : Hw) : m.rereadConfig.frameCount = m.frameCount := by
  unfold Hw.rereadConfig
  split <;> simp +decide

@[simp] theorem Hw.takeNote_frameCount (m : Hw) : m.takeNote.frameCount = m.frameCount := by
  unfold Hw.takeNote
  split <;> simp

@[simp] theorem Hw.resubmit_frameCount (m : Hw) : m.resubmit.frameCount = m.frameCount := by simp [Hw.resubmit]

@[simp] theorem Hw.warmWork_frameCount (m : Hw) : m.warmWork.frameCount = m.frameCount := by simp [Hw.warmWork]

@[simp] theorem Hw.tellReset_frameCount (m : Hw) : m.tellReset.frameCount = m.frameCount := by simp [Hw.tellReset]

@[simp] theorem Hw.warmStart_frameCount (m : Hw) (x : StartInfo) : (m.warmStart x).frameCount = m.frameCount := by
  simp +decide [Hw.warmStart]

@[simp] theorem Hw.pgFall_frameCount (m : Hw) (d : Domain) (hd : d ≠ .fAon) :
    (m.pgFall d).frameCount = m.frameCount := by
  unfold Hw.pgFall
  split <;> simp

@[simp] theorem Hw.stagingLost_frameCount (m : Hw) : m.stagingLost.frameCount = m.frameCount := by simp [Hw.stagingLost]

@[simp] theorem Hw.domainBack_frameCount (m : Hw) (d : Domain) : (m.domainBack d).frameCount = m.frameCount := by
  unfold Hw.domainBack
  split <;> simp +decide

@[simp] theorem Hw.switchOn_frameCount (m : Hw) (d : Domain) : (m.switchOn d).frameCount = m.frameCount := by
  simp [Hw.switchOn]

/-! ### Operations: the frame tick -/

@[simp] theorem Hw.rtcTick_frameCount (m : Hw) (len : Nat) : (m.rtcTick len).frameCount = m.frameCount := by
  simp +decide [Hw.rtcTick]

@[simp] theorem Hw.carryRun_frameCount (m : Hw) : m.carryRun.frameCount = m.frameCount := by simp [Hw.carryRun]

@[simp] theorem Hw.lockTick_frameCount (m : Hw) (src : SyncSrc) : (m.lockTick src).frameCount = m.frameCount := by
  simp [Hw.lockTick]

@[simp] theorem Hw.tracksTick_frameCount (m : Hw) : m.tracksTick.frameCount = m.frameCount := by simp [Hw.tracksTick]

@[simp] theorem Hw.syncTick_frameCount (m : Hw) : m.syncTick.frameCount = m.frameCount := by
  unfold Hw.syncTick
  extract_lets m1 _ m2 setLen
  have h2 : m2.frameCount = m.frameCount := by simp [m2, m1]
  clear_value m2
  split <;> simp [setLen, h2]

@[simp] theorem Hw.planTick_frameCount (m : Hw) : m.planTick.frameCount = m.frameCount := by simp +decide [Hw.planTick]

@[simp] theorem Hw.padTick_frameCount (m : Hw) : m.padTick.frameCount = m.frameCount := by simp [Hw.padTick]

@[simp] theorem Hw.budgetOf_frameCount (m : Hw) (n busy len : Nat) :
    (m.budgetOf n busy len).frameCount = m.frameCount := by
  simp [Hw.budgetOf]

@[simp] theorem Hw.busyTick_frameCount (m : Hw) (f : Frame) : (m.busyTick f).frameCount = m.frameCount := by
  simp [Hw.busyTick]

@[simp] theorem Hw.shipTick_frameCount (m : Hw) (f : Frame) : (m.shipTick f).frameCount = m.frameCount := by
  simp +decide [Hw.shipTick]

@[simp] theorem Hw.modeCounts_frameCount (m : Hw) : m.modeCounts.frameCount = m.frameCount := by simp [Hw.modeCounts]

@[simp] theorem Hw.snapshot_frameCount (m : Hw) : m.snapshot.frameCount = m.frameCount := by simp [Hw.snapshot]

@[simp] theorem Hw.ageTick_frameCount (m : Hw) : m.ageTick.frameCount = m.frameCount := by simp +decide [Hw.ageTick]

@[simp] theorem Hw.linkTick_frameCount (m : Hw) : m.linkTick.frameCount = m.frameCount := by simp [Hw.linkTick]

@[simp] theorem Hw.rangeTick_frameCount (m : Hw) : m.rangeTick.frameCount = m.frameCount := by simp [Hw.rangeTick]

@[simp] theorem Hw.fgTick_frameCount (m : Hw) : m.fgTick.frameCount = m.frameCount := by
  unfold Hw.fgTick
  split <;> simp

@[simp] theorem Hw.adcRuns_frameCount (m : Hw) : m.adcRuns.frameCount = m.frameCount := by simp [Hw.adcRuns]

@[simp] theorem Hw.scanTick_frameCount (m : Hw) (l : List ScanCode) : (m.scanTick l).frameCount = m.frameCount := by
  simp [Hw.scanTick]

@[simp] theorem Hw.measureTick_frameCount (m : Hw) (f : Frame) : (m.measureTick f).frameCount = m.frameCount := by
  unfold Hw.measureTick
  extract_lets m1 m2 ages m3 _ m4 m5
  have h1 : m1.frameCount = m.frameCount := by simp [m1]
  have h2 : m2.frameCount = m.frameCount := by simp [m2, h1]
  have h3 : m3.frameCount = m.frameCount := by simp +decide [m3, h2]
  have h4 : m4.frameCount = m.frameCount := by simp [m4, h3]
  have h5 : m5.frameCount = m.frameCount := by
    simp only [m5]
    split <;> simp [h4]
  clear_value m3 m5
  exact Hw.ite_frameCount h3 (by simp [h5])

@[simp] theorem Hw.trimPhase_frameCount (m : Hw) (sum i : Nat) (n : Fin 4) (move : Bool) :
    (m.trimPhase sum i n move).frameCount = m.frameCount := by
  simp [Hw.trimPhase]

@[simp] theorem Hw.balanceTick_frameCount (m : Hw) (f : Frame) : (m.balanceTick f).frameCount = m.frameCount := by
  simp [Hw.balanceTick]

@[simp] theorem Hw.batfetTick_frameCount (m : Hw) : m.batfetTick.frameCount = m.frameCount := by simp [Hw.batfetTick]

@[simp] theorem Hw.quietTick_frameCount (m : Hw) : m.quietTick.frameCount = m.frameCount := by simp [Hw.quietTick]

@[simp] theorem Hw.enterService_frameCount (m : Hw) : m.enterService.frameCount = m.frameCount := by
  simp +decide [Hw.enterService]

@[simp] theorem Hw.leaveService_frameCount (m : Hw) (cause : Nat) :
    (m.leaveService cause).frameCount = m.frameCount := by
  simp +decide [Hw.leaveService]

@[simp] theorem Hw.leaveSource_frameCount (m : Hw) : m.leaveSource.frameCount = m.frameCount := by simp [Hw.leaveSource]

@[simp] theorem Hw.evaluate_frameCount (m : Hw) : m.evaluate.frameCount = m.frameCount := by
  unfold Hw.evaluate
  extract_lets md
  iterate 3 refine Hw.ite_frameCount (by simp) ?_
  refine Hw.ite_frameCount ?_ ?_
  · split <;> simp +decide
  · iterate 3 refine Hw.ite_frameCount (by simp) ?_
    rfl

@[simp] theorem Hw.holdRailsTick_frameCount (m : Hw) : m.holdRailsTick.frameCount = m.frameCount := by
  simp +decide [Hw.holdRailsTick]

@[simp] theorem Hw.directTick_frameCount (m : Hw) : m.directTick.frameCount = m.frameCount := by simp [Hw.directTick]

@[simp] theorem Hw.superviseTick_frameCount (m : Hw) (f : Frame) : (m.superviseTick f).frameCount = m.frameCount := by
  simp [Hw.superviseTick]

@[simp] theorem Hw.asleepTick_frameCount (m : Hw) (f : Frame) : (m.asleepTick f).frameCount = m.frameCount := by
  simp [Hw.asleepTick]

@[simp] theorem Hw.markTick_frameCount (m : Hw) : m.markTick.frameCount = m.frameCount := by simp [Hw.markTick]

@[simp] theorem Hw.freezePack_frameCount (m : Hw) (f : Frame) : (m.freezePack f).frameCount = m.frameCount := by
  simp [Hw.freezePack]

@[simp] theorem Hw.hardTick_frameCount (m : Hw) (f : Frame) : (m.hardTick f).frameCount = m.frameCount := by
  simp [Hw.hardTick]

@[simp] theorem Hw.workTick_frameCount (m : Hw) (f : Frame) : (m.workTick f).frameCount = m.frameCount := by
  simp [Hw.workTick]

/-! ### Commands: the outcome of a command -/

/-- Where the outcome is a next state, it has the frame count of `s`. -/
def KeepsFrameCount (s : State) (o : Host.Outcome State Fault Refusal) : Prop :=
  ∀ t, o = .next t → t.hw.frameCount = s.hw.frameCount

@[simp] theorem keepsFrameCount_next {s t : State} :
    KeepsFrameCount s (.next t) ↔ t.hw.frameCount = s.hw.frameCount := by
  simp [KeepsFrameCount]

theorem keepsFrameCount_effect {s : State} {f : Hw → Hw} (h : ∀ m, (f m).frameCount = m.frameCount) :
    KeepsFrameCount s (effect s f) :=
  keepsFrameCount_next.2 (h s.hw)

/-! ### Commands: sidebands, privilege and latches -/

theorem execLatchParity_frameCount (l : LatchId) (live : Nat) (s : State) :
    KeepsFrameCount s (execLatchParity l live s) := keepsFrameCount_effect fun m => by simp

theorem execTsbFalertStateLevel_frameCount (high : Bool) (s : State) :
    KeepsFrameCount s (execTsbFalertStateLevel high s) := keepsFrameCount_effect fun m => by simp

theorem execSourceLossCode_frameCount (s : State) : KeepsFrameCount s (execSourceLossCode s) :=
  keepsFrameCount_effect fun m => by simp

theorem execSourceAttachWakeCode_frameCount (s : State) : KeepsFrameCount s (execSourceAttachWakeCode s) :=
  keepsFrameCount_effect fun m => by simp

theorem execCableDetachCode_frameCount (s : State) : KeepsFrameCount s (execCableDetachCode s) :=
  keepsFrameCount_effect fun m => by simp

theorem execMailboxWakeCode_frameCount (s : State) : KeepsFrameCount s (execMailboxWakeCode s) :=
  keepsFrameCount_effect fun m => by simp

theorem execHostAlertCode_frameCount (s : State) : KeepsFrameCount s (execHostAlertCode s) :=
  keepsFrameCount_effect fun m => by simp

theorem execFieldAlertCode_frameCount (s : State) : KeepsFrameCount s (execFieldAlertCode s) :=
  keepsFrameCount_effect fun m => by simp

theorem execSidebandFault_frameCount (pulse : SidePulse) (s : State) : KeepsFrameCount s (execSidebandFault pulse s) :=
  keepsFrameCount_effect fun m => by simp

theorem execTsbQuietChannelFault_frameCount (s : State) : KeepsFrameCount s (execTsbQuietChannelFault s) :=
  keepsFrameCount_effect fun m => by simp +decide

/-! ### Commands: field phases and the BATFET -/

theorem execPhaseShedChange_frameCount (itot : Nat) (s : State) : KeepsFrameCount s (execPhaseShedChange itot s) :=
  keepsFrameCount_effect fun m => by simp

theorem execPhaseImbalance_frameCount (n : Fin 4) (s : State) : KeepsFrameCount s (execPhaseImbalance n s) :=
  keepsFrameCount_effect fun m => by simp

theorem execPhaseSoftStart_frameCount (vout us : Nat) (s : State) : KeepsFrameCount s (execPhaseSoftStart vout us s) :=
  keepsFrameCount_effect fun m => by simp +decide

theorem execPhaseSsShort_frameCount (test : RampTest) (s : State) : KeepsFrameCount s (execPhaseSsShort test s) :=
  keepsFrameCount_effect fun m => by simp

theorem execPhaseSsRetry_frameCount (s : State) : KeepsFrameCount s (execPhaseSsRetry s) := by
  refine keepsFrameCount_effect fun m => ?_
  split <;> simp +decide

theorem execPhaseOcp_frameCount (phases : Fin 16) (load : Overload) (s : State) :
    KeepsFrameCount s (execPhaseOcp phases load s) := keepsFrameCount_effect fun m => by simp

theorem execPhaseOv_frameCount (mv : Nat) (s : State) : KeepsFrameCount s (execPhaseOv mv s) :=
  keepsFrameCount_effect fun m => by simp

theorem execPhaseThermal_frameCount (n : Fin 4) (temp : Int) (s : State) :
    KeepsFrameCount s (execPhaseThermal n temp s) := keepsFrameCount_effect fun m => by simp

theorem execPhaseGateUv_frameCount (n : Fin 4) (supply : Nat) (s : State) :
    KeepsFrameCount s (execPhaseGateUv n supply s) := keepsFrameCount_effect fun m => by simp

theorem execPhaseVtbCollapse_frameCount (mv : Nat) (s : State) : KeepsFrameCount s (execPhaseVtbCollapse mv s) :=
  keepsFrameCount_effect fun m => by simp +decide

theorem execPhClrLatch_frameCount (s : State) : KeepsFrameCount s (execPhClrLatch s) :=
  keepsFrameCount_effect fun m => by simp

theorem execBatfetPdiss_frameCount (mw : Nat) (s : State) : KeepsFrameCount s (execBatfetPdiss mw s) :=
  keepsFrameCount_effect fun m => by simp

theorem execBatfetOcp_frameCount (t ma : Nat) (s : State) : KeepsFrameCount s (execBatfetOcp t ma s) :=
  keepsFrameCount_effect fun m => by simp +decide

theorem execBatfetReclose_frameCount (s : State) : KeepsFrameCount s (execBatfetReclose s) := by
  refine keepsFrameCount_effect fun m => ?_
  split <;> simp

theorem execBatfetRetryCountClear_frameCount (s : State) : KeepsFrameCount s (execBatfetRetryCountClear s) :=
  keepsFrameCount_effect fun m => by simp

theorem execBatfetThermal_frameCount (temp : Int) (s : State) : KeepsFrameCount s (execBatfetThermal temp s) := by
  refine keepsFrameCount_effect fun m => ?_
  simp only
  split
  · simp +decide
  · split <;> simp +decide

theorem execVsysUv_frameCount (mv : Nat) (s : State) : KeepsFrameCount s (execVsysUv mv s) :=
  keepsFrameCount_effect fun m => by simp

theorem execRevBatFloor_frameCount (mv : Nat) (s : State) : KeepsFrameCount s (execRevBatFloor mv s) :=
  keepsFrameCount_effect fun m => by simp +decide

/-! ### Commands: intake and isolated transfer -/

theorem execSourceQualify_frameCount (src : PowerSrc) (mv : Nat) (s : State) :
    KeepsFrameCount s (execSourceQualify src mv s) := keepsFrameCount_effect fun m => by simp

theorem execIntakeSourceLoss_frameCount (src : PowerSrc) (mv mvOther : Nat) (s : State) :
    KeepsFrameCount s (execIntakeSourceLoss src mv mvOther s) := keepsFrameCount_effect fun m => by simp

theorem execPrioritySourceTakeover_frameCount (mv : Nat) (s : State) :
    KeepsFrameCount s (execPrioritySourceTakeover mv s) := keepsFrameCount_effect fun m => by simp

theorem execReverseBlock_frameCount (s : State) : KeepsFrameCount s (execReverseBlock s) :=
  keepsFrameCount_effect fun m => by simp +decide

theorem execReverseReconduct_frameCount (s : State) : KeepsFrameCount s (execReverseReconduct s) :=
  keepsFrameCount_effect fun m => by simp

theorem execIntakeLimitUpdate_frameCount (s : State) : KeepsFrameCount s (execIntakeLimitUpdate s) :=
  keepsFrameCount_effect fun m => by simp

theorem execIntakeStartupLimitExpiry_frameCount (s : State) : KeepsFrameCount s (execIntakeStartupLimitExpiry s) :=
  keepsFrameCount_effect fun m => by simp

theorem execIntakePdiss_frameCount (watts : Nat) (s : State) : KeepsFrameCount s (execIntakePdiss watts s) :=
  keepsFrameCount_effect fun m => by simp

theorem execVSourceRefresh_frameCount (v : IntakeVolts) (iin pdiss : Nat) (temp xpow : Int) (aux : Bool) (s : State) :
    KeepsFrameCount s (execVSourceRefresh v iin pdiss temp xpow aux s) := by
  refine keepsFrameCount_effect fun m => ?_
  extract_lets m1 m2 act _ m3 m4 m5 m6 m7
  have h2 : m2.frameCount = m.frameCount := by simp +decide [m2, m1]
  have h3 : m3.frameCount = m.frameCount := h2
  have h5 : m5.frameCount = m.frameCount := by simp +decide [m5, m4, h3]
  have h7 : m7.frameCount = m.frameCount := by simp [m7, m6, h5]
  exact Hw.ite_frameCount (by simp [h7]) h7

theorem execCbufFloorReached_frameCount (s : State) : KeepsFrameCount s (execCbufFloorReached s) :=
  keepsFrameCount_effect fun m => by simp +decide

theorem execCbufMeasure_frameCount (us ma dmv : Nat) (steady : Bool) (s : State) :
    KeepsFrameCount s (execCbufMeasure us ma dmv steady s) := keepsFrameCount_effect fun m => by simp +decide

theorem execCbufRampStart_frameCount (mv : Nat) (s : State) : KeepsFrameCount s (execCbufRampStart mv s) :=
  keepsFrameCount_effect fun m => by simp +decide

theorem execCbufRampEnd_frameCount (mv : Nat) (s : State) : KeepsFrameCount s (execCbufRampEnd mv s) :=
  keepsFrameCount_effect fun m => by simp +decide

theorem execHaonPowerUp_frameCount (inputs : Fin 8) (s : State) : KeepsFrameCount s (execHaonPowerUp inputs s) :=
  keepsFrameCount_effect fun m => by simp +decide

theorem execHostConfigTimeout_frameCount (s : State) : KeepsFrameCount s (execHostConfigTimeout s) :=
  keepsFrameCount_effect fun m => by simp

theorem execDeadBatteryStart_frameCount (advert : Nat) (s : State) :
    KeepsFrameCount s (execDeadBatteryStart advert s) := keepsFrameCount_effect fun m => by simp

theorem execXferQuietLate_frameCount (ns : Nat) (s : State) : KeepsFrameCount s (execXferQuietLate ns s) :=
  keepsFrameCount_effect fun m => by simp

theorem execXferDirectionChange_frameCount (dir : Fin 3) (reached : Fin 7) (s : State) :
    KeepsFrameCount s (execXferDirectionChange dir reached s) := keepsFrameCount_effect fun m => by simp

theorem execTsbQuietChange_frameCount (high : Bool) (s : State) : KeepsFrameCount s (execTsbQuietChange high s) := by
  refine keepsFrameCount_effect fun m => Hw.ite_frameCount ?_ rfl
  extract_lets m1 _ m2
  have h2 : m2.frameCount = m.frameCount := by simp +decide [m2, m1]
  clear_value m2
  split
  · simp [h2]
  · exact h2

theorem execXferDirTimeout_frameCount (s : State) : KeepsFrameCount s (execXferDirTimeout s) :=
  keepsFrameCount_effect fun m => by simp +decide

theorem execIntakeThermal_frameCount (temp : Int) (s : State) : KeepsFrameCount s (execIntakeThermal temp s) :=
  keepsFrameCount_effect fun m => by simp

theorem execCbufOv_frameCount (mv : Nat) (s : State) : KeepsFrameCount s (execCbufOv mv s) :=
  keepsFrameCount_effect fun m => by simp

theorem execXferOcp_frameCount (s : State) : KeepsFrameCount s (execXferOcp s) :=
  keepsFrameCount_effect fun m => by simp

theorem execXferRetry_frameCount (s : State) : KeepsFrameCount s (execXferRetry s) := by
  refine keepsFrameCount_effect fun m => ?_
  split <;> simp +decide

theorem execXferVtbOv_frameCount (mv : Nat) (s : State) : KeepsFrameCount s (execXferVtbOv mv s) :=
  keepsFrameCount_effect fun m => by simp +decide

theorem execXferThermal_frameCount (temp : Int) (s : State) : KeepsFrameCount s (execXferThermal temp s) := by
  refine keepsFrameCount_effect fun m => ?_
  simp only
  split
  · simp +decide
  · split <;> simp +decide

theorem execXferStartFail_frameCount (mv : Nat) (s : State) : KeepsFrameCount s (execXferStartFail mv s) :=
  keepsFrameCount_effect fun m => by simp

theorem execXferClrLatch_frameCount (s : State) : KeepsFrameCount s (execXferClrLatch s) :=
  keepsFrameCount_effect fun m => by simp

/-! ### Commands: charging -/

theorem execPackIndicatorSettled_frameCount (seen : Settled) (s : State) :
    KeepsFrameCount s (execPackIndicatorSettled seen s) := by
  refine keepsFrameCount_effect fun m => ?_
  iterate 2 refine Hw.ite_frameCount (by simp +decide) ?_
  split <;> simp +decide

theorem execProbeVoltageReached_frameCount (s : State) : KeepsFrameCount s (execProbeVoltageReached s) :=
  keepsFrameCount_effect fun m => by simp

theorem execSinkTestEnd_frameCount (mv : Nat) (s : State) : KeepsFrameCount s (execSinkTestEnd mv s) :=
  keepsFrameCount_effect fun m => by simp

theorem execProbeShort_frameCount (mv : Nat) (s : State) : KeepsFrameCount s (execProbeShort mv s) := by
  refine keepsFrameCount_effect fun m => ?_
  split <;> simp

theorem execAbsentRedetect_frameCount (changed : Nat) (s : State) : KeepsFrameCount s (execAbsentRedetect changed s) :=
  keepsFrameCount_effect fun m => by simp

theorem execPackNegotiate_frameCount (ohm vbat : Nat) (s : State) :
    KeepsFrameCount s (execPackNegotiate ohm vbat s) := by
  refine keepsFrameCount_effect fun m => Hw.ite_frameCount rfl ?_
  split
  · rfl
  · extract_lets m1 _ m2 r b
    have h1 : m1.frameCount = m.frameCount := by simp +decide [m1]
    have h2 : m2.frameCount = m.frameCount := by simp [m2, h1]
    clear_value r m2
    refine Hw.ite_frameCount (by simp [h2]) (Hw.ite_frameCount ?_ ?_)
    · split
      · simp [h2]
      · refine Hw.ite_frameCount (by simp [h2]) ?_
        split <;> simp [h2]
    · split <;> simp [h2]

theorem execSmartpackReadSequence_frameCount (r : Option SbsRead) (err : Nat) (s : State) :
    KeepsFrameCount s (execSmartpackReadSequence r err s) := by
  refine keepsFrameCount_effect fun m => ?_
  split
  · split <;> simp
  · simp

theorem execSmartpackRetry_frameCount (r : Option SbsRead) (_err : Nat) (s : State) :
    KeepsFrameCount s (execSmartpackRetry r _err s) := by
  refine keepsFrameCount_effect fun m => ?_
  split
  · split <;> simp
  · simp

theorem execChargeSustainedExpiry_frameCount (s : State) : KeepsFrameCount s (execChargeSustainedExpiry s) := by
  refine keepsFrameCount_effect fun m => ?_
  simp only
  split
  · next h => exact Hw.timerFault_frameCount h
  · simp

theorem execChargeTermination_frameCount (s : State) : KeepsFrameCount s (execChargeTermination s) := by
  refine keepsFrameCount_effect fun m => ?_
  split
  · next h => exact Hw.timerFault_frameCount h
  · simp

theorem execSafetyTimerExpiry_frameCount (s : State) : KeepsFrameCount s (execSafetyTimerExpiry s) :=
  keepsFrameCount_effect fun _ => Hw.option_getD_frameCount (fun _ h => Hw.timerFault_frameCount h) rfl

theorem execSourceAbsenceTimer_frameCount (s : State) : KeepsFrameCount s (execSourceAbsenceTimer s) :=
  keepsFrameCount_effect fun m => by simp

theorem execTempHwStop_frameCount (i : Fin 4) (s : State) : KeepsFrameCount s (execTempHwStop i s) :=
  keepsFrameCount_effect fun m => by simp +decide

theorem execTempHwStopRelease_frameCount (i : Fin 4) (s : State) : KeepsFrameCount s (execTempHwStopRelease i s) :=
  keepsFrameCount_effect fun m => by simp +decide

theorem execTsOpen_frameCount (i : Fin 4) (s : State) : KeepsFrameCount s (execTsOpen i s) :=
  keepsFrameCount_effect fun m => by simp

theorem execTsShort_frameCount (i : Fin 4) (s : State) : KeepsFrameCount s (execTsShort i s) :=
  keepsFrameCount_effect fun m => by simp

theorem execBatRemoved_frameCount (s : State) : KeepsFrameCount s (execBatRemoved s) := by
  refine keepsFrameCount_effect fun m => ?_
  split <;> simp

theorem execBatShort_frameCount (mv : Nat) (s : State) : KeepsFrameCount s (execBatShort mv s) :=
  keepsFrameCount_effect fun m => by simp

theorem execStatLatchRead_frameCount (s : State) : KeepsFrameCount s (execStatLatchRead s) :=
  keepsFrameCount_effect fun m => by simp +decide

theorem execLampEdge_frameCount (ms : Nat) (s : State) : KeepsFrameCount s (execLampEdge ms s) :=
  keepsFrameCount_effect fun m => by simp +decide

theorem execChgSuspend_frameCount (suspend : Bool) (s : State) : KeepsFrameCount s (execChgSuspend suspend s) :=
  keepsFrameCount_effect fun m => by simp +decide

theorem execChgIHost_frameCount (limit : Fin 512) (s : State) : KeepsFrameCount s (execChgIHost limit s) :=
  keepsFrameCount_effect fun m => by simp +decide

theorem execChgClrFault_frameCount (s : State) : KeepsFrameCount s (execChgClrFault s) :=
  keepsFrameCount_effect fun m => by simp

theorem execChgEnableRestore_frameCount (s : State) : KeepsFrameCount s (execChgEnableRestore s) :=
  keepsFrameCount_effect fun m => by simp

/-! ### Commands: instrument rails, rail link and keep-alive rail -/

theorem execPolSoftStart_frameCount (n : Fin 3) (at_ : RampStep) (s : State) :
    KeepsFrameCount s (execPolSoftStart n at_ s) := keepsFrameCount_effect fun m => by simp +decide

theorem execPolSsShort_frameCount (test : RailTest) (s : State) : KeepsFrameCount s (execPolSsShort test s) :=
  keepsFrameCount_effect fun m => by simp

theorem execPolRetry_frameCount (n : Fin 3) (vout : Nat) (s : State) : KeepsFrameCount s (execPolRetry n vout s) := by
  refine keepsFrameCount_effect fun m => ?_
  split <;> simp

theorem execPolOcp_frameCount (n : Fin 3) (load : Overload) (s : State) : KeepsFrameCount s (execPolOcp n load s) :=
  keepsFrameCount_effect fun m => by simp

theorem execPolOv_frameCount (n : Fin 3) (mv : Nat) (s : State) : KeepsFrameCount s (execPolOv n mv s) :=
  keepsFrameCount_effect fun m => by simp

theorem execPolUvlo_frameCount (vsys : Nat) (s : State) : KeepsFrameCount s (execPolUvlo vsys s) :=
  keepsFrameCount_effect fun m => by simp

theorem execPolUvloRestart_frameCount (s : State) : KeepsFrameCount s (execPolUvloRestart s) :=
  keepsFrameCount_effect fun m => by simp

theorem execPolFrzFloor_frameCount (n : Fin 3) (s : State) : KeepsFrameCount s (execPolFrzFloor n s) :=
  keepsFrameCount_effect fun m => by simp +decide

theorem execPolHoldLimit_frameCount (n : Fin 3) (fold : Bool) (mv : Nat) (s : State) :
    KeepsFrameCount s (execPolHoldLimit n fold mv s) := keepsFrameCount_effect fun m => by simp

theorem execRailClrLatch_frameCount (s : State) : KeepsFrameCount s (execRailClrLatch s) :=
  keepsFrameCount_effect fun m => by simp

theorem execQrLimit_frameCount (n : Fin 2) (dropout : Bool) (s : State) : KeepsFrameCount s (execQrLimit n dropout s) :=
  keepsFrameCount_effect fun m => by simp

theorem execQrThermal_frameCount (n : Fin 2) (temp : Int) (s : State) : KeepsFrameCount s (execQrThermal n temp s) :=
  keepsFrameCount_effect fun m => by simp

theorem execVselChange_frameCount (rail : Fin 3) (index : Fin 4) (s : State) :
    KeepsFrameCount s (execVselChange rail index s) := keepsFrameCount_effect fun m => by simp

theorem execRlNop_frameCount (tag : Fin 16) (s : State) : KeepsFrameCount s (execRlNop tag s) :=
  keepsFrameCount_effect fun m => by simp

theorem execRlHello_frameCount (tag : Fin 16) (speed : Fin 4) (keep : Bool) (version : Fin 16) (s : State) :
    KeepsFrameCount s (execRlHello tag speed keep version s) := keepsFrameCount_effect fun m => by simp +decide

theorem execRlSetV_frameCount (tag : Fin 16) (rail : Fin 8) (slew : Fin 4) (code : Fin 2048) (mv : Nat) (s : State) :
    KeepsFrameCount s (execRlSetV tag rail slew code mv s) := keepsFrameCount_effect fun m => by simp

theorem execRlRelease_frameCount (tag : Fin 16) (rail : Fin 8) (mv : Nat) (s : State) :
    KeepsFrameCount s (execRlRelease tag rail mv s) := by
  refine keepsFrameCount_effect fun m => Hw.transact_frameCount _ _ _ _ fun m =>
    Hw.inSession_frameCount _ _ _ _ fun m => ?_
  refine Hw.ite_frameCount (by simp) (Hw.ite_frameCount ?_ (Hw.ite_frameCount (by simp) (by simp)))
  iterate 2 refine Hw.ite_frameCount (by simp) ?_
  simp

theorem execRlEnable_frameCount (tag : Fin 16) (rail : Fin 8) (on : Bool) (mv : Nat) (s : State) :
    KeepsFrameCount s (execRlEnable tag rail on mv s) := keepsFrameCount_effect fun m => by simp

theorem execRlTableWrite_frameCount (tag : Fin 16) (rail index : Fin 4) (code : Fin 2048) (mv : Nat) (s : State) :
    KeepsFrameCount s (execRlTableWrite tag rail index code mv s) := by
  refine keepsFrameCount_effect fun m => Hw.transact_frameCount _ _ _ _ fun m =>
    Hw.inSession_frameCount _ _ _ _ fun m => ?_
  extract_lets n f m1
  have h1 : m1.frameCount = m.frameCount := Hw.wr_frameCount (by simp only [f]; split <;> simp) m code
  clear_value m1
  iterate 3 refine Hw.ite_frameCount (by simp) ?_
  simp [h1]

theorem execRlPlan_frameCount (tag : Fin 16) (set : Bool) (plan : Fin 4) (s : State) :
    KeepsFrameCount s (execRlPlan tag set plan s) := by
  refine keepsFrameCount_effect fun m => Hw.transact_frameCount _ _ _ _ fun m =>
    Hw.inSession_frameCount _ _ _ _ fun m => ?_
  simp +decide

theorem execRlAptA_frameCount (tag : Fin 16) (frn7 : Fin 128) (len : Fin 512) (s : State) :
    KeepsFrameCount s (execRlAptA tag frn7 len s) := keepsFrameCount_effect fun m => by simp

theorem execRlAptB_frameCount (tag : Fin 16) (slot cycle : Fin 256) (s : State) :
    KeepsFrameCount s (execRlAptB tag slot cycle s) := by
  refine keepsFrameCount_effect fun m => Hw.transact_frameCount _ _ _ _ fun m =>
    Hw.inSession_frameCount _ _ _ _ fun m => ?_
  split <;> simp

theorem execRlRead_frameCount (tag : Fin 16) (read : RailReading) (s : State) :
    KeepsFrameCount s (execRlRead tag read s) := keepsFrameCount_effect fun m => by simp

theorem execRlResend_frameCount (tag : Fin 16) (s : State) : KeepsFrameCount s (execRlResend tag s) :=
  keepsFrameCount_effect fun m => by simp

theorem execRlBadOpcode_frameCount (tag : Fin 16) (range : Bool) (s : State) :
    KeepsFrameCount s (execRlBadOpcode tag range s) := keepsFrameCount_effect fun m => by simp

theorem execRlCrcError_frameCount (tag : Fin 16) (s : State) : KeepsFrameCount s (execRlCrcError tag s) :=
  keepsFrameCount_effect fun m => by simp +decide

theorem execRlFrameAbandon_frameCount (clock : Nat) (s : State) : KeepsFrameCount s (execRlFrameAbandon clock s) :=
  keepsFrameCount_effect fun m => by simp +decide

theorem execRailArrived_frameCount (rail : Fin 5) (mv : Nat) (s : State) :
    KeepsFrameCount s (execRailArrived rail mv s) := keepsFrameCount_effect fun m => by simp +decide

theorem execKaEnable_frameCount (s : State) : KeepsFrameCount s (execKaEnable s) :=
  keepsFrameCount_effect fun m => by simp +decide

theorem execKaGap_frameCount (t ms mv : Nat) (s : State) : KeepsFrameCount s (execKaGap t ms mv s) :=
  keepsFrameCount_effect fun m => by simp +decide

theorem execKaNodeRecover_frameCount (t us mv : Nat) (s : State) : KeepsFrameCount s (execKaNodeRecover t us mv s) := by
  refine keepsFrameCount_effect fun m => Hw.ite_frameCount rfl (Hw.ite_frameCount (by simp) ?_)
  extract_lets w _ m1 m2 short _ m3
  have h1 : m1.frameCount = m.frameCount := by simp +decide [m1, w]
  have h2 : m2.frameCount = m.frameCount := by simp +decide [m2, h1]
  clear_value m2
  split
  · simp +decide [short, h2]
  · simp +decide [m3, h2]

theorem execKaLimit_frameCount (current : Nat) (s : State) : KeepsFrameCount s (execKaLimit current s) :=
  keepsFrameCount_effect fun m => by simp

theorem execKaThermalFold_frameCount (temp : Int) (s : State) : KeepsFrameCount s (execKaThermalFold temp s) :=
  keepsFrameCount_effect fun m => by simp

theorem execKaStandbyHandover_frameCount (s : State) : KeepsFrameCount s (execKaStandbyHandover s) :=
  keepsFrameCount_effect fun m => by simp

theorem execKaOffsetRemoval_frameCount (s : State) : KeepsFrameCount s (execKaOffsetRemoval s) :=
  keepsFrameCount_effect fun m => by simp +decide

/-! ### Commands: the cable port -/

theorem execCcAttachSnk_frameCount (cc2 : Bool) (rp : Fin 4) (s : State) :
    KeepsFrameCount s (execCcAttachSnk cc2 rp s) := keepsFrameCount_effect fun m => by simp +decide

theorem execCcAttachSrc_frameCount (cc2 ra : Bool) (s : State) : KeepsFrameCount s (execCcAttachSrc cc2 ra s) :=
  keepsFrameCount_effect fun m => by simp +decide

theorem execCcDetach_frameCount (s : State) : KeepsFrameCount s (execCcDetach s) :=
  keepsFrameCount_effect fun m => by simp

theorem execAccessoryAttach_frameCount (kind : Accessory) (s : State) :
    KeepsFrameCount s (execAccessoryAttach kind s) := by
  refine keepsFrameCount_effect fun m => ?_
  split
  · simp +decide
  · split <;> simp +decide

theorem execDrpToggle_frameCount (s : State) : KeepsFrameCount s (execDrpToggle s) :=
  keepsFrameCount_effect fun m => by simp

theorem execSourceCapabilities_frameCount (pdos : List Pdo) (partner : Partner) (s : State) :
    KeepsFrameCount s (execSourceCapabilities pdos partner s) := by
  refine keepsFrameCount_effect fun m => Hw.pdIn_frameCount _ _ fun m => Hw.ite_frameCount rfl ?_
  extract_lets m1 c m2 cfg m3 vmax
  have h1 : m1.frameCount = m.frameCount := by simp +decide [m1]
  have h2 : m2.frameCount = m.frameCount := by simp [m2, h1]
  have h3 : m3.frameCount = m.frameCount := by simp +decide [m3, h2]
  clear_value m2 m3
  refine Hw.ite_frameCount h2 ?_
  split
  · exact h3
  · simp +decide [h3]

theorem execPdAccept_frameCount (s : State) : KeepsFrameCount s (execPdAccept s) := by
  refine keepsFrameCount_effect fun m => Hw.pdIn_frameCount _ _ fun m => Hw.ite_frameCount (by simp) ?_
  split
  · rfl
  · simp

theorem execPdPsRdy_frameCount (s : State) : KeepsFrameCount s (execPdPsRdy s) := by
  refine keepsFrameCount_effect fun m => Hw.pdIn_frameCount _ _ fun m => ?_
  iterate 3 refine Hw.ite_frameCount (by simp +decide) ?_
  split
  · rfl
  · simp

theorem execPpsRequestRepeat_frameCount (s : State) : KeepsFrameCount s (execPpsRequestRepeat s) :=
  keepsFrameCount_effect fun m => by simp

theorem execEprKeepalive_frameCount (acked : Bool) (s : State) : KeepsFrameCount s (execEprKeepalive acked s) :=
  keepsFrameCount_effect fun m => by simp

theorem execSourceBringup_frameCount (s : State) : KeepsFrameCount s (execSourceBringup s) :=
  keepsFrameCount_effect fun m => by simp

theorem execSourceSwitchClose_frameCount (vcbuf : Nat) (seen : VbusSeen) (s : State) :
    KeepsFrameCount s (execSourceSwitchClose vcbuf seen s) := keepsFrameCount_effect fun m => by simp +decide

theorem execSourceBringupTimeout_frameCount (vbus : Nat) (s : State) :
    KeepsFrameCount s (execSourceBringupTimeout vbus s) := keepsFrameCount_effect fun m => by simp

theorem execSinkRequest_frameCount (ask : SinkAsk) (mv curr : Nat) (s : State) :
    KeepsFrameCount s (execSinkRequest ask mv curr s) := keepsFrameCount_effect fun m => by simp +decide

theorem execSourceTransitionStart_frameCount (s : State) : KeepsFrameCount s (execSourceTransitionStart s) := by
  refine keepsFrameCount_effect fun m => ?_
  split <;> simp

theorem execSourcePsRdy_frameCount (vbus : Nat) (s : State) : KeepsFrameCount s (execSourcePsRdy vbus s) := by
  refine keepsFrameCount_effect fun m => ?_
  split <;> simp

theorem execSrcOcp_frameCount (ma : Nat) (s : State) : KeepsFrameCount s (execSrcOcp ma s) :=
  keepsFrameCount_effect fun m => by simp +decide

theorem execPpsSourceTimeout_frameCount (s : State) : KeepsFrameCount s (execPpsSourceTimeout s) :=
  keepsFrameCount_effect fun m => by simp

theorem execSourceRoleEnd_frameCount (cause : RoleEnd) (vbus : Nat) (slow : Bool) (s : State) :
    KeepsFrameCount s (execSourceRoleEnd cause vbus slow s) := keepsFrameCount_effect fun m => by simp

theorem execCblExitSrc_frameCount (s : State) : KeepsFrameCount s (execCblExitSrc s) :=
  keepsFrameCount_effect fun m => by simp

theorem execDcinEndsSource_frameCount (s : State) : KeepsFrameCount s (execDcinEndsSource s) :=
  keepsFrameCount_effect fun m => by simp

theorem execVconnOcp_frameCount (ma : Nat) (s : State) : KeepsFrameCount s (execVconnOcp ma s) :=
  keepsFrameCount_effect fun m => by simp +decide

theorem execVconnSwap_frameCount (received : Bool) (s : State) : KeepsFrameCount s (execVconnSwap received s) :=
  keepsFrameCount_effect fun m => by simp +decide

theorem execCableDiscoverIdentity_frameCount (answer : Option (Fin 4 × Fin 4 × Bool)) (s : State) :
    KeepsFrameCount s (execCableDiscoverIdentity answer s) := by
  refine keepsFrameCount_effect fun m => ?_
  split <;> simp +decide

theorem execPrSwapReceived_frameCount (s : State) : KeepsFrameCount s (execPrSwapReceived s) :=
  keepsFrameCount_effect fun m => by simp

theorem execCblPrSwap_frameCount (s : State) : KeepsFrameCount s (execCblPrSwap s) :=
  keepsFrameCount_effect fun m => by simp

theorem execDrSwap_frameCount (s : State) : KeepsFrameCount s (execDrSwap s) :=
  keepsFrameCount_effect fun m => by simp +decide

theorem execFrsSignalDetect_frameCount (s : State) : KeepsFrameCount s (execFrsSignalDetect s) :=
  keepsFrameCount_effect fun m => by simp +decide

theorem execFrSwapReceived_frameCount (s : State) : KeepsFrameCount s (execFrSwapReceived s) :=
  keepsFrameCount_effect fun m => by simp +decide

theorem execFrsTimeout_frameCount (s : State) : KeepsFrameCount s (execFrsTimeout s) :=
  keepsFrameCount_effect fun m => by simp

theorem execSoftReset_frameCount (received : Bool) (s : State) : KeepsFrameCount s (execSoftReset received s) :=
  keepsFrameCount_effect fun m => by simp

theorem execPdResponseTimeout_frameCount (wait : PdWait) (s : State) :
    KeepsFrameCount s (execPdResponseTimeout wait s) := by
  refine keepsFrameCount_effect fun m => ?_
  split <;> simp

theorem execPdNoResponse_frameCount (s : State) : KeepsFrameCount s (execPdNoResponse s) :=
  keepsFrameCount_effect fun m => by simp

theorem execHardReset_frameCount (received : Bool) (s : State) : KeepsFrameCount s (execHardReset received s) :=
  keepsFrameCount_effect fun m => by simp

theorem execCablePulledInTransition_frameCount (s : State) : KeepsFrameCount s (execCablePulledInTransition s) :=
  keepsFrameCount_effect fun m => by simp

theorem execFrameShareEnter_frameCount (dir partnerTx partnerRx ack : Bool) (s : State) :
    KeepsFrameCount s (execFrameShareEnter dir partnerTx partnerRx ack s) :=
  keepsFrameCount_effect fun m => by simp +decide

theorem execCblFsEnter_frameCount (s : State) : KeepsFrameCount s (execCblFsEnter s) :=
  keepsFrameCount_effect fun m => by simp

theorem execCblFsExit_frameCount (s : State) : KeepsFrameCount s (execCblFsExit s) :=
  keepsFrameCount_effect fun m => by simp

theorem execHRstNSourceTimeout_frameCount (vbus : Nat) (s : State) :
    KeepsFrameCount s (execHRstNSourceTimeout vbus s) := keepsFrameCount_effect fun m => by simp

theorem execCcOvp_frameCount (pads : Fin 16) (s : State) : KeepsFrameCount s (execCcOvp pads s) :=
  keepsFrameCount_effect fun m => by simp +decide

theorem execErrorRecoveryExit_frameCount (s : State) : KeepsFrameCount s (execErrorRecoveryExit s) :=
  keepsFrameCount_effect fun m => by simp +decide

theorem execFieldSleepCode_frameCount (s : State) : KeepsFrameCount s (execFieldSleepCode s) :=
  keepsFrameCount_effect fun m => by simp

/-! ### Commands: the journal -/

theorem execCholdMeasure_frameCount (us current : Nat) (s : State) :
    KeepsFrameCount s (execCholdMeasure us current s) := keepsFrameCount_effect fun m => by simp +decide

theorem execPageClose_frameCount (s : State) : KeepsFrameCount s (execPageClose s) :=
  keepsFrameCount_effect fun m => by simp

theorem execPageCommit_frameCount (s : State) : KeepsFrameCount s (execPageCommit s) :=
  keepsFrameCount_effect fun m => by simp

theorem execNandProgFail_frameCount (s : State) : KeepsFrameCount s (execNandProgFail s) :=
  keepsFrameCount_effect fun m => by simp

theorem execNandEraseDone_frameCount (block : Fin 4096) (ok : Bool) (s : State) :
    KeepsFrameCount s (execNandEraseDone block ok s) := by
  refine keepsFrameCount_effect fun m => ?_
  split
  · simp +decide
  · split <;> simp +decide

theorem execNandEccRead_frameCount (code : CodewordAt) (corrections : Nat) (s : State) :
    KeepsFrameCount s (execNandEccRead code corrections s) := by
  refine keepsFrameCount_effect fun m => ?_
  split <;> simp +decide

theorem execKeepaliveFlush_frameCount (s : State) : KeepsFrameCount s (execKeepaliveFlush s) :=
  keepsFrameCount_effect fun m => by simp

theorem execNandScan_frameCount (torn : Nat) (s : State) : KeepsFrameCount s (execNandScan torn s) := by
  refine keepsFrameCount_effect fun m => ?_
  simp only
  split
  · rfl
  · split <;> simp +decide

theorem execJournalFull_frameCount (s : State) : KeepsFrameCount s (execJournalFull s) :=
  keepsFrameCount_effect fun m => by simp +decide

theorem execJournalFullExit_frameCount (s : State) : KeepsFrameCount s (execJournalFullExit s) :=
  keepsFrameCount_effect fun m => by simp +decide

theorem execJrSummary_frameCount (x : SecondMeans) (s : State) : KeepsFrameCount s (execJrSummary x s) :=
  keepsFrameCount_effect fun m => by simp

theorem execRtcOscFail_frameCount (s : State) : KeepsFrameCount s (execRtcOscFail s) :=
  keepsFrameCount_effect fun m => by simp

theorem execRtcBkpLow_frameCount (mv : Nat) (s : State) : KeepsFrameCount s (execRtcBkpLow mv s) := by
  refine keepsFrameCount_effect fun m => ?_
  simp only
  split
  · split <;> simp +decide
  · simp +decide

theorem execRtcRateCorrection_frameCount (err : Int) (s : State) : KeepsFrameCount s (execRtcRateCorrection err s) :=
  keepsFrameCount_effect fun m => by simp +decide

/-! ### Commands: measurement -/

theorem execSequenceEntryDue_frameCount (e : Fin 16) (x : Samples) (s : State) :
    KeepsFrameCount s (execSequenceEntryDue e x s) := by
  refine keepsFrameCount_effect fun m => ?_
  split
  · rfl
  · extract_lets i tag early late m0 w _ m1
    have h1 : m1.frameCount = m.frameCount := by simp [m1, w]
    clear_value m1
    refine Hw.ite_frameCount rfl (Hw.ite_frameCount (by simp [h1]) ?_)
    split
    · rfl
    · next h =>
      have hissued := (Hw.issue_frameCount h).trans h1
      simp only at hissued
      simp [hissued]

theorem execInjectedConversionDone_frameCount (tkt : Fin 512) (x : Samples) (s : State) :
    KeepsFrameCount s (execInjectedConversionDone tkt x s) := by
  refine keepsFrameCount_effect fun m => ?_
  split <;> simp

theorem execSliceRotation_frameCount (s : State) : KeepsFrameCount s (execSliceRotation s) := by
  refine keepsFrameCount_effect fun m => ?_
  simp only
  split
  · rfl
  · split <;> simp +decide

theorem execSpareCalibrationDone_frameCount (c : CalRun) (s : State) :
    KeepsFrameCount s (execSpareCalibrationDone c s) := keepsFrameCount_effect fun m => by simp

theorem execAdcSliceFault_frameCount (slice : Fin 5) (timeout : Bool) (tkt : Option (Fin 512)) (s : State) :
    KeepsFrameCount s (execAdcSliceFault slice timeout tkt s) := by
  refine keepsFrameCount_effect fun m => ?_
  simp only
  split <;> simp

theorem execAdcClrFence_frameCount (s : State) : KeepsFrameCount s (execAdcClrFence s) :=
  keepsFrameCount_effect fun m => by simp

theorem execForegroundCalStart_frameCount (tctl : Int) (s : State) :
    KeepsFrameCount s (execForegroundCalStart tctl s) := keepsFrameCount_effect fun m => by simp

theorem execForegroundCalDone_frameCount (tctl : Int) (refmon : Nat) (consts : List (Int × Int)) (s : State) :
    KeepsFrameCount s (execForegroundCalDone tctl refmon consts s) := keepsFrameCount_effect fun m => by simp +decide

theorem execRefSettled_frameCount (s : State) : KeepsFrameCount s (execRefSettled s) :=
  keepsFrameCount_effect fun m => by simp +decide

theorem execRefMon_frameCount (ppm : Int) (s : State) : KeepsFrameCount s (execRefMon ppm s) :=
  keepsFrameCount_effect fun m => by simp

theorem execRefoutLimit_frameCount (current : Nat) (s : State) : KeepsFrameCount s (execRefoutLimit current s) :=
  keepsFrameCount_effect fun m => by simp

theorem execAdcOvr_frameCount (slice : Fin 5) (tag : Fin 48) (high : Bool) (t : Nat) (s : State) :
    KeepsFrameCount s (execAdcOvr slice tag high t s) := keepsFrameCount_effect fun m => by simp

theorem execCalDue_frameCount (s : State) : KeepsFrameCount s (execCalDue s) :=
  keepsFrameCount_effect fun m => by simp +decide

theorem execAdcInject_frameCount (s : Fin 8) (st : State) : KeepsFrameCount st (execAdcInject s st) := by
  refine keepsFrameCount_effect fun m => ?_
  split
  · rfl
  · refine Hw.ite_frameCount rfl ?_
    split
    · simp
    · iterate 2 refine Hw.ite_frameCount (by simp) ?_
      split
      · rfl
      · next h => simpa using Hw.issue_frameCount h

theorem execRefchkRun_frameCount (s : Fin 8) (mean tctl : Int) (st : State) :
    KeepsFrameCount st (execRefchkRun s mean tctl st) :=
  keepsFrameCount_effect fun m => m.runCmd_frameCount _ _ _ fun m c => refchkRun_frameCount mean tctl m c

theorem execCalStage_frameCount (s : Fin 8) (st : State) : KeepsFrameCount st (execCalStage s st) :=
  keepsFrameCount_effect fun m => m.runCmd_frameCount _ _ _ calStage_frameCount

theorem execCalCommit_frameCount (s : Fin 8) (readsBack : Bool) (st : State) :
    KeepsFrameCount st (execCalCommit s readsBack st) :=
  keepsFrameCount_effect fun m => m.runCmd_frameCount _ _ _ calCommit_frameCount

/-! ### Commands: the fault collector -/

theorem execFaultWordCollect_frameCount (s : State) : KeepsFrameCount s (execFaultWordCollect s) :=
  keepsFrameCount_effect fun m => by simp

theorem execEscTrackerExpiry_frameCount (s : State) : KeepsFrameCount s (execEscTrackerExpiry s) :=
  keepsFrameCount_effect fun m => by simp

theorem execRecoveryWindowClear_frameCount (id : Fin 64) (s : State) :
    KeepsFrameCount s (execRecoveryWindowClear id s) := by
  refine keepsFrameCount_effect fun m => ?_
  split <;> simp

theorem execFltHistClr_frameCount (s : State) : KeepsFrameCount s (execFltHistClr s) :=
  keepsFrameCount_effect fun m => by simp

/-! ### Commands: changes of the twin role -/

theorem execSealBuild_frameCount (status : Nat) (s : State) : KeepsFrameCount s (execSealBuild status s) :=
  keepsFrameCount_effect fun m => by simp

theorem execTwinResign_frameCount (cause : ResignCause) (s : State) : KeepsFrameCount s (execTwinResign cause s) :=
  keepsFrameCount_effect fun m => by simp

theorem execTwnCtlResign_frameCount (s : State) : KeepsFrameCount s (execTwnCtlResign s) :=
  keepsFrameCount_effect fun m => by simp

theorem execBatRemoval_frameCount (t : Nat) (seen : Tripped) (s : State) :
    KeepsFrameCount s (execBatRemoval t seen s) := keepsFrameCount_effect fun m => by simp

theorem execTwnCtlEnrol_frameCount (s : State) : KeepsFrameCount s (execTwnCtlEnrol s) :=
  keepsFrameCount_effect fun m => by simp

theorem execTwnCtlFork_frameCount (s : State) : KeepsFrameCount s (execTwnCtlFork s) :=
  keepsFrameCount_effect fun m => by simp

/-! ### Commands: loop-backs and fault injection -/

theorem execLbStart_frameCount (side : Side) (s : State) : KeepsFrameCount s (execLbStart side s) :=
  keepsFrameCount_effect fun m => by simp

theorem execLbRunEnd_frameCount (side : Side) (back : List (Option Word)) (run : RunCount) (value : Int) (s : State) :
    KeepsFrameCount s (execLbRunEnd side back run value s) := keepsFrameCount_effect fun m => by simp

theorem execLbTimeout_frameCount (side : Side) (s : State) : KeepsFrameCount s (execLbTimeout side s) :=
  keepsFrameCount_effect fun m => by simp

theorem execFiArm_frameCount (s : State) : KeepsFrameCount s (execFiArm s) := keepsFrameCount_effect fun m => by simp

theorem execFiInject_frameCount (s : State) : KeepsFrameCount s (execFiInject s) := by
  refine keepsFrameCount_effect fun m => Hw.ite_frameCount ?_ rfl
  split
  · next h => simp +decide [Hw.fiMake_frameCount h]
  · rfl

/-! ### Commands: register writes and reads that clear -/

theorem execFenceLift_frameCount (id : Fin 64) (s : State) : KeepsFrameCount s (execFenceLift id s) := by
  refine keepsFrameCount_effect fun m => ?_
  split <;> simp

theorem execFltClrPerm_frameCount (s : State) : KeepsFrameCount s (execFltClrPerm s) :=
  keepsFrameCount_effect fun m => by simp

/-! ### Commands: the frame sequencer -/

theorem execSourceEvent_frameCount (src : SyncSrc) (t : Nat) (s : State) :
    KeepsFrameCount s (execSourceEvent src t s) := keepsFrameCount_effect fun m => by simp

theorem execSyncSourceLost_frameCount (s : State) : KeepsFrameCount s (execSyncSourceLost s) :=
  keepsFrameCount_effect fun m => by simp

theorem execHoldoverExpiry_frameCount (s : State) : KeepsFrameCount s (execHoldoverExpiry s) := by
  refine keepsFrameCount_effect fun m => ?_
  split
  · split <;> simp
  · simp

theorem execSourcePriorityChange_frameCount (s : State) : KeepsFrameCount s (execSourcePriorityChange s) := by
  refine keepsFrameCount_effect fun m => ?_
  simp only
  split <;> simp

theorem execPlanPadChange_frameCount (pads : Fin 4) (s : State) : KeepsFrameCount s (execPlanPadChange pads s) :=
  keepsFrameCount_effect fun m => by simp

theorem execPreFreeze_frameCount (slot : Fin 256) (a : Admit) (s : State) :
    KeepsFrameCount s (execPreFreeze slot a s) := keepsFrameCount_effect fun m => by simp

theorem execPreFreezeSlot0Decision_frameCount (a : Admit) (s : State) :
    KeepsFrameCount s (execPreFreezeSlot0Decision a s) := keepsFrameCount_effect fun m => by simp

theorem execFreezeSlotBoundary_frameCount (slot : Fin 256) (late : Fin 16) (lateRails : Fin 8) (ns : Nat) (s : State) :
    KeepsFrameCount s (execFreezeSlotBoundary slot late lateRails ns s) := keepsFrameCount_effect fun m => by simp

theorem execFreezeRunEnd_frameCount (slot : Fin 256) (s : State) : KeepsFrameCount s (execFreezeRunEnd slot s) :=
  keepsFrameCount_effect fun m => by simp

theorem execApertureRise_frameCount (t : Nat) (a : Admit) (s : State) : KeepsFrameCount s (execApertureRise t a s) :=
  keepsFrameCount_effect fun m => by simp

theorem execApertureFall_frameCount (t : Nat) (s : State) : KeepsFrameCount s (execApertureFall t s) :=
  keepsFrameCount_effect fun m => by simp

theorem execApertureLimitExpiry_frameCount (t : Nat) (s : State) : KeepsFrameCount s (execApertureLimitExpiry t s) :=
  keepsFrameCount_effect fun m => by simp

theorem execApertureRearm_frameCount (s : State) : KeepsFrameCount s (execApertureRearm s) :=
  keepsFrameCount_effect fun m => by simp

theorem execScheduledApertureStart_frameCount (t : Nat) (a : Admit) (s : State) :
    KeepsFrameCount s (execScheduledApertureStart t a s) := by
  refine keepsFrameCount_effect fun m => ?_
  extract_lets m1 gone refused m2 _ m3 m4 _
  have h1 : m1.frameCount = m.frameCount := by simp [m1]
  have hgone : ∀ m, (gone m).frameCount = m.frameCount := fun _ => rfl
  have h2 : m2.frameCount = m.frameCount := (hgone m1).trans h1
  have h3 : m3.frameCount = m.frameCount := by simp +decide [m3, h1]
  have h4 : m4.frameCount = m.frameCount := by simp [m4, h3]
  clear_value gone m1 m2 m3 m4
  split
  · exact h1
  · extract_lets start here due from_ ahead m5
    have h5 : m5.frameCount = m.frameCount := by simp [m5, h2]
    refine Hw.ite_frameCount ?_ (Hw.ite_frameCount ?_ h1)
    · exact Hw.ite_frameCount (by simp [h2])
        (Hw.ite_frameCount (Hw.ite_frameCount (by simp [h5]) (by simp [h5])) (by simp [h2]))
    refine Hw.ite_frameCount (by simp [hgone, h1]) (Hw.ite_frameCount h3 ?_)
    split
    · simp [h4]
    · simp [refused, hgone, h3]

theorem execQreqRequest_frameCount (t : Nat) (a : Admit) (s : State) : KeepsFrameCount s (execQreqRequest t a s) :=
  keepsFrameCount_effect fun m => by simp

theorem execQreqRelease_frameCount (t : Nat) (s : State) : KeepsFrameCount s (execQreqRelease t s) :=
  keepsFrameCount_effect fun m => by simp

theorem execDriverHoldCut_frameCount (t : Nat) (s : State) : KeepsFrameCount s (execDriverHoldCut t s) :=
  keepsFrameCount_effect fun m => by simp

theorem execDriverHoldBreakEnd_frameCount (t : Nat) (a : Admit) (s : State) :
    KeepsFrameCount s (execDriverHoldBreakEnd t a s) := by
  refine keepsFrameCount_effect fun m => Hw.ite_frameCount ?_ rfl
  extract_lets m1 _ m2 slot plan m3 us
  have h2 : m2.frameCount = m.frameCount := by simp [m2, m1]
  have h3 : m3.frameCount = m.frameCount := by simp +decide [m3, h2]
  refine Hw.ite_frameCount ?_ (by simp [h2])
  split <;> simp [h3]

theorem execFreezeEndVbatLow_frameCount (t : Nat) (s : State) : KeepsFrameCount s (execFreezeEndVbatLow t s) :=
  keepsFrameCount_effect fun m => by simp

theorem execSourceLoadFreezeEnd_frameCount (t : Nat) (s : State) : KeepsFrameCount s (execSourceLoadFreezeEnd t s) :=
  keepsFrameCount_effect fun m => by simp

theorem execRefusalRunEnd_frameCount (s : State) : KeepsFrameCount s (execRefusalRunEnd s) :=
  keepsFrameCount_effect fun m => by simp +decide

/-! ### Commands: commits -/

theorem execDurableCommit_frameCount (strm : Fin 8) (s : State) : KeepsFrameCount s (execDurableCommit strm s) :=
  keepsFrameCount_effect fun m => by simp

theorem execJournalAppend_frameCount (s : State) : KeepsFrameCount s (execJournalAppend s) :=
  keepsFrameCount_effect fun m => by simp

theorem execHoldupAllowanceUpdate_frameCount (vchold : Nat) (s : State) :
    KeepsFrameCount s (execHoldupAllowanceUpdate vchold s) := keepsFrameCount_effect fun m => by simp +decide

/-! ### Commands: tickets -/

theorem execTicketIssue_frameCount (owner : Engine) (stream : Fin 64) (chan unit : Fin 256) (dur idem crit : Bool)
    (s : State) : KeepsFrameCount s (execTicketIssue owner stream chan unit dur idem crit s) :=
  keepsFrameCount_effect fun m => by simp

theorem execTableFull_frameCount (s : State) : KeepsFrameCount s (execTableFull s) := by
  refine keepsFrameCount_effect fun m => ?_
  split <;> simp

theorem execTicketRetire_frameCount (num : Fin 512) (s : State) : KeepsFrameCount s (execTicketRetire num s) :=
  keepsFrameCount_effect fun m => by simp

theorem execTicketDeadline_frameCount (num : Fin 512) (s : State) : KeepsFrameCount s (execTicketDeadline num s) :=
  keepsFrameCount_effect fun m => by simp

theorem Hw.pendForwarded_getD_failWork_frameCount (m : Hw) (n k : Nat) :
    ((m.pendForwarded n).getD (m.failWork n k)).frameCount = m.frameCount :=
  Hw.option_getD_frameCount (fun _ h => Hw.pendForwarded_frameCount h) (m.failWork_frameCount n k)

theorem execTicketFailure_frameCount (num : Fin 512) (s : State) : KeepsFrameCount s (execTicketFailure num s) :=
  keepsFrameCount_effect fun m => Hw.ite_frameCount (m.pendForwarded_getD_failWork_frameCount num 0x0A) rfl

theorem execHeldRetry_frameCount (num : Fin 512) (ok : Bool) (s : State) : KeepsFrameCount s (execHeldRetry num ok s) :=
  keepsFrameCount_effect fun m => by simp

/-! ### Commands: the sensor bus -/

theorem execSbTransaction_frameCount (tkt : Fin 512) (err : Fin 12) (data : List Byte) (s : State) :
    KeepsFrameCount s (execSbTransaction tkt err data s) := by
  refine keepsFrameCount_effect fun m => ?_
  split <;> simp

theorem execSbArbLost_frameCount (tkt : Fin 512) (s : State) : KeepsFrameCount s (execSbArbLost tkt s) := by
  refine keepsFrameCount_effect fun m => ?_
  split <;> simp +decide

theorem execSbArbFrame_frameCount (tkt : Fin 512) (restart : Bool) (s : State) :
    KeepsFrameCount s (execSbArbFrame tkt restart s) := by
  refine keepsFrameCount_effect fun m => ?_
  split <;> simp +decide

theorem execSbDeferredStart_frameCount (tkt : Fin 512) (overrun : Bool) (s : State) :
    KeepsFrameCount s (execSbDeferredStart tkt overrun s) := by
  refine keepsFrameCount_effect fun m => ?_
  split <;> simp +decide

theorem execSbStretchTmo_frameCount (tkt : Fin 512) (s : State) : KeepsFrameCount s (execSbStretchTmo tkt s) := by
  refine keepsFrameCount_effect fun m => ?_
  split <;> simp +decide

theorem execSbBusStuck_frameCount (scl sda : Bool) (s : State) : KeepsFrameCount s (execSbBusStuck scl sda s) :=
  keepsFrameCount_effect fun m => by simp +decide

theorem execSbBusClear_frameCount (ok : Bool) (clocks : Fin 10) (s : State) :
    KeepsFrameCount s (execSbBusClear ok clocks s) := keepsFrameCount_effect fun m => by simp +decide

/-! ### Commands: host commands -/

theorem execPing_frameCount (strm : Fin 8) (s : State) : KeepsFrameCount s (execPing strm s) :=
  keepsFrameCount_effect fun m => by simp

theorem execRegRead_frameCount (strm : Fin 8) (s : State) : KeepsFrameCount s (execRegRead strm s) :=
  keepsFrameCount_effect fun m => by simp

theorem execRegWrite_frameCount (strm : Fin 8) (s : State) : KeepsFrameCount s (execRegWrite strm s) :=
  keepsFrameCount_effect fun m => by simp

theorem execKaStatement_frameCount (strm : Fin 8) (s : State) : KeepsFrameCount s (execKaStatement strm s) :=
  keepsFrameCount_effect fun m => by simp

theorem execTimeSet_frameCount (strm : Fin 8) (s : State) : KeepsFrameCount s (execTimeSet strm s) :=
  keepsFrameCount_effect fun m => by simp

theorem execRelease_frameCount (strm : Fin 8) (s : State) : KeepsFrameCount s (execRelease strm s) :=
  keepsFrameCount_effect fun m => by simp

theorem execSbXfer_frameCount (strm : Fin 8) (s : State) : KeepsFrameCount s (execSbXfer strm s) := by
  refine keepsFrameCount_effect fun m => ?_
  split
  · rfl
  · refine Hw.ite_frameCount rfl ?_
    split
    · simp
    · refine Hw.ite_frameCount (by simp) ?_
      split
      · rfl
      · next h => simpa using Hw.startXfer_frameCount h

theorem execStreamReset_frameCount (strm : Fin 8) (s : State) : KeepsFrameCount s (execStreamReset strm s) :=
  keepsFrameCount_effect fun m => by simp

theorem execHostPwr_frameCount (strm : Fin 8) (s : State) : KeepsFrameCount s (execHostPwr strm s) :=
  keepsFrameCount_effect fun m => by simp

theorem execShipEnter_frameCount (strm : Fin 8) (s : State) : KeepsFrameCount s (execShipEnter strm s) :=
  keepsFrameCount_effect fun m => by simp

theorem execSvcChallenge_frameCount (strm : Fin 8) (s : State) : KeepsFrameCount s (execSvcChallenge strm s) :=
  keepsFrameCount_effect fun m => by simp

theorem execSvcEnter_frameCount (strm : Fin 8) (s : State) : KeepsFrameCount s (execSvcEnter strm s) :=
  keepsFrameCount_effect fun m => by simp

theorem execSvcExit_frameCount (strm : Fin 8) (s : State) : KeepsFrameCount s (execSvcExit strm s) :=
  keepsFrameCount_effect fun m => by simp

theorem execKeyEnrol_frameCount (strm : Fin 8) (s : State) : KeepsFrameCount s (execKeyEnrol strm s) :=
  keepsFrameCount_effect fun m => by simp

theorem execCfgStage_frameCount (strm : Fin 8) (s : State) : KeepsFrameCount s (execCfgStage strm s) :=
  keepsFrameCount_effect fun m => by simp

theorem execCfgCommit_frameCount (strm : Fin 8) (readsBack : Bool) (s : State) :
    KeepsFrameCount s (execCfgCommit strm readsBack s) := keepsFrameCount_effect fun m => by simp

theorem execFieldReset_frameCount (strm : Fin 8) (s : State) : KeepsFrameCount s (execFieldReset strm s) :=
  keepsFrameCount_effect fun m => by simp

/-! ### Commands: the Tabien link -/

theorem execTabienMessageReceive_frameCount (rx : Side) (msg : MsgIn) (crcOk : Bool) (s : State) :
    KeepsFrameCount s (execTabienMessageReceive rx msg crcOk s) := keepsFrameCount_effect fun m => by simp

theorem execTmAck_frameCount (rx : Side) (s : State) : KeepsFrameCount s (execTmAck rx s) :=
  keepsFrameCount_effect fun m => by simp

theorem execTabienResendTimer_frameCount (sender : Side) (s : State) :
    KeepsFrameCount s (execTabienResendTimer sender s) := by
  refine keepsFrameCount_effect fun m => ?_
  split <;> simp +decide

theorem execLossOfLock_frameCount (rx : Side) (s : State) : KeepsFrameCount s (execLossOfLock rx s) :=
  keepsFrameCount_effect fun m => by simp

theorem execTabienLinkTraining_frameCount (good : Bool) (s : State) :
    KeepsFrameCount s (execTabienLinkTraining good s) := keepsFrameCount_effect fun m => by simp +decide

theorem execTmLinkUp_frameCount (rx : Side) (s : State) : KeepsFrameCount s (execTmLinkUp rx s) := by
  refine keepsFrameCount_effect fun m => ?_
  split <;> simp +decide

theorem execTmResult_frameCount (s : State) : KeepsFrameCount s (execTmResult s) := by
  refine keepsFrameCount_effect fun m => Hw.ite_frameCount rfl (Hw.hostTakes_frameCount _ _ _ _ fun m x => ?_)
  simp only
  split <;> simp

theorem execTmSnap_frameCount (s : State) : KeepsFrameCount s (execTmSnap s) :=
  keepsFrameCount_effect fun m => by simp +decide

theorem execTmEvent_frameCount (s : State) : KeepsFrameCount s (execTmEvent s) :=
  keepsFrameCount_effect fun m => by simp

theorem execTmAdc_frameCount (s : State) : KeepsFrameCount s (execTmAdc s) := keepsFrameCount_effect fun m => by simp

theorem execTmDrainData_frameCount (s : State) : KeepsFrameCount s (execTmDrainData s) := by
  refine keepsFrameCount_effect fun m => Hw.ite_frameCount rfl (Hw.hostTakes_frameCount _ _ _ _ fun m x => ?_)
  split <;> simp

theorem execTmCfg_frameCount (s : State) : KeepsFrameCount s (execTmCfg s) :=
  keepsFrameCount_effect fun m => by simp +decide

theorem execTmBudget_frameCount (s : State) : KeepsFrameCount s (execTmBudget s) :=
  keepsFrameCount_effect fun m => by simp +decide

theorem execTmXfer_frameCount (s : State) : KeepsFrameCount s (execTmXfer s) := keepsFrameCount_effect fun m => by simp

theorem execTmCmd_frameCount (s : State) : KeepsFrameCount s (execTmCmd s) := by
  refine keepsFrameCount_effect fun m => ?_
  split
  · rfl
  · split <;> simp

theorem execTmHfault_frameCount (s : State) : KeepsFrameCount s (execTmHfault s) :=
  keepsFrameCount_effect fun m => by simp

theorem execTmCable_frameCount (s : State) : KeepsFrameCount s (execTmCable s) := by
  refine keepsFrameCount_effect fun m => Hw.fieldTakes_frameCount _ _ _ _ fun m x => ?_
  simp only
  split <;> simp

theorem execFastRoleSwapCode_frameCount (t vcbufLow : Nat) (s : State) :
    KeepsFrameCount s (execFastRoleSwapCode t vcbufLow s) := keepsFrameCount_effect fun m => by simp

theorem execTmHstatus_frameCount (s : State) : KeepsFrameCount s (execTmHstatus s) := by
  refine keepsFrameCount_effect fun m => Hw.takeFrom_frameCount _ _ _ _ fun m x => ?_
  simp only
  split <;> simp

theorem execTmRdclr_frameCount (s : State) : KeepsFrameCount s (execTmRdclr s) :=
  keepsFrameCount_effect fun m => by simp

theorem execTmJrec_frameCount (s : State) : KeepsFrameCount s (execTmJrec s) := keepsFrameCount_effect fun m => by simp

theorem execTmCfgReq_frameCount (s : State) : KeepsFrameCount s (execTmCfgReq s) :=
  keepsFrameCount_effect fun m => by simp

theorem execTmDrainReq_frameCount (s : State) : KeepsFrameCount s (execTmDrainReq s) :=
  keepsFrameCount_effect fun m => by simp

theorem execTmUpdData_frameCount (s : State) : KeepsFrameCount s (execTmUpdData s) :=
  keepsFrameCount_effect fun m => by simp

theorem execSnapStale_frameCount (s : State) : KeepsFrameCount s (execSnapStale s) :=
  keepsFrameCount_effect fun m => by simp +decide

/-! ### Commands: the mailbox -/

theorem execMbxSubmit_frameCount (s : State) : KeepsFrameCount s (execMbxSubmit s) :=
  keepsFrameCount_effect fun m => by simp

theorem execMbxPop_frameCount (s : State) : KeepsFrameCount s (execMbxPop s) := keepsFrameCount_effect fun m => by simp

/-! ### Commands: the drain port -/

theorem execDrnStatus_frameCount (bytes : Nat) (s : State) : KeepsFrameCount s (execDrnStatus bytes s) :=
  keepsFrameCount_effect fun m => by simp

theorem execDrnIdent_frameCount (bytes : Nat) (s : State) : KeepsFrameCount s (execDrnIdent bytes s) :=
  keepsFrameCount_effect fun m => by simp

theorem execDrnRead_frameCount (bytes : Nat) (s : State) : KeepsFrameCount s (execDrnRead bytes s) :=
  keepsFrameCount_effect fun m => by simp

theorem execDrnReadQ_frameCount (bytes : Nat) (s : State) : KeepsFrameCount s (execDrnReadQ bytes s) :=
  keepsFrameCount_effect fun m => by simp

theorem execDrnRequest_frameCount (block : List Byte) (s : State) : KeepsFrameCount s (execDrnRequest block s) :=
  keepsFrameCount_effect fun m => by simp

theorem execDrnGo_frameCount (s : State) : KeepsFrameCount s (execDrnGo s) := keepsFrameCount_effect fun m => by simp

theorem execReadJsn_frameCount (s : State) : KeepsFrameCount s (execReadJsn s) :=
  keepsFrameCount_effect fun m => by simp

theorem execReadCert_frameCount (s : State) : KeepsFrameCount s (execReadCert s) := by
  refine keepsFrameCount_effect fun m => ?_
  split <;> simp

theorem execDrainAbort_frameCount (s : State) : KeepsFrameCount s (execDrainAbort s) := by
  refine keepsFrameCount_effect fun m => ?_
  split <;> simp

theorem execDrnWrite_frameCount (ofs : Nat) (data : List Byte) (s : State) :
    KeepsFrameCount s (execDrnWrite ofs data s) := keepsFrameCount_effect fun m => by simp

theorem execDrnWriteQ_frameCount (ofs : Nat) (data : List Byte) (s : State) :
    KeepsFrameCount s (execDrnWriteQ ofs data s) := keepsFrameCount_effect fun m => by simp

/-! ### Commands: firmware update -/

theorem execUpdBegin_frameCount (strm : Fin 8) (s : State) : KeepsFrameCount s (execUpdBegin strm s) :=
  keepsFrameCount_effect fun m => by simp

theorem execUpdChunk_frameCount (strm : Fin 8) (s : State) : KeepsFrameCount s (execUpdChunk strm s) := by
  refine keepsFrameCount_effect fun m => Hw.ite_frameCount rfl
    (Hw.runChecked_frameCount _ _ _ _ _ (fun m c => ?_) updChunkAct_frameCount)
  split
  · rfl
  · exact updChunkCheck_frameCount m c

theorem execUpdBlockWrite_frameCount (readsBack : Bool) (s : State) :
    KeepsFrameCount s (execUpdBlockWrite readsBack s) := keepsFrameCount_effect fun m => by simp

theorem execUpdFinish_frameCount (strm : Fin 8) (s : State) : KeepsFrameCount s (execUpdFinish strm s) :=
  keepsFrameCount_effect fun m => by simp

theorem execUpdAbort_frameCount (strm : Fin 8) (s : State) : KeepsFrameCount s (execUpdAbort strm s) :=
  keepsFrameCount_effect fun m => by simp

theorem execUpdQuery_frameCount (strm : Fin 8) (s : State) : KeepsFrameCount s (execUpdQuery strm s) :=
  keepsFrameCount_effect fun m => by simp

theorem execUpdActivate_frameCount (strm : Fin 8) (s : State) : KeepsFrameCount s (execUpdActivate strm s) :=
  keepsFrameCount_effect fun m => by simp

theorem execUpdRevert_frameCount (strm : Fin 8) (s : State) : KeepsFrameCount s (execUpdRevert strm s) :=
  keepsFrameCount_effect fun m => by simp

theorem execHandoverStart_frameCount (s : State) : KeepsFrameCount s (execHandoverStart s) := by
  refine keepsFrameCount_effect fun m => ?_
  split <;> simp

theorem execHandoverReady_frameCount (us len : Nat) (s : State) : KeepsFrameCount s (execHandoverReady us len s) := by
  refine keepsFrameCount_effect fun m => ?_
  split <;> simp +decide

theorem execHandoverFallback_frameCount (unreadable : Bool) (us len : Nat) (s : State) :
    KeepsFrameCount s (execHandoverFallback unreadable us len s) := by
  refine keepsFrameCount_effect fun m => ?_
  split <;> simp +decide

theorem execProbationPass_frameCount (s : State) : KeepsFrameCount s (execProbationPass s) := by
  refine keepsFrameCount_effect fun m => ?_
  split <;> simp +decide

theorem execProbationFail_frameCount (cause : Nat) (s : State) : KeepsFrameCount s (execProbationFail cause s) := by
  refine keepsFrameCount_effect fun m => ?_
  split <;> simp

/-! ### Commands: the two-wire port -/

theorem execRegisterWrite_frameCount (addr : Fin 65536) (value : Word) (s : State) :
    KeepsFrameCount s (execRegisterWrite addr value s) := keepsFrameCount_effect fun m => by simp

theorem execHpWriteTransfer_frameCount (addr : Fin 128) (bytes : List Byte) (s : State) :
    KeepsFrameCount s (execHpWriteTransfer addr bytes s) := keepsFrameCount_effect fun m => by simp +decide

theorem execHpReadTransfer_frameCount (addr : Fin 128) (count : Nat) (s : State) :
    KeepsFrameCount s (execHpReadTransfer addr count s) := keepsFrameCount_effect fun m => by simp +decide

theorem execHpTransferAbort_frameCount (cut : HpCut) (s : State) : KeepsFrameCount s (execHpTransferAbort cut s) := by
  refine keepsFrameCount_effect fun m => ?_
  split
  · rfl
  · split <;> simp

theorem execHpTimeout_frameCount (completed : Nat) (s : State) : KeepsFrameCount s (execHpTimeout completed s) :=
  keepsFrameCount_effect fun m => by simp +decide

theorem execHpDozeWake_frameCount (addr : Fin 128) (read : Bool) (s : State) :
    KeepsFrameCount s (execHpDozeWake addr read s) := keepsFrameCount_effect fun m => by simp

theorem execHpAlertResponse_frameCount (lost : Bool) (s : State) : KeepsFrameCount s (execHpAlertResponse lost s) :=
  keepsFrameCount_effect fun m => by simp +decide

/-! ### Commands: the twin link -/

theorem execTwinClaim_frameCount (low : Bool) (s : State) : KeepsFrameCount s (execTwinClaim low s) :=
  keepsFrameCount_effect fun m => by simp +decide

theorem execTwinClaimWaitExpiry_frameCount (low : Bool) (s : State) :
    KeepsFrameCount s (execTwinClaimWaitExpiry low s) := keepsFrameCount_effect fun m => by simp

theorem execTwinTrainTimeout_frameCount (s : State) : KeepsFrameCount s (execTwinTrainTimeout s) :=
  keepsFrameCount_effect fun m => by simp

theorem execTwinLinkTrained_frameCount (pState : Fin 8) (sameSequence : Bool) (s : State) :
    KeepsFrameCount s (execTwinLinkTrained pState sameSequence s) := keepsFrameCount_effect fun m => by simp +decide

theorem execTwmCfgDigest_frameCount (h : TwmHead) (digest : List Byte) (position : Fin 2) (pairId : Nat) (s : State) :
    KeepsFrameCount s (execTwmCfgDigest h digest position pairId s) := keepsFrameCount_effect fun m => by simp +decide

theorem execTwinHeartbeatSend_frameCount (t ika : Nat) (s : State) :
    KeepsFrameCount s (execTwinHeartbeatSend t ika s) := keepsFrameCount_effect fun m => by simp

theorem execTwmHeartbeat_frameCount (h : TwmHead) (_frn _sc : Nat) (state mode : Fin 8)
    (mirrorWm commitWm allow _ika : Nat) (s : State) :
    KeepsFrameCount s (execTwmHeartbeat h _frn _sc state mode mirrorWm commitWm allow _ika s) := by
  refine keepsFrameCount_effect fun m => Hw.takeTwm_frameCount _ _ _ fun m => ?_
  extract_lets w _ m1 m2 m3
  have h1 : m1.frameCount = m.frameCount := by simp +decide [m1, w]
  have h3 : m3.frameCount = m.frameCount := by simp [m3, m2, h1]
  exact Hw.ite_frameCount (by simp [h3]) h3

theorem execTwinHbLost_frameCount (s : State) : KeepsFrameCount s (execTwinHbLost s) :=
  keepsFrameCount_effect fun m => by simp

theorem execTwinFailover_frameCount (t : Nat) (s : State) : KeepsFrameCount s (execTwinFailover t s) :=
  keepsFrameCount_effect fun m => by simp +decide

theorem execTwmMirror_frameCount (h : TwmHead) (bytes : List Byte) (s : State) :
    KeepsFrameCount s (execTwmMirror h bytes s) := keepsFrameCount_effect fun m => by simp

theorem execTwmMirrorAck_frameCount (h : TwmHead) (jsn : Nat) (s : State) :
    KeepsFrameCount s (execTwmMirrorAck h jsn s) := keepsFrameCount_effect fun m => by simp +decide

theorem execTwmAppend_frameCount (h : TwmHead) (_fwd : Nat) (bytes : List Byte) (s : State) :
    KeepsFrameCount s (execTwmAppend h _fwd bytes s) := keepsFrameCount_effect fun m => by simp

theorem execTwmResyncReq_frameCount (h : TwmHead) (fromJsn : Nat) (s : State) :
    KeepsFrameCount s (execTwmResyncReq h fromJsn s) := keepsFrameCount_effect fun m => by simp

theorem execTwmResyncData_frameCount (h : TwmHead) (bytes : List Byte) (s : State) :
    KeepsFrameCount s (execTwmResyncData h bytes s) := by
  refine keepsFrameCount_effect fun m => ?_
  split <;> simp

theorem execTwinResyncFail_frameCount (s : State) : KeepsFrameCount s (execTwinResyncFail s) := by
  refine keepsFrameCount_effect fun m => ?_
  split <;> simp

theorem execTwmTime_frameCount (h : TwmHead) (_mode : Nat) (utc : Int) (tai sub : Nat) (s : State) :
    KeepsFrameCount s (execTwmTime h _mode utc tai sub s) := keepsFrameCount_effect fun m => by simp

theorem execTwinTimeSend_frameCount (s : State) : KeepsFrameCount s (execTwinTimeSend s) :=
  keepsFrameCount_effect fun m => by simp

theorem execTwmEpochStale_frameCount (h : TwmHead) (epoch : Nat) (leadPos : Fin 2) (s : State) :
    KeepsFrameCount s (execTwmEpochStale h epoch leadPos s) := keepsFrameCount_effect fun m => by simp +decide

theorem execTwinMessageRepeat_frameCount (acked : Nat) (s : State) :
    KeepsFrameCount s (execTwinMessageRepeat acked s) := keepsFrameCount_effect fun m => by simp

theorem execTwinLinkCrc_frameCount (s : State) : KeepsFrameCount s (execTwinLinkCrc s) :=
  keepsFrameCount_effect fun m => by simp +decide

theorem execTwinFenceRetrain_frameCount (ok : Bool) (s : State) : KeepsFrameCount s (execTwinFenceRetrain ok s) := by
  refine keepsFrameCount_effect fun m => ?_
  split <;> simp +decide

/-! ### Commands: reactions to fault words -/

theorem execFaultReaction_frameCount (s : State) : KeepsFrameCount s (execFaultReaction s) := by
  refine keepsFrameCount_effect fun m => ?_
  split <;> simp

theorem execDegradeClose_frameCount (s : State) : KeepsFrameCount s (execDegradeClose s) :=
  keepsFrameCount_effect fun m => by simp

theorem execDomainSwitchOff_frameCount (d : Domain) (s : State) : KeepsFrameCount s (execDomainSwitchOff d s) :=
  keepsFrameCount_effect fun m => by simp

theorem execDomainOffTicketTimeout_frameCount (d : Domain) (s : State) :
    KeepsFrameCount s (execDomainOffTicketTimeout d s) := by
  refine keepsFrameCount_effect fun m => ?_
  split <;> simp

theorem execLatchWrite_frameCount (writer : Engine) (l : LatchId) (value : Nat) (writerInReset : Bool) (s : State) :
    KeepsFrameCount s (execLatchWrite writer l value writerInReset s) := keepsFrameCount_effect fun m => by simp

/-! ### Commands: resets -/

theorem execFieldWReset_frameCount (cause : Nat) (s : State) : KeepsFrameCount s (execFieldWReset cause s) :=
  keepsFrameCount_effect fun m => by simp +decide

theorem execFieldPinReset_frameCount (low : Bool) (s : State) : KeepsFrameCount s (execFieldPinReset low s) :=
  keepsFrameCount_effect fun m => by simp

theorem execTsbHalertStateLevel_frameCount (high : Bool) (s : State) :
    KeepsFrameCount s (execTsbHalertStateLevel high s) := keepsFrameCount_effect fun m => by simp

theorem execHostWReset_frameCount (cause : Nat) (s : State) : KeepsFrameCount s (execHostWReset cause s) :=
  keepsFrameCount_effect fun m => by simp

theorem execHostPinReset_frameCount (low : Bool) (s : State) : KeepsFrameCount s (execHostPinReset low s) :=
  keepsFrameCount_effect fun m => by simp

theorem execTestPadHigh_frameCount (pads : Fin 4) (s : State) : KeepsFrameCount s (execTestPadHigh pads s) :=
  keepsFrameCount_effect fun m => by simp

theorem execEngineRestart_frameCount (e : Engine) (s : State) : KeepsFrameCount s (execEngineRestart e s) :=
  keepsFrameCount_effect fun m => by simp

theorem execFifoParity_frameCount (fifo_ : Fin 15) (tkt : Option (Fin 512)) (s : State) :
    KeepsFrameCount s (execFifoParity fifo_ tkt s) := by
  refine keepsFrameCount_effect fun m => ?_
  split <;> simp

/-! ### Commands: watchdogs, check-ins and self-test -/

theorem execWdgServiceWrite_frameCount (side : Side) (key : Fin 65536) (s : State) :
    KeepsFrameCount s (execWdgServiceWrite side key s) := keepsFrameCount_effect fun m => by simp

theorem execWdgForeignWrite_frameCount (writer : Engine) (s : State) :
    KeepsFrameCount s (execWdgForeignWrite writer s) := by
  refine keepsFrameCount_effect fun m => ?_
  split
  · rfl
  · split <;> simp +decide

theorem execWdgWindowOpen_frameCount (side : Side) (s : State) : KeepsFrameCount s (execWdgWindowOpen side s) :=
  keepsFrameCount_effect fun m => by simp

theorem execWdgWindowClose_frameCount (side : Side) (s : State) : KeepsFrameCount s (execWdgWindowClose side s) :=
  keepsFrameCount_effect fun m => by simp

theorem execWdgStartTimeout_frameCount (side : Side) (s : State) : KeepsFrameCount s (execWdgStartTimeout side s) := by
  refine keepsFrameCount_effect fun m => ?_
  split
  · rfl
  · split <;> simp +decide

theorem execCheckinWrite_frameCount (e : Engine) (s : State) : KeepsFrameCount s (execCheckinWrite e s) :=
  keepsFrameCount_effect fun m => by simp

theorem execMemorySelftestMacro_frameCount (side : Side) (id : Fin 32) (defects : List BitDefect) (spareBad : Bool)
    (s : State) : KeepsFrameCount s (execMemorySelftestMacro side id defects spareBad s) :=
  keepsFrameCount_effect fun m => by simp

theorem execBistBurn_frameCount (side : Side) (bad : List Word) (s : State) :
    KeepsFrameCount s (execBistBurn side bad s) := by
  refine keepsFrameCount_effect fun m => ?_
  split <;> simp

theorem execBistEngTest_frameCount (s : State) : KeepsFrameCount s (execBistEngTest s) :=
  keepsFrameCount_effect fun m => by simp

/-! ### Commands: modes -/

theorem execPwrReqChange_frameCount (high : Bool) (s : State) : KeepsFrameCount s (execPwrReqChange high s) :=
  keepsFrameCount_effect fun m => by simp

theorem execFvioLow_frameCount (s : State) : KeepsFrameCount s (execFvioLow s) :=
  keepsFrameCount_effect fun m => by simp

theorem execFVioReturn_frameCount (s : State) : KeepsFrameCount s (execFVioReturn s) :=
  keepsFrameCount_effect fun m => by simp

theorem execHvioLow_frameCount (s : State) : KeepsFrameCount s (execHvioLow s) :=
  keepsFrameCount_effect fun m => by simp

theorem execHVioReturn_frameCount (s : State) : KeepsFrameCount s (execHVioReturn s) :=
  keepsFrameCount_effect fun m => by simp

theorem execHcoreDoze_frameCount (s : State) : KeepsFrameCount s (execHcoreDoze s) :=
  keepsFrameCount_effect fun m => by simp +decide

theorem execHcoreWake_frameCount (repairParity : Option Nat) (s : State) :
    KeepsFrameCount s (execHcoreWake repairParity s) := keepsFrameCount_effect fun m => by simp

theorem execHoldupEvent_frameCount (t : Nat) (s : State) : KeepsFrameCount s (execHoldupEvent t s) :=
  keepsFrameCount_effect fun m => by simp +decide

theorem execKeepaliveEntry_frameCount (s : State) : KeepsFrameCount s (execKeepaliveEntry s) :=
  keepsFrameCount_effect fun m => by simp

theorem execKeepaliveTicketTimeout_frameCount (s : State) : KeepsFrameCount s (execKeepaliveTicketTimeout s) :=
  keepsFrameCount_effect fun m => by simp +decide

theorem execKeepaliveDomainSwitch_frameCount (s : State) : KeepsFrameCount s (execKeepaliveDomainSwitch s) :=
  keepsFrameCount_effect fun m => by simp

theorem execKeepaliveWake_frameCount (ms : Nat) (repairParity : Option Nat) (s : State) :
    KeepsFrameCount s (execKeepaliveWake ms repairParity s) := keepsFrameCount_effect fun m => by simp

theorem execKeepaliveSecondWake_frameCount (vbat : Nat) (ibat : Int) (vka ika vqr1 vqr2 : Nat) (tctl tpack : Int)
    (vchold : Nat) (s : State) :
    KeepsFrameCount s (execKeepaliveSecondWake vbat ibat vka ika vqr1 vqr2 tctl tpack vchold s) :=
  keepsFrameCount_effect fun m => by simp +decide

theorem execShipNHold_frameCount (s : State) : KeepsFrameCount s (execShipNHold s) :=
  keepsFrameCount_effect fun m => by simp +decide

theorem execShipEntry_frameCount (qualifiedBefore : Bool) (s : State) :
    KeepsFrameCount s (execShipEntry qualifiedBefore s) := keepsFrameCount_effect fun m => by simp

theorem execServiceTimeout_frameCount (s : State) : KeepsFrameCount s (execServiceTimeout s) :=
  keepsFrameCount_effect fun m => by simp

theorem execServiceLockoutEnd_frameCount (s : State) : KeepsFrameCount s (execServiceLockoutEnd s) :=
  keepsFrameCount_effect fun m => by simp +decide

/-! ### Commands: losses and starts -/

theorem execColdStart_frameCount (x : StartInfo) (s : State) : KeepsFrameCount s (execColdStart x s) :=
  keepsFrameCount_effect fun m => by simp

theorem execWarmStart_frameCount (x : StartInfo) (s : State) : KeepsFrameCount s (execWarmStart x s) :=
  keepsFrameCount_effect fun m => by simp

theorem execResumeStart_frameCount (x : StartInfo) (s : State) : KeepsFrameCount s (execResumeStart x s) :=
  keepsFrameCount_effect fun m => by simp +decide

theorem execDomainPgFall_frameCount {d : Domain} (hd : d ≠ .fAon) (s : State) :
    KeepsFrameCount s (execDomainPgFall d s) := keepsFrameCount_effect fun m => m.pgFall_frameCount d hd

theorem execDomainPgReturn_frameCount (d : Domain) (s : State) : KeepsFrameCount s (execDomainPgReturn d s) :=
  keepsFrameCount_effect fun m => by simp

theorem execGuardPrivilegedWrite_frameCount (writer : Engine) (addr : Nat) (a : GuardAction) (s : State) :
    KeepsFrameCount s (execGuardPrivilegedWrite writer addr a s) := by
  refine keepsFrameCount_effect fun m => ?_
  split
  · split <;> simp
  · simp

/-! ### The tick, the losses of F-AON and the ship wake -/

theorem Hw.advanceFrn_frameCount {m : Hw} (h : m.rd Reg.FRM_FRN_FRN < 2 ^ 32 - 1) :
    m.advanceFrn.frameCount = (m.rd Reg.FRM_FRN_FRN + 1, m.rd Reg.FRM_WRAP_WRAP) := by
  have hwidth : Reg.FRM_FRN_FRN.width = 32 := rfl
  have hkeys : Reg.FRM_WRAP_WRAP.key ≠ Reg.FRM_FRN_FRN.key := by decide
  rw [Hw.advanceFrn, if_neg (by rw [Hw.frn]; omega), Hw.frameCount, Hw.rd_wr_same, Hw.rd_wr_ne hkeys, hwidth, Hw.frn,
    Nat.mod_eq_of_lt (by omega)]

theorem Hw.advanceFrn_frameCount_wrap {m : Hw} (h : m.rd Reg.FRM_FRN_FRN = 2 ^ 32 - 1) :
    m.advanceFrn.frameCount = (0, satN 16 (m.rd Reg.FRM_WRAP_WRAP + 1)) := by
  have hkeys : Reg.FRM_WRAP_WRAP.key ≠ Reg.FRM_FRN_FRN.key := by decide
  have hsat : ∀ n, satN 16 n % 2 ^ 16 = satN 16 n := fun n => Nat.mod_eq_of_lt (by rw [satN]; split <;> omega)
  rw [Hw.advanceFrn, Hw.frn, if_pos h, Hw.bump, Hw.add, Hw.wrSat, Hw.frameCount,
    Hw.rd_wr_ne hkeys.symm, Hw.rd_wr_same, Hw.rd_wr_same, Hw.rd_wr_ne hkeys, Nat.zero_mod]
  exact congrArg (Prod.mk 0) (hsat _)

/-- What comes before the step of FRN at the end of a frame leaves the frame count alone. -/
theorem Hw.closeFrame_eq (m : Hw) : ∃ m' : Hw, m.closeFrame = m'.advanceFrn ∧ m'.frameCount = m.frameCount := by
  unfold Hw.closeFrame
  extract_lets m1 len left _ m2 m3 _ m4
  have h1 : m1.frameCount = m.frameCount := by simp [m1]
  have h2 : m2.frameCount = m.frameCount := h1
  have h3 : m3.frameCount = m.frameCount := by simp +decide [m3, h2]
  exact ⟨m4, rfl, h3⟩

theorem Hw.closeFrame_frameCount {m : Hw} (h : m.rd Reg.FRM_FRN_FRN < 2 ^ 32 - 1) :
    m.closeFrame.frameCount = (m.rd Reg.FRM_FRN_FRN + 1, m.rd Reg.FRM_WRAP_WRAP) := by
  obtain ⟨m', heq, hcount⟩ := m.closeFrame_eq
  obtain ⟨hfrn, hwrap⟩ := Prod.mk.inj hcount
  rw [heq, Hw.advanceFrn_frameCount (hfrn ▸ h), hfrn, hwrap]

theorem Hw.closeFrame_frameCount_wrap {m : Hw} (h : m.rd Reg.FRM_FRN_FRN = 2 ^ 32 - 1) :
    m.closeFrame.frameCount = (0, satN 16 (m.rd Reg.FRM_WRAP_WRAP + 1)) := by
  obtain ⟨m', heq, hcount⟩ := m.closeFrame_eq
  obtain ⟨hfrn, hwrap⟩ := Prod.mk.inj hcount
  rw [heq, Hw.advanceFrn_frameCount_wrap (hfrn ▸ h), hwrap]

theorem Hw.asleepTick_or_workTick_frameCount (m : Hw) (f : Frame) :
    (if m.mode = modeKEEPALIVE ∨ m.mode = modeSHIP then m.asleepTick f else (m.hardTick f).workTick f).frameCount =
      m.frameCount := Hw.ite_frameCount (by simp) (by simp)

theorem execFrameTick_frameCount (f : Frame) {s : State} (h : s.hw.modes.faonOn = true) :
    ∃ t, execFrameTick f s = .next t ∧ t.hw.frameCount = s.hw.closeFrame.frameCount := by
  refine ⟨_, rfl, ?_⟩
  have hon : (!s.hw.modes.faonOn) = false := by rw [h]; rfl
  simp only [State.on_hw, hon, Bool.false_eq_true, if_false]
  exact (Hw.asleepTick_or_workTick_frameCount _ f).trans (Hw.syncTick_frameCount _)

section
variable {l : Letter} (hl : Surv.faon.keeps l = false) (m : Hw)
include hl

theorem Hw.resetRegs_frameCount_lost : (m.resetRegs .field l).frameCount = (0, 0) := by
  refine Regs.filter_frameCount_lost m.regs (fun v => ?_) (fun v => ?_)
  · simp only [fieldOfKey_frn]
    exact hl
  · simp only [fieldOfKey_wrap]
    exact hl

theorem Hw.regsLost_frameCount : (m.regsLost l).frameCount = (0, 0) := by
  refine Eq.trans (Regs.filter_frameCount (m.resetRegs .field l).regs (fun v => ?_) (fun v => ?_))
    (m.resetRegs_frameCount_lost hl)
  · simp only [fieldOfKey_frn]
    rfl
  · simp only [fieldOfKey_wrap]
    rfl

end

theorem Hw.loseBackup_frameCount (m : Hw) : m.loseBackup.frameCount = (0, 0) := by
  simp [Hw.loseBackup, m.resetRegs_frameCount_lost (l := .v) rfl]

theorem Hw.fieldLost_frameCount {l : Letter} (hl : Surv.faon.keeps l = false) (m : Hw) :
    (m.fieldLost l).frameCount = (0, 0) := by
  simp [Hw.fieldLost, Hw.regsLost_frameCount hl, Hw.loseBackup_frameCount]

theorem execFaonPowerLoss_frameCount (l : LossLetter) {s : State} (h : s.hw.modes.faonOn = true) :
    ∃ t, execFaonPowerLoss l s = .next t ∧ t.hw.frameCount = (0, 0) := by
  refine ⟨_, rfl, ?_⟩
  simp only [State.on_hw, h]
  cases l <;> exact Hw.fieldLost_frameCount rfl _

theorem execDomainPgFall_fAon_frameCount {s : State} (h : (s.hw.domain .fAon).pg = true) :
    ∃ t, execDomainPgFall .fAon s = .next t ∧ t.hw.frameCount = (0, 0) := by
  refine ⟨_, rfl, ?_⟩
  simp only [State.on_hw, Hw.pgFall, h]
  exact Hw.fieldLost_frameCount rfl _

theorem execShipWake_frameCount (b v : Bool) {s : State} (h : s.hw.modes.shipCell = false) :
    KeepsFrameCount s (execShipWake b v s) := by
  simp [execShipWake, h]

/-! ### Every other command -/

/-- The commands that are no tick, no loss of F-AON and no SHIP wake keep the frame count. -/
theorem exec_keepsFrameCount {c : Instr} (s : State) (htick : ∀ f, c ≠ .frameTick f) (hloss : ∀ l, c ≠ .faonPowerLoss l)
    (hfall : c ≠ .domainPgFall .fAon) (hwake : ∀ b v, c ≠ .shipWake b v) : KeepsFrameCount s (exec c s) := by
  cases c with
  | frameTick f => exact absurd rfl (htick f)
  | tsbHalertStateLevel high => exact execTsbHalertStateLevel_frameCount high s
  | tsbFalertStateLevel high => exact execTsbFalertStateLevel_frameCount high s
  | qreqRequest t a => exact execQreqRequest_frameCount t a s
  | qreqRelease t => exact execQreqRelease_frameCount t s
  | fastRoleSwapCode t vcbufLow => exact execFastRoleSwapCode_frameCount t vcbufLow s
  | sourceLossCode => exact execSourceLossCode_frameCount s
  | sourceAttachWakeCode => exact execSourceAttachWakeCode_frameCount s
  | cableDetachCode => exact execCableDetachCode_frameCount s
  | mailboxWakeCode => exact execMailboxWakeCode_frameCount s
  | hostAlertCode => exact execHostAlertCode_frameCount s
  | fieldAlertCode => exact execFieldAlertCode_frameCount s
  | fieldSleepCode => exact execFieldSleepCode_frameCount s
  | sidebandFault pulse => exact execSidebandFault_frameCount pulse s
  | tsbQuietChange high => exact execTsbQuietChange_frameCount high s
  | tsbQuietChannelFault => exact execTsbQuietChannelFault_frameCount s
  | guardPrivilegedWrite writer addr a => exact execGuardPrivilegedWrite_frameCount writer addr a s
  | engineRestart e => exact execEngineRestart_frameCount e s
  | domainPgFall d => exact execDomainPgFall_frameCount (fun hd => hfall (hd ▸ rfl)) s
  | domainPgReturn d => exact execDomainPgReturn_frameCount d s
  | domainSwitchOff d => exact execDomainSwitchOff_frameCount d s
  | domainOffTicketTimeout d => exact execDomainOffTicketTimeout_frameCount d s
  | fifoParity fifo tkt => exact execFifoParity_frameCount fifo tkt s
  | latchWrite writer l value writerInReset => exact execLatchWrite_frameCount writer l value writerInReset s
  | latchParity l live => exact execLatchParity_frameCount l live s
  | sourceEvent src t => exact execSourceEvent_frameCount src t s
  | syncSourceLost => exact execSyncSourceLost_frameCount s
  | holdoverExpiry => exact execHoldoverExpiry_frameCount s
  | sourcePriorityChange => exact execSourcePriorityChange_frameCount s
  | planPadChange pads => exact execPlanPadChange_frameCount pads s
  | preFreeze slot a => exact execPreFreeze_frameCount slot a s
  | preFreezeSlot0Decision a => exact execPreFreezeSlot0Decision_frameCount a s
  | freezeSlotBoundary slot late lateRails ns => exact execFreezeSlotBoundary_frameCount slot late lateRails ns s
  | freezeRunEnd slot => exact execFreezeRunEnd_frameCount slot s
  | apertureRise t a => exact execApertureRise_frameCount t a s
  | apertureFall t => exact execApertureFall_frameCount t s
  | apertureLimitExpiry t => exact execApertureLimitExpiry_frameCount t s
  | apertureRearm => exact execApertureRearm_frameCount s
  | scheduledApertureStart t a => exact execScheduledApertureStart_frameCount t a s
  | driverHoldCut t => exact execDriverHoldCut_frameCount t s
  | driverHoldBreakEnd t a => exact execDriverHoldBreakEnd_frameCount t a s
  | freezeEndVbatLow t => exact execFreezeEndVbatLow_frameCount t s
  | sourceLoadFreezeEnd t => exact execSourceLoadFreezeEnd_frameCount t s
  | refusalRunEnd => exact execRefusalRunEnd_frameCount s
  | sourceQualify src mv => exact execSourceQualify_frameCount src mv s
  | intakeSourceLoss src mv mvOther => exact execIntakeSourceLoss_frameCount src mv mvOther s
  | prioritySourceTakeover mv => exact execPrioritySourceTakeover_frameCount mv s
  | reverseBlock => exact execReverseBlock_frameCount s
  | reverseReconduct => exact execReverseReconduct_frameCount s
  | intakeLimitUpdate => exact execIntakeLimitUpdate_frameCount s
  | intakeStartupLimitExpiry => exact execIntakeStartupLimitExpiry_frameCount s
  | intakePdiss watts => exact execIntakePdiss_frameCount watts s
  | vSourceRefresh v iin pdiss temp xpow aux => exact execVSourceRefresh_frameCount v iin pdiss temp xpow aux s
  | cbufFloorReached => exact execCbufFloorReached_frameCount s
  | cbufMeasure us ma dmv steady => exact execCbufMeasure_frameCount us ma dmv steady s
  | cbufRampStart mv => exact execCbufRampStart_frameCount mv s
  | cbufRampEnd mv => exact execCbufRampEnd_frameCount mv s
  | haonPowerUp inputs => exact execHaonPowerUp_frameCount inputs s
  | hostConfigTimeout => exact execHostConfigTimeout_frameCount s
  | deadBatteryStart advert => exact execDeadBatteryStart_frameCount advert s
  | xferQuietLate ns => exact execXferQuietLate_frameCount ns s
  | xferDirectionChange dir reached => exact execXferDirectionChange_frameCount dir reached s
  | xferDirTimeout => exact execXferDirTimeout_frameCount s
  | intakeThermal temp => exact execIntakeThermal_frameCount temp s
  | cbufOv mv => exact execCbufOv_frameCount mv s
  | xferOcp => exact execXferOcp_frameCount s
  | xferRetry => exact execXferRetry_frameCount s
  | xferVtbOv mv => exact execXferVtbOv_frameCount mv s
  | xferThermal temp => exact execXferThermal_frameCount temp s
  | xferStartFail mv => exact execXferStartFail_frameCount mv s
  | xferClrLatch => exact execXferClrLatch_frameCount s
  | phaseShedChange itot => exact execPhaseShedChange_frameCount itot s
  | phaseImbalance n => exact execPhaseImbalance_frameCount n s
  | phaseSoftStart vout us => exact execPhaseSoftStart_frameCount vout us s
  | phaseSsShort test => exact execPhaseSsShort_frameCount test s
  | phaseSsRetry => exact execPhaseSsRetry_frameCount s
  | phaseOcp phases load => exact execPhaseOcp_frameCount phases load s
  | phaseOv mv => exact execPhaseOv_frameCount mv s
  | phaseThermal n temp => exact execPhaseThermal_frameCount n temp s
  | phaseGateUv n supply => exact execPhaseGateUv_frameCount n supply s
  | phaseVtbCollapse mv => exact execPhaseVtbCollapse_frameCount mv s
  | phClrLatch => exact execPhClrLatch_frameCount s
  | batfetPdiss mw => exact execBatfetPdiss_frameCount mw s
  | batfetOcp t ma => exact execBatfetOcp_frameCount t ma s
  | batfetReclose => exact execBatfetReclose_frameCount s
  | batfetRetryCountClear => exact execBatfetRetryCountClear_frameCount s
  | batfetThermal temp => exact execBatfetThermal_frameCount temp s
  | vsysUv mv => exact execVsysUv_frameCount mv s
  | revBatFloor mv => exact execRevBatFloor_frameCount mv s
  | packIndicatorSettled seen => exact execPackIndicatorSettled_frameCount seen s
  | probeVoltageReached => exact execProbeVoltageReached_frameCount s
  | sinkTestEnd mv => exact execSinkTestEnd_frameCount mv s
  | probeShort mv => exact execProbeShort_frameCount mv s
  | smartpackReadSequence r err => exact execSmartpackReadSequence_frameCount r err s
  | smartpackRetry r err => exact execSmartpackRetry_frameCount r err s
  | packNegotiate ohm vbat => exact execPackNegotiate_frameCount ohm vbat s
  | absentRedetect changed => exact execAbsentRedetect_frameCount changed s
  | chargeSustainedExpiry => exact execChargeSustainedExpiry_frameCount s
  | chargeTermination => exact execChargeTermination_frameCount s
  | safetyTimerExpiry => exact execSafetyTimerExpiry_frameCount s
  | sourceAbsenceTimer => exact execSourceAbsenceTimer_frameCount s
  | tempHwStop n => exact execTempHwStop_frameCount n s
  | tempHwStopRelease n => exact execTempHwStopRelease_frameCount n s
  | tsOpen n => exact execTsOpen_frameCount n s
  | tsShort n => exact execTsShort_frameCount n s
  | batRemoval t seen => exact execBatRemoval_frameCount t seen s
  | batRemoved => exact execBatRemoved_frameCount s
  | batShort mv => exact execBatShort_frameCount mv s
  | statLatchRead => exact execStatLatchRead_frameCount s
  | lampEdge ms => exact execLampEdge_frameCount ms s
  | chgSuspend suspend => exact execChgSuspend_frameCount suspend s
  | chgIHost limit => exact execChgIHost_frameCount limit s
  | chgClrFault => exact execChgClrFault_frameCount s
  | chgEnableRestore => exact execChgEnableRestore_frameCount s
  | vselChange rail index => exact execVselChange_frameCount rail index s
  | rlNop tag => exact execRlNop_frameCount tag s
  | rlHello tag speed keep version => exact execRlHello_frameCount tag speed keep version s
  | rlSetV tag rail slew code mv => exact execRlSetV_frameCount tag rail slew code mv s
  | rlRelease tag rail mv => exact execRlRelease_frameCount tag rail mv s
  | rlEnable tag rail on mv => exact execRlEnable_frameCount tag rail on mv s
  | rlTableWrite tag rail index code mv => exact execRlTableWrite_frameCount tag rail index code mv s
  | rlPlan tag set plan => exact execRlPlan_frameCount tag set plan s
  | rlAptA tag frn7 len => exact execRlAptA_frameCount tag frn7 len s
  | rlAptB tag slot cycle => exact execRlAptB_frameCount tag slot cycle s
  | rlRead tag read => exact execRlRead_frameCount tag read s
  | rlResend tag => exact execRlResend_frameCount tag s
  | rlBadOpcode tag range => exact execRlBadOpcode_frameCount tag range s
  | rlCrcError tag => exact execRlCrcError_frameCount tag s
  | rlFrameAbandon clock => exact execRlFrameAbandon_frameCount clock s
  | railArrived rail mv => exact execRailArrived_frameCount rail mv s
  | polSoftStart n at_ => exact execPolSoftStart_frameCount n at_ s
  | polSsShort test => exact execPolSsShort_frameCount test s
  | polRetry n vout => exact execPolRetry_frameCount n vout s
  | polOcp n load => exact execPolOcp_frameCount n load s
  | polOv n mv => exact execPolOv_frameCount n mv s
  | polUvlo vsys => exact execPolUvlo_frameCount vsys s
  | polUvloRestart => exact execPolUvloRestart_frameCount s
  | polFrzFloor n => exact execPolFrzFloor_frameCount n s
  | polHoldLimit n fold mv => exact execPolHoldLimit_frameCount n fold mv s
  | railClrLatch => exact execRailClrLatch_frameCount s
  | qrLimit n dropout => exact execQrLimit_frameCount n dropout s
  | qrThermal n temp => exact execQrThermal_frameCount n temp s
  | kaEnable => exact execKaEnable_frameCount s
  | kaGap t ms mv => exact execKaGap_frameCount t ms mv s
  | kaNodeRecover t us mv => exact execKaNodeRecover_frameCount t us mv s
  | kaLimit current => exact execKaLimit_frameCount current s
  | kaStandbyHandover => exact execKaStandbyHandover_frameCount s
  | kaOffsetRemoval => exact execKaOffsetRemoval_frameCount s
  | ccAttachSnk cc2 rp => exact execCcAttachSnk_frameCount cc2 rp s
  | ccAttachSrc cc2 ra => exact execCcAttachSrc_frameCount cc2 ra s
  | ccDetach => exact execCcDetach_frameCount s
  | accessoryAttach kind => exact execAccessoryAttach_frameCount kind s
  | drpToggle => exact execDrpToggle_frameCount s
  | sourceCapabilities pdos partner => exact execSourceCapabilities_frameCount pdos partner s
  | pdAccept => exact execPdAccept_frameCount s
  | pdPsRdy => exact execPdPsRdy_frameCount s
  | ppsRequestRepeat => exact execPpsRequestRepeat_frameCount s
  | eprKeepalive acked => exact execEprKeepalive_frameCount acked s
  | sourceBringup => exact execSourceBringup_frameCount s
  | sourceSwitchClose vcbuf seen => exact execSourceSwitchClose_frameCount vcbuf seen s
  | sourceBringupTimeout vbus => exact execSourceBringupTimeout_frameCount vbus s
  | sinkRequest ask mv curr => exact execSinkRequest_frameCount ask mv curr s
  | sourceTransitionStart => exact execSourceTransitionStart_frameCount s
  | sourcePsRdy vbus => exact execSourcePsRdy_frameCount vbus s
  | srcOcp ma => exact execSrcOcp_frameCount ma s
  | ppsSourceTimeout => exact execPpsSourceTimeout_frameCount s
  | sourceRoleEnd cause vbus slow => exact execSourceRoleEnd_frameCount cause vbus slow s
  | cblExitSrc => exact execCblExitSrc_frameCount s
  | dcinEndsSource => exact execDcinEndsSource_frameCount s
  | vconnOcp ma => exact execVconnOcp_frameCount ma s
  | vconnSwap received => exact execVconnSwap_frameCount received s
  | cableDiscoverIdentity answer => exact execCableDiscoverIdentity_frameCount answer s
  | prSwapReceived => exact execPrSwapReceived_frameCount s
  | cblPrSwap => exact execCblPrSwap_frameCount s
  | drSwap => exact execDrSwap_frameCount s
  | frsSignalDetect => exact execFrsSignalDetect_frameCount s
  | frSwapReceived => exact execFrSwapReceived_frameCount s
  | frsTimeout => exact execFrsTimeout_frameCount s
  | softReset received => exact execSoftReset_frameCount received s
  | pdResponseTimeout wait => exact execPdResponseTimeout_frameCount wait s
  | pdNoResponse => exact execPdNoResponse_frameCount s
  | hardReset received => exact execHardReset_frameCount received s
  | cablePulledInTransition => exact execCablePulledInTransition_frameCount s
  | frameShareEnter dir partnerTx partnerRx ack => exact execFrameShareEnter_frameCount dir partnerTx partnerRx ack s
  | cblFsEnter => exact execCblFsEnter_frameCount s
  | cblFsExit => exact execCblFsExit_frameCount s
  | hRstNSourceTimeout vbus => exact execHRstNSourceTimeout_frameCount vbus s
  | ccOvp pads => exact execCcOvp_frameCount pads s
  | sequenceEntryDue e x => exact execSequenceEntryDue_frameCount e x s
  | injectedConversionDone tkt x => exact execInjectedConversionDone_frameCount tkt x s
  | sliceRotation => exact execSliceRotation_frameCount s
  | spareCalibrationDone c => exact execSpareCalibrationDone_frameCount c s
  | adcSliceFault slice timeout tkt => exact execAdcSliceFault_frameCount slice timeout tkt s
  | foregroundCalStart tctl => exact execForegroundCalStart_frameCount tctl s
  | foregroundCalDone tctl refmon consts => exact execForegroundCalDone_frameCount tctl refmon consts s
  | refSettled => exact execRefSettled_frameCount s
  | refMon ppm => exact execRefMon_frameCount ppm s
  | refoutLimit current => exact execRefoutLimit_frameCount current s
  | adcOvr slice tag high t => exact execAdcOvr_frameCount slice tag high t s
  | calDue => exact execCalDue_frameCount s
  | adcClrFence => exact execAdcClrFence_frameCount s
  | journalAppend => exact execJournalAppend_frameCount s
  | holdupAllowanceUpdate vchold => exact execHoldupAllowanceUpdate_frameCount vchold s
  | choldMeasure us current => exact execCholdMeasure_frameCount us current s
  | holdupEvent t => exact execHoldupEvent_frameCount t s
  | resumeStart x => exact execResumeStart_frameCount x s
  | pageClose => exact execPageClose_frameCount s
  | pageCommit => exact execPageCommit_frameCount s
  | nandProgFail => exact execNandProgFail_frameCount s
  | nandEraseDone block ok => exact execNandEraseDone_frameCount block ok s
  | nandEccRead code corrections => exact execNandEccRead_frameCount code corrections s
  | sealBuild status => exact execSealBuild_frameCount status s
  | keepaliveFlush => exact execKeepaliveFlush_frameCount s
  | nandScan torn => exact execNandScan_frameCount torn s
  | journalFull => exact execJournalFull_frameCount s
  | journalFullExit => exact execJournalFullExit_frameCount s
  | jrSummary x => exact execJrSummary_frameCount x s
  | rtcOscFail => exact execRtcOscFail_frameCount s
  | rtcBkpLow mv => exact execRtcBkpLow_frameCount mv s
  | rtcRateCorrection err => exact execRtcRateCorrection_frameCount err s
  | ticketIssue owner stream chan unit dur idem crit =>
    exact execTicketIssue_frameCount owner stream chan unit dur idem crit s
  | tableFull => exact execTableFull_frameCount s
  | ticketRetire num => exact execTicketRetire_frameCount num s
  | ticketDeadline num => exact execTicketDeadline_frameCount num s
  | durableCommit strm => exact execDurableCommit_frameCount strm s
  | ticketFailure num => exact execTicketFailure_frameCount num s
  | heldRetry num ok => exact execHeldRetry_frameCount num ok s
  | faultWordCollect => exact execFaultWordCollect_frameCount s
  | escTrackerExpiry => exact execEscTrackerExpiry_frameCount s
  | faultReaction => exact execFaultReaction_frameCount s
  | degradeClose => exact execDegradeClose_frameCount s
  | fenceLift id => exact execFenceLift_frameCount id s
  | recoveryWindowClear id => exact execRecoveryWindowClear_frameCount id s
  | fltClrPerm => exact execFltClrPerm_frameCount s
  | fltHistClr => exact execFltHistClr_frameCount s
  | twinClaim low => exact execTwinClaim_frameCount low s
  | twinClaimWaitExpiry low => exact execTwinClaimWaitExpiry_frameCount low s
  | twinTrainTimeout => exact execTwinTrainTimeout_frameCount s
  | twinLinkTrained pState sameSequence => exact execTwinLinkTrained_frameCount pState sameSequence s
  | twmCfgDigest h digest position pairId => exact execTwmCfgDigest_frameCount h digest position pairId s
  | twinHeartbeatSend t ika => exact execTwinHeartbeatSend_frameCount t ika s
  | twmHeartbeat h frn sc state mode mirrorWm commitWm allow ika =>
    exact execTwmHeartbeat_frameCount h frn sc state mode mirrorWm commitWm allow ika s
  | twinHbLost => exact execTwinHbLost_frameCount s
  | twinFailover t => exact execTwinFailover_frameCount t s
  | twinResign cause => exact execTwinResign_frameCount cause s
  | twnCtlResign => exact execTwnCtlResign_frameCount s
  | twnCtlEnrol => exact execTwnCtlEnrol_frameCount s
  | twnCtlFork => exact execTwnCtlFork_frameCount s
  | twmMirror h bytes => exact execTwmMirror_frameCount h bytes s
  | twmMirrorAck h jsn => exact execTwmMirrorAck_frameCount h jsn s
  | twmAppend h fwd bytes => exact execTwmAppend_frameCount h fwd bytes s
  | twmResyncReq h fromJsn => exact execTwmResyncReq_frameCount h fromJsn s
  | twmResyncData h bytes => exact execTwmResyncData_frameCount h bytes s
  | twmTime h mode utc tai sub => exact execTwmTime_frameCount h mode utc tai sub s
  | twinTimeSend => exact execTwinTimeSend_frameCount s
  | twmEpochStale h epoch leadPos => exact execTwmEpochStale_frameCount h epoch leadPos s
  | twinMessageRepeat acked => exact execTwinMessageRepeat_frameCount acked s
  | twinFenceRetrain ok => exact execTwinFenceRetrain_frameCount ok s
  | twinResyncFail => exact execTwinResyncFail_frameCount s
  | hpWriteTransfer addr bytes => exact execHpWriteTransfer_frameCount addr bytes s
  | hpReadTransfer addr count => exact execHpReadTransfer_frameCount addr count s
  | hpTransferAbort cut => exact execHpTransferAbort_frameCount cut s
  | hpTimeout completed => exact execHpTimeout_frameCount completed s
  | hpDozeWake addr read => exact execHpDozeWake_frameCount addr read s
  | hpAlertResponse lost => exact execHpAlertResponse_frameCount lost s
  | sbTransaction tkt err data => exact execSbTransaction_frameCount tkt err data s
  | sbArbLost tkt => exact execSbArbLost_frameCount tkt s
  | sbArbFrame tkt restart => exact execSbArbFrame_frameCount tkt restart s
  | sbDeferredStart tkt overrun => exact execSbDeferredStart_frameCount tkt overrun s
  | sbStretchTmo tkt => exact execSbStretchTmo_frameCount tkt s
  | sbBusStuck scl sda => exact execSbBusStuck_frameCount scl sda s
  | sbBusClear ok clocks => exact execSbBusClear_frameCount ok clocks s
  | tabienMessageReceive rx msg crcOk => exact execTabienMessageReceive_frameCount rx msg crcOk s
  | tmAck rx => exact execTmAck_frameCount rx s
  | tabienResendTimer sender => exact execTabienResendTimer_frameCount sender s
  | tabienLinkTraining good => exact execTabienLinkTraining_frameCount good s
  | tmLinkUp rx => exact execTmLinkUp_frameCount rx s
  | tmCmd => exact execTmCmd_frameCount s
  | tmResult => exact execTmResult_frameCount s
  | tmSnap => exact execTmSnap_frameCount s
  | tmEvent => exact execTmEvent_frameCount s
  | tmAdc => exact execTmAdc_frameCount s
  | tmDrainData => exact execTmDrainData_frameCount s
  | tmCfg => exact execTmCfg_frameCount s
  | tmBudget => exact execTmBudget_frameCount s
  | tmXfer => exact execTmXfer_frameCount s
  | tmHfault => exact execTmHfault_frameCount s
  | tmCable => exact execTmCable_frameCount s
  | tmHstatus => exact execTmHstatus_frameCount s
  | tmRdclr => exact execTmRdclr_frameCount s
  | tmJrec => exact execTmJrec_frameCount s
  | tmCfgReq => exact execTmCfgReq_frameCount s
  | tmDrainReq => exact execTmDrainReq_frameCount s
  | tmUpdData => exact execTmUpdData_frameCount s
  | snapStale => exact execSnapStale_frameCount s
  | mbxSubmit => exact execMbxSubmit_frameCount s
  | mbxPop => exact execMbxPop_frameCount s
  | ping strm => exact execPing_frameCount strm s
  | regRead strm => exact execRegRead_frameCount strm s
  | regWrite strm => exact execRegWrite_frameCount strm s
  | adcInject strm => exact execAdcInject_frameCount strm s
  | refchkRun strm mean tctl => exact execRefchkRun_frameCount strm mean tctl s
  | calStage strm => exact execCalStage_frameCount strm s
  | calCommit strm readsBack => exact execCalCommit_frameCount strm readsBack s
  | kaStatement strm => exact execKaStatement_frameCount strm s
  | timeSet strm => exact execTimeSet_frameCount strm s
  | release strm => exact execRelease_frameCount strm s
  | sbXfer strm => exact execSbXfer_frameCount strm s
  | streamReset strm => exact execStreamReset_frameCount strm s
  | registerWrite addr value => exact execRegisterWrite_frameCount addr value s
  | drnStatus bytes => exact execDrnStatus_frameCount bytes s
  | drnIdent bytes => exact execDrnIdent_frameCount bytes s
  | drnRead bytes => exact execDrnRead_frameCount bytes s
  | drnReadQ bytes => exact execDrnReadQ_frameCount bytes s
  | drnRequest block => exact execDrnRequest_frameCount block s
  | drnGo => exact execDrnGo_frameCount s
  | readJsn => exact execReadJsn_frameCount s
  | readCert => exact execReadCert_frameCount s
  | drainAbort => exact execDrainAbort_frameCount s
  | drnWrite ofs data => exact execDrnWrite_frameCount ofs data s
  | drnWriteQ ofs data => exact execDrnWriteQ_frameCount ofs data s
  | pwrReqChange high => exact execPwrReqChange_frameCount high s
  | hostPwr strm => exact execHostPwr_frameCount strm s
  | hcoreDoze => exact execHcoreDoze_frameCount s
  | hcoreWake repairParity => exact execHcoreWake_frameCount repairParity s
  | keepaliveEntry => exact execKeepaliveEntry_frameCount s
  | keepaliveDomainSwitch => exact execKeepaliveDomainSwitch_frameCount s
  | keepaliveTicketTimeout => exact execKeepaliveTicketTimeout_frameCount s
  | keepaliveWake ms repairParity => exact execKeepaliveWake_frameCount ms repairParity s
  | keepaliveSecondWake vbat ibat vka ika vqr1 vqr2 tctl tpack vchold =>
    exact execKeepaliveSecondWake_frameCount vbat ibat vka ika vqr1 vqr2 tctl tpack vchold s
  | shipNHold => exact execShipNHold_frameCount s
  | shipEnter strm => exact execShipEnter_frameCount strm s
  | shipEntry qualifiedBefore => exact execShipEntry_frameCount qualifiedBefore s
  | shipWake b v => exact absurd rfl (hwake b v)
  | coldStart x => exact execColdStart_frameCount x s
  | warmStart x => exact execWarmStart_frameCount x s
  | fieldWReset cause => exact execFieldWReset_frameCount cause s
  | hostWReset cause => exact execHostWReset_frameCount cause s
  | fieldPinReset low => exact execFieldPinReset_frameCount low s
  | hostPinReset low => exact execHostPinReset_frameCount low s
  | faonPowerLoss l => exact absurd rfl (hloss l)
  | svcChallenge strm => exact execSvcChallenge_frameCount strm s
  | svcEnter strm => exact execSvcEnter_frameCount strm s
  | svcExit strm => exact execSvcExit_frameCount strm s
  | keyEnrol strm => exact execKeyEnrol_frameCount strm s
  | cfgStage strm => exact execCfgStage_frameCount strm s
  | cfgCommit strm readsBack => exact execCfgCommit_frameCount strm readsBack s
  | fieldReset strm => exact execFieldReset_frameCount strm s
  | serviceTimeout => exact execServiceTimeout_frameCount s
  | serviceLockoutEnd => exact execServiceLockoutEnd_frameCount s
  | wdgServiceWrite side key => exact execWdgServiceWrite_frameCount side key s
  | wdgForeignWrite writer => exact execWdgForeignWrite_frameCount writer s
  | wdgWindowOpen side => exact execWdgWindowOpen_frameCount side s
  | wdgWindowClose side => exact execWdgWindowClose_frameCount side s
  | wdgStartTimeout side => exact execWdgStartTimeout_frameCount side s
  | checkinWrite e => exact execCheckinWrite_frameCount e s
  | memorySelftestMacro side id defects spareBad => exact execMemorySelftestMacro_frameCount side id defects spareBad s
  | bistBurn side bad => exact execBistBurn_frameCount side bad s
  | bistEngTest => exact execBistEngTest_frameCount s
  | updBegin strm => exact execUpdBegin_frameCount strm s
  | updChunk strm => exact execUpdChunk_frameCount strm s
  | updBlockWrite readsBack => exact execUpdBlockWrite_frameCount readsBack s
  | updFinish strm => exact execUpdFinish_frameCount strm s
  | updActivate strm => exact execUpdActivate_frameCount strm s
  | updAbort strm => exact execUpdAbort_frameCount strm s
  | updQuery strm => exact execUpdQuery_frameCount strm s
  | updRevert strm => exact execUpdRevert_frameCount strm s
  | handoverStart => exact execHandoverStart_frameCount s
  | handoverReady us len => exact execHandoverReady_frameCount us len s
  | handoverFallback unreadable us len => exact execHandoverFallback_frameCount unreadable us len s
  | probationPass => exact execProbationPass_frameCount s
  | probationFail cause => exact execProbationFail_frameCount cause s
  | lbStart side => exact execLbStart_frameCount side s
  | lbRunEnd side back run value => exact execLbRunEnd_frameCount side back run value s
  | lbTimeout side => exact execLbTimeout_frameCount side s
  | fiArm => exact execFiArm_frameCount s
  | fiInject => exact execFiInject_frameCount s
  | fvioLow => exact execFvioLow_frameCount s
  | hvioLow => exact execHvioLow_frameCount s
  | testPadHigh pads => exact execTestPadHigh_frameCount pads s
  | errorRecoveryExit => exact execErrorRecoveryExit_frameCount s
  | lossOfLock rx => exact execLossOfLock_frameCount rx s
  | fVioReturn => exact execFVioReturn_frameCount s
  | hVioReturn => exact execHVioReturn_frameCount s
  | twinLinkCrc => exact execTwinLinkCrc_frameCount s
  | kaThermalFold temp => exact execKaThermalFold_frameCount temp s

/-- Settles O6: the tick is the one command that counts frames, only a loss of F-AON resets the count, and every other
command is a composition of operations that leave the frame count as it is. -/
theorem frameNumberCountsTicks : Obligations.FrameNumberCountsTicks := by
  refine ⟨fun f s hon hfrn => ?_, fun f s hon hfrn => ?_, fun l s hon => ?_, fun s hpg => ?_,
    fun c s t ht htick hloss hfall hwake => ?_, fun b v s t ht _ hcell => ?_, by decide⟩
  · obtain ⟨t, ht, hcount⟩ := execFrameTick_frameCount f hon
    exact ⟨t, ht, Prod.mk.inj (hcount.trans (Hw.closeFrame_frameCount hfrn))⟩
  · obtain ⟨t, ht, hcount⟩ := execFrameTick_frameCount f hon
    obtain ⟨hzero, hwrap⟩ := Prod.mk.inj (hcount.trans (Hw.closeFrame_frameCount_wrap hfrn))
    refine ⟨t, ht, hzero, fun hlt => ?_⟩
    rw [hwrap, satN, if_neg (by omega)]
  · obtain ⟨t, ht, hcount⟩ := execFaonPowerLoss_frameCount l hon
    exact ⟨t, ht, Prod.mk.inj hcount⟩
  · obtain ⟨t, ht, hcount⟩ := execDomainPgFall_fAon_frameCount hpg
    exact ⟨t, ht, Prod.mk.inj hcount⟩
  · exact Prod.mk.inj (exec_keepsFrameCount s htick hloss hfall hwake t ht)
  · exact Prod.mk.inj (execShipWake_frameCount b v hcell t ht)

end Sys2Proof.Machine
end

