-- ==== Sys2Proof/Proofs/Queue.lean ====
section
/-! PROOFS. The queue of commands and the state after reset. -/

namespace Sys2Proof.Machine

/-- Every command completes, and its effect stays beside the queue. -/
theorem exec_keepsQueue (c : Instr) (s : State) : ∃ t, exec c s = .next t ∧ t.pending = s.pending := by
  cases c <;> exact ⟨_, rfl, rfl⟩

/-- A step takes the first waiting command, where there is one. -/
theorem step_takesFront (s : State) : ∃ t, step s = .next t ∧ t.pending = s.pending.drop 1 := by
  cases hq : s.pending with
  | nil => exact ⟨s, by simp [step, hq], by simp [hq]⟩
  | cons c rest =>
    obtain ⟨t, ht, hpend⟩ := exec_keepsQueue c { s with pending := rest }
    exact ⟨t, by simp [step, hq, ht], by simpa using hpend⟩

theorem core_run_succ {s t : State} (k : Nat) (ht : step s = .next t) : core.run (k + 1) s = core.run k t := by
  have hstep : core.step s = .next t := ht
  simp only [Host.Core.run, hstep]

theorem reset_rd (f : Field) : State.reset.hw.rd f = f.reset := rfl

/-- Settles O1: `step` is this case distinction on the queue. -/
theorem stepRunsFrontCommand : Obligations.StepRunsFrontCommand := by
  refine ⟨fun c s hhead => ?_, fun s hempty => ?_⟩
  · obtain ⟨rest, hrest⟩ := List.head?_eq_some_iff.mp hhead
    simp [step, hrest]
  · simp [step, hempty]

/-- Settles O2, by induction on the number of steps. -/
theorem runTakesCommandsInOrder : Obligations.RunTakesCommandsInOrder := by
  intro k
  induction k with
  | zero => exact fun s => ⟨s, rfl, rfl⟩
  | succ k ih =>
    intro s
    obtain ⟨t, ht, hfront⟩ := step_takesFront s
    obtain ⟨u, hu, hdrop⟩ := ih t
    refine ⟨u, (core_run_succ k ht).trans hu, ?_⟩
    rw [hdrop, hfront, List.drop_drop, Nat.add_comm]

/-- Settles O5: after reset no register is listed, and every bounded store is empty. -/
theorem invariantsHoldAtReset : Obligations.InvariantsHoldAtReset := by
  refine ⟨reset_regs_wf, ?_, rfl⟩
  unfold Hw.bounded
  decide

/-- Settles O9: no register is listed after reset, so each reads its reset value. -/
theorem resetLeaves : Obligations.ResetLeaves :=
  ⟨reset_rd, rfl, rfl, rfl, rfl, rfl, rfl, rfl, rfl, fun e => by cases e <;> rfl, rfl⟩

end Sys2Proof.Machine
end

