-- ==== Sys2Proof/Proofs/Scopes.lean ====
section
/-! PROOFS. What an operation may change: its scope, and the calculus of scopes that every operation's lemma uses. -/

set_option Elab.async false


namespace Sys2Proof.Machine

/-! ### Scopes -/

/-- A touch takes in the field with a key. An array's fields stand at equal distances, so two of them say which they
are. -/
def Touch.hits : Touch → Nat → Bool
  | .part _, _ => false
  | .reg f, k => Nat.beq f.key k
  | .array g, k => Nat.ble (g 0).key k && Nat.beq ((k - (g 0).key) % ((g 1).key - (g 0).key)) 0
  | .fieldSide, k => isFieldAddr (k / 32)
  | .hostSide, k => !isFieldAddr (k / 32)

/-- One touch takes in all that another does. -/
def Touch.le : Touch → Touch → Bool
  | .part p, .part q => Nat.beq p.ctorIdx q.ctorIdx
  | .reg f, y => y.hits f.key
  | .array g, .array g' => Nat.beq (g 0).key (g' 0).key && Nat.beq (g 1).key (g' 1).key
  | .fieldSide, .fieldSide => true
  | .hostSide, .hostSide => true
  | _, _ => false

theorem Part.eq_of_beq {p q : Part} (h : Nat.beq p.ctorIdx q.ctorIdx = true) : p = q := by
  rw [← Part.ofNat_ctorIdx p, Nat.eq_of_beq_eq_true h, Part.ofNat_ctorIdx]

/-- The touches of a list take in both sides of the register map. -/
def Touch.bothSides (l : List Touch) : Bool := l.any (Touch.fieldSide.le ·) && l.any (Touch.hostSide.le ·)

/-- A touch is about register fields. -/
def Touch.isField : Touch → Bool
  | .part _ => false
  | _ => true

/-- The bit that stands for a touch; an array has none. -/
def Touch.bit? : Touch → Option Nat
  | .part p => some p.ctorIdx
  | .fieldSide => some 62
  | .hostSide => some 63
  | .reg f => some (64 + f.key)
  | .array _ => none

/-- The bits of a list's touches, for a quick comparison of two lists. -/
def Touch.mask : List Touch → Nat
  | [] => 0
  | x :: l => match x.bit? with
    | some n => Nat.lor (Nat.shiftLeft 1 n) (Touch.mask l)
    | none => Touch.mask l

/-- A touch stands in a list as its bit says. -/
def Touch.marked (x : Touch) (l : List Touch) : Bool :=
  match x.bit? with
  | some n => Nat.testBit (Touch.mask l) n
  | none => false

/-- The touches of a list take in all that one touch does. -/
def Touch.within (x : Touch) (l : List Touch) : Bool :=
  x.marked l || (l.any (x.le ·) || (x.isField && Touch.bothSides l))

/-- The touches of one list are taken in by those of another. -/
def Touch.covers (l' l : List Touch) : Bool :=
  (Nat.beq (Nat.lor (Touch.mask l) (Touch.mask l')) (Touch.mask l') &&
    l.all fun x => x.bit?.isSome || x.within l') || l.all (·.within l')

/-- No touch of a list takes in the field with a key. -/
def Touch.spares (l : List Touch) (k : Nat) : Bool := l.all fun x => !x.hits k

theorem Touch.testBit_mask {l : List Touch} {n : Nat} :
    (Touch.mask l).testBit n = true ↔ ∃ x ∈ l, x.bit? = some n := by
  induction l with
  | nil => simp [Touch.mask]
  | cons x l ih =>
    rw [Touch.mask, List.exists_mem_cons_iff, ← ih]
    cases hx : x.bit? with
    | none => simp
    | some k =>
      change (1 <<< k ||| Touch.mask l).testBit n = true ↔ _
      rw [Nat.testBit_or, Bool.or_eq_true, Nat.one_shiftLeft, Nat.testBit_two_pow, Option.some.injEq]
      simp

/-- Touches of one bit are the same touch, but for what a field is beside its key. -/
theorem Touch.le_of_bit {x y : Touch} {n : Nat} (hx : x.bit? = some n) (hy : y.bit? = some n) : x.le y = true := by
  have hpart : ∀ p : Part, p.ctorIdx < 60 := fun p => by cases p <;> decide
  cases x with
  | part p =>
    have hp := hpart p
    cases y with
    | part q =>
      have hq := hpart q
      simp_all [Touch.bit?, Touch.le]
    | _ => simp_all [Touch.bit?] <;> omega
  | reg f =>
    cases y with
    | part q =>
      have hq := hpart q
      simp_all [Touch.bit?]
      omega
    | _ => simp_all [Touch.bit?, Touch.le, Touch.hits] <;> omega
  | array g => cases hx
  | fieldSide =>
    cases y with
    | part q =>
      have hq := hpart q
      simp_all [Touch.bit?]
      omega
    | _ => simp_all [Touch.bit?, Touch.le] <;> omega
  | hostSide =>
    cases y with
    | part q =>
      have hq := hpart q
      simp_all [Touch.bit?]
      omega
    | _ => simp_all [Touch.bit?, Touch.le] <;> omega

theorem Touch.any_of_marked {x : Touch} {l : List Touch} (h : x.marked l = true) : l.any (x.le ·) = true := by
  unfold Touch.marked at h
  split at h
  · next n hx =>
    obtain ⟨y, hy, hyn⟩ := Touch.testBit_mask.1 h
    exact List.any_eq_true.2 ⟨y, hy, Touch.le_of_bit hx hyn⟩
  · cases h

theorem Touch.within_iff {x : Touch} {l : List Touch} :
    x.within l = true ↔ l.any (x.le ·) = true ∨ (x.isField = true ∧ Touch.bothSides l = true) := by
  rw [Touch.within, Bool.or_eq_true, Bool.or_eq_true, Bool.and_eq_true]
  exact ⟨fun h => h.elim (fun h => .inl (Touch.any_of_marked h)) id, .inr⟩

theorem Touch.covers_iff {l' l : List Touch} : Touch.covers l' l = true ↔ ∀ x ∈ l, x.within l' = true := by
  rw [Touch.covers, Bool.or_eq_true, Bool.and_eq_true, List.all_eq_true, List.all_eq_true]
  refine ⟨fun h => h.elim (fun ⟨hmask, hall⟩ x hx => ?_) id, .inr⟩
  rcases Bool.or_eq_true_iff.1 (hall x hx) with hbit | hin
  · obtain ⟨n, hn⟩ := Option.isSome_iff_exists.1 hbit
    have hset : (Touch.mask l').testBit n = true := by
      rw [← Nat.eq_of_beq_eq_true hmask]
      change (Touch.mask l ||| Touch.mask l').testBit n = true
      rw [Nat.testBit_or, Bool.or_eq_true]
      exact .inl (Touch.testBit_mask.2 ⟨x, hx, hn⟩)
    obtain ⟨y, hy, hyn⟩ := Touch.testBit_mask.1 hset
    exact Touch.within_iff.2 (.inl (List.any_eq_true.2 ⟨y, hy, Touch.le_of_bit hn hyn⟩))
  · exact hin

theorem Touch.bothSides_hits {l : List Touch} (h : Touch.bothSides l = true) (k : Nat) :
    ∃ y ∈ l, y.hits k = true := by
  simp only [Touch.bothSides, Bool.and_eq_true, List.any_eq_true] at h
  obtain ⟨⟨x, hx, hxl⟩, y, hy, hyl⟩ := h
  have hx' : x = .fieldSide := by cases x <;> simp_all [Touch.le]
  have hy' : y = .hostSide := by cases y <;> simp_all [Touch.le]
  subst hx' hy'
  by_cases hk : isFieldAddr (k / 32) = true
  · exact ⟨_, hx, hk⟩
  · exact ⟨_, hy, by simpa [Touch.hits] using hk⟩

theorem Touch.hits_of_le {x y : Touch} (h : x.le y = true) {k : Nat} (hk : x.hits k = true) : y.hits k = true := by
  cases x with
  | part p => cases hk
  | reg f =>
    obtain rfl : f.key = k := by simpa [Touch.hits] using hk
    exact h
  | array g =>
    cases y with
    | array g' =>
      simp only [Touch.le, Bool.and_eq_true, Nat.beq_eq] at h
      simpa only [Touch.hits, h.1, h.2] using hk
    | _ => cases h
  | fieldSide => cases y <;> first | exact hk | cases h
  | hostSide => cases y <;> first | exact hk | cases h

theorem Touch.hits_of_within {x : Touch} {l : List Touch} (h : x.within l = true) {k : Nat} (hk : x.hits k = true) :
    ∃ y ∈ l, y.hits k = true := by
  simp only [Touch.within_iff, List.any_eq_true] at h
  obtain ⟨y, hy, hle⟩ | ⟨-, h⟩ := h
  · exact ⟨y, hy, Touch.hits_of_le hle hk⟩
  · exact Touch.bothSides_hits h k

theorem Touch.part_mem_of_within {p : Part} {l : List Touch} (h : (Touch.part p).within l = true) : .part p ∈ l := by
  simp only [Touch.within_iff, Touch.isField, Bool.false_eq_true, false_and, or_false, List.any_eq_true] at h
  obtain ⟨y, hy, hle⟩ := h
  cases y with
  | part q => rwa [Part.eq_of_beq hle]
  | _ => cases hle

theorem Touch.spares_iff {l : List Touch} {k : Nat} : Touch.spares l k = true ↔ ∀ x ∈ l, x.hits k = false := by
  simp [Touch.spares]

theorem Touch.spares_of_covers {l l' : List Touch} (h : Touch.covers l' l = true) {k : Nat}
    (hk : Touch.spares l' k = true) : Touch.spares l k = true := by
  rw [Touch.spares_iff] at hk ⊢
  intro x hx
  refine Bool.eq_false_iff.2 fun hh => ?_
  obtain ⟨y, hy, hyk⟩ := Touch.hits_of_within (Touch.covers_iff.1 h x hx) hh
  rw [hk y hy] at hyk
  cases hyk

theorem Touch.within_iff_hits {f : Field} {l : List Touch} :
    (Touch.reg f).within l = true ↔ Touch.spares l f.key = false := by
  rw [← Bool.not_eq_true, Touch.spares_iff]
  constructor
  · intro h hsp
    obtain ⟨y, hy, hk⟩ := Touch.hits_of_within h (k := f.key) (by simp [Touch.hits])
    rw [hsp y hy] at hk
    cases hk
  · intro h
    push Not at h
    obtain ⟨y, hy, hk⟩ := h
    exact Touch.within_iff.2 (.inl (List.any_eq_true.2 ⟨y, hy, Bool.eq_true_of_not_eq_false hk⟩))

theorem Touch.le_trans {x y z : Touch} (h : x.le y = true) (h' : y.le z = true) : x.le z = true := by
  cases x with
  | part p =>
    cases y with
    | part q => rwa [Part.eq_of_beq h]
    | _ => cases h
  | reg f => exact Touch.hits_of_le h' h
  | array g =>
    cases y with
    | array g' =>
      cases z with
      | array g'' =>
        simp only [Touch.le, Bool.and_eq_true, Nat.beq_eq] at h h' ⊢
        exact ⟨h.1.trans h'.1, h.2.trans h'.2⟩
      | _ => cases h'
    | _ => cases h
  | fieldSide =>
    cases y with
    | fieldSide => exact h'
    | _ => cases h
  | hostSide =>
    cases y with
    | hostSide => exact h'
    | _ => cases h

theorem Touch.within_trans {x y : Touch} {l : List Touch} (h : x.le y = true) (h' : y.within l = true) :
    x.within l = true := by
  rw [Touch.within_iff] at h' ⊢
  rcases h' with h' | ⟨hy, hb⟩
  · obtain ⟨z, hz, hle⟩ := List.any_eq_true.1 h'
    exact .inl (List.any_eq_true.2 ⟨z, hz, Touch.le_trans h hle⟩)
  · refine .inr ⟨?_, hb⟩
    cases x with
    | part p =>
      cases y with
      | part q => exact hy
      | _ => simp [Touch.le] at h
    | _ => rfl

theorem Touch.bothSides_of_covers {l1 l2 : List Touch} (h : Touch.covers l2 l1 = true)
    (hb : Touch.bothSides l1 = true) :
    Touch.bothSides l2 = true := by
  have key : ∀ s : Touch, l1.any (s.le ·) = true → l2.any (s.le ·) = true ∨ Touch.bothSides l2 = true := by
    intro s hany
    obtain ⟨y, hy, hle⟩ := List.any_eq_true.1 hany
    have hs := Touch.within_trans hle (Touch.covers_iff.1 h y hy)
    rw [Touch.within_iff] at hs
    exact hs.imp_right And.right
  obtain ⟨hf, hh⟩ := Bool.and_eq_true_iff.1 hb
  rcases key .fieldSide hf with hf' | hb'
  · rcases key .hostSide hh with hh' | hb'
    · exact Bool.and_eq_true_iff.2 ⟨hf', hh'⟩
    · exact hb'
  · exact hb'

theorem Touch.covers_trans {l1 l2 l3 : List Touch} (h : Touch.covers l1 l2 = true) (h' : Touch.covers l2 l3 = true) :
    Touch.covers l1 l3 = true := by
  refine Touch.covers_iff.2 fun x hx => ?_
  have hx' := Touch.covers_iff.1 h' x hx
  rw [Touch.within_iff] at hx'
  rcases hx' with hx' | ⟨hx', hb⟩
  · obtain ⟨y, hy, hle⟩ := List.any_eq_true.1 hx'
    exact Touch.within_trans hle (Touch.covers_iff.1 h y hy)
  · exact Touch.within_iff.2 (.inr ⟨hx', Touch.bothSides_of_covers h hb⟩)

theorem Touch.covers_left {l l1 l2 : List Touch} (h : Touch.covers l (l1 ++ l2) = true) : Touch.covers l l1 = true :=
  Touch.covers_iff.2 fun x hx => Touch.covers_iff.1 h x (List.mem_append_left _ hx)

theorem Touch.covers_right {l l1 l2 : List Touch} (h : Touch.covers l (l1 ++ l2) = true) : Touch.covers l l2 = true :=
  Touch.covers_iff.2 fun x hx => Touch.covers_iff.1 h x (List.mem_append_right _ hx)

/-- The field of a touch that names one. -/
def Touch.field? : Touch → Option Field
  | .reg f => some f
  | _ => none

theorem Touch.reg_within_of_covers {l l' : List Touch} (h : Touch.covers l l' = true) {f : Field}
    (hf : f ∈ l'.filterMap Touch.field?) : (Touch.reg f).within l = true := by
  obtain ⟨x, hx, hxf⟩ := List.mem_filterMap.1 hf
  cases x with
  | reg g =>
    obtain rfl := Option.some.inj hxf
    exact Touch.covers_iff.1 h _ hx
  | _ => cases hxf

/-- Both sides take in every register field. -/
theorem Touch.within_bothSides {f : Field} {l : List Touch} (h : Touch.covers l [.fieldSide, .hostSide] = true) :
    (Touch.reg f).within l = true := by
  refine Touch.covers_iff.1 (Touch.covers_trans h (l3 := [.reg f]) ?_) _ List.mem_cons_self
  simp [Touch.covers_iff, Touch.within_iff, Touch.isField, Touch.bothSides, Touch.le]

/-! ### Scopes that go by an operand -/

/-- The touch of a side's registers. -/
def Touch.side : Side → Touch
  | .field => .fieldSide
  | .host => .hostSide

theorem Touch.side_hits (sd : Side) (k : Nat) : (Touch.side sd).hits k = (isFieldAddr (k / 32) == (sd == .field)) := by
  cases sd
  · cases h : isFieldAddr (k / 32) <;> simp [Touch.side, Touch.hits, h]
  · simp [Touch.side, Touch.hits]

/-- What a latch's live value shows in. -/
def Touch.latchLive : LatchId → List Touch
  | .intakeLim => regs [Reg.INTAKE_LIM_EFF_LIM]
  | .xferCtl | .frzPol => parts [.latches]
  | .vsysSet => regs [Reg.VSYS_SET_SET]
  | .vsysMin => regs [Reg.VSYS_MIN_MIN]
  | .phTrim n => regs [Reg.PH_TRIM_TRIM n, Reg.PH_TRIM_ENTRY n]
  | .chgV => regs [Reg.CHG_V_SET]
  | .chgI => regs [Reg.CHG_I_SET]
  | .chgEn => regs [Reg.CHG_STATUS_EN]
  | .revSet => regs [Reg.REV_SET_SET]
  | .polSet n => regs [Reg.POL_SET_SET n]
  | .qrSet n => regs [Reg.QR_SET_SET n]
  | .kaSet => regs [Reg.KA_SET_CODE, Reg.KA_SET_EN, Reg.KA_SET_TWIN]

/-- What changes with a write of a latch (R31, R163). -/
def Touch.latchWrite (l : LatchId) : List Touch :=
  Touch.latchLive l ++ parts [.latches] ++ if l = .chgI ∨ l = .chgEn then parts [.chg] else []

/-- What changes with a fault word on a side (R40, R334). -/
def Touch.faultOn : Side → List Touch
  | .host => Touch.hostFault
  | .field => parts [.faultInput] ++ regs [Reg.FLT_STATUS_LOST]

/-- What changes with a write of a latch that its loop may hold to its range (R30). -/
def Touch.latchStore (l : LatchId) : List Touch :=
  Touch.latchWrite l ++ match l.owner with | some o => Touch.faultOn o.side | none => []

/-- What changes with a write of a rail's latch (R28, R30). -/
def Touch.railSet : List Touch :=
  parts [.latches, .faultInput] ++ regs [Reg.FLT_STATUS_LOST] ++ arrays [Reg.POL_SET_SET, Reg.QR_SET_SET]

/-- What changes where a word leaves the collector's input stage (R335). -/
def Touch.collecting : List Touch :=
  Touch.issuing ++ Touch.entriesClosed ++ parts [.faultInput, .trackers, .fences, .update, .partFaults, .histRead,
  .journal, .sub, .latchFn, .linkField, .sidebands] ++ regs [Reg.FLT_STATUS_DOUBLE, Reg.FLT_STATUS_LOST,
  Reg.FLT_LAST_WORD, Reg.FLT_STATUS_MAXSEV, Reg.STAT_LATCH_FN, Reg.STAT_LATCH_EVENTS, Reg.STAT_LATCH_PADS]

/-- What changes where a fence is lifted (R340). -/
def Touch.fenceLifted : List Touch :=
  Touch.answering ++ Touch.sliceFence ++ Touch.phasesPick ++ Touch.delivering ++ parts [.fences, .engines, .wdg,
  .hwdg, .hostBusy, .linkHost, .latches, .cable, .rl, .xfer, .modes, .drain] ++ regs [Reg.FLT_FENCE_E_HOST,
  Reg.FLT_FENCE_E_FIELD, Reg.FLT_PERM_U_UNITS, Reg.FLT_PERM_E_ENGINES, Reg.TKT_EPOCH_EPOCH, Reg.TKT_EVENTS_VOIDED,
  Reg.CHG_STATUS_EN, Reg.BATFET_STATUS_STATE, Reg.CHG_STATUS_STATE, Reg.CHG_V_SET, Reg.CHG_I_SET,
  Reg.CHG_STATUS_FAULT_LATCH, Reg.STAT_LATCH_EVENTS, Reg.STAT_LATCH_PADS, Reg.STAT_LATCH_FN, Reg.RL_STATUS_EVQ,
  Reg.PH_STATUS_FENCED, Reg.SB_STATUS_FENCED, Reg.HP_STATUS_FENCED, Reg.DRN_STATUS_FENCED]

/-! ### Lists of the bounded stores -/

theorem pushWord_length {cap src : Nat} {w : FaultWord} {l : List FaultWord} (h : l.length ≤ cap) (hcap : 0 < cap) :
    (pushWord cap src w l).length ≤ cap := by
  unfold pushWord
  split
  · rw [List.length_append, List.length_singleton]
    omega
  · split
    · rw [List.length_append, List.length_singleton]
      omega
    · rw [List.length_append, List.length_singleton, List.length_dropLast]
      omega

theorem dropSent_length_le (xs ws : List FaultWord) : (dropSent xs ws).length ≤ ws.length := by
  induction xs generalizing ws with
  | nil => exact Nat.le_refl _
  | cons x xs ih =>
    cases ws with
    | nil => exact Nat.le_refl _
    | cons w ws =>
      have hle := ih ws
      rw [dropSent]
      split
      · exact Nat.le_succ_of_le hle
      · exact Nat.succ_le_succ hle

theorem leastTracker_mem {l : List Tracker} {t : Tracker} (h : leastTracker l = some t) : t ∈ l := by
  induction l with
  | nil => cases h
  | cons u us ih =>
    rw [leastTracker] at h
    split at h
    · obtain rfl := Option.some.inj h
      exact List.mem_cons_self
    · next v hv =>
      split at h
      · obtain rfl := Option.some.inj h
        exact List.mem_cons_of_mem _ (ih hv)
      · obtain rfl := Option.some.inj h
        exact List.mem_cons_self

theorem leastTracker_none {l : List Tracker} (h : leastTracker l = none) : l = [] := by
  cases l with
  | nil => rfl
  | cons u us =>
    rw [leastTracker] at h
    split at h
    · cases h
    · split at h <;> cases h

theorem lowestEntry_mem {l : List HistEntry} {e : HistEntry} (h : lowestEntry l = some e) : e ∈ l := by
  induction l with
  | nil => cases h
  | cons u us ih =>
    rw [lowestEntry] at h
    split at h
    · obtain rfl := Option.some.inj h
      exact List.mem_cons_self
    · next v hv =>
      split at h
      · obtain rfl := Option.some.inj h
        exact List.mem_cons_of_mem _ (ih hv)
      · obtain rfl := Option.some.inj h
        exact List.mem_cons_self

/-- Tickets taken away leave the others with their numbers. -/
theorem nums_filter (l : List Ticket) (p : Ticket → Bool) :
    ((l.filter p).map Ticket.num).Sublist (l.map Ticket.num) :=
  List.filter_sublist.map _

/-- A change that leaves every ticket its number. -/
theorem nums_map (l : List Ticket) {f : Ticket → Ticket} (hf : ∀ t, (f t).num = t.num) :
    ((l.map f).map Ticket.num).Sublist (l.map Ticket.num) := by
  have heq : (l.map f).map Ticket.num = l.map Ticket.num := by
    rw [List.map_map]
    exact List.map_congr_left fun t _ => hf t
  exact heq ▸ List.Sublist.refl _

/-- What an operation may change lies within a scope: every part and every field outside it stands as it did. And it
keeps
the canonical form of the register store and the bounds of the stores. -/
structure Within (sc : List Touch) (m m' : Hw) : Prop where
  same : ∀ p, Touch.part p ∉ sc → m.same m' p
  rd : ∀ f : Field, Touch.spares sc f.key = true → m'.rd f = m.rd f
  wf : Regs.wf m.regs → Regs.wf m'.regs
  bounded : m.bounded → m'.bounded

/-- A part that stands as it did twice over stands as it did at first. -/
theorem Hw.same_trans {m1 m2 m3 : Hw} {p : Part} (h : m1.same m2 p) (h' : m2.same m3 p) : m1.same m3 p := by
  cases p
  case modes => exact h'.trans (by rw [show m2.modes = _ from h])
  case adc => exact h'.trans (by rw [show m2.adc = _ from h])
  case journal => exact h'.trans (by rw [show m2.jrn = _ from h])
  case update => exact h'.trans (by rw [show m2.upd = _ from h])
  case domains => exact ⟨h'.1.trans h.1, h'.2.trans h.2⟩
  case latches => exact ⟨h'.1.trans h.1, h'.2.1.trans h.2.1, h'.2.2.trans h.2.2⟩
  case resetNote => exact ⟨h'.1.trans h.1, h'.2.trans h.2⟩
  case faultInput => exact ⟨h'.1.trans h.1, h'.2.1.trans h.2.1, h'.2.2.trans h.2.2⟩
  case cfgCopies => exact ⟨h'.1.trans h.1, h'.2.1.trans h.2.1, h'.2.2.trans h.2.2⟩
  case calCopies => exact ⟨h'.1.trans h.1, h'.2.trans h.2⟩
  all_goals exact Eq.trans h' h

theorem Hw.same_refl (m : Hw) (p : Part) : m.same m p := by
  cases p
  case domains | resetNote | calCopies => exact ⟨rfl, rfl⟩
  case latches | faultInput | cfgCopies => exact ⟨rfl, rfl, rfl⟩
  all_goals rfl

namespace Within
section
variable {sc sc' : List Touch} {m0 m m' : Hw}

theorem refl : Within sc m m := ⟨fun p _ => m.same_refl p, fun _ _ => rfl, id, id⟩

theorem trans (h : Within sc m0 m) (h' : Within sc m m') : Within sc m0 m' :=
  ⟨fun p hp => Hw.same_trans (h.same p hp) (h'.same p hp), fun f hf => (h'.rd f hf).trans (h.rd f hf),
    fun hw => h'.wf (h.wf hw), fun hb => h'.bounded (h.bounded hb)⟩

theorem mono (h : Within sc' m m') (hs : Touch.covers sc sc' = true) : Within sc m m' :=
  ⟨fun p hp => h.same p fun hp' => hp (Touch.part_mem_of_within (Touch.covers_iff.1 hs _ hp')),
    fun f hf => h.rd f (Touch.spares_of_covers hs hf), h.wf, h.bounded⟩

/-- A state reached within a scope goes on within a scope that the first takes in. -/
theorem andThen (h : Within sc m0 m) (hs : Touch.covers sc sc' = true) (h' : Within sc' m m') : Within sc m0 m' :=
  h.trans (h'.mono hs)

theorem ite {c : Prop} {_ : Decidable c} {a b : Hw} (ha : Within sc m0 a) (hb : Within sc m0 b) :
    Within sc m0 (if c then a else b) := by
  split
  · exact ha
  · exact hb

theorem ite_fst {β : Type} {c : Prop} {_ : Decidable c} {a b : Hw × β} (ha : Within sc m0 a.1)
    (hb : Within sc m0 b.1) : Within sc m0 (if c then a else b).1 := by
  split
  · exact ha
  · exact hb

theorem ite_snd {β : Type} {c : Prop} {_ : Decidable c} {a b : β × Hw} (ha : Within sc m0 a.2)
    (hb : Within sc m0 b.2) : Within sc m0 (if c then a else b).2 := by
  split
  · exact ha
  · exact hb

theorem dite {c : Prop} {_ : Decidable c} {a : c → Hw} {b : ¬c → Hw} (ha : ∀ h, Within sc m0 (a h))
    (hb : ∀ h, Within sc m0 (b h)) : Within sc m0 (if h : c then a h else b h) := by
  split
  · exact ha _
  · exact hb _

theorem cond {c : Bool} {a b : Hw} (ha : Within sc m0 a) (hb : Within sc m0 b) :
    Within sc m0 (bif c then a else b) := by
  cases c
  · exact hb
  · exact ha

theorem fst_eq {β : Type} {p : Hw × β} {b : β} (he : p = (m, b)) (h : Within sc m0 p.1) : Within sc m0 m := by
  rwa [he] at h

theorem snd_eq {β : Type} {p : β × Hw} {b : β} (he : p = (b, m)) (h : Within sc m0 p.2) : Within sc m0 m := by
  rwa [he] at h

theorem foldl {α : Type} {g : Hw → α → Hw} {l : List α} (h : Within sc m0 m)
    (hg : ∀ m x, Within sc m0 m → Within sc m0 (g m x)) : Within sc m0 (l.foldl g m) := by
  induction l generalizing m with
  | nil => exact h
  | cons x l ih => exact ih (hg m x h)

theorem foldl_mem {α : Type} {g : Hw → α → Hw} {l : List α} (h : Within sc m0 m)
    (hg : ∀ m, ∀ x ∈ l, Within sc m0 m → Within sc m0 (g m x)) : Within sc m0 (l.foldl g m) := by
  induction l generalizing m with
  | nil => exact h
  | cons x l ih => exact ih (hg m x List.mem_cons_self h) fun m y hy => hg m y (List.mem_cons_of_mem _ hy)

theorem foldr {α : Type} {g : α → Hw → Hw} {l : List α} (h : Within sc m0 m)
    (hg : ∀ m x, Within sc m0 m → Within sc m0 (g x m)) : Within sc m0 (l.foldr g m) := by
  induction l with
  | nil => exact h
  | cons x l ih => exact hg _ x ih

theorem getD {o : Option Hw} {d : Hw} (ho : ∀ m', o = some m' → Within sc m0 m') (hd : Within sc m0 d) :
    Within sc m0 (o.getD d) := by
  cases o with
  | none => exact hd
  | some m' => exact ho m' rfl

end
end Within

/-! ### Register fields -/

theorem Hw.same_setRegs (m : Hw) (rs : Regs) (p : Part) : m.same { m with regs := rs } p := by
  cases p
  case domains | resetNote | calCopies => exact ⟨rfl, rfl⟩
  case latches | faultInput | cfgCopies => exact ⟨rfl, rfl, rfl⟩
  all_goals rfl

namespace Within
section
variable {sc : List Touch} {m0 m : Hw}

/-- A change of the registers alone. -/
theorem setRegs (h : Within sc m0 m) {rs : Regs} (hrd : ∀ f : Field, Touch.spares sc f.key = true →
    getKey f.key f.reset rs = getKey f.key f.reset m.regs) (hwf : Regs.wf m.regs → Regs.wf rs) :
    Within sc m0 { m with regs := rs } :=
  h.trans ⟨fun p _ => m.same_setRegs rs p, hrd, hwf, id⟩

theorem wr_of_hits (h : Within sc m0 m) {f : Field} {v : Nat} (hs : Touch.spares sc f.key = false) :
    Within sc m0 (m.wr f v) :=
  h.setRegs (fun g hg => Hw.rd_wr_ne (m := m) (fun e => by rw [e, hs] at hg; cases hg) v) (Hw.wf_wr f v)

theorem wr (h : Within sc m0 m) {f : Field} {v : Nat} (hs : (Touch.reg f).within sc = true := by decide +kernel) :
    Within sc m0 (m.wr f v) := h.wr_of_hits (Touch.within_iff_hits.1 hs)

theorem wrI (h : Within sc m0 m) {f : Field} {v : Int} (hs : (Touch.reg f).within sc = true := by decide +kernel) :
    Within sc m0 (m.wrI f v) := h.wr hs

theorem wrSat (h : Within sc m0 m) {f : Field} {v : Nat} (hs : (Touch.reg f).within sc = true := by decide +kernel) :
    Within sc m0 (m.wrSat f v) := h.wr hs

theorem wrB (h : Within sc m0 m) {f : Field} {b : Bool} (hs : (Touch.reg f).within sc = true := by decide +kernel) :
    Within sc m0 (m.wrB f b) := h.wr hs

theorem add (h : Within sc m0 m) {f : Field} {n : Nat} (hs : (Touch.reg f).within sc = true := by decide +kernel) :
    Within sc m0 (m.add f n) := h.wr hs

theorem bump (h : Within sc m0 m) {f : Field} (hs : (Touch.reg f).within sc = true := by decide +kernel) :
    Within sc m0 (m.bump f) := h.wr hs

theorem wrBit (h : Within sc m0 m) {f : Field} {i : Nat} {b : Bool}
    (hs : (Touch.reg f).within sc = true := by decide +kernel) : Within sc m0 (m.wrBit f i b) := h.wr hs

end
end Within

/-- The fields of an array stand at equal distances. -/
def Reg.Even (g : Nat → Field) : Prop := ∀ i, (g i).key = (g 0).key + i * ((g 1).key - (g 0).key)

theorem Reg.Even.hits {g : Nat → Field} (hg : Reg.Even g) (i : Nat) : (Touch.array g).hits (g i).key = true := by
  simp [Touch.hits, hg i]

namespace Within
section
variable {sc : List Touch} {m0 m : Hw} {g : Nat → Field}

theorem spares_of_array {i : Nat} (hg : Reg.Even g) (hs : (Touch.array g).within sc = true) :
    Touch.spares sc (g i).key = false := by
  refine Bool.eq_false_iff.2 fun hsp => ?_
  obtain ⟨y, hy, hk⟩ := Touch.hits_of_within hs (hg.hits i)
  rw [Touch.spares_iff.1 hsp y hy] at hk
  cases hk

theorem wrAt (hg : Reg.Even g) (h : Within sc m0 m) {i v : Nat}
    (hs : (Touch.array g).within sc = true := by decide +kernel) : Within sc m0 (m.wr (g i) v) :=
  h.wr_of_hits (spares_of_array hg hs)

theorem bumpAt (hg : Reg.Even g) (h : Within sc m0 m) {i : Nat}
    (hs : (Touch.array g).within sc = true := by decide +kernel) : Within sc m0 (m.bump (g i)) := h.wrAt hg hs

end
end Within

/-! ### Arrays of registers -/

theorem Reg.FRM_BUD_USED_LAST_even : Reg.Even Reg.FRM_BUD_USED_LAST := fun i => by
  simp only [Field.key, Reg.FRM_BUD_USED_LAST]
  omega
theorem Reg.FRM_BUD_OVERRUNS_even : Reg.Even Reg.FRM_BUD_OVERRUNS := fun i => by
  simp only [Field.key, Reg.FRM_BUD_OVERRUNS]
  omega
theorem Reg.PH_TRIM_TRIM_even : Reg.Even Reg.PH_TRIM_TRIM := fun i => by simp only [Field.key, Reg.PH_TRIM_TRIM]; omega
theorem Reg.PH_TRIM_ENTRY_even : Reg.Even Reg.PH_TRIM_ENTRY := fun i => by
  simp only [Field.key, Reg.PH_TRIM_ENTRY]
  omega
theorem Reg.PH_TRIM_AT_LIMIT_even : Reg.Even Reg.PH_TRIM_AT_LIMIT := fun i => by
  simp only [Field.key, Reg.PH_TRIM_AT_LIMIT]
  omega
theorem Reg.POL_SET_SET_even : Reg.Even Reg.POL_SET_SET := fun i => by simp only [Field.key, Reg.POL_SET_SET]; omega
theorem Reg.QR_SET_SET_even : Reg.Even Reg.QR_SET_SET := fun i => by simp only [Field.key, Reg.QR_SET_SET]; omega
theorem Reg.POL_VTAB_ENTRY_LO_even : Reg.Even Reg.POL_VTAB_ENTRY_LO := fun i => by
  simp only [Field.key, Reg.POL_VTAB_ENTRY_LO]
  omega
theorem Reg.POL_VTAB_ENTRY_HI_even : Reg.Even Reg.POL_VTAB_ENTRY_HI := fun i => by
  simp only [Field.key, Reg.POL_VTAB_ENTRY_HI]
  omega
theorem Reg.CAL_CERT_ID_ID_even : Reg.Even Reg.CAL_CERT_ID_ID := fun i => by
  simp only [Field.key, Reg.CAL_CERT_ID_ID]
  omega
theorem Reg.ADC_LAST_VALUE_even : Reg.Even Reg.ADC_LAST_VALUE := fun i => by
  simp only [Field.key, Reg.ADC_LAST_VALUE]
  omega
theorem Reg.ADC_LAST_FLAGS_even : Reg.Even Reg.ADC_LAST_FLAGS := fun i => by
  simp only [Field.key, Reg.ADC_LAST_FLAGS]
  omega
theorem Reg.HOST_SEQ_N_even : Reg.Even Reg.HOST_SEQ_N := fun i => by simp only [Field.key, Reg.HOST_SEQ_N]; omega
theorem Reg.MBX_RES_RESULT_even : Reg.Even Reg.MBX_RES_RESULT := fun i => by
  simp only [Field.key, Reg.MBX_RES_RESULT]
  omega
theorem Reg.UPD_WIN_DATA_even : Reg.Even Reg.UPD_WIN_DATA := fun i => by simp only [Field.key, Reg.UPD_WIN_DATA]; omega
theorem Reg.CFG_DIGEST_DIGEST_even : Reg.Even Reg.CFG_DIGEST_DIGEST := fun i => by
  simp only [Field.key, Reg.CFG_DIGEST_DIGEST]
  omega
theorem Reg.UPD_VER_F_VERSION_even : Reg.Even Reg.UPD_VER_F_VERSION := fun i => by
  simp only [Field.key, Reg.UPD_VER_F_VERSION]
  omega
theorem Reg.HUPD_VER_H_VERSION_even : Reg.Even Reg.HUPD_VER_H_VERSION := fun i => by
  simp only [Field.key, Reg.HUPD_VER_H_VERSION]
  omega

/-! ### Parts -/

namespace Within
section
variable {sc : List Touch} {m0 m m' : Hw}

/-- An edit of one part: the registers and the other parts stand as they did. -/
theorem edit {p : Part} (h : Within sc m0 m) (hs : (Touch.part p).within sc = true) (hr : m'.regs = m.regs)
    (hb : m.bounded → m'.bounded) (hsame : ∀ q, q ≠ p → m.same m' q) : Within sc m0 m' :=
  h.trans ⟨fun q hq => hsame q fun e => hq (e ▸ Touch.part_mem_of_within hs), fun f _ => by simp only [Hw.rd, hr],
    fun hw => by rwa [hr], hb⟩

/-- Several parts edited at once: the registers and the other parts are those of the state before. -/
theorem edits {arch : Arch} {seq : Seq} {intake : Intake} {xfer : Xfer} {ph : Phases} {bat : Batfet} {chg : Charger}
    {rails : Rails} {rl : RailLink} {cable : Cable} {flt : Faults} {host : HostIf} {modes : Modes} {adc : Adc}
    {jrn : Jrn} {tkt : Tickets} {twin : Twin} {hp : HostPort} {bus : SensorBus} {wdg hwdg : Wdg} {bist : Bist}
    {upd : Update} {lb : LoopBack} {sub : List Append} {freeCtr : Nat} (h : Within sc m0 m) (ps : List Part)
    (hs : (ps.all fun p => (Touch.part p).within sc) = true := by decide +kernel)
    (hsame : ∀ q, ps.contains q = true ∨ m.same ⟨m.regs, arch, seq, intake, xfer, ph, bat, chg, rails, rl, cable,
      flt, host, modes, adc, jrn, tkt, twin, hp, bus, wdg, hwdg, bist, upd, lb, sub, freeCtr⟩ q := by
        intro q
        cases q <;> first | exact .inl rfl | (simp only [Hw.same, Hw.wr_arch, Hw.wr_flt, Hw.wr_host,
          Hw.wr_tkt, Hw.wr_modes, Hw.wr_adc, Hw.wr_jrn, Hw.wr_upd, and_self, or_true]; done) | exact .inr rfl |
          exact .inr ⟨rfl, rfl⟩ | exact .inr ⟨rfl, rfl, rfl⟩)
    (ht : (tkt.table.map Ticket.num).Sublist (m.tkt.table.map Ticket.num) := by exact List.Sublist.refl _)
    (hi : m.flt.input.length ≤ 32 → flt.input.length ≤ 32 := by exact id)
    (hb : m.flt.hostBuf.length ≤ 16 → flt.hostBuf.length ≤ 16 := by exact id)
    (hh : m.flt.hist.length ≤ 64 → flt.hist.length ≤ 64 := by exact id)
    (htr : m.flt.trackers.length ≤ 64 → flt.trackers.length ≤ 64 := by exact id) : Within sc m0 ⟨m.regs, arch, seq,
      intake, xfer, ph, bat, chg, rails, rl, cable, flt, host, modes, adc, jrn, tkt, twin, hp, bus, wdg, hwdg, bist,
      upd, lb, sub, freeCtr⟩ :=
  h.trans ⟨fun q hq => (hsame q).resolve_left fun hc => hq (Touch.part_mem_of_within
      (List.all_eq_true.1 hs q (List.contains_iff_mem.1 hc))), fun _ _ => rfl, id, fun hm => by
    obtain ⟨hlen, hnum, hinput, hbuf, hhist, htrack⟩ := hm
    have hle := ht.length_le
    rw [List.length_map, List.length_map] at hle
    exact ⟨hle.trans hlen, hnum.sublist ht, hi hinput, hb hbuf, hh hhist, htr htrack⟩⟩

theorem part_seq (h : Within sc m0 m) {x : Seq}
    (hs : (Touch.part .seq).within sc = true := by decide +kernel) :
    Within sc m0 { m with seq := x } :=
  h.edit hs rfl (id) fun q hq => by
    cases q <;> first | exact absurd rfl hq | exact rfl | exact ⟨rfl, rfl⟩ | exact ⟨rfl, rfl, rfl⟩

theorem part_intake (h : Within sc m0 m) {x : Intake}
    (hs : (Touch.part .intake).within sc = true := by decide +kernel) :
    Within sc m0 { m with intake := x } :=
  h.edit hs rfl (id) fun q hq => by
    cases q <;> first | exact absurd rfl hq | exact rfl | exact ⟨rfl, rfl⟩ | exact ⟨rfl, rfl, rfl⟩

theorem part_xfer (h : Within sc m0 m) {x : Xfer}
    (hs : (Touch.part .xfer).within sc = true := by decide +kernel) :
    Within sc m0 { m with xfer := x } :=
  h.edit hs rfl (id) fun q hq => by
    cases q <;> first | exact absurd rfl hq | exact rfl | exact ⟨rfl, rfl⟩ | exact ⟨rfl, rfl, rfl⟩

theorem part_ph (h : Within sc m0 m) {x : Phases}
    (hs : (Touch.part .ph).within sc = true := by decide +kernel) :
    Within sc m0 { m with ph := x } :=
  h.edit hs rfl (id) fun q hq => by
    cases q <;> first | exact absurd rfl hq | exact rfl | exact ⟨rfl, rfl⟩ | exact ⟨rfl, rfl, rfl⟩

theorem part_bat (h : Within sc m0 m) {x : Batfet}
    (hs : (Touch.part .bat).within sc = true := by decide +kernel) :
    Within sc m0 { m with bat := x } :=
  h.edit hs rfl (id) fun q hq => by
    cases q <;> first | exact absurd rfl hq | exact rfl | exact ⟨rfl, rfl⟩ | exact ⟨rfl, rfl, rfl⟩

theorem part_chg (h : Within sc m0 m) {x : Charger}
    (hs : (Touch.part .chg).within sc = true := by decide +kernel) :
    Within sc m0 { m with chg := x } :=
  h.edit hs rfl (id) fun q hq => by
    cases q <;> first | exact absurd rfl hq | exact rfl | exact ⟨rfl, rfl⟩ | exact ⟨rfl, rfl, rfl⟩

theorem part_rails (h : Within sc m0 m) {x : Rails}
    (hs : (Touch.part .rails).within sc = true := by decide +kernel) :
    Within sc m0 { m with rails := x } :=
  h.edit hs rfl (id) fun q hq => by
    cases q <;> first | exact absurd rfl hq | exact rfl | exact ⟨rfl, rfl⟩ | exact ⟨rfl, rfl, rfl⟩

theorem part_rl (h : Within sc m0 m) {x : RailLink}
    (hs : (Touch.part .rl).within sc = true := by decide +kernel) :
    Within sc m0 { m with rl := x } :=
  h.edit hs rfl (id) fun q hq => by
    cases q <;> first | exact absurd rfl hq | exact rfl | exact ⟨rfl, rfl⟩ | exact ⟨rfl, rfl, rfl⟩

theorem part_cable (h : Within sc m0 m) {x : Cable}
    (hs : (Touch.part .cable).within sc = true := by decide +kernel) :
    Within sc m0 { m with cable := x } :=
  h.edit hs rfl (id) fun q hq => by
    cases q <;> first | exact absurd rfl hq | exact rfl | exact ⟨rfl, rfl⟩ | exact ⟨rfl, rfl, rfl⟩

theorem part_twin (h : Within sc m0 m) {x : Twin}
    (hs : (Touch.part .twin).within sc = true := by decide +kernel) :
    Within sc m0 { m with twin := x } :=
  h.edit hs rfl (id) fun q hq => by
    cases q <;> first | exact absurd rfl hq | exact rfl | exact ⟨rfl, rfl⟩ | exact ⟨rfl, rfl, rfl⟩

theorem part_hp (h : Within sc m0 m) {x : HostPort}
    (hs : (Touch.part .hp).within sc = true := by decide +kernel) :
    Within sc m0 { m with hp := x } :=
  h.edit hs rfl (id) fun q hq => by
    cases q <;> first | exact absurd rfl hq | exact rfl | exact ⟨rfl, rfl⟩ | exact ⟨rfl, rfl, rfl⟩

theorem part_bus (h : Within sc m0 m) {x : SensorBus}
    (hs : (Touch.part .bus).within sc = true := by decide +kernel) :
    Within sc m0 { m with bus := x } :=
  h.edit hs rfl (id) fun q hq => by
    cases q <;> first | exact absurd rfl hq | exact rfl | exact ⟨rfl, rfl⟩ | exact ⟨rfl, rfl, rfl⟩

theorem part_wdg (h : Within sc m0 m) {x : Wdg}
    (hs : (Touch.part .wdg).within sc = true := by decide +kernel) :
    Within sc m0 { m with wdg := x } :=
  h.edit hs rfl (id) fun q hq => by
    cases q <;> first | exact absurd rfl hq | exact rfl | exact ⟨rfl, rfl⟩ | exact ⟨rfl, rfl, rfl⟩

theorem part_hwdg (h : Within sc m0 m) {x : Wdg}
    (hs : (Touch.part .hwdg).within sc = true := by decide +kernel) :
    Within sc m0 { m with hwdg := x } :=
  h.edit hs rfl (id) fun q hq => by
    cases q <;> first | exact absurd rfl hq | exact rfl | exact ⟨rfl, rfl⟩ | exact ⟨rfl, rfl, rfl⟩

theorem part_bist (h : Within sc m0 m) {x : Bist}
    (hs : (Touch.part .bist).within sc = true := by decide +kernel) :
    Within sc m0 { m with bist := x } :=
  h.edit hs rfl (id) fun q hq => by
    cases q <;> first | exact absurd rfl hq | exact rfl | exact ⟨rfl, rfl⟩ | exact ⟨rfl, rfl, rfl⟩

theorem part_lb (h : Within sc m0 m) {x : LoopBack}
    (hs : (Touch.part .lb).within sc = true := by decide +kernel) :
    Within sc m0 { m with lb := x } :=
  h.edit hs rfl (id) fun q hq => by
    cases q <;> first | exact absurd rfl hq | exact rfl | exact ⟨rfl, rfl⟩ | exact ⟨rfl, rfl, rfl⟩

theorem part_sub (h : Within sc m0 m) {x : List Append}
    (hs : (Touch.part .sub).within sc = true := by decide +kernel) :
    Within sc m0 { m with sub := x } :=
  h.edit hs rfl (id) fun q hq => by
    cases q <;> first | exact absurd rfl hq | exact rfl | exact ⟨rfl, rfl⟩ | exact ⟨rfl, rfl, rfl⟩

theorem part_freeCtr (h : Within sc m0 m) {x : Nat}
    (hs : (Touch.part .freeCtr).within sc = true := by decide +kernel) :
    Within sc m0 { m with freeCtr := x } :=
  h.edit hs rfl (id) fun q hq => by
    cases q <;> first | exact absurd rfl hq | exact rfl | exact ⟨rfl, rfl⟩ | exact ⟨rfl, rfl, rfl⟩

theorem arch_engines (h : Within sc m0 m) {x : List EngineSt}
    (hs : (Touch.part .engines).within sc = true := by decide +kernel) :
    Within sc m0 { m with arch := { m.arch with engines := x } } :=
  h.edit hs rfl (id) fun q hq => by
    cases q <;> first | exact absurd rfl hq | exact rfl | exact ⟨rfl, rfl⟩ | exact ⟨rfl, rfl, rfl⟩

theorem arch_domains (h : Within sc m0 m) {x : List DomainSt}
    (hs : (Touch.part .domains).within sc = true := by decide +kernel) :
    Within sc m0 { m with arch := { m.arch with domains := x } } :=
  h.edit hs rfl (id) fun q hq => by
    cases q <;> first | exact absurd rfl hq | exact rfl | exact ⟨rfl, rfl⟩ | exact ⟨rfl, rfl, rfl⟩

theorem arch_subs (h : Within sc m0 m) {x : Nat}
    (hs : (Touch.part .domains).within sc = true := by decide +kernel) :
    Within sc m0 { m with arch := { m.arch with subs := x } } :=
  h.edit hs rfl (id) fun q hq => by
    cases q <;> first | exact absurd rfl hq | exact rfl | exact ⟨rfl, rfl⟩ | exact ⟨rfl, rfl, rfl⟩

theorem arch_sb (h : Within sc m0 m) {x : Sidebands}
    (hs : (Touch.part .sidebands).within sc = true := by decide +kernel) :
    Within sc m0 { m with arch := { m.arch with sb := x } } :=
  h.edit hs rfl (id) fun q hq => by
    cases q <;> first | exact absurd rfl hq | exact rfl | exact ⟨rfl, rfl⟩ | exact ⟨rfl, rfl, rfl⟩

theorem arch_shadows (h : Within sc m0 m) {x : List Shadow}
    (hs : (Touch.part .latches).within sc = true := by decide +kernel) :
    Within sc m0 { m with arch := { m.arch with shadows := x } } :=
  h.edit hs rfl (id) fun q hq => by
    cases q <;> first | exact absurd rfl hq | exact rfl | exact ⟨rfl, rfl⟩ | exact ⟨rfl, rfl, rfl⟩

theorem arch_xferCtl (h : Within sc m0 m) {x : Nat}
    (hs : (Touch.part .latches).within sc = true := by decide +kernel) :
    Within sc m0 { m with arch := { m.arch with xferCtl := x } } :=
  h.edit hs rfl (id) fun q hq => by
    cases q <;> first | exact absurd rfl hq | exact rfl | exact ⟨rfl, rfl⟩ | exact ⟨rfl, rfl, rfl⟩

theorem arch_frzPol (h : Within sc m0 m) {x : Nat}
    (hs : (Touch.part .latches).within sc = true := by decide +kernel) :
    Within sc m0 { m with arch := { m.arch with frzPol := x } } :=
  h.edit hs rfl (id) fun q hq => by
    cases q <;> first | exact absurd rfl hq | exact rfl | exact ⟨rfl, rfl⟩ | exact ⟨rfl, rfl, rfl⟩

theorem arch_hostFieldReset (h : Within sc m0 m) {x : Bool}
    (hs : (Touch.part .resetNote).within sc = true := by decide +kernel) :
    Within sc m0 { m with arch := { m.arch with hostFieldReset := x } } :=
  h.edit hs rfl (id) fun q hq => by
    cases q <;> first | exact absurd rfl hq | exact rfl | exact ⟨rfl, rfl⟩ | exact ⟨rfl, rfl, rfl⟩

theorem arch_hostResetAs (h : Within sc m0 m) {x : Nat × Nat × Nat}
    (hs : (Touch.part .resetNote).within sc = true := by decide +kernel) :
    Within sc m0 { m with arch := { m.arch with hostResetAs := x } } :=
  h.edit hs rfl (id) fun q hq => by
    cases q <;> first | exact absurd rfl hq | exact rfl | exact ⟨rfl, rfl⟩ | exact ⟨rfl, rfl, rfl⟩

theorem flt_input (h : Within sc m0 m) {x : List FaultWord} (hx : m.flt.input.length ≤ 32 → x.length ≤ 32)
    (hs : (Touch.part .faultInput).within sc = true := by decide +kernel) :
    Within sc m0 { m with flt := { m.flt with input := x } } :=
  h.edit hs rfl (fun ⟨h1, h2, h3, h4, h5, h6⟩ => ⟨h1, h2, hx h3, h4, h5, h6⟩) fun q hq => by
    cases q <;> first | exact absurd rfl hq | exact rfl | exact ⟨rfl, rfl⟩ | exact ⟨rfl, rfl, rfl⟩

theorem flt_inputAt (h : Within sc m0 m) {x : List Stamp}
    (hs : (Touch.part .faultInput).within sc = true := by decide +kernel) :
    Within sc m0 { m with flt := { m.flt with inputAt := x } } :=
  h.edit hs rfl (id) fun q hq => by
    cases q <;> first | exact absurd rfl hq | exact rfl | exact ⟨rfl, rfl⟩ | exact ⟨rfl, rfl, rfl⟩

theorem flt_hostAt (h : Within sc m0 m) {x : List Stamp}
    (hs : (Touch.part .faultInput).within sc = true := by decide +kernel) :
    Within sc m0 { m with flt := { m.flt with hostAt := x } } :=
  h.edit hs rfl (id) fun q hq => by
    cases q <;> first | exact absurd rfl hq | exact rfl | exact ⟨rfl, rfl⟩ | exact ⟨rfl, rfl, rfl⟩

theorem flt_hostBuf (h : Within sc m0 m) {x : List FaultWord} (hx : m.flt.hostBuf.length ≤ 16 → x.length ≤ 16)
    (hs : (Touch.part .hostFaults).within sc = true := by decide +kernel) :
    Within sc m0 { m with flt := { m.flt with hostBuf := x } } :=
  h.edit hs rfl (fun ⟨h1, h2, h3, h4, h5, h6⟩ => ⟨h1, h2, h3, hx h4, h5, h6⟩) fun q hq => by
    cases q <;> first | exact absurd rfl hq | exact rfl | exact ⟨rfl, rfl⟩ | exact ⟨rfl, rfl, rfl⟩

theorem flt_hist (h : Within sc m0 m) {x : List HistEntry} (hx : m.flt.hist.length ≤ 64 → x.length ≤ 64)
    (hs : (Touch.part .history).within sc = true := by decide +kernel) :
    Within sc m0 { m with flt := { m.flt with hist := x } } :=
  h.edit hs rfl (fun ⟨h1, h2, h3, h4, h5, h6⟩ => ⟨h1, h2, h3, h4, hx h5, h6⟩) fun q hq => by
    cases q <;> first | exact absurd rfl hq | exact rfl | exact ⟨rfl, rfl⟩ | exact ⟨rfl, rfl, rfl⟩

theorem flt_trackers (h : Within sc m0 m) {x : List Tracker} (hx : m.flt.trackers.length ≤ 64 → x.length ≤ 64)
    (hs : (Touch.part .trackers).within sc = true := by decide +kernel) :
    Within sc m0 { m with flt := { m.flt with trackers := x } } :=
  h.edit hs rfl (fun ⟨h1, h2, h3, h4, h5, h6⟩ => ⟨h1, h2, h3, h4, h5, hx h6⟩) fun q hq => by
    cases q <;> first | exact absurd rfl hq | exact rfl | exact ⟨rfl, rfl⟩ | exact ⟨rfl, rfl, rfl⟩

theorem flt_overrides (h : Within sc m0 m) {x : List EscOverride}
    (hs : (Touch.part .overrides).within sc = true := by decide +kernel) :
    Within sc m0 { m with flt := { m.flt with overrides := x } } :=
  h.edit hs rfl (id) fun q hq => by
    cases q <;> first | exact absurd rfl hq | exact rfl | exact ⟨rfl, rfl⟩ | exact ⟨rfl, rfl, rfl⟩

theorem flt_fences (h : Within sc m0 m) {x : List FenceSt}
    (hs : (Touch.part .fences).within sc = true := by decide +kernel) :
    Within sc m0 { m with flt := { m.flt with fences := x } } :=
  h.edit hs rfl (id) fun q hq => by
    cases q <;> first | exact absurd rfl hq | exact rfl | exact ⟨rfl, rfl⟩ | exact ⟨rfl, rfl, rfl⟩

theorem flt_recoveries (h : Within sc m0 m) {x : List Recovery}
    (hs : (Touch.part .recoveries).within sc = true := by decide +kernel) :
    Within sc m0 { m with flt := { m.flt with recoveries := x } } :=
  h.edit hs rfl (id) fun q hq => by
    cases q <;> first | exact absurd rfl hq | exact rfl | exact ⟨rfl, rfl⟩ | exact ⟨rfl, rfl, rfl⟩

theorem flt_parts (h : Within sc m0 m) {x : List Nat}
    (hs : (Touch.part .partFaults).within sc = true := by decide +kernel) :
    Within sc m0 { m with flt := { m.flt with parts := x } } :=
  h.edit hs rfl (id) fun q hq => by
    cases q <;> first | exact absurd rfl hq | exact rfl | exact ⟨rfl, rfl⟩ | exact ⟨rfl, rfl, rfl⟩

theorem flt_histRead (h : Within sc m0 m) {x : Bool}
    (hs : (Touch.part .histRead).within sc = true := by decide +kernel) :
    Within sc m0 { m with flt := { m.flt with histRead := x } } :=
  h.edit hs rfl (id) fun q hq => by
    cases q <;> first | exact absurd rfl hq | exact rfl | exact ⟨rfl, rfl⟩ | exact ⟨rfl, rfl, rfl⟩

theorem flt_latchFn (h : Within sc m0 m) {x : Bool}
    (hs : (Touch.part .latchFn).within sc = true := by decide +kernel) :
    Within sc m0 { m with flt := { m.flt with latchFn := x } } :=
  h.edit hs rfl (id) fun q hq => by
    cases q <;> first | exact absurd rfl hq | exact rfl | exact ⟨rfl, rfl⟩ | exact ⟨rfl, rfl, rfl⟩

theorem host_h (h : Within sc m0 m) {x : LinkEnd}
    (hs : (Touch.part .linkHost).within sc = true := by decide +kernel) :
    Within sc m0 { m with host := { m.host with h := x } } :=
  h.edit hs rfl (id) fun q hq => by
    cases q <;> first | exact absurd rfl hq | exact rfl | exact ⟨rfl, rfl⟩ | exact ⟨rfl, rfl, rfl⟩

theorem host_f (h : Within sc m0 m) {x : LinkEnd}
    (hs : (Touch.part .linkField).within sc = true := by decide +kernel) :
    Within sc m0 { m with host := { m.host with f := x } } :=
  h.edit hs rfl (id) fun q hq => by
    cases q <;> first | exact absurd rfl hq | exact rfl | exact ⟨rfl, rfl⟩ | exact ⟨rfl, rfl, rfl⟩

theorem host_mbx (h : Within sc m0 m) {x : Mailbox}
    (hs : (Touch.part .mailbox).within sc = true := by decide +kernel) :
    Within sc m0 { m with host := { m.host with mbx := x } } :=
  h.edit hs rfl (id) fun q hq => by
    cases q <;> first | exact absurd rfl hq | exact rfl | exact ⟨rfl, rfl⟩ | exact ⟨rfl, rfl, rfl⟩

theorem host_snap (h : Within sc m0 m) {x : Snapshot}
    (hs : (Touch.part .snapshot).within sc = true := by decide +kernel) :
    Within sc m0 { m with host := { m.host with snap := x } } :=
  h.edit hs rfl (id) fun q hq => by
    cases q <;> first | exact absurd rfl hq | exact rfl | exact ⟨rfl, rfl⟩ | exact ⟨rfl, rfl, rfl⟩

theorem host_drain (h : Within sc m0 m) {x : Drain}
    (hs : (Touch.part .drain).within sc = true := by decide +kernel) :
    Within sc m0 { m with host := { m.host with drain := x } } :=
  h.edit hs rfl (id) fun q hq => by
    cases q <;> first | exact absurd rfl hq | exact rfl | exact ⟨rfl, rfl⟩ | exact ⟨rfl, rfl, rfl⟩

theorem host_work (h : Within sc m0 m) {x : List HostCmd}
    (hs : (Touch.part .work).within sc = true := by decide +kernel) :
    Within sc m0 { m with host := { m.host with work := x } } :=
  h.edit hs rfl (id) fun q hq => by
    cases q <;> first | exact absurd rfl hq | exact rfl | exact ⟨rfl, rfl⟩ | exact ⟨rfl, rfl, rfl⟩

theorem host_cache (h : Within sc m0 m) {x : List Cached}
    (hs : (Touch.part .results).within sc = true := by decide +kernel) :
    Within sc m0 { m with host := { m.host with cache := x } } :=
  h.edit hs rfl (id) fun q hq => by
    cases q <;> first | exact absurd rfl hq | exact rfl | exact ⟨rfl, rfl⟩ | exact ⟨rfl, rfl, rfl⟩

theorem host_n7 (h : Within sc m0 m) {x : Nat}
    (hs : (Touch.part .stream7).within sc = true := by decide +kernel) :
    Within sc m0 { m with host := { m.host with n7 := x } } :=
  h.edit hs rfl (id) fun q hq => by
    cases q <;> first | exact absurd rfl hq | exact rfl | exact ⟨rfl, rfl⟩ | exact ⟨rfl, rfl, rfl⟩

theorem host_alert (h : Within sc m0 m) {x : Bool}
    (hs : (Touch.part .alertPad).within sc = true := by decide +kernel) :
    Within sc m0 { m with host := { m.host with alert := x } } :=
  h.edit hs rfl (id) fun q hq => by
    cases q <;> first | exact absurd rfl hq | exact rfl | exact ⟨rfl, rfl⟩ | exact ⟨rfl, rfl, rfl⟩

theorem host_hReady (h : Within sc m0 m) {x : Bool}
    (hs : (Touch.part .hostReady).within sc = true := by decide +kernel) :
    Within sc m0 { m with host := { m.host with hReady := x } } :=
  h.edit hs rfl (id) fun q hq => by
    cases q <;> first | exact absurd rfl hq | exact rfl | exact ⟨rfl, rfl⟩ | exact ⟨rfl, rfl, rfl⟩

theorem host_pinLow (h : Within sc m0 m) {x : Bool}
    (hs : (Touch.part .pinLow).within sc = true := by decide +kernel) :
    Within sc m0 { m with host := { m.host with pinLow := x } } :=
  h.edit hs rfl (id) fun q hq => by
    cases q <;> first | exact absurd rfl hq | exact rfl | exact ⟨rfl, rfl⟩ | exact ⟨rfl, rfl, rfl⟩

theorem host_busy (h : Within sc m0 m) {x : Bool}
    (hs : (Touch.part .hostBusy).within sc = true := by decide +kernel) :
    Within sc m0 { m with host := { m.host with busy := x } } :=
  h.edit hs rfl (id) fun q hq => by
    cases q <;> first | exact absurd rfl hq | exact rfl | exact ⟨rfl, rfl⟩ | exact ⟨rfl, rfl, rfl⟩

theorem host_eventFn (h : Within sc m0 m) {x : Bool}
    (hs : (Touch.part .eventLevel).within sc = true := by decide +kernel) :
    Within sc m0 { m with host := { m.host with eventFn := x } } :=
  h.edit hs rfl (id) fun q hq => by
    cases q <;> first | exact absurd rfl hq | exact rfl | exact ⟨rfl, rfl⟩ | exact ⟨rfl, rfl, rfl⟩

theorem host_fieldAsleep (h : Within sc m0 m) {x : Bool}
    (hs : (Touch.part .fieldAsleep).within sc = true := by decide +kernel) :
    Within sc m0 { m with host := { m.host with fieldAsleep := x } } :=
  h.edit hs rfl (id) fun q hq => by
    cases q <;> first | exact absurd rfl hq | exact rfl | exact ⟨rfl, rfl⟩ | exact ⟨rfl, rfl, rfl⟩

theorem tkt_table (h : Within sc m0 m) {x : List Ticket}
    (hx : m.tkt.table.length ≤ 512 → (m.tkt.table.map Ticket.num).Nodup →
      x.length ≤ 512 ∧ (x.map Ticket.num).Nodup)
    (hs : (Touch.part .tickets).within sc = true := by decide +kernel) :
    Within sc m0 { m with tkt := { m.tkt with table := x } } :=
  h.edit hs rfl (fun ⟨h1, h2, h3⟩ => ⟨(hx h1 h2).1, (hx h1 h2).2, h3⟩) fun q hq => by
    cases q <;> first | exact absurd rfl hq | exact rfl | exact ⟨rfl, rfl⟩ | exact ⟨rfl, rfl, rfl⟩

/-- Tickets taken away, or changed in all but their numbers. -/
theorem tkt_sublist (h : Within sc m0 m) {x : List Ticket}
    (hx : (x.map Ticket.num).Sublist (m.tkt.table.map Ticket.num))
    (hs : (Touch.part .tickets).within sc = true := by decide +kernel) :
    Within sc m0 { m with tkt := { m.tkt with table := x } } := by
  refine h.tkt_table (fun hlen hnum => ⟨?_, hnum.sublist hx⟩) hs
  have hle := hx.length_le
  rw [List.length_map, List.length_map] at hle
  exact hle.trans hlen

theorem tkt_orders (h : Within sc m0 m) {x : List Nat}
    (hs : (Touch.part .orders).within sc = true := by decide +kernel) :
    Within sc m0 { m with tkt := { m.tkt with orders := x } } :=
  h.edit hs rfl (id) fun q hq => by
    cases q <;> first | exact absurd rfl hq | exact rfl | exact ⟨rfl, rfl⟩ | exact ⟨rfl, rfl, rfl⟩

theorem tkt_waits (h : Within sc m0 m) {x : List IssueWait}
    (hs : (Touch.part .waits).within sc = true := by decide +kernel) :
    Within sc m0 { m with tkt := { m.tkt with waits := x } } :=
  h.edit hs rfl (id) fun q hq => by
    cases q <;> first | exact absurd rfl hq | exact rfl | exact ⟨rfl, rfl⟩ | exact ⟨rfl, rfl, rfl⟩

theorem tkt_fullRun (h : Within sc m0 m) {x : Option Nat}
    (hs : (Touch.part .fullRun).within sc = true := by decide +kernel) :
    Within sc m0 { m with tkt := { m.tkt with fullRun := x } } :=
  h.edit hs rfl (id) fun q hq => by
    cases q <;> first | exact absurd rfl hq | exact rfl | exact ⟨rfl, rfl⟩ | exact ⟨rfl, rfl, rfl⟩

theorem tkt_stopped (h : Within sc m0 m) {x : Bool}
    (hs : (Touch.part .stopped).within sc = true := by decide +kernel) :
    Within sc m0 { m with tkt := { m.tkt with stopped := x } } :=
  h.edit hs rfl (id) fun q hq => by
    cases q <;> first | exact absurd rfl hq | exact rfl | exact ⟨rfl, rfl⟩ | exact ⟨rfl, rfl, rfl⟩

theorem part_modes (h : Within sc m0 m) {x : Modes}
    (hs : (Touch.part .modes).within sc = true := by decide +kernel)
    (hx : x.copyA = m.modes.copyA ∧ x.copyB = m.modes.copyB ∧ x.keySlot = m.modes.keySlot := by
      first | (simp only [and_self]; done) | exact ⟨rfl, rfl, rfl⟩) : Within sc m0 { m with modes := x } :=
  h.edit hs rfl (id) fun q hq => by
    cases q
    case cfgCopies => exact hx
    case modes => exact absurd rfl hq
    all_goals first | exact rfl | exact ⟨rfl, rfl⟩ | exact ⟨rfl, rfl, rfl⟩

theorem modes_copyA (h : Within sc m0 m) {x : NorImage}
    (hs : (Touch.part .cfgCopies).within sc = true := by decide +kernel) :
    Within sc m0 { m with modes := { m.modes with copyA := x } } :=
  h.edit hs rfl (id) fun q hq => by
    cases q <;> first | exact absurd rfl hq | exact rfl | exact ⟨rfl, rfl⟩ | exact ⟨rfl, rfl, rfl⟩

theorem modes_copyB (h : Within sc m0 m) {x : NorImage}
    (hs : (Touch.part .cfgCopies).within sc = true := by decide +kernel) :
    Within sc m0 { m with modes := { m.modes with copyB := x } } :=
  h.edit hs rfl (id) fun q hq => by
    cases q <;> first | exact absurd rfl hq | exact rfl | exact ⟨rfl, rfl⟩ | exact ⟨rfl, rfl, rfl⟩

theorem modes_keySlot (h : Within sc m0 m) {x : Option (List Byte)}
    (hs : (Touch.part .cfgCopies).within sc = true := by decide +kernel) :
    Within sc m0 { m with modes := { m.modes with keySlot := x } } :=
  h.edit hs rfl (id) fun q hq => by
    cases q <;> first | exact absurd rfl hq | exact rfl | exact ⟨rfl, rfl⟩ | exact ⟨rfl, rfl, rfl⟩

theorem part_adc (h : Within sc m0 m) {x : Adc}
    (hs : (Touch.part .adc).within sc = true := by decide +kernel)
    (hx : x.copyA = m.adc.copyA ∧ x.copyB = m.adc.copyB := by
      first | (simp only [and_self]; done) | exact ⟨rfl, rfl⟩) : Within sc m0 { m with adc := x } :=
  h.edit hs rfl (id) fun q hq => by
    cases q
    case calCopies => exact hx
    case adc => exact absurd rfl hq
    all_goals first | exact rfl | exact ⟨rfl, rfl⟩ | exact ⟨rfl, rfl, rfl⟩

theorem adc_copyA (h : Within sc m0 m) {x : NorImage}
    (hs : (Touch.part .calCopies).within sc = true := by decide +kernel) :
    Within sc m0 { m with adc := { m.adc with copyA := x } } :=
  h.edit hs rfl (id) fun q hq => by
    cases q <;> first | exact absurd rfl hq | exact rfl | exact ⟨rfl, rfl⟩ | exact ⟨rfl, rfl, rfl⟩

theorem adc_copyB (h : Within sc m0 m) {x : NorImage}
    (hs : (Touch.part .calCopies).within sc = true := by decide +kernel) :
    Within sc m0 { m with adc := { m.adc with copyB := x } } :=
  h.edit hs rfl (id) fun q hq => by
    cases q <;> first | exact absurd rfl hq | exact rfl | exact ⟨rfl, rfl⟩ | exact ⟨rfl, rfl, rfl⟩

theorem part_jrn (h : Within sc m0 m) {x : Jrn}
    (hs : (Touch.part .journal).within sc = true := by decide +kernel)
    (hx : x.blocks = m.jrn.blocks := by
      first | (simp only; done) | rfl) : Within sc m0 { m with jrn := x } :=
  h.edit hs rfl (id) fun q hq => by
    cases q
    case nand => exact hx
    case journal => exact absurd rfl hq
    all_goals first | exact rfl | exact ⟨rfl, rfl⟩ | exact ⟨rfl, rfl, rfl⟩

theorem jrn_blocks (h : Within sc m0 m) {x : List NandBlock}
    (hs : (Touch.part .nand).within sc = true := by decide +kernel) :
    Within sc m0 { m with jrn := { m.jrn with blocks := x } } :=
  h.edit hs rfl (id) fun q hq => by
    cases q <;> first | exact absurd rfl hq | exact rfl | exact ⟨rfl, rfl⟩ | exact ⟨rfl, rfl, rfl⟩

theorem part_upd (h : Within sc m0 m) {x : Update}
    (hs : (Touch.part .update).within sc = true := by decide +kernel)
    (hx : x.slots = m.upd.slots := by
      first | (simp only; done) | rfl) : Within sc m0 { m with upd := x } :=
  h.edit hs rfl (id) fun q hq => by
    cases q
    case slots => exact hx
    case update => exact absurd rfl hq
    all_goals first | exact rfl | exact ⟨rfl, rfl⟩ | exact ⟨rfl, rfl, rfl⟩

theorem upd_slots (h : Within sc m0 m) {x : List Slot}
    (hs : (Touch.part .slots).within sc = true := by decide +kernel) :
    Within sc m0 { m with upd := { m.upd with slots := x } } :=
  h.edit hs rfl (id) fun q hq => by
    cases q <;> first | exact absurd rfl hq | exact rfl | exact ⟨rfl, rfl⟩ | exact ⟨rfl, rfl, rfl⟩

end
end Within

end Sys2Proof.Machine
end

