-- ==== Sys2Proof/Proofs/Operations.lean ====
section
/-! PROOFS. What each operation of the block may change. The lemma of an operation names its scope, and its proof follows
the operation's definition: a conditional has one argument for each branch, and an update adds its part or field. -/

set_option Elab.async false

namespace Sys2Proof.Machine

variable {sc : List Touch} {m0 m : Hw}

theorem fieldOfKey_addr {k : Nat} {f : Field} (h : fieldOfKey k = some f) : f.addr = k / 32 := by
  have hk : f.key = k := by simpa using List.find?_some h
  obtain ⟨hlsb, -⟩ := Reg.fieldsAt_place (List.mem_of_find?_eq_some h)
  rw [← hk, Field.key]
  omega

/-- A loss of entries of one side spares the fields of the other. -/
theorem Within.filterSide (sd : Side) (h : Within sc m0 m) {p : Nat × Nat → Bool}
    (hp : ∀ e, (isFieldAddr (e.1 / 32) == (sd == .field)) = false → p e = true)
    (hs : Touch.covers sc [Touch.side sd] := by decide +kernel) :
    Within sc m0 { m with regs := m.regs.filter p } := by
  refine h.andThen hs (Within.refl.setRegs (fun f hf => ?_) (Regs.wf_filter p))
  refine getKey_filter (fun v => hp _ ?_) _
  rw [← Touch.side_hits]
  simpa [Touch.spares] using hf

theorem Within.resetRegs (h : Within sc m0 m) {sd l} (hs : Touch.covers sc [Touch.side sd] := by decide +kernel) :
    Within sc m0 (m.resetRegs sd l) := by
  refine h.filterSide sd (fun e he => ?_) hs
  split
  · rfl
  · next f hf =>
    rw [fieldOfKey_addr hf, he]
    rfl

theorem Within.clear (h : Within sc m0 m) {fs : List Field} (hs : Touch.covers sc (regs fs) := by decide +kernel) :
    Within sc m0 (m.clear fs) :=
  h.foldl_mem fun _ _ hf hm => hm.wr (Touch.covers_iff.1 hs _ (List.mem_map_of_mem hf))

theorem Within.setEngine (h : Within sc m0 m) {e x} (hs : Touch.covers sc (parts [.engines]) := by decide +kernel) :
    Within sc m0 (m.setEngine e x) :=
  h.andThen hs Within.refl.arch_engines

theorem Within.setDomain (h : Within sc m0 m) {d x} (hs : Touch.covers sc (parts [.domains]) := by decide +kernel) :
    Within sc m0 (m.setDomain d x) :=
  h.andThen hs Within.refl.arch_domains

theorem Within.darken (h : Within sc m0 m) {d} (hs : Touch.covers sc (regs (darkFields d)) := by decide +kernel) :
    Within sc m0 (m.darken d) := h.clear hs

theorem Within.darken_any (h : Within sc m0 m) {d} (hs : Touch.covers sc Touch.powering := by decide +kernel) :
    Within sc m0 (m.darken d) :=
  h.andThen hs (Within.refl.darken (by cases d <;> decide +kernel))

theorem Within.powerDomain (h : Within sc m0 m) {d b}
    (hs : Touch.covers sc (parts [.domains] ++ regs (darkFields d)) := by decide +kernel) :
    Within sc m0 (m.powerDomain d b) := by
  have hd : Within sc m0 (m.setDomain d { on := b, pg := b, offReq := none }) := h.setDomain (Touch.covers_left hs)
  unfold Hw.powerDomain
  exact .ite hd (hd.darken (Touch.covers_right hs))

theorem Within.powerDomain_any (h : Within sc m0 m) {d b} (hs : Touch.covers sc Touch.powering := by decide +kernel) :
    Within sc m0 (m.powerDomain d b) :=
  h.andThen hs (Within.refl.powerDomain (by cases d <;> decide +kernel))

theorem Within.stampW (h : Within sc m0 m) {x w} (hs : Touch.covers sc (parts [.faultInput] ++ regs
    [Reg.FLT_STATUS_LOST]) := by decide +kernel) : Within sc m0 (m.stampW x w) := by
  refine h.andThen hs ?_
  unfold Hw.stampW
  have hpush : m.flt.input.length ≤ 32 → (pushWord 32 0x10 w m.flt.input).length ≤ 32 :=
    fun hl => pushWord_length hl (by decide)
  exact .ite (.bump (.edits Within.refl [.faultInput] (hi := hpush))) (.edits Within.refl [.faultInput] (hi := hpush))

theorem Within.faultW (h : Within sc m0 m) {w} (hs : Touch.covers sc (parts [.faultInput] ++ regs
    [Reg.FLT_STATUS_LOST]) := by decide +kernel) : Within sc m0 (m.faultW w) :=
  h.andThen hs Within.refl.stampW

theorem Within.fault (h : Within sc m0 m) {k detail} (hs : Touch.covers sc (parts [.faultInput] ++ regs
    [Reg.FLT_STATUS_LOST]) := by decide +kernel) : Within sc m0 (m.fault k detail) :=
  h.andThen hs Within.refl.faultW

theorem Within.faultAt (h : Within sc m0 m) {k src detail} (hs : Touch.covers sc (parts [.faultInput] ++ regs
    [Reg.FLT_STATUS_LOST]) := by decide +kernel) : Within sc m0 (m.faultAt k src detail) :=
  h.andThen hs Within.refl.faultW

theorem Within.haltCode (h : Within sc m0 m) {c} (hs : Touch.covers sc (parts [.sidebands]) := by decide +kernel) :
    Within sc m0 (m.haltCode c) :=
  h.andThen hs Within.refl.arch_sb

theorem Within.haltOnce (h : Within sc m0 m) {c} (hs : Touch.covers sc (parts [.sidebands]) := by decide +kernel) :
    Within sc m0 (m.haltOnce c) := by
  refine h.andThen hs ?_
  unfold Hw.haltOnce
  exact (.ite Within.refl Within.refl.haltCode)

theorem Within.faltCode (h : Within sc m0 m) {c} (hs : Touch.covers sc (parts [.sidebands]) := by decide +kernel) :
    Within sc m0 (m.faltCode c) :=
  h.andThen hs Within.refl.arch_sb

theorem Within.takeHCode (h : Within sc m0 m) {c} (hs : Touch.covers sc (parts [.sidebands]) := by decide +kernel) :
    Within sc m0 (m.takeHCode c) :=
  h.andThen hs Within.refl.arch_sb

theorem Within.takeFCode (h : Within sc m0 m) {c} (hs : Touch.covers sc (parts [.sidebands]) := by decide +kernel) :
    Within sc m0 (m.takeFCode c) :=
  h.andThen hs Within.refl.arch_sb

theorem Within.onHCode (h : Within sc m0 m) {c} {f : Hw → Hw} (hf : ∀ m, Within sc m0 m → Within sc m0 (f m))
    (hs : Touch.covers sc (parts [.sidebands]) := by decide +kernel) : Within sc m0 (m.onHCode c f) := by
  unfold Hw.onHCode
  exact .ite (hf _ (h.takeHCode hs)) h

theorem Within.onFCode (h : Within sc m0 m) {c} {f : Hw → Hw} (hf : ∀ m, Within sc m0 m → Within sc m0 (f m))
    (hs : Touch.covers sc (parts [.sidebands]) := by decide +kernel) : Within sc m0 (m.onFCode c f) := by
  unfold Hw.onFCode
  exact .ite (hf _ (h.takeFCode hs)) h

theorem Within.alertSet (h : Within sc m0 m) {b} (hs : Touch.covers sc (parts [.alertPad] ++ regs
    [Reg.ALERT_SRC_SRC]) := by decide +kernel) : Within sc m0 (m.alertSet b) := by
  refine h.andThen hs ?_
  unfold Hw.alertSet
  exact (.ite Within.refl.wrBit.host_alert Within.refl.wrBit)

theorem Within.alertSettle (h : Within sc m0 m) (hs : Touch.covers sc (parts [.alertPad]) := by decide +kernel) :
    Within sc m0 m.alertSettle := by
  refine h.andThen hs ?_
  unfold Hw.alertSettle
  exact (.ite Within.refl.host_alert Within.refl)

theorem Within.probHeard (h : Within sc m0 m) {w} (hs : Touch.covers sc (parts [.update]) := by decide +kernel) :
    Within sc m0 (m.probHeard w) := by
  refine h.andThen hs ?_
  unfold Hw.probHeard
  exact (by
    extract_lets
    split
    · exact (.ite Within.refl.part_upd Within.refl)
    · exact Within.refl)

theorem Within.hfaultW (h : Within sc m0 m) {w} (hs : Touch.covers sc (Touch.hostFault) := by decide +kernel) :
    Within sc m0 (m.hfaultW w) := by
  refine h.andThen hs ?_
  unfold Hw.hfaultW
  have hpush : m.flt.hostBuf.length ≤ 16 → (pushWord 16 0x3E w m.flt.hostBuf).length ≤ 16 :=
    fun hl => pushWord_length hl (by decide)
  exact .ite (Within.refl.flt_hostBuf hpush).probHeard.haltCode.alertSet
    (Within.refl.flt_hostBuf hpush).probHeard.haltCode

theorem Within.hfault (h : Within sc m0 m) {k detail} (hs : Touch.covers sc (Touch.hostFault) := by decide +kernel)
    : Within sc m0 (m.hfault k detail) :=
  h.andThen hs Within.refl.hfaultW

theorem Within.hfaultAt (h : Within sc m0 m) {k src detail} (hs : Touch.covers sc (Touch.hostFault)
    := by decide +kernel) : Within sc m0 (m.hfaultAt k src detail) :=
  h.andThen hs Within.refl.hfaultW

theorem Within.showTickets (h : Within sc m0 m) (hs : Touch.covers sc (regs [Reg.TKT_STATUS_INFLIGHT,
    Reg.TKT_STATUS_HWM, Reg.TKT_STATUS_FULL, Reg.TKT_STATUS_HELD, Reg.TKT_STATUS_HELD_STREAM]) := by decide +kernel)
    : Within sc m0 m.showTickets := by
  refine h.andThen hs ?_
  unfold Hw.showTickets
  exact Within.refl.wr.wr.wrB.wrB.wr

/-- The search for a free number passes over numbers in use, and stops at one that is not, or at its end. -/
theorem freeNum_free {table : List Ticket} {fuel n : Nat}
    (h : ∃ k, n ≤ k ∧ k < n + fuel ∧ table.any (·.num == k) = false) :
    table.any (·.num == freeNum table fuel n) = false := by
  induction fuel generalizing n with
  | zero =>
    obtain ⟨k, h1, h2, -⟩ := h
    omega
  | succ fuel ih =>
    unfold freeNum
    split
    · next hn =>
      obtain ⟨k, h1, h2, hk⟩ := h
      refine ih ⟨k, ?_, by omega, hk⟩
      rcases Nat.eq_or_lt_of_le h1 with rfl | h1
      · rw [hn] at hk
        cases hk
      · exact h1
    · next hn => simpa using hn

/-- With fewer than 512 tickets one of the numbers below 512 is free. -/
theorem freeNum_fresh {table : List Ticket} (h : table.length < 512) :
    freeNum table 512 0 ∉ table.map Ticket.num := by
  have hfree : ∃ k, k ∉ table.map Ticket.num ∧ k < 512 := by
    by_contra hall
    push Not at hall
    have hsub : List.range 512 ⊆ table.map Ticket.num := fun k hk => by
      by_contra hk'
      exact absurd (hall k hk') (by simpa using List.mem_range.1 hk)
    have hle := (List.nodup_range.subperm hsub).length_le
    rw [List.length_range, List.length_map] at hle
    omega
  obtain ⟨k, hk, hlt⟩ := hfree
  have hany := freeNum_free (table := table) (fuel := 512) (n := 0) ⟨k, by omega, by omega, by simpa using hk⟩
  intro hmem
  obtain ⟨t, ht, hnum⟩ := List.mem_map.1 hmem
  rw [List.any_eq_false] at hany
  exact hany t ht (by simp [hnum])

theorem Hw.length_lt_of_canIssue {m : Hw} {stream unit : Nat} {dur crit : Bool}
    (h : m.canIssue stream unit dur crit = true) : m.tkt.table.length < 512 := by
  simp only [Hw.canIssue, Hw.mayIssue, Bool.and_eq_true, decide_eq_true_eq] at h
  obtain ⟨⟨⟨⟨⟨-, hlen⟩, -⟩, -⟩, -⟩, -⟩ := h
  split at hlen <;> omega

theorem Within.issue (h : Within sc m0 m) {stream owner chan unit dur idem crit m' n}
    (he : m.issue stream owner chan unit dur idem crit = some (m', n))
    (hs : Touch.covers sc (Touch.issuing) := by decide +kernel) :
    Within sc m0 m' := by
  refine h.andThen hs ?_
  unfold Hw.issue at he
  split at he
  · next hc =>
    obtain ⟨rfl, -⟩ := Prod.mk.inj (Option.some.inj he)
    have hlen := Hw.length_lt_of_canIssue hc
    refine ((Within.refl.tkt_table fun _ hnd => ⟨?_, ?_⟩).tkt_orders).showTickets
    · rw [List.length_append, List.length_singleton]
      omega
    · rw [List.map_append, List.map_singleton]
      exact hnd.append (List.nodup_singleton _) (by simpa using freeNum_fresh hlen)
  · cases he

theorem Within.setTicket (h : Within sc m0 m) {n} {f : Ticket → Ticket}
    (hs : Touch.covers sc (parts [.tickets] ++ regs [Reg.TKT_STATUS_INFLIGHT, Reg.TKT_STATUS_HWM,
      Reg.TKT_STATUS_FULL, Reg.TKT_STATUS_HELD, Reg.TKT_STATUS_HELD_STREAM]) := by decide +kernel)
    (hf : ∀ t, (f t).num = t.num := by exact fun _ => rfl) : Within sc m0 (m.setTicket n f) := by
  refine h.andThen hs (Within.showTickets (Within.refl.tkt_table fun hlen hnd => ⟨?_, ?_⟩))
  · rwa [List.length_map]
  · rw [List.map_map]
    refine (congrArg List.Nodup (List.map_congr_left fun t _ => ?_)).mpr hnd
    simp only [Function.comp]
    split
    · exact hf t
    · rfl

theorem Within.issueAppends (h : Within sc m0 m) {x1} (hs : Touch.covers sc (Touch.issuing ++ parts [.sub])
    := by decide +kernel) : Within sc m0 (m.issueAppends x1) := by
  refine h.andThen hs ?_
  clear h hs
  induction x1 generalizing m with
  | zero =>
    rw [Hw.issueAppends]
    exact Within.refl.showTickets
  | succ x1 ih =>
    rw [Hw.issueAppends]
    exact (by
      split
      · exact Within.refl.showTickets
      · exact (by
          split
          · exact Within.refl.showTickets
          · next m1 _ he1 => exact (.trans (Within.refl.issue he1).part_sub (ih ..))))

theorem Within.submitRec (h : Within sc m0 m) {r} (hs : Touch.covers sc (Touch.issuing ++ parts [.sub])
    := by decide +kernel) : Within sc m0 (m.submitRec r) :=
  h.andThen hs Within.refl.part_sub.issueAppends

theorem Within.record (h : Within sc m0 m) {k src payload} (hs : Touch.covers sc (Touch.issuing ++ parts [.sub])
    := by decide +kernel) : Within sc m0 (m.record k src payload) :=
  h.andThen hs Within.refl.submitRec

theorem Within.issueWork (h : Within sc m0 m) {w m'} (he : m.issueWork w = some m')
    (hs : Touch.covers sc (Touch.issuing ++ parts [.adc, .bus]) := by decide +kernel) :
    Within sc m0 m' := by
  refine h.andThen hs ?_
  unfold Hw.issueWork at he
  split at he
  · cases he
  · split at he
    · cases he
    · next hi =>
      obtain rfl := Option.some.inj he
      have hm := Within.refl.issue hi (sc := Touch.issuing ++ parts [.adc, .bus])
      exact .ite hm.part_adc (.ite hm.part_bus hm)

theorem Within.issueFor (h : Within sc m0 m) {w} (hs : Touch.covers sc (Touch.issuing ++ parts [.waits, .adc, .bus])
    := by decide +kernel) : Within sc m0 (m.issueFor w) := by
  refine h.andThen hs ?_
  unfold Hw.issueFor
  exact (.ite Within.refl (.ite Within.refl.tkt_waits.showTickets (by
    split
    · next m1 he1 => exact (Within.refl.issueWork he1)
    · exact Within.refl.tkt_waits.showTickets)))

theorem Within.serveWaits (h : Within sc m0 m) {x1} (hs : Touch.covers sc (Touch.issuing ++ parts [.adc, .bus,
    .waits]) := by decide +kernel) : Within sc m0 (m.serveWaits x1) := by
  refine h.andThen hs ?_
  clear h hs
  induction x1 generalizing m with
  | zero =>
    rw [Hw.serveWaits]
    exact Within.refl.showTickets
  | succ x1 ih =>
    rw [Hw.serveWaits]
    exact (by
      split
      · exact Within.refl.showTickets
      · exact (by
          split
          · exact Within.refl.showTickets
          · next m1 he1 => exact (.trans (Within.refl.issueWork he1).tkt_waits (ih ..))))

theorem Within.dropTicket (h : Within sc m0 m) {n} (hs : Touch.covers sc (Touch.issuing ++ parts [.adc, .bus,
    .waits, .sub]) := by decide +kernel) : Within sc m0 (m.dropTicket n) := by
  refine h.andThen hs ?_
  exact (Within.refl.tkt_sublist (nums_filter _ _)).serveWaits.issueAppends

theorem Within.admitF (h : Within sc m0 m) {x1} (hs : Touch.covers sc (Touch.issuing ++ parts [.linkField])
    := by decide +kernel) : Within sc m0 (m.admitF x1) := by
  refine h.andThen hs ?_
  clear h hs
  induction x1 generalizing m with
  | zero =>
    rw [Hw.admitF]
    exact Within.refl
  | succ x1 ih =>
    rw [Hw.admitF]
    exact (.ite (by
      split
      · exact Within.refl
      · next m1 _ he1 => exact (.trans (Within.refl.issue he1).setTicket.host_f (ih ..))) Within.refl)

theorem Within.sendF (h : Within sc m0 m) {type payload} (hs : Touch.covers sc (Touch.issuing ++ parts [.linkField])
    := by decide +kernel) : Within sc m0 (m.sendF type payload) :=
  h.andThen hs Within.refl.host_f.admitF

theorem Within.noteSeqs (h : Within sc m0 m) (hs : Touch.covers sc (parts [.mailbox]) := by decide +kernel) : Within
    sc m0 m.noteSeqs :=
  h.andThen hs Within.refl.host_mbx

theorem Within.sendH (h : Within sc m0 m) {type stream payload} (hs : Touch.covers sc (parts [.linkHost, .mailbox])
    := by decide +kernel) : Within sc m0 (m.sendH type stream payload) := by
  refine h.andThen hs ?_
  unfold Hw.sendH
  exact (.ite Within.refl.host_h.noteSeqs Within.refl.host_h)

theorem Within.recordH (h : Within sc m0 m) {k src payload} (hs : Touch.covers sc (parts [.linkHost, .mailbox])
    := by decide +kernel) : Within sc m0 (m.recordH k src payload) :=
  h.andThen hs Within.refl.sendH

theorem Within.drew (h : Within sc m0 m) (hs : Touch.covers sc (parts [.freeCtr]) := by decide +kernel) : Within sc
    m0 m.drew :=
  h.andThen hs Within.refl.part_freeCtr

theorem Within.setLatchLive (h : Within sc m0 m) {l v} (hs : Touch.covers sc (Touch.latchLive l) := by decide +kernel)
  :
    Within sc m0 (m.setLatchLive l v) := by
  unfold Hw.setLatchLive
  have hr : ∀ {f : Field}, f ∈ (Touch.latchLive l).filterMap Touch.field? → (Touch.reg f).within sc :=
    Touch.reg_within_of_covers hs
  cases l with
  | xferCtl => exact h.andThen hs Within.refl.arch_xferCtl
  | frzPol => exact h.andThen hs Within.refl.arch_frzPol
  | phTrim n => exact (h.wr (hr (by simp [Touch.latchLive, Touch.field?, regs]))).wr (hr (by simp [Touch.latchLive,
    Touch.field?, regs]))
  | kaSet => exact h.andThen hs Within.refl.wr.wr.wr
  | _ => exact h.wr (hr (by simp [Touch.latchLive, Touch.field?, regs]))

theorem Within.setLatch (h : Within sc m0 m) {l v} (hs : Touch.covers sc (Touch.latchWrite l) := by decide +kernel) :
    Within sc m0 (m.setLatch l v) := by
  have hlive := h.setLatchLive (l := l) (v := v) (Touch.covers_left (Touch.covers_left hs))
  have hsh : (Touch.part .latches).within sc = true :=
    Touch.covers_iff.1 (Touch.covers_right (Touch.covers_left hs)) _ List.mem_cons_self
  have hchg := Touch.covers_right hs
  unfold Hw.setLatch
  refine .arch_shadows ?_ hsh
  split
  · next hl =>
    rw [if_pos hl] at hchg
    exact hlive.andThen hchg Within.refl.part_chg
  · exact hlive

theorem Within.setLatchLive_any (h : Within sc m0 m) {l v}
    (hs : Touch.covers sc Touch.latchSet := by decide +kernel) : Within sc m0 (m.setLatchLive l v) := by
  refine h.andThen hs ?_
  unfold Hw.setLatchLive
  cases l
  case xferCtl => exact Within.refl.arch_xferCtl
  case frzPol => exact Within.refl.arch_frzPol
  case phTrim => exact .wrAt Reg.PH_TRIM_ENTRY_even (.wrAt Reg.PH_TRIM_TRIM_even Within.refl)
  case polSet => exact .wrAt Reg.POL_SET_SET_even Within.refl
  case qrSet => exact .wrAt Reg.QR_SET_SET_even Within.refl
  case kaSet => exact Within.refl.wr.wr.wr
  all_goals exact Within.refl.wr

theorem Within.setLatch_any (h : Within sc m0 m) {l v}
    (hs : Touch.covers sc (Touch.latchSet ++ parts [.chg]) := by decide +kernel) : Within sc m0 (m.setLatch l v) := by
  refine h.andThen hs ?_
  unfold Hw.setLatch
  exact Within.arch_shadows (.ite Within.refl.setLatchLive_any.part_chg Within.refl.setLatchLive_any)

theorem Within.sideFault (h : Within sc m0 m) {sd k src detail}
    (hs : Touch.covers sc (Touch.faultOn sd) := by decide +kernel) : Within sc m0 (m.sideFault sd k src detail) := by
  cases sd
  · exact h.hfaultAt hs
  · exact h.faultAt hs

theorem Within.sideFault_any (h : Within sc m0 m) {sd k src detail}
    (hs : Touch.covers sc Touch.sideFault := by decide +kernel) : Within sc m0 (m.sideFault sd k src detail) :=
  h.andThen hs (Within.refl.sideFault (by cases sd <;> decide +kernel))

theorem Within.storeLatch (h : Within sc m0 m) {l v} (hs : Touch.covers sc (Touch.latchStore l) := by decide +kernel) :
    Within sc m0 (m.storeLatch l v) := by
  have hset := h.setLatch (l := l) (v := (clampLatch l v).1) (Touch.covers_left hs)
  have hf := Touch.covers_right hs
  unfold Hw.storeLatch
  dsimp only
  split
  · next o ho =>
    rw [ho] at hf
    exact .ite (hset.sideFault hf) hset
  · exact hset

theorem Within.storeLatch_any (h : Within sc m0 m) {l v}
    (hs : Touch.covers sc (Touch.latchSet ++ Touch.sideFault ++ parts [.chg]) := by decide +kernel) :
    Within sc m0 (m.storeLatch l v) := by
  refine h.andThen hs ?_
  unfold Hw.storeLatch
  dsimp only
  split
  · exact .ite Within.refl.setLatch_any.sideFault_any Within.refl.setLatch_any
  · exact Within.refl.setLatch_any

theorem Within.putLatch (h : Within sc m0 m) {l v} (hs : Touch.covers sc (Touch.latchStore l) := by decide +kernel) :
    Within sc m0 (m.putLatch l v) := by
  unfold Hw.putLatch
  exact .ite h (h.storeLatch hs)

theorem Within.putLatch_any (h : Within sc m0 m) {l v}
    (hs : Touch.covers sc (Touch.latchSet ++ Touch.sideFault ++ parts [.chg]) := by decide +kernel) :
    Within sc m0 (m.putLatch l v) := by
  unfold Hw.putLatch
  exact .ite h (h.storeLatch_any hs)

theorem Within.putLatch_rail (h : Within sc m0 m) {n v} (hs : Touch.covers sc Touch.railSet := by decide +kernel) :
    Within sc m0 (m.putLatch (railLatch n) v) := by
  refine h.andThen hs ?_
  unfold railLatch
  split <;> exact Within.refl.putLatch

theorem Within.ownLatch (h : Within sc m0 m) {l v} (hs : Touch.covers sc (Touch.latchStore l) := by decide +kernel) :
    Within sc m0 (m.ownLatch l v) := by
  unfold Hw.ownLatch
  exact .ite h (h.putLatch hs)

theorem Within.ownLatch_any (h : Within sc m0 m) {l v}
    (hs : Touch.covers sc (Touch.latchSet ++ Touch.sideFault ++ parts [.chg]) := by decide +kernel) :
    Within sc m0 (m.ownLatch l v) := by
  unfold Hw.ownLatch
  exact .ite h (h.putLatch_any hs)

theorem Within.ownLatch_rail (h : Within sc m0 m) {n v} (hs : Touch.covers sc Touch.railSet := by decide +kernel) :
    Within sc m0 (m.ownLatch (railLatch n) v) := by
  unfold Hw.ownLatch
  exact .ite h (h.putLatch_rail hs)

theorem Within.batfet (h : Within sc m0 m) (hs : Touch.covers sc (regs [Reg.BATFET_STATUS_STATE])
    := by decide +kernel) : Within sc m0 m.batfet :=
  h.andThen hs Within.refl.wr

theorem Within.entryDone (h : Within sc m0 m) (hs : Touch.covers sc (parts [.ph, .bat] ++ regs [Reg.PH_STATUS_ENTRY,
    Reg.BATFET_STATUS_STATE]) := by decide +kernel) : Within sc m0 m.entryDone := by
  refine h.andThen hs ?_
  unfold Hw.entryDone
  exact (by
    split
    · exact (.ite (.batfet (.edits Within.refl.wr [.ph, .bat])) Within.refl)
    · exact Within.refl)

theorem Within.atT (h : Within sc m0 m) {t} (hs : Touch.covers sc (Touch.time) := by decide +kernel) : Within sc m0
    (m.atT t) :=
  h.andThen hs Within.refl.part_seq.entryDone

theorem Within.clearChgEn (h : Within sc m0 m) (hs : Touch.covers sc (parts [.latches] ++ regs [Reg.CHG_STATUS_EN,
    Reg.BATFET_STATUS_STATE]) := by decide +kernel) : Within sc m0 m.clearChgEn :=
  h.andThen hs Within.refl.wr.arch_shadows.batfet

theorem Within.setRail (h : Within sc m0 m) {n r} (hs : Touch.covers sc (parts [.rails]) := by decide +kernel) :
    Within sc m0 (m.setRail n r) :=
  h.andThen hs Within.refl.part_rails

theorem Within.settleRefs (h : Within sc m0 m) (hs : Touch.covers sc (parts [.rails]) := by decide +kernel) : Within
    sc m0 m.settleRefs :=
  h.andThen hs Within.refl.part_rails

theorem Within.newPolicy (h : Within sc m0 m) {f : Hw → Hw} (hf : ∀ m, Within sc m0 m → Within sc m0 (f m))
    (hs : Touch.covers sc (parts [.rails]) := by decide +kernel) : Within sc m0 (m.newPolicy f) :=
  hf _ (h.settleRefs hs)

theorem Within.resumeRails (h : Within sc m0 m) (hs : Touch.covers sc (parts [.rails]) := by decide +kernel) :
    Within sc m0 m.resumeRails := by
  refine h.andThen hs ?_
  unfold Hw.resumeRails
  exact (.foldl Within.refl fun _ _ h1 => (.ite h1 h1.setRail))

theorem Within.statPads (h : Within sc m0 m) (hs : Touch.covers sc (regs [Reg.STAT_LATCH_PADS])
    := by decide +kernel) : Within sc m0 m.statPads :=
  h.andThen hs Within.refl.wr

theorem Within.statEvent (h : Within sc m0 m) {i} (hs : Touch.covers sc (regs [Reg.STAT_LATCH_EVENTS,
    Reg.STAT_LATCH_PADS]) := by decide +kernel) : Within sc m0 (m.statEvent i) :=
  h.andThen hs Within.refl.wrBit.statPads

theorem Within.lamp (h : Within sc m0 m) {b} (hs : Touch.covers sc (parts [.chg] ++ regs [Reg.STAT_LATCH_PADS])
    := by decide +kernel) : Within sc m0 (m.lamp b) := by
  refine h.andThen hs ?_
  unfold Hw.lamp
  exact (.ite Within.refl.part_chg Within.refl.part_chg.statPads)

theorem Within.lampSettle (h : Within sc m0 m) (hs : Touch.covers sc (parts [.chg] ++ regs [Reg.STAT_LATCH_PADS])
    := by decide +kernel) : Within sc m0 m.lampSettle := by
  refine h.andThen hs ?_
  unfold Hw.lampSettle
  exact (by
    split
    · exact Within.refl.lamp
    · exact Within.refl)

theorem Within.rlEvent (h : Within sc m0 m) {code tag detail} (hs : Touch.covers sc (parts [.rl] ++ regs
    [Reg.RL_STATUS_EVQ]) := by decide +kernel) : Within sc m0 (m.rlEvent code tag detail) :=
  h.andThen hs Within.refl.part_rl.wr

theorem Within.aptEvent (h : Within sc m0 m) {code detail} (hs : Touch.covers sc (parts [.rl] ++ regs
    [Reg.RL_STATUS_EVQ]) := by decide +kernel) : Within sc m0 (m.aptEvent code detail) := by
  refine h.andThen hs ?_
  unfold Hw.aptEvent
  exact (by
    split
    · exact Within.refl.part_rl.rlEvent
    · exact Within.refl)

theorem Within.driveQuiet (h : Within sc m0 m) {b} (hs : Touch.covers sc (parts [.sidebands]) := by decide +kernel)
    : Within sc m0 (m.driveQuiet b) :=
  h.andThen hs Within.refl.arch_sb

theorem Within.windDown (h : Within sc m0 m) (hs : Touch.covers sc (parts [.ph] ++ regs [Reg.PH_STATUS_ENTRY])
    := by decide +kernel) : Within sc m0 m.windDown :=
  h.andThen hs Within.refl.wr.part_ph

theorem Within.thawEntry (h : Within sc m0 m) {full} (hs : Touch.covers sc (parts [.ph, .bat, .chg] ++ regs
    [Reg.PH_STATUS_FROZEN, Reg.PH_STATUS_ENTRY]) := by decide +kernel) : Within sc m0 (m.thawEntry full) := by
  refine h.andThen hs ?_
  unfold Hw.thawEntry
  exact (.edits Within.refl.wr.wrB [.ph, .bat, .chg])

theorem Within.countFrozen (h : Within sc m0 m) (hs : Touch.covers sc (parts [.seq, .journal]) := by decide +kernel)
    : Within sc m0 m.countFrozen := by
  refine h.andThen hs ?_
  unfold Hw.countFrozen
  exact (.edits Within.refl [.seq, .journal])

theorem Within.prepare (h : Within sc m0 m) (hs : Touch.covers sc (parts [.ph, .bat, .sidebands] ++ regs
    [Reg.PH_STATUS_ENTRY, Reg.RAIL_STATUS_HOLD_ACT, Reg.BATFET_STATUS_STATE]) := by decide +kernel) : Within sc m0
    m.prepare :=
  h.andThen hs Within.refl.windDown.wr.part_bat.driveQuiet.batfet

theorem Within.raise (h : Within sc m0 m) {sl} (hs : Touch.covers sc (Touch.time ++ parts [.rails, .sidebands] ++
    regs [Reg.RAIL_STATUS_HOLD_ACT]) := by decide +kernel) : Within sc m0 (m.raise sl) := by
  refine h.andThen hs ?_
  unfold Hw.raise
  exact (.prepare (.part_seq (.ite Within.refl Within.refl.settleRefs)))

theorem Within.freezeIn (h : Within sc m0 m) (hs : Touch.covers sc (Touch.time ++ parts [.rails, .sidebands] ++ regs
    [Reg.RAIL_STATUS_HOLD_ACT, Reg.FRM_STATUS_FRZ, Reg.PH_STATUS_FROZEN]) := by decide +kernel) : Within sc m0
    m.freezeIn := by
  refine h.andThen hs ?_
  unfold Hw.freezeIn
  exact (.batfet (.part_seq (.wr (.wr (.prepare (.ite (.ite Within.refl Within.refl.settleRefs) (.part_seq (.ite
    Within.refl Within.refl.settleRefs))))))))

theorem Within.freezeStop (h : Within sc m0 m) (hs : Touch.covers sc (parts [.seq, .journal, .rails] ++ regs
    [Reg.FRM_FRZ_MAX_MAX, Reg.FRM_STATUS_FRZ]) := by decide +kernel) : Within sc m0 m.freezeStop := by
  refine h.andThen hs ?_
  unfold Hw.freezeStop
  exact (.edits (.wr (.ite Within.refl.countFrozen.wrSat Within.refl.countFrozen)) [.seq, .rails])

theorem Within.thaw (h : Within sc m0 m) {full} (hs : Touch.covers sc (parts [.sidebands, .ph, .bat, .chg, .rails]
    ++ regs [Reg.RAIL_STATUS_HOLD_ACT, Reg.PH_STATUS_FROZEN, Reg.PH_STATUS_ENTRY, Reg.BATFET_STATUS_STATE,
    Reg.STAT_LATCH_PADS]) := by decide +kernel) : Within sc m0 (m.thaw full) :=
  h.andThen hs Within.refl.wr.driveQuiet.thawEntry.resumeRails.batfet.lampSettle

theorem Within.noApts (h : Within sc m0 m) (hs : Touch.covers sc (parts [.seq] ++ regs [Reg.FRM_STATUS_APT])
    := by decide +kernel) : Within sc m0 m.noApts :=
  h.andThen hs Within.refl.wr.part_seq

theorem Within.freezeEnd (h : Within sc m0 m) {full} (hs : Touch.covers sc (Touch.freezeEnd) := by decide +kernel) :
    Within sc m0 (m.freezeEnd full) := by
  refine h.andThen hs ?_
  unfold Hw.freezeEnd
  exact (.ite Within.refl.freezeStop.noApts.thaw Within.refl)

theorem Within.liftQuiet (h : Within sc m0 m) (hs : Touch.covers sc (Touch.freezeEnd) := by decide +kernel) : Within
    sc m0 m.liftQuiet := by
  refine h.andThen hs ?_
  unfold Hw.liftQuiet
  exact (.ite Within.refl.part_seq.freezeEnd (.ite Within.refl.part_seq.noApts.thaw Within.refl.part_seq))

theorem Within.refuse (h : Within sc m0 m) {slot reason frn cut counted} (hs : Touch.covers sc (Touch.refusing)
    := by decide +kernel) : Within sc m0 (m.refuse slot reason frn cut counted) := by
  refine h.andThen hs ?_
  unfold Hw.refuse
  exact (.ite (.record (.fault (.wr (.part_seq (.statEvent (.wr (.ite Within.refl Within.refl.bump))))))) (.part_seq
    (.statEvent (.wr (.ite Within.refl Within.refl.bump)))))

theorem Within.markRun (h : Within sc m0 m) {at_ rest} (hs : Touch.covers sc (parts [.seq]) := by decide +kernel) :
    Within sc m0 (m.markRun at_ rest) :=
  h.andThen hs Within.refl.part_seq

theorem Within.cutFreeze (h : Within sc m0 m) {reason full} (hs : Touch.covers sc (Touch.refusing ++
    Touch.freezeEnd) := by decide +kernel) : Within sc m0 (m.cutFreeze reason full) := by
  refine h.andThen hs ?_
  unfold Hw.cutFreeze
  exact (.ite Within.refl.freezeEnd.refuse.markRun Within.refl)

theorem Within.quietLate (h : Within sc m0 m) {late lateRails ns} (hs : Touch.covers sc (parts [.ph, .faultInput] ++
    regs [Reg.FLT_STATUS_LOST, Reg.PH_EVENTS_QUIET_LATE]) := by decide +kernel) : Within sc m0 (m.quietLate late
    lateRails ns) := by
  refine h.andThen hs ?_
  unfold Hw.quietLate
  exact (.foldl (.foldl Within.refl.part_ph fun _ _ h1 => (.ite h1.faultAt.bump h1)) fun _ _ h2 => (.ite h2.faultAt
    h2))

theorem Within.enterFreeze (h : Within sc m0 m) {late lateRails ns} (hs : Touch.covers sc (Touch.refusing ++
    Touch.freezeEnd ++ regs [Reg.PH_EVENTS_QUIET_LATE]) := by decide +kernel) : Within sc m0 (m.enterFreeze late
    lateRails ns) := by
  refine h.andThen hs ?_
  unfold Hw.enterFreeze
  exact (by
    extract_lets
    split
    · exact Within.refl.freezeIn.quietLate.cutFreeze
    · exact Within.refl.freezeIn.quietLate)

theorem Within.setMode (h : Within sc m0 m) {new cause} (hs : Touch.covers sc (Touch.issuing ++ parts [.sub] ++ regs
    [Reg.MODE_STATUS_MODE, Reg.MODE_STATUS_MODE_CHG, Reg.BATFET_STATUS_STATE]) := by decide +kernel) : Within sc m0
    (m.setMode new cause) := by
  refine h.andThen hs ?_
  unfold Hw.setMode
  exact (.ite Within.refl Within.refl.wr.wr.record.batfet)

theorem Within.orderXfer (h : Within sc m0 m) {dir grant} (hs : Touch.covers sc (Touch.issuing ++ parts [.modes,
    .linkField]) := by decide +kernel) : Within sc m0 (m.orderXfer dir grant) := by
  refine h.andThen hs ?_
  unfold Hw.orderXfer
  exact (.ite Within.refl.part_modes Within.refl.part_modes.sendF)

theorem Within.powerLatch (h : Within sc m0 m) {src k} (hs : Touch.covers sc (Touch.issuing ++ parts [.sub])
    := by decide +kernel) : Within sc m0 (m.powerLatch src k) :=
  h.andThen hs Within.refl.record

theorem Within.hcoreWake (h : Within sc m0 m) (hs : Touch.covers sc (parts [.hwdg] ++ regs [Reg.HP_STATUS_DOZE])
    := by decide +kernel) : Within sc m0 m.hcoreWake := by
  refine h.andThen hs ?_
  unfold Hw.hcoreWake
  exact (.ite Within.refl.wr.part_hwdg Within.refl)

theorem Within.runEngine (h : Within sc m0 m) {e} (hs : Touch.covers sc (parts [.engines]) := by decide +kernel) :
    Within sc m0 (m.runEngine e) := by
  refine h.andThen hs ?_
  unfold Hw.runEngine
  exact (.ite Within.refl Within.refl.setEngine)

theorem Within.h2Up (h : Within sc m0 m) (hs : Touch.covers sc (parts [.engines, .intake, .hostReady, .hostBusy,
    .hwdg, .linkHost, .mailbox] ++ regs [Reg.ID_STATUS_HOST_READY, Reg.HWDG_STATUS_ARMED, Reg.TL_H_STATUS_STATE])
    := by decide +kernel) : Within sc m0 m.h2Up := by
  refine h.andThen hs ?_
  unfold Hw.h2Up
  exact (.ite (.sendH (.ite (.wr (.wr (.wr (.edits Within.refl.runEngine [.intake, .hostReady, .hostBusy, .hwdg]))))
    (.wr (.wr (.edits Within.refl.runEngine [.intake, .hostReady, .hostBusy, .hwdg]))))) (.ite (.wr (.wr (.wr (.edits
    Within.refl.runEngine [.intake, .hostReady, .hostBusy, .hwdg])))) (.wr (.wr (.edits Within.refl.runEngine
    [.intake, .hostReady, .hostBusy, .hwdg])))))

theorem Within.askWake (h : Within sc m0 m) (hs : Touch.covers sc (parts [.modes]) := by decide +kernel) : Within sc
    m0 m.askWake := by
  refine h.andThen hs ?_
  unfold Hw.askWake
  exact (.ite Within.refl.part_modes Within.refl)

theorem Within.flushHostFaults (h : Within sc m0 m) (hs : Touch.covers sc (parts [.linkHost, .mailbox])
    := by decide +kernel) : Within sc m0 m.flushHostFaults := by
  refine h.andThen hs ?_
  unfold Hw.flushHostFaults
  exact (.ite Within.refl.sendH Within.refl)

theorem Within.hfaultAcked (h : Within sc m0 m) {p} (hs : Touch.covers sc (parts [.hostFaults, .linkHost, .mailbox])
    := by decide +kernel) : Within sc m0 (m.hfaultAcked p) := by
  refine h.andThen hs ?_
  exact (Within.refl.flt_hostBuf fun hl => (dropSent_length_le _ _).trans hl).flushHostFaults

theorem Within.fenceBit (h : Within sc m0 m) {unit} (hs : Touch.covers sc (regs [Reg.FLT_FENCE_U_UNITS])
    := by decide +kernel) : Within sc m0 (m.fenceBit unit) := by
  refine h.andThen hs ?_
  unfold Hw.fenceBit
  exact (.ite Within.refl.wrBit Within.refl)

theorem Within.convert (h : Within sc m0 m) {vtb vsys} (hs : Touch.covers sc (parts [.ph] ++ regs
    [Reg.PH_STATUS_CMODE, Reg.PH_STATUS_BAND]) := by decide +kernel) : Within sc m0 (m.convert vtb vsys) := by
  refine h.andThen hs ?_
  unfold Hw.convert
  exact (.ite Within.refl.wr.wr Within.refl.wr.wrB.part_ph)

theorem Within.convertNow (h : Within sc m0 m) (hs : Touch.covers sc (parts [.ph] ++ regs [Reg.PH_STATUS_CMODE,
    Reg.PH_STATUS_BAND]) := by decide +kernel) : Within sc m0 m.convertNow :=
  h.andThen hs Within.refl.convert

theorem Within.setActive (h : Within sc m0 m) {a} (hs : Touch.covers sc (parts [.ph, .chg] ++ regs
    [Reg.PH_STATUS_ACTIVE, Reg.PH_STATUS_ENTRY]) := by decide +kernel) : Within sc m0 (m.setActive a) := by
  refine h.andThen hs ?_
  unfold Hw.setActive
  exact (.ite (.edits Within.refl.wr.part_ph.wr [.ph, .chg]) Within.refl.wr.part_ph)

theorem Within.rePick (h : Within sc m0 m) (hs : Touch.covers sc (Touch.phasesPick) := by decide +kernel) : Within
    sc m0 m.rePick := by
  refine h.andThen hs ?_
  unfold Hw.rePick
  exact (.ite Within.refl.setActive.convertNow Within.refl)

theorem Within.dispatch (h : Within sc m0 m) {k} (hs : Touch.covers sc (parts [.ph]) := by decide +kernel) : Within
    sc m0 (m.dispatch k) := by
  refine h.andThen hs ?_
  unfold Hw.dispatch
  exact (by
    extract_lets
    split
    · exact (.ite Within.refl Within.refl.part_ph)
    · exact Within.refl)

theorem Within.stopPhases (h : Within sc m0 m) (hs : Touch.covers sc (Touch.phasesStop) := by decide +kernel) :
    Within sc m0 m.stopPhases := by
  refine h.andThen hs ?_
  unfold Hw.stopPhases
  exact (.batfet (.edits Within.refl.windDown.clear [.ph, .bat]))

theorem Within.softStart (h : Within sc m0 m) {vout} (hs : Touch.covers sc (Touch.phasesPick ++ regs
    [Reg.PH_STATUS_SS]) := by decide +kernel) : Within sc m0 (m.softStart vout) := by
  refine h.andThen hs ?_
  unfold Hw.softStart
  exact (.ite Within.refl Within.refl.part_ph.setActive.wr.part_ph.convertNow)

theorem Within.ssSettle (h : Within sc m0 m) (hs : Touch.covers sc (parts [.ph]) := by decide +kernel) : Within sc
    m0 m.ssSettle := by
  refine h.andThen hs ?_
  unfold Hw.ssSettle
  exact (by
    split
    · exact (.ite Within.refl.part_ph Within.refl)
    · exact Within.refl)

theorem Within.ssFail (h : Within sc m0 m) {k} (hs : Touch.covers sc (Touch.issuing ++ parts [.ph, .sub] ++ regs
    [Reg.PH_STATUS_ENTRY, Reg.PH_STATUS_SS, Reg.PH_STATUS_ACTIVE, Reg.PH_STATUS_CMODE, Reg.PH_STATUS_BAND,
    Reg.PH_STATUS_LATCHED]) := by decide +kernel) : Within sc m0 (m.ssFail k) := by
  refine h.andThen hs ?_
  unfold Hw.ssFail
  exact (.ite Within.refl.windDown.wr.wr.convertNow.part_ph.wr.part_ph.powerLatch
    Within.refl.windDown.wr.wr.convertNow.part_ph.part_ph)

theorem Within.foldback (h : Within sc m0 m) {set} (hs : Touch.covers sc (regs [Reg.PH_EVENTS_FOLDBACK,
    Reg.PH_STATUS_FOLDBACK]) := by decide +kernel) : Within sc m0 (m.foldback set) :=
  h.andThen hs Within.refl.add.wr

theorem Within.phasesFollow (h : Within sc m0 m) {old dir} (hs : Touch.covers sc (Touch.phasesStop ++ parts [.chg])
    := by decide +kernel) : Within sc m0 (m.phasesFollow old dir) := by
  refine h.andThen hs ?_
  unfold Hw.phasesFollow
  exact (.ite Within.refl.wr.wr.wr.part_ph.softStart (.ite (.ite Within.refl.wr.wr.wr (.ite
    Within.refl.wr.wr.wr.part_ph.setActive.thawEntry.convertNow Within.refl.wr.wr.wr.softStart))
    Within.refl.stopPhases))

theorem Within.leaveDbs (h : Within sc m0 m) (hs : Touch.covers sc (Touch.phasesPick ++ regs [Reg.XFER_STATUS_DBS,
    Reg.PH_STATUS_SS, Reg.BATFET_STATUS_STATE]) := by decide +kernel) : Within sc m0 m.leaveDbs := by
  refine h.andThen hs ?_
  unfold Hw.leaveDbs
  exact (.ite Within.refl.wr.wr.batfet.part_ph.rePick Within.refl)

theorem Within.phaseTick (h : Within sc m0 m) {f} (hs : Touch.covers sc (parts [.ph] ++ regs [Reg.PH_VOLT_VTB,
    Reg.PH_VOLT_VSYS, Reg.PH_CURR_I, Reg.BATFET_STATUS_IBAT, Reg.PH_STATUS_CMODE, Reg.PH_STATUS_BAND,
    Reg.PH_EVENTS_FOLDBACK, Reg.PH_STATUS_FOLDBACK, Reg.PH_STATUS_GOV]) := by decide +kernel) : Within sc m0
    (m.phaseTick f) := by
  refine h.andThen hs ?_
  unfold Hw.phaseTick
  exact Within.refl.wrSat.wrSat.wr.wrI.part_ph.convert.dispatch.foldback.ssSettle.wr

theorem Within.pdissTick (h : Within sc m0 m) (hs : Touch.covers sc (parts [.bat]) := by decide +kernel) : Within sc
    m0 m.pdissTick := by
  refine h.andThen hs ?_
  unfold Hw.pdissTick
  exact Within.refl.part_bat

theorem Within.phClrLatch (h : Within sc m0 m) (hs : Touch.covers sc (parts [.ph, .bat] ++ regs
    [Reg.PH_STATUS_LATCHED, Reg.BATFET_STATUS_STATE]) := by decide +kernel) : Within sc m0 m.phClrLatch := by
  refine h.andThen hs ?_
  unfold Hw.phClrLatch
  exact (.ite (.batfet (.edits Within.refl.wr [.ph, .bat])) Within.refl)

theorem Within.setQualified (h : Within sc m0 m) {x b} (hs : Touch.covers sc (regs [Reg.INTAKE_STATUS_VBUS_QUAL,
    Reg.INTAKE_STATUS_DCIN_QUAL]) := by decide +kernel) : Within sc m0 (m.setQualified x b) := by
  refine h.andThen hs ?_
  unfold Hw.setQualified
  exact (by
    split
    · exact Within.refl.wrB
    · exact Within.refl.wrB)

theorem Within.sourceRecord (h : Within sc m0 m) {old new mv lim} (hs : Touch.covers sc (parts [.linkHost,
    .mailbox]) := by decide +kernel) : Within sc m0 (m.sourceRecord old new mv lim) :=
  h.andThen hs Within.refl.recordH

theorem Within.switched (h : Within sc m0 m) {new} (hs : Touch.covers sc (Touch.hostFault ++ parts [.latches] ++
    regs [Reg.INTAKE_STATUS_ACTIVE, Reg.INTAKE_STATUS_SRC_CHANGE, Reg.INTAKE_EVENTS_SWITCHOVERS,
    Reg.INTAKE_LIM_EFF_LIM, Reg.INTAKE_LIM_EFF_CAUSE, Reg.INTAKE_STATUS_RAMP]) := by decide +kernel) : Within sc m0
    (m.switched new) :=
  h.andThen hs Within.refl.wr.wr.bump.putLatch.wr.wr.alertSet

theorem Within.activate (h : Within sc m0 m) {x mv} (hs : Touch.covers sc (Touch.hostFault ++ parts [.latches,
    .intake, .xfer] ++ regs [Reg.INTAKE_STATUS_ACTIVE, Reg.INTAKE_STATUS_SRC_CHANGE, Reg.INTAKE_EVENTS_SWITCHOVERS,
    Reg.INTAKE_LIM_EFF_LIM, Reg.INTAKE_LIM_EFF_CAUSE, Reg.INTAKE_STATUS_RAMP]) := by decide +kernel) : Within sc m0
    (m.activate x mv) := by
  refine h.andThen hs ?_
  unfold Hw.activate
  exact (.edits Within.refl.switched [.intake, .xfer])

theorem Within.take (h : Within sc m0 m) {x mv} (hs : Touch.covers sc (Touch.hostFault ++ parts [.latches, .intake,
    .xfer, .linkHost, .mailbox] ++ regs [Reg.INTAKE_STATUS_ACTIVE, Reg.INTAKE_STATUS_SRC_CHANGE,
    Reg.INTAKE_EVENTS_SWITCHOVERS, Reg.INTAKE_LIM_EFF_LIM, Reg.INTAKE_LIM_EFF_CAUSE, Reg.INTAKE_STATUS_RAMP])
    := by decide +kernel) : Within sc m0 (m.take x mv) := by
  refine h.andThen hs ?_
  unfold Hw.take
  exact Within.refl.activate.sourceRecord

theorem Within.openActive (h : Within sc m0 m) (hs : Touch.covers sc (Touch.hostFault ++ parts [.latches, .linkHost,
    .mailbox] ++ regs [Reg.INTAKE_STATUS_ACTIVE, Reg.INTAKE_STATUS_SRC_CHANGE, Reg.INTAKE_EVENTS_SWITCHOVERS,
    Reg.INTAKE_LIM_EFF_LIM, Reg.INTAKE_LIM_EFF_CAUSE, Reg.INTAKE_STATUS_RAMP]) := by decide +kernel) : Within sc m0
    m.openActive := by
  refine h.andThen hs ?_
  unfold Hw.openActive
  exact (.ite Within.refl Within.refl.switched.sourceRecord)

theorem Within.settleSource (h : Within sc m0 m) (hs : Touch.covers sc (Touch.hostFault ++ parts [.latches, .intake,
    .xfer, .linkHost, .mailbox] ++ regs [Reg.INTAKE_STATUS_ACTIVE, Reg.INTAKE_STATUS_SRC_CHANGE,
    Reg.INTAKE_EVENTS_SWITCHOVERS, Reg.INTAKE_LIM_EFF_LIM, Reg.INTAKE_LIM_EFF_CAUSE, Reg.INTAKE_STATUS_RAMP])
    := by decide +kernel) : Within sc m0 m.settleSource := by
  refine h.andThen hs ?_
  unfold Hw.settleSource
  exact (.ite Within.refl (by
    split
    · exact Within.refl.take
    · exact Within.refl))

theorem Within.loseActive (h : Within sc m0 m) {x mv mvOther} (hs : Touch.covers sc (Touch.hostFault ++ parts
    [.latches, .intake, .xfer, .linkHost, .mailbox] ++ regs [Reg.INTAKE_STATUS_ACTIVE, Reg.INTAKE_STATUS_SRC_CHANGE,
    Reg.INTAKE_EVENTS_SWITCHOVERS, Reg.INTAKE_LIM_EFF_LIM, Reg.INTAKE_LIM_EFF_CAUSE, Reg.INTAKE_STATUS_RAMP])
    := by decide +kernel) : Within sc m0 (m.loseActive x mv mvOther) := by
  refine h.andThen hs ?_
  unfold Hw.loseActive
  exact (.sourceRecord (.ite Within.refl.wr.haltCode.hfault.activate
    Within.refl.wr.haltCode.hfault.switched.part_xfer))

theorem Within.frsClose (h : Within sc m0 m) {vbus} (hs : Touch.covers sc (Touch.hostFault ++ parts [.latches,
    .linkHost, .mailbox, .cable] ++ regs [Reg.INTAKE_STATUS_ACTIVE, Reg.INTAKE_STATUS_SRC_CHANGE,
    Reg.INTAKE_EVENTS_SWITCHOVERS, Reg.INTAKE_LIM_EFF_LIM, Reg.INTAKE_LIM_EFF_CAUSE, Reg.INTAKE_STATUS_RAMP])
    := by decide +kernel) : Within sc m0 (m.frsClose vbus) := by
  refine h.andThen hs ?_
  unfold Hw.frsClose
  exact (.ite (.part_cable (.ite Within.refl.openActive Within.refl)) Within.refl)

theorem Within.limitWrite (h : Within sc m0 m) (hs : Touch.covers sc (Touch.hostFault ++ parts [.latches] ++ regs
    [Reg.INTAKE_LIM_EFF_LIM, Reg.INTAKE_LIM_EFF_CAUSE]) := by decide +kernel) : Within sc m0 m.limitWrite := by
  refine h.andThen hs ?_
  unfold Hw.limitWrite
  exact (.ite Within.refl Within.refl.ownLatch.wr)

theorem Within.powerSample (h : Within sc m0 m) {vcbuf temp p} (hs : Touch.covers sc (parts [.xfer] ++ regs
    [Reg.XFER_POWER_P, Reg.XFER_STATUS_PLIM]) := by decide +kernel) : Within sc m0 (m.powerSample vcbuf temp p) := by
  refine h.andThen hs ?_
  unfold Hw.powerSample
  exact Within.refl.wrI.wrB.part_xfer

theorem Within.pdissSample (h : Within sc m0 m) {pdiss} (hs : Touch.covers sc (parts [.intake] ++ regs
    [Reg.INTAKE_EVENTS_PDISS_EVENTS, Reg.INTAKE_STATUS_PDISS_LIMIT, Reg.INTAKE_LIM_EFF_CAUSE]) := by decide +kernel)
    : Within sc m0 (m.pdissSample pdiss) := by
  refine h.andThen hs ?_
  unfold Hw.pdissSample
  exact (.ite Within.refl.part_intake (.wr (.wrB (.ite Within.refl.part_intake.bump Within.refl.part_intake))))

theorem Within.drainCbuf (h : Within sc m0 m) {vcbuf} (hs : Touch.covers sc (parts [.xfer]) := by decide +kernel) :
    Within sc m0 (m.drainCbuf vcbuf) := by
  refine h.andThen hs ?_
  unfold Hw.drainCbuf
  exact (by
    split
    · exact (.ite Within.refl.part_xfer Within.refl)
    · exact Within.refl)

theorem Within.startStage (h : Within sc m0 m) (hs : Touch.covers sc (Touch.hostFault ++ parts [.xfer, .latches,
    .ph] ++ regs [Reg.XFER_STATUS_DIR, Reg.XFER_STATUS_DBS, Reg.PH_STATUS_CMODE, Reg.PH_STATUS_ACTIVE,
    Reg.PH_STATUS_SS, Reg.BATFET_STATUS_STATE]) := by decide +kernel) : Within sc m0 m.startStage := by
  refine h.andThen hs ?_
  unfold Hw.startStage
  exact (.ite Within.refl Within.refl.part_xfer.putLatch.wr.wr.wr.wr.wr.part_ph.batfet)

theorem Within.stageLatchesLost (h : Within sc m0 m) (hs : Touch.covers sc (parts [.latches]) := by decide +kernel)
    : Within sc m0 m.stageLatchesLost := by
  refine h.andThen hs ?_
  unfold Hw.stageLatchesLost
  exact (.edits Within.refl [.latches])

theorem Within.stageLatchesUp (h : Within sc m0 m) (hs : Touch.covers sc (Touch.hostFault ++ parts [.latches] ++
    regs [Reg.INTAKE_LIM_EFF_LIM, Reg.INTAKE_LIM_EFF_CAUSE]) := by decide +kernel) : Within sc m0 m.stageLatchesUp :=
  h.andThen hs Within.refl.putLatch.wr

theorem Within.hPwrFollow (h : Within sc m0 m) {vcbuf} (hs : Touch.covers sc (Touch.hostFault ++ parts [.domains,
    .latches, .xfer, .ph] ++ regs [Reg.XFER_STATUS_DIR, Reg.XFER_STATUS_FLOOR, Reg.XFER_STATUS_PLIM,
    Reg.XFER_STATUS_DBS, Reg.XFER_STATUS_TEMP, Reg.XFER_POWER_P, Reg.INTAKE_LIM_EFF_LIM, Reg.INTAKE_LIM_EFF_CAUSE,
    Reg.PH_STATUS_CMODE, Reg.PH_STATUS_ACTIVE, Reg.PH_STATUS_SS, Reg.BATFET_STATUS_STATE]) := by decide +kernel) :
    Within sc m0 (m.hPwrFollow vcbuf) := by
  refine h.andThen hs ?_
  unfold Hw.hPwrFollow
  exact (.ite Within.refl (.ite (.ite Within.refl.powerDomain.stageLatchesUp.startStage
    Within.refl.powerDomain.stageLatchesUp) Within.refl.powerDomain.stageLatchesLost))

theorem Within.hostBlank (h : Within sc m0 m) (hs : Touch.covers sc (parts [.hostFaults, .cable, .intake, .xfer,
      .latches, .sidebands, .resetNote, .linkHost, .mailbox, .snapshot, .drain, .alertPad, .hostBusy] ++
      [.hostSide]) := by decide +kernel) : Within sc m0 m.hostBlank := by
  refine h.andThen hs ?_
  have hregs : Within (parts [.hostFaults, .cable, .intake, .xfer, .latches, .sidebands, .resetNote, .linkHost,
      .mailbox, .snapshot, .drain, .alertPad, .hostBusy] ++ [.hostSide]) m
      { m with regs := m.regs.filter fun e => isFieldAddr (e.1 / 32) } :=
    Within.refl.filterSide .host fun e he => by cases hf : isFieldAddr (e.1 / 32) <;> simp_all
  exact hregs.edits [.hostFaults, .cable, .intake, .xfer, .latches, .sidebands, .resetNote, .linkHost, .mailbox,
    .snapshot, .drain, .alertPad, .hostBusy] (hb := fun _ => Nat.zero_le _)

theorem Within.dbsStart (h : Within sc m0 m) (hs : Touch.covers sc (Touch.hostFault ++ parts [.modes, .domains,
    .xfer, .latches, .ph] ++ regs [Reg.XFER_STATUS_DIR, Reg.XFER_STATUS_FLOOR, Reg.XFER_STATUS_PLIM,
    Reg.XFER_STATUS_DBS, Reg.XFER_STATUS_TEMP, Reg.XFER_POWER_P, Reg.PH_STATUS_CMODE, Reg.PH_STATUS_BAND,
    Reg.PH_STATUS_REV, Reg.PH_STATUS_FROZEN, Reg.PH_STATUS_ENTRY, Reg.PH_STATUS_SS, Reg.PH_STATUS_GOV,
    Reg.PH_STATUS_ACTIVE, Reg.PH_STATUS_FOLDBACK, Reg.PH_VOLT_VTB, Reg.PH_VOLT_VSYS, Reg.BATFET_STATUS_IBAT,
    Reg.BATFET_STATUS_TEMP, Reg.RAIL_STATUS_POL_ON, Reg.RAIL_STATUS_POL_REG, Reg.RAIL_STATUS_POL_SLEW,
    Reg.RAIL_STATUS_HOLD_ACT, Reg.RAIL_STATUS_QR_ON, Reg.PH_CURR_I, Reg.BATFET_STATUS_STATE]) := by decide +kernel)
    : Within sc m0 m.dbsStart := by
  refine h.andThen hs ?_
  unfold Hw.dbsStart
  exact (.ite Within.refl Within.refl.part_modes.powerDomain.powerDomain.powerDomain.startStage)

theorem Within.hardStart (h : Within sc m0 m) {x advert} (hs : Touch.covers sc (Touch.hostFault ++ parts [.latches,
    .intake, .xfer, .linkHost, .mailbox, .modes, .domains, .ph] ++ regs [Reg.INTAKE_STATUS_VBUS_QUAL,
    Reg.INTAKE_STATUS_DCIN_QUAL, Reg.INTAKE_STATUS_ACTIVE, Reg.INTAKE_STATUS_SRC_CHANGE,
    Reg.INTAKE_EVENTS_SWITCHOVERS, Reg.INTAKE_LIM_EFF_LIM, Reg.INTAKE_LIM_EFF_CAUSE, Reg.INTAKE_STATUS_RAMP,
    Reg.XFER_STATUS_DIR, Reg.XFER_STATUS_FLOOR, Reg.XFER_STATUS_PLIM, Reg.XFER_STATUS_DBS, Reg.XFER_STATUS_TEMP,
    Reg.XFER_POWER_P, Reg.PH_STATUS_CMODE, Reg.PH_STATUS_BAND, Reg.PH_STATUS_REV, Reg.PH_STATUS_FROZEN,
    Reg.PH_STATUS_ENTRY, Reg.PH_STATUS_SS, Reg.PH_STATUS_GOV, Reg.PH_STATUS_ACTIVE, Reg.PH_STATUS_FOLDBACK,
    Reg.PH_VOLT_VTB, Reg.PH_VOLT_VSYS, Reg.BATFET_STATUS_IBAT, Reg.BATFET_STATUS_TEMP, Reg.RAIL_STATUS_POL_ON,
    Reg.RAIL_STATUS_POL_REG, Reg.RAIL_STATUS_POL_SLEW, Reg.RAIL_STATUS_HOLD_ACT, Reg.RAIL_STATUS_QR_ON,
    Reg.PH_CURR_I, Reg.BATFET_STATUS_STATE]) := by decide +kernel) : Within sc m0 (m.hardStart x advert) := by
  refine h.andThen hs ?_
  unfold Hw.hardStart
  exact (.ite Within.refl.setQualified (.dbsStart (.part_intake (.ite Within.refl.setQualified
    Within.refl.setQualified.take))))

theorem Within.dirDone (h : Within sc m0 m) {old dir} (hs : Touch.covers sc (Touch.phasesStop ++ Touch.hostFault ++
    parts [.xfer, .chg, .linkHost, .mailbox, .latches, .intake] ++ regs [Reg.XFER_STATUS_DIR,
    Reg.XFER_STATS_DIR_CHANGES, Reg.INTAKE_STATUS_ACTIVE, Reg.INTAKE_STATUS_SRC_CHANGE,
    Reg.INTAKE_EVENTS_SWITCHOVERS, Reg.INTAKE_LIM_EFF_LIM, Reg.INTAKE_LIM_EFF_CAUSE, Reg.INTAKE_STATUS_RAMP])
    := by decide +kernel) : Within sc m0 (m.dirDone old dir) := by
  refine h.andThen hs ?_
  unfold Hw.dirDone
  exact (.settleSource (.ite Within.refl.part_xfer.wr.phasesFollow Within.refl.part_xfer.wr.phasesFollow.bump.recordH))

theorem Within.changeDir (h : Within sc m0 m) {dir reached} (hs : Touch.covers sc (Touch.phasesStop ++
    Touch.hostFault ++ parts [.latches, .linkHost, .mailbox, .xfer, .chg, .intake] ++ regs
    [Reg.INTAKE_STATUS_ACTIVE, Reg.INTAKE_STATUS_SRC_CHANGE, Reg.INTAKE_EVENTS_SWITCHOVERS, Reg.INTAKE_LIM_EFF_LIM,
    Reg.INTAKE_LIM_EFF_CAUSE, Reg.INTAKE_STATUS_RAMP, Reg.XFER_STATUS_DIR, Reg.XFER_STATS_DIR_CHANGES])
    := by decide +kernel) : Within sc m0 (m.changeDir dir reached) := by
  refine h.andThen hs ?_
  unfold Hw.changeDir
  exact (.ite Within.refl (.ite (.dirDone (.ite Within.refl.ownLatch.windDown.openActive
    Within.refl.ownLatch.windDown)) (.part_xfer (.wr (.ite Within.refl.ownLatch.windDown.openActive
    Within.refl.ownLatch.windDown)))))

theorem Within.instructDir (h : Within sc m0 m) {dir} (hs : Touch.covers sc (Touch.phasesStop ++ Touch.hostFault ++
    parts [.xfer, .latches, .linkHost, .mailbox, .chg, .intake] ++ regs [Reg.INTAKE_STATUS_ACTIVE,
    Reg.INTAKE_STATUS_SRC_CHANGE, Reg.INTAKE_EVENTS_SWITCHOVERS, Reg.INTAKE_LIM_EFF_LIM, Reg.INTAKE_LIM_EFF_CAUSE,
    Reg.INTAKE_STATUS_RAMP, Reg.XFER_STATUS_DIR, Reg.XFER_STATS_DIR_CHANGES]) := by decide +kernel) : Within sc m0
    (m.instructDir dir) := by
  refine h.andThen hs ?_
  unfold Hw.instructDir
  exact (.ite Within.refl (.ite Within.refl.part_xfer (.ite Within.refl.part_xfer.ownLatch
    Within.refl.part_xfer.changeDir)))

theorem Within.stageTick (h : Within sc m0 m) (hs : Touch.covers sc (parts [.intake, .xfer]) := by decide +kernel) :
    Within sc m0 m.stageTick := by
  refine h.andThen hs ?_
  unfold Hw.stageTick
  exact (.edits Within.refl [.intake, .xfer])

theorem Within.xferFail (h : Within sc m0 m) {k detail} (hs : Touch.covers sc (Touch.hostFault ++ parts [.latches,
    .xfer, .linkHost, .mailbox, .intake] ++ regs [Reg.XFER_STATUS_DIR, Reg.XFER_STATUS_LATCHED,
    Reg.INTAKE_STATUS_ACTIVE, Reg.INTAKE_STATUS_SRC_CHANGE, Reg.INTAKE_EVENTS_SWITCHOVERS, Reg.INTAKE_LIM_EFF_LIM,
    Reg.INTAKE_LIM_EFF_CAUSE, Reg.INTAKE_STATUS_RAMP]) := by decide +kernel) : Within sc m0 (m.xferFail k detail) := by
  refine h.andThen hs ?_
  unfold Hw.xferFail
  exact (.ite Within.refl.hfault.wr.putLatch.wr.part_xfer.recordH.settleSource Within.refl.hfault.wr.part_xfer)

theorem Within.xferClrLatch (h : Within sc m0 m) (hs : Touch.covers sc (parts [.xfer, .modes] ++ regs
    [Reg.XFER_STATUS_LATCHED]) := by decide +kernel) : Within sc m0 m.xferClrLatch := by
  refine h.andThen hs ?_
  unfold Hw.xferClrLatch
  exact (.ite (.edits Within.refl.wr [.xfer, .modes]) Within.refl)

theorem Within.chgLatchesNow (h : Within sc m0 m) {st} (hs : Touch.covers sc (parts [.latches, .faultInput, .chg] ++
    regs [Reg.CHG_V_SET, Reg.FLT_STATUS_LOST, Reg.CHG_I_SET]) := by decide +kernel) : Within sc m0 (m.chgLatchesNow
    st) :=
  h.andThen hs Within.refl.ownLatch.ownLatch

theorem Within.setChgEn (h : Within sc m0 m) (hs : Touch.covers sc (parts [.latches, .chg, .faultInput] ++ regs
    [Reg.CHG_STATUS_EN, Reg.FLT_STATUS_LOST]) := by decide +kernel) : Within sc m0 m.setChgEn := by
  refine h.andThen hs ?_
  unfold Hw.setChgEn
  exact (.ite Within.refl Within.refl.ownLatch)

theorem Within.chgLatches (h : Within sc m0 m) {st} (hs : Touch.covers sc (parts [.latches, .faultInput, .chg] ++
    regs [Reg.CHG_V_SET, Reg.FLT_STATUS_LOST, Reg.CHG_I_SET, Reg.CHG_STATUS_EN]) := by decide +kernel) : Within sc
    m0 (m.chgLatches st) :=
  h.andThen hs Within.refl.chgLatchesNow.setChgEn

theorem Within.faultN (h : Within sc m0 m) (hs : Touch.covers sc (regs [Reg.STAT_LATCH_FN]) := by decide +kernel) :
    Within sc m0 m.faultN :=
  h.andThen hs Within.refl.wr

theorem Within.statOfState (h : Within sc m0 m) {st} (hs : Touch.covers sc (regs [Reg.STAT_LATCH_EVENTS,
    Reg.STAT_LATCH_PADS, Reg.STAT_LATCH_FN]) := by decide +kernel) : Within sc m0 (m.statOfState st) := by
  refine h.andThen hs ?_
  unfold Hw.statOfState
  exact (.ite Within.refl.statEvent (.ite Within.refl.statEvent.faultN (.ite Within.refl.statEvent (.ite
    Within.refl.statEvent (.ite Within.refl.statEvent Within.refl)))))

theorem Within.nextRead (h : Within sc m0 m) (hs : Touch.covers sc (Touch.issuing ++ parts [.chg, .waits, .adc,
    .bus]) := by decide +kernel) : Within sc m0 m.nextRead := by
  refine h.andThen hs ?_
  unfold Hw.nextRead
  exact (by
    split
    · exact Within.refl
    · exact Within.refl.part_chg.issueFor)

theorem Within.packReadDone (h : Within sc m0 m) {lost} (hs : Touch.covers sc (Touch.issuing ++ parts [.chg, .waits,
    .adc, .bus]) := by decide +kernel) : Within sc m0 (m.packReadDone lost) := by
  refine h.andThen hs ?_
  unfold Hw.packReadDone
  exact (.ite Within.refl.part_chg Within.refl.nextRead)

theorem Within.askPack (h : Within sc m0 m) (hs : Touch.covers sc (Touch.issuing ++ parts [.chg, .waits, .adc,
    .bus]) := by decide +kernel) : Within sc m0 m.askPack := by
  refine h.andThen hs ?_
  unfold Hw.askPack
  exact (.ite Within.refl.part_chg.nextRead Within.refl)

theorem Within.askTick (h : Within sc m0 m) (hs : Touch.covers sc (Touch.issuing ++ parts [.chg, .waits, .adc,
    .bus]) := by decide +kernel) : Within sc m0 m.askTick := by
  refine h.andThen hs ?_
  unfold Hw.askTick
  exact (.ite Within.refl.askPack Within.refl)

theorem Within.packReadsEnd (h : Within sc m0 m) (hs : Touch.covers sc (Touch.issuing ++ parts [.chg, .bus, .adc,
    .waits, .sub]) := by decide +kernel) : Within sc m0 m.packReadsEnd := by
  refine h.andThen hs ?_
  unfold Hw.packReadsEnd
  exact (.foldl Within.refl.part_chg fun _ _ h2 => h2.part_bus.dropTicket)

theorem Within.chgTo (h : Within sc m0 m) {st cause} (hs : Touch.covers sc (Touch.issuing ++ parts [.chg, .latches,
    .faultInput, .cable, .waits, .adc, .bus, .sub] ++ regs [Reg.CHG_STATUS_STATE, Reg.CHG_V_SET,
    Reg.FLT_STATUS_LOST, Reg.CHG_I_SET, Reg.CHG_STATUS_EN, Reg.BATFET_STATUS_STATE, Reg.CHG_STATUS_FAULT_LATCH,
    Reg.STAT_LATCH_EVENTS, Reg.STAT_LATCH_PADS, Reg.STAT_LATCH_FN]) := by decide +kernel) : Within sc m0 (m.chgTo st
    cause) := by
  refine h.andThen hs ?_
  unfold Hw.chgTo
  exact (.record (.ite (.askPack (.statPads (.statOfState (.ite (.part_cable (.ite (.wr (.ite
    Within.refl.wr.part_chg.chgLatches.batfet Within.refl.wr.part_chg.clearChgEn)) (.ite
    Within.refl.wr.part_chg.chgLatches.batfet Within.refl.wr.part_chg.clearChgEn))) (.ite (.wr (.ite
    Within.refl.wr.part_chg.chgLatches.batfet Within.refl.wr.part_chg.clearChgEn)) (.ite
    Within.refl.wr.part_chg.chgLatches.batfet Within.refl.wr.part_chg.clearChgEn)))))) (.statPads (.statOfState (.ite
    (.part_cable (.ite (.wr (.ite Within.refl.wr.part_chg.chgLatches.batfet Within.refl.wr.part_chg.clearChgEn)) (.ite
    Within.refl.wr.part_chg.chgLatches.batfet Within.refl.wr.part_chg.clearChgEn))) (.ite (.wr (.ite
    Within.refl.wr.part_chg.chgLatches.batfet Within.refl.wr.part_chg.clearChgEn)) (.ite
    Within.refl.wr.part_chg.chgLatches.batfet Within.refl.wr.part_chg.clearChgEn)))))))

theorem Within.resetTimers (h : Within sc m0 m) (hs : Touch.covers sc (parts [.chg] ++ regs [Reg.CHG_TIMER_PRE,
    Reg.CHG_TIMER_FAST]) := by decide +kernel) : Within sc m0 m.resetTimers :=
  h.andThen hs Within.refl.wr.wr.part_chg

theorem Within.presence (h : Within sc m0 m) {vbat vsys} (hs : Touch.covers sc (parts [.chg] ++ regs
    [Reg.RAIL_STATUS_KA_ON, Reg.CHG_STATUS_PRESENT]) := by decide +kernel) : Within sc m0 (m.presence vbat vsys) := by
  refine h.andThen hs ?_
  unfold Hw.presence
  exact (.part_chg (.wrB (.ite Within.refl.wr Within.refl)))

theorem Within.packFound (h : Within sc m0 m) (hs : Touch.covers sc (Touch.issuing ++ parts [.chg, .latches,
    .faultInput, .cable, .waits, .adc, .bus, .sub] ++ regs [Reg.CHG_STATUS_STATE, Reg.CHG_V_SET,
    Reg.FLT_STATUS_LOST, Reg.CHG_I_SET, Reg.CHG_STATUS_EN, Reg.BATFET_STATUS_STATE, Reg.CHG_STATUS_FAULT_LATCH,
    Reg.STAT_LATCH_EVENTS, Reg.STAT_LATCH_PADS, Reg.STAT_LATCH_FN]) := by decide +kernel) : Within sc m0 m.packFound :=
  h.andThen hs Within.refl.part_chg.chgTo

theorem Within.takeProfile (h : Within sc m0 m) {p src band} (hs : Touch.covers sc (Touch.issuing ++ parts [.chg,
    .sub] ++ regs [Reg.CHG_PROF_A_CHEM, Reg.CHG_PROF_A_CELLS, Reg.CHG_PROF_A_SRC, Reg.CHG_PROF_A_BAND,
    Reg.CHG_PROF_A_VCELL, Reg.CHG_PROF_I_ICHG, Reg.CHG_PROF_I_IPEAK, Reg.CHG_PROF_P_IPRE, Reg.CHG_PROF_P_PRE_TH,
    Reg.CHG_PROF_P_TERM, Reg.CHG_PROF_P_RECH]) := by decide +kernel) : Within sc m0 (m.takeProfile p src band) := by
  refine h.andThen hs ?_
  unfold Hw.takeProfile
  exact Within.refl.wr.wr.wr.wr.wr.wr.wr.wr.wr.wr.wr.part_chg.record

theorem Within.holdPack (h : Within sc m0 m) {why} (hs : Touch.covers sc (Touch.issuing ++ parts [.chg, .latches,
    .faultInput, .cable, .waits, .adc, .bus, .sub] ++ regs [Reg.CHG_STATUS_STATE, Reg.CHG_V_SET,
    Reg.FLT_STATUS_LOST, Reg.CHG_I_SET, Reg.CHG_STATUS_EN, Reg.BATFET_STATUS_STATE, Reg.CHG_STATUS_FAULT_LATCH,
    Reg.STAT_LATCH_EVENTS, Reg.STAT_LATCH_PADS, Reg.STAT_LATCH_FN]) := by decide +kernel) : Within sc m0 (m.holdPack
    why) :=
  h.andThen hs Within.refl.part_chg.chgTo

theorem Within.declined (h : Within sc m0 m) {r} (hs : Touch.covers sc (Touch.issuing ++ parts [.faultInput, .chg,
    .latches, .cable, .waits, .adc, .bus, .sub] ++ regs [Reg.FLT_STATUS_LOST, Reg.CHG_STATUS_STATE, Reg.CHG_V_SET,
    Reg.CHG_I_SET, Reg.CHG_STATUS_EN, Reg.BATFET_STATUS_STATE, Reg.CHG_STATUS_FAULT_LATCH, Reg.STAT_LATCH_EVENTS,
    Reg.STAT_LATCH_PADS, Reg.STAT_LATCH_FN]) := by decide +kernel) : Within sc m0 (m.declined r) := by
  refine h.andThen hs ?_
  unfold Hw.declined
  exact (.holdPack (.part_chg (.ite Within.refl Within.refl.fault)))

theorem Within.enterCharge (h : Within sc m0 m) {vbat} (hs : Touch.covers sc (Touch.issuing ++ parts [.chg,
    .latches, .faultInput, .cable, .waits, .adc, .bus, .sub] ++ regs [Reg.CHG_STATUS_STATE, Reg.CHG_V_SET,
    Reg.FLT_STATUS_LOST, Reg.CHG_I_SET, Reg.CHG_STATUS_EN, Reg.BATFET_STATUS_STATE, Reg.CHG_STATUS_FAULT_LATCH,
    Reg.STAT_LATCH_EVENTS, Reg.STAT_LATCH_PADS, Reg.STAT_LATCH_FN]) := by decide +kernel) : Within sc m0
    (m.enterCharge vbat) := by
  refine h.andThen hs ?_
  unfold Hw.enterCharge
  exact (by
    split
    · exact Within.refl.part_chg.chgTo
    · exact (.ite Within.refl.chgTo (.ite Within.refl.chgTo Within.refl.chgTo)))

theorem Within.tryProfile (h : Within sc m0 m) {p l src band vbat r} (hs : Touch.covers sc (Touch.issuing ++ parts
    [.faultInput, .chg, .latches, .cable, .waits, .adc, .bus, .sub, .seq] ++ regs [Reg.FLT_STATUS_LOST,
    Reg.CHG_STATUS_STATE, Reg.CHG_V_SET, Reg.CHG_I_SET, Reg.CHG_STATUS_EN, Reg.BATFET_STATUS_STATE,
    Reg.CHG_STATUS_FAULT_LATCH, Reg.STAT_LATCH_EVENTS, Reg.STAT_LATCH_PADS, Reg.STAT_LATCH_FN, Reg.CHG_PROF_A_CHEM,
    Reg.CHG_PROF_A_CELLS, Reg.CHG_PROF_A_SRC, Reg.CHG_PROF_A_BAND, Reg.CHG_PROF_A_VCELL, Reg.CHG_PROF_I_ICHG,
    Reg.CHG_PROF_I_IPEAK, Reg.CHG_PROF_P_IPRE, Reg.CHG_PROF_P_PRE_TH, Reg.CHG_PROF_P_TERM, Reg.CHG_PROF_P_RECH,
    Reg.CHG_TIMER_PRE, Reg.CHG_TIMER_FAST]) := by decide +kernel) : Within sc m0 (m.tryProfile p l src band vbat r) :=
      by
  refine h.andThen hs ?_
  unfold Hw.tryProfile
  exact (.ite Within.refl.fault.holdPack (.ite (by
    split
    · exact Within.refl.declined
    · exact Within.refl) (.ite Within.refl.fault.holdPack (.enterCharge (.part_chg (.ite
      Within.refl.part_chg.takeProfile.part_seq.resetTimers.wr Within.refl.part_chg.takeProfile.part_seq))))))

theorem Within.showSbs (h : Within sc m0 m) {r} (hs : Touch.covers sc (parts [.chg] ++ regs [Reg.PACK_SBS_ICHG_REQ,
    Reg.PACK_SBS_STATUS, Reg.PACK_SBS_V_VCHG_REQ, Reg.PACK_SBS_V_VOLT]) := by decide +kernel) : Within sc m0
    (m.showSbs r) := by
  refine h.andThen hs ?_
  unfold Hw.showSbs
  exact Within.refl.wrSat.wrSat.wrSat.wrSat.part_chg

theorem Within.applySbs (h : Within sc m0 m) {r} (hs : Touch.covers sc (Touch.issuing ++ parts [.chg, .faultInput,
    .latches, .cable, .waits, .adc, .bus, .sub] ++ regs [Reg.FLT_STATUS_LOST, Reg.CHG_STATUS_STATE, Reg.CHG_V_SET,
    Reg.CHG_I_SET, Reg.CHG_STATUS_EN, Reg.BATFET_STATUS_STATE, Reg.CHG_STATUS_FAULT_LATCH, Reg.STAT_LATCH_EVENTS,
    Reg.STAT_LATCH_PADS, Reg.STAT_LATCH_FN, Reg.CHG_PROF_A_CHEM, Reg.CHG_PROF_A_CELLS, Reg.CHG_PROF_A_SRC,
    Reg.CHG_PROF_A_BAND, Reg.CHG_PROF_A_VCELL, Reg.CHG_PROF_I_ICHG, Reg.CHG_PROF_I_IPEAK, Reg.CHG_PROF_P_IPRE,
    Reg.CHG_PROF_P_PRE_TH, Reg.CHG_PROF_P_TERM, Reg.CHG_PROF_P_RECH]) := by decide +kernel) : Within sc m0
    (m.applySbs r) := by
  refine h.andThen hs ?_
  unfold Hw.applySbs
  exact (.ite (.ite (.ite Within.refl Within.refl.part_chg.fault) Within.refl.chgTo) (.ite (.ite (.ite Within.refl
    Within.refl.declined) (by
    split
    · exact Within.refl
    · exact (.ite Within.refl (.ite Within.refl.takeProfile (.ite Within.refl.takeProfile.chgTo (.ite
      Within.refl.fault.holdPack (.ite Within.refl.takeProfile.chgLatches Within.refl.takeProfile))))))) Within.refl))

theorem Within.sbsFailed (h : Within sc m0 m) {err} (hs : Touch.covers sc (Touch.issuing ++ parts [.chg,
    .faultInput, .latches, .cable, .waits, .adc, .bus, .sub] ++ regs [Reg.FLT_STATUS_LOST, Reg.CHG_STATUS_STATE,
    Reg.CHG_V_SET, Reg.CHG_I_SET, Reg.CHG_STATUS_EN, Reg.BATFET_STATUS_STATE, Reg.CHG_STATUS_FAULT_LATCH,
    Reg.STAT_LATCH_EVENTS, Reg.STAT_LATCH_PADS, Reg.STAT_LATCH_FN]) := by decide +kernel) : Within sc m0
    (m.sbsFailed err) := by
  refine h.andThen hs ?_
  unfold Hw.sbsFailed
  exact (.ite (.ite Within.refl.part_chg Within.refl.fault.part_chg.holdPack) Within.refl)

theorem Within.timerFault (h : Within sc m0 m) {m'} (he : m.timerFault = some m')
    (hs : Touch.covers sc Touch.charging := by decide +kernel) : Within sc m0 m' := by
  refine h.andThen hs ?_
  unfold Hw.timerFault at he
  split at he
  · obtain rfl := Option.some.inj he
    exact Within.refl.fault.chgTo
  · split at he
    · obtain rfl := Option.some.inj he
      exact Within.refl.fault.chgTo
    · cases he

theorem Within.setTs (h : Within sc m0 m) {i v} (hs : Touch.covers sc (regs [Reg.CHG_TEMP_TS]) := by decide +kernel)
    : Within sc m0 (m.setTs i v) :=
  h.andThen hs Within.refl.wr

theorem Within.removal (h : Within sc m0 m) {detectors} (hs : Touch.covers sc (Touch.refusing ++ Touch.freezeEnd ++
    parts [.cable, .latches, .waits, .adc, .bus] ++ regs [Reg.CHG_STATUS_REMOVAL, Reg.CHG_STATUS_EN,
    Reg.CHG_STATUS_STATE, Reg.CHG_V_SET, Reg.CHG_I_SET, Reg.CHG_STATUS_FAULT_LATCH, Reg.STAT_LATCH_FN])
    := by decide +kernel) : Within sc m0 (m.removal detectors) := by
  refine h.andThen hs ?_
  unfold Hw.removal
  exact (by
    split
    · exact Within.refl.part_chg
    · exact (.ite Within.refl (.batfet (.ite (.cutFreeze (.statEvent (.clearChgEn (.edits Within.refl.wr [.seq, .chg,
      .cable])))) (.chgTo (.cutFreeze (.statEvent (.clearChgEn (.edits Within.refl.wr [.seq, .chg, .cable])))))))))

theorem Within.detect (h : Within sc m0 m) {t vbat detectors} (hs : Touch.covers sc (Touch.refusing ++
    Touch.freezeEnd ++ parts [.cable, .latches, .waits, .adc, .bus] ++ regs [Reg.CHG_STATUS_REMOVAL,
    Reg.CHG_STATUS_EN, Reg.CHG_STATUS_STATE, Reg.CHG_V_SET, Reg.CHG_I_SET, Reg.CHG_STATUS_FAULT_LATCH,
    Reg.STAT_LATCH_FN, Reg.RAIL_STATUS_KA_ON, Reg.CHG_STATUS_PRESENT]) := by decide +kernel) : Within sc m0
    (m.detect t vbat detectors) := by
  refine h.andThen hs ?_
  unfold Hw.detect
  exact (.ite Within.refl.atT Within.refl.atT.removal.presence)

theorem Within.clrChgFault (h : Within sc m0 m) (hs : Touch.covers sc (Touch.issuing ++ parts [.chg, .latches,
    .faultInput, .cable, .waits, .adc, .bus, .sub] ++ regs [Reg.CHG_STATUS_FAULT_LATCH, Reg.CHG_STATUS_STATE,
    Reg.CHG_V_SET, Reg.FLT_STATUS_LOST, Reg.CHG_I_SET, Reg.CHG_STATUS_EN, Reg.BATFET_STATUS_STATE,
    Reg.STAT_LATCH_EVENTS, Reg.STAT_LATCH_PADS, Reg.STAT_LATCH_FN]) := by decide +kernel) : Within sc m0
    m.clrChgFault := by
  refine h.andThen hs ?_
  unfold Hw.clrChgFault
  exact (.ite (.ite Within.refl.wr.chgTo Within.refl.wr) Within.refl)

theorem Within.windowTick (h : Within sc m0 m) {ts} (hs : Touch.covers sc (parts [.chg] ++ regs
    [Reg.CHG_STATUS_WINDOW]) := by decide +kernel) : Within sc m0 (m.windowTick ts) := by
  refine h.andThen hs ?_
  unfold Hw.windowTick
  exact (by
    split
    · exact Within.refl.wr.part_chg
    · exact Within.refl.wr.part_chg)

theorem Within.countConditions (h : Within sc m0 m) {f} (hs : Touch.covers sc (parts [.chg]) := by decide +kernel) :
    Within sc m0 (m.countConditions f) := by
  refine h.andThen hs ?_
  unfold Hw.countConditions
  exact Within.refl.part_chg

theorem Within.timerTick (h : Within sc m0 m) {f} (hs : Touch.covers sc (parts [.chg] ++ regs [Reg.CHG_TIMER_PRE,
    Reg.CHG_TIMER_FAST]) := by decide +kernel) : Within sc m0 (m.timerTick f) := by
  refine h.andThen hs ?_
  unfold Hw.timerTick
  exact (.wrSat (.wrSat (.ite (.part_chg (.ite Within.refl.part_chg Within.refl)) (.ite Within.refl.part_chg
    Within.refl))))

theorem Within.chargeEval (h : Within sc m0 m) {temps} (hs : Touch.covers sc (Touch.issuing ++ parts [.chg,
    .latches, .faultInput, .cable, .waits, .adc, .bus, .sub] ++ regs [Reg.CHG_STATUS_STATE, Reg.CHG_V_SET,
    Reg.FLT_STATUS_LOST, Reg.CHG_I_SET, Reg.CHG_STATUS_EN, Reg.BATFET_STATUS_STATE, Reg.CHG_STATUS_FAULT_LATCH,
    Reg.STAT_LATCH_EVENTS, Reg.STAT_LATCH_PADS, Reg.STAT_LATCH_FN]) := by decide +kernel) : Within sc m0
    (m.chargeEval temps) := by
  refine h.andThen hs ?_
  unfold Hw.chargeEval
  exact (.ite (.ite Within.refl Within.refl.chgTo) (.ite (.ite Within.refl.chgTo Within.refl.chgTo) (.ite
    Within.refl.part_chg.fault.chgTo Within.refl)))

theorem Within.currentUpdate (h : Within sc m0 m) {f} (hs : Touch.covers sc (parts [.latches, .faultInput, .chg] ++
    regs [Reg.CHG_V_SET, Reg.FLT_STATUS_LOST, Reg.CHG_I_SET, Reg.CHG_STATUS_LIMITED]) := by decide +kernel) : Within
    sc m0 (m.currentUpdate f) := by
  refine h.andThen hs ?_
  unfold Hw.currentUpdate
  exact (.ite Within.refl.chgLatchesNow.wrB Within.refl.wr)

theorem Within.presenceTick (h : Within sc m0 m) {f} (hs : Touch.covers sc (Touch.refusing ++ Touch.freezeEnd ++
    parts [.cable, .latches, .waits, .adc, .bus] ++ regs [Reg.RAIL_STATUS_KA_ON, Reg.CHG_STATUS_PRESENT,
    Reg.CHG_STATUS_REMOVAL, Reg.CHG_STATUS_EN, Reg.CHG_STATUS_STATE, Reg.CHG_V_SET, Reg.CHG_I_SET,
    Reg.CHG_STATUS_FAULT_LATCH, Reg.STAT_LATCH_FN]) := by decide +kernel) : Within sc m0 (m.presenceTick f) := by
  refine h.andThen hs ?_
  unfold Hw.presenceTick
  exact (.ite Within.refl.removal.presence Within.refl.presence)

theorem Within.chargeTick (h : Within sc m0 m) {f} (hs : Touch.covers sc (Touch.refusing ++ Touch.freezeEnd ++ parts
    [.cable, .latches, .waits, .adc, .bus] ++ regs [Reg.CHG_MON_VBAT, Reg.CHG_MON_INET, Reg.RAIL_STATUS_KA_ON,
    Reg.CHG_STATUS_PRESENT, Reg.CHG_STATUS_REMOVAL, Reg.CHG_STATUS_EN, Reg.CHG_STATUS_STATE, Reg.CHG_V_SET,
    Reg.CHG_I_SET, Reg.CHG_STATUS_FAULT_LATCH, Reg.STAT_LATCH_FN, Reg.CHG_TEMP_TS, Reg.CHG_STATUS_WINDOW,
    Reg.CHG_TIMER_PRE, Reg.CHG_TIMER_FAST, Reg.CHG_STATUS_LIMITED]) := by decide +kernel) : Within sc m0
    (m.chargeTick f) := by
  refine h.andThen hs ?_
  unfold Hw.chargeTick
  exact (.batfet (.statPads (.part_chg (.ite (.ite (.faultN (.statEvent (.statOfState (.ite (.ite (.ite (.foldl
    Within.refl.wrSat.wrI.part_chg.presenceTick fun _ _ h4 => h4.setTs) (.part_jrn (.foldl
    Within.refl.wrSat.wrI.part_chg.presenceTick fun _ _ h4 => h4.setTs))) (.askTick (.chargeEval (.timerTick
    (.countConditions (.windowTick (.ite (.foldl Within.refl.wrSat.wrI.part_chg.presenceTick fun _ _ h4 => h4.setTs)
    (.part_jrn (.foldl Within.refl.wrSat.wrI.part_chg.presenceTick fun _ _ h4 => h4.setTs))))))))) (.currentUpdate
    (.ite (.ite (.foldl Within.refl.wrSat.wrI.part_chg.presenceTick fun _ _ h4 => h4.setTs) (.part_jrn (.foldl
    Within.refl.wrSat.wrI.part_chg.presenceTick fun _ _ h4 => h4.setTs))) (.askTick (.chargeEval (.timerTick
    (.countConditions (.windowTick (.ite (.foldl Within.refl.wrSat.wrI.part_chg.presenceTick fun _ _ h4 => h4.setTs)
    (.part_jrn (.foldl Within.refl.wrSat.wrI.part_chg.presenceTick fun _ _ h4 => h4.setTs)))))))))))))) (.statOfState
    (.ite (.ite (.ite (.foldl Within.refl.wrSat.wrI.part_chg.presenceTick fun _ _ h4 => h4.setTs) (.part_jrn (.foldl
    Within.refl.wrSat.wrI.part_chg.presenceTick fun _ _ h4 => h4.setTs))) (.askTick (.chargeEval (.timerTick
    (.countConditions (.windowTick (.ite (.foldl Within.refl.wrSat.wrI.part_chg.presenceTick fun _ _ h4 => h4.setTs)
    (.part_jrn (.foldl Within.refl.wrSat.wrI.part_chg.presenceTick fun _ _ h4 => h4.setTs))))))))) (.currentUpdate
    (.ite (.ite (.foldl Within.refl.wrSat.wrI.part_chg.presenceTick fun _ _ h4 => h4.setTs) (.part_jrn (.foldl
    Within.refl.wrSat.wrI.part_chg.presenceTick fun _ _ h4 => h4.setTs))) (.askTick (.chargeEval (.timerTick
    (.countConditions (.windowTick (.ite (.foldl Within.refl.wrSat.wrI.part_chg.presenceTick fun _ _ h4 => h4.setTs)
    (.part_jrn (.foldl Within.refl.wrSat.wrI.part_chg.presenceTick fun _ _ h4 => h4.setTs))))))))))))) (.statOfState
    (.ite (.ite (.ite (.foldl Within.refl.wrSat.wrI.part_chg.presenceTick fun _ _ h4 => h4.setTs) (.part_jrn (.foldl
    Within.refl.wrSat.wrI.part_chg.presenceTick fun _ _ h4 => h4.setTs))) (.askTick (.chargeEval (.timerTick
    (.countConditions (.windowTick (.ite (.foldl Within.refl.wrSat.wrI.part_chg.presenceTick fun _ _ h4 => h4.setTs)
    (.part_jrn (.foldl Within.refl.wrSat.wrI.part_chg.presenceTick fun _ _ h4 => h4.setTs))))))))) (.currentUpdate
    (.ite (.ite (.foldl Within.refl.wrSat.wrI.part_chg.presenceTick fun _ _ h4 => h4.setTs) (.part_jrn (.foldl
    Within.refl.wrSat.wrI.part_chg.presenceTick fun _ _ h4 => h4.setTs))) (.askTick (.chargeEval (.timerTick
    (.countConditions (.windowTick (.ite (.foldl Within.refl.wrSat.wrI.part_chg.presenceTick fun _ _ h4 => h4.setTs)
    (.part_jrn (.foldl Within.refl.wrSat.wrI.part_chg.presenceTick fun _ _ h4 => h4.setTs))))))))))))))))

theorem Within.setRailOn (h : Within sc m0 m) {n b} (hs : Touch.covers sc (regs [Reg.RAIL_STATUS_POL_ON,
    Reg.RAIL_STATUS_QR_ON]) := by decide +kernel) : Within sc m0 (m.setRailOn n b) := by
  refine h.andThen hs ?_
  unfold Hw.setRailOn
  exact (.ite Within.refl.wrBit Within.refl.wrBit)

theorem Within.setOverride (h : Within sc m0 m) {n b} (hs : Touch.covers sc (regs [Reg.RAIL_STATUS_POL_OVR,
    Reg.RAIL_STATUS_QR_OVR]) := by decide +kernel) : Within sc m0 (m.setOverride n b) := by
  refine h.andThen hs ?_
  unfold Hw.setOverride
  exact (.ite Within.refl.wrBit Within.refl.wrBit)

theorem Within.setSlewing (h : Within sc m0 m) {n b} (hs : Touch.covers sc (parts [.rails] ++ regs
    [Reg.RAIL_STATUS_POL_SLEW]) := by decide +kernel) : Within sc m0 (m.setSlewing n b) := by
  refine h.andThen hs ?_
  unfold Hw.setSlewing
  exact (.ite Within.refl.setRail.wrBit Within.refl.setRail)

theorem Within.polStart (h : Within sc m0 m) {n vout} (hs : Touch.covers sc (Touch.railsFollow)
    := by decide +kernel) : Within sc m0 (m.polStart n vout) :=
  h.andThen hs Within.refl.setRail.setRailOn.setSlewing.wrBit

theorem Within.polStop (h : Within sc m0 m) {n} (hs : Touch.covers sc (Touch.railsFollow) := by decide +kernel) :
    Within sc m0 (m.polStop n) :=
  h.andThen hs Within.refl.setRail.setRailOn.setSlewing.wrBit

theorem Within.polFollow (h : Within sc m0 m) {n} (hs : Touch.covers sc (Touch.railsFollow) := by decide +kernel) :
    Within sc m0 (m.polFollow n) := by
  refine h.andThen hs ?_
  unfold Hw.polFollow
  exact (.setRail (.ite (.ite Within.refl Within.refl.polStart) (.ite Within.refl.polStop Within.refl)))

theorem Within.railsFollow (h : Within sc m0 m) (hs : Touch.covers sc (Touch.railsFollow) := by decide +kernel) :
    Within sc m0 m.railsFollow := by
  refine h.andThen hs ?_
  unfold Hw.railsFollow
  exact (.foldl (.foldl Within.refl fun _ _ h1 => h1.polFollow) fun _ _ h2 => h2.setRailOn)

theorem Within.railRetire (h : Within sc m0 m) {n} (hs : Touch.covers sc (Touch.issuing ++ parts [.adc, .bus,
    .waits, .sub]) := by decide +kernel) : Within sc m0 (m.railRetire n) := by
  refine h.andThen hs ?_
  unfold Hw.railRetire
  exact (by
    split
    · exact Within.refl.dropTicket
    · exact Within.refl)

theorem Within.endTag (h : Within sc m0 m) {n code detail} (hs : Touch.covers sc (Touch.issuing ++ parts [.rails,
    .adc, .bus, .waits, .sub, .rl] ++ regs [Reg.RL_STATUS_EVQ]) := by decide +kernel) : Within sc m0 (m.endTag n
    code detail) := by
  refine h.andThen hs ?_
  unfold Hw.endTag
  exact (by
    split
    · exact Within.refl.setRail.railRetire.rlEvent
    · exact Within.refl)

theorem Within.regOf (h : Within sc m0 m) {n mv} (hs : Touch.covers sc (regs [Reg.RAIL_STATUS_POL_REG])
    := by decide +kernel) : Within sc m0 (m.regOf n mv) := by
  refine h.andThen hs ?_
  unfold Hw.regOf
  exact (.ite Within.refl.wrBit Within.refl)

theorem Within.slewTo (h : Within sc m0 m) {n mv slew tag} (hs : Touch.covers sc (Touch.issuing ++ Touch.railsFollow
    ++ parts [.adc, .bus, .waits, .sub, .rl] ++ regs [Reg.RL_STATUS_EVQ]) := by decide +kernel) : Within sc m0
    (m.slewTo n mv slew tag) := by
  refine h.andThen hs ?_
  unfold Hw.slewTo
  exact Within.refl.endTag.setRail.setSlewing.regOf.railsFollow

theorem Within.retarget (h : Within sc m0 m) {n} {f : Hw → Hw} (hf : ∀ m, Within sc m0 m → Within sc m0 (f m))
    (hs : Touch.covers sc (Touch.railsFollow ++ parts [.rails] ++ regs [Reg.RAIL_STATUS_POL_SLEW,
      Reg.RAIL_STATUS_POL_REG]) := by decide +kernel) : Within sc m0 (m.retarget n f) := by
  unfold Hw.retarget
  exact (hf _ h).andThen hs Within.refl.setRail.setSlewing.regOf.railsFollow

theorem Within.polFail (h : Within sc m0 m) {n k detail short} (hs : Touch.covers sc (Touch.issuing ++
    Touch.railsFollow ++ parts [.faultInput, .adc, .bus, .waits, .sub, .rl] ++ regs [Reg.FLT_STATUS_LOST,
    Reg.RAIL_STATUS_POL_LATCHED, Reg.RL_STATUS_EVQ]) := by decide +kernel) : Within sc m0 (m.polFail n k detail
    short) := by
  refine h.andThen hs ?_
  unfold Hw.polFail
  exact (.ite Within.refl.faultW.setRail.polStop.wrBit.endTag.powerLatch Within.refl.faultW.setRail.polStop)

theorem Within.onceInRun (h : Within sc m0 m) {n} {f : Hw → Hw} (hf : ∀ m, Within sc m0 m → Within sc m0 (f m))
    (hs : Touch.covers sc (parts [.rails]) := by decide +kernel) : Within sc m0 (m.onceInRun n f) := by
  unfold Hw.onceInRun
  exact .ite (h.setRail hs) (hf _ (h.setRail hs))

theorem Within.clrRailLatch (h : Within sc m0 m) (hs : Touch.covers sc (Touch.railsFollow ++ regs
    [Reg.RAIL_STATUS_POL_LATCHED]) := by decide +kernel) : Within sc m0 m.clrRailLatch := by
  refine h.andThen hs ?_
  unfold Hw.clrRailLatch
  exact (.ite (.railsFollow (.foldl Within.refl.wr fun _ _ h2 => (.ite h2.setRail h2))) Within.refl)

theorem Within.padSelect (h : Within sc m0 m) {n mv} (hs : Touch.covers sc (Touch.issuing ++ Touch.railsFollow ++
    Touch.railSet ++ parts [.adc, .bus, .waits, .sub, .rl] ++ regs [Reg.RL_STATUS_EVQ]) := by decide +kernel) :
    Within sc m0 (m.padSelect n mv) := by
  refine h.andThen hs ?_
  unfold Hw.padSelect
  exact (.ite Within.refl Within.refl.ownLatch_rail.slewTo)

theorem Within.respond (h : Within sc m0 m) (hs : Touch.covers sc (parts [.rl] ++ regs [Reg.RL_STATUS_EVQ])
    := by decide +kernel) : Within sc m0 m.respond := by
  refine h.andThen hs ?_
  unfold Hw.respond
  exact (by
    split
    · exact Within.refl.part_rl
    · exact Within.refl.part_rl.wr
    · exact Within.refl.part_rl)

theorem Within.answerRl (h : Within sc m0 m) {code tag detail} (hs : Touch.covers sc (parts [.rl])
    := by decide +kernel) : Within sc m0 (m.answerRl code tag detail) :=
  h.andThen hs Within.refl.part_rl

theorem Within.rejectRl (h : Within sc m0 m) {tag reason} (hs : Touch.covers sc (parts [.rl] ++ regs
    [Reg.RL_STATUS_REJECTS]) := by decide +kernel) : Within sc m0 (m.rejectRl tag reason) :=
  h.andThen hs Within.refl.bump.answerRl

theorem Within.transact (h : Within sc m0 m) {tag arg} {f : Hw → Hw} (hf : ∀ m, Within sc m0 m → Within sc m0 (f m))
    (hs : Touch.covers sc (parts [.rl] ++ regs [Reg.RL_STATUS_SPEED, Reg.RL_STATUS_EVQ]) := by decide +kernel) :
    Within sc m0 (m.transact tag arg f) := by
  unfold Hw.transact
  exact .ite (hf _ (h.andThen hs Within.refl.respond.wr)) (.ite (h.andThen hs Within.refl.respond.answerRl) h)

theorem Within.inSession (h : Within sc m0 m) {tag raises} {f : Hw → Hw}
    (hf : ∀ m, Within sc m0 m → Within sc m0 (f m))
    (hs : Touch.covers sc (parts [.rl] ++ regs [Reg.RL_STATUS_REJECTS]) := by decide +kernel) :
    Within sc m0 (m.inSession tag raises f) := by
  unfold Hw.inSession
  exact .ite (h.rejectRl hs) (.ite (h.rejectRl hs) (hf _ h))

theorem Within.endQrOverrides (h : Within sc m0 m) (hs : Touch.covers sc (Touch.railSet ++ regs
    [Reg.RAIL_STATUS_POL_OVR, Reg.RAIL_STATUS_QR_OVR]) := by decide +kernel) : Within sc m0 m.endQrOverrides := by
  refine h.andThen hs ?_
  unfold Hw.endQrOverrides
  exact (.foldl Within.refl fun _ _ h1 => (.ite h1.setOverride.putLatch_rail h1))

theorem Within.runRl (h : Within sc m0 m) {c mv} (hs : Touch.covers sc (Touch.issuing ++ Touch.railsFollow ++
    Touch.railSet ++ parts [.adc, .bus, .waits, .sub, .rl] ++ regs [Reg.RAIL_STATUS_POL_OVR, Reg.RAIL_STATUS_QR_OVR,
    Reg.RL_STATUS_EVQ]) := by decide +kernel) : Within sc m0 (m.runRl c mv) := by
  refine h.andThen hs ?_
  unfold Hw.runRl
  exact (by
    split
    · exact Within.refl.setOverride.ownLatch_rail.slewTo
    · exact Within.refl.setOverride.setRail.slewTo
    · exact (.slewTo (.ite Within.refl.setOverride.setRail.ownLatch_rail
      Within.refl.setOverride.setRail.ownLatch_rail))
    · exact Within.refl.padSelect)

theorem Within.startRl (h : Within sc m0 m) {c} (hs : Touch.covers sc (parts [.tickets] ++ regs
    [Reg.TKT_STATUS_INFLIGHT, Reg.TKT_STATUS_HWM, Reg.TKT_STATUS_FULL, Reg.TKT_STATUS_HELD,
    Reg.TKT_STATUS_HELD_STREAM]) := by decide +kernel) : Within sc m0 (m.startRl c) := by
  refine h.andThen hs ?_
  unfold Hw.startRl
  exact (by
    split
    · exact Within.refl.setTicket
    · exact Within.refl)

theorem Within.f4Back (h : Within sc m0 m) (hs : Touch.covers sc (Touch.issuing ++ Touch.railsFollow ++
    Touch.railSet ++ parts [.rl, .adc, .bus, .waits, .sub] ++ regs [Reg.RAIL_STATUS_POL_OVR, Reg.RAIL_STATUS_QR_OVR,
    Reg.RL_STATUS_EVQ]) := by decide +kernel) : Within sc m0 m.f4Back := by
  refine h.andThen hs ?_
  unfold Hw.f4Back
  exact (.foldl (.foldl Within.refl.part_rl fun _ _ h2 => h2.startRl.runRl) fun _ _ h3 => (.ite h3 h3.padSelect))

theorem Within.takeRl (h : Within sc m0 m) {c tag mv} (hs : Touch.covers sc (Touch.issuing ++ Touch.railsFollow ++
    Touch.railSet ++ parts [.rl, .adc, .bus, .waits, .sub] ++ regs [Reg.RAIL_STATUS_POL_OVR, Reg.RAIL_STATUS_QR_OVR,
    Reg.RL_STATUS_EVQ]) := by decide +kernel) : Within sc m0 (m.takeRl c tag mv) := by
  refine h.andThen hs ?_
  unfold Hw.takeRl
  exact (.ite Within.refl.answerRl.startRl.runRl Within.refl.answerRl.part_rl)

theorem Within.issueRl (h : Within sc m0 m) {c m'} (he : m.issueRl c = some m')
    (hs : Touch.covers sc (Touch.issuing) := by decide +kernel) :
    Within sc m0 m' := by
  unfold Hw.issueRl at he
  split at he
  · obtain rfl := Option.some.inj he
    exact h
  · obtain ⟨⟨m1, n⟩, hi, rfl⟩ := Option.map_eq_some_iff.1 he
    exact h.issue hi hs

theorem Within.acceptRl (h : Within sc m0 m) {c tag mv} (hs : Touch.covers sc (Touch.issuing ++ Touch.railsFollow ++
    Touch.railSet ++ parts [.rl, .adc, .bus, .waits, .sub] ++ regs [Reg.RL_STATUS_REJECTS, Reg.RAIL_STATUS_POL_OVR,
    Reg.RAIL_STATUS_QR_OVR, Reg.RL_STATUS_EVQ]) := by decide +kernel) : Within sc m0 (m.acceptRl c tag mv) := by
  refine h.andThen hs ?_
  unfold Hw.acceptRl
  exact (by
    split
    · exact Within.refl.rejectRl
    · next m1 he1 => exact (Within.refl.issueRl he1).takeRl)

theorem Within.setRailMon (h : Within sc m0 m) {n mv} (hs : Touch.covers sc (regs [Reg.RAIL_MON_A_PAIR,
    Reg.RAIL_MON_B_PAIR, Reg.RAIL_MON_C_PAIR]) := by decide +kernel) : Within sc m0 (m.setRailMon n mv) := by
  refine h.andThen hs ?_
  unfold Hw.setRailMon
  exact (by
    extract_lets
    split
    · exact Within.refl.wr
    · exact Within.refl.wr
    · exact Within.refl.wr
    · exact Within.refl.wr
    · exact Within.refl.wr)

theorem Within.gapRecord (h : Within sc m0 m) {g} (hs : Touch.covers sc (Touch.issuing ++ parts [.sub])
    := by decide +kernel) : Within sc m0 (m.gapRecord g) :=
  h.andThen hs Within.refl.record

theorem Within.submitGaps (h : Within sc m0 m) (hs : Touch.covers sc (Touch.issuing ++ parts [.sub, .rails])
    := by decide +kernel) : Within sc m0 m.submitGaps := by
  refine h.andThen hs ?_
  unfold Hw.submitGaps
  exact (.ite Within.refl (.part_rails (.foldl Within.refl fun _ _ h1 => h1.gapRecord)))

theorem Within.armGap (h : Within sc m0 m) {mv} (hs : Touch.covers sc (parts [.rails, .journal])
    := by decide +kernel) : Within sc m0 (m.armGap mv) := by
  refine h.andThen hs ?_
  unfold Hw.armGap
  exact (.edits Within.refl [.rails, .journal])

theorem Within.lowKa (h : Within sc m0 m) {mv} (hs : Touch.covers sc (parts [.rails] ++ regs [Reg.KA_MIN_MIN])
    := by decide +kernel) : Within sc m0 (m.lowKa mv) := by
  refine h.andThen hs ?_
  unfold Hw.lowKa
  exact (.part_rails (.ite Within.refl.wrSat Within.refl))

theorem Within.watchKa (h : Within sc m0 m) {mv} (hs : Touch.covers sc (parts [.journal, .rails] ++ regs
    [Reg.KA_MIN_MIN]) := by decide +kernel) : Within sc m0 (m.watchKa mv) := by
  refine h.andThen hs ?_
  unfold Hw.watchKa
  exact (.ite (.lowKa (.ite (.armGap (.ite Within.refl.part_jrn Within.refl)) (.ite Within.refl.part_jrn
    Within.refl))) Within.refl)

theorem Within.railsTick (h : Within sc m0 m) {f} (hs : Touch.covers sc (parts [.rails, .rl, .faultInput, .journal]
    ++ regs [Reg.RAIL_STATUS_POL_SLEW, Reg.FLT_STATUS_LOST, Reg.RAIL_MON_A_PAIR, Reg.RAIL_MON_B_PAIR,
    Reg.RAIL_MON_C_PAIR, Reg.RAIL_STATUS_KA_LOW, Reg.KA_MIN_MIN]) := by decide +kernel) : Within sc m0 (m.railsTick
    f) := by
  refine h.andThen hs ?_
  unfold Hw.railsTick
  exact (.watchKa (.wrB (.wr (.wr (.wr (.ite (.foldl Within.refl fun _ _ h1 => (.ite h1.setRail.wrBit h1.setRail))
    (.fault (.part_rl (.foldl Within.refl fun _ _ h1 => (.ite h1.setRail.wrBit h1.setRail))))))))))

theorem Within.pdIn (h : Within sc m0 m) {f : Hw → Hw} (hf : ∀ m, Within sc m0 m → Within sc m0 (f m)) :
    Within sc m0 (m.pdIn f) := by
  unfold Hw.pdIn
  exact .ite (hf _ h) h

theorem Within.cblFlag (h : Within sc m0 m) {f}
    (hf : (Touch.reg f).within sc := by decide +kernel)
    (hs : Touch.covers sc (parts [.alertPad] ++ regs [Reg.ALERT_SRC_SRC]) := by decide +kernel) :
    Within sc m0 (m.cblFlag f) := by
  unfold Hw.cblFlag
  exact .ite h ((h.wr hf).alertSet hs)

theorem Within.cableEvent (h : Within sc m0 m) {i before transition} (hs : Touch.covers sc (parts [.linkHost,
    .mailbox]) := by decide +kernel) : Within sc m0 (m.cableEvent i before transition) :=
  h.andThen hs Within.refl.recordH

theorem Within.tellField (h : Within sc m0 m) {req mv} (hs : Touch.covers sc (parts [.linkHost, .mailbox])
    := by decide +kernel) : Within sc m0 (m.tellField req mv) :=
  h.andThen hs Within.refl.sendH

theorem Within.passCurrent (h : Within sc m0 m) {curr} (hs : Touch.covers sc (Touch.hostFault ++ parts [.intake,
    .latches] ++ regs [Reg.INTAKE_LIM_EFF_LIM, Reg.INTAKE_LIM_EFF_CAUSE]) := by decide +kernel) : Within sc m0
    (m.passCurrent curr) :=
  h.andThen hs Within.refl.part_intake.limitWrite

theorem Within.contractWindow (h : Within sc m0 m) {mv pps} (hs : Touch.covers sc (parts [.cable])
    := by decide +kernel) : Within sc m0 (m.contractWindow mv pps) :=
  h.andThen hs Within.refl.part_cable

theorem Within.transitWindow (h : Within sc m0 m) {old new} (hs : Touch.covers sc (parts [.cable])
    := by decide +kernel) : Within sc m0 (m.transitWindow old new) :=
  h.andThen hs Within.refl.part_cable

theorem Within.plainWindow (h : Within sc m0 m) (hs : Touch.covers sc (parts [.cable]) := by decide +kernel) :
    Within sc m0 m.plainWindow :=
  h.andThen hs Within.refl.part_cable

theorem Within.setContract (h : Within sc m0 m) {x role} (hs : Touch.covers sc (parts [.cable, .alertPad, .linkHost,
    .mailbox] ++ regs [Reg.CBL_CONTRACT_VOLT, Reg.CBL_CONTRACT_CURR, Reg.CBL_CONTRACT_TYPE, Reg.CBL_CONTRACT_ROLE,
    Reg.CBL_CONTRACT_POS, Reg.CBL_STATUS_EXPLICIT, Reg.ALERT_SRC_SRC, Reg.CBL_STATUS_CONTRACT_CHG])
    := by decide +kernel) : Within sc m0 (m.setContract x role) := by
  refine h.andThen hs ?_
  unfold Hw.setContract
  exact Within.refl.part_cable.wr.wrSat.wr.wr.wr.wr.cblFlag.recordH.tellField

theorem Within.clearContract (h : Within sc m0 m) (hs : Touch.covers sc (Touch.contractGone) := by decide +kernel) :
    Within sc m0 m.clearContract :=
  h.andThen hs Within.refl.clear.part_cable

theorem Within.leaveShare (h : Within sc m0 m) (hs : Touch.covers sc (parts [.cable, .linkHost, .mailbox] ++ regs
    [Reg.CBL_STATUS_FS_MODE]) := by decide +kernel) : Within sc m0 m.leaveShare := by
  refine h.andThen hs ?_
  unfold Hw.leaveShare
  exact (.ite Within.refl.wr.part_cable.cableEvent Within.refl)

theorem Within.openSource (h : Within sc m0 m) (hs : Touch.covers sc (Touch.hostFault ++ parts [.cable, .latches,
    .intake, .xfer, .linkHost, .mailbox] ++ regs [Reg.INTAKE_STATUS_ACTIVE, Reg.INTAKE_STATUS_SRC_CHANGE,
    Reg.INTAKE_EVENTS_SWITCHOVERS, Reg.INTAKE_LIM_EFF_LIM, Reg.INTAKE_LIM_EFF_CAUSE, Reg.INTAKE_STATUS_RAMP])
    := by decide +kernel) : Within sc m0 m.openSource :=
  h.andThen hs Within.refl.part_cable.settleSource

theorem Within.withdraw (h : Within sc m0 m) (hs : Touch.covers sc (parts [.cable, .linkHost, .mailbox])
    := by decide +kernel) : Within sc m0 m.withdraw := by
  refine h.andThen hs ?_
  unfold Hw.withdraw
  exact (.ite Within.refl.part_cable.tellField Within.refl)

theorem Within.blankPort (h : Within sc m0 m) (hs : Touch.covers sc (Touch.contractGone ++ Touch.unmarked ++ parts
    [.linkHost, .mailbox] ++ regs [Reg.CBL_STATUS_FS_MODE, Reg.CBL_STATUS_VCONN, Reg.CBL_STATUS_DFP,
    Reg.CBL_STATUS_RP, Reg.CBL_PARTNER_REV, Reg.CBL_PARTNER_DRP, Reg.CBL_PARTNER_EPR_CAP, Reg.CBL_PARTNER_FRS_REQ])
    := by decide +kernel) : Within sc m0 m.blankPort := by
  refine h.andThen hs ?_
  unfold Hw.blankPort
  exact Within.refl.clearContract.leaveShare.plainWindow.clear.part_cable

theorem Within.errorRecovery (h : Within sc m0 m) {cause} (hs : Touch.covers sc (Touch.contractGone ++
    Touch.hostFault ++ Touch.unmarked ++ parts [.latches, .intake, .xfer, .linkHost, .mailbox, .seq] ++ regs
    [Reg.INTAKE_STATUS_ACTIVE, Reg.INTAKE_STATUS_SRC_CHANGE, Reg.INTAKE_EVENTS_SWITCHOVERS, Reg.INTAKE_LIM_EFF_LIM,
    Reg.INTAKE_LIM_EFF_CAUSE, Reg.INTAKE_STATUS_RAMP, Reg.CBL_STATUS_FS_MODE, Reg.CBL_STATUS_VCONN,
    Reg.CBL_STATUS_DFP, Reg.CBL_STATUS_RP, Reg.CBL_PARTNER_REV, Reg.CBL_PARTNER_DRP, Reg.CBL_PARTNER_EPR_CAP,
    Reg.CBL_PARTNER_FRS_REQ, Reg.CBL_STATUS_STATE, Reg.CBL_EVENTS_ERR_RECOV]) := by decide +kernel) : Within sc m0
    (m.errorRecovery cause) := by
  refine h.andThen hs ?_
  unfold Hw.errorRecovery
  exact Within.refl.openSource.blankPort.wr.part_cable.bump.hfault.cableEvent.withdraw.part_seq

theorem Within.portFlags (h : Within sc m0 m) (hs : Touch.covers sc (parts [.cable] ++ regs
    [Reg.CBL_STATUS_SRC_PERMIT, Reg.CBL_STATUS_FRS_ARMED]) := by decide +kernel) : Within sc m0 m.portFlags := by
  refine h.andThen hs ?_
  unfold Hw.portFlags
  exact (.wrB (.wrB (.ite Within.refl.part_cable Within.refl)))

theorem Within.endRole (h : Within sc m0 m) {cause} (hs : Touch.covers sc (Touch.contractGone ++ Touch.hostFault ++
    Touch.unmarked ++ parts [.latches, .intake, .xfer, .linkHost, .mailbox, .seq] ++ regs [Reg.INTAKE_STATUS_ACTIVE,
    Reg.INTAKE_STATUS_SRC_CHANGE, Reg.INTAKE_EVENTS_SWITCHOVERS, Reg.INTAKE_LIM_EFF_LIM, Reg.INTAKE_LIM_EFF_CAUSE,
    Reg.INTAKE_STATUS_RAMP, Reg.CBL_STATUS_FS_MODE, Reg.CBL_STATUS_VCONN, Reg.CBL_STATUS_DFP, Reg.CBL_STATUS_RP,
    Reg.CBL_PARTNER_REV, Reg.CBL_PARTNER_DRP, Reg.CBL_PARTNER_EPR_CAP, Reg.CBL_PARTNER_FRS_REQ,
    Reg.CBL_STATUS_STATE, Reg.CBL_EVENTS_ERR_RECOV]) := by decide +kernel) : Within sc m0 (m.endRole cause) := by
  refine h.andThen hs ?_
  unfold Hw.endRole
  exact (.ite Within.refl (.ite Within.refl.part_cable Within.refl.errorRecovery))

theorem Within.detach (h : Within sc m0 m) {transition} (hs : Touch.covers sc (Touch.contractGone ++ Touch.hostFault
    ++ Touch.unmarked ++ parts [.latches, .intake, .xfer, .linkHost, .mailbox, .seq] ++ regs
    [Reg.INTAKE_STATUS_ACTIVE, Reg.INTAKE_STATUS_SRC_CHANGE, Reg.INTAKE_EVENTS_SWITCHOVERS, Reg.INTAKE_LIM_EFF_LIM,
    Reg.INTAKE_LIM_EFF_CAUSE, Reg.INTAKE_STATUS_RAMP, Reg.CBL_STATUS_FS_MODE, Reg.CBL_STATUS_VCONN,
    Reg.CBL_STATUS_DFP, Reg.CBL_STATUS_RP, Reg.CBL_PARTNER_REV, Reg.CBL_PARTNER_DRP, Reg.CBL_PARTNER_EPR_CAP,
    Reg.CBL_PARTNER_FRS_REQ, Reg.CBL_STATUS_STATE, Reg.CBL_STATUS_ATTACH_CHG, Reg.CBL_STATUS_SRC_PERMIT])
    := by decide +kernel) : Within sc m0 (m.detach transition) := by
  refine h.andThen hs ?_
  unfold Hw.detach
  exact (.ite Within.refl (.portFlags (.cableEvent (.cblFlag (.ite (.passCurrent (.edits (.wr (.blankPort (.ite
    Within.refl.openSource.haltCode (.ite Within.refl.openSource Within.refl)))) [.seq, .cable])) (.withdraw (.edits
    (.wr (.blankPort (.ite Within.refl.openSource.haltCode (.ite Within.refl.openSource Within.refl)))) [.seq,
    .cable])))))))

theorem Within.pdRunEnds (h : Within sc m0 m) (hs : Touch.covers sc (parts [.lb] ++ regs [Reg.HLB_STATUS_STATE,
    Reg.HLB_STATUS_REASON]) := by decide +kernel) : Within sc m0 m.pdRunEnds := by
  refine h.andThen hs ?_
  unfold Hw.pdRunEnds
  exact (.ite Within.refl.wr.wr.part_lb Within.refl)

theorem Within.attachWake (h : Within sc m0 m) (hs : Touch.covers sc (parts [.hwdg, .lb, .sidebands] ++ regs
    [Reg.HP_STATUS_DOZE, Reg.HLB_STATUS_STATE, Reg.HLB_STATUS_REASON]) := by decide +kernel) : Within sc m0
    m.attachWake := by
  refine h.andThen hs ?_
  unfold Hw.attachWake
  exact (.ite Within.refl.hcoreWake.pdRunEnds.haltCode Within.refl.hcoreWake.pdRunEnds)

theorem Within.debugAttach (h : Within sc m0 m) (hs : Touch.covers sc (Touch.hostFault ++ parts [.intake, .latches,
    .linkHost, .mailbox] ++ regs [Reg.INTAKE_LIM_EFF_LIM, Reg.INTAKE_LIM_EFF_CAUSE, Reg.CBL_STATUS_STATE,
    Reg.CBL_STATUS_ATTACH_CHG, Reg.CBL_STATUS_DEBUG_DENIED]) := by decide +kernel) : Within sc m0 m.debugAttach := by
  refine h.andThen hs ?_
  unfold Hw.debugAttach
  exact (.ite (.cableEvent (.cblFlag (.wr (.ite Within.refl Within.refl.passCurrent)))) Within.refl.cblFlag.hfault)

theorem Within.softReset (h : Within sc m0 m) {received} (hs : Touch.covers sc (Touch.hostFault ++ parts [.cable,
    .linkHost, .mailbox] ++ regs [Reg.CBL_EVENTS_SOFT_RESETS]) := by decide +kernel) : Within sc m0 (m.softReset
    received) :=
  h.andThen hs Within.refl.bump.hfault.part_cable.cableEvent

theorem Within.askAgain (h : Within sc m0 m) (hs : Touch.covers sc (parts [.cable]) := by decide +kernel) : Within
    sc m0 m.askAgain := by
  refine h.andThen hs ?_
  unfold Hw.askAgain
  exact (.ite Within.refl.part_cable Within.refl)

theorem Within.hardReset (h : Within sc m0 m) {received} (hs : Touch.covers sc (Touch.contractGone ++
    Touch.hostFault ++ Touch.unmarked ++ parts [.linkHost, .mailbox, .seq, .latches, .intake, .xfer] ++ regs
    [Reg.CBL_EVENTS_HARD_RESETS, Reg.CBL_STATUS_HARD_RESET, Reg.CBL_STATUS_FS_MODE, Reg.INTAKE_STATUS_ACTIVE,
    Reg.INTAKE_STATUS_SRC_CHANGE, Reg.INTAKE_EVENTS_SWITCHOVERS, Reg.INTAKE_LIM_EFF_LIM, Reg.INTAKE_LIM_EFF_CAUSE,
    Reg.INTAKE_STATUS_RAMP, Reg.CBL_STATUS_STATE, Reg.CBL_STATUS_VCONN, Reg.CBL_STATUS_DFP, Reg.CBL_STATUS_RP,
    Reg.CBL_PARTNER_REV, Reg.CBL_PARTNER_DRP, Reg.CBL_PARTNER_EPR_CAP, Reg.CBL_PARTNER_FRS_REQ,
    Reg.CBL_EVENTS_ERR_RECOV]) := by decide +kernel) : Within sc m0 (m.hardReset received) := by
  refine h.andThen hs ?_
  unfold Hw.hardReset
  exact (.ite (.passCurrent (.plainWindow (.wr (.withdraw (.openSource (.part_cable (.edits
    Within.refl.bump.cblFlag.hfault.cableEvent.leaveShare.clearContract [.seq, .cable]))))))) (.ite (.ite (.part_cable
    (.wr (.wr (.openSource (.edits Within.refl.bump.cblFlag.hfault.cableEvent.leaveShare.clearContract [.seq,
    .cable]))))) (.errorRecovery (.part_cable (.wr (.wr (.openSource (.edits
    Within.refl.bump.cblFlag.hfault.cableEvent.leaveShare.clearContract [.seq, .cable]))))))) (.passCurrent
    (.plainWindow (.edits Within.refl.bump.cblFlag.hfault.cableEvent.leaveShare.clearContract [.seq, .cable])))))

theorem Within.unmarked (h : Within sc m0 m) (hs : Touch.covers sc (Touch.unmarked) := by decide +kernel) : Within
    sc m0 m.unmarked :=
  h.andThen hs Within.refl.wr.wr.wr.wr

theorem Within.cblPrSwap (h : Within sc m0 m) (hs : Touch.covers sc (parts [.cable]) := by decide +kernel) : Within
    sc m0 m.cblPrSwap := by
  refine h.andThen hs ?_
  unfold Hw.cblPrSwap
  exact (.ite Within.refl.part_cable Within.refl)

theorem Within.typeCOnly (h : Within sc m0 m) (hs : Touch.covers sc (Touch.hostFault ++ parts [.cable, .intake,
    .latches] ++ regs [Reg.CBL_CONTRACT_VOLT, Reg.CBL_CONTRACT_CURR, Reg.CBL_CONTRACT_TYPE, Reg.CBL_CONTRACT_ROLE,
    Reg.INTAKE_LIM_EFF_LIM, Reg.INTAKE_LIM_EFF_CAUSE]) := by decide +kernel) : Within sc m0 m.typeCOnly := by
  refine h.andThen hs ?_
  unfold Hw.typeCOnly
  exact Within.refl.wr.wr.wr.wr.part_cable.passCurrent

theorem Within.cblFsEnter (h : Within sc m0 m) (hs : Touch.covers sc (parts [.cable]) := by decide +kernel) : Within
    sc m0 m.cblFsEnter :=
  h.andThen hs Within.refl.part_cable

theorem Within.budgetTick (h : Within sc m0 m) {f} (hs : Touch.covers sc (Touch.issuing ++ parts [.cable,
    .linkField]) := by decide +kernel) : Within sc m0 (m.budgetTick f) := by
  refine h.andThen hs ?_
  unfold Hw.budgetTick
  exact Within.refl.part_cable.sendF

theorem Within.reserveTick (h : Within sc m0 m) {f} (hs : Touch.covers sc (parts [.cable, .faultInput] ++ regs
    [Reg.FLT_STATUS_LOST]) := by decide +kernel) : Within sc m0 (m.reserveTick f) := by
  refine h.andThen hs ?_
  unfold Hw.reserveTick
  exact (.ite Within.refl.part_cable.part_cable.fault Within.refl.part_cable.part_cable)

theorem Within.windowTick2 (h : Within sc m0 m) (hs : Touch.covers sc (parts [.cable]) := by decide +kernel) :
    Within sc m0 m.windowTick2 := by
  refine h.andThen hs ?_
  unfold Hw.windowTick2
  exact (by
    split
    · exact (.ite Within.refl.contractWindow Within.refl)
    · exact Within.refl)

theorem Within.debugTick (h : Within sc m0 m) (hs : Touch.covers sc (Touch.contractGone ++ Touch.hostFault ++
    Touch.unmarked ++ parts [.latches, .intake, .xfer, .linkHost, .mailbox, .seq] ++ regs [Reg.INTAKE_STATUS_ACTIVE,
    Reg.INTAKE_STATUS_SRC_CHANGE, Reg.INTAKE_EVENTS_SWITCHOVERS, Reg.INTAKE_LIM_EFF_LIM, Reg.INTAKE_LIM_EFF_CAUSE,
    Reg.INTAKE_STATUS_RAMP, Reg.CBL_STATUS_FS_MODE, Reg.CBL_STATUS_VCONN, Reg.CBL_STATUS_DFP, Reg.CBL_STATUS_RP,
    Reg.CBL_PARTNER_REV, Reg.CBL_PARTNER_DRP, Reg.CBL_PARTNER_EPR_CAP, Reg.CBL_PARTNER_FRS_REQ,
    Reg.CBL_STATUS_STATE, Reg.CBL_STATUS_ATTACH_CHG, Reg.CBL_STATUS_SRC_PERMIT, Reg.CBL_STATUS_DEBUG_DENIED])
    := by decide +kernel) : Within sc m0 m.debugTick := by
  refine h.andThen hs ?_
  unfold Hw.debugTick
  exact (.ite Within.refl.detach.cblFlag.hfault Within.refl)

theorem Within.cableTick (h : Within sc m0 m) (hs : Touch.covers sc (Touch.contractGone ++ Touch.hostFault ++
    Touch.unmarked ++ parts [.latches, .intake, .xfer, .linkHost, .mailbox, .seq] ++ regs [Reg.CBL_OFFER_C_AGE,
    Reg.INTAKE_STATUS_ACTIVE, Reg.INTAKE_STATUS_SRC_CHANGE, Reg.INTAKE_EVENTS_SWITCHOVERS, Reg.INTAKE_LIM_EFF_LIM,
    Reg.INTAKE_LIM_EFF_CAUSE, Reg.INTAKE_STATUS_RAMP, Reg.CBL_STATUS_FS_MODE, Reg.CBL_STATUS_VCONN,
    Reg.CBL_STATUS_DFP, Reg.CBL_STATUS_RP, Reg.CBL_PARTNER_REV, Reg.CBL_PARTNER_DRP, Reg.CBL_PARTNER_EPR_CAP,
    Reg.CBL_PARTNER_FRS_REQ, Reg.CBL_STATUS_STATE, Reg.CBL_STATUS_ATTACH_CHG, Reg.CBL_STATUS_SRC_PERMIT,
    Reg.CBL_STATUS_DEBUG_DENIED]) := by decide +kernel) : Within sc m0 m.cableTick :=
  h.andThen hs Within.refl.bump.windowTick2.debugTick.part_cable.portFlags

theorem Within.fieldSleeps (h : Within sc m0 m) (hs : Touch.covers sc (parts [.hwdg, .alertPad, .cable,
    .fieldAsleep, .linkHost, .mailbox] ++ regs [Reg.HP_STATUS_DOZE, Reg.ALERT_SRC_SRC, Reg.TL_H_STATUS_STATE,
    Reg.ID_STATUS_LINK, Reg.ID_STATUS_FIELD_READY, Reg.CBL_STATUS_FS_MODE, Reg.CBL_STATUS_SRC_PERMIT,
    Reg.CBL_STATUS_FRS_ARMED]) := by decide +kernel) : Within sc m0 m.fieldSleeps := by
  refine h.andThen hs ?_
  unfold Hw.fieldSleeps
  exact (.portFlags (.leaveShare (.edits (.wr (.wr (.wr (.ite Within.refl.hcoreWake.alertSet Within.refl.hcoreWake))))
    [.cable, .fieldAsleep])))

theorem Within.sendTwin (h : Within sc m0 m) {type payload m'} (he : m.sendTwin type payload = some m')
    (hs : Touch.covers sc (Touch.issuing ++ parts [.twin]) := by decide +kernel) :
    Within sc m0 m' := by
  refine h.andThen hs ?_
  unfold Hw.sendTwin at he
  extract_lets put at he
  split at he
  · cases he
  · split at he
    · split at he
      · next m1 n hi =>
        obtain rfl := Option.some.inj he
        exact (Within.refl.issue hi).setTicket.part_twin
      · cases he
    · obtain rfl := Option.some.inj he
      exact Within.refl.part_twin

theorem Within.trySendTwin (h : Within sc m0 m) {type payload} (hs : Touch.covers sc (Touch.issuing ++ parts
    [.twin]) := by decide +kernel) : Within sc m0 (m.trySendTwin type payload) := by
  refine h.andThen hs ?_
  unfold Hw.trySendTwin
  exact (.getD (fun _ he1 => (Within.refl.sendTwin he1)) Within.refl)

theorem Within.meter (h : Within sc m0 m) (hs : Touch.covers sc (parts [.journal, .faultInput] ++ regs
    [Reg.JRN_ALLOW_ALLOW, Reg.JRN_STATUS_HOLD_BAT, Reg.JRN_STATUS_CHOLD_OK, Reg.FLT_STATUS_LOST])
    := by decide +kernel) : Within sc m0 m.meter := by
  refine h.andThen hs ?_
  unfold Hw.meter
  exact (.ite Within.refl.wrSat.wrB.wrB.part_jrn (.ite Within.refl.wrSat.wrB.wrB
    Within.refl.wrSat.wrB.wrB.part_jrn.fault))

theorem Within.hash (h : Within sc m0 m) (hs : Touch.covers sc (parts [.journal]) := by decide +kernel) : Within sc
    m0 m.hash := by
  refine h.andThen hs ?_
  unfold Hw.hash
  exact (.ite Within.refl Within.refl.part_jrn)

theorem Within.stage (h : Within sc m0 m) {r tkt durable} (hs : Touch.covers sc (parts [.journal, .tickets] ++ regs
    [Reg.JRN_STAGE_STAGED, Reg.TKT_STATUS_INFLIGHT, Reg.TKT_STATUS_HWM, Reg.TKT_STATUS_FULL, Reg.TKT_STATUS_HELD,
    Reg.TKT_STATUS_HELD_STREAM]) := by decide +kernel) : Within sc m0 (m.stage r tkt durable) := by
  refine h.andThen hs ?_
  unfold Hw.stage
  exact (.hash (by
    split
    · exact Within.refl.wrSat.part_jrn.setTicket
    · exact Within.refl.wrSat.part_jrn))

theorem Within.noteAccepted (h : Within sc m0 m) {r} (hs : Touch.covers sc (parts [.history, .rails, .journal])
    := by decide +kernel) : Within sc m0 (m.noteAccepted r) := by
  refine h.andThen hs ?_
  unfold Hw.noteAccepted
  refine .ite ?_ (.ite (.edits Within.refl [.rails, .journal]) (.ite Within.refl.part_jrn (.ite Within.refl.part_jrn
    Within.refl)))
  extract_lets
  split
  · exact Within.refl.flt_hist fun hl => by rwa [List.length_set]
  · exact Within.refl

theorem Within.takeJsn (h : Within sc m0 m) (hs : Touch.covers sc (regs [Reg.JRN_NEXT_JSN, Reg.JRN_STATUS_SEALING])
    := by decide +kernel) : Within sc m0 m.takeJsn := by
  refine h.andThen hs ?_
  unfold Hw.takeJsn
  exact (.ite Within.refl.wr.wr.wr Within.refl.wr)

theorem Within.accept (h : Within sc m0 m) {r tkt durable} (hs : Touch.covers sc (parts [.journal, .tickets,
    .history, .rails] ++ regs [Reg.JRN_NEXT_JSN, Reg.JRN_STATUS_SEALING, Reg.JRN_STAGE_STAGED,
    Reg.TKT_STATUS_INFLIGHT, Reg.TKT_STATUS_HWM, Reg.TKT_STATUS_FULL, Reg.TKT_STATUS_HELD,
    Reg.TKT_STATUS_HELD_STREAM]) := by decide +kernel) : Within sc m0 (m.accept r tkt durable) :=
  h.andThen hs Within.refl.takeJsn.stage.noteAccepted

theorem Within.showNand (h : Within sc m0 m) (hs : Touch.covers sc (Touch.nandShown) := by decide +kernel) : Within
    sc m0 m.showNand := by
  refine h.andThen hs ?_
  unfold Hw.showNand
  exact Within.refl.wr.wr.wr.wr.wr.wr

theorem Within.setBlock (h : Within sc m0 m) {b} (hs : Touch.covers sc (Touch.nandShown ++ parts [.nand])
    := by decide +kernel) : Within sc m0 (m.setBlock b) :=
  h.andThen hs Within.refl.jrn_blocks.showNand

theorem Within.program (h : Within sc m0 m) {ring reloc recs} (hs : Touch.covers sc (Touch.nandShown ++ parts
    [.nand, .journal]) := by decide +kernel) : Within sc m0 (m.program ring reloc recs) := by
  refine h.andThen hs ?_
  unfold Hw.program
  exact (.ite Within.refl (by
    split
    · exact Within.refl.setBlock.part_jrn
    · exact Within.refl))

theorem Within.enterDirectory (h : Within sc m0 m) {n} (hs : Touch.covers sc (parts [.journal])
    := by decide +kernel) : Within sc m0 (m.enterDirectory n) :=
  h.andThen hs Within.refl.part_jrn

theorem Within.relocatePage (h : Within sc m0 m) {n p} (hs : Touch.covers sc (Touch.nandShown ++ parts [.nand,
    .journal]) := by decide +kernel) : Within sc m0 (Hw.relocatePage n m p) := by
  refine h.andThen hs ?_
  unfold Hw.relocatePage
  exact (.ite Within.refl Within.refl.program.setBlock)

theorem Within.relocate (h : Within sc m0 m) {n bad} (hs : Touch.covers sc (Touch.nandShown ++ parts [.nand,
    .journal]) := by decide +kernel) : Within sc m0 (m.relocate n bad) := by
  refine h.andThen hs ?_
  unfold Hw.relocate
  exact (.foldl Within.refl.setBlock.part_jrn fun _ _ h3 => h3.relocatePage)

theorem Within.scrubTick (h : Within sc m0 m) (hs : Touch.covers sc (Touch.nandShown ++ parts [.journal, .nand])
    := by decide +kernel) : Within sc m0 m.scrubTick := by
  refine h.andThen hs ?_
  unfold Hw.scrubTick
  exact (.ite (.foldl Within.refl.part_jrn fun _ _ h1 => h1.relocate) Within.refl)

theorem Within.closePage (h : Within sc m0 m) (hs : Touch.covers sc (parts [.journal]) := by decide +kernel) :
    Within sc m0 m.closePage := by
  refine h.andThen hs ?_
  unfold Hw.closePage
  exact (.ite Within.refl Within.refl.part_jrn)

theorem Within.settleWork (h : Within sc m0 m) (hs : Touch.covers sc (Touch.issuing ++ parts [.work, .adc, .bus,
    .waits, .sub]) := by decide +kernel) : Within sc m0 m.settleWork := by
  refine h.andThen hs ?_
  unfold Hw.settleWork
  exact (.foldl Within.refl.host_work fun _ _ h2 => (.ite h2 h2.dropTicket))

theorem Within.commitPage (h : Within sc m0 m) (hs : Touch.covers sc (Touch.committing) := by decide +kernel) :
    Within sc m0 m.commitPage := by
  refine h.andThen hs ?_
  unfold Hw.commitPage
  exact (by
    split
    · exact Within.refl
    · exact (.hash (.showNand (.settleWork (.foldl (.ite (.part_jrn (.foldl (by
        split
        · exact (.wr (.edits Within.refl.program.program [.partFaults, .journal]))
        · exact (.part_jrn (.wr (.wr (.edits Within.refl.program.program [.partFaults, .journal]))))) fun _ _ h6 =>
          (.ite h6.wr h6))) (.foldl (by
        split
        · exact (.wr (.edits Within.refl.program.program [.partFaults, .journal]))
        · exact (.part_jrn (.wr (.wr (.edits Within.refl.program.program [.partFaults, .journal]))))) fun _ _ h6 =>
          (.ite h6.wr h6))) fun _ _ h8 => (by
        split
        · exact h8.dropTicket
        · exact h8))))))

theorem Within.critFull (h : Within sc m0 m) (hs : Touch.covers sc (parts [.journal, .faultInput] ++ regs
    [Reg.FLT_STATUS_LOST]) := by decide +kernel) : Within sc m0 m.critFull := by
  refine h.andThen hs ?_
  unfold Hw.critFull
  exact (.ite Within.refl Within.refl.part_jrn.fault)

theorem Within.commitAll (h : Within sc m0 m) {x1} (hs : Touch.covers sc (Touch.committing) := by decide +kernel) :
    Within sc m0 (m.commitAll x1) := by
  refine h.andThen hs ?_
  clear h hs
  induction x1 generalizing m with
  | zero =>
    rw [Hw.commitAll]
    exact Within.refl
  | succ x1 ih =>
    rw [Hw.commitAll]
    exact (.ite (.trans (.commitPage (.ite Within.refl.closePage Within.refl)) (ih ..)) (.ite Within.refl.closePage
      Within.refl))

theorem Within.pend (h : Within sc m0 m) {r} (hs : Touch.covers sc (parts [.twin, .faultInput] ++ regs
    [Reg.TWN_PEND_BYTES, Reg.TWN_PEND_LOST, Reg.FLT_STATUS_LOST]) := by decide +kernel) : Within sc m0 (m.pend r) := by
  refine h.andThen hs ?_
  unfold Hw.pend
  exact (.ite Within.refl.part_twin.wr (.ite Within.refl.part_twin.bump Within.refl.part_twin.bump.fault))

theorem Within.popSub (h : Within sc m0 m) (hs : Touch.covers sc (parts [.sub]) := by decide +kernel) : Within sc m0
    m.popSub :=
  h.andThen hs Within.refl.part_sub

theorem Within.endAppend (h : Within sc m0 m) {x} (hs : Touch.covers sc (Touch.issuing ++ parts [.adc, .bus, .waits,
    .sub]) := by decide +kernel) : Within sc m0 (m.endAppend x) := by
  refine h.andThen hs ?_
  unfold Hw.endAppend
  exact (by
    split
    · exact Within.refl.dropTicket
    · exact Within.refl)

theorem Within.holdAppend (h : Within sc m0 m) (hs : Touch.covers sc (parts [.journal] ++ regs
    [Reg.JRN_REFUSED_WAITS]) := by decide +kernel) : Within sc m0 m.holdAppend := by
  refine h.andThen hs ?_
  unfold Hw.holdAppend
  exact (.ite Within.refl Within.refl.part_jrn.bump)

theorem Within.append (h : Within sc m0 m) (hs : Touch.covers sc (Touch.appending) := by decide +kernel) : Within sc
    m0 m.append := by
  refine h.andThen hs ?_
  unfold Hw.append
  exact (by
    split
    · exact Within.refl
    · exact (.ite Within.refl (.ite Within.refl.holdAppend (.ite Within.refl.holdAppend (.ite
      Within.refl.pend.popSub.endAppend (.ite (by
        split
        · exact Within.refl
        · next m1 he1 => exact (Within.refl.sendTwin he1).part_twin.popSub) (.ite Within.refl.bump.popSub.endAppend
          (.ite Within.refl.holdAppend.critFull (.ite Within.refl.holdAppend (.ite (.ite Within.refl.part_jrn (by
        extract_lets
        split
        · exact Within.refl.part_jrn
        · next m2 he2 => exact (Within.refl.part_jrn.sendTwin he2).takeJsn.wrSat.part_twin.popSub))
          Within.refl.part_jrn.popSub.accept))))))))))

theorem Within.progFail (h : Within sc m0 m) (hs : Touch.covers sc (Touch.committing ++ parts [.faultInput] ++ regs
    [Reg.JRN_EVENTS_PROG_FAIL, Reg.JRN_STATUS_MEDIA_EVT, Reg.FLT_STATUS_LOST]) := by decide +kernel) : Within sc m0
    m.progFail := by
  refine h.andThen hs ?_
  unfold Hw.progFail
  exact (by
    split
    · exact (.relocate (.ite Within.refl.bump.wr.fault.part_jrn.setBlock.enterDirectory.part_jrn.commitPage
      Within.refl.bump.wr.fault.part_jrn.setBlock.enterDirectory.part_jrn))
    · exact Within.refl)

theorem Within.replaceRing (h : Within sc m0 m) {n g} (hs : Touch.covers sc (Touch.nandShown ++ parts [.nand,
    .journal]) := by decide +kernel) : Within sc m0 (m.replaceRing n g) := by
  refine h.andThen hs ?_
  unfold Hw.replaceRing
  exact Within.refl.setBlock.setBlock.enterDirectory

theorem Within.ringFail (h : Within sc m0 m) (hs : Touch.covers sc (Touch.committing ++ parts [.faultInput] ++ regs
    [Reg.JRN_EVENTS_PROG_FAIL, Reg.JRN_STATUS_MEDIA_EVT, Reg.FLT_STATUS_LOST]) := by decide +kernel) : Within sc m0
    m.ringFail := by
  refine h.andThen hs ?_
  unfold Hw.ringFail
  exact (by
    split
    · exact (.foldl (.ite Within.refl.bump.wr.fault.part_jrn.replaceRing.commitPage
      Within.refl.bump.wr.fault.part_jrn.replaceRing) fun _ _ h5 => h5.program)
    · exact Within.refl)

theorem Within.buildSeal (h : Within sc m0 m) {status} (hs : Touch.covers sc (Touch.issuing ++ parts [.journal,
    .twin, .faultInput] ++ regs [Reg.JRN_STATUS_SEALING, Reg.JRN_STAGE_STAGED, Reg.FLT_STATUS_LOST])
    := by decide +kernel) : Within sc m0 (m.buildSeal status) := by
  refine h.andThen hs ?_
  unfold Hw.buildSeal
  exact (.ite (.ite (.stage (.ite Within.refl.wr.part_jrn.trySendTwin Within.refl.wr.part_jrn)) (.ite
    Within.refl.part_jrn.fault Within.refl.part_jrn)) Within.refl)

theorem Within.putSummary (h : Within sc m0 m) {payload} (hs : Touch.covers sc (Touch.issuing ++ parts [.journal,
    .sub]) := by decide +kernel) : Within sc m0 (m.putSummary payload) := by
  refine h.andThen hs ?_
  unfold Hw.putSummary
  exact (.ite Within.refl.part_jrn.record Within.refl.part_jrn.part_jrn)

theorem Within.submitSeconds (h : Within sc m0 m) (hs : Touch.covers sc (Touch.issuing ++ parts [.journal, .sub])
    := by decide +kernel) : Within sc m0 m.submitSeconds := by
  refine h.andThen hs ?_
  unfold Hw.submitSeconds
  exact (.foldl Within.refl.part_jrn fun _ _ h1 => h1.submitRec)

theorem Within.oscFail (h : Within sc m0 m) (hs : Touch.covers sc (parts [.faultInput] ++ regs
    [Reg.RTC_STATUS_OSC_FAIL, Reg.RTC_STATUS_VALID, Reg.RTC_STATUS_DISCIPLINED, Reg.FLT_STATUS_LOST])
    := by decide +kernel) : Within sc m0 m.oscFail :=
  h.andThen hs Within.refl.wr.wr.wr.fault

theorem Within.setWork (h : Within sc m0 m) {c} (hs : Touch.covers sc (parts [.work]) := by decide +kernel) : Within
    sc m0 (m.setWork c) :=
  h.andThen hs Within.refl.host_work

theorem Within.advanceN (h : Within sc m0 m) {c} (hs : Touch.covers sc (parts [.stream7] ++ arrays [Reg.HOST_SEQ_N])
    := by decide +kernel) : Within sc m0 (m.advanceN c) := by
  refine h.andThen hs ?_
  unfold Hw.advanceN
  exact (.ite Within.refl.host_n7 (Within.refl.wrAt Reg.HOST_SEQ_N_even))

theorem Within.showMailbox (h : Within sc m0 m) (hs : Touch.covers sc (regs [Reg.MBX_STATUS_RESULTS,
    Reg.MBX_STATUS_PLACES, Reg.MBX_STATUS_FULL, Reg.MBX_RES_INFO_STREAM, Reg.MBX_RES_INFO_LEN])
    := by decide +kernel) : Within sc m0 m.showMailbox := by
  refine h.andThen hs ?_
  unfold Hw.showMailbox
  exact (by
    extract_lets
    split
    · exact Within.refl.wr.wr.wr.wr.wr
    · exact Within.refl.wr.wr.wr.wr.wr)

theorem Within.showResult (h : Within sc m0 m) (hs : Touch.covers sc (arrays [Reg.MBX_RES_RESULT])
    := by decide +kernel) : Within sc m0 m.showResult := by
  refine h.andThen hs ?_
  unfold Hw.showResult
  exact (.foldl Within.refl fun _ _ h1 => (h1.wrAt Reg.MBX_RES_RESULT_even))

theorem Within.postResult (h : Within sc m0 m) {stream seq bytes} (hs : Touch.covers sc (parts [.mailbox, .alertPad]
    ++ regs [Reg.MBX_EVENTS_VOIDS, Reg.MBX_STATUS_RESULTS, Reg.MBX_STATUS_PLACES, Reg.MBX_STATUS_FULL,
    Reg.MBX_RES_INFO_STREAM, Reg.MBX_RES_INFO_LEN, Reg.ALERT_SRC_SRC] ++ arrays [Reg.MBX_RES_RESULT])
    := by decide +kernel) : Within sc m0 (m.postResult stream seq bytes) := by
  refine h.andThen hs ?_
  unfold Hw.postResult
  exact (.ite (.alertSet (.showResult (.showMailbox (.ite Within.refl.host_mbx.bump Within.refl.host_mbx))))
    Within.refl)

theorem Within.sendAnswer (h : Within sc m0 m) {c} (hs : Touch.covers sc (Touch.issuing ++ parts [.stream7,
    .mailbox, .alertPad, .linkField] ++ regs [Reg.MBX_EVENTS_VOIDS, Reg.MBX_STATUS_RESULTS, Reg.MBX_STATUS_PLACES,
    Reg.MBX_STATUS_FULL, Reg.MBX_RES_INFO_STREAM, Reg.MBX_RES_INFO_LEN, Reg.ALERT_SRC_SRC] ++ arrays
    [Reg.HOST_SEQ_N, Reg.MBX_RES_RESULT]) := by decide +kernel) : Within sc m0 (m.sendAnswer c) := by
  refine h.andThen hs ?_
  unfold Hw.sendAnswer
  exact (.ite (.postResult (.ite Within.refl Within.refl.advanceN)) (.sendF (.ite Within.refl Within.refl.advanceN)))

theorem Within.flushAnswers (h : Within sc m0 m) {n} (hs : Touch.covers sc (Touch.issuing ++ parts [.work, .stream7,
    .mailbox, .alertPad, .linkField, .adc, .bus, .waits, .sub] ++ regs [Reg.MBX_EVENTS_VOIDS,
    Reg.MBX_STATUS_RESULTS, Reg.MBX_STATUS_PLACES, Reg.MBX_STATUS_FULL, Reg.MBX_RES_INFO_STREAM,
    Reg.MBX_RES_INFO_LEN, Reg.ALERT_SRC_SRC] ++ arrays [Reg.HOST_SEQ_N, Reg.MBX_RES_RESULT]) := by decide +kernel) :
    Within sc m0 (m.flushAnswers n) := by
  refine h.andThen hs ?_
  unfold Hw.flushAnswers
  exact (.settleWork (.foldl Within.refl.host_work fun _ _ h2 => h2.sendAnswer))

theorem Within.answerCmd (h : Within sc m0 m) {c a} (hs : Touch.covers sc (Touch.answering) := by decide +kernel) :
    Within sc m0 (m.answerCmd c a) := by
  refine h.andThen hs ?_
  unfold Hw.answerCmd
  exact (.flushAnswers (.ite (.ite Within.refl.setWork.host_cache Within.refl.setWork) (.setTicket (.ite
    Within.refl.setWork.host_cache Within.refl.setWork))))

theorem Within.refuseCmd (h : Within sc m0 m) {c a} (hs : Touch.covers sc (Touch.answering) := by decide +kernel) :
    Within sc m0 (m.refuseCmd c a) := by
  refine h.andThen hs ?_
  unfold Hw.refuseCmd
  exact (.answerCmd (.ite Within.refl.submitRec Within.refl))

theorem Within.validated (h : Within sc m0 m) {c} (hs : Touch.covers sc (parts [.work, .tickets] ++ regs
    [Reg.TKT_STATUS_INFLIGHT, Reg.TKT_STATUS_HWM, Reg.TKT_STATUS_FULL, Reg.TKT_STATUS_HELD,
    Reg.TKT_STATUS_HELD_STREAM]) := by decide +kernel) : Within sc m0 (m.validated c) := by
  refine h.andThen hs ?_
  unfold Hw.validated
  exact (.ite Within.refl.setWork.setTicket Within.refl.setWork)

theorem Within.runCmd (h : Within sc m0 m) {s code check act}
    (ha : ∀ m c, Within sc m0 m → Within sc m0 (act m c).1)
    (hs : Touch.covers sc Touch.answering := by decide +kernel) : Within sc m0 (m.runCmd s code check act) := by
  unfold Hw.runCmd
  split
  · exact h
  · refine .ite h ?_
    split
    · exact h.andThen hs Within.refl.refuseCmd
    · exact .ite (h.andThen hs Within.refl.validated) ((ha _ _ h).andThen hs Within.refl.answerCmd)

theorem Within.innerDone (h : Within sc m0 m) {n a} (hs : Touch.covers sc (Touch.answering) := by decide +kernel) :
    Within sc m0 (m.innerDone n a) := by
  refine h.andThen hs ?_
  unfold Hw.innerDone
  exact (by
    split
    · exact Within.refl.answerCmd
    · exact Within.refl)

theorem Within.sideAnswer (h : Within sc m0 m) {seq cmd status data} (hs : Touch.covers sc (Touch.issuing ++ parts
    [.linkField]) := by decide +kernel) : Within sc m0 (m.sideAnswer seq cmd status data) :=
  h.andThen hs Within.refl.sendF

theorem Within.enterCmd (h : Within sc m0 m) {c} (hs : Touch.covers sc (Touch.answering) := by decide +kernel) :
    Within sc m0 (m.enterCmd c) := by
  refine h.andThen hs ?_
  unfold Hw.enterCmd
  exact (.ite Within.refl.host_work Within.refl.host_work.answerCmd)

theorem Within.bySequence (h : Within sc m0 m) {c} {take : Hw → HostCmd → Hw} {out : Hw → Nat → List Byte → Hw}
    (ht : ∀ m c, Within sc m0 m → Within sc m0 (take m c))
    (ho : ∀ m n bs, Within sc m0 m → Within sc m0 (out m n bs))
    (hs : Touch.covers sc (Touch.answering ++ regs [Reg.HOST_RESEND_ABSORBED, Reg.HOST_RESEND_GAPS,
      Reg.HOST_RESEND_STALE]) := by decide +kernel) : Within sc m0 (m.bySequence c take out) := by
  have hgap : Within sc m0 (m.bump Reg.HOST_RESEND_GAPS) := h.andThen hs Within.refl.bump
  have hstale : Within sc m0 (m.bump Reg.HOST_RESEND_STALE) := h.andThen hs Within.refl.bump
  unfold Hw.bySequence
  refine .ite (h.andThen hs Within.refl.bump) (.ite (ht _ _ h) (.ite (ho _ _ _ hgap) (.ite (ho _ _ _ hstale) ?_)))
  split
  · exact .ite (h.andThen hs Within.refl.postResult) (h.andThen hs Within.refl.sendF)
  · exact .ite (ho _ _ _ hstale) (ht _ _ h)

theorem Within.ticketCmd (h : Within sc m0 m) {c m'} (he : m.ticketCmd c = some m')
    (hs : Touch.covers sc Touch.answering := by decide +kernel) : Within sc m0 m' := by
  refine h.andThen hs ?_
  unfold Hw.ticketCmd at he
  split at he
  · next hi =>
    obtain rfl := Option.some.inj he
    exact (Within.refl.issue hi).enterCmd
  · cases he

theorem Within.takeCmd (h : Within sc m0 m) {x rest} (hs : Touch.covers sc (Touch.answering ++ parts [.modes,
    .faultInput] ++ regs [Reg.FLT_STATUS_LOST, Reg.HOST_RESEND_ABSORBED, Reg.HOST_RESEND_GAPS,
    Reg.HOST_RESEND_STALE]) := by decide +kernel) : Within sc m0 (m.takeCmd x rest) := by
  refine h.andThen hs ?_
  unfold Hw.takeCmd
  exact (.ite (.sideAnswer (.fault (.edits Within.refl [.linkField, .modes]))) (.bySequence (.edits Within.refl
    [.linkField, .modes]) (fun _ _ h2 => (.getD (fun _ he3 => (h2.ticketCmd he3)) Within.refl)) (fun _ _ _ h2 =>
    h2.sideAnswer)))

theorem Within.failTicket (h : Within sc m0 m) {n} (hs : Touch.covers sc (parts [.tickets, .faultInput] ++ regs
    [Reg.TKT_STATUS_INFLIGHT, Reg.TKT_STATUS_HWM, Reg.TKT_STATUS_FULL, Reg.TKT_STATUS_HELD,
    Reg.TKT_STATUS_HELD_STREAM, Reg.TKT_EVENTS_REPLAYS, Reg.FLT_STATUS_LOST, Reg.TKT_EVENTS_FAILED])
    := by decide +kernel) : Within sc m0 (m.failTicket n) := by
  refine h.andThen hs ?_
  unfold Hw.failTicket
  exact (by
    split
    · exact Within.refl
    · exact (.ite Within.refl.setTicket.bump (.ite (.ite Within.refl Within.refl.setTicket.faultAt)
      Within.refl.setTicket.bump.faultAt)))

theorem Within.voidTickets (h : Within sc m0 m) {p} (hs : Touch.covers sc (parts [.tickets] ++ regs
    [Reg.TKT_EVENTS_VOIDED, Reg.TKT_STATUS_INFLIGHT, Reg.TKT_STATUS_HWM, Reg.TKT_STATUS_FULL, Reg.TKT_STATUS_HELD,
    Reg.TKT_STATUS_HELD_STREAM]) := by decide +kernel) : Within sc m0 (m.voidTickets p).1 := by
  refine h.andThen hs ?_
  exact (Within.refl.tkt_sublist (nums_map _ fun t => by split <;> rfl)).add.showTickets

theorem Within.endBus (h : Within sc m0 m) {x a} (hs : Touch.covers sc (Touch.answering ++ parts [.chg])
    := by decide +kernel) : Within sc m0 (m.endBus x a) := by
  refine h.andThen hs ?_
  unfold Hw.endBus
  exact (.ite Within.refl.part_bus.dropTicket.innerDone.packReadDone Within.refl.part_bus.dropTicket.innerDone)

theorem Within.settleBus (h : Within sc m0 m) (hs : Touch.covers sc (Touch.answering ++ parts [.chg])
    := by decide +kernel) : Within sc m0 m.settleBus := by
  refine h.andThen hs ?_
  unfold Hw.settleBus
  exact (.foldl Within.refl fun _ _ h1 => h1.endBus)

theorem Within.showHist (h : Within sc m0 m) (hs : Touch.covers sc (regs [Reg.FLT_STATUS_LEVEL, Reg.FLT_STATUS_OPEN,
    Reg.FLT_STATUS_DEGRADED]) := by decide +kernel) : Within sc m0 m.showHist :=
  h.andThen hs Within.refl.wr.wr.wrB

theorem Within.closeEntries (h : Within sc m0 m) {p} (hs : Touch.covers sc (Touch.entriesClosed)
    := by decide +kernel) : Within sc m0 (m.closeEntries p) := by
  refine h.andThen hs ?_
  exact (Within.refl.flt_hist fun hl => by rwa [List.length_map]).showHist

theorem Within.closePart (h : Within sc m0 m) {src} (hs : Touch.covers sc (parts [.partFaults])
    := by decide +kernel) : Within sc m0 (m.closePart src) :=
  h.andThen hs Within.refl.flt_parts

theorem Within.setSlice (h : Within sc m0 m) {i x} (hs : Touch.covers sc (parts [.adc]) := by decide +kernel) :
    Within sc m0 (m.setSlice i x) :=
  h.andThen hs Within.refl.part_adc

theorem Within.codeOf (h : Within sc m0 m) {tag v} (hs : Touch.covers sc (parts [.freeCtr]) := by decide +kernel) :
    Within sc m0 (m.codeOf tag v).2 := by
  refine h.andThen hs ?_
  unfold Hw.codeOf
  exact (.ite_snd Within.refl Within.refl.drew)

theorem Within.overranged (h : Within sc m0 m) {tag} (hs : Touch.covers sc (parts [.adc, .faultInput] ++ regs
    [Reg.ADC_EVENTS_OVR, Reg.FLT_STATUS_LOST]) := by decide +kernel) : Within sc m0 (m.overranged tag) := by
  refine h.andThen hs ?_
  unfold Hw.overranged
  exact (.ite Within.refl.bump.part_adc Within.refl.bump.part_adc.fault)

theorem Within.afterRun (h : Within sc m0 m) {tag n x} (hs : Touch.covers sc (parts [.adc, .faultInput] ++ regs
    [Reg.ADC_EVENTS_OVR, Reg.FLT_STATUS_LOST]) := by decide +kernel) : Within sc m0 (m.afterRun tag n x) := by
  refine h.andThen hs ?_
  unfold Hw.afterRun
  exact (.ite Within.refl.setSlice Within.refl.setSlice.overranged)

theorem Within.showLast (h : Within sc m0 m) {e} (hs : Touch.covers sc (arrays [Reg.ADC_LAST_VALUE,
    Reg.ADC_LAST_FLAGS]) := by decide +kernel) : Within sc m0 (m.showLast e) :=
  h.andThen hs ((Within.refl.wrAt Reg.ADC_LAST_VALUE_even).wrAt Reg.ADC_LAST_FLAGS_even)

theorem Within.showQueue (h : Within sc m0 m) (hs : Touch.covers sc (regs [Reg.ADC_Q_LEVEL, Reg.ADC_Q_HWM,
    Reg.ADC_Q_FRN_FRN]) := by decide +kernel) : Within sc m0 m.showQueue :=
  h.andThen hs Within.refl.wr.wr.wr

theorem Within.entryOf (h : Within sc m0 m) {tag n x injected host tkt} (hs : Touch.covers sc (Touch.entryOpens)
    := by decide +kernel) : Within sc m0 (m.entryOf tag n x injected host tkt).2 := by
  refine h.andThen hs ?_
  unfold Hw.entryOf
  exact Within.refl.codeOf.afterRun.showLast

theorem Within.sendAdc (h : Within sc m0 m) {x1} (hs : Touch.covers sc (Touch.issuing ++ parts [.linkField, .adc])
    := by decide +kernel) : Within sc m0 (m.sendAdc x1) := by
  refine h.andThen hs ?_
  clear h hs
  induction x1 generalizing m with
  | zero =>
    rw [Hw.sendAdc]
    exact Within.refl
  | succ x1 ih =>
    rw [Hw.sendAdc]
    exact (by
      split
      · exact Within.refl
      · exact (.trans Within.refl.sendF.part_adc (ih ..)))

theorem Within.resendAdc (h : Within sc m0 m) (hs : Touch.covers sc (parts [.adc]) := by decide +kernel) : Within sc
    m0 m.resendAdc :=
  h.andThen hs Within.refl.part_adc

theorem Within.dropInjected (h : Within sc m0 m) (hs : Touch.covers sc (Touch.delivering) := by decide +kernel) :
    Within sc m0 m.dropInjected :=
  h.andThen hs Within.refl.part_adc.showQueue

theorem Within.sendAdcThaw (h : Within sc m0 m) (hs : Touch.covers sc (Touch.issuing ++ parts [.linkField, .adc])
    := by decide +kernel) : Within sc m0 m.sendAdcThaw := by
  refine h.andThen hs ?_
  unfold Hw.sendAdcThaw
  exact (.ite Within.refl Within.refl.sendAdc)

theorem Within.enqueue (h : Within sc m0 m) {e} (hs : Touch.covers sc (Touch.delivering) := by decide +kernel) :
    Within sc m0 (m.enqueue e) := by
  refine h.andThen hs ?_
  unfold Hw.enqueue
  exact (.ite Within.refl.part_adc.showQueue Within.refl.part_adc.showQueue.part_adc.showQueue)

theorem Within.deliver (h : Within sc m0 m) (hs : Touch.covers sc (Touch.delivering) := by decide +kernel) : Within
    sc m0 m.deliver := by
  refine h.andThen hs ?_
  unfold Hw.deliver
  exact (.ite Within.refl Within.refl.part_adc.showQueue)

theorem Within.retireConv (h : Within sc m0 m) {c} (hs : Touch.covers sc (Touch.answering ++ Touch.delivering)
    := by decide +kernel) : Within sc m0 (m.retireConv c) := by
  refine h.andThen hs ?_
  unfold Hw.retireConv
  exact (.ite Within.refl.dropTicket.innerDone (by
    split
    · exact Within.refl
    · exact Within.refl.enqueue.dropTicket.innerDone))

theorem Within.retireConvs (h : Within sc m0 m) (hs : Touch.covers sc (Touch.answering ++ Touch.delivering)
    := by decide +kernel) : Within sc m0 m.retireConvs := by
  refine h.andThen hs ?_
  unfold Hw.retireConvs
  exact (.foldl Within.refl.part_adc fun _ _ h1 => h1.retireConv)

theorem Within.skipEntry (h : Within sc m0 m) (hs : Touch.covers sc (parts [.adc, .faultInput] ++ regs
    [Reg.ADC_EVENTS_SKIPPED, Reg.FLT_STATUS_LOST]) := by decide +kernel) : Within sc m0 m.skipEntry := by
  refine h.andThen hs ?_
  unfold Hw.skipEntry
  exact (.ite Within.refl.part_adc.bump Within.refl.part_adc.bump.fault)

theorem Within.lateEntry (h : Within sc m0 m) {tag} (hs : Touch.covers sc (parts [.adc, .faultInput] ++ regs
    [Reg.ADC_EVENTS_LATE, Reg.FLT_STATUS_LOST]) := by decide +kernel) : Within sc m0 (m.lateEntry tag) := by
  refine h.andThen hs ?_
  unfold Hw.lateEntry
  exact (.ite Within.refl.part_adc.bump Within.refl.part_adc.bump.fault)

theorem Within.seqTick (h : Within sc m0 m) (hs : Touch.covers sc (parts [.adc]) := by decide +kernel) : Within sc
    m0 m.seqTick :=
  h.andThen hs Within.refl.part_adc

theorem Within.arrange (h : Within sc m0 m) {gone} (hs : Touch.covers sc (parts [.adc] ++ regs
    [Reg.ADC_STATUS_ACTIVE, Reg.ADC_STATUS_SPARE, Reg.ADC_STATUS_ROT_STOP]) := by decide +kernel) : Within sc m0
    (m.arrange gone) := by
  refine h.andThen hs ?_
  unfold Hw.arrange
  exact Within.refl.part_adc.wr.wr.wrB

theorem Within.fenceSlice (h : Within sc m0 m) {i} (hs : Touch.covers sc (Touch.sliceFence) := by decide +kernel) :
    Within sc m0 (m.fenceSlice i) := by
  refine h.andThen hs ?_
  unfold Hw.fenceSlice
  exact (.ite Within.refl (.ite Within.refl.wrBit.fenceBit.arrange.fault Within.refl.wrBit.fenceBit.arrange))

theorem Within.clrSliceFence (h : Within sc m0 m) (hs : Touch.covers sc (Touch.entriesClosed ++ parts [.adc,
    .fences] ++ regs [Reg.ADC_STATUS_FENCED, Reg.ADC_STATUS_ACTIVE, Reg.ADC_STATUS_SPARE, Reg.ADC_STATUS_ROT_STOP,
    Reg.FLT_FENCE_U_UNITS]) := by decide +kernel) : Within sc m0 m.clrSliceFence := by
  refine h.andThen hs ?_
  unfold Hw.clrSliceFence
  exact (.closeEntries (.flt_fences (.foldl Within.refl.wr.arrange fun _ _ h2 => h2.wrBit)))

theorem Within.startFg (h : Within sc m0 m) (hs : Touch.covers sc (regs [Reg.ADC_STATUS_FGCAL])
    := by decide +kernel) : Within sc m0 m.startFg :=
  h.andThen hs Within.refl.wr

theorem Within.refOn (h : Within sc m0 m) (hs : Touch.covers sc (parts [.adc] ++ regs [Reg.ADC_STATUS_REF_ON,
    Reg.ADC_STATUS_REF_SETTLED]) := by decide +kernel) : Within sc m0 m.refOn :=
  h.andThen hs Within.refl.wr.wr.part_adc

theorem Within.applyCal (h : Within sc m0 m) {copy} (hs : Touch.covers sc (Touch.issuing ++ parts [.adc, .sub] ++
    regs [Reg.CAL_DATE_DATE, Reg.CAL_DUE_DUE, Reg.CAL_REF_REF_TRUE, Reg.CAL_SEQ_SEQ, Reg.CAL_SEQ_SIGNED,
    Reg.CAL_SEQ_COPY, Reg.CAL_SEQ_NOMINAL, Reg.ADC_STATUS_DUE_PASSED] ++ arrays [Reg.CAL_CERT_ID_ID])
    := by decide +kernel) : Within sc m0 (m.applyCal copy) := by
  refine h.andThen hs ?_
  unfold Hw.applyCal
  exact (.ite (.record (.ite (.wr (.wr (.wr (.wrB (.wr (.wr (.wr (.wr (.foldl Within.refl.part_adc fun _ _ h2 =>
    (h2.wrAt Reg.CAL_CERT_ID_ID_even)))))))))) (.wr (.wr (.wrB (.wr (.wr (.wr (.wr (.foldl Within.refl.part_adc fun _
    _ h2 => (h2.wrAt Reg.CAL_CERT_ID_ID_even))))))))))) (.ite (.wr (.wr (.wr (.wrB (.wr (.wr (.wr (.wr (.foldl
    Within.refl.part_adc fun _ _ h2 => (h2.wrAt Reg.CAL_CERT_ID_ID_even)))))))))) (.wr (.wr (.wrB (.wr (.wr (.wr (.wr
    (.foldl Within.refl.part_adc fun _ _ h2 => (h2.wrAt Reg.CAL_CERT_ID_ID_even)))))))))))

theorem Within.selectCal (h : Within sc m0 m) (hs : Touch.covers sc (Touch.issuing ++ parts [.adc, .sub,
    .faultInput] ++ regs [Reg.CAL_DATE_DATE, Reg.CAL_DUE_DUE, Reg.CAL_REF_REF_TRUE, Reg.CAL_SEQ_SEQ,
    Reg.CAL_SEQ_SIGNED, Reg.CAL_SEQ_COPY, Reg.CAL_SEQ_NOMINAL, Reg.ADC_STATUS_DUE_PASSED, Reg.FLT_STATUS_LOST] ++
    arrays [Reg.CAL_CERT_ID_ID]) := by decide +kernel) : Within sc m0 m.selectCal := by
  refine h.andThen hs ?_
  unfold Hw.selectCal
  exact (.ite Within.refl.applyCal (.ite Within.refl.applyCal Within.refl.part_adc.wr.fault))

theorem Within.refchkRun (h : Within sc m0 m) {mean tctl c} (hs : Touch.covers sc (Touch.issuing ++ parts [.sub] ++
    regs [Reg.REFCHK_LAST_MEAN]) := by decide +kernel) : Within sc m0 (Machine.refchkRun mean tctl m c).1 := by
  refine h.andThen hs ?_
  unfold Machine.refchkRun
  exact Within.refl.wrI.record

theorem Within.calStage (h : Within sc m0 m) {c} (hs : Touch.covers sc (parts [.adc]) := by decide +kernel) : Within
    sc m0 (Machine.calStage m c).1 :=
  h.andThen hs Within.refl.part_adc

theorem Within.calCommit (h : Within sc m0 m) {x1} (hs : Touch.covers sc (parts [.calCopies, .adc])
    := by decide +kernel) : Within sc m0 (Machine.calCommit m x1).1 := by
  refine h.andThen hs ?_
  unfold Machine.calCommit
  exact (.edits Within.refl [.calCopies, .adc])

theorem Within.resetRecord (h : Within sc m0 m) {letter side source cause} (hs : Touch.covers sc (Touch.issuing ++
    parts [.sub]) := by decide +kernel) : Within sc m0 (m.resetRecord letter side source cause) :=
  h.andThen hs Within.refl.record

theorem Within.nextEpoch (h : Within sc m0 m) (hs : Touch.covers sc (regs [Reg.TKT_EPOCH_EPOCH])
    := by decide +kernel) : Within sc m0 m.nextEpoch :=
  h.andThen hs Within.refl.wr

theorem Within.voidRail (h : Within sc m0 m) (hs : Touch.covers sc (Touch.issuing ++ parts [.rl, .adc, .bus, .waits,
    .sub] ++ regs [Reg.RL_STATUS_EVQ]) := by decide +kernel) : Within sc m0 m.voidRail := by
  refine h.andThen hs ?_
  unfold Hw.voidRail
  exact (.foldl (.foldl Within.refl.part_rl fun _ _ h2 => h2.rlEvent) fun _ _ h3 => h3.dropTicket)

theorem Within.chargeReset (h : Within sc m0 m) (hs : Touch.covers sc (Touch.issuing ++ parts [.latches, .chg,
    .faultInput, .cable, .waits, .adc, .bus, .sub] ++ regs [Reg.CHG_STATUS_EN, Reg.BATFET_STATUS_STATE,
    Reg.CHG_STATUS_STATE, Reg.CHG_V_SET, Reg.FLT_STATUS_LOST, Reg.CHG_I_SET, Reg.CHG_STATUS_FAULT_LATCH,
    Reg.STAT_LATCH_EVENTS, Reg.STAT_LATCH_PADS, Reg.STAT_LATCH_FN]) := by decide +kernel) : Within sc m0
    m.chargeReset := by
  refine h.andThen hs ?_
  unfold Hw.chargeReset
  exact (.ite Within.refl.clearChgEn.part_chg (.part_chg (.ite Within.refl.clearChgEn.part_chg
    Within.refl.clearChgEn.part_chg.chgTo)))

theorem Within.dropCheckin (h : Within sc m0 m) {e} (hs : Touch.covers sc (parts [.wdg, .hwdg])
    := by decide +kernel) : Within sc m0 (m.dropCheckin e) := by
  refine h.andThen hs ?_
  unfold Hw.dropCheckin
  exact (by
    split
    · exact Within.refl.part_wdg
    · exact Within.refl.part_hwdg)

theorem Within.voidWork (h : Within sc m0 m) (hs : Touch.covers sc (Touch.answering) := by decide +kernel) : Within
    sc m0 m.voidWork := by
  refine h.andThen hs ?_
  unfold Hw.voidWork
  exact (.foldl Within.refl fun _ _ h1 => h1.answerCmd)

theorem Within.voidOwned (h : Within sc m0 m) {e} (hs : Touch.covers sc (Touch.answering ++ Touch.delivering ++
    parts [.chg, .faultInput] ++ regs [Reg.TKT_EVENTS_VOIDED, Reg.FLT_STATUS_LOST]) := by decide +kernel) : Within
    sc m0 (m.voidOwned e) := by
  refine h.andThen hs ?_
  unfold Hw.voidOwned
  exact (.ite (.voidWork (.ite (.foldl (.part_sub (.ite Within.refl.voidTickets.retireConvs (.ite
    Within.refl.voidTickets.settleBus Within.refl.voidTickets))) fun _ _ h3 => h3.dropTicket) (.part_sub (.ite
    Within.refl.voidTickets.retireConvs (.ite Within.refl.voidTickets.settleBus Within.refl.voidTickets))))) (.faultAt
    (.voidWork (.ite (.foldl (.part_sub (.ite Within.refl.voidTickets.retireConvs (.ite
    Within.refl.voidTickets.settleBus Within.refl.voidTickets))) fun _ _ h3 => h3.dropTicket) (.part_sub (.ite
    Within.refl.voidTickets.retireConvs (.ite Within.refl.voidTickets.settleBus Within.refl.voidTickets)))))))

theorem Within.restartEngine (h : Within sc m0 m) {e cause} (hs : Touch.covers sc (Touch.answering ++
    Touch.delivering ++ parts [.engines, .wdg, .hwdg, .hostBusy, .linkHost, .chg, .faultInput, .latches, .cable,
    .rl] ++ regs [Reg.TKT_EPOCH_EPOCH, Reg.TKT_EVENTS_VOIDED, Reg.FLT_STATUS_LOST, Reg.CHG_STATUS_EN,
    Reg.BATFET_STATUS_STATE, Reg.CHG_STATUS_STATE, Reg.CHG_V_SET, Reg.CHG_I_SET, Reg.CHG_STATUS_FAULT_LATCH,
    Reg.STAT_LATCH_EVENTS, Reg.STAT_LATCH_PADS, Reg.STAT_LATCH_FN, Reg.RL_STATUS_EVQ]) := by decide +kernel) :
    Within sc m0 (m.restartEngine e cause) := by
  refine h.andThen hs ?_
  unfold Hw.restartEngine
  exact (by
    dsimp only
    split
    · exact (.recordH (.ite Within.refl.setEngine.dropCheckin.host_busy Within.refl.setEngine.dropCheckin))
    · exact (.resetRecord (by
        split
        · exact Within.refl.setEngine.dropCheckin.nextEpoch.voidOwned.chargeReset
        · exact Within.refl.setEngine.dropCheckin.nextEpoch.voidOwned.voidRail
        · exact Within.refl.setEngine.dropCheckin.nextEpoch.voidOwned)))

theorem Within.faultRecord (h : Within sc m0 m) {bits frn scx merges} (hs : Touch.covers sc (Touch.issuing ++ parts
    [.sub]) := by decide +kernel) : Within sc m0 (m.faultRecord bits frn scx merges) :=
  h.andThen hs Within.refl.submitRec

theorem Within.resubmitFaults (h : Within sc m0 m) (hs : Touch.covers sc (Touch.issuing ++ parts [.sub])
    := by decide +kernel) : Within sc m0 m.resubmitFaults := by
  refine h.andThen hs ?_
  unfold Hw.resubmitFaults
  exact (.foldl Within.refl fun _ _ h1 => h1.faultRecord)

theorem Within.expireTrackers (h : Within sc m0 m) (hs : Touch.covers sc (parts [.trackers]) := by decide +kernel) :
    Within sc m0 m.expireTrackers := by
  refine h.andThen hs ?_
  exact Within.refl.flt_trackers fun hl => (List.length_filter_le _ _).trans hl

/-- A tracker that takes the place of the one counted least, where the store is full. -/
theorem oldTrackers_length {l : List Tracker} (hl : l.length ≤ 64) :
    (if l.length < 64 then l else match leastTracker l with
      | some t => l.erase t
      | none => l).length < 64 := by
  split
  · assumption
  · next hfull =>
    split
    · next t ht =>
      rw [List.length_erase_of_mem (leastTracker_mem ht)]
      omega
    · next hnone =>
      rw [leastTracker_none hnone] at hfull
      exact absurd (Nat.zero_lt_succ 63) hfull

theorem Within.track1 (h : Within sc m0 m) {w} (hs : Touch.covers sc (parts [.trackers]) := by decide +kernel) :
    Within sc m0 (m.track1 w).1 := by
  refine h.andThen hs ?_
  unfold Hw.track1
  extract_lets
  split
  · exact Within.refl.expireTrackers.flt_trackers fun hl => by rwa [List.length_map]
  · refine Within.refl.expireTrackers.flt_trackers fun hl => ?_
    have hlt := oldTrackers_length hl
    rw [List.length_append, List.length_singleton]
    exact hlt

theorem Within.escalate (h : Within sc m0 m) {w} (hs : Touch.covers sc (parts [.trackers]) := by decide +kernel) :
    Within sc m0 (m.escalate w).1 := by
  refine h.andThen hs ?_
  unfold Hw.escalate
  exact (.ite_fst Within.refl Within.refl.track1)

theorem Within.partFault (h : Within sc m0 m) {w} (hs : Touch.covers sc (parts [.partFaults, .histRead, .faultInput]
    ++ regs [Reg.FLT_STATUS_DOUBLE, Reg.FLT_STATUS_LOST]) := by decide +kernel) : Within sc m0 (m.partFault w) := by
  refine h.andThen hs ?_
  unfold Hw.partFault
  exact (.ite Within.refl.flt_parts (.ite Within.refl.flt_parts (.ite Within.refl.flt_parts.wr.flt_histRead.fault
    Within.refl.flt_parts)))

theorem Within.settleDouble (h : Within sc m0 m) (hs : Touch.covers sc (regs [Reg.FLT_STATUS_DOUBLE])
    := by decide +kernel) : Within sc m0 m.settleDouble := by
  refine h.andThen hs ?_
  unfold Hw.settleDouble
  exact (.ite Within.refl.wr Within.refl)

theorem Within.announce (h : Within sc m0 m) {w} (hs : Touch.covers sc (Touch.issuing ++ parts [.latchFn,
    .linkField, .sidebands] ++ regs [Reg.STAT_LATCH_FN, Reg.STAT_LATCH_EVENTS, Reg.STAT_LATCH_PADS])
    := by decide +kernel) : Within sc m0 (m.announce w) := by
  refine h.andThen hs ?_
  unfold Hw.announce
  exact (.ite (.ite (.flt_latchFn (.ite Within.refl.wr.statEvent Within.refl)) (.ite Within.refl.wr.statEvent
    Within.refl)) (.faltCode (.sendF (.ite (.flt_latchFn (.ite Within.refl.wr.statEvent Within.refl)) (.ite
    Within.refl.wr.statEvent Within.refl)))))

theorem Within.submitFault (h : Within sc m0 m) {w frn scx merges} (hs : Touch.covers sc (Touch.issuing ++ parts
    [.sub]) := by decide +kernel) : Within sc m0 (m.submitFault w frn scx merges) := by
  refine h.andThen hs ?_
  unfold Hw.submitFault
  exact (.ite Within.refl.faultRecord Within.refl)

theorem Within.enterWord (h : Within sc m0 m) {w base frn scx} (hs : Touch.covers sc (Touch.issuing ++
    Touch.entriesClosed ++ parts [.sub] ++ regs [Reg.FLT_STATUS_LOST]) := by decide +kernel) : Within sc m0
    (m.enterWord w base frn scx) := by
  refine h.andThen hs ?_
  unfold Hw.enterWord
  refine .dite (fun hlt => ?_) fun _ => ?_
  · refine (Within.refl.flt_hist fun _ => ?_).showHist.submitFault
    rw [List.length_append, List.length_singleton]
    exact hlt
  · split
    · next x hx =>
      have hmem := lowestEntry_mem hx
      have hpos := List.length_pos_of_mem hmem
      refine .ite Within.refl.bump.submitFault (Within.refl.flt_hist fun hl => ?_).showHist.submitFault
      rw [List.length_append, List.length_singleton, List.length_erase_of_mem hmem]
      omega
    · exact Within.refl

theorem Within.mergeWord (h : Within sc m0 m) {i e w} (hs : Touch.covers sc (Touch.issuing ++ Touch.entriesClosed ++
    parts [.sub]) := by decide +kernel) : Within sc m0 (m.mergeWord i e w) := by
  refine h.andThen hs ?_
  unfold Hw.mergeWord
  have hset : ∀ x : HistEntry, m.flt.hist.length ≤ 64 → (m.flt.hist.set i x).length ≤ 64 :=
    fun x hl => by rwa [List.length_set]
  exact .ite (Within.refl.flt_hist (hset _)).showHist.submitFault (Within.refl.flt_hist (hset _)).showHist

theorem Within.unquiet (h : Within sc m0 m) {w} (hs : Touch.covers sc (parts [.history, .fences])
    := by decide +kernel) : Within sc m0 (m.unquiet w) := by
  refine h.andThen hs ?_
  unfold Hw.unquiet
  exact .ite Within.refl (.edits Within.refl [.history, .fences] (hh := fun hl => by rwa [List.length_map]))

theorem Within.collect (h : Within sc m0 m) (hs : Touch.covers sc Touch.collecting := by decide +kernel) : Within sc
  m0 m.collect := by
  refine h.andThen hs ?_
  unfold Hw.collect
  have herase : m.flt.input.length ≤ 32 → (m.flt.input.eraseIdx m.nextWord).length ≤ 32 :=
    fun hl => (List.eraseIdx_sublist _ _).length_le.trans hl
  dsimp only
  split
  · exact Within.refl
  · refine .announce ?_
    split
    · exact .mergeWord (.part_jrn (.wr (.wr (.partFault (.probHeard (.unquiet (.escalate (.edits Within.refl
      [.faultInput]
        (hi := herase)))))))))
    · exact .enterWord (.part_jrn (.wr (.wr (.partFault (.probHeard (.unquiet (.escalate (.edits Within.refl
      [.faultInput]
        (hi := herase)))))))))

theorem Within.expireRecoveries (h : Within sc m0 m) (hs : Touch.covers sc (parts [.recoveries])
    := by decide +kernel) : Within sc m0 m.expireRecoveries :=
  h.andThen hs Within.refl.flt_recoveries

theorem Within.recover (h : Within sc m0 m) {id} (hs : Touch.covers sc (parts [.recoveries]) := by decide +kernel) :
    Within sc m0 (m.recover id) := by
  refine h.andThen hs ?_
  unfold Hw.recover
  exact (.ite Within.refl.expireRecoveries.flt_recoveries Within.refl.expireRecoveries.flt_recoveries)

theorem Within.fenceFlag (h : Within sc m0 m) {id b} (hs : Touch.covers sc (regs [Reg.FLT_FENCE_U_UNITS,
    Reg.FLT_FENCE_E_HOST, Reg.FLT_FENCE_E_FIELD]) := by decide +kernel) : Within sc m0 (m.fenceFlag id b) := by
  refine h.andThen hs ?_
  unfold Hw.fenceFlag
  exact (.ite Within.refl.wrBit (.ite Within.refl.wrBit Within.refl.wrBit))

theorem Within.permFlag (h : Within sc m0 m) {id b} (hs : Touch.covers sc (regs [Reg.FLT_PERM_U_UNITS,
    Reg.FLT_PERM_E_ENGINES]) := by decide +kernel) : Within sc m0 (m.permFlag id b) := by
  refine h.andThen hs ?_
  unfold Hw.permFlag
  exact (.ite Within.refl.wrBit Within.refl.wrBit)

theorem Within.railLost (h : Within sc m0 m) {t} (hs : Touch.covers sc (Touch.issuing ++ parts [.rails, .adc, .bus,
    .waits, .sub, .rl] ++ regs [Reg.RL_STATUS_EVQ]) := by decide +kernel) : Within sc m0 (m.railLost t) := by
  refine h.andThen hs ?_
  unfold Hw.railLost
  exact (.ite Within.refl.endTag (by
    extract_lets
    split
    · exact Within.refl.part_rl.dropTicket.rlEvent
    · exact Within.refl.dropTicket))

theorem Within.settleTickets (h : Within sc m0 m) {id} (hs : Touch.covers sc (Touch.issuing ++ parts [.faultInput,
    .rails, .adc, .bus, .waits, .sub, .rl] ++ regs [Reg.TKT_EVENTS_REPLAYS, Reg.FLT_STATUS_LOST,
    Reg.TKT_EVENTS_FAILED, Reg.RL_STATUS_EVQ]) := by decide +kernel) : Within sc m0 (m.settleTickets id) := by
  refine h.andThen hs ?_
  unfold Hw.settleTickets
  exact (.foldl Within.refl fun _ _ h1 => (.ite h1.setTicket (.ite h1.failTicket.railLost h1.failTicket)))

theorem Within.closeEntry (h : Within sc m0 m) {src kind} (hs : Touch.covers sc (Touch.entriesClosed)
    := by decide +kernel) : Within sc m0 (m.closeEntry src kind) :=
  h.andThen hs Within.refl.closeEntries

theorem Within.histClr (h : Within sc m0 m) (hs : Touch.covers sc (Touch.entriesClosed) := by decide +kernel) :
    Within sc m0 m.histClr := by
  refine h.andThen hs ?_
  exact (Within.refl.flt_hist fun hl => (List.length_filter_le _ _).trans hl).showHist

theorem Within.toRole (h : Within sc m0 m) {st cause} (hs : Touch.covers sc (Touch.resigning) := by decide +kernel)
    : Within sc m0 (m.toRole st cause) := by
  refine h.andThen hs ?_
  unfold Hw.toRole
  exact (.ite Within.refl (.record (.ite (.part_rails (.wr (.ite (.ite Within.refl.part_twin.wr.wr.wr (.ite
    Within.refl.part_twin.wr.wr.wr Within.refl.part_twin.wr.wr)) (.wr (.ite Within.refl.part_twin.wr.wr.wr (.ite
    Within.refl.part_twin.wr.wr.wr Within.refl.part_twin.wr.wr)))))) (.ite (.ite Within.refl.part_twin.wr.wr.wr (.ite
    Within.refl.part_twin.wr.wr.wr Within.refl.part_twin.wr.wr)) (.wr (.ite Within.refl.part_twin.wr.wr.wr (.ite
    Within.refl.part_twin.wr.wr.wr Within.refl.part_twin.wr.wr)))))))

theorem Within.takeSealing (h : Within sc m0 m) (hs : Touch.covers sc (regs [Reg.JRN_NEXT_JSN,
    Reg.JRN_STATUS_SEALING]) := by decide +kernel) : Within sc m0 m.takeSealing := by
  refine h.andThen hs ?_
  unfold Hw.takeSealing
  exact (.ite (.wr (.ite Within.refl.wr Within.refl)) (.ite Within.refl.wr Within.refl))

theorem Within.endTwin (h : Within sc m0 m) {p} (hs : Touch.covers sc (Touch.issuing ++ parts [.twin, .adc, .bus,
    .waits, .sub]) := by decide +kernel) : Within sc m0 (m.endTwin p) := by
  refine h.andThen hs ?_
  unfold Hw.endTwin
  exact (.foldl Within.refl.part_twin fun _ _ h2 => h2.dropTicket)

theorem Within.followTwin (h : Within sc m0 m) (hs : Touch.covers sc (parts [.twin] ++ regs [Reg.SB_STATUS_MULTI,
    Reg.TWN_STATUS_STATE, Reg.TWN_STATUS_DET, Reg.JRN_NEXT_JSN, Reg.JRN_STATUS_SEALING]) := by decide +kernel) :
    Within sc m0 m.followTwin := by
  refine h.andThen hs ?_
  unfold Hw.followTwin
  exact (.ite Within.refl.wrB.wr (.ite Within.refl.wrB.wr.wr.part_twin.takeSealing Within.refl.wrB))

theorem Within.failoverRec (h : Within sc m0 m) {cause flags oldEpoch detFrn detSc takeover} (hs : Touch.covers sc
    (Touch.issuing ++ parts [.sub]) := by decide +kernel) : Within sc m0 (m.failoverRec cause flags oldEpoch detFrn
    detSc takeover) :=
  h.andThen hs Within.refl.record

theorem Within.releaseLine (h : Within sc m0 m) {byReset} (hs : Touch.covers sc (Touch.resigning)
    := by decide +kernel) : Within sc m0 (m.releaseLine byReset) :=
  h.andThen hs Within.refl.toRole.part_twin

theorem Within.resign (h : Within sc m0 m) {byReset request} (hs : Touch.covers sc (Touch.resigning)
    := by decide +kernel) : Within sc m0 (m.resign byReset request) := by
  refine h.andThen hs ?_
  unfold Hw.resign
  exact (.ite (.ite Within.refl.part_twin Within.refl.releaseLine) Within.refl)

theorem Within.settleResign (h : Within sc m0 m) (hs : Touch.covers sc (Touch.resigning) := by decide +kernel) :
    Within sc m0 m.settleResign := by
  refine h.andThen hs ?_
  unfold Hw.settleResign
  exact (.ite Within.refl.resign Within.refl)

theorem Within.resignFor (h : Within sc m0 m) {cause} (hs : Touch.covers sc (Touch.resigning) := by decide +kernel)
    : Within sc m0 (m.resignFor cause) := by
  refine h.andThen hs ?_
  unfold Hw.resignFor
  exact (by
    split
    · exact Within.refl.resign
    · exact Within.refl.resign
    · exact Within.refl.resign
    · exact (.ite Within.refl Within.refl.resign)
    · exact (.ite Within.refl Within.refl.resign)
    · exact Within.refl.resign)

theorem Within.enrol (h : Within sc m0 m) (hs : Touch.covers sc (Touch.resigning ++ Touch.nandShown ++ parts [.nand,
    .journal] ++ regs [Reg.JRN_NEXT_JSN, Reg.JRN_COMMIT_JSN, Reg.JRN_SEALED_EPOCH, Reg.JRN_RELEASED_EPOCH,
    Reg.JRN_STAGE_STAGED, Reg.TWN_STATUS_RESYNC]) := by decide +kernel) : Within sc m0 m.enrol := by
  refine h.andThen hs ?_
  unfold Hw.enrol
  exact (.ite (.trySendTwin (.part_twin (.wr (.toRole (.showNand (.clear (.edits Within.refl [.nand, .journal])))))))
    Within.refl)

theorem Within.fork (h : Within sc m0 m) (hs : Touch.covers sc (Touch.resigning ++ regs [Reg.TWN_EPOCH_EPOCH,
    Reg.TWN_STATUS_SEQ_ID, Reg.TWN_LAST_FRN, Reg.TWN_PEND_BYTES, Reg.JRN_NEXT_JSN]) := by decide +kernel) : Within
    sc m0 m.fork := by
  refine h.andThen hs ?_
  unfold Hw.fork
  exact (.ite (.foldl Within.refl.wr.wr.toRole.wr.wr.failoverRec.part_twin.takeSealing fun _ _ h5 => h5.submitRec)
    Within.refl)

theorem Within.endSession (h : Within sc m0 m) (hs : Touch.covers sc (parts [.rails, .rl, .tickets] ++ regs
    [Reg.RL_STATUS_SESSION, Reg.RL_STATUS_EVQ, Reg.RL_STATUS_SPEED, Reg.TKT_STATUS_INFLIGHT, Reg.TKT_STATUS_HWM,
    Reg.TKT_STATUS_FULL, Reg.TKT_STATUS_HELD, Reg.TKT_STATUS_HELD_STREAM]) := by decide +kernel) : Within sc m0
    m.endSession := by
  refine h.andThen hs ?_
  unfold Hw.endSession
  exact .showTickets (.edits Within.refl.wr.wr.wr [.rails, .rl, .tickets] (ht := nums_filter _ _))

theorem Within.linkOut (h : Within sc m0 m) {st} (hs : Touch.covers sc (parts [.alertPad] ++ regs
    [Reg.TL_H_STATUS_STATE, Reg.TL_F_STATUS_STATE, Reg.ID_STATUS_LINK, Reg.ID_STATUS_FIELD_READY,
    Reg.ALERT_SRC_SRC]) := by decide +kernel) : Within sc m0 (m.linkOut st) := by
  refine h.andThen hs ?_
  unfold Hw.linkOut
  exact (.ite Within.refl.wr.wr.wr.wr.alertSet Within.refl.wr.wr.wr.wr)

theorem Within.emptyDrain (h : Within sc m0 m) (hs : Touch.covers sc (parts [.drain] ++ regs [Reg.DRN_STATUS_AVAIL,
    Reg.DRN_STATUS_END]) := by decide +kernel) : Within sc m0 m.emptyDrain :=
  h.andThen hs Within.refl.wr.wr.host_drain

theorem Within.lbShow (h : Within sc m0 m) {side st reason} (hs : Touch.covers sc (regs [Reg.LB_STATUS_STATE,
    Reg.LB_STATUS_REASON, Reg.HLB_STATUS_STATE, Reg.HLB_STATUS_REASON]) := by decide +kernel) : Within sc m0
    (m.lbShow side st reason) := by
  refine h.andThen hs ?_
  unfold Hw.lbShow
  exact (by
    split
    · exact Within.refl.wr.wr
    · exact Within.refl.wr.wr)

theorem Within.lbStart (h : Within sc m0 m) {side} (hs : Touch.covers sc (Touch.loopBackStart) := by decide +kernel)
    : Within sc m0 (m.lbStart side) := by
  refine h.andThen hs ?_
  unfold Hw.lbStart
  exact (.ite Within.refl.lbShow (.ite Within.refl.lbShow (by
    split
    · exact Within.refl.lbShow.wr.wr.part_lb
    · exact Within.refl.lbShow.wr.part_lb)))

theorem Within.lbTick (h : Within sc m0 m) (hs : Touch.covers sc (parts [.lb, .alertPad] ++ regs
    [Reg.LB_STATUS_STATE, Reg.LB_STATUS_REASON, Reg.HLB_STATUS_STATE, Reg.HLB_STATUS_REASON, Reg.TL_H_STATUS_STATE,
    Reg.TL_F_STATUS_STATE, Reg.ID_STATUS_LINK, Reg.ID_STATUS_FIELD_READY, Reg.ALERT_SRC_SRC]) := by decide +kernel)
    : Within sc m0 m.lbTick := by
  refine h.andThen hs ?_
  unfold Hw.lbTick
  exact (.ite Within.refl.part_lb.part_lb (.ite (.ite Within.refl.part_lb.lbShow.part_lb.linkOut
    Within.refl.part_lb.lbShow.part_lb) Within.refl.part_lb))

theorem Within.lbReturn (h : Within sc m0 m) {side} (hs : Touch.covers sc (Touch.issuing ++ parts [.alertPad,
    .linkField, .rails, .rl, .bus, .lb, .drain, .hp] ++ regs [Reg.TL_H_STATUS_STATE, Reg.TL_F_STATUS_STATE,
    Reg.ID_STATUS_LINK, Reg.ID_STATUS_FIELD_READY, Reg.ALERT_SRC_SRC, Reg.TWN_STATUS_LINK, Reg.RL_STATUS_SESSION,
    Reg.RL_STATUS_EVQ, Reg.RL_STATUS_SPEED, Reg.DRN_STATUS_AVAIL, Reg.DRN_STATUS_END]) := by decide +kernel) :
    Within sc m0 (m.lbReturn side) := by
  refine h.andThen hs ?_
  unfold Hw.lbReturn
  exact (by
    split
    · exact (.ite Within.refl.linkOut.admitF (.ite Within.refl.wr (.ite Within.refl.endSession (.ite
      Within.refl.part_bus Within.refl))))
    · exact (.ite Within.refl.part_lb.emptyDrain (.ite Within.refl.part_lb.part_hp Within.refl.part_lb)))

theorem Within.lbEnd (h : Within sc m0 m) {side back sent errors value} (hs : Touch.covers sc (Touch.loopBackEnd ++
    Touch.loopBackStart ++ regs [Reg.LB_VALUE_VALUE]) := by decide +kernel) : Within sc m0 (m.lbEnd side back sent
    errors value) := by
  refine h.andThen hs ?_
  unfold Hw.lbEnd
  exact (by
    split
    · exact (.ite (.lbReturn (.ite Within.refl.lbShow.wrSat.wrSat.wrI Within.refl.lbShow.wrSat.wrSat)) Within.refl)
    · exact (.ite Within.refl.lbShow.wrSat.lbReturn Within.refl))

theorem Within.lbFail (h : Within sc m0 m) {side reason} (hs : Touch.covers sc (Touch.loopBackEnd)
    := by decide +kernel) : Within sc m0 (m.lbFail side reason) := by
  refine h.andThen hs ?_
  unfold Hw.lbFail
  exact (.ite Within.refl.lbShow.lbReturn (.ite Within.refl.lbShow.part_lb Within.refl))

theorem Within.fiArm (h : Within sc m0 m) (hs : Touch.covers sc (parts [.lb] ++ regs [Reg.FI_CTL_ARM])
    := by decide +kernel) : Within sc m0 m.fiArm := by
  refine h.andThen hs ?_
  unfold Hw.fiArm
  exact (.ite Within.refl.wr.part_lb Within.refl)

theorem Within.fiDisarm (h : Within sc m0 m) (hs : Touch.covers sc (parts [.lb] ++ regs [Reg.FI_CTL_ARM])
    := by decide +kernel) : Within sc m0 m.fiDisarm :=
  h.andThen hs Within.refl.wr.part_lb

theorem Within.serviceOver (h : Within sc m0 m) (hs : Touch.covers sc (Touch.loopBackEnd ++ regs [Reg.FI_CTL_ARM])
    := by decide +kernel) : Within sc m0 m.serviceOver :=
  h.andThen hs Within.refl.lbFail.lbFail.fiDisarm

theorem Within.fiMake (h : Within sc m0 m) {mode target m'} (he : m.fiMake mode target = some m')
    (hs : Touch.covers sc (Touch.committing ++ Touch.sliceFence ++ parts [.linkField, .twin, .rl] ++ regs
        [Reg.TKT_EVENTS_REPLAYS, Reg.TKT_EVENTS_FAILED, Reg.JRN_EVENTS_PROG_FAIL, Reg.JRN_STATUS_MEDIA_EVT,
        Reg.TL_F_EVENTS_CRC_ERRS, Reg.TWN_HB_CRC_ERRS, Reg.RL_STATUS_CRC_ERRS]) := by decide +kernel) : Within sc m0
        m' := by
  refine h.andThen hs ?_
  unfold Hw.fiMake at he
  split at he
  · obtain rfl := Option.some.inj he
    exact Within.refl.faultW
  · split at he
    · obtain rfl := Option.some.inj he
      exact Within.refl.failTicket
    · cases he
  · split at he
    · obtain rfl := Option.some.inj he
      exact Within.refl.bump.host_f
    · split at he
      · obtain rfl := Option.some.inj he
        exact Within.refl.bump.part_twin
      · obtain rfl := Option.some.inj he
        exact Within.refl.bump.part_rl
  · split at he
    · cases he
    · obtain rfl := Option.some.inj he
      exact Within.refl.progFail
  · split at he
    · obtain rfl := Option.some.inj he
      exact Within.refl.faultAt.fenceSlice
    · cases he
  · obtain rfl := Option.some.inj he
    exact Within.refl.faultAt

theorem Within.unfence (h : Within sc m0 m) {id} (hs : Touch.covers sc Touch.fenceLifted := by decide +kernel) :
  Within sc m0 (m.unfence id) := by
  refine h.andThen hs ?_
  unfold Hw.unfence
  extract_lets m1 _ m2 _ m3
  have h3 : Within Touch.fenceLifted m m3 := (Within.refl.fenceFlag.permFlag.flt_fences.tkt_sublist
    (nums_map _ fun t => by split <;> rfl)).showTickets
  split
  · exact h3.restartEngine
  · exact .ite h3.wr.part_ph.rePick (.ite h3.part_xfer.orderXfer (.ite h3.wr.part_bus (.ite h3.wr (.ite
    h3.wr.host_drain
      (.ite h3.wrBit.arrange h3)))))

theorem Within.clrPerm (h : Within sc m0 m) (hs : Touch.covers sc Touch.fenceLifted := by decide +kernel) : Within sc
  m0 m.clrPerm := by
  refine h.andThen hs ?_
  unfold Hw.clrPerm
  refine .ite (.foldl Within.refl fun m' id h1 => .ite ?_ h1.unfence) Within.refl
  have hp : (m'.permFlag id false).flt = m'.flt := by
    unfold Hw.permFlag
    split <;> rfl
  rw [← hp]
  exact h1.permFlag.flt_fences

theorem Within.askBurn (h : Within sc m0 m) {side} (hs : Touch.covers sc (parts [.bist]) := by decide +kernel) :
    Within sc m0 (m.askBurn side) := by
  refine h.andThen hs ?_
  unfold Hw.askBurn
  exact (.ite Within.refl (by
    split
    · exact Within.refl.part_bist
    · exact Within.refl.part_bist))

theorem Within.askEngTest (h : Within sc m0 m) (hs : Touch.covers sc (parts [.modes]) := by decide +kernel) : Within
    sc m0 m.askEngTest := by
  refine h.andThen hs ?_
  unfold Hw.askEngTest
  exact (.ite Within.refl.part_modes Within.refl)

theorem Within.writeField (h : Within sc m0 m) {a mask value f} (hf : (Touch.reg f).within sc) :
    Within sc m0 (m.writeField a mask value f) := by
  unfold Hw.writeField
  exact .ite h (.ite (h.wr hf) (h.wr hf))

theorem Within.fieldControl (h : Within sc m0 m) {a v} (hs : Touch.covers sc (Touch.fenceLifted ++ Touch.resigning
    ++ Touch.loopBackStart ++ Touch.nandShown ++ Touch.railsFollow ++ Touch.entriesClosed ++ parts [.bat, .nand,
    .journal, .bist] ++ regs [Reg.PH_STATUS_LATCHED, Reg.RAIL_STATUS_POL_LATCHED, Reg.ADC_STATUS_FGCAL,
    Reg.SB_STATUS_MULTI, Reg.JRN_NEXT_JSN, Reg.JRN_COMMIT_JSN, Reg.JRN_SEALED_EPOCH, Reg.JRN_RELEASED_EPOCH,
    Reg.JRN_STAGE_STAGED, Reg.TWN_STATUS_RESYNC, Reg.TWN_EPOCH_EPOCH, Reg.TWN_STATUS_SEQ_ID, Reg.TWN_LAST_FRN,
    Reg.TWN_PEND_BYTES, Reg.FI_CTL_ARM]) := by decide +kernel) : Within sc m0 (m.fieldControl a v) := by
  refine h.andThen hs ?_
  unfold Hw.fieldControl
  exact (.ite Within.refl.rePick (.ite Within.refl.railsFollow (.ite (.ite Within.refl.phClrLatch Within.refl) (.ite
    (.ite Within.refl.clrChgFault Within.refl) (.ite Within.refl.statPads (.ite (.ite Within.refl.clrRailLatch
    Within.refl) (.ite (.ite (.clrSliceFence (.ite Within.refl.startFg Within.refl)) (.ite Within.refl.startFg
    Within.refl)) (.ite (.ite (.histClr (.ite Within.refl.clrPerm Within.refl)) (.ite Within.refl.clrPerm
    Within.refl)) (.ite Within.refl.followTwin (.ite (.ite (.fork (.ite (.enrol (.ite Within.refl.resign Within.refl))
    (.ite Within.refl.resign Within.refl))) (.ite (.enrol (.ite Within.refl.resign Within.refl)) (.ite
    Within.refl.resign Within.refl))) (.ite (.ite (.askBurn (.ite Within.refl.askEngTest Within.refl)) (.ite
    Within.refl.askEngTest Within.refl)) (.ite (.ite Within.refl.lbStart Within.refl) (.ite (.ite Within.refl.fiArm
    Within.refl) Within.refl)))))))))))))

theorem Within.writeFieldWord (h : Within sc m0 m) {a mask value} (hs : Touch.covers sc (Touch.fenceLifted ++
    Touch.resigning ++ Touch.loopBackStart ++ Touch.nandShown ++ Touch.railsFollow ++ Touch.entriesClosed ++ parts
    [.bat, .nand, .journal, .bist] ++ regs [Reg.PH_STATUS_LATCHED, Reg.RAIL_STATUS_POL_LATCHED,
    Reg.ADC_STATUS_FGCAL, Reg.SB_STATUS_MULTI, Reg.JRN_NEXT_JSN, Reg.JRN_COMMIT_JSN, Reg.JRN_SEALED_EPOCH,
    Reg.JRN_RELEASED_EPOCH, Reg.JRN_STAGE_STAGED, Reg.TWN_STATUS_RESYNC, Reg.TWN_EPOCH_EPOCH, Reg.TWN_STATUS_SEQ_ID,
    Reg.TWN_LAST_FRN, Reg.TWN_PEND_BYTES, Reg.FI_CTL_ARM] ++ [.fieldSide, .hostSide]) := by decide +kernel) : Within
    sc m0 (m.writeFieldWord a mask value) := by
  refine h.andThen hs ?_
  unfold Hw.writeFieldWord
  exact (.fieldControl (.foldl Within.refl fun _ _ h1 => (h1.writeField (Touch.within_bothSides (by decide +kernel)))))

theorem Within.clearRead (h : Within sc m0 m) {f seen} (hf : (Touch.reg f).within sc)
    (hs : Touch.covers sc (regs [Reg.STAT_LATCH_PADS]) := by decide +kernel) :
    Within sc m0 (m.clearRead f seen) := by
  have hread : Within sc m0 (match m.extremum f with
      | some v => m.wrSat f v
      | none => if rcBits f then m.wr f (m.rd f - (m.rd f &&& seen)) else m.wr f (m.rd f - seen)) := by
    split
    · exact h.wrSat hf
    · exact .ite (h.wr hf) (h.wr hf)
  unfold Hw.clearRead
  exact .ite h (.ite (hread.statPads hs) hread)

theorem Within.liveRead (h : Within sc m0 m) {a} (hs : Touch.covers sc (parts [.modes, .histRead] ++ regs
    [Reg.FLT_STATUS_DOUBLE] ++ [.fieldSide, .hostSide]) := by decide +kernel) : Within sc m0 (m.liveRead a).2 := by
  refine h.andThen hs ?_
  unfold Hw.liveRead
  exact (.settleDouble (.ite (.flt_histRead (.foldl Within.refl fun _ _ h1 => (h1.clearRead (Touch.within_bothSides
    (by decide +kernel))))) (.foldl Within.refl fun _ _ h1 => (h1.clearRead (Touch.within_bothSides
    (by decide +kernel))))))

theorem Within.setTrack (h : Within sc m0 m) {src x} (hs : Touch.covers sc (parts [.seq]) := by decide +kernel) :
    Within sc m0 (m.setTrack src x) := by
  refine h.andThen hs ?_
  unfold Hw.setTrack
  exact (by
    split
    · exact Within.refl.part_seq
    · exact Within.refl.part_seq
    · exact Within.refl.part_seq
    · exact Within.refl.part_seq)

theorem Within.syncRecord (h : Within sc m0 m) {old new state} (hs : Touch.covers sc (Touch.issuing ++ parts [.seq,
    .sub]) := by decide +kernel) : Within sc m0 (m.syncRecord old new state) := by
  refine h.andThen hs ?_
  unfold Hw.syncRecord
  exact (.ite Within.refl.part_seq Within.refl.submitRec)

theorem Within.setSync (h : Within sc m0 m) {src state} (hs : Touch.covers sc (Touch.issuing ++ parts [.seq, .sub]
    ++ regs [Reg.FRM_STATUS_SRC, Reg.FRM_STATUS_STATE]) := by decide +kernel) : Within sc m0 (m.setSync src state) :=
      by
  refine h.andThen hs ?_
  unfold Hw.setSync
  exact (.ite Within.refl Within.refl.wr.wr.syncRecord.part_seq)

theorem Within.syncLost (h : Within sc m0 m) (hs : Touch.covers sc (parts [.seq, .faultInput] ++ regs
    [Reg.FRM_STATUS_LOSS, Reg.FLT_STATUS_LOST]) := by decide +kernel) : Within sc m0 m.syncLost := by
  refine h.andThen hs ?_
  unfold Hw.syncLost
  exact (by
    extract_lets
    split
    · exact Within.refl
    · exact (.ite Within.refl.setTrack.wr.part_seq.fault Within.refl))

theorem Within.submitSync (h : Within sc m0 m) (hs : Touch.covers sc (Touch.issuing ++ parts [.seq, .sub])
    := by decide +kernel) : Within sc m0 m.submitSync := by
  refine h.andThen hs ?_
  unfold Hw.submitSync
  exact (.foldl Within.refl.part_seq fun _ _ h1 => h1.submitRec)

theorem Within.decideSlot (h : Within sc m0 m) {p sl at_ frn a} (hs : Touch.covers sc (Touch.refusing ++ Touch.time
    ++ parts [.journal, .rails, .sidebands] ++ regs [Reg.RAIL_STATUS_HOLD_ACT]) := by decide +kernel) : Within sc m0
    (m.decideSlot p sl at_ frn a) := by
  refine h.andThen hs ?_
  unfold Hw.decideSlot
  exact (.ite (.edits Within.refl.part_seq [.seq, .journal]) (by
    split
    · exact Within.refl.raise
    · exact (.edits Within.refl.refuse.markRun [.seq, .journal])))

theorem Within.limitTick (h : Within sc m0 m) {psrc} (hs : Touch.covers sc (regs [Reg.FRM_APT_EFF_EFF])
    := by decide +kernel) : Within sc m0 (m.limitTick psrc) :=
  h.andThen hs Within.refl.wrSat

theorem Within.holdApt (h : Within sc m0 m) {b len} (hs : Touch.covers sc (parts [.seq] ++ regs
    [Reg.FRM_STATUS_APT]) := by decide +kernel) : Within sc m0 (m.holdApt b len) :=
  h.andThen hs Within.refl.wr.part_seq

theorem Within.requestAperture (h : Within sc m0 m) {a b len} (hs : Touch.covers sc (Touch.refusing ++
    Touch.freezeEnd ++ regs [Reg.FRM_APT_EFF_EFF, Reg.PH_EVENTS_QUIET_LATE]) := by decide +kernel) : Within sc m0
    (m.requestAperture a b len) := by
  refine h.andThen hs ?_
  unfold Hw.requestAperture
  exact (.ite Within.refl.wrSat.holdApt (by
    split
    · exact Within.refl.wrSat.holdApt.enterFreeze
    · exact Within.refl.wrSat.refuse))

theorem Within.releaseApts (h : Within sc m0 m) {p} (hs : Touch.covers sc (Touch.freezeEnd) := by decide +kernel) :
    Within sc m0 (m.releaseApts p) := by
  refine h.andThen hs ?_
  unfold Hw.releaseApts
  exact (.ite (.ite Within.refl.wrB.part_seq.freezeEnd Within.refl.wrB.part_seq) Within.refl)

theorem Within.runChecked (h : Within sc m0 m) {s code} {check : Hw → HostCmd → Hw × Option Answer}
    {act : Hw → HostCmd → Hw × Answer} (hc : ∀ m c, Within sc m0 m → Within sc m0 (check m c).1)
    (ha : ∀ m c, Within sc m0 m → Within sc m0 (act m c).1)
    (hs : Touch.covers sc Touch.answering := by decide +kernel) : Within sc m0 (m.runChecked s code check act) := by
  unfold Hw.runChecked
  split
  · exact h
  · refine .ite h ?_
    split
    · exact h.andThen hs Within.refl.refuseCmd
    · dsimp only
      split
      · exact (hc _ _ h).andThen hs Within.refl.refuseCmd
      · exact .ite ((hc _ _ h).andThen hs Within.refl.validated)
          ((ha _ _ (hc _ _ h)).andThen hs Within.refl.answerCmd)

theorem Within.pingAct (h : Within sc m0 m) {x1} (hs : Touch.covers sc ([]) := by decide +kernel) : Within sc m0
    (Machine.pingAct m x1).1 :=
  h.andThen hs Within.refl

theorem Within.readWords (h : Within sc m0 m) {a x2} (hs : Touch.covers sc (parts [.modes, .histRead] ++ regs
    [Reg.FLT_STATUS_DOUBLE] ++ [.fieldSide, .hostSide]) := by decide +kernel) : Within sc m0 (m.readWords a x2).1 :=
    by
  refine h.andThen hs ?_
  clear h hs
  induction x2 generalizing m a with
  | zero =>
    rw [Hw.readWords]
    exact Within.refl
  | succ x2 ih =>
    rw [Hw.readWords]
    exact (.trans Within.refl.liveRead (ih ..))

theorem Within.regReadAct (h : Within sc m0 m) {c} (hs : Touch.covers sc (parts [.modes, .histRead] ++ regs
    [Reg.FLT_STATUS_DOUBLE] ++ [.fieldSide, .hostSide]) := by decide +kernel) : Within sc m0 (Machine.regReadAct m
    c).1 :=
  h.andThen hs Within.refl.readWords

theorem Within.regWriteAct (h : Within sc m0 m) {c} (hs : Touch.covers sc (Touch.fenceLifted ++ Touch.resigning ++
    Touch.loopBackStart ++ Touch.nandShown ++ Touch.railsFollow ++ Touch.entriesClosed ++ parts [.bat, .nand,
    .journal, .bist] ++ regs [Reg.PH_STATUS_LATCHED, Reg.RAIL_STATUS_POL_LATCHED, Reg.ADC_STATUS_FGCAL,
    Reg.SB_STATUS_MULTI, Reg.JRN_NEXT_JSN, Reg.JRN_COMMIT_JSN, Reg.JRN_SEALED_EPOCH, Reg.JRN_RELEASED_EPOCH,
    Reg.JRN_STAGE_STAGED, Reg.TWN_STATUS_RESYNC, Reg.TWN_EPOCH_EPOCH, Reg.TWN_STATUS_SEQ_ID, Reg.TWN_LAST_FRN,
    Reg.TWN_PEND_BYTES, Reg.FI_CTL_ARM] ++ [.fieldSide, .hostSide]) := by decide +kernel) : Within sc m0
    (Machine.regWriteAct m c).1 := by
  refine h.andThen hs ?_
  unfold Machine.regWriteAct
  exact Within.refl.writeFieldWord

theorem Within.kaStatementAct (h : Within sc m0 m) {c} (hs : Touch.covers sc ([]) := by decide +kernel) : Within sc
    m0 (Machine.kaStatementAct m c).1 :=
  h.andThen hs Within.refl

theorem Within.setTime (h : Within sc m0 m) {mode utc tai sub origin seq} (hs : Touch.covers sc (parts [.journal] ++
    regs [Reg.RTC_SEC_TAI, Reg.RTC_SUB_SUB, Reg.RTC_UTC_OFFSET, Reg.RTC_STATUS_VALID, Reg.RTC_STATUS_SET_EVT])
    := by decide +kernel) : Within sc m0 (m.setTime mode utc tai sub origin seq).1 := by
  refine h.andThen hs ?_
  unfold Hw.setTime
  exact (.wr (.wr (by
    split
    · exact Within.refl.wr.wr.part_jrn
    · exact Within.refl.part_jrn
    · exact Within.refl.wrI)))

theorem Within.sendTime (h : Within sc m0 m) {mode} (hs : Touch.covers sc (Touch.issuing ++ parts [.twin])
    := by decide +kernel) : Within sc m0 (m.sendTime mode) :=
  h.andThen hs Within.refl.trySendTwin.part_twin

theorem Within.timeSetAct (h : Within sc m0 m) {c} (hs : Touch.covers sc (Touch.issuing ++ parts [.journal, .twin]
    ++ regs [Reg.RTC_SEC_TAI, Reg.RTC_SUB_SUB, Reg.RTC_UTC_OFFSET, Reg.RTC_STATUS_VALID, Reg.RTC_STATUS_SET_EVT])
    := by decide +kernel) : Within sc m0 (Machine.timeSetAct m c).1 := by
  refine h.andThen hs ?_
  unfold Machine.timeSetAct
  exact (.ite Within.refl.setTime.sendTime Within.refl.setTime)

theorem Within.release (h : Within sc m0 m) {e} (hs : Touch.covers sc (Touch.nandShown ++ regs
    [Reg.JRN_RELEASED_EPOCH]) := by decide +kernel) : Within sc m0 (m.release e) := by
  refine h.andThen hs ?_
  unfold Hw.release
  exact (.ite Within.refl Within.refl.wr.showNand)

theorem Within.streamResetAct (h : Within sc m0 m) {c} (hs : Touch.covers sc (arrays [Reg.HOST_SEQ_N])
    := by decide +kernel) : Within sc m0 (Machine.streamResetAct m c).1 :=
  h.andThen hs (Within.refl.wrAt Reg.HOST_SEQ_N_even)

theorem Within.challengeAct (h : Within sc m0 m) {c} (hs : Touch.covers sc (parts [.modes]) := by decide +kernel) :
    Within sc m0 (Machine.challengeAct m c).1 := by
  refine h.andThen hs ?_
  unfold Machine.challengeAct
  exact Within.refl.part_modes

theorem Within.serviceRec (h : Within sc m0 m) {event level cause key} (hs : Touch.covers sc (Touch.issuing ++ parts
    [.sub]) := by decide +kernel) : Within sc m0 (m.serviceRec event level cause key) :=
  h.andThen hs Within.refl.record

theorem Within.serviceFailed (h : Within sc m0 m) {level} (hs : Touch.covers sc (Touch.issuing ++ parts [.modes,
    .faultInput, .sub] ++ regs [Reg.SVC_STATUS_FAILS, Reg.MODE_EVENTS_SVC_FAILS, Reg.FLT_STATUS_LOST,
    Reg.SVC_STATUS_LOCKED_OUT]) := by decide +kernel) : Within sc m0 (m.serviceFailed level).1 := by
  refine h.andThen hs ?_
  unfold Hw.serviceFailed
  exact (.serviceRec (.ite Within.refl.part_modes.wr.bump.fault.wr Within.refl.part_modes.wr.bump.fault))

theorem Within.enterCheck (h : Within sc m0 m) {c} (hs : Touch.covers sc (Touch.issuing ++ parts [.modes,
    .faultInput, .sub] ++ regs [Reg.SVC_STATUS_FAILS, Reg.MODE_EVENTS_SVC_FAILS, Reg.FLT_STATUS_LOST,
    Reg.SVC_STATUS_LOCKED_OUT]) := by decide +kernel) : Within sc m0 (Machine.enterCheck m c).1 := by
  refine h.andThen hs ?_
  unfold Machine.enterCheck
  exact (.ite_fst Within.refl (.ite_fst Within.refl (.ite_fst Within.refl (by
    split
    · exact Within.refl
    · exact (.ite_fst Within.refl.part_modes (.ite_fst Within.refl.part_modes
      Within.refl.part_modes.serviceFailed))))))

theorem Within.enterAct (h : Within sc m0 m) {c} (hs : Touch.covers sc (parts [.modes] ++ regs
    [Reg.SVC_STATUS_FAILS]) := by decide +kernel) : Within sc m0 (Machine.enterAct m c).1 := by
  refine h.andThen hs ?_
  unfold Machine.enterAct
  exact Within.refl.wr.part_modes

theorem Within.exitAct (h : Within sc m0 m) {x1} (hs : Touch.covers sc (parts [.modes]) := by decide +kernel) :
    Within sc m0 (Machine.exitAct m x1).1 :=
  h.andThen hs Within.refl.part_modes

theorem Within.enrolAct (h : Within sc m0 m) {c} (hs : Touch.covers sc (parts [.cfgCopies] ++ regs
    [Reg.SVC_STATUS_KEY_ENROLLED, Reg.SVC_STATUS_REQ_SIGNED]) := by decide +kernel) : Within sc m0 (Machine.enrolAct
    m c).1 := by
  refine h.andThen hs ?_
  unfold Machine.enrolAct
  exact Within.refl.wr.wr.modes_keySlot

theorem Within.modeRefused (h : Within sc m0 m) {target why} (hs : Touch.covers sc (parts [.faultInput] ++ regs
    [Reg.FLT_STATUS_LOST]) := by decide +kernel) : Within sc m0 (m.modeRefused target why) :=
  h.andThen hs Within.refl.fault

theorem Within.shipCheck (h : Within sc m0 m) {c} (hs : Touch.covers sc (parts [.faultInput] ++ regs
    [Reg.MODE_EVENTS_SHIP_REFUSED, Reg.FLT_STATUS_LOST]) := by decide +kernel) : Within sc m0 (Machine.shipCheck m
    c).1 := by
  refine h.andThen hs ?_
  unfold Machine.shipCheck
  exact (.ite_fst Within.refl Within.refl.bump.modeRefused)

theorem Within.shipAct (h : Within sc m0 m) {x1} (hs : Touch.covers sc (parts [.modes]) := by decide +kernel) :
    Within sc m0 (Machine.shipAct m x1).1 :=
  h.andThen hs Within.refl.part_modes

theorem Within.showReq (h : Within sc m0 m) (hs : Touch.covers sc (parts [.modes, .stopped] ++ regs
    [Reg.MODE_STATUS_PWR_REQ]) := by decide +kernel) : Within sc m0 m.showReq := by
  refine h.andThen hs ?_
  unfold Hw.showReq
  exact (.ite (.ite Within.refl.wrB.part_modes (.ite (.edits Within.refl.wrB [.modes, .stopped]) Within.refl.wrB))
    Within.refl.wrB)

theorem Within.hostPwrAct (h : Within sc m0 m) {c} (hs : Touch.covers sc (parts [.modes, .stopped] ++ regs
    [Reg.MODE_STATUS_PWR_REQ]) := by decide +kernel) : Within sc m0 (Machine.hostPwrAct m c).1 :=
  h.andThen hs Within.refl.part_modes.showReq

theorem Within.cfgStageAct (h : Within sc m0 m) {c} (hs : Touch.covers sc (parts [.modes]) := by decide +kernel) :
    Within sc m0 (Machine.cfgStageAct m c).1 :=
  h.andThen hs Within.refl.part_modes

theorem Within.cfgCommitAct (h : Within sc m0 m) {x1} (hs : Touch.covers sc (parts [.cfgCopies])
    := by decide +kernel) : Within sc m0 (Machine.cfgCommitAct m x1).1 := by
  refine h.andThen hs ?_
  unfold Machine.cfgCommitAct
  exact (.edits Within.refl [.cfgCopies])

theorem Within.fieldResetAct (h : Within sc m0 m) {x1} (hs : Touch.covers sc ([]) := by decide +kernel) : Within sc
    m0 (Machine.fieldResetAct m x1).1 :=
  h.andThen hs Within.refl

theorem Within.askBus (h : Within sc m0 m) {addr isRead wlen rlen pec host m' n}
    (he : m.askBus addr isRead wlen rlen pec host = some (m', n))
    (hs : Touch.covers sc (Touch.issuing ++ parts [.bus]) := by decide +kernel) :
    Within sc m0 m' := by
  refine h.andThen hs ?_
  unfold Hw.askBus at he
  split at he
  · next hi =>
    obtain ⟨rfl, -⟩ := Prod.mk.inj (Option.some.inj he)
    exact (Within.refl.issue hi).part_bus
  · cases he

theorem Within.startXfer (h : Within sc m0 m) {c m' c'} (he : m.startXfer c = some (m', c'))
    (hs : Touch.covers sc (Touch.issuing ++ parts [.bus]) := by decide +kernel) :
    Within sc m0 m' := by
  unfold Hw.startXfer at he
  split at he
  · next hi =>
    obtain ⟨rfl, -⟩ := Prod.mk.inj (Option.some.inj he)
    exact h.askBus hi hs
  · cases he

theorem Within.durableEffect (h : Within sc m0 m) {c} (hs : Touch.covers sc (Touch.fenceLifted ++ Touch.resigning ++
    Touch.loopBackStart ++ Touch.nandShown ++ Touch.railsFollow ++ Touch.entriesClosed ++ parts [.bat, .nand,
    .journal, .bist, .calCopies, .cfgCopies, .stopped] ++ regs [Reg.PH_STATUS_LATCHED, Reg.RAIL_STATUS_POL_LATCHED,
    Reg.ADC_STATUS_FGCAL, Reg.SB_STATUS_MULTI, Reg.JRN_NEXT_JSN, Reg.JRN_COMMIT_JSN, Reg.JRN_SEALED_EPOCH,
    Reg.JRN_RELEASED_EPOCH, Reg.JRN_STAGE_STAGED, Reg.TWN_STATUS_RESYNC, Reg.TWN_EPOCH_EPOCH, Reg.TWN_STATUS_SEQ_ID,
    Reg.TWN_LAST_FRN, Reg.TWN_PEND_BYTES, Reg.FI_CTL_ARM, Reg.RTC_SEC_TAI, Reg.RTC_SUB_SUB, Reg.RTC_UTC_OFFSET,
    Reg.RTC_STATUS_VALID, Reg.RTC_STATUS_SET_EVT, Reg.SVC_STATUS_FAILS, Reg.SVC_STATUS_KEY_ENROLLED,
    Reg.SVC_STATUS_REQ_SIGNED, Reg.MODE_STATUS_PWR_REQ] ++ [.fieldSide, .hostSide]) := by decide +kernel) : Within
    sc m0 (m.durableEffect c).1 := by
  refine h.andThen hs ?_
  unfold Hw.durableEffect
  exact (.ite_fst Within.refl.regWriteAct (.ite_fst Within.refl.calStage (.ite_fst (Within.refl.calCommit (x1 := c))
    (.ite_fst Within.refl.timeSetAct (.ite_fst Within.refl.release (.ite_fst Within.refl.streamResetAct (.ite_fst
    Within.refl.enterAct (.ite_fst (Within.refl.exitAct (x1 := c)) (.ite_fst Within.refl.enrolAct (.ite_fst
    (Within.refl.shipAct (x1 := c)) (.ite_fst Within.refl.hostPwrAct (.ite_fst Within.refl.cfgStageAct (.ite_fst
    (Within.refl.cfgCommitAct (x1 := c)) (.ite_fst (Within.refl.fieldResetAct (x1 := c)) Within.refl))))))))))))))

theorem Within.applyDurable (h : Within sc m0 m) {c jsn} (hs : Touch.covers sc (Touch.fenceLifted ++ Touch.resigning
    ++ Touch.loopBackStart ++ Touch.nandShown ++ Touch.railsFollow ++ Touch.entriesClosed ++ parts [.bat, .nand,
    .journal, .bist, .calCopies, .cfgCopies, .stopped] ++ regs [Reg.PH_STATUS_LATCHED, Reg.RAIL_STATUS_POL_LATCHED,
    Reg.ADC_STATUS_FGCAL, Reg.SB_STATUS_MULTI, Reg.JRN_NEXT_JSN, Reg.JRN_COMMIT_JSN, Reg.JRN_SEALED_EPOCH,
    Reg.JRN_RELEASED_EPOCH, Reg.JRN_STAGE_STAGED, Reg.TWN_STATUS_RESYNC, Reg.TWN_EPOCH_EPOCH, Reg.TWN_STATUS_SEQ_ID,
    Reg.TWN_LAST_FRN, Reg.TWN_PEND_BYTES, Reg.FI_CTL_ARM, Reg.RTC_SEC_TAI, Reg.RTC_SUB_SUB, Reg.RTC_UTC_OFFSET,
    Reg.RTC_STATUS_VALID, Reg.RTC_STATUS_SET_EVT, Reg.SVC_STATUS_FAILS, Reg.SVC_STATUS_KEY_ENROLLED,
    Reg.SVC_STATUS_REQ_SIGNED, Reg.MODE_STATUS_PWR_REQ] ++ [.fieldSide, .hostSide]) := by decide +kernel) : Within
    sc m0 (m.applyDurable c jsn) := by
  refine h.andThen hs ?_
  unfold Hw.applyDurable
  exact (.ite (by
    split
    · next m2 _ he2 => exact (.setWork (.startXfer (.ite Within.refl Within.refl.advanceN) he2))
    · exact (.setWork (.ite Within.refl Within.refl.advanceN))) (by
    extract_lets
    split
    · exact (.answerCmd (.setWork (.durableEffect (.ite Within.refl Within.refl.advanceN))))
    · exact (.setWork (.durableEffect (.ite Within.refl Within.refl.advanceN)))))

theorem Within.commitCmd (h : Within sc m0 m) {c r} (hs : Touch.covers sc (Touch.fenceLifted ++ Touch.resigning ++
    Touch.loopBackStart ++ Touch.nandShown ++ Touch.railsFollow ++ Touch.entriesClosed ++ parts [.journal, .bat,
    .nand, .bist, .calCopies, .cfgCopies, .stopped] ++ regs [Reg.JRN_STAGE_STAGED, Reg.PH_STATUS_LATCHED,
    Reg.RAIL_STATUS_POL_LATCHED, Reg.ADC_STATUS_FGCAL, Reg.SB_STATUS_MULTI, Reg.JRN_NEXT_JSN, Reg.JRN_COMMIT_JSN,
    Reg.JRN_SEALED_EPOCH, Reg.JRN_RELEASED_EPOCH, Reg.TWN_STATUS_RESYNC, Reg.TWN_EPOCH_EPOCH, Reg.TWN_STATUS_SEQ_ID,
    Reg.TWN_LAST_FRN, Reg.TWN_PEND_BYTES, Reg.FI_CTL_ARM, Reg.RTC_SEC_TAI, Reg.RTC_SUB_SUB, Reg.RTC_UTC_OFFSET,
    Reg.RTC_STATUS_VALID, Reg.RTC_STATUS_SET_EVT, Reg.SVC_STATUS_FAILS, Reg.SVC_STATUS_KEY_ENROLLED,
    Reg.SVC_STATUS_REQ_SIGNED, Reg.MODE_STATUS_PWR_REQ] ++ [.fieldSide, .hostSide]) := by decide +kernel) : Within
    sc m0 (m.commitCmd c r) :=
  h.andThen hs Within.refl.stage.setTicket.applyDurable.noteAccepted

theorem Within.acceptAt (h : Within sc m0 m) {r tkt} (hs : Touch.covers sc (Touch.fenceLifted ++ Touch.resigning ++
    Touch.loopBackStart ++ Touch.nandShown ++ Touch.railsFollow ++ Touch.entriesClosed ++ parts [.journal, .bat,
    .nand, .bist, .calCopies, .cfgCopies, .stopped] ++ regs [Reg.JRN_STAGE_STAGED, Reg.PH_STATUS_LATCHED,
    Reg.RAIL_STATUS_POL_LATCHED, Reg.ADC_STATUS_FGCAL, Reg.SB_STATUS_MULTI, Reg.JRN_NEXT_JSN, Reg.JRN_COMMIT_JSN,
    Reg.JRN_SEALED_EPOCH, Reg.JRN_RELEASED_EPOCH, Reg.TWN_STATUS_RESYNC, Reg.TWN_EPOCH_EPOCH, Reg.TWN_STATUS_SEQ_ID,
    Reg.TWN_LAST_FRN, Reg.TWN_PEND_BYTES, Reg.FI_CTL_ARM, Reg.RTC_SEC_TAI, Reg.RTC_SUB_SUB, Reg.RTC_UTC_OFFSET,
    Reg.RTC_STATUS_VALID, Reg.RTC_STATUS_SET_EVT, Reg.SVC_STATUS_FAILS, Reg.SVC_STATUS_KEY_ENROLLED,
    Reg.SVC_STATUS_REQ_SIGNED, Reg.MODE_STATUS_PWR_REQ] ++ [.fieldSide, .hostSide]) := by decide +kernel) : Within
    sc m0 (m.acceptAt r tkt) := by
  refine h.andThen hs ?_
  unfold Hw.acceptAt
  exact (by
    split
    · exact Within.refl.commitCmd
    · exact Within.refl.stage.noteAccepted)

theorem Within.acceptFront (h : Within sc m0 m) (hs : Touch.covers sc (Touch.fenceLifted ++ Touch.resigning ++
    Touch.loopBackStart ++ Touch.nandShown ++ Touch.railsFollow ++ Touch.entriesClosed ++ parts [.journal, .bat,
    .nand, .bist, .calCopies, .cfgCopies, .stopped] ++ regs [Reg.JRN_STAGE_STAGED, Reg.PH_STATUS_LATCHED,
    Reg.RAIL_STATUS_POL_LATCHED, Reg.ADC_STATUS_FGCAL, Reg.SB_STATUS_MULTI, Reg.JRN_NEXT_JSN, Reg.JRN_COMMIT_JSN,
    Reg.JRN_SEALED_EPOCH, Reg.JRN_RELEASED_EPOCH, Reg.TWN_STATUS_RESYNC, Reg.TWN_EPOCH_EPOCH, Reg.TWN_STATUS_SEQ_ID,
    Reg.TWN_LAST_FRN, Reg.TWN_PEND_BYTES, Reg.FI_CTL_ARM, Reg.RTC_SEC_TAI, Reg.RTC_SUB_SUB, Reg.RTC_UTC_OFFSET,
    Reg.RTC_STATUS_VALID, Reg.RTC_STATUS_SET_EVT, Reg.SVC_STATUS_FAILS, Reg.SVC_STATUS_KEY_ENROLLED,
    Reg.SVC_STATUS_REQ_SIGNED, Reg.MODE_STATUS_PWR_REQ] ++ [.fieldSide, .hostSide]) := by decide +kernel) : Within
    sc m0 m.acceptFront := by
  refine h.andThen hs ?_
  unfold Hw.acceptFront
  exact (by
    split
    · exact Within.refl
    · exact Within.refl.part_twin.wr.acceptAt)

theorem Within.acceptReserved (h : Within sc m0 m) {x1} (hs : Touch.covers sc (Touch.fenceLifted ++ Touch.resigning
    ++ Touch.loopBackStart ++ Touch.nandShown ++ Touch.railsFollow ++ Touch.entriesClosed ++ parts [.journal, .bat,
    .nand, .bist, .calCopies, .cfgCopies, .stopped] ++ regs [Reg.JRN_STAGE_STAGED, Reg.PH_STATUS_LATCHED,
    Reg.RAIL_STATUS_POL_LATCHED, Reg.ADC_STATUS_FGCAL, Reg.SB_STATUS_MULTI, Reg.JRN_NEXT_JSN, Reg.JRN_COMMIT_JSN,
    Reg.JRN_SEALED_EPOCH, Reg.JRN_RELEASED_EPOCH, Reg.TWN_STATUS_RESYNC, Reg.TWN_EPOCH_EPOCH, Reg.TWN_STATUS_SEQ_ID,
    Reg.TWN_LAST_FRN, Reg.TWN_PEND_BYTES, Reg.FI_CTL_ARM, Reg.RTC_SEC_TAI, Reg.RTC_SUB_SUB, Reg.RTC_UTC_OFFSET,
    Reg.RTC_STATUS_VALID, Reg.RTC_STATUS_SET_EVT, Reg.SVC_STATUS_FAILS, Reg.SVC_STATUS_KEY_ENROLLED,
    Reg.SVC_STATUS_REQ_SIGNED, Reg.MODE_STATUS_PWR_REQ] ++ [.fieldSide, .hostSide]) := by decide +kernel) : Within
    sc m0 (m.acceptReserved x1) := by
  refine h.andThen hs ?_
  clear h hs
  induction x1 generalizing m with
  | zero =>
    rw [Hw.acceptReserved]
    exact Within.refl
  | succ x1 ih =>
    rw [Hw.acceptReserved]
    exact (.ite Within.refl (.trans Within.refl.acceptFront (ih ..)))

theorem Within.recordSent (h : Within sc m0 m) {c} (hs : Touch.covers sc (parts [.work]) := by decide +kernel) :
    Within sc m0 (m.recordSent c) :=
  h.andThen hs Within.refl.setWork

theorem Within.commitDurable (h : Within sc m0 m) {n} (hs : Touch.covers sc (Touch.fenceLifted ++ Touch.resigning ++
    Touch.loopBackStart ++ Touch.nandShown ++ Touch.railsFollow ++ Touch.entriesClosed ++ parts [.bat, .nand,
    .journal, .bist, .calCopies, .cfgCopies, .stopped] ++ regs [Reg.TWN_PEND_BYTES, Reg.TWN_PEND_LOST,
    Reg.PH_STATUS_LATCHED, Reg.RAIL_STATUS_POL_LATCHED, Reg.ADC_STATUS_FGCAL, Reg.SB_STATUS_MULTI, Reg.JRN_NEXT_JSN,
    Reg.JRN_COMMIT_JSN, Reg.JRN_SEALED_EPOCH, Reg.JRN_RELEASED_EPOCH, Reg.JRN_STAGE_STAGED, Reg.TWN_STATUS_RESYNC,
    Reg.TWN_EPOCH_EPOCH, Reg.TWN_STATUS_SEQ_ID, Reg.TWN_LAST_FRN, Reg.FI_CTL_ARM, Reg.RTC_SEC_TAI, Reg.RTC_SUB_SUB,
    Reg.RTC_UTC_OFFSET, Reg.RTC_STATUS_VALID, Reg.RTC_STATUS_SET_EVT, Reg.SVC_STATUS_FAILS,
    Reg.SVC_STATUS_KEY_ENROLLED, Reg.SVC_STATUS_REQ_SIGNED, Reg.MODE_STATUS_PWR_REQ] ++ [.fieldSide, .hostSide])
    := by decide +kernel) : Within sc m0 (m.commitDurable n) := by
  refine h.andThen hs ?_
  unfold Hw.commitDurable
  exact (by
    split
    · exact Within.refl
    · exact (.ite Within.refl.refuseCmd (.ite Within.refl (.ite Within.refl (.ite Within.refl.pend.applyDurable (.ite
      (by
        split
        · exact Within.refl
        · next m1 he1 => exact (Within.refl.sendTwin he1).part_twin.recordSent) (.ite Within.refl.critFull (.ite (.ite
          Within.refl (by
        split
        · exact Within.refl
        · next m1 he1 => exact (Within.refl.sendTwin he1).recordSent.takeJsn.wrSat.part_twin))
          Within.refl.takeJsn.commitCmd))))))))

theorem Within.appendOne (h : Within sc m0 m) (hs : Touch.covers sc (Touch.fenceLifted ++ Touch.appending ++
    Touch.resigning ++ Touch.loopBackStart ++ Touch.nandShown ++ Touch.railsFollow ++ Touch.entriesClosed ++ parts
    [.bat, .nand, .bist, .calCopies, .cfgCopies, .stopped] ++ regs [Reg.PH_STATUS_LATCHED,
    Reg.RAIL_STATUS_POL_LATCHED, Reg.ADC_STATUS_FGCAL, Reg.SB_STATUS_MULTI, Reg.JRN_COMMIT_JSN,
    Reg.JRN_SEALED_EPOCH, Reg.JRN_RELEASED_EPOCH, Reg.TWN_STATUS_RESYNC, Reg.TWN_EPOCH_EPOCH, Reg.TWN_STATUS_SEQ_ID,
    Reg.TWN_LAST_FRN, Reg.FI_CTL_ARM, Reg.RTC_SEC_TAI, Reg.RTC_SUB_SUB, Reg.RTC_UTC_OFFSET, Reg.RTC_STATUS_VALID,
    Reg.RTC_STATUS_SET_EVT, Reg.SVC_STATUS_FAILS, Reg.SVC_STATUS_KEY_ENROLLED, Reg.SVC_STATUS_REQ_SIGNED,
    Reg.MODE_STATUS_PWR_REQ] ++ [.fieldSide, .hostSide]) := by decide +kernel) : Within sc m0 m.appendOne := by
  refine h.andThen hs ?_
  unfold Hw.appendOne
  exact (by
    split
    · exact (by
        split
        · exact (.ite Within.refl.popSub.takeJsn.commitCmd Within.refl.append)
        · exact Within.refl.append)
    · exact Within.refl)

theorem Within.appendMany (h : Within sc m0 m) {x1} (hs : Touch.covers sc (Touch.fenceLifted ++ Touch.appending ++
    Touch.resigning ++ Touch.loopBackStart ++ Touch.nandShown ++ Touch.railsFollow ++ Touch.entriesClosed ++ parts
    [.bat, .nand, .bist, .calCopies, .cfgCopies, .stopped] ++ regs [Reg.PH_STATUS_LATCHED,
    Reg.RAIL_STATUS_POL_LATCHED, Reg.ADC_STATUS_FGCAL, Reg.SB_STATUS_MULTI, Reg.JRN_COMMIT_JSN,
    Reg.JRN_SEALED_EPOCH, Reg.JRN_RELEASED_EPOCH, Reg.TWN_STATUS_RESYNC, Reg.TWN_EPOCH_EPOCH, Reg.TWN_STATUS_SEQ_ID,
    Reg.TWN_LAST_FRN, Reg.FI_CTL_ARM, Reg.RTC_SEC_TAI, Reg.RTC_SUB_SUB, Reg.RTC_UTC_OFFSET, Reg.RTC_STATUS_VALID,
    Reg.RTC_STATUS_SET_EVT, Reg.SVC_STATUS_FAILS, Reg.SVC_STATUS_KEY_ENROLLED, Reg.SVC_STATUS_REQ_SIGNED,
    Reg.MODE_STATUS_PWR_REQ] ++ [.fieldSide, .hostSide]) := by decide +kernel) : Within sc m0 (m.appendMany x1) :=
    by
  refine h.andThen hs ?_
  clear h hs
  induction x1 generalizing m with
  | zero =>
    rw [Hw.appendMany]
    exact Within.refl
  | succ x1 ih =>
    rw [Hw.appendMany]
    exact (.ite (.trans Within.refl.appendOne (ih ..)) Within.refl.appendOne)

theorem Within.retire (h : Within sc m0 m) {n} (hs : Touch.covers sc (Touch.answering ++ Touch.delivering ++ parts
    [.chg]) := by decide +kernel) : Within sc m0 (m.retire n) := by
  refine h.andThen hs ?_
  unfold Hw.retire
  exact (by
    extract_lets
    split
    · exact (.ite Within.refl.setTicket Within.refl)
    · exact (.ite (.ite Within.refl.setTicket Within.refl) (.ite (.settleWork (.ite Within.refl.setTicket
      Within.refl)) (.ite (.retireConvs (.ite Within.refl.setTicket Within.refl)) (.ite (.settleBus (.ite
      Within.refl.setTicket Within.refl)) (.ite (.ite Within.refl.setTicket Within.refl) (.dropTicket (.ite
      Within.refl.setTicket Within.refl))))))))

theorem Within.afterFailure (h : Within sc m0 m) {n err} (hs : Touch.covers sc (Touch.answering ++ Touch.delivering
    ++ parts [.chg] ++ regs [Reg.SB_LAST_ADDR, Reg.SB_LAST_ERR, Reg.SB_LAST_FRN]) := by decide +kernel) : Within sc
    m0 (m.afterFailure n err) := by
  refine h.andThen hs ?_
  unfold Hw.afterFailure
  exact (by
    split
    · exact Within.refl
    · exact (.ite Within.refl (.ite (by
        split
        · exact Within.refl.answerCmd
        · exact Within.refl) (.ite Within.refl.retireConvs (.ite (by
        split
        · exact Within.refl.wr.wr.wr.endBus
        · exact Within.refl) Within.refl)))))

theorem Within.failWork (h : Within sc m0 m) {n err} (hs : Touch.covers sc (Touch.settling) := by decide +kernel) :
    Within sc m0 (m.failWork n err) := by
  refine h.andThen hs ?_
  unfold Hw.failWork
  exact (.ite Within.refl.failTicket.afterFailure Within.refl)

theorem Within.pendForwarded (h : Within sc m0 m) {n m'} (he : m.pendForwarded n = some m')
    (hs : Touch.covers sc (Touch.fenceLifted ++ Touch.resigning ++ Touch.loopBackStart ++ Touch.nandShown ++
        Touch.railsFollow ++ Touch.entriesClosed ++ parts [.bat, .nand, .journal, .bist, .calCopies, .cfgCopies,
        .stopped] ++ regs [Reg.TWN_PEND_BYTES, Reg.TWN_PEND_LOST, Reg.PH_STATUS_LATCHED,
        Reg.RAIL_STATUS_POL_LATCHED, Reg.ADC_STATUS_FGCAL, Reg.SB_STATUS_MULTI, Reg.JRN_NEXT_JSN,
        Reg.JRN_COMMIT_JSN, Reg.JRN_SEALED_EPOCH, Reg.JRN_RELEASED_EPOCH, Reg.JRN_STAGE_STAGED,
        Reg.TWN_STATUS_RESYNC, Reg.TWN_EPOCH_EPOCH, Reg.TWN_STATUS_SEQ_ID, Reg.TWN_LAST_FRN, Reg.FI_CTL_ARM,
        Reg.RTC_SEC_TAI, Reg.RTC_SUB_SUB, Reg.RTC_UTC_OFFSET, Reg.RTC_STATUS_VALID, Reg.RTC_STATUS_SET_EVT,
        Reg.SVC_STATUS_FAILS, Reg.SVC_STATUS_KEY_ENROLLED, Reg.SVC_STATUS_REQ_SIGNED, Reg.MODE_STATUS_PWR_REQ] ++
        [.fieldSide, .hostSide]) := by decide +kernel) : Within sc m0 m' := by
  refine h.andThen hs ?_
  unfold Hw.pendForwarded at he
  split at he
  · cases he
  · extract_lets fwd m1 _ at he
    split at he
    · cases he
    · next e _ =>
      extract_lets m2 at he
      have h2 : Within (Touch.fenceLifted ++ Touch.resigning ++ Touch.loopBackStart ++ Touch.nandShown ++
          Touch.railsFollow ++ Touch.entriesClosed ++ parts [.bat, .nand, .journal, .bist, .calCopies, .cfgCopies,
          .stopped] ++ regs [Reg.TWN_PEND_BYTES, Reg.TWN_PEND_LOST, Reg.PH_STATUS_LATCHED,
          Reg.RAIL_STATUS_POL_LATCHED, Reg.ADC_STATUS_FGCAL, Reg.SB_STATUS_MULTI, Reg.JRN_NEXT_JSN,
          Reg.JRN_COMMIT_JSN, Reg.JRN_SEALED_EPOCH, Reg.JRN_RELEASED_EPOCH, Reg.JRN_STAGE_STAGED,
          Reg.TWN_STATUS_RESYNC, Reg.TWN_EPOCH_EPOCH, Reg.TWN_STATUS_SEQ_ID, Reg.TWN_LAST_FRN, Reg.FI_CTL_ARM,
          Reg.RTC_SEC_TAI, Reg.RTC_SUB_SUB, Reg.RTC_UTC_OFFSET, Reg.RTC_STATUS_VALID, Reg.RTC_STATUS_SET_EVT,
          Reg.SVC_STATUS_FAILS, Reg.SVC_STATUS_KEY_ENROLLED, Reg.SVC_STATUS_REQ_SIGNED, Reg.MODE_STATUS_PWR_REQ] ++
          [.fieldSide, .hostSide]) m m2 := Within.refl.endTwin.part_twin.pend
      split at he
      · obtain rfl := Option.some.inj he
        exact h2
      · split at he
        · obtain rfl := Option.some.inj he
          exact h2.applyDurable
        · obtain rfl := Option.some.inj he
          exact h2.dropTicket

theorem Within.deadline (h : Within sc m0 m) {n} (hs : Touch.covers sc (Touch.fenceLifted ++ Touch.settling ++
    Touch.resigning ++ Touch.loopBackStart ++ Touch.nandShown ++ Touch.railsFollow ++ Touch.entriesClosed ++ parts
    [.bat, .nand, .journal, .bist, .calCopies, .cfgCopies, .stopped] ++ regs [Reg.TKT_EVENTS_TIMEOUTS,
    Reg.TWN_PEND_BYTES, Reg.TWN_PEND_LOST, Reg.PH_STATUS_LATCHED, Reg.RAIL_STATUS_POL_LATCHED, Reg.ADC_STATUS_FGCAL,
    Reg.SB_STATUS_MULTI, Reg.JRN_NEXT_JSN, Reg.JRN_COMMIT_JSN, Reg.JRN_SEALED_EPOCH, Reg.JRN_RELEASED_EPOCH,
    Reg.JRN_STAGE_STAGED, Reg.TWN_STATUS_RESYNC, Reg.TWN_EPOCH_EPOCH, Reg.TWN_STATUS_SEQ_ID, Reg.TWN_LAST_FRN,
    Reg.FI_CTL_ARM, Reg.RTC_SEC_TAI, Reg.RTC_SUB_SUB, Reg.RTC_UTC_OFFSET, Reg.RTC_STATUS_VALID,
    Reg.RTC_STATUS_SET_EVT, Reg.SVC_STATUS_FAILS, Reg.SVC_STATUS_KEY_ENROLLED, Reg.SVC_STATUS_REQ_SIGNED,
    Reg.MODE_STATUS_PWR_REQ] ++ [.fieldSide, .hostSide]) := by decide +kernel) : Within sc m0 (m.deadline n) := by
  refine h.andThen hs ?_
  unfold Hw.deadline
  exact (by
    split
    · exact Within.refl
    · exact (.ite Within.refl (.ite (.getD (fun _ he2 => (Within.refl.bump.faultAt.pendForwarded he2))
      Within.refl.bump.faultAt.failWork) (.ite (.ite Within.refl.setTicket.faultAt
      Within.refl.setTicket.bump.faultAt.afterFailure) Within.refl))))

theorem Within.busIdle (h : Within sc m0 m) (hs : Touch.covers sc (regs [Reg.SB_STATUS_WAIT_THAW,
    Reg.SB_STATUS_BUSY]) := by decide +kernel) : Within sc m0 m.busIdle :=
  h.andThen hs Within.refl.wr.wr

theorem Within.setOp (h : Within sc m0 m) {n f} (hs : Touch.covers sc (parts [.bus]) := by decide +kernel) : Within
    sc m0 (m.setOp n f) :=
  h.andThen hs Within.refl.part_bus

theorem Within.busFail (h : Within sc m0 m) {x err} (hs : Touch.covers sc (Touch.settling ++ regs
    [Reg.SB_STATUS_WAIT_THAW, Reg.SB_STATUS_BUSY]) := by decide +kernel) : Within sc m0 (m.busFail x err) := by
  refine h.andThen hs ?_
  unfold Hw.busFail
  exact (.ite Within.refl.setOp.busIdle.wr.wr.wr.setTicket.bump.faultAt.afterFailure
    Within.refl.setOp.busIdle.wr.wr.wr.failWork)

theorem Within.busNack (h : Within sc m0 m) {x err} (hs : Touch.covers sc (Touch.settling ++ regs
    [Reg.SB_EVENTS_NACKS, Reg.SB_STATUS_WAIT_THAW, Reg.SB_STATUS_BUSY]) := by decide +kernel) : Within sc m0
    (m.busNack x err) := by
  refine h.andThen hs ?_
  unfold Hw.busNack
  exact (.busFail (.ite Within.refl.bump Within.refl.bump.part_bus.fault))

theorem Within.busBitErr (h : Within sc m0 m) {x} (hs : Touch.covers sc (Touch.settling ++ regs
    [Reg.SB_EVENTS2_BIT_ERRS, Reg.SB_STATUS_WAIT_THAW, Reg.SB_STATUS_BUSY]) := by decide +kernel) : Within sc m0
    (m.busBitErr x) :=
  h.andThen hs Within.refl.bump.fault.busFail

theorem Within.busRun (h : Within sc m0 m) {n} (hs : Touch.covers sc (Touch.busRun) := by decide +kernel) : Within
    sc m0 (m.busRun n) := by
  refine h.andThen hs ?_
  unfold Hw.busRun
  exact (.ite Within.refl Within.refl.setTicket.setOp.wr.wr)

theorem Within.busDefer (h : Within sc m0 m) {x} (hs : Touch.covers sc (parts [.bus] ++ regs
    [Reg.SB_STATUS_WAIT_THAW, Reg.SB_EVENTS2_DEFERRED]) := by decide +kernel) : Within sc m0 (m.busDefer x) := by
  refine h.andThen hs ?_
  unfold Hw.busDefer
  exact (.ite Within.refl.wr.setOp Within.refl.wr.setOp.bump)

theorem Within.busOverrun (h : Within sc m0 m) {x} (hs : Touch.covers sc (parts [.bus] ++ regs
    [Reg.SB_EVENTS2_FRZ_OVERRUN]) := by decide +kernel) : Within sc m0 (m.busOverrun x) := by
  refine h.andThen hs ?_
  unfold Hw.busOverrun
  exact (.ite Within.refl.setOp.bump Within.refl)

theorem Within.busEnds (h : Within sc m0 m) {x err data} (hs : Touch.covers sc (Touch.settling ++ regs
    [Reg.SB_STATUS_WAIT_THAW, Reg.SB_STATUS_BUSY, Reg.SB_EVENTS_NACKS, Reg.SB_EVENTS2_BIT_ERRS])
    := by decide +kernel) : Within sc m0 (m.busEnds x err data) := by
  refine h.andThen hs ?_
  unfold Hw.busEnds
  exact (by
    split
    · exact Within.refl.busIdle.endBus
    · exact Within.refl.busNack
    · exact (.ite Within.refl.busNack Within.refl)
    · exact (.ite Within.refl Within.refl.busBitErr)
    · exact (.ite Within.refl.fault.busFail Within.refl)
    · exact (.ite Within.refl.busFail Within.refl)
    · exact Within.refl)

theorem Within.dropMsg (h : Within sc m0 m) {rx x why} (hs : Touch.covers sc (Touch.sideFault ++ Touch.issuing ++
    parts [.linkField] ++ regs [Reg.TL_H_EVENTS_DROPS, Reg.TBF_H_LAST_HEADER, Reg.TBF_H_REASON_REASON,
    Reg.TL_F_EVENTS_DROPS, Reg.TBF_F_LAST_HEADER, Reg.TBF_F_REASON_REASON]) := by decide +kernel) : Within sc m0
    (m.dropMsg rx x why) := by
  refine h.andThen hs ?_
  unfold Hw.dropMsg
  exact (by
    extract_lets
    split
    · exact Within.refl.bump.wr.wr.hfaultAt
    · exact (.ite Within.refl.bump.wr.wr.faultAt.sideAnswer Within.refl.bump.wr.wr.faultAt))

theorem Within.setLinkEnd (h : Within sc m0 m) {sd e} (hs : Touch.covers sc (parts [.linkHost, .linkField])
    := by decide +kernel) : Within sc m0 (m.setLinkEnd sd e) := by
  refine h.andThen hs ?_
  unfold Hw.setLinkEnd
  exact (by
    split
    · exact Within.refl.host_h
    · exact Within.refl.host_f)

theorem Within.linkDo (h : Within sc m0 m) {sd g} (hs : Touch.covers sc (parts [.linkHost, .linkField])
    := by decide +kernel) : Within sc m0 (m.linkDo sd g) :=
  h.andThen hs Within.refl.setLinkEnd

theorem Within.filterMsg (h : Within sc m0 m) {rx x} (hs : Touch.covers sc (Touch.sideFault ++ Touch.issuing ++
    parts [.linkHost, .linkField] ++ regs [Reg.TL_H_EVENTS_DROPS, Reg.TBF_H_LAST_HEADER, Reg.TBF_H_REASON_REASON,
    Reg.TL_F_EVENTS_DROPS, Reg.TBF_F_LAST_HEADER, Reg.TBF_F_REASON_REASON]) := by decide +kernel) : Within sc m0
    (m.filterMsg rx x) := by
  refine h.andThen hs ?_
  unfold Hw.filterMsg
  exact (.ite (.linkDo (.ite Within.refl.flt_hostAt Within.refl)) Within.refl.dropMsg)

theorem Within.receiveMsg (h : Within sc m0 m) {rx x crcOk} (hs : Touch.covers sc (Touch.sideFault ++ Touch.issuing
    ++ parts [.linkHost, .linkField] ++ regs [Reg.TL_H_EVENTS_CRC_ERRS, Reg.TL_F_EVENTS_CRC_ERRS,
    Reg.TL_H_EVENTS_DROPS, Reg.TBF_H_LAST_HEADER, Reg.TBF_H_REASON_REASON, Reg.TL_F_EVENTS_DROPS,
    Reg.TBF_F_LAST_HEADER, Reg.TBF_F_REASON_REASON]) := by decide +kernel) : Within sc m0 (m.receiveMsg rx x crcOk) :=
      by
  refine h.andThen hs ?_
  unfold Hw.receiveMsg
  exact (.ite Within.refl (.ite (.linkDo (by
    split
    · exact Within.refl.bump
    · exact Within.refl.bump)) (.ite Within.refl.filterMsg (.ite Within.refl Within.refl.linkDo.filterMsg.linkDo))))

theorem Within.flushAcks (h : Within sc m0 m) (hs : Touch.covers sc (parts [.linkHost, .linkField])
    := by decide +kernel) : Within sc m0 m.flushAcks := by
  refine h.andThen hs ?_
  unfold Hw.flushAcks
  exact (.ite Within.refl Within.refl.linkDo.linkDo)

theorem Within.resultAcked (h : Within sc m0 m) {p} (hs : Touch.covers sc (Touch.issuing ++ Touch.delivering ++
    parts [.work, .bus, .waits, .sub]) := by decide +kernel) : Within sc m0 (m.resultAcked p) := by
  refine h.andThen hs ?_
  unfold Hw.resultAcked
  exact (by
    split
    · exact Within.refl
    · exact (.settleWork (.setWork (.ite Within.refl.part_adc.showQueue Within.refl))))

theorem Within.adcAcked (h : Within sc m0 m) {p} (hs : Touch.covers sc (Touch.delivering) := by decide +kernel) :
    Within sc m0 (m.adcAcked p) :=
  h.andThen hs Within.refl.part_adc.showQueue

theorem Within.dropF2h (h : Within sc m0 m) (hs : Touch.covers sc (Touch.issuing ++ parts [.adc, .bus, .waits,
    .sub]) := by decide +kernel) : Within sc m0 m.dropF2h := by
  refine h.andThen hs ?_
  unfold Hw.dropF2h
  exact (by
    split
    · exact Within.refl.dropTicket
    · exact Within.refl)

theorem Within.ackedF (h : Within sc m0 m) {x} (hs : Touch.covers sc (Touch.issuing ++ Touch.delivering ++ parts
    [.bus, .waits, .sub, .work]) := by decide +kernel) : Within sc m0 (m.ackedF x) := by
  refine h.andThen hs ?_
  unfold Hw.ackedF
  exact (.ite Within.refl.dropF2h.resultAcked (.ite Within.refl.dropF2h.adcAcked Within.refl.dropF2h))

theorem Within.covered (h : Within sc m0 m) {sd n} (hs : Touch.covers sc (Touch.issuing ++ Touch.delivering ++ parts
    [.linkHost, .linkField, .mailbox, .hostFaults, .bus, .waits, .sub, .work]) := by decide +kernel) : Within sc m0
    (m.covered sd n) := by
  refine h.andThen hs ?_
  unfold Hw.covered
  exact (by
    extract_lets
    split
    · exact (.foldl Within.refl.linkDo.linkDo.noteSeqs fun _ _ h3 => h3.hfaultAcked)
    · exact (.admitF (.foldl Within.refl.linkDo fun _ _ h2 => h2.ackedF)))

theorem Within.takeFrom (h : Within sc m0 m) {rx type} {g : Hw → Msg → Hw}
    (hg : ∀ m x, Within sc m0 m → Within sc m0 (g m x))
    (hs : Touch.covers sc (parts [match rx with | .host => .linkHost | .field => .linkField]) := by decide +kernel) :
    Within sc m0 (m.takeFrom rx type g) := by
  unfold Hw.takeFrom
  split
  · exact h
  · refine hg _ _ ?_
    cases rx
    · exact h.andThen hs Within.refl.host_h
    · exact h.andThen hs Within.refl.host_f

theorem Within.retrain (h : Within sc m0 m) {sd why} (hs : Touch.covers sc (Touch.sideFault ++ regs
    [Reg.TL_H_EVENTS_RETRAINS, Reg.TL_F_EVENTS_RETRAINS, Reg.TL_H_STATUS_STATE, Reg.TL_F_STATUS_STATE,
    Reg.ID_STATUS_LINK, Reg.ID_STATUS_FIELD_READY]) := by decide +kernel) : Within sc m0 (m.retrain sd why) :=
  h.andThen hs Within.refl.bump.bump.sideFault_any.linkOut

theorem Within.liftLink (h : Within sc m0 m) (hs : Touch.covers sc (Touch.fenceLifted ++ parts [.recoveries])
    := by decide +kernel) : Within sc m0 m.liftLink := by
  refine h.andThen hs ?_
  unfold Hw.liftLink
  exact (.ite Within.refl.unfence.recover.fault Within.refl)

theorem Within.resume (h : Within sc m0 m) {sd rxNext} (hs : Touch.covers sc (Touch.issuing ++ Touch.delivering ++
    parts [.linkHost, .linkField, .mailbox, .hostFaults, .bus, .waits, .sub, .work]) := by decide +kernel) : Within
    sc m0 (m.resume sd rxNext) := by
  refine h.andThen hs ?_
  unfold Hw.resume
  exact Within.refl.covered.linkDo

theorem Within.dropSent (h : Within sc m0 m) (hs : Touch.covers sc (Touch.issuing ++ parts [.linkHost, .linkField,
    .adc, .bus, .waits, .sub, .work, .faultInput] ++ regs [Reg.TKT_EVENTS_VOIDED, Reg.FLT_STATUS_LOST])
    := by decide +kernel) : Within sc m0 m.dropSent := by
  refine h.andThen hs ?_
  unfold Hw.dropSent
  exact (.admitF (.settleWork (.resendAdc (.ite (.host_work (.foldl Within.refl.linkDo fun _ _ h2 => h2.dropF2h))
    (.faultAt (.add (.host_work (.foldl Within.refl.linkDo fun _ _ h2 => h2.dropF2h))))))))

theorem Within.fieldPowerLost (h : Within sc m0 m) (hs : Touch.covers sc (Touch.linkPeerLost) := by decide +kernel)
    : Within sc m0 m.fieldPowerLost := by
  refine h.andThen hs ?_
  unfold Hw.fieldPowerLost
  exact (.linkDo (.foldl Within.refl.linkDo fun _ _ h2 => h2.postResult))

theorem Within.hostTakes (h : Within sc m0 m) {e type} {g : Hw → Msg → Hw}
    (hg : ∀ m x, Within sc m0 m → Within sc m0 (g m x))
    (hs : Touch.covers sc (parts [.linkHost]) := by decide +kernel) : Within sc m0 (m.hostTakes e type g) := by
  unfold Hw.hostTakes
  exact .ite h (h.takeFrom hg hs)

theorem Within.seeItems (h : Within sc m0 m) {x1} (hs : Touch.covers sc (parts [.drain, .alertPad] ++ regs
    [Reg.DRN_NEXT_JSN, Reg.DRN_STATUS_END, Reg.DRN_STATUS_REQ_OPEN, Reg.ALERT_SRC_SRC]) := by decide +kernel) :
    Within sc m0 (m.seeItems x1) := by
  refine h.andThen hs ?_
  clear h hs
  induction x1 generalizing m with
  | zero =>
    rw [Hw.seeItems]
    exact Within.refl
  | succ x1 ih =>
    rw [Hw.seeItems]
    exact (.ite Within.refl (.trans (by
      split
      · exact Within.refl.host_drain.wr
      · exact Within.refl.host_drain.wr
      · exact Within.refl.host_drain.wr.wr.wr.host_drain.alertSet
      · exact Within.refl.host_drain) (ih ..)))

theorem Within.drainBytes (h : Within sc m0 m) {bs} (hs : Touch.covers sc (parts [.drain, .alertPad] ++ regs
    [Reg.DRN_STATUS_AVAIL, Reg.DRN_NEXT_JSN, Reg.DRN_STATUS_END, Reg.DRN_STATUS_REQ_OPEN, Reg.ALERT_SRC_SRC])
    := by decide +kernel) : Within sc m0 (m.drainBytes bs) := by
  refine h.andThen hs ?_
  unfold Hw.drainBytes
  exact Within.refl.host_drain.wrSat.seeItems

theorem Within.takeCfgWord (h : Within sc m0 m) {a v} (hs : Touch.covers sc [.fieldSide, .hostSide]
  := by decide +kernel) :
    Within sc m0 (m.takeCfgWord a v) :=
  h.andThen hs (Within.refl.foldl fun _ _ hm => hm.wr (Touch.within_bothSides (by decide +kernel)))

theorem Within.fieldTakes (h : Within sc m0 m) {e type} {g : Hw → Msg → Hw}
    (hg : ∀ m x, Within sc m0 m → Within sc m0 (g m x))
    (hs : Touch.covers sc (parts [.linkField]) := by decide +kernel) : Within sc m0 (m.fieldTakes e type g) := by
  unfold Hw.fieldTakes
  exact .ite h (h.takeFrom hg hs)

theorem Within.writeRev (h : Within sc m0 m) {mv} (hs : Touch.covers sc (parts [.cable, .latches, .faultInput] ++
    regs [Reg.REV_SET_SET, Reg.FLT_STATUS_LOST]) := by decide +kernel) : Within sc m0 (m.writeRev mv) :=
  h.andThen hs Within.refl.part_cable.ownLatch

theorem Within.revTick (h : Within sc m0 m) (hs : Touch.covers sc (parts [.latches, .faultInput, .cable] ++ regs
    [Reg.REV_SET_SET, Reg.FLT_STATUS_LOST]) := by decide +kernel) : Within sc m0 m.revTick := by
  refine h.andThen hs ?_
  unfold Hw.revTick
  exact (.ite (.ite Within.refl.ownLatch Within.refl.writeRev) Within.refl)

theorem Within.enterSource (h : Within sc m0 m) (hs : Touch.covers sc (Touch.issuing ++ parts [.cable, .modes, .sub,
    .latches, .faultInput, .linkField] ++ regs [Reg.MODE_STATUS_MODE, Reg.MODE_STATUS_MODE_CHG,
    Reg.BATFET_STATUS_STATE, Reg.REV_SET_SET, Reg.FLT_STATUS_LOST]) := by decide +kernel) : Within sc m0
    m.enterSource := by
  refine h.andThen hs ?_
  unfold Hw.enterSource
  exact (.orderXfer (.writeRev (.setMode (.edits Within.refl [.cable, .modes]))))

theorem Within.swapSource (h : Within sc m0 m) (hs : Touch.covers sc (Touch.issuing ++ parts [.cable, .modes, .sub,
    .latches, .faultInput, .linkField] ++ regs [Reg.MODE_STATUS_MODE, Reg.MODE_STATUS_MODE_CHG,
    Reg.BATFET_STATUS_STATE, Reg.REV_SET_SET, Reg.FLT_STATUS_LOST]) := by decide +kernel) : Within sc m0
    m.swapSource := by
  refine h.andThen hs ?_
  unfold Hw.swapSource
  exact (.ite Within.refl.enterSource Within.refl)

theorem Within.applyClear (h : Within sc m0 m) {o vals} (hs : Touch.covers sc (parts [.modes] ++ [.fieldSide,
    .hostSide]) := by decide +kernel) : Within sc m0 (m.applyClear o vals) := by
  refine h.andThen hs ?_
  unfold Hw.applyClear
  exact (.foldl Within.refl fun _ _ h1 => (h1.clearRead (Touch.within_bothSides (by decide +kernel))))

theorem Within.applyClears (h : Within sc m0 m) {x1 x2} (hs : Touch.covers sc (parts [.modes] ++ [.fieldSide,
    .hostSide]) := by decide +kernel) : Within sc m0 (m.applyClears x1 x2) := by
  refine h.andThen hs ?_
  clear h hs
  induction x1 generalizing m x2 with
  | zero =>
    rw [Hw.applyClears]
    exact Within.refl
  | succ x1 ih =>
    rw [Hw.applyClears]
    exact (.ite Within.refl (.trans Within.refl.applyClear (ih ..)))

theorem Within.takeHostRec (h : Within sc m0 m) {r} (hs : Touch.covers sc (Touch.issuing ++ parts [.sub] ++ regs
    [Reg.TKT_EPOCH_EPOCH]) := by decide +kernel) : Within sc m0 (m.takeHostRec r) := by
  refine h.andThen hs ?_
  unfold Hw.takeHostRec
  exact (.ite Within.refl.nextEpoch.submitRec Within.refl.submitRec)

theorem Within.sendDrain (h : Within sc m0 m) {tag x2 x3} (hs : Touch.covers sc (Touch.issuing ++ parts
    [.linkField]) := by decide +kernel) : Within sc m0 (m.sendDrain tag x2 x3) := by
  refine h.andThen hs ?_
  clear h hs
  induction x2 generalizing m tag x3 with
  | zero =>
    rw [Hw.sendDrain]
    exact Within.refl
  | succ x2 ih =>
    rw [Hw.sendDrain]
    exact (.ite Within.refl (.trans Within.refl.sendF (ih ..)))

theorem Within.sendChunk (h : Within sc m0 m) {session pos x3 x4} (hs : Touch.covers sc (parts [.linkHost,
    .mailbox]) := by decide +kernel) : Within sc m0 (m.sendChunk session pos x3 x4) := by
  refine h.andThen hs ?_
  clear h hs
  induction x3 generalizing m session pos x4 with
  | zero =>
    rw [Hw.sendChunk]
    exact Within.refl
  | succ x3 ih =>
    rw [Hw.sendChunk]
    exact (.ite Within.refl (.trans Within.refl.sendH (ih ..)))

theorem Within.sendCmd (h : Within sc m0 m) {s p} (hs : Touch.covers sc (parts [.linkHost, .mailbox, .sidebands])
    := by decide +kernel) : Within sc m0 (m.sendCmd s p) := by
  refine h.andThen hs ?_
  unfold Hw.sendCmd
  exact (.ite (.haltCode (.sendH (.ite Within.refl.sendChunk Within.refl))) (.sendH (.ite Within.refl.sendChunk
    Within.refl)))

theorem Within.takeLocal (h : Within sc m0 m) {p} (hs : Touch.covers sc (Touch.answering ++ regs
    [Reg.HOST_RESEND_ABSORBED, Reg.HOST_RESEND_GAPS, Reg.HOST_RESEND_STALE]) := by decide +kernel) : Within sc m0
    (m.takeLocal p) := by
  refine h.andThen hs ?_
  unfold Hw.takeLocal
  exact (Within.refl.bySequence (fun _ _ h1 => (.ite h1.enterCmd h1.host_work.answerCmd)) (fun _ _ _ h1 =>
    h1.postResult))

theorem Within.submit (h : Within sc m0 m) (hs : Touch.covers sc (Touch.answering ++ Touch.hostFault ++ parts
    [.linkHost] ++ regs [Reg.MBX_STATUS_LREJ, Reg.MBX_EVENTS_LREJS, Reg.MBX_LAST_SEQ_SEQ, Reg.MBX_EVENTS_RESENDS,
    Reg.HOST_RESEND_ABSORBED, Reg.HOST_RESEND_GAPS, Reg.HOST_RESEND_STALE]) := by decide +kernel) : Within sc m0
    m.submit := by
  refine h.andThen hs ?_
  unfold Hw.submit
  exact (.ite Within.refl (.ite Within.refl.wr.bump.hfault (.ite (.takeLocal (.showMailbox (.ite
    Within.refl.wr.wr.bump Within.refl.wr.wr.host_mbx))) (.sendCmd (.showMailbox (.ite Within.refl.wr.wr.bump
    Within.refl.wr.wr.host_mbx))))))

theorem Within.popResult (h : Within sc m0 m) (hs : Touch.covers sc (parts [.mailbox] ++ regs [Reg.MBX_CTL_RES_PAGE,
    Reg.MBX_STATUS_RESULTS, Reg.MBX_STATUS_PLACES, Reg.MBX_STATUS_FULL, Reg.MBX_RES_INFO_STREAM,
    Reg.MBX_RES_INFO_LEN] ++ arrays [Reg.MBX_RES_RESULT]) := by decide +kernel) : Within sc m0 m.popResult := by
  refine h.andThen hs ?_
  unfold Hw.popResult
  exact (by
    split
    · exact Within.refl
    · exact Within.refl.host_mbx.wr.showMailbox.showResult)

theorem Within.drnFormat (h : Within sc m0 m) {detail} (hs : Touch.covers sc (Touch.hostFault ++ regs
    [Reg.DRN_EVENTS_FORMAT_ERRS]) := by decide +kernel) : Within sc m0 (m.drnFormat detail) :=
  h.andThen hs Within.refl.bump.hfault

theorem Within.drnOut (h : Within sc m0 m) {bs} (hs : Touch.covers sc (parts [.drain]) := by decide +kernel) :
    Within sc m0 (m.drnOut bs) :=
  h.andThen hs Within.refl.host_drain

theorem Within.drnRead (h : Within sc m0 m) {bytes} (hs : Touch.covers sc (Touch.hostFault ++ parts [.drain] ++ regs
    [Reg.DRN_STATUS_AVAIL, Reg.DRN_STATUS_END, Reg.DRN_STATUS_UNDERRUN, Reg.DRN_EVENTS_UNDERRUNS])
    := by decide +kernel) : Within sc m0 (m.drnRead bytes) := by
  refine h.andThen hs ?_
  unfold Hw.drnRead
  exact (.ite (.hfault (.bump (.wr (.ite Within.refl.drnOut.host_drain.wrSat.wr
    Within.refl.drnOut.host_drain.wrSat)))) (.ite Within.refl.drnOut.host_drain.wrSat.wr
    Within.refl.drnOut.host_drain.wrSat))

theorem Within.drnAsk (h : Within sc m0 m) {block} (hs : Touch.covers sc (Touch.draining) := by decide +kernel) :
    Within sc m0 (m.drnAsk block) := by
  refine h.andThen hs ?_
  unfold Hw.drnAsk
  exact (.ite Within.refl.drnFormat (.ite (.drainBytes (.wr (.wr (.wr (.host_drain (.emptyDrain (.ite Within.refl.bump
    Within.refl))))))) (.sendH (.wr (.wr (.wr (.host_drain (.emptyDrain (.ite Within.refl.bump Within.refl)))))))))

theorem Within.drnGo (h : Within sc m0 m) (hs : Touch.covers sc (Touch.draining) := by decide +kernel) : Within sc
    m0 m.drnGo :=
  h.andThen hs Within.refl.drnAsk

theorem Within.endDrainHost (h : Within sc m0 m) {status} (hs : Touch.covers sc (parts [.drain, .alertPad] ++ regs
    [Reg.DRN_STATUS_AVAIL, Reg.DRN_NEXT_JSN, Reg.DRN_STATUS_END, Reg.DRN_STATUS_REQ_OPEN, Reg.ALERT_SRC_SRC])
    := by decide +kernel) : Within sc m0 (m.endDrainHost status) := by
  refine h.andThen hs ?_
  unfold Hw.endDrainHost
  exact (by
    split
    · exact Within.refl
    · exact Within.refl.host_drain.drainBytes)

theorem Within.setReq (h : Within sc m0 m) {r} (hs : Touch.covers sc (parts [.drain]) := by decide +kernel) : Within
    sc m0 (m.setReq r) :=
  h.andThen hs Within.refl.host_drain

theorem Within.readItem (h : Within sc m0 m) {r} (hs : Touch.covers sc (Touch.issuing ++ parts [.linkField, .drain])
    := by decide +kernel) : Within sc m0 (m.readItem r) := by
  refine h.andThen hs ?_
  unfold Hw.readItem
  exact (.ite Within.refl.sendDrain.setReq (.ite Within.refl.sendDrain.setReq (.ite Within.refl.sendDrain.setReq (.ite
    Within.refl.sendDrain.setReq (by
    split
    · exact Within.refl.sendDrain.setReq
    · exact Within.refl.sendDrain.setReq)))))

theorem Within.serveRead (h : Within sc m0 m) {x1} (hs : Touch.covers sc (Touch.issuing ++ parts [.linkField,
    .drain]) := by decide +kernel) : Within sc m0 (m.serveRead x1) := by
  refine h.andThen hs ?_
  clear h hs
  induction x1 generalizing m with
  | zero =>
    rw [Hw.serveRead]
    exact Within.refl
  | succ x1 ih =>
    rw [Hw.serveRead]
    exact (by
      split
      · exact (.ite (.trans Within.refl.readItem (ih ..)) Within.refl)
      · exact Within.refl)

theorem Within.fillWindow (h : Within sc m0 m) {o bs} (hs : Touch.covers sc (arrays [Reg.UPD_WIN_DATA])
    := by decide +kernel) : Within sc m0 (m.fillWindow o bs) := by
  refine h.andThen hs ?_
  unfold Hw.fillWindow
  exact (.ite (.foldl Within.refl fun _ _ h1 => (.ite (h1.wrAt Reg.UPD_WIN_DATA_even) h1)) Within.refl)

theorem Within.drnWrite (h : Within sc m0 m) {opcode ofs data} (hs : Touch.covers sc (Touch.hostFault ++ regs
    [Reg.DRN_EVENTS_FORMAT_ERRS] ++ arrays [Reg.UPD_WIN_DATA]) := by decide +kernel) : Within sc m0 (m.drnWrite
    opcode ofs data) := by
  refine h.andThen hs ?_
  unfold Hw.drnWrite
  exact (.ite Within.refl.fillWindow.drnFormat Within.refl.fillWindow)

theorem Within.putSlot (h : Within sc m0 m) {e x g} (hs : Touch.covers sc (parts [.slots]) := by decide +kernel) :
    Within sc m0 (m.putSlot e x g) :=
  h.andThen hs Within.refl.upd_slots

theorem Within.slotState (h : Within sc m0 m) {e x st} (hs : Touch.covers sc (parts [.slots]) := by decide +kernel)
    : Within sc m0 (m.slotState e x st) :=
  h.andThen hs Within.refl.putSlot

theorem Within.selectSlot (h : Within sc m0 m) {e x} (hs : Touch.covers sc (Touch.slotSelect) := by decide +kernel)
    : Within sc m0 (m.selectSlot e x) := by
  refine h.andThen hs ?_
  unfold Hw.selectSlot
  exact (.ite (Within.refl.wrBit.wrAt Reg.HUPD_VER_H_VERSION_even) (Within.refl.wrBit.wrAt Reg.UPD_VER_F_VERSION_even))

theorem Within.probBit (h : Within sc m0 m) {e b} (hs : Touch.covers sc (regs [Reg.HUPD_SEL_PROB, Reg.UPD_SEL_PROB])
    := by decide +kernel) : Within sc m0 (m.probBit e b) := by
  refine h.andThen hs ?_
  unfold Hw.probBit
  exact (.ite Within.refl.wrBit Within.refl.wrBit)

theorem Within.updRecord (h : Within sc m0 m) {e k p} (hs : Touch.covers sc (Touch.issuing ++ parts [.linkHost,
    .mailbox, .sub]) := by decide +kernel) : Within sc m0 (m.updRecord e k p) := by
  refine h.andThen hs ?_
  unfold Hw.updRecord
  exact (.ite Within.refl.recordH Within.refl.record)

theorem Within.updateRec (h : Within sc m0 m) {event e x reason} (hs : Touch.covers sc (Touch.issuing ++ parts
    [.linkHost, .mailbox, .sub]) := by decide +kernel) : Within sc m0 (m.updateRec event e x reason) :=
  h.andThen hs Within.refl.updRecord

theorem Within.handoverRec (h : Within sc m0 m) {e outcome old new len us} (hs : Touch.covers sc (Touch.issuing ++
    parts [.linkHost, .mailbox, .sub]) := by decide +kernel) : Within sc m0 (m.handoverRec e outcome old new len us) :=
  h.andThen hs Within.refl.updRecord

theorem Within.lastReason (h : Within sc m0 m) {e why} (hs : Touch.covers sc (regs [Reg.HUPD_STATUS_LAST_REASON,
    Reg.UPD_STATUS_LAST_REASON]) := by decide +kernel) : Within sc m0 (m.lastReason e why) := by
  refine h.andThen hs ?_
  unfold Hw.lastReason
  exact (.ite Within.refl.wr Within.refl.wr)

theorem Within.rejected (h : Within sc m0 m) {e x why} (hs : Touch.covers sc (Touch.updateState)
    := by decide +kernel) : Within sc m0 (m.rejected e x why) := by
  refine h.andThen hs ?_
  unfold Hw.rejected
  exact (.sideFault_any (.lastReason (.ite Within.refl Within.refl.bump)))

theorem Within.showUpd (h : Within sc m0 m) (hs : Touch.covers sc (regs [Reg.UPD_STATUS_STATE,
    Reg.HUPD_STATUS_STATE, Reg.UPD_STATUS_ENGINE, Reg.UPD_STATUS_BLOCKS, Reg.UPD_NEXT_POS]) := by decide +kernel) :
    Within sc m0 m.showUpd := by
  refine h.andThen hs ?_
  unfold Hw.showUpd
  exact (by
    extract_lets
    split
    · exact (.ite Within.refl.wr.wr.wr Within.refl.wr.wr.wr.wr.wr)
    · exact Within.refl.wr.wr.wr)

theorem Within.runUpd (h : Within sc m0 m) {s code check act}
    (ha : ∀ m c, Within sc m0 m → Within sc m0 (act m c).1)
    (hs : Touch.covers sc Touch.answering := by decide +kernel) : Within sc m0 (m.runUpd s code check act) := by
  unfold Hw.runUpd
  exact .ite h (h.runCmd ha hs)

theorem Within.updBeginAct (h : Within sc m0 m) {c} (hs : Touch.covers sc (Touch.sessionEnd ++ parts [.slots])
    := by decide +kernel) : Within sc m0 (Machine.updBeginAct m c).1 := by
  refine h.andThen hs ?_
  unfold Machine.updBeginAct
  split
  · exact Within.refl
  · dsimp only
    exact Within.refl.putSlot.part_upd.showUpd

theorem Within.closeSession (h : Within sc m0 m) (hs : Touch.covers sc (Touch.sessionEnd) := by decide +kernel) :
    Within sc m0 m.closeSession :=
  h.andThen hs Within.refl.part_upd.showUpd

theorem Within.updChunkCheck (h : Within sc m0 m) {c} (hs : Touch.covers sc (Touch.updateState)
    := by decide +kernel) : Within sc m0 (Machine.updChunkCheck m c).1 := by
  refine h.andThen hs ?_
  unfold Machine.updChunkCheck
  exact (by
    split
    · exact Within.refl
    · exact (.ite_fst Within.refl (.ite_fst Within.refl (.ite_fst Within.refl.rejected Within.refl))))

theorem Within.takeChunk (h : Within sc m0 m) {s bs} (hs : Touch.covers sc (Touch.updateState ++ Touch.sessionEnd)
    := by decide +kernel) : Within sc m0 (m.takeChunk s bs).1 := by
  refine h.andThen hs ?_
  unfold Hw.takeChunk
  refine .ite_fst Within.refl.lastReason.showUpd (.ite_fst Within.refl.lastReason.showUpd (.ite_fst
    Within.refl.rejected.closeSession ?_))
  dsimp only
  exact Within.refl.part_upd.showUpd

theorem Within.updChunkAct (h : Within sc m0 m) {c} (hs : Touch.covers sc (Touch.updateState ++ Touch.sessionEnd)
    := by decide +kernel) : Within sc m0 (Machine.updChunkAct m c).1 := by
  refine h.andThen hs ?_
  unfold Machine.updChunkAct
  exact (by
    split
    · exact Within.refl
    · exact (.ite_fst Within.refl.takeChunk (.ite_fst Within.refl Within.refl)))

theorem Within.blockWrite (h : Within sc m0 m) {readsBack} (hs : Touch.covers sc (Touch.updateState ++
    Touch.sessionEnd ++ parts [.slots]) := by decide +kernel) : Within sc m0 (m.blockWrite readsBack) := by
  refine h.andThen hs ?_
  unfold Hw.blockWrite
  exact (by
    split
    · exact Within.refl
    · exact (.ite Within.refl (.ite Within.refl.rejected.closeSession (.ite Within.refl.part_upd.upd_slots.showUpd
      (.ite Within.refl.part_upd (.closeSession (.rejected (by
        split
        · exact Within.refl.hfaultW
        · exact Within.refl.faultW))))))))

theorem Within.updFinishAct (h : Within sc m0 m) {c} (hs : Touch.covers sc (Touch.updateState ++ Touch.issuing ++
    Touch.sessionEnd ++ parts [.slots, .linkHost, .mailbox, .sub]) := by decide +kernel) : Within sc m0
    (Machine.updFinishAct m c).1 := by
  refine h.andThen hs ?_
  unfold Machine.updFinishAct
  exact (by
    split
    · exact Within.refl
    · exact (.ite_fst (.ite Within.refl.putSlot.closeSession.updateRec.wr.wr
      Within.refl.putSlot.closeSession.updateRec.wr) Within.refl.putSlot.rejected.closeSession.updateRec))

theorem Within.updAbortAct (h : Within sc m0 m) {c} (hs : Touch.covers sc (Touch.sessionEnd ++ parts [.slots])
    := by decide +kernel) : Within sc m0 (Machine.updAbortAct m c).1 := by
  refine h.andThen hs ?_
  unfold Machine.updAbortAct
  exact (by
    split
    · exact Within.refl
    · exact Within.refl.putSlot.closeSession)

theorem Within.updQueryAct (h : Within sc m0 m) {c} (hs : Touch.covers sc ([]) := by decide +kernel) : Within sc m0
    (Machine.updQueryAct m c).1 := by
  refine h.andThen hs ?_
  unfold Machine.updQueryAct
  exact (by
    split
    · exact Within.refl
    · exact Within.refl)

theorem Within.activateCheck (h : Within sc m0 m) {revert c} (hs : Touch.covers sc (Touch.updateState)
    := by decide +kernel) : Within sc m0 (Machine.activateCheck revert m c).1 := by
  refine h.andThen hs ?_
  unfold Machine.activateCheck
  exact (by
    split
    · exact Within.refl
    · exact (by
        split
        · exact Within.refl
        · exact (.ite_fst Within.refl (.ite_fst Within.refl.lastReason (.ite_fst Within.refl (.ite_fst Within.refl
          Within.refl.rejected))))))

theorem Within.activateImage (h : Within sc m0 m) {c revert} (hs : Touch.covers sc (Touch.answering ++
    Touch.sessionEnd ++ Touch.slotSelect ++ parts [.slots]) := by decide +kernel) : Within sc m0 (m.activateImage c
    revert) := by
  refine h.andThen hs ?_
  unfold Hw.activateImage
  exact (by
    split
    · exact Within.refl
    · exact (.ite (.answerCmd (.ite Within.refl.slotState.slotState.selectSlot
      Within.refl.slotState.slotState.part_upd)) Within.refl.part_upd.setWork.showUpd))

theorem Within.runActivate (h : Within sc m0 m) {s code revert} (hs : Touch.covers sc (Touch.answering ++
    Touch.updateState ++ Touch.sessionEnd ++ Touch.slotSelect ++ parts [.slots]) := by decide +kernel) : Within sc
    m0 (m.runActivate s code revert) := by
  refine h.andThen hs ?_
  unfold Hw.runActivate
  exact (by
    split
    · exact Within.refl
    · exact (.ite Within.refl (by
        split
        · exact Within.refl.refuseCmd
        · exact (by
            extract_lets
            split
            · exact Within.refl.activateCheck.refuseCmd
            · exact Within.refl.activateCheck.activateImage))))

theorem Within.excuseHandover (h : Within sc m0 m) {e} (hs : Touch.covers sc (parts [.wdg, .hwdg])
    := by decide +kernel) : Within sc m0 (m.excuseHandover e) := by
  refine h.andThen hs ?_
  unfold Hw.excuseHandover
  exact (by
    split
    · exact Within.refl.part_wdg
    · exact Within.refl.part_hwdg)

theorem Within.answerHand (h : Within sc m0 m) {hx a} (hs : Touch.covers sc (Touch.answering) := by decide +kernel)
    : Within sc m0 (m.answerHand hx a) := by
  refine h.andThen hs ?_
  unfold Hw.answerHand
  exact (by
    split
    · exact Within.refl
    · exact (by
        split
        · exact Within.refl.answerCmd
        · exact Within.refl))

theorem Within.endHand (h : Within sc m0 m) {e} (hs : Touch.covers sc (Touch.issuing ++ Touch.railsFollow ++
    Touch.railSet ++ Touch.delivering ++ parts [.engines, .hostBusy, .bus, .waits, .rl, .sub] ++ regs
    [Reg.RAIL_STATUS_POL_OVR, Reg.RAIL_STATUS_QR_OVR, Reg.RL_STATUS_EVQ]) := by decide +kernel) : Within sc m0
    (m.endHand e) := by
  refine h.andThen hs ?_
  unfold Hw.endHand
  exact (.ite (.deliver (.serveWaits (.ite Within.refl.setEngine.host_busy Within.refl.setEngine))) (.ite (.f4Back
    (.serveWaits (.ite Within.refl.setEngine.host_busy Within.refl.setEngine))) (.serveWaits (.ite
    Within.refl.setEngine.host_busy Within.refl.setEngine))))

theorem Within.markProbation (h : Within sc m0 m) (hs : Touch.covers sc (parts [.slots, .update])
    := by decide +kernel) : Within sc m0 m.markProbation := by
  refine h.andThen hs ?_
  unfold Hw.markProbation
  exact (by
    split
    · exact (.ite Within.refl Within.refl.slotState.part_upd)
    · exact Within.refl)

theorem Within.showBundle (h : Within sc m0 m) (hs : Touch.covers sc (regs [Reg.ID_BUNDLE_VERSION])
    := by decide +kernel) : Within sc m0 m.showBundle :=
  h.andThen hs Within.refl.wr

theorem Within.showProb (h : Within sc m0 m) (hs : Touch.covers sc (regs [Reg.UPD_PROB_FRAMES])
    := by decide +kernel) : Within sc m0 m.showProb := by
  refine h.andThen hs ?_
  unfold Hw.showProb
  exact (by
    split
    · exact (.ite Within.refl.wr Within.refl)
    · exact Within.refl)

theorem Within.rollback (h : Within sc m0 m) {hx cause} (hs : Touch.covers sc (Touch.sideFault ++ Touch.issuing ++
    Touch.sessionEnd ++ Touch.slotSelect ++ parts [.slots, .linkHost, .mailbox, .sub] ++ regs [Reg.HUPD_SEL_PROB,
    Reg.UPD_SEL_PROB, Reg.UPD_PROB_FRAMES, Reg.UPD_EVENTS_ROLLBACKS]) := by decide +kernel) : Within sc m0
    (m.rollback hx cause) := by
  refine h.andThen hs ?_
  unfold Hw.rollback
  exact (.showUpd (.updateRec (.handoverRec (.sideFault_any (.ite
    Within.refl.part_upd.slotState.probBit.selectSlot.wr.bump
    Within.refl.part_upd.slotState.probBit.selectSlot.wr)))))

theorem Within.probEnds (h : Within sc m0 m) {e cause} (hs : Touch.covers sc (Touch.sideFault ++ Touch.issuing ++
    Touch.sessionEnd ++ Touch.slotSelect ++ parts [.slots, .linkHost, .mailbox, .sub] ++ regs [Reg.HUPD_SEL_PROB,
    Reg.UPD_SEL_PROB, Reg.UPD_PROB_FRAMES, Reg.UPD_EVENTS_ROLLBACKS]) := by decide +kernel) : Within sc m0
    (m.probEnds e cause) := by
  refine h.andThen hs ?_
  unfold Hw.probEnds
  exact (by
    split
    · exact (.ite Within.refl.rollback Within.refl)
    · exact Within.refl)

theorem Within.alertEnabled (h : Within sc m0 m) {before} (hs : Touch.covers sc (parts [.alertPad])
    := by decide +kernel) : Within sc m0 (m.alertEnabled before) := by
  refine h.andThen hs ?_
  unfold Hw.alertEnabled
  exact (.alertSettle (.ite Within.refl.host_alert Within.refl))

theorem Within.hostControl (h : Within sc m0 m) {a act en} (hs : Touch.covers sc (Touch.answering ++ Touch.draining
    ++ Touch.contractGone ++ Touch.loopBackStart ++ Touch.unmarked ++ parts [.bist, .latches, .xfer, .modes,
    .intake, .seq] ++ regs [Reg.MBX_CTL_RES_PAGE, Reg.MBX_STATUS_LREJ, Reg.MBX_EVENTS_LREJS, Reg.MBX_LAST_SEQ_SEQ,
    Reg.MBX_EVENTS_RESENDS, Reg.HOST_RESEND_ABSORBED, Reg.HOST_RESEND_GAPS, Reg.HOST_RESEND_STALE,
    Reg.INTAKE_LIM_EFF_LIM, Reg.INTAKE_LIM_EFF_CAUSE, Reg.XFER_STATUS_LATCHED, Reg.CBL_STATUS_SRC_PERMIT,
    Reg.INTAKE_STATUS_ACTIVE, Reg.INTAKE_STATUS_SRC_CHANGE, Reg.INTAKE_EVENTS_SWITCHOVERS, Reg.INTAKE_STATUS_RAMP,
    Reg.CBL_STATUS_FS_MODE, Reg.CBL_STATUS_VCONN, Reg.CBL_STATUS_DFP, Reg.CBL_STATUS_RP, Reg.CBL_PARTNER_REV,
    Reg.CBL_PARTNER_DRP, Reg.CBL_PARTNER_EPR_CAP, Reg.CBL_PARTNER_FRS_REQ, Reg.CBL_STATUS_STATE,
    Reg.CBL_EVENTS_ERR_RECOV]) := by decide +kernel) : Within sc m0 (m.hostControl a act en) := by
  refine h.andThen hs ?_
  unfold Hw.hostControl
  exact (.ite Within.refl.alertSettle (.ite Within.refl.alertEnabled (.ite (.ite Within.refl.askBurn Within.refl)
    (.ite (.ite Within.refl.lbStart Within.refl) (.ite (.ite (.submit (.ite Within.refl.showResult.popResult
    Within.refl.showResult)) (.ite Within.refl.showResult.popResult Within.refl.showResult)) (.ite
    Within.refl.limitWrite (.ite (.ite Within.refl.xferClrLatch Within.refl) (.ite Within.refl.portFlags (.ite (.ite
    (.leaveShare (.ite (.cblFsEnter (.ite (.endRole (.ite Within.refl.cblPrSwap Within.refl)) (.ite
    Within.refl.cblPrSwap Within.refl))) (.ite (.endRole (.ite Within.refl.cblPrSwap Within.refl)) (.ite
    Within.refl.cblPrSwap Within.refl)))) (.ite (.cblFsEnter (.ite (.endRole (.ite Within.refl.cblPrSwap Within.refl))
    (.ite Within.refl.cblPrSwap Within.refl))) (.ite (.endRole (.ite Within.refl.cblPrSwap Within.refl)) (.ite
    Within.refl.cblPrSwap Within.refl)))) (.ite (.ite Within.refl.drnGo Within.refl) Within.refl))))))))))

theorem Within.writeHostWord (h : Within sc m0 m) {a mask value} (hs : Touch.covers sc (Touch.answering ++
    Touch.draining ++ Touch.contractGone ++ Touch.loopBackStart ++ Touch.unmarked ++ parts [.bist, .latches, .xfer,
    .modes, .intake, .seq] ++ regs [Reg.MBX_CTL_RES_PAGE, Reg.MBX_STATUS_LREJ, Reg.MBX_EVENTS_LREJS,
    Reg.MBX_LAST_SEQ_SEQ, Reg.MBX_EVENTS_RESENDS, Reg.HOST_RESEND_ABSORBED, Reg.HOST_RESEND_GAPS,
    Reg.HOST_RESEND_STALE, Reg.INTAKE_LIM_EFF_LIM, Reg.INTAKE_LIM_EFF_CAUSE, Reg.XFER_STATUS_LATCHED,
    Reg.CBL_STATUS_SRC_PERMIT, Reg.INTAKE_STATUS_ACTIVE, Reg.INTAKE_STATUS_SRC_CHANGE,
    Reg.INTAKE_EVENTS_SWITCHOVERS, Reg.INTAKE_STATUS_RAMP, Reg.CBL_STATUS_FS_MODE, Reg.CBL_STATUS_VCONN,
    Reg.CBL_STATUS_DFP, Reg.CBL_STATUS_RP, Reg.CBL_PARTNER_REV, Reg.CBL_PARTNER_DRP, Reg.CBL_PARTNER_EPR_CAP,
    Reg.CBL_PARTNER_FRS_REQ, Reg.CBL_STATUS_STATE, Reg.CBL_EVENTS_ERR_RECOV] ++ arrays [Reg.UPD_WIN_DATA] ++
    [.fieldSide, .hostSide]) := by decide +kernel) : Within sc m0 (m.writeHostWord a mask value) := by
  refine h.andThen hs ?_
  unfold Hw.writeHostWord
  exact (.ite Within.refl (.ite (.foldl Within.refl fun _ _ h1 => (.ite h1 h1.fillWindow)) (.hostControl (.foldl
    Within.refl fun _ _ h1 => (h1.writeField (Touch.within_bothSides (by decide +kernel)))))))

theorem Within.dozeNack (h : Within sc m0 m) (hs : Touch.covers sc (Touch.portNack) := by decide +kernel) : Within
    sc m0 m.dozeNack := by
  refine h.andThen hs ?_
  unfold Hw.dozeNack
  exact (.ite Within.refl.bump.hcoreWake.part_hp Within.refl.bump)

theorem Within.setPointer (h : Within sc m0 m) {p} (hs : Touch.covers sc (parts [.hp]) := by decide +kernel) :
    Within sc m0 (m.setPointer p) :=
  h.andThen hs Within.refl.part_hp

theorem Within.applyBytes (h : Within sc m0 m) {ptr data} (hs : Touch.covers sc (Touch.answering ++ Touch.draining
    ++ Touch.contractGone ++ Touch.loopBackStart ++ Touch.unmarked ++ parts [.bist, .latches, .xfer, .modes,
    .intake, .seq] ++ regs [Reg.MBX_CTL_RES_PAGE, Reg.MBX_STATUS_LREJ, Reg.MBX_EVENTS_LREJS, Reg.MBX_LAST_SEQ_SEQ,
    Reg.MBX_EVENTS_RESENDS, Reg.HOST_RESEND_ABSORBED, Reg.HOST_RESEND_GAPS, Reg.HOST_RESEND_STALE,
    Reg.INTAKE_LIM_EFF_LIM, Reg.INTAKE_LIM_EFF_CAUSE, Reg.XFER_STATUS_LATCHED, Reg.CBL_STATUS_SRC_PERMIT,
    Reg.INTAKE_STATUS_ACTIVE, Reg.INTAKE_STATUS_SRC_CHANGE, Reg.INTAKE_EVENTS_SWITCHOVERS, Reg.INTAKE_STATUS_RAMP,
    Reg.CBL_STATUS_FS_MODE, Reg.CBL_STATUS_VCONN, Reg.CBL_STATUS_DFP, Reg.CBL_STATUS_RP, Reg.CBL_PARTNER_REV,
    Reg.CBL_PARTNER_DRP, Reg.CBL_PARTNER_EPR_CAP, Reg.CBL_PARTNER_FRS_REQ, Reg.CBL_STATUS_STATE,
    Reg.CBL_EVENTS_ERR_RECOV] ++ arrays [Reg.UPD_WIN_DATA] ++ [.fieldSide, .hostSide]) := by decide +kernel) :
    Within sc m0 (m.applyBytes ptr data) := by
  refine h.andThen hs ?_
  unfold Hw.applyBytes
  exact (.foldl Within.refl fun _ _ h1 => h1.writeHostWord)

theorem Within.writeData (h : Within sc m0 m) {ptr data past} (hs : Touch.covers sc (Touch.answering ++
    Touch.draining ++ Touch.contractGone ++ Touch.loopBackStart ++ Touch.unmarked ++ parts [.bist, .latches, .xfer,
    .modes, .intake, .seq, .hp] ++ regs [Reg.MBX_CTL_RES_PAGE, Reg.MBX_STATUS_LREJ, Reg.MBX_EVENTS_LREJS,
    Reg.MBX_LAST_SEQ_SEQ, Reg.MBX_EVENTS_RESENDS, Reg.HOST_RESEND_ABSORBED, Reg.HOST_RESEND_GAPS,
    Reg.HOST_RESEND_STALE, Reg.INTAKE_LIM_EFF_LIM, Reg.INTAKE_LIM_EFF_CAUSE, Reg.XFER_STATUS_LATCHED,
    Reg.CBL_STATUS_SRC_PERMIT, Reg.INTAKE_STATUS_ACTIVE, Reg.INTAKE_STATUS_SRC_CHANGE,
    Reg.INTAKE_EVENTS_SWITCHOVERS, Reg.INTAKE_STATUS_RAMP, Reg.CBL_STATUS_FS_MODE, Reg.CBL_STATUS_VCONN,
    Reg.CBL_STATUS_DFP, Reg.CBL_STATUS_RP, Reg.CBL_PARTNER_REV, Reg.CBL_PARTNER_DRP, Reg.CBL_PARTNER_EPR_CAP,
    Reg.CBL_PARTNER_FRS_REQ, Reg.CBL_STATUS_STATE, Reg.CBL_EVENTS_ERR_RECOV, Reg.HP_EVENTS_PAGE_NACKS] ++ arrays
    [Reg.UPD_WIN_DATA] ++ [.fieldSide, .hostSide]) := by decide +kernel) : Within sc m0 (m.writeData ptr data past) :=
      by
  refine h.andThen hs ?_
  unfold Hw.writeData
  exact (.ite Within.refl.applyBytes.bump.setPointer Within.refl.applyBytes.setPointer)

theorem Within.writeTransfer (h : Within sc m0 m) {addr bytes} (hs : Touch.covers sc (Touch.answering ++
    Touch.draining ++ Touch.contractGone ++ Touch.loopBackStart ++ Touch.unmarked ++ parts [.bist, .latches, .xfer,
    .modes, .intake, .seq, .hp] ++ regs [Reg.HP_EVENTS_PAGE_NACKS, Reg.HP_EVENTS2_PEC_ERRS, Reg.HP_STATUS_ERR_EVT,
    Reg.MBX_CTL_RES_PAGE, Reg.MBX_STATUS_LREJ, Reg.MBX_EVENTS_LREJS, Reg.MBX_LAST_SEQ_SEQ, Reg.MBX_EVENTS_RESENDS,
    Reg.HOST_RESEND_ABSORBED, Reg.HOST_RESEND_GAPS, Reg.HOST_RESEND_STALE, Reg.INTAKE_LIM_EFF_LIM,
    Reg.INTAKE_LIM_EFF_CAUSE, Reg.XFER_STATUS_LATCHED, Reg.CBL_STATUS_SRC_PERMIT, Reg.INTAKE_STATUS_ACTIVE,
    Reg.INTAKE_STATUS_SRC_CHANGE, Reg.INTAKE_EVENTS_SWITCHOVERS, Reg.INTAKE_STATUS_RAMP, Reg.CBL_STATUS_FS_MODE,
    Reg.CBL_STATUS_VCONN, Reg.CBL_STATUS_DFP, Reg.CBL_STATUS_RP, Reg.CBL_PARTNER_REV, Reg.CBL_PARTNER_DRP,
    Reg.CBL_PARTNER_EPR_CAP, Reg.CBL_PARTNER_FRS_REQ, Reg.CBL_STATUS_STATE, Reg.CBL_EVENTS_ERR_RECOV] ++ arrays
    [Reg.UPD_WIN_DATA] ++ [.fieldSide, .hostSide]) := by decide +kernel) : Within sc m0 (m.writeTransfer addr bytes)
      := by
  refine h.andThen hs ?_
  unfold Hw.writeTransfer
  exact (.ite (.ite Within.refl (.ite (.hfault (.wr (.bump (.ite Within.refl.bump Within.refl)))) (.ite Within.refl
    Within.refl.writeData))) (.ite Within.refl Within.refl.writeData))

theorem Within.readRun (h : Within sc m0 m) {x1 x2 x3} (hs : Touch.covers sc (parts [.modes] ++ [.fieldSide,
    .hostSide]) := by decide +kernel) : Within sc m0 (m.readRun x1 x2 x3).1 := by
  refine h.andThen hs ?_
  clear h hs
  induction x1 generalizing m x2 x3 with
  | zero =>
    rw [Hw.readRun]
    exact Within.refl
  | succ x1 ih =>
    rw [Hw.readRun]
    exact (.ite_fst Within.refl (.trans (.ite Within.refl (.foldl Within.refl fun _ _ h1 => (h1.clearRead
      (Touch.within_bothSides (by decide +kernel))))) (ih ..)))

theorem Within.sendClears (h : Within sc m0 m) {frn x2 x3} (hs : Touch.covers sc (parts [.linkHost, .mailbox])
    := by decide +kernel) : Within sc m0 (m.sendClears frn x2 x3) := by
  refine h.andThen hs ?_
  clear h hs
  induction x2 generalizing m frn x3 with
  | zero =>
    rw [Hw.sendClears]
    exact Within.refl
  | succ x2 ih =>
    rw [Hw.sendClears]
    exact (.ite Within.refl (.trans Within.refl.sendH (ih ..)))

theorem Within.readTransfer (h : Within sc m0 m) {addr count} (hs : Touch.covers sc (parts [.modes, .hp, .linkHost,
    .mailbox] ++ regs [Reg.HP_RDCRC_CRC] ++ [.fieldSide, .hostSide]) := by decide +kernel) : Within sc m0
    (m.readTransfer addr count) := by
  refine h.andThen hs ?_
  unfold Hw.readTransfer
  exact (.sendClears (.ite Within.refl.readRun.part_hp.setPointer Within.refl.readRun.part_hp.setPointer.wr))

theorem Within.busError (h : Within sc m0 m) {bit read stop} (hs : Touch.covers sc (Touch.hostFault ++ regs
    [Reg.HP_EVENTS_BUS_ERRS, Reg.HP_STATUS_ERR_EVT]) := by decide +kernel) : Within sc m0 (m.busError bit read stop) :=
  h.andThen hs Within.refl.bump.wr.hfault

theorem Within.noteLseq (h : Within sc m0 m) {n} (hs : Touch.covers sc (parts [.twin]) := by decide +kernel) :
    Within sc m0 (m.noteLseq n) := by
  refine h.andThen hs ?_
  unfold Hw.noteLseq
  exact Within.refl.part_twin

theorem Within.takeTwm (h : Within sc m0 m) {x} {act : Hw → Hw} (ha : ∀ m, Within sc m0 m → Within sc m0 (act m))
    (hs : Touch.covers sc Touch.twinTaking := by decide +kernel) : Within sc m0 (m.takeTwm x act) := by
  unfold Hw.takeTwm
  exact .ite h (.ite (h.andThen hs Within.refl.noteLseq.trySendTwin.bump.fault)
    (ha _ (h.andThen hs Within.refl.noteLseq.wr)))

theorem Within.submitRing (h : Within sc m0 m) (hs : Touch.covers sc (Touch.issuing ++ parts [.twin, .sub] ++ regs
    [Reg.TWN_PEND_BYTES]) := by decide +kernel) : Within sc m0 m.submitRing := by
  refine h.andThen hs ?_
  unfold Hw.submitRing
  exact (.foldl Within.refl.part_twin.wr fun _ _ h1 => h1.submitRec)

theorem Within.startResync (h : Within sc m0 m) (hs : Touch.covers sc (Touch.issuing ++ parts [.twin, .adc, .bus,
    .waits, .sub] ++ regs [Reg.TWN_STATUS_RESYNC]) := by decide +kernel) : Within sc m0 m.startResync :=
  h.andThen hs Within.refl.endTwin.wr.part_twin.trySendTwin

theorem Within.endResync (h : Within sc m0 m) (hs : Touch.covers sc (Touch.resigning ++ parts [.adc, .bus, .waits]
    ++ regs [Reg.TWN_STATUS_RESYNC, Reg.TWN_PEND_BYTES]) := by decide +kernel) : Within sc m0 m.endResync := by
  refine h.andThen hs ?_
  unfold Hw.endResync
  exact (.ite Within.refl.wr.part_twin.endTwin.toRole.submitRing Within.refl)

theorem Within.bar (h : Within sc m0 m) {cause} (hs : Touch.covers sc (Touch.resigning ++ regs
    [Reg.TWN_STATUS_RESYNC]) := by decide +kernel) : Within sc m0 (m.bar cause) :=
  h.andThen hs Within.refl.wr.part_twin.toRole

theorem Within.pairMismatch (h : Within sc m0 m) (hs : Touch.covers sc (Touch.resigning ++ parts [.faultInput] ++
    regs [Reg.TWN_STATUS_RESYNC, Reg.FLT_STATUS_LOST]) := by decide +kernel) : Within sc m0 m.pairMismatch :=
  h.andThen hs Within.refl.bar.fault

theorem Within.serveResync (h : Within sc m0 m) {x1} (hs : Touch.covers sc (Touch.issuing ++ parts [.twin])
    := by decide +kernel) : Within sc m0 (m.serveResync x1) := by
  refine h.andThen hs ?_
  clear h hs
  induction x1 generalizing m with
  | zero =>
    rw [Hw.serveResync]
    exact Within.refl
  | succ x1 ih =>
    rw [Hw.serveResync]
    exact (by
      split
      · exact Within.refl
      · exact (.ite Within.refl (by
          split
          · exact Within.refl
          · exact (by
              split
              · exact Within.refl
              · next m1 he1 => exact (.trans (Within.refl.sendTwin he1).part_twin (ih ..))))))

theorem Within.claim (h : Within sc m0 m) (hs : Touch.covers sc (Touch.resigning ++ regs [Reg.TWN_EPOCH_EPOCH,
    Reg.TWN_STATUS_LINK, Reg.JRN_NEXT_JSN, Reg.TWN_PEND_BYTES]) := by decide +kernel) : Within sc m0 m.claim := by
  refine h.andThen hs ?_
  unfold Hw.claim
  exact Within.refl.wr.wr.part_twin.toRole.takeSealing.submitRing

theorem Within.defer (h : Within sc m0 m) (hs : Touch.covers sc (Touch.resigning ++ regs [Reg.TWN_STATUS_LINK])
    := by decide +kernel) : Within sc m0 m.defer :=
  h.andThen hs Within.refl.wr.wr.part_twin.toRole

theorem Within.withdrawOne (h : Within sc m0 m) {x} (hs : Touch.covers sc (Touch.answering ++ parts [.twin] ++ regs
    [Reg.JRN_STAGE_STAGED, Reg.TKT_EVENTS_VOIDED]) := by decide +kernel) : Within sc m0 (m.withdrawOne x) := by
  refine h.andThen hs ?_
  unfold Hw.withdrawOne
  exact (by
    dsimp only
    split
    · exact Within.refl.wr.endTwin
    · exact (by
        split
        · exact Within.refl.wr.endTwin.answerCmd
        · exact Within.refl.wr.endTwin.voidTickets.dropTicket))

theorem Within.withdrawAll (h : Within sc m0 m) (hs : Touch.covers sc (Touch.answering ++ parts [.twin] ++ regs
    [Reg.JRN_NEXT_JSN, Reg.JRN_STAGE_STAGED, Reg.TKT_EVENTS_VOIDED]) := by decide +kernel) : Within sc m0
    m.withdrawAll := by
  refine h.andThen hs ?_
  unfold Hw.withdrawAll
  exact (by
    split
    · exact Within.refl
    · exact (.foldl Within.refl.wr.part_twin fun _ _ h2 => h2.withdrawOne))

theorem Within.dualLead (h : Within sc m0 m) (hs : Touch.covers sc (Touch.fenceLifted ++ Touch.appending ++
    Touch.resigning ++ Touch.loopBackStart ++ Touch.nandShown ++ Touch.railsFollow ++ Touch.entriesClosed ++ parts
    [.bat, .nand, .bist, .calCopies, .cfgCopies, .stopped] ++ regs [Reg.TWN_STATUS_RESYNC, Reg.PH_STATUS_LATCHED,
    Reg.RAIL_STATUS_POL_LATCHED, Reg.ADC_STATUS_FGCAL, Reg.SB_STATUS_MULTI, Reg.JRN_COMMIT_JSN,
    Reg.JRN_SEALED_EPOCH, Reg.JRN_RELEASED_EPOCH, Reg.TWN_EPOCH_EPOCH, Reg.TWN_STATUS_SEQ_ID, Reg.TWN_LAST_FRN,
    Reg.FI_CTL_ARM, Reg.RTC_SEC_TAI, Reg.RTC_SUB_SUB, Reg.RTC_UTC_OFFSET, Reg.RTC_STATUS_VALID,
    Reg.RTC_STATUS_SET_EVT, Reg.SVC_STATUS_FAILS, Reg.SVC_STATUS_KEY_ENROLLED, Reg.SVC_STATUS_REQ_SIGNED,
    Reg.MODE_STATUS_PWR_REQ] ++ [.fieldSide, .hostSide]) := by decide +kernel) : Within sc m0 m.dualLead := by
  refine h.andThen hs ?_
  unfold Hw.dualLead
  exact (.ite Within.refl.fault.part_twin.withdrawAll.wr.toRole.startResync
    Within.refl.fault.part_twin.acceptReserved.wr.failoverRec.appendMany.bar)

theorem Within.leadAgain (h : Within sc m0 m) {mirrorWm} (hs : Touch.covers sc (Touch.resigning ++ regs
    [Reg.TWN_WMARK_JSN]) := by decide +kernel) : Within sc m0 (m.leadAgain mirrorWm) := by
  refine h.andThen hs ?_
  unfold Hw.leadAgain
  exact (.ite Within.refl.wr.toRole.part_twin Within.refl)

theorem Within.heartbeatLost (h : Within sc m0 m) (hs : Touch.covers sc (Touch.fenceLifted ++ Touch.resigning ++
    Touch.loopBackStart ++ Touch.nandShown ++ Touch.railsFollow ++ Touch.entriesClosed ++ parts [.journal, .bat,
    .nand, .bist, .calCopies, .cfgCopies, .stopped] ++ regs [Reg.TWN_HB_LOST, Reg.TWN_STATUS_LINK,
    Reg.JRN_STAGE_STAGED, Reg.PH_STATUS_LATCHED, Reg.RAIL_STATUS_POL_LATCHED, Reg.ADC_STATUS_FGCAL,
    Reg.SB_STATUS_MULTI, Reg.JRN_NEXT_JSN, Reg.JRN_COMMIT_JSN, Reg.JRN_SEALED_EPOCH, Reg.JRN_RELEASED_EPOCH,
    Reg.TWN_STATUS_RESYNC, Reg.TWN_EPOCH_EPOCH, Reg.TWN_STATUS_SEQ_ID, Reg.TWN_LAST_FRN, Reg.TWN_PEND_BYTES,
    Reg.FI_CTL_ARM, Reg.RTC_SEC_TAI, Reg.RTC_SUB_SUB, Reg.RTC_UTC_OFFSET, Reg.RTC_STATUS_VALID,
    Reg.RTC_STATUS_SET_EVT, Reg.SVC_STATUS_FAILS, Reg.SVC_STATUS_KEY_ENROLLED, Reg.SVC_STATUS_REQ_SIGNED,
    Reg.MODE_STATUS_PWR_REQ] ++ [.fieldSide, .hostSide]) := by decide +kernel) : Within sc m0 m.heartbeatLost := by
  refine h.andThen hs ?_
  unfold Hw.heartbeatLost
  exact (.ite Within.refl (.ite (.acceptReserved (.toRole (.ite Within.refl.bump.fault.part_twin.wr
    Within.refl.bump.fault.part_twin))) (.ite (.toRole (.wr (.ite Within.refl.bump.fault.part_twin.wr
    Within.refl.bump.fault.part_twin))) (.ite Within.refl.bump.fault.part_twin.wr Within.refl.bump.fault.part_twin))))

theorem Within.reenter (h : Within sc m0 m) (hs : Touch.covers sc (parts [.twin, .sub]) := by decide +kernel) :
    Within sc m0 m.reenter := by
  refine h.andThen hs ?_
  unfold Hw.reenter
  exact (.edits Within.refl [.twin, .sub])

theorem Within.promote (h : Within sc m0 m) (hs : Touch.covers sc (Touch.resigning ++ parts [.adc, .bus, .waits,
    .faultInput, .seq] ++ regs [Reg.JRN_NEXT_JSN, Reg.TWN_EPOCH_EPOCH, Reg.TWN_STATUS_RESYNC, Reg.TWN_HB_FAILOVERS,
    Reg.TWN_LAST_FRN, Reg.FLT_STATUS_LOST, Reg.FRM_STATUS_LOSS, Reg.TWN_PEND_BYTES]) := by decide +kernel) : Within
    sc m0 m.promote := by
  refine h.andThen hs ?_
  unfold Hw.promote
  exact (.submitRing (.ite
    Within.refl.endTwin.reenter.takeSealing.wr.wr.toRole.failoverRec.bump.wr.fault.part_twin.setTrack.syncLost
    Within.refl.endTwin.reenter.takeSealing.wr.wr.toRole.failoverRec.bump.wr.fault.part_twin.setTrack))

theorem Within.markMirror (h : Within sc m0 m) (hs : Touch.covers sc (regs [Reg.TWN_WMARK_JSN])
    := by decide +kernel) : Within sc m0 m.markMirror := by
  refine h.andThen hs ?_
  unfold Hw.markMirror
  exact (.ite Within.refl Within.refl.wr)

theorem Within.stageMirrored (h : Within sc m0 m) {r} (hs : Touch.covers sc (Touch.fenceLifted ++ Touch.resigning ++
    Touch.loopBackStart ++ Touch.nandShown ++ Touch.railsFollow ++ Touch.entriesClosed ++ parts [.journal, .bat,
    .nand, .bist, .calCopies, .cfgCopies, .stopped] ++ regs [Reg.JRN_NEXT_JSN, Reg.JRN_STAGE_STAGED,
    Reg.PH_STATUS_LATCHED, Reg.RAIL_STATUS_POL_LATCHED, Reg.ADC_STATUS_FGCAL, Reg.SB_STATUS_MULTI,
    Reg.JRN_COMMIT_JSN, Reg.JRN_SEALED_EPOCH, Reg.JRN_RELEASED_EPOCH, Reg.TWN_STATUS_RESYNC, Reg.TWN_EPOCH_EPOCH,
    Reg.TWN_STATUS_SEQ_ID, Reg.TWN_LAST_FRN, Reg.TWN_PEND_BYTES, Reg.FI_CTL_ARM, Reg.RTC_SEC_TAI, Reg.RTC_SUB_SUB,
    Reg.RTC_UTC_OFFSET, Reg.RTC_STATUS_VALID, Reg.RTC_STATUS_SET_EVT, Reg.SVC_STATUS_FAILS,
    Reg.SVC_STATUS_KEY_ENROLLED, Reg.SVC_STATUS_REQ_SIGNED, Reg.MODE_STATUS_PWR_REQ, Reg.TWN_WMARK_JSN] ++
    [.fieldSide, .hostSide]) := by decide +kernel) : Within sc m0 (m.stageMirrored r) := by
  refine h.andThen hs ?_
  unfold Hw.stageMirrored
  exact (.markMirror (.ite (.wr (.ite (.release (by
    split
    · exact Within.refl.wr.part_twin.endTwin.acceptAt
    · exact Within.refl.wr.stage)) (by
    split
    · exact Within.refl.wr.part_twin.endTwin.acceptAt
    · exact Within.refl.wr.stage))) (.ite (.release (by
    split
    · exact Within.refl.wr.part_twin.endTwin.acceptAt
    · exact Within.refl.wr.stage)) (by
    split
    · exact Within.refl.wr.part_twin.endTwin.acceptAt
    · exact Within.refl.wr.stage))))

theorem Within.acceptTo (h : Within sc m0 m) {jsn x2} (hs : Touch.covers sc (Touch.fenceLifted ++ Touch.resigning ++
    Touch.loopBackStart ++ Touch.nandShown ++ Touch.railsFollow ++ Touch.entriesClosed ++ parts [.journal, .bat,
    .nand, .bist, .calCopies, .cfgCopies, .stopped] ++ regs [Reg.JRN_STAGE_STAGED, Reg.PH_STATUS_LATCHED,
    Reg.RAIL_STATUS_POL_LATCHED, Reg.ADC_STATUS_FGCAL, Reg.SB_STATUS_MULTI, Reg.JRN_NEXT_JSN, Reg.JRN_COMMIT_JSN,
    Reg.JRN_SEALED_EPOCH, Reg.JRN_RELEASED_EPOCH, Reg.TWN_STATUS_RESYNC, Reg.TWN_EPOCH_EPOCH, Reg.TWN_STATUS_SEQ_ID,
    Reg.TWN_LAST_FRN, Reg.TWN_PEND_BYTES, Reg.FI_CTL_ARM, Reg.RTC_SEC_TAI, Reg.RTC_SUB_SUB, Reg.RTC_UTC_OFFSET,
    Reg.RTC_STATUS_VALID, Reg.RTC_STATUS_SET_EVT, Reg.SVC_STATUS_FAILS, Reg.SVC_STATUS_KEY_ENROLLED,
    Reg.SVC_STATUS_REQ_SIGNED, Reg.MODE_STATUS_PWR_REQ] ++ [.fieldSide, .hostSide]) := by decide +kernel) : Within
    sc m0 (m.acceptTo jsn x2) := by
  refine h.andThen hs ?_
  clear h hs
  induction x2 generalizing m jsn with
  | zero =>
    rw [Hw.acceptTo]
    exact Within.refl
  | succ x2 ih =>
    rw [Hw.acceptTo]
    exact (by
      split
      · exact Within.refl
      · exact (.ite (.trans Within.refl.acceptFront (ih ..)) Within.refl))

theorem Within.settleTakeover (h : Within sc m0 m) {take} (hs : Touch.covers sc (Touch.fenceLifted ++
    Touch.resigning ++ Touch.loopBackStart ++ Touch.nandShown ++ Touch.railsFollow ++ Touch.entriesClosed ++ parts
    [.journal, .bat, .nand, .bist, .calCopies, .cfgCopies, .stopped] ++ regs [Reg.JRN_STAGE_STAGED,
    Reg.PH_STATUS_LATCHED, Reg.RAIL_STATUS_POL_LATCHED, Reg.ADC_STATUS_FGCAL, Reg.SB_STATUS_MULTI, Reg.JRN_NEXT_JSN,
    Reg.JRN_COMMIT_JSN, Reg.JRN_SEALED_EPOCH, Reg.JRN_RELEASED_EPOCH, Reg.TWN_STATUS_RESYNC, Reg.TWN_EPOCH_EPOCH,
    Reg.TWN_STATUS_SEQ_ID, Reg.TWN_LAST_FRN, Reg.TWN_PEND_BYTES, Reg.FI_CTL_ARM, Reg.RTC_SEC_TAI, Reg.RTC_SUB_SUB,
    Reg.RTC_UTC_OFFSET, Reg.RTC_STATUS_VALID, Reg.RTC_STATUS_SET_EVT, Reg.SVC_STATUS_FAILS,
    Reg.SVC_STATUS_KEY_ENROLLED, Reg.SVC_STATUS_REQ_SIGNED, Reg.MODE_STATUS_PWR_REQ] ++ [.fieldSide, .hostSide])
    := by decide +kernel) : Within sc m0 (m.settleTakeover take) := by
  refine h.andThen hs ?_
  unfold Hw.settleTakeover
  exact (.withdrawAll (.ite Within.refl.acceptTo Within.refl))

theorem Within.resyncRec (h : Within sc m0 m) {r} (hs : Touch.covers sc (Touch.fenceLifted ++ Touch.resigning ++
    Touch.loopBackStart ++ Touch.nandShown ++ Touch.railsFollow ++ Touch.entriesClosed ++ parts [.journal, .bat,
    .nand, .bist, .calCopies, .cfgCopies, .stopped, .freeCtr] ++ regs [Reg.JRN_STAGE_STAGED, Reg.PH_STATUS_LATCHED,
    Reg.RAIL_STATUS_POL_LATCHED, Reg.ADC_STATUS_FGCAL, Reg.SB_STATUS_MULTI, Reg.JRN_NEXT_JSN, Reg.JRN_COMMIT_JSN,
    Reg.JRN_SEALED_EPOCH, Reg.JRN_RELEASED_EPOCH, Reg.TWN_STATUS_RESYNC, Reg.TWN_EPOCH_EPOCH, Reg.TWN_STATUS_SEQ_ID,
    Reg.TWN_LAST_FRN, Reg.TWN_PEND_BYTES, Reg.FI_CTL_ARM, Reg.RTC_SEC_TAI, Reg.RTC_SUB_SUB, Reg.RTC_UTC_OFFSET,
    Reg.RTC_STATUS_VALID, Reg.RTC_STATUS_SET_EVT, Reg.SVC_STATUS_FAILS, Reg.SVC_STATUS_KEY_ENROLLED,
    Reg.SVC_STATUS_REQ_SIGNED, Reg.MODE_STATUS_PWR_REQ, Reg.TWN_WMARK_JSN] ++ [.fieldSide, .hostSide])
    := by decide +kernel) : Within sc m0 (m.resyncRec r) := by
  refine h.andThen hs ?_
  unfold Hw.resyncRec
  exact (.ite (by
    split
    · exact (.ite (.ite (.acceptFront (.ite Within.refl.settleTakeover Within.refl)) (.withdrawAll (.ite
      Within.refl.settleTakeover Within.refl))) (.ite Within.refl.settleTakeover Within.refl))
    · exact (.ite Within.refl.settleTakeover Within.refl)) (.ite (.stageMirrored (.drew (.part_jrn (by
    split
    · exact (.ite (.ite (.acceptFront (.ite Within.refl.settleTakeover Within.refl)) (.withdrawAll (.ite
      Within.refl.settleTakeover Within.refl))) (.ite Within.refl.settleTakeover Within.refl))
    · exact (.ite Within.refl.settleTakeover Within.refl))))) (.stageMirrored (by
    split
    · exact (.ite (.ite (.acceptFront (.ite Within.refl.settleTakeover Within.refl)) (.withdrawAll (.ite
      Within.refl.settleTakeover Within.refl))) (.ite Within.refl.settleTakeover Within.refl))
    · exact (.ite Within.refl.settleTakeover Within.refl)))))

theorem Within.renumber (h : Within sc m0 m) (hs : Touch.covers sc (parts [.twin]) := by decide +kernel) : Within sc
    m0 m.renumber := by
  refine h.andThen hs ?_
  unfold Hw.renumber
  exact Within.refl.part_twin

theorem Within.settleUnit (h : Within sc m0 m) {id} (hs : Touch.covers sc (Touch.settling ++ parts [.rails, .rl] ++
    regs [Reg.RL_STATUS_EVQ]) := by decide +kernel) : Within sc m0 (m.settleUnit id) := by
  refine h.andThen hs ?_
  unfold Hw.settleUnit
  exact (.foldl Within.refl.settleTickets fun _ _ h2 => h2.afterFailure)

theorem Within.refuseFenced (h : Within sc m0 m) {e} (hs : Touch.covers sc (Touch.answering) := by decide +kernel) :
    Within sc m0 (m.refuseFenced e) := by
  refine h.andThen hs ?_
  unfold Hw.refuseFenced
  exact (.foldl Within.refl fun _ _ h1 => h1.refuseCmd)

theorem Within.lbFenced (h : Within sc m0 m) {id} (hs : Touch.covers sc (Touch.loopBackEnd) := by decide +kernel) :
    Within sc m0 (m.lbFenced id) := by
  refine h.andThen hs ?_
  unfold Hw.lbFenced
  exact (.ite (.lbFail (.ite Within.refl.lbFail Within.refl)) (.ite Within.refl.lbFail Within.refl))

theorem Within.fenceEffect (h : Within sc m0 m) {id} (hs : Touch.covers sc (Touch.durable ++ Touch.typeCOnly ++
    Touch.sessionEnd ++ Touch.slotSelect ++ parts [.slots] ++ regs [Reg.HUPD_SEL_PROB, Reg.UPD_SEL_PROB,
    Reg.UPD_PROB_FRAMES, Reg.UPD_EVENTS_ROLLBACKS, Reg.TL_H_STATUS_STATE, Reg.TL_F_STATUS_STATE, Reg.ID_STATUS_LINK,
    Reg.ID_STATUS_FIELD_READY, Reg.TWN_HB_LOST, Reg.TWN_STATUS_LINK, Reg.RL_STATUS_SESSION, Reg.RL_STATUS_SPEED] ++
    [.fieldSide, .hostSide]) := by decide +kernel) : Within sc m0 (m.fenceEffect id) := by
  refine h.andThen hs ?_
  unfold Hw.fenceEffect
  exact (by
    split
    · exact Within.refl.probEnds.setEngine
    · exact (.ite Within.refl.wrBit.rePick (.ite Within.refl.fenceSlice (.ite Within.refl.part_xfer.orderXfer (.ite
      Within.refl.linkOut (.ite Within.refl.heartbeatLost.wr (.ite Within.refl.endSession (.ite Within.refl.wr (.ite
      Within.refl.wr (.ite Within.refl.wr.host_drain (.ite (.ite Within.refl.typeCOnly Within.refl)
      Within.refl)))))))))))

theorem Within.applyFence (h : Within sc m0 m) {id exit} (hs : Touch.covers sc (Touch.durable ++ Touch.settling ++
    Touch.loopBackEnd ++ Touch.typeCOnly ++ Touch.sessionEnd ++ Touch.slotSelect ++ parts [.slots] ++ regs
    [Reg.HUPD_SEL_PROB, Reg.UPD_SEL_PROB, Reg.UPD_PROB_FRAMES, Reg.UPD_EVENTS_ROLLBACKS, Reg.TWN_HB_LOST] ++
    [.fieldSide, .hostSide]) := by decide +kernel) : Within sc m0 (m.applyFence id exit) := by
  refine h.andThen hs ?_
  unfold Hw.applyFence
  exact (by
    extract_lets
    split
    · exact (.ite (.refuseFenced (.lbFenced (.settleUnit (.ite (.ite Within.refl.fenceFlag.flt_fences.permFlag.faultAt
      Within.refl.fenceFlag.flt_fences) (.fenceEffect (.ite Within.refl.fenceFlag.flt_fences.permFlag.faultAt
      Within.refl.fenceFlag.flt_fences)))))) (.lbFenced (.settleUnit (.ite (.ite
      Within.refl.fenceFlag.flt_fences.permFlag.faultAt Within.refl.fenceFlag.flt_fences) (.fenceEffect (.ite
      Within.refl.fenceFlag.flt_fences.permFlag.faultAt Within.refl.fenceFlag.flt_fences))))))
    · exact (.lbFenced (.settleUnit (.ite (.ite Within.refl.fenceFlag.flt_fences.permFlag.faultAt
      Within.refl.fenceFlag.flt_fences) (.fenceEffect (.ite Within.refl.fenceFlag.flt_fences.permFlag.faultAt
      Within.refl.fenceFlag.flt_fences))))))

theorem Within.reacted (h : Within sc m0 m) {x} (hs : Touch.covers sc (parts [.history]) := by decide +kernel) :
    Within sc m0 (m.reacted x) := by
  refine h.andThen hs ?_
  exact Within.refl.flt_hist fun hl => by rwa [List.length_map]

theorem Within.react (h : Within sc m0 m) {x} (hs : Touch.covers sc (Touch.durable ++ Touch.settling ++
    Touch.loopBackEnd ++ Touch.typeCOnly ++ Touch.sessionEnd ++ Touch.slotSelect ++ parts [.slots, .partFaults,
    .recoveries] ++ regs [Reg.HUPD_SEL_PROB, Reg.UPD_SEL_PROB, Reg.UPD_PROB_FRAMES, Reg.UPD_EVENTS_ROLLBACKS,
    Reg.TWN_HB_LOST, Reg.FLT_STATUS_DOUBLE] ++ [.fieldSide, .hostSide]) := by decide +kernel) : Within sc m0
    (m.react x) := by
  refine h.andThen hs ?_
  unfold Hw.react
  exact (.ite (.settleDouble (.closePart (.closeEntry (.ite Within.refl.reacted.applyFence Within.refl.reacted))))
    (.ite (by
    split
    · exact (.ite Within.refl.reacted.probEnds.recover.restartEngine Within.refl.reacted.closeEntry)
    · exact Within.refl.reacted.closeEntry) (.ite Within.refl.reacted.closeEntry Within.refl.reacted)))

theorem Within.coresOff (h : Within sc m0 m) {sd} (hs : Touch.covers sc (parts [.engines]) := by decide +kernel) :
    Within sc m0 (m.coresOff sd) :=
  h.andThen hs Within.refl.arch_engines

theorem Within.backupDark (h : Within sc m0 m) (hs : Touch.covers sc ([.fieldSide, .hostSide] ++ parts [.modes])
  := by decide +kernel) :
    Within sc m0 m.backupDark :=
  h.andThen hs (Within.part_modes (Within.refl.setRegs (fun f hf =>
    absurd hf (by rw [Bool.not_eq_true]; exact Touch.within_iff_hits.1 (Touch.within_bothSides (by decide +kernel))))
      (Regs.wf_filter _)))

theorem Within.railsDark (h : Within sc m0 m) (hs : Touch.covers sc (parts [.rails]) := by decide +kernel) : Within
    sc m0 m.railsDark :=
  h.andThen hs Within.refl.part_rails

theorem Within.unitsDark (h : Within sc m0 m) {d} (hs : Touch.covers sc (Touch.phasesStop ++ Touch.issuing ++ parts
    [.engines, .cable, .cfgCopies, .modes, .alertPad, .linkHost, .linkField, .mailbox, .snapshot, .drain, .work,
    .results, .stream7, .hostReady, .pinLow, .hostBusy, .eventLevel, .fieldAsleep, .latches, .chg, .faultInput,
    .waits, .adc, .bus, .sub, .rails, .journal, .rl] ++ regs [Reg.TL_H_STATUS_STATE, Reg.TL_F_STATUS_STATE,
    Reg.ID_STATUS_LINK, Reg.ID_STATUS_FIELD_READY, Reg.ALERT_SRC_SRC, Reg.CHG_STATUS_EN, Reg.CHG_STATUS_STATE,
    Reg.CHG_V_SET, Reg.FLT_STATUS_LOST, Reg.CHG_I_SET, Reg.CHG_STATUS_FAULT_LATCH, Reg.STAT_LATCH_EVENTS,
    Reg.STAT_LATCH_PADS, Reg.STAT_LATCH_FN, Reg.RL_STATUS_SESSION, Reg.RL_STATUS_EVQ, Reg.RL_STATUS_SPEED] ++
    [.fieldSide, .hostSide]) := by decide +kernel) : Within sc m0 (m.unitsDark d) := by
  refine h.andThen hs ?_
  unfold Hw.unitsDark
  exact (by
    split
    · exact (.edits Within.refl.coresOff [.cable, .cfgCopies, .modes])
    · exact (.edits Within.refl.coresOff.linkOut.alertSettle [.linkHost, .linkField, .mailbox, .snapshot, .drain,
      .work, .results, .stream7, .alertPad, .hostReady, .pinLow, .hostBusy, .eventLevel, .fieldAsleep])
    · exact Within.refl.stageLatchesLost
    · exact Within.refl.backupDark
    · exact Within.refl
    · exact Within.refl.chargeReset.clear.coresOff.linkOut
    · exact Within.refl.part_adc
    · exact Within.refl.stopPhases.railsDark.batfet
    · exact Within.refl.part_jrn
    · exact Within.refl.endSession)

theorem Within.openDomain (h : Within sc m0 m) {d} (hs : Touch.covers sc (Touch.powering ++ Touch.phasesStop ++
    Touch.busRun ++ parts [.engines, .cable, .cfgCopies, .modes, .alertPad, .linkHost, .linkField, .mailbox,
    .snapshot, .drain, .work, .results, .stream7, .hostReady, .pinLow, .hostBusy, .eventLevel, .fieldAsleep,
    .latches, .chg, .faultInput, .waits, .orders, .adc, .sub, .rails, .journal, .rl] ++ regs [Reg.ALERT_SRC_SRC,
    Reg.CHG_STATUS_EN, Reg.CHG_STATUS_STATE, Reg.CHG_V_SET, Reg.FLT_STATUS_LOST, Reg.CHG_I_SET,
    Reg.CHG_STATUS_FAULT_LATCH, Reg.STAT_LATCH_EVENTS, Reg.STAT_LATCH_PADS, Reg.STAT_LATCH_FN,
    Reg.RL_STATUS_SESSION] ++ [.fieldSide, .hostSide]) := by decide +kernel) : Within sc m0 (m.openDomain d) :=
  h.andThen hs Within.refl.powerDomain_any.unitsDark

theorem Within.domainsSettle (h : Within sc m0 m) (hs : Touch.covers sc (Touch.powering ++ Touch.phasesStop ++
    Touch.busRun ++ parts [.engines, .cable, .cfgCopies, .modes, .alertPad, .linkHost, .linkField, .mailbox,
    .snapshot, .drain, .work, .results, .stream7, .hostReady, .pinLow, .hostBusy, .eventLevel, .fieldAsleep,
    .latches, .chg, .faultInput, .waits, .orders, .adc, .sub, .rails, .journal, .rl] ++ regs [Reg.ALERT_SRC_SRC,
    Reg.CHG_STATUS_EN, Reg.CHG_STATUS_STATE, Reg.CHG_V_SET, Reg.FLT_STATUS_LOST, Reg.CHG_I_SET,
    Reg.CHG_STATUS_FAULT_LATCH, Reg.STAT_LATCH_EVENTS, Reg.STAT_LATCH_PADS, Reg.STAT_LATCH_FN,
    Reg.RL_STATUS_SESSION] ++ [.fieldSide, .hostSide]) := by decide +kernel) : Within sc m0 m.domainsSettle := by
  refine h.andThen hs ?_
  unfold Hw.domainsSettle
  exact (.foldl Within.refl fun _ _ h1 => (.ite h1.openDomain h1))

theorem Within.switchOff (h : Within sc m0 m) {d} (hs : Touch.covers sc (Touch.powering ++ Touch.phasesStop ++
    Touch.busRun ++ parts [.engines, .cable, .cfgCopies, .modes, .alertPad, .linkHost, .linkField, .mailbox,
    .snapshot, .drain, .work, .results, .stream7, .hostReady, .pinLow, .hostBusy, .eventLevel, .fieldAsleep,
    .latches, .chg, .faultInput, .waits, .orders, .adc, .sub, .rails, .journal, .rl] ++ regs [Reg.ALERT_SRC_SRC,
    Reg.CHG_STATUS_EN, Reg.CHG_STATUS_STATE, Reg.CHG_V_SET, Reg.FLT_STATUS_LOST, Reg.CHG_I_SET,
    Reg.CHG_STATUS_FAULT_LATCH, Reg.STAT_LATCH_EVENTS, Reg.STAT_LATCH_PADS, Reg.STAT_LATCH_FN,
    Reg.RL_STATUS_SESSION] ++ [.fieldSide, .hostSide]) := by decide +kernel) : Within sc m0 (m.switchOff d) := by
  refine h.andThen hs ?_
  unfold Hw.switchOff
  exact (.ite Within.refl (.ite (.ite Within.refl Within.refl.setDomain) Within.refl.openDomain))

theorem Within.latchEffect (h : Within sc m0 m) {l} (hs : Touch.covers sc (Touch.phasesPick ++ regs
    [Reg.XFER_STATUS_DBS, Reg.PH_STATUS_SS, Reg.BATFET_STATUS_STATE, Reg.RAIL_STATUS_HOLD_ACT])
    := by decide +kernel) : Within sc m0 (m.latchEffect l) := by
  refine h.andThen hs ?_
  unfold Hw.latchEffect
  exact (.batfet (by
    split
    · exact Within.refl.leaveDbs
    · exact (.ite Within.refl.wr Within.refl)
    · exact Within.refl))

theorem Within.writeLatch (h : Within sc m0 m) {l} {f : Hw → Hw} (hf : ∀ m, Within sc m0 m → Within sc m0 (f m))
    (hs : Touch.covers sc (Touch.phasesPick ++ Touch.railsFollow ++ regs [Reg.XFER_STATUS_DBS, Reg.PH_STATUS_SS,
        Reg.BATFET_STATUS_STATE, Reg.RAIL_STATUS_HOLD_ACT]) := by decide +kernel) : Within sc m0 (m.writeLatch l f)
        := by
  unfold Hw.writeLatch
  split
  · exact (h.retarget hf (Touch.covers_trans hs (by decide +kernel))).andThen hs Within.refl.batfet
  · exact (h.retarget hf (Touch.covers_trans hs (by decide +kernel))).andThen hs Within.refl.batfet
  · exact (h.newPolicy hf (Touch.covers_trans hs (by decide +kernel))).andThen hs Within.refl.latchEffect
  · exact (hf _ h).andThen hs Within.refl.latchEffect

theorem Within.stopEngines (h : Within sc m0 m) {sd} (hs : Touch.covers sc (parts [.engines]) := by decide +kernel)
    : Within sc m0 (m.stopEngines sd) :=
  h.andThen hs Within.refl.arch_engines

theorem Within.dropFieldLink (h : Within sc m0 m) (hs : Touch.covers sc (parts [.faultInput, .linkField] ++ regs
    [Reg.TL_F_STATUS_EPOCH]) := by decide +kernel) : Within sc m0 m.dropFieldLink := by
  refine h.andThen hs ?_
  unfold Hw.dropFieldLink
  exact (.edits Within.refl.wr [.faultInput, .linkField])

theorem Within.resetTickets (h : Within sc m0 m) (hs : Touch.covers sc (Touch.answering ++ Touch.delivering ++ parts
    [.chg, .journal, .fullRun, .stopped, .faultInput] ++ regs [Reg.TKT_EVENTS_VOIDED, Reg.FLT_STATUS_LOST])
    := by decide +kernel) : Within sc m0 m.resetTickets := by
  refine h.andThen hs ?_
  unfold Hw.resetTickets
  extract_lets r m1 _ _ _ m2 m3 m4
  have h1 : Within (Touch.answering ++ Touch.delivering ++ parts [.chg, .journal, .fullRun, .stopped, .faultInput] ++
      regs [Reg.TKT_EVENTS_VOIDED, Reg.FLT_STATUS_LOST]) m m1 :=
    Within.refl.voidTickets.retireConvs.settleBus
  have h2 : Within (Touch.answering ++ Touch.delivering ++ parts [.chg, .journal, .fullRun, .stopped, .faultInput] ++
      regs [Reg.TKT_EVENTS_VOIDED, Reg.FLT_STATUS_LOST]) m m2 :=
    h1.edits [.work, .journal, .tickets, .waits, .fullRun, .stopped, .sub]
      (ht := (nums_map _ fun t => by split <;> rfl).trans (nums_filter _ _))
  have h4 : Within (Touch.answering ++ Touch.delivering ++ parts [.chg, .journal, .fullRun, .stopped, .faultInput] ++
      regs [Reg.TKT_EVENTS_VOIDED, Reg.FLT_STATUS_LOST]) m m4 :=
    .showTickets (.settleWork (.dropInjected (.resendAdc (.foldl h2 fun _ _ h3 => h3.flushAnswers))))
  exact .ite h4 h4.faultAt

theorem Within.resetTwin (h : Within sc m0 m) (hs : Touch.covers sc (parts [.twin] ++ regs [Reg.TWN_STATUS_LINK,
    Reg.TWN_STATUS_CFG_MATCH, Reg.TWN_STATUS_RESYNC]) := by decide +kernel) : Within sc m0 m.resetTwin := by
  refine h.andThen hs ?_
  unfold Hw.resetTwin
  exact Within.refl.clear.part_twin

theorem Within.resetRailLink (h : Within sc m0 m) (hs : Touch.covers sc (Touch.freezeEnd ++ parts [.rl, .tickets] ++
    regs [Reg.RL_STATUS_SESSION, Reg.RL_STATUS_EVQ, Reg.RL_STATUS_SPEED, Reg.TKT_STATUS_INFLIGHT,
    Reg.TKT_STATUS_HWM, Reg.TKT_STATUS_FULL, Reg.TKT_STATUS_HELD, Reg.TKT_STATUS_HELD_STREAM]) := by decide +kernel)
    : Within sc m0 m.resetRailLink := by
  refine h.andThen hs ?_
  unfold Hw.resetRailLink
  exact (.part_rl (.ite Within.refl.endSession.part_seq.liftQuiet Within.refl.endSession.part_seq))

theorem Within.resetUpdate (h : Within sc m0 m) {sd cause} (hs : Touch.covers sc (Touch.sideFault ++ Touch.issuing
    ++ Touch.sessionEnd ++ Touch.slotSelect ++ parts [.slots, .linkHost, .mailbox, .sub] ++ regs [Reg.HUPD_SEL_PROB,
    Reg.UPD_SEL_PROB, Reg.UPD_PROB_FRAMES, Reg.UPD_EVENTS_ROLLBACKS]) := by decide +kernel) : Within sc m0
    (m.resetUpdate sd cause) := by
  refine h.andThen hs ?_
  unfold Hw.resetUpdate
  exact (.showUpd (.part_upd (by
    split
    · exact (.ite Within.refl.rollback Within.refl)
    · exact Within.refl)))

theorem Within.disarm (h : Within sc m0 m) {sd start} (hs : Touch.covers sc (Touch.disarming) := by decide +kernel)
    : Within sc m0 (m.disarm sd start) := by
  refine h.andThen hs ?_
  unfold Hw.disarm
  exact (by
    split
    · exact Within.refl.clear.part_wdg
    · exact Within.refl.clear.part_hwdg)

theorem Within.closeResets (h : Within sc m0 m) {sd} (hs : Touch.covers sc (Touch.entriesClosed)
    := by decide +kernel) : Within sc m0 (m.closeResets sd) :=
  h.andThen hs Within.refl.closeEntries

theorem Within.resetService (h : Within sc m0 m) {level} (hs : Touch.covers sc (Touch.issuing ++ parts [.modes,
    .sub]) := by decide +kernel) : Within sc m0 (m.resetService level) := by
  refine h.andThen hs ?_
  unfold Hw.resetService
  exact (.ite Within.refl.part_modes.serviceRec Within.refl.part_modes)

theorem Within.engTestDue (h : Within sc m0 m) (hs : Touch.covers sc (parts [.bist]) := by decide +kernel) : Within
    sc m0 m.engTestDue := by
  refine h.andThen hs ?_
  unfold Hw.engTestDue
  exact (.ite Within.refl.part_bist Within.refl)

theorem Within.fieldReset (h : Within sc m0 m) {l source cause} (hs : Touch.covers sc (Touch.fieldReset ++
    [.fieldSide]) := by decide +kernel) : Within sc m0 (m.fieldReset l source cause) := by
  refine h.andThen hs ?_
  unfold Hw.fieldReset
  exact (.resetRecord (.resetUpdate (.resetService (.closeResets (.clear (.edits (.disarm (.followTwin (.resetRegs
    (.stopEngines (.chargeReset (.engTestDue (.fiDisarm (.setReq (.endDrainHost (.resetRailLink (.resetTwin (.linkOut
    (.ite Within.refl.nextEpoch.dropFieldLink.part_sub.resetTickets.resign.part_lb.lbReturn
    Within.refl.nextEpoch.dropFieldLink.part_sub.resetTickets.resign))))))))))))) [.sidebands, .modes, .bus]))))))

theorem Within.holdField (h : Within sc m0 m) (hs : Touch.covers sc (Touch.fieldReset ++ [.fieldSide])
    := by decide +kernel) : Within sc m0 m.holdField := by
  refine h.andThen hs ?_
  unfold Hw.holdField
  exact Within.refl.fieldReset.disarm.part_seq.liftQuiet

theorem Within.fieldPin (h : Within sc m0 m) {low} (hs : Touch.covers sc (Touch.fieldReset ++ regs
    [Reg.BIST_STATUS_HALTED] ++ [.fieldSide]) := by decide +kernel) : Within sc m0 (m.fieldPin low) := by
  refine h.andThen hs ?_
  unfold Hw.fieldPin
  exact (.ite Within.refl.part_seq (.ite (.ite Within.refl.part_seq (.ite (.edits Within.refl.part_seq.holdField.wr
    [.modes, .bist]) Within.refl.part_seq.holdField)) (.ite Within.refl.part_seq Within.refl.part_seq.disarm)))

theorem Within.drainLost (h : Within sc m0 m) (hs : Touch.covers sc (parts [.drain] ++ regs [Reg.DRN_STATUS_AVAIL,
    Reg.DRN_STATUS_END]) := by decide +kernel) : Within sc m0 m.drainLost := by
  refine h.andThen hs ?_
  unfold Hw.drainLost
  exact Within.refl.setReq.emptyDrain.host_drain

theorem Within.hostReset (h : Within sc m0 m) {l source cause} (hs : Touch.covers sc (Touch.hostReset ++
    [.hostSide]) := by decide +kernel) : Within sc m0 (m.hostReset l source cause) := by
  refine h.andThen hs ?_
  unfold Hw.hostReset
  exact (.resetUpdate (.showMailbox (.edits Within.refl.linkOut.drainLost.wr.lbFail.stopEngines.resetRegs.clear.disarm
    [.sidebands, .resetNote, .linkHost, .mailbox, .snapshot, .work, .alertPad, .hostReady, .hostBusy, .fieldAsleep,
    .hp, .update])))

theorem Within.hostPin (h : Within sc m0 m) {low} (hs : Touch.covers sc (Touch.hostReset ++ parts [.pinLow] ++
    [.hostSide]) := by decide +kernel) : Within sc m0 (m.hostPin low) := by
  refine h.andThen hs ?_
  unfold Hw.hostPin
  exact (.ite Within.refl.host_pinLow (.ite (.ite Within.refl.host_pinLow Within.refl.host_pinLow.hostReset.disarm)
    (.ite Within.refl.host_pinLow Within.refl.host_pinLow.disarm)))

theorem Within.engineBack (h : Within sc m0 m) {e} (hs : Touch.covers sc (Touch.durable ++ Touch.railCommand ++
    Touch.appending ++ parts [.seq] ++ regs [Reg.CBL_EVENTS_SOFT_RESETS, Reg.INTAKE_LIM_EFF_LIM,
    Reg.INTAKE_LIM_EFF_CAUSE, Reg.MODE_STATUS_MODE, Reg.MODE_STATUS_MODE_CHG, Reg.REV_SET_SET] ++ [.fieldSide,
    .hostSide]) := by decide +kernel) : Within sc m0 (m.engineBack e) := by
  refine h.andThen hs ?_
  unfold Hw.engineBack
  exact (by
    split
    · exact (.ite Within.refl.softReset.askAgain Within.refl)
    · exact Within.refl.limitWrite
    · exact Within.refl.host_busy.flushHostFaults
    · exact (.resubmitFaults (.ite Within.refl.part_modes.swapSource Within.refl))
    · exact Within.refl.f4Back
    · exact Within.refl.deliver
    · exact Within.refl.resubmitFaults.submitSeconds.submitGaps.submitSync.appendMany
    · exact Within.refl)

theorem Within.restartDone (h : Within sc m0 m) {e} (hs : Touch.covers sc (Touch.durable ++ Touch.railCommand ++
    Touch.appending ++ parts [.partFaults, .seq] ++ regs [Reg.CBL_EVENTS_SOFT_RESETS, Reg.INTAKE_LIM_EFF_LIM,
    Reg.INTAKE_LIM_EFF_CAUSE, Reg.MODE_STATUS_MODE, Reg.MODE_STATUS_MODE_CHG, Reg.REV_SET_SET,
    Reg.FLT_STATUS_DOUBLE] ++ [.fieldSide, .hostSide]) := by decide +kernel) : Within sc m0 (m.restartDone e) := by
  refine h.andThen hs ?_
  unfold Hw.restartDone
  exact Within.refl.setEngine.closeEntries.closePart.engineBack.settleDouble

theorem Within.dropEntry (h : Within sc m0 m) {i} (hs : Touch.covers sc (parts [.drain]) := by decide +kernel) :
    Within sc m0 (m.dropEntry i) := by
  refine h.andThen hs ?_
  unfold Hw.dropEntry
  exact (.ite Within.refl.host_drain Within.refl)

theorem Within.setWd (h : Within sc m0 m) {sd x} (hs : Touch.covers sc (parts [.wdg, .hwdg]) := by decide +kernel) :
    Within sc m0 (m.setWd sd x) := by
  refine h.andThen hs ?_
  unfold Hw.setWd
  exact (by
    split
    · exact Within.refl.part_wdg
    · exact Within.refl.part_hwdg)

theorem Within.drewFrame (h : Within sc m0 m) {sd} (hs : Touch.covers sc (parts [.freeCtr]) := by decide +kernel) :
    Within sc m0 (m.drewFrame sd) := by
  refine h.andThen hs ?_
  unfold Hw.drewFrame
  exact (by
    split
    · exact Within.refl
    · exact (.ite Within.refl Within.refl.drew))

theorem Within.showWdg (h : Within sc m0 m) (hs : Touch.covers sc (regs [Reg.WDG_STATUS_WINDOW,
    Reg.WDG_STATUS_SERVED, Reg.WDG_STATUS_FRAME]) := by decide +kernel) : Within sc m0 m.showWdg :=
  h.andThen hs Within.refl.wrB.wrB.wr

theorem Within.expire (h : Within sc m0 m) {sd cause} (hs : Touch.covers sc (Touch.fieldReset ++ Touch.hostReset ++
    parts [.freeCtr] ++ regs [Reg.WDG_STATUS_EXPIRED_EVT, Reg.WDG_STATUS_LAST_CAUSE, Reg.HWDG_STATUS_EXPIRED_EVT,
    Reg.HWDG_STATUS_LAST_CAUSE] ++ [.fieldSide, .hostSide]) := by decide +kernel) : Within sc m0 (m.expire sd cause)
      := by
  refine h.andThen hs ?_
  unfold Hw.expire
  exact (by
    extract_lets
    split
    · exact Within.refl.drewFrame.wr.wr.faultAt.fieldReset
    · exact Within.refl.drewFrame.wr.wr.hfaultAt.hostReset)

theorem Within.serviceWrite (h : Within sc m0 m) {sd key} (hs : Touch.covers sc (Touch.fieldReset ++ Touch.hostReset
    ++ parts [.freeCtr] ++ regs [Reg.WDG_EVENTS_BAD_KEY, Reg.HWDG_EVENTS_BAD_KEY, Reg.WDG_STATUS_EXPIRED_EVT,
    Reg.WDG_STATUS_LAST_CAUSE, Reg.HWDG_STATUS_EXPIRED_EVT, Reg.HWDG_STATUS_LAST_CAUSE, Reg.WDG_STATUS_LAST_SLOT] ++
    [.fieldSide, .hostSide]) := by decide +kernel) : Within sc m0 (m.serviceWrite sd key) := by
  refine h.andThen hs ?_
  unfold Hw.serviceWrite
  exact (.ite Within.refl (.ite (by
    split
    · exact Within.refl.bump
    · exact Within.refl.bump) (.ite Within.refl.expire (.ite Within.refl (.ite Within.refl.setWd (.ite
      Within.refl.expire (by
    extract_lets
    split
    · exact Within.refl.setWd.wr.showWdg
    · exact Within.refl.setWd)))))))

theorem Within.judge (h : Within sc m0 m) {seen e} (hs : Touch.covers sc (Touch.sideFault ++ parts [.wdg, .hwdg] ++
    regs [Reg.WDG_EVENTS_MISSING, Reg.HWDG_EVENTS_MISSING]) := by decide +kernel) : Within sc m0 (m.judge seen e) := by
  refine h.andThen hs ?_
  unfold Hw.judge
  exact (.ite Within.refl.setWd (by
    extract_lets
    split
    · exact Within.refl.setWd.faultW.bump
    · exact Within.refl.setWd.hfaultW.bump))

theorem Within.toSlot (h : Within sc m0 m) {n} (hs : Touch.covers sc (Touch.time) := by decide +kernel) : Within sc
    m0 (m.toSlot n) :=
  h.andThen hs Within.refl.atT

theorem Within.openWindow (h : Within sc m0 m) {sd} (hs : Touch.covers sc (Touch.sideFault ++ Touch.time ++ parts
    [.wdg, .hwdg] ++ regs [Reg.WDG_CHECKIN_SEEN, Reg.WDG_CHECKIN_EXCUSED, Reg.HWDG_STATUS_SEEN,
    Reg.WDG_EVENTS_MISSING, Reg.HWDG_EVENTS_MISSING, Reg.WDG_STATUS_WINDOW, Reg.WDG_STATUS_SERVED,
    Reg.WDG_STATUS_FRAME]) := by decide +kernel) : Within sc m0 (m.openWindow sd) := by
  refine h.andThen hs ?_
  unfold Hw.openWindow
  exact (.ite Within.refl (by
    dsimp only
    split
    · exact (.showWdg (.setWd (.foldl (by
        split
        · exact (.wr (.wr (.setWd (by
            split
            · exact Within.refl.toSlot
            · exact Within.refl))))
        · exact (.wr (.setWd (by
            split
            · exact Within.refl.toSlot
            · exact Within.refl)))) fun _ _ h4 => h4.judge)))
    · exact (.setWd (.foldl (by
        split
        · exact (.wr (.wr (.setWd (by
            split
            · exact Within.refl.toSlot
            · exact Within.refl))))
        · exact (.wr (.setWd (by
            split
            · exact Within.refl.toSlot
            · exact Within.refl)))) fun _ _ h4 => h4.judge))))

theorem Within.nextPeriod (h : Within sc m0 m) {sd} (hs : Touch.covers sc (parts [.wdg, .hwdg] ++ regs
    [Reg.WDG_STATUS_WINDOW, Reg.WDG_STATUS_SERVED, Reg.WDG_STATUS_FRAME]) := by decide +kernel) : Within sc m0
    (m.nextPeriod sd) := by
  refine h.andThen hs ?_
  unfold Hw.nextPeriod
  exact (by
    dsimp only
    split
    · exact (.showWdg (.setWd (by
        split
        · exact Within.refl.setWd
        · exact Within.refl.setWd)))
    · exact (.setWd (by
        split
        · exact Within.refl.setWd
        · exact Within.refl.setWd)))

theorem Within.closeWindow (h : Within sc m0 m) {sd} (hs : Touch.covers sc (Touch.fieldReset ++ Touch.hostReset ++
    parts [.freeCtr] ++ regs [Reg.WDG_STATUS_EXPIRED_EVT, Reg.WDG_STATUS_LAST_CAUSE, Reg.HWDG_STATUS_EXPIRED_EVT,
    Reg.HWDG_STATUS_LAST_CAUSE] ++ [.fieldSide, .hostSide]) := by decide +kernel) : Within sc m0 (m.closeWindow sd) :=
      by
  refine h.andThen hs ?_
  unfold Hw.closeWindow
  exact (.ite Within.refl (.ite Within.refl.nextPeriod Within.refl.expire))

theorem Within.armField (h : Within sc m0 m) (hs : Touch.covers sc (parts [.wdg] ++ regs [Reg.WDG_STATUS_ARMED,
    Reg.WDG_STATUS_WINDOW, Reg.WDG_STATUS_SERVED, Reg.WDG_STATUS_FRAME]) := by decide +kernel) : Within sc m0
    m.armField := by
  refine h.andThen hs ?_
  unfold Hw.armField
  exact Within.refl.part_wdg.wr.showWdg

theorem Within.wdgTick (h : Within sc m0 m) (hs : Touch.covers sc (parts [.wdg, .hwdg] ++ regs
    [Reg.WDG_STATUS_ARMED, Reg.WDG_STATUS_WINDOW, Reg.WDG_STATUS_SERVED, Reg.WDG_STATUS_FRAME])
    := by decide +kernel) : Within sc m0 m.wdgTick := by
  refine h.andThen hs ?_
  unfold Hw.wdgTick
  exact (.ite Within.refl (.ite (.ite Within.refl.armField Within.refl) (.ite (.ite Within.refl.nextPeriod
    Within.refl.part_wdg) (.ite Within.refl.nextPeriod Within.refl.showWdg))))

theorem Within.checkin (h : Within sc m0 m) {e} (hs : Touch.covers sc (Touch.sideFault ++ parts [.freeCtr, .wdg,
    .hwdg] ++ regs [Reg.WDG_EVENTS_DOUBLES, Reg.HWDG_EVENTS_DOUBLES]) := by decide +kernel) : Within sc m0
    (m.checkin e) := by
  refine h.andThen hs ?_
  unfold Hw.checkin
  exact (.ite (by
    extract_lets
    split
    · exact Within.refl.drewFrame.sideFault_any.bump
    · exact Within.refl.drewFrame.sideFault_any.bump) Within.refl.setWd)

theorem Within.hostFirst (h : Within sc m0 m) {e} (hs : Touch.covers sc (Touch.durable ++ Touch.railCommand ++
    Touch.appending ++ parts [.intake, .hostReady, .seq] ++ regs [Reg.HUPD_STATUS_PERMAFROST,
    Reg.ID_STATUS_HOST_READY, Reg.HWDG_STATUS_ARMED, Reg.TL_H_STATUS_STATE, Reg.CBL_EVENTS_SOFT_RESETS,
    Reg.INTAKE_LIM_EFF_LIM, Reg.INTAKE_LIM_EFF_CAUSE, Reg.MODE_STATUS_MODE, Reg.MODE_STATUS_MODE_CHG,
    Reg.REV_SET_SET] ++ [.fieldSide, .hostSide]) := by decide +kernel) : Within sc m0 (m.hostFirst e) := by
  refine h.andThen hs ?_
  unfold Hw.hostFirst
  exact (.arch_sb (by
    split
    · exact (.flushHostFaults (.h2Up (.edits Within.refl.wr [.bist, .update])))
    · exact Within.refl.runEngine.engineBack
    · exact Within.refl.runEngine))

theorem Within.fencePerm (h : Within sc m0 m) {id} (hs : Touch.covers sc (Touch.durable ++ Touch.settling ++
    Touch.typeCOnly ++ Touch.sessionEnd ++ Touch.slotSelect ++ parts [.slots] ++ regs [Reg.HUPD_SEL_PROB,
    Reg.UPD_SEL_PROB, Reg.UPD_PROB_FRAMES, Reg.UPD_EVENTS_ROLLBACKS, Reg.TL_H_STATUS_STATE, Reg.TL_F_STATUS_STATE,
    Reg.ID_STATUS_LINK, Reg.ID_STATUS_FIELD_READY, Reg.TWN_HB_LOST, Reg.TWN_STATUS_LINK, Reg.RL_STATUS_SESSION,
    Reg.RL_STATUS_SPEED] ++ [.fieldSide, .hostSide]) := by decide +kernel) : Within sc m0 (m.fencePerm id) := by
  refine h.andThen hs ?_
  unfold Hw.fencePerm
  exact Within.refl.fenceFlag.permFlag.flt_fences.fenceEffect.settleUnit

theorem Within.holdHCore (h : Within sc m0 m) (hs : Touch.covers sc (Touch.disarming ++ parts [.engines, .alertPad,
    .hostReady] ++ regs [Reg.ID_STATUS_HOST_READY]) := by decide +kernel) : Within sc m0 m.holdHCore := by
  refine h.andThen hs ?_
  unfold Hw.holdHCore
  exact (.edits Within.refl.setEngine.setEngine.setEngine.wr.disarm [.alertPad, .hostReady])

theorem Within.macroLost (h : Within sc m0 m) {sd id} (hs : Touch.covers sc (Touch.durable ++ Touch.settling ++
    Touch.typeCOnly ++ Touch.disarming ++ Touch.sessionEnd ++ Touch.slotSelect ++ parts [.slots, .hostReady] ++ regs
    [Reg.BIST_STATUS_HALTED, Reg.HUPD_SEL_PROB, Reg.UPD_SEL_PROB, Reg.UPD_PROB_FRAMES, Reg.UPD_EVENTS_ROLLBACKS,
    Reg.TL_H_STATUS_STATE, Reg.TL_F_STATUS_STATE, Reg.ID_STATUS_LINK, Reg.ID_STATUS_FIELD_READY, Reg.TWN_HB_LOST,
    Reg.TWN_STATUS_LINK, Reg.RL_STATUS_SESSION, Reg.RL_STATUS_SPEED, Reg.RTC_STATUS_OSC_FAIL,
    Reg.RTC_STATUS_DISCIPLINED, Reg.ID_STATUS_HOST_READY] ++ [.fieldSide, .hostSide]) := by decide +kernel) : Within
    sc m0 (m.macroLost sd id) := by
  refine h.andThen hs ?_
  unfold Hw.macroLost
  exact (by
    split
    · exact (.ite Within.refl.wr.faultN.disarm.part_modes (.ite Within.refl.fencePerm (.ite (.ite Within.refl.part_adc
      Within.refl.part_adc.fault) (.ite Within.refl.fencePerm (.ite Within.refl.fencePerm
      Within.refl.fencePerm.oscFail)))))
    · exact (.ite Within.refl.holdHCore (.ite (.ite Within.refl.fencePerm.typeCOnly Within.refl.fencePerm.putLatch)
      Within.refl.fencePerm)))

theorem Within.showBist (h : Within sc m0 m) {sd id repaired failed} (hs : Touch.covers sc (parts [.bist] ++ regs
    [Reg.BIST_STATUS_GROUPS, Reg.BIST_REPMAP_MAP, Reg.BIST_FAILMAP_MAP, Reg.BIST_STATUS_REPAIRED,
    Reg.BIST_STATUS_FAILED, Reg.HBIST_STATUS_REPMAP, Reg.HBIST_STATUS_FAILMAP]) := by decide +kernel) : Within sc m0
    (m.showBist sd id repaired failed) := by
  refine h.andThen hs ?_
  unfold Hw.showBist
  exact (by
    split
    · exact (.wr (.wr (.ite (.wrBit (.ite (.wrBit (.wr (.ite Within.refl Within.refl.part_bist))) (.wr (.ite
      Within.refl Within.refl.part_bist)))) (.ite (.wrBit (.wr (.ite Within.refl Within.refl.part_bist))) (.wr (.ite
      Within.refl Within.refl.part_bist))))))
    · exact (.ite (.wrBit (.ite Within.refl.wrBit Within.refl)) (.ite Within.refl.wrBit Within.refl)))

theorem Within.restPass (h : Within sc m0 m) (hs : Touch.covers sc (parts [.bist] ++ regs [Reg.BIST_STATUS_GROUPS,
    Reg.BIST_REPMAP_MAP, Reg.BIST_FAILMAP_MAP, Reg.BIST_STATUS_REPAIRED, Reg.BIST_STATUS_FAILED,
    Reg.HBIST_STATUS_REPMAP, Reg.HBIST_STATUS_FAILMAP]) := by decide +kernel) : Within sc m0 m.restPass := by
  refine h.andThen hs ?_
  unfold Hw.restPass
  exact (.part_bist (.foldl Within.refl fun _ _ h1 => h1.showBist))

theorem Within.testDue (h : Within sc m0 m) {sd id} (hs : Touch.covers sc (parts [.bist]) := by decide +kernel) :
    Within sc m0 (m.testDue sd id) := by
  refine h.andThen hs ?_
  unfold Hw.testDue
  exact (by
    split
    · exact Within.refl.part_bist
    · exact Within.refl.part_bist)

theorem Within.testDone (h : Within sc m0 m) {sd id} (hs : Touch.covers sc (parts [.bist]) := by decide +kernel) :
    Within sc m0 (m.testDone sd id) := by
  refine h.andThen hs ?_
  unfold Hw.testDone
  exact (by
    split
    · exact Within.refl.part_bist
    · exact Within.refl.part_bist)

theorem Within.setRepairs (h : Within sc m0 m) {sd l} (hs : Touch.covers sc (parts [.bist]) := by decide +kernel) :
    Within sc m0 (m.setRepairs sd l) := by
  refine h.andThen hs ?_
  unfold Hw.setRepairs
  exact (by
    split
    · exact Within.refl.part_bist
    · exact Within.refl.part_bist)

theorem Within.selftest (h : Within sc m0 m) {sd id defects spareBad} (hs : Touch.covers sc (Touch.durable ++
    Touch.settling ++ Touch.typeCOnly ++ Touch.disarming ++ Touch.sessionEnd ++ Touch.slotSelect ++ parts [.slots,
    .hostReady] ++ regs [Reg.BIST_STATUS_GROUPS, Reg.BIST_REPMAP_MAP, Reg.BIST_FAILMAP_MAP,
    Reg.BIST_STATUS_REPAIRED, Reg.BIST_STATUS_FAILED, Reg.HBIST_STATUS_REPMAP, Reg.HBIST_STATUS_FAILMAP,
    Reg.BIST_STATUS_HALTED, Reg.HUPD_SEL_PROB, Reg.UPD_SEL_PROB, Reg.UPD_PROB_FRAMES, Reg.UPD_EVENTS_ROLLBACKS,
    Reg.TL_H_STATUS_STATE, Reg.TL_F_STATUS_STATE, Reg.ID_STATUS_LINK, Reg.ID_STATUS_FIELD_READY, Reg.TWN_HB_LOST,
    Reg.TWN_STATUS_LINK, Reg.RL_STATUS_SESSION, Reg.RL_STATUS_SPEED, Reg.RTC_STATUS_OSC_FAIL,
    Reg.RTC_STATUS_DISCIPLINED, Reg.ID_STATUS_HOST_READY] ++ [.fieldSide, .hostSide]) := by decide +kernel) : Within
    sc m0 (m.selftest sd id defects spareBad) := by
  refine h.andThen hs ?_
  unfold Hw.selftest
  exact (.ite Within.refl.testDone.setRepairs.showBist (.ite
    Within.refl.testDone.setRepairs.setRepairs.showBist.sideFault_any
    Within.refl.testDone.setRepairs.showBist.sideFault_any.macroLost))

theorem Within.addFuses (h : Within sc m0 m) {sd l} (hs : Touch.covers sc (parts [.bist] ++ regs
    [Reg.BIST_STATUS_FUSES_USED, Reg.HBIST_STATUS_FUSES_USED]) := by decide +kernel) : Within sc m0 (m.addFuses sd
    l) := by
  refine h.andThen hs ?_
  unfold Hw.addFuses
  exact (by
    split
    · exact Within.refl.wr.part_bist
    · exact Within.refl.wr.part_bist)

theorem Within.burn (h : Within sc m0 m) {sd bad} (hs : Touch.covers sc (Touch.sideFault ++ parts [.bist] ++ regs
    [Reg.BIST_STATUS_FUSES_USED, Reg.HBIST_STATUS_FUSES_USED]) := by decide +kernel) : Within sc m0 (m.burn sd bad) :=
      by
  refine h.andThen hs ?_
  unfold Hw.burn
  exact (.ite Within.refl.sideFault_any (.ite Within.refl.setRepairs.addFuses.sideFault_any
    Within.refl.setRepairs.addFuses))

theorem Within.powerDomains (h : Within sc m0 m) {ds b} (hs : Touch.covers sc (Touch.powering) := by decide +kernel)
    : Within sc m0 (m.powerDomains ds b) := by
  refine h.andThen hs ?_
  unfold Hw.powerDomains
  exact (.foldl Within.refl fun _ _ h1 => h1.powerDomain_any)

theorem Within.busLost (h : Within sc m0 m) (hs : Touch.covers sc (Touch.settling ++ regs
    [Reg.SB_EVENTS_STRETCH_TMO, Reg.SB_STATUS_WAIT_THAW, Reg.SB_STATUS_BUSY]) := by decide +kernel) : Within sc m0
    m.busLost := by
  refine h.andThen hs ?_
  unfold Hw.busLost
  exact (.foldl Within.refl fun _ _ h1 => (.ite h1.bump.fault.busFail h1))

theorem Within.reapply (h : Within sc m0 m) {sd bad} (hs : Touch.covers sc (Touch.sideFault ++ parts [.bist])
    := by decide +kernel) : Within sc m0 (m.reapply sd bad) := by
  refine h.andThen hs ?_
  unfold Hw.reapply
  exact (by
    split
    · exact Within.refl
    · exact (.ite Within.refl (.ite Within.refl.sideFault_any.testDue Within.refl.sideFault_any.setRepairs)))

theorem Within.recordNow (h : Within sc m0 m) {k src payload} (hs : Touch.covers sc (Touch.fenceLifted ++
    Touch.appending ++ Touch.resigning ++ Touch.loopBackStart ++ Touch.nandShown ++ Touch.railsFollow ++
    Touch.entriesClosed ++ parts [.stopped, .bat, .nand, .bist, .calCopies, .cfgCopies] ++ regs
    [Reg.PH_STATUS_LATCHED, Reg.RAIL_STATUS_POL_LATCHED, Reg.ADC_STATUS_FGCAL, Reg.SB_STATUS_MULTI,
    Reg.JRN_COMMIT_JSN, Reg.JRN_SEALED_EPOCH, Reg.JRN_RELEASED_EPOCH, Reg.TWN_STATUS_RESYNC, Reg.TWN_EPOCH_EPOCH,
    Reg.TWN_STATUS_SEQ_ID, Reg.TWN_LAST_FRN, Reg.FI_CTL_ARM, Reg.RTC_SEC_TAI, Reg.RTC_SUB_SUB, Reg.RTC_UTC_OFFSET,
    Reg.RTC_STATUS_VALID, Reg.RTC_STATUS_SET_EVT, Reg.SVC_STATUS_FAILS, Reg.SVC_STATUS_KEY_ENROLLED,
    Reg.SVC_STATUS_REQ_SIGNED, Reg.MODE_STATUS_PWR_REQ] ++ [.fieldSide, .hostSide]) := by decide +kernel) : Within
    sc m0 (m.recordNow k src payload) := by
  refine h.andThen hs ?_
  unfold Hw.recordNow
  exact Within.refl.tkt_stopped.record.issueAppends.appendMany.tkt_stopped

theorem Within.commitNow (h : Within sc m0 m) (hs : Touch.covers sc (Touch.committing) := by decide +kernel) :
    Within sc m0 m.commitNow :=
  h.andThen hs Within.refl.commitAll

theorem Within.writePowerDown (h : Within sc m0 m) {cause staged} (hs : Touch.covers sc (Touch.committing ++ parts
    [.history, .rails, .twin, .faultInput] ++ regs [Reg.JRN_NEXT_JSN, Reg.JRN_STATUS_SEALING, Reg.TWN_PEND_BYTES,
    Reg.TWN_PEND_LOST, Reg.FLT_STATUS_LOST]) := by decide +kernel) : Within sc m0 (m.writePowerDown cause staged) := by
  refine h.andThen hs ?_
  unfold Hw.writePowerDown
  exact (.ite Within.refl.accept.commitNow Within.refl.pend)

theorem Within.stageKeepalive (h : Within sc m0 m) (hs : Touch.covers sc (Touch.fenceLifted ++ Touch.appending ++
    Touch.committing ++ Touch.resigning ++ Touch.freezeEnd ++ Touch.loopBackStart ++ Touch.railsFollow ++
    Touch.entriesClosed ++ parts [.stopped, .bist, .calCopies, .cfgCopies] ++ regs [Reg.RL_STATUS_SESSION,
    Reg.RL_STATUS_SPEED, Reg.PH_STATUS_LATCHED, Reg.RAIL_STATUS_POL_LATCHED, Reg.ADC_STATUS_FGCAL,
    Reg.SB_STATUS_MULTI, Reg.JRN_RELEASED_EPOCH, Reg.TWN_STATUS_RESYNC, Reg.TWN_EPOCH_EPOCH, Reg.TWN_STATUS_SEQ_ID,
    Reg.TWN_LAST_FRN, Reg.FI_CTL_ARM, Reg.RTC_SEC_TAI, Reg.RTC_SUB_SUB, Reg.RTC_UTC_OFFSET, Reg.RTC_STATUS_VALID,
    Reg.RTC_STATUS_SET_EVT, Reg.SVC_STATUS_FAILS, Reg.SVC_STATUS_KEY_ENROLLED, Reg.SVC_STATUS_REQ_SIGNED,
    Reg.MODE_STATUS_PWR_REQ] ++ [.fieldSide, .hostSide]) := by decide +kernel) : Within sc m0 m.stageKeepalive := by
  refine h.andThen hs ?_
  unfold Hw.stageKeepalive
  exact Within.refl.part_modes.resetRailLink.railsFollow.recordNow.commitNow.resignFor

theorem Within.voidCommands (h : Within sc m0 m) (hs : Touch.covers sc (Touch.issuing ++ parts [.work, .stream7,
    .mailbox, .alertPad, .linkField, .adc, .bus, .waits, .sub] ++ regs [Reg.MBX_EVENTS_VOIDS,
    Reg.MBX_STATUS_RESULTS, Reg.MBX_STATUS_PLACES, Reg.MBX_STATUS_FULL, Reg.MBX_RES_INFO_STREAM,
    Reg.MBX_RES_INFO_LEN, Reg.ALERT_SRC_SRC] ++ arrays [Reg.HOST_SEQ_N, Reg.MBX_RES_RESULT]) := by decide +kernel) :
    Within sc m0 m.voidCommands := by
  refine h.andThen hs ?_
  unfold Hw.voidCommands
  exact (.foldl Within.refl.host_work fun _ _ h2 => h2.flushAnswers)

theorem Within.voidLeft (h : Within sc m0 m) (hs : Touch.covers sc (Touch.answering ++ Touch.delivering ++ parts
    [.chg, .faultInput] ++ regs [Reg.TKT_EVENTS_VOIDED, Reg.FLT_STATUS_LOST]) := by decide +kernel) : Within sc m0
    m.voidLeft := by
  refine h.andThen hs ?_
  unfold Hw.voidLeft
  extract_lets kept r m1 _ m2 m3
  have h1 : Within (Touch.answering ++ Touch.delivering ++ parts [.chg, .faultInput] ++ regs [Reg.TKT_EVENTS_VOIDED,
      Reg.FLT_STATUS_LOST]) m m1 :=
    Within.refl.voidTickets.retireConvs.settleBus.voidCommands
  have h3 := (h1.tkt_sublist (nums_filter _ fun t => t.state != TktState.void)).showTickets
  exact .ite h3 h3.faultAt

theorem Within.twinAsleep (h : Within sc m0 m) (hs : Touch.covers sc (Touch.fenceLifted ++ Touch.resigning ++
    Touch.loopBackStart ++ Touch.nandShown ++ Touch.railsFollow ++ Touch.entriesClosed ++ parts [.journal, .bat,
    .nand, .bist, .calCopies, .cfgCopies, .stopped] ++ regs [Reg.TWN_STATUS_LINK, Reg.TWN_STATUS_CFG_MATCH,
    Reg.TWN_STATUS_RESYNC, Reg.JRN_STAGE_STAGED, Reg.PH_STATUS_LATCHED, Reg.RAIL_STATUS_POL_LATCHED,
    Reg.ADC_STATUS_FGCAL, Reg.SB_STATUS_MULTI, Reg.JRN_NEXT_JSN, Reg.JRN_COMMIT_JSN, Reg.JRN_SEALED_EPOCH,
    Reg.JRN_RELEASED_EPOCH, Reg.TWN_EPOCH_EPOCH, Reg.TWN_STATUS_SEQ_ID, Reg.TWN_LAST_FRN, Reg.TWN_PEND_BYTES,
    Reg.FI_CTL_ARM, Reg.RTC_SEC_TAI, Reg.RTC_SUB_SUB, Reg.RTC_UTC_OFFSET, Reg.RTC_STATUS_VALID,
    Reg.RTC_STATUS_SET_EVT, Reg.SVC_STATUS_FAILS, Reg.SVC_STATUS_KEY_ENROLLED, Reg.SVC_STATUS_REQ_SIGNED,
    Reg.MODE_STATUS_PWR_REQ] ++ [.fieldSide, .hostSide]) := by decide +kernel) : Within sc m0 m.twinAsleep := by
  refine h.andThen hs ?_
  unfold Hw.twinAsleep
  exact (.ite Within.refl.clear.part_twin.toRole.acceptReserved (.ite Within.refl.clear.part_twin.toRole
    Within.refl.clear.part_twin))

theorem Within.adcOff (h : Within sc m0 m) (hs : Touch.covers sc (Touch.delivering ++ regs
    [Reg.ADC_EVENTS_DISCARDED, Reg.ADC_STATUS_REF_ON, Reg.ADC_STATUS_REF_SETTLED, Reg.ADC_STATUS_ACTIVE,
    Reg.ADC_STATUS_FGCAL]) := by decide +kernel) : Within sc m0 m.adcOff := by
  refine h.andThen hs ?_
  unfold Hw.adcOff
  exact Within.refl.add.part_adc.clear.showQueue

theorem Within.sequencerQuiet (h : Within sc m0 m) (hs : Touch.covers sc (Touch.freezeEnd) := by decide +kernel) :
    Within sc m0 m.sequencerQuiet :=
  h.andThen hs Within.refl.liftQuiet.part_seq

theorem Within.enterKeepalive (h : Within sc m0 m) (hs : Touch.covers sc (Touch.fenceLifted ++ Touch.powering ++
    Touch.resigning ++ Touch.freezeEnd ++ Touch.disarming ++ Touch.loopBackStart ++ Touch.nandShown ++
    Touch.entriesClosed ++ parts [.nand, .bist, .calCopies, .cfgCopies, .stopped] ++ regs [Reg.RAIL_STATUS_POL_OVR,
    Reg.RAIL_STATUS_QR_OVR, Reg.TWN_STATUS_RESYNC, Reg.JRN_STAGE_STAGED, Reg.PH_STATUS_LATCHED,
    Reg.RAIL_STATUS_POL_LATCHED, Reg.JRN_NEXT_JSN, Reg.JRN_COMMIT_JSN, Reg.JRN_SEALED_EPOCH, Reg.JRN_RELEASED_EPOCH,
    Reg.TWN_EPOCH_EPOCH, Reg.TWN_STATUS_SEQ_ID, Reg.TWN_LAST_FRN, Reg.TWN_PEND_BYTES, Reg.FI_CTL_ARM,
    Reg.RTC_SEC_TAI, Reg.RTC_SUB_SUB, Reg.RTC_UTC_OFFSET, Reg.RTC_STATUS_VALID, Reg.RTC_STATUS_SET_EVT,
    Reg.SVC_STATUS_FAILS, Reg.SVC_STATUS_KEY_ENROLLED, Reg.SVC_STATUS_REQ_SIGNED, Reg.MODE_STATUS_PWR_REQ,
    Reg.ADC_EVENTS_DISCARDED, Reg.DRN_NEXT_JSN, Reg.MODE_STATUS_MODE, Reg.MODE_STATUS_MODE_CHG, Reg.FRM_STATUS_SRC,
    Reg.FRM_STATUS_STATE] ++ arrays [Reg.POL_SET_SET, Reg.QR_SET_SET] ++ [.fieldSide, .hostSide])
    := by decide +kernel) : Within sc m0 m.enterKeepalive := by
  refine h.andThen hs ?_
  unfold Hw.enterKeepalive
  exact (.faltCode (.statPads (.batfet (.railsFollow (.clear (.edits (.disarm (.wrSat (.powerDomains (.nextEpoch
    (.resetRegs (.stopEngines (.setSync (.wr (.wr (.part_jrn (.endDrainHost (.setReq (.adcOff (.twinAsleep
    (.endQrOverrides (.ite Within.refl.sequencerQuiet.voidLeft.stopPhases
    Within.refl.sequencerQuiet.voidLeft.stopPhases.chgTo)))))))))))))))) [.rails, .rl, .modes, .stopped, .bus]))))))

theorem Within.resumeEngines (h : Within sc m0 m) (hs : Touch.covers sc (parts [.engines]) := by decide +kernel) :
    Within sc m0 m.resumeEngines := by
  refine h.andThen hs ?_
  unfold Hw.resumeEngines
  exact (.foldl Within.refl fun _ _ h1 => h1.runEngine)

theorem Within.linksTrain (h : Within sc m0 m) (hs : Touch.covers sc (regs [Reg.TL_F_STATUS_STATE,
    Reg.TL_H_STATUS_STATE, Reg.TWN_STATUS_LINK]) := by decide +kernel) : Within sc m0 m.linksTrain := by
  refine h.andThen hs ?_
  unfold Hw.linksTrain
  exact (.wr (.ite Within.refl.wr.wr Within.refl.wr))

theorem Within.wakeMode (h : Within sc m0 m) {ms} (hs : Touch.covers sc (Touch.issuing ++ parts [.modes, .sub] ++
    regs [Reg.MODE_STATUS_MODE, Reg.MODE_STATUS_MODE_CHG, Reg.BATFET_STATUS_STATE, Reg.MODE_EVENTS_STARTS,
    Reg.START_INFO_KIND, Reg.START_INFO_LAST_MS]) := by decide +kernel) : Within sc m0 (m.wakeMode ms) := by
  refine h.andThen hs ?_
  unfold Hw.wakeMode
  exact Within.refl.part_modes.setMode.bump.wr.wrSat

theorem Within.wakeWork (h : Within sc m0 m) (hs : Touch.covers sc (Touch.issuing ++ Touch.railsFollow ++
    Touch.railSet ++ parts [.rl, .adc, .bus, .waits, .sub, .journal] ++ regs [Reg.RAIL_STATUS_POL_OVR,
    Reg.RAIL_STATUS_QR_OVR, Reg.RL_STATUS_EVQ, Reg.STAT_LATCH_PADS]) := by decide +kernel) : Within sc m0 m.wakeWork :=
  h.andThen hs Within.refl.f4Back.railsFollow.submitSeconds.submitGaps.serveWaits.issueAppends.statPads

theorem Within.wake (h : Within sc m0 m) {ms repairParity} (hs : Touch.covers sc (Touch.powering ++
    Touch.railCommand ++ parts [.bist, .engines, .ph, .modes, .journal] ++ regs [Reg.TKT_EPOCH_EPOCH,
    Reg.MODE_STATUS_MODE, Reg.MODE_STATUS_MODE_CHG, Reg.BATFET_STATUS_STATE, Reg.MODE_EVENTS_STARTS,
    Reg.START_INFO_KIND, Reg.START_INFO_LAST_MS, Reg.ADC_STATUS_ROT_STOP, Reg.STAT_LATCH_PADS])
    := by decide +kernel) : Within sc m0 (m.wake ms repairParity) := by
  refine h.andThen hs ?_
  unfold Hw.wake
  exact (.wakeWork (.linksTrain (.arrange (.refOn (.wakeMode (.ite
    Within.refl.powerDomains.reapply.resumeEngines.nextEpoch.wrB.softStart
    Within.refl.powerDomains.reapply.resumeEngines.nextEpoch.wrB))))))

theorem Within.shipStopped (h : Within sc m0 m) (hs : Touch.covers sc (Touch.issuing ++ parts [.modes, .stopped,
    .faultInput, .adc, .bus, .waits] ++ regs [Reg.MODE_EVENTS_SHIP_REFUSED, Reg.FLT_STATUS_LOST])
    := by decide +kernel) : Within sc m0 m.shipStopped := by
  refine h.andThen hs ?_
  unfold Hw.shipStopped
  exact (.serveWaits (.modeRefused (.bump (.edits Within.refl [.modes, .stopped]))))

theorem Within.enterShip (h : Within sc m0 m) (hs : Touch.covers sc (Touch.fenceLifted ++ Touch.powering ++
    Touch.loopBackEnd ++ Touch.appending ++ Touch.committing ++ Touch.resigning ++ Touch.freezeEnd ++
    Touch.disarming ++ Touch.loopBackStart ++ Touch.entriesClosed ++ parts [.stopped, .bist, .calCopies, .cfgCopies]
    ++ regs [Reg.FI_CTL_ARM, Reg.PH_STATUS_LATCHED, Reg.RAIL_STATUS_POL_LATCHED, Reg.JRN_RELEASED_EPOCH,
    Reg.TWN_STATUS_RESYNC, Reg.TWN_EPOCH_EPOCH, Reg.TWN_STATUS_SEQ_ID, Reg.TWN_LAST_FRN, Reg.RTC_SEC_TAI,
    Reg.RTC_SUB_SUB, Reg.RTC_UTC_OFFSET, Reg.RTC_STATUS_VALID, Reg.RTC_STATUS_SET_EVT, Reg.SVC_STATUS_FAILS,
    Reg.SVC_STATUS_KEY_ENROLLED, Reg.SVC_STATUS_REQ_SIGNED, Reg.MODE_STATUS_PWR_REQ, Reg.RAIL_STATUS_KA_ON,
    Reg.MODE_STATUS_MODE, Reg.MODE_STATUS_SVC_LEVEL] ++ [.fieldSide, .hostSide]) := by decide +kernel) : Within sc
    m0 m.enterShip := by
  refine h.andThen hs ?_
  unfold Hw.enterShip
  exact (.faltCode (.statPads (.batfet (.clearChgEn (.railsFollow (.endSession (.clear (.disarm (.powerDomains
    (.stopEngines (.wr (.wr (.part_modes (.wr (.stopPhases (.sequencerQuiet (.writePowerDown (.commitNow (.resignFor
    (.part_rails (.recordNow (.ite Within.refl.serviceRec.serviceOver Within.refl))))))))))))))))))))))

theorem Within.nextAfterLoss (h : Within sc m0 m) (hs : Touch.covers sc (parts [.journal] ++ regs [Reg.JRN_NEXT_JSN,
    Reg.JRN_STAGE_STAGED, Reg.JRN_STATUS_SEALING]) := by decide +kernel) : Within sc m0 m.nextAfterLoss := by
  refine h.andThen hs ?_
  unfold Hw.nextAfterLoss
  exact (.ite Within.refl.wr.wr.part_jrn.takeSealing Within.refl.wr.wr.part_jrn)

theorem Within.regsLost (h : Within sc m0 m) {l} (hs : Touch.covers sc [.fieldSide] := by decide +kernel) :
    Within sc m0 (m.regsLost l) := by
  refine h.andThen hs (Within.refl.resetRegs.filterSide .field fun e he => ?_)
  split
  · rfl
  · next f hf =>
    rw [fieldOfKey_addr hf]
    simp_all

theorem Within.unitsLost (h : Within sc m0 m) {l} (hs : Touch.covers sc (parts [.engines, .domains, .sidebands,
    .latches, .resetNote, .seq, .xfer, .ph, .bat, .chg, .rails, .rl, .cable, .faultInput, .history, .trackers,
    .overrides, .fences, .recoveries, .partFaults, .histRead, .latchFn, .tickets, .orders, .waits, .fullRun,
    .stopped, .twin, .wdg, .sub]) := by decide +kernel) : Within sc m0 (m.unitsLost l) := by
  refine h.andThen hs ?_
  unfold Hw.unitsLost
  exact .edits Within.refl [.engines, .domains, .sidebands, .latches, .resetNote, .seq, .xfer, .ph, .bat, .chg, .rails,
    .rl, .cable, .faultInput, .history, .trackers, .overrides, .fences, .recoveries, .partFaults, .histRead, .latchFn,
    .tickets, .orders, .waits, .fullRun, .stopped, .twin, .wdg, .sub] (ht := List.nil_sublist _)
    (hi := fun _ => Nat.zero_le _) (hh := fun _ => Nat.zero_le _) (htr := fun _ => Nat.zero_le _)

theorem Within.storesLost (h : Within sc m0 m) {l} (hs : Touch.covers sc (parts [.linkHost, .linkField, .mailbox,
    .snapshot, .drain, .work, .results, .stream7, .alertPad, .hostReady, .pinLow, .hostBusy, .eventLevel,
    .fieldAsleep, .cfgCopies, .modes, .calCopies, .adc, .nand, .journal, .bus, .bist, .slots, .update, .lb])
    := by decide +kernel) : Within sc m0 (m.storesLost l) := by
  refine h.andThen hs ?_
  unfold Hw.storesLost
  exact (.edits Within.refl [.linkHost, .linkField, .mailbox, .snapshot, .drain, .work, .results, .stream7, .alertPad,
    .hostReady, .pinLow, .hostBusy, .eventLevel, .fieldAsleep, .cfgCopies, .modes, .calCopies, .adc, .nand, .journal,
    .bus, .bist, .slots, .update, .lb])

theorem Within.loseBackup (h : Within sc m0 m) (hs : Touch.covers sc (parts [.domains, .modes] ++ [.fieldSide])
    := by decide +kernel) : Within sc m0 m.loseBackup :=
  h.andThen hs Within.refl.resetRegs.setDomain.part_modes

theorem Within.fieldLost (h : Within sc m0 m) {l} (hs : Touch.covers sc (Touch.fieldLost ++ parts [.linkHost,
    .mailbox, .snapshot, .stream7, .hostReady, .pinLow, .hostBusy, .eventLevel, .fieldAsleep, .cfgCopies,
    .calCopies, .nand, .slots, .resetNote] ++ [.fieldSide]) := by decide +kernel) : Within sc m0 (m.fieldLost l) := by
  refine h.andThen hs ?_
  unfold Hw.fieldLost
  exact (.batfet (.showNand (.ite (.loseBackup (.nextAfterLoss (.regsLost (.part_seq (.unitsLost (.storesLost (.wr
    (.ite Within.refl.linkOut.endDrainHost.wr.host_drain Within.refl.linkOut.endDrainHost)))))))) (.nextAfterLoss
    (.regsLost (.part_seq (.unitsLost (.storesLost (.wr (.ite Within.refl.linkOut.endDrainHost.wr.host_drain
    Within.refl.linkOut.endDrainHost))))))))))

theorem Within.latchesUp (h : Within sc m0 m) (hs : Touch.covers sc (parts [.latches] ++ regs
    [Reg.INTAKE_LIM_EFF_LIM]) := by decide +kernel) : Within sc m0 m.latchesUp := by
  refine h.andThen hs ?_
  unfold Hw.latchesUp
  exact (.wr (.edits Within.refl [.latches]))

theorem Within.faonUp (h : Within sc m0 m) (hs : Touch.covers sc (parts [.modes, .domains, .latches] ++ regs
    [Reg.RTC_STATUS_DISCIPLINED, Reg.RTC_STATUS_BKP_LOW, Reg.PH_STATUS_CMODE, Reg.PH_STATUS_BAND, Reg.PH_STATUS_REV,
    Reg.PH_STATUS_FROZEN, Reg.PH_STATUS_ENTRY, Reg.PH_STATUS_SS, Reg.PH_STATUS_GOV, Reg.PH_STATUS_ACTIVE,
    Reg.PH_STATUS_FOLDBACK, Reg.PH_VOLT_VTB, Reg.PH_VOLT_VSYS, Reg.BATFET_STATUS_IBAT, Reg.BATFET_STATUS_TEMP,
    Reg.RAIL_STATUS_POL_ON, Reg.RAIL_STATUS_POL_REG, Reg.RAIL_STATUS_POL_SLEW, Reg.RAIL_STATUS_HOLD_ACT,
    Reg.RAIL_STATUS_QR_ON, Reg.PH_CURR_I, Reg.INTAKE_LIM_EFF_LIM, Reg.BATFET_STATUS_STATE]) := by decide +kernel) :
    Within sc m0 m.faonUp :=
  h.andThen hs Within.refl.part_modes.powerDomain.powerDomain.powerDomain.latchesUp.batfet

theorem Within.kaRead (h : Within sc m0 m) {pack} (hs : Touch.covers sc (parts [.latches, .rails, .faultInput] ++
    regs [Reg.KA_SET_CODE, Reg.KA_SET_EN, Reg.KA_SET_TWIN, Reg.RAIL_STATUS_KA_ON, Reg.FLT_STATUS_LOST])
    := by decide +kernel) : Within sc m0 (m.kaRead pack) := by
  refine h.andThen hs ?_
  unfold Hw.kaRead
  extract_lets word
  clear_value word
  cases word with
  | some w => exact .ite Within.refl.setLatch.wr Within.refl.setLatch
  | none => exact Within.refl.part_rails.fault

theorem Within.rtcAdvance (h : Within sc m0 m) {off} (hs : Touch.covers sc (regs [Reg.RTC_SEC_TAI, Reg.RTC_SUB_SUB])
    := by decide +kernel) : Within sc m0 (m.rtcAdvance off) := by
  refine h.andThen hs ?_
  unfold Hw.rtcAdvance
  exact (.ite Within.refl Within.refl.wr.wr)

theorem Within.faonGood (h : Within sc m0 m) {x} (hs : Touch.covers sc (parts [.modes, .journal, .latches, .rails,
    .faultInput] ++ regs [Reg.RTC_SEC_TAI, Reg.RTC_SUB_SUB, Reg.CHG_STATUS_PRESENT, Reg.KA_SET_CODE, Reg.KA_SET_EN,
    Reg.KA_SET_TWIN, Reg.RAIL_STATUS_KA_ON, Reg.FLT_STATUS_LOST, Reg.BATFET_STATUS_STATE]) := by decide +kernel) :
    Within sc m0 (m.faonGood x) := by
  refine h.andThen hs ?_
  unfold Hw.faonGood
  exact (.batfet (.kaRead (.wrB (.edits (.ite Within.refl.rtcAdvance Within.refl) [.modes, .journal]))))

theorem Within.applySettings (h : Within sc m0 m) {img} (hs : Touch.covers sc (parts [.chg, .overrides])
    := by decide +kernel) : Within sc m0 (m.applySettings img) := by
  refine h.andThen hs ?_
  unfold Hw.applySettings
  exact (.edits Within.refl [.chg, .overrides])

theorem Within.applyLatches (h : Within sc m0 m) (hs : Touch.covers sc (Touch.phasesPick ++ parts [.latches,
    .faultInput] ++ regs [Reg.VSYS_SET_SET, Reg.FLT_STATUS_LOST, Reg.VSYS_MIN_MIN, Reg.XFER_STATUS_DBS,
    Reg.PH_STATUS_SS, Reg.BATFET_STATUS_STATE] ++ arrays [Reg.QR_SET_SET]) := by decide +kernel) : Within sc m0
    m.applyLatches := by
  refine h.andThen hs ?_
  unfold Hw.applyLatches
  exact Within.refl.putLatch.putLatch.putLatch.putLatch.leaveDbs

theorem Within.applyConfig (h : Within sc m0 m) (hs : Touch.covers sc (Touch.phasesPick ++ parts [.overrides,
    .latches, .faultInput, .twin, .seq, .modes, .stopped] ++ regs [Reg.VSYS_SET_SET, Reg.FLT_STATUS_LOST,
    Reg.VSYS_MIN_MIN, Reg.XFER_STATUS_DBS, Reg.PH_STATUS_SS, Reg.BATFET_STATUS_STATE, Reg.SB_STATUS_MULTI,
    Reg.TWN_STATUS_STATE, Reg.TWN_STATUS_DET, Reg.JRN_NEXT_JSN, Reg.JRN_STATUS_SEALING, Reg.MODE_STATUS_PWR_REQ] ++
    arrays [Reg.QR_SET_SET] ++ [.fieldSide, .hostSide]) := by decide +kernel) : Within sc m0 m.applyConfig := by
  refine h.andThen hs ?_
  unfold Hw.applyConfig
  exact (.showReq (.part_seq (.followTwin (.applyLatches (by
    split
    · exact (.applySettings (.foldl Within.refl fun _ _ h1 => h1.takeCfgWord))
    · exact (.foldl Within.refl fun _ _ h1 => h1.takeCfgWord))))))

theorem Within.showDigest (h : Within sc m0 m) {d} (hs : Touch.covers sc (arrays [Reg.CFG_DIGEST_DIGEST])
    := by decide +kernel) : Within sc m0 (m.showDigest d) := by
  refine h.andThen hs ?_
  unfold Hw.showDigest
  exact (.foldl Within.refl fun _ _ h1 => (h1.wrAt Reg.CFG_DIGEST_DIGEST_even))

theorem Within.takeCopy (h : Within sc m0 m) {copy} (hs : Touch.covers sc (parts [.modes] ++ regs
    [Reg.CFG_STATUS_COPY, Reg.CFG_STATUS_SIGNED, Reg.CFG_STATUS_SEQ, Reg.CFG_STATUS_A_OK, Reg.CFG_STATUS_B_OK] ++
    arrays [Reg.CFG_DIGEST_DIGEST]) := by decide +kernel) : Within sc m0 (m.takeCopy copy) := by
  refine h.andThen hs ?_
  unfold Hw.takeCopy
  exact (Within.refl.wr.wrB.wr.wr (by split <;> decide +kernel)).showDigest.part_modes

theorem Within.copyBad (h : Within sc m0 m) {copy why} (hs : Touch.covers sc (parts [.faultInput] ++ regs
    [Reg.FLT_STATUS_LOST]) := by decide +kernel) : Within sc m0 (m.copyBad copy why) :=
  h.andThen hs Within.refl.fault

theorem Within.defaultConfig (h : Within sc m0 m) (hs : Touch.covers sc (parts [.faultInput, .modes] ++ regs
    [Reg.CFG_STATUS_DEFAULT, Reg.FLT_STATUS_LOST]) := by decide +kernel) : Within sc m0 m.defaultConfig :=
  h.andThen hs Within.refl.wr.fault.part_modes

theorem Within.selectConfig (h : Within sc m0 m) (hs : Touch.covers sc (parts [.modes, .faultInput] ++ regs
    [Reg.CFG_STATUS_A_OK, Reg.CFG_STATUS_B_OK, Reg.CFG_STATUS_COPY, Reg.CFG_STATUS_SIGNED, Reg.CFG_STATUS_SEQ,
    Reg.FLT_STATUS_LOST, Reg.CFG_STATUS_DEFAULT] ++ arrays [Reg.CFG_DIGEST_DIGEST]) := by decide +kernel) : Within
    sc m0 m.selectConfig := by
  refine h.andThen hs ?_
  unfold Hw.selectConfig
  exact (.ite (.takeCopy (.ite (Within.refl.wr (by split <;> decide +kernel)) Within.refl)) (.ite
    Within.refl.copyBad.takeCopy Within.refl.copyBad.copyBad.defaultConfig))

theorem Within.failedSlot (h : Within sc m0 m) {e x} (hs : Touch.covers sc (Touch.sideFault ++ Touch.issuing ++
    Touch.sessionEnd ++ Touch.slotSelect ++ parts [.slots, .linkHost, .mailbox, .sub] ++ regs [Reg.HUPD_SEL_PROB,
    Reg.UPD_SEL_PROB, Reg.UPD_PROB_FRAMES, Reg.UPD_EVENTS_ROLLBACKS]) := by decide +kernel) : Within sc m0
    (m.failedSlot e x) := by
  refine h.andThen hs ?_
  unfold Hw.failedSlot
  exact (by
    split
    · exact (.ite Within.refl.rollback.part_upd Within.refl)
    · exact Within.refl)

theorem Within.noSlot (h : Within sc m0 m) {e} (hs : Touch.covers sc (Touch.durable ++ Touch.settling ++
    Touch.typeCOnly ++ Touch.sessionEnd ++ Touch.slotSelect ++ parts [.slots] ++ regs [Reg.MODE_STATUS_MODE,
    Reg.HUPD_STATUS_PERMAFROST, Reg.HUPD_SEL_PROB, Reg.UPD_SEL_PROB, Reg.UPD_PROB_FRAMES, Reg.UPD_EVENTS_ROLLBACKS,
    Reg.TL_H_STATUS_STATE, Reg.TL_F_STATUS_STATE, Reg.ID_STATUS_LINK, Reg.ID_STATUS_FIELD_READY, Reg.TWN_HB_LOST,
    Reg.TWN_STATUS_LINK, Reg.RL_STATUS_SESSION, Reg.RL_STATUS_SPEED] ++ [.fieldSide, .hostSide])
    := by decide +kernel) : Within sc m0 (m.noSlot e) := by
  refine h.andThen hs ?_
  unfold Hw.noSlot
  exact (by
    split
    · exact Within.refl.wr
    · exact Within.refl.wr.part_upd
    · exact Within.refl.fencePerm)

theorem Within.loadSlot (h : Within sc m0 m) {e x} (hs : Touch.covers sc (Touch.durable ++ Touch.settling ++
    Touch.typeCOnly ++ Touch.updateState ++ Touch.sessionEnd ++ Touch.slotSelect ++ parts [.slots] ++ regs
    [Reg.HUPD_SEL_PROB, Reg.UPD_SEL_PROB, Reg.UPD_PROB_FRAMES, Reg.UPD_EVENTS_ROLLBACKS, Reg.MODE_STATUS_MODE,
    Reg.HUPD_STATUS_PERMAFROST, Reg.TL_H_STATUS_STATE, Reg.TL_F_STATUS_STATE, Reg.ID_STATUS_LINK,
    Reg.ID_STATUS_FIELD_READY, Reg.TWN_HB_LOST, Reg.TWN_STATUS_LINK, Reg.RL_STATUS_SESSION, Reg.RL_STATUS_SPEED] ++
    [.fieldSide, .hostSide]) := by decide +kernel) : Within sc m0 (m.loadSlot e x) := by
  refine h.andThen hs ?_
  unfold Hw.loadSlot
  exact (.ite (.noSlot (.ite (.selectSlot (.ite Within.refl.failedSlot.failedSlot Within.refl)) (.ite
    Within.refl.failedSlot.failedSlot Within.refl))) (.ite (.ite (.rejected (.selectSlot (.slotState (.ite
    (.selectSlot (.ite Within.refl.failedSlot.failedSlot Within.refl)) (.ite Within.refl.failedSlot.failedSlot
    Within.refl))))) (.noSlot (.ite (.selectSlot (.ite Within.refl.failedSlot.failedSlot Within.refl)) (.ite
    Within.refl.failedSlot.failedSlot Within.refl)))) (.ite (.selectSlot (.ite Within.refl.failedSlot.failedSlot
    Within.refl)) (.ite Within.refl.failedSlot.failedSlot Within.refl))))

theorem Within.loadSlots (h : Within sc m0 m) {x} (hs : Touch.covers sc (Touch.durable ++ Touch.settling ++
    Touch.typeCOnly ++ Touch.updateState ++ Touch.sessionEnd ++ Touch.slotSelect ++ parts [.slots] ++ regs
    [Reg.HUPD_SEL_PROB, Reg.UPD_SEL_PROB, Reg.UPD_PROB_FRAMES, Reg.UPD_EVENTS_ROLLBACKS, Reg.MODE_STATUS_MODE,
    Reg.HUPD_STATUS_PERMAFROST, Reg.TL_H_STATUS_STATE, Reg.TL_F_STATUS_STATE, Reg.ID_STATUS_LINK,
    Reg.ID_STATUS_FIELD_READY, Reg.TWN_HB_LOST, Reg.TWN_STATUS_LINK, Reg.RL_STATUS_SESSION, Reg.RL_STATUS_SPEED] ++
    [.fieldSide, .hostSide]) := by decide +kernel) : Within sc m0 (m.loadSlots x) := by
  refine h.andThen hs ?_
  unfold Hw.loadSlots
  exact (.foldl Within.refl fun _ _ h1 => h1.loadSlot)

theorem Within.rebuildNumbers (h : Within sc m0 m) (hs : Touch.covers sc (regs [Reg.TKT_EPOCH_EPOCH,
    Reg.TWN_EPOCH_EPOCH] ++ arrays [Reg.HOST_SEQ_N]) := by decide +kernel) : Within sc m0 m.rebuildNumbers := by
  refine h.andThen hs ?_
  unfold Hw.rebuildNumbers
  exact (.foldl Within.refl.wr.wr fun _ _ h3 => (h3.wrAt Reg.HOST_SEQ_N_even))

theorem Within.startInfo (h : Within sc m0 m) {kind ms} (hs : Touch.covers sc (regs [Reg.START_INFO_KIND,
    Reg.START_INFO_LAST_MS]) := by decide +kernel) : Within sc m0 (m.startInfo kind ms) :=
  h.andThen hs Within.refl.wr.wrSat

theorem Within.startEngines (h : Within sc m0 m) (hs : Touch.covers sc (parts [.engines] ++ regs
    [Reg.TL_F_STATUS_STATE, Reg.TL_H_STATUS_STATE, Reg.TWN_STATUS_LINK]) := by decide +kernel) : Within sc m0
    m.startEngines := by
  refine h.andThen hs ?_
  unfold Hw.startEngines
  exact (.ite Within.refl.linksTrain Within.refl.resumeEngines.linksTrain)

theorem Within.frost (h : Within sc m0 m) (hs : Touch.covers sc (Touch.freezeEnd ++ Touch.issuing ++ parts [.sub] ++
    regs [Reg.FRM_STATUS_SRC, Reg.FRM_STATUS_STATE]) := by decide +kernel) : Within sc m0 m.frost :=
  h.andThen hs Within.refl.setSync.part_seq.liftQuiet.batfet

theorem Within.coldWork (h : Within sc m0 m) (hs : Touch.covers sc (Touch.fenceLifted ++ Touch.appending ++
    Touch.resigning ++ Touch.loopBackStart ++ Touch.nandShown ++ Touch.railsFollow ++ Touch.entriesClosed ++ parts
    [.bat, .nand, .bist, .calCopies, .cfgCopies, .stopped] ++ regs [Reg.CAL_DATE_DATE, Reg.CAL_DUE_DUE,
    Reg.CAL_REF_REF_TRUE, Reg.CAL_SEQ_SEQ, Reg.CAL_SEQ_SIGNED, Reg.CAL_SEQ_COPY, Reg.CAL_SEQ_NOMINAL,
    Reg.ADC_STATUS_DUE_PASSED, Reg.ADC_STATUS_REF_ON, Reg.ADC_STATUS_REF_SETTLED, Reg.TWN_EPOCH_EPOCH,
    Reg.RAIL_STATUS_POL_OVR, Reg.RAIL_STATUS_QR_OVR, Reg.PH_STATUS_LATCHED, Reg.RAIL_STATUS_POL_LATCHED,
    Reg.ADC_STATUS_FGCAL, Reg.SB_STATUS_MULTI, Reg.JRN_COMMIT_JSN, Reg.JRN_SEALED_EPOCH, Reg.JRN_RELEASED_EPOCH,
    Reg.TWN_STATUS_RESYNC, Reg.TWN_STATUS_SEQ_ID, Reg.TWN_LAST_FRN, Reg.FI_CTL_ARM, Reg.RTC_SEC_TAI,
    Reg.RTC_SUB_SUB, Reg.RTC_UTC_OFFSET, Reg.RTC_STATUS_VALID, Reg.RTC_STATUS_SET_EVT, Reg.SVC_STATUS_FAILS,
    Reg.SVC_STATUS_KEY_ENROLLED, Reg.SVC_STATUS_REQ_SIGNED, Reg.MODE_STATUS_PWR_REQ] ++ arrays [Reg.CAL_CERT_ID_ID,
    Reg.POL_SET_SET, Reg.QR_SET_SET] ++ [.fieldSide, .hostSide]) := by decide +kernel) : Within sc m0 m.coldWork :=
  h.andThen hs Within.refl.selectCal.refOn.arrange.rebuildNumbers.f4Back.railsFollow.sendF.appendMany

theorem Within.coldStart (h : Within sc m0 m) {x} (hs : Touch.covers sc (Touch.durable ++ Touch.powering ++
    Touch.settling ++ Touch.railCommand ++ Touch.appending ++ Touch.typeCOnly ++ Touch.freezeEnd ++
    Touch.updateState ++ Touch.slotSelect ++ parts [.slots, .overrides] ++ regs [Reg.CHG_STATUS_PRESENT,
    Reg.KA_SET_CODE, Reg.KA_SET_EN, Reg.KA_SET_TWIN, Reg.RAIL_STATUS_KA_ON, Reg.BIST_STATUS_GROUPS,
    Reg.BIST_REPMAP_MAP, Reg.BIST_FAILMAP_MAP, Reg.BIST_STATUS_REPAIRED, Reg.BIST_STATUS_FAILED,
    Reg.HBIST_STATUS_REPMAP, Reg.HBIST_STATUS_FAILMAP, Reg.CFG_STATUS_A_OK, Reg.CFG_STATUS_B_OK,
    Reg.CFG_STATUS_COPY, Reg.CFG_STATUS_SIGNED, Reg.CFG_STATUS_SEQ, Reg.CFG_STATUS_DEFAULT, Reg.HUPD_SEL_PROB,
    Reg.UPD_SEL_PROB, Reg.UPD_EVENTS_ROLLBACKS, Reg.HUPD_STATUS_STATE, Reg.MODE_STATUS_MODE,
    Reg.HUPD_STATUS_PERMAFROST, Reg.TWN_HB_LOST, Reg.RL_STATUS_SESSION, Reg.FRM_STATUS_SRC, Reg.FRM_STATUS_STATE,
    Reg.VSYS_SET_SET, Reg.VSYS_MIN_MIN, Reg.CAL_DATE_DATE, Reg.CAL_DUE_DUE, Reg.CAL_REF_REF_TRUE, Reg.CAL_SEQ_SEQ,
    Reg.CAL_SEQ_SIGNED, Reg.CAL_SEQ_COPY, Reg.CAL_SEQ_NOMINAL, Reg.ADC_STATUS_DUE_PASSED, Reg.START_INFO_KIND,
    Reg.START_INFO_LAST_MS] ++ arrays [Reg.CFG_DIGEST_DIGEST, Reg.CAL_CERT_ID_ID] ++ [.fieldSide, .hostSide])
    := by decide +kernel) : Within sc m0 (m.coldStart x) := by
  refine h.andThen hs ?_
  unfold Hw.coldStart
  exact (.ite (.ite Within.refl Within.refl.faonGood) (.startInfo (.part_modes (.ite (.rebuildNumbers (.startEngines
    (.powerDomains (.ite (.frost (.loadSlots (.selectConfig (.restPass (.powerDomains (.ite Within.refl
    Within.refl.faonGood)))))) (.applyConfig (.loadSlots (.selectConfig (.restPass (.powerDomains (.ite Within.refl
    Within.refl.faonGood)))))))))) (.coldWork (.startEngines (.powerDomains (.ite (.frost (.loadSlots (.selectConfig
    (.restPass (.powerDomains (.ite Within.refl Within.refl.faonGood)))))) (.applyConfig (.loadSlots (.selectConfig
    (.restPass (.powerDomains (.ite Within.refl Within.refl.faonGood))))))))))))))

theorem Within.rereadConfig (h : Within sc m0 m) (hs : Touch.covers sc (Touch.durable ++ Touch.settling ++
    Touch.loopBackEnd ++ Touch.typeCOnly ++ Touch.sessionEnd ++ Touch.slotSelect ++ parts [.slots] ++ regs
    [Reg.CFG_STATUS_COPY, Reg.CFG_STATUS_SEQ, Reg.CFG_STATUS_SIGNED, Reg.CFG_STATUS_REREAD_FAIL, Reg.HUPD_SEL_PROB,
    Reg.UPD_SEL_PROB, Reg.UPD_PROB_FRAMES, Reg.UPD_EVENTS_ROLLBACKS, Reg.TWN_HB_LOST] ++ arrays
    [Reg.CFG_DIGEST_DIGEST] ++ [.fieldSide, .hostSide]) := by decide +kernel) : Within sc m0 m.rereadConfig := by
  refine h.andThen hs ?_
  unfold Hw.rereadConfig
  exact (by
    split
    · exact Within.refl
    · exact (.ite Within.refl (.ite Within.refl.wr.wr.showDigest.wrB.part_modes (.foldl Within.refl.wr.fault fun _ _
      h2 => h2.applyFence))))

theorem Within.takeNote (h : Within sc m0 m) (hs : Touch.covers sc (Touch.issuing ++ parts [.update, .linkHost,
    .mailbox, .sub]) := by decide +kernel) : Within sc m0 m.takeNote := by
  refine h.andThen hs ?_
  unfold Hw.takeNote
  exact (by
    split
    · exact Within.refl.part_upd.updateRec
    · exact Within.refl)

theorem Within.resubmit (h : Within sc m0 m) (hs : Touch.covers sc (Touch.fenceLifted ++ Touch.appending ++
    Touch.resigning ++ Touch.loopBackStart ++ Touch.nandShown ++ Touch.railsFollow ++ Touch.entriesClosed ++ parts
    [.seq, .bat, .nand, .bist, .calCopies, .cfgCopies, .stopped] ++ regs [Reg.PH_STATUS_LATCHED,
    Reg.RAIL_STATUS_POL_LATCHED, Reg.ADC_STATUS_FGCAL, Reg.SB_STATUS_MULTI, Reg.JRN_COMMIT_JSN,
    Reg.JRN_SEALED_EPOCH, Reg.JRN_RELEASED_EPOCH, Reg.TWN_STATUS_RESYNC, Reg.TWN_EPOCH_EPOCH, Reg.TWN_STATUS_SEQ_ID,
    Reg.TWN_LAST_FRN, Reg.FI_CTL_ARM, Reg.RTC_SEC_TAI, Reg.RTC_SUB_SUB, Reg.RTC_UTC_OFFSET, Reg.RTC_STATUS_VALID,
    Reg.RTC_STATUS_SET_EVT, Reg.SVC_STATUS_FAILS, Reg.SVC_STATUS_KEY_ENROLLED, Reg.SVC_STATUS_REQ_SIGNED,
    Reg.MODE_STATUS_PWR_REQ] ++ [.fieldSide, .hostSide]) := by decide +kernel) : Within sc m0 m.resubmit := by
  refine h.andThen hs ?_
  unfold Hw.resubmit
  exact Within.refl.resubmitFaults.submitSeconds.submitGaps.submitSync.appendMany

theorem Within.warmWork (h : Within sc m0 m) (hs : Touch.covers sc (Touch.fenceLifted ++ Touch.appending ++
    Touch.resigning ++ Touch.loopBackStart ++ Touch.nandShown ++ Touch.railsFollow ++ Touch.entriesClosed ++ parts
    [.seq, .bat, .nand, .bist, .calCopies, .cfgCopies, .stopped, .update] ++ regs [Reg.PH_STATUS_LATCHED,
    Reg.RAIL_STATUS_POL_LATCHED, Reg.ADC_STATUS_FGCAL, Reg.SB_STATUS_MULTI, Reg.JRN_COMMIT_JSN,
    Reg.JRN_SEALED_EPOCH, Reg.JRN_RELEASED_EPOCH, Reg.TWN_STATUS_RESYNC, Reg.TWN_EPOCH_EPOCH, Reg.TWN_STATUS_SEQ_ID,
    Reg.TWN_LAST_FRN, Reg.FI_CTL_ARM, Reg.RTC_SEC_TAI, Reg.RTC_SUB_SUB, Reg.RTC_UTC_OFFSET, Reg.RTC_STATUS_VALID,
    Reg.RTC_STATUS_SET_EVT, Reg.SVC_STATUS_FAILS, Reg.SVC_STATUS_KEY_ENROLLED, Reg.SVC_STATUS_REQ_SIGNED,
    Reg.MODE_STATUS_PWR_REQ, Reg.RAIL_STATUS_POL_OVR, Reg.RAIL_STATUS_QR_OVR] ++ arrays [Reg.POL_SET_SET,
    Reg.QR_SET_SET] ++ [.fieldSide, .hostSide]) := by decide +kernel) : Within sc m0 m.warmWork :=
  h.andThen hs Within.refl.resubmit.takeNote.f4Back.railsFollow.serveWaits.issueAppends.deliver

theorem Within.tellReset (h : Within sc m0 m) (hs : Touch.covers sc (Touch.issuing ++ parts [.linkField])
    := by decide +kernel) : Within sc m0 m.tellReset := by
  refine h.andThen hs ?_
  unfold Hw.tellReset
  exact (.ite Within.refl Within.refl.sendF)

theorem Within.warmStart (h : Within sc m0 m) {x} (hs : Touch.covers sc (Touch.durable ++ Touch.powering ++
    Touch.settling ++ Touch.railCommand ++ Touch.appending ++ Touch.typeCOnly ++ Touch.freezeEnd ++
    Touch.updateState ++ Touch.slotSelect ++ parts [.slots, .hp, .overrides] ++ regs [Reg.CFG_STATUS_COPY,
    Reg.CFG_STATUS_SEQ, Reg.CFG_STATUS_SIGNED, Reg.CFG_STATUS_REREAD_FAIL, Reg.HUPD_SEL_PROB, Reg.UPD_SEL_PROB,
    Reg.UPD_EVENTS_ROLLBACKS, Reg.HUPD_STATUS_STATE, Reg.TWN_HB_LOST, Reg.RL_STATUS_SESSION, Reg.BIST_STATUS_HALTED,
    Reg.MODE_STATUS_MODE, Reg.HUPD_STATUS_PERMAFROST, Reg.FRM_STATUS_SRC, Reg.FRM_STATUS_STATE, Reg.VSYS_SET_SET,
    Reg.VSYS_MIN_MIN, Reg.MODE_EVENTS_STARTS, Reg.MODE_STATUS_MODE_CHG, Reg.START_INFO_KIND, Reg.START_INFO_LAST_MS]
    ++ arrays [Reg.CFG_DIGEST_DIGEST] ++ [.fieldSide, .hostSide]) := by decide +kernel) : Within sc m0 (m.warmStart
    x) := by
  refine h.andThen hs ?_
  unfold Hw.warmStart
  exact (.startInfo (.tellReset (.edits (.ite (.ite (.bump (.startEngines (.ite (.frost (.loadSlots (.ite
    Within.refl.part_bist.reapply.rereadConfig.wr.wr Within.refl.part_bist.reapply.rereadConfig.wr))) (.ite
    (.loadSlots (.ite Within.refl.part_bist.reapply.rereadConfig.wr.wr Within.refl.part_bist.reapply.rereadConfig.wr))
    (.applyConfig (.loadSlots (.ite Within.refl.part_bist.reapply.rereadConfig.wr.wr
    Within.refl.part_bist.reapply.rereadConfig.wr))))))) (.warmWork (.bump (.startEngines (.ite (.frost (.loadSlots
    (.ite Within.refl.part_bist.reapply.rereadConfig.wr.wr Within.refl.part_bist.reapply.rereadConfig.wr))) (.ite
    (.loadSlots (.ite Within.refl.part_bist.reapply.rereadConfig.wr.wr Within.refl.part_bist.reapply.rereadConfig.wr))
    (.applyConfig (.loadSlots (.ite Within.refl.part_bist.reapply.rereadConfig.wr.wr
    Within.refl.part_bist.reapply.rereadConfig.wr))))))))) (.setMode (.arrange (.refOn (.powerDomains (.ite (.bump
    (.startEngines (.ite (.frost (.loadSlots (.ite Within.refl.part_bist.reapply.rereadConfig.wr.wr
    Within.refl.part_bist.reapply.rereadConfig.wr))) (.ite (.loadSlots (.ite
    Within.refl.part_bist.reapply.rereadConfig.wr.wr Within.refl.part_bist.reapply.rereadConfig.wr)) (.applyConfig
    (.loadSlots (.ite Within.refl.part_bist.reapply.rereadConfig.wr.wr
    Within.refl.part_bist.reapply.rereadConfig.wr))))))) (.warmWork (.bump (.startEngines (.ite (.frost (.loadSlots
    (.ite Within.refl.part_bist.reapply.rereadConfig.wr.wr Within.refl.part_bist.reapply.rereadConfig.wr))) (.ite
    (.loadSlots (.ite Within.refl.part_bist.reapply.rereadConfig.wr.wr Within.refl.part_bist.reapply.rereadConfig.wr))
    (.applyConfig (.loadSlots (.ite Within.refl.part_bist.reapply.rereadConfig.wr.wr
    Within.refl.part_bist.reapply.rereadConfig.wr)))))))))))))) [.sidebands, .modes])))

theorem Within.pgFall (h : Within sc m0 m) {d} (hs : Touch.covers sc (Touch.powering ++ Touch.fieldLost ++
    Touch.charging ++ parts [.linkHost, .mailbox, .snapshot, .stream7, .hostReady, .pinLow, .hostBusy, .eventLevel,
    .fieldAsleep, .cfgCopies, .calCopies, .nand, .slots, .resetNote] ++ regs [Reg.RL_STATUS_SESSION] ++ [.fieldSide,
    .hostSide]) := by decide +kernel) : Within sc m0 (m.pgFall d) := by
  refine h.andThen hs ?_
  unfold Hw.pgFall
  exact (.ite Within.refl (.ite Within.refl.fieldLost Within.refl.setDomain.darken_any.unitsDark.sideFault_any))

theorem Within.stagingLost (h : Within sc m0 m) (hs : Touch.covers sc (Touch.issuing ++ parts [.journal, .adc, .bus,
    .waits, .sub] ++ regs [Reg.JRN_NEXT_JSN, Reg.JRN_STAGE_STAGED, Reg.JRN_STATUS_SEALING]) := by decide +kernel) :
    Within sc m0 m.stagingLost := by
  refine h.andThen hs ?_
  unfold Hw.stagingLost
  exact (.foldl Within.refl.part_jrn.nextAfterLoss fun _ _ h2 => h2.dropTicket)

theorem Within.domainBack (h : Within sc m0 m) {d} (hs : Touch.covers sc (Touch.fieldReset ++ Touch.hostReset ++
    Touch.phasesStop ++ Touch.railsFollow ++ parts [.domains, .intake, .xfer, .cfgCopies] ++ regs
    [Reg.INTAKE_LIM_EFF_LIM, Reg.INTAKE_LIM_EFF_CAUSE, Reg.RTC_STATUS_DISCIPLINED, Reg.RTC_STATUS_BKP_LOW,
    Reg.PH_VOLT_VTB, Reg.PH_VOLT_VSYS, Reg.BATFET_STATUS_IBAT, Reg.BATFET_STATUS_TEMP, Reg.PH_CURR_I,
    Reg.ADC_STATUS_REF_ON, Reg.ADC_STATUS_REF_SETTLED, Reg.ADC_STATUS_ACTIVE, Reg.ADC_STATUS_SPARE,
    Reg.ADC_STATUS_ROT_STOP, Reg.JRN_STAGE_STAGED] ++ [.hostSide, .fieldSide]) := by decide +kernel) : Within sc m0
    (m.domainBack d) := by
  refine h.andThen hs ?_
  unfold Hw.domainBack
  exact (by
    extract_lets
    split
    · exact (.edits Within.refl.setDomain.hostBlank [.cfgCopies, .modes])
    · exact Within.refl.setDomain.hostReset.part_bist
    · exact Within.refl.setDomain.stageLatchesUp
    · exact Within.refl.setDomain
    · exact Within.refl.setDomain.faonUp
    · exact Within.refl.setDomain.fieldReset
    · exact Within.refl.setDomain.refOn.arrange
    · exact Within.refl.setDomain.batfet.railsFollow
    · exact Within.refl.setDomain.stagingLost
    · exact Within.refl.setDomain.wr.endSession)

theorem Within.switchOn (h : Within sc m0 m) {d} (hs : Touch.covers sc (Touch.fieldReset ++ Touch.hostReset ++
    Touch.phasesStop ++ Touch.railsFollow ++ parts [.domains, .intake, .xfer, .cfgCopies] ++ regs
    [Reg.INTAKE_LIM_EFF_LIM, Reg.INTAKE_LIM_EFF_CAUSE, Reg.RTC_STATUS_DISCIPLINED, Reg.RTC_STATUS_BKP_LOW,
    Reg.PH_VOLT_VTB, Reg.PH_VOLT_VSYS, Reg.BATFET_STATUS_IBAT, Reg.BATFET_STATUS_TEMP, Reg.PH_CURR_I,
    Reg.ADC_STATUS_REF_ON, Reg.ADC_STATUS_REF_SETTLED, Reg.ADC_STATUS_ACTIVE, Reg.ADC_STATUS_SPARE,
    Reg.ADC_STATUS_ROT_STOP, Reg.JRN_STAGE_STAGED] ++ [.hostSide, .fieldSide]) := by decide +kernel) : Within sc m0
    (m.switchOn d) := by
  refine h.andThen hs ?_
  unfold Hw.switchOn
  exact (.ite Within.refl.setDomain Within.refl.domainBack)

theorem Within.rtcTick (h : Within sc m0 m) {len} (hs : Touch.covers sc (parts [.journal] ++ regs [Reg.RTC_SEC_TAI,
    Reg.RTC_SUB_SUB]) := by decide +kernel) : Within sc m0 (m.rtcTick len) := by
  refine h.andThen hs ?_
  unfold Hw.rtcTick
  exact (.ite Within.refl Within.refl.wr.wr.part_jrn)

theorem Within.advanceFrn (h : Within sc m0 m) (hs : Touch.covers sc (regs [Reg.FRM_FRN_FRN, Reg.FRM_WRAP_WRAP])
    := by decide +kernel) : Within sc m0 m.advanceFrn := by
  refine h.andThen hs ?_
  unfold Hw.advanceFrn
  exact (.ite Within.refl.wr.bump Within.refl.wr)

theorem Within.carryRun (h : Within sc m0 m) (hs : Touch.covers sc (parts [.seq]) := by decide +kernel) : Within sc
    m0 m.carryRun :=
  h.andThen hs Within.refl.part_seq

theorem Within.closeFrame (h : Within sc m0 m) (hs : Touch.covers sc (Touch.time ++ parts [.journal] ++ regs
    [Reg.RTC_SEC_TAI, Reg.RTC_SUB_SUB, Reg.FRM_LEN_LAST, Reg.FRM_FRN_FRN, Reg.FRM_WRAP_WRAP]) := by decide +kernel)
    : Within sc m0 m.closeFrame := by
  refine h.andThen hs ?_
  unfold Hw.closeFrame
  exact Within.refl.atT.carryRun.part_jrn.rtcTick.wr.part_seq.advanceFrn

theorem Within.lockTick (h : Within sc m0 m) {src} (hs : Touch.covers sc (Touch.issuing ++ parts [.seq, .sub] ++
    regs [Reg.FRM_STATUS_SRC, Reg.FRM_STATUS_STATE]) := by decide +kernel) : Within sc m0 (m.lockTick src) := by
  refine h.andThen hs ?_
  unfold Hw.lockTick
  exact (.ite Within.refl.part_seq.setSync (.ite Within.refl.part_seq.setSync Within.refl.part_seq))

theorem Within.tracksTick (h : Within sc m0 m) (hs : Touch.covers sc (parts [.seq]) := by decide +kernel) : Within
    sc m0 m.tracksTick := by
  refine h.andThen hs ?_
  unfold Hw.tracksTick
  exact (.ite (.setTrack (.ite (.setTrack (.ite (.setTrack (.ite Within.refl.setTrack Within.refl.setTrack))
    (.setTrack (.ite Within.refl.setTrack Within.refl.setTrack)))) (.setTrack (.ite (.setTrack (.ite
    Within.refl.setTrack Within.refl.setTrack)) (.setTrack (.ite Within.refl.setTrack Within.refl.setTrack))))))
    (.setTrack (.ite (.setTrack (.ite (.setTrack (.ite Within.refl.setTrack Within.refl.setTrack)) (.setTrack (.ite
    Within.refl.setTrack Within.refl.setTrack)))) (.setTrack (.ite (.setTrack (.ite Within.refl.setTrack
    Within.refl.setTrack)) (.setTrack (.ite Within.refl.setTrack Within.refl.setTrack)))))))

theorem Within.syncTick (h : Within sc m0 m) (hs : Touch.covers sc (Touch.issuing ++ parts [.seq, .sub] ++ regs
    [Reg.FRM_STATUS_SRC, Reg.FRM_STATUS_STATE]) := by decide +kernel) : Within sc m0 m.syncTick := by
  refine h.andThen hs ?_
  unfold Hw.syncTick
  exact (by
    extract_lets
    split
    · exact (.part_seq (.part_seq (.ite Within.refl.tracksTick.part_seq.setSync Within.refl.tracksTick)))
    · exact (.part_seq (.ite Within.refl.tracksTick.part_seq.setSync Within.refl.tracksTick))
    · exact (.lockTick (.part_seq (.ite Within.refl.tracksTick.part_seq.setSync Within.refl.tracksTick)))
    · exact (.part_seq (.ite Within.refl.tracksTick.part_seq.setSync Within.refl.tracksTick)))

theorem Within.planTick (h : Within sc m0 m) (hs : Touch.covers sc (parts [.latches, .rails, .rl] ++ regs
    [Reg.FRM_STATUS_PLAN, Reg.RAIL_STATUS_HOLD_ACT, Reg.RL_STATUS_EVQ]) := by decide +kernel) : Within sc m0
    m.planTick := by
  refine h.andThen hs ?_
  unfold Hw.planTick
  exact (.foldl (.part_rl (.part_rails (.ite (Within.refl.newPolicy (fun _ h1 => h1.wr.putLatch)).wr
    (Within.refl.newPolicy (fun _ h1 => h1.wr.putLatch))))) fun _ _ h4 => h4.rlEvent)

theorem Within.padTick (h : Within sc m0 m) (hs : Touch.covers sc (parts [.seq, .cable]) := by decide +kernel) :
    Within sc m0 m.padTick := by
  refine h.andThen hs ?_
  unfold Hw.padTick
  exact (.edits Within.refl [.seq, .cable])

theorem Within.budgetOf (h : Within sc m0 m) {n busy len} (hs : Touch.covers sc (parts [.faultInput] ++ regs
    [Reg.FLT_STATUS_LOST] ++ arrays [Reg.FRM_BUD_USED_LAST, Reg.FRM_BUD_OVERRUNS]) := by decide +kernel) : Within sc
    m0 (m.budgetOf n busy len) := by
  refine h.andThen hs ?_
  unfold Hw.budgetOf
  exact (.ite ((Within.refl.wrAt Reg.FRM_BUD_USED_LAST_even).bumpAt Reg.FRM_BUD_OVERRUNS_even).faultAt
    (Within.refl.wrAt Reg.FRM_BUD_USED_LAST_even))

theorem Within.busyTick (h : Within sc m0 m) {f} (hs : Touch.covers sc (parts [.faultInput] ++ regs
    [Reg.FLT_STATUS_LOST] ++ arrays [Reg.FRM_BUD_USED_LAST, Reg.FRM_BUD_OVERRUNS]) := by decide +kernel) : Within sc
    m0 (m.busyTick f) := by
  refine h.andThen hs ?_
  unfold Hw.busyTick
  exact (.foldl Within.refl fun _ _ h1 => h1.budgetOf)

theorem Within.shipTick (h : Within sc m0 m) {f} (hs : Touch.covers sc (parts [.modes] ++ regs
    [Reg.MODE_STATUS_SHIP_N]) := by decide +kernel) : Within sc m0 (m.shipTick f) :=
  h.andThen hs Within.refl.wrB.part_modes

theorem Within.modeCounts (h : Within sc m0 m) (hs : Touch.covers sc (parts [.modes]) := by decide +kernel) : Within
    sc m0 m.modeCounts :=
  h.andThen hs Within.refl.part_modes

theorem Within.snapshot (h : Within sc m0 m) (hs : Touch.covers sc (Touch.issuing ++ parts [.linkField])
    := by decide +kernel) : Within sc m0 m.snapshot := by
  refine h.andThen hs ?_
  unfold Hw.snapshot
  exact (.ite Within.refl (.foldl Within.refl fun _ _ h1 => h1.sendF))

theorem Within.ageTick (h : Within sc m0 m) (hs : Touch.covers sc (parts [.snapshot] ++ regs [Reg.ID_SNAP_AGE_AGE])
    := by decide +kernel) : Within sc m0 m.ageTick := by
  refine h.andThen hs ?_
  unfold Hw.ageTick
  exact (.ite Within.refl.host_snap.wrSat Within.refl.host_snap.add)

theorem Within.linkTick (h : Within sc m0 m) (hs : Touch.covers sc (Touch.sideFault ++ Touch.issuing ++ parts
    [.linkHost, .linkField, .twin, .snapshot] ++ regs [Reg.ID_SNAP_AGE_AGE]) := by decide +kernel) : Within sc m0
    m.linkTick := by
  refine h.andThen hs ?_
  unfold Hw.linkTick
  exact (.ageTick (.serveResync (.flushAcks (.ite (.ite (.ite (.edits Within.refl [.linkHost, .linkField, .twin])
    (.faultAt (.edits Within.refl [.linkHost, .linkField, .twin]))) (.hfaultAt (.ite (.edits Within.refl [.linkHost,
    .linkField, .twin]) (.faultAt (.edits Within.refl [.linkHost, .linkField, .twin]))))) (.fault (.ite (.ite (.edits
    Within.refl [.linkHost, .linkField, .twin]) (.faultAt (.edits Within.refl [.linkHost, .linkField, .twin])))
    (.hfaultAt (.ite (.edits Within.refl [.linkHost, .linkField, .twin]) (.faultAt (.edits Within.refl [.linkHost,
    .linkField, .twin]))))))))))

theorem Within.rangeTick (h : Within sc m0 m) (hs : Touch.covers sc (parts [.adc]) := by decide +kernel) : Within sc
    m0 m.rangeTick :=
  h.andThen hs Within.refl.part_adc

theorem Within.fgTick (h : Within sc m0 m) (hs : Touch.covers sc (parts [.adc]) := by decide +kernel) : Within sc m0
    m.fgTick := by
  refine h.andThen hs ?_
  unfold Hw.fgTick
  exact (by
    split
    · exact Within.refl
    · exact Within.refl.part_adc)

theorem Within.adcRuns (h : Within sc m0 m) (hs : Touch.covers sc (parts [.adc]) := by decide +kernel) : Within sc
    m0 m.adcRuns :=
  h.andThen hs Within.refl.part_adc

theorem Within.scanTick (h : Within sc m0 m) {l} (hs : Touch.covers sc (parts [.adc] ++ arrays [Reg.ADC_LAST_VALUE,
    Reg.ADC_LAST_FLAGS]) := by decide +kernel) : Within sc m0 (m.scanTick l) := by
  refine h.andThen hs ?_
  unfold Hw.scanTick
  exact (.foldl Within.refl.part_adc fun _ _ h2 => ((h2.wrAt Reg.ADC_LAST_VALUE_even).wrAt Reg.ADC_LAST_FLAGS_even))

theorem Within.measureTick (h : Within sc m0 m) {f} (hs : Touch.covers sc (Touch.issuing ++ parts [.adc, .sub,
    .linkField] ++ regs [Reg.ADC_CAL_AGE_AGE, Reg.ADC_STATUS_STALE, Reg.CAL_DATE_DATE, Reg.CAL_DUE_DUE,
    Reg.CAL_REF_REF_TRUE, Reg.CAL_SEQ_SEQ, Reg.CAL_SEQ_SIGNED, Reg.CAL_SEQ_COPY, Reg.CAL_SEQ_NOMINAL,
    Reg.ADC_STATUS_DUE_PASSED] ++ arrays [Reg.ADC_LAST_VALUE, Reg.ADC_LAST_FLAGS, Reg.CAL_CERT_ID_ID])
    := by decide +kernel) : Within sc m0 (m.measureTick f) := by
  refine h.andThen hs ?_
  unfold Hw.measureTick
  exact (.ite Within.refl.rangeTick.fgTick.adcRuns.seqTick.scanTick.wr.wrB (.sendAdcThaw (by
    split
    · exact Within.refl.rangeTick.fgTick.adcRuns.seqTick.scanTick.wr.wrB.part_adc.applyCal
    · exact Within.refl.rangeTick.fgTick.adcRuns.seqTick.scanTick.wr.wrB.part_adc)))

theorem Within.trimPhase (h : Within sc m0 m) {sum i n move} (hs : Touch.covers sc (Touch.latchSet ++
    Touch.sideFault ++ parts [.chg, .ph]) := by decide +kernel) : Within sc m0 (m.trimPhase sum i n move) := by
  refine h.andThen hs ?_
  unfold Hw.trimPhase
  exact (.part_ph (.ite Within.refl Within.refl.ownLatch_any))

theorem Within.balanceTick (h : Within sc m0 m) {f} (hs : Touch.covers sc (Touch.latchSet ++ Touch.sideFault ++
    parts [.chg, .ph]) := by decide +kernel) : Within sc m0 (m.balanceTick f) := by
  refine h.andThen hs ?_
  unfold Hw.balanceTick
  exact Within.refl.trimPhase.trimPhase.trimPhase.trimPhase

theorem Within.batfetTick (h : Within sc m0 m) (hs : Touch.covers sc (parts [.bat]) := by decide +kernel) : Within
    sc m0 m.batfetTick :=
  h.andThen hs Within.refl.part_bat

theorem Within.quietTick (h : Within sc m0 m) (hs : Touch.covers sc (parts [.history, .fences, .journal, .fullRun])
    := by decide +kernel) : Within sc m0 m.quietTick := by
  refine h.andThen hs ?_
  unfold Hw.quietTick
  exact .edits Within.refl [.history, .fences, .journal, .fullRun] (hh := fun hl => by rwa [List.length_map])

theorem Within.enterService (h : Within sc m0 m) (hs : Touch.covers sc (Touch.issuing ++ parts [.sub, .modes] ++
    regs [Reg.MODE_STATUS_BASE, Reg.MODE_STATUS_SVC_LEVEL, Reg.MODE_STATUS_MODE, Reg.MODE_STATUS_MODE_CHG,
    Reg.BATFET_STATUS_STATE]) := by decide +kernel) : Within sc m0 m.enterService := by
  refine h.andThen hs ?_
  unfold Hw.enterService
  exact Within.refl.wrB.wr.setMode.serviceRec.part_modes

theorem Within.leaveService (h : Within sc m0 m) {cause} (hs : Touch.covers sc (Touch.loopBackEnd ++ parts [.sub,
    .modes] ++ regs [Reg.MODE_STATUS_MODE, Reg.MODE_STATUS_MODE_CHG, Reg.BATFET_STATUS_STATE,
    Reg.MODE_STATUS_SVC_LEVEL, Reg.MODE_STATUS_BASE, Reg.FI_CTL_ARM]) := by decide +kernel) : Within sc m0
    (m.leaveService cause) := by
  refine h.andThen hs ?_
  unfold Hw.leaveService
  exact (.part_modes (.serviceOver (.clear (.wr (.setMode (.ite Within.refl Within.refl.serviceRec))))))

theorem Within.leaveSource (h : Within sc m0 m) (hs : Touch.covers sc (Touch.issuing ++ parts [.sub, .cable, .modes,
    .linkField] ++ regs [Reg.MODE_STATUS_MODE, Reg.MODE_STATUS_MODE_CHG, Reg.BATFET_STATUS_STATE])
    := by decide +kernel) : Within sc m0 m.leaveSource :=
  h.andThen hs Within.refl.setMode.part_cable.orderXfer

theorem Within.evaluate (h : Within sc m0 m) (hs : Touch.covers sc (Touch.loopBackEnd ++ parts [.sub, .cable,
    .modes] ++ regs [Reg.MODE_STATUS_MODE, Reg.MODE_STATUS_MODE_CHG, Reg.BATFET_STATUS_STATE,
    Reg.MODE_STATUS_SVC_LEVEL, Reg.MODE_STATUS_BASE, Reg.FI_CTL_ARM]) := by decide +kernel) : Within sc m0
    m.evaluate := by
  refine h.andThen hs ?_
  unfold Hw.evaluate
  exact (.ite Within.refl (.ite (.ite Within.refl Within.refl.setMode) (.ite (.ite Within.refl.leaveSource
    Within.refl) (.ite (by
    split
    · exact Within.refl.leaveService
    · exact Within.refl.wrB) (.ite Within.refl.enterService (.ite Within.refl.setMode (.ite Within.refl.setMode
      Within.refl)))))))

theorem Within.holdRailsTick (h : Within sc m0 m) (hs : Touch.covers sc (Touch.railsFollow ++ regs
    [Reg.MODE_STATUS_RAILS_HELD]) := by decide +kernel) : Within sc m0 m.holdRailsTick := by
  refine h.andThen hs ?_
  unfold Hw.holdRailsTick
  exact (.ite Within.refl Within.refl.wrB.railsFollow)

theorem Within.directTick (h : Within sc m0 m) (hs : Touch.covers sc (Touch.issuing ++ parts [.modes, .linkField])
    := by decide +kernel) : Within sc m0 m.directTick := by
  refine h.andThen hs ?_
  unfold Hw.directTick
  exact (.ite Within.refl.part_modes (.ite Within.refl.part_modes (.ite Within.refl.part_modes
    Within.refl.part_modes.orderXfer)))

theorem Within.superviseTick (h : Within sc m0 m) {f} (hs : Touch.covers sc (Touch.loopBackEnd ++ Touch.railsFollow
    ++ parts [.cable, .faultInput, .sub, .modes, .latches] ++ regs [Reg.FLT_STATUS_LOST, Reg.MODE_STATUS_MODE,
    Reg.MODE_STATUS_MODE_CHG, Reg.BATFET_STATUS_STATE, Reg.MODE_STATUS_SVC_LEVEL, Reg.MODE_STATUS_BASE,
    Reg.FI_CTL_ARM, Reg.MODE_STATUS_RAILS_HELD, Reg.REV_SET_SET, Reg.STAT_LATCH_PADS]) := by decide +kernel) :
    Within sc m0 (m.superviseTick f) := by
  refine h.andThen hs ?_
  unfold Hw.superviseTick
  exact (.ite Within.refl (.ite (.revTick (.directTick (.holdRailsTick (.evaluate (.ite
    Within.refl.reserveTick.budgetTick Within.refl.reserveTick))))) (.statPads (.batfet (.railsFollow (.revTick
    (.directTick (.holdRailsTick (.evaluate (.ite Within.refl.reserveTick.budgetTick Within.refl.reserveTick))))))))))

theorem Within.asleepTick (h : Within sc m0 m) {f} (hs : Touch.covers sc (Touch.refusing ++ Touch.freezeEnd ++ parts
    [.modes, .snapshot, .cable, .latches, .waits, .adc, .bus, .intake, .xfer] ++ regs [Reg.MODE_STATUS_SHIP_N,
    Reg.KA_MIN_MIN, Reg.ID_SNAP_AGE_AGE, Reg.RAIL_STATUS_KA_ON, Reg.CHG_STATUS_PRESENT, Reg.CHG_STATUS_REMOVAL,
    Reg.CHG_STATUS_EN, Reg.CHG_STATUS_STATE, Reg.CHG_V_SET, Reg.CHG_I_SET, Reg.CHG_STATUS_FAULT_LATCH,
    Reg.STAT_LATCH_FN]) := by decide +kernel) : Within sc m0 (m.asleepTick f) :=
  h.andThen hs Within.refl.shipTick.modeCounts.watchKa.ageTick.presenceTick.batfetTick.stageTick

theorem Within.markTick (h : Within sc m0 m) (hs : Touch.covers sc (parts [.twin]) := by decide +kernel) : Within sc
    m0 m.markTick := by
  refine h.andThen hs ?_
  unfold Hw.markTick
  exact (.ite Within.refl.part_twin Within.refl)

theorem Within.freezePack (h : Within sc m0 m) {f} (hs : Touch.covers sc (parts [.seq]) := by decide +kernel) :
    Within sc m0 (m.freezePack f) := by
  refine h.andThen hs ?_
  unfold Hw.freezePack
  exact (.ite Within.refl Within.refl.part_seq)

theorem Within.hardTick (h : Within sc m0 m) {f} (hs : Touch.covers sc (Touch.sideFault ++ Touch.issuing ++ parts
    [.seq, .latches, .rails, .rl, .cable, .modes, .intake, .xfer, .twin, .linkField, .linkHost, .snapshot] ++ regs
    [Reg.FRM_STATUS_PLAN, Reg.RAIL_STATUS_HOLD_ACT, Reg.RL_STATUS_EVQ, Reg.FRM_APT_EFF_EFF, Reg.MODE_STATUS_SHIP_N,
    Reg.ID_SNAP_AGE_AGE] ++ arrays [Reg.FRM_BUD_USED_LAST, Reg.FRM_BUD_OVERRUNS]) := by decide +kernel) : Within sc
    m0 (m.hardTick f) := by
  refine h.andThen hs ?_
  unfold Hw.hardTick
  exact
    Within.refl.freezePack.planTick.padTick.limitTick.busyTick.shipTick.modeCounts.stageTick.markTick.snapshot.linkTick

theorem Within.workTick (h : Within sc m0 m) {f} (hs : Touch.covers sc (Touch.powering ++ Touch.charging ++
    Touch.loopBackEnd ++ Touch.typeCOnly ++ Touch.inputSwitch ++ Touch.refusing ++ Touch.latchSet ++ Touch.freezeEnd
    ++ Touch.contractGone ++ Touch.nandShown ++ Touch.unmarked ++ parts [.engines, .cfgCopies, .modes, .snapshot,
    .work, .results, .stream7, .hostReady, .pinLow, .hostBusy, .eventLevel, .fieldAsleep, .history, .fences,
    .fullRun, .xfer, .nand, .slots, .wdg, .hwdg] ++ regs [Reg.ADC_CAL_AGE_AGE, Reg.CAL_DATE_DATE, Reg.CAL_DUE_DUE,
    Reg.CAL_REF_REF_TRUE, Reg.CAL_SEQ_SEQ, Reg.CAL_SEQ_SIGNED, Reg.CAL_SEQ_COPY, Reg.CAL_SEQ_NOMINAL,
    Reg.ADC_STATUS_DUE_PASSED, Reg.RAIL_STATUS_KA_LOW, Reg.KA_MIN_MIN, Reg.RAIL_STATUS_KA_ON,
    Reg.CHG_STATUS_PRESENT, Reg.CHG_STATUS_REMOVAL, Reg.CHG_TIMER_PRE, Reg.CHG_TIMER_FAST, Reg.PH_EVENTS_FOLDBACK,
    Reg.MODE_STATUS_MODE, Reg.MODE_STATUS_MODE_CHG, Reg.MODE_STATUS_SVC_LEVEL, Reg.MODE_STATUS_BASE, Reg.FI_CTL_ARM,
    Reg.MODE_STATUS_RAILS_HELD, Reg.CBL_OFFER_C_AGE, Reg.CBL_STATUS_FS_MODE, Reg.CBL_STATUS_VCONN,
    Reg.CBL_STATUS_DFP, Reg.CBL_STATUS_RP, Reg.CBL_PARTNER_REV, Reg.CBL_PARTNER_DRP, Reg.CBL_PARTNER_EPR_CAP,
    Reg.CBL_PARTNER_FRS_REQ, Reg.CBL_STATUS_STATE, Reg.CBL_STATUS_ATTACH_CHG, Reg.CBL_STATUS_SRC_PERMIT,
    Reg.CBL_STATUS_DEBUG_DENIED, Reg.FLT_STATUS_DOUBLE, Reg.WDG_STATUS_ARMED, Reg.WDG_STATUS_WINDOW,
    Reg.WDG_STATUS_SERVED, Reg.WDG_STATUS_FRAME] ++ arrays [Reg.CAL_CERT_ID_ID] ++ [.fieldSide, .hostSide])
    := by decide +kernel) : Within sc m0 (m.workTick f) := by
  refine h.andThen hs ?_
  unfold Hw.workTick
  exact
    Within.refl.measureTick.railsTick.chargeTick.balanceTick.phaseTick.pdissTick.batfetTick.domainsSettle.quietTick.superviseTick.cableTick.scrubTick.lbTick.showProb.markProbation.settleDouble.wdgTick.serveWaits

theorem Within.stored (h : Within sc m0 m) {a mask value} (hs : Touch.covers sc ([.fieldSide, .hostSide])
    := by decide +kernel) : Within sc m0 (m.stored a mask value) := by
  refine h.andThen hs ?_
  unfold Hw.stored
  exact (.foldl Within.refl fun _ _ h1 => (h1.writeField (Touch.within_bothSides (by decide +kernel))))


end Sys2Proof.Machine
end

