-- ==== Sys2Proof/Proofs/Commands.lean ====
section
/-! PROOFS. What each command may change, from the operations that it is made of. -/

set_option Elab.async false

namespace Sys2Proof.Machine

variable {sc : List Touch} {m0 m : Hw}

/-- A command answers a next state, in which the block outside the scope `sc` stands as it did. -/
def Leads (sc : List Touch) (s : State) (o : Host.Outcome State Fault Refusal) : Prop :=
  ∃ t, o = .next t ∧ Within sc s.hw t.hw

theorem Leads.effect {sc : List Touch} {s : State} {f : Hw → Hw} (h : Within sc s.hw (f s.hw)) :
    Leads sc s (Machine.effect s f) :=
  ⟨_, rfl, h⟩

theorem execLatchParity_leads (s : State) {l live} : Leads (Touch.latchSet ++ Touch.sideFault) s (execLatchParity l
    live s) := by
  unfold execLatchParity
  exact .effect (.ite Within.refl Within.refl.setLatchLive_any.arch_shadows.sideFault_any)

theorem execTsbFalertStateLevel_leads (s : State) {high} : Leads (parts [.sidebands, .hwdg, .resetNote, .alertPad]
    ++ regs [Reg.HP_STATUS_DOZE, Reg.ALERT_SRC_SRC]) s (execTsbFalertStateLevel high s) := by
  unfold execTsbFalertStateLevel
  exact .effect (.ite Within.refl (.ite Within.refl.arch_sb.hcoreWake.arch_hostFieldReset.alertSet
    Within.refl.arch_sb.hcoreWake))

theorem execSourceLossCode_leads (s : State) : Leads (parts [.chg, .sidebands]) s (execSourceLossCode s) := by
  unfold execSourceLossCode
  exact .effect (Within.refl.onHCode (fun _ h1 => h1.part_chg))

theorem execSourceAttachWakeCode_leads (s : State) : Leads (parts [.modes, .sidebands]) s (execSourceAttachWakeCode
    s) := by
  unfold execSourceAttachWakeCode
  exact .effect (Within.refl.onHCode (fun _ h1 => h1.askWake))

theorem execCableDetachCode_leads (s : State) : Leads (parts [.modes, .sidebands]) s (execCableDetachCode s) := by
  unfold execCableDetachCode
  exact .effect (Within.refl.onHCode (fun _ h1 => h1.part_modes))

theorem execMailboxWakeCode_leads (s : State) : Leads (parts [.modes, .sidebands]) s (execMailboxWakeCode s) := by
  unfold execMailboxWakeCode
  exact .effect (Within.refl.onHCode (fun _ h1 => h1.askWake))

theorem execHostAlertCode_leads (s : State) : Leads (parts [.linkHost, .mailbox, .sidebands]) s (execHostAlertCode
    s) := by
  unfold execHostAlertCode
  exact .effect (Within.refl.onHCode (fun _ h1 => h1.flushHostFaults))

theorem execFieldAlertCode_leads (s : State) : Leads (parts [.hwdg, .sidebands] ++ regs [Reg.HP_STATUS_DOZE]) s
    (execFieldAlertCode s) := by
  unfold execFieldAlertCode
  exact .effect (Within.refl.onFCode (fun _ h1 => h1.hcoreWake))

theorem execSidebandFault_leads (s : State) {pulse} : Leads (Touch.sideFault) s (execSidebandFault pulse s) := by
  unfold execSidebandFault
  exact .effect (.ite Within.refl.sideFault_any Within.refl)

theorem execTsbQuietChannelFault_leads (s : State) : Leads (Touch.hostFault ++ parts [.xfer] ++ regs
    [Reg.XFER_STATUS_QUIET]) s (execTsbQuietChannelFault s) := by
  unfold execTsbQuietChannelFault
  exact .effect Within.refl.wr.part_xfer.hfault

theorem execPhaseShedChange_leads (s : State) {itot} : Leads (Touch.phasesPick) s (execPhaseShedChange itot s) := by
  unfold execPhaseShedChange
  exact .effect Within.refl.part_ph.rePick

theorem execPhaseImbalance_leads (s : State) {n} : Leads (parts [.faultInput] ++ regs [Reg.FLT_STATUS_LOST] ++
    arrays [Reg.PH_TRIM_AT_LIMIT]) s (execPhaseImbalance n s) := by
  unfold execPhaseImbalance
  exact .effect (.ite (Within.refl.wrAt Reg.PH_TRIM_AT_LIMIT_even).faultAt Within.refl)

theorem execPhaseSoftStart_leads (s : State) {vout us} : Leads (Touch.phasesPick ++ regs [Reg.PH_STATUS_SS]) s
    (execPhaseSoftStart vout us s) := by
  unfold execPhaseSoftStart
  exact .effect (.ite Within.refl (.ite (.ite Within.refl.wr.part_ph Within.refl.part_ph) (.ite Within.refl.softStart
    Within.refl)))

theorem execPhaseSsShort_leads (s : State) {test} : Leads (Touch.issuing ++ parts [.faultInput, .ph, .sub] ++ regs
    [Reg.FLT_STATUS_LOST, Reg.PH_STATUS_ENTRY, Reg.PH_STATUS_SS, Reg.PH_STATUS_ACTIVE, Reg.PH_STATUS_CMODE,
    Reg.PH_STATUS_BAND, Reg.PH_STATUS_LATCHED]) s (execPhaseSsShort test s) := by
  unfold execPhaseSsShort
  exact .effect (.ite Within.refl.faultW.ssFail Within.refl)

theorem execPhaseSsRetry_leads (s : State) : Leads (Touch.phasesPick ++ regs [Reg.PH_EVENTS_SS_RETRIES,
    Reg.PH_STATUS_SS]) s (execPhaseSsRetry s) := by
  unfold execPhaseSsRetry
  exact .effect (by
    split
    · exact Within.refl
    · exact (.ite Within.refl.part_ph.bump.softStart Within.refl))

theorem execPhaseOcp_leads (s : State) {phases load} : Leads (Touch.issuing ++ Touch.phasesPick ++ parts
    [.faultInput, .sub] ++ regs [Reg.PH_EVENTS_FOLDBACK, Reg.PH_STATUS_FOLDBACK, Reg.FLT_STATUS_LOST,
    Reg.PH_STATUS_SS, Reg.PH_STATUS_LATCHED]) s (execPhaseOcp phases load s) := by
  unfold execPhaseOcp
  exact .effect (.ite Within.refl (.ite (.ssFail (.foldl Within.refl.foldback fun _ _ h2 => (.ite h2.faultAt h2)))
    (.rePick (.part_ph (.foldl Within.refl.foldback fun _ _ h2 => (.ite h2.faultAt h2))))))

theorem execPhaseOv_leads (s : State) {mv} : Leads (parts [.ph, .faultInput] ++ regs [Reg.FLT_STATUS_LOST]) s
    (execPhaseOv mv s) := by
  unfold execPhaseOv
  exact .effect (.ite Within.refl.part_ph.fault (.ite Within.refl.part_ph Within.refl))

theorem execPhaseThermal_leads (s : State) {n temp} : Leads (Touch.phasesPick ++ parts [.faultInput] ++ regs
    [Reg.FLT_STATUS_LOST]) s (execPhaseThermal n temp s) := by
  unfold execPhaseThermal
  exact .effect (.ite Within.refl.part_ph.faultAt.rePick (.ite Within.refl.part_ph.rePick Within.refl))

theorem execPhaseGateUv_leads (s : State) {n supply} : Leads (parts [.seq, .ph, .faultInput] ++ regs
    [Reg.FLT_STATUS_LOST]) s (execPhaseGateUv n supply s) := by
  unfold execPhaseGateUv
  exact .effect (.faultAt (.edits Within.refl [.seq, .ph]))

theorem execPhaseVtbCollapse_leads (s : State) {mv} : Leads (parts [.faultInput] ++ regs [Reg.PH_STATUS_GOV,
    Reg.FLT_STATUS_LOST]) s (execPhaseVtbCollapse mv s) := by
  unfold execPhaseVtbCollapse
  exact .effect (.ite Within.refl Within.refl.wr.fault)

theorem execPhClrLatch_leads (s : State) : Leads (parts [.ph, .bat] ++ regs [Reg.PH_STATUS_LATCHED,
    Reg.BATFET_STATUS_STATE]) s (execPhClrLatch s) := by
  unfold execPhClrLatch
  exact .effect Within.refl.phClrLatch

theorem execBatfetPdiss_leads (s : State) {mw} : Leads (parts [.faultInput] ++ regs [Reg.FLT_STATUS_LOST]) s
    (execBatfetPdiss mw s) := by
  unfold execBatfetPdiss
  exact .effect (.ite Within.refl.fault Within.refl)

theorem execBatfetOcp_leads (s : State) {t ma} : Leads (Touch.refusing ++ Touch.freezeEnd ++ regs
    [Reg.PH_EVENTS_BATFET_OPENS]) s (execBatfetOcp t ma s) := by
  unfold execBatfetOcp
  exact .effect (.ite Within.refl (.batfet (.cutFreeze (.atT (.ite Within.refl.bump.fault.part_bat.powerLatch
    Within.refl.bump.fault.part_bat)))))

theorem execBatfetReclose_leads (s : State) : Leads (parts [.bat] ++ regs [Reg.BATFET_STATUS_STATE]) s
    (execBatfetReclose s) := by
  unfold execBatfetReclose
  exact .effect (by
    split
    · exact Within.refl
    · exact (.ite Within.refl.part_bat.batfet Within.refl))

theorem execBatfetRetryCountClear_leads (s : State) : Leads (parts [.bat]) s (execBatfetRetryCountClear s) := by
  unfold execBatfetRetryCountClear
  exact .effect (.ite Within.refl.part_bat Within.refl)

theorem execBatfetThermal_leads (s : State) {temp} : Leads (parts [.bat, .faultInput] ++ regs
    [Reg.BATFET_STATUS_TEMP, Reg.CHG_STATUS_REF_ZERO, Reg.FLT_STATUS_LOST]) s (execBatfetThermal temp s) := by
  unfold execBatfetThermal
  exact .effect (.ite Within.refl.wrI.wr.part_bat.fault (.ite Within.refl.wrI.part_bat.wrB Within.refl.wrI))

theorem execVsysUv_leads (s : State) {mv} : Leads (parts [.faultInput] ++ regs [Reg.FLT_STATUS_LOST]) s (execVsysUv
    mv s) := by
  unfold execVsysUv
  exact .effect (.ite Within.refl.fault Within.refl)

theorem execRevBatFloor_leads (s : State) {mv} : Leads (parts [.ph, .faultInput] ++ regs [Reg.PH_STATUS_ENTRY,
    Reg.PH_STATUS_ACTIVE, Reg.PH_STATUS_SS, Reg.FLT_STATUS_LOST, Reg.PH_STATUS_CMODE, Reg.PH_STATUS_BAND]) s
    (execRevBatFloor mv s) := by
  unfold execRevBatFloor
  exact .effect (.ite Within.refl.windDown.wr.wr.fault.part_ph.convertNow Within.refl)

theorem execSourceQualify_leads (s : State) {src mv} : Leads (Touch.hostFault ++ parts [.hwdg, .latches, .intake,
    .xfer, .linkHost, .mailbox] ++ regs [Reg.INTAKE_STATUS_VBUS_QUAL, Reg.INTAKE_STATUS_DCIN_QUAL,
    Reg.HP_STATUS_DOZE, Reg.INTAKE_STATUS_ACTIVE, Reg.INTAKE_STATUS_SRC_CHANGE, Reg.INTAKE_EVENTS_SWITCHOVERS,
    Reg.INTAKE_LIM_EFF_LIM, Reg.INTAKE_LIM_EFF_CAUSE, Reg.INTAKE_STATUS_RAMP]) s (execSourceQualify src mv s) := by
  unfold execSourceQualify
  exact .effect (.ite Within.refl (.ite (.ite (.take (.ite Within.refl.setQualified.hcoreWake.haltCode
    Within.refl.setQualified.hcoreWake)) (.ite Within.refl.setQualified.hcoreWake.haltCode
    Within.refl.setQualified.hcoreWake)) (.ite (.part_intake (.ite Within.refl.setQualified.hcoreWake.haltCode
    Within.refl.setQualified.hcoreWake)) (.ite Within.refl.setQualified.hcoreWake.haltCode
    Within.refl.setQualified.hcoreWake))))

theorem execIntakeSourceLoss_leads (s : State) {src mv mvOther} : Leads (Touch.hostFault ++ parts [.intake,
    .latches, .xfer, .linkHost, .mailbox] ++ regs [Reg.INTAKE_STATUS_VBUS_QUAL, Reg.INTAKE_STATUS_DCIN_QUAL,
    Reg.INTAKE_STATUS_ACTIVE, Reg.INTAKE_STATUS_SRC_CHANGE, Reg.INTAKE_EVENTS_SWITCHOVERS, Reg.INTAKE_LIM_EFF_LIM,
    Reg.INTAKE_LIM_EFF_CAUSE, Reg.INTAKE_STATUS_RAMP]) s (execIntakeSourceLoss src mv mvOther s) := by
  unfold execIntakeSourceLoss
  exact .effect (.ite Within.refl (.ite (.loseActive (.part_intake (.ite Within.refl.setQualified.setQualified
    Within.refl.setQualified))) (.ite (.loseActive (.part_intake (.ite Within.refl.setQualified.setQualified
    Within.refl.setQualified))) (.part_intake (.ite Within.refl.setQualified.setQualified
    Within.refl.setQualified)))))

theorem execPrioritySourceTakeover_leads (s : State) {mv} : Leads (Touch.hostFault ++ parts [.latches, .intake,
    .xfer, .linkHost, .mailbox] ++ regs [Reg.INTAKE_STATUS_ACTIVE, Reg.INTAKE_STATUS_SRC_CHANGE,
    Reg.INTAKE_EVENTS_SWITCHOVERS, Reg.INTAKE_LIM_EFF_LIM, Reg.INTAKE_LIM_EFF_CAUSE, Reg.INTAKE_STATUS_RAMP]) s
    (execPrioritySourceTakeover mv s) := by
  unfold execPrioritySourceTakeover
  exact .effect (.ite Within.refl.take Within.refl)

theorem execReverseBlock_leads (s : State) : Leads (Touch.hostFault ++ parts [.intake, .latches, .linkHost,
    .mailbox, .cable] ++ regs [Reg.INTAKE_EVENTS_REV_BLOCKS, Reg.INTAKE_STATUS_ACTIVE, Reg.INTAKE_STATUS_SRC_CHANGE,
    Reg.INTAKE_EVENTS_SWITCHOVERS, Reg.INTAKE_LIM_EFF_LIM, Reg.INTAKE_LIM_EFF_CAUSE, Reg.INTAKE_STATUS_RAMP]) s
    (execReverseBlock s) := by
  unfold execReverseBlock
  exact .effect (.ite (.frsClose (.ite Within.refl.bump.part_intake.hfault Within.refl.bump.part_intake)) Within.refl)

theorem execReverseReconduct_leads (s : State) : Leads (parts [.intake]) s (execReverseReconduct s) := by
  unfold execReverseReconduct
  exact .effect Within.refl.part_intake

theorem execIntakeLimitUpdate_leads (s : State) : Leads (Touch.hostFault ++ parts [.latches] ++ regs
    [Reg.INTAKE_LIM_EFF_LIM, Reg.INTAKE_LIM_EFF_CAUSE]) s (execIntakeLimitUpdate s) := by
  unfold execIntakeLimitUpdate
  exact .effect Within.refl.limitWrite

theorem execIntakeStartupLimitExpiry_leads (s : State) : Leads (Touch.hostFault ++ parts [.intake, .latches] ++ regs
    [Reg.INTAKE_LIM_EFF_LIM, Reg.INTAKE_LIM_EFF_CAUSE]) s (execIntakeStartupLimitExpiry s) := by
  unfold execIntakeStartupLimitExpiry
  exact .effect Within.refl.part_intake.limitWrite

theorem execIntakePdiss_leads (s : State) {watts} : Leads (Touch.hostFault) s (execIntakePdiss watts s) := by
  unfold execIntakePdiss
  exact .effect (.ite Within.refl Within.refl.hfault)

theorem execVSourceRefresh_leads (s : State) {v iin pdiss temp xpow aux} : Leads (Touch.hostFault ++ parts [.intake,
    .domains, .latches, .xfer, .ph, .linkHost, .mailbox, .cable] ++ regs [Reg.INTAKE_MON_V_VBUS,
    Reg.INTAKE_MON_V_DCIN, Reg.INTAKE_MON_CBUF_VCBUF, Reg.INTAKE_MON_CBUF_IIN, Reg.INTAKE_MON_PD_PDISS,
    Reg.INTAKE_MON_PD_TEMP, Reg.INTAKE_STATUS_HAUX, Reg.INTAKE_STATUS_LIMITING, Reg.XFER_STATUS_FLOOR,
    Reg.INTAKE_EVENTS_PDISS_EVENTS, Reg.INTAKE_STATUS_PDISS_LIMIT, Reg.INTAKE_LIM_EFF_CAUSE, Reg.XFER_STATUS_DIR,
    Reg.XFER_STATUS_PLIM, Reg.XFER_STATUS_DBS, Reg.XFER_STATUS_TEMP, Reg.XFER_POWER_P, Reg.INTAKE_LIM_EFF_LIM,
    Reg.PH_STATUS_CMODE, Reg.PH_STATUS_ACTIVE, Reg.PH_STATUS_SS, Reg.BATFET_STATUS_STATE, Reg.INTAKE_STATUS_ACTIVE,
    Reg.INTAKE_STATUS_SRC_CHANGE, Reg.INTAKE_EVENTS_SWITCHOVERS, Reg.INTAKE_STATUS_RAMP]) s (execVSourceRefresh v
    iin pdiss temp xpow aux s) := by
  unfold execVSourceRefresh
  exact .effect (.ite (.sendH (.settleSource (.drainCbuf (.frsClose (.powerSample (.hPwrFollow (.pdissSample (.ite
    Within.refl.wrSat.wrSat.wrSat.wrSat.wrSat.wrI.wrB.part_intake.wrB.wr
    Within.refl.wrSat.wrSat.wrSat.wrSat.wrSat.wrI.wrB.part_intake.wrB)))))))) (.settleSource (.drainCbuf (.frsClose
    (.powerSample (.hPwrFollow (.pdissSample (.ite
    Within.refl.wrSat.wrSat.wrSat.wrSat.wrSat.wrI.wrB.part_intake.wrB.wr
    Within.refl.wrSat.wrSat.wrSat.wrSat.wrSat.wrI.wrB.part_intake.wrB))))))))

theorem execCbufFloorReached_leads (s : State) : Leads (regs [Reg.XFER_STATUS_FLOOR]) s (execCbufFloorReached s) :=
    by
  unfold execCbufFloorReached
  exact .effect (.ite Within.refl Within.refl.wr)

theorem execCbufMeasure_leads (s : State) {us ma dmv steady} : Leads (Touch.hostFault ++ parts [.intake] ++ regs
    [Reg.INTAKE_CBUF_C_CEFF, Reg.INTAKE_CBUF_C_VALID]) s (execCbufMeasure us ma dmv steady s) := by
  unfold execCbufMeasure
  exact .effect (.ite (.ite (.hfault (.ite Within.refl.part_intake.wrSat.wr Within.refl.part_intake)) (.ite
    Within.refl.part_intake.wrSat.wr Within.refl.part_intake)) Within.refl)

theorem execCbufRampStart_leads (s : State) {mv} : Leads (parts [.intake] ++ regs [Reg.INTAKE_STATUS_RAMP]) s
    (execCbufRampStart mv s) := by
  unfold execCbufRampStart
  exact .effect (.ite Within.refl Within.refl.wr.part_intake)

theorem execCbufRampEnd_leads (s : State) {mv} : Leads (regs [Reg.INTAKE_STATUS_RAMP]) s (execCbufRampEnd mv s) :=
    by
  unfold execCbufRampEnd
  exact .effect (.ite Within.refl.wr Within.refl)

theorem execHaonPowerUp_leads (s : State) {inputs} : Leads (parts [.hostFaults, .cable, .intake, .xfer, .latches,
    .sidebands, .resetNote, .linkHost, .mailbox, .snapshot, .drain, .alertPad, .hostBusy, .modes, .bist, .domains,
    .engines, .hostReady, .hwdg] ++ regs [Reg.ID_STATUS_HOST_READY, Reg.ID_STATUS_LINK, Reg.ID_STATUS_FIELD_READY,
    Reg.TL_H_STATUS_STATE, Reg.HP_STATUS_BUSY, Reg.DRN_STATUS_AVAIL, Reg.DRN_STATUS_REQ_OPEN, Reg.DRN_STATUS_END,
    Reg.XFER_STATUS_DIR, Reg.XFER_STATUS_FLOOR, Reg.XFER_STATUS_PLIM, Reg.XFER_STATUS_DBS, Reg.XFER_STATUS_TEMP,
    Reg.XFER_POWER_P, Reg.INTAKE_STATUS_HAUX, Reg.HWDG_STATUS_ARMED] ++ [.hostSide]) s (execHaonPowerUp inputs s) :=
    by
  unfold execHaonPowerUp
  exact .effect (.ite Within.refl (.ite (.wrB (.powerDomain (.powerDomain (.powerDomain (.edits Within.refl.hostBlank
    [.intake, .modes, .bist]))))) (.h2Up (.runEngine (.runEngine (.wrB (.powerDomain (.powerDomain (.powerDomain
    (.edits Within.refl.hostBlank [.intake, .modes, .bist]))))))))))

theorem execHostConfigTimeout_leads (s : State) : Leads (Touch.hostFault ++ parts [.intake, .latches] ++ regs
    [Reg.INTAKE_LIM_EFF_LIM, Reg.INTAKE_LIM_EFF_CAUSE]) s (execHostConfigTimeout s) := by
  unfold execHostConfigTimeout
  exact .effect (.ite Within.refl Within.refl.part_intake.limitWrite)

theorem execDeadBatteryStart_leads (s : State) {advert} : Leads (Touch.hostFault ++ parts [.latches, .intake, .xfer,
    .linkHost, .mailbox, .modes, .domains, .ph] ++ regs [Reg.INTAKE_STATUS_VBUS_QUAL, Reg.INTAKE_STATUS_DCIN_QUAL,
    Reg.INTAKE_STATUS_ACTIVE, Reg.INTAKE_STATUS_SRC_CHANGE, Reg.INTAKE_EVENTS_SWITCHOVERS, Reg.INTAKE_LIM_EFF_LIM,
    Reg.INTAKE_LIM_EFF_CAUSE, Reg.INTAKE_STATUS_RAMP, Reg.XFER_STATUS_DIR, Reg.XFER_STATUS_FLOOR,
    Reg.XFER_STATUS_PLIM, Reg.XFER_STATUS_DBS, Reg.XFER_STATUS_TEMP, Reg.XFER_POWER_P, Reg.PH_STATUS_CMODE,
    Reg.PH_STATUS_BAND, Reg.PH_STATUS_REV, Reg.PH_STATUS_FROZEN, Reg.PH_STATUS_ENTRY, Reg.PH_STATUS_SS,
    Reg.PH_STATUS_GOV, Reg.PH_STATUS_ACTIVE, Reg.PH_STATUS_FOLDBACK, Reg.PH_VOLT_VTB, Reg.PH_VOLT_VSYS,
    Reg.BATFET_STATUS_IBAT, Reg.BATFET_STATUS_TEMP, Reg.RAIL_STATUS_POL_ON, Reg.RAIL_STATUS_POL_REG,
    Reg.RAIL_STATUS_POL_SLEW, Reg.RAIL_STATUS_HOLD_ACT, Reg.RAIL_STATUS_QR_ON, Reg.PH_CURR_I,
    Reg.BATFET_STATUS_STATE]) s (execDeadBatteryStart advert s) := by
  unfold execDeadBatteryStart
  exact .effect (.ite Within.refl Within.refl.hardStart)

theorem execXferQuietLate_leads (s : State) {ns} : Leads (Touch.issuing ++ parts [.faultInput, .xfer, .modes,
    .linkField] ++ regs [Reg.FLT_STATUS_LOST, Reg.FLT_FENCE_U_UNITS]) s (execXferQuietLate ns s) := by
  unfold execXferQuietLate
  exact .effect Within.refl.fault.fenceBit.part_xfer.orderXfer

theorem execXferDirectionChange_leads (s : State) {dir reached} : Leads (Touch.phasesStop ++ Touch.hostFault ++
    parts [.latches, .linkHost, .mailbox, .xfer, .chg, .intake] ++ regs [Reg.INTAKE_STATUS_ACTIVE,
    Reg.INTAKE_STATUS_SRC_CHANGE, Reg.INTAKE_EVENTS_SWITCHOVERS, Reg.INTAKE_LIM_EFF_LIM, Reg.INTAKE_LIM_EFF_CAUSE,
    Reg.INTAKE_STATUS_RAMP, Reg.XFER_STATUS_DIR, Reg.XFER_STATS_DIR_CHANGES]) s (execXferDirectionChange dir reached
    s) := by
  unfold execXferDirectionChange
  exact .effect (.ite Within.refl (.ite Within.refl Within.refl.changeDir))

theorem execTsbQuietChange_leads (s : State) {high} : Leads (Touch.phasesStop ++ Touch.hostFault ++ parts [.xfer,
    .latches, .linkHost, .mailbox, .chg, .intake] ++ regs [Reg.XFER_STATUS_QUIET, Reg.INTAKE_STATUS_ACTIVE,
    Reg.INTAKE_STATUS_SRC_CHANGE, Reg.INTAKE_EVENTS_SWITCHOVERS, Reg.INTAKE_LIM_EFF_LIM, Reg.INTAKE_LIM_EFF_CAUSE,
    Reg.INTAKE_STATUS_RAMP, Reg.XFER_STATUS_DIR, Reg.XFER_STATS_DIR_CHANGES]) s (execTsbQuietChange high s) := by
  unfold execTsbQuietChange
  exact .effect (.ite (by
    extract_lets
    split
    · exact (.ite Within.refl.wrB.part_xfer Within.refl.wrB.part_xfer.instructDir)
    · exact Within.refl.wrB.part_xfer) Within.refl)

theorem execXferDirTimeout_leads (s : State) : Leads (Touch.phasesStop ++ Touch.hostFault ++ parts [.latches, .xfer,
    .intake, .linkHost, .mailbox] ++ regs [Reg.XFER_STATUS_DIR, Reg.INTAKE_STATUS_ACTIVE,
    Reg.INTAKE_STATUS_SRC_CHANGE, Reg.INTAKE_EVENTS_SWITCHOVERS, Reg.INTAKE_LIM_EFF_LIM, Reg.INTAKE_LIM_EFF_CAUSE,
    Reg.INTAKE_STATUS_RAMP]) s (execXferDirTimeout s) := by
  unfold execXferDirTimeout
  exact .effect (.ite Within.refl.putLatch.wr.stopPhases.part_xfer.hfault.settleSource Within.refl)

theorem execIntakeThermal_leads (s : State) {temp} : Leads (Touch.hostFault ++ parts [.intake, .latches, .linkHost,
    .mailbox, .xfer] ++ regs [Reg.INTAKE_STATUS_ACTIVE, Reg.INTAKE_STATUS_SRC_CHANGE, Reg.INTAKE_EVENTS_SWITCHOVERS,
    Reg.INTAKE_LIM_EFF_LIM, Reg.INTAKE_LIM_EFF_CAUSE, Reg.INTAKE_STATUS_RAMP]) s (execIntakeThermal temp s) := by
  unfold execIntakeThermal
  exact .effect (.ite Within.refl.part_intake.openActive.hfault (.ite Within.refl.part_intake.settleSource
    Within.refl))

theorem execCbufOv_leads (s : State) {mv} : Leads (Touch.hostFault ++ parts [.intake, .latches, .linkHost, .mailbox]
    ++ regs [Reg.INTAKE_STATUS_ACTIVE, Reg.INTAKE_STATUS_SRC_CHANGE, Reg.INTAKE_EVENTS_SWITCHOVERS,
    Reg.INTAKE_LIM_EFF_LIM, Reg.INTAKE_LIM_EFF_CAUSE, Reg.INTAKE_STATUS_RAMP]) s (execCbufOv mv s) := by
  unfold execCbufOv
  exact .effect (.ite Within.refl.part_intake.openActive.hfault Within.refl)

theorem execXferOcp_leads (s : State) : Leads (Touch.hostFault ++ parts [.latches, .xfer, .linkHost, .mailbox,
    .intake] ++ regs [Reg.XFER_STATUS_DIR, Reg.XFER_STATUS_LATCHED, Reg.INTAKE_STATUS_ACTIVE,
    Reg.INTAKE_STATUS_SRC_CHANGE, Reg.INTAKE_EVENTS_SWITCHOVERS, Reg.INTAKE_LIM_EFF_LIM, Reg.INTAKE_LIM_EFF_CAUSE,
    Reg.INTAKE_STATUS_RAMP]) s (execXferOcp s) := by
  unfold execXferOcp
  exact .effect (.ite Within.refl Within.refl.xferFail)

theorem execXferRetry_leads (s : State) : Leads (Touch.hostFault ++ parts [.latches, .linkHost, .mailbox, .xfer] ++
    regs [Reg.INTAKE_STATUS_ACTIVE, Reg.INTAKE_STATUS_SRC_CHANGE, Reg.INTAKE_EVENTS_SWITCHOVERS,
    Reg.INTAKE_LIM_EFF_LIM, Reg.INTAKE_LIM_EFF_CAUSE, Reg.INTAKE_STATUS_RAMP, Reg.XFER_STATUS_DIR]) s (execXferRetry
    s) := by
  unfold execXferRetry
  exact .effect (by
    split
    · exact Within.refl
    · exact (.ite (.ite (.part_xfer (.wr (.ite Within.refl.openActive Within.refl))) (.ite Within.refl.openActive
      Within.refl)) Within.refl))

theorem execXferVtbOv_leads (s : State) {mv} : Leads (Touch.hostFault ++ parts [.xfer] ++ regs
    [Reg.XFER_STATUS_DIR]) s (execXferVtbOv mv s) := by
  unfold execXferVtbOv
  exact .effect (.ite Within.refl.wr.part_xfer.hfault Within.refl)

theorem execXferThermal_leads (s : State) {temp} : Leads (Touch.hostFault ++ parts [.xfer] ++ regs
    [Reg.XFER_STATUS_TEMP, Reg.XFER_STATUS_PLIM]) s (execXferThermal temp s) := by
  unfold execXferThermal
  exact .effect (.ite Within.refl.wrI.wr.part_xfer.hfault (.ite Within.refl.wrI.wr.part_xfer Within.refl.wrI))

theorem execXferStartFail_leads (s : State) {mv} : Leads (Touch.hostFault ++ parts [.latches, .xfer, .linkHost,
    .mailbox, .intake] ++ regs [Reg.XFER_STATUS_DIR, Reg.XFER_STATUS_LATCHED, Reg.INTAKE_STATUS_ACTIVE,
    Reg.INTAKE_STATUS_SRC_CHANGE, Reg.INTAKE_EVENTS_SWITCHOVERS, Reg.INTAKE_LIM_EFF_LIM, Reg.INTAKE_LIM_EFF_CAUSE,
    Reg.INTAKE_STATUS_RAMP]) s (execXferStartFail mv s) := by
  unfold execXferStartFail
  exact .effect (.ite Within.refl Within.refl.xferFail)

theorem execXferClrLatch_leads (s : State) : Leads (parts [.xfer, .modes] ++ regs [Reg.XFER_STATUS_LATCHED]) s
    (execXferClrLatch s) := by
  unfold execXferClrLatch
  exact .effect Within.refl.xferClrLatch

theorem execPackIndicatorSettled_leads (s : State) {seen} : Leads (Touch.issuing ++ parts [.chg, .latches,
    .faultInput, .cable, .waits, .adc, .bus, .sub] ++ regs [Reg.CHG_MON_VBAT, Reg.RAIL_STATUS_KA_ON,
    Reg.CHG_STATUS_PRESENT, Reg.CHG_STATUS_STATE, Reg.CHG_V_SET, Reg.FLT_STATUS_LOST, Reg.CHG_I_SET,
    Reg.CHG_STATUS_EN, Reg.BATFET_STATUS_STATE, Reg.CHG_STATUS_FAULT_LATCH, Reg.STAT_LATCH_EVENTS,
    Reg.STAT_LATCH_PADS, Reg.STAT_LATCH_FN]) s (execPackIndicatorSettled seen s) := by
  unfold execPackIndicatorSettled
  exact .effect (.ite Within.refl (.ite Within.refl.wrSat.presence.packFound (by
    split
    · exact Within.refl.wrSat.presence
    · exact Within.refl.wrSat.presence.ownLatch.ownLatch.setChgEn.part_chg.batfet)))

theorem execProbeVoltageReached_leads (s : State) : Leads (parts [.chg, .latches] ++ regs [Reg.CHG_STATUS_EN,
    Reg.BATFET_STATUS_STATE]) s (execProbeVoltageReached s) := by
  unfold execProbeVoltageReached
  exact .effect (.ite Within.refl.part_chg.clearChgEn Within.refl)

theorem execSinkTestEnd_leads (s : State) {mv} : Leads (Touch.issuing ++ parts [.chg, .faultInput, .latches, .cable,
    .waits, .adc, .bus, .sub] ++ regs [Reg.RAIL_STATUS_KA_ON, Reg.CHG_STATUS_PRESENT, Reg.FLT_STATUS_LOST,
    Reg.CHG_STATUS_STATE, Reg.CHG_V_SET, Reg.CHG_I_SET, Reg.CHG_STATUS_EN, Reg.BATFET_STATUS_STATE,
    Reg.CHG_STATUS_FAULT_LATCH, Reg.STAT_LATCH_EVENTS, Reg.STAT_LATCH_PADS, Reg.STAT_LATCH_FN]) s (execSinkTestEnd
    mv s) := by
  unfold execSinkTestEnd
  exact .effect (.ite (.ite (.chgTo (.part_chg (.ite Within.refl.presence Within.refl.presence.fault)))
    Within.refl.presence.packFound) Within.refl)

theorem execProbeShort_leads (s : State) {mv} : Leads (Touch.issuing ++ parts [.faultInput, .chg, .latches, .cable,
    .waits, .adc, .bus, .sub] ++ regs [Reg.FLT_STATUS_LOST, Reg.CHG_STATUS_STATE, Reg.CHG_V_SET, Reg.CHG_I_SET,
    Reg.CHG_STATUS_EN, Reg.BATFET_STATUS_STATE, Reg.CHG_STATUS_FAULT_LATCH, Reg.STAT_LATCH_EVENTS,
    Reg.STAT_LATCH_PADS, Reg.STAT_LATCH_FN]) s (execProbeShort mv s) := by
  unfold execProbeShort
  exact .effect (by
    split
    · exact (.ite Within.refl.fault.chgTo Within.refl)
    · exact Within.refl)

theorem execAbsentRedetect_leads (s : State) {changed} : Leads (Touch.issuing ++ parts [.chg, .latches, .faultInput,
    .cable, .waits, .adc, .bus, .sub] ++ regs [Reg.CHG_STATUS_STATE, Reg.CHG_V_SET, Reg.FLT_STATUS_LOST,
    Reg.CHG_I_SET, Reg.CHG_STATUS_EN, Reg.BATFET_STATUS_STATE, Reg.CHG_STATUS_FAULT_LATCH, Reg.STAT_LATCH_EVENTS,
    Reg.STAT_LATCH_PADS, Reg.STAT_LATCH_FN]) s (execAbsentRedetect changed s) := by
  unfold execAbsentRedetect
  exact .effect (.ite Within.refl.chgTo Within.refl)

theorem execPackNegotiate_leads (s : State) {ohm vbat} : Leads (Touch.issuing ++ parts [.cable, .faultInput, .chg,
    .latches, .waits, .adc, .bus, .sub, .seq] ++ regs [Reg.CHG_MON_VBAT, Reg.FLT_STATUS_LOST, Reg.CHG_STATUS_STATE,
    Reg.CHG_V_SET, Reg.CHG_I_SET, Reg.CHG_STATUS_EN, Reg.BATFET_STATUS_STATE, Reg.CHG_STATUS_FAULT_LATCH,
    Reg.STAT_LATCH_EVENTS, Reg.STAT_LATCH_PADS, Reg.STAT_LATCH_FN, Reg.CHG_PROF_A_CHEM, Reg.CHG_PROF_A_CELLS,
    Reg.CHG_PROF_A_SRC, Reg.CHG_PROF_A_BAND, Reg.CHG_PROF_A_VCELL, Reg.CHG_PROF_I_ICHG, Reg.CHG_PROF_I_IPEAK,
    Reg.CHG_PROF_P_IPRE, Reg.CHG_PROF_P_PRE_TH, Reg.CHG_PROF_P_TERM, Reg.CHG_PROF_P_RECH, Reg.CHG_TIMER_PRE,
    Reg.CHG_TIMER_FAST]) s (execPackNegotiate ohm vbat s) := by
  unfold execPackNegotiate
  exact .effect (.ite Within.refl (by
    split
    · exact Within.refl
    · exact (.ite (.holdPack (.fault (.ite Within.refl.wrSat.part_cable Within.refl.wrSat))) (.ite (by
        split
        · exact (.tryProfile (.ite Within.refl.wrSat.part_cable Within.refl.wrSat))
        · exact (.ite (.holdPack (.fault (.ite Within.refl.wrSat.part_cable Within.refl.wrSat))) (by
            split
            · exact (.tryProfile (.ite Within.refl.wrSat.part_cable Within.refl.wrSat))
            · exact (.holdPack (.fault (.ite Within.refl.wrSat.part_cable Within.refl.wrSat)))))) (by
        split
        · exact (.tryProfile (.ite Within.refl.wrSat.part_cable Within.refl.wrSat))
        · exact (.holdPack (.fault (.ite Within.refl.wrSat.part_cable Within.refl.wrSat))))))))

theorem execSmartpackReadSequence_leads (s : State) {r err} : Leads (Touch.issuing ++ parts [.chg, .bus, .adc,
    .waits, .sub, .faultInput, .latches, .cable] ++ regs [Reg.PACK_SBS_ICHG_REQ, Reg.PACK_SBS_STATUS,
    Reg.PACK_SBS_V_VCHG_REQ, Reg.PACK_SBS_V_VOLT, Reg.FLT_STATUS_LOST, Reg.CHG_STATUS_STATE, Reg.CHG_V_SET,
    Reg.CHG_I_SET, Reg.CHG_STATUS_EN, Reg.BATFET_STATUS_STATE, Reg.CHG_STATUS_FAULT_LATCH, Reg.STAT_LATCH_EVENTS,
    Reg.STAT_LATCH_PADS, Reg.STAT_LATCH_FN, Reg.CHG_PROF_A_CHEM, Reg.CHG_PROF_A_CELLS, Reg.CHG_PROF_A_SRC,
    Reg.CHG_PROF_A_BAND, Reg.CHG_PROF_A_VCELL, Reg.CHG_PROF_I_ICHG, Reg.CHG_PROF_I_IPEAK, Reg.CHG_PROF_P_IPRE,
    Reg.CHG_PROF_P_PRE_TH, Reg.CHG_PROF_P_TERM, Reg.CHG_PROF_P_RECH]) s (execSmartpackReadSequence r err s) := by
  unfold execSmartpackReadSequence
  exact .effect (.ite (by
    extract_lets
    split
    · exact Within.refl.packReadsEnd.showSbs.applySbs
    · exact Within.refl.packReadsEnd.sbsFailed) Within.refl)

theorem execSmartpackRetry_leads (s : State) {r _err} : Leads (Touch.issuing ++ parts [.chg, .bus, .adc, .waits,
    .sub, .latches, .faultInput, .cable] ++ regs [Reg.PACK_SBS_ICHG_REQ, Reg.PACK_SBS_STATUS,
    Reg.PACK_SBS_V_VCHG_REQ, Reg.PACK_SBS_V_VOLT, Reg.CHG_STATUS_STATE, Reg.CHG_V_SET, Reg.FLT_STATUS_LOST,
    Reg.CHG_I_SET, Reg.CHG_STATUS_EN, Reg.BATFET_STATUS_STATE, Reg.CHG_STATUS_FAULT_LATCH, Reg.STAT_LATCH_EVENTS,
    Reg.STAT_LATCH_PADS, Reg.STAT_LATCH_FN]) s (execSmartpackRetry r _err s) := by
  unfold execSmartpackRetry
  exact .effect (.ite (by
    extract_lets
    split
    · exact Within.refl.packReadsEnd.showSbs.chgTo
    · exact Within.refl.packReadsEnd.part_chg) Within.refl)

theorem execChargeSustainedExpiry_leads (s : State) : Leads (Touch.charging ++ regs [Reg.CHG_TIMER_PRE,
    Reg.CHG_TIMER_FAST]) s (execChargeSustainedExpiry s) := by
  unfold execChargeSustainedExpiry
  exact .effect (by
    extract_lets
    split
    · next m1 he1 => exact (Within.refl.timerFault he1)
    · exact (.ite Within.refl.chgTo (.ite Within.refl.chgTo (.ite Within.refl.chgTo (.ite Within.refl.chgTo (.ite
      (.ite Within.refl.resetTimers.chgTo Within.refl.fault.holdPack) Within.refl))))))

theorem execChargeTermination_leads (s : State) : Leads (Touch.charging) s (execChargeTermination s) := by
  unfold execChargeTermination
  exact .effect (by
    split
    · next m1 he1 => exact (Within.refl.timerFault he1)
    · exact (.ite Within.refl.chgTo Within.refl))

theorem execSafetyTimerExpiry_leads (s : State) : Leads (Touch.charging) s (execSafetyTimerExpiry s) := by
  unfold execSafetyTimerExpiry
  exact .effect (.getD (fun _ he1 => (Within.refl.timerFault he1)) Within.refl)

theorem execSourceAbsenceTimer_leads (s : State) : Leads (parts [.chg] ++ regs [Reg.CHG_TIMER_PRE,
    Reg.CHG_TIMER_FAST]) s (execSourceAbsenceTimer s) := by
  unfold execSourceAbsenceTimer
  exact .effect (.ite Within.refl Within.refl.resetTimers)

theorem execTempHwStop_leads (s : State) {i} : Leads (parts [.chg, .faultInput] ++ regs [Reg.CHG_STATUS_REF_ZERO,
    Reg.FLT_STATUS_LOST]) s (execTempHwStop i s) := by
  unfold execTempHwStop
  exact .effect (.ite Within.refl.wr.part_chg.fault Within.refl)

theorem execTempHwStopRelease_leads (s : State) {i} : Leads (parts [.chg] ++ regs [Reg.CHG_STATUS_REF_ZERO]) s
    (execTempHwStopRelease i s) := by
  unfold execTempHwStopRelease
  exact .effect Within.refl.part_chg.wrB

theorem execTsOpen_leads (s : State) {i} : Leads (parts [.chg, .faultInput] ++ regs [Reg.CHG_TEMP_TS,
    Reg.FLT_STATUS_LOST]) s (execTsOpen i s) := by
  unfold execTsOpen
  exact .effect (.ite Within.refl.setTs.part_chg Within.refl.setTs.part_chg.fault)

theorem execTsShort_leads (s : State) {i} : Leads (parts [.chg, .faultInput] ++ regs [Reg.CHG_TEMP_TS,
    Reg.FLT_STATUS_LOST]) s (execTsShort i s) := by
  unfold execTsShort
  exact .effect (.ite Within.refl.setTs.part_chg Within.refl.setTs.part_chg.fault)

theorem execBatRemoved_leads (s : State) : Leads (parts [.chg, .faultInput] ++ regs [Reg.FLT_STATUS_LOST]) s
    (execBatRemoved s) := by
  unfold execBatRemoved
  exact .effect (by
    split
    · exact Within.refl.part_chg.fault
    · exact Within.refl)

theorem execBatShort_leads (s : State) {mv} : Leads (Touch.issuing ++ parts [.faultInput, .chg, .latches, .cable,
    .waits, .adc, .bus, .sub] ++ regs [Reg.FLT_STATUS_LOST, Reg.CHG_STATUS_STATE, Reg.CHG_V_SET, Reg.CHG_I_SET,
    Reg.CHG_STATUS_EN, Reg.BATFET_STATUS_STATE, Reg.CHG_STATUS_FAULT_LATCH, Reg.STAT_LATCH_EVENTS,
    Reg.STAT_LATCH_PADS, Reg.STAT_LATCH_FN]) s (execBatShort mv s) := by
  unfold execBatShort
  exact .effect (.ite Within.refl.fault.chgTo Within.refl)

theorem execStatLatchRead_leads (s : State) : Leads (regs [Reg.STAT_LATCH_EVENTS, Reg.STAT_LATCH_FN,
    Reg.STAT_LATCH_PADS]) s (execStatLatchRead s) := by
  unfold execStatLatchRead
  exact .effect Within.refl.wr.wr.statPads

theorem execLampEdge_leads (s : State) {ms} : Leads (parts [.chg] ++ regs [Reg.STAT_LATCH_PADS]) s (execLampEdge ms
    s) := by
  unfold execLampEdge
  exact .effect (.ite Within.refl.wr Within.refl.lamp)

theorem execChgSuspend_leads (s : State) {suspend} : Leads (regs [Reg.CHG_CTL_SUSPEND]) s (execChgSuspend suspend s)
    := by
  unfold execChgSuspend
  exact .effect Within.refl.wrB

theorem execChgIHost_leads (s : State) {limit} : Leads (regs [Reg.CHG_CTL_I_HOST]) s (execChgIHost limit s) := by
  unfold execChgIHost
  exact .effect Within.refl.wr

theorem execChgClrFault_leads (s : State) : Leads (Touch.issuing ++ parts [.chg, .latches, .faultInput, .cable,
    .waits, .adc, .bus, .sub] ++ regs [Reg.CHG_STATUS_FAULT_LATCH, Reg.CHG_STATUS_STATE, Reg.CHG_V_SET,
    Reg.FLT_STATUS_LOST, Reg.CHG_I_SET, Reg.CHG_STATUS_EN, Reg.BATFET_STATUS_STATE, Reg.STAT_LATCH_EVENTS,
    Reg.STAT_LATCH_PADS, Reg.STAT_LATCH_FN]) s (execChgClrFault s) := by
  unfold execChgClrFault
  exact .effect Within.refl.clrChgFault

theorem execChgEnableRestore_leads (s : State) : Leads (parts [.latches, .chg, .faultInput] ++ regs
    [Reg.CHG_STATUS_EN, Reg.FLT_STATUS_LOST, Reg.BATFET_STATUS_STATE]) s (execChgEnableRestore s) := by
  unfold execChgEnableRestore
  exact .effect (.ite Within.refl.setChgEn.batfet Within.refl)

theorem execPolSoftStart_leads (s : State) {n at_} : Leads (Touch.railsFollow) s (execPolSoftStart n at_ s) := by
  unfold execPolSoftStart
  exact .effect (.ite Within.refl (.ite Within.refl.polStart (.ite (.ite Within.refl.setRail.setSlewing.wrBit
    Within.refl.setRail) Within.refl)))

theorem execPolSsShort_leads (s : State) {test} : Leads (Touch.issuing ++ Touch.railsFollow ++ parts [.faultInput,
    .adc, .bus, .waits, .sub, .rl] ++ regs [Reg.FLT_STATUS_LOST, Reg.RAIL_STATUS_POL_LATCHED, Reg.RL_STATUS_EVQ]) s
    (execPolSsShort test s) := by
  unfold execPolSsShort
  exact .effect (.ite Within.refl.polFail Within.refl)

theorem execPolRetry_leads (s : State) {n vout} : Leads (Touch.railsFollow) s (execPolRetry n vout s) := by
  unfold execPolRetry
  exact .effect (by
    split
    · exact Within.refl
    · exact (.ite (.ite Within.refl.setRail.polStart Within.refl.setRail) Within.refl))

theorem execPolOcp_leads (s : State) {n load} : Leads (Touch.issuing ++ Touch.railsFollow ++ parts [.faultInput,
    .adc, .bus, .waits, .sub, .rl] ++ regs [Reg.FLT_STATUS_LOST, Reg.RAIL_STATUS_POL_LATCHED, Reg.RL_STATUS_EVQ]) s
    (execPolOcp n load s) := by
  unfold execPolOcp
  exact .effect (.ite Within.refl.polFail Within.refl)

theorem execPolOv_leads (s : State) {n mv} : Leads (parts [.rails, .faultInput] ++ regs [Reg.FLT_STATUS_LOST]) s
    (execPolOv n mv s) := by
  unfold execPolOv
  exact .effect (.ite Within.refl.setRail.faultAt (.ite Within.refl.setRail Within.refl))

theorem execPolUvlo_leads (s : State) {vsys} : Leads (Touch.railsFollow ++ parts [.faultInput] ++ regs
    [Reg.FLT_STATUS_LOST]) s (execPolUvlo vsys s) := by
  unfold execPolUvlo
  exact .effect (.ite (.foldl Within.refl fun _ _ h1 => h1.setRail.polStop.faultAt) Within.refl)

theorem execPolUvloRestart_leads (s : State) : Leads (Touch.railsFollow) s (execPolUvloRestart s) := by
  unfold execPolUvloRestart
  exact .effect (.railsFollow (.foldl Within.refl fun _ _ h1 => h1.setRail))

theorem execPolFrzFloor_leads (s : State) {n} : Leads (parts [.rails, .faultInput] ++ regs
    [Reg.RAIL_STATUS_HOLD_ACT, Reg.FLT_STATUS_LOST]) s (execPolFrzFloor n s) := by
  unfold execPolFrzFloor
  exact .effect (.ite (Within.refl.setRail.wrBit.onceInRun (fun _ h1 => h1.faultAt)) Within.refl)

theorem execPolHoldLimit_leads (s : State) {n fold mv} : Leads (parts [.rails, .faultInput] ++ regs
    [Reg.FLT_STATUS_LOST]) s (execPolHoldLimit n fold mv s) := by
  unfold execPolHoldLimit
  exact .effect (.ite (.ite Within.refl.setRail Within.refl.setRail.faultAt) Within.refl)

theorem execRailClrLatch_leads (s : State) : Leads (Touch.railsFollow ++ regs [Reg.RAIL_STATUS_POL_LATCHED]) s
    (execRailClrLatch s) := by
  unfold execRailClrLatch
  exact .effect Within.refl.clrRailLatch

theorem execQrLimit_leads (s : State) {n dropout} : Leads (parts [.faultInput, .rails] ++ regs
    [Reg.FLT_STATUS_LOST]) s (execQrLimit n dropout s) := by
  unfold execQrLimit
  exact .effect (.ite (Within.refl.onceInRun (fun _ h1 => h1.fault)) Within.refl)

theorem execQrThermal_leads (s : State) {n temp} : Leads (Touch.railsFollow ++ parts [.faultInput] ++ regs
    [Reg.FLT_STATUS_LOST]) s (execQrThermal n temp s) := by
  unfold execQrThermal
  exact .effect (.ite Within.refl.setRail.fault.railsFollow (.ite Within.refl.setRail.railsFollow Within.refl))

theorem execVselChange_leads (s : State) {rail index} : Leads (Touch.issuing ++ Touch.railsFollow ++ Touch.railSet
    ++ parts [.adc, .bus, .waits, .sub, .rl] ++ regs [Reg.RL_STATUS_EVQ]) s (execVselChange rail index s) := by
  unfold execVselChange
  exact .effect Within.refl.part_rails.padSelect

theorem execRlNop_leads (s : State) {tag} :
    Leads (parts [.rl] ++ regs [Reg.RL_STATUS_SPEED, Reg.RL_STATUS_EVQ]) s (execRlNop tag s) := by
  unfold execRlNop
  exact .effect (Within.refl.transact fun _ h1 => h1)

theorem execRlHello_leads (s : State) {tag speed keep version} : Leads (Touch.issuing ++ Touch.railsFollow ++
    Touch.railSet ++ parts [.rl, .adc, .bus, .waits, .sub] ++ regs [Reg.RL_STATUS_REJECTS, Reg.RAIL_STATUS_POL_OVR,
    Reg.RAIL_STATUS_QR_OVR, Reg.RL_STATUS_EVQ, Reg.FRM_STATUS_OVR, Reg.RL_STATUS_SESSION, Reg.RL_STATUS_SPEED]) s
    (execRlHello tag speed keep version s) := by
  unfold execRlHello
  exact .effect (Within.refl.transact (fun _ h1 => (.ite h1.rejectRl (.answerRl (.part_rl (.wr (.ite h1 (.wr (.foldl
    h1 fun _ _ h2 => (.ite (.ite h2.runRl h2.part_rl) h2))))))))))

theorem execRlSetV_leads (s : State) {tag rail slew code mv} : Leads (Touch.issuing ++ Touch.railsFollow ++
    Touch.railSet ++ parts [.rl, .adc, .bus, .waits, .sub] ++ regs [Reg.RL_STATUS_REJECTS, Reg.RAIL_STATUS_POL_OVR,
    Reg.RAIL_STATUS_QR_OVR, Reg.RL_STATUS_EVQ, Reg.RL_STATUS_SPEED]) s (execRlSetV tag rail slew code mv s) := by
  unfold execRlSetV
  exact .effect (Within.refl.transact (fun _ h1 => (h1.inSession (fun _ h2 => (.ite h2.rejectRl (.ite h2.rejectRl
    (.ite h2.rejectRl h2.acceptRl)))))))

theorem execRlRelease_leads (s : State) {tag rail mv} : Leads (Touch.issuing ++ Touch.railsFollow ++ Touch.railSet
    ++ parts [.rl, .adc, .bus, .waits, .sub] ++ regs [Reg.RL_STATUS_REJECTS, Reg.RAIL_STATUS_POL_OVR,
    Reg.RAIL_STATUS_QR_OVR, Reg.RL_STATUS_EVQ, Reg.RL_STATUS_SPEED]) s (execRlRelease tag rail mv s) := by
  unfold execRlRelease
  exact .effect (Within.refl.transact (fun _ h1 => (h1.inSession (fun _ h2 => (.ite h2.rejectRl (.ite (.ite
    h2.rejectRl (.ite h2.rejectRl (.foldl h2 fun _ _ h3 => h3.acceptRl))) (.ite h2.rejectRl h2.acceptRl)))))))

theorem execRlEnable_leads (s : State) {tag rail on mv} : Leads (Touch.issuing ++ Touch.railsFollow ++ Touch.railSet
    ++ parts [.rl, .adc, .bus, .waits, .sub] ++ regs [Reg.RL_STATUS_REJECTS, Reg.RAIL_STATUS_POL_OVR,
    Reg.RAIL_STATUS_QR_OVR, Reg.RL_STATUS_EVQ, Reg.RL_STATUS_SPEED]) s (execRlEnable tag rail on mv s) := by
  unfold execRlEnable
  exact .effect (Within.refl.transact (fun _ h1 => (h1.inSession (fun _ h2 => (.ite h2.rejectRl (.ite h2.rejectRl
    h2.acceptRl))))))

/-- An entry of the voltage table lies in the low or in the high half of its register. -/
theorem Within.wrTable (h : Within sc m0 m) {n i c : Nat}
    (hs : Touch.covers sc (arrays [Reg.POL_VTAB_ENTRY_HI, Reg.POL_VTAB_ENTRY_LO]) := by decide +kernel) :
    Within sc m0 (m.wr (if i % 2 = 0 then Reg.POL_VTAB_ENTRY_LO (2 * n + i / 2)
      else Reg.POL_VTAB_ENTRY_HI (2 * n + i / 2)) c) := by
  refine h.andThen hs ?_
  split
  · exact .wrAt Reg.POL_VTAB_ENTRY_LO_even Within.refl
  · exact .wrAt Reg.POL_VTAB_ENTRY_HI_even Within.refl

theorem execRlTableWrite_leads (s : State) {tag rail index code mv} : Leads (Touch.railCommand ++ Touch.railSet ++ regs
    [Reg.RL_STATUS_REJECTS, Reg.RL_STATUS_SPEED] ++ arrays [Reg.POL_VTAB_ENTRY_HI, Reg.POL_VTAB_ENTRY_LO]) s
    (execRlTableWrite tag rail index code mv s) := by
  unfold execRlTableWrite
  exact .effect (Within.refl.transact fun _ h1 => h1.inSession fun _ h2 => .ite h2.rejectRl (.ite h2.rejectRl
    (.ite h2.rejectRl (.ite h2.wrTable.acceptRl h2.wrTable.answerRl))))

theorem execRlPlan_leads (s : State) {tag set plan} : Leads (parts [.seq, .rl] ++ regs [Reg.FRM_STATUS_OVR,
    Reg.RL_STATUS_REJECTS, Reg.RL_STATUS_SPEED, Reg.RL_STATUS_EVQ]) s (execRlPlan tag set plan s) := by
  unfold execRlPlan
  exact .effect (Within.refl.transact (fun _ h1 => (h1.inSession (fun _ h2 => (.answerRl (.edits h2.wrB [.seq,
    .rl]))))))

theorem execRlAptA_leads (s : State) {tag frn7 len} : Leads (parts [.rl] ++ regs [Reg.RL_STATUS_REJECTS,
    Reg.RL_STATUS_SPEED, Reg.RL_STATUS_EVQ]) s (execRlAptA tag frn7 len s) := by
  unfold execRlAptA
  exact .effect (Within.refl.transact (fun _ h1 => (h1.inSession (fun _ h2 => (.ite h2.rejectRl
    h2.part_rl.answerRl)))))

theorem execRlAptB_leads (s : State) {tag slot cycle} : Leads (parts [.rl, .seq] ++ regs [Reg.RL_STATUS_REJECTS,
    Reg.RL_STATUS_SPEED, Reg.RL_STATUS_EVQ]) s (execRlAptB tag slot cycle s) := by
  unfold execRlAptB
  exact .effect (Within.refl.transact (fun _ h1 => (h1.inSession (fun _ h2 => (by
      split
      · exact h2.rejectRl
      · exact (.answerRl (.edits h2 [.seq, .rl])))))))

theorem execRlRead_leads (s : State) {tag read} : Leads (parts [.rl] ++ regs [Reg.RL_STATUS_REJECTS,
    Reg.RAIL_MON_A_PAIR, Reg.RAIL_MON_B_PAIR, Reg.RAIL_MON_C_PAIR, Reg.RL_STATUS_SPEED, Reg.RL_STATUS_EVQ]) s
    (execRlRead tag read s) := by
  unfold execRlRead
  exact .effect (Within.refl.transact (fun _ h1 => (h1.inSession (fun _ h2 => (.ite h2.rejectRl (.ite h2.rejectRl
    h2.setRailMon.answerRl))))))

theorem execRlResend_leads (s : State) {tag} : Leads (parts [.rl] ++ regs [Reg.RL_STATUS_REJECTS,
    Reg.RL_STATUS_SPEED, Reg.RL_STATUS_EVQ]) s (execRlResend tag s) := by
  unfold execRlResend
  exact .effect (Within.refl.transact (fun _ h1 => (h1.inSession (fun _ h2 => h2.part_rl))))

theorem execRlBadOpcode_leads (s : State) {tag range} : Leads (parts [.freeCtr, .rl] ++ regs [Reg.RL_STATUS_REJECTS,
    Reg.RL_STATUS_SPEED, Reg.RL_STATUS_EVQ]) s (execRlBadOpcode tag range s) := by
  unfold execRlBadOpcode
  exact .effect (.transact (.ite Within.refl.drew Within.refl) (fun _ h1 => (h1.inSession (fun _ h2 => h2.rejectRl))))

theorem execRlCrcError_leads (s : State) {tag} : Leads (parts [.rl] ++ regs [Reg.RL_STATUS_EVQ, Reg.RL_STATUS_SPEED,
    Reg.RL_STATUS_CRC_ERRS]) s (execRlCrcError tag s) := by
  unfold execRlCrcError
  exact .effect (.ite Within.refl Within.refl.respond.wr.bump.part_rl.answerRl)

theorem execRlFrameAbandon_leads (s : State) {clock} : Leads (parts [.faultInput] ++ regs [Reg.RL_STATUS_FRAME_ERRS,
    Reg.FLT_STATUS_LOST]) s (execRlFrameAbandon clock s) := by
  unfold execRlFrameAbandon
  exact .effect (.ite Within.refl.bump.fault Within.refl)

theorem execRailArrived_leads (s : State) {rail mv} : Leads (Touch.issuing ++ parts [.rails, .adc, .bus, .waits,
    .sub, .rl] ++ regs [Reg.RAIL_STATUS_POL_REG, Reg.RL_STATUS_EVQ]) s (execRailArrived rail mv s) := by
  unfold execRailArrived
  exact .effect (.ite (.endTag (.setRail (.ite Within.refl.wrBit Within.refl))) Within.refl)

theorem execKaEnable_leads (s : State) : Leads (regs [Reg.CHG_STATUS_PRESENT, Reg.RAIL_STATUS_KA_ON,
    Reg.BATFET_STATUS_STATE]) s (execKaEnable s) := by
  unfold execKaEnable
  exact .effect (.batfet (.ite Within.refl.wr.wr Within.refl.wr))

theorem execKaGap_leads (s : State) {t ms mv} : Leads (parts [.rails, .journal, .faultInput] ++ regs
    [Reg.KA_GAP_COUNT, Reg.RAIL_STATUS_KA_LOW, Reg.FLT_STATUS_LOST, Reg.KA_MIN_MIN]) s (execKaGap t ms mv s) := by
  unfold execKaGap
  exact .effect (.ite (.ite (.wrSat (.fault (.wr (.bump (.edits Within.refl.part_rails [.rails, .journal]))))) (.fault
    (.wr (.bump (.edits Within.refl.part_rails [.rails, .journal]))))) Within.refl)

theorem execKaNodeRecover_leads (s : State) {t us mv} : Leads (Touch.issuing ++ parts [.rails, .journal, .sub] ++
    regs [Reg.RAIL_STATUS_KA_LOW, Reg.KA_MIN_MIN, Reg.KA_GAP_SHORT, Reg.KA_GAP_LAST_MS]) s (execKaNodeRecover t us
    mv s) := by
  unfold execKaNodeRecover
  exact .effect (.ite Within.refl (.ite Within.refl.armGap (by
    extract_lets
    split
    · exact (.part_rails (.bump (.ite Within.refl.wr.part_jrn.wrSat Within.refl.wr.part_jrn)))
    · exact (.submitGaps (.part_rails (.wrSat (.ite Within.refl.wr.part_jrn.wrSat Within.refl.wr.part_jrn)))))))

theorem execKaLimit_leads (s : State) {current} : Leads (parts [.faultInput] ++ regs [Reg.FLT_STATUS_LOST]) s
    (execKaLimit current s) := by
  unfold execKaLimit
  exact .effect (.ite Within.refl.fault Within.refl)

theorem execKaThermalFold_leads (s : State) {temp} : Leads (parts [.rails]) s (execKaThermalFold temp s) := by
  unfold execKaThermalFold
  exact .effect (.ite Within.refl.part_rails (.ite Within.refl.part_rails Within.refl))

theorem execKaStandbyHandover_leads (s : State) : Leads (parts [.rails]) s (execKaStandbyHandover s) := by
  unfold execKaStandbyHandover
  exact .effect (.ite Within.refl.part_rails Within.refl)

theorem execKaOffsetRemoval_leads (s : State) : Leads (parts [.rails] ++ regs [Reg.RAIL_STATUS_KA_STBY]) s
    (execKaOffsetRemoval s) := by
  unfold execKaOffsetRemoval
  exact .effect (.ite Within.refl Within.refl.wr.part_rails)

theorem execCcAttachSnk_leads (s : State) {cc2 rp} : Leads (Touch.hostFault ++ parts [.cable, .intake, .latches,
    .hwdg, .lb, .linkHost, .mailbox] ++ regs [Reg.CBL_STATUS_STATE, Reg.CBL_STATUS_ORIENT, Reg.CBL_STATUS_RP,
    Reg.CBL_CONTRACT_VOLT, Reg.CBL_CONTRACT_CURR, Reg.CBL_CONTRACT_TYPE, Reg.CBL_CONTRACT_ROLE,
    Reg.CBL_CONTRACT_POS, Reg.INTAKE_LIM_EFF_LIM, Reg.INTAKE_LIM_EFF_CAUSE, Reg.CBL_STATUS_ATTACH_CHG,
    Reg.HP_STATUS_DOZE, Reg.HLB_STATUS_STATE, Reg.HLB_STATUS_REASON]) s (execCcAttachSnk cc2 rp s) := by
  unfold execCcAttachSnk
  exact .effect (.ite Within.refl
    Within.refl.wr.wrB.wr.wr.wr.wr.wr.wr.part_cable.passCurrent.cblFlag.attachWake.cableEvent)

theorem execCcAttachSrc_leads (s : State) {cc2 ra} : Leads (parts [.cable, .alertPad, .hwdg, .lb, .sidebands,
    .linkHost, .mailbox] ++ regs [Reg.CBL_STATUS_STATE, Reg.CBL_STATUS_ORIENT, Reg.CBL_STATUS_DFP,
    Reg.ALERT_SRC_SRC, Reg.CBL_STATUS_ATTACH_CHG, Reg.HP_STATUS_DOZE, Reg.HLB_STATUS_STATE, Reg.HLB_STATUS_REASON])
    s (execCcAttachSrc cc2 ra s) := by
  unfold execCcAttachSrc
  exact .effect (.ite Within.refl Within.refl.wr.wrB.wr.part_cable.cblFlag.attachWake.cableEvent)

theorem execCcDetach_leads (s : State) : Leads (Touch.contractGone ++ Touch.hostFault ++ Touch.unmarked ++ parts
    [.latches, .intake, .xfer, .linkHost, .mailbox, .seq] ++ regs [Reg.INTAKE_STATUS_ACTIVE,
    Reg.INTAKE_STATUS_SRC_CHANGE, Reg.INTAKE_EVENTS_SWITCHOVERS, Reg.INTAKE_LIM_EFF_LIM, Reg.INTAKE_LIM_EFF_CAUSE,
    Reg.INTAKE_STATUS_RAMP, Reg.CBL_STATUS_FS_MODE, Reg.CBL_STATUS_VCONN, Reg.CBL_STATUS_DFP, Reg.CBL_STATUS_RP,
    Reg.CBL_PARTNER_REV, Reg.CBL_PARTNER_DRP, Reg.CBL_PARTNER_EPR_CAP, Reg.CBL_PARTNER_FRS_REQ,
    Reg.CBL_STATUS_STATE, Reg.CBL_STATUS_ATTACH_CHG, Reg.CBL_STATUS_SRC_PERMIT]) s (execCcDetach s) := by
  unfold execCcDetach
  exact .effect Within.refl.detach

theorem execAccessoryAttach_leads (s : State) {kind} : Leads (Touch.contractGone ++ Touch.hostFault ++
    Touch.unmarked ++ parts [.latches, .intake, .xfer, .linkHost, .mailbox, .seq] ++ regs [Reg.INTAKE_STATUS_ACTIVE,
    Reg.INTAKE_STATUS_SRC_CHANGE, Reg.INTAKE_EVENTS_SWITCHOVERS, Reg.INTAKE_LIM_EFF_LIM, Reg.INTAKE_LIM_EFF_CAUSE,
    Reg.INTAKE_STATUS_RAMP, Reg.CBL_STATUS_FS_MODE, Reg.CBL_STATUS_VCONN, Reg.CBL_STATUS_DFP, Reg.CBL_STATUS_RP,
    Reg.CBL_PARTNER_REV, Reg.CBL_PARTNER_DRP, Reg.CBL_PARTNER_EPR_CAP, Reg.CBL_PARTNER_FRS_REQ,
    Reg.CBL_STATUS_STATE, Reg.CBL_EVENTS_ERR_RECOV, Reg.CBL_STATUS_ATTACH_CHG, Reg.CBL_STATUS_DEBUG_DENIED]) s
    (execAccessoryAttach kind s) := by
  unfold execAccessoryAttach
  exact .effect (.ite (.ite Within.refl.errorRecovery Within.refl) (by
    split
    · exact Within.refl
    · exact (.ite Within.refl Within.refl.wr.cblFlag.cableEvent)
    · exact Within.refl.debugAttach))

theorem execDrpToggle_leads (s : State) : Leads (parts [.cable]) s (execDrpToggle s) := by
  unfold execDrpToggle
  exact .effect (.ite Within.refl.part_cable Within.refl)

theorem execSourceCapabilities_leads (s : State) {pdos partner} : Leads (Touch.hostFault ++ parts [.cable] ++ regs
    [Reg.CBL_PARTNER_REV, Reg.CBL_PARTNER_DRP, Reg.CBL_PARTNER_EPR_CAP, Reg.CBL_PARTNER_FRS_REQ, Reg.CBL_STATUS_EPR,
    Reg.CBL_STATUS_MISMATCH]) s (execSourceCapabilities pdos partner s) := by
  unfold execSourceCapabilities
  exact .effect (Within.refl.pdIn (fun _ h1 => (.ite h1 (.ite h1.wr.wrB.wrB.wr.part_cable (by
      extract_lets
      split
      · exact (.ite h1.wr.wrB.wrB.wr.part_cable.wr h1.wr.wrB.wrB.wr.part_cable)
      · exact (.part_cable (.ite (.hfault (.wrB (.ite h1.wr.wrB.wrB.wr.part_cable.wr h1.wr.wrB.wrB.wr.part_cable)))
        (.wrB (.ite h1.wr.wrB.wrB.wr.part_cable.wr h1.wr.wrB.wrB.wr.part_cable)))))))))

theorem execPdAccept_leads (s : State) : Leads (Touch.hostFault ++ parts [.cable, .intake, .latches, .xfer,
    .linkHost, .mailbox] ++ regs [Reg.INTAKE_LIM_EFF_LIM, Reg.INTAKE_LIM_EFF_CAUSE, Reg.INTAKE_STATUS_ACTIVE,
    Reg.INTAKE_STATUS_SRC_CHANGE, Reg.INTAKE_EVENTS_SWITCHOVERS, Reg.INTAKE_STATUS_RAMP]) s (execPdAccept s) := by
  unfold execPdAccept
  exact .effect (Within.refl.pdIn (fun _ h1 => (.ite (.ite h1.part_cable.passCurrent
    h1.part_cable.openSource.withdraw) (by
      split
      · exact h1
      · exact (.ite h1 (.ite h1.part_cable h1.part_cable.transitWindow.passCurrent))))))

theorem execPdPsRdy_leads (s : State) : Leads (Touch.contractGone ++ Touch.hostFault ++ Touch.unmarked ++ parts
    [.linkHost, .mailbox, .latches, .intake, .xfer, .seq] ++ regs [Reg.CBL_STATUS_STATE, Reg.INTAKE_STATUS_ACTIVE,
    Reg.INTAKE_STATUS_SRC_CHANGE, Reg.INTAKE_EVENTS_SWITCHOVERS, Reg.INTAKE_LIM_EFF_LIM, Reg.INTAKE_LIM_EFF_CAUSE,
    Reg.INTAKE_STATUS_RAMP, Reg.CBL_STATUS_FS_MODE, Reg.CBL_STATUS_VCONN, Reg.CBL_STATUS_DFP, Reg.CBL_STATUS_RP,
    Reg.CBL_PARTNER_REV, Reg.CBL_PARTNER_DRP, Reg.CBL_PARTNER_EPR_CAP, Reg.CBL_PARTNER_FRS_REQ,
    Reg.CBL_EVENTS_ERR_RECOV, Reg.CBL_STATUS_CONTRACT_CHG, Reg.CBL_STATUS_SRC_PERMIT]) s (execPdPsRdy s) := by
  unfold execPdPsRdy
  exact .effect (Within.refl.pdIn (fun _ h1 => (.ite h1.clearContract.wr.part_cable.plainWindow.cableEvent (.ite (.ite
    h1.part_cable h1.errorRecovery) (.ite h1.clearContract.wr.part_cable.plainWindow.cableEvent (by
      split
      · exact h1
      · exact (.ite (.portFlags (.passCurrent (.setContract (.ite h1.part_cable.contractWindow h1.part_cable))))
        h1)))))))

theorem execPpsRequestRepeat_leads (s : State) : Leads (parts [.cable]) s (execPpsRequestRepeat s) := by
  unfold execPpsRequestRepeat
  exact .effect (Within.refl.pdIn (fun _ h1 => (.ite h1.part_cable h1)))

theorem execEprKeepalive_leads (s : State) {acked} : Leads (Touch.hostFault ++ parts [.cable, .linkHost, .mailbox]
    ++ regs [Reg.CBL_EVENTS_SOFT_RESETS]) s (execEprKeepalive acked s) := by
  unfold execEprKeepalive
  exact .effect (Within.refl.pdIn (fun _ h1 => (.ite h1 (.ite h1.part_cable (.ite h1.softReset h1.part_cable)))))

theorem execSourceBringup_leads (s : State) : Leads (parts [.cable, .linkHost, .mailbox]) s (execSourceBringup s) :=
    by
  unfold execSourceBringup
  exact .effect (.ite Within.refl.part_cable.tellField Within.refl)

theorem execSourceSwitchClose_leads (s : State) {vcbuf seen} : Leads (Touch.contractGone ++ parts [.linkHost,
    .mailbox] ++ regs [Reg.CBL_STATUS_VCONN, Reg.CBL_STATUS_STATE]) s (execSourceSwitchClose vcbuf seen s) := by
  unfold execSourceSwitchClose
  exact .effect (.ite (.ite (.cableEvent (.wr (.clearContract (.ite Within.refl.part_cable.wr
    Within.refl.part_cable)))) (.ite Within.refl.part_cable.wr Within.refl.part_cable)) Within.refl)

theorem execSourceBringupTimeout_leads (s : State) {vbus} : Leads (Touch.contractGone ++ Touch.hostFault ++
    Touch.unmarked ++ parts [.latches, .intake, .xfer, .linkHost, .mailbox, .seq] ++ regs [Reg.INTAKE_STATUS_ACTIVE,
    Reg.INTAKE_STATUS_SRC_CHANGE, Reg.INTAKE_EVENTS_SWITCHOVERS, Reg.INTAKE_LIM_EFF_LIM, Reg.INTAKE_LIM_EFF_CAUSE,
    Reg.INTAKE_STATUS_RAMP, Reg.CBL_STATUS_FS_MODE, Reg.CBL_STATUS_VCONN, Reg.CBL_STATUS_DFP, Reg.CBL_STATUS_RP,
    Reg.CBL_PARTNER_REV, Reg.CBL_PARTNER_DRP, Reg.CBL_PARTNER_EPR_CAP, Reg.CBL_PARTNER_FRS_REQ,
    Reg.CBL_STATUS_STATE, Reg.CBL_EVENTS_ERR_RECOV]) s (execSourceBringupTimeout vbus s) := by
  unfold execSourceBringupTimeout
  exact .effect (.ite Within.refl.hfault.errorRecovery Within.refl)

theorem execSinkRequest_leads (s : State) {ask mv curr} : Leads (parts [.seq, .cable] ++ regs [Reg.CBL_PARTNER_REV])
    s (execSinkRequest ask mv curr s) := by
  unfold execSinkRequest
  exact .effect (Within.refl.pdIn (fun _ h1 => (.ite (.edits h1.wr [.seq, .cable]) h1)))

theorem execSourceTransitionStart_leads (s : State) : Leads (parts [.linkHost, .mailbox]) s
    (execSourceTransitionStart s) := by
  unfold execSourceTransitionStart
  exact .effect (by
    split
    · exact (.ite Within.refl.tellField Within.refl)
    · exact Within.refl)

theorem execSourcePsRdy_leads (s : State) {vbus} : Leads (parts [.seq, .cable, .alertPad, .linkHost, .mailbox] ++
    regs [Reg.CBL_CONTRACT_VOLT, Reg.CBL_CONTRACT_CURR, Reg.CBL_CONTRACT_TYPE, Reg.CBL_CONTRACT_ROLE,
    Reg.CBL_CONTRACT_POS, Reg.CBL_STATUS_EXPLICIT, Reg.ALERT_SRC_SRC, Reg.CBL_STATUS_CONTRACT_CHG]) s
    (execSourcePsRdy vbus s) := by
  unfold execSourcePsRdy
  exact .effect (by
    split
    · exact (.ite (.setContract (.edits Within.refl [.seq, .cable])) Within.refl)
    · exact Within.refl)

theorem execSrcOcp_leads (s : State) {ma} : Leads (Touch.contractGone ++ Touch.hostFault ++ Touch.unmarked ++ parts
    [.latches, .intake, .xfer, .linkHost, .mailbox, .seq] ++ regs [Reg.CBL_EVENTS_SRC_OCP, Reg.INTAKE_STATUS_ACTIVE,
    Reg.INTAKE_STATUS_SRC_CHANGE, Reg.INTAKE_EVENTS_SWITCHOVERS, Reg.INTAKE_LIM_EFF_LIM, Reg.INTAKE_LIM_EFF_CAUSE,
    Reg.INTAKE_STATUS_RAMP, Reg.CBL_STATUS_FS_MODE, Reg.CBL_STATUS_VCONN, Reg.CBL_STATUS_DFP, Reg.CBL_STATUS_RP,
    Reg.CBL_PARTNER_REV, Reg.CBL_PARTNER_DRP, Reg.CBL_PARTNER_EPR_CAP, Reg.CBL_PARTNER_FRS_REQ,
    Reg.CBL_STATUS_STATE, Reg.CBL_EVENTS_ERR_RECOV, Reg.CBL_EVENTS_HARD_RESETS, Reg.CBL_STATUS_HARD_RESET]) s
    (execSrcOcp ma s) := by
  unfold execSrcOcp
  exact .effect (.ite Within.refl (.ite Within.refl.bump.hfault.part_cable.errorRecovery.part_cable
    Within.refl.bump.hfault.part_cable.hardReset))

theorem execPpsSourceTimeout_leads (s : State) : Leads (Touch.contractGone ++ Touch.hostFault ++ Touch.unmarked ++
    parts [.linkHost, .mailbox, .seq, .latches, .intake, .xfer] ++ regs [Reg.CBL_EVENTS_HARD_RESETS,
    Reg.CBL_STATUS_HARD_RESET, Reg.CBL_STATUS_FS_MODE, Reg.INTAKE_STATUS_ACTIVE, Reg.INTAKE_STATUS_SRC_CHANGE,
    Reg.INTAKE_EVENTS_SWITCHOVERS, Reg.INTAKE_LIM_EFF_LIM, Reg.INTAKE_LIM_EFF_CAUSE, Reg.INTAKE_STATUS_RAMP,
    Reg.CBL_STATUS_STATE, Reg.CBL_STATUS_VCONN, Reg.CBL_STATUS_DFP, Reg.CBL_STATUS_RP, Reg.CBL_PARTNER_REV,
    Reg.CBL_PARTNER_DRP, Reg.CBL_PARTNER_EPR_CAP, Reg.CBL_PARTNER_FRS_REQ, Reg.CBL_EVENTS_ERR_RECOV]) s
    (execPpsSourceTimeout s) := by
  unfold execPpsSourceTimeout
  exact .effect (.ite Within.refl.hardReset Within.refl)

theorem execSourceRoleEnd_leads (s : State) {cause vbus slow} : Leads (Touch.contractGone ++ Touch.hostFault ++
    Touch.unmarked ++ parts [.latches, .intake, .xfer, .linkHost, .mailbox, .seq] ++ regs [Reg.INTAKE_STATUS_ACTIVE,
    Reg.INTAKE_STATUS_SRC_CHANGE, Reg.INTAKE_EVENTS_SWITCHOVERS, Reg.INTAKE_LIM_EFF_LIM, Reg.INTAKE_LIM_EFF_CAUSE,
    Reg.INTAKE_STATUS_RAMP, Reg.CBL_STATUS_FS_MODE, Reg.CBL_STATUS_VCONN, Reg.CBL_STATUS_DFP, Reg.CBL_STATUS_RP,
    Reg.CBL_PARTNER_REV, Reg.CBL_PARTNER_DRP, Reg.CBL_PARTNER_EPR_CAP, Reg.CBL_PARTNER_FRS_REQ,
    Reg.CBL_STATUS_STATE, Reg.CBL_EVENTS_ERR_RECOV]) s (execSourceRoleEnd cause vbus slow s) := by
  unfold execSourceRoleEnd
  exact .effect (.ite Within.refl.hfault (.ite Within.refl (.endRole (.ite Within.refl.hfault Within.refl))))

theorem execCblExitSrc_leads (s : State) : Leads (Touch.contractGone ++ Touch.hostFault ++ Touch.unmarked ++ parts
    [.latches, .intake, .xfer, .linkHost, .mailbox, .seq] ++ regs [Reg.INTAKE_STATUS_ACTIVE,
    Reg.INTAKE_STATUS_SRC_CHANGE, Reg.INTAKE_EVENTS_SWITCHOVERS, Reg.INTAKE_LIM_EFF_LIM, Reg.INTAKE_LIM_EFF_CAUSE,
    Reg.INTAKE_STATUS_RAMP, Reg.CBL_STATUS_FS_MODE, Reg.CBL_STATUS_VCONN, Reg.CBL_STATUS_DFP, Reg.CBL_STATUS_RP,
    Reg.CBL_PARTNER_REV, Reg.CBL_PARTNER_DRP, Reg.CBL_PARTNER_EPR_CAP, Reg.CBL_PARTNER_FRS_REQ,
    Reg.CBL_STATUS_STATE, Reg.CBL_EVENTS_ERR_RECOV]) s (execCblExitSrc s) := by
  unfold execCblExitSrc
  exact .effect Within.refl.endRole

theorem execDcinEndsSource_leads (s : State) : Leads (Touch.contractGone ++ Touch.hostFault ++ Touch.unmarked ++
    parts [.latches, .intake, .xfer, .linkHost, .mailbox, .seq] ++ regs [Reg.INTAKE_STATUS_ACTIVE,
    Reg.INTAKE_STATUS_SRC_CHANGE, Reg.INTAKE_EVENTS_SWITCHOVERS, Reg.INTAKE_LIM_EFF_LIM, Reg.INTAKE_LIM_EFF_CAUSE,
    Reg.INTAKE_STATUS_RAMP, Reg.CBL_STATUS_FS_MODE, Reg.CBL_STATUS_VCONN, Reg.CBL_STATUS_DFP, Reg.CBL_STATUS_RP,
    Reg.CBL_PARTNER_REV, Reg.CBL_PARTNER_DRP, Reg.CBL_PARTNER_EPR_CAP, Reg.CBL_PARTNER_FRS_REQ,
    Reg.CBL_STATUS_STATE, Reg.CBL_EVENTS_ERR_RECOV, Reg.CBL_STATUS_SRC_PERMIT]) s (execDcinEndsSource s) := by
  unfold execDcinEndsSource
  exact .effect (.ite Within.refl.endRole.portFlags Within.refl)

theorem execVconnOcp_leads (s : State) {ma} : Leads (Touch.hostFault ++ Touch.unmarked ++ regs
    [Reg.CBL_STATUS_VCONN]) s (execVconnOcp ma s) := by
  unfold execVconnOcp
  exact .effect (.ite Within.refl.wr.unmarked.hfault Within.refl)

theorem execVconnSwap_leads (s : State) {received} : Leads (parts [.cable, .linkHost, .mailbox] ++ regs
    [Reg.CBL_STATUS_VCONN]) s (execVconnSwap received s) := by
  unfold execVconnSwap
  exact .effect (Within.refl.pdIn (fun _ h1 => (.ite h1.wrB.part_cable.cableEvent h1)))

theorem execCableDiscoverIdentity_leads (s : State) {answer} : Leads (Touch.unmarked ++ parts [.cable]) s
    (execCableDiscoverIdentity answer s) := by
  unfold execCableDiscoverIdentity
  exact .effect (Within.refl.pdIn (fun _ h1 => (.ite h1 (by
      split
      · exact h1.wr.wr.wr.wrB.part_cable
      · exact (.ite h1.part_cable.unmarked h1.part_cable)))))

theorem execPrSwapReceived_leads (s : State) : Leads (Touch.hostFault ++ parts [.cable, .intake, .latches, .xfer,
    .linkHost, .mailbox] ++ regs [Reg.INTAKE_LIM_EFF_LIM, Reg.INTAKE_LIM_EFF_CAUSE, Reg.INTAKE_STATUS_ACTIVE,
    Reg.INTAKE_STATUS_SRC_CHANGE, Reg.INTAKE_EVENTS_SWITCHOVERS, Reg.INTAKE_STATUS_RAMP]) s (execPrSwapReceived s)
    := by
  unfold execPrSwapReceived
  exact .effect (Within.refl.pdIn (fun _ h1 => (.ite h1.part_cable.passCurrent (.ite h1.part_cable.openSource.withdraw
    h1))))

theorem execCblPrSwap_leads (s : State) : Leads (parts [.cable]) s (execCblPrSwap s) := by
  unfold execCblPrSwap
  exact .effect (Within.refl.pdIn (fun _ h1 => h1.cblPrSwap))

theorem execDrSwap_leads (s : State) : Leads (parts [.linkHost, .mailbox] ++ regs [Reg.CBL_STATUS_DFP]) s
    (execDrSwap s) := by
  unfold execDrSwap
  exact .effect (Within.refl.pdIn (fun _ h1 => (.ite h1.wrB.cableEvent h1)))

theorem execFrsSignalDetect_leads (s : State) : Leads (Touch.hostFault ++ parts [.cable, .latches, .linkHost,
    .mailbox] ++ regs [Reg.CBL_STATUS_FRS_ARMED, Reg.INTAKE_STATUS_ACTIVE, Reg.INTAKE_STATUS_SRC_CHANGE,
    Reg.INTAKE_EVENTS_SWITCHOVERS, Reg.INTAKE_LIM_EFF_LIM, Reg.INTAKE_LIM_EFF_CAUSE, Reg.INTAKE_STATUS_RAMP]) s
    (execFrsSignalDetect s) := by
  unfold execFrsSignalDetect
  exact .effect (.ite Within.refl.haltCode.wr.part_cable.frsClose Within.refl)

theorem execFrSwapReceived_leads (s : State) : Leads (Touch.contractGone ++ parts [.linkHost, .mailbox] ++ regs
    [Reg.CBL_STATUS_STATE]) s (execFrSwapReceived s) := by
  unfold execFrSwapReceived
  exact .effect (Within.refl.pdIn (fun _ h1 => (.ite h1.clearContract.wr.part_cable.withdraw.plainWindow.cableEvent
    h1)))

theorem execFrsTimeout_leads (s : State) : Leads (Touch.contractGone ++ Touch.hostFault ++ Touch.unmarked ++ parts
    [.latches, .intake, .xfer, .linkHost, .mailbox, .seq] ++ regs [Reg.INTAKE_STATUS_ACTIVE,
    Reg.INTAKE_STATUS_SRC_CHANGE, Reg.INTAKE_EVENTS_SWITCHOVERS, Reg.INTAKE_LIM_EFF_LIM, Reg.INTAKE_LIM_EFF_CAUSE,
    Reg.INTAKE_STATUS_RAMP, Reg.CBL_STATUS_FS_MODE, Reg.CBL_STATUS_VCONN, Reg.CBL_STATUS_DFP, Reg.CBL_STATUS_RP,
    Reg.CBL_PARTNER_REV, Reg.CBL_PARTNER_DRP, Reg.CBL_PARTNER_EPR_CAP, Reg.CBL_PARTNER_FRS_REQ,
    Reg.CBL_STATUS_STATE, Reg.CBL_EVENTS_ERR_RECOV]) s (execFrsTimeout s) := by
  unfold execFrsTimeout
  exact .effect (.ite Within.refl.hfault.errorRecovery (.ite Within.refl.part_cable.hfault.errorRecovery Within.refl))

theorem execSoftReset_leads (s : State) {received} : Leads (Touch.hostFault ++ parts [.cable, .linkHost, .mailbox]
    ++ regs [Reg.CBL_EVENTS_SOFT_RESETS]) s (execSoftReset received s) := by
  unfold execSoftReset
  exact .effect (Within.refl.pdIn (fun _ h1 => h1.softReset))

theorem execPdResponseTimeout_leads (s : State) {wait} : Leads (Touch.contractGone ++ Touch.hostFault ++
    Touch.unmarked ++ parts [.linkHost, .mailbox, .seq, .latches, .intake, .xfer] ++ regs
    [Reg.CBL_EVENTS_SOFT_RESETS, Reg.CBL_EVENTS_HARD_RESETS, Reg.CBL_STATUS_HARD_RESET, Reg.CBL_STATUS_FS_MODE,
    Reg.INTAKE_STATUS_ACTIVE, Reg.INTAKE_STATUS_SRC_CHANGE, Reg.INTAKE_EVENTS_SWITCHOVERS, Reg.INTAKE_LIM_EFF_LIM,
    Reg.INTAKE_LIM_EFF_CAUSE, Reg.INTAKE_STATUS_RAMP, Reg.CBL_STATUS_STATE, Reg.CBL_STATUS_VCONN,
    Reg.CBL_STATUS_DFP, Reg.CBL_STATUS_RP, Reg.CBL_PARTNER_REV, Reg.CBL_PARTNER_DRP, Reg.CBL_PARTNER_EPR_CAP,
    Reg.CBL_PARTNER_FRS_REQ, Reg.CBL_EVENTS_ERR_RECOV]) s (execPdResponseTimeout wait s) := by
  unfold execPdResponseTimeout
  exact .effect (Within.refl.pdIn (fun _ h1 => (.ite h1 (by
      split
      · exact h1.softReset
      · exact h1.softReset
      · exact h1.hardReset
      · exact h1.hardReset
      · exact h1.hardReset
      · exact h1.hardReset))))

theorem execPdNoResponse_leads (s : State) : Leads (Touch.contractGone ++ Touch.hostFault ++ Touch.unmarked ++ parts
    [.intake, .latches, .xfer, .linkHost, .mailbox, .seq] ++ regs [Reg.INTAKE_LIM_EFF_LIM, Reg.INTAKE_LIM_EFF_CAUSE,
    Reg.INTAKE_STATUS_ACTIVE, Reg.INTAKE_STATUS_SRC_CHANGE, Reg.INTAKE_EVENTS_SWITCHOVERS, Reg.INTAKE_STATUS_RAMP,
    Reg.CBL_STATUS_FS_MODE, Reg.CBL_STATUS_VCONN, Reg.CBL_STATUS_DFP, Reg.CBL_STATUS_RP, Reg.CBL_PARTNER_REV,
    Reg.CBL_PARTNER_DRP, Reg.CBL_PARTNER_EPR_CAP, Reg.CBL_PARTNER_FRS_REQ, Reg.CBL_STATUS_STATE,
    Reg.CBL_EVENTS_ERR_RECOV]) s (execPdNoResponse s) := by
  unfold execPdNoResponse
  exact .effect (Within.refl.pdIn (fun _ h1 => (.ite h1 (.ite h1.hfault.typeCOnly (.ite (.ite h1.hfault.errorRecovery
    h1.hfault.part_cable) h1)))))

theorem execHardReset_leads (s : State) {received} : Leads (Touch.contractGone ++ Touch.hostFault ++ Touch.unmarked
    ++ parts [.linkHost, .mailbox, .seq, .latches, .intake, .xfer] ++ regs [Reg.CBL_EVENTS_HARD_RESETS,
    Reg.CBL_STATUS_HARD_RESET, Reg.CBL_STATUS_FS_MODE, Reg.INTAKE_STATUS_ACTIVE, Reg.INTAKE_STATUS_SRC_CHANGE,
    Reg.INTAKE_EVENTS_SWITCHOVERS, Reg.INTAKE_LIM_EFF_LIM, Reg.INTAKE_LIM_EFF_CAUSE, Reg.INTAKE_STATUS_RAMP,
    Reg.CBL_STATUS_STATE, Reg.CBL_STATUS_VCONN, Reg.CBL_STATUS_DFP, Reg.CBL_STATUS_RP, Reg.CBL_PARTNER_REV,
    Reg.CBL_PARTNER_DRP, Reg.CBL_PARTNER_EPR_CAP, Reg.CBL_PARTNER_FRS_REQ, Reg.CBL_EVENTS_ERR_RECOV]) s
    (execHardReset received s) := by
  unfold execHardReset
  exact .effect (Within.refl.pdIn (fun _ h1 => (.ite h1.hardReset h1)))

theorem execCablePulledInTransition_leads (s : State) : Leads (Touch.contractGone ++ Touch.hostFault ++
    Touch.unmarked ++ parts [.latches, .intake, .xfer, .linkHost, .mailbox, .seq] ++ regs [Reg.INTAKE_STATUS_ACTIVE,
    Reg.INTAKE_STATUS_SRC_CHANGE, Reg.INTAKE_EVENTS_SWITCHOVERS, Reg.INTAKE_LIM_EFF_LIM, Reg.INTAKE_LIM_EFF_CAUSE,
    Reg.INTAKE_STATUS_RAMP, Reg.CBL_STATUS_FS_MODE, Reg.CBL_STATUS_VCONN, Reg.CBL_STATUS_DFP, Reg.CBL_STATUS_RP,
    Reg.CBL_PARTNER_REV, Reg.CBL_PARTNER_DRP, Reg.CBL_PARTNER_EPR_CAP, Reg.CBL_PARTNER_FRS_REQ,
    Reg.CBL_STATUS_STATE, Reg.CBL_STATUS_ATTACH_CHG, Reg.CBL_STATUS_SRC_PERMIT]) s (execCablePulledInTransition s)
    := by
  unfold execCablePulledInTransition
  exact .effect Within.refl.detach

theorem execFrameShareEnter_leads (s : State) {dir partnerTx partnerRx ack} : Leads (parts [.cable, .linkHost,
    .mailbox] ++ regs [Reg.CBL_STATUS_FS_MODE]) s (execFrameShareEnter dir partnerTx partnerRx ack s) := by
  unfold execFrameShareEnter
  exact .effect (Within.refl.pdIn (fun _ h1 => (.ite h1 (.ite h1 (.ite h1.wr.part_cable.cableEvent h1.part_cable)))))

theorem execCblFsEnter_leads (s : State) : Leads (parts [.cable]) s (execCblFsEnter s) := by
  unfold execCblFsEnter
  exact .effect Within.refl.cblFsEnter

theorem execCblFsExit_leads (s : State) : Leads (parts [.cable, .linkHost, .mailbox] ++ regs
    [Reg.CBL_STATUS_FS_MODE]) s (execCblFsExit s) := by
  unfold execCblFsExit
  exact .effect Within.refl.leaveShare

theorem execHRstNSourceTimeout_leads (s : State) {vbus} : Leads (Touch.hostFault ++ parts [.cable, .latches,
    .intake, .xfer, .linkHost, .mailbox] ++ regs [Reg.INTAKE_STATUS_ACTIVE, Reg.INTAKE_STATUS_SRC_CHANGE,
    Reg.INTAKE_EVENTS_SWITCHOVERS, Reg.INTAKE_LIM_EFF_LIM, Reg.INTAKE_LIM_EFF_CAUSE, Reg.INTAKE_STATUS_RAMP]) s
    (execHRstNSourceTimeout vbus s) := by
  unfold execHRstNSourceTimeout
  exact .effect (.ite Within.refl.openSource.hfault Within.refl)

theorem execCcOvp_leads (s : State) {pads} : Leads (Touch.contractGone ++ Touch.hostFault ++ Touch.unmarked ++ parts
    [.linkHost, .mailbox, .latches, .intake, .xfer, .seq] ++ regs [Reg.CBL_STATUS_VCONN, Reg.CBL_STATUS_FS_MODE,
    Reg.INTAKE_STATUS_ACTIVE, Reg.INTAKE_STATUS_SRC_CHANGE, Reg.INTAKE_EVENTS_SWITCHOVERS, Reg.INTAKE_LIM_EFF_LIM,
    Reg.INTAKE_LIM_EFF_CAUSE, Reg.INTAKE_STATUS_RAMP, Reg.CBL_STATUS_DFP, Reg.CBL_STATUS_RP, Reg.CBL_PARTNER_REV,
    Reg.CBL_PARTNER_DRP, Reg.CBL_PARTNER_EPR_CAP, Reg.CBL_PARTNER_FRS_REQ, Reg.CBL_STATUS_STATE,
    Reg.CBL_EVENTS_ERR_RECOV]) s (execCcOvp pads s) := by
  unfold execCcOvp
  exact .effect (.ite Within.refl.hfault.wr.leaveShare.part_cable.errorRecovery
    Within.refl.hfault.wr.leaveShare.part_cable)

theorem execErrorRecoveryExit_leads (s : State) : Leads (parts [.cable] ++ regs [Reg.CBL_STATUS_STATE]) s
    (execErrorRecoveryExit s) := by
  unfold execErrorRecoveryExit
  exact .effect (.ite Within.refl.wr.part_cable Within.refl)

theorem execFieldSleepCode_leads (s : State) : Leads (parts [.hwdg, .alertPad, .cable, .fieldAsleep, .linkHost,
    .mailbox, .sidebands] ++ regs [Reg.HP_STATUS_DOZE, Reg.ALERT_SRC_SRC, Reg.TL_H_STATUS_STATE, Reg.ID_STATUS_LINK,
    Reg.ID_STATUS_FIELD_READY, Reg.CBL_STATUS_FS_MODE, Reg.CBL_STATUS_SRC_PERMIT, Reg.CBL_STATUS_FRS_ARMED]) s
    (execFieldSleepCode s) := by
  unfold execFieldSleepCode
  exact .effect (Within.refl.onFCode (fun _ h1 => h1.fieldSleeps))

theorem execCholdMeasure_leads (s : State) {us current} : Leads (parts [.faultInput] ++ regs [Reg.JRN_CHOLD_CEFF,
    Reg.FLT_STATUS_LOST]) s (execCholdMeasure us current s) := by
  unfold execCholdMeasure
  exact .effect (.ite Within.refl.wrSat.fault Within.refl.wrSat)

theorem execPageClose_leads (s : State) : Leads (parts [.journal]) s (execPageClose s) := by
  unfold execPageClose
  exact .effect (.ite Within.refl.closePage Within.refl)

theorem execPageCommit_leads (s : State) : Leads (Touch.committing ++ parts [.faultInput] ++ regs
    [Reg.FLT_STATUS_LOST]) s (execPageCommit s) := by
  unfold execPageCommit
  exact .effect (.ite Within.refl.commitPage (.ite Within.refl.critFull Within.refl))

theorem execNandProgFail_leads (s : State) : Leads (Touch.committing ++ parts [.faultInput] ++ regs
    [Reg.JRN_EVENTS_PROG_FAIL, Reg.JRN_STATUS_MEDIA_EVT, Reg.FLT_STATUS_LOST]) s (execNandProgFail s) := by
  unfold execNandProgFail
  exact .effect (.ite Within.refl (.ite Within.refl.ringFail Within.refl.progFail))

theorem execNandEraseDone_leads (s : State) {block ok} : Leads (Touch.nandShown ++ parts [.nand, .journal,
    .faultInput] ++ regs [Reg.JRN_EVENTS_ERASE_FAIL, Reg.JRN_STATUS_MEDIA_EVT, Reg.FLT_STATUS_LOST]) s
    (execNandEraseDone block ok s) := by
  unfold execNandEraseDone
  exact .effect (.ite Within.refl (.ite Within.refl.setBlock (.fault (.wr (.bump (by
    split
    · exact Within.refl.replaceRing
    · exact Within.refl.setBlock.enterDirectory))))))

theorem execNandEccRead_leads (s : State) {code corrections} : Leads (Touch.nandShown ++ parts [.nand, .journal,
    .faultInput] ++ regs [Reg.JRN_EVENTS_UNCORR, Reg.JRN_STATUS_MEDIA_EVT, Reg.FLT_STATUS_LOST,
    Reg.JRN_EVENTS_SCRUB]) s (execNandEccRead code corrections s) := by
  unfold execNandEccRead
  exact .effect (by
    split
    · exact Within.refl
    · exact (.ite Within.refl.setBlock.part_jrn.bump.wr.fault (.ite (.ite Within.refl.bump.fault.relocate
      Within.refl.bump.fault.part_jrn) Within.refl)))

theorem execKeepaliveFlush_leads (s : State) : Leads (Touch.committing) s (execKeepaliveFlush s) := by
  unfold execKeepaliveFlush
  exact .effect (.ite Within.refl.commitAll.part_jrn Within.refl)

theorem execNandScan_leads (s : State) {torn} : Leads (Touch.issuing ++ Touch.nandShown ++ parts [.journal,
    .faultInput, .sub] ++ regs [Reg.JRN_STATUS_READY, Reg.FLT_STATUS_LOST]) s (execNandScan torn s) := by
  unfold execNandScan
  exact .effect (.ite Within.refl (by
    extract_lets
    split
    · exact (.record (.part_jrn (.ite Within.refl.wr.showNand.part_jrn.fault Within.refl.wr.showNand.part_jrn)))
    · exact (.ite Within.refl.wr.showNand.part_jrn.fault Within.refl.wr.showNand.part_jrn)))

theorem execJournalFull_leads (s : State) : Leads (parts [.journal, .faultInput] ++ regs [Reg.JRN_STATUS_FULL,
    Reg.JRN_STATUS_FULL_EVT, Reg.FLT_STATUS_LOST]) s (execJournalFull s) := by
  unfold execJournalFull
  exact .effect (.ite Within.refl.wr.wr.part_jrn.fault Within.refl)

theorem execJournalFullExit_leads (s : State) : Leads (regs [Reg.JRN_STATUS_FULL]) s (execJournalFullExit s) := by
  unfold execJournalFullExit
  exact .effect (.ite Within.refl.wr Within.refl)

theorem execJrSummary_leads (s : State) {x} : Leads (Touch.issuing ++ parts [.seq, .journal, .sub]) s (execJrSummary
    x s) := by
  unfold execJrSummary
  exact .effect (.putSummary (.ite Within.refl.countFrozen Within.refl))

theorem execRtcOscFail_leads (s : State) : Leads (parts [.faultInput] ++ regs [Reg.RTC_STATUS_OSC_FAIL,
    Reg.RTC_STATUS_VALID, Reg.RTC_STATUS_DISCIPLINED, Reg.FLT_STATUS_LOST]) s (execRtcOscFail s) := by
  unfold execRtcOscFail
  exact .effect (.ite Within.refl Within.refl.oscFail)

theorem execRtcBkpLow_leads (s : State) {mv} : Leads (parts [.journal, .faultInput] ++ regs [Reg.RTC_STATUS_BKP_LOW,
    Reg.FLT_STATUS_LOST]) s (execRtcBkpLow mv s) := by
  unfold execRtcBkpLow
  exact .effect (.ite (.ite Within.refl.wr Within.refl.wr.part_jrn.fault) Within.refl.wr)

theorem execRtcRateCorrection_leads (s : State) {err} : Leads (parts [.journal] ++ regs [Reg.RTC_ERR_RATE,
    Reg.RTC_STATUS_DISCIPLINED]) s (execRtcRateCorrection err s) := by
  unfold execRtcRateCorrection
  exact .effect (.ite Within.refl.wrI.wr.part_jrn Within.refl)

theorem execSequenceEntryDue_leads (s : State) {e x} : Leads (Touch.answering ++ Touch.entryOpens ++ Touch.time ++
    Touch.delivering ++ regs [Reg.ADC_EVENTS_SKIPPED, Reg.ADC_EVENTS_LATE]) s (execSequenceEntryDue e x s) := by
  unfold execSequenceEntryDue
  exact .effect (by
    split
    · exact Within.refl
    · exact (.ite Within.refl (.ite Within.refl.atT.part_adc.skipEntry (by
        split
        · exact Within.refl
        · next m3 _ he3 => exact (.ite (.sendAdcThaw (.retireConvs (.part_adc (.setTicket (.entryOf (.ite
          (Within.refl.atT.part_adc.issue he3).lateEntry (Within.refl.atT.part_adc.issue he3))))))) (.retireConvs
          (.part_adc (.setTicket (.entryOf (.ite (Within.refl.atT.part_adc.issue he3).lateEntry
          (Within.refl.atT.part_adc.issue he3)))))))))))

theorem execInjectedConversionDone_leads (s : State) {tkt x} : Leads (Touch.answering ++ Touch.entryOpens ++
    Touch.time ++ Touch.delivering) s (execInjectedConversionDone tkt x s) := by
  unfold execInjectedConversionDone
  exact .effect (by
    split
    · exact Within.refl
    · exact (.ite Within.refl Within.refl.atT.entryOf.setTicket.part_adc.retireConvs))

theorem execSliceRotation_leads (s : State) : Leads (parts [.adc] ++ regs [Reg.ADC_STATUS_ACTIVE,
    Reg.ADC_STATUS_SPARE]) s (execSliceRotation s) := by
  unfold execSliceRotation
  exact .effect (.ite Within.refl (by
    split
    · exact Within.refl
    · exact Within.refl.wrBit.wrBit.wr.setSlice.part_adc))

theorem execSpareCalibrationDone_leads (s : State) {c} : Leads (Touch.sliceFence) s (execSpareCalibrationDone c s)
    := by
  unfold execSpareCalibrationDone
  exact .effect (.ite Within.refl (.ite Within.refl.setSlice.part_adc (.ite Within.refl.setSlice
    Within.refl.setSlice.faultAt.fenceSlice)))

theorem execAdcSliceFault_leads (s : State) {slice timeout tkt} : Leads (Touch.answering ++ Touch.sliceFence ++
    Touch.delivering ++ regs [Reg.TKT_EVENTS_REPLAYS, Reg.TKT_EVENTS_FAILED]) s (execAdcSliceFault slice timeout tkt
    s) := by
  unfold execAdcSliceFault
  exact .effect (by
    extract_lets
    split
    · exact (.ite Within.refl.faultAt.fenceSlice.failTicket.retireConvs Within.refl.faultAt.fenceSlice)
    · exact Within.refl.faultAt.fenceSlice)

theorem execAdcClrFence_leads (s : State) : Leads (Touch.entriesClosed ++ parts [.adc, .fences] ++ regs
    [Reg.ADC_STATUS_FENCED, Reg.ADC_STATUS_ACTIVE, Reg.ADC_STATUS_SPARE, Reg.ADC_STATUS_ROT_STOP,
    Reg.FLT_FENCE_U_UNITS]) s (execAdcClrFence s) := by
  unfold execAdcClrFence
  exact .effect (.ite Within.refl.clrSliceFence Within.refl)

theorem execForegroundCalStart_leads (s : State) {tctl} : Leads (regs [Reg.ADC_STATUS_FGCAL]) s
    (execForegroundCalStart tctl s) := by
  unfold execForegroundCalStart
  exact .effect (.ite Within.refl.startFg Within.refl)

theorem execForegroundCalDone_leads (s : State) {tctl refmon consts} : Leads (Touch.issuing ++ parts [.adc, .sub] ++
    regs [Reg.ADC_STATUS_FGCAL]) s (execForegroundCalDone tctl refmon consts s) := by
  unfold execForegroundCalDone
  exact .effect (.ite Within.refl.wr.part_adc.record Within.refl)

theorem execRefSettled_leads (s : State) : Leads (regs [Reg.ADC_STATUS_REF_SETTLED]) s (execRefSettled s) := by
  unfold execRefSettled
  exact .effect (.ite Within.refl.wr Within.refl)

theorem execRefMon_leads (s : State) {ppm} : Leads (parts [.adc, .faultInput] ++ regs [Reg.FLT_STATUS_LOST]) s
    (execRefMon ppm s) := by
  unfold execRefMon
  exact .effect (.ite (.ite Within.refl.part_adc Within.refl.part_adc.fault) Within.refl)

theorem execRefoutLimit_leads (s : State) {current} : Leads (parts [.faultInput] ++ regs [Reg.FLT_STATUS_LOST]) s
    (execRefoutLimit current s) := by
  unfold execRefoutLimit
  exact .effect (.ite Within.refl.fault Within.refl)

theorem execAdcOvr_leads (s : State) {slice tag high t} : Leads (Touch.entryOpens ++ Touch.time) s (execAdcOvr slice
    tag high t s) := by
  unfold execAdcOvr
  exact .effect Within.refl.atT.entryOf

theorem execCalDue_leads (s : State) : Leads (Touch.issuing ++ parts [.faultInput, .sub] ++ regs
    [Reg.ADC_STATUS_DUE_PASSED, Reg.FLT_STATUS_LOST]) s (execCalDue s) := by
  unfold execCalDue
  exact .effect (.ite Within.refl.wr.fault.record Within.refl)

theorem execAdcInject_leads (st : State) {s} : Leads (Touch.answering) st (execAdcInject s st) := by
  unfold execAdcInject
  exact .effect (by
    split
    · exact Within.refl
    · exact (.ite Within.refl (by
        split
        · exact Within.refl.refuseCmd
        · exact (.ite Within.refl.refuseCmd (.ite Within.refl.refuseCmd (by
            split
            · exact Within.refl
            · next m1 _ he1 => exact (Within.refl.issue he1).part_adc.setWork.setTicket))))))

theorem execRefchkRun_leads (st : State) {s mean tctl} : Leads (Touch.answering ++ regs [Reg.REFCHK_LAST_MEAN]) st
    (execRefchkRun s mean tctl st) := by
  unfold execRefchkRun
  exact .effect (Within.refl.runCmd (fun _ _ h1 => h1.refchkRun))

theorem execCalStage_leads (st : State) {s} : Leads (Touch.answering) st (execCalStage s st) := by
  unfold execCalStage
  exact .effect (Within.refl.runCmd (fun _ _ h1 => h1.calStage))

theorem execCalCommit_leads (st : State) {s readsBack} : Leads (Touch.answering ++ parts [.calCopies]) st
    (execCalCommit s readsBack st) := by
  unfold execCalCommit
  exact .effect (Within.refl.runCmd (fun _ _ h1 => h1.calCommit))

theorem execFaultWordCollect_leads (s : State) : Leads (Touch.collecting) s (execFaultWordCollect s) := by
  unfold execFaultWordCollect
  exact .effect Within.refl.collect

theorem execEscTrackerExpiry_leads (s : State) : Leads (parts [.trackers]) s (execEscTrackerExpiry s) := by
  unfold execEscTrackerExpiry
  exact .effect Within.refl.expireTrackers

theorem execRecoveryWindowClear_leads (s : State) {id} : Leads (parts [.recoveries]) s (execRecoveryWindowClear id
    s) := by
  unfold execRecoveryWindowClear
  exact .effect (by
    split
    · exact (.ite Within.refl.flt_recoveries Within.refl)
    · exact Within.refl)

theorem execFltHistClr_leads (s : State) : Leads (Touch.entriesClosed) s (execFltHistClr s) := by
  unfold execFltHistClr
  exact .effect Within.refl.histClr

theorem execSealBuild_leads (s : State) {status} : Leads (Touch.resigning ++ parts [.journal, .faultInput] ++ regs
    [Reg.JRN_STAGE_STAGED, Reg.FLT_STATUS_LOST]) s (execSealBuild status s) := by
  unfold execSealBuild
  exact .effect Within.refl.buildSeal.settleResign

theorem execTwinResign_leads (s : State) {cause} : Leads (Touch.resigning) s (execTwinResign cause s) := by
  unfold execTwinResign
  exact .effect Within.refl.resignFor

theorem execTwnCtlResign_leads (s : State) : Leads (Touch.resigning) s (execTwnCtlResign s) := by
  unfold execTwnCtlResign
  exact .effect Within.refl.resign

theorem execBatRemoval_leads (s : State) {t seen} : Leads (Touch.refusing ++ Touch.resigning ++ Touch.freezeEnd ++
    parts [.cable, .latches, .waits, .adc, .bus] ++ regs [Reg.CHG_STATUS_REMOVAL, Reg.CHG_STATUS_EN,
    Reg.CHG_STATUS_STATE, Reg.CHG_V_SET, Reg.CHG_I_SET, Reg.CHG_STATUS_FAULT_LATCH, Reg.STAT_LATCH_FN,
    Reg.RAIL_STATUS_KA_ON, Reg.CHG_STATUS_PRESENT, Reg.JRN_ALLOW_ALLOW, Reg.JRN_STATUS_HOLD_BAT,
    Reg.JRN_STATUS_CHOLD_OK]) s (execBatRemoval t seen s) := by
  unfold execBatRemoval
  exact .effect (.ite Within.refl.detect.meter.resignFor Within.refl.detect)

theorem execTwnCtlEnrol_leads (s : State) : Leads (Touch.resigning ++ Touch.nandShown ++ parts [.nand, .journal] ++
    regs [Reg.JRN_NEXT_JSN, Reg.JRN_COMMIT_JSN, Reg.JRN_SEALED_EPOCH, Reg.JRN_RELEASED_EPOCH, Reg.JRN_STAGE_STAGED,
    Reg.TWN_STATUS_RESYNC]) s (execTwnCtlEnrol s) := by
  unfold execTwnCtlEnrol
  exact .effect Within.refl.enrol

theorem execTwnCtlFork_leads (s : State) : Leads (Touch.resigning ++ regs [Reg.TWN_EPOCH_EPOCH,
    Reg.TWN_STATUS_SEQ_ID, Reg.TWN_LAST_FRN, Reg.TWN_PEND_BYTES, Reg.JRN_NEXT_JSN]) s (execTwnCtlFork s) := by
  unfold execTwnCtlFork
  exact .effect Within.refl.fork

theorem execLbStart_leads (s : State) {side} : Leads (Touch.loopBackStart) s (execLbStart side s) := by
  unfold execLbStart
  exact .effect Within.refl.lbStart

theorem execLbRunEnd_leads (s : State) {side back run value} : Leads (Touch.loopBackEnd ++ Touch.loopBackStart ++
    regs [Reg.LB_VALUE_VALUE]) s (execLbRunEnd side back run value s) := by
  unfold execLbRunEnd
  exact .effect Within.refl.lbEnd

theorem execLbTimeout_leads (s : State) {side} : Leads (Touch.loopBackEnd) s (execLbTimeout side s) := by
  unfold execLbTimeout
  exact .effect (.ite Within.refl Within.refl.lbFail)

theorem execFiArm_leads (s : State) : Leads (parts [.lb] ++ regs [Reg.FI_CTL_ARM]) s (execFiArm s) := by
  unfold execFiArm
  exact .effect Within.refl.fiArm

theorem execFiInject_leads (s : State) : Leads (Touch.committing ++ Touch.sliceFence ++ parts [.linkField, .twin,
    .rl, .lb] ++ regs [Reg.TKT_EVENTS_REPLAYS, Reg.TKT_EVENTS_FAILED, Reg.JRN_EVENTS_PROG_FAIL,
    Reg.JRN_STATUS_MEDIA_EVT, Reg.TL_F_EVENTS_CRC_ERRS, Reg.TWN_HB_CRC_ERRS, Reg.RL_STATUS_CRC_ERRS,
    Reg.FI_STATUS_INJECTED, Reg.FI_STATUS_LAST_TARGET, Reg.FI_CTL_ARM]) s (execFiInject s) := by
  unfold execFiInject
  exact .effect (.ite (by
    split
    · next m1 he1 => exact (Within.refl.fiMake he1).bump.wr.fiDisarm
    · exact Within.refl) Within.refl)

theorem execFenceLift_leads (s : State) {id} : Leads (Touch.fenceLifted ++ parts [.recoveries]) s (execFenceLift id
    s) := by
  unfold execFenceLift
  exact .effect (by
    split
    · exact (.ite Within.refl.unfence.recover Within.refl)
    · exact Within.refl)

theorem execFltClrPerm_leads (s : State) : Leads (Touch.fenceLifted) s (execFltClrPerm s) := by
  unfold execFltClrPerm
  exact .effect Within.refl.clrPerm

theorem execSourceEvent_leads (s : State) {src t} : Leads (Touch.issuing ++ Touch.time ++ parts [.sidebands, .sub]
    ++ regs [Reg.FRM_STATUS_SRC, Reg.FRM_STATUS_STATE]) s (execSourceEvent src t s) := by
  unfold execSourceEvent
  exact .effect (.ite Within.refl.atT (.ite (.setTrack (.ite Within.refl.atT.arch_sb Within.refl.atT)) (.ite (.setSync
    (.setTrack (.ite Within.refl.atT.arch_sb Within.refl.atT))) (.ite (.setSync (.setTrack (.ite
    Within.refl.atT.arch_sb Within.refl.atT))) (.setTrack (.ite Within.refl.atT.arch_sb Within.refl.atT))))))

theorem execSyncSourceLost_leads (s : State) : Leads (parts [.seq, .faultInput] ++ regs [Reg.FRM_STATUS_LOSS,
    Reg.FLT_STATUS_LOST]) s (execSyncSourceLost s) := by
  unfold execSyncSourceLost
  exact .effect Within.refl.syncLost

theorem execHoldoverExpiry_leads (s : State) : Leads (Touch.issuing ++ parts [.seq, .sub] ++ regs
    [Reg.FRM_STATUS_SRC, Reg.FRM_STATUS_STATE]) s (execHoldoverExpiry s) := by
  unfold execHoldoverExpiry
  exact .effect (.ite (by
    split
    · exact Within.refl.setSync
    · exact Within.refl.setSync) Within.refl)

theorem execSourcePriorityChange_leads (s : State) : Leads (Touch.issuing ++ parts [.seq, .sub] ++ regs
    [Reg.FRM_STATUS_SRC, Reg.FRM_STATUS_STATE]) s (execSourcePriorityChange s) := by
  unfold execSourcePriorityChange
  exact .effect (by
    extract_lets
    split
    · exact (.ite Within.refl.setSync Within.refl)
    · exact Within.refl)

theorem execPlanPadChange_leads (s : State) {pads} : Leads (parts [.seq]) s (execPlanPadChange pads s) := by
  unfold execPlanPadChange
  exact .effect Within.refl.part_seq

theorem execPreFreeze_leads (s : State) {slot a} : Leads (Touch.refusing ++ Touch.time ++ parts [.journal, .rails,
    .sidebands] ++ regs [Reg.RAIL_STATUS_HOLD_ACT]) s (execPreFreeze slot a s) := by
  unfold execPreFreeze
  exact .effect (.ite Within.refl.atT.decideSlot Within.refl)

theorem execPreFreezeSlot0Decision_leads (s : State) {a} : Leads (Touch.refusing ++ Touch.freezeEnd ++ regs
    [Reg.PH_EVENTS_QUIET_LATE]) s (execPreFreezeSlot0Decision a s) := by
  unfold execPreFreezeSlot0Decision
  exact .effect (.ite Within.refl.liftQuiet (.ite (.ite Within.refl.decideSlot.enterFreeze Within.refl.decideSlot)
    Within.refl))

theorem execFreezeSlotBoundary_leads (s : State) {slot late lateRails ns} : Leads (Touch.refusing ++ Touch.freezeEnd
    ++ regs [Reg.PH_EVENTS_QUIET_LATE]) s (execFreezeSlotBoundary slot late lateRails ns s) := by
  unfold execFreezeSlotBoundary
  exact .effect (.ite Within.refl.atT.enterFreeze Within.refl)

theorem execFreezeRunEnd_leads (s : State) {slot} : Leads (Touch.freezeEnd) s (execFreezeRunEnd slot s) := by
  unfold execFreezeRunEnd
  exact .effect (.ite Within.refl.atT.freezeEnd Within.refl)

theorem execApertureRise_leads (s : State) {t a} : Leads (Touch.refusing ++ Touch.freezeEnd ++ regs
    [Reg.FRM_APT_EFF_EFF, Reg.PH_EVENTS_QUIET_LATE]) s (execApertureRise t a s) := by
  unfold execApertureRise
  exact .effect (.ite Within.refl.atT.part_seq.requestAperture Within.refl.atT.part_seq)

theorem execApertureFall_leads (s : State) {t} : Leads (Touch.freezeEnd) s (execApertureFall t s) := by
  unfold execApertureFall
  exact .effect (.ite Within.refl.atT.releaseApts Within.refl.atT.part_seq.releaseApts)

theorem execApertureLimitExpiry_leads (s : State) {t} : Leads (Touch.freezeEnd ++ parts [.faultInput] ++ regs
    [Reg.FLT_STATUS_LOST]) s (execApertureLimitExpiry t s) := by
  unfold execApertureLimitExpiry
  exact .effect (.ite Within.refl.atT.releaseApts.fault.part_seq Within.refl.atT)

theorem execApertureRearm_leads (s : State) : Leads (parts [.seq]) s (execApertureRearm s) := by
  unfold execApertureRearm
  exact .effect (.ite Within.refl Within.refl.part_seq)

theorem execScheduledApertureStart_leads (s : State) {t a} : Leads (Touch.refusing ++ Touch.freezeEnd ++ parts [.rl]
    ++ regs [Reg.PH_EVENTS_QUIET_LATE, Reg.RL_STATUS_EVQ, Reg.FRM_APT_EFF_EFF]) s (execScheduledApertureStart t a s)
    := by
  unfold execScheduledApertureStart
  exact .effect (by
    dsimp only
    split
    · exact Within.refl.atT
    · exact (.ite (.ite Within.refl.atT.part_seq.part_seq.holdApt.enterFreeze.aptEvent (.ite (.ite
      Within.refl.atT.part_seq.requestAperture.aptEvent Within.refl.atT.part_seq.requestAperture.aptEvent)
      Within.refl.atT.part_seq.aptEvent)) (.ite (.ite Within.refl.atT.part_seq.aptEvent (.ite Within.refl.atT.wrSat
      (by
        split
        · exact (.part_seq (.ite Within.refl.atT.wrSat Within.refl.atT.wrSat.raise))
        · exact Within.refl.atT.wrSat.refuse.part_seq.aptEvent))) Within.refl.atT)))

theorem execQreqRequest_leads (s : State) {t a} : Leads (Touch.refusing ++ Touch.freezeEnd ++ regs
    [Reg.FRM_APT_EFF_EFF, Reg.PH_EVENTS_QUIET_LATE]) s (execQreqRequest t a s) := by
  unfold execQreqRequest
  exact .effect (.onHCode (.ite Within.refl.atT.haltOnce Within.refl.atT) (fun _ h2 => (.ite h2.requestAperture h2)))

theorem execQreqRelease_leads (s : State) {t} : Leads (Touch.freezeEnd) s (execQreqRelease t s) := by
  unfold execQreqRelease
  exact .effect (Within.refl.atT.haltOnce.onHCode (fun _ h1 => h1.releaseApts))

theorem execDriverHoldCut_leads (s : State) {t} : Leads (Touch.refusing ++ Touch.time ++ parts [.journal, .rails] ++
    regs [Reg.FRM_FRZ_MAX_MAX, Reg.FRM_STATUS_FRZ]) s (execDriverHoldCut t s) := by
  unfold execDriverHoldCut
  exact .effect (.ite Within.refl.atT.freezeStop.refuse.markRun.part_seq Within.refl.atT)

theorem execDriverHoldBreakEnd_leads (s : State) {t a} : Leads (Touch.refusing ++ Touch.freezeEnd ++ regs
    [Reg.FRM_APT_EFF_EFF, Reg.PH_EVENTS_QUIET_LATE]) s (execDriverHoldBreakEnd t a s) := by
  unfold execDriverHoldBreakEnd
  exact .effect (.ite (.ite (by
    extract_lets
    split
    · exact Within.refl.atT.part_seq.wrSat.enterFreeze
    · exact Within.refl.atT.part_seq.wrSat.noApts.thaw.refuse.markRun) Within.refl.atT.part_seq.thaw) Within.refl)

theorem execFreezeEndVbatLow_leads (s : State) {t} : Leads (Touch.refusing ++ Touch.freezeEnd) s
    (execFreezeEndVbatLow t s) := by
  unfold execFreezeEndVbatLow
  exact .effect Within.refl.atT.cutFreeze

theorem execSourceLoadFreezeEnd_leads (s : State) {t} : Leads (Touch.refusing ++ Touch.freezeEnd) s
    (execSourceLoadFreezeEnd t s) := by
  unfold execSourceLoadFreezeEnd
  exact .effect (.ite Within.refl.atT.cutFreeze Within.refl)

theorem execRefusalRunEnd_leads (s : State) : Leads (Touch.issuing ++ parts [.sub] ++ regs
    [Reg.FRM_STATUS_REFUSING]) s (execRefusalRunEnd s) := by
  unfold execRefusalRunEnd
  exact .effect (.ite Within.refl.wr.record Within.refl)

theorem execDurableCommit_leads (s : State) {strm} : Leads (Touch.fenceLifted ++ Touch.resigning ++
    Touch.loopBackStart ++ Touch.nandShown ++ Touch.railsFollow ++ Touch.entriesClosed ++ parts [.bat, .nand,
    .journal, .bist, .calCopies, .cfgCopies, .stopped] ++ regs [Reg.TWN_PEND_BYTES, Reg.TWN_PEND_LOST,
    Reg.PH_STATUS_LATCHED, Reg.RAIL_STATUS_POL_LATCHED, Reg.ADC_STATUS_FGCAL, Reg.SB_STATUS_MULTI, Reg.JRN_NEXT_JSN,
    Reg.JRN_COMMIT_JSN, Reg.JRN_SEALED_EPOCH, Reg.JRN_RELEASED_EPOCH, Reg.JRN_STAGE_STAGED, Reg.TWN_STATUS_RESYNC,
    Reg.TWN_EPOCH_EPOCH, Reg.TWN_STATUS_SEQ_ID, Reg.TWN_LAST_FRN, Reg.FI_CTL_ARM, Reg.RTC_SEC_TAI, Reg.RTC_SUB_SUB,
    Reg.RTC_UTC_OFFSET, Reg.RTC_STATUS_VALID, Reg.RTC_STATUS_SET_EVT, Reg.SVC_STATUS_FAILS,
    Reg.SVC_STATUS_KEY_ENROLLED, Reg.SVC_STATUS_REQ_SIGNED, Reg.MODE_STATUS_PWR_REQ] ++ [.fieldSide, .hostSide]) s
    (execDurableCommit strm s) := by
  unfold execDurableCommit
  exact .effect Within.refl.commitDurable

theorem execJournalAppend_leads (s : State) : Leads (Touch.fenceLifted ++ Touch.appending ++ Touch.resigning ++
    Touch.loopBackStart ++ Touch.nandShown ++ Touch.railsFollow ++ Touch.entriesClosed ++ parts [.bat, .nand, .bist,
    .calCopies, .cfgCopies, .stopped] ++ regs [Reg.PH_STATUS_LATCHED, Reg.RAIL_STATUS_POL_LATCHED,
    Reg.ADC_STATUS_FGCAL, Reg.SB_STATUS_MULTI, Reg.JRN_COMMIT_JSN, Reg.JRN_SEALED_EPOCH, Reg.JRN_RELEASED_EPOCH,
    Reg.TWN_STATUS_RESYNC, Reg.TWN_EPOCH_EPOCH, Reg.TWN_STATUS_SEQ_ID, Reg.TWN_LAST_FRN, Reg.FI_CTL_ARM,
    Reg.RTC_SEC_TAI, Reg.RTC_SUB_SUB, Reg.RTC_UTC_OFFSET, Reg.RTC_STATUS_VALID, Reg.RTC_STATUS_SET_EVT,
    Reg.SVC_STATUS_FAILS, Reg.SVC_STATUS_KEY_ENROLLED, Reg.SVC_STATUS_REQ_SIGNED, Reg.MODE_STATUS_PWR_REQ] ++
    [.fieldSide, .hostSide]) s (execJournalAppend s) := by
  unfold execJournalAppend
  exact .effect Within.refl.appendOne

theorem execHoldupAllowanceUpdate_leads (s : State) {vchold} : Leads (Touch.fenceLifted ++ Touch.appending ++
    Touch.resigning ++ Touch.loopBackStart ++ Touch.nandShown ++ Touch.railsFollow ++ Touch.entriesClosed ++ parts
    [.bat, .nand, .bist, .calCopies, .cfgCopies, .stopped] ++ regs [Reg.JRN_CHOLD_VCHOLD, Reg.JRN_ALLOW_ALLOW,
    Reg.JRN_STATUS_HOLD_BAT, Reg.JRN_STATUS_CHOLD_OK, Reg.PH_STATUS_LATCHED, Reg.RAIL_STATUS_POL_LATCHED,
    Reg.ADC_STATUS_FGCAL, Reg.SB_STATUS_MULTI, Reg.JRN_COMMIT_JSN, Reg.JRN_SEALED_EPOCH, Reg.JRN_RELEASED_EPOCH,
    Reg.TWN_STATUS_RESYNC, Reg.TWN_EPOCH_EPOCH, Reg.TWN_STATUS_SEQ_ID, Reg.TWN_LAST_FRN, Reg.FI_CTL_ARM,
    Reg.RTC_SEC_TAI, Reg.RTC_SUB_SUB, Reg.RTC_UTC_OFFSET, Reg.RTC_STATUS_VALID, Reg.RTC_STATUS_SET_EVT,
    Reg.SVC_STATUS_FAILS, Reg.SVC_STATUS_KEY_ENROLLED, Reg.SVC_STATUS_REQ_SIGNED, Reg.MODE_STATUS_PWR_REQ] ++
    [.fieldSide, .hostSide]) s (execHoldupAllowanceUpdate vchold s) := by
  unfold execHoldupAllowanceUpdate
  exact .effect Within.refl.wrSat.meter.appendMany

theorem execTicketIssue_leads (s : State) {owner stream chan unit dur idem crit} : Leads (Touch.issuing ++ parts
    [.waits, .adc, .bus]) s (execTicketIssue owner stream chan unit dur idem crit s) := by
  unfold execTicketIssue
  exact .effect (.ite Within.refl Within.refl.issueFor)

theorem execTableFull_leads (s : State) : Leads (parts [.fullRun, .faultInput] ++ regs [Reg.FLT_STATUS_LOST]) s
    (execTableFull s) := by
  unfold execTableFull
  exact .effect (by
    split
    · exact Within.refl
    · exact (.ite Within.refl (.ite Within.refl.tkt_fullRun Within.refl.tkt_fullRun.faultAt)))

theorem execTicketRetire_leads (s : State) {num} : Leads (Touch.answering ++ Touch.delivering ++ parts [.chg]) s
    (execTicketRetire num s) := by
  unfold execTicketRetire
  exact .effect Within.refl.retire

theorem execTicketDeadline_leads (s : State) {num} : Leads (Touch.fenceLifted ++ Touch.settling ++ Touch.resigning
    ++ Touch.loopBackStart ++ Touch.nandShown ++ Touch.railsFollow ++ Touch.entriesClosed ++ parts [.bat, .nand,
    .journal, .bist, .calCopies, .cfgCopies, .stopped] ++ regs [Reg.TKT_EVENTS_TIMEOUTS, Reg.TWN_PEND_BYTES,
    Reg.TWN_PEND_LOST, Reg.PH_STATUS_LATCHED, Reg.RAIL_STATUS_POL_LATCHED, Reg.ADC_STATUS_FGCAL,
    Reg.SB_STATUS_MULTI, Reg.JRN_NEXT_JSN, Reg.JRN_COMMIT_JSN, Reg.JRN_SEALED_EPOCH, Reg.JRN_RELEASED_EPOCH,
    Reg.JRN_STAGE_STAGED, Reg.TWN_STATUS_RESYNC, Reg.TWN_EPOCH_EPOCH, Reg.TWN_STATUS_SEQ_ID, Reg.TWN_LAST_FRN,
    Reg.FI_CTL_ARM, Reg.RTC_SEC_TAI, Reg.RTC_SUB_SUB, Reg.RTC_UTC_OFFSET, Reg.RTC_STATUS_VALID,
    Reg.RTC_STATUS_SET_EVT, Reg.SVC_STATUS_FAILS, Reg.SVC_STATUS_KEY_ENROLLED, Reg.SVC_STATUS_REQ_SIGNED,
    Reg.MODE_STATUS_PWR_REQ] ++ [.fieldSide, .hostSide]) s (execTicketDeadline num s) := by
  unfold execTicketDeadline
  exact .effect Within.refl.deadline

theorem execTicketFailure_leads (s : State) {num} : Leads (Touch.fenceLifted ++ Touch.settling ++ Touch.resigning ++
    Touch.loopBackStart ++ Touch.nandShown ++ Touch.railsFollow ++ Touch.entriesClosed ++ parts [.bat, .nand,
    .journal, .bist, .calCopies, .cfgCopies, .stopped] ++ regs [Reg.TWN_PEND_BYTES, Reg.TWN_PEND_LOST,
    Reg.PH_STATUS_LATCHED, Reg.RAIL_STATUS_POL_LATCHED, Reg.ADC_STATUS_FGCAL, Reg.SB_STATUS_MULTI, Reg.JRN_NEXT_JSN,
    Reg.JRN_COMMIT_JSN, Reg.JRN_SEALED_EPOCH, Reg.JRN_RELEASED_EPOCH, Reg.JRN_STAGE_STAGED, Reg.TWN_STATUS_RESYNC,
    Reg.TWN_EPOCH_EPOCH, Reg.TWN_STATUS_SEQ_ID, Reg.TWN_LAST_FRN, Reg.FI_CTL_ARM, Reg.RTC_SEC_TAI, Reg.RTC_SUB_SUB,
    Reg.RTC_UTC_OFFSET, Reg.RTC_STATUS_VALID, Reg.RTC_STATUS_SET_EVT, Reg.SVC_STATUS_FAILS,
    Reg.SVC_STATUS_KEY_ENROLLED, Reg.SVC_STATUS_REQ_SIGNED, Reg.MODE_STATUS_PWR_REQ] ++ [.fieldSide, .hostSide]) s
    (execTicketFailure num s) := by
  unfold execTicketFailure
  exact .effect (.ite (.getD (fun _ he1 => (Within.refl.pendForwarded he1)) Within.refl.failWork) Within.refl)

theorem execHeldRetry_leads (s : State) {num ok} : Leads (parts [.tickets] ++ regs [Reg.TKT_STATUS_INFLIGHT,
    Reg.TKT_STATUS_HWM, Reg.TKT_STATUS_FULL, Reg.TKT_STATUS_HELD, Reg.TKT_STATUS_HELD_STREAM]) s (execHeldRetry num
    ok s) := by
  unfold execHeldRetry
  exact .effect (.ite Within.refl.setTicket Within.refl)

theorem execSbTransaction_leads (s : State) {tkt err data} : Leads (Touch.settling ++ regs [Reg.SB_STATUS_WAIT_THAW,
    Reg.SB_EVENTS2_DEFERRED, Reg.SB_EVENTS2_FRZ_OVERRUN, Reg.SB_STATUS_BUSY, Reg.SB_EVENTS_NACKS,
    Reg.SB_EVENTS2_BIT_ERRS]) s (execSbTransaction tkt err data s) := by
  unfold execSbTransaction
  exact .effect (by
    split
    · exact Within.refl
    · exact (.ite Within.refl.busDefer Within.refl.busOverrun.busEnds))

theorem execSbArbLost_leads (s : State) {tkt} : Leads (Touch.settling ++ regs [Reg.SB_STATUS_BUSY,
    Reg.SB_STATUS_WAIT_THAW, Reg.SB_EVENTS_ARB_LOST, Reg.SB_EVENTS2_BIT_ERRS]) s (execSbArbLost tkt s) := by
  unfold execSbArbLost
  exact .effect (by
    split
    · exact Within.refl
    · exact (.ite Within.refl.busRun.bump Within.refl.busBitErr))

theorem execSbArbFrame_leads (s : State) {tkt restart} : Leads (Touch.settling ++ regs [Reg.SB_EVENTS_ARB_FRAME,
    Reg.SB_STATUS_WAIT_THAW, Reg.SB_STATUS_BUSY, Reg.SB_EVENTS2_BIT_ERRS]) s (execSbArbFrame tkt restart s) := by
  unfold execSbArbFrame
  exact .effect (by
    split
    · exact Within.refl
    · exact (.ite Within.refl.bump.fault.busFail Within.refl.busBitErr))

theorem execSbDeferredStart_leads (s : State) {tkt overrun} : Leads (Touch.busRun ++ regs [Reg.SB_EVENTS2_DEFERRED,
    Reg.SB_EVENTS2_FRZ_OVERRUN]) s (execSbDeferredStart tkt overrun s) := by
  unfold execSbDeferredStart
  exact .effect (by
    split
    · exact Within.refl
    · exact (.ite (.ite Within.refl.busDefer.busRun.setOp.bump Within.refl.busDefer.busRun) Within.refl))

theorem execSbStretchTmo_leads (s : State) {tkt} : Leads (Touch.settling ++ regs [Reg.SB_EVENTS_STRETCH_TMO,
    Reg.SB_EVENTS2_FRZ_OVERRUN, Reg.SB_STATUS_WAIT_THAW, Reg.SB_STATUS_BUSY]) s (execSbStretchTmo tkt s) := by
  unfold execSbStretchTmo
  exact .effect (by
    split
    · exact Within.refl
    · exact Within.refl.bump.fault.busOverrun.busFail)

theorem execSbBusStuck_leads (s : State) {scl sda} : Leads (parts [.bus] ++ regs [Reg.SB_STATUS_CLEARING]) s
    (execSbBusStuck scl sda s) := by
  unfold execSbBusStuck
  exact .effect (.ite Within.refl Within.refl.wr.part_bus)

theorem execSbBusClear_leads (s : State) {ok clocks} : Leads (parts [.faultInput, .bus] ++ regs
    [Reg.SB_EVENTS2_CLEARS, Reg.FLT_STATUS_LOST, Reg.SB_STATUS_CLEARING]) s (execSbBusClear ok clocks s) := by
  unfold execSbBusClear
  exact .effect (.ite Within.refl (.ite Within.refl.bump.fault.wr.part_bus (.ite Within.refl.wr.part_bus
    Within.refl.fault.wr.part_bus)))

theorem execPing_leads (s : State) {strm} : Leads (Touch.answering) s (execPing strm s) := by
  unfold execPing
  exact .effect (Within.refl.runCmd (fun _ _ h1 => h1.pingAct))

theorem execRegRead_leads (s : State) {strm} : Leads (Touch.answering ++ parts [.modes, .histRead] ++ regs
    [Reg.FLT_STATUS_DOUBLE] ++ [.fieldSide, .hostSide]) s (execRegRead strm s) := by
  unfold execRegRead
  exact .effect (Within.refl.runCmd (fun _ _ h1 => h1.regReadAct))

theorem execRegWrite_leads (s : State) {strm} : Leads (Touch.fenceLifted ++ Touch.resigning ++ Touch.loopBackStart
    ++ Touch.nandShown ++ Touch.railsFollow ++ Touch.entriesClosed ++ parts [.bat, .nand, .journal, .bist] ++ regs
    [Reg.PH_STATUS_LATCHED, Reg.RAIL_STATUS_POL_LATCHED, Reg.ADC_STATUS_FGCAL, Reg.SB_STATUS_MULTI,
    Reg.JRN_NEXT_JSN, Reg.JRN_COMMIT_JSN, Reg.JRN_SEALED_EPOCH, Reg.JRN_RELEASED_EPOCH, Reg.JRN_STAGE_STAGED,
    Reg.TWN_STATUS_RESYNC, Reg.TWN_EPOCH_EPOCH, Reg.TWN_STATUS_SEQ_ID, Reg.TWN_LAST_FRN, Reg.TWN_PEND_BYTES,
    Reg.FI_CTL_ARM] ++ [.fieldSide, .hostSide]) s (execRegWrite strm s) := by
  unfold execRegWrite
  exact .effect (Within.refl.runCmd (fun _ _ h1 => h1.regWriteAct))

theorem execKaStatement_leads (s : State) {strm} : Leads (Touch.answering) s (execKaStatement strm s) := by
  unfold execKaStatement
  exact .effect (Within.refl.runCmd (fun _ _ h1 => h1.kaStatementAct))

theorem execTimeSet_leads (s : State) {strm} : Leads (Touch.answering ++ parts [.journal, .twin] ++ regs
    [Reg.RTC_SEC_TAI, Reg.RTC_SUB_SUB, Reg.RTC_UTC_OFFSET, Reg.RTC_STATUS_VALID, Reg.RTC_STATUS_SET_EVT]) s
    (execTimeSet strm s) := by
  unfold execTimeSet
  exact .effect (Within.refl.runCmd (fun _ _ h1 => h1.timeSetAct))

theorem execRelease_leads (s : State) {strm} : Leads (Touch.answering ++ Touch.nandShown ++ regs
    [Reg.JRN_RELEASED_EPOCH]) s (execRelease strm s) := by
  unfold execRelease
  exact .effect (Within.refl.runCmd (fun _ _ h1 => h1.release))

theorem execSbXfer_leads (s : State) {strm} : Leads (Touch.answering) s (execSbXfer strm s) := by
  unfold execSbXfer
  exact .effect (by
    split
    · exact Within.refl
    · exact (.ite Within.refl (by
        split
        · exact Within.refl.refuseCmd
        · exact (.ite Within.refl.validated (by
            split
            · exact Within.refl
            · next m1 _ he1 => exact (Within.refl.startXfer he1).setWork.setTicket)))))

theorem execStreamReset_leads (s : State) {strm} : Leads (Touch.answering) s (execStreamReset strm s) := by
  unfold execStreamReset
  exact .effect (Within.refl.runCmd (fun _ _ h1 => h1.streamResetAct))

theorem execHostPwr_leads (s : State) {strm} : Leads (Touch.answering ++ parts [.modes, .stopped] ++ regs
    [Reg.MODE_STATUS_PWR_REQ]) s (execHostPwr strm s) := by
  unfold execHostPwr
  exact .effect (Within.refl.runCmd (fun _ _ h1 => h1.hostPwrAct))

theorem execShipEnter_leads (s : State) {strm} : Leads (Touch.answering ++ parts [.faultInput, .modes] ++ regs
    [Reg.MODE_EVENTS_SHIP_REFUSED, Reg.FLT_STATUS_LOST]) s (execShipEnter strm s) := by
  unfold execShipEnter
  exact .effect (Within.refl.runChecked (fun _ _ h1 => h1.shipCheck) (fun _ _ h1 => h1.shipAct))

theorem execSvcChallenge_leads (s : State) {strm} : Leads (Touch.answering ++ parts [.modes]) s (execSvcChallenge
    strm s) := by
  unfold execSvcChallenge
  exact .effect (Within.refl.runCmd (fun _ _ h1 => h1.challengeAct))

theorem execSvcEnter_leads (s : State) {strm} : Leads (Touch.answering ++ parts [.modes, .faultInput] ++ regs
    [Reg.SVC_STATUS_FAILS, Reg.MODE_EVENTS_SVC_FAILS, Reg.FLT_STATUS_LOST, Reg.SVC_STATUS_LOCKED_OUT]) s
    (execSvcEnter strm s) := by
  unfold execSvcEnter
  exact .effect (Within.refl.runChecked (fun _ _ h1 => h1.enterCheck) (fun _ _ h1 => h1.enterAct))

theorem execSvcExit_leads (s : State) {strm} : Leads (Touch.answering ++ parts [.modes]) s (execSvcExit strm s) :=
    by
  unfold execSvcExit
  exact .effect (Within.refl.runCmd (fun _ _ h1 => h1.exitAct))

theorem execKeyEnrol_leads (s : State) {strm} : Leads (Touch.answering ++ parts [.cfgCopies] ++ regs
    [Reg.SVC_STATUS_KEY_ENROLLED, Reg.SVC_STATUS_REQ_SIGNED]) s (execKeyEnrol strm s) := by
  unfold execKeyEnrol
  exact .effect (Within.refl.runCmd (fun _ _ h1 => h1.enrolAct))

theorem execCfgStage_leads (s : State) {strm} : Leads (Touch.answering ++ parts [.modes]) s (execCfgStage strm s) :=
    by
  unfold execCfgStage
  exact .effect (Within.refl.runCmd (fun _ _ h1 => h1.cfgStageAct))

theorem execCfgCommit_leads (s : State) {strm readsBack} : Leads (Touch.answering ++ parts [.cfgCopies]) s
    (execCfgCommit strm readsBack s) := by
  unfold execCfgCommit
  exact .effect (Within.refl.runCmd (fun _ _ h1 => h1.cfgCommitAct))

theorem execFieldReset_leads (s : State) {strm} : Leads (Touch.answering) s (execFieldReset strm s) := by
  unfold execFieldReset
  exact .effect (Within.refl.runCmd (fun _ _ h1 => h1.fieldResetAct))

theorem execTabienMessageReceive_leads (s : State) {rx msg crcOk} : Leads (Touch.sideFault ++ Touch.issuing ++ parts
    [.linkHost, .linkField] ++ regs [Reg.TL_H_EVENTS_CRC_ERRS, Reg.TL_F_EVENTS_CRC_ERRS, Reg.TL_H_EVENTS_DROPS,
    Reg.TBF_H_LAST_HEADER, Reg.TBF_H_REASON_REASON, Reg.TL_F_EVENTS_DROPS, Reg.TBF_F_LAST_HEADER,
    Reg.TBF_F_REASON_REASON]) s (execTabienMessageReceive rx msg crcOk s) := by
  unfold execTabienMessageReceive
  exact .effect Within.refl.receiveMsg

theorem execTmAck_leads (s : State) {rx} : Leads (Touch.issuing ++ Touch.delivering ++ parts [.linkHost, .linkField,
    .mailbox, .hostFaults, .bus, .waits, .sub, .work]) s (execTmAck rx s) := by
  unfold execTmAck
  exact .effect (Within.refl.takeFrom (hs := by cases rx <;> decide +kernel) (fun _ _ h1 => h1.covered))

theorem execTabienResendTimer_leads (s : State) {sender} : Leads (Touch.sideFault ++ parts [.linkHost, .linkField]
    ++ regs [Reg.TL_H_EVENTS_RETRAINS, Reg.TL_F_EVENTS_RETRAINS, Reg.TL_H_STATUS_STATE, Reg.TL_F_STATUS_STATE,
    Reg.ID_STATUS_LINK, Reg.ID_STATUS_FIELD_READY, Reg.TL_H_EVENTS_RESENDS, Reg.TL_F_EVENTS_RESENDS]) s
    (execTabienResendTimer sender s) := by
  unfold execTabienResendTimer
  exact .effect (.ite Within.refl (.ite Within.refl.retrain (.linkDo (by
    split
    · exact Within.refl.add
    · exact Within.refl.add))))

theorem execLossOfLock_leads (s : State) {rx} : Leads (Touch.sideFault ++ regs [Reg.TL_H_EVENTS_RETRAINS,
    Reg.TL_F_EVENTS_RETRAINS, Reg.TL_H_STATUS_STATE, Reg.TL_F_STATUS_STATE, Reg.ID_STATUS_LINK,
    Reg.ID_STATUS_FIELD_READY]) s (execLossOfLock rx s) := by
  unfold execLossOfLock
  exact .effect (.ite Within.refl.retrain Within.refl)

theorem execTabienLinkTraining_leads (s : State) {good} : Leads (Touch.fenceLifted ++ parts [.recoveries,
    .fieldAsleep] ++ regs [Reg.TL_H_STATUS_STATE, Reg.TL_F_STATUS_STATE, Reg.ID_STATUS_LINK, Reg.TL_H_STATUS_EPOCH,
    Reg.TL_F_STATUS_EPOCH]) s (execTabienLinkTraining good s) := by
  unfold execTabienLinkTraining
  exact .effect (.ite Within.refl.liftLink.wr.wr.wr.wr.wr.host_fieldAsleep.linkDo.linkDo Within.refl)

theorem execTmLinkUp_leads (s : State) {rx} : Leads (Touch.linkPeerLost ++ Touch.issuing ++ Touch.delivering ++
    parts [.bus, .waits, .sub, .work, .faultInput, .hostFaults] ++ regs [Reg.TKT_EVENTS_VOIDED, Reg.FLT_STATUS_LOST,
    Reg.ID_STATUS_FIELD_READY]) s (execTmLinkUp rx s) := by
  unfold execTmLinkUp
  exact .effect (Within.refl.takeFrom (hs := by cases rx <;> decide +kernel) (fun _ _ h1 => (by
      extract_lets
      split
      · exact (.ite h1.linkDo.dropSent h1.linkDo.resume)
      · exact (.flushHostFaults (.wrB (.ite h1.linkDo.fieldPowerLost h1.linkDo.resume))))))

theorem execTmResult_leads (s : State) : Leads (parts [.mailbox, .alertPad, .linkHost] ++ regs
    [Reg.MBX_EVENTS_VOIDS, Reg.MBX_STATUS_RESULTS, Reg.MBX_STATUS_PLACES, Reg.MBX_STATUS_FULL,
    Reg.MBX_RES_INFO_STREAM, Reg.MBX_RES_INFO_LEN, Reg.ALERT_SRC_SRC] ++ arrays [Reg.MBX_RES_RESULT]) s
    (execTmResult s) := by
  unfold execTmResult
  exact .effect (.ite Within.refl (Within.refl.hostTakes (fun _ _ h1 => (by
      extract_lets
      split
      · exact h1.postResult
      · exact h1))))

theorem execTmSnap_leads (s : State) : Leads (parts [.snapshot, .linkHost] ++ regs [Reg.ID_SNAP_FRN,
    Reg.ID_STATUS_SNAP_VALID, Reg.ID_SNAP_AGE_AGE, Reg.ID_STATUS_MODE]) s (execTmSnap s) := by
  unfold execTmSnap
  exact .effect (Within.refl.hostTakes (fun _ _ h1 => (.ite h1.host_snap h1.host_snap.wr.wr.wr.wr)))

theorem execTmEvent_leads (s : State) : Leads (parts [.alertPad, .eventLevel, .linkHost] ++ regs
    [Reg.ALERT_SRC_SRC]) s (execTmEvent s) := by
  unfold execTmEvent
  exact .effect (Within.refl.hostTakes (fun _ _ h1 => (.ite (.alertSet (.ite (.host_eventFn (.ite h1.alertSet h1))
    (.alertSet (.host_eventFn (.ite h1.alertSet h1))))) (.ite (.host_eventFn (.ite h1.alertSet h1)) (.alertSet
    (.host_eventFn (.ite h1.alertSet h1)))))))

theorem execTmAdc_leads (s : State) : Leads (parts [.linkHost]) s (execTmAdc s) := by
  unfold execTmAdc
  exact .effect (Within.refl.hostTakes (fun _ _ h1 => h1))

theorem execTmDrainData_leads (s : State) : Leads (parts [.drain, .alertPad, .linkHost] ++ regs
    [Reg.DRN_STATUS_AVAIL, Reg.DRN_NEXT_JSN, Reg.DRN_STATUS_END, Reg.DRN_STATUS_REQ_OPEN, Reg.ALERT_SRC_SRC]) s
    (execTmDrainData s) := by
  unfold execTmDrainData
  exact .effect (.ite Within.refl (Within.refl.hostTakes (fun _ _ h1 => (by
      split
      · exact (.ite h1.drainBytes h1)
      · exact h1))))

theorem execTmCfg_leads (s : State) : Leads (Touch.hostFault ++ parts [.intake, .latches, .linkHost] ++ regs
    [Reg.ID_BUNDLE_VERSION, Reg.INTAKE_LIM_EFF_LIM, Reg.INTAKE_LIM_EFF_CAUSE] ++ [.fieldSide, .hostSide]) s
    (execTmCfg s) := by
  unfold execTmCfg
  exact .effect (Within.refl.hostTakes (fun _ _ h1 => (.limitWrite (.part_intake (.foldl h1.wr fun _ _ h3 =>
    h3.takeCfgWord)))))

theorem execTmBudget_leads (s : State) : Leads (parts [.cable, .linkHost] ++ regs [Reg.CBL_OFFER_A_I5,
    Reg.CBL_OFFER_A_I9, Reg.CBL_OFFER_B_I15, Reg.CBL_OFFER_B_I20, Reg.CBL_OFFER_C_IPPS, Reg.CBL_OFFER_C_CAUSE,
    Reg.CBL_OFFER_C_RES_STATE, Reg.CBL_OFFER_C_AGE, Reg.CBL_RESERVE_QBAT, Reg.CBL_RESERVE_QRES,
    Reg.CBL_STATUS_SRC_PERMIT, Reg.CBL_STATUS_FRS_ARMED]) s (execTmBudget s) := by
  unfold execTmBudget
  exact .effect (Within.refl.hostTakes (fun _ _ h1 => (.portFlags (.ite
    h1.wrSat.wrSat.wrSat.wrSat.wrSat.wr.wr.part_cable.wr.wr.wr.part_cable
    h1.wrSat.wrSat.wrSat.wrSat.wrSat.wr.wr.part_cable.wr.wr.wr))))

theorem execTmXfer_leads (s : State) : Leads (Touch.phasesStop ++ Touch.hostFault ++ parts [.cable, .xfer, .latches,
    .linkHost, .mailbox, .chg, .intake] ++ regs [Reg.INTAKE_STATUS_ACTIVE, Reg.INTAKE_STATUS_SRC_CHANGE,
    Reg.INTAKE_EVENTS_SWITCHOVERS, Reg.INTAKE_LIM_EFF_LIM, Reg.INTAKE_LIM_EFF_CAUSE, Reg.INTAKE_STATUS_RAMP,
    Reg.XFER_STATUS_DIR, Reg.XFER_STATS_DIR_CHANGES]) s (execTmXfer s) := by
  unfold execTmXfer
  exact .effect (Within.refl.hostTakes (fun _ _ h1 => h1.part_cable.instructDir))

theorem execTmCmd_leads (s : State) : Leads (Touch.answering ++ parts [.modes, .faultInput] ++ regs
    [Reg.FLT_STATUS_LOST, Reg.HOST_RESEND_ABSORBED, Reg.HOST_RESEND_GAPS, Reg.HOST_RESEND_STALE]) s (execTmCmd s) :=
    by
  unfold execTmCmd
  exact .effect (.ite Within.refl (by
    split
    · exact Within.refl.takeCmd
    · exact Within.refl))

theorem execTmHfault_leads (s : State) : Leads (parts [.faultInput, .linkHost, .linkField] ++ regs
    [Reg.FLT_STATUS_LOST]) s (execTmHfault s) := by
  unfold execTmHfault
  exact .effect (Within.refl.takeFrom (fun _ _ h1 => (.foldl h1.flt_hostAt fun _ _ h3 => h3.stampW)))

theorem execTmCable_leads (s : State) : Leads (Touch.issuing ++ parts [.cable, .modes, .sub, .latches, .faultInput,
    .linkField] ++ regs [Reg.MODE_STATUS_MODE, Reg.MODE_STATUS_MODE_CHG, Reg.BATFET_STATUS_STATE, Reg.REV_SET_SET,
    Reg.FLT_STATUS_LOST]) s (execTmCable s) := by
  unfold execTmCable
  exact .effect (Within.refl.fieldTakes (fun _ _ h1 => (by
      extract_lets
      split
      · exact (.ite h1.enterSource (.ite (.writeRev (.edits h1 [.cable, .modes])) h1))
      · exact h1.part_cable
      · exact (.ite h1.writeRev h1)
      · exact (.ite h1.part_cable h1))))

theorem execFastRoleSwapCode_leads (s : State) {t vcbufLow} : Leads (Touch.refusing ++ Touch.freezeEnd ++ parts
    [.modes, .cable, .latches, .linkField] ++ regs [Reg.MODE_STATUS_MODE, Reg.MODE_STATUS_MODE_CHG,
    Reg.REV_SET_SET]) s (execFastRoleSwapCode t vcbufLow s) := by
  unfold execFastRoleSwapCode
  exact .effect (Within.refl.onHCode (fun _ h1 => (.ite (.ite (.cutFreeze (.atT (.ite h1.part_modes h1.swapSource)))
    (.ite h1.part_modes h1.swapSource)) h1)))

theorem execTmHstatus_leads (s : State) : Leads (parts [.chg, .journal, .latches, .faultInput, .linkHost,
    .linkField] ++ regs [Reg.CHG_V_SET, Reg.FLT_STATUS_LOST, Reg.CHG_I_SET, Reg.CHG_STATUS_LIMITED]) s
    (execTmHstatus s) := by
  unfold execTmHstatus
  exact .effect (Within.refl.takeFrom (fun _ _ h1 => (by
      extract_lets
      split
      · exact (.ite (.edits h1 [.chg, .journal]) (.currentUpdate (.edits h1 [.chg, .journal])))
      · exact (.edits h1 [.chg, .journal]))))

theorem execTmRdclr_leads (s : State) : Leads (parts [.modes, .linkHost, .linkField] ++ [.fieldSide, .hostSide]) s
    (execTmRdclr s) := by
  unfold execTmRdclr
  exact .effect (Within.refl.takeFrom (fun _ _ h1 => h1.applyClears))

theorem execTmJrec_leads (s : State) : Leads (Touch.issuing ++ parts [.sub, .linkHost, .linkField] ++ regs
    [Reg.TKT_EPOCH_EPOCH]) s (execTmJrec s) := by
  unfold execTmJrec
  exact .effect (Within.refl.takeFrom (fun _ _ h1 => h1.takeHostRec))

theorem execTmCfgReq_leads (s : State) : Leads (Touch.issuing ++ parts [.linkField]) s (execTmCfgReq s) := by
  unfold execTmCfgReq
  exact .effect (.ite (Within.refl.fieldTakes (fun _ _ h1 => h1.sendF)) Within.refl)

theorem execTmDrainReq_leads (s : State) : Leads (Touch.issuing ++ parts [.drain, .linkField]) s (execTmDrainReq s)
    := by
  unfold execTmDrainReq
  exact .effect (Within.refl.fieldTakes (fun _ _ h1 => (.ite h1.host_drain h1.sendDrain)))

theorem execTmUpdData_leads (s : State) : Leads (parts [.update, .linkHost, .linkField]) s (execTmUpdData s) := by
  unfold execTmUpdData
  exact .effect (Within.refl.takeFrom (fun _ _ h1 => h1.part_upd))

theorem execSnapStale_leads (s : State) : Leads (Touch.hostFault ++ parts [.snapshot] ++ regs
    [Reg.ID_STATUS_SNAP_VALID]) s (execSnapStale s) := by
  unfold execSnapStale
  exact .effect (.ite Within.refl Within.refl.host_snap.wr.hfault.alertSet)

theorem execMbxSubmit_leads (s : State) : Leads (Touch.answering ++ Touch.hostFault ++ parts [.linkHost] ++ regs
    [Reg.MBX_STATUS_LREJ, Reg.MBX_EVENTS_LREJS, Reg.MBX_LAST_SEQ_SEQ, Reg.MBX_EVENTS_RESENDS,
    Reg.HOST_RESEND_ABSORBED, Reg.HOST_RESEND_GAPS, Reg.HOST_RESEND_STALE]) s (execMbxSubmit s) := by
  unfold execMbxSubmit
  exact .effect Within.refl.submit

theorem execMbxPop_leads (s : State) : Leads (parts [.mailbox] ++ regs [Reg.MBX_CTL_RES_PAGE,
    Reg.MBX_STATUS_RESULTS, Reg.MBX_STATUS_PLACES, Reg.MBX_STATUS_FULL, Reg.MBX_RES_INFO_STREAM,
    Reg.MBX_RES_INFO_LEN] ++ arrays [Reg.MBX_RES_RESULT]) s (execMbxPop s) := by
  unfold execMbxPop
  exact .effect Within.refl.popResult

theorem execDrnStatus_leads (s : State) {bytes} : Leads (parts [.drain]) s (execDrnStatus bytes s) := by
  unfold execDrnStatus
  exact .effect (.ite Within.refl.drnOut Within.refl)

theorem execDrnIdent_leads (s : State) {bytes} : Leads (parts [.drain]) s (execDrnIdent bytes s) := by
  unfold execDrnIdent
  exact .effect (.ite Within.refl.drnOut Within.refl)

theorem execDrnRead_leads (s : State) {bytes} : Leads (Touch.hostFault ++ parts [.drain] ++ regs
    [Reg.DRN_STATUS_AVAIL, Reg.DRN_STATUS_END, Reg.DRN_STATUS_UNDERRUN, Reg.DRN_EVENTS_UNDERRUNS]) s (execDrnRead
    bytes s) := by
  unfold execDrnRead
  exact .effect (.ite Within.refl.drnRead Within.refl)

theorem execDrnReadQ_leads (s : State) {bytes} : Leads (Touch.hostFault ++ parts [.drain] ++ regs
    [Reg.DRN_STATUS_AVAIL, Reg.DRN_STATUS_END, Reg.DRN_STATUS_UNDERRUN, Reg.DRN_EVENTS_UNDERRUNS,
    Reg.DRN_EVENTS_FORMAT_ERRS]) s (execDrnReadQ bytes s) := by
  unfold execDrnReadQ
  exact .effect (.ite Within.refl (.ite Within.refl.drnRead Within.refl.drnFormat))

theorem execDrnRequest_leads (s : State) {block} : Leads (Touch.draining) s (execDrnRequest block s) := by
  unfold execDrnRequest
  exact .effect (.ite Within.refl (.ite Within.refl.drnFormat Within.refl.drnAsk))

theorem execDrnGo_leads (s : State) : Leads (Touch.draining) s (execDrnGo s) := by
  unfold execDrnGo
  exact .effect Within.refl.drnGo

theorem execReadJsn_leads (s : State) : Leads (Touch.issuing ++ parts [.linkField, .drain]) s (execReadJsn s) := by
  unfold execReadJsn
  exact .effect (.ite Within.refl Within.refl.serveRead)

theorem execReadCert_leads (s : State) : Leads (Touch.issuing ++ parts [.linkField, .drain]) s (execReadCert s) :=
    by
  unfold execReadCert
  exact .effect (by
    split
    · exact (.ite Within.refl (.ite Within.refl.sendDrain.setReq Within.refl.sendDrain.setReq))
    · exact Within.refl)

theorem execDrainAbort_leads (s : State) : Leads (Touch.issuing ++ parts [.linkField, .drain]) s (execDrainAbort s)
    := by
  unfold execDrainAbort
  exact .effect (by
    split
    · exact (.ite Within.refl Within.refl.sendDrain.setReq)
    · exact Within.refl)

theorem execDrnWrite_leads (s : State) {ofs data} : Leads (Touch.hostFault ++ regs [Reg.DRN_EVENTS_FORMAT_ERRS] ++
    arrays [Reg.UPD_WIN_DATA]) s (execDrnWrite ofs data s) := by
  unfold execDrnWrite
  exact .effect (.ite Within.refl.drnWrite Within.refl)

theorem execDrnWriteQ_leads (s : State) {ofs data} : Leads (Touch.hostFault ++ regs [Reg.DRN_EVENTS_FORMAT_ERRS] ++
    arrays [Reg.UPD_WIN_DATA]) s (execDrnWriteQ ofs data s) := by
  unfold execDrnWriteQ
  exact .effect (.ite Within.refl (.ite Within.refl.drnWrite Within.refl.drnFormat))

theorem execUpdBegin_leads (s : State) {strm} : Leads (Touch.answering ++ Touch.sessionEnd ++ parts [.slots]) s
    (execUpdBegin strm s) := by
  unfold execUpdBegin
  exact .effect (Within.refl.runUpd (fun _ _ h1 => h1.updBeginAct))

theorem execUpdChunk_leads (s : State) {strm} : Leads (Touch.answering ++ Touch.updateState ++ Touch.sessionEnd) s
    (execUpdChunk strm s) := by
  unfold execUpdChunk
  exact .effect (.ite Within.refl (Within.refl.runChecked (fun _ _ h1 => (by
      split
      · exact h1
      · exact h1.updChunkCheck)) (fun _ _ h1 => h1.updChunkAct)))

theorem execUpdBlockWrite_leads (s : State) {readsBack} : Leads (Touch.updateState ++ Touch.sessionEnd ++ parts
    [.slots]) s (execUpdBlockWrite readsBack s) := by
  unfold execUpdBlockWrite
  exact .effect Within.refl.blockWrite

theorem execUpdFinish_leads (s : State) {strm} : Leads (Touch.answering ++ Touch.updateState ++ Touch.sessionEnd ++
    parts [.slots, .linkHost]) s (execUpdFinish strm s) := by
  unfold execUpdFinish
  exact .effect (Within.refl.runUpd (fun _ _ h1 => h1.updFinishAct))

theorem execUpdAbort_leads (s : State) {strm} : Leads (Touch.answering ++ Touch.sessionEnd ++ parts [.slots]) s
    (execUpdAbort strm s) := by
  unfold execUpdAbort
  exact .effect (Within.refl.runUpd (fun _ _ h1 => h1.updAbortAct))

theorem execUpdQuery_leads (s : State) {strm} : Leads (Touch.answering) s (execUpdQuery strm s) := by
  unfold execUpdQuery
  exact .effect (Within.refl.runUpd (fun _ _ h1 => h1.updQueryAct))

theorem execUpdActivate_leads (s : State) {strm} : Leads (Touch.answering ++ Touch.updateState ++ Touch.sessionEnd
    ++ Touch.slotSelect ++ parts [.slots]) s (execUpdActivate strm s) := by
  unfold execUpdActivate
  exact .effect Within.refl.runActivate

theorem execUpdRevert_leads (s : State) {strm} : Leads (Touch.answering ++ Touch.updateState ++ Touch.sessionEnd ++
    Touch.slotSelect ++ parts [.slots]) s (execUpdRevert strm s) := by
  unfold execUpdRevert
  exact .effect Within.refl.runActivate

theorem execHandoverStart_leads (s : State) : Leads (Touch.sessionEnd ++ parts [.engines, .wdg, .hwdg, .hostBusy]) s
    (execHandoverStart s) := by
  unfold execHandoverStart
  exact .effect (by
    split
    · exact Within.refl
    · exact (.ite Within.refl (.showUpd (.part_upd (.ite Within.refl.setEngine.excuseHandover.host_busy
      Within.refl.setEngine.excuseHandover)))))

theorem execHandoverReady_leads (s : State) {us len} : Leads (Touch.answering ++ Touch.sessionEnd ++
    Touch.railsFollow ++ Touch.railSet ++ Touch.slotSelect ++ Touch.delivering ++ parts [.linkHost, .engines,
    .hostBusy, .rl, .slots] ++ regs [Reg.RAIL_STATUS_POL_OVR, Reg.RAIL_STATUS_QR_OVR, Reg.RL_STATUS_EVQ,
    Reg.HUPD_SEL_PROB, Reg.UPD_SEL_PROB, Reg.UPD_EVENTS_HANDOVERS, Reg.UPD_PROB_FRAMES]) s (execHandoverReady us len
    s) := by
  unfold execHandoverReady
  exact .effect (by
    split
    · exact Within.refl
    · exact (.ite Within.refl (.answerHand (.markProbation (.showUpd (.ite
      Within.refl.handoverRec.part_upd.endHand.selectSlot.probBit.bump.wr
      Within.refl.handoverRec.part_upd.endHand.selectSlot.probBit))))))

theorem execHandoverFallback_leads (s : State) {unreadable us len} : Leads (Touch.answering ++ Touch.sideFault ++
    Touch.sessionEnd ++ Touch.railsFollow ++ Touch.railSet ++ Touch.delivering ++ parts [.linkHost, .engines,
    .hostBusy, .rl] ++ regs [Reg.RAIL_STATUS_POL_OVR, Reg.RAIL_STATUS_QR_OVR, Reg.RL_STATUS_EVQ,
    Reg.UPD_EVENTS_FALLBACKS]) s (execHandoverFallback unreadable us len s) := by
  unfold execHandoverFallback
  exact .effect (by
    split
    · exact Within.refl
    · exact (.ite Within.refl (.answerHand (.showUpd (.sideFault_any (.ite
      Within.refl.handoverRec.part_upd.endHand.bump Within.refl.handoverRec.part_upd.endHand))))))

theorem execProbationPass_leads (s : State) : Leads (Touch.issuing ++ Touch.sessionEnd ++ parts [.slots, .linkHost,
    .mailbox, .sub] ++ regs [Reg.HUPD_SEL_PROB, Reg.UPD_SEL_PROB, Reg.UPD_PROB_FRAMES, Reg.ID_BUNDLE_VERSION]) s
    (execProbationPass s) := by
  unfold execProbationPass
  exact .effect (by
    split
    · exact Within.refl
    · exact (.ite Within.refl (.updateRec (.showUpd (.showBundle (.wr (.probBit (.edits Within.refl [.slots,
      .update]))))))))

theorem execProbationFail_leads (s : State) {cause} : Leads (Touch.charging ++ Touch.answering ++ Touch.sessionEnd
    ++ Touch.slotSelect ++ Touch.delivering ++ parts [.slots, .linkHost, .engines, .wdg, .hwdg, .hostBusy, .rl] ++
    regs [Reg.HUPD_SEL_PROB, Reg.UPD_SEL_PROB, Reg.UPD_PROB_FRAMES, Reg.UPD_EVENTS_ROLLBACKS, Reg.TKT_EPOCH_EPOCH,
    Reg.TKT_EVENTS_VOIDED, Reg.RL_STATUS_EVQ]) s (execProbationFail cause s) := by
  unfold execProbationFail
  exact .effect (by
    split
    · exact (.ite Within.refl Within.refl.rollback.restartEngine)
    · exact Within.refl)

theorem execRegisterWrite_leads (s : State) {addr value} : Leads (Touch.answering ++ Touch.draining ++
    Touch.contractGone ++ Touch.loopBackStart ++ Touch.unmarked ++ parts [.bist, .latches, .xfer, .modes, .intake,
    .seq] ++ regs [Reg.MBX_CTL_RES_PAGE, Reg.MBX_STATUS_LREJ, Reg.MBX_EVENTS_LREJS, Reg.MBX_LAST_SEQ_SEQ,
    Reg.MBX_EVENTS_RESENDS, Reg.HOST_RESEND_ABSORBED, Reg.HOST_RESEND_GAPS, Reg.HOST_RESEND_STALE,
    Reg.INTAKE_LIM_EFF_LIM, Reg.INTAKE_LIM_EFF_CAUSE, Reg.XFER_STATUS_LATCHED, Reg.CBL_STATUS_SRC_PERMIT,
    Reg.INTAKE_STATUS_ACTIVE, Reg.INTAKE_STATUS_SRC_CHANGE, Reg.INTAKE_EVENTS_SWITCHOVERS, Reg.INTAKE_STATUS_RAMP,
    Reg.CBL_STATUS_FS_MODE, Reg.CBL_STATUS_VCONN, Reg.CBL_STATUS_DFP, Reg.CBL_STATUS_RP, Reg.CBL_PARTNER_REV,
    Reg.CBL_PARTNER_DRP, Reg.CBL_PARTNER_EPR_CAP, Reg.CBL_PARTNER_FRS_REQ, Reg.CBL_STATUS_STATE,
    Reg.CBL_EVENTS_ERR_RECOV] ++ arrays [Reg.UPD_WIN_DATA] ++ [.fieldSide, .hostSide]) s (execRegisterWrite addr
    value s) := by
  unfold execRegisterWrite
  exact .effect Within.refl.writeHostWord

theorem execHpWriteTransfer_leads (s : State) {addr bytes} : Leads (Touch.answering ++ Touch.draining ++
    Touch.contractGone ++ Touch.loopBackStart ++ Touch.portNack ++ Touch.unmarked ++ parts [.bist, .latches, .xfer,
    .modes, .intake, .seq] ++ regs [Reg.HP_EVENTS_PAGE_NACKS, Reg.HP_EVENTS2_PEC_ERRS, Reg.HP_STATUS_ERR_EVT,
    Reg.MBX_CTL_RES_PAGE, Reg.MBX_STATUS_LREJ, Reg.MBX_EVENTS_LREJS, Reg.MBX_LAST_SEQ_SEQ, Reg.MBX_EVENTS_RESENDS,
    Reg.HOST_RESEND_ABSORBED, Reg.HOST_RESEND_GAPS, Reg.HOST_RESEND_STALE, Reg.INTAKE_LIM_EFF_LIM,
    Reg.INTAKE_LIM_EFF_CAUSE, Reg.XFER_STATUS_LATCHED, Reg.CBL_STATUS_SRC_PERMIT, Reg.INTAKE_STATUS_ACTIVE,
    Reg.INTAKE_STATUS_SRC_CHANGE, Reg.INTAKE_EVENTS_SWITCHOVERS, Reg.INTAKE_STATUS_RAMP, Reg.CBL_STATUS_FS_MODE,
    Reg.CBL_STATUS_VCONN, Reg.CBL_STATUS_DFP, Reg.CBL_STATUS_RP, Reg.CBL_PARTNER_REV, Reg.CBL_PARTNER_DRP,
    Reg.CBL_PARTNER_EPR_CAP, Reg.CBL_PARTNER_FRS_REQ, Reg.CBL_STATUS_STATE, Reg.CBL_EVENTS_ERR_RECOV] ++ arrays
    [Reg.UPD_WIN_DATA] ++ [.fieldSide, .hostSide]) s (execHpWriteTransfer addr bytes s) := by
  unfold execHpWriteTransfer
  exact .effect (.ite Within.refl (.ite Within.refl.bump (.ite Within.refl (.ite Within.refl.dozeNack
    Within.refl.writeTransfer))))

theorem execHpReadTransfer_leads (s : State) {addr count} : Leads (Touch.portNack ++ parts [.modes, .linkHost,
    .mailbox] ++ regs [Reg.HP_RDCRC_CRC] ++ [.fieldSide, .hostSide]) s (execHpReadTransfer addr count s) := by
  unfold execHpReadTransfer
  exact .effect (.ite Within.refl (.ite Within.refl.bump (.ite Within.refl (.ite Within.refl.dozeNack
    Within.refl.readTransfer))))

theorem execHpTransferAbort_leads (s : State) {cut} : Leads (Touch.answering ++ Touch.draining ++ Touch.contractGone
    ++ Touch.loopBackStart ++ Touch.unmarked ++ parts [.bist, .latches, .xfer, .modes, .intake, .seq, .hp] ++ regs
    [Reg.HP_EVENTS_BUS_ERRS, Reg.HP_STATUS_ERR_EVT, Reg.HP_EVENTS_PAGE_NACKS, Reg.HP_EVENTS2_PEC_ERRS,
    Reg.MBX_CTL_RES_PAGE, Reg.MBX_STATUS_LREJ, Reg.MBX_EVENTS_LREJS, Reg.MBX_LAST_SEQ_SEQ, Reg.MBX_EVENTS_RESENDS,
    Reg.HOST_RESEND_ABSORBED, Reg.HOST_RESEND_GAPS, Reg.HOST_RESEND_STALE, Reg.INTAKE_LIM_EFF_LIM,
    Reg.INTAKE_LIM_EFF_CAUSE, Reg.XFER_STATUS_LATCHED, Reg.CBL_STATUS_SRC_PERMIT, Reg.INTAKE_STATUS_ACTIVE,
    Reg.INTAKE_STATUS_SRC_CHANGE, Reg.INTAKE_EVENTS_SWITCHOVERS, Reg.INTAKE_STATUS_RAMP, Reg.CBL_STATUS_FS_MODE,
    Reg.CBL_STATUS_VCONN, Reg.CBL_STATUS_DFP, Reg.CBL_STATUS_RP, Reg.CBL_PARTNER_REV, Reg.CBL_PARTNER_DRP,
    Reg.CBL_PARTNER_EPR_CAP, Reg.CBL_PARTNER_FRS_REQ, Reg.CBL_STATUS_STATE, Reg.CBL_EVENTS_ERR_RECOV,
    Reg.HP_RDCRC_CRC] ++ arrays [Reg.UPD_WIN_DATA] ++ [.fieldSide, .hostSide]) s (execHpTransferAbort cut s) := by
  unfold execHpTransferAbort
  exact .effect (.ite Within.refl (by
    split
    · exact Within.refl.busError
    · exact (.ite Within.refl.writeTransfer.busError Within.refl)
    · exact (.ite Within.refl.readTransfer.busError Within.refl)))

theorem execHpTimeout_leads (s : State) {completed} : Leads (Touch.hostFault ++ regs [Reg.HP_EVENTS_TIMEOUTS,
    Reg.HP_STATUS_TMO_EVT]) s (execHpTimeout completed s) := by
  unfold execHpTimeout
  exact .effect (.ite Within.refl.bump.wr.hfault Within.refl)

theorem execHpDozeWake_leads (s : State) {addr read} : Leads (Touch.portNack) s (execHpDozeWake addr read s) := by
  unfold execHpDozeWake
  exact .effect (.ite Within.refl.dozeNack Within.refl)

theorem execHpAlertResponse_leads (s : State) {lost} : Leads (Touch.portNack ++ parts [.alertPad] ++ regs
    [Reg.HP_EVENTS2_ARA_LOST]) s (execHpAlertResponse lost s) := by
  unfold execHpAlertResponse
  exact .effect (.ite Within.refl.bump (.ite Within.refl (.ite Within.refl.dozeNack (.ite Within.refl.bump (.edits
    Within.refl [.alertPad, .hp])))))

theorem execTwinClaim_leads (s : State) {low} : Leads (Touch.resigning ++ regs [Reg.TWN_STATUS_LINK,
    Reg.TWN_EPOCH_EPOCH, Reg.JRN_NEXT_JSN, Reg.TWN_PEND_BYTES]) s (execTwinClaim low s) := by
  unfold execTwinClaim
  exact .effect (.ite Within.refl (.ite Within.refl.defer (.ite Within.refl.wr.claim Within.refl.wr.part_twin)))

theorem execTwinClaimWaitExpiry_leads (s : State) {low} : Leads (Touch.resigning ++ regs [Reg.TWN_STATUS_LINK,
    Reg.TWN_EPOCH_EPOCH, Reg.JRN_NEXT_JSN, Reg.TWN_PEND_BYTES]) s (execTwinClaimWaitExpiry low s) := by
  unfold execTwinClaimWaitExpiry
  exact .effect (.ite (.ite Within.refl.defer Within.refl.claim) Within.refl)

theorem execTwinTrainTimeout_leads (s : State) : Leads (Touch.fenceLifted ++ Touch.resigning ++ Touch.loopBackStart
    ++ Touch.nandShown ++ Touch.railsFollow ++ Touch.entriesClosed ++ parts [.journal, .bat, .nand, .bist,
    .calCopies, .cfgCopies, .stopped] ++ regs [Reg.JRN_STAGE_STAGED, Reg.PH_STATUS_LATCHED,
    Reg.RAIL_STATUS_POL_LATCHED, Reg.ADC_STATUS_FGCAL, Reg.SB_STATUS_MULTI, Reg.JRN_NEXT_JSN, Reg.JRN_COMMIT_JSN,
    Reg.JRN_SEALED_EPOCH, Reg.JRN_RELEASED_EPOCH, Reg.TWN_STATUS_RESYNC, Reg.TWN_EPOCH_EPOCH, Reg.TWN_STATUS_SEQ_ID,
    Reg.TWN_LAST_FRN, Reg.TWN_PEND_BYTES, Reg.FI_CTL_ARM, Reg.RTC_SEC_TAI, Reg.RTC_SUB_SUB, Reg.RTC_UTC_OFFSET,
    Reg.RTC_STATUS_VALID, Reg.RTC_STATUS_SET_EVT, Reg.SVC_STATUS_FAILS, Reg.SVC_STATUS_KEY_ENROLLED,
    Reg.SVC_STATUS_REQ_SIGNED, Reg.MODE_STATUS_PWR_REQ] ++ [.fieldSide, .hostSide]) s (execTwinTrainTimeout s) := by
  unfold execTwinTrainTimeout
  exact .effect (.ite Within.refl.part_twin.toRole.acceptReserved Within.refl)

theorem execTwinLinkTrained_leads (s : State) {pState sameSequence} : Leads (Touch.fenceLifted ++ Touch.appending ++
    Touch.resigning ++ Touch.loopBackStart ++ Touch.nandShown ++ Touch.railsFollow ++ Touch.entriesClosed ++ parts
    [.bat, .nand, .bist, .calCopies, .cfgCopies, .stopped] ++ regs [Reg.TWN_STATUS_LINK, Reg.TWN_STATUS_CFG_MATCH,
    Reg.TWN_STATUS_RESYNC, Reg.PH_STATUS_LATCHED, Reg.RAIL_STATUS_POL_LATCHED, Reg.ADC_STATUS_FGCAL,
    Reg.SB_STATUS_MULTI, Reg.JRN_COMMIT_JSN, Reg.JRN_SEALED_EPOCH, Reg.JRN_RELEASED_EPOCH, Reg.TWN_EPOCH_EPOCH,
    Reg.TWN_STATUS_SEQ_ID, Reg.TWN_LAST_FRN, Reg.FI_CTL_ARM, Reg.RTC_SEC_TAI, Reg.RTC_SUB_SUB, Reg.RTC_UTC_OFFSET,
    Reg.RTC_STATUS_VALID, Reg.RTC_STATUS_SET_EVT, Reg.SVC_STATUS_FAILS, Reg.SVC_STATUS_KEY_ENROLLED,
    Reg.SVC_STATUS_REQ_SIGNED, Reg.MODE_STATUS_PWR_REQ] ++ [.fieldSide, .hostSide]) s (execTwinLinkTrained pState
    sameSequence s) := by
  unfold execTwinLinkTrained
  exact .effect (.ite Within.refl (.ite Within.refl.wr.wr.part_twin.trySendTwin.dualLead (.ite
    Within.refl.wr.wr.part_twin.trySendTwin.pairMismatch Within.refl.wr.wr.part_twin.trySendTwin)))

theorem execTwmCfgDigest_leads (s : State) {h digest position pairId} : Leads (Touch.resigning ++ Touch.twinTaking
    ++ parts [.adc, .bus, .waits] ++ regs [Reg.TWN_STATUS_CFG_MATCH, Reg.TWN_STATUS_RESYNC]) s (execTwmCfgDigest h
    digest position pairId s) := by
  unfold execTwmCfgDigest
  exact .effect (Within.refl.takeTwm (fun _ h1 => (.ite (.ite h1.wrB.startResync h1.wrB) (.ite h1.wrB.wr.fault.toRole
    h1.wrB))))

theorem execTwinHeartbeatSend_leads (s : State) {t ika} : Leads (Touch.issuing ++ Touch.time ++ parts [.twin]) s
    (execTwinHeartbeatSend t ika s) := by
  unfold execTwinHeartbeatSend
  exact .effect (.ite Within.refl (.ite Within.refl.part_twin Within.refl.atT.trySendTwin))

theorem execTwmHeartbeat_leads (s : State) {h _frn _sc state mode mirrorWm commitWm allow _ika} : Leads
    (Touch.resigning ++ Touch.twinTaking ++ parts [.adc, .bus, .waits] ++ regs [Reg.TWN_PWMARK_JSN,
    Reg.TWN_WMARK_JSN, Reg.TWN_STATUS_RESYNC, Reg.TWN_PEND_BYTES]) s (execTwmHeartbeat h _frn _sc state mode
    mirrorWm commitWm allow _ika s) := by
  unfold execTwmHeartbeat
  exact .effect (Within.refl.takeTwm (fun _ h1 => (.ite h1.wr.part_twin.leadAgain.endResync.startResync
    h1.wr.part_twin.leadAgain.endResync)))

theorem execTwinHbLost_leads (s : State) : Leads (Touch.fenceLifted ++ Touch.resigning ++ Touch.loopBackStart ++
    Touch.nandShown ++ Touch.railsFollow ++ Touch.entriesClosed ++ parts [.journal, .bat, .nand, .bist, .calCopies,
    .cfgCopies, .stopped] ++ regs [Reg.TWN_HB_LOST, Reg.TWN_STATUS_LINK, Reg.JRN_STAGE_STAGED,
    Reg.PH_STATUS_LATCHED, Reg.RAIL_STATUS_POL_LATCHED, Reg.ADC_STATUS_FGCAL, Reg.SB_STATUS_MULTI, Reg.JRN_NEXT_JSN,
    Reg.JRN_COMMIT_JSN, Reg.JRN_SEALED_EPOCH, Reg.JRN_RELEASED_EPOCH, Reg.TWN_STATUS_RESYNC, Reg.TWN_EPOCH_EPOCH,
    Reg.TWN_STATUS_SEQ_ID, Reg.TWN_LAST_FRN, Reg.TWN_PEND_BYTES, Reg.FI_CTL_ARM, Reg.RTC_SEC_TAI, Reg.RTC_SUB_SUB,
    Reg.RTC_UTC_OFFSET, Reg.RTC_STATUS_VALID, Reg.RTC_STATUS_SET_EVT, Reg.SVC_STATUS_FAILS,
    Reg.SVC_STATUS_KEY_ENROLLED, Reg.SVC_STATUS_REQ_SIGNED, Reg.MODE_STATUS_PWR_REQ] ++ [.fieldSide, .hostSide]) s
    (execTwinHbLost s) := by
  unfold execTwinHbLost
  exact .effect Within.refl.heartbeatLost

theorem execTwinFailover_leads (s : State) {t} : Leads (Touch.resigning ++ Touch.time ++ parts [.adc, .bus, .waits,
    .faultInput] ++ regs [Reg.JRN_NEXT_JSN, Reg.TWN_EPOCH_EPOCH, Reg.TWN_STATUS_RESYNC, Reg.TWN_HB_FAILOVERS,
    Reg.TWN_LAST_FRN, Reg.FLT_STATUS_LOST, Reg.FRM_STATUS_LOSS, Reg.TWN_PEND_BYTES, Reg.FLT_STATUS_DOUBLE]) s
    (execTwinFailover t s) := by
  unfold execTwinFailover
  exact .effect (.ite Within.refl.atT.promote (.ite Within.refl.atT.toRole.wr.fault Within.refl))

theorem execTwmMirror_leads (s : State) {h bytes} : Leads (Touch.fenceLifted ++ Touch.resigning ++
    Touch.loopBackStart ++ Touch.nandShown ++ Touch.railsFollow ++ Touch.entriesClosed ++ parts [.journal, .bat,
    .nand, .bist, .calCopies, .cfgCopies, .stopped] ++ regs [Reg.JRN_NEXT_JSN, Reg.JRN_STAGE_STAGED,
    Reg.PH_STATUS_LATCHED, Reg.RAIL_STATUS_POL_LATCHED, Reg.ADC_STATUS_FGCAL, Reg.SB_STATUS_MULTI,
    Reg.JRN_COMMIT_JSN, Reg.JRN_SEALED_EPOCH, Reg.JRN_RELEASED_EPOCH, Reg.TWN_STATUS_RESYNC, Reg.TWN_EPOCH_EPOCH,
    Reg.TWN_STATUS_SEQ_ID, Reg.TWN_LAST_FRN, Reg.TWN_PEND_BYTES, Reg.FI_CTL_ARM, Reg.RTC_SEC_TAI, Reg.RTC_SUB_SUB,
    Reg.RTC_UTC_OFFSET, Reg.RTC_STATUS_VALID, Reg.RTC_STATUS_SET_EVT, Reg.SVC_STATUS_FAILS,
    Reg.SVC_STATUS_KEY_ENROLLED, Reg.SVC_STATUS_REQ_SIGNED, Reg.MODE_STATUS_PWR_REQ, Reg.TWN_WMARK_JSN,
    Reg.TWN_HB_STALE] ++ [.fieldSide, .hostSide]) s (execTwmMirror h bytes s) := by
  unfold execTwmMirror
  exact .effect (Within.refl.takeTwm (fun _ h1 => (.ite h1 (.trySendTwin (.ite h1 h1.stageMirrored)))))

theorem execTwmMirrorAck_leads (s : State) {h jsn} : Leads (Touch.fenceLifted ++ Touch.appending ++ Touch.resigning
    ++ Touch.loopBackStart ++ Touch.nandShown ++ Touch.railsFollow ++ Touch.entriesClosed ++ parts [.bat, .nand,
    .bist, .calCopies, .cfgCopies, .stopped] ++ regs [Reg.PH_STATUS_LATCHED, Reg.RAIL_STATUS_POL_LATCHED,
    Reg.ADC_STATUS_FGCAL, Reg.SB_STATUS_MULTI, Reg.JRN_COMMIT_JSN, Reg.JRN_SEALED_EPOCH, Reg.JRN_RELEASED_EPOCH,
    Reg.TWN_STATUS_RESYNC, Reg.TWN_EPOCH_EPOCH, Reg.TWN_STATUS_SEQ_ID, Reg.TWN_LAST_FRN, Reg.FI_CTL_ARM,
    Reg.RTC_SEC_TAI, Reg.RTC_SUB_SUB, Reg.RTC_UTC_OFFSET, Reg.RTC_STATUS_VALID, Reg.RTC_STATUS_SET_EVT,
    Reg.SVC_STATUS_FAILS, Reg.SVC_STATUS_KEY_ENROLLED, Reg.SVC_STATUS_REQ_SIGNED, Reg.MODE_STATUS_PWR_REQ,
    Reg.TWN_WMARK_JSN, Reg.TWN_HB_STALE] ++ [.fieldSide, .hostSide]) s (execTwmMirrorAck h jsn s) := by
  unfold execTwmMirrorAck
  exact .effect (Within.refl.takeTwm (fun _ h1 => (.ite h1 (.appendMany (.ite h1.endTwin.acceptTo
    h1.endTwin.acceptTo.wr)))))

theorem execTwmAppend_leads (s : State) {h _fwd bytes} : Leads (Touch.twinTaking ++ parts [.sub]) s (execTwmAppend h
    _fwd bytes s) := by
  unfold execTwmAppend
  exact .effect (Within.refl.takeTwm (fun _ h1 => (.ite h1.submitRec h1)))

theorem execTwmResyncReq_leads (s : State) {h fromJsn} : Leads (Touch.twinTaking) s (execTwmResyncReq h fromJsn s)
    := by
  unfold execTwmResyncReq
  exact .effect (Within.refl.takeTwm (fun _ h1 => (.ite h1.part_twin.serveResync h1)))

theorem execTwmResyncData_leads (s : State) {h bytes} : Leads (Touch.fenceLifted ++ Touch.resigning ++
    Touch.loopBackStart ++ Touch.nandShown ++ Touch.railsFollow ++ Touch.entriesClosed ++ parts [.journal, .bat,
    .nand, .bist, .calCopies, .cfgCopies, .stopped, .freeCtr] ++ regs [Reg.TWN_STATUS_RESYNC, Reg.JRN_STAGE_STAGED,
    Reg.PH_STATUS_LATCHED, Reg.RAIL_STATUS_POL_LATCHED, Reg.ADC_STATUS_FGCAL, Reg.SB_STATUS_MULTI, Reg.JRN_NEXT_JSN,
    Reg.JRN_COMMIT_JSN, Reg.JRN_SEALED_EPOCH, Reg.JRN_RELEASED_EPOCH, Reg.TWN_EPOCH_EPOCH, Reg.TWN_STATUS_SEQ_ID,
    Reg.TWN_LAST_FRN, Reg.TWN_PEND_BYTES, Reg.FI_CTL_ARM, Reg.RTC_SEC_TAI, Reg.RTC_SUB_SUB, Reg.RTC_UTC_OFFSET,
    Reg.RTC_STATUS_VALID, Reg.RTC_STATUS_SET_EVT, Reg.SVC_STATUS_FAILS, Reg.SVC_STATUS_KEY_ENROLLED,
    Reg.SVC_STATUS_REQ_SIGNED, Reg.MODE_STATUS_PWR_REQ, Reg.TWN_WMARK_JSN, Reg.TWN_HB_STALE] ++ [.fieldSide,
    .hostSide]) s (execTwmResyncData h bytes s) := by
  unfold execTwmResyncData
  exact .effect (Within.refl.takeTwm (fun _ h1 => (.ite h1 (by
      extract_lets
      split
      · exact h1.endTwin
      · exact (.ite h1.endTwin.pairMismatch (.endResync (.foldl h1.endTwin fun _ _ h3 => h3.resyncRec)))))))

theorem execTwinResyncFail_leads (s : State) : Leads (Touch.issuing ++ parts [.faultInput, .twin, .adc, .bus,
    .waits, .sub] ++ regs [Reg.FLT_STATUS_LOST, Reg.TWN_STATUS_RESYNC]) s (execTwinResyncFail s) := by
  unfold execTwinResyncFail
  exact .effect (by
    split
    · exact (.ite Within.refl.fault.startResync Within.refl)
    · exact Within.refl)

theorem execTwmTime_leads (s : State) {h _mode utc tai sub} : Leads (Touch.twinTaking ++ parts [.journal, .sub] ++
    regs [Reg.RTC_SEC_TAI, Reg.RTC_SUB_SUB, Reg.RTC_UTC_OFFSET, Reg.RTC_STATUS_VALID, Reg.RTC_STATUS_SET_EVT]) s
    (execTwmTime h _mode utc tai sub s) := by
  unfold execTwmTime
  exact .effect (Within.refl.takeTwm (fun _ h1 => (.ite h1 (.ite (.ite h1 h1.setTime.submitRec) (.submitRec (.setTime
    (.ite h1 h1.setTime.submitRec)))))))

theorem execTwinTimeSend_leads (s : State) : Leads (Touch.issuing ++ parts [.twin]) s (execTwinTimeSend s) := by
  unfold execTwinTimeSend
  exact .effect (.ite Within.refl.sendTime Within.refl)

theorem execTwmEpochStale_leads (s : State) {h epoch leadPos} : Leads (Touch.resigning ++ Touch.twinTaking ++ parts
    [.adc, .bus, .waits] ++ regs [Reg.TWN_STATUS_RESYNC]) s (execTwmEpochStale h epoch leadPos s) := by
  unfold execTwmEpochStale
  exact .effect (Within.refl.takeTwm (fun _ h1 => (.renumber (.ite (.startResync (.ite (.ite h1.wr.part_twin.toRole
    h1.wr.part_twin) (.endTwin (.ite h1.wr.part_twin.toRole h1.wr.part_twin)))) (.ite (.ite h1.wr.part_twin.toRole
    h1.wr.part_twin) (.endTwin (.ite h1.wr.part_twin.toRole h1.wr.part_twin)))))))

theorem execTwinMessageRepeat_leads (s : State) {acked} : Leads (Touch.fenceLifted ++ Touch.appending ++
    Touch.resigning ++ Touch.loopBackStart ++ Touch.nandShown ++ Touch.railsFollow ++ Touch.entriesClosed ++ parts
    [.bat, .nand, .bist, .calCopies, .cfgCopies, .stopped] ++ regs [Reg.PH_STATUS_LATCHED,
    Reg.RAIL_STATUS_POL_LATCHED, Reg.ADC_STATUS_FGCAL, Reg.SB_STATUS_MULTI, Reg.JRN_COMMIT_JSN,
    Reg.JRN_SEALED_EPOCH, Reg.JRN_RELEASED_EPOCH, Reg.TWN_STATUS_RESYNC, Reg.TWN_EPOCH_EPOCH, Reg.TWN_STATUS_SEQ_ID,
    Reg.TWN_LAST_FRN, Reg.FI_CTL_ARM, Reg.RTC_SEC_TAI, Reg.RTC_SUB_SUB, Reg.RTC_UTC_OFFSET, Reg.RTC_STATUS_VALID,
    Reg.RTC_STATUS_SET_EVT, Reg.SVC_STATUS_FAILS, Reg.SVC_STATUS_KEY_ENROLLED, Reg.SVC_STATUS_REQ_SIGNED,
    Reg.MODE_STATUS_PWR_REQ] ++ [.fieldSide, .hostSide]) s (execTwinMessageRepeat acked s) := by
  unfold execTwinMessageRepeat
  exact .effect (.ite Within.refl Within.refl.endTwin.appendMany.serveResync)

theorem execTwinLinkCrc_leads (s : State) : Leads (parts [.twin] ++ regs [Reg.TWN_HB_CRC_ERRS]) s (execTwinLinkCrc
    s) := by
  unfold execTwinLinkCrc
  exact .effect Within.refl.bump.part_twin

theorem execTwinFenceRetrain_leads (s : State) {ok} : Leads (Touch.fenceLifted ++ parts [.recoveries] ++ regs
    [Reg.TWN_STATUS_LINK]) s (execTwinFenceRetrain ok s) := by
  unfold execTwinFenceRetrain
  exact .effect (by
    split
    · exact (.ite Within.refl.unfence.recover.wr Within.refl)
    · exact Within.refl)

theorem execFaultReaction_leads (s : State) : Leads (Touch.durable ++ Touch.settling ++ Touch.loopBackEnd ++
    Touch.typeCOnly ++ Touch.sessionEnd ++ Touch.slotSelect ++ parts [.slots, .partFaults, .recoveries] ++ regs
    [Reg.HUPD_SEL_PROB, Reg.UPD_SEL_PROB, Reg.UPD_PROB_FRAMES, Reg.UPD_EVENTS_ROLLBACKS, Reg.TWN_HB_LOST,
    Reg.FLT_STATUS_DOUBLE] ++ [.fieldSide, .hostSide]) s (execFaultReaction s) := by
  unfold execFaultReaction
  exact .effect (by
    split
    · exact Within.refl.react
    · exact Within.refl)

theorem execDegradeClose_leads (s : State) : Leads (Touch.entriesClosed ++ parts [.partFaults] ++ regs
    [Reg.FLT_STATUS_DOUBLE]) s (execDegradeClose s) := by
  unfold execDegradeClose
  exact .effect (.settleDouble (.foldl Within.refl.closeEntries fun _ _ h2 => h2.closePart))

theorem execDomainSwitchOff_leads (s : State) {d} : Leads (Touch.powering ++ Touch.phasesStop ++ Touch.busRun ++
    parts [.engines, .cable, .cfgCopies, .modes, .alertPad, .linkHost, .linkField, .mailbox, .snapshot, .drain,
    .work, .results, .stream7, .hostReady, .pinLow, .hostBusy, .eventLevel, .fieldAsleep, .latches, .chg,
    .faultInput, .waits, .orders, .adc, .sub, .rails, .journal, .rl] ++ regs [Reg.ALERT_SRC_SRC, Reg.CHG_STATUS_EN,
    Reg.CHG_STATUS_STATE, Reg.CHG_V_SET, Reg.FLT_STATUS_LOST, Reg.CHG_I_SET, Reg.CHG_STATUS_FAULT_LATCH,
    Reg.STAT_LATCH_EVENTS, Reg.STAT_LATCH_PADS, Reg.STAT_LATCH_FN, Reg.RL_STATUS_SESSION] ++ [.fieldSide,
    .hostSide]) s (execDomainSwitchOff d s) := by
  unfold execDomainSwitchOff
  exact .effect Within.refl.switchOff

theorem execDomainOffTicketTimeout_leads (s : State) {d} : Leads (Touch.powering ++ Touch.settling ++
    Touch.phasesStop ++ parts [.engines, .cable, .cfgCopies, .modes, .linkHost, .snapshot, .drain, .hostReady,
    .pinLow, .hostBusy, .eventLevel, .fieldAsleep, .latches, .rails, .journal, .rl] ++ regs [Reg.CHG_STATUS_EN,
    Reg.CHG_STATUS_STATE, Reg.CHG_V_SET, Reg.CHG_I_SET, Reg.CHG_STATUS_FAULT_LATCH, Reg.STAT_LATCH_EVENTS,
    Reg.STAT_LATCH_PADS, Reg.STAT_LATCH_FN, Reg.RL_STATUS_SESSION] ++ [.fieldSide, .hostSide]) s
    (execDomainOffTicketTimeout d s) := by
  unfold execDomainOffTicketTimeout
  exact .effect (by
    split
    · exact Within.refl
    · exact (.ite Within.refl (.openDomain (.foldl Within.refl fun _ _ h1 => (.ite h1.setTicket h1.failWork)))))

theorem execLatchWrite_leads (s : State) {writer l value writerInReset} : Leads (Touch.inputSwitch ++ Touch.latchSet
    ++ Touch.phasesStop ++ Touch.railsFollow ++ parts [.chg, .xfer, .intake] ++ regs [Reg.XFER_STATUS_DBS,
    Reg.RAIL_STATUS_HOLD_ACT, Reg.XFER_STATUS_DIR, Reg.XFER_STATS_DIR_CHANGES]) s (execLatchWrite writer l value
    writerInReset s) := by
  unfold execLatchWrite
  exact .effect (.ite Within.refl (.ite Within.refl.sideFault_any (.ite Within.refl (.ite (Within.refl.writeLatch (fun
    _ h1 => h1.storeLatch_any)) (.ite Within.refl (.ite (.instructDir (.ite Within.refl Within.refl.sideFault))
    (Within.refl.writeLatch (fun _ h1 => h1.ownLatch_any))))))))

theorem execFieldWReset_leads (s : State) {cause} : Leads (Touch.fieldReset ++ [.fieldSide]) s (execFieldWReset
    cause s) := by
  unfold execFieldWReset
  exact .effect (.ite Within.refl.fieldReset Within.refl)

theorem execFieldPinReset_leads (s : State) {low} : Leads (Touch.fieldReset ++ regs [Reg.BIST_STATUS_HALTED] ++
    [.fieldSide]) s (execFieldPinReset low s) := by
  unfold execFieldPinReset
  exact .effect Within.refl.fieldPin

theorem execTsbHalertStateLevel_leads (s : State) {high} : Leads (Touch.issuing ++ Touch.entriesClosed ++ parts
    [.sidebands, .latches, .sub] ++ regs [Reg.CHG_STATUS_EN, Reg.BATFET_STATUS_STATE, Reg.TKT_EPOCH_EPOCH]) s
    (execTsbHalertStateLevel high s) := by
  unfold execTsbHalertStateLevel
  exact .effect (.ite Within.refl (.ite Within.refl.arch_sb.clearChgEn.nextEpoch.closeResets.resetRecord
    Within.refl.arch_sb))

theorem execHostWReset_leads (s : State) {cause} : Leads (Touch.hostReset ++ [.hostSide]) s (execHostWReset cause s)
    := by
  unfold execHostWReset
  exact .effect (.ite Within.refl.hostReset Within.refl)

theorem execHostPinReset_leads (s : State) {low} : Leads (Touch.hostReset ++ parts [.pinLow] ++ [.hostSide]) s
    (execHostPinReset low s) := by
  unfold execHostPinReset
  exact .effect Within.refl.hostPin

theorem execTestPadHigh_leads (s : State) {pads} : Leads (Touch.fieldReset ++ Touch.hostReset ++ [.fieldSide,
    .hostSide]) s (execTestPadHigh pads s) := by
  unfold execTestPadHigh
  exact .effect (.ite (.disarm (.hostReset (.ite Within.refl.part_lb.holdField (.ite Within.refl.part_lb.disarm
    Within.refl.part_lb)))) (.ite (.disarm (.ite Within.refl.part_lb.holdField (.ite Within.refl.part_lb.disarm
    Within.refl.part_lb))) (.ite Within.refl.part_lb.holdField (.ite Within.refl.part_lb.disarm
    Within.refl.part_lb))))

theorem execEngineRestart_leads (s : State) {e} : Leads (Touch.charging ++ Touch.answering ++ Touch.sessionEnd ++
    Touch.slotSelect ++ Touch.delivering ++ parts [.slots, .linkHost, .engines, .wdg, .hwdg, .hostBusy, .rl] ++ regs
    [Reg.HUPD_SEL_PROB, Reg.UPD_SEL_PROB, Reg.UPD_PROB_FRAMES, Reg.UPD_EVENTS_ROLLBACKS, Reg.TKT_EPOCH_EPOCH,
    Reg.TKT_EVENTS_VOIDED, Reg.RL_STATUS_EVQ]) s (execEngineRestart e s) := by
  unfold execEngineRestart
  exact .effect (.ite Within.refl Within.refl.probEnds.restartEngine)

theorem execFifoParity_leads (s : State) {fifo_ tkt} : Leads (Touch.settling ++ Touch.sideFault ++ parts [.drain]) s
    (execFifoParity fifo_ tkt s) := by
  unfold execFifoParity
  exact .effect (by
    extract_lets
    split
    · exact Within.refl.dropEntry.sideFault_any.failWork
    · exact Within.refl.dropEntry.sideFault_any)

theorem execWdgServiceWrite_leads (s : State) {side key} : Leads (Touch.fieldReset ++ Touch.hostReset ++ parts
    [.freeCtr] ++ regs [Reg.WDG_EVENTS_BAD_KEY, Reg.HWDG_EVENTS_BAD_KEY, Reg.WDG_STATUS_EXPIRED_EVT,
    Reg.WDG_STATUS_LAST_CAUSE, Reg.HWDG_STATUS_EXPIRED_EVT, Reg.HWDG_STATUS_LAST_CAUSE, Reg.WDG_STATUS_LAST_SLOT] ++
    [.fieldSide, .hostSide]) s (execWdgServiceWrite side key s) := by
  unfold execWdgServiceWrite
  exact .effect Within.refl.serviceWrite

theorem execWdgForeignWrite_leads (s : State) {writer} : Leads (Touch.sideFault ++ parts [.freeCtr] ++ regs
    [Reg.WDG_EVENTS_FOREIGN, Reg.HWDG_EVENTS_FOREIGN]) s (execWdgForeignWrite writer s) := by
  unfold execWdgForeignWrite
  exact .effect (.ite Within.refl (by
    extract_lets
    split
    · exact Within.refl.drew.sideFault_any.bump
    · exact Within.refl.drew.sideFault_any.bump))

theorem execWdgWindowOpen_leads (s : State) {side} : Leads (Touch.sideFault ++ Touch.time ++ parts [.wdg, .hwdg] ++
    regs [Reg.WDG_CHECKIN_SEEN, Reg.WDG_CHECKIN_EXCUSED, Reg.HWDG_STATUS_SEEN, Reg.WDG_EVENTS_MISSING,
    Reg.HWDG_EVENTS_MISSING, Reg.WDG_STATUS_WINDOW, Reg.WDG_STATUS_SERVED, Reg.WDG_STATUS_FRAME]) s
    (execWdgWindowOpen side s) := by
  unfold execWdgWindowOpen
  exact .effect Within.refl.openWindow

theorem execWdgWindowClose_leads (s : State) {side} : Leads (Touch.fieldReset ++ Touch.hostReset ++ parts [.freeCtr]
    ++ regs [Reg.WDG_STATUS_EXPIRED_EVT, Reg.WDG_STATUS_LAST_CAUSE, Reg.HWDG_STATUS_EXPIRED_EVT,
    Reg.HWDG_STATUS_LAST_CAUSE] ++ [.fieldSide, .hostSide]) s (execWdgWindowClose side s) := by
  unfold execWdgWindowClose
  exact .effect Within.refl.closeWindow

theorem execWdgStartTimeout_leads (s : State) {side} : Leads (Touch.fieldReset ++ Touch.hostReset ++ [.fieldSide,
    .hostSide]) s (execWdgStartTimeout side s) := by
  unfold execWdgStartTimeout
  exact .effect (.ite Within.refl (by
    split
    · exact (.ite Within.refl Within.refl.faultAt.fieldReset)
    · exact (.ite Within.refl Within.refl.hfaultAt.hostReset)))

theorem execCheckinWrite_leads (s : State) {e} : Leads (Touch.durable ++ Touch.railCommand ++ Touch.appending ++
    parts [.partFaults, .seq, .freeCtr, .intake, .hostReady] ++ regs [Reg.CBL_EVENTS_SOFT_RESETS,
    Reg.INTAKE_LIM_EFF_LIM, Reg.INTAKE_LIM_EFF_CAUSE, Reg.MODE_STATUS_MODE, Reg.MODE_STATUS_MODE_CHG,
    Reg.REV_SET_SET, Reg.FLT_STATUS_DOUBLE, Reg.WDG_EVENTS_DOUBLES, Reg.HWDG_EVENTS_DOUBLES,
    Reg.HUPD_STATUS_PERMAFROST, Reg.ID_STATUS_HOST_READY, Reg.HWDG_STATUS_ARMED, Reg.TL_H_STATUS_STATE] ++
    [.fieldSide, .hostSide]) s (execCheckinWrite e s) := by
  unfold execCheckinWrite
  exact .effect (.ite Within.refl (.ite (.ite Within.refl (.ite Within.refl.restartDone.checkin Within.refl.checkin))
    (.ite Within.refl.hostFirst.checkin Within.refl)))

theorem execMemorySelftestMacro_leads (s : State) {side id defects spareBad} : Leads (Touch.durable ++
    Touch.settling ++ Touch.typeCOnly ++ Touch.disarming ++ Touch.sessionEnd ++ Touch.slotSelect ++ parts [.slots,
    .hostReady] ++ regs [Reg.BIST_STATUS_GROUPS, Reg.BIST_REPMAP_MAP, Reg.BIST_FAILMAP_MAP,
    Reg.BIST_STATUS_REPAIRED, Reg.BIST_STATUS_FAILED, Reg.HBIST_STATUS_REPMAP, Reg.HBIST_STATUS_FAILMAP,
    Reg.BIST_STATUS_HALTED, Reg.HUPD_SEL_PROB, Reg.UPD_SEL_PROB, Reg.UPD_PROB_FRAMES, Reg.UPD_EVENTS_ROLLBACKS,
    Reg.TL_H_STATUS_STATE, Reg.TL_F_STATUS_STATE, Reg.ID_STATUS_LINK, Reg.ID_STATUS_FIELD_READY, Reg.TWN_HB_LOST,
    Reg.TWN_STATUS_LINK, Reg.RL_STATUS_SESSION, Reg.RL_STATUS_SPEED, Reg.RTC_STATUS_OSC_FAIL,
    Reg.RTC_STATUS_DISCIPLINED, Reg.ID_STATUS_HOST_READY] ++ [.fieldSide, .hostSide]) s (execMemorySelftestMacro
    side id defects spareBad s) := by
  unfold execMemorySelftestMacro
  exact .effect (.ite Within.refl.selftest Within.refl)

theorem execBistBurn_leads (s : State) {side bad} : Leads (Touch.sideFault ++ parts [.bist] ++ regs
    [Reg.BIST_STATUS_FUSES_USED, Reg.HBIST_STATUS_FUSES_USED]) s (execBistBurn side bad s) := by
  unfold execBistBurn
  exact .effect (.ite Within.refl.askBurn (by
    extract_lets
    split
    · exact Within.refl.askBurn.burn.part_bist
    · exact Within.refl.askBurn.burn.part_bist))

theorem execBistEngTest_leads (s : State) : Leads (parts [.modes]) s (execBistEngTest s) := by
  unfold execBistEngTest
  exact .effect Within.refl.askEngTest

theorem execPwrReqChange_leads (s : State) {high} : Leads (parts [.modes, .stopped] ++ regs
    [Reg.MODE_STATUS_PWR_REQ]) s (execPwrReqChange high s) := by
  unfold execPwrReqChange
  exact .effect Within.refl.part_modes.showReq

theorem execFvioLow_leads (s : State) : Leads (Touch.settling ++ Touch.freezeEnd ++ parts [.modes, .stopped] ++ regs
    [Reg.MODE_STATUS_PWR_REQ, Reg.SB_EVENTS_STRETCH_TMO, Reg.SB_STATUS_WAIT_THAW, Reg.SB_STATUS_BUSY]) s
    (execFvioLow s) := by
  unfold execFvioLow
  exact .effect (.busLost (.releaseApts (.part_seq (.showReq (.edits Within.refl [.modes, .bus])))))

theorem execFVioReturn_leads (s : State) : Leads (parts [.bus]) s (execFVioReturn s) := by
  unfold execFVioReturn
  exact .effect (.ite Within.refl.part_bus Within.refl)

theorem execHvioLow_leads (s : State) : Leads (parts [.bus, .drain] ++ regs [Reg.DRN_STATUS_AVAIL,
    Reg.DRN_STATUS_END]) s (execHvioLow s) := by
  unfold execHvioLow
  exact .effect Within.refl.part_bus.drainLost

theorem execHVioReturn_leads (s : State) : Leads (parts [.bus]) s (execHVioReturn s) := by
  unfold execHVioReturn
  exact .effect Within.refl.part_bus

theorem execHcoreDoze_leads (s : State) : Leads (parts [.hwdg] ++ regs [Reg.HP_STATUS_DOZE]) s (execHcoreDoze s) :=
    by
  unfold execHcoreDoze
  exact .effect (.ite Within.refl.wr.part_hwdg Within.refl)

theorem execHcoreWake_leads (s : State) {repairParity} : Leads (Touch.sideFault ++ parts [.bist, .hwdg, .hp] ++ regs
    [Reg.HP_STATUS_DOZE]) s (execHcoreWake repairParity s) := by
  unfold execHcoreWake
  exact .effect (.part_hp (.hcoreWake (.ite Within.refl.reapply Within.refl)))

theorem execHoldupEvent_leads (s : State) {t} : Leads (Touch.powering ++ Touch.committing ++ Touch.refusing ++
    Touch.resigning ++ Touch.freezeEnd ++ parts [.history, .engines] ++ regs [Reg.JRN_STATUS_HOLDUP,
    Reg.JRN_NEXT_JSN, Reg.TWN_PEND_BYTES, Reg.TWN_PEND_LOST]) s (execHoldupEvent t s) := by
  unfold execHoldupEvent
  exact .effect (.ite Within.refl
    Within.refl.atT.cutFreeze.wr.buildSeal.resignFor.commitNow.writePowerDown.stopEngines.powerDomains)

theorem execKeepaliveEntry_leads (s : State) : Leads (Touch.fenceLifted ++ Touch.appending ++ Touch.committing ++
    Touch.resigning ++ Touch.freezeEnd ++ Touch.loopBackStart ++ Touch.railsFollow ++ Touch.entriesClosed ++ parts
    [.stopped, .bist, .calCopies, .cfgCopies] ++ regs [Reg.RL_STATUS_SESSION, Reg.RL_STATUS_SPEED,
    Reg.PH_STATUS_LATCHED, Reg.RAIL_STATUS_POL_LATCHED, Reg.ADC_STATUS_FGCAL, Reg.SB_STATUS_MULTI,
    Reg.JRN_RELEASED_EPOCH, Reg.TWN_STATUS_RESYNC, Reg.TWN_EPOCH_EPOCH, Reg.TWN_STATUS_SEQ_ID, Reg.TWN_LAST_FRN,
    Reg.FI_CTL_ARM, Reg.RTC_SEC_TAI, Reg.RTC_SUB_SUB, Reg.RTC_UTC_OFFSET, Reg.RTC_STATUS_VALID,
    Reg.RTC_STATUS_SET_EVT, Reg.SVC_STATUS_FAILS, Reg.SVC_STATUS_KEY_ENROLLED, Reg.SVC_STATUS_REQ_SIGNED,
    Reg.MODE_STATUS_PWR_REQ] ++ [.fieldSide, .hostSide]) s (execKeepaliveEntry s) := by
  unfold execKeepaliveEntry
  exact .effect (.ite Within.refl (.ite (.ite Within.refl.tkt_stopped Within.refl.tkt_stopped.part_modes)
    Within.refl.tkt_stopped.stageKeepalive))

theorem execKeepaliveTicketTimeout_leads (s : State) : Leads (Touch.issuing ++ parts [.modes, .stopped, .faultInput,
    .cfgCopies, .adc, .bus, .waits] ++ regs [Reg.FLT_STATUS_LOST, Reg.MODE_EVENTS_SHIP_REFUSED,
    Reg.MODE_EVENTS_K_REFUSED]) s (execKeepaliveTicketTimeout s) := by
  unfold execKeepaliveTicketTimeout
  exact .effect (.ite Within.refl (.ite (.serveWaits (.edits (.bump (.modeRefused (.edits Within.refl [.modes,
    .stopped]))) [.cfgCopies, .modes])) (.ite (.serveWaits (.modeRefused (.bump (.edits Within.refl [.modes,
    .stopped])))) Within.refl)))

theorem execKeepaliveDomainSwitch_leads (s : State) : Leads (Touch.fenceLifted ++ Touch.powering ++ Touch.resigning
    ++ Touch.freezeEnd ++ Touch.disarming ++ Touch.loopBackStart ++ Touch.nandShown ++ Touch.entriesClosed ++ parts
    [.nand, .bist, .calCopies, .cfgCopies, .stopped] ++ regs [Reg.RAIL_STATUS_POL_OVR, Reg.RAIL_STATUS_QR_OVR,
    Reg.TWN_STATUS_RESYNC, Reg.JRN_STAGE_STAGED, Reg.PH_STATUS_LATCHED, Reg.RAIL_STATUS_POL_LATCHED,
    Reg.JRN_NEXT_JSN, Reg.JRN_COMMIT_JSN, Reg.JRN_SEALED_EPOCH, Reg.JRN_RELEASED_EPOCH, Reg.TWN_EPOCH_EPOCH,
    Reg.TWN_STATUS_SEQ_ID, Reg.TWN_LAST_FRN, Reg.TWN_PEND_BYTES, Reg.FI_CTL_ARM, Reg.RTC_SEC_TAI, Reg.RTC_SUB_SUB,
    Reg.RTC_UTC_OFFSET, Reg.RTC_STATUS_VALID, Reg.RTC_STATUS_SET_EVT, Reg.SVC_STATUS_FAILS,
    Reg.SVC_STATUS_KEY_ENROLLED, Reg.SVC_STATUS_REQ_SIGNED, Reg.MODE_STATUS_PWR_REQ, Reg.ADC_EVENTS_DISCARDED,
    Reg.DRN_NEXT_JSN, Reg.MODE_STATUS_MODE, Reg.MODE_STATUS_MODE_CHG, Reg.FRM_STATUS_SRC, Reg.FRM_STATUS_STATE] ++
    arrays [Reg.POL_SET_SET, Reg.QR_SET_SET] ++ [.fieldSide, .hostSide]) s (execKeepaliveDomainSwitch s) := by
  unfold execKeepaliveDomainSwitch
  exact .effect (.ite Within.refl Within.refl.enterKeepalive)

theorem execKeepaliveWake_leads (s : State) {ms repairParity} : Leads (Touch.powering ++ Touch.railCommand ++ parts
    [.bist, .engines, .ph, .modes, .journal] ++ regs [Reg.TKT_EPOCH_EPOCH, Reg.MODE_STATUS_MODE,
    Reg.MODE_STATUS_MODE_CHG, Reg.BATFET_STATUS_STATE, Reg.MODE_EVENTS_STARTS, Reg.START_INFO_KIND,
    Reg.START_INFO_LAST_MS, Reg.ADC_STATUS_ROT_STOP, Reg.STAT_LATCH_PADS]) s (execKeepaliveWake ms repairParity s)
    := by
  unfold execKeepaliveWake
  exact .effect (.ite Within.refl.wake Within.refl)

theorem execKeepaliveSecondWake_leads (s : State) {vbat ibat vka ika vqr1 vqr2 tctl tpack vchold} : Leads
    (Touch.fenceLifted ++ Touch.appending ++ Touch.resigning ++ Touch.loopBackStart ++ Touch.nandShown ++
    Touch.railsFollow ++ Touch.entriesClosed ++ parts [.freeCtr, .nand, .bat, .bist, .calCopies, .cfgCopies,
    .stopped] ++ regs [Reg.CHG_MON_VBAT, Reg.PH_STATUS_LATCHED, Reg.RAIL_STATUS_POL_LATCHED, Reg.ADC_STATUS_FGCAL,
    Reg.SB_STATUS_MULTI, Reg.JRN_COMMIT_JSN, Reg.JRN_SEALED_EPOCH, Reg.JRN_RELEASED_EPOCH, Reg.TWN_STATUS_RESYNC,
    Reg.TWN_EPOCH_EPOCH, Reg.TWN_STATUS_SEQ_ID, Reg.TWN_LAST_FRN, Reg.FI_CTL_ARM, Reg.RTC_SEC_TAI, Reg.RTC_SUB_SUB,
    Reg.RTC_UTC_OFFSET, Reg.RTC_STATUS_VALID, Reg.RTC_STATUS_SET_EVT, Reg.SVC_STATUS_FAILS,
    Reg.SVC_STATUS_KEY_ENROLLED, Reg.SVC_STATUS_REQ_SIGNED, Reg.MODE_STATUS_PWR_REQ] ++ [.fieldSide, .hostSide]) s
    (execKeepaliveSecondWake vbat ibat vka ika vqr1 vqr2 tctl tpack vchold s) := by
  unfold execKeepaliveSecondWake
  exact .effect (.ite Within.refl (.stopEngines (.appendMany (.part_jrn (.resubmitFaults (.submitGaps (.submitSeconds
    (.putSummary (.runEngine (.runEngine (.runEngine (.edits Within.refl.drew.wrSat [.nand, .journal]))))))))))))

theorem execShipNHold_leads (s : State) : Leads (parts [.modes, .faultInput] ++ regs [Reg.MODE_STATUS_SHIP_N,
    Reg.MODE_EVENTS_SHIP_REFUSED, Reg.FLT_STATUS_LOST]) s (execShipNHold s) := by
  unfold execShipNHold
  exact .effect (.ite Within.refl.wr (.ite Within.refl.wr.part_modes Within.refl.wr.bump.modeRefused))

theorem execShipEntry_leads (s : State) {qualifiedBefore} : Leads (Touch.fenceLifted ++ Touch.powering ++
    Touch.loopBackEnd ++ Touch.appending ++ Touch.committing ++ Touch.resigning ++ Touch.freezeEnd ++
    Touch.disarming ++ Touch.loopBackStart ++ Touch.entriesClosed ++ parts [.stopped, .bist, .calCopies, .cfgCopies]
    ++ regs [Reg.MODE_EVENTS_SHIP_REFUSED, Reg.FI_CTL_ARM, Reg.PH_STATUS_LATCHED, Reg.RAIL_STATUS_POL_LATCHED,
    Reg.JRN_RELEASED_EPOCH, Reg.TWN_STATUS_RESYNC, Reg.TWN_EPOCH_EPOCH, Reg.TWN_STATUS_SEQ_ID, Reg.TWN_LAST_FRN,
    Reg.RTC_SEC_TAI, Reg.RTC_SUB_SUB, Reg.RTC_UTC_OFFSET, Reg.RTC_STATUS_VALID, Reg.RTC_STATUS_SET_EVT,
    Reg.SVC_STATUS_FAILS, Reg.SVC_STATUS_KEY_ENROLLED, Reg.SVC_STATUS_REQ_SIGNED, Reg.MODE_STATUS_PWR_REQ,
    Reg.RAIL_STATUS_KA_ON, Reg.MODE_STATUS_MODE, Reg.MODE_STATUS_SVC_LEVEL] ++ [.fieldSide, .hostSide]) s
    (execShipEntry qualifiedBefore s) := by
  unfold execShipEntry
  exact .effect (.ite Within.refl (.ite Within.refl.shipStopped (.ite (.ite Within.refl (.edits Within.refl [.modes,
    .stopped])) Within.refl.tkt_stopped.enterShip)))

theorem execServiceTimeout_leads (s : State) : Leads (parts [.modes]) s (execServiceTimeout s) := by
  unfold execServiceTimeout
  exact .effect (.ite Within.refl.part_modes Within.refl)

theorem execServiceLockoutEnd_leads (s : State) : Leads (parts [.modes] ++ regs [Reg.SVC_STATUS_LOCKED_OUT,
    Reg.SVC_STATUS_FAILS]) s (execServiceLockoutEnd s) := by
  unfold execServiceLockoutEnd
  exact .effect (.ite Within.refl.wr.wr.part_modes Within.refl)

theorem execFaonPowerLoss_leads (s : State) {letter} : Leads (Touch.fieldLost ++ parts [.linkHost, .mailbox,
    .snapshot, .stream7, .hostReady, .pinLow, .hostBusy, .eventLevel, .fieldAsleep, .cfgCopies, .calCopies, .nand,
    .slots, .resetNote] ++ [.fieldSide]) s (execFaonPowerLoss letter s) := by
  unfold execFaonPowerLoss
  exact .effect (.ite Within.refl Within.refl.fieldLost)

theorem execShipWake_leads (s : State) {bySource vbkpHeld} : Leads (Touch.fieldLost ++ Touch.phasesStop ++
    Touch.railsFollow ++ parts [.linkHost, .mailbox, .snapshot, .stream7, .hostReady, .pinLow, .hostBusy,
    .eventLevel, .fieldAsleep, .cfgCopies, .calCopies, .nand, .slots, .resetNote, .hostFaults, .intake] ++ regs
    [Reg.INTAKE_STATUS_VBUS_QUAL, Reg.INTAKE_STATUS_DCIN_QUAL, Reg.INTAKE_STATUS_ACTIVE,
    Reg.INTAKE_STATUS_SRC_CHANGE, Reg.INTAKE_EVENTS_SWITCHOVERS, Reg.INTAKE_LIM_EFF_LIM, Reg.INTAKE_LIM_EFF_CAUSE,
    Reg.INTAKE_STATUS_RAMP, Reg.XFER_STATUS_DIR, Reg.XFER_STATUS_FLOOR, Reg.XFER_STATUS_PLIM, Reg.XFER_STATUS_DBS,
    Reg.XFER_STATUS_TEMP, Reg.XFER_POWER_P, Reg.PH_VOLT_VTB, Reg.PH_VOLT_VSYS, Reg.BATFET_STATUS_IBAT,
    Reg.BATFET_STATUS_TEMP, Reg.RAIL_STATUS_HOLD_ACT, Reg.PH_CURR_I, Reg.RTC_STATUS_DISCIPLINED,
    Reg.RTC_STATUS_BKP_LOW] ++ [.fieldSide]) s (execShipWake bySource vbkpHeld s) := by
  unfold execShipWake
  exact .effect (.ite Within.refl (.ite (.ite (.ite (.ite Within.refl.fieldLost Within.refl) (.loseBackup (.ite
    Within.refl.fieldLost Within.refl))) (.powerDomain (.hardStart (.ite (.ite Within.refl.fieldLost Within.refl)
    (.loseBackup (.ite Within.refl.fieldLost Within.refl)))))) (.faonUp (.ite (.ite Within.refl.fieldLost Within.refl)
    (.loseBackup (.ite Within.refl.fieldLost Within.refl))))))

theorem execColdStart_leads (s : State) {x} : Leads (Touch.durable ++ Touch.powering ++ Touch.settling ++
    Touch.railCommand ++ Touch.appending ++ Touch.typeCOnly ++ Touch.freezeEnd ++ Touch.updateState ++
    Touch.slotSelect ++ parts [.slots, .overrides] ++ regs [Reg.CHG_STATUS_PRESENT, Reg.KA_SET_CODE, Reg.KA_SET_EN,
    Reg.KA_SET_TWIN, Reg.RAIL_STATUS_KA_ON, Reg.BIST_STATUS_GROUPS, Reg.BIST_REPMAP_MAP, Reg.BIST_FAILMAP_MAP,
    Reg.BIST_STATUS_REPAIRED, Reg.BIST_STATUS_FAILED, Reg.HBIST_STATUS_REPMAP, Reg.HBIST_STATUS_FAILMAP,
    Reg.CFG_STATUS_A_OK, Reg.CFG_STATUS_B_OK, Reg.CFG_STATUS_COPY, Reg.CFG_STATUS_SIGNED, Reg.CFG_STATUS_SEQ,
    Reg.CFG_STATUS_DEFAULT, Reg.HUPD_SEL_PROB, Reg.UPD_SEL_PROB, Reg.UPD_EVENTS_ROLLBACKS, Reg.HUPD_STATUS_STATE,
    Reg.MODE_STATUS_MODE, Reg.HUPD_STATUS_PERMAFROST, Reg.TWN_HB_LOST, Reg.RL_STATUS_SESSION, Reg.FRM_STATUS_SRC,
    Reg.FRM_STATUS_STATE, Reg.VSYS_SET_SET, Reg.VSYS_MIN_MIN, Reg.CAL_DATE_DATE, Reg.CAL_DUE_DUE,
    Reg.CAL_REF_REF_TRUE, Reg.CAL_SEQ_SEQ, Reg.CAL_SEQ_SIGNED, Reg.CAL_SEQ_COPY, Reg.CAL_SEQ_NOMINAL,
    Reg.ADC_STATUS_DUE_PASSED, Reg.START_INFO_KIND, Reg.START_INFO_LAST_MS] ++ arrays [Reg.CFG_DIGEST_DIGEST,
    Reg.CAL_CERT_ID_ID] ++ [.fieldSide, .hostSide]) s (execColdStart x s) := by
  unfold execColdStart
  exact .effect (.ite Within.refl.coldStart Within.refl)

theorem execWarmStart_leads (s : State) {x} : Leads (Touch.durable ++ Touch.powering ++ Touch.settling ++
    Touch.railCommand ++ Touch.appending ++ Touch.typeCOnly ++ Touch.freezeEnd ++ Touch.updateState ++
    Touch.slotSelect ++ parts [.slots, .hp, .overrides] ++ regs [Reg.CFG_STATUS_COPY, Reg.CFG_STATUS_SEQ,
    Reg.CFG_STATUS_SIGNED, Reg.CFG_STATUS_REREAD_FAIL, Reg.HUPD_SEL_PROB, Reg.UPD_SEL_PROB,
    Reg.UPD_EVENTS_ROLLBACKS, Reg.HUPD_STATUS_STATE, Reg.TWN_HB_LOST, Reg.RL_STATUS_SESSION, Reg.BIST_STATUS_HALTED,
    Reg.MODE_STATUS_MODE, Reg.HUPD_STATUS_PERMAFROST, Reg.FRM_STATUS_SRC, Reg.FRM_STATUS_STATE, Reg.VSYS_SET_SET,
    Reg.VSYS_MIN_MIN, Reg.MODE_EVENTS_STARTS, Reg.MODE_STATUS_MODE_CHG, Reg.START_INFO_KIND, Reg.START_INFO_LAST_MS]
    ++ arrays [Reg.CFG_DIGEST_DIGEST] ++ [.fieldSide, .hostSide]) s (execWarmStart x s) := by
  unfold execWarmStart
  exact .effect (.ite Within.refl.warmStart Within.refl)

theorem execResumeStart_leads (s : State) {x} : Leads (Touch.durable ++ Touch.fieldReset ++ Touch.powering ++
    Touch.settling ++ Touch.railCommand ++ Touch.appending ++ Touch.typeCOnly ++ Touch.updateState ++ parts
    [.overrides] ++ regs [Reg.JRN_STATUS_HOLDUP, Reg.CFG_STATUS_COPY, Reg.CFG_STATUS_SEQ, Reg.CFG_STATUS_SIGNED,
    Reg.CFG_STATUS_REREAD_FAIL, Reg.TWN_HB_LOST, Reg.BIST_STATUS_HALTED, Reg.MODE_STATUS_MODE,
    Reg.HUPD_STATUS_PERMAFROST, Reg.FRM_STATUS_SRC, Reg.FRM_STATUS_STATE, Reg.VSYS_SET_SET, Reg.VSYS_MIN_MIN,
    Reg.MODE_EVENTS_STARTS, Reg.MODE_STATUS_MODE_CHG] ++ arrays [Reg.CFG_DIGEST_DIGEST] ++ [.fieldSide, .hostSide])
    s (execResumeStart x s) := by
  unfold execResumeStart
  exact .effect (.ite (.ite Within.refl.wr.powerDomains.fieldReset.refOn.arrange.warmStart
    Within.refl.wr.powerDomains.fieldReset.refOn.arrange) Within.refl)

theorem execDomainPgFall_leads (s : State) {d} : Leads (Touch.powering ++ Touch.fieldLost ++ Touch.charging ++ parts
    [.linkHost, .mailbox, .snapshot, .stream7, .hostReady, .pinLow, .hostBusy, .eventLevel, .fieldAsleep,
    .cfgCopies, .calCopies, .nand, .slots, .resetNote] ++ regs [Reg.RL_STATUS_SESSION] ++ [.fieldSide, .hostSide]) s
    (execDomainPgFall d s) := by
  unfold execDomainPgFall
  exact .effect Within.refl.pgFall

theorem execDomainPgReturn_leads (s : State) {d} : Leads (Touch.fieldReset ++ Touch.hostReset ++ Touch.phasesStop ++
    Touch.railsFollow ++ parts [.domains, .intake, .xfer, .cfgCopies] ++ regs [Reg.INTAKE_LIM_EFF_LIM,
    Reg.INTAKE_LIM_EFF_CAUSE, Reg.RTC_STATUS_DISCIPLINED, Reg.RTC_STATUS_BKP_LOW, Reg.PH_VOLT_VTB, Reg.PH_VOLT_VSYS,
    Reg.BATFET_STATUS_IBAT, Reg.BATFET_STATUS_TEMP, Reg.PH_CURR_I, Reg.ADC_STATUS_REF_ON,
    Reg.ADC_STATUS_REF_SETTLED, Reg.ADC_STATUS_ACTIVE, Reg.ADC_STATUS_SPARE, Reg.ADC_STATUS_ROT_STOP,
    Reg.JRN_STAGE_STAGED] ++ [.hostSide, .fieldSide]) s (execDomainPgReturn d s) := by
  unfold execDomainPgReturn
  exact .effect (.ite Within.refl.domainBack Within.refl)

theorem execGuardPrivilegedWrite_leads (s : State) {writer addr a} : Leads (Touch.durable ++ Touch.fieldReset ++
    Touch.hostReset ++ Touch.powering ++ Touch.settling ++ Touch.typeCOnly ++ parts [.pinLow, .eventLevel] ++ regs
    [Reg.TWN_HB_LOST] ++ [.hostSide, .fieldSide]) s (execGuardPrivilegedWrite writer addr a s) := by
  unfold execGuardPrivilegedWrite
  exact .effect (.ite (by
    split
    · exact Within.refl
    · exact (.ite Within.refl (.ite Within.refl.switchOn Within.refl.switchOff))
    · exact (.ite Within.refl.arch_subs.railsFollow Within.refl)
    · exact (.ite Within.refl.applyFence Within.refl)) Within.refl.sideFault_any)

theorem execFrameTick_leads (s : State) {f} : Leads (Touch.powering ++ Touch.charging ++ Touch.loopBackEnd ++
    Touch.typeCOnly ++ Touch.inputSwitch ++ Touch.refusing ++ Touch.latchSet ++ Touch.freezeEnd ++
    Touch.contractGone ++ Touch.nandShown ++ Touch.unmarked ++ parts [.modes, .snapshot, .xfer, .twin, .engines,
    .cfgCopies, .work, .results, .stream7, .hostReady, .pinLow, .hostBusy, .eventLevel, .fieldAsleep, .history,
    .fences, .fullRun, .nand, .slots, .wdg, .hwdg] ++ regs [Reg.RTC_SEC_TAI, Reg.RTC_SUB_SUB, Reg.FRM_LEN_LAST,
    Reg.FRM_FRN_FRN, Reg.FRM_WRAP_WRAP, Reg.FRM_STATUS_SRC, Reg.FRM_STATUS_STATE, Reg.MODE_STATUS_SHIP_N,
    Reg.KA_MIN_MIN, Reg.ID_SNAP_AGE_AGE, Reg.RAIL_STATUS_KA_ON, Reg.CHG_STATUS_PRESENT, Reg.CHG_STATUS_REMOVAL,
    Reg.FRM_STATUS_PLAN, Reg.FRM_APT_EFF_EFF, Reg.ADC_CAL_AGE_AGE, Reg.CAL_DATE_DATE, Reg.CAL_DUE_DUE,
    Reg.CAL_REF_REF_TRUE, Reg.CAL_SEQ_SEQ, Reg.CAL_SEQ_SIGNED, Reg.CAL_SEQ_COPY, Reg.CAL_SEQ_NOMINAL,
    Reg.ADC_STATUS_DUE_PASSED, Reg.RAIL_STATUS_KA_LOW, Reg.CHG_TIMER_PRE, Reg.CHG_TIMER_FAST,
    Reg.PH_EVENTS_FOLDBACK, Reg.MODE_STATUS_MODE, Reg.MODE_STATUS_MODE_CHG, Reg.MODE_STATUS_SVC_LEVEL,
    Reg.MODE_STATUS_BASE, Reg.FI_CTL_ARM, Reg.MODE_STATUS_RAILS_HELD, Reg.CBL_OFFER_C_AGE, Reg.CBL_STATUS_FS_MODE,
    Reg.CBL_STATUS_VCONN, Reg.CBL_STATUS_DFP, Reg.CBL_STATUS_RP, Reg.CBL_PARTNER_REV, Reg.CBL_PARTNER_DRP,
    Reg.CBL_PARTNER_EPR_CAP, Reg.CBL_PARTNER_FRS_REQ, Reg.CBL_STATUS_STATE, Reg.CBL_STATUS_ATTACH_CHG,
    Reg.CBL_STATUS_SRC_PERMIT, Reg.CBL_STATUS_DEBUG_DENIED, Reg.FLT_STATUS_DOUBLE, Reg.WDG_STATUS_ARMED,
    Reg.WDG_STATUS_WINDOW, Reg.WDG_STATUS_SERVED, Reg.WDG_STATUS_FRAME] ++ arrays [Reg.FRM_BUD_USED_LAST,
    Reg.FRM_BUD_OVERRUNS, Reg.CAL_CERT_ID_ID] ++ [.fieldSide, .hostSide]) s (execFrameTick f s) := by
  unfold execFrameTick
  exact .effect (.ite Within.refl (.ite Within.refl.closeFrame.syncTick.asleepTick
    Within.refl.closeFrame.syncTick.hardTick.workTick))


end Sys2Proof.Machine
end

