-- ==== Sys2Proof/Proofs/Stores.lean ====
section
/-! PROOFS. The bounded stores and the register store over every command, and the frames of the phases, charging and the
rails. -/

set_option Elab.async false


namespace Sys2Proof.Machine

/-! ### Every command stays within a scope -/

/-- Every command leads to a next state, within the scope of its own lemma. -/
theorem exec_leads (c : Instr) (s : State) : ∃ sc, Leads sc s (exec c s) := by
  cases c with
  | frameTick _ => exact ⟨_, execFrameTick_leads s⟩
  | tsbHalertStateLevel _ => exact ⟨_, execTsbHalertStateLevel_leads s⟩
  | tsbFalertStateLevel _ => exact ⟨_, execTsbFalertStateLevel_leads s⟩
  | qreqRequest _ _ => exact ⟨_, execQreqRequest_leads s⟩
  | qreqRelease _ => exact ⟨_, execQreqRelease_leads s⟩
  | fastRoleSwapCode _ _ => exact ⟨_, execFastRoleSwapCode_leads s⟩
  | sourceLossCode => exact ⟨_, execSourceLossCode_leads s⟩
  | sourceAttachWakeCode => exact ⟨_, execSourceAttachWakeCode_leads s⟩
  | cableDetachCode => exact ⟨_, execCableDetachCode_leads s⟩
  | mailboxWakeCode => exact ⟨_, execMailboxWakeCode_leads s⟩
  | hostAlertCode => exact ⟨_, execHostAlertCode_leads s⟩
  | fieldAlertCode => exact ⟨_, execFieldAlertCode_leads s⟩
  | fieldSleepCode => exact ⟨_, execFieldSleepCode_leads s⟩
  | sidebandFault _ => exact ⟨_, execSidebandFault_leads s⟩
  | tsbQuietChange _ => exact ⟨_, execTsbQuietChange_leads s⟩
  | tsbQuietChannelFault => exact ⟨_, execTsbQuietChannelFault_leads s⟩
  | guardPrivilegedWrite _ _ _ => exact ⟨_, execGuardPrivilegedWrite_leads s⟩
  | engineRestart _ => exact ⟨_, execEngineRestart_leads s⟩
  | domainPgFall _ => exact ⟨_, execDomainPgFall_leads s⟩
  | domainPgReturn _ => exact ⟨_, execDomainPgReturn_leads s⟩
  | domainSwitchOff _ => exact ⟨_, execDomainSwitchOff_leads s⟩
  | domainOffTicketTimeout _ => exact ⟨_, execDomainOffTicketTimeout_leads s⟩
  | fifoParity _ _ => exact ⟨_, execFifoParity_leads s⟩
  | latchWrite _ _ _ _ => exact ⟨_, execLatchWrite_leads s⟩
  | latchParity _ _ => exact ⟨_, execLatchParity_leads s⟩
  | sourceEvent _ _ => exact ⟨_, execSourceEvent_leads s⟩
  | syncSourceLost => exact ⟨_, execSyncSourceLost_leads s⟩
  | holdoverExpiry => exact ⟨_, execHoldoverExpiry_leads s⟩
  | sourcePriorityChange => exact ⟨_, execSourcePriorityChange_leads s⟩
  | planPadChange _ => exact ⟨_, execPlanPadChange_leads s⟩
  | preFreeze _ _ => exact ⟨_, execPreFreeze_leads s⟩
  | preFreezeSlot0Decision _ => exact ⟨_, execPreFreezeSlot0Decision_leads s⟩
  | freezeSlotBoundary _ _ _ _ => exact ⟨_, execFreezeSlotBoundary_leads s⟩
  | freezeRunEnd _ => exact ⟨_, execFreezeRunEnd_leads s⟩
  | apertureRise _ _ => exact ⟨_, execApertureRise_leads s⟩
  | apertureFall _ => exact ⟨_, execApertureFall_leads s⟩
  | apertureLimitExpiry _ => exact ⟨_, execApertureLimitExpiry_leads s⟩
  | apertureRearm => exact ⟨_, execApertureRearm_leads s⟩
  | scheduledApertureStart _ _ => exact ⟨_, execScheduledApertureStart_leads s⟩
  | driverHoldCut _ => exact ⟨_, execDriverHoldCut_leads s⟩
  | driverHoldBreakEnd _ _ => exact ⟨_, execDriverHoldBreakEnd_leads s⟩
  | freezeEndVbatLow _ => exact ⟨_, execFreezeEndVbatLow_leads s⟩
  | sourceLoadFreezeEnd _ => exact ⟨_, execSourceLoadFreezeEnd_leads s⟩
  | refusalRunEnd => exact ⟨_, execRefusalRunEnd_leads s⟩
  | sourceQualify _ _ => exact ⟨_, execSourceQualify_leads s⟩
  | intakeSourceLoss _ _ _ => exact ⟨_, execIntakeSourceLoss_leads s⟩
  | prioritySourceTakeover _ => exact ⟨_, execPrioritySourceTakeover_leads s⟩
  | reverseBlock => exact ⟨_, execReverseBlock_leads s⟩
  | reverseReconduct => exact ⟨_, execReverseReconduct_leads s⟩
  | intakeLimitUpdate => exact ⟨_, execIntakeLimitUpdate_leads s⟩
  | intakeStartupLimitExpiry => exact ⟨_, execIntakeStartupLimitExpiry_leads s⟩
  | intakePdiss _ => exact ⟨_, execIntakePdiss_leads s⟩
  | vSourceRefresh _ _ _ _ _ _ => exact ⟨_, execVSourceRefresh_leads s⟩
  | cbufFloorReached => exact ⟨_, execCbufFloorReached_leads s⟩
  | cbufMeasure _ _ _ _ => exact ⟨_, execCbufMeasure_leads s⟩
  | cbufRampStart _ => exact ⟨_, execCbufRampStart_leads s⟩
  | cbufRampEnd _ => exact ⟨_, execCbufRampEnd_leads s⟩
  | haonPowerUp _ => exact ⟨_, execHaonPowerUp_leads s⟩
  | hostConfigTimeout => exact ⟨_, execHostConfigTimeout_leads s⟩
  | deadBatteryStart _ => exact ⟨_, execDeadBatteryStart_leads s⟩
  | xferQuietLate _ => exact ⟨_, execXferQuietLate_leads s⟩
  | xferDirectionChange _ _ => exact ⟨_, execXferDirectionChange_leads s⟩
  | xferDirTimeout => exact ⟨_, execXferDirTimeout_leads s⟩
  | intakeThermal _ => exact ⟨_, execIntakeThermal_leads s⟩
  | cbufOv _ => exact ⟨_, execCbufOv_leads s⟩
  | xferOcp => exact ⟨_, execXferOcp_leads s⟩
  | xferRetry => exact ⟨_, execXferRetry_leads s⟩
  | xferVtbOv _ => exact ⟨_, execXferVtbOv_leads s⟩
  | xferThermal _ => exact ⟨_, execXferThermal_leads s⟩
  | xferStartFail _ => exact ⟨_, execXferStartFail_leads s⟩
  | xferClrLatch => exact ⟨_, execXferClrLatch_leads s⟩
  | phaseShedChange _ => exact ⟨_, execPhaseShedChange_leads s⟩
  | phaseImbalance _ => exact ⟨_, execPhaseImbalance_leads s⟩
  | phaseSoftStart _ _ => exact ⟨_, execPhaseSoftStart_leads s⟩
  | phaseSsShort _ => exact ⟨_, execPhaseSsShort_leads s⟩
  | phaseSsRetry => exact ⟨_, execPhaseSsRetry_leads s⟩
  | phaseOcp _ _ => exact ⟨_, execPhaseOcp_leads s⟩
  | phaseOv _ => exact ⟨_, execPhaseOv_leads s⟩
  | phaseThermal _ _ => exact ⟨_, execPhaseThermal_leads s⟩
  | phaseGateUv _ _ => exact ⟨_, execPhaseGateUv_leads s⟩
  | phaseVtbCollapse _ => exact ⟨_, execPhaseVtbCollapse_leads s⟩
  | phClrLatch => exact ⟨_, execPhClrLatch_leads s⟩
  | batfetPdiss _ => exact ⟨_, execBatfetPdiss_leads s⟩
  | batfetOcp _ _ => exact ⟨_, execBatfetOcp_leads s⟩
  | batfetReclose => exact ⟨_, execBatfetReclose_leads s⟩
  | batfetRetryCountClear => exact ⟨_, execBatfetRetryCountClear_leads s⟩
  | batfetThermal _ => exact ⟨_, execBatfetThermal_leads s⟩
  | vsysUv _ => exact ⟨_, execVsysUv_leads s⟩
  | revBatFloor _ => exact ⟨_, execRevBatFloor_leads s⟩
  | packIndicatorSettled _ => exact ⟨_, execPackIndicatorSettled_leads s⟩
  | probeVoltageReached => exact ⟨_, execProbeVoltageReached_leads s⟩
  | sinkTestEnd _ => exact ⟨_, execSinkTestEnd_leads s⟩
  | probeShort _ => exact ⟨_, execProbeShort_leads s⟩
  | smartpackReadSequence _ _ => exact ⟨_, execSmartpackReadSequence_leads s⟩
  | smartpackRetry _ err => exact ⟨_, execSmartpackRetry_leads s (_err := err)⟩
  | packNegotiate _ _ => exact ⟨_, execPackNegotiate_leads s⟩
  | absentRedetect _ => exact ⟨_, execAbsentRedetect_leads s⟩
  | chargeSustainedExpiry => exact ⟨_, execChargeSustainedExpiry_leads s⟩
  | chargeTermination => exact ⟨_, execChargeTermination_leads s⟩
  | safetyTimerExpiry => exact ⟨_, execSafetyTimerExpiry_leads s⟩
  | sourceAbsenceTimer => exact ⟨_, execSourceAbsenceTimer_leads s⟩
  | tempHwStop _ => exact ⟨_, execTempHwStop_leads s⟩
  | tempHwStopRelease _ => exact ⟨_, execTempHwStopRelease_leads s⟩
  | tsOpen _ => exact ⟨_, execTsOpen_leads s⟩
  | tsShort _ => exact ⟨_, execTsShort_leads s⟩
  | batRemoval _ _ => exact ⟨_, execBatRemoval_leads s⟩
  | batRemoved => exact ⟨_, execBatRemoved_leads s⟩
  | batShort _ => exact ⟨_, execBatShort_leads s⟩
  | statLatchRead => exact ⟨_, execStatLatchRead_leads s⟩
  | lampEdge _ => exact ⟨_, execLampEdge_leads s⟩
  | chgSuspend _ => exact ⟨_, execChgSuspend_leads s⟩
  | chgIHost _ => exact ⟨_, execChgIHost_leads s⟩
  | chgClrFault => exact ⟨_, execChgClrFault_leads s⟩
  | chgEnableRestore => exact ⟨_, execChgEnableRestore_leads s⟩
  | vselChange _ _ => exact ⟨_, execVselChange_leads s⟩
  | rlNop _ => exact ⟨_, execRlNop_leads s⟩
  | rlHello _ _ _ _ => exact ⟨_, execRlHello_leads s⟩
  | rlSetV _ _ _ _ _ => exact ⟨_, execRlSetV_leads s⟩
  | rlRelease _ _ _ => exact ⟨_, execRlRelease_leads s⟩
  | rlEnable _ _ _ _ => exact ⟨_, execRlEnable_leads s⟩
  | rlTableWrite _ _ _ _ _ => exact ⟨_, execRlTableWrite_leads s⟩
  | rlPlan _ _ _ => exact ⟨_, execRlPlan_leads s⟩
  | rlAptA _ _ _ => exact ⟨_, execRlAptA_leads s⟩
  | rlAptB _ _ _ => exact ⟨_, execRlAptB_leads s⟩
  | rlRead _ _ => exact ⟨_, execRlRead_leads s⟩
  | rlResend _ => exact ⟨_, execRlResend_leads s⟩
  | rlBadOpcode _ _ => exact ⟨_, execRlBadOpcode_leads s⟩
  | rlCrcError _ => exact ⟨_, execRlCrcError_leads s⟩
  | rlFrameAbandon _ => exact ⟨_, execRlFrameAbandon_leads s⟩
  | railArrived _ _ => exact ⟨_, execRailArrived_leads s⟩
  | polSoftStart _ _ => exact ⟨_, execPolSoftStart_leads s⟩
  | polSsShort _ => exact ⟨_, execPolSsShort_leads s⟩
  | polRetry _ _ => exact ⟨_, execPolRetry_leads s⟩
  | polOcp _ _ => exact ⟨_, execPolOcp_leads s⟩
  | polOv _ _ => exact ⟨_, execPolOv_leads s⟩
  | polUvlo _ => exact ⟨_, execPolUvlo_leads s⟩
  | polUvloRestart => exact ⟨_, execPolUvloRestart_leads s⟩
  | polFrzFloor _ => exact ⟨_, execPolFrzFloor_leads s⟩
  | polHoldLimit _ _ _ => exact ⟨_, execPolHoldLimit_leads s⟩
  | railClrLatch => exact ⟨_, execRailClrLatch_leads s⟩
  | qrLimit _ _ => exact ⟨_, execQrLimit_leads s⟩
  | qrThermal _ _ => exact ⟨_, execQrThermal_leads s⟩
  | kaEnable => exact ⟨_, execKaEnable_leads s⟩
  | kaGap _ _ _ => exact ⟨_, execKaGap_leads s⟩
  | kaNodeRecover _ _ _ => exact ⟨_, execKaNodeRecover_leads s⟩
  | kaLimit _ => exact ⟨_, execKaLimit_leads s⟩
  | kaStandbyHandover => exact ⟨_, execKaStandbyHandover_leads s⟩
  | kaOffsetRemoval => exact ⟨_, execKaOffsetRemoval_leads s⟩
  | ccAttachSnk _ _ => exact ⟨_, execCcAttachSnk_leads s⟩
  | ccAttachSrc _ _ => exact ⟨_, execCcAttachSrc_leads s⟩
  | ccDetach => exact ⟨_, execCcDetach_leads s⟩
  | accessoryAttach _ => exact ⟨_, execAccessoryAttach_leads s⟩
  | drpToggle => exact ⟨_, execDrpToggle_leads s⟩
  | sourceCapabilities _ _ => exact ⟨_, execSourceCapabilities_leads s⟩
  | pdAccept => exact ⟨_, execPdAccept_leads s⟩
  | pdPsRdy => exact ⟨_, execPdPsRdy_leads s⟩
  | ppsRequestRepeat => exact ⟨_, execPpsRequestRepeat_leads s⟩
  | eprKeepalive _ => exact ⟨_, execEprKeepalive_leads s⟩
  | sourceBringup => exact ⟨_, execSourceBringup_leads s⟩
  | sourceSwitchClose _ _ => exact ⟨_, execSourceSwitchClose_leads s⟩
  | sourceBringupTimeout _ => exact ⟨_, execSourceBringupTimeout_leads s⟩
  | sinkRequest _ _ _ => exact ⟨_, execSinkRequest_leads s⟩
  | sourceTransitionStart => exact ⟨_, execSourceTransitionStart_leads s⟩
  | sourcePsRdy _ => exact ⟨_, execSourcePsRdy_leads s⟩
  | srcOcp _ => exact ⟨_, execSrcOcp_leads s⟩
  | ppsSourceTimeout => exact ⟨_, execPpsSourceTimeout_leads s⟩
  | sourceRoleEnd _ _ _ => exact ⟨_, execSourceRoleEnd_leads s⟩
  | cblExitSrc => exact ⟨_, execCblExitSrc_leads s⟩
  | dcinEndsSource => exact ⟨_, execDcinEndsSource_leads s⟩
  | vconnOcp _ => exact ⟨_, execVconnOcp_leads s⟩
  | vconnSwap _ => exact ⟨_, execVconnSwap_leads s⟩
  | cableDiscoverIdentity _ => exact ⟨_, execCableDiscoverIdentity_leads s⟩
  | prSwapReceived => exact ⟨_, execPrSwapReceived_leads s⟩
  | cblPrSwap => exact ⟨_, execCblPrSwap_leads s⟩
  | drSwap => exact ⟨_, execDrSwap_leads s⟩
  | frsSignalDetect => exact ⟨_, execFrsSignalDetect_leads s⟩
  | frSwapReceived => exact ⟨_, execFrSwapReceived_leads s⟩
  | frsTimeout => exact ⟨_, execFrsTimeout_leads s⟩
  | softReset _ => exact ⟨_, execSoftReset_leads s⟩
  | pdResponseTimeout _ => exact ⟨_, execPdResponseTimeout_leads s⟩
  | pdNoResponse => exact ⟨_, execPdNoResponse_leads s⟩
  | hardReset _ => exact ⟨_, execHardReset_leads s⟩
  | cablePulledInTransition => exact ⟨_, execCablePulledInTransition_leads s⟩
  | frameShareEnter _ _ _ _ => exact ⟨_, execFrameShareEnter_leads s⟩
  | cblFsEnter => exact ⟨_, execCblFsEnter_leads s⟩
  | cblFsExit => exact ⟨_, execCblFsExit_leads s⟩
  | hRstNSourceTimeout _ => exact ⟨_, execHRstNSourceTimeout_leads s⟩
  | ccOvp _ => exact ⟨_, execCcOvp_leads s⟩
  | sequenceEntryDue _ _ => exact ⟨_, execSequenceEntryDue_leads s⟩
  | injectedConversionDone _ _ => exact ⟨_, execInjectedConversionDone_leads s⟩
  | sliceRotation => exact ⟨_, execSliceRotation_leads s⟩
  | spareCalibrationDone _ => exact ⟨_, execSpareCalibrationDone_leads s⟩
  | adcSliceFault _ _ _ => exact ⟨_, execAdcSliceFault_leads s⟩
  | foregroundCalStart _ => exact ⟨_, execForegroundCalStart_leads s⟩
  | foregroundCalDone _ _ _ => exact ⟨_, execForegroundCalDone_leads s⟩
  | refSettled => exact ⟨_, execRefSettled_leads s⟩
  | refMon _ => exact ⟨_, execRefMon_leads s⟩
  | refoutLimit _ => exact ⟨_, execRefoutLimit_leads s⟩
  | adcOvr _ _ _ _ => exact ⟨_, execAdcOvr_leads s⟩
  | calDue => exact ⟨_, execCalDue_leads s⟩
  | adcClrFence => exact ⟨_, execAdcClrFence_leads s⟩
  | journalAppend => exact ⟨_, execJournalAppend_leads s⟩
  | holdupAllowanceUpdate _ => exact ⟨_, execHoldupAllowanceUpdate_leads s⟩
  | choldMeasure _ _ => exact ⟨_, execCholdMeasure_leads s⟩
  | holdupEvent _ => exact ⟨_, execHoldupEvent_leads s⟩
  | resumeStart _ => exact ⟨_, execResumeStart_leads s⟩
  | pageClose => exact ⟨_, execPageClose_leads s⟩
  | pageCommit => exact ⟨_, execPageCommit_leads s⟩
  | nandProgFail => exact ⟨_, execNandProgFail_leads s⟩
  | nandEraseDone _ _ => exact ⟨_, execNandEraseDone_leads s⟩
  | nandEccRead _ _ => exact ⟨_, execNandEccRead_leads s⟩
  | sealBuild _ => exact ⟨_, execSealBuild_leads s⟩
  | keepaliveFlush => exact ⟨_, execKeepaliveFlush_leads s⟩
  | nandScan _ => exact ⟨_, execNandScan_leads s⟩
  | journalFull => exact ⟨_, execJournalFull_leads s⟩
  | journalFullExit => exact ⟨_, execJournalFullExit_leads s⟩
  | jrSummary _ => exact ⟨_, execJrSummary_leads s⟩
  | rtcOscFail => exact ⟨_, execRtcOscFail_leads s⟩
  | rtcBkpLow _ => exact ⟨_, execRtcBkpLow_leads s⟩
  | rtcRateCorrection _ => exact ⟨_, execRtcRateCorrection_leads s⟩
  | ticketIssue _ _ _ _ _ _ _ => exact ⟨_, execTicketIssue_leads s⟩
  | tableFull => exact ⟨_, execTableFull_leads s⟩
  | ticketRetire _ => exact ⟨_, execTicketRetire_leads s⟩
  | ticketDeadline _ => exact ⟨_, execTicketDeadline_leads s⟩
  | durableCommit _ => exact ⟨_, execDurableCommit_leads s⟩
  | ticketFailure _ => exact ⟨_, execTicketFailure_leads s⟩
  | heldRetry _ _ => exact ⟨_, execHeldRetry_leads s⟩
  | faultWordCollect => exact ⟨_, execFaultWordCollect_leads s⟩
  | escTrackerExpiry => exact ⟨_, execEscTrackerExpiry_leads s⟩
  | faultReaction => exact ⟨_, execFaultReaction_leads s⟩
  | degradeClose => exact ⟨_, execDegradeClose_leads s⟩
  | fenceLift _ => exact ⟨_, execFenceLift_leads s⟩
  | recoveryWindowClear _ => exact ⟨_, execRecoveryWindowClear_leads s⟩
  | fltClrPerm => exact ⟨_, execFltClrPerm_leads s⟩
  | fltHistClr => exact ⟨_, execFltHistClr_leads s⟩
  | twinClaim _ => exact ⟨_, execTwinClaim_leads s⟩
  | twinClaimWaitExpiry _ => exact ⟨_, execTwinClaimWaitExpiry_leads s⟩
  | twinTrainTimeout => exact ⟨_, execTwinTrainTimeout_leads s⟩
  | twinLinkTrained _ _ => exact ⟨_, execTwinLinkTrained_leads s⟩
  | twmCfgDigest _ _ _ _ => exact ⟨_, execTwmCfgDigest_leads s⟩
  | twinHeartbeatSend _ _ => exact ⟨_, execTwinHeartbeatSend_leads s⟩
  | twmHeartbeat _ frn sc _ _ _ _ _ ika => exact ⟨_, execTwmHeartbeat_leads s (_frn := frn) (_sc := sc) (_ika := ika)⟩
  | twinHbLost => exact ⟨_, execTwinHbLost_leads s⟩
  | twinFailover _ => exact ⟨_, execTwinFailover_leads s⟩
  | twinResign _ => exact ⟨_, execTwinResign_leads s⟩
  | twnCtlResign => exact ⟨_, execTwnCtlResign_leads s⟩
  | twnCtlEnrol => exact ⟨_, execTwnCtlEnrol_leads s⟩
  | twnCtlFork => exact ⟨_, execTwnCtlFork_leads s⟩
  | twmMirror _ _ => exact ⟨_, execTwmMirror_leads s⟩
  | twmMirrorAck _ _ => exact ⟨_, execTwmMirrorAck_leads s⟩
  | twmAppend _ fwd _ => exact ⟨_, execTwmAppend_leads s (_fwd := fwd)⟩
  | twmResyncReq _ _ => exact ⟨_, execTwmResyncReq_leads s⟩
  | twmResyncData _ _ => exact ⟨_, execTwmResyncData_leads s⟩
  | twmTime _ mode _ _ _ => exact ⟨_, execTwmTime_leads s (_mode := mode)⟩
  | twinTimeSend => exact ⟨_, execTwinTimeSend_leads s⟩
  | twmEpochStale _ _ _ => exact ⟨_, execTwmEpochStale_leads s⟩
  | twinMessageRepeat _ => exact ⟨_, execTwinMessageRepeat_leads s⟩
  | twinFenceRetrain _ => exact ⟨_, execTwinFenceRetrain_leads s⟩
  | twinResyncFail => exact ⟨_, execTwinResyncFail_leads s⟩
  | hpWriteTransfer _ _ => exact ⟨_, execHpWriteTransfer_leads s⟩
  | hpReadTransfer _ _ => exact ⟨_, execHpReadTransfer_leads s⟩
  | hpTransferAbort _ => exact ⟨_, execHpTransferAbort_leads s⟩
  | hpTimeout _ => exact ⟨_, execHpTimeout_leads s⟩
  | hpDozeWake _ _ => exact ⟨_, execHpDozeWake_leads s⟩
  | hpAlertResponse _ => exact ⟨_, execHpAlertResponse_leads s⟩
  | sbTransaction _ _ _ => exact ⟨_, execSbTransaction_leads s⟩
  | sbArbLost _ => exact ⟨_, execSbArbLost_leads s⟩
  | sbArbFrame _ _ => exact ⟨_, execSbArbFrame_leads s⟩
  | sbDeferredStart _ _ => exact ⟨_, execSbDeferredStart_leads s⟩
  | sbStretchTmo _ => exact ⟨_, execSbStretchTmo_leads s⟩
  | sbBusStuck _ _ => exact ⟨_, execSbBusStuck_leads s⟩
  | sbBusClear _ _ => exact ⟨_, execSbBusClear_leads s⟩
  | tabienMessageReceive _ _ _ => exact ⟨_, execTabienMessageReceive_leads s⟩
  | tmAck _ => exact ⟨_, execTmAck_leads s⟩
  | tabienResendTimer _ => exact ⟨_, execTabienResendTimer_leads s⟩
  | tabienLinkTraining _ => exact ⟨_, execTabienLinkTraining_leads s⟩
  | tmLinkUp _ => exact ⟨_, execTmLinkUp_leads s⟩
  | tmCmd => exact ⟨_, execTmCmd_leads s⟩
  | tmResult => exact ⟨_, execTmResult_leads s⟩
  | tmSnap => exact ⟨_, execTmSnap_leads s⟩
  | tmEvent => exact ⟨_, execTmEvent_leads s⟩
  | tmAdc => exact ⟨_, execTmAdc_leads s⟩
  | tmDrainData => exact ⟨_, execTmDrainData_leads s⟩
  | tmCfg => exact ⟨_, execTmCfg_leads s⟩
  | tmBudget => exact ⟨_, execTmBudget_leads s⟩
  | tmXfer => exact ⟨_, execTmXfer_leads s⟩
  | tmHfault => exact ⟨_, execTmHfault_leads s⟩
  | tmCable => exact ⟨_, execTmCable_leads s⟩
  | tmHstatus => exact ⟨_, execTmHstatus_leads s⟩
  | tmRdclr => exact ⟨_, execTmRdclr_leads s⟩
  | tmJrec => exact ⟨_, execTmJrec_leads s⟩
  | tmCfgReq => exact ⟨_, execTmCfgReq_leads s⟩
  | tmDrainReq => exact ⟨_, execTmDrainReq_leads s⟩
  | tmUpdData => exact ⟨_, execTmUpdData_leads s⟩
  | snapStale => exact ⟨_, execSnapStale_leads s⟩
  | mbxSubmit => exact ⟨_, execMbxSubmit_leads s⟩
  | mbxPop => exact ⟨_, execMbxPop_leads s⟩
  | ping _ => exact ⟨_, execPing_leads s⟩
  | regRead _ => exact ⟨_, execRegRead_leads s⟩
  | regWrite _ => exact ⟨_, execRegWrite_leads s⟩
  | adcInject _ => exact ⟨_, execAdcInject_leads s⟩
  | refchkRun _ _ _ => exact ⟨_, execRefchkRun_leads s⟩
  | calStage _ => exact ⟨_, execCalStage_leads s⟩
  | calCommit _ _ => exact ⟨_, execCalCommit_leads s⟩
  | kaStatement _ => exact ⟨_, execKaStatement_leads s⟩
  | timeSet _ => exact ⟨_, execTimeSet_leads s⟩
  | release _ => exact ⟨_, execRelease_leads s⟩
  | sbXfer _ => exact ⟨_, execSbXfer_leads s⟩
  | streamReset _ => exact ⟨_, execStreamReset_leads s⟩
  | registerWrite _ _ => exact ⟨_, execRegisterWrite_leads s⟩
  | drnStatus _ => exact ⟨_, execDrnStatus_leads s⟩
  | drnIdent _ => exact ⟨_, execDrnIdent_leads s⟩
  | drnRead _ => exact ⟨_, execDrnRead_leads s⟩
  | drnReadQ _ => exact ⟨_, execDrnReadQ_leads s⟩
  | drnRequest _ => exact ⟨_, execDrnRequest_leads s⟩
  | drnGo => exact ⟨_, execDrnGo_leads s⟩
  | readJsn => exact ⟨_, execReadJsn_leads s⟩
  | readCert => exact ⟨_, execReadCert_leads s⟩
  | drainAbort => exact ⟨_, execDrainAbort_leads s⟩
  | drnWrite _ _ => exact ⟨_, execDrnWrite_leads s⟩
  | drnWriteQ _ _ => exact ⟨_, execDrnWriteQ_leads s⟩
  | pwrReqChange _ => exact ⟨_, execPwrReqChange_leads s⟩
  | hostPwr _ => exact ⟨_, execHostPwr_leads s⟩
  | hcoreDoze => exact ⟨_, execHcoreDoze_leads s⟩
  | hcoreWake _ => exact ⟨_, execHcoreWake_leads s⟩
  | keepaliveEntry => exact ⟨_, execKeepaliveEntry_leads s⟩
  | keepaliveDomainSwitch => exact ⟨_, execKeepaliveDomainSwitch_leads s⟩
  | keepaliveTicketTimeout => exact ⟨_, execKeepaliveTicketTimeout_leads s⟩
  | keepaliveWake _ _ => exact ⟨_, execKeepaliveWake_leads s⟩
  | keepaliveSecondWake _ _ _ _ _ _ _ _ _ => exact ⟨_, execKeepaliveSecondWake_leads s⟩
  | shipNHold => exact ⟨_, execShipNHold_leads s⟩
  | shipEnter _ => exact ⟨_, execShipEnter_leads s⟩
  | shipEntry _ => exact ⟨_, execShipEntry_leads s⟩
  | shipWake _ _ => exact ⟨_, execShipWake_leads s⟩
  | coldStart _ => exact ⟨_, execColdStart_leads s⟩
  | warmStart _ => exact ⟨_, execWarmStart_leads s⟩
  | fieldWReset _ => exact ⟨_, execFieldWReset_leads s⟩
  | hostWReset _ => exact ⟨_, execHostWReset_leads s⟩
  | fieldPinReset _ => exact ⟨_, execFieldPinReset_leads s⟩
  | hostPinReset _ => exact ⟨_, execHostPinReset_leads s⟩
  | faonPowerLoss _ => exact ⟨_, execFaonPowerLoss_leads s⟩
  | svcChallenge _ => exact ⟨_, execSvcChallenge_leads s⟩
  | svcEnter _ => exact ⟨_, execSvcEnter_leads s⟩
  | svcExit _ => exact ⟨_, execSvcExit_leads s⟩
  | keyEnrol _ => exact ⟨_, execKeyEnrol_leads s⟩
  | cfgStage _ => exact ⟨_, execCfgStage_leads s⟩
  | cfgCommit _ _ => exact ⟨_, execCfgCommit_leads s⟩
  | fieldReset _ => exact ⟨_, execFieldReset_leads s⟩
  | serviceTimeout => exact ⟨_, execServiceTimeout_leads s⟩
  | serviceLockoutEnd => exact ⟨_, execServiceLockoutEnd_leads s⟩
  | wdgServiceWrite _ _ => exact ⟨_, execWdgServiceWrite_leads s⟩
  | wdgForeignWrite _ => exact ⟨_, execWdgForeignWrite_leads s⟩
  | wdgWindowOpen _ => exact ⟨_, execWdgWindowOpen_leads s⟩
  | wdgWindowClose _ => exact ⟨_, execWdgWindowClose_leads s⟩
  | wdgStartTimeout _ => exact ⟨_, execWdgStartTimeout_leads s⟩
  | checkinWrite _ => exact ⟨_, execCheckinWrite_leads s⟩
  | memorySelftestMacro _ _ _ _ => exact ⟨_, execMemorySelftestMacro_leads s⟩
  | bistBurn _ _ => exact ⟨_, execBistBurn_leads s⟩
  | bistEngTest => exact ⟨_, execBistEngTest_leads s⟩
  | updBegin _ => exact ⟨_, execUpdBegin_leads s⟩
  | updChunk _ => exact ⟨_, execUpdChunk_leads s⟩
  | updBlockWrite _ => exact ⟨_, execUpdBlockWrite_leads s⟩
  | updFinish _ => exact ⟨_, execUpdFinish_leads s⟩
  | updActivate _ => exact ⟨_, execUpdActivate_leads s⟩
  | updAbort _ => exact ⟨_, execUpdAbort_leads s⟩
  | updQuery _ => exact ⟨_, execUpdQuery_leads s⟩
  | updRevert _ => exact ⟨_, execUpdRevert_leads s⟩
  | handoverStart => exact ⟨_, execHandoverStart_leads s⟩
  | handoverReady _ _ => exact ⟨_, execHandoverReady_leads s⟩
  | handoverFallback _ _ _ => exact ⟨_, execHandoverFallback_leads s⟩
  | probationPass => exact ⟨_, execProbationPass_leads s⟩
  | probationFail _ => exact ⟨_, execProbationFail_leads s⟩
  | lbStart _ => exact ⟨_, execLbStart_leads s⟩
  | lbRunEnd _ _ _ _ => exact ⟨_, execLbRunEnd_leads s⟩
  | lbTimeout _ => exact ⟨_, execLbTimeout_leads s⟩
  | fiArm => exact ⟨_, execFiArm_leads s⟩
  | fiInject => exact ⟨_, execFiInject_leads s⟩
  | fvioLow => exact ⟨_, execFvioLow_leads s⟩
  | hvioLow => exact ⟨_, execHvioLow_leads s⟩
  | testPadHigh _ => exact ⟨_, execTestPadHigh_leads s⟩
  | errorRecoveryExit => exact ⟨_, execErrorRecoveryExit_leads s⟩
  | lossOfLock _ => exact ⟨_, execLossOfLock_leads s⟩
  | fVioReturn => exact ⟨_, execFVioReturn_leads s⟩
  | hVioReturn => exact ⟨_, execHVioReturn_leads s⟩
  | twinLinkCrc => exact ⟨_, execTwinLinkCrc_leads s⟩
  | kaThermalFold _ => exact ⟨_, execKaThermalFold_leads s⟩

/-- An answer of a step is that of the front command, from the state without it; the idle block stands still. -/
theorem step_within {s t : State} (h : step s = .next t) : ∃ sc, Within sc s.hw t.hw := by
  cases hq : s.pending with
  | nil =>
    obtain rfl : s = t := by simpa [step, hq] using h
    exact ⟨[], Within.refl⟩
  | cons c rest =>
    obtain ⟨sc, u, hu, hw⟩ := exec_leads c { s with pending := rest }
    obtain rfl : u = t := by simpa [step, hq, hu] using h
    exact ⟨sc, hw⟩

/-- Settles O3: what stays within a scope keeps the register store canonical. -/
theorem registerStoreStaysCanonical : Obligations.RegisterStoreStaysCanonical := by
  intro s t hwf hstep
  obtain ⟨sc, hw⟩ := step_within hstep
  exact hw.wf hwf

/-- Settles O4: what stays within a scope keeps the bounds of the stores. -/
theorem storesStayBounded : Obligations.StoresStayBounded := by
  intro s t hb hstep
  obtain ⟨sc, hw⟩ := step_within hstep
  exact hw.bounded hb

/-! ### Frames -/

/-- The arrays of a list have their fields at equal distances. -/
def Touch.Named (l : List Touch) : Prop := ∀ g, Touch.array g ∈ l → Reg.Even g

section
variable {l l' : List Touch} {g : Nat → Field}

@[simp] theorem Touch.named_append : Touch.Named (l ++ l') ↔ Touch.Named l ∧ Touch.Named l' := by
  simp [Touch.Named, or_imp, forall_and]

@[simp] theorem Touch.named_parts (ps : List Part) : Touch.Named (parts ps) := by simp [Touch.Named, parts]

@[simp] theorem Touch.named_regs (fs : List Field) : Touch.Named (regs fs) := by simp [Touch.Named, regs]

@[simp] theorem Touch.named_arrays (gs : List (Nat → Field)) :
    Touch.Named (arrays gs) ↔ ∀ g ∈ gs, Reg.Even g := by simp [Touch.Named, arrays]

/-- A field that an even array's fields fall on is named by it. -/
theorem Touch.names_of_hits {x : Touch} {f : Field} (hx : ∀ g, x = .array g → Reg.Even g) (h : x.hits f.key = true) :
    x.names f := by
  cases x with
  | part p => cases h
  | reg g => exact (Nat.eq_of_beq_eq_true h).symm
  | array g =>
    obtain ⟨hle, hmod⟩ := Bool.and_eq_true_iff.1 h
    obtain ⟨n, hn⟩ := Nat.dvd_of_mod_eq_zero (Nat.eq_of_beq_eq_true hmod)
    have hg := hx g rfl n
    have hlow : (g 0).key ≤ f.key := Nat.le_of_ble_eq_true hle
    exact ⟨n, by rw [hg, Nat.mul_comm, ← hn]; omega⟩
  | fieldSide => exact h
  | hostSide => simpa [Touch.hits, Touch.names] using h

/-- What stays within a scope that a list takes in leaves the rest of the list's frame as it was. -/
theorem Within.leaves {sc : List Touch} {m m' : Hw} (h : Within sc m m') (hc : Touch.covers l sc = true)
    (hn : Touch.Named l) : m.leaves m' l := by
  have hw := Within.refl.andThen hc h
  refine ⟨hw.same, fun f hf => hw.rd f (Touch.spares_iff.2 fun x hx => ?_)⟩
  refine Bool.eq_false_iff.2 fun hk => hf x hx (Touch.names_of_hits ?_ hk)
  rintro g rfl
  exact hn g hx

/-- A command whose scope a frame takes in has that frame. -/
theorem Leads.frame {sc : List Touch} {s : State} {o : Host.Outcome State Fault Refusal} (h : Leads sc s o)
    (hn : Touch.Named l) (hc : Touch.covers l sc = true := by decide +kernel) :
    ∃ t, o = .next t ∧ s.hw.leaves t.hw l := by
  obtain ⟨t, ht, hw⟩ := h
  exact ⟨t, ht, hw.leaves hc hn⟩

end

/-! The groups of the frames: only a rail-link command names arrays. -/

@[simp] theorem Touch.named_busTransaction : Touch.Named Touch.busTransaction := by simp [Touch.busTransaction]

@[simp] theorem Touch.named_charging : Touch.Named Touch.charging := by simp [Touch.charging]

@[simp] theorem Touch.named_critFull : Touch.Named Touch.critFull := by simp [Touch.critFull]

@[simp] theorem Touch.named_freezeEnd : Touch.Named Touch.freezeEnd := by simp [Touch.freezeEnd]

@[simp] theorem Touch.named_issuing : Touch.Named Touch.issuing := by simp [Touch.issuing]

@[simp] theorem Touch.named_phasesPick : Touch.Named Touch.phasesPick := by simp [Touch.phasesPick]

@[simp] theorem Touch.named_railsFollow : Touch.Named Touch.railsFollow := by simp [Touch.railsFollow]

@[simp] theorem Touch.named_refusing : Touch.Named Touch.refusing := by simp [Touch.refusing]

@[simp] theorem Touch.named_resigning : Touch.Named Touch.resigning := by simp [Touch.resigning]

@[simp] theorem Touch.named_sideFault : Touch.Named Touch.sideFault := by simp [Touch.sideFault]

@[simp] theorem Touch.named_railCommand : Touch.Named Touch.railCommand := by
  simp [Touch.railCommand, Reg.POL_SET_SET_even, Reg.QR_SET_SET_even]

/-- Settles O57: the scope of each command lies in the list of its frame. -/
theorem phasesToRailsFrames : Obligations.PhasesToRailsFrames := by
  intro c s
  cases c with
  | phaseShedChange _ => exact (execPhaseShedChange_leads s).frame (by simp)
  | phaseImbalance _ => exact (execPhaseImbalance_leads s).frame (by simp [Reg.PH_TRIM_AT_LIMIT_even])
  | phaseSoftStart _ _ => exact (execPhaseSoftStart_leads s).frame (by simp)
  | phaseSsShort _ => exact (execPhaseSsShort_leads s).frame (by simp)
  | phaseSsRetry => exact (execPhaseSsRetry_leads s).frame (by simp)
  | phaseOcp _ _ => exact (execPhaseOcp_leads s).frame (by simp)
  | phaseOv _ => exact (execPhaseOv_leads s).frame (by simp)
  | phaseThermal _ _ => exact (execPhaseThermal_leads s).frame (by simp)
  | phaseGateUv _ _ => exact (execPhaseGateUv_leads s).frame (by simp)
  | phaseVtbCollapse _ => exact (execPhaseVtbCollapse_leads s).frame (by simp)
  | phClrLatch => exact (execPhClrLatch_leads s).frame (by simp)
  | batfetPdiss _ => exact (execBatfetPdiss_leads s).frame (by simp)
  | batfetOcp _ _ => exact (execBatfetOcp_leads s).frame (by simp)
  | batfetReclose => exact (execBatfetReclose_leads s).frame (by simp)
  | batfetRetryCountClear => exact (execBatfetRetryCountClear_leads s).frame (by simp)
  | batfetThermal _ => exact (execBatfetThermal_leads s).frame (by simp)
  | vsysUv _ => exact (execVsysUv_leads s).frame (by simp)
  | revBatFloor _ => exact (execRevBatFloor_leads s).frame (by simp)
  | packIndicatorSettled _ => exact (execPackIndicatorSettled_leads s).frame (by simp)
  | probeVoltageReached => exact (execProbeVoltageReached_leads s).frame (by simp)
  | sinkTestEnd _ => exact (execSinkTestEnd_leads s).frame (by simp)
  | probeShort _ => exact (execProbeShort_leads s).frame (by simp)
  | smartpackReadSequence _ _ => exact (execSmartpackReadSequence_leads s).frame (by simp)
  | smartpackRetry _ err => exact (execSmartpackRetry_leads s (_err := err)).frame (by simp)
  | packNegotiate _ _ => exact (execPackNegotiate_leads s).frame (by simp)
  | absentRedetect _ => exact (execAbsentRedetect_leads s).frame (by simp)
  | chargeSustainedExpiry => exact (execChargeSustainedExpiry_leads s).frame (by simp)
  | chargeTermination => exact (execChargeTermination_leads s).frame (by simp)
  | safetyTimerExpiry => exact (execSafetyTimerExpiry_leads s).frame (by simp)
  | sourceAbsenceTimer => exact (execSourceAbsenceTimer_leads s).frame (by simp)
  | tempHwStop _ => exact (execTempHwStop_leads s).frame (by simp)
  | tempHwStopRelease _ => exact (execTempHwStopRelease_leads s).frame (by simp)
  | tsOpen _ => exact (execTsOpen_leads s).frame (by simp)
  | tsShort _ => exact (execTsShort_leads s).frame (by simp)
  | batRemoval _ _ => exact (execBatRemoval_leads s).frame (by simp)
  | batRemoved => exact (execBatRemoved_leads s).frame (by simp)
  | batShort _ => exact (execBatShort_leads s).frame (by simp)
  | statLatchRead => exact (execStatLatchRead_leads s).frame (by simp)
  | lampEdge _ => exact (execLampEdge_leads s).frame (by simp)
  | chgSuspend _ => exact (execChgSuspend_leads s).frame (by simp)
  | chgIHost _ => exact (execChgIHost_leads s).frame (by simp)
  | chgClrFault => exact (execChgClrFault_leads s).frame (by simp)
  | chgEnableRestore => exact (execChgEnableRestore_leads s).frame (by simp)
  | vselChange _ _ => exact (execVselChange_leads s).frame (by simp [Reg.POL_SET_SET_even, Reg.QR_SET_SET_even])
  | rlNop _ => exact (execRlNop_leads s).frame (by simp)
  | rlHello _ _ _ _ => exact (execRlHello_leads s).frame (by simp)
  | rlSetV _ _ _ _ _ => exact (execRlSetV_leads s).frame (by simp)
  | rlRelease _ _ _ => exact (execRlRelease_leads s).frame (by simp)
  | rlEnable _ _ _ _ => exact (execRlEnable_leads s).frame (by simp)
  | rlTableWrite _ _ _ _ _ => exact (execRlTableWrite_leads s).frame (by simp [Reg.POL_VTAB_ENTRY_HI_even, Reg.POL_VTAB_ENTRY_LO_even])
  | rlPlan _ _ _ => exact (execRlPlan_leads s).frame (by simp)
  | rlAptA _ _ _ => exact (execRlAptA_leads s).frame (by simp)
  | rlAptB _ _ _ => exact (execRlAptB_leads s).frame (by simp)
  | rlRead _ _ => exact (execRlRead_leads s).frame (by simp)
  | rlResend _ => exact (execRlResend_leads s).frame (by simp)
  | rlBadOpcode _ _ => exact (execRlBadOpcode_leads s).frame (by simp)
  | rlCrcError _ => exact (execRlCrcError_leads s).frame (by simp)
  | rlFrameAbandon _ => exact (execRlFrameAbandon_leads s).frame (by simp)
  | railArrived _ _ => exact (execRailArrived_leads s).frame (by simp)
  | polSoftStart _ _ => exact (execPolSoftStart_leads s).frame (by simp)
  | polSsShort _ => exact (execPolSsShort_leads s).frame (by simp)
  | polRetry _ _ => exact (execPolRetry_leads s).frame (by simp)
  | polOcp _ _ => exact (execPolOcp_leads s).frame (by simp)
  | polOv _ _ => exact (execPolOv_leads s).frame (by simp)
  | polUvlo _ => exact (execPolUvlo_leads s).frame (by simp)
  | polUvloRestart => exact (execPolUvloRestart_leads s).frame (by simp)
  | polFrzFloor _ => exact (execPolFrzFloor_leads s).frame (by simp)
  | polHoldLimit _ _ _ => exact (execPolHoldLimit_leads s).frame (by simp)
  | railClrLatch => exact (execRailClrLatch_leads s).frame (by simp)
  | qrLimit _ _ => exact (execQrLimit_leads s).frame (by simp)
  | qrThermal _ _ => exact (execQrThermal_leads s).frame (by simp)
  | kaEnable => exact (execKaEnable_leads s).frame (by simp)
  | kaGap _ _ _ => exact (execKaGap_leads s).frame (by simp)
  | kaNodeRecover _ _ _ => exact (execKaNodeRecover_leads s).frame (by simp)
  | kaLimit _ => exact (execKaLimit_leads s).frame (by simp)
  | kaStandbyHandover => exact (execKaStandbyHandover_leads s).frame (by simp)
  | kaOffsetRemoval => exact (execKaOffsetRemoval_leads s).frame (by simp)
  | _ =>
    obtain ⟨t, ht, -⟩ := exec_keepsQueue _ s
    exact ⟨t, ht, trivial⟩

end Sys2Proof.Machine
end

