-- ==== Sys2Proof/Proofs/Frames.lean ====
section
/-! PROOFS. Two families of frames fail: in states that no run reaches, a command touches a register outside its list. -/

set_option Elab.async false


namespace Sys2Proof.Machine

@[simp] theorem Touch.named_powering : Touch.Named Touch.powering := by
  simp [Touch.powering, Reg.ADC_LAST_FLAGS_even, Reg.ADC_LAST_VALUE_even]

@[simp] theorem Touch.named_phasesStop : Touch.Named Touch.phasesStop := by simp [Touch.phasesStop]

@[simp] theorem Touch.named_appending : Touch.Named Touch.appending := by simp [Touch.appending]

@[simp] theorem Touch.named_settling : Touch.Named Touch.settling := by
  simp [Touch.settling, Reg.HOST_SEQ_N_even, Reg.MBX_RES_RESULT_even]

@[simp] theorem Touch.named_durable : Touch.Named Touch.durable := by
  simp [Touch.durable, Reg.HOST_SEQ_N_even, Reg.MBX_RES_RESULT_even]

@[simp] theorem Touch.named_fieldSide : Touch.Named [.fieldSide] := by simp [Touch.Named]

/-- A field that a list spares is one that none of its touches names. -/
theorem Touch.hits_of_names {x : Touch} {f : Field} (hx : ∀ g, x = .array g → Reg.Even g) (h : x.names f) :
    x.hits f.key = true := by
  cases x with
  | part p => cases h
  | reg g => exact Nat.beq_eq.symm ▸ h.symm
  | array g =>
    obtain ⟨n, hn⟩ := h
    exact hn ▸ (hx g rfl).hits n
  | fieldSide => exact h
  | hostSide => simpa [Touch.hits, Touch.names] using h

/-- A frame keeps the field that its list spares. -/
theorem Hw.leaves.rd {m m' : Hw} {l : List Touch} (h : m.leaves m' l) {f : Field} (hn : Touch.Named l)
    (hs : Touch.spares l f.key = true := by decide +kernel) : m'.rd f = m.rd f := by
  obtain ⟨-, hrd⟩ := h
  refine hrd f fun x hx hnames => ?_
  have hhit := Touch.hits_of_names (fun g hg => hn g (hg ▸ hx)) hnames
  rw [Touch.spares_iff.1 hs x hx] at hhit
  cases hhit

/-- The block with the backup domain waiting to be switched off, after a failure of the RTC's oscillator. -/
def backupOffAsked : Hw :=
  let m := State.reset.hw.setDomain .fBkp (DomainSt.mk true true (some 0))
  (m.wr Reg.FRM_FRN_FRN 4).wr Reg.RTC_STATUS_OSC_FAIL 1

/-- Refutes O56: a switch-off of the backup domain that has waited for 4 frames drops the failure of the RTC's oscillator, which the list of
DOMAIN_OFF_TICKET_TIMEOUT does not name. The statement takes in states in which a domain waits that no guard engine
switches. -/
theorem not_architectureToTransferFrames : ¬ Obligations.ArchitectureToTransferFrames := by
  intro h
  obtain ⟨t, ht, hframe⟩ := h (.domainOffTicketTimeout .fBkp) { State.reset with hw := backupOffAsked }
  have hkept := hframe.rd (f := Reg.RTC_STATUS_OSC_FAIL) (by simp)
  obtain rfl := Host.Outcome.next.inj ht
  exact absurd hkept (by decide +kernel)

/-- A durable REG_WRITE that clears a host event bit, as no check of REG_WRITE validates it. -/
def hostWordWrite : HostCmd :=
  { stream := 0, seq := 0, cmd := cmdREG_WRITE, flags := 0, epoch := 0
    args := le 2 0x0200 ++ le 2 0 ++ le 4 65536 ++ le 4 65536, tkt := 1, stage := 1, status := 0, rflags := 0, data := []
    sent := false, jsn := none, inner := none, hostSide := false }

/-- The block with the record of that command at the front of the submitted list. -/
def hostWriteQueued : Hw :=
  { State.reset.hw.wr Reg.INTAKE_STATUS_SRC_CHANGE 1 with
    sub := [Append.mk (State.reset.hw.mkRec JR.HOST_CMD 0x16 []) (some 1)]
    host := { State.reset.hw.host with work := [hostWordWrite] } }

/-- Refutes O58: the record of a queued REG_WRITE of a host word, which no check lets through, is accepted, and its commit
clears the host's event bit, which the list of JOURNAL_APPEND does not name. -/
theorem not_cableToJournalFrames : ¬ Obligations.CableToJournalFrames := by
  intro h
  obtain ⟨t, ht, hframe⟩ := h .journalAppend { State.reset with hw := hostWriteQueued }
  have hkept := hframe.rd (f := Reg.INTAKE_STATUS_SRC_CHANGE) (by simp)
  obtain rfl := Host.Outcome.next.inj ht
  exact absurd hkept (by decide +kernel)

end Sys2Proof.Machine
end

