-- ==== Sys2Proof/Proofs/Reads.lean ====
section
/-! PROOFS. How a read of the block passes its updates: a write of a register, a choice between two blocks, an update of
one part. Tagged for simp, with the side conditions on keys and widths left to `decide`. -/

namespace Sys2Proof.Machine

set_option Elab.async false

/-! A part outside a scope. -/

theorem Touch.le_self (x : Touch) : x.le x = true := by
  cases x <;> simp [Touch.le, Touch.hits]

theorem Touch.within_of_mem {x : Touch} {l : List Touch} (h : x ∈ l) : x.within l = true :=
  Touch.within_iff.2 (.inl (List.any_eq_true.2 ⟨x, h, x.le_self⟩))

theorem Touch.covers_refl (l : List Touch) : Touch.covers l l = true :=
  Touch.covers_iff.2 fun _ => Touch.within_of_mem

/-- A part outside the scope stands as it did. -/
theorem Within.kept {sc : List Touch} {m m' : Hw} (h : Within sc m m') (p : Part)
    (hp : (Touch.part p).within sc = false := by decide +kernel) : m.same m' p :=
  h.same p fun hmem => by rw [Touch.within_of_mem hmem] at hp; cases hp

/-! Reads behind a write. -/

@[simp] theorem Hw.rd_wr_other {m : Hw} {f g : Field} (h : g.key ≠ f.key) (v : Nat) : (m.wr f v).rd g = m.rd g :=
  Hw.rd_wr_ne h v

@[simp] theorem Hw.rd_wr_lt {m : Hw} {f : Field} {v : Nat} (h : v < 2 ^ f.width) : (m.wr f v).rd f = v := by
  rw [Hw.rd_wr_same, Nat.mod_eq_of_lt h]

theorem satN_lt (w v : Nat) : satN w v < 2 ^ w := by
  unfold satN
  have := Nat.two_pow_pos w
  split <;> omega

theorem satN_of_lt {w v : Nat} (h : v < 2 ^ w) : satN w v = v := if_neg (Nat.not_le.2 h)

theorem unsignedOf_lt (w : Nat) (v : Int) : unsignedOf w v < 2 ^ w := by
  unfold unsignedOf
  have hpos : (0 : Int) < ((2 ^ w : Nat) : Int) := by exact_mod_cast Nat.two_pow_pos w
  have hlt := Int.emod_lt_of_pos v hpos
  have hnn := Int.emod_nonneg v hpos.ne'
  omega

theorem b2n_le (b : Bool) : b2n b ≤ 1 := by cases b <;> decide

@[simp] theorem b2n_true : b2n true = 1 := rfl
@[simp] theorem b2n_false : b2n false = 0 := rfl
@[simp] theorem b2n_eq_one (b : Bool) : b2n b = 1 ↔ b = true := by cases b <;> decide
@[simp] theorem b2n_eq_zero (b : Bool) : b2n b = 0 ↔ b = false := by cases b <;> decide

@[simp] theorem Hw.rd_wrSat_same (m : Hw) (f : Field) (v : Nat) : (m.wrSat f v).rd f = satN f.width v :=
  Hw.rd_wr_lt (satN_lt _ _)

@[simp] theorem Hw.rd_wrSat_other {m : Hw} {f g : Field} (h : g.key ≠ f.key) (v : Nat) :
    (m.wrSat f v).rd g = m.rd g :=
  Hw.rd_wr_ne h _

@[simp] theorem Hw.rd_add_same (m : Hw) (f : Field) (v : Nat) : (m.add f v).rd f = satN f.width (m.rd f + v) :=
  Hw.rd_wr_lt (satN_lt _ _)

@[simp] theorem Hw.rd_add_other {m : Hw} {f g : Field} (h : g.key ≠ f.key) (v : Nat) : (m.add f v).rd g = m.rd g :=
  Hw.rd_wr_ne h _

@[simp] theorem Hw.rd_bump_same (m : Hw) (f : Field) : (m.bump f).rd f = satN f.width (m.rd f + 1) :=
  Hw.rd_wr_lt (satN_lt _ _)

@[simp] theorem Hw.rd_bump_other {m : Hw} {f g : Field} (h : g.key ≠ f.key) : (m.bump f).rd g = m.rd g :=
  Hw.rd_wr_ne h _

@[simp] theorem Hw.rd_wrI_same (m : Hw) (f : Field) (v : Int) : (m.wrI f v).rd f = unsignedOf f.width v :=
  Hw.rd_wr_lt (unsignedOf_lt _ _)

@[simp] theorem Hw.rd_wrI_other {m : Hw} {f g : Field} (h : g.key ≠ f.key) (v : Int) : (m.wrI f v).rd g = m.rd g :=
  Hw.rd_wr_ne h _

@[simp] theorem Hw.rd_wrB_same {m : Hw} {f : Field} (h : 1 < 2 ^ f.width) (b : Bool) : (m.wrB f b).rd f = b2n b :=
  Hw.rd_wr_lt (Nat.lt_of_le_of_lt (b2n_le b) h)

@[simp] theorem Hw.rd_wrB_other {m : Hw} {f g : Field} (h : g.key ≠ f.key) (b : Bool) : (m.wrB f b).rd g = m.rd g :=
  Hw.rd_wr_ne h _

@[simp] theorem Hw.rd_wr_b2n {m : Hw} {f : Field} (h : 1 < 2 ^ f.width) (b : Bool) : (m.wr f (b2n b)).rd f = b2n b :=
  Hw.rd_wr_lt (Nat.lt_of_le_of_lt (b2n_le b) h)

@[simp] theorem Hw.rd_wrBit_other {m : Hw} {f g : Field} (h : g.key ≠ f.key) (i : Nat) (b : Bool) :
    (m.wrBit f i b).rd g = m.rd g :=
  Hw.rd_wr_ne h _

@[simp] theorem Hw.rd_faultW_other {m : Hw} {w : FaultWord} {f : Field} (h : f.key ≠ Reg.FLT_STATUS_LOST.key) :
    (m.faultW w).rd f = m.rd f :=
  Hw.faultW_rd h

@[simp] theorem Hw.rd_hfaultW_other {m : Hw} {w : FaultWord} {f : Field} (h : f.key ≠ Reg.ALERT_SRC_SRC.key) :
    (m.hfaultW w).rd f = m.rd f :=
  Hw.hfaultW_rd h

@[simp] theorem Hw.on_eq_true {m : Hw} {f : Field} : m.on f = true ↔ m.rd f ≠ 0 := by simp [Hw.on]

@[simp] theorem Hw.on_eq_false {m : Hw} {f : Field} : m.on f = false ↔ m.rd f = 0 := by simp [Hw.on]

@[simp] theorem Hw.mode_rd (m : Hw) : m.mode = m.rd Reg.MODE_STATUS_MODE := rfl

theorem Hw.frozen_eq_true {m : Hw} : m.frozen = true ↔ m.rd Reg.FRM_STATUS_FRZ ≠ 0 := Hw.on_eq_true

theorem Hw.frozen_eq_false {m : Hw} : m.frozen = false ↔ m.rd Reg.FRM_STATUS_FRZ = 0 := Hw.on_eq_false

@[simp] theorem Hw.record_rd_other {m : Hw} {k : RecKind} {src : Nat} {p : List Byte} {f : Field}
    (h : f.key / 32 ≠ Reg.TKT_STATUS_INFLIGHT.addr) : (m.record k src p).rd f = m.rd f :=
  Hw.record_getKey m k src p h

@[simp] theorem Hw.submitRec_sub (m : Hw) (x : JRec) :
    (m.submitRec x).sub.map Append.r = m.sub.map Append.r ++ [x] := by
  obtain ⟨r, t, s, e, -, hs⟩ := Hw.submitRec_only m x
  rw [e]
  exact hs

@[simp] theorem Hw.record_sub (m : Hw) (k : RecKind) (src : Nat) (p : List Byte) :
    (m.record k src p).sub.map Append.r = m.sub.map Append.r ++ [m.mkRec k src p] := Hw.submitRec_sub m _

@[simp] theorem Hw.mkRec_kind (m : Hw) (k : RecKind) (src : Nat) (p : List Byte) :
    (m.mkRec k src p).kind = k.code := rfl

@[simp] theorem Hw.mkRec_src (m : Hw) (k : RecKind) (src : Nat) (p : List Byte) : (m.mkRec k src p).src = src := rfl

theorem State.next_on_self {s : State} {f : Hw → Hw} (h : f s.hw = s.hw) :
    (Host.Outcome.next (s.on f) : Host.Outcome State Fault Refusal) = .next s := by
  rw [State.on, h]

theorem State.next_on_eq {s : State} {f : Hw → Hw} {m : Hw} (h : f s.hw = m) :
    (Host.Outcome.next (s.on f) : Host.Outcome State Fault Refusal) = .next { s with hw := m } := by
  rw [State.on, h]

/-! A block put together from its parts, and a choice between two blocks. -/

@[simp] theorem Hw.rd_mk (m : Hw) {arch : Arch} {seq : Seq} {intake : Intake} {xfer : Xfer} {ph : Phases} {bat :
    Batfet} {chg : Charger} {rails : Rails} {rl : RailLink} {cable : Cable} {flt : Faults} {host : HostIf} {modes :
    Modes} {adc : Adc} {jrn : Jrn} {tkt : Tickets} {twin : Twin} {hp : HostPort} {bus : SensorBus} {wdg : Wdg} {hwdg :
    Wdg} {bist : Bist} {upd : Update} {lb : LoopBack} {sub : List Append} {freeCtr : Nat} (f : Field) : (Hw.mk m.regs
    arch seq intake xfer ph bat chg rails rl cable flt host modes adc jrn tkt twin hp bus wdg hwdg bist upd lb sub
    freeCtr).rd f = m.rd f := rfl

@[simp] theorem Hw.rd_ite {c : Prop} [Decidable c] (a b : Hw) (f : Field) :
    (if c then a else b).rd f = if c then a.rd f else b.rd f := by split <;> rfl

@[simp] theorem Hw.arch_ite {c : Prop} [Decidable c] (a b : Hw) :
    (if c then a else b).arch = if c then a.arch else b.arch := by split <;> rfl

@[simp] theorem Hw.seq_ite {c : Prop} [Decidable c] (a b : Hw) :
    (if c then a else b).seq = if c then a.seq else b.seq := by split <;> rfl

@[simp] theorem Hw.intake_ite {c : Prop} [Decidable c] (a b : Hw) :
    (if c then a else b).intake = if c then a.intake else b.intake := by split <;> rfl

@[simp] theorem Hw.xfer_ite {c : Prop} [Decidable c] (a b : Hw) :
    (if c then a else b).xfer = if c then a.xfer else b.xfer := by split <;> rfl

@[simp] theorem Hw.ph_ite {c : Prop} [Decidable c] (a b : Hw) :
    (if c then a else b).ph = if c then a.ph else b.ph := by split <;> rfl

@[simp] theorem Hw.bat_ite {c : Prop} [Decidable c] (a b : Hw) :
    (if c then a else b).bat = if c then a.bat else b.bat := by split <;> rfl

@[simp] theorem Hw.chg_ite {c : Prop} [Decidable c] (a b : Hw) :
    (if c then a else b).chg = if c then a.chg else b.chg := by split <;> rfl

@[simp] theorem Hw.rails_ite {c : Prop} [Decidable c] (a b : Hw) :
    (if c then a else b).rails = if c then a.rails else b.rails := by split <;> rfl

@[simp] theorem Hw.rl_ite {c : Prop} [Decidable c] (a b : Hw) :
    (if c then a else b).rl = if c then a.rl else b.rl := by split <;> rfl

@[simp] theorem Hw.cable_ite {c : Prop} [Decidable c] (a b : Hw) :
    (if c then a else b).cable = if c then a.cable else b.cable := by split <;> rfl

@[simp] theorem Hw.flt_ite {c : Prop} [Decidable c] (a b : Hw) :
    (if c then a else b).flt = if c then a.flt else b.flt := by split <;> rfl

@[simp] theorem Hw.host_ite {c : Prop} [Decidable c] (a b : Hw) :
    (if c then a else b).host = if c then a.host else b.host := by split <;> rfl

@[simp] theorem Hw.modes_ite {c : Prop} [Decidable c] (a b : Hw) :
    (if c then a else b).modes = if c then a.modes else b.modes := by split <;> rfl

@[simp] theorem Hw.adc_ite {c : Prop} [Decidable c] (a b : Hw) :
    (if c then a else b).adc = if c then a.adc else b.adc := by split <;> rfl

@[simp] theorem Hw.jrn_ite {c : Prop} [Decidable c] (a b : Hw) :
    (if c then a else b).jrn = if c then a.jrn else b.jrn := by split <;> rfl

@[simp] theorem Hw.tkt_ite {c : Prop} [Decidable c] (a b : Hw) :
    (if c then a else b).tkt = if c then a.tkt else b.tkt := by split <;> rfl

@[simp] theorem Hw.twin_ite {c : Prop} [Decidable c] (a b : Hw) :
    (if c then a else b).twin = if c then a.twin else b.twin := by split <;> rfl

@[simp] theorem Hw.hp_ite {c : Prop} [Decidable c] (a b : Hw) :
    (if c then a else b).hp = if c then a.hp else b.hp := by split <;> rfl

@[simp] theorem Hw.bus_ite {c : Prop} [Decidable c] (a b : Hw) :
    (if c then a else b).bus = if c then a.bus else b.bus := by split <;> rfl

@[simp] theorem Hw.wdg_ite {c : Prop} [Decidable c] (a b : Hw) :
    (if c then a else b).wdg = if c then a.wdg else b.wdg := by split <;> rfl

@[simp] theorem Hw.hwdg_ite {c : Prop} [Decidable c] (a b : Hw) :
    (if c then a else b).hwdg = if c then a.hwdg else b.hwdg := by split <;> rfl

@[simp] theorem Hw.bist_ite {c : Prop} [Decidable c] (a b : Hw) :
    (if c then a else b).bist = if c then a.bist else b.bist := by split <;> rfl

@[simp] theorem Hw.upd_ite {c : Prop} [Decidable c] (a b : Hw) :
    (if c then a else b).upd = if c then a.upd else b.upd := by split <;> rfl

@[simp] theorem Hw.lb_ite {c : Prop} [Decidable c] (a b : Hw) :
    (if c then a else b).lb = if c then a.lb else b.lb := by split <;> rfl

@[simp] theorem Hw.sub_ite {c : Prop} [Decidable c] (a b : Hw) :
    (if c then a else b).sub = if c then a.sub else b.sub := by split <;> rfl

@[simp] theorem Hw.freeCtr_ite {c : Prop} [Decidable c] (a b : Hw) :
    (if c then a else b).freeCtr = if c then a.freeCtr else b.freeCtr := by split <;> rfl

end Sys2Proof.Machine
end

