-- ==== Sys2Proof/Proofs/Kept.lean ====
section
/-! PROOFS. What each operation leaves: the reads and parts that the lemmas about the commands ask for, from the frame
of the operation. -/

namespace Sys2Proof.Machine

set_option Elab.async false

section
variable {sc : List Touch} {m m' : Hw} (h : Within sc m m')
include h

theorem Within.modes_same (hm : (Touch.part .modes).within sc = false := by decide +kernel) :
    m'.modes = { m.modes with copyA := m'.modes.copyA, copyB := m'.modes.copyB, keySlot := m'.modes.keySlot } :=
  h.kept .modes hm

theorem Within.adc_same (hm : (Touch.part .adc).within sc = false := by decide +kernel) :
    m'.adc = { m.adc with copyA := m'.adc.copyA, copyB := m'.adc.copyB } :=
  h.kept .adc hm

theorem Within.jrn_same (hm : (Touch.part .journal).within sc = false := by decide +kernel) :
    m'.jrn = { m.jrn with blocks := m'.jrn.blocks } :=
  h.kept .journal hm

theorem Within.upd_same (hm : (Touch.part .update).within sc = false := by decide +kernel) :
    m'.upd = { m.upd with slots := m'.upd.slots } :=
  h.kept .update hm

theorem Within.modes_eq (hm : (Touch.part .modes).within sc = false := by decide +kernel)
    (hc : (Touch.part .cfgCopies).within sc = false := by decide +kernel) : m'.modes = m.modes := by
  have hmodes := h.modes_same hm
  obtain ⟨hA, hB, hkey⟩ := h.kept .cfgCopies hc
  rw [hmodes, hA, hB, hkey]

theorem Within.adc_eq (hm : (Touch.part .adc).within sc = false := by decide +kernel)
    (hc : (Touch.part .calCopies).within sc = false := by decide +kernel) : m'.adc = m.adc := by
  have hadc := h.adc_same hm
  obtain ⟨hA, hB⟩ := h.kept .calCopies hc
  rw [hadc, hA, hB]

theorem Within.jrn_eq (hm : (Touch.part .journal).within sc = false := by decide +kernel)
    (hc : (Touch.part .nand).within sc = false := by decide +kernel) : m'.jrn = m.jrn := by
  have hjrn := h.jrn_same hm
  have hblocks : m'.jrn.blocks = _ := h.kept .nand hc
  rw [hjrn, hblocks]

theorem Within.upd_eq (hm : (Touch.part .update).within sc = false := by decide +kernel)
    (hc : (Touch.part .slots).within sc = false := by decide +kernel) : m'.upd = m.upd := by
  have hupd := h.upd_same hm
  have hslots : m'.upd.slots = _ := h.kept .slots hc
  rw [hupd, hslots]

end

@[simp] theorem Hw.rd_alertSet {m : Hw} {b} {f : Field} (h : Touch.spares (parts [.alertPad] ++ Machine.regs
    [Reg.ALERT_SRC_SRC]) f.key = true) :
    (m.alertSet b).rd f = m.rd f := (Within.refl.alertSet (hs := Touch.covers_refl _)).rd f h

@[simp] theorem Hw.rd_atT {m : Hw} {t} {f : Field} (h : Touch.spares (Touch.time) f.key = true) :
    (m.atT t).rd f = m.rd f := (Within.refl.atT (hs := Touch.covers_refl _)).rd f h

@[simp] theorem Hw.attachWake_cable (m : Hw) : (m.attachWake).cable = m.cable := (Within.refl.attachWake (hs :=
    Touch.covers_refl _)).kept .cable

@[simp] theorem Hw.rd_attachWake {m : Hw} {f : Field} (h : Touch.spares (parts [.hwdg, .lb, .sidebands] ++
    Machine.regs [Reg.HP_STATUS_DOZE, Reg.HLB_STATUS_STATE, Reg.HLB_STATUS_REASON]) f.key = true) :
    (m.attachWake).rd f = m.rd f := (Within.refl.attachWake (hs := Touch.covers_refl _)).rd f h

@[simp] theorem Hw.rd_batfet {m : Hw} {f : Field} (h : Touch.spares (Machine.regs [Reg.BATFET_STATUS_STATE]) f.key
    = true) :
    (m.batfet).rd f = m.rd f := (Within.refl.batfet (hs := Touch.covers_refl _)).rd f h

@[simp] theorem Hw.cableEvent_cable (m : Hw) {i before transition} : (m.cableEvent i before transition).cable =
    m.cable := (Within.refl.cableEvent (hs := Touch.covers_refl _)).kept .cable

@[simp] theorem Hw.convert_flt_input (m : Hw) {vtb vsys} : (m.convert vtb vsys).flt.input = m.flt.input :=
    ((Within.refl.convert (hs := Touch.covers_refl _)).kept .faultInput).1

@[simp] theorem Hw.rd_convert {m : Hw} {vtb vsys} {f : Field} (h : Touch.spares (parts [.ph] ++ Machine.regs
    [Reg.PH_STATUS_CMODE, Reg.PH_STATUS_BAND]) f.key = true) :
    (m.convert vtb vsys).rd f = m.rd f := (Within.refl.convert (hs := Touch.covers_refl _)).rd f h

@[simp] theorem Hw.rd_convertNow {m : Hw} {f : Field} (h : Touch.spares (parts [.ph] ++ Machine.regs
    [Reg.PH_STATUS_CMODE, Reg.PH_STATUS_BAND]) f.key = true) :
    (m.convertNow).rd f = m.rd f := (Within.refl.convertNow (hs := Touch.covers_refl _)).rd f h

@[simp] theorem Hw.countFrozen_bat (m : Hw) : (m.countFrozen).bat = m.bat := (Within.refl.countFrozen (hs :=
    Touch.covers_refl _)).kept .bat

@[simp] theorem Hw.countFrozen_bist (m : Hw) : (m.countFrozen).bist = m.bist := (Within.refl.countFrozen (hs :=
    Touch.covers_refl _)).kept .bist

@[simp] theorem Hw.countFrozen_bus (m : Hw) : (m.countFrozen).bus = m.bus := (Within.refl.countFrozen (hs :=
    Touch.covers_refl _)).kept .bus

@[simp] theorem Hw.countFrozen_cable (m : Hw) : (m.countFrozen).cable = m.cable := (Within.refl.countFrozen (hs :=
    Touch.covers_refl _)).kept .cable

@[simp] theorem Hw.countFrozen_chg (m : Hw) : (m.countFrozen).chg = m.chg := (Within.refl.countFrozen (hs :=
    Touch.covers_refl _)).kept .chg

@[simp] theorem Hw.countFrozen_freeCtr (m : Hw) : (m.countFrozen).freeCtr = m.freeCtr := (Within.refl.countFrozen
    (hs := Touch.covers_refl _)).kept .freeCtr

@[simp] theorem Hw.countFrozen_hp (m : Hw) : (m.countFrozen).hp = m.hp := (Within.refl.countFrozen (hs :=
    Touch.covers_refl _)).kept .hp

@[simp] theorem Hw.countFrozen_hwdg (m : Hw) : (m.countFrozen).hwdg = m.hwdg := (Within.refl.countFrozen (hs :=
    Touch.covers_refl _)).kept .hwdg

@[simp] theorem Hw.countFrozen_intake (m : Hw) : (m.countFrozen).intake = m.intake := (Within.refl.countFrozen (hs
    := Touch.covers_refl _)).kept .intake

@[simp] theorem Hw.countFrozen_lb (m : Hw) : (m.countFrozen).lb = m.lb := (Within.refl.countFrozen (hs :=
    Touch.covers_refl _)).kept .lb

@[simp] theorem Hw.countFrozen_ph (m : Hw) : (m.countFrozen).ph = m.ph := (Within.refl.countFrozen (hs :=
    Touch.covers_refl _)).kept .ph

@[simp] theorem Hw.countFrozen_rails (m : Hw) : (m.countFrozen).rails = m.rails := (Within.refl.countFrozen (hs :=
    Touch.covers_refl _)).kept .rails

@[simp] theorem Hw.countFrozen_rl (m : Hw) : (m.countFrozen).rl = m.rl := (Within.refl.countFrozen (hs :=
    Touch.covers_refl _)).kept .rl

@[simp] theorem Hw.countFrozen_sub (m : Hw) : (m.countFrozen).sub = m.sub := (Within.refl.countFrozen (hs :=
    Touch.covers_refl _)).kept .sub

@[simp] theorem Hw.countFrozen_twin (m : Hw) : (m.countFrozen).twin = m.twin := (Within.refl.countFrozen (hs :=
    Touch.covers_refl _)).kept .twin

@[simp] theorem Hw.countFrozen_wdg (m : Hw) : (m.countFrozen).wdg = m.wdg := (Within.refl.countFrozen (hs :=
    Touch.covers_refl _)).kept .wdg

@[simp] theorem Hw.countFrozen_xfer (m : Hw) : (m.countFrozen).xfer = m.xfer := (Within.refl.countFrozen (hs :=
    Touch.covers_refl _)).kept .xfer

@[simp] theorem Hw.rd_countFrozen {m : Hw} {f : Field} (h : Touch.spares (parts [.seq, .journal]) f.key = true) :
    (m.countFrozen).rd f = m.rd f := (Within.refl.countFrozen (hs := Touch.covers_refl _)).rd f h

@[simp] theorem Hw.rd_driveQuiet {m : Hw} {b} {f : Field} (h : Touch.spares (parts [.sidebands]) f.key = true) :
    (m.driveQuiet b).rd f = m.rd f := (Within.refl.driveQuiet (hs := Touch.covers_refl _)).rd f h

@[simp] theorem Hw.rd_endTag {m : Hw} {n code detail} {f : Field} (h : Touch.spares (Touch.issuing ++ parts
    [.rails, .adc, .bus, .waits, .sub, .rl] ++ Machine.regs [Reg.RL_STATUS_EVQ]) f.key = true) :
    (m.endTag n code detail).rd f = m.rd f := (Within.refl.endTag (hs := Touch.covers_refl _)).rd f h

@[simp] theorem Hw.rd_fault {m : Hw} {k detail} {f : Field} (h : Touch.spares (parts [.faultInput] ++ Machine.regs
    [Reg.FLT_STATUS_LOST]) f.key = true) :
    (m.fault k detail).rd f = m.rd f := (Within.refl.fault (hs := Touch.covers_refl _)).rd f h

@[simp] theorem Hw.rd_faultAt {m : Hw} {k src detail} {f : Field} (h : Touch.spares (parts [.faultInput] ++
    Machine.regs [Reg.FLT_STATUS_LOST]) f.key = true) :
    (m.faultAt k src detail).rd f = m.rd f := (Within.refl.faultAt (hs := Touch.covers_refl _)).rd f h

@[simp] theorem Hw.fenceBit_flt_input (m : Hw) {unit} : (m.fenceBit unit).flt.input = m.flt.input :=
    ((Within.refl.fenceBit (hs := Touch.covers_refl _)).kept .faultInput).1

@[simp] theorem Hw.fenceBit_adc (m : Hw) {unit} : (m.fenceBit unit).adc = m.adc := (Within.refl.fenceBit (hs :=
    Touch.covers_refl _)).adc_eq

@[simp] theorem Hw.fenceBit_bat (m : Hw) {unit} : (m.fenceBit unit).bat = m.bat := (Within.refl.fenceBit (hs :=
    Touch.covers_refl _)).kept .bat

@[simp] theorem Hw.fenceBit_bist (m : Hw) {unit} : (m.fenceBit unit).bist = m.bist := (Within.refl.fenceBit (hs :=
    Touch.covers_refl _)).kept .bist

@[simp] theorem Hw.fenceBit_bus (m : Hw) {unit} : (m.fenceBit unit).bus = m.bus := (Within.refl.fenceBit (hs :=
    Touch.covers_refl _)).kept .bus

@[simp] theorem Hw.fenceBit_cable (m : Hw) {unit} : (m.fenceBit unit).cable = m.cable := (Within.refl.fenceBit (hs
    := Touch.covers_refl _)).kept .cable

@[simp] theorem Hw.fenceBit_chg (m : Hw) {unit} : (m.fenceBit unit).chg = m.chg := (Within.refl.fenceBit (hs :=
    Touch.covers_refl _)).kept .chg

@[simp] theorem Hw.fenceBit_freeCtr (m : Hw) {unit} : (m.fenceBit unit).freeCtr = m.freeCtr :=
    (Within.refl.fenceBit (hs := Touch.covers_refl _)).kept .freeCtr

@[simp] theorem Hw.fenceBit_hp (m : Hw) {unit} : (m.fenceBit unit).hp = m.hp := (Within.refl.fenceBit (hs :=
    Touch.covers_refl _)).kept .hp

@[simp] theorem Hw.fenceBit_hwdg (m : Hw) {unit} : (m.fenceBit unit).hwdg = m.hwdg := (Within.refl.fenceBit (hs :=
    Touch.covers_refl _)).kept .hwdg

@[simp] theorem Hw.fenceBit_intake (m : Hw) {unit} : (m.fenceBit unit).intake = m.intake := (Within.refl.fenceBit
    (hs := Touch.covers_refl _)).kept .intake

@[simp] theorem Hw.fenceBit_jrn (m : Hw) {unit} : (m.fenceBit unit).jrn = m.jrn := (Within.refl.fenceBit (hs :=
    Touch.covers_refl _)).jrn_eq

@[simp] theorem Hw.fenceBit_lb (m : Hw) {unit} : (m.fenceBit unit).lb = m.lb := (Within.refl.fenceBit (hs :=
    Touch.covers_refl _)).kept .lb

@[simp] theorem Hw.fenceBit_modes (m : Hw) {unit} : (m.fenceBit unit).modes = m.modes := (Within.refl.fenceBit (hs
    := Touch.covers_refl _)).modes_eq

@[simp] theorem Hw.fenceBit_ph (m : Hw) {unit} : (m.fenceBit unit).ph = m.ph := (Within.refl.fenceBit (hs :=
    Touch.covers_refl _)).kept .ph

@[simp] theorem Hw.fenceBit_rails (m : Hw) {unit} : (m.fenceBit unit).rails = m.rails := (Within.refl.fenceBit (hs
    := Touch.covers_refl _)).kept .rails

@[simp] theorem Hw.fenceBit_rl (m : Hw) {unit} : (m.fenceBit unit).rl = m.rl := (Within.refl.fenceBit (hs :=
    Touch.covers_refl _)).kept .rl

@[simp] theorem Hw.fenceBit_seq (m : Hw) {unit} : (m.fenceBit unit).seq = m.seq := (Within.refl.fenceBit (hs :=
    Touch.covers_refl _)).kept .seq

@[simp] theorem Hw.fenceBit_sub (m : Hw) {unit} : (m.fenceBit unit).sub = m.sub := (Within.refl.fenceBit (hs :=
    Touch.covers_refl _)).kept .sub

@[simp] theorem Hw.fenceBit_twin (m : Hw) {unit} : (m.fenceBit unit).twin = m.twin := (Within.refl.fenceBit (hs :=
    Touch.covers_refl _)).kept .twin

@[simp] theorem Hw.fenceBit_upd (m : Hw) {unit} : (m.fenceBit unit).upd = m.upd := (Within.refl.fenceBit (hs :=
    Touch.covers_refl _)).upd_eq

@[simp] theorem Hw.fenceBit_wdg (m : Hw) {unit} : (m.fenceBit unit).wdg = m.wdg := (Within.refl.fenceBit (hs :=
    Touch.covers_refl _)).kept .wdg

@[simp] theorem Hw.fenceBit_xfer (m : Hw) {unit} : (m.fenceBit unit).xfer = m.xfer := (Within.refl.fenceBit (hs :=
    Touch.covers_refl _)).kept .xfer

@[simp] theorem Hw.foldback_flt_input (m : Hw) {set} : (m.foldback set).flt.input = m.flt.input :=
    ((Within.refl.foldback (hs := Touch.covers_refl _)).kept .faultInput).1

@[simp] theorem Hw.foldback_adc (m : Hw) {set} : (m.foldback set).adc = m.adc := (Within.refl.foldback (hs :=
    Touch.covers_refl _)).adc_eq

@[simp] theorem Hw.foldback_bat (m : Hw) {set} : (m.foldback set).bat = m.bat := (Within.refl.foldback (hs :=
    Touch.covers_refl _)).kept .bat

@[simp] theorem Hw.foldback_bist (m : Hw) {set} : (m.foldback set).bist = m.bist := (Within.refl.foldback (hs :=
    Touch.covers_refl _)).kept .bist

@[simp] theorem Hw.foldback_bus (m : Hw) {set} : (m.foldback set).bus = m.bus := (Within.refl.foldback (hs :=
    Touch.covers_refl _)).kept .bus

@[simp] theorem Hw.foldback_cable (m : Hw) {set} : (m.foldback set).cable = m.cable := (Within.refl.foldback (hs
    := Touch.covers_refl _)).kept .cable

@[simp] theorem Hw.foldback_chg (m : Hw) {set} : (m.foldback set).chg = m.chg := (Within.refl.foldback (hs :=
    Touch.covers_refl _)).kept .chg

@[simp] theorem Hw.foldback_freeCtr (m : Hw) {set} : (m.foldback set).freeCtr = m.freeCtr := (Within.refl.foldback
    (hs := Touch.covers_refl _)).kept .freeCtr

@[simp] theorem Hw.foldback_hp (m : Hw) {set} : (m.foldback set).hp = m.hp := (Within.refl.foldback (hs :=
    Touch.covers_refl _)).kept .hp

@[simp] theorem Hw.foldback_hwdg (m : Hw) {set} : (m.foldback set).hwdg = m.hwdg := (Within.refl.foldback (hs :=
    Touch.covers_refl _)).kept .hwdg

@[simp] theorem Hw.foldback_intake (m : Hw) {set} : (m.foldback set).intake = m.intake := (Within.refl.foldback
    (hs := Touch.covers_refl _)).kept .intake

@[simp] theorem Hw.foldback_jrn (m : Hw) {set} : (m.foldback set).jrn = m.jrn := (Within.refl.foldback (hs :=
    Touch.covers_refl _)).jrn_eq

@[simp] theorem Hw.foldback_lb (m : Hw) {set} : (m.foldback set).lb = m.lb := (Within.refl.foldback (hs :=
    Touch.covers_refl _)).kept .lb

@[simp] theorem Hw.foldback_modes (m : Hw) {set} : (m.foldback set).modes = m.modes := (Within.refl.foldback (hs
    := Touch.covers_refl _)).modes_eq

@[simp] theorem Hw.foldback_rails (m : Hw) {set} : (m.foldback set).rails = m.rails := (Within.refl.foldback (hs
    := Touch.covers_refl _)).kept .rails

@[simp] theorem Hw.foldback_rl (m : Hw) {set} : (m.foldback set).rl = m.rl := (Within.refl.foldback (hs :=
    Touch.covers_refl _)).kept .rl

@[simp] theorem Hw.foldback_seq (m : Hw) {set} : (m.foldback set).seq = m.seq := (Within.refl.foldback (hs :=
    Touch.covers_refl _)).kept .seq

@[simp] theorem Hw.foldback_sub (m : Hw) {set} : (m.foldback set).sub = m.sub := (Within.refl.foldback (hs :=
    Touch.covers_refl _)).kept .sub

@[simp] theorem Hw.foldback_twin (m : Hw) {set} : (m.foldback set).twin = m.twin := (Within.refl.foldback (hs :=
    Touch.covers_refl _)).kept .twin

@[simp] theorem Hw.foldback_upd (m : Hw) {set} : (m.foldback set).upd = m.upd := (Within.refl.foldback (hs :=
    Touch.covers_refl _)).upd_eq

@[simp] theorem Hw.foldback_wdg (m : Hw) {set} : (m.foldback set).wdg = m.wdg := (Within.refl.foldback (hs :=
    Touch.covers_refl _)).kept .wdg

@[simp] theorem Hw.foldback_xfer (m : Hw) {set} : (m.foldback set).xfer = m.xfer := (Within.refl.foldback (hs :=
    Touch.covers_refl _)).kept .xfer

@[simp] theorem Hw.freezeEnd_adc (m : Hw) {full} : (m.freezeEnd full).adc = m.adc := (Within.refl.freezeEnd (hs :=
    Touch.covers_refl _)).adc_eq

@[simp] theorem Hw.freezeEnd_bist (m : Hw) {full} : (m.freezeEnd full).bist = m.bist := (Within.refl.freezeEnd (hs
    := Touch.covers_refl _)).kept .bist

@[simp] theorem Hw.freezeEnd_bus (m : Hw) {full} : (m.freezeEnd full).bus = m.bus := (Within.refl.freezeEnd (hs :=
    Touch.covers_refl _)).kept .bus

@[simp] theorem Hw.freezeEnd_cable (m : Hw) {full} : (m.freezeEnd full).cable = m.cable := (Within.refl.freezeEnd
    (hs := Touch.covers_refl _)).kept .cable

@[simp] theorem Hw.freezeEnd_freeCtr (m : Hw) {full} : (m.freezeEnd full).freeCtr = m.freeCtr :=
    (Within.refl.freezeEnd (hs := Touch.covers_refl _)).kept .freeCtr

@[simp] theorem Hw.freezeEnd_hp (m : Hw) {full} : (m.freezeEnd full).hp = m.hp := (Within.refl.freezeEnd (hs :=
    Touch.covers_refl _)).kept .hp

@[simp] theorem Hw.freezeEnd_hwdg (m : Hw) {full} : (m.freezeEnd full).hwdg = m.hwdg := (Within.refl.freezeEnd (hs
    := Touch.covers_refl _)).kept .hwdg

@[simp] theorem Hw.freezeEnd_intake (m : Hw) {full} : (m.freezeEnd full).intake = m.intake :=
    (Within.refl.freezeEnd (hs := Touch.covers_refl _)).kept .intake

@[simp] theorem Hw.freezeEnd_lb (m : Hw) {full} : (m.freezeEnd full).lb = m.lb := (Within.refl.freezeEnd (hs :=
    Touch.covers_refl _)).kept .lb

@[simp] theorem Hw.freezeEnd_modes (m : Hw) {full} : (m.freezeEnd full).modes = m.modes := (Within.refl.freezeEnd
    (hs := Touch.covers_refl _)).modes_eq

@[simp] theorem Hw.freezeEnd_rl (m : Hw) {full} : (m.freezeEnd full).rl = m.rl := (Within.refl.freezeEnd (hs :=
    Touch.covers_refl _)).kept .rl

@[simp] theorem Hw.freezeEnd_sub (m : Hw) {full} : (m.freezeEnd full).sub = m.sub := (Within.refl.freezeEnd (hs :=
    Touch.covers_refl _)).kept .sub

@[simp] theorem Hw.freezeEnd_twin (m : Hw) {full} : (m.freezeEnd full).twin = m.twin := (Within.refl.freezeEnd (hs
    := Touch.covers_refl _)).kept .twin

@[simp] theorem Hw.freezeEnd_upd (m : Hw) {full} : (m.freezeEnd full).upd = m.upd := (Within.refl.freezeEnd (hs :=
    Touch.covers_refl _)).upd_eq

@[simp] theorem Hw.freezeEnd_wdg (m : Hw) {full} : (m.freezeEnd full).wdg = m.wdg := (Within.refl.freezeEnd (hs :=
    Touch.covers_refl _)).kept .wdg

@[simp] theorem Hw.freezeEnd_xfer (m : Hw) {full} : (m.freezeEnd full).xfer = m.xfer := (Within.refl.freezeEnd (hs
    := Touch.covers_refl _)).kept .xfer

@[simp] theorem Hw.rd_freezeEnd {m : Hw} {full} {f : Field} (h : Touch.spares (Touch.freezeEnd) f.key = true) :
    (m.freezeEnd full).rd f = m.rd f := (Within.refl.freezeEnd (hs := Touch.covers_refl _)).rd f h

@[simp] theorem Hw.freezeStop_adc (m : Hw) : (m.freezeStop).adc = m.adc := (Within.refl.freezeStop (hs :=
    Touch.covers_refl _)).adc_eq

@[simp] theorem Hw.freezeStop_bat (m : Hw) : (m.freezeStop).bat = m.bat := (Within.refl.freezeStop (hs :=
    Touch.covers_refl _)).kept .bat

@[simp] theorem Hw.freezeStop_bist (m : Hw) : (m.freezeStop).bist = m.bist := (Within.refl.freezeStop (hs :=
    Touch.covers_refl _)).kept .bist

@[simp] theorem Hw.freezeStop_bus (m : Hw) : (m.freezeStop).bus = m.bus := (Within.refl.freezeStop (hs :=
    Touch.covers_refl _)).kept .bus

@[simp] theorem Hw.freezeStop_cable (m : Hw) : (m.freezeStop).cable = m.cable := (Within.refl.freezeStop (hs :=
    Touch.covers_refl _)).kept .cable

@[simp] theorem Hw.freezeStop_chg (m : Hw) : (m.freezeStop).chg = m.chg := (Within.refl.freezeStop (hs :=
    Touch.covers_refl _)).kept .chg

@[simp] theorem Hw.freezeStop_freeCtr (m : Hw) : (m.freezeStop).freeCtr = m.freeCtr := (Within.refl.freezeStop (hs
    := Touch.covers_refl _)).kept .freeCtr

@[simp] theorem Hw.freezeStop_hp (m : Hw) : (m.freezeStop).hp = m.hp := (Within.refl.freezeStop (hs :=
    Touch.covers_refl _)).kept .hp

@[simp] theorem Hw.freezeStop_hwdg (m : Hw) : (m.freezeStop).hwdg = m.hwdg := (Within.refl.freezeStop (hs :=
    Touch.covers_refl _)).kept .hwdg

@[simp] theorem Hw.freezeStop_intake (m : Hw) : (m.freezeStop).intake = m.intake := (Within.refl.freezeStop (hs :=
    Touch.covers_refl _)).kept .intake

@[simp] theorem Hw.freezeStop_lb (m : Hw) : (m.freezeStop).lb = m.lb := (Within.refl.freezeStop (hs :=
    Touch.covers_refl _)).kept .lb

@[simp] theorem Hw.freezeStop_modes (m : Hw) : (m.freezeStop).modes = m.modes := (Within.refl.freezeStop (hs :=
    Touch.covers_refl _)).modes_eq

@[simp] theorem Hw.freezeStop_ph (m : Hw) : (m.freezeStop).ph = m.ph := (Within.refl.freezeStop (hs :=
    Touch.covers_refl _)).kept .ph

@[simp] theorem Hw.freezeStop_rl (m : Hw) : (m.freezeStop).rl = m.rl := (Within.refl.freezeStop (hs :=
    Touch.covers_refl _)).kept .rl

@[simp] theorem Hw.freezeStop_sub (m : Hw) : (m.freezeStop).sub = m.sub := (Within.refl.freezeStop (hs :=
    Touch.covers_refl _)).kept .sub

@[simp] theorem Hw.freezeStop_twin (m : Hw) : (m.freezeStop).twin = m.twin := (Within.refl.freezeStop (hs :=
    Touch.covers_refl _)).kept .twin

@[simp] theorem Hw.freezeStop_upd (m : Hw) : (m.freezeStop).upd = m.upd := (Within.refl.freezeStop (hs :=
    Touch.covers_refl _)).upd_eq

@[simp] theorem Hw.freezeStop_wdg (m : Hw) : (m.freezeStop).wdg = m.wdg := (Within.refl.freezeStop (hs :=
    Touch.covers_refl _)).kept .wdg

@[simp] theorem Hw.freezeStop_xfer (m : Hw) : (m.freezeStop).xfer = m.xfer := (Within.refl.freezeStop (hs :=
    Touch.covers_refl _)).kept .xfer

@[simp] theorem Hw.frsClose_intake (m : Hw) {vbus} : (m.frsClose vbus).intake = m.intake := (Within.refl.frsClose
    (hs := Touch.covers_refl _)).kept .intake

@[simp] theorem Hw.rd_frsClose {m : Hw} {vbus} {f : Field} (h : Touch.spares (Touch.hostFault ++ parts [.latches,
    .linkHost, .mailbox, .cable] ++ Machine.regs [Reg.INTAKE_STATUS_ACTIVE, Reg.INTAKE_STATUS_SRC_CHANGE,
    Reg.INTAKE_EVENTS_SWITCHOVERS, Reg.INTAKE_LIM_EFF_LIM, Reg.INTAKE_LIM_EFF_CAUSE, Reg.INTAKE_STATUS_RAMP]) f.key =
    true) :
    (m.frsClose vbus).rd f = m.rd f := (Within.refl.frsClose (hs := Touch.covers_refl _)).rd f h

@[simp] theorem Hw.rd_h2Up {m : Hw} {f : Field} (h : Touch.spares (parts [.engines, .intake, .hostReady,
    .hostBusy, .hwdg, .linkHost, .mailbox] ++ Machine.regs [Reg.ID_STATUS_HOST_READY, Reg.HWDG_STATUS_ARMED,
    Reg.TL_H_STATUS_STATE]) f.key = true) :
    (m.h2Up).rd f = m.rd f := (Within.refl.h2Up (hs := Touch.covers_refl _)).rd f h

@[simp] theorem Hw.rd_hfault {m : Hw} {k detail} {f : Field} (h : Touch.spares (Touch.hostFault) f.key = true) :
    (m.hfault k detail).rd f = m.rd f := (Within.refl.hfault (hs := Touch.covers_refl _)).rd f h

@[simp] theorem Hw.hostBlank_arch_engines (m : Hw) : (m.hostBlank).arch.engines = m.arch.engines :=
    (Within.refl.hostBlank (hs := Touch.covers_refl _)).kept .engines

@[simp] theorem Hw.hostBlank_host_cache (m : Hw) : (m.hostBlank).host.cache = m.host.cache :=
    (Within.refl.hostBlank (hs := Touch.covers_refl _)).kept .results

@[simp] theorem Hw.hostBlank_host_eventFn (m : Hw) : (m.hostBlank).host.eventFn = m.host.eventFn :=
    (Within.refl.hostBlank (hs := Touch.covers_refl _)).kept .eventLevel

@[simp] theorem Hw.hostBlank_host_f (m : Hw) : (m.hostBlank).host.f = m.host.f := (Within.refl.hostBlank (hs :=
    Touch.covers_refl _)).kept .linkField

@[simp] theorem Hw.hostBlank_host_fieldAsleep (m : Hw) : (m.hostBlank).host.fieldAsleep = m.host.fieldAsleep :=
    (Within.refl.hostBlank (hs := Touch.covers_refl _)).kept .fieldAsleep

@[simp] theorem Hw.hostBlank_host_n7 (m : Hw) : (m.hostBlank).host.n7 = m.host.n7 := (Within.refl.hostBlank (hs :=
    Touch.covers_refl _)).kept .stream7

@[simp] theorem Hw.hostBlank_host_pinLow (m : Hw) : (m.hostBlank).host.pinLow = m.host.pinLow :=
    (Within.refl.hostBlank (hs := Touch.covers_refl _)).kept .pinLow

@[simp] theorem Hw.hostBlank_host_work (m : Hw) : (m.hostBlank).host.work = m.host.work := (Within.refl.hostBlank
    (hs := Touch.covers_refl _)).kept .work

@[simp] theorem Hw.hostBlank_adc (m : Hw) : (m.hostBlank).adc = m.adc := (Within.refl.hostBlank (hs :=
    Touch.covers_refl _)).adc_eq

@[simp] theorem Hw.hostBlank_bat (m : Hw) : (m.hostBlank).bat = m.bat := (Within.refl.hostBlank (hs :=
    Touch.covers_refl _)).kept .bat

@[simp] theorem Hw.hostBlank_bist (m : Hw) : (m.hostBlank).bist = m.bist := (Within.refl.hostBlank (hs :=
    Touch.covers_refl _)).kept .bist

@[simp] theorem Hw.hostBlank_bus (m : Hw) : (m.hostBlank).bus = m.bus := (Within.refl.hostBlank (hs :=
    Touch.covers_refl _)).kept .bus

@[simp] theorem Hw.hostBlank_chg (m : Hw) : (m.hostBlank).chg = m.chg := (Within.refl.hostBlank (hs :=
    Touch.covers_refl _)).kept .chg

@[simp] theorem Hw.hostBlank_freeCtr (m : Hw) : (m.hostBlank).freeCtr = m.freeCtr := (Within.refl.hostBlank (hs :=
    Touch.covers_refl _)).kept .freeCtr

@[simp] theorem Hw.hostBlank_hp (m : Hw) : (m.hostBlank).hp = m.hp := (Within.refl.hostBlank (hs :=
    Touch.covers_refl _)).kept .hp

@[simp] theorem Hw.hostBlank_hwdg (m : Hw) : (m.hostBlank).hwdg = m.hwdg := (Within.refl.hostBlank (hs :=
    Touch.covers_refl _)).kept .hwdg

@[simp] theorem Hw.hostBlank_jrn (m : Hw) : (m.hostBlank).jrn = m.jrn := (Within.refl.hostBlank (hs :=
    Touch.covers_refl _)).jrn_eq

@[simp] theorem Hw.hostBlank_lb (m : Hw) : (m.hostBlank).lb = m.lb := (Within.refl.hostBlank (hs :=
    Touch.covers_refl _)).kept .lb

@[simp] theorem Hw.hostBlank_modes (m : Hw) : (m.hostBlank).modes = m.modes := (Within.refl.hostBlank (hs :=
    Touch.covers_refl _)).modes_eq

@[simp] theorem Hw.hostBlank_ph (m : Hw) : (m.hostBlank).ph = m.ph := (Within.refl.hostBlank (hs :=
    Touch.covers_refl _)).kept .ph

@[simp] theorem Hw.hostBlank_rails (m : Hw) : (m.hostBlank).rails = m.rails := (Within.refl.hostBlank (hs :=
    Touch.covers_refl _)).kept .rails

@[simp] theorem Hw.hostBlank_rl (m : Hw) : (m.hostBlank).rl = m.rl := (Within.refl.hostBlank (hs :=
    Touch.covers_refl _)).kept .rl

@[simp] theorem Hw.hostBlank_seq (m : Hw) : (m.hostBlank).seq = m.seq := (Within.refl.hostBlank (hs :=
    Touch.covers_refl _)).kept .seq

@[simp] theorem Hw.hostBlank_sub (m : Hw) : (m.hostBlank).sub = m.sub := (Within.refl.hostBlank (hs :=
    Touch.covers_refl _)).kept .sub

@[simp] theorem Hw.hostBlank_twin (m : Hw) : (m.hostBlank).twin = m.twin := (Within.refl.hostBlank (hs :=
    Touch.covers_refl _)).kept .twin

@[simp] theorem Hw.hostBlank_upd (m : Hw) : (m.hostBlank).upd = m.upd := (Within.refl.hostBlank (hs :=
    Touch.covers_refl _)).upd_eq

@[simp] theorem Hw.hostBlank_wdg (m : Hw) : (m.hostBlank).wdg = m.wdg := (Within.refl.hostBlank (hs :=
    Touch.covers_refl _)).kept .wdg

@[simp] theorem Hw.lampSettle_bat (m : Hw) : (m.lampSettle).bat = m.bat := (Within.refl.lampSettle (hs :=
    Touch.covers_refl _)).kept .bat

@[simp] theorem Hw.leaveShare_flt_hostBuf (m : Hw) : (m.leaveShare).flt.hostBuf = m.flt.hostBuf :=
    (Within.refl.leaveShare (hs := Touch.covers_refl _)).kept .hostFaults

@[simp] theorem Hw.rd_leaveShare {m : Hw} {f : Field} (h : Touch.spares (parts [.cable, .linkHost, .mailbox] ++
    Machine.regs [Reg.CBL_STATUS_FS_MODE]) f.key = true) :
    (m.leaveShare).rd f = m.rd f := (Within.refl.leaveShare (hs := Touch.covers_refl _)).rd f h

@[simp] theorem Hw.limitWrite_intake (m : Hw) : (m.limitWrite).intake = m.intake := (Within.refl.limitWrite (hs :=
    Touch.covers_refl _)).kept .intake

@[simp] theorem Hw.markRun_bat (m : Hw) {at_ rest} : (m.markRun at_ rest).bat = m.bat := (Within.refl.markRun (hs
    := Touch.covers_refl _)).kept .bat

@[simp] theorem Hw.rd_markRun {m : Hw} {at_ rest} {f : Field} (h : Touch.spares (parts [.seq]) f.key = true) :
    (m.markRun at_ rest).rd f = m.rd f := (Within.refl.markRun (hs := Touch.covers_refl _)).rd f h

@[simp] theorem Hw.noApts_bat (m : Hw) : (m.noApts).bat = m.bat := (Within.refl.noApts (hs := Touch.covers_refl
    _)).kept .bat

@[simp] theorem Hw.rd_noApts {m : Hw} {f : Field} (h : Touch.spares (parts [.seq] ++ Machine.regs
    [Reg.FRM_STATUS_APT]) f.key = true) :
    (m.noApts).rd f = m.rd f := (Within.refl.noApts (hs := Touch.covers_refl _)).rd f h

@[simp] theorem Hw.openActive_cable (m : Hw) : (m.openActive).cable = m.cable := (Within.refl.openActive (hs :=
    Touch.covers_refl _)).kept .cable

@[simp] theorem Hw.openActive_intake (m : Hw) : (m.openActive).intake = m.intake := (Within.refl.openActive (hs :=
    Touch.covers_refl _)).kept .intake

@[simp] theorem Hw.rd_openSource {m : Hw} {f : Field} (h : Touch.spares (Touch.hostFault ++ parts [.cable,
    .latches, .intake, .xfer, .linkHost, .mailbox] ++ Machine.regs [Reg.INTAKE_STATUS_ACTIVE,
    Reg.INTAKE_STATUS_SRC_CHANGE, Reg.INTAKE_EVENTS_SWITCHOVERS, Reg.INTAKE_LIM_EFF_LIM, Reg.INTAKE_LIM_EFF_CAUSE,
    Reg.INTAKE_STATUS_RAMP]) f.key = true) :
    (m.openSource).rd f = m.rd f := (Within.refl.openSource (hs := Touch.covers_refl _)).rd f h

@[simp] theorem Hw.orderXfer_flt_input (m : Hw) {dir grant} : (m.orderXfer dir grant).flt.input = m.flt.input :=
    ((Within.refl.orderXfer (hs := Touch.covers_refl _)).kept .faultInput).1

@[simp] theorem Hw.orderXfer_xfer (m : Hw) {dir grant} : (m.orderXfer dir grant).xfer = m.xfer :=
    (Within.refl.orderXfer (hs := Touch.covers_refl _)).kept .xfer

@[simp] theorem Hw.passCurrent_cable (m : Hw) {curr} : (m.passCurrent curr).cable = m.cable :=
    (Within.refl.passCurrent (hs := Touch.covers_refl _)).kept .cable

@[simp] theorem Hw.rd_passCurrent {m : Hw} {curr} {f : Field} (h : Touch.spares (Touch.hostFault ++ parts
    [.intake, .latches] ++ Machine.regs [Reg.INTAKE_LIM_EFF_LIM, Reg.INTAKE_LIM_EFF_CAUSE]) f.key = true) :
    (m.passCurrent curr).rd f = m.rd f := (Within.refl.passCurrent (hs := Touch.covers_refl _)).rd f h

@[simp] theorem Hw.rd_phasesFollow {m : Hw} {old dir} {f : Field} (h : Touch.spares (Touch.phasesStop ++ parts
    [.chg]) f.key = true) :
    (m.phasesFollow old dir).rd f = m.rd f := (Within.refl.phasesFollow (hs := Touch.covers_refl _)).rd f h

@[simp] theorem Hw.polStop_flt_input (m : Hw) {n} : (m.polStop n).flt.input = m.flt.input := ((Within.refl.polStop
    (hs := Touch.covers_refl _)).kept .faultInput).1

@[simp] theorem Hw.polStop_sub (m : Hw) {n} : (m.polStop n).sub = m.sub := (Within.refl.polStop (hs :=
    Touch.covers_refl _)).kept .sub

@[simp] theorem Hw.rd_portFlags {m : Hw} {f : Field} (h : Touch.spares (parts [.cable] ++ Machine.regs
    [Reg.CBL_STATUS_SRC_PERMIT, Reg.CBL_STATUS_FRS_ARMED]) f.key = true) :
    (m.portFlags).rd f = m.rd f := (Within.refl.portFlags (hs := Touch.covers_refl _)).rd f h

@[simp] theorem Hw.powerDomain_arch_engines (m : Hw) {d b} (h : (Touch.part .engines).within (parts [.domains] ++
    Machine.regs (darkFields d)) = false) : (m.powerDomain d b).arch.engines = m.arch.engines :=
    (Within.refl.powerDomain (hs := Touch.covers_refl _)).kept .engines h

@[simp] theorem Hw.rd_powerDomain {m : Hw} {d b} {f : Field} (h : Touch.spares (parts [.domains] ++ Machine.regs
    (darkFields d)) f.key = true) :
    (m.powerDomain d b).rd f = m.rd f := (Within.refl.powerDomain (hs := Touch.covers_refl _)).rd f h

@[simp] theorem Hw.powerLatch_flt_input (m : Hw) {src k} : (m.powerLatch src k).flt.input = m.flt.input :=
    ((Within.refl.powerLatch (hs := Touch.covers_refl _)).kept .faultInput).1

@[simp] theorem Hw.powerLatch_bat (m : Hw) {src k} : (m.powerLatch src k).bat = m.bat := (Within.refl.powerLatch
    (hs := Touch.covers_refl _)).kept .bat

@[simp] theorem Hw.powerLatch_seq (m : Hw) {src k} : (m.powerLatch src k).seq = m.seq := (Within.refl.powerLatch
    (hs := Touch.covers_refl _)).kept .seq

@[simp] theorem Hw.rd_powerLatch {m : Hw} {src k} {f : Field} (h : Touch.spares (Touch.issuing ++ parts [.sub])
    f.key = true) :
    (m.powerLatch src k).rd f = m.rd f := (Within.refl.powerLatch (hs := Touch.covers_refl _)).rd f h

@[simp] theorem Hw.putLatch_adc (m : Hw) {l v} : (m.putLatch l v).adc = m.adc := (Within.refl.putLatch_any (hs :=
    Touch.covers_refl _)).adc_eq

@[simp] theorem Hw.putLatch_bat (m : Hw) {l v} (h : (Touch.part .bat).within (Touch.latchStore l) = false) :
    (m.putLatch l v).bat = m.bat := (Within.refl.putLatch (hs := Touch.covers_refl _)).kept .bat h

@[simp] theorem Hw.putLatch_bist (m : Hw) {l v} (h : (Touch.part .bist).within (Touch.latchStore l) = false) :
    (m.putLatch l v).bist = m.bist := (Within.refl.putLatch (hs := Touch.covers_refl _)).kept .bist h

@[simp] theorem Hw.putLatch_bus (m : Hw) {l v} (h : (Touch.part .bus).within (Touch.latchStore l) = false) :
    (m.putLatch l v).bus = m.bus := (Within.refl.putLatch (hs := Touch.covers_refl _)).kept .bus h

@[simp] theorem Hw.putLatch_cable (m : Hw) {l v} (h : (Touch.part .cable).within (Touch.latchStore l) = false) :
    (m.putLatch l v).cable = m.cable := (Within.refl.putLatch (hs := Touch.covers_refl _)).kept .cable h

@[simp] theorem Hw.putLatch_chg (m : Hw) {l v} (h : (Touch.part .chg).within (Touch.latchStore l) = false) :
    (m.putLatch l v).chg = m.chg := (Within.refl.putLatch (hs := Touch.covers_refl _)).kept .chg h

@[simp] theorem Hw.putLatch_freeCtr (m : Hw) {l v} (h : (Touch.part .freeCtr).within (Touch.latchStore l) = false)
    : (m.putLatch l v).freeCtr = m.freeCtr := (Within.refl.putLatch (hs := Touch.covers_refl _)).kept .freeCtr h

@[simp] theorem Hw.putLatch_hp (m : Hw) {l v} (h : (Touch.part .hp).within (Touch.latchStore l) = false) :
    (m.putLatch l v).hp = m.hp := (Within.refl.putLatch (hs := Touch.covers_refl _)).kept .hp h

@[simp] theorem Hw.putLatch_hwdg (m : Hw) {l v} (h : (Touch.part .hwdg).within (Touch.latchStore l) = false) :
    (m.putLatch l v).hwdg = m.hwdg := (Within.refl.putLatch (hs := Touch.covers_refl _)).kept .hwdg h

@[simp] theorem Hw.putLatch_intake (m : Hw) {l v} (h : (Touch.part .intake).within (Touch.latchStore l) = false) :
    (m.putLatch l v).intake = m.intake := (Within.refl.putLatch (hs := Touch.covers_refl _)).kept .intake h

@[simp] theorem Hw.putLatch_jrn (m : Hw) {l v} : (m.putLatch l v).jrn = m.jrn := (Within.refl.putLatch_any (hs :=
    Touch.covers_refl _)).jrn_eq

@[simp] theorem Hw.putLatch_lb (m : Hw) {l v} (h : (Touch.part .lb).within (Touch.latchStore l) = false) :
    (m.putLatch l v).lb = m.lb := (Within.refl.putLatch (hs := Touch.covers_refl _)).kept .lb h

@[simp] theorem Hw.putLatch_modes (m : Hw) {l v} : (m.putLatch l v).modes = m.modes := (Within.refl.putLatch_any
    (hs := Touch.covers_refl _)).modes_eq

@[simp] theorem Hw.putLatch_ph (m : Hw) {l v} (h : (Touch.part .ph).within (Touch.latchStore l) = false) :
    (m.putLatch l v).ph = m.ph := (Within.refl.putLatch (hs := Touch.covers_refl _)).kept .ph h

@[simp] theorem Hw.putLatch_rails (m : Hw) {l v} (h : (Touch.part .rails).within (Touch.latchStore l) = false) :
    (m.putLatch l v).rails = m.rails := (Within.refl.putLatch (hs := Touch.covers_refl _)).kept .rails h

@[simp] theorem Hw.putLatch_rl (m : Hw) {l v} (h : (Touch.part .rl).within (Touch.latchStore l) = false) :
    (m.putLatch l v).rl = m.rl := (Within.refl.putLatch (hs := Touch.covers_refl _)).kept .rl h

@[simp] theorem Hw.putLatch_seq (m : Hw) {l v} (h : (Touch.part .seq).within (Touch.latchStore l) = false) :
    (m.putLatch l v).seq = m.seq := (Within.refl.putLatch (hs := Touch.covers_refl _)).kept .seq h

@[simp] theorem Hw.putLatch_sub (m : Hw) {l v} (h : (Touch.part .sub).within (Touch.latchStore l) = false) :
    (m.putLatch l v).sub = m.sub := (Within.refl.putLatch (hs := Touch.covers_refl _)).kept .sub h

@[simp] theorem Hw.putLatch_twin (m : Hw) {l v} (h : (Touch.part .twin).within (Touch.latchStore l) = false) :
    (m.putLatch l v).twin = m.twin := (Within.refl.putLatch (hs := Touch.covers_refl _)).kept .twin h

@[simp] theorem Hw.putLatch_wdg (m : Hw) {l v} (h : (Touch.part .wdg).within (Touch.latchStore l) = false) :
    (m.putLatch l v).wdg = m.wdg := (Within.refl.putLatch (hs := Touch.covers_refl _)).kept .wdg h

@[simp] theorem Hw.putLatch_xfer (m : Hw) {l v} (h : (Touch.part .xfer).within (Touch.latchStore l) = false) :
    (m.putLatch l v).xfer = m.xfer := (Within.refl.putLatch (hs := Touch.covers_refl _)).kept .xfer h

@[simp] theorem Hw.rd_putLatch {m : Hw} {l v} {f : Field} (h : Touch.spares (Touch.latchStore l) f.key = true) :
    (m.putLatch l v).rd f = m.rd f := (Within.refl.putLatch (hs := Touch.covers_refl _)).rd f h

@[simp] theorem Hw.railsFollow_flt_input (m : Hw) : (m.railsFollow).flt.input = m.flt.input :=
    ((Within.refl.railsFollow (hs := Touch.covers_refl _)).kept .faultInput).1

@[simp] theorem Hw.rd_railsFollow {m : Hw} {f : Field} (h : Touch.spares (Touch.railsFollow) f.key = true) :
    (m.railsFollow).rd f = m.rd f := (Within.refl.railsFollow (hs := Touch.covers_refl _)).rd f h

@[simp] theorem Hw.rePick_flt_input (m : Hw) : (m.rePick).flt.input = m.flt.input := ((Within.refl.rePick (hs :=
    Touch.covers_refl _)).kept .faultInput).1

@[simp] theorem Hw.rd_recordH {m : Hw} {k src payload} {f : Field} (h : Touch.spares (parts [.linkHost, .mailbox])
    f.key = true) :
    (m.recordH k src payload).rd f = m.rd f := (Within.refl.recordH (hs := Touch.covers_refl _)).rd f h

@[simp] theorem Hw.refuse_bat (m : Hw) {slot reason frn cut counted} : (m.refuse slot reason frn cut counted).bat
    = m.bat := (Within.refl.refuse (hs := Touch.covers_refl _)).kept .bat

@[simp] theorem Hw.rd_refuse {m : Hw} {slot reason frn cut counted} {f : Field} (h : Touch.spares (Touch.refusing)
    f.key = true) :
    (m.refuse slot reason frn cut counted).rd f = m.rd f := (Within.refl.refuse (hs := Touch.covers_refl _)).rd f
    h

@[simp] theorem Hw.resumeRails_bat (m : Hw) : (m.resumeRails).bat = m.bat := (Within.refl.resumeRails (hs :=
    Touch.covers_refl _)).kept .bat

@[simp] theorem Hw.runEngine_host_alert (m : Hw) {e} : (m.runEngine e).host.alert = m.host.alert :=
    (Within.refl.runEngine (hs := Touch.covers_refl _)).kept .alertPad

@[simp] theorem Hw.runEngine_host_cache (m : Hw) {e} : (m.runEngine e).host.cache = m.host.cache :=
    (Within.refl.runEngine (hs := Touch.covers_refl _)).kept .results

@[simp] theorem Hw.runEngine_host_drain (m : Hw) {e} : (m.runEngine e).host.drain = m.host.drain :=
    (Within.refl.runEngine (hs := Touch.covers_refl _)).kept .drain

@[simp] theorem Hw.runEngine_host_eventFn (m : Hw) {e} : (m.runEngine e).host.eventFn = m.host.eventFn :=
    (Within.refl.runEngine (hs := Touch.covers_refl _)).kept .eventLevel

@[simp] theorem Hw.runEngine_host_f (m : Hw) {e} : (m.runEngine e).host.f = m.host.f := (Within.refl.runEngine (hs
    := Touch.covers_refl _)).kept .linkField

@[simp] theorem Hw.runEngine_host_fieldAsleep (m : Hw) {e} : (m.runEngine e).host.fieldAsleep = m.host.fieldAsleep
    := (Within.refl.runEngine (hs := Touch.covers_refl _)).kept .fieldAsleep

@[simp] theorem Hw.runEngine_host_h (m : Hw) {e} : (m.runEngine e).host.h = m.host.h := (Within.refl.runEngine (hs
    := Touch.covers_refl _)).kept .linkHost

@[simp] theorem Hw.runEngine_host_mbx (m : Hw) {e} : (m.runEngine e).host.mbx = m.host.mbx :=
    (Within.refl.runEngine (hs := Touch.covers_refl _)).kept .mailbox

@[simp] theorem Hw.runEngine_host_n7 (m : Hw) {e} : (m.runEngine e).host.n7 = m.host.n7 := (Within.refl.runEngine
    (hs := Touch.covers_refl _)).kept .stream7

@[simp] theorem Hw.runEngine_host_pinLow (m : Hw) {e} : (m.runEngine e).host.pinLow = m.host.pinLow :=
    (Within.refl.runEngine (hs := Touch.covers_refl _)).kept .pinLow

@[simp] theorem Hw.runEngine_host_snap (m : Hw) {e} : (m.runEngine e).host.snap = m.host.snap :=
    (Within.refl.runEngine (hs := Touch.covers_refl _)).kept .snapshot

@[simp] theorem Hw.runEngine_host_work (m : Hw) {e} : (m.runEngine e).host.work = m.host.work :=
    (Within.refl.runEngine (hs := Touch.covers_refl _)).kept .work

@[simp] theorem Hw.runEngine_adc (m : Hw) {e} : (m.runEngine e).adc = m.adc := (Within.refl.runEngine (hs :=
    Touch.covers_refl _)).adc_eq

@[simp] theorem Hw.runEngine_bat (m : Hw) {e} : (m.runEngine e).bat = m.bat := (Within.refl.runEngine (hs :=
    Touch.covers_refl _)).kept .bat

@[simp] theorem Hw.runEngine_bist (m : Hw) {e} : (m.runEngine e).bist = m.bist := (Within.refl.runEngine (hs :=
    Touch.covers_refl _)).kept .bist

@[simp] theorem Hw.runEngine_bus (m : Hw) {e} : (m.runEngine e).bus = m.bus := (Within.refl.runEngine (hs :=
    Touch.covers_refl _)).kept .bus

@[simp] theorem Hw.runEngine_cable (m : Hw) {e} : (m.runEngine e).cable = m.cable := (Within.refl.runEngine (hs :=
    Touch.covers_refl _)).kept .cable

@[simp] theorem Hw.runEngine_chg (m : Hw) {e} : (m.runEngine e).chg = m.chg := (Within.refl.runEngine (hs :=
    Touch.covers_refl _)).kept .chg

@[simp] theorem Hw.runEngine_freeCtr (m : Hw) {e} : (m.runEngine e).freeCtr = m.freeCtr := (Within.refl.runEngine
    (hs := Touch.covers_refl _)).kept .freeCtr

@[simp] theorem Hw.runEngine_hp (m : Hw) {e} : (m.runEngine e).hp = m.hp := (Within.refl.runEngine (hs :=
    Touch.covers_refl _)).kept .hp

@[simp] theorem Hw.runEngine_hwdg (m : Hw) {e} : (m.runEngine e).hwdg = m.hwdg := (Within.refl.runEngine (hs :=
    Touch.covers_refl _)).kept .hwdg

@[simp] theorem Hw.runEngine_intake (m : Hw) {e} : (m.runEngine e).intake = m.intake := (Within.refl.runEngine (hs
    := Touch.covers_refl _)).kept .intake

@[simp] theorem Hw.runEngine_jrn (m : Hw) {e} : (m.runEngine e).jrn = m.jrn := (Within.refl.runEngine (hs :=
    Touch.covers_refl _)).jrn_eq

@[simp] theorem Hw.runEngine_lb (m : Hw) {e} : (m.runEngine e).lb = m.lb := (Within.refl.runEngine (hs :=
    Touch.covers_refl _)).kept .lb

@[simp] theorem Hw.runEngine_modes (m : Hw) {e} : (m.runEngine e).modes = m.modes := (Within.refl.runEngine (hs :=
    Touch.covers_refl _)).modes_eq

@[simp] theorem Hw.runEngine_ph (m : Hw) {e} : (m.runEngine e).ph = m.ph := (Within.refl.runEngine (hs :=
    Touch.covers_refl _)).kept .ph

@[simp] theorem Hw.runEngine_rails (m : Hw) {e} : (m.runEngine e).rails = m.rails := (Within.refl.runEngine (hs :=
    Touch.covers_refl _)).kept .rails

@[simp] theorem Hw.runEngine_rl (m : Hw) {e} : (m.runEngine e).rl = m.rl := (Within.refl.runEngine (hs :=
    Touch.covers_refl _)).kept .rl

@[simp] theorem Hw.runEngine_seq (m : Hw) {e} : (m.runEngine e).seq = m.seq := (Within.refl.runEngine (hs :=
    Touch.covers_refl _)).kept .seq

@[simp] theorem Hw.runEngine_sub (m : Hw) {e} : (m.runEngine e).sub = m.sub := (Within.refl.runEngine (hs :=
    Touch.covers_refl _)).kept .sub

@[simp] theorem Hw.runEngine_twin (m : Hw) {e} : (m.runEngine e).twin = m.twin := (Within.refl.runEngine (hs :=
    Touch.covers_refl _)).kept .twin

@[simp] theorem Hw.runEngine_upd (m : Hw) {e} : (m.runEngine e).upd = m.upd := (Within.refl.runEngine (hs :=
    Touch.covers_refl _)).upd_eq

@[simp] theorem Hw.runEngine_wdg (m : Hw) {e} : (m.runEngine e).wdg = m.wdg := (Within.refl.runEngine (hs :=
    Touch.covers_refl _)).kept .wdg

@[simp] theorem Hw.runEngine_xfer (m : Hw) {e} : (m.runEngine e).xfer = m.xfer := (Within.refl.runEngine (hs :=
    Touch.covers_refl _)).kept .xfer

@[simp] theorem Hw.rd_runEngine {m : Hw} {e} {f : Field} (h : Touch.spares (parts [.engines]) f.key = true) :
    (m.runEngine e).rd f = m.rd f := (Within.refl.runEngine (hs := Touch.covers_refl _)).rd f h

@[simp] theorem Hw.sendH_host_hReady (m : Hw) {type stream payload} : (m.sendH type stream payload).host.hReady =
    m.host.hReady := (Within.refl.sendH (hs := Touch.covers_refl _)).kept .hostReady

@[simp] theorem Hw.rd_sendH {m : Hw} {type stream payload} {f : Field} (h : Touch.spares (parts [.linkHost,
    .mailbox]) f.key = true) :
    (m.sendH type stream payload).rd f = m.rd f := (Within.refl.sendH (hs := Touch.covers_refl _)).rd f h

@[simp] theorem Hw.rd_setActive {m : Hw} {a} {f : Field} (h : Touch.spares (parts [.ph, .chg] ++ Machine.regs
    [Reg.PH_STATUS_ACTIVE, Reg.PH_STATUS_ENTRY]) f.key = true) :
    (m.setActive a).rd f = m.rd f := (Within.refl.setActive (hs := Touch.covers_refl _)).rd f h

@[simp] theorem Hw.setContract_seq (m : Hw) {x role} : (m.setContract x role).seq = m.seq :=
    (Within.refl.setContract (hs := Touch.covers_refl _)).kept .seq

@[simp] theorem Hw.rd_setDomain {m : Hw} {d x} {f : Field} (h : Touch.spares (parts [.domains]) f.key = true) :
    (m.setDomain d x).rd f = m.rd f := (Within.refl.setDomain (hs := Touch.covers_refl _)).rd f h

@[simp] theorem Hw.setQualified_intake (m : Hw) {x b} : (m.setQualified x b).intake = m.intake :=
    (Within.refl.setQualified (hs := Touch.covers_refl _)).kept .intake

@[simp] theorem Hw.rd_setQualified {m : Hw} {x b} {f : Field} (h : Touch.spares (Machine.regs
    [Reg.INTAKE_STATUS_VBUS_QUAL, Reg.INTAKE_STATUS_DCIN_QUAL]) f.key = true) :
    (m.setQualified x b).rd f = m.rd f := (Within.refl.setQualified (hs := Touch.covers_refl _)).rd f h

@[simp] theorem Hw.setRail_flt_input (m : Hw) {n r} : (m.setRail n r).flt.input = m.flt.input :=
    ((Within.refl.setRail (hs := Touch.covers_refl _)).kept .faultInput).1

@[simp] theorem Hw.rd_setSlewing {m : Hw} {n b} {f : Field} (h : Touch.spares (parts [.rails] ++ Machine.regs
    [Reg.RAIL_STATUS_POL_SLEW]) f.key = true) :
    (m.setSlewing n b).rd f = m.rd f := (Within.refl.setSlewing (hs := Touch.covers_refl _)).rd f h

@[simp] theorem Hw.setTrack_arch_sb (m : Hw) {src x} : (m.setTrack src x).arch.sb = m.arch.sb :=
    (Within.refl.setTrack (hs := Touch.covers_refl _)).kept .sidebands

@[simp] theorem Hw.setTs_flt_input (m : Hw) {i v} : (m.setTs i v).flt.input = m.flt.input := ((Within.refl.setTs
    (hs := Touch.covers_refl _)).kept .faultInput).1

@[simp] theorem Hw.setTs_adc (m : Hw) {i v} : (m.setTs i v).adc = m.adc := (Within.refl.setTs (hs :=
    Touch.covers_refl _)).adc_eq

@[simp] theorem Hw.setTs_bat (m : Hw) {i v} : (m.setTs i v).bat = m.bat := (Within.refl.setTs (hs :=
    Touch.covers_refl _)).kept .bat

@[simp] theorem Hw.setTs_bist (m : Hw) {i v} : (m.setTs i v).bist = m.bist := (Within.refl.setTs (hs :=
    Touch.covers_refl _)).kept .bist

@[simp] theorem Hw.setTs_bus (m : Hw) {i v} : (m.setTs i v).bus = m.bus := (Within.refl.setTs (hs :=
    Touch.covers_refl _)).kept .bus

@[simp] theorem Hw.setTs_cable (m : Hw) {i v} : (m.setTs i v).cable = m.cable := (Within.refl.setTs (hs :=
    Touch.covers_refl _)).kept .cable

@[simp] theorem Hw.setTs_chg (m : Hw) {i v} : (m.setTs i v).chg = m.chg := (Within.refl.setTs (hs :=
    Touch.covers_refl _)).kept .chg

@[simp] theorem Hw.setTs_freeCtr (m : Hw) {i v} : (m.setTs i v).freeCtr = m.freeCtr := (Within.refl.setTs (hs :=
    Touch.covers_refl _)).kept .freeCtr

@[simp] theorem Hw.setTs_hp (m : Hw) {i v} : (m.setTs i v).hp = m.hp := (Within.refl.setTs (hs :=
    Touch.covers_refl _)).kept .hp

@[simp] theorem Hw.setTs_hwdg (m : Hw) {i v} : (m.setTs i v).hwdg = m.hwdg := (Within.refl.setTs (hs :=
    Touch.covers_refl _)).kept .hwdg

@[simp] theorem Hw.setTs_intake (m : Hw) {i v} : (m.setTs i v).intake = m.intake := (Within.refl.setTs (hs :=
    Touch.covers_refl _)).kept .intake

@[simp] theorem Hw.setTs_jrn (m : Hw) {i v} : (m.setTs i v).jrn = m.jrn := (Within.refl.setTs (hs :=
    Touch.covers_refl _)).jrn_eq

@[simp] theorem Hw.setTs_lb (m : Hw) {i v} : (m.setTs i v).lb = m.lb := (Within.refl.setTs (hs :=
    Touch.covers_refl _)).kept .lb

@[simp] theorem Hw.setTs_modes (m : Hw) {i v} : (m.setTs i v).modes = m.modes := (Within.refl.setTs (hs :=
    Touch.covers_refl _)).modes_eq

@[simp] theorem Hw.setTs_ph (m : Hw) {i v} : (m.setTs i v).ph = m.ph := (Within.refl.setTs (hs :=
    Touch.covers_refl _)).kept .ph

@[simp] theorem Hw.setTs_rails (m : Hw) {i v} : (m.setTs i v).rails = m.rails := (Within.refl.setTs (hs :=
    Touch.covers_refl _)).kept .rails

@[simp] theorem Hw.setTs_rl (m : Hw) {i v} : (m.setTs i v).rl = m.rl := (Within.refl.setTs (hs :=
    Touch.covers_refl _)).kept .rl

@[simp] theorem Hw.setTs_seq (m : Hw) {i v} : (m.setTs i v).seq = m.seq := (Within.refl.setTs (hs :=
    Touch.covers_refl _)).kept .seq

@[simp] theorem Hw.setTs_sub (m : Hw) {i v} : (m.setTs i v).sub = m.sub := (Within.refl.setTs (hs :=
    Touch.covers_refl _)).kept .sub

@[simp] theorem Hw.setTs_twin (m : Hw) {i v} : (m.setTs i v).twin = m.twin := (Within.refl.setTs (hs :=
    Touch.covers_refl _)).kept .twin

@[simp] theorem Hw.setTs_upd (m : Hw) {i v} : (m.setTs i v).upd = m.upd := (Within.refl.setTs (hs :=
    Touch.covers_refl _)).upd_eq

@[simp] theorem Hw.setTs_wdg (m : Hw) {i v} : (m.setTs i v).wdg = m.wdg := (Within.refl.setTs (hs :=
    Touch.covers_refl _)).kept .wdg

@[simp] theorem Hw.setTs_xfer (m : Hw) {i v} : (m.setTs i v).xfer = m.xfer := (Within.refl.setTs (hs :=
    Touch.covers_refl _)).kept .xfer

@[simp] theorem Hw.rd_setTs {m : Hw} {i v} {f : Field} (h : Touch.spares (Machine.regs [Reg.CHG_TEMP_TS]) f.key =
    true) :
    (m.setTs i v).rd f = m.rd f := (Within.refl.setTs (hs := Touch.covers_refl _)).rd f h

@[simp] theorem Hw.rd_settleSource {m : Hw} {f : Field} (h : Touch.spares (Touch.hostFault ++ parts [.latches,
    .intake, .xfer, .linkHost, .mailbox] ++ Machine.regs [Reg.INTAKE_STATUS_ACTIVE, Reg.INTAKE_STATUS_SRC_CHANGE,
    Reg.INTAKE_EVENTS_SWITCHOVERS, Reg.INTAKE_LIM_EFF_LIM, Reg.INTAKE_LIM_EFF_CAUSE, Reg.INTAKE_STATUS_RAMP]) f.key =
    true) :
    (m.settleSource).rd f = m.rd f := (Within.refl.settleSource (hs := Touch.covers_refl _)).rd f h

@[simp] theorem Hw.rd_showTickets {m : Hw} {f : Field} (h : Touch.spares (Machine.regs [Reg.TKT_STATUS_INFLIGHT,
    Reg.TKT_STATUS_HWM, Reg.TKT_STATUS_FULL, Reg.TKT_STATUS_HELD, Reg.TKT_STATUS_HELD_STREAM]) f.key = true) :
    (m.showTickets).rd f = m.rd f := (Within.refl.showTickets (hs := Touch.covers_refl _)).rd f h

@[simp] theorem Hw.rd_sideFault {m : Hw} {sd k src detail} {f : Field} (h : Touch.spares (Touch.faultOn sd) f.key
    = true) :
    (m.sideFault sd k src detail).rd f = m.rd f := (Within.refl.sideFault (hs := Touch.covers_refl _)).rd f h

@[simp] theorem Hw.rd_softStart {m : Hw} {vout} {f : Field} (h : Touch.spares (Touch.phasesPick ++ Machine.regs
    [Reg.PH_STATUS_SS]) f.key = true) :
    (m.softStart vout).rd f = m.rd f := (Within.refl.softStart (hs := Touch.covers_refl _)).rd f h

@[simp] theorem Hw.sourceRecord_intake (m : Hw) {old new mv lim} : (m.sourceRecord old new mv lim).intake =
    m.intake := (Within.refl.sourceRecord (hs := Touch.covers_refl _)).kept .intake

@[simp] theorem Hw.sourceRecord_xfer (m : Hw) {old new mv lim} : (m.sourceRecord old new mv lim).xfer = m.xfer :=
    (Within.refl.sourceRecord (hs := Touch.covers_refl _)).kept .xfer

@[simp] theorem Hw.rd_sourceRecord {m : Hw} {old new mv lim} {f : Field} (h : Touch.spares (parts [.linkHost,
    .mailbox]) f.key = true) :
    (m.sourceRecord old new mv lim).rd f = m.rd f := (Within.refl.sourceRecord (hs := Touch.covers_refl _)).rd f h

@[simp] theorem Hw.rd_statEvent {m : Hw} {i} {f : Field} (h : Touch.spares (Machine.regs [Reg.STAT_LATCH_EVENTS,
    Reg.STAT_LATCH_PADS]) f.key = true) :
    (m.statEvent i).rd f = m.rd f := (Within.refl.statEvent (hs := Touch.covers_refl _)).rd f h

@[simp] theorem Hw.rd_statOfState {m : Hw} {st} {f : Field} (h : Touch.spares (Machine.regs
    [Reg.STAT_LATCH_EVENTS, Reg.STAT_LATCH_PADS, Reg.STAT_LATCH_FN]) f.key = true) :
    (m.statOfState st).rd f = m.rd f := (Within.refl.statOfState (hs := Touch.covers_refl _)).rd f h

@[simp] theorem Hw.rd_statPads {m : Hw} {f : Field} (h : Touch.spares (Machine.regs [Reg.STAT_LATCH_PADS]) f.key =
    true) :
    (m.statPads).rd f = m.rd f := (Within.refl.statPads (hs := Touch.covers_refl _)).rd f h

@[simp] theorem Hw.stopPhases_adc (m : Hw) : (m.stopPhases).adc = m.adc := (Within.refl.stopPhases (hs :=
    Touch.covers_refl _)).adc_eq

@[simp] theorem Hw.stopPhases_bist (m : Hw) : (m.stopPhases).bist = m.bist := (Within.refl.stopPhases (hs :=
    Touch.covers_refl _)).kept .bist

@[simp] theorem Hw.stopPhases_bus (m : Hw) : (m.stopPhases).bus = m.bus := (Within.refl.stopPhases (hs :=
    Touch.covers_refl _)).kept .bus

@[simp] theorem Hw.stopPhases_cable (m : Hw) : (m.stopPhases).cable = m.cable := (Within.refl.stopPhases (hs :=
    Touch.covers_refl _)).kept .cable

@[simp] theorem Hw.stopPhases_chg (m : Hw) : (m.stopPhases).chg = m.chg := (Within.refl.stopPhases (hs :=
    Touch.covers_refl _)).kept .chg

@[simp] theorem Hw.stopPhases_freeCtr (m : Hw) : (m.stopPhases).freeCtr = m.freeCtr := (Within.refl.stopPhases (hs
    := Touch.covers_refl _)).kept .freeCtr

@[simp] theorem Hw.stopPhases_hp (m : Hw) : (m.stopPhases).hp = m.hp := (Within.refl.stopPhases (hs :=
    Touch.covers_refl _)).kept .hp

@[simp] theorem Hw.stopPhases_hwdg (m : Hw) : (m.stopPhases).hwdg = m.hwdg := (Within.refl.stopPhases (hs :=
    Touch.covers_refl _)).kept .hwdg

@[simp] theorem Hw.stopPhases_intake (m : Hw) : (m.stopPhases).intake = m.intake := (Within.refl.stopPhases (hs :=
    Touch.covers_refl _)).kept .intake

@[simp] theorem Hw.stopPhases_jrn (m : Hw) : (m.stopPhases).jrn = m.jrn := (Within.refl.stopPhases (hs :=
    Touch.covers_refl _)).jrn_eq

@[simp] theorem Hw.stopPhases_lb (m : Hw) : (m.stopPhases).lb = m.lb := (Within.refl.stopPhases (hs :=
    Touch.covers_refl _)).kept .lb

@[simp] theorem Hw.stopPhases_modes (m : Hw) : (m.stopPhases).modes = m.modes := (Within.refl.stopPhases (hs :=
    Touch.covers_refl _)).modes_eq

@[simp] theorem Hw.stopPhases_rails (m : Hw) : (m.stopPhases).rails = m.rails := (Within.refl.stopPhases (hs :=
    Touch.covers_refl _)).kept .rails

@[simp] theorem Hw.stopPhases_rl (m : Hw) : (m.stopPhases).rl = m.rl := (Within.refl.stopPhases (hs :=
    Touch.covers_refl _)).kept .rl

@[simp] theorem Hw.stopPhases_seq (m : Hw) : (m.stopPhases).seq = m.seq := (Within.refl.stopPhases (hs :=
    Touch.covers_refl _)).kept .seq

@[simp] theorem Hw.stopPhases_sub (m : Hw) : (m.stopPhases).sub = m.sub := (Within.refl.stopPhases (hs :=
    Touch.covers_refl _)).kept .sub

@[simp] theorem Hw.stopPhases_twin (m : Hw) : (m.stopPhases).twin = m.twin := (Within.refl.stopPhases (hs :=
    Touch.covers_refl _)).kept .twin

@[simp] theorem Hw.stopPhases_upd (m : Hw) : (m.stopPhases).upd = m.upd := (Within.refl.stopPhases (hs :=
    Touch.covers_refl _)).upd_eq

@[simp] theorem Hw.stopPhases_wdg (m : Hw) : (m.stopPhases).wdg = m.wdg := (Within.refl.stopPhases (hs :=
    Touch.covers_refl _)).kept .wdg

@[simp] theorem Hw.stopPhases_xfer (m : Hw) : (m.stopPhases).xfer = m.xfer := (Within.refl.stopPhases (hs :=
    Touch.covers_refl _)).kept .xfer

@[simp] theorem Hw.rd_stopPhases {m : Hw} {f : Field} (h : Touch.spares (Touch.phasesStop) f.key = true) :
    (m.stopPhases).rd f = m.rd f := (Within.refl.stopPhases (hs := Touch.covers_refl _)).rd f h

@[simp] theorem Hw.submitRec_seq (m : Hw) {r} : (m.submitRec r).seq = m.seq := (Within.refl.submitRec (hs :=
    Touch.covers_refl _)).kept .seq

@[simp] theorem Hw.switched_adc (m : Hw) {new} : (m.switched new).adc = m.adc := (Within.refl.switched (hs :=
    Touch.covers_refl _)).adc_eq

@[simp] theorem Hw.switched_bat (m : Hw) {new} : (m.switched new).bat = m.bat := (Within.refl.switched (hs :=
    Touch.covers_refl _)).kept .bat

@[simp] theorem Hw.switched_bist (m : Hw) {new} : (m.switched new).bist = m.bist := (Within.refl.switched (hs :=
    Touch.covers_refl _)).kept .bist

@[simp] theorem Hw.switched_bus (m : Hw) {new} : (m.switched new).bus = m.bus := (Within.refl.switched (hs :=
    Touch.covers_refl _)).kept .bus

@[simp] theorem Hw.switched_cable (m : Hw) {new} : (m.switched new).cable = m.cable := (Within.refl.switched (hs
    := Touch.covers_refl _)).kept .cable

@[simp] theorem Hw.switched_chg (m : Hw) {new} : (m.switched new).chg = m.chg := (Within.refl.switched (hs :=
    Touch.covers_refl _)).kept .chg

@[simp] theorem Hw.switched_freeCtr (m : Hw) {new} : (m.switched new).freeCtr = m.freeCtr := (Within.refl.switched
    (hs := Touch.covers_refl _)).kept .freeCtr

@[simp] theorem Hw.switched_hp (m : Hw) {new} : (m.switched new).hp = m.hp := (Within.refl.switched (hs :=
    Touch.covers_refl _)).kept .hp

@[simp] theorem Hw.switched_hwdg (m : Hw) {new} : (m.switched new).hwdg = m.hwdg := (Within.refl.switched (hs :=
    Touch.covers_refl _)).kept .hwdg

@[simp] theorem Hw.switched_intake (m : Hw) {new} : (m.switched new).intake = m.intake := (Within.refl.switched
    (hs := Touch.covers_refl _)).kept .intake

@[simp] theorem Hw.switched_jrn (m : Hw) {new} : (m.switched new).jrn = m.jrn := (Within.refl.switched (hs :=
    Touch.covers_refl _)).jrn_eq

@[simp] theorem Hw.switched_lb (m : Hw) {new} : (m.switched new).lb = m.lb := (Within.refl.switched (hs :=
    Touch.covers_refl _)).kept .lb

@[simp] theorem Hw.switched_modes (m : Hw) {new} : (m.switched new).modes = m.modes := (Within.refl.switched (hs
    := Touch.covers_refl _)).modes_eq

@[simp] theorem Hw.switched_ph (m : Hw) {new} : (m.switched new).ph = m.ph := (Within.refl.switched (hs :=
    Touch.covers_refl _)).kept .ph

@[simp] theorem Hw.switched_rails (m : Hw) {new} : (m.switched new).rails = m.rails := (Within.refl.switched (hs
    := Touch.covers_refl _)).kept .rails

@[simp] theorem Hw.switched_rl (m : Hw) {new} : (m.switched new).rl = m.rl := (Within.refl.switched (hs :=
    Touch.covers_refl _)).kept .rl

@[simp] theorem Hw.switched_seq (m : Hw) {new} : (m.switched new).seq = m.seq := (Within.refl.switched (hs :=
    Touch.covers_refl _)).kept .seq

@[simp] theorem Hw.switched_sub (m : Hw) {new} : (m.switched new).sub = m.sub := (Within.refl.switched (hs :=
    Touch.covers_refl _)).kept .sub

@[simp] theorem Hw.switched_twin (m : Hw) {new} : (m.switched new).twin = m.twin := (Within.refl.switched (hs :=
    Touch.covers_refl _)).kept .twin

@[simp] theorem Hw.switched_wdg (m : Hw) {new} : (m.switched new).wdg = m.wdg := (Within.refl.switched (hs :=
    Touch.covers_refl _)).kept .wdg

@[simp] theorem Hw.switched_xfer (m : Hw) {new} : (m.switched new).xfer = m.xfer := (Within.refl.switched (hs :=
    Touch.covers_refl _)).kept .xfer

@[simp] theorem Hw.rd_syncRecord {m : Hw} {old new state} {f : Field} (h : Touch.spares (Touch.issuing ++ parts
    [.seq, .sub]) f.key = true) :
    (m.syncRecord old new state).rd f = m.rd f := (Within.refl.syncRecord (hs := Touch.covers_refl _)).rd f h

@[simp] theorem Hw.rd_take {m : Hw} {x mv} {f : Field} (h : Touch.spares (Touch.hostFault ++ parts [.latches,
    .intake, .xfer, .linkHost, .mailbox] ++ Machine.regs [Reg.INTAKE_STATUS_ACTIVE, Reg.INTAKE_STATUS_SRC_CHANGE,
    Reg.INTAKE_EVENTS_SWITCHOVERS, Reg.INTAKE_LIM_EFF_LIM, Reg.INTAKE_LIM_EFF_CAUSE, Reg.INTAKE_STATUS_RAMP]) f.key =
    true) :
    (m.take x mv).rd f = m.rd f := (Within.refl.take (hs := Touch.covers_refl _)).rd f h

@[simp] theorem Hw.takeProfile_adc (m : Hw) {p src band} : (m.takeProfile p src band).adc = m.adc :=
    (Within.refl.takeProfile (hs := Touch.covers_refl _)).adc_eq

@[simp] theorem Hw.takeProfile_bat (m : Hw) {p src band} : (m.takeProfile p src band).bat = m.bat :=
    (Within.refl.takeProfile (hs := Touch.covers_refl _)).kept .bat

@[simp] theorem Hw.takeProfile_bist (m : Hw) {p src band} : (m.takeProfile p src band).bist = m.bist :=
    (Within.refl.takeProfile (hs := Touch.covers_refl _)).kept .bist

@[simp] theorem Hw.takeProfile_bus (m : Hw) {p src band} : (m.takeProfile p src band).bus = m.bus :=
    (Within.refl.takeProfile (hs := Touch.covers_refl _)).kept .bus

@[simp] theorem Hw.takeProfile_cable (m : Hw) {p src band} : (m.takeProfile p src band).cable = m.cable :=
    (Within.refl.takeProfile (hs := Touch.covers_refl _)).kept .cable

@[simp] theorem Hw.takeProfile_freeCtr (m : Hw) {p src band} : (m.takeProfile p src band).freeCtr = m.freeCtr :=
    (Within.refl.takeProfile (hs := Touch.covers_refl _)).kept .freeCtr

@[simp] theorem Hw.takeProfile_hp (m : Hw) {p src band} : (m.takeProfile p src band).hp = m.hp :=
    (Within.refl.takeProfile (hs := Touch.covers_refl _)).kept .hp

@[simp] theorem Hw.takeProfile_hwdg (m : Hw) {p src band} : (m.takeProfile p src band).hwdg = m.hwdg :=
    (Within.refl.takeProfile (hs := Touch.covers_refl _)).kept .hwdg

@[simp] theorem Hw.takeProfile_intake (m : Hw) {p src band} : (m.takeProfile p src band).intake = m.intake :=
    (Within.refl.takeProfile (hs := Touch.covers_refl _)).kept .intake

@[simp] theorem Hw.takeProfile_jrn (m : Hw) {p src band} : (m.takeProfile p src band).jrn = m.jrn :=
    (Within.refl.takeProfile (hs := Touch.covers_refl _)).jrn_eq

@[simp] theorem Hw.takeProfile_lb (m : Hw) {p src band} : (m.takeProfile p src band).lb = m.lb :=
    (Within.refl.takeProfile (hs := Touch.covers_refl _)).kept .lb

@[simp] theorem Hw.takeProfile_modes (m : Hw) {p src band} : (m.takeProfile p src band).modes = m.modes :=
    (Within.refl.takeProfile (hs := Touch.covers_refl _)).modes_eq

@[simp] theorem Hw.takeProfile_ph (m : Hw) {p src band} : (m.takeProfile p src band).ph = m.ph :=
    (Within.refl.takeProfile (hs := Touch.covers_refl _)).kept .ph

@[simp] theorem Hw.takeProfile_rails (m : Hw) {p src band} : (m.takeProfile p src band).rails = m.rails :=
    (Within.refl.takeProfile (hs := Touch.covers_refl _)).kept .rails

@[simp] theorem Hw.takeProfile_rl (m : Hw) {p src band} : (m.takeProfile p src band).rl = m.rl :=
    (Within.refl.takeProfile (hs := Touch.covers_refl _)).kept .rl

@[simp] theorem Hw.takeProfile_seq (m : Hw) {p src band} : (m.takeProfile p src band).seq = m.seq :=
    (Within.refl.takeProfile (hs := Touch.covers_refl _)).kept .seq

@[simp] theorem Hw.takeProfile_twin (m : Hw) {p src band} : (m.takeProfile p src band).twin = m.twin :=
    (Within.refl.takeProfile (hs := Touch.covers_refl _)).kept .twin

@[simp] theorem Hw.takeProfile_upd (m : Hw) {p src band} : (m.takeProfile p src band).upd = m.upd :=
    (Within.refl.takeProfile (hs := Touch.covers_refl _)).upd_eq

@[simp] theorem Hw.takeProfile_wdg (m : Hw) {p src band} : (m.takeProfile p src band).wdg = m.wdg :=
    (Within.refl.takeProfile (hs := Touch.covers_refl _)).kept .wdg

@[simp] theorem Hw.takeProfile_xfer (m : Hw) {p src band} : (m.takeProfile p src band).xfer = m.xfer :=
    (Within.refl.takeProfile (hs := Touch.covers_refl _)).kept .xfer

@[simp] theorem Hw.tellField_cable (m : Hw) {req mv} : (m.tellField req mv).cable = m.cable :=
    (Within.refl.tellField (hs := Touch.covers_refl _)).kept .cable

@[simp] theorem Hw.thaw_seq (m : Hw) {full} : (m.thaw full).seq = m.seq := (Within.refl.thaw (hs :=
    Touch.covers_refl _)).kept .seq

@[simp] theorem Hw.rd_thaw {m : Hw} {full} {f : Field} (h : Touch.spares (parts [.sidebands, .ph, .bat, .chg,
    .rails] ++ Machine.regs [Reg.RAIL_STATUS_HOLD_ACT, Reg.PH_STATUS_FROZEN, Reg.PH_STATUS_ENTRY,
    Reg.BATFET_STATUS_STATE, Reg.STAT_LATCH_PADS]) f.key = true) :
    (m.thaw full).rd f = m.rd f := (Within.refl.thaw (hs := Touch.covers_refl _)).rd f h

@[simp] theorem Hw.rd_thawEntry {m : Hw} {full} {f : Field} (h : Touch.spares (parts [.ph, .bat, .chg] ++
    Machine.regs [Reg.PH_STATUS_FROZEN, Reg.PH_STATUS_ENTRY]) f.key = true) :
    (m.thawEntry full).rd f = m.rd f := (Within.refl.thawEntry (hs := Touch.covers_refl _)).rd f h

@[simp] theorem Hw.rd_windDown {m : Hw} {f : Field} (h : Touch.spares (parts [.ph] ++ Machine.regs
    [Reg.PH_STATUS_ENTRY]) f.key = true) :
    (m.windDown).rd f = m.rd f := (Within.refl.windDown (hs := Touch.covers_refl _)).rd f h

@[simp] theorem Hw.rd_withdraw {m : Hw} {f : Field} (h : Touch.spares (parts [.cable, .linkHost, .mailbox]) f.key
    = true) :
    (m.withdraw).rd f = m.rd f := (Within.refl.withdraw (hs := Touch.covers_refl _)).rd f h

end Sys2Proof.Machine
end

