-- ==== Sys2Proof/Proofs/Edges.lean ====
section
/-! PROOFS. Edges of freeze: what the clock, the end of freeze and a cut do to the BATFET and to freeze itself. -/

namespace Sys2Proof.Machine

set_option Elab.async false

/-- The BATFET's own state passes the clock but for its hold through a thaw entry. -/
theorem Hw.entryDone_bat (m : Hw) : m.entryDone.bat = { m.bat with entryOn := m.entryDone.bat.entryOn } := by
  unfold Hw.entryDone
  split
  · split <;> rfl
  · rfl

theorem Hw.atT_bat (m : Hw) (t : Nat) : (m.atT t).bat = { m.bat with entryOn := (m.atT t).bat.entryOn } :=
  Hw.entryDone_bat _

theorem Hw.thaw_bat (m : Hw) (full : Bool) : (m.thaw full).bat = { m.bat with entryOn := (m.thaw full).bat.entryOn }
  := by
  unfold Hw.thaw
  simp (disch := decide +kernel) [*, Hw.thawEntry]

theorem Hw.freezeEnd_bat (m : Hw) (full : Bool) :
    (m.freezeEnd full).bat = { m.bat with entryOn := (m.freezeEnd full).bat.entryOn } := by
  unfold Hw.freezeEnd
  split
  · rw [Hw.thaw_bat]
    simp (disch := decide +kernel) [*, Hw.freezeStop]
  · rfl

theorem Hw.cutFreeze_bat (m : Hw) (r : Nat) (full : Bool) :
    (m.cutFreeze r full).bat = { m.bat with entryOn := (m.cutFreeze r full).bat.entryOn } := by
  unfold Hw.cutFreeze
  split
  · simp (disch := decide +kernel) [*]
    rw [Hw.freezeEnd_bat]
  · rfl

@[simp] theorem Hw.atT_bat_ocpOpen (m : Hw) (t : Nat) : (m.atT t).bat.ocpOpen = m.bat.ocpOpen := by
  rw [Hw.atT_bat]

@[simp] theorem Hw.atT_bat_latched (m : Hw) (t : Nat) : (m.atT t).bat.latched = m.bat.latched := by
  rw [Hw.atT_bat]

@[simp] theorem Hw.atT_bat_retries (m : Hw) (t : Nat) : (m.atT t).bat.retries = m.bat.retries := by
  rw [Hw.atT_bat]

@[simp] theorem Hw.atT_bat_retryAt (m : Hw) (t : Nat) : (m.atT t).bat.retryAt = m.bat.retryAt := by
  rw [Hw.atT_bat]

@[simp] theorem Hw.cutFreeze_bat_ocpOpen (m : Hw) (r : Nat) (full : Bool) : (m.cutFreeze r full).bat.ocpOpen =
  m.bat.ocpOpen := by
  rw [Hw.cutFreeze_bat]

@[simp] theorem Hw.cutFreeze_bat_latched (m : Hw) (r : Nat) (full : Bool) : (m.cutFreeze r full).bat.latched =
  m.bat.latched := by
  rw [Hw.cutFreeze_bat]

@[simp] theorem Hw.cutFreeze_bat_retries (m : Hw) (r : Nat) (full : Bool) : (m.cutFreeze r full).bat.retries =
  m.bat.retries := by
  rw [Hw.cutFreeze_bat]

@[simp] theorem Hw.cutFreeze_bat_retryAt (m : Hw) (r : Nat) (full : Bool) : (m.cutFreeze r full).bat.retryAt =
  m.bat.retryAt := by
  rw [Hw.cutFreeze_bat]

@[simp] theorem Hw.freezeEnd_frozen (m : Hw) (full : Bool) : (m.freezeEnd full).rd Reg.FRM_STATUS_FRZ = 0 := by
  unfold Hw.freezeEnd
  split
  · simp (disch := decide +kernel) [*, Hw.freezeStop]
  · next h => simpa [Hw.frozen] using h

@[simp] theorem Hw.cutFreeze_frozen (m : Hw) (r : Nat) (full : Bool) : (m.cutFreeze r full).rd Reg.FRM_STATUS_FRZ = 0
  := by
  unfold Hw.cutFreeze
  split
  · simp (disch := decide +kernel) [*, Hw.freezeEnd_frozen]
  · next h => simpa [Hw.frozen] using h

end Sys2Proof.Machine
end

