-- ==== Sys2Proof/Proofs/Charge.lean ====
section
/-! PROOFS. The charge: a pack whose profile lies outside the limits is not charged again. -/

namespace Sys2Proof.Machine

set_option Elab.async false

/-- A charge that is done, whose pack has asked to be charged again for 32 ticks, and whose profile allows no charge
current. -/
def rechargeMismatched : Hw :=
  let m := State.reset.hw.wr Reg.CHG_STATUS_STATE 6
  { m with chg := { m.chg with
      runRech := 32
      neg := some { chem := 0, cells := 4, vcell := 420, ichg := 0, ipeak := 120, ipre := 8, preTh := 300, term := 1
                    rech := 1
                    t1 := 0, t2 := 10, t3 := 45, t4 := 60, preTimer := 1, fastTimer := 1 } } }

/-- Refutes O24: the profile in force has come to lie outside the module's limits, so the pack is held (R136), state 2,
and is not charged again. -/
theorem not_chargeEndsAndChanges : ¬ Obligations.ChargeEndsAndChanges := by
  intro h
  obtain ⟨-, hrecharge, -⟩ := h
  obtain ⟨t, ht, hstate, -⟩ :=
    hrecharge { State.reset with hw := rechargeMismatched } (by decide +kernel) (by decide +kernel) (by decide +kernel)
  obtain rfl := Host.Outcome.next.inj ht
  exact absurd hstate (by decide +kernel)

end Sys2Proof.Machine
end

