-- ==== Sys2Proof/Proofs/RailLink.lean ====
section
/-! PROOFS. The rail link: a command that could raise an event is refused while 16 events are due. -/

namespace Sys2Proof.Machine

set_option Elab.async false

/-- A rail link in its session, with no queued event, and 16 accepted plan selections still to raise theirs. -/
def planEventsDue : Hw :=
  let m := (State.reset.hw.wr Reg.RL_CFG_RL_EN 1).wr Reg.RL_STATUS_SESSION 1
  { m with rl := { m.rl with planTags := List.replicate 16 0 }, seq := { m.seq with pinHeld := false } }

/-- Refutes O27: with 16 plan selections still to raise their events the queue is empty and RL_PLAN is answered BUSY. -/
theorem not_railLinkCommandsAct : ¬ Obligations.RailLinkCommandsAct := by
  intro h
  obtain ⟨-, -, -, -, -, -, -, hplan, -⟩ := h
  obtain ⟨t, ht, -, -, hanswer⟩ :=
    hplan { State.reset with hw := planEventsDue } 0 false 0 (by decide +kernel) (by decide +kernel) (by decide +kernel)
  obtain rfl := Host.Outcome.next.inj ht
  exact absurd hanswer (by decide +kernel)

end Sys2Proof.Machine
end

