-- ==== Sys2Proof/Proofs/Freeze.lean ====
section
/-! PROOFS. Freeze: a run that was refused stays refused at its own pre-freeze, and the decision takes the
loop's minimum. -/

namespace Sys2Proof.Machine

set_option Elab.async false

/-- A block that may enter freeze, with slot 1 planned alone, and the rest of the run that begins there refused. -/
def refusedRun : Hw :=
  let m := (State.reset.hw.wr Reg.CHG_STATUS_PRESENT 1).wr (Reg.FRM_MAP_MAP 0) 2
  { m with
    seq := { m.seq with
      cfgApplied := true, pinHeld := false, outputsLow := false, removedHold := false, runSlot := 1,
      runRefused := true } }

/-- Refutes O13: the planned slot begins a run whose rest is refused (R65, R69), so that its pre-freeze is not raised,
though everything that R68 asks for holds. -/
theorem not_freezeComesAndEnds : ¬ Obligations.FreezeComesAndEnds := by
  intro h
  obtain ⟨hpre, -⟩ := h
  let s : State := { State.reset with hw := refusedRun }
  let a : Admit := { vbat := 15200, psrc := 0, late := 0, lateRails := 0, ns := 0 }
  obtain ⟨t, ht, hraised, -⟩ := hpre s 1 a (by decide) (by decide +kernel) (by decide +kernel) (by decide +kernel)
    (by decide +kernel)
  obtain rfl := Host.Outcome.next.inj ht
  exact absurd hraised (by decide +kernel)

/-- A block that may enter freeze by its registers, with an aperture armed for slot 4, while the parity of VSYS_MIN has
failed and its loop regulates to the 24 V of the shadow. -/
def shadowedMinimum : Hw :=
  let m := State.reset.hw.wr Reg.CHG_STATUS_PRESENT 1
  { m with
    arch := { m.arch with shadows := [{ latch := .vsysMin, value := 2400, bad := true }] }
    seq := { m.seq with
      cfgApplied := true, pinHeld := false, outputsLow := false, removedHold := false
      sched := some { frn := 0, slot := 4, cycle := 0, len := 100, armedAt := 0, raised := false } } }

/-- Refutes O14: the decision of R68 takes VSYS_MIN as its loop does, so that an aperture armed in time is refused as
BAT_LOW, and gone, where the register alone would let it in. -/
theorem not_freezeIsCutAtItsLimits : ¬ Obligations.FreezeIsCutAtItsLimits := by
  intro h
  obtain ⟨-, -, -, -, -, -, -, -, hsched⟩ := h
  let s : State := { State.reset with hw := shadowedMinimum }
  let a : Admit := { vbat := 15200, psrc := 0, late := 0, lateRails := 0, ns := 0 }
  let x : SchedApt := { frn := 0, slot := 4, cycle := 0, len := 100, armedAt := 0, raised := false }
  obtain ⟨t, ht, harmed, -⟩ := hsched s (slotStart s.hw.seq.len 4 - 800) a x (by decide +kernel) (by decide +kernel)
    (by decide +kernel) (by decide +kernel) (by decide +kernel) (by decide +kernel) (by decide +kernel)
    (by decide +kernel) (by decide +kernel) (by decide +kernel)
  obtain rfl := Host.Outcome.next.inj ht
  exact absurd harmed (by decide +kernel)

end Sys2Proof.Machine
end

