-- ==== Sys2Proof/Proofs/Cbuf.lean ====
section
/-! PROOFS. The window of CBUF: the refresh of the voltages may itself change the source. -/

namespace Sys2Proof.Machine

set_option Elab.async false

/-- A module on VBUS whose ideal diode blocks, with a fast role swap received, its source switch still open, and DCIN
qualified. -/
def swapOnBlockedVbus : State :=
  let m := State.reset.hw
  let m := (m.wr Reg.INTAKE_STATUS_ACTIVE 1).wr Reg.INTAKE_STATUS_DCIN_QUAL 1
  { State.reset with hw := { m with intake := { m.intake with blocked := true }
                                    cable := { m.cable with frsRx := true, srcSwitch := false } } }

/-- Refutes O17: the refresh that sees VBUS below 4.7 V closes the source switch of the fast role swap and so opens
VBUS, and the module then takes DCIN: the source's voltage is that of DCIN, not that of the source active before. -/
theorem not_cbufFollowsItsWindow : ¬ Obligations.CbufFollowsItsWindow := by
  unfold Obligations.CbufFollowsItsWindow
  intro h
  obtain ⟨hrefresh, -⟩ := h
  obtain ⟨t, ht, -, -, hsource, -⟩ := hrefresh swapOnBlockedVbus 4000 12000 5000 0 0 0 0 false (by decide +kernel)
    (by decide +kernel) (by decide +kernel) (by decide +kernel)
  obtain rfl := Host.Outcome.next.inj ht
  exact absurd hsource (by decide +kernel)

end Sys2Proof.Machine
end

