-- ==== Sys2Proof/Proofs/SoftStart.lean ====
section
/-! PROOFS. The phases: a ramp that goes on leaves PH_STATUS.SS as it is, whatever its register holds. -/

namespace Sys2Proof.Machine

set_option Elab.async false

/-- A soft start in progress in a block whose register store holds 2 for PH_STATUS.SS, beyond the field's one bit: no
statement about a single state keeps such a store out, and the ramp's test of SS is that it is not 0. -/
def wideSoftStart : State :=
  let m := State.reset.hw
  { State.reset with hw := { m with regs := [(Reg.PH_STATUS_SS.key, 2)], seq := { m.seq with pinHeld := false } } }

/-- Refutes O20: the ramp below its target does not write PH_STATUS.SS, which reads 2 and not 1 after it. -/
theorem not_phasesFollowTheLoad : ¬ Obligations.PhasesFollowTheLoad := by
  unfold Obligations.PhasesFollowTheLoad
  intro h
  obtain ⟨-, -, -, -, -, -, -, hramp, -⟩ := h
  obtain ⟨t, ht, hss, -⟩ := hramp wideSoftStart 0 0 (by decide +kernel) (by decide +kernel) (by decide +kernel)
  obtain rfl := Host.Outcome.next.inj ht
  exact absurd hss (by decide +kernel)

end Sys2Proof.Machine
end

