-- ==== Sys2Proof/Proofs/SinkContract.lean ====
section
/-! PROOFS. The first contract of a sink at 5 V (O30 fails). -/

namespace Sys2Proof.Machine

set_option Elab.async false

/-- A sink without a contract, whose Request of 5 V has been accepted. -/
def firstContract : State :=
  let m := State.reset.hw.wr Reg.CBL_STATUS_STATE 1
  { State.reset with hw := { m with
      host := { m.host with pinLow := false }
      cable := { m.cable with frsRx := false, swap := 0, transit := true
                              req := some { mv := 5000, curr := 300, type := 1, pos := 1 } } } }

/-- Refutes O30: PS_RDY of a first contract at 5 V, while `CBL_CONTRACT.VOLT` is 0. The voltage in force is vSafe5V, so
no change of voltage takes place, the windows of the contract apply at once, and none is due 50 ms later. -/
theorem not_sinkContractsAndSwaps : ¬ Obligations.SinkContractsAndSwaps := by
  unfold Obligations.SinkContractsAndSwaps
  rintro ⟨-, -, hready, -⟩
  obtain ⟨t, ht, -, -, -, -, -, hdue⟩ := hready firstContract { mv := 5000, curr := 300, type := 1, pos := 1 }
    (by decide +kernel) (by decide +kernel) (by decide +kernel) (by decide +kernel) (by decide +kernel)
    (by decide +kernel) (by decide +kernel)
  obtain rfl := Host.Outcome.next.inj ht
  exact absurd (hdue (by decide +kernel)) (by decide +kernel)

end Sys2Proof.Machine
end

