-- ==== Sys2Proof/Proofs/Measurement.lean ====
section
/-! PROOFS. A sequence entry at the start of its slot (O32 fails). -/

namespace Sys2Proof.Machine

set_option Elab.async false

/-- A module whose sequence has its entry 0 due in slot 0, with slice 0 active. -/
def entryAtSlotStart : State :=
  let m := (State.reset.hw.wr (Reg.ADC_SEQ_EN 0) 1).wr Reg.ADC_STATUS_ACTIVE 1
  { State.reset with hw := { m with
      host := { m.host with work := [] }
      adc := { m.adc with due := [(0, some 0)], inj := [], queue := [] } } }

/-- Refutes O32: a conversion sampled at the very start of its slot. Its acquisition would have begun 300 ns earlier, in
the slot before, so the conversion is not of this entry, and the entry stays due. -/
theorem not_measurementRuns : ¬ Obligations.MeasurementRuns := by
  unfold Obligations.MeasurementRuns
  rintro ⟨hentry, -⟩
  obtain ⟨t, ht, -, -, hdue, -⟩ := hentry entryAtSlotStart 0
    { slice := 0, t := 0, sum := 0, above := 0, below := 0, after := 0 } 0 (some 0) []
      (by decide +kernel) (by decide +kernel) (by decide +kernel) (by decide +kernel) (by decide +kernel)
    (by decide +kernel) (by decide +kernel) (by decide +kernel) (by decide +kernel)
  obtain rfl := Host.Outcome.next.inj ht
  exact absurd hdue (by decide +kernel)

end Sys2Proof.Machine
end

