-- ==== Sys2Proof/Proofs/SealPage.lean ====
section
/-! PROOFS. The commit of a page that ends with a seal (O33 fails). -/

namespace Sys2Proof.Machine

set_option Elab.async false

/-- A module whose closed page holds the seal of epoch 0; the first record of epoch 1 waits behind it, not hashed. -/
def sealBeforeRecord : State :=
  let m := State.reset.hw.wr Reg.JRN_STATUS_READY 1
  let first := { m.mkRec JR.SEAL 0x16 [] with jsn := 65535 }
  let next := { m.mkRec JR.SUMMARY 0x16 [] with jsn := 65536 }
  { State.reset with hw := { m with jrn := { m.jrn with
      closed := [1], hashNext := 65536, staged := [⟨first, false, some 0, none⟩, ⟨next, false, none, none⟩] } } }

/-- Refutes O33: the record behind a seal is hashed once the seal is committed (R279), so what stays staged is not what
stood there before: its chain value is new. -/
theorem not_journalTakesAndCommits : ¬ Obligations.JournalTakesAndCommits := by
  unfold Obligations.JournalTakesAndCommits
  rintro ⟨-, -, -, -, hcommit, -⟩
  obtain ⟨t, ht, -, hstaged⟩ := hcommit sealBeforeRecord 1 [] (by decide +kernel) (by decide +kernel)
    (by decide +kernel) (by decide +kernel) (by decide +kernel)
  obtain rfl := Host.Outcome.next.inj ht
  exact absurd (congrArg (List.map fun x : Staged => x.chain.isSome) hstaged) (by decide +kernel)

end Sys2Proof.Machine
end

