-- ==== Sys2Proof/Proofs/AnswersBehind.lean ====
section
/-! PROOFS. A commit that lets the answer behind it go out too (O36 and O48 fail). -/

namespace Sys2Proof.Machine

set_option Elab.async false

/-- The first command of stream 3, durable and validated. -/
def firstCmd (code : Nat) (args : List Byte) : HostCmd :=
  { stream := 3, seq := 1, cmd := code, flags := 0, epoch := 0, args := args, tkt := 0, stage := 1, status := 0
    rflags := 0, data := [], sent := false, jsn := none, inner := none, hostSide := false }

/-- A module with all engines running, whose stream 3 holds a command and behind it a PING, number 2, that is answered
already; its answer waits for that of number 1 (R316). -/
def answerBehind (c : HostCmd) : State :=
  let m := State.reset.hw
  let behind := { firstCmd 0x01 [] with seq := 2, stage := 3, tkt := 1 }
  { State.reset with hw := { m with
      arch := { m.arch with engines := m.arch.engines.map fun _ =>
        { running := true, restarting := false, handover := false, fenced := false } }
      host := { m.host with work := [c, behind] } } }

/-- Refutes O36: the commit of number 1 sends both answers, so N_3 is 2 and not 1. -/
theorem not_ticketsIssueAndSettle : ¬ Obligations.TicketsIssueAndSettle := by
  unfold Obligations.TicketsIssueAndSettle
  rintro ⟨-, -, -, -, -, -, -, hexit, -⟩
  obtain ⟨t, ht, -, -, hseq⟩ := hexit (answerBehind (firstCmd cmdSVC_EXIT [])) 3 (firstCmd cmdSVC_EXIT [])
    (by decide +kernel) rfl
  obtain rfl := Host.Outcome.next.inj ht
  exact absurd hseq (by decide +kernel)

/-- Refutes O48: the commit of a STREAM_RESET to number 0 sends the answer of number 2 too, which sets N_3 to 2. -/
theorem not_durableCommitsTakeEffect : ¬ Obligations.DurableCommitsTakeEffect := by
  unfold Obligations.DurableCommitsTakeEffect
  rintro ⟨-, -, hreset, -⟩
  obtain ⟨t, ht, -, hseq⟩ := hreset (answerBehind (firstCmd cmdSTREAM_RESET [0, 0, 0, 0])) 3
    (firstCmd cmdSTREAM_RESET [0, 0, 0, 0]) (by decide +kernel) rfl
  obtain rfl := Host.Outcome.next.inj ht
  exact absurd hseq (by decide +kernel)

end Sys2Proof.Machine
end

