-- ==== Sys2Proof/Proofs/Batfet.lean ====
section
/-! PROOFS. The BATFET: its openings, its reclosure and the limits around it (O22). -/

namespace Sys2Proof.Machine

set_option Elab.async false

theorem Hw.batfetState_le (m : Hw) : m.batfetState ≤ 4 := by
  unfold Hw.batfetState
  grind

theorem Hw.batfet_rd_state (m : Hw) : m.batfet.rd Reg.BATFET_STATUS_STATE = m.batfetState :=
  Hw.rd_wr_lt (Nat.lt_of_le_of_lt m.batfetState_le (by decide))

theorem Hw.batfet_rd_open {m : Hw} (hlatched : m.bat.latched = false) (hopen : m.bat.ocpOpen = true) :
    m.batfet.rd Reg.BATFET_STATUS_STATE = 0 := by
  simp [Hw.batfet_rd_state, Hw.batfetState, hlatched, hopen]

theorem Hw.batfet_rd_latched {m : Hw} (hlatched : m.bat.latched = true) : m.batfet.rd Reg.BATFET_STATUS_STATE = 4 := by
  simp [Hw.batfet_rd_state, Hw.batfetState, hlatched]

theorem Hw.convert_revFloor (m : Hw) (vtb vsys : Nat) : (m.convert vtb vsys).ph.revFloor = m.ph.revFloor := by
  unfold Hw.convert
  split <;> rfl

/-- Settles O22, each clause from the rules of the operations that its command uses. -/
theorem batfetProtectsThePack : Obligations.BatfetProtectsThePack := by
  unfold Obligations.BatfetProtectsThePack
  refine ⟨?_, ?_, ?_, ?_, ?_, ?_, ?_, ?_⟩
  · intro s mw hState hPdissCap
    refine ⟨_, rfl, ?_⟩
    simp (disch := decide +kernel) [*, Hw.said, Kind.BATFET_PDISS]
  · intro s t ma hState hState2 hRetries
    refine ⟨_, rfl, ?_⟩
    have hnot : ¬3 ≤ s.hw.bat.retries := by omega
    simp (disch := decide +kernel) [*, Hw.frozen, Hw.frnAfter, Hw.frn]
    refine Hw.batfet_rd_open ?_ ?_ <;> simp (disch := decide +kernel) [*]
  · intro s t ma hState hState2 hRetries hFrozen
    rw [Hw.frozen_eq_false] at hFrozen
    refine ⟨_, rfl, ?_⟩
    simp (disch := decide +kernel) [*, Hw.said, Hw.filed, Kind.BATFET_OCP, Hw.cutFreeze, Hw.frozen, Hw.powerLatch]
    exact Hw.batfet_rd_latched (by simp (disch := decide +kernel) [*])
  · intro s a hRetryAt hFrnReached hQuietDue hLatched
    refine ⟨_, rfl, ?_⟩
    simp (disch := decide +kernel) [*]
  · intro s hClosedFrames hOcpOpen
    refine ⟨_, rfl, ?_⟩
    simp (disch := decide +kernel) [*]
  · intro s temp hTemp hThermal
    refine ⟨_, rfl, ?_⟩
    simp (disch := decide +kernel) [*, Hw.said, Kind.BATFET_THERMAL]
  · intro s mv hMv
    refine ⟨_, rfl, ?_⟩
    simp (disch := decide +kernel) [*, Hw.said, Kind.VSYS_UV]
  · intro s mv hRev hMv
    rw [Hw.on_eq_true] at hRev
    refine ⟨_, rfl, ?_⟩
    simp (disch := decide +kernel) [*, Hw.said, Kind.REV_BAT_FLOOR, Hw.convertNow, Hw.convert_revFloor]

end Sys2Proof.Machine
end

