-- ==== Sys2Proof/Proofs/Latches.lean ====
section
/-! PROOFS. Set-point latches: a write, its effects and its faults, and a direction ordered of the transfer stage
(O11). -/

namespace Sys2Proof.Machine

set_option Elab.async false

/-! A latch under what does not write it, and after a write. -/

theorem Within.latch_eq {sc : List Touch} {m m' : Hw} (h : Within sc m m') {l : LatchId}
    (hparts : (Touch.part .latches).within sc = false) (hregs : ∀ x ∈ Touch.latchLive l, x.within sc = false) :
    m'.latch l = m.latch l := by
  obtain ⟨-, hctl, hpol⟩ := h.kept .latches hparts
  have hrd : ∀ f, Touch.reg f ∈ Touch.latchLive l → m'.rd f = m.rd f := fun f hf => by
    refine h.rd f ?_
    have hout := hregs _ hf
    rw [← Bool.not_eq_true, Touch.within_iff_hits, Bool.not_eq_false] at hout
    exact hout
  cases l with
  | xferCtl => exact hctl
  | frzPol => exact hpol
  | _ => simp (disch := simp [Touch.latchLive, regs]) [Hw.latch, hrd]

/-- What a write of a latch brings with it. -/
def Touch.latchEffects : List Touch :=
  Touch.phasesPick ++ Touch.railsFollow ++ regs [Reg.XFER_STATUS_DBS, Reg.PH_STATUS_SS, Reg.BATFET_STATUS_STATE,
    Reg.RAIL_STATUS_HOLD_ACT]

theorem Touch.latchLive_apart_effects (l : LatchId) :
    ∀ x ∈ Touch.latchLive l, x.within Touch.latchEffects = false := by
  cases l with
  | phTrim n => revert n; decide +kernel
  | polSet n => revert n; decide +kernel
  | qrSet n => revert n; decide +kernel
  | _ => decide +kernel

theorem Touch.latchLive_apart_fault (l : LatchId) : ∀ x ∈ Touch.latchLive l, x.within Touch.sideFault = false := by
  cases l with
  | phTrim n => revert n; decide +kernel
  | polSet n => revert n; decide +kernel
  | qrSet n => revert n; decide +kernel
  | _ => decide +kernel

@[simp] theorem Hw.sideFault_latch (m : Hw) (sd : Side) (k : FaultKind) (src d : Nat) (l : LatchId) :
    (m.sideFault sd k src d).latch l = m.latch l :=
  (Within.refl.sideFault_any (hs := Touch.covers_refl _)).latch_eq (by decide +kernel) (Touch.latchLive_apart_fault l)

@[simp] theorem Hw.sideFault_arch_shadows (m : Hw) (sd : Side) (k : FaultKind) (src d : Nat) :
    (m.sideFault sd k src d).arch.shadows = m.arch.shadows :=
  ((Within.refl.sideFault_any (hs := Touch.covers_refl _)).kept .latches).1

theorem Hw.sideFault_said {m : Hw} {sd : Side} (h : sd = .field) (k : FaultKind) (src d : Nat) :
    m.said (m.sideFault sd k src d) k src d := by
  subst h
  exact m.faultAt_input k src d

theorem Hw.sideFault_hsaid {m : Hw} {sd : Side} (h : sd = .host) (k : FaultKind) (src d : Nat) :
    m.hsaid (m.sideFault sd k src d) k src d := by
  subst h
  exact m.hfaultAt_hostBuf k src d

theorem clampN_le {lo hi : Nat} (h : lo ≤ hi) (v : Nat) : clampN lo hi v ≤ hi := by
  unfold clampN
  split
  · exact h
  · split <;> omega

theorem ge_clampN {lo hi : Nat} (h : lo ≤ hi) (v : Nat) : lo ≤ clampN lo hi v := by
  unfold clampN
  split
  · exact Nat.le_refl _
  · split <;> omega

theorem bitsOf_join {u c : Nat} (hu : u < 2 ^ 6) (hc : c < 2 ^ 8) :
    bitsOf (u + 256 * c) 0 6 = u ∧ bitsOf (u + 256 * c) 8 8 = c := by
  simp only [bitsOf]
  omega

/-- The bits of KA_SET between its fields are those of [3:2]. -/
theorem bitsOf_kaSet {v : Nat} (hlt : v < 64) (hgap : bitsOf v 2 2 = 0) :
    bitsOf v 0 2 + 16 * bitsOf v 4 1 + 32 * bitsOf v 5 1 = v := by
  simp only [bitsOf] at *
  omega

theorem bitsOf_lt (v i n : Nat) : bitsOf v i n < 2 ^ n := Nat.mod_lt _ (Nat.two_pow_pos n)

theorem PH_TRIM_apart : ∀ n : Fin 4, (Reg.PH_TRIM_TRIM n).key ≠ (Reg.PH_TRIM_ENTRY n).key := by decide

/-- A value held to its range reads back from its latch; KA_SET has no bits for [3:2]. -/
theorem Hw.latch_setLatchLive (m : Hw) {l : LatchId} (v : Nat) (hka : l = .kaSet → v < 64 ∧ bitsOf v 2 2 = 0) :
    (m.setLatchLive l (clampLatch l v).1).latch l = (clampLatch l v).1 := by
  cases l with
  | xferCtl => rfl
  | frzPol => rfl
  | kaSet =>
    obtain ⟨hlt, hgap⟩ := hka rfl
    have hjoin := bitsOf_kaSet hlt hgap
    simp only [Hw.setLatchLive, Hw.latch, clampLatch]
    rw [Hw.rd_wr_ne (by decide), Hw.rd_wr_ne (by decide), Hw.rd_wr_lt (f := Reg.KA_SET_CODE) (bitsOf_lt v 0 2),
      Hw.rd_wr_ne (by decide), Hw.rd_wr_lt (f := Reg.KA_SET_EN) (bitsOf_lt v 4 1),
      Hw.rd_wr_lt (f := Reg.KA_SET_TWIN) (bitsOf_lt v 5 1), hjoin]
  | phTrim n =>
    have hu := unsignedOf_lt 6 (clampI (-16) 16 (signedOf 6 v))
    have hc : clampN 32 128 (bitsOf v 8 8) < 2 ^ 8 := Nat.lt_of_le_of_lt (clampN_le (by decide) _) (by decide)
    obtain ⟨hlow, hhigh⟩ := bitsOf_join hu hc
    simp only [Hw.setLatchLive, Hw.latch, clampLatch]
    rw [hlow, hhigh, Hw.rd_wr_ne (PH_TRIM_apart n), Hw.rd_wr_lt (by simpa [Reg.PH_TRIM_TRIM] using hu),
      Hw.rd_wr_lt (by simpa [Reg.PH_TRIM_ENTRY] using hc)]
  | polSet n =>
    simp only [Hw.setLatchLive, Hw.latch, clampLatch]
    split
    · exact Hw.rd_wr_lt (by simp)
    · exact Hw.rd_wr_lt (Nat.lt_of_le_of_lt (clampN_le (by decide) v) (by simp [Reg.POL_SET_SET]))
  | qrSet n =>
    simp only [Hw.setLatchLive, Hw.latch, clampLatch]
    split
    · exact Hw.rd_wr_lt (by simp)
    · exact Hw.rd_wr_lt (Nat.lt_of_le_of_lt (clampN_le (by decide) v) (by simp [Reg.QR_SET_SET]))
  | intakeLim => exact Hw.rd_wr_lt (Nat.lt_of_le_of_lt (clampN_le (hi := 600) (by decide) v) (by decide))
  | vsysSet => exact Hw.rd_wr_lt (Nat.lt_of_le_of_lt (clampN_le (hi := 3000) (by decide) v) (by decide))
  | vsysMin => exact Hw.rd_wr_lt (Nat.lt_of_le_of_lt (clampN_le (hi := 2400) (by decide) v) (by decide))
  | chgV => exact Hw.rd_wr_lt (Nat.lt_of_le_of_lt (clampN_le (lo := 0) (hi := 2990) (by decide) v) (by decide))
  | chgI => exact Hw.rd_wr_lt (Nat.lt_of_le_of_lt (clampN_le (lo := 0) (hi := 320) (by decide) v) (by decide))
  | chgEn => exact Hw.rd_wr_lt (Nat.lt_of_le_of_lt (clampN_le (lo := 0) (hi := 1) (by decide) v) (by decide))
  | revSet => exact Hw.rd_wr_lt (Nat.lt_of_le_of_lt (clampN_le (hi := 1610) (by decide) v) (by decide))

theorem Hw.setLatch_latch (m : Hw) (l k : LatchId) (v : Nat) : (m.setLatch l v).latch k = (m.setLatchLive l v).latch k
  := by
  unfold Hw.setLatch
  cases k <;> simp [Hw.latch]

theorem Hw.storeLatch_latch (m : Hw) {l : LatchId} (v : Nat) (hka : l = .kaSet → v < 64 ∧ bitsOf v 2 2 = 0) :
    (m.storeLatch l v).latch l = (clampLatch l v).1 := by
  have hset : (m.setLatch l (clampLatch l v).1).latch l = (clampLatch l v).1 := by
    rw [Hw.setLatch_latch, Hw.latch_setLatchLive m v hka]
  unfold Hw.storeLatch
  dsimp only
  split
  · split
    · rw [Hw.sideFault_latch, hset]
    · exact hset
  · exact hset

theorem Hw.setLatch_shadows (m : Hw) (l : LatchId) (v : Nat) :
    (m.setLatch l v).arch.shadows = m.arch.shadows.filter fun x => x.latch ≠ l := by
  unfold Hw.setLatch
  cases l <;> simp [Hw.setLatchLive]

theorem Hw.storeLatch_shadows (m : Hw) (l : LatchId) (v : Nat) :
    (m.storeLatch l v).arch.shadows = m.arch.shadows.filter fun x => x.latch ≠ l := by
  unfold Hw.storeLatch
  dsimp only
  split
  · split
    · rw [Hw.sideFault_arch_shadows, Hw.setLatch_shadows]
    · rw [Hw.setLatch_shadows]
  · rw [Hw.setLatch_shadows]

@[simp] theorem Hw.setLatch_flt (m : Hw) (l : LatchId) (v : Nat) : (m.setLatch l v).flt = m.flt := by
  unfold Hw.setLatch
  cases l <;> simp [Hw.setLatchLive]

theorem Hw.storeLatch_clamped {m : Hw} {l : LatchId} {v : Nat} {w : Engine} (howner : l.owner = some w)
    (hout : (clampLatch l v).2 = true) :
    m.storeLatch l v = (m.setLatch l (clampLatch l v).1).sideFault w.side Kind.LATCH_CLAMP w.id l.index := by
  simp [Hw.storeLatch, howner, hout]

theorem Hw.storeLatch_said {m : Hw} {l : LatchId} {v : Nat} {w : Engine} (howner : l.owner = some w)
    (hout : (clampLatch l v).2 = true) (hside : w.side = .field) :
    m.said (m.storeLatch l v) Kind.LATCH_CLAMP w.id l.index := by
  rw [Hw.storeLatch_clamped howner hout]
  have hs := Hw.sideFault_said (m := m.setLatch l (clampLatch l v).1) hside Kind.LATCH_CLAMP w.id l.index
  rwa [Hw.said, Hw.setLatch_flt] at hs

theorem Hw.storeLatch_hsaid {m : Hw} {l : LatchId} {v : Nat} {w : Engine} (howner : l.owner = some w)
    (hout : (clampLatch l v).2 = true) (hside : w.side = .host) :
    m.hsaid (m.storeLatch l v) Kind.LATCH_CLAMP w.id l.index := by
  rw [Hw.storeLatch_clamped howner hout]
  have hs := Hw.sideFault_hsaid (m := m.setLatch l (clampLatch l v).1) hside Kind.LATCH_CLAMP w.id l.index
  rwa [Hw.hsaid, Hw.setLatch_flt] at hs

/-- A write of a latch with its effects: the write acts on the block, or on it with its rails' references settled, and
  the
effects leave the latches and the faults. -/
theorem Hw.writeLatch_effects (m : Hw) (l : LatchId) (f : Hw → Hw) :
    ∃ m1, Within (parts [.rails]) m m1 ∧ Within Touch.latchEffects (f m1) (m.writeLatch l f) := by
  unfold Hw.writeLatch Hw.retarget Hw.newPolicy
  cases l with
  | polSet n => exact ⟨m, .refl, Within.refl.setRail.setSlewing.regOf.railsFollow.batfet⟩
  | qrSet n => exact ⟨m, .refl, Within.refl.setRail.setSlewing.regOf.railsFollow.batfet⟩
  | frzPol => exact ⟨m.settleRefs, Within.refl.settleRefs, Within.refl.latchEffect⟩
  | _ => exact ⟨m, .refl, Within.refl.latchEffect⟩

section
variable {m m1 m' : Hw}

theorem Within.effects_latch (h : Within Touch.latchEffects m m') (l : LatchId) : m'.latch l = m.latch l :=
  h.latch_eq (by decide +kernel) (Touch.latchLive_apart_effects l)

theorem Within.rails_flt (h : Within (parts [.rails]) m m1) : m1.flt.input = m.flt.input ∧ m1.flt.hostBuf =
  m.flt.hostBuf :=
  ⟨(h.kept .faultInput).1, h.kept .hostFaults⟩

theorem Within.rails_latchBad (h : Within (parts [.rails]) m m1) (l : LatchId) : m1.latchBad l = m.latchBad l := by
  obtain ⟨hsh, -⟩ := h.kept .latches
  rw [Hw.latchBad, hsh, Hw.latchBad]

theorem Hw.ownerAway_of_rails (h : Within (parts [.rails]) m m1) (l : LatchId) : m1.ownerAway l = m.ownerAway l := by
  have heng : m1.arch.engines = m.arch.engines := h.kept .engines
  simp only [Hw.ownerAway, Hw.away, Hw.engine, heng]

end

theorem Hw.ownLatch_taken {m : Hw} {l : LatchId} (haway : m.ownerAway l = false) (hbad : m.latchBad l = false) (v :
  Nat) :
    m.ownLatch l v = m.storeLatch l v := by
  simp [Hw.ownLatch, Hw.putLatch, haway, hbad]

theorem Hw.ownerAway_of_owner {m : Hw} {l : LatchId} {w : Engine} (howner : l.owner = some w) : m.ownerAway l = m.away
  w := by
  rw [Hw.ownerAway, howner]

/-- An engine that is not away runs, and is not restarting. -/
theorem Hw.engine_of_not_away {m : Hw} {w : Engine} (h : m.away w = false) :
    (m.engine w).running = true ∧ (m.engine w).restarting = false := by
  simp only [Hw.away, Bool.or_eq_false_iff, Bool.not_eq_false'] at h
  exact ⟨h.1.1.1, h.1.1.2⟩

/-- The owner's write, where nothing refuses it. -/
theorem execLatchWrite_owner {s : State} {w : Engine} {l : LatchId} (v : Nat) (howner : l.owner = some w) (hl : l ≠
  .xferCtl)
    (hbad : s.hw.latchBad l = false) (haway : s.hw.away w = false) :
    exec (.latchWrite w l v false) s = .next (s.on fun m => m.writeLatch l fun m => m.ownLatch l v) := by
  obtain ⟨hrun, hrestart⟩ := Hw.engine_of_not_away haway
  have hnot : s.hw.ownerAway l = false := by rw [Hw.ownerAway_of_owner howner, haway]
  change effect s _ = _
  simp [State.on, hbad, hrun, hrestart, howner, hnot, hl]

/-- What the owner's write leaves: the value held to the range, and LATCH_CLAMP where it was outside. -/
theorem Hw.ownerWrite {m : Hw} {w : Engine} {l : LatchId} (v : Nat) (howner : l.owner = some w)
    (hbad : m.latchBad l = false) (haway : m.away w = false) :
    let m' := m.writeLatch l fun m => m.ownLatch l v
    m'.latch l = (clampLatch l v).1 ∧
      ((clampLatch l v).2 = true → w.side = .field → m.said m' Kind.LATCH_CLAMP w.id l.index) ∧
      ((clampLatch l v).2 = true → w.side = .host → m.hsaid m' Kind.LATCH_CLAMP w.id l.index) := by
  obtain ⟨m1, hrails, heff⟩ := m.writeLatch_effects l fun m => m.ownLatch l v
  have hstore : m1.ownLatch l v = m1.storeLatch l v :=
    Hw.ownLatch_taken (by rw [Hw.ownerAway_of_rails hrails, Hw.ownerAway_of_owner howner, haway])
      (by rw [hrails.rails_latchBad, hbad]) v
  rw [hstore] at heff
  obtain ⟨hin, hhost⟩ := hrails.rails_flt
  refine ⟨?_, fun hout hside => ?_, fun hout hside => ?_⟩
  · rw [heff.effects_latch, Hw.storeLatch_latch m1 v (by rintro rfl; cases howner)]
  · exact ((heff.kept .faultInput).1.trans (Hw.storeLatch_said howner hout hside)).trans (by rw [hin])
  · exact ((heff.kept .hostFaults).trans (Hw.storeLatch_hsaid howner hout hside)).trans (by rw [hhost])


/-- The rewrite of F0 SUPERVISOR: the latch is good again, and its loop follows the value written. -/
theorem Hw.rewrite {m : Hw} {l : LatchId} (v : Nat) (hka : l = .kaSet → v < 64 ∧ bitsOf v 2 2 = 0) :
    let m' := m.writeLatch l fun m => m.storeLatch l v
    m'.latchBad l = false ∧ m'.loopValue l = (clampLatch l v).1 := by
  obtain ⟨m1, -, heff⟩ := m.writeLatch_effects l fun m => m.storeLatch l v
  obtain ⟨hsh, -⟩ := heff.kept .latches
  rw [Hw.storeLatch_shadows] at hsh
  have hnone : (m1.arch.shadows.filter fun x => x.latch ≠ l).find? (fun x => x.latch = l) = none := by
    simp [List.find?_eq_none]
  constructor
  · rw [Hw.latchBad, hsh, List.any_eq_false]
    intro x hx
    have hne := (List.mem_filter.1 hx).2
    simp_all
  · rw [Hw.loopValue, hsh, hnone, heff.effects_latch, Hw.storeLatch_latch m1 v hka]

/-! A direction ordered of the transfer stage: what it leaves of XFER_CTL and of the faults. -/

theorem Hw.putLatch_intakeLim (m : Hw) (v : Nat) (hlow : 5 ≤ v) (hhigh : v ≤ 600) :
    m.putLatch .intakeLim v = if m.latchBad .intakeLim then m else m.setLatch .intakeLim v := by
  have hin : clampLatch .intakeLim v = (v, false) := by
    simp [clampLatch, clampN, show ¬v < 5 by omega, show ¬600 < v by omega]
  simp [Hw.putLatch, Hw.storeLatch, hin, LatchId.owner]

/-- A step that leaves the host faults, XFER_CTL and the order that waits for thaw. -/
structure Hw.OrderKept (m m' : Hw) : Prop where
  hostBuf : m'.flt.hostBuf = m.flt.hostBuf
  xferCtl : m'.arch.xferCtl = m.arch.xferCtl
  ordered : m'.xfer.ordered = m.xfer.ordered

namespace Hw.OrderKept

theorem refl (m : Hw) : m.OrderKept m := ⟨rfl, rfl, rfl⟩

theorem trans {m m1 m' : Hw} (h : m.OrderKept m1) (h' : m1.OrderKept m') : m.OrderKept m' :=
  ⟨h'.hostBuf.trans h.hostBuf, h'.xferCtl.trans h.xferCtl, h'.ordered.trans h.ordered⟩

theorem ite {c : Prop} [Decidable c] {m a b : Hw} (ha : m.OrderKept a) (hb : m.OrderKept b) :
    m.OrderKept (if c then a else b) := by
  split
  · exact ha
  · exact hb

end Hw.OrderKept

theorem Within.orderKept {sc : List Touch} {m m' : Hw} (h : Within sc m m')
    (hf : (Touch.part .hostFaults).within sc = false := by decide +kernel)
    (hl : (Touch.part .latches).within sc = false := by decide +kernel)
    (hx : (Touch.part .xfer).within sc = false := by decide +kernel) : m.OrderKept m' :=
  ⟨h.kept .hostFaults hf, (h.kept .latches hl).2.1, congrArg Xfer.ordered (h.kept .xfer hx)⟩

theorem Hw.switched_orderKept (m : Hw) (new : Nat) : m.OrderKept (m.switched new) := by
  have hput := fun m : Hw => m.putLatch_intakeLim 50 (by decide) (by decide)
  constructor <;> simp only [Hw.switched, Hw.alertSet_flt, Hw.alertSet_arch, Hw.alertSet_xfer, Hw.wr_flt, Hw.wr_arch,
    Hw.wr_xfer, hput] <;> split <;> rfl

theorem Hw.openActive_orderKept (m : Hw) : m.OrderKept m.openActive := by
  unfold Hw.openActive
  dsimp only
  split
  · exact .refl m
  · exact (m.switched_orderKept 0).trans (Within.refl.sourceRecord (hs := Touch.covers_refl _)).orderKept

theorem Hw.take_orderKept (m : Hw) (x : PowerSrc) (mv : Nat) : m.OrderKept (m.take x mv) := by
  obtain ⟨hbuf, hctl, hord⟩ := m.switched_orderKept x.code
  unfold Hw.take Hw.activate
  exact .trans (m1 := { m.switched x.code with
    intake := { (m.switched x.code).intake with blocked := false, startCap := true, vsource := mv, prioHold := false }
    xfer := { (m.switched x.code).xfer with drainTo := none, bleed := false } }) ⟨hbuf, hctl, hord⟩
    (Within.refl.sourceRecord (hs := Touch.covers_refl _)).orderKept

theorem Hw.settleSource_orderKept (m : Hw) : m.OrderKept m.settleSource := by
  unfold Hw.settleSource
  split
  · exact .refl m
  · split
    · exact m.take_orderKept _ _
    · exact .refl m

theorem Hw.phasesFollow_orderKept (m : Hw) (old dir : Nat) : m.OrderKept (m.phasesFollow old dir) :=
  (Within.refl.phasesFollow (hs := Touch.covers_refl _)).orderKept

theorem Hw.recordH_orderKept (m : Hw) (k : RecKind) (src : Nat) (p : List Byte) : m.OrderKept (m.recordH k src p) :=
  (Within.refl.recordH (hs := Touch.covers_refl _)).orderKept

theorem Hw.dirDone_orderKept (m : Hw) (old dir : Nat) : m.OrderKept (m.dirDone old dir) := by
  unfold Hw.dirDone
  refine .trans (.trans (m1 := ({ m with xfer := { m.xfer with
    target := dir, before := dir, step := 0, frames := 0, failures := 0, retryAt := none, ovStop := false } } : Hw).wr
      Reg.XFER_STATUS_DIR dir) ⟨rfl, rfl, rfl⟩ (.trans (Hw.phasesFollow_orderKept _ old dir) ?_))
    (Hw.settleSource_orderKept _)
  split
  · exact .refl _
  · exact .trans (m1 := Hw.bump _ _) ⟨rfl, rfl, rfl⟩ (Hw.recordH_orderKept ..)

/-- The owner's write of a direction in the range of XFER_CTL. -/
theorem Hw.ownLatch_xferCtl {m : Hw} {dir : Nat} (hdir : dir ≤ 2) (haway : m.ownerAway .xferCtl = false)
    (hbad : m.latchBad .xferCtl = false) : m.ownLatch .xferCtl dir = m.setLatch .xferCtl dir := by
  have hin : clampLatch .xferCtl dir = (dir, false) := by simp [clampLatch, clampN, show ¬2 < dir by omega]
  rw [Hw.ownLatch_taken haway hbad]
  simp [Hw.storeLatch, hin, LatchId.owner]

theorem Hw.changeDir_orderKept {m : Hw} {dir : Nat} (reached : Nat) (hdir : dir ≤ 2) (haway : m.ownerAway .xferCtl =
  false)
    (hbad : m.latchBad .xferCtl = false) : (m.setLatch .xferCtl dir).OrderKept (m.changeDir dir reached) := by
  unfold Hw.changeDir
  simp only [haway, hbad, Bool.or_self, Bool.false_eq_true, if_false, Hw.ownLatch_xferCtl hdir haway hbad]
  have hwind : (m.setLatch .xferCtl dir).OrderKept (m.setLatch .xferCtl dir).windDown := ⟨rfl, rfl, rfl⟩
  have hopen : (m.setLatch .xferCtl dir).OrderKept (if dir = 2 then (m.setLatch .xferCtl dir).windDown.openActive
      else (m.setLatch .xferCtl dir).windDown) := by
    split
    · exact hwind.trans (Hw.openActive_orderKept _)
    · exact hwind
  generalize (if dir = 2 then (m.setLatch .xferCtl dir).windDown.openActive
    else (m.setLatch .xferCtl dir).windDown) = m1 at hopen ⊢
  exact hopen.trans (.ite (Hw.dirDone_orderKept ..) ⟨rfl, rfl, rfl⟩)

theorem Hw.directed_orderKept {m : Hw} {dir : Nat} (hdir : dir ≤ 2) (haway : m.ownerAway .xferCtl = false)
    (hbad : m.latchBad .xferCtl = false) : (m.setLatch .xferCtl dir).OrderKept
      (if m.rd Reg.XFER_STATUS_DIR = dir then m.ownLatch .xferCtl dir else m.changeDir dir 0) := by
  refine .ite ?_ (Hw.changeDir_orderKept 0 hdir haway hbad)
  rw [Hw.ownLatch_xferCtl hdir haway hbad]
  exact .refl _

/-- H1 POWER orders a direction outside freeze, with a stage that is not latched. -/
theorem Hw.instructDir_orders {m : Hw} {dir : Nat} (hdir : dir ≤ 2) (haway : m.ownerAway .xferCtl = false)
    (hbad : m.latchBad .xferCtl = false) (hlatched : m.rd Reg.XFER_STATUS_LATCHED = 0)
    (hquiet : m.rd Reg.XFER_STATUS_QUIET = 0) : (m.instructDir dir).flt.hostBuf = m.flt.hostBuf ∧
      (m.instructDir dir).arch.xferCtl = dir ∧ (m.instructDir dir).xfer.ordered = none := by
  unfold Hw.instructDir
  rw [if_neg (by simp [hlatched]), if_neg (by simp [hquiet])]
  obtain ⟨hbuf, hctl, hord⟩ := Hw.directed_orderKept (m := { m with xfer := { m.xfer with
    ordered := none, retryAt := if dir = m.xfer.retryDir then m.xfer.retryAt else none } }) hdir haway hbad
  exact ⟨hbuf, hctl, hord⟩

/-! The commands. -/

theorem Within.ownerAway_eq {sc : List Touch} {m m' : Hw} (h : Within sc m m')
    (he : (Touch.part .engines).within sc = false := by decide +kernel) (l : LatchId) : m'.ownerAway l = m.ownerAway l
      := by
  have heng : m'.arch.engines = m.arch.engines := h.kept .engines he
  simp only [Hw.ownerAway, Hw.away, Hw.engine, heng]

theorem Within.latchBad_eq {sc : List Touch} {m m' : Hw} (h : Within sc m m')
    (hl : (Touch.part .latches).within sc = false := by decide +kernel) (l : LatchId) : m'.latchBad l = m.latchBad l
      := by
  obtain ⟨hsh, -⟩ := h.kept .latches hl
  rw [Hw.latchBad, hsh, Hw.latchBad]

/-- H1 POWER's write of XFER_CTL, as a step of the block. -/
theorem execLatchWrite_xferCtl {s : State} (v : Nat) (hbad : s.hw.latchBad .xferCtl = false) (haway : s.hw.away .h1 =
  false) :
    exec (.latchWrite .h1 .xferCtl v false) s = .next (s.on fun m =>
      (if v ≤ 2 then m else m.sideFault .host Kind.LATCH_CLAMP Engine.h1.id LatchId.xferCtl.index).instructDir
        (clampLatch .xferCtl v).1) := by
  obtain ⟨hrun, hrestart⟩ := Hw.engine_of_not_away haway
  have hnot : s.hw.ownerAway .xferCtl = false := haway
  change effect s _ = _
  simp [State.on, hbad, hrun, hrestart, hnot, LatchId.owner]

/-- What a parity error of a latch leaves: the loop goes on at the value last written. -/
theorem execLatchParity_fails {s : State} {l : LatchId} {live : Nat}
    (hnone : s.hw.arch.shadows.find? (fun x => x.latch = l) = none) (hne : live ≠ s.hw.latch l) :
    ∃ t, exec (.latchParity l live) s = .next t ∧ t.hw.latchBad l = true ∧ t.hw.loopValue l = s.hw.latch l ∧
      (2 ≤ l.index → s.hw.said t.hw Kind.LATCH_PARITY l.unit l.index) ∧
      (l.index < 2 → s.hw.hsaid t.hw Kind.LATCH_PARITY l.unit l.index) := by
  have hgood : s.hw.latchBad l = false := by
    rw [List.find?_eq_none] at hnone
    rw [Hw.latchBad, List.any_eq_false]
    intro x hx
    have := hnone x hx
    simp_all
  have hsh : (s.hw.setLatchLive l live).arch.shadows = s.hw.arch.shadows := by cases l <;> rfl
  have hflt : (s.hw.setLatchLive l live).flt = s.hw.flt := by cases l <;> rfl
  refine ⟨_, rfl, ?_⟩
  simp only [State.on_hw, hgood, hne, Bool.false_eq_true, or_self, if_false]
  refine ⟨?_, ?_, fun hfield => ?_, fun hhost => ?_⟩
  · simp [Hw.latchBad]
  · simp [Hw.loopValue, List.find?_append, hsh, hnone]
  · rw [if_neg (by omega)]
    exact (Hw.sideFault_said rfl _ _ _).trans (by rw [hflt])
  · rw [if_pos hhost]
    exact (Hw.sideFault_hsaid rfl _ _ _).trans (by rw [hflt])

/-- Settles O11: the owner's write, a foreign write, a parity error and the rewrite, each from the rule of its write. -/
theorem latchesObeyTheirOwners : Obligations.LatchesObeyTheirOwners := by
  unfold Obligations.LatchesObeyTheirOwners
  refine ⟨?_, ?_, ?_, ?_, ?_, ?_, ?_, ?_⟩
  · intro s w l v howner hl hbad haway
    exact ⟨_, execLatchWrite_owner v howner hl hbad haway, Hw.ownerWrite v howner hbad haway⟩
  · intro s v hbad haway hlatched hquiet
    rw [Hw.on_eq_false] at hlatched hquiet
    refine ⟨_, execLatchWrite_xferCtl v hbad haway, ?_⟩
    have hclamp : (clampLatch .xferCtl v).1 = min v 2 := by
      simp only [clampLatch, clampN]
      split <;> [omega; split <;> omega]
    have hdir : min v 2 ≤ 2 := Nat.min_le_right v 2
    rw [State.on_hw, hclamp]
    split
    · next hv =>
      obtain ⟨-, hctl, hord⟩ := Hw.instructDir_orders hdir haway hbad hlatched hquiet
      exact ⟨hctl, hord, fun hlt => absurd hv (by omega)⟩
    · have hw : Within Touch.hostFault s.hw
          (s.hw.sideFault .host Kind.LATCH_CLAMP Engine.h1.id LatchId.xferCtl.index) := Within.refl.sideFault
      obtain ⟨hbuf, hctl, hord⟩ := Hw.instructDir_orders hdir ((hw.ownerAway_eq (by decide +kernel) .xferCtl).trans
        haway)
        ((hw.latchBad_eq (by decide +kernel) .xferCtl).trans hbad)
        ((hw.rd Reg.XFER_STATUS_LATCHED (by decide +kernel)).trans hlatched)
        ((hw.rd Reg.XFER_STATUS_QUIET (by decide +kernel)).trans hquiet)
      exact ⟨hctl, hord, fun _ => hbuf.trans (Hw.sideFault_hsaid rfl _ _ _)⟩
  · intro s v hbad haway
    refine ⟨_, execLatchWrite_owner v rfl (by decide) hbad haway, ?_⟩
    obtain ⟨hlatch, hsaid, -⟩ := Hw.ownerWrite (l := .chgV) v rfl hbad haway
    have hmin : (clampLatch .chgV v).1 = min v 2990 := by
      simp only [clampLatch, clampN]
      split <;> [omega; split <;> omega]
    refine ⟨hlatch.trans hmin, fun hv => hsaid ?_ rfl⟩
    simp only [clampLatch] at hmin ⊢
    simp [hmin]
    omega
  · intro s w l v hrun hrestart howner hbad
    refine ⟨s.on fun m => m.sideFault w.side Kind.LATCH_OWNER w.id l.index, ?_, fun k => ?_, fun hside => ?_, fun
      hside => ?_⟩
    · change effect s _ = _
      simp [State.on, hrun, hrestart, howner, hbad]
    · simp
    · exact Hw.sideFault_said hside _ _ _
    · exact Hw.sideFault_hsaid hside _ _ _
  · intro s w l v r hr
    refine State.next_on_self ?_
    rcases hr with rfl | hrun | hrestart
    · simp
    · simp (disch := decide +kernel) [*]
    · simp (disch := decide +kernel) [*]
  · intro s l live hnone hne
    exact execLatchParity_fails hnone hne
  · intro s l
    refine State.next_on_self ?_
    simp
  · intro s l v hbad hrun hrestart hka
    refine ⟨s.on fun m => m.writeLatch l fun m => m.storeLatch l v, ?_, Hw.rewrite v hka⟩
    change effect s _ = _
    simp [State.on, hrun, hrestart, hbad]

end Sys2Proof.Machine
end

