-- ==== Sys2Proof/Proofs/SyncSources.lean ====
section
/-! PROOFS. Sync sources: a change of source, its events, its loss and the priority list (O12). -/

namespace Sys2Proof.Machine

set_option Elab.async false

theorem Hw.setSync_rd (m : Hw) {src state : Nat} (hsrc : src < 8) (hstate : state < 4) :
    (m.setSync src state).rd Reg.FRM_STATUS_SRC = src ∧ (m.setSync src state).rd Reg.FRM_STATUS_STATE = state := by
  unfold Hw.setSync
  split
  · assumption
  · simp (disch := decide +kernel) [*, Hw.rd_wr_lt (f := Reg.FRM_STATUS_SRC) hsrc, Hw.rd_wr_lt (f :=
    Reg.FRM_STATUS_STATE) hstate]

theorem Hw.setSync_seq (m : Hw) (src state : Nat) :
    (m.setSync src state).seq.t = m.seq.t ∧ ∀ x, (m.setSync src state).track x = m.track x := by
  unfold Hw.setSync Hw.syncRecord
  split
  · exact ⟨rfl, fun _ => rfl⟩
  · dsimp only
    split
    · exact ⟨rfl, fun x => by cases x <;> rfl⟩
    · refine ⟨by simp (disch := decide +kernel) [*], fun x => by cases x <;> simp (disch := decide +kernel) [*,
      Hw.track]⟩

@[simp] theorem Hw.setSync_sidebands (m : Hw) (src state : Nat) : (m.setSync src state).arch.sb = m.arch.sb :=
  (Within.refl.setSync (hs := Touch.covers_refl _)).kept .sidebands

theorem syncCode_lt (src : SyncSrc) : src.code < 8 := by cases src <;> decide

theorem syncOfCode_code (src : SyncSrc) : syncOfCode src.code = some src := by cases src <;> rfl

theorem syncOfCode_eq {c : Nat} {src : SyncSrc} (h : syncOfCode c = some src) : c = src.code := by
  unfold syncOfCode at h
  split at h <;> cases h <;> rfl

theorem Hw.qualifiedCode_lt {m : Hw} {c : Nat} (h : m.qualifiedCode c = true) : c < 8 := by
  unfold Hw.qualifiedCode at h
  split at h
  · next src hsrc => exact syncOfCode_eq hsrc ▸ (syncCode_lt src)
  · cases h

@[simp] theorem Hw.setTrack_track (m : Hw) (src : SyncSrc) (x : SyncTrack) : (m.setTrack src x).track src = x := by
  cases src <;> rfl

@[simp] theorem Hw.setTrack_seq_t (m : Hw) (src : SyncSrc) (x : SyncTrack) : (m.setTrack src x).seq.t = m.seq.t := by
  cases src <;> rfl

/-- The sequencer with a source's new track: the source is followed where it has qualified and the state asks for it
  (R49). -/
def Hw.follow (m : Hw) (src : SyncSrc) (x : SyncTrack) : Hw :=
  let m := m.setTrack src x
  let st := m.rd Reg.FRM_STATUS_STATE
  if !m.mayFollow then m
  else if x.qualified && st = 3 && m.priorities.contains src.code then m.setSync src.code 0
  else if x.qualified && 8 ≤ x.run && st = 2 && m.rd Reg.FRM_STATUS_SRC = src.code then m.setSync src.code 0
  else m

/-- The track of a source after an event now (R46, R48, R361). -/
def Hw.eventTrack (m : Hw) (src : SyncSrc) : SyncTrack :=
  let mult := if src = .line then max 1 (m.rd Reg.FRM_SRC_CFG_LINE_MULT) else 1
  let x := (m.track src).event m.now (m.period / mult) mult
  if src = .twin && !twinFollows (m.rd Reg.TWN_STATUS_STATE) then { x with run := 0, qualified := false } else x

/-- The line's level follows an event of a source that the line carries. -/
def Hw.lineEvent (m : Hw) (src : SyncSrc) : Hw :=
  if src = .line ∨ src = .cable then { m with arch := { m.arch with sb := { m.arch.sb with line := !m.arch.sb.line } }
    } else m

theorem execSourceEvent_follows {s : State} {src : SyncSrc} {t : Nat} (h : s.hw.lineCarries src = true) :
    exec (.sourceEvent src t) s =
      .next (s.on fun m => ((m.atT t).lineEvent src).follow src (((m.atT t).lineEvent src).eventTrack src)) := by
  have hcar : (s.hw.atT t).lineCarries src = true := by
    rw [← h]
    cases src <;> simp (disch := decide +kernel) [*, Hw.lineCarries, Hw.fsSelected, Hw.on]
  change effect s _ = _
  simp only [effect_eq, State.on, hcar, Bool.not_true, Bool.false_eq_true, if_false]
  rfl

theorem Hw.follow_track (m : Hw) (src : SyncSrc) (x : SyncTrack) :
    (m.follow src x).track src = x ∧ (m.follow src x).seq.t = m.seq.t ∧ (m.follow src x).arch.sb = m.arch.sb := by
  have hset : ∀ st, ((m.setTrack src x).setSync src.code st).track src = x ∧
      ((m.setTrack src x).setSync src.code st).seq.t = m.seq.t ∧
      ((m.setTrack src x).setSync src.code st).arch.sb = m.arch.sb := fun st => by
    obtain ⟨ht, htrack⟩ := (m.setTrack src x).setSync_seq src.code st
    simp (disch := decide +kernel) [*]
  have hkeep : (m.setTrack src x).track src = x ∧ (m.setTrack src x).seq.t = m.seq.t ∧
      (m.setTrack src x).arch.sb = m.arch.sb := by simp (disch := decide +kernel) [*]
  unfold Hw.follow
  dsimp only
  split
  · exact hkeep
  · split
    · exact hset 0
    · split
      · exact hset 0
      · exact hkeep

/-- The source is followed from FREE_RUN where the list names it, and from HOLDOVER where it was the source. -/
theorem Hw.follow_rd {m : Hw} {src : SyncSrc} {x : SyncTrack} (hmay : m.mayFollow = true) (hq : x.qualified = true)
    (hst : (m.rd Reg.FRM_STATUS_STATE = 3 ∧ src.code ∈ m.priorities) ∨
      (8 ≤ x.run ∧ m.rd Reg.FRM_STATUS_STATE = 2 ∧ m.rd Reg.FRM_STATUS_SRC = src.code)) :
    (m.follow src x).rd Reg.FRM_STATUS_SRC = src.code ∧ (m.follow src x).rd Reg.FRM_STATUS_STATE = 0 := by
  have hrd : ∀ f, (m.setTrack src x).rd f = m.rd f := fun f => by cases src <;> rfl
  have hmode : (m.setTrack src x).mayFollow = true := by rw [← hmay]; cases src <;> rfl
  have hpri : (m.setTrack src x).priorities = m.priorities := by cases src <;> rfl
  have hset := (m.setTrack src x).setSync_rd (syncCode_lt src) (show 0 < 4 by decide)
  unfold Hw.follow
  rcases hst with ⟨h3, hmem⟩ | ⟨hrun, h2, hsrc⟩
  · simpa [hrd, hmode, hpri, hq, h3, hmem] using hset
  · simpa [hrd, hmode, hpri, hq, h2, hrun, hsrc] using hset

theorem SyncTrack.event_lastAt (x : SyncTrack) (now nominal mult : Nat) : (x.event now nominal mult).lastAt = some now
  := rfl

theorem Hw.eventTrack_lastAt (m : Hw) (src : SyncSrc) : (m.eventTrack src).lastAt = some m.now := by
  unfold Hw.eventTrack
  dsimp only
  split <;> rfl

@[simp] theorem Hw.lineEvent_seq (m : Hw) (src : SyncSrc) : (m.lineEvent src).seq = m.seq := by
  unfold Hw.lineEvent
  split <;> rfl

@[simp] theorem Hw.lineEvent_rd (m : Hw) (src : SyncSrc) (f : Field) : (m.lineEvent src).rd f = m.rd f := by
  unfold Hw.lineEvent
  split <;> rfl

/-- A code names a source that has stayed qualified for 64 frames (R50). -/
def Hw.settledCode (m : Hw) (c : Nat) : Bool :=
  match syncOfCode c with
  | some x => (m.track x).qualified && decide (64 ≤ (m.track x).qualFrames)
  | none => false

theorem Hw.settledCode_of_not {m : Hw} {c : Nat} (h : m.qualifiedCode c = false) : m.settledCode c = false := by
  unfold Hw.qualifiedCode at h
  unfold Hw.settledCode
  split
  · next hx => simp_all
  · rfl

theorem execSourcePriorityChange_next (s : State) : exec .sourcePriorityChange s = .next (s.on fun m =>
    match (m.priorities.takeWhile (· != m.rd Reg.FRM_STATUS_SRC)).find? m.settledCode with
    | some c => if m.mayFollow then m.setSync c 0 else m
    | none => m) := rfl

/-- Settles O12: events and losses of the sources, the holdover and the priority list, from the rule of a change of
  source. -/
theorem syncSourcesFollowTheirList : Obligations.SyncSourcesFollowTheirList := by
  unfold Obligations.SyncSourcesFollowTheirList
  refine ⟨?_, ?_, ?_, ?_, ?_, ?_, ?_, ?_, ?_⟩
  · intro s src t hcar
    refine ⟨_, execSourceEvent_follows hcar, ?_⟩
    rw [State.on_hw]
    obtain ⟨htrack, ht, hsb⟩ := Hw.follow_track ((s.hw.atT t).lineEvent src) src (((s.hw.atT t).lineEvent
      src).eventTrack src)
    rw [htrack, ht, hsb]
    have hrd : ∀ f : Field, f.key ≠ Reg.PH_STATUS_ENTRY.key → f.key ≠ Reg.BATFET_STATUS_STATE.key →
        ((s.hw.atT t).lineEvent src).rd f = s.hw.rd f := fun f h1 h2 => by rw [Hw.lineEvent_rd, Hw.atT_rd h1 h2]
    have hmay : s.hw.mayFollow = true → ((s.hw.atT t).lineEvent src).mayFollow = true := fun h => by
      rw [← h, Hw.mayFollow, Hw.mode_rd, hrd _ (by decide) (by decide), Hw.mayFollow, Hw.mode_rd]
    have hpri : ((s.hw.atT t).lineEvent src).priorities = s.hw.priorities := by
      rw [Hw.priorities, hrd _ (by decide) (by decide), Hw.priorities]
    refine ⟨by simp (disch := decide +kernel) [*], ?_, fun hline => ?_, fun hm hq h3 hmem => ?_, fun hm hq hrun h2
      hsrc => ?_⟩
    · rw [Hw.eventTrack_lastAt]
      simp (disch := decide +kernel) [*, Hw.now]
    · simp (disch := decide +kernel) [*, Hw.lineEvent]
    · refine Hw.follow_rd (hmay hm) hq (.inl ⟨?_, hpri ▸ hmem⟩)
      rw [hrd _ (by decide) (by decide), h3]
    · refine Hw.follow_rd (hmay hm) hq (.inr ⟨hrun, ?_, ?_⟩)
      · rw [hrd _ (by decide) (by decide), h2]
      · rw [hrd _ (by decide) (by decide), hsrc]
  · intro s src t hcar
    refine State.next_on_eq ?_
    have hnot : (s.hw.atT t).lineCarries src = false := by
      rw [← hcar]
      cases src <;> simp (disch := decide +kernel) [*, Hw.lineCarries, Hw.fsSelected, Hw.on]
    simp only [hnot, Bool.not_false, if_true]
  · intro s src hSrc hState hLossDue
    refine ⟨_, rfl, ?_⟩
    have hlost : s.hw.syncLost = ((({ (s.hw.setTrack src (s.hw.track src).forget).wr Reg.FRM_STATUS_LOSS 1 with
        seq := { (s.hw.setTrack src (s.hw.track src).forget).seq with lossDue := true } } : Hw)).fault Kind.SYNC_LOST
          src.code) := by
      simp [Hw.syncLost, hSrc, syncOfCode_code, hState, hLossDue]
    rw [State.on_hw, hlost]
    cases src <;> simp (disch := decide +kernel) [*, Hw.said, Kind.SYNC_LOST, Hw.setTrack, Hw.track, SyncTrack.forget]
  · intro s hState
    refine State.next_on_self ?_
    have hnot : ¬(s.hw.rd Reg.FRM_STATUS_STATE = 0 ∨ s.hw.rd Reg.FRM_STATUS_STATE = 1) := by omega
    unfold Hw.syncLost
    dsimp only
    split
    · rfl
    · exact if_neg fun ⟨h, _⟩ => hnot h
  · intro s hState hHoldover
    refine ⟨_, rfl, ?_⟩
    simp only [State.on_hw, hState, hHoldover, and_self, if_true]
    refine ⟨fun hnone => ?_, fun c hsome => ?_⟩
    · rw [hnone]
      exact (s.hw.setSync_rd (by decide) (by decide)).symm
    · rw [hsome]
      exact (s.hw.setSync_rd (Hw.qualifiedCode_lt (List.find?_some hsome)) (by decide)).symm
  · intro s hState
    refine State.next_on_self ?_
    exact if_neg (by omega)
  · intro s pre l src hpri hpre hne hmay hq hframes
    refine ⟨_, execSourcePriorityChange_next s, ?_⟩
    have hwhile : (s.hw.priorities.takeWhile (· != s.hw.rd Reg.FRM_STATUS_SRC)) =
        pre ++ src.code :: l.takeWhile (· != s.hw.rd Reg.FRM_STATUS_SRC) := by
      rw [hpri, List.takeWhile_append_of_pos fun c hc => by simpa using (hpre c hc).1,
        List.takeWhile_cons_of_pos (by simpa using hne)]
    have hfind : (s.hw.priorities.takeWhile (· != s.hw.rd Reg.FRM_STATUS_SRC)).find? s.hw.settledCode = some src.code
      := by
      rw [hwhile, List.find?_append, List.find?_eq_none.2 fun c hc => by
        rw [Hw.settledCode_of_not (hpre c hc).2]
        decide]
      simp [Hw.settledCode, syncOfCode_code, hq, hframes]
    simp only [State.on_hw, hfind, hmay, if_true]
    exact s.hw.setSync_rd (syncCode_lt src) (by decide)
  · intro s hC
    rw [execSourcePriorityChange_next]
    refine State.next_on_self ?_
    have hfind : (s.hw.priorities.takeWhile (· != s.hw.rd Reg.FRM_STATUS_SRC)).find? s.hw.settledCode = none := by
      refine List.find?_eq_none.2 fun c hc => ?_
      rw [Hw.settledCode_of_not (hC c (List.takeWhile_subset _ hc))]
      decide
    simp only [hfind]
  · intro s pads
    exact State.next_on_eq rfl

end Sys2Proof.Machine
end

