-- ==== Sys2Proof/Proofs/Sources.lean ====
section
/-! PROOFS. The sources of the intake: when they qualify, when they are lost, and which of them is active (O15). -/

namespace Sys2Proof.Machine

set_option Elab.async false

theorem powerCode_lt (x : PowerSrc) : x.code < 4 := by cases x <;> decide

theorem powerCode_other (x : PowerSrc) : (otherSource x).code ≠ x.code := by cases x <;> decide

theorem Hw.switched_active (m : Hw) {new : Nat} (h : new < 4) : (m.switched new).rd Reg.INTAKE_STATUS_ACTIVE = new := by
  unfold Hw.switched
  simp (disch := decide +kernel) [*, Hw.rd_wr_lt (f := Reg.INTAKE_STATUS_ACTIVE) h]

@[simp] theorem Hw.activate_active (m : Hw) (x : PowerSrc) (mv : Nat) :
    (m.activate x mv).rd Reg.INTAKE_STATUS_ACTIVE = x.code := by
  unfold Hw.activate
  exact m.switched_active (powerCode_lt x)

@[simp] theorem Hw.activate_intake (m : Hw) (x : PowerSrc) (mv : Nat) : (m.activate x mv).intake =
    { m.intake with blocked := false, startCap := true, vsource := mv, prioHold := false } := by
  unfold Hw.activate
  simp (disch := decide +kernel) [*]

@[simp] theorem Hw.take_active (m : Hw) (x : PowerSrc) (mv : Nat) :
    (m.take x mv).rd Reg.INTAKE_STATUS_ACTIVE = x.code := by
  unfold Hw.take
  simp (disch := decide +kernel) [*]

@[simp] theorem Hw.take_intake (m : Hw) (x : PowerSrc) (mv : Nat) : (m.take x mv).intake =
    { m.intake with blocked := false, startCap := true, vsource := mv, prioHold := false } := by
  unfold Hw.take
  simp (disch := decide +kernel) [*]

@[simp] theorem Hw.setQualified_qualified (m : Hw) (x : PowerSrc) (b : Bool) : (m.setQualified x b).qualified x = b :=
  by
  cases x <;> cases b <;> simp (disch := decide +kernel) [*, Hw.setQualified, Hw.qualified, Hw.on]

@[simp] theorem Hw.setQualified_other (m : Hw) (x : PowerSrc) (b : Bool) :
    (m.setQualified (otherSource x) b).qualified x = m.qualified x := by
  cases x <;> simp (disch := decide +kernel) [*, Hw.setQualified, Hw.qualified, Hw.on, otherSource]

/-- What the closing of an intake switch depends on (R78, R79, R100). -/
theorem Hw.mayClose_congr {m m' : Hw} (hdir : m'.rd Reg.XFER_STATUS_DIR = m.rd Reg.XFER_STATUS_DIR)
    (hx : m'.xfer = m.xfer) (hc : m'.cable = m.cable) (ht : m'.intake.thermalOpen = m.intake.thermalOpen)
    (ho : m'.intake.ovOpen = m.intake.ovOpen) (x : PowerSrc) : m'.mayClose x = m.mayClose x := by
  simp only [Hw.mayClose, Hw.reverse, hdir, hx, hc, ht, ho]

theorem Within.qualified_eq {sc : List Touch} {m m' : Hw} (h : Within sc m m')
    (hv : Touch.spares sc Reg.INTAKE_STATUS_VBUS_QUAL.key = true := by decide +kernel)
    (hd : Touch.spares sc Reg.INTAKE_STATUS_DCIN_QUAL.key = true := by decide +kernel) (x : PowerSrc) :
    m'.qualified x = m.qualified x := by
  cases x
  · simp only [Hw.qualified, Hw.on, h.rd _ hv]
  · simp only [Hw.qualified, Hw.on, h.rd _ hd]

/-- The block with a source newly qualified, H-CORE and a field side in KEEPALIVE woken (R76, R238, R440). -/
def Hw.qualify (m : Hw) (x : PowerSrc) : Hw :=
  let m := (m.setQualified x true).hcoreWake
  if m.host.fieldAsleep then m.haltCode .attachWake else m

theorem Within.mayClose_eq {sc : List Touch} {m m' : Hw} (h : Within sc m m')
    (hdir : Touch.spares sc Reg.XFER_STATUS_DIR.key = true := by decide +kernel)
    (hx : (Touch.part .xfer).within sc = false := by decide +kernel)
    (hc : (Touch.part .cable).within sc = false := by decide +kernel)
    (hi : (Touch.part .intake).within sc = false := by decide +kernel) (x : PowerSrc) : m'.mayClose x = m.mayClose x :=
  have hin : m'.intake = m.intake := h.kept .intake hi
  Hw.mayClose_congr (h.rd _ hdir) (h.kept .xfer hx) (h.kept .cable hc) (by rw [hin]) (by rw [hin]) x

theorem Hw.qualify_wakes (m : Hw) (x : PowerSrc) :
    Within (parts [.hwdg, .sidebands] ++ Machine.regs [Reg.HP_STATUS_DOZE]) (m.setQualified x true) (m.qualify x) := by
  unfold Hw.qualify
  exact .ite Within.refl.hcoreWake.haltCode Within.refl.hcoreWake

theorem Hw.qualify_qualified (m : Hw) (x : PowerSrc) : (m.qualify x).qualified x = true := by
  rw [(m.qualify_wakes x).qualified_eq, Hw.setQualified_qualified]

theorem Hw.qualify_mayClose (m : Hw) (x y : PowerSrc) : (m.qualify x).mayClose y = m.mayClose y := by
  rw [(m.qualify_wakes x).mayClose_eq, (Within.refl.setQualified (hs := Touch.covers_refl _)).mayClose_eq]

theorem Hw.qualify_active (m : Hw) (x : PowerSrc) :
    (m.qualify x).rd Reg.INTAKE_STATUS_ACTIVE = m.rd Reg.INTAKE_STATUS_ACTIVE := by
  rw [(m.qualify_wakes x).rd _ (by decide +kernel)]
  simp (disch := decide +kernel) [*]

theorem execSourceQualify_qualifies {s : State} {x : PowerSrc} {mv : Nat} (hlo : (s.hw.risingWindow x).1 ≤ mv)
    (hhi : mv ≤ (s.hw.risingWindow x).2) : exec (.sourceQualify x mv) s = .next (s.on fun m =>
      let m := m.qualify x
      if m.rd Reg.INTAKE_STATUS_ACTIVE = 0 then (if m.mayClose x then m.take x mv else m)
      else if m.rd Reg.INTAKE_STATUS_ACTIVE ≠ x.code ∧ m.firstSource = x then
        { m with intake := { m.intake with prioHold := true } }
      else m) := by
  change effect s _ = _
  rw [effect_eq, State.on, State.on, if_neg (by omega)]
  rfl

theorem Hw.take_qualified (m : Hw) (x y : PowerSrc) (mv : Nat) : (m.take x mv).qualified y = m.qualified y :=
  (Within.refl.take (hs := Touch.covers_refl _)).qualified_eq (x := y)

/-- The block in which a source, and with it the other one where that is lost too, is not qualified any more (R76). -/
def Hw.unqualify (m : Hw) (x : PowerSrc) (both : Bool) : Hw :=
  let m := m.setQualified x false
  let m := if both then m.setQualified (otherSource x) false else m
  { m with intake := { m.intake with prioHold := m.intake.prioHold && m.qualified m.firstSource } }

theorem execIntakeSourceLoss_loses {s : State} {x : PowerSrc} {mv mv2 : Nat} (hq : s.hw.qualified x = true)
    (hout : s.hw.outside x mv = true) : exec (.intakeSourceLoss x mv mv2) s = .next (s.on fun m =>
      let both := m.qualified (otherSource x) && m.outside (otherSource x) mv2
      let m := m.unqualify x both
      if m.rd Reg.INTAKE_STATUS_ACTIVE = x.code then m.loseActive x mv mv2
      else if both && m.rd Reg.INTAKE_STATUS_ACTIVE == (otherSource x).code then m.loseActive (otherSource x) mv2 mv
      else m) := by
  change effect s _ = _
  rw [effect_eq, State.on, State.on, if_neg (by simp [hq, hout])]
  rfl

/-- What the loss of qualification leaves: the active source, the switches, the windows, the voltages and the faults. -/
theorem Hw.unqualify_within (m : Hw) (x : PowerSrc) (both : Bool) :
    Within (parts [.intake] ++ Machine.regs [Reg.INTAKE_STATUS_VBUS_QUAL, Reg.INTAKE_STATUS_DCIN_QUAL]) m (m.unqualify
      x both) := by
  unfold Hw.unqualify
  exact .part_intake (.ite Within.refl.setQualified.setQualified Within.refl.setQualified)

theorem Hw.unqualify_qualified (m : Hw) (x : PowerSrc) (both : Bool) : (m.unqualify x both).qualified x = false ∧
    (m.unqualify x both).qualified (otherSource x) = (m.qualified (otherSource x) && !both) := by
  cases x <;> cases both <;> simp (disch := decide +kernel) [*, Hw.unqualify, Hw.qualified, Hw.setQualified,
    otherSource, Hw.on]

theorem Hw.unqualify_intake (m : Hw) (x : PowerSrc) (both : Bool) : ∃ b,
    (m.unqualify x both).intake = { m.intake with prioHold := b } := by
  unfold Hw.unqualify
  cases both <;> exact ⟨_, by simp (disch := decide +kernel) [*]; rfl⟩

/-- The switch of the lost source open, its loss code on the way and its fault recorded (R79, R82). -/
def Hw.sourceGone (m : Hw) (x : PowerSrc) (mv : Nat) : Hw :=
  ((m.wr Reg.INTAKE_STATUS_ACTIVE 0).haltCode .sourceLoss).hfault
    (if (m.fallingWindow x).2 < mv then Kind.INTAKE_OV else Kind.INTAKE_UV) x.code

theorem Hw.loseActive_eq (m : Hw) (x : PowerSrc) (mv mv2 : Nat) : m.loseActive x mv mv2 =
    (if (m.sourceGone x mv).qualified (otherSource x) && (m.sourceGone x mv).mayClose (otherSource x) then
      ((m.sourceGone x mv).activate (otherSource x) mv2)
    else { (m.sourceGone x mv).switched 0 with
      xfer := { ((m.sourceGone x mv).switched 0).xfer with drainTo := some m.vLo } }).sourceRecord x.code
      (if (m.sourceGone x mv).qualified (otherSource x) && (m.sourceGone x mv).mayClose (otherSource x) then
        (otherSource x).code else 0) mv (m.rd Reg.INTAKE_LIM_EFF_LIM) := rfl

theorem Hw.sourceGone_within (m : Hw) (x : PowerSrc) (mv : Nat) :
    Within (Touch.hostFault ++ parts [.sidebands] ++ Machine.regs [Reg.INTAKE_STATUS_ACTIVE]) m (m.sourceGone x mv) :=
      by
  unfold Hw.sourceGone
  exact Within.refl.wr.haltCode.hfault

theorem Hw.sourceGone_hostBuf (m : Hw) (x : PowerSrc) (mv : Nat) : m.hsaid (m.sourceGone x mv)
    (if (m.fallingWindow x).2 < mv then Kind.INTAKE_OV else Kind.INTAKE_UV) 0x31 x.code := by
  unfold Hw.sourceGone Hw.hsaid
  rw [Hw.hfault_hostBuf]
  split <;> rfl

theorem Hw.activate_hostBuf (m : Hw) (x : PowerSrc) (mv : Nat) : (m.activate x mv).flt.hostBuf = m.flt.hostBuf := by
  unfold Hw.activate
  exact (m.switched_orderKept x.code).hostBuf

@[simp] theorem Hw.sourceRecord_hostBuf (m : Hw) (old new mv lim : Nat) :
    (m.sourceRecord old new mv lim).flt.hostBuf = m.flt.hostBuf :=
  (Within.refl.sourceRecord (hs := Touch.covers_refl _)).kept .hostFaults

theorem Hw.loseActive_hostBuf (m : Hw) (x : PowerSrc) (mv mv2 : Nat) :
    (m.loseActive x mv mv2).flt.hostBuf = (m.sourceGone x mv).flt.hostBuf := by
  rw [Hw.loseActive_eq, Hw.sourceRecord_hostBuf]
  split
  · rw [Hw.activate_hostBuf]
  · exact ((m.sourceGone x mv).switched_orderKept 0).hostBuf

theorem Hw.loseActive_alone {m : Hw} {x : PowerSrc} (mv mv2 : Nat) (hother : m.qualified (otherSource x) = false) :
    (m.loseActive x mv mv2).rd Reg.INTAKE_STATUS_ACTIVE = 0 ∧ (m.loseActive x mv mv2).xfer.drainTo = some m.vLo := by
  have hq : (m.sourceGone x mv).qualified (otherSource x) = false := by
    rw [(m.sourceGone_within x mv).qualified_eq, hother]
  rw [Hw.loseActive_eq, hq]
  simp (disch := decide +kernel) [*, Hw.switched_active]

theorem Hw.loseActive_over {m : Hw} {x : PowerSrc} (mv mv2 : Nat) (hother : m.qualified (otherSource x) = true)
    (hclose : m.mayClose (otherSource x) = true) :
    (m.loseActive x mv mv2).rd Reg.INTAKE_STATUS_ACTIVE = (otherSource x).code ∧
      (m.loseActive x mv mv2).intake.startCap = true := by
  have hq : (m.sourceGone x mv).qualified (otherSource x) = true := by
    rw [(m.sourceGone_within x mv).qualified_eq, hother]
  have hc : (m.sourceGone x mv).mayClose (otherSource x) = true := by
    rw [(m.sourceGone_within x mv).mayClose_eq, hclose]
  rw [Hw.loseActive_eq, hq, hc]
  simp (disch := decide +kernel) [*]

theorem Hw.unqualify_mayClose (m : Hw) (x y : PowerSrc) (both : Bool) : (m.unqualify x both).mayClose y = m.mayClose y
  := by
  obtain ⟨b, hin⟩ := m.unqualify_intake x both
  have h := m.unqualify_within x both
  exact Hw.mayClose_congr (h.rd _ (by decide +kernel)) (h.kept .xfer) (h.kept .cable) (by rw [hin]) (by rw [hin]) y

theorem Hw.unqualify_vLo (m : Hw) (x : PowerSrc) (both : Bool) : (m.unqualify x both).vLo = m.vLo := by
  obtain ⟨b, hin⟩ := m.unqualify_intake x both
  simp only [Hw.vLo, hin, (m.unqualify_within x both).rd Reg.INTAKE_CFG_WIN (by decide +kernel)]

theorem Hw.unqualify_hostBuf (m : Hw) (x : PowerSrc) (both : Bool) : (m.unqualify x both).flt.hostBuf = m.flt.hostBuf :=
  (m.unqualify_within x both).kept .hostFaults

theorem Hw.unqualify_fallingWindow (m : Hw) (x y : PowerSrc) (both : Bool) :
    (m.unqualify x both).fallingWindow y = m.fallingWindow y := by
  have hc : (m.unqualify x both).cable = m.cable := (m.unqualify_within x both).kept .cable
  cases y <;> simp only [Hw.fallingWindow, hc]

theorem Hw.outside_iff {m : Hw} {x : PowerSrc} {mv : Nat} :
    m.outside x mv = true ↔ mv < (m.fallingWindow x).1 ∨ (m.fallingWindow x).2 < mv := by
  simp [Hw.outside]

theorem Hw.frsClose_hostBuf (m : Hw) (vbus : Nat) : (m.frsClose vbus).flt.hostBuf = m.flt.hostBuf := by
  unfold Hw.frsClose
  split
  · split
    · exact m.openActive_orderKept.hostBuf
    · rfl
  · rfl

/-- Settles O15, each clause from the rules of the operations that its command uses. -/
theorem sourcesQualifyAndChange : Obligations.SourcesQualifyAndChange := by
  unfold Obligations.SourcesQualifyAndChange
  refine ⟨?_, ?_, ?_, ?_, ?_, ?_, ?_, ?_, ?_, ?_⟩
  · intro s x mv hin
    have hwin : (s.hw.risingWindow x).1 ≤ mv ∧ mv ≤ (s.hw.risingWindow x).2 := by
      rcases hin with ⟨rfl, hlo, hhi⟩ | ⟨rfl, hw, hlo, hhi⟩ | ⟨rfl, hw, hlo, hhi⟩
      · exact ⟨hlo, hhi⟩
      · simp [Hw.risingWindow, hw, hlo, hhi]
      · simp [Hw.risingWindow, hw, hlo, hhi]
    refine ⟨_, execSourceQualify_qualifies hwin.1 hwin.2, ?_⟩
    simp only [State.on_hw, Hw.qualify_active, Hw.qualify_mayClose]
    refine ⟨?_, fun h0 hclose => ?_, fun hstay => ?_⟩
    · split
      · split
        · rw [Hw.take_qualified, Hw.qualify_qualified]
        · rw [Hw.qualify_qualified]
      · split
        · exact Hw.qualify_qualified s.hw x
        · rw [Hw.qualify_qualified]
    · rw [if_pos h0, if_pos hclose]
      simp
    · split
      · next h0 =>
        rw [if_neg (by simpa [h0] using hstay), Hw.qualify_active]
      · split
        · exact s.hw.qualify_active x
        · rw [Hw.qualify_active]
  · intro s mv hmv
    exact State.next_on_self (if_pos hmv)
  · intro s x mv mv2 hq hout
    rw [← Hw.outside_iff] at hout
    refine ⟨_, execIntakeSourceLoss_loses hq hout, ?_⟩
    simp only [State.on_hw]
    generalize hboth : (s.hw.qualified (otherSource x) && s.hw.outside (otherSource x) mv2) = both
    have hact : (s.hw.unqualify x both).rd Reg.INTAKE_STATUS_ACTIVE = s.hw.rd Reg.INTAKE_STATUS_ACTIVE :=
      (s.hw.unqualify_within x both).rd _ (by decide +kernel)
    obtain ⟨hgone, hother⟩ := s.hw.unqualify_qualified x both
    have hlose : ∀ y a b, ((s.hw.unqualify x both).loseActive y a b).qualified x = false := fun y a b =>
      ((Within.refl.loseActive (hs := Touch.covers_refl _)).qualified_eq (x := x)).trans hgone
    rw [hact]
    refine ⟨?_, fun h => ?_, fun h hno => ?_, fun h hq2 hin hclose => ?_, fun h hin => ?_⟩
    · split
      · exact hlose ..
      · split
        · exact hlose ..
        · exact hgone
    · rw [if_pos h, Hw.hsaid, Hw.loseActive_hostBuf, Hw.sourceGone_hostBuf, Hw.unqualify_hostBuf,
      Hw.unqualify_fallingWindow]
    · rw [if_pos h, ← Hw.unqualify_vLo s.hw x both]
      refine Hw.loseActive_alone mv mv2 ?_
      rw [hother, ← hboth]
      rcases hno with hno | hno <;> simp [hno]
    · rw [if_pos h]
      refine Hw.loseActive_over mv mv2 ?_ ?_
      · rw [hother, ← hboth, hq2, hin]
        rfl
      · rw [Hw.unqualify_mayClose, hclose]
    · have hnot : both = false := by rw [← hboth, hin, Bool.and_false]
      rw [if_neg h, hnot, if_neg (by simp), ← hnot, hact]
  · intro s x mv mv2 h
    refine State.next_on_self (if_pos ?_)
    rcases h with h | ⟨h1, h2⟩
    · simp [h]
    · simp [Hw.outside, h1, h2]
  · intro s mv hpri hdcin hact hrev hhold htherm hov
    refine ⟨_, rfl, ?_⟩
    rw [Hw.on_eq_true] at hdcin
    simp [Hw.firstSource, hpri, hhold, hact, Hw.qualified, hdcin, PowerSrc.code, Hw.mayClose, hrev, htherm, hov]
  · intro s mv hpri hvbus hact hrev hsw hhold htherm hov
    refine ⟨_, rfl, ?_⟩
    rw [Hw.on_eq_true] at hvbus
    simp [Hw.firstSource, hpri, hhold, hact, Hw.qualified, hvbus, PowerSrc.code, Hw.mayClose, hrev, htherm, hov, hsw]
  · intro s mv h
    refine State.next_on_self (if_neg ?_)
    rcases h with h | h <;> simp [h]
  · intro s hact hblocked
    refine ⟨_, rfl, ?_⟩
    simp (disch := decide +kernel) [*, Hw.hsaid, Hw.frsClose_hostBuf]
    exact ⟨rfl, fun hrev => by rw [if_pos hrev, hrev, Hw.hfault_hostBuf]; rfl⟩
  · intro s h
    refine State.next_on_self (if_neg ?_)
    rcases h with h | h <;> simp [h]
  · intro s
    exact State.next_on_eq rfl

end Sys2Proof.Machine
end

