-- ==== Sys2Proof/Proofs/IntakeLimit.lean ====
section
/-! PROOFS. The intake's current limit, its writes and the start from an input (O16). -/

namespace Sys2Proof.Machine

set_option Elab.async false

/-- What the intake's limit reads where the latch's parity holds: the value, held to the loop's range (R29, R83). -/
theorem Hw.putLatch_intakeLim_rd {m : Hw} (hbad : m.latchBad .intakeLim = false) (v : Nat) :
    (m.putLatch .intakeLim v).rd Reg.INTAKE_LIM_EFF_LIM = clampN 5 600 v := by
  have hset : (m.setLatch .intakeLim (clampN 5 600 v)).rd Reg.INTAKE_LIM_EFF_LIM = clampN 5 600 v :=
    Hw.rd_wr_lt (f := Reg.INTAKE_LIM_EFF_LIM) (Nat.lt_of_le_of_lt (clampN_le (by decide) v) (by decide +kernel))
  have hclamp : (clampLatch .intakeLim v).1 = clampN 5 600 v := rfl
  rw [Hw.putLatch, if_neg (by simp [hbad])]
  simp only [Hw.storeLatch, LatchId.owner, hclamp]
  split
  · simp (disch := decide +kernel) [*]
  · exact hset

theorem leastLimit_cons (x : Nat × Nat) (xs : List (Nat × Nat)) :
    (leastLimit (x :: xs)).1 = min x.1 (leastLimit xs).1 := by
  rw [leastLimit]
  split <;> simp <;> omega

/-- The effective limit is the least of the limits that apply, and at most 6 A (R83). -/
theorem Hw.limitOf_least {m : Hw} (hcap : m.intake.startCap = false) : m.limitOf.1 =
    min (if m.intake.loaded then m.rd Reg.INTAKE_LIM_CFG_LIM else if m.intake.deadStart then m.intake.deadAdvert else
      50)
      (min (if m.rd Reg.INTAKE_STATUS_ACTIVE = 1 then min m.intake.advert (m.rd Reg.INTAKE_LIM_HOST_LIM)
        else m.rd Reg.INTAKE_LIM_HOST_LIM) 600) := by
  have hnil : (leastLimit []).1 = 600 := rfl
  by_cases hact : m.rd Reg.INTAKE_STATUS_ACTIVE = 1 <;>
    simp [Hw.limitOf, Hw.limits, hact, hcap, leastLimit_cons, hnil, apply_ite Prod.fst, Nat.min_assoc]

theorem clampN_min_six (v : Nat) : clampN 5 600 (min v 600) = clampN 5 600 v := by
  unfold clampN
  split_ifs <;> omega

theorem Hw.limitWrite_eq {m : Hw} (hbad : m.latchBad .intakeLim = false) (haway : m.away .h1 = false) :
    m.limitWrite = (m.putLatch .intakeLim m.limitOf.1).wr Reg.INTAKE_LIM_EFF_CAUSE m.limitOf.2 := by
  have howner : m.ownerAway .intakeLim = false := haway
  simp [Hw.limitWrite, Hw.ownLatch, hbad, howner]

theorem Hw.limitWrite_rd {m : Hw} (hbad : m.latchBad .intakeLim = false) (haway : m.away .h1 = false) :
    m.limitWrite.rd Reg.INTAKE_LIM_EFF_LIM = clampN 5 600 m.limitOf.1 ∧
      (m.on Reg.INTAKE_STATUS_PDISS_LIMIT = true → m.limitWrite.rd Reg.INTAKE_LIM_EFF_CAUSE = 3) := by
  rw [Hw.limitWrite_eq hbad haway]
  refine ⟨?_, fun hon => ?_⟩
  · simp (disch := decide +kernel) [*, Hw.putLatch_intakeLim_rd hbad]
  · rw [Hw.rd_wr_lt] <;> simp [Hw.limitOf, hon]
    decide +kernel

/-- The engine that was written, in a block that has it. -/
theorem Hw.engine_setEngine {m : Hw} {e : Engine} (x : EngineSt) (h : e.index < m.arch.engines.length) :
    (m.setEngine e x).engine e = x := by
  simp [Hw.setEngine, Hw.engine, h]

theorem Hw.engine_runEngine {m : Hw} {e : Engine} (hfree : (m.engine e).fenced = false)
    (h : e.index < m.arch.engines.length) : (m.runEngine e).engine e =
      { running := true, restarting := false, handover := false, fenced := false } := by
  simp [Hw.runEngine, hfree, Hw.engine_setEngine, h]

theorem Hw.runEngine_engine_ne {m : Hw} {e e' : Engine} (h : e'.index ≠ e.index) :
    (m.runEngine e).engine e' = m.engine e' := by
  unfold Hw.runEngine
  split
  · rfl
  · simp [Hw.setEngine, Hw.engine, List.getD, List.getElem?_set_ne h.symm]

theorem Hw.runEngine_engines_length (m : Hw) (e : Engine) :
    (m.runEngine e).arch.engines.length = m.arch.engines.length := by
  unfold Hw.runEngine
  split <;> simp [Hw.setEngine]

/-- A register of the host side reads its reset value where the host side's supply comes back (R91). -/
theorem Hw.hostBlank_rd (m : Hw) {f : Field} (h : isFieldAddr (f.key / 32) = false) : m.hostBlank.rd f = f.reset :=
  getKey_filter_none (fun _ => h) _

/-- The host side supplied again and its registers blank, its engines not yet started (R90, R91). -/
def Hw.hostBack (m : Hw) (inputs : Fin 8) : Hw :=
  let m := m.hostBlank
  let m := { m with intake := { m.intake with present := inputs }
                    modes := { m.modes with haonOn := true }
                    bist := { m.bist with hdue := List.range 7 } }
  (((m.powerDomain .hAon true).powerDomain .hCore true).powerDomain .hPwr false).wrB Reg.INTAKE_STATUS_HAUX
    (bitAt inputs 2)

theorem Hw.hostBack_engine (m : Hw) (inputs : Fin 8) (e : Engine) : (m.hostBack inputs).engine e = m.engine e := by
  have hengines : (m.hostBack inputs).arch.engines = m.arch.engines := by simp (disch := decide +kernel) [*,
    Hw.hostBack]
  rw [Hw.engine, Hw.engine, hengines]

theorem Hw.h2Up_engine {m : Hw} (hfree : (m.engine .h2).fenced = false) (hlen : m.arch.engines.length = 12) :
    (m.h2Up.engine .h2).running = true := by
  have hengines : m.h2Up.arch.engines = (m.runEngine .h2).arch.engines := by
    simp (disch := decide +kernel) [*, Hw.h2Up]
  rw [Hw.engine, hengines, ← Hw.engine, Hw.engine_runEngine hfree (by simp [hlen, Engine.index])]

theorem Hw.h2Up_host (m : Hw) : m.h2Up.host.hReady = true ∧ m.h2Up.rd Reg.ID_STATUS_HOST_READY = 1 := by
  refine ⟨?_, ?_⟩
  · unfold Hw.h2Up
    dsimp only
    split <;> split <;> simp (disch := decide +kernel) [*]
  · unfold Hw.h2Up
    dsimp only
    split <;> split <;> simp (disch := decide +kernel) [*]

theorem execHaonPowerUp_starts {s : State} {inputs : Fin 8} (hany : inputs.val ≠ 0)
    (hlow : s.hw.host.pinLow = false) (htest : bitAt s.hw.lb.testHigh 0 = false)
    (hfree : (s.hw.engine .h2).fenced = false) : exec (.haonPowerUp inputs) s =
      .next { s with hw := (((s.hw.hostBack inputs).runEngine .h0).runEngine .h1).h2Up } := by
  refine State.next_on_eq ((if_neg hany).trans (if_neg ?_))
  have hpin : (s.hw.hostBack inputs).host.pinLow = s.hw.host.pinLow := by simp (disch := decide +kernel) [*,
    Hw.hostBack]
  have hlb : (s.hw.hostBack inputs).lb.testHigh = s.hw.lb.testHigh := by simp (disch := decide +kernel) [*, Hw.hostBack]
  have heng := s.hw.hostBack_engine inputs .h2
  rw [← hpin] at hlow
  rw [← hlb] at htest
  rw [← heng] at hfree
  have hno : ¬((s.hw.hostBack inputs).host.pinLow || bitAt (s.hw.hostBack inputs).lb.testHigh 0 ||
      ((s.hw.hostBack inputs).engine .h2).fenced) = true := by rw [hlow, htest, hfree]; decide
  exact hno

theorem Hw.startStage_starts {m : Hw} (hlatched : m.rd Reg.XFER_STATUS_LATCHED = 0) :
    m.startStage.modes = m.modes ∧ m.startStage.intake = m.intake ∧
    m.startStage.rd Reg.INTAKE_STATUS_ACTIVE = m.rd Reg.INTAKE_STATUS_ACTIVE ∧
    m.startStage.rd Reg.XFER_STATUS_DBS = 1 ∧ m.startStage.rd Reg.PH_STATUS_ACTIVE = 1 := by
  have hw := Within.refl.startStage (m := m) (hs := Touch.covers_refl _)
  refine ⟨hw.modes_eq, hw.kept .intake, hw.rd _ (by decide +kernel), ?_, ?_⟩
  · simp (disch := decide +kernel) [*, Hw.startStage]
  · simp (disch := decide +kernel) [*, Hw.startStage]

theorem Hw.dbsStart_starts {m : Hw} (hlatched : m.rd Reg.XFER_STATUS_LATCHED = 0) : m.dbsStart.modes.faonOn = true ∧
    m.dbsStart.intake = m.intake ∧ m.dbsStart.rd Reg.INTAKE_STATUS_ACTIVE = m.rd Reg.INTAKE_STATUS_ACTIVE ∧
    m.dbsStart.rd Reg.XFER_STATUS_DBS = 1 ∧ m.dbsStart.rd Reg.PH_STATUS_ACTIVE = 1 := by
  rw [Hw.dbsStart, if_neg (by simp [Hw.on, hlatched])]
  obtain ⟨hmodes, hintake, hact, hdbs, hph⟩ := Hw.startStage_starts (m := (((({ m with modes := { m.modes with
      faonOn := true, shipNReady := m.modes.shipNReady && !m.modes.shipCell, shipCell := false } } : Hw).powerDomain
      .hPwr true).powerDomain .fAon true).powerDomain .fPwr true)) (by simp (disch := decide +kernel) [*,
        Hw.powerDomain])
  refine ⟨?_, hintake.trans ?_, hact.trans ?_, hdbs, hph⟩
  · rw [hmodes]
    simp (disch := decide +kernel) [*, Hw.powerDomain]
  · simp (disch := decide +kernel) [*, Hw.powerDomain]
  · simp (disch := decide +kernel) [*, Hw.powerDomain]

/-- The start from an input, where it is the active source or may become it (R91). -/
theorem Hw.hardStart_vbus {m : Hw} (advert : Nat) (hlatched : m.rd Reg.XFER_STATUS_LATCHED = 0)
    (hact : m.rd Reg.INTAKE_STATUS_ACTIVE = 1 ∨ m.mayClose .vbus = true) :
    (m.hardStart .vbus advert).modes.faonOn = true ∧ (m.hardStart .vbus advert).rd Reg.INTAKE_STATUS_ACTIVE = 1 ∧
    (m.hardStart .vbus advert).rd Reg.XFER_STATUS_DBS = 1 ∧ (m.hardStart .vbus advert).rd Reg.PH_STATUS_ACTIVE = 1 ∧
    (m.hardStart .vbus advert).intake.advert = advert := by
  have hread : (m.setQualified .vbus true).rd Reg.INTAKE_STATUS_ACTIVE = m.rd Reg.INTAKE_STATUS_ACTIVE := by simp
    (disch := decide +kernel) [*]
  have hclose : (m.setQualified .vbus true).mayClose .vbus = m.mayClose .vbus :=
    (Within.refl.setQualified (hs := Touch.covers_refl _)).mayClose_eq ..
  have hlat : (m.setQualified .vbus true).rd Reg.XFER_STATUS_LATCHED = 0 := by simp (disch := decide +kernel) [*]
  unfold Hw.hardStart
  rw [if_neg (by rw [hread, hclose]; rcases hact with h | h <;> simp [h, PowerSrc.code])]
  split
  next hon =>
    obtain ⟨hf, hi, ha, hd, hp⟩ := Hw.dbsStart_starts (m := { m.setQualified .vbus true with intake :=
      { (m.setQualified .vbus true).intake with deadStart := true, advert := advert, deadAdvert := advert } }) hlat
    exact ⟨hf, ha.trans hon, hd, hp, by rw [hi]⟩
  next hoff =>
    obtain ⟨hf, hi, ha, hd, hp⟩ := Hw.dbsStart_starts (m := { (m.setQualified .vbus true).take .vbus
      ((m.setQualified .vbus true).sourceMv .vbus) with intake := { ((m.setQualified .vbus true).take .vbus
      ((m.setQualified .vbus true).sourceMv .vbus)).intake with
        deadStart := true, advert := advert, deadAdvert := advert } }) (by simp (disch := decide +kernel) [*])
    exact ⟨hf, ha.trans ((m.setQualified .vbus true).take_active .vbus ((m.setQualified .vbus true).sourceMv .vbus)),
      hd, hp, by rw [hi]⟩

/-- Settles O16, each clause from the rules of the operations that its command uses. -/
theorem intakeLimitIsTheLeast : Obligations.IntakeLimitIsTheLeast := by
  unfold Obligations.IntakeLimitIsTheLeast
  refine ⟨?_, ?_, ?_, ?_, ?_, ?_⟩
  · intro s hLatchBad hAway hStartCap hLoaded
    refine ⟨_, rfl, ?_⟩
    obtain ⟨hlim, hcause⟩ := Hw.limitWrite_rd hLatchBad hAway
    refine ⟨hlim.trans ?_, hcause⟩
    rw [Hw.limitOf_least hStartCap, if_pos hLoaded, ← Nat.min_assoc, clampN_min_six]
    split <;> simp [Nat.min_assoc]
  · intro s
    refine ⟨_, rfl, ?_⟩
    simp (disch := decide +kernel) [*]
  · intro s hLoaded hStartCap hDeadStart hLatchBad hAway hLim hActive
    refine ⟨_, State.next_on_eq (if_neg (by simp [hLoaded])), ?_⟩
    have hlim := (Hw.limitWrite_rd (m := { s.hw with intake := { s.hw.intake with cfgAsked := false } })
      hLatchBad hAway).1
    refine ⟨hlim.trans ?_, by simp (disch := decide +kernel) [*]⟩
    rw [Hw.limitOf_least (m := { s.hw with intake := { s.hw.intake with cfgAsked := false } }) hStartCap, if_neg (by
      simp [hLoaded]), if_neg (by simp [hDeadStart])]
    change clampN 5 600 (min 50 (min (if s.hw.rd Reg.INTAKE_STATUS_ACTIVE = 1 then
      min s.hw.intake.advert (s.hw.rd Reg.INTAKE_LIM_HOST_LIM) else s.hw.rd Reg.INTAKE_LIM_HOST_LIM) 600)) = 50
    have hleast : 50 ≤ if s.hw.rd Reg.INTAKE_STATUS_ACTIVE = 1 then
        min s.hw.intake.advert (s.hw.rd Reg.INTAKE_LIM_HOST_LIM) else s.hw.rd Reg.INTAKE_LIM_HOST_LIM := by
      split <;> [exact le_min (hActive ‹_›) hLim; exact hLim]
    rw [Nat.min_eq_left (le_min hleast (by decide))]
    rfl

  · intro s w hRamp hLimit
    rw [Hw.on_eq_false] at hRamp
    refine ⟨_, rfl, ?_⟩
    simp (disch := decide +kernel) [*, Hw.hsaid, Kind.INTAKE_PDISS]
  · intro s inputs hVal hPinLow hBitAt hEngine hLength
    refine ⟨_, execHaonPowerUp_starts hVal hPinLow hBitAt hEngine, ?_⟩
    obtain ⟨hready, hon⟩ := Hw.h2Up_host (((s.hw.hostBack inputs).runEngine .h0).runEngine .h1)
    refine ⟨hready, hon, ?_, ?_, Hw.h2Up_engine ?_ ?_⟩
    · simp (disch := decide +kernel) [*, Hw.hostBack, Hw.hostBlank_rd]
      rfl
    · simp (disch := decide +kernel) [*, Hw.h2Up, Hw.hostBack]
    · rw [Hw.runEngine_engine_ne (by decide), Hw.runEngine_engine_ne (by decide), Hw.hostBack_engine, hEngine]
    · rw [Hw.runEngine_engines_length, Hw.runEngine_engines_length]
      simp (disch := decide +kernel) [*, Hw.hostBack]
  · intro s advert hFaonOn hAdvert hAdvert2 hLatched hActive
    rw [Hw.on_eq_false] at hLatched
    refine ⟨_, State.next_on_eq (if_neg (by simp [hFaonOn])), ?_⟩
    have hadvert : clampN 5 600 (advert / 10) = advert / 10 := by unfold clampN; split <;> [omega; split <;> omega]
    rw [hadvert]
    exact Hw.hardStart_vbus (advert / 10) hLatched hActive

end Sys2Proof.Machine
end

