-- ==== Sys2Proof/Proofs/Transfer.lean ====
section
/-! PROOFS. The transfer stage: its changes of direction, its protections and its latch (O18, O19). -/

namespace Sys2Proof.Machine

set_option Elab.async false

theorem Hw.phasesFollow_forward (m : Hw) (old : Nat) : (m.phasesFollow old 1).rd Reg.PH_STATUS_REV = 0 := by
  unfold Hw.phasesFollow
  rw [if_neg (by decide), if_pos rfl]
  dsimp only
  split
  · simp (disch := decide +kernel) [*]
  · split
    · simp (disch := decide +kernel) [*]
    · simp (disch := decide +kernel) [*]

theorem Hw.dirDone_dir (m : Hw) (old : Nat) {dir : Nat} (h : dir < 4) :
    (m.dirDone old dir).rd Reg.XFER_STATUS_DIR = dir := by
  unfold Hw.dirDone
  dsimp only
  have hval : dir % 2 ^ Reg.XFER_STATUS_DIR.width = dir := Nat.mod_eq_of_lt h
  split
  · simp (disch := decide +kernel) [*]
  · simp (disch := decide +kernel) [*]

theorem Hw.dirDone_forward (m : Hw) (old : Nat) : (m.dirDone old 1).rd Reg.PH_STATUS_REV = 0 := by
  unfold Hw.dirDone
  dsimp only
  split
  · simp (disch := decide +kernel) [*, Hw.phasesFollow_forward]
  · simp (disch := decide +kernel) [*, Hw.phasesFollow_forward]

/-- The last step of a change to FORWARD, with VBUS not sourced (R93, R94). -/
theorem Hw.changeDir_forward {m : Hw} (hswitch : m.cable.srcSwitch = false) (hdir : m.rd Reg.XFER_STATUS_DIR = 0)
    (hbad : m.latchBad .xferCtl = false) (haway : m.ownerAway .xferCtl = false) :
    m.changeDir 1 6 = (m.setLatch .xferCtl 1).windDown.dirDone 0 1 := by
  have hopen : (m.setLatch .xferCtl 1).windDown.interlockOpen 1 = true := by
    simp [Hw.interlockOpen, Hw.windDown, Hw.setLatch, Hw.setLatchLive, hswitch]
  simp [Hw.changeDir, hbad, haway, hdir, Hw.ownLatch_xferCtl (by decide : 1 ≤ 2) haway hbad, hopen]

theorem Hw.stopPhases_orderKept (m : Hw) : m.OrderKept m.stopPhases :=
  (Within.refl.stopPhases (hs := Touch.covers_refl _)).orderKept

theorem Hw.putLatch_xferCtl_flt {m : Hw} {dir : Nat} (h : dir ≤ 2) : (m.putLatch .xferCtl dir).flt = m.flt := by
  have hin : clampLatch .xferCtl dir = (dir, false) := by simp [clampLatch, clampN, show ¬2 < dir by omega]
  unfold Hw.putLatch
  split
  · rfl
  · simp [Hw.storeLatch, hin, LatchId.owner, Hw.setLatch, Hw.setLatchLive]

/-- Settles O18, each clause from the rules of the operations that its command uses. -/
theorem transferDirectionChanges : Obligations.TransferDirectionChanges := by
  unfold Obligations.TransferDirectionChanges
  refine ⟨?_, ?_, ?_⟩
  · intro s hQuiet hLatched hDir hSrcSwitch hLatchBad hAway
    refine ⟨_, State.next_on_eq ((if_neg (by simp [hQuiet, hLatched])).trans (if_neg (by simp [hDir]))), ?_⟩
    have hchange := Hw.changeDir_forward hSrcSwitch hDir hLatchBad hAway
    refine ⟨?_, ?_, ?_⟩
    · exact (congrArg (Hw.rd · Reg.XFER_STATUS_DIR) hchange).trans (Hw.dirDone_dir _ 0 (by decide))
    · exact (Hw.changeDir_orderKept 6 (by decide) hAway hLatchBad).xferCtl
    · exact (congrArg (Hw.rd · Reg.PH_STATUS_REV) hchange).trans (Hw.dirDone_forward _ 0)
  · intro s hDir hFrames
    refine ⟨_, State.next_on_eq (if_pos ⟨hDir, hFrames⟩), ?_, ?_⟩
    · simp (disch := decide +kernel) [*]
    · refine (Hw.settleSource_orderKept _).hostBuf.trans ?_
      rw [Hw.hfault_hostBuf]
      simp (disch := decide +kernel) [*, (Hw.stopPhases_orderKept _).hostBuf, Hw.putLatch_xferCtl_flt]
      rfl
  · intro s hMode hLatched
    refine ⟨_, rfl, ?_⟩
    have hclear : s.hw.xferClrLatch = _ := if_pos ⟨.inl hMode, hLatched⟩
    simp only [State.on_hw, hclear]
    simp (disch := decide +kernel) [*]

theorem Hw.openActive_active (m : Hw) : m.openActive.rd Reg.INTAKE_STATUS_ACTIVE = 0 := by
  unfold Hw.openActive
  dsimp only
  split
  · assumption
  · simp (disch := decide +kernel) [*, m.switched_active (new := 0) (by decide)]

/-- A failure of the stage: it is OFF, the fault is recorded, and it is tried again or latched (R98). -/
theorem Hw.xferFail_fails (m : Hw) (k : FaultKind) (detail : Nat) :
    (m.xferFail k detail).rd Reg.XFER_STATUS_DIR = 0 ∧ m.hsaid (m.xferFail k detail) k k.src detail := by
  unfold Hw.xferFail
  dsimp only
  refine ⟨?_, ?_⟩
  · split <;> simp (disch := decide +kernel) [*]
  · split
    · rw [Hw.hsaid, (Hw.settleSource_orderKept _).hostBuf, (Hw.recordH_orderKept ..).hostBuf]
      simp (disch := decide +kernel) [*, Hw.putLatch_xferCtl_flt, Hw.hfault_hostBuf]
    · simp (disch := decide +kernel) [*, Hw.hsaid, Hw.hfault_hostBuf]

theorem Hw.xferFail_retries {m : Hw} (k : FaultKind) (detail : Nat) (h : m.xfer.failures < 3) :
    (m.xferFail k detail).xfer.failures = m.xfer.failures + 1 ∧
      (m.xferFail k detail).xfer.retryAt = some (m.frnAfter 16) := by
  unfold Hw.xferFail
  rw [if_neg (by simp (disch := decide +kernel) [*])]
  simp (disch := decide +kernel) [*, Hw.frnAfter, Hw.frn]

theorem Hw.settleSource_mirror (m : Hw) : m.settleSource.xfer.mirror = m.xfer.mirror := by
  unfold Hw.settleSource
  split
  · rfl
  · split
    · unfold Hw.take Hw.activate
      simp (disch := decide +kernel) [*]
    · rfl

theorem Hw.xferFail_latches {m : Hw} (k : FaultKind) (detail : Nat) (h : 3 ≤ m.xfer.failures) :
    (m.xferFail k detail).rd Reg.XFER_STATUS_LATCHED = 1 ∧ (m.xferFail k detail).xfer.mirror = true := by
  unfold Hw.xferFail
  rw [if_pos (by simp (disch := decide +kernel) [*])]
  refine ⟨by simp (disch := decide +kernel) [*], (Hw.settleSource_mirror _).trans ?_⟩
  simp (disch := decide +kernel) [*]

/-- Where the stage's next direction is REVERSE, no input is active after its switch has opened (R93, R94). -/
theorem Hw.openedFor_interlock {m : Hw} {dir : Nat} (hswitch : dir = 1 → m.cable.srcSwitch = false) :
    (if dir = 2 then m.openActive else m).interlockOpen dir = true := by
  split
  · next h =>
    subst h
    simp [Hw.interlockOpen, Hw.openActive_active]
  · next h =>
    simp only [Hw.interlockOpen, if_neg h]
    split
    · next h1 => simp [hswitch h1]
    · rfl

/-- Settles O19, each clause from the rules of the operations that its command uses. -/
theorem intakeAndTransferProtect : Obligations.IntakeAndTransferProtect := by
  unfold Obligations.IntakeAndTransferProtect
  refine ⟨?_, ?_, ?_, ?_, ?_, ?_, ?_, ?_⟩
  · intro s ns
    refine ⟨_, rfl, ?_⟩
    simp (disch := decide +kernel) [*, Hw.said, Kind.XFER_QUIET_LATE]
  · intro s temp hTemp hThermalOpen
    refine ⟨_, rfl, ?_⟩
    simp (disch := decide +kernel) [*, Hw.hsaid, Kind.INTAKE_THERMAL, (Hw.openActive_orderKept _).hostBuf]
  · intro s mv hMv
    refine ⟨_, rfl, ?_⟩
    simp (disch := decide +kernel) [*, Hw.hsaid, Kind.CBUF_OV, (Hw.openActive_orderKept _).hostBuf]
  · intro s hDir hFailures
    refine ⟨_, State.next_on_eq (if_neg hDir), ?_⟩
    obtain ⟨hoff, hsays⟩ := s.hw.xferFail_fails Kind.XFER_OCP (s.hw.rd Reg.XFER_STATUS_DIR)
    obtain ⟨hcount, hretry⟩ := Hw.xferFail_retries Kind.XFER_OCP (s.hw.rd Reg.XFER_STATUS_DIR) hFailures
    exact ⟨hoff, hcount, hretry, hsays⟩
  · intro s a hRetryAt hFrnReached hQuiet hLatched hDir hFenced hLoopValue hRetryDir hRetryDir2
    rw [Hw.on_eq_false] at hQuiet hLatched
    have hwidth : s.hw.xfer.retryDir % 2 ^ Reg.XFER_STATUS_DIR.width = s.hw.xfer.retryDir := Nat.mod_eq_of_lt hRetryDir2
    have hopen := Hw.openedFor_interlock hRetryDir
    refine ⟨_, rfl, ?_⟩
    simp only [State.on_hw, hRetryAt]
    rw [if_pos ⟨hFrnReached, by simp [hQuiet], by simp [hLatched], hDir, hLoopValue, by simp [hFenced]⟩, if_pos hopen]
    simp (disch := decide +kernel) [*]
  · intro s mv hMv
    refine ⟨_, rfl, ?_⟩
    simp (disch := decide +kernel) [*, Hw.hsaid, Kind.XFER_VTB_OV]
  · intro s temp hTemp hThermal
    refine ⟨_, rfl, ?_⟩
    simp (disch := decide +kernel) [*, Hw.hsaid, Kind.XFER_THERMAL]
  · intro s mv hDir hFailures
    refine ⟨_, State.next_on_eq (if_neg hDir), ?_⟩
    obtain ⟨hoff, hsays⟩ := s.hw.xferFail_fails Kind.XFER_START_FAIL (mv / 100)
    obtain ⟨hlatch, hmirror⟩ := Hw.xferFail_latches Kind.XFER_START_FAIL (mv / 100) hFailures
    exact ⟨hoff, hlatch, hmirror, hsays⟩

end Sys2Proof.Machine
end

