-- ==== Sys2Proof/Proofs/Phases.lean ====
section
/-! PROOFS. The phases: what a change of the running phases leaves, and their protections (O21). -/

namespace Sys2Proof.Machine

set_option Elab.async false

theorem bitAt_putBit (v i : Nat) (b : Bool) : bitAt (putBit v i b) i = b := by
  have hpos : 0 < 2 ^ i := by positivity
  unfold putBit
  split
  next hset =>
    have hodd : v / 2 ^ i % 2 = 1 := by simpa [bitAt] using hset
    have hle : 2 ^ i ≤ v := by
      rcases Nat.lt_or_ge v (2 ^ i) with hlt | hge
      · rw [Nat.div_eq_of_lt hlt] at hodd
        omega
      · exact hge
    cases b
    · have hdiv : (v - 2 ^ i) / 2 ^ i = v / 2 ^ i - 1 := by
        rw [← Nat.sub_mul_div v (2 ^ i) 1, Nat.mul_one]
      simp only [Bool.false_eq_true, if_false, bitAt, hdiv]
      simp
      omega
    · exact hset
  next hclear =>
    have heven : v / 2 ^ i % 2 ≠ 1 := by simpa [bitAt] using hclear
    cases b
    · simpa using hclear
    · simp only [if_true, bitAt, Nat.add_div_right _ hpos]
      simp
      omega

/-- What a change of the running phases leaves of them: the selection of phases that the load asks for (R115). -/
theorem Hw.setActive_ph (m : Hw) (a : Nat) : ∃ all e, (m.setActive a).ph = { m.ph with allFour := all, entryEnd := e }
  := by
  unfold Hw.setActive
  dsimp only
  split
  · exact ⟨_, _, rfl⟩
  · exact ⟨_, _, rfl⟩

theorem Hw.convert_ph (m : Hw) (vtb vsys : Nat) : ∃ ton, (m.convert vtb vsys).ph = { m.ph with ton := ton } := by
  unfold Hw.convert
  split
  · exact ⟨m.ph.ton, rfl⟩
  · exact ⟨_, rfl⟩

theorem Hw.rePick_ph (m : Hw) : ∃ all e ton, m.rePick.ph = { m.ph with allFour := all, entryEnd := e, ton := ton } := by
  unfold Hw.rePick Hw.convertNow
  split
  · obtain ⟨all, e, hset⟩ := m.setActive_ph m.wantedPhases
    obtain ⟨ton, hton⟩ := (m.setActive m.wantedPhases).convert_ph ((m.setActive m.wantedPhases).rd Reg.PH_VOLT_VTB * 10)
      ((m.setActive m.wantedPhases).rd Reg.PH_VOLT_VSYS * 10)
    exact ⟨all, e, ton, by rw [hton, hset]⟩
  · exact ⟨m.ph.allFour, m.ph.entryEnd, m.ph.ton, rfl⟩


@[simp] theorem Hw.rePick_thermal (m : Hw) : m.rePick.ph.thermal = m.ph.thermal := by
  obtain ⟨all, e, ton, hph⟩ := m.rePick_ph
  rw [hph]

@[simp] theorem Hw.rePick_stopped (m : Hw) : m.rePick.ph.stopped = m.ph.stopped := by
  obtain ⟨all, e, ton, hph⟩ := m.rePick_ph
  rw [hph]

theorem Hw.ssFail_attempts {m : Hw} (k : FaultKind) (h : m.ph.attempts < 3) :
    (m.ssFail k).rd Reg.PH_STATUS_ACTIVE = 0 ∧ (m.ssFail k).ph.attempts = m.ph.attempts + 1 ∧
    (m.ssFail k).ph.retryAt = some (m.frnAfter 16) := by
  obtain ⟨ton, hton⟩ := Hw.convert_ph ((m.windDown.wr Reg.PH_STATUS_SS 0).wr Reg.PH_STATUS_ACTIVE 0)
    (((m.windDown.wr Reg.PH_STATUS_SS 0).wr Reg.PH_STATUS_ACTIVE 0).rd Reg.PH_VOLT_VTB * 10)
    (((m.windDown.wr Reg.PH_STATUS_SS 0).wr Reg.PH_STATUS_ACTIVE 0).rd Reg.PH_VOLT_VSYS * 10)
  unfold Hw.ssFail
  rw [if_neg (by simpa using h)]
  refine ⟨?_, ?_, ?_⟩
  · simp (disch := decide +kernel) [*, Hw.convertNow]
  · simp only [Hw.convertNow]
    rw [hton]
    rfl
  · simp (disch := decide +kernel) [*, Hw.frnAfter, Hw.frn]

/-- The overcurrents of the phases in the set, each with its fault word (R114). -/
def Hw.phaseOcpFaults (m : Hw) (hit current : Nat) : Hw :=
  (List.range 4).foldl (fun m n => if bitAt hit n then m.faultAt Kind.PHASE_OCP (0x20 + n) current else m) m

theorem Hw.phaseOcpFaults_within (m : Hw) (hit current : Nat) :
    Within (parts [.faultInput] ++ Machine.regs [Reg.FLT_STATUS_LOST]) m (m.phaseOcpFaults hit current) :=
  .foldl .refl fun _ _ h => .ite h.faultAt h

theorem Hw.phaseOcpFaults_one (m : Hw) (n : Fin 4) (current : Nat) :
    m.phaseOcpFaults (2 ^ n.val) current = m.faultAt Kind.PHASE_OCP (0x20 + n.val) current := by
  match n with
  | 0 => rfl
  | 1 => rfl
  | 2 => rfl
  | 3 => rfl

/-- The phases of the set fold back, and each records its overcurrent. -/
def Hw.overloaded (m : Hw) (hit current : Nat) : Hw :=
  (m.foldback (m.rd Reg.PH_STATUS_FOLDBACK ||| hit)).phaseOcpFaults hit current

theorem Hw.overloaded_within (m : Hw) (hit current : Nat) : Within (parts [.faultInput] ++ Machine.regs
    [Reg.FLT_STATUS_LOST, Reg.PH_EVENTS_FOLDBACK, Reg.PH_STATUS_FOLDBACK]) m (m.overloaded hit current) :=
  (Within.refl.foldback).trans ((Hw.phaseOcpFaults_within _ hit current).mono (by decide +kernel))

theorem execPhaseOcp_stops {s : State} {phases : Fin 16} {hit : Nat} (current : Nat) {vout : Nat}
    (hhit : phases.val &&& s.hw.rd Reg.PH_STATUS_ACTIVE = hit) (hsome : hit ≠ 0)
    (hss : s.hw.on Reg.PH_STATUS_SS = false) (hfloor : s.hw.atFloor vout = true) :
    exec (.phaseOcp phases ⟨current, vout⟩) s = .next { s with hw :=
      (if hit = s.hw.rd Reg.PH_STATUS_ACTIVE then (s.hw.overloaded hit current).ssFail Kind.PHASE_OCP
      else ({ s.hw.overloaded hit current with ph :=
        { s.hw.ph with stopped := s.hw.ph.stopped ||| hit } } : Hw).rePick) } := by
  have hact : (s.hw.overloaded hit current).rd Reg.PH_STATUS_ACTIVE = s.hw.rd Reg.PH_STATUS_ACTIVE :=
    (s.hw.overloaded_within hit current).rd _ (by decide +kernel)
  have hph : (s.hw.overloaded hit current).ph = s.hw.ph := (s.hw.overloaded_within hit current).kept .ph
  refine State.next_on_eq ((if_neg (by simp [hhit, hsome, hss, hfloor])).trans ?_)
  simp only [hhit]
  change (if hit = (s.hw.overloaded hit current).rd Reg.PH_STATUS_ACTIVE then
    (s.hw.overloaded hit current).ssFail Kind.PHASE_OCP else ({ s.hw.overloaded hit current with ph :=
      { (s.hw.overloaded hit current).ph with stopped := (s.hw.overloaded hit current).ph.stopped ||| hit } } :
        Hw).rePick) = _
  rw [hact, hph]

/-- Settles O21, each clause from the rules of the operations that its command uses. -/
theorem phasesProtectThemselves : Obligations.PhasesProtectThemselves := by
  unfold Obligations.PhasesProtectThemselves
  refine ⟨?_, ?_, ?_, ?_, ?_, ?_, ?_, ?_, ?_⟩
  · intro s phases current vout hSs hAtFloor hActive hActive2 hAttempts
    refine ⟨_, execPhaseOcp_stops current hActive2 hActive hSs hAtFloor, ?_⟩
    have hw := s.hw.overloaded_within (s.hw.rd Reg.PH_STATUS_ACTIVE) current
    have hph : (s.hw.overloaded (s.hw.rd Reg.PH_STATUS_ACTIVE) current).ph = s.hw.ph := hw.kept .ph
    simp only [if_true]
    obtain ⟨hoff, htries, hretry⟩ := Hw.ssFail_attempts (m := s.hw.overloaded (s.hw.rd Reg.PH_STATUS_ACTIVE) current)
      Kind.PHASE_OCP (by rw [hph]; exact hAttempts)
    refine ⟨hoff, by rw [htries, hph], hretry.trans ?_⟩
    rw [Hw.frnAfter, Hw.frn, hw.rd Reg.FRM_FRN_FRN (by decide +kernel)]
    rfl
  · intro s phases n current vout hVal hSs hAtFloor hActive hActive2
    have hbit : (s.hw.rd Reg.PH_STATUS_ACTIVE).testBit n.val = true := (bitAt_eq_testBit ..).symm.trans hActive
    have hhit : phases.val &&& s.hw.rd Reg.PH_STATUS_ACTIVE = 2 ^ n.val := by
      rw [hVal, Nat.two_pow_and, hbit, Bool.toNat_true, Nat.mul_one]
    refine ⟨_, execPhaseOcp_stops current hhit (by positivity) hSs hAtFloor, ?_⟩
    simp only [if_neg (Ne.symm hActive2), Hw.overloaded, Hw.phaseOcpFaults_one]
    refine ⟨?_, ?_⟩
    · rw [Hw.rePick_stopped, bitAt_eq_testBit]
      simp
    · simp (disch := decide +kernel) [*, Hw.said]
  · intro s mv hMv hRev
    rw [Hw.on_eq_false] at hRev
    refine ⟨_, rfl, ?_⟩
    simp (disch := decide +kernel) [*, Hw.said, Kind.PHASE_OV]
  · intro s n temp hTemp hBitAt
    refine ⟨_, State.next_on_eq (if_pos ⟨hTemp, by simp [hBitAt]⟩), ?_⟩
    simp (disch := decide +kernel) [*, Hw.said, bitAt_putBit]
  · intro s n temp hTemp hBitAt
    refine ⟨_, rfl, ?_⟩
    simp (disch := decide +kernel) [*, bitAt_putBit]
  · intro s n supply hGetD
    refine ⟨_, rfl, ?_⟩
    simp (disch := decide +kernel) [*, Hw.said, Kind.PHASE_GATE_UV]
    exact ⟨bitAt_putBit .., .inr (by simpa using hGetD)⟩
  · intro s mv hRev
    rw [Hw.on_eq_false] at hRev
    refine ⟨_, rfl, ?_⟩
    simp (disch := decide +kernel) [*, Hw.said, Kind.PHASE_VTB_COLLAPSE]
    rfl
  · intro s hInService
    refine ⟨_, rfl, ?_⟩
    have hclear : s.hw.phClrLatch = _ := if_pos hInService
    simp only [State.on_hw, hclear]
    simp (disch := decide +kernel) [*]
  · intro s hInService
    refine State.next_on_self (if_neg ?_)
    simp (disch := decide +kernel) [*]

end Sys2Proof.Machine
end

