-- ==== Sys2Proof/Proofs/Packs.lean ====
section
/-! PROOFS. Packs: changes of the charge state, detection, negotiation and the reads of a smart pack (O23). -/

namespace Sys2Proof.Machine

set_option Elab.async false

@[simp] theorem Hw.chgState_rd (m : Hw) : m.chgState = m.rd Reg.CHG_STATUS_STATE := rfl

/-- A charger that differs at most in its blanking and in its schedule of smart-pack reads. -/
def Charger.Like (c c' : Charger) : Prop :=
  ∃ b reads ask, c' = { c with blankTo := b, sbsReads := reads, sbsAskAt := ask }

namespace Charger.Like

theorem refl (c : Charger) : c.Like c := ⟨c.blankTo, c.sbsReads, c.sbsAskAt, rfl⟩

theorem trans {c c1 c' : Charger} (h : c.Like c1) (h' : c1.Like c') : c.Like c' := by
  obtain ⟨b, reads, ask, rfl⟩ := h
  obtain ⟨b', reads', ask', rfl⟩ := h'
  exact ⟨b', reads', ask', rfl⟩

end Charger.Like

theorem Hw.setLatch_charger (m : Hw) (l : LatchId) (v : Nat) : m.chg.Like (m.setLatch l v).chg := by
  have hlive : (m.setLatchLive l v).chg = m.chg := by cases l <;> rfl
  unfold Hw.setLatch
  dsimp only
  split
  · exact ⟨_, m.chg.sbsReads, m.chg.sbsAskAt, by rw [hlive]⟩
  · rw [hlive]
    exact .refl _

theorem Hw.sideFault_charger (m : Hw) {sd : Side} {k : FaultKind} {src d : Nat} : (m.sideFault sd k src d).chg = m.chg
  := by
  cases sd <;> simp [Hw.sideFault]

theorem Hw.ownLatch_charger (m : Hw) (l : LatchId) (v : Nat) : m.chg.Like (m.ownLatch l v).chg := by
  unfold Hw.ownLatch Hw.putLatch
  split
  · exact .refl _
  · split
    · exact .refl _
    · unfold Hw.storeLatch
      dsimp only
      split
      · split
        · rw [Hw.sideFault_charger]
          exact m.setLatch_charger ..
        · exact m.setLatch_charger ..
      · exact m.setLatch_charger ..

theorem Hw.chgLatches_charger (m : Hw) (st : Nat) : m.chg.Like (m.chgLatches st).chg := by
  have hnow : m.chg.Like (m.chgLatchesNow st).chg := (m.ownLatch_charger ..).trans (Hw.ownLatch_charger ..)
  unfold Hw.chgLatches Hw.setChgEn
  split
  · exact hnow
  · exact hnow.trans (Hw.ownLatch_charger ..)

theorem Hw.askPack_charger (m : Hw) : m.chg.Like m.askPack.chg := by
  unfold Hw.askPack Hw.nextRead
  split
  · split
    · exact ⟨m.chg.blankTo, _, _, rfl⟩
    · exact ⟨m.chg.blankTo, _, _, (Within.refl.issueFor (hs := Touch.covers_refl _)).kept .chg⟩
  · exact .refl _

/-! A change of the charge state, in its steps: the state with its runs begun again, the loop's set points, what the
state shows and asks for, the record (R149, R163, R166). -/

def Hw.chgSet (m : Hw) (st : Nat) : Hw :=
  { m.wr Reg.CHG_STATUS_STATE st with chg := { m.chg.restart with
      absentAt := if st = chgABSENT then m.frn else m.chg.absentAt
      fromAbsent := m.chg.fromAbsent || st = chgABSENT
      resume := if st = chgOFF then none else m.chg.resume } }

def Hw.chgDrive (m : Hw) (st : Nat) : Hw :=
  if st = 3 ∨ st = 4 ∨ st = 5 then (m.chgLatches st).batfet else m.clearChgEn

def Hw.chgShow (m : Hw) (st : Nat) : Hw :=
  let m := if st = chgFAULT then m.wr Reg.CHG_STATUS_FAULT_LATCH 1 else m
  let m := if st = chgDONE then
      { m with cable := { m.cable with qbat := m.rd Reg.CBL_RES_CFG_CAP * 10000 * 3600000, qvalid := true } } else m
  let m := (m.statOfState st).statPads
  if st = chgNEGOTIATE then m.askPack else m

theorem Hw.chgTo_eq (m : Hw) (st cause : Nat) :
    ∃ p, m.chgTo st cause = (((m.chgSet st).chgDrive st).chgShow st).record JR.CHARGE_STATE 0x11 p := ⟨_, rfl⟩

theorem Hw.chgDrive_within (m : Hw) (st : Nat) : Within (parts [.latches, .faultInput, .chg] ++ Machine.regs
    [Reg.CHG_V_SET, Reg.FLT_STATUS_LOST, Reg.CHG_I_SET, Reg.CHG_STATUS_EN, Reg.BATFET_STATUS_STATE]) m
    (m.chgDrive st) := .ite Within.refl.chgLatches.batfet Within.refl.clearChgEn

theorem Hw.chgShow_within (m : Hw) (st : Nat) : Within (Touch.issuing ++ parts [.chg, .waits, .adc, .bus, .cable] ++
    Machine.regs [Reg.CHG_STATUS_FAULT_LATCH, Reg.STAT_LATCH_EVENTS, Reg.STAT_LATCH_PADS, Reg.STAT_LATCH_FN]) m
    (m.chgShow st) := by
  unfold Hw.chgShow
  exact .ite (.askPack (.statPads (.statOfState (.ite (.part_cable (.ite Within.refl.wr .refl))
    (.ite Within.refl.wr .refl))))) (.statPads (.statOfState (.ite (.part_cable (.ite Within.refl.wr .refl))
    (.ite Within.refl.wr .refl))))

theorem Hw.chgShow_charger (m : Hw) (st : Nat) : m.chg.Like (m.chgShow st).chg := by
  have hkeep : ∀ m1 : Hw, (m1.statOfState st).statPads.chg = m1.chg := fun m1 =>
    (Within.refl.statOfState.statPads (m0 := m1) (sc := Machine.regs [Reg.STAT_LATCH_EVENTS, Reg.STAT_LATCH_PADS,
      Reg.STAT_LATCH_FN])).kept .chg
  unfold Hw.chgShow
  dsimp only
  split
  · refine .trans ?_ (Hw.askPack_charger _)
    rw [hkeep]
    split <;> split <;> exact .refl _
  · rw [hkeep]
    split <;> split <;> exact .refl _

theorem Hw.chgDrive_charger (m : Hw) (st : Nat) : m.chg.Like (m.chgDrive st).chg := by
  unfold Hw.chgDrive
  split
  · exact m.chgLatches_charger st
  · exact .refl _

/-- What a change of the charge state leaves of the charger: all but its runs, and what belongs to the state. -/
theorem Hw.chgTo_charger (m : Hw) (st cause : Nat) : (m.chgSet st).chg.Like (m.chgTo st cause).chg := by
  obtain ⟨p, hp⟩ := m.chgTo_eq st cause
  rw [hp, Hw.record_chg]
  exact (Hw.chgDrive_charger _ st).trans (Hw.chgShow_charger _ st)

theorem Hw.chgTo_state (m : Hw) {st : Nat} (cause : Nat) (h : st < 16) : (m.chgTo st cause).rd Reg.CHG_STATUS_STATE =
  st := by
  obtain ⟨p, hp⟩ := m.chgTo_eq st cause
  rw [hp, Hw.record_rd_other (by decide +kernel), (Hw.chgShow_within _ st).rd _ (by decide +kernel),
    (Hw.chgDrive_within _ st).rd _ (by decide +kernel)]
  exact Hw.rd_wr_lt (f := Reg.CHG_STATUS_STATE) h

theorem Hw.chgTo_filed (m : Hw) (st cause : Nat) : m.filed (m.chgTo st cause) JR.CHARGE_STATE 0x11 := by
  obtain ⟨p, hp⟩ := m.chgTo_eq st cause
  have hsub : (((m.chgSet st).chgDrive st).chgShow st).sub = m.sub :=
    ((Hw.chgShow_within _ st).kept .sub).trans ((Hw.chgDrive_within _ st).kept .sub)
  rw [Hw.filed, hp, ← hsub]
  exact Hw.record_filed ..

/-- Only a state that charges writes the loop's set points, whose values may lie outside its range. -/
theorem Hw.chgTo_input (m : Hw) {st : Nat} (cause : Nat) (h : ¬(st = 3 ∨ st = 4 ∨ st = 5)) :
    (m.chgTo st cause).flt.input = m.flt.input := by
  obtain ⟨p, hp⟩ := m.chgTo_eq st cause
  rw [hp, Hw.record_flt]
  refine ((Hw.chgShow_within _ st).kept .faultInput).1.trans ?_
  rw [Hw.chgDrive, if_neg h]
  rfl

theorem Hw.chgTo_faultLatch (m : Hw) (cause : Nat) : (m.chgTo chgFAULT cause).rd Reg.CHG_STATUS_FAULT_LATCH = 1 := by
  obtain ⟨p, hp⟩ := m.chgTo_eq chgFAULT cause
  rw [hp]
  simp (disch := decide +kernel) [*, Hw.chgShow, chgFAULT, chgDONE, chgNEGOTIATE]


theorem Hw.packFound_found (m : Hw) : m.packFound.chg.found = true ∧ m.packFound.rd Reg.CHG_STATUS_STATE = 2 ∧
    m.filed m.packFound JR.CHARGE_STATE 0x11 := by
  unfold Hw.packFound
  refine ⟨?_, Hw.chgTo_state _ 5 (by decide), ?_⟩
  · obtain ⟨b, reads, ask, hchg⟩ := Hw.chgTo_charger ({ m with chg := { m.chg with
      found := true, removed := false, missingSaid := false } }) chgNEGOTIATE 5
    rw [hchg]
    rfl
  · exact Hw.chgTo_filed ({ m with chg := { m.chg with found := true, removed := false, missingSaid := false } }) _ 5

/-- Writing one latch leaves another's parity as it holds (R30). -/
theorem Hw.ownLatch_latchBad {m : Hw} {k : LatchId} (h : m.latchBad k = false) (l : LatchId) (v : Nat) :
    (m.ownLatch l v).latchBad k = false := by
  unfold Hw.ownLatch Hw.putLatch
  split
  · exact h
  · split
    · exact h
    · simp only [Hw.latchBad, List.any_eq_false] at h ⊢
      intro x hx
      rw [Hw.storeLatch_shadows] at hx
      exact h x (List.mem_of_mem_filter hx)

theorem Hw.ownLatch_ownerAway (m : Hw) (l k : LatchId) (v : Nat) : (m.ownLatch l v).ownerAway k = m.ownerAway k :=
  (Within.refl.ownLatch_any (hs := Touch.covers_refl _)).ownerAway_eq (l := k)

theorem Hw.setChgEn_sets {m : Hw} (halert : m.arch.sb.halertSeen = false) (haway : m.ownerAway .chgEn = false)
    (hbad : m.latchBad .chgEn = false) : m.setChgEn.rd Reg.CHG_STATUS_EN = 1 := by
  rw [Hw.setChgEn, if_neg (by simp [halert]), Hw.ownLatch_taken haway hbad]
  exact m.storeLatch_latch (l := .chgEn) 1 nofun

theorem Hw.presence_charger (m : Hw) (vbat vsys : Nat) :
    ∃ gone, (m.presence vbat vsys).chg = { m.chg with removed := gone } := by
  have hkeep : ∀ (c : Prop) [Decidable c], (if c then m.wr Reg.RAIL_STATUS_KA_ON 1 else m).chg = m.chg := fun c _ => by
    split <;> rfl
  unfold Hw.presence
  dsimp only
  simp only [hkeep]
  exact ⟨_, rfl⟩

theorem Hw.presence_within (m : Hw) (vbat vsys : Nat) : Within (parts [.chg] ++ Machine.regs
    [Reg.RAIL_STATUS_KA_ON, Reg.CHG_STATUS_PRESENT]) m (m.presence vbat vsys) := Within.refl.presence

/-- The 10 mA sink is on (R142). -/
def Hw.sinking (m : Hw) : Hw := { m with chg := { m.chg with sinkTest := true } }

theorem Hw.clearChgEn_en (m : Hw) : m.clearChgEn.rd Reg.CHG_STATUS_EN = 0 :=
  ((Within.refl.batfet (hs := Touch.covers_refl _)).rd _ (by decide +kernel)).trans
    (Hw.rd_wr_lt (m := m) (f := Reg.CHG_STATUS_EN) (v := 0) (by decide))

/-- The probe's set points (R141): the precharge threshold, at most 100 mA, and the charge enabled. -/
def Hw.probeSet (m : Hw) (l : Profile) (vbat : Nat) : Hw :=
  ((((m.wrSat Reg.CHG_MON_VBAT vbat).presence vbat vbat).ownLatch .chgV (l.cells * l.preTh)).ownLatch .chgI
    (min l.ipre 4)).setChgEn

/-- The probe runs. -/
def Hw.probing (m : Hw) : Hw := { m with chg := { m.chg with probe := true, sinkTest := false } }

theorem Hw.probing_rd (m : Hw) (f : Field) : m.probing.rd f = m.rd f := rfl

theorem Hw.probeSet_en {m : Hw} (l : Profile) (vbat : Nat) (haway : m.away .f1 = false)
    (hbad : m.latchBad .chgEn = false) (halert : m.arch.sb.halertSeen = false) :
    (m.probeSet l vbat).rd Reg.CHG_STATUS_EN = 1 := by
  have hw := (m.wrSat Reg.CHG_MON_VBAT vbat).presence_within vbat vbat
  refine Hw.setChgEn_sets ?_ ?_ (Hw.ownLatch_latchBad (Hw.ownLatch_latchBad ?_ ..) ..)
  · refine (congrArg Sidebands.halertSeen ?_).trans halert
    exact ((((Within.refl.ownLatch (l := .chgV)).ownLatch (l := .chgI) (sc := parts [.latches, .faultInput, .chg] ++
      Machine.regs [Reg.CHG_V_SET,
      Reg.FLT_STATUS_LOST, Reg.CHG_I_SET])).kept
      .sidebands).trans (hw.kept .sidebands) :)
  · rw [Hw.ownLatch_ownerAway, Hw.ownLatch_ownerAway, hw.ownerAway_eq]
    exact haway
  · rw [hw.latchBad_eq]
    exact hbad

theorem execPackIndicatorSettled_probes {s : State} {shown : Fin 64} {vbat : Nat} {l : Profile}
    (hstate : s.hw.rd Reg.CHG_STATUS_STATE = 1) (hprobe : s.hw.chg.probe = false) (hlow : vbat < 5000)
    (hshown : shown.val &&& s.hw.indicators = s.hw.indicators) (hlimits : s.hw.chg.limits = some l) :
    exec (.packIndicatorSettled ⟨shown, vbat⟩) s = .next (s.on fun m => (m.probeSet l vbat).probing.batfet) := by
  refine State.next_on_eq ((if_neg (by simp [hstate, hprobe, hshown, chgDETECT])).trans ((if_neg (by simpa using
    hlow)).trans ?_))
  have hkeep : ((s.hw.wrSat Reg.CHG_MON_VBAT vbat).presence vbat vbat).chg.limits = some l := by
    obtain ⟨gone, hchg⟩ := (s.hw.wrSat Reg.CHG_MON_VBAT vbat).presence_charger vbat vbat
    rw [hchg]
    exact hlimits
  simp only [hkeep]
  rfl

theorem execProbeShort_fails {s : State} {mv : Nat} {l : Profile} (hlimits : s.hw.chg.limits = some l)
    (hstate : s.hw.rd Reg.CHG_STATUS_STATE = 1) (hprobe : s.hw.chg.probe = true) (hlow : mv < 500 * l.cells) :
    exec (.probeShort mv) s = .next (s.on fun m => (m.fault Kind.BAT_SHORT (mv / 100)).chgTo chgFAULT 7) := by
  refine State.next_on_eq ?_
  simp only [hlimits]
  exact if_pos ⟨hstate, hprobe, hlow⟩

/-! A retired ticket lets the appends that wait issue: their records stay the same. -/

theorem Hw.dropTicket_records (m : Hw) (n : Nat) : (m.dropTicket n).sub.map Append.r = m.sub.map Append.r := by
  unfold Hw.dropTicket
  generalize hm : ({ m with tkt := { m.tkt with table := m.tkt.table.filter fun t => t.num != n } } : Hw) = m1
  obtain ⟨r, t, x, hissue, -, hmap⟩ := Hw.issueAppends_only 1 (m1.serveWaits 1)
  have hsub : (m1.serveWaits 1).sub = m1.sub := (Within.refl.serveWaits (hs := Touch.covers_refl _)).kept .sub
  rw [hissue]
  exact hmap.trans (by rw [hsub, ← hm])

theorem Hw.packReadsEnd_records (m : Hw) : m.packReadsEnd.sub.map Append.r = m.sub.map Append.r := by
  unfold Hw.packReadsEnd
  dsimp only
  generalize ({ m with chg := { m.chg with sbsReads := [] } } : Hw).packReads = ops
  generalize hm : ({ m with chg := { m.chg with sbsReads := [] } } : Hw) = m1
  have hsub : m1.sub = m.sub := by rw [← hm]
  rw [← hsub]
  clear hm hsub
  induction ops generalizing m1 with
  | nil => rfl
  | cons x ops ih =>
    rw [List.foldl_cons, ih]
    exact Hw.dropTicket_records _ x.tkt

theorem Hw.packReadsEnd_state (m : Hw) : m.packReadsEnd.rd Reg.CHG_STATUS_STATE = m.rd Reg.CHG_STATUS_STATE :=
  (Within.refl.packReadsEnd (hs := Touch.covers_refl _)).rd _ (by decide +kernel)

theorem Hw.showSbs_shows (m : Hw) (r : SbsRead) : (m.showSbs r).chg.sbs = some r ∧
    (m.showSbs r).rd Reg.PACK_SBS_ICHG_REQ = satN 16 r.ichg ∧ (m.showSbs r).sub = m.sub ∧
    (m.showSbs r).rd Reg.CHG_STATUS_STATE = m.rd Reg.CHG_STATUS_STATE := by
  refine ⟨rfl, ?_, rfl, ?_⟩
  · unfold Hw.showSbs
    simp (disch := decide +kernel) [*]
    rfl
  · unfold Hw.showSbs
    simp (disch := decide +kernel) [*]

/-- A sequence that completes while the pack is negotiated is shown, and changes nothing else (R144). -/
theorem Hw.applySbs_negotiating {m : Hw} (h : m.rd Reg.CHG_STATUS_STATE = 2) (r : SbsRead) : m.applySbs r = m := by
  simp [Hw.applySbs, Hw.charging, h, chgHOLD, chgPAUSE, chgDONE]

/-- A pack at the terminals, before its profile is chosen. -/
def Hw.packSeen (m : Hw) (vbat : Nat) : Hw :=
  let m := m.wrSat Reg.CHG_MON_VBAT vbat
  if m.chg.fromAbsent then { m with cable := { m.cable with qvalid := false } } else m

theorem Hw.packSeen_within (m : Hw) (vbat : Nat) : Within (parts [.cable] ++ Machine.regs [Reg.CHG_MON_VBAT]) m
    (m.packSeen vbat) := by
  unfold Hw.packSeen
  exact .ite Within.refl.wrSat.part_cable Within.refl.wrSat

theorem execPackNegotiate_refuses {s : State} {ohm : Nat} (vbat : Nat) {l : Profile}
    (hstate : s.hw.rd Reg.CHG_STATUS_STATE = 2) (hlimits : s.hw.chg.limits = some l) (hohm : ohm < 680) :
    exec (.packNegotiate ohm vbat) s =
      .next (s.on fun m => ((m.packSeen vbat).fault Kind.PACK_ID_FAULT (ohm / 100)).holdPack 0) := by
  have hband : idBand ohm = 0 := if_pos hohm
  refine State.next_on_eq ((if_neg (by simp [hstate, chgNEGOTIATE])).trans ?_)
  simp only [hlimits, hband]
  exact if_pos trivial

/-- Without data of a smart pack, the profile of the pack's band is tried. -/
theorem execPackNegotiate_tries {s : State} {ohm : Nat} (vbat : Nat) {l p : Profile}
    (hstate : s.hw.rd Reg.CHG_STATUS_STATE = 2) (hlimits : s.hw.chg.limits = some l) (hlow : 680 ≤ ohm)
    (hhigh : ohm < 147000) (hprofile : s.hw.chg.profiles.getD (idBand ohm) none = some p)
    (hsbs : s.hw.on Reg.CHG_CFG_SBS_EN = false) : exec (.packNegotiate ohm vbat) s =
      .next (s.on fun m => (m.packSeen vbat).tryProfile p l 2 (idBand ohm) vbat none) := by
  have hband : idBand ohm ≠ 0 ∧ idBand ohm ≠ 8 := by
    unfold idBand
    split_ifs <;> omega
  have hw := s.hw.packSeen_within vbat
  have hdata : (s.hw.packSeen vbat).sbsData = none := by
    rw [Hw.sbsData, Hw.on, hw.rd Reg.CHG_CFG_SBS_EN (by decide +kernel), ← Hw.on, hsbs]
    rfl
  have hchg : (s.hw.packSeen vbat).chg.profiles = s.hw.chg.profiles := congrArg Charger.profiles (hw.kept .chg)
  refine State.next_on_eq ((if_neg (by simp [hstate, chgNEGOTIATE])).trans ?_)
  simp only [hlimits]
  refine (if_neg hband.1).trans ((if_neg hband.2).trans ?_)
  change (match (s.hw.packSeen vbat).chg.profiles.getD (idBand ohm) none with
    | some p => (s.hw.packSeen vbat).tryProfile p l (if (s.hw.packSeen vbat).sbsData.isSome then 4 else 2) (idBand
      ohm) vbat
      (s.hw.packSeen vbat).sbsData
    | none => _) = _
  rw [hchg, hprofile, hdata]
  rfl

theorem Hw.enterCharge_enters {m : Hw} (vbat : Nat) (hresume : m.chg.resume = none) :
    ∃ st, (st = 3 ∨ st = 4 ∨ st = 6) ∧ m.enterCharge vbat = m.chgTo st 10 := by
  unfold Hw.enterCharge
  rw [hresume]
  dsimp only
  split
  · exact ⟨3, .inl rfl, rfl⟩
  · split
    · exact ⟨6, .inr (.inr rfl), rfl⟩
    · exact ⟨4, .inr (.inl rfl), rfl⟩

/-- The profile taken into force, before the charge begins (R146, R158). -/
def Hw.profileIn (m : Hw) (q : Profile) (src band : Nat) : Hw :=
  let m := { m with chg := { m.chg with base := some q } }
  let m := m.takeProfile q src band
  let m := { m with seq := { m.seq with removedHold := false } }
  let m := if m.chg.fromAbsent then (m.resetTimers).wr Reg.CHG_STATUS_FAULT_LATCH 0 else m
  { m with chg := { m.chg with fromAbsent := false, alarmSaid := false, found := true } }

theorem Hw.takeProfile_taken (m : Hw) (q : Profile) (src band : Nat) :
    (m.takeProfile q src band).chg = { m.chg with neg := some q } ∧
    (m.takeProfile q src band).rd Reg.CHG_PROF_A_SRC = src % 2 ^ Reg.CHG_PROF_A_SRC.width := by
  unfold Hw.takeProfile
  dsimp only
  refine ⟨?_, ?_⟩
  · rw [Hw.record_chg]
    rfl
  · rw [Hw.record_rd_other (by decide +kernel)]
    simp (disch := decide +kernel) [*]

theorem Hw.profileIn_taken (m : Hw) (q : Profile) (src band : Nat) : (m.profileIn q src band).chg.neg = some q ∧
    (m.profileIn q src band).chg.resume = m.chg.resume ∧
    (m.profileIn q src band).rd Reg.CHG_PROF_A_SRC = src % 2 ^ Reg.CHG_PROF_A_SRC.width := by
  obtain ⟨hchg, hsrc⟩ := ({ m with chg := { m.chg with base := some q } } : Hw).takeProfile_taken q src band
  unfold Hw.profileIn
  dsimp only
  split
  · refine ⟨?_, ?_, ?_⟩
    · simp only [Hw.wr_chg, Hw.resetTimers, hchg]
    · simp only [Hw.wr_chg, Hw.resetTimers, hchg]
    · refine Eq.trans ?_ hsrc
      simp (disch := decide +kernel) [*, Hw.resetTimers]
  · exact ⟨by rw [hchg], by rw [hchg], hsrc⟩

theorem Hw.tryProfile_takes {m : Hw} {p l : Profile} (src band : Nat) {vbat : Nat} (hchem : p.chem = l.chem)
    (hcells : p.cells = l.cells) (hmodule : moduleCells l.chem l.cells = true)
    (hvolt : vbat ≤ l.cells * (if l.chem = 0 then 4450 else 3750))
    (hgood : profileBad (commonProfile p (m.cfgLimits l)) = 0) :
    m.tryProfile p l src band vbat none = (m.profileIn (commonProfile p (m.cfgLimits l)) src band).enterCharge vbat :=
      by
  unfold Hw.tryProfile
  dsimp only
  rw [if_neg (by simp only [hchem, hcells, hmodule, decide_eq_false (Nat.not_lt.mpr hvolt)]; simp), if_neg (by
    decide), if_neg (by simpa using hgood)]
  rfl

/-- A sink test that ends finds a pack that holds half the set voltage, and none otherwise (R142). -/
theorem execSinkTestEnd_ends {s : State} (mv : Nat) (hState : s.hw.rd Reg.CHG_STATUS_STATE = 1)
    (hSinkTest : s.hw.chg.sinkTest = true) :
    ∃ t, exec (.sinkTestEnd mv) s = .next t ∧
      t.hw.rd Reg.CHG_STATUS_STATE = (if 2 * mv < s.hw.rd Reg.CHG_V_SET * 10 then 9 else 2) ∧
      t.hw.chg.found = (if 2 * mv < s.hw.rd Reg.CHG_V_SET * 10 then false else true) := by
  refine ⟨_, State.next_on_eq (if_pos ⟨hState, hSinkTest⟩), ?_⟩
  have hset : (s.hw.presence mv mv).rd Reg.CHG_V_SET = s.hw.rd Reg.CHG_V_SET :=
    (s.hw.presence_within mv mv).rd _ (by decide +kernel)
  simp only [hset]
  split
  · next hmissing =>
    refine ⟨Hw.chgTo_state _ 6 (by decide), ?_⟩
    obtain ⟨b, reads, ask, hchg⟩ := Hw.chgTo_charger ({ (if (s.hw.presence mv mv).chg.missingSaid then s.hw.presence
      mv mv
      else (s.hw.presence mv mv).fault Kind.BAT_MISSING (mv / 100)) with chg := { (if (s.hw.presence mv
        mv).chg.missingSaid
        then s.hw.presence mv mv else (s.hw.presence mv mv).fault Kind.BAT_MISSING (mv / 100)).chg with
          missingSaid := true, found := false } }) chgABSENT 6
    rw [hchg]
    rfl
  · obtain ⟨hfound, hstate, -⟩ := Hw.packFound_found (s.hw.presence mv mv)
    exact ⟨hstate, hfound⟩

/-- A charge that is entered afresh keeps the profile in force and its source (R146, R158). -/
theorem Hw.enterCharge_afresh {m : Hw} {q : Profile} {src : Nat} (vbat : Nat) (hresume : m.chg.resume = none)
    (hneg : m.chg.neg = some q) (hsrc : m.rd Reg.CHG_PROF_A_SRC = src) :
    (m.enterCharge vbat).chg.neg = some q ∧ (m.enterCharge vbat).rd Reg.CHG_PROF_A_SRC = src ∧
      ((m.enterCharge vbat).rd Reg.CHG_STATUS_STATE = 3 ∨ (m.enterCharge vbat).rd Reg.CHG_STATUS_STATE = 4 ∨
        (m.enterCharge vbat).rd Reg.CHG_STATUS_STATE = 6) := by
  obtain ⟨st, hst, henter⟩ := Hw.enterCharge_enters vbat hresume
  have hread := (Within.refl.enterCharge (vbat := vbat) (hs := Touch.covers_refl _) (m := m)).rd Reg.CHG_PROF_A_SRC
    (by decide +kernel)
  refine ⟨?_, hread.trans hsrc, ?_⟩
  · obtain ⟨b, reads, ask, hchg⟩ := Hw.chgTo_charger m st 10
    rw [henter, hchg]
    exact hneg
  · rw [henter, Hw.chgTo_state _ 10 (by omega)]
    exact hst

/-- A pack whose identification resistor names a usable profile is charged by the best common profile (R146). -/
theorem execPackNegotiate_takes {s : State} {ohm vbat : Nat} {l p : Profile} (hState : s.hw.rd Reg.CHG_STATUS_STATE = 2)
    (hLimits : s.hw.chg.limits = some l) (hOhm : 680 ≤ ohm) (hOhm2 : ohm < 147000)
    (hGetD : s.hw.chg.profiles.getD (idBand ohm) none = some p) (hEn : s.hw.on Reg.CHG_CFG_SBS_EN = false)
    (hChem : p.chem = l.chem) (hCells : p.cells = l.cells) (hModuleCells : moduleCells l.chem l.cells = true)
    (hVbat : vbat ≤ l.cells * (if l.chem = 0 then 4450 else 3750))
    (hProfileBad : profileBad (commonProfile p (s.hw.cfgLimits l)) = 0) (hResume : s.hw.chg.resume = none) :
    ∃ t, exec (.packNegotiate ohm vbat) s = .next t ∧ t.hw.chg.neg = some (commonProfile p (s.hw.cfgLimits l)) ∧
      t.hw.rd Reg.CHG_PROF_A_SRC = 2 ∧ (t.hw.rd Reg.CHG_STATUS_STATE = 3 ∨ t.hw.rd Reg.CHG_STATUS_STATE = 4 ∨
        t.hw.rd Reg.CHG_STATUS_STATE = 6) := by
  have hw := s.hw.packSeen_within vbat
  have hcfg : (s.hw.packSeen vbat).cfgLimits l = s.hw.cfgLimits l := by
    unfold Hw.cfgLimits
    rw [hw.rd Reg.CHG_WIN_T (by decide +kernel), hw.rd Reg.CHG_CFG_PRE_TIMER (by decide +kernel),
      hw.rd Reg.CHG_CFG_FAST_TIMER (by decide +kernel)]
  refine ⟨_, execPackNegotiate_tries vbat hState hLimits hOhm hOhm2 hGetD hEn, ?_⟩
  rw [State.on_hw, Hw.tryProfile_takes 2 (idBand ohm) hChem hCells hModuleCells hVbat (by rwa [hcfg]), hcfg]
  obtain ⟨hneg, hresume, hsrc⟩ := (s.hw.packSeen vbat).profileIn_taken (commonProfile p (s.hw.cfgLimits l)) 2
    (idBand ohm)
  rw [hw.kept .chg, hResume] at hresume
  generalize Hw.profileIn _ _ _ _ = m at hneg hresume hsrc
  exact Hw.enterCharge_afresh vbat hresume hneg hsrc

/-- Settles O23, each clause from the rules of the operations that its command uses. -/
theorem packsAreFoundAndNegotiated : Obligations.PacksAreFoundAndNegotiated := by
  unfold Obligations.PacksAreFoundAndNegotiated
  refine ⟨?_, ?_, ?_, ?_, ?_, ?_, ?_, ?_, ?_, ?_⟩
  · intro s shown vbat hState hProbe hVbat hVal
    refine ⟨_, State.next_on_eq ((if_neg (by simp [hState, hProbe, hVal, chgDETECT])).trans (if_pos hVbat)), ?_⟩
    obtain ⟨hfound, hstate, hfiled⟩ := Hw.packFound_found ((s.hw.wrSat Reg.CHG_MON_VBAT vbat).presence vbat vbat)
    refine ⟨hfound, hstate, ?_⟩
    rwa [Hw.filed, ((Hw.presence_within _ vbat vbat).kept .sub : _ = (s.hw.wrSat Reg.CHG_MON_VBAT vbat).sub)] at hfiled
  · intro s shown vbat l hState hProbe hVbat hVal hLimits hAway hLatchBad hHalertSeen
    refine ⟨_, execPackIndicatorSettled_probes hState hProbe hVbat hVal hLimits, ?_, ?_⟩
    · rw [State.on_hw, Hw.batfet, Hw.wr_chg]
      rfl
    · rw [State.on_hw, Hw.rd_batfet (by decide +kernel), Hw.probing_rd]
      exact Hw.probeSet_en l vbat hAway hLatchBad hHalertSeen
  · intro s hState hProbe hSinkTest
    have hprobing : s.hw.chgState = chgDETECT ∧ s.hw.chg.probe = true ∧ ¬s.hw.chg.sinkTest = true :=
      ⟨hState, hProbe, by simp [hSinkTest]⟩
    refine ⟨_, State.next_on_eq (if_pos hprobing), ?_, Hw.clearChgEn_en s.hw.sinking⟩
    exact congrArg Charger.sinkTest (Hw.clearChgEn_chg s.hw.sinking)
  · intro s mv hState hSinkTest
    exact execSinkTestEnd_ends mv hState hSinkTest
  · intro s mv l hLimits hState hProbe hMv
    refine ⟨_, execProbeShort_fails hLimits hState hProbe hMv, Hw.chgTo_state _ 7 (by decide), Hw.chgTo_faultLatch _
      7, ?_⟩
    exact (Hw.chgTo_input _ 7 (by decide)).trans (Hw.fault_input ..)
  · intro s ohm vbat l p hState hLimits hOhm hOhm2 hGetD hEn hChem hCells hModuleCells hVbat hProfileBad hResume
    exact execPackNegotiate_takes hState hLimits hOhm hOhm2 hGetD hEn hChem hCells hModuleCells hVbat hProfileBad
      hResume
  · intro s ohm vbat l hState hLimits hOhm
    refine ⟨_, execPackNegotiate_refuses vbat hState hLimits hOhm, Hw.chgTo_state _ 9 (by decide), ?_⟩
    rw [State.on_hw, Hw.holdPack, Hw.said, Hw.chgTo_input _ 9 (by decide)]
    exact (Hw.fault_input ..).trans (congrArg _ ((s.hw.packSeen_within vbat).kept .faultInput).1)
  · intro s r err hEn hState hIchg
    have hended : s.hw.packReadsEnd.rd Reg.CHG_STATUS_STATE = 2 := s.hw.packReadsEnd_state.trans hState
    obtain ⟨hsbs, hichg, -, hshown⟩ := s.hw.packReadsEnd.showSbs_shows r
    refine ⟨_, State.next_on_eq ((if_pos ⟨hEn, by simp [hState, chgHOLD]⟩).trans
      (Hw.applySbs_negotiating (hshown.trans hended) r)), hsbs, ?_⟩
    exact hichg.trans (satN_of_lt hIchg)
  · intro s r err hState hHold hFrnReached
    obtain ⟨hsbs, -, hsub, -⟩ := s.hw.packReadsEnd.showSbs_shows r
    refine ⟨_, State.next_on_eq (if_pos ⟨hState, hHold, hFrnReached⟩), Hw.chgTo_state _ 11 (by decide), ?_, ?_⟩
    · obtain ⟨b, reads, ask, hchg⟩ := Hw.chgTo_charger (s.hw.packReadsEnd.showSbs r) chgNEGOTIATE 11
      exact (congrArg Charger.sbs hchg).trans hsbs
    · have hfiled := Hw.chgTo_filed (s.hw.packReadsEnd.showSbs r) chgNEGOTIATE 11
      rwa [Hw.filed, hsub, Hw.packReadsEnd_records] at hfiled
  · intro s changed hState hVal
    refine ⟨_, State.next_on_eq (if_pos ⟨hState, hVal⟩), Hw.chgTo_state _ 8 (by decide), Hw.chgTo_filed ..⟩

end Sys2Proof.Machine
end

