-- ==== Sys2Proof/Proofs/PackSensors.lean ====
section
/-! PROOFS. The pack's sensors, its removal, and the host's two controls of the charge (O25). -/

namespace Sys2Proof.Machine

set_option Elab.async false

/-- A charger that has the same pack: found, removed, and the word of a removal still to come (R163). -/
structure Charger.SamePack (c c' : Charger) : Prop where
  found : c'.found = c.found
  removed : c'.removed = c.removed
  removal : c'.removal = c.removal

namespace Charger.SamePack

theorem refl (c : Charger) : c.SamePack c := ⟨rfl, rfl, rfl⟩

theorem trans {c c1 c' : Charger} (h : c.SamePack c1) (h' : c1.SamePack c') : c.SamePack c' :=
  ⟨h'.found.trans h.found, h'.removed.trans h.removed, h'.removal.trans h.removal⟩

theorem of_like {c c' : Charger} (h : c.Like c') : c.SamePack c' := by
  obtain ⟨b, reads, ask, rfl⟩ := h
  exact ⟨rfl, rfl, rfl⟩

end Charger.SamePack

theorem Hw.lamp_pack (m : Hw) (b : Bool) : m.chg.SamePack (m.lamp b).chg := by
  unfold Hw.lamp
  split <;> exact ⟨rfl, rfl, rfl⟩

theorem Hw.thaw_pack (m : Hw) (full : Bool) : m.chg.SamePack (m.thaw full).chg := by
  unfold Hw.thaw Hw.lampSettle
  generalize hm1 : ((((m.wr Reg.RAIL_STATUS_HOLD_ACT 0).driveQuiet false).thawEntry full).resumeRails).batfet = m1
  have hentry : m1.chg = (((m.wr Reg.RAIL_STATUS_HOLD_ACT 0).driveQuiet false).thawEntry full).chg := by
    rw [← hm1]
    exact (Within.refl.resumeRails.batfet (sc := parts [.rails] ++ Machine.regs [Reg.BATFET_STATUS_STATE])).kept .chg
  have hsame : m.chg.SamePack m1.chg := by
    rw [hentry]
    exact ⟨rfl, rfl, rfl⟩
  split
  · exact hsame.trans (m1.lamp_pack _)
  · exact hsame

theorem Hw.freezeEnd_pack (m : Hw) (full : Bool) : m.chg.SamePack (m.freezeEnd full).chg := by
  have hstop : m.freezeStop.noApts.chg = m.chg := by
    simp (disch := decide +kernel) [*, Hw.noApts]
  unfold Hw.freezeEnd
  split
  · rw [← hstop]
    exact Hw.thaw_pack _ full
  · exact .refl _

theorem Hw.cutFreeze_pack (m : Hw) (r : Nat) (full : Bool) : m.chg.SamePack (m.cutFreeze r full).chg := by
  unfold Hw.cutFreeze
  split
  · rw [show ∀ m1 : Hw, ∀ s b, (m1.markRun s b).chg = m1.chg from fun _ _ _ => rfl,
      (Within.refl.refuse (hs := Touch.covers_refl _)).kept .chg]
    exact m.freezeEnd_pack full
  · exact .refl _

theorem Hw.freezeStop_seq (m : Hw) : m.freezeStop.seq.removedHold = m.seq.removedHold := by
  unfold Hw.freezeStop Hw.countFrozen
  dsimp only
  split <;> rfl

theorem Hw.freezeEnd_removedHold (m : Hw) (full : Bool) : (m.freezeEnd full).seq.removedHold = m.seq.removedHold := by
  unfold Hw.freezeEnd
  split
  · simp (disch := decide +kernel) [*, Hw.freezeStop_seq, Hw.noApts]
  · rfl

theorem Hw.cutFreeze_removedHold (m : Hw) (r : Nat) (full : Bool) :
    (m.cutFreeze r full).seq.removedHold = m.seq.removedHold := by
  unfold Hw.cutFreeze
  split
  · simp (disch := decide +kernel) [*, Hw.refuse, Hw.markRun, Hw.freezeEnd_removedHold]
  · rfl

theorem bitsOf_putBits_byte (x : Nat) (i : Fin 4) {v : Nat} (h : v < 256) :
    bitsOf (putBits x (8 * i.val) 8 v % 2 ^ 32) (8 * i.val) 8 = v := by
  match i with
  | 0 => simp [bitsOf, putBits]; omega
  | 1 => simp [bitsOf, putBits]; omega
  | 2 => simp [bitsOf, putBits]; omega
  | 3 => simp [bitsOf, putBits]; omega

theorem Hw.setTs_reads (m : Hw) (i : Fin 4) {v : Nat} (h : v < 256) :
    bitsOf ((m.setTs i.val v).rd Reg.CHG_TEMP_TS) (8 * i.val) 8 = v := by
  rw [Hw.setTs, Hw.rd_wr_same]
  exact bitsOf_putBits_byte _ i h

theorem Hw.chgTo_pack (m : Hw) (st cause : Nat) : m.chg.SamePack (m.chgTo st cause).chg :=
  .trans (c1 := (m.chgSet st).chg) ⟨rfl, rfl, rfl⟩ (.of_like (m.chgTo_charger st cause))

/-- A state that does not charge has the charge enable of the loop cleared. -/
theorem Hw.chgTo_disables (m : Hw) {st : Nat} (cause : Nat) (h : ¬(st = 3 ∨ st = 4 ∨ st = 5)) :
    (m.chgTo st cause).rd Reg.CHG_STATUS_EN = 0 := by
  obtain ⟨p, hp⟩ := m.chgTo_eq st cause
  rw [hp, Hw.record_rd_other (by decide +kernel), (Hw.chgShow_within _ st).rd _ (by decide +kernel), Hw.chgDrive,
    if_neg h]
  exact Hw.clearChgEn_en _

/-- The pack declared removed, its charge disabled: the freeze under way and the charge state are still to end (R163).
  -/
def Hw.removalSeen (m : Hw) (d : Nat) : Hw :=
  (({ m.wr Reg.CHG_STATUS_REMOVAL 1 with
      chg := { m.chg with
        removal := some d, found := false, removed := true, sbs := none, sbsFails := 0, alarmSaid := false, resume :=
          none }
      seq := { m.seq with removedHold := true }
      cable := { m.cable with qvalid := false } } : Hw).clearChgEn).statEvent 4

theorem Hw.removalSeen_cut (m : Hw) (d : Nat) :
    ((m.removalSeen d).cutFreeze rsnBatRemoved true).rd Reg.CHG_STATUS_EN = 0 ∧
    ((m.removalSeen d).cutFreeze rsnBatRemoved true).seq.removedHold = true := by
  refine ⟨?_, (Hw.cutFreeze_removedHold ..).trans rfl⟩
  refine ((Within.refl.cutFreeze (hs := Touch.covers_refl _)).rd Reg.CHG_STATUS_EN (by decide +kernel)).trans ?_
  exact ((Within.refl.statEvent (hs := Touch.covers_refl _)).rd Reg.CHG_STATUS_EN (by decide +kernel)).trans
    (Hw.clearChgEn_en _)

theorem Hw.removal_declares {m : Hw} {d : Nat} (hnone : m.chg.removal = none) (hd : d ≠ 0) (hin : m.packIn = true) :
    (m.removalSeen d).chg.SamePack (m.removal d).chg ∧ (m.removal d).rd Reg.CHG_STATUS_EN = 0 ∧
    (m.removal d).rd Reg.FRM_STATUS_FRZ = 0 ∧ (m.removal d).seq.removedHold = true := by
  obtain ⟨hen, hheld⟩ := m.removalSeen_cut d
  have hpack := (m.removalSeen d).cutFreeze_pack rsnBatRemoved true
  have hfrz := (m.removalSeen d).cutFreeze_frozen rsnBatRemoved true
  generalize hC : (m.removalSeen d).cutFreeze rsnBatRemoved true = C at hen hheld hpack hfrz
  have hremoval : m.removal d =
      (if C.chgState = chgOFF ∨ C.chgState = chgABSENT then C else C.chgTo chgABSENT 3).batfet := by
    unfold Hw.removal
    rw [hnone, ← hC]
    exact if_neg (by simp [hd, hin])
  rw [hremoval, Hw.rd_batfet (by decide +kernel), Hw.rd_batfet (by decide +kernel), Hw.batfet, Hw.wr_chg, Hw.wr_seq]
  split
  · exact ⟨hpack, hen, hfrz, hheld⟩
  · have hw := Within.refl.chgTo (m := C) (st := chgABSENT) (cause := 3) (hs := Touch.covers_refl _)
    exact ⟨hpack.trans (C.chgTo_pack ..), C.chgTo_disables 3 (by decide), (hw.rd _ (by decide +kernel)).trans hfrz,
      (congrArg _ (hw.kept .seq)).trans hheld⟩

/-- A module without its pack: nothing at the terminals, or what is there has been declared removed. -/
theorem Hw.presence_gone {m : Hw} (vbat vsys : Nat) (hfound : m.chg.found = false) (hremoved : m.chg.removed = true) :
    (m.presence vbat vsys).packIn = false := by
  have hkeep : ∀ (c : Prop) [Decidable c], (if c then m.wr Reg.RAIL_STATUS_KA_ON 1 else m).chg = m.chg := fun c _ => by
    split <;> rfl
  unfold Hw.presence
  dsimp only
  generalize (if m.on Reg.CHG_STATUS_PRESENT then decide (4800 ≤ if m.rd Reg.BATFET_STATUS_STATE = 2 then vsys else
    vbat)
    else decide (5000 < if m.rd Reg.BATFET_STATUS_STATE = 2 then vsys else vbat)) = on
  have hon : ∀ (m1 : Hw) (c : Charger), ({ m1.wrB Reg.CHG_STATUS_PRESENT on with chg := c } : Hw).on
      Reg.CHG_STATUS_PRESENT = on := fun m1 c => by
    rw [Hw.on, Hw.rd_mk, Hw.rd_wrB_same (by decide)]
    cases on <;> rfl
  simp only [Hw.packIn, hkeep, hfound, hremoved, hon]
  cases on <;> rfl

theorem Hw.detect_declares {m : Hw} {t vbat d : Nat} {heard : Nat} (hheard : (m.atT t).detectorsHeard vbat d = heard)
    (hsome : heard ≠ 0) (hin : m.packIn = true) (hnone : m.chg.removal = none) :
    (m.detect t vbat d).chg.removal = some heard ∧ (m.detect t vbat d).packIn = false ∧
    (m.detect t vbat d).rd Reg.CHG_STATUS_EN = 0 ∧ (m.detect t vbat d).rd Reg.FRM_STATUS_FRZ = 0 ∧
    (m.detect t vbat d).seq.removedHold = true := by
  have hw := Within.refl.atT (m := m) (t := t) (hs := Touch.covers_refl _)
  have hchg : (m.atT t).chg = m.chg := hw.kept .chg
  have hdetect : m.detect t vbat d = ((m.atT t).removal heard).presence vbat vbat := by
    simp only [Hw.detect, hheard]
    exact if_neg hsome
  obtain ⟨hpack, hen, hfrz, hheld⟩ := Hw.removal_declares (m := m.atT t) (d := heard) (by rw [hchg, hnone]) hsome (by
    rw [Hw.packIn, hchg, Hw.on, hw.rd Reg.CHG_STATUS_PRESENT (by decide +kernel)]
    exact hin)
  generalize hm1 : (m.atT t).removal heard = m1 at hdetect hpack hen hfrz hheld
  have hp := m1.presence_within vbat vbat
  obtain ⟨gone, hpchg⟩ := m1.presence_charger vbat vbat
  rw [hdetect]
  refine ⟨?_, m1.presence_gone vbat vbat hpack.found hpack.removed, (hp.rd _ (by decide +kernel)).trans hen,
    (hp.rd _ (by decide +kernel)).trans hfrz, (congrArg _ (hp.kept .seq)).trans hheld⟩
  rw [hpchg]
  exact hpack.removal

/-- Settles O25, each clause from the rules of the operations that its command uses. -/
theorem packSensorsAndControlsAct : Obligations.PackSensorsAndControlsAct := by
  unfold Obligations.PackSensorsAndControlsAct
  refine ⟨?_, ?_, ?_, ?_, ?_, ?_, ?_, ?_, ?_, ?_⟩
  · intro s i hTsUse hBitAt
    refine ⟨_, rfl, ?_⟩
    simp (disch := decide +kernel) [*, Hw.said, Kind.TEMP_HW_STOP, bitAt_putBit]
  · intro s i
    refine ⟨_, rfl, ?_⟩
    simp (disch := decide +kernel) [*, bitAt_putBit]
  · intro s i hTsUse hRemoval hRemovedHold
    rw [Hw.tsUse] at hTsUse
    refine ⟨_, rfl, ?_⟩
    simp (disch := decide +kernel) [*, Hw.said, Kind.TS_OPEN, Hw.tsUse, bitAt_putBit, s.hw.setTs_reads i (v := 0x80)
      (by decide)]
  · intro s i hTsUse
    rw [Hw.tsUse] at hTsUse
    refine ⟨_, rfl, ?_⟩
    simp (disch := decide +kernel) [*, Hw.said, Kind.TS_SHORT, Hw.tsUse, bitAt_putBit, s.hw.setTs_reads i (v := 0x7F)
      (by decide)]
  · intro s t vbat detectors hDetectorsHeard hPackIn hRemoval
    obtain ⟨hsome, hout, hen, hfrz, hheld⟩ := Hw.detect_declares (t := t) (vbat := vbat) (d := detectors.val) rfl
      hDetectorsHeard hPackIn hRemoval
    generalize hm : s.hw.detect t vbat detectors.val = m at hsome hout hen hfrz hheld
    refine ⟨_, State.next_on_eq (m := m.meter.resignFor .removal) ?_, ?_⟩
    · simp [hm, hsome, hRemoval]
    · have hw := Within.refl.meter.resignFor (m0 := m) (cause := .removal) (sc := Touch.resigning ++ parts [.journal,
        .faultInput] ++ Machine.regs [Reg.JRN_ALLOW_ALLOW, Reg.JRN_STATUS_HOLD_BAT, Reg.JRN_STATUS_CHOLD_OK,
        Reg.FLT_STATUS_LOST])
      have hchg : (m.meter.resignFor .removal).chg = m.chg := hw.kept .chg
      refine ⟨by rw [hchg, hsome], ?_, (hw.rd _ (by decide +kernel)).trans hen, ?_, ?_⟩
      · rwa [Hw.packIn, hchg, Hw.on, hw.rd Reg.CHG_STATUS_PRESENT (by decide +kernel)]
      · rw [Hw.frozen_eq_false]
        exact (hw.rd _ (by decide +kernel)).trans hfrz
      · exact (congrArg _ (hw.kept .seq)).trans hheld
  · intro s b hRemoval
    refine ⟨_, rfl, ?_⟩
    simp (disch := decide +kernel) [*, Hw.said, Kind.BAT_REMOVED]
  · intro s
    refine ⟨_, rfl, ?_⟩
    simp (disch := decide +kernel) [*]
  · intro s ms hHalted hQuietDue
    refine ⟨_, State.next_on_eq ((if_neg (by simp [hHalted])).trans (if_neg ?_)), rfl, rfl⟩
    simpa [Hw.quietDue] using hQuietDue
  · intro s suspend
    refine ⟨_, rfl, ?_⟩
    simp (disch := decide +kernel) [*]
  · intro s limit
    refine ⟨_, rfl, ?_⟩
    simp (disch := decide +kernel) [*]
    exact Nat.mod_eq_of_lt limit.isLt

end Sys2Proof.Machine
end

