-- ==== Sys2Proof/Proofs/Rails.lean ====
section
/-! PROOFS. The instrument rails: their records and bits, the rails that follow, a rail that fails (O26). -/

namespace Sys2Proof.Machine

set_option Elab.async false

/-! The rails' records and their bits. -/

@[simp] theorem Hw.setRail_length (m : Hw) (n : Nat) (r : Rail) :
    (m.setRail n r).rails.rail.length = m.rails.rail.length := List.length_set ..

theorem Hw.rail_setRail {m : Hw} {n : Nat} (hlt : n < m.rails.rail.length) (r : Rail) : (m.setRail n r).rail n = r := by
  simp [Hw.rail, Hw.setRail, hlt]

theorem Hw.rail_setRail_ne {m : Hw} {n k : Nat} (hne : n ≠ k) (r : Rail) : (m.setRail n r).rail k = m.rail k := by
  simp [Hw.rail, Hw.setRail, List.getD_eq_getElem?_getD, List.getElem?_set_ne hne]

/-- A property that both the new record and the old one have holds of every rail. -/
theorem Hw.rail_setRail_all {m : Hw} {p : Rail → Prop} {n k : Nat} {r : Rail} (hold : p (m.rail k))
    (hnew : n = k → p r) : p ((m.setRail n r).rail k) := by
  by_cases hne : n = k
  · by_cases hlt : n < m.rails.rail.length
    · subst hne
      rw [Hw.rail_setRail hlt]
      exact hnew rfl
    · have hsame : (m.setRail n r).rail k = m.rail k := by
        simp [Hw.rail, Hw.setRail, List.set_eq_of_length_le (Nat.not_lt.1 hlt)]
      rw [hsame]
      exact hold
  · rw [Hw.rail_setRail_ne hne]
    exact hold

theorem Hw.rail_of_rails {m m' : Hw} (h : m'.rails = m.rails) (n : Nat) : m'.rail n = m.rail n := by
  rw [Hw.rail, Hw.rail, h]

theorem bitAt_mod {v i w : Nat} (h : i < w) : bitAt (v % 2 ^ w) i = bitAt v i := by
  rw [bitAt_eq_testBit, bitAt_eq_testBit, Nat.testBit_mod_two_pow]
  simp [h]

theorem Hw.bit_wrBit {m : Hw} {f : Field} {i : Nat} (h : i < f.width) (b : Bool) : (m.wrBit f i b).bit f i = b := by
  rw [Hw.bit, Hw.wrBit, Hw.rd_wr_same, bitAt_mod h, bitAt_putBit]

theorem Hw.setRailOn_rail (m : Hw) (n k : Nat) (b : Bool) : (m.setRailOn n b).rail k = m.rail k := by
  unfold Hw.setRailOn
  split <;> rfl

theorem Hw.setRailOn_railOn {m : Hw} {n : Nat} (h : n < 5) (b : Bool) : (m.setRailOn n b).railOn n = b := by
  unfold Hw.setRailOn Hw.railOn
  split
  next hpol => exact Hw.bit_wrBit hpol b
  next hqr => exact Hw.bit_wrBit (show n - 3 < 2 by omega) b

theorem Hw.setSlewing_rail {m : Hw} {n : Nat} (hlt : n < m.rails.rail.length) (b : Bool) :
    (m.setSlewing n b).rail n = { m.rail n with arrived := !b } := by
  have hset := Hw.rail_setRail hlt { m.rail n with arrived := !b }
  unfold Hw.setSlewing
  split
  · exact hset
  · exact hset

theorem Hw.setSlewing_railOn (m : Hw) (n k : Nat) (b : Bool) : (m.setSlewing n b).railOn k = m.railOn k := by
  have hread : ∀ f : Field, f.key ≠ Reg.RAIL_STATUS_POL_SLEW.key → (m.setSlewing n b).rd f = m.rd f := fun f hf => by
    unfold Hw.setSlewing
    split
    · exact Hw.rd_wrBit_other hf n b
    · rfl
  rw [Hw.railOn, Hw.railOn, Hw.bit, Hw.bit, Hw.bit, Hw.bit, hread _ (by decide), hread _ (by decide)]

theorem Hw.polReg_railOn (m : Hw) (n k : Nat) (b : Bool) :
    (m.wrBit Reg.RAIL_STATUS_POL_REG n b).railOn k = m.railOn k := by
  rw [Hw.railOn, Hw.railOn, Hw.bit, Hw.bit, Hw.bit, Hw.bit, Hw.rd_wrBit_other (by decide), Hw.rd_wrBit_other (by
    decide)]

theorem Hw.polStart_railOn {m : Hw} {n : Nat} (hn : n < 5) (vout : Nat) : (m.polStart n vout).railOn n = true := by
  rw [Hw.polStart, Hw.polReg_railOn, Hw.setSlewing_railOn, Hw.setRailOn_railOn hn]

theorem Hw.polStop_railOn {m : Hw} {n : Nat} (hn : n < 5) : (m.polStop n).railOn n = false := by
  rw [Hw.polStop, Hw.polReg_railOn, Hw.setSlewing_railOn, Hw.setRailOn_railOn hn]

theorem Hw.setRailOn_length (m : Hw) (n : Nat) (b : Bool) :
    (m.setRailOn n b).rails.rail.length = m.rails.rail.length := by
  unfold Hw.setRailOn
  split <;> rfl

theorem Hw.polStart_rail {m : Hw} {n : Nat} (hlt : n < m.rails.rail.length) (vout : Nat) :
    (m.polStart n vout).rail n = { m.rail n with
      ss := true, ref := vout * 1000, refAt := m.now, resume := none, slew := m.rd (Reg.POL_CFG_SLEW n), ssEnd := none
      disch := false, arrived := false } := by
  unfold Hw.polStart
  rw [Hw.rail_of_rails (Hw.wrBit_rails ..), Hw.setSlewing_rail (by rw [Hw.setRailOn_length, Hw.setRail_length]; exact
    hlt),
    Hw.setRailOn_rail, Hw.rail_setRail hlt]
  rfl

theorem Hw.polStop_rail {m : Hw} {n : Nat} (hlt : n < m.rails.rail.length) :
    (m.polStop n).rail n = { m.rail n with ss := false, ssEnd := none, resume := none, arrived := true } := by
  unfold Hw.polStop
  rw [Hw.rail_of_rails (Hw.wrBit_rails ..), Hw.setSlewing_rail (by rw [Hw.setRailOn_length, Hw.setRail_length]; exact
    hlt),
    Hw.setRailOn_rail, Hw.rail_setRail hlt]
  rfl


/-- Two records of a rail agree in what stops the rail and what it is tried again for. -/
structure Rail.SameStops (a b : Rail) : Prop where
  stopped : a.stopped = b.stopped
  uvlo : a.uvlo = b.uvlo
  fold : a.fold = b.fold
  retryAt : a.retryAt = b.retryAt

theorem Rail.SameStops.refl (a : Rail) : Rail.SameStops a a := ⟨rfl, rfl, rfl, rfl⟩

theorem Hw.setSlewing_stops {m : Hw} {n k : Nat} {b : Bool} {r : Rail} (h : (m.rail k).SameStops r) :
    ((m.setSlewing n b).rail k).SameStops r := by
  have hset : ((m.setRail n { m.rail n with arrived := !b }).rail k).SameStops r :=
    Hw.rail_setRail_all (p := fun x => x.SameStops r) h fun hk => by subst hk; exact ⟨h.stopped, h.uvlo, h.fold,
      h.retryAt⟩
  unfold Hw.setSlewing
  split
  · exact hset
  · exact hset

theorem Hw.polStart_stops {m : Hw} {n k vout : Nat} {r : Rail} (h : (m.rail k).SameStops r) :
    ((m.polStart n vout).rail k).SameStops r := by
  unfold Hw.polStart
  rw [Hw.rail_of_rails (Hw.wrBit_rails ..)]
  refine Hw.setSlewing_stops ?_
  rw [Hw.setRailOn_rail]
  exact Hw.rail_setRail_all (p := fun x => x.SameStops r) h fun hk => by
    subst hk; exact ⟨h.stopped, h.uvlo, h.fold, h.retryAt⟩

theorem Hw.polStop_stops {m : Hw} {n k : Nat} {r : Rail} (h : (m.rail k).SameStops r) :
    ((m.polStop n).rail k).SameStops r := by
  unfold Hw.polStop
  rw [Hw.rail_of_rails (Hw.wrBit_rails ..)]
  refine Hw.setSlewing_stops ?_
  rw [Hw.setRailOn_rail]
  exact Hw.rail_setRail_all (p := fun x => x.SameStops r) h fun hk => by
    subst hk; exact ⟨h.stopped, h.uvlo, h.fold, h.retryAt⟩

theorem Hw.polFollow_stops {m : Hw} {n k : Nat} {r : Rail} (h : (m.rail k).SameStops r) :
    ((m.polFollow n).rail k).SameStops r := by
  have hdisch : ∀ (m : Hw) (b : Bool), (m.rail k).SameStops r →
      ((m.setRail n { m.rail n with disch := b }).rail k).SameStops r := fun m b h =>
    Hw.rail_setRail_all (p := fun x => x.SameStops r) h fun hk => by
      subst hk; exact ⟨h.stopped, h.uvlo, h.fold, h.retryAt⟩
  unfold Hw.polFollow
  refine hdisch _ _ ?_
  split_ifs
  · exact h
  · exact Hw.polStart_stops h
  · exact Hw.polStop_stops h
  · exact h

theorem Hw.railsFollow_stops {m : Hw} {k : Nat} {r : Rail} (h : (m.rail k).SameStops r) :
    (m.railsFollow.rail k).SameStops r := by
  simp only [Hw.railsFollow, List.range, List.range.loop, List.foldl_cons, List.foldl_nil, Hw.setRailOn_rail]
  exact Hw.polFollow_stops (Hw.polFollow_stops (Hw.polFollow_stops h))

theorem Hw.setRailOn_railOn_ne {m : Hw} {i k : Nat} (hi : i < 2) (hk : k < 2) (hne : i ≠ k) (b : Bool) :
    (m.setRailOn (3 + i) b).railOn (3 + k) = m.railOn (3 + k) := by
  obtain ⟨rfl, rfl⟩ | ⟨rfl, rfl⟩ : i = 0 ∧ k = 1 ∨ i = 1 ∧ k = 0 := by omega
  all_goals
    simp only [Hw.setRailOn, Hw.railOn, Hw.bit, Hw.wrBit, Hw.rd_wr_same, Nat.reduceAdd, Nat.reduceLT, if_false,
      Nat.reduceSub]
    rw [bitAt_mod (by decide)]
    cases b <;> simp [putBit, bitAt] <;> split_ifs <;> omega

/-- A quiet rail that its temperature holds off is not asked to run, and stands off when the rails follow (R196). -/
theorem Hw.railsFollow_foldOff {m : Hw} {n : Fin 2} (h : (m.rail (3 + n.val)).fold = true) :
    m.railsFollow.railOn (3 + n.val) = false := by
  have hwant : ∀ m' : Hw, (m'.rail (3 + n.val)).SameStops (m.rail (3 + n.val)) → m'.qrWanted n.val = false :=
    fun m' hm => by simp [Hw.qrWanted, hm.fold, h]
  simp only [Hw.railsFollow]
  generalize hpol : (List.range 3).foldl (fun m n => m.polFollow n) m = p
  have hstops : (p.rail (3 + n.val)).SameStops (m.rail (3 + n.val)) := by
    subst hpol
    simp only [List.range, List.range.loop, List.foldl_cons, List.foldl_nil]
    exact Hw.polFollow_stops (Hw.polFollow_stops (Hw.polFollow_stops (Rail.SameStops.refl _)))
  simp only [List.range, List.range.loop, List.foldl_cons, List.foldl_nil]
  match n with
  | 0 => 
    rw [Hw.setRailOn_railOn_ne (by decide) (by decide) (by decide)]
    exact (Hw.setRailOn_railOn (by decide) _).trans (hwant p hstops)
  | 1 => exact (Hw.setRailOn_railOn (by decide) _).trans (hwant _ (by rw [Hw.setRailOn_rail]; exact hstops))


/-! A rail that fails. -/

/-- What a POL rail is left with where it may be tried again (R176). -/
theorem Hw.polFail_retries {m : Hw} {n : Nat} {k : FaultKind} {detail : Bool → Nat} {short : Bool}
    (hlt : n < m.rails.rail.length) (hn : n < 3) (hfew : (m.rail n).attempts < 3) :
    (m.polFail n k detail short).railOn n = false ∧ ((m.polFail n k detail short).rail n).stopped = true ∧
      ((m.polFail n k detail short).rail n).retryAt = some (m.frnAfter 16) ∧
      (m.polFail n k detail short).flt.input =
        pushWord 32 0x10 ⟨0x24 + n, k.code, k.sev, satN 14 (detail false)⟩ m.flt.input := by
  have hlatch : decide (3 ≤ (m.rail n).attempts) = false := by simpa using hfew
  simp only [Hw.polFail, hlatch, Bool.false_and, Bool.false_eq_true, if_false]
  generalize hr : ({ m.rail n with
    stopped := true, ssEnd := none, attempts := (m.rail n).attempts + 1, retryAt := _ } : Rail) = r
  generalize hw : m.faultW { src := 0x24 + n, kind := k.code, sev := k.sev, detail := satN 14 (detail false) } = m1
    at hr
  have hrails : m1.rails = m.rails := by subst hw; exact Hw.faultW_rails ..
  have hlt1 : n < m1.rails.rail.length := by rwa [hrails]
  have hfrn : m1.frnAfter 16 = m.frnAfter 16 := by
    subst hw
    simp (disch := decide +kernel) [*, Hw.frnAfter, Hw.frn]
  have hrail := Hw.polStop_rail (m := m1.setRail n r) (n := n) (by rwa [Hw.setRail_length])
  rw [Hw.rail_setRail hlt1] at hrail
  refine ⟨Hw.polStop_railOn (by omega), ?_, ?_, ?_⟩
  · rw [hrail, ← hr]
  · rw [hrail, ← hr, hfrn]
  · have hstop : ((m1.setRail n r).polStop n).flt.input = m1.flt.input := by simp (disch := decide +kernel) [*]
    rw [hstop, ← hw, Hw.faultW_input]

theorem Hw.railRetire_records (m : Hw) (n : Nat) : (m.railRetire n).sub.map Append.r = m.sub.map Append.r := by
  unfold Hw.railRetire
  split
  · exact Hw.dropTicket_records ..
  · rfl

theorem Hw.endTag_records (m : Hw) (n code detail : Nat) :
    (m.endTag n code detail).sub.map Append.r = m.sub.map Append.r := by
  unfold Hw.endTag
  split
  · exact Hw.railRetire_records ..
  · rfl

/-- What a POL rail is left with where it has been tried three times (R176). -/
theorem Hw.polFail_latches {m : Hw} {n : Nat} {k : FaultKind} {detail : Bool → Nat} {short : Bool}
    (hn : n < 3) (hspent : 3 ≤ (m.rail n).attempts) :
    (m.polFail n k detail short).railOn n = false ∧
      (m.polFail n k detail short).bit Reg.RAIL_STATUS_POL_LATCHED n = true ∧
      m.filed (m.polFail n k detail short) JR.POWER_LATCH (0x24 + n) := by
  have hlatch : decide (3 ≤ (m.rail n).attempts) = true := by simpa using hspent
  simp only [Hw.polFail, hlatch, if_true]
  generalize hw : m.faultW { src := 0x24 + n, kind := k.code, sev := _, detail := _ } = m1
  have hsub : m1.sub = m.sub := by subst hw; simp (disch := decide +kernel) [*]
  generalize hstop : Hw.polStop _ n = m2
  have hoff : m2.railOn n = false := hstop ▸ Hw.polStop_railOn (by omega)
  have hstopped : ∀ (m : Hw), (m.polStop n).sub = m.sub := fun m => by simp (disch := decide +kernel) [*]
  have hsub2 : m2.sub = m.sub := by rw [← hstop, hstopped]; exact hsub
  generalize hend : Hw.endTag (m2.wrBit Reg.RAIL_STATUS_POL_LATCHED n true) n 6 2 = m3
  have hon : m3.rd Reg.RAIL_STATUS_POL_ON = m2.rd Reg.RAIL_STATUS_POL_ON := by
    subst hend
    simp (disch := decide +kernel) [*]
  have hbit : m3.bit Reg.RAIL_STATUS_POL_LATCHED n = true := by
    have hkeep : m3.rd Reg.RAIL_STATUS_POL_LATCHED =
        (m2.wrBit Reg.RAIL_STATUS_POL_LATCHED n true).rd Reg.RAIL_STATUS_POL_LATCHED := by subst hend; simp (disch :=
          decide +kernel) [*]
    rw [Hw.bit, hkeep]
    exact Hw.bit_wrBit hn true
  have hrecords : m3.sub.map Append.r = m.sub.map Append.r := by
    rw [← hend, Hw.endTag_records, Hw.wrBit_sub, hsub2]
  refine ⟨?_, ?_, ?_⟩
  · rw [Hw.railOn, if_pos hn] at hoff ⊢
    rw [Hw.bit] at hoff ⊢
    have hlast : (m3.powerLatch (0x24 + n) k).rd Reg.RAIL_STATUS_POL_ON = m3.rd Reg.RAIL_STATUS_POL_ON := by simp
      (disch := decide +kernel) [*]
    rw [hlast, hon, hoff]
  · have hlast : (m3.powerLatch (0x24 + n) k).rd Reg.RAIL_STATUS_POL_LATCHED = m3.rd Reg.RAIL_STATUS_POL_LATCHED := by
      simp (disch := decide +kernel) [*]
    rw [Hw.bit, hlast]
    exact hbit
  · obtain ⟨r, happ, hkind, hsrc⟩ := m3.record_filed JR.POWER_LATCH (0x24 + n) (le 1 (0x24 + n) ++ le 1 k.code ++ le 2
    0)
    exact ⟨r, by rw [← hrecords]; exact happ, hkind, hsrc⟩

/-! Undervoltage of VSYS. -/

/-- A POL rail stops at an undervoltage of VSYS (R178). -/
def Hw.polUndervolt (vsys : Nat) (m : Hw) (n : Nat) : Hw :=
  ((m.setRail n { m.rail n with uvlo := true }).polStop n).faultAt Kind.POL_UVLO (0x24 + n) (vsys / 100)

theorem Hw.polUndervolt_on {m : Hw} {vsys n : Nat} (hn : n < 3) :
    (m.polUndervolt vsys n).rd Reg.RAIL_STATUS_POL_ON = putBit (m.rd Reg.RAIL_STATUS_POL_ON) n false % 8 := by
  rw [Hw.polUndervolt]
  have hfault : ∀ m : Hw, (m.faultAt Kind.POL_UVLO (0x24 + n) (vsys / 100)).rd Reg.RAIL_STATUS_POL_ON =
      m.rd Reg.RAIL_STATUS_POL_ON := fun m => by simp (disch := decide +kernel) [*]
  have hslew : ∀ m : Hw, (m.setSlewing n false).rd Reg.RAIL_STATUS_POL_ON = m.rd Reg.RAIL_STATUS_POL_ON := fun m => by
    simp (disch := decide +kernel) [*]
  rw [hfault, Hw.polStop, Hw.rd_wrBit_other (by decide), hslew, Hw.setRailOn, if_pos hn, Hw.wrBit, Hw.rd_wr_same]
  rfl

theorem Hw.polUndervolt_length (m : Hw) (vsys n : Nat) :
    (m.polUndervolt vsys n).rails.rail.length = m.rails.rail.length := by
  have hslew : ∀ m : Hw, (m.setSlewing n false).rails.rail.length = m.rails.rail.length := fun m => by
    unfold Hw.setSlewing
    split <;> exact Hw.setRail_length ..
  rw [Hw.polUndervolt, Hw.faultAt_rails, Hw.polStop, Hw.wrBit_rails, hslew, Hw.setRailOn_length, Hw.setRail_length,
    Hw.setRail_length]

theorem Hw.polUndervolt_uvlo {m : Hw} {vsys n k : Nat} (hlt : n < m.rails.rail.length)
    (h : n = k ∨ (m.rail k).uvlo = true) : ((m.polUndervolt vsys n).rail k).uvlo = true := by
  have hset : ((m.setRail n { m.rail n with uvlo := true }).rail k).uvlo = true := by
    by_cases hk : n = k
    · subst hk
      rw [Hw.rail_setRail hlt]
    · rw [Hw.rail_setRail_ne hk]
      exact h.resolve_left hk
  rw [Hw.polUndervolt, Hw.rail_of_rails (Hw.faultAt_rails ..)]
  exact (Hw.polStop_stops (Rail.SameStops.refl _)).uvlo.trans hset

theorem putBits_clear (v : Nat) : putBit (putBit (putBit v 0 false % 8) 1 false % 8) 2 false % 8 = 0 := by
  simp only [putBit, bitAt, Bool.false_eq_true, if_false, beq_iff_eq]
  split_ifs <;> omega

theorem Hw.onceInRun_first {m : Hw} {n : Nat} (h : (m.rail n).runOpen = false) (f : Hw → Hw) :
    m.onceInRun n f = f (m.setRail n { m.rail n with runOpen := true, runQuiet := 0 }) := by
  rw [Hw.onceInRun, h]
  rfl

/-- Settles O26: the rules of the rails' records, of a rail that fails and of the rails that follow give each clause. -/
theorem railsStartStopAndRetry : Obligations.RailsStartStopAndRetry := by
  unfold Obligations.RailsStartStopAndRetry
  refine ⟨?_, ?_, ?_, ?_, ?_, ?_, ?_, ?_, ?_, ?_, ?_, ?_, ?_, ?_⟩
  · intro s n vout us hLength hmay hwanted hoff
    refine ⟨_, State.next_on_eq (m := s.hw.polStart n vout) (by simp [hmay, hwanted, hoff]), ?_⟩
    dsimp only
    rw [Hw.polStart_railOn (by omega), Hw.polStart_rail (by omega)]
    exact ⟨rfl, rfl, rfl⟩
  · intro s n vout us hLength hmay hon hss hgoal
    refine ⟨_, rfl, ?_⟩
    simp only [State.on_hw, hmay, hon, hss, hgoal, Bool.not_true, Bool.false_eq_true, Bool.and_false, if_false, if_true]
    rw [Hw.rail_of_rails (Hw.wrBit_rails ..), Hw.setSlewing_rail (by rw [Hw.setRail_length]; omega),
      Hw.rail_setRail (by omega)]
    exact ⟨rfl, rfl, rfl⟩
  · intro s n floor vout hLength hfew hFloor hDeep
    obtain ⟨hoff, hstop, hretry, hsaid⟩ := Hw.polFail_retries (m := s.hw) (n := n) (k := Kind.POL_SS_SHORT)
      (detail := fun l => (s.hw.rail n).attempts + 4 * b2n l) (short := true) (by omega) n.isLt hfew
    refine ⟨_, State.next_on_eq (m := s.hw.polFail n Kind.POL_SS_SHORT
      (fun l => (s.hw.rail n).attempts + 4 * b2n l) true) ?_, hoff, hstop, hretry, hsaid⟩
    cases floor
    · simp [hDeep rfl]
    · simp [hFloor rfl]
  · intro s n floor vout hLength hspent hFloor hDeep
    obtain ⟨hoff, hlatched, hfiled⟩ := Hw.polFail_latches (m := s.hw) (n := n) (k := Kind.POL_SS_SHORT)
      (detail := fun l => (s.hw.rail n).attempts + 4 * b2n l) (short := true) n.isLt hspent
    refine ⟨_, State.next_on_eq (m := s.hw.polFail n Kind.POL_SS_SHORT
      (fun l => (s.hw.rail n).attempts + 4 * b2n l) true) ?_, hoff, hlatched, hfiled⟩
    cases floor
    · simp [hDeep rfl]
    · simp [hFloor rfl]
  · intro s n vout a hLength ha hreached hquiet
    refine ⟨_, rfl, ?_⟩
    simp only [State.on_hw, ha, hreached, hquiet, Bool.false_eq_true, not_false_eq_true, and_self, if_true]
    have hrail := Hw.rail_setRail (m := s.hw) (n := n) (by omega) { s.hw.rail n with stopped := false, retryAt := none }
    split
    · have hsame := Hw.polStart_stops (n := n) (vout := vout) (Rail.SameStops.refl
        ((s.hw.setRail n { s.hw.rail n with stopped := false, retryAt := none }).rail n))
      rw [hsame.stopped, hsame.retryAt, hrail]
      exact ⟨rfl, rfl⟩
    · rw [hrail]
      exact ⟨rfl, rfl⟩
  · intro s n current vout hLength hon hss hfloor hfew
    obtain ⟨hoff, -, hretry, hsaid⟩ := Hw.polFail_retries (m := s.hw) (n := n) (k := Kind.POL_OCP)
      (detail := fun _ => current) (short := false) (by omega) n.isLt hfew
    exact ⟨_, State.next_on_eq (m := s.hw.polFail n Kind.POL_OCP (fun _ => current) false) (by simp [hon, hss, hfloor]),
      hoff, hretry, hsaid⟩
  · intro s n mv hhigh
    exact ⟨_, State.next_on_eq (if_pos hhigh), Hw.faultAt_input ..⟩
  · intro s vsys hlow hLength
    refine ⟨_, State.next_on_eq (m := ((s.hw.polUndervolt vsys 0).polUndervolt vsys 1).polUndervolt vsys 2)
      (if_pos hlow), ?_, fun n => ?_⟩
    · dsimp only
      rw [Hw.polUndervolt_on (by decide), Hw.polUndervolt_on (by decide), Hw.polUndervolt_on (by decide)]
      exact putBits_clear _
    · dsimp only
      have hlen1 : (s.hw.polUndervolt vsys 0).rails.rail.length = 5 := by rw [Hw.polUndervolt_length, hLength]
      have hlen2 : ((s.hw.polUndervolt vsys 0).polUndervolt vsys 1).rails.rail.length = 5 := by
        rw [Hw.polUndervolt_length, hlen1]
      refine Hw.polUndervolt_uvlo (by omega) ?_
      match n with
      | 2 => exact .inl rfl
      | 1 => exact .inr (Hw.polUndervolt_uvlo (by omega) (.inl rfl))
      | 0 => exact .inr (Hw.polUndervolt_uvlo (by omega) (.inr (Hw.polUndervolt_uvlo (by omega) (.inl rfl))))
  · intro s hLength
    refine ⟨_, rfl, fun n => ?_⟩
    rw [State.on_hw]
    simp only [List.range, List.range.loop, List.foldl_cons, List.foldl_nil]
    refine (Hw.railsFollow_stops (Rail.SameStops.refl _)).uvlo.trans ?_
    match n with
    | 2 => simp [Hw.rail_setRail, hLength]
    | 1 => rw [Hw.rail_setRail_ne (by decide)]; simp [Hw.rail_setRail, hLength]
    | 0 => rw [Hw.rail_setRail_ne (by decide), Hw.rail_setRail_ne (by decide)]; simp [Hw.rail_setRail, hLength]
  · intro s n hfrz hon hpolicy hfirst
    have hopen : (((s.hw.setRail n { s.hw.rail n with floorHeld := true }).wrBit Reg.RAIL_STATUS_HOLD_ACT n true).rail
        n).runOpen = false := by
      rw [Hw.rail_of_rails (Hw.wrBit_rails ..)]
      exact Hw.rail_setRail_all (p := fun r => r.runOpen = false) hfirst fun _ => hfirst
    refine ⟨_, State.next_on_eq ((if_pos (by simp [hfrz, hon, hpolicy])).trans (Hw.onceInRun_first hopen _)), ?_, ?_⟩
    · have hkeep : ∀ (m : Hw) (src d : Nat), (m.faultAt Kind.POL_FRZ_FLOOR src d).rd Reg.RAIL_STATUS_HOLD_ACT =
          m.rd Reg.RAIL_STATUS_HOLD_ACT := fun m src d => by simp (disch := decide +kernel) [*]
      rw [Hw.bit, hkeep]
      exact Hw.bit_wrBit n.isLt true
    · have hfloor : ((s.hw.setRail n { s.hw.rail n with floorHeld := true }).wrBit Reg.RAIL_STATUS_HOLD_ACT n true).rd
          (Reg.POL_CFG_FLOOR n) = s.hw.rd (Reg.POL_CFG_FLOOR n) :=
        Hw.rd_wrBit_other ((by decide : ∀ n : Fin 3, (Reg.POL_CFG_FLOOR n).key ≠ Reg.RAIL_STATUS_HOLD_ACT.key) n) ..
      rw [Hw.said, Hw.faultAt_input, ← hfloor]
      rfl
  · intro s n fold mv hAct hRail
    refine ⟨_, rfl, ?_⟩
    simp (disch := decide +kernel) [*, Hw.said, Kind.POL_HOLD_LIMIT]
  · intro s hserv
    refine ⟨_, State.next_on_eq (if_pos hserv), ?_⟩
    dsimp only
    simp only [List.range, List.range.loop, List.foldl_cons, List.foldl_nil]
    generalize hm : s.hw.wr Reg.RAIL_STATUS_POL_LATCHED 0 = m
    have hzero : m.rd Reg.RAIL_STATUS_POL_LATCHED = 0 := by subst hm; simp
    have hkeep : ∀ (m : Hw) (c : Prop) [Decidable c] (n : Nat) (r : Rail),
        (if c then m.setRail n r else m).rd Reg.RAIL_STATUS_POL_LATCHED = m.rd Reg.RAIL_STATUS_POL_LATCHED :=
      fun m c _ n r => by split <;> rfl
    simp (disch := decide +kernel) [*]
  · intro s n dropout hon hfirst
    refine ⟨_, State.next_on_eq ((if_pos hon).trans (Hw.onceInRun_first hfirst _)), Hw.fault_input ..⟩
  · intro s n temp htemp hLength hfold
    refine ⟨_, State.next_on_eq (if_pos ⟨htemp, by simp [hfold]⟩), ?_, ?_⟩
    · refine Hw.railsFollow_foldOff ?_
      rw [Hw.rail_of_rails (Hw.fault_rails ..), Hw.rail_setRail (by omega)]
    · simp (disch := decide +kernel) [*, Hw.said, Kind.QR_THERMAL]

end Sys2Proof.Machine
end

