-- ==== Sys2Proof/Proofs/KeepAlive.lean ====
section
/-! PROOFS. The keep-alive rail: its gaps, their records and its limits (O28). -/

namespace Sys2Proof.Machine

set_option Elab.async false

theorem Hw.before_of_le {m : Hw} {t d : Nat} (h : d ≤ t) : m.before t d = (m.frn, m.scAt (t - d)) := if_pos h

theorem Hw.before_of_lt {m : Hw} {t d : Nat} (h : t < d) : (m.before t d).1 = (m.frn + 2 ^ 32 - 1) % 2 ^ 32 := by
  rw [Hw.before, if_neg (Nat.not_le.2 h)]

/-- One gap that waits is filed, and none waits any more (R203, R207). -/
theorem Hw.submitGaps_one {m : Hw} {g : KaGap} (hrun : (m.engine .f6).restarting = false)
    (hone : m.rails.kaStored = [g]) : m.submitGaps.rails = { m.rails with kaStored := [] } ∧
      m.submitGaps.rd Reg.RAIL_STATUS_KA_LOW = m.rd Reg.RAIL_STATUS_KA_LOW ∧ m.filed m.submitGaps JR.KA_GAP 0x3F := by
  have heq : m.submitGaps = { m.gapRecord g with rails := { m.rails with kaStored := [] } } := by
    rw [Hw.submitGaps, hrun, hone]
    rfl
  have hlow : (m.gapRecord g).rd Reg.RAIL_STATUS_KA_LOW = m.rd Reg.RAIL_STATUS_KA_LOW :=
    Hw.record_rd_other (by decide +kernel)
  rw [heq]
  exact ⟨rfl, hlow, Hw.record_filed ..⟩

/-- Settles O28, each clause from its command and the rules of the gap's operations. -/
theorem keepAliveRailIsWatched : Obligations.KeepAliveRailIsWatched := by
  unfold Obligations.KeepAliveRailIsWatched
  refine ⟨?_, ?_, ?_, ?_, ?_, ?_, ?_, ?_, ?_, ?_⟩
  · intro s hEn hKaInvalid
    rw [Hw.on_eq_true] at hEn
    refine ⟨_, rfl, ?_⟩
    simp (disch := decide +kernel) [*]
  · intro s t ms mv hKaArmed hKaGap hT
    have hstart := Hw.before_of_le (m := s.hw) hT
    clear hT
    generalize s.hw.scAt (t - 200000) = sc at hstart ⊢
    refine ⟨_, State.next_on_eq (if_pos ⟨hKaArmed, hKaGap⟩), ?_⟩
    generalize s.hw.before t 200000 = start at hstart ⊢
    simp (disch := decide +kernel) [*, Hw.said, Kind.KA_GAP]
  · intro s t ms mv hKaArmed hKaGap hT
    have hstart := Hw.before_of_lt (m := s.hw) hT
    clear hT
    generalize (s.hw.frn + 2 ^ 32 - 1) % 2 ^ 32 = last at hstart ⊢
    refine ⟨_, State.next_on_eq (if_pos ⟨hKaArmed, hKaGap⟩), ?_⟩
    generalize s.hw.before t 200000 = start at hstart ⊢
    simp (disch := decide +kernel) [*, Hw.said, Kind.KA_GAP]
  · intro s t us mv g hOn hKaArmed hKaGap hEngine hKaStored
    refine ⟨_, rfl, ?_⟩
    simp only [State.on_hw, hOn, hKaArmed, Bool.not_true, Bool.false_eq_true, if_false]
    generalize hm : (if mv < Hw.rd _ _ then _ else _ : Hw) = m
    have hrails : m.rails = s.hw.rails := by subst hm; split <;> rfl
    have hsub : m.sub = s.hw.sub := by subst hm; split <;> rfl
    have heng : (m.engine .f6).restarting = false := by subst hm; split <;> exact hEngine
    have hlow : m.rd Reg.RAIL_STATUS_KA_LOW = 0 := by subst hm; split <;> simp (disch := decide +kernel)
    have hgap : m.rails.kaGap = some g := by rw [hrails, hKaGap]
    simp only [hgap]
    generalize hg : ({ g with endFrn := m.frn, endSc := m.scAt t, lowest := min g.lowest mv, us := us } : KaGap) = g'
    obtain ⟨hnone, hkeep, hfiled⟩ := Hw.submitGaps_one (g := g') (m := { m.wrSat Reg.KA_GAP_LAST_MS (us / 1000) with
      rails := { m.rails with kaGap := none, kaStored := m.rails.kaStored ++ [g'] } }) heng (by simp [hrails,
        hKaStored])
    refine ⟨congrArg Rails.kaGap hnone, hkeep.trans ((Hw.rd_wrSat_other (by decide) _).trans hlow), ?_⟩
    · rw [Hw.filed] at hfiled ⊢
      rwa [← hsub]
  · intro s t us mv hOn hKaArmed hKaGap
    rw [Hw.on_eq_true] at hOn
    refine ⟨_, rfl, ?_⟩
    simp (disch := decide +kernel) [*]
  · intro s current hOn
    rw [Hw.on_eq_true] at hOn
    refine ⟨_, rfl, ?_⟩
    simp (disch := decide +kernel) [*, Hw.said, Kind.KA_LIMIT]
  · intro s temp hTemp
    refine ⟨_, rfl, ?_⟩
    simp (disch := decide +kernel) [*]
  · intro s temp hTemp
    exact ⟨_, State.next_on_eq ((if_neg (by omega)).trans (if_pos hTemp)), rfl, rfl⟩
  · intro s hTwin hOn hStby
    rw [Hw.on_eq_true] at hTwin hOn hStby
    refine ⟨_, rfl, ?_⟩
    simp (disch := decide +kernel) [*]
  · intro s hStandby
    refine ⟨_, rfl, ?_⟩
    simp (disch := decide +kernel) [*]

end Sys2Proof.Machine
end

