-- ==== Sys2Proof/Proofs/CablePort.lean ====
section
/-! PROOFS. The cable port: attach, detach and what they leave (O29). -/

namespace Sys2Proof.Machine

set_option Elab.async false

/-- A field of a list that is cleared takes its reset value. -/
theorem Hw.rd_clear_mem {fs : List Field} {g : Field} (hone : ∀ f ∈ fs, f.key = g.key → f = g) (m : Hw)
    (h : g ∈ fs ∨ m.rd g = g.reset % 2 ^ g.width) : (m.clear fs).rd g = g.reset % 2 ^ g.width := by
  induction fs generalizing m with
  | nil => exact h.resolve_left List.not_mem_nil
  | cons f fs ih =>
    refine ih (fun x hx => hone x (List.mem_cons_of_mem _ hx)) (m.wr f f.reset) ?_
    by_cases hkey : f.key = g.key
    · obtain rfl := hone f List.mem_cons_self hkey
      exact .inr (Hw.rd_wr_same ..)
    · rcases h with hmem | hval
      · exact .inl ((List.mem_cons.1 hmem).resolve_left fun heq => hkey (heq ▸ rfl))
      · exact .inr ((Hw.rd_wr_ne (fun heq => hkey heq.symm) _).trans hval)

/-! The bits and events of the port. -/

theorem Hw.cblFlag_rd {m : Hw} {f g : Field} (h : g.key ≠ f.key) (halert : g.key ≠ Reg.ALERT_SRC_SRC.key) :
    (m.cblFlag f).rd g = m.rd g := by
  have hset : ∀ m : Hw, (m.alertSet 5).rd g = m.rd g := fun m => by
    unfold Hw.alertSet
    dsimp only
    split <;> exact Hw.rd_wrBit_other halert ..
  unfold Hw.cblFlag
  split
  · rfl
  · exact (hset _).trans (Hw.rd_wr_ne h _)

theorem Hw.cblFlag_flag (m : Hw) {f : Field} (h : 1 < 2 ^ f.width) (halert : f.key ≠ Reg.ALERT_SRC_SRC.key) :
    (m.cblFlag f).rd f = if m.on f then m.rd f else 1 := by
  have hset : ∀ m : Hw, (m.alertSet 5).rd f = m.rd f := fun m => by
    unfold Hw.alertSet
    dsimp only
    split <;> exact Hw.rd_wrBit_other halert ..
  unfold Hw.cblFlag
  split
  · rfl
  · exact (hset _).trans (Hw.rd_wr_lt h)

theorem Hw.cblFlag_cable (m : Hw) (f : Field) : (m.cblFlag f).cable = m.cable := by
  unfold Hw.cblFlag
  split
  · rfl
  · rw [Hw.alertSet_cable, Hw.wr_cable]

theorem Hw.cblFlag_hostBuf (m : Hw) (f : Field) : (m.cblFlag f).flt = m.flt := by
  unfold Hw.cblFlag
  split
  · rfl
  · rw [Hw.alertSet_flt, Hw.wr_flt]

theorem Hw.cableEvent_rd (m : Hw) (i before : Nat) (tr : Bool) (f : Field) :
    (m.cableEvent i before tr).rd f = m.rd f := by
  rw [Hw.cableEvent, Hw.recordH, Hw.sendH_only]
  rfl

theorem Hw.leaveShare_left (m : Hw) : m.leaveShare.rd Reg.CBL_STATUS_FS_MODE = 0 := by
  unfold Hw.leaveShare
  split
  next hon => exact (Hw.cableEvent_rd ..).trans (Hw.rd_wr_lt (f := Reg.CBL_STATUS_FS_MODE) (v := 0) (by decide))
  next hoff => simpa [Hw.on] using hoff

theorem Hw.clearContract_cleared (m : Hw) : m.clearContract.rd Reg.CBL_STATUS_EXPLICIT = 0 :=
  Hw.rd_clear_mem (fs := [Reg.CBL_CONTRACT_VOLT, Reg.CBL_CONTRACT_CURR, Reg.CBL_CONTRACT_TYPE, Reg.CBL_CONTRACT_ROLE,
    Reg.CBL_CONTRACT_POS, Reg.CBL_STATUS_EXPLICIT, Reg.CBL_STATUS_EPR, Reg.CBL_STATUS_MISMATCH,
    Reg.CBL_STATUS_FRS_ARMED]) (by decide +kernel) m (.inl (by decide +kernel))

theorem Hw.leaveShare_explicit (m : Hw) :
    m.leaveShare.rd Reg.CBL_STATUS_EXPLICIT = m.rd Reg.CBL_STATUS_EXPLICIT := by
  unfold Hw.leaveShare
  split
  · exact (Hw.cableEvent_rd ..).trans (Hw.rd_wr_ne (f := Reg.CBL_STATUS_FS_MODE) (by decide) 0)
  · rfl

theorem Hw.blankPort_rd {m : Hw} {f : Field} (h : f = Reg.CBL_STATUS_EXPLICIT ∨ f = Reg.CBL_STATUS_FS_MODE) :
    m.blankPort.rd f = m.clearContract.leaveShare.rd f := by
  unfold Hw.blankPort
  dsimp only [Hw.rd]
  generalize hm : m.clearContract.leaveShare.plainWindow = m1
  have hplain : m1.rd f = m.clearContract.leaveShare.rd f := by
    rw [← hm]
    rfl
  refine Eq.trans (Hw.rd_clear_ne (g := f) ?_ m1) hplain
  rcases h with rfl | rfl
  · decide +kernel
  · decide +kernel

/-- A port that is blanked has no explicit contract and is not in frame-share mode. -/
theorem Hw.blankPort_blank (m : Hw) : m.blankPort.rd Reg.CBL_STATUS_EXPLICIT = 0 ∧
    m.blankPort.rd Reg.CBL_STATUS_FS_MODE = 0 :=
  ⟨(Hw.blankPort_rd (.inl rfl)).trans ((Hw.leaveShare_explicit _).trans m.clearContract_cleared),
    (Hw.blankPort_rd (.inr rfl)).trans (Hw.leaveShare_left _)⟩

theorem Hw.portFlags_unattached {m : Hw} (hport : m.port = 0) (hrp : m.cable.rp = false) :
    m.portFlags.cable.rp = false := by
  unfold Hw.portFlags
  rw [if_pos hport]
  simp [hrp]

/-- A port that loses its partner is unattached, without contract, out of frame-share mode, and presents no Rp
(R211). -/
theorem Hw.detach_detached {m : Hw} (transition : Bool) (hport : m.port ≠ 0) :
    (m.detach transition).port = 0 ∧ (m.detach transition).rd Reg.CBL_STATUS_EXPLICIT = 0 ∧
      (m.detach transition).rd Reg.CBL_STATUS_FS_MODE = 0 ∧ (m.detach transition).cable.rp = false := by
  unfold Hw.detach
  dsimp only
  rw [if_neg hport]
  generalize (if m.port = cblSOURCE then _ else if m.sourcing = true then _ else _ : Hw) = opened
  obtain ⟨hexplicit, hshare⟩ := opened.blankPort_blank
  generalize opened.blankPort = blank at hexplicit hshare
  generalize hset : ({ blank.wr Reg.CBL_STATUS_STATE 0 with cable := _, seq := _ } : Hw) = m1
  have hport1 : m1.rd Reg.CBL_STATUS_STATE = 0 := by
    rw [← hset]
    exact Hw.rd_wr_lt (f := Reg.CBL_STATUS_STATE) (v := 0) (by decide)
  have hexplicit1 : m1.rd Reg.CBL_STATUS_EXPLICIT = 0 := by
    rw [← hset, ← hexplicit]; exact Hw.rd_wr_ne (by decide) _
  have hshare1 : m1.rd Reg.CBL_STATUS_FS_MODE = 0 := by
    rw [← hset, ← hshare]; exact Hw.rd_wr_ne (by decide) _
  have hrp1 : m1.cable.rp = false := by rw [← hset]
  clear hset
  generalize htold : (if m.port = cblSINK then m1.passCurrent 50 else m1.withdraw) = m2
  have hport2 : m2.rd Reg.CBL_STATUS_STATE = 0 := by rw [← htold]; split <;> simp (disch := decide +kernel) [*]
  have hexplicit2 : m2.rd Reg.CBL_STATUS_EXPLICIT = 0 := by rw [← htold]; split <;> simp (disch := decide +kernel) [*]
  have hshare2 : m2.rd Reg.CBL_STATUS_FS_MODE = 0 := by rw [← htold]; split <;> simp (disch := decide +kernel) [*]
  have hrp2 : m2.cable.rp = false := by
    rw [← htold]
    split
    · simp (disch := decide +kernel) [*]
    · unfold Hw.withdraw
      split
      · simp (disch := decide +kernel) [*]
      · exact hrp1
  clear htold
  generalize hev : (m2.cblFlag Reg.CBL_STATUS_ATTACH_CHG).cableEvent 1 m.port transition = m3
  have hread : ∀ f : Field, f.key ≠ Reg.CBL_STATUS_ATTACH_CHG.key → f.key ≠ Reg.ALERT_SRC_SRC.key →
      m3.rd f = m2.rd f := fun f hf ha => by
    rw [← hev, Hw.cableEvent_rd, Hw.cblFlag_rd hf ha]
  have hrp3 : m3.cable.rp = false := by
    rw [← hrp2, ← hev, Hw.cableEvent, Hw.recordH_cable, Hw.cblFlag_cable]
  have hport3 : m3.port = 0 := (hread _ (by decide) (by decide)).trans hport2
  refine ⟨?_, ?_, ?_, Hw.portFlags_unattached hport3 hrp3⟩
  · have hkeep : m3.portFlags.rd Reg.CBL_STATUS_STATE = m3.rd Reg.CBL_STATUS_STATE := by
      simp (disch := decide +kernel) [*]
    exact hkeep.trans hport3
  · have hkeep : m3.portFlags.rd Reg.CBL_STATUS_EXPLICIT = m3.rd Reg.CBL_STATUS_EXPLICIT := by
      simp (disch := decide +kernel) [*]
    exact hkeep.trans ((hread _ (by decide) (by decide)).trans hexplicit2)
  · have hkeep : m3.portFlags.rd Reg.CBL_STATUS_FS_MODE = m3.rd Reg.CBL_STATUS_FS_MODE := by
      simp (disch := decide +kernel) [*]
    exact hkeep.trans ((hread _ (by decide) (by decide)).trans hshare2)

/-- Settles O29, each clause from its command and the rules of the port's operations. -/
theorem cablePortAttaches : Obligations.CablePortAttaches := by
  unfold Obligations.CablePortAttaches
  refine ⟨?_, ?_, ?_, ?_, ?_, ?_, ?_, ?_, ?_, ?_, ?_, ?_⟩
  · intro s cc2 rp hPort hRp hQual
    refine ⟨_, State.next_on_eq (if_neg (by simp [hPort, hRp, hQual])), ?_⟩
    simp (disch := decide +kernel) [*, Hw.port, cblSINK, Hw.cableEvent_rd, Hw.cblFlag_rd]
    exact ⟨Nat.mod_eq_of_lt rp.isLt, rfl,
      (by decide : ∀ rp : Fin 4, rpCurrent rp % 2 ^ Reg.CBL_CONTRACT_CURR.width = rpCurrent rp) rp⟩
  · intro s cc2 ra hPort hPermitted
    refine ⟨_, State.next_on_eq (if_neg (by simp [hPort, hPermitted])), ?_⟩
    simp (disch := decide +kernel) [*, Hw.port, cblSOURCE, Hw.cableEvent_rd, Hw.cblFlag_rd, Hw.cblFlag_cable]
    rfl
  · intro s hPort
    exact ⟨_, rfl, s.hw.detach_detached false hPort⟩
  · intro s hPort
    exact State.next_on_self (if_pos hPort)
  · intro s hPort
    obtain ⟨hport, hexplicit, -⟩ := s.hw.detach_detached true hPort
    exact ⟨_, rfl, hport, hexplicit⟩
  · intro s hPort hCable
    refine ⟨_, State.next_on_eq ((if_neg (by simp [hPort])).trans (if_neg (by simp [hCable]))), ?_⟩
    rw [Hw.port, Hw.cableEvent_rd, Hw.cableEvent_rd, Hw.cblFlag_rd (by decide) (by decide),
      Hw.cblFlag_flag _ (by decide) (by decide)]
    simp (disch := decide +kernel) [*, Hw.on]
    rfl
  · intro s hPort hServ
    refine ⟨_, State.next_on_eq ((if_neg (by simp [hPort])).trans (if_neg (by simp [hServ]))), ?_⟩
    have hkeep : ∀ m : Hw, (m.hfault Kind.DEBUG_DENIED 0).rd Reg.CBL_STATUS_STATE = m.rd Reg.CBL_STATUS_STATE :=
      fun m => by simp (disch := decide +kernel) [*]
    refine ⟨?_, ?_⟩
    · rw [Hw.port, hkeep, Hw.cblFlag_rd (by decide) (by decide)]
      exact hPort
    · exact (Hw.hfault_hostBuf ..).trans (by rw [Hw.cblFlag_hostBuf]; rfl)
  · intro s hPort
    refine ⟨_, State.next_on_eq (if_pos hPort), rfl, rfl⟩
  · intro s ma hVconn
    refine ⟨_, State.next_on_eq (if_pos hVconn), ?_⟩
    simp (disch := decide +kernel) [*, Hw.unmarked, Hw.hsaid, Kind.VCONN_OCP]
  · intro s icap vmax usb2 hPdServes hVconn hCable
    refine ⟨_, State.next_on_eq ((if_pos hPdServes).trans (if_neg (by simp [hVconn, hCable]))), ?_⟩
    simp (disch := decide +kernel) [*]
    exact ⟨Nat.mod_eq_of_lt icap.isLt, Nat.mod_eq_of_lt vmax.isLt⟩
  · intro s pads hPort
    generalize hm : (s.hw.hfault Kind.CC_OVP pads).wr Reg.CBL_STATUS_VCONN 0 = m
    have hleave : m.leaveShare.port ≠ cblSOURCE := by
      have hkeep : m.leaveShare.rd Reg.CBL_STATUS_STATE = s.hw.rd Reg.CBL_STATUS_STATE := by
        subst hm
        simp (disch := decide +kernel) [*]
      rw [Hw.port, hkeep]
      exact hPort
    have hvconn : m.leaveShare.rd Reg.CBL_STATUS_VCONN = 0 := by subst hm; simp (disch := decide +kernel) [*]
    have hsaid : m.leaveShare.flt.hostBuf = (s.hw.hfault Kind.CC_OVP pads).flt.hostBuf := by
      subst hm
      simp (disch := decide +kernel) [*]
    refine ⟨{ s with hw := { m.leaveShare with cable := { m.leaveShare.cable with rp := false } } },
      State.next_on_eq ?_, hvconn, m.leaveShare_left, rfl, ?_⟩
    · subst hm
      exact if_neg hleave
    · exact hsaid.trans (Hw.hfault_hostBuf ..)
  · intro s hPort
    refine ⟨_, State.next_on_eq (if_pos hPort), ?_⟩
    simp (disch := decide +kernel) [*, Hw.port]

end Sys2Proof.Machine
end

