-- ==== Sys2Proof/Proofs/SourceRole.lean ====
section
/-! PROOFS. The source role: ErrorRecovery, Hard Resets, contracts and the fast role swap (O31). -/

namespace Sys2Proof.Machine

set_option Elab.async false

/-! What the operations of the source role leave of the port. -/

/-- The fields that the end of a contract clears. -/
def contractFields : List Field :=
  [Reg.CBL_CONTRACT_VOLT, Reg.CBL_CONTRACT_CURR, Reg.CBL_CONTRACT_TYPE, Reg.CBL_CONTRACT_ROLE, Reg.CBL_CONTRACT_POS,
    Reg.CBL_STATUS_EXPLICIT, Reg.CBL_STATUS_EPR, Reg.CBL_STATUS_MISMATCH, Reg.CBL_STATUS_FRS_ARMED]

theorem Hw.clearContract_rd {f : Field} (hf : f ∈ contractFields) (m : Hw) : m.clearContract.rd f = 0 := by
  have hzero : ∀ f ∈ contractFields, f.reset % 2 ^ f.width = 0 := by decide +kernel
  refine Eq.trans (Hw.rd_clear_mem (fs := contractFields) ?_ m (.inl hf)) (hzero f hf)
  have hone : ∀ f ∈ contractFields, ∀ x ∈ contractFields, x.key = f.key → x = f := by decide +kernel
  exact hone f hf

theorem Hw.clearContract_cable (m : Hw) :
    m.clearContract.cable = { m.cable with req := none, transit := false } := by
  unfold Hw.clearContract
  rw [Hw.clear_only]

theorem Hw.leaveShare_rd {f : Field} (hf : f.key ≠ Reg.CBL_STATUS_FS_MODE.key) (m : Hw) :
    m.leaveShare.rd f = m.rd f := by
  unfold Hw.leaveShare
  split
  · exact (Hw.cableEvent_rd ..).trans (Hw.rd_wr_ne (f := Reg.CBL_STATUS_FS_MODE) hf 0)
  · rfl

theorem Hw.plainWindow_rd (m : Hw) (f : Field) : m.plainWindow.rd f = m.rd f := rfl

theorem Hw.leaveShare_cable (m : Hw) : ∃ d, m.leaveShare.cable = { m.cable with fsDrive := d } := by
  unfold Hw.leaveShare
  split
  · exact ⟨false, Hw.cableEvent_cable ..⟩
  · exact ⟨m.cable.fsDrive, rfl⟩

theorem Hw.openSource_cable (m : Hw) :
    m.openSource.cable = { m.cable with srcSwitch := false, discharge := true } := by
  unfold Hw.openSource
  exact (Within.refl.settleSource (hs := Touch.covers_refl _)).kept .cable

theorem Hw.withdraw_cable (m : Hw) : ∃ a g, m.withdraw.cable = { m.cable with asked := a, granted := g } := by
  unfold Hw.withdraw
  split
  · exact ⟨false, false, Hw.sendH_cable ..⟩
  · exact ⟨m.cable.asked, m.cable.granted, rfl⟩

/-- What the blanking of the port leaves of the cable that later clauses speak of. -/
theorem Hw.blankPort_cable (m : Hw) : m.blankPort.cable.srcSwitch = m.cable.srcSwitch ∧
    m.blankPort.cable.ocps = m.cable.ocps ∧ m.blankPort.cable.frsSent = false := by
  obtain ⟨d, hshare⟩ := m.clearContract.leaveShare_cable
  have hcontract := m.clearContract_cable
  unfold Hw.blankPort
  dsimp only
  rw [Hw.clear_only]
  simp only [Hw.plainWindow, hshare, hcontract, and_self]

theorem Hw.blankPort_contract {f : Field} (hf : f ∈ [Reg.CBL_STATUS_EXPLICIT, Reg.CBL_CONTRACT_TYPE]) (m : Hw) :
    m.blankPort.rd f = 0 := by
  have hcontract : f ∈ contractFields := (by decide +kernel :
    ∀ f ∈ [Reg.CBL_STATUS_EXPLICIT, Reg.CBL_CONTRACT_TYPE], f ∈ contractFields) f hf
  have hshare : f.key ≠ Reg.CBL_STATUS_FS_MODE.key := (by decide +kernel :
    ∀ f ∈ [Reg.CBL_STATUS_EXPLICIT, Reg.CBL_CONTRACT_TYPE], f.key ≠ Reg.CBL_STATUS_FS_MODE.key) f hf
  unfold Hw.blankPort
  dsimp only [Hw.rd]
  generalize hm : m.clearContract.leaveShare.plainWindow = m1
  have hplain : m1.rd f = 0 := by
    rw [← hm, Hw.plainWindow_rd, Hw.leaveShare_rd hshare, Hw.clearContract_rd hcontract]
  refine Eq.trans (Hw.rd_clear_ne (g := f) ?_ m1) hplain
  simp only [List.mem_cons, List.not_mem_nil, or_false] at hf
  rcases hf with rfl | rfl
  · decide +kernel
  · decide +kernel

/-- What ErrorRecovery leaves (R224). -/
structure Recovered (ocps : List Nat) (m : Hw) : Prop where
  port : m.port = 5
  srcSwitch : m.cable.srcSwitch = false
  sinkOnly : m.cable.sinkOnly = true
  ocps : m.cable.ocps = ocps
  frsSent : m.cable.frsSent = false
  explicit : m.rd Reg.CBL_STATUS_EXPLICIT = 0
  type : m.rd Reg.CBL_CONTRACT_TYPE = 0

theorem Hw.errorRecovery_recovers (m : Hw) (cause : Nat) : Recovered m.cable.ocps (m.errorRecovery cause) := by
  obtain ⟨hswitch, hocps, hfrs⟩ := m.openSource.blankPort_cable
  have hexplicit := Hw.blankPort_contract (f := Reg.CBL_STATUS_EXPLICIT) (by decide +kernel) m.openSource
  have htype := Hw.blankPort_contract (f := Reg.CBL_CONTRACT_TYPE) (by decide +kernel) m.openSource
  have hopen := m.openSource_cable
  unfold Hw.errorRecovery
  dsimp only
  generalize m.openSource.blankPort = blank at hswitch hocps hfrs hexplicit htype
  rw [hopen] at hswitch hocps
  generalize hm : ({ blank.wr Reg.CBL_STATUS_STATE cblRECOVERY with
    cable := { (blank.wr Reg.CBL_STATUS_STATE cblRECOVERY).cable with sinkOnly := true, rp := false } } : Hw) = m1
  have hcable : m1.cable = { blank.cable with sinkOnly := true, rp := false } := by rw [← hm]; rfl
  have hport1 : m1.rd Reg.CBL_STATUS_STATE = 5 := by
    rw [← hm]
    exact Hw.rd_wr_lt (f := Reg.CBL_STATUS_STATE) (v := 5) (by decide)
  have hexplicit1 : m1.rd Reg.CBL_STATUS_EXPLICIT = 0 := by
    rw [← hexplicit, ← hm]
    exact Hw.rd_wr_ne (f := Reg.CBL_STATUS_STATE) (g := Reg.CBL_STATUS_EXPLICIT) (by decide) 5
  have htype1 : m1.rd Reg.CBL_CONTRACT_TYPE = 0 := by
    rw [← htype, ← hm]
    exact Hw.rd_wr_ne (f := Reg.CBL_STATUS_STATE) (g := Reg.CBL_CONTRACT_TYPE) (by decide) 5
  clear hm
  generalize htold :
    ((m1.bump Reg.CBL_EVENTS_ERR_RECOV).hfault Kind.ERROR_RECOVERY cause).cableEvent 6 m.port false = m2
  have hcable2 : m2.cable = m1.cable := by
    rw [← htold, Hw.cableEvent_cable, Hw.hfault_cable, Hw.bump_cable]
  have hport2 : m2.rd Reg.CBL_STATUS_STATE = 5 := by
    subst htold
    simp (disch := decide +kernel) [*, Hw.cableEvent_rd]
  have hexplicit2 : m2.rd Reg.CBL_STATUS_EXPLICIT = 0 := by
    subst htold
    simp (disch := decide +kernel) [*, Hw.cableEvent_rd]
  have htype2 : m2.rd Reg.CBL_CONTRACT_TYPE = 0 := by
    subst htold
    simp (disch := decide +kernel) [*, Hw.cableEvent_rd]
  clear htold
  obtain ⟨a, g, hwith⟩ := m2.withdraw_cable
  have hw : ∀ f, m2.withdraw.rd f = m2.rd f := fun f => by
    unfold Hw.withdraw
    split
    · rw [Hw.tellField, Hw.sendH_only]
      rfl
    · rfl
  constructor
  · exact (hw _).trans hport2
  · exact (congrArg Cable.srcSwitch hwith).trans (by rw [hcable2, hcable, hswitch])
  · exact (congrArg Cable.sinkOnly hwith).trans (by rw [hcable2, hcable])
  · exact (congrArg Cable.ocps hwith).trans (by rw [hcable2, hcable, hocps])
  · exact (congrArg Cable.frsSent hwith).trans (by rw [hcable2, hcable, hfrs])
  · exact (hw _).trans hexplicit2
  · exact (hw _).trans htype2


theorem Hw.endRole_recovers {m : Hw} (cause : Nat) (hport : m.port = 2) (htx : m.on Reg.CBL_CFG_FRS_TX_EN = false) :
    m.endRole cause = m.errorRecovery cause := by
  unfold Hw.endRole
  rw [if_neg (by simp [Hw.sourcing, hport, cblSOURCE]), if_neg (by simp [htx])]

/-- What a Hard Reset leaves of a port that is the source (R232, R234). -/
structure ResetAsSource (ocps : List Nat) (m : Hw) : Prop where
  srcSwitch : m.cable.srcSwitch = false
  ocps : m.cable.ocps = ocps
  explicit : m.rd Reg.CBL_STATUS_EXPLICIT = 0
  type : m.rd Reg.CBL_CONTRACT_TYPE = 0

theorem Recovered.reset {ocps : List Nat} {m : Hw} (h : Recovered ocps m) : ResetAsSource ocps m :=
  ⟨h.srcSwitch, h.ocps, h.explicit, h.type⟩

theorem ResetAsSource.openSource {m : Hw} (hexplicit : m.rd Reg.CBL_STATUS_EXPLICIT = 0)
    (htype : m.rd Reg.CBL_CONTRACT_TYPE = 0) : ResetAsSource m.cable.ocps m.openSource := by
  have hopen := m.openSource_cable
  refine ⟨by rw [hopen], by rw [hopen], ?_, ?_⟩
  · simp (disch := decide +kernel) [*]
  · simp (disch := decide +kernel) [*]

theorem Hw.withdraw_rd (m : Hw) (f : Field) : m.withdraw.rd f = m.rd f := by
  unfold Hw.withdraw
  split
  · rw [Hw.tellField, Hw.sendH_only]
    rfl
  · rfl

theorem ResetAsSource.withdraw {ocps : List Nat} {m : Hw} (h : ResetAsSource ocps m) :
    ResetAsSource ocps m.withdraw := by
  obtain ⟨a, g, hwith⟩ := m.withdraw_cable
  exact ⟨by rw [hwith, h.srcSwitch], by rw [hwith, h.ocps], (m.withdraw_rd _).trans h.explicit,
    (m.withdraw_rd _).trans h.type⟩

theorem ResetAsSource.passCurrent {ocps : List Nat} {m : Hw} (h : ResetAsSource ocps m) (curr : Nat) :
    ResetAsSource ocps (m.passCurrent curr) := by
  have hcable : (m.passCurrent curr).cable = m.cable :=
    (Within.refl.passCurrent (hs := Touch.covers_refl _)).kept .cable
  refine ⟨by rw [hcable, h.srcSwitch], by rw [hcable, h.ocps], ?_, ?_⟩
  · refine Eq.trans ?_ h.explicit
    simp (disch := decide +kernel) [*]
  · refine Eq.trans ?_ h.type
    simp (disch := decide +kernel) [*]

theorem ResetAsSource.wr {ocps : List Nat} {m : Hw} (h : ResetAsSource ocps m) {f : Field} (v : Nat)
    (hf : f.key ≠ Reg.CBL_STATUS_EXPLICIT.key ∧ f.key ≠ Reg.CBL_CONTRACT_TYPE.key) : ResetAsSource ocps (m.wr f v) :=
  ⟨h.srcSwitch, h.ocps, (Hw.rd_wr_ne hf.1.symm v).trans h.explicit, (Hw.rd_wr_ne hf.2.symm v).trans h.type⟩

theorem ResetAsSource.plainWindow {ocps : List Nat} {m : Hw} (h : ResetAsSource ocps m) :
    ResetAsSource ocps m.plainWindow := ⟨h.srcSwitch, h.ocps, h.explicit, h.type⟩

/-- A Hard Reset as it begins (R231): counted, shown, recorded, and the contract gone. -/
def Hw.resetBegun (m : Hw) (received : Bool) : Hw :=
  let before := m.port
  let swap := m.cable.swap
  let m := ((m.bump Reg.CBL_EVENTS_HARD_RESETS).cblFlag Reg.CBL_STATUS_HARD_RESET).hfault Kind.PD_HARD_RESET
    (b2n received + 2 * b2n (swap != 0) + 4 * min swap 15)
  let m := ((m.cableEvent 5 before false).leaveShare).clearContract
  { m with cable := { m.cable with swap := 0, frsSent := false, frsRx := false, hardResets := m.cable.hardResets + 1
                                   eprMiss := 0, swapReset := swap != 0 }
           seq := { m.seq with refuseSource := false } }

/-- A port that becomes the source anew after a Hard Reset (R232). -/
def Hw.sourceAnew (m : Hw) : Hw :=
  let m := ((m.openSource).wr Reg.CBL_STATUS_VCONN 0).wr Reg.CBL_STATUS_STATE cblSOURCE
  { m with cable := { m.cable with rp := true, asked := false } }

theorem Hw.hardReset_eq (m : Hw) (received : Bool) : m.hardReset received =
    if m.cable.swap ≠ 0 ∧ (m.resetBegun received).cable.attachRole = 1 then
      (((({ m.resetBegun received with
        cable := { (m.resetBegun received).cable with rp := false } } : Hw).openSource).withdraw.wr
          Reg.CBL_STATUS_STATE cblSINK).plainWindow).passCurrent
        (rpCurrent ((m.resetBegun received).rd Reg.CBL_STATUS_RP))
    else if m.port = cblSOURCE ∨ (m.cable.swap ≠ 0 ∧ (m.resetBegun received).cable.attachRole = 2) then
      if (m.resetBegun received).sourceAnew.permitted then (m.resetBegun received).sourceAnew
      else (m.resetBegun received).sourceAnew.errorRecovery 0x71
    else ((m.resetBegun received).plainWindow).passCurrent
      (rpCurrent ((m.resetBegun received).rd Reg.CBL_STATUS_RP)) := by
  unfold Hw.hardReset Hw.sourceAnew Hw.resetBegun
  dsimp only

theorem Hw.resetBegun_cleared (m : Hw) (received : Bool) : (m.resetBegun received).cable.ocps = m.cable.ocps ∧
    (m.resetBegun received).rd Reg.CBL_STATUS_EXPLICIT = 0 ∧ (m.resetBegun received).rd Reg.CBL_CONTRACT_TYPE = 0 := by
  unfold Hw.resetBegun
  dsimp only
  generalize hbegin : Hw.cableEvent _ 5 m.port false = m1
  have hocps1 : m1.cable.ocps = m.cable.ocps := by
    rw [← hbegin, Hw.cableEvent_cable, Hw.hfault_cable, Hw.cblFlag_cable, Hw.bump_cable]
  obtain ⟨d, hshare⟩ := m1.leaveShare_cable
  refine ⟨?_, Hw.clearContract_rd (f := Reg.CBL_STATUS_EXPLICIT) (by decide +kernel) m1.leaveShare,
    Hw.clearContract_rd (f := Reg.CBL_CONTRACT_TYPE) (by decide +kernel) m1.leaveShare⟩
  rw [Hw.clearContract_cable, hshare, hocps1]

theorem ResetAsSource.sourceAnew {m : Hw} (hexplicit : m.rd Reg.CBL_STATUS_EXPLICIT = 0)
    (htype : m.rd Reg.CBL_CONTRACT_TYPE = 0) : ResetAsSource m.cable.ocps m.sourceAnew := by
  have h := ((ResetAsSource.openSource hexplicit htype).wr (f := Reg.CBL_STATUS_VCONN) 0 (by decide)).wr
    (f := Reg.CBL_STATUS_STATE) cblSOURCE (by decide)
  exact ⟨h.srcSwitch, h.ocps, h.explicit, h.type⟩

theorem Hw.hardReset_source {m : Hw} (received : Bool) (hport : m.port = 2) :
    ResetAsSource m.cable.ocps (m.hardReset received) := by
  obtain ⟨hocps, hexplicit, htype⟩ := m.resetBegun_cleared received
  rw [Hw.hardReset_eq, ← hocps]
  generalize m.resetBegun received = m1 at hexplicit htype
  have hanew := ResetAsSource.sourceAnew hexplicit htype
  split_ifs
  · have hopen := ResetAsSource.openSource (m := { m1 with cable := { m1.cable with rp := false } }) hexplicit htype
    exact (hopen.withdraw.wr (f := Reg.CBL_STATUS_STATE) cblSINK (by decide)).plainWindow.passCurrent _
  · exact hanew
  · exact hanew.ocps ▸ (Hw.errorRecovery_recovers m1.sourceAnew 0x71).reset
  · next hno => exact absurd (.inl hport) hno


/-! Messages and contracts. -/

theorem insertMsg_length (x : Msg) (l : List Msg) : (insertMsg x l).length = l.length + 1 := by
  induction l with
  | nil => rfl
  | cons y ys ih =>
    unfold insertMsg
    split
    · rfl
    · rw [List.length_cons, ih, List.length_cons]

theorem LinkEnd.takeIn_one_length (e : LinkEnd) :
    (e.takeIn 1).waiting.length + (e.takeIn 1).queue.length = e.waiting.length + e.queue.length := by
  unfold LinkEnd.takeIn LinkEnd.takeIn LinkEnd.push
  split
  · split
    · rfl
    · next hw => simp [hw]; omega
  · rfl

/-- A message that asks the field side is added to those that wait for the link or stand in its queue. -/
theorem Hw.tellField_length (m : Hw) (req mv : Nat) :
    (m.tellField req mv).host.h.waiting.length + (m.tellField req mv).host.h.queue.length =
      m.host.h.waiting.length + m.host.h.queue.length + 1 := by
  unfold Hw.tellField Hw.sendH
  rw [if_neg (by decide)]
  refine (LinkEnd.takeIn_one_length _).trans ?_
  dsimp only
  rw [insertMsg_length]
  omega

theorem Hw.tellField_only (m : Hw) (req mv : Nat) : m.tellField req mv = { m with host := (m.tellField req mv).host } :=
  Hw.sendH_only ..

theorem Hw.setContract_set (m : Hw) (x : Terms) (role : Nat) : (m.setContract x role).rd Reg.CBL_STATUS_EXPLICIT = 1 ∧
    (m.setContract x role).rd Reg.CBL_CONTRACT_ROLE = role % 4 ∧
    (m.setContract x role).cable = { m.cable with fsTries := 0 } := by
  unfold Hw.setContract
  dsimp only
  rw [Hw.tellField_only]
  refine ⟨?_, ?_, ?_⟩
  · simp (disch := decide +kernel) [*, Hw.cblFlag_rd]
  · simp (disch := decide +kernel) [*, Hw.cblFlag_rd]
    rfl
  · simp (disch := decide +kernel) [*, Hw.cblFlag_cable]

theorem Hw.openSource_hostBuf (m : Hw) : m.openSource.flt.hostBuf = m.flt.hostBuf :=
  (Hw.settleSource_orderKept _).hostBuf

theorem Hw.sourcing_source {m : Hw} (hport : m.port = 2) : m.sourcing = true := by simp [Hw.sourcing, hport, cblSOURCE]

/-- A port that hears the fast role swap while it is armed (R229). -/
def Hw.swapHeard (m : Hw) : Hw :=
  { (m.haltCode .fastRoleSwap).wr Reg.CBL_STATUS_FRS_ARMED 0 with cable := { m.cable with frsRx := true } }

/-- What the source switch does once the fast role swap is heard (R229). -/
theorem Hw.frsClose_closes (m : Hw) (vbus : Nat) (hrx : m.cable.frsRx = true) :
    (m.frsClose vbus).cable.frsRx = true ∧
      (vbus < 4700 → m.rd Reg.INTAKE_STATUS_ACTIVE ≠ 1 ∨ m.intake.blocked = true →
        (m.frsClose vbus).cable.srcSwitch = true) ∧
      (4700 ≤ vbus ∨ m.rd Reg.INTAKE_STATUS_ACTIVE = 1 ∧ m.intake.blocked = false →
        (m.frsClose vbus).cable.srcSwitch = m.cable.srcSwitch) := by
  have hopen : ∀ (c : Prop) [Decidable c], (if c then m.openActive else m).cable = m.cable := fun c _ => by
    split
    · simp (disch := decide +kernel) [*]
    · rfl
  unfold Hw.frsClose
  split
  next hall =>
    obtain ⟨-, hoff, hlow, hactive⟩ := hall
    dsimp only
    rw [hopen]
    refine ⟨hrx, fun _ _ => rfl, fun h => ?_⟩
    rcases h with hhigh | ⟨hone, hblocked⟩
    · omega
    · simp [hone, hblocked] at hactive
  next hnot =>
    refine ⟨hrx, fun hlow hactive => ?_, fun _ => rfl⟩
    by_contra hsw
    exact hnot ⟨hrx, by simpa using hsw, hlow, hactive⟩

/-- The source switch closes (R221), after what the switch's own state has become. -/
theorem Hw.closing_closed {m : Hw} {swap ra : Bool} (hport : m.port ≠ 4) (hswitch : m.cable.srcSwitch = true)
    (hdischarge : m.cable.discharge = false) (hswap : m.cable.swap = 0) (hra : ra = true → m.cable.ra = true) :
    ∀ m1 m2 : Hw, (if m.cable.ra ∧ m.port ≠ 4 then m.wr Reg.CBL_STATUS_VCONN 1 else m) = m1 →
      (if swap then ((m1.clearContract).wr Reg.CBL_STATUS_STATE cblSOURCE).cableEvent 3 cblSINK false else m1) = m2 →
      m2.cable.srcSwitch = true ∧ m2.cable.discharge = false ∧ m2.cable.swap = 0 ∧
        (ra = true → m2.rd Reg.CBL_STATUS_VCONN = 1) := by
  intro m1 m2 h1 h2
  have hcable1 : m1.cable = m.cable := by rw [← h1]; split <;> rfl
  have hvconn1 : ra = true → m1.rd Reg.CBL_STATUS_VCONN = 1 := fun hr => by
    rw [← h1, if_pos ⟨hra hr, hport⟩]
    exact Hw.rd_wr_lt (f := Reg.CBL_STATUS_VCONN) (by decide)
  rw [← h2]
  split
  · have hkeep : m1.clearContract.rd Reg.CBL_STATUS_VCONN = m1.rd Reg.CBL_STATUS_VCONN :=
      Hw.rd_clear_ne (fs := contractFields) (by decide +kernel) m1
    rw [Hw.cableEvent_cable, Hw.wr_cable, Hw.clearContract_cable, hcable1, Hw.cableEvent_rd, Hw.rd_wr_other (by decide),
      hkeep]
    exact ⟨hswitch, hdischarge, hswap, hvconn1⟩
  · rw [hcable1]
    exact ⟨hswitch, hdischarge, hswap, hvconn1⟩

/-- The first limit of the source switch in 60 s brings a Hard Reset (R223). -/
theorem execSrcOcp_resets {s : State} (ma : Nat) (hport : s.hw.port = 2) (hocps : s.hw.cable.ocps = [])
    (hlimit : s.hw.rd Reg.CBL_STATUS_EXPLICIT = 0 ∨ s.hw.srcLimit ≤ ma) :
    ∃ t, exec (.srcOcp ma) s = .next t ∧ t.hw.cable.srcSwitch = false ∧ t.hw.rd Reg.CBL_STATUS_EXPLICIT = 0 ∧
      t.hw.cable.ocps = [s.hw.now] := by
  have hguard : ¬ (s.hw.port ≠ cblSOURCE ∨ (s.hw.on Reg.CBL_STATUS_EXPLICIT ∧ s.hw.rd Reg.CBL_CONTRACT_TYPE ≠ 2 ∧
      ma < s.hw.srcLimit)) := by
    rintro (h | ⟨hon, -, hlt⟩)
    · exact h hport
    · rcases hlimit with hzero | hge
      · simp [Hw.on, hzero] at hon
      · omega
  generalize hm : (s.hw.bump Reg.CBL_EVENTS_SRC_OCP).hfault Kind.SRC_OCP (ma / 10) = m
  have hcable : m.cable = s.hw.cable := by rw [← hm, Hw.hfault_cable, Hw.bump_cable]
  have hnow : m.now = s.hw.now := by
    subst hm
    simp (disch := decide +kernel) [*, Hw.now]
  have hport' : m.port = 2 := by
    refine Eq.trans ?_ hport
    subst hm
    simp (disch := decide +kernel) [*, Hw.port]
  have hrecent : (m.cable.ocps ++ [m.now]).filter (fun x => m.now - x ≤ 12000000000) = [s.hw.now] := by
    rw [hcable, hocps, hnow]
    simp
  generalize htripped : ({ m with cable := { m.cable with ocps := [s.hw.now], srcSwitch := false } } : Hw) = tripped
  have hocps' : tripped.cable.ocps = [s.hw.now] := by rw [← htripped]
  have h := Hw.hardReset_source (m := tripped) false (htripped ▸ hport')
  refine ⟨_, State.next_on_eq (m := tripped.hardReset false) ?_, h.srcSwitch, h.explicit, h.ocps.trans hocps'⟩
  dsimp only
  have hlast : lastN 3 [s.hw.now] = [s.hw.now] := rfl
  rw [if_neg hguard, hm, hrecent, if_neg (by simp), hlast, ← htripped]

/-- Settles O31, each clause from its command and the rules of the port's operations. -/
theorem sourceRoleAndFrameShare : Obligations.SourceRoleAndFrameShare := by
  unfold Obligations.SourceRoleAndFrameShare
  refine ⟨?_, ?_, ?_, ?_, ?_, ?_, ?_, ?_, ?_, ?_, ?_, ?_, ?_, ?_, ?_, ?_, ?_, ?_, ?_⟩
  · intro s hPort hAsked hPermitted
    refine ⟨_, State.next_on_eq (if_pos ⟨Hw.sourcing_source hPort, by simp [hAsked], hPermitted⟩), ?_⟩
    rw [Hw.tellField_only]
    exact ⟨rfl, rfl⟩
  · intro s vcbuf ra hPort hVcbuf hActive hAsked hGranted
    refine ⟨_, State.next_on_eq (if_pos ⟨Hw.sourcing_source hPort, hAsked, hGranted, hVcbuf, rfl, hActive⟩), ?_⟩
    refine Hw.closing_closed (m := { s.hw with cable := { s.hw.cable with
      srcSwitch := true, discharge := false, swap := 0, capsDue := s.hw.port != 4, discTries := 0
      ra := s.hw.cable.ra || ra, attachRole := if decide (s.hw.cable.swap = 5) then 2 else s.hw.cable.attachRole } })
      ?_ rfl rfl rfl ?_ _ _ rfl rfl
    · exact fun h => absurd (hPort.symm.trans h) (by decide)
    · intro h
      simp [h]
  · intro s vbus hPort hVbus
    have h := Hw.errorRecovery_recovers (s.hw.hfault Kind.SRC_VBUS_FAULT (vbus / 100)) 0x75
    exact ⟨_, State.next_on_eq (if_pos ⟨Hw.sourcing_source hPort, hVbus⟩), h.port, h.srcSwitch, h.sinkOnly⟩
  · intro s pos pd3 curr hPdServes hPort hSwitch hPos hCurr
    have hpps : ∀ a b : Bool, (a && b && decide (5 ≤ pos.val) && pd3) = false := fun a b => by
      rw [decide_eq_false (by omega)]
      simp
    refine ⟨_, State.next_on_eq ((if_pos hPdServes).trans (if_pos ⟨hPort, hSwitch, ?_⟩)), rfl, ?_, ?_⟩
    · rw [hpps]
      rfl
    · cases pd3
      · exact Hw.rd_wr_lt (f := Reg.CBL_PARTNER_REV) (v := 1) (by decide)
      · exact Hw.rd_wr_lt (f := Reg.CBL_PARTNER_REV) (v := 2) (by decide)
    · rw [hpps]
      simpa [Hw.fitsBudget] using hCurr
  · intro s pos pd3 mv curr hNo hMv
    have hpps : ∀ a b : Bool, (a && b && decide (5 ≤ pos.val) && pd3) = false := fun a b => by
      rcases hNo with rfl | hlow
      · simp
      · rw [decide_eq_false (by omega)]
        simp
    have hfits : s.hw.fitsBudget mv curr = false := by simp [Hw.fitsBudget, hMv]
    refine State.next_on_self ?_
    rw [Hw.pdIn]
    split
    · exact if_neg fun h => by
        rw [hpps] at h
        simp [hfits] at h
    · rfl
  · intro s x hReq hPort hTransit
    refine ⟨_, State.next_on_eq (m := s.hw.tellField 3 (sourceTarget x)) (by simp [hReq, hPort, hTransit, cblSOURCE]),
      ?_, ?_, Hw.tellField_length ..⟩
    · dsimp only
      rw [Hw.tellField_only]
    · dsimp only
      rw [Hw.tellField_only]
  · intro s vbus x hReq hPort hTransit hLow hHigh
    obtain ⟨hexplicit, hrole, hcable⟩ := Hw.setContract_set { s.hw with
      cable := { s.hw.cable with req := none, transit := false }, seq := { s.hw.seq with refuseSource := false } } x 2
    refine ⟨_, State.next_on_eq (m := Hw.setContract { s.hw with
      cable := { s.hw.cable with req := none, transit := false }, seq := { s.hw.seq with refuseSource := false } } x 2)
        (by simp [hReq, hPort, hTransit, cblSOURCE, hLow, hHigh]), hexplicit, hrole, ?_, ?_⟩
    · rw [hcable]
    · simp (disch := decide +kernel) [*]
  · intro s ma hPort hOcps hOr
    exact execSrcOcp_resets ma hPort hOcps hOr
  · intro s hPort hType
    have h := Hw.hardReset_source (m := s.hw) false hPort
    exact ⟨_, State.next_on_eq (if_pos ⟨hPort, hType⟩), h.srcSwitch, h.type⟩
  · intro s vbus slow hPort hTx
    have hslow : ∀ m : Hw, m.port = 2 → m.on Reg.CBL_CFG_FRS_TX_EN = false → ∀ cause,
        (m.endRole cause).port = 5 ∧ (m.endRole cause).cable.srcSwitch = false := fun m hp ht cause => by
      have h := Hw.errorRecovery_recovers m cause
      rw [Hw.endRole_recovers cause hp ht]
      exact ⟨h.port, h.srcSwitch⟩
    refine ⟨_, State.next_on_eq ((if_neg ?_).trans (if_neg ?_)), hslow _ ?_ ?_ _⟩
    · simp [hPort, cblRECOVERY]
    · simp [Hw.sourcing_source hPort]
    · split
      · refine Eq.trans ?_ hPort
        simp (disch := decide +kernel) [*, Hw.port]
      · exact hPort
    · split
      · refine Eq.trans ?_ hTx
        simp (disch := decide +kernel) [*, Hw.on]
      · exact hTx
  · intro s hPort hTx
    have h := Hw.errorRecovery_recovers s.hw 0
    exact ⟨_, State.next_on_eq (Hw.endRole_recovers 0 hPort hTx), h.port, h.srcSwitch⟩
  · intro s hPort hQual hEnds hTx
    have h := Hw.errorRecovery_recovers s.hw 0
    refine ⟨_, State.next_on_eq ((if_pos ⟨hPort, hQual, hEnds⟩).trans
      (congrArg Hw.portFlags (Hw.endRole_recovers 0 hPort hTx))), Eq.trans ?_ h.port⟩
    simp (disch := decide +kernel) [*, Hw.port]
  · intro s hArmed
    obtain ⟨hrx, hclose, hstay⟩ := s.hw.swapHeard.frsClose_closes (s.hw.rd Reg.INTAKE_MON_V_VBUS * 10) rfl
    have hactive : s.hw.swapHeard.rd Reg.INTAKE_STATUS_ACTIVE = s.hw.rd Reg.INTAKE_STATUS_ACTIVE :=
      Hw.rd_wr_ne (f := Reg.CBL_STATUS_FRS_ARMED) (by decide) 0
    have hdisarmed : s.hw.swapHeard.rd Reg.CBL_STATUS_FRS_ARMED = 0 :=
      Hw.rd_wr_lt (f := Reg.CBL_STATUS_FRS_ARMED) (v := 0) (by decide)
    rw [hactive] at hclose hstay
    refine ⟨_, State.next_on_eq (m := s.hw.swapHeard.frsClose (s.hw.rd Reg.INTAKE_MON_V_VBUS * 10))
      ((if_pos hArmed).trans ?_), hrx, ?_, fun hlow hout => hclose (by omega) hout, fun h => hstay ?_⟩
    · exact congrArg (fun v => s.hw.swapHeard.frsClose (v * 10))
        (Hw.rd_wr_ne (f := Reg.CBL_STATUS_FRS_ARMED) (g := Reg.INTAKE_MON_V_VBUS) (by decide) 0)
    · refine Eq.trans ?_ hdisarmed
      simp (disch := decide +kernel) [*]
    · rcases h with hhigh | hin
      · exact .inl (by omega)
      · exact .inr hin
  · intro s hPdServes hSent
    refine ⟨_, State.next_on_eq ((if_pos hPdServes).trans (if_pos hSent)), ?_⟩
    dsimp only
    obtain ⟨a, g, hwith⟩ := Hw.withdraw_cable ({ s.hw.clearContract.wr Reg.CBL_STATUS_STATE cblSINK with
      cable := { s.hw.clearContract.cable with frsSent := false, rp := false, attachRole := 1 } } : Hw)
    rw [Hw.port, Hw.cableEvent_rd, Hw.plainWindow_rd, Hw.withdraw_rd, Hw.cableEvent_cable]
    refine ⟨Hw.rd_wr_lt (f := Reg.CBL_STATUS_STATE) (v := 1) (by decide), ?_, ?_⟩
    · exact congrArg Cable.frsSent hwith
    · exact congrArg Cable.rp hwith
  · intro s hSent
    have h := Hw.errorRecovery_recovers (s.hw.hfault Kind.FRS_FAIL 1) 0x7A
    exact ⟨_, State.next_on_eq (if_pos hSent), h.port, h.frsSent⟩
  · intro s hPdServes hEn hExplicit hSbu hMode hTries hDfp hTick
    refine ⟨_, State.next_on_eq ((if_pos hPdServes).trans ((if_neg ?_).trans (if_neg ?_))), ?_, ?_⟩
    · simp [hEn, hExplicit, hSbu, hMode]
    · simp [hTick, hDfp]
      omega
    · exact (Hw.cableEvent_rd ..).trans (Hw.rd_wr_lt (f := Reg.CBL_STATUS_FS_MODE) (v := 1) (by decide))
    · refine (congrArg Cable.fsDrive (Hw.cableEvent_cable ..)).trans ?_
      simp [hTick, hDfp]
  · intro s
    exact ⟨_, rfl, rfl, rfl⟩
  · intro s
    exact ⟨_, rfl, s.hw.leaveShare_left, Hw.leaveShare_rd (by decide) _⟩
  · intro s vbus hPort hLow
    refine ⟨_, State.next_on_eq (if_pos ⟨hPort, hLow⟩), ?_, ?_⟩
    · dsimp only
      rw [Hw.hfault_cable, Hw.openSource_cable]
    · exact (Hw.hfault_hostBuf ..).trans (by rw [Hw.openSource_hostBuf]; rfl)

end Sys2Proof.Machine
end

