-- ==== Sys2Proof/Proofs/Answers.lean ====
section
/-! PROOFS. The scopes of answered commands, with the head result on the host side. -/

namespace Sys2Proof.Machine

set_option Elab.async false

section
variable {sc : List Touch} {m0 m : Hw}

/-- What changes with the answer of a command: as `Touch.answering`, with the window of the head result, which has 64
bytes on the host side, taken in by that side, so that no field of the field side but N_s is among it. -/
def answerScope : List Touch :=
  parts [.linkField, .mailbox, .work, .results, .stream7, .alertPad, .adc, .tickets, .orders, .waits, .bus, .sub] ++
    regs [Reg.TKT_STATUS_FULL, Reg.TKT_STATUS_HELD, Reg.TKT_STATUS_HELD_STREAM, Reg.TKT_STATUS_HWM,
      Reg.TKT_STATUS_INFLIGHT] ++ arrays [Reg.HOST_SEQ_N] ++ [.hostSide]

theorem Reg.MBX_RES_RESULT_host : ∀ i < 64, (Touch.reg (Reg.MBX_RES_RESULT i)).within answerScope = true := by
  decide +kernel

/-- The head result stands in the window on the host side (R416). -/
theorem Within.showResult_host (h : Within answerScope m0 m) : Within answerScope m0 m.showResult := by
  unfold Hw.showResult
  exact h.foldl_mem fun _ i hi hm => hm.wr (Reg.MBX_RES_RESULT_host i (List.mem_range.1 hi))

theorem Within.postResult_host {stream seq : Nat} {bytes : List Byte} (h : Within answerScope m0 m) :
    Within answerScope m0 (m.postResult stream seq bytes) := by
  unfold Hw.postResult
  exact .ite (.alertSet (.showResult_host (.showMailbox (.ite h.host_mbx.bump h.host_mbx)))) h

theorem Within.sendAnswer_host {c : HostCmd} (h : Within answerScope m0 m) :
    Within answerScope m0 (m.sendAnswer c) := by
  unfold Hw.sendAnswer
  exact .ite (.postResult_host (.ite h h.advanceN)) (.sendF (.ite h h.advanceN))

theorem Within.answerCmd_host {c : HostCmd} {a : Answer} (h : Within sc m0 m)
    (hs : Touch.covers sc answerScope := by decide +kernel) : Within sc m0 (m.answerCmd c a) := by
  refine h.andThen hs ?_
  have hset : Within answerScope m (m.setWork { c with
      stage := 3, status := a.status, data := a.data
      rflags := c.rflags ||| a.rflags ||| (if c.durable then 2 else 0) }) := Within.refl.setWork
  unfold Hw.answerCmd
  extract_lets c' m1 host m2 st m3
  have h2 : Within answerScope m m2 := .ite (Within.host_cache hset) hset
  have h3 : Within answerScope m m3 := .ite h2 h2.setTicket
  unfold Hw.flushAnswers
  exact (h3.host_work.foldl fun _ _ hm => hm.sendAnswer_host).settleWork

theorem Within.innerDone_host {n : Nat} {a : Answer} (h : Within sc m0 m)
    (hs : Touch.covers sc answerScope := by decide +kernel) : Within sc m0 (m.innerDone n a) := by
  refine h.andThen hs ?_
  unfold Hw.innerDone
  split
  · exact Within.refl.answerCmd_host
  · exact Within.refl

theorem Within.voidWork_host (h : Within sc m0 m) (hs : Touch.covers sc answerScope := by decide +kernel) :
    Within sc m0 m.voidWork :=
  h.andThen hs (Within.refl.foldl fun _ _ hm => hm.answerCmd_host)

theorem Within.retireConvs_host (h : Within sc m0 m)
    (hs : Touch.covers sc (answerScope ++ Touch.delivering) := by decide +kernel) : Within sc m0 m.retireConvs := by
  refine h.andThen hs ?_
  unfold Hw.retireConvs
  refine Within.refl.part_adc.foldl fun m c hm => ?_
  unfold Hw.retireConv
  refine .ite hm.dropTicket.innerDone_host ?_
  split
  · exact hm
  · exact hm.enqueue.dropTicket.innerDone_host

theorem Within.settleBus_host (h : Within sc m0 m)
    (hs : Touch.covers sc (answerScope ++ parts [.chg]) := by decide +kernel) : Within sc m0 m.settleBus := by
  refine h.andThen hs ?_
  unfold Hw.settleBus
  refine Within.refl.foldl fun m x hm => ?_
  unfold Hw.endBus
  exact .ite hm.part_bus.dropTicket.innerDone_host.packReadDone hm.part_bus.dropTicket.innerDone_host

/-- What changes with the end of an engine's work, with the head result on the host side. -/
def voidScope : List Touch :=
  answerScope ++ Touch.delivering ++ parts [.chg, .faultInput] ++ regs [Reg.TKT_EVENTS_VOIDED, Reg.FLT_STATUS_LOST]

theorem Within.voidOwned_host {e : Engine} (h : Within sc m0 m)
    (hs : Touch.covers sc voidScope := by decide +kernel) : Within sc m0 (m.voidOwned e) := by
  refine h.andThen hs ?_
  unfold Hw.voidOwned
  extract_lets r m1 keep m2 m3 m4
  have h1 : Within voidScope m m1 :=
    .ite Within.refl.voidTickets.retireConvs_host (.ite Within.refl.voidTickets.settleBus_host Within.refl.voidTickets)
  have h2 : Within voidScope m m2 := h1.part_sub
  have h3 : Within voidScope m m3 := .ite (h2.foldl fun _ _ hm => hm.dropTicket) h2
  exact .ite h3.voidWork_host h3.voidWork_host.faultAt

end

end Sys2Proof.Machine
end

