-- ==== Sys2Proof/Proofs/Domains.lean ====
section
/-! PROOFS. Engines and domains (O35). -/

namespace Sys2Proof.Machine

set_option Elab.async false

/-! ### Domains -/

theorem Hw.domain_of_domains {m m' : Hw} (h : m'.arch.domains = m.arch.domains) (d : Domain) :
    m'.domain d = m.domain d := by rw [Hw.domain, h, Hw.domain]

/-- The domain that was written, in a block that has it. -/
theorem Hw.domain_setDomain {m : Hw} {d : Domain} (x : DomainSt) (h : d.index < m.arch.domains.length) :
    (m.setDomain d x).domain d = x := by
  simp [Hw.setDomain, Hw.domain, h]

theorem Engine.index_lt (e : Engine) : e.index < 12 := by cases e <;> decide

theorem Domain.index_lt (d : Domain) : d.index < 10 := by cases d <;> decide

/-- A domain that is not in its starting state stands in the block's list. -/
theorem Hw.index_lt_domains {m : Hw} {d : Domain} {f : Nat} (h : (m.domain d).offReq = some f) :
    d.index < m.arch.domains.length := by
  by_contra hn
  simp [Hw.domain, Nat.not_lt.1 hn] at h

theorem Hw.unitsDark_domains (m : Hw) (d : Domain) : (m.unitsDark d).arch.domains = m.arch.domains :=
  ((Within.refl.unitsDark (hs := Touch.covers_refl _)).kept .domains).1

theorem Hw.darken_domains (m : Hw) (d : Domain) : (m.darken d).arch.domains = m.arch.domains := by
  rw [Hw.darken, Hw.clear_only]

/-! ### What goes dark -/

theorem Hw.chargeReset_input (m : Hw) : m.chargeReset.flt.input = m.flt.input := by
  unfold Hw.chargeReset
  dsimp only
  split
  · rfl
  · split
    · rfl
    · exact Hw.chgTo_input _ _ (by decide)

theorem Hw.unitsDark_input (m : Hw) {d : Domain} (h : domainSide d = .field) :
    (m.unitsDark d).flt.input = m.flt.input := by
  have hdark : ∀ m : Hw, (m.linkOut 0).flt.input = m.flt.input := fun _ =>
    ((Within.refl.linkOut (hs := Touch.covers_refl _)).kept .faultInput).1
  cases d with
  | fBkp | fAon | fAdc | fMem | fPwr | fLink => rfl
  | fCore => exact (hdark _).trans (Hw.chargeReset_input m)
  | hAon | hCore | hPwr => cases h

/-- The fields of the link that stand at their reset values while it is out. -/
def linkOutFields : List Field :=
  [Reg.TL_H_STATUS_STATE, Reg.TL_F_STATUS_STATE, Reg.ID_STATUS_LINK, Reg.ID_STATUS_FIELD_READY]

theorem Hw.linkOut_rd_dark (m : Hw) {f : Field} (h : f ∈ linkOutFields) : (m.linkOut 0).rd f = f.reset := by
  simp only [linkOutFields, List.mem_cons, List.not_mem_nil, or_false] at h
  rcases h with rfl | rfl | rfl | rfl
  all_goals
    simp (disch := decide +kernel) [*, Hw.linkOut]
    rfl

/-- The fields of the rail link's session that stand at their reset values when it has ended. -/
def sessionFields : List Field := [Reg.RL_STATUS_EVQ, Reg.RL_STATUS_SPEED]

theorem Hw.endSession_rd_dark (m : Hw) {f : Field} (h : f ∈ sessionFields) : m.endSession.rd f = f.reset := by
  simp only [sessionFields, List.mem_cons, List.not_mem_nil, or_false] at h
  rcases h with rfl | rfl
  all_goals
    simp (disch := decide +kernel) [*, Hw.endSession]
    rfl

/-- What a unit that goes dark writes beside its dark fields leaves these at their reset values. -/
theorem Within.rd_dark {sc : List Touch} {m m' : Hw} {d : Domain} {fs : List Field} (h : Within sc m m')
    (hspare : ∀ f ∈ darkFields d, f ∉ fs → Touch.spares sc f.key = true) (hfs : ∀ f ∈ fs, m'.rd f = f.reset) {f : Field}
    (hf : f ∈ darkFields d) (hdark : m.rd f = f.reset) : m'.rd f = f.reset := by
  by_cases hin : f ∈ fs
  · exact hfs f hin
  · exact (h.rd f (hspare f hf hin)).trans hdark

theorem Hw.powerDomain_rd_dark (m : Hw) {d : Domain} (hd : switchable d = true) {f : Field} (hf : f ∈ darkFields d) :
    (m.powerDomain d false).rd f = f.reset := by
  have hkeys : ((darkFields d).map Field.key).Nodup := by
    cases d with
    | hCore | fCore | fAdc | fMem | fLink => decide +kernel
    | fBkp | fAon | fPwr | hAon | hPwr => cases hd
  have hfits : f.reset % 2 ^ f.width = f.reset := by
    revert f
    cases d with
    | hCore | fCore | fAdc | fMem | fLink => decide +kernel
    | fBkp | fAon | fPwr | hAon | hPwr => cases hd
  exact (Hw.rd_clear_mem (fun g hg hkey => List.inj_on_of_nodup_map hkeys hg hf hkey) _ (.inl hf)).trans hfits

theorem Hw.openDomain_rd_dark (m : Hw) {d : Domain} (hd : switchable d = true) {f : Field} (hf : f ∈ darkFields d) :
    (m.openDomain d).rd f = f.reset := by
  have hdark := Hw.powerDomain_rd_dark m hd hf
  unfold Hw.openDomain
  generalize m.powerDomain d false = m' at hdark
  cases d with
  | fAdc | fMem => exact hdark
  | hCore =>
    exact (((Within.refl.alertSettle (hs := Touch.covers_refl _)).rd f rfl :)).trans
      ((Within.refl.linkOut (hs := Touch.covers_refl _)).rd_dark (m := m'.coresOff .host) (d := .hCore)
        (fs := linkOutFields) (by decide +kernel) (fun f hin => Hw.linkOut_rd_dark _ hin) hf hdark)
  | fCore =>
    have hcharge : m'.chargeReset.rd f = m'.rd f :=
      (Within.refl.chargeReset (hs := Touch.covers_refl _)).rd f (by clear hdark; revert f; decide +kernel)
    have hclear : (m'.chargeReset.clear [Reg.CHG_STATUS_STATE]).rd f = m'.chargeReset.rd f :=
      Hw.rd_clear_ne (by clear hdark hcharge; revert f; decide +kernel) _
    exact (Within.refl.linkOut (hs := Touch.covers_refl _)).rd_dark (d := .fCore) (fs := linkOutFields)
      (by decide +kernel) (fun f hin => Hw.linkOut_rd_dark _ hin) hf ((hclear.trans hcharge).trans hdark)
  | fLink =>
    exact (Within.refl.endSession (hs := Touch.covers_refl _)).rd_dark (fs := sessionFields)
      (by decide +kernel) (fun f hin => Hw.endSession_rd_dark _ hin) hf hdark
  | fBkp | fAon | fPwr | hAon | hPwr => cases hd

theorem Hw.openDomain_domain (m : Hw) {d : Domain} (h : d.index < m.arch.domains.length) :
    (m.openDomain d).domain d = { on := false, pg := false, offReq := none } :=
  (Hw.domain_of_domains ((Hw.unitsDark_domains ..).trans (Hw.darken_domains ..)) d).trans (Hw.domain_setDomain _ h)

/-! ### Starting again -/

theorem Hw.fieldReset_domains (m : Hw) (l : Letter) (source cause : Nat) :
    (m.fieldReset l source cause).arch.domains = m.arch.domains :=
  have h : Within (Touch.fieldReset ++ [.fieldSide]) m (m.fieldReset l source cause) := Within.refl.fieldReset
  (h.kept .domains).1

theorem Hw.stagingLost_domains (m : Hw) : m.stagingLost.arch.domains = m.arch.domains :=
  ((Within.refl.stagingLost (hs := Touch.covers_refl _)).kept .domains).1

theorem Hw.refAgain_domains (m : Hw) : (m.refOn.arrange 0).arch.domains = m.arch.domains :=
  (((Within.refl.arrange (hs := Touch.covers_refl _)).kept .domains).1).trans
    ((Within.refl.refOn (hs := Touch.covers_refl _)).kept .domains).1

theorem Hw.linkAgain_domains (m : Hw) :
    (m.wr Reg.TWN_STATUS_LINK (b2n (m.on Reg.TWN_CFG_EN))).endSession.arch.domains = m.arch.domains :=
  ((Within.refl.endSession (hs := Touch.covers_refl _)).kept .domains).1

theorem Hw.domainBack_domains (m : Hw) {d : Domain} (hd : switchable d = true) (hside : domainSide d = .field) :
    (m.domainBack d).arch.domains = (m.setDomain d { on := true, pg := true, offReq := none }).arch.domains := by
  unfold Hw.domainBack
  dsimp only
  generalize m.setDomain d { on := true, pg := true, offReq := none } = m'
  cases d with
  | fCore =>
    dsimp only
    exact Hw.fieldReset_domains m' .w 0x10 0
  | fMem =>
    dsimp only
    exact Hw.stagingLost_domains m'
  | fLink =>
    dsimp only
    exact Hw.linkAgain_domains m'
  | fAdc =>
    dsimp only
    exact Hw.refAgain_domains m'
  | hCore => cases hside
  | fBkp | fAon | fPwr | hAon | hPwr => cases hd

theorem Hw.switchOn_domain (m : Hw) {d : Domain} (hd : switchable d = true) (hside : domainSide d = .field)
    (hlen : m.arch.domains.length = 10) : ((m.switchOn d).domain d).on = true ∧
      ((m.switchOn d).domain d).offReq = none ∧ ((m.domain d).on = false → ((m.switchOn d).domain d).pg = true) := by
  have hset : ∀ x, (m.setDomain d x).domain d = x := fun x => Hw.domain_setDomain x (hlen ▸ Machine.Domain.index_lt d)
  unfold Hw.switchOn
  split
  · next hon => exact ⟨by rw [hset]; exact hon, by rw [hset], fun hoff => absurd hon (by simp [hoff])⟩
  · have hback : (m.domainBack d).domain d = { on := true, pg := true, offReq := none } := by
      rw [← hset { on := true, pg := true, offReq := none }]
      exact Hw.domain_of_domains (m.domainBack_domains hd hside) d
    exact ⟨by rw [hback], by rw [hback], fun _ => by rw [hback]⟩

theorem Hw.dropTickets_jrn (m : Hw) (ns : List Nat) :
    (ns.foldl (fun m n => m.dropTicket n) m).jrn.staged = m.jrn.staged ∧
      (ns.foldl (fun m n => m.dropTicket n) m).jrn.scanned = m.jrn.scanned := by
  have h : Within (Touch.issuing ++ parts [.adc, .bus, .waits, .sub]) m (ns.foldl (fun m n => m.dropTicket n) m) :=
    Within.refl.foldl fun _ _ h => h.dropTicket
  have hjrn := h.kept .journal
  exact ⟨(congrArg Jrn.staged hjrn :), (congrArg Jrn.scanned hjrn :)⟩

theorem Hw.nextAfterLoss_jrn (m : Hw) :
    m.nextAfterLoss.jrn.staged = m.jrn.staged ∧ m.nextAfterLoss.jrn.scanned = m.jrn.scanned := by
  unfold Hw.nextAfterLoss
  extract_lets any n m1 _ m2
  have hseal : m2.takeSealing.jrn = m2.jrn := by simp (disch := decide +kernel) [*, Hw.takeSealing]
  split
  · rw [hseal]
    exact ⟨rfl, rfl⟩
  · exact ⟨rfl, rfl⟩

theorem Hw.stagingLost_jrn (m : Hw) : m.stagingLost.jrn.staged = [] ∧ m.stagingLost.jrn.scanned = false := by
  unfold Hw.stagingLost
  extract_lets gone _ m1
  obtain ⟨hstaged, hscanned⟩ := m1.nextAfterLoss.dropTickets_jrn gone
  obtain ⟨hstaged1, hscanned1⟩ := m1.nextAfterLoss_jrn
  exact ⟨hstaged.trans hstaged1, hscanned.trans hscanned1⟩

/-- What a loss of F-AON leaves of F-AON itself, of the tickets and of the staged records: nothing. -/
def Hw.StoresGone (m : Hw) : Prop := m.modes.faonOn = false ∧ m.tkt.table = [] ∧ m.jrn.staged = []

theorem Hw.nextAfterLoss_gone {m : Hw} (h : m.StoresGone) : m.nextAfterLoss.StoresGone := by
  obtain ⟨hoff, htable, hstaged⟩ := h
  have hin : Within (parts [.journal] ++ Machine.regs [Reg.JRN_NEXT_JSN, Reg.JRN_STAGE_STAGED,
    Reg.JRN_STATUS_SEALING]) m m.nextAfterLoss := Within.refl.nextAfterLoss
  exact ⟨((congrArg Modes.faonOn (hin.kept .modes) :)).trans hoff, ((hin.kept .tickets)).trans htable,
    m.nextAfterLoss_jrn.1.trans hstaged⟩

theorem Hw.fieldLost_stores (m : Hw) {l : Letter} (hl : l ≠ .v) : (m.fieldLost l).StoresGone := by
  unfold Hw.fieldLost
  extract_lets m1 m2 m3 d units sq _ _ m4 m5
  have hm4 : m4.StoresGone := Hw.nextAfterLoss_gone ⟨rfl, rfl, rfl⟩
  have hm5 : m5 = m4 := if_neg hl
  change m5.StoresGone
  rw [hm5]
  exact hm4

/-- The mode that was set, and every change of it shows as a change. -/
theorem Hw.setMode_mode (m : Hw) {new : Nat} (cause : Nat) (h : new < 2 ^ Reg.MODE_STATUS_MODE.width) :
    (m.setMode new cause).mode = new := by
  unfold Hw.setMode
  split
  · next hnew => exact hnew
  · simp (disch := decide +kernel) [*, Hw.mode_rd]
    exact Nat.mod_eq_of_lt h

/-- The module becomes a source from FLOAT (R120). -/
theorem Hw.enterSource_mode (m : Hw) : m.enterSource.mode = modeSOURCE := by
  unfold Hw.enterSource
  dsimp only
  rw [Hw.mode_rd, (Within.refl.orderXfer (hs := Touch.covers_refl _)).rd _ (by decide +kernel),
    (Within.refl.writeRev (hs := Touch.covers_refl _)).rd _ (by decide +kernel), ← Hw.mode_rd]
  exact Hw.setMode_mode _ 6 (by decide)

/-! ### The clauses -/

theorem putKey_length (k v : Nat) (rs : Regs) : (putKey k v rs).length ≤ rs.length + 1 := by
  induction rs with
  | nil => exact Nat.le_refl _
  | cons e rs ih =>
    obtain ⟨j, u⟩ := e
    unfold putKey
    split
    · exact Nat.le_refl _
    · split
      · exact Nat.le_succ _
      · exact Nat.succ_le_succ ih

theorem Hw.wr_regs_length (m : Hw) (f : Field) (v : Nat) : (m.wr f v).regs.length ≤ m.regs.length + 1 := by
  unfold Hw.wr
  dsimp only
  split
  · exact (List.length_filter_le _ _).trans (Nat.le_succ _)
  · exact putKey_length ..

theorem Hw.faultAt_regs_length (m : Hw) (k : FaultKind) (src d : Nat) :
    (m.faultAt k src d).regs.length ≤ m.regs.length + 1 := by
  unfold Hw.faultAt Hw.faultW Hw.stampW
  dsimp only
  split
  · exact Hw.wr_regs_length ..
  · exact Nat.le_succ _

theorem Hw.hfaultAt_regs_length (m : Hw) (k : FaultKind) (src d : Nat) :
    (m.hfaultAt k src d).regs.length ≤ m.regs.length + 1 := by
  unfold Hw.hfaultAt Hw.hfaultW
  extract_lets m1 m2
  have hm2 : m2.regs = m.regs := by
    change (Hw.probHeard _ _).regs = m.regs
    unfold Hw.probHeard
    dsimp only
    split
    · split <;> rfl
    · rfl
  rw [← hm2]
  split
  · unfold Hw.alertSet
    extract_lets fresh m3
    have hm3 : m3.regs.length ≤ m2.regs.length + 1 := Hw.wr_regs_length ..
    split <;> exact hm3
  · exact Nat.le_succ _

theorem Hw.sideFault_regs_length (m : Hw) (sd : Side) (k : FaultKind) (src d : Nat) :
    (m.sideFault sd k src d).regs.length ≤ m.regs.length + 1 := by
  cases sd with
  | host => exact Hw.hfaultAt_regs_length ..
  | field => exact Hw.faultAt_regs_length ..

/-- What a restart of an engine changes beside the engine and the epoch of the tickets. -/
def restartScope : List Touch :=
  voidScope ++ parts [.hostBusy, .linkHost, .latches, .cable, .rl] ++ regs [Reg.CHG_STATUS_EN,
    Reg.BATFET_STATUS_STATE, Reg.CHG_STATUS_STATE, Reg.CHG_V_SET, Reg.CHG_I_SET, Reg.CHG_STATUS_FAULT_LATCH,
    Reg.STAT_LATCH_EVENTS, Reg.STAT_LATCH_PADS, Reg.STAT_LATCH_FN, Reg.RL_STATUS_EVQ]

/-- A restart runs its engine again, and writes the epoch of the tickets on the field side alone (R329). -/
theorem Hw.restartEngine_epoch (m : Hw) (e : Engine) (cause : Nat) :
    (m.restartEngine e cause).arch.engines =
        (m.setEngine e { running := true, restarting := true, handover := false, fenced := false }).arch.engines ∧
      (m.restartEngine e cause).rd Reg.TKT_EPOCH_EPOCH =
        if e.side = .field then (m.rd Reg.TKT_EPOCH_EPOCH + 1) % 2 ^ 32 else m.rd Reg.TKT_EPOCH_EPOCH := by
  unfold Hw.restartEngine
  extract_lets m1 _ m2 m3 m4
  have hengines : m1.arch.engines =
      (m.setEngine e { running := true, restarting := true, handover := false, fenced := false }).arch.engines :=
    (Within.refl.dropCheckin (hs := Touch.covers_refl _)).kept .engines
  have hepoch : m1.rd Reg.TKT_EPOCH_EPOCH = m.rd Reg.TKT_EPOCH_EPOCH :=
    (Within.refl.dropCheckin (hs := Touch.covers_refl _)).rd Reg.TKT_EPOCH_EPOCH rfl
  rw [← hengines, ← hepoch]
  cases hside : e.side with
  | host =>
    dsimp only
    rw [if_neg (by decide)]
    have hin : Within restartScope m1 (m2.recordH JR.RESET 0x02 (resetPayload 0x45 .host e.id 0 cause)) :=
      .recordH (.ite Within.refl.host_busy Within.refl)
    exact ⟨hin.kept .engines, hin.rd Reg.TKT_EPOCH_EPOCH (by decide +kernel)⟩
  | field =>
    dsimp only
    rw [if_pos rfl]
    have hin : Within restartScope m1.nextEpoch (m4.resetRecord 0x45 .field e.id cause) :=
      .resetRecord (by
        unfold m4
        split
        · exact Within.refl.voidOwned_host.chargeReset
        · exact Within.refl.voidOwned_host.voidRail
        · exact Within.refl.voidOwned_host)
    exact ⟨hin.kept .engines, (hin.rd Reg.TKT_EPOCH_EPOCH (by decide +kernel)).trans
      (Hw.rd_wr_same m1 Reg.TKT_EPOCH_EPOCH _)⟩

theorem Hw.closeFrame_frn (m : Hw) : m.closeFrame.rd Reg.FRM_FRN_FRN = (m.rd Reg.FRM_FRN_FRN + 1) % 2 ^ 32 := by
  obtain ⟨m', heq, hcount⟩ := m.closeFrame_eq
  obtain ⟨hfrn, -⟩ := Prod.mk.inj hcount
  rw [heq, ← hfrn, Hw.advanceFrn]
  split
  · next h =>
    change m'.rd Reg.FRM_FRN_FRN = _ at h
    rw [h]
    simp (disch := decide +kernel) [*]
  · exact Hw.rd_wr_same m' Reg.FRM_FRN_FRN _


/-- Settles O35, clause by clause: what a command does to engines and domains stands in the operation that it calls, and
what that operation does beside it spares the fields that the clause reads. -/
theorem enginesAndDomainsFollow : Obligations.EnginesAndDomainsFollow := by
  unfold Obligations.EnginesAndDomainsFollow
  refine ⟨?_, ?_, ?_, ?_, ?_, ?_, ?_, ?_, ?_, ?_, ?_, ?_⟩
  · intro s f hon
    obtain ⟨t, ht, hcount⟩ := execFrameTick_frameCount f hon
    exact ⟨t, ht, (Prod.mk.inj hcount).1.trans (Hw.closeFrame_frn _)⟩
  · intro s f hoff
    refine State.next_on_self ?_
    simp (disch := decide +kernel) [*]
  · intro s w addr a hw
    refine ⟨_, rfl, ?_⟩
    rw [State.on_hw, if_neg hw]
    refine ⟨Hw.sideFault_regs_length .., fun hside => ?_, fun hside => ?_⟩
    · rw [hside]
      exact Hw.faultAt_input ..
    · rw [hside]
      exact Hw.hfaultAt_hostBuf ..
  · intro s addr d hside hd hlen
    refine ⟨_, rfl, ?_⟩
    have hact : ¬(domainSide d ≠ Engine.f0.side ∨ ¬switchable d = true) := by
      rw [hside, hd]
      decide
    rw [State.on_hw]
    dsimp only
    rw [if_pos (by decide), if_neg hact, if_pos rfl]
    exact Hw.switchOn_domain _ hd hside hlen
  · intro s e hlen hrun hfree hprob
    refine ⟨_, rfl, ?_⟩
    rw [State.on_hw, if_neg (by simp [hrun, hfree]), Hw.probEnds, hprob]
    obtain ⟨hengines, hepoch⟩ := Hw.restartEngine_epoch s.hw e 0
    refine ⟨?_, hepoch⟩
    have hset := Hw.engine_setEngine (m := s.hw) (e := e)
      { running := true, restarting := true, handover := false, fenced := false } (hlen ▸ Machine.Engine.index_lt e)
    dsimp only
    rw [Hw.engine, hengines, ← Hw.engine, hset]
  · intro s d hpg hside hd hlen
    refine ⟨_, rfl, ?_⟩
    rw [State.on_hw, Hw.pgFall, if_neg (by simp [hpg]), if_neg hd]
    dsimp only
    rw [hside]
    refine ⟨?_, (Hw.faultAt_input ..).trans ?_⟩
    · have hset : ((s.hw.setDomain d { s.hw.domain d with pg := false }).domain d).pg = false := by
        rw [Hw.domain_setDomain _ (hlen ▸ Machine.Domain.index_lt d)]
      generalize s.hw.setDomain d { s.hw.domain d with pg := false } = m at hset
      rw [← hset]
      refine congrArg DomainSt.pg (Hw.domain_of_domains ?_ d)
      have hfault : ((((m.darken d).unitsDark d).faultAt Kind.DOMAIN_PG (principal d) d.index)).arch =
          ((m.darken d).unitsDark d).arch := Hw.faultAt_arch ..
      exact (congrArg Arch.domains hfault).trans ((Hw.unitsDark_domains ..).trans (Hw.darken_domains ..))
    · rw [Hw.unitsDark_input _ hside, Hw.darken, Hw.clear_only]
      rfl
  · intro s hpg
    refine ⟨_, rfl, ?_⟩
    rw [State.on_hw, Hw.pgFall, if_neg (by simp [hpg]), if_pos rfl]
    exact Hw.fieldLost_stores _ (by decide)
  · intro s hon hpg hlen
    refine ⟨_, rfl, ?_⟩
    rw [State.on_hw, if_pos ⟨hon, by simp [hpg]⟩]
    refine ⟨?_, Hw.stagingLost_jrn _⟩
    rw [Hw.domain_of_domains (Hw.domainBack_domains s.hw rfl rfl)]
    exact congrArg DomainSt.pg (Hw.domain_setDomain _ (by rw [hlen]; decide))
  · intro s d hd hon hnone hlen
    refine ⟨_, rfl, ?_⟩
    rw [State.on_hw, Hw.switchOff, if_neg (by simp [hd, hon]), if_neg (by simp [hnone])]
    have hdomain := Hw.openDomain_domain s.hw (d := d) (hlen ▸ Machine.Domain.index_lt d)
    exact ⟨by rw [hdomain], by rw [hdomain], fun f hf => Hw.openDomain_rd_dark _ hd hf⟩
  · intro s d f hreq hlate htable
    refine ⟨_, rfl, ?_⟩
    rw [State.on_hw, hreq]
    dsimp only
    rw [if_neg (by omega), htable]
    have hdomain := Hw.openDomain_domain s.hw (Hw.index_lt_domains hreq)
    exact ⟨(congrArg DomainSt.on hdomain :), (congrArg DomainSt.offReq hdomain :)⟩
  · intro s i hreader
    refine ⟨_, rfl, ?_⟩
    rw [State.on_hw]
    dsimp only
    rw [hreader]
    refine (Hw.faultAt_input ..).trans ?_
    rw [Hw.dropEntry]
    split <;> rfl
  · intro s t vcbufLow hmode hcode hfree
    rw [Hw.mode_rd] at hmode
    refine ⟨_, rfl, ?_⟩
    rw [State.on_hw, Hw.onHCode, if_pos hcode]
    have hfloat : (s.hw.takeHCode .fastRoleSwap).mode = modeFLOAT := hmode
    have hfree' : ((s.hw.takeHCode .fastRoleSwap).engine .f0).restarting = false := hfree
    generalize s.hw.takeHCode .fastRoleSwap = m at hfloat hfree'
    rw [if_pos (.inl hfloat)]
    dsimp only
    rw [if_neg (c := (m.engine .f0).restarting = true) (by simp [hfree']), Hw.swapSource,
      if_pos (c := m.mode = modeFLOAT ∨ m.mode = modeCHARGE) (.inl hfloat)]
    have hsource := Hw.enterSource_mode m
    split
    · have hcut := (Within.refl.cutFreeze (m := m.enterSource.atT t) (reason := rsnSourceLoad) (full := false)
        (hs := Touch.covers_refl _)).rd Reg.MODE_STATUS_MODE (by decide +kernel)
      exact (hcut.trans (Hw.atT_rd (by decide) (by decide) _ t)).trans hsource
    · exact hsource

end Sys2Proof.Machine
end
